-- ==== Sys2Proof/Word.lean ====
section
/-! DEFINITION. The word types of the module and the byte strings that commands carry. -/

namespace Sys2Proof

/-- A register of BAR0, a g register, a peg: 64 bits (spec/00 R13, spec/04 R95, R108). -/
abbrev Word := BitVec 64

/-- The smallest unit of device memory, frames and messages. -/
abbrev Byte := BitVec 8

/-- A string of bytes, first byte first. -/
abbrev Bytes := List (BitVec 8)

end Sys2Proof
end

