-- ==== Sys2Proof/Syntax.lean ====
section
/-! DEFINITION. The commands of the block: `Instr`, one constructor for each row of spec/opcode_table.json,
with the operands that the rows' rules name, and the types of those operands. -/

namespace Sys2Proof

/-- A DXN context by agent (spec/04 R93): C context `n`, slot `s` of Basin engine `e`,
context `n` of tenon `Qq.row.col`. -/
inductive Ctx where
  | c (n : Fin 64)
  | b (e : Fin 8) (s : Fin 1024)
  | t (q : Fin 4) (row : Fin 30) (col : Fin 32) (n : Fin 4)
  deriving DecidableEq, Repr

/-- What a read of host memory brings: its bytes, a failed read, or poisoned data with the bytes that come before its first
poisoned line (spec/03 R83, R91; spec/05 R154). -/
inductive HostRead where
  | ok (data : Bytes)
  | failed
  | poisoned (before : Bytes)
  deriving DecidableEq, Repr

/-- An error that an access finds (spec/13 R364 to R366), or a residue that disagrees (spec/09 R268). -/
inductive ErrKind where
  | corrected
  | uncorrectable
  | residue
  deriving DecidableEq, Repr

/-- An error found at one address: a device address, or an accumulate-memory offset for `residue`. -/
structure LineErr where
  addr : Word
  kind : ErrKind
  deriving DecidableEq, Repr

/-- An error that a read of the forwarding tables finds (spec/07 R206): in a row, or in a trie node memory of a slice. -/
inductive TableErr where
  | row (table bank row : Nat) (uncorrectable : Bool)
  | node (slice bank node : Nat)
  deriving DecidableEq, Repr

/-- What a scan finds of one laser source (spec/01 R36). -/
structure LaserScan where
  present : Bool
  fault : Bool
  serial : BitVec 32
  deriving DecidableEq, Repr

/-- One source's readings (spec/01 R36): temperature, bias, line power in 0.01 dBm, fault flags. -/
structure LaserReading where
  temp : BitVec 16
  bias : BitVec 16
  power : BitVec 16
  flags : BitVec 16
  deriving DecidableEq, Repr

/-- One 10 us sample (spec/14 R387, R393): 53 temperatures in 0.125 C, input power in W (the 1 ms
average of R389), input voltage in 10 mV, share of pair A in percent. -/
structure SensorSample where
  temps : List (BitVec 16)
  watts : BitVec 16
  tenMv : BitVec 16
  shareA : BitVec 8
  deriving DecidableEq, Repr

/-- A capture in the time base's layout (spec/12 R341, R344): seconds 48, nanoseconds 32, fraction 16 bits. -/
abbrev TimeStamp := BitVec 96

/-- A circuit request that the plane manager passes to a worker (spec/17 R447). -/
structure CircuitMsg where
  worker : Fin 1023
  a : BitVec 64
  b : BitVec 64
  inId : BitVec 64
  outId : BitVec 64
  deriving DecidableEq, Repr

/-- The transport of a vendor command (spec/15 R411): the primary mailbox; MCTP on CXL.io or HOST_I3C; or a datagram on MGA or MGB from
a requester's address and port to an address of the module. -/
inductive Via where
  | mailbox
  | mctp (i3c : Bool)
  | udp (mgb : Bool) (peer own : BitVec 128) (port : BitVec 16)
  deriving DecidableEq, Repr

/-- The part of a firmware transfer that one Transfer FW carries (spec/15 R401). -/
inductive TransferPart where
  | initiate
  | continue_
  | finish
  | abort
  deriving DecidableEq, Repr

/-- A stream over the mesh: ingress slice, egress port, class (spec/08 R229). -/
structure MeshStream where
  slice : Fin 8
  port : Fin 2048
  cls : Fin 8
  deriving DecidableEq, Repr

/-- A rectangle of tenons as TEN_ASSIGN gives it (spec/10 R292). -/
structure TenonRect where
  firstRow : BitVec 5
  lastRow : BitVec 5
  firstCol : BitVec 5
  lastCol : BitVec 5
  deriving DecidableEq, Repr

/-- Modulator ring (k, l) of engine e (spec/11 R311). -/
structure RingId where
  e : Fin 32
  k : Fin 8
  l : Fin 8
  deriving DecidableEq, Repr

/-- The event and general messages the boundary clock sends at an interval (spec/12 R346). -/
inductive PtpKind where
  | sync
  | announce
  | delayReq
  deriving DecidableEq, Repr

/-- A received PTP message: the fields of IEEE 1588-2019 that spec/12 R346 to R352 use.
`correction` is in 2^-16 ns; `origin` is originTimestamp, receiveTimestamp or preciseOriginTimestamp. -/
structure PtpMsg where
  domain : Byte
  source : Word
  sourcePort : BitVec 16
  seq : BitVec 16
  twoStep : Bool
  logInterval : BitVec 8
  origin : TimeStamp
  correction : BitVec 64
  requester : Word
  requesterPort : BitVec 16
  gmId : Word
  priority1 : Byte
  clockClass : Byte
  accuracy : Byte
  variance : BitVec 16
  priority2 : Byte
  steps : BitVec 16
  utcOffset : BitVec 16
  timeFlags : Byte
  timeSource : Byte
  deriving DecidableEq, Repr

/-- One DIMM as its SPD describes it (spec/13 R361, R362). -/
structure DimmInfo where
  channel : Fin 8
  slot : Fin 2
  rdimmX4Ecc : Bool
  ranks : Nat
  speedOk : Bool
  sizeGiB : Nat
  model : BitVec 32
  deriving DecidableEq, Repr

/-- The commands: one constructor for each row of spec/opcode_table.json. -/
inductive Instr where
  /-- POWER_UP (R38). Both blade pairs above the turn-on threshold with PWR_EN high (t0) start the hot-swap stage charging the bulk capacitance. -/
  | powerUp
  /-- BULK_CHARGED (R38). The bulk capacitance reaches charge, the always-on rails start, and then PWR_GOOD rises and the root of trust starts. -/
  | bulkCharged
  /-- MOD_RST_N_RISE (R39). The effective rise of MOD_RST_N (t1) samples the straps and starts the remaining bays; an early rise is deferred to PWR_GOOD + 1 ms. -/
  | modRstNRise (straps : BitVec 6)
  /-- PERST_N_RELEASE (R39). Release of PERST_N starts CXL link training; an early release takes effect at t1 + 1 ms. -/
  | perstNRelease
  /-- PERST_N_ASSERT (R87). A host interface reset disables every ring and completion ring without draining, zeroes HEAD and TAIL, and discards later completion records. -/
  | perstNAssert
  /-- POWER_DOWN (R40). A fall of PWR_EN takes the ports down, disables the lasers, switches off non-always-on bays, commits the Ledger and stops conversion. -/
  | powerDown
  /-- PFAIL_N_LOW (R41). A low of 1 µs or more on PFAIL_N is a power-fail warning. -/
  | pfailNLow
  /-- BLADE_PAIR_LOSS (R25). Loss of either blade pair while running is a power-fail warning. -/
  | bladePairLoss (pair : Fin 2)
  /-- PAIR_SHARE_TIMEOUT (R25). A pair's current share stays outside 40 % to 60 % for more than 1 ms, which is a power-fail warning. -/
  | pairShareTimeout (shareA : BitVec 8)
  /-- INPUT_SAG_DETECT (R24). The input stays below the falling power-fail threshold for 20 µs, which is a power-fail warning. -/
  | inputSagDetect
  /-- CONVERSION_STOP (R41). Conversion stops at the end of the power-fail or power-down sequence. -/
  | conversionStop
  /-- INPUT_RECOVERED (R42). After the input has been valid for 100 ms continuously with PWR_EN high, following a completed sequence, the power-up of Table 1.11 begins again. -/
  | inputRecovered
  /-- MOD_RST_N_LOW (R43). A low of 1 µs or more on MOD_RST_N after t1 takes the ports down, commits the Ledger and performs a module reset. -/
  | modRstNLow
  /-- LAS_INT_N_FALL (R36). A fall of LAS_INT_N makes the module scan all 32 laser sources within 100 ms, treating new sources as unpaired and vanished or faulted sources as loss of light. -/
  | lasIntNFall (scan : List LaserScan)
  /-- LASER_POLL (R36). Every 1 s the module reads each enabled source's temperature, bias, power and fault flags into the Ledger. -/
  | laserPoll (readings : List LaserReading)
  /-- PAIRING_CHECK_START (R35). A source is enabled at 6 dB below its setpoint for the pairing check of its engine. -/
  | pairingCheckStart (e : Fin 32)
  /-- PAIRING_CHECK_RESULT (R37). Within 20 ms the check passes when light appears only at the engine, or fails and disables the source when light reaches another engine. -/
  | pairingCheckResult (e : Fin 32) (light : BitVec 32)
  /-- LASER_RAMP_DONE (R35). A source finishes its 100 ms ramp to its setpoint, and the engine's rings leave the unlocked state. -/
  | laserRampDone (e : Fin 32)
  /-- SENSOR_SAMPLE (R387). Every 10 µs every sensor is sampled, driving THERM_N, the trip, thermal and power pacing, temperature-step, junction-limit and hold-margin records. -/
  | sensorSample (sample : SensorSample)
  /-- MONITOR_WINDOW_END (R53). At the end of each window a cadence monitor reports cadence and margin, and updates SIL_MON_BELOW and SIL_MON_ALARM. -/
  | monitorWindowEnd (n : Fin 50) (cadence : BitVec 16)
  /-- SUPPLY_LOOP_EVAL (R377). Every 5 µs the supply loop raises a VCORE rail by 2.5 mV when a margin is short, or lowers it after 1 ms of surplus. -/
  | supplyLoopEval (q : Fin 4)
  /-- SILL_PULSE (R57). A pulse or event reaches a count or event sill, which transfers at once when idle, accumulates or coalesces otherwise, and flags an overrun. -/
  | sillPulse (g : Fin 273) (b : Fin 64)
  /-- SILL_ACKNOWLEDGE (R57). A sill's acknowledge completes, and it captures and transfers any accumulated count. -/
  | sillAcknowledge (g : Fin 273) (b : Fin 64)
  /-- SIL_INJECT (R63). Setting SIL_INJECT.GO while the owning block is disabled issues PULSES injected pulses into the named sill. -/
  | silInject (group : BitVec 9) (bit : BitVec 6) (pulses : BitVec 8)
  /-- INJECTION_DONE (R63). The last injected pulse has been issued and GO reads 0. -/
  | injectionDone
  /-- LINK_TRAIN (R66). The CXL link trains at the highest permitted rate and width, falling back in the stated order. -/
  | linkTrain (trains : BitVec 6) (lopt : Bool)
  /-- LINK_RETRAIN (R66). A write to HIF_LINK_CTRL.RETRAIN retrains the link with the current limits. -/
  | linkRetrain (trains : BitVec 6) (lopt : Bool)
  /-- LINK_DOWN (R431). A CXL link-down or hot reset acts as a host interface reset. -/
  | linkDown
  /-- D3HOT_ENTRY (R67). In D3hot the device stops fetching descriptors and holds completion records and MSI-X messages. -/
  | d3hotEntry
  /-- D0_RETURN (R67). On return to D0 held completions are released and each enabled ring's line is re-read. -/
  | d0Return
  /-- BAR_MISALIGNED_ACCESS (R13). A BAR0 or BAR4 access of another size or alignment reads all ones or is discarded, and sets BAR_ACCESS and HIF_ERR_ADDR. `bar` is 0, 1, 2 for BAR0, BAR2, BAR4; `data` is what a write
  carries. An access that is accepted has its effect. -/
  | barMisalignedAccess (bar : Fin 3) (write : Bool) (size : BitVec 4) (offset : BitVec 26) (data : Word)
  /-- PEG_BAR2_SET (R70). A BAR2 write at 16p sets peg p, refused for pegs 0 to 1023 and for bad sizes with PEG_WINDOW, and wakes waiters. -/
  | pegBar2Set (p : BitVec 16) (v : Word)
  /-- PEG_BAR2_ADD (R70). A BAR2 write at 16p + 8 adds atomically to peg p, refused as for a set, and wakes waiters. -/
  | pegBar2Add (p : BitVec 16) (v : Word)
  /-- HOST_MEM_READ (R366). A host CXL.mem read returns device memory, corrected or marked poisoned, and poisoned for the firmware regions. -/
  | hostMemRead (addr : Word) (errs : List LineErr)
  /-- HOST_MEM_WRITE (R367). A host CXL.mem write stores data, clearing poison on a full-line write, and is discarded in the firmware regions. -/
  | hostMemWrite (addr : Word) (data : Bytes) (mask : BitVec 64)
  /-- RING_ENABLE (R86). Setting a ring's enable bit runs the plumb check of Table 3.11 and, once it passes, reads the watched line in Shared state. -/
  | ringEnable (r : Fin 1024)
  /-- RING_DISABLE (R86). Clearing a ring's enable bit stops fetching and puts the ring in the draining state. -/
  | ringDisable (r : Fin 1024)
  /-- RING_DRAINED (R86). A draining ring's last item retires and the ring becomes disabled. -/
  | ringDrained (r : Fin 1024)
  /-- CQ_ENABLE (R86). Setting HIF_CQ_CFG.ENABLE runs the plumb check and sets TAIL to 0 and PHASE to 1. -/
  | cqEnable (c : Fin 256)
  /-- CQ_DISABLE (R86). Clearing a completion ring's enable bit is ignored and logged while a ring or a work item names it. -/
  | cqDisable (c : Fin 256)
  /-- WATCHED_LINE_SNOOP (R73). A SnpInv of a watched line is answered and dropped, and crosses the event sill, after which the device issues RdShared for the line. -/
  | watchedLineSnoop (r : Fin 1024)
  /-- WATCHED_LINE_DATA (R75). Watched-line data returns; TAIL is validated, a spurious snoop ends, a bad TAIL errors the ring, and descriptor fetches are issued. -/
  | watchedLineData (r : Fin 1024) (read : HostRead)
  /-- WATCH_POLL (R76). Every HIF_WATCH_POLL.PERIOD each active ring's line is read with RdCurr and handled as at step 6. -/
  | watchPoll (r : Fin 1024) (read : HostRead)
  /-- DESCRIPTOR_ARRIVAL (R81). A fetched descriptor arrives, advances HEAD and is checked for version, reserved fields, domain and peg rights before admission. -/
  | descriptorArrival (r : Fin 1024) (read : HostRead)
  /-- DESCRIPTOR_ADMIT (R80). A descriptor is admitted in ring order once FENCE, WAIT, work-item and context conditions allow. -/
  | descriptorAdmit (item : Nat)
  /-- DESCRIPTOR_NOP (R78). A NOP descriptor completes at admission. -/
  | descriptorNop (item : Nat)
  /-- DESCRIPTOR_RUN (R131). A RUN descriptor takes a command processor context, and the context reads and checks the image and starts the C program. -/
  | descriptorRun (item : Nat)
  /-- DESCRIPTOR_ABORT (R85). An ABORT descriptor aborts every item of its ring with the TAG in ARG0 and completes OK with the count aborted. -/
  | descriptorAbort (item : Nat)
  /-- PARKED_WAIT_SATISFIED (R80). The WAIT_PEG condition of a parked descriptor becomes true and the descriptor starts. -/
  | parkedWaitSatisfied (item : Nat)
  /-- DESCRIPTOR_WAIT_TIMEOUT (R80). The WAIT_TIMEOUT of a parked descriptor expires and it completes with WAIT_TIMEOUT. -/
  | descriptorWaitTimeout (item : Nat)
  /-- IMAGE_READ_COMPLETE (R131). The image header or body read finishes; checks 0x01 to 0x09 run, the context is initialised and the first instruction is fetched, or the descriptor completes with IMAGE_REJECTED or MEMORY_ERROR. -/
  | imageReadComplete (n : Fin 64) (read : HostRead) (errs : List LineErr)
  /-- WORK_COMPLETION (R84). A work item completes; the record is written, then the peg add, then the MSI-X message, as FLAGS ask. -/
  | workCompletion (item : Nat)
  /-- CQ_HEADPTR_REREAD (R83). While a completion ring is full, the device re-reads HIF_CQ_HEADPTR every 1 µs and writes held records once room appears. -/
  | cqHeadptrReread (c : Fin 256) (read : HostRead)
  /-- CQ_STALL_TIMEOUT (R83). A completion ring stalled for 100 µs sets HIF_ERR_STATUS.CQ_STALL. -/
  | cqStallTimeout (c : Fin 256)
  /-- IDE_FAILURE (R91). An IDE integrity failure sets IDE_FAILURE and makes the link unusable until keys are re-established. -/
  | ideFailure
  /-- MCTP_MESSAGE (R89). An MCTP message on CXL.io or HOST_I3C is served in arrival order, or dropped as malformed with MCTP_DROP. -/
  | mctpMessage (i3c : Bool) (wellFormed : Bool) (msg : Bytes)
  /-- IDENTIFY (R90). The mailbox Identify command returns the device identity. -/
  | identify
  /-- GET_EVENT_RECORDS (R90). The mailbox Get Event Records command returns event records. -/
  | getEventRecords
  /-- CLEAR_EVENT_RECORDS (R90). The mailbox Clear Event Records command clears event records. -/
  | clearEventRecords (count : Nat)
  /-- GET_SUPPORTED_LOGS (R90). The mailbox Get Supported Logs command lists the logs. -/
  | getSupportedLogs
  /-- GET_LOG (R90). The mailbox Get Log command returns a log. -/
  | getLog (offset : Nat) (length : Nat)
  /-- GET_FW_INFO (R401). Get FW Info reports both banks, the active bank and the pending bank. -/
  | getFwInfo (i3c : Bool)
  /-- TRANSFER_FW (R401). Transfer FW writes the inactive bank, marking it invalid and clearing any pending activation of it. -/
  | transferFw (part : TransferPart) (offset : Nat) (data : Bytes)
  /-- ACTIVATE_FW (R401). Activate FW checks the inactive bank and records it as pending, or completes with Invalid Input or Busy. -/
  | activateFw (bank : Fin 2)
  /-- GET_TIMESTAMP (R90). The mailbox Get Timestamp command returns the time. -/
  | getTimestamp
  /-- MAILBOX_UNSUPPORTED (R90). Any other mailbox command completes with Unsupported. -/
  | mailboxUnsupported (opcode : BitVec 16)
  /-- GET_ATTESTATION (R410). GET_ATTESTATION signs a report over the nonce and measurements under the next signature index and returns it with the encapsulation key. -/
  | getAttestation (via : Via) (nonce : Bytes)
  /-- GET_IDENTITY_CERT (R411). GET_IDENTITY_CERT returns the identity certificate. -/
  | getIdentityCert (via : Via)
  /-- PROVISION_PSK (R412). PROVISION_PSK decapsulates the ciphertext and stores a derived PSK in a volatile slot. -/
  | provisionPsk (via : Via) (slot : BitVec 8) (ciphertext : Bytes)
  /-- REVOKE_SLOT (R405). REVOKE_SLOT burns a vendor slot's revocation fuse under a signed message, unless refused with SECURITY_STATE. -/
  | revokeSlot (via : Via) (slot : BitVec 8) (signer : BitVec 8) (pubkey : Bytes) (msg : Bytes) (signature : Bytes)
  /-- COMMIT_SVN (R402). COMMIT_SVN burns anti-rollback fuses up to the running image's SVN, unless refused with SECURITY_STATE. -/
  | commitSvn (via : Via) (force : Bool)
  /-- EXTEND_MEASUREMENT (R403). EXTEND_MEASUREMENT extends measurement register 4 to 7 with a digest. -/
  | extendMeasurement (via : Via) (reg : BitVec 8) (digest : Bytes)
  /-- PSK_EXCHANGE (R413). An SPDM PSK_EXCHANGE establishes a session against a provisioned PSK slot. -/
  | pskExchange (i3c : Bool) (slot : BitVec 8) (version : BitVec 8) (msg : Bytes)
  /-- GET_MEASUREMENTS (R413). SPDM GET_MEASUREMENTS returns SEC_MEAS(0) to SEC_MEAS(7) as indices 1 to 8. -/
  | getMeasurements (i3c : Bool) (index : BitVec 8)
  /-- KEY_PROG (R414). An IDE_KM KEY_PROG within a session programs an idle IDE key set. -/
  | keyProg (i3c : Bool) (session : Nat) (protocol : Fin 3) (tx : Bool) (set : Fin 2) (key : Bytes)
  /-- K_SET_GO (R414). An IDE_KM K_SET_GO activates a programmed key set. -/
  | kSetGo (i3c : Bool) (session : Nat) (protocol : Fin 3) (tx : Bool) (set : Fin 2)
  /-- K_SET_STOP (R414). An IDE_KM K_SET_STOP stops a key set. -/
  | kSetStop (i3c : Bool) (session : Nat) (protocol : Fin 3) (tx : Bool) (set : Fin 2)
  /-- PEG_ASSIGN (R109). CMD_PEG_ASSIGN.GO assigns a range of pegs to a domain with value 0, or refuses with RANGE or OWNER_CONFLICT. -/
  | pegAssign (first : BitVec 16) (count : BitVec 16) (domain : BitVec 12)
  /-- CACHE_FLUSH (R132). CMD_CTRL.CACHE_FLUSH empties the verified-image table of every entry not in use. -/
  | cacheFlush
  /-- ADD (R142). gD := gA + gB. -/
  | dxnAdd (c : Ctx) (body : BitVec 56)
  /-- SUB (R142). gD := gA − gB. -/
  | dxnSub (c : Ctx) (body : BitVec 56)
  /-- MUL (R142). gD := gA × gB, integers keeping the low half. -/
  | dxnMul (c : Ctx) (body : BitVec 56)
  /-- MULH (R142). gD := the high half of gA × gB, signed or unsigned. -/
  | dxnMulh (c : Ctx) (body : BitVec 56)
  /-- DIV (R142). gD := gA ÷ gB; a zero divisor raises INTEGER_DIVIDE. -/
  | dxnDiv (c : Ctx) (body : BitVec 56)
  /-- REM (R142). gD := the remainder of gA ÷ gB, with the sign of gA. -/
  | dxnRem (c : Ctx) (body : BitVec 56)
  /-- MIN (R142). gD := the minimum of gA and gB. -/
  | dxnMin (c : Ctx) (body : BitVec 56)
  /-- MAX (R142). gD := the maximum of gA and gB. -/
  | dxnMax (c : Ctx) (body : BitVec 56)
  /-- AND (R142). gD := gA and gB. -/
  | dxnAnd (c : Ctx) (body : BitVec 56)
  /-- OR (R142). gD := gA or gB. -/
  | dxnOr (c : Ctx) (body : BitVec 56)
  /-- XOR (R142). gD := gA xor gB. -/
  | dxnXor (c : Ctx) (body : BitVec 56)
  /-- SHL (R142). gD := gA shifted left by gB. -/
  | dxnShl (c : Ctx) (body : BitVec 56)
  /-- SHR (R142). gD := gA shifted right logically by gB. -/
  | dxnShr (c : Ctx) (body : BitVec 56)
  /-- SRA (R142). gD := gA shifted right arithmetically by gB. -/
  | dxnSra (c : Ctx) (body : BitVec 56)
  /-- FMA (R142). gD := gA × gB + gC with one rounding. -/
  | dxnFma (c : Ctx) (body : BitVec 56)
  /-- CMP (R142). p(D) := gA compared with gB under a condition. -/
  | dxnCmp (c : Ctx) (body : BitVec 56)
  /-- SEL (R142). gD := gA if p(C) is 1, else gB. -/
  | dxnSel (c : Ctx) (body : BitVec 56)
  /-- CVT (R142). gD := gA converted to another scalar type. -/
  | dxnCvt (c : Ctx) (body : BitVec 56)
  /-- MOVI (R142). gD := the sign-extended immediate. -/
  | dxnMovi (c : Ctx) (body : BitVec 56)
  /-- MOVHI (R142). gD := the low word of gS with the immediate in the high word. -/
  | dxnMovhi (c : Ctx) (body : BitVec 56)
  /-- ADDI (R142). gD := gS + the sign-extended immediate. -/
  | dxnAddi (c : Ctx) (body : BitVec 56)
  /-- ANDI (R142). gD := gS and the zero-extended immediate. -/
  | dxnAndi (c : Ctx) (body : BitVec 56)
  /-- ORI (R142). gD := gS or the zero-extended immediate. -/
  | dxnOri (c : Ctx) (body : BitVec 56)
  /-- XORI (R142). gD := gS xor the zero-extended immediate. -/
  | dxnXori (c : Ctx) (body : BitVec 56)
  /-- SHLI (R142). gD := gS shifted left by imm[5:0]. -/
  | dxnShli (c : Ctx) (body : BitVec 56)
  /-- SHRI (R142). gD := gS shifted right logically by imm[5:0]. -/
  | dxnShri (c : Ctx) (body : BitVec 56)
  /-- SRAI (R142). gD := gS shifted right arithmetically by imm[5:0]. -/
  | dxnSrai (c : Ctx) (body : BitVec 56)
  /-- CMPI (R142). p(D) := gS compared with the sign-extended immediate. -/
  | dxnCmpi (c : Ctx) (body : BitVec 56)
  /-- PLOG (R142). p(D) := a logical combination of p(A) and p(B). -/
  | dxnPlog (c : Ctx) (body : BitVec 56)
  /-- PMOV (R142). Moves a predicate to a g register, or a g register's non-zero test to a predicate. -/
  | dxnPmov (c : Ctx) (body : BitVec 56)
  /-- VADD (R143). vD := vA + vB element-wise. -/
  | dxnVadd (c : Ctx) (body : BitVec 56)
  /-- VSUB (R143). vD := vA − vB element-wise. -/
  | dxnVsub (c : Ctx) (body : BitVec 56)
  /-- VMUL (R143). vD := vA × vB element-wise. -/
  | dxnVmul (c : Ctx) (body : BitVec 56)
  /-- VFMA (R143). vD := vA × vB + vC with one rounding. -/
  | dxnVfma (c : Ctx) (body : BitVec 56)
  /-- VMIN (R143). vD := the element-wise minimum. -/
  | dxnVmin (c : Ctx) (body : BitVec 56)
  /-- VMAX (R143). vD := the element-wise maximum. -/
  | dxnVmax (c : Ctx) (body : BitVec 56)
  /-- VDIV (R143). vD := vA ÷ vB, correctly rounded. -/
  | dxnVdiv (c : Ctx) (body : BitVec 56)
  /-- VSQRT (R143). vD := the square root of vA, correctly rounded. -/
  | dxnVsqrt (c : Ctx) (body : BitVec 56)
  /-- VAND (R143). Bitwise and of vector registers. -/
  | dxnVand (c : Ctx) (body : BitVec 56)
  /-- VOR (R143). Bitwise or of vector registers. -/
  | dxnVor (c : Ctx) (body : BitVec 56)
  /-- VXOR (R143). Bitwise xor of vector registers. -/
  | dxnVxor (c : Ctx) (body : BitVec 56)
  /-- VSHL (R143). Element-wise left shift. -/
  | dxnVshl (c : Ctx) (body : BitVec 56)
  /-- VSHR (R143). Element-wise logical right shift. -/
  | dxnVshr (c : Ctx) (body : BitVec 56)
  /-- VSRA (R143). Element-wise arithmetic right shift. -/
  | dxnVsra (c : Ctx) (body : BitVec 56)
  /-- VCMP (R143). Element-wise compare giving all ones or zero. -/
  | dxnVcmp (c : Ctx) (body : BitVec 56)
  /-- VSEL (R143). Element-wise select between vA and vB by vC. -/
  | dxnVsel (c : Ctx) (body : BitVec 56)
  /-- VCVT (R144). Converts vA to another type, one part of the wider-count side. -/
  | dxnVcvt (c : Ctx) (body : BitVec 56)
  /-- VBCAST (R143). Broadcasts gA to every element of vD. -/
  | dxnVbcast (c : Ctx) (body : BitVec 56)
  /-- VEXT (R143). gD := one element of vA. -/
  | dxnVext (c : Ctx) (body : BitVec 56)
  /-- VINS (R143). Writes gA into one element of vD. -/
  | dxnVins (c : Ctx) (body : BitVec 56)
  /-- VRED (R145). gD := the sum, minimum or maximum of the 64 elements of vA. -/
  | dxnVred (c : Ctx) (body : BitVec 56)
  /-- VRAND (R145). vD := 2,048 bits of the rounding generator, advancing it 16 steps. -/
  | dxnVrand (c : Ctx) (body : BitVec 56)
  /-- MMA (R147). Issues a matrix multiply-accumulate into aD, locking it until completion. -/
  | dxnMma (c : Ctx) (body : BitVec 56)
  /-- AZERO (R146). aD := 0. -/
  | dxnAzero (c : Ctx) (body : BitVec 56)
  /-- ALOAD (R146). aD := tA widened. -/
  | dxnAload (c : Ctx) (body : BitVec 56)
  /-- ACVT (R146). tD := aA converted to a type, forming MX blocks by R118. -/
  | dxnAcvt (c : Ctx) (body : BitVec 56)
  /-- TRD (R146). Reads one tile row into vector lanes. -/
  | dxnTrd (c : Ctx) (body : BitVec 56)
  /-- TWR (R146). Writes vector lanes into one tile row, converted. -/
  | dxnTwr (c : Ctx) (body : BitVec 56)
  /-- ARD (R146). Reads one accumulator row into vector lanes. -/
  | dxnArd (c : Ctx) (body : BitVec 56)
  /-- AWR (R146). Writes vector lanes into one accumulator row. -/
  | dxnAwr (c : Ctx) (body : BitVec 56)
  /-- TTRANS (R146). tD := the transpose of tA. -/
  | dxnTtrans (c : Ctx) (body : BitVec 56)
  /-- TCVT (R146). Converts a tile between types. -/
  | dxnTcvt (c : Ctx) (body : BitVec 56)
  /-- TZERO (R146). tD := all zero bytes. -/
  | dxnTzero (c : Ctx) (body : BitVec 56)
  /-- TGEN (R148). Fills tD with a ±1 projection tile from Philox keyed by gA. -/
  | dxnTgen (c : Ctx) (body : BitVec 56)
  /-- SEND (R150). Sends tile tA on a stream port. -/
  | dxnSend (c : Ctx) (body : BitVec 56)
  /-- RECV (R150). Receives the next tile of a port into tD. -/
  | dxnRecv (c : Ctx) (body : BitVec 56)
  /-- SENDM (R150). Sends the tile at a memory address on a stream port. -/
  | dxnSendm (c : Ctx) (body : BitVec 56)
  /-- RECVM (R150). Receives the next tile of a port into memory. -/
  | dxnRecvm (c : Ctx) (body : BitVec 56)
  /-- SPOLL (R150). p(D) := whether a port holds an unclaimed received tile. -/
  | dxnSpoll (c : Ctx) (body : BitVec 56)
  /-- STREAM_TILE_ARRIVAL (R107). A tile reaches a port's receive buffer, completing the sender's send and satisfying a waiting receive. -/
  | streamTileArrival (q : Fin 4) (row : Fin 30) (col : Fin 32) (port : Fin 4)
  /-- PEG_ADD (R110). Adds v to a local peg, or sends a far ADD request. -/
  | dxnPegAdd (c : Ctx) (body : BitVec 52)
  /-- PEG_SET (R110). Sets a local peg to v, or sends a far SET request. -/
  | dxnPegSet (c : Ctx) (body : BitVec 52)
  /-- PEG_WAIT_GE (R112). The context waits until the peg is at least v. -/
  | dxnPegWaitGe (c : Ctx) (body : BitVec 52)
  /-- PEG_WAIT_EQ (R112). The context waits until the peg equals v. -/
  | dxnPegWaitEq (c : Ctx) (body : BitVec 52)
  /-- PEG_ARM_TIMEOUT (R110). Arms or disarms the context's wait timeout in fault or continue mode. -/
  | dxnPegArmTimeout (c : Ctx) (body : BitVec 52)
  /-- PEG_WAIT_SATISFIED (R112). A peg operation leaves a value that satisfies a waiting context, which resumes. -/
  | pegWaitSatisfied (c : Ctx)
  /-- PEG_WAIT_TIMEOUT (R110). A wait timer expires, raising PEG_TIMEOUT or resuming with p7 := 0. -/
  | pegWaitTimeout (c : Ctx)
  /-- BIND (R101). Binds or unbinds the context's completion peg. -/
  | dxnBind (c : Ctx) (body : BitVec 56)
  /-- FARSET (R114). Sets far target register f(D) to gA once its far operations are done. -/
  | dxnFarset (c : Ctx) (body : BitVec 56)
  /-- FENCE (R152). Waits until no long operation of the context is outstanding. -/
  | dxnFence (c : Ctx) (body : BitVec 56)
  /-- PEGRD (R152). gD := the value of a local peg. -/
  | dxnPegrd (c : Ctx) (body : BitVec 56)
  /-- FAR_PEG_REQUEST (R218). A far-peg request datagram at the target is sequenced against its stream entry and applied, refused, deferred or answered as duplicate or busy. -/
  | farPegRequest (msg : Bytes)
  /-- FAR_PEG_ACK (R114). A far-peg acknowledgement completes, fails or schedules a resend of the requester's operation. -/
  | farPegAck (msg : Bytes)
  /-- FAR_PEG_RETRY (R114). RETRY_TIME passes without an acknowledgement and the request is resent, or fails with FAR_PEG_LOST after RETRIES. -/
  | farPegRetry (op : Nat)
  /-- FAR_PEG_ENTRY_EVICT (R218). A target's stream entry idle for 10 s becomes evictable. -/
  | farPegEntryEvict (sender : Word) (agent : BitVec 4) (who : BitVec 16) (slot : Fin 4)
  /-- LD (R153). gD := the zero-extended value at an address. -/
  | dxnLd (c : Ctx) (body : BitVec 56) (read : HostRead) (errs : List LineErr)
  /-- LDS (R153). gD := the sign-extended value at an address. -/
  | dxnLds (c : Ctx) (body : BitVec 56) (read : HostRead) (errs : List LineErr)
  /-- ST (R153). Stores the low bytes of gD at an address, a REG store obeying the field's class. -/
  | dxnSt (c : Ctx) (body : BitVec 56)
  /-- VLD (R153). Loads words into vector lanes. -/
  | dxnVld (c : Ctx) (body : BitVec 56)
  /-- VST (R153). Stores vector lanes to memory. -/
  | dxnVst (c : Ctx) (body : BitVec 56)
  /-- TLD (R153). Loads a 4 KiB tile into tD. -/
  | dxnTld (c : Ctx) (body : BitVec 56)
  /-- TST (R153). Stores tD as 4 KiB at an address. -/
  | dxnTst (c : Ctx) (body : BitVec 56)
  /-- MOVE (R154). Copies gC bytes between spaces in ascending 64-byte units. -/
  | dxnMove (c : Ctx) (body : BitVec 56)
  /-- FILL (R153). Fills gC bytes with gB repeated. -/
  | dxnFill (c : Ctx) (body : BitVec 56)
  /-- XMOVE (R155). Copies to or from a tenon's local store or a Basin slot's scratch. -/
  | dxnXmove (c : Ctx) (body : BitVec 56)
  /-- TDMA (R210). Writes table rows from memory into a bank, landing pending, committed or waiting for retirement. -/
  | dxnTdma (c : Ctx) (body : BitVec 56)
  /-- LONG_OP_COMPLETE (R101). A long operation completes, clears its register locks and adds 1 to its bound peg, or reports an imprecise exception. -/
  | longOpComplete (op : Nat) (read : HostRead) (errs : List LineErr)
  /-- BR (R157). Branches, branches on a predicate, or calls. -/
  | dxnBr (c : Ctx) (body : BitVec 56)
  /-- JR (R157). Jumps to gA, optionally linking into g31. -/
  | dxnJr (c : Ctx) (body : BitVec 56)
  /-- DBNZ (R157). Decrements gD and branches while it is non-zero. -/
  | dxnDbnz (c : Ctx) (body : BitVec 56)
  /-- END (R102). The context ends once its long operations have completed. -/
  | dxnEnd (c : Ctx) (body : BitVec 56)
  /-- CONTEXT_END (R102). A context that has issued END finishes its last long operation and ends, completing its descriptor for a C context. -/
  | contextEnd (c : Ctx)
  /-- RUN_LIMIT_EXPIRY (R123). A C program passes CMD_CTRL.RUN_LIMIT before END and raises RUN_LIMIT. -/
  | runLimitExpiry (n : Fin 64)
  /-- CACC (R258). Accumulates every member's contribution to a chunk, completing when all have arrived. -/
  | dxnCacc (c : Ctx) (body : BitVec 56) (errs : List LineErr)
  /-- CEMIT (R268). Residue-checks, rounds, seals, retains and multicasts a chunk. -/
  | dxnCemit (c : Ctx) (body : BitVec 56)
  /-- CGATH (R265). Forwards an owner's chunk unchanged into the multicast once retained. -/
  | dxnCgath (c : Ctx) (body : BitVec 56)
  /-- CAPPLY (R279). Hands an accumulated chunk to the truss on a channel. -/
  | dxnCapply (c : Ctx) (body : BitVec 56) (errs : List LineErr)
  /-- CBAR (R266). Completes when every member has arrived at a barrier step, then sends the release. -/
  | dxnCbar (c : Ctx) (body : BitVec 56)
  /-- CRING (R267). Supervises one ring step over the slot's circuit. -/
  | dxnCring (c : Ctx) (body : BitVec 56)
  /-- CABORT (R273). Aborts the slot's operation with a code. -/
  | dxnCabort (c : Ctx) (body : BitVec 56)
  /-- CSTAT (R256). gD := the slot's state word. -/
  | dxnCstat (c : Ctx) (body : BitVec 56)
  /-- TSTART (R161). Starts a T image on a rectangle of tenons, or returns a start refusal. -/
  | dxnTstart (c : Ctx) (body : BitVec 56) (read : HostRead) (errs : List LineErr)
  /-- BSTART (R255). Starts a B image on a Basin slot, after which the engine checks the operation record. -/
  | dxnBstart (c : Ctx) (body : BitVec 56) (read : HostRead) (errs : List LineErr)
  /-- TRUSS (R296). Checks a truss descriptor and binds its ports, channel and DMA streams. -/
  | dxnTruss (c : Ctx) (body : BitVec 56) (errs : List LineErr)
  /-- UNTRUSS (R298). Tears down a truss, failing stream operations and unbinding its ports. -/
  | dxnUntruss (c : Ctx) (body : BitVec 56)
  /-- SEGLOCK (R211). Sets a table segment's lock bit. -/
  | dxnSeglock (c : Ctx) (body : BitVec 56)
  /-- SEGPUB (R211). Checks and atomically publishes a locked segment's pending rows. -/
  | dxnSegpub (c : Ctx) (body : BitVec 56)
  /-- COMMIT (R436). A C program commits staged set gA[7:0]. -/
  | dxnCommit (c : Ctx) (body : BitVec 56)
  /-- EFLIP (R213). Checks and requests a routing epoch flip at an instant. -/
  | dxnEflip (c : Ctx) (body : BitVec 56)
  /-- PASSIGN (R109). Assigns a range of pegs to a domain. -/
  | dxnPassign (c : Ctx) (body : BitVec 56)
  /-- TSTOP (R293). Ends the named T contexts of a target set at their next instruction boundary. -/
  | dxnTstop (c : Ctx) (body : BitVec 56)
  /-- NOP (R162). Does nothing. -/
  | dxnNop (c : Ctx) (body : BitVec 56)
  /-- TRAP (R162). Raises TRAP with the immediate. -/
  | dxnTrap (c : Ctx) (body : BitVec 56)
  /-- FFLAGS (R162). Reads, and optionally clears, the floating-point flags. -/
  | dxnFflags (c : Ctx) (body : BitVec 56)
  /-- RNGSET (R162). Sets the rounding generator's key and counter. -/
  | dxnRngset (c : Ctx) (body : BitVec 56)
  /-- VERSION (R162). gD := the profile and the native and image versions. -/
  | dxnVersion (c : Ctx) (body : BitVec 56)
  /-- TIME (R162). gD := the time base. -/
  | dxnTime (c : Ctx) (body : BitVec 56)
  /-- WHOAMI (R162). gD := the domain, agent and WHO. -/
  | dxnWhoami (c : Ctx) (body : BitVec 56)
  /-- MODID (R162). gD := the module identity. -/
  | dxnModid (c : Ctx) (body : BitVec 56)
  /-- PORT_ENABLE (R173). Setting PRT_PORT_CTRL.ENABLE runs the plumb check of Table 6.7 and starts the port training. -/
  | portEnable (p : Fin 2048)
  /-- PORT_DISABLE (R173). Clearing ENABLE takes the port to DISABLED at once and moves or discards its queued frames. -/
  | portDisable (p : Fin 2048)
  /-- PCS_LOCK (R177). A port's PCS locks, and the module draws a new NONCE, enters NEGOTIATING and sends its TLVs. -/
  | pcsLock (p : Fin 2048)
  /-- PCS_LOSS (R165). Loss of signal, alignment or high symbol errors loses a port's PCS, and an UP port goes down into HELD. -/
  | pcsLoss (p : Fin 2048) (dark : BitVec 8)
  /-- LLDP_RECEIVE (R177). A received LLDP frame with WLX TLVs is answered with an Agreement and may complete agreement. -/
  | lldpReceive (p : Fin 2048) (frame : Bytes)
  /-- WLX_RESEND (R177). While NEGOTIATING the TLVs are resent every 1 ms. -/
  | wlxResend (p : Fin 2048)
  /-- LLDP_PERIODIC (R177). After agreement LLDP is sent every 1 s with TTL 4 s. -/
  | lldpPeriodic (p : Fin 2048)
  /-- DISCOVERY_TIMEOUT (R178). No Core TLV within DISC_TIMEOUT of lock makes the partner non-WLX, and no agreement makes the port ABSENT. -/
  | discoveryTimeout (p : Fin 2048)
  /-- LLDP_TTL_EXPIRY (R184). In priority flow control an expired LLDP TTL declares the partner dead. -/
  | lldpTtlExpiry (p : Fin 2048)
  /-- CREDIT_FRAME_RECEIVE (R182). A credit frame updates RETURNED(v) when not stale and restarts the keepalive timer. -/
  | creditFrameReceive (p : Fin 2048) (frame : Bytes)
  /-- CREDIT_FRAME_SEND (R183). A credit frame is sent within 1 µs of freeing a cell. -/
  | creditFrameSend (p : Fin 2048)
  /-- KEEPALIVE_SEND (R183). A credit frame with KEEPALIVE is sent every 1 ms. -/
  | keepaliveSend (p : Fin 2048)
  /-- KEEPALIVE_TIMEOUT (R184). No valid credit frame for 5 ms takes the port down with KEEPALIVE. -/
  | keepaliveTimeout (p : Fin 2048)
  /-- TAIL_ABORT_RECEIVE (R185). A tail-abort frame after an inverted-FCS frame counts it as a received stomp. -/
  | tailAbortReceive (p : Fin 2048) (frame : Bytes)
  /-- PFC_FRAME_RECEIVE (R186). A received PFC frame pauses a class for its quanta. -/
  | pfcFrameReceive (p : Fin 2048) (enable : BitVec 8) (quanta : List (BitVec 16))
  /-- PFC_PAUSE_EXPIRY (R186). A class's pause quanta run out and it may transmit again. -/
  | pfcPauseExpiry (p : Fin 2048) (c : Fin 8)
  /-- PFC_XOFF_RESEND (R186). XOFF is resent every 32,768 bit times while the class stays at or above XON. -/
  | pfcXoffResend (p : Fin 2048) (c : Fin 8)
  /-- PFC_STORM (R187). A class paused longer than PFC_WDOG raises PFC_STORM and ignores pauses for one period. -/
  | pfcStorm (p : Fin 2048) (c : Fin 8)
  /-- PFC_WATCHDOG_END (R187). The watchdog's ignore period ends and pauses are honoured again. -/
  | pfcWatchdogEnd (p : Fin 2048) (c : Fin 8)
  /-- HOLD_EXPIRY (R188). A hold timer expires and held frames are moved or discarded while the port keeps training. -/
  | holdExpiry (p : Fin 2048)
  /-- LANE_REPORT_RECEIVE (R319). A lane report is checked against the port's lanes, and a disagreement records WRONG_LOCK. -/
  | laneReportReceive (p : Fin 2048) (frame : Bytes)
  /-- LANE_REPORT_SEND (R319). A lane report is sent after lock, after a change, and every 1 s. -/
  | laneReportSend (p : Fin 2048) (found : List Byte)
  /-- FRAME_RECEIVE (R192). A received frame is parsed, classified, looked up, admitted to the buffer, learned or bridged, mirrored and sampled. -/
  | frameReceive (p : Fin 2048) (frame : Bytes) (capture : TimeStamp) (errs : List TableErr)
  /-- INTERNAL_FRAME (R224). A frame from an internal port enters its quadrant's shared pool, its source waiting when there is no room. -/
  | internalFrame (q : Fin 4) (errs : List TableErr)
  /-- TRANSFER_QUEUE_RELEASE (R228). An egress queue falls below its limit and a waiting lossless frame is placed on it. -/
  | transferQueueRelease (p : Fin 2048) (c : Fin 8)
  /-- MESH_CELL_ARRIVAL (R231). A cell crossing the mesh reaches its resequencer and is released or held behind a gap. -/
  | meshCellArrival (stream : MeshStream) (seq : BitVec 16)
  /-- RESEQ_TIMEOUT (R231). A cell held 8 µs skips the gap. -/
  | reseqTimeout (stream : MeshStream)
  /-- MESH_CELL_LOST (R231). A mesh loss report causes an immediate skip and discards the owning frame. -/
  | meshCellLost (stream : MeshStream) (seq : BitVec 16)
  /-- FRAME_DEQUEUE (R238). A frame at the head of its queue is scheduled, aged, fence-dropped or ECN-marked, and transmitted. -/
  | frameDequeue (p : Fin 2048) (capture : TimeStamp) (errs : List TableErr)
  /-- STOMP (R234). A cut-through frame found bad after its head left is ended with an inverted FCS and a tail-abort frame. -/
  | stomp (p : Fin 2048) (reason : BitVec 8) (sent : Nat)
  /-- AUDIT_PASS (R240). Every 100 ms the audit reclaims aged frames, orphan cells and orphan copies. -/
  | auditPass (strays : List Nat)
  /-- SFLOW_DATAGRAM_SEND (R245). An sFlow datagram is sent when its payload reaches 1,400 bytes or 100 ms after its first sample. -/
  | sflowDatagramSend (mgaDown : Bool)
  /-- EPOCH_FLIP (R214). At the flip instant the epoch increments, the standby bank becomes active and retiring begins. -/
  | epochFlip
  /-- EPOCH_RETIRE (R214). At T + A + 10 µs the old bank becomes standby, waiting TDMAs proceed and EPOCH_RETIRED is recorded. -/
  | epochRetire
  /-- TRIE_REBUILT (R206). A trie node hit by an uncorrectable error is rebuilt from the committed rows within 1 ms. -/
  | trieRebuilt (slice : Fin 8) (bank : Fin 2) (node : Nat)
  /-- SHADOW_COMPARE_ROW (R219). The compare engine checks one committed row against its shadow at RATE. -/
  | shadowCompareRow (read : HostRead) (errs : List LineErr) (found : List TableErr)
  /-- SHADOW_RECHECK (R219). A differing row is read again 100 µs later, recording MISMATCH and restoring it when RESTORE is set. -/
  | shadowRecheck (read : HostRead) (errs : List LineErr) (found : List TableErr)
  /-- MAC_AGE_EXPIRY (R212). A learned entry not refreshed for MAC_AGE seconds is removed. -/
  | macAgeExpiry (mac : BitVec 48) (vlan : BitVec 12)
  /-- CONTRIBUTION (R260). A contribution frame is accepted and accumulated, discarded as a duplicate, answered with a gap request, or held early. -/
  | contribution (e : Fin 8) (errs : List LineErr)
  /-- RETRANSMIT_REQUEST (R270). A retransmit request is answered from the retained copy, discarded, or aborts a released operation with RETAIN_EXPIRED. -/
  | retransmitRequest (e : Fin 8) (errs : List LineErr)
  /-- ABORT_NOTICE (R273). A member's abort notice aborts the operation with its code. -/
  | abortNotice (e : Fin 8)
  /-- BARRIER_ARRIVAL (R266). A barrier arrival is recorded for its step, or counted as STALE. -/
  | barrierArrival (e : Fin 8)
  /-- STEP_DONE (R267). A member's step-done report is recorded, and CRING completes when all have reported. -/
  | stepDone (e : Fin 8)
  /-- ABORT_COMPLETE (R275). Once handed chunks are resolved, the outcome record is written, ABORT_PEG is added to and NOTIFY is raised. -/
  | abortComplete (e : Fin 8) (s : Fin 1024)
  /-- COLLECTIVE_TIMEOUT (R272). A CACC, CGATH or CBAR not complete within TIMEOUT_US aborts with TIMEOUT and may file a dispute. -/
  | collectiveTimeout (op : Nat)
  /-- STEP_BUDGET_EXPIRY (R267). A CRING not complete within STEP_BUDGET_US aborts with STEP_BUDGET. -/
  | stepBudgetExpiry (op : Nat)
  /-- APPLY_REPORT_TIMEOUT (R280). 100 µs after an abort, handed chunks without a report are resolved as unknown. -/
  | applyReportTimeout (e : Fin 8) (s : Fin 1024)
  /-- RETENTION_RELEASE (R269). A retained chunk is released RETAIN_US after its write, letting a waiting emission proceed. -/
  | retentionRelease (e : Fin 8) (group : BitVec 12) (opSeq : BitVec 16) (chunk : Nat)
  /-- ABORT_CODE_EXPIRY (R274). An aborted operation's code is dropped after RETAIN_US, ending notice answers. -/
  | abortCodeExpiry (e : Fin 8) (group : BitVec 12) (opSeq : BitVec 16)
  /-- CHANNEL_TILE_RECEIVE (R300). An outbound truss tile reaches the engine as output lead, data or report, or is treated as a truss fault. -/
  | channelTileReceive (e : Fin 8) (ch : Fin 16) (errs : List LineErr)
  /-- BASIN_ENABLE (R284). Setting BSN_CTRL.ENABLE runs the plumb check of Table 9.14. -/
  | basinEnable (e : Fin 8)
  /-- BASIN_DISABLE (R278). Clearing BSN_CTRL.ENABLE aborts every operation with HOST_ABORT and releases retained chunks. -/
  | basinDisable (e : Fin 8)
  /-- BASIN_ABORT (R278). BSN_ABORT.GO aborts one slot with HOST_ABORT. -/
  | basinAbort (e : Fin 8) (s : Fin 1024)
  /-- TENON_ASSIGN (R292). TEN_ASSIGN.GO gives a rectangle of tenons to a domain, or refuses. -/
  | tenonAssign (q : Fin 4) (rect : TenonRect) (domain : BitVec 12)
  /-- DMA_STREAM_TILE (R291). A DMA stream delivers or writes one tile, wrapping or ending after TILES and signalling DONE_PEG. -/
  | dmaStreamTile (q : Fin 4) (stream : Fin 64) (errs : List LineErr)
  /-- LOCK_LOOP_SAMPLE (R313). Every 1 µs each ring's loop corrects its heater, and a detuning held 10 µs loses the lock. -/
  | lockLoopSample (ring : RingId) (detune : BitVec 16) (heater : BitVec 16)
  /-- RING_LOCK_ATTEMPT_DONE (R317). A ring's search meets a line and locks, then runs its order count. -/
  | ringLockAttemptDone (ring : RingId) (met : Bool)
  /-- ORDER_COUNT_DONE (R318). The order count finds the line, passing or recording WRONG_LOCK with relock or withdrawal. -/
  | orderCountDone (ring : RingId) (crossings : Fin 8)
  /-- SET_POINT_TRIM (R315). Every 1 s each ring's set point is trimmed at 1 ms integration. -/
  | setPointTrim (ring : RingId) (heater : BitVec 16)
  /-- RELOCK (R317). OPT_CTRL.RELOCK unlocks and relocks every ring of the engine. -/
  | relock (e : Fin 32)
  /-- OPT_MEASURE (R315). OPT_MEASURE.GO takes one monitor reading at a chosen integration. -/
  | optMeasure (ring : RingId) (integ : BitVec 2)
  /-- OPT_MEASURE_DONE (R315). The monitor reading finishes and the result is marked valid. -/
  | optMeasureDone (e : Fin 32) (code : BitVec 16)
  /-- LANE_CLEAR (R320). A write to OPT_LANE_CLEAR ends a withdrawal, clears the failure count and starts an attempt. -/
  | laneClear (e : Fin 32) (mask : Word)
  /-- CIRCUIT_GRANT (R330). A grant request finds a wavelength and circuit number in the pending bank, or is refused. -/
  | circuitGrant (reqA : Word) (reqB : Word) (inId : Word) (outId : Word)
  /-- CIRCUIT_RELEASE (R328). A release request marks a circuit for release at the next flip. -/
  | circuitRelease (reqA : Word)
  /-- CIRCUIT_RELEASE_ALL (R328). A release-all request marks every circuit of a domain. -/
  | circuitReleaseAll (reqA : Word)
  /-- SPL_FLIP (R331). SPL_FLIP.GO checks the spillway staged set and makes the flip pending at SPL_FLIP_TIME. -/
  | splFlip
  /-- SPILLWAY_FLIP_INSTANT (R332). At S the pending bank becomes active, marked and ineligible circuits are withdrawn, and lanes change by Table 11.8. -/
  | spillwayFlipInstant
  /-- SLOT_BOUNDARY (R325). A slot starts and taps and elements switch within its guard for the slot's circuits. -/
  | slotBoundary
  /-- GATE_EVALUATE (R333). At each estimate update, and at least every 1 ms, the time-error gate is evaluated and a closure starts fallback. -/
  | gateEvaluate
  /-- GATE_RECOVER_EXPIRY (R333). The gate stays open for RECOVER_MS and resumption starts. -/
  | gateRecoverExpiry
  /-- FALLBACK_BOUNDARY (R334). At F fallen-back circuits read FALLBACK, or resumed circuits become active. -/
  | fallbackBoundary
  /-- SPILLWAY_ENABLE (R333). Setting SPL_CTRL.ENABLE acts as a reopening of the gate without the wait. -/
  | spillwayEnable
  /-- SPILLWAY_DISABLE (R333). Clearing SPL_CTRL.ENABLE acts as a closure that also covers persistent circuits. -/
  | spillwayDisable
  /-- ELEMENT_CHECK (R337). Every 1 ms each element's bias is checked, and a failing element is faulted and its circuits withdrawn. -/
  | elementCheck (plane : Fin 8) (stage : Fin 11) (index : Fin 32) (ok : Bool)
  /-- CIRCUIT_DARK (R337). A circuit's input below −16 dBm for 1 ms of its slots records CIRCUIT_DARK. -/
  | circuitDark (n : Fin 4096) (power : BitVec 16)
  /-- PTP_SYNC (R350). A received Sync gives an offset that the servo slews or steps and that updates the state and E. -/
  | ptpSync (p : Fin 2050) (msg : PtpMsg) (capture : TimeStamp)
  /-- PTP_FOLLOW_UP (R346). A Follow_Up completes a two-step Sync. -/
  | ptpFollowUp (p : Fin 2050) (msg : PtpMsg)
  /-- PTP_DELAY_REQ (R349). A Delay_Req is answered with a Delay_Resp carrying its receive timestamp. -/
  | ptpDelayReq (p : Fin 2050) (msg : PtpMsg) (capture : TimeStamp)
  /-- PTP_DELAY_RESP (R350). A Delay_Resp updates the mean path delay. -/
  | ptpDelayResp (p : Fin 2050) (msg : PtpMsg)
  /-- PTP_ANNOUNCE (R347). An Announce feeds the best master clock algorithm. -/
  | ptpAnnounce (p : Fin 2050) (msg : PtpMsg)
  /-- PTP_TRANSMIT_INTERVAL (R346). At each configured interval the boundary clock sends Sync, Announce or Delay_Req. -/
  | ptpTransmitInterval (p : Fin 2050) (kind : PtpKind) (capture : TimeStamp)
  /-- ANNOUNCE_TIMEOUT (R352). The parent's Announce receipt timeout loses the parent and enters HOLDOVER. -/
  | announceTimeout (p : Fin 2050)
  /-- SYNC_LOSS_TIMEOUT (R352). No valid Sync for 4 intervals loses the parent. -/
  | syncLossTimeout (p : Fin 2050)
  /-- PPS_IN_EDGE (R356). A PPS_IN edge is captured and, in PPS mode, steers the servo. -/
  | ppsInEdge
  /-- PPS_MISSING_TIMEOUT (R352). 1.5 s without a PPS_IN edge loses the parent and sets PPS_MISSING. -/
  | ppsMissingTimeout
  /-- PPS_OUT_SECOND (R356). PPS_OUT rises at each whole second of the time base. -/
  | ppsOutSecond
  /-- TIME_SET (R350). TIM_SET_NS.GO steps the time base, sets STEP and raises vector 3. -/
  | timeSet (nsFrac : BitVec 48)
  /-- SCRUB_READ (R368). The patrol scrubber reads and corrects one line, counting row suspicion. -/
  | scrubRead (ddr : Bool) (err : Option ErrKind)
  /-- ALERT_RETRY (R365). A DIMM ALERT_N makes the controller retry the command up to 3 times, then treat the line as uncorrectable. -/
  | alertRetry (addr : Word) (attempt : Fin 3) (ok : Bool)
  /-- AREAS_ENABLE (R372). Setting MEM_CTRL.AREAS_ENABLE runs the plumb check of Table 13.4. -/
  | areasEnable
  /-- BAY_DWELL_EXPIRY (R381). An idle bay without keep conditions enters its next deeper state after that state's dwell. -/
  | bayDwellExpiry (n : Fin 50)
  /-- BAY_WAKE (R382). A frame, access, peg operation, instruction or keep condition wakes a resting bay. -/
  | bayWake (n : Fin 50)
  /-- BAY_WAKE_DONE (R382). A bay finishes waking, recording WAKE_LATE beyond its exit maximum, and waiting requesters proceed. -/
  | bayWakeDone (n : Fin 50) (duration : Nat) (restored : Bool)
  /-- BAY_TOL_WRITE (R383). A write of TOL below the current state's exit maximum wakes the bay at once. -/
  | bayTolWrite (n : Fin 50) (tol : BitVec 24)
  /-- RAIL_MONITOR_TRIP (R378). A bay's supply falls below its threshold and the bay is held in RAIL_RESET, losing state by Table 14.5. -/
  | railMonitorTrip (n : Fin 50)
  /-- RAIL_MONITOR_RELEASE (R378). A bay's supply recovers for 10 µs and the bay restarts cold. -/
  | railMonitorRelease (n : Fin 50)
  /-- ROM_SELF_TEST_DONE (R403). The ROM self-test ends, fuses are read and the boot waits for t1 to take the straps. -/
  | romSelfTestDone
  /-- BOOT_IMAGE_CHECK (R403). The pending or active bank, then the other bank, then recovery is checked, the control region updated and Wellhead firmware started. -/
  | bootImageCheck
  /-- IMAGE_KEY_WRITE (R397). A write to an operator image-key slot sets a digest and extends SEC_MEAS(3), or is ignored once LOCK is set. -/
  | imageKeyWrite (s : Fin 8) (w : Fin 4) (v : Word)
  /-- SEC_LOCK (R397). Setting SEC_CTRL.LOCK locks the operator slots and extends SEC_MEAS(3). -/
  | secLock
  /-- WELLHEAD_PHASE_DONE (R416). The WELLHEAD phase ends after the Ledger is read and command processor firmware is loaded. -/
  | wellheadPhaseDone
  /-- CORE_PHASE_DONE (R416). The CORE phase ends after rails, monitors, sills and mesh are ready, starting the memory, host and optics phases. -/
  | corePhaseDone
  /-- HBM_TRAINING_DONE (R417). HBM4 training and zeroing end and HBM_READY is set. -/
  | hbmTrainingDone (trained : BitVec 8) (spares : List Bool)
  /-- DDR_TRAINING_DONE (R362). DDR5 population checks and training end, D is found and DDR_READY is set. -/
  | ddrTrainingDone (dimms : List DimmInfo) (trained : BitVec 8) (spares : List Bool)
  /-- OPTICS_PHASE_DONE (R417). Every engine has locked or failed and OPTICS_READY is set. -/
  | opticsPhaseDone
  /-- FWD_ENABLE (R419). Setting GLB_CTRL.FWD_ENABLE runs the plumb check of Table 16.2. -/
  | fwdEnable
  /-- FWD_DISABLE (R420). Clearing FWD_ENABLE stops admitting frames to lookup. -/
  | fwdDisable
  /-- FWD_DRAINED (R420). The last parsed frame has been queued and FWD_ACTIVE falls. -/
  | fwdDrained
  /-- ENABLE_CHECK_DONE (R428). An enable check ends, setting the enable bit or logging ENABLE_REFUSED. -/
  | enableCheckDone
  /-- CFG_COMMIT (R426). CFG_COMMIT.GO captures set SET's staged fields and starts its check, or refuses an invalid set at once. -/
  | cfgCommit (set : BitVec 8)
  /-- COMMIT_CHECK_DONE (R426). A commit check ends, applying the captured values atomically or recording COMMIT_REFUSED. -/
  | commitCheckDone (errs : List LineErr)
  /-- CFG_DISCARD (R427). CFG_DISCARD copies a set's committed values into its staged fields. -/
  | cfgDiscard (set : BitVec 8)
  /-- REGISTER_WRITE (R421). A write to a register without behaviour of its own takes effect by the class of each field. -/
  | registerWrite (offset : BitVec 26) (v : Word)
  /-- GLB_RESET_MODULE (R433). GLB_RESET with KEY 0xA5 and MODULE performs a 5 ms module reset and retrains the link. -/
  | glbResetModule
  /-- MODULE_RESET_END (R432). A module reset ends and start-up runs again from ROOT. -/
  | moduleResetEnd (straps : BitVec 6)
  /-- GLB_RESET_WELLHEAD (R434). GLB_RESET with KEY 0xA5 and WELLHEAD restarts the Wellhead. -/
  | glbResetWellhead
  /-- WELLHEAD_WATCHDOG (R434). 250 ms without a Wellhead heartbeat makes the security bay restart the Wellhead. -/
  | wellheadWatchdog
  /-- WELLHEAD_RESTART_DONE (R434). A Wellhead restart completes and held commits and services resume. -/
  | wellheadRestartDone
  /-- HEARTBEAT (R440). A received HEARTBEAT is accepted from the acting manager and answered with HEALTH, possibly demoting a manager. -/
  | heartbeat (port : Fin 2) (msg : Bytes)
  /-- HEALTH (R441). A worker's HEALTH updates its worker state at the manager. -/
  | health (port : Fin 2) (msg : Bytes)
  /-- PREPARE (R446). A participant checks a plane flip and answers READY, becoming prepared. -/
  | prepare (port : Fin 2) (msg : Bytes)
  /-- READY (R446). The manager records a READY and, with all PLUMB_OK, chooses T and sends COMMIT, or aborts. -/
  | ready (port : Fin 2) (msg : Bytes)
  /-- PLANE_COMMIT (R446). A participant requests its own flip at T and answers DONE. -/
  | planeCommit (port : Fin 2) (msg : Bytes)
  /-- PLANE_ABORT (R446). A participant discards its prepared flip. -/
  | planeAbort (port : Fin 2) (msg : Bytes)
  /-- DONE (R446). The manager records a participant's DONE result. -/
  | done (port : Fin 2) (msg : Bytes)
  /-- CIRCUIT (R447). A worker treats a CIRCUIT message as a circuit request, or repeats its answer for a known TAG. -/
  | circuit (port : Fin 2) (msg : Bytes)
  /-- CIRCUIT_ANSWER (R447). The manager records a worker's circuit answer. -/
  | circuitAnswer (port : Fin 2) (msg : Bytes)
  /-- PLANE_FENCE (R449). A worker fences the named ports within 1 ms and sends ACK. -/
  | planeFence (port : Fin 2) (msg : Bytes)
  /-- PLANE_UNFENCE (R449). A worker clears the exclusion bits and sends ACK. -/
  | planeUnfence (port : Fin 2) (msg : Bytes)
  /-- ACK (R449). The manager records a fence acknowledgement. -/
  | ack (port : Fin 2) (msg : Bytes)
  /-- EVENT (R451). The manager records a worker's event, including dispute and spillway events. -/
  | event (port : Fin 2) (msg : Bytes)
  /-- SYNC (R440). The other member of the manager pair takes the budget window and held requests from SYNC. -/
  | sync (port : Fin 2) (msg : Bytes)
  /-- HEARTBEAT_SEND (R440). Every 10 ms the acting manager sends HEARTBEAT on both ports. -/
  | heartbeatSend
  /-- SYNC_SEND (R440). Every 100 ms the manager sends SYNC to its pair. -/
  | syncSend
  /-- MANAGER_SILENCE_TIMEOUT (R441). 300 ms without a manager message records MANAGER_LOST. -/
  | managerSilenceTimeout
  /-- WORKER_SILENCE_TIMEOUT (R441). 300 ms without HEALTH marks a worker lost. -/
  | workerSilenceTimeout (n : Fin 1023)
  /-- PATH_SILENCE_TIMEOUT (R441). 300 ms of silence on one port records PATH_LOST. -/
  | pathSilenceTimeout (port : Fin 2) (n : BitVec 10)
  /-- LISTEN_PERIOD_END (R443). A new manager's 300 ms listening period ends and it acts with a higher TERM, or demotes. -/
  | listenPeriodEnd
  /-- PROMOTE (R444). PLN_PROMOTE.GO checks and promotes a standby to manager. -/
  | promote (force : Bool)
  /-- PLANE_FLIP (R445). PLN_FLIP.GO on the acting manager starts a plane flip by sending PREPARE. -/
  | planeFlip (kind : BitVec 2) (fromEpoch : BitVec 32)
  /-- PREPARE_RESEND (R446). PREPARE is resent every 10 ms to participants that have not answered. -/
  | prepareResend
  /-- PREPARE_DEADLINE (R446). An answer missing at t0 + 100 ms aborts the plane flip. -/
  | prepareDeadline
  /-- COMMIT_RESEND (R446). COMMIT is resent every 1 ms until DONE or T. -/
  | commitResend
  /-- FLIP_DONE_DEADLINE (R446). At T + 100 ms the plane flip is recorded done or split. -/
  | flipDoneDeadline
  /-- FENCE_REQUEST (R450). PLN_FENCE_REQ.GO applies, holds or refuses a fence request against the budget. -/
  | fenceRequest (req : Word) (target : Word)
  /-- FENCE_CONFIRM (R450). PLN_FENCE_CONFIRM confirms and applies, or cancels, a held request. -/
  | fenceConfirm (cancel : Bool) (ticket : BitVec 6)
  /-- FENCE_RESEND (R449). FENCE, UNFENCE and CIRCUIT messages are resent every 10 ms until answered. -/
  | fenceResend (handed : List CircuitMsg)
  /-- LOAD_WINDOW (R452). Every 100 ms the Wellhead measures LOAD and raises or lowers the shed level. -/
  | loadWindow (load : BitVec 8)
  /-- LEDGER_COMMIT_REQUEST (R456). LDG_CTRL.COMMIT requests a commit. -/
  | ledgerCommitRequest
  /-- LEDGER_PERIODIC_COMMIT (R456). 60 s after the last periodic commit the health score is computed and a commit starts. -/
  | ledgerPeriodicCommit
  /-- LEDGER_COMMIT_DONE (R456). A commit has written the journal and the older STATE copy, after which entries are archived. -/
  | ledgerCommitDone (ok : Bool)
  /-- LIFE_SECOND (R463). Each second the life clock, wear, energised time, hot time and rainflow cycles advance. -/
  | lifeSecond
  /-- LIFE_HOUR (R464). Each hour of LIFE_S writes the LASER_HOUR, HEALTH_HOUR and MEM_HOUR entries. -/
  | lifeHour
  /-- COUNTER_READER_VISIT (R468). The central reader adds a local accumulator into its 48-bit counter and clears it. -/
  | counterReaderVisit (block : BitVec 8) (index : Nat)
  /-- SNAP_NOW (R470). CNT_SNAP in mode now freezes the counters at once. -/
  | snapNow (notify : Bool)
  /-- SNAP_AT_INSTANT (R470). CNT_SNAP in mode at-instant schedules one freeze. -/
  | snapAtInstant (notify : Bool) (instant : Word)
  /-- SNAP_PERIODIC (R470). CNT_SNAP in mode periodic schedules a series of freezes. -/
  | snapPeriodic (notify : Bool) (instant : Word) (periodMs : BitVec 32)
  /-- SNAP_STOP (R470). CNT_SNAP in mode stop ends the periodic series. -/
  | snapStop
  /-- SNAPSHOT_FREEZE (R470). At a freeze every block moves its accumulators to freeze registers, or a periodic freeze is skipped while gathering. -/
  | snapshotFreeze
  /-- SNAPSHOT_PUBLISH (R471). The built snapshot is published by switching banks, writing a history record when due. -/
  | snapshotPublish
  /-- COUNTER_CLEAR (R467). CNT_CLEAR.GO clears WRAP and LOWER of a block or all blocks. -/
  | counterClear (block : BitVec 8)
  /-- COUNTER_COPY (R473). CNT_COPY_CTRL.GO copies snapshot pages to memory, restarting if the snapshot is replaced. -/
  | counterCopy (dest : Word) (first : BitVec 12) (count : BitVec 12)
  /-- COUNTER_COPY_DONE (R473). A counter copy finishes and raises vector 8. -/
  | counterCopyDone
  /-- CHANNEL_RETRAINED (R60). A die-to-die channel retrained after a credit-count overrun returns to service and internal spray may use it again. -/
  | channelRetrained (d : Fin 6) (h : Fin 2) (c : Fin 32)
  /-- WINDOW_OPEN (R326). At T + G + M of a slot the window opens: lent-lane lending ends, the S4096 resumes on lanes not lent in the slot, and pending spillway notices are sent. -/
  | windowOpen (p : Fin 2048)
  /-- RC_FIELD_READ (R15). A read of an RC field returns its value and then restores the field's reset value. -/
  | rcFieldRead (offset : BitVec 26)
  /-- TIM_NOW_CAPTURE (R357). A read of TIM_NOW_NS captures the time base and latches its SECONDS into TIM_NOW_SEC. -/
  | timNowCapture
  deriving DecidableEq, Repr

end Sys2Proof
end

