-- ==== Sys2Proof/Config.lean ====
section
/-! DEFINITION. What one module fixes and what the spec leaves open: uninterpreted constants, none with a body.
No statement depends on a value of any of them. -/

namespace Sys2Proof

/-- A fresh free value for each number drawn (log entry 2): nonces, marking and sampling draws, keys,
and every result for which the spec states no value. -/
opaque Config.freeValue : Nat → BitVec 64

/-- What the bytes of a tile register beyond its elements hold once a tile of a type narrower than 32 bits is written, for
each number drawn (log entry 18): spec/04 R117 places the elements and says nothing of the rest. -/
opaque Config.freeTile : Nat → BitVec 32768

/-- The 64-bit module identity of the fuses (spec/15 R396). -/
opaque Config.moduleIdentity : BitVec 64

/-- The firmware that a region holds when the module is made: 1 bank A, 2 bank B, 3 the recovery region. spec/15 R399 gives the layout
of an image and no image (log entry 3). -/
opaque Config.factoryFirmware : Nat → List (BitVec 8)

/-- The key digest of each vendor slot (spec/15 R396). -/
opaque Config.vendorDigest : Nat → BitVec 256

/-- Factory latencies of a port slot under a breakout mode, TX in [63:32], RX in [31:0], ps (spec/12 R353). -/
opaque Config.factoryLatency : Nat → Nat → BitVec 64

/-- The identity certificate signed at manufacture (spec/15 Table 15.6). -/
opaque Config.identityCertificate : List (BitVec 8)

/-- ROM version and fuse image, measured at boot step 1 (spec/15 Table 15.5), by what the fuses hold: vendor slots revoked, the
anti-rollback count, the index epoch. -/
opaque Config.romItem : BitVec 4 → Nat → Nat → List (BitVec 8)

/-- SHA-384 (spec/15 Table 15.1), named by the spec and defined elsewhere. -/
opaque Config.sha384 : List (BitVec 8) → BitVec 384

/-- SHA3-256 (spec/15 Table 15.7a). -/
opaque Config.sha3 : List (BitVec 8) → BitVec 256

/-- SHAKE256 of a message, truncated to a count of bytes (spec/15 R395, R412). -/
opaque Config.shake256 : List (BitVec 8) → Nat → BitVec 384

/-- XMSS-SHAKE256_20_256 verification: public key, message, signature (spec/15 Table 15.1). -/
opaque Config.xmssVerify : List (BitVec 8) → List (BitVec 8) → List (BitVec 8) → Bool

/-- XMSSMT-SHAKE256_40/4_256 signing under a signature index (spec/15 Table 15.1). -/
opaque Config.xmssMtSign : Nat → List (BitVec 8) → List (BitVec 8)

/-- The encapsulation key of an ML-KEM-1024 key pair drawn from a free value (spec/15 R410). -/
opaque Config.kemEncapsulationKey : BitVec 64 → List (BitVec 8)

/-- ML-KEM-1024 decapsulation: key pair, ciphertext, shared secret (spec/15 R412). -/
opaque Config.kemDecapsulate : BitVec 64 → List (BitVec 8) → BitVec 256

/-- The answer of the SPDM responder to PSK_EXCHANGE: PSK, request (spec/15 R413). -/
opaque Config.pskResponse : BitVec 384 → List (BitVec 8) → List (BitVec 8)

/-- Whether a PSK_EXCHANGE request verifies against a PSK (spec/15 R413). -/
opaque Config.pskAccepts : BitVec 384 → List (BitVec 8) → Bool

/-- The gain of the time servo: the rate it takes from an offset and the last rate (spec/12 R350 gives
limits, not gains), in 2^-16 ppb. -/
opaque Config.servoRate : Int → Int → Int

/-- The clockClass of the module while it is locked to PPS_IN, its offsetScaledLogVariance and its timeSource: spec/12 R347
states none of them. -/
opaque Config.lockedClass : BitVec 8

/-- See `Config.lockedClass`. -/
opaque Config.clockVariance : BitVec 16

/-- See `Config.lockedClass`. -/
opaque Config.timeSource : BitVec 8

/-- The time properties (second octet of flagField) of an Announce of the module's own clock. See `Config.lockedClass`. -/
opaque Config.timeFlags : BitVec 8

/-- The first middle element that a spillway plane tries for a path: spec/11 R322 leaves the choice of a path to the module. -/
opaque Config.firstPath : Nat → Nat

/-- The E8M0 scale that a value becomes which no scale equals (whether it is infinite, its sign, its magnitude as a number and a power
of two): spec/04 and spec/05 give no rounding to that type. -/
opaque Config.scaleCode : Bool → Bool → Nat → Int → BitVec 8

/-- Whether a ring's heater range lets its order count sweep with rising heat from a heater drive (spec/11 R318). -/
opaque Config.sweepRises : Nat → Nat → Bool

/-- The DRAM row that holds a device address: the devices' geometry, which spec/13 R370 names and does not give. -/
opaque Config.dramRow : Nat → Nat

/-- The command processor firmware that the Wellhead firmware of a version carries (spec/15 Table 15.5, step 5). -/
opaque Config.cpFirmware : BitVec 32 → List (BitVec 8)

/-- What the mailbox's Get Supported Logs lists: spec/03 R90 names the command and states no log. -/
opaque Config.supportedLogs : List (BitVec 8)

/-- The answer to an MCTP message, by the endpoint ID of its binding and the message: spec/03 R89 names the message types and leaves
their contents to the DMTF specifications. -/
opaque Config.mctpResponse : BitVec 8 → List (BitVec 8) → List (BitVec 8)

/-- The log that the mailbox's Get Log returns. -/
opaque Config.mailboxLog : List (BitVec 8)

/-- Whether a revocation message names a slot and this module or all modules: spec/15 R405 gives no layout of it. -/
opaque Config.revokes : List (BitVec 8) → Nat → BitVec 64 → Bool

end Sys2Proof
end

