-- ==== Sys2Proof/Machine/RegMap.lean ====
section
/-! DEFINITION. The registers of BAR0 as the field maps of spec/01 to spec/18 give them: the offset of each register (`R`),
the place of each field (`F`), and one row for each register with the access code (spec/00 R15), the configuration class
(spec/16 R421) and the reset value of every field. A field that the field maps reserve is in no row: it reads zero and
ignores what is written (spec/00 R14). -/

namespace Sys2Proof.Machine

/-- Access codes (spec/00 R15, Table 0.6). -/
inductive Acc where
  | ro | rw | wo | w1c | w1s | rc
  deriving DecidableEq, Repr

/-- Configuration classes (spec/00 R15, spec/16 R421): live, staged, quiesce, information. -/
inductive Cls where
  | l | s | q | i
  deriving DecidableEq, Repr

/-- The place of a field: its lowest bit and its width. -/
structure Fld where
  lo : Nat
  w : Nat
  deriving DecidableEq, Repr

/-- One field of a register. -/
structure FieldSpec where
  fld : Fld
  acc : Acc
  cls : Cls
  rst : Nat
  deriving DecidableEq, Repr

/-- One register or array of registers: base offset, (stride, count) of each index in falling order of stride, fields. -/
structure RegSpec where
  base : Nat
  dims : List (Nat × Nat)
  fields : List FieldSpec
  deriving DecidableEq, Repr

/-! ## Offsets -/

/-- GLB_ID (spec/16 R435, Table 16.8). -/
abbrev R.GLB_ID : Nat := 0x0
/-- GLB_PART (spec/16 R435, Table 16.8). -/
abbrev R.GLB_PART : Nat := 0x8
/-- GLB_VERSIONS (spec/16 R435, Table 16.9). -/
abbrev R.GLB_VERSIONS : Nat := 0x10
/-- GLB_BOOT (spec/16 R435, Table 16.10). -/
abbrev R.GLB_BOOT : Nat := 0x18
/-- GLB_CTRL (spec/16 R435, Table 16.11). -/
abbrev R.GLB_CTRL : Nat := 0x20
/-- GLB_STATUS (spec/16 R435, Table 16.11). -/
abbrev R.GLB_STATUS : Nat := 0x28
/-- GLB_HOST_IF (spec/16 R435, Table 16.12). -/
abbrev R.GLB_HOST_IF : Nat := 0x30
/-- GLB_PLUMB_STATUS (spec/16 R435, Table 16.12). -/
abbrev R.GLB_PLUMB_STATUS : Nat := 0x38
/-- GLB_RESET (spec/16 R435, Table 16.12). -/
abbrev R.GLB_RESET : Nat := 0x40
/-- HIF_LINK_STATUS (spec/03 R92, Table 3.14). -/
abbrev R.HIF_LINK_STATUS : Nat := 0x10000
/-- HIF_LINK_CTRL (spec/03 R92, Table 3.14). -/
abbrev R.HIF_LINK_CTRL : Nat := 0x10008
/-- HIF_ERR_STATUS (spec/03 R92, Table 3.15). -/
abbrev R.HIF_ERR_STATUS : Nat := 0x10010
/-- HIF_ERR_ADDR (spec/03 R92, Table 3.15). -/
abbrev R.HIF_ERR_ADDR : Nat := 0x10018
/-- HIF_WORK_STATUS (spec/03 R92, Table 3.16). -/
abbrev R.HIF_WORK_STATUS : Nat := 0x10020
/-- HIF_WATCH_POLL (spec/03 R92, Table 3.16). -/
abbrev R.HIF_WATCH_POLL : Nat := 0x10028
/-- HIF_RING_ENABLE (spec/03 R92, Table 3.17). -/
abbrev R.HIF_RING_ENABLE (w : Nat) : Nat := 0x10100 + w * 0x8
/-- HIF_CQ_BASE (spec/03 R92, Table 3.18). -/
abbrev R.HIF_CQ_BASE (c : Nat) : Nat := 0x12000 + c * 0x20
/-- HIF_CQ_CFG (spec/03 R92, Table 3.19). -/
abbrev R.HIF_CQ_CFG (c : Nat) : Nat := 0x12008 + c * 0x20
/-- HIF_CQ_HEADPTR (spec/03 R92, Table 3.18). -/
abbrev R.HIF_CQ_HEADPTR (c : Nat) : Nat := 0x12010 + c * 0x20
/-- HIF_CQ_STATE (spec/03 R92, Table 3.19). -/
abbrev R.HIF_CQ_STATE (c : Nat) : Nat := 0x12018 + c * 0x20
/-- HIF_RING_BASE (spec/03 R92, Table 3.18). -/
abbrev R.HIF_RING_BASE (r : Nat) : Nat := 0x18000 + r * 0x20
/-- HIF_RING_CFG (spec/03 R92, Table 3.20). -/
abbrev R.HIF_RING_CFG (r : Nat) : Nat := 0x18008 + r * 0x20
/-- HIF_RING_LINE (spec/03 R92, Table 3.18). -/
abbrev R.HIF_RING_LINE (r : Nat) : Nat := 0x18010 + r * 0x20
/-- HIF_RING_STATE (spec/03 R92, Table 3.21). -/
abbrev R.HIF_RING_STATE (r : Nat) : Nat := 0x18018 + r * 0x20
/-- CMD_CTRL (spec/04 R135, Table 4.21). -/
abbrev R.CMD_CTRL : Nat := 0x20000
/-- CMD_STATUS (spec/04 R135, Table 4.22). -/
abbrev R.CMD_STATUS : Nat := 0x20008
/-- CMD_PEG_ASSIGN (spec/04 R135, Table 4.23). -/
abbrev R.CMD_PEG_ASSIGN : Nat := 0x20010
/-- CMD_PEG_ASSIGN_STATUS (spec/04 R135, Table 4.23). -/
abbrev R.CMD_PEG_ASSIGN_STATUS : Nat := 0x20018
/-- CMD_FAR_CTRL (spec/04 R135, Table 4.24). -/
abbrev R.CMD_FAR_CTRL : Nat := 0x20020
/-- CMD_FAULT_HEAD (spec/04 R135, Table 4.25). -/
abbrev R.CMD_FAULT_HEAD : Nat := 0x20028
/-- CMD_FAULT (spec/04 R135, Table 4.26). -/
abbrev R.CMD_FAULT (n : Nat) : Nat := 0x20100 + n * 0x10
/-- CMD_FAULT_INFO (spec/04 R135, Table 4.26). -/
abbrev R.CMD_FAULT_INFO (n : Nat) : Nat := 0x20108 + n * 0x10
/-- CMD_CTX (spec/04 R135, Table 4.27). -/
abbrev R.CMD_CTX (n : Nat) : Nat := 0x20800 + n * 0x8
/-- CFG_COMMIT (spec/16 R435, Table 16.13). -/
abbrev R.CFG_COMMIT : Nat := 0x40000
/-- CFG_COMMIT_STATUS (spec/16 R435, Table 16.13). -/
abbrev R.CFG_COMMIT_STATUS : Nat := 0x40008
/-- CFG_DISCARD (spec/16 R435, Table 16.13). -/
abbrev R.CFG_DISCARD : Nat := 0x40010
/-- CFG_LOG_HEAD (spec/16 R435, Table 16.13). -/
abbrev R.CFG_LOG_HEAD : Nat := 0x40018
/-- CFG_SET_STATUS (spec/16 R435, Table 16.14). -/
abbrev R.CFG_SET_STATUS (n : Nat) : Nat := 0x40100 + n * 0x8
/-- CFG_LOG (spec/16 R435, Table 16.15). -/
abbrev R.CFG_LOG (n : Nat) : Nat := 0x41000 + n * 0x10
/-- CFG_LOG_INFO (spec/16 R435, Table 16.15). -/
abbrev R.CFG_LOG_INFO (n : Nat) : Nat := 0x41008 + n * 0x10
/-- PWR_STATUS (spec/14 R393, Table 14.6). -/
abbrev R.PWR_STATUS : Nat := 0x80000
/-- PWR_CTRL (spec/14 R393, Table 14.6). -/
abbrev R.PWR_CTRL : Nat := 0x80008
/-- PWR_VCORE (spec/14 R393, Table 14.7). -/
abbrev R.PWR_VCORE (q : Nat) : Nat := 0x80100 + q * 0x8
/-- PWR_BAY_CTRL (spec/14 R393, Table 14.8). -/
abbrev R.PWR_BAY_CTRL (n : Nat) : Nat := 0x81000 + n * 0x8
/-- PWR_BAY_STATUS (spec/14 R393, Table 14.9). -/
abbrev R.PWR_BAY_STATUS (n : Nat) : Nat := 0x81400 + n * 0x8
/-- THM_CTRL (spec/14 R393, Table 14.10). -/
abbrev R.THM_CTRL : Nat := 0xc0000
/-- THM_STATUS (spec/14 R393, Table 14.10). -/
abbrev R.THM_STATUS : Nat := 0xc0008
/-- THM_EVENT_HEAD (spec/14 R393, Table 14.11). -/
abbrev R.THM_EVENT_HEAD : Nat := 0xc0010
/-- THM_SENSOR (spec/14 R393, Table 14.12). -/
abbrev R.THM_SENSOR (i : Nat) : Nat := 0xc0100 + i * 0x8
/-- THM_EVENT (spec/14 R393, Table 14.13). -/
abbrev R.THM_EVENT (n : Nat) : Nat := 0xc1000 + n * 0x10
/-- THM_EVENT_INFO (spec/14 R393, Table 14.13). -/
abbrev R.THM_EVENT_INFO (n : Nat) : Nat := 0xc1008 + n * 0x10
/-- TIM_CTRL (spec/12 R357, Table 12.5). -/
abbrev R.TIM_CTRL : Nat := 0x100000
/-- TIM_STATUS (spec/12 R357, Table 12.5). -/
abbrev R.TIM_STATUS : Nat := 0x100008
/-- TIM_NOW_NS (spec/12 R357, Table 12.6). -/
abbrev R.TIM_NOW_NS : Nat := 0x100010
/-- TIM_NOW_SEC (spec/12 R357, Table 12.6). -/
abbrev R.TIM_NOW_SEC : Nat := 0x100018
/-- TIM_SET_NS (spec/12 R357, Table 12.6). -/
abbrev R.TIM_SET_NS : Nat := 0x100020
/-- TIM_SET_SEC (spec/12 R357, Table 12.6). -/
abbrev R.TIM_SET_SEC : Nat := 0x100028
/-- TIM_FREQ (spec/12 R357, Table 12.7). -/
abbrev R.TIM_FREQ : Nat := 0x100030
/-- TIM_SERVO (spec/12 R357, Table 12.7). -/
abbrev R.TIM_SERVO : Nat := 0x100038
/-- TIM_HOLDOVER (spec/12 R357, Table 12.7). -/
abbrev R.TIM_HOLDOVER : Nat := 0x100040
/-- TIM_OFFSET (spec/12 R357, Table 12.7). -/
abbrev R.TIM_OFFSET : Nat := 0x100048
/-- TIM_CLOCK (spec/12 R357, Table 12.8). -/
abbrev R.TIM_CLOCK : Nat := 0x100050
/-- TIM_INTERVAL (spec/12 R357, Table 12.8). -/
abbrev R.TIM_INTERVAL : Nat := 0x100058
/-- TIM_GM_ID (spec/12 R357, Table 12.8). -/
abbrev R.TIM_GM_ID : Nat := 0x100060
/-- TIM_PARENT_ID (spec/12 R357, Table 12.8). -/
abbrev R.TIM_PARENT_ID : Nat := 0x100068
/-- TIM_PPS_IN (spec/12 R357, Table 12.8). -/
abbrev R.TIM_PPS_IN : Nat := 0x100070
/-- TIM_PORT_CFG (spec/12 R357, Table 12.9). -/
abbrev R.TIM_PORT_CFG (p : Nat) : Nat := 0x110000 + p * 0x20
/-- TIM_PORT_LAT (spec/12 R357, Table 12.9). -/
abbrev R.TIM_PORT_LAT (p : Nat) : Nat := 0x110008 + p * 0x20
/-- TIM_PORT_ASYM (spec/12 R357, Table 12.9). -/
abbrev R.TIM_PORT_ASYM (p : Nat) : Nat := 0x110010 + p * 0x20
/-- TIM_PORT_STATE (spec/12 R357, Table 12.9). -/
abbrev R.TIM_PORT_STATE (p : Nat) : Nat := 0x110018 + p * 0x20
/-- SEC_STATUS (spec/15 R415, Table 15.8). -/
abbrev R.SEC_STATUS : Nat := 0x180000
/-- SEC_CTRL (spec/15 R415, Table 15.8). -/
abbrev R.SEC_CTRL : Nat := 0x180008
/-- SEC_FW (spec/15 R415, Table 15.9). -/
abbrev R.SEC_FW : Nat := 0x180010
/-- SEC_XMSS_NEXT (spec/15 R415, Table 15.10). -/
abbrev R.SEC_XMSS_NEXT : Nat := 0x180018
/-- SEC_XMSS_REMAIN (spec/15 R415, Table 15.10). -/
abbrev R.SEC_XMSS_REMAIN : Nat := 0x180020
/-- SEC_IMG_KEY (spec/15 R415, Table 15.11). -/
abbrev R.SEC_IMG_KEY (s w : Nat) : Nat := 0x180080 + s * 0x20 + w * 0x8
/-- SEC_MEAS (spec/15 R415, Table 15.11). -/
abbrev R.SEC_MEAS (n w : Nat) : Nat := 0x180400 + n * 0x40 + w * 0x8
/-- LDG_CTRL (spec/18 R474, Table 18.6). -/
abbrev R.LDG_CTRL : Nat := 0x1c0000
/-- LDG_STATUS (spec/18 R474, Table 18.6). -/
abbrev R.LDG_STATUS : Nat := 0x1c0008
/-- LDG_LIFE (spec/18 R474, Table 18.6). -/
abbrev R.LDG_LIFE : Nat := 0x1c0010
/-- LDG_JOURNAL (spec/18 R474, Table 18.6). -/
abbrev R.LDG_JOURNAL : Nat := 0x1c0018
/-- LDG_HEALTH (spec/18 R474, Table 18.7). -/
abbrev R.LDG_HEALTH : Nat := 0x1c0020
/-- LDG_HEALTH_B (spec/18 R474, Table 18.7). -/
abbrev R.LDG_HEALTH_B : Nat := 0x1c0028
/-- LDG_WIN_BASE (spec/18 R474, Table 18.9). -/
abbrev R.LDG_WIN_BASE : Nat := 0x1c0030
/-- LDG_BAY (spec/18 R474, Table 18.8). -/
abbrev R.LDG_BAY (n : Nat) : Nat := 0x1c0100 + n * 0x8
/-- LDG_WIN (spec/18 R474, Table 18.9). -/
abbrev R.LDG_WIN (w : Nat) : Nat := 0x1c1000 + w * 0x8
/-- CNT_SNAP (spec/18 R474, Table 18.10). -/
abbrev R.CNT_SNAP : Nat := 0x200000
/-- CNT_SNAP_TIME (spec/18 R474, Table 18.10). -/
abbrev R.CNT_SNAP_TIME : Nat := 0x200008
/-- CNT_SNAP_STATUS (spec/18 R474, Table 18.10). -/
abbrev R.CNT_SNAP_STATUS : Nat := 0x200010
/-- CNT_CLEAR (spec/18 R474, Table 18.11). -/
abbrev R.CNT_CLEAR : Nat := 0x200018
/-- CNT_COPY (spec/18 R474, Table 18.11). -/
abbrev R.CNT_COPY : Nat := 0x200020
/-- CNT_COPY_CTRL (spec/18 R474, Table 18.11). -/
abbrev R.CNT_COPY_CTRL : Nat := 0x200028
/-- CNT_HISTORY (spec/18 R474, Table 18.11). -/
abbrev R.CNT_HISTORY : Nat := 0x200030
/-- CNT_PAGE_VIS (spec/18 R474, Table 18.12). -/
abbrev R.CNT_PAGE_VIS (w : Nat) : Nat := 0x200100 + w * 0x8
/-- PRT_PAIR_CFG (spec/06 R191, Table 6.18). -/
abbrev R.PRT_PAIR_CFG (f : Nat) : Nat := 0x400000 + f * 0x1000
/-- PRT_PAIR_STATUS (spec/06 R191, Table 6.18). -/
abbrev R.PRT_PAIR_STATUS (f : Nat) : Nat := 0x400008 + f * 0x1000
/-- PRT_PORT_CTRL (spec/06 R191, Table 6.19). -/
abbrev R.PRT_PORT_CTRL (f u : Nat) : Nat := 0x400100 + f * 0x1000 + u * 0x100
/-- PRT_PORT_STATE (spec/06 R191, Table 6.20). -/
abbrev R.PRT_PORT_STATE (f u : Nat) : Nat := 0x400108 + f * 0x1000 + u * 0x100
/-- PRT_PLAN_ID (spec/06 R191, Table 6.21). -/
abbrev R.PRT_PLAN_ID (f u : Nat) : Nat := 0x400110 + f * 0x1000 + u * 0x100
/-- PRT_PLAN_PORT (spec/06 R191, Table 6.21). -/
abbrev R.PRT_PLAN_PORT (f u : Nat) : Nat := 0x400118 + f * 0x1000 + u * 0x100
/-- PRT_PARTNER_ID (spec/06 R191, Table 6.22). -/
abbrev R.PRT_PARTNER_ID (f u : Nat) : Nat := 0x400120 + f * 0x1000 + u * 0x100
/-- PRT_PARTNER_INFO (spec/06 R191, Table 6.22). -/
abbrev R.PRT_PARTNER_INFO (f u : Nat) : Nat := 0x400128 + f * 0x1000 + u * 0x100
/-- PRT_HOLD_TIME (spec/06 R191, Table 6.23). -/
abbrev R.PRT_HOLD_TIME (f u : Nat) : Nat := 0x400130 + f * 0x1000 + u * 0x100
/-- PRT_CREDIT (spec/06 R191, Table 6.24). -/
abbrev R.PRT_CREDIT (f u v : Nat) : Nat := 0x400140 + f * 0x1000 + u * 0x100 + v * 0x8
/-- PRT_PFC_THRESH (spec/06 R191, Table 6.25). -/
abbrev R.PRT_PFC_THRESH (f u c : Nat) : Nat := 0x400180 + f * 0x1000 + u * 0x100 + c * 0x8
/-- PRT_GLOBAL_CTRL (spec/06 R191, Table 6.26). -/
abbrev R.PRT_GLOBAL_CTRL : Nat := 0x500000
/-- PRT_WLX_ID (spec/06 R191, Table 6.26). -/
abbrev R.PRT_WLX_ID : Nat := 0x500008
/-- PRT_EVENT_HEAD (spec/06 R191, Table 6.27). -/
abbrev R.PRT_EVENT_HEAD : Nat := 0x500010
/-- PRT_EVENT (spec/06 R191, Table 6.28). -/
abbrev R.PRT_EVENT (n : Nat) : Nat := 0x501000 + n * 0x10
/-- PRT_EVENT_ID (spec/06 R191, Table 6.28). -/
abbrev R.PRT_EVENT_ID (n : Nat) : Nat := 0x501008 + n * 0x10
/-- FWD_GLOBAL_CTRL (spec/07 R222, Table 7.13). -/
abbrev R.FWD_GLOBAL_CTRL : Nat := 0x800000
/-- FWD_ROUTER_MAC (spec/07 R222, Table 7.14). -/
abbrev R.FWD_ROUTER_MAC : Nat := 0x800008
/-- FWD_FAR_PREFIX (spec/07 R222, Table 7.14). -/
abbrev R.FWD_FAR_PREFIX : Nat := 0x800010
/-- FWD_FARPEG_CTRL (spec/07 R222, Table 7.15). -/
abbrev R.FWD_FARPEG_CTRL : Nat := 0x800018
/-- FWD_EPOCH_STATUS (spec/07 R222, Table 7.16). -/
abbrev R.FWD_EPOCH_STATUS : Nat := 0x800020
/-- FWD_EPOCH_TIME (spec/07 R222, Table 7.16). -/
abbrev R.FWD_EPOCH_TIME : Nat := 0x800028
/-- FWD_SHADOW_CTRL (spec/07 R222, Table 7.17). -/
abbrev R.FWD_SHADOW_CTRL : Nat := 0x800030
/-- FWD_EVENT_HEAD (spec/07 R222, Table 7.18). -/
abbrev R.FWD_EVENT_HEAD : Nat := 0x800038
/-- FWD_MCAST_STATUS (spec/07 R222, Table 7.18). -/
abbrev R.FWD_MCAST_STATUS : Nat := 0x800040
/-- FWD_TRIE_STATUS (spec/07 R222, Table 7.18a). -/
abbrev R.FWD_TRIE_STATUS (b : Nat) : Nat := 0x800048 + b * 0x8
/-- FWD_DSCP_MAP (spec/07 R222, Table 7.19). -/
abbrev R.FWD_DSCP_MAP (w : Nat) : Nat := 0x800100 + w * 0x8
/-- FWD_SHADOW_BASE (spec/07 R222, Table 7.20). -/
abbrev R.FWD_SHADOW_BASE (t b : Nat) : Nat := 0x800200 + t * 0x10 + b * 0x8
/-- FWD_MCAST_EXCLUDE (spec/07 R222, Table 7.21). -/
abbrev R.FWD_MCAST_EXCLUDE (w : Nat) : Nat := 0x800400 + w * 0x8
/-- FWD_SEG_LOCK (spec/07 R222, Table 7.22). -/
abbrev R.FWD_SEG_LOCK (t b w : Nat) : Nat := 0x801000 + t * 0x100 + b * 0x40 + w * 0x8
/-- FWD_EVENT (spec/07 R222, Table 7.23). -/
abbrev R.FWD_EVENT (n : Nat) : Nat := 0x802000 + n * 0x10
/-- FWD_EVENT_INFO (spec/07 R222, Table 7.23). -/
abbrev R.FWD_EVENT_INFO (n : Nat) : Nat := 0x802008 + n * 0x10
/-- FWD_MAC_PORT (spec/07 R222, Table 7.24). -/
abbrev R.FWD_MAC_PORT (p : Nat) : Nat := 0x804000 + p * 0x8
/-- SWC_CTRL (spec/08 R248, Table 8.5). -/
abbrev R.SWC_CTRL : Nat := 0xc00000
/-- SWC_AUDIT_STATUS (spec/08 R248, Table 8.6). -/
abbrev R.SWC_AUDIT_STATUS : Nat := 0xc00008
/-- SWC_SFLOW_CTRL (spec/08 R248, Table 8.7). -/
abbrev R.SWC_SFLOW_CTRL : Nat := 0xc00010
/-- SWC_SFLOW_AGENT (spec/08 R248, Table 8.8). -/
abbrev R.SWC_SFLOW_AGENT (i : Nat) : Nat := 0xc00018 + i * 0x8
/-- SWC_SFLOW_COLLECTOR (spec/08 R248, Table 8.8). -/
abbrev R.SWC_SFLOW_COLLECTOR (i : Nat) : Nat := 0xc00028 + i * 0x8
/-- SWC_QUAD_STATUS (spec/08 R248, Table 8.9). -/
abbrev R.SWC_QUAD_STATUS (q : Nat) : Nat := 0xc00100 + q * 0x8
/-- SWC_BUF_PROFILE (spec/08 R248, Table 8.10). -/
abbrev R.SWC_BUF_PROFILE (k c : Nat) : Nat := 0xc00200 + k * 0x40 + c * 0x8
/-- SWC_SCHED_PROFILE (spec/08 R248, Table 8.11). -/
abbrev R.SWC_SCHED_PROFILE (k c : Nat) : Nat := 0xc00600 + k * 0x40 + c * 0x8
/-- SWC_ECN_DEPTH (spec/08 R248, Table 8.12). -/
abbrev R.SWC_ECN_DEPTH (k c : Nat) : Nat := 0xc01000 + k * 0x80 + c * 0x10
/-- SWC_ECN_TIME (spec/08 R248, Table 8.12). -/
abbrev R.SWC_ECN_TIME (k c : Nat) : Nat := 0xc01008 + k * 0x80 + c * 0x10
/-- SWC_PAIR_PROFILE (spec/08 R248, Table 8.13). -/
abbrev R.SWC_PAIR_PROFILE (f : Nat) : Nat := 0xc02000 + f * 0x8
/-- SWC_MIRROR_CTRL (spec/08 R248, Table 8.14). -/
abbrev R.SWC_MIRROR_CTRL (s : Nat) : Nat := 0xc03000 + s * 0x10
/-- SWC_MIRROR_SRC (spec/08 R248, Table 8.15). -/
abbrev R.SWC_MIRROR_SRC (s d w : Nat) : Nat := 0xc04000 + s * 0x200 + d * 0x100 + w * 0x8
/-- SWC_PORT_CTRL (spec/08 R248, Table 8.15). -/
abbrev R.SWC_PORT_CTRL (p : Nat) : Nat := 0xc08000 + p * 0x8
/-- BSN_CTRL (spec/09 R284, Table 9.15). -/
abbrev R.BSN_CTRL (b : Nat) : Nat := 0x1000000 + b * 0x40000
/-- BSN_STATUS (spec/09 R284, Table 9.15). -/
abbrev R.BSN_STATUS (b : Nat) : Nat := 0x1000008 + b * 0x40000
/-- BSN_RETAIN_BASE (spec/09 R284, Table 9.16). -/
abbrev R.BSN_RETAIN_BASE (b : Nat) : Nat := 0x1000010 + b * 0x40000
/-- BSN_RETAIN_SIZE (spec/09 R284, Table 9.17). -/
abbrev R.BSN_RETAIN_SIZE (b : Nat) : Nat := 0x1000018 + b * 0x40000
/-- BSN_MEMBER_BASE (spec/09 R284, Table 9.16). -/
abbrev R.BSN_MEMBER_BASE (b : Nat) : Nat := 0x1000020 + b * 0x40000
/-- BSN_TEMPLATE_BASE (spec/09 R284, Table 9.16). -/
abbrev R.BSN_TEMPLATE_BASE (b : Nat) : Nat := 0x1000028 + b * 0x40000
/-- BSN_ABORT (spec/09 R284, Table 9.17). -/
abbrev R.BSN_ABORT (b : Nat) : Nat := 0x1000030 + b * 0x40000
/-- BSN_LOG_HEAD (spec/09 R284, Table 9.18). -/
abbrev R.BSN_LOG_HEAD (b : Nat) : Nat := 0x1000038 + b * 0x40000
/-- BSN_GROUP_A (spec/09 R284, Table 9.19). -/
abbrev R.BSN_GROUP_A (b j : Nat) : Nat := 0x1001000 + b * 0x40000 + j * 0x10
/-- BSN_GROUP_B (spec/09 R284, Table 9.19). -/
abbrev R.BSN_GROUP_B (b j : Nat) : Nat := 0x1001008 + b * 0x40000 + j * 0x10
/-- BSN_SLOT (spec/09 R284, Table 9.20). -/
abbrev R.BSN_SLOT (b s : Nat) : Nat := 0x1004000 + b * 0x40000 + s * 0x8
/-- BSN_LOG (spec/09 R284, Table 9.21). -/
abbrev R.BSN_LOG (b n : Nat) : Nat := 0x1006000 + b * 0x40000 + n * 0x10
/-- BSN_LOG_INFO (spec/09 R284, Table 9.21). -/
abbrev R.BSN_LOG_INFO (b n : Nat) : Nat := 0x1006008 + b * 0x40000 + n * 0x10
/-- TEN_ASSIGN (spec/10 R310, Table 10.9). -/
abbrev R.TEN_ASSIGN (q : Nat) : Nat := 0x1400000 + q * 0x100000
/-- TEN_ASSIGN_STATUS (spec/10 R310, Table 10.9). -/
abbrev R.TEN_ASSIGN_STATUS (q : Nat) : Nat := 0x1400008 + q * 0x100000
/-- TEN_STATUS (spec/10 R310, Table 10.10). -/
abbrev R.TEN_STATUS (q : Nat) : Nat := 0x1400010 + q * 0x100000
/-- TEN_PACE (spec/10 R310, Table 10.11). -/
abbrev R.TEN_PACE (q : Nat) : Nat := 0x1400018 + q * 0x100000
/-- TEN_TRUSS (spec/10 R310, Table 10.12). -/
abbrev R.TEN_TRUSS (q k : Nat) : Nat := 0x1401000 + q * 0x100000 + k * 0x8
/-- TEN_TENON (spec/10 R310, Table 10.13). -/
abbrev R.TEN_TENON (q row col : Nat) : Nat := 0x1402000 + q * 0x100000 + row * 0x100 + col * 0x8
/-- SPL_CTRL (spec/11 R339, Table 11.11). -/
abbrev R.SPL_CTRL : Nat := 0x1800000
/-- SPL_STATUS (spec/11 R339, Table 11.11). -/
abbrev R.SPL_STATUS : Nat := 0x1800008
/-- SPL_REQ_A (spec/11 R339, Table 11.12). -/
abbrev R.SPL_REQ_A : Nat := 0x1800010
/-- SPL_REQ_B (spec/11 R339, Table 11.12). -/
abbrev R.SPL_REQ_B : Nat := 0x1800018
/-- SPL_REQ_IN_ID (spec/11 R339, Table 11.12). -/
abbrev R.SPL_REQ_IN_ID : Nat := 0x1800020
/-- SPL_REQ_OUT_ID (spec/11 R339, Table 11.12). -/
abbrev R.SPL_REQ_OUT_ID : Nat := 0x1800028
/-- SPL_RESP (spec/11 R339, Table 11.13). -/
abbrev R.SPL_RESP : Nat := 0x1800030
/-- SPL_FLIP (spec/11 R339, Table 11.14). -/
abbrev R.SPL_FLIP : Nat := 0x1800038
/-- SPL_FLIP_TIME (spec/11 R339, Table 11.14). -/
abbrev R.SPL_FLIP_TIME : Nat := 0x1800040
/-- SPL_CYCLE_START (spec/11 R339, Table 11.14). -/
abbrev R.SPL_CYCLE_START : Nat := 0x1800048
/-- SPL_SHAPE_PEND (spec/11 R339, Table 11.15). -/
abbrev R.SPL_SHAPE_PEND : Nat := 0x1800100
/-- SPL_SLOT_K_PEND (spec/11 R339, Table 11.16). -/
abbrev R.SPL_SLOT_K_PEND (w : Nat) : Nat := 0x1800108 + w * 0x8
/-- SPL_SHAPE_ACT (spec/11 R339, Table 11.15). -/
abbrev R.SPL_SHAPE_ACT : Nat := 0x1800140
/-- SPL_SLOT_K_ACT (spec/11 R339, Table 11.16). -/
abbrev R.SPL_SLOT_K_ACT (w : Nat) : Nat := 0x1800148 + w * 0x8
/-- SPL_EVENT_HEAD (spec/11 R339, Table 6.27). -/
abbrev R.SPL_EVENT_HEAD : Nat := 0x1800200
/-- SPL_EVENT (spec/11 R339, Table 11.18). -/
abbrev R.SPL_EVENT (n : Nat) : Nat := 0x1800800 + n * 0x10
/-- SPL_EVENT_INFO (spec/11 R339, Table 11.18). -/
abbrev R.SPL_EVENT_INFO (n : Nat) : Nat := 0x1800808 + n * 0x10
/-- SPL_CIRC_ACT (spec/11 R339, Table 11.17). -/
abbrev R.SPL_CIRC_ACT (n : Nat) : Nat := 0x1810000 + n * 0x10
/-- SPL_CIRC_ACT_MASK (spec/11 R339, Table 11.17). -/
abbrev R.SPL_CIRC_ACT_MASK (n : Nat) : Nat := 0x1810008 + n * 0x10
/-- SPL_CIRC_PEND (spec/11 R339, Table 11.17). -/
abbrev R.SPL_CIRC_PEND (n : Nat) : Nat := 0x1820000 + n * 0x10
/-- SPL_CIRC_PEND_MASK (spec/11 R339, Table 11.17). -/
abbrev R.SPL_CIRC_PEND_MASK (n : Nat) : Nat := 0x1820008 + n * 0x10
/-- OPT_CTRL (spec/11 R339, Table 11.19). -/
abbrev R.OPT_CTRL (e : Nat) : Nat := 0x1c00000 + e * 0x8000
/-- OPT_STATUS (spec/11 R339, Table 11.19). -/
abbrev R.OPT_STATUS (e : Nat) : Nat := 0x1c00008 + e * 0x8000
/-- OPT_MEASURE (spec/11 R339, Table 11.20). -/
abbrev R.OPT_MEASURE (e : Nat) : Nat := 0x1c00010 + e * 0x8000
/-- OPT_MEASURE_RESULT (spec/11 R339, Table 11.20). -/
abbrev R.OPT_MEASURE_RESULT (e : Nat) : Nat := 0x1c00018 + e * 0x8000
/-- OPT_LANE_CLEAR (spec/11 R339, Table 11.20). -/
abbrev R.OPT_LANE_CLEAR (e : Nat) : Nat := 0x1c00020 + e * 0x8000
/-- OPT_RING (spec/11 R339, Table 11.21). -/
abbrev R.OPT_RING (e k l : Nat) : Nat := 0x1c00100 + e * 0x8000 + k * 0x40 + l * 0x8
/-- OPT_TAP (spec/11 R339, Table 11.21). -/
abbrev R.OPT_TAP (e j : Nat) : Nat := 0x1c00300 + e * 0x8000 + j * 0x8
/-- MEM_CTRL (spec/13 R374, Table 13.5). -/
abbrev R.MEM_CTRL : Nat := 0x2000000
/-- MEM_STATUS (spec/13 R374, Table 13.5). -/
abbrev R.MEM_STATUS : Nat := 0x2000008
/-- MEM_HISTORY_BASE (spec/13 R374, Table 13.6). -/
abbrev R.MEM_HISTORY_BASE : Nat := 0x2000010
/-- MEM_HISTORY_SIZE (spec/13 R374, Table 13.6). -/
abbrev R.MEM_HISTORY_SIZE : Nat := 0x2000018
/-- MEM_ARCHIVE_BASE (spec/13 R374, Table 13.6). -/
abbrev R.MEM_ARCHIVE_BASE : Nat := 0x2000020
/-- MEM_ARCHIVE_SIZE (spec/13 R374, Table 13.6). -/
abbrev R.MEM_ARCHIVE_SIZE : Nat := 0x2000028
/-- MEM_EVENT_HEAD (spec/13 R374, Table 13.7). -/
abbrev R.MEM_EVENT_HEAD : Nat := 0x2000030
/-- MEM_HBM_STATUS (spec/13 R374, Table 13.8). -/
abbrev R.MEM_HBM_STATUS (m : Nat) : Nat := 0x2000100 + m * 0x8
/-- MEM_DDR_STATUS (spec/13 R374, Table 13.8). -/
abbrev R.MEM_DDR_STATUS (c : Nat) : Nat := 0x2000200 + c * 0x8
/-- MEM_EVENT (spec/13 R374, Table 13.9). -/
abbrev R.MEM_EVENT (n : Nat) : Nat := 0x2001000 + n * 0x10
/-- MEM_EVENT_ADDR (spec/13 R374, Table 13.9). -/
abbrev R.MEM_EVENT_ADDR (n : Nat) : Nat := 0x2001008 + n * 0x10
/-- PLN_CFG (spec/17 R454, Table 17.8). -/
abbrev R.PLN_CFG : Nat := 0x2400000
/-- PLN_MANAGER_ID (spec/17 R454, Table 17.8). -/
abbrev R.PLN_MANAGER_ID : Nat := 0x2400008
/-- PLN_STANDBY_ID (spec/17 R454, Table 17.8). -/
abbrev R.PLN_STANDBY_ID : Nat := 0x2400010
/-- PLN_PREFIX_A (spec/17 R454, Table 17.8). -/
abbrev R.PLN_PREFIX_A : Nat := 0x2400018
/-- PLN_PREFIX_B (spec/17 R454, Table 17.8). -/
abbrev R.PLN_PREFIX_B : Nat := 0x2400020
/-- PLN_BUDGET (spec/17 R454, Table 17.8). -/
abbrev R.PLN_BUDGET : Nat := 0x2400028
/-- PLN_STATUS (spec/17 R454, Table 17.9). -/
abbrev R.PLN_STATUS : Nat := 0x2400030
/-- PLN_WH_LOAD (spec/17 R454, Table 17.9). -/
abbrev R.PLN_WH_LOAD : Nat := 0x2400038
/-- PLN_PROMOTE (spec/17 R454, Table 17.9). -/
abbrev R.PLN_PROMOTE : Nat := 0x2400040
/-- PLN_FLIP (spec/17 R454, Table 17.10). -/
abbrev R.PLN_FLIP : Nat := 0x2400048
/-- PLN_FLIP_STATUS (spec/17 R454, Table 17.10). -/
abbrev R.PLN_FLIP_STATUS : Nat := 0x2400050
/-- PLN_FLIP_TIME (spec/17 R454, Table 17.10). -/
abbrev R.PLN_FLIP_TIME : Nat := 0x2400058
/-- PLN_FENCE_REQ (spec/17 R454, Table 17.11). -/
abbrev R.PLN_FENCE_REQ : Nat := 0x2400060
/-- PLN_FENCE_TARGET (spec/17 R454, Table 17.11). -/
abbrev R.PLN_FENCE_TARGET : Nat := 0x2400068
/-- PLN_FENCE_RESP (spec/17 R454, Table 17.11). -/
abbrev R.PLN_FENCE_RESP : Nat := 0x2400070
/-- PLN_FENCE_CONFIRM (spec/17 R454, Table 17.11). -/
abbrev R.PLN_FENCE_CONFIRM : Nat := 0x2400078
/-- PLN_HELD (spec/17 R454, Table 17.12). -/
abbrev R.PLN_HELD (n : Nat) : Nat := 0x2400100 + n * 0x10
/-- PLN_HELD_ID (spec/17 R454, Table 17.12). -/
abbrev R.PLN_HELD_ID (n : Nat) : Nat := 0x2400108 + n * 0x10
/-- PLN_EVENT_HEAD (spec/17 R454, Table 6.27). -/
abbrev R.PLN_EVENT_HEAD : Nat := 0x2400800
/-- PLN_EVENT (spec/17 R454, Table 17.14). -/
abbrev R.PLN_EVENT (n : Nat) : Nat := 0x2401000 + n * 0x20
/-- PLN_EVENT_INFO (spec/17 R454, Table 17.14). -/
abbrev R.PLN_EVENT_INFO (n : Nat) : Nat := 0x2401008 + n * 0x20
/-- PLN_EVENT_ID (spec/17 R454, Table 17.14). -/
abbrev R.PLN_EVENT_ID (n : Nat) : Nat := 0x2401010 + n * 0x20
/-- PLN_WORKER_ID (spec/17 R454, Table 17.13). -/
abbrev R.PLN_WORKER_ID (n : Nat) : Nat := 0x2404000 + n * 0x10
/-- PLN_WORKER_STATE (spec/17 R454, Table 17.13). -/
abbrev R.PLN_WORKER_STATE (n : Nat) : Nat := 0x2404008 + n * 0x10
/-- SIL_CTRL (spec/02 R64, Table 2.9). -/
abbrev R.SIL_CTRL : Nat := 0x2800000
/-- SIL_MON_ALARM (spec/02 R64, Table 2.10). -/
abbrev R.SIL_MON_ALARM : Nat := 0x2800010
/-- SIL_MON_BELOW (spec/02 R64, Table 2.10). -/
abbrev R.SIL_MON_BELOW : Nat := 0x2800018
/-- SIL_OVR_COUNT (spec/02 R64, Table 2.11). -/
abbrev R.SIL_OVR_COUNT : Nat := 0x2800020
/-- SIL_INJECT (spec/02 R64, Table 2.12). -/
abbrev R.SIL_INJECT : Nat := 0x2800028
/-- SIL_OVR_SUMMARY (spec/02 R64, Table 2.13). -/
abbrev R.SIL_OVR_SUMMARY (w : Nat) : Nat := 0x2800100 + w * 0x8
/-- SIL_MON_STATUS (spec/02 R64, Table 2.14). -/
abbrev R.SIL_MON_STATUS (n : Nat) : Nat := 0x2800400 + n * 0x8
/-- SIL_MON_REQ (spec/02 R64, Table 2.15). -/
abbrev R.SIL_MON_REQ (n : Nat) : Nat := 0x2800600 + n * 0x8
/-- SIL_MON_THRESH (spec/02 R64, Table 2.16). -/
abbrev R.SIL_MON_THRESH (n : Nat) : Nat := 0x2800800 + n * 0x8
/-- SIL_OVR (spec/02 R64, Table 2.17). -/
abbrev R.SIL_OVR (g : Nat) : Nat := 0x2801000 + g * 0x8

/-! ## Fields -/

abbrev F.GLB_ID_IDENTITY : Fld := ⟨0, 64⟩
abbrev F.GLB_PART_PART : Fld := ⟨48, 16⟩
abbrev F.GLB_PART_STEPPING : Fld := ⟨40, 8⟩
abbrev F.GLB_VERSIONS_DESC_NATIVE : Fld := ⟨60, 4⟩
abbrev F.GLB_VERSIONS_DESC_OLDEST : Fld := ⟨56, 4⟩
abbrev F.GLB_VERSIONS_WLX_NATIVE : Fld := ⟨52, 4⟩
abbrev F.GLB_VERSIONS_WLX_OLDEST : Fld := ⟨48, 4⟩
abbrev F.GLB_VERSIONS_HFH_NATIVE : Fld := ⟨44, 4⟩
abbrev F.GLB_VERSIONS_HFH_OLDEST : Fld := ⟨40, 4⟩
abbrev F.GLB_VERSIONS_TELEMETRY : Fld := ⟨32, 8⟩
abbrev F.GLB_VERSIONS_LEDGER : Fld := ⟨24, 8⟩
abbrev F.GLB_VERSIONS_DXN_NATIVE : Fld := ⟨16, 8⟩
abbrev F.GLB_VERSIONS_DXN_OLDEST : Fld := ⟨8, 8⟩
abbrev F.GLB_BOOT_PHASE : Fld := ⟨60, 4⟩
abbrev F.GLB_BOOT_CAUSE : Fld := ⟨56, 4⟩
abbrev F.GLB_BOOT_STRAPS : Fld := ⟨48, 6⟩
abbrev F.GLB_BOOT_WELLHEAD_RESTARTS : Fld := ⟨32, 16⟩
abbrev F.GLB_BOOT_MODULE_RESETS : Fld := ⟨16, 16⟩
abbrev F.GLB_CTRL_FWD_ENABLE : Fld := ⟨63, 1⟩
abbrev F.GLB_STATUS_FWD_ACTIVE : Fld := ⟨63, 1⟩
abbrev F.GLB_STATUS_HOST_READY : Fld := ⟨62, 1⟩
abbrev F.GLB_STATUS_HBM_READY : Fld := ⟨61, 1⟩
abbrev F.GLB_STATUS_DDR_READY : Fld := ⟨60, 1⟩
abbrev F.GLB_STATUS_OPTICS_READY : Fld := ⟨59, 1⟩
abbrev F.GLB_STATUS_RECOVERY : Fld := ⟨58, 1⟩
abbrev F.GLB_STATUS_ENGINES_LOCKED : Fld := ⟨40, 6⟩
abbrev F.GLB_HOST_IF_TELEMETRY : Fld := ⟨16, 8⟩
abbrev F.GLB_HOST_IF_LEDGER : Fld := ⟨8, 8⟩
abbrev F.GLB_HOST_IF_DESCRIPTOR : Fld := ⟨0, 8⟩
abbrev F.GLB_PLUMB_STATUS_LAST_REASON : Fld := ⟨56, 8⟩
abbrev F.GLB_PLUMB_STATUS_REFUSALS : Fld := ⟨16, 16⟩
abbrev F.GLB_PLUMB_STATUS_QUIESCE_IGNORED : Fld := ⟨0, 16⟩
abbrev F.GLB_RESET_KEY : Fld := ⟨56, 8⟩
abbrev F.GLB_RESET_WELLHEAD : Fld := ⟨1, 1⟩
abbrev F.GLB_RESET_MODULE : Fld := ⟨0, 1⟩
abbrev F.HIF_LINK_STATUS_UP : Fld := ⟨63, 1⟩
abbrev F.HIF_LINK_STATUS_RATE : Fld := ⟨61, 2⟩
abbrev F.HIF_LINK_STATUS_WIDTH : Fld := ⟨59, 2⟩
abbrev F.HIF_LINK_STATUS_LOPT : Fld := ⟨58, 1⟩
abbrev F.HIF_LINK_STATUS_IDE_ACTIVE : Fld := ⟨57, 1⟩
abbrev F.HIF_LINK_STATUS_RETRAINS : Fld := ⟨0, 16⟩
abbrev F.HIF_LINK_CTRL_IDE_REQUIRED : Fld := ⟨24, 1⟩
abbrev F.HIF_LINK_CTRL_LOPT_ALLOW : Fld := ⟨16, 1⟩
abbrev F.HIF_LINK_CTRL_MAX_RATE : Fld := ⟨8, 2⟩
abbrev F.HIF_LINK_CTRL_MAX_WIDTH : Fld := ⟨4, 2⟩
abbrev F.HIF_LINK_CTRL_RETRAIN : Fld := ⟨0, 1⟩
abbrev F.HIF_ERR_STATUS_ERR : Fld := ⟨0, 9⟩
abbrev F.HIF_ERR_ADDR_SPACE : Fld := ⟨62, 2⟩
abbrev F.HIF_ERR_ADDR_KIND : Fld := ⟨60, 2⟩
abbrev F.HIF_ERR_ADDR_SIZE : Fld := ⟨56, 4⟩
abbrev F.HIF_ERR_ADDR_OFFSET : Fld := ⟨0, 26⟩
abbrev F.HIF_WORK_STATUS_LOST : Fld := ⟨32, 32⟩
abbrev F.HIF_WORK_STATUS_OUTSTANDING : Fld := ⟨0, 13⟩
abbrev F.HIF_WATCH_POLL_PERIOD : Fld := ⟨0, 16⟩
abbrev F.HIF_RING_ENABLE_ENABLE : Fld := ⟨0, 64⟩
abbrev F.HIF_CQ_BASE_ADDR : Fld := ⟨0, 64⟩
abbrev F.HIF_CQ_CFG_ENABLE : Fld := ⟨63, 1⟩
abbrev F.HIF_CQ_CFG_SIZE_LOG2 : Fld := ⟨0, 5⟩
abbrev F.HIF_CQ_HEADPTR_ADDR : Fld := ⟨0, 64⟩
abbrev F.HIF_CQ_STATE_PHASE : Fld := ⟨63, 1⟩
abbrev F.HIF_CQ_STATE_STALLED : Fld := ⟨62, 1⟩
abbrev F.HIF_CQ_STATE_TAIL : Fld := ⟨0, 32⟩
abbrev F.HIF_RING_BASE_ADDR : Fld := ⟨0, 64⟩
abbrev F.HIF_RING_CFG_DOMAIN_CHECK : Fld := ⟨47, 1⟩
abbrev F.HIF_RING_CFG_DOMAIN : Fld := ⟨32, 12⟩
abbrev F.HIF_RING_CFG_DEFAULT_CQ : Fld := ⟨16, 8⟩
abbrev F.HIF_RING_CFG_PRIORITY : Fld := ⟨8, 2⟩
abbrev F.HIF_RING_CFG_SIZE_LOG2 : Fld := ⟨0, 5⟩
abbrev F.HIF_RING_LINE_ADDR : Fld := ⟨0, 64⟩
abbrev F.HIF_RING_STATE_STATE : Fld := ⟨62, 2⟩
abbrev F.HIF_RING_STATE_ERROR : Fld := ⟨48, 8⟩
abbrev F.HIF_RING_STATE_OUTSTANDING : Fld := ⟨32, 13⟩
abbrev F.HIF_RING_STATE_HEAD : Fld := ⟨0, 32⟩
abbrev F.CMD_CTRL_CACHE_FLUSH : Fld := ⟨33, 1⟩
abbrev F.CMD_CTRL_SIGNED_ONLY : Fld := ⟨32, 1⟩
abbrev F.CMD_CTRL_RUN_LIMIT : Fld := ⟨0, 32⟩
abbrev F.CMD_STATUS_NATIVE_MAJOR : Fld := ⟨56, 8⟩
abbrev F.CMD_STATUS_NATIVE_MINOR : Fld := ⟨48, 8⟩
abbrev F.CMD_STATUS_OLDEST_MAJOR : Fld := ⟨40, 8⟩
abbrev F.CMD_STATUS_OLDEST_MINOR : Fld := ⟨32, 8⟩
abbrev F.CMD_STATUS_IMAGES : Fld := ⟨16, 9⟩
abbrev F.CMD_STATUS_BUSY : Fld := ⟨0, 7⟩
abbrev F.CMD_PEG_ASSIGN_GO : Fld := ⟨63, 1⟩
abbrev F.CMD_PEG_ASSIGN_DOMAIN : Fld := ⟨32, 12⟩
abbrev F.CMD_PEG_ASSIGN_COUNT : Fld := ⟨16, 16⟩
abbrev F.CMD_PEG_ASSIGN_FIRST : Fld := ⟨0, 16⟩
abbrev F.CMD_PEG_ASSIGN_STATUS_REASON : Fld := ⟨0, 8⟩
abbrev F.CMD_FAR_CTRL_RETRIES : Fld := ⟨20, 4⟩
abbrev F.CMD_FAR_CTRL_RETRY_TIME : Fld := ⟨0, 16⟩
abbrev F.CMD_FAULT_HEAD_COUNT : Fld := ⟨0, 32⟩
abbrev F.CMD_FAULT_CODE : Fld := ⟨56, 8⟩
abbrev F.CMD_FAULT_AGENT : Fld := ⟨52, 4⟩
abbrev F.CMD_FAULT_DOMAIN : Fld := ⟨40, 12⟩
abbrev F.CMD_FAULT_INDEX : Fld := ⟨16, 24⟩
abbrev F.CMD_FAULT_WHO : Fld := ⟨0, 16⟩
abbrev F.CMD_FAULT_INFO_INFO : Fld := ⟨0, 64⟩
abbrev F.CMD_CTX_STATE : Fld := ⟨61, 3⟩
abbrev F.CMD_CTX_RING : Fld := ⟨48, 10⟩
abbrev F.CMD_CTX_TAG : Fld := ⟨32, 16⟩
abbrev F.CMD_CTX_PC : Fld := ⟨0, 24⟩
abbrev F.CFG_COMMIT_GO : Fld := ⟨63, 1⟩
abbrev F.CFG_COMMIT_SET : Fld := ⟨0, 8⟩
abbrev F.CFG_COMMIT_STATUS_BUSY : Fld := ⟨63, 1⟩
abbrev F.CFG_COMMIT_STATUS_REASON : Fld := ⟨48, 8⟩
abbrev F.CFG_COMMIT_STATUS_SET : Fld := ⟨40, 8⟩
abbrev F.CFG_COMMIT_STATUS_OFFSET : Fld := ⟨0, 26⟩
abbrev F.CFG_DISCARD_GO : Fld := ⟨63, 1⟩
abbrev F.CFG_DISCARD_SET : Fld := ⟨0, 8⟩
abbrev F.CFG_LOG_HEAD_COUNT : Fld := ⟨0, 32⟩
abbrev F.CFG_SET_STATUS_DIRTY : Fld := ⟨63, 1⟩
abbrev F.CFG_SET_STATUS_COMMITTED : Fld := ⟨62, 1⟩
abbrev F.CFG_SET_STATUS_BUSY : Fld := ⟨61, 1⟩
abbrev F.CFG_SET_STATUS_LAST_REASON : Fld := ⟨48, 8⟩
abbrev F.CFG_SET_STATUS_COMMITS : Fld := ⟨0, 32⟩
abbrev F.CFG_LOG_KIND : Fld := ⟨56, 8⟩
abbrev F.CFG_LOG_REASON : Fld := ⟨48, 8⟩
abbrev F.CFG_LOG_SET : Fld := ⟨40, 8⟩
abbrev F.CFG_LOG_SOURCE : Fld := ⟨38, 2⟩
abbrev F.CFG_LOG_DOMAIN : Fld := ⟨26, 12⟩
abbrev F.CFG_LOG_OFFSET : Fld := ⟨0, 26⟩
abbrev F.CFG_LOG_INFO_TIME : Fld := ⟨0, 64⟩
abbrev F.PWR_STATUS_POWER_W : Fld := ⟨48, 16⟩
abbrev F.PWR_STATUS_VOLTAGE : Fld := ⟨32, 16⟩
abbrev F.PWR_STATUS_SHARE_A : Fld := ⟨24, 8⟩
abbrev F.PWR_STATUS_POWER_PACE : Fld := ⟨16, 7⟩
abbrev F.PWR_CTRL_CAP_W : Fld := ⟨0, 16⟩
abbrev F.PWR_VCORE_CEILING : Fld := ⟨32, 16⟩
abbrev F.PWR_VCORE_SETPOINT : Fld := ⟨16, 16⟩
abbrev F.PWR_VCORE_MEASURED : Fld := ⟨0, 16⟩
abbrev F.PWR_BAY_CTRL_TOL : Fld := ⟨0, 24⟩
abbrev F.PWR_BAY_STATUS_STATE : Fld := ⟨61, 3⟩
abbrev F.PWR_BAY_STATUS_TARGET : Fld := ⟨58, 3⟩
abbrev F.PWR_BAY_STATUS_KEPT : Fld := ⟨57, 1⟩
abbrev F.PWR_BAY_STATUS_LAST_EXIT : Fld := ⟨32, 16⟩
abbrev F.PWR_BAY_STATUS_WAKES : Fld := ⟨0, 32⟩
abbrev F.THM_CTRL_STEP_C : Fld := ⟨8, 8⟩
abbrev F.THM_CTRL_PACE_LIMIT : Fld := ⟨0, 8⟩
abbrev F.THM_STATUS_MAX_C : Fld := ⟨56, 8⟩
abbrev F.THM_STATUS_MAX_SENSOR : Fld := ⟨50, 6⟩
abbrev F.THM_STATUS_THERM : Fld := ⟨3, 1⟩
abbrev F.THM_STATUS_LIMIT : Fld := ⟨2, 1⟩
abbrev F.THM_STATUS_STEP : Fld := ⟨1, 1⟩
abbrev F.THM_STATUS_PACED : Fld := ⟨0, 1⟩
abbrev F.THM_EVENT_HEAD_COUNT : Fld := ⟨0, 32⟩
abbrev F.THM_SENSOR_TEMP : Fld := ⟨48, 16⟩
abbrev F.THM_SENSOR_MAX : Fld := ⟨32, 16⟩
abbrev F.THM_SENSOR_MIN : Fld := ⟨16, 16⟩
abbrev F.THM_EVENT_KIND : Fld := ⟨56, 8⟩
abbrev F.THM_EVENT_WHERE : Fld := ⟨48, 8⟩
abbrev F.THM_EVENT_FROM : Fld := ⟨32, 16⟩
abbrev F.THM_EVENT_TO : Fld := ⟨16, 16⟩
abbrev F.THM_EVENT_PACE : Fld := ⟨8, 8⟩
abbrev F.THM_EVENT_INFO_TIME : Fld := ⟨0, 64⟩
abbrev F.TIM_CTRL_ENABLE : Fld := ⟨63, 1⟩
abbrev F.TIM_CTRL_TC_ENABLE : Fld := ⟨62, 1⟩
abbrev F.TIM_CTRL_SOURCE : Fld := ⟨60, 2⟩
abbrev F.TIM_CTRL_DOMAIN : Fld := ⟨48, 8⟩
abbrev F.TIM_CTRL_STEP_NS : Fld := ⟨0, 32⟩
abbrev F.TIM_STATUS_STATE : Fld := ⟨62, 2⟩
abbrev F.TIM_STATUS_EVER_LOCKED : Fld := ⟨61, 1⟩
abbrev F.TIM_STATUS_PPS_MISSING : Fld := ⟨59, 1⟩
abbrev F.TIM_STATUS_STEP : Fld := ⟨58, 1⟩
abbrev F.TIM_STATUS_PARENT_CHANGE : Fld := ⟨57, 1⟩
abbrev F.TIM_STATUS_STATE_CHANGE : Fld := ⟨56, 1⟩
abbrev F.TIM_STATUS_PARENT : Fld := ⟨44, 12⟩
abbrev F.TIM_STATUS_ERROR_NS : Fld := ⟨0, 32⟩
abbrev F.TIM_NOW_NS_NS_FRAC : Fld := ⟨0, 48⟩
abbrev F.TIM_NOW_SEC_SECONDS : Fld := ⟨0, 48⟩
abbrev F.TIM_SET_NS_GO : Fld := ⟨63, 1⟩
abbrev F.TIM_SET_NS_NS_FRAC : Fld := ⟨0, 48⟩
abbrev F.TIM_SET_SEC_SECONDS : Fld := ⟨0, 48⟩
abbrev F.TIM_FREQ_RATE : Fld := ⟨0, 32⟩
abbrev F.TIM_SERVO_LOCK_NS : Fld := ⟨48, 16⟩
abbrev F.TIM_SERVO_UNCERT_NS : Fld := ⟨32, 16⟩
abbrev F.TIM_SERVO_SLEW_PPB : Fld := ⟨0, 32⟩
abbrev F.TIM_HOLDOVER_SPEC_NS : Fld := ⟨32, 32⟩
abbrev F.TIM_HOLDOVER_FLOOR_PPT : Fld := ⟨0, 32⟩
abbrev F.TIM_OFFSET_OFFSET_PS : Fld := ⟨32, 32⟩
abbrev F.TIM_OFFSET_DELAY_PS : Fld := ⟨0, 32⟩
abbrev F.TIM_CLOCK_PRIORITY1 : Fld := ⟨56, 8⟩
abbrev F.TIM_CLOCK_PRIORITY2 : Fld := ⟨48, 8⟩
abbrev F.TIM_CLOCK_CLASS : Fld := ⟨40, 8⟩
abbrev F.TIM_CLOCK_ACCURACY : Fld := ⟨32, 8⟩
abbrev F.TIM_CLOCK_STEPS : Fld := ⟨16, 16⟩
abbrev F.TIM_CLOCK_UTC_OFFSET : Fld := ⟨0, 16⟩
abbrev F.TIM_INTERVAL_LOG_SYNC : Fld := ⟨24, 8⟩
abbrev F.TIM_INTERVAL_LOG_ANNOUNCE : Fld := ⟨16, 8⟩
abbrev F.TIM_INTERVAL_LOG_DELAY_REQ : Fld := ⟨8, 8⟩
abbrev F.TIM_INTERVAL_ANNOUNCE_TIMEOUT : Fld := ⟨0, 8⟩
abbrev F.TIM_GM_ID_IDENTITY : Fld := ⟨0, 64⟩
abbrev F.TIM_PARENT_ID_IDENTITY : Fld := ⟨0, 64⟩
abbrev F.TIM_PPS_IN_SECONDS : Fld := ⟨32, 32⟩
abbrev F.TIM_PPS_IN_NANOSECONDS : Fld := ⟨0, 32⟩
abbrev F.TIM_PORT_CFG_PTP : Fld := ⟨63, 1⟩
abbrev F.TIM_PORT_CFG_MASTER_ONLY : Fld := ⟨62, 1⟩
abbrev F.TIM_PORT_CFG_TRANSPORT : Fld := ⟨61, 1⟩
abbrev F.TIM_PORT_LAT_TX_LAT_PS : Fld := ⟨32, 32⟩
abbrev F.TIM_PORT_LAT_RX_LAT_PS : Fld := ⟨0, 32⟩
abbrev F.TIM_PORT_ASYM_ASYM_PS : Fld := ⟨0, 32⟩
abbrev F.TIM_PORT_STATE_PTP_STATE : Fld := ⟨60, 4⟩
abbrev F.TIM_PORT_STATE_DELAY_PS : Fld := ⟨0, 32⟩
abbrev F.SEC_STATUS_BOOT_FAILED : Fld := ⟨63, 1⟩
abbrev F.SEC_STATUS_INDEX_LOW : Fld := ⟨62, 1⟩
abbrev F.SEC_STATUS_INDEX_EXHAUSTED : Fld := ⟨61, 1⟩
abbrev F.SEC_STATUS_INDEX_RECOVERED : Fld := ⟨60, 1⟩
abbrev F.SEC_STATUS_REVOKED : Fld := ⟨56, 4⟩
abbrev F.SEC_STATUS_SVN_FUSES : Fld := ⟨48, 8⟩
abbrev F.SEC_STATUS_EPOCH_FUSES : Fld := ⟨40, 8⟩
abbrev F.SEC_STATUS_PSK_VALID : Fld := ⟨36, 4⟩
abbrev F.SEC_CTRL_LOCK : Fld := ⟨0, 1⟩
abbrev F.SEC_FW_BOOTED : Fld := ⟨56, 8⟩
abbrev F.SEC_FW_ACTIVE : Fld := ⟨54, 2⟩
abbrev F.SEC_FW_PENDING : Fld := ⟨52, 2⟩
abbrev F.SEC_FW_SVN : Fld := ⟨32, 8⟩
abbrev F.SEC_FW_VERSION : Fld := ⟨0, 32⟩
abbrev F.SEC_XMSS_NEXT_NEXT : Fld := ⟨0, 40⟩
abbrev F.SEC_XMSS_REMAIN_REMAIN : Fld := ⟨0, 41⟩
abbrev F.SEC_IMG_KEY_DIGEST : Fld := ⟨0, 64⟩
abbrev F.SEC_MEAS_VALUE : Fld := ⟨0, 64⟩
abbrev F.LDG_CTRL_COMMIT : Fld := ⟨63, 1⟩
abbrev F.LDG_STATUS_COPY : Fld := ⟨62, 2⟩
abbrev F.LDG_STATUS_BUSY : Fld := ⟨61, 1⟩
abbrev F.LDG_STATUS_LOST : Fld := ⟨60, 1⟩
abbrev F.LDG_STATUS_DROP : Fld := ⟨59, 1⟩
abbrev F.LDG_STATUS_SEQUENCE : Fld := ⟨0, 32⟩
abbrev F.LDG_LIFE_LIFE_S : Fld := ⟨0, 48⟩
abbrev F.LDG_JOURNAL_HEAD : Fld := ⟨32, 32⟩
abbrev F.LDG_JOURNAL_ARCHIVED : Fld := ⟨0, 32⟩
abbrev F.LDG_HEALTH_SCORE : Fld := ⟨54, 10⟩
abbrev F.LDG_HEALTH_S_OPT : Fld := ⟨44, 10⟩
abbrev F.LDG_HEALTH_S_FEC : Fld := ⟨34, 10⟩
abbrev F.LDG_HEALTH_S_CAD : Fld := ⟨24, 10⟩
abbrev F.LDG_HEALTH_S_MEM : Fld := ⟨14, 10⟩
abbrev F.LDG_HEALTH_S_THM : Fld := ⟨4, 10⟩
abbrev F.LDG_HEALTH_B_S_WEAR : Fld := ⟨54, 10⟩
abbrev F.LDG_HEALTH_B_HELD : Fld := ⟨53, 1⟩
abbrev F.LDG_HEALTH_B_SECONDS : Fld := ⟨0, 32⟩
abbrev F.LDG_WIN_BASE_OFFSET : Fld := ⟨12, 14⟩
abbrev F.LDG_BAY_WEAR_BP : Fld := ⟨48, 16⟩
abbrev F.LDG_BAY_ENERGISED_S : Fld := ⟨0, 48⟩
abbrev F.LDG_WIN_DATA : Fld := ⟨0, 64⟩
abbrev F.CNT_SNAP_GO : Fld := ⟨63, 1⟩
abbrev F.CNT_SNAP_MODE : Fld := ⟨61, 2⟩
abbrev F.CNT_SNAP_NOTIFY : Fld := ⟨60, 1⟩
abbrev F.CNT_SNAP_PERIOD_MS : Fld := ⟨0, 32⟩
abbrev F.CNT_SNAP_TIME_SECONDS : Fld := ⟨32, 32⟩
abbrev F.CNT_SNAP_TIME_NANOSECONDS : Fld := ⟨0, 32⟩
abbrev F.CNT_SNAP_STATUS_STATE : Fld := ⟨62, 2⟩
abbrev F.CNT_SNAP_STATUS_GATHERING : Fld := ⟨61, 1⟩
abbrev F.CNT_SNAP_STATUS_RESULT : Fld := ⟨48, 8⟩
abbrev F.CNT_SNAP_STATUS_SKIPPED : Fld := ⟨32, 16⟩
abbrev F.CNT_SNAP_STATUS_SEQ : Fld := ⟨0, 32⟩
abbrev F.CNT_CLEAR_GO : Fld := ⟨63, 1⟩
abbrev F.CNT_CLEAR_BLOCK : Fld := ⟨0, 8⟩
abbrev F.CNT_COPY_HOST : Fld := ⟨63, 1⟩
abbrev F.CNT_COPY_ADDR : Fld := ⟨0, 52⟩
abbrev F.CNT_COPY_CTRL_GO : Fld := ⟨63, 1⟩
abbrev F.CNT_COPY_CTRL_FIRST : Fld := ⟨16, 12⟩
abbrev F.CNT_COPY_CTRL_COUNT : Fld := ⟨0, 12⟩
abbrev F.CNT_HISTORY_EVERY : Fld := ⟨48, 16⟩
abbrev F.CNT_HISTORY_RECORDS : Fld := ⟨0, 32⟩
abbrev F.CNT_PAGE_VIS_VISIBLE : Fld := ⟨0, 64⟩
abbrev F.PRT_PAIR_CFG_MODE : Fld := ⟨0, 2⟩
abbrev F.PRT_PAIR_STATUS_WITHDRAWN : Fld := ⟨24, 8⟩
abbrev F.PRT_PAIR_STATUS_LENT : Fld := ⟨16, 8⟩
abbrev F.PRT_PAIR_STATUS_LOCK : Fld := ⟨8, 8⟩
abbrev F.PRT_PAIR_STATUS_LIGHT : Fld := ⟨0, 8⟩
abbrev F.PRT_PORT_CTRL_ENABLE : Fld := ⟨63, 1⟩
abbrev F.PRT_PORT_CTRL_HFH_MAX : Fld := ⟨16, 4⟩
abbrev F.PRT_PORT_CTRL_VC_MAX : Fld := ⟨12, 4⟩
abbrev F.PRT_PORT_CTRL_FC_ALLOW : Fld := ⟨8, 2⟩
abbrev F.PRT_PORT_CTRL_WLX_MAX : Fld := ⟨0, 4⟩
abbrev F.PRT_PORT_STATE_STATE : Fld := ⟨60, 4⟩
abbrev F.PRT_PORT_STATE_DOWN_REASON : Fld := ⟨56, 4⟩
abbrev F.PRT_PORT_STATE_WLX : Fld := ⟨52, 4⟩
abbrev F.PRT_PORT_STATE_FC : Fld := ⟨50, 2⟩
abbrev F.PRT_PORT_STATE_VCS : Fld := ⟨46, 4⟩
abbrev F.PRT_PORT_STATE_HFH : Fld := ⟨44, 2⟩
abbrev F.PRT_PORT_STATE_BURST : Fld := ⟨43, 1⟩
abbrev F.PRT_PORT_STATE_SPILL : Fld := ⟨42, 1⟩
abbrev F.PRT_PORT_STATE_TS : Fld := ⟨41, 1⟩
abbrev F.PRT_PORT_STATE_NONWLX : Fld := ⟨40, 1⟩
abbrev F.PRT_PORT_STATE_NEG_FAIL : Fld := ⟨32, 8⟩
abbrev F.PRT_PORT_STATE_MAX_FRAME : Fld := ⟨0, 16⟩
abbrev F.PRT_PLAN_ID_IDENTITY : Fld := ⟨0, 64⟩
abbrev F.PRT_PLAN_PORT_NONE : Fld := ⟨17, 1⟩
abbrev F.PRT_PLAN_PORT_NONWLX : Fld := ⟨16, 1⟩
abbrev F.PRT_PLAN_PORT_PORT : Fld := ⟨0, 16⟩
abbrev F.PRT_PARTNER_ID_IDENTITY : Fld := ⟨0, 64⟩
abbrev F.PRT_PARTNER_INFO_VERSION : Fld := ⟨56, 8⟩
abbrev F.PRT_PARTNER_INFO_ROLE : Fld := ⟨48, 8⟩
abbrev F.PRT_PARTNER_INFO_FC : Fld := ⟨40, 8⟩
abbrev F.PRT_PARTNER_INFO_FLAGS : Fld := ⟨32, 8⟩
abbrev F.PRT_PARTNER_INFO_ACQUIRE : Fld := ⟨16, 16⟩
abbrev F.PRT_PARTNER_INFO_PORT : Fld := ⟨0, 16⟩
abbrev F.PRT_HOLD_TIME_HOLD : Fld := ⟨0, 14⟩
abbrev F.PRT_CREDIT_SENT : Fld := ⟨32, 32⟩
abbrev F.PRT_CREDIT_LIMIT : Fld := ⟨0, 32⟩
abbrev F.PRT_PFC_THRESH_XOFF : Fld := ⟨24, 24⟩
abbrev F.PRT_PFC_THRESH_XON : Fld := ⟨0, 24⟩
abbrev F.PRT_GLOBAL_CTRL_DISC_TIMEOUT : Fld := ⟨32, 16⟩
abbrev F.PRT_GLOBAL_CTRL_PFC_WDOG : Fld := ⟨16, 16⟩
abbrev F.PRT_GLOBAL_CTRL_LINK_ETYPE : Fld := ⟨0, 16⟩
abbrev F.PRT_WLX_ID_IDENTIFIER : Fld := ⟨0, 24⟩
abbrev F.PRT_EVENT_HEAD_COUNT : Fld := ⟨0, 32⟩
abbrev F.PRT_EVENT_KIND : Fld := ⟨56, 8⟩
abbrev F.PRT_EVENT_PORT : Fld := ⟨32, 16⟩
abbrev F.PRT_EVENT_PARTNER_PORT : Fld := ⟨16, 16⟩
abbrev F.PRT_EVENT_ID_IDENTITY : Fld := ⟨0, 64⟩
abbrev F.FWD_GLOBAL_CTRL_HFH_PORT : Fld := ⟨48, 16⟩
abbrev F.FWD_GLOBAL_CTRL_EXC_PORT : Fld := ⟨37, 11⟩
abbrev F.FWD_GLOBAL_CTRL_EXC_ACTION : Fld := ⟨36, 1⟩
abbrev F.FWD_GLOBAL_CTRL_MISS_ACTION : Fld := ⟨35, 1⟩
abbrev F.FWD_GLOBAL_CTRL_HONOUR_HFH_EPOCH : Fld := ⟨34, 1⟩
abbrev F.FWD_GLOBAL_CTRL_MAC_AGE : Fld := ⟨16, 16⟩
abbrev F.FWD_ROUTER_MAC_MAC : Fld := ⟨0, 48⟩
abbrev F.FWD_FAR_PREFIX_PREFIX : Fld := ⟨0, 64⟩
abbrev F.FWD_FARPEG_CTRL_CLASS : Fld := ⟨16, 3⟩
abbrev F.FWD_FARPEG_CTRL_UDP_PORT : Fld := ⟨0, 16⟩
abbrev F.FWD_EPOCH_STATUS_STATE : Fld := ⟨62, 2⟩
abbrev F.FWD_EPOCH_STATUS_ACTIVE_BANK : Fld := ⟨61, 1⟩
abbrev F.FWD_EPOCH_STATUS_EPOCH : Fld := ⟨0, 32⟩
abbrev F.FWD_EPOCH_TIME_SECONDS : Fld := ⟨32, 32⟩
abbrev F.FWD_EPOCH_TIME_NANOSECONDS : Fld := ⟨0, 32⟩
abbrev F.FWD_SHADOW_CTRL_ENABLE : Fld := ⟨63, 1⟩
abbrev F.FWD_SHADOW_CTRL_RESTORE : Fld := ⟨62, 1⟩
abbrev F.FWD_SHADOW_CTRL_RATE : Fld := ⟨0, 32⟩
abbrev F.FWD_EVENT_HEAD_COUNT : Fld := ⟨0, 32⟩
abbrev F.FWD_MCAST_STATUS_MASK_EPOCH : Fld := ⟨0, 32⟩
abbrev F.FWD_TRIE_STATUS_CAPACITY : Fld := ⟨32, 32⟩
abbrev F.FWD_TRIE_STATUS_NEED : Fld := ⟨0, 32⟩
abbrev F.FWD_DSCP_MAP_CLASS15 : Fld := ⟨60, 3⟩
abbrev F.FWD_DSCP_MAP_CLASS14 : Fld := ⟨56, 3⟩
abbrev F.FWD_DSCP_MAP_CLASS13 : Fld := ⟨52, 3⟩
abbrev F.FWD_DSCP_MAP_CLASS12 : Fld := ⟨48, 3⟩
abbrev F.FWD_DSCP_MAP_CLASS11 : Fld := ⟨44, 3⟩
abbrev F.FWD_DSCP_MAP_CLASS10 : Fld := ⟨40, 3⟩
abbrev F.FWD_DSCP_MAP_CLASS9 : Fld := ⟨36, 3⟩
abbrev F.FWD_DSCP_MAP_CLASS8 : Fld := ⟨32, 3⟩
abbrev F.FWD_DSCP_MAP_CLASS7 : Fld := ⟨28, 3⟩
abbrev F.FWD_DSCP_MAP_CLASS6 : Fld := ⟨24, 3⟩
abbrev F.FWD_DSCP_MAP_CLASS5 : Fld := ⟨20, 3⟩
abbrev F.FWD_DSCP_MAP_CLASS4 : Fld := ⟨16, 3⟩
abbrev F.FWD_DSCP_MAP_CLASS3 : Fld := ⟨12, 3⟩
abbrev F.FWD_DSCP_MAP_CLASS2 : Fld := ⟨8, 3⟩
abbrev F.FWD_DSCP_MAP_CLASS1 : Fld := ⟨4, 3⟩
abbrev F.FWD_DSCP_MAP_CLASS0 : Fld := ⟨0, 3⟩
abbrev F.FWD_SHADOW_BASE_HOST : Fld := ⟨63, 1⟩
abbrev F.FWD_SHADOW_BASE_ADDR : Fld := ⟨0, 52⟩
abbrev F.FWD_MCAST_EXCLUDE_EXCLUDE : Fld := ⟨0, 64⟩
abbrev F.FWD_SEG_LOCK_LOCK : Fld := ⟨0, 64⟩
abbrev F.FWD_EVENT_KIND : Fld := ⟨56, 8⟩
abbrev F.FWD_EVENT_BANK : Fld := ⟨48, 1⟩
abbrev F.FWD_EVENT_TABLE : Fld := ⟨40, 8⟩
abbrev F.FWD_EVENT_ROW : Fld := ⟨0, 20⟩
abbrev F.FWD_EVENT_INFO_INFO : Fld := ⟨0, 64⟩
abbrev F.FWD_MAC_PORT_LEARNED : Fld := ⟨48, 16⟩
abbrev F.FWD_MAC_PORT_LIMIT : Fld := ⟨32, 16⟩
abbrev F.FWD_MAC_PORT_ACTION : Fld := ⟨31, 1⟩
abbrev F.FWD_MAC_PORT_BRIDGE : Fld := ⟨30, 1⟩
abbrev F.FWD_MAC_PORT_TAGGED : Fld := ⟨29, 1⟩
abbrev F.FWD_MAC_PORT_PVID : Fld := ⟨0, 12⟩
abbrev F.SWC_CTRL_ECN_TIGHTEN : Fld := ⟨34, 2⟩
abbrev F.SWC_CTRL_CT_ENABLE : Fld := ⟨33, 1⟩
abbrev F.SWC_CTRL_AGE_LIMIT : Fld := ⟨0, 17⟩
abbrev F.SWC_AUDIT_STATUS_LEAK : Fld := ⟨63, 1⟩
abbrev F.SWC_AUDIT_STATUS_PASSES : Fld := ⟨32, 31⟩
abbrev F.SWC_AUDIT_STATUS_LAST_RECLAIMED : Fld := ⟨0, 32⟩
abbrev F.SWC_SFLOW_CTRL_ENABLE : Fld := ⟨63, 1⟩
abbrev F.SWC_SFLOW_CTRL_HDR_UNITS : Fld := ⟨52, 4⟩
abbrev F.SWC_SFLOW_CTRL_CLASS_RATE : Fld := ⟨24, 24⟩
abbrev F.SWC_SFLOW_CTRL_UDP_PORT : Fld := ⟨0, 16⟩
abbrev F.SWC_SFLOW_AGENT_ADDR : Fld := ⟨0, 64⟩
abbrev F.SWC_SFLOW_COLLECTOR_ADDR : Fld := ⟨0, 64⟩
abbrev F.SWC_QUAD_STATUS_SHARED_FREE : Fld := ⟨20, 20⟩
abbrev F.SWC_QUAD_STATUS_FREE : Fld := ⟨0, 20⟩
abbrev F.SWC_BUF_PROFILE_LOSSLESS : Fld := ⟨63, 1⟩
abbrev F.SWC_BUF_PROFILE_ALPHA : Fld := ⟨32, 3⟩
abbrev F.SWC_BUF_PROFILE_HEADROOM : Fld := ⟨16, 16⟩
abbrev F.SWC_BUF_PROFILE_RESERVE : Fld := ⟨0, 16⟩
abbrev F.SWC_SCHED_PROFILE_STRICT : Fld := ⟨8, 1⟩
abbrev F.SWC_SCHED_PROFILE_WEIGHT : Fld := ⟨0, 8⟩
abbrev F.SWC_ECN_DEPTH_ENABLE : Fld := ⟨63, 1⟩
abbrev F.SWC_ECN_DEPTH_PMAX : Fld := ⟨48, 8⟩
abbrev F.SWC_ECN_DEPTH_KMAX : Fld := ⟨24, 24⟩
abbrev F.SWC_ECN_DEPTH_KMIN : Fld := ⟨0, 24⟩
abbrev F.SWC_ECN_TIME_SMAX : Fld := ⟨16, 16⟩
abbrev F.SWC_ECN_TIME_SMIN : Fld := ⟨0, 16⟩
abbrev F.SWC_PAIR_PROFILE_ECN : Fld := ⟨8, 4⟩
abbrev F.SWC_PAIR_PROFILE_SCHED : Fld := ⟨4, 4⟩
abbrev F.SWC_PAIR_PROFILE_BUF : Fld := ⟨0, 4⟩
abbrev F.SWC_MIRROR_CTRL_ENABLE : Fld := ⟨63, 1⟩
abbrev F.SWC_MIRROR_CTRL_CLASS : Fld := ⟨53, 3⟩
abbrev F.SWC_MIRROR_CTRL_TRUNC : Fld := ⟨40, 8⟩
abbrev F.SWC_MIRROR_CTRL_DEST : Fld := ⟨0, 11⟩
abbrev F.SWC_MIRROR_SRC_PORTS : Fld := ⟨0, 64⟩
abbrev F.SWC_PORT_CTRL_SAMPLE_RATE : Fld := ⟨0, 24⟩
abbrev F.BSN_CTRL_ENABLE : Fld := ⟨63, 1⟩
abbrev F.BSN_CTRL_EARLY_CELLS : Fld := ⟨32, 16⟩
abbrev F.BSN_STATUS_ACTIVE : Fld := ⟨32, 11⟩
abbrev F.BSN_STATUS_RETAINED : Fld := ⟨0, 32⟩
abbrev F.BSN_RETAIN_BASE_ADDR : Fld := ⟨0, 43⟩
abbrev F.BSN_RETAIN_SIZE_SIZE : Fld := ⟨0, 16⟩
abbrev F.BSN_MEMBER_BASE_ADDR : Fld := ⟨0, 43⟩
abbrev F.BSN_TEMPLATE_BASE_ADDR : Fld := ⟨0, 43⟩
abbrev F.BSN_ABORT_GO : Fld := ⟨63, 1⟩
abbrev F.BSN_ABORT_SLOT : Fld := ⟨0, 10⟩
abbrev F.BSN_LOG_HEAD_COUNT : Fld := ⟨0, 32⟩
abbrev F.BSN_GROUP_A_VALID : Fld := ⟨63, 1⟩
abbrev F.BSN_GROUP_A_DOMAIN : Fld := ⟨48, 12⟩
abbrev F.BSN_GROUP_A_MCAST : Fld := ⟨32, 16⟩
abbrev F.BSN_GROUP_A_MEMBER_COUNT : Fld := ⟨16, 13⟩
abbrev F.BSN_GROUP_A_MEMBER_BASE : Fld := ⟨0, 16⟩
abbrev F.BSN_GROUP_B_GEN : Fld := ⟨48, 16⟩
abbrev F.BSN_GROUP_B_IN_FORMAT : Fld := ⟨32, 8⟩
abbrev F.BSN_GROUP_B_OUT_FORMAT : Fld := ⟨24, 8⟩
abbrev F.BSN_GROUP_B_CLASS : Fld := ⟨16, 3⟩
abbrev F.BSN_SLOT_STATE_WORD : Fld := ⟨0, 64⟩
abbrev F.BSN_LOG_KIND : Fld := ⟨56, 8⟩
abbrev F.BSN_LOG_GROUP : Fld := ⟨44, 12⟩
abbrev F.BSN_LOG_OP_SEQ : Fld := ⟨28, 16⟩
abbrev F.BSN_LOG_CODE : Fld := ⟨12, 16⟩
abbrev F.BSN_LOG_INFO_ORIGIN : Fld := ⟨48, 16⟩
abbrev F.BSN_LOG_INFO_SLOT : Fld := ⟨38, 10⟩
abbrev F.BSN_LOG_INFO_SECONDS : Fld := ⟨0, 32⟩
abbrev F.TEN_ASSIGN_GO : Fld := ⟨63, 1⟩
abbrev F.TEN_ASSIGN_DOMAIN : Fld := ⟨48, 12⟩
abbrev F.TEN_ASSIGN_FIRST_ROW : Fld := ⟨40, 5⟩
abbrev F.TEN_ASSIGN_LAST_ROW : Fld := ⟨32, 5⟩
abbrev F.TEN_ASSIGN_FIRST_COL : Fld := ⟨24, 5⟩
abbrev F.TEN_ASSIGN_LAST_COL : Fld := ⟨16, 5⟩
abbrev F.TEN_ASSIGN_STATUS_REASON : Fld := ⟨0, 8⟩
abbrev F.TEN_STATUS_DMA_STREAMS : Fld := ⟨40, 8⟩
abbrev F.TEN_STATUS_TRUSSES : Fld := ⟨16, 9⟩
abbrev F.TEN_STATUS_CONTEXTS : Fld := ⟨0, 12⟩
abbrev F.TEN_PACE_PACE_MIN3 : Fld := ⟨56, 7⟩
abbrev F.TEN_PACE_PACE_MIN2 : Fld := ⟨48, 7⟩
abbrev F.TEN_PACE_PACE_MIN1 : Fld := ⟨40, 7⟩
abbrev F.TEN_PACE_PACE_MIN0 : Fld := ⟨32, 7⟩
abbrev F.TEN_PACE_PACE3 : Fld := ⟨24, 7⟩
abbrev F.TEN_PACE_PACE2 : Fld := ⟨16, 7⟩
abbrev F.TEN_PACE_PACE1 : Fld := ⟨8, 7⟩
abbrev F.TEN_PACE_PACE0 : Fld := ⟨0, 7⟩
abbrev F.TEN_TRUSS_STATE : Fld := ⟨62, 2⟩
abbrev F.TEN_TRUSS_DOMAIN : Fld := ⟨50, 12⟩
abbrev F.TEN_TRUSS_STAGES : Fld := ⟨43, 7⟩
abbrev F.TEN_TRUSS_MODE : Fld := ⟨42, 1⟩
abbrev F.TEN_TRUSS_CHANNEL : Fld := ⟨38, 4⟩
abbrev F.TEN_TRUSS_ENGINE : Fld := ⟨37, 1⟩
abbrev F.TEN_TRUSS_HEAD : Fld := ⟨35, 2⟩
abbrev F.TEN_TRUSS_TAIL : Fld := ⟨33, 2⟩
abbrev F.TEN_TRUSS_HANDOFFS : Fld := ⟨0, 32⟩
abbrev F.TEN_TENON_OWNER : Fld := ⟨52, 12⟩
abbrev F.TEN_TENON_BOUND : Fld := ⟨40, 4⟩
abbrev F.TEN_TENON_CTX : Fld := ⟨16, 8⟩
abbrev F.TEN_TENON_IN_TRUSS : Fld := ⟨15, 1⟩
abbrev F.TEN_TENON_PACE : Fld := ⟨8, 7⟩
abbrev F.TEN_TENON_TRUSS : Fld := ⟨0, 8⟩
abbrev F.SPL_CTRL_ENABLE : Fld := ⟨63, 1⟩
abbrev F.SPL_CTRL_RECOVER_MS : Fld := ⟨32, 16⟩
abbrev F.SPL_CTRL_GATE_NS : Fld := ⟨0, 8⟩
abbrev F.SPL_STATUS_FLIP_STATE : Fld := ⟨62, 2⟩
abbrev F.SPL_STATUS_GATE_OPEN : Fld := ⟨61, 1⟩
abbrev F.SPL_STATUS_ACTIVE_BANK : Fld := ⟨60, 1⟩
abbrev F.SPL_STATUS_CIRCUITS : Fld := ⟨32, 13⟩
abbrev F.SPL_STATUS_PENDING : Fld := ⟨16, 13⟩
abbrev F.SPL_STATUS_ERROR_NS : Fld := ⟨0, 16⟩
abbrev F.SPL_REQ_A_GO : Fld := ⟨63, 1⟩
abbrev F.SPL_REQ_A_OP : Fld := ⟨60, 3⟩
abbrev F.SPL_REQ_A_DOMAIN : Fld := ⟨48, 12⟩
abbrev F.SPL_REQ_A_WAVELENGTH : Fld := ⟨44, 4⟩
abbrev F.SPL_REQ_A_PERSISTENT : Fld := ⟨43, 1⟩
abbrev F.SPL_REQ_A_IN : Fld := ⟨36, 6⟩
abbrev F.SPL_REQ_A_OUT : Fld := ⟨30, 6⟩
abbrev F.SPL_REQ_A_CIRCUIT : Fld := ⟨16, 12⟩
abbrev F.SPL_REQ_A_TAG : Fld := ⟨0, 16⟩
abbrev F.SPL_REQ_B_SLOT_MASK : Fld := ⟨0, 64⟩
abbrev F.SPL_REQ_IN_ID_IDENTITY : Fld := ⟨0, 64⟩
abbrev F.SPL_REQ_OUT_ID_IDENTITY : Fld := ⟨0, 64⟩
abbrev F.SPL_RESP_REASON : Fld := ⟨56, 8⟩
abbrev F.SPL_RESP_WAVELENGTH : Fld := ⟨44, 4⟩
abbrev F.SPL_RESP_CIRCUIT : Fld := ⟨16, 13⟩
abbrev F.SPL_RESP_TAG : Fld := ⟨0, 16⟩
abbrev F.SPL_FLIP_GO : Fld := ⟨63, 1⟩
abbrev F.SPL_FLIP_REASON : Fld := ⟨0, 8⟩
abbrev F.SPL_FLIP_TIME_SECONDS : Fld := ⟨32, 32⟩
abbrev F.SPL_FLIP_TIME_NANOSECONDS : Fld := ⟨0, 32⟩
abbrev F.SPL_CYCLE_START_START : Fld := ⟨0, 64⟩
abbrev F.SPL_SHAPE_PEND_CYCLE_NS : Fld := ⟨32, 32⟩
abbrev F.SPL_SHAPE_PEND_SLOTS : Fld := ⟨24, 7⟩
abbrev F.SPL_SHAPE_PEND_MARGIN_NS : Fld := ⟨16, 8⟩
abbrev F.SPL_SHAPE_PEND_GUARD_NS : Fld := ⟨0, 8⟩
abbrev F.SPL_SLOT_K_PEND_K15 : Fld := ⟨60, 4⟩
abbrev F.SPL_SLOT_K_PEND_K14 : Fld := ⟨56, 4⟩
abbrev F.SPL_SLOT_K_PEND_K13 : Fld := ⟨52, 4⟩
abbrev F.SPL_SLOT_K_PEND_K12 : Fld := ⟨48, 4⟩
abbrev F.SPL_SLOT_K_PEND_K11 : Fld := ⟨44, 4⟩
abbrev F.SPL_SLOT_K_PEND_K10 : Fld := ⟨40, 4⟩
abbrev F.SPL_SLOT_K_PEND_K9 : Fld := ⟨36, 4⟩
abbrev F.SPL_SLOT_K_PEND_K8 : Fld := ⟨32, 4⟩
abbrev F.SPL_SLOT_K_PEND_K7 : Fld := ⟨28, 4⟩
abbrev F.SPL_SLOT_K_PEND_K6 : Fld := ⟨24, 4⟩
abbrev F.SPL_SLOT_K_PEND_K5 : Fld := ⟨20, 4⟩
abbrev F.SPL_SLOT_K_PEND_K4 : Fld := ⟨16, 4⟩
abbrev F.SPL_SLOT_K_PEND_K3 : Fld := ⟨12, 4⟩
abbrev F.SPL_SLOT_K_PEND_K2 : Fld := ⟨8, 4⟩
abbrev F.SPL_SLOT_K_PEND_K1 : Fld := ⟨4, 4⟩
abbrev F.SPL_SLOT_K_PEND_K0 : Fld := ⟨0, 4⟩
abbrev F.SPL_SHAPE_ACT_CYCLE_NS : Fld := ⟨32, 32⟩
abbrev F.SPL_SHAPE_ACT_SLOTS : Fld := ⟨24, 7⟩
abbrev F.SPL_SHAPE_ACT_MARGIN_NS : Fld := ⟨16, 8⟩
abbrev F.SPL_SHAPE_ACT_GUARD_NS : Fld := ⟨0, 8⟩
abbrev F.SPL_SLOT_K_ACT_K15 : Fld := ⟨60, 4⟩
abbrev F.SPL_SLOT_K_ACT_K14 : Fld := ⟨56, 4⟩
abbrev F.SPL_SLOT_K_ACT_K13 : Fld := ⟨52, 4⟩
abbrev F.SPL_SLOT_K_ACT_K12 : Fld := ⟨48, 4⟩
abbrev F.SPL_SLOT_K_ACT_K11 : Fld := ⟨44, 4⟩
abbrev F.SPL_SLOT_K_ACT_K10 : Fld := ⟨40, 4⟩
abbrev F.SPL_SLOT_K_ACT_K9 : Fld := ⟨36, 4⟩
abbrev F.SPL_SLOT_K_ACT_K8 : Fld := ⟨32, 4⟩
abbrev F.SPL_SLOT_K_ACT_K7 : Fld := ⟨28, 4⟩
abbrev F.SPL_SLOT_K_ACT_K6 : Fld := ⟨24, 4⟩
abbrev F.SPL_SLOT_K_ACT_K5 : Fld := ⟨20, 4⟩
abbrev F.SPL_SLOT_K_ACT_K4 : Fld := ⟨16, 4⟩
abbrev F.SPL_SLOT_K_ACT_K3 : Fld := ⟨12, 4⟩
abbrev F.SPL_SLOT_K_ACT_K2 : Fld := ⟨8, 4⟩
abbrev F.SPL_SLOT_K_ACT_K1 : Fld := ⟨4, 4⟩
abbrev F.SPL_SLOT_K_ACT_K0 : Fld := ⟨0, 4⟩
abbrev F.SPL_EVENT_HEAD_COUNT : Fld := ⟨0, 32⟩
abbrev F.SPL_EVENT_KIND : Fld := ⟨56, 8⟩
abbrev F.SPL_EVENT_CAUSE : Fld := ⟨48, 8⟩
abbrev F.SPL_EVENT_ENGINE : Fld := ⟨40, 8⟩
abbrev F.SPL_EVENT_RING : Fld := ⟨32, 8⟩
abbrev F.SPL_EVENT_CIRCUIT : Fld := ⟨0, 12⟩
abbrev F.SPL_EVENT_INFO_TIME : Fld := ⟨0, 64⟩
abbrev F.SPL_CIRC_ACT_STATE : Fld := ⟨61, 3⟩
abbrev F.SPL_CIRC_ACT_DOMAIN : Fld := ⟨49, 12⟩
abbrev F.SPL_CIRC_ACT_PERSISTENT : Fld := ⟨48, 1⟩
abbrev F.SPL_CIRC_ACT_WAVELENGTH : Fld := ⟨45, 3⟩
abbrev F.SPL_CIRC_ACT_IN : Fld := ⟨39, 6⟩
abbrev F.SPL_CIRC_ACT_OUT : Fld := ⟨33, 6⟩
abbrev F.SPL_CIRC_ACT_IN_POWER : Fld := ⟨16, 16⟩
abbrev F.SPL_CIRC_ACT_MASK_SLOT_MASK : Fld := ⟨0, 64⟩
abbrev F.SPL_CIRC_PEND_STATE : Fld := ⟨61, 3⟩
abbrev F.SPL_CIRC_PEND_DOMAIN : Fld := ⟨49, 12⟩
abbrev F.SPL_CIRC_PEND_PERSISTENT : Fld := ⟨48, 1⟩
abbrev F.SPL_CIRC_PEND_WAVELENGTH : Fld := ⟨45, 3⟩
abbrev F.SPL_CIRC_PEND_IN : Fld := ⟨39, 6⟩
abbrev F.SPL_CIRC_PEND_OUT : Fld := ⟨33, 6⟩
abbrev F.SPL_CIRC_PEND_IN_POWER : Fld := ⟨16, 16⟩
abbrev F.SPL_CIRC_PEND_MASK_SLOT_MASK : Fld := ⟨0, 64⟩
abbrev F.OPT_CTRL_HOLD : Fld := ⟨8, 8⟩
abbrev F.OPT_CTRL_RELOCK : Fld := ⟨0, 1⟩
abbrev F.OPT_STATUS_STATE : Fld := ⟨62, 2⟩
abbrev F.OPT_STATUS_PAIRED : Fld := ⟨61, 1⟩
abbrev F.OPT_STATUS_LOCKED : Fld := ⟨32, 8⟩
abbrev F.OPT_STATUS_HEATER_MW : Fld := ⟨0, 16⟩
abbrev F.OPT_MEASURE_GO : Fld := ⟨63, 1⟩
abbrev F.OPT_MEASURE_INTEG : Fld := ⟨60, 2⟩
abbrev F.OPT_MEASURE_POSITION : Fld := ⟨3, 3⟩
abbrev F.OPT_MEASURE_LANE : Fld := ⟨0, 3⟩
abbrev F.OPT_MEASURE_RESULT_VALID : Fld := ⟨63, 1⟩
abbrev F.OPT_MEASURE_RESULT_CODE : Fld := ⟨0, 16⟩
abbrev F.OPT_LANE_CLEAR_CLEAR : Fld := ⟨0, 64⟩
abbrev F.OPT_RING_STATE : Fld := ⟨61, 3⟩
abbrev F.OPT_RING_ORDER : Fld := ⟨58, 3⟩
abbrev F.OPT_RING_FAILS : Fld := ⟨56, 2⟩
abbrev F.OPT_RING_SIDE : Fld := ⟨55, 1⟩
abbrev F.OPT_RING_HEATER : Fld := ⟨32, 16⟩
abbrev F.OPT_RING_DETUNE : Fld := ⟨16, 16⟩
abbrev F.OPT_RING_LOCKS : Fld := ⟨0, 16⟩
abbrev F.OPT_TAP_EGRESS : Fld := ⟨8, 8⟩
abbrev F.OPT_TAP_INGRESS : Fld := ⟨0, 8⟩
abbrev F.MEM_CTRL_AREAS_ENABLE : Fld := ⟨63, 1⟩
abbrev F.MEM_CTRL_HBM_SCRUB_H : Fld := ⟨24, 8⟩
abbrev F.MEM_CTRL_DDR_SCRUB_H : Fld := ⟨16, 8⟩
abbrev F.MEM_CTRL_SUSPECT : Fld := ⟨0, 8⟩
abbrev F.MEM_STATUS_HBM_OK : Fld := ⟨56, 8⟩
abbrev F.MEM_STATUS_DDR_CHANNELS : Fld := ⟨52, 4⟩
abbrev F.MEM_STATUS_DDR_DIMMS : Fld := ⟨50, 2⟩
abbrev F.MEM_STATUS_DDR_GIB : Fld := ⟨36, 13⟩
abbrev F.MEM_STATUS_DDR_REASON : Fld := ⟨16, 8⟩
abbrev F.MEM_STATUS_AREA_REASON : Fld := ⟨0, 8⟩
abbrev F.MEM_HISTORY_BASE_VALUE : Fld := ⟨0, 43⟩
abbrev F.MEM_HISTORY_SIZE_VALUE : Fld := ⟨0, 43⟩
abbrev F.MEM_ARCHIVE_BASE_VALUE : Fld := ⟨0, 43⟩
abbrev F.MEM_ARCHIVE_SIZE_VALUE : Fld := ⟨0, 43⟩
abbrev F.MEM_EVENT_HEAD_COUNT : Fld := ⟨0, 32⟩
abbrev F.MEM_HBM_STATUS_STATE : Fld := ⟨62, 2⟩
abbrev F.MEM_HBM_STATUS_SIZE_GIB : Fld := ⟨48, 12⟩
abbrev F.MEM_HBM_STATUS_PASSES : Fld := ⟨0, 32⟩
abbrev F.MEM_DDR_STATUS_STATE : Fld := ⟨62, 2⟩
abbrev F.MEM_DDR_STATUS_RANKS : Fld := ⟨60, 2⟩
abbrev F.MEM_DDR_STATUS_SIZE_GIB : Fld := ⟨48, 12⟩
abbrev F.MEM_DDR_STATUS_PASSES : Fld := ⟨0, 32⟩
abbrev F.MEM_EVENT_KIND : Fld := ⟨56, 8⟩
abbrev F.MEM_EVENT_TIER : Fld := ⟨55, 1⟩
abbrev F.MEM_EVENT_UNIT : Fld := ⟨52, 3⟩
abbrev F.MEM_EVENT_SUB : Fld := ⟨51, 1⟩
abbrev F.MEM_EVENT_RANK : Fld := ⟨49, 2⟩
abbrev F.MEM_EVENT_PC : Fld := ⟨43, 6⟩
abbrev F.MEM_EVENT_SECONDS : Fld := ⟨0, 32⟩
abbrev F.MEM_EVENT_ADDR_ADDR : Fld := ⟨0, 64⟩
abbrev F.PLN_CFG_ROLE : Fld := ⟨48, 2⟩
abbrev F.PLN_CFG_PLANE : Fld := ⟨32, 12⟩
abbrev F.PLN_CFG_FLIP_LEAD_MS : Fld := ⟨0, 16⟩
abbrev F.PLN_MANAGER_ID_IDENTITY : Fld := ⟨0, 64⟩
abbrev F.PLN_STANDBY_ID_IDENTITY : Fld := ⟨0, 64⟩
abbrev F.PLN_PREFIX_A_PREFIX : Fld := ⟨0, 64⟩
abbrev F.PLN_PREFIX_B_PREFIX : Fld := ⟨0, 64⟩
abbrev F.PLN_BUDGET_COUNT : Fld := ⟨32, 8⟩
abbrev F.PLN_BUDGET_WINDOW_S : Fld := ⟨0, 32⟩
abbrev F.PLN_STATUS_ROLE : Fld := ⟨62, 2⟩
abbrev F.PLN_STATUS_ACTING : Fld := ⟨61, 1⟩
abbrev F.PLN_STATUS_MANAGER_PRESENT : Fld := ⟨60, 1⟩
abbrev F.PLN_STATUS_PREPARED : Fld := ⟨59, 1⟩
abbrev F.PLN_STATUS_TERM : Fld := ⟨0, 32⟩
abbrev F.PLN_WH_LOAD_LEVEL : Fld := ⟨8, 2⟩
abbrev F.PLN_WH_LOAD_LOAD : Fld := ⟨0, 8⟩
abbrev F.PLN_PROMOTE_GO : Fld := ⟨63, 1⟩
abbrev F.PLN_PROMOTE_FORCE : Fld := ⟨62, 1⟩
abbrev F.PLN_PROMOTE_REASON : Fld := ⟨0, 8⟩
abbrev F.PLN_FLIP_GO : Fld := ⟨63, 1⟩
abbrev F.PLN_FLIP_KIND : Fld := ⟨60, 2⟩
abbrev F.PLN_FLIP_FROM_EPOCH : Fld := ⟨0, 32⟩
abbrev F.PLN_FLIP_STATUS_STATE : Fld := ⟨61, 3⟩
abbrev F.PLN_FLIP_STATUS_REASON : Fld := ⟨48, 8⟩
abbrev F.PLN_FLIP_STATUS_WORKER : Fld := ⟨32, 10⟩
abbrev F.PLN_FLIP_STATUS_FLIP_ID : Fld := ⟨0, 16⟩
abbrev F.PLN_FLIP_TIME_SECONDS : Fld := ⟨32, 32⟩
abbrev F.PLN_FLIP_TIME_NANOSECONDS : Fld := ⟨0, 32⟩
abbrev F.PLN_FENCE_REQ_GO : Fld := ⟨63, 1⟩
abbrev F.PLN_FENCE_REQ_AUTOMATED : Fld := ⟨62, 1⟩
abbrev F.PLN_FENCE_REQ_KIND : Fld := ⟨60, 2⟩
abbrev F.PLN_FENCE_REQ_UNFENCE : Fld := ⟨59, 1⟩
abbrev F.PLN_FENCE_REQ_PORT : Fld := ⟨48, 11⟩
abbrev F.PLN_FENCE_REQ_TAG : Fld := ⟨0, 16⟩
abbrev F.PLN_FENCE_TARGET_IDENTITY : Fld := ⟨0, 64⟩
abbrev F.PLN_FENCE_RESP_RESULT : Fld := ⟨62, 2⟩
abbrev F.PLN_FENCE_RESP_REASON : Fld := ⟨48, 8⟩
abbrev F.PLN_FENCE_RESP_IN_WINDOW : Fld := ⟨40, 8⟩
abbrev F.PLN_FENCE_RESP_TICKET : Fld := ⟨32, 6⟩
abbrev F.PLN_FENCE_RESP_TAG : Fld := ⟨0, 16⟩
abbrev F.PLN_FENCE_CONFIRM_GO : Fld := ⟨63, 1⟩
abbrev F.PLN_FENCE_CONFIRM_CANCEL : Fld := ⟨62, 1⟩
abbrev F.PLN_FENCE_CONFIRM_TICKET : Fld := ⟨0, 6⟩
abbrev F.PLN_HELD_VALID : Fld := ⟨63, 1⟩
abbrev F.PLN_HELD_KIND : Fld := ⟨61, 2⟩
abbrev F.PLN_HELD_PORT : Fld := ⟨50, 11⟩
abbrev F.PLN_HELD_TAG : Fld := ⟨32, 16⟩
abbrev F.PLN_HELD_SECONDS : Fld := ⟨0, 32⟩
abbrev F.PLN_HELD_ID_IDENTITY : Fld := ⟨0, 64⟩
abbrev F.PLN_EVENT_HEAD_COUNT : Fld := ⟨0, 32⟩
abbrev F.PLN_EVENT_KIND : Fld := ⟨56, 8⟩
abbrev F.PLN_EVENT_WORKER : Fld := ⟨46, 10⟩
abbrev F.PLN_EVENT_PORT : Fld := ⟨35, 11⟩
abbrev F.PLN_EVENT_GROUP : Fld := ⟨23, 12⟩
abbrev F.PLN_EVENT_OP_SEQ : Fld := ⟨7, 16⟩
abbrev F.PLN_EVENT_INFO_TIME : Fld := ⟨0, 64⟩
abbrev F.PLN_EVENT_ID_IDENTITY : Fld := ⟨0, 64⟩
abbrev F.PLN_WORKER_ID_IDENTITY : Fld := ⟨0, 64⟩
abbrev F.PLN_WORKER_STATE_STATE : Fld := ⟨62, 2⟩
abbrev F.PLN_WORKER_STATE_PATHS : Fld := ⟨60, 2⟩
abbrev F.PLN_WORKER_STATE_SHED : Fld := ⟨58, 2⟩
abbrev F.PLN_WORKER_STATE_HEALTH : Fld := ⟨48, 10⟩
abbrev F.PLN_WORKER_STATE_EPOCH : Fld := ⟨32, 16⟩
abbrev F.PLN_WORKER_STATE_ERROR_NS : Fld := ⟨16, 16⟩
abbrev F.PLN_WORKER_STATE_LOAD : Fld := ⟨8, 8⟩
abbrev F.SIL_CTRL_WINDOW : Fld := ⟨8, 2⟩
abbrev F.SIL_CTRL_HYST : Fld := ⟨0, 8⟩
abbrev F.SIL_MON_ALARM_ALARM : Fld := ⟨0, 50⟩
abbrev F.SIL_MON_BELOW_BELOW : Fld := ⟨0, 50⟩
abbrev F.SIL_OVR_COUNT_COUNT : Fld := ⟨0, 48⟩
abbrev F.SIL_INJECT_GROUP : Fld := ⟨48, 9⟩
abbrev F.SIL_INJECT_BIT : Fld := ⟨40, 6⟩
abbrev F.SIL_INJECT_PULSES : Fld := ⟨32, 8⟩
abbrev F.SIL_INJECT_GO : Fld := ⟨0, 1⟩
abbrev F.SIL_OVR_SUMMARY_ANY : Fld := ⟨0, 64⟩
abbrev F.SIL_MON_STATUS_MARGIN : Fld := ⟨48, 16⟩
abbrev F.SIL_MON_STATUS_MARGIN_MIN : Fld := ⟨32, 16⟩
abbrev F.SIL_MON_STATUS_CADENCE_MIN : Fld := ⟨16, 16⟩
abbrev F.SIL_MON_STATUS_CADENCE : Fld := ⟨0, 16⟩
abbrev F.SIL_MON_REQ_REQUIRED : Fld := ⟨0, 16⟩
abbrev F.SIL_MON_THRESH_THRESHOLD : Fld := ⟨0, 16⟩
abbrev F.SIL_OVR_FLAG : Fld := ⟨0, 64⟩

/-! ## Rows -/

/-- Rows of block GLB. -/
def regsGlb0 : List RegSpec := [
  ⟨0x0, [],
    [⟨F.GLB_ID_IDENTITY, .ro, .i, 0⟩]⟩,
  ⟨0x8, [],
    [⟨F.GLB_PART_PART, .ro, .i, 16534⟩,
     ⟨F.GLB_PART_STEPPING, .ro, .i, 176⟩]⟩,
  ⟨0x10, [],
    [⟨F.GLB_VERSIONS_DESC_NATIVE, .ro, .i, 3⟩,
     ⟨F.GLB_VERSIONS_DESC_OLDEST, .ro, .i, 2⟩,
     ⟨F.GLB_VERSIONS_WLX_NATIVE, .ro, .i, 3⟩,
     ⟨F.GLB_VERSIONS_WLX_OLDEST, .ro, .i, 1⟩,
     ⟨F.GLB_VERSIONS_HFH_NATIVE, .ro, .i, 2⟩,
     ⟨F.GLB_VERSIONS_HFH_OLDEST, .ro, .i, 1⟩,
     ⟨F.GLB_VERSIONS_TELEMETRY, .ro, .i, 4⟩,
     ⟨F.GLB_VERSIONS_LEDGER, .ro, .i, 2⟩,
     ⟨F.GLB_VERSIONS_DXN_NATIVE, .ro, .i, 33⟩,
     ⟨F.GLB_VERSIONS_DXN_OLDEST, .ro, .i, 16⟩]⟩,
  ⟨0x18, [],
    [⟨F.GLB_BOOT_PHASE, .ro, .i, 1⟩,
     ⟨F.GLB_BOOT_CAUSE, .ro, .i, 1⟩,
     ⟨F.GLB_BOOT_STRAPS, .ro, .i, 0⟩,
     ⟨F.GLB_BOOT_WELLHEAD_RESTARTS, .ro, .i, 0⟩,
     ⟨F.GLB_BOOT_MODULE_RESETS, .ro, .i, 0⟩]⟩,
  ⟨0x20, [],
    [⟨F.GLB_CTRL_FWD_ENABLE, .rw, .l, 0⟩]⟩,
  ⟨0x28, [],
    [⟨F.GLB_STATUS_FWD_ACTIVE, .ro, .i, 0⟩,
     ⟨F.GLB_STATUS_HOST_READY, .ro, .i, 0⟩,
     ⟨F.GLB_STATUS_HBM_READY, .ro, .i, 0⟩,
     ⟨F.GLB_STATUS_DDR_READY, .ro, .i, 0⟩,
     ⟨F.GLB_STATUS_OPTICS_READY, .ro, .i, 0⟩,
     ⟨F.GLB_STATUS_RECOVERY, .ro, .i, 0⟩,
     ⟨F.GLB_STATUS_ENGINES_LOCKED, .ro, .i, 0⟩]⟩,
  ⟨0x30, [],
    [⟨F.GLB_HOST_IF_TELEMETRY, .rw, .s, 4⟩,
     ⟨F.GLB_HOST_IF_LEDGER, .rw, .s, 2⟩,
     ⟨F.GLB_HOST_IF_DESCRIPTOR, .rw, .s, 3⟩]⟩,
  ⟨0x38, [],
    [⟨F.GLB_PLUMB_STATUS_LAST_REASON, .ro, .i, 0⟩,
     ⟨F.GLB_PLUMB_STATUS_REFUSALS, .ro, .i, 0⟩,
     ⟨F.GLB_PLUMB_STATUS_QUIESCE_IGNORED, .ro, .i, 0⟩]⟩]

/-- Rows of block GLB. -/
def regsGlb1 : List RegSpec := [
  ⟨0x40, [],
    [⟨F.GLB_RESET_KEY, .wo, .l, 0⟩,
     ⟨F.GLB_RESET_WELLHEAD, .wo, .l, 0⟩,
     ⟨F.GLB_RESET_MODULE, .wo, .l, 0⟩]⟩]

/-- Rows of block HIF. -/
def regsHif0 : List RegSpec := [
  ⟨0x10000, [],
    [⟨F.HIF_LINK_STATUS_UP, .ro, .i, 0⟩,
     ⟨F.HIF_LINK_STATUS_RATE, .ro, .i, 0⟩,
     ⟨F.HIF_LINK_STATUS_WIDTH, .ro, .i, 0⟩,
     ⟨F.HIF_LINK_STATUS_LOPT, .ro, .i, 0⟩,
     ⟨F.HIF_LINK_STATUS_IDE_ACTIVE, .ro, .i, 0⟩,
     ⟨F.HIF_LINK_STATUS_RETRAINS, .ro, .i, 0⟩]⟩,
  ⟨0x10008, [],
    [⟨F.HIF_LINK_CTRL_IDE_REQUIRED, .rw, .l, 0⟩,
     ⟨F.HIF_LINK_CTRL_LOPT_ALLOW, .rw, .l, 1⟩,
     ⟨F.HIF_LINK_CTRL_MAX_RATE, .rw, .l, 0⟩,
     ⟨F.HIF_LINK_CTRL_MAX_WIDTH, .rw, .l, 0⟩,
     ⟨F.HIF_LINK_CTRL_RETRAIN, .w1s, .l, 0⟩]⟩,
  ⟨0x10010, [],
    [⟨F.HIF_ERR_STATUS_ERR, .w1c, .l, 0⟩]⟩,
  ⟨0x10018, [],
    [⟨F.HIF_ERR_ADDR_SPACE, .ro, .i, 0⟩,
     ⟨F.HIF_ERR_ADDR_KIND, .ro, .i, 0⟩,
     ⟨F.HIF_ERR_ADDR_SIZE, .ro, .i, 0⟩,
     ⟨F.HIF_ERR_ADDR_OFFSET, .ro, .i, 0⟩]⟩,
  ⟨0x10020, [],
    [⟨F.HIF_WORK_STATUS_LOST, .ro, .i, 0⟩,
     ⟨F.HIF_WORK_STATUS_OUTSTANDING, .ro, .i, 0⟩]⟩,
  ⟨0x10028, [],
    [⟨F.HIF_WATCH_POLL_PERIOD, .rw, .l, 1000⟩]⟩,
  ⟨0x10100, [(0x8, 16)],
    [⟨F.HIF_RING_ENABLE_ENABLE, .rw, .l, 0⟩]⟩,
  ⟨0x12000, [(0x20, 256)],
    [⟨F.HIF_CQ_BASE_ADDR, .rw, .q, 0⟩]⟩]

/-- Rows of block HIF. -/
def regsHif1 : List RegSpec := [
  ⟨0x12008, [(0x20, 256)],
    [⟨F.HIF_CQ_CFG_ENABLE, .rw, .l, 0⟩,
     ⟨F.HIF_CQ_CFG_SIZE_LOG2, .rw, .q, 0⟩]⟩,
  ⟨0x12010, [(0x20, 256)],
    [⟨F.HIF_CQ_HEADPTR_ADDR, .rw, .q, 0⟩]⟩,
  ⟨0x12018, [(0x20, 256)],
    [⟨F.HIF_CQ_STATE_PHASE, .ro, .i, 1⟩,
     ⟨F.HIF_CQ_STATE_STALLED, .ro, .i, 0⟩,
     ⟨F.HIF_CQ_STATE_TAIL, .ro, .i, 0⟩]⟩,
  ⟨0x18000, [(0x20, 1024)],
    [⟨F.HIF_RING_BASE_ADDR, .rw, .q, 0⟩]⟩,
  ⟨0x18008, [(0x20, 1024)],
    [⟨F.HIF_RING_CFG_DOMAIN_CHECK, .rw, .q, 0⟩,
     ⟨F.HIF_RING_CFG_DOMAIN, .rw, .q, 0⟩,
     ⟨F.HIF_RING_CFG_DEFAULT_CQ, .rw, .q, 0⟩,
     ⟨F.HIF_RING_CFG_PRIORITY, .rw, .q, 0⟩,
     ⟨F.HIF_RING_CFG_SIZE_LOG2, .rw, .q, 0⟩]⟩,
  ⟨0x18010, [(0x20, 1024)],
    [⟨F.HIF_RING_LINE_ADDR, .rw, .q, 0⟩]⟩,
  ⟨0x18018, [(0x20, 1024)],
    [⟨F.HIF_RING_STATE_STATE, .ro, .i, 0⟩,
     ⟨F.HIF_RING_STATE_ERROR, .ro, .i, 0⟩,
     ⟨F.HIF_RING_STATE_OUTSTANDING, .ro, .i, 0⟩,
     ⟨F.HIF_RING_STATE_HEAD, .rw, .q, 0⟩]⟩]

/-- Rows of block CMD. -/
def regsCmd0 : List RegSpec := [
  ⟨0x20000, [],
    [⟨F.CMD_CTRL_CACHE_FLUSH, .w1s, .l, 0⟩,
     ⟨F.CMD_CTRL_SIGNED_ONLY, .rw, .l, 0⟩,
     ⟨F.CMD_CTRL_RUN_LIMIT, .rw, .l, 0⟩]⟩,
  ⟨0x20008, [],
    [⟨F.CMD_STATUS_NATIVE_MAJOR, .ro, .i, 2⟩,
     ⟨F.CMD_STATUS_NATIVE_MINOR, .ro, .i, 1⟩,
     ⟨F.CMD_STATUS_OLDEST_MAJOR, .ro, .i, 1⟩,
     ⟨F.CMD_STATUS_OLDEST_MINOR, .ro, .i, 0⟩,
     ⟨F.CMD_STATUS_IMAGES, .ro, .i, 0⟩,
     ⟨F.CMD_STATUS_BUSY, .ro, .i, 0⟩]⟩,
  ⟨0x20010, [],
    [⟨F.CMD_PEG_ASSIGN_GO, .w1s, .l, 0⟩,
     ⟨F.CMD_PEG_ASSIGN_DOMAIN, .rw, .l, 0⟩,
     ⟨F.CMD_PEG_ASSIGN_COUNT, .rw, .l, 0⟩,
     ⟨F.CMD_PEG_ASSIGN_FIRST, .rw, .l, 0⟩]⟩,
  ⟨0x20018, [],
    [⟨F.CMD_PEG_ASSIGN_STATUS_REASON, .ro, .i, 0⟩]⟩,
  ⟨0x20020, [],
    [⟨F.CMD_FAR_CTRL_RETRIES, .rw, .l, 3⟩,
     ⟨F.CMD_FAR_CTRL_RETRY_TIME, .rw, .l, 100⟩]⟩,
  ⟨0x20028, [],
    [⟨F.CMD_FAULT_HEAD_COUNT, .ro, .i, 0⟩]⟩,
  ⟨0x20100, [(0x10, 64)],
    [⟨F.CMD_FAULT_CODE, .ro, .i, 0⟩,
     ⟨F.CMD_FAULT_AGENT, .ro, .i, 0⟩,
     ⟨F.CMD_FAULT_DOMAIN, .ro, .i, 0⟩,
     ⟨F.CMD_FAULT_INDEX, .ro, .i, 0⟩,
     ⟨F.CMD_FAULT_WHO, .ro, .i, 0⟩]⟩,
  ⟨0x20108, [(0x10, 64)],
    [⟨F.CMD_FAULT_INFO_INFO, .ro, .i, 0⟩]⟩]

/-- Rows of block CMD. -/
def regsCmd1 : List RegSpec := [
  ⟨0x20800, [(0x8, 64)],
    [⟨F.CMD_CTX_STATE, .ro, .i, 0⟩,
     ⟨F.CMD_CTX_RING, .ro, .i, 0⟩,
     ⟨F.CMD_CTX_TAG, .ro, .i, 0⟩,
     ⟨F.CMD_CTX_PC, .ro, .i, 0⟩]⟩]

/-- Rows of block CFG. -/
def regsCfg0 : List RegSpec := [
  ⟨0x40000, [],
    [⟨F.CFG_COMMIT_GO, .w1s, .l, 0⟩,
     ⟨F.CFG_COMMIT_SET, .rw, .l, 0⟩]⟩,
  ⟨0x40008, [],
    [⟨F.CFG_COMMIT_STATUS_BUSY, .ro, .i, 0⟩,
     ⟨F.CFG_COMMIT_STATUS_REASON, .ro, .i, 0⟩,
     ⟨F.CFG_COMMIT_STATUS_SET, .ro, .i, 0⟩,
     ⟨F.CFG_COMMIT_STATUS_OFFSET, .ro, .i, 0⟩]⟩,
  ⟨0x40010, [],
    [⟨F.CFG_DISCARD_GO, .w1s, .l, 0⟩,
     ⟨F.CFG_DISCARD_SET, .rw, .l, 0⟩]⟩,
  ⟨0x40018, [],
    [⟨F.CFG_LOG_HEAD_COUNT, .ro, .i, 0⟩]⟩,
  ⟨0x40100, [(0x8, 64)],
    [⟨F.CFG_SET_STATUS_DIRTY, .ro, .i, 0⟩,
     ⟨F.CFG_SET_STATUS_COMMITTED, .ro, .i, 0⟩,
     ⟨F.CFG_SET_STATUS_BUSY, .ro, .i, 0⟩,
     ⟨F.CFG_SET_STATUS_LAST_REASON, .ro, .i, 0⟩,
     ⟨F.CFG_SET_STATUS_COMMITS, .ro, .i, 0⟩]⟩,
  ⟨0x41000, [(0x10, 256)],
    [⟨F.CFG_LOG_KIND, .ro, .i, 0⟩,
     ⟨F.CFG_LOG_REASON, .ro, .i, 0⟩,
     ⟨F.CFG_LOG_SET, .ro, .i, 0⟩,
     ⟨F.CFG_LOG_SOURCE, .ro, .i, 0⟩,
     ⟨F.CFG_LOG_DOMAIN, .ro, .i, 0⟩,
     ⟨F.CFG_LOG_OFFSET, .ro, .i, 0⟩]⟩,
  ⟨0x41008, [(0x10, 256)],
    [⟨F.CFG_LOG_INFO_TIME, .ro, .i, 0⟩]⟩]

/-- Rows of block PWR. -/
def regsPwr0 : List RegSpec := [
  ⟨0x80000, [],
    [⟨F.PWR_STATUS_POWER_W, .ro, .i, 0⟩,
     ⟨F.PWR_STATUS_VOLTAGE, .ro, .i, 0⟩,
     ⟨F.PWR_STATUS_SHARE_A, .ro, .i, 50⟩,
     ⟨F.PWR_STATUS_POWER_PACE, .ro, .i, 64⟩]⟩,
  ⟨0x80008, [],
    [⟨F.PWR_CTRL_CAP_W, .rw, .l, 3600⟩]⟩,
  ⟨0x80100, [(0x8, 4)],
    [⟨F.PWR_VCORE_CEILING, .rw, .l, 8000⟩,
     ⟨F.PWR_VCORE_SETPOINT, .ro, .i, 7500⟩,
     ⟨F.PWR_VCORE_MEASURED, .ro, .i, 0⟩]⟩,
  ⟨0x81000, [(0x8, 50)],
    [⟨F.PWR_BAY_CTRL_TOL, .rw, .l, 0⟩]⟩,
  ⟨0x81400, [(0x8, 50)],
    [⟨F.PWR_BAY_STATUS_STATE, .ro, .i, 0⟩,
     ⟨F.PWR_BAY_STATUS_TARGET, .ro, .i, 0⟩,
     ⟨F.PWR_BAY_STATUS_KEPT, .ro, .i, 0⟩,
     ⟨F.PWR_BAY_STATUS_LAST_EXIT, .ro, .i, 0⟩,
     ⟨F.PWR_BAY_STATUS_WAKES, .ro, .i, 0⟩]⟩]

/-- Rows of block THM. -/
def regsThm0 : List RegSpec := [
  ⟨0xc0000, [],
    [⟨F.THM_CTRL_STEP_C, .rw, .l, 20⟩,
     ⟨F.THM_CTRL_PACE_LIMIT, .rw, .l, 103⟩]⟩,
  ⟨0xc0008, [],
    [⟨F.THM_STATUS_MAX_C, .ro, .i, 0⟩,
     ⟨F.THM_STATUS_MAX_SENSOR, .ro, .i, 0⟩,
     ⟨F.THM_STATUS_THERM, .ro, .i, 0⟩,
     ⟨F.THM_STATUS_LIMIT, .w1c, .l, 0⟩,
     ⟨F.THM_STATUS_STEP, .w1c, .l, 0⟩,
     ⟨F.THM_STATUS_PACED, .w1c, .l, 0⟩]⟩,
  ⟨0xc0010, [],
    [⟨F.THM_EVENT_HEAD_COUNT, .ro, .i, 0⟩]⟩,
  ⟨0xc0100, [(0x8, 53)],
    [⟨F.THM_SENSOR_TEMP, .ro, .i, 32768⟩,
     ⟨F.THM_SENSOR_MAX, .rc, .i, 32768⟩,
     ⟨F.THM_SENSOR_MIN, .rc, .i, 32767⟩]⟩,
  ⟨0xc1000, [(0x10, 64)],
    [⟨F.THM_EVENT_KIND, .ro, .i, 0⟩,
     ⟨F.THM_EVENT_WHERE, .ro, .i, 0⟩,
     ⟨F.THM_EVENT_FROM, .ro, .i, 0⟩,
     ⟨F.THM_EVENT_TO, .ro, .i, 0⟩,
     ⟨F.THM_EVENT_PACE, .ro, .i, 0⟩]⟩,
  ⟨0xc1008, [(0x10, 64)],
    [⟨F.THM_EVENT_INFO_TIME, .ro, .i, 0⟩]⟩]

/-- Rows of block TIM. -/
def regsTim0 : List RegSpec := [
  ⟨0x100000, [],
    [⟨F.TIM_CTRL_ENABLE, .rw, .l, 0⟩,
     ⟨F.TIM_CTRL_TC_ENABLE, .rw, .l, 0⟩,
     ⟨F.TIM_CTRL_SOURCE, .rw, .l, 0⟩,
     ⟨F.TIM_CTRL_DOMAIN, .rw, .q, 0⟩,
     ⟨F.TIM_CTRL_STEP_NS, .rw, .l, 1000⟩]⟩,
  ⟨0x100008, [],
    [⟨F.TIM_STATUS_STATE, .ro, .i, 0⟩,
     ⟨F.TIM_STATUS_EVER_LOCKED, .ro, .i, 0⟩,
     ⟨F.TIM_STATUS_PPS_MISSING, .w1c, .l, 0⟩,
     ⟨F.TIM_STATUS_STEP, .w1c, .l, 0⟩,
     ⟨F.TIM_STATUS_PARENT_CHANGE, .w1c, .l, 0⟩,
     ⟨F.TIM_STATUS_STATE_CHANGE, .w1c, .l, 0⟩,
     ⟨F.TIM_STATUS_PARENT, .ro, .i, 4095⟩,
     ⟨F.TIM_STATUS_ERROR_NS, .ro, .i, 4294967295⟩]⟩,
  ⟨0x100010, [],
    [⟨F.TIM_NOW_NS_NS_FRAC, .ro, .i, 0⟩]⟩,
  ⟨0x100018, [],
    [⟨F.TIM_NOW_SEC_SECONDS, .ro, .i, 0⟩]⟩,
  ⟨0x100020, [],
    [⟨F.TIM_SET_NS_GO, .w1s, .q, 0⟩,
     ⟨F.TIM_SET_NS_NS_FRAC, .rw, .q, 0⟩]⟩,
  ⟨0x100028, [],
    [⟨F.TIM_SET_SEC_SECONDS, .rw, .q, 0⟩]⟩,
  ⟨0x100030, [],
    [⟨F.TIM_FREQ_RATE, .rw, .l, 0⟩]⟩,
  ⟨0x100038, [],
    [⟨F.TIM_SERVO_LOCK_NS, .rw, .l, 50⟩,
     ⟨F.TIM_SERVO_UNCERT_NS, .rw, .l, 10⟩,
     ⟨F.TIM_SERVO_SLEW_PPB, .rw, .l, 10000⟩]⟩]

/-- Rows of block TIM. -/
def regsTim1 : List RegSpec := [
  ⟨0x100040, [],
    [⟨F.TIM_HOLDOVER_SPEC_NS, .rw, .l, 1000⟩,
     ⟨F.TIM_HOLDOVER_FLOOR_PPT, .rw, .l, 200⟩]⟩,
  ⟨0x100048, [],
    [⟨F.TIM_OFFSET_OFFSET_PS, .ro, .i, 0⟩,
     ⟨F.TIM_OFFSET_DELAY_PS, .ro, .i, 0⟩]⟩,
  ⟨0x100050, [],
    [⟨F.TIM_CLOCK_PRIORITY1, .rw, .l, 128⟩,
     ⟨F.TIM_CLOCK_PRIORITY2, .rw, .l, 128⟩,
     ⟨F.TIM_CLOCK_CLASS, .ro, .i, 248⟩,
     ⟨F.TIM_CLOCK_ACCURACY, .ro, .i, 254⟩,
     ⟨F.TIM_CLOCK_STEPS, .ro, .i, 0⟩,
     ⟨F.TIM_CLOCK_UTC_OFFSET, .ro, .i, 0⟩]⟩,
  ⟨0x100058, [],
    [⟨F.TIM_INTERVAL_LOG_SYNC, .rw, .l, 251⟩,
     ⟨F.TIM_INTERVAL_LOG_ANNOUNCE, .rw, .l, 0⟩,
     ⟨F.TIM_INTERVAL_LOG_DELAY_REQ, .rw, .l, 251⟩,
     ⟨F.TIM_INTERVAL_ANNOUNCE_TIMEOUT, .rw, .l, 3⟩]⟩,
  ⟨0x100060, [],
    [⟨F.TIM_GM_ID_IDENTITY, .ro, .i, 0⟩]⟩,
  ⟨0x100068, [],
    [⟨F.TIM_PARENT_ID_IDENTITY, .ro, .i, 0⟩]⟩,
  ⟨0x100070, [],
    [⟨F.TIM_PPS_IN_SECONDS, .ro, .i, 0⟩,
     ⟨F.TIM_PPS_IN_NANOSECONDS, .ro, .i, 0⟩]⟩,
  ⟨0x110000, [(0x20, 2050)],
    [⟨F.TIM_PORT_CFG_PTP, .rw, .l, 0⟩,
     ⟨F.TIM_PORT_CFG_MASTER_ONLY, .rw, .l, 0⟩,
     ⟨F.TIM_PORT_CFG_TRANSPORT, .rw, .l, 0⟩]⟩]

/-- Rows of block TIM. -/
def regsTim2 : List RegSpec := [
  ⟨0x110008, [(0x20, 2050)],
    [⟨F.TIM_PORT_LAT_TX_LAT_PS, .rw, .l, 0⟩,
     ⟨F.TIM_PORT_LAT_RX_LAT_PS, .rw, .l, 0⟩]⟩,
  ⟨0x110010, [(0x20, 2050)],
    [⟨F.TIM_PORT_ASYM_ASYM_PS, .rw, .l, 0⟩]⟩,
  ⟨0x110018, [(0x20, 2050)],
    [⟨F.TIM_PORT_STATE_PTP_STATE, .ro, .i, 3⟩,
     ⟨F.TIM_PORT_STATE_DELAY_PS, .ro, .i, 0⟩]⟩]

/-- Rows of block SEC. -/
def regsSec0 : List RegSpec := [
  ⟨0x180000, [],
    [⟨F.SEC_STATUS_BOOT_FAILED, .ro, .i, 0⟩,
     ⟨F.SEC_STATUS_INDEX_LOW, .ro, .i, 0⟩,
     ⟨F.SEC_STATUS_INDEX_EXHAUSTED, .ro, .i, 0⟩,
     ⟨F.SEC_STATUS_INDEX_RECOVERED, .w1c, .l, 0⟩,
     ⟨F.SEC_STATUS_REVOKED, .ro, .i, 0⟩,
     ⟨F.SEC_STATUS_SVN_FUSES, .ro, .i, 0⟩,
     ⟨F.SEC_STATUS_EPOCH_FUSES, .ro, .i, 0⟩,
     ⟨F.SEC_STATUS_PSK_VALID, .ro, .i, 0⟩]⟩,
  ⟨0x180008, [],
    [⟨F.SEC_CTRL_LOCK, .w1s, .l, 0⟩]⟩,
  ⟨0x180010, [],
    [⟨F.SEC_FW_BOOTED, .ro, .i, 0⟩,
     ⟨F.SEC_FW_ACTIVE, .ro, .i, 0⟩,
     ⟨F.SEC_FW_PENDING, .ro, .i, 0⟩,
     ⟨F.SEC_FW_SVN, .ro, .i, 0⟩,
     ⟨F.SEC_FW_VERSION, .ro, .i, 0⟩]⟩,
  ⟨0x180018, [],
    [⟨F.SEC_XMSS_NEXT_NEXT, .ro, .i, 0⟩]⟩,
  ⟨0x180020, [],
    [⟨F.SEC_XMSS_REMAIN_REMAIN, .ro, .i, 0⟩]⟩,
  ⟨0x180100, [(0x20, 8), (0x8, 4)],
    [⟨F.SEC_IMG_KEY_DIGEST, .rw, .l, 0⟩]⟩,
  ⟨0x180400, [(0x40, 8), (0x8, 6)],
    [⟨F.SEC_MEAS_VALUE, .ro, .i, 0⟩]⟩]

/-- Rows of block LDG. -/
def regsLdg0 : List RegSpec := [
  ⟨0x1c0000, [],
    [⟨F.LDG_CTRL_COMMIT, .w1s, .l, 0⟩]⟩,
  ⟨0x1c0008, [],
    [⟨F.LDG_STATUS_COPY, .ro, .i, 0⟩,
     ⟨F.LDG_STATUS_BUSY, .ro, .i, 0⟩,
     ⟨F.LDG_STATUS_LOST, .ro, .i, 0⟩,
     ⟨F.LDG_STATUS_DROP, .w1c, .l, 0⟩,
     ⟨F.LDG_STATUS_SEQUENCE, .ro, .i, 0⟩]⟩,
  ⟨0x1c0010, [],
    [⟨F.LDG_LIFE_LIFE_S, .ro, .i, 0⟩]⟩,
  ⟨0x1c0018, [],
    [⟨F.LDG_JOURNAL_HEAD, .ro, .i, 0⟩,
     ⟨F.LDG_JOURNAL_ARCHIVED, .ro, .i, 0⟩]⟩,
  ⟨0x1c0020, [],
    [⟨F.LDG_HEALTH_SCORE, .ro, .i, 0⟩,
     ⟨F.LDG_HEALTH_S_OPT, .ro, .i, 0⟩,
     ⟨F.LDG_HEALTH_S_FEC, .ro, .i, 0⟩,
     ⟨F.LDG_HEALTH_S_CAD, .ro, .i, 0⟩,
     ⟨F.LDG_HEALTH_S_MEM, .ro, .i, 0⟩,
     ⟨F.LDG_HEALTH_S_THM, .ro, .i, 0⟩]⟩,
  ⟨0x1c0028, [],
    [⟨F.LDG_HEALTH_B_S_WEAR, .ro, .i, 0⟩,
     ⟨F.LDG_HEALTH_B_HELD, .ro, .i, 0⟩,
     ⟨F.LDG_HEALTH_B_SECONDS, .ro, .i, 0⟩]⟩,
  ⟨0x1c0030, [],
    [⟨F.LDG_WIN_BASE_OFFSET, .rw, .l, 0⟩]⟩,
  ⟨0x1c0100, [(0x8, 50)],
    [⟨F.LDG_BAY_WEAR_BP, .ro, .i, 0⟩,
     ⟨F.LDG_BAY_ENERGISED_S, .ro, .i, 0⟩]⟩]

/-- Rows of block LDG. -/
def regsLdg1 : List RegSpec := [
  ⟨0x1c1000, [(0x8, 512)],
    [⟨F.LDG_WIN_DATA, .ro, .i, 0⟩]⟩]

/-- Rows of block CNT. -/
def regsCnt0 : List RegSpec := [
  ⟨0x200000, [],
    [⟨F.CNT_SNAP_GO, .w1s, .l, 0⟩,
     ⟨F.CNT_SNAP_MODE, .rw, .l, 0⟩,
     ⟨F.CNT_SNAP_NOTIFY, .rw, .l, 0⟩,
     ⟨F.CNT_SNAP_PERIOD_MS, .rw, .l, 1000⟩]⟩,
  ⟨0x200008, [],
    [⟨F.CNT_SNAP_TIME_SECONDS, .rw, .l, 0⟩,
     ⟨F.CNT_SNAP_TIME_NANOSECONDS, .rw, .l, 0⟩]⟩,
  ⟨0x200010, [],
    [⟨F.CNT_SNAP_STATUS_STATE, .ro, .i, 0⟩,
     ⟨F.CNT_SNAP_STATUS_GATHERING, .ro, .i, 0⟩,
     ⟨F.CNT_SNAP_STATUS_RESULT, .ro, .i, 0⟩,
     ⟨F.CNT_SNAP_STATUS_SKIPPED, .ro, .i, 0⟩,
     ⟨F.CNT_SNAP_STATUS_SEQ, .ro, .i, 0⟩]⟩,
  ⟨0x200018, [],
    [⟨F.CNT_CLEAR_GO, .w1s, .l, 0⟩,
     ⟨F.CNT_CLEAR_BLOCK, .rw, .l, 0⟩]⟩,
  ⟨0x200020, [],
    [⟨F.CNT_COPY_HOST, .rw, .l, 0⟩,
     ⟨F.CNT_COPY_ADDR, .rw, .l, 0⟩]⟩,
  ⟨0x200028, [],
    [⟨F.CNT_COPY_CTRL_GO, .w1s, .l, 0⟩,
     ⟨F.CNT_COPY_CTRL_FIRST, .rw, .l, 0⟩,
     ⟨F.CNT_COPY_CTRL_COUNT, .rw, .l, 378⟩]⟩,
  ⟨0x200030, [],
    [⟨F.CNT_HISTORY_EVERY, .rw, .l, 0⟩,
     ⟨F.CNT_HISTORY_RECORDS, .ro, .i, 0⟩]⟩,
  ⟨0x200100, [(0x8, 64)],
    [⟨F.CNT_PAGE_VIS_VISIBLE, .rw, .l, 0⟩]⟩]

/-- Rows of block PRT. -/
def regsPrt0 : List RegSpec := [
  ⟨0x400000, [(0x1000, 256)],
    [⟨F.PRT_PAIR_CFG_MODE, .rw, .q, 0⟩]⟩,
  ⟨0x400008, [(0x1000, 256)],
    [⟨F.PRT_PAIR_STATUS_WITHDRAWN, .ro, .i, 0⟩,
     ⟨F.PRT_PAIR_STATUS_LENT, .ro, .i, 0⟩,
     ⟨F.PRT_PAIR_STATUS_LOCK, .ro, .i, 0⟩,
     ⟨F.PRT_PAIR_STATUS_LIGHT, .ro, .i, 0⟩]⟩,
  ⟨0x400100, [(0x1000, 256), (0x100, 8)],
    [⟨F.PRT_PORT_CTRL_ENABLE, .rw, .l, 0⟩,
     ⟨F.PRT_PORT_CTRL_HFH_MAX, .rw, .q, 2⟩,
     ⟨F.PRT_PORT_CTRL_VC_MAX, .rw, .q, 8⟩,
     ⟨F.PRT_PORT_CTRL_FC_ALLOW, .rw, .q, 3⟩,
     ⟨F.PRT_PORT_CTRL_WLX_MAX, .rw, .q, 3⟩]⟩,
  ⟨0x400108, [(0x1000, 256), (0x100, 8)],
    [⟨F.PRT_PORT_STATE_STATE, .ro, .i, 0⟩,
     ⟨F.PRT_PORT_STATE_DOWN_REASON, .ro, .i, 0⟩,
     ⟨F.PRT_PORT_STATE_WLX, .ro, .i, 0⟩,
     ⟨F.PRT_PORT_STATE_FC, .ro, .i, 0⟩,
     ⟨F.PRT_PORT_STATE_VCS, .ro, .i, 0⟩,
     ⟨F.PRT_PORT_STATE_HFH, .ro, .i, 0⟩,
     ⟨F.PRT_PORT_STATE_BURST, .ro, .i, 0⟩,
     ⟨F.PRT_PORT_STATE_SPILL, .ro, .i, 0⟩,
     ⟨F.PRT_PORT_STATE_TS, .ro, .i, 0⟩,
     ⟨F.PRT_PORT_STATE_NONWLX, .ro, .i, 0⟩,
     ⟨F.PRT_PORT_STATE_NEG_FAIL, .ro, .i, 0⟩,
     ⟨F.PRT_PORT_STATE_MAX_FRAME, .ro, .i, 0⟩]⟩,
  ⟨0x400110, [(0x1000, 256), (0x100, 8)],
    [⟨F.PRT_PLAN_ID_IDENTITY, .rw, .s, 0⟩]⟩,
  ⟨0x400118, [(0x1000, 256), (0x100, 8)],
    [⟨F.PRT_PLAN_PORT_NONE, .rw, .s, 0⟩,
     ⟨F.PRT_PLAN_PORT_NONWLX, .rw, .s, 0⟩,
     ⟨F.PRT_PLAN_PORT_PORT, .rw, .s, 0⟩]⟩,
  ⟨0x400120, [(0x1000, 256), (0x100, 8)],
    [⟨F.PRT_PARTNER_ID_IDENTITY, .ro, .i, 0⟩]⟩,
  ⟨0x400128, [(0x1000, 256), (0x100, 8)],
    [⟨F.PRT_PARTNER_INFO_VERSION, .ro, .i, 0⟩,
     ⟨F.PRT_PARTNER_INFO_ROLE, .ro, .i, 0⟩,
     ⟨F.PRT_PARTNER_INFO_FC, .ro, .i, 0⟩,
     ⟨F.PRT_PARTNER_INFO_FLAGS, .ro, .i, 0⟩,
     ⟨F.PRT_PARTNER_INFO_ACQUIRE, .ro, .i, 0⟩,
     ⟨F.PRT_PARTNER_INFO_PORT, .ro, .i, 0⟩]⟩]

/-- Rows of block PRT. -/
def regsPrt1 : List RegSpec := [
  ⟨0x400130, [(0x1000, 256), (0x100, 8)],
    [⟨F.PRT_HOLD_TIME_HOLD, .rw, .l, 100⟩]⟩,
  ⟨0x400140, [(0x1000, 256), (0x100, 8), (0x8, 8)],
    [⟨F.PRT_CREDIT_SENT, .ro, .i, 0⟩,
     ⟨F.PRT_CREDIT_LIMIT, .ro, .i, 0⟩]⟩,
  ⟨0x400180, [(0x1000, 256), (0x100, 8), (0x8, 8)],
    [⟨F.PRT_PFC_THRESH_XOFF, .rw, .q, 16384⟩,
     ⟨F.PRT_PFC_THRESH_XON, .rw, .q, 12288⟩]⟩,
  ⟨0x500000, [],
    [⟨F.PRT_GLOBAL_CTRL_DISC_TIMEOUT, .rw, .l, 3000⟩,
     ⟨F.PRT_GLOBAL_CTRL_PFC_WDOG, .rw, .l, 100⟩,
     ⟨F.PRT_GLOBAL_CTRL_LINK_ETYPE, .rw, .q, 34997⟩]⟩,
  ⟨0x500008, [],
    [⟨F.PRT_WLX_ID_IDENTIFIER, .ro, .i, 8045012⟩]⟩,
  ⟨0x500010, [],
    [⟨F.PRT_EVENT_HEAD_COUNT, .ro, .i, 0⟩]⟩,
  ⟨0x501000, [(0x10, 256)],
    [⟨F.PRT_EVENT_KIND, .ro, .i, 0⟩,
     ⟨F.PRT_EVENT_PORT, .ro, .i, 0⟩,
     ⟨F.PRT_EVENT_PARTNER_PORT, .ro, .i, 0⟩]⟩,
  ⟨0x501008, [(0x10, 256)],
    [⟨F.PRT_EVENT_ID_IDENTITY, .ro, .i, 0⟩]⟩]

/-- Rows of block FWD. -/
def regsFwd0 : List RegSpec := [
  ⟨0x800000, [],
    [⟨F.FWD_GLOBAL_CTRL_HFH_PORT, .rw, .q, 50592⟩,
     ⟨F.FWD_GLOBAL_CTRL_EXC_PORT, .rw, .q, 0⟩,
     ⟨F.FWD_GLOBAL_CTRL_EXC_ACTION, .rw, .l, 0⟩,
     ⟨F.FWD_GLOBAL_CTRL_MISS_ACTION, .rw, .l, 0⟩,
     ⟨F.FWD_GLOBAL_CTRL_HONOUR_HFH_EPOCH, .rw, .l, 1⟩,
     ⟨F.FWD_GLOBAL_CTRL_MAC_AGE, .rw, .l, 300⟩]⟩,
  ⟨0x800008, [],
    [⟨F.FWD_ROUTER_MAC_MAC, .rw, .q, 0⟩]⟩,
  ⟨0x800010, [],
    [⟨F.FWD_FAR_PREFIX_PREFIX, .rw, .q, 0⟩]⟩,
  ⟨0x800018, [],
    [⟨F.FWD_FARPEG_CTRL_CLASS, .rw, .l, 6⟩,
     ⟨F.FWD_FARPEG_CTRL_UDP_PORT, .rw, .q, 50593⟩]⟩,
  ⟨0x800020, [],
    [⟨F.FWD_EPOCH_STATUS_STATE, .ro, .i, 0⟩,
     ⟨F.FWD_EPOCH_STATUS_ACTIVE_BANK, .ro, .i, 0⟩,
     ⟨F.FWD_EPOCH_STATUS_EPOCH, .ro, .i, 0⟩]⟩,
  ⟨0x800028, [],
    [⟨F.FWD_EPOCH_TIME_SECONDS, .ro, .i, 0⟩,
     ⟨F.FWD_EPOCH_TIME_NANOSECONDS, .ro, .i, 0⟩]⟩,
  ⟨0x800030, [],
    [⟨F.FWD_SHADOW_CTRL_ENABLE, .rw, .l, 0⟩,
     ⟨F.FWD_SHADOW_CTRL_RESTORE, .rw, .l, 0⟩,
     ⟨F.FWD_SHADOW_CTRL_RATE, .rw, .l, 100000⟩]⟩,
  ⟨0x800038, [],
    [⟨F.FWD_EVENT_HEAD_COUNT, .ro, .i, 0⟩]⟩]

/-- Rows of block FWD. -/
def regsFwd1 : List RegSpec := [
  ⟨0x800040, [],
    [⟨F.FWD_MCAST_STATUS_MASK_EPOCH, .ro, .i, 0⟩]⟩,
  ⟨0x800048, [(0x8, 2)],
    [⟨F.FWD_TRIE_STATUS_CAPACITY, .ro, .i, 262144⟩,
     ⟨F.FWD_TRIE_STATUS_NEED, .ro, .i, 0⟩]⟩,
  ⟨0x800100, [(0x8, 4)],
    [⟨F.FWD_DSCP_MAP_CLASS15, .rw, .l, 0⟩,
     ⟨F.FWD_DSCP_MAP_CLASS14, .rw, .l, 0⟩,
     ⟨F.FWD_DSCP_MAP_CLASS13, .rw, .l, 0⟩,
     ⟨F.FWD_DSCP_MAP_CLASS12, .rw, .l, 0⟩,
     ⟨F.FWD_DSCP_MAP_CLASS11, .rw, .l, 0⟩,
     ⟨F.FWD_DSCP_MAP_CLASS10, .rw, .l, 0⟩,
     ⟨F.FWD_DSCP_MAP_CLASS9, .rw, .l, 0⟩,
     ⟨F.FWD_DSCP_MAP_CLASS8, .rw, .l, 0⟩,
     ⟨F.FWD_DSCP_MAP_CLASS7, .rw, .l, 0⟩,
     ⟨F.FWD_DSCP_MAP_CLASS6, .rw, .l, 0⟩,
     ⟨F.FWD_DSCP_MAP_CLASS5, .rw, .l, 0⟩,
     ⟨F.FWD_DSCP_MAP_CLASS4, .rw, .l, 0⟩,
     ⟨F.FWD_DSCP_MAP_CLASS3, .rw, .l, 0⟩,
     ⟨F.FWD_DSCP_MAP_CLASS2, .rw, .l, 0⟩,
     ⟨F.FWD_DSCP_MAP_CLASS1, .rw, .l, 0⟩,
     ⟨F.FWD_DSCP_MAP_CLASS0, .rw, .l, 0⟩]⟩,
  ⟨0x800210, [(0x10, 8), (0x8, 2)],
    [⟨F.FWD_SHADOW_BASE_HOST, .rw, .q, 0⟩,
     ⟨F.FWD_SHADOW_BASE_ADDR, .rw, .q, 0⟩]⟩,
  ⟨0x800400, [(0x8, 32)],
    [⟨F.FWD_MCAST_EXCLUDE_EXCLUDE, .ro, .i, 0⟩]⟩,
  ⟨0x801100, [(0x100, 8), (0x40, 2), (0x8, 4)],
    [⟨F.FWD_SEG_LOCK_LOCK, .ro, .i, 0⟩]⟩,
  ⟨0x802000, [(0x10, 128)],
    [⟨F.FWD_EVENT_KIND, .ro, .i, 0⟩,
     ⟨F.FWD_EVENT_BANK, .ro, .i, 0⟩,
     ⟨F.FWD_EVENT_TABLE, .ro, .i, 0⟩,
     ⟨F.FWD_EVENT_ROW, .ro, .i, 0⟩]⟩,
  ⟨0x802008, [(0x10, 128)],
    [⟨F.FWD_EVENT_INFO_INFO, .ro, .i, 0⟩]⟩]

/-- Rows of block FWD. -/
def regsFwd2 : List RegSpec := [
  ⟨0x804000, [(0x8, 2048)],
    [⟨F.FWD_MAC_PORT_LEARNED, .ro, .i, 0⟩,
     ⟨F.FWD_MAC_PORT_LIMIT, .rw, .l, 64⟩,
     ⟨F.FWD_MAC_PORT_ACTION, .rw, .l, 0⟩,
     ⟨F.FWD_MAC_PORT_BRIDGE, .rw, .q, 0⟩,
     ⟨F.FWD_MAC_PORT_TAGGED, .rw, .q, 0⟩,
     ⟨F.FWD_MAC_PORT_PVID, .rw, .q, 1⟩]⟩]

/-- Rows of block SWC. -/
def regsSwc0 : List RegSpec := [
  ⟨0xc00000, [],
    [⟨F.SWC_CTRL_ECN_TIGHTEN, .rw, .l, 2⟩,
     ⟨F.SWC_CTRL_CT_ENABLE, .rw, .l, 1⟩,
     ⟨F.SWC_CTRL_AGE_LIMIT, .rw, .l, 2000⟩]⟩,
  ⟨0xc00008, [],
    [⟨F.SWC_AUDIT_STATUS_LEAK, .w1c, .l, 0⟩,
     ⟨F.SWC_AUDIT_STATUS_PASSES, .ro, .i, 0⟩,
     ⟨F.SWC_AUDIT_STATUS_LAST_RECLAIMED, .ro, .i, 0⟩]⟩,
  ⟨0xc00010, [],
    [⟨F.SWC_SFLOW_CTRL_ENABLE, .rw, .s, 0⟩,
     ⟨F.SWC_SFLOW_CTRL_HDR_UNITS, .rw, .s, 2⟩,
     ⟨F.SWC_SFLOW_CTRL_CLASS_RATE, .rw, .l, 4096⟩,
     ⟨F.SWC_SFLOW_CTRL_UDP_PORT, .rw, .s, 6343⟩]⟩,
  ⟨0xc00018, [(0x8, 2)],
    [⟨F.SWC_SFLOW_AGENT_ADDR, .rw, .s, 0⟩]⟩,
  ⟨0xc00028, [(0x8, 2)],
    [⟨F.SWC_SFLOW_COLLECTOR_ADDR, .rw, .s, 0⟩]⟩,
  ⟨0xc00100, [(0x8, 4)],
    [⟨F.SWC_QUAD_STATUS_SHARED_FREE, .ro, .i, 393216⟩,
     ⟨F.SWC_QUAD_STATUS_FREE, .ro, .i, 393216⟩]⟩,
  ⟨0xc00200, [(0x40, 16), (0x8, 8)],
    [⟨F.SWC_BUF_PROFILE_LOSSLESS, .rw, .s, 0⟩,
     ⟨F.SWC_BUF_PROFILE_ALPHA, .rw, .s, 4⟩,
     ⟨F.SWC_BUF_PROFILE_HEADROOM, .rw, .s, 0⟩,
     ⟨F.SWC_BUF_PROFILE_RESERVE, .rw, .s, 24⟩]⟩,
  ⟨0xc00600, [(0x40, 16), (0x8, 8)],
    [⟨F.SWC_SCHED_PROFILE_STRICT, .rw, .s, 0⟩,
     ⟨F.SWC_SCHED_PROFILE_WEIGHT, .rw, .s, 1⟩]⟩]

/-- Rows of block SWC. -/
def regsSwc1 : List RegSpec := [
  ⟨0xc01000, [(0x80, 16), (0x10, 8)],
    [⟨F.SWC_ECN_DEPTH_ENABLE, .rw, .s, 1⟩,
     ⟨F.SWC_ECN_DEPTH_PMAX, .rw, .s, 26⟩,
     ⟨F.SWC_ECN_DEPTH_KMAX, .rw, .s, 64⟩,
     ⟨F.SWC_ECN_DEPTH_KMIN, .rw, .s, 8⟩]⟩,
  ⟨0xc01008, [(0x80, 16), (0x10, 8)],
    [⟨F.SWC_ECN_TIME_SMAX, .rw, .s, 50⟩,
     ⟨F.SWC_ECN_TIME_SMIN, .rw, .s, 5⟩]⟩,
  ⟨0xc02000, [(0x8, 256)],
    [⟨F.SWC_PAIR_PROFILE_ECN, .rw, .s, 0⟩,
     ⟨F.SWC_PAIR_PROFILE_SCHED, .rw, .s, 0⟩,
     ⟨F.SWC_PAIR_PROFILE_BUF, .rw, .s, 0⟩]⟩,
  ⟨0xc03000, [(0x10, 16)],
    [⟨F.SWC_MIRROR_CTRL_ENABLE, .rw, .s, 0⟩,
     ⟨F.SWC_MIRROR_CTRL_CLASS, .rw, .s, 0⟩,
     ⟨F.SWC_MIRROR_CTRL_TRUNC, .rw, .s, 0⟩,
     ⟨F.SWC_MIRROR_CTRL_DEST, .rw, .s, 0⟩]⟩,
  ⟨0xc04000, [(0x200, 16), (0x100, 2), (0x8, 32)],
    [⟨F.SWC_MIRROR_SRC_PORTS, .rw, .s, 0⟩]⟩,
  ⟨0xc08000, [(0x8, 2048)],
    [⟨F.SWC_PORT_CTRL_SAMPLE_RATE, .rw, .l, 0⟩]⟩]

/-- Rows of block BSN. -/
def regsBsn0 : List RegSpec := [
  ⟨0x1000000, [(0x40000, 8)],
    [⟨F.BSN_CTRL_ENABLE, .rw, .l, 0⟩,
     ⟨F.BSN_CTRL_EARLY_CELLS, .rw, .l, 4096⟩]⟩,
  ⟨0x1000008, [(0x40000, 8)],
    [⟨F.BSN_STATUS_ACTIVE, .ro, .i, 0⟩,
     ⟨F.BSN_STATUS_RETAINED, .ro, .i, 0⟩]⟩,
  ⟨0x1000010, [(0x40000, 8)],
    [⟨F.BSN_RETAIN_BASE_ADDR, .rw, .q, 0⟩]⟩,
  ⟨0x1000018, [(0x40000, 8)],
    [⟨F.BSN_RETAIN_SIZE_SIZE, .rw, .q, 0⟩]⟩,
  ⟨0x1000020, [(0x40000, 8)],
    [⟨F.BSN_MEMBER_BASE_ADDR, .rw, .q, 0⟩]⟩,
  ⟨0x1000028, [(0x40000, 8)],
    [⟨F.BSN_TEMPLATE_BASE_ADDR, .rw, .q, 0⟩]⟩,
  ⟨0x1000030, [(0x40000, 8)],
    [⟨F.BSN_ABORT_GO, .w1s, .l, 0⟩,
     ⟨F.BSN_ABORT_SLOT, .rw, .l, 0⟩]⟩,
  ⟨0x1000038, [(0x40000, 8)],
    [⟨F.BSN_LOG_HEAD_COUNT, .ro, .i, 0⟩]⟩]

/-- Rows of block BSN. -/
def regsBsn1 : List RegSpec := [
  ⟨0x1001000, [(0x40000, 8), (0x10, 512)],
    [⟨F.BSN_GROUP_A_VALID, .rw, .s, 0⟩,
     ⟨F.BSN_GROUP_A_DOMAIN, .rw, .s, 0⟩,
     ⟨F.BSN_GROUP_A_MCAST, .rw, .s, 0⟩,
     ⟨F.BSN_GROUP_A_MEMBER_COUNT, .rw, .s, 0⟩,
     ⟨F.BSN_GROUP_A_MEMBER_BASE, .rw, .s, 0⟩]⟩,
  ⟨0x1001008, [(0x40000, 8), (0x10, 512)],
    [⟨F.BSN_GROUP_B_GEN, .ro, .i, 0⟩,
     ⟨F.BSN_GROUP_B_IN_FORMAT, .rw, .s, 0⟩,
     ⟨F.BSN_GROUP_B_OUT_FORMAT, .rw, .s, 0⟩,
     ⟨F.BSN_GROUP_B_CLASS, .rw, .s, 0⟩]⟩,
  ⟨0x1004000, [(0x40000, 8), (0x8, 1024)],
    [⟨F.BSN_SLOT_STATE_WORD, .ro, .i, 0⟩]⟩,
  ⟨0x1006000, [(0x40000, 8), (0x10, 64)],
    [⟨F.BSN_LOG_KIND, .ro, .i, 0⟩,
     ⟨F.BSN_LOG_GROUP, .ro, .i, 0⟩,
     ⟨F.BSN_LOG_OP_SEQ, .ro, .i, 0⟩,
     ⟨F.BSN_LOG_CODE, .ro, .i, 0⟩]⟩,
  ⟨0x1006008, [(0x40000, 8), (0x10, 64)],
    [⟨F.BSN_LOG_INFO_ORIGIN, .ro, .i, 0⟩,
     ⟨F.BSN_LOG_INFO_SLOT, .ro, .i, 0⟩,
     ⟨F.BSN_LOG_INFO_SECONDS, .ro, .i, 0⟩]⟩]

/-- Rows of block TEN. -/
def regsTen0 : List RegSpec := [
  ⟨0x1400000, [(0x100000, 4)],
    [⟨F.TEN_ASSIGN_GO, .w1s, .l, 0⟩,
     ⟨F.TEN_ASSIGN_DOMAIN, .rw, .l, 0⟩,
     ⟨F.TEN_ASSIGN_FIRST_ROW, .rw, .l, 0⟩,
     ⟨F.TEN_ASSIGN_LAST_ROW, .rw, .l, 0⟩,
     ⟨F.TEN_ASSIGN_FIRST_COL, .rw, .l, 0⟩,
     ⟨F.TEN_ASSIGN_LAST_COL, .rw, .l, 0⟩]⟩,
  ⟨0x1400008, [(0x100000, 4)],
    [⟨F.TEN_ASSIGN_STATUS_REASON, .ro, .i, 0⟩]⟩,
  ⟨0x1400010, [(0x100000, 4)],
    [⟨F.TEN_STATUS_DMA_STREAMS, .ro, .i, 0⟩,
     ⟨F.TEN_STATUS_TRUSSES, .ro, .i, 0⟩,
     ⟨F.TEN_STATUS_CONTEXTS, .ro, .i, 0⟩]⟩,
  ⟨0x1400018, [(0x100000, 4)],
    [⟨F.TEN_PACE_PACE_MIN3, .rc, .i, 64⟩,
     ⟨F.TEN_PACE_PACE_MIN2, .rc, .i, 64⟩,
     ⟨F.TEN_PACE_PACE_MIN1, .rc, .i, 64⟩,
     ⟨F.TEN_PACE_PACE_MIN0, .rc, .i, 64⟩,
     ⟨F.TEN_PACE_PACE3, .ro, .i, 64⟩,
     ⟨F.TEN_PACE_PACE2, .ro, .i, 64⟩,
     ⟨F.TEN_PACE_PACE1, .ro, .i, 64⟩,
     ⟨F.TEN_PACE_PACE0, .ro, .i, 64⟩]⟩,
  ⟨0x1401000, [(0x100000, 4), (0x8, 256)],
    [⟨F.TEN_TRUSS_STATE, .ro, .i, 0⟩,
     ⟨F.TEN_TRUSS_DOMAIN, .ro, .i, 0⟩,
     ⟨F.TEN_TRUSS_STAGES, .ro, .i, 0⟩,
     ⟨F.TEN_TRUSS_MODE, .ro, .i, 0⟩,
     ⟨F.TEN_TRUSS_CHANNEL, .ro, .i, 0⟩,
     ⟨F.TEN_TRUSS_ENGINE, .ro, .i, 0⟩,
     ⟨F.TEN_TRUSS_HEAD, .ro, .i, 0⟩,
     ⟨F.TEN_TRUSS_TAIL, .ro, .i, 0⟩,
     ⟨F.TEN_TRUSS_HANDOFFS, .ro, .i, 0⟩]⟩,
  ⟨0x1402000, [(0x100000, 4), (0x100, 30), (0x8, 32)],
    [⟨F.TEN_TENON_OWNER, .ro, .i, 0⟩,
     ⟨F.TEN_TENON_BOUND, .ro, .i, 0⟩,
     ⟨F.TEN_TENON_CTX, .ro, .i, 0⟩,
     ⟨F.TEN_TENON_IN_TRUSS, .ro, .i, 0⟩,
     ⟨F.TEN_TENON_PACE, .ro, .i, 64⟩,
     ⟨F.TEN_TENON_TRUSS, .ro, .i, 0⟩]⟩]

/-- Rows of block SPL. -/
def regsSpl0 : List RegSpec := [
  ⟨0x1800000, [],
    [⟨F.SPL_CTRL_ENABLE, .rw, .l, 0⟩,
     ⟨F.SPL_CTRL_RECOVER_MS, .rw, .l, 1000⟩,
     ⟨F.SPL_CTRL_GATE_NS, .rw, .l, 40⟩]⟩,
  ⟨0x1800008, [],
    [⟨F.SPL_STATUS_FLIP_STATE, .ro, .i, 0⟩,
     ⟨F.SPL_STATUS_GATE_OPEN, .ro, .i, 0⟩,
     ⟨F.SPL_STATUS_ACTIVE_BANK, .ro, .i, 0⟩,
     ⟨F.SPL_STATUS_CIRCUITS, .ro, .i, 0⟩,
     ⟨F.SPL_STATUS_PENDING, .ro, .i, 0⟩,
     ⟨F.SPL_STATUS_ERROR_NS, .ro, .i, 65535⟩]⟩,
  ⟨0x1800010, [],
    [⟨F.SPL_REQ_A_GO, .w1s, .l, 0⟩,
     ⟨F.SPL_REQ_A_OP, .rw, .l, 0⟩,
     ⟨F.SPL_REQ_A_DOMAIN, .rw, .l, 0⟩,
     ⟨F.SPL_REQ_A_WAVELENGTH, .rw, .l, 15⟩,
     ⟨F.SPL_REQ_A_PERSISTENT, .rw, .l, 0⟩,
     ⟨F.SPL_REQ_A_IN, .rw, .l, 0⟩,
     ⟨F.SPL_REQ_A_OUT, .rw, .l, 0⟩,
     ⟨F.SPL_REQ_A_CIRCUIT, .rw, .l, 0⟩,
     ⟨F.SPL_REQ_A_TAG, .rw, .l, 0⟩]⟩,
  ⟨0x1800018, [],
    [⟨F.SPL_REQ_B_SLOT_MASK, .rw, .l, 0⟩]⟩,
  ⟨0x1800020, [],
    [⟨F.SPL_REQ_IN_ID_IDENTITY, .rw, .l, 0⟩]⟩,
  ⟨0x1800028, [],
    [⟨F.SPL_REQ_OUT_ID_IDENTITY, .rw, .l, 0⟩]⟩,
  ⟨0x1800030, [],
    [⟨F.SPL_RESP_REASON, .ro, .i, 0⟩,
     ⟨F.SPL_RESP_WAVELENGTH, .ro, .i, 0⟩,
     ⟨F.SPL_RESP_CIRCUIT, .ro, .i, 0⟩,
     ⟨F.SPL_RESP_TAG, .ro, .i, 0⟩]⟩,
  ⟨0x1800038, [],
    [⟨F.SPL_FLIP_GO, .w1s, .l, 0⟩,
     ⟨F.SPL_FLIP_REASON, .ro, .i, 0⟩]⟩]

/-- Rows of block SPL. -/
def regsSpl1 : List RegSpec := [
  ⟨0x1800040, [],
    [⟨F.SPL_FLIP_TIME_SECONDS, .rw, .l, 0⟩,
     ⟨F.SPL_FLIP_TIME_NANOSECONDS, .rw, .l, 0⟩]⟩,
  ⟨0x1800048, [],
    [⟨F.SPL_CYCLE_START_START, .ro, .i, 0⟩]⟩,
  ⟨0x1800100, [],
    [⟨F.SPL_SHAPE_PEND_CYCLE_NS, .ro, .i, 1024⟩,
     ⟨F.SPL_SHAPE_PEND_SLOTS, .rw, .s, 1⟩,
     ⟨F.SPL_SHAPE_PEND_MARGIN_NS, .rw, .s, 80⟩,
     ⟨F.SPL_SHAPE_PEND_GUARD_NS, .rw, .s, 16⟩]⟩,
  ⟨0x1800108, [(0x8, 4)],
    [⟨F.SPL_SLOT_K_PEND_K15, .rw, .s, 2⟩,
     ⟨F.SPL_SLOT_K_PEND_K14, .rw, .s, 2⟩,
     ⟨F.SPL_SLOT_K_PEND_K13, .rw, .s, 2⟩,
     ⟨F.SPL_SLOT_K_PEND_K12, .rw, .s, 2⟩,
     ⟨F.SPL_SLOT_K_PEND_K11, .rw, .s, 2⟩,
     ⟨F.SPL_SLOT_K_PEND_K10, .rw, .s, 2⟩,
     ⟨F.SPL_SLOT_K_PEND_K9, .rw, .s, 2⟩,
     ⟨F.SPL_SLOT_K_PEND_K8, .rw, .s, 2⟩,
     ⟨F.SPL_SLOT_K_PEND_K7, .rw, .s, 2⟩,
     ⟨F.SPL_SLOT_K_PEND_K6, .rw, .s, 2⟩,
     ⟨F.SPL_SLOT_K_PEND_K5, .rw, .s, 2⟩,
     ⟨F.SPL_SLOT_K_PEND_K4, .rw, .s, 2⟩,
     ⟨F.SPL_SLOT_K_PEND_K3, .rw, .s, 2⟩,
     ⟨F.SPL_SLOT_K_PEND_K2, .rw, .s, 2⟩,
     ⟨F.SPL_SLOT_K_PEND_K1, .rw, .s, 2⟩,
     ⟨F.SPL_SLOT_K_PEND_K0, .rw, .s, 2⟩]⟩,
  ⟨0x1800140, [],
    [⟨F.SPL_SHAPE_ACT_CYCLE_NS, .ro, .i, 1024⟩,
     ⟨F.SPL_SHAPE_ACT_SLOTS, .ro, .i, 1⟩,
     ⟨F.SPL_SHAPE_ACT_MARGIN_NS, .ro, .i, 80⟩,
     ⟨F.SPL_SHAPE_ACT_GUARD_NS, .ro, .i, 16⟩]⟩,
  ⟨0x1800148, [(0x8, 4)],
    [⟨F.SPL_SLOT_K_ACT_K15, .ro, .i, 2⟩,
     ⟨F.SPL_SLOT_K_ACT_K14, .ro, .i, 2⟩,
     ⟨F.SPL_SLOT_K_ACT_K13, .ro, .i, 2⟩,
     ⟨F.SPL_SLOT_K_ACT_K12, .ro, .i, 2⟩,
     ⟨F.SPL_SLOT_K_ACT_K11, .ro, .i, 2⟩,
     ⟨F.SPL_SLOT_K_ACT_K10, .ro, .i, 2⟩,
     ⟨F.SPL_SLOT_K_ACT_K9, .ro, .i, 2⟩,
     ⟨F.SPL_SLOT_K_ACT_K8, .ro, .i, 2⟩,
     ⟨F.SPL_SLOT_K_ACT_K7, .ro, .i, 2⟩,
     ⟨F.SPL_SLOT_K_ACT_K6, .ro, .i, 2⟩,
     ⟨F.SPL_SLOT_K_ACT_K5, .ro, .i, 2⟩,
     ⟨F.SPL_SLOT_K_ACT_K4, .ro, .i, 2⟩,
     ⟨F.SPL_SLOT_K_ACT_K3, .ro, .i, 2⟩,
     ⟨F.SPL_SLOT_K_ACT_K2, .ro, .i, 2⟩,
     ⟨F.SPL_SLOT_K_ACT_K1, .ro, .i, 2⟩,
     ⟨F.SPL_SLOT_K_ACT_K0, .ro, .i, 2⟩]⟩,
  ⟨0x1800200, [],
    [⟨F.SPL_EVENT_HEAD_COUNT, .ro, .i, 0⟩]⟩,
  ⟨0x1800800, [(0x10, 256)],
    [⟨F.SPL_EVENT_KIND, .ro, .i, 0⟩,
     ⟨F.SPL_EVENT_CAUSE, .ro, .i, 0⟩,
     ⟨F.SPL_EVENT_ENGINE, .ro, .i, 0⟩,
     ⟨F.SPL_EVENT_RING, .ro, .i, 0⟩,
     ⟨F.SPL_EVENT_CIRCUIT, .ro, .i, 0⟩]⟩]

/-- Rows of block SPL. -/
def regsSpl2 : List RegSpec := [
  ⟨0x1800808, [(0x10, 256)],
    [⟨F.SPL_EVENT_INFO_TIME, .ro, .i, 0⟩]⟩,
  ⟨0x1810000, [(0x10, 4096)],
    [⟨F.SPL_CIRC_ACT_STATE, .ro, .i, 0⟩,
     ⟨F.SPL_CIRC_ACT_DOMAIN, .ro, .i, 0⟩,
     ⟨F.SPL_CIRC_ACT_PERSISTENT, .ro, .i, 0⟩,
     ⟨F.SPL_CIRC_ACT_WAVELENGTH, .ro, .i, 0⟩,
     ⟨F.SPL_CIRC_ACT_IN, .ro, .i, 0⟩,
     ⟨F.SPL_CIRC_ACT_OUT, .ro, .i, 0⟩,
     ⟨F.SPL_CIRC_ACT_IN_POWER, .ro, .i, 32768⟩]⟩,
  ⟨0x1810008, [(0x10, 4096)],
    [⟨F.SPL_CIRC_ACT_MASK_SLOT_MASK, .ro, .i, 0⟩]⟩,
  ⟨0x1820000, [(0x10, 4096)],
    [⟨F.SPL_CIRC_PEND_STATE, .ro, .i, 0⟩,
     ⟨F.SPL_CIRC_PEND_DOMAIN, .ro, .i, 0⟩,
     ⟨F.SPL_CIRC_PEND_PERSISTENT, .ro, .i, 0⟩,
     ⟨F.SPL_CIRC_PEND_WAVELENGTH, .ro, .i, 0⟩,
     ⟨F.SPL_CIRC_PEND_IN, .ro, .i, 0⟩,
     ⟨F.SPL_CIRC_PEND_OUT, .ro, .i, 0⟩,
     ⟨F.SPL_CIRC_PEND_IN_POWER, .ro, .i, 32768⟩]⟩,
  ⟨0x1820008, [(0x10, 4096)],
    [⟨F.SPL_CIRC_PEND_MASK_SLOT_MASK, .ro, .i, 0⟩]⟩]

/-- Rows of block OPT. -/
def regsOpt0 : List RegSpec := [
  ⟨0x1c00000, [(0x8000, 32)],
    [⟨F.OPT_CTRL_HOLD, .rw, .q, 110⟩,
     ⟨F.OPT_CTRL_RELOCK, .w1s, .l, 0⟩]⟩,
  ⟨0x1c00008, [(0x8000, 32)],
    [⟨F.OPT_STATUS_STATE, .ro, .i, 3⟩,
     ⟨F.OPT_STATUS_PAIRED, .ro, .i, 0⟩,
     ⟨F.OPT_STATUS_LOCKED, .ro, .i, 0⟩,
     ⟨F.OPT_STATUS_HEATER_MW, .ro, .i, 0⟩]⟩,
  ⟨0x1c00010, [(0x8000, 32)],
    [⟨F.OPT_MEASURE_GO, .w1s, .l, 0⟩,
     ⟨F.OPT_MEASURE_INTEG, .rw, .l, 0⟩,
     ⟨F.OPT_MEASURE_POSITION, .rw, .l, 0⟩,
     ⟨F.OPT_MEASURE_LANE, .rw, .l, 0⟩]⟩,
  ⟨0x1c00018, [(0x8000, 32)],
    [⟨F.OPT_MEASURE_RESULT_VALID, .ro, .i, 0⟩,
     ⟨F.OPT_MEASURE_RESULT_CODE, .ro, .i, 0⟩]⟩,
  ⟨0x1c00020, [(0x8000, 32)],
    [⟨F.OPT_LANE_CLEAR_CLEAR, .w1s, .l, 0⟩]⟩,
  ⟨0x1c00100, [(0x8000, 32), (0x40, 8), (0x8, 8)],
    [⟨F.OPT_RING_STATE, .ro, .i, 0⟩,
     ⟨F.OPT_RING_ORDER, .ro, .i, 0⟩,
     ⟨F.OPT_RING_FAILS, .ro, .i, 0⟩,
     ⟨F.OPT_RING_SIDE, .ro, .i, 0⟩,
     ⟨F.OPT_RING_HEATER, .ro, .i, 0⟩,
     ⟨F.OPT_RING_DETUNE, .ro, .i, 0⟩,
     ⟨F.OPT_RING_LOCKS, .ro, .i, 0⟩]⟩,
  ⟨0x1c00300, [(0x8000, 32), (0x8, 2)],
    [⟨F.OPT_TAP_EGRESS, .ro, .i, 0⟩,
     ⟨F.OPT_TAP_INGRESS, .ro, .i, 0⟩]⟩]

/-- Rows of block MEM. -/
def regsMem0 : List RegSpec := [
  ⟨0x2000000, [],
    [⟨F.MEM_CTRL_AREAS_ENABLE, .rw, .l, 0⟩,
     ⟨F.MEM_CTRL_HBM_SCRUB_H, .rw, .l, 24⟩,
     ⟨F.MEM_CTRL_DDR_SCRUB_H, .rw, .l, 24⟩,
     ⟨F.MEM_CTRL_SUSPECT, .rw, .l, 16⟩]⟩,
  ⟨0x2000008, [],
    [⟨F.MEM_STATUS_HBM_OK, .ro, .i, 0⟩,
     ⟨F.MEM_STATUS_DDR_CHANNELS, .ro, .i, 0⟩,
     ⟨F.MEM_STATUS_DDR_DIMMS, .ro, .i, 0⟩,
     ⟨F.MEM_STATUS_DDR_GIB, .ro, .i, 0⟩,
     ⟨F.MEM_STATUS_DDR_REASON, .ro, .i, 0⟩,
     ⟨F.MEM_STATUS_AREA_REASON, .ro, .i, 0⟩]⟩,
  ⟨0x2000010, [],
    [⟨F.MEM_HISTORY_BASE_VALUE, .rw, .q, 0⟩]⟩,
  ⟨0x2000018, [],
    [⟨F.MEM_HISTORY_SIZE_VALUE, .rw, .q, 0⟩]⟩,
  ⟨0x2000020, [],
    [⟨F.MEM_ARCHIVE_BASE_VALUE, .rw, .q, 0⟩]⟩,
  ⟨0x2000028, [],
    [⟨F.MEM_ARCHIVE_SIZE_VALUE, .rw, .q, 0⟩]⟩,
  ⟨0x2000030, [],
    [⟨F.MEM_EVENT_HEAD_COUNT, .ro, .i, 0⟩]⟩,
  ⟨0x2000100, [(0x8, 8)],
    [⟨F.MEM_HBM_STATUS_STATE, .ro, .i, 0⟩,
     ⟨F.MEM_HBM_STATUS_SIZE_GIB, .ro, .i, 0⟩,
     ⟨F.MEM_HBM_STATUS_PASSES, .ro, .i, 0⟩]⟩]

/-- Rows of block MEM. -/
def regsMem1 : List RegSpec := [
  ⟨0x2000200, [(0x8, 8)],
    [⟨F.MEM_DDR_STATUS_STATE, .ro, .i, 0⟩,
     ⟨F.MEM_DDR_STATUS_RANKS, .ro, .i, 0⟩,
     ⟨F.MEM_DDR_STATUS_SIZE_GIB, .ro, .i, 0⟩,
     ⟨F.MEM_DDR_STATUS_PASSES, .ro, .i, 0⟩]⟩,
  ⟨0x2001000, [(0x10, 128)],
    [⟨F.MEM_EVENT_KIND, .ro, .i, 0⟩,
     ⟨F.MEM_EVENT_TIER, .ro, .i, 0⟩,
     ⟨F.MEM_EVENT_UNIT, .ro, .i, 0⟩,
     ⟨F.MEM_EVENT_SUB, .ro, .i, 0⟩,
     ⟨F.MEM_EVENT_RANK, .ro, .i, 0⟩,
     ⟨F.MEM_EVENT_PC, .ro, .i, 0⟩,
     ⟨F.MEM_EVENT_SECONDS, .ro, .i, 0⟩]⟩,
  ⟨0x2001008, [(0x10, 128)],
    [⟨F.MEM_EVENT_ADDR_ADDR, .ro, .i, 0⟩]⟩]

/-- Rows of block PLN. -/
def regsPln0 : List RegSpec := [
  ⟨0x2400000, [],
    [⟨F.PLN_CFG_ROLE, .rw, .s, 0⟩,
     ⟨F.PLN_CFG_PLANE, .rw, .s, 0⟩,
     ⟨F.PLN_CFG_FLIP_LEAD_MS, .rw, .l, 5⟩]⟩,
  ⟨0x2400008, [],
    [⟨F.PLN_MANAGER_ID_IDENTITY, .rw, .s, 0⟩]⟩,
  ⟨0x2400010, [],
    [⟨F.PLN_STANDBY_ID_IDENTITY, .rw, .s, 0⟩]⟩,
  ⟨0x2400018, [],
    [⟨F.PLN_PREFIX_A_PREFIX, .rw, .s, 0⟩]⟩,
  ⟨0x2400020, [],
    [⟨F.PLN_PREFIX_B_PREFIX, .rw, .s, 0⟩]⟩,
  ⟨0x2400028, [],
    [⟨F.PLN_BUDGET_COUNT, .rw, .s, 4⟩,
     ⟨F.PLN_BUDGET_WINDOW_S, .rw, .s, 3600⟩]⟩,
  ⟨0x2400030, [],
    [⟨F.PLN_STATUS_ROLE, .ro, .i, 0⟩,
     ⟨F.PLN_STATUS_ACTING, .ro, .i, 0⟩,
     ⟨F.PLN_STATUS_MANAGER_PRESENT, .ro, .i, 0⟩,
     ⟨F.PLN_STATUS_PREPARED, .ro, .i, 0⟩,
     ⟨F.PLN_STATUS_TERM, .ro, .i, 0⟩]⟩,
  ⟨0x2400038, [],
    [⟨F.PLN_WH_LOAD_LEVEL, .ro, .i, 0⟩,
     ⟨F.PLN_WH_LOAD_LOAD, .ro, .i, 0⟩]⟩]

/-- Rows of block PLN. -/
def regsPln1 : List RegSpec := [
  ⟨0x2400040, [],
    [⟨F.PLN_PROMOTE_GO, .w1s, .l, 0⟩,
     ⟨F.PLN_PROMOTE_FORCE, .rw, .l, 0⟩,
     ⟨F.PLN_PROMOTE_REASON, .ro, .i, 0⟩]⟩,
  ⟨0x2400048, [],
    [⟨F.PLN_FLIP_GO, .w1s, .l, 0⟩,
     ⟨F.PLN_FLIP_KIND, .rw, .l, 1⟩,
     ⟨F.PLN_FLIP_FROM_EPOCH, .rw, .l, 0⟩]⟩,
  ⟨0x2400050, [],
    [⟨F.PLN_FLIP_STATUS_STATE, .ro, .i, 0⟩,
     ⟨F.PLN_FLIP_STATUS_REASON, .ro, .i, 0⟩,
     ⟨F.PLN_FLIP_STATUS_WORKER, .ro, .i, 0⟩,
     ⟨F.PLN_FLIP_STATUS_FLIP_ID, .ro, .i, 0⟩]⟩,
  ⟨0x2400058, [],
    [⟨F.PLN_FLIP_TIME_SECONDS, .ro, .i, 0⟩,
     ⟨F.PLN_FLIP_TIME_NANOSECONDS, .ro, .i, 0⟩]⟩,
  ⟨0x2400060, [],
    [⟨F.PLN_FENCE_REQ_GO, .w1s, .l, 0⟩,
     ⟨F.PLN_FENCE_REQ_AUTOMATED, .rw, .l, 1⟩,
     ⟨F.PLN_FENCE_REQ_KIND, .rw, .l, 1⟩,
     ⟨F.PLN_FENCE_REQ_UNFENCE, .rw, .l, 0⟩,
     ⟨F.PLN_FENCE_REQ_PORT, .rw, .l, 2047⟩,
     ⟨F.PLN_FENCE_REQ_TAG, .rw, .l, 0⟩]⟩,
  ⟨0x2400068, [],
    [⟨F.PLN_FENCE_TARGET_IDENTITY, .rw, .l, 0⟩]⟩,
  ⟨0x2400070, [],
    [⟨F.PLN_FENCE_RESP_RESULT, .ro, .i, 0⟩,
     ⟨F.PLN_FENCE_RESP_REASON, .ro, .i, 0⟩,
     ⟨F.PLN_FENCE_RESP_IN_WINDOW, .ro, .i, 0⟩,
     ⟨F.PLN_FENCE_RESP_TICKET, .ro, .i, 0⟩,
     ⟨F.PLN_FENCE_RESP_TAG, .ro, .i, 0⟩]⟩,
  ⟨0x2400078, [],
    [⟨F.PLN_FENCE_CONFIRM_GO, .w1s, .l, 0⟩,
     ⟨F.PLN_FENCE_CONFIRM_CANCEL, .rw, .l, 0⟩,
     ⟨F.PLN_FENCE_CONFIRM_TICKET, .rw, .l, 0⟩]⟩]

/-- Rows of block PLN. -/
def regsPln2 : List RegSpec := [
  ⟨0x2400100, [(0x10, 64)],
    [⟨F.PLN_HELD_VALID, .ro, .i, 0⟩,
     ⟨F.PLN_HELD_KIND, .ro, .i, 0⟩,
     ⟨F.PLN_HELD_PORT, .ro, .i, 0⟩,
     ⟨F.PLN_HELD_TAG, .ro, .i, 0⟩,
     ⟨F.PLN_HELD_SECONDS, .ro, .i, 0⟩]⟩,
  ⟨0x2400108, [(0x10, 64)],
    [⟨F.PLN_HELD_ID_IDENTITY, .ro, .i, 0⟩]⟩,
  ⟨0x2400800, [],
    [⟨F.PLN_EVENT_HEAD_COUNT, .ro, .i, 0⟩]⟩,
  ⟨0x2401000, [(0x20, 256)],
    [⟨F.PLN_EVENT_KIND, .ro, .i, 0⟩,
     ⟨F.PLN_EVENT_WORKER, .ro, .i, 0⟩,
     ⟨F.PLN_EVENT_PORT, .ro, .i, 0⟩,
     ⟨F.PLN_EVENT_GROUP, .ro, .i, 0⟩,
     ⟨F.PLN_EVENT_OP_SEQ, .ro, .i, 0⟩]⟩,
  ⟨0x2401008, [(0x20, 256)],
    [⟨F.PLN_EVENT_INFO_TIME, .ro, .i, 0⟩]⟩,
  ⟨0x2401010, [(0x20, 256)],
    [⟨F.PLN_EVENT_ID_IDENTITY, .ro, .i, 0⟩]⟩,
  ⟨0x2404000, [(0x10, 1023)],
    [⟨F.PLN_WORKER_ID_IDENTITY, .rw, .s, 0⟩]⟩,
  ⟨0x2404008, [(0x10, 1023)],
    [⟨F.PLN_WORKER_STATE_STATE, .ro, .i, 0⟩,
     ⟨F.PLN_WORKER_STATE_PATHS, .ro, .i, 0⟩,
     ⟨F.PLN_WORKER_STATE_SHED, .ro, .i, 0⟩,
     ⟨F.PLN_WORKER_STATE_HEALTH, .ro, .i, 0⟩,
     ⟨F.PLN_WORKER_STATE_EPOCH, .ro, .i, 0⟩,
     ⟨F.PLN_WORKER_STATE_ERROR_NS, .ro, .i, 65535⟩,
     ⟨F.PLN_WORKER_STATE_LOAD, .ro, .i, 0⟩]⟩]

/-- Rows of block SIL. -/
def regsSil0 : List RegSpec := [
  ⟨0x2800000, [],
    [⟨F.SIL_CTRL_WINDOW, .rw, .l, 1⟩,
     ⟨F.SIL_CTRL_HYST, .rw, .l, 50⟩]⟩,
  ⟨0x2800010, [],
    [⟨F.SIL_MON_ALARM_ALARM, .w1c, .l, 0⟩]⟩,
  ⟨0x2800018, [],
    [⟨F.SIL_MON_BELOW_BELOW, .ro, .i, 0⟩]⟩,
  ⟨0x2800020, [],
    [⟨F.SIL_OVR_COUNT_COUNT, .ro, .i, 0⟩]⟩,
  ⟨0x2800028, [],
    [⟨F.SIL_INJECT_GROUP, .rw, .q, 0⟩,
     ⟨F.SIL_INJECT_BIT, .rw, .q, 0⟩,
     ⟨F.SIL_INJECT_PULSES, .rw, .q, 0⟩,
     ⟨F.SIL_INJECT_GO, .w1s, .q, 0⟩]⟩,
  ⟨0x2800100, [(0x8, 5)],
    [⟨F.SIL_OVR_SUMMARY_ANY, .ro, .i, 0⟩]⟩,
  ⟨0x2800400, [(0x8, 50)],
    [⟨F.SIL_MON_STATUS_MARGIN, .ro, .i, 32767⟩,
     ⟨F.SIL_MON_STATUS_MARGIN_MIN, .rc, .i, 32767⟩,
     ⟨F.SIL_MON_STATUS_CADENCE_MIN, .rc, .i, 65535⟩,
     ⟨F.SIL_MON_STATUS_CADENCE, .ro, .i, 0⟩]⟩,
  ⟨0x2800600, [(0x8, 50)],
    [⟨F.SIL_MON_REQ_REQUIRED, .ro, .i, 0⟩]⟩]

/-- Rows of block SIL. -/
def regsSil1 : List RegSpec := [
  ⟨0x2800800, [(0x8, 50)],
    [⟨F.SIL_MON_THRESH_THRESHOLD, .rw, .l, 0⟩]⟩,
  ⟨0x2801000, [(0x8, 273)],
    [⟨F.SIL_OVR_FLAG, .w1c, .l, 0⟩]⟩]

/-- A part of the field map: registers, and the lowest and the highest offset that one of them has. -/
structure RegBlock where
  lo : Nat
  hi : Nat
  rows : List RegSpec

/-- The field map in parts, so that a lookup passes over the parts that an offset is not in. -/
def regBlocks : List RegBlock := [
  ⟨0x0, 0x38, regsGlb0⟩,
  ⟨0x40, 0x40, regsGlb1⟩,
  ⟨0x10000, 0x13FE0, regsHif0⟩,
  ⟨0x12008, 0x1FFF8, regsHif1⟩,
  ⟨0x20000, 0x204F8, regsCmd0⟩,
  ⟨0x20800, 0x209F8, regsCmd1⟩,
  ⟨0x40000, 0x41FF8, regsCfg0⟩,
  ⟨0x80000, 0x81588, regsPwr0⟩,
  ⟨0xC0000, 0xC13F8, regsThm0⟩,
  ⟨0x100000, 0x100038, regsTim0⟩,
  ⟨0x100040, 0x120020, regsTim1⟩,
  ⟨0x110008, 0x120038, regsTim2⟩,
  ⟨0x180000, 0x1805E8, regsSec0⟩,
  ⟨0x1C0000, 0x1C0288, regsLdg0⟩,
  ⟨0x1C1000, 0x1C1FF8, regsLdg1⟩,
  ⟨0x200000, 0x2002F8, regsCnt0⟩,
  ⟨0x400000, 0x4FF828, regsPrt0⟩,
  ⟨0x400130, 0x501FF8, regsPrt1⟩,
  ⟨0x800000, 0x800038, regsFwd0⟩,
  ⟨0x800040, 0x8027F8, regsFwd1⟩,
  ⟨0x804000, 0x807FF8, regsFwd2⟩,
  ⟨0xC00000, 0xC009F8, regsSwc0⟩,
  ⟨0xC01000, 0xC0BFF8, regsSwc1⟩,
  ⟨0x1000000, 0x11C0038, regsBsn0⟩,
  ⟨0x1001000, 0x11C63F8, regsBsn1⟩,
  ⟨0x1400000, 0x1703DF8, regsTen0⟩,
  ⟨0x1800000, 0x1800038, regsSpl0⟩,
  ⟨0x1800040, 0x18017F0, regsSpl1⟩,
  ⟨0x1800808, 0x182FFF8, regsSpl2⟩,
  ⟨0x1C00000, 0x1CF8308, regsOpt0⟩,
  ⟨0x2000000, 0x2000138, regsMem0⟩,
  ⟨0x2000200, 0x20017F8, regsMem1⟩,
  ⟨0x2400000, 0x2400038, regsPln0⟩,
  ⟨0x2400040, 0x2400078, regsPln1⟩,
  ⟨0x2400100, 0x2407FE8, regsPln2⟩,
  ⟨0x2800000, 0x2800788, regsSil0⟩,
  ⟨0x2800800, 0x2801880, regsSil1⟩]

/-- All registers, in the order of their offsets. -/
def regTable : List RegSpec := regBlocks.flatMap RegBlock.rows

end Sys2Proof.Machine
end

