-- ==== Sys2Proof/Machine/Sparse.lean ====
section
/-! DEFINITION. Sparse data in one canonical form: pairs with strictly rising keys, none equal to what an
unlisted key reads as. -/

namespace Sys2Proof.Machine

/-- Pairs of a key and a value (keys strictly rising, no value equal to the default). -/
abbrev Sparse (α : Type) := List (Nat × α)

/-- Read a key; an unlisted key reads the default. -/
def sget {α : Type} (d : α) : Sparse α → Nat → α
  | [], _ => d
  | (k, v) :: t, n => if n = k then v else sget d t n

/-- Remove a key. -/
def sdel {α : Type} : Sparse α → Nat → Sparse α
  | [], _ => []
  | (k, v) :: t, n => if n = k then t else (k, v) :: sdel t n

/-- Insert a pair at its place, in the stead of the key's old value. -/
def sput {α : Type} : Sparse α → Nat → α → Sparse α
  | [], n, x => [(n, x)]
  | (k, v) :: t, n, x =>
    if n < k then (n, x) :: (k, v) :: t else if n = k then (k, x) :: t else (k, v) :: sput t n x

/-- Write a key: the default value removes the entry, so equal contents are equal data. -/
def sset {α : Type} [DecidableEq α] (d : α) (m : Sparse α) (n : Nat) (x : α) : Sparse α :=
  if x = d then sdel m n else sput m n x

/-- Keys strictly rising, all above a bound, no value equal to what its key reads as when unlisted. -/
def swfFrom {α : Type} [DecidableEq α] (d : Nat → α) : Option Nat → Sparse α → Bool
  | _, [] => true
  | lo, (k, v) :: t => (lo.all fun l => decide (l < k)) && decide (v ≠ d k) && swfFrom d (some k) t

/-- The canonical form, for a default that may depend on the key. -/
def swf {α : Type} [DecidableEq α] (d : Nat → α) (m : Sparse α) : Bool := swfFrom d none m

end Sys2Proof.Machine
end

