-- ==== Sys2Proof/Machine/Regs.lean ====
section
/-! DEFINITION. Looking a BAR0 offset up in the register table: its row, its reset value, and the bits of each access
code and class. -/

namespace Sys2Proof.Machine

/-- Whether a distance from an array's base is that of one of its elements. -/
def onDims : Nat → List (Nat × Nat) → Bool
  | d, [] => d == 0
  | d, (stride, count) :: t => decide (d / stride < count) && onDims (d % stride) t

/-- The row of the register at an offset; none for a reserved offset (spec/00 R14). -/
def findRegIn : List RegSpec → Nat → Option RegSpec
  | [], _ => none
  | r :: t, off => if decide (r.base ≤ off) && onDims (off - r.base) r.dims then some r else findRegIn t off

/-- The row of the register at an offset, among parts of the field map. -/
def findRegBlocks : List RegBlock → Nat → Option RegSpec
  | [], _ => none
  | b :: t, off =>
    if decide (b.lo ≤ off) && decide (off ≤ b.hi) then
      match findRegIn b.rows off with
      | some r => some r
      | none => findRegBlocks t off
    else findRegBlocks t off

/-- The row of the register at an offset. -/
def findReg (off : Nat) : Option RegSpec := findRegBlocks regBlocks off

/-- The bits of a field. -/
def Fld.mask (f : Fld) : BitVec 64 := BitVec.ofNat 64 ((2 ^ f.w - 1) * 2 ^ f.lo)

/-- A number placed in a field, cut to the field's width. -/
def Fld.put (f : Fld) (v : Nat) : BitVec 64 := BitVec.ofNat 64 (v % 2 ^ f.w * 2 ^ f.lo)

/-- A field of a word. -/
def Fld.get (f : Fld) (x : BitVec 64) : Nat := x.toNat / 2 ^ f.lo % 2 ^ f.w

/-- A word with one field replaced. -/
def Fld.set (f : Fld) (x : BitVec 64) (v : Nat) : BitVec 64 := x &&& ~~~f.mask ||| f.put v

/-- The reset value that a field map states field by field. -/
def RegSpec.resetWord (r : RegSpec) : BitVec 64 := r.fields.foldl (fun x f => x ||| f.fld.put f.rst) 0

/-- The bits of the fields that meet a condition. -/
def RegSpec.bits (r : RegSpec) (p : FieldSpec → Bool) : BitVec 64 :=
  r.fields.foldl (fun x f => if p f then x ||| f.fld.mask else x) 0

/-- The required cadence of a monitor (spec/02 Tables 2.2 and 2.3); 0 for kind "—". -/
def monRequired (n : Nat) : Nat :=
  if n < 28 then (if n % 7 < 4 then 1700 else if n % 7 = 4 then 1450 else 1563) else 0

/-- The threshold of a monitor at reset (spec/02 Table 2.3); 0x8000, disabled, for kind "—". -/
def monThreshold (n : Nat) : Nat :=
  if n < 28 then (if n % 7 < 4 then 0 else if n % 7 = 4 then 1000 else 500) else 0x8000

/-- The class of each DSCP at reset: DSCP div 8 (spec/07 Table 7.19). -/
def dscpMapReset (w : Nat) : Nat :=
  [0x1111111100000000, 0x3333333322222222, 0x5555555544444444, 0x7777777766666666].getD w 0

/-- The reset value of the register at an offset: the field map's, and where the map gives it by index, or names a
value fixed in the module (the fused identity, the factory latencies), that value. -/
def resetWord (off : Nat) : BitVec 64 :=
  if off = R.GLB_ID then Config.moduleIdentity
  else if decide (R.FWD_DSCP_MAP 0 ≤ off) && decide (off ≤ R.FWD_DSCP_MAP 3) then
    BitVec.ofNat 64 (dscpMapReset ((off - R.FWD_DSCP_MAP 0) / 8))
  else match findReg off with
    | none => 0
    | some r =>
      if r.base = R.TIM_PORT_LAT 0 then Config.factoryLatency ((off - r.base) / 32) 0
      else if r.base = R.SIL_MON_REQ 0 then BitVec.ofNat 64 (monRequired ((off - r.base) / 8))
      else if r.base = R.SIL_MON_THRESH 0 then BitVec.ofNat 64 (monThreshold ((off - r.base) / 8))
      else if r.base = R.SWC_SCHED_PROFILE 0 0 ∧ 6 ≤ (off - r.base) / 8 % 8 then
        F.SWC_SCHED_PROFILE_STRICT.set r.resetWord 1
      else r.resetWord

end Sys2Proof.Machine
end

