-- ==== Sys2Proof/Machine/State.lean ====
section
/-! DEFINITION. The state of the module: every register of BAR0 in one store, and every piece of state the spec gives the
machine beside its registers, as plain data; the reasons a step can stop; the state at reset. INVENTORY.md lists each
field with its rule and its reset value. -/

namespace Sys2Proof.Machine

/-! ## Board connector and lasers (spec/01) -/

/-- The place in the power sequences of spec/01 R38 to R43. -/
inductive PowerPlace where
  | off | charging | alwaysOn | running | moduleReset | powerDown | powerFail
  deriving DecidableEq, Repr

/-- Pins of Table 1.6 and the sequencing state of spec/01 R38 to R43. `modRstN` and `perstN` are the levels the board drives;
`straps` what it drove when MOD_RST_N last rose; `lasMux` the channel-select registers of the laser multiplexers, by address
(spec/01 R34). -/
structure Board where
  pairA : Bool := false
  pairB : Bool := false
  pwrEn : Bool := false
  pfailN : Bool := true
  modRstN : Bool := false
  perstN : Bool := false
  lasIntN : Bool := true
  ppsIn : Bool := false
  straps : BitVec 6 := 0
  pwrGood : Bool := false
  thermN : Bool := true
  alertN : Bool := true
  ppsOut : Bool := false
  place : PowerPlace := .off
  tripLatch : Bool := false
  lasMux : Sparse Byte := []
  deriving DecidableEq, Repr

/-- The output of a laser source (spec/01 R35; spec/14 Table 14.3). -/
inductive LaserLevel where
  | off | checking | ramping | setpoint | lowered
  deriving DecidableEq, Repr

/-- A transfer on LAS_I3C, of which the module is the only controller (spec/01 R29, R34): a write of a multiplexer's
channel-select register, or a CMIS access at 0x50 to the source that the selected channel reaches: its readings, or its
output level. -/
inductive LasXfer where
  | select (addr : Nat) (channels : Byte)
  | cmisRead (addr : Nat)
  | cmisLevel (addr : Nat) (level : LaserLevel)
  deriving DecidableEq, Repr

/-- A laser source as the module knows it (spec/01 R34 to R37). `passed` is the serial number that last passed
its pairing check, `report` the engine a misrouted source reached;
`barred` says that the source waits for an operator to clear a report of R37; `relight` that the rings of its engine have not
locked again since its light was lost (spec/06 R190). -/
structure Laser where
  present : Bool := false
  serial : BitVec 32 := 0
  passed : Option (BitVec 32) := none
  paired : Bool := false
  level : LaserLevel := .off
  lightLost : Bool := false
  relight : Bool := false
  report : Option (Fin 32) := none
  barred : Bool := false
  temp : BitVec 16 := 0
  bias : BitVec 16 := 0
  power : BitVec 16 := 0
  flags : BitVec 16 := 0
  deriving DecidableEq, Repr

/-! ## Sills (spec/02) -/

/-- A count or event sill (spec/02 R57, R58): accumulator, pending acknowledge, value in transfer, pulses of the
acknowledge phase, the count at the destination, and how many of the accumulated pulses were injected (R63). -/
structure Sill where
  acc : Nat := 0
  busy : Bool := false
  inFlight : Nat := 0
  phase : Nat := 0
  dest : Nat := 0
  injected : Nat := 0
  deriving DecidableEq, Repr

/-! ## Host interface (spec/03) -/

/-- What the module sends on CXL.cache and CXL.mem, and its answers to register, peg and memory reads. -/
inductive CxlMsg where
  | rdShared (addr : Word)
  | rdCurr (addr : Word)
  | rspIHitSE (r : Nat)
  | bisnpInv (line : Nat)
  | memData (addr : Word) (data : Bytes) (poison : Bool)
  | memDone (addr : Word)
  | barData (bar : Nat) (offset : Nat) (v : Word)
  | barDone (bar : Nat) (offset : Nat)
  deriving DecidableEq, Repr

/-- What the module has sent, oldest first: writes to host memory, MSI-X messages, CXL messages, frames on fabric
ports, messages on the management ports, mailbox and MCTP answers, those of MCTP messages with their binding (true HOST_I3C), transfers on LAS_I3C. -/
structure Outbox where
  hostWrites : List (Word × Bytes) := []
  msix : List Nat := []
  cxl : List CxlMsg := []
  frames : List (Nat × Bytes) := []
  mgmt : List (Nat × Bytes) := []
  mailbox : List Bytes := []
  mctp : List (Bool × Bytes) := []
  las : List LasXfer := []
  deriving DecidableEq, Repr

/-- The watched line of a ring and its fetches (spec/03 R73, R75): the last tail seen, whether the line is held Shared or being
read, whether a snoop came while it was being read, whether its first read is still to come, the index up to which descriptors are published, and fetches in flight. -/
structure Ring where
  lastTail : BitVec 32 := 0
  shared : Bool := false
  reading : Bool := false
  again : Bool := false
  first : Bool := false
  limit : BitVec 32 := 0
  inFlight : Nat := 0
  deriving DecidableEq, Repr

/-- The stage of a work item (spec/03 R77, R80; spec/04 Table 4.20). -/
inductive Stage where
  | fetched | parked | queued | started | done
  deriving DecidableEq, Repr

/-- A work item (spec/03 R77): its descriptor, and, once done, what its completion record holds. -/
structure Item where
  id : Nat
  ring : Nat
  index : BitVec 32
  bytes : Bytes
  stage : Stage := .fetched
  cq : Nat := 0
  domain : BitVec 12 := 0
  status : Nat := 0
  detail : Nat := 0
  result : Word := 0
  trusted : Bool := true
  discard : Bool := false
  aborting : Option (BitVec 16) := none
  collective : Option Nat := none
  hit : Bool := false
  runLimit : Nat := 0
  deriving DecidableEq, Repr

/-- Host interface state beside its registers; `runQueue` holds admitted RUN items in admission order (spec/03 R80), `ideBroken` says
that an IDE failure has made the link unusable (Table 3.13), `eid` is the MCTP endpoint ID of CXL.io (0) and HOST_I3C (1) (R89),
`msixTable` the 32-bit words of the MSI-X table (R69). -/
structure HostIf where
  d3hot : Bool := false
  rings : Sparse Ring := []
  items : List Item := []
  nextItem : Nat := 0
  runQueue : List Nat := []
  cqHost : Sparse (BitVec 32) := []
  snoopFilter : List Nat := []
  aerInternal : Bool := false
  rasUncorrectable : Bool := false
  viral : Bool := false
  mailEvents : List Bytes := []
  lastServed : Sparse Nat := []
  ideBroken : Bool := false
  eid : Sparse Byte := []
  msixTable : Sparse (BitVec 32) := []
  deriving DecidableEq, Repr

/-! ## Daxran contexts (spec/04) -/

/-- CMD_CTX.STATE codes (spec/04 Table 4.27), for contexts of every profile. -/
inductive CtxStatus where
  | free | loading | running | waiting | stopping
  deriving DecidableEq, Repr

/-- What a context waits for at a PEG wait (spec/04 R110, R112); `hit` once an operation has left a value that satisfies
it. -/
structure PegWait where
  peg : Nat
  value : Word
  eq : Bool
  timer : BitVec 32
  hit : Bool := false
  deriving DecidableEq, Repr

/-- A context (spec/04 R95, R96). `code` is the instruction store's copy or the image's code; `image` names the entry
of the verified-image table in use; `slotPeg` fields are those of T and B contexts. -/
structure Context where
  status : CtxStatus := .free
  pc : Nat := 0
  domain : BitVec 12 := 0
  g : Sparse Word := []
  p : BitVec 8 := 0
  bindOn : Bool := false
  bindPeg : BitVec 16 := 0
  far : Sparse Word := []
  timeout : BitVec 32 := 0
  fflags : BitVec 5 := 0
  rngKey : Word := 0
  rngCtr : BitVec 128 := 0
  faultPeg : BitVec 16 := 0
  incarnation : BitVec 32 := 0
  farSeq : Sparse (BitVec 32) := []
  code : List Word := []
  data : Bytes := []
  image : Option (Word × BitVec 32) := none
  version : BitVec 8 := 0
  item : Option Nat := none
  starter : Option Nat := none
  wait : Option PegWait := none
  stalled : Bool := false
  endIssued : Bool := false
  runLimit : Nat := 0
  needsCheck : Bool := false
  deriving DecidableEq, Repr

/-- An entry of the verified-image table (spec/04 R132). -/
structure ImageEntry where
  image : Word
  headerCrc : BitVec 32
  profile : BitVec 8
  signed : Bool
  code : List Word
  data : Bytes
  flushed : Bool := false
  deriving DecidableEq, Repr

/-- A register that a long operation locks (spec/04 R100): set (0 g, 1 v, 2 t, 3 a) and number. -/
structure Lock where
  set : Nat
  num : Nat
  deriving DecidableEq, Repr

/-- What a long operation does when it completes, with the operands captured at issue (spec/04 R99). -/
inductive LongKind where
  | move (src dst : Nat) (srcAddr dstAddr : Word) (bytes : Nat)
  | fill (space : Nat) (addr : Word) (value : Word) (width count : Nat)
  | xmove (into : Bool) (target : Word) (localAddr : Word) (dev : Word) (bytes : Nat) (space : Nat)
  | tdma (bank table row : Nat) (src : Word) (bytes : Nat) (space : Nat)
  | vload (v : Nat) (space : Nat) (addr : Word) (width count : Nat)
  | vstore (data : Bytes) (space : Nat) (addr : Word)
  | tload (t : Nat) (space : Nat) (addr : Word)
  | tstore (data : Bytes) (space : Nat) (addr : Word)
  | areg (a : Nat) (value : BitVec 32768) (flags : BitVec 5)
  | treg (t : Nat) (value : BitVec 32768) (flags : BitVec 5)
  | vreg (v : Nat) (value : BitVec 2048) (flags : BitVec 5)
  | send (port : Nat) (tile : Bytes)
  | recv (port : Nat) (t : Nat)
  | recvm (port : Nat) (space : Nat) (addr : Word)
  | sendm (port : Nat) (space : Nat) (addr : Word)
  | farPeg (slot : Nat) (target : Word) (seq : BitVec 32) (peg : BitVec 16) (set : Bool) (value : Word) (tries : Nat)
      (outcome : Option Nat)
  | cacc (chunk : Nat) (addr : Nat)
  | cemit (chunk : Nat) (addr : Nat)
  | cgath (chunk : Nat)
  | capply (chunk : Nat) (addr : Nat) (channel : Nat)
  | cbar (step : Nat)
  | cring (step : Nat)
  deriving DecidableEq, Repr

/-- An outstanding long operation (spec/04 R99 to R101): its number, context and issuing index, the peg its completion
adds to, the registers it locks, whether it has its effect and only its completion remains, and the failure it met. -/
structure LongOp where
  id : Nat
  ctx : Ctx
  index : Nat
  kind : LongKind
  peg : Option (BitVec 16) := none
  locks : List Lock := []
  failed : Option Nat := none
  deriving DecidableEq, Repr

/-- What a stream port is bound to (spec/04 R106, spec/10 R290, R291). -/
inductive Binding where
  | neighbour
  | channelIn (e : Nat) (ch : Nat)
  | channelOut (e : Nat) (ch : Nat)
  | dma (stream : Nat)
  deriving DecidableEq, Repr

/-- A stream port: its bindings and the tiles buffered at its receiving end (spec/04 R107). A port bound to a Basin
channel at both ends of a one-stage truss is two ports, so one binding a port is enough. -/
structure StreamPort where
  bound : Option Binding := none
  rx : List Bytes := []
  deriving DecidableEq, Repr

/-- Daxran state beside the registers: contexts, long operations, pegs, tenon stores. -/
structure Dxn where
  ctxs : Sparse Context := []
  longOps : List LongOp := []
  nextOp : Nat := 0
  incarnations : BitVec 32 := 0
  images : List ImageEntry := []
  pegs : Sparse Word := []
  pegOwner : Sparse (BitVec 12) := []
  scratchC : Sparse Byte := []
  scratchB : Sparse Byte := []
  vregs : Sparse (BitVec 2048) := []
  tregs : Sparse (BitVec 32768) := []
  aregs : Sparse (BitVec 32768) := []
  localStore : Sparse Byte := []
  streams : Sparse StreamPort := []
  deriving DecidableEq, Repr

/-! ## Ports (spec/06) -/

/-- The outcome of negotiation (spec/06 R176). `fc` 0 means NO_COMMON_FC. -/
structure Outcome where
  wlx : Nat
  fc : Nat
  vcs : Nat
  hfh : Nat
  spill : Bool
  ts : Bool
  burst : Bool
  maxFrame : Nat
  deriving DecidableEq, Repr

/-- An Agreement TLV (spec/06 Table 6.12). -/
structure Agreement where
  wlx : Nat
  fc : Nat
  vcs : Nat
  hfh : Nat
  flags : Nat
  echo : BitVec 16
  maxFrame : Nat
  deriving DecidableEq, Repr

/-- What a partner's WLX TLVs say (spec/06 Tables 6.9 to 6.12). -/
structure Wlx where
  version : Nat := 0
  role : Nat := 0
  nonce : BitVec 16 := 0
  identity : Word := 0
  port : Nat := 0
  fc : Nat := 0
  vcMax : Nat := 0
  hfh : Nat := 0
  flags : Nat := 0
  maxFrame : Nat := 0
  acquire : Nat := 0
  credits : List (BitVec 32) := []
  agreement : Option Agreement := none
  deriving DecidableEq, Repr

/-- A port slot beside its registers (spec/06 R177 to R189): the exchange (own NONCE, the partner's TLVs, the NONCE answered,
the outcome computed and the partner's Agreement, differences within one lock, stopped, complete), the partner before a
hold, credits by VC (INIT and RETURNED of the partner, cells freed and received, own INIT), whether a credit frame is
owed, its sequence, stomps sent, classes paused, disregarding pauses and under XOFF, a received frame with an inverted FCS,
whether the port has agreed since ENABLE and whether DISC_TIMEOUT has passed since then, the state it has beside LENT, whether
it waits for the window of a slotted lane, whether its lane was lent in the slot before the present one, and whether an LLDP
frame waits for a window. -/
structure Port where
  ownNonce : BitVec 16 := 0
  partner : Option Wlx := none
  answered : BitVec 16 := 0
  outcome : Option Outcome := none
  theirs : Option Agreement := none
  differences : Nat := 0
  negStopped : Bool := false
  complete : Bool := false
  holdId : Word := 0
  holdPort : Nat := 0
  holdRunning : Bool := false
  absent : Bool := false
  init : Sparse (BitVec 32) := []
  returned : Sparse (BitVec 32) := []
  freed : Sparse (BitVec 32) := []
  received : Sparse (BitVec 32) := []
  ownInit : Sparse (BitVec 32) := []
  owes : Bool := false
  creditSeq : BitVec 16 := 0
  stomps : BitVec 32 := 0
  paused : BitVec 8 := 0
  stormed : BitVec 8 := 0
  xoff : BitVec 8 := 0
  badFcs : Bool := false
  met : Bool := false
  limitPassed : Bool := false
  ordinary : Nat := 0
  shut : Bool := false
  lentBefore : Bool := false
  lldpDue : Bool := false
  deriving DecidableEq, Repr

/-! ## Forwarding tables (spec/07) -/

/-- A learned MAC entry (spec/07 R212). -/
structure MacEntry where
  mac : BitVec 48
  vlan : BitVec 12
  port : Nat
  refreshed : Nat
  deriving DecidableEq, Repr

/-- A requester stream of the far-peg target (spec/07 R218): `refused` holds the sequences of H-255 to H refused. -/
structure FarStream where
  sender : Word
  agent : BitVec 4
  who : BitVec 16
  slot : Nat
  incarnation : BitVec 32
  h : BitVec 32
  refused : List (BitVec 32) := []
  lastAt : Nat := 0
  deriving DecidableEq, Repr

/-- The place of the shadow compare: table, bank, row. -/
structure RowRef where
  table : Nat
  bank : Nat
  row : Nat
  deriving DecidableEq, Repr

/-- Forwarding state beside the registers. Rows are little-endian numbers keyed by `rowKey`. -/
structure Fwd where
  rows : Sparse Nat := []
  pendingRows : List (Nat × Nat) := []
  invalid : List Nat := []
  broken : List (Nat × Nat × Nat) := []
  mac : List MacEntry := []
  groupLast : Sparse Nat := []
  flipAt : Nat := 0
  retireAge : Nat := 0
  walk : RowRef := ⟨1, 0, 0⟩
  rechecks : List RowRef := []
  farStreams : List FarStream := []
  deriving DecidableEq, Repr

/-! ## Switch core (spec/08) -/

/-- How a stored frame reads its egress tables (spec/07 R193, R199, R205): by next hop in the bank of its epoch, as the next
hop of a group's member, as a multicast copy, sent on one port without lookup, as a bridged frame of a VLAN, as it stands,
or as a mirror copy. -/
inductive Egress where
  | nextHop (index : Nat)
  | group (index : Nat) (hop : Nat)
  | mcast
  | direct
  | bridged (vlan : Nat)
  | asIs
  | mirror
  deriving DecidableEq, Repr

/-- A stored frame (spec/08 R223, R226, R236, R238), without its FCS. `ingress` is a port index, or 2048 + q for the internal
port of quadrant q; `quad` is the quadrant whose buffer holds it; its cells are counted under reservation, shared pool and
headroom; `refs` counts the pointers and transfers that name it; `stamp` is its ageing instant in ns; `copies` counts its
mirror copies; `bad` marks the copy of a stomped frame by its reason; `control` a forwarded control frame (R241). -/
structure Stored where
  id : Nat
  bytes : Bytes
  ingress : Nat
  cls : Nat
  egress : Egress
  epoch : Nat
  stamp : Nat
  hfh : Nat
  routed : Bool
  quad : Nat
  refs : Nat
  res : Nat := 0
  shared : Nat := 0
  head : Nat := 0
  capture : TimeStamp := 0
  copies : Nat := 0
  bad : Nat := 0
  control : Bool := false
  deriving DecidableEq, Repr

/-- How a frame from inside the module leaves: by lookup, on one port without lookup, or through a multicast group
(spec/09 R251, spec/08 R224). -/
inductive InnerRoute where
  | lookup
  | port (p : Nat)
  | mcast (g : Nat)
  deriving DecidableEq, Repr

/-- A frame at an internal port (spec/08 R224). -/
structure Inner where
  cls : Nat
  bytes : Bytes
  route : InnerRoute
  deriving DecidableEq, Repr

/-- An entry of an egress or transfer queue (spec/08 R228): the frame and the instant it was placed. -/
structure QEntry where
  frame : Nat
  placed : Nat
  deriving DecidableEq, Repr

/-- A cell queued on a mesh link (spec/08 R229): its stream and number, its egress quadrant, and whether it is relayed. -/
structure MeshCell where
  key : Nat
  seq : BitVec 16
  dest : Nat
  relayed : Bool
  deriving DecidableEq, Repr

/-- What crosses the mesh: a frame placed on its egress queue, a multicast copy whose targets are admitted when it is over, or a
frame whose port has gone and that has been moved to another (spec/08 R228, R236, R237). -/
inductive CrossKind where
  | unicast | copy | moved
  deriving DecidableEq, Repr

/-- A frame that crosses the mesh (spec/08 R228, R229, R231): the copy in the egress quadrant, the copy it comes from, its
cells' numbers, those still missing, whether it was set aside or is lost, and its target ports. -/
structure Crossing where
  frame : Nat
  source : Nat
  first : BitVec 16
  cells : Nat
  missing : List (BitVec 16)
  aside : Bool := false
  lost : Bool := false
  targets : List Nat
  kind : CrossKind := .unicast
  deriving DecidableEq, Repr

/-- A resequencer with its sender's count (spec/08 R229, R231). -/
structure Reseq where
  sent : BitVec 16 := 0
  next : BitVec 16 := 0
  held : List (BitVec 16) := []
  crossings : List Crossing := []
  deriving DecidableEq, Repr

/-- A frame that is being cut through (spec/08 R233, R234), as it is sent (without FCS); `bad` holds a reason of Table 6.16
already known. -/
structure Sending where
  frame : Stored
  bytes : Bytes
  bad : Nat := 0
  deriving DecidableEq, Repr

/-- A sample passed to the Wellhead (spec/08 R245): header bytes, frame length, input port, output or 2^30 for a discard,
sampler (a port index, or 2048 + q), rate. -/
structure Sample where
  header : Bytes
  length : Nat
  input : Nat
  output : Nat
  sampler : Nat
  rate : Nat
  deriving DecidableEq, Repr

/-- Switch-core state beside the registers; `retraining` lists die-to-die channels being retrained (spec/02 Table 2.6), as
64 × link + 32 × end + channel; `mesh` holds the cells queued on each mesh link, by 4 × from + to; `orphans` and `strays` what the
last audit pass found that nothing names or owns (R240); `lost` counts cells of frames lost with their buffer bay (spec/14 Table
14.5), by quadrant. -/
structure Swc where
  frames : List Stored := []
  nextFrame : Nat := 0
  queues : Sparse (List QEntry) := []
  transfers : Sparse (List QEntry) := []
  internal : Sparse (List Inner) := []
  deficits : Sparse Nat := []
  turn : Sparse Nat := []
  sending : Sparse Sending := []
  reseqs : Sparse Reseq := []
  mesh : Sparse (List MeshCell) := []
  gaps : Sparse Nat := []
  samples : List Sample := []
  sampleSeq : Sparse Nat := []
  sflowSeq : Nat := 0
  ageInForce : Nat := 2000
  orphans : List Nat := []
  strays : List Nat := []
  retraining : List Nat := []
  lost : Sparse Nat := []
  deriving DecidableEq, Repr

/-! ## Basin engines (spec/09) -/

/-- The phase of a chunk of an operation (spec/09 Table 9.11, Table 9.12). -/
inductive ChunkPhase where
  | idle | accumulating | accumulated | handed | writing | written | retained | emitted
  deriving DecidableEq, Repr

/-- A chunk of an active operation (spec/09 R258, R260, R280): phase, next offset of each member, members complete,
CACCs issued, the accumulators' byte offset, gap requests sent with their instants, an ALL_GATHER owner's payloads, WRITE_MAP
state, and how many factors a cross-hall projection returned. -/
structure Chunk where
  phase : ChunkPhase := .idle
  expected : Sparse Nat := []
  caccs : Nat := 0
  addr : Nat := 0
  gaps : List (Nat × Nat) := []
  owner : List Bytes := []
  writeMap : Nat := 0
  factors : Nat := 0
  started : Bool := false
  deriving DecidableEq, Repr

/-- A collective frame as steered to an engine (spec/07 R198, spec/09 R257): ingress port, HFH version and fields,
payload header fields and payload, and the stored frame that holds it (spec/08 R226, spec/09 R261). -/
structure CollFrame where
  port : Nat
  hfhVersion : Nat
  domain : Nat
  group : Nat
  operation : Nat
  chunk : Nat
  format : Nat
  kind : Nat
  version : Nat
  member : Nat
  opSeq : Nat
  code : Nat
  offset : Nat
  count : Nat
  sealCrc : Nat
  payload : Bytes
  cells : Nat
  stored : Nat
  deriving DecidableEq, Repr

/-- An operation slot beside its state word in BSN_SLOT (spec/09 R255, R256, R272 to R275). -/
structure Slot where
  record : Bytes := []
  origin : Nat := 0xFFFF
  detail : Nat := 0
  starter : Option Nat := none
  chunks : Sparse Chunk := []
  early : List CollFrame := []
  dropped : List (Nat × Nat) := []
  arrivals : List (Nat × Nat) := []
  stepDone : List (Nat × Nat) := []
  curStep : Nat := 0
  reportsClosed : Bool := false
  closed : Bool := false
  deriving DecidableEq, Repr

/-- A retained chunk (spec/09 R269, R270). -/
structure Retained where
  e : Nat
  group : Nat
  opSeq : Nat
  chunk : Nat
  bytes : Nat
  sealCrc : Nat
  addr : Nat
  deriving DecidableEq, Repr

/-- The end of an operation that an engine remembers: for an abort, the code it answers with (spec/09 R274); for a
completed one, what a late abort needs (spec/09 R270, R275); `starter` is the work item whose program started it. -/
structure EndedOp where
  e : Nat
  group : Nat
  opSeq : Nat
  code : Nat
  slot : Nat
  record : Bytes
  outcome : Bytes
  emitted : List Nat := []
  starter : Option Nat := none
  deriving DecidableEq, Repr

/-- The engine's own copy of a group (spec/09 R250, R251). -/
structure GroupCopy where
  members : List Word := []
  template : Bytes := []
  deriving DecidableEq, Repr

/-- A dispute record (spec/09 R277, spec/17 R451). -/
structure Dispute where
  group : Nat
  opSeq : Nat
  member : Nat
  deriving DecidableEq, Repr

/-- Basin state beside the registers. -/
structure Bsn where
  slots : Sparse Slot := []
  accum : Sparse Byte := []
  inbox : Sparse (List CollFrame) := []
  retained : List Retained := []
  ended : List EndedOp := []
  groups : Sparse GroupCopy := []
  disputes : List Dispute := []
  deriving DecidableEq, Repr

/-! ## Trusses (spec/10) -/

/-- A bound truss (spec/10 R294, R295): its descriptor and stages; the rest is in TEN_TRUSS. -/
structure Truss where
  descriptor : Bytes := []
  stages : List (Nat × Nat) := []
  deriving DecidableEq, Repr

/-- A DMA stream (spec/10 R291). -/
structure DmaStream where
  tenonPort : Nat
  inbound : Bool
  addr : Nat
  tiles : Nat
  done : Nat := 0
  donePeg : BitVec 16 := 0
  wrap : Bool := false
  truss : Nat
  stopped : Bool := false
  readError : Bool := false
  deriving DecidableEq, Repr

/-- A chunk handed on a channel and not yet reported (spec/10 R299 to R301); `rest` holds its tiles that have not reached the
engine's end of the channel. -/
structure Handoff where
  slot : Nat
  opSeq : Nat
  chunk : Nat
  addr : Nat
  handoff : Nat
  op : Nat
  leadDone : Bool := false
  tiles : Nat := 0
  rest : List Bytes := []
  outTiles : Nat := 0
  outDone : Nat := 0
  output : Bytes := []
  format : Nat := 0
  dropped : Bool := false
  deriving DecidableEq, Repr

/-- A Basin channel (spec/10 R290, R299): the truss bound, handed chunks oldest first, the two-tile buffers of the engine's end
inbound and outbound, and the cancel count. -/
structure Channel where
  truss : Option Nat := none
  handed : List Handoff := []
  inbound : List Bytes := []
  outbound : List Bytes := []
  cancels : Word := 0
  deriving DecidableEq, Repr

/-- Truss state beside the registers. -/
structure Trusses where
  trusses : Sparse Truss := []
  streams : Sparse DmaStream := []
  channels : Sparse Channel := []
  deriving DecidableEq, Repr

/-! ## Optics and spillway (spec/11) -/

/-- A circuit request that waits or is being answered (spec/11 R328; spec/17 R447): the four words, and whether the plane's
manager sent it. -/
structure CircuitReq where
  a : Word
  b : Word
  inId : Word
  outId : Word
  plane : Bool
  deriving DecidableEq, Repr

/-- A spillway notice to send in each window of two ports before its instant (spec/11 R334, Table 11.9): KIND, circuit, instant
in ns, wavelength, mask, ports. -/
structure Notice where
  kind : Nat
  circuit : Nat
  at_ : Nat
  w : Nat
  mask : Word
  ports : List Nat
  deriving DecidableEq, Repr

/-- Optics and spillway state beside the registers: rings under a RELOCK, rings that have made an attempt, and the
samples in a row whose detuning declares a lock lost, by ring; faulted elements (plane, stage, index); the paths of
persistent circuits by number, of slotted ones by 64 × number + slot in the active schedule and in one pending; instants in
ns; the present cycle and slot; circuits to withdraw at the next slot boundary with their causes; notices; whether slotted
and persistent circuits are in force by the last decisions, the instant F of one not yet taken, the last closures of either
kind, and whether a wait runs; dark circuits; requests; whether the pending bank has been created since the last flip; and whether
HOLD_MARGIN may be recorded. -/
structure Spl where
  relocking : List Nat := []
  tried : Sparse Bool := []
  detuned : Sparse Nat := []
  holdMarginArmed : Bool := true
  faulted : List (Nat × Nat × Nat) := []
  persPaths : Sparse Nat := []
  slotPaths : Sparse Nat := []
  pendPaths : Sparse Nat := []
  startAt : Nat := 0
  flipAt : Nat := 0
  slot : Nat := 0
  cycle : Nat := 0
  withdraw : List (Nat × Nat) := []
  notices : List Notice := []
  slotUp : Bool := false
  persUp : Bool := false
  changeAt : Option Nat := none
  closedAt : Nat := 0
  persClosedAt : Nat := 0
  pendMade : Bool := false
  recovering : Bool := false
  dark : List Nat := []
  requests : List CircuitReq := []
  deriving DecidableEq, Repr

/-! ## Time (spec/12) -/

/-- A foreign master on a port (spec/12 R352): its last Announce, how many arrived within the window, and when. -/
structure Foreign where
  port : Nat
  msg : PtpMsg
  count : Nat
  lastAt : Nat
  deriving DecidableEq, Repr

/-- PTP exchanges of a port (spec/12 R346, R349): sequence numbers, a two-step Sync that awaits its Follow_Up, the times t1,
t2 and t3 and the mean path delay in 2^-16 ns, whether the port has left LISTENING, and the oscillator's nanosecond at which a port
that was made master qualifies. -/
structure PtpPort where
  syncSeq : BitVec 16 := 0
  announceSeq : BitVec 16 := 0
  delaySeq : BitVec 16 := 0
  waiting : Option (PtpMsg × Int) := none
  t1 : Option Int := none
  t2 : Option Int := none
  t3 : Option Int := none
  delay : Option Int := none
  heard : Bool := false
  preMaster : Nat := 0
  deriving DecidableEq, Repr

/-- Time state beside the registers: base (seconds 48, nanoseconds 32, fraction 16 bits), servo rate offset in 2^-16 ppb,
slew left and carry below the fraction in 10^-9 of 2^-16 ns, consecutive offsets within and beyond the window, the last 16
offsets in 2^-16 ns and rates, and the terms of the holdover estimate: E0 in 2^-16 ns, its instant in ns, the OCXO
temperature and F in 2^-16 ppb. `locked` says that LOCKED was reached since SOURCE last changed, `fromHold` that the
holdover estimate is in force; `osc` counts the oscillator's nanoseconds since power came, which no step of the time base moves. -/
structure Tim where
  base : TimeStamp := 0
  osc : Nat := 0
  rate : Int := 0
  slew : Int := 0
  carry : Int := 0
  within : Nat := 0
  beyond : Nat := 0
  offsets : List Int := []
  rates : List Int := []
  e0 : Nat := 0
  e0At : Nat := 0
  e0Temp : Int := 0
  drift : Nat := 0
  locked : Bool := false
  fromHold : Bool := false
  foreign : List Foreign := []
  ports : Sparse PtpPort := []
  parent : Option PtpMsg := none
  parentPort : Nat := 0
  deriving DecidableEq, Repr

/-! ## Memory (spec/13) -/

/-- Device memory: bytes that differ from zero, runs of poisoned lines [first, end), corrected errors of the last 24 h (row, life second),
patrol places, DIMMs fitted. The rows listed for repair stand in the Ledger. -/
structure Mem where
  bytes : List Host.Cell := []
  poisoned : List (Nat × Nat) := []
  rowErrors : List (Nat × Nat) := []
  scrubHbm : Nat := 0
  scrubDdr : Nat := 0
  dimms : List DimmInfo := []
  deriving DecidableEq, Repr

/-! ## Power and heat (spec/14) -/

/-- Power and thermal state beside the registers. Temperatures are signed, in 0.125 degrees. -/
structure Pwr where
  history : Sparse (List Int) := []
  stepHold : Sparse Nat := []
  below : Sparse Nat := []
  powerPace : Nat := 64
  capSamples : Nat := 0
  limitArmed : Bool := true
  vcoreHigh : Sparse Nat := []
  pace : Sparse Nat := []
  saved : Sparse Nat := []
  waking : List Nat := []
  deriving DecidableEq, Repr

/-! ## Security (spec/15) -/

/-- One copy of the firmware control region: the active bank (0 before any activation), the pending bank, the sequence number, and
whether its CRC-32C is right (spec/15 R400). -/
structure FwControl where
  active : Nat := 0
  pending : Option Nat := none
  seq : Nat := 0
  intact : Bool := true
  deriving DecidableEq, Repr

/-- Security state beside the registers: fuses, banks, control region, transfer, signing, keys, sessions. -/
structure Sec where
  keyRevoked : BitVec 4 := 0
  svnFuse : Nat := 0
  indexEpoch : Nat := 0
  bankA : Bytes := []
  bankB : Bytes := []
  recovery : Bytes := []
  ctlA : FwControl := {}
  ctlB : FwControl := {}
  transfer : Option (Nat × Bytes) := none
  kem : Word := 0
  psk : Sparse (Option (BitVec 384)) := []
  sessions : List (Nat × Nat) := []
  nextSession : Nat := 0
  ideKeys : Sparse Bytes := []
  ideActive : Sparse Nat := []
  deriving DecidableEq, Repr

/-! ## Start-up and configuration (spec/16) -/

/-- What a plumb check decides (spec/16 R428). -/
inductive CheckKind where
  | ringEnable (r : Nat)
  | cqEnable (c : Nat)
  | portEnable (p : Nat)
  | bsnEnable (e : Nat)
  | areasEnable
  | fwdEnable
  | commit (set : Nat)
  | splFlip
  | planeFlip (kind : Nat) (id : BitVec 16)
  | pegAssign
  | tenonAssign (q : Nat)
  | circuit
  deriving DecidableEq, Repr

/-- A plumb check that waits or runs, with the values it captured at its trigger or, for a commit, at its start (spec/16 R426, R428),
and the offset written. -/
structure Check where
  kind : CheckKind
  captured : Sparse Word := []
  offset : Nat := 0
  source : Nat := 0
  domain : BitVec 12 := 0
  dest : Nat := 0
  deriving DecidableEq, Repr

/-- Start-up and configuration state beside the registers. -/
structure Cfg where
  committed : Sparse Word := []
  pendingL : List (Nat × Word) := []
  checks : List Check := []
  romDone : Bool := false
  imageChecked : Bool := false
  t1Passed : Bool := false
  wellheadDown : Bool := false
  draining : Bool := false
  deriving DecidableEq, Repr

/-! ## Plane (spec/17) -/

/-- A plane-wide flip as the manager runs it (spec/17 R446): kind, identifier, the epoch left, the instant of the GO in ns,
participants by worker index (1023 the manager), the READYs with start and length of each active cycle in ns, the DONEs, the
first refusal (participant, reason), the instant T in ns, and whether COMMIT was sent. -/
structure ManagerFlip where
  kind : Nat
  id : BitVec 16
  fromEpoch : BitVec 32
  startedAt : Nat
  participants : List Nat
  ready : List (Nat × Nat × Nat) := []
  done : List Nat := []
  bad : Option (Nat × Nat) := none
  instant : Nat := 0
  committing : Bool := false
  deriving DecidableEq, Repr

/-- A FENCE or UNFENCE that the manager has sent to a worker and that awaits its ACK (spec/17 R449). -/
structure PendingFence where
  id : BitVec 16
  dest : Nat
  unfence : Bool
  body : Bytes
  deriving DecidableEq, Repr

/-- Plane state beside the registers: the listening period and whether a manager was heard in it, whether the manager was lost
since it was last heard, the flip that this manager runs, the flip prepared here (kind, identifier, committed), the last DONE
answered, fences sent and not acknowledged, the seconds of the budget's fences, fences carried out (sender, identifier, ports
changed), events kept, circuit requests answered by TAG, SEQUENCE and identifiers, windows of low load, when each module was
last heard on each port, when this module took its role, the ports of modules recorded as silent, and the circuit requests that the
manager has sent and the answers it has. -/
structure Pln where
  listening : Bool := false
  heardManager : Bool := false
  managerLost : Bool := false
  flip : Option ManagerFlip := none
  prepared : Option (Nat × BitVec 16 × Bool) := none
  lastDone : Option (BitVec 16 × Nat) := none
  fences : List PendingFence := []
  fenceTimes : List Nat := []
  appliedFences : List (Word × BitVec 16 × Nat) := []
  keptEvents : List Bytes := []
  answered : List (BitVec 16 × Bytes) := []
  sequence : BitVec 32 := 0
  flipId : BitVec 16 := 0
  fenceId : BitVec 16 := 0
  coolWindows : Nat := 0
  heard : Sparse Nat := []
  since : Nat := 0
  lostPaths : List Nat := []
  circuits : List (Nat × Bytes) := []
  circuitAnswers : List (Nat × Word) := []
  deriving DecidableEq, Repr

/-! ## Ledger and counters (spec/18) -/

/-- The Ledger (spec/18 R455 to R465): the live STATE bytes, the committed copies, the control record, the journal (entry
k mod 2,064,384 as a 32-byte little-endian number) and its buffer, what a second and an hour gather, whether a GAP entry is
due, and LIFE_S of the committed state. -/
structure Ldg where
  live : Sparse Byte := []
  copyA : Sparse Byte := []
  copyB : Sparse Byte := []
  term : BitVec 32 := 0
  sigNext : Nat := 0
  sigMark : Nat := 0
  repairChanges : Nat := 0
  controlSeq : Nat := 0
  controlOkA : Bool := true
  controlOkB : Bool := true
  journal : Sparse Nat := []
  buffer : List Nat := []
  busy : Bool := false
  again : Bool := false
  fromPfail : Bool := false
  residues : Sparse (List Int) := []
  tempSum : Sparse Int := []
  samples : Nat := 0
  vcoreSum : Sparse Nat := []
  laserHour : Sparse (Int × Int × Int × Nat) := []
  laserFirst : List Nat := []
  memHour : Sparse Nat := []
  corrSecond : Nat := 0
  corrSeconds : List Nat := []
  cadSecond : Option Int := none
  cadSeconds : List (Option Int) := []
  heaterAcc : Sparse Nat := []
  bootedVersions : List Nat := []
  gapDue : Bool := false
  lifeAt : Nat := 0
  deriving DecidableEq, Repr

/-- A counter (spec/18 R467, R468): value, local accumulator, WRAP and LOWER. -/
structure Counter where
  value : Nat := 0
  acc : Nat := 0
  wrap : Bool := false
  lower : Bool := false
  deriving DecidableEq, Repr

/-- A snapshot (spec/18 R470, R471): number, freeze instant, counter words by key, history records skipped, and how it was
asked for. -/
structure Snap where
  seq : Nat := 0
  frozenAt : Word := 0
  words : Sparse Word := []
  skipped : Nat := 0
  notify : Bool := false
  periodic : Bool := false
  deriving DecidableEq, Repr

/-- Counters, the snapshot under construction and the published one, the schedule of freezes in nanoseconds, periodic
snapshots of the series, and the copy under way (destination, first page, pages) (spec/18 R467 to R473). -/
structure Cnt where
  counters : Sparse Counter := []
  building : Option Snap := none
  published : Snap := {}
  nextAt : Nat := 0
  periodMs : Nat := 0
  notify : Bool := false
  series : Nat := 0
  histSkipped : Nat := 0
  copying : Option (Word × Nat × Nat) := none
  deriving DecidableEq, Repr

/-! ## The whole -/

/-- The state of the module and the queue of the commands that wait, first in, first out. -/
structure State where
  regs : Sparse Word := []
  board : Board := {}
  lasers : Sparse Laser := []
  sills : Sparse Sill := []
  injecting : Option (Nat × Nat × Nat) := none
  out : Outbox := {}
  host : HostIf := {}
  dxn : Dxn := {}
  ports : Sparse Port := []
  fwd : Fwd := {}
  swc : Swc := {}
  bsn : Bsn := {}
  ten : Trusses := {}
  spl : Spl := {}
  tim : Tim := {}
  mem : Mem := {}
  pwr : Pwr := {}
  sec : Sec := {}
  cfg : Cfg := {}
  pln : Pln := {}
  ldg : Ldg := {}
  cnt : Cnt := {}
  free : Nat := 0
  pending : List Instr := []
  deriving DecidableEq, Repr

/-- Reasons a step ends in a fault. The spec gives this block no behaviour that stops it: no constructor. -/
inductive Fault where
  deriving DecidableEq, Repr

/-- Reasons a command is refused. -/
inductive Refusal where
  /-- A command that has no meaning yet: raised by an arm of `exec` alone. Safe: nothing is said of that command. -/
  | notModelled (mnemonic : String)
  deriving DecidableEq, Repr

/-- The three outcomes of a command. -/
abbrev Out := Host.Outcome State Fault Refusal

/-- The module before POWER_UP (spec/01 R38): inputs at their pulls, every register at its reset value, no state held, no
command waiting. -/
def State.reset : State :=
  { sec := { bankA := Config.factoryFirmware 1, bankB := Config.factoryFirmware 2, recovery := Config.factoryFirmware 3 } }

end Sys2Proof.Machine
end

