-- ==== Sys2Proof/Machine/Bits.lean ====
section
/-! DEFINITION. Byte order, fields of byte strings, and the checks the spec computes over bytes: CRC-32C (spec/04 R128),
CRC-16 (spec/07 R196) and the Internet checksum (spec/07 R194). -/

namespace Sys2Proof.Machine

/-- A little-endian number (spec/00 R12). -/
def leNat : Bytes → Nat
  | [] => 0
  | b :: t => b.toNat + 256 * leNat t

/-- A number as little-endian bytes. -/
def leBytes : Nat → Nat → Bytes
  | 0, _ => []
  | n + 1, v => BitVec.ofNat 8 v :: leBytes n (v / 256)

/-- A big-endian number (spec/00 R12). -/
def beNat (b : Bytes) : Nat := b.foldl (fun a x => a * 256 + x.toNat) 0

/-- A number as big-endian bytes. -/
def beBytes (n v : Nat) : Bytes := (leBytes n v).reverse

/-- `n` bytes from offset `i`; bytes beyond the end read as zero. -/
def slice (b : Bytes) (i n : Nat) : Bytes :=
  let x := (b.drop i).take n
  x ++ List.replicate (n - x.length) 0

/-- A little-endian field of a byte string. -/
def leAt (b : Bytes) (i n : Nat) : Nat := leNat (slice b i n)

/-- A big-endian field of a byte string. -/
def beAt (b : Bytes) (i n : Nat) : Nat := beNat (slice b i n)

/-- Byte `i` of a string. -/
def byteAt (b : Bytes) (i : Nat) : Nat := (b.getD i 0).toNat

/-- A byte string with the bytes from `i` on replaced. -/
def patch (b : Bytes) (i : Nat) (x : Bytes) : Bytes := b.take i ++ x ++ b.drop (i + x.length)

/-- Whether every byte of a range is zero. -/
def allZero (b : Bytes) (i n : Nat) : Bool := leAt b i n == 0

/-- Bit `i` of a number. -/
def bitOf (x i : Nat) : Bool := x / 2 ^ i % 2 == 1

/-- Bits [hi:lo] of a number. -/
def bitsOf (x hi lo : Nat) : Nat := x / 2 ^ lo % 2 ^ (hi + 1 - lo)

/-- 0 or 1. -/
def b2n (b : Bool) : Nat := if b then 1 else 0

/-- Division rounded up. -/
def ceilDiv (a b : Nat) : Nat := (a + b - 1) / b

/-- The signed value of a number of a width. -/
def signedOf (w : Nat) (n : Nat) : Int := if n % 2 ^ w < 2 ^ (w - 1) then n % 2 ^ w else (n % 2 ^ w : Int) - 2 ^ w

/-- The integer square root by halving an interval of `k` bits: the largest root whose square is at most n. -/
def isqrtFrom (n : Nat) : Nat → Nat → Nat
  | 0, r => r
  | k + 1, r => let c := r + 2 ^ k; isqrtFrom n k (if c * c ≤ n then c else r)

/-- The square root of a number, rounded up. -/
def ceilSqrt (n : Nat) : Nat :=
  let r := isqrtFrom n (Nat.log2 n / 2 + 1) 0
  if r * r < n then r + 1 else r

/-- One bit of a reflected CRC-32C. -/
def crc32cBit (c : Nat) : Nat := if c % 2 = 1 then (c / 2) ^^^ 0x82F63B78 else c / 2

/-- One byte of a reflected CRC-32C. -/
def crc32cByte (c : Nat) (b : BitVec 8) : Nat := Nat.repeat crc32cBit 8 (c ^^^ b.toNat)

/-- CRC-32C of a byte string. -/
def crc32c (b : Bytes) : Nat := (b.foldl crc32cByte 0xFFFFFFFF) ^^^ 0xFFFFFFFF

/-- One bit of CRC-16 with polynomial 0x1021. -/
def crc16Bit (c : Nat) : Nat := if 0x8000 ≤ c then ((c * 2) % 0x10000) ^^^ 0x1021 else c * 2

/-- CRC-16 with polynomial 0x1021, initial value 0xFFFF, no reflection, no final XOR (spec/07 R196). -/
def crc16 (b : Bytes) : Nat := b.foldl (fun c x => Nat.repeat crc16Bit 8 (c ^^^ (x.toNat * 256))) 0xFFFF

/-- One bit of the reflected CRC-32 of IEEE 802.3. -/
def crc32Bit (c : Nat) : Nat := if c % 2 = 1 then (c / 2) ^^^ 0xEDB88320 else c / 2

/-- The frame check sequence of IEEE 802.3 over the bytes from destination address on, in transmission order. -/
def fcsOf (b : Bytes) : Bytes :=
  leBytes 4 ((b.foldl (fun c x => Nat.repeat crc32Bit 8 (c ^^^ x.toNat)) 0xFFFFFFFF) ^^^ 0xFFFFFFFF)

/-- One's complement sum of 16-bit words, folded (a last odd byte is padded with zero). -/
def onesSum (b : Bytes) : Nat :=
  let n := ceilDiv b.length 2
  let t := (List.range n).foldl (fun a i => a + beAt b (2 * i) 2) 0
  let t := t % 0x10000 + t / 0x10000
  t % 0x10000 + t / 0x10000

/-- The Internet checksum of a byte string whose checksum field is zero. -/
def inetChecksum (b : Bytes) : Nat := 0xFFFF - onesSum b

end Sys2Proof.Machine
end

