-- ==== Sys2Proof/Machine/Ops.lean ====
section
/-! DEFINITION. The named operations over the state that every meaning uses: registers, counters, event logs, interrupts,
time, free values, and what the module sends. -/

namespace Sys2Proof.Machine

/-! ## Registers -/

/-- The value of the register at a BAR0 offset. -/
def State.rd (s : State) (off : Nat) : Word := sget (resetWord off) s.regs off

/-- The register at an offset takes a value: the one home of every register. -/
def State.wr (s : State) (off : Nat) (v : Word) : State := { s with regs := sset (resetWord off) s.regs off v }

/-- A field of a register. -/
def State.fld (s : State) (off : Nat) (f : Fld) : Nat := f.get (s.rd off)

/-- A field takes a value, cut to its width. -/
def State.setFld (s : State) (off : Nat) (f : Fld) (v : Nat) : State := s.wr off (f.set (s.rd off) v)

/-- A one-bit field. -/
def State.flag (s : State) (off : Nat) (f : Fld) : Bool := s.fld off f != 0

/-- A field counts up by one and wraps. -/
def State.incFld (s : State) (off : Nat) (f : Fld) : State := s.setFld off f (s.fld off f + 1)

/-- A field counts up by one and saturates. -/
def State.incSat (s : State) (off : Nat) (f : Fld) : State :=
  if s.fld off f + 1 < 2 ^ f.w then s.incFld off f else s

/-- Bit `i` of a register. -/
def State.bit (s : State) (off i : Nat) : Bool := (s.rd off).getLsbD i

/-- Bit `i` of a register takes a value. -/
def State.setBit (s : State) (off i : Nat) (b : Bool) : State := s.setFld off ⟨i, 1⟩ (b2n b)

/-- The committed value of a register of class S (spec/16 R425). -/
def State.committed (s : State) (off : Nat) : Word := sget (resetWord off) s.cfg.committed off

/-- A committed field. -/
def State.cfld (s : State) (off : Nat) (f : Fld) : Nat := f.get (s.committed off)

/-! ## Time, interrupts, free values -/

/-- Seconds of the time base (spec/12 R341). -/
def State.nowSec (s : State) : Nat := s.tim.base.toNat / 2 ^ 48

/-- Nanoseconds within the second. -/
def State.nowNano (s : State) : Nat := s.tim.base.toNat / 2 ^ 16 % 2 ^ 32

/-- The time base in nanoseconds. -/
def State.now (s : State) : Nat := s.nowSec * 1000000000 + s.nowNano

/-- The form of an instant in registers and logs: seconds [31:0] above, nanoseconds below (spec/12 R342). -/
def State.stamp (s : State) : Word := BitVec.ofNat 64 (s.nowSec % 2 ^ 32 * 2 ^ 32 + s.nowNano)

/-- An instant of 32 bits of seconds and nanoseconds, in nanoseconds: the seconds nearest to the present time base (spec/12
R342). -/
def instantNs (s : State) (w : Word) : Nat :=
  let k := s.nowSec / 2 ^ 32
  let lo := w.toNat / 2 ^ 32
  let sec := k * 2 ^ 32 + lo
  let sec := if s.nowSec + 2 ^ 31 < sec ∧ 0 < k then sec - 2 ^ 32 else if sec + 2 ^ 31 < s.nowSec then sec + 2 ^ 32 else sec
  sec * 1000000000 + w.toNat % 2 ^ 32

/-- The form of R342 of a time in nanoseconds. -/
def instantWord (ns : Nat) : Word := BitVec.ofNat 64 (ns / 1000000000 % 2 ^ 32 * 2 ^ 32 + ns % 1000000000)

/-- Nanoseconds of the oscillator since power came: what measures intervals, whatever the time base is set to. -/
def State.mono (s : State) : Nat := s.tim.osc

/-- A fresh free value, and the state that has drawn it (log entry 2). -/
def State.draw (s : State) : Word × State := (Config.freeValue s.free, { s with free := s.free + 1 })

/-- A time stamp as a number of 2^-16 ns (spec/12 R341). -/
def tsUnits (t : TimeStamp) : Nat :=
  (t.toNat / 2 ^ 48 * 1000000000 + t.toNat / 2 ^ 16 % 2 ^ 32) * 65536 + t.toNat % 65536

/-- A number of 2^-16 ns as a time stamp. -/
def unitsTs (u : Nat) : TimeStamp :=
  BitVec.ofNat 96 (u / 65536 / 1000000000 * 2 ^ 48 + u / 65536 % 1000000000 * 2 ^ 16 + u % 65536)

/-- The rate offset that applies, in 2^-16 ppb: the servo's, or TIM_FREQ.RATE while SOURCE is 0b10 (spec/12 Table 12.7). -/
def State.rateOffset (s : State) : Int :=
  if s.fld R.TIM_CTRL F.TIM_CTRL_SOURCE = 2 then signedOf 32 (s.fld R.TIM_FREQ F.TIM_FREQ_RATE) else s.tim.rate

/-- One step of the oscillator: the time base advances by 2 ns, corrected by the rate offset and by the offset being slewed
out at no more than SLEW_PPB (spec/12 R341, R350); PPS_OUT rises at each whole second and is high for 100 ms (spec/12 R356, spec/01
Table 1.7). -/
def State.timeStep (s : State) : State :=
  let lim : Int := s.fld R.TIM_SERVO F.TIM_SERVO_SLEW_PPB * 131072
  let d := max (-lim) (min lim s.tim.slew)
  let c := s.rateOffset * 2 + d + s.tim.carry
  let sec := s.nowSec
  let s := { s with tim.base := unitsTs (tsUnits s.tim.base + (131072 + c / 1000000000).toNat),
                    tim.carry := c % 1000000000, tim.slew := s.tim.slew - d, tim.osc := s.tim.osc + 2 }
  if s.nowSec ≠ sec then { s with board.ppsOut := true }
  else if 100000000 ≤ s.nowNano then { s with board.ppsOut := false } else s

/-- One step of the oscillator while the always-on rails have power. -/
def State.tick (s : State) : State := if s.board.place = .off ∨ s.board.place = .charging then s else s.timeStep

/-! ## Outputs -/

/-- A frame leaves on a fabric port. -/
def State.sendFrame (s : State) (p : Nat) (f : Bytes) : State := { s with out.frames := s.out.frames ++ [(p, f)] }

/-- Whether a source is enabled: it gives its engine light (spec/01 R36, R37). -/
def LaserLevel.gives : LaserLevel → Bool
  | .off | .checking => false
  | .ramping | .setpoint | .lowered => true

/-- A message leaves on a management port (0 MGA, 1 MGB). -/
def State.sendMgmt (s : State) (m : Nat) (f : Bytes) : State := { s with out.mgmt := s.out.mgmt ++ [(m, f)] }

/-- An answer of the primary mailbox. -/
def State.answer (s : State) (f : Bytes) : State := { s with out.mailbox := s.out.mailbox ++ [f] }

/-- An MCTP answer on HOST_I3C or CXL.io. -/
def State.sendMctp (s : State) (i3c : Bool) (f : Bytes) : State := { s with out.mctp := s.out.mctp ++ [(i3c, f)] }

/-- A message on CXL.cache, CXL.mem or CXL.io. -/
def State.sendCxl (s : State) (m : CxlMsg) : State := { s with out.cxl := s.out.cxl ++ [m] }

/-- A write to host memory. -/
def State.hostWrite (s : State) (a : Word) (b : Bytes) : State :=
  { s with out.hostWrites := s.out.hostWrites ++ [(a, b)] }

/-! ## Transfers to the laser sources (spec/01 R34) -/

/-- The channel-select register of multiplexer m takes a value. -/
def State.lasMuxWrite (s : State) (m : Nat) (channels : Byte) : State :=
  { s with board.lasMux := sset 0 s.board.lasMux (0x70 + m) channels, out.las := s.out.las ++ [.select (0x70 + m) channels] }

/-- The one channel that reaches source e is enabled, after any other has been disabled. -/
def State.lasSelect (s : State) (e : Nat) : State :=
  let s := (List.range 4).foldl (fun s m =>
    if m ≠ e / 8 ∧ sget 0 s.board.lasMux (0x70 + m) ≠ 0 then s.lasMuxWrite m 0 else s) s
  let k : Byte := BitVec.ofNat 8 (2 ^ (e % 8))
  if sget 0 s.board.lasMux (0x70 + e / 8) = k then s else s.lasMuxWrite (e / 8) k

/-- A CMIS read of source e. -/
def State.lasRead (s : State) (e : Nat) : State :=
  let s := s.lasSelect e
  { s with out.las := s.out.las ++ [.cmisRead 0x50] }

/-- A CMIS write that gives source e a level. -/
def State.lasSet (s : State) (e : Nat) (level : LaserLevel) : State :=
  let s := s.lasSelect e
  { s with out.las := s.out.las ++ [.cmisLevel 0x50 level] }

/-- Every source that gives light, or is being checked, is disabled. -/
def State.lasAllOff (s : State) : State :=
  s.lasers.foldl (fun s x => if x.2.level = .off then s else s.lasSet x.1 .off) s

/-! ## Counters (spec/18 R467 to R469) -/

/-- The key of a counter: block and index. -/
def ctrKey (block index : Nat) : Nat := block * 2 ^ 17 + index

/-- An event counts in its local accumulator (spec/18 R468). -/
def State.countBy (s : State) (key n : Nat) : State :=
  let c := sget {} s.cnt.counters key
  { s with cnt.counters := sset {} s.cnt.counters key { c with acc := c.acc + n } }

/-- One event. -/
def State.count (s : State) (key : Nat) : State := s.countBy key 1

/-- Counter k of the host interface. -/
def ctrHif (k : Nat) : Nat := ctrKey 1 k
/-- Counter k of port index p. -/
def ctrPort (p k : Nat) : Nat := ctrKey 2 (4096 + 16 * p + k)
/-- Counter k of lane l of pair f. -/
def ctrLane (lane k : Nat) : Nat := ctrKey 2 (2 * lane + k)
/-- PFC counter k of class c of port p. -/
def ctrPfc (p c k : Nat) : Nat := ctrKey 2 (36864 + 2 * (8 * p + c) + k)
/-- Counter k of slice sl. -/
def ctrSlice (sl k : Nat) : Nat := ctrKey 3 (32 * sl + k)
/-- Switch-core counter k of port p. -/
def ctrSwcPort (p k : Nat) : Nat := ctrKey 4 (7 * p + k)
/-- Switch-core counter k of class c of port p. -/
def ctrSwcClass (p c k : Nat) : Nat := ctrKey 4 (14336 + 4 * (8 * p + c) + k)
/-- Switch-core module counter k. -/
def ctrSwc (k : Nat) : Nat := ctrKey 4 (79872 + k)
/-- Counter k of Basin engine b. -/
def ctrBsn (b k : Nat) : Nat := ctrKey 5 (21 * b + k)
/-- Counter k of a tenon. -/
def ctrTenon (tenon k : Nat) : Nat := ctrKey 6 (4 * tenon + k)
/-- Counter k of circuit n. -/
def ctrSpl (n k : Nat) : Nat := ctrKey 7 (2 * n + k)
/-- Counter k of a ring. -/
def ctrOpt (ring k : Nat) : Nat := ctrKey 8 (3 * ring + k)
/-- Counter of block MEM. -/
def ctrMem (k : Nat) : Nat := ctrKey 9 k
/-- Counter k of TIM port p. -/
def ctrTimPort (p k : Nat) : Nat := ctrKey 10 (4 * p + k)
/-- TIM module counter k. -/
def ctrTim (k : Nat) : Nat := ctrKey 10 (8200 + k)
/-- Counter k of management port m. -/
def ctrPln (m k : Nat) : Nat := ctrKey 11 (17 * m + k)

/-- An MSI-X message of a vector, counted as MSIX_SENT (spec/03 R88). -/
def State.raise (s : State) (v : Nat) : State := { s with out.msix := s.out.msix ++ [v] }.count (ctrHif 2)

/-! ## Port states (spec/06 Table 6.6) -/

/-- DISABLED. -/
def psDisabled : Nat := 0
/-- TRAINING. -/
def psTraining : Nat := 1
/-- NEGOTIATING. -/
def psNegotiating : Nat := 2
/-- UP. -/
def psUp : Nat := 3
/-- QUARANTINE. -/
def psQuarantine : Nat := 4
/-- ABSENT. -/
def psAbsent : Nat := 5
/-- HELD. -/
def psHeld : Nat := 6
/-- LENT. -/
def psLent : Nat := 7

/-- PRT_PORT_STATE of port index p = 8f + u. -/
def prtState (p : Nat) : Nat := R.PRT_PORT_STATE (p / 8) (p % 8)

/-- The state of a port. -/
def State.portState (s : State) (p : Nat) : Nat := s.fld (prtState p) F.PRT_PORT_STATE_STATE

/-- Whether a port is UP. -/
def State.portUp (s : State) (p : Nat) : Bool := s.portState p == psUp

/-! ## Event logs -/

/-- An entry of a log: both words are written, then the count advances. -/
def State.logEntry (s : State) (head : Nat) (entry info : Nat → Nat) (size : Nat) (a b : Word) : State :=
  let k := s.fld head ⟨0, 32⟩ % size
  (((s.wr (entry k) a).wr (info k) b).incFld head ⟨0, 32⟩)

/-- A host-interface error: the bit is set, and vector 0 is raised when it rises (spec/03 R91). -/
def State.hifError (s : State) (i : Nat) : State :=
  if s.bit R.HIF_ERR_STATUS i then s else (s.setBit R.HIF_ERR_STATUS i true).raise 0

/-- A fault-log entry (spec/04 Table 4.26). -/
def State.faultLog (s : State) (code agent : Nat) (domain : BitVec 12) (index who : Nat) (info : Word) : State :=
  s.logEntry R.CMD_FAULT_HEAD R.CMD_FAULT R.CMD_FAULT_INFO 64
    (F.CMD_FAULT_CODE.put code ||| F.CMD_FAULT_AGENT.put agent ||| F.CMD_FAULT_DOMAIN.put domain.toNat |||
      F.CMD_FAULT_INDEX.put index ||| F.CMD_FAULT_WHO.put who) info

/-- A configuration-log entry (spec/16 R429, Table 16.15): counted in GLB_PLUMB_STATUS by its kind, and raising
vector 1, or 9 when its reason is SECURITY_STATE. -/
def State.cfgLog (s : State) (kind reason set source : Nat) (domain : BitVec 12) (offset : Nat) : State :=
  let s := s.logEntry R.CFG_LOG_HEAD R.CFG_LOG R.CFG_LOG_INFO 256
    (F.CFG_LOG_KIND.put kind ||| F.CFG_LOG_REASON.put reason ||| F.CFG_LOG_SET.put set |||
      F.CFG_LOG_SOURCE.put source ||| F.CFG_LOG_DOMAIN.put domain.toNat ||| F.CFG_LOG_OFFSET.put offset) s.stamp
  let s := if kind = 4 then s.incSat R.GLB_PLUMB_STATUS F.GLB_PLUMB_STATUS_QUIESCE_IGNORED
    else if kind = 2 then s
    else (s.incSat R.GLB_PLUMB_STATUS F.GLB_PLUMB_STATUS_REFUSALS).setFld
      R.GLB_PLUMB_STATUS F.GLB_PLUMB_STATUS_LAST_REASON reason
  s.raise (if reason = 0x1B then 9 else 1)

/-- A port event (spec/06 Table 6.28). -/
def State.prtEvent (s : State) (kind port partnerPort : Nat) (identity : Word) : State :=
  (s.logEntry R.PRT_EVENT_HEAD R.PRT_EVENT R.PRT_EVENT_ID 256
    (F.PRT_EVENT_KIND.put kind ||| F.PRT_EVENT_PORT.put port ||| F.PRT_EVENT_PARTNER_PORT.put partnerPort)
    identity).raise 4

/-- A forwarding event (spec/07 R222, Table 7.23). -/
def State.fwdEvent (s : State) (kind bank table row : Nat) : State :=
  let info := if kind = 6 ∨ kind = 7 then BitVec.ofNat 64 (s.fld R.FWD_EPOCH_STATUS F.FWD_EPOCH_STATUS_EPOCH) else s.stamp
  (s.logEntry R.FWD_EVENT_HEAD R.FWD_EVENT R.FWD_EVENT_INFO 128
    (F.FWD_EVENT_KIND.put kind ||| F.FWD_EVENT_BANK.put bank ||| F.FWD_EVENT_TABLE.put table |||
      F.FWD_EVENT_ROW.put row) info).raise (if 6 ≤ kind then 1 else 10)

/-- A Basin log entry (spec/09 Table 9.21). -/
def State.bsnLog (s : State) (e kind group opSeq code origin slot : Nat) : State :=
  (s.logEntry (R.BSN_LOG_HEAD e) (R.BSN_LOG e) (R.BSN_LOG_INFO e) 64
    (F.BSN_LOG_KIND.put kind ||| F.BSN_LOG_GROUP.put group ||| F.BSN_LOG_OP_SEQ.put opSeq ||| F.BSN_LOG_CODE.put code)
    (F.BSN_LOG_INFO_ORIGIN.put origin ||| F.BSN_LOG_INFO_SLOT.put slot |||
      F.BSN_LOG_INFO_SECONDS.put s.nowSec)).raise 6

/-- A thermal event (spec/14 Table 14.13). Temperatures are 16-bit words. -/
def State.thmEvent (s : State) (kind place : Nat) (fromT toT : Nat) (pace : Nat) : State :=
  (s.logEntry R.THM_EVENT_HEAD R.THM_EVENT R.THM_EVENT_INFO 64
    (F.THM_EVENT_KIND.put kind ||| F.THM_EVENT_WHERE.put place ||| F.THM_EVENT_FROM.put fromT |||
      F.THM_EVENT_TO.put toT ||| F.THM_EVENT_PACE.put pace) s.stamp).raise 2

/-- A spillway or optics event (spec/11 Table 11.18). -/
def State.splEvent (s : State) (kind cause engine ring circuit : Nat) : State :=
  (s.logEntry R.SPL_EVENT_HEAD R.SPL_EVENT R.SPL_EVENT_INFO 256
    (F.SPL_EVENT_KIND.put kind ||| F.SPL_EVENT_CAUSE.put cause ||| F.SPL_EVENT_ENGINE.put engine |||
      F.SPL_EVENT_RING.put ring ||| F.SPL_EVENT_CIRCUIT.put circuit) s.stamp).raise 5

end Sys2Proof.Machine
end

