-- ==== Sys2Proof/Machine/LedgerOps.lean ====
section
/-! DEFINITION. The Ledger as the other parts of the module use it: fields of the live STATE copy, journal entries, and the
start of a commit (spec/18 R455 to R461). -/

namespace Sys2Proof.Machine

/-- Bytes of a sparse byte store. -/
def sbytes (m : Sparse Byte) (a n : Nat) : Bytes := (List.range n).map fun i => sget 0 m (a + i)

/-- A sparse byte store with bytes written from an address on. -/
def swrite (m : Sparse Byte) (a : Nat) : Bytes → Sparse Byte
  | [] => m
  | b :: t => swrite (sset 0 m a b) (a + 1) t

/-- A field of the live STATE copy (spec/18 Table 18.2). -/
def State.ldg? (s : State) (off n : Nat) : Nat := leNat (sbytes s.ldg.live off n)

/-- A field of the live STATE copy takes a value. -/
def State.ldgPut (s : State) (off n v : Nat) : State := { s with ldg.live := swrite s.ldg.live off (leBytes n v) }

/-- A field of the live STATE copy grows. -/
def State.ldgAdd (s : State) (off n d : Nat) : State := s.ldgPut off n (s.ldg? off n + d)

/-- The life clock (spec/18 R461). -/
def State.lifeS (s : State) : Nat := s.ldg? 16 8

/-- Whether the time base has locked since reset (spec/12 R343). -/
def State.hasLocked (s : State) : Bool := s.flag R.TIM_STATUS F.TIM_STATUS_EVER_LOCKED

/-- A journal entry is buffered; beyond 2,048 it is discarded, DROP is set and vector 8 raised (spec/18 R458, R460,
R474). -/
def State.journal (s : State) (kind subject : Nat) (data : Bytes) : State :=
  if s.ldg.buffer.length < 2048 then
    let b := leBytes 4 (kind + 256 * subject) ++ leBytes 8 s.lifeS ++
      leBytes 4 (if s.hasLocked then s.nowSec else 0) ++ slice data 0 12
    { s with ldg.buffer := s.ldg.buffer ++ [leNat (b ++ leBytes 4 (crc32c b))] }
  else if s.flag R.LDG_STATUS F.LDG_STATUS_DROP then s
  else (s.setFld R.LDG_STATUS F.LDG_STATUS_DROP 1).raise 8

/-- A commit starts, or falls due while another is under way and starts when that one ends (spec/18 R456). -/
def State.commitLedger (s : State) : State :=
  if s.ldg.busy then { s with ldg.again := true }
  else { (s.setFld R.LDG_STATUS F.LDG_STATUS_BUSY 1) with ldg.busy := true }

/-- Offset of BAY(n) in a STATE copy. -/
def ldgBay (n : Nat) : Nat := 128 + 48 * n
/-- Offset of ENGINE(e). -/
def ldgEngine (e : Nat) : Nat := 2560 + 32 * e
/-- Offset of MEMORY(u). -/
def ldgMemory (u : Nat) : Nat := 3584 + 32 * u
/-- Offset of REPAIR(i). -/
def ldgRepair (i : Nat) : Nat := 4096 + 16 * i

end Sys2Proof.Machine
end

