-- ==== Sys2Proof/Machine/MemOps.lean ====
section
/-! DEFINITION. Bays as the other parts of the module use them: numbers, states, and waking (spec/14 R379 to R384). Device memory
(spec/13): what is installed, reading with correction and poison, writing, and the MEM event log. -/

namespace Sys2Proof.Machine

/-! ## Bays -/

/-- STATE of a bay (spec/14 Table 14.3): 0 active, 1 retention, 2 gated, 3 dark, 4 transition, 5 off, 6 reset by its rail
monitor. -/
def State.bayState (s : State) (n : Nat) : Nat := s.fld (R.PWR_BAY_STATUS n) F.PWR_BAY_STATUS_STATE

/-- A bay takes a state. -/
def State.setBay (s : State) (n st : Nat) : State := s.setFld (R.PWR_BAY_STATUS n) F.PWR_BAY_STATUS_STATE st

/-- The bay of a tenon's section (spec/02 Table 2.2). -/
def sectionBay (q col : Nat) : Nat := 7 * q + col / 8
/-- The slice-pair bay of a quadrant. -/
def sliceBay (q : Nat) : Nat := 7 * q + 4
/-- The packet buffer bay of a quadrant. -/
def bufferBay (q : Nat) : Nat := 7 * q + 6
/-- The Basin bay of an engine. -/
def basinBay (e : Nat) : Nat := 7 * (e / 2) + 5
/-- The optical group bay of a fibre pair's engine. -/
def opticBay (e : Nat) : Nat := 36 + e / 4

/-- Whether a bay rests and can be woken. -/
def State.resting (s : State) (n : Nat) : Bool := decide (1 ≤ s.bayState n) && decide (s.bayState n ≤ 3)

/-- A resting bay begins to wake; the state it leaves is kept until it is done (spec/14 R382). -/
def State.wakeBay (s : State) (n : Nat) : State :=
  if s.resting n then
    { s.setBay n 4 with
      pwr.saved := sset 0 s.pwr.saved n (s.bayState n)
      pwr.waking := s.pwr.waking ++ [n] }
  else s

/-- Bays begin to wake. -/
def State.wakeBays (s : State) (l : List Nat) : State := l.foldl State.wakeBay s

/-- Whether a plumb check runs or waits (spec/16 R428). -/
def State.checksRun (s : State) : Bool := !s.cfg.checks.isEmpty

/-- Whether a bay is in reset or off: the plumb checks that need it refuse (spec/14 R384). -/
def State.bayLost (s : State) (n : Nat) : Bool := s.bayState n == 5 || s.bayState n == 6

/-- Whether any bay of a list rests or is in transition, so that who needs it waits. -/
def State.bayWait (s : State) (l : List Nat) : Bool := l.any fun n => s.resting n || s.bayState n == 4

/-! ## Device memory -/

/-- Bytes of one HBM stack. -/
def hbmStack : Nat := 0x1400000000
/-- Bytes of HBM. -/
def hbmSize : Nat := 0xA000000000
/-- The first DDR5 address. -/
def ddrBase : Nat := 0x10000000000

/-- D of spec/13 R362, in bytes. -/
def State.ddrSize (s : State) : Nat := s.fld R.MEM_STATUS F.MEM_STATUS_DDR_GIB * 2 ^ 30

/-- Whether an address lies in HBM. -/
def isHbm (a : Nat) : Bool := decide (a < hbmSize)

/-- Whether an address lies in the firmware region of its stack (spec/13 R359). -/
def inFirmware (a : Nat) : Bool := isHbm a && decide (0x13E0000000 ≤ a % hbmStack)

/-- Whether an address lies in installed DDR5. -/
def State.inDdr (s : State) (a : Nat) : Bool := decide (ddrBase ≤ a) && decide (a < ddrBase + s.ddrSize)

/-- Whether a range of at least one byte lies in one installed tier (spec/13 Table 13.1), firmware regions included. -/
def State.installed (s : State) (a n : Nat) : Bool :=
  (isHbm a && decide (a + n ≤ hbmSize)) || (s.inDdr a && decide (a + n ≤ ddrBase + s.ddrSize))

/-- Whether a range touches a firmware region. -/
def touchesFirmware (a n : Nat) : Bool :=
  isHbm a && (List.range (n / hbmStack + 2)).any fun k =>
    let lo := (a / hbmStack + k) * hbmStack + 0x13E0000000
    decide (a < lo + 0x20000000) && decide (lo < a + n) && decide (0 < n)

/-- Whether a range lies in DEVICE space (spec/13 R358, spec/04 Table 4.4). -/
def State.deviceOk (s : State) (a n : Nat) : Bool := s.installed a n && !touchesFirmware a n

/-- The stack of an HBM address, or 8 + the channel of a DDR5 address (spec/13 R358, R363). -/
def State.memUnit (s : State) (a : Nat) : Nat :=
  if isHbm a then a / hbmStack
  else 8 + (a - ddrBase) / 4096 % (max 1 (s.fld R.MEM_STATUS F.MEM_STATUS_DDR_CHANNELS))

/-- The address within its DDR5 channel (spec/13 R363). -/
def State.ddrY (s : State) (a : Nat) : Nat :=
  let x := a - ddrBase
  x / (4096 * max 1 (s.fld R.MEM_STATUS F.MEM_STATUS_DDR_CHANNELS)) * 4096 + x % 4096

/-- The rank index of a DDR5 address (spec/13 R363). -/
def State.ddrRank (s : State) (a : Nat) : Nat :=
  match s.mem.dimms with
  | [] => 0
  | d :: _ =>
    let size := d.sizeGiB * 2 ^ 30
    let y := s.ddrY a
    2 * (y / size) + y % size / (size / max 1 d.ranks)

/-- A MEM event of an address (spec/13 Table 13.9); every one raises vector 10. -/
def State.memEvent (s : State) (kind a : Nat) : State :=
  let u := s.memUnit a
  let w := if isHbm a then F.MEM_EVENT_UNIT.put u ||| F.MEM_EVENT_PC.put (a % hbmStack / 256 % 64)
    else F.MEM_EVENT_TIER.put 1 ||| F.MEM_EVENT_UNIT.put (u - 8) ||| F.MEM_EVENT_SUB.put (s.ddrY a / 64 % 2) |||
      F.MEM_EVENT_RANK.put (s.ddrRank a)
  (s.logEntry R.MEM_EVENT_HEAD R.MEM_EVENT R.MEM_EVENT_ADDR 128
    (F.MEM_EVENT_KIND.put kind ||| w ||| F.MEM_EVENT_SECONDS.put s.nowSec)
    (if kind = 4 then 0 else BitVec.ofNat 64 (a / 64 * 64))).raise 10

/-- Entries of the repair list that are valid (spec/13 R370, spec/18 Table 18.2). -/
def State.repairValid (s : State) : List Nat := (List.range 256).filter fun i => s.ldg? (ldgRepair i) 1 % 2 == 1

/-- A corrected error counts toward its row's suspicion: a row that has yielded SUSPECT errors in 24 h is listed, or, where the list
is full, REPAIR_FULL is recorded when it becomes suspect (spec/13 R370). -/
def State.rowCorrected (s : State) (a : Nat) : State :=
  let row := Config.dramRow a
  let t := s.lifeS
  let kept := (s.mem.rowErrors.filter fun e => decide (t < e.2 + 86400)) ++ [(row, t)]
  let s := { s with mem.rowErrors := kept }
  let n := (kept.filter fun e => e.1 == row).length
  let limit := s.fld R.MEM_CTRL F.MEM_CTRL_SUSPECT
  let valid := s.repairValid
  if limit = 0 ∨ n < limit ∨ (valid.any fun i => Config.dramRow (s.ldg? (ldgRepair i + 8) 8) == row) then s
  else match (List.range 256).find? fun i => !valid.contains i with
    | none => if n = limit then s.memEvent 6 a else s
    | some i =>
      let u := s.memUnit a
      let s := ((s.ldgPut (ldgRepair i) 2 ((if isHbm a then 1 else 3) + 256 * (u % 8))).ldgPut (ldgRepair i + 8) 8
        (a / 64 * 64)).memEvent 3 a
      { s with ldg.repairChanges := s.ldg.repairChanges + 1 }

/-- A read corrects an error: counted, entered in the Ledger, and counted toward its row (spec/13 R366, R370). -/
def State.corrected (s : State) (a : Nat) : State :=
  let u := s.memUnit a
  let s := s.count (ctrMem (if u < 8 then 3 * u else 24 + 3 * (u - 8)))
  let s := s.ldgAdd (ldgMemory u) 8 1
  let s := { s with ldg.memHour := sset 0 s.ldg.memHour u (sget 0 s.ldg.memHour u + 1),
                    ldg.corrSecond := s.ldg.corrSecond + 1 }
  s.rowCorrected a

/-- Whether a line lies in a list of runs. -/
def runsHave (l : Nat) (r : List (Nat × Nat)) : Bool := r.any fun x => decide (x.1 ≤ l) && decide (l < x.2)

/-- Runs without the lines from `a` to `b`. -/
def runsDel (a b : Nat) : List (Nat × Nat) → List (Nat × Nat)
  | [] => []
  | (x, y) :: t =>
    if y ≤ a ∨ b ≤ x then (x, y) :: runsDel a b t
    else (if x < a then [(x, a)] else []) ++ (if b < y then [(b, y)] else []) ++ runsDel a b t

/-- A run inserted at its place, merged with runs that touch it. -/
def runsAdd (a b : Nat) : List (Nat × Nat) → List (Nat × Nat)
  | [] => [(a, b)]
  | (x, y) :: t =>
    if b < x then (a, b) :: (x, y) :: t
    else if y < a then (x, y) :: runsAdd a b t
    else runsAdd (min a x) (max b y) t

/-- Whether a line is marked poisoned. -/
def State.isPoisoned (s : State) (a : Nat) : Bool := runsHave (a / 64) s.mem.poisoned

/-- The lines of a range are marked poisoned. -/
def State.poison (s : State) (a n : Nat) : State :=
  { s with mem.poisoned := runsAdd (a / 64) ((a + n + 63) / 64) s.mem.poisoned }

/-- A read finds an uncorrectable error: the line is marked, UNCORRECTABLE recorded once, the Ledger told (spec/13
R366; spec/18 Table 18.4). -/
def State.uncorrectable (s : State) (a : Nat) : State :=
  if s.isPoisoned a then s
  else
    let u := s.memUnit a
    let s := s.poison (a / 64 * 64) 64
    let s := s.count (ctrMem (if u < 8 then 3 * u + 2 else 24 + 3 * (u - 8) + 1))
    let s := s.ldgAdd (ldgMemory u + 8) 4 1
    (s.memEvent 2 a).journal 6 u (leBytes 8 (a / 64 * 64))

/-- The errors that a read of a range finds: an uncorrectable one marks its line, a correctable one is corrected. -/
def State.findErrors (s : State) (a n : Nat) : List LineErr → State
  | [] => s
  | e :: t =>
    let x := e.addr.toNat
    let s := if decide (a / 64 ≤ x / 64) && decide (x / 64 * 64 < a + n) then
        match e.kind with
        | .corrected => if s.isPoisoned x then s else s.corrected x
        | .uncorrectable => s.uncorrectable x
        | .residue => s
      else s
    s.findErrors a n t

/-- Whether the stack of an address failed training (spec/16 R417). -/
def State.stackFailed (s : State) (a : Nat) : Bool :=
  isHbm a && s.fld (R.MEM_HBM_STATUS (a / hbmStack)) F.MEM_HBM_STATUS_STATE == 2

/-- Whether a range holds a poisoned line or lies in a stack that failed training. -/
def State.rangePoisoned (s : State) (a n : Nat) : Bool :=
  s.stackFailed a || (s.mem.poisoned.any fun x => decide (a / 64 < x.2) && decide (x.1 * 64 < a + n) && decide (0 < n))

/-- The bays of the memory that a range reaches: its HBM stacks, or the DDR5 bay. -/
def memBays (a n : Nat) : List Nat :=
  if n = 0 then []
  else if isHbm a then (List.range ((a + n - 1) / hbmStack + 1 - a / hbmStack)).map fun k => 28 + (a / hbmStack + k) % 8
  else [45]

/-- An access wakes the memory that it reaches, and is served when that has woken (spec/14 R382; log entry 79). -/
def State.memWake (s : State) (a n : Nat) : State := s.wakeBays (memBays a n)

/-- The lines of a range that read as poisoned. -/
def State.poisonedLines (s : State) (a n : Nat) : Nat :=
  let lo := a / 64
  let hi := if n = 0 then lo else (a + n + 63) / 64
  if s.stackFailed a then hi - lo else (s.mem.poisoned.map fun x => min x.2 hi - max x.1 lo).sum

/-- A read of device memory with the errors it finds: the state after it, the bytes, and whether they are poisoned.
A read of a line already poisoned counts POISON_READ (spec/13 R366). -/
def State.devRead (s : State) (a n : Nat) (errs : List LineErr) : State × Bytes × Bool :=
  let s := s.memWake a n
  let old := s.poisonedLines a n
  let s := s.findErrors a n errs
  let s := if 0 < old then s.countBy (ctrMem (if isHbm a then 49 else 51)) old else s
  (s, sbytes s.mem.bytes a n, s.rangePoisoned a n)

/-- A write of device memory: bytes are stored, and every line that the write covers whole is poisoned no more (spec/13
R367); writes to a stack that failed training are discarded (spec/16 R417). -/
def State.devWrite (s : State) (a : Nat) (b : Bytes) : State :=
  let s := s.memWake a b.length
  if s.stackFailed a then s
  else { s with
    mem.bytes := swrite s.mem.bytes a b
    mem.poisoned := if (a + 63) / 64 < (a + b.length) / 64 then runsDel ((a + 63) / 64) ((a + b.length) / 64) s.mem.poisoned
      else s.mem.poisoned }

end Sys2Proof.Machine
end

