-- ==== Sys2Proof/Machine/Counter.lean ====
section
/-! DEFINITION. Counters and snapshots (spec/18 R467 to R475). -/

namespace Sys2Proof.Machine

/-- A block of Table 18.5: ID, first page, pages, counters. -/
structure CtrBlock where
  id : Nat
  first : Nat
  pages : Nat
  counters : Nat
  deriving DecidableEq, Repr

/-- The counter population (spec/18 Table 18.5). -/
def ctrBlocks : List CtrBlock :=
  [⟨1, 1, 1, 16⟩, ⟨2, 2, 137, 69632⟩, ⟨3, 139, 1, 256⟩, ⟨4, 140, 157, 79894⟩, ⟨5, 297, 1, 168⟩, ⟨6, 298, 31, 15360⟩,
   ⟨7, 329, 17, 8192⟩, ⟨8, 346, 13, 6144⟩, ⟨9, 359, 1, 52⟩, ⟨10, 360, 17, 8204⟩, ⟨11, 377, 1, 34⟩]

/-- A counter takes its local accumulator, which clears; passing 2^48 − 1 sets WRAP (spec/18 R467, R468). -/
def Counter.visit (c : Counter) : Counter :=
  let n := c.value + c.acc
  { c with value := n % 2 ^ 48, acc := 0, wrap := c.wrap || decide (2 ^ 48 ≤ n) }

/-- A counter as it is presented (spec/18 R467). -/
def Counter.word (c : Counter) : Word :=
  BitVec.ofNat 64 (b2n c.wrap * 2 ^ 63 + b2n c.lower * 2 ^ 62 + c.value % 2 ^ 48)

/-- Every counter of a list is changed, keeping the canonical form. -/
def mapCounters (f : Nat → Counter → Counter) (m : Sparse Counter) : Sparse Counter :=
  m.foldl (fun a x => sset {} a x.1 (f x.1 x.2)) m

/-- The reader visits one accumulator. -/
def execCounterReaderVisit (block : BitVec 8) (index : Nat) (s : State) : Out :=
  if ctrBlocks.any (fun b => b.id == block.toNat && decide (index < b.counters)) then
    let k := ctrKey block.toNat index
    .next { s with cnt.counters := sset {} s.cnt.counters k (sget {} s.cnt.counters k).visit }
  else .next s

/-! ## Snapshots -/

/-- A freeze: every accumulator moves into its counter, and the words with their sticky bits are latched (spec/18 R470). -/
def State.freeze (s : State) (notify periodic : Bool) : State :=
  let c := mapCounters (fun _ x => x.visit) s.cnt.counters
  let words := c.foldl (fun a x => sset 0 a x.1 x.2.word) []
  { s with
    cnt.counters := c
    cnt.building := some { seq := 0, frozenAt := s.stamp, words := words, notify := notify, periodic := periodic } }.setFld
    R.CNT_SNAP_STATUS F.CNT_SNAP_STATUS_GATHERING 1

/-- The result of a snapshot request; GO reads 0 again. -/
def State.snapResult (s : State) (r : Nat) : State :=
  (s.setFld R.CNT_SNAP_STATUS F.CNT_SNAP_STATUS_RESULT r).setFld R.CNT_SNAP F.CNT_SNAP_GO 0

/-- The fields of CNT_SNAP that a request carries. -/
def State.snapFields (s : State) (mode : Nat) (notify : Bool) : State :=
  (s.setFld R.CNT_SNAP F.CNT_SNAP_MODE mode).setFld R.CNT_SNAP F.CNT_SNAP_NOTIFY (b2n notify)

/-- Whether an instant lies from 100 us to 10 s after now (spec/18 R470); nanoseconds of a second or more are out of range (spec/12
R342). -/
def State.snapInstantOk (s : State) (w : Word) : Bool :=
  let ns := instantNs s w
  decide (w.toNat % 2 ^ 32 < 1000000000) && decide (s.now + 100000 ≤ ns) && decide (ns ≤ s.now + 10000000000)

/-- STATE of CNT_SNAP_STATUS. -/
def State.snapState (s : State) : Nat := s.fld R.CNT_SNAP_STATUS F.CNT_SNAP_STATUS_STATE

/-- A request in mode now: refused as busy while a snapshot is pending or gathering; during a periodic series it is
accepted when nothing is gathering (spec/18 R470). -/
def State.snapNow (s : State) (notify : Bool) : State :=
  let s := s.snapFields 0 notify
  if s.snapState = 1 ∨ s.cnt.building.isSome then s.snapResult 1 else (s.freeze notify false).snapResult 0

/-- A request in mode at-instant. -/
def State.snapAt (s : State) (notify : Bool) (instant : Word) : State :=
  let s := (s.snapFields 1 notify).wr R.CNT_SNAP_TIME instant
  if s.snapState ≠ 0 ∨ s.cnt.building.isSome then s.snapResult 1
  else if s.snapInstantOk instant = false then s.snapResult 2
  else ({ s with cnt.nextAt := instantNs s instant, cnt.notify := notify }.setFld
    R.CNT_SNAP_STATUS F.CNT_SNAP_STATUS_STATE 1).snapResult 0

/-- A request in mode periodic. -/
def State.snapEvery (s : State) (notify : Bool) (instant : Word) (periodMs : Nat) : State :=
  let s := ((s.snapFields 2 notify).wr R.CNT_SNAP_TIME instant).setFld R.CNT_SNAP F.CNT_SNAP_PERIOD_MS periodMs
  if s.snapState ≠ 0 ∨ s.cnt.building.isSome then s.snapResult 1
  else if s.snapInstantOk instant = false then s.snapResult 2
  else if periodMs < 10 ∨ 3600000 < periodMs then s.snapResult 3
  else ({ s with cnt.nextAt := instantNs s instant, cnt.periodMs := periodMs, cnt.notify := notify, cnt.series := 0 }.setFld
    R.CNT_SNAP_STATUS F.CNT_SNAP_STATUS_STATE 2).snapResult 0

/-- A request in mode stop ends a periodic series; while an instant is pending or a snapshot gathers, it is busy (log entry 12). -/
def State.snapStop (s : State) : State :=
  let s := s.setFld R.CNT_SNAP F.CNT_SNAP_MODE 3
  if s.snapState = 1 ∨ s.cnt.building.isSome then s.snapResult 1
  else (s.setFld R.CNT_SNAP_STATUS F.CNT_SNAP_STATUS_STATE 0).snapResult 0

def execSnapNow (notify : Bool) (s : State) : Out := .next (s.snapNow notify)

def execSnapAtInstant (notify : Bool) (instant : Word) (s : State) : Out := .next (s.snapAt notify instant)

def execSnapPeriodic (notify : Bool) (instant : Word) (periodMs : BitVec 32) (s : State) : Out :=
  .next (s.snapEvery notify instant periodMs.toNat)

def execSnapStop (s : State) : Out := .next s.snapStop

/-- A scheduled freeze, once its instant has come; a periodic one that falls while a snapshot is gathering is skipped and
counted (spec/18 R470). -/
def State.freezeDue (s : State) : State :=
  if s.snapState = 0 ∨ s.now < s.cnt.nextAt then s
  else if s.snapState = 1 then
    (s.freeze s.cnt.notify false).setFld R.CNT_SNAP_STATUS F.CNT_SNAP_STATUS_STATE 0
  else
    let busy := s.cnt.building.isSome
    let s := { s with cnt.nextAt := s.cnt.nextAt + s.cnt.periodMs * 1000000 }
    if busy then s.incSat R.CNT_SNAP_STATUS F.CNT_SNAP_STATUS_SKIPPED else s.freeze s.cnt.notify true

def execSnapshotFreeze (s : State) : Out := .next s.freezeDue

/-- Further freezes of a series that a step of the time base has passed fall while the first one gathers: all are skipped. -/
def State.freezesPassed (s : State) : State :=
  if s.snapState ≠ 2 ∨ s.now < s.cnt.nextAt then s
  else
    let k := (s.now - s.cnt.nextAt) / max 1 (s.cnt.periodMs * 1000000) + 1
    { s.setFld R.CNT_SNAP_STATUS F.CNT_SNAP_STATUS_SKIPPED (min (2 ^ F.CNT_SNAP_STATUS_SKIPPED.w - 1)
        (s.fld R.CNT_SNAP_STATUS F.CNT_SNAP_STATUS_SKIPPED + k)) with
      cnt.nextAt := s.cnt.nextAt + k * (s.cnt.periodMs * 1000000) }

/-- Word `w` of page `p` of a snapshot (spec/18 R471); every page reads zero before the first snapshot. -/
def Snap.pageWord (n : Snap) (p w : Nat) : Word :=
  if n.seq = 0 then 0
  else if p = 0 then
    if w = 0 then BitVec.ofNat 64 (4 * 2 ^ 48 + n.seq % 2 ^ 32)
    else if w = 1 then n.frozenAt
    else if w = 13 then BitVec.ofNat 64 n.skipped
    else match ctrBlocks[w - 2]? with
      | none => 0
      | some b => if w < 13 then BitVec.ofNat 64 (b.id * 2 ^ 56 + b.first * 2 ^ 44 + b.pages * 2 ^ 32 + b.counters) else 0
  else match ctrBlocks.find? fun b => decide (b.first ≤ p) && decide (p < b.first + b.pages) with
    | none => 0
    | some b =>
      if w = 0 then BitVec.ofNat 64 (b.id * 2 ^ 56 + (p - b.first) * 2 ^ 44 + n.seq % 2 ^ 32)
      else if w = 1 then n.frozenAt
      else
        let k := (p - b.first) * 510 + (w - 2)
        if k < b.counters then sget 0 n.words (ctrKey b.id k) else 0

/-- The 4,096 bytes of a page. -/
def Snap.pageBytes (n : Snap) (p : Nat) : Bytes :=
  (List.range 512).flatMap fun w => leBytes 8 (n.pageWord p w).toNat

/-- A word of BAR4 as a reader sees it: a page that is not visible reads zero (spec/18 R472). -/
def State.bar4Word (s : State) (p w : Nat) : Word :=
  if s.bit (R.CNT_PAGE_VIS (p / 64)) (p % 64) then s.cnt.published.pageWord p w else 0

/-- The Wellhead writes a history record of a periodic snapshot when one is due, or counts it as skipped at shed level 2
(spec/18 R473, spec/17 R452). -/
def State.historyRecord (s : State) : State :=
  let every := s.fld R.CNT_HISTORY F.CNT_HISTORY_EVERY
  let size := s.fld R.MEM_HISTORY_SIZE F.MEM_HISTORY_SIZE_VALUE / 1548288
  if every = 0 ∨ s.cnt.series % every ≠ 0 ∨ size = 0 ∨ s.flag R.MEM_CTRL F.MEM_CTRL_AREAS_ENABLE = false ∨
      s.cfg.wellheadDown then s
  else if 2 ≤ s.fld R.PLN_WH_LOAD F.PLN_WH_LOAD_LEVEL then { s with cnt.histSkipped := s.cnt.histSkipped + 1 }
  else
    let r := s.fld R.CNT_HISTORY F.CNT_HISTORY_RECORDS
    let base := s.fld R.MEM_HISTORY_BASE F.MEM_HISTORY_BASE_VALUE + 1548288 * (r % size)
    let s := (List.range 378).foldl (fun s p => s.devWrite (base + 4096 * p) (s.cnt.published.pageBytes p)) s
    s.incFld R.CNT_HISTORY F.CNT_HISTORY_RECORDS

/-- The built snapshot is published by switching banks (spec/18 R470, R475). -/
def execSnapshotPublish (s : State) : Out :=
  match s.cnt.building with
  | none => .next s
  | some n =>
    let s := (s.setFld R.CNT_SNAP_STATUS F.CNT_SNAP_STATUS_GATHERING 0).incFld R.CNT_SNAP_STATUS F.CNT_SNAP_STATUS_SEQ
    let s := { s with
      cnt.building := none
      cnt.published := { n with seq := s.cnt.published.seq + 1, skipped := s.cnt.histSkipped }
      cnt.series := if n.periodic then s.cnt.series + 1 else s.cnt.series }
    let s := if n.notify then s.raise 8 else s
    .next (if n.periodic then s.historyRecord else s)

/-- WRAP and LOWER of a block, or of all blocks, clear at once (spec/18 R467, Table 18.11). -/
def State.counterClear (s : State) (block : Nat) : State :=
  let f (k : Nat) (c : Counter) : Counter :=
    if block = 0xFF ∨ k / 2 ^ 17 = block then { c with wrap := false, lower := false } else c
  { s with cnt.counters := mapCounters f s.cnt.counters }.setFld R.CNT_CLEAR F.CNT_CLEAR_BLOCK block

def execCounterClear (block : BitVec 8) (s : State) : Out := .next (s.counterClear block.toNat)

/-- A copy of pages starts: destination as CNT_COPY gives it, first page, pages (spec/18 R473). A write that sets GO while
a copy runs changes nothing. -/
def State.counterCopy (s : State) (dest : Word) (first count : Nat) : State :=
  if s.cnt.copying.isSome then s
  else
    let s := s.wr R.CNT_COPY (F.CNT_COPY_HOST.put (F.CNT_COPY_HOST.get dest) ||| F.CNT_COPY_ADDR.put (F.CNT_COPY_ADDR.get dest))
    let s := s.wr R.CNT_COPY_CTRL
      (F.CNT_COPY_CTRL_GO.put 1 ||| F.CNT_COPY_CTRL_FIRST.put first ||| F.CNT_COPY_CTRL_COUNT.put count)
    { s with cnt.copying := some (s.rd R.CNT_COPY, first, count) }

def execCounterCopy (dest : Word) (first count : BitVec 12) (s : State) : Out :=
  .next (s.counterCopy dest first.toNat count.toNat)

/-- The copy ends: it holds pages of one published snapshot, since a copy restarts when its snapshot is replaced. A device
destination outside DEVICE space takes nothing (log entry 12). -/
def execCounterCopyDone (s : State) : Out :=
  match s.cnt.copying with
  | none => .next s
  | some (dest, first, count) =>
    let host := F.CNT_COPY_HOST.get dest = 1
    let base := F.CNT_COPY_ADDR.get dest / 64 * 64
    let last := min (first + count) 4064
    let one (s : State) (i : Nat) : State :=
      let a := base + 4096 * i
      let b := s.cnt.published.pageBytes (first + i)
      if host then s.hostWrite (BitVec.ofNat 64 a) b else if s.deviceOk a 4096 then s.devWrite a b else s
    let s := (List.range (last - first)).foldl one s
    .next (({ s with cnt.copying := none }.setFld R.CNT_COPY_CTRL F.CNT_COPY_CTRL_GO 0).raise 8)

end Sys2Proof.Machine
end

