-- ==== Sys2Proof/Machine/Net.lean ====
section
/-! DEFINITION. Frames the module builds: Ethernet, IPv4 and IPv6, UDP, the Haloux Fabric Header (spec/07 R196), far-peg
messages (spec/07 R217); and the internal ports (spec/08 R224). -/

namespace Sys2Proof.Machine

/-- The UDP checksum over IPv6: pseudo header, UDP header and payload; zero is sent as ones. -/
def udp6Checksum (src dst : Nat) (udp : Bytes) : Nat :=
  let c := inetChecksum (beBytes 16 src ++ beBytes 16 dst ++ beBytes 4 udp.length ++ beBytes 4 17 ++ udp)
  if c = 0 then 0xFFFF else c

/-- A UDP header and payload with a given checksum. -/
def udpBytes (sport dport csum : Nat) (payload : Bytes) : Bytes :=
  beBytes 2 sport ++ beBytes 2 dport ++ beBytes 2 (8 + payload.length) ++ beBytes 2 csum ++ payload

/-- A UDP datagram over IPv6. What the spec states of no header field (hop limit, traffic class, flow label) comes from
`x` (log entry 20). -/
def udp6 (src dst sport dport x : Nat) (payload : Bytes) : Bytes :=
  let c := udp6Checksum src dst (udpBytes sport dport 0 payload)
  beBytes 4 (6 * 2 ^ 28 + x / 256 % 2 ^ 28) ++ beBytes 2 (8 + payload.length) ++ beBytes 1 17 ++ beBytes 1 (x % 256) ++
    beBytes 16 src ++ beBytes 16 dst ++ udpBytes sport dport c payload

/-- An IPv4-mapped address. -/
def ipv4Mapped (a : Nat) : Bool := a / 2 ^ 32 == 0xFFFF

/-- An Ethernet header. -/
def ethHeader (dmac smac etype : Nat) : Bytes := beBytes 6 dmac ++ beBytes 6 smac ++ beBytes 2 etype

/-- A frame without FCS brought to the least length of IEEE 802.3 with zeros. -/
def padFrame (f : Bytes) : Bytes := f ++ List.replicate (60 - f.length) 0

/-- A UDP datagram over IPv4 with a zero UDP checksum; TTL, type of service and identification come from `x` (log entry
20). -/
def udp4 (src dst sport dport x : Nat) (payload : Bytes) : Bytes :=
  let h (c : Nat) : Bytes := beBytes 1 0x45 ++ beBytes 1 (x / 256 % 256) ++ beBytes 2 (28 + payload.length) ++
    beBytes 2 (x / 2 ^ 16 % 2 ^ 16) ++ beBytes 2 0 ++ beBytes 1 (x % 256) ++ beBytes 1 17 ++ beBytes 2 c ++ beBytes 4 src ++
    beBytes 4 dst
  h (inetChecksum (h 0)) ++ udpBytes sport dport 0 payload

/-- The fields of an HFH (spec/07 Tables 7.2, 7.3); version 1 has no domain and no format. -/
structure Hfh where
  version : Nat
  flags : Nat
  cls : Nat
  domain : Nat := 0
  seq : Nat
  group : Nat
  op : Nat
  chunk : Nat
  format : Nat := 0
  deriving DecidableEq, Repr

/-- Bytes of an HFH in its version (1: 12 bytes, 2: 16 bytes). -/
def Hfh.bytes (h : Hfh) : Bytes :=
  let b := if h.version = 1 then
      beBytes 1 (16 + h.flags % 16) ++ beBytes 1 (h.cls * 32) ++ beBytes 2 (h.group * 16 + h.op) ++ beBytes 4 h.seq ++
        beBytes 2 h.chunk
    else beBytes 1 (h.version * 16 + h.flags % 16) ++ beBytes 1 (h.cls * 32) ++ beBytes 2 (h.domain * 16) ++
      beBytes 4 h.seq ++ beBytes 2 (h.group * 16 + h.op) ++ beBytes 3 h.chunk ++ beBytes 1 h.format
  b ++ beBytes 2 (crc16 b)

/-- The length of an HFH of a version. -/
def hfhLen (version : Nat) : Nat := if version = 1 then 12 else 16

/-- The fields that bytes of a version spell. -/
def parseHfh (version : Nat) (b : Bytes) : Hfh :=
  let f := byteAt b 0 % 16
  let c := byteAt b 1 / 32
  if version = 1 then
    { version := 1, flags := f, cls := c, seq := beAt b 4 4, group := beAt b 2 2 / 16, op := beAt b 2 2 % 16,
      chunk := beAt b 8 2 }
  else
    { version := version, flags := f, cls := c, domain := beAt b 2 2 / 16, seq := beAt b 4 4, group := beAt b 8 2 / 16,
      op := beAt b 8 2 % 16, chunk := beAt b 10 3, format := byteAt b 13 }

/-- Whether the reserved bits of an HFH are zero. -/
def hfhReservedOk (version : Nat) (b : Bytes) : Bool :=
  byteAt b 1 % 32 == 0 &&
    (if version = 1 then byteAt b 0 / 2 % 2 == 0 else beAt b 2 2 % 16 == 0)

/-- Whether the CRC of an HFH is right. -/
def hfhCrcOk (version : Nat) (b : Bytes) : Bool :=
  let n := hfhLen version - 2
  beAt b n 2 == crc16 (slice b 0 n)

/-- A frame enters at the internal port of a quadrant (spec/08 R224). -/
def State.emitInternal (s : State) (q cls : Nat) (bytes : Bytes) (route : InnerRoute) : State :=
  { s with swc.internal := sset [] s.swc.internal q (sget [] s.swc.internal q ++ [⟨cls, bytes, route⟩]) }

/-- The module's own far-peg address (spec/07 R217). -/
def State.farAddr (s : State) (identity : Nat) : Nat := (s.rd R.FWD_FAR_PREFIX).toNat * 2 ^ 64 + identity

/-- The module's identity (spec/16 Table 16.8). -/
def State.identity (s : State) : Word := s.rd R.GLB_ID

/-- The fields of a far-peg message (spec/07 Table 7.12). -/
structure FarMsg where
  kind : Nat
  slot : Nat
  sender : Nat
  agent : Nat
  who : Nat
  domain : Nat
  peg : Nat
  seq : Nat
  op : Nat
  result : Nat
  value : Nat
  oldest : Nat
  incarnation : Nat
  deriving DecidableEq, Repr

/-- The 48 bytes of a far-peg message. -/
def FarMsg.bytes (m : FarMsg) : Bytes :=
  let b := beBytes 1 m.kind ++ beBytes 1 0x10 ++ beBytes 1 m.slot ++ beBytes 1 0 ++ beBytes 8 m.sender ++
    beBytes 1 (m.agent * 16) ++ beBytes 1 0 ++ beBytes 2 m.who ++ beBytes 2 (m.domain * 16) ++ beBytes 2 m.peg ++
    beBytes 4 m.seq ++ beBytes 1 m.op ++ beBytes 1 m.result ++ beBytes 2 0 ++ beBytes 8 m.value ++ beBytes 4 m.oldest ++
    beBytes 4 m.incarnation
  b ++ beBytes 4 (crc32c b)

/-- The message that 48 bytes spell; none when the CRC is wrong or a reserved field is not zero (spec/07 R218). -/
def parseFar (b : Bytes) : Option FarMsg :=
  if b.length ≠ 48 ∨ beAt b 44 4 ≠ crc32c (slice b 0 44) ∨ byteAt b 1 ≠ 0x10 ∨ 4 ≤ byteAt b 2 ∨ byteAt b 3 ≠ 0 ∨
      byteAt b 12 % 16 ≠ 0 ∨ byteAt b 13 ≠ 0 ∨ beAt b 16 2 % 16 ≠ 0 ∨ 2 ≤ byteAt b 24 ∨ beAt b 26 2 ≠ 0 ∨
      byteAt b 0 = 0 ∨ 3 ≤ byteAt b 0 ∨ (byteAt b 0 = 1 ∧ byteAt b 25 ≠ 0) then none
  else some
    { kind := byteAt b 0, slot := byteAt b 2, sender := beAt b 4 8, agent := byteAt b 12 / 16, who := beAt b 14 2,
      domain := beAt b 16 2 / 16, peg := beAt b 18 2, seq := beAt b 20 4, op := byteAt b 24, result := byteAt b 25,
      value := beAt b 28 8, oldest := beAt b 36 4, incarnation := beAt b 40 4 }

/-- A far-peg message travels to the module of an identity: a datagram in class FWD_FARPEG_CTRL.CLASS from the internal
port of the hub's quadrant (log entry 20). -/
def State.sendFar (s : State) (target : Nat) (m : FarMsg) : State :=
  let port := s.fld R.FWD_FARPEG_CTRL F.FWD_FARPEG_CTRL_UDP_PORT
  let mac := (s.rd R.FWD_ROUTER_MAC).toNat % 2 ^ 48
  let (x, s) := s.draw
  s.emitInternal 0 (s.fld R.FWD_FARPEG_CTRL F.FWD_FARPEG_CTRL_CLASS)
    (ethHeader mac mac 0x86DD ++ udp6 (s.farAddr s.identity.toNat) (s.farAddr target) port port x.toNat m.bytes) .lookup

end Sys2Proof.Machine
end

