-- ==== Sys2Proof/Machine/PlnOps.lean ====
section
/-! DEFINITION. The plane as the other parts of the module use it: messages, the event log, and the events a worker reports to
its manager (spec/17 R437 to R442, R447, R451, R454). -/

namespace Sys2Proof.Machine

/-- The role in force: 0 none, 1 worker, 2 manager, 3 standby (spec/17 Table 17.1). -/
def State.role (s : State) : Nat := s.fld R.PLN_STATUS F.PLN_STATUS_ROLE

/-- The identity of the acting manager as a worker or standby knows it (spec/17 R440). -/
def State.actingManager (s : State) : Word :=
  if s.flag R.PLN_STATUS F.PLN_STATUS_ACTING then s.committed R.PLN_STANDBY_ID else s.committed R.PLN_MANAGER_ID

/-- A module's address on a management port (spec/17 R438). -/
def State.plnAddr (s : State) (port : Nat) (id : Word) : Nat :=
  (s.committed (if port = 0 then R.PLN_PREFIX_A else R.PLN_PREFIX_B)).toNat * 2 ^ 64 + id.toNat

/-- A plane message without its CRC (spec/17 Table 17.3). -/
def State.plnBytes (s : State) (kind : Nat) (body : Bytes) : Bytes :=
  beBytes 1 kind ++ beBytes 1 0x10 ++ beBytes 2 (s.cfld R.PLN_CFG F.PLN_CFG_PLANE) ++ beBytes 8 s.identity.toNat ++
    beBytes 4 (s.fld R.PLN_STATUS F.PLN_STATUS_TERM) ++ beBytes 4 s.pln.sequence.toNat ++ beBytes 2 body.length ++
    beBytes 2 0 ++ body

/-- A plane message leaves on a management port for a module; the datagram is shown from its IPv6 header on (log entry
29). -/
def State.plnSend (s : State) (port : Nat) (dest : Word) (kind : Nat) (body : Bytes) : State :=
  let m := s.plnBytes kind body
  let (x, s) := s.draw
  let s := { s with pln.sequence := s.pln.sequence + 1 }
  s.sendMgmt port (udp6 (s.plnAddr port s.identity) (s.plnAddr port dest) 50595 50595 x.toNat (m ++ beBytes 4 (crc32c m)))

/-- A plane event (spec/17 Table 17.14). -/
def State.plnEvent (s : State) (kind worker port group opSeq : Nat) (id : Word) : State :=
  let k := s.fld R.PLN_EVENT_HEAD F.PLN_EVENT_HEAD_COUNT % 256
  (((((s.wr (R.PLN_EVENT k) (F.PLN_EVENT_KIND.put kind ||| F.PLN_EVENT_WORKER.put worker ||| F.PLN_EVENT_PORT.put port |||
    F.PLN_EVENT_GROUP.put group ||| F.PLN_EVENT_OP_SEQ.put opSeq)).wr (R.PLN_EVENT_INFO k) s.stamp).wr
    (R.PLN_EVENT_ID k) id)).incFld R.PLN_EVENT_HEAD F.PLN_EVENT_HEAD_COUNT).raise 7

/-- The three words of an event as an EVENT message carries them. -/
def State.eventBody (s : State) (kind worker port group opSeq : Nat) (id : Word) : Bytes :=
  beBytes 8 (F.PLN_EVENT_KIND.put kind ||| F.PLN_EVENT_WORKER.put worker ||| F.PLN_EVENT_PORT.put port |||
    F.PLN_EVENT_GROUP.put group ||| F.PLN_EVENT_OP_SEQ.put opSeq).toNat ++ beBytes 8 s.stamp.toNat ++ beBytes 8 id.toNat

/-- The key of a module in `Pln.heard`: a worker's index, or 1023 for the manager; port 0 MGA, 1 MGB. -/
def heardKey (n port : Nat) : Nat := 2 * n + port

/-- The management port on which a message to a module leaves: MGA, or MGB while only MGB has been heard in the last
300 ms (spec/17 R441). -/
def State.pathTo (s : State) (n : Nat) : Nat :=
  let live (p : Nat) : Bool := match s.pln.heard.find? fun x => x.1 == heardKey n p with
    | some x => decide (s.mono < x.2 + 300000000)
    | none => false
  b2n (!live 0 && live 1)

/-- An EVENT message for the acting manager: sent, or kept while the manager is lost, the oldest beyond 64 dropped (spec/17
R442). Only a worker or standby sends one. -/
def State.plnReport (s : State) (body : Bytes) : State :=
  if s.role = 1 ∨ s.role = 3 then
    if s.flag R.PLN_STATUS F.PLN_STATUS_MANAGER_PRESENT then s.plnSend (s.pathTo 1023) s.actingManager 0xD body
    else
      let l := s.pln.keptEvents ++ [body]
      { s with pln.keptEvents := l.drop (l.length - 64) }
  else s

/-- Whether a plane flip is prepared here and not yet committed: EFLIP and SPL_FLIP from another source are refused (spec/17
R446). -/
def State.planeHolds (s : State) : Bool := match s.pln.prepared with
  | some (_, _, committed) => !committed
  | none => false

/-- The flip prepared here ends. -/
def State.planeFree (s : State) : State :=
  { s with pln.prepared := none }.setFld R.PLN_STATUS F.PLN_STATUS_PREPARED 0

/-- The result of the manager's flip: STATE (3 done, 4 aborted, 5 split), with the participant and reason, and its event. -/
def State.flipEnds (s : State) (f : ManagerFlip) (state worker reason : Nat) : State :=
  let off := R.PLN_FLIP_STATUS
  let s := ((s.setFld off F.PLN_FLIP_STATUS_STATE state).setFld off F.PLN_FLIP_STATUS_WORKER worker).setFld off
    F.PLN_FLIP_STATUS_REASON reason
  let s : State := { s.setFld R.PLN_FLIP F.PLN_FLIP_GO 0 with pln.flip := none }
  s.plnEvent (state + 5) (if state = 3 then 0x3FF else worker) 0 reason f.id.toNat 0

/-- A DONE is recorded. -/
def ManagerFlip.doneBy (f : ManagerFlip) (n r : Nat) : ManagerFlip :=
  let f := { f with done := if f.done.contains n then f.done else f.done ++ [n] }
  if r ≠ 0 ∧ f.bad = none then { f with bad := some (n, r) } else f

/-- From T on, the manager's flip is split once a DONE was refused, and done once every DONE is in (spec/17 R446, step 6). -/
def State.flipSettle (s : State) : State := match s.pln.flip with
  | some f =>
    if f.committing = false ∨ s.now < f.instant then s
    else match f.bad with
      | some (n, r) => s.flipEnds f 5 n r
      | none => if f.participants.all fun n => f.done.contains n then s.flipEnds f 3 0 0 else s
  | none => s

/-- This module takes a flip of a kind at its instant: a plane flip committed here is over, and the manager
records it (spec/17 R442, R446). -/
def State.planeFlipped (s : State) (kind : Nat) : State :=
  let s := match s.pln.prepared with
    | some (k, _, true) => if k = kind then s.planeFree else s
    | _ => s
  s.flipSettle

/-- A liveness dispute travels: recorded in the PLN log and sent to the acting manager (spec/17 R451). -/
def State.plnDispute (s : State) (port group opSeq member endpoint : Nat) : State :=
  let id : Word := BitVec.ofNat 64 (member % 4096 * 2 ^ 52 + endpoint % 2 ^ 20 * 2 ^ 32)
  let body := s.eventBody 0x0E 0x3FF port group opSeq id
  (s.plnEvent 0x0E 0x3FF port group opSeq id).plnReport body

end Sys2Proof.Machine
end

