-- ==== Sys2Proof/Machine/Contexts.lean ====
section
/-! DEFINITION. Contexts of the three profiles (spec/04 R93 to R97), pegs and who may use them (R108 to R113), and work items
(spec/03 R77). -/

namespace Sys2Proof.Machine

/-! ## Contexts -/

/-- The index of a tenon (spec/18 Table 18.5). -/
def tenonIx (q row col : Nat) : Nat := 960 * q + 32 * row + col

/-- The key of a context: C contexts, then Basin slots, then tenon contexts. -/
def ctxKey : Ctx → Nat
  | .c n => n
  | .b e s => 64 + 1024 * e + s
  | .t q row col n => 8256 + 4 * tenonIx q row col + n

/-- The profile code of a context (spec/04 Table 4.16): 1 T, 2 B, 3 C. -/
def profileOf : Ctx → Nat
  | .c _ => 3
  | .b _ _ => 2
  | .t _ _ _ _ => 1

/-- WHO of Table 4.26 (spec/04). The agent code equals the profile code. -/
def whoOf : Ctx → Nat
  | .c n => n
  | .b e s => e * 2 ^ 13 + s
  | .t q row col n => q * 2 ^ 14 + row * 2 ^ 9 + col * 2 ^ 4 + n

/-- The tenon of a T context. -/
def tenonOf : Ctx → Nat
  | .t q row col _ => tenonIx q row col
  | _ => 0

/-- The quadrant of a context's agent; the hub's internal port is that of quadrant 0 (log entry 20). -/
def quadOf : Ctx → Nat
  | .c _ => 0
  | .b e _ => e / 2
  | .t q _ _ _ => q

/-- The context number within its agent, of 2 bits for a tenon (spec/04 Table 4.3). -/
def numberOf : Ctx → Nat
  | .c n => n
  | .b _ s => s
  | .t _ _ _ n => n

/-- The state of a context. -/
def State.ctx (s : State) (c : Ctx) : Context := sget {} s.dxn.ctxs (ctxKey c)

/-- A context takes a state. -/
def State.setCtx (s : State) (c : Ctx) (x : Context) : State :=
  { s with dxn.ctxs := sset {} s.dxn.ctxs (ctxKey c) x }

/-- g register i: g0 reads zero (spec/04 Table 4.2). -/
def Context.reg (x : Context) (i : Nat) : Word := if i = 0 then 0 else sget 0 x.g i

/-- g register i takes a value: g0 discards it. -/
def Context.setReg (x : Context) (i : Nat) (v : Word) : Context :=
  if i = 0 then x else { x with g := sset 0 x.g i v }

/-- Predicate i. -/
def Context.pred (x : Context) (i : Nat) : Bool := x.p.getLsbD i

/-- Predicate i takes a value. -/
def Context.setPred (x : Context) (i : Nat) (b : Bool) : Context :=
  { x with p := if b then x.p ||| BitVec.ofNat 8 (2 ^ i) else x.p &&& ~~~BitVec.ofNat 8 (2 ^ i) }

/-- The long operations of a context. -/
def State.opsOf (s : State) (c : Ctx) : List LongOp := s.dxn.longOps.filter fun o => o.ctx == c

/-- How many long operations a context may have outstanding (spec/04 R101). -/
def longLimit (c : Ctx) : Nat := match profileOf c with
  | 1 => 32
  | 2 => 16
  | _ => 256

/-- A context starts: the values of R96, a new incarnation (R114). -/
def State.startCtx (s : State) (c : Ctx) (x : Context) : State :=
  let s := { s with dxn.incarnations := s.dxn.incarnations + 1 }
  let ctr : BitVec 128 := if profileOf c = 1 then BitVec.ofNat 128 (numberOf c * 2 ^ 126) else 0
  s.setCtx c { x with status := .running, incarnation := s.dxn.incarnations, rngCtr := ctr }

/-! ## Work items -/

/-- A work item by its number. -/
def State.item? (s : State) (i : Nat) : Option Item := s.host.items.find? fun x => x.id == i

/-- A change of one work item. -/
def State.updItem (s : State) (i : Nat) (f : Item → Item) : State :=
  { s with host.items := s.host.items.map fun x => if x.id = i then f x else x }

/-- A work item is done with a status; its completion record follows (spec/03 R82, R84). No rule of the spec gives a descriptor the
status PLUMB_REFUSED of Table 3.10, and none ends with it (log entry 68). -/
def State.itemDone (s : State) (i status detail : Nat) (result : Word) : State :=
  s.updItem i fun x => { x with stage := .done, status := status, detail := detail, result := result }

/-! ## Pegs -/

/-- The value of a peg. -/
def State.peg (s : State) (p : Nat) : Word := sget 0 s.dxn.pegs p

/-- The owner of a peg. -/
def State.pegDom (s : State) (p : Nat) : BitVec 12 := sget 0 s.dxn.pegOwner p

/-- Whether a value satisfies a wait (spec/04 Table 4.5). -/
def waitHolds (w : PegWait) (v : Word) : Bool := if w.eq then v == w.value else w.value.ule v

/-- A wait has seen a value of its peg (spec/04 R112). -/
def Context.sees (x : Context) (p : Nat) (v : Word) : Context :=
  match x.wait with
  | some w => if w.peg = p ∧ waitHolds w v then { x with wait := some { w with hit := true } } else x
  | none => x

/-- WAIT_PEG and WAIT_VALUE of a descriptor (spec/03 Table 3.6). -/
def Item.waitPeg (i : Item) : Nat := leAt i.bytes 28 2

/-- A parked descriptor has seen a value of its peg (spec/03 R80). -/
def Item.sees (i : Item) (p : Nat) (v : Word) : Item :=
  if i.stage = .parked ∧ i.waitPeg = p ∧ leAt i.bytes 32 8 ≤ v.toNat then { i with hit := true } else i

/-- A peg takes a value, and every waiter sees it (spec/04 R112, R113). -/
def State.setPeg (s : State) (p : Nat) (v : Word) : State :=
  { s with
    dxn.pegs := sset 0 s.dxn.pegs p v
    dxn.ctxs := s.dxn.ctxs.map fun x => (x.1, x.2.sees p v)
    host.items := s.host.items.map fun i => i.sees p v }

/-- A peg is added to. -/
def State.addPeg (s : State) (p : Nat) (v : Word) : State := s.setPeg p (s.peg p + v)

/-- Whether a domain may use a peg: `isC` for C contexts and descriptors (spec/04 R108). -/
def State.pegOk (s : State) (isC : Bool) (domain : BitVec 12) (p : Nat) : Bool :=
  if domain = 0 then isC || decide (1024 ≤ p) else decide (1024 ≤ p) && s.pegDom p == domain

/-- Whether a context may use a peg. -/
def State.ctxPegOk (s : State) (c : Ctx) (p : Nat) : Bool := s.pegOk (profileOf c == 3) (s.ctx c).domain p

/-- The assignment of pegs to a domain: the reason, and the state after it (spec/04 R109). -/
def State.pegAssign (s : State) (first count domain : Nat) : Nat × State :=
  let inside (p : Nat) : Bool := decide (first ≤ p) && decide (p < first + count)
  if count = 0 ∨ first < 1024 ∨ 65536 < first + count then (0x10, s)
  else if (s.dxn.ctxs.any fun x => match x.2.wait with | some w => inside w.peg | none => false) ∨
      (s.dxn.longOps.any fun o => match o.peg with | some p => inside p.toNat | none => false) then (0x17, s)
  else (0, (List.range count).foldl (fun s i => { s with
    dxn.pegs := sset 0 s.dxn.pegs (first + i) 0
    dxn.pegOwner := sset 0 s.dxn.pegOwner (first + i) (BitVec.ofNat 12 domain) }) s)

end Sys2Proof.Machine
end

