-- ==== Sys2Proof/Machine/Float.lean ====
section
/-! DEFINITION. Floating-point values, exact arithmetic on them and rounding (spec/04 R116 to R121): the one place where a
result is rounded and flags are found. -/

namespace Sys2Proof.Machine

/-- A floating-point value: a NaN (signaling or not), an infinity, or ± m × 2^e. -/
inductive Fp where
  | nan (signaling : Bool)
  | inf (neg : Bool)
  | fin (neg : Bool) (m : Nat) (e : Int)
  deriving DecidableEq, Repr

/-- A binary format: exponent and fraction widths, bias, whether it has infinities and NaNs as IEEE 754 has them, and the
largest finite magnitude (fraction with hidden bit, exponent of its unit) where it is not IEEE's. -/
structure Fmt where
  ew : Nat
  mw : Nat
  bias : Int
  ieee : Bool
  maxM : Nat
  maxE : Int
  deriving DecidableEq, Repr

/-- An IEEE 754 format. -/
def ieeeFmt (ew mw : Nat) : Fmt :=
  let b : Int := 2 ^ (ew - 1) - 1
  ⟨ew, mw, b, true, 2 ^ (mw + 1) - 1, b - mw⟩

/-- binary16 -/
def fmtFP16 : Fmt := ieeeFmt 5 10
/-- BF16 -/
def fmtBF16 : Fmt := ieeeFmt 8 7
/-- binary32 -/
def fmtFP32 : Fmt := ieeeFmt 8 23
/-- binary64 -/
def fmtFP64 : Fmt := ieeeFmt 11 52
/-- E5M2 -/
def fmtE5M2 : Fmt := ieeeFmt 5 2
/-- E4M3: largest 448 = 14 × 2^5. -/
def fmtE4M3 : Fmt := ⟨4, 3, 7, false, 14, 5⟩
/-- E3M2: largest 28 = 7 × 2^2. -/
def fmtE3M2 : Fmt := ⟨3, 2, 3, false, 7, 2⟩
/-- E2M3: largest 7.5 = 15 × 2^-1. -/
def fmtE2M3 : Fmt := ⟨2, 3, 1, false, 15, -1⟩
/-- E2M1: largest 6 = 3 × 2^1. -/
def fmtE2M1 : Fmt := ⟨2, 1, 1, false, 3, 1⟩

/-- Width of a format. -/
def Fmt.width (f : Fmt) : Nat := 1 + f.ew + f.mw

/-- Least normal exponent. -/
def Fmt.emin (f : Fmt) : Int := 1 - f.bias

/-- The value of an encoding. E4M3 has one NaN code, 0x7F with either sign; the smaller formats have none. -/
def Fmt.dec (f : Fmt) (b : Nat) : Fp :=
  let neg := bitOf b (f.ew + f.mw)
  let x := b / 2 ^ f.mw % 2 ^ f.ew
  let m := b % 2 ^ f.mw
  if f.ieee ∧ x = 2 ^ f.ew - 1 then (if m = 0 then .inf neg else .nan (decide (m < 2 ^ (f.mw - 1))))
  else if f = fmtE4M3 ∧ x = 15 ∧ m = 7 then .nan false
  else if x = 0 then .fin neg m (f.emin - f.mw)
  else .fin neg (m + 2 ^ f.mw) (x - f.bias - f.mw)

/-- The canonical NaN of a format (spec/04 R121). -/
def Fmt.nanCode (f : Fmt) : Nat :=
  if f.ieee then (2 ^ f.ew - 1) * 2 ^ f.mw + 2 ^ (f.mw - 1) else 2 ^ (f.ew + f.mw) - 1

/-- Flags in the order of FFLAGS: inexact, underflow, overflow, divide-by-zero, invalid. -/
abbrev Flags := BitVec 5

/-- inexact -/
def flInexact : Flags := 1
/-- underflow -/
def flUnderflow : Flags := 2
/-- overflow -/
def flOverflow : Flags := 4
/-- divide-by-zero -/
def flDivZero : Flags := 8
/-- invalid -/
def flInvalid : Flags := 16

/-- Rounding: to nearest even, or stochastic with 16 bits r (spec/04 R120). -/
inductive Rnd where
  | rne
  | sr (r : Nat)
  deriving DecidableEq, Repr

/-- m × 2^e as a multiple of 2^q under a rounding. -/
def roundAt (r : Rnd) (m : Nat) (e q : Int) : Nat :=
  if q ≤ e then m * 2 ^ (e - q).toNat
  else
    let s := (q - e).toNat
    match r with
    | .rne =>
      let k := m / 2 ^ s
      let rem := m % 2 ^ s
      if 2 * rem > 2 ^ s ∨ (2 * rem = 2 ^ s ∧ k % 2 = 1) then k + 1 else k
    | .sr r => (m * 2 ^ 16 + r * 2 ^ s) / 2 ^ (s + 16)

/-- Whether two magnitudes m × 2^e agree. -/
def sameMag (m : Nat) (e : Int) (k : Nat) (q : Int) : Bool :=
  if q ≤ e then m * 2 ^ (e - q).toNat == k else m == k * 2 ^ (q - e).toNat

/-- Whether m × 2^e is above k × 2^q. -/
def aboveMag (m : Nat) (e : Int) (k : Nat) (q : Int) : Bool :=
  if q ≤ e then decide (k < m * 2 ^ (e - q).toNat) else decide (k * 2 ^ (q - e).toNat < m)

/-- The encoding of a finite magnitude that the format holds exactly, k × 2^q. -/
def Fmt.encMag (f : Fmt) (k : Nat) (q : Int) : Nat :=
  if k = 0 then 0
  else
    let x : Int := (Nat.log2 k : Int) + q
    if x < f.emin then k * 2 ^ (q - (f.emin - f.mw)).toNat
    else
      let d := (f.mw : Int) - Nat.log2 k
      let m := if 0 ≤ d then k * 2 ^ d.toNat else k / 2 ^ (-d).toNat
      (x + f.bias).toNat * 2 ^ f.mw + m % 2 ^ f.mw

/-- Round ± m × 2^e to a format: the encoding and its flags. Overflow gives infinity, or in a format without infinity the
largest finite value. Tininess is found after rounding, and underflow needs inexactness (spec/04 R121). -/
def Fmt.round (f : Fmt) (r : Rnd) (neg : Bool) (m : Nat) (e : Int) : Nat × Flags :=
  let sg := b2n neg * 2 ^ (f.ew + f.mw)
  if m = 0 then (sg, 0)
  else
    let x : Int := (Nat.log2 m : Int) + e
    let q := max x f.emin - f.mw
    let k := roundAt r m e q
    if aboveMag k q f.maxM f.maxE then
      (sg + (if f.ieee then (2 ^ f.ew - 1) * 2 ^ f.mw else f.encMag f.maxM f.maxE), flOverflow ||| flInexact)
    else
      let inexact := !sameMag m e k q
      let q1 := x - f.mw
      let tiny := decide (x < f.emin) && !(aboveMag (roundAt r m e q1) q1 (2 ^ f.mw) (f.emin - f.mw) ||
        sameMag (roundAt r m e q1) q1 (2 ^ f.mw) (f.emin - f.mw))
      (sg + f.encMag k q, (if inexact then flInexact else 0) ||| (if inexact && tiny then flUnderflow else 0))

/-- Encode a value with rounding. -/
def Fmt.enc (f : Fmt) (r : Rnd) : Fp → Nat × Flags
  | .nan _ => (f.nanCode, 0)
  | .inf neg => (b2n neg * 2 ^ (f.ew + f.mw) +
      (if f.ieee then (2 ^ f.ew - 1) * 2 ^ f.mw else f.encMag f.maxM f.maxE), if f.ieee then 0 else flOverflow)
  | .fin neg m e => f.round r neg m e

/-! ## Exact arithmetic -/

/-- A signed integer m × 2^e at a common exponent. -/
def Fp.at (x : Fp) (q : Int) : Int := match x with
  | .fin neg m e => (if neg then -1 else 1) * (m * 2 ^ (e - q).toNat : Nat)
  | _ => 0

/-- Whether a value is a signaling NaN. -/
def Fp.snan : Fp → Bool
  | .nan s => s
  | _ => false

/-- Whether a value is a NaN. -/
def Fp.isNan : Fp → Bool
  | .nan _ => true
  | _ => false

/-- The sign. -/
def Fp.neg? : Fp → Bool
  | .nan _ => false
  | .inf n => n
  | .fin n _ _ => n

/-- The opposite value. -/
def Fp.negate : Fp → Fp
  | .nan s => .nan s
  | .inf n => .inf (!n)
  | .fin n m e => .fin (!n) m e

/-- The invalid flag of signaling operands. -/
def snanFlags (l : List Fp) : Flags := if l.any Fp.snan then flInvalid else 0

/-- The exact sum. A zero sum of opposite signs is +0. -/
def Fp.add (x y : Fp) : Fp × Flags :=
  match x, y with
  | .nan a, .nan b => (.nan false, snanFlags [.nan a, .nan b])
  | .nan a, _ => (.nan false, snanFlags [.nan a])
  | _, .nan b => (.nan false, snanFlags [.nan b])
  | .inf a, .inf b => if a = b then (.inf a, 0) else (.nan false, flInvalid)
  | .inf a, .fin _ _ _ => (.inf a, 0)
  | .fin _ _ _, .inf b => (.inf b, 0)
  | .fin a m e, .fin b n f =>
    let q := min e f
    let v := Fp.at (.fin a m e) q + Fp.at (.fin b n f) q
    if v = 0 then (.fin (if m = 0 ∧ n = 0 then a && b else false) 0 q, 0)
    else (.fin (decide (v < 0)) v.natAbs q, 0)

/-- The exact product. -/
def Fp.mul (x y : Fp) : Fp × Flags :=
  match x, y with
  | .nan a, .nan b => (.nan false, snanFlags [.nan a, .nan b])
  | .nan a, _ => (.nan false, snanFlags [.nan a])
  | _, .nan b => (.nan false, snanFlags [.nan b])
  | .inf a, .inf b => (.inf (a != b), 0)
  | .inf a, .fin b n _ => if n = 0 then (.nan false, flInvalid) else (.inf (a != b), 0)
  | .fin a m _, .inf b => if m = 0 then (.nan false, flInvalid) else (.inf (a != b), 0)
  | .fin a m e, .fin b n f => (.fin (a != b) (m * n) (e + f), 0)

/-- The exact product and sum of a fused multiply-add. -/
def Fp.fma (x y z : Fp) : Fp × Flags :=
  if z.isNan ∧ x.isNan = false ∧ y.isNan = false then (.nan false, snanFlags [z])
  else
    let (p, a) := x.mul y
    let (r, b) := p.add z
    (r, a ||| b)

/-- A quotient to enough bits that every rounding of it is right: 128 more than the dividend's, with a sticky last bit. -/
def Fp.div (x y : Fp) : Fp × Flags :=
  match x, y with
  | .nan a, .nan b => (.nan false, snanFlags [.nan a, .nan b])
  | .nan a, _ => (.nan false, snanFlags [.nan a])
  | _, .nan b => (.nan false, snanFlags [.nan b])
  | .inf _, .inf _ => (.nan false, flInvalid)
  | .inf a, .fin b _ _ => (.inf (a != b), 0)
  | .fin a _ _, .inf b => (.fin (a != b) 0 0, 0)
  | .fin a m e, .fin b n f =>
    if n = 0 then (if m = 0 then (.nan false, flInvalid) else (.inf (a != b), flDivZero))
    else
      let t := m * 2 ^ 192
      (.fin (a != b) (2 * (t / n) + (if t % n = 0 then 0 else 1)) (e - f - 193), 0)

/-- A square root to enough bits, with a sticky last bit. -/
def Fp.sqrt (x : Fp) : Fp × Flags :=
  match x with
  | .nan a => (.nan false, snanFlags [.nan a])
  | .inf a => if a then (.nan false, flInvalid) else (.inf false, 0)
  | .fin a m e =>
    if m = 0 then (.fin a 0 e, 0)
    else if a then (.nan false, flInvalid)
    else
      let t := m * 2 ^ 192 * (if e % 2 = 0 then 1 else 2)
      let h := (e - (if e % 2 = 0 then 0 else 1)) / 2
      let r := isqrtFrom t (Nat.log2 t / 2 + 1) 0
      (.fin false (2 * r + (if r * r = t then 0 else 1)) (h - 97), 0)

/-- The order of two values that are not NaN: whether the first is below the second. -/
def Fp.lt (x y : Fp) : Bool :=
  match x, y with
  | .inf a, .inf b => a && !b
  | .inf a, _ => a
  | _, .inf b => !b
  | .fin a m e, .fin b n f => let q := min e f; decide (Fp.at (.fin a m e) q < Fp.at (.fin b n f) q)
  | _, _ => false

/-- Equality of two values that are not NaN; zeros are equal. -/
def Fp.eqv (x y : Fp) : Bool := !x.isNan && !y.isNan && !x.lt y && !y.lt x

/-- minimumNumber (max = false) or maximumNumber of IEEE 754-2019: −0 below +0, a number over a NaN. -/
def Fp.minNum (max : Bool) (x y : Fp) : Fp × Flags :=
  let fl := snanFlags [x, y]
  if x.isNan then (if y.isNan then (.nan false, fl) else (y, fl))
  else if y.isNan then (x, fl)
  else
    let less := x.lt y || (x.eqv y && x.neg? && !y.neg?)
    (if less != max then x else y, fl)

/-- A comparison of Table 5.3 (spec/05) on floating values, and its flags: LT and LE signal on every NaN, the others on
signaling ones (log entry 30). -/
def Fp.cmp (cond : Nat) (x y : Fp) : Bool × Flags :=
  let un := x.isNan || y.isNan
  let fl := if (cond = 2 ∨ cond = 3) ∧ un then flInvalid else snanFlags [x, y]
  let r := match cond with
    | 0 => x.eqv y
    | 1 => !x.eqv y
    | 2 => !un && x.lt y
    | 3 => !un && !y.lt x
    | _ => un
  (r, fl)

/-! ## Integers -/

/-- A signed integer cut to a width, as a number. -/
def wrapInt (w : Nat) (v : Int) : Nat := (v % 2 ^ w).toNat

/-- A signed integer saturated to a width. -/
def satInt (w : Nat) (v : Int) : Int := max (-2 ^ (w - 1)) (min (2 ^ (w - 1) - 1) v)

/-- Wrap or saturate, as a number (spec/04 R122). -/
def fitInt (w : Nat) (sat : Bool) (v : Int) : Nat := wrapInt w (if sat then satInt w v else v)

/-- A floating value as an integer of a width: rounded, saturated, NaN to 0 (spec/04 R122). -/
def Fp.toInt (r : Rnd) (w : Nat) (x : Fp) : Nat × Flags :=
  match x with
  | .nan _ => (0, flInvalid)
  | .inf neg => (wrapInt w (if neg then -2 ^ (w - 1) else 2 ^ (w - 1) - 1), flInvalid)
  | .fin neg m e =>
    let k := roundAt r m e 0
    let v : Int := if neg then -(k : Int) else k
    if satInt w v ≠ v then (wrapInt w (satInt w v), flInvalid)
    else (wrapInt w v, if sameMag m e k 0 then 0 else flInexact)

/-- An integer as a floating value. -/
def Fp.ofInt (v : Int) : Fp := .fin (decide (v < 0)) v.natAbs 0

/-! ## MX blocks (spec/04 R117, R118) -/

/-- An MX element format and its emax. -/
structure MxFmt where
  fmt : Fmt
  emax : Int
  deriving DecidableEq, Repr

/-- Whether a format has a NaN element. -/
def MxFmt.hasNan (f : MxFmt) : Bool := f.fmt.ieee || decide (f.fmt = fmtE4M3)

/-- floor(log2) of a nonzero magnitude. -/
def magLog (m : Nat) (e : Int) : Int := (Nat.log2 m : Int) + e

/-- The scale code of 32 values: step 1 to 3 of R118. -/
def MxFmt.scale (f : MxFmt) (l : List Fp) : Nat :=
  let ls := l.filterMap fun x => match x with
    | .fin _ m e => if m = 0 then none else some (magLog m e)
    | _ => none
  match ls with
  | [] => 0
  | a :: t =>
    let x := t.foldl max a - f.emax
    (max (-127) (min 127 x) + 127).toNat

/-- The block of 32 values: scale, element codes and flags (spec/04 R118). `rnd i` is the rounding of element i. -/
def MxFmt.block (f : MxFmt) (rnd : Nat → Rnd) (l : List Fp) : Nat × List Nat × Flags :=
  if f.hasNan = false ∧ l.any Fp.isNan then (0xFF, l.map fun _ => 0, 0)
  else
    let sc := f.scale l
    let els := l.zipIdx.map fun (x, i) => match x with
      | .nan _ => (if f.fmt.ieee then 0x7E else 0x7F, (0 : Flags))
      | .inf neg => f.fmt.enc .rne (.inf neg)
      | .fin neg m e =>
        let r := f.fmt.round (rnd i) neg m (e - ((sc : Int) - 127))
        if f.fmt.ieee ∧ r.2 &&& flOverflow ≠ 0 then
          (b2n neg * 2 ^ (f.fmt.ew + f.fmt.mw) + f.fmt.encMag f.fmt.maxM f.fmt.maxE, r.2)
        else r
    (sc, els.map Prod.fst, els.foldl (fun a x => a ||| x.2) 0)

/-- The value of an element of a block (spec/04 R118). -/
def MxFmt.value (f : MxFmt) (scale code : Nat) : Fp :=
  if scale = 0xFF then .nan false
  else match f.fmt.dec code with
    | .fin neg m e => .fin neg m (e + ((scale : Int) - 127))
    | x => x

end Sys2Proof.Machine
end

