-- ==== Sys2Proof/Machine/Buffer.lean ====
section
/-! DEFINITION. The packet buffers as everything that sends uses them: ports and their rates, cells and their accounting, egress
queues, the crossing of the mesh, mirror copies, and transmission (spec/08 R223 to R229, R236, R240, R244; spec/06 R169). -/

namespace Sys2Proof.Machine

/-! ## Ports -/

/-- MODE of a fibre pair. -/
def State.pairMode (s : State) (f : Nat) : Nat := s.fld (R.PRT_PAIR_CFG f) F.PRT_PAIR_CFG_MODE

/-- Lanes of a port in a mode (spec/06 Table 6.5). -/
def modeLanes (mode : Nat) : Nat := [4, 8, 2, 1].getD mode 1

/-- Lanes of a port. -/
def State.portLanes (s : State) (p : Nat) : Nat := modeLanes (s.pairMode (p / 8))

/-- Rate units of 100 Gb/s (spec/08). -/
def State.rateUnits (s : State) (p : Nat) : Nat := 2 * s.portLanes p

/-- The quadrant of a port index, or of an internal port 2048 + q. -/
def portQuad (p : Nat) : Nat := if p < 2048 then p / 512 else p - 2048

/-- The slice of a port index; an internal port belongs to the first slice of its quadrant (log entry 20). -/
def portSlice (p : Nat) : Nat := if p < 2048 then p / 256 else 2 * (p - 2048)

/-- A port slot's state beside its registers. -/
def State.port (s : State) (p : Nat) : Port := sget {} s.ports p

/-- A port slot takes a state. -/
def State.setPort (s : State) (p : Nat) (x : Port) : State := { s with ports := sset {} s.ports p x }

/-! ## Buffer profiles (spec/08 R225) -/

/-- A committed field of the buffer profile of a port's pair. -/
def State.bufFld (s : State) (p c : Nat) (f : Fld) : Nat :=
  let k := s.cfld (R.SWC_PAIR_PROFILE (p / 8)) F.SWC_PAIR_PROFILE_BUF
  s.cfld (R.SWC_BUF_PROFILE k c) f

/-- The reservation of (p, c) in cells. -/
def State.reservation (s : State) (p c : Nat) : Nat := s.rateUnits p * s.bufFld p c F.SWC_BUF_PROFILE_RESERVE

/-- The headroom of (p, c) in cells. -/
def State.headroom (s : State) (p c : Nat) : Nat := s.rateUnits p * s.bufFld p c F.SWC_BUF_PROFILE_HEADROOM

/-! ## Frames and cells -/

/-- Cells of a frame of a length, FCS included (spec/08 R223). -/
def cellsOf (len : Nat) : Nat := ceilDiv len 256

/-- Length of a stored frame, FCS included. -/
def Stored.len (f : Stored) : Nat := f.bytes.length + 4

/-- Cells of a stored frame. -/
def Stored.cells (f : Stored) : Nat := cellsOf f.len

/-- Cells of a stored frame that its accounting holds. -/
def Stored.held (f : Stored) : Nat := f.res + f.shared + f.head

/-- A stored frame by its number. -/
def State.frame? (s : State) (id : Nat) : Option Stored := s.swc.frames.find? fun f => f.id == id

/-- A change of one stored frame. -/
def State.updFrame (s : State) (id : Nat) (g : Stored → Stored) : State :=
  { s with swc.frames := s.swc.frames.map fun f => if f.id = id then g f else f }

/-- A frame is stored: its number, and the state that holds it. -/
def State.store (s : State) (f : Stored) : Nat × State :=
  (s.swc.nextFrame, { s with swc.frames := s.swc.frames ++ [{ f with id := s.swc.nextFrame }],
                             swc.nextFrame := s.swc.nextFrame + 1 })

/-- Port indices whose ENABLE is set. -/
def State.enabledPorts (s : State) : List Nat :=
  s.regs.filterMap fun x =>
    let d := x.1 - R.PRT_PORT_CTRL 0 0
    if R.PRT_PORT_CTRL 0 0 ≤ x.1 ∧ d / 4096 < 256 ∧ d % 4096 / 256 < 8 ∧ d % 256 = 0 ∧ F.PRT_PORT_CTRL_ENABLE.get x.2 = 1 then
      some (8 * (d / 4096) + d % 4096 / 256)
    else none

/-- Cells of a quadrant's shared pool (spec/08 R225). -/
def State.sharedTotal (s : State) (q : Nat) : Nat :=
  393216 - ((s.enabledPorts.filter fun p => portQuad p == q).map fun p =>
    ((List.range 8).map fun c => s.reservation p c + s.headroom p c).sum).sum

/-- Cells of a quadrant that the audit has found owned by no frame, and that are not free until it reclaims them (spec/08 R240;
log entry 76). -/
def State.strayCells (s : State) (q : Nat) : Nat := (s.swc.strays.filter fun c => c / 393216 == q).length

/-- Free cells of a quadrant's shared pool. -/
def State.sharedFree (s : State) (q : Nat) : Nat :=
  s.sharedTotal q - s.strayCells q - ((s.swc.frames.filter fun f => f.quad == q).map Stored.shared).sum

/-- Free cells of a quadrant. -/
def State.quadFree (s : State) (q : Nat) : Nat :=
  393216 - s.strayCells q - ((s.swc.frames.filter fun f => f.quad == q).map Stored.held).sum

/-- The stored frames counted for (p, c) at its ingress. -/
def State.ingressFrames (s : State) (p c : Nat) : List Stored :=
  s.swc.frames.filter fun f => f.ingress == p && f.cls == c && f.quad == portQuad p

/-- Cells held from (p, c). -/
def State.heldCells (s : State) (p c : Nat) : Nat := ((s.ingressFrames p c).map Stored.held).sum

/-- Whether a count of cells is below 2^(ALPHA − 4) × the free cells of a pool. -/
def alphaOk (alpha cells free : Nat) : Bool := decide (cells * 16 < 2 ^ alpha * free)

/-- ALPHA of (p, c). -/
def State.alpha (s : State) (p c : Nat) : Nat := s.bufFld p c F.SWC_BUF_PROFILE_ALPHA

/-! ## Queues (spec/08 R228) -/

/-- The queue of a port's forwarded control frames, beside those of its classes (spec/08 R241). -/
def ctlQueue : Nat := 8

/-- The key of (port, queue). -/
def qKey (p c : Nat) : Nat := if c = ctlQueue then 16384 + p else 8 * p + c

/-- The port of a key. -/
def qPort (k : Nat) : Nat := if k < 16384 then k / 8 else k - 16384

/-- The egress queue of (port, class). -/
def State.queue (s : State) (p c : Nat) : List QEntry := sget [] s.swc.queues (qKey p c)

/-- The transfer queue of (port, class). -/
def State.xferQueue (s : State) (p c : Nat) : List QEntry := sget [] s.swc.transfers (qKey p c)

/-- Cells of a stored frame by its number. -/
def State.cellsAt (s : State) (id : Nat) : Nat := match s.frame? id with
  | some f => f.cells
  | none => 0

/-- An egress queue takes a value; the deficit of a class whose queue empties is 0 (spec/08 R241). -/
def State.setQueueKey (s : State) (k : Nat) (l : List QEntry) : State :=
  { s with swc.queues := sset [] s.swc.queues k l,
           swc.deficits := if l.isEmpty then sdel s.swc.deficits k else s.swc.deficits }

/-- The egress queue of (port, class) takes a value. -/
def State.setQueue (s : State) (p c : Nat) (l : List QEntry) : State := s.setQueueKey (qKey p c) l

/-- Frames placed on one port's queue of a class that still cross the mesh. -/
def State.crossingsTo (s : State) (p c : Nat) : List Crossing :=
  (s.swc.reseqs.filter fun x => x.1 / 8 % 2048 == p && x.1 % 8 == c).flatMap fun x =>
    x.2.crossings.filter fun k => k.targets == [p] && k.kind == .unicast && !k.lost

/-- The depth of an egress queue in cells, with the frames placed on it that still cross the mesh. -/
def State.depth (s : State) (p c : Nat) : Nat :=
  ((s.queue p c).map fun e => s.cellsAt e.frame).sum + ((s.crossingsTo p c).map Crossing.cells).sum

/-- Whether an egress queue is below its limit. -/
def State.belowLimit (s : State) (p c : Nat) : Bool := alphaOk (s.alpha p c) (s.depth p c) (s.sharedFree (portQuad p))

/-- The queue of a class that a stored frame waits in: a forwarded control frame waits in the control queue. -/
def State.queueOf (s : State) (c id : Nat) : Nat := match s.frame? id with
  | some f => if f.control then ctlQueue else c
  | none => c

/-- A frame is placed on an egress queue. -/
def State.place (s : State) (p c id : Nat) : State :=
  let c := s.queueOf c id
  s.setQueue p c (s.queue p c ++ [⟨id, s.now⟩])

/-! ## The mesh (spec/08 R229, R231) -/

/-- The key of a stream. -/
def streamKey (slice p c : Nat) : Nat := (slice * 2048 + p) * 8 + c

/-- Cells queued on the mesh link from one quadrant to another. -/
def State.meshDepth (s : State) (a b : Nat) : Nat := (sget [] s.swc.mesh (4 * a + b)).length

/-- The mesh link between two quadrants (spec/02 R54). -/
def meshD (a b : Nat) : Nat := if a = 0 then b - 1 else if b = 0 then a - 1 else a + b

/-- Whether every channel from one quadrant to another is being retrained, so that spray avoids the link (spec/02 Table 2.6). -/
def State.linkOut (s : State) (a b : Nat) : Bool :=
  (List.range 32).all fun c => s.swc.retraining.contains (64 * meshD a b + 32 * b2n (decide (b < a)) + c)

/-- Where a cell goes first: direct below 32 queued cells, else by the intermediate quadrant whose first link holds fewer, the
lower-numbered at a tie; a link out of service is avoided where another path is in service. -/
def State.firstHop (s : State) (a b : Nat) : Nat :=
  if s.meshDepth a b < 32 ∧ s.linkOut a b = false then b
  else match (List.range 4).filter fun m => m != a && m != b && !s.linkOut a m && !s.linkOut m b with
    | m :: n :: _ => if s.meshDepth a m ≤ s.meshDepth a n then m else n
    | [m] => m
    | [] => b

/-- A cell joins the queue of a link; relayed cells go before the quadrant's own. -/
def State.meshPush (s : State) (l : Nat) (c : MeshCell) : State :=
  let q := sget [] s.swc.mesh l
  let q := if c.relayed then q.filter MeshCell.relayed ++ [c] ++ q.filter (fun x => !x.relayed) else q ++ [c]
  { s with swc.mesh := sset [] s.swc.mesh l q }

/-- The first cell of a kind leaves a link, with all that are ahead of it; those whose egress quadrant is another are relayed. -/
def State.meshLeave (s : State) (l : Nat) (hit : MeshCell → Bool) : State :=
  let q := sget [] s.swc.mesh l
  match q.findIdx? hit with
  | none => s
  | some i =>
    (q.take (i + 1)).foldl (fun s c =>
        if c.dest = l % 4 then s else s.meshPush (4 * (l % 4) + c.dest) { c with relayed := true })
      { s with swc.mesh := sset [] s.swc.mesh l (q.drop (i + 1)) }

/-- A cell leaves the mesh, over one link or over two; fuel is the links still to pass. -/
def State.meshTake (s : State) (key : Nat) (seq : BitVec 16) : Nat → State
  | 0 => s
  | n + 1 =>
    let hit (c : MeshCell) : Bool := c.key == key && c.seq == seq
    match s.swc.mesh.find? fun x => x.2.any hit with
    | none => s
    | some x => (s.meshLeave x.1 hit).meshTake key seq n

/-- Cells of a stream are numbered and sprayed from one quadrant to another. -/
def State.spray (s : State) (key a b : Nat) : Nat → BitVec 16 → State
  | 0, _ => s
  | n + 1, seq => (s.meshPush (4 * a + s.firstHop a b) ⟨key, seq, b, false⟩).spray key a b n (seq + 1)

/-- A stored frame begins to cross to the quadrant of its targets; the stream of a multicast copy is that of its lowest
target (log entry 36). -/
def State.startCross (s : State) (id : Nat) (targets : List Nat) (kind : CrossKind) : State :=
  match s.frame? id, targets with
  | some f, p :: _ =>
    let k := streamKey (portSlice f.ingress) p f.cls
    let r := sget {} s.swc.reseqs k
    let (copy, s) := s.store { f with quad := portQuad p, refs := 1, res := 0, shared := 0, head := 0 }
    let x : Crossing := { frame := copy, source := id, first := r.sent, cells := f.cells, targets := targets, kind := kind,
                          missing := (List.range f.cells).map fun i => r.sent + BitVec.ofNat 16 i }
    let r' : Reseq := { r with sent := r.sent + BitVec.ofNat 16 f.cells, crossings := r.crossings ++ [x] }
    { s with swc.reseqs := sset {} s.swc.reseqs k r' }.spray k f.quad (portQuad p) f.cells r.sent
  | _, _ => s

/-- Placed on a queue of its own quadrant, or sent across the mesh. -/
def State.deliver (s : State) (p c id : Nat) : State := match s.frame? id with
  | none => s
  | some f => if f.quad = portQuad p then s.place p c id else s.startCross id [p] .unicast

/-! ## Mirroring (spec/08 R244) -/

/-- A committed field of a mirror session. -/
def State.mirFld (s : State) (n : Nat) (f : Fld) : Nat := s.cfld (R.SWC_MIRROR_CTRL n) f

/-- The sessions whose source map of a direction names a port. -/
def State.mirrorsOf (s : State) (d p : Nat) : List Nat :=
  (List.range 16).filter fun n =>
    s.mirFld n F.SWC_MIRROR_CTRL_ENABLE == 1 && (s.committed (R.SWC_MIRROR_SRC n d (p / 64))).getLsbD (p % 64)

/-- A copy for a session from a quadrant: admitted as LOSSLESS 0, or counted as MIRROR_DROP. -/
def State.mirrorCopy (s : State) (n q : Nat) (b : Bytes) (bad : Nat) : State :=
  let t := s.mirFld n F.SWC_MIRROR_CTRL_TRUNC * 64
  let b := if t = 0 then b else b.take (t - 4)
  let p := s.mirFld n F.SWC_MIRROR_CTRL_DEST
  let c := s.mirFld n F.SWC_MIRROR_CTRL_CLASS
  let k := cellsOf (b.length + 4)
  if s.portUp p = false ∨ s.belowLimit p c = false ∨ s.sharedFree q < k then s.count (ctrSwc (4 + n))
  else
    let (id, s) := s.store { id := 0, bytes := b, ingress := 2048 + q, cls := c, egress := .mirror, epoch := s.fld R.FWD_EPOCH_STATUS F.FWD_EPOCH_STATUS_EPOCH,
                             stamp := s.now, hfh := 0, routed := false, quad := q, refs := 1, shared := k, bad := bad }
    s.deliver p c id

/-- Copies for sessions in ascending number, at most four of a frame; those beyond count as MIRROR_LIMIT. Gives the number
of copies the frame then has. -/
def State.mirror (s : State) (l : List Nat) (copies q : Nat) (b : Bytes) (bad : Nat) : Nat × State :=
  l.foldl (fun a n => if a.1 < 4 then (a.1 + 1, a.2.mirrorCopy n q b bad) else (a.1, a.2.count (ctrSwc 20))) (copies, s)

/-! ## Transmission -/

/-- A frame leaves on a fabric port with its FCS, counted as TX_FRAMES and TX_BYTES of the port (log entry 31). -/
def State.sendCounted (s : State) (p : Nat) (f : Bytes) : State :=
  let f := f ++ fcsOf f
  ((s.sendFrame p f).count (ctrPort p 2)).countBy (ctrPort p 3) f.length

/-- A frame of the port or of the Wellhead leaves, with its egress mirror copies. -/
def State.txFrame (s : State) (p : Nat) (f : Bytes) : State :=
  ((s.sendCounted p f).mirror (s.mirrorsOf 1 p) 0 (portQuad p) f 0).2

end Sys2Proof.Machine
end

