-- ==== Sys2Proof/Machine/Time.lean ====
section
/-! DEFINITION. The time base and network time: states, servo and error estimate, best master selection, time stamps (spec/12 R341
to R352, R477). -/

namespace Sys2Proof.Machine

/-! ## States and the error estimate (spec/12 R343, R351, R352, R477) -/

/-- STATE: 0 FREE_RUN, 1 LOCKING, 2 LOCKED, 3 HOLDOVER. -/
def State.timState (s : State) : Nat := s.fld R.TIM_STATUS F.TIM_STATUS_STATE

/-- SOURCE: 0 PTP, 1 PPS_IN, 2 none. -/
def State.timSource (s : State) : Nat := s.fld R.TIM_CTRL F.TIM_CTRL_SOURCE

/-- A sticky bit of TIM_STATUS is set; vector 3 is raised when it rises (spec/12 Table 12.5). -/
def State.timBit (s : State) (f : Fld) : State :=
  if s.flag R.TIM_STATUS f then s else (s.setFld R.TIM_STATUS f 1).raise 3

/-- At the first entry to LOCKED after a power-on, a GAP entry: OFF_S, or UNKNOWN where the committed LAST_TIME is 0 (spec/18
R462). -/
def State.gapEntry (s : State) : State :=
  if s.ldg.gapDue then
    let last := s.ldg? 24 8
    let off : Int := (s.nowSec : Int) - last - ((s.lifeS : Int) - s.ldg.lifeAt)
    { s.journal 2 0 (if last = 0 then leBytes 8 0 ++ [1] else leBytes 8 (off % 2 ^ 64).toNat) with ldg.gapDue := false }
  else s

/-- STATE changes; every change raises vector 3 and sets STATE_CHANGE. EVER_LOCKED is set on the first entry to LOCKED. -/
def State.timTo (s : State) (st : Nat) : State :=
  if s.timState = st then s
  else
    let s := (s.setFld R.TIM_STATUS F.TIM_STATUS_STATE st).setFld R.TIM_STATUS F.TIM_STATUS_STATE_CHANGE 1
    let s := s.raise 3
    let s := { s with tim.fromHold := st == 3 || (s.tim.fromHold && st == 1), tim.within := 0, tim.beyond := 0,
                      tim.locked := if st = 0 then false else s.tim.locked || st == 2 }
    if st = 2 then (s.setFld R.TIM_STATUS F.TIM_STATUS_EVER_LOCKED 1).gapEntry else s

/-- The OCXO's temperature in 0.125 degrees (spec/14 R387). -/
def State.ocxoTemp (s : State) : Int := signedOf 16 (s.fld (R.THM_SENSOR 50) F.THM_SENSOR_TEMP)

/-- The magnitude of the mean, or zero, and twice the standard deviation of the numbers held, rounded up to whole units. -/
def meanPlusTwoSigma (withMean : Bool) (l : List Int) : Nat :=
  let t : Int := l.foldl (· + ·) 0
  let q : Int := l.foldl (fun a x => a + x * x) 0
  let v := (4 * (l.length * q - t * t)).toNat
  ceilDiv ((if withMean then t.natAbs else 0) + ceilSqrt v) (max 1 l.length)

/-- The locked estimate in 2^-16 ns. -/
def State.lockedError (s : State) : Nat :=
  meanPlusTwoSigma true s.tim.offsets + s.fld R.TIM_SERVO F.TIM_SERVO_UNCERT_NS * 65536

/-- F in 2^-16 ppb: the larger of the floor and twice the deviation of the last 16 rates. -/
def State.driftF (s : State) : Nat :=
  max (ceilDiv (s.fld R.TIM_HOLDOVER F.TIM_HOLDOVER_FLOOR_PPT * 65536) 1000) (meanPlusTwoSigma false s.tim.rates)

/-- The holdover estimate in 2^-16 ns: E0 + (F + K |dT|) T + D T^2 / 2, rounded up. K is 0.05 ppb per degree, D
5.79 × 10^-15 per s. -/
def State.holdoverError (s : State) : Nat :=
  let t := s.mono - s.tim.e0At
  let dT := (s.ocxoTemp - s.tim.e0Temp).natAbs
  s.tim.e0 + ceilDiv (s.tim.drift * t * 160 * 10 ^ 18 + dT * 65536 * t * 10 ^ 18 + 2895 * 65536 * t * t * 160)
    (160 * 10 ^ 27)

/-- E in whole nanoseconds, rounded up; all ones while unknown, and where it saturates (spec/12 R343). -/
def State.timeError (s : State) : Nat :=
  let e := if s.timState = 2 then s.tim.e0
    else if s.timState = 3 ∨ (s.timState = 1 ∧ s.tim.fromHold) then s.holdoverError else 2 ^ 48
  min (2 ^ 32 - 1) (ceilDiv e 65536)

/-! ## The servo (spec/12 R350) -/

/-- The time base takes a value by a step: STEP is set, and every step raises vector 3 (spec/12 R350). -/
def State.timJump (s : State) (t : TimeStamp) : State :=
  { s.setFld R.TIM_STATUS F.TIM_STATUS_STEP 1 with tim.base := t }.raise 3

/-- The time base steps by a number of 2^-16 ns. -/
def State.timStep (s : State) (d : Int) : State := s.timJump (unitsTs ((tsUnits s.tim.base : Int) + d).toNat)

/-- 2^-16 ns as picoseconds. -/
def unitsPs (u : Int) : Int := u * 1000 / 65536

/-- Picoseconds as 2^-16 ns. -/
def psUnits (p : Int) : Int := p * 65536 / 1000

/-- A signed number saturated to 32 bits, as the field that holds it. -/
def sat32 (x : Int) : Nat := (max (-2147483648) (min 2147483647 x) % 2 ^ 32).toNat

/-- An offset in 2^-16 ns: stepped out in LOCKING when it reaches STEP_NS, else slewed out; the counts that enter and leave
LOCKED; the estimate and its terms. -/
def State.servo (s : State) (off : Int) : State :=
  let s := s.setFld R.TIM_OFFSET F.TIM_OFFSET_OFFSET_PS (sat32 (unitsPs off))
  let lock : Int := s.fld R.TIM_SERVO F.TIM_SERVO_LOCK_NS * 65536
  let mag : Int := off.natAbs
  let ppm100 : Int := 100000 * 65536
  let r := max (-ppm100) (min ppm100 (Config.servoRate off s.tim.rate))
  let s := { s with tim.offsets := (off :: s.tim.offsets).take 16, tim.rate := r }
  let s := if s.timState = 1 ∧ (s.fld R.TIM_CTRL F.TIM_CTRL_STEP_NS * 65536 : Int) ≤ mag then
      { s with tim.slew := 0 }.timStep (-off)
    else { s with tim.slew := -off * 1000000000 }
  let within := if mag ≤ lock then s.tim.within + 1 else 0
  let beyond := if 4 * lock < mag then s.tim.beyond + 1 else 0
  let s := if s.timState = 1 ∧ 16 ≤ within then s.timTo 2
    else if s.timState = 2 ∧ 4 ≤ beyond then s.timTo 1
    else { s with tim.within := within, tim.beyond := beyond }
  if s.timState = 2 then
    let s := { s with tim.rates := (r :: s.tim.rates).take 16 }
    { s with tim.e0 := s.lockedError, tim.e0At := s.mono, tim.e0Temp := s.ocxoTemp, tim.drift := s.driftF }
  else s

/-! ## Ports in PTP (spec/12 R347) -/

/-- A signed interval exponent brought to its bounds. -/
def clampLog (lo hi : Int) (x : Nat) : Int := max lo (min hi (signedOf 8 x))

/-- The message intervals of TIM_INTERVAL. -/
def State.logSync (s : State) : Int := clampLog (-7) 0 (s.fld R.TIM_INTERVAL F.TIM_INTERVAL_LOG_SYNC)
/-- LOG_ANNOUNCE. -/
def State.logAnnounce (s : State) : Int := clampLog (-3) 3 (s.fld R.TIM_INTERVAL F.TIM_INTERVAL_LOG_ANNOUNCE)

/-- An interval of 2^k s in nanoseconds. -/
def logNs (k : Int) : Nat := if 0 ≤ k then 1000000000 * 2 ^ k.toNat else 1000000000 / 2 ^ (-k).toNat

/-- The Announce interval in nanoseconds. -/
def State.announceNs (s : State) : Nat := logNs s.logAnnounce

/-- The exchanges of a port. -/
def State.ptp (s : State) (p : Nat) : PtpPort := sget {} s.tim.ports p
/-- The exchanges of a port take a value. -/
def State.setPtp (s : State) (p : Nat) (x : PtpPort) : State := { s with tim.ports := sset {} s.tim.ports p x }

/-- Whether the boundary clock runs on a port: the engine enabled, the port's PTP bit, and the port UP or QUARANTINE and not
lent; the management ports have no such state. -/
def State.ptpOn (s : State) (p : Nat) : Bool :=
  s.flag R.TIM_CTRL F.TIM_CTRL_ENABLE && s.flag (R.TIM_PORT_CFG p) F.TIM_PORT_CFG_PTP &&
    (decide (2048 ≤ p) || s.portUp p || s.portState p == psQuarantine)

/-- Whether Announce messages of a port may be qualified as a foreign master's. -/
def State.ptpMayFollow (s : State) (p : Nat) : Bool :=
  s.ptpOn p && !s.flag (R.TIM_PORT_CFG p) F.TIM_PORT_CFG_MASTER_ONLY && (decide (2048 ≤ p) || s.portUp p)

/-- clockClass of the module itself (spec/12 R347); what the spec states of no state is `Config.lockedClass`. -/
def State.ownClass (s : State) : Nat :=
  if s.timState = 3 then
    if s.timeError ≤ s.fld R.TIM_HOLDOVER F.TIM_HOLDOVER_SPEC_NS then 7 else 187
  else if s.timState = 0 ∨ (s.timState = 1 ∧ s.tim.locked = false) then 248
  else Config.lockedClass.toNat

/-- The order in which IEEE 1588-2019 compares masters (log entry 32). -/
def masterRank (m : PtpMsg) (port : Nat) : List Nat :=
  [m.priority1.toNat, m.clockClass.toNat, m.accuracy.toNat, m.variance.toNat, m.priority2.toNat, m.gmId.toNat,
   m.steps.toNat, m.source.toNat, m.sourcePort.toNat, port]

/-- Whether a list of numbers is before another in lexicographic order. -/
def rankLt : List Nat → List Nat → Bool
  | a :: s, b :: t => decide (a < b) || (a == b && rankLt s t)
  | _, _ => false

/-- The module's own attributes as a rank. -/
def State.ownRank (s : State) : List Nat :=
  [s.fld R.TIM_CLOCK F.TIM_CLOCK_PRIORITY1, s.ownClass, 0xFE, Config.clockVariance.toNat,
   s.fld R.TIM_CLOCK F.TIM_CLOCK_PRIORITY2, s.identity.toNat, 0, s.identity.toNat, 0, 0]

/-- A record qualifies with a second Announce within the window. -/
def Foreign.qualified (f : Foreign) : Bool := decide (2 ≤ f.count)

/-- The best of the qualified foreign masters on ports that meet a condition. -/
def State.bestForeign (s : State) (ok : Nat → Bool) : Option Foreign :=
  (s.tim.foreign.filter fun f => f.qualified && ok f.port).foldl (fun b f => match b with
    | none => some f
    | some g => if rankLt (masterRank f.msg f.port) (masterRank g.msg g.port) then some f else some g) none

/-- The clock that Announce messages of the module describe: the parent's grandmaster, else itself. -/
def State.parentRank (s : State) : List Nat := match s.tim.parent with
  | some m => masterRank m s.tim.parentPort
  | none => s.ownRank

/-- What the best master algorithm decides of a port: DISABLED 3, LISTENING 4, MASTER 6, PASSIVE 7, SLAVE 9 (IEEE 1588-2019; log
entry 32). -/
def State.ptpRole (s : State) (p : Nat) : Nat :=
  if s.ptpOn p = false then 3
  else if s.tim.parent.isSome ∧ s.tim.parentPort = p then 9
  else match s.bestForeign fun q => q == p && s.ptpMayFollow q with
    | some f =>
      if s.tim.parent.isSome then (if (masterRank f.msg 0)[5]? = s.parentRank[5]? then 7 else 6)
      else if rankLt s.ownRank (masterRank f.msg p) then 6 else 7
    | none => if s.tim.parent.isSome || (s.ptp p).heard then 6 else 4

/-- PTP_STATE of a port: its role, UNCALIBRATED 8 on the parent port until STATE is LOCKED, and PRE_MASTER 5 on a master port until
its qualification has passed (log entry 32). -/
def State.ptpState (s : State) (p : Nat) : Nat :=
  let r := s.ptpRole p
  if r = 9 ∧ s.timState ≠ 2 then 8
  else if r = 6 ∧ s.mono < (s.ptp p).preMaster then 5
  else r

/-- Ports that a decision has made masters under a parent qualify for one Announce interval more than the steps to the grandmaster;
`old` is the state before the decision. -/
def State.ptpDecided (s old : State) : State := match s.tim.parent with
  | none => s
  | some m =>
    let till := s.mono + (m.steps.toNat + 2) * s.announceNs
    (List.range 2050).foldl (fun s p =>
      if s.ptpRole p = 6 ∧ old.ptpRole p ≠ 6 then s.setPtp p { s.ptp p with preMaster := till } else s) s

/-! ## Parents (spec/12 R347, R352) -/

/-- The registers that describe the parent follow it; DELAY_PS is the mean path delay known of its port, or 0. -/
def State.parentRegs (s : State) : State :=
  let d : Option Int := if s.tim.parent.isSome then (s.ptp s.tim.parentPort).delay else none
  let s := s.setFld R.TIM_OFFSET F.TIM_OFFSET_DELAY_PS ((d.map fun d => sat32 (unitsPs d)).getD 0)
  match s.tim.parent with
  | some m =>
    let s := (s.setFld R.TIM_STATUS F.TIM_STATUS_PARENT s.tim.parentPort).wr R.TIM_GM_ID m.gmId
    let s := (s.wr R.TIM_PARENT_ID m.source).setFld R.TIM_CLOCK F.TIM_CLOCK_ACCURACY m.accuracy.toNat
    (s.setFld R.TIM_CLOCK F.TIM_CLOCK_STEPS (m.steps.toNat + 1)).setFld R.TIM_CLOCK F.TIM_CLOCK_UTC_OFFSET m.utcOffset.toNat
  | none =>
    let s := ((s.setFld R.TIM_STATUS F.TIM_STATUS_PARENT 0xFFF).wr R.TIM_GM_ID 0).wr R.TIM_PARENT_ID 0
    (s.setFld R.TIM_CLOCK F.TIM_CLOCK_ACCURACY 0xFE).setFld R.TIM_CLOCK F.TIM_CLOCK_STEPS 0

/-- The best master algorithm: a best qualified foreign master that is better than the module becomes the parent while SOURCE
is PTP; with a new parent STATE passes to LOCKING. -/
def State.bestMaster (s : State) : State :=
  let best := if s.timSource = 0 then s.bestForeign s.ptpMayFollow else none
  match best with
  | some f =>
    if rankLt (masterRank f.msg f.port) s.ownRank = false then s
    else
      let same := match s.tim.parent with
        | some m => m.source == f.msg.source && m.sourcePort == f.msg.sourcePort && s.tim.parentPort == f.port
        | none => false
      let s := { s with tim.parent := some f.msg, tim.parentPort := f.port }.parentRegs
      if same then s
      else (s.timTo 1).timBit F.TIM_STATUS_PARENT_CHANGE
  | none => s

/-- The source of time is lost: HOLDOVER after LOCKED, else FREE_RUN; the servo's rate stays. -/
def State.sourceLost (s : State) : State :=
  { s with tim.slew := 0 }.timTo (if s.tim.locked then 3 else 0)

/-- The parent is lost: the best master algorithm runs again at once over the records held. -/
def State.parentLost (s : State) : State :=
  match s.tim.parent with
  | none => s
  | some m =>
    let p := s.tim.parentPort
    let s := { s with
      tim.parent := none
      tim.foreign := s.tim.foreign.filter fun f => !(f.port == p && f.msg.source == m.source && f.msg.sourcePort == m.sourcePort) }
    let lost := s.parentRegs.sourceLost
    lost.bestMaster.ptpDecided lost

/-- A fabric port is no longer UP: its exchanges end, and a parent on it is lost. -/
def State.timPortDown (s : State) (p : Nat) : State :=
  let s := { s with tim.ports := sdel s.tim.ports p, tim.foreign := s.tim.foreign.filter fun f => f.port != p }
  if s.tim.parent.isSome ∧ s.tim.parentPort = p then s.parentLost else s

/-! ## Time stamps (spec/12 R344) -/

/-- A capture moved by a latency in picoseconds, as a multiple of 0.25 ns: the one not after it (log entry 32). -/
def stampAt (capture : TimeStamp) (ps : Int) : Int := ((tsUnits capture : Int) * 1000 + ps * 65536) / 16384000 * 16384

/-- The receive time of a capture in 2^-16 ns. -/
def State.rxTime (s : State) (p : Nat) (capture : TimeStamp) : Int :=
  stampAt capture (-(s.fld (R.TIM_PORT_LAT p) F.TIM_PORT_LAT_RX_LAT_PS : Int))

/-- The transmit time of a capture. -/
def State.txTime (s : State) (p : Nat) (capture : TimeStamp) : Int :=
  stampAt capture (s.fld (R.TIM_PORT_LAT p) F.TIM_PORT_LAT_TX_LAT_PS)

/-- SOURCE changes: STATE returns to FREE_RUN (spec/12 Table 12.5). A PTP source that is already known is taken up again. -/
def State.sourceChanged (s : State) : State :=
  let s := { s with tim.parent := none, tim.slew := 0, tim.offsets := [], tim.rates := [] }.parentRegs.timTo 0
  s.bestMaster

end Sys2Proof.Machine
end

