-- ==== Sys2Proof/Machine/Schedule.lean ====
section
/-! DEFINITION. The spillway schedule: circuits, slots, windows, and the paths of a Beneš plane (spec/11 R321 to R327). -/

namespace Sys2Proof.Machine

/-! ## Circuits (spec/11 R323, R324, Table 11.17) -/

/-- A circuit as its registers hold it. -/
structure Circuit where
  n : Nat
  state : Nat
  domain : Nat
  pers : Bool
  w : Nat
  i : Nat
  o : Nat
  mask : Word
  deriving DecidableEq, Repr

/-- The port index of a wavelength at a spillway fibre index (spec/00 R10). -/
def spillPort (i w : Nat) : Nat := 8 * (8 * (i / 2) + 6 + i % 2) + w

/-- The port that a circuit's light enters by. -/
def Circuit.inPort (c : Circuit) : Nat := spillPort c.i c.w
/-- The port that it leaves by. -/
def Circuit.outPort (c : Circuit) : Nat := spillPort c.o c.w

/-- Whether a circuit is present in a slot. -/
def Circuit.present (c : Circuit) (slot : Nat) : Bool := c.pers || c.mask.getLsbD slot

/-- The circuits whose registers lie from an offset on, in ascending number; state 0 is free. -/
def State.circuitsAt (s : State) (base : Nat) (mask : Nat → Nat) : List Circuit :=
  s.regs.filterMap fun x =>
    let st := F.SPL_CIRC_ACT_STATE.get x.2
    if base ≤ x.1 ∧ x.1 < base + 0x10000 ∧ (x.1 - base) % 16 = 0 ∧ st ≠ 0 then
      let n := (x.1 - base) / 16
      some ⟨n, st, F.SPL_CIRC_ACT_DOMAIN.get x.2, F.SPL_CIRC_ACT_PERSISTENT.get x.2 == 1, F.SPL_CIRC_ACT_WAVELENGTH.get x.2,
        F.SPL_CIRC_ACT_IN.get x.2, F.SPL_CIRC_ACT_OUT.get x.2, s.rd (mask n)⟩
    else none

/-- Circuits of the active bank. -/
def State.active (s : State) : List Circuit := s.circuitsAt (R.SPL_CIRC_ACT 0) R.SPL_CIRC_ACT_MASK
/-- Circuits of the pending bank. -/
def State.pendingBank (s : State) : List Circuit := s.circuitsAt (R.SPL_CIRC_PEND 0) R.SPL_CIRC_PEND_MASK

/-! ## Slots (spec/11 R325) -/

/-- k of a slot, from the words that hold it. -/
def State.slotK (s : State) (words : Nat → Nat) (i : Nat) : Nat := (s.rd (words (i / 16))).toNat / 2 ^ (4 * (i % 16)) % 16

/-- Length of a slot of the active schedule in ns. -/
def State.slotLen (s : State) (i : Nat) : Nat := 2 ^ s.slotK R.SPL_SLOT_K_ACT i * 256

/-- Slots of the active schedule. -/
def State.slots (s : State) : Nat := s.fld R.SPL_SHAPE_ACT F.SPL_SHAPE_ACT_SLOTS

/-- Where a slot begins within its cycle. -/
def State.slotOffset (s : State) (i : Nat) : Nat := ((List.range i).map s.slotLen).sum

/-- The cycle in ns. -/
def State.cycleNs (s : State) : Nat := s.slotOffset s.slots

/-- T(n, i) in ns. -/
def State.slotStart (s : State) (n i : Nat) : Nat := s.spl.startAt + n * s.cycleNs + s.slotOffset i

/-- The slot of a cycle that holds an offset; the last one at the end. -/
def State.slotWithin (s : State) (d : Nat) : Nat := ((List.range s.slots).filter fun i => decide (s.slotOffset i ≤ d)).length - 1

/-- Cycle and slot at an instant not before S. -/
def State.slotAt (s : State) (t : Nat) : Nat × Nat :=
  let d := t - s.spl.startAt
  (d / max 1 s.cycleNs, s.slotWithin (d % max 1 s.cycleNs))

/-- The j-th slot from a place on. -/
def State.slotAfter (s : State) (c : Nat × Nat) (j : Nat) : Nat × Nat :=
  let k := c.2 + j
  (c.1 + k / max 1 s.slots, k % max 1 s.slots)

/-- The first slot boundary at or after an instant. -/
def State.boundaryFrom (s : State) (t : Nat) : Nat :=
  let c := s.slotAt t
  if s.slotStart c.1 c.2 = t ∨ t < s.spl.startAt then max t s.spl.startAt
  else
    let d := s.slotAfter c 1
    s.slotStart d.1 d.2

/-- G and M. -/
def State.guardNs (s : State) : Nat := s.fld R.SPL_SHAPE_ACT F.SPL_SHAPE_ACT_GUARD_NS
/-- The margin. -/
def State.marginNs (s : State) : Nat := s.fld R.SPL_SHAPE_ACT F.SPL_SHAPE_ACT_MARGIN_NS

/-- Circuits that carry light in a slot: active, not in FALLBACK. -/
def State.carrying (s : State) (slot : Nat) : List Circuit := s.active.filter fun c => c.state == 1 && c.present slot

/-- Whether a port is lent in a slot of the active schedule. -/
def State.lentIn (s : State) (p slot : Nat) : Bool := (s.carrying slot).any fun c => c.inPort == p || c.outPort == p

/-- Whether a port's lane is lent in some slots but not in every slot. -/
def State.slottedLane (s : State) (p : Nat) : Bool :=
  s.active.any fun c => c.state == 1 && !c.pers && (c.inPort == p || c.outPort == p)

/-- The next window of a port to open at or after an instant. -/
def State.nextWindow (s : State) (p t : Nat) : Option Nat :=
  let c := s.slotAt t
  (List.range (2 * s.slots + 1)).findSome? fun j =>
    let d := s.slotAfter c j
    let o := s.slotStart d.1 d.2 + s.guardNs + s.marginNs
    if t ≤ o ∧ s.lentIn p d.2 = false then some o else none

/-- Whether slotted, or persistent, circuits come into force in FALLBACK at a flip: they fell back, or had not come into force,
by a closure at least 10 us before it (spec/11 R334). -/
def State.fallsAt (s : State) (pers : Bool) (at_ : Nat) : Bool :=
  if pers then !s.spl.persUp && decide (s.spl.persClosedAt + 10000 ≤ at_)
  else !s.spl.slotUp && decide (s.spl.closedAt + 10000 ≤ at_)

/-- Whether a circuit's lanes include a port. -/
def Circuit.uses (c : Circuit) (p : Nat) : Bool := c.inPort == p || c.outPort == p

/-- Whether the schedule of a pending flip lends a port in its slot 0. -/
def State.lendsAtFlip (s : State) (p : Nat) : Bool :=
  s.pendingBank.any fun c => c.state == 1 && c.uses p && c.present 0 && !s.fallsAt c.pers s.spl.flipAt

/-- Whether a resumption that is decided lends a port in the slot that starts at an instant. -/
def State.lendsAtChange (s : State) (p t : Nat) : Bool :=
  s.active.any fun c => c.state == 2 && c.uses p && c.present (s.slotAt t).2 && (if c.pers then s.spl.persUp else s.spl.slotUp)

/-- The instants by which what a port sends must have ended: the window of a slotted lane closes at T + L − M, and a lane that a
flip or a resumption lends is silent from a margin before it (spec/11 R325, R326, Table 11.8; log entry 70). -/
def State.sendLimits (s : State) (p : Nat) : List Nat :=
  (if s.slottedLane p then [s.slotStart s.spl.cycle s.spl.slot + s.slotLen s.spl.slot - s.marginNs] else []) ++
    (if s.fld R.SPL_STATUS F.SPL_STATUS_FLIP_STATE = 1 ∧ s.lendsAtFlip p then [s.spl.flipAt - s.marginNs] else []) ++
    (match s.spl.changeAt with
      | some t => if s.lendsAtChange p t then [t - s.marginNs] else []
      | none => [])

/-- Whether a frame of a length ends in time: such a lane runs at 200 Gb/s. -/
def State.fitsWindow (s : State) (p len : Nat) : Bool :=
  (s.sendLimits p).all fun t => decide (s.now + ceilDiv (len * 8) 200 ≤ t)

/-! ## Paths of a plane (spec/11 R321, R322) -/

/-- A path of a 64 × 64 Beneš plane: input, output, and the middle element it takes, whose bits choose the half at each of
the five outer stages (log entry 38). -/
structure Path where
  i : Nat
  o : Nat
  c : Nat
  deriving DecidableEq, Repr

/-- The sub-network of a path at a depth. -/
def Path.sub (p : Path) (d : Nat) : Nat := p.c / 2 ^ (5 - d)

/-- Whether two paths share an input, an output or a link between stages. -/
def Path.clash (p q : Path) : Bool :=
  (List.range 6).any fun d => p.sub d == q.sub d && (p.i / 2 ^ d == q.i / 2 ^ d || p.o / 2 ^ d == q.o / 2 ^ d)

/-- Whether a path passes an element of a stage. -/
def Path.passes (p : Path) (stage index : Nat) : Bool :=
  let d := if stage ≤ 5 then stage else 10 - stage
  let x := if stage ≤ 5 then p.i else p.o
  index == p.sub d * (32 / 2 ^ d) + x / 2 ^ (d + 1)

/-- Whether a path uses no faulted element of a plane. -/
def State.pathSound (s : State) (plane : Nat) (p : Path) : Bool :=
  s.spl.faulted.all fun f => f.1 != plane || !p.passes f.2.1 f.2.2

/-- Paths for inputs and outputs around given ones, trying each middle element from a first one on; none where there are
none. -/
def State.routePaths (s : State) (plane first : Nat) : List (Nat × Nat) → List Path → Option (List Path)
  | [], l => some l
  | x :: t, l => (List.range 32).findSome? fun j =>
    let p : Path := ⟨x.1, x.2, (first + j) % 32⟩
    if s.pathSound plane p ∧ l.all fun q => !p.clash q then s.routePaths plane first t (l ++ [p]) else none

/-- The middle element a plane tries first: the spec leaves the choice of a path to the module (log entry 38). -/
def firstMiddle (plane : Nat) : Nat := Config.firstPath plane % 32

end Sys2Proof.Machine
end

