-- ==== Sys2Proof/Machine/Links.lean ====
section
/-! DEFINITION. Port slots: breakout, lanes and rates, link control frames, and the TLVs and outcome of the Wairn Link Exchange
(spec/06 R169 to R176, R181, R183, R185, R191). -/

namespace Sys2Proof.Machine

/-! ## Slots (spec/06 R169, R170) -/

/-- Whether a slot exists in its pair's mode. -/
def State.portExists (s : State) (p : Nat) : Bool := p % 8 % s.portLanes p == 0

/-- The lanes of a port as bits of its pair. -/
def State.laneMask (s : State) (p : Nat) : Nat := (2 ^ s.portLanes p - 1) * 2 ^ (p % 8) % 256

/-- The optical engine of a port. -/
def portEngine (p : Nat) : Nat := p / 64

/-- PRT_PORT_CTRL of a port. -/
def prtCtrl (p : Nat) : Nat := R.PRT_PORT_CTRL (p / 8) (p % 8)

/-- Whether a port is enabled. -/
def State.portEnabled (s : State) (p : Nat) : Bool := s.flag (prtCtrl p) F.PRT_PORT_CTRL_ENABLE

/-- Whether every lane of a port holds PCS lock (spec/06 Table 6.18). -/
def State.portLocked (s : State) (p : Nat) : Bool :=
  s.portEnabled p && s.portExists p &&
    (List.range (s.portLanes p)).all fun j => bitOf (s.fld (R.PRT_PAIR_STATUS (p / 8)) F.PRT_PAIR_STATUS_LOCK) (p % 8 + j)

/-- A field of lane bits takes the lanes of a port. -/
def State.setLanes (s : State) (p : Nat) (f : Fld) (on : Bool) : State :=
  let x := s.fld (R.PRT_PAIR_STATUS (p / 8)) f
  let m := s.laneMask p
  s.setFld (R.PRT_PAIR_STATUS (p / 8)) f (if on then x ||| m else x &&& (255 - m))

/-- Whether a lane of a port is lent in the present slot (spec/06 R171). -/
def State.portLent (s : State) (p : Nat) : Bool :=
  s.portState p == psLent || (s.fld (R.PRT_PAIR_STATUS (p / 8)) F.PRT_PAIR_STATUS_LENT &&& s.laneMask p) != 0

/-- Whether loss of signal, PCS loss and keepalive gaps are disregarded on a port: while it is lent, and until the guard after its
slot has ended (spec/06 R171). -/
def State.lossIgnored (s : State) (p : Nat) : Bool :=
  s.portLent p || ((s.port p).shut && (s.port p).lentBefore &&
    decide (s.now < s.slotStart s.spl.cycle s.spl.slot + s.guardNs))

/-- Whether frames may leave on a port: it is not lent and waits for no window. -/
def State.laneOpen (s : State) (p : Nat) : Bool := !s.portLent p && !(s.port p).shut

/-- Whether a frame of a length may start on a port now. -/
def State.canSend (s : State) (p len : Nat) : Bool := s.laneOpen p && s.fitsWindow p len

/-- FC of a port: 0 none, 1 priority flow control, 2 credits. -/
def State.portFc (s : State) (p : Nat) : Nat := s.fld (prtState p) F.PRT_PORT_STATE_FC

/-- The virtual channel of a class (spec/06 R181). -/
def State.portVc (s : State) (p c : Nat) : Nat := c * s.fld (prtState p) F.PRT_PORT_STATE_VCS / 8

/-- The agreed largest frame of a port. -/
def State.portMax (s : State) (p : Nat) : Nat := s.fld (prtState p) F.PRT_PORT_STATE_MAX_FRAME

/-- Whether a port lies where circuits may use it: the spillway zone in 200 Gb/s mode (spec/06 R171). -/
def State.spillZone (s : State) (p : Nat) : Bool := decide (6 ≤ p / 8 % 8) && s.pairMode (p / 8) == 3

/-! ## Link control frames (spec/06 R183, R185; spec/11 Tables 11.4, 11.9) -/

/-- The MAC address of every port (spec/07 R193). -/
def State.mac (s : State) : Nat := (s.rd R.FWD_ROUTER_MAC).toNat % 2 ^ 48

/-- The address of LLDP and link control frames. -/
def bridgeMac : Nat := 0x0180C200000E

/-- A link control frame of a subtype with its 46 bytes after the header (without FCS). -/
def State.linkFrame (s : State) (subtype flags : Nat) (body : Bytes) : Bytes :=
  ethHeader bridgeMac s.mac (s.fld R.PRT_GLOBAL_CTRL F.PRT_GLOBAL_CTRL_LINK_ETYPE) ++
    beBytes 1 subtype ++ beBytes 1 (16 + flags) ++ slice body 0 44

/-- A credit frame (spec/06 Table 6.15); where the lane's window does not allow it, one is owed. -/
def State.creditFrame (s : State) (p : Nat) (keepalive : Bool) : State :=
  let x := s.port p
  if s.canSend p 64 = false then s.setPort p { x with owes := true } else
  let n := s.fld (prtState p) F.PRT_PORT_STATE_VCS
  let ret := (List.range 8).flatMap fun v => beBytes 4 (if v < n then (sget 0 x.freed v).toNat else 0)
  let f := s.linkFrame 1 (b2n keepalive) (ret ++ beBytes 1 (2 ^ n - 1) ++ beBytes 1 0 ++ beBytes 2 x.creditSeq.toNat)
  ((s.setPort p { x with creditSeq := x.creditSeq + 1, owes := false }).count (ctrPort p 13)).txFrame p f

/-- A tail-abort frame (spec/06 Table 6.16). -/
def State.tailAbort (s : State) (p vc reason cells : Nat) : State :=
  let x := s.port p
  let n := x.stomps + 1
  let f := s.linkFrame 2 0 (beBytes 1 vc ++ beBytes 1 reason ++ beBytes 2 cells ++ beBytes 4 n.toNat)
  (s.setPort p { x with stomps := n }).txFrame p f

/-- Subtype of a valid link control frame of 64 bytes, FCS included: header, FORMAT and, for a credit frame, its zero
fields; none otherwise. -/
def State.linkKind (s : State) (f : Bytes) : Option Nat :=
  let t := byteAt f 14
  if f.length = 64 ∧ beAt f 0 6 = bridgeMac ∧ beAt f 12 2 = s.fld R.PRT_GLOBAL_CTRL F.PRT_GLOBAL_CTRL_LINK_ETYPE ∧
      byteAt f 15 / 2 = 8 ∧ (t = 1 ∨ byteAt f 15 = 16) ∧ slice f 60 4 = fcsOf (slice f 0 60) ∧
      (t ≠ 1 ∨ (byteAt f 49 = 0 ∧ allZero f 52 8)) then some t else none

/-! ## WLX TLVs (spec/06 R174, R175) -/

/-- A WLX TLV. -/
def wlxTlv (subtype : Nat) (info : Bytes) : Bytes :=
  beBytes 2 (127 * 512 + 4 + info.length) ++ beBytes 3 0x7AC1D4 ++ beBytes 1 subtype ++ info

/-- INIT(v) for a number of VCs: the sum of the reservations of the classes a VC carries (spec/06 Table 6.11). -/
def State.vcInit (s : State) (p vcs v : Nat) : Nat :=
  if v < vcs then ((List.range 8).filter fun c => c * vcs / 8 == v).foldl (fun a c => a + s.reservation p c) 0 else 0

/-- A field of PRT_PORT_CTRL. -/
def State.ctrlFld (s : State) (p : Nat) (f : Fld) : Nat := s.fld (prtCtrl p) f

/-- The HFH byte up to HFH_MAX. -/
def State.hfhByte (s : State) (p : Nat) : Nat := (2 ^ s.ctrlFld p F.PRT_PORT_CTRL_HFH_MAX - 1) % 4

/-- The virtual channels whose credits a Credit TLV advertises: those of the outcome once it is computed. -/
def State.tlvVcs (s : State) (p : Nat) : Nat := match (s.port p).outcome with
  | some o => if o.fc = 2 then o.vcs else s.ctrlFld p F.PRT_PORT_CTRL_VC_MAX
  | none => s.ctrlFld p F.PRT_PORT_CTRL_VC_MAX

/-- The Agreement of an outcome. -/
def agreementOf (o : Outcome) (echo : BitVec 16) : Agreement :=
  ⟨o.wlx, o.fc, o.vcs, o.hfh, b2n o.spill + 2 * b2n o.ts, echo, o.maxFrame⟩

/-- The LLDP frame of a port with its WLX TLVs (spec/06 R174 to R177); TTL is 4 s in every one (log entry 33). -/
def State.lldpFrame (s : State) (p : Nat) : Bytes :=
  let x := s.port p
  let core := wlxTlv 1 (beBytes 1 (s.ctrlFld p F.PRT_PORT_CTRL_WLX_MAX) ++ beBytes 1 1 ++ beBytes 2 x.ownNonce.toNat ++
    beBytes 8 s.identity.toNat ++ beBytes 2 p ++ beBytes 1 (s.portLanes p) ++ beBytes 1 (s.laneMask p))
  let cap := wlxTlv 2 (beBytes 1 (s.ctrlFld p F.PRT_PORT_CTRL_FC_ALLOW) ++ beBytes 1 (s.ctrlFld p F.PRT_PORT_CTRL_VC_MAX) ++
    beBytes 1 (s.hfhByte p) ++ beBytes 1 (5 + 2 * b2n (s.spillZone p)) ++ beBytes 2 9216 ++ beBytes 2 12)
  let vcs := s.tlvVcs p
  let credit := if 2 ≤ s.ctrlFld p F.PRT_PORT_CTRL_WLX_MAX then
      wlxTlv 3 (beBytes 1 vcs ++ beBytes 1 0 ++ (List.range 8).flatMap fun v => beBytes 4 (s.vcInit p vcs v))
    else []
  let agree := match x.outcome with
    | some o => if x.answered = 0 then [] else
        let a := agreementOf o x.answered
        wlxTlv 4 (beBytes 1 a.wlx ++ beBytes 1 a.fc ++ beBytes 1 a.vcs ++ beBytes 1 a.hfh ++ beBytes 1 a.flags ++
          beBytes 1 0 ++ beBytes 2 a.echo.toNat ++ beBytes 2 a.maxFrame)
    | none => []
  ethHeader bridgeMac s.mac 0x88CC ++ beBytes 2 (1 * 512 + 9) ++ beBytes 1 7 ++ beBytes 8 s.identity.toNat ++
    beBytes 2 (2 * 512 + 3) ++ beBytes 1 7 ++ beBytes 2 p ++ beBytes 2 (3 * 512 + 2) ++ beBytes 2 4 ++
    core ++ cap ++ credit ++ agree ++ beBytes 2 0

/-- The LLDP frame is sent, or waits for the window of its lane. -/
def State.sendLldp (s : State) (p : Nat) : State :=
  let f := s.lldpFrame p
  if s.canSend p (f.length + 4) then ((s.setPort p { s.port p with lldpDue := false }).count (ctrPort p 11)).txFrame p f
  else s.setPort p { s.port p with lldpDue := true }

/-- The information of a TLV of a WLX subtype: read field by field, absent bytes as zero, bytes beyond as nothing. -/
def Wlx.take (w : Wlx) (subtype : Nat) (b : Bytes) : Wlx :=
  if subtype = 1 then { w with version := byteAt b 0, role := byteAt b 1 % 4, nonce := BitVec.ofNat 16 (beAt b 2 2),
                               identity := BitVec.ofNat 64 (beAt b 4 8), port := beAt b 12 2 }
  else if subtype = 2 then { w with fc := byteAt b 0 % 4, vcMax := byteAt b 1, hfh := byteAt b 2 % 4, flags := byteAt b 3 % 8,
                                    maxFrame := beAt b 4 2, acquire := beAt b 6 2 }
  else if subtype = 3 then { w with credits := (List.range 8).map fun v => BitVec.ofNat 32 (beAt b (2 + 4 * v) 4) }
  else if subtype = 4 then 
    { w with agreement := some (Agreement.mk (byteAt b 0) (byteAt b 1) (byteAt b 2) (byteAt b 3) (byteAt b 4 % 4)
        (BitVec.ofNat 16 (beAt b 6 2)) (beAt b 8 2)) }
  else w

/-- The TLVs of an LLDP frame from an offset on; fuel bounds their number. -/
def takeTlvs : Nat → Bytes → Wlx → Wlx
  | 0, _, w => w
  | n + 1, b, w =>
    let h := beAt b 0 2
    let len := h % 512
    if b.length < 2 ∨ h / 512 = 0 ∨ b.length < 2 + len then w
    else
      let v := (b.drop 2).take len
      let w := if h / 512 = 127 ∧ 4 ≤ len ∧ beAt v 0 3 = 0x7AC1D4 then w.take (byteAt v 3) (v.drop 4) else w
      takeTlvs n (b.drop (2 + len)) w

/-- What the WLX TLVs of an LLDP frame say; `nonce` is 0 without a Core TLV. -/
def parseLldp (f : Bytes) : Wlx := takeTlvs 256 (f.drop 14) {}

/-! ## Outcomes (spec/06 R176) -/

/-- The outcome of the two ends' TLVs; none is NO_COMMON_FC. -/
def State.negotiate (s : State) (p : Nat) (w : Wlx) : Option Outcome :=
  let wlx := min (s.ctrlFld p F.PRT_PORT_CTRL_WLX_MAX) w.version
  let fc := s.ctrlFld p F.PRT_PORT_CTRL_FC_ALLOW &&& w.fc
  let fc := if 2 ≤ wlx ∧ bitOf fc 1 then 2 else if bitOf fc 0 then 1 else 0
  let hfh := s.hfhByte p &&& w.hfh
  let fl := if wlx = 3 then w.flags else 0
  if fc = 0 then none
  else some
    { wlx := wlx, fc := fc, vcs := if fc = 2 then min (s.ctrlFld p F.PRT_PORT_CTRL_VC_MAX) w.vcMax else 8,
      hfh := if bitOf hfh 1 then 2 else hfh % 2, spill := s.spillZone p && bitOf fl 1, ts := bitOf fl 2, burst := bitOf fl 0,
      maxFrame := min 9216 w.maxFrame }

/-- The outcome with a partner without WLX (spec/06 Table 6.13, R178); no largest frame is agreed with it, so the module's
own 9,216 stands (log entry 33). -/
def nonWlxOutcome : Outcome := ⟨0, 1, 8, 0, false, false, false, 9216⟩

/-- Whether a partner's Agreement states an outcome. -/
def Outcome.agrees (o : Outcome) (a : Agreement) : Bool := agreementOf o a.echo == a

end Sys2Proof.Machine
end

