-- ==== Sys2Proof/Machine/Switch.lean ====
section
/-! DEFINITION. The packet buffers at work: admission, credits and priority flow control that follow from cells, transfer queues,
multicast copies, resequencing, ageing and the audit (spec/08 R223 to R232, R236 to R240; spec/06 R182, R186). -/

namespace Sys2Proof.Machine

/-- What admission counts: reservation, shared pool and headroom cells still to give, shared cells held, pool free. -/
structure Room where
  res : Nat
  head : Nat
  shared : Nat
  free : Nat
  alpha : Nat
  deriving DecidableEq, Repr

/-- The cells of a frame against the first heading that can take each (spec/08 R226). -/
def admitCells : Nat → Room → Option (Nat × Nat × Nat)
  | 0, _ => some (0, 0, 0)
  | n + 1, r =>
    if 0 < r.res then (admitCells n { r with res := r.res - 1 }).map fun x => (x.1 + 1, x.2.1, x.2.2)
    else if alphaOk r.alpha r.shared r.free then
      (admitCells n { r with shared := r.shared + 1, free := r.free - 1 }).map fun x => (x.1, x.2.1 + 1, x.2.2)
    else if 0 < r.head then (admitCells n { r with head := r.head - 1 }).map fun x => (x.1, x.2.1, x.2.2 + 1)
    else none

/-- The room of (p, c). -/
def State.room (s : State) (p c : Nat) : Room :=
  let l := s.ingressFrames p c
  { res := s.reservation p c - (l.map Stored.res).sum, head := s.headroom p c - (l.map Stored.head).sum,
    shared := (l.map Stored.shared).sum, free := s.sharedFree (portQuad p), alpha := s.alpha p c }

/-! ## What freed cells do (spec/06 R182, R183, R186; spec/08 R227) -/

/-- Cells of (p, c) are freed: RETURNED counts them in credit mode, and a credit frame is owed. -/
def State.returnCells (s : State) (p c n : Nat) : State :=
  if 2048 ≤ p ∨ n = 0 ∨ s.portFc p ≠ 2 then s
  else
    let x := s.port p
    let v := s.portVc p c
    s.setPort p { x with freed := sset 0 x.freed v (sget 0 x.freed v + BitVec.ofNat 32 n), owes := true }

/-- A PFC frame for one class (IEEE 802.1Qbb; log entry 35). -/
def State.sendPfc (s : State) (p c quanta : Nat) : State :=
  let q := (List.range 8).flatMap fun k => beBytes 2 (if k = c then quanta else 0)
  let s := if quanta = 0 then s else s.count (ctrPfc p c 1)
  s.txFrame p (padFrame (ethHeader 0x0180C2000001 s.mac 0x8808 ++ beBytes 2 0x0101 ++ beBytes 2 (2 ^ c) ++ q))

/-- Whether priority flow control runs on a port: it is UP, and its lane may carry frames (spec/06 R171, R179, R186, R188). -/
def State.pfcRuns (s : State) (p : Nat) : Bool := s.portUp p && s.portFc p == 1 && s.portLocked p && !s.portLent p

/-- XOFF when the cells held reach it, XON when they fall below it; on a lane that waits for its window this is looked at again
when the window opens. -/
def State.pfcCheck (s : State) (p c : Nat) : State :=
  if 2048 ≤ p ∨ s.pfcRuns p = false ∨ s.canSend p 64 = false then s
  else
    let x := s.port p
    let h := s.heldCells p c
    let t := R.PRT_PFC_THRESH (p / 8) (p % 8) c
    if x.xoff.getLsbD c = false ∧ s.fld t F.PRT_PFC_THRESH_XOFF ≤ h then
      (s.setPort p { x with xoff := x.xoff ||| BitVec.ofNat 8 (2 ^ c) }).sendPfc p c 0xFFFF
    else if x.xoff.getLsbD c ∧ h < s.fld t F.PRT_PFC_THRESH_XON then
      (s.setPort p { x with xoff := x.xoff &&& ~~~BitVec.ofNat 8 (2 ^ c) }).sendPfc p c 0
    else s

/-- All classes of a port are looked at. -/
def State.pfcCheckAll (s : State) (p : Nat) : State := (List.range 8).foldl (fun s c => s.pfcCheck p c) s

/-- Reservation cells that the shared pool would take over. -/
def takeOver : Nat → Nat → Nat → Nat → Nat
  | 0, _, _, _ => 0
  | n + 1, alpha, shared, free => if alphaOk alpha shared free then takeOver n alpha (shared + 1) (free - 1) + 1 else 0

/-- The shared pool of a quadrant takes over reservation cells of ports in credit mode, oldest first, wherever it would admit them:
this follows every change of the pool (spec/08 R227). -/
def State.rebalance (s : State) (q : Nat) : State :=
  (s.swc.frames.filter fun f => f.quad == q && decide (0 < f.res) && portQuad f.ingress == q).foldl (fun s f =>
    if 2048 ≤ f.ingress ∨ s.portFc f.ingress ≠ 2 then s
    else
      let r := s.room f.ingress f.cls
      let k := takeOver f.res r.alpha r.shared r.free
      (s.updFrame f.id fun f => { f with res := f.res - k, shared := f.shared + k }).returnCells f.ingress f.cls k) s

/-- Every quadrant's pool is looked at. -/
def State.rebalanceAll (s : State) : State := (List.range 4).foldl (fun s q => s.rebalance q) s

/-- A stored frame's cells are freed. -/
def State.freeFrame (s : State) (id : Nat) : State := match s.frame? id with
  | none => s
  | some f =>
    let s := { s with swc.frames := s.swc.frames.filter fun x => x.id != id }
    let s := if f.quad = portQuad f.ingress then (s.returnCells f.ingress f.cls (f.res + f.head)).pfcCheck f.ingress f.cls else s
    s.rebalance f.quad

/-- One name of a stored frame is gone; its cells are freed when none is left (spec/08 R236). -/
def State.release (s : State) (id : Nat) : State := match s.frame? id with
  | none => s
  | some f => if f.refs ≤ 1 then s.freeFrame id else s.updFrame id fun f => { f with refs := f.refs - 1 }

/-- One cell of a frame leaves its ingress accounting as it crosses: reservation first, then shared pool, then headroom. -/
def State.freeCell (s : State) (id : Nat) : State := match s.frame? id with
  | none => s
  | some f =>
    let s := s.updFrame id fun f =>
      if 0 < f.res then { f with res := f.res - 1 } else if 0 < f.shared then { f with shared := f.shared - 1 }
      else { f with head := f.head - 1 }
    let s := if f.quad = portQuad f.ingress then
        (s.returnCells f.ingress f.cls (if f.res = 0 ∧ 0 < f.shared then 0 else min 1 f.held)).pfcCheck f.ingress f.cls
      else s
    s.rebalance f.quad

/-- A frame received on a fabric port is admitted to the buffer of its quadrant (spec/08 R226); none where it is refused. -/
def State.admitFrame (s : State) (f : Stored) : Option (Nat × State) :=
  match admitCells f.cells (s.room f.ingress f.cls) with
  | none => none
  | some (r, sh, h) =>
    let (id, s) := s.store { f with res := r, shared := sh, head := h }
    let s := s.returnCells f.ingress f.cls sh
    some (id, (s.rebalance f.quad).pfcCheck f.ingress f.cls)

/-- Whether the hold behaviour of a port runs (spec/06 R188). -/
def State.holding (s : State) (p : Nat) : Bool := (s.port p).holdRunning

/-! ## Ageing (spec/08 R238) -/

/-- Whether a frame's age exceeds the age limit. -/
def State.aged (s : State) (f : Stored) : Bool := decide (f.stamp + s.swc.ageInForce * 1000 < s.now)

/-- A frame discarded by age at (port, class). -/
def State.ageOut (s : State) (p c id : Nat) : State := (s.count (ctrSwcClass p c 2)).release id

/-! ## Egress and transfer queues (spec/08 R228, R236) -/

/-- A copy is refused at an egress queue. -/
def State.egressDrop (s : State) (p c id : Nat) : State := (s.count (ctrSwcClass p c 1)).release id

/-- Frames leave a transfer queue in order while the egress queue is below its limit; fuel bounds their number. -/
def State.releaseTransfers (s : State) (p c : Nat) : Nat → State
  | 0 => s
  | n + 1 => match s.xferQueue p c with
    | [] => s
    | e :: t =>
      let pop : State := { s with swc.transfers := sset [] s.swc.transfers (qKey p c) t }
      match s.frame? e.frame with
      | none => pop.releaseTransfers p c n
      | some f =>
        if s.aged f then (pop.ageOut p c e.frame).releaseTransfers p c n
        else if s.belowLimit p c then (pop.deliver p c e.frame).releaseTransfers p c n
        else s

/-- A waiting frame leaves its transfer queue. -/
def execTransferQueueRelease (p : Fin 2048) (c : Fin 8) (s : State) : Out := .next (s.releaseTransfers p c 1)

/-- Whether a stored frame is a forwarded control frame, which no limit of a queue holds back. -/
def State.isControl (s : State) (id : Nat) : Bool := match s.frame? id with
  | some f => f.control
  | none => false

/-- A frame for one egress queue (spec/08 R228): placed, waiting in its transfer queue, or dropped; a port in its hold behaviour
drops beyond its share (spec/06 Table 6.17). -/
def State.enqueue (s : State) (p c id : Nat) (lossless : Bool) : State :=
  if s.isControl id ∨ ((s.xferQueue p c).isEmpty ∧ s.belowLimit p c) then s.deliver p c id
  else if lossless ∧ s.holding p = false ∧ s.bufFld p c F.SWC_BUF_PROFILE_LOSSLESS = 1 then
    { s with swc.transfers := sset [] s.swc.transfers (qKey p c) (s.xferQueue p c ++ [⟨id, s.now⟩]) }
  else s.egressDrop p c id

/-- A queue behind which frames still wait is at its limit for a copy (log entry 36): those that need wait no more go first. -/
def State.queueWaits (s : State) (p c : Nat) : Bool × State :=
  let s := s.releaseTransfers p c (s.xferQueue p c).length
  (!(s.xferQueue p c).isEmpty, s)

/-- One copy of a multicast frame at its queue: lost at the limit whatever LOSSLESS says (spec/08 R236). -/
def State.placeCopy (s : State) (p c id : Nat) : State :=
  if s.isControl id then s.place p c id
  else
    let (waits, s) := s.queueWaits p c
    if !waits && s.belowLimit p c then s.place p c id else s.egressDrop p c id

/-- The targets in other quadrants whose copies may cross: one behind whose queue frames wait is lost (spec/08 R232, R236). -/
def State.farTargets (s : State) (id c : Nat) (l : List Nat) : List Nat × State :=
  if s.isControl id then (l, s)
  else l.foldl (fun (l, s) p =>
    let (waits, s) := s.queueWaits p c
    if waits then (l, s.count (ctrSwcClass p c 1)) else (l ++ [p], s)) ([], s)

/-- A multicast frame's pointers and transfers: one transfer for each other quadrant that holds targets. -/
def State.spread (s : State) (id : Nat) (targets : List Nat) : State := match s.frame? id with
  | none => s
  | some f =>
    let own := targets.filter fun p => portQuad p == f.quad
    let (far, s) := s.farTargets id f.cls (targets.filter fun p => portQuad p != f.quad)
    let quads := (List.range 4).filter fun q => far.any fun p => portQuad p == q
    let s := s.updFrame id fun f => { f with refs := own.length + quads.length }
    let s := if own.isEmpty ∧ quads.isEmpty then s.freeFrame id else s
    let s := own.foldl (fun s p => s.placeCopy p f.cls id) s
    quads.foldl (fun s q => s.startCross id (far.filter fun p => portQuad p == q) .copy) s

/-! ## Resequencing (spec/08 R231, R232) -/

/-- A difference of stream numbers. -/
def seqDiff (a b : BitVec 16) : Nat := (a - b).toNat

/-- Whether a number lies before the next one a resequencer waits for. -/
def Reseq.past (r : Reseq) (q : BitVec 16) : Bool := decide (2 ^ 15 ≤ seqDiff q r.next)

/-- The next number moves past every held cell that follows it; fuel is the window. -/
def Reseq.advance : Nat → Reseq → Reseq
  | 0, r => r
  | n + 1, r => if r.held.contains r.next then
      Reseq.advance n { r with next := r.next + 1, held := r.held.filter fun q => q != r.next } else r

/-- The next number is released, with every held cell that now follows it. -/
def Reseq.pass (r : Reseq) : Reseq := Reseq.advance 4097 { r with next := r.next + 1 }

/-- A crossing takes a change. -/
def Reseq.change (r : Reseq) (frame : Nat) (g : Crossing → Crossing) : Reseq :=
  { r with crossings := r.crossings.map fun x => if x.frame = frame then g x else x }

/-- One of a crossing's numbers is missing no more. -/
def Crossing.got (q : BitVec 16) (x : Crossing) : Crossing := { x with missing := x.missing.filter fun m => m != q }

/-- Whether a crossing is over: nothing is missing, and its last number has been released or it was set aside. -/
def Crossing.over (x : Crossing) (r : Reseq) : Bool :=
  x.missing.isEmpty && (x.aside || r.past (x.first + BitVec.ofNat 16 (x.cells - 1)))

/-- The crossings of a slice's class, with the key of their stream and whether each is over. -/
def State.crossingsOf (s : State) (slice c : Nat) : List (Nat × Crossing × Bool) :=
  (s.swc.reseqs.filter fun y => y.1 / 16384 == slice && y.1 % 8 == c).flatMap fun y =>
    y.2.crossings.map fun x => (y.1, x, x.over y.2)

/-- Whether an earlier crossing of the flow is still to land at one of its targets: what has been set aside, lost or moved keeps no
place (spec/08 R232). -/
def Crossing.behind (x : Crossing) (l : List (Nat × Crossing × Bool)) : Bool :=
  !x.aside && !x.lost && x.kind != .moved && l.any fun y =>
    decide (y.2.1.frame < x.frame) && !y.2.1.aside && !y.2.1.lost && y.2.1.kind != .moved && y.2.1.targets.any x.targets.contains

/-- A crossing is over: the source copy loses its name; the copy that crossed is placed on its queue, admitted to those of its
targets, or, moved, looks for a place on its new port. -/
def State.landCrossing (s : State) (c : Nat) (x : Crossing) : State :=
  if x.lost then s
  else
    let s := s.release x.source
    match x.kind, x.targets with
    | .unicast, [p] => s.place p c x.frame
    | .moved, [p] => s.enqueue p c x.frame true
    | _, [] => s.freeFrame x.frame
    | _, l => l.foldl (fun s p => s.placeCopy p c x.frame) (s.updFrame x.frame fun f => { f with refs := l.length })

/-- Crossings of a slice's class that are over land, each after those of its flow before it; one that was set aside counts as out
of order. Fuel bounds their number. -/
def State.landAll (s : State) (slice c : Nat) : Nat → State
  | 0 => s
  | n + 1 =>
    let l := s.crossingsOf slice c
    match l.find? fun y => y.2.2 && !y.2.1.behind l with
    | none => s
    | some (k, x, _) =>
      let r := sget {} s.swc.reseqs k
      let s := { s with swc.reseqs := sset {} s.swc.reseqs k { r with crossings := r.crossings.filter fun y => y.frame != x.frame } }
      let s := if x.aside && !x.lost then s.count (ctrSwcPort (k / 8 % 2048) 4) else s
      (s.landCrossing c x).landAll slice c n

/-- A resequencer takes a value, and what that brings in order lands. -/
def State.settle (s : State) (k : Nat) (r : Reseq) : State :=
  let s := { s with swc.reseqs := sset {} s.swc.reseqs k r }
  s.landAll (k / 16384) (k % 8) (s.crossingsOf (k / 16384) (k % 8)).length

/-- The held cell nearest behind the oldest gap. -/
def Reseq.firstHeld (r : Reseq) : Option (BitVec 16) :=
  r.held.foldl (fun a q => match a with
    | none => some q
    | some h => if seqDiff q r.next < seqDiff h r.next then some q else some h) none

/-- The oldest gap is skipped: held cells are released up to the next gap, and every frame that misses a cell of the gap is set
aside. -/
def State.skipGap (s : State) (k : Nat) (r : Reseq) : State :=
  match r.firstHeld with
  | none => s
  | some h =>
    let inGap (q : BitVec 16) : Bool := decide (seqDiff q r.next < seqDiff h r.next)
    let r := { r with next := h, crossings := r.crossings.map fun x => if x.missing.any inGap then { x with aside := true } else x }
    (s.count (ctrSwcPort (k / 8 % 2048) 3)).settle k (Reseq.advance 4097 r)

/-- The copy in the egress quadrant and the name of the source of a crossing are given up. -/
def State.dropCrossing (s : State) (x : Crossing) : State := (s.release x.source).freeFrame x.frame

/-- A cell of a crossing has come to the egress quadrant: it takes a shared cell there, and frees one of its source where the
transfer is the one thing that names it. -/
def State.cellCrosses (s : State) (x : Crossing) : State :=
  if x.lost then s
  else
    let alone := match s.frame? x.source with
      | some f => decide (f.refs ≤ 1)
      | none => false
    let s := if alone then s.freeCell x.source else s
    s.updFrame x.frame fun f => if f.control then f else { f with shared := f.shared + 1 }

/-- The crossing that a cell belongs to. -/
def Reseq.owner (r : Reseq) (q : BitVec 16) : Option Crossing := r.crossings.find? fun x => x.missing.contains q

/-- A cell reaches its resequencer: released in sequence, held behind a gap, or late. A cell that would exceed the window takes its
place among the held ones first (log entry 36). -/
def State.cellArrives (s : State) (k : Nat) (q : BitVec 16) : State :=
  let r := sget {} s.swc.reseqs k
  match r.owner q with
  | none => s
  | some x =>
    let s := (s.meshTake k q 2).cellCrosses x
    let r := (sget {} s.swc.reseqs k).change x.frame (Crossing.got q)
    if r.past q then s.settle k r
    else if q = r.next then s.settle k r.pass
    else
      let r := { r with held := r.held ++ [q] }
      if 4096 < r.held.length then s.skipGap k r else s.settle k r

/-- The mesh reports a cell lost: its number is skipped at once, and its frame is discarded and counted once (spec/08 R231, step
6; log entry 36). -/
def State.cellLost (s : State) (k : Nat) (q : BitVec 16) : State :=
  let p := k / 8 % 2048
  let r := sget {} s.swc.reseqs k
  match r.owner q with
  | none => s
  | some x =>
    let s := s.meshTake k q 2
    let s := if x.lost then s else (s.count (ctrSwcPort p 5)).dropCrossing x
    let r := (sget {} s.swc.reseqs k).change x.frame fun x => { x.got q with lost := true }
    if r.past q then s.settle k r
    else
      let s := s.count (ctrSwcPort p 3)
      if q = r.next then s.settle k r.pass else s.settle k { r with held := r.held ++ [q] }

/-- The key of a stream operand. -/
def meshKey (m : MeshStream) : Nat := streamKey m.slice m.port m.cls

def execMeshCellArrival (stream : MeshStream) (seq : BitVec 16) (s : State) : Out := .next (s.cellArrives (meshKey stream) seq)

/-- A cell held for the release timeout skips the oldest gap. -/
def execReseqTimeout (stream : MeshStream) (s : State) : Out :=
  .next (s.skipGap (meshKey stream) (sget {} s.swc.reseqs (meshKey stream)))

def execMeshCellLost (stream : MeshStream) (seq : BitVec 16) (s : State) : Out := .next (s.cellLost (meshKey stream) seq)

/-! ## The audit (spec/08 R240) -/

/-- Whether a frame is being transferred across the mesh or transmitted, where the audit leaves it alone. -/
def State.moving (s : State) (id : Nat) : Bool :=
  s.swc.reseqs.any (fun x => x.2.crossings.any fun k => !k.lost && (k.frame == id || k.source == id)) ||
    s.swc.sending.any fun x => x.2.frame.id == id

/-- Whether a Basin engine holds a frame (spec/09 R261). -/
def State.engineHolds (s : State) (id : Nat) : Bool :=
  s.bsn.inbox.any (fun x => x.2.any fun f => f.stored == id) || s.bsn.slots.any fun x => x.2.early.any fun f => f.stored == id

/-- Whether an egress or transfer queue names a stored frame. -/
def State.queued (s : State) (id : Nat) : Bool :=
  s.swc.queues.any (fun x => x.2.any fun e => e.frame == id) || s.swc.transfers.any fun x => x.2.any fun e => e.frame == id

/-- Whether anything names a stored frame. -/
def State.named (s : State) (id : Nat) : Bool := s.queued id || s.moving id || s.engineHolds id

/-- Cells reclaimed in a quadrant are counted. -/
def State.reclaim (s : State) (q n : Nat) : State :=
  let s := s.countBy (ctrSwc q) n
  s.setFld R.SWC_AUDIT_STATUS F.SWC_AUDIT_STATUS_LAST_RECLAIMED (s.fld R.SWC_AUDIT_STATUS F.SWC_AUDIT_STATUS_LAST_RECLAIMED + n)

/-- Frames are taken out of every queue. -/
def State.unqueue (s : State) (gone : Nat → Bool) : State :=
  let keep (l : List QEntry) : List QEntry := l.filter fun e => !gone e.frame
  let s := s.swc.queues.foldl (fun s x => s.setQueueKey x.1 (keep x.2)) s
  { s with swc.transfers := s.swc.transfers.foldl (fun a x => sset [] a x.1 (keep x.2)) [] }

/-- A buffer loses its frames: each is discarded, and its cells are counted at the next audit pass (spec/14 Table 14.5). What was
crossing from it or to it is lost at both ends. -/
def State.loseBuffer (s : State) (q : Nat) : State :=
  let mine := s.swc.frames.filter fun f => f.quad == q
  let ids := mine.map Stored.id
  let s := s.unqueue ids.contains
  let s := { s with swc.lost := sset 0 s.swc.lost q (sget 0 s.swc.lost q + (mine.map Stored.held).sum) }
  let gone (x : Crossing) : Bool := !x.lost && (ids.contains x.frame || ids.contains x.source)
  let s := s.swc.reseqs.foldl (fun s y => (y.2.crossings.filter gone).foldl (fun s x => s.dropCrossing x) s) s
  let s := { s with swc.reseqs := s.swc.reseqs.foldl (fun a y =>
    sset {} a y.1 { y.2 with crossings := y.2.crossings.map fun x => if gone x then { x with lost := true } else x }) [] }
  ids.foldl (fun s i => s.freeFrame i) s

/-- An aged frame is taken out of every queue that names it, counted as AGED at each. -/
def State.reclaimAged (s : State) (f : Stored) : State :=
  let l := (s.swc.queues ++ s.swc.transfers).flatMap fun x => (x.2.filter fun e => e.frame == f.id).map fun _ => x.1
  let s := s.unqueue fun i => i == f.id
  let s := l.foldl (fun s k => s.count (ctrSwcClass (qPort k) f.cls 2)) s
  (s.reclaim f.quad f.held).freeFrame f.id

/-- A pass of the audit: aged frames in queues, stored copies that nothing has named, and cells that no frame has owned, on two
consecutive passes (log entry 76). -/
def execAuditPass (strays : List Nat) (s : State) : Out :=
  let s := s.setFld R.SWC_AUDIT_STATUS F.SWC_AUDIT_STATUS_LAST_RECLAIMED 0
  let s := s.incFld R.SWC_AUDIT_STATUS F.SWC_AUDIT_STATUS_PASSES
  let old := s.swc.frames.filter fun f => s.aged f && !s.moving f.id && s.queued f.id
  let s := old.foldl (fun s f => s.reclaimAged f) s
  let lost := (s.swc.frames.filter fun f => !s.named f.id).map Stored.id
  let leaks := s.swc.frames.filter fun f => lost.contains f.id && s.swc.orphans.contains f.id
  let cells := strays.filter s.swc.strays.contains
  let s := { s with swc.orphans := lost, swc.strays := strays.filter fun c => !cells.contains c }
  let s := leaks.foldl (fun s f => (s.reclaim f.quad f.held).freeFrame f.id) s
  let s := cells.foldl (fun s c => s.reclaim (c / 393216) 1) s
  let s := { s.swc.lost.foldl (fun s x => s.reclaim x.1 x.2) s with swc.lost := [] }
  if leaks.isEmpty ∧ cells.isEmpty then .next s
  else .next ((s.setFld R.SWC_AUDIT_STATUS F.SWC_AUDIT_STATUS_LEAK 1).raise 10)

end Sys2Proof.Machine
end

