-- ==== Sys2Proof/Machine/BasinOps.lean ====
section
/-! DEFINITION. Basin engines as the other parts of the module use them: groups, slots, payload formats, the frames an engine
sends, retention, and how an operation ends or aborts (spec/09 R249 to R280). -/

namespace Sys2Proof.Machine

/-! ## Groups (spec/09 R249 to R251) -/

/-- A committed field of BSN_GROUP_A of group g. -/
def State.grpA (s : State) (g : Nat) (f : Fld) : Nat := s.cfld (R.BSN_GROUP_A (g / 512) (g % 512)) f

/-- A committed field of BSN_GROUP_B of group g. -/
def State.grpB (s : State) (g : Nat) (f : Fld) : Nat := s.cfld (R.BSN_GROUP_B (g / 512) (g % 512)) f

/-- Whether a group is active on the module (spec/09 R249). -/
def State.grpActive (s : State) (g : Nat) : Bool :=
  s.grpA g F.BSN_GROUP_A_VALID == 1 && s.flag (R.BSN_CTRL (g / 512)) F.BSN_CTRL_ENABLE

/-- The engine's own copy of a group's member rows and template. -/
def State.grpCopy (s : State) (g : Nat) : GroupCopy := sget {} s.bsn.groups g

/-- KIND of a member row (spec/09 Table 9.1): 2 is a peer spine. -/
def rowKind (r : Word) : Nat := r.toNat / 2 ^ 62
/-- PORT of a member row. -/
def rowPort (r : Word) : Nat := r.toNat / 2 ^ 32 % 2048

/-- Members of a group. -/
def State.members (s : State) (g : Nat) : List Word := (s.grpCopy g).members

/-- The port of a member. -/
def State.memberPort (s : State) (g m : Nat) : Nat := rowPort ((s.members g).getD m 0)

/-- Whether a member is a peer spine. -/
def State.isPeer (s : State) (g m : Nat) : Bool := rowKind ((s.members g).getD m 0) == 2

/-- Members that meet a condition, in rising order. -/
def State.membersWhere (s : State) (g : Nat) (p : Nat → Bool) : List Nat := (List.range (s.members g).length).filter p

/-- Whether a port is excluded (spec/07 R215). -/
def State.excluded (s : State) (p : Nat) : Bool := s.bit (R.FWD_MCAST_EXCLUDE (p / 64)) (p % 64)

/-- IN_FORMAT of a group. -/
def State.inFmt (s : State) (g : Nat) : Nat := s.grpB g F.BSN_GROUP_B_IN_FORMAT
/-- OUT_FORMAT of a group. -/
def State.outFmt (s : State) (g : Nat) : Nat := s.grpB g F.BSN_GROUP_B_OUT_FORMAT

/-! ## Payload formats (spec/09 R254, R262 to R264) -/

/-- Bytes of 32 elements on the fabric (spec/09 Table 9.4); 0 for a code without elements. -/
def fmtBytes32 (f : Nat) : Nat := [0, 32, 128, 256, 64, 64, 128, 256, 33, 33, 25, 25, 17].getD f 0

/-- Whether a format is an integer format. -/
def fmtIsInt (f : Nat) : Bool := decide (1 ≤ f) && decide (f ≤ 3)

/-- Whether a format is an MX format. -/
def fmtIsMx (f : Nat) : Bool := decide (8 ≤ f) && decide (f ≤ 12)

/-- Bits of an integer format. -/
def fmtIntBits (f : Nat) : Nat := if f = 1 then 8 else if f = 2 then 32 else 64

/-- The floating format of a code 0x04 to 0x07. -/
def fmtFloat (f : Nat) : Fmt := if f = 4 then fmtBF16 else if f = 5 then fmtFP16 else if f = 6 then fmtFP32 else fmtFP64

/-- The MX format of a code 0x08 to 0x0C; the order is that of types 0x7 to 0xB too (spec/04 Table 4.8). -/
def fmtMx (f : Nat) : MxFmt :=
  if f = 8 then ⟨fmtE4M3, 8⟩ else if f = 9 then ⟨fmtE5M2, 15⟩ else if f = 10 then ⟨fmtE3M2, 4⟩
  else if f = 11 then ⟨fmtE2M3, 2⟩ else ⟨fmtE2M1, 2⟩

/-- Bits packed little-endian: element i of width w. -/
def packedAt (b : Bytes) (w i : Nat) : Nat := leNat b / 2 ^ (w * i) % 2 ^ w

/-- Elements of width w packed little-endian into n bytes. -/
def packBits (w n : Nat) (l : List Nat) : Bytes := leBytes n (l.foldr (fun x a => a * 2 ^ w + x % 2 ^ w) 0)

/-- A value as the binary64 word of an accumulator. -/
def fp64Word (x : Fp) : Nat := (fmtFP64.enc .rne x).1

/-- Element words of n elements of a payload: two's complement for integers, else exact binary64 (spec/09 R262, R263). -/
def decodeElems (f : Nat) (b : Bytes) (n : Nat) : List Nat :=
  if fmtIsInt f then
    let w := fmtIntBits f / 8
    (List.range n).map fun i => wrapInt 64 (signedOf (8 * w) (beAt b (w * i) w))
  else if fmtIsMx f then
    let m := fmtMx f
    (List.range n).map fun i =>
      let blk := slice b (i / 32 * fmtBytes32 f) (fmtBytes32 f)
      fp64Word (m.value (byteAt blk 0) (packedAt (blk.drop 1) m.fmt.width (i % 32)))
  else
    let x := fmtFloat f
    (List.range n).map fun i => fp64Word (x.dec (beAt b (x.width / 8 * i) (x.width / 8)))

/-- 32 values as one MX block on the fabric: scale byte, then packed elements. -/
def mxBlockBytes (m : MxFmt) (l : List Fp) : Bytes :=
  let (sc, els, _) := m.block (fun _ => .rne) l
  BitVec.ofNat 8 sc :: packBits m.fmt.width (m.fmt.width * 4) els

/-- Element words rounded once to an output format (spec/09 R263, R264). -/
def encodeElems (f : Nat) (l : List Nat) : Bytes :=
  if fmtIsInt f then
    l.flatMap fun x => beBytes (fmtIntBits f / 8) (fitInt (fmtIntBits f) true (signedOf 64 x))
  else if fmtIsMx f then
    (List.range (l.length / 32)).flatMap fun k =>
      mxBlockBytes (fmtMx f) (((l.drop (32 * k)).take 32).map fmtFP64.dec)
  else l.flatMap fun x => beBytes ((fmtFloat f).width / 8) ((fmtFloat f).enc .rne (fmtFP64.dec x)).1

/-- An element joins its accumulator: one saturating integer addition or one binary64 addition, or the minimum or maximum
(spec/09 R262, R263). -/
def combineElem (int : Bool) (reduce a x : Nat) : Nat :=
  if int then
    let u := signedOf 64 a
    let v := signedOf 64 x
    wrapInt 64 (if reduce = 0 then satInt 64 (u + v) else if reduce = 1 then min u v else max u v)
  else
    let u := fmtFP64.dec a
    let v := fmtFP64.dec x
    if reduce = 0 then fp64Word (u.add v).1 else fp64Word (Fp.minNum (reduce == 2) u v).1

/-! ## Slots and records (spec/09 R255, R256) -/

/-- The key of a slot, of an engine's accumulators, of a channel. -/
def slotKey (e sl : Nat) : Nat := 1024 * e + sl

/-- The context of a slot. -/
def bCtx (e sl : Nat) : Ctx := .b (Fin.ofNat 8 e) (Fin.ofNat 1024 sl)

/-- A slot. -/
def State.slot (s : State) (e sl : Nat) : Slot := sget {} s.bsn.slots (slotKey e sl)

/-- A slot takes a value. -/
def State.setSlot (s : State) (e sl : Nat) (x : Slot) : State :=
  { s with bsn.slots := sset {} s.bsn.slots (slotKey e sl) x }

/-- OP of a record (spec/09 Table 9.5). -/
def Slot.op (x : Slot) : Nat := byteAt x.record 0
/-- REDUCE. -/
def Slot.reduce (x : Slot) : Nat := byteAt x.record 1
/-- GROUP. -/
def Slot.group (x : Slot) : Nat := leAt x.record 2 2 % 4096
/-- E of spec/09 R258. -/
def Slot.elems (x : Slot) : Nat := 2 ^ byteAt x.record 4
/-- NOTIFY. -/
def Slot.notify (x : Slot) : Bool := bitOf (byteAt x.record 5) 0
/-- BIND_HOST. -/
def Slot.bindHost (x : Slot) : Bool := bitOf (byteAt x.record 5) 1
/-- OP_SEQ. -/
def Slot.opSeq (x : Slot) : Nat := leAt x.record 6 2
/-- CHUNKS. -/
def Slot.nChunks (x : Slot) : Nat := leAt x.record 8 4
/-- ACCUM_OFFSET. -/
def Slot.accOff (x : Slot) : Nat := leAt x.record 24 4
/-- ACCUM_SIZE. -/
def Slot.accSize (x : Slot) : Nat := leAt x.record 28 4
/-- OUTCOME_ADDR. -/
def Slot.outcomeAddr (x : Slot) : Nat := leAt x.record 32 8
/-- DONE_PEG. -/
def Slot.donePeg (x : Slot) : Nat := leAt x.record 40 2
/-- ABORT_PEG. -/
def Slot.abortPeg (x : Slot) : Nat := leAt x.record 42 2
/-- CIRCUIT. -/
def Slot.circuit (x : Slot) : Nat := leAt x.record 44 2
/-- RANK. -/
def Slot.rank (x : Slot) : Nat := leAt x.record 46 2
/-- SEED. -/
def Slot.seed (x : Slot) : Nat := leAt x.record 48 8
/-- GENERATION. -/
def Slot.generation (x : Slot) : Nat := leAt x.record 56 8

/-- The state word of a slot takes fields (spec/09 Table 9.6a). -/
def slotWord (st group opSeq code emitted : Nat) : Word :=
  BitVec.ofNat 64 (st % 8 * 2 ^ 61 + group % 4096 * 2 ^ 49 + opSeq % 65536 * 2 ^ 33 + code % 65536 * 2 ^ 17 + emitted % 2 ^ 17)

/-- STATE of a slot: 0 free, 1 running, 2 aborting, 3 ending. -/
def State.slotSt (s : State) (e sl : Nat) : Nat := s.fld (R.BSN_SLOT e sl) ⟨61, 3⟩
/-- CODE of a slot. -/
def State.slotCode (s : State) (e sl : Nat) : Nat := s.fld (R.BSN_SLOT e sl) ⟨17, 16⟩
/-- EMITTED of a slot. -/
def State.slotEmitted (s : State) (e sl : Nat) : Nat := s.fld (R.BSN_SLOT e sl) ⟨0, 17⟩

/-- A chunk of a slot. -/
def Slot.chunk (x : Slot) (c : Nat) : Chunk := sget {} x.chunks c
/-- A chunk of a slot takes a value. -/
def Slot.setChunk (x : Slot) (c : Nat) (k : Chunk) : Slot := { x with chunks := sset {} x.chunks c k }

/-- The slots of an engine that are not free. -/
def State.slotsOf (s : State) (e : Nat) : List Nat :=
  (s.bsn.slots.filter fun x => x.1 / 1024 == e).map fun x => x.1 % 1024

/-- Whether a slot's operation is active: running or ending. -/
def State.slotActive (s : State) (e sl : Nat) : Bool := s.slotSt e sl == 1 || s.slotSt e sl == 3

/-- The active operation of a group with an OP_SEQ. -/
def State.activeSlot (s : State) (e g seq : Nat) : Option Nat :=
  (s.slotsOf e).find? fun sl => s.slotActive e sl && (s.slot e sl).group == g && (s.slot e sl).opSeq == seq

/-- The memory of an ended operation. -/
def State.endedOp (s : State) (e g seq : Nat) : Option EndedOp :=
  s.bsn.ended.find? fun x => x.e == e && x.group == g && x.opSeq == seq

/-- The memory of an ended operation is dropped. -/
def State.dropEnded (s : State) (e g seq : Nat) : State :=
  { s with bsn.ended := s.bsn.ended.filter fun x => !(x.e == e && x.group == g && x.opSeq == seq) }

/-- An ended operation is remembered. -/
def State.rememberEnded (s : State) (x : EndedOp) : State :=
  let s := s.dropEnded x.e x.group x.opSeq
  { s with bsn.ended := s.bsn.ended ++ [x] }

/-! ## Frames an engine sends (spec/09 R251, R257) -/

/-- The offset of the IP header of a template: after Ethernet and at most two 802.1Q tags (spec/07 Table 7.2); none when no IP
header follows. -/
def tmplIp : Nat → Bytes → Nat → Option (Nat × Bool)
  | 0, _, _ => none
  | n + 1, b, i =>
    let t := beAt b i 2
    if t = 0x8100 ∨ t = 0x88A8 then tmplIp n b (i + 4)
    else if t = 0x0800 then some (i + 2, false) else if t = 0x86DD then some (i + 2, true) else none

/-- A template parsed: offset of the IP header, whether it is IPv6, offset of the UDP header; the UDP header ends the
template (spec/09 R251). -/
def parseTemplate (t : Bytes) : Option (Nat × Bool × Nat) :=
  let len := byteAt t 127
  match tmplIp 3 (slice t 0 len) 12 with
  | none => none
  | some (ip, v6) =>
    let hl := if v6 then 40 else byteAt t ip % 16 * 4
    let ver := byteAt t ip / 16
    let proto := if v6 then byteAt t (ip + 6) else byteAt t (ip + 9)
    if ver = (if v6 then 6 else 4) ∧ 20 ≤ hl ∧ proto = 17 ∧ ip + hl + 8 = len then some (ip, v6, ip + hl) else none

/-- A frame built from a template and a payload after the UDP header (without FCS). -/
def tmplFrame (t body : Bytes) : Bytes :=
  let len := byteAt t 127
  match parseTemplate t with
  | none => slice t 0 len ++ body
  | some (ip, v6, udp) =>
    let f := slice t 0 len ++ body
    let n := f.length
    let f := patch f (udp + 4) (beBytes 2 (n - udp))
    if v6 then
      let f := patch (patch f (ip + 4) (beBytes 2 (n - ip - 40))) (udp + 6) (beBytes 2 0)
      patch f (udp + 6) (beBytes 2 (udp6Checksum (beAt f (ip + 8) 16) (beAt f (ip + 24) 16) (f.drop udp)))
    else
      let f := patch (patch (patch f (ip + 2) (beBytes 2 (n - ip))) (ip + 10) (beBytes 2 0)) (udp + 6) (beBytes 2 0)
      patch f (ip + 10) (beBytes 2 (inetChecksum (slice f ip (udp - ip))))

/-- The frame of an engine for a group: HFH version 2, payload header, payload. The flow sequence is a free value (log
entry 13). -/
def State.engFrame (s : State) (g op opSeq kind chunk code offset count sealCrc : Nat) (payload : Bytes) : Bytes × State :=
  let (seq, s) := s.draw
  let out := kind = 2 ∨ kind = 4 ∨ kind = 6
  let h : Hfh :=
    { version := 2, flags := 1, cls := s.grpB g F.BSN_GROUP_B_CLASS, domain := s.grpA g F.BSN_GROUP_A_DOMAIN,
      seq := seq.toNat % 2 ^ 32, group := g, op := op, chunk := chunk, format := if out then s.outFmt g else s.inFmt g }
  let p := beBytes 1 kind ++ beBytes 1 0x10 ++ beBytes 2 0xFFFF ++ beBytes 2 opSeq ++ beBytes 2 code ++ beBytes 4 offset ++
    beBytes 2 count ++ beBytes 2 0 ++ beBytes 4 sealCrc
  (tmplFrame (s.grpCopy g).template (h.bytes ++ p ++ payload), s)

/-- A frame of a group enters at the internal port of its engine's quadrant. -/
def State.engEmit (s : State) (g : Nat) (f : Bytes) (r : InnerRoute) : State :=
  s.emitInternal (g / 1024) (s.grpB g F.BSN_GROUP_B_CLASS) f r

/-- A frame leaves through MCAST. -/
def State.toMcast (s : State) (g : Nat) (f : Bytes) : State := s.engEmit g f (.mcast (s.grpA g F.BSN_GROUP_A_MCAST))

/-- A frame leaves to every peer spine. -/
def State.toPeers (s : State) (g : Nat) (f : Bytes) : State :=
  (s.membersWhere g (s.isPeer g)).foldl (fun s m => s.engEmit g f (.port (s.memberPort g m))) s

/-- A notice (0x04) or release (0x06) through MCAST and to every peer spine (spec/09 R266, R274). -/
def State.sendNotice (s : State) (g op opSeq kind code : Nat) : State :=
  let (f, s) := s.engFrame g op opSeq kind 0 code 0 0 0 []
  (s.toMcast g f).toPeers g f

/-- An abort notice on one port alone (spec/09 R274, step 5). -/
def State.answerNotice (s : State) (g op opSeq code port : Nat) : State :=
  let (f, s) := s.engFrame g op opSeq 4 0 code 0 0 0 []
  s.engEmit g f (.port port)

/-- Elements of one frame of a format: whole runs of 32 within 8,192 bytes (log entry 14). -/
def frameElems (f : Nat) : Nat := max 1 (8192 / max 1 (fmtBytes32 f)) * 32

/-- Elements of a chunk from an offset leave in frames of a kind: each goes where `dest` sends it. -/
def State.sendElems (s : State) (g op opSeq kind chunk f sealCrc offset n : Nat) (data : Bytes)
    (dest : State → Bytes → State) : State :=
  let per := frameElems f
  (List.range (ceilDiv n per)).foldl (fun s k =>
    let c := min per (n - k * per)
    let b32 := fmtBytes32 f
    let (fr, s) := s.engFrame g op opSeq kind chunk 0 (offset + k * per) c sealCrc
      (slice data (k * per * b32 / 32) (c * b32 / 32))
    dest s fr) s

/-- A retransmit request to a member for a range of a chunk; COUNT holds at most 65,504 (log entry 14). -/
def State.requestGap (s : State) (e sl chunk m from_ : Nat) : State :=
  let x := s.slot e sl
  let (f, s) := s.engFrame x.group x.op x.opSeq 3 chunk 0 from_ (min (x.elems - from_) 65504) 0 []
  (s.engEmit x.group f (.port (s.memberPort x.group m))).count (ctrBsn e 4)

/-! ## Retention (spec/09 R269) -/

/-- Whole 4 KiB units that a retained chunk takes. -/
def Retained.units (x : Retained) : Nat := max 1 (ceilDiv x.bytes 4096)

/-- Units in use in an engine's retention region. -/
def State.retainUsed (s : State) (e : Nat) : Nat :=
  ((s.bsn.retained.filter fun x => x.e == e).map Retained.units).foldl (· + ·) 0

/-- The first address of the region with room for n units, at or above an address: past every chunk in the way. -/
def State.retainFit (s : State) (e n : Nat) : Option Nat :=
  let base := s.fld (R.BSN_RETAIN_BASE e) F.BSN_RETAIN_BASE_ADDR
  let top := base + s.fld (R.BSN_RETAIN_SIZE e) F.BSN_RETAIN_SIZE_SIZE * 2 ^ 21
  let l := s.bsn.retained.filter fun x => x.e == e
  (base :: l.map fun x => x.addr + 4096 * x.units).find? fun a =>
    decide (a + 4096 * n ≤ top) && l.all fun x => decide (a + 4096 * n ≤ x.addr) || decide (x.addr + 4096 * x.units ≤ a)

/-- The retained copy of a chunk. -/
def State.retained? (s : State) (e g seq chunk : Nat) : Option Retained :=
  s.bsn.retained.find? fun x => x.e == e && x.group == g && x.opSeq == seq && x.chunk == chunk

/-- Retained chunks of an operation are released. -/
def State.releaseOp (s : State) (e g seq : Nat) : State :=
  { s with bsn.retained := s.bsn.retained.filter fun x => !(x.e == e && x.group == g && x.opSeq == seq) }

/-- A chunk is sealed, retained and sent: none while the region has no room (spec/09 R268, R269). The retained bytes are those of the
sealed payload, each element big-endian as on the fabric (log entry 78). -/
def State.emitChunk (s : State) (e sl chunk : Nat) (payload : Bytes) : Option State :=
  let x := s.slot e sl
  let g := x.group
  let r : Retained := ⟨e, g, x.opSeq, chunk, payload.length, crc32c payload, 0⟩
  match s.retainFit e r.units with
  | none => none
  | some a =>
    let s := (s.devWrite a payload)
    let s := { s with bsn.retained := s.bsn.retained ++ [{ r with addr := a }] }
    let s := s.setSlot e sl (x.setChunk chunk { x.chunk chunk with phase := .emitted })
    let s := s.wr (R.BSN_SLOT e sl) (slotWord (s.slotSt e sl) g x.opSeq (s.slotCode e sl) (s.slotEmitted e sl + 1))
    let f := s.outFmt g
    let dest (s : State) (fr : Bytes) : State :=
      let s := s.count (ctrBsn e 6)
      if x.op = 2 then s.engEmit g fr (.port (s.memberPort g (chunk % max 1 (s.members g).length))) else s.toMcast g fr
    some (s.sendElems g x.op x.opSeq 2 chunk f r.sealCrc 0 (payload.length * 32 / max 1 (fmtBytes32 f)) payload dest)

/-! ## Outcome records (spec/09 R275) -/

/-- Chunks whose WRITE_MAP entry has a value. -/
def Slot.mapCount (x : Slot) (v : Nat) : Nat := (x.chunks.filter fun c => c.2.writeMap == v).length

/-- WRITE_MAP of a record: one byte for four chunks. -/
def Slot.writeMapBytes (x : Slot) : Bytes :=
  (List.range (ceilDiv (min 65536 x.nChunks) 4)).map fun i =>
    BitVec.ofNat 8 ((List.range 4).foldl (fun a k => a + (x.chunk (4 * i + k)).writeMap * 4 ^ k) 0)

/-- The outcome record of a slot with a code (spec/09 Table 9.10). -/
def State.outcomeBytes (s : State) (e sl code : Nat) : Bytes :=
  let x := s.slot e sl
  let w := x.mapCount 1
  let u := x.mapCount 2
  leBytes 2 code ++ leBytes 2 x.origin ++ leBytes 2 x.opSeq ++ leBytes 2 x.group ++ leBytes 4 (s.slotEmitted e sl) ++
    (if x.op = 4 then leBytes 4 w ++ leBytes 4 u else leBytes 8 0) ++
    leBytes 1 (b2n (code != 0 && x.op == 4 && (w != 0 || u != 0))) ++ leBytes 1 x.detail ++ leBytes 2 0 ++
    leBytes 8 x.generation ++ leBytes 4 s.nowNano ++ leBytes 4 (s.nowSec % 2 ^ 32) ++ leBytes 24 0 ++
    (if x.op = 4 then x.writeMapBytes else [])

/-- A record is written at an OUTCOME_ADDR that check 0x09 accepts; 0 asks for none. -/
def State.writeOutcome (s : State) (addr : Nat) (b : Bytes) : State :=
  if addr = 0 ∨ addr % 64 ≠ 0 ∨ s.installed addr b.length = false then s else s.devWrite addr b

/-- Frames held early for a slot are given up. -/
def State.dropEarly (s : State) (e sl : Nat) : State :=
  let x := s.slot e sl
  x.early.foldl (fun s f => s.release f.stored) (s.setSlot e sl { x with early := [], dropped := [] })

/-- A slot becomes free. -/
def State.freeSlot (s : State) (e sl : Nat) : State := ((s.dropEarly e sl).setSlot e sl {}).wr (R.BSN_SLOT e sl) 0

/-! ## Aborts (spec/09 R272 to R280, spec/10 R301, R302) -/

/-- Whether a long operation is a collective instruction. -/
def LongKind.isColl : LongKind → Bool
  | .cacc .. | .cemit .. | .cgath .. | .capply .. | .cbar .. | .cring .. => true
  | _ => false

/-- The ABORTS counter of a code (spec/09 Table 9.22). -/
def State.countAbort (s : State) (e code : Nat) : State :=
  if 1 ≤ code ∧ code ≤ 12 then s.count (ctrBsn e (7 + code)) else if 0x8000 ≤ code then s.count (ctrBsn e 20) else s

/-- A channel. -/
def State.channel (s : State) (e ch : Nat) : Channel := sget {} s.ten.channels (16 * e + ch)
/-- A channel takes a value. -/
def State.setChannel (s : State) (e ch : Nat) (x : Channel) : State :=
  { s with ten.channels := sset {} s.ten.channels (16 * e + ch) x }

/-- The truss of a channel. -/
def State.chanTruss (s : State) (e ch : Nat) : Option Truss := (s.channel e ch).truss.map fun n => sget {} s.ten.trusses n

/-- The engine's end of a channel takes tiles of handed chunks while its buffer of two has room; fuel is the buffer. -/
def Channel.fill : Nat → Channel → Channel
  | 0, y => y
  | n + 1, y =>
    if 2 ≤ y.inbound.length then y
    else match y.handed.findIdx? fun h => !h.rest.isEmpty with
      | none => y
      | some i =>
        Channel.fill n { y with inbound := y.inbound ++ ((y.handed[i]?.map Handoff.rest).getD []).take 1
                                handed := y.handed.modify i fun h => { h with rest := h.rest.drop 1 } }

/-- The engine cancels an aborting operation on a channel: the chunk it is handing is finished, others are handed no
more, and CANCEL_PEG counts (spec/10 R301). -/
def State.cancelOn (s : State) (e sl ch : Nat) : State :=
  let x := s.channel e ch
  let mine (h : Handoff) : Bool := h.slot == sl
  if x.handed.any mine = false then s
  else
    let begun (h : Handoff) : Bool := decide (h.rest.length < h.tiles)
    let left := (x.handed.filter fun h => !mine h || begun h).map fun h => if mine h then { h with dropped := true } else h
    let s := s.setChannel e ch { x with handed := left }
    match s.chanTruss e ch with
    | none => s
    | some t => s.addPeg (leAt t.descriptor 6 2) 1

/-- The abort notice of an operation, through MCAST and to every peer spine, where the engine has the group's template. -/
def State.abortNotice (s : State) (e : Nat) (x : Slot) (code : Nat) : State :=
  if s.grpActive x.group ∧ x.group / 512 = e then s.sendNotice x.group x.op x.opSeq 4 code else s

/-- BIND_HOST: the work item whose program started an operation, and has not ended, carries the first abort code registered. -/
def State.bindAbort (s : State) (x : Slot) (starter : Option Nat) (code : Nat) : State := match starter with
  | some i =>
    if x.bindHost then s.updItem i fun t =>
      if t.collective = none ∧ t.stage = .started then { t with collective := some code } else t
    else s
  | none => s

/-- Whether an abort is of a record whose OP_SEQ another operation has (check 0x06): what is kept of that one stays (log entry
15). -/
def sameOpSeq (code detail : Nat) : Bool := code == 9 && detail == 6

/-- An abort is registered at t0 (spec/09 Table 9.9, steps 1 to 3): STATE and CODE, collective instructions discarded, the
context leaves its wait and ends, the notice leaves, the code is kept to answer frames, BIND_HOST tells the starter's
descriptor. A later cause changes nothing. -/
def State.bsnAbort (s : State) (e sl code origin detail : Nat) : State :=
  if s.slotActive e sl = false then s
  else
    let x := s.slot e sl
    let c := bCtx e sl
    let s := s.wr (R.BSN_SLOT e sl) (slotWord 2 x.group x.opSeq code (s.slotEmitted e sl))
    let s := (s.setSlot e sl { x with origin := origin, detail := detail }).dropEarly e sl
    let s := { s with dxn.longOps := s.dxn.longOps.filter fun o => !(o.ctx == c && o.kind.isColl) }
    let k := s.ctx c
    let s := s.setCtx c { k with status := .stopping, wait := none, stalled := false, endIssued := true }
    let s := (s.countAbort e code).abortNotice e x code
    let s := if sameOpSeq code detail then s
      else s.rememberEnded { e := e, group := x.group, opSeq := x.opSeq, code := code, slot := sl, record := x.record, outcome := [] }
    let s := s.bindAbort x x.starter code
    (List.range 16).foldl (fun s ch => s.cancelOn e sl ch) s

/-- Whether handed chunks of an aborting slot still await their reports. -/
def State.unreported (s : State) (e sl : Nat) : Bool :=
  (List.range 16).any fun ch => (s.channel e ch).handed.any fun h => h.slot == sl

/-- The end of an abort (spec/09 Table 9.9, steps 4 and 5). ABORT_PEG is left alone where check 0x07 would refuse it. -/
def State.bsnAbortEnd (s : State) (e sl : Nat) : State :=
  let x := s.slot e sl
  let code := s.slotCode e sl
  let b := s.outcomeBytes e sl code
  let s := s.writeOutcome x.outcomeAddr b
  let s := if s.ctxPegOk (bCtx e sl) x.abortPeg then s.addPeg x.abortPeg 1 else s
  let s := if x.notify then s.raise 6 else s
  let s := s.bsnLog e 1 x.group x.opSeq code x.origin sl
  let s := if sameOpSeq code x.detail then s else s.releaseOp e x.group x.opSeq
  s.setSlot e sl { x with closed := true }

/-- A slot becomes free, and what a late abort of its operation needs is remembered: retained chunks outlive it (spec/09 R256). -/
def State.leaveSlot (s : State) (e sl : Nat) (b : Bytes) : State :=
  let x := s.slot e sl
  let s := s.rememberEnded
    { e := e, group := x.group, opSeq := x.opSeq, code := 0, slot := sl, record := x.record, outcome := b,
      emitted := (x.chunks.filter fun c => c.2.phase == .emitted).map Prod.fst, starter := x.starter }
  s.freeSlot e sl

/-- The end of an operation at END (spec/09 R275): the record, then DONE_PEG, then vector 6. -/
def State.bsnEnd (s : State) (e sl : Nat) : State :=
  let x := s.slot e sl
  let b := s.outcomeBytes e sl 0
  let s := (s.writeOutcome x.outcomeAddr b).addPeg x.donePeg 1
  let s := if x.notify then s.raise 6 else s
  s.leaveSlot e sl b

/-- A late abort (spec/09 R275): the record rewritten with LATE, ABORT_PEG, the log, the notice, the chunks released, and the
starter's descriptor while its program has not ended. -/
def State.bsnLate (s : State) (o : EndedOp) (code : Nat) : State :=
  if o.code ≠ 0 then s
  else
    let x : Slot := { record := o.record }
    let void := leAt o.outcome 12 8 != 0
    let b := patch (patch (patch o.outcome 0 (leBytes 2 code ++ leBytes 2 0xFFFF)) 20 (leBytes 1 (2 + b2n void))) 32
      (leBytes 4 s.nowNano ++ leBytes 4 (s.nowSec % 2 ^ 32))
    let s := (s.writeOutcome x.outcomeAddr b).addPeg x.abortPeg 1
    let s := s.bsnLog o.e 2 o.group o.opSeq code 0xFFFF o.slot
    let s := ((s.countAbort o.e code).abortNotice o.e x code).bindAbort x o.starter code
    let s := s.releaseOp o.e o.group o.opSeq
    s.rememberEnded { o with code := code, outcome := b }

/-- A truss with Basin ends becomes faulted, and every operation with a chunk handed on its channel aborts with
APPLY_FAILED (spec/10 R302). -/
def State.trussFault (s : State) (n : Nat) : State :=
  let off := R.TEN_TRUSS (n / 256) (n % 256)
  if s.fld off F.TEN_TRUSS_STATE = 1 ∧ s.fld off F.TEN_TRUSS_HEAD = 1 then
    let e := 2 * (n / 256) + s.fld off F.TEN_TRUSS_ENGINE
    let s := s.setFld off F.TEN_TRUSS_STATE 2
    ((s.channel e (s.fld off F.TEN_TRUSS_CHANNEL)).handed.map Handoff.slot).foldl
      (fun s sl => s.bsnAbort e sl 0xB 0xFFFF 0) s
  else s

/-- Every active operation of every group with a member on a port aborts with MEMBER_FENCED (spec/09 R276). -/
def State.fenceMembers (s : State) (p : Nat) : State :=
  (s.bsn.slots.map Prod.fst).foldl (fun s k =>
    let e := k / 1024
    let sl := k % 1024
    let g := (s.slot e sl).group
    match (s.membersWhere g fun m => s.memberPort g m == p) with
    | [] => s
    | m :: _ => s.bsnAbort e sl 2 m 0) s

/-- Every active operation of an engine that meets a condition aborts. -/
def State.abortWhere (s : State) (e code : Nat) (p : Slot → Bool) : State :=
  (s.slotsOf e).foldl (fun s sl => if p (s.slot e sl) then s.bsnAbort e sl code 0xFFFF 0 else s) s

end Sys2Proof.Machine
end

