-- ==== Sys2Proof/Machine/Dxn.lean ====
section
/-! DEFINITION. Issuing a Daxran instruction: which encodings are legal (spec/04 R123, R126 to R129; spec/05 R136 to R142),
exceptions (spec/04 R123 to R125), long operations (R99 to R103), and how a context ends (R102). -/

namespace Sys2Proof.Machine

/-! ## Fields of an instruction word -/

/-- The opcode. -/
def wOp (w : Nat) : Nat := w / 2 ^ 56
/-- Destination of the K and I formats, data register of the M format. -/
def wD (w : Nat) : Nat := bitsOf w 55 51
/-- Source A; source S of the I format; base register of the M format. -/
def wA (w : Nat) : Nat := bitsOf w 50 46
/-- Source B. -/
def wB (w : Nat) : Nat := bitsOf w 45 41
/-- Source C. -/
def wC (w : Nat) : Nat := bitsOf w 40 36
/-- Type of the K format. -/
def wT (w : Nat) : Nat := bitsOf w 35 32
/-- Modifier of the K format: 8 bits, SR the highest, SAT the next. -/
def wM (w : Nat) : Nat := bitsOf w 31 24
/-- Type of the I format; space of the M format. -/
def iT (w : Nat) : Nat := bitsOf w 45 42
/-- Modifier of the I format: 10 bits, SR the highest, SAT the next. -/
def iM (w : Nat) : Nat := bitsOf w 41 32
/-- Immediate of the I and P formats, offset of the J format. -/
def iImm (w : Nat) : Nat := w % 2 ^ 32
/-- Width code of the M format. -/
def mWidth (w : Nat) : Nat := bitsOf w 41 40
/-- Count of the M format. -/
def mCount (w : Nat) : Nat := bitsOf w 39 24
/-- Offset of the M format. -/
def mOff (w : Nat) : Nat := w % 2 ^ 24
/-- Peg operation. -/
def pOp (w : Nat) : Nat := bitsOf w 55 52
/-- Peg number. -/
def pPeg (w : Nat) : Nat := bitsOf w 51 36
/-- Scope. -/
def pScope (w : Nat) : Nat := bitsOf w 35 32
/-- SR of the K format. -/
def wSR (w : Nat) : Bool := bitOf (wM w) 7
/-- SAT of the K format. -/
def wSAT (w : Nat) : Bool := bitOf (wM w) 6
/-- Sign extension of the 32-bit immediate. -/
def sextImm (w : Nat) : Int := signedOf 32 (iImm w)

/-! ## Field rules -/

/-- What a register field names (spec/05 R136): nothing, a g register, a v or t register of 16, a predicate of 8, or an
accumulator, stream port or far target of 4. -/
inductive Use where
  | zero | g | vt | p | two
  deriving DecidableEq, Repr

/-- Whether a field value is one its use allows. -/
def Use.ok (u : Use) (n : Nat) : Bool := match u with
  | .zero => n == 0
  | .g => true
  | .vt => decide (n < 16)
  | .p => decide (n < 8)
  | .two => decide (n < 4)

/-- Integer types INT8, INT32, INT64. -/
def tyIsInt (t : Nat) : Bool := decide (t < 3)
/-- Types of the scalar group. -/
def tyScalar : List Nat := [1, 2, 5, 6]
/-- Types of the vector group. -/
def tyVector : List Nat := [0, 1, 3, 4, 5]
/-- MX types. -/
def tyMx (t : Nat) : Bool := decide (7 ≤ t) && decide (t ≤ 11)
/-- Types of the tile and matrix group. -/
def tyTile : List Nat := [0, 3, 4, 5, 7, 8, 9, 10, 11]
/-- Types of the tile instructions that do not multiply or reach an accumulator: E8M0 scales too (spec/04 Table 4.8; log entry 80). -/
def tyScaled : List Nat := tyTile ++ [12]

/-- A row of the K-format instructions: register fields, types, modifier bits an instruction defines. -/
structure KRule where
  d : Use := .zero
  a : Use := .zero
  b : Use := .zero
  c : Use := .zero
  types : List Nat := [0]
  mods : Nat := 0
  deriving DecidableEq, Repr

/-- The K-format instructions (spec/05 Tables 5.2 to 5.16). SAT of the scalar instructions stands for integer types alone. -/
def kRule : Nat → Option KRule
  | 0x01 | 0x02 | 0x03 | 0x05 => some ⟨.g, .g, .g, .zero, tyScalar, 0x40⟩
  | 0x04 => some ⟨.g, .g, .g, .zero, [1, 2], 0x01⟩
  | 0x06 => some ⟨.g, .g, .g, .zero, [1, 2], 0⟩
  | 0x07 | 0x08 => some ⟨.g, .g, .g, .zero, tyScalar, 0⟩
  | 0x09 | 0x0A | 0x0B => some ⟨.g, .g, .g, .zero, [0], 0⟩
  | 0x0C | 0x0D | 0x0E => some ⟨.g, .g, .g, .zero, [1, 2], 0⟩
  | 0x0F => some ⟨.g, .g, .g, .g, [5, 6], 0⟩
  | 0x10 => some ⟨.p, .g, .g, .zero, tyScalar, 0x07⟩
  | 0x11 => some ⟨.g, .g, .g, .p, [0], 0⟩
  | 0x12 => some ⟨.g, .g, .zero, .zero, tyScalar, 0x4F⟩
  | 0x1D => some ⟨.p, .p, .p, .zero, [0], 0x03⟩
  | 0x20 | 0x21 | 0x22 | 0x24 | 0x25 => some ⟨.vt, .vt, .vt, .zero, tyVector, 0xC0⟩
  | 0x23 => some ⟨.vt, .vt, .vt, .vt, [3, 4, 5], 0xC0⟩
  | 0x26 => some ⟨.vt, .vt, .vt, .zero, [3, 4, 5], 0xC0⟩
  | 0x27 => some ⟨.vt, .vt, .zero, .zero, [3, 4, 5], 0xC0⟩
  | 0x28 | 0x29 | 0x2A => some ⟨.vt, .vt, .vt, .zero, [0], 0xC0⟩
  | 0x2B | 0x2C | 0x2D => some ⟨.vt, .vt, .vt, .zero, [0, 1], 0xC0⟩
  | 0x2E => some ⟨.vt, .vt, .vt, .zero, tyVector, 0xC7⟩
  | 0x2F => some ⟨.vt, .vt, .vt, .vt, tyVector, 0xC0⟩
  | 0x30 => some ⟨.vt, .vt, .zero, .zero, tyVector, 0xFF⟩
  | 0x31 => some ⟨.vt, .g, .zero, .zero, tyVector, 0xC0⟩
  | 0x32 => some ⟨.g, .vt, .g, .zero, tyVector, 0xC0⟩
  | 0x33 => some ⟨.vt, .g, .g, .zero, tyVector, 0xC0⟩
  | 0x34 => some ⟨.g, .vt, .zero, .zero, [1, 5], 0xC3⟩
  | 0x35 => some ⟨.vt, .zero, .zero, .zero, [0], 0xC0⟩
  | 0x40 => some ⟨.two, .vt, .vt, .zero, tyTile, 0xDF⟩
  | 0x41 => some ⟨.two, .zero, .zero, .zero, [0], 0⟩
  | 0x42 => some ⟨.two, .vt, .zero, .zero, tyTile, 0⟩
  | 0x43 => some ⟨.vt, .two, .zero, .zero, tyTile, 0xC0⟩
  | 0x44 => some ⟨.vt, .vt, .g, .zero, tyScaled, 0⟩
  | 0x45 => some ⟨.vt, .vt, .g, .zero, tyScaled, 0⟩
  | 0x46 => some ⟨.vt, .two, .g, .zero, [0], 0⟩
  | 0x47 => some ⟨.two, .vt, .g, .zero, [0], 0⟩
  | 0x48 => some ⟨.vt, .vt, .zero, .zero, [0, 3, 4, 5], 0⟩
  | 0x49 => some ⟨.vt, .vt, .zero, .zero, tyScaled, 0xCF⟩
  | 0x4A => some ⟨.vt, .zero, .zero, .zero, [0], 0⟩
  | 0x4B => some ⟨.vt, .g, .g, .g, tyTile, 0⟩
  | 0x60 => some ⟨.two, .vt, .zero, .zero, [0], 0⟩
  | 0x61 => some ⟨.vt, .two, .zero, .zero, [0], 0⟩
  | 0x64 => some ⟨.p, .two, .zero, .zero, [0], 0⟩
  | 0x72 => some ⟨.two, .g, .zero, .zero, [0], 0⟩
  | 0x73 | 0xA3 | 0xF0 => some ⟨.zero, .zero, .zero, .zero, [0], 0⟩
  | 0x88 => some ⟨.zero, .g, .g, .g, [0], 0x3F⟩
  | 0x89 => some ⟨.zero, .g, .g, .g, [0], 0x38⟩
  | 0x8A => some ⟨.zero, .g, .g, .g, [0], 0x0F⟩
  | 0x8B => some ⟨.zero, .g, .g, .g, [0], 0x07⟩
  | 0xA1 => some ⟨.zero, .g, .zero, .zero, [0], 0x01⟩
  | 0xB0 | 0xB1 => some ⟨.zero, .g, .g, .zero, [0], 0⟩
  | 0xB2 | 0xB4 | 0xB5 => some ⟨.zero, .zero, .g, .zero, [0], 0⟩
  | 0xB3 => some ⟨.zero, .g, .g, .g, [0], 0⟩
  | 0xB6 => some ⟨.zero, .g, .zero, .zero, [0], 0⟩
  | 0xB7 | 0xF4 | 0xF5 | 0xF6 | 0xF7 => some ⟨.g, .zero, .zero, .zero, [0], 0⟩
  | 0xC0 | 0xC1 | 0xC8 => some ⟨.g, .g, .g, .g, [0], 0⟩
  | 0xC2 | 0xC3 | 0xC4 | 0xC5 | 0xC6 | 0xC7 => some ⟨.g, .g, .zero, .zero, [0], 0⟩
  | 0xC9 => some ⟨.g, .zero, .g, .zero, [0], 0⟩
  | 0xF2 => some ⟨.g, .zero, .zero, .zero, [0], 0x01⟩
  | 0xF3 => some ⟨.zero, .g, .g, .g, [0], 0⟩
  | _ => none

/-- Conditions of Table 5.3 (spec/05) defined for integer or floating types. -/
def condOk (int : Bool) (c : Nat) : Bool := if int then decide (c < 6) else decide (c < 4) || c == 6

/-- Elements of a v register of a type (spec/05 R143). -/
def vCount (t : Nat) : Nat := if t = 0 then 256 else if t = 3 ∨ t = 4 then 128 else 64

/-- PMOV's fields follow its direction: modifier bit 24. -/
def pmovOk (w : Nat) : Bool :=
  decide (wM w < 2) && wB w == 0 && wC w == 0 && wT w == 0 &&
    (if wM w = 0 then Use.ok .p (wA w) else Use.ok .p (wD w))

/-- Rules of the K format beyond the fields' uses (spec/05 Tables 5.2 to 5.9). -/
def kExtra (w : Nat) : Bool :=
  let t := wT w
  let m := wM w
  match wOp w with
  | 0x01 | 0x02 | 0x03 | 0x05 => !wSAT w || tyIsInt t
  | 0x10 => condOk (tyIsInt t) (m % 8)
  | 0x12 => tyScalar.contains (m % 16) && (!wSAT w || (tyIsInt t && tyIsInt (m % 16) && t != m % 16))
  | 0x2E => condOk (tyIsInt t) (m % 8)
  | 0x30 => tyVector.contains (m % 16) &&
      decide (m / 16 % 4 < max (vCount t) (vCount (m % 16)) / min (vCount t) (vCount (m % 16)))
  | 0x34 => decide (m % 4 < 3)
  | 0x40 => let b := if m % 16 = 0 then t else m % 16
      (tyMx t && tyMx b) || (t == b && !tyMx t)
  | 0x49 => tyScaled.contains (m % 16)
  | 0x88 => decide (m % 8 < 6) && decide (m / 8 % 8 < 6)
  | 0x89 => decide (m / 8 % 8 < 6)
  | 0x8A | 0x8B => decide (m % 8 < 6)
  | _ => true

/-- A row of the I-format instructions. -/
structure IRule where
  d : Use
  s : Use
  types : List Nat := [0]
  mods : Nat := 0
  deriving DecidableEq, Repr

/-- The I-format instructions. -/
def iRule : Nat → Option IRule
  | 0x13 => some ⟨.g, .zero, [0], 0⟩
  | 0x14 | 0x16 | 0x17 | 0x18 => some ⟨.g, .g, [0], 0⟩
  | 0x15 => some ⟨.g, .g, [1, 2], 0x100⟩
  | 0x19 | 0x1A | 0x1B => some ⟨.g, .g, [1, 2], 0⟩
  | 0x1C => some ⟨.p, .g, [1, 2], 0x007⟩
  | 0x71 => some ⟨.zero, .zero, [0], 0x001⟩
  | 0x74 => some ⟨.g, .zero, [0], 0⟩
  | 0xA2 => some ⟨.g, .zero, [0], 0⟩
  | 0xF1 => some ⟨.zero, .zero, [0], 0⟩
  | _ => none

/-- Rules of the I format beyond the fields' uses. -/
def iExtra (w : Nat) : Bool := match wOp w with
  | 0x19 | 0x1A | 0x1B => decide (iImm w < 64)
  | 0x1C => condOk true (iM w % 8)
  | 0x71 => decide (iImm w < 65536) && (iM w == 1 || iImm w == 0)
  | 0x74 => decide (iImm w < 65536)
  | _ => true

/-- The field rules of an M-format instruction (spec/04 Table 4.12, spec/05 Tables 5.7 and 5.9). -/
def mOk (w : Nat) : Bool :=
  decide (iT w < 6) && (match wOp w with
    | 0x80 | 0x81 | 0x82 => mCount w == 1
    | 0x83 | 0x84 => decide (wD w < 16) && mWidth w == 2 && decide (1 ≤ mCount w) && decide (mCount w ≤ 64)
    | 0x85 | 0x86 => decide (wD w < 16) && mWidth w == 3 && mCount w == 512
    | _ => decide (wD w < 4) && mWidth w == 3 && mCount w == 512)

/-- The field rules of PEG (spec/04 R110, R111). -/
def pegFieldsOk (w : Nat) : Bool :=
  let sc := pScope w
  let far := decide (8 ≤ sc)
  decide (pOp w < 5) && (sc == 0 || sc == 4 || far) &&
    !(sc / 4 % 2 == 1 && decide (32 ≤ iImm w)) && !(far && decide (2 ≤ pOp w)) && !(pOp w == 4 && pPeg w != 0)

/-- The field rules of BR (spec/04 Table 4.14). -/
def brOk (w : Nat) : Bool :=
  let cond := bitsOf w 55 52
  let p := bitsOf w 51 48
  decide (cond < 4) && decide (p < 8) && bitsOf w 47 32 == 0 && (cond == 1 || cond == 2 || p == 0)

/-- Whether an instruction keeps the field rules of its entry; SR in a profile other than T breaks them (spec/04 R120,
R126, R127). -/
def fieldsOk (profile w : Nat) : Bool :=
  let op := wOp w
  if op = 0x70 then pegFieldsOk w
  else if op = 0xA0 then brOk w
  else if op = 0x1E then pmovOk w && decide (w % 2 ^ 24 = 0)
  else if op = 0x62 ∨ op = 0x63 ∨ (0x80 ≤ op ∧ op ≤ 0x86) then mOk w
  else match kRule op with
    | some r =>
      r.d.ok (wD w) && r.a.ok (wA w) && r.b.ok (wB w) && r.c.ok (wC w) && r.types.contains (wT w) &&
        (wM w &&& r.mods == wM w) && w % 2 ^ 24 == 0 && kExtra w && (!wSR w || profile == 1)
    | none => match iRule op with
      | some r => r.d.ok (wD w) && r.s.ok (wA w) && r.types.contains (iT w) && (iM w &&& r.mods == iM w) && iExtra w
      | none => false

/-- Whether an opcode is assigned at version 2.1 (spec/05 Table 5.1). -/
def assigned (op : Nat) : Bool :=
  (decide (0x01 ≤ op) && decide (op ≤ 0x1E)) || (decide (0x20 ≤ op) && decide (op ≤ 0x35)) ||
    (decide (0x40 ≤ op) && decide (op ≤ 0x4B)) || (decide (0x60 ≤ op) && decide (op ≤ 0x64)) ||
    (decide (0x70 ≤ op) && decide (op ≤ 0x74)) || (decide (0x80 ≤ op) && decide (op ≤ 0x86)) ||
    (decide (0x88 ≤ op) && decide (op ≤ 0x8B)) || (decide (0xA0 ≤ op) && decide (op ≤ 0xA3)) ||
    (decide (0xB0 ≤ op) && decide (op ≤ 0xB7)) || (decide (0xC0 ≤ op) && decide (op ≤ 0xC9)) ||
    (decide (0xF0 ≤ op) && decide (op ≤ 0xF7))

/-- Opcodes of shared groups that a profile lacks (spec/05 R141). -/
def missing (profile op : Nat) : Bool :=
  (decide (0x83 ≤ op) && decide (op ≤ 0x86) && profile != 1) || ((op == 0x8A || op == 0x8B) && profile != 3) ||
    (op == 0xF3 && profile != 1)

/-- Whether a profile has an opcode's group (spec/04 Table 4.15). -/
def groupIn (profile op : Nat) : Bool :=
  if 0x20 ≤ op ∧ op < 0x70 then profile == 1
  else if 0xB0 ≤ op ∧ op < 0xC0 then profile == 2
  else if 0xC0 ≤ op ∧ op < 0xD0 then profile == 3
  else true

/-- The version that introduced what an instruction uses, as major × 16 + minor (spec/05 R138; spec/04 Table 4.17). -/
def sinceOf (w : Nat) : Nat :=
  let op := wOp w
  let base :=
    if (0x60 ≤ op ∧ op ≤ 0x64) ∨ (0xB0 ≤ op ∧ op ≤ 0xB7) ∨ op = 0x4B ∨ op = 0x72 ∨ op = 0xC1 ∨ op = 0xC2 ∨ op = 0xC3 ∨
      op = 0xF7 then 0x20
    else if op = 0x35 ∨ op = 0xF3 then 0x21 else 0x10
  if op = 0x70 then
    if pScope w / 4 % 2 = 1 then 0x21 else if 8 ≤ pScope w then 0x20
    else if pOp w = 4 ∧ bitOf (iImm w) 31 then 0x11 else 0x10
  else
    let ty (t : Nat) : Nat := if op < 0x20 ∧ (t = 2 ∨ t = 6) then 0x21 else if t = 9 ∨ t = 10 then 0x11 else 0x10
    let t := match iRule op with
      | some _ => ty (iT w)
      | none => if kRule op = none then 0x10
        else max (ty (wT w)) (if op = 0x12 ∨ op = 0x40 ∨ op = 0x49 then ty (wM w % 16) else 0x10)
    let sr := if (kRule op).isSome && wSR w then 0x21 else 0x10
    max base (max t sr)

/-! ## How a context ends (spec/04 R102, R132; spec/09 R256, R275) -/

/-- Entries that CACHE_FLUSH marked leave when their last context has ended (spec/04 R132). -/
def State.dropFlushed (s : State) : State :=
  let used (i : ImageEntry) : Bool := s.dxn.ctxs.any fun x => x.2.image == some (i.image, i.headerCrc)
  { s with dxn.images := s.dxn.images.filter fun i => !i.flushed || used i }

/-- A context ends: a C context's descriptor is done, a B context's operation and slot end. -/
def State.endCtx (s : State) (c : Ctx) : State :=
  let x := s.ctx c
  match c with
  | .c _ =>
    let s := (s.setCtx c {}).dropFlushed
    match x.item with
    | none => s
    | some i => match s.item? i with
      | none => s
      | some t =>
        match t.collective with
        | some k => if t.status ≤ 1 then s.itemDone i 0xA k (x.reg 1) else s.itemDone i t.status t.detail (x.reg 1)
        | none => s.itemDone i t.status t.detail (x.reg 1)
  | .b e sl =>
    if s.slotSt e sl = 2 then
      if (s.slot e sl).closed then ((s.setCtx c {}).freeSlot e sl).dropFlushed else s
    else
      let s := if x.endIssued then s.bsnEnd e sl else s.leaveSlot e sl (s.outcomeBytes e sl 0)
      (s.setCtx c {}).dropFlushed
  | .t _ _ _ _ => (s.setCtx c {}).dropFlushed

/-- Whether a context is past its abort: a B context of an aborting slot. -/
def State.aborted (s : State) (c : Ctx) : Bool := match c with
  | .b e sl => s.slotSt e sl == 2
  | _ => false

/-- A context that stopped by an exception or an abort ends once no long operation of it is outstanding; one that issued
END ends by CONTEXT_END. -/
def State.tryEnd (s : State) (c : Ctx) : State :=
  if (s.ctx c).status = .stopping ∧ (s.opsOf c).isEmpty ∧ ((s.ctx c).endIssued = false ∨ s.aborted c) then s.endCtx c
  else s

/-- A context issues END, or is ended as END would (spec/04 R102, spec/10 R293): it issues nothing more, and ends at once
when no long operation of it is outstanding. -/
def State.endAsEnd (s : State) (c : Ctx) : State :=
  let x := s.ctx c
  let s := s.setCtx c { x with status := .stopping, wait := none, stalled := false, endIssued := true }
  if (s.opsOf c).isEmpty then s.endCtx c
  else match c with
    | .b e sl =>
      let y := s.slot e sl
      if s.slotSt e sl = 1 then
        s.wr (R.BSN_SLOT e sl) (slotWord 3 y.group y.opSeq (s.slotCode e sl) (s.slotEmitted e sl))
      else s
    | _ => s

/-! ## Exceptions (spec/04 R123 to R125) -/

/-- The truss of a tenon context, when its tenon is a stage of one. -/
def State.trussOf (s : State) (c : Ctx) : Option Nat := match c with
  | .t q row col _ =>
    let off := R.TEN_TENON q row col
    if s.flag off F.TEN_TENON_IN_TRUSS then some (256 * q + s.fld off F.TEN_TENON_TRUSS) else none
  | _ => none

/-- Whether a context can still take an exception: it runs or waits, or has issued END and only waits for its long
operations; not after a fault or an abort. -/
def State.canFault (s : State) (c : Ctx) : Bool :=
  let x := s.ctx c
  match x.status with
  | .running | .waiting => true
  | .stopping => x.endIssued && !s.aborted c
  | _ => false

/-- An exception: logged; the context stops, and ends when no long operation of it is outstanding. -/
def State.except (s : State) (c : Ctx) (code index : Nat) (info : Word) : State :=
  if s.canFault c = false then s
  else
    let x := s.ctx c
    let s := s.faultLog code (profileOf c) x.domain index (whoOf c) info
    let s := s.setCtx c { x with status := .stopping, wait := none, stalled := false, endIssued := false }
    let s := match x.item with
      | some i => s.updItem i fun t => { t with status := 1, detail := code + 256 * index }
      | none => s
    let s := if profileOf c = 3 then s else s.addPeg x.faultPeg.toNat 1
    let s := if profileOf c = 1 then s.count (ctrTenon (tenonOf c) 3) else s
    let s := match s.trussOf c with
      | some n => s.trussFault n
      | none => s
    s.tryEnd c

/-- An uncorrectable or poisoned read: MEMORY in a T or B context, MEMORY_ERROR with a detail in a C context. -/
def State.memFail (s : State) (c : Ctx) (detail index : Nat) : State :=
  if profileOf c ≠ 3 then s.except c 0x10 index 0
  else if s.canFault c = false then s
  else
    let x := s.ctx c
    let s := s.setCtx c { x with status := .stopping, wait := none, stalled := false, endIssued := false }
    let s := match x.item with
      | some i => s.updItem i fun t => { t with status := 8, detail := detail }
      | none => s
    s.tryEnd c

/-! ## Long operations (spec/04 R99 to R103) -/

/-- A long operation is issued: it takes the binding in force and locks its destination. -/
def State.addLong (s : State) (c : Ctx) (kind : LongKind) (locks : List Lock) : State :=
  let x := s.ctx c
  let o : LongOp := { id := s.dxn.nextOp, ctx := c, index := x.pc, kind := kind, locks := locks,
                      peg := if x.bindOn then some x.bindPeg else none }
  { s with dxn.longOps := s.dxn.longOps ++ [o], dxn.nextOp := s.dxn.nextOp + 1 }

/-- A long operation by its number. -/
def State.longOp? (s : State) (i : Nat) : Option LongOp := s.dxn.longOps.find? fun o => o.id == i

/-- A long operation is outstanding no more. -/
def State.dropLong (s : State) (i : Nat) : State := { s with dxn.longOps := s.dxn.longOps.filter fun o => o.id != i }

/-- A change of one long operation. -/
def State.updLong (s : State) (i : Nat) (f : LongOp → LongOp) : State :=
  { s with dxn.longOps := s.dxn.longOps.map fun o => if o.id = i then f o else o }

/-- A long operation completes: its locks clear, its bound peg gains 1, and a context that waited for it may end. -/
def State.completeLong (s : State) (o : LongOp) : State :=
  let s := s.dropLong o.id
  let s := match o.peg with
    | some p => s.addPeg p.toNat 1
    | none => s
  s.tryEnd o.ctx

/-- A long operation fails with an exception: nothing is added to its peg. -/
def State.failLong (s : State) (o : LongOp) (code : Nat) (info : Word) : State :=
  ((s.dropLong o.id).except o.ctx code o.index info).tryEnd o.ctx

/-- A long operation fails on uncorrectable or poisoned data. -/
def State.failLongMem (s : State) (o : LongOp) : State :=
  ((s.dropLong o.id).memFail o.ctx 2 o.index).tryEnd o.ctx

/-- Whether two contexts belong to one agent: the command processor, one Basin engine, one tenon. -/
def sameAgent (c d : Ctx) : Bool := match c, d with
  | .c _, .c _ => true
  | .b e _, .b f _ => e == f
  | .t q r k _, .t q' r' k' _ => q == q' && r == r' && k == k'
  | _, _ => false

/-- Whether a register is locked for a context: by an outstanding long operation of any context of the same agent (spec/04
R100). -/
def State.lockedFor (s : State) (c : Ctx) (l : List Lock) : Bool :=
  !l.isEmpty && s.dxn.longOps.any fun o => sameAgent o.ctx c && o.locks.any fun k => l.contains k

/-- Whether a long operation writes memory (spec/04 R103). -/
def LongKind.writesMem : LongKind → Bool
  | .move .. | .fill .. | .xmove .. | .vstore .. | .tstore .. | .recvm .. => true
  | .cacc .. | .cemit .. | .cgath .. | .capply .. => true
  | _ => false

/-! ## Issue -/

/-- What an instruction does once its encoding is accepted and no lock holds it: it completes and the next instruction
follows, or a taken target does; the context has stopped or ended; it waits at issue; it raises a precise exception; it
reads uncorrectable data. -/
inductive Res where
  | go (s : State)
  | jump (s : State) (pc : Nat)
  | halt (s : State)
  | stall
  | fault (s : State) (code : Nat) (info : Word)
  | mem (s : State) (detail : Nat)

/-- Fetching the next instruction: beyond the code PC_RANGE is raised, and on an opcode that no command spells
ILLEGAL_INSTRUCTION (spec/04 R127, spec/05 R140, R157). -/
def State.fetchCheck (s : State) (c : Ctx) : State :=
  let x := s.ctx c
  if x.status ≠ .running then s
  else match x.code[x.pc]? with
    | none => s.except c 7 x.pc 0
    | some w =>
      let n := w.toNat
      if assigned (wOp n) && !(wOp n == 0x70 && decide (5 ≤ pOp n)) then s else s.except c 1 x.pc 0

/-- The context goes on at an index. -/
def State.advance (s : State) (c : Ctx) (pc : Nat) : State :=
  let x := s.ctx c
  if x.status = .running then (s.setCtx c { x with pc := pc, stalled := false }).fetchCheck c
  else if x.status = .waiting then s.setCtx c { x with pc := pc, stalled := false }
  else s

/-- The lowest exception that an encoding raises (spec/04 R123, R127, R129). -/
def encodingFault (profile version w : Nat) : Option Nat :=
  let op := wOp w
  if missing profile op || !fieldsOk profile w then some 1
  else if groupIn profile op = false then some 2
  else if version < sinceOf w then some 3
  else none

/-- An instruction of a tenon has issued (spec/18 Table 18.5). -/
def State.countIssued (s : State) (c : Ctx) : State :=
  if profileOf c = 1 then s.count (ctrTenon (tenonOf c) 0) else s

/-- The result of an instruction takes effect on its context. -/
def State.finish (s : State) (c : Ctx) (r : Res) : State :=
  let x := s.ctx c
  match r with
  | .go t => (t.countIssued c).advance c (x.pc + 1)
  | .jump t pc => (t.countIssued c).advance c pc
  | .halt t => t.countIssued c
  | .stall => s.setCtx c { x with stalled := true }
  | .fault t code info => t.except c code x.pc info
  | .mem t detail => (t.countIssued c).memFail c detail x.pc

/-- Issue of an instruction word by a context (log entry 16): the context must run and have that word at its PC, or
nothing happens; then the checks of R123 in the order of their codes, then the waits of R100 and R101, then the effect. -/
def State.issue (s : State) (c : Ctx) (w : Nat) (locks : List Lock) (long : Bool) (k : State → Context → Res) : State :=
  let x := s.ctx c
  if x.status ≠ .running ∨ x.code[x.pc]? ≠ some (BitVec.ofNat 64 w) then s
  else match encodingFault (profileOf c) x.version.toNat w with
    | some code => s.except c code x.pc 0
    | none =>
      if s.lockedFor c locks ∨ (long ∧ longLimit c ≤ (s.opsOf c).length) then s.finish c .stall
      else s.finish c (k s x)

/-- The word of an opcode and its low 56 bits. -/
def dxnWord (op : Nat) (body : BitVec 56) : Nat := op * 2 ^ 56 + body.toNat

end Sys2Proof.Machine
end

