-- ==== Sys2Proof/Machine/Flags.lean ====
section
/-! DEFINITION. The sticky floating-point flags of a context (spec/04 R121) and the rounding generator: Philox 4×32-10
(spec/04 Table 4.3, R120; spec/10 R304; spec/05 R148). -/

namespace Sys2Proof.Machine

/-- Flags join the context's sticky flags. -/
def Context.addFlags (x : Context) (f : Flags) : Context := { x with fflags := x.fflags ||| f }

/-- One Philox 4×32 round on four words under two key words. -/
def philoxRound (c : Nat × Nat × Nat × Nat) (k0 k1 : Nat) : Nat × Nat × Nat × Nat :=
  let p0 := 0xD2511F53 * c.1
  let p1 := 0xCD9E8D57 * c.2.2.1
  (p1 / 2 ^ 32 ^^^ c.2.1 ^^^ k0, p1 % 2 ^ 32, p0 / 2 ^ 32 ^^^ c.2.2.2 ^^^ k1, p0 % 2 ^ 32)

/-- Rounds of Philox with the key bumped after each. -/
def philoxRounds : Nat → Nat × Nat × Nat × Nat → Nat → Nat → Nat × Nat × Nat × Nat
  | 0, c, _, _ => c
  | n + 1, c, k0, k1 => philoxRounds n (philoxRound c k0 k1) ((k0 + 0x9E3779B9) % 2 ^ 32) ((k1 + 0xBB67AE85) % 2 ^ 32)

/-- The 128-bit output of Philox 4×32-10: counter and key as numbers, word w of the output in bits [32w+31:32w]. -/
def philox (key ctr : Nat) : Nat :=
  let w (i : Nat) : Nat := ctr / 2 ^ (32 * i) % 2 ^ 32
  let r := philoxRounds 10 (w 0, w 1, w 2, w 3) (key % 2 ^ 32) (key / 2 ^ 32 % 2 ^ 32)
  r.1 + r.2.1 * 2 ^ 32 + r.2.2.1 * 2 ^ 64 + r.2.2.2 * 2 ^ 96

/-- The counter after a number of steps: bits [125:0] advance, bits [127:126] stay (spec/10 R304). -/
def ctrPlus (ctr n : Nat) : Nat := ctr / 2 ^ 126 * 2 ^ 126 + (ctr + n) % 2 ^ 126

/-- Generator step k of an instruction that starts now. -/
def Context.genStep (x : Context) (k : Nat) : Nat := philox x.rngKey.toNat (ctrPlus x.rngCtr.toNat k)

/-- The generator advances by a number of steps. -/
def Context.genAdvance (x : Context) (n : Nat) : Context :=
  { x with rngCtr := BitVec.ofNat 128 (ctrPlus x.rngCtr.toNat n) }

/-- Rounding k of an instruction: to nearest even, or with the 16 bits that SR draws (spec/10 R304). -/
def Context.rounding (x : Context) (sr : Bool) (k : Nat) : Rnd :=
  if sr then .sr (x.genStep (k / 8) / 2 ^ (16 * (k % 8)) % 2 ^ 16) else .rne

/-- The generator after an instruction that made n roundings under SR. -/
def Context.afterRoundings (x : Context) (sr : Bool) (n : Nat) : Context :=
  if sr then x.genAdvance (ceilDiv n 8) else x

end Sys2Proof.Machine
end

