-- ==== Sys2Proof/Machine/Operands.lean ====
section
/-! DEFINITION. Operands of Daxran instructions: scalar values in g registers (spec/05 R137), elements of v registers (R143),
tile and accumulator elements (spec/04 R117), and memory operands with their checks (R104, R105). -/

namespace Sys2Proof.Machine

/-! ## Scalar operands (spec/05 R137) -/

/-- Width of an integer type. -/
def tyBits (t : Nat) : Nat := if t = 0 then 8 else if t = 1 then 32 else 64

/-- The floating format of a scalar, vector or non-MX tile type. -/
def tyFmt (t : Nat) : Fmt := if t = 3 then fmtBF16 else if t = 4 then fmtFP16 else if t = 5 then fmtFP32 else fmtFP64

/-- The signed value of an integer operand: higher bits are ignored. -/
def scInt (t : Nat) (v : Word) : Int := signedOf (tyBits t) v.toNat

/-- The unsigned value of an integer operand. -/
def scNat (t : Nat) (v : Word) : Nat := v.toNat % 2 ^ tyBits t

/-- An integer result as it is written: sign-extended. -/
def scPut (t n : Nat) : Word := BitVec.ofNat 64 (wrapInt 64 (signedOf (tyBits t) n))

/-- A floating operand. -/
def scFp (t : Nat) (v : Word) : Fp := (tyFmt t).dec (v.toNat % 2 ^ (tyFmt t).width)

/-! ## Vector operands (spec/05 R143) -/

/-- Width of a vector or tile element. -/
def elBits (t : Nat) : Nat := if t = 0 ∨ t = 12 then 8 else if t = 3 ∨ t = 4 then 16 else 32

/-- Element i of a v register. -/
def vEl (t : Nat) (v : BitVec 2048) (i : Nat) : Nat := v.toNat / 2 ^ (elBits t * i) % 2 ^ elBits t

/-- All elements of a v register. -/
def vEls (t : Nat) (v : BitVec 2048) : List Nat := (List.range (vCount t)).map (vEl t v)

/-- A v register made of elements. -/
def vMake (t : Nat) (l : List Nat) : BitVec 2048 :=
  BitVec.ofNat 2048 (l.foldr (fun x a => a * 2 ^ elBits t + x % 2 ^ elBits t) 0)

/-- A v register of a tenon. -/
def State.vreg (s : State) (c : Ctx) (i : Nat) : BitVec 2048 := sget 0 s.dxn.vregs (16 * tenonOf c + i)
/-- A v register takes a value. -/
def State.setV (s : State) (c : Ctx) (i : Nat) (x : BitVec 2048) : State :=
  { s with dxn.vregs := sset 0 s.dxn.vregs (16 * tenonOf c + i) x }
/-- A t register of a tenon. -/
def State.treg (s : State) (c : Ctx) (i : Nat) : BitVec 32768 := sget 0 s.dxn.tregs (16 * tenonOf c + i)
/-- A t register takes a value. -/
def State.setT (s : State) (c : Ctx) (i : Nat) (x : BitVec 32768) : State :=
  { s with dxn.tregs := sset 0 s.dxn.tregs (16 * tenonOf c + i) x }
/-- An accumulator of a tenon. -/
def State.areg (s : State) (c : Ctx) (i : Nat) : BitVec 32768 := sget 0 s.dxn.aregs (4 * tenonOf c + i)
/-- An accumulator takes a value. -/
def State.setA (s : State) (c : Ctx) (i : Nat) (x : BitVec 32768) : State :=
  { s with dxn.aregs := sset 0 s.dxn.aregs (4 * tenonOf c + i) x }

/-- The lock of a v, t or a register. -/
def lockV (i : Nat) : Lock := ⟨1, i⟩
/-- The lock of a t register. -/
def lockT (i : Nat) : Lock := ⟨2, i⟩
/-- The lock of an accumulator. -/
def lockA (i : Nat) : Lock := ⟨3, i⟩

/-! ## Tiles (spec/04 R117) -/

/-- The MX format of a type 0x7 to 0xB. -/
def tyMxFmt (t : Nat) : MxFmt := fmtMx (t + 1)

/-- The scale byte of row r of an MX tile. -/
def tScale (x : BitVec 32768) (r : Nat) : Nat := x.toNat / 2 ^ (8 * (4064 + r)) % 256

/-- The code of element i of a tile, row-major, by type. -/
def tCode (t : Nat) (x : BitVec 32768) (i : Nat) : Nat :=
  let w := if tyMx t then (tyMxFmt t).fmt.width else elBits t
  x.toNat / 2 ^ (w * i) % 2 ^ w

/-- The value of an E8M0 scale: a power of two, or NaN. -/
def scaleFp (b : Nat) : Fp := if b = 255 then .nan false else .fin false 1 ((b : Int) - 127)

/-- The value of element i of a floating, MX or scale tile, with an MX row's scale applied. -/
def tFp (t : Nat) (x : BitVec 32768) (i : Nat) : Fp :=
  if tyMx t then (tyMxFmt t).value (tScale x (i / 32)) (tCode t x i)
  else if t = 12 then scaleFp (tCode t x i)
  else (tyFmt t).dec (tCode t x i)

/-- A tile of element codes, with row scales where the type is MX; other bytes are zero. -/
def tMake (t : Nat) (codes scales : List Nat) : BitVec 32768 :=
  let w := if tyMx t then (tyMxFmt t).fmt.width else elBits t
  let e := codes.foldr (fun x a => a * 2 ^ w + x % 2 ^ w) 0
  BitVec.ofNat 32768 (if tyMx t then e + (scales.foldr (fun x a => a * 256 + x % 256) 0) * 2 ^ (8 * 4064) else e)

/-- The bytes of a tile. -/
def tileBytes (x : BitVec 32768) : Bytes := leBytes 4096 x.toNat

/-- A tile of 4,096 bytes. -/
def tileOf (b : Bytes) : BitVec 32768 := BitVec.ofNat 32768 (leNat b)

/-- Lane i of an accumulator, row-major. -/
def aEl (x : BitVec 32768) (i : Nat) : Nat := x.toNat / 2 ^ (32 * i) % 2 ^ 32

/-- An accumulator of 1,024 lanes. -/
def aMake (l : List Nat) : BitVec 32768 := BitVec.ofNat 32768 (l.foldr (fun x a => a * 2 ^ 32 + x % 2 ^ 32) 0)

/-! ## Memory operands (spec/04 R104, R105, Table 4.4) -/

/-- Whether a profile has a space. -/
def spaceIn (profile space : Nat) : Bool := match profile with
  | 1 => decide (space < 2)
  | 2 => decide (space < 2) || space == 3
  | _ => decide (space < 3) || space == 4 || space == 5

/-- The size of the LOCAL space of a profile. -/
def localSize (profile : Nat) : Nat := if profile = 1 then 262144 else if profile = 2 then 4096 else 65536

/-- The whole BAR0 window. -/
def bar0Size : Nat := 0x4000000

/-- Whether a range of n bytes lies in the extent of a space; a range of no bytes does. -/
def State.inSpace (s : State) (c : Ctx) (space a n : Nat) : Bool :=
  n == 0 || match space with
    | 0 => decide (a + n ≤ localSize (profileOf c))
    | 1 => s.deviceOk a n
    | 2 => decide (a + n ≤ 2 ^ 52)
    | 3 => match c with
      | .b e sl => decide (a + n ≤ (s.slot e sl).accSize)
      | _ => false
    | 4 => decide (a + n ≤ (s.ctx c).data.length)
    | _ => decide (a + n ≤ bar0Size)

/-- The exception of a memory operand, the lowest that applies: a space the profile lacks, a write to a read-only space,
REG outside domain 0x000; an address outside the extent; an address that is not aligned. -/
def State.memFault (s : State) (c : Ctx) (space a n align : Nat) (write : Bool) : Option Nat :=
  if spaceIn (profileOf c) space = false ∨ (space = 4 ∧ write) ∨ (space = 5 ∧ (s.ctx c).domain ≠ 0) then some 4
  else if s.inSpace c space a n = false then some 5
  else if a % align ≠ 0 ∨ (space = 5 ∧ align ≠ 8) then some 6
  else none

/-- The effective address of an M-format instruction. -/
def mAddr (x : Context) (w : Nat) : Nat := (x.reg (wA w) + BitVec.ofNat 64 (mOff w)).toNat

/-- The address of a byte of a context's own store in the store of its kind. -/
def localBase : Ctx → Nat
  | .c n => 65536 * n
  | .b e sl => 4096 * (1024 * e + sl)
  | .t q row col _ => 262144 * tenonIx q row col

/-- Bytes of a context's LOCAL space. -/
def State.localRead (s : State) (c : Ctx) (a n : Nat) : Bytes := match c with
  | .c _ => sbytes s.dxn.scratchC (localBase c + a) n
  | .b _ _ => sbytes s.dxn.scratchB (localBase c + a) n
  | .t _ _ _ _ => sbytes s.dxn.localStore (localBase c + a) n

/-- Bytes stored in a context's LOCAL space. -/
def State.localWrite (s : State) (c : Ctx) (a : Nat) (b : Bytes) : State := match c with
  | .c _ => { s with dxn.scratchC := swrite s.dxn.scratchC (localBase c + a) b }
  | .b _ _ => { s with dxn.scratchB := swrite s.dxn.scratchB (localBase c + a) b }
  | .t _ _ _ _ => { s with dxn.localStore := swrite s.dxn.localStore (localBase c + a) b }

/-- The place of an ACCUM address of a slot in the accumulate store. -/
def State.accumBase (s : State) (e sl : Nat) : Nat := e * 2 ^ 25 + (s.slot e sl).accOff

/-- The first n bytes that a read of host memory brings; none when it failed or when they are not all free of poison. -/
def hostBytes (r : HostRead) (n : Nat) : Option Bytes := match r with
  | .ok b => some (slice b 0 n)
  | .poisoned b => if n ≤ b.length then some (slice b 0 n) else none
  | .failed => none

/-- A read of n bytes of a space other than REG: the state after it, and the bytes unless they are poisoned; an
uncorrectable error of accumulate memory aborts the operation with RESOURCE_LOST (spec/09 Table 9.8). -/
def State.spaceRead (s : State) (c : Ctx) (space a n : Nat) (read : HostRead) (errs : List LineErr) :
    State × Option Bytes :=
  match space with
  | 0 => (s, some (s.localRead c a n))
  | 1 => let (s, b, bad) := s.devRead a n errs
    (s, if bad then none else some b)
  | 2 => (s, hostBytes read n)
  | 3 => match c with
    | .b e sl =>
      if errs.any fun x => x.kind == .uncorrectable && decide (a ≤ x.addr.toNat) && decide (x.addr.toNat < a + n) then
        (s.bsnAbort e sl 8 0xFFFF 0, none)
      else (s, some (sbytes s.bsn.accum (s.accumBase e sl + a) n))
    | _ => (s, none)
  | _ => (s, some (slice (s.ctx c).data a n))

/-- A write of a space that may be written, other than REG. -/
def State.spaceWrite (s : State) (c : Ctx) (space a : Nat) (b : Bytes) : State :=
  match space with
  | 0 => s.localWrite c a b
  | 1 => s.devWrite a b
  | 2 => s.hostWrite (BitVec.ofNat 64 a) b
  | 3 => match c with
    | .b e sl => { s with bsn.accum := swrite s.bsn.accum (s.accumBase e sl + a) b }
    | _ => s
  | _ => s

end Sys2Proof.Machine
end

