-- ==== Sys2Proof/Machine/Scalar.lean ====
section
/-! DEFINITION. The scalar group (spec/05 R142, Tables 5.2 and 5.3). -/

namespace Sys2Proof.Machine

/-- A scalar instruction that only changes its context. -/
def State.scalar (s : State) (c : Ctx) (w : Nat) (f : Context → Context) : State :=
  s.issue c w [] false fun s x => .go (s.setCtx c (f x))

/-- A floating result: encoded to nearest even, with its flags. -/
def Context.putFp (x : Context) (d t : Nat) (r : Fp × Flags) : Context :=
  let e := (tyFmt t).enc .rne r.1
  (x.setReg d (BitVec.ofNat 64 e.1)).addFlags (r.2 ||| e.2)

/-- An integer result of a type, from its exact value: wrapped, or saturated under SAT. -/
def Context.putInt (x : Context) (d t : Nat) (sat : Bool) (v : Int) : Context :=
  x.setReg d (scPut t (fitInt (tyBits t) sat v))

/-- A two-operand arithmetic instruction: by integers or by floating values. -/
def Context.arith (x : Context) (w : Nat) (fi : Int → Int → Int) (ff : Fp → Fp → Fp × Flags) : Context :=
  let t := wT w
  if tyIsInt t then x.putInt (wD w) t (wSAT w) (fi (scInt t (x.reg (wA w))) (scInt t (x.reg (wB w))))
  else x.putFp (wD w) t (ff (scFp t (x.reg (wA w))) (scFp t (x.reg (wB w))))

/-- gD := a bitwise combination of gA and gB. -/
def Context.bitwise (x : Context) (w : Nat) (f : Word → Word → Word) : Context :=
  x.setReg (wD w) (f (x.reg (wA w)) (x.reg (wB w)))

/-- A left shift of an integer type, by an amount modulo its width. -/
def shl (t : Nat) (v : Word) (n : Nat) : Word := scPut t (scNat t v * 2 ^ (n % tyBits t) % 2 ^ tyBits t)

/-- A logical right shift. -/
def shr (t : Nat) (v : Word) (n : Nat) : Word := scPut t (scNat t v / 2 ^ (n % tyBits t))

/-- An arithmetic right shift. -/
def sra (t : Nat) (v : Word) (n : Nat) : Word :=
  scPut t (wrapInt (tyBits t) (scInt t v / 2 ^ (n % tyBits t)))

/-- A comparison of two integers of a width (spec/05 Table 5.3). -/
def intCmp (bits cond : Nat) (a b : Nat) : Bool :=
  let x := a % 2 ^ bits
  let y := b % 2 ^ bits
  match cond with
  | 0 => x == y
  | 1 => x != y
  | 2 => decide (signedOf bits x < signedOf bits y)
  | 3 => decide (signedOf bits x ≤ signedOf bits y)
  | 4 => decide (x < y)
  | _ => decide (x ≤ y)

/-- A shift instruction. -/
def Context.shift (x : Context) (w : Nat) (f : Nat → Word → Nat → Word) : Context :=
  x.setReg (wD w) (f (wT w) (x.reg (wA w)) (x.reg (wB w)).toNat)

/-- A shift by an immediate. -/
def Context.shiftImm (x : Context) (w : Nat) (f : Nat → Word → Nat → Word) : Context :=
  x.setReg (wD w) (f (iT w) (x.reg (wA w)) (iImm w))

/-- gD := gS combined with the zero-extended immediate. -/
def Context.bitwiseImm (x : Context) (w : Nat) (f : Word → Word → Word) : Context :=
  x.setReg (wD w) (f (x.reg (wA w)) (BitVec.ofNat 64 (iImm w)))

def execDxnAdd (c : Ctx) (body : BitVec 56) (s : State) : Out :=
  let w := dxnWord 0x01 body
  .next (s.scalar c w fun x => x.arith w (· + ·) Fp.add)

def execDxnSub (c : Ctx) (body : BitVec 56) (s : State) : Out :=
  let w := dxnWord 0x02 body
  .next (s.scalar c w fun x => x.arith w (· - ·) fun a b => a.add b.negate)

def execDxnMul (c : Ctx) (body : BitVec 56) (s : State) : Out :=
  let w := dxnWord 0x03 body
  .next (s.scalar c w fun x => x.arith w (· * ·) Fp.mul)

/-- The high half of a product of two words of a width, signed or unsigned. -/
def mulHigh (t : Nat) (unsigned : Bool) (a b : Word) : Int :=
  if unsigned then ((scNat t a * scNat t b / 2 ^ tyBits t : Nat) : Int) else scInt t a * scInt t b / 2 ^ tyBits t

def execDxnMulh (c : Ctx) (body : BitVec 56) (s : State) : Out :=
  let w := dxnWord 0x04 body
  .next (s.scalar c w fun x =>
    x.putInt (wD w) (wT w) false (mulHigh (wT w) (bitOf (wM w) 0) (x.reg (wA w)) (x.reg (wB w))))

/-- Division and remainder: a zero integer divisor raises INTEGER_DIVIDE. -/
def State.divide (s : State) (c : Ctx) (w : Nat) (fi : Int → Int → Int) (ff : Fp → Fp → Fp × Flags) : State :=
  s.issue c w [] false fun s x =>
    if tyIsInt (wT w) ∧ scNat (wT w) (x.reg (wB w)) = 0 then .fault s 0xD 0 else .go (s.setCtx c (x.arith w fi ff))

def execDxnDiv (c : Ctx) (body : BitVec 56) (s : State) : Out := .next (s.divide c (dxnWord 0x05 body) Int.tdiv Fp.div)

def execDxnRem (c : Ctx) (body : BitVec 56) (s : State) : Out := .next (s.divide c (dxnWord 0x06 body) Int.tmod Fp.div)

def execDxnMin (c : Ctx) (body : BitVec 56) (s : State) : Out :=
  let w := dxnWord 0x07 body
  .next (s.scalar c w fun x => x.arith w min (Fp.minNum false))

def execDxnMax (c : Ctx) (body : BitVec 56) (s : State) : Out :=
  let w := dxnWord 0x08 body
  .next (s.scalar c w fun x => x.arith w max (Fp.minNum true))

def execDxnAnd (c : Ctx) (body : BitVec 56) (s : State) : Out :=
  let w := dxnWord 0x09 body
  .next (s.scalar c w fun x => x.bitwise w (· &&& ·))

def execDxnOr (c : Ctx) (body : BitVec 56) (s : State) : Out :=
  let w := dxnWord 0x0A body
  .next (s.scalar c w fun x => x.bitwise w (· ||| ·))

def execDxnXor (c : Ctx) (body : BitVec 56) (s : State) : Out :=
  let w := dxnWord 0x0B body
  .next (s.scalar c w fun x => x.bitwise w (· ^^^ ·))

def execDxnShl (c : Ctx) (body : BitVec 56) (s : State) : Out :=
  let w := dxnWord 0x0C body
  .next (s.scalar c w fun x => x.shift w shl)

def execDxnShr (c : Ctx) (body : BitVec 56) (s : State) : Out :=
  let w := dxnWord 0x0D body
  .next (s.scalar c w fun x => x.shift w shr)

def execDxnSra (c : Ctx) (body : BitVec 56) (s : State) : Out :=
  let w := dxnWord 0x0E body
  .next (s.scalar c w fun x => x.shift w sra)

def execDxnFma (c : Ctx) (body : BitVec 56) (s : State) : Out :=
  let w := dxnWord 0x0F body
  let t := wT w
  .next (s.scalar c w fun x =>
    x.putFp (wD w) t (Fp.fma (scFp t (x.reg (wA w))) (scFp t (x.reg (wB w))) (scFp t (x.reg (wC w)))))

/-- A comparison of two operands of a scalar type, and its flags. -/
def scCmp (t cond : Nat) (a b : Word) : Bool × Flags :=
  if tyIsInt t then (intCmp (tyBits t) cond a.toNat b.toNat, 0) else Fp.cmp cond (scFp t a) (scFp t b)

def execDxnCmp (c : Ctx) (body : BitVec 56) (s : State) : Out :=
  let w := dxnWord 0x10 body
  .next (s.scalar c w fun x =>
    let r := scCmp (wT w) (wM w % 8) (x.reg (wA w)) (x.reg (wB w))
    (x.setPred (wD w) r.1).addFlags r.2)

def execDxnSel (c : Ctx) (body : BitVec 56) (s : State) : Out :=
  let w := dxnWord 0x11 body
  .next (s.scalar c w fun x => x.setReg (wD w) (if x.pred (wC w) then x.reg (wA w) else x.reg (wB w)))

/-- A conversion between scalar types (spec/04 R120 to R122). -/
def Context.convert (x : Context) (w : Nat) : Context :=
  let t := wT w
  let u := wM w % 16
  let v := x.reg (wA w)
  if tyIsInt t then
    if tyIsInt u then x.putInt (wD w) u (wSAT w) (scInt t v) else x.putFp (wD w) u (Fp.ofInt (scInt t v), 0)
  else if tyIsInt u then
    let r := (scFp t v).toInt .rne (tyBits u)
    (x.setReg (wD w) (scPut u r.1)).addFlags r.2
  else x.putFp (wD w) u (scFp t v, snanFlags [scFp t v])

def execDxnCvt (c : Ctx) (body : BitVec 56) (s : State) : Out :=
  let w := dxnWord 0x12 body
  .next (s.scalar c w fun x => x.convert w)

def execDxnMovi (c : Ctx) (body : BitVec 56) (s : State) : Out :=
  let w := dxnWord 0x13 body
  .next (s.scalar c w fun x => x.setReg (wD w) (BitVec.ofInt 64 (sextImm w)))

def execDxnMovhi (c : Ctx) (body : BitVec 56) (s : State) : Out :=
  let w := dxnWord 0x14 body
  .next (s.scalar c w fun x => x.setReg (wD w) (BitVec.ofNat 64 ((x.reg (wA w)).toNat % 2 ^ 32 + iImm w * 2 ^ 32)))

def execDxnAddi (c : Ctx) (body : BitVec 56) (s : State) : Out :=
  let w := dxnWord 0x15 body
  .next (s.scalar c w fun x => x.putInt (wD w) (iT w) (bitOf (iM w) 8) (scInt (iT w) (x.reg (wA w)) + sextImm w))

def execDxnAndi (c : Ctx) (body : BitVec 56) (s : State) : Out :=
  let w := dxnWord 0x16 body
  .next (s.scalar c w fun x => x.bitwiseImm w (· &&& ·))

def execDxnOri (c : Ctx) (body : BitVec 56) (s : State) : Out :=
  let w := dxnWord 0x17 body
  .next (s.scalar c w fun x => x.bitwiseImm w (· ||| ·))

def execDxnXori (c : Ctx) (body : BitVec 56) (s : State) : Out :=
  let w := dxnWord 0x18 body
  .next (s.scalar c w fun x => x.bitwiseImm w (· ^^^ ·))

def execDxnShli (c : Ctx) (body : BitVec 56) (s : State) : Out :=
  let w := dxnWord 0x19 body
  .next (s.scalar c w fun x => x.shiftImm w shl)

def execDxnShri (c : Ctx) (body : BitVec 56) (s : State) : Out :=
  let w := dxnWord 0x1A body
  .next (s.scalar c w fun x => x.shiftImm w shr)

def execDxnSrai (c : Ctx) (body : BitVec 56) (s : State) : Out :=
  let w := dxnWord 0x1B body
  .next (s.scalar c w fun x => x.shiftImm w sra)

def execDxnCmpi (c : Ctx) (body : BitVec 56) (s : State) : Out :=
  let w := dxnWord 0x1C body
  .next (s.scalar c w fun x =>
    x.setPred (wD w) (intCmp (tyBits (iT w)) (iM w % 8) (x.reg (wA w)).toNat (wrapInt 64 (sextImm w))))

/-- A logical combination of predicates. -/
def plogOp (op : Nat) (a b : Bool) : Bool := match op with
  | 0 => a && b
  | 1 => a || b
  | 2 => a != b
  | _ => a && !b

def execDxnPlog (c : Ctx) (body : BitVec 56) (s : State) : Out :=
  let w := dxnWord 0x1D body
  .next (s.scalar c w fun x => x.setPred (wD w) (plogOp (wM w % 4) (x.pred (wA w)) (x.pred (wB w))))

def execDxnPmov (c : Ctx) (body : BitVec 56) (s : State) : Out :=
  let w := dxnWord 0x1E body
  .next (s.scalar c w fun x =>
    if wM w = 0 then x.setReg (wD w) (BitVec.ofNat 64 (b2n (x.pred (wA w))))
    else x.setPred (wD w) (decide (x.reg (wA w) ≠ 0)))

end Sys2Proof.Machine
end

