-- ==== Sys2Proof/Machine/Vector.lean ====
section
/-! DEFINITION. The vector group (spec/05 R143 to R145, Table 5.4). -/

namespace Sys2Proof.Machine

/-- The v registers that an instruction names as vD, vA, vB and vC. -/
def vLocks (d a b c : Option Nat) : List Lock := [d, a, b, c].filterMap fun x => x.map lockV

/-- Elements computed one by one: codes and flags. -/
def elements (n : Nat) (f : Nat → Nat × Flags) : List Nat × Flags :=
  let l := (List.range n).map f
  (l.map Prod.fst, l.foldl (fun a x => a ||| x.2) 0)

/-- A v register of elements computed one by one. -/
def vElements (t : Nat) (f : Nat → Nat × Flags) : BitVec 2048 × Flags :=
  let r := elements (vCount t) f
  (vMake t r.1, r.2)

/-- What a vector instruction leaves: the new vD, its flags, and the generator after its roundings. -/
def State.vPut (s : State) (c : Ctx) (w : Nat) (r : BitVec 2048 × Flags × Nat) : State :=
  (s.setV c (wD w) r.1).setCtx c (((s.ctx c).addFlags r.2.1).afterRoundings (wSR w) r.2.2)

/-- A vector instruction, of a new vD, its flags, and how many roundings it made. -/
def State.vector (s : State) (c : Ctx) (w : Nat) (locks : List Lock) (r : BitVec 2048 × Flags × Nat) : State :=
  s.issue c w locks false fun s _ => .go (s.vPut c w r)

/-- The locks of an instruction on vD, vA and vB. -/
def locksDAB (w : Nat) : List Lock := vLocks (some (wD w)) (some (wA w)) (some (wB w)) none

/-- Elements of a register as signed integers and as floating values. -/
def vInt (t : Nat) (v : BitVec 2048) (i : Nat) : Int := signedOf (elBits t) (vEl t v i)
/-- Element i of a register as a floating value. -/
def vFp (t : Nat) (v : BitVec 2048) (i : Nat) : Fp := (tyFmt t).dec (vEl t v i)

/-- A floating result of an element, rounded with rounding number i. -/
def Context.vRound (x : Context) (w i : Nat) (y : Fp × Flags) : Nat × Flags :=
  let e := (tyFmt (wT w)).enc (x.rounding (wSR w) i) y.1
  (e.1, y.2 ||| e.2)

/-- Element-wise arithmetic on two registers: exact integers cut or saturated to the element, or one rounding for each
floating element. -/
def State.vArith (s : State) (c : Ctx) (w : Nat) (fi : Int → Int → Int) (ff : Fp → Fp → Fp × Flags) :
    BitVec 2048 × Flags × Nat :=
  let t := wT w
  let a := s.vreg c (wA w)
  let b := s.vreg c (wB w)
  if tyIsInt t then
    let r := vElements t fun i => (fitInt (elBits t) (wSAT w) (fi (vInt t a i) (vInt t b i)), 0)
    (r.1, r.2, 0)
  else
    let r := vElements t fun i => (s.ctx c).vRound w i (ff (vFp t a i) (vFp t b i))
    (r.1, r.2, vCount t)

/-- Element-wise choice of one operand, which rounds nothing. -/
def State.vPick (s : State) (c : Ctx) (w : Nat) (fi : Int → Int → Int) (ff : Fp → Fp → Fp × Flags) :
    BitVec 2048 × Flags × Nat :=
  let t := wT w
  let a := s.vreg c (wA w)
  let b := s.vreg c (wB w)
  let r := vElements t fun i =>
    if tyIsInt t then (wrapInt (elBits t) (fi (vInt t a i) (vInt t b i)), 0)
    else
      let y := ff (vFp t a i) (vFp t b i)
      (((tyFmt t).enc .rne y.1).1, y.2)
  (r.1, r.2, 0)

def execDxnVadd (c : Ctx) (body : BitVec 56) (s : State) : Out :=
  let w := dxnWord 0x20 body
  .next (s.vector c w (locksDAB w) (s.vArith c w (· + ·) Fp.add))

def execDxnVsub (c : Ctx) (body : BitVec 56) (s : State) : Out :=
  let w := dxnWord 0x21 body
  .next (s.vector c w (locksDAB w) (s.vArith c w (· - ·) fun a b => a.add b.negate))

def execDxnVmul (c : Ctx) (body : BitVec 56) (s : State) : Out :=
  let w := dxnWord 0x22 body
  .next (s.vector c w (locksDAB w) (s.vArith c w (· * ·) Fp.mul))

/-- The fused product and sum of the elements of three registers. -/
def State.vFma (s : State) (c : Ctx) (w : Nat) : BitVec 2048 × Flags × Nat :=
  let t := wT w
  let r := vElements t fun i => (s.ctx c).vRound w i
    (Fp.fma (vFp t (s.vreg c (wA w)) i) (vFp t (s.vreg c (wB w)) i) (vFp t (s.vreg c (wC w)) i))
  (r.1, r.2, vCount t)

def execDxnVfma (c : Ctx) (body : BitVec 56) (s : State) : Out :=
  let w := dxnWord 0x23 body
  .next (s.vector c w (vLocks (some (wD w)) (some (wA w)) (some (wB w)) (some (wC w))) (s.vFma c w))

def execDxnVmin (c : Ctx) (body : BitVec 56) (s : State) : Out :=
  let w := dxnWord 0x24 body
  .next (s.vector c w (locksDAB w) (s.vPick c w min (Fp.minNum false)))

def execDxnVmax (c : Ctx) (body : BitVec 56) (s : State) : Out :=
  let w := dxnWord 0x25 body
  .next (s.vector c w (locksDAB w) (s.vPick c w max (Fp.minNum true)))

def execDxnVdiv (c : Ctx) (body : BitVec 56) (s : State) : Out :=
  let w := dxnWord 0x26 body
  .next (s.vector c w (locksDAB w) (s.vArith c w Int.tdiv Fp.div))

/-- The square roots of the elements of a register. -/
def State.vSqrt (s : State) (c : Ctx) (w : Nat) : BitVec 2048 × Flags × Nat :=
  let t := wT w
  let r := vElements t fun i => (s.ctx c).vRound w i (Fp.sqrt (vFp t (s.vreg c (wA w)) i))
  (r.1, r.2, vCount t)

def execDxnVsqrt (c : Ctx) (body : BitVec 56) (s : State) : Out :=
  let w := dxnWord 0x27 body
  .next (s.vector c w (vLocks (some (wD w)) (some (wA w)) none none) (s.vSqrt c w))

/-- A bitwise combination over all 2,048 bits. -/
def State.vBits (s : State) (c : Ctx) (w : Nat) (f : BitVec 2048 → BitVec 2048 → BitVec 2048) : BitVec 2048 × Flags × Nat :=
  (f (s.vreg c (wA w)) (s.vreg c (wB w)), 0, 0)

def execDxnVand (c : Ctx) (body : BitVec 56) (s : State) : Out :=
  let w := dxnWord 0x28 body
  .next (s.vector c w (locksDAB w) (s.vBits c w (· &&& ·)))

def execDxnVor (c : Ctx) (body : BitVec 56) (s : State) : Out :=
  let w := dxnWord 0x29 body
  .next (s.vector c w (locksDAB w) (s.vBits c w (· ||| ·)))

def execDxnVxor (c : Ctx) (body : BitVec 56) (s : State) : Out :=
  let w := dxnWord 0x2A body
  .next (s.vector c w (locksDAB w) (s.vBits c w (· ^^^ ·)))

/-- Each element of vA shifted by the matching element of vB, modulo the element width. -/
def State.vShift (s : State) (c : Ctx) (w : Nat) (f : Nat → Nat → Nat → Nat) : BitVec 2048 × Flags × Nat :=
  let t := wT w
  ((vElements t fun i => (f (elBits t) (vEl t (s.vreg c (wA w)) i) (vEl t (s.vreg c (wB w)) i % elBits t), 0)).1, 0, 0)

/-- A left shift of an element of b bits. -/
def elShl (b v n : Nat) : Nat := v * 2 ^ n % 2 ^ b
/-- A logical right shift of an element. -/
def elShr (_ v n : Nat) : Nat := v / 2 ^ n
/-- An arithmetic right shift of an element of b bits. -/
def elSra (b v n : Nat) : Nat := wrapInt b (signedOf b v / 2 ^ n)

def execDxnVshl (c : Ctx) (body : BitVec 56) (s : State) : Out :=
  let w := dxnWord 0x2B body
  .next (s.vector c w (locksDAB w) (s.vShift c w elShl))

def execDxnVshr (c : Ctx) (body : BitVec 56) (s : State) : Out :=
  let w := dxnWord 0x2C body
  .next (s.vector c w (locksDAB w) (s.vShift c w elShr))

def execDxnVsra (c : Ctx) (body : BitVec 56) (s : State) : Out :=
  let w := dxnWord 0x2D body
  .next (s.vector c w (locksDAB w) (s.vShift c w elSra))

/-- A comparison of two elements of a type, and its flags. -/
def elCmp (t cond a b : Nat) : Bool × Flags :=
  if tyIsInt t then (intCmp (elBits t) cond a b, 0) else Fp.cmp cond ((tyFmt t).dec a) ((tyFmt t).dec b)

/-- All ones in the elements where the comparison holds, else zero. -/
def State.vCmp (s : State) (c : Ctx) (w : Nat) : BitVec 2048 × Flags × Nat :=
  let t := wT w
  let r := vElements t fun i =>
    let y := elCmp t (wM w % 8) (vEl t (s.vreg c (wA w)) i) (vEl t (s.vreg c (wB w)) i)
    (if y.1 then 2 ^ elBits t - 1 else 0, y.2)
  (r.1, r.2, 0)

def execDxnVcmp (c : Ctx) (body : BitVec 56) (s : State) : Out :=
  let w := dxnWord 0x2E body
  .next (s.vector c w (locksDAB w) (s.vCmp c w))

/-- The element of vA where that of vC is not zero, else that of vB. -/
def State.vSel (s : State) (c : Ctx) (w : Nat) : BitVec 2048 × Flags × Nat :=
  let t := wT w
  ((vElements t fun i =>
    (if vEl t (s.vreg c (wC w)) i ≠ 0 then vEl t (s.vreg c (wA w)) i else vEl t (s.vreg c (wB w)) i, 0)).1, 0, 0)

def execDxnVsel (c : Ctx) (body : BitVec 56) (s : State) : Out :=
  let w := dxnWord 0x2F body
  .next (s.vector c w (vLocks (some (wD w)) (some (wA w)) (some (wB w)) (some (wC w))) (s.vSel c w))

/-- One element converted between vector types (spec/04 R120 to R122). -/
def convertEl (t u : Nat) (sat : Bool) (r : Rnd) (v : Nat) : Nat × Flags :=
  if tyIsInt t then
    let i := signedOf (elBits t) v
    if tyIsInt u then (fitInt (elBits u) sat i, 0) else (tyFmt u).enc r (Fp.ofInt i)
  else
    let x := (tyFmt t).dec v
    if tyIsInt u then x.toInt r (elBits u)
    else let e := (tyFmt u).enc r x
      (e.1, snanFlags [x] ||| e.2)

/-- VCVT: elements of part p of the side with more elements (spec/05 R144); between a register of 256 and one of 128
elements a part is 128 elements (log entry 17). -/
def State.vConvert (s : State) (c : Ctx) (w : Nat) : BitVec 2048 × Flags × Nat :=
  let t := wT w
  let u := wM w % 16
  let p := wM w / 16 % 4
  let n := min (vCount t) (vCount u)
  let a := s.vreg c (wA w)
  let src := if vCount u < vCount t then p * n else 0
  let dst := if vCount t < vCount u then p * n else 0
  let r := elements n fun i => convertEl t u (wSAT w) ((s.ctx c).rounding (wSR w) i) (vEl t a (src + i))
  let old := vEls u (s.vreg c (wD w))
  (vMake u (old.take dst ++ r.1 ++ old.drop (dst + n)), r.2, if tyIsInt t ∧ tyIsInt u then 0 else n)

def execDxnVcvt (c : Ctx) (body : BitVec 56) (s : State) : Out :=
  let w := dxnWord 0x30 body
  .next (s.vector c w (vLocks (some (wD w)) (some (wA w)) none none) (s.vConvert c w))

/-- Every element the low bits of gA. -/
def State.vBcast (s : State) (c : Ctx) (w : Nat) : BitVec 2048 × Flags × Nat :=
  ((vElements (wT w) fun _ => (((s.ctx c).reg (wA w)).toNat % 2 ^ elBits (wT w), 0)).1, 0, 0)

def execDxnVbcast (c : Ctx) (body : BitVec 56) (s : State) : Out :=
  let w := dxnWord 0x31 body
  .next (s.vector c w (vLocks (some (wD w)) none none none) (s.vBcast c w))

/-- An element as a g register holds it: integers sign-extended, floating values zero-extended. -/
def elWord (t v : Nat) : Word :=
  BitVec.ofNat 64 (if tyIsInt t then wrapInt 64 (signedOf (elBits t) v) else v)

def execDxnVext (c : Ctx) (body : BitVec 56) (s : State) : Out :=
  let w := dxnWord 0x32 body
  let t := wT w
  .next (s.issue c w [lockV (wA w)] false fun s x =>
    .go (s.setCtx c (x.setReg (wD w) (elWord t (vEl t (s.vreg c (wA w)) ((x.reg (wB w)).toNat % vCount t))))))

/-- vD with one element from gA. -/
def State.vInsert (s : State) (c : Ctx) (w : Nat) : BitVec 2048 × Flags × Nat :=
  let t := wT w
  let x := s.ctx c
  (vMake t ((vEls t (s.vreg c (wD w))).set ((x.reg (wB w)).toNat % vCount t) ((x.reg (wA w)).toNat % 2 ^ elBits t)), 0, 0)

def execDxnVins (c : Ctx) (body : BitVec 56) (s : State) : Out :=
  let w := dxnWord 0x33 body
  .next (s.vector c w (vLocks (some (wD w)) none none none) (s.vInsert c w))

/-- The reduction of 64 values: the exact sum rounded once, or the minimum or maximum (spec/05 R145). -/
def redFp (op : Nat) : List Fp → Fp × Flags
  | [] => (.fin false 0 0, 0)
  | a :: l => l.foldl (fun r y =>
    let z := if op = 0 then r.1.add y else r.1.minNum (op == 2) y
    (z.1, r.2 ||| z.2)) (a, 0)

/-- The reduction of integers, before it is cut or saturated. -/
def redInt (op : Nat) : List Int → Int
  | [] => 0
  | a :: l => l.foldl (fun r y => if op = 0 then r + y else if op = 1 then min r y else max r y) a

/-- VRED: the integer or floating reduction of vA in gD. -/
def State.vReduce (s : State) (c : Ctx) (w : Nat) : Context :=
  let op := wM w % 4
  let x := s.ctx c
  let l := vEls (wT w) (s.vreg c (wA w))
  if wT w = 1 then x.setReg (wD w) (scPut 1 (fitInt 32 (wSAT w) (redInt op (l.map (signedOf 32)))))
  else
    let r := redFp op (l.map fmtFP32.dec)
    let e := fmtFP32.enc (if op = 0 then x.rounding (wSR w) 0 else .rne) r.1
    ((x.setReg (wD w) (BitVec.ofNat 64 e.1)).addFlags (r.2 ||| e.2)).afterRoundings (wSR w && op == 0) 1

def execDxnVred (c : Ctx) (body : BitVec 56) (s : State) : Out :=
  let w := dxnWord 0x34 body
  .next (s.issue c w [lockV (wA w)] false fun s _ => .go (s.setCtx c (s.vReduce c w)))

def execDxnVrand (c : Ctx) (body : BitVec 56) (s : State) : Out :=
  let w := dxnWord 0x35 body
  .next (s.issue c w [lockV (wD w)] false fun s x =>
    let v := BitVec.ofNat 2048 ((List.range 16).foldr (fun k a => a * 2 ^ 128 + x.genStep k) 0)
    .go ((s.setV c (wD w) v).setCtx c (x.genAdvance 16)))

end Sys2Proof.Machine
end

