-- ==== Sys2Proof/Machine/Tile.lean ====
section
/-! DEFINITION. The tile and matrix group (spec/05 R146 to R148, Table 5.5; spec/10 R303, R304). -/

namespace Sys2Proof.Machine

/-- A full tile of a type: element codes and, for MX, scales. Beyond the elements of a narrower type that is not MX, the
bytes are free (log entry 18). -/
def State.putTile (s : State) (c : Ctx) (d t : Nat) (codes scales : List Nat) : State :=
  let x := tMake t codes scales
  if tyMx t ∨ elBits t = 32 then s.setT c d x
  else
    let n := elBits t * 1024
    let rest := (Config.freeTile s.free).toNat / 2 ^ n * 2 ^ n
    { s with free := s.free + 1 }.setT c d (BitVec.ofNat 32768 (x.toNat % 2 ^ n + rest))

/-- Element i of a tile widened to an accumulator lane: floating and MX types to binary32, INT8 to INT32. -/
def widenEl (t : Nat) (x : BitVec 32768) (i : Nat) : Nat × Flags :=
  if t = 0 then (wrapInt 32 (signedOf 8 (tCode t x i)), 0)
  else
    let v := tFp t x i
    let e := fmtFP32.enc .rne v
    (e.1, snanFlags [v] ||| e.2)

/-- 32 values as a row of an MX type: codes, scale, flags. Element i rounds with number `first + i`. -/
def mxRow (x : Context) (t : Nat) (sr : Bool) (first : Nat) (l : List Fp) : List Nat × Nat × Flags :=
  let b := (tyMxFmt t).block (fun i => x.rounding sr (first + i)) l
  (b.2.1, b.1, b.2.2)

/-- A value as an E8M0 scale, and its flags. What a value that no scale equals becomes is free, and inexact (log entry 80). -/
def encodeScale (v : Fp) : Nat × Flags :=
  let code := match v with
    | .nan _ => 255
    | .inf neg => (Config.scaleCode true neg 0 0).toNat
    | .fin neg m e =>
      let k := e + (Nat.log2 m : Int) + 127
      if neg = false ∧ m = 2 ^ Nat.log2 m ∧ 0 ≤ k ∧ k < 255 then k.toNat else (Config.scaleCode false neg m e).toNat
  let exact := match v, scaleFp code with
    | .nan _, .nan _ => true
    | .fin false m e, .fin _ n f => decide (m ≠ 0 ∧ m = n * 2 ^ Nat.log2 m ∧ e + (Nat.log2 m : Int) = f)
    | _, _ => false
  (code, snanFlags [v] ||| if exact then 0 else flInexact)

/-- A row of values as element codes of a type: codes, scale (for MX), flags. -/
def encodeRow (x : Context) (t : Nat) (sr : Bool) (first : Nat) (l : List Fp) : List Nat × Nat × Flags :=
  if tyMx t then mxRow x t sr first l
  else
    let r := l.zipIdx.map fun (v, i) =>
      if t = 0 then v.toInt (x.rounding sr (first + i)) 8
      else if t = 12 then encodeScale v
      else let e := (tyFmt t).enc (x.rounding sr (first + i)) v
        (e.1, snanFlags [v] ||| e.2)
    (r.map Prod.fst, 0, r.foldl (fun a y => a ||| y.2) 0)

/-- A whole tile of 1,024 values as codes and scales of a type. -/
def encodeTile (x : Context) (t : Nat) (sr : Bool) (l : List Fp) : List Nat × List Nat × Flags :=
  let rows := (List.range 32).map fun r => encodeRow x t sr (32 * r) ((l.drop (32 * r)).take 32)
  (rows.flatMap Prod.fst, rows.map fun r => r.2.1, rows.foldl (fun a r => a ||| r.2.2) 0)

/-! ## Multiplication (spec/04 R119) -/

/-- The exact sum of products along the reduction dimension. -/
def dotFp (p : List (Fp × Fp)) : Fp × Flags :=
  redFp 0 (p.map fun y => (y.1.mul y.2).1) |> fun r => (r.1, p.foldl (fun a y => a ||| (y.1.mul y.2).2) r.2)

/-- Element (i, j) of a product added to its accumulator lane. `a k` and `b k` are the operands along the reduction
dimension; FP32 rounds once a product and numbers its roundings from `32 × element`. -/
def mmaEl (x : Context) (t u : Nat) (sr sat : Bool) (ta tb : BitVec 32768) (acc n : Nat) : Nat × Flags :=
  let i := n / 32
  let j := n % 32
  if t = 0 then
    let d := (List.range 32).foldl (fun z k =>
      z + signedOf 8 (tCode 0 ta (32 * i + k)) * signedOf 8 (tCode 0 tb (32 * j + k))) 0
    (fitInt 32 sat (signedOf 32 acc + d), 0)
  else if t = 5 then
    (List.range 32).foldl (fun z k =>
      let y := Fp.fma (tFp 5 ta (32 * i + k)) (tFp 5 tb (32 * j + k)) (fmtFP32.dec z.1)
      let e := fmtFP32.enc (x.rounding sr (32 * n + k)) y.1
      (e.1, z.2 ||| y.2 ||| e.2)) (acc, 0)
  else
    let d := dotFp ((List.range 32).map fun k => (tFp t ta (32 * i + k), tFp u tb (32 * j + k)))
    let y := (fmtFP32.dec acc).add d.1
    let e := fmtFP32.enc (x.rounding sr n) y.1
    (e.1, d.2 ||| y.2 ||| e.2)

/-- Cycles of an MMA at full pace (spec/05 Table 5.6): of the wider element of two MX types. -/
def mmaCycles (t u : Nat) : Nat :=
  if t = 5 then 512 else if t = 3 ∨ t = 4 then 128
  else if t = 0 ∨ t = 7 ∨ t = 8 ∨ u = 7 ∨ u = 8 then 64 else 32

/-- The present pace of section k of a quadrant (spec/10 R307). -/
def State.paceOf (s : State) (q k : Nat) : Nat := s.fld (R.TEN_PACE q) ⟨8 * k, 7⟩

/-- MMA occupies the matrix unit for ceil(N × 64 / P) cycles; pacing adds those beyond N (spec/10 R307). -/
def State.countMma (s : State) (c : Ctx) (t u : Nat) : State :=
  let n := mmaCycles t u
  let p := match c with
    | .t q _ col _ => s.paceOf q (col.val / 8)
    | _ => 64
  let m := ceilDiv (n * 64) (max 1 p)
  (s.countBy (ctrTenon (tenonOf c) 1) m).countBy (ctrTenon (tenonOf c) 2) (m - n)

/-- MMA issues: tA, tB and the generator are read at issue, aD is locked, and takes its value at completion. -/
def execDxnMma (c : Ctx) (body : BitVec 56) (s : State) : Out :=
  let w := dxnWord 0x40 body
  let t := wT w
  let u := if wM w % 16 = 0 then t else wM w % 16
  .next (s.issue c w [lockA (wD w), lockT (wA w), lockT (wB w)] true fun s x =>
    let ta := s.treg c (wA w)
    let tb := s.treg c (wB w)
    let old := if bitOf (wM w) 4 then 0 else s.areg c (wD w)
    let r := elements 1024 fun n => mmaEl x t u (wSR w) (wSAT w) ta tb (aEl old n) n
    let x := x.afterRoundings (wSR w && t != 0) (if t = 5 then 32768 else 1024)
    .go (((s.setCtx c x).countMma c t u).addLong c (.areg (wD w) (aMake r.1) r.2) [lockA (wD w)]))

/-! ## Short tile instructions -/

def execDxnAzero (c : Ctx) (body : BitVec 56) (s : State) : Out :=
  let w := dxnWord 0x41 body
  .next (s.issue c w [lockA (wD w)] false fun s _ => .go (s.setA c (wD w) 0))

def execDxnAload (c : Ctx) (body : BitVec 56) (s : State) : Out :=
  let w := dxnWord 0x42 body
  .next (s.issue c w [lockA (wD w), lockT (wA w)] false fun s x =>
    let r := elements 1024 (widenEl (wT w) (s.treg c (wA w)))
    .go ((s.setA c (wD w) (aMake r.1)).setCtx c (x.addFlags r.2)))

def execDxnAcvt (c : Ctx) (body : BitVec 56) (s : State) : Out :=
  let w := dxnWord 0x43 body
  let t := wT w
  .next (s.issue c w [lockT (wD w), lockA (wA w)] false fun s x =>
    let a := s.areg c (wA w)
    if t = 0 then
      .go (s.putTile c (wD w) 0 ((List.range 1024).map fun i => fitInt 8 (wSAT w) (signedOf 32 (aEl a i))) [])
    else
      let r := encodeTile x t (wSR w) ((List.range 1024).map fun i => fmtFP32.dec (aEl a i))
      let x := (x.addFlags r.2.2).afterRoundings (wSR w) 1024
      .go ((s.putTile c (wD w) t r.1 r.2.1).setCtx c x))

/-- 32 lanes below, zero above. -/
def lanes32 (l : List Nat) : BitVec 2048 := BitVec.ofNat 2048 (l.foldr (fun x a => a * 2 ^ 32 + x % 2 ^ 32) 0)

/-- The row number in gB[4:0]. -/
def rowOf (x : Context) (w : Nat) : Nat := (x.reg (wB w)).toNat % 32

def execDxnTrd (c : Ctx) (body : BitVec 56) (s : State) : Out :=
  let w := dxnWord 0x44 body
  .next (s.issue c w [lockV (wD w), lockT (wA w)] false fun s x =>
    let r := elements 32 fun i => widenEl (wT w) (s.treg c (wA w)) (32 * rowOf x w + i)
    .go ((s.setV c (wD w) (lanes32 r.1)).setCtx c (x.addFlags r.2)))

/-- A list with n entries from position i replaced. -/
def replaceAt {α : Type} (l : List α) (i : Nat) (x : List α) : List α := l.take i ++ x ++ l.drop (i + x.length)

def execDxnTwr (c : Ctx) (body : BitVec 56) (s : State) : Out :=
  let w := dxnWord 0x45 body
  let t := wT w
  .next (s.issue c w [lockT (wD w), lockV (wA w)] false fun s x =>
    let v := s.vreg c (wA w)
    let d := s.treg c (wD w)
    let row := rowOf x w
    let r : List Nat × Nat × Flags :=
      if t = 0 then ((List.range 32).map fun i => fitInt 8 false (signedOf 32 (vEl 1 v i)), 0, 0)
      else encodeRow x t false 0 ((List.range 32).map fun i => fmtFP32.dec (vEl 1 v i))
    let x := x.addFlags r.2.2
    if tyMx t then
      let codes := replaceAt ((List.range 1024).map (tCode t d)) (32 * row) r.1
      let scales := ((List.range 32).map (tScale d)).set row r.2.1
      .go ((s.setT c (wD w) (tMake t codes scales)).setCtx c x)
    else
      let lo := elBits t * 32 * row
      let n := elBits t * 32
      let seg := r.1.foldr (fun y a => a * 2 ^ elBits t + y % 2 ^ elBits t) 0
      let b := d.toNat
      .go ((s.setT c (wD w) (BitVec.ofNat 32768 (b % 2 ^ lo + seg * 2 ^ lo + b / 2 ^ (lo + n) * 2 ^ (lo + n)))).setCtx c x))

def execDxnArd (c : Ctx) (body : BitVec 56) (s : State) : Out :=
  let w := dxnWord 0x46 body
  .next (s.issue c w [lockV (wD w), lockA (wA w)] false fun s x =>
    .go (s.setV c (wD w) (lanes32 ((List.range 32).map fun i => aEl (s.areg c (wA w)) (32 * rowOf x w + i)))))

def execDxnAwr (c : Ctx) (body : BitVec 56) (s : State) : Out :=
  let w := dxnWord 0x47 body
  .next (s.issue c w [lockA (wD w), lockV (wA w)] false fun s x =>
    let l := replaceAt ((List.range 1024).map (aEl (s.areg c (wD w)))) (32 * rowOf x w)
      ((List.range 32).map (vEl 1 (s.vreg c (wA w))))
    .go (s.setA c (wD w) (aMake l)))

def execDxnTtrans (c : Ctx) (body : BitVec 56) (s : State) : Out :=
  let w := dxnWord 0x48 body
  let t := wT w
  .next (s.issue c w [lockT (wD w), lockT (wA w)] false fun s _ =>
    .go (s.putTile c (wD w) t
      ((List.range 1024).map fun n => tCode t (s.treg c (wA w)) (32 * (n % 32) + n / 32)) []))

def execDxnTcvt (c : Ctx) (body : BitVec 56) (s : State) : Out :=
  let w := dxnWord 0x49 body
  let t := wT w
  let u := wM w % 16
  .next (s.issue c w [lockT (wD w), lockT (wA w)] false fun s x =>
    let a := s.treg c (wA w)
    if t = 0 ∧ u = 0 then .go (s.putTile c (wD w) 0 ((List.range 1024).map (tCode 0 a)) [])
    else
      let val (i : Nat) : Fp := if t = 0 then Fp.ofInt (signedOf 8 (tCode 0 a i)) else tFp t a i
      let r := encodeTile x u (wSR w) ((List.range 1024).map val)
      let x := (x.addFlags r.2.2).afterRoundings (wSR w) 1024
      .go ((s.putTile c (wD w) u r.1 r.2.1).setCtx c x))

def execDxnTzero (c : Ctx) (body : BitVec 56) (s : State) : Out :=
  let w := dxnWord 0x4A body
  .next (s.issue c w [lockT (wD w)] false fun s _ => .go (s.setT c (wD w) 0))

/-- The code of ±1 in a tile type; MX rows have scale 0x7F. -/
def oneCode (t : Nat) (neg : Bool) : Nat :=
  if t = 0 then wrapInt 8 (if neg then -1 else 1)
  else ((if tyMx t then (tyMxFmt t).fmt else tyFmt t).enc .rne (.fin neg 1 0)).1

/-- The sign of element n of a projection tile (spec/05 R148). -/
def tgenBit (key ctr n : Nat) : Bool :=
  bitOf (philox key ((ctr + n / 128) % 2 ^ 128) / 2 ^ (32 * (n % 128 / 32))) (n % 32)

def execDxnTgen (c : Ctx) (body : BitVec 56) (s : State) : Out :=
  let w := dxnWord 0x4B body
  let t := wT w
  .next (s.issue c w [lockT (wD w)] false fun s x =>
    let key := (x.reg (wA w)).toNat
    let ctr := (x.reg (wB w)).toNat * 2 ^ 64 + (x.reg (wC w)).toNat
    .go (s.putTile c (wD w) t ((List.range 1024).map fun n => oneCode t (tgenBit key ctr n)) (List.replicate 32 0x7F)))

end Sys2Proof.Machine
end

