-- ==== Sys2Proof/Machine/Stream.lean ====
section
/-! DEFINITION. The stream group and the stream ports (spec/04 R106, R107; spec/05 R150, R151; spec/10 R289 to R291). -/

namespace Sys2Proof.Machine

/-- The key of port p of a tenon. -/
def portKey (tenon p : Nat) : Nat := 4 * tenon + p

/-- A stream port. -/
def State.stream (s : State) (k : Nat) : StreamPort := sget {} s.dxn.streams k
/-- A stream port takes a value. -/
def State.setStream (s : State) (k : Nat) (x : StreamPort) : State :=
  { s with dxn.streams := sset {} s.dxn.streams k x }

/-- The port that a long operation sends on, as a port key. -/
def LongOp.sendKey (o : LongOp) : Option Nat := match o.kind with
  | .send p _ | .sendm p _ _ => some (portKey (tenonOf o.ctx) p)
  | _ => none

/-- The port that a long operation receives on. -/
def LongOp.recvKey (o : LongOp) : Option Nat := match o.kind with
  | .recv p _ | .recvm p _ _ => some (portKey (tenonOf o.ctx) p)
  | _ => none

/-- Outstanding sends on a port, oldest first, whichever context issued them (spec/05 R151). -/
def State.sendsOn (s : State) (k : Nat) : List LongOp := s.dxn.longOps.filter fun o => o.sendKey == some k

/-- Outstanding receives on a port, oldest first. -/
def State.recvsOn (s : State) (k : Nat) : List LongOp := s.dxn.longOps.filter fun o => o.recvKey == some k

/-- The index of the tenon and port that port p of a tenon faces; none at the edge of the grid (spec/04 R106). -/
def facing (q row col p : Nat) : Option Nat := match p with
  | 0 => if row = 0 then none else some (portKey (tenonIx q (row - 1) col) 2)
  | 1 => if 31 ≤ col then none else some (portKey (tenonIx q row (col + 1)) 3)
  | 2 => if 29 ≤ row then none else some (portKey (tenonIx q (row + 1) col) 0)
  | _ => if col = 0 then none else some (portKey (tenonIx q row (col - 1)) 1)

/-- A DMA stream; it is spent once all its tiles have passed and it does not wrap. -/
def State.dma (s : State) (k : Nat) : DmaStream :=
  sget { tenonPort := 0, inbound := true, addr := 0, tiles := 0, truss := 0 } s.ten.streams k

/-- Whether a DMA stream has passed its last tile (spec/10 R291). -/
def DmaStream.spent (d : DmaStream) : Bool := !d.wrap && decide (d.tiles ≤ d.done)

/-- Whether a port is usable: bound, and not left as unbound by a spent DMA stream. A spent inbound stream leaves the
port usable while its buffer holds a tile that no receive has claimed (log entry 19). -/
def State.portUsable (s : State) (k : Nat) : Bool :=
  match (s.stream k).bound with
  | none => false
  | some (.dma d) =>
    let x := s.dma d
    !x.spent || (x.inbound && decide ((s.recvsOn k).length < (s.stream k).rx.length))
  | some _ => true

/-- A send issues when its port is usable and has fewer than two outstanding (spec/04 R107). -/
def State.issueSend (s : State) (c : Ctx) (p : Nat) (kind : LongKind) : Res :=
  let k := portKey (tenonOf c) p
  if s.portUsable k = false then .fault s 0xC 0
  else if 2 ≤ (s.sendsOn k).length then .stall
  else .go (s.addLong c kind [])

def execDxnSend (c : Ctx) (body : BitVec 56) (s : State) : Out :=
  let w := dxnWord 0x60 body
  .next (s.issue c w [lockT (wA w)] true fun s _ =>
    s.issueSend c (wD w) (.send (wD w) (tileBytes (s.treg c (wA w)))))

/-- A receive issues when its port is usable. -/
def State.issueRecv (s : State) (c : Ctx) (p : Nat) (kind : LongKind) (locks : List Lock) : Res :=
  if s.portUsable (portKey (tenonOf c) p) = false then .fault s 0xC 0 else .go (s.addLong c kind locks)

def execDxnRecv (c : Ctx) (body : BitVec 56) (s : State) : Out :=
  let w := dxnWord 0x61 body
  .next (s.issue c w [lockT (wD w)] true fun s _ => s.issueRecv c (wA w) (.recv (wA w) (wD w)) [lockT (wD w)])

def execDxnSendm (c : Ctx) (body : BitVec 56) (s : State) : Out :=
  let w := dxnWord 0x62 body
  .next (s.issue c w [] true fun s x =>
    let a := mAddr x w
    match s.memFault c (iT w) a 4096 64 false with
    | some e => .fault s e (BitVec.ofNat 64 a)
    | none => s.issueSend c (wD w) (.sendm (wD w) (iT w) (BitVec.ofNat 64 a)))

def execDxnRecvm (c : Ctx) (body : BitVec 56) (s : State) : Out :=
  let w := dxnWord 0x63 body
  .next (s.issue c w [] true fun s x =>
    let a := mAddr x w
    match s.memFault c (iT w) a 4096 64 true with
    | some e => .fault s e (BitVec.ofNat 64 a)
    | none => s.issueRecv c (wD w) (.recvm (wD w) (iT w) (BitVec.ofNat 64 a)) [])

def execDxnSpoll (c : Ctx) (body : BitVec 56) (s : State) : Out :=
  let w := dxnWord 0x64 body
  .next (s.issue c w [] false fun s x =>
    let k := portKey (tenonOf c) (wA w)
    if s.portUsable k = false then .fault s 0xC 0
    else .go (s.setCtx c (x.setPred (wD w) (decide ((s.recvsOn k).length < (s.stream k).rx.length)))))

/-- The oldest send on a port gives its tile: the state after its read, and the tile unless the read is poisoned, in
which case the send fails with MEMORY. -/
def State.takeSend (s : State) (k : Nat) : State × Option Bytes :=
  match s.sendsOn k with
  | [] => (s, none)
  | o :: _ => match o.kind with
    | .send _ t => (s.completeLong o, some t)
    | .sendm _ sp a =>
      let (s, b) := s.spaceRead o.ctx sp a.toNat 4096 .failed []
      match b with
      | some t => (s.completeLong o, some t)
      | none => (s.failLongMem o, none)
    | _ => (s, none)

/-- The engine's end of a channel takes the tile of the oldest send on the tail port while its buffer of two has room (spec/10
R290). -/
def State.channelTake (s : State) (e ch k : Nat) : State :=
  if 2 ≤ (s.channel e ch).outbound.length then s
  else match s.takeSend k with
    | (s, some t) => s.setChannel e ch { s.channel e ch with outbound := (s.channel e ch).outbound ++ [t] }
    | (s, none) => s

/-- A tile reaches a port's receive buffer, which has room for two: from the facing port's oldest send, which completes,
or from the channel bound to the port; from a tail port it reaches the engine's end (spec/04 R107, spec/10 R290). -/
def execStreamTileArrival (q : Fin 4) (row : Fin 30) (col : Fin 32) (port : Fin 4) (s : State) : Out :=
  let k := portKey (tenonIx q row col) port
  let x := s.stream k
  if 2 ≤ x.rx.length then .next s
  else match x.bound with
    | some .neighbour => match facing q row col port with
      | none => .next s
      | some f =>
        let (s, t) := s.takeSend f
        match t with
        | none => .next s
        | some t => .next (s.setStream k { s.stream k with rx := (s.stream k).rx ++ [t] })
    | some (.channelIn e ch) =>
      let y := s.channel e ch
      match y.inbound with
      | [] => .next s
      | t :: rest =>
        let s := s.setChannel e ch (Channel.fill 2 { y with inbound := rest })
        .next (s.setStream k { x with rx := x.rx ++ [t] })
    | some (.channelOut e ch) => .next (s.channelTake e ch k)
    | _ => .next s

end Sys2Proof.Machine
end

