-- ==== Sys2Proof/Machine/Peg.lean ====
section
/-! DEFINITION. The peg and synchronisation group, waits, and far pegs (spec/04 R101, R108 to R114; spec/05 R152; spec/07
R217, R218). -/

namespace Sys2Proof.Machine

/-- The word of PEG with an operation code and its low 52 bits. -/
def pegWord (op : Nat) (body : BitVec 52) : Nat := 0x70 * 2 ^ 56 + op * 2 ^ 52 + body.toNat

/-- The value v of a peg operation (spec/04 Table 4.6). -/
def pegValue (x : Context) (w : Nat) : Word :=
  if pScope w / 4 % 2 = 1 then x.reg (iImm w) else BitVec.ofNat 64 (iImm w)

/-- A peg number as fault information. -/
def pegInfo (p : Nat) : Word := BitVec.ofNat 64 p

/-- Whether a long operation of a context that writes memory is outstanding (spec/04 R103). -/
def State.writesPending (s : State) (c : Ctx) : Bool := (s.opsOf c).any fun o => o.kind.writesMem

/-! ## Far pegs: the requester (spec/04 R114) -/

/-- The sequence of a far operation through register f of a context. -/
def LongOp.farSeq (o : LongOp) (c : Ctx) (f : Nat) : Option (BitVec 32) := match o.kind with
  | .farPeg k _ q _ _ _ _ _ => if o.ctx = c ∧ k = f then some q else none
  | _ => none

/-- Sequences outstanding through register f of a context, oldest first. -/
def State.farOutstanding (s : State) (c : Ctx) (f : Nat) : List (BitVec 32) :=
  s.dxn.longOps.filterMap fun o => o.farSeq c f

/-- The request of a far operation. -/
def State.farRequest (s : State) (o : LongOp) : Option (Nat × FarMsg) := match o.kind with
  | .farPeg f target seq peg set value _ _ =>
    some (target.toNat,
      { kind := 1, slot := f, sender := s.identity.toNat, agent := profileOf o.ctx, who := whoOf o.ctx,
        domain := (s.ctx o.ctx).domain.toNat, peg := peg.toNat, seq := seq.toNat, op := b2n set, result := 0,
        value := value.toNat, oldest := ((s.farOutstanding o.ctx f).headD seq).toNat,
        incarnation := (s.ctx o.ctx).incarnation.toNat })
  | _ => none

/-- The request of a far operation is sent. -/
def State.sendRequest (s : State) (o : LongOp) : State := match s.farRequest o with
  | some (t, m) => s.sendFar t m
  | none => s

/-- A far request at its target is applied only to pegs from 1024 that its domain may use; the RESULT of its
acknowledgement (spec/04 R114; spec/07 Table 7.12). -/
def State.applyFar (s : State) (domain peg : Nat) (set : Bool) (value : Word) : Nat × State :=
  if peg < 1024 then (2, s)
  else if domain ≠ 0 ∧ (s.pegDom peg).toNat ≠ domain then (1, s)
  else (0, if set then s.setPeg peg value else s.addPeg peg value)

/-- A far ADD or SET issues as a long operation: to 0, or while FWD_FAR_PREFIX is 0, it raises FAR_PEG_REFUSED; to the
module itself it is applied at once, and its acknowledgement is known. -/
def State.issueFar (s : State) (c : Ctx) (x : Context) (w : Nat) (set : Bool) : Res :=
  let f := pScope w % 4
  let target := sget 0 x.far f
  let peg := pPeg w
  let v := pegValue x w
  if target = 0 ∨ s.rd R.FWD_FAR_PREFIX = 0 then .fault s 0xB (pegInfo peg)
  else if (longLimit c ≤ (s.opsOf c).length) || s.writesPending c then .stall
  else
    let seq := sget 0 x.farSeq f + 1
    let s := s.setCtx c { x with farSeq := sset 0 x.farSeq f seq }
    if target = s.identity then
      let r := s.applyFar x.domain.toNat peg set v
      .go (r.2.addLong c (.farPeg f target seq (BitVec.ofNat 16 peg) set v 0 (some r.1)) [])
    else
      let s := s.addLong c (.farPeg f target seq (BitVec.ofNat 16 peg) set v 0 none) []
      match s.dxn.longOps.getLast? with
      | some o => .go (s.sendRequest o)
      | none => .go s

/-- A local or far ADD or SET (spec/04 R103, R108, R110). -/
def State.pegWrite (s : State) (c : Ctx) (w : Nat) (set : Bool) : State :=
  s.issue c w [] false fun s x =>
    if 8 ≤ pScope w then s.issueFar c x w set
    else if s.ctxPegOk c (pPeg w) = false then .fault s 8 (pegInfo (pPeg w))
    else if s.writesPending c then .stall
    else .go (if set then s.setPeg (pPeg w) (pegValue x w) else s.addPeg (pPeg w) (pegValue x w))

def execDxnPegAdd (c : Ctx) (body : BitVec 52) (s : State) : Out := .next (s.pegWrite c (pegWord 0 body) false)

def execDxnPegSet (c : Ctx) (body : BitVec 52) (s : State) : Out := .next (s.pegWrite c (pegWord 1 body) true)

/-! ## Waits (spec/04 R110, R112) -/

/-- Whether a timeout is armed, and in continue mode. -/
def continueMode (t : BitVec 32) : Bool := t.getLsbD 31 && t.toNat % 2 ^ 31 != 0

/-- A wait ends with an outcome that p7 receives in continue mode. -/
def Context.waitEnds (x : Context) (t : BitVec 32) (ok : Bool) : Context :=
  if continueMode t then x.setPred 7 ok else x

/-- A wait is evaluated at issue; unsatisfied, the context waits for an operation on the peg, its PC at the next
instruction. -/
def State.pegWait (s : State) (c : Ctx) (w : Nat) (eq : Bool) : State :=
  s.issue c w [] false fun s x =>
    let p := pPeg w
    if s.ctxPegOk c p = false then .fault s 8 (pegInfo p)
    else
      let k : PegWait := { peg := p, value := pegValue x w, eq := eq, timer := x.timeout }
      if waitHolds k (s.peg p) then .go (s.setCtx c (x.waitEnds x.timeout true))
      else .go (s.setCtx c { x with status := .waiting, wait := some k })

def execDxnPegWaitGe (c : Ctx) (body : BitVec 52) (s : State) : Out := .next (s.pegWait c (pegWord 2 body) false)

def execDxnPegWaitEq (c : Ctx) (body : BitVec 52) (s : State) : Out := .next (s.pegWait c (pegWord 3 body) true)

def execDxnPegArmTimeout (c : Ctx) (body : BitVec 52) (s : State) : Out :=
  let w := pegWord 4 body
  .next (s.issue c w [] false fun s x =>
    .go (s.setCtx c { x with timeout := BitVec.ofNat 32 (pegValue x w).toNat }))

/-- A waiting context resumes with an outcome and fetches its next instruction. -/
def State.resume (s : State) (c : Ctx) (k : PegWait) (ok : Bool) : State :=
  let x := s.ctx c
  (s.setCtx c { (x.waitEnds k.timer ok) with status := .running, wait := none }).fetchCheck c

/-- A value that satisfied the wait has been seen, and the context resumes. -/
def execPegWaitSatisfied (c : Ctx) (s : State) : Out :=
  match (s.ctx c).wait with
  | some k => if (s.ctx c).status = .waiting ∧ k.hit then .next (s.resume c k true) else .next s
  | none => .next s

/-- The timer of a wait expires; a satisfaction at the same instant prevails (spec/04 R113). -/
def execPegWaitTimeout (c : Ctx) (s : State) : Out :=
  match (s.ctx c).wait with
  | some k =>
    if (s.ctx c).status ≠ .waiting ∨ k.hit ∨ k.timer.toNat % 2 ^ 31 = 0 then .next s
    else if continueMode k.timer then .next (s.resume c k false)
    else .next (s.except c 9 ((s.ctx c).pc - 1) (pegInfo k.peg))
  | none => .next s

/-! ## BIND, FARSET, FENCE, PEGRD -/

def execDxnBind (c : Ctx) (body : BitVec 56) (s : State) : Out :=
  let w := dxnWord 0x71 body
  .next (s.issue c w [] false fun s x =>
    let p := iImm w
    if iM w = 0 then .go (s.setCtx c { x with bindOn := false, bindPeg := 0 })
    else if s.ctxPegOk c p = false then .fault s 8 (pegInfo p)
    else .go (s.setCtx c { x with bindOn := true, bindPeg := BitVec.ofNat 16 p }))

def execDxnFarset (c : Ctx) (body : BitVec 56) (s : State) : Out :=
  let w := dxnWord 0x72 body
  .next (s.issue c w [] false fun s x =>
    if (s.farOutstanding c (wD w)).isEmpty then .go (s.setCtx c { x with far := sset 0 x.far (wD w) (x.reg (wA w)) })
    else .stall)

def execDxnFence (c : Ctx) (body : BitVec 56) (s : State) : Out :=
  .next (s.issue c (dxnWord 0x73 body) [] false fun s _ => if (s.opsOf c).isEmpty then .go s else .stall)

def execDxnPegrd (c : Ctx) (body : BitVec 56) (s : State) : Out :=
  let w := dxnWord 0x74 body
  .next (s.issue c w [] false fun s x =>
    if s.ctxPegOk c (iImm w) = false then .fault s 8 (pegInfo (iImm w))
    else .go (s.setCtx c (x.setReg (wD w) (s.peg (iImm w)))))

/-! ## Far pegs: acknowledgements and retries -/

/-- What an acknowledgement's RESULT does to the requester's operation: applied now or before completes it; refused now or
before fails it; busy and deferred count as absent. -/
def State.farResult (s : State) (o : LongOp) (peg result : Nat) : State :=
  if result = 0 ∨ result = 3 then s.completeLong o
  else if result = 1 ∨ result = 2 ∨ result = 6 then s.failLong o 0xB (pegInfo peg)
  else s

/-- The outstanding operation that an acknowledgement names. -/
def State.farOp? (s : State) (m : FarMsg) : Option LongOp :=
  s.dxn.longOps.find? fun o => match o.kind with
    | .farPeg f _ q _ _ _ _ out =>
      out.isNone && f == m.slot && q.toNat == m.seq && profileOf o.ctx == m.agent && whoOf o.ctx == m.who &&
        (s.ctx o.ctx).incarnation.toNat == m.incarnation
    | _ => false

/-- An acknowledgement at its requester. -/
def State.farAck (s : State) (m : FarMsg) : State :=
  if m.sender ≠ s.identity.toNat then s
  else match s.farOp? m with
    | some o => s.farResult o m.peg m.result
    | none => s

/-- RETRY_TIME passes without an acknowledgement: the request is sent again, or after RETRIES fails with FAR_PEG_LOST. -/
def execFarPegRetry (op : Nat) (s : State) : Out :=
  match s.longOp? op with
  | none => .next s
  | some o => match o.kind with
    | .farPeg f t q p set v tries none =>
      if tries < s.fld R.CMD_FAR_CTRL F.CMD_FAR_CTRL_RETRIES then
        .next ((s.updLong op fun o => { o with kind := .farPeg f t q p set v (tries + 1) none }).sendRequest o)
      else .next (s.failLong o 0xA (pegInfo p.toNat))
    | _ => .next s

/-! ## Far pegs: the target (spec/07 R218) -/

/-- A difference modulo 2^32. -/
def diff32 (a b : Nat) : Nat := (a + 2 ^ 32 - b) % 2 ^ 32

/-- Whether a stream entry is that of a message's requester. -/
def FarStream.isOf (e : FarStream) (m : FarMsg) : Bool :=
  e.sender.toNat == m.sender && e.agent.toNat == m.agent && e.who.toNat == m.who && e.slot == m.slot

/-- An entry as a first contact makes it: H := OLDEST − 1. -/
def FarMsg.entry (m : FarMsg) (now : Nat) : FarStream :=
  { sender := BitVec.ofNat 64 m.sender, agent := BitVec.ofNat 4 m.agent, who := BitVec.ofNat 16 m.who, slot := m.slot,
    incarnation := BitVec.ofNat 32 m.incarnation, h := BitVec.ofNat 32 (diff32 m.oldest 1), lastAt := now }

/-- Ten seconds in nanoseconds. -/
def tenSeconds : Nat := 10000000000

/-- Room for a new entry: the table holds 16,384, and an entry idle for 10 s may be evicted. -/
def State.farRoom (s : State) : Option State :=
  if s.fwd.farStreams.length < 16384 then some s
  else match s.fwd.farStreams.findIdx? fun e => decide (e.lastAt + tenSeconds ≤ s.mono) with
    | some i => some { s with fwd.farStreams := s.fwd.farStreams.eraseIdx i }
    | none => none

/-- An entry takes its place in the table. -/
def State.putFarStream (s : State) (m : FarMsg) (e : FarStream) : State :=
  { s with fwd.farStreams := (s.fwd.farStreams.filter fun x => !x.isOf m) ++ [e] }

/-- An acknowledgement repeats its request with a RESULT. -/
def State.sendAck (s : State) (m : FarMsg) (r : Nat) : State := s.sendFar m.sender { m with kind := 2, result := r }

/-- Steps 3 to 6 of R218 on a request's entry. -/
def State.farStep (s : State) (m : FarMsg) (e : FarStream) : State :=
  let h := e.h.toNat
  let skip := diff32 (diff32 m.oldest 1) h
  let h := if 1 ≤ skip ∧ skip < 2 ^ 31 then diff32 m.oldest 1 else h
  let e := { e with h := BitVec.ofNat 32 h, lastAt := s.mono,
                    refused := e.refused.filter fun q => decide (diff32 h q.toNat < 256) }
  let d := diff32 m.seq h
  if d = 0 ∨ 2 ^ 31 ≤ d then
    (s.putFarStream m e).sendAck m (if e.refused.contains (BitVec.ofNat 32 m.seq) then 6 else 3)
  else if 2 ≤ d then (s.putFarStream m e).sendAck m 5
  else
    let r := s.applyFar m.domain m.peg (m.op == 1) (BitVec.ofNat 64 m.value)
    let q := BitVec.ofNat 32 m.seq
    let kept := e.refused.filter fun x => decide (diff32 m.seq x.toNat < 256)
    (r.2.putFarStream m { e with h := q, refused := if r.1 = 0 then kept else kept ++ [q] }).sendAck m r.1

/-- A far-peg request at its target. -/
def State.farTarget (s : State) (m : FarMsg) : State :=
  match s.fwd.farStreams.find? fun e => e.isOf m with
  | some e =>
    if e.incarnation.toNat = m.incarnation then s.farStep m e
    else if 2 ^ 31 ≤ diff32 m.incarnation e.incarnation.toNat then
      (s.putFarStream m { e with lastAt := s.mono }).sendAck m 3
    else s.farStep m (m.entry s.mono)
  | none => match s.farRoom with
    | some s => s.farStep m (m.entry s.mono)
    | none => s.sendAck m 4

/-- A message at the peg store, received in a slice: a bad one is discarded and counted as FARPEG_BAD. -/
def State.farReceive (s : State) (slice : Nat) (msg : Bytes) : State :=
  if s.rd R.FWD_FAR_PREFIX = 0 then s
  else match parseFar msg with
    | none => s.count (ctrSlice slice 14)
    | some m => if m.kind = 1 then s.farTarget m else s.farAck m

/-- A request datagram at the target; a bad one counts in slice 0, the hub's (log entry 21). -/
def execFarPegRequest (msg : Bytes) (s : State) : Out := .next (s.farReceive 0 msg)

def execFarPegAck (msg : Bytes) (s : State) : Out := .next (s.farReceive 0 msg)

/-- An entry without a request for 10 s is evicted. -/
def execFarPegEntryEvict (sender : Word) (agent : BitVec 4) (who : BitVec 16) (slot : Fin 4) (s : State) : Out :=
  let mine (e : FarStream) : Bool := e.sender == sender && e.agent == agent && e.who == who && e.slot == slot.val
  .next { s with fwd.farStreams := s.fwd.farStreams.filter fun e => !(mine e && decide (e.lastAt + tenSeconds ≤ s.mono)) }

end Sys2Proof.Machine
end

