-- ==== Sys2Proof/Machine/Control.lean ====
section
/-! DEFINITION. The control-flow group and the end of a context (spec/04 R102, R123; spec/05 R157). -/

namespace Sys2Proof.Machine

/-- A target that is taken: PC_RANGE when it lies outside the code, at the instruction's own index. -/
def takeTarget (s : State) (x : Context) (target : Int) : Res :=
  if 0 ≤ target ∧ target < x.code.length then .jump s target.toNat else .fault s 7 0

/-- BR: a branch, a conditional branch, or a call that writes the next index to g31 (spec/04 Table 4.14). -/
def execDxnBr (c : Ctx) (body : BitVec 56) (s : State) : Out :=
  let w := dxnWord 0xA0 body
  .next (s.issue c w [] false fun s x =>
    let cond := bitsOf w 55 52
    let p := x.pred (bitsOf w 50 48)
    if (cond = 1 ∧ p = false) ∨ (cond = 2 ∧ p) then .go s
    else match takeTarget s x (x.pc + sextImm w) with
      | .jump s pc => .jump (if cond = 3 then s.setCtx c (x.setReg 31 (BitVec.ofNat 64 (x.pc + 1))) else s) pc
      | r => r)

/-- JR: g31 is written after gA is read. -/
def execDxnJr (c : Ctx) (body : BitVec 56) (s : State) : Out :=
  let w := dxnWord 0xA1 body
  .next (s.issue c w [] false fun s x =>
    match takeTarget s x (x.reg (wA w)).toNat with
    | .jump s pc => .jump (if bitOf (wM w) 0 then s.setCtx c (x.setReg 31 (BitVec.ofNat 64 (x.pc + 1))) else s) pc
    | r => r)

/-- DBNZ: a g0 is decremented to all ones and discards it, and the branch follows the decremented value (log entry 22). -/
def execDxnDbnz (c : Ctx) (body : BitVec 56) (s : State) : Out :=
  let w := dxnWord 0xA2 body
  .next (s.issue c w [] false fun s x =>
    let v := x.reg (wD w) - 1
    let t := s.setCtx c (x.setReg (wD w) v)
    if v = 0 then .go t
    else match takeTarget s x (x.pc + sextImm w) with
      | .jump _ pc => .jump t pc
      | r => r)

def execDxnEnd (c : Ctx) (body : BitVec 56) (s : State) : Out :=
  .next (s.issue c (dxnWord 0xA3 body) [] false fun s x =>
    .halt ((s.setCtx c { x with pc := x.pc + 1 }).endAsEnd c))

/-- The last long operation of a context that has issued END has completed: it ends. -/
def execContextEnd (c : Ctx) (s : State) : Out :=
  let x := s.ctx c
  .next (if x.status = .stopping ∧ x.endIssued ∧ (s.opsOf c).isEmpty ∧ s.aborted c = false then s.endCtx c else s)

/-- RUN_LIMIT passes for a program that has not issued END, one that is still loading too. -/
def execRunLimitExpiry (n : Fin 64) (s : State) : Out :=
  let c : Ctx := .c n
  let x := s.ctx c
  .next (if x.runLimit = 0 then s
    else if x.status = .loading then (s.setCtx c { x with status := .running }).except c 0xE x.pc 0
    else if x.status = .running ∨ x.status = .waiting then s.except c 0xE x.pc 0
    else s)

end Sys2Proof.Machine
end

