-- ==== Sys2Proof/Machine/Tables.lean ====
section
/-! DEFINITION. The forwarding tables: rows, segments and their publication, routing epochs, the shadow compare, and learned MAC
entries (spec/07 R206 to R220, R476; spec/05 R160). -/

namespace Sys2Proof.Machine

/-! ## Rows (spec/07 R208, R209) -/

/-- Rows of a table; 0 for a code that names none. -/
def tblRows (t : Nat) : Nat := [0, 1048576, 524288, 32768, 65536, 16384, 1048576, 16384, 65536].getD t 0

/-- Bytes of a row. -/
def tblRowBytes (t : Nat) : Nat := [0, 16, 32, 48, 16, 16, 4, 16, 256].getD t 0

/-- Whether a table is banked. -/
def tblBanked (t : Nat) : Bool := decide (1 ≤ t) && decide (t ≤ 6)

/-- The key of a row. -/
def rowKey (t b r : Nat) : Nat := (2 * t + b) * 2 ^ 20 + r

/-- The table, bank and row of a key. -/
def keyTable (k : Nat) : Nat := k / 2 ^ 21
/-- The bank of a key. -/
def keyBank (k : Nat) : Nat := k / 2 ^ 20 % 2
/-- The row of a key. -/
def keyRow (k : Nat) : Nat := k % 2 ^ 20

/-- The bytes of a committed row. -/
def State.rowAt (s : State) (t b r : Nat) : Bytes := leBytes (tblRowBytes t) (sget 0 s.fwd.rows (rowKey t b r))

/-- A result that Table 7.5 allows. -/
def resultOk (x : Nat) : Bool :=
  let kind := x / 2 ^ 30
  let ix := x % 2 ^ 24
  x / 2 ^ 24 % 64 == 0 && (match kind with
    | 0 => decide (ix < 65536)
    | 1 => decide (ix < 16384)
    | 2 => decide (ix < 65536)
    | _ => decide (ix < 2))

/-- A classifier action that Table 7.9 allows. -/
def actionOk (x : Nat) : Bool := decide (x / 2 ^ 27 ≤ 16) && x / 2 ^ 25 % 2 == 0 && x % 2 ^ 24 == 0

/-- VALID of a row, for the tables that have it. -/
def rowValid (t : Nat) (b : Bytes) : Bool := match t with
  | 1 => bitOf (byteAt b 5) 0
  | 2 => bitOf (byteAt b 17) 0
  | 3 => bitOf (byteAt b 40) 0
  | 4 => bitOf (byteAt b 1) 7
  | 5 => bitOf (byteAt b 7) 0
  | 7 => bitOf (byteAt b 10) 0
  | _ => true

/-- A prefix of a width has no bit set beyond a length. -/
def prefixClean (w len p : Nat) : Bool := decide (len ≤ w) && p % 2 ^ (w - len) == 0

/-- The rules of Table 7.10 on one valid row: fields in range, bytes that Table 7.7 does not list zero. -/
def rowOk (t : Nat) (b : Bytes) : Bool := match t with
  | 1 => prefixClean 32 (byteAt b 4) (beAt b 0 4) && byteAt b 5 == 1 && allZero b 6 2 && resultOk (leAt b 8 4) && allZero b 12 4
  | 2 => prefixClean 128 (byteAt b 16) (beAt b 0 16) && byteAt b 17 == 1 && allZero b 18 6 && resultOk (leAt b 24 4) &&
      allZero b 28 4
  | 3 =>
    let fam := leAt b 0 20 / 2 ^ 156
    decide (byteAt b 40 < 4) && allZero b 42 2 &&
      (if bitOf (byteAt b 40) 1 then fam == 0xC && actionOk (leAt b 44 4)
       else ((fam == 4 && decide (byteAt b 41 ≤ 32)) || (fam == 6 && decide (byteAt b 41 ≤ 128))) && resultOk (leAt b 44 4))
  | 4 => decide (leAt b 0 2 % 2 ^ 15 < 2048) && decide (leAt b 2 2 % 2 ^ 15 < 4096) && allZero b 10 6
  | 5 => decide (1 ≤ leAt b 4 2) && decide (leAt b 4 2 ≤ 512) && decide (leAt b 0 4 + leAt b 4 2 ≤ 1048576) &&
      decide (byteAt b 6 < 2) && decide (byteAt b 7 < 2) && allZero b 12 4
  | 6 => decide (leAt b 0 4 < 65536)
  | 7 => decide (leAt b 6 2 < 4096) && decide (leAt b 8 2 < 2048) && decide (byteAt b 10 < 2) && allZero b 11 5
  | _ => true

/-! ## Trie nodes (spec/07 R476) -/

/-- Nodes that a prefix of a family needs: (family, j, first j bits). -/
def prefixNodes (v6 : Bool) (p len : Nat) : List (Nat × Nat × Nat) :=
  let w := if v6 then 128 else 32
  let top := if v6 then 120 else 24
  ((List.range 14).map fun i => 16 + 8 * i).filterMap fun j =>
    if j < len ∧ j ≤ top then some (b2n v6, j, p / 2 ^ (w - j)) else none

/-- Family, prefix and length of a valid route row of table 1 or 2. -/
def routeOf (t : Nat) (b : Bytes) : Option (Bool × Nat × Nat) :=
  if rowValid t b = false then none
  else if t = 1 then some (false, beAt b 0 4, byteAt b 4)
  else if t = 2 then some (true, beAt b 0 16, byteAt b 16) else none

/-- The rows of a bank as a list of (table, bytes). -/
abbrev BankRows := List (Nat × Bytes)

/-- Distinct nodes that rows need. -/
def nodeNeed (l : BankRows) : Nat :=
  (l.flatMap fun x => match routeOf x.1 x.2 with
    | some (v6, p, len) => prefixNodes v6 p len
    | none => []).dedup.length

/-- The committed rows of a bank. -/
def State.bankRows (s : State) (b : Nat) : BankRows :=
  (s.fwd.rows.filter fun x => tblBanked (keyTable x.1) && keyBank x.1 == b).map fun x =>
    (keyTable x.1, leBytes (tblRowBytes (keyTable x.1)) x.2)

/-- No two valid ROUTE4 or ROUTE6 rows have equal prefix and length. -/
def routesDistinct (l : BankRows) : Bool := decide ((l.filterMap fun x => routeOf x.1 x.2).Nodup)

/-- The capacities of R200 and R476. -/
def capacityOk (l : BankRows) : Bool :=
  let r := l.filterMap fun x => routeOf x.1 x.2
  let n6 := (r.filter fun x => x.1).length
  let n4 := r.length - n6
  decide (n4 + 2 * n6 ≤ 1048576) && decide (n6 ≤ 524288) && decide (nodeNeed l ≤ 262144)

/-! ## Banks and segments -/

/-- STATE of the epoch: 0 steady, 1 pending, 2 retiring. -/
def State.epochState (s : State) : Nat := s.fld R.FWD_EPOCH_STATUS F.FWD_EPOCH_STATUS_STATE
/-- The active bank. -/
def State.activeBank (s : State) : Nat := s.fld R.FWD_EPOCH_STATUS F.FWD_EPOCH_STATUS_ACTIVE_BANK
/-- The current epoch. -/
def State.epoch (s : State) : Nat := s.fld R.FWD_EPOCH_STATUS F.FWD_EPOCH_STATUS_EPOCH

/-- Whether a bank of a table is being retired. -/
def State.retiring (s : State) (t b : Nat) : Bool := tblBanked t && s.epochState == 2 && b != s.activeBank

/-- Whether a segment is locked. -/
def State.segLocked (s : State) (t b seg : Nat) : Bool := s.bit (R.FWD_SEG_LOCK t b (seg / 64)) (seg % 64)

/-- FWD_TRIE_STATUS follows the committed rows of a bank; a write that raises the need of the standby bank above the capacity
records STANDBY_FAULT. -/
def State.trieUpdate (s : State) (b : Nat) : State :=
  let before := s.fld (R.FWD_TRIE_STATUS b) F.FWD_TRIE_STATUS_NEED
  let need := nodeNeed (s.bankRows b)
  let s := s.setFld (R.FWD_TRIE_STATUS b) F.FWD_TRIE_STATUS_NEED need
  if b ≠ s.activeBank ∧ before ≤ 262144 ∧ 262144 < need then s.fwdEvent 8 b 0 0 else s

/-- Errors that a read of the tables finds, counted in a slice: a corrected one counts; an uncorrectable one marks the committed
row invalid; a trie node is broken until it has been rebuilt (spec/07 R206). -/
def State.tableErrs (s : State) (slice : Nat) (l : List TableErr) : State :=
  l.foldl (fun s e => match e with
    | .row _ _ _ false => s.count (ctrSlice slice 16)
    | .row t b r true =>
      let k := rowKey t b r
      let s := if s.fwd.invalid.contains k then s else { s with fwd.invalid := s.fwd.invalid ++ [k] }
      (s.fwdEvent 3 b t r).count (ctrSlice slice 8)
    | .node sl b n => if s.fwd.broken.contains (sl, b, n) then s else { s with fwd.broken := s.fwd.broken ++ [(sl, b, n)] }) s

/-- A row becomes committed: it is written, and an invalid mark of it is cleared. -/
def State.commitRow (s : State) (t b r : Nat) (x : Bytes) : State :=
  let k := rowKey t b r
  let s := { s with fwd.rows := sset 0 s.fwd.rows k (leNat (slice x 0 (tblRowBytes t))),
                    fwd.invalid := s.fwd.invalid.filter fun y => y != k }
  if t = 1 ∨ t = 2 then s.trieUpdate b else s

/-- A row that TDMA writes lands pending in a locked segment of the active bank, of the bank a pending flip names, or of
an unbanked table; else it becomes committed (spec/07 R210). -/
def State.landRow (s : State) (t b r : Nat) (x : Bytes) : State :=
  let live := !tblBanked t || b == s.activeBank || s.epochState == 1
  if live && s.segLocked t b (r / 4096) then
    let k := rowKey t b r
    { s with fwd.pendingRows := (s.fwd.pendingRows.filter fun y => y.1 != k) ++ [(k, leNat (slice x 0 (tblRowBytes t)))] }
  else s.commitRow t b r x

/-- Table, bank and segment that a g register names; none outside Table 7.10's first rule. -/
def segArg (a : Nat) : Option (Nat × Nat × Nat) :=
  let t := a / 2 ^ 40 % 256
  let b := a / 2 ^ 48 % 2
  let seg := a % 256
  if a = b * 2 ^ 48 + t * 2 ^ 40 + seg ∧ seg < tblRows t / 4096 ∧ (tblBanked t ∨ b = 0) then some (t, b, seg) else none

/-- Pending rows of a segment. -/
def State.pendingOf (s : State) (t b seg : Nat) : List (Nat × Nat) :=
  s.fwd.pendingRows.filter fun y => y.1 / 4096 == rowKey t b (4096 * seg) / 4096

/-- SEGLOCK (spec/07 R211). -/
def State.seglock (s : State) (a : Nat) : Nat × State :=
  match segArg a with
  | none => (0x10, s)
  | some (t, b, seg) =>
    if s.segLocked t b seg then (0x19, s)
    else if s.retiring t b then (0x18, s)
    else (0, s.setBit (R.FWD_SEG_LOCK t b (seg / 64)) (seg % 64) true)

/-- The bank of a segment as it would stand after publication. -/
def State.afterPublish (s : State) (t b seg : Nat) : BankRows :=
  let p := s.pendingOf t b seg
  let kept := s.fwd.rows.filter fun x => tblBanked (keyTable x.1) && keyBank x.1 == b && !(p.any fun y => y.1 == x.1)
  (kept ++ p).map fun x => (keyTable x.1, leBytes (tblRowBytes (keyTable x.1)) x.2)

/-- SEGPUB: the checks of Table 7.10 in order, then every pending row of the segment becomes committed and the lock clears. -/
def State.segpub (s : State) (a : Nat) : Nat × State :=
  match segArg a with
  | none => (0x10, s)
  | some (t, b, seg) =>
    if s.segLocked t b seg = false then (0, s)
    else
      let p := s.pendingOf t b seg
      let bytes (y : Nat × Nat) : Bytes := leBytes (tblRowBytes t) y.2
      if (p.all fun y => !rowValid t (bytes y) || rowOk t (bytes y)) = false then (0x10, s)
      else if tblBanked t && !routesDistinct (s.afterPublish t b seg) then (0x12, s)
      else if tblBanked t && !capacityOk (s.afterPublish t b seg) then (0x13, s)
      else
        let s := { s with fwd.pendingRows := s.fwd.pendingRows.filter fun y => !p.contains y }
        let s := p.foldl (fun s y => s.commitRow t b (keyRow y.1) (bytes y)) s
        (0, s.setBit (R.FWD_SEG_LOCK t b (seg / 64)) (seg % 64) false)

/-! ## Routing epochs (spec/07 R213, R214) -/

/-- Whether any segment of a banked table is locked. -/
def State.anyBankedLock (s : State) : Bool :=
  (List.range 6).any fun t => (List.range 2).any fun b => (List.range 4).any fun w => s.rd (R.FWD_SEG_LOCK (t + 1) b w) != 0

/-- The check of the standby bank: every SEGPUB rule over its committed rows. -/
def State.standbyReason (s : State) : Nat :=
  let l := s.bankRows (1 - s.activeBank)
  if (l.all fun x => !rowValid x.1 x.2 || rowOk x.1 x.2) = false then 0x10
  else if routesDistinct l = false then 0x12
  else if capacityOk l = false then 0x13 else 0

/-- The rules of an EFLIP but the one on its instant (spec/07 Table 7.11); an EFLIP at 0 needs no time base. -/
def State.eflipRules (s : State) (timed : Bool) : Nat :=
  if s.epochState ≠ 0 then 0x18
  else if s.anyBankedLock then 0x19
  else if timed ∧ s.hasLocked = false then 0x1A
  else s.standbyReason

/-- An EFLIP at an instant; 0 asks for 10 us after the check (spec/07 Table 7.11). -/
def State.eflip (s : State) (a : Word) : Nat × State :=
  let ns := if a = 0 then s.now + 10000 else instantNs s a
  if a ≠ 0 ∧ (1000000000 ≤ a.toNat % 2 ^ 32 ∨ ns < s.now + 10000 ∨ s.now + 10000000000 < ns) then (0x10, s)
  else
    let r := s.eflipRules (a != 0)
    if r ≠ 0 then (r, s)
    else (0, ({ s with fwd.flipAt := ns }.setFld R.FWD_EPOCH_STATUS F.FWD_EPOCH_STATUS_STATE 1).wr R.FWD_EPOCH_TIME (instantWord ns))

/-- An EFLIP from a source: refused while a plane flip is prepared here, and logged as a commit (spec/16 R429; spec/17 R446). -/
def State.eflipFrom (s : State) (a : Word) (source : Nat) (domain : BitVec 12) : Nat × State :=
  let r := if s.planeHolds then (0x18, s) else s.eflip a
  (r.1, r.2.cfgLog (if r.1 = 0 then 2 else 1) r.1 0xFF source domain 0)

/-- At a safe point the age limit takes the value of AGE_LIMIT, brought to its bounds (spec/08 R239). -/
def State.ageSafePoint (s : State) : State :=
  if s.epochState = 2 then s
  else { s with swc.ageInForce := max 100 (min 67000 (s.fld R.SWC_CTRL F.SWC_CTRL_AGE_LIMIT)) }

/-- The flip at its instant T: the epoch counts up, the standby bank becomes active, the old one is retiring. -/
def State.epochFlip (s : State) : State :=
  if s.epochState ≠ 1 ∨ s.now < s.fwd.flipAt then s
  else
    let b := 1 - s.activeBank
    let e := s.epoch + 1
    let s := s.wr R.FWD_EPOCH_STATUS (F.FWD_EPOCH_STATUS_STATE.put 2 ||| F.FWD_EPOCH_STATUS_ACTIVE_BANK.put b |||
      F.FWD_EPOCH_STATUS_EPOCH.put e)
    ({ s with fwd.retireAge := s.swc.ageInForce }.fwdEvent 6 b 0 0).planeFlipped 1

def execEpochFlip (s : State) : Out := .next s.epochFlip

/-- Retirement ends at T + A + 10 us. -/
def execEpochRetire (s : State) : Out :=
  if s.epochState ≠ 2 ∨ s.now < s.fwd.flipAt + s.fwd.retireAge * 1000 + 10000 then .next s
  else
    let s := (s.setFld R.FWD_EPOCH_STATUS F.FWD_EPOCH_STATUS_STATE 0).ageSafePoint
    .next (s.fwdEvent 7 (1 - s.activeBank) 0 0)

/-- A trie node of a slice hit by an uncorrectable error has been rebuilt. What TABLE and ROW of the event hold is not
stated: free values (log entry 23). -/
def execTrieRebuilt (slice : Fin 8) (bank : Fin 2) (node : Nat) (s : State) : Out :=
  let s := { s with fwd.broken := s.fwd.broken.filter fun x => x != (slice.val, bank.val, node) }
  let (x, s) := s.draw
  .next (s.fwdEvent 5 bank (x.toNat % 256) (x.toNat / 256 % 2 ^ 20))

/-! ## The shadow compare (spec/07 R219, R220) -/

/-- Whether the engine walks a bank of a table. -/
def State.walked (s : State) (t b : Nat) : Bool :=
  F.FWD_SHADOW_BASE_ADDR.get (s.rd (R.FWD_SHADOW_BASE t b)) != 0 &&
    (if tblBanked t then b == s.activeBank || s.epochState == 2 else b == 0)

/-- The next place of the walk: the next table or bank when the last row is past or the bank is not walked; past a locked
segment. Fuel bounds the tables, banks and segments passed. -/
def State.walkNext (s : State) : Nat → RowRef → Option RowRef
  | 0, _ => none
  | n + 1, w =>
    if s.walked w.table w.bank = false ∨ tblRows w.table ≤ w.row then
      s.walkNext n (if w.bank = 0 then ⟨w.table, 1, 0⟩ else ⟨if w.table = 8 then 1 else w.table + 1, 0, 0⟩)
    else if s.segLocked w.table w.bank (w.row / 4096) then s.walkNext n ⟨w.table, w.bank, (w.row / 4096 + 1) * 4096⟩
    else some w

/-- The shadow of a row: its bytes, or none when the read is uncorrectable. Host shadows come with the command. -/
def State.shadowOf (s : State) (w : RowRef) (read : HostRead) (errs : List LineErr) : State × Option Bytes :=
  let x := s.rd (R.FWD_SHADOW_BASE w.table w.bank)
  let n := tblRowBytes w.table
  let a := F.FWD_SHADOW_BASE_ADDR.get x / 64 * 64 + w.row * n
  if F.FWD_SHADOW_BASE_HOST.get x = 1 then (s, hostBytes read n)
  else
    let (s, b, bad) := s.devRead a n errs
    (s, if bad then none else some b)

/-- A MISMATCH is recorded and, with RESTORE set and the segment not locked, corrected from the shadow. -/
def State.mismatch (s : State) (w : RowRef) (shadow : Bytes) : State :=
  let s := s.fwdEvent 1 w.bank w.table w.row
  if s.flag R.FWD_SHADOW_CTRL F.FWD_SHADOW_CTRL_RESTORE && !s.segLocked w.table w.bank (w.row / 4096) then
    (s.commitRow w.table w.bank w.row shadow).fwdEvent 2 w.bank w.table w.row
  else s

/-- One row compared; a difference is looked at again later, an invalid row is a mismatch at once. Errors of the table memories that
the engine finds count in slice 0 (log entry 75). -/
def execShadowCompareRow (read : HostRead) (errs : List LineErr) (found : List TableErr) (s : State) : Out :=
  if s.flag R.FWD_SHADOW_CTRL F.FWD_SHADOW_CTRL_ENABLE = false then .next s
  else match s.walkNext 1100 s.fwd.walk with
    | none => .next s
    | some w =>
      let s := { s with fwd.walk := ⟨w.table, w.bank, w.row + 1⟩ }.tableErrs 0 found
      let (s, b) := s.shadowOf w read errs
      match b with
      | none => .next (s.fwdEvent 4 w.bank w.table w.row)
      | some b =>
        if s.fwd.invalid.contains (rowKey w.table w.bank w.row) then .next (s.mismatch w b)
        else if b = s.rowAt w.table w.bank w.row then .next s
        else .next { s with fwd.rechecks := s.fwd.rechecks ++ [w] }

/-- A differing row is read again 100 us later, while the engine runs. -/
def execShadowRecheck (read : HostRead) (errs : List LineErr) (found : List TableErr) (s : State) : Out :=
  match s.fwd.rechecks with
  | [] => .next s
  | w :: rest =>
    let s := { s with fwd.rechecks := rest }
    if s.flag R.FWD_SHADOW_CTRL F.FWD_SHADOW_CTRL_ENABLE = false ∨ s.walked w.table w.bank = false ∨
        s.segLocked w.table w.bank (w.row / 4096) then .next s
    else
      let (s, b) := (s.tableErrs 0 found).shadowOf w read errs
      match b with
      | none => .next (s.fwdEvent 4 w.bank w.table w.row)
      | some b =>
        if s.fwd.invalid.contains (rowKey w.table w.bank w.row) = false ∧ b = s.rowAt w.table w.bank w.row then .next s
        else .next (s.mismatch w b)

/-! ## Learned MAC entries (spec/07 R212) -/

/-- Entries that meet a condition are removed, and LEARNED of their ports counts them off. -/
def State.dropMac (s : State) (p : MacEntry → Bool) : State :=
  let gone := s.fwd.mac.filter p
  let s := { s with fwd.mac := s.fwd.mac.filter fun e => !p e }
  gone.foldl (fun s e => s.setFld (R.FWD_MAC_PORT e.port) F.FWD_MAC_PORT_LEARNED
    (s.fld (R.FWD_MAC_PORT e.port) F.FWD_MAC_PORT_LEARNED - 1)) s

/-- An entry not refreshed for MAC_AGE seconds is removed; 0 keeps entries. -/
def execMacAgeExpiry (mac : BitVec 48) (vlan : BitVec 12) (s : State) : Out :=
  let age := s.fld R.FWD_GLOBAL_CTRL F.FWD_GLOBAL_CTRL_MAC_AGE
  .next (s.dropMac fun e => e.mac == mac && e.vlan == vlan && age != 0 && decide (e.refreshed + age * 1000000000 ≤ s.mono))

end Sys2Proof.Machine
end

