-- ==== Sys2Proof/Machine/DxnMem.lean ====
section
/-! DEFINITION. The memory and DMA group but for the loads and stores of g registers: vector and tile transfers, block moves,
and what they do when they complete (spec/05 R153 to R156; spec/07 R210). -/

namespace Sys2Proof.Machine

/-! ## Checks at issue -/

/-- The space of source and destination in a modifier: bits [26:24] and [29:27]. -/
def srcSpace (w : Nat) : Nat := wM w % 8
/-- The destination space. -/
def dstSpace (w : Nat) : Nat := wM w / 8 % 8

/-- Exceptions that the operands of a block move raise, each with the address it would report: the lowest code is raised. When
several operands raise that code, which address is reported is not stated: a free value (log entry 24). -/
def blockFault (s : State) (l : List (Nat × Word)) : Option Res :=
  let best := l.foldl (fun a x => min a x.1) 255
  match l.filter fun x => x.1 == best with
  | [] => none
  | [x] => some (.fault s x.1 x.2)
  | x :: _ => let (v, s) := s.draw
    some (.fault s x.1 v)

/-- A condition that raises a code at an address. -/
def raiseIf (b : Bool) (code : Nat) (a : Word) : List (Nat × Word) := if b then [(code, a)] else []

/-- The exceptions of one memory operand of a block move: a space it may not use, an extent it exceeds, a misaligned
address. -/
def State.operandFaults (s : State) (c : Ctx) (allowed : Nat → Bool) (space : Nat) (a : Word) (n align : Nat) :
    List (Nat × Word) :=
  if spaceIn (profileOf c) space && allowed space then
    raiseIf (!s.inSpace c space a.toNat n) 5 a ++ raiseIf (a.toNat % align != 0) 6 a
  else raiseIf true 4 a

/-- Spaces a block move may read. -/
def moveSrc (sp : Nat) : Bool := sp != 5
/-- Spaces a block move may write. -/
def moveDst (sp : Nat) : Bool := sp != 5 && sp != 4

/-- A length that is not a whole number of units; which address is reported is not stated. -/
def lengthFault (n unit : Nat) (a b : Word) : List (Nat × Word) :=
  raiseIf (n % unit != 0) 6 a ++ raiseIf (n % unit != 0) 6 b

/-- A long operation over no bytes completes at once and adds to the bound peg (spec/05 R154). -/
def State.addLongOrDone (s : State) (c : Ctx) (kind : LongKind) (n : Nat) : State :=
  let s := s.addLong c kind []
  if n = 0 then match s.dxn.longOps.getLast? with
    | some o => s.completeLong o
    | none => s
  else s

/-! ## Vector and tile transfers (spec/05 Table 5.9) -/

/-- A transfer of n bytes at the address of an M-format instruction, aligned. -/
def State.transfer (s : State) (c : Ctx) (w n align : Nat) (write : Bool) (k : Nat → State → Res) : Res :=
  let a := mAddr (s.ctx c) w
  match s.memFault c (iT w) a n align write with
  | some e => .fault s e (BitVec.ofNat 64 a)
  | none => k a s

def execDxnVld (c : Ctx) (body : BitVec 56) (s : State) : Out :=
  let w := dxnWord 0x83 body
  .next (s.issue c w [lockV (wD w)] true fun s _ => s.transfer c w (4 * mCount w) 4 false fun a s =>
    .go (s.addLong c (.vload (wD w) (iT w) (BitVec.ofNat 64 a) 4 (mCount w)) [lockV (wD w)]))

def execDxnVst (c : Ctx) (body : BitVec 56) (s : State) : Out :=
  let w := dxnWord 0x84 body
  .next (s.issue c w [lockV (wD w)] true fun s _ => s.transfer c w (4 * mCount w) 4 true fun a s =>
    .go (s.addLong c (.vstore (leBytes (4 * mCount w) (s.vreg c (wD w)).toNat) (iT w) (BitVec.ofNat 64 a)) []))

def execDxnTld (c : Ctx) (body : BitVec 56) (s : State) : Out :=
  let w := dxnWord 0x85 body
  .next (s.issue c w [lockT (wD w)] true fun s _ => s.transfer c w 4096 64 false fun a s =>
    .go (s.addLong c (.tload (wD w) (iT w) (BitVec.ofNat 64 a)) [lockT (wD w)]))

def execDxnTst (c : Ctx) (body : BitVec 56) (s : State) : Out :=
  let w := dxnWord 0x86 body
  .next (s.issue c w [lockT (wD w)] true fun s _ => s.transfer c w 4096 64 true fun a s =>
    .go (s.addLong c (.tstore (tileBytes (s.treg c (wD w))) (iT w) (BitVec.ofNat 64 a)) []))

/-! ## Block moves -/

def execDxnMove (c : Ctx) (body : BitVec 56) (s : State) : Out :=
  let w := dxnWord 0x88 body
  .next (s.issue c w [] true fun s x =>
    let dst := x.reg (wA w)
    let src := x.reg (wB w)
    let n := (x.reg (wC w)).toNat
    match blockFault s (s.operandFaults c moveDst (dstSpace w) dst n 64 ++ s.operandFaults c moveSrc (srcSpace w) src n 64 ++
        lengthFault n 64 dst src) with
    | some r => r
    | none => .go (s.addLongOrDone c (.move (srcSpace w) (dstSpace w) src dst n) n))

def execDxnFill (c : Ctx) (body : BitVec 56) (s : State) : Out :=
  let w := dxnWord 0x89 body
  .next (s.issue c w [] true fun s x =>
    let dst := x.reg (wA w)
    let n := (x.reg (wC w)).toNat
    match blockFault s (s.operandFaults c moveDst (dstSpace w) dst n 64 ++ raiseIf (n % 64 != 0) 6 dst) with
    | some r => r
    | none => .go (s.addLongOrDone c (.fill (dstSpace w) dst (x.reg (wB w)) 8 (n / 8)) n))

/-- A target of XMOVE (spec/05 Table 5.10): its job domain if it has one, and the size of its store. -/
def State.xmoveTarget (s : State) (a : Nat) : Option (Option (BitVec 12) × Nat) :=
  if a / 2 ^ 18 % 2 ^ 28 ≠ 0 then none
  else if a / 2 ^ 62 = 1 then
    if a / 2 ^ 46 % 16 = 0 ∧ bitsOf a 59 55 < 30 then
      some (some (BitVec.ofNat 12 (s.fld (R.TEN_TENON (bitsOf a 61 60) (bitsOf a 59 55) (bitsOf a 54 50)) F.TEN_TENON_OWNER)),
        262144)
    else none
  else if a / 2 ^ 62 = 2 then
    if a / 2 ^ 46 % 8 = 0 then
      let b := s.ctx (bCtx (bitsOf a 61 59) (bitsOf a 58 49))
      some (if b.status = .free then none else some b.domain, 4096)
    else none
  else none

/-- The exceptions of the target of an XMOVE of n bytes. -/
def State.xmoveFaults (s : State) (domain : BitVec 12) (a : Word) (n : Nat) : List (Nat × Word) :=
  match s.xmoveTarget a.toNat with
  | none => raiseIf true 5 a ++ raiseIf (a.toNat % 64 != 0) 6 a
  | some (d, size) =>
    raiseIf (domain != 0 && (match d with | some d => d != domain | none => false)) 4 a ++
      raiseIf (decide (size ≤ a.toNat % 2 ^ 18) || decide (size < a.toNat % 2 ^ 18 + n)) 5 a ++ raiseIf (a.toNat % 64 != 0) 6 a

def execDxnXmove (c : Ctx) (body : BitVec 56) (s : State) : Out :=
  let w := dxnWord 0x8A body
  .next (s.issue c w [] true fun s x =>
    let t := x.reg (wA w)
    let dev := x.reg (wB w)
    let n := (x.reg (wC w)).toNat
    match blockFault s (s.xmoveFaults x.domain t n ++
        s.operandFaults c (fun sp => sp == 1 || sp == 2) (srcSpace w) dev n 64 ++ lengthFault n 64 t dev) with
    | some r => r
    | none => .go (s.addLongOrDone c (.xmove (!bitOf (wM w) 3) t (t &&& 0x3FFFF) dev n (srcSpace w)) n))

/-- The row that TDMA addresses: table, bank and first row, when they exist and no other bit is set (spec/07 R210). -/
def tdmaTarget (a n : Nat) : Option (Nat × Nat × Nat) :=
  let t := bitsOf a 47 40
  let b := bitsOf a 48 48
  let r := a % 2 ^ 20
  if a = b * 2 ^ 48 + t * 2 ^ 40 + r ∧ 0 < tblRows t ∧ (tblBanked t ∨ b = 0) ∧ r < tblRows t ∧
      r * tblRowBytes t + n ≤ tblRows t * tblRowBytes t then some (t, b, r)
  else none

/-- The exceptions of a TDMA. -/
def State.tdmaFaults (s : State) (c : Ctx) (x : Context) (w : Nat) : List (Nat × Word) :=
  let a := x.reg (wA w)
  let src := x.reg (wB w)
  let n := (x.reg (wC w)).toNat
  let rb := tblRowBytes (bitsOf a.toNat 47 40)
  raiseIf (x.domain != 0) 4 a ++ raiseIf (x.domain != 0) 4 src ++
    s.operandFaults c moveSrc (srcSpace w) src n 64 ++ raiseIf (tdmaTarget a.toNat n).isNone 5 a ++
    (if rb = 0 then [] else lengthFault n rb a src)

def execDxnTdma (c : Ctx) (body : BitVec 56) (s : State) : Out :=
  let w := dxnWord 0x8B body
  .next (s.issue c w [] true fun s x =>
    match blockFault s (s.tdmaFaults c x w) with
    | some r => r
    | none =>
      let n := (x.reg (wC w)).toNat
      match tdmaTarget (x.reg (wA w)).toNat n with
      | none => .stall
      | some (t, b, r) => .go (s.addLongOrDone c (.tdma b t r (x.reg (wB w)) n (srcSpace w)) n))

/-! ## Completion -/

/-- n units of a size move in ascending order from unit k on: the state after them, and whether all moved; a poisoned unit
stops the move (spec/05 R154). -/
def copyUnits (unit : Nat) (rd : State → Nat → State × Option Bytes) (wr : State → Nat → Bytes → State) :
    Nat → Nat → State → State × Bool
  | 0, _, s => (s, true)
  | n + 1, k, s =>
    let (s, b) := rd s (k * unit)
    match b with
    | none => (s, false)
    | some b => copyUnits unit rd wr n (k + 1) (wr s (k * unit) b)

/-- A unit of a source space; of host memory the command brings all bytes, and a failed read stops the move at its first
unit (log entry 25). -/
def State.readUnit (s : State) (c : Ctx) (space : Nat) (base : Word) (off n : Nat) (read : HostRead) (errs : List LineErr) :
    State × Option Bytes :=
  if space = 2 then (s, (hostBytes read (off + n)).map fun b => b.drop off)
  else s.spaceRead c space (base.toNat + off) n read errs

/-- The private store that an XMOVE target names: the context whose LOCAL space it is. -/
def xmoveCtx (a : Nat) : Ctx :=
  if a / 2 ^ 62 = 1 then
    .t (Fin.ofNat 4 (bitsOf a 61 60)) (Fin.ofNat 30 (bitsOf a 59 55)) (Fin.ofNat 32 (bitsOf a 54 50)) 0
  else bCtx (bitsOf a 61 59) (bitsOf a 58 49)

/-- A long operation ends: it completes, or fails on bad data. -/
def State.endLong (s : State) (o : LongOp) (ok : Bool) : State := if ok then s.completeLong o else s.failLongMem o

/-- MOVE. -/
def State.doMove (s : State) (o : LongOp) (sp dp : Nat) (src dst : Word) (n : Nat) (read : HostRead) (errs : List LineErr) :
    State :=
  let (s, ok) := copyUnits 64 (fun s k => s.readUnit o.ctx sp src k 64 read errs)
    (fun s k b => s.spaceWrite o.ctx dp (dst.toNat + k) b) (n / 64) 0 s
  s.endLong o ok

/-- FILL. -/
def State.doFill (s : State) (o : LongOp) (sp : Nat) (dst v : Word) (width count : Nat) : State :=
  let (s, ok) := copyUnits width (fun s _ => (s, some (leBytes width v.toNat)))
    (fun s k b => s.spaceWrite o.ctx sp (dst.toNat + k) b) count 0 s
  s.endLong o ok

/-- XMOVE. -/
def State.doXmove (s : State) (o : LongOp) (into : Bool) (target loc dev : Word) (n sp : Nat) (read : HostRead)
    (errs : List LineErr) : State :=
  let t := xmoveCtx target.toNat
  let (s, ok) := if into then
      copyUnits 64 (fun s k => s.readUnit o.ctx sp dev k 64 read errs) (fun s k b => s.localWrite t (loc.toNat + k) b) (n / 64) 0 s
    else copyUnits 64 (fun s k => (s, some (s.localRead t (loc.toNat + k) 64)))
      (fun s k b => s.spaceWrite o.ctx sp (dev.toNat + k) b) (n / 64) 0 s
  s.endLong o ok

/-- TDMA: it waits while its bank is being retired. -/
def State.doTdma (s : State) (o : LongOp) (bank table row : Nat) (src : Word) (n sp : Nat) (read : HostRead)
    (errs : List LineErr) : State :=
  if s.retiring table bank then s
  else
    let rb := tblRowBytes table
    let (s, ok) := copyUnits rb (fun s k => s.readUnit o.ctx sp src k rb read errs)
      (fun s k b => s.landRow table bank (row + k / rb) b) (n / rb) 0 s
    s.endLong o ok

/-- VLD: lanes beyond the count become 0. -/
def State.doVload (s : State) (o : LongOp) (v sp : Nat) (a : Word) (n : Nat) (read : HostRead) (errs : List LineErr) : State :=
  let (s, b) := s.spaceRead o.ctx sp a.toNat n read errs
  match b with
  | some b => (s.setV o.ctx v (BitVec.ofNat 2048 (leNat b))).completeLong o
  | none => s.failLongMem o

/-- TLD. -/
def State.doTload (s : State) (o : LongOp) (t sp : Nat) (a : Word) (read : HostRead) (errs : List LineErr) : State :=
  let (s, b) := s.spaceRead o.ctx sp a.toNat 4096 read errs
  match b with
  | some b => (s.setT o.ctx t (tileOf b)).completeLong o
  | none => s.failLongMem o

/-- A receive takes the oldest buffered tile of its port, when it is the oldest receive there; at a stopped DMA stream it
fails (spec/04 R107, spec/10 R291). -/
def State.doRecv (s : State) (o : LongOp) (p : Nat) (put : State → Bytes → State) : State :=
  let k := portKey (tenonOf o.ctx) p
  if (s.recvsOn k).head?.map LongOp.id ≠ some o.id then s
  else
    let x := s.stream k
    match x.rx with
    | t :: rest => (put (s.setStream k { x with rx := rest }) t).completeLong o
    | [] => match x.bound with
      | some (.dma d) => if (s.dma d).readError then s.failLongMem o else s
      | _ => s

end Sys2Proof.Machine
end

