-- ==== Sys2Proof/Machine/Collective.lean ====
section
/-! DEFINITION. The collective group and what reaches a Basin engine: contributions, retransmit requests, notices, arrivals,
reports, timers (spec/09 R257 to R282; spec/10 R299 to R302). -/

namespace Sys2Proof.Machine

/-! ## Chunks and their members -/

/-- Members whose data the pending CACC or CGATH of a chunk waits for: the owner of an ALL_GATHER chunk, peer spines at the
second CACC of a CROSS_HALL chunk, every other member but peer spines else (spec/09 Tables 9.3, 9.12). -/
def State.needed (s : State) (e sl chunk : Nat) : List Nat :=
  let x := s.slot e sl
  let g := x.group
  if x.op = 3 then [chunk % max 1 (s.members g).length]
  else if (x.chunk chunk).caccs = 2 then s.membersWhere g fun m => s.isPeer g m
  else s.membersWhere g fun m => !s.isPeer g m

/-- Elements that a member owes a chunk: of a peer spine, as many as this module's factors. -/
def State.owed (s : State) (e sl chunk m : Nat) : Nat :=
  let x := s.slot e sl
  if s.isPeer x.group m ∧ x.op ≠ 3 then (x.chunk chunk).factors else x.elems

/-- Members whose data are incomplete, in rising order. -/
def State.missing (s : State) (e sl chunk : Nat) : List Nat :=
  (s.needed e sl chunk).filter fun m => decide (sget 0 ((s.slot e sl).chunk chunk).expected m < s.owed e sl chunk m)

/-- Whether the CACC or CGATH that takes a member's data has issued. -/
def State.taking (s : State) (e sl chunk m : Nat) : Bool :=
  let k := (s.slot e sl).chunk chunk
  if (s.slot e sl).op = 3 then k.started
  else if s.isPeer (s.slot e sl).group m then decide (2 ≤ k.caccs) else decide (1 ≤ k.caccs)

/-- The words of n accumulators from element i of a chunk's accumulators at an ACCUM offset. -/
def State.accumWords (s : State) (e sl addr i n : Nat) : List Nat :=
  (List.range n).map fun k => leNat (sbytes s.bsn.accum (s.accumBase e sl + addr + 8 * (i + k)) 8)

/-- Accumulators take words. -/
def State.putAccum (s : State) (e sl addr i : Nat) (l : List Nat) : State :=
  { s with bsn.accum := swrite s.bsn.accum (s.accumBase e sl + addr + 8 * i) (l.flatMap (leBytes 8)) }

/-- The elements of a contribution join their accumulators; the first contribution of an element is stored (spec/09 R262,
R263). At the second CACC of a CROSS_HALL chunk they are added to the factors that stand there. -/
def State.accumulate (s : State) (e sl : Nat) (f : CollFrame) : State :=
  let x := s.slot e sl
  let k := x.chunk f.chunk
  let inf := s.inFmt x.group
  let old := s.accumWords e sl k.addr f.offset f.count
  let new := decodeElems inf f.payload f.count
  let l := (old.zip new).zipIdx.map fun (p, i) =>
    if k.caccs = 2 then combineElem (fmtIsInt inf) 0 p.1 p.2
    else if k.expected.any fun y => decide (f.offset + i < y.2) then combineElem (fmtIsInt inf) x.reduce p.1 p.2
    else p.2
  s.putAccum e sl k.addr f.offset l

/-- A gap: a retransmit request, unless one was sent within 20 us (spec/09 R260). -/
def State.gapFrame (s : State) (e sl chunk m expected : Nat) : State :=
  let x := s.slot e sl
  let k := x.chunk chunk
  if k.gaps.any fun y => y.1 == m && decide (s.mono < y.2 + 20000) then s
  else
    let k := { k with gaps := (k.gaps.filter fun y => y.1 != m) ++ [(m, s.mono)] }
    (s.setSlot e sl (x.setChunk chunk k)).requestGap e sl chunk m expected

/-- Whether accumulators of a range, as offsets in the slot's accumulate space, are found bad in a way. -/
def accumHit (errs : List LineErr) (kind : ErrKind) (addr n : Nat) : Bool :=
  errs.any fun r => r.kind == kind && decide (addr ≤ r.addr.toNat) && decide (r.addr.toNat < addr + 8 * n)

/-- A contribution whose CACC or CGATH has issued: accumulated, a duplicate, or beyond a gap (spec/09 R260). An uncorrectable error
of the accumulators aborts with RESOURCE_LOST (spec/09 Table 9.8). -/
def State.takeContribution (s : State) (e sl : Nat) (f : CollFrame) (errs : List LineErr) : State :=
  let x := s.slot e sl
  let k := x.chunk f.chunk
  let want := sget 0 k.expected f.member
  if f.offset < want ∨ s.owed e sl f.chunk f.member ≤ want then s.count (ctrBsn e 3)
  else if want < f.offset then s.gapFrame e sl f.chunk f.member want
  else if x.op ≠ 3 ∧ accumHit errs .uncorrectable (k.addr + 8 * f.offset) f.count then s.bsnAbort e sl 8 0xFFFF 0
  else
    let s := if x.op = 3 then s else s.accumulate e sl f
    let k := { k with
      expected := sset 0 k.expected f.member (want + f.count)
      owner := if x.op = 3 then k.owner ++ [slice f.payload 0 (f.count * fmtBytes32 (s.inFmt x.group) / 32)] else k.owner }
    (s.setSlot e sl (x.setChunk f.chunk k)).count (ctrBsn e 0)

/-- Whether a contribution keeps the group's format and the chunk's extent: its FORMAT, OFFSET, COUNT and payload length; a
peer's factors also COUNT and OFFSET as this module sends its own (spec/09 R254, R257, R259, R281). -/
def State.contributionOk (s : State) (e sl : Nat) (f : CollFrame) : Bool :=
  let x := s.slot e sl
  let inf := s.inFmt x.group
  (f.hfhVersion == 1 || f.format == inf) && decide (f.offset + f.count ≤ x.elems) && f.offset % 32 == 0 &&
    f.count % 32 == 0 && decide (f.count * fmtBytes32 inf / 32 ≤ f.payload.length)

/-- Whether a peer's factors come as this module's frames would carry them. -/
def State.factorsOk (s : State) (e sl : Nat) (f : CollFrame) : Bool :=
  let n := s.owed e sl f.chunk f.member
  let per := frameElems (s.inFmt (s.slot e sl).group)
  f.offset % per == 0 && f.count == min per (n - f.offset)

/-- A contribution accepted into an operation: held early within EARLY_CELLS, or taken (spec/09 R259 to R261). -/
def State.contribute (s : State) (e sl : Nat) (f : CollFrame) (errs : List LineErr) : State :=
  let x := s.slot e sl
  if s.contributionOk e sl f = false then s.bsnAbort e sl 6 0xFFFF 0
  else if x.nChunks ≤ f.chunk ∨ (x.op = 3 ∧ f.member ≠ f.chunk % max 1 (s.members x.group).length) then s.count (ctrBsn e 1)
  else if s.taking e sl f.chunk f.member then
    if s.isPeer x.group f.member ∧ x.op = 7 ∧ s.factorsOk e sl f = false then s.bsnAbort e sl 6 0xFFFF 0
    else s.takeContribution e sl f errs
  else if s.fld (R.BSN_CTRL e) F.BSN_CTRL_EARLY_CELLS < (x.early.map CollFrame.cells).foldl (· + ·) f.cells then
    (s.setSlot e sl { x with dropped := (x.dropped.filter fun d => d != (f.chunk, f.member)) ++ [(f.chunk, f.member)] }).count
      (ctrBsn e 5)
  else s.setSlot e sl { x with early := x.early ++ [f] }

/-- A CACC or CGATH issues: the frames held for it are taken, then members whose frames were dropped are asked again (spec/09
R260, R261). -/
def State.takeEarly (s : State) (e sl chunk : Nat) (errs : List LineErr) : State :=
  let x := s.slot e sl
  let mine (f : CollFrame) : Bool := f.chunk == chunk && s.taking e sl chunk f.member
  let asked := x.dropped.filter fun d => d.1 == chunk && s.taking e sl chunk d.2
  let s := s.setSlot e sl { x with early := x.early.filter fun f => !mine f, dropped := x.dropped.filter fun d => !asked.contains d }
  let s := (x.early.filter mine).foldl (fun s f =>
    (if s.slotActive e sl then s.contribute e sl f errs else s).release f.stored) s
  if s.slotActive e sl = false then s
  else asked.foldl (fun s d => s.gapFrame e sl chunk d.2 (sget 0 ((s.slot e sl).chunk chunk).expected d.2)) s

/-! ## Instructions (spec/09 R265 to R267, R279, R281; spec/10 R299) -/

/-- An operation aborts at an instruction's issue. -/
def State.abortAt (s : State) (e sl code detail : Nat) : Res := .halt (s.bsnAbort e sl code 0xFFFF detail)

/-- Whether a chunk's accumulators at an offset keep the conditions of R258. -/
def Slot.accumOk (x : Slot) (chunk addr : Nat) : Bool :=
  addr % 64 == 0 && decide (addr + 8 * x.elems ≤ x.accSize) && decide (chunk < x.nChunks)

/-- An instruction of the collective group issues in a B context: an operation that Table 9.7 does not list with it aborts
with BAD_OPERATION 0x0B. -/
def State.issueColl (s : State) (c : Ctx) (w : Nat) (ops : List Nat) (long : Bool)
    (k : State → Context → Nat → Nat → Res) : State :=
  s.issue c w [] long fun s x => match c with
    | .b e sl => if ops.contains (s.slot e sl).op then k s x e sl else s.abortAt e sl 9 0xB
    | _ => .stall

def execDxnCacc (c : Ctx) (body : BitVec 56) (errs : List LineErr) (s : State) : Out :=
  let w := dxnWord 0xB0 body
  .next (s.issueColl c w [1, 2, 4, 7] true fun s r e sl =>
    let x := s.slot e sl
    let addr := (r.reg (wA w)).toNat
    let chunk := (r.reg (wB w)).toNat
    let k := x.chunk chunk
    if x.accumOk chunk addr = false then s.abortAt e sl 9 0xA
    else if (if x.op = 7 then 2 else 1) ≤ k.caccs then s.abortAt e sl 9 0xC
    else
      let k := { k with caccs := k.caccs + 1, addr := addr, phase := .accumulating, started := true }
      .go (((s.setSlot e sl (x.setChunk chunk k)).addLong c (.cacc chunk addr) []).takeEarly e sl chunk errs))

def execDxnCemit (c : Ctx) (body : BitVec 56) (s : State) : Out :=
  let w := dxnWord 0xB1 body
  .next (s.issueColl c w [1, 2] true fun s r e sl =>
    let x := s.slot e sl
    let addr := (r.reg (wA w)).toNat
    let chunk := (r.reg (wB w)).toNat
    if x.accumOk chunk addr = false then s.abortAt e sl 9 0xA
    else if (x.chunk chunk).phase = .emitted ∨ (x.chunk chunk).phase = .retained then s.abortAt e sl 9 0xC
    else .go ((s.setSlot e sl (x.setChunk chunk { x.chunk chunk with phase := .retained })).addLong c (.cemit chunk addr) []))

def execDxnCgath (c : Ctx) (body : BitVec 56) (s : State) : Out :=
  let w := dxnWord 0xB2 body
  .next (s.issueColl c w [3] true fun s r e sl =>
    let x := s.slot e sl
    let chunk := (r.reg (wB w)).toNat
    let k := x.chunk chunk
    if x.nChunks ≤ chunk then s.abortAt e sl 9 0xA
    else if k.started then s.abortAt e sl 9 0xC
    else
      let s := s.setSlot e sl (x.setChunk chunk { k with started := true, phase := .accumulating })
      .go ((s.addLong c (.cgath chunk) []).takeEarly e sl chunk []))

/-- The tile type of a format code (spec/04 Table 4.8, spec/09 Table 9.4). -/
def fmtType (f : Nat) : Nat := f - 1

/-- 1,024 elements on the fabric as a tile of their format; the bytes beyond the elements of a narrow type are free (log
entry 18). -/
def State.fabricTile (s : State) (f : Nat) (b : Bytes) : Bytes × State :=
  if fmtIsMx f then
    let m := fmtMx f
    let blk (r : Nat) : Bytes := slice b (r * fmtBytes32 f) (fmtBytes32 f)
    let codes := (List.range 1024).map fun i => packedAt ((blk (i / 32)).drop 1) m.fmt.width (i % 32)
    (tileBytes (tMake (fmtType f) codes ((List.range 32).map fun r => byteAt (blk r) 0)), s)
  else
    let w := fmtBytes32 f / 32
    let els := (List.range 1024).flatMap fun i => leBytes w (beAt b (w * i) w)
    (slice (els ++ (tileBytes (Config.freeTile s.free)).drop els.length) 0 4096, { s with free := s.free + 1 })

/-- The 1,024 elements of a tile of a format as they stand on the fabric. -/
def tileFabric (f : Nat) (t : Bytes) : Bytes :=
  let x := tileOf t
  if fmtIsMx f then
    let m := fmtMx f
    (List.range 32).flatMap fun r => BitVec.ofNat 8 (tScale x r) ::
      packBits m.fmt.width (m.fmt.width * 4) ((List.range 32).map fun i => tCode (fmtType f) x (32 * r + i))
  else
    let w := fmtBytes32 f / 32
    (List.range 1024).flatMap fun i => beBytes w (leAt t (w * i) w)

/-- The tiles of a chunk as it is handed: a lead, then E / 1,024 data tiles (spec/10 R299, Table 10.5). -/
def State.handTiles (s : State) (x : Slot) (chunk handoff cancel : Nat) (data : Bytes) : List Bytes × State :=
  let f := s.outFmt x.group
  let n := x.elems / 1024
  let lead := leBytes 1 1 ++ leBytes 1 (fmtType f) ++ leBytes 2 x.group ++ leBytes 4 chunk ++ leBytes 2 x.opSeq ++
    leBytes 2 x.rank ++ leBytes 4 n ++ leBytes 4 handoff ++ leBytes 4 cancel ++ leBytes 8 x.seed ++ leBytes 8 x.generation
  (List.range n).foldl (fun (l, s) t =>
    let (b, s) := s.fabricTile f (slice data (t * 32 * fmtBytes32 f) (32 * fmtBytes32 f))
    (l ++ [b], s)) ([slice lead 0 4096], s)

/-- CAPPLY hands a chunk on a channel. HANDOFF counts this chunk too (log entry 26). -/
def State.hand (s : State) (c : Ctx) (e sl ch chunk addr n : Nat) (t : Truss) : State :=
  let x := s.slot e sl
  let off := R.TEN_TRUSS (n / 256) (n % 256)
  let s := s.incFld off F.TEN_TRUSS_HANDOFFS
  let h := s.fld off F.TEN_TRUSS_HANDOFFS
  let cancel := (s.peg (leAt t.descriptor 6 2)).toNat % 2 ^ 32
  let f := s.outFmt x.group
  let (tiles, s) := s.handTiles x chunk h cancel (encodeElems f (s.accumWords e sl addr 0 x.elems))
  let y := s.channel e ch
  let hd : Handoff := { slot := sl, opSeq := x.opSeq, chunk := chunk, addr := addr, handoff := h, op := x.op,
                        tiles := tiles.length, rest := tiles, format := fmtType f }
  let s := s.setChannel e ch (Channel.fill 2 { y with handed := y.handed ++ [hd] })
  (s.setSlot e sl (x.setChunk chunk { x.chunk chunk with phase := .handed, addr := addr })).addLong c (.capply chunk addr ch) []

/-- The accumulators of a chunk are read to be rounded: an uncorrectable error aborts with RESOURCE_LOST, a residue that disagrees
with RESIDUE_FAILED (spec/09 R268, Table 9.8). -/
def accumCode (errs : List LineErr) (addr n : Nat) : Nat :=
  if accumHit errs .uncorrectable addr n then 8 else if accumHit errs .residue addr n then 0xA else 0

def execDxnCapply (c : Ctx) (body : BitVec 56) (errs : List LineErr) (s : State) : Out :=
  let w := dxnWord 0xB3 body
  .next (s.issueColl c w [4, 7] true fun s r e sl =>
    let x := s.slot e sl
    let addr := (r.reg (wA w)).toNat
    let chunk := (r.reg (wB w)).toNat
    let ch := (r.reg (wC w)).toNat % 16
    match (s.channel e ch).truss with
    | none => .fault s 0xC 0
    | some n =>
      let t := sget {} s.ten.trusses n
      let off := R.TEN_TRUSS (n / 256) (n % 256)
      if r.domain ≠ 0 ∧ leAt t.descriptor 4 2 ≠ r.domain.toNat then .fault s 0xC 0
      else if x.accumOk chunk addr = false then s.abortAt e sl 9 0xA
      else if s.outFmt x.group = 3 ∨ s.outFmt x.group = 7 then s.abortAt e sl 9 0xD
      else if s.fld off F.TEN_TRUSS_STATE = 2 then s.abortAt e sl 0xB 0
      else if (s.channel e ch).handed.any fun h => h.slot != sl || h.opSeq != x.opSeq then .stall
      else if accumCode errs addr x.elems ≠ 0 then s.abortAt e sl (accumCode errs addr x.elems) 0
      else .go (s.hand c e sl ch chunk addr n t))

def execDxnCbar (c : Ctx) (body : BitVec 56) (s : State) : Out :=
  let w := dxnWord 0xB4 body
  .next (s.issueColl c w [5] true fun s r e sl =>
    let x := s.slot e sl
    let step := (r.reg (wB w)).toNat % 65536
    let kept := x.arrivals.filter fun a => a.1 == step || a.1 == (step + 1) % 65536
    .go ((s.setSlot e sl { x with curStep := step, arrivals := kept }).addLong c (.cbar step) []))

/-- Whether a circuit exists and belongs to a domain. -/
def State.circuitOf (s : State) (n domain : Nat) : Bool :=
  decide (n < 4096) && s.fld (R.SPL_CIRC_ACT n) F.SPL_CIRC_ACT_STATE != 0 &&
    s.fld (R.SPL_CIRC_ACT n) F.SPL_CIRC_ACT_DOMAIN == domain

def execDxnCring (c : Ctx) (body : BitVec 56) (s : State) : Out :=
  let w := dxnWord 0xB5 body
  .next (s.issueColl c w [6] true fun s r e sl =>
    let x := s.slot e sl
    if s.circuitOf x.circuit (s.grpA x.group F.BSN_GROUP_A_DOMAIN) = false then s.abortAt e sl 8 0
    else .go (s.addLong c (.cring ((r.reg (wB w)).toNat % 65536)) []))

def execDxnCabort (c : Ctx) (body : BitVec 56) (s : State) : Out :=
  let w := dxnWord 0xB6 body
  .next (s.issueColl c w (List.range 16) false fun s r e sl =>
    let code := (r.reg (wA w)).toNat % 65536
    s.abortAt e sl (if code = 5 ∨ 0x8000 ≤ code then code else 5) 0)

def execDxnCstat (c : Ctx) (body : BitVec 56) (s : State) : Out :=
  let w := dxnWord 0xB7 body
  .next (s.issueColl c w (List.range 16) false fun s r e sl => .go (s.setCtx c (r.setReg (wD w) (s.rd (R.BSN_SLOT e sl)))))

/-! ## Completion of collective instructions -/

/-- CACC completes when every awaited member's data are complete. -/
def State.doCacc (s : State) (o : LongOp) (e sl chunk : Nat) : State :=
  if (s.missing e sl chunk).isEmpty then
    let x := s.slot e sl
    (s.setSlot e sl (x.setChunk chunk { x.chunk chunk with phase := .accumulated })).completeLong o
  else s

/-- A chunk leaves: sealed, retained, sent; it waits while the retention region is full. -/
def State.emitThen (s : State) (o : LongOp) (e sl chunk : Nat) (payload : Bytes) : State :=
  match s.emitChunk e sl chunk payload with
  | some s => s.completeLong o
  | none => s

/-- CEMIT: the accumulators are checked, rounded and emitted. -/
def State.doCemit (s : State) (o : LongOp) (e sl chunk addr : Nat) (errs : List LineErr) : State :=
  let x := s.slot e sl
  let code := accumCode errs addr x.elems
  if code ≠ 0 then s.bsnAbort e sl code 0xFFFF 0
  else s.emitThen o e sl chunk (encodeElems (s.outFmt x.group) (s.accumWords e sl addr 0 x.elems))

/-- CGATH: the owner's payloads leave unchanged. -/
def State.doCgath (s : State) (o : LongOp) (e sl chunk : Nat) : State :=
  if (s.missing e sl chunk).isEmpty then s.emitThen o e sl chunk ((s.slot e sl).chunk chunk).owner.flatten else s

/-- CAPPLY completes when the output is retained and reported, or in RETURN mode written. -/
def State.doCapply (s : State) (o : LongOp) (e sl chunk : Nat) : State :=
  let p := ((s.slot e sl).chunk chunk).phase
  if p = .emitted ∨ p = .written then s.completeLong o else s

/-- Members that have arrived at a step. -/
def arrivedAll (l : List (Nat × Nat)) (step n : Nat) : Bool := (List.range n).all fun m => l.contains (step, m)

/-- CBAR completes when every member has arrived; the release leaves (spec/09 R266). -/
def State.doCbar (s : State) (o : LongOp) (e sl step : Nat) : State :=
  let x := s.slot e sl
  if arrivedAll x.arrivals step (s.members x.group).length then
    let s := s.setSlot e sl { x with arrivals := x.arrivals.filter fun a => a.1 != step }
    (s.sendNotice x.group x.op x.opSeq 6 step).completeLong o
  else s

/-- CRING completes when every member has reported its step (spec/09 R267). -/
def State.doCring (s : State) (o : LongOp) (e sl step : Nat) : State :=
  let x := s.slot e sl
  if arrivedAll x.stepDone step (s.members x.group).length then
    (s.setSlot e sl { x with stepDone := x.stepDone.filter fun a => a.1 != step }).completeLong o
  else s

/-- LONG_OP_COMPLETE: the effect of the operation, as far as its condition holds; else nothing (spec/04 R99 to R103). -/
def execLongOpComplete (op : Nat) (read : HostRead) (errs : List LineErr) (s : State) : Out :=
  .next (match s.longOp? op with
    | none => s
    | some o =>
      let c := o.ctx
      match o.kind with
      | .move sp dp src dst n => s.doMove o sp dp src dst n read errs
      | .fill sp a v w n => s.doFill o sp a v w n
      | .xmove i t l d n sp => s.doXmove o i t l d n sp read errs
      | .tdma b t r src n sp => s.doTdma o b t r src n sp read errs
      | .vload v sp a w n => s.doVload o v sp a (w * n) read errs
      | .vstore d sp a => (s.spaceWrite c sp a.toNat d).completeLong o
      | .tload t sp a => s.doTload o t sp a read errs
      | .tstore d sp a => (s.spaceWrite c sp a.toNat d).completeLong o
      | .areg a v f => ((s.setA c a v).setCtx c ((s.ctx c).addFlags f)).completeLong o
      | .treg t v f => ((s.setT c t v).setCtx c ((s.ctx c).addFlags f)).completeLong o
      | .vreg v x f => ((s.setV c v x).setCtx c ((s.ctx c).addFlags f)).completeLong o
      | .send _ _ => s
      | .sendm _ sp a =>
        if sp = 1 ∧ (s.devRead a.toNat 4096 errs).2.2 then (s.devRead a.toNat 4096 errs).1.failLongMem o else s
      | .recv p t => s.doRecv o p fun s b => s.setT c t (tileOf b)
      | .recvm p sp a => s.doRecv o p fun s b => s.spaceWrite c sp a.toNat b
      | .farPeg _ _ _ p _ _ _ out => match out with
        | some r => s.farResult o p.toNat r
        | none => s
      | k => match c with
        | .b e sl => match k with
          | .cacc chunk _ => s.doCacc o e sl chunk
          | .cemit chunk a => s.doCemit o e sl chunk a errs
          | .cgath chunk => s.doCgath o e sl chunk
          | .capply chunk _ _ => s.doCapply o e sl chunk
          | .cbar step => s.doCbar o e sl step
          | .cring step => s.doCring o e sl step
          | _ => s
        | _ => s)

/-! ## Frames for an engine (spec/09 R257, R259) -/

/-- The head of an engine's inbox when it is of a kind, and the state without it. -/
def State.inboxTake (s : State) (e kind : Nat) : Option (CollFrame × State) :=
  match sget [] s.bsn.inbox e with
  | f :: rest => if f.kind = kind then some (f, { s with bsn.inbox := sset [] s.bsn.inbox e rest }) else none
  | [] => none

/-- Whether a member may send a kind in an operation (spec/09 Tables 9.3, 9.6). -/
def State.maySend (s : State) (g op m kind : Nat) : Bool := match kind with
  | 1 => op == 3 || op == 7 || ([1, 2, 4].contains op && !s.isPeer g m)
  | 3 | 4 => true
  | 5 => op == 5
  | 7 => op == 6
  | _ => false

/-- Whether a frame comes from a member, on its port, in the group's domain, with a kind it may send. -/
def State.fromMember (s : State) (op : Nat) (f : CollFrame) : Bool :=
  f.operation == op && f.operation != 0 && decide (f.member < (s.members f.group).length) &&
    s.memberPort f.group f.member == f.port &&
    (f.hfhVersion == 1 || f.domain == s.grpA f.group F.BSN_GROUP_A_DOMAIN) && s.maySend f.group op f.member f.kind

/-- Acceptance of a frame into an active operation: one of OPERATION 0x0, or that the operation does not take, is a MEMBER_REJECT; of
an operation that aborted it is answered with the notice, of none it is STALE (spec/09 R253, R259, R274). -/
def State.accept (s : State) (e : Nat) (f : CollFrame) : State × Option Nat :=
  if f.operation = 0 then (s.count (ctrBsn e 1), none)
  else match s.activeSlot e f.group f.opSeq with
  | some sl => if s.fromMember (s.slot e sl).op f then (s, some sl) else (s.count (ctrBsn e 1), none)
  | none => match s.endedOp e f.group f.opSeq with
    | some o =>
      if o.code ≠ 0 then (s.answerNotice f.group f.operation f.opSeq o.code f.port, none) else (s.count (ctrBsn e 2), none)
    | none => (s.count (ctrBsn e 2), none)

/-- The kinds that an engine takes from a member. -/
def memberKind (kind : Nat) : Bool := kind == 1 || kind == 3 || kind == 4 || kind == 5 || kind == 7

/-- A collective frame comes to its engine; one of a kind that no member sends is not accepted (spec/09 Table 9.6). -/
def State.steer (s : State) (e : Nat) (f : CollFrame) : State :=
  if memberKind f.kind then { s with bsn.inbox := sset [] s.bsn.inbox e (sget [] s.bsn.inbox e ++ [f]) }
  else (s.accept e f).1.release f.stored

/-- A frame of a kind at the head of an engine's inbox, when accepted, has an effect on its slot; the buffer keeps it only while the
engine holds it early. -/
def State.served (s : State) (e kind : Nat) (k : State → Nat → CollFrame → State) : State :=
  match s.inboxTake e kind with
  | none => s
  | some (f, s) =>
    let s := match s.accept e f with
      | (s, some sl) => k s sl f
      | (s, none) => s
    if s.engineHolds f.stored then s else s.release f.stored

def execContribution (e : Fin 8) (errs : List LineErr) (s : State) : Out :=
  .next (s.served e 1 fun s sl f => s.contribute e sl f errs)

def execAbortNotice (e : Fin 8) (s : State) : Out :=
  .next (s.served e 4 fun s sl f => s.bsnAbort e sl f.code f.member 0)

def execBarrierArrival (e : Fin 8) (s : State) : Out :=
  .next (s.served e 5 fun s sl f =>
    let x := s.slot e sl
    if f.code = x.curStep ∨ f.code = (x.curStep + 1) % 65536 then
      s.setSlot e sl { x with arrivals := if x.arrivals.contains (f.code, f.member) then x.arrivals
                                          else x.arrivals ++ [(f.code, f.member)] }
    else s.count (ctrBsn e 2))

def execStepDone (e : Fin 8) (s : State) : Out :=
  .next (s.served e 7 fun s sl f =>
    let x := s.slot e sl
    s.setSlot e sl { x with stepDone := if x.stepDone.contains (f.code, f.member) then x.stepDone
                                        else x.stepDone ++ [(f.code, f.member)] })

/-! ## Retransmission (spec/09 R270, R271) -/

/-- The abort of a retained copy that cannot be read: of the active operation, or late. -/
def State.retainLost (s : State) (e g seq : Nat) : State :=
  match s.activeSlot e g seq with
  | some sl =>
    let s := s.bsnLog e 4 g seq 3 0xFFFF sl
    s.bsnAbort e sl 3 0xFFFF 0
  | none => match s.endedOp e g seq with
    | some o =>
      let s := s.bsnLog e 4 g seq 3 0xFFFF o.slot
      s.bsnLate o 3
    | none => s

/-- A range of a retained chunk goes to one port. -/
def State.serveRetained (s : State) (e op : Nat) (r : Retained) (f : CollFrame) (errs : List LineErr) : State :=
  let (s, b, bad) := s.devRead r.addr r.bytes errs
  if bad then s.retainLost e r.group r.opSeq
  else
    let fmt := s.outFmt r.group
    let n := r.bytes * 32 / max 1 (fmtBytes32 fmt)
    let off := if f.count = 0 then 0 else f.offset
    let cnt := if f.count = 0 then n else min f.count (n - f.offset)
    let data := slice b (off * fmtBytes32 fmt / 32) (cnt * fmtBytes32 fmt / 32)
    let s := s.count (ctrBsn e 7)
    s.sendElems r.group op r.opSeq 2 r.chunk fmt r.sealCrc off cnt data fun s fr => s.engEmit r.group fr (.port f.port)

/-- RETRANSMIT_REQUEST: served from the retained copy, of a live or a completed operation; a chunk of a completed operation
already released aborts it late with RETAIN_EXPIRED. -/
def execRetransmitRequest (e : Fin 8) (errs : List LineErr) (s : State) : Out :=
  .next (match s.inboxTake e 3 with
    | none => s
    | some (f, s) =>
      let s := match s.activeSlot e f.group f.opSeq, s.endedOp e f.group f.opSeq with
        | none, some o =>
          if f.operation = 0 ∨ o.code ≠ 0 then (s.accept e f).1
          else if s.fromMember (byteAt o.record 0) f = false then s.count (ctrBsn e 2)
          else match s.retained? e f.group f.opSeq f.chunk with
            | some r => s.serveRetained e f.operation r f errs
            | none => if o.emitted.contains f.chunk then s.bsnLate o 0xC else s
        | _, _ => match s.accept e f with
          | (s, none) => s
          | (s, some _) => match s.retained? e f.group f.opSeq f.chunk with
            | some r => s.serveRetained e f.operation r f errs
            | none => s
      s.release f.stored)

/-- RETAIN_US passes: the chunk is released. -/
def execRetentionRelease (e : Fin 8) (group : BitVec 12) (opSeq : BitVec 16) (chunk : Nat) (s : State) : Out :=
  .next { s with bsn.retained := s.bsn.retained.filter fun x =>
    !(x.e == e.val && x.group == group.toNat && x.opSeq == opSeq.toNat && x.chunk == chunk) }

/-- RETAIN_US passes since an abort: its code is kept no more. -/
def execAbortCodeExpiry (e : Fin 8) (group : BitVec 12) (opSeq : BitVec 16) (s : State) : Out :=
  .next { s with bsn.ended := s.bsn.ended.filter fun x =>
    !(x.e == e.val && x.group == group.toNat && x.opSeq == opSeq.toNat && x.code != 0) }

/-! ## Timers and ends (spec/09 R272, R274, R277, R280) -/

/-- TIMEOUT names the lowest member still incomplete; when that member's port is UP a dispute is filed (spec/09 R272, R277). -/
def State.timeout (s : State) (e sl : Nat) (miss : List Nat) : State :=
  match miss with
  | [] => s.bsnAbort e sl 1 0xFFFF 0
  | m :: _ =>
    let x := s.slot e sl
    let up := s.portUp (s.memberPort x.group m)
    let s := s.bsnAbort e sl 1 m 0
    if up then
      let s := { s with bsn.disputes := s.bsn.disputes ++ [Dispute.mk x.group x.opSeq m] }.bsnLog e 3 x.group x.opSeq 1 m sl
      s.plnDispute (s.memberPort x.group m) x.group x.opSeq m (((s.members x.group).getD m 0).toNat % 2 ^ 20)
    else s

/-- Bytes of a chunk on the fabric under OUT_FORMAT. -/
def State.chunkBytes (s : State) (e sl : Nat) : Nat :=
  (s.slot e sl).elems * fmtBytes32 (s.outFmt (s.slot e sl).group) / 32

/-- TIMEOUT_US passes for a CACC, CGATH or CBAR that has not completed; one that has all it waits for completes, unless it waits for
room to retain its chunk (log entry 77). -/
def execCollectiveTimeout (op : Nat) (s : State) : Out :=
  .next (match s.longOp? op with
    | none => s
    | some o => match o.ctx with
      | .b e sl =>
        if s.slotActive e sl = false then s
        else match o.kind with
          | .cacc chunk _ => if (s.missing e sl chunk).isEmpty then s else s.timeout e sl (s.missing e sl chunk)
          | .cgath chunk =>
            if (s.missing e sl chunk).isEmpty ∧ (s.retainFit e (max 1 (ceilDiv (s.chunkBytes e sl) 4096))).isSome then s
            else s.timeout e sl (s.missing e sl chunk)
          | .cbar step =>
            let x := s.slot e sl
            let miss := (List.range (s.members x.group).length).filter fun m => !x.arrivals.contains (step, m)
            if miss.isEmpty then s else s.timeout e sl miss
          | _ => s
      | _ => s)

/-- STEP_BUDGET_US passes for a CRING that has not completed. -/
def execStepBudgetExpiry (op : Nat) (s : State) : Out :=
  .next (match s.longOp? op with
    | none => s
    | some o => match o.ctx, o.kind with
      | .b e sl, .cring step =>
        if arrivedAll (s.slot e sl).stepDone step (s.members (s.slot e sl).group).length then s
        else s.bsnAbort e sl 4 0xFFFF 0
      | _, _ => s)

/-- 100 us after an abort, chunks whose reports have not arrived are resolved as unknown. -/
def execApplyReportTimeout (e : Fin 8) (sl : Fin 1024) (s : State) : Out :=
  if s.slotSt e sl ≠ 2 then .next s
  else .next ((List.range 16).foldl (fun s ch =>
    let y := s.channel e ch
    let mine := y.handed.filter fun h => h.slot == sl.val
    let s := s.setChannel e ch { y with handed := y.handed.filter fun h => h.slot != sl.val }
    mine.foldl (fun s h =>
      let x := s.slot e sl
      s.setSlot e sl (x.setChunk h.chunk { x.chunk h.chunk with writeMap := 2 })) s) s)

/-- Step 4 of an abort, once no handed chunk awaits its report: record, peg, interrupt, log; the slot ends with its context. -/
def execAbortComplete (e : Fin 8) (sl : Fin 1024) (s : State) : Out :=
  .next (if s.slotSt e sl ≠ 2 ∨ (s.slot e sl).closed ∨ s.unreported e sl then s
    else (s.bsnAbortEnd e sl).tryEnd (bCtx e sl))

/-! ## Returning tiles (spec/10 R300 to R302) -/

/-- Whether a control tile is of a kind and names a handoff. -/
def controlOk (t : Bytes) (kind : Nat) (h : Handoff) : Bool :=
  byteAt t 0 == kind && leAt t 4 4 == h.chunk && leAt t 8 2 == h.opSeq && leAt t 16 4 == h.handoff

/-- The format code of a tile type that an output may have. -/
def typeFormat (t : Nat) : Nat := if t = 2 ∨ 11 < t then 0 else t + 1

/-- Element words of an output tile in RETURN mode, converted exactly to binary64; of a type with no format they are free values. -/
def State.outputWords (s : State) (type : Nat) (t : Bytes) : List Nat × State :=
  let f := typeFormat type
  if f = 0 then
    ((List.range 1024).map fun i => (Config.freeValue (s.free + i)).toNat, { s with free := s.free + 1024 })
  else
    let l := decodeElems f (tileFabric f t) 1024
    (if fmtIsInt f then l.map fun x => fp64Word (Fp.ofInt (signedOf 64 x)) else l, s)

/-- A cross-hall projection's factors leave to every peer spine as contributions of this hall (spec/09 R281). -/
def State.sendFactors (s : State) (e sl chunk addr n : Nat) : State :=
  let x := s.slot e sl
  let f := s.inFmt x.group
  let data := encodeElems f (s.accumWords e sl addr 0 n)
  s.sendElems x.group x.op x.opSeq 1 chunk f 0 0 n data fun s fr => s.toPeers x.group fr

/-- Output in RETURN mode is all written; factors leave once the accumulators have been read without an error. -/
def State.outputDone (s : State) (e : Nat) (h : Handoff) (errs : List LineErr) : State :=
  let x := s.slot e h.slot
  let n := 1024 * h.outTiles
  let s := s.setSlot e h.slot (x.setChunk h.chunk { x.chunk h.chunk with phase := .written, factors := n })
  if h.op ≠ 7 then s
  else
    let code := accumCode errs h.addr n
    if code ≠ 0 then s.bsnAbort e h.slot code 0xFFFF 0 else s.sendFactors e h.slot h.chunk h.addr n

/-- An output lead: TILES and FORMAT taken, or a fault of the truss. -/
def State.outputLead (s : State) (e ch n : Nat) (ret : Bool) (h : Handoff) (rest : List Handoff) (t : Bytes)
    (errs : List LineErr) : State :=
  let tiles := leAt t 12 4
  let x := s.slot e h.slot
  if !controlOk t 2 h || decide (1024 < tiles) || (!ret && byteAt t 1 != h.format) ||
      (ret && decide (x.accSize < h.addr + 8192 * tiles)) then s.trussFault n
  else
    let h := { h with leadDone := true, outTiles := tiles, format := byteAt t 1 }
    let s := s.setChannel e ch { s.channel e ch with handed := h :: rest }
    if ret ∧ tiles = 0 ∧ h.dropped = false then s.outputDone e h errs else s

/-- An output data tile: written to the accumulators in RETURN mode, gathered in EMIT mode, discarded after an abort. -/
def State.outputTile (s : State) (e ch : Nat) (ret : Bool) (h : Handoff) (rest : List Handoff) (t : Bytes)
    (errs : List LineErr) : State :=
  let h' := { h with outDone := h.outDone + 1,
                     output := if ret || h.dropped then h.output else h.output ++ tileFabric (typeFormat h.format) t }
  let s := s.setChannel e ch { s.channel e ch with handed := h' :: rest }
  if ret ∧ h.dropped = false then
    let (l, s) := s.outputWords h.format t
    let s := s.putAccum e h.slot h.addr (1024 * h.outDone) l
    if h'.outDone = h'.outTiles then s.outputDone e h' errs else s
  else s

/-- A report: WRITE_MAP takes its STATUS (for a STATUS that is not defined, a free value), and in EMIT mode the output is
retained and sent first; none while the retention region is full. -/
def State.report (s : State) (e ch n : Nat) (ret : Bool) (h : Handoff) (rest : List Handoff) (t : Bytes) : Option State :=
  if controlOk t 3 h = false then some (s.trussFault n)
  else
    let (v, s) := s.draw
    let m := if byteAt t 1 = 0 then 1 else if byteAt t 1 ≤ 2 then 0 else v.toNat % 3
    let x := s.slot e h.slot
    let s := s.setSlot e h.slot (x.setChunk h.chunk { x.chunk h.chunk with writeMap := m })
    let s := s.setChannel e ch { s.channel e ch with handed := rest }
    if ret || h.dropped then some s else s.emitChunk e h.slot h.chunk h.output

/-- The tail port of a truss. -/
def Truss.tailKey (t : Truss) (q : Nat) : Nat :=
  let (row, col) := t.stages.getLastD (0, 0)
  portKey (tenonIx q row col) (byteAt t.descriptor 9 / 16 % 4)

/-- The engine uses the tile at the front of a channel's buffer: an output lead, a data tile or a report of the oldest unreported
handoff; a report that must wait for room to retain its output stays. -/
def State.channelUse (s : State) (e ch n : Nat) (ret : Bool) (errs : List LineErr) : State :=
  match (s.channel e ch).outbound with
  | [] => s
  | b :: rest =>
    let t := s.setChannel e ch { s.channel e ch with outbound := rest }
    match (t.channel e ch).handed with
    | [] => t.trussFault n
    | h :: more =>
      if h.leadDone = false then t.outputLead e ch n ret h more b errs
      else if h.outDone < h.outTiles then t.outputTile e ch ret h more b errs
      else (t.report e ch n ret h more b).getD s

/-- Tiles reach the engine's end of a channel as its buffer has room, and it uses the first. -/
def execChannelTileReceive (e : Fin 8) (ch : Fin 16) (errs : List LineErr) (s : State) : Out :=
  .next (match (s.channel e ch).truss with
    | none => s
    | some n =>
      let t := sget {} s.ten.trusses n
      let k := t.tailKey (n / 256)
      ((s.channelTake e ch k).channelTake e ch k).channelUse e ch n (bitOf (byteAt t.descriptor 11) 7) errs)

/-- BSN_ABORT: the slot named, when its operation is active, aborts with HOST_ABORT (spec/09 R278). -/
def execBasinAbort (e : Fin 8) (sl : Fin 1024) (s : State) : Out :=
  .next ((s.setFld (R.BSN_ABORT e) F.BSN_ABORT_SLOT sl).bsnAbort e sl 5 0xFFFF 0)

end Sys2Proof.Machine
end

