-- ==== Sys2Proof/Machine/Image.lean ====
section
/-! DEFINITION. DXN images: layout, the checks of Table 4.18, signatures, and the verified-image table (spec/04 R128 to R133;
spec/15 R395 to R398). -/

namespace Sys2Proof.Machine

/-! ## Signatures (spec/15 R395, R397, R398) -/

/-- The key digest of a public key: SHAKE256 truncated to 32 bytes. -/
def keyDigest (pub : Bytes) : Nat := (Config.shake256 pub 32).toNat % 2 ^ 256

/-- The key digest of a slot: fused for the vendor's, in SEC_IMG_KEY for the operator's; 0 is empty. -/
def State.slotDigest (s : State) (slot : Nat) : Nat :=
  if slot < 4 then (Config.vendorDigest slot).toNat
  else (s.rd (R.SEC_IMG_KEY slot 0)).toNat + (s.rd (R.SEC_IMG_KEY slot 1)).toNat * 2 ^ 64 +
    (s.rd (R.SEC_IMG_KEY slot 2)).toNat * 2 ^ 128 + (s.rd (R.SEC_IMG_KEY slot 3)).toNat * 2 ^ 192

/-- Whether a public key is that of a slot neither empty nor revoked. -/
def State.slotHasKey (s : State) (slot : Nat) (pub : Bytes) : Bool :=
  s.slotDigest slot != 0 && !(decide (slot < 4) && s.sec.keyRevoked.getLsbD slot) && keyDigest pub == s.slotDigest slot

/-- Whether a signature section verifies over a message (spec/15 R398, Table 15.2). -/
def State.sigOk (s : State) (firmware : Bool) (sig msg : Bytes) : Bool :=
  let slot := byteAt sig 1
  decide (2892 ≤ sig.length) && byteAt sig 0 == 1 && allZero sig 2 2 && (sig.drop 2892).all (fun b => b == 0) &&
    (decide (slot < 4) || (!firmware && decide (slot < 12))) && s.slotHasKey slot (slice sig 4 68) &&
    Config.xmssVerify (slice sig 4 68) msg (slice sig 72 2820)

/-! ## Headers (spec/04 Tables 4.16 to 4.19) -/

/-- CODE_OFFSET. -/
def imCodeOff (h : Bytes) : Nat := leAt h 8 4
/-- CODE_COUNT. -/
def imCodeCount (h : Bytes) : Nat := leAt h 12 4
/-- DATA_OFFSET. -/
def imDataOff (h : Bytes) : Nat := leAt h 16 4
/-- DATA_SIZE. -/
def imDataSize (h : Bytes) : Nat := leAt h 20 4
/-- LOCAL_NEED. -/
def imLocal (h : Bytes) : Nat := leAt h 24 4
/-- SIG_OFFSET. -/
def imSigOff (h : Bytes) : Nat := leAt h 28 4
/-- SIG_SIZE. -/
def imSigSize (h : Bytes) : Nat := leAt h 32 4
/-- SIGNED. -/
def imSigned (h : Bytes) : Bool := bitOf (byteAt h 7) 0
/-- MAJOR.MINOR as one number. -/
def imVersion (h : Bytes) : Nat := byteAt h 4 * 16 + byteAt h 5

/-- Check 0x03. -/
def versionOk (h : Bytes) : Bool :=
  let v := imVersion h
  decide (byteAt h 5 < 16) && [0x10, 0x11, 0x20, 0x21].contains v && !(byteAt h 6 == 2 && decide (v < 0x20))

/-- Whether two ranges overlap. -/
def overlap (a n b m : Nat) : Bool := decide (a < b + m) && decide (b < a + n) && decide (0 < n) && decide (0 < m)

/-- Check 0x05 of an image at an address; `device` gives which ranges lie in installed device memory. -/
def layoutOk (h : Bytes) (addr : Nat) (device : Option (Nat → Nat → Bool)) : Bool :=
  let co := imCodeOff h
  let cn := 8 * imCodeCount h
  let d := imDataOff h
  let dn := imDataSize h
  let g := imSigOff h
  let gn := imSigSize h
  let inside (o n : Nat) : Bool := n == 0 || (match device with | some f => f (addr + o) n | none => true)
  addr % 64 == 0 && co % 64 == 0 && d % 64 == 0 && g % 64 == 0 && decide (64 ≤ co) && (dn != 0 || d == 0) &&
    (imSigned h || (g == 0 && gn == 0)) && decide (cn ≤ 0x400000) &&
    (dn == 0 || (decide (co ≤ d) && decide (d + dn ≤ co + 0x400000))) && decide (g + gn ≤ 0x800000) &&
    !overlap d dn 0 64 && !overlap g gn 0 64 && !overlap co cn d dn && !overlap co cn g gn && !overlap d dn g gn &&
    inside co cn && inside d dn && inside g gn

/-- Check 0x06; `room` is how many instructions an engine can still take. -/
def sizeOk (h : Bytes) (profile room : Nat) : Bool :=
  let n := imCodeCount h
  decide (1 ≤ n) && (profile == 3 || decide (imDataSize h ≤ imLocal h)) && (match profile with
    | 1 => decide (n ≤ 4096) && decide (imDataSize h ≤ 262144) && decide (imLocal h ≤ 262144)
    | 2 => decide (n ≤ 4096) && decide (n ≤ room) && decide (imDataSize h ≤ 4096) && decide (imLocal h ≤ 4096)
    | _ => decide (n ≤ 524288) && decide (imDataSize h + 8 * n ≤ 0x400000) && decide (imLocal h ≤ 65536))

/-! ## Reading and checking -/

/-- The outcome of an image check: a refusal code, a read that failed, or the image's version, code and data. -/
inductive ImageResult where
  | refused (code : Nat)
  | memory
  | ok (version : Nat) (code : List Word) (data : Bytes) (crc : BitVec 32)
  deriving DecidableEq, Repr

/-- A range of an image, from the host read that brings it from its first byte on, or from device memory. -/
def State.imageRead (s : State) (image : Word) (off n : Nat) (read : HostRead) (errs : List LineErr) : State × Option Bytes :=
  if n = 0 then (s, some [])
  else if image.getLsbD 63 then (s, (hostBytes read (off + n)).map fun b => b.drop off)
  else
    let (s, b, bad) := s.devRead (image.toNat + off) n errs
    (s, if bad then none else some b)

/-- The instructions of a code section. -/
def codeWords (b : Bytes) : List Word := (List.range (b.length / 8)).map fun i => BitVec.ofNat 64 (leAt b (8 * i) 8)

/-- The entry of the verified-image table for an image and header. -/
def State.imageEntry (s : State) (image : Word) (crc : BitVec 32) : Option ImageEntry :=
  s.dxn.images.find? fun i => i.image == image && i.headerCrc == crc && !i.flushed

/-- An image that passed enters the table of 256 entries in the place of the least recently used one that no context uses; when
all are in use it is not entered (spec/04 R132). The most recently used entry stands last. -/
def State.enterImage (s : State) (i : ImageEntry) : State :=
  let used (x : ImageEntry) : Bool := s.dxn.ctxs.any fun c => c.2.image == some (x.image, x.headerCrc)
  let rest := s.dxn.images.filter fun x => !(x.image == i.image && x.headerCrc == i.headerCrc && !x.flushed)
  if rest.length < 256 then { s with dxn.images := rest ++ [i] }
  else match rest.findIdx? fun x => !used x with
    | some k => { s with dxn.images := rest.eraseIdx k ++ [i] }
    | none => s

/-- Checks 0x03 and 0x04 of a header, and 0x06 of the engine's images together. -/
def headerAgain (h : Bytes) (profile room : Nat) : Option Nat :=
  if versionOk h = false then some 3 else if byteAt h 6 ≠ profile then some 4
  else if profile = 2 ∧ room < imCodeCount h then some 6 else none

/-- Checks 0x01 to 0x06 of a header. -/
def headerCheck (h : Bytes) (image : Word) (profile room : Nat) (device : Option (Nat → Nat → Bool)) : Option Nat :=
  if leAt h 0 4 ≠ 0x494E5844 then some 1
  else if leAt h 60 4 ≠ crc32c (slice h 0 60) ∨ 2 ≤ byteAt h 7 then some 2
  else if versionOk h = false then some 3
  else if byteAt h 6 ≠ profile then some 4
  else if layoutOk h (image.toNat % 2 ^ 63) device = false then some 5
  else if sizeOk h profile room = false then some 6 else none

/-- The body of an image: code and data sections, and the signature section. -/
def State.imageBody (s : State) (image : Word) (h : Bytes) (read : HostRead) (errs : List LineErr) :
    State × Option (Bytes × Bytes × Bytes) :=
  let (s, c) := s.imageRead image (imCodeOff h) (8 * imCodeCount h) read errs
  let (s, d) := s.imageRead image (imDataOff h) (imDataSize h) read errs
  let (s, g) := s.imageRead image (imSigOff h) (imSigSize h) read errs
  match c, d, g with
  | some c, some d, some g => (s, some (c, d, g))
  | _, _, _ => (s, none)

/-- A miss in the table: checks 0x07 and 0x08 over the body, then the image is entered. -/
def State.checkBody (s : State) (image : Word) (h : Bytes) (profile : Nat) (read : HostRead) (errs : List LineErr) :
    State × ImageResult :=
  let (s, b) := s.imageBody image h read errs
  match b with
  | none => (s, .memory)
  | some (c, d, g) =>
    if leAt h 36 4 ≠ crc32c (c ++ d) then (s, .refused 7)
    else
      let only := s.flag R.CMD_CTRL F.CMD_CTRL_SIGNED_ONLY
      if (imSigned h || only) && !(imSigned h && s.sigOk false g (h ++ c ++ d)) then (s, .refused 8)
      else
        let crc := BitVec.ofNat 32 (leAt h 60 4)
        let e : ImageEntry := { image := image, headerCrc := crc, profile := BitVec.ofNat 8 profile, signed := imSigned h,
                                code := codeWords c, data := d }
        (s.enterImage e, .ok (imVersion h) (codeWords c) d crc)

/-- A T or B program copies its code and data from where the image lies, which is a read of the image; a C program fetches as it
runs, from an image that is not modified meanwhile (spec/04 R131 to R133). -/
def State.imageCopy (s : State) (image : Word) (h : Bytes) (e : ImageEntry) (profile entry : Nat) (read : HostRead)
    (errs : List LineErr) : State × ImageResult :=
  if profile = 3 ∨ imCodeCount h ≤ entry then (s.enterImage e, .ok (imVersion h) e.code e.data e.headerCrc)
  else
    let (s, c) := s.imageRead image (imCodeOff h) (8 * imCodeCount h) read errs
    let (s, d) := s.imageRead image (imDataOff h) (imDataSize h) read errs
    match c, d with
    | some c, some d => (s.enterImage e, .ok (imVersion h) (codeWords c) d e.headerCrc)
    | _, _ => (s, .memory)

/-- A hit in the table: checks 0x03 and 0x04 again, and 0x08 when SIGNED_ONLY asks for a signature not yet verified (spec/04
Table 4.20). -/
def State.checkHit (s : State) (image : Word) (h : Bytes) (e : ImageEntry) (profile entry room : Nat)
    (read : HostRead) (errs : List LineErr) : State × ImageResult :=
  match headerAgain h profile room with
  | some c => (s, .refused c)
  | none =>
    if s.flag R.CMD_CTRL F.CMD_CTRL_SIGNED_ONLY && !e.signed then
      let (s, b) := s.imageBody image h read errs
      match b with
      | none => (s, .memory)
      | some (c, d, g) =>
        if imSigned h && s.sigOk false g (h ++ c ++ d) then
          (s.enterImage { e with signed := true }, .ok (imVersion h) e.code e.data e.headerCrc)
        else (s, .refused 8)
    else s.imageCopy image h e profile entry read errs

/-- The checks of an image in the order of Table 4.18, ENTRY last (spec/04 R130 to R132). -/
def State.checkImage (s : State) (image : Word) (profile entry room : Nat) (read : HostRead) (errs : List LineErr) :
    State × ImageResult :=
  let host := image.getLsbD 63
  let device := if host then none else some fun a n => s.deviceOk a n
  if host = false ∧ s.deviceOk image.toNat 64 = false then (s, .refused 5)
  else
    let (s, h) := s.imageRead image 0 64 read errs
    match h with
    | none => (s, .memory)
    | some h =>
      let (s, r) := match s.imageEntry image (BitVec.ofNat 32 (leAt h 60 4)) with
        | some e => s.checkHit image h e profile entry room read errs
        | none => match headerCheck h image profile room device with
          | some c => (s, .refused c)
          | none => s.checkBody image h profile read errs
      match r with
      | .ok _ code _ _ => if code.length ≤ entry then (s, .refused 9) else (s, r)
      | _ => (s, r)

/-- CACHE_FLUSH: every entry leaves the table but those in use, which leave when their last context ends (spec/04 R132). -/
def execCacheFlush (s : State) : Out :=
  let flush (i : ImageEntry) : ImageEntry := { i with flushed := true }
  .next (State.dropFlushed { s with dxn.images := s.dxn.images.map flush })

end Sys2Proof.Machine
end

