-- ==== Sys2Proof/Machine/BayOps.lean ====
section
/-! DEFINITION. Instructions that wait for the bays they need (spec/14 R382). -/

namespace Sys2Proof.Machine

/-- An instruction waits for bays it has begun to wake. -/
def State.stallFor (s : State) (c : Ctx) (l : List Nat) : Res :=
  .halt ((s.wakeBays l).setCtx c { s.ctx c with stalled := true })

end Sys2Proof.Machine
end

