-- ==== Sys2Proof/Machine/Launch.lean ====
section
/-! DEFINITION. The table and configuration group but for COMMIT, and tenon ownership: starting and stopping T and B programs,
trusses, DMA streams, segments, epochs, pegs (spec/05 R160, R161; spec/09 R255; spec/10 R291 to R298). -/

namespace Sys2Proof.Machine

/-- SPACE raised by an instruction reserved to domain 0x000, where no address stands behind it: a free value is reported (log
entry 24). -/
def spaceRefusal (s : State) : Res := let (v, s) := s.draw
  .fault s 4 v

/-- The outcome of a short table or configuration instruction goes to gD. -/
def State.outcomeTo (s : State) (c : Ctx) (w n : Nat) : Res := .go (s.setCtx c ((s.ctx c).setReg (wD w) (BitVec.ofNat 64 n)))

/-! ## Target sets (spec/05 Table 5.14) -/

/-- A target set: quadrant, rows, columns, context number. -/
structure TargetSet where
  quad : Nat
  row0 : Nat
  row1 : Nat
  col0 : Nat
  col1 : Nat
  num : Nat
  deriving DecidableEq, Repr

/-- The set that gB names; none when a field is out of range. -/
def targetSet (b : Nat) : Option TargetSet :=
  let t : TargetSet := ⟨bitsOf b 49 48, bitsOf b 44 40, bitsOf b 36 32, bitsOf b 28 24, bitsOf b 20 16, b % 4⟩
  if b / 2 ^ 50 = 0 ∧ bitsOf b 47 45 = 0 ∧ bitsOf b 39 37 = 0 ∧ bitsOf b 31 29 = 0 ∧ bitsOf b 23 21 = 0 ∧
      bitsOf b 15 2 = 0 ∧ t.row1 < 30 ∧ t.row0 ≤ t.row1 ∧ t.col0 ≤ t.col1 then some t else none

/-- A range of numbers. -/
def fromTo (a b : Nat) : List Nat := (List.range (b + 1 - a)).map (· + a)

/-- Rows and columns of a set. -/
def TargetSet.places (t : TargetSet) : List (Nat × Nat) :=
  (fromTo t.row0 t.row1).flatMap fun r => (fromTo t.col0 t.col1).map fun c => (r, c)

/-- A tenon context. -/
def tCtx (q row col n : Nat) : Ctx := .t (Fin.ofNat 4 q) (Fin.ofNat 30 row) (Fin.ofNat 32 col) (Fin.ofNat 4 n)

/-- The contexts of a set. -/
def TargetSet.ctxs (t : TargetSet) : List Ctx := t.places.map fun p => tCtx t.quad p.1 p.2 t.num

/-- The section bays of a set. -/
def TargetSet.bays (t : TargetSet) : List Nat := ((fromTo t.col0 t.col1).map fun c => sectionBay t.quad c).dedup

/-- The owner of a tenon. -/
def State.tenonOwner (s : State) (q row col : Nat) : BitVec 12 :=
  BitVec.ofNat 12 (s.fld (R.TEN_TENON q row col) F.TEN_TENON_OWNER)

/-- A start result with an image refusal code. -/
def startResult (target image : Nat) : Nat := target * 256 + image

/-! ## TSTART and TSTOP (spec/05 R161, spec/10 R293, R297) -/

/-- The checks of Table 5.15 but for the image. -/
def State.tstartReason (s : State) (domain : BitVec 12) (b c : Nat) : Nat :=
  match targetSet b with
  | none => 1
  | some t =>
    if c / 2 ^ 40 ≠ 0 then 1
    else if domain ≠ 0 ∧ t.places.any fun p => s.tenonOwner t.quad p.1 p.2 != domain then 2
    else if t.ctxs.any fun k => (s.ctx k).status != .free then 3
    else if s.pegOk false domain (bitsOf c 39 24) = false then 4 else 0

/-- A tenon context starts: code, data in LOCAL space from 0, entry, fault peg, domain (spec/04 R96, R133). -/
def State.startTenon (s : State) (k : Ctx) (domain : BitVec 12) (c version : Nat) (code : List Word) (data : Bytes) (img : Word)
    (crc : BitVec 32) : State :=
  let s := s.localWrite k 0 data
  let x : Context := { pc := c % 2 ^ 24, domain := domain, faultPeg := BitVec.ofNat 16 (bitsOf c 39 24), code := code, data := data,
                       image := some (img, crc), version := BitVec.ofNat 8 version }
  (s.startCtx k x).fetchCheck k

def execDxnTstart (c : Ctx) (body : BitVec 56) (read : HostRead) (errs : List LineErr) (s : State) : Out :=
  let w := dxnWord 0xC0 body
  .next (s.issue c w [] false fun s x =>
    let img := x.reg (wA w)
    let b := (x.reg (wB w)).toNat
    let gc := (x.reg (wC w)).toNat
    let r := s.tstartReason x.domain b gc
    match targetSet b with
    | none => s.outcomeTo c w (startResult r 0)
    | some t =>
      if r ≠ 0 then s.outcomeTo c w (startResult r 0)
      else if t.bays.any fun n => s.bayState n != 0 then s.stallFor c t.bays
      else
        let (s, q) := s.checkImage img 1 (gc % 2 ^ 24) 0 read errs
        match q with
        | .memory => .mem s 1
        | .refused code => s.outcomeTo c w (startResult 0 code)
        | .ok v code data crc =>
          (t.ctxs.foldl (fun s k => s.startTenon k x.domain gc v code data img crc) s).outcomeTo c w 0)

/-- TSTOP: the named context of each target of the domain ends as END would; a set out of range names none (log entry 27). -/
def execDxnTstop (c : Ctx) (body : BitVec 56) (s : State) : Out :=
  let w := dxnWord 0xC9 body
  .next (s.issue c w [] false fun s x =>
    match targetSet (x.reg (wB w)).toNat with
    | none => s.outcomeTo c w 0
    | some t =>
      let l := t.places.filter fun p => x.domain == 0 || s.tenonOwner t.quad p.1 p.2 == x.domain
      let busy := (l.map fun p => tCtx t.quad p.1 p.2 t.num).filter fun k => (s.ctx k).status != .free
      (busy.foldl (fun s k => if (s.ctx k).status = .stopping then s else s.endAsEnd k) s).outcomeTo c w busy.length)

/-! ## BSTART (spec/05 R161, spec/09 R255, R276) -/

/-- The checks of Table 5.15 for a slot. -/
def State.bstartReason (s : State) (domain : BitVec 12) (b c : Nat) : Nat :=
  let e := bitsOf b 50 48
  let sl := b % 1024
  if b ≠ e * 2 ^ 48 + sl ∨ c / 2 ^ 40 ≠ 0 then 1
  else if (s.ctx (bCtx e sl)).status ≠ .free ∨ s.slotSt e sl ≠ 0 then 3
  else if s.pegOk false domain (bitsOf c 39 24) = false then 4 else 0

/-- Instructions that the images of an engine's slots hold. -/
def State.engineCode (s : State) (e : Nat) : Nat :=
  (s.dxn.ctxs.filter fun x => decide (ctxKey (bCtx e 0) ≤ x.1) && decide (x.1 < ctxKey (bCtx e 0) + 1024)).foldl
    (fun a x => a + x.2.code.length) 0

/-- Value 0 or within bounds. -/
def zeroOr (lo hi x : Nat) : Bool := x == 0 || (decide (lo ≤ x) && decide (x ≤ hi))

/-- Check 0x08 of a record. -/
def Slot.fieldsOk (x : Slot) : Bool :=
  let op := x.op
  let single := op == 5 || op == 6
  decide (x.reduce ≤ 2) && (!(op == 3 || single) || x.reduce == 0) && decide (byteAt x.record 5 < 4) &&
    decide (1 ≤ x.nChunks) && decide (x.nChunks ≤ 65536) && (!single || x.nChunks == 1) &&
    zeroOr 100 10000000 (leAt x.record 12 4) && zeroOr 100 100000 (leAt x.record 16 4) &&
    zeroOr 10 1000000 (leAt x.record 20 4) && (op == 6 || x.circuit == 0) &&
    (if op = 7 then decide (1 ≤ x.rank) && decide (x.rank ≤ 256) else x.rank == 0)

/-- Check 0x05 of a record: the accumulate range. -/
def State.accumFree (s : State) (e sl : Nat) (x : Slot) : Bool :=
  x.accOff % 65536 == 0 && x.accSize % 65536 == 0 && decide (x.accOff + x.accSize ≤ 0x1800000) &&
    decide (8 * x.elems ≤ x.accSize) && (s.slotsOf e).all fun o =>
      o == sl || s.slotSt e o == 0 || !overlap x.accOff x.accSize (s.slot e o).accOff (s.slot e o).accSize

/-- Bytes of a slot's outcome record. -/
def Slot.outcomeSize (x : Slot) : Nat := if x.op = 4 then 64 + ceilDiv x.nChunks 4 else 64

/-- The lowest check of Table 9.5 that a record fails. -/
def State.recordFault (s : State) (e sl : Nat) (domain : BitVec 12) (x : Slot) : Option Nat :=
  let g := leAt x.record 2 2
  let chunkIn := x.elems * fmtBytes32 (s.inFmt x.group) / 32
  if x.op = 0 ∨ 7 < x.op ∨ (x.op = 3 ∧ s.inFmt x.group ≠ s.outFmt x.group) then some 1
  else if 4096 ≤ g ∨ s.grpActive x.group = false ∨ g / 512 ≠ e then some 2
  else if domain ≠ 0 ∧ s.grpA x.group F.BSN_GROUP_A_DOMAIN ≠ domain.toNat then some 3
  else if byteAt x.record 4 < 10 ∨ 20 < byteAt x.record 4 ∨ chunkIn < 4096 ∨ 1048576 < chunkIn then some 4
  else if s.accumFree e sl x = false then some 5
  else if ((s.slotsOf e).any fun o => o != sl && s.slotSt e o != 0 && (s.slot e o).group == x.group &&
      (s.slot e o).opSeq == x.opSeq) ∨
      (s.bsn.retained.any fun r => r.e == e && r.group == x.group && r.opSeq == x.opSeq) then some 6
  else if s.pegOk false domain x.donePeg = false ∨ s.pegOk false domain x.abortPeg = false then some 7
  else if x.fieldsOk = false then some 8
  else if x.outcomeAddr ≠ 0 ∧ (x.outcomeAddr % 64 ≠ 0 ∨ s.installed x.outcomeAddr x.outcomeSize = false) then some 9
  else none

/-- The record's checks, then the exclusion of a member's port (spec/09 R276); the slot runs, or aborts at once. -/
def State.openSlot (s : State) (e sl : Nat) (domain : BitVec 12) : State :=
  let x := s.slot e sl
  match s.recordFault e sl domain x with
  | some d => s.bsnAbort e sl 9 0xFFFF d
  | none =>
    let s := s.dropEnded e x.group x.opSeq
    match s.membersWhere x.group fun m => s.excluded (s.memberPort x.group m) with
    | m :: _ => s.bsnAbort e sl 2 m 0
    | [] => s

/-- A slot starts: data in scratch, the record from scratch bytes 4,032 on, the context at its entry. -/
def State.startSlot (s : State) (e sl : Nat) (starter : Option Nat) (domain : BitVec 12) (c version : Nat) (code : List Word)
    (data : Bytes) (img : Word) (crc : BitVec 32) : State :=
  let k := bCtx e sl
  let s := s.localWrite k 0 data
  let x : Slot := { record := s.localRead k 4032 64, starter := starter }
  let s := (s.setSlot e sl x).wr (R.BSN_SLOT e sl) (slotWord 1 x.group x.opSeq 0 0)
  let r : Context := { pc := c % 2 ^ 24, domain := domain, faultPeg := BitVec.ofNat 16 (bitsOf c 39 24), code := code, data := data,
                       image := some (img, crc), version := BitVec.ofNat 8 version }
  ((s.startCtx k r).openSlot e sl domain).fetchCheck k

def execDxnBstart (c : Ctx) (body : BitVec 56) (read : HostRead) (errs : List LineErr) (s : State) : Out :=
  let w := dxnWord 0xC1 body
  .next (s.issue c w [] false fun s x =>
    let img := x.reg (wA w)
    let b := (x.reg (wB w)).toNat
    let gc := (x.reg (wC w)).toNat
    let e := bitsOf b 50 48
    let r := s.bstartReason x.domain b gc
    if r ≠ 0 then s.outcomeTo c w (startResult r 0)
    else
      let (s, q) := s.checkImage img 2 (gc % 2 ^ 24) (32768 - s.engineCode e) read errs
      match q with
      | .memory => .mem s 1
      | .refused code => s.outcomeTo c w (startResult 0 code)
      | .ok v code data crc => (s.startSlot e (b % 1024) x.item x.domain gc v code data img crc).outcomeTo c w 0)

/-! ## TRUSS (spec/10 R294 to R297) -/

/-- Kind and port of an end of a truss: byte 8 for the head, 9 for the tail. -/
def endKind (d : Bytes) (i : Nat) : Nat := byteAt d i % 16
/-- The port of an end. -/
def endPort (d : Bytes) (i : Nat) : Nat := byteAt d i / 16

/-- The port of a stage that faces the next, for neighbours. -/
def towardPort (a b : Nat × Nat) : Option Nat :=
  if a.1 = b.1 + 1 ∧ a.2 = b.2 then some 0 else if a.1 = b.1 ∧ a.2 + 1 = b.2 then some 1
  else if a.1 + 1 = b.1 ∧ a.2 = b.2 then some 2 else if a.1 = b.1 ∧ a.2 = b.2 + 1 then some 3 else none

/-- Stages of a descriptor's entries. -/
def stageList (d : Bytes) (n : Nat) : List (Nat × Nat) :=
  (List.range n).map fun k => (byteAt d (64 + 4 * k), byteAt d (65 + 4 * k))

/-- The rules on one DMA end at byte i of the descriptor: TILES, range, reserved bytes; ADDR zero for another kind. -/
def State.dmaEndOk (s : State) (d : Bytes) (kind i : Nat) (tail : Bool) : Bool :=
  if kind = 2 then
    decide (1 ≤ leAt d (i + 8) 4) && s.installed (leAt d i 8) (4096 * leAt d (i + 8) 4) && (tail || leAt d (i + 12) 2 == 0) &&
      decide (byteAt d (i + 14) < 2) && byteAt d (i + 15) == 0
  else leAt d i 8 == 0 && (tail || leAt d (i + 12) 2 == 0) && decide (byteAt d (i + 14) < 2) && byteAt d (i + 15) == 0

/-- The RANGE rule of Table 10.4. -/
def State.trussRange (s : State) (d : Bytes) : Bool :=
  let n := leAt d 0 2
  let k := byteAt d 2
  let basin := endKind d 8 == 1 || endKind d 9 == 1
  decide (n ≤ 1023) && byteAt d 3 == n / 256 && decide (1 ≤ k) && decide (k ≤ 64) && decide (leAt d 4 2 < 4096) &&
    ((stageList d k).all fun p => decide (p.1 < 30) && decide (p.2 < 32)) &&
    ((List.range k).all fun i => leAt d (66 + 4 * i) 2 == 0) && [8, 9].all (fun i => decide (endKind d i < 3) && decide (endPort d i < 4)) &&
    decide (byteAt d 10 < 2) && (basin || byteAt d 10 == 0) && byteAt d 11 / 16 % 8 == 0 && allZero d 12 4 && allZero d 48 16 &&
    s.dmaEndOk d (endKind d 8) 16 false && s.dmaEndOk d (endKind d 9) 32 true

/-- Consecutive pairs of a list. -/
def pairs {α : Type} (l : List α) : List (α × α) := l.zip (l.drop 1)

/-- The PAIR_DISAGREE rule. -/
def trussPath (d : Bytes) : Bool :=
  let l := stageList d (byteAt d 2)
  let ps := pairs l
  let basin := endKind d 8 == 1
  let last := ps.getLast?
  (ps.all fun p => (towardPort p.1 p.2).isSome) && decide l.Nodup &&
    (endKind d 8 == 0 || (match ps with | p :: _ => towardPort p.1 p.2 != some (endPort d 8) | [] => true)) &&
    (endKind d 9 == 0 || (match last with | some p => towardPort p.2 p.1 != some (endPort d 9) | none => true)) &&
    (l.length != 1 || endKind d 8 == 0 || endKind d 9 == 0 || endPort d 8 != endPort d 9) &&
    (endKind d 8 == 1) == (endKind d 9 == 1) && (leAt d 6 2 != 0) == basin

/-- The engine of a descriptor's channel. -/
def trussEngine (d : Bytes) : Nat := 2 * byteAt d 3 + byteAt d 10

/-- The OWNER_CONFLICT rule. -/
def State.trussOwner (s : State) (domain : BitVec 12) (d : Bytes) : Bool :=
  let n := leAt d 0 2
  let own := BitVec.ofNat 12 (leAt d 4 2)
  let basin := endKind d 8 == 1
  s.fld (R.TEN_TRUSS (n / 256) (n % 256)) F.TEN_TRUSS_STATE == 0 &&
    ((stageList d (byteAt d 2)).all fun p => !s.flag (R.TEN_TENON (n / 256) p.1 p.2) F.TEN_TENON_IN_TRUSS &&
      s.tenonOwner (n / 256) p.1 p.2 == own) &&
    (!basin || (s.channel (trussEngine d) (byteAt d 11 % 16)).truss.isNone) && (domain == 0 || own == domain) &&
    (!basin || s.pegOk false own (leAt d 6 2)) &&
    (endKind d 9 != 2 || leAt d 44 2 == 0 || s.pegOk false own (leAt d 44 2))

/-- A DMA stream that is not in use. -/
def State.dmaFree (s : State) (k : Nat) : Bool := decide (s.dma k = { tenonPort := 0, inbound := true, addr := 0, tiles := 0, truss := 0 })

/-- Free DMA streams of a quadrant. -/
def State.freeStreams (s : State) (q : Nat) : List Nat := (fromTo (64 * q) (64 * q + 63)).filter s.dmaFree

/-- The bays that TRUSS needs. -/
def trussBays (d : Bytes) : List Nat :=
  (((stageList d (byteAt d 2)).map fun p => sectionBay (byteAt d 3) p.2) ++
    (if endKind d 8 = 1 then [basinBay (trussEngine d)] else [])).dedup

/-- The rules of Table 10.4 in order, but for the bays. -/
def State.trussReason (s : State) (domain : BitVec 12) (d : Bytes) : Nat :=
  let dmas := b2n (endKind d 8 == 2) + b2n (endKind d 9 == 2)
  if (endKind d 8 = 2 ∧ leAt d 16 8 % 4096 ≠ 0) ∨ (endKind d 9 = 2 ∧ leAt d 32 8 % 4096 ≠ 0) then 0x11
  else if s.trussRange d = false then 0x10
  else if trussPath d = false then 0x12
  else if s.trussOwner domain d = false then 0x17
  else if (s.freeStreams (byteAt d 3)).length < dmas then 0x13 else 0

/-- A port of a tenon is bound or unbound. -/
def State.bindPort (s : State) (q : Nat) (p : Nat × Nat) (port : Nat) (b : Option Binding) : State :=
  let k := portKey (tenonIx q p.1 p.2) port
  let off := R.TEN_TENON q p.1 p.2
  (s.setStream k { bound := b }).setBit off (40 + port) b.isSome

/-- One end of a truss is bound: to the channel or to a free DMA stream. -/
def State.bindEnd (s : State) (n : Nat) (d : Bytes) (head : Bool) (p : Nat × Nat) : State :=
  let q := n / 256
  let i := if head then 8 else 9
  let b := if head then 16 else 32
  match endKind d i with
  | 1 => s.bindPort q p (endPort d i) (some (if head then .channelIn (trussEngine d) (byteAt d 11 % 16)
      else .channelOut (trussEngine d) (byteAt d 11 % 16)))
  | 2 => match s.freeStreams q with
    | [] => s
    | k :: _ =>
      let x : DmaStream := { tenonPort := portKey (tenonIx q p.1 p.2) (endPort d i), inbound := head, addr := leAt d b 8,
                             tiles := leAt d (b + 8) 4, donePeg := BitVec.ofNat 16 (leAt d (b + 12) 2),
                             wrap := bitOf (byteAt d (b + 14)) 0, truss := n }
      let s := { s with ten.streams := sset { tenonPort := 0, inbound := true, addr := 0, tiles := 0, truss := 0 } s.ten.streams k x }
      s.bindPort q p (endPort d i) (some (.dma k))
  | _ => s

/-- A truss is bound. -/
def State.bindTruss (s : State) (d : Bytes) : State :=
  let n := leAt d 0 2
  let q := n / 256
  let l := stageList d (byteAt d 2)
  let s := { s with ten.trusses := sset {} s.ten.trusses n { descriptor := d, stages := l } }
  let s := s.wr (R.TEN_TRUSS q (n % 256)) (F.TEN_TRUSS_STATE.put 1 ||| F.TEN_TRUSS_DOMAIN.put (leAt d 4 2) |||
    F.TEN_TRUSS_STAGES.put (byteAt d 2) ||| F.TEN_TRUSS_MODE.put (byteAt d 11 / 128) ||| F.TEN_TRUSS_CHANNEL.put (byteAt d 11) |||
    F.TEN_TRUSS_ENGINE.put (byteAt d 10) ||| F.TEN_TRUSS_HEAD.put (endKind d 8) ||| F.TEN_TRUSS_TAIL.put (endKind d 9))
  let s := l.foldl (fun s p => (s.setFld (R.TEN_TENON q p.1 p.2) F.TEN_TENON_IN_TRUSS 1).setFld (R.TEN_TENON q p.1 p.2)
    F.TEN_TENON_TRUSS (n % 256)) s
  let s := (pairs l).foldl (fun s p => match towardPort p.1 p.2 with
    | some a => (s.bindPort q p.1 a (some .neighbour)).bindPort q p.2 ((a + 2) % 4) (some .neighbour)
    | none => s) s
  let s := s.bindEnd n d true (l.headD (0, 0))
  let s := s.bindEnd n d false (l.getLastD (0, 0))
  if endKind d 8 = 1 then
    s.setChannel (trussEngine d) (byteAt d 11 % 16) { s.channel (trussEngine d) (byteAt d 11 % 16) with truss := some n }
  else s

/-- TRUSS, in its turn among the checks. A descriptor that does not lie in device memory is out of range (log entry 28). -/
def execDxnTruss (c : Ctx) (body : BitVec 56) (errs : List LineErr) (s : State) : Out :=
  let w := dxnWord 0xC2 body
  .next (s.issue c w [] false fun s x =>
    let a := (x.reg (wA w)).toNat
    if s.checksRun then .stall
    else if a % 64 ≠ 0 then s.outcomeTo c w 0x11
    else if s.deviceOk a 64 = false then s.outcomeTo c w 0x10
    else
      let (s, h, bad) := s.devRead a 64 errs
      if bad then .mem s 2
      else
        let n := min 64 (byteAt h 2)
        if s.deviceOk a (64 + 4 * n) = false then s.outcomeTo c w 0x10
        else
          let (s, t, bad) := s.devRead (a + 64) (4 * n) errs
          if bad then .mem s 2
          else
            let d := h ++ t
            let r := s.trussReason x.domain d
            if r ≠ 0 then s.outcomeTo c w r
            else if (trussBays d).any s.bayLost then s.outcomeTo c w 0x14
            else if s.bayWait (trussBays d) then s.stallFor c (trussBays d)
            else (s.bindTruss d).outcomeTo c w 0)

/-! ## UNTRUSS (spec/10 R298) -/

/-- The port keys that a truss binds. -/
def Truss.ports (t : Truss) (q : Nat) : List ((Nat × Nat) × Nat) :=
  let d := t.descriptor
  ((pairs t.stages).flatMap fun p => match towardPort p.1 p.2 with
    | some a => [(p.1, a), (p.2, (a + 2) % 4)]
    | none => []) ++
    (if endKind d 8 = 0 then [] else [(t.stages.headD (0, 0), endPort d 8)]) ++
    (if endKind d 9 = 0 then [] else [(t.stages.getLastD (0, 0), endPort d 9)]) |>.filter fun _ => decide (q < 4)

/-- Outstanding stream operations on a port fail with STREAM_ERROR. -/
def State.failStreams (s : State) (k : Nat) : State :=
  (s.sendsOn k ++ s.recvsOn k).foldl (fun s o => s.failLong o 0xC 0) s

/-- A channel is released: operations with a chunk handed abort with APPLY_FAILED, and those chunks can no longer be reported. -/
def State.releaseChannel (s : State) (e ch : Nat) : State :=
  let l := (s.channel e ch).handed
  let s := (l.map Handoff.slot).foldl (fun s sl => s.bsnAbort e sl 0xB 0xFFFF 0) s
  let s := l.foldl (fun s h =>
    let x := s.slot e h.slot
    if s.slotSt e h.slot = 2 ∧ x.opSeq = h.opSeq then s.setSlot e h.slot (x.setChunk h.chunk { x.chunk h.chunk with writeMap := 2 })
    else s) s
  s.setChannel e ch {}

/-- A truss is torn down. -/
def State.unbindTruss (s : State) (n : Nat) : State :=
  let t := sget {} s.ten.trusses n
  let q := n / 256
  let d := t.descriptor
  let s := (t.ports q).foldl (fun s p => s.failStreams (portKey (tenonIx q p.1.1 p.1.2) p.2)) s
  let s := if endKind d 8 = 1 then s.releaseChannel (trussEngine d) (byteAt d 11 % 16) else s
  let s := (t.ports q).foldl (fun s p => s.bindPort q p.1 p.2 none) s
  let s := t.stages.foldl (fun s p => (s.setFld (R.TEN_TENON q p.1 p.2) F.TEN_TENON_IN_TRUSS 0).setFld (R.TEN_TENON q p.1 p.2)
    F.TEN_TENON_TRUSS 0) s
  { s.wr (R.TEN_TRUSS q (n % 256)) 0 with
    ten.streams := s.ten.streams.filter fun x => x.2.truss != n
    ten.trusses := sset {} s.ten.trusses n {} }

def execDxnUntruss (c : Ctx) (body : BitVec 56) (s : State) : Out :=
  let w := dxnWord 0xC3 body
  .next (s.issue c w [] false fun s x =>
    let n := (x.reg (wA w)).toNat % 65536
    let off := R.TEN_TRUSS (n / 256) (n % 256)
    if s.checksRun then .stall
    else if 1024 ≤ n ∨ s.fld off F.TEN_TRUSS_STATE = 0 then s.outcomeTo c w 0x10
    else if x.domain ≠ 0 ∧ s.fld off F.TEN_TRUSS_DOMAIN ≠ x.domain.toNat then s.outcomeTo c w 0x17
    else (s.unbindTruss n).outcomeTo c w 0)

/-! ## Segments, epochs, pegs (spec/05 Table 5.13) -/

/-- An instruction reserved to domain 0x000 whose check returns a reason; it waits for the checks before it (spec/16 R428). -/
def State.reserved (s : State) (c : Ctx) (w : Nat) (k : State → Context → Nat × State) : State :=
  s.issue c w [] false fun s x =>
    if x.domain ≠ 0 then spaceRefusal s
    else if s.checksRun then .stall
    else
      let r := k s x
      r.2.outcomeTo c w r.1

def execDxnSeglock (c : Ctx) (body : BitVec 56) (s : State) : Out :=
  let w := dxnWord 0xC4 body
  .next (s.reserved c w fun s x => s.seglock (x.reg (wA w)).toNat)

def execDxnSegpub (c : Ctx) (body : BitVec 56) (s : State) : Out :=
  let w := dxnWord 0xC5 body
  .next (s.reserved c w fun s x => s.segpub (x.reg (wA w)).toNat)

def execDxnEflip (c : Ctx) (body : BitVec 56) (s : State) : Out :=
  let w := dxnWord 0xC7 body
  .next (s.issue c w [] false fun s x =>
    if x.domain ≠ 0 then spaceRefusal s
    else if s.checksRun then .stall
    else
      let r := s.eflipFrom (x.reg (wA w)) 1 x.domain
      r.2.outcomeTo c w r.1)

def execDxnPassign (c : Ctx) (body : BitVec 56) (s : State) : Out :=
  let w := dxnWord 0xC8 body
  .next (s.reserved c w fun s x => s.pegAssign ((x.reg (wA w)).toNat % 65536) ((x.reg (wB w)).toNat % 65536)
    ((x.reg (wC w)).toNat % 4096))

/-- CMD_PEG_ASSIGN performs the assignment that it holds (spec/04 Table 4.23). -/
def State.assignPegs (s : State) (v : Word) : State :=
  let r := s.pegAssign (F.CMD_PEG_ASSIGN_FIRST.get v) (F.CMD_PEG_ASSIGN_COUNT.get v) (F.CMD_PEG_ASSIGN_DOMAIN.get v)
  (r.2.setFld R.CMD_PEG_ASSIGN F.CMD_PEG_ASSIGN_GO 0).setFld R.CMD_PEG_ASSIGN_STATUS F.CMD_PEG_ASSIGN_STATUS_REASON r.1

/-! ## Ownership and DMA streams (spec/10 R291, R292) -/

/-- TEN_ASSIGN of a quadrant performs the assignment that it holds (spec/10 R292). -/
def State.assignTenons (s : State) (q : Nat) (v : Word) : State :=
  let r0 := F.TEN_ASSIGN_FIRST_ROW.get v
  let r1 := F.TEN_ASSIGN_LAST_ROW.get v
  let c0 := F.TEN_ASSIGN_FIRST_COL.get v
  let c1 := F.TEN_ASSIGN_LAST_COL.get v
  let l := (fromTo r0 r1).flatMap fun r => (fromTo c0 c1).map fun c => (r, c)
  let reason := if 30 ≤ r1 ∨ r1 < r0 ∨ c1 < c0 then 0x10
    else if l.any fun p => s.flag (R.TEN_TENON q p.1 p.2) F.TEN_TENON_IN_TRUSS ||
      (List.range 4).any fun n => (s.ctx (tCtx q p.1 p.2 n)).status != .free then 0x17 else 0
  let s := (s.setFld (R.TEN_ASSIGN q) F.TEN_ASSIGN_GO 0).setFld (R.TEN_ASSIGN_STATUS q) F.TEN_ASSIGN_STATUS_REASON reason
  if reason = 0 then l.foldl (fun s p => s.setFld (R.TEN_TENON q p.1 p.2) F.TEN_TENON_OWNER (F.TEN_ASSIGN_DOMAIN.get v)) s else s

/-- A DMA stream takes a value. -/
def State.setDma (s : State) (k : Nat) (x : DmaStream) : State :=
  { s with ten.streams := sset { tenonPort := 0, inbound := true, addr := 0, tiles := 0, truss := 0 } s.ten.streams k x }

/-- A stream that passes its last tile and does not wrap leaves its port as unbound: operations that no tile of it can serve
fail (log entry 19). -/
def State.dmaPassed (s : State) (k : Nat) (d : DmaStream) : State :=
  let d := if d.wrap ∧ d.tiles ≤ d.done then { d with done := 0 } else d
  let s := s.setDma k d
  if d.spent = false then s
  else if d.inbound then
    ((s.recvsOn d.tenonPort).drop (s.stream d.tenonPort).rx.length).foldl (fun s o => s.failLong o 0xC 0) s
  else (s.sendsOn d.tenonPort).foldl (fun s o => s.failLong o 0xC 0) s

/-- One tile of a DMA stream passes, as the buffer has room or its port sends (spec/10 R291). -/
def execDmaStreamTile (q : Fin 4) (stream : Fin 64) (errs : List LineErr) (s : State) : Out :=
  let k := 64 * q.val + stream.val
  let d := s.dma k
  .next (if s.dmaFree k ∨ d.stopped ∨ d.spent then s
    else
      let a := d.addr + 4096 * d.done
      if d.inbound then
        let x := s.stream d.tenonPort
        if 2 ≤ x.rx.length then s
        else
          let (s, b, bad) := s.devRead a 4096 errs
          if bad then s.setDma k { d with stopped := true, readError := true }
          else (s.setStream d.tenonPort { x with rx := x.rx ++ [b] }).dmaPassed k { d with done := d.done + 1 }
      else
        let (s, t) := s.takeSend d.tenonPort
        match t with
        | none => s
        | some t =>
          let s := s.devWrite a t
          let s := if d.done + 1 = d.tiles ∧ d.donePeg ≠ 0 then s.addPeg d.donePeg.toNat 1 else s
          s.dmaPassed k { d with done := d.done + 1 })

end Sys2Proof.Machine
end

