-- ==== Sys2Proof/Machine/Parse.lean ====
section
/-! DEFINITION. Parsing a frame (spec/07 R192), its class (R195), hash and classifier keys (R204, Table 7.8), and the rewriting
of a frame at egress (R193, R194, R199; spec/08 R242). Frames are held without their FCS. -/

namespace Sys2Proof.Machine

/-! ## The parse graph (spec/07 Table 7.1) -/

/-- What the parser makes of a frame: its outer VLAN tag, the EtherType and where its header begins, the IP header (version
4 or 6, offset, end of headers), protocol, the UDP header, the offset of an HFH, and whether it is hashed on its addresses
alone. -/
structure Parsed where
  tag : Option Nat := none
  etype : Nat := 0
  l3 : Nat := 14
  ip : Nat := 0
  proto : Nat := 0
  udp : Option Nat := none
  hfh : Option Nat := none
  addrOnly : Bool := false
  deriving DecidableEq, Repr

/-- The bytes that the parser sees. -/
def parseLimit (b : Bytes) : Nat := min 256 b.length

/-- Tags, at most two, then the EtherType: (outer tag, EtherType, offset after it). -/
def parseTags (b : Bytes) : Nat → Nat → Option Nat → Option Nat × Nat × Nat
  | 0, i, t => (t, beAt b i 2, i + 2)
  | n + 1, i, t =>
    let e := beAt b i 2
    if (e = 0x8100 ∨ e = 0x88A8) ∧ i + 6 ≤ parseLimit b then parseTags b n (i + 4) (t <|> some (beAt b (i + 2) 2))
    else (t, e, i + 2)

/-- IPv6 extension headers from an offset on, at most three: the next header, where it begins, and whether the frame is a
non-first fragment; none when a fourth follows. -/
def parseExt (b : Bytes) : Nat → Nat → Nat → Bool → Option (Nat × Nat × Bool)
  | n, next, i, frag =>
    if next = 0 ∨ next = 43 ∨ next = 60 ∨ next = 44 then
      match n with
      | 0 => none
      | n + 1 =>
        let len := if next = 44 then 8 else (byteAt b (i + 1) + 1) * 8
        if parseLimit b < i + len then some (next, parseLimit b, frag)
        else parseExt b n (byteAt b i) (i + len) (frag || (next == 44 && decide (8 ≤ beAt b (i + 2) 2)))
    else some (next, i, frag)

/-- The UDP header and the HFH behind it. -/
def State.parseUdp (s : State) (b : Bytes) (x : Parsed) (i : Nat) (frag : Bool) : Parsed :=
  if x.proto ≠ 17 ∨ frag ∨ parseLimit b < i + 8 then x
  else
    let x := { x with udp := some i }
    let h := i + 8
    let len := hfhLen (byteAt b h / 16)
    if beAt b (i + 2) 2 = s.fld R.FWD_GLOBAL_CTRL F.FWD_GLOBAL_CTRL_HFH_PORT ∧ h + len ≤ parseLimit b then
      { x with hfh := some h }
    else x

/-- The parse of a frame. -/
def State.parse (s : State) (b : Bytes) : Parsed :=
  let (tag, e, i) := parseTags b 2 12 none
  let x : Parsed := { tag := tag, etype := e, l3 := i }
  if e = 0x0800 ∧ 5 ≤ byteAt b i % 16 ∧ i + byteAt b i % 16 * 4 ≤ parseLimit b then
    s.parseUdp b { x with ip := 4, proto := byteAt b (i + 9) } (i + byteAt b i % 16 * 4) (beAt b (i + 6) 2 % 8192 != 0)
  else if e = 0x86DD ∧ i + 40 ≤ parseLimit b then
    match parseExt b 3 (byteAt b (i + 6)) (i + 40) false with
    | none => { x with ip := 6, addrOnly := true }
    | some (next, j, frag) => s.parseUdp b { x with ip := 6, proto := next } j frag
  else x

/-- UDP source port, 0 without UDP. -/
def Parsed.sport (x : Parsed) (b : Bytes) : Nat := match x.udp with
  | some i => beAt b i 2
  | none => 0

/-- UDP destination port, 0 without UDP. -/
def Parsed.dport (x : Parsed) (b : Bytes) : Nat := match x.udp with
  | some i => beAt b (i + 2) 2
  | none => 0

/-- Source address, as many bits as the version has. -/
def Parsed.src (x : Parsed) (b : Bytes) : Nat := if x.ip = 4 then beAt b (x.l3 + 12) 4 else beAt b (x.l3 + 8) 16

/-- Destination address. -/
def Parsed.dst (x : Parsed) (b : Bytes) : Nat := if x.ip = 4 then beAt b (x.l3 + 16) 4 else beAt b (x.l3 + 24) 16

/-- The traffic class or type of service byte. -/
def Parsed.tos (x : Parsed) (b : Bytes) : Nat := if x.ip = 4 then byteAt b (x.l3 + 1) else beAt b x.l3 2 / 16 % 256

/-- TTL or hop limit. -/
def Parsed.ttl (x : Parsed) (b : Bytes) : Nat := if x.ip = 4 then byteAt b (x.l3 + 8) else byteAt b (x.l3 + 7)

/-- Whether a frame is IEEE 1588, and where its message begins. -/
def Parsed.ptp (x : Parsed) (b : Bytes) : Option Nat :=
  if x.etype = 0x88F7 then some x.l3
  else match x.udp with
    | some i => if x.dport b = 319 ∨ x.dport b = 320 then some (i + 8) else none
    | none => none

/-- The destination queue pair of a RoCEv2 base transport header. -/
def Parsed.qp (x : Parsed) (b : Bytes) : Option Nat := match x.udp with
  | some i => if x.dport b = 4791 ∧ i + 20 ≤ parseLimit b then some (beAt b (i + 13) 3) else none
  | none => none

/-- The HFH of a parse as its version spells it. -/
def Parsed.header (x : Parsed) (b : Bytes) : Option Hfh :=
  x.hfh.map fun i => parseHfh (byteAt b i / 16) (slice b i (hfhLen (byteAt b i / 16)))

/-- Rules 2 to 4 of R195. -/
def State.dscpClass (s : State) (b : Bytes) (x : Parsed) : Nat :=
  if x.ip ≠ 0 then
    let d := x.tos b / 4
    (s.rd (R.FWD_DSCP_MAP (d / 16))).toNat / 2 ^ (4 * (d % 16)) % 8
  else match x.tag with
    | some t => t / 8192
    | none => 0

/-- The class of a frame (spec/07 R195): an HFH's, else the DSCP's, else the outer tag's PCP, else 0. -/
def State.frameClass (s : State) (b : Bytes) (x : Parsed) (hfhOk : Bool) : Nat :=
  match x.header b with
  | some h => if hfhOk then h.cls else s.dscpClass b x
  | none => s.dscpClass b x

/-! ## Keys -/

/-- h of R204 over SEED and the key: addresses, protocol, ports, and the queue pair and DOMAIN when present, each big-endian
in the bytes that hold it (log entry 34). -/
def flowHash (seed : Bytes) (b : Bytes) (x : Parsed) : Nat :=
  let w := if x.ip = 4 then 4 else 16
  let a := seed ++ beBytes w (x.src b) ++ beBytes w (x.dst b)
  if x.addrOnly then crc32c a
  else crc32c (a ++ beBytes 1 x.proto ++ beBytes 2 (x.sport b) ++
    beBytes 2 (x.dport b) ++ (match x.qp b with
      | some q => beBytes 3 q
      | none => []) ++ (match x.header b with
      | some h => if h.version = 1 then [] else beBytes 2 h.domain
      | none => []))

/-- The route key of an address (spec/07 Table 7.8). -/
def routeKey (ip dst : Nat) : Nat :=
  if ip = 4 then 4 * 2 ^ 156 + dst * 2 ^ 96 else 6 * 2 ^ 156 + dst

/-- The classifier key of a frame; a frame of an internal port has ingress port index 0 (log entry 34). -/
def classKey (port cls : Nat) (b : Bytes) (x : Parsed) : Nat :=
  let h := match x.header b with
    | some h => 2 ^ 141 + h.flags % 2 * 2 ^ 140 + h.domain * 2 ^ 128
    | none => 0
  let a := if x.ip = 4 then (x.dst b, x.src b) else if x.ip = 6 then (x.dst b / 2 ^ 96, x.src b / 2 ^ 96) else (0, 0)
  let l3 := if x.ip = 0 then 0 else x.proto * 2 ^ 104 + x.sport b * 2 ^ 88 + x.dport b * 2 ^ 72 + x.tos b / 4 * 2 ^ 66
  12 * 2 ^ 156 + (if port < 2048 then port else 0) * 2 ^ 145 + cls * 2 ^ 142 + h + x.etype * 2 ^ 112 + l3 +
    a.1 * 2 ^ 32 + a.2

/-! ## Rewriting -/

/-- A one's complement sum folded to 16 bits. -/
def fold16 (x : Nat) : Nat :=
  let x := x % 65536 + x / 65536
  x % 65536 + x / 65536

/-- A checksum updated for a change of the words it covers, from their sum to another. -/
def ckUpdate (old before after : Nat) : Nat := 0xFFFF - fold16 ((0xFFFF - old) + (0xFFFF - fold16 before) + fold16 after)

/-- A 16-bit word at an even place of an IPv4 header changes, and its checksum is updated. -/
def ip4Word (b : Bytes) (l3 i w : Nat) : Bytes :=
  let c := ckUpdate (beAt b (l3 + 10) 2) (beAt b (l3 + i) 2) w
  patch (patch b (l3 + i) (beBytes 2 w)) (l3 + 10) (beBytes 2 c)

/-- TTL or hop limit is decremented (spec/07 R194). -/
def decTtl (b : Bytes) (x : Parsed) : Bytes :=
  if x.ip = 4 then ip4Word b x.l3 8 (beAt b (x.l3 + 8) 2 - 256)
  else patch b (x.l3 + 7) (beBytes 1 (byteAt b (x.l3 + 7) - 1))

/-- A frame is marked CE (spec/08 R242). -/
def markCe (b : Bytes) (x : Parsed) : Bytes :=
  if x.ip = 4 then ip4Word b x.l3 0 (beAt b x.l3 2 / 4 * 4 + 3)
  else patch b x.l3 (beBytes 2 (beAt b x.l3 2 / 64 * 64 + beAt b x.l3 2 % 16 + 48))

/-- An 802.1Q tag outermost: PCP is the class (spec/06 R186; log entry 34). -/
def addTag (b : Bytes) (vlan cls : Nat) : Bytes :=
  b.take 12 ++ beBytes 2 0x8100 ++ beBytes 2 (cls * 8192 + vlan % 4096) ++ b.drop 12

/-- The words that a UDP checksum covers beside the addresses: UDP length twice and the datagram without its checksum. -/
def udpSum (d : Bytes) : Nat := d.length + onesSum (patch d 6 [0, 0])

/-- The UDP datagram of a frame, without what pads the frame. -/
def udpOf (b : Bytes) (udp : Nat) : Bytes := (b.drop udp).take (max 8 (beAt b (udp + 4) 2))

/-- The bytes of an IP packet after its UDP header are replaced: lengths repaired, the IPv4 header checksum recomputed, and a
UDP checksum updated (spec/07 R199). -/
def setUdpBody (b : Bytes) (x : Parsed) (udp : Nat) (body : Bytes) : Bytes :=
  let old := udpOf b udp
  let new := patch (old.take 8 ++ body) 4 (beBytes 2 (8 + body.length))
  let ck := beAt old 6 2
  let ck' := ckUpdate ck (udpSum old) (udpSum new)
  let new := if x.ip = 4 ∧ ck = 0 then new else patch new 6 (beBytes 2 (if ck' = 0 then 0xFFFF else ck'))
  let b := b.take udp ++ new
  let n := b.length - x.l3
  padFrame (if x.ip = 6 then patch b (x.l3 + 4) (beBytes 2 (n - 40))
    else
      let b := patch (patch b (x.l3 + 2) (beBytes 2 n)) (x.l3 + 10) [0, 0]
      patch b (x.l3 + 10) (beBytes 2 (inetChecksum (slice b x.l3 (byteAt b x.l3 % 16 * 4)))))

/-- The HFH of a frame as an egress port of an agreed version takes it: EPOCH from the stamped epoch, translated where the
versions differ; DOMAIN and FORMAT of a version 1 header come from the group when it is active (FORMAT from IN_FORMAT, log
entry 34). None where the frame cannot be carried. -/
def egressHfh (h : Hfh) (epoch v : Nat) (groupActive : Bool) (domain format : Nat) : Option Hfh :=
  let fl := h.flags / 8 * 8 + epoch % 2 * 4 + h.flags % 4
  if v = 0 then none
  else if v = h.version then some { h with flags := fl }
  else if v = 1 then
    if 65536 ≤ h.chunk then none
    else some { h with version := 1, flags := fl / 4 * 4 + fl % 2, domain := 0, format := 0 }
  else
    let c := h.flags % 2 = 1 ∧ groupActive
    some { h with version := 2, flags := fl / 4 * 4 + fl % 2, domain := if c then domain else 0, format := if c then format else 0 }

end Sys2Proof.Machine
end

