-- ==== Sys2Proof/Machine/Forward.lean ====
section
/-! DEFINITION. Looking frames up (spec/07 R200 to R207, R212, R216), the egress form of a frame (R193, R194, R199), transmission,
mirroring and sampling (spec/08 R234, R242 to R245), and the moves of Table 6.17. -/

namespace Sys2Proof.Machine

/-! ## Lookup (spec/07 R201, R206, R209) -/

/-- The listed rows of a table in a bank, lowest first: row, bytes, whether it is marked invalid. -/
def State.rowsOf (s : State) (t b : Nat) : List (Nat × Bytes × Bool) :=
  (s.fwd.rows.filter fun x => x.1 / 2 ^ 20 == 2 * t + b).map fun x =>
    (x.1 % 2 ^ 20, leBytes (tblRowBytes t) x.2, s.fwd.invalid.contains x.1)

/-- A match of a lookup: its length, its result, and whether its row is invalid. -/
structure Hit where
  len : Nat
  result : Nat
  bad : Bool
  deriving DecidableEq, Repr

/-- The match of the greatest length; among equals the first. -/
def bestHit (l : List Hit) : Option Hit :=
  l.foldl (fun a h => match a with
    | none => some h
    | some g => if g.len < h.len then some h else some g) none

/-- The trie result of an address. -/
def State.trieHit (s : State) (b ip dst : Nat) : Option Hit :=
  let t := if ip = 4 then 1 else 2
  let w := if ip = 4 then 32 else 128
  bestHit ((s.rowsOf t b).filterMap fun x =>
    let r := x.2.1
    let len := if ip = 4 then byteAt r 4 else byteAt r 16
    let p := if ip = 4 then beAt r 0 4 else beAt r 0 16
    if rowValid t r ∧ len ≤ w ∧ p / 2 ^ (w - len) = dst / 2 ^ (w - len) then
      some ⟨len, if ip = 4 then leAt r 8 4 else leAt r 24 4, x.2.2⟩ else none)

/-- The TCAM result of a key in a region: the route region's prefixes are masked to their length (spec/07 R209). -/
def State.tcamHit (s : State) (b : Nat) (classifier : Bool) (key : Nat) : Option Hit :=
  bestHit ((s.rowsOf 3 b).filterMap fun x =>
    let r := x.2.1
    let k := leAt r 0 20
    let len := byteAt r 41
    let fam := k / 2 ^ 156
    let m := leAt r 20 20
    let w := if fam = 4 then 32 else 128
    let m := if classifier then m else m / 2 ^ (128 - len) * 2 ^ (128 - len)
    if rowValid 3 r ∧ bitOf (byteAt r 40) 1 = classifier ∧ (classifier ∨ ((fam = 4 ∨ fam = 6) ∧ len ≤ w)) ∧
        k &&& m = key &&& m then some ⟨len, leAt r 44 4, x.2.2⟩ else none)

/-- The number of a trie node: family, j, first j bits (spec/07 R476). -/
def nodeNumber (v6 : Bool) (j bits : Nat) : Nat := (256 * b2n v6 + j) * 2 ^ 128 + bits

/-- Whether a lookup in a slice passes a trie node that is being rebuilt (spec/07 R206). -/
def State.passesBroken (s : State) (slice b ip dst : Nat) : Bool :=
  let w := if ip = 4 then 32 else 128
  s.fwd.broken.any fun n => n.1 == slice && n.2.1 == b && ((List.range 14).any fun i =>
    let j := 16 + 8 * i
    decide (j < w) && n.2.2 == nodeNumber (ip == 6) j (dst / 2 ^ (w - j)))

/-- What a lookup finds: a miss, the exception action, or a result. -/
inductive Found where
  | miss
  | exc
  | result (r : Nat)
  deriving DecidableEq, Repr

/-- The longer of the trie and TCAM results, the TCAM's at equal length. -/
def State.lookup (s : State) (slice b ip dst : Nat) : Found :=
  if s.passesBroken slice b ip dst then .exc
  else
    let t := s.trieHit b ip dst
    let c := s.tcamHit b false (routeKey ip dst)
    let h := match t, c with
      | some t, some c => if c.len < t.len then some t else some c
      | some t, none => some t
      | none, c => c
    match h with
    | none => .miss
    | some h => if h.bad || !resultOk h.result then .exc else .result h.result

/-- The NEXTHOP row of an index when it is valid. -/
def State.nextHop? (s : State) (b i : Nat) : Option Bytes :=
  let r := s.rowAt 4 b i
  if rowValid 4 r && !s.fwd.invalid.contains (rowKey 4 b i) then some r else none

/-- The egress port of a next-hop row. -/
def hopPort (r : Bytes) : Nat := leAt r 0 2 % 2048

/-- The row of member m of a group, which may lie beyond the table. -/
def memberRow (group : Bytes) (m : Nat) : Nat := leAt group 0 4 % 2 ^ 20 + m

/-- Whether the row of member m of a group is marked invalid. -/
def State.memberInvalid (s : State) (b : Nat) (group : Bytes) (m : Nat) : Bool :=
  decide (memberRow group m < 2 ^ 20) && s.fwd.invalid.contains (rowKey 6 b (memberRow group m))

/-- The members of a group that are UP: position, next hop, port (spec/07 R204). A member whose row is invalid or lies beyond the
table, or whose next hop is not valid, names no port (log entry 34). -/
def State.upMembers (s : State) (b : Nat) (group : Bytes) : List (Nat × Nat × Nat) :=
  (List.range (leAt group 4 2)).filterMap fun m =>
    let hop := leAt (s.rowAt 6 b (memberRow group m)) 0 4 % 65536
    if 2 ^ 20 ≤ memberRow group m ∨ s.memberInvalid b group m then none
    else match s.nextHop? b hop with
    | some r => if s.portUp (hopPort r) then some (m, hop, hopPort r) else none
    | none => none

/-- The UP member whose egress queue of a class holds fewest cells; ties go to the next in rotation after the last. -/
def State.sprayMember (s : State) (b g cls : Nat) (l : List (Nat × Nat × Nat)) : Option (Nat × Nat × Nat) × State :=
  let last := sget 0 s.fwd.groupLast (16384 * b + g)
  let order := (l.filter fun m => decide (last ≤ m.1)) ++ (l.filter fun m => decide (m.1 < last))
  let best := order.foldl (fun a m => match a with
    | none => some m
    | some n => if s.depth m.2.2 cls < s.depth n.2.2 cls then some m else some n) none
  match best with
  | none => (none, s)
  | some m => (some m, { s with fwd.groupLast := sset 0 s.fwd.groupLast (16384 * b + g) (m.1 + 1) })

/-- What the choice of a member comes to: the row that it reaches is invalid, no member is UP, or next hop and port. -/
inductive Picked where
  | invalid
  | none
  | hop (index port : Nat)
  deriving DecidableEq, Repr

/-- A member that was chosen, or none. -/
def pickedOf : Option (Nat × Nat × Nat) → Picked
  | some m => Picked.hop m.2.1 m.2.2
  | Option.none => Picked.none

/-- The member of a group for a frame (spec/07 R204, R207): the hash path reaches the row of its first choice. -/
def State.selectMember (s : State) (b g cls : Nat) (group frame : Bytes) (x : Parsed) (orderFree : Bool) : Picked × State :=
  let up := s.upMembers b group
  if byteAt group 6 = 1 ∧ orderFree then
    let (m, s) := s.sprayMember b g cls up
    (pickedOf m, s)
  else
    let h := flowHash (slice group 8 4) frame x
    let first := h * leAt group 4 2 / 2 ^ 32
    if s.memberInvalid b group first then (.invalid, s)
    else match up.find? fun m => m.1 == first with
      | some m => (pickedOf (some m), s)
      | none => (pickedOf up[h * up.length / 2 ^ 32]?, s)

/-! ## Destinations -/

/-- What forwarding does with a frame: discarded (under a counter of its slice, or without one), the exception or the miss
action, one port, or copies. -/
inductive Fate where
  | drop (counter : Option Nat)
  | exc
  | miss
  | one (port : Nat) (egress : Egress)
  | many (ports : List Nat) (egress : Egress)
  deriving DecidableEq, Repr

/-- The ports of a multicast mask that take a copy (spec/07 R205, R215): those that are UP, and those whose hold behaviour runs,
which take copies within their share (spec/06 Table 6.17; log entry 71). -/
def State.mcastPorts (s : State) (ingress g : Nat) : List Nat :=
  let row := sget 0 s.fwd.rows (rowKey 8 0 g)
  (List.range 2048).filter fun p => bitOf row p && p != ingress && !s.excluded p && (s.portUp p || s.holding p)

/-- A multicast group as a fate. -/
def State.mcastFate (s : State) (ingress g : Nat) : Fate :=
  if s.fwd.invalid.contains (rowKey 8 0 g) then .exc
  else match s.mcastPorts ingress g with
    | [] => .drop (some 4)
    | l => .many l .mcast

/-- A result for a frame (spec/07 R203 to R207). -/
def State.resolve (s : State) (b ingress cls r : Nat) (frame : Bytes) (x : Parsed) (orderFree : Bool) : Fate × State :=
  let i := r % 2 ^ 24
  match r / 2 ^ 30 with
  | 0 => match s.nextHop? b i with
    | some row => (.one (hopPort row) (.nextHop i), s)
    | none => (.exc, s)
  | 1 =>
    let g := s.rowAt 5 b i
    if rowValid 5 g = false ∨ s.fwd.invalid.contains (rowKey 5 b i) then (.exc, s)
    else match s.selectMember b i cls g frame x orderFree with
      | (.hop hop p, s) => (.one p (.group i hop), s)
      | (.none, s) => (.drop (some 3), s)
      | (.invalid, s) => (.exc, s)
  | 2 => (s.mcastFate ingress i, s)
  | _ => (if i = 0 then .drop none else .exc, s)

/-- Whether a packet has a TTL or hop limit of 0 or 1. -/
def Parsed.expired (x : Parsed) (b : Bytes) : Bool := decide (x.ttl b ≤ 1)

/-- Where a routed frame goes (spec/07 R194, R201). -/
def State.route (s : State) (b ingress cls : Nat) (frame : Bytes) (x : Parsed) : Fate × State :=
  if x.expired frame then (.exc, s.count (ctrSlice (portSlice ingress) 1))
  else match s.lookup (portSlice ingress) b x.ip (x.dst frame) with
    | .miss => (.miss, s.count (ctrSlice (portSlice ingress) 2))
    | .exc => (.exc, s)
    | .result r =>
      let free := match x.header frame with
        | some h => decide (8 ≤ h.flags)
        | none => false
      s.resolve b ingress cls r frame x free

/-! ## Bridging (spec/07 R212) -/

/-- Whether a port belongs to the MAC segment of a VLAN. -/
def State.inSegment (s : State) (vlan p : Nat) : Bool :=
  s.flag (R.FWD_MAC_PORT p) F.FWD_MAC_PORT_BRIDGE && s.fld (R.FWD_MAC_PORT p) F.FWD_MAC_PORT_PVID == vlan

/-- Entries of the learned region. -/
def macCapacity : Nat := 245760

/-- The source of a bridged frame is learned or refreshed; true where the frame is discarded at the port's limit. -/
def State.learn (s : State) (p vlan : Nat) (mac : BitVec 48) : Bool × State :=
  let off := R.FWD_MAC_PORT p
  let full := decide (s.fld off F.FWD_MAC_PORT_LIMIT ≤ s.fld off F.FWD_MAC_PORT_LEARNED)
  let mine (e : MacEntry) : Bool := e.mac == mac && e.vlan.toNat == vlan
  let put (s : State) : State :=
    { s with fwd.mac := s.fwd.mac ++ [MacEntry.mk mac (BitVec.ofNat 12 vlan) p s.mono] }.setFld off F.FWD_MAC_PORT_LEARNED
      (s.fld off F.FWD_MAC_PORT_LEARNED + 1)
  if s.fld off F.FWD_MAC_PORT_LIMIT = 0 then (false, s)
  else match s.fwd.mac.find? mine with
    | some e =>
      if e.port = p then
        (false, { s with fwd.mac := s.fwd.mac.map fun e => if mine e then { e with refreshed := s.mono } else e })
      else if full then (false, s) else (false, put (s.dropMac mine))
    | none =>
      if full then
        if s.flag off F.FWD_MAC_PORT_ACTION then (false, s) else (true, s.count (ctrSlice (portSlice p) 11))
      else if macCapacity ≤ s.fwd.mac.length then (false, s.count (ctrSlice (portSlice p) 12))
      else (false, put s)

/-- The static entry of a destination in a VLAN. -/
def State.staticPort (s : State) (vlan mac : Nat) : Option Nat :=
  ((s.rowsOf 7 0).find? fun x => rowValid 7 x.2.1 && !x.2.2 && beAt x.2.1 0 6 == mac && leAt x.2.1 6 2 % 4096 == vlan).map
    fun x => leAt x.2.1 8 2 % 2048

/-- Ports that have a table entry of FWD_MAC_PORT with BRIDGE set. -/
def State.bridgePorts (s : State) : List Nat :=
  s.regs.filterMap fun x =>
    let d := x.1 - R.FWD_MAC_PORT 0
    if R.FWD_MAC_PORT 0 ≤ x.1 ∧ d % 8 = 0 ∧ d / 8 < 2048 ∧ F.FWD_MAC_PORT_BRIDGE.get x.2 = 1 then some (d / 8) else none

/-- Whether a port takes flooded frames: UP, held or lent (log entry 34). -/
def State.takesFlood (s : State) (p : Nat) : Bool :=
  s.portUp p || s.portState p == psHeld || s.portState p == psLent || (s.port p).holdRunning

/-- Where a bridged frame goes. A frame whose entry names its own ingress port goes nowhere (log entry 34). -/
def State.bridge (s : State) (p : Nat) (frame : Bytes) (x : Parsed) : Fate × State :=
  if s.flag (R.FWD_MAC_PORT p) F.FWD_MAC_PORT_BRIDGE = false then (.drop (some 0), s)
  else
    let vlan := match x.tag with
      | some t => t % 4096
      | none => s.fld (R.FWD_MAC_PORT p) F.FWD_MAC_PORT_PVID
    let (dropped, s) := s.learn p vlan (BitVec.ofNat 48 (beAt frame 6 6))
    if dropped then (.drop none, s)
    else
      let dst := beAt frame 0 6
      let known := s.staticPort vlan dst <|>
        (s.fwd.mac.find? fun e => e.mac.toNat == dst && e.vlan.toNat == vlan).map MacEntry.port
      match known with
      | some q => (if q = p then .drop none else .one q (.bridged vlan), s)
      | none => match s.bridgePorts.filter fun q => q != p && s.inSegment vlan q && s.takesFlood q with
        | [] => (.drop none, s)
        | l => (.many l (.bridged vlan), s)

/-! ## The egress form of a frame -/

/-- What the egress stages make of a frame: its bytes, a frame whose HFH the port cannot carry, or a next hop that is no
longer valid. -/
inductive Formed where
  | send (b : Bytes)
  | unagreed
  | exc
  deriving DecidableEq, Repr

/-- The HFH of a frame in the agreed version of its egress port, of which `tag` bytes of a tag will be added (spec/07 R199). -/
def State.formHfh (s : State) (p : Nat) (f : Stored) (b : Bytes) (x : Parsed) (tag : Nat) : Formed :=
  match x.hfh, x.udp, x.header b with
  | some i, some u, some h =>
    if f.hfh = 0 then .send b
    else
      let v := s.fld (prtState p) F.PRT_PORT_STATE_HFH
      match egressHfh h f.epoch v (s.grpActive h.group) (s.grpA h.group F.BSN_GROUP_A_DOMAIN) (s.inFmt h.group) with
      | none => .unagreed
      | some h' =>
        let d := udpOf b u
        let b' := setUdpBody b x u (h'.bytes ++ d.drop (i - u + hfhLen h.version))
        if v ≠ h.version ∧ s.portMax p < b'.length + 4 + tag then .unagreed else .send b'
  | _, _, _ => .send b

/-- The frame as an egress port sends it, before ECN and time stamps. -/
def State.form (s : State) (p : Nat) (f : Stored) : Formed :=
  let b := f.bytes
  let x := s.parse b
  let ttl (b : Bytes) : Bytes := if f.routed then decTtl b x else b
  match f.egress with
  | .asIs | .mirror => .send b
  | .direct => s.formHfh p f b x 0
  | .mcast => s.formHfh p f (if f.routed then patch (ttl b) 6 (beBytes 6 s.mac) else b) x 0
  | .bridged vlan =>
    let tagged := s.flag (R.FWD_MAC_PORT p) F.FWD_MAC_PORT_TAGGED
    match s.formHfh p f b x (if tagged then 4 else 0) with
    | .send b => .send (if tagged then addTag b vlan f.cls else b)
    | r => r
  | .nextHop i | .group _ i => match s.nextHop? (f.epoch % 2) i with
    | none => .exc
    | some row =>
      let tagged := 32768 ≤ leAt row 2 2
      match s.formHfh p f (slice row 4 6 ++ beBytes 6 s.mac ++ (ttl b).drop 12) x (if tagged then 4 else 0) with
      | .send b => .send (if tagged then addTag b (leAt row 2 2) f.cls else b)
      | r => r

/-- Length of a formed frame, FCS included; a frame that is not sent counts with its stored length. -/
def State.formedLen (s : State) (p : Nat) (f : Stored) : Nat := match s.form p f with
  | .send b => b.length + 4
  | _ => f.len

/-! ## Transmission (spec/08 R234; spec/06 R182, R185) -/

/-- Bytes as bits inverted. -/
def invertBytes (b : Bytes) : Bytes := b.map fun x => ~~~x

/-- A frame leaves on a port in credit mode: SENT counts its cells. -/
def State.spend (s : State) (p c cells : Nat) : State :=
  if s.portFc p = 2 then
    let off := R.PRT_CREDIT (p / 8) (p % 8) (s.portVc p c)
    s.setFld off F.PRT_CREDIT_SENT (s.fld off F.PRT_CREDIT_SENT + cells)
  else s

/-- Whether a frame is IEEE 1588. -/
def State.isPtp (s : State) (f : Stored) : Bool := ((s.parse f.bytes).ptp f.bytes).isSome

/-- A frame is transmitted; `bad` not 0 stomps it with that reason. Gives its mirror copies in all. -/
def State.transmit (s : State) (p : Nat) (f : Stored) (b : Bytes) (bad : Nat) : Nat × State :=
  let k := cellsOf (b.length + 4)
  let s := if s.isPtp f then s else s.spend p f.cls k
  let s := if bad = 0 then s.sendCounted p b
    else
      let s := ((s.sendFrame p (b ++ invertBytes (fcsOf b))).count (ctrPort p 2)).countBy (ctrPort p 3) (b.length + 4)
      let s := s.count (ctrSwcPort p 2)
      if s.portFc p = 2 then s.tailAbort p (s.portVc p f.cls) bad k else s
  if f.egress = .mirror then (f.copies, s) else s.mirror (s.mirrorsOf 1 p) f.copies (portQuad p) b bad

/-- A frame that was being cut through on a port has been sent. -/
def State.finishSending (s : State) (p : Nat) : State :=
  match s.swc.sending.find? fun x => x.1 == p with
  | none => s
  | some (_, x) => ({ s with swc.sending := sdel s.swc.sending p }.transmit p x.frame x.bytes x.bad).2

/-- Credits of a class's VC on a port. -/
def State.credit (s : State) (p c : Nat) : Nat :=
  let w := R.PRT_CREDIT (p / 8) (p % 8) (s.portVc p c)
  (s.fld w F.PRT_CREDIT_LIMIT + 2 ^ 32 - s.fld w F.PRT_CREDIT_SENT) % 2 ^ 32

/-- Whether a port pauses a class. -/
def State.paused (s : State) (p c : Nat) : Bool := s.portFc p == 1 && (s.port p).paused.getLsbD c

/-- Whether a frame's egress is by the result of a lookup that is a next hop or a group member. -/
def Egress.looked : Egress → Bool
  | .nextHop _ | .group _ _ => true
  | _ => false

/-- Whether a crossing of a slice's class is still to land at a port, so that a frame of its flow must wait (spec/08 R232). -/
def State.flowCrosses (s : State) (slice c p : Nat) : Bool :=
  (s.crossingsOf slice c).any fun y => !y.2.1.aside && !y.2.1.lost && y.2.1.targets.contains p

/-- The conditions of Table 8.1 for a unicast frame of a fabric port. -/
def State.cutsThrough (s : State) (p : Nat) (f : Stored) (x : Parsed) : Bool :=
  let v := s.fld (prtState p) F.PRT_PORT_STATE_HFH
  s.flag R.SWC_CTRL F.SWC_CTRL_CT_ENABLE && decide (f.ingress < 2048) && f.egress.looked && (f.hfh == 0 || v == f.hfh) &&
    !f.control && s.depth p f.cls == 0 && (s.xferQueue p f.cls).isEmpty &&
    !s.flowCrosses (portSlice f.ingress) f.cls p && s.portUp p && s.canSend p (s.formedLen p f) &&
    (s.swc.sending.all fun y => y.1 != p) && !s.paused p f.cls && decide (s.portLanes p ≤ s.portLanes f.ingress) &&
    (s.portFc p != 2 || (x.ip != 0 && decide (cellsOf (s.formedLen p f) ≤ s.credit p f.cls)))

/-! ## Sampling (spec/08 R245) -/

/-- Whether a sampler with a rate takes the present frame: gaps are drawn from 1 to 2N − 1 (free values). -/
def State.samples (s : State) (k n : Nat) : Bool × State :=
  if n = 0 then (false, { s with swc.gaps := sdel s.swc.gaps k })
  else
    let fresh (s : State) : Nat × State :=
      let (x, s) := s.draw
      (1 + x.toNat % (2 * n - 1), s)
    let (g, s) := if sget 0 s.swc.gaps k = 0 then fresh s else (sget 0 s.swc.gaps k, s)
    if g = 1 then
      let (g, s) := fresh s
      (true, { s with swc.gaps := sset 0 s.swc.gaps k g })
    else (false, { s with swc.gaps := sset 0 s.swc.gaps k (g - 1) })

/-- A sample passes to the Wellhead; from shed level 1 on it is discarded (spec/17 Table 17.7). -/
def State.takeSample (s : State) (x : Sample) : State :=
  if 1 ≤ s.fld R.PLN_WH_LOAD F.PLN_WH_LOAD_LEVEL then s.count (ctrSwc 21) else { s with swc.samples := s.swc.samples ++ [x] }

/-- The samplers of a frame received on a port: the port's own, then its quadrant's for a classifier action that asks. -/
def State.sample (s : State) (p : Nat) (asked : Bool) (b : Bytes) (len out : Nat) : State :=
  let (own, s) := s.samples p (s.fld (R.SWC_PORT_CTRL p) F.SWC_PORT_CTRL_SAMPLE_RATE)
  let n := s.fld R.SWC_SFLOW_CTRL F.SWC_SFLOW_CTRL_CLASS_RATE
  let (cls, s) := if own = false ∧ asked then s.samples (2048 + portQuad p) n else (false, s)
  let h := b.take (s.cfld R.SWC_SFLOW_CTRL F.SWC_SFLOW_CTRL_HDR_UNITS * 64)
  if own then s.takeSample ⟨h, len, p, out, p, s.fld (R.SWC_PORT_CTRL p) F.SWC_PORT_CTRL_SAMPLE_RATE⟩
  else if cls then s.takeSample ⟨h, len, p, out, 2048 + portQuad p, n⟩ else s

/-! ## A stored frame on its way -/

/-- The exception or miss action on a stored frame: discarded (an exception is counted), or forwarded as it stands to the
exception port when that is UP (spec/07 R201, R207); counted in a slice. Gives the port taken. -/
def State.excAction (s : State) (f : Fld) (counted : Option Nat) (id : Nat) (x : Stored) : Option Nat × State :=
  if s.flag R.FWD_GLOBAL_CTRL f then
    let p := s.fld R.FWD_GLOBAL_CTRL F.FWD_GLOBAL_CTRL_EXC_PORT
    if s.portUp p then (some p, (s.updFrame id fun y => { y with egress := .asIs, hfh := 0 }).enqueue p x.cls id true)
    else (none, s.release id)
  else (none, (match counted with
    | some sl => s.count (ctrSlice sl 9)
    | none => s).release id)

/-- The output of a sample of a discarded frame. -/
def noOutput : Nat := 0x40000000

/-- What a sample says of the egress: the one port, a discard, or, for copies, what the spec does not state. -/
def State.dispatchFate (s : State) (id : Nat) (x : Stored) (pr : Parsed) (fate : Fate) (bad : Nat) : Nat × State :=
  match fate with
  | .drop k => (noOutput, (match k with
      | some k => s.count (ctrSlice (portSlice x.ingress) k)
      | none => s).release id)
  | .exc => match s.excAction F.FWD_GLOBAL_CTRL_EXC_ACTION (some (portSlice x.ingress)) id x with
    | (some p, s) => (p + 1, s)
    | (none, s) => (noOutput, s)
  | .miss => match s.excAction F.FWD_GLOBAL_CTRL_MISS_ACTION none id x with
    | (some p, s) => (p + 1, s)
    | (none, s) => (noOutput, s)
  | .one p e =>
    let x := { x with egress := e, id := id }
    if s.cutsThrough p x pr then
      match s.form p x with
      | .send b =>
        let s := (s.release id).count (ctrSwcPort p 1)
        (p + 1, { s with swc.sending := sput s.swc.sending p ⟨x, b, bad⟩ })
      | _ => (p + 1, (s.updFrame id fun y => { y with egress := e }).enqueue p x.cls id true)
    else (p + 1, (s.updFrame id fun y => { y with egress := e }).enqueue p x.cls id true)
  | .many l e =>
    let (v, s) := s.draw
    (v.toNat % 2 ^ 32, (s.updFrame id fun y => { y with egress := e }).spread id l)

/-- The stamp of a frame (spec/07 R214, R216; spec/08 R238): its epoch, its ageing instant, and the state. -/
def State.stampFrame (s : State) (ingress : Nat) (h : Option Hfh) : Nat × Nat × State :=
  let e := s.epoch
  match h with
  | none => (e, s.now, s)
  | some h =>
    if h.flags / 4 % 2 = e % 2 then (e, s.now, s)
    else if s.flag R.FWD_GLOBAL_CTRL F.FWD_GLOBAL_CTRL_HONOUR_HFH_EPOCH ∧ s.epochState = 2 then
      ((e + (2 ^ 32 - 1)) % 2 ^ 32, s.fwd.flipAt, s)
    else if s.flag R.FWD_GLOBAL_CTRL F.FWD_GLOBAL_CTRL_HONOUR_HFH_EPOCH ∧ s.epochState = 1 then ((e + 1) % 2 ^ 32, s.now, s)
    else (e, s.now, s.count (ctrSlice (portSlice ingress) 13))

/-- The classifier action of a frame in a bank; an invalid row gives none. -/
def State.classify (s : State) (b port cls : Nat) (frame : Bytes) (x : Parsed) : Nat :=
  match s.tcamHit b true (classKey port cls frame x) with
  | some h => if h.bad then 0 else h.result
  | none => 0

/-- Whether a fate lets a frame cut through. -/
def State.cutFate (s : State) (id : Nat) (f : Stored) (x : Parsed) (fate : Fate) : Bool := match fate with
  | .one p e =>
    let f := { f with egress := e, id := id }
    s.cutsThrough p f x && (match s.form p f with
      | .send _ => true
      | _ => false)
  | _ => false

/-- Control frames that are forwarded are held in the control reserve, apart from the cells of the buffer: they count under no
heading (spec/06 R181; log entry 34). -/
def State.admitAs (s : State) (control : Bool) (f : Stored) : Option (Nat × State) :=
  if control then some (s.store { f with control := true }) else s.admitFrame f

/-- Whether frames are admitted to forwarding (spec/16 R419). -/
def State.fwdAdmits (s : State) : Bool :=
  s.flag R.GLB_CTRL F.GLB_CTRL_FWD_ENABLE && s.flag R.GLB_STATUS F.GLB_STATUS_FWD_ACTIVE

/-- A frame that passed its checks on a fabric port is admitted, mirrored, classified, looked up or bridged, queued, and
sampled (spec/07 R193, R201, R202; spec/08 R226, R244, R245). `bad` not 0 is a frame whose FCS is wrong: it goes on only
where it is cut through, and is discarded otherwise (spec/06 R185). -/
def State.switchFrame (s : State) (p cls : Nat) (b : Bytes) (x : Parsed) (hfhOk control : Bool) (capture : TimeStamp)
    (bad : Nat) (errs : List TableErr) : State :=
  let s := s.tableErrs (portSlice p) errs
  let s0 := s
  let h := if hfhOk then x.header b else none
  let (epoch, stamp, s) := s.stampFrame p h
  let routed := beAt b 0 6 == s.mac && x.ip != 0
  let f : Stored := { id := 0, bytes := b, ingress := p, cls := cls, egress := .asIs, epoch := epoch, stamp := stamp,
                      hfh := (h.map Hfh.version).getD 0, routed := routed, quad := portQuad p, refs := 1, capture := capture }
  match s.admitAs control f with
  | none =>
    if bad = 0 then
      let s := (s.count (ctrSwcClass p cls 0)).returnCells p cls f.cells
      s.sample p (bitOf (s.classify (epoch % 2) p cls b x) 26) b (b.length + 4) noOutput
    else s0.returnCells p cls f.cells
  | some (id, s) =>
    let bank := epoch % 2
    let act := s.classify bank p cls b x
    let named := act / 2 ^ 27
    let src := s.mirrorsOf 0 p
    let l := (List.range 16).filter fun n => src.contains n || (named == n + 1 && s.mirFld n F.SWC_MIRROR_CTRL_ENABLE == 1)
    let (copies, s) := if bad = 0 then s.mirror l 0 f.quad b 0 else (0, s)
    let s := s.updFrame id fun y => { y with copies := copies }
    let f := { f with copies := copies }
    let (fate, s) : Fate × State :=
      if bitOf act 24 then (.drop (some 10), s)
      else if routed then s.route bank p cls b x
      else if beAt b 0 6 = s.mac then (.drop (some 0), s)
      else s.bridge p b x
    if bad ≠ 0 ∧ s.cutFate id f x fate = false then s0.returnCells p cls f.cells
    else
      let (out, s) := s.dispatchFate id f x fate bad
      if bad = 0 then s.sample p (bitOf act 26) b (b.length + 4) out else s

/-! ## Moves (spec/06 Table 6.17, R189; spec/08 R237) -/

/-- Another UP member of the group of a frame whose port is gone: next hop, group and port; none for any other frame. -/
def State.moveTo (s : State) (p c : Nat) (f : Stored) : Option (Nat × Nat × Nat) × State := match f.egress with
  | .group g _ =>
    let bank := f.epoch % 2
    let x := s.parse f.bytes
    let free := match x.header f.bytes with
      | some h => f.hfh != 0 && decide (8 ≤ h.flags)
      | none => false
    match s.selectMember bank g c (s.rowAt 5 bank g) f.bytes x free with
    | (.hop hop q, s) => (if q = p then none else some (g, hop, q), s)
    | (_, s) => (none, s)
  | _ => (none, s)

/-- A frame queued for a port that is gone moves to another UP member of its group, or is discarded; one beyond its age limit is
discarded by age before any table is read (spec/07 R214). -/
def State.moveFrame (s : State) (p : Nat) (e : QEntry) : State := match s.frame? e.frame with
  | none => s
  | some f =>
    if s.aged f then s.ageOut p f.cls e.frame
    else match s.moveTo p f.cls f with
      | (some (g, hop, q), s) =>
        ((s.count (ctrPort p 8)).updFrame f.id fun y => { y with egress := .group g hop }).enqueue q f.cls f.id true
      | (none, s) => (s.count (ctrPort p 9)).release e.frame

/-- Whether a queue entry is a multicast copy. -/
def State.isCopy (s : State) (e : QEntry) : Bool := match s.frame? e.frame with
  | some f => f.egress == .mcast
  | none => false

/-- A crossing takes a change in its stream. -/
def State.changeCrossing (s : State) (k : Nat) (x : Crossing) (g : Crossing → Crossing) : State :=
  { s with swc.reseqs := sset {} s.swc.reseqs k ((sget {} s.swc.reseqs k).change x.frame g) }

/-- A frame on its way across the mesh to a port that is gone: a copy loses that target, another frame goes to another member when
it is over, or is discarded at once. -/
def State.evacuateCrossing (s : State) (p : Nat) (unicastOnly : Bool) (k : Nat) (x : Crossing) : State :=
  let lose (s : State) : State := (s.dropCrossing x).changeCrossing k x fun y => { y with lost := true }
  if x.lost ∨ x.targets.contains p = false then s
  else match x.kind with
    | .copy =>
      if unicastOnly then s
      else
        let s := s.count (ctrPort p 9)
        let l := x.targets.filter fun q => q != p
        if l.isEmpty then lose s else s.changeCrossing k x fun y => { y with targets := l }
    | _ => match s.frame? x.frame with
      | none => s
      | some f =>
        if s.aged f then lose (s.count (ctrSwcClass p f.cls 2))
        else match s.moveTo p f.cls f with
          | (some (g, hop, q), s) =>
            ((s.count (ctrPort p 8)).updFrame f.id fun y => { y with egress := .group g hop }).changeCrossing k x fun y =>
              { y with targets := [q], kind := .moved }
          | (none, s) => lose (s.count (ctrPort p 9))

/-- The frames queued for a port are moved or discarded; copies stay where they are when only unicast queues are meant
(spec/08 R237). -/
def State.evacuate (s : State) (p : Nat) (unicastOnly : Bool) : State :=
  let s := s.swc.reseqs.foldl (fun s y => y.2.crossings.foldl (fun s x => s.evacuateCrossing p unicastOnly y.1 x) s) s
  let s := s.swc.reseqs.foldl (fun s y => s.settle y.1 (sget {} s.swc.reseqs y.1)) s
  (List.range 9).foldl (fun s c =>
    let all := s.queue p c ++ (if c = ctlQueue then [] else s.xferQueue p c)
    let stay := if unicastOnly then (s.queue p c).filter s.isCopy else []
    let go := if unicastOnly then all.filter fun e => !s.isCopy e else all
    let s := s.setQueue p c stay
    let s : State := if c = ctlQueue then s else { s with swc.transfers := sset [] s.swc.transfers (qKey p c) [] }
    go.foldl (fun s e => s.moveFrame p e) s) s

end Sys2Proof.Machine
end

