-- ==== Sys2Proof/Machine/Port.lean ====
section
/-! DEFINITION. The states of a port slot: PCS lock and loss, the Wairn Link Exchange, discovery against the plan, credits, priority
flow control and the hold behaviour (spec/06 R165, R172, R173, R177 to R190). -/

namespace Sys2Proof.Machine

/-! ## Received bytes (spec/06 R185) -/

/-- Whether the last four bytes of a frame are its FCS. -/
def fcsRight (f : Bytes) : Bool := decide (4 ≤ f.length) && f.drop (f.length - 4) == fcsOf (f.take (f.length - 4))

/-- Whether they are its FCS inverted. -/
def fcsInverted (f : Bytes) : Bool :=
  decide (4 ≤ f.length) && f.drop (f.length - 4) == invertBytes (fcsOf (f.take (f.length - 4)))

/-- A frame of a length is received: counted, and the frame before it, if its FCS was inverted, counts as a stomp when this
one is a tail-abort frame, else as an FCS error. -/
def State.rxCount (s : State) (p len : Nat) (tail : Bool) : State :=
  let s := (s.count (ctrPort p 0)).countBy (ctrPort p 1) len
  if (s.port p).badFcs then (s.setPort p { s.port p with badFcs := false }).count (ctrPort p (if tail then 5 else 4)) else s

/-- A received frame with its FCS: true where the FCS is right. -/
def State.rxStart (s : State) (p : Nat) (f : Bytes) : Bool × State :=
  let s := s.rxCount p f.length (s.linkKind f == some 2)
  if fcsRight f then (true, s)
  else if fcsInverted f then (false, s.setPort p { s.port p with badFcs := true })
  else (false, s.count (ctrPort p 4))

/-- Whether frames are received on a port: every lane locked and none lent (spec/06 R171). -/
def State.receives (s : State) (p : Nat) : Bool := s.portLocked p && !s.portLent p

/-- Whether a frame is LLDP to the nearest bridge. -/
def isLldp (f : Bytes) : Bool := beAt f 0 6 == bridgeMac && beAt f 12 2 == 0x88CC

/-- A frame that a port in QUARANTINE does not pass is discarded and counted (spec/06 R179). -/
def State.quarantined (s : State) (p : Nat) (act : State → State) : State :=
  if s.portState p = psQuarantine then s.count (ctrPort p 6) else act s

/-- A frame of a kind is received: what it does follows where its FCS is right, on a port in QUARANTINE for LLDP alone. -/
def State.rxFrame (s : State) (p : Nat) (f : Bytes) (kind : Bool) (act : State → State) : State :=
  if s.receives p then
    let (ok, s) := s.rxStart p f
    let act (s : State) : State := if kind then act s else s
    if ok = false then s else if isLldp f then act s else s.quarantined p act
  else s

/-! ## Agreement (spec/06 R176 to R179) -/

/-- The state takes a code. -/
def State.portTo (s : State) (p st : Nat) : State := s.setFld (prtState p) F.PRT_PORT_STATE_STATE st

/-- The agreed fields and NEG_FAIL read as none. -/
def State.clearAgreed (s : State) (p : Nat) : State :=
  s.wr (prtState p) (F.PRT_PORT_STATE_STATE.put (s.portState p) |||
    F.PRT_PORT_STATE_DOWN_REASON.put (s.fld (prtState p) F.PRT_PORT_STATE_DOWN_REASON))

/-- Identity and port of the partner; zero for none. -/
def State.partnerOf (s : State) (p : Nat) : Word × Nat := match (s.port p).partner with
  | some w => (w.identity, w.port)
  | none => (0, 0)

/-- An event about the partner of a port. -/
def State.partnerEvent (s : State) (kind p : Nat) : State :=
  s.prtEvent kind p (s.partnerOf p).2 (s.partnerOf p).1

/-- Whether a port is UP or QUARANTINE: agreed. -/
def State.portAgreed (s : State) (p : Nat) : Bool := s.portUp p || s.portState p == psQuarantine

/-- Whether the exchange runs: locked, not lent, and NEGOTIATING, or ABSENT or HELD on an existing lock. -/
def State.exchanging (s : State) (p : Nat) : Bool :=
  s.receives p && (s.portState p == psNegotiating || s.portState p == psAbsent || s.portState p == psHeld)

/-- A new NONCE, never 0, and the Core, Capability and Credit TLVs: nothing is answered yet (spec/06 R177, step 1). -/
def State.newNonce (s : State) (p : Nat) : State :=
  let (x, s) := s.draw
  (s.setPort p { s.port p with ownNonce := BitVec.ofNat 16 (1 + x.toNat % 65535), answered := 0, outcome := none,
                               theirs := none }).sendLldp p

/-- The exchange starts with nothing known of the partner. -/
def State.startExchange (s : State) (p : Nat) : State :=
  ((s.clearAgreed p).setPort p { s.port p with partner := none, differences := 0, negStopped := false, complete := false }).newNonce p

/-- State and event of a comparison with the committed plan (spec/06 Table 6.14); event 0 is a match. -/
def State.planVerdict (s : State) (p : Nat) (nonwlx : Bool) (id : Word) (port : Nat) : Nat × Nat :=
  let plan := R.PRT_PLAN_PORT (p / 8) (p % 8)
  let pid := s.committed (R.PRT_PLAN_ID (p / 8) (p % 8))
  if s.cfld plan F.PRT_PLAN_PORT_NONE = 1 then (psQuarantine, 1)
  else if s.cfld plan F.PRT_PLAN_PORT_NONWLX = 1 then if nonwlx then (psUp, 0) else (psQuarantine, 2)
  else if pid = 0 then (psQuarantine, 1)
  else if nonwlx ∨ id ≠ pid ∨ port ≠ s.cfld plan F.PRT_PLAN_PORT_PORT then (psQuarantine, 2)
  else (psUp, 0)

/-- The registers of an outcome. -/
def State.agreedRegs (s : State) (p : Nat) (o : Outcome) : State :=
  s.wr (prtState p) (F.PRT_PORT_STATE_STATE.put (s.portState p) |||
    F.PRT_PORT_STATE_DOWN_REASON.put (s.fld (prtState p) F.PRT_PORT_STATE_DOWN_REASON) |||
    F.PRT_PORT_STATE_WLX.put o.wlx ||| F.PRT_PORT_STATE_FC.put o.fc ||| F.PRT_PORT_STATE_VCS.put o.vcs |||
    F.PRT_PORT_STATE_HFH.put o.hfh ||| F.PRT_PORT_STATE_BURST.put (b2n o.burst) |||
    F.PRT_PORT_STATE_SPILL.put (b2n o.spill) ||| F.PRT_PORT_STATE_TS.put (b2n o.ts) |||
    F.PRT_PORT_STATE_NONWLX.put (b2n (s.port p).partner.isNone) ||| F.PRT_PORT_STATE_MAX_FRAME.put o.maxFrame)

/-- Numbers below a bound with their values where not zero, in canonical form. -/
def tabulate (n : Nat) (f : Nat → BitVec 32) : Sparse (BitVec 32) :=
  (List.range n).filterMap fun v => if f v = 0 then none else some (v, f v)

/-- The credit state of every VC starts from the partner's Credit TLV (spec/06 R182, Table 6.17, step 4a). -/
def State.startCredits (s : State) (p : Nat) (o : Outcome) : State :=
  let x := s.port p
  let given := match x.partner with
    | some w => w.credits
    | none => []
  let n := if o.fc = 2 then o.vcs else 0
  let init := tabulate 8 fun v => if v < n then given.getD v 0 else 0
  let s := s.setPort p { x with init := init, returned := [], freed := [], received := [],
                                ownInit := tabulate 8 fun v => BitVec.ofNat 32 (s.vcInit p n v), owes := false, creditSeq := 0,
                                stomps := 0, paused := 0, stormed := 0, xoff := 0 }
  (List.range 8).foldl (fun s v =>
    s.wr (R.PRT_CREDIT (p / 8) (p % 8) v) (F.PRT_CREDIT_LIMIT.put (sget 0 init v).toNat)) s

/-- Agreement is complete, or the non-WLX outcome is reached: the partner is compared with the plan, a hold ends with its frames
kept or moved, and the outcome is reported unless it is a match (spec/06 R179, Table 6.17). -/
def State.agreed (s : State) (p : Nat) (o : Outcome) : State :=
  let s := (s.agreedRegs p o).startCredits p o
  let (id, port) := s.partnerOf p
  let (st, ev) := s.planVerdict p (s.port p).partner.isNone id port
  let x := s.port p
  let s := s.setPort p { x with complete := true, holdRunning := false, absent := false, met := true }
  let s := if x.holdRunning ∧ ¬(st = psUp ∧ id = x.holdId ∧ port = x.holdPort) then s.evacuate p false else s
  let s := (s.portTo p st).pfcCheckAll p
  if ev ≠ 0 then s.partnerEvent ev p else if x.absent then s.partnerEvent 4 p else s

/-- Negotiation fails: NEG_FAIL and NEGOTIATION_FAILED. -/
def State.negFail (s : State) (p code : Nat) : State :=
  (s.setFld (prtState p) F.PRT_PORT_STATE_NEG_FAIL code).partnerEvent 7 p

/-- Agreement is complete when both ends have answered the other's present NONCE with equal outcomes; when they differ the
exchange starts again, and after three differences it stops until a new lock or a write of ENABLE (spec/06 R177, steps 4 and
5). -/
def State.tryComplete (s : State) (p : Nat) : State :=
  let x := s.port p
  match x.outcome, x.theirs, x.partner with
  | some o, some a, some w =>
    if s.exchanging p = false ∨ x.negStopped ∨ x.lldpDue ∨ x.answered ≠ w.nonce ∨ a.echo ≠ x.ownNonce then s
    else if o.agrees a then s.agreed p o
    else
      let s := s.setPort p { x with differences := x.differences + 1 }
      if 3 ≤ x.differences + 1 then (s.setPort p { s.port p with negStopped := true }).negFail p 2 else s.newNonce p
  | _, _, _ => s

/-- The registers of a partner's Core and Capability TLVs. -/
def State.partnerRegs (s : State) (p : Nat) (w : Wlx) : State :=
  (s.wr (R.PRT_PARTNER_ID (p / 8) (p % 8)) w.identity).wr (R.PRT_PARTNER_INFO (p / 8) (p % 8))
    (F.PRT_PARTNER_INFO_VERSION.put w.version ||| F.PRT_PARTNER_INFO_ROLE.put w.role ||| F.PRT_PARTNER_INFO_FC.put w.fc |||
      F.PRT_PARTNER_INFO_FLAGS.put w.flags ||| F.PRT_PARTNER_INFO_ACQUIRE.put w.acquire |||
      F.PRT_PARTNER_INFO_PORT.put w.port)

/-! ## Leaving UP (spec/06 R188, R189) -/

/-- What a port that is no longer UP loses beside its state: the frame being sent, its time exchanges unless it stays linked,
and its learned addresses where MAC_AGE is 0 (spec/07 R212). -/
def State.portGone (s : State) (p : Nat) : State :=
  let s := { s with swc.sending := sdel s.swc.sending p }.timPortDown p
  if s.fld R.FWD_GLOBAL_CTRL F.FWD_GLOBAL_CTRL_MAC_AGE = 0 then s.dropMac fun e => e.port == p else s

/-- The reason for leaving UP, counted as LINK_DOWN. -/
def State.leftUp (s : State) (p reason : Nat) : State :=
  (s.setFld (prtState p) F.PRT_PORT_STATE_DOWN_REASON reason).count (ctrPort p 15)

/-- The hold timer expires: held frames are moved or discarded and the port keeps training (spec/06 Table 6.17, step 4c). -/
def State.holdExpire (s : State) (p : Nat) : State :=
  let x := s.port p
  if x.holdRunning then
    let s := (s.setPort p { x with holdRunning := false }).evacuate p false
    let s := s.prtEvent 5 p x.holdPort x.holdId
    if s.portState p = psHeld then s.portTo p (if s.portLocked p then psNegotiating else psTraining) else s
  else s

/-- The hold behaviour starts; a hold time of 0 expires at once. -/
def State.startHold (s : State) (p : Nat) : State :=
  let (id, port) := s.partnerOf p
  let s := s.setPort p { s.port p with holdId := id, holdPort := port, holdRunning := true, complete := false }
  if s.fld (R.PRT_HOLD_TIME (p / 8) (p % 8)) F.PRT_HOLD_TIME_HOLD = 0 then s.holdExpire p else s

/-- An UP port goes down with hold behaviour. A port that was UP before it was lent to a persistent circuit goes on reading LENT
(log entry 72). -/
def State.goDown (s : State) (p reason : Nat) : State :=
  if s.portUp p then (((s.leftUp p reason).portTo p psHeld).portGone p).startHold p
  else if s.portState p = psLent ∧ (s.port p).ordinary = psUp then
    ((s.leftUp p reason).setPort p { s.port p with ordinary := psTraining }).startHold p
  else s

/-- The partner is dead, or another: an UP port goes down, and the exchange starts again on the existing lock (log entry 33); on a
lent port it starts when the port relocks. -/
def State.partnerDead (s : State) (p reason : Nat) : State :=
  if s.portState p = psLent then s.goDown p reason
  else
    let s := if s.portUp p then s.goDown p reason else s.portGone p
    let s := if s.portState p = psHeld then s else s.portTo p psNegotiating
    s.startExchange p

/-- ENABLE is cleared: DISABLED at once, and queued frames are moved or discarded as at hold expiry (spec/06 R173, R189); at a
fence only the unicast queues (spec/08 R237). -/
def State.portOff (s : State) (p reason : Nat) (unicastOnly : Bool) : State :=
  let s := s.setFld (prtCtrl p) F.PRT_PORT_CTRL_ENABLE 0
  if s.portState p = psDisabled then s
  else
    let s := if s.portUp p then s.leftUp p reason else s
    let s := (((s.portTo p psDisabled).clearAgreed p).portGone p).setLanes p F.PRT_PAIR_STATUS_LOCK false
    (({ s with ports := sdel s.ports p }).evacuate p unicastOnly).rebalanceAll

/-- The plumb check of Table 6.7 has passed: ENABLE is set and the port trains. -/
def State.portStart (s : State) (p : Nat) : State :=
  let s := s.setFld (prtCtrl p) F.PRT_PORT_CTRL_ENABLE 1
  (({ s with ports := sdel s.ports p }.portTo p psTraining).setFld (prtState p) F.PRT_PORT_STATE_NEG_FAIL 0).rebalanceAll

/-- ENABLE is written as 1 to a port whose negotiation had stopped: it is tried again (spec/06 R177, step 5). -/
def State.portRetry (s : State) (p : Nat) : State :=
  if (s.port p).negStopped ∧ s.exchanging p then s.startExchange p else s

/-- A commit that changes plan entries compares a port in UP, QUARANTINE or ABSENT without retraining (spec/06 R180). -/
def State.planCompare (s : State) (p : Nat) : State :=
  if s.portAgreed p then
    let (id, port) := s.partnerOf p
    let (st, ev) := s.planVerdict p (s.flag (prtState p) F.PRT_PORT_STATE_NONWLX) id port
    let left := s.portUp p && st != psUp
    let s := s.portTo p st
    let s := if left then ((s.leftUp p 7).portGone p).evacuate p false else s
    if ev = 0 then s else s.partnerEvent ev p
  else if s.portState p = psAbsent then
    if s.cfld (R.PRT_PLAN_PORT (p / 8) (p % 8)) F.PRT_PLAN_PORT_NONE = 1 then
      (s.setPort p { s.port p with absent := false }).portTo p (if s.portLocked p then psNegotiating else psTraining)
    else s.prtEvent 3 p 0 0
  else s

/-- Laser light to an engine is lost: its UP ports go down by R188 and the others train, and LASER_LOSS is raised once (spec/06
R190). -/
def State.laserLoss (s : State) (e : Nat) : State :=
  let s := (List.range 64).foldl (fun s i =>
    let p := 64 * e + i
    if s.portState p = psDisabled then s
    else
      let s := s.setLanes p F.PRT_PAIR_STATUS_LOCK false
      let s := if s.portState p = psLent then s.portTo p (s.port p).ordinary else s
      if s.portUp p then s.goDown p 3
      else if s.portState p = psHeld then s
      else (if s.portAgreed p then s.portGone p else s).portTo p psTraining) s
  let l : Laser := sget ({} : Laser) s.lasers e
  let s : State := { s with lasers := sset ({} : Laser) s.lasers e { l with relight := true } }
  s.prtEvent 8 (64 * e) 0 0

/-! ## Commands of lock and exchange -/

/-- Every lane of a port locks. -/
def State.lockPort (s : State) (p : Nat) : State :=
  let s := (s.setLanes p F.PRT_PAIR_STATUS_LOCK true).setLanes p F.PRT_PAIR_STATUS_LIGHT true
  (s.portTo p psNegotiating).startExchange p

/-- PCS lock: an enabled port enters NEGOTIATING, after a loss of laser light once the source has passed its pairing check and
the engine's rings have locked (spec/06 R177, step 1, R190). The lanes of any port are free of loss of signal. -/
def execPcsLock (p : Fin 2048) (s : State) : Out :=
  let l := sget {} s.lasers (portEngine p)
  if s.portExists p = false ∨ s.portLent p then .next s
  else if s.portEnabled p ∧ s.portLocked p = false ∧ l.lightLost = false ∧ l.relight = false then .next (s.lockPort p)
  else .next (s.setLanes p F.PRT_PAIR_STATUS_LIGHT true)

/-- The PCS of a port is lost, with the lanes that have lost their signal; disregarded on a lent port (spec/06 R165, R171). Of a
port that is not enabled, the lanes alone change. -/
def State.pcsLost (s : State) (p dark : Nat) : State :=
  if s.portExists p = false ∨ s.lossIgnored p then s
  else
    let st := R.PRT_PAIR_STATUS (p / 8)
    let s := s.setFld st F.PRT_PAIR_STATUS_LIGHT (s.fld st F.PRT_PAIR_STATUS_LIGHT &&& (255 - (dark &&& s.laneMask p)))
    let s := s.setLanes p F.PRT_PAIR_STATUS_LOCK false
    if s.portEnabled p = false then s
    else if s.portUp p then s.goDown p 1
    else if s.portState p = psHeld then s
    else
      let s := if s.portState p = psQuarantine then s.portGone p else s
      s.portTo p (if (s.port p).holdRunning then psHeld else if (s.port p).absent then psAbsent else psTraining)

def execPcsLoss (p : Fin 2048) (dark : BitVec 8) (s : State) : Out := .next (s.pcsLost p dark.toNat)

/-- What an LLDP frame does (spec/06 R177, R178). A Core TLV with IDENTITY 0 or NONCE 0, or with a VERSION outside spec/00 Table
0.8, is invalid and counts as absent (log entry 73). NO_COMMON_FC leaves that NONCE without an Agreement. -/
def State.lldpIn (s : State) (p : Nat) (f : Bytes) : State :=
  let w := parseLldp f
  let s := s.count (ctrPort p 10)
  let core := w.nonce ≠ 0 ∧ w.identity ≠ 0 ∧ w.version ≠ 0
  let s := if core ∧ s.portAgreed p ∧ (w.identity, w.port) ≠ s.partnerOf p then
      (s.prtEvent 6 p w.port w.identity).partnerDead p 5 else s
  let s := if core then
      let old := match (s.port p).partner with
        | some v => v.credits
        | none => []
      let w := if w.credits = [] then { w with credits := old } else w
      (s.partnerRegs p w).setPort p { s.port p with partner := some w }
    else s
  let s := if core ∧ w.nonce ≠ (s.port p).answered ∧ (s.port p).negStopped = false then
      match s.negotiate p w with
      | none =>
        if s.exchanging p then (s.setPort p { s.port p with outcome := none, answered := w.nonce }).negFail p 1 else s
      | some o => (s.setPort p { s.port p with outcome := some o, answered := w.nonce }).sendLldp p
    else s
  let s := match w.agreement with
    | some a => if a.echo = (s.port p).ownNonce then s.setPort p { s.port p with theirs := some a } else s
    | none => s
  s.tryComplete p

def execLldpReceive (p : Fin 2048) (frame : Bytes) (s : State) : Out :=
  .next (s.rxFrame p frame (isLldp frame) fun s => s.lldpIn p frame)

/-- While the exchange runs, the TLVs are sent again. -/
def execWlxResend (p : Fin 2048) (s : State) : Out :=
  .next (if s.exchanging p ∧ (s.port p).negStopped = false then s.sendLldp p else s)

/-- After agreement LLDP is sent again and again. -/
def execLldpPeriodic (p : Fin 2048) (s : State) : Out :=
  .next (if s.portAgreed p ∧ s.receives p then s.sendLldp p else s)

/-- Nothing agreed since ENABLE makes a port ABSENT unless the plan says NONE (spec/06 Table 6.14). -/
def State.absentIf (s : State) (p : Nat) : State :=
  let x := s.port p
  if (s.portState p = psTraining ∨ s.portState p = psNegotiating) ∧ x.met = false ∧
      s.cfld (R.PRT_PLAN_PORT (p / 8) (p % 8)) F.PRT_PLAN_PORT_NONE = 0 then
    ((s.setPort p { x with absent := true }).portTo p psAbsent).prtEvent 3 p 0 0
  else s

/-- DISC_TIMEOUT passes. On an enabled port that has not agreed, the first time is counted from ENABLE (spec/06 Table 6.14); any
other from a PCS lock, where a partner that has sent no Core TLV has the non-WLX outcome (spec/06 R178; log entry 57). -/
def execDiscoveryTimeout (p : Fin 2048) (s : State) : Out :=
  let x := s.port p
  if s.portEnabled p = false then .next s
  else if x.met = false ∧ x.limitPassed = false then .next ((s.setPort p { x with limitPassed := true }).absentIf p)
  else .next (if s.exchanging p ∧ x.partner = none ∧ x.negStopped = false then s.agreed p nonWlxOutcome else s)

/-- An LLDP TTL expires without a fresh frame, in priority flow control (spec/06 R184). -/
def execLldpTtlExpiry (p : Fin 2048) (s : State) : Out :=
  .next (if s.portAgreed p ∧ s.portFc p = 1 ∧ s.receives p then s.partnerDead p 2 else s)

/-! ## Credits (spec/06 R182 to R185) -/

/-- A valid credit frame: each count that is not stale replaces RETURNED. -/
def State.creditIn (s : State) (p : Nat) (f : Bytes) : State :=
  if s.portUp p ∧ s.portFc p = 2 then
    (List.range (s.fld (prtState p) F.PRT_PORT_STATE_VCS)).foldl (fun s v =>
      let x := s.port p
      let r := BitVec.ofNat 32 (beAt f (16 + 4 * v) 4)
      if (r - sget 0 x.returned v).toNat < 2 ^ 31 then
        (s.setPort p { x with returned := sset 0 x.returned v r }).setFld (R.PRT_CREDIT (p / 8) (p % 8) v)
          F.PRT_CREDIT_LIMIT (sget 0 x.init v + r).toNat
      else s) (s.count (ctrPort p 12))
  else s

def execCreditFrameReceive (p : Fin 2048) (frame : Bytes) (s : State) : Out :=
  .next (s.rxFrame p frame (s.linkKind frame == some 1) fun s => s.creditIn p frame)

/-- Whether credit frames are sent on a port: it is UP (spec/06 R179). -/
def State.creditsOn (s : State) (p : Nat) : Bool := s.portUp p && s.portFc p == 2 && s.receives p

def execCreditFrameSend (p : Fin 2048) (s : State) : Out :=
  .next (if s.creditsOn p ∧ (s.port p).owes then s.creditFrame p false else s)

def execKeepaliveSend (p : Fin 2048) (s : State) : Out := .next (if s.creditsOn p then s.creditFrame p true else s)

/-- No valid credit frame for 5 ms; time lent does not run the timer. -/
def execKeepaliveTimeout (p : Fin 2048) (s : State) : Out :=
  .next (if s.creditsOn p ∧ s.lossIgnored p = false then s.partnerDead p 2 else s)

/-- A tail-abort frame: what it says of the frame before it is counted as it is received. -/
def execTailAbortReceive (p : Fin 2048) (frame : Bytes) (s : State) : Out :=
  .next (s.rxFrame p frame (s.linkKind frame == some 2) id)

/-! ## Priority flow control (spec/06 R186, R187) -/

/-- A PFC frame: quanta other than 0 pause a class, 0 lets it go; a class whose pauses are disregarded stays as it is. -/
def State.pfcIn (s : State) (p : Nat) (enable : BitVec 8) (quanta : List (BitVec 16)) : State :=
  if s.pfcRuns p then
    (List.range 8).foldl (fun s c =>
      let q := quanta.getD c 0
      if enable.getLsbD c then
        let s := if q = 0 then s else s.count (ctrPfc p c 0)
        let x := s.port p
        if x.stormed.getLsbD c then s
        else s.setPort p { x with paused :=
          if q = 0 then x.paused &&& ~~~BitVec.ofNat 8 (2 ^ c) else x.paused ||| BitVec.ofNat 8 (2 ^ c) }
      else s) s
  else s

def execPfcFrameReceive (p : Fin 2048) (enable : BitVec 8) (quanta : List (BitVec 16)) (s : State) : Out :=
  .next (if s.receives p then (s.rxCount p 64 false).quarantined p fun s => s.pfcIn p enable quanta else s)

/-- The quanta of a pause run out. -/
def execPfcPauseExpiry (p : Fin 2048) (c : Fin 8) (s : State) : Out :=
  .next (s.setPort p { s.port p with paused := (s.port p).paused &&& ~~~BitVec.ofNat 8 (2 ^ c.val) })

/-- XOFF again while the class stays at or above XON. -/
def execPfcXoffResend (p : Fin 2048) (c : Fin 8) (s : State) : Out :=
  .next (if s.pfcRuns p ∧ s.canSend p 64 ∧ (s.port p).xoff.getLsbD c ∧
      s.fld (R.PRT_PFC_THRESH (p / 8) (p % 8) c) F.PRT_PFC_THRESH_XON ≤ s.heldCells p c then s.sendPfc p c 0xFFFF else s)

/-- A class paused without a break for longer than PFC_WDOG. -/
def execPfcStorm (p : Fin 2048) (c : Fin 8) (s : State) : Out :=
  let x := s.port p
  let m := BitVec.ofNat 8 (2 ^ c.val)
  .next (if s.pfcRuns p ∧ x.paused.getLsbD c ∧ s.fld R.PRT_GLOBAL_CTRL F.PRT_GLOBAL_CTRL_PFC_WDOG ≠ 0 then
      ((s.setPort p { x with paused := x.paused &&& ~~~m, stormed := x.stormed ||| m }).count (ctrPort p 14)).partnerEvent 9 p
    else s)

/-- Pauses are honoured again. -/
def execPfcWatchdogEnd (p : Fin 2048) (c : Fin 8) (s : State) : Out :=
  .next (s.setPort p { s.port p with stormed := (s.port p).stormed &&& ~~~BitVec.ofNat 8 (2 ^ c.val) })

def execHoldExpiry (p : Fin 2048) (s : State) : Out := .next (s.holdExpire p)

end Sys2Proof.Machine
end

