-- ==== Sys2Proof/Machine/Optics.lean ====
section
/-! DEFINITION. Modulator rings: lock loops, order counts, lane reports, withdrawal of lanes, measurements (spec/11 R313 to
R320, R340). -/

namespace Sys2Proof.Machine

/-! ## Rings (spec/11 R317, Table 11.21) -/

/-- OPT_RING of a ring. -/
def ringReg (r : RingId) : Nat := R.OPT_RING r.e r.k r.l

/-- The number of a ring among all. -/
def ringNum (r : RingId) : Nat := 64 * r.e + 8 * r.k + r.l

/-- Ring (k, l) of engine e by 8k + l. -/
def ringAt (e i : Nat) : RingId := ⟨Fin.ofNat 32 e, Fin.ofNat 8 (i / 8), Fin.ofNat 8 i⟩

/-- STATE of a ring: 0 off, 1 searching, 2 counting, 3 locked, 4 awaiting a lane report, 5 parked. -/
def State.ringState (s : State) (r : RingId) : Nat := s.fld (ringReg r) F.OPT_RING_STATE

/-- Whether a ring holds a line. -/
def State.ringHolds (s : State) (r : RingId) : Bool := decide (2 ≤ s.ringState r) && decide (s.ringState r ≤ 4)

/-- The port that contains a ring's lane. -/
def State.ringPort (s : State) (r : RingId) : Nat :=
  let f := 8 * r.e.val + r.k
  let n := modeLanes (s.pairMode f)
  8 * f + r.l / n * n

/-- Whether laser light at its setpoint reaches an engine. -/
def State.engineLit (s : State) (e : Nat) : Bool :=
  let l := sget {} s.lasers e
  l.level == .setpoint && !l.lightLost

/-- STATE and LOCKED of an engine; once its rings have locked its ports may lock again (spec/06 R190). -/
def State.engineStatus (s : State) (e : Nat) : State :=
  let l := (List.range 64).map fun i => s.ringState (ringAt e i)
  let x := sget {} s.lasers e
  let s := if x.relight ∧ s.engineLit e ∧ l.all fun y => 3 ≤ y then { s with lasers := sset {} s.lasers e { x with relight := false } }
    else s
  let st := if s.bayState (opticBay e) = 3 then 0 else if s.engineLit e = false then 3
    else if l.all fun x => 3 ≤ x then 2 else 1
  (s.setFld (R.OPT_STATUS e) F.OPT_STATUS_STATE st).setFld (R.OPT_STATUS e) F.OPT_STATUS_LOCKED
    (l.filter fun x => x == 3 || x == 4).length

/-- A ring starts an attempt: with rising heat (SIDE 0), or falling where its last attempt rose (spec/11 R317, R320); it stays off
where its engine has no light. -/
def State.ringSearch (s : State) (r : RingId) : State :=
  let s := { s with spl.detuned := sdel s.spl.detuned (ringNum r) }
  if s.engineLit r.e ∧ s.bayState (opticBay r.e) ≠ 3 then
    let side := if sget false s.spl.tried (ringNum r) then 1 - s.fld (ringReg r) F.OPT_RING_SIDE else 0
    let s := { s with spl.tried := sset false s.spl.tried (ringNum r) true }
    (s.setFld (ringReg r) F.OPT_RING_STATE 1).setFld (ringReg r) F.OPT_RING_SIDE side
  else s.setFld (ringReg r) F.OPT_RING_STATE 0

/-- A new attempt counts as a relock of its engine in the Ledger (spec/18 Table 18.2). -/
def State.ringRelock (s : State) (r : RingId) : State := (s.ldgAdd (ldgEngine r.e + 24) 4 1).ringSearch r

/-- A ring loses its lock: RING_UNLOCK, and a new attempt. -/
def State.ringLost (s : State) (r : RingId) : State :=
  if s.ringHolds r then
    ((s.count (ctrOpt (ringNum r) 1)).splEvent 0xA 0 r.e (8 * r.k + r.l) 0).ringRelock r
  else s

/-- Every ring of an engine that is not parked starts an attempt: the source has reached its setpoint, or the engine has left
the dark state. -/
def State.ringsStart (s : State) (e : Nat) : State :=
  ((List.range 64).foldl (fun s i =>
    if s.ringState (ringAt e i) = 5 then s else s.ringSearch (ringAt e i)) s).engineStatus e

/-- Every ring of an engine loses its lock, and searches or, without light, is off. -/
def State.ringsLost (s : State) (e : Nat) : State :=
  ((List.range 64).foldl (fun s i =>
    let r := ringAt e i
    if s.ringHolds r then s.ringLost r else if s.ringState r = 5 then s else s.ringSearch r) s).engineStatus e

/-- An attempt of a ring is finished; RELOCK reads 0 when all of the engine's are. -/
def State.attemptDone (s : State) (r : RingId) : State :=
  let l := s.spl.relocking.filter fun n => n != ringNum r
  let s := { s with spl.relocking := l }
  if l.any fun n => n / 64 == r.e.val then s else s.setFld (R.OPT_CTRL r.e) F.OPT_CTRL_RELOCK 0

/-! ## Wrong locks (spec/11 R318 to R320) -/

/-- The lane of a ring is withdrawn: its ring is parked and its port's ENABLE cleared. -/
def State.withdrawLane (s : State) (r : RingId) : State :=
  let off := R.PRT_PAIR_STATUS (8 * r.e.val + r.k)
  let s := s.setFld (ringReg r) F.OPT_RING_STATE 5
  let s := s.setFld off F.PRT_PAIR_STATUS_WITHDRAWN (s.fld off F.PRT_PAIR_STATUS_WITHDRAWN ||| 2 ^ r.l.val)
  let s := if s.portEnabled (s.ringPort r) then s.portOff (s.ringPort r) 6 false else s
  (s.splEvent 7 0 r.e (8 * r.k + r.l) 0).journal 0xC r.e (leBytes 1 (8 * r.k + r.l))

/-- WRONG_LOCK: the ring is relocked from its other side, or withdrawn at the third failure. -/
def State.wrongLock (s : State) (r : RingId) : State :=
  let n := s.fld (ringReg r) F.OPT_RING_FAILS + 1
  let s := (s.count (ctrOpt (ringNum r) 2)).ldgAdd (ldgEngine r.e + 20) 4 1
  let s := (s.splEvent 6 0 r.e (8 * r.k + r.l) 0).setFld (ringReg r) F.OPT_RING_FAILS (min 3 n)
  let s := if 3 ≤ n then s.withdrawLane r else s.ringRelock r
  s.engineStatus r.e

/-- Whether a port's link is of WLX 3: both ends support it, as the partner's Core TLV of this lock says. -/
def State.wlx3 (s : State) (p : Nat) : Bool := s.ctrlFld p F.PRT_PORT_CTRL_WLX_MAX == 3 && (match (s.port p).partner with
  | some w => decide (3 ≤ w.version)
  | none => false)

/-- A lock passed: it clears the failure count, after the next lane report on a WLX 3 link. -/
def State.lockPassed (s : State) (r : RingId) : State :=
  let p := s.ringPort r
  if s.portEnabled p ∧ s.wlx3 p then (s.setFld (ringReg r) F.OPT_RING_STATE 4).engineStatus r.e
  else ((s.setFld (ringReg r) F.OPT_RING_STATE 3).setFld (ringReg r) F.OPT_RING_FAILS 0).engineStatus r.e

/-- A lane report against the port's lanes: FOUND(u + j) valid and equal to j. -/
def State.laneIn (s : State) (p : Nat) (f : Bytes) : State :=
  if s.wlx3 p = false then s else
  (List.range (s.portLanes p)).foldl (fun s j =>
    let l := p % 8 + j
    let r := ringAt (p / 64) (p / 8 % 8 * 8 + l)
    let ok := byteAt f (20 + l) == 128 + j
    if s.ringState r = 4 ∧ ok then
      ((s.setFld (ringReg r) F.OPT_RING_STATE 3).setFld (ringReg r) F.OPT_RING_FAILS 0).engineStatus r.e
    else if (s.ringState r = 3 ∨ s.ringState r = 4) ∧ ok = false then s.wrongLock r else s) s

def execLaneReportReceive (p : Fin 2048) (frame : Bytes) (s : State) : Out :=
  .next (s.rxFrame p frame (s.linkKind frame == some 3) fun s => s.laneIn p frame)

/-- A lane report leaves on a WLX 3 link, unless its port is in QUARANTINE; lanes of other ports are not reported, and bits [6:3]
are zero. -/
def execLaneReportSend (p : Fin 2048) (found : List Byte) (s : State) : Out :=
  if s.receives p ∧ s.wlx3 p ∧ s.portState p ≠ psQuarantine ∧ s.canSend p 64 then
    let n := s.portLanes p
    let l := (List.range 8).flatMap fun l =>
      if p.val % 8 ≤ l ∧ l < p.val % 8 + n then beBytes 1 (byteAt found l &&& 0x87) else beBytes 1 0
    .next (s.txFrame p (s.linkFrame 3 0 (beBytes 2 p ++ beBytes 1 n ++ beBytes 1 0 ++ l)))
  else .next s

/-! ## Lanes (spec/06 R166) -/

/-- What a lane's transmitter gives: nothing, PCS idle, or a frame. -/
inductive LaneLight where
  | dark | idle | frame
  deriving DecidableEq, Repr

/-- The light of lane l of fibre pair f: dark while its port is disabled or its lane lent, without laser light (until the engine's
rings have locked again), and while its ring is not locked; else a frame, or PCS idle where there is none. The frames of
`out.frames` are those handed to the port's PCS: on a dark lane none of them is seen by a partner. -/
def State.laneLight (s : State) (f l : Nat) : LaneLight :=
  let r := ringAt (f / 8) (f % 8 * 8 + l)
  let p := s.ringPort r
  let x := sget {} s.lasers (f / 8)
  if s.portState p = psDisabled ∨ s.portState p = psLent ∨ bitOf (s.fld (R.PRT_PAIR_STATUS f) F.PRT_PAIR_STATUS_LENT) l ∨
      s.engineLit (f / 8) = false ∨ x.relight ∨ s.ringHolds r = false then .dark
  else if s.swc.sending.any fun y => y.1 == p then .frame else .idle

/-! ## Lock loops (spec/11 R313 to R318) -/

/-- A sample of a ring that holds its line: detuning in units of 10 MHz and heater drive; ten samples in a row, 10 us, whose
detuning is 10 GHz or more lose the lock (spec/11 Table 11.2). The engine's heater power is a free value: the spec gives no law
from drives to it (log entry 45). -/
def execLockLoopSample (ring : RingId) (detune heater : BitVec 16) (s : State) : Out :=
  if s.ringHolds ring then
    let n := if 1000 ≤ detune.toInt.natAbs then sget 0 s.spl.detuned (ringNum ring) + 1 else 0
    let s := { s with spl.detuned := sset 0 s.spl.detuned (ringNum ring) n }
    let s := (s.setFld (ringReg ring) F.OPT_RING_DETUNE detune.toNat).setFld (ringReg ring) F.OPT_RING_HEATER heater.toNat
    let (x, s) := s.draw
    let s := s.setFld (R.OPT_STATUS ring.e) F.OPT_STATUS_HEATER_MW x.toNat
    .next (if 10 ≤ n then (s.ringLost ring).engineStatus ring.e else s)
  else .next s

/-- A search meets a line and locks, or ends without one and goes on. -/
def execRingLockAttemptDone (ring : RingId) (met : Bool) (s : State) : Out :=
  if s.ringState ring ≠ 1 then .next s
  else if met then
    .next (((s.incSat (ringReg ring) F.OPT_RING_LOCKS).count (ctrOpt (ringNum ring) 0)).setFld (ringReg ring) F.OPT_RING_STATE 2)
  else .next (s.attemptDone ring)

/-- The order count: crossings before the missing interval, with the direction the heater range allows. -/
def execOrderCountDone (ring : RingId) (crossings : Fin 8) (s : State) : Out :=
  if s.ringState ring ≠ 2 then .next s
  else
    let up := Config.sweepRises (ringNum ring) (s.fld (ringReg ring) F.OPT_RING_HEATER)
    let line := if up then 7 - crossings.val else crossings.val
    let s := (s.setFld (ringReg ring) F.OPT_RING_ORDER line).attemptDone ring
    .next (if line = ring.l.val then s.lockPassed ring else s.wrongLock ring)

/-- The set point of a locked ring is trimmed. -/
def execSetPointTrim (ring : RingId) (heater : BitVec 16) (s : State) : Out :=
  .next (if s.ringHolds ring then s.setFld (ringReg ring) F.OPT_RING_HEATER heater.toNat else s)

/-! ## What writes of the OPT block do (spec/11 Tables 11.19, 11.20) -/

/-- RELOCK: every ring of the engine that is lit and not parked is unlocked and relocked. -/
def State.relockEngine (s : State) (e : Nat) : State :=
  let l := (List.range 64).filter fun i => s.ringState (ringAt e i) != 5 && s.engineLit e
  let s := { s with spl.relocking := (s.spl.relocking.filter fun n => n / 64 != e) ++ l.map fun i => 64 * e + i }
  let s := l.foldl (fun s i => s.ringRelock (ringAt e i)) s
  (s.setFld (R.OPT_CTRL e) F.OPT_CTRL_RELOCK (b2n !l.isEmpty)).engineStatus e

/-- OPT_MEASURE.GO: a reading begins. -/
def State.measureStart (s : State) (e : Nat) : State :=
  (s.setFld (R.OPT_MEASURE e) F.OPT_MEASURE_GO 1).setFld (R.OPT_MEASURE_RESULT e) F.OPT_MEASURE_RESULT_VALID 0

/-- OPT_LANE_CLEAR: a withdrawal ends, the failure count is cleared and an attempt starts, of every ring named. -/
def State.clearLanes (s : State) (e : Nat) (mask : Word) : State :=
  ((List.range 64).foldl (fun s i =>
    let r := ringAt e i
    if mask.getLsbD i then
      let off := R.PRT_PAIR_STATUS (8 * e + i / 8)
      let s := s.setFld off F.PRT_PAIR_STATUS_WITHDRAWN (s.fld off F.PRT_PAIR_STATUS_WITHDRAWN &&& (255 - 2 ^ (i % 8)))
      (s.setFld (ringReg r) F.OPT_RING_FAILS 0).ringRelock r
    else s) s).engineStatus e

/-- The monitor reading is complete. -/
def execOptMeasureDone (e : Fin 32) (code : BitVec 16) (s : State) : Out :=
  if s.flag (R.OPT_MEASURE e) F.OPT_MEASURE_GO then
    .next ((s.setFld (R.OPT_MEASURE e) F.OPT_MEASURE_GO 0).wr (R.OPT_MEASURE_RESULT e)
      (F.OPT_MEASURE_RESULT_VALID.put 1 ||| F.OPT_MEASURE_RESULT_CODE.put code.toNat))
  else .next s

end Sys2Proof.Machine
end

