-- ==== Sys2Proof/Machine/Spillway.lean ====
section
/-! DEFINITION. Spillway circuits: requests, the pending bank, flips, slots, the time-error gate, withdrawal (spec/11 R322 to R338). -/

namespace Sys2Proof.Machine

/-! ## Events and counts -/

/-- A spillway event; a worker reports FALLBACK, RESUMED and WITHDRAWN to its manager (spec/11 R334, R336; spec/17 R447). -/
def State.splNote (s : State) (kind cause circuit : Nat) : State :=
  let s := s.splEvent kind cause 0 0 circuit
  if (2 ≤ kind ∧ kind ≤ 4) ∧ (s.role = 1 ∨ s.role = 3) then
    let k := if kind = 3 then 0x10 else 0x0F
    (s.plnEvent k 0x3FF 0 0 0 s.identity).plnReport (s.eventBody k 0x3FF 0 0 0 s.identity)
  else s

/-- CIRCUITS and PENDING of SPL_STATUS. -/
def State.splCounts (s : State) : State :=
  (s.setFld R.SPL_STATUS F.SPL_STATUS_CIRCUITS s.active.length).setFld R.SPL_STATUS F.SPL_STATUS_PENDING s.pendingBank.length

/-- The registers of a circuit in a bank. -/
def Circuit.word (c : Circuit) (st : Nat) : Word :=
  F.SPL_CIRC_ACT_STATE.put st ||| F.SPL_CIRC_ACT_DOMAIN.put c.domain ||| F.SPL_CIRC_ACT_PERSISTENT.put (b2n c.pers) |||
    F.SPL_CIRC_ACT_WAVELENGTH.put c.w ||| F.SPL_CIRC_ACT_IN.put c.i ||| F.SPL_CIRC_ACT_OUT.put c.o |||
    F.SPL_CIRC_ACT_IN_POWER.put 0x8000

/-- A circuit stands in the active bank in a state. -/
def State.putActive (s : State) (c : Circuit) (st : Nat) : State :=
  (s.wr (R.SPL_CIRC_ACT c.n) (c.word st)).wr (R.SPL_CIRC_ACT_MASK c.n) c.mask

/-- A circuit stands in the pending bank in a state. -/
def State.putPending (s : State) (c : Circuit) (st : Nat) : State :=
  (s.wr (R.SPL_CIRC_PEND c.n) (c.word st)).wr (R.SPL_CIRC_PEND_MASK c.n) c.mask

/-- A circuit number is free in the active bank. -/
def State.freeActive (s : State) (n : Nat) : State :=
  (s.wr (R.SPL_CIRC_ACT n) (resetWord (R.SPL_CIRC_ACT n))).wr (R.SPL_CIRC_ACT_MASK n) (resetWord (R.SPL_CIRC_ACT_MASK n))

/-- A circuit number is free in the pending bank. -/
def State.freePending (s : State) (n : Nat) : State :=
  (s.wr (R.SPL_CIRC_PEND n) (resetWord (R.SPL_CIRC_PEND n))).wr (R.SPL_CIRC_PEND_MASK n) (resetWord (R.SPL_CIRC_PEND_MASK n))

/-- Operations whose ring step runs on a circuit abort with RESOURCE_LOST (spec/09 R267). -/
def State.abortRings (s : State) (n : Nat) : State :=
  s.dxn.longOps.foldl (fun s o => match o.ctx, o.kind with
    | .b e sl, .cring _ => if (s.slot e sl).circuit = n then s.bsnAbort e sl 8 0xFFFF 0 else s
    | _, _ => s) s

/-- What a withdrawn circuit leaves behind: WITHDRAWN, its ring steps, paths and notices; no other withdrawal of it is due. -/
def State.circuitGone (s : State) (n cause : Nat) : State :=
  let s := (s.splNote 4 cause n).abortRings n
  { s with
    spl.persPaths := sdel s.spl.persPaths n
    spl.slotPaths := s.spl.slotPaths.filter fun x => x.1 / 64 != n
    spl.pendPaths := s.spl.pendPaths.filter fun x => x.1 / 64 != n
    spl.notices := s.spl.notices.filter fun x => x.circuit != n
    spl.withdraw := s.spl.withdraw.filter fun x => x.1 != n
    spl.dark := s.spl.dark.filter fun x => x != n }

/-! ## Lanes (spec/06 R171; spec/11 R324, Table 11.8) -/

/-- A port is lent to a persistent circuit: its agreement and credits are frozen. -/
def State.enterLent (s : State) (p : Nat) : State :=
  let st := s.portState p
  if st = psDisabled ∨ st = psLent then s
  else
    let s := (s.timPortDown p).setPort p { s.port p with ordinary := st }
    { s with swc.sending := sdel s.swc.sending p }.portTo p psLent

/-- A port is no longer lent and relocks; one that was UP keeps its queued frames for PRT_HOLD_TIME. -/
def State.leaveLent (s : State) (p : Nat) : State :=
  let x := s.port p
  let s := (s.setLanes p F.PRT_PAIR_STATUS_LOCK false).portTo p psTraining
  if x.ordinary = psUp then s.startHold p else s

/-- Ports whose lanes are lent to slotted circuits in the slot that ends. -/
def State.lentNow (s : State) : List Nat :=
  (List.range 64).flatMap fun i =>
    let f := 8 * (i / 2) + 6 + i % 2
    (List.range 8).filterMap fun l =>
      if bitOf (s.fld (R.PRT_PAIR_STATUS f) F.PRT_PAIR_STATUS_LENT) l ∧ s.portState (8 * f + l) ≠ psLent then some (8 * f + l) else none

/-- LENT bits and taps follow the circuits of the present slot, ports LENT the persistent ones; slotted lanes, and lanes lent until
now, wait for their window (spec/11 R312, R325, R326, Table 11.8). -/
def State.applySlot (s : State) : State :=
  let was := s.lentNow
  let now := s.carrying s.spl.slot
  let lanes (f : Nat) (l : List Nat) : Nat := ((l.filter fun p => p / 8 == f).foldl (fun m p => m ||| 2 ^ (p % 8)) 0)
  let ins := now.map Circuit.inPort
  let outs := now.map Circuit.outPort
  let s := (List.range 64).foldl (fun s i =>
    let f := 8 * (i / 2) + 6 + i % 2
    let s := s.setFld (R.PRT_PAIR_STATUS f) F.PRT_PAIR_STATUS_LENT (lanes f (ins ++ outs))
    s.wr (R.OPT_TAP (i / 2) (i % 2)) (F.OPT_TAP_INGRESS.put (lanes f ins) ||| F.OPT_TAP_EGRESS.put (lanes f outs))) s
  let pers := (s.active.filter fun c => c.state == 1 && c.pers).flatMap fun c => [c.inPort, c.outPort]
  let slotted := (s.active.filter fun c => c.state == 1 && !c.pers).flatMap fun c => [c.inPort, c.outPort]
  let s := s.ports.foldl (fun s x =>
    if s.portState x.1 = psLent ∧ pers.contains x.1 = false then s.leaveLent x.1 else s) s
  let s := pers.foldl State.enterLent s
  (slotted ++ was.filter fun p => !pers.contains p && !slotted.contains p).foldl
    (fun s p => s.setPort p { s.port p with shut := true, lentBefore := was.contains p }) s

/-! ## Notices (spec/11 R334 to R336) -/

/-- A notice for a circuit. -/
def Circuit.notice (c : Circuit) (kind at_ : Nat) : Notice :=
  ⟨kind, c.n, at_, c.w, if c.pers then BitVec.allOnes 64 else c.mask, [c.inPort, c.outPort]⟩

/-- Notices are added. -/
def State.notify (s : State) (l : List Notice) : State := { s with spl.notices := s.spl.notices ++ l }

/-- The frame of a notice (spec/11 Table 11.9). -/
def State.noticeFrame (s : State) (x : Notice) : Bytes :=
  let t := instantWord x.at_
  s.linkFrame 4 0 (beBytes 1 x.kind ++ beBytes 1 x.w ++ beBytes 2 x.circuit ++ beBytes 8 t.toNat ++ beBytes 8 x.mask.toNat)

/-- The window of a port opens at T + G + M of a slot in which it is not lent: it sends again, first what waited, and notices whose
instant has not come. -/
def execWindowOpen (p : Fin 2048) (s : State) : Out :=
  if s.lentIn p s.spl.slot ∨ s.now < s.slotStart s.spl.cycle s.spl.slot + s.guardNs + s.marginNs then .next s
  else
    let s := s.setPort p { s.port p with shut := false, lentBefore := false }
    let s := if (s.port p).lldpDue ∧ s.receives p then (s.sendLldp p).tryComplete p else s
    let s := s.pfcCheckAll p
    let l := s.spl.notices.filter fun x => x.ports.contains p.val && decide (s.now < x.at_)
    .next (if s.receives p ∧ s.canSend p 64 then l.foldl (fun s x => s.txFrame p (s.noticeFrame x)) s else s)

/-! ## Withdrawal (spec/11 R336, Table 11.10) -/

/-- A circuit is to be withdrawn from both banks at the next slot boundary, with a notice; a persistent one in force leaves its
ports no window to send it in. -/
def State.withdrawNext (s : State) (c : Circuit) (cause : Nat) : State :=
  if s.spl.withdraw.any fun x => x.1 == c.n then s
  else
    let s := { s with spl.withdraw := s.spl.withdraw ++ [(c.n, cause)] }
    if c.pers ∧ c.state = 1 then s else s.notify [c.notice 3 (s.boundaryFrom s.now)]

/-- The circuits of both banks, each number once. -/
def State.allCircuits (s : State) : List Circuit :=
  let a := s.active
  a ++ s.pendingBank.filter fun c => a.all fun d => d.n != c.n

/-- A fence withdraws the circuits that use a port. -/
def State.fenceCircuits (s : State) (p : Nat) : State :=
  (s.allCircuits.filter fun c => c.inPort == p || c.outPort == p).foldl (fun s c => s.withdrawNext c 3) s

/-- Withdrawals due at a slot boundary. -/
def State.withdrawDue (s : State) : State :=
  let s := s.spl.withdraw.foldl (fun s x => ((s.freeActive x.1).freePending x.1).circuitGone x.1 x.2) s
  { s with spl.withdraw := [] }.splCounts

/-! ## Requests (spec/11 R328 to R330) -/

/-- Whether two circuits share a slot. -/
def Circuit.overlaps (c d : Circuit) : Bool := c.pers || d.pers || (c.mask &&& d.mask) != 0

/-- The fixed paths of persistent circuits of a list. -/
def State.fixedPaths (s : State) (l : List Circuit) : List Path :=
  (l.filter Circuit.pers).map fun c => ⟨c.i, c.o, sget 0 s.spl.persPaths c.n - 1⟩

/-- Paths of the slotted circuits of a list in a slot, around given paths. -/
def State.slotRoute (s : State) (plane slot : Nat) (l : List Circuit) (fixed : List Path) : Option (List Path) :=
  s.routePaths plane (firstMiddle plane) ((l.filter fun c => !c.pers && c.present slot).map fun c => (c.i, c.o)) fixed

/-- A middle element by which a plane routes a new circuit beside others in each of the slots it needs: for a persistent
one its own path, else 0. -/
def State.routeNew (s : State) (c : Circuit) (others : List Circuit) (slots : Nat) : Option Nat :=
  let fixed := s.fixedPaths others
  if c.pers then
    (List.range 32).findSome? fun j =>
      let p : Path := ⟨c.i, c.o, (firstMiddle c.w + j) % 32⟩
      if s.pathSound c.w p ∧ (fixed.all fun q => !p.clash q) ∧
          (List.range slots).all fun sl => (s.slotRoute c.w sl others (fixed ++ [p])).isSome then some p.c else none
  else if (List.range slots).all fun sl => !c.present sl || (s.slotRoute c.w sl (others ++ [c]) fixed).isSome then some 0
  else none

/-- Whether a wavelength is withdrawn on a pair that a circuit uses. -/
def State.laneWithdrawn (s : State) (c : Circuit) : Bool :=
  bitOf (s.fld (R.PRT_PAIR_STATUS (c.inPort / 8)) F.PRT_PAIR_STATUS_WITHDRAWN) c.w ||
    bitOf (s.fld (R.PRT_PAIR_STATUS (c.outPort / 8)) F.PRT_PAIR_STATUS_WITHDRAWN) c.w

/-- Circuits of the coming schedule on a plane that use a side a circuit needs in a slot it needs. -/
def State.sideUsers (s : State) (c : Circuit) : List Circuit :=
  s.pendingBank.filter fun d => d.state == 1 && d.w == c.w && c.overlaps d && (d.i == c.i || d.o == c.o)

/-- Other circuits of the coming schedule on a plane. -/
def State.planeUsers (s : State) (w : Nat) : List Circuit := s.pendingBank.filter fun d => d.state == 1 && d.w == w

/-- Whether both ports of a circuit are UP or LENT with spillway eligibility agreed. -/
def State.circuitEligible (s : State) (c : Circuit) : Bool :=
  [c.inPort, c.outPort].all fun p =>
    (s.portUp p || s.portState p == psLent) && s.flag (prtState p) F.PRT_PORT_STATE_SPILL

/-- Whether a circuit may stay at a flip: a port whose lane has been withdrawn does not count against it, since its light never
meets the ring (spec/11 R320, R332; log entry 74). -/
def State.circuitStays (s : State) (c : Circuit) : Bool :=
  [c.inPort, c.outPort].all fun p =>
    ((s.portUp p || s.portState p == psLent) && s.flag (prtState p) F.PRT_PORT_STATE_SPILL) ||
      bitOf (s.fld (R.PRT_PAIR_STATUS (p / 8)) F.PRT_PAIR_STATUS_WITHDRAWN) (p % 8)

/-- The pending bank exists: the first change after a flip creates it as a copy of the active bank (spec/11 R328). -/
def State.ensurePend (s : State) : State :=
  if s.spl.pendMade then s
  else
    let t : State := s.active.foldl (fun t c => t.putPending c 1) s
    let t : State := { t with spl.pendMade := true }
    t.splCounts

/-- The optical group bays of a circuit. -/
def Circuit.bays (c : Circuit) : List Nat := [opticBay (c.i / 2), opticBay (c.o / 2)]

/-- The optical group bays that a request needs. -/
def CircuitReq.bays (r : CircuitReq) : List Nat :=
  [opticBay (F.SPL_REQ_A_IN.get r.a / 2), opticBay (F.SPL_REQ_A_OUT.get r.a / 2)]

/-- Whether both partners have burst-mode receive. -/
def State.circuitBurst (s : State) (c : Circuit) : Bool :=
  [c.inPort, c.outPort].all fun p => s.flag (prtState p) F.PRT_PORT_STATE_BURST

/-- What becomes of a request: it waits for bays, or is answered with a reason, wavelength and circuit. -/
inductive SplAnswer where
  | wait (s : State)
  | done (reason w n : Nat) (s : State)
  deriving DecidableEq, Repr

/-- A grant (spec/11 R329, R330). Where any wavelength will do, the checks of ports leave those that pass them; a wavelength whose
lane is withdrawn is left to R330, which refuses it with NO_WAVELENGTH (spec/11 R320; log entry 39). -/
def State.splGrant (s : State) (r : CircuitReq) : SplAnswer :=
  let f (x : Fld) : Nat := x.get r.a
  let i := f F.SPL_REQ_A_IN
  let o := f F.SPL_REQ_A_OUT
  let wl := f F.SPL_REQ_A_WAVELENGTH
  let pers := f F.SPL_REQ_A_PERSISTENT == 1
  let slots := s.fld R.SPL_SHAPE_PEND F.SPL_SHAPE_PEND_SLOTS
  let m := r.b.toNat
  let bays := r.bays
  let make (w n : Nat) : Circuit :=
    ⟨n, 1, f F.SPL_REQ_A_DOMAIN, pers, w, i, o, if pers then BitVec.allOnes 64 else r.b⟩
  if i = o ∨ ¬(wl < 8 ∨ wl = 15) ∨ ¬(pers ∨ (m ≠ 0 ∧ m < 2 ^ slots ∧ m ≠ 2 ^ slots - 1)) ∨
      s.pairMode (spillPort i 0 / 8) ≠ 3 ∨ s.pairMode (spillPort o 0 / 8) ≠ 3 then .done 0x10 0 0 s
  else if s.fld R.SPL_STATUS F.SPL_STATUS_FLIP_STATE = 1 then .done 0x18 0 0 s
  else if bays.any s.bayLost then .done 0x14 0 0 s
  else if s.bayWait bays then .wait (s.wakeBays bays)
  else
    let idOk (id : Word) (p : Nat) : Bool := id == 0 || s.rd (R.PRT_PARTNER_ID (p / 8) (p % 8)) == id
    let ws := (if wl = 15 then List.range 8 else [wl]).filter fun w => idOk r.inId (spillPort i w) && idOk r.outId (spillPort o w)
    let es := ws.filter fun w =>
      s.laneWithdrawn (make w 0) || (s.circuitEligible (make w 0) && (pers || s.circuitBurst (make w 0)))
    if ws.isEmpty then .done 0x16 0 0 s
    else if es.isEmpty then .done 0x12 0 0 s
    else match (List.range 4096).find? fun n =>
        s.fld (R.SPL_CIRC_ACT n) F.SPL_CIRC_ACT_STATE == 0 && s.fld (R.SPL_CIRC_PEND n) F.SPL_CIRC_PEND_STATE == 0 with
      | none => .done 0x13 0 0 s
      | some n =>
        let try_ (w : Nat) : Option (Nat × Nat) :=
          let c := make w n
          if s.laneWithdrawn c ∨ (s.sideUsers c).isEmpty = false then none
          else (s.routeNew c (s.planeUsers w) slots).map fun x => (w, x)
        match es.findSome? try_ with
        | some (w, x) =>
          let s := s.putPending (make w n) 1
          let s := if pers then { s with spl.persPaths := sset 0 s.spl.persPaths n (x + 1) } else s
          .done 0 w n s.splCounts
        | none =>
          let foreign (w : Nat) : Bool :=
            let c := make w n
            let l := s.sideUsers c
            !s.laneWithdrawn c && !l.isEmpty && (l.all fun d => d.domain != c.domain) &&
              (s.routeNew c ((s.planeUsers w).filter fun d => !l.contains d) slots).isSome
          .done (if es.any foreign then 0x17 else 0x1D) 0 0 s

/-- A request of any kind, over the pending bank as it stands. -/
def State.splAsk (s : State) (r : CircuitReq) : SplAnswer :=
  let dom := F.SPL_REQ_A_DOMAIN.get r.a
  let n := F.SPL_REQ_A_CIRCUIT.get r.a
  let busy := s.fld R.SPL_STATUS F.SPL_STATUS_FLIP_STATE = 1
  match F.SPL_REQ_A_OP.get r.a with
  | 1 => s.splGrant r
  | 2 =>
    match s.pendingBank.find? fun c => c.n == n && c.state == 1 with
    | none => .done 0x10 0 0 s
    | some c =>
      if busy then .done 0x18 0 0 s
      else if dom ≠ 0 ∧ dom ≠ c.domain then .done 0x17 0 0 s
      else .done 0 0 0 (s.putPending c 2)
  | 3 =>
    if busy then .done 0x18 0 0 s
    else
      let l := s.pendingBank.filter fun c => c.state == 1 && c.domain == dom
      .done 0 0 l.length (l.foldl (fun s c => s.putPending c 2) s)
  | _ => .done 0x10 0 0 s

/-- A request over the pending bank, which it creates where it changes it; a refusal changes nothing. -/
def State.splRequest (s : State) (r : CircuitReq) : SplAnswer := match s.ensurePend.splAsk r with
  | .wait _ => .wait (s.wakeBays r.bays)
  | .done reason w n t => .done reason w n (if reason = 0 then t else s)

/-! ## Flips (spec/11 R331, R332) -/

/-- Paths of the slotted circuits of the pending bank in every slot and plane: the key is 64 × number + slot. -/
def State.pendRoutes (s : State) : Option (Sparse Nat) :=
  let slots := s.fld R.SPL_SHAPE_PEND F.SPL_SHAPE_PEND_SLOTS
  (List.range (8 * slots)).foldl (fun a k => match a with
    | none => none
    | some m =>
      let w := k / slots
      let l := s.planeUsers w
      let fixed := s.fixedPaths l
      if fixed.all (s.pathSound w) then
        match s.slotRoute w (k % slots) l fixed with
        | none => none
        | some ps =>
          let cs := l.filter fun c => !c.pers && c.present (k % slots)
          some ((cs.zip (ps.drop fixed.length)).foldl (fun m x => sset 0 m (64 * x.1.n + k % slots) (x.2.c + 1)) m)
      else none) (some [])

/-- The rules of a flip check but the one on its instant (spec/11 Table 11.7). -/
def State.splFlipRules (s : State) : Nat :=
  let slots := s.fld R.SPL_SHAPE_PEND F.SPL_SHAPE_PEND_SLOTS
  let g := s.fld R.SPL_SHAPE_PEND F.SPL_SHAPE_PEND_GUARD_NS
  let m := s.fld R.SPL_SHAPE_PEND F.SPL_SHAPE_PEND_MARGIN_NS
  let ks := (List.range slots).map (s.slotK R.SPL_SLOT_K_PEND)
  if s.fld R.SPL_STATUS F.SPL_STATUS_FLIP_STATE = 1 then 0x18
  else if s.hasLocked = false then 0x1A
  else if slots = 0 ∨ 64 < slots ∨ (ks.any fun k => k < 2 || 12 < k) ∨ g < 8 ∨
      ks.any fun k => 2 ^ k * 256 < g + 2 * m + 512 then 0x10
  else if s.pendingBank.any fun c => c.state == 1 && !c.pers && (decide (2 ^ slots ≤ c.mask.toNat) || c.mask.toNat == 2 ^ slots - 1)
    then 0x10
  else if s.pendRoutes.isNone then 0x1D else 0

/-- The reason of a flip check (spec/11 Table 11.7). -/
def State.splFlipReason (s : State) : Nat :=
  let t := s.rd R.SPL_FLIP_TIME
  let ns := instantNs s t
  if 1000000000 ≤ t.toNat % 2 ^ 32 ∨ ns < s.now + 100000 ∨ s.now + 10000000000 < ns then 0x10 else s.splFlipRules

/-- A flip whose check has passed is pending, with the notices that name its instant. -/
def State.splFlipPend (s : State) : State :=
  let at_ := instantNs s (s.rd R.SPL_FLIP_TIME)
  let s := s.ensurePend
  let l := s.pendingBank
  let s := s.setFld R.SPL_STATUS F.SPL_STATUS_FLIP_STATE 1
  let s := { s with spl.flipAt := at_, spl.pendPaths := s.pendRoutes.getD [] }
  let fallen (c : Circuit) : Bool := s.fld (R.SPL_CIRC_ACT c.n) F.SPL_CIRC_ACT_STATE == 2
  let s := s.notify ((l.filter fun c => c.state == 2 && (!c.pers || fallen c)).map fun c => c.notice 3 at_)
  s.notify ((l.filter fun c => c.state == 1 && !(if c.pers then s.spl.persUp else s.spl.slotUp)).map fun c => c.notice 1 at_)

/-- Circuits whose state is not what the last decisions ask for. -/
def State.splAffected (s : State) : List Circuit :=
  s.active.filter fun c => (c.state == 1) != (if c.pers then s.spl.persUp else s.spl.slotUp)

/-- F of a decision: the first slot boundary at least 10 us after the first notice has left on every affected port. -/
def State.decisionAt (s : State) (l : List Circuit) (t : Nat) : Nat :=
  s.boundaryFrom (((l.flatMap fun c => [c.inPort, c.outPort]).filterMap fun p => s.nextWindow p t).foldl max t + 10000)

/-- The instant S: the pending bank becomes active; marked circuits and those that may not stay are withdrawn; FLIPPED; then other
withdrawals; lanes change. A closure less than 10 us before S takes effect at an F of the new schedule, which notices name. -/
def State.flipDue (s : State) : State :=
  if s.fld R.SPL_STATUS F.SPL_STATUS_FLIP_STATE ≠ 1 ∨ s.now < s.spl.flipAt then s
  else
    let at_ := s.spl.flipAt
    let l := s.pendingBank
    let marked := l.filter fun c => c.state == 2
    let bad := l.filter fun c => c.state == 1 && !s.circuitStays c
    let good := l.filter fun c => c.state == 1 && s.circuitStays c
    let falls (c : Circuit) : Bool := s.fallsAt c.pers at_
    let s := s.active.foldl (fun s c => s.freeActive c.n) s
    let s := l.foldl (fun s c => s.freePending c.n) s
    let s := marked.foldl (fun s c => s.circuitGone c.n 1) s
    let s := bad.foldl (fun s c => s.circuitGone c.n 2) s
    let s := good.foldl (fun s c => s.putActive c (if falls c then 2 else 1)) s
    let s := s.wakeBays (good.flatMap Circuit.bays)
    let s := (List.range 4).foldl (fun s w => s.wr (R.SPL_SLOT_K_ACT w) (s.committed (R.SPL_SLOT_K_PEND w))) s
    let s := s.wr R.SPL_SHAPE_ACT (F.SPL_SHAPE_ACT_SLOTS.put (s.cfld R.SPL_SHAPE_PEND F.SPL_SHAPE_PEND_SLOTS) |||
      F.SPL_SHAPE_ACT_MARGIN_NS.put (s.cfld R.SPL_SHAPE_PEND F.SPL_SHAPE_PEND_MARGIN_NS) |||
      F.SPL_SHAPE_ACT_GUARD_NS.put (s.cfld R.SPL_SHAPE_PEND F.SPL_SHAPE_PEND_GUARD_NS))
    let s := s.setFld R.SPL_SHAPE_ACT F.SPL_SHAPE_ACT_CYCLE_NS s.cycleNs
    let s := s.wr R.SPL_CYCLE_START (instantWord at_)
    let s := (s.setFld R.SPL_STATUS F.SPL_STATUS_FLIP_STATE 0).incFld R.SPL_STATUS F.SPL_STATUS_ACTIVE_BANK
    let s := { s with spl.slotPaths := s.spl.pendPaths, spl.pendPaths := [], spl.startAt := at_, spl.cycle := 0, spl.slot := 0,
                      spl.pendMade := false, spl.notices := s.spl.notices.filter fun x => decide (at_ < x.at_) }
    let late := s.splAffected
    let change := s.decisionAt late at_
    let s := { s with spl.changeAt := if late.isEmpty then none else some change }
    let s := s.notify (late.map fun c => c.notice (if c.state = 1 then 1 else 2) change)
    (s.splNote 1 0 0).splCounts.withdrawDue.applySlot.planeFlipped 2

def execSpillwayFlipInstant (s : State) : Out := .next s.flipDue

/-! ## Slots and the gate (spec/11 R325, R333, R334) -/

/-- Whether a slot after the present one has begun. -/
def State.slotDue (s : State) : Bool :=
  let c := s.slotAt s.now
  decide (s.spl.startAt ≤ s.now) && (decide (s.spl.cycle < c.1) || (s.spl.cycle == c.1 && decide (s.spl.slot < c.2)))

/-- A slot starts: withdrawals due, the circuits that it carries, lanes and taps. -/
def State.slotBegins (s : State) : State :=
  if s.slotDue then
    let (c, i) := s.slotAt s.now
    let s := { s with spl.cycle := c, spl.slot := i }.withdrawDue
    let l := s.active.filter fun c => c.present i
    (l.foldl (fun s c => s.count (ctrSpl c.n (if c.state = 1 then 0 else 1))) s).applySlot
  else s

/-- What is due by the schedule, in the order of spec/11 R338: the flip, then withdrawals and the slot. -/
def State.splDue (s : State) : State := s.flipDue.slotBegins

def execSlotBoundary (s : State) : Out := .next s.splDue

/-- A fallback (2) or resumption (3) is decided: recorded, and notices are set that name F, and for a flip to come S. -/
def State.splDecide (s : State) (kind : Nat) : State :=
  let s := s.splNote kind 0 0
  let l := s.splAffected
  let at_ := s.decisionAt l s.now
  let s : State := { s with spl.changeAt := some at_, spl.notices := s.spl.notices.filter fun x => x.kind == 3 }
  let s : State := s.notify (l.map fun c => c.notice (kind - 1) at_)
  if kind = 2 ∧ s.fld R.SPL_STATUS F.SPL_STATUS_FLIP_STATE = 1 then
    s.notify ((s.pendingBank.filter fun c => c.state == 1 && s.fallsAt c.pers s.spl.flipAt).map fun c => c.notice 1 s.spl.flipAt)
  else s

/-- The gate threshold. -/
def State.gateNs (s : State) : Nat := max 1 (min 40 (s.fld R.SPL_CTRL F.SPL_CTRL_GATE_NS))

/-- Whether the spillway is enabled. -/
def State.splEnabled (s : State) : Bool := s.flag R.SPL_CTRL F.SPL_CTRL_ENABLE

/-- The gate is evaluated: a closure ends a wait and falls slotted circuits back; a reopening starts the wait. -/
def State.gateEval (s : State) : State :=
  let e := s.timeError
  let was := s.flag R.SPL_STATUS F.SPL_STATUS_GATE_OPEN
  let open_ := decide (e ≤ s.gateNs)
  let s := s.setFld R.SPL_STATUS F.SPL_STATUS_ERROR_NS (min 0xFFFF e)
  let s := s.setFld R.SPL_STATUS F.SPL_STATUS_GATE_OPEN (b2n open_)
  if open_ && !was then { s with spl.recovering := true }
  else if !open_ && was then
    let s := { s with spl.recovering := false }
    if s.spl.slotUp then { s with spl.slotUp := false, spl.closedAt := s.now }.splDecide 2 else s
  else s

def execGateEvaluate (s : State) : Out := .next s.splDue.gateEval

/-- The gate has stayed open for RECOVER_MS: slotted circuits resume. -/
def execGateRecoverExpiry (s : State) : Out :=
  if s.spl.recovering then
    let s := { s with spl.recovering := false }
    .next (if s.splEnabled ∧ s.spl.slotUp = false then { s with spl.slotUp := true }.splDecide 3 else s)
  else .next s

/-- F: fallen-back circuits read FALLBACK and resumed ones are active. -/
def State.fallbackDue (s : State) : State :=
  match s.spl.changeAt with
  | none => s
  | some t =>
    if s.now < t then s
    else
      let s := s.splAffected.foldl (fun s c => s.setFld (R.SPL_CIRC_ACT c.n) F.SPL_CIRC_ACT_STATE (if c.state = 1 then 2 else 1)) s
      let s := { s with spl.changeAt := none, spl.notices := s.spl.notices.filter fun x => decide (t < x.at_) }
      s.applySlot

/-- F, after what is due by the schedule. -/
def execFallbackBoundary (s : State) : Out := .next s.splDue.fallbackDue

/-- ENABLE is set: a reopening without the wait. -/
def State.splEnable (s : State) : State :=
  let s := s.setFld R.SPL_CTRL F.SPL_CTRL_ENABLE 1
  let up := s.flag R.SPL_STATUS F.SPL_STATUS_GATE_OPEN
  { s with spl.persUp := true, spl.slotUp := up, spl.recovering := if up then false else s.spl.recovering }.splDecide 3

/-- ENABLE is cleared: a closure that also covers persistent circuits. -/
def State.splDisable (s : State) : State :=
  let at_ := if s.spl.slotUp then s.now else s.spl.closedAt
  { s.setFld R.SPL_CTRL F.SPL_CTRL_ENABLE 0 with
    spl.persUp := false, spl.slotUp := false, spl.closedAt := at_, spl.persClosedAt := s.now }.splDecide 2

/-! ## Faults (spec/11 R337) -/

/-- Whether a circuit has a path through an element, in the active schedule or one pending. -/
def State.circuitPasses (s : State) (c : Circuit) (stage index : Nat) : Bool :=
  let on (x : Nat) : Bool := x != 0 && (Path.passes ⟨c.i, c.o, x - 1⟩ stage index)
  if c.pers then on (sget 0 s.spl.persPaths c.n)
  else (s.spl.slotPaths ++ s.spl.pendPaths).any fun x => x.1 / 64 == c.n && on x.2

/-- An element that fails its check is faulted and its circuits are withdrawn. -/
def execElementCheck (plane : Fin 8) (stage : Fin 11) (index : Fin 32) (ok : Bool) (s : State) : Out :=
  if ok ∨ s.spl.faulted.contains (plane.val, stage.val, index.val) then .next s
  else
    let s := { s with spl.faulted := s.spl.faulted ++ [(plane.val, stage.val, index.val)] }
    let s := s.splEvent 9 0 plane (16 * stage) index
    .next ((s.allCircuits.filter fun c => c.w == plane.val && s.circuitPasses c stage index).foldl
      (fun s c => s.withdrawNext c 4) s)

/-- The input power of a circuit over 1 ms of its slots, in 0.01 dBm: CIRCUIT_DARK once below -16 dBm, and again only after light has
returned. -/
def execCircuitDark (n : Fin 4096) (power : BitVec 16) (s : State) : Out :=
  if s.fld (R.SPL_CIRC_ACT n) F.SPL_CIRC_ACT_STATE = 0 then .next s
  else
    let s := s.setFld (R.SPL_CIRC_ACT n) F.SPL_CIRC_ACT_IN_POWER power.toNat
    if power.toInt < -1600 then
      if s.spl.dark.contains n.val then .next s
      else .next ({ s with spl.dark := s.spl.dark ++ [n.val] }.splEvent 5 0 0 0 n)
    else .next { s with spl.dark := s.spl.dark.filter fun x => x != n.val }

end Sys2Proof.Machine
end

