-- ==== Sys2Proof/Machine/Staged.lean ====
section
/-! DEFINITION. The staged sets: which register belongs to which set, capture, commit, discard, and how the outcome of a commit
is reported (spec/16 R424 to R429). -/

namespace Sys2Proof.Machine

/-! ## Sets (spec/16 R424, R425) -/

/-- The set that the S fields of a register's row belong to (spec/16 Table 16.4). -/
def setOfBase (off : Nat) : Nat :=
  if off = R.GLB_HOST_IF then 0
  else if off / 2 ^ 22 = 1 then 1
  else if off / 2 ^ 18 = R.SWC_CTRL / 2 ^ 18 then 2
  else if R.BSN_CTRL 0 ≤ off ∧ off < R.BSN_CTRL 0 + 8 * 0x40000 then 0x10 + (off - R.BSN_CTRL 0) / 0x40000
  else if off / 2 ^ 16 = R.PLN_CFG / 2 ^ 16 then 0x20 else 0x30

/-- The bits of class S of a register. -/
def stagedBits (off : Nat) : Word := match findReg off with
  | none => 0
  | some r => r.bits fun f => f.cls == .s && f.acc == .rw

/-- Whether a set number is in the table, and is not committed by SPL_FLIP alone. -/
def setCommits (n : Nat) : Bool := n ≤ 2 || (decide (0x10 ≤ n) && decide (n ≤ 0x17)) || n == 0x20

/-- Whether a register holds staged fields of a set. -/
def inSet (n off : Nat) : Bool := setOfBase off == n && stagedBits off != 0

/-- The staged words of a set as they stand. -/
def State.capture (s : State) (n : Nat) : Sparse Word := s.regs.filter fun x => inSet n x.1

/-- The committed words of a set. -/
def State.inForce (s : State) (n : Nat) : Sparse Word := s.cfg.committed.filter fun x => inSet n x.1

/-- A word of captured or committed ones. -/
def wordOf (m : Sparse Word) (off : Nat) : Word := sget (resetWord off) m off

/-- The registers of two captures that differ in their staged fields. -/
def changedIn (a b : Sparse Word) : List Nat :=
  ((a.map Prod.fst) ++ (b.map Prod.fst)).filter fun off =>
    (wordOf a off &&& stagedBits off) != (wordOf b off &&& stagedBits off)

/-- Whether a set is dirty (spec/16 R425). -/
def State.dirty (s : State) (n : Nat) : Bool := (changedIn (s.capture n) (s.inForce n)).isEmpty == false

/-- Captured words of a set come into force. -/
def State.applySet (s : State) (n : Nat) (cap : Sparse Word) : State :=
  let rest := s.cfg.committed.filter fun x => !inSet n x.1
  { s with cfg.committed := cap.foldl (fun m x => sset (resetWord x.1) m x.1 x.2) rest }

/-- Committed words of a set are copied into its staged fields. -/
def State.discardSet (s : State) (n : Nat) : State :=
  (changedIn (s.capture n) (s.inForce n)).foldl (fun s off =>
    s.wr off ((s.rd off &&& ~~~stagedBits off) ||| (s.committed off &&& stagedBits off))) s

/-! ## Reporting (spec/16 R429) -/

/-- CFG_SET_STATUS of a set after a commit: COMMITTED and COMMITS when it passed, LAST_REASON. -/
def State.setStatus (s : State) (n reason : Nat) : State :=
  let off := R.CFG_SET_STATUS n
  let s := (s.setFld off F.CFG_SET_STATUS_LAST_REASON reason).setFld off F.CFG_SET_STATUS_BUSY 0
  if reason = 0 then (s.setFld off F.CFG_SET_STATUS_COMMITTED 1).incFld off F.CFG_SET_STATUS_COMMITS else s

/-- The kind of a log entry of a commit: COMMIT_DONE or COMMIT_REFUSED. -/
def commitKind (reason : Nat) : Nat := if reason = 0 then 2 else 1

/-- CFG_COMMIT_STATUS and the log take the result of a COMMIT or CFG_COMMIT. -/
def State.commitResult (s : State) (set reason offset source : Nat) (domain : BitVec 12) : State :=
  (s.wr R.CFG_COMMIT_STATUS (F.CFG_COMMIT_STATUS_REASON.put reason ||| F.CFG_COMMIT_STATUS_SET.put set |||
    F.CFG_COMMIT_STATUS_OFFSET.put offset)).cfgLog (commitKind reason) reason set source domain offset

/-! ## SPL_FLIP (spec/11 R331; spec/16 R429) -/

/-- The registers that an SPL_FLIP captures: the pending shape and the instant. -/
def flipRegs : List Nat :=
  [R.SPL_SHAPE_PEND, R.SPL_SLOT_K_PEND 0, R.SPL_SLOT_K_PEND 1, R.SPL_SLOT_K_PEND 2, R.SPL_SLOT_K_PEND 3, R.SPL_FLIP_TIME]

/-- The values of the captured registers at present. -/
def State.flipWords (s : State) : Sparse Word := flipRegs.map fun off => (off, s.rd off)

/-- The captured registers take given values. -/
def State.withFlip (s : State) (cap : Sparse Word) : State := flipRegs.foldl (fun s off => s.wr off (wordOf cap off)) s

/-- An SPL_FLIP over captured words: its reason code, and the flip pending when it passed; logged as a commit of set 0x30. A
flip from another source is refused while a plane flip is prepared here (spec/17 R446). -/
def State.splFlipCheck (s : State) (cap : Sparse Word) (own : Bool) (source : Nat) (domain : BitVec 12) : Nat × State :=
  let now := s.flipWords
  let t := (s.withFlip cap).ensurePend
  let r := if s.planeHolds ∧ own = false then 0x18 else t.splFlipReason
  let s := if r = 0 then (t.applySet 0x30 (cap.filter fun x => x.1 != R.SPL_FLIP_TIME)).splFlipPend.withFlip now else s
  (r, (s.setStatus 0x30 r).cfgLog (commitKind r) r 0x30 source domain R.SPL_FLIP)

end Sys2Proof.Machine
end

