-- ==== Sys2Proof/Machine/Queue.lean ====
section
/-! DEFINITION. The queue of plumb checks: one check at a time, in the order of their triggers, each over what those before it left
(spec/16 R428); and the operations that ask for one and end with it: SPL_FLIP, a plane flip's own request, assignments of pegs and tenons, circuit requests. -/

namespace Sys2Proof.Machine

/-! ## Checks -/

/-- The bays that a port needs. -/
def portBays (p : Nat) : List Nat := [opticBay (p / 64), sliceBay (p / 512)]

/-- The bays that an enable check needs. -/
def CheckKind.bays : CheckKind → List Nat
  | .portEnable p => portBays p
  | .bsnEnable e => [basinBay e]
  | _ => []

/-- Whether an enable check of a kind waits or runs. -/
def State.checking (s : State) (k : CheckKind) : Bool := s.cfg.checks.any fun x => x.kind == k

/-- BUSY of the commit registers follows the queue. -/
def State.commitBusy (s : State) : State :=
  let sets := s.cfg.checks.filterMap fun k => match k.kind with
    | .commit n => some n
    | _ => none
  let s := s.setFld R.CFG_COMMIT_STATUS F.CFG_COMMIT_STATUS_BUSY (b2n !sets.isEmpty)
  sets.foldl (fun s n => s.setFld (R.CFG_SET_STATUS n) F.CFG_SET_STATUS_BUSY 1) s

/-- SPL_RESP, and the answer to who asked. -/
def State.splRespond (s : State) (r : CircuitReq) (reason w n : Nat) : State :=
  let tag := F.SPL_REQ_A_TAG.get r.a
  let v := F.SPL_RESP_REASON.put reason ||| F.SPL_RESP_WAVELENGTH.put w ||| F.SPL_RESP_CIRCUIT.put n ||| F.SPL_RESP_TAG.put tag
  let s := s.wr R.SPL_RESP v
  if r.plane then
    let b := beBytes 8 v.toNat
    { s with pln.answered := s.pln.answered ++ [(BitVec.ofNat 16 tag, b)] }.plnSend (s.pathTo 1023) s.actingManager 9 b
  else s.setFld R.SPL_REQ_A F.SPL_REQ_A_GO 0

/-! ## Plane flips (spec/17 R446) -/

/-- The request of this module's own flip at T, by EFLIP or SPL_FLIP, as a management request (spec/17 R446, step 5). -/
def State.ownFlip (s : State) (kind : Nat) (t : Word) : Nat × State :=
  if kind = 1 then
    let r := s.eflip t
    (r.1, r.2.cfgLog (commitKind r.1) r.1 0xFF 2 0 0)
  else
    let s := s.wr R.SPL_FLIP_TIME t
    s.splFlipCheck s.flipWords true 2 0

/-- This module's own request at T has been checked: a refused flip is no longer prepared; DONE answers the manager, or is recorded where
this module is the manager. -/
def State.planeRequest (s : State) (kind : Nat) (id : BitVec 16) (t : Word) (back : Nat) : State :=
  let (r, s) := s.ownFlip kind t
  let s : State := { s with pln.lastDone := some (id, r) }
  let s := if r = 0 then s else s.planeFree
  if back < 2 then s.plnSend back s.actingManager 7 (beBytes 2 id.toNat ++ beBytes 1 r)
  else match s.pln.flip with
    | some f => if f.id = id then { s with pln.flip := some (f.doneBy 1023 r) } else s
    | none => s

/-! ## The head of the queue -/

/-- The check at the head starts; whether it has ended too. An enable check wakes the bays that it needs (spec/14 R384) and a commit
captures its set (spec/16 R426): both end later. An SPL_FLIP takes the pending shape as it stands and the instant that GO read (spec/11
Table 11.14). A circuit request may wait for a bay. -/
def State.runHead (s : State) (k : Check) : Bool × State := match k.kind with
  | .commit n => (false, { s with cfg.checks := { k with captured := s.capture n } :: s.cfg.checks.drop 1 })
  | .splFlip =>
    let cap := s.flipWords.map fun x => if x.1 = R.SPL_FLIP_TIME then (x.1, wordOf k.captured x.1) else x
    let (r, s) := s.splFlipCheck cap false k.source k.domain
    (true, s.wr R.SPL_FLIP (F.SPL_FLIP_REASON.put r))
  | .planeFlip kind id => (true, s.planeRequest kind id (wordOf k.captured 0) k.dest)
  | .pegAssign => (true, s.assignPegs (wordOf k.captured R.CMD_PEG_ASSIGN))
  | .tenonAssign q => (true, s.assignTenons q (wordOf k.captured (R.TEN_ASSIGN q)))
  | .circuit => match s.spl.requests with
    | [] => (true, s)
    | r :: t => match s.splRequest r with
      | .wait s => (false, s)
      | .done reason w n s => (true, { s with spl.requests := t }.splRespond r reason w n)
  | _ => (false, s.wakeBays k.kind.bays)

/-- Checks run from the head on, until one has not ended; fuel bounds their number. -/
def State.runChecks (s : State) : Nat → State
  | 0 => s
  | n + 1 => match s.cfg.checks with
    | [] => s
    | k :: _ => match s.runHead k with
      | (false, s) => s
      | (true, s) => State.runChecks { s with cfg.checks := s.cfg.checks.drop 1 } n

/-- A check waits its turn; the first one starts. -/
def State.pushCheck (s : State) (k : Check) : State :=
  let first := s.cfg.checks.isEmpty
  let s : State := { s with cfg.checks := s.cfg.checks ++ [k] }
  (if first then s.runChecks 1 else s).commitBusy

/-- The head of the queue is done; the next one starts. -/
def State.popCheck (s : State) : State :=
  let s : State := { s with cfg.checks := s.cfg.checks.drop 1 }
  (s.runChecks s.cfg.checks.length).commitBusy

/-- Checks of some kinds are abandoned: nothing is logged. -/
def State.dropChecks (s : State) (p : CheckKind → Bool) : State := match s.cfg.checks with
  | [] => s
  | h :: t =>
    let s : State := { s with cfg.checks := h :: t.filter fun x => !p x.kind }
    if p h.kind then s.popCheck else s

/-! ## Assignments (spec/04 Table 4.23, spec/10 Table 10.9) -/

/-- CMD_PEG_ASSIGN with GO set, which reads 1 until the assignment is done; while it reads 1, the write is ignored. -/
def execPegAssign (first count : BitVec 16) (domain : BitVec 12) (s : State) : Out :=
  if s.flag R.CMD_PEG_ASSIGN F.CMD_PEG_ASSIGN_GO then .next s
  else
    let v := F.CMD_PEG_ASSIGN_GO.put 1 ||| F.CMD_PEG_ASSIGN_DOMAIN.put domain.toNat ||| F.CMD_PEG_ASSIGN_COUNT.put count.toNat |||
      F.CMD_PEG_ASSIGN_FIRST.put first.toNat
    .next ((s.wr R.CMD_PEG_ASSIGN v).pushCheck
      { kind := .pegAssign, captured := [(R.CMD_PEG_ASSIGN, v)], offset := R.CMD_PEG_ASSIGN })

/-- TEN_ASSIGN with GO set, likewise. -/
def execTenonAssign (q : Fin 4) (rect : TenonRect) (domain : BitVec 12) (s : State) : Out :=
  let off := R.TEN_ASSIGN q
  if s.flag off F.TEN_ASSIGN_GO then .next s
  else
    let v := F.TEN_ASSIGN_GO.put 1 ||| F.TEN_ASSIGN_DOMAIN.put domain.toNat ||| F.TEN_ASSIGN_FIRST_ROW.put rect.firstRow.toNat |||
      F.TEN_ASSIGN_LAST_ROW.put rect.lastRow.toNat ||| F.TEN_ASSIGN_FIRST_COL.put rect.firstCol.toNat |||
      F.TEN_ASSIGN_LAST_COL.put rect.lastCol.toNat
    .next ((s.wr off v).pushCheck { kind := .tenonAssign q, captured := [(off, v)], offset := off })

/-! ## Circuit requests (spec/11 R328) -/

/-- A request arrives: it is checked in its turn. -/
def State.splSubmit (s : State) (r : CircuitReq) : State :=
  State.pushCheck { s with spl.requests := s.spl.requests ++ [r] } { kind := .circuit, offset := R.SPL_REQ_A }

/-- Software sets GO with the values of this write; one that sets it while it reads 1 is ignored. -/
def State.splGo (s : State) (v : Word) : State :=
  if s.flag R.SPL_REQ_A F.SPL_REQ_A_GO then s
  else (s.wr R.SPL_REQ_A (F.SPL_REQ_A_GO.set v 1)).splSubmit
    ⟨v, s.rd R.SPL_REQ_B, s.rd R.SPL_REQ_IN_ID, s.rd R.SPL_REQ_OUT_ID, false⟩

/-- A request that waited for a bay is looked at again. -/
def State.splWoken (s : State) : State := match s.cfg.checks with
  | [] => s
  | k :: _ => if k.kind = .circuit then (s.runChecks s.cfg.checks.length).commitBusy else s

/-- The request that waits for a bay which has not become active within twice its exit maximum is refused with BAY_NOT_READY
(spec/14 R384). -/
def State.splLate (s : State) (n : Nat) : State := match s.cfg.checks, s.spl.requests with
  | k :: _, r :: t =>
    if k.kind = .circuit ∧ r.bays.contains n then match s.splRequest r with
      | .wait _ => ({ s with spl.requests := t }.splRespond r 0x14 0 0).popCheck
      | .done .. => s
    else s
  | _, _ => s

end Sys2Proof.Machine
end

