-- ==== Sys2Proof/Machine/Ledger.lean ====
section
/-! DEFINITION. The Ledger (spec/18 R455 to R466): commits, the life clock, wear, thermal cycles, hourly records, the health
score. -/

namespace Sys2Proof.Machine

/-! ## Commits -/

/-- LDG_CTRL.COMMIT requests a commit; the bit reads 1 until the commit that serves it ends (spec/18 R456, R474). -/
def execLedgerCommitRequest (s : State) : Out :=
  .next ((s.setFld R.LDG_CTRL F.LDG_CTRL_COMMIT 1).commitLedger)

/-- The number of journal entries that the ring holds (spec/18 Table 18.1). -/
def journalSize : Nat := 2064384

/-- The archive area holds entries from 4,096 bytes after its base (spec/18 R458). -/
def State.archiveEntry (s : State) (k : Nat) : State :=
  let base := s.fld R.MEM_ARCHIVE_BASE F.MEM_ARCHIVE_BASE_VALUE
  let c := (s.fld R.MEM_ARCHIVE_SIZE F.MEM_ARCHIVE_SIZE_VALUE - 4096) / 32
  s.devWrite (base + 4096 + 32 * (k % max 1 c)) (leBytes 32 (sget 0 s.ldg.journal (k % journalSize)))

/-- After a commit the Wellhead archives the entries not yet archived (spec/18 R458, spec/13 R372). -/
def State.archiveJournal (s : State) : State :=
  if s.flag R.MEM_CTRL F.MEM_CTRL_AREAS_ENABLE ∧ 4096 < s.fld R.MEM_ARCHIVE_SIZE F.MEM_ARCHIVE_SIZE_VALUE ∧
      s.cfg.wellheadDown = false ∧ s.board.place = .running then
    let head := s.ldg? 48 8
    let first := max (s.ldg? 56 8) (head - journalSize)
    let s := (List.range (head - first)).foldl (fun s i => s.archiveEntry (first + i)) s
    let base := s.fld R.MEM_ARCHIVE_BASE F.MEM_ARCHIVE_BASE_VALUE
    let s := (s.devWrite base (leBytes 4 0x4A584C48)).devWrite (base + 8) (leBytes 8 head)
    s.ldgPut 56 8 head
  else s

/-- One buffered entry is appended at JOURNAL_HEAD; an entry overwritten unarchived counts in JOURNAL_LOST. -/
def State.journalAppend (s : State) (x : Nat) : State :=
  let head := s.ldg? 48 8
  let s := if s.ldg? 56 8 + journalSize ≤ head then s.ldgAdd 68 4 1 else s
  { s.ldgPut 48 8 (head + 1) with ldg.journal := sset 0 s.ldg.journal (head % journalSize) x }

/-- A commit that succeeds: the journal, then the older STATE copy with SEQUENCE incremented and its CRC. -/
def State.commitWrite (s : State) : State :=
  let s := s.ldg.buffer.foldl State.journalAppend s
  let s := { s with ldg.buffer := [] }
  let s := (s.ldgPut 24 8 (if s.hasLocked then s.nowSec else 0)).ldgPut 32 2 (s.fld R.TIM_CLOCK F.TIM_CLOCK_UTC_OFFSET)
  let s := if s.ldg.fromPfail ∧ s.ldg.again = false then s.ldgAdd 44 4 1 else s
  let s := s.ldgAdd 8 8 1
  let s := s.ldgPut 8192 4 (crc32c (sbytes s.ldg.live 0 8192))
  let s := if s.fld R.LDG_STATUS F.LDG_STATUS_COPY = 1 then
      ({ s with ldg.copyB := s.ldg.live }).setFld R.LDG_STATUS F.LDG_STATUS_COPY 2
    else ({ s with ldg.copyA := s.ldg.live }).setFld R.LDG_STATUS F.LDG_STATUS_COPY 1
  { s.setFld R.LDG_STATUS F.LDG_STATUS_SEQUENCE (s.ldg? 8 8) with ldg.lifeAt := s.lifeS }

/-- A commit ends; one that fails leaves the copies and raises vector 8 (spec/18 R474). Requests that arrived meanwhile
start one more. -/
def execLedgerCommitDone (ok : Bool) (s : State) : Out :=
  if s.ldg.busy = false then .next s
  else
    let again := s.ldg.again
    let s := if ok then s.commitWrite else s.raise 8
    let s := { s with ldg.busy := false, ldg.again := false }
    let s := s.setFld R.LDG_STATUS F.LDG_STATUS_BUSY 0
    let s := if ok then s.archiveJournal else s
    if again then .next s.commitLedger
    else .next ({ s with ldg.fromPfail := false }.setFld R.LDG_CTRL F.LDG_CTRL_COMMIT 0)

/-! ## Health score (spec/18 R465) -/

/-- A share of 1000, between 0 and 1000, rounded down: 1000 × num / den. -/
def clampMille (num den : Int) : Nat := if den ≤ 0 then 1000 else min 1000 (1000 * num / den).toNat

/-- The least integer at or above log2 of a positive number. -/
def ceilLog2 (x : Nat) : Nat := if 2 ^ Nat.log2 x = x then Nat.log2 x else Nat.log2 x + 1

/-- Least of a list, with a value for none. -/
def minOr (d : Nat) (l : List Nat) : Nat := l.foldl min d

/-- S_opt without its receive term: lowest line power of enabled sources less 15.0 dBm, against 1.5 dB. -/
def State.sLas (s : State) : Nat :=
  minOr 1000 ((List.range 32).filterMap fun e =>
    let l := sget {} s.lasers e
    if l.level.gives = false ∨ s.ldg.laserHour.all (fun x => x.1 != e) then none
    else some (clampMille (l.power.toInt - 1500) 150))

/-- Whether any port is UP. -/
def State.anyPortUp (s : State) : Bool :=
  (List.range 2048).any s.portUp

/-- Journal entries of UNCORRECTABLE within the last 30 days of LIFE_S, appended or buffered. -/
def State.recentUncorrectable (s : State) : Nat :=
  let head := s.ldg? 48 8
  let kept := s.ldg.journal.filter fun x => decide (journalSize ≤ head) || decide (x.1 < head)
  ((kept.map Prod.snd ++ s.ldg.buffer).filter fun x =>
    x % 256 == 6 && decide (s.lifeS < x / 2 ^ 32 % 2 ^ 64 + 30 * 86400)).length

/-- S_mem: 1000 − 100 log2(1 + c) − 250 u, rounded down. -/
def State.sMem (s : State) : Nat :=
  let c := s.ldg.corrSeconds.foldl (· + ·) s.ldg.corrSecond
  1000 - (ceilLog2 ((1 + c) ^ 100) + 250 * s.recentUncorrectable)

/-- S_cad: the lowest margin above threshold of the last hour against 500. -/
def State.sCad (s : State) : Nat :=
  match (s.ldg.cadSecond :: s.ldg.cadSeconds).filterMap id with
  | [] => 1000
  | m :: t => clampMille (t.foldl min m) 500

/-- S_thm: 1000 − 20000 h − n / 10, rounded down, over the worst bay and the most full cycles of 40 degrees or more. -/
def State.sThm (s : State) : Nat :=
  let n := ((List.range 50).map fun b => s.ldg? (ldgBay b + 36) 4 / 2).foldl max 0
  minOr (min 1000 ((10000 - (n : Int)) / 10).toNat) ((List.range 50).filterMap fun b =>
    let en := s.ldg? (ldgBay b) 8
    if en = 0 then none
    else some ((10000 * (en : Int) - 200000 * (s.ldg? (ldgBay b + 16) 4 : Int) - n * en) / (10 * en)).toNat)

/-- Design life in seconds (spec/18 R463). -/
def designLife : Nat := 378432000

/-- S_wear: the least share of design life left among bays and engines. -/
def State.sWear (s : State) : Nat :=
  minOr 1000 (((List.range 50).map fun b =>
      clampMille (256 * designLife - (s.ldg? (ldgBay b + 8) 8 : Int)) (256 * designLife)) ++
    ((List.range 32).map fun e => clampMille (designLife - (s.ldg? (ldgEngine e) 8 : Int)) designLife))

/-- The score from the six sub-scores. -/
def scoreOf (o f c m t w : Nat) : Nat :=
  min ((250 * o + 200 * f + 150 * c + 150 * m + 100 * t + 150 * w) / 1000)
    (min o (min f (min c (min m (min t w)))) + 200)

/-- The six sub-scores and the score are computed, or held at shed level 2. The receive term of S_opt, and S_fec, are
free values from 0 to 1000 while a port is UP: no command carries what they are computed from (log entry 10). -/
def State.healthScore (s : State) : State :=
  if 2 ≤ s.fld R.PLN_WH_LOAD F.PLN_WH_LOAD_LEVEL then s.setFld R.LDG_HEALTH_B F.LDG_HEALTH_B_HELD 1
  else
    let (x, s) := s.draw
    let (y, s) := s.draw
    let up := s.anyPortUp
    let o := if up then min s.sLas (x.toNat % 1001) else s.sLas
    let f := if up then y.toNat % 1001 else 1000
    let c := s.sCad
    let m := s.sMem
    let t := s.sThm
    let w := s.sWear
    let v := scoreOf o f c m t w
    let s := s.wr R.LDG_HEALTH (F.LDG_HEALTH_SCORE.put v ||| F.LDG_HEALTH_S_OPT.put o ||| F.LDG_HEALTH_S_FEC.put f |||
      F.LDG_HEALTH_S_CAD.put c ||| F.LDG_HEALTH_S_MEM.put m ||| F.LDG_HEALTH_S_THM.put t)
    let s := s.wr R.LDG_HEALTH_B (F.LDG_HEALTH_B_S_WEAR.put w ||| F.LDG_HEALTH_B_SECONDS.put s.nowSec)
    (s.ldgPut 64 2 v).raise 8

/-- A periodic commit: the health score first; it waits while the Wellhead restarts (spec/18 R456, spec/16 R434). -/
def execLedgerPeriodicCommit (s : State) : Out :=
  if s.cfg.wellheadDown then .next s else .next s.healthScore.commitLedger

/-! ## Wear and thermal history (spec/18 R463, R464) -/

/-- e^z at scale 2^80 for a small z, by its series. -/
def expSmall (z : Int) : Int :=
  ((List.range 14).foldl (fun (a : Int × Int) (k : Nat) => (a.1 + a.2, a.2 * z / 2 ^ 80 / ((k + 1 : Nat) : Int))) (0, 2 ^ 80)).1

/-- e^(num / den) at scale 2^80 (log entry 11). -/
def expFix (num den : Int) : Int :=
  Nat.repeat (fun e => e * e / 2 ^ 80) 12 (expSmall (num * 2 ^ 80 / (den * 4096)))

/-- round(256 × AF) for a temperature sum of `n` samples in 0.125 degrees and a setpoint sum of `k` samples in 0.1 mV. -/
def wearStep (t : Int) (n : Nat) (v k : Nat) : Nat :=
  let d1 : Int := 36815
  let d2 : Int := 100 * t + 218520 * n
  let d3 : Int := 10000 * k
  if d2 ≤ 0 ∨ n = 0 ∨ k = 0 then 0
  else
    let e := expFix (8123 * (100 * d2 - 800 * n * 36815) * d3 + 20 * ((v : Int) - 7500 * k) * d1 * d2) (d1 * d2 * d3)
    ((512 * e + 2 ^ 80) / 2 ^ 81).toNat

/-- A mean enters the residue of turning points, newest first. -/
def rfPush (l : List Int) (x : Int) : List Int :=
  match l with
  | [] => [x]
  | [a] => if x = a then [a] else [x, a]
  | a :: b :: t => if 0 ≤ (x - a) * (a - b) then x :: b :: t else x :: a :: b :: t

/-- Ranges that the three latest turning points close: ranges with their half-cycles, and the residue left (ASTM
E1049). -/
def rfReduce : Nat → List Int → List (Int × Nat) → List Int × List (Int × Nat)
  | 0, l, c => (l, c)
  | k + 1, x :: y :: z :: t, c =>
    if (x - y).natAbs < (y - z).natAbs then (x :: y :: z :: t, c)
    else if t.isEmpty then rfReduce k [x, y] (((y - z).natAbs, 1) :: c)
    else rfReduce k (x :: t) (((y - z).natAbs, 2) :: c)
  | _ + 1, l, c => (l, c)

/-- The bin of a swing in 2^-13 degrees: 5, 10, 20, 40 degrees; none below 5. -/
def rfBin (r : Int) : Option Nat :=
  let d := r / 8192
  if d < 5 then none else if d < 10 then some 0 else if d < 20 then some 1 else if d < 40 then some 2 else some 3

/-- The rainflow count of one second for a bay. -/
def State.rainflow (s : State) (b : Nat) (mean : Int) : State :=
  let l := rfPush (sget [] s.ldg.residues b) mean
  let (l, c) := rfReduce l.length l []
  let s := { s with ldg.residues := sset [] s.ldg.residues b l }
  c.foldl (fun s x => match rfBin x.1 with
    | none => s
    | some k => s.ldgAdd (ldgBay b + 24 + 4 * k) 4 x.2) s

/-- Whether a bay has power: the always-on bays with PWR_GOOD, the others once they have started. -/
def State.bayPowered (s : State) (b : Nat) : Bool :=
  s.board.pwrGood && (decide (46 ≤ b) && decide (b ≤ 48) || s.board.place == .running)

/-- What a second adds to a bay's record. The mean is over the second's samples; with none, the sensor's last reading
stands for it. -/
def State.bayLife (s : State) (b : Nat) : State :=
  let st := s.fld (R.PWR_BAY_STATUS b) F.PWR_BAY_STATUS_STATE
  let raw := BitVec.ofNat 16 (s.fld (R.THM_SENSOR b) F.THM_SENSOR_TEMP)
  let n := if s.ldg.samples = 0 then (if raw = 0x8000 then 0 else 1) else s.ldg.samples
  let t : Int := if s.ldg.samples = 0 then raw.toInt else sget 0 s.ldg.tempSum b
  let q := b / 7
  let v := if 28 ≤ b then 7500 * max 1 s.ldg.samples
    else if s.ldg.samples = 0 then s.fld (R.PWR_VCORE q) F.PWR_VCORE_SETPOINT else sget 0 s.ldg.vcoreSum q
  let s := if s.bayPowered b ∧ st ≤ 1 then
      (s.ldgAdd (ldgBay b) 8 1).ldgAdd (ldgBay b + 8) 8 (wearStep t n v (max 1 s.ldg.samples))
    else s
  if n = 0 then s
  else
    let s := if 824 * (n : Int) ≤ t then s.ldgAdd (ldgBay b + 16) 4 1 else s
    s.rainflow b (t * 1024 / n)

/-- What a second adds to an engine's record: OPTICAL_S while locked, and its heaters' energy. -/
def State.engineLife (s : State) (e : Nat) : State :=
  let s := if s.fld (R.OPT_STATUS e) F.OPT_STATUS_STATE = 2 then s.ldgAdd (ldgEngine e) 8 1 else s
  let mj := sget 0 s.ldg.heaterAcc e + s.fld (R.OPT_STATUS e) F.OPT_STATUS_HEATER_MW
  { s.ldgAdd (ldgEngine e + 8) 8 (mj / 1000) with ldg.heaterAcc := sset 0 s.ldg.heaterAcc e (mj % 1000) }

/-- A second of the life clock, while PWR_GOOD is high (spec/18 R461, R463, R464). -/
def execLifeSecond (s : State) : Out :=
  if s.board.pwrGood = false then .next s
  else
    let s := s.ldgAdd 16 8 1
    let s := (List.range 50).foldl State.bayLife s
    let s := (List.range 32).foldl State.engineLife s
    .next { s with
      ldg.tempSum := [], ldg.vcoreSum := [], ldg.samples := 0
      ldg.corrSeconds := (s.ldg.corrSecond :: s.ldg.corrSeconds).take 3600, ldg.corrSecond := 0
      ldg.cadSeconds := (s.ldg.cadSecond :: s.ldg.cadSeconds).take 3600, ldg.cadSecond := none }

/-! ## Hourly records (spec/18 R464, R465) -/

/-- LASER_HOUR of an engine whose source is enabled, and LASER_LAST; LASER_FIRST where a new source's first hour ends. -/
def State.laserHourEntry (s : State) (e : Nat) : State :=
  let l := sget {} s.lasers e
  let (sum, lo, hi, n) := sget (0, 0, 0, 0) s.ldg.laserHour e
  if l.level.gives = false ∨ n = 0 then s
  else
    let mean := sum / n
    let w (x : Int) : Nat := (BitVec.ofInt 16 x).toNat
    let s := s.journal 3 e (leBytes 2 (w mean) ++ leBytes 2 (w lo) ++ leBytes 2 (w hi) ++ leBytes 2 l.temp.toNat)
    let s := s.ldgPut (ldgEngine e + 18) 2 (w mean)
    if s.ldg.laserFirst.contains e then
      { s.ldgPut (ldgEngine e + 16) 2 (w mean) with ldg.laserFirst := s.ldg.laserFirst.erase e }
    else s

/-- MEM_HOUR of a unit that corrected an error in the hour. -/
def State.memHourEntry (s : State) (u : Nat) : State :=
  let n := sget 0 s.ldg.memHour u
  if n = 0 then s else s.journal 5 u (leBytes 4 n)

/-- The packed scores of HEALTH_HOUR. -/
def State.healthPacked (s : State) : Nat :=
  let h := s.rd R.LDG_HEALTH
  F.LDG_HEALTH_SCORE.get h + 2 ^ 10 * F.LDG_HEALTH_S_OPT.get h + 2 ^ 20 * F.LDG_HEALTH_S_FEC.get h +
    2 ^ 30 * F.LDG_HEALTH_S_CAD.get h + 2 ^ 40 * F.LDG_HEALTH_S_MEM.get h + 2 ^ 50 * F.LDG_HEALTH_S_THM.get h +
    2 ^ 60 * s.fld R.LDG_HEALTH_B F.LDG_HEALTH_B_S_WEAR

/-- A whole hour of LIFE_S. -/
def execLifeHour (s : State) : Out :=
  if s.lifeS % 3600 ≠ 0 then .next s
  else
    let s := (List.range 32).foldl State.laserHourEntry s
    let s := s.journal 4 0 (leBytes 12 s.healthPacked)
    let s := (List.range 16).foldl State.memHourEntry s
    .next { s with ldg.laserHour := [], ldg.memHour := [] }

end Sys2Proof.Machine
end

