-- ==== Sys2Proof/Machine/Sill.lean ====
section
/-! DEFINITION. Cadence monitors and the supply loop (spec/02 R50 to R53, spec/14 R377, R391), and the sills with their overruns
and injection (spec/02 R55 to R64). -/

namespace Sys2Proof.Machine

/-! ## Cadence monitors (spec/02 R52, R53) -/

/-- A signed 16-bit field. -/
def State.sfld (s : State) (off : Nat) (f : Fld) : Int := signedOf 16 (s.fld off f)

/-- A signed number in a 16-bit field. -/
def word16 (x : Int) : Nat := (BitVec.ofInt 16 x).toNat

/-- floor(10000 × (cadence − required) / required), held to 16 bits. -/
def marginOf (cadence required : Nat) : Int :=
  max (-32768) (min 32767 (10000 * ((cadence : Int) - required) / required))

/-- The threshold of a monitor. -/
def State.monThresh (s : State) (n : Nat) : Int := s.sfld (R.SIL_MON_THRESH n) F.SIL_MON_THRESH_THRESHOLD

/-- A switching monitor's below bit rises or falls: MARGIN_TIGHTEN or MARGIN_RELEASED of its quadrant (spec/14 R391). -/
def State.marginEvent (s : State) (n kind : Nat) : State :=
  if n < 28 ∧ n % 7 = 4 then s.thmEvent kind (n / 7) 0 0 0 else s

/-- A margin against its threshold: BELOW with its hysteresis, and ALARM. -/
def State.marginBits (s : State) (n : Nat) (m : Int) : State :=
  let t := s.monThresh n
  let below := s.bit R.SIL_MON_BELOW n
  if t ≠ -32768 ∧ m < t then
    let s := s.setBit R.SIL_MON_ALARM n true
    if below then s else (s.setBit R.SIL_MON_BELOW n true).marginEvent n 7
  else if below ∧ t + s.fld R.SIL_CTRL F.SIL_CTRL_HYST ≤ m then (s.setBit R.SIL_MON_BELOW n false).marginEvent n 8
  else s

/-- The end of a window of a monitor. -/
def execMonitorWindowEnd (n : Fin 50) (cadence : BitVec 16) (s : State) : Out :=
  let off := R.SIL_MON_STATUS n
  let req := s.fld (R.SIL_MON_REQ n) F.SIL_MON_REQ_REQUIRED
  let s := (s.setFld off F.SIL_MON_STATUS_CADENCE cadence.toNat).setFld off F.SIL_MON_STATUS_CADENCE_MIN
    (min cadence.toNat (s.fld off F.SIL_MON_STATUS_CADENCE_MIN))
  if req = 0 then .next s
  else
    let m := marginOf cadence.toNat req
    let s := (s.setFld off F.SIL_MON_STATUS_MARGIN (word16 m)).setFld off F.SIL_MON_STATUS_MARGIN_MIN
      (word16 (min m (s.sfld off F.SIL_MON_STATUS_MARGIN_MIN)))
    let above := m - s.monThresh n
    let low := match s.ldg.cadSecond with
      | some x => min x above
      | none => above
    let s := { s with ldg.cadSecond := some low }
    let s := if above ≤ 500 then { s with pwr.vcoreHigh := sdel s.pwr.vcoreHigh (n / 7) } else s
    .next (s.marginBits n m)

/-! ## Supply loop (spec/14 R377) -/

/-- Margins above threshold of the active bays of a quadrant whose monitors have reported. -/
def State.quadMargins (s : State) (q : Nat) : List Int :=
  ((List.range 7).map fun k => 7 * q + k).filterMap fun n =>
    let m := s.sfld (R.SIL_MON_STATUS n) F.SIL_MON_STATUS_MARGIN
    if s.fld (R.PWR_BAY_STATUS n) F.PWR_BAY_STATUS_STATE = 0 ∧ m ≠ 32767 then some (m - s.monThresh n) else none

/-- CEILING, held to its bounds. -/
def State.vcoreCeiling (s : State) (q : Nat) : Nat := max 7000 (min 8000 (s.fld (R.PWR_VCORE q) F.PWR_VCORE_CEILING))

/-- The loop raises a rail by 2.5 mV where a margin is short, and lowers it after 1 ms of surplus; `vcoreHigh` holds one more
than the instant at which the surplus began. The rail's measured voltage is a free value: no command carries it (log
entry 41). -/
def execSupplyLoopEval (q : Fin 4) (s : State) : Out :=
  let (x, s) := s.draw
  let s := s.setFld (R.PWR_VCORE q) F.PWR_VCORE_MEASURED x.toNat
  let l := s.quadMargins q
  let sp := s.fld (R.PWR_VCORE q) F.PWR_VCORE_SETPOINT
  let since := sget 0 s.pwr.vcoreHigh q.val
  let mark (s : State) (v : Nat) : State := { s with pwr.vcoreHigh := sset 0 s.pwr.vcoreHigh q.val v }
  if l.isEmpty then .next (mark s 0)
  else if l.any fun m => decide (m < 0) then
    .next ((mark s 0).setFld (R.PWR_VCORE q) F.PWR_VCORE_SETPOINT (max sp (min (sp + 25) (s.vcoreCeiling q))))
  else if l.all fun m => decide (500 < m) then
    if since = 0 then .next (mark s (s.mono + 1))
    else if since + 1000000 ≤ s.mono + 1 then
      .next ((mark s (s.mono + 1)).setFld (R.PWR_VCORE q) F.PWR_VCORE_SETPOINT (max 7000 (sp - 25)))
    else .next s
  else .next (mark s 0)

/-! ## Sills (spec/02 R55 to R62) -/

/-- The class of a sill. -/
inductive SillClass where
  | count | event
  deriving DecidableEq, Repr

/-- The class of a bit of a group; none for a reserved bit (spec/02 Tables 2.7, 2.8). -/
def sillClass (g b : Nat) : Option SillClass :=
  if g < 256 then some (if b % 8 = 0 ∨ b % 8 = 1 ∨ b % 8 = 4 ∨ b % 8 = 5 then .count else .event)
  else if g < 270 then some .count
  else if g = 270 then if b % 8 = 0 then some .count else if b % 8 < 3 then some .event else none
  else if g = 271 then if 1 ≤ b ∧ b ≤ 3 then some .count else if b < 6 then some .event else none
  else if b < 50 then some .event else none

/-- The key of a sill. -/
def sillKey (g b : Nat) : Nat := 64 * g + b

/-- The port that holds a lane, in its pair's mode. -/
def State.lanePort (s : State) (f l : Nat) : Nat := let n := modeLanes (s.pairMode f); 8 * f + l / n * n

/-- A counter is marked as a lower bound. -/
def State.markLower (s : State) (k : Nat) : State :=
  { s with cnt.counters := sset {} s.cnt.counters k { sget {} s.cnt.counters k with lower := true } }

/-- What an overrun does beyond its flag (spec/02 Table 2.6; spec/13 R375). -/
def State.overrunEffect (s : State) (g b : Nat) : State :=
  if g < 256 then
    if b % 8 < 2 then s.markLower (ctrLane (8 * g + b / 8) (b % 8))
    else if b % 8 = 4 ∨ b % 8 = 5 then
      let p := s.lanePort g (b / 8)
      if s.portAgreed p then s.partnerDead p 4 else s
    else s
  else if g < 262 then { s with swc.retraining := s.swc.retraining ++ [sillKey (g - 256) b] }
  else if g < 270 then
    let m := g - 262
    ((s.markLower (ctrMem (3 * m))).markLower (ctrMem (3 * m + 1))).markLower (ctrMem (3 * m + 2))
  else if g = 270 then if b % 8 = 0 then s.markLower (ctrMem (24 + 3 * (b / 8))) else s
  else if g = 271 ∧ 1 ≤ b ∧ b ≤ 3 then 
    { s.hifError 6 with host.aerInternal := true, host.rasUncorrectable := true, host.viral := true }
  else s

/-- An overrun: its flag, the summary, the count, and its effect (spec/02 R60). -/
def State.overrun (s : State) (g b : Nat) : State :=
  (((s.setBit (R.SIL_OVR g) b true).setBit (R.SIL_OVR_SUMMARY (g / 64)) (g % 64) true).incFld R.SIL_OVR_COUNT
    F.SIL_OVR_COUNT_COUNT).overrunEffect g b

/-- The counts that a statistics sill carries reach their counters: FEC codewords of a lane, and the ECC events of a stack, which
are its on-die corrections. Corrected errors of DDR5 are counted where they are read, and its sill adds to its own destination
alone (log entry 42). -/
def State.sillDeliver (s : State) (g b n : Nat) : State :=
  if g < 256 ∧ b % 8 < 2 then s.countBy (ctrLane (8 * g + b / 8) (b % 8)) n
  else if 262 ≤ g ∧ g < 270 then s.countBy (ctrMem (3 * (g - 262) + 1)) n
  else s

/-- A sill captures a value, of which a part was injected: the destination adds the rest (spec/02 R57, R63). -/
def State.sillCapture (s : State) (g b n injected : Nat) : State :=
  let x := sget {} s.sills (sillKey g b)
  let y : Sill := { x with acc := 0, injected := 0, busy := true, inFlight := n, phase := 0, dest := x.dest + (n - injected) }
  let s := { s with sills := sset {} s.sills (sillKey g b) y }
  s.sillDeliver g b (n - injected)

/-- Whether the next pulse at a sill is an injected one, and the state that has issued it: while an injection into a sill is under
way, the pulses at that sill are the injected ones (DESIGN CHOICE, log entry 64). -/
def State.takeInjected (s : State) (g b : Nat) : Bool × State := match s.injecting with
  | some (g', b', n) => if g = g' ∧ b = b' ∧ 0 < n then (true, { s with injecting := some (g, b, n - 1) }) else (false, s)
  | none => (false, s)

/-- A pulse or an event at a sill (spec/02 R57, R58). -/
def State.pulse (s : State) (g b : Nat) (c : SillClass) : State :=
  let (inj, s) := s.takeInjected g b
  let x := sget {} s.sills (sillKey g b)
  if x.busy = false then s.sillCapture g b 1 (b2n inj)
  else
    let n := x.phase + 1
    let put (s : State) (y : Sill) : State := { s with sills := sset {} s.sills (sillKey g b) y }
    match c with
    | .count =>
      if n ≤ 15 then put s { x with phase := n, acc := min 15 (x.acc + 1), injected := x.injected + b2n inj }
      else if n = 16 then (put s { x with phase := n }).overrun g b
      else put s { x with phase := n }
    | .event => if n = 2 then (put s { x with phase := n }).overrun g b else put s { x with phase := n }

def execSillPulse (g : Fin 273) (b : Fin 64) (s : State) : Out :=
  .next (match sillClass g b with
    | some c => s.pulse g b c
    | none => s)

/-- An acknowledge completes: what has accumulated is captured and transferred. -/
def execSillAcknowledge (g : Fin 273) (b : Fin 64) (s : State) : Out :=
  let x := sget {} s.sills (sillKey g b)
  .next (if x.busy = false then s
    else if x.acc = 0 then
      { s with sills := sset {} s.sills (sillKey g b) { x with busy := false, inFlight := 0, phase := 0 } }
    else s.sillCapture g b x.acc x.injected)

/-- A channel has been retrained after an overrun of its credit count (spec/02 Table 2.6). -/
def execChannelRetrained (d : Fin 6) (h : Fin 2) (c : Fin 32) (s : State) : Out :=
  .next { s with swc.retraining := s.swc.retraining.filter fun k => k != sillKey d (32 * h + c) }

/-! ## Injection (spec/02 R63) -/

/-- Whether the block that owns a group's sill is disabled (spec/02 Table 2.8a). A group above 272 has no owner, so nothing is to
be disabled first (DESIGN CHOICE, log entry 63). -/
def State.sillOwnerOff (s : State) (g b : Nat) : Bool :=
  if g < 256 then
    let p := s.lanePort g (b / 8)
    !s.portEnabled p && s.portState p == psDisabled
  else if 272 < g then true
  else if g = 271 then
    ((List.range 16).all fun w => s.rd (R.HIF_RING_ENABLE w) == 0) &&
      (List.range 256).all fun c => !s.flag (R.HIF_CQ_CFG c) F.HIF_CQ_CFG_ENABLE
  else !s.flag R.GLB_STATUS F.GLB_STATUS_FWD_ACTIVE && (List.range 8).all fun e => !s.flag (R.BSN_CTRL e) F.BSN_CTRL_ENABLE

/-- GO of SIL_INJECT: the pulses begin to be issued, and GO reads 1; a group above 272, a reserved bit or no pulse injects
nothing. A GO while an injection is under way replaces it (DESIGN CHOICE, log entry 65). -/
def State.injectStart (s : State) (g b n : Nat) : State :=
  if 272 < g ∨ (sillClass g b).isNone ∨ n = 0 then s.setFld R.SIL_INJECT F.SIL_INJECT_GO 0
  else { s.setFld R.SIL_INJECT F.SIL_INJECT_GO 1 with injecting := some (g, b, n) }

/-- The last injected pulse has been issued. -/
def execInjectionDone (s : State) : Out :=
  .next (match s.injecting with
    | some (_, _, 0) => { s.setFld R.SIL_INJECT F.SIL_INJECT_GO 0 with injecting := none }
    | _ => s)

end Sys2Proof.Machine
end

