-- ==== Sys2Proof/Machine/Host.lean ====
section
/-! DEFINITION. The host interface (spec/03): the CXL link, BAR access errors, pegs through BAR2, watched lines, work rings, the
course of a work item, and host interface reset. -/

namespace Sys2Proof.Machine

/-! ## BAR access errors and pegs (spec/00 R13; spec/03 R69, R70, R91) -/

/-- A refused access: its bit, and HIF_ERR_ADDR where neither bit 0 nor bit 1 was set. -/
def State.barRefused (s : State) (bar : Nat) (write : Bool) (size offset : Nat) : State :=
  let s := if s.bit R.HIF_ERR_STATUS 0 || s.bit R.HIF_ERR_STATUS 1 then s
    else s.wr R.HIF_ERR_ADDR (F.HIF_ERR_ADDR_SPACE.put bar ||| F.HIF_ERR_ADDR_KIND.put (b2n write) |||
      F.HIF_ERR_ADDR_SIZE.put size ||| F.HIF_ERR_ADDR_OFFSET.put offset)
  if bar = 1 then (s.hifError 1).count (ctrHif 9) else (s.hifError 0).count (ctrHif 8)

/-- A write of BAR2 at 16p, which sets the peg, or at 16p + 8, which adds to it; pegs 0 to 1023 are not written. -/
def State.bar2Write (s : State) (offset : Nat) (v : Word) : State :=
  let p := offset / 16
  if p < 1024 then s.barRefused 1 true 8 offset else if offset % 16 = 0 then s.setPeg p v else s.addPeg p v

/-- A read of BAR2: the peg's value at 16p, its owning domain at 16p + 8. -/
def State.bar2Read (s : State) (offset : Nat) : Word :=
  if offset % 16 = 0 then s.peg (offset / 16) else BitVec.ofNat 64 (s.pegDom (offset / 16)).toNat

def execPegBar2Set (p : BitVec 16) (v : Word) (s : State) : Out :=
  .next (if s.host.ideBroken then s else s.bar2Write (16 * p.toNat) v)

def execPegBar2Add (p : BitVec 16) (v : Word) (s : State) : Out :=
  .next (if s.host.ideBroken then s else s.bar2Write (16 * p.toNat + 8) v)

/-! ## Rings and completion rings as registers -/

/-- STATE of a ring: 0 disabled, 1 active, 2 draining, 3 error. -/
def State.ringSt (s : State) (r : Nat) : Nat := s.fld (R.HIF_RING_STATE r) F.HIF_RING_STATE_STATE

/-- HEAD of a ring. -/
def State.ringHead (s : State) (r : Nat) : Nat := s.fld (R.HIF_RING_STATE r) F.HIF_RING_STATE_HEAD

/-- A field of HIF_RING_CFG. -/
def State.ringCfg (s : State) (r : Nat) (f : Fld) : Nat := s.fld (R.HIF_RING_CFG r) f

/-- A ring's data beside its registers. -/
def State.ring (s : State) (r : Nat) : Ring := sget {} s.host.rings r

/-- A ring's data takes a value. -/
def State.setRing (s : State) (r : Nat) (x : Ring) : State := { s with host.rings := sset {} s.host.rings r x }

/-- Whether a completion ring is enabled. -/
def State.cqOn (s : State) (c : Nat) : Bool := s.flag (R.HIF_CQ_CFG c) F.HIF_CQ_CFG_ENABLE

/-- Entries of a completion ring. -/
def State.cqSize (s : State) (c : Nat) : Nat := 2 ^ s.fld (R.HIF_CQ_CFG c) F.HIF_CQ_CFG_SIZE_LOG2

/-- TAIL of a completion ring. -/
def State.cqTail (s : State) (c : Nat) : BitVec 32 := BitVec.ofNat 32 (s.fld (R.HIF_CQ_STATE c) F.HIF_CQ_STATE_TAIL)

/-! ## Plumb rules (spec/03 Table 3.11) -/

/-- Whether IDE is active, or not required. -/
def State.ideOk (s : State) : Bool :=
  s.flag R.HIF_LINK_STATUS F.HIF_LINK_STATUS_IDE_ACTIVE || !s.flag R.HIF_LINK_CTRL F.HIF_LINK_CTRL_IDE_REQUIRED

/-- Whether a size is 6 to 16. -/
def sizeLogOk (n : Nat) : Bool := decide (6 ≤ n) && decide (n ≤ 16)

/-- The plumb check of a ring: its reason code. -/
def State.ringReason (s : State) (r : Nat) : Nat :=
  let base := (s.rd (R.HIF_RING_BASE r)).toNat
  let line := (s.rd (R.HIF_RING_LINE r)).toNat
  if sizeLogOk (s.ringCfg r F.HIF_RING_CFG_SIZE_LOG2) = false then 0x10
  else if 2 ^ 52 ≤ base ∨ 2 ^ 52 ≤ line then 0x10
  else if base % 4096 ≠ 0 ∨ line % 64 ≠ 0 then 0x11
  else if s.cqOn (s.ringCfg r F.HIF_RING_CFG_DEFAULT_CQ) = false then 0x12
  else if (List.range 1024).any (fun k => k != r && s.ringSt k != 0 && (s.rd (R.HIF_RING_LINE k)).toNat == line) then 0x17
  else if s.ideOk = false then 0x1B else 0

/-- The plumb check of a completion ring: its reason code. -/
def State.cqReason (s : State) (c : Nat) : Nat :=
  let base := (s.rd (R.HIF_CQ_BASE c)).toNat
  let ptr := (s.rd (R.HIF_CQ_HEADPTR c)).toNat
  if sizeLogOk (s.fld (R.HIF_CQ_CFG c) F.HIF_CQ_CFG_SIZE_LOG2) = false then 0x10
  else if 2 ^ 52 ≤ base ∨ 2 ^ 52 ≤ ptr then 0x10
  else if base % 4096 ≠ 0 ∨ ptr % 8 ≠ 0 then 0x11
  else if s.ideOk = false then 0x1B else 0

/-! ## Fetching (spec/03 R73 to R77) -/

/-- Whether nothing is read from or written to host memory for work: in D3hot (spec/03 R67), and on a link that an IDE failure has
made unusable (Table 3.13). -/
def State.linkHeld (s : State) : Bool := s.host.d3hot || s.host.ideBroken

/-- Work items held and descriptors in flight. -/
def State.workHeld (s : State) : Nat :=
  s.host.items.length + (s.host.rings.map fun x => x.2.inFlight).sum

/-- Descriptors of a ring still to fetch. -/
def State.toFetch (s : State) (r : Nat) : Nat := ((s.ring r).limit - BitVec.ofNat 32 (s.ringHead r)).toNat - (s.ring r).inFlight

/-- The ring to serve next: of the highest PRIORITY, in rotation after the last served of that priority (spec/03 R77). -/
def State.nextRing (s : State) : Option Nat :=
  let l := (s.host.rings.map Prod.fst).filter fun r => s.ringSt r == 1 && s.toFetch r != 0
  let pri (r : Nat) : Nat := s.ringCfg r F.HIF_RING_CFG_PRIORITY
  let top := (l.map pri).foldl max 0
  let l := l.filter fun r => pri r == top && (s.ring r).inFlight == 0
  let last := sget 0 s.host.lastServed top
  (l.filter fun r => decide (last ≤ r)).head? <|> l.head?

/-- Reads of `n` descriptors are issued from an index on. -/
def State.issueReads (s : State) (r : Nat) : Nat → Nat → State
  | 0, _ => s
  | n + 1, i =>
    let slot := i % 2 ^ s.ringCfg r F.HIF_RING_CFG_SIZE_LOG2
    (s.sendCxl (.rdCurr (s.rd (R.HIF_RING_BASE r) + BitVec.ofNat 64 (64 * slot)))).issueReads r n (i + 1)

/-- Fetches are issued, 64 descriptors of a ring at a time, up to 4,096 work items in all. -/
def State.serveRings : Nat → State → State
  | 0, s => s
  | k + 1, s =>
    match s.nextRing with
    | none => s
    | some r =>
      let n := min 64 (min (s.toFetch r) (4096 - s.workHeld))
      if s.linkHeld ∨ n = 0 then s
      else
        let s := s.issueReads r n (s.ringHead r)
        let s := s.setRing r { s.ring r with inFlight := n }
        State.serveRings k { s with host.lastServed := sset 0 s.host.lastServed (s.ringCfg r F.HIF_RING_CFG_PRIORITY) (r + 1) }

/-- Every ring with descriptors to fetch is served. -/
def State.fetchMore (s : State) : State := State.serveRings s.host.rings.length s

/-- A ring enters the error state (spec/03 Table 3.21). -/
def State.ringError (s : State) (r code : Nat) : State :=
  let s := (s.setFld (R.HIF_RING_STATE r) F.HIF_RING_STATE_STATE 3).setFld (R.HIF_RING_STATE r) F.HIF_RING_STATE_ERROR code
  (s.setRing r { s.ring r with inFlight := 0, reading := false, shared := false }).hifError 2

/-- Poison on a descriptor, watched-line or count read (spec/03 Table 3.13). -/
def State.poisonReceived (s : State) : State := { s.hifError 7 with host.rasUncorrectable := true }

/-- A TAIL found in the watched line (spec/03 R75); a snoop that finds none new was spurious. -/
def State.tailSeen (s : State) (r : Nat) (tail : BitVec 32) (poll : Bool) : State :=
  let x := s.ring r
  if tail = x.lastTail then (if poll then s else s.count (ctrHif 4))
  else
    let s := if poll then s.count (ctrHif 5) else s
    let s := s.setRing r { x with lastTail := tail }
    if 2 ^ s.ringCfg r F.HIF_RING_CFG_SIZE_LOG2 < (tail - BitVec.ofNat 32 (s.ringHead r)).toNat then s.ringError r 1
    else (s.setRing r { s.ring r with limit := tail }).fetchMore

/-- A read of the watched line: its TAIL, or the ring in error. -/
def State.lineRead (s : State) (r : Nat) (read : HostRead) (act : State → BitVec 32 → State) : State := match read with
  | .ok b => act s (BitVec.ofNat 32 (leAt b 0 4))
  | .failed => s.ringError r 3
  | .poisoned _ => s.poisonReceived.ringError r 3

/-- The device reads a ring's line with RdShared. -/
def State.readLine (s : State) (r : Nat) : State :=
  (s.setRing r { s.ring r with reading := true }).sendCxl (.rdShared (s.rd (R.HIF_RING_LINE r)))

/-- A host store snoops the watched line: answered, dropped, across its event sill, and read again, but not in D3hot (spec/03
R67, R73). A snoop that comes while the line is being read makes it be read once more when that data returns (R75). -/
def execWatchedLineSnoop (r : Fin 1024) (s : State) : Out :=
  let x := s.ring r
  if x.shared = false ∧ x.reading = false ∨ s.host.ideBroken then .next s
  else
    let s := (s.count (ctrHif 3)).sendCxl (.rspIHitSE r)
    let s := (s.setRing r { x with shared := false, again := x.reading }).pulse 271 0 .event
    .next (if s.host.d3hot ∨ s.ringSt r ≠ 1 ∨ x.reading then s else s.readLine r)

/-- The watched line's data returns; the first read after the enable only records TAIL (spec/03 Table 3.5, step 1). -/
def execWatchedLineData (r : Fin 1024) (read : HostRead) (s : State) : Out :=
  let x := s.ring r
  if x.reading = false ∨ s.ringSt r ≠ 1 ∨ s.host.ideBroken then .next s
  else
    let s := s.setRing r { x with reading := false, shared := !x.again, first := false, again := false }
    let s := s.lineRead r read fun s tail =>
      if x.first then s.setRing r { s.ring r with lastTail := tail } else s.tailSeen r tail false
    .next (if x.again ∧ s.ringSt r = 1 ∧ s.host.d3hot = false then s.readLine r else s)

/-- The safety poll of a ring's line; in D3hot, where no descriptor is fetched, nothing is polled (DEDUCED, log entry 66). -/
def execWatchPoll (r : Fin 1024) (read : HostRead) (s : State) : Out :=
  if s.ringSt r ≠ 1 ∨ s.linkHeld ∨ s.fld R.HIF_WATCH_POLL F.HIF_WATCH_POLL_PERIOD = 0 ∨ (s.ring r).first then .next s
  else .next ((s.sendCxl (.rdCurr (s.rd (R.HIF_RING_LINE r)))).lineRead r read fun s tail => s.tailSeen r tail true)

/-! ## Ring control (spec/03 R86) -/

/-- The enable bit of a ring takes a value. -/
def State.ringBit (s : State) (r : Nat) (b : Bool) : State := s.setBit (R.HIF_RING_ENABLE (r / 64)) (r % 64) b

/-- A ring's check has passed: active, and its line is read. -/
def State.ringStart (s : State) (r : Nat) : State :=
  let s := (s.ringBit r true).setFld (R.HIF_RING_STATE r) F.HIF_RING_STATE_STATE 1
  (s.setRing r { limit := BitVec.ofNat 32 (s.ringHead r), first := true }).readLine r

/-- A ring's enable bit is cleared: it stops fetching and drains; the bit reads 1 until it is disabled. -/
def State.ringStop (s : State) (r : Nat) : State :=
  if s.ringSt r = 1 ∨ s.ringSt r = 3 then (s.setFld (R.HIF_RING_STATE r) F.HIF_RING_STATE_STATE 2).setRing r {} else s

/-- A draining ring's last item has retired. -/
def execRingDrained (r : Fin 1024) (s : State) : Out :=
  let off := R.HIF_RING_STATE r
  .next (if s.ringSt r = 2 ∧ s.fld off F.HIF_RING_STATE_OUTSTANDING = 0 then
      ((s.setFld off F.HIF_RING_STATE_STATE 0).setFld off F.HIF_RING_STATE_ERROR 0).ringBit r false
    else s)

/-- A completion ring's check has passed. -/
def State.cqStart (s : State) (c : Nat) : State :=
  let s := (s.setFld (R.HIF_CQ_CFG c) F.HIF_CQ_CFG_ENABLE 1).wr (R.HIF_CQ_STATE c) (F.HIF_CQ_STATE_PHASE.put 1)
  { s with host.cqHost := sdel s.host.cqHost c }

/-- Whether a ring that is not disabled, or a work item, names a completion ring. -/
def State.cqNamed (s : State) (c : Nat) : Bool :=
  ((List.range 1024).any fun r => s.ringSt r != 0 && s.ringCfg r F.HIF_RING_CFG_DEFAULT_CQ == c) ||
    s.host.items.any fun i => i.cq == c && !i.discard

/-! ## Arrival (spec/03 R78 to R81) -/

/-- KIND, TAG and FLAGS of a descriptor; version 2 reads as version 3 but for Table 3.8. -/
def Item.kind (i : Item) : Nat := byteAt i.bytes 1
/-- See `Item.kind`. -/
def Item.tag (i : Item) : Nat := leAt i.bytes 2 2
/-- See `Item.kind`. -/
def Item.v2 (i : Item) : Bool := byteAt i.bytes 0 / 16 == 2
/-- See `Item.kind`. -/
def Item.flag (i : Item) (k : Nat) : Bool := bitOf (byteAt i.bytes 6) k && !(k == 3 && i.v2)

/-- The byte offset of the first offending field of a descriptor; none where every field is right. -/
def State.badField (s : State) (r : Nat) (i : Item) : Option Nat :=
  let b := i.bytes
  let mismatch := s.ringCfg r F.HIF_RING_CFG_DOMAIN_CHECK = 1 ∧ i.domain.toNat ≠ s.ringCfg r F.HIF_RING_CFG_DOMAIN
  if byteAt b 0 % 16 ≠ 0 then some 0
  else if 2 < byteAt b 1 then some 1
  else if mismatch ∨ (i.v2 = false ∧ leAt b 4 2 % 16 ≠ 0) then some 4
  else if 32 ≤ byteAt b 6 then some 6
  else if i.v2 = false ∧ s.cqOn (byteAt b 7) = false then some 7
  else if leAt b 8 8 / 2 ^ 52 % 2 ^ 11 ≠ 0 then some 8
  else if leAt b 20 2 / 2 ^ 11 ≠ 0 ∨ (i.flag 1 ∧ leAt b 20 2 < 16) then some 20
  else none

/-- The peg that a descriptor's domain may not use, WAIT_PEG first. -/
def State.badPeg (s : State) (i : Item) : Option Nat :=
  let w := leAt i.bytes 28 2
  let g := leAt i.bytes 22 2
  if i.domain = 0 then none
  else if i.flag 3 ∧ s.pegOk true i.domain w = false then some w
  else if i.flag 2 ∧ s.pegOk true i.domain g = false then some g
  else none

/-- A descriptor is taken as a work item, done at once where a check refuses it. -/
def State.takeItem (s : State) (r : Nat) (b : Bytes) : State :=
  let off := R.HIF_RING_STATE r
  let v := byteAt b 0 / 16
  let own := byteAt b 7
  let cq := if v = 2 ∨ s.cqOn own = false then s.ringCfg r F.HIF_RING_CFG_DEFAULT_CQ else own
  let i : Item := { id := s.host.nextItem, ring := r, index := BitVec.ofNat 32 (s.ringHead r), bytes := slice b 0 64, cq := cq,
                    domain := if v = 2 then 0 else BitVec.ofNat 12 (leAt b 4 2 / 16) }
  let i := if v ≠ 2 ∧ v ≠ 3 then { i with stage := .done, status := 2, detail := v, trusted := false }
    else match s.badField r i with
      | some d => { i with stage := .done, status := 9, detail := d, trusted := false }
      | none => match s.badPeg i with
        | some p => { i with stage := .done, status := 5, detail := p, trusted := false }
        | none => i
  let s := ((s.incFld off F.HIF_RING_STATE_HEAD).incFld off F.HIF_RING_STATE_OUTSTANDING).incFld R.HIF_WORK_STATUS
    F.HIF_WORK_STATUS_OUTSTANDING
  { s with host.items := s.host.items ++ [i], host.nextItem := s.host.nextItem + 1 }.count (ctrHif 0)

/-- A descriptor read returns: HEAD advances, or the ring is in error. -/
def execDescriptorArrival (r : Fin 1024) (read : HostRead) (s : State) : Out :=
  let x := s.ring r
  if x.inFlight = 0 ∨ s.ringSt r ≠ 1 ∨ s.host.ideBroken then .next s
  else match read with
    | .failed => .next (s.ringError r 2)
    | .poisoned _ => .next (s.poisonReceived.ringError r 2)
    | .ok b => .next ((s.setRing r { x with inFlight := x.inFlight - 1 }).takeItem r b).fetchMore

/-! ## Admission (spec/03 R80) -/

/-- An item is admitted: it starts its turn at the command processor, under the RUN_LIMIT of that instant (spec/04 Table 4.21). -/
def State.queueItem (s : State) (i : Item) : State :=
  let s := s.updItem i.id fun x => { x with stage := .queued, runLimit := s.fld R.CMD_CTRL F.CMD_CTRL_RUN_LIMIT }
  if i.kind = 1 then { s with host.runQueue := s.host.runQueue ++ [i.id] } else s

/-- Items of a ring that arrived before one. -/
def State.earlier (s : State) (i : Item) : List Item :=
  s.host.items.filter fun x => x.ring == i.ring && decide (x.id < i.id) && !x.discard

/-- Admission in ring order, in D3hot too, of what has been fetched (DEDUCED, log entry 66): after FENCE only when every earlier item has completed; with WAIT parked until its condition
holds. -/
def execDescriptorAdmit (item : Nat) (s : State) : Out := match s.item? item with
  | none => .next s
  | some i =>
    let l := s.earlier i
    if i.stage ≠ .fetched ∨ (l.any fun x => x.stage == .fetched) ∨ (i.flag 4 ∧ l.isEmpty = false) then .next s
    else
      if i.flag 3 ∧ (s.peg i.waitPeg).toNat < leAt i.bytes 32 8 then .next (s.updItem item fun x => { x with stage := .parked })
      else .next (s.queueItem i)

/-- A parked descriptor's condition has come true. -/
def execParkedWaitSatisfied (item : Nat) (s : State) : Out := match s.item? item with
  | none => .next s
  | some i => .next (if i.stage = .parked ∧ i.hit then s.queueItem i else s)

/-- A wait's time runs out; a condition true at that instant prevails. -/
def execDescriptorWaitTimeout (item : Nat) (s : State) : Out := match s.item? item with
  | none => .next s
  | some i =>
    if i.stage ≠ .parked ∨ leAt i.bytes 30 2 = 0 then .next s
    else if i.hit then .next (s.queueItem i)
    else .next (s.itemDone item 6 ((s.peg i.waitPeg).toNat % 2 ^ 32) 0)

/-! ## Kinds (spec/03 R78, R85; spec/04 R131) -/

def execDescriptorNop (item : Nat) (s : State) : Out := match s.item? item with
  | none => .next s
  | some i => .next (if i.stage = .queued ∧ i.kind = 0 then s.itemDone item 0 0 0 else s)

/-- Free C contexts. -/
def State.freeC (s : State) : List (Fin 64) := (List.finRange 64).filter fun n => (s.ctx (.c n)).status == .free

/-- A RUN descriptor takes a context in admission order; which of the free ones is open (log entry 43). -/
def execDescriptorRun (item : Nat) (s : State) : Out := match s.item? item, s.host.runQueue with
  | some i, h :: rest =>
    if i.stage ≠ .queued ∨ h ≠ item then .next s
    else
      let l := s.freeC
      let (x, s) := s.draw
      match l[x.toNat % l.length]? with
      | none => .next s
      | some n =>
        let s := { s with host.runQueue := rest }.updItem item fun y => { y with stage := .started }
        let s := s.setCtx (.c n) { status := .loading, domain := i.domain, item := some item, runLimit := i.runLimit }
        let a := BitVec.ofNat 64 (leAt i.bytes 8 8)
        .next (if a.getLsbD 63 then s.sendCxl (.rdCurr (a &&& BitVec.ofNat 64 (2 ^ 52 - 1))) else s)
  | _, _ => .next s

/-- The image has been read: the program starts, or its item completes refused (spec/04 R96, R97, R131). -/
def execImageReadComplete (n : Fin 64) (read : HostRead) (errs : List LineErr) (s : State) : Out :=
  let c : Ctx := .c n
  let x := s.ctx c
  match x.status, x.item.bind s.item? with
  | .loading, some i =>
    let image := BitVec.ofNat 64 (leAt i.bytes 8 8)
    let entry := leAt i.bytes 16 4
    let (s, r) := s.checkImage image 3 entry 0 read errs
    match r with
    | .refused k => .next ((s.setCtx c {}).itemDone i.id 3 k 0)
    | .memory => .next ((s.setCtx c {}).itemDone i.id 8 1 0)
    | .ok version code data crc =>
      let y := { x with pc := entry, code := code, data := data, image := some (image, crc), version := BitVec.ofNat 8 version }
      let y := ((y.setReg 1 (BitVec.ofNat 64 (leAt i.bytes 40 8))).setReg 2 (BitVec.ofNat 64 (leAt i.bytes 48 8))).setReg 3
        (BitVec.ofNat 64 (leAt i.bytes 56 8))
      let y := y.setReg 4 (BitVec.ofNat 64 (i.tag + i.ring * 2 ^ 16 + i.domain.toNat * 2 ^ 32))
      .next ((s.startCtx c y).fetchCheck c)
  | _, _ => .next s

/-- The C context of a started item. -/
def State.ctxOfItem (s : State) (item : Nat) : Option (Fin 64) :=
  (List.finRange 64).find? fun n => (s.ctx (.c n)).item == some item

/-- An item is aborted by an ABORT descriptor's TAG; false where it has completed already, or has issued END. -/
def State.abortItem (s : State) (i : Item) (tag : Nat) : Bool × State :=
  let drop (s : State) : State := { s with host.runQueue := s.host.runQueue.filter fun k => k != i.id }
  match i.stage with
  | .done => (false, s)
  | .started => match s.ctxOfItem i.id with
    | none => (false, s)
    | some n =>
      let c : Ctx := .c n
      let x := s.ctx c
      if x.status = .loading then (true, (s.setCtx c {}).itemDone i.id 7 tag 0)
      else if x.status = .running ∨ x.status = .waiting then
        let s := s.setCtx c { x with status := .stopping, wait := none, stalled := false, endIssued := false }
        (true, (s.updItem i.id fun y => { y with status := 7, detail := tag, aborting := some (BitVec.ofNat 16 tag) }).tryEnd c)
      else (false, s)
  | _ => (true, (drop s).itemDone i.id 7 tag 0)

/-- Every item of the ring with the TAG in ARG0 is aborted; the RESULT counts them. The ABORT descriptor itself, and an item that
outlived a host interface reset, are not among them (DEDUCED, log entry 67). -/
def execDescriptorAbort (item : Nat) (s : State) : Out := match s.item? item with
  | none => .next s
  | some i =>
    if i.stage ≠ .queued ∨ i.kind ≠ 2 then .next s
    else
      let l := s.host.items.filter fun x => x.ring == i.ring && x.tag == leAt i.bytes 40 2 && x.id != item && !x.discard
      let (n, s) := l.foldl (fun (a : Nat × State) x =>
        let (b, s) := a.2.abortItem x i.tag
        (a.1 + b2n b, s)) (0, s)
      .next (s.itemDone item 0 0 (BitVec.ofNat 64 n))

/-! ## Completion (spec/03 R82 to R84) -/

/-- A work item retires. -/
def State.retire (s : State) (i : Item) : State :=
  let off := R.HIF_RING_STATE i.ring
  let w := s.fld R.HIF_WORK_STATUS F.HIF_WORK_STATUS_OUTSTANDING
  let s := s.setFld R.HIF_WORK_STATUS F.HIF_WORK_STATUS_OUTSTANDING (w - 1)
  let s := if i.discard then s
    else s.setFld off F.HIF_RING_STATE_OUTSTANDING (s.fld off F.HIF_RING_STATE_OUTSTANDING - 1)
  { s with host.items := s.host.items.filter fun x => x.id != i.id }.fetchMore

/-- The completion record of an item. -/
def State.record (s : State) (i : Item) (phase : Nat) : Bytes :=
  leBytes 2 i.tag ++ leBytes 2 i.ring ++ leBytes 1 i.status ++ leBytes 1 phase ++ leBytes 2 (i.domain.toNat * 16) ++
    leBytes 8 i.result.toNat ++ leBytes 8 s.stamp.toNat ++ leBytes 4 i.detail ++ leBytes 4 (s.ringHead i.ring)

/-- Whether a completion ring has room by the host count last read. -/
def State.cqRoom (s : State) (c : Nat) : Bool := decide ((s.cqTail c - sget 0 s.host.cqHost c).toNat < s.cqSize c)

/-- A record is written; TAIL advances, PHASE tells of the next. -/
def State.writeRecord (s : State) (i : Item) : State :=
  let c := i.cq
  let t := (s.cqTail c).toNat
  let n := s.cqSize c
  let phase := 1 - t / n % 2
  let s := (s.hostWrite (s.rd (R.HIF_CQ_BASE c) + BitVec.ofNat 64 (32 * (t % n))) (s.record i phase)).count (ctrHif 1)
  (s.setFld (R.HIF_CQ_STATE c) F.HIF_CQ_STATE_TAIL (t + 1)).setFld (R.HIF_CQ_STATE c) F.HIF_CQ_STATE_PHASE
    (1 - (t + 1) % 2 ^ 32 / n % 2)

/-- The peg add of a completion. -/
def State.signalPeg (s : State) (i : Item) : State :=
  if i.trusted ∧ i.flag 2 then s.addPeg (leAt i.bytes 22 2) (BitVec.ofNat 64 (leAt i.bytes 24 4)) else s

/-- A work item completes: record, peg add, MSI-X message, in this order; held while its completion ring is full, and, where a
record or a message is due, in D3hot;
discarded but for the peg add after a host interface reset (spec/03 R87). -/
def execWorkCompletion (item : Nat) (s : State) : Out := match s.item? item with
  | none => .next s
  | some i =>
    let due := i.flag 0 || i.status != 0 || !i.trusted
    if i.stage ≠ .done then .next s
    else if i.discard then
      let s := s.signalPeg i
      let s := if due then ((s.incFld R.HIF_WORK_STATUS F.HIF_WORK_STATUS_LOST).count (ctrHif 7)).hifError 4 else s
      .next (s.retire i)
    else if s.linkHeld ∧ (due ∨ i.trusted ∧ i.flag 1) then .next s
    else if due ∧ s.cqRoom i.cq = false then
      .next (s.setFld (R.HIF_CQ_STATE i.cq) F.HIF_CQ_STATE_STALLED 1)
    else
      let s := if due then s.writeRecord i else s
      let s := s.signalPeg i
      let s := if i.trusted ∧ i.flag 1 then s.raise (leAt i.bytes 20 2) else s
      .next (s.retire i)

/-- The host count of a full completion ring is read again; one outside the ring, a failed or a poisoned read is disregarded. -/
def execCqHeadptrReread (c : Fin 256) (read : HostRead) (s : State) : Out :=
  if s.flag (R.HIF_CQ_STATE c) F.HIF_CQ_STATE_STALLED = false ∨ s.linkHeld then .next s
  else
    let s := s.sendCxl (.rdCurr (s.rd (R.HIF_CQ_HEADPTR c)))
    match read with
    | .failed => .next s
    | .poisoned _ => .next s.poisonReceived
    | .ok b =>
      let v := BitVec.ofNat 32 (leAt b 0 4)
      let s := if (s.cqTail c - v).toNat ≤ s.cqSize c then { s with host.cqHost := sset 0 s.host.cqHost c.val v } else s
      .next (if s.cqRoom c then s.setFld (R.HIF_CQ_STATE c) F.HIF_CQ_STATE_STALLED 0 else s)

def execCqStallTimeout (c : Fin 256) (s : State) : Out :=
  .next (if s.flag (R.HIF_CQ_STATE c) F.HIF_CQ_STATE_STALLED then (s.count (ctrHif 6)).hifError 3 else s)

/-! ## Reset and link (spec/03 R66, R67, R87; spec/16 Table 16.7) -/

/-- An item at a host interface reset: admitted work runs on, the rest completes as ABORTED; none is reported. -/
def Item.hostReset (i : Item) : Item :=
  if i.stage = .fetched ∨ i.stage = .parked then
    { i with stage := .done, status := 7, detail := 0xFFFF, result := 0, discard := true }
  else { i with discard := true }

/-- The registers of the HIF block return to their reset values, but for HIF_WORK_STATUS and HIF_ERR_STATUS. -/
def State.hifRegs (s : State) : State :=
  { s with regs := s.regs.filter fun x =>
      !(decide (0x10000 ≤ x.1) && decide (x.1 < 0x20000)) || x.1 == R.HIF_WORK_STATUS || x.1 == R.HIF_ERR_STATUS }

/-- A host interface reset: PERST_N, hot reset, link down. -/
def State.hostReset (s : State) : State :=
  let s := s.hifRegs
  let ring : CheckKind → Bool
    | .ringEnable _ | .cqEnable _ => true
    | _ => false
  let s := s.dropChecks ring
  { s with
    host.rings := [], host.cqHost := [], host.lastServed := [], host.snoopFilter := []
    host.items := s.host.items.map Item.hostReset
    host.d3hot := false, host.aerInternal := false, host.rasUncorrectable := false, host.viral := false
    host.ideBroken := false, host.eid := sdel s.host.eid 0, host.msixTable := []
    sec.sessions := [], sec.ideKeys := [], sec.ideActive := [], sec.transfer := none }

/-- The link goes down: a host interface reset (spec/16 R431). -/
def execLinkDown (s : State) : Out := .next s.hostReset

/-- PERST_N falls: past t1, and outside a power sequence, the host interface is reset (spec/01 R42, R44). -/
def execPerstNAssert (s : State) : Out :=
  .next { (if s.board.place = .running then s.hostReset else s) with board.perstN := false }

/-- The combinations to try, in order, as (x16, rate): the permitted one, the same width at the next lower rate, then x8 from the
permitted rate down (spec/03 R66). Rates 0, 1, 2 are 32, 64, 128 GT/s. -/
def trainOrder (x16 : Bool) (rate : Nat) : List (Bool × Nat) :=
  let down := (List.range (rate + 1)).reverse
  (if x16 then (down.take 2).map fun r => (true, r) else []) ++ down.map fun r => (false, r)

/-- The highest rate and whether x16 are permitted by straps and HIF_LINK_CTRL (spec/01 Table 1.8, spec/03 Table 3.14). -/
def State.linkLimits (s : State) : Bool × Nat :=
  let st := s.fld R.GLB_BOOT F.GLB_BOOT_STRAPS
  let rate := if bitOf st 0 then 1 else 2
  let mr := s.fld R.HIF_LINK_CTRL F.HIF_LINK_CTRL_MAX_RATE
  let mw := s.fld R.HIF_LINK_CTRL F.HIF_LINK_CTRL_MAX_WIDTH
  (!bitOf st 1 && mw != 1, if mr = 0 then rate else min rate (mr - 1))

/-- Training: the first combination of the order that trains, bit 3 × (x16) + rate of `trains`. -/
def State.train (s : State) (trains : BitVec 6) (lopt : Bool) : Option State :=
  let (x16, rate) := s.linkLimits
  ((trainOrder x16 rate).find? fun c => trains.getLsbD (3 * b2n c.1 + c.2)).map fun c =>
    let off := R.HIF_LINK_STATUS
    let s := (s.setFld off F.HIF_LINK_STATUS_UP 1).setFld off F.HIF_LINK_STATUS_RATE (c.2 + 1)
    let s := s.setFld off F.HIF_LINK_STATUS_WIDTH (1 + b2n c.1)
    s.setFld off F.HIF_LINK_STATUS_LOPT (b2n (lopt && s.flag R.HIF_LINK_CTRL F.HIF_LINK_CTRL_LOPT_ALLOW))

/-- RETRAIN, which reads 1 until the training ends: the link trains again with the present limits; without success it is down. -/
def execLinkRetrain (trains : BitVec 6) (lopt : Bool) (s : State) : Out :=
  let up := s.flag R.HIF_LINK_STATUS F.HIF_LINK_STATUS_UP
  if up = false ∧ s.flag R.HIF_LINK_CTRL F.HIF_LINK_CTRL_RETRAIN = false ∨ s.board.perstN = false ∨ s.board.place ≠ .running then .next s
  else
    let s := (s.incSat R.HIF_LINK_STATUS F.HIF_LINK_STATUS_RETRAINS).count (ctrHif 15)
    let s := s.setFld R.HIF_LINK_CTRL F.HIF_LINK_CTRL_RETRAIN 0
    match s.train trains lopt with
    | some s => .next s
    | none => .next (if up then s.hostReset else s)

def execD3hotEntry (s : State) : Out := .next { s with host.d3hot := true }

/-- On return to D0 each enabled ring's line is read again. -/
def execD0Return (s : State) : Out :=
  if s.host.d3hot = false then .next s
  else
    let s := { s with host.d3hot := false }
    .next (((List.range 1024).filter fun r => s.ringSt r == 1).foldl (fun s r => s.readLine r) s).fetchMore

/-- An IDE integrity check fails: no stream is in force, and the link is unusable, until keys are established again (spec/03
Table 3.13). -/
def execIdeFailure (s : State) : Out :=
  let s := ((s.hifError 5).count (ctrHif 14)).setFld R.HIF_LINK_STATUS F.HIF_LINK_STATUS_IDE_ACTIVE 0
  .next { s with sec.ideKeys := [], sec.ideActive := [], host.ideBroken := true }

/-! ## MCTP (spec/03 R89) -/

/-- An MCTP response leaves on its binding, and is counted. -/
def State.answerMctp (s : State) (i3c : Bool) (f : Bytes) : State := (s.sendMctp i3c f).count (ctrHif 11)

/-- The message types of R89 by their DMTF codes: control, PLDM, SPDM, vendor-defined PCI (PRESUMED, log entry 46). -/
def mctpTypes : List Nat := [0x00, 0x01, 0x05, 0x7E]

/-- An SPDM answer holds what the spec fixes (spec/15 R413; layouts of DSP0274, log entry 46): VERSION names versions 1.2 and 1.3;
CAPABILITIES has MEAS_CAP without signature, PSK_CAP, ENCRYPT_CAP, MAC_CAP and KEY_UPD_CAP, and of PSK_CAP's two values a free one. -/
def spdmFixed (msg free : Bytes) : Bytes :=
  if byteAt msg 0 % 128 ≠ 5 then free
  else match byteAt msg 2 with
    | 0x84 => beBytes 1 5 ++ beBytes 1 0x10 ++ beBytes 1 4 ++ beBytes 3 0 ++ beBytes 1 2 ++ leBytes 2 0x1200 ++ leBytes 2 0x1300
    | 0xE1 =>
      let psk := if bitOf (byteAt free 9) 3 then 0x800 else 0x400
      beBytes 1 5 ++ beBytes 1 (byteAt msg 1) ++ beBytes 1 0x61 ++ beBytes 3 0 ++ slice free 6 1 ++ beBytes 2 0 ++
        leBytes 4 (0x8 + 0x40 + 0x80 + psk + 0x4000) ++ slice free 13 8
    | _ => free

/-- An MCTP message on CXL.io or HOST_I3C: one that is malformed, or whose type is none of R89, is dropped; a control message that
sets an endpoint ID gives it to its binding; the rest is answered on the binding it came on, in arrival order. What an answer holds
is for the DMTF specifications, and is a free value; the commands of chapters 15 and 18 that a message carries are commands of
their own (log entry 46). While the Wellhead restarts the answer is not ready. -/
def execMctpMessage (i3c wellFormed : Bool) (msg : Bytes) (s : State) : Out :=
  if wellFormed = false ∨ mctpTypes.contains (byteAt msg 0 % 128) = false then .next ((s.count (ctrHif 12)).hifError 8)
  else
    let s := s.count (ctrHif 10)
    .next (if s.cfg.wellheadDown then s.answerMctp i3c []
      else
        let s : State := if byteAt msg 0 % 128 = 0 ∧ byteAt msg 2 = 1 then
            { s with host.eid := sset 0 s.host.eid (b2n i3c) (BitVec.ofNat 8 (byteAt msg 4)) }
          else s
        s.answerMctp i3c (spdmFixed msg (Config.mctpResponse (sget 0 s.host.eid (b2n i3c)) msg)))

end Sys2Proof.Machine
end

