-- ==== Sys2Proof/Machine/Bays.lean ====
section
/-! DEFINITION. Bays: what keeps them active, descent into their target state, waking, rail monitors, and what the loss of a
bay's state does (spec/14 R378 to R386). -/

namespace Sys2Proof.Machine

/-! ## Keep conditions and targets (spec/14 R380, R381) -/

/-- The deepest state that a bay may use: 0 active, 1 retention, 2 gated, 3 dark (spec/14 Table 14.4). -/
def bayDeepest (n : Nat) : Nat :=
  if 46 ≤ n ∧ n ≤ 48 then 0 else if 36 ≤ n ∧ n < 44 then 3 else if 28 ≤ n ∧ n < 36 ∨ n = 45 ∨ n = 49 then 1 else 2

/-- The deepest state whose exit maximum a tolerance in microseconds covers. -/
def tolState (tol : Nat) : Nat := if tol < 2 then 0 else if tol < 50 then 1 else if tol < 3000 then 2 else 3

/-- The exit maximum of a state, in 0.1 us (spec/14 Table 14.3). -/
def exitMax (st : Nat) : Nat := [0, 20, 500, 30000].getD st 0

/-- The target of a bay. -/
def State.bayTarget (s : State) (n : Nat) : Nat := min (bayDeepest n) (tolState (s.fld (R.PWR_BAY_CTRL n) F.PWR_BAY_CTRL_TOL))

/-- Tenons of section k of a quadrant. -/
def sectionTenons (k : Nat) : List (Nat × Nat) := (List.range 30).flatMap fun r => (List.range 8).map fun c => (r, 8 * k + c)

/-- Whether an index of a tenon lies in section k of a quadrant. -/
def inSection (q k t : Nat) : Bool := t / 960 == q && t % 32 / 8 == k

/-- Whether a key of a context is that of a tenon context of a section. -/
def keyInSection (q k key : Nat) : Bool := decide (8256 ≤ key) && inSection q k ((key - 8256) / 4)

/-- Whether a long operation is an XMOVE that reaches a tenon of a section. -/
def LongOp.reaches (o : LongOp) (q k : Nat) : Bool := match o.kind with
  | .xmove _ target _ _ _ _ =>
    target.toNat / 2 ^ 62 == 1 && bitsOf target.toNat 61 60 == q && bitsOf target.toNat 54 50 / 8 == k
  | _ => false

/-- Whether a tenon section is kept active (spec/10 R297). -/
def State.sectionKept (s : State) (q k : Nat) : Bool :=
  s.dxn.ctxs.any (fun x => keyInSection q k x.1 && x.2.status != .free) ||
    (sectionTenons k).any (fun t => s.flag (R.TEN_TENON q t.1 t.2) F.TEN_TENON_IN_TRUSS) ||
    s.dxn.longOps.any (fun o => o.reaches q k) ||
    s.ten.streams.any fun x => inSection q k (x.2.tenonPort / 4) && !x.2.spent

/-- Whether a bay is active. -/
def State.bayActive (s : State) (n : Nat) : Bool := s.bayState n == 0

/-- Whether a circuit of the active bank has an index in an optical group's engines: index i is pair 6 or 7 of an engine. -/
def State.groupCircuit (s : State) (g : Nat) : Bool :=
  s.active.any fun c => c.i / 2 / 4 == g || c.o / 2 / 4 == g

/-- Whether a keep condition of a bay holds (spec/14 Table 14.4). -/
def State.bayKept (s : State) (n : Nat) : Bool :=
  if n < 28 then
    let q := n / 7
    if n % 7 < 4 then s.sectionKept q (n % 7)
    else if n % 7 = 4 then (List.range 512).any fun i => s.portEnabled (512 * q + i)
    else if n % 7 = 5 then s.flag (R.BSN_CTRL (2 * q)) F.BSN_CTRL_ENABLE || s.flag (R.BSN_CTRL (2 * q + 1)) F.BSN_CTRL_ENABLE
    else s.bayActive (7 * q + 4) || s.bayActive (7 * q + 5) || decide (s.quadFree q < 393216)
  else if n < 36 then false
  else if n < 44 then
    let g := n - 36
    (List.range 256).any (fun i => s.portEnabled (256 * g + i)) || s.groupCircuit g ||
      (List.range 4).any fun i => (sget {} s.lasers (4 * g + i)).level == .checking
  else if n = 44 then s.flag R.HIF_LINK_STATUS F.HIF_LINK_STATUS_UP
  else if n = 45 then false
  else if n = 49 then decide (2 ≤ ((List.range 4).filter fun q => (List.range 7).any fun k => s.bayActive (7 * q + k)).length)
  else true

/-- The onset of a keep condition wakes a bay that rests (spec/14 R382). -/
def State.wakeKept (s : State) : State :=
  s.wakeBays ((List.range 50).filter fun n => s.resting n && s.bayKept n)

/-! ## Counters of a bay (spec/18 R468) -/

/-- Keys from a first one on. -/
def keysFrom (block first n : Nat) : List Nat := (List.range n).map fun i => ctrKey block (first + i)

/-- The counters of a bay (log entry 44). -/
def bayCounters (n : Nat) : List Nat :=
  if n < 28 then
    let q := n / 7
    if n % 7 < 4 then (sectionTenons (n % 7)).flatMap fun t => keysFrom 6 (4 * tenonIx q t.1 t.2) 4
    else if n % 7 = 4 then keysFrom 3 (64 * q) 64
    else if n % 7 = 5 then keysFrom 5 (42 * q) 42
    else keysFrom 4 (3584 * q) 3584 ++ keysFrom 4 (14336 + 16384 * q) 16384
  else if n < 36 then keysFrom 9 (3 * (n - 28)) 3
  else if n < 44 then keysFrom 8 (768 * (n - 36)) 768
  else if n = 44 then keysFrom 1 0 16
  else if n = 45 then keysFrom 9 24 24
  else []

/-- A bay drains its accumulators as it enters a resting state. -/
def State.drainBay (s : State) (n : Nat) : State :=
  let l := (bayCounters n).filter fun k => sget {} s.cnt.counters k != {}
  { s with cnt.counters := l.foldl (fun m k => sset {} m k (sget {} m k).visit) s.cnt.counters }

/-- A bay that loses its state loses the counts since the reader's last visit, and its counters are marked LOWER. -/
def State.lowerBay (s : State) (n : Nat) : State :=
  let low (m : Sparse Counter) (k : Nat) : Sparse Counter :=
    let c := sget {} m k
    sset {} m k { c with acc := 0, lower := true }
  { s with cnt.counters := (bayCounters n).foldl low s.cnt.counters }

/-! ## Loss of a bay's state (spec/14 R386, Table 14.5) -/

/-- The tenon context of a key. -/
def tenonCtx (key : Nat) : Ctx :=
  let t := (key - 8256) / 4
  .t (Fin.ofNat 4 (t / 960)) (Fin.ofNat 30 (t / 32 % 30)) (Fin.ofNat 32 t) (Fin.ofNat 4 key)

/-- A context ends as if it had raised MEMORY at its PC. -/
def State.loseContext (s : State) (c : Ctx) : State :=
  let x := s.ctx c
  let s := if x.status = .loading then s.setCtx c { x with status := .running } else s
  s.except c 0x10 x.pc 0

/-- A section loses its contexts, its trusses become faulted, and its local stores read zero. -/
def State.loseSection (s : State) (q k : Nat) : State :=
  let s := (s.dxn.ctxs.filter fun x => keyInSection q k x.1).foldl (fun s x => s.loseContext (tenonCtx x.1)) s
  let s := (s.ten.trusses.filter fun x => x.1 / 256 == q && x.2.stages.any fun p => p.2 / 8 == k).foldl
    (fun s x => s.trussFault x.1) s
  { s with dxn.localStore := s.dxn.localStore.filter fun x => !inSection q k (x.1 / 262144) }

/-- What the loss of a bay's state does. -/
def State.loseBay (s : State) (n : Nat) : State :=
  let s := s.lowerBay n
  if n < 28 then
    let q := n / 7
    if n % 7 < 4 then s.loseSection q (n % 7)
    else if n % 7 = 4 then
      (List.range 512).foldl (fun s i => if s.portEnabled (512 * q + i) then s.goDown (512 * q + i) 1 else s) s
    else if n % 7 = 5 then (s.abortWhere (2 * q) 8 fun _ => true).abortWhere (2 * q + 1) 8 fun _ => true
    else s.loseBuffer q
  else if n < 36 then s.poison (hbmStack * (n - 28)) hbmStack
  else if n < 44 then
    let g := n - 36
    let s := (List.range 4).foldl (fun s i => s.ringsLost (4 * g + i)) s
    (List.range 256).foldl (fun s i => s.pcsLost (256 * g + i) 0) s
  else if n = 44 then s.hostReset
  else if n = 45 then if s.ddrSize = 0 then s else s.poison ddrBase s.ddrSize
  else s

/-! ## Descent, waking (spec/14 R381 to R385) -/

/-- The laser sources of an optical group change their level; one that is off or being checked or ramped stays as it is. -/
def State.groupLasers (s : State) (g : Nat) (old new : LaserLevel) : State :=
  (List.range 4).foldl (fun s i =>
    let e := 4 * g + i
    let l := sget {} s.lasers e
    if l.level = old then { s.lasSet e new with lasers := sset {} s.lasers e { l with level := new } } else s) s

/-- A bay enters a resting state. -/
def State.bayEnter (s : State) (n st : Nat) : State :=
  let s := (if st ≤ 2 then s.drainBay n else s).setBay n st
  if st = 3 then
    let g := n - 36
    (List.range 4).foldl (fun s i => s.ringsLost (4 * g + i)) ((s.groupLasers g .setpoint .lowered).groupLasers g .ramping .lowered)
  else s

/-- An idle bay without keep condition enters the next deeper state after its dwell. -/
def execBayDwellExpiry (n : Fin 50) (s : State) : Out :=
  let st := s.bayState n
  if st < s.bayTarget n ∧ s.bayKept n = false then .next (s.bayEnter n (st + 1)) else .next s

/-- A resting bay begins to wake, as a keep condition or what reaches it asks. -/
def execBayWake (n : Fin 50) (s : State) : Out := .next (s.wakeBay n)

/-- Writes of the OPT block that waited for an optical group take effect (spec/14 R385). -/
def State.applyL (s : State) (g : Nat) : State :=
  let mine (x : Nat × Word) : Bool := (x.1 - R.OPT_CTRL 0) / (R.OPT_CTRL 1 - R.OPT_CTRL 0) / 4 == g
  let due := s.cfg.pendingL.filter mine
  let s := { s with cfg.pendingL := s.cfg.pendingL.filter fun x => !mine x }
  due.foldl (fun s x =>
    let e := (x.1 - R.OPT_CTRL 0) / (R.OPT_CTRL 1 - R.OPT_CTRL 0)
    if x.1 = R.OPT_CTRL e then s.relockEngine e
    else if x.1 = R.OPT_MEASURE e then s.measureStart e
    else s.clearLanes e x.2) s

/-- An optical group that has left the dark state: its sources are at their setpoints and its rings lock. -/
def State.leaveDark (s : State) (g : Nat) : State :=
  (List.range 4).foldl (fun s i => if s.engineLit (4 * g + i) then s.ringsStart (4 * g + i) else s.engineStatus (4 * g + i))
    (s.groupLasers g .lowered .setpoint)

/-- A bay has woken: LAST_EXIT, WAKES, WAKE_LATE beyond the exit maximum, and who waited proceeds; a failed restore from the
gated state loses the bay's state. The duration is in 0.1 us. -/
def execBayWakeDone (n : Fin 50) (duration : Nat) (restored : Bool) (s : State) : Out :=
  if s.pwr.waking.contains n.val = false ∨ s.bayState n ≠ 4 then .next s
  else
    let old := sget 0 s.pwr.saved n.val
    let off := R.PWR_BAY_STATUS n
    let s := if 2 * exitMax old < duration then s.splLate n else s
    let s := { s with pwr.waking := s.pwr.waking.filter fun m => m != n.val, pwr.saved := sset 0 s.pwr.saved n.val 0 }
    let s := ((s.setBay n 0).setFld off F.PWR_BAY_STATUS_LAST_EXIT (min duration 0xFFFF)).incFld off F.PWR_BAY_STATUS_WAKES
    let s := if exitMax old < duration then s.thmEvent 0xC n 0 0 0 else s
    let s := if old = 2 ∧ restored = false then s.loseBay n else s
    let s := if 36 ≤ n.val ∧ n.val < 44 then (if old = 3 then s.leaveDark (n - 36) else s).applyL (n - 36) else s
    .next s.splWoken.wakeKept

/-- The state that a bay is in, or that it is leaving. -/
def State.bayHeld (s : State) (n : Nat) : Nat := if s.bayState n = 4 then sget 0 s.pwr.saved n else s.bayState n

/-- TOL takes a value: a bay in a state whose exit maximum it no longer covers wakes at once (spec/14 R383). -/
def State.tolWritten (s : State) (n : Nat) : State :=
  if s.resting n ∧ tolState (s.fld (R.PWR_BAY_CTRL n) F.PWR_BAY_CTRL_TOL) < s.bayState n then s.wakeBay n else s

/-! ## Rail monitors (spec/14 R378) -/

/-- A bay is held in reset: RAIL_RESET, the Ledger, and the loss of its state. -/
def execRailMonitorTrip (n : Fin 50) (s : State) : Out :=
  if s.bayState n = 5 ∨ s.bayState n = 6 then .next s
  else
    let s := { s with pwr.waking := s.pwr.waking.filter fun m => m != n.val, pwr.saved := sset 0 s.pwr.saved n.val 0 }
    let s := ((s.setBay n 6).thmEvent 0xB n 0 0 0).journal 8 n []
    let s := (s.ldgAdd (ldgBay n + 20) 2 1).loseBay n
    .next s.splWoken

/-- A bay is released and restarts cold; an optical group's rings lock where its sources are lit. -/
def execRailMonitorRelease (n : Fin 50) (s : State) : Out :=
  if s.bayState n ≠ 6 then .next s
  else
    let s := s.setBay n 0
    let s := if 36 ≤ n.val ∧ n.val < 44 then (s.leaveDark (n - 36)).applyL (n - 36) else s
    .next s.splWoken.wakeKept

end Sys2Proof.Machine
end

