-- ==== Sys2Proof/Machine/Reset.lean ====
section
/-! DEFINITION. What resets and the ends of power keep and clear (spec/16 R431, R432; spec/01 R40 to R43), and the Ledger's
return from its copies (spec/18 R457). -/

namespace Sys2Proof.Machine

/-! ## The Ledger's copies -/

/-- Whether a STATE copy's MAGIC, LAYOUT and CRC are right. -/
def ldgCopyOk (c : Sparse Byte) : Bool :=
  leNat (sbytes c 0 4) == 0x4C584C48 && leNat (sbytes c 4 1) == 2 && leNat (sbytes c 8192 4) == crc32c (sbytes c 0 8192)

/-- The copy that governs (1 A, 2 B) and its bytes: the one of the higher SEQUENCE among those that are right. -/
def Ldg.governing (l : Ldg) : Option (Nat × Sparse Byte) :=
  let a := ldgCopyOk l.copyA
  let b := ldgCopyOk l.copyB
  if a && (!b || decide (leNat (sbytes l.copyB 8 8) ≤ leNat (sbytes l.copyA 8 8))) then some (1, l.copyA)
  else if b then some (2, l.copyB) else none

/-- A fresh state, with SEQUENCE 0. -/
def ldgFresh : Sparse Byte := swrite (swrite [] 0 (leBytes 4 0x4C584C48)) 4 (leBytes 1 2)

/-- What the Ledger holds after a restart: its copies, its CONTROL record and its journal; the live state is that of the
governing copy, and after power-up its life clock too, which a module reset leaves where it stands. -/
def Ldg.restarted (l : Ldg) (powerOn : Bool) : Ldg :=
  let c := match l.governing with
    | some x => x.2
    | none => ldgFresh
  let life := leNat (sbytes (if powerOn then c else l.live) 16 8)
  { live := swrite c 16 (leBytes 8 life), copyA := l.copyA, copyB := l.copyB, term := l.term, sigNext := l.sigNext
    sigMark := l.sigMark, repairChanges := l.repairChanges, controlSeq := l.controlSeq, controlOkA := l.controlOkA
    controlOkB := l.controlOkB, journal := l.journal, bootedVersions := l.bootedVersions, gapDue := l.gapDue
    laserFirst := l.laserFirst, lifeAt := leNat (sbytes c 16 8) }

/-! ## Scope of power-on and module reset (spec/16 Table 16.7) -/

/-- A source after a reset: disabled and unpaired; a report of R37 stands. -/
def Laser.restarted (l : Laser) : Laser :=
  { present := l.present, serial := l.serial, passed := l.passed, report := l.report, barred := l.barred }

/-- The root of trust after a reset: fuses, firmware store and pending bank stay; sessions, keys and transfers are gone. -/
def Sec.restarted (x : Sec) : Sec :=
  { keyRevoked := x.keyRevoked, svnFuse := x.svnFuse, indexEpoch := x.indexEpoch, bankA := x.bankA, bankB := x.bankB
    recovery := x.recovery, ctlA := x.ctlA, ctlB := x.ctlB }

/-- Every register, table, context and queue at its reset value; fuses, firmware, the Ledger as last committed and what has
been sent are kept. The Wellhead is down until its phase ends, and a new ML-KEM key pair is drawn. -/
def State.restart (s : State) (cause resets : Nat) : State :=
  let s := s.lasAllOff
  let s : State := { board := { s.board with alertN := true, ppsOut := false }
                     lasers := s.lasers.foldl (fun m x => sset {} m x.1 x.2.restarted) [], out := s.out
                     sec := s.sec.restarted, ldg := s.ldg.restarted (cause == 1), free := s.free, pending := s.pending
                     cfg := { wellheadDown := true } }
  let (k, s) := s.draw
  let s : State := { s with sec.kem := k }
  (s.setFld R.GLB_BOOT F.GLB_BOOT_CAUSE cause).setFld R.GLB_BOOT F.GLB_BOOT_MODULE_RESETS resets

/-! ## Stopping work -/

/-- Every fabric port is down. -/
def State.portsDown (s : State) : State :=
  (List.range 2048).foldl (fun s p =>
    if s.portState p = psDisabled ∧ s.portEnabled p = false then s
    else (s.setFld (prtState p) F.PRT_PORT_STATE_STATE psDisabled).setFld (prtCtrl p) F.PRT_PORT_CTRL_ENABLE 0) s

/-- Data-path work stops, and every bay but the Wellhead, security and Ledger, and time base is off. -/
def State.shed (s : State) : State :=
  let s := s.portsDown
  let s := (List.range 50).foldl (fun s n =>
    if 46 ≤ n ∧ n ≤ 48 then s else s.setFld (R.PWR_BAY_STATUS n) F.PWR_BAY_STATUS_STATE 5) s
  let s := (s.setFld R.HIF_LINK_STATUS F.HIF_LINK_STATUS_UP 0).setFld R.GLB_STATUS F.GLB_STATUS_FWD_ACTIVE 0
  { s with sills := [], injecting := none, host := {}, dxn := {}, ports := [], fwd := {}, swc := {}, bsn := {}, ten := {}
           spl := {}, pwr := {}, board.alertN := true, cfg.checks := [], cfg.pendingL := [] }

/-- A power-fail warning (spec/01 R41, R42): the sequence goes on from the step an orderly power-down has reached, and the
Ledger commits once. Before the bulk capacitance is charged, charging stops. -/
def State.powerFail (s : State) : State := match s.board.place with
  | .off | .powerFail => s
  | .charging => { s with board.place := .off }
  | .powerDown => { s with board.place := .powerFail, board.pwrGood := false }
  | .alwaysOn | .running | .moduleReset =>
    ({ s.shed with board.place := .powerFail, board.pwrGood := false, ldg.fromPfail := true }).commitLedger

/-- The commit before a module reset, after one that is under way. -/
def State.commitBefore (s : State) : State :=
  let s := if s.ldg.busy then { s with ldg.again := false }.commitWrite else s
  { s with ldg.fromPfail := false, ldg.again := false }.commitWrite

/-- A module reset starts: ports down, a Ledger commit, and Table 16.7 (spec/01 R43). -/
def State.moduleReset (s : State) (cause : Nat) : State :=
  let n := min 0xFFFF (s.fld R.GLB_BOOT F.GLB_BOOT_MODULE_RESETS + 1)
  let s := (s.portsDown.commitBefore).restart cause n
  { s with board.place := .moduleReset }

end Sys2Proof.Machine
end

