-- ==== Sys2Proof/Machine/Sensors.lean ====
section
/-! DEFINITION. The sensors' sample of every 10 us: readings, pacing by heat and by input power, temperature steps, the
junction limit, THERM_N, the hold margin and the hardware trip (spec/14 R387 to R392; spec/01 R23; spec/11 R314). -/

namespace Sys2Proof.Machine

/-- The reading of a sensor, in 0.125 degrees; none for 0x8000. -/
def State.temp (s : State) (i : Nat) : Option Int :=
  let t := s.sfld (R.THM_SENSOR i) F.THM_SENSOR_TEMP
  if t = -32768 then none else some t

/-- A sample enters THM_SENSOR. -/
def State.takeTemp (s : State) (i : Nat) (raw : BitVec 16) : State :=
  let off := R.THM_SENSOR i
  let s := s.setFld off F.THM_SENSOR_TEMP raw.toNat
  if raw = 0x8000 then s
  else
    let s := if s.sfld off F.THM_SENSOR_MAX < raw.toInt then s.setFld off F.THM_SENSOR_MAX raw.toNat else s
    if raw.toInt < s.sfld off F.THM_SENSOR_MIN then s.setFld off F.THM_SENSOR_MIN raw.toNat else s

/-- Readings of the junction sensors, with their numbers. -/
def State.junctions (s : State) : List (Nat × Int) :=
  (List.range 50).filterMap fun i => (s.temp i).map fun t => (i, t)

/-- The first of the highest of a list. -/
def hottest : List (Nat × Int) → Option (Nat × Int)
  | [] => none
  | x :: t => match hottest t with
    | some y => some (if x.2 < y.2 then y else x)
    | none => some x

/-- What a sample adds to the Ledger: sums for the second's means, and MAX_C (spec/18 R463, R464). -/
def State.ledgerTemps (s : State) : State :=
  let s := s.junctions.foldl (fun s x =>
    let off := ldgBay x.1 + 22
    let s : State := { s with ldg.tempSum := sset 0 s.ldg.tempSum x.1 (sget 0 s.ldg.tempSum x.1 + x.2) }
    if signedOf 16 (s.ldg? off 2) < x.2 then s.ldgPut off 2 (word16 x.2) else s) s
  { s with
    ldg.samples := s.ldg.samples + 1
    ldg.vcoreSum := (List.range 4).foldl
      (fun m q => sset 0 m q (sget 0 m q + s.fld (R.PWR_VCORE q) F.PWR_VCORE_SETPOINT)) s.ldg.vcoreSum }

/-- TEMP_STEP of a junction: its samples of the last 1 ms differ by STEP_C or more, and no step was recorded within 10 ms
(spec/14 R392). -/
def State.tempStep (s : State) (x : Nat × Int) : State :=
  let l := (x.2 :: sget [] s.pwr.history x.1).take 100
  let hold := sget 0 s.pwr.stepHold x.1
  let s : State := { s with pwr.history := sset [] s.pwr.history x.1 l, pwr.stepHold := sset 0 s.pwr.stepHold x.1 (hold - 1) }
  let hi := l.foldl max x.2
  let lo := l.foldl min x.2
  let c := max 5 (min 50 (s.fld R.THM_CTRL F.THM_CTRL_STEP_C))
  if hold = 0 ∧ 8 * (c : Int) ≤ hi - lo then
    let later := if l.findIdx (· == hi) < l.findIdx (· == lo) then hi else lo
    let earlier := hi + lo - later
    let s : State := { s with pwr.stepHold := sset 0 s.pwr.stepHold x.1 999 }
    let s := (s.thmEvent 1 x.1 (word16 earlier) (word16 later) 0).setFld R.THM_STATUS F.THM_STATUS_STEP 1
    s.journal 7 x.1 (leBytes 2 (word16 earlier) ++ leBytes 2 (word16 later))
  else s

/-- The input power against its cap: the power pace falls by 4 at each sample above it, and rises by 1 every 100 us below it
by 100 W (spec/14 R389). -/
def State.powerPaceStep (s : State) (watts : Nat) : State :=
  let cap := max 1500 (min 3600 (s.fld R.PWR_CTRL F.PWR_CTRL_CAP_W))
  let p := s.pwr.powerPace
  if cap < watts then
    let n := max 8 (p - 4)
    let s : State := { s with pwr.powerPace := n, pwr.capSamples := 0 }
    if p = 64 then s.thmEvent 9 0 0 0 n else s
  else if watts + 100 < cap ∧ p < 64 then
    if s.pwr.capSamples + 1 < 10 then { s with pwr.capSamples := s.pwr.capSamples + 1 }
    else
      let s : State := { s with pwr.powerPace := p + 1, pwr.capSamples := 0 }
      if p + 1 = 64 then s.thmEvent 0xA 0 0 0 64 else s
  else { s with pwr.capSamples := 0 }

/-- The thermal pace of a section, kept as its distance from 64 (spec/14 R388): `below` counts the samples since the reading
fell below the limit by 2 degrees or since the last rise. -/
def State.thermalStep (s : State) (n : Nat) (t : Int) : State :=
  let limit : Int := 8 * (max 80 (min 103 (s.fld R.THM_CTRL F.THM_CTRL_PACE_LIMIT)) : Nat)
  let d := sget 0 s.pwr.pace n
  let k := sget 0 s.pwr.below n
  if limit ≤ t then { s with pwr.pace := sset 0 s.pwr.pace n (min 56 (d + 8)), pwr.below := sset 0 s.pwr.below n 0 }
  else if t < limit - 16 then
    if k < 10 then { s with pwr.below := sset 0 s.pwr.below n (k + 1) }
    else { s with pwr.pace := sset 0 s.pwr.pace n (d - 1), pwr.below := sset 0 s.pwr.below n 1 }
  else { s with pwr.below := sset 0 s.pwr.below n 0 }

/-- The pace of a section becomes the lower of its thermal pace and the power pace: TEN_PACE, PACED, UNPACED (spec/10 R307;
spec/14 R388). -/
def State.paceSection (s : State) (q k : Nat) : State :=
  let n := 7 * q + k
  let off := R.TEN_PACE q
  let old := s.fld off ⟨8 * k, 7⟩
  let new := min (64 - sget 0 s.pwr.pace n) s.pwr.powerPace
  let s := s.setFld off ⟨8 * k, 7⟩ new
  let s := s.setFld off ⟨32 + 8 * k, 7⟩ (min new (s.fld off ⟨32 + 8 * k, 7⟩))
  if old = 64 ∧ new < 64 then (s.thmEvent 2 n 0 0 new).setFld R.THM_STATUS F.THM_STATUS_PACED 1
  else if old < 64 ∧ new = 64 then s.thmEvent 3 n 0 0 64 else s

/-- Pacing of every section of every quadrant. -/
def State.paceAll (s : State) (watts : Nat) : State :=
  let s := s.powerPaceStep watts
  (List.range 16).foldl (fun s i =>
    let n := 7 * (i / 4) + i % 4
    let s := match s.temp n with
      | some t => s.thermalStep n t
      | none => s
    s.paceSection (i / 4) (i % 4)) s

/-- The lowest hold temperature of any engine, in 0.125 degrees (spec/11 R314). -/
def State.lowestHold (s : State) : Int :=
  8 * (((List.range 32).map fun e => max 110 (min 125 (s.fld (R.OPT_CTRL e) F.OPT_CTRL_HOLD))).foldl min 125 : Nat)

/-- The junction limit, THERM_N and the hold margin, by the hottest junction (spec/14 R390; spec/01 R23; spec/11 R314). -/
def State.heatLimits (s : State) (i : Nat) (t : Int) : State :=
  let s := (s.setFld R.THM_STATUS F.THM_STATUS_MAX_C (t / 8 % 256).toNat).setFld R.THM_STATUS F.THM_STATUS_MAX_SENSOR i
  let s := if 840 ≤ t ∧ s.pwr.limitArmed then
      ({ s with pwr.limitArmed := false }.thmEvent 4 i (word16 t) 0 0).setFld R.THM_STATUS F.THM_STATUS_LIMIT 1
    else if t < 800 then { s with pwr.limitArmed := true } else s
  let s := if 880 ≤ t ∧ s.board.thermN then { s with board.thermN := false }.thmEvent 5 i 0 0 0
    else if t < 800 ∧ s.board.thermN = false then { s with board.thermN := true }.thmEvent 6 i 0 0 0 else s
  let s := s.setFld R.THM_STATUS F.THM_STATUS_THERM (b2n !s.board.thermN)
  if s.lowestHold - 24 ≤ t ∧ s.spl.holdMarginArmed then { s with spl.holdMarginArmed := false }.splEvent 8 0 0 0 0
  else if t ≤ s.lowestHold - 48 then { s with spl.holdMarginArmed := true } else s

/-- One sample of every sensor. A trip stays latched until PWR_EN has fallen and risen, even if it had fallen already (log entry 62). -/
def execSensorSample (sample : SensorSample) (s : State) : Out :=
  if s.board.pwrGood = false then .next s
  else
    let s := (List.range 53).foldl (fun s i => s.takeTemp i (sample.temps.getD i 0x8000)) s
    let s := ((s.setFld R.PWR_STATUS F.PWR_STATUS_POWER_W sample.watts.toNat).setFld R.PWR_STATUS F.PWR_STATUS_VOLTAGE
      sample.tenMv.toNat).setFld R.PWR_STATUS F.PWR_STATUS_SHARE_A sample.shareA.toNat
    let s := s.ledgerTemps
    let s := s.junctions.foldl State.tempStep s
    let s := s.paceAll sample.watts.toNat
    let s := s.setFld R.PWR_STATUS F.PWR_STATUS_POWER_PACE s.pwr.powerPace
    match hottest s.junctions with
    | none => .next s
    | some (i, t) =>
      let s := s.heatLimits i t
      .next (if 920 ≤ t then { s with board.tripLatch := true }.powerFail else s)

end Sys2Proof.Machine
end

