-- ==== Sys2Proof/Machine/Board.lean ====
section
/-! DEFINITION. The board connector: power sequences, resets at the connector, laser sources (spec/01 R24, R25, R34 to R43),
module reset and Wellhead restart (spec/16 R431 to R434). -/

namespace Sys2Proof.Machine

/-! ## Power up and down (spec/01 R38 to R42) -/

/-- Bulk charging begins, unless a trip waits for PWR_EN to fall and rise. -/
def State.powerStart (s : State) : State :=
  if s.board.place = .off ∧ s.board.tripLatch = false then
    { s with board.place := .charging, board.pairA := true, board.pairB := true, board.pwrEn := true }
  else s

/-- POWER_UP. -/
def execPowerUp (s : State) : Out := .next s.powerStart

/-- INPUT_RECOVERED: the module begins again after a completed sequence. -/
def execInputRecovered (s : State) : Out := .next s.powerStart

/-- t1: the straps are sampled and the remaining bays start; a PERST_N that is high already counts as released from here on
(spec/01 R31, R38, R39). -/
def State.t1 (s : State) (straps : BitVec 6) : State :=
  let s := s.setFld R.GLB_BOOT F.GLB_BOOT_STRAPS straps.toNat
  { s with board.place := .running, board.straps := straps, cfg.t1Passed := true }

/-- PWR_GOOD rises, and the root of trust starts from a power-on reset; where MOD_RST_N is high already, its effective rise
follows. -/
def execBulkCharged (s : State) : Out :=
  if s.board.place ≠ .charging then .next s
  else
    let s := s.restart 1 0
    let s := { s with board.place := .alwaysOn, board.pwrGood := true, board.pfailN := true, board.lasIntN := true
                      board.thermN := true, ldg.gapDue := true }
    .next (if s.board.modRstN then s.t1 s.board.straps else s)

/-- The rise of MOD_RST_N, with the straps that the board drives: t1 of a power-up whose PWR_GOOD is high. Before that the pin
is high early, and its effective rise comes with PWR_GOOD; in a module reset MODULE_RESET_END follows it, no less than 5 ms
after the fall (spec/01 R39, R43). -/
def execModRstNRise (straps : BitVec 6) (s : State) : Out :=
  let s : State := { s with board.modRstN := true, board.straps := straps }
  .next (if s.board.place = .alwaysOn then s.t1 straps else s)

/-- The release of PERST_N: it takes effect while the module is past t1, and at t1 where it came earlier (spec/01 R39). -/
def execPerstNRelease (s : State) : Out := .next { s with board.perstN := true }

/-- PWR_EN falls: ports down, sources disabled, bays off, and the Ledger commits. While the bulk capacitance still charges, no
rail has started and nothing is to be committed: charging ends at once (DESIGN CHOICE, log entry 59: the spec does not say). -/
def execPowerDown (s : State) : Out :=
  let s : State := { s with board.pwrEn := false, board.tripLatch := false }
  match s.board.place with
  | .off | .powerDown | .powerFail => .next s
  | .charging => .next { s with board.place := .off }
  | .alwaysOn | .running | .moduleReset =>
    let s := s.shed.lasAllOff
    let off (m : Sparse Laser) (x : Nat × Laser) : Sparse Laser := sset {} m x.1 { x.2 with level := .off }
    .next ({ s with lasers := s.lasers.foldl off [], board.place := .powerDown }).commitLedger

/-- Conversion stops at the end of a sequence, and PWR_GOOD is low; a commit not ended is lost. -/
def execConversionStop (s : State) : Out :=
  if s.board.place = .powerDown ∨ s.board.place = .powerFail then
    .next { s with board.place := .off, board.pwrGood := false, board.thermN := true, board.alertN := true
                   board.ppsOut := false
                   ldg.busy := false, ldg.again := false, ldg.fromPfail := false }
  else .next s

/-- PFAIL_N is low for 1 us; until PWR_GOOD is high the input reads its pull-up (spec/01 R30). -/
def execPfailNLow (s : State) : Out :=
  .next (if s.board.pwrGood then { s with board.pfailN := false }.powerFail else s)

/-- A blade pair is lost. -/
def execBladePairLoss (pair : Fin 2) (s : State) : Out :=
  .next ((if pair = 0 then { s with board.pairA := false } else { s with board.pairB := false }).powerFail)

/-- A pair's share has been outside 40 % to 60 % for more than 1 ms. -/
def execPairShareTimeout (shareA : BitVec 8) (s : State) : Out :=
  if shareA.toNat < 40 ∨ 60 < shareA.toNat then
    .next (s.setFld R.PWR_STATUS F.PWR_STATUS_SHARE_A shareA.toNat).powerFail
  else .next s

/-- The input has been below the falling threshold for 20 us. -/
def execInputSagDetect (s : State) : Out := .next s.powerFail

/-! ## Module reset and Wellhead restart -/

/-- MOD_RST_N falls after t1: a module reset; ignored from the start of a power-down or power-fail sequence. -/
def execModRstNLow (s : State) : Out := match s.board.place with
  | .running => .next ({ s with board.modRstN := false }.moduleReset 2)
  | .off | .charging | .alwaysOn | .moduleReset | .powerDown | .powerFail => .next { s with board.modRstN := false }

/-- GLB_RESET.MODULE: a module reset without MOD_RST_N. -/
def State.resetModule (s : State) : State := if s.board.place = .running then s.moduleReset 3 else s

/-- The end of a module reset, once MOD_RST_N is high and 5 ms have passed: the straps count as they stood at the rise of
MOD_RST_N, or at the end of a reset that GLB_RESET began (spec/01 R43, spec/16 R433). -/
def execModuleResetEnd (straps : BitVec 6) (s : State) : Out :=
  if s.board.place = .moduleReset ∧ s.board.modRstN then
    .next (s.t1 (if s.fld R.GLB_BOOT F.GLB_BOOT_CAUSE = 2 then s.board.straps else straps))
  else .next s

/-- A Wellhead restart begins: counted, and its exchanges end. -/
def State.restartWellhead (s : State) : State :=
  if s.cfg.wellheadDown then s
  else { s.incSat R.GLB_BOOT F.GLB_BOOT_WELLHEAD_RESTARTS with cfg.wellheadDown := true, sec.transfer := none }

/-- WELLHEAD_WATCHDOG. -/
def execWellheadWatchdog (s : State) : Out := .next s.restartWellhead

/-- A Wellhead restart is complete; during start-up the WELLHEAD phase's own end says so. -/
def execWellheadRestartDone (s : State) : Out :=
  if 3 ≤ s.fld R.GLB_BOOT F.GLB_BOOT_PHASE ∧ s.fld R.GLB_BOOT F.GLB_BOOT_PHASE ≤ 5 then
    .next { s with cfg.wellheadDown := false }
  else .next s

/-! ## Laser sources (spec/01 R35 to R37) -/

/-- Source e. -/
def State.laser (s : State) (e : Nat) : Laser := sget {} s.lasers e

/-- Source e takes a state. -/
def State.setLaser (s : State) (e : Nat) (l : Laser) : State := { s with lasers := sset {} s.lasers e l }

/-- PAIRED of an engine follows its source. -/
def State.pairedBit (s : State) (e : Nat) : State := s.setFld (R.OPT_STATUS e) F.OPT_STATUS_PAIRED (b2n (s.laser e).paired)

/-- A source has vanished or has raised a fault: its light is lost (spec/06 R190). -/
def State.laserGone (s : State) (e : Nat) (present : Bool) : State :=
  let l := s.laser e
  let s := s.setLaser e { l with present := present, paired := false, level := .off, lightLost := l.lightLost || l.level.gives }
  let s := s.pairedBit e
  if l.level.gives then (s.laserLoss e).ringsLost e else s

/-- What a scan finds of one source: a new one is unpaired. -/
def State.scanOne (s : State) (e : Nat) (x : LaserScan) : State :=
  let l := s.laser e
  if x.present = false then (if l.present then s.laserGone e false else s)
  else
    let s := if l.present = false ∨ l.serial ≠ x.serial then
        let s := if l.present then s.laserGone e true else s
        (s.setLaser e { s.laser e with present := true, serial := x.serial, paired := false, level := .off }).pairedBit e
      else s
    if x.fault then s.laserGone e true else s

/-- LAS_INT_N falls, and every source is scanned. -/
def execLasIntNFall (scan : List LaserScan) (s : State) : Out :=
  if s.board.place ≠ .running then .next s
  else .next ((List.range 32).foldl (fun s e => match scan[e]? with
    | some x => (s.lasRead e).scanOne e x
    | none => s) { s with board.lasIntN := false })

/-- What a poll reads of one enabled source: its readings, and the hour's lowest, highest and mean line power. -/
def State.pollOne (s : State) (e : Nat) (x : LaserReading) : State :=
  let l := s.laser e
  if l.level = .off then s
  else
    let (sum, lo, hi, n) := sget (0, 0, 0, 0) s.ldg.laserHour e
    let p := x.power.toInt
    let h : Int × Int × Int × Nat := if n = 0 then (p, p, p, 1) else (sum + p, min lo p, max hi p, n + 1)
    { (s.lasRead e).setLaser e { l with temp := x.temp, bias := x.bias, power := x.power, flags := x.flags } with
      ldg.laserHour := sset (0, 0, 0, 0) s.ldg.laserHour e h }

/-- Each enabled source is read every second. -/
def execLaserPoll (readings : List LaserReading) (s : State) : Out :=
  if s.board.place ≠ .running then .next s
  else .next ((List.range 32).foldl (fun s e => match readings[e]? with
    | some x => s.pollOne e x
    | none => s) s)

/-- A pairing check starts: an unpaired source that no report bars is enabled 6 dB below its setpoint, one at a time, and its
optical group is kept active. -/
def execPairingCheckStart (e : Fin 32) (s : State) : Out :=
  let l := s.laser e
  if s.board.place ≠ .running ∨ s.fld R.GLB_BOOT F.GLB_BOOT_PHASE < 4 ∨ s.fld R.GLB_BOOT F.GLB_BOOT_PHASE = 0xF ∨ l.level ≠ .off ∨
      l.paired ∨ l.barred ∨ s.lasers.any (fun x => x.2.level == .checking) then .next s
  else .next (((s.setLaser e { l with present := true, level := .checking }).lasSet e .checking).wakeBay (opticBay e))

/-- The lowest-numbered engine other than e that light reaches (which of several is reported is a DESIGN CHOICE, log entry 60:
the spec speaks of one). -/
def otherEngine (e : Nat) (light : BitVec 32) : Option Nat := (List.range 32).find? fun r => r != e && light.getLsbD r

/-- A report of R37: the source and the one of the engine it reached are enabled no more, until an operator clears the report;
the spec gives the module no means for that (log entry 61). -/
def State.laserReport (s : State) (e r : Nat) : State :=
  let s := s.setLaser e { s.laser e with report := some (Fin.ofNat 32 r), barred := true }
  s.setLaser r { s.laser r with barred := true }

/-- The check passes when light appears at the source's engine alone: the source ramps to its setpoint. Otherwise it is
disabled; light at another engine is reported, and that engine's source is barred too. A source that has passed its check and
lights another engine fails it (spec/01 R35, R37). No source is driven during a power-fail sequence (spec/01 R41). -/
def execPairingCheckResult (e : Fin 32) (light : BitVec 32) (s : State) : Out :=
  let l := s.laser e
  if s.board.place ≠ .running ∨ l.level = .off then .next s
  else if l.level = .checking then
    if light = BitVec.ofNat 32 (2 ^ e.val) then
      let new := l.passed != some l.serial
      let s := (s.setLaser e { l with level := .ramping, paired := true, lightLost := false, passed := some l.serial }).lasSet e .ramping
      .next ({ s with ldg.laserFirst :=
                if new then s.ldg.laserFirst.filter (· != e.val) ++ [e.val] else s.ldg.laserFirst }.pairedBit e)
    else
      let s := (s.setLaser e { l with level := .off }).lasSet e .off
      .next (match otherEngine e light with
        | none => s
        | some r => s.laserReport e r)
  else match otherEngine e light with
    | none => .next s
    | some r => .next (((s.lasSet e .off).laserGone e true).laserReport e r)

/-- The ramp ends: the source is at its setpoint and its engine's rings leave the unlocked state. -/
def execLaserRampDone (e : Fin 32) (s : State) : Out :=
  let l := s.laser e
  if s.board.place ≠ .running ∨ l.level ≠ .ramping then .next s
  else .next (((s.setLaser e { l with level := .setpoint }).lasSet e .setpoint).ringsStart e)

end Sys2Proof.Machine
end

