-- ==== Sys2Proof/Machine/Boot.lean ====
section
/-! DEFINITION. Start-up: the boot of the root of trust (spec/15 R399 to R404, Table 15.5), the phases of Table 16.1 (spec/16
R416, R417), memory training (spec/13 R361, R362, R370, R373), and link training (spec/03 R66). -/

namespace Sys2Proof.Machine

/-- PHASE of GLB_BOOT: 1 ROOT, 2 WELLHEAD, 3 CORE, 4 RUNNING, 5 READY, 15 FAILED. -/
def State.phase (s : State) : Nat := s.fld R.GLB_BOOT F.GLB_BOOT_PHASE

/-- A phase begins. -/
def State.toPhase (s : State) (p : Nat) : State := s.setFld R.GLB_BOOT F.GLB_BOOT_PHASE p

/-- READY once the four phases after CORE have ended. -/
def State.phaseReady (s : State) : State :=
  if s.phase = 4 ∧ bitsOf (s.rd R.GLB_STATUS).toNat 62 59 = 15 then s.toPhase 5 else s

/-! ## The root of trust (spec/15 R400 to R407) -/

/-- The bytes of a measurement register. -/
def State.measure (s : State) (n : Nat) : Bytes := (List.range 6).flatMap fun w => leBytes 8 (s.rd (R.SEC_MEAS n w)).toNat

/-- A measurement register is extended: SHA-384 of its bytes and a digest (spec/15 R403). -/
def State.extendDigest (s : State) (n : Nat) (digest : Bytes) : State :=
  let v := Config.sha384 (s.measure n ++ digest)
  (List.range 6).foldl (fun s w => s.wr (R.SEC_MEAS n w) (v.extractLsb' (64 * w) 64)) s

/-- An item is measured into a register. -/
def State.extend (s : State) (n : Nat) (item : Bytes) : State := s.extendDigest n (leBytes 48 (Config.sha384 item).toNat)

/-- Vendor slots revoked, fuses burned, keys held: the fields of SEC_STATUS that follow the root of trust. -/
def State.secStatus (s : State) : State :=
  let off := R.SEC_STATUS
  let s := (s.setFld off F.SEC_STATUS_REVOKED s.sec.keyRevoked.toNat).setFld off F.SEC_STATUS_SVN_FUSES s.sec.svnFuse
  let s := s.setFld off F.SEC_STATUS_EPOCH_FUSES s.sec.indexEpoch
  s.setFld off F.SEC_STATUS_PSK_VALID ((List.range 4).foldl (fun a k => if (sget none s.sec.psk k).isSome then a + 2 ^ k else a) 0)

/-- The bytes of a firmware region: 1 bank A, 2 bank B, 3 recovery. -/
def State.region (s : State) (r : Nat) : Bytes := if r = 1 then s.sec.bankA else if r = 2 then s.sec.bankB else s.sec.recovery

/-- SVN of a firmware image. -/
def fwSvn (b : Bytes) : Nat := byteAt b 6
/-- VERSION of a firmware image. -/
def fwVersion (b : Bytes) : Nat := leAt b 8 4
/-- Header and body of a firmware image. -/
def fwBody (b : Bytes) : Bytes := b.take (64 + leAt b 12 4)
/-- SIG_OFFSET of a firmware image. -/
def fwSigOff (b : Bytes) : Nat := leAt b 16 4

/-- Whether a firmware image is bootable from a region: its header, its KIND, its SVN and its signature (spec/15 R399,
R400). -/
def State.bootable (s : State) (r : Nat) : Bool :=
  let b := s.region r
  decide (64 ≤ b.length) && leAt b 0 4 == 0x46584C48 && byteAt b 4 == 1 && byteAt b 5 == (if r = 3 then 2 else 1) &&
    decide (s.sec.svnFuse ≤ fwSvn b) && fwSigOff b % 64 == 0 && decide (64 + leAt b 12 4 ≤ fwSigOff b) &&
    decide (fwSigOff b ≤ b.length) && s.sigOk true (b.drop (fwSigOff b)) (b.take (fwSigOff b))

/-- Whether copy A of the control region governs: the copy with the higher sequence number and a right CRC (spec/15 R400). -/
def State.ctlGoverns (s : State) : Bool :=
  s.sec.ctlA.intact && (!s.sec.ctlB.intact || decide (s.sec.ctlB.seq ≤ s.sec.ctlA.seq))

/-- The control region as its governing copy has it. -/
def State.control (s : State) : FwControl :=
  if s.ctlGoverns then s.sec.ctlA else if s.sec.ctlB.intact then s.sec.ctlB else {}

/-- An update of the control region writes the older copy only, under the next sequence number. -/
def State.setControl (s : State) (active : Nat) (pending : Option Nat) : State :=
  let x : FwControl := { active := active, pending := pending, seq := s.control.seq + 1 }
  if s.ctlGoverns then { s with sec.ctlB := x } else { s with sec.ctlA := x }

/-- The active bank; before any activation, bank A. -/
def State.activeFw (s : State) : Nat := if s.control.active = 2 then 2 else 1

/-- The region that boots and BOOTED: recovery by strap; or the pending or active bank, the other bank, recovery. -/
def State.bootChoice (s : State) : Option (Nat × Nat) :=
  if s.fld R.GLB_BOOT F.GLB_BOOT_STRAPS / 4 % 2 = 1 then (if s.bootable 3 then some (3, 3) else none)
  else
    let first := match s.control.pending with
      | some b => b
      | none => s.activeFw
    if s.bootable first then some (first, first)
    else if s.bootable (3 - first) then some (3 - first, 3 - first)
    else if s.bootable 3 then some (3, 4) else none

/-- SEC_FW: what has booted, and the active and pending banks. -/
def State.secFw (s : State) : State :=
  (s.setFld R.SEC_FW F.SEC_FW_ACTIVE s.activeFw).setFld R.SEC_FW F.SEC_FW_PENDING (match s.control.pending with
    | some b => b
    | none => 0)

/-- What step 1 measures: the ROM version and the fuse image. -/
def State.romItem (s : State) : Bytes := Config.romItem s.sec.keyRevoked s.sec.svnFuse s.sec.indexEpoch

/-- Step 1: the ROM self-test ends, fuses are read; measured into register 0. -/
def execRomSelfTestDone (s : State) : Out :=
  if s.board.pwrGood = false ∨ s.phase ≠ 1 ∨ s.cfg.romDone then .next s
  else .next ({ s with cfg.romDone := true }.extend 0 s.romItem).secStatus

/-- Steps 2 to 5, once step 1 and t1 have passed: the straps measured, a region chosen and measured, the control region
updated, the Wellhead firmware started. Without a bootable region the module stays in the ROM. -/
def execBootImageCheck (s : State) : Out :=
  if s.cfg.romDone = false ∨ s.cfg.t1Passed = false ∨ s.cfg.imageChecked ∨ s.phase ≠ 1 then .next s
  else
    let s := { s with cfg.imageChecked := true }.extend 0 (leBytes 1 (s.fld R.GLB_BOOT F.GLB_BOOT_STRAPS))
    match s.bootChoice with
    | none => .next ((s.secFw.setFld R.SEC_STATUS F.SEC_STATUS_BOOT_FAILED 1).toPhase 0xF)
    | some (r, booted) =>
      let b := s.region r
      let s := s.extend 1 (fwBody b)
      let s : State := match s.control.pending with
        | none => s
        | some p => s.setControl (if p = r then p else s.control.active) none
      let s := ((s.secFw.setFld R.SEC_FW F.SEC_FW_BOOTED booted).setFld R.SEC_FW F.SEC_FW_SVN (fwSvn b)).setFld
        R.SEC_FW F.SEC_FW_VERSION (fwVersion b)
      .next ((s.setFld R.GLB_STATUS F.GLB_STATUS_RECOVERY (b2n (r == 3))).toPhase 2)

/-- Whether the recovery image runs (spec/15 R404). -/
def State.recoveryRuns (s : State) : Bool := s.flag R.GLB_STATUS F.GLB_STATUS_RECOVERY

/-! ## The signature index (spec/15 R406 to R409) -/

/-- NEXT takes a value: SEC_XMSS_NEXT, SEC_XMSS_REMAIN, INDEX_LOW and INDEX_EXHAUSTED follow, and vector 9 is raised where the count
crosses 2^30. -/
def State.setNext (s : State) (n : Nat) : State :=
  let was := 2 ^ 40 - s.ldg.sigNext
  let left := 2 ^ 40 - n
  let s : State := { s with ldg.sigNext := n }
  let s := (s.wr R.SEC_XMSS_NEXT (F.SEC_XMSS_NEXT_NEXT.put n)).wr R.SEC_XMSS_REMAIN (F.SEC_XMSS_REMAIN_REMAIN.put left)
  let s := s.setFld R.SEC_STATUS F.SEC_STATUS_INDEX_LOW (b2n (decide (left ≤ 2 ^ 30)))
  let s := if left ≤ 2 ^ 30 ∧ 2 ^ 30 < was then s.raise 9 else s
  s.setFld R.SEC_STATUS F.SEC_STATUS_INDEX_EXHAUSTED (b2n (left == 0))

/-- NEXT := MARK after a restart; with both copies of the record bad, the next epoch begins, or signing ends. -/
def State.indexRestart (s : State) : State :=
  if s.ldg.controlOkA || s.ldg.controlOkB then s.setNext s.ldg.sigMark
  else if s.sec.indexEpoch < 63 then
    let e := s.sec.indexEpoch + 1
    let n := e * 2 ^ 34
    let s : State := { s with sec.indexEpoch := e, ldg.sigMark := n, ldg.controlOkA := true, ldg.controlOkB := true }
    ((s.secStatus.setFld R.SEC_STATUS F.SEC_STATUS_INDEX_RECOVERED 1).journal 0xB 0 (leBytes 8 n)).setNext n
  else
    let s : State := { s with ldg.sigMark := 2 ^ 40, ldg.controlOkA := true, ldg.controlOkB := true }
    s.setNext (2 ^ 40)

/-! ## Phases (spec/16 Table 16.1) -/

/-- The Ledger as the WELLHEAD phase finds it: registers, LEDGER_RESTARTED where no copy is right, and the entries of a
start (spec/18 R457, R461). -/
def State.readLedger (s : State) : State :=
  let s := match s.ldg.governing with
    | some (k, _) => (s.setFld R.LDG_STATUS F.LDG_STATUS_COPY k).setFld R.LDG_STATUS F.LDG_STATUS_SEQUENCE (s.ldg? 8 8)
    | none => ((s.setFld R.LDG_STATUS F.LDG_STATUS_LOST 1).journal 0xA 0 []).raise 8
  let cause := s.fld R.GLB_BOOT F.GLB_BOOT_CAUSE
  let s := if cause = 1 then
      let s := s.ldgAdd 36 4 1
      s.journal 1 0 (leBytes 4 (s.ldg? 36 4) ++ leBytes 1 cause)
    else s.ldgAdd 40 4 1
  let v := s.fld R.SEC_FW F.SEC_FW_VERSION
  if s.ldg.bootedVersions.contains v then s
  else { s with ldg.bootedVersions := s.ldg.bootedVersions ++ [v] }.journal 9 0
    (leBytes 4 v ++ leBytes 1 (s.fld R.SEC_FW F.SEC_FW_SVN) ++ leBytes 1 (s.fld R.SEC_FW F.SEC_FW_BOOTED))

/-- The operator key digests and SEC_CTRL, as step 6 measures them first. -/
def State.keyItem (s : State) : Bytes :=
  ((List.range 8).flatMap fun i => (List.range 4).flatMap fun w => leBytes 8 (s.rd (R.SEC_IMG_KEY (i + 4) w)).toNat) ++
    leBytes 8 (s.rd R.SEC_CTRL).toNat

/-- The WELLHEAD phase ends: the Ledger read, NEXT := MARK, the command processor's firmware loaded and measured, and the
operator keys measured before the first configuration request. -/
def execWellheadPhaseDone (s : State) : Out :=
  if s.phase ≠ 2 then .next s
  else
    let s := { s with cfg.wellheadDown := false }.readLedger.indexRestart
    let s := s.setFld R.PLN_STATUS F.PLN_STATUS_TERM s.ldg.term.toNat
    let s := s.extend 2 (Config.cpFirmware (BitVec.ofNat 32 (s.fld R.SEC_FW F.SEC_FW_VERSION)))
    .next ((s.extend 3 s.keyItem).toPhase 3)

/-- The CORE phase ends: VCORE rails at 0.75 V, monitors, sills and mesh calibrated. -/
def execCorePhaseDone (s : State) : Out :=
  if s.phase ≠ 3 then .next s
  else
    .next (((List.range 4).foldl (fun s q => s.setFld (R.PWR_VCORE q) F.PWR_VCORE_SETPOINT 7500) s).toPhase 4)

/-! ## Memory training (spec/13 R361, R362, R370, R373) -/

/-- Listed rows of a tier: repaired while the device has a spare row, else NO_SPARE (spec/13 R370). -/
def State.repairRows (s : State) (ddr : Bool) (spares : List Bool) : State :=
  let l := s.repairValid.filter fun i => (s.ldg? (ldgRepair i) 1 / 2 % 2 == 1) == ddr
  (l.zip (List.range l.length)).foldl (fun s x =>
    let off := ldgRepair x.1
    let u := s.ldg? (off + 1) 1 % 8 + (if ddr then 8 else 0)
    let a := s.ldg? (off + 8) 8
    if spares.getD x.2 false then
      let s := (s.ldgPut off 16 0).ldgAdd (ldgMemory u + 12) 4 1
      { s with ldg.repairChanges := s.ldg.repairChanges + 1 }
    else s.memEvent 4 a) s

/-- HBM4 training ends: a stack that fails stays in the map and reads poisoned; every line is zero. -/
def execHbmTrainingDone (trained : BitVec 8) (spares : List Bool) (s : State) : Out :=
  if s.phase < 4 ∨ s.phase = 0xF ∨ s.flag R.GLB_STATUS F.GLB_STATUS_HBM_READY then .next s
  else
    let s := (List.range 8).foldl (fun s m =>
      (s.setFld (R.MEM_HBM_STATUS m) F.MEM_HBM_STATUS_STATE (if trained.getLsbD m then 1 else 2)).setFld
        (R.MEM_HBM_STATUS m) F.MEM_HBM_STATUS_SIZE_GIB 80) s
    let s := (s.setFld R.MEM_STATUS F.MEM_STATUS_HBM_OK trained.toNat).repairRows false spares
    .next (s.setFld R.GLB_STATUS F.GLB_STATUS_HBM_READY 1).phaseReady

/-- DIMMs of a channel. -/
def dimmsOf (l : List DimmInfo) (c : Nat) : List DimmInfo := l.filter fun d => d.channel.val == c

/-- Populated channels. -/
def dimmChannels (l : List DimmInfo) : List Nat := (List.range 8).filter fun c => !(dimmsOf l c).isEmpty

/-- The reason of R362 for a population; 0 when every check of it passes. -/
def dimmReason (l : List DimmInfo) : Nat :=
  let ch := dimmChannels l
  let n := ch.length
  let per := (dimmsOf l 0).length
  if ch ≠ List.range n ∨ (n ≠ 2 ∧ n ≠ 4 ∧ n ≠ 8) ∨ (ch.any fun c =>
      (dimmsOf l c).length != per || !((dimmsOf l c).any fun d => d.slot.val == 0)) ∨ 2 < per then 3
  else if l.any fun d => !(d.rdimmX4Ecc && d.speedOk && (d.ranks == 1 || d.ranks == 2)) then 4
  else if l.any fun d => decide (d.sizeGiB < 16) || decide (256 < d.sizeGiB) then 5
  else if l.any fun x => l.any fun y => x.model != y.model || x.ranks != y.ranks || x.sizeGiB != y.sizeGiB then 2
  else 0

/-- The population is usable: D and the channels. -/
def State.ddrUsable (s : State) (l : List DimmInfo) : State :=
  let n := (dimmChannels l).length
  let per := (dimmsOf l 0).length
  let size := ((dimmsOf l 0).map DimmInfo.sizeGiB).sum
  let ranks := match l with
    | [] => 0
    | d :: _ => d.ranks
  let off := R.MEM_STATUS
  let s := ((s.setFld off F.MEM_STATUS_DDR_CHANNELS n).setFld off F.MEM_STATUS_DDR_DIMMS per).setFld off F.MEM_STATUS_DDR_GIB
    (n * size)
  let s := (List.range n).foldl (fun s c => s.wr (R.MEM_DDR_STATUS c) (F.MEM_DDR_STATUS_STATE.put 1 |||
    F.MEM_DDR_STATUS_RANKS.put ranks ||| F.MEM_DDR_STATUS_SIZE_GIB.put size)) s
  { s with mem.dimms := l }

/-- DDR5 training ends: D is the sum of the capacities, or 0 with the first failure found. -/
def execDdrTrainingDone (dimms : List DimmInfo) (trained : BitVec 8) (spares : List Bool) (s : State) : Out :=
  if s.phase < 4 ∨ s.phase = 0xF ∨ s.flag R.GLB_STATUS F.GLB_STATUS_DDR_READY then .next s
  else
    let r := if dimms.isEmpty then 0 else dimmReason dimms
    let bad := (dimmChannels dimms).find? fun c => !trained.getLsbD c
    let s := if dimms.isEmpty then s
      else if r ≠ 0 then s.setFld R.MEM_STATUS F.MEM_STATUS_DDR_REASON r
      else match bad with
        | some c =>
          let s := (List.range c).foldl (fun s c => s.setFld (R.MEM_DDR_STATUS c) F.MEM_DDR_STATUS_STATE 1) s
          (s.setFld (R.MEM_DDR_STATUS c) F.MEM_DDR_STATUS_STATE 2).setFld R.MEM_STATUS F.MEM_STATUS_DDR_REASON 1
        | none => (s.ddrUsable dimms).repairRows true spares
    .next (s.setFld R.GLB_STATUS F.GLB_STATUS_DDR_READY 1).phaseReady

/-- Every engine has locked or failed. -/
def execOpticsPhaseDone (s : State) : Out :=
  if s.phase < 4 ∨ s.phase = 0xF then .next s
  else
    let n := ((List.range 32).filter fun e => s.fld (R.OPT_STATUS e) F.OPT_STATUS_STATE == 2).length
    .next ((s.setFld R.GLB_STATUS F.GLB_STATUS_ENGINES_LOCKED n).setFld R.GLB_STATUS F.GLB_STATUS_OPTICS_READY 1).phaseReady

/-- The CXL link trains; at the first success the HOST phase ends (spec/03 R66). -/
def execLinkTrain (trains : BitVec 6) (lopt : Bool) (s : State) : Out :=
  if s.board.perstN = false ∨ s.board.place ≠ .running ∨ s.phase < 4 ∨ s.phase = 0xF ∨
      s.flag R.HIF_LINK_STATUS F.HIF_LINK_STATUS_UP then .next s
  else
    let s := s.setFld R.HIF_LINK_CTRL F.HIF_LINK_CTRL_RETRAIN 0
    match s.train trains lopt with
    | none => .next s
    | some s => .next (s.setFld R.GLB_STATUS F.GLB_STATUS_HOST_READY 1).phaseReady.wakeKept

end Sys2Proof.Machine
end

