-- ==== Sys2Proof/Machine/Plane.lean ====
section
/-! DEFINITION. Managers and workers: plane messages, heartbeats and loss, terms and promotion, plane-wide flips, fences and their
budget, and the Wellhead's load (spec/17 R437 to R453). -/

namespace Sys2Proof.Machine

/-! ## Modules (spec/17 R437, R440) -/

/-- The identity of worker n. -/
def State.workerId (s : State) (n : Nat) : Word := s.committed (R.PLN_WORKER_ID n)

/-- The workers listed. -/
def State.workers (s : State) : List Nat := (List.range 1023).filter fun n => s.workerId n != 0

/-- The worker index of an identity. -/
def State.workerOf (s : State) (id : Word) : Option Nat := s.workers.find? fun n => s.workerId n == id

/-- The two identities of the manager pair as this module's configuration names them. -/
def State.pairIds (s : State) : List Word := [s.committed R.PLN_MANAGER_ID, s.committed R.PLN_STANDBY_ID].filter fun x => x != 0

/-- The other member of a manager's pair: its standby, or the manager that a promoted standby names; 0 for none. -/
def State.otherMember (s : State) : Word :=
  if s.committed R.PLN_STANDBY_ID ≠ 0 then s.committed R.PLN_STANDBY_ID else s.committed R.PLN_MANAGER_ID

/-- Whether this module acts as manager. -/
def State.acting (s : State) : Bool := s.role == 2 && !s.pln.listening

/-- Whether this module answers managers. -/
def State.follows (s : State) : Bool := s.role == 1 || s.role == 3

/-- Whether the Wellhead, which runs the plane, is there (spec/16 R434). -/
def State.planeAlive (s : State) : Bool := s.role != 0 && !s.cfg.wellheadDown

/-- STATE of a worker: 0 not yet heard, 1 live, 2 lost, 3 fenced. -/
def State.workerState (s : State) (n : Nat) : Nat := s.fld (R.PLN_WORKER_STATE n) F.PLN_WORKER_STATE_STATE

/-- STATE of a worker takes a value. -/
def State.setWorker (s : State) (n v : Nat) : State := s.setFld (R.PLN_WORKER_STATE n) F.PLN_WORKER_STATE_STATE v

/-- The identity behind an index: a worker's, or the other member's for 1023. -/
def State.idOf (s : State) (n : Nat) : Word := if n = 1023 then s.otherMember else s.workerId n

/-- The instant at which a module was last heard on a port. -/
def State.heardAt (s : State) (n port : Nat) : Option Nat := (s.pln.heard.find? fun x => x.1 == heardKey n port).map Prod.snd

/-- Whether a module was heard on a port within the last 300 ms. -/
def State.heardLately (s : State) (n port : Nat) : Bool := match s.heardAt n port with
  | some t => decide (s.mono < t + 300000000)
  | none => false

/-- A module is heard on a port. -/
def State.hear (s : State) (n port : Nat) : State :=
  { s with pln.heard := sput s.pln.heard (heardKey n port) s.mono
           pln.lostPaths := s.pln.lostPaths.filter fun k => k != heardKey n port }

/-- Whether this module has had its role for 300 ms. -/
def State.seasoned (s : State) : Bool := decide (s.pln.since + 300000000 ≤ s.mono)

/-- Whether a port of a module has been silent for 300 ms. -/
def State.silent (s : State) (n port : Nat) : Bool := s.seasoned && !s.heardLately n port

/-- The term takes a value, in PLN_STATUS and in the Ledger's CONTROL copies (spec/17 R443, spec/18 R455). -/
def State.setTerm (s : State) (t : Nat) : State :=
  if s.fld R.PLN_STATUS F.PLN_STATUS_TERM = t then s
  else { s.setFld R.PLN_STATUS F.PLN_STATUS_TERM t with ldg.term := BitVec.ofNat 32 t, ldg.controlSeq := s.ldg.controlSeq + 1 }

/-! ## Messages (spec/17 R439) -/

/-- The fewest body bytes of a kind, and the bytes of the body that must be zero (spec/17 Table 17.4). -/
def planeBody (k : Nat) (b : Bytes) : Nat × List Nat := match k with
  | 1 => (16, [10, 11])
  | 2 => (20, [])
  | 3 => if byteAt b 2 = 2 then (44, [3, 11]) else (8, [3])
  | 4 => (16, [3])
  | 5 => (12, [2, 3])
  | 6 => (2, [])
  | 7 => (3, [])
  | 8 => (32, [])
  | 9 => (8, [])
  | 10 | 11 => (16, [3, 6, 7])
  | 12 => (4, [])
  | 13 => (24, [])
  | 14 => (4 + 4 * byteAt b 0 + 16 * byteAt b 1, [2, 3])
  | _ => (0, [])

/-- The body of a message. -/
def planeText (m : Bytes) : Bytes := slice m 24 (beAt m 20 2)

/-- Whether a message is well formed: CRC, FORMAT, a defined KIND, zero where it must be, and a body that holds its fields. -/
def planeWell (m : Bytes) : Bool :=
  let n := beAt m 20 2
  let k := byteAt m 0
  let (len, zeros) := planeBody k (planeText m)
  m.length == n + 28 && beAt m (n + 24) 4 == crc32c (m.take (n + 24)) && byteAt m 1 == 0x10 && decide (1 ≤ k) && decide (k ≤ 14) &&
    beAt m 22 2 == 0 && byteAt m 2 / 16 == 0 && decide (len ≤ n) && zeros.all fun i => byteAt (planeText m) i == 0

/-- The sender of a message. -/
def planeSender (m : Bytes) : Word := BitVec.ofNat 64 (beAt m 4 8)

/-- Whether the configuration names an identity. -/
def State.planeNames (s : State) (id : Word) : Bool := s.pairIds.contains id || (s.workerOf id).isSome

/-- A message of a kind arrives on a management port: discarded and counted, or accepted with its TERM and given on. -/
def State.planeIn (s : State) (port kind : Nat) (m : Bytes) (k : State → Word → Bytes → State) : Out :=
  if s.planeAlive = false then .next s
  else if planeWell m = false then .next (s.count (ctrPln port 0))
  else if byteAt m 0 ≠ kind then .next s
  else if s.planeNames (planeSender m) = false ∨ beAt m 2 2 % 4096 ≠ s.cfld R.PLN_CFG F.PLN_CFG_PLANE then
    .next (s.count (ctrPln port 1))
  else if beAt m 12 4 < s.fld R.PLN_STATUS F.PLN_STATUS_TERM then .next (s.count (ctrPln port 2))
  else .next (k (s.count (ctrPln port (2 + kind))) (planeSender m) (planeText m))

/-- The TERM of a message. -/
def planeTerm (m : Bytes) : Nat := beAt m 12 4

/-- Kept EVENT messages leave once the manager is found (spec/17 R442). -/
def State.sendKept (s : State) : State :=
  let l := s.pln.keptEvents
  l.foldl (fun s b => s.plnSend (s.pathTo 1023) s.actingManager 0xD b) { s with pln.keptEvents := [] }

/-- A worker or standby accepts a member of the manager pair as its acting manager (spec/17 R440, R441). -/
def State.acceptManager (s : State) (port : Nat) (id : Word) (term : Nat) : State :=
  let s := s.setTerm term
  let s := s.setFld R.PLN_STATUS F.PLN_STATUS_ACTING (b2n (id == s.committed R.PLN_STANDBY_ID))
  let s := (s.setFld R.PLN_STATUS F.PLN_STATUS_MANAGER_PRESENT 1).hear 1023 port
  let s := if s.pln.managerLost then { s with pln.managerLost := false }.plnEvent 2 0x3FF 0 0 0 id else s
  s.sendKept

/-- A message from the manager to a worker or standby: it is accepted and acted on. -/
def State.fromManager (s : State) (port kind : Nat) (m : Bytes) (k : State → Bytes → State) : Out :=
  s.planeIn port kind m fun s id b =>
    if s.follows && s.pairIds.contains id then k (s.acceptManager port id (planeTerm m)) b else s

/-- A message from a worker, or from the other member of the pair, to the acting manager. -/
def State.fromWorker (s : State) (port kind : Nat) (m : Bytes) (k : State → Nat → Bytes → State) : Out :=
  s.planeIn port kind m fun s id b =>
    if s.acting = false then s
    else match s.workerOf id with
      | some n => k (s.setTerm (planeTerm m)) n b
      | none => if id = s.otherMember then k (s.setTerm (planeTerm m)) 1023 b else s

/-- A message to a module by its index leaves on both ports (log entry 49). -/
def State.sendBoth (s : State) (n kind : Nat) (b : Bytes) : State :=
  (s.plnSend 0 (s.idOf n) kind b).plnSend 1 (s.idOf n) kind b

/-! ## Heartbeats and health (spec/17 R440, R441) -/

/-- The lowest margin that a monitor reports. -/
def State.lowestMargin (s : State) : Int :=
  ((List.range 28).map fun n => s.sfld (R.SIL_MON_STATUS n) F.SIL_MON_STATUS_MARGIN).foldl min 32767

/-- The body of HEALTH. -/
def State.healthBody (s : State) : Bytes :=
  beBytes 2 (s.fld R.LDG_HEALTH F.LDG_HEALTH_SCORE) ++ beBytes 2 (word16 s.lowestMargin) ++
    beBytes 1 (s.fld R.PLN_WH_LOAD F.PLN_WH_LOAD_LOAD) ++ beBytes 1 (s.fld R.PLN_WH_LOAD F.PLN_WH_LOAD_LEVEL) ++
    beBytes 2 ((List.range 2048).filter s.portUp).length ++ beBytes 4 s.timeError ++ beBytes 4 s.epoch ++
    beBytes 4 s.bsn.disputes.length

/-- The listed workers and the other member each get a HEARTBEAT on both ports. -/
def execHeartbeatSend (s : State) : Out :=
  if s.planeAlive = false ∨ s.acting = false then .next s
  else
    let l := s.workers ++ if s.otherMember = 0 then [] else [1023]
    .next (l.foldl (fun s n => s.sendBoth n 1
      (beBytes 8 s.stamp.toNat ++ beBytes 2 n ++ beBytes 2 0 ++ beBytes 4 s.epoch)) s)

/-- The role becomes standby: a flip being prepared is abandoned without ABORT, and nothing more is resent (spec/17 R444). -/
def State.demote (s : State) : State :=
  let s : State := { s.setFld R.PLN_STATUS F.PLN_STATUS_ROLE 3 with
    pln.flip := none, pln.fences := [], pln.circuits := [], pln.listening := false, pln.heardManager := false
    pln.since := s.mono, pln.managerLost := false }
  let s := if s.planeHolds then s.planeFree else s
  let s := (s.setFld R.PLN_FLIP F.PLN_FLIP_GO 0).setFld R.PLN_FLIP_STATUS F.PLN_FLIP_STATUS_STATE 0
  s.plnEvent 7 0x3FF 0 0 0 0

/-- The staged and the committed ROLE take a value. -/
def State.setRole (s : State) (v : Nat) : State :=
  let put (x : Word) : Word := F.PLN_CFG_ROLE.set x v
  { s.wr R.PLN_CFG (put (s.rd R.PLN_CFG)) with
    cfg.committed := sset (resetWord R.PLN_CFG) s.cfg.committed R.PLN_CFG (put (s.committed R.PLN_CFG)) }

/-- A HEARTBEAT: answered with HEALTH on the same port by who follows; heard by a manager that listens; and with a higher TERM
from the other member of the pair it demotes an acting manager. -/
def execHeartbeat (port : Fin 2) (msg : Bytes) (s : State) : Out :=
  s.planeIn port 1 msg fun s id _ =>
    if s.follows then
      if s.pairIds.contains id then
        let s := s.acceptManager port id (planeTerm msg)
        s.plnSend port id 2 s.healthBody
      else s
    else if s.pln.listening then { (s.setTerm (planeTerm msg)).hear 1023 port with pln.heardManager := true }
    else if id = s.otherMember ∧ s.fld R.PLN_STATUS F.PLN_STATUS_TERM < planeTerm msg then
      ((s.setRole 3).demote).acceptManager port id (planeTerm msg)
    else s

/-- A worker's HEALTH. -/
def execHealth (port : Fin 2) (msg : Bytes) (s : State) : Out :=
  s.fromWorker port 2 msg fun s n b =>
    let s := s.hear n port
    if n = 1023 then s
    else
      let off := R.PLN_WORKER_STATE n
      let s := if s.workerState n = 2 then s.plnEvent 4 n 0 0 0 (s.workerId n) else s
      let st := if s.workerState n = 3 then 3 else 1
      s.wr off (F.PLN_WORKER_STATE_STATE.put st |||
        F.PLN_WORKER_STATE_PATHS.put (b2n (s.heardLately n 0) + 2 * b2n (s.heardLately n 1)) |||
        F.PLN_WORKER_STATE_SHED.put (byteAt b 5) ||| F.PLN_WORKER_STATE_HEALTH.put (beAt b 0 2) |||
        F.PLN_WORKER_STATE_EPOCH.put (beAt b 12 4) ||| F.PLN_WORKER_STATE_ERROR_NS.put (min (beAt b 8 4) 0xFFFF) |||
        F.PLN_WORKER_STATE_LOAD.put (byteAt b 4))

/-- 300 ms without a message from the acting manager on either port. A prepared flip that is not committed is discarded (spec/17
R442). -/
def execManagerSilenceTimeout (s : State) : Out :=
  if s.planeAlive = false ∨ s.follows = false ∨ s.pln.managerLost ∨ s.silent 1023 0 = false ∨ s.silent 1023 1 = false then .next s
  else
    let s := s.setFld R.PLN_STATUS F.PLN_STATUS_MANAGER_PRESENT 0
    let s := if s.planeHolds then s.planeFree else s
    .next ({ s with pln.managerLost := true }.plnEvent 1 0x3FF 0 0 0 s.actingManager)

/-- 300 ms without HEALTH from a worker on either port. -/
def execWorkerSilenceTimeout (n : Fin 1023) (s : State) : Out :=
  if s.planeAlive = false ∨ s.acting = false ∨ s.workerId n = 0 ∨ s.workerState n = 2 ∨ s.silent n 0 = false ∨
      s.silent n 1 = false then .next s
  else .next (((s.setWorker n 2).setFld (R.PLN_WORKER_STATE n) F.PLN_WORKER_STATE_PATHS 0).plnEvent 3 n 0 0 0 (s.workerId n))

/-- 300 ms of silence on one port only, recorded once until that port is heard again; 1023 names the manager, or the manager's other member. -/
def execPathSilenceTimeout (port : Fin 2) (n : BitVec 10) (s : State) : Out :=
  let k := n.toNat
  let known := if s.follows then k == 1023 else s.acting && s.idOf k != 0
  if s.planeAlive = false ∨ known = false ∨ s.silent k port = false ∨ s.silent k (1 - port.val) ∨
      s.pln.lostPaths.contains (heardKey k port) then .next s
  else
    let id := if s.follows then s.actingManager else s.idOf k
    let s : State := { s with pln.lostPaths := s.pln.lostPaths ++ [heardKey k port] }
    let s := s.plnEvent 5 k port 0 0 id
    .next (if k = 1023 then s
      else s.setFld (R.PLN_WORKER_STATE k) F.PLN_WORKER_STATE_PATHS (b2n (s.heardLately k 0) + 2 * b2n (s.heardLately k 1)))

/-! ## Terms and promotion (spec/17 R443, R444) -/

/-- A manager begins to listen. -/
def State.listen (s : State) : State := { s with pln.listening := true, pln.heardManager := false }

/-- A manager begins to act, with TERM one more than the highest it has stored or heard. -/
def State.beginActing (s : State) : State :=
  { s with pln.listening := false, pln.heardManager := false, pln.since := s.mono }.setTerm ((s.fld R.PLN_STATUS F.PLN_STATUS_TERM + 1) % 2 ^ 32)

/-- The role in force follows a commit of set 0x20. -/
def State.roleCommitted (s : State) : State :=
  let v := s.cfld R.PLN_CFG F.PLN_CFG_ROLE
  let old := s.role
  let s := s.setFld R.PLN_STATUS F.PLN_STATUS_ROLE v
  if v = 2 then (if old = 2 then s else (s.setFld R.PLN_STATUS F.PLN_STATUS_MANAGER_PRESENT 0).listen)
  else
    { s with pln.listening := false, pln.heardManager := false, pln.fences := [], pln.circuits := []
             pln.since := if v = old then s.pln.since else s.mono
             pln.managerLost := if v = old then s.pln.managerLost else false }

/-- The listening period ends. -/
def execListenPeriodEnd (s : State) : Out :=
  .next (if s.pln.listening = false ∨ s.role ≠ 2 then s
    else if s.pln.heardManager then s.demote else s.beginActing)

/-- A promotion is checked. -/
def State.promoteReason (s : State) (force : Bool) : Nat :=
  if s.cfld R.PLN_CFG F.PLN_CFG_ROLE ≠ 3 then 0x12
  else if (s.heardLately 1023 0 || s.heardLately 1023 1) && !force then 0x17 else 0

/-- PLN_PROMOTE.GO. -/
def State.promotion (s : State) (force : Bool) : State :=
  let r := s.promoteReason force
  let s := s.wr R.PLN_PROMOTE (F.PLN_PROMOTE_FORCE.put (b2n force) ||| F.PLN_PROMOTE_REASON.put r)
  if r ≠ 0 then s
  else
    let s := ((s.setRole 2).setFld R.PLN_STATUS F.PLN_STATUS_ROLE 2).setFld R.PLN_STATUS F.PLN_STATUS_MANAGER_PRESENT 0
    (s.plnEvent 6 0x3FF 0 0 0 0).beginActing

def execPromote (force : Bool) (s : State) : Out := .next (s.promotion force)

/-! ## Plane-wide flips (spec/17 R445, R446) -/

/-- The body of PREPARE: the shape comes from the manager's pending registers. -/
def State.prepareBody (s : State) (f : ManagerFlip) : Bytes :=
  let head := beBytes 2 f.id.toNat ++ beBytes 1 f.kind ++ beBytes 1 0 ++ beBytes 4 f.fromEpoch.toNat
  if f.kind = 1 then head
  else
    let x := R.SPL_SHAPE_PEND
    head ++ beBytes 1 (s.fld x F.SPL_SHAPE_PEND_SLOTS) ++ beBytes 1 (s.fld x F.SPL_SHAPE_PEND_MARGIN_NS) ++
      beBytes 1 (s.fld x F.SPL_SHAPE_PEND_GUARD_NS) ++ beBytes 1 0 ++
      (List.range 4).flatMap fun w => leBytes 8 (s.rd (R.SPL_SLOT_K_PEND w)).toNat

/-- A spillway participant takes the shape from PREPARE. -/
def State.takeShape (s : State) (b : Bytes) : State :=
  let s := s.wr R.SPL_SHAPE_PEND (F.SPL_SHAPE_PEND_SLOTS.put (byteAt b 8) ||| F.SPL_SHAPE_PEND_MARGIN_NS.put (byteAt b 9) |||
    F.SPL_SHAPE_PEND_GUARD_NS.put (byteAt b 10))
  (List.range 4).foldl (fun s w => s.wr (R.SPL_SLOT_K_PEND w) (BitVec.ofNat 64 (leAt b (12 + 8 * w) 8))) s

/-- The reason with which a participant answers PREPARE, and the flip prepared when there is none. -/
def State.participate (s : State) (kind : Nat) (id : BitVec 16) (fromEpoch : Nat) : Nat × State :=
  match s.pln.prepared with
  | some (k, i, _) => if k = kind ∧ i = id then (0, s) else (0x18, s)
  | none =>
    let r := if kind = 1 then (if s.epoch ≠ fromEpoch then 0x12 else s.eflipRules true)
      else if kind = 2 then s.ensurePend.splFlipRules else 0x10
    if r ≠ 0 then (r, s)
    else (0, { s.setFld R.PLN_STATUS F.PLN_STATUS_PREPARED 1 with pln.prepared := some (kind, id, false) })

/-- READY on the port that PREPARE came on. -/
def execPrepare (port : Fin 2) (msg : Bytes) (s : State) : Out :=
  s.fromManager port 3 msg fun s b =>
    let id := BitVec.ofNat 16 (beAt b 0 2)
    let kind := byteAt b 2
    let s := if kind = 2 then s.takeShape b else s
    let (r, s) := s.participate kind id (beAt b 4 4)
    s.plnSend port s.actingManager 4 (beBytes 2 id.toNat ++ beBytes 1 r ++ beBytes 1 0 ++ beBytes 8 (s.rd R.SPL_CYCLE_START).toNat ++
      beBytes 4 s.cycleNs)

/-- The participants that are workers. -/
def ManagerFlip.toSend (f : ManagerFlip) : List Nat := f.participants.filter fun n => n != 1023

/-- A flip being prepared is aborted: ABORT to every participant, STATE aborted, FLIP_ABORTED. -/
def State.abortFlip (s : State) (f : ManagerFlip) (worker reason : Nat) : State :=
  let s := f.toSend.foldl (fun s n => s.sendBoth n 6 (beBytes 2 f.id.toNat)) s
  let s := if s.planeHolds then s.planeFree else s
  s.flipEnds f 4 worker reason

/-- PREPARE to participants that have not answered. -/
def State.sendPrepare (s : State) (f : ManagerFlip) : State :=
  (f.toSend.filter fun n => !(f.ready.any fun x => x.1 == n)).foldl (fun s n => s.sendBoth n 3 (s.prepareBody f)) s

/-- COMMIT to participants that have not answered with DONE. -/
def State.sendCommit (s : State) (f : ManagerFlip) : State :=
  (f.toSend.filter fun n => !f.done.contains n).foldl (fun s n =>
    s.sendBoth n 5 (beBytes 2 f.id.toNat ++ beBytes 2 0 ++ beBytes 8 (instantWord f.instant).toNat)) s

/-- One progression of instants (start, step) that two have in common. -/
def commonInstants (a b : Nat × Nat) : Option (Nat × Nat) :=
  let g := Nat.gcd a.2 b.2
  ((List.range (b.2 / g)).find? fun k => (a.1 + a.2 * k) % b.2 == b.1 % b.2).map fun k => (a.1 + a.2 * k, a.2 / g * b.2)

/-- The earliest instant at or after a time that is a boundary of every cycle (start, length); a length of 0 binds nothing. -/
def earliestBoundary (t : Nat) (l : List (Nat × Nat)) : Option Nat :=
  let l := (l.filter fun x => x.2 != 0).map fun x => (x.1 % x.2, x.2)
  (l.foldl (fun a x => a.bind fun y => commonInstants y x) (some (0, 1))).map fun x =>
    t + (x.1 + x.2 - t % x.2) % x.2

/-- This module asks for its own flip at T, in its turn among the checks: from then on the flip is committed here. `back` is the port of
the manager that DONE answers, or 2 at the manager itself. -/
def State.askFlip (s : State) (kind : Nat) (id : BitVec 16) (t : Word) (back : Nat) : State :=
  State.pushCheck { s with pln.prepared := some (kind, id, true) } { kind := .planeFlip kind id, captured := [(0, t)], dest := back }

/-- With every READY in, T is chosen and COMMIT sent, or the flip is aborted where no instant falls within 10 s. -/
def State.commitFlip (s : State) (f : ManagerFlip) : State :=
  let lead := max 1 (s.fld R.PLN_CFG F.PLN_CFG_FLIP_LEAD_MS)
  let cycles := if f.kind = 1 then [] else f.ready.map fun x => (x.2.1, x.2.2)
  match earliestBoundary (s.now + lead * 1000000) cycles with
  | none => s.abortFlip f 0x3FF 0x12
  | some t =>
    if s.now + 10000000000 < t then s.abortFlip f 0x3FF 0x12
    else
      let s := (s.setFld R.PLN_FLIP_STATUS F.PLN_FLIP_STATUS_STATE 2).wr R.PLN_FLIP_TIME (instantWord t)
      let f := { f with instant := t, committing := true }
      let s := State.askFlip { s with pln.flip := some f } f.kind f.id (instantWord t) 2
      s.sendCommit f

/-- A READY of a participant is recorded: the flip is aborted, committed, or goes on waiting. -/
def State.takeReady (s : State) (f : ManagerFlip) (n reason start len : Nat) : State :=
  if f.committing ∨ f.participants.contains n = false ∨ (f.ready.any fun x => x.1 == n) then s
  else if reason ≠ 0 then s.abortFlip f n reason
  else
    let f := { f with ready := f.ready ++ [(n, start, len)] }
    let s : State := { s with pln.flip := some f }
    if f.participants.all fun n => f.ready.any fun x => x.1 == n then s.commitFlip f else s

def execReady (port : Fin 2) (msg : Bytes) (s : State) : Out :=
  s.fromWorker port 4 msg fun s n b => match s.pln.flip with
    | some f => if f.id.toNat = beAt b 0 2 then
        s.takeReady f n (byteAt b 2) (instantNs s (BitVec.ofNat 64 (beAt b 4 8))) (beAt b 12 4) else s
    | none => s

/-- COMMIT: the participant asks for its own flip, and DONE leaves on the port that COMMIT came on; a repeated COMMIT is answered again. One that
is not prepared here is not acted on (log entry 50). -/
def execPlaneCommit (port : Fin 2) (msg : Bytes) (s : State) : Out :=
  s.fromManager port 5 msg fun s b =>
    let id := BitVec.ofNat 16 (beAt b 0 2)
    let answer (s : State) (r : Nat) : State := s.plnSend port s.actingManager 7 (beBytes 2 id.toNat ++ beBytes 1 r)
    let again (s : State) : State := match s.pln.lastDone with
      | some (i, r) => if i = id then answer s r else s
      | none => s
    match s.pln.prepared with
    | some (kind, i, false) =>
      if i ≠ id then again s
      else s.askFlip kind id (BitVec.ofNat 64 (beAt b 4 8)) port
    | _ => again s

/-- ABORT: a prepared flip is discarded; a committed one is never withdrawn. -/
def execPlaneAbort (port : Fin 2) (msg : Bytes) (s : State) : Out :=
  s.fromManager port 6 msg fun s b => match s.pln.prepared with
    | some (_, i, false) => if i.toNat = beAt b 0 2 then s.planeFree else s
    | _ => s

def execDone (port : Fin 2) (msg : Bytes) (s : State) : Out :=
  s.fromWorker port 7 msg fun s n b => match s.pln.flip with
    | some f =>
      if f.committing ∧ f.id.toNat = beAt b 0 2 ∧ f.participants.contains n ∧ f.done.contains n = false then
        State.flipSettle { s with pln.flip := some (f.doneBy n (byteAt b 2)) }
      else s
    | none => s

/-- PLN_FLIP.GO: refused with the reason in PLN_FLIP_STATUS, or PREPARE to every participant. It has no effect on a module that is
not the acting manager (log entry 51). -/
def State.startFlip (s : State) (kind fromEpoch : Nat) : State :=
  let refuse (s : State) (r : Nat) : State := s.setFld R.PLN_FLIP_STATUS F.PLN_FLIP_STATUS_REASON r
  let live := s.workers.filter fun n => s.workerState n == 1
  let busy := s.pln.flip.isSome
  let s := s.wr R.PLN_FLIP (F.PLN_FLIP_GO.put (b2n busy) ||| F.PLN_FLIP_KIND.put kind ||| F.PLN_FLIP_FROM_EPOCH.put fromEpoch)
  if s.acting = false then s
  else if busy then refuse s 0x18
  else if s.hasLocked = false then refuse s 0x1A
  else if live.isEmpty ∨ kind = 0 ∨ kind = 3 then refuse s 0x10
  else
    let id := s.pln.flipId + 1
    let f : ManagerFlip := { kind := kind, id := id, fromEpoch := BitVec.ofNat 32 fromEpoch, startedAt := s.mono,
                             participants := live ++ [1023] }
    let s : State := { s.setFld R.PLN_FLIP F.PLN_FLIP_GO 1 with pln.flipId := id, pln.flip := some f }
    let s := s.wr R.PLN_FLIP_STATUS (F.PLN_FLIP_STATUS_STATE.put 1 ||| F.PLN_FLIP_STATUS_FLIP_ID.put id.toNat)
    let s := s.sendPrepare f
    let (r, s) := s.participate kind id fromEpoch
    s.takeReady f 1023 r (instantNs s (s.rd R.SPL_CYCLE_START)) s.cycleNs

def execPlaneFlip (kind : BitVec 2) (fromEpoch : BitVec 32) (s : State) : Out := .next (s.startFlip kind.toNat fromEpoch.toNat)

/-- PREPARE is resent every 10 ms. -/
def execPrepareResend (s : State) : Out := match s.pln.flip with
  | some f => .next (if f.committing ∨ s.planeAlive = false then s else s.sendPrepare f)
  | none => .next s

/-- An answer is missing at t0 + 100 ms: the first participant that has not answered is named. -/
def execPrepareDeadline (s : State) : Out := match s.pln.flip with
  | some f =>
    if f.committing ∨ s.mono < f.startedAt + 100000000 then .next s
    else
      let n := (f.participants.find? fun n => !(f.ready.any fun x => x.1 == n)).getD 1023
      .next (s.abortFlip f n 0)
  | none => .next s

/-- COMMIT is resent every 1 ms until T. -/
def execCommitResend (s : State) : Out := match s.pln.flip with
  | some f => .next (if f.committing = false ∨ f.instant ≤ s.now ∨ s.planeAlive = false then s else s.sendCommit f)
  | none => .next s

/-- At T + 100 ms the flip is split where a DONE was refused or is missing, and done else. -/
def execFlipDoneDeadline (s : State) : Out := match s.pln.flip with
  | some f =>
    if f.committing = false ∨ s.now < f.instant + 100000000 then .next s
    else match f.bad, f.participants.find? fun n => !f.done.contains n with
      | none, some n => .next (s.flipEnds f 5 n 0)
      | _, _ => .next s.flipSettle
  | none => .next s

/-! ## Circuits (spec/17 R447) -/

/-- A circuit request of the manager: a TAG already answered is answered again; one that waits is not taken twice. -/
def execCircuit (port : Fin 2) (msg : Bytes) (s : State) : Out :=
  s.fromManager port 8 msg fun s b =>
    let w (i : Nat) : Word := BitVec.ofNat 64 (beAt b (8 * i) 8)
    let tag := BitVec.ofNat 16 (F.SPL_REQ_A_TAG.get (w 0))
    match s.pln.answered.find? fun x => x.1 == tag with
    | some (_, ans) => s.plnSend port s.actingManager 9 ans
    | none =>
      if s.spl.requests.any fun r => r.plane && F.SPL_REQ_A_TAG.get r.a == tag.toNat then s
      else s.splSubmit ⟨w 0, w 1, w 2, w 3, true⟩

/-- A worker's answer reaches the manager, which records it: the request of that TAG is sent no more (log entry 52). -/
def execCircuitAnswer (port : Fin 2) (msg : Bytes) (s : State) : Out :=
  s.fromWorker port 9 msg fun s n b =>
    let v : Word := BitVec.ofNat 64 (beAt b 0 8)
    let mine (x : Nat × Bytes) : Bool :=
      x.1 == n && F.SPL_REQ_A_TAG.get (BitVec.ofNat 64 (beAt x.2 0 8)) == F.SPL_RESP_TAG.get v
    if s.pln.circuits.any mine then
      { s with pln.circuits := s.pln.circuits.filter fun x => !mine x, pln.circuitAnswers := s.pln.circuitAnswers ++ [(n, v)] }
    else s

/-! ## Fences at a worker (spec/17 R449, Table 17.6) -/

/-- The ports whose partner a fence names. -/
def State.partnerPorts (s : State) (port : Nat) (id : Word) : List Nat :=
  (List.range 2048).filter fun p => s.rd (R.PRT_PARTNER_ID (p / 8) (p % 8)) == id &&
    (port == 0x7FF || s.fld (R.PRT_PARTNER_INFO (p / 8) (p % 8)) F.PRT_PARTNER_INFO_PORT == port)

/-- A port's bit in FWD_MCAST_EXCLUDE takes a value. -/
def State.setExclude (s : State) (p : Nat) (b : Bool) : State := s.setBit (R.FWD_MCAST_EXCLUDE (p / 64)) (p % 64) b

/-- A port is fenced, in one step. -/
def State.fencePort (s : State) (p : Nat) : State :=
  let s := ((s.dropChecks (· == .portEnable p)).setExclude p true).incFld R.FWD_MCAST_STATUS F.FWD_MCAST_STATUS_MASK_EPOCH
  let s := (s.portOff p 8 true).setFld (prtState p) F.PRT_PORT_STATE_DOWN_REASON 8
  (s.fenceMembers p).fenceCircuits p

/-- The ports that a fence of a kind names on this module. -/
def State.fencePorts (s : State) (kind port : Nat) (id : Word) : List Nat :=
  if kind = 1 then (List.range 2048).filter s.portEnabled
  else if kind = 2 then s.partnerPorts port id
  else if kind = 3 then [port] else []

/-- The ports that an UNFENCE of a kind names: for the module, every excluded one. -/
def State.unfencePorts (s : State) (kind port : Nat) (id : Word) : List Nat :=
  (if kind = 1 then List.range 2048 else if kind = 2 then s.partnerPorts port id else if kind = 3 then [port] else []).filter
    s.excluded

/-- A FENCE or UNFENCE is applied once for each sender and FENCE_ID, and acknowledged on the port it came on. -/
def State.fenceOnce (s : State) (port : Nat) (b : Bytes) (act : State → Nat → Nat → Word → Nat × State) : State :=
  let id := BitVec.ofNat 16 (beAt b 0 2)
  let from_ := s.actingManager
  let ack (s : State) (n : Nat) : State := s.plnSend port from_ 0xC (beBytes 2 id.toNat ++ beBytes 2 n)
  match s.pln.appliedFences.find? fun x => x.1 == from_ && x.2.1 == id with
  | some (_, _, n) => ack s n
  | none =>
    let (n, s) := act s (byteAt b 2) (beAt b 4 2 % 2048) (BitVec.ofNat 64 (beAt b 8 8))
    ack { s with pln.appliedFences := s.pln.appliedFences ++ [(from_, id, n)] } n

def execPlaneFence (port : Fin 2) (msg : Bytes) (s : State) : Out :=
  s.fromManager port 0xA msg fun s b => s.fenceOnce port b fun s kind p id =>
    let l := s.fencePorts kind p id
    let changed := l.filter fun q => !s.excluded q || s.portEnabled q
    (changed.length, (l.foldl State.fencePort s).plnEvent 0xB 0x3FF p 0 0 id)

def execPlaneUnfence (port : Fin 2) (msg : Bytes) (s : State) : Out :=
  s.fromManager port 0xB msg fun s b => s.fenceOnce port b fun s kind p id =>
    let l := s.unfencePorts kind p id
    let s := (l.foldl (fun s p => s.setExclude p false) s).incFld R.FWD_MCAST_STATUS F.FWD_MCAST_STATUS_MASK_EPOCH
    (l.length, s.plnEvent 0xC 0x3FF p 0 0 id)

/-- An acknowledgement: the fence is sent no more to that worker; a module fenced or unfenced shows in its STATE. -/
def execAck (port : Fin 2) (msg : Bytes) (s : State) : Out :=
  s.fromWorker port 0xC msg fun s n b =>
    let mine (x : PendingFence) : Bool := x.id.toNat == beAt b 0 2 && x.dest == n
    match s.pln.fences.find? mine with
    | none => s
    | some x =>
      let s : State := { s with pln.fences := s.pln.fences.filter fun x => !mine x }
      if byteAt x.body 2 = 1 ∧ n ≠ 1023 then s.setWorker n (if x.unfence then 1 else 3) else s

/-! ## Fences at the manager (spec/17 R448, R450) -/

/-- Fences of the budget's window. -/
def State.inWindow (s : State) : List Nat :=
  s.pln.fenceTimes.filter fun t => decide (s.nowSec < t + s.cfld R.PLN_BUDGET F.PLN_BUDGET_WINDOW_S)

/-- The workers that a fence of a kind is sent to. -/
def State.fenceDests (s : State) (kind : Nat) (id : Word) : List Nat :=
  if kind = 2 then s.workers.filter fun n => s.workerState n == 1 else (s.workerOf id).toList

/-- A FENCE or UNFENCE is issued; a FENCE counts once in the window. -/
def State.issueFence (s : State) (kind port : Nat) (id : Word) (unfence : Bool) : State :=
  let fid := s.pln.fenceId + 1
  let body := beBytes 2 fid.toNat ++ beBytes 1 kind ++ beBytes 1 0 ++ beBytes 2 port ++ beBytes 2 0 ++ beBytes 8 id.toNat
  let l := (s.fenceDests kind id).map fun n => PendingFence.mk fid n unfence body
  let s : State := { s with pln.fenceId := fid, pln.fences := s.pln.fences ++ l,
                            pln.fenceTimes := if unfence then s.inWindow else s.inWindow ++ [s.nowSec] }
  l.foldl (fun s x => s.sendBoth x.dest (if unfence then 0xB else 0xA) body) s

/-- PLN_FENCE_RESP. -/
def State.fenceResp (s : State) (result reason ticket tag : Nat) : State :=
  s.wr R.PLN_FENCE_RESP (F.PLN_FENCE_RESP_RESULT.put result ||| F.PLN_FENCE_RESP_REASON.put reason |||
    F.PLN_FENCE_RESP_IN_WINDOW.put (min s.inWindow.length 255) ||| F.PLN_FENCE_RESP_TICKET.put ticket |||
    F.PLN_FENCE_RESP_TAG.put tag)

/-- PLN_FENCE_REQ.GO over its values. A target that no worker list names, or an undefined KIND, is refused with RANGE (log entry
53). -/
def State.fenceAsk (s : State) (req target : Word) : State :=
  let kind := F.PLN_FENCE_REQ_KIND.get req
  let port := F.PLN_FENCE_REQ_PORT.get req
  let tag := F.PLN_FENCE_REQ_TAG.get req
  let unfence := F.PLN_FENCE_REQ_UNFENCE.get req = 1
  let s := (s.wr R.PLN_FENCE_REQ (F.PLN_FENCE_REQ_AUTOMATED.put (F.PLN_FENCE_REQ_AUTOMATED.get req) |||
    F.PLN_FENCE_REQ_KIND.put kind ||| F.PLN_FENCE_REQ_UNFENCE.put (b2n unfence) ||| F.PLN_FENCE_REQ_PORT.put port |||
    F.PLN_FENCE_REQ_TAG.put tag)).wr R.PLN_FENCE_TARGET target
  if s.acting = false then s.fenceResp 3 0 0 tag
  else if kind = 0 ∨ (kind ≠ 2 ∧ (s.workerOf target).isNone) then s.fenceResp 2 0x10 0 tag
  else if unfence ∨ F.PLN_FENCE_REQ_AUTOMATED.get req = 0 ∨ s.inWindow.length < s.cfld R.PLN_BUDGET F.PLN_BUDGET_COUNT then
    (s.issueFence kind port target unfence).fenceResp 0 0 0 tag
  else match (List.range 64).find? fun n => !s.flag (R.PLN_HELD n) F.PLN_HELD_VALID with
    | none => s.fenceResp 2 0x13 0 tag
    | some n =>
      let s := (s.wr (R.PLN_HELD n) (F.PLN_HELD_VALID.put 1 ||| F.PLN_HELD_KIND.put kind ||| F.PLN_HELD_PORT.put port |||
        F.PLN_HELD_TAG.put tag ||| F.PLN_HELD_SECONDS.put s.nowSec)).wr (R.PLN_HELD_ID n) target
      (s.plnEvent 0xD ((s.workerOf target).getD 0x3FF) port 0 0 target).fenceResp 1 0 n tag

def execFenceRequest (req : Word) (target : Word) (s : State) : Out := .next (s.fenceAsk req target)

/-- PLN_FENCE_CONFIRM.GO: a held request is applied and counted, or cancelled. -/
def State.fenceDecide (s : State) (cancel : Bool) (n : Nat) : State :=
  let s := s.wr R.PLN_FENCE_CONFIRM (F.PLN_FENCE_CONFIRM_CANCEL.put (b2n cancel) ||| F.PLN_FENCE_CONFIRM_TICKET.put n)
  if s.acting = false ∨ s.flag (R.PLN_HELD n) F.PLN_HELD_VALID = false then s
  else
    let x := s.rd (R.PLN_HELD n)
    let id := s.rd (R.PLN_HELD_ID n)
    let s := (s.wr (R.PLN_HELD n) 0).wr (R.PLN_HELD_ID n) 0
    if cancel then s else s.issueFence (F.PLN_HELD_KIND.get x) (F.PLN_HELD_PORT.get x) id false

def execFenceConfirm (cancel : Bool) (ticket : BitVec 6) (s : State) : Out := .next (s.fenceDecide cancel ticket.toNat)

/-- The body of CIRCUIT: SPL_REQ_A with GO set, SPL_REQ_B and the two identities. -/
def circuitBody (x : CircuitMsg) : Bytes :=
  beBytes 8 (F.SPL_REQ_A_GO.set x.a 1).toNat ++ beBytes 8 x.b.toNat ++ beBytes 8 x.inId.toNat ++ beBytes 8 x.outId.toNat

/-- FENCE, UNFENCE and CIRCUIT messages are resent every 10 ms until answered. `handed` are circuit requests that the manager has been
given to pass on since the last time (log entry 52). -/
def execFenceResend (handed : List CircuitMsg) (s : State) : Out :=
  if s.planeAlive = false ∨ s.acting = false then .next s
  else
    let l := s.pln.circuits ++ handed.map fun x => (x.worker.val, circuitBody x)
    let s := s.pln.fences.foldl (fun s x => s.sendBoth x.dest (if x.unfence then 0xB else 0xA) x.body)
      { s with pln.circuits := l }
    .next (l.foldl (fun s x => s.sendBoth x.1 8 x.2) s)

/-! ## Events and SYNC (spec/17 R440, R447, R451) -/

/-- A worker's event is recorded with the worker's index. -/
def execEvent (port : Fin 2) (msg : Bytes) (s : State) : Out :=
  s.fromWorker port 0xD msg fun s n b =>
    let x : Word := BitVec.ofNat 64 (beAt b 0 8)
    s.plnEvent (F.PLN_EVENT_KIND.get x) n (F.PLN_EVENT_PORT.get x) (F.PLN_EVENT_GROUP.get x) (F.PLN_EVENT_OP_SEQ.get x)
      (BitVec.ofNat 64 (beAt b 16 8))

/-- The held requests. -/
def State.heldList (s : State) : List Nat := (List.range 64).filter fun n => s.flag (R.PLN_HELD n) F.PLN_HELD_VALID

/-- SYNC carries the fences of the window, the most recent first and at most COUNT of them, and the held requests. -/
def execSyncSend (s : State) : Out :=
  if s.planeAlive = false ∨ s.acting = false ∨ s.otherMember = 0 then .next s
  else
    let l := s.inWindow.reverse.take (s.cfld R.PLN_BUDGET F.PLN_BUDGET_COUNT)
    let h := s.heldList
    .next (s.sendBoth 1023 0xE (beBytes 1 l.length ++ beBytes 1 h.length ++ beBytes 2 0 ++ (l.flatMap fun t => beBytes 4 t) ++
      h.flatMap fun n => beBytes 8 (s.rd (R.PLN_HELD n)).toNat ++ beBytes 8 (s.rd (R.PLN_HELD_ID n)).toNat))

/-- The standby takes the budget window and the held requests. -/
def execSync (port : Fin 2) (msg : Bytes) (s : State) : Out :=
  s.fromManager port 0xE msg fun s b =>
    if s.role ≠ 3 then s
    else
      let n := byteAt b 0
      let at_ (i : Nat) : Nat := instantNs s (BitVec.ofNat 64 (beAt b (4 + 4 * i) 4 * 2 ^ 32)) / 1000000000
      let s : State := { s with pln.fenceTimes := ((List.range n).map at_).reverse }
      (List.range 64).foldl (fun s k =>
        let i := 4 + 4 * n + 16 * k
        let w (i : Nat) : Word := if k < byteAt b 1 then BitVec.ofNat 64 (beAt b i 8) else 0
        (s.wr (R.PLN_HELD k) (w i)).wr (R.PLN_HELD_ID k) (w (i + 8))) s

/-! ## Wellhead load (spec/17 R452) -/

/-- The shed level changes by one and is recorded. -/
def State.shedTo (s : State) (level : Nat) : State :=
  (s.setFld R.PLN_WH_LOAD F.PLN_WH_LOAD_LEVEL level).plnEvent 0x11 0x3FF level 0 0 0

/-- A window of 100 ms ends. -/
def execLoadWindow (load : BitVec 8) (s : State) : Out :=
  let n := min load.toNat 100
  let level := s.fld R.PLN_WH_LOAD F.PLN_WH_LOAD_LEVEL
  let cool := if n < 70 then s.pln.coolWindows + 1 else 0
  let s := s.setFld R.PLN_WH_LOAD F.PLN_WH_LOAD_LOAD n
  if 90 ≤ n ∧ level < 3 then .next ({ s with pln.coolWindows := cool }.shedTo (level + 1))
  else if 10 ≤ cool then
    let s : State := { s with pln.coolWindows := 0 }
    .next (if 0 < level then s.shedTo (level - 1) else s)
  else .next { s with pln.coolWindows := cool }

end Sys2Proof.Machine
end

