-- ==== Sys2Proof/Machine/Egress.lean ====
section
/-! DEFINITION. The egress side of the switch core: scheduling, ageing at dequeue, ECN marking, transparent-clock corrections, stomps,
frames of the internal ports, and sFlow datagrams (spec/08 R224, R234, R237, R238, R241 to R245; spec/12 R348, R349). -/

namespace Sys2Proof.Machine

/-! ## ECN (spec/08 R242, R243) -/

/-- The factor f in quarters for the queues of a quadrant. -/
def State.ecnFactor (s : State) (q : Nat) : Nat :=
  if s.bit R.SIL_MON_BELOW (7 * q + 4) then 4 - s.fld R.SWC_CTRL F.SWC_CTRL_ECN_TIGHTEN else 4

/-- A ramp from `lo` to `hi` with a ceiling of PMAX / 256, as a fraction. -/
def ecnRamp (pmax x lo hi : Nat) : Nat × Nat := if x < lo then (0, 1) else if x < hi then (pmax * (x - lo), 256 * (hi - lo)) else (1, 1)

/-- The greater of two fractions. -/
def maxFrac (a b : Nat × Nat) : Nat × Nat := if a.1 * b.2 < b.1 * a.2 then b else a

/-- The marking probability of a frame of class c on port p with a queue depth in cells and a sojourn in ns. -/
def State.ecnProb (s : State) (p c depth sojourn : Nat) : Nat × Nat :=
  let k := s.cfld (R.SWC_PAIR_PROFILE (p / 8)) F.SWC_PAIR_PROFILE_ECN
  let d := R.SWC_ECN_DEPTH k c
  let t := R.SWC_ECN_TIME k c
  let f := s.ecnFactor (portQuad p)
  let u := s.rateUnits p
  let pmax := s.cfld d F.SWC_ECN_DEPTH_PMAX
  let smin := s.cfld t F.SWC_ECN_TIME_SMIN
  if s.cfld d F.SWC_ECN_DEPTH_ENABLE = 0 then (0, 1)
  else maxFrac (ecnRamp pmax (4 * depth) (u * s.cfld d F.SWC_ECN_DEPTH_KMIN * f) (u * s.cfld d F.SWC_ECN_DEPTH_KMAX * f))
    (if smin = 0 then (0, 1) else ecnRamp pmax (4 * sojourn) (smin * 1000 * f) (s.cfld t F.SWC_ECN_TIME_SMAX * 1000 * f))

/-- A frame at dequeue is marked with that probability: the draw is a free value. -/
def State.ecnMark (s : State) (p c depth sojourn : Nat) (b : Bytes) : Bytes × State :=
  let x := s.parse b
  let e := x.tos b % 4
  if x.ip = 0 ∨ (e ≠ 1 ∧ e ≠ 2) then (b, s)
  else
    let (num, den) := s.ecnProb p c depth sojourn
    let (v, s) := s.draw
    if v.toNat * den < num * 2 ^ 64 then (markCe b x, s.count (ctrSwcClass p c 3)) else (b, s)

/-! ## Transparent clock (spec/12 R348, R349) -/

/-- The trailer of an IPv6 event message takes up a change of the words before it, so the UDP checksum stays right. -/
def adjustTrailer (trailer before after : Nat) (odd : Bool) : Nat :=
  let d := fold16 ((0xFFFF - fold16 after) + fold16 before)
  let d := if odd then d % 256 * 256 + d / 256 else d
  fold16 (trailer + d)

/-- The residence time, in 2^-16 ns, enters the correctionField of a forwarded Sync or Delay_Req. -/
def State.tcCorrect (s : State) (p : Nat) (f : Stored) (b : Bytes) (capture : TimeStamp) : Bytes × State :=
  let x := s.parse b
  match x.ptp b with
  | none => (b, s)
  | some i =>
    if f.ingress < 2048 ∧ byteAt b i % 16 ≤ 1 ∧ byteAt b (i + 4) ≠ s.fld R.TIM_CTRL F.TIM_CTRL_DOMAIN then
      let r := s.txTime p capture - s.rxTime f.ingress f.capture
      let c := signedOf 64 (beAt b (i + 8) 8) + r
      let msg := patch (b.drop i) 8 (beBytes 8 (c % 2 ^ 64).toNat)
      let len := beAt b (i + 2) 2
      match x.udp with
      | none => (b.take i ++ msg, s)
      | some u =>
        if x.ip = 4 then (patch (b.take i ++ msg) (u + 6) [0, 0], s)
        else if beAt b (u + 4) 2 = 8 + len + 2 then
          let old := onesSum ((b.drop i).take len)
          let new := onesSum (msg.take len)
          (patch (b.take i ++ msg) (i + len) (beBytes 2 (adjustTrailer (beAt b (i + len) 2) old new (len % 2 == 1))), s)
        else (b, s.count (ctrTim 3))
    else (b, s)

/-! ## Scheduling (spec/08 R241) -/

/-- The scheduling profile of a port's class. -/
def State.sched (s : State) (p c : Nat) : Nat := R.SWC_SCHED_PROFILE (s.cfld (R.SWC_PAIR_PROFILE (p / 8)) F.SWC_PAIR_PROFILE_SCHED) c

/-- The head of an egress queue. -/
def State.headFrame (s : State) (p c : Nat) : Option (QEntry × Stored) := match s.queue p c with
  | [] => none
  | e :: _ => (s.frame? e.frame).map fun f => (e, f)

/-- Whether a port serves a class: it holds a frame, is not paused, and has credits for its head frame; a port in QUARANTINE
passes IEEE 1588 frames alone, which consume no credits (spec/06 R179, R181), and a frame on a slotted lane must end within its
window (spec/11 R326). -/
def State.eligible (s : State) (p c : Nat) : Bool := match s.headFrame p c with
  | none => false
  | some (_, f) =>
    let ptp := s.isPtp f
    (s.portUp p || (s.portState p == psQuarantine && ptp)) && s.canSend p (s.formedLen p f) && (f.control || !s.paused p c) &&
      (s.portFc p != 2 || ptp || decide (cellsOf (s.formedLen p f) ≤ s.credit p c))

/-- The deficit of a class. -/
def State.deficit (s : State) (p c : Nat) : Nat := sget 0 s.swc.deficits (qKey p c)

/-- The deficit takes a value. -/
def State.setDeficit (s : State) (p c d : Nat) : State := { s with swc.deficits := sset 0 s.swc.deficits (qKey p c) d }

/-- The round robin of a port moves on: `t` is 0 or 1 + c to visit class c next, 9 + c within the visit of class c. -/
def State.setTurn (s : State) (p t : Nat) : State := { s with swc.turn := sset 0 s.swc.turn p t }

/-- The class the round robin serves next; fuel bounds the visits. -/
def State.roundRobin (s : State) (p : Nat) : Nat → Option Nat × State
  | 0 => (none, s)
  | n + 1 =>
    let t := sget 0 s.swc.turn p
    let c := if t = 0 then 7 else (t - 1) % 8
    let mid := decide (9 ≤ t)
    let next (s : State) : State := s.setTurn p (if c = 0 then 8 else c)
    if s.eligible p c ∧ s.cfld (s.sched p c) F.SWC_SCHED_PROFILE_STRICT = 0 then
      let d := s.deficit p c + (if mid then 0 else s.cfld (s.sched p c) F.SWC_SCHED_PROFILE_WEIGHT * 1024)
      let len := match s.headFrame p c with
        | some (_, f) => s.formedLen p f
        | none => 0
      if len ≤ d then (some c, (s.setDeficit p c (d - len)).setTurn p (9 + c))
      else (next (s.setDeficit p c d)).roundRobin p n
    else (next s).roundRobin p n

/-- The queue a port serves next: its control frames, its strict classes, highest first, then the round robin. -/
def State.pickClass (s : State) (p : Nat) : Option Nat × State :=
  if s.eligible p ctlQueue then (some ctlQueue, s)
  else match [7, 6, 5, 4, 3, 2, 1, 0].find? fun c =>
      s.cfld (s.sched p c) F.SWC_SCHED_PROFILE_STRICT == 1 && s.eligible p c with
  | some c => (some c, s)
  | none => if (List.range 8).any fun c => s.eligible p c then s.roundRobin p 640 else (none, s)

/-- Copies at the heads of a port's queues are discarded while the port is excluded (spec/08 R237); fuel bounds their
number. -/
def State.dropExcluded (s : State) (p c : Nat) : Nat → State
  | 0 => s
  | n + 1 => match s.queue p c with
    | e :: t =>
      if s.isCopy e then
        (((s.setQueue p c t).count (ctrSwcPort p 6)).release e.frame).dropExcluded p c n
      else s
    | [] => s

/-- The frame at the head of a queue leaves; `errs` are the errors that its egress stages find in the tables. -/
def State.sendHead (s : State) (p c : Nat) (capture : TimeStamp) (errs : List TableErr) : State := match s.queue p c with
  | [] => s
  | e :: t =>
    let s := s.setQueue p c t
    match s.frame? e.frame with
    | none => s
    | some f =>
      if s.aged f then s.ageOut p f.cls e.frame
      else
      let s := s.tableErrs (portSlice p) errs
      match s.form p f with
        | .unagreed => (s.count (ctrSlice (portSlice p) 5)).release e.frame
        | .exc => (s.excAction F.FWD_GLOBAL_CTRL_EXC_ACTION (some (portSlice p)) e.frame f).2
        | .send b =>
          let ptp := s.isPtp f
          let plain := f.egress = .asIs ∨ f.egress = .mirror
          let (b, s) := if plain then (b, s) else s.ecnMark p f.cls (s.depth p c) (s.now - e.placed) b
          let (b, s) := if ptp ∧ f.egress ≠ .mirror then s.tcCorrect p f b capture else (b, s)
          let (n, s) := s.transmit p f b f.bad
          (s.updFrame e.frame fun y => { y with copies := n }).release e.frame

/-- A frame that is being cut through on a port has been sent; then the scheduler serves one frame. -/
def execFrameDequeue (p : Fin 2048) (capture : TimeStamp) (errs : List TableErr) (s : State) : Out :=
  let s := if s.portUp p ∧ s.laneOpen p then s.finishSending p else s
  let s := if s.excluded p then (List.range 9).foldl (fun s c => s.dropExcluded p c (s.queue p c).length) s else s
  match s.pickClass p with
  | (some c, s) => .next (s.sendHead p c capture errs)
  | (none, s) => .next s

/-! ## Stomps (spec/08 R234) -/

/-- A frame that is being cut through is found bad after `sent` of its bytes have left. -/
def execStomp (p : Fin 2048) (reason : BitVec 8) (sent : Nat) (s : State) : Out :=
  match s.swc.sending.find? fun x => x.1 == p.val with
  | none => .next s
  | some (_, x) =>
    if reason = 0 ∨ 4 < reason.toNat then .next s
    else .next (({ s with swc.sending := sdel s.swc.sending p }.transmit p x.frame (x.bytes.take sent) reason.toNat).2)

/-! ## Internal ports (spec/08 R224) -/

/-- The frame at the head of a quadrant's internal port enters when the shared pool can take it and the slice and buffer bays, which it
wakes, are active; while forwarding is not active it is discarded (spec/16 R419; spec/14 R382). -/
def execInternalFrame (q : Fin 4) (errs : List TableErr) (s : State) : Out :=
  match sget [] s.swc.internal q with
  | [] => .next s
  | i :: t =>
    let k := cellsOf (i.bytes.length + 4)
    let pop : State := { s with swc.internal := sset [] s.swc.internal q t }
    if s.fwdAdmits = false then .next (pop.count (ctrSlice (2 * q) 15))
    else if s.bayWait [sliceBay q, bufferBay q] then .next (s.wakeBays [sliceBay q, bufferBay q])
    else if s.bayLost (sliceBay q) ∨ s.bayLost (bufferBay q) ∨ s.sharedFree q < k then .next s
    else
      let b := i.bytes
      let x := s.parse b
      let f : Stored := { id := 0, bytes := b, ingress := 2048 + q, cls := i.cls, egress := .asIs, epoch := s.epoch,
                          stamp := s.now, hfh := ((x.header b).map Hfh.version).getD 0, routed := i.route == .lookup,
                          quad := q, refs := 1, shared := k }
      let (id, s) := (pop.tableErrs (portSlice (2048 + q)) errs).store f
      match i.route with
      | .port p => .next (s.dispatchFate id f x (.one p .direct) 0).2
      | .mcast g => .next (s.dispatchFate id f x (s.mcastFate (2048 + q) g) 0).2
      | .lookup =>
        let bank := s.epoch % 2
        let act := s.classify bank (2048 + q) i.cls b x
        let l := (List.range 16).filter fun n => act / 2 ^ 27 == n + 1 && s.mirFld n F.SWC_MIRROR_CTRL_ENABLE == 1
        let (copies, s) := s.mirror l 0 q b 0
        let s := s.updFrame id fun y => { y with copies := copies }
        let (fate, s) : Fate × State :=
          if bitOf act 24 then (.drop (some 10), s) else s.route bank (2048 + q) i.cls b x
        .next (s.dispatchFate id { f with copies := copies } x fate 0).2

/-! ## sFlow (spec/08 R245) -/

/-- A flow sample of an sFlow version 5 datagram. The sample pool is a free value. -/
def sflowSample (x : Sample) (seq drops : Nat) (pool : Word) : Bytes :=
  let src := if x.sampler < 2048 then x.sampler + 1 else 2 * 2 ^ 24 + (x.sampler - 2048) + 1
  let n := x.header.length
  let pad := List.replicate ((4 - n % 4) % 4) 0
  let rec_ := beBytes 4 1 ++ beBytes 4 x.length ++ beBytes 4 4 ++ beBytes 4 n ++ x.header ++ pad
  let body := beBytes 4 seq ++ beBytes 4 src ++ beBytes 4 x.rate ++ beBytes 4 pool.toNat ++ beBytes 4 drops ++
    beBytes 4 (x.input + 1) ++ beBytes 4 x.output ++ beBytes 4 1 ++ beBytes 4 1 ++ beBytes 4 rec_.length ++ rec_
  beBytes 4 1 ++ beBytes 4 body.length ++ body

/-- Flow samples taken from the oldest until a payload of 1,400 bytes is reached: their bytes and number. -/
def State.sflowTake (s : State) (drops : Nat) : List Sample → Nat → Bytes → Nat × Bytes × State
  | [], n, b => (n, b, s)
  | x :: t, n, b =>
    if 1400 ≤ b.length then (n, b, s)
    else
      let seq := sget 0 s.swc.sampleSeq x.sampler + 1
      let (pool, s) := s.draw
      let s := { s with swc.sampleSeq := sset 0 s.swc.sampleSeq x.sampler seq, swc.samples := t }
      s.sflowTake drops t (n + 1) (b ++ sflowSample x seq drops pool)

/-- An address of an sFlow register pair. -/
def State.sflowAddr (s : State) (r : Nat → Nat) : Nat := (s.committed (r 0)).toNat * 2 ^ 64 + (s.committed (r 1)).toNat

/-- A datagram of samples leaves on MGA, or on MGB while MGA is down, from the agent address (log entry 37). -/
def execSflowDatagramSend (mgaDown : Bool) (s : State) : Out :=
  if s.cfld R.SWC_SFLOW_CTRL F.SWC_SFLOW_CTRL_ENABLE = 0 ∨ s.swc.samples = [] then .next s
  else
    let agent := s.sflowAddr R.SWC_SFLOW_AGENT
    let dst := s.sflowAddr R.SWC_SFLOW_COLLECTOR
    let c := sget {} s.cnt.counters (ctrSwc 21)
    let (up, s) := s.draw
    let (x, s) := s.draw
    let seq := s.swc.sflowSeq + 1
    let head := beBytes 4 5 ++ (if ipv4Mapped agent then beBytes 4 1 ++ beBytes 4 agent else beBytes 4 2 ++ beBytes 16 agent) ++
      beBytes 4 0 ++ beBytes 4 seq ++ beBytes 4 up.toNat
    let (n, b, s) := s.sflowTake (c.value + c.acc) s.swc.samples 0 (head ++ beBytes 4 0)
    let payload := patch b head.length (beBytes 4 n)
    let port := s.cfld R.SWC_SFLOW_CTRL F.SWC_SFLOW_CTRL_UDP_PORT
    let d := if ipv4Mapped dst then udp4 agent dst port port x.toNat payload else udp6 agent dst port port x.toNat payload
    .next ({ s with swc.sflowSeq := seq }.sendMgmt (b2n mgaDown) d)

end Sys2Proof.Machine
end

