-- ==== Sys2Proof/Machine/Ptp.lean ====
section
/-! DEFINITION. IEEE 1588 messages of the boundary clock, PPS, and timed actions that a step of the time base passes (spec/12 R346 to
R356). -/

namespace Sys2Proof.Machine

/-! ## Timed actions (spec/12 R355) -/

/-- The timed actions that wait: their instants, an epoch flip 0, a spillway flip 1, a boundary of a fallback or resumption 2, a
freeze of the counters 3. Plane flips are the flips of each module. -/
def State.timed (s : State) : List (Nat × Nat) :=
  (if s.epochState = 1 then [(s.fwd.flipAt, 0)] else []) ++
    (if s.fld R.SPL_STATUS F.SPL_STATUS_FLIP_STATE = 1 then [(s.spl.flipAt, 1)] else []) ++
    (match s.spl.changeAt with
      | some t => [(t, 2)]
      | none => []) ++
    (if s.snapState = 0 then [] else [(s.cnt.nextAt, 3)])

/-- The action that comes first of those due; of two at one instant the earlier in the list. -/
def State.firstTimed (s : State) : Option (Nat × Nat) :=
  (s.timed.filter fun x => decide (x.1 ≤ s.now)).foldl (fun a x => match a with
    | none => some x
    | some y => if x.1 < y.1 then some x else some y) none

/-- Timed actions whose instants have come are taken in order of instant; fuel bounds their number. -/
def State.takeTimed (s : State) : Nat → State
  | 0 => s
  | n + 1 => match s.firstTimed with
    | none => s
    | some (_, 0) => s.epochFlip.takeTimed n
    | some (_, 1) => s.flipDue.takeTimed n
    | some (_, 2) => s.fallbackDue.takeTimed n
    | some _ => s.freezeDue.freezesPassed.takeTimed n

/-- A step of the time base forward takes the actions that it passes: one of each kind, and one more flip of the spillway's own
boundary. -/
def State.afterStep (s : State) : State := s.takeTimed 8

/-! ## Messages (spec/12 R346, R349) -/

/-- A PTP time stamp of 10 bytes: seconds and whole nanoseconds. -/
def ptpStamp (u : Int) : Bytes :=
  let ns := u.toNat / 65536
  beBytes 6 (ns / 1000000000) ++ beBytes 4 (ns % 1000000000)

/-- The fraction of a nanosecond of a time. -/
def unitsFrac (u : Int) : Int := u.toNat % 65536

/-- The PTP header of IEEE 1588-2019 (log entry 32): type, body length, flags, correction, sequence, control, interval. -/
def State.ptpHeader (s : State) (p ty len flags : Nat) (corr : Int) (seq control interval : Nat) : Bytes :=
  beBytes 1 ty ++ beBytes 1 0x12 ++ beBytes 2 (34 + len) ++ beBytes 1 (s.fld R.TIM_CTRL F.TIM_CTRL_DOMAIN) ++ beBytes 1 0 ++
    beBytes 2 flags ++ beBytes 8 (corr % 2 ^ 64).toNat ++ beBytes 4 0 ++ beBytes 8 s.identity.toNat ++ beBytes 2 (p + 1) ++
    beBytes 2 seq ++ beBytes 1 control ++ beBytes 1 interval

/-- The bytes of a PTP message's frame on a port, with its FCS. -/
def State.ptpFrameLen (s : State) (p len : Nat) : Nat :=
  if s.flag (R.TIM_PORT_CFG p) F.TIM_PORT_CFG_TRANSPORT then 14 + 48 + len + 2 + 4 else max 64 (14 + len + 4)

/-- Whether a message may leave on a port now: a slotted lane sends within its windows (spec/12 R347). -/
def State.ptpMaySend (s : State) (p len : Nat) : Bool := decide (2048 ≤ p) || s.canSend p (s.ptpFrameLen p len)

/-- A PTP message leaves on a port over the port's transport; with FWD_FAR_PREFIX 0 an IPv6 port sends nothing. Every IPv6
frame carries the two-byte trailer that Annex D allows. The source address on a management port is a free value (log entry 29). -/
def State.ptpSend (s : State) (p udpPort : Nat) (msg : Bytes) : State :=
  let mac := s.mac
  if s.flag (R.TIM_PORT_CFG p) F.TIM_PORT_CFG_TRANSPORT then
    if s.rd R.FWD_FAR_PREFIX = 0 then s
    else
      let (x, s) := s.draw
      let g := 0xFF0E * 2 ^ 112 + 0x181
      let d := udp6 (s.farAddr s.identity.toNat) g udpPort udpPort x.toNat (msg ++ beBytes 2 0)
      if 2048 ≤ p then s.sendMgmt (p - 2048) d else s.txFrame p (ethHeader 0x333300000181 mac 0x86DD ++ d)
  else if 2048 ≤ p then
    let (x, s) := s.draw
    s.sendMgmt (p - 2048) (padFrame (ethHeader 0x011B19000000 (x.toNat % 2 ^ 48) 0x88F7 ++ msg))
  else s.txFrame p (padFrame (ethHeader 0x011B19000000 mac 0x88F7 ++ msg))

/-- A one-step Sync. -/
def State.sendSync (s : State) (p : Nat) (t : Int) : State :=
  let x := s.ptp p
  let m := s.ptpHeader p 0 10 0 (unitsFrac t) x.syncSeq.toNat 0 (s.logSync % 256).toNat ++ ptpStamp t
  ((s.setPtp p { x with syncSeq := x.syncSeq + 1 }).count (ctrTimPort p 0)).ptpSend p 319 m

/-- An Announce: the grandmaster's attributes and time properties while the module follows a parent, else the module's own, whose
time properties are free (log entry 32). -/
def State.sendAnnounce (s : State) (p : Nat) : State :=
  let x := s.ptp p
  let attr : Bytes := match s.tim.parent with
    | some m => beBytes 2 m.utcOffset.toNat ++ beBytes 1 0 ++ beBytes 1 m.priority1.toNat ++ beBytes 1 m.clockClass.toNat ++
        beBytes 1 m.accuracy.toNat ++ beBytes 2 m.variance.toNat ++ beBytes 1 m.priority2.toNat ++ beBytes 8 m.gmId.toNat ++
        beBytes 2 (m.steps.toNat + 1)
    | none => beBytes 2 (s.fld R.TIM_CLOCK F.TIM_CLOCK_UTC_OFFSET) ++ beBytes 1 0 ++
        beBytes 1 (s.fld R.TIM_CLOCK F.TIM_CLOCK_PRIORITY1) ++ beBytes 1 s.ownClass ++ beBytes 1 0xFE ++
        beBytes 2 Config.clockVariance.toNat ++ beBytes 1 (s.fld R.TIM_CLOCK F.TIM_CLOCK_PRIORITY2) ++
        beBytes 8 s.identity.toNat ++ beBytes 2 0
  let (flags, source) : Byte × Byte := match s.tim.parent with
    | some m => (m.timeFlags, m.timeSource)
    | none => (Config.timeFlags, Config.timeSource)
  let m := s.ptpHeader p 0xB 30 flags.toNat 0 x.announceSeq.toNat 5 (s.logAnnounce % 256).toNat ++ ptpStamp 0 ++ attr ++
    beBytes 1 source.toNat
  (s.setPtp p { x with announceSeq := x.announceSeq + 1 }).ptpSend p 320 m

/-- A Delay_Req; the whole nanoseconds of its egress time are t3, and the fraction comes back in the correctionField of the answer.
-/
def State.sendDelayReq (s : State) (p : Nat) (t : Int) : State :=
  let x := s.ptp p
  let m := s.ptpHeader p 1 10 0 (unitsFrac t) x.delaySeq.toNat 1 0x7F ++ ptpStamp t
  (s.setPtp p { x with delaySeq := x.delaySeq + 1, t3 := some (t - unitsFrac t) }).ptpSend p 319 m

/-- A Delay_Resp to a Delay_Req received at t4. -/
def State.sendDelayResp (s : State) (p : Nat) (req : PtpMsg) (t : Int) : State :=
  let interval := clampLog (-7) 0 (s.fld R.TIM_INTERVAL F.TIM_INTERVAL_LOG_DELAY_REQ)
  let corr := signedOf 64 req.correction.toNat - unitsFrac t
  let m := s.ptpHeader p 9 20 0 corr req.seq.toNat 3 (interval % 256).toNat ++ ptpStamp t ++ beBytes 8 req.source.toNat ++
    beBytes 2 req.sourcePort.toNat
  (s.count (ctrTimPort p 3)).ptpSend p 320 m

/-! ## Receiving (spec/12 R346, R350, R352) -/

/-- A message at the boundary clock: foreign domains belong to the transparent clock, or count as PTP_FOREIGN while
TC_ENABLE is 0; a port without PTP counts PTP_PORT_OFF; a port that is DISABLED in PTP takes no part. -/
def State.ptpReceive (s : State) (p : Nat) (m : PtpMsg) (f : State → State) : State :=
  if m.domain.toNat ≠ s.fld R.TIM_CTRL F.TIM_CTRL_DOMAIN then
    if s.flag R.TIM_CTRL F.TIM_CTRL_TC_ENABLE then s else s.count (ctrTim 2)
  else if s.flag (R.TIM_PORT_CFG p) F.TIM_PORT_CFG_PTP = false then s.count (ctrTim 1)
  else if s.ptpOn p = false then s
  else f s

/-- Whether a message comes from the parent on the parent port. -/
def State.fromParent (s : State) (p : Nat) (m : PtpMsg) : Bool := match s.tim.parent with
  | some x => s.tim.parentPort == p && x.source == m.source && x.sourcePort == m.sourcePort
  | none => false

/-- A time stamp of a message with its correction, in 2^-16 ns. -/
def ptpTime (m : PtpMsg) : Int := tsUnits m.origin + signedOf 64 m.correction.toNat

/-- The times of one Sync give an offset when a mean path delay is known. -/
def State.syncTimes (s : State) (p : Nat) (t1 t2 : Int) : State :=
  let x := s.ptp p
  let s := s.setPtp p { x with t1 := some t1, t2 := some t2, waiting := none }
  match x.delay with
  | none => s
  | some d =>
    let asym := psUnits (signedOf 32 (s.fld (R.TIM_PORT_ASYM p) F.TIM_PORT_ASYM_ASYM_PS))
    s.servo (t2 - t1 - (d + asym / 2))

/-- A received Sync: the timed actions that a step passes follow it. -/
def execPtpSync (p : Fin 2050) (msg : PtpMsg) (capture : TimeStamp) (s : State) : Out :=
  .next (s.ptpReceive p msg fun s =>
    let s := s.count (ctrTimPort p 1)
    if s.fromParent p msg = false ∨ s.timState = 0 then s
    else
      let t2 := s.rxTime p capture
      if msg.twoStep then s.setPtp p { s.ptp p with waiting := some (msg, t2) }
      else (s.syncTimes p (ptpTime msg) t2).afterStep)

/-- The Follow_Up of a two-step Sync brings its precise time; both corrections add. -/
def execPtpFollowUp (p : Fin 2050) (msg : PtpMsg) (s : State) : Out :=
  .next (s.ptpReceive p msg fun s =>
    match (s.ptp p).waiting with
    | some (m, t2) =>
      if s.fromParent p msg ∧ m.seq = msg.seq then
        (s.syncTimes p (ptpTime msg + signedOf 64 m.correction.toNat) t2).afterStep
      else s
    | none => s)

def execPtpDelayReq (p : Fin 2050) (msg : PtpMsg) (capture : TimeStamp) (s : State) : Out :=
  .next (s.ptpReceive p msg fun s =>
    let s := s.count (ctrTimPort p 2)
    if s.ptpState p = 6 ∧ s.ptpMaySend p 54 then s.sendDelayResp p msg (s.rxTime p capture) else s)

/-- A Delay_Resp to the module's last Delay_Req gives the mean path delay ((t2 − t1) + (t4 − t3)) / 2. -/
def execPtpDelayResp (p : Fin 2050) (msg : PtpMsg) (s : State) : Out :=
  .next (s.ptpReceive p msg fun s =>
    let x := s.ptp p
    if s.fromParent p msg = false ∨ msg.requester ≠ s.identity ∨ msg.requesterPort.toNat ≠ p + 1 ∨ msg.seq + 1 ≠ x.delaySeq then s
    else match x.t1, x.t2, x.t3 with
      | some t1, some t2, some t3 =>
        let t4 : Int := tsUnits msg.origin - signedOf 64 msg.correction.toNat
        let d := ((t2 - t1) + (t4 - t3)) / 2
        let ps := sat32 (unitsPs d)
        ((s.setPtp p { x with delay := some d, t3 := none }).setFld (R.TIM_PORT_STATE p) F.TIM_PORT_STATE_DELAY_PS ps).setFld
          R.TIM_OFFSET F.TIM_OFFSET_DELAY_PS ps
      | _, _, _ => s)

/-- The window of a foreign master: four Announce intervals, in nanoseconds. -/
def ptpWindow (m : PtpMsg) : Nat := 4 * logNs (signedOf 8 m.logInterval.toNat)

/-- An Announce updates the foreign-master record of its sender, and the best master algorithm runs. -/
def execPtpAnnounce (p : Fin 2050) (msg : PtpMsg) (s : State) : Out :=
  .next (s.ptpReceive p msg fun s =>
    if s.ptpMayFollow p = false ∨ msg.source = s.identity then s
    else
      let mine (f : Foreign) : Bool := f.port == p.val && f.msg.source == msg.source && f.msg.sourcePort == msg.sourcePort
      let n := match s.tim.foreign.find? mine with
        | some f => if s.mono ≤ f.lastAt + ptpWindow msg then f.count + 1 else 1
        | none => 1
      let s := { s with tim.foreign := (s.tim.foreign.filter fun f => !mine f) ++ [Foreign.mk p msg n s.mono] }
      s.bestMaster.ptpDecided s)

/-- The boundary clock transmits at an interval: Sync and Announce as master, Delay_Req on the parent port. -/
def execPtpTransmitInterval (p : Fin 2050) (kind : PtpKind) (capture : TimeStamp) (s : State) : Out :=
  .next (match kind with
    | .sync => if s.ptpState p = 6 ∧ s.ptpMaySend p 44 then s.sendSync p (s.txTime p capture) else s
    | .announce => if s.ptpState p = 6 ∧ s.ptpMaySend p 64 then s.sendAnnounce p else s
    | .delayReq => if s.ptpRole p = 9 ∧ s.ptpMaySend p 44 then s.sendDelayReq p (s.txTime p capture) else s)

/-! ## Loss (spec/12 R352) -/

/-- The Announce receipt timeout of a port: a parent on it is lost; any other port leaves LISTENING. It does not run on a lane that
is lent (spec/12 R347). -/
def execAnnounceTimeout (p : Fin 2050) (s : State) : Out :=
  .next (if s.ptpOn p = false ∨ (p.val < 2048 ∧ s.portLent p) then s
    else if s.tim.parent.isSome ∧ s.tim.parentPort = p.val then s.parentLost
    else { s with tim.foreign := s.tim.foreign.filter fun f => f.port != p.val }.setPtp p { s.ptp p with heard := true })

/-- No valid Sync arrives on the parent port for four Sync intervals. -/
def execSyncLossTimeout (p : Fin 2050) (s : State) : Out :=
  .next (if s.tim.parent.isSome ∧ s.tim.parentPort = p.val then s.parentLost else s)

/-! ## PPS (spec/12 R350, R352, R356) -/

/-- A PPS_IN edge is captured in every mode; in PPS mode the servo steers on it. -/
def execPpsInEdge (s : State) : Out :=
  let s := if s.board.pwrGood then s.wr R.TIM_PPS_IN s.stamp else s
  if s.timSource ≠ 1 ∨ s.board.pwrGood = false then .next s
  else
    let s := if s.timState = 0 ∨ s.timState = 3 then s.timTo 1 else s
    let ns : Int := s.nowNano
    let off := (if 500000000 < ns then ns - 1000000000 else ns) * 65536
    .next (s.servo off).afterStep

/-- In PPS mode 1.5 s pass without an edge. -/
def execPpsMissingTimeout (s : State) : Out :=
  if s.timSource = 1 ∧ s.timState ≠ 0 then .next ((s.timBit F.TIM_STATUS_PPS_MISSING).sourceLost) else .next s

/-- A whole second of the time base, at most 4 ns past: PPS_OUT rises, as it does when the oscillator carries into the seconds
(log entry 4). -/
def execPpsOutSecond (s : State) : Out := .next (if s.nowNano < 4 then { s with board.ppsOut := true } else s)

/-- TIM_SET_NS.GO: the time base is set to SET_SEC and NS_FRAC, which is a step. Nanoseconds of 1,000,000,000 or more are out
of range and set nothing (spec/12 R342). -/
def State.timSet (s : State) : State :=
  let nf := s.fld R.TIM_SET_NS F.TIM_SET_NS_NS_FRAC
  if 1000000000 ≤ nf / 65536 then s
  else (s.timJump (BitVec.ofNat 96 (s.fld R.TIM_SET_SEC F.TIM_SET_SEC_SECONDS * 2 ^ 48 + nf))).afterStep

end Sys2Proof.Machine
end

