-- ==== Sys2Proof/Machine/Receive.lean ====
section
/-! DEFINITION. Receiving a frame on a fabric port: link control, credits, IEEE 1588, far pegs, HFH acceptance, collective
frames, and the hand-over to the switch (spec/06 R181 to R185, Table 6.14; spec/07 R192, R197, R198; spec/12 R346 to R348). -/

namespace Sys2Proof.Machine

/-- The state of an outcome; a meaning that answers no next state leaves the old one. -/
def Out.orElse (o : Out) (s : State) : State := match o with
  | .next t => t
  | _ => s

/-! ## IEEE 1588 messages (spec/12 R345 to R348; log entry 32) -/

/-- The fields of a PTP message, its header first. -/
def ptpMsgOf (m : Bytes) : PtpMsg :=
  let w (i n k : Nat) : BitVec k := BitVec.ofNat k (beAt m i n)
  { domain := w 4 1 8, source := w 20 8 64, sourcePort := w 28 2 16, seq := w 30 2 16, twoStep := bitOf (byteAt m 6) 1,
    logInterval := w 33 1 8, origin := BitVec.ofNat 96 (beAt m 34 6 * 2 ^ 48 + beAt m 40 4 * 2 ^ 16), correction := w 8 8 64,
    requester := w 44 8 64, requesterPort := w 52 2 16, gmId := w 53 8 64, priority1 := w 47 1 8, clockClass := w 48 1 8,
    accuracy := w 49 1 8, variance := w 50 2 16, priority2 := w 52 1 8, steps := w 61 2 16, utcOffset := w 44 2 16, timeFlags := w 7 1 8, timeSource := w 63 1 8 }

/-- Whether a frame carries IEEE 1588 over the transport that its port has chosen: Annex E, or UDP over IPv6 (spec/12 R346). -/
def State.ptpTransport (s : State) (p : Nat) (x : Parsed) : Bool :=
  if s.flag (R.TIM_PORT_CFG p) F.TIM_PORT_CFG_TRANSPORT then x.etype != 0x88F7 && x.ip == 6 else x.etype == 0x88F7

/-- A message of the module's domain at a port: on a port without PTP it is discarded and counted; one over another transport than the
port's is discarded (log entry 32); types that are not supported count as PTP_UNSUPPORTED. -/
def State.ptpIn (s : State) (p : Fin 2050) (x : Parsed) (m : Bytes) (capture : TimeStamp) : State :=
  let msg := ptpMsgOf m
  if s.flag (R.TIM_PORT_CFG p) F.TIM_PORT_CFG_PTP = false then s.count (ctrTim 1)
  else if s.ptpTransport p x = false then s
  else match byteAt m 0 % 16 with
    | 0 => (execPtpSync p msg capture s).orElse s
    | 1 => (execPtpDelayReq p msg capture s).orElse s
    | 8 => (execPtpFollowUp p msg s).orElse s
    | 9 => (execPtpDelayResp p msg s).orElse s
    | 0xB => (execPtpAnnounce p msg s).orElse s
    | _ => s.count (ctrTim 0)

/-! ## Credits at the receiver (spec/06 R182) -/

/-- The cells of a frame are received on its VC; true where they lie beyond the partner's remaining credits. -/
def State.takeCredit (s : State) (p cls k : Nat) : Bool × State :=
  if s.portFc p ≠ 2 then (false, s)
  else
    let x := s.port p
    let v := s.portVc p cls
    let got := sget 0 x.received v
    let room := (sget 0 x.ownInit v + sget 0 x.freed v - got).toNat
    (decide (room < k), s.setPort p { x with received := sset 0 x.received v (got + BitVec.ofNat 32 k) })

/-! ## Collective frames (spec/07 R198, spec/09 Table 9.6) -/

/-- The collective frame behind an accepted HFH. -/
def collFrameOf (p : Nat) (h : Hfh) (b : Bytes) (udp hfh cells id : Nat) : CollFrame :=
  let d := udpOf b udp
  let y := d.drop (hfh - udp + hfhLen h.version)
  { port := p, hfhVersion := h.version, domain := h.domain, group := h.group, operation := h.op, chunk := h.chunk,
    format := h.format, kind := byteAt y 0, version := byteAt y 1, member := beAt y 2 2, opSeq := beAt y 4 2,
    code := beAt y 6 2, offset := beAt y 8 4, count := beAt y 12 2, sealCrc := beAt y 16 4, payload := y.drop 20,
    cells := cells, stored := id }

/-! ## The command -/

/-- Whether a datagram is addressed to the module's peg store (spec/07 R217). -/
def State.isFar (s : State) (b : Bytes) (x : Parsed) : Bool :=
  s.rd R.FWD_FAR_PREFIX != 0 && x.ip == 6 && x.dst b == s.farAddr s.identity.toNat &&
    x.dport b == s.fld R.FWD_FARPEG_CTRL F.FWD_FARPEG_CTRL_UDP_PORT

/-- The counter of a frame whose HFH a port does not accept; none where it is accepted (spec/07 R197). -/
def State.hfhFault (s : State) (p : Nat) (b : Bytes) (x : Parsed) : Option Nat := match x.hfh with
  | none => none
  | some i =>
    let v := s.fld (prtState p) F.PRT_PORT_STATE_HFH
    if v = 0 ∨ byteAt b i / 16 ≠ v then some 5
    else if hfhReservedOk v (slice b i 16) = false then some 6
    else if hfhCrcOk v (slice b i 16) = false then some 7
    else none

/-- Whether an HFH names a collective operation of a group active here. -/
def State.isCollective (s : State) (b : Bytes) (x : Parsed) : Bool := match x.header b with
  | some h => bitOf h.flags 0 && s.grpActive h.group
  | none => false

/-- A frame for the module itself, which is not looked up, is admitted to the buffer and mirrored; a sample of it states no output
that the spec gives (log entry 37). None where it is refused. -/
def State.keepFrame (s : State) (p cls : Nat) (b : Bytes) (h : Nat) (capture : TimeStamp) : Option Nat × State :=
  let f : Stored := { id := 0, bytes := b, ingress := p, cls := cls, egress := .asIs, epoch := s.epoch, stamp := s.now, hfh := h,
                      routed := false, quad := portQuad p, refs := 1, capture := capture }
  match s.admitFrame f with
  | none => (none, ((s.count (ctrSwcClass p cls 0)).returnCells p cls f.cells).sample p false b (b.length + 4) noOutput)
  | some (id, s) =>
    let (n, s) := s.mirror (s.mirrorsOf 0 p) 0 f.quad b 0
    let (v, s) := (s.updFrame id fun y => { y with copies := n }).draw
    (some id, s.sample p false b (b.length + 4) (v.toNat % 2 ^ 32))

/-- A data frame with a right FCS on an agreed port. -/
def State.dataIn (s : State) (p : Nat) (b : Bytes) (x : Parsed) (capture : TimeStamp) (errs : List TableErr) : State :=
  let fault := s.hfhFault p b x
  let cls := s.frameClass b x fault.isNone
  let k := cellsOf (b.length + 4)
  let (beyond, s) := s.takeCredit p cls k
  let drop (s : State) (key : Nat) : State :=
    ((s.returnCells p cls k).count key).sample p false b (b.length + 4) noOutput
  if beyond then drop s (ctrPort p 7)
  else if s.portState p = psQuarantine then drop s (ctrPort p 6)
  else if s.fwdAdmits = false then drop s (ctrSlice (portSlice p) 15)
  else if s.portMax p < b.length + 4 then drop s (ctrSwcPort p 0)
  else match fault with
    | some c => drop s (ctrSlice (portSlice p) c)
    | none =>
      match x.udp, x.hfh, x.header b with
      | some u, some i, some h =>
        if s.isCollective b x then match s.keepFrame p cls b h.version capture with
          | (none, s) => s
          | (some id, s) =>
            s.steer (h.group / 512) (collFrameOf p h b u i k id)
        else s.switchFrame p cls b x true false capture 0 errs
      | some u, _, _ =>
        if s.isFar b x then match s.keepFrame p cls b 0 capture with
          | (none, s) => s
          | (some id, s) => (s.farReceive (portSlice p) ((udpOf b u).drop 8)).release id
        else s.switchFrame p cls b x true false capture 0 errs
      | _, _, _ => s.switchFrame p cls b x true false capture 0 errs

/-- An IEEE 1588 frame: the module's own domain is the clock's; another is forwarded while TC_ENABLE is set (spec/12 R348). -/
def State.ptpFrame (s : State) (p : Fin 2048) (b : Bytes) (x : Parsed) (i : Nat) (capture : TimeStamp) (errs : List TableErr) :
    State :=
  if s.portMax p < b.length + 4 then s.count (ctrSwcPort p 0)
  else if byteAt b (i + 4) = s.fld R.TIM_CTRL F.TIM_CTRL_DOMAIN then s.ptpIn ⟨p.val, by omega⟩ x (b.drop i) capture
  else if s.flag R.TIM_CTRL F.TIM_CTRL_TC_ENABLE = false then s.count (ctrTim 2)
  else s.switchFrame p (s.frameClass b x true) b x false true capture 0 errs

/-- Whether a frame is of a kind that goes no further than its port: LLDP, link control, MAC control (spec/07 Table 7.1; log entry
34). -/
def State.linkOwn (s : State) (x : Parsed) : Bool :=
  x.etype == 0x88CC || x.etype == s.fld R.PRT_GLOBAL_CTRL F.PRT_GLOBAL_CTRL_LINK_ETYPE || x.etype == 0x8808

/-- A link control or IEEE 1588 frame, or a data frame, with a right FCS. A port in QUARANTINE passes LLDP and IEEE 1588 alone, and
counts what else comes (spec/06 R179). -/
def State.goodFrame (s : State) (p : Fin 2048) (frame : Bytes) (capture : TimeStamp) (errs : List TableErr) : State :=
  let b := frame.take (frame.length - 4)
  let x := s.parse b
  if isLldp frame then s.lldpIn p frame
  else match x.ptp b with
    | some i => if s.portAgreed p then s.ptpFrame p b x i capture errs else s
    | none =>
      if s.linkOwn x then s.quarantined p fun s => match s.linkKind frame with
        | some 1 => s.creditIn p frame
        | some 3 => s.laneIn p frame
        | _ =>
          if x.etype = 0x8808 ∧ beAt b 14 2 = 0x0101 then
            s.pfcIn p (BitVec.ofNat 8 (byteAt b 17)) ((List.range 8).map fun c => BitVec.ofNat 16 (beAt b (18 + 2 * c) 2))
          else s
      else if s.portAgreed p = false then s
      else s.dataIn p b x capture errs

/-- A frame whose FCS is wrong: discarded, its cells returned, unless it has been cut through (spec/06 R185, spec/08
R234). -/
def State.badFrame (s : State) (p : Nat) (frame : Bytes) (capture : TimeStamp) (errs : List TableErr) : State :=
  let b := frame.take (frame.length - 4)
  let x := s.parse b
  if s.portAgreed p = false ∨ s.linkOwn x ∨ (x.ptp b).isSome ∨ beAt b 0 6 = bridgeMac then s
  else
    let fault := s.hfhFault p b x
    let cls := s.frameClass b x fault.isNone
    let k := cellsOf frame.length
    let (beyond, s) := s.takeCredit p cls k
    if beyond ∨ s.portUp p = false ∨ s.fwdAdmits = false ∨ s.portMax p < frame.length ∨
        fault.isSome ∨ s.isFar b x ∨ s.isCollective b x then s.returnCells p cls k
    else s.switchFrame p cls b x true false capture 1 errs

/-- A frame arrives on a fabric port. -/
def execFrameReceive (p : Fin 2048) (frame : Bytes) (capture : TimeStamp) (errs : List TableErr) (s : State) : Out :=
  if s.receives p = false then .next s
  else
    let (ok, s) := s.rxStart p frame
    .next (if ok then s.goodFrame p frame capture errs else s.badFrame p frame capture errs)

end Sys2Proof.Machine
end

