-- ==== Sys2Proof/Machine/Security.lean ====
section
/-! DEFINITION. The primary mailbox (spec/03 R90), firmware transfer (spec/15 R401), the vendor security commands (spec/15 R402
to R412), SPDM sessions and IDE keys (spec/15 R413, R414). Answers carry a status and the payload that the spec states, without
the framing of CXL and DMTF (log entry 46). -/

namespace Sys2Proof.Machine

/-! ## The mailbox -/

/-- Whether the Wellhead serves requests: not in start-up before its phase ends, in a restart, or after a power-fail
warning. -/
def State.serves (s : State) : Bool := !s.cfg.wellheadDown && s.board.place == .running

/-- A mailbox command completes with a return code and a payload; while the Wellhead does not serve, the answer is not
ready. -/
def State.mailbox (s : State) (k : State → State × Nat × Bytes) : State :=
  let s := s.count (ctrHif 13)
  if s.serves then
    let (s, code, payload) := k s
    s.answer (leBytes 2 code ++ payload)
  else s.answer []

/-- Success. -/
def mbOk : Nat := 0
/-- Invalid Input. -/
def mbInvalid : Nat := 2
/-- Unsupported. -/
def mbUnsupported : Nat := 3
/-- Busy. -/
def mbBusy : Nat := 6

def execIdentify (s : State) : Out := .next (s.mailbox fun s => (s, mbOk, leBytes 8 s.identity.toNat))

def execGetEventRecords (s : State) : Out := .next (s.mailbox fun s => (s, mbOk, s.host.mailEvents.flatten))

/-- The oldest records are cleared; with none left, ALERT_N is released. -/
def execClearEventRecords (count : Nat) (s : State) : Out :=
  .next (s.mailbox fun s =>
    let l := s.host.mailEvents.drop count
    ({ s with host.mailEvents := l, board.alertN := l.isEmpty || s.board.alertN }, mbOk, []))

def execGetSupportedLogs (s : State) : Out := .next (s.mailbox fun s => (s, mbOk, Config.supportedLogs))

def execGetLog (offset length : Nat) (s : State) : Out :=
  .next (s.mailbox fun s =>
    if offset + length ≤ Config.mailboxLog.length then (s, mbOk, slice Config.mailboxLog offset length) else (s, mbInvalid, []))

/-- Both banks, the active bank and the pending bank. -/
def State.fwInfo (s : State) : Bytes :=
  leBytes 1 s.activeFw ++ leBytes 1 (s.fld R.SEC_FW F.SEC_FW_PENDING) ++ leBytes 4 (fwVersion s.sec.bankA) ++
    leBytes 4 (fwVersion s.sec.bankB)

/-- Get FW Info: on the primary mailbox, or over HOST_I3C, where a module that has stayed in the ROM serves it (spec/15 R404). -/
def execGetFwInfo (i3c : Bool) (s : State) : Out :=
  if i3c then
    let ok := s.serves || (s.phase == 0xF && s.board.place == .running)
    .next ((s.count (ctrHif 10)).answerMctp true (if ok then leBytes 2 mbOk ++ s.fwInfo else []))
  else .next (s.mailbox fun s => (s, mbOk, s.fwInfo))

def execGetTimestamp (s : State) : Out := .next (s.mailbox fun s => (s, mbOk, leBytes 8 s.now))

def execMailboxUnsupported (opcode : BitVec 16) (s : State) : Out :=
  let _ := opcode
  .next (s.mailbox fun s => (s, mbUnsupported, []))

/-! ## Firmware banks (spec/15 R401) -/

/-- A bank's contents. -/
def State.setBank (s : State) (b : Nat) (x : Bytes) : State :=
  if b = 1 then { s with sec.bankA := x } else { s with sec.bankB := x }

/-- A pending activation is set or cleared in the control region. -/
def State.setPending (s : State) (p : Option Nat) : State :=
  if s.control.pending = p then s else (s.setControl s.control.active p).secFw

/-- Bytes of a bank. -/
def bankSize : Nat := 56 * 2 ^ 20

/-- One part of a transfer: parts follow each other without a gap (log entry 47). -/
def State.transferPart (s : State) (part : TransferPart) (offset : Nat) (data : Bytes) : State × Nat × Bytes :=
  let b := 3 - s.activeFw
  match part, s.sec.transfer with
  | .initiate, some _ => (s, mbBusy, [])
  | .initiate, none =>
    if offset ≠ 0 ∨ bankSize < data.length then (s, mbInvalid, [])
    else
      let s := s.setBank b []
      let s := if s.control.pending = some b then s.setPending none else s
      ({ s with sec.transfer := some (b, data) }, mbOk, [])
  | .abort, some _ => ({ s with sec.transfer := none }, mbOk, [])
  | .continue_, some (t, d) =>
    if offset ≠ d.length ∨ bankSize < d.length + data.length then (s, mbInvalid, [])
    else ({ s with sec.transfer := some (t, d ++ data) }, mbOk, [])
  | .finish, some (t, d) =>
    if offset ≠ d.length ∨ bankSize < d.length + data.length then (s, mbInvalid, [])
    else ({ s with sec.transfer := none }.setBank t (d ++ data), mbOk, [])
  | _, none => (s, mbInvalid, [])

def execTransferFw (part : TransferPart) (offset : Nat) (data : Bytes) (s : State) : Out :=
  .next (s.mailbox fun s => s.transferPart part offset data)

/-- A bank that passes R400 is recorded as pending. -/
def execActivateFw (bank : Fin 2) (s : State) : Out :=
  .next (s.mailbox fun s =>
    if s.sec.transfer.isSome then (s, mbBusy, [])
    else if s.bootable (bank + 1) then (s.setPending (some (bank + 1)), mbOk, [])
    else (s, mbInvalid, []))

/-! ## Vendor commands (spec/15 R411, Table 15.7) -/

/-- A vendor request counts with the requests of its transport. -/
def State.requestVia (s : State) : Via → State
  | .mailbox => s.count (ctrHif 13)
  | .mctp _ => s.count (ctrHif 10)
  | .udp .. => s

/-- An answer leaves on the transport that its request came on; a datagram goes back to the requester's address and port, from the
address it asked at and port 50594. -/
def State.answerVia (s : State) (v : Via) (f : Bytes) : State := match v with
  | .mailbox => s.answer f
  | .mctp i3c => s.answerMctp i3c f
  | .udp mgb peer own port =>
    let (x, s) := s.draw
    let d := if ipv4Mapped own.toNat && ipv4Mapped peer.toNat then udp4 own.toNat peer.toNat 50594 port.toNat x.toNat f
      else udp6 own.toNat peer.toNat 50594 port.toNat x.toNat f
    s.sendMgmt (b2n mgb) d

/-- A vendor command completes with a status byte and a payload. -/
def State.vendor (s : State) (v : Via) (k : State → State × Nat × Bytes) : State :=
  let s := s.requestVia v
  if s.serves then
    let (s, code, payload) := k s
    s.answerVia v (leBytes 1 code ++ payload)
  else s.answerVia v []

/-- The next signature index is taken: the epoch's fuse is burned before its first index, and MARK moves on in the CONTROL
record when the index reaches it (spec/15 R406, R407). -/
def State.takeIndex (s : State) : Nat × State :=
  let i := s.ldg.sigNext
  let s := if s.sec.indexEpoch < i / 2 ^ 34 then { s with sec.indexEpoch := i / 2 ^ 34 }.secStatus else s
  let s := if s.ldg.sigMark ≤ i then
      { s with ldg.sigMark := s.ldg.sigMark + 1024, ldg.controlSeq := s.ldg.controlSeq + 1 }
    else s
  (i, s.setNext (i + 1))

/-- Bytes 0 to 511 of a report (spec/15 Table 15.7a). -/
def State.report0 (s : State) (nonce : Bytes) (index : Nat) : Bytes :=
  let st := R.SEC_STATUS
  leBytes 4 0x41584C48 ++ leBytes 1 1 ++
    leBytes 1 (b2n s.recoveryRuns + 2 * s.fld R.SEC_CTRL F.SEC_CTRL_LOCK + 4 * s.fld st F.SEC_STATUS_INDEX_LOW) ++
    leBytes 1 s.sec.svnFuse ++ leBytes 1 (s.fld R.SEC_FW F.SEC_FW_BOOTED) ++ leBytes 8 s.identity.toNat ++ slice nonce 0 32 ++
    leBytes 4 s.nowNano ++ leBytes 4 s.nowSec ++ leBytes 4 (s.fld R.SEC_FW F.SEC_FW_VERSION) ++
    leBytes 4 s.sec.keyRevoked.toNat ++ ((List.range 8).flatMap fun n => s.measure n) ++
    leBytes 32 (Config.sha3 (Config.kemEncapsulationKey s.sec.kem)).toNat ++ leBytes 8 index ++
    leBytes 8 (2 ^ 40 - s.ldg.sigNext) ++ leBytes 16 0

/-- A report is signed under the next index and returned with the encapsulation key; EXHAUSTED where none is left. -/
def execGetAttestation (via : Via) (nonce : Bytes) (s : State) : Out :=
  .next (s.vendor via fun s =>
    if 2 ^ 40 ≤ s.ldg.sigNext then (s, 0xE0, [])
    else
      let (i, s) := s.takeIndex
      let r := s.report0 nonce i
      (s, 0, r ++ slice (Config.xmssMtSign i r) 0 9893 ++ Config.kemEncapsulationKey s.sec.kem))

def execGetIdentityCert (via : Via) (s : State) : Out := .next (s.vendor via fun s => (s, 0, Config.identityCertificate))

/-- The bytes "HLX-PSK". -/
def pskLabel : Bytes := [0x48, 0x4C, 0x58, 0x2D, 0x50, 0x53, 0x4B]

/-- A PSK is derived from the decapsulated secret (spec/15 R412). -/
def execProvisionPsk (via : Via) (slot : BitVec 8) (ciphertext : Bytes) (s : State) : Out :=
  .next (s.vendor via fun s =>
    if 3 < slot.toNat ∨ ciphertext.length ≠ 1568 then (s, 0x10, [])
    else
      let secret := leBytes 32 (Config.kemDecapsulate s.sec.kem ciphertext).toNat
      let k := Config.shake256 (pskLabel ++ secret ++ leBytes 8 s.identity.toNat) 48
      ({ s with sec.psk := sset none s.sec.psk slot.toNat (some k) }.secStatus, 0, []))

/-- The slot that signed the image of the active bank. -/
def State.activeSigner (s : State) : Nat :=
  let b := s.region s.activeFw
  byteAt (b.drop (fwSigOff b)) 1

/-- Whether a revocation message is in order: signed under a different vendor slot that is not revoked, naming the slot and
this module or all (spec/15 R405). -/
def State.revocationOk (s : State) (slot signer : Nat) (pubkey msg signature : Bytes) : Bool :=
  decide (signer < 4) && signer != slot && s.slotHasKey signer pubkey && Config.xmssVerify pubkey msg signature &&
    Config.revokes msg slot s.identity

def execRevokeSlot (via : Via) (slot signer : BitVec 8) (pubkey msg signature : Bytes) (s : State) : Out :=
  .next (s.vendor via fun s =>
    let after := s.sec.keyRevoked ||| BitVec.ofNat 4 (2 ^ slot.toNat)
    if 3 < slot.toNat then (s, 0x10, [])
    else if s.revocationOk slot.toNat signer.toNat pubkey msg signature = false ∨ s.activeSigner = slot.toNat ∨ after = 0xF then
      (s, 0x1B, [])
    else ({ s with sec.keyRevoked := after }.secStatus, 0, []))

/-- Fuses are burned up to the SVN of the running image, unless it is the recovery image or the other bank holds a valid image
of a lower SVN and FORCE is 0 (spec/15 R402). -/
def execCommitSvn (via : Via) (force : Bool) (s : State) : Out :=
  .next (s.vendor via fun s =>
    let n := s.fld R.SEC_FW F.SEC_FW_SVN
    let other := 3 - s.fld R.SEC_FW F.SEC_FW_BOOTED
    if s.recoveryRuns ∨ (force = false ∧ s.bootable other ∧ fwSvn (s.region other) < n) then (s, 0x1B, [])
    else ({ s with sec.svnFuse := max s.sec.svnFuse n }.secStatus, 0, []))

def execExtendMeasurement (via : Via) (reg : BitVec 8) (digest : Bytes) (s : State) : Out :=
  .next (s.vendor via fun s =>
    if reg.toNat < 4 ∨ 7 < reg.toNat ∨ digest.length ≠ 48 then (s, 0x10, []) else (s.extendDigest reg.toNat digest, 0, []))

/-! ## SPDM and IDE keys (spec/15 R413, R414) -/

/-- An MCTP request of the SPDM responder and its answer. -/
def State.spdm (s : State) (i3c : Bool) (k : State → State × Bytes) : State :=
  let s := s.count (ctrHif 10)
  let (s, a) := if s.serves then k s else (s, [])
  s.answerMctp i3c a

/-- The ERROR message (log entry 46). -/
def spdmError : Bytes := [0x7F]

/-- A session against a provisioned slot, at versions 1.2 and 1.3. -/
def execPskExchange (i3c : Bool) (slot version : BitVec 8) (msg : Bytes) (s : State) : Out :=
  .next (s.spdm i3c fun s => match sget none s.sec.psk slot.toNat with
    | none => (s, spdmError)
    | some k =>
      if (version = 0x12 ∨ version = 0x13) ∧ Config.pskAccepts k msg then
        ({ s with sec.sessions := s.sec.sessions ++ [(s.sec.nextSession, slot.toNat)], sec.nextSession := s.sec.nextSession + 1 },
          Config.pskResponse k msg)
      else (s, spdmError))

/-- SEC_MEAS(0) to SEC_MEAS(7) are indices 1 to 8; 0 asks for their number and 0xFF for all (log entry 46). -/
def execGetMeasurements (i3c : Bool) (index : BitVec 8) (s : State) : Out :=
  .next (s.spdm i3c fun s =>
    if index = 0 then (s, leBytes 1 8)
    else if index = 0xFF then (s, (List.range 8).flatMap fun n => s.measure n)
    else if index.toNat ≤ 8 then (s, s.measure (index.toNat - 1)) else (s, spdmError))

/-- Whether a session stands whose PSK slot is valid. -/
def State.sessionOk (s : State) (session : Nat) : Bool :=
  s.sec.sessions.any fun x => x.1 == session && (sget none s.sec.psk x.2).isSome

/-- The number of a direction of a protocol. -/
def ideDir (protocol : Fin 3) (tx : Bool) : Nat := 2 * protocol.val + b2n tx

/-- IDE_ACTIVE: a key set of every direction of the three protocols is active; a link that an IDE failure made unusable is usable
again. -/
def State.ideBit (s : State) : State :=
  let on := (List.range 6).all fun d => sget 0 s.sec.ideActive d != 0
  { s.setFld R.HIF_LINK_STATUS F.HIF_LINK_STATUS_IDE_ACTIVE (b2n on) with host.ideBroken := s.host.ideBroken && !on }

/-- An IDE_KM message within a session: acknowledged with 0, or with 1 where it cannot be done. -/
def State.ideKm (s : State) (i3c : Bool) (session : Nat) (ok : State → Bool) (k : State → State) : State :=
  s.spdm i3c fun s => if s.sessionOk session && ok s then (k s, leBytes 1 0) else (s, leBytes 1 1)

/-- The idle key set of a direction is programmed. -/
def execKeyProg (i3c : Bool) (session : Nat) (protocol : Fin 3) (tx : Bool) (set : Fin 2) (key : Bytes) (s : State) : Out :=
  let d := ideDir protocol tx
  .next (s.ideKm i3c session (fun s => sget 0 s.sec.ideActive d != set.val + 1)
    fun s => { s with sec.ideKeys := sset [] s.sec.ideKeys (2 * d + set.val) key })

/-- A programmed key set becomes the active one of its direction. -/
def execKSetGo (i3c : Bool) (session : Nat) (protocol : Fin 3) (tx : Bool) (set : Fin 2) (s : State) : Out :=
  let d := ideDir protocol tx
  .next (s.ideKm i3c session (fun s => sget [] s.sec.ideKeys (2 * d + set.val) != [])
    fun s => { s with sec.ideActive := sset 0 s.sec.ideActive d (set.val + 1) }.ideBit)

/-- A key set stops; it is programmed anew before it goes again (log entry 48). -/
def execKSetStop (i3c : Bool) (session : Nat) (protocol : Fin 3) (tx : Bool) (set : Fin 2) (s : State) : Out :=
  let d := ideDir protocol tx
  .next (s.ideKm i3c session (fun _ => true) fun s =>
    { s with sec.ideKeys := sdel s.sec.ideKeys (2 * d + set.val)
             sec.ideActive := if sget 0 s.sec.ideActive d = set.val + 1 then sset 0 s.sec.ideActive d 0 else s.sec.ideActive }.ideBit)

end Sys2Proof.Machine
end

