-- ==== Sys2Proof/Machine/Checks.lean ====
section
/-! DEFINITION. The plumb checks of enables and commits: their rules, their order, their outcome (spec/16 R426, R428; spec/03 Table
3.11, spec/06 Table 6.7 and R180, spec/08 Table 8.4, spec/09 Tables 9.2 and 9.14, spec/13 Table 13.4, spec/16 Table 16.2,
spec/17 Table 17.2). -/

namespace Sys2Proof.Machine

/-! ## Enables -/

/-- The lanes of a port that are withdrawn. -/
def State.lanesWithdrawn (s : State) (p : Nat) : Bool :=
  (List.range (s.portLanes p)).any fun i =>
    bitOf (s.fld (R.PRT_PAIR_STATUS (p / 8)) F.PRT_PAIR_STATUS_WITHDRAWN) (p % 8 + i)

/-- Whether the source of an engine is paired and enabled (spec/01 R35). -/
def State.sourceOn (s : State) (e : Nat) : Bool :=
  let l := sget {} s.lasers e
  l.present && l.paired && (l.level == .ramping || l.level == .setpoint || l.level == .lowered) && !l.lightLost

/-- Table 6.7; the recovery image enables no fabric port (spec/15 R404). -/
def State.portReason (s : State) (p : Nat) : Nat :=
  let c (f : Fld) : Nat := s.fld (prtCtrl p) f
  let wlx := c F.PRT_PORT_CTRL_WLX_MAX
  let vc := c F.PRT_PORT_CTRL_VC_MAX
  let hfh := c F.PRT_PORT_CTRL_HFH_MAX
  let pfc (k : Nat) (f : Fld) : Nat := s.fld (R.PRT_PFC_THRESH (p / 8) (p % 8) k) f
  if s.portExists p = false then 0x10
  else if wlx < 1 ∨ 3 < wlx ∨ vc < 1 ∨ 8 < vc ∨ hfh < 1 ∨ 2 < hfh ∨ c F.PRT_PORT_CTRL_FC_ALLOW = 0 then 0x10
  else if (List.range 8).any fun k => decide (pfc k F.PRT_PFC_THRESH_XOFF ≤ pfc k F.PRT_PFC_THRESH_XON) then 0x12
  else if (portBays p).any fun n => s.bayState n != 0 then 0x14
  else if s.sourceOn (p / 64) = false then 0x14
  else if s.lanesWithdrawn p then 0x1D
  else if s.flag R.GLB_STATUS F.GLB_STATUS_RECOVERY then 0x1B else 0

/-- The retention region of an engine: first address and bytes. -/
def State.retainArea (s : State) (e : Nat) : Nat × Nat :=
  (s.fld (R.BSN_RETAIN_BASE e) F.BSN_RETAIN_BASE_ADDR, s.fld (R.BSN_RETAIN_SIZE e) F.BSN_RETAIN_SIZE_SIZE * 2097152)

/-- Table 9.14. -/
def State.bsnReason (s : State) (e : Nat) : Nat :=
  let (base, size) := s.retainArea e
  let members := s.fld (R.BSN_MEMBER_BASE e) F.BSN_MEMBER_BASE_ADDR
  let templates := s.fld (R.BSN_TEMPLATE_BASE e) F.BSN_TEMPLATE_BASE_ADDR
  if base % 2097152 ≠ 0 ∨ members % 64 ≠ 0 ∨ templates % 64 ≠ 0 then 0x11
  else if hbmSize < base + size ∨ size < 16 * 2097152 then 0x10
  else if s.installed members 524288 = false ∨ s.installed templates 65536 = false then 0x10
  else if s.bayState (basinBay e) ≠ 0 then 0x14 else 0

/-- Whether two areas (first address, bytes) overlap. -/
def areasOverlap (a b : Nat × Nat) : Bool := decide (a.1 < b.1 + b.2) && decide (b.1 < a.1 + a.2) && a.2 != 0 && b.2 != 0

/-- Table 13.4. An area of size 0 is absent. -/
def State.areasReason (s : State) : Nat :=
  let h := (s.fld R.MEM_HISTORY_BASE F.MEM_HISTORY_BASE_VALUE, s.fld R.MEM_HISTORY_SIZE F.MEM_HISTORY_SIZE_VALUE)
  let a := (s.fld R.MEM_ARCHIVE_BASE F.MEM_ARCHIVE_BASE_VALUE, s.fld R.MEM_ARCHIVE_SIZE F.MEM_ARCHIVE_SIZE_VALUE)
  let retained := ((List.range 8).filter fun e => s.flag (R.BSN_CTRL e) F.BSN_CTRL_ENABLE).map s.retainArea
  if [h.1, h.2, a.1, a.2].any fun x => x % 2097152 != 0 then 0x11
  else if h.2 ≠ 0 ∧ (hbmSize < h.1 + h.2 ∨ touchesFirmware h.1 h.2) then 0x10
  else if a.2 ≠ 0 ∧ (s.inDdr a.1 = false ∨ ddrBase + s.ddrSize < a.1 + a.2) then 0x10
  else if areasOverlap h a ∨ retained.any fun r => areasOverlap h r || areasOverlap a r then 0x17 else 0

/-- Table 16.2. -/
def State.fwdReason (s : State) : Nat :=
  let mac := s.fld R.FWD_ROUTER_MAC F.FWD_ROUTER_MAC_MAC
  let hfh := s.fld R.FWD_GLOBAL_CTRL F.FWD_GLOBAL_CTRL_HFH_PORT
  let far := s.fld R.FWD_FARPEG_CTRL F.FWD_FARPEG_CTRL_UDP_PORT
  if mac = 0 ∨ bitOf mac 40 then 0x10
  else if s.portExists (s.fld R.FWD_GLOBAL_CTRL F.FWD_GLOBAL_CTRL_EXC_PORT) = false then 0x10
  else if hfh = far ∨ [319, 320, 4791].contains hfh ∨ [319, 320, 4791].contains far then 0x12
  else if s.flag (R.CFG_SET_STATUS 0) F.CFG_SET_STATUS_COMMITTED = false then 0x15
  else if s.flag R.GLB_STATUS F.GLB_STATUS_RECOVERY then 0x1B
  else if (List.range 4).any fun q => s.bayLost (sliceBay q) || s.bayLost (7 * q + 6) then 0x14 else 0

/-! ## Commits: each answers the reason and which registers hold fields of the failed rule -/

/-- A failed rule: its reason code, and whether a register holds a field of it. -/
abbrev Failed := Option (Nat × (Nat → Bool))

/-- The first failed rule. -/
def firstFailed : List (Bool × Nat × (Nat → Bool)) → Failed
  | [] => none
  | (bad, x) :: t => if bad then some x else firstFailed t

/-- Whether a register is of an array that begins at one offset and ends before another. -/
def between (lo hi off : Nat) : Bool := decide (lo ≤ off) && decide (off < hi)

/-- Set 0x00 (spec/16 R426). -/
def set00Failed (c : Sparse Word) : Failed :=
  let w := wordOf c R.GLB_HOST_IF
  let d := F.GLB_HOST_IF_DESCRIPTOR.get w
  firstFailed [((d != 2 && d != 3) || F.GLB_HOST_IF_TELEMETRY.get w != 4 || F.GLB_HOST_IF_LEDGER.get w != 2, 0x15,
    fun off => off == R.GLB_HOST_IF)]

/-- Whether two entries of a list agree in identity and port. -/
def twice : List (Word × Nat) → Bool
  | [] => false
  | x :: t => t.contains x || twice t

/-- Set 0x01 (spec/06 R180). A reserved bit cannot be staged (spec/00 R14). -/
def State.set01Failed (s : State) (c : Sparse Word) : Failed :=
  let id (p : Nat) : Word := wordOf c (R.PRT_PLAN_ID (p / 8) (p % 8))
  let pl (p : Nat) : Word := wordOf c (R.PRT_PLAN_PORT (p / 8) (p % 8))
  let named := (List.range 2048).filter fun p => id p != 0
  let isId (off : Nat) : Bool := off % 256 == 0x10
  let isPort (off : Nat) : Bool := off % 256 == 0x18
  firstFailed [
    (twice (named.map fun p => (id p, F.PRT_PLAN_PORT_PORT.get (pl p))), 0x16, fun off => isId off || isPort off),
    (named.any fun p => id p == s.identity, 0x16, isId),
    ((List.range 2048).any fun p => F.PRT_PLAN_PORT_NONE.get (pl p) == 1 && F.PRT_PLAN_PORT_NONWLX.get (pl p) == 1, 0x10,
      isPort)]

/-- Profiles and classes. -/
def profileClasses : List (Nat × Nat) := (List.range 16).flatMap fun k => (List.range 8).map fun c => (k, c)

/-- Cells that 100 Gb/s of a pair claim under a profile, over its classes. -/
def profileCells (c : Sparse Word) (k : Nat) : Nat :=
  ((List.range 8).map fun i => F.SWC_BUF_PROFILE_RESERVE.get (wordOf c (R.SWC_BUF_PROFILE k i)) +
    F.SWC_BUF_PROFILE_HEADROOM.get (wordOf c (R.SWC_BUF_PROFILE k i))).sum

/-- The buffer profile of a pair in captured words. -/
def pairBuf (c : Sparse Word) (f : Nat) : Nat := F.SWC_PAIR_PROFILE_BUF.get (wordOf c (R.SWC_PAIR_PROFILE f))

/-- The buffer profile of a class as it bears on an enabled port. -/
def profileKeep (c : Sparse Word) (k i : Nat) : Nat × Nat × Nat :=
  let w := wordOf c (R.SWC_BUF_PROFILE k i)
  (F.SWC_BUF_PROFILE_RESERVE.get w, F.SWC_BUF_PROFILE_HEADROOM.get w, F.SWC_BUF_PROFILE_LOSSLESS.get w)

/-- Set 0x02 (spec/08 Table 8.4). -/
def State.set02Failed (s : State) (c : Sparse Word) : Failed :=
  let now := s.inForce 2
  let buf (x : Nat × Nat) : Word := wordOf c (R.SWC_BUF_PROFILE x.1 x.2)
  let sch (x : Nat × Nat) : Word := wordOf c (R.SWC_SCHED_PROFILE x.1 x.2)
  let dep (x : Nat × Nat) : Word := wordOf c (R.SWC_ECN_DEPTH x.1 x.2)
  let tim (x : Nat × Nat) : Word := wordOf c (R.SWC_ECN_TIME x.1 x.2)
  let sf := wordOf c R.SWC_SFLOW_CTRL
  let hdr := F.SWC_SFLOW_CTRL_HDR_UNITS.get sf
  let zero (r : Nat → Nat) : Bool := wordOf c (r 0) == 0 && wordOf c (r 1) == 0
  let sflow := between R.SWC_SFLOW_CTRL (R.SWC_SFLOW_COLLECTOR 2)
  let bufs := between (R.SWC_BUF_PROFILE 0 0) (R.SWC_BUF_PROFILE 16 0)
  let pairs := between (R.SWC_PAIR_PROFILE 0) (R.SWC_PAIR_PROFILE 256)
  let claims (q : Nat) : Nat := ((List.range 64).map fun i => 16 * profileCells c (pairBuf c (64 * q + i))).sum
  let kept (f : Nat) : Bool :=
    let k := pairBuf now f
    pairBuf c f == k && (List.range 8).all fun i => profileKeep c k i == profileKeep now k i
  firstFailed [
    ((profileClasses.any fun x => decide (4096 < F.SWC_BUF_PROFILE_RESERVE.get (buf x)) ||
        decide (4096 < F.SWC_BUF_PROFILE_HEADROOM.get (buf x)) ||
        (F.SWC_SCHED_PROFILE_STRICT.get (sch x) == 0 && F.SWC_SCHED_PROFILE_WEIGHT.get (sch x) == 0)) ||
      ((List.range 16).any fun n => decide (144 < F.SWC_MIRROR_CTRL_TRUNC.get (wordOf c (R.SWC_MIRROR_CTRL n)))) ||
      decide (hdr < 1) || decide (4 < hdr), 0x10,
      fun off => bufs off || between (R.SWC_SCHED_PROFILE 0 0) (R.SWC_SCHED_PROFILE 16 0) off ||
        between (R.SWC_MIRROR_CTRL 0) (R.SWC_MIRROR_CTRL 16) off || off == R.SWC_SFLOW_CTRL),
    (profileClasses.any fun x => decide (F.SWC_ECN_DEPTH_KMAX.get (dep x) ≤ F.SWC_ECN_DEPTH_KMIN.get (dep x)) ||
      (F.SWC_ECN_TIME_SMIN.get (tim x) != 0 && decide (F.SWC_ECN_TIME_SMAX.get (tim x) ≤ F.SWC_ECN_TIME_SMIN.get (tim x))), 0x12,
      between (R.SWC_ECN_DEPTH 0 0) (R.SWC_ECN_DEPTH 16 0)),
    (F.SWC_SFLOW_CTRL_ENABLE.get sf == 1 && (zero R.SWC_SFLOW_AGENT || zero R.SWC_SFLOW_COLLECTOR), 0x12, sflow),
    ((List.range 4).any fun q => decide (327680 < claims q), 0x13, fun off => bufs off || pairs off),
    ((List.range 256).any fun f => ((List.range 8).any fun u => s.portEnabled (8 * f + u)) && !kept f, 0x1C,
      fun off => bufs off || pairs off)]

/-- Member rows and template of a group as memory holds them. -/
def State.groupRead (s : State) (c : Sparse Word) (b j : Nat) : GroupCopy :=
  let a := wordOf c (R.BSN_GROUP_A b j)
  let first := s.fld (R.BSN_MEMBER_BASE b) F.BSN_MEMBER_BASE_ADDR + 8 * F.BSN_GROUP_A_MEMBER_BASE.get a
  { members := (List.range (F.BSN_GROUP_A_MEMBER_COUNT.get a)).map fun i =>
      BitVec.ofNat 64 (leNat (sbytes s.mem.bytes (first + 8 * i) 8)),
    template := sbytes s.mem.bytes (s.fld (R.BSN_TEMPLATE_BASE b) F.BSN_TEMPLATE_BASE_ADDR + 128 * j) 128 }

/-- Whether rows or template of a group lie on a poisoned line: they cannot be read, and fail their rules (log entry 54). -/
def State.groupPoisoned (s : State) (c : Sparse Word) (b j : Nat) : Bool × Bool :=
  let a := wordOf c (R.BSN_GROUP_A b j)
  let first := s.fld (R.BSN_MEMBER_BASE b) F.BSN_MEMBER_BASE_ADDR + 8 * F.BSN_GROUP_A_MEMBER_BASE.get a
  (s.rangePoisoned first (8 * F.BSN_GROUP_A_MEMBER_COUNT.get a),
    s.rangePoisoned (s.fld (R.BSN_TEMPLATE_BASE b) F.BSN_TEMPLATE_BASE_ADDR + 128 * j) 128)

/-- Whether a member row is well formed. -/
def State.rowOk (s : State) (r : Word) : Bool :=
  rowKind r != 3 && bitsOf r.toNat 61 43 == 0 && bitsOf r.toNat 31 20 == 0 && s.portExists (rowPort r)

/-- Whether a template is a header that ends with a UDP header for HFH_PORT. -/
def State.templateOk (s : State) (t : Bytes) : Bool :=
  let n := byteAt t 127
  let b := t.take n
  let x := s.parse b
  decide (42 ≤ n) && decide (n ≤ 124) && match x.udp with
    | some u => u + 8 == n && x.dport b == s.fld R.FWD_GLOBAL_CTRL F.FWD_GLOBAL_CTRL_HFH_PORT
    | none => false

/-- Whether a format is in Table 9.4. -/
def fmtDefined (f : Nat) : Bool := decide (1 ≤ f) && decide (f ≤ 12)

/-- Set 0x10 + b (spec/09 Table 9.2). -/
def State.set10Failed (s : State) (c : Sparse Word) (b : Nat) : Failed :=
  let a (j : Nat) (f : Fld) : Nat := f.get (wordOf c (R.BSN_GROUP_A b j))
  let fmt (j : Nat) (f : Fld) : Nat := f.get (wordOf c (R.BSN_GROUP_B b j))
  let l := (List.range 512).filter fun j => a j F.BSN_GROUP_A_VALID == 1
  let inF (j : Nat) : Nat := fmt j F.BSN_GROUP_B_IN_FORMAT
  let outF (j : Nat) : Nat := fmt j F.BSN_GROUP_B_OUT_FORMAT
  let regA (off : Nat) : Bool := off % 16 == 0
  let regB (off : Nat) : Bool := off % 16 == 8
  let ends (r : Word) : Word × Nat := (BitVec.ofNat 64 (rowPort r), r.toNat % 2 ^ 20)
  firstFailed [
    (l.any fun j =>
      let n := a j F.BSN_GROUP_A_MEMBER_COUNT
      decide (n < 1) || decide (4096 < n) || decide (65536 < a j F.BSN_GROUP_A_MEMBER_BASE + n), 0x10, regA),
    (l.any fun j => !fmtDefined (inF j) || !fmtDefined (outF j), 0x10, regB),
    (l.any fun j => (s.groupPoisoned c b j).1 || !(s.groupRead c b j).members.all s.rowOk, 0x10, regA),
    (l.any fun j => (s.groupPoisoned c b j).2 || !s.templateOk (s.groupRead c b j).template, 0x10, fun _ => false),
    (l.any fun j => fmtIsInt (inF j) != fmtIsInt (outF j), 0x12, regB),
    (l.any fun j => twice ((s.groupRead c b j).members.map ends), 0x12, regA),
    (!l.isEmpty && (s.rd (R.BSN_MEMBER_BASE b) == 0 || s.rd (R.BSN_TEMPLATE_BASE b) == 0), 0x12, fun _ => false)]

/-- Set 0x20 (spec/17 Table 17.2). -/
def State.set20Failed (s : State) (c : Sparse Word) : Failed :=
  let role := F.PLN_CFG_ROLE.get (wordOf c R.PLN_CFG)
  let manager := wordOf c R.PLN_MANAGER_ID
  let standby := wordOf c R.PLN_STANDBY_ID
  let workers := ((List.range 1023).map fun n => wordOf c (R.PLN_WORKER_ID n)).filter fun x => x != 0
  let budget := wordOf c R.PLN_BUDGET
  let win := F.PLN_BUDGET_WINDOW_S.get budget
  let pair := [manager, standby].filter fun x => x != 0
  let ids := between (R.PLN_WORKER_ID 0) (R.PLN_WORKER_ID 1023)
  firstFailed [
    ((role != 0 && (wordOf c R.PLN_PREFIX_A == 0 || wordOf c R.PLN_PREFIX_B == 0)) ||
      decide (64 < F.PLN_BUDGET_COUNT.get budget) || decide (win < 60) || decide (86400 < win) ||
      decide (1023 < workers.length + b2n (standby != 0)), 0x10,
      fun off => off == R.PLN_CFG || off == R.PLN_PREFIX_A || off == R.PLN_PREFIX_B || off == R.PLN_BUDGET ||
        off == R.PLN_STANDBY_ID || ids off),
    (((role == 1 || role == 3) && manager == 0) || (pair ++ workers).contains s.identity || pair.any workers.contains ||
      (manager != 0 && manager == standby), 0x12,
      fun off => off == R.PLN_CFG || off == R.PLN_MANAGER_ID || off == R.PLN_STANDBY_ID || ids off),
    (twice (workers.map fun x => (x, 0)), 0x16, ids),
    (s.flag R.PLN_STATUS F.PLN_STATUS_PREPARED, 0x18, fun _ => false)]

/-- The rules of a set over captured words. -/
def State.setFailed (s : State) (n : Nat) (c : Sparse Word) : Failed :=
  if n = 0 then set00Failed c
  else if n = 1 then s.set01Failed c
  else if n = 2 then s.set02Failed c
  else if n = 0x20 then s.set20Failed c
  else s.set10Failed c (n - 0x10)

/-- The offset that a refused commit reports: the lowest register of the failed rule that differs from its committed value. -/
def State.failedOffset (s : State) (n : Nat) (c : Sparse Word) (holds : Nat → Bool) : Nat :=
  match (changedIn c (s.inForce n)).filter holds with
  | [] => 0
  | x :: t => t.foldl min x

/-! ## What a commit that passes does beyond its fields -/

/-- A group's new members and template: GEN counts where anything changed, and its active operations abort with EPOCH_CHANGED. -/
def State.commitGroup (s : State) (c : Sparse Word) (changed : List Nat) (b j : Nat) : State :=
  let g := 512 * b + j
  let new := if F.BSN_GROUP_A_VALID.get (wordOf c (R.BSN_GROUP_A b j)) = 1 then s.groupRead c b j else {}
  if new = s.grpCopy g ∧ changed.contains (R.BSN_GROUP_A b j) = false ∧ changed.contains (R.BSN_GROUP_B b j) = false then s
  else
    let s := s.abortWhere b 7 fun x => x.group == g
    { s.incFld (R.BSN_GROUP_B b j) F.BSN_GROUP_B_GEN with bsn.groups := sset {} s.bsn.groups g new }

/-- The words of a set come into force with the effects that its chapter attaches. -/
def State.commitSet (s : State) (n : Nat) (c : Sparse Word) : State :=
  let changed := changedIn c (s.inForce n)
  if n = 1 then
    let s := s.applySet n c
    if changed.isEmpty then s else (List.range 2048).foldl State.planCompare s
  else if n = 0x20 then
    let s := changed.foldl (fun s off =>
      if between (R.PLN_WORKER_ID 0) (R.PLN_WORKER_ID 1023) off then s.wr (off + 8) (resetWord (off + 8)) else s) s
    (s.applySet n c).roleCommitted
  else if 0x10 ≤ n ∧ n ≤ 0x17 then
    ((List.range 512).foldl (fun s j => s.commitGroup c changed (n - 0x10) j) s).applySet n c
  else if n = 2 then (s.applySet n c).rebalanceAll
  else s.applySet n c

/-- The reason of an enable check. -/
def State.enableReason (s : State) : CheckKind → Nat
  | .ringEnable r => s.ringReason r
  | .cqEnable c => s.cqReason c
  | .portEnable p => s.portReason p
  | .bsnEnable e => s.bsnReason e
  | .areasEnable => s.areasReason
  | .fwdEnable => s.fwdReason
  | _ => 0

/-- An enable check has passed. -/
def State.enabled (s : State) : CheckKind → State
  | .ringEnable r => s.ringStart r
  | .cqEnable c => s.cqStart c
  | .portEnable p => s.portStart p
  | .bsnEnable e => s.setFld (R.BSN_CTRL e) F.BSN_CTRL_ENABLE 1
  | .areasEnable => s.setFld R.MEM_CTRL F.MEM_CTRL_AREAS_ENABLE 1
  | .fwdEnable => (s.setFld R.GLB_CTRL F.GLB_CTRL_FWD_ENABLE 1).setFld R.GLB_STATUS F.GLB_STATUS_FWD_ACTIVE 1
  | _ => s

/-- Whether a check is of an enable. -/
def CheckKind.isEnable : CheckKind → Bool
  | .ringEnable _ | .cqEnable _ | .portEnable _ | .bsnEnable _ | .areasEnable | .fwdEnable => true
  | .commit _ | .splFlip | .planeFlip .. | .pegAssign | .tenonAssign _ | .circuit => false

/-- An enable check ends: the bit is set, or ENABLE_REFUSED is logged. A bay that is not active by then has not woken in time (log
entry 55). -/
def execEnableCheckDone (s : State) : Out := match s.cfg.checks with
  | [] => .next s
  | k :: _ =>
    if k.kind.isEnable = false then .next s
    else
      let r := s.enableReason k.kind
      let s := if k.kind = .areasEnable then s.setFld R.MEM_STATUS F.MEM_STATUS_AREA_REASON r else s
      let s := if r = 0 then s.enabled k.kind else s.cfgLog 3 r 0xFF k.source k.domain k.offset
      .next s.popCheck

/-- The answer of a commit to the COMMIT instruction that waits for it. -/
def State.answerCommit (s : State) (dest reason : Nat) : State :=
  if h : 0 < dest ∧ dest ≤ 64 then
    let c : Ctx := .c ⟨dest - 1, by omega⟩
    let x := s.ctx c
    let w := (x.code.getD x.pc 0).toNat
    if x.status = .running ∧ wOp w = 0xC6 then s.finish c (s.outcomeTo c w reason) else s
  else s

/-- The rows and templates of an engine's valid groups are read, with the errors that the reads find (spec/09 R250, R251). -/
def State.readGroups (s : State) (c : Sparse Word) (b : Nat) (errs : List LineErr) : State :=
  (List.range 512).foldl (fun s j =>
    let a := wordOf c (R.BSN_GROUP_A b j)
    let first := F.BSN_GROUP_A_MEMBER_BASE.get a
    let n := F.BSN_GROUP_A_MEMBER_COUNT.get a
    if F.BSN_GROUP_A_VALID.get a = 0 ∨ n = 0 ∨ 4096 < n ∨ 65536 < first + n then s
    else
      let s := (s.devRead (s.fld (R.BSN_MEMBER_BASE b) F.BSN_MEMBER_BASE_ADDR + 8 * first) (8 * n) errs).1
      (s.devRead (s.fld (R.BSN_TEMPLATE_BASE b) F.BSN_TEMPLATE_BASE_ADDR + 128 * j) 128 errs).1) s

/-- A commit check ends: the captured values come into force, or COMMIT_REFUSED is recorded. A Basin set's check reads member rows and
templates. -/
def execCommitCheckDone (errs : List LineErr) (s : State) : Out := match s.cfg.checks with
  | [] => .next s
  | k :: _ => match k.kind with
    | .commit n =>
      let s := if 0x10 ≤ n ∧ n ≤ 0x17 then s.readGroups k.captured (n - 0x10) errs else s
      let (s, r, off) := match s.setFailed n k.captured with
        | some (r, holds) => (s, r, s.failedOffset n k.captured holds)
        | none => (s.commitSet n k.captured, 0, 0)
      let s := ((s.setStatus n r).commitResult n r off k.source k.domain).popCheck
      .next (if k.dest = 0 then s.setFld R.CFG_COMMIT F.CFG_COMMIT_GO 0 else s.answerCommit k.dest r)
    | _ => .next s

/-- A commit of a set is asked for by CFG_COMMIT (`dest` 0) or by a COMMIT instruction: a set that no commit may name is refused at
once with RANGE (spec/16 R424). -/
def State.askCommit (s : State) (set source : Nat) (domain : BitVec 12) (dest : Nat) : State :=
  s.pushCheck { kind := .commit set, source := source, domain := domain, dest := dest }

/-- The COMMIT instruction (spec/16 R436): it waits for the checks before it and for its own. -/
def execDxnCommit (c : Ctx) (body : BitVec 56) (s : State) : Out :=
  let w := dxnWord 0xC6 body
  .next (s.issue c w [] false fun s x =>
    let me : Nat := match c with
      | .c n => n.val + 1
      | _ => 0
    let a := (x.reg (wA w)).toNat
    if x.domain ≠ 0 then spaceRefusal s
    else if s.cfg.checks.any fun k => k.dest == me then .stall
    else if 256 ≤ a then (s.commitResult 0xFF 0x10 0 1 x.domain).commitBusy.outcomeTo c w 0x10
    else if setCommits a = false then (s.commitResult a 0x10 0 1 x.domain).commitBusy.outcomeTo c w 0x10
    else
      let s := s.askCommit a 1 x.domain me
      .halt (s.setCtx c { x with stalled := true }))

end Sys2Proof.Machine
end

