-- ==== Sys2Proof/Machine/Reads.lean ====
section
/-! DEFINITION. What a read of a register returns: most registers return what their word holds; those that report other state are
computed when they are read (spec/00 R14, R15, and the register chapters). -/

namespace Sys2Proof.Machine

/-- A field of a word takes a value. -/
def inWord (x : Word) (f : Fld) (v : Nat) : Word := f.set x v

/-- The bytes of the MRAM as last committed (spec/18 Tables 18.1 and 18.9). What the CONTROL copies hold is stated in part only, and
nothing is stated of the bytes between them and STATE A: these are free values (log entry 56). -/
def State.mramWord (s : State) (a : Nat) : Word × State :=
  if a < 0x10000 then s.draw
  else if a < 0x20000 then (BitVec.ofNat 64 (leNat (sbytes s.ldg.copyA (a - 0x10000) 8)), s)
  else if a < 0x30000 then (BitVec.ofNat 64 (leNat (sbytes s.ldg.copyB (a - 0x20000) 8)), s)
  else if a < 0x100000 then (0, s)
  else (BitVec.ofNat 64 (sget 0 s.ldg.journal ((a - 0x100000) / 32) / 256 ^ (a % 32)), s)

/-- CMD_CTX of a C context (spec/04 Table 4.27). -/
def State.ctxWord (s : State) (n : Nat) : Word :=
  let x := sget {} s.dxn.ctxs n
  let st := match x.status with
    | .free => 0
    | .loading => 1
    | .running => 2
    | .waiting => 3
    | .stopping => 4
  let w := F.CMD_CTX_STATE.put st ||| F.CMD_CTX_PC.put x.pc
  match x.item with
  | some k => match s.item? k with
    | some i => w ||| F.CMD_CTX_RING.put i.ring ||| F.CMD_CTX_TAG.put i.tag
    | none => w
  | none => w

/-- CTX of TEN_TENON: two bits for each context (spec/10 Table 10.13). -/
def State.tenonCtx (s : State) (t : Nat) : Nat :=
  ((List.range 4).map fun n =>
    let x := sget {} s.dxn.ctxs (8256 + 4 * t + n)
    let st := match x.status with
      | .free => 0
      | .loading => 1
      | .running => if x.stalled then 2 else 1
      | .waiting => 2
      | .stopping => 3
    st * 4 ^ n).sum

/-- Contexts in use among the keys from one to another. -/
def State.ctxsUsed (s : State) (lo hi : Nat) : Nat :=
  (s.dxn.ctxs.filter fun x => decide (lo ≤ x.1) && decide (x.1 < hi) && x.2.status != .free).length

/-- TEN_STATUS of a quadrant (spec/10 Table 10.10). -/
def State.tenStatus (s : State) (q : Nat) : Word :=
  F.TEN_STATUS_CONTEXTS.put (s.ctxsUsed (8256 + 3840 * q) (8256 + 3840 * (q + 1))) |||
    F.TEN_STATUS_TRUSSES.put ((List.range 256).filter fun k => s.fld (R.TEN_TRUSS q k) F.TEN_TRUSS_STATE != 0).length |||
    F.TEN_STATUS_DMA_STREAMS.put (s.ten.streams.filter fun x => x.2.truss / 256 == q).length

/-- WEAR_BP of a bay (spec/18 R463): wear in units of 0.01 % of the design life, saturating. -/
def State.wearBp (s : State) (n : Nat) : Nat := min 0xFFFF (s.ldg? (ldgBay n + 8) 8 / 256 * 10000 / designLife)

/-- Length of a cycle of the pending shape. -/
def State.pendCycle (s : State) : Nat :=
  ((List.range (s.fld R.SPL_SHAPE_PEND F.SPL_SHAPE_PEND_SLOTS)).map fun i => 2 ^ s.slotK R.SPL_SLOT_K_PEND i * 256).sum

/-- What a read returns of a register that reports other state; its word where it does not. -/
def State.readView (s : State) (base off : Nat) : Word × State :=
  let w := s.rd off
  let i (stride : Nat) : Nat := (off - base) / stride
  if base = R.CMD_STATUS then
    (inWord (inWord w F.CMD_STATUS_IMAGES s.dxn.images.length) F.CMD_STATUS_BUSY (s.ctxsUsed 0 64), s)
  else if base = R.CMD_CTX 0 then (s.ctxWord (i 8), s)
  else if base = R.CFG_SET_STATUS 0 then
    (if setCommits (i 8) ∨ i 8 = 0x30 then inWord w F.CFG_SET_STATUS_DIRTY (b2n (s.dirty (i 8))) else 0, s)
  else if base = R.PWR_BAY_STATUS 0 then
    (inWord (inWord w F.PWR_BAY_STATUS_TARGET (s.bayTarget (i 8))) F.PWR_BAY_STATUS_KEPT (b2n (s.bayKept (i 8))), s)
  else if base = R.TIM_STATUS then (inWord w F.TIM_STATUS_ERROR_NS s.timeError, s)
  else if base = R.TIM_CLOCK then (inWord w F.TIM_CLOCK_CLASS s.ownClass, s)
  else if base = R.TIM_PORT_STATE 0 then (inWord w F.TIM_PORT_STATE_PTP_STATE (s.ptpState (i 32)), s)
  else if base = R.TIM_NOW_NS then
    (F.TIM_NOW_NS_NS_FRAC.put (s.tim.base.toNat % 2 ^ 48), s.wr R.TIM_NOW_SEC (F.TIM_NOW_SEC_SECONDS.put s.nowSec))
  else if base = R.LDG_LIFE then (F.LDG_LIFE_LIFE_S.put s.lifeS, s)
  else if base = R.LDG_JOURNAL then
    (F.LDG_JOURNAL_HEAD.put (s.ldg? 48 8) ||| F.LDG_JOURNAL_ARCHIVED.put (s.ldg? 56 8), s)
  else if base = R.LDG_BAY 0 then
    (F.LDG_BAY_WEAR_BP.put (s.wearBp (i 8)) ||| F.LDG_BAY_ENERGISED_S.put (s.ldg? (ldgBay (i 8)) 8), s)
  else if base = R.LDG_WIN 0 then s.mramWord (s.fld R.LDG_WIN_BASE F.LDG_WIN_BASE_OFFSET * 4096 + (off - base))
  else if base = R.SWC_QUAD_STATUS 0 then
    (F.SWC_QUAD_STATUS_SHARED_FREE.put (s.sharedFree (i 8)) ||| F.SWC_QUAD_STATUS_FREE.put (s.quadFree (i 8)), s)
  else if base = R.BSN_STATUS 0 then
    let e := i 0x40000
    (F.BSN_STATUS_ACTIVE.put ((List.range 1024).filter fun sl => s.slotSt e sl != 0).length |||
      F.BSN_STATUS_RETAINED.put (s.retainUsed e), s)
  else if base = R.TEN_STATUS 0 then (s.tenStatus (i 0x100000), s)
  else if base = R.TEN_TENON 0 0 0 then
    let q := i 0x100000
    let t := (off - base) % 0x100000 / 8
    (inWord (inWord w F.TEN_TENON_CTX (s.tenonCtx (960 * q + t))) F.TEN_TENON_PACE (s.paceOf q (t % 32 / 8)), s)
  else if base = R.SPL_SHAPE_PEND then (inWord w F.SPL_SHAPE_PEND_CYCLE_NS s.pendCycle, s)
  else (w, s)

/-- A read of a BAR0 offset: reserved offsets and write-only fields read zero; a field of access RC is restored to its reset value
after the read. -/
def State.readReg (s : State) (off : Nat) : Word × State := match findReg off with
  | none => (0, s)
  | some r =>
    let (v, s) := s.readView r.base off
    let rc := r.bits fun f => f.acc == .rc
    (v &&& ~~~(r.bits fun f => f.acc == .wo),
      if rc = 0 then s else s.wr off (s.rd off &&& ~~~rc ||| resetWord off &&& rc))

/-- A read of a register with a field of access RC. -/
def execRcFieldRead (offset : BitVec 26) (s : State) : Out :=
  let r := s.readReg offset.toNat
  .next (r.2.sendCxl (.barData 0 offset.toNat r.1))

/-- A read of TIM_NOW_NS: the time base is captured, and its SECONDS are latched into TIM_NOW_SEC (spec/12 R357). -/
def execTimNowCapture (s : State) : Out :=
  let r := s.readReg R.TIM_NOW_NS
  .next (r.2.sendCxl (.barData 0 R.TIM_NOW_NS r.1))

end Sys2Proof.Machine
end

