-- ==== Sys2Proof/Machine/Writes.lean ====
section
/-! DEFINITION. A write of a register, field by field by its access code and class (spec/00 R15, spec/16 R421 to R423), and what
each register does when it is written. -/

namespace Sys2Proof.Machine

/-- Who writes a register (spec/16 Table 16.15): 0 the host, 1 a C context of a domain, 2 a management request. -/
structure Writer where
  source : Nat := 0
  domain : BitVec 12 := 0
  deriving DecidableEq, Repr

/-! ## Enable bits (spec/16 R428) -/

/-- What a write does to an enable bit: a rise starts the plumb check, a repeated 1 changes nothing, a 0 abandons a check or turns
the block off. `again` is what a 1 does while the block is on. -/
def State.enableBit (s : State) (k : CheckKind) (want on : Bool) (off : Nat) (who : Writer) (clear again : State → State) : State :=
  if want then
    if on then again s
    else if s.checking k then s
    else s.pushCheck { kind := k, offset := off, source := who.source, domain := who.domain }
  else if on then clear s
  else if s.checking k then s.dropChecks (· == k)
  else s

/-- Clearing a completion ring's enable is ignored and logged while it is named (spec/03 R86). -/
def State.cqClear (s : State) (c off : Nat) (who : Writer) : State :=
  if s.cqNamed c then s.cfgLog 4 0x1C 0xFF who.source who.domain off
  else s.setFld (R.HIF_CQ_CFG c) F.HIF_CQ_CFG_ENABLE 0

/-- Clearing BSN_CTRL.ENABLE aborts every operation with HOST_ABORT and releases retained chunks (spec/09 R278). -/
def State.basinOff (s : State) (e : Nat) : State :=
  let s := s.abortWhere e 5 fun _ => true
  { s with bsn.retained := s.bsn.retained.filter fun x => x.e != e }.setFld (R.BSN_CTRL e) F.BSN_CTRL_ENABLE 0

/-! ## Quiesce (spec/16 R421, R422) -/

/-- The port slot whose register block holds an offset. -/
def prtSlotOf (off : Nat) : Nat := 8 * ((off - R.PRT_PAIR_CFG 0) / 0x1000) + off % 0x1000 / 0x100 - 1

/-- The index of an offset in an array of registers. -/
def indexAt (base stride off : Nat) : Nat := (off - base) / stride

/-- The registers of a ring whose fields are of class Q. -/
def ringBases : List Nat := [R.HIF_RING_BASE 0, R.HIF_RING_CFG 0, R.HIF_RING_LINE 0, R.HIF_RING_STATE 0]

/-- The registers of a completion ring whose fields are of class Q. -/
def cqBases : List Nat := [R.HIF_CQ_BASE 0, R.HIF_CQ_CFG 0, R.HIF_CQ_HEADPTR 0]

/-- The base registers of a Basin engine, of class Q. -/
def bsnBases : List Nat := [R.BSN_RETAIN_BASE 0, R.BSN_RETAIN_SIZE 0, R.BSN_MEMBER_BASE 0, R.BSN_TEMPLATE_BASE 0]

/-- The area registers, of class Q. -/
def areaBases : List Nat := [R.MEM_HISTORY_BASE, R.MEM_HISTORY_SIZE, R.MEM_ARCHIVE_BASE, R.MEM_ARCHIVE_SIZE]

/-- Whether the block of a register's Q fields runs, for a write of a word at an offset of the array at a base. -/
def State.blockRuns (s : State) (base off : Nat) (v : Word) : Bool :=
  if cqBases.contains base then s.cqOn (indexAt base 0x20 off)
  else if ringBases.contains base then s.ringSt (indexAt base 0x20 off) != 0
  else if base = R.PRT_PAIR_CFG 0 then
    (List.range 8).any fun u => s.portEnabled (8 * indexAt base 0x1000 off + u)
  else if base = R.PRT_PORT_CTRL 0 0 ∨ base = R.PRT_PFC_THRESH 0 0 0 then s.portEnabled (prtSlotOf off)
  else if base = R.PRT_GLOBAL_CTRL then (List.range 2048).any s.portEnabled
  else if [R.FWD_GLOBAL_CTRL, R.FWD_ROUTER_MAC, R.FWD_FAR_PREFIX, R.FWD_FARPEG_CTRL].contains base then
    s.flag R.GLB_CTRL F.GLB_CTRL_FWD_ENABLE || s.flag R.GLB_STATUS F.GLB_STATUS_FWD_ACTIVE
  else if base = R.FWD_SHADOW_BASE 1 0 then s.flag R.FWD_SHADOW_CTRL F.FWD_SHADOW_CTRL_ENABLE
  else if base = R.FWD_MAC_PORT 0 then s.portEnabled (indexAt base 8 off)
  else if bsnBases.contains base then s.flag (R.BSN_CTRL (indexAt base 0x40000 off)) F.BSN_CTRL_ENABLE
  else if base = R.OPT_CTRL 0 then (List.range 64).any fun i => s.portEnabled (64 * indexAt base 0x8000 off + i)
  else if areaBases.contains base then s.flag R.MEM_CTRL F.MEM_CTRL_AREAS_ENABLE
  else if base = R.TIM_CTRL then s.flag R.TIM_CTRL F.TIM_CTRL_ENABLE
  else if base = R.TIM_SET_NS ∨ base = R.TIM_SET_SEC then
    !(s.fld R.TIM_CTRL F.TIM_CTRL_SOURCE == 2 ||
      (!s.flag R.TIM_CTRL F.TIM_CTRL_ENABLE && s.fld R.TIM_CTRL F.TIM_CTRL_SOURCE == 0))
  else if base = R.SIL_INJECT then !s.sillOwnerOff (F.SIL_INJECT_GROUP.get v) (F.SIL_INJECT_BIT.get v)
  else false

/-- The bits of a register that start a plumb check when they rise. -/
def enableMask (base : Nat) : Word :=
  if base = R.HIF_RING_ENABLE 0 then F.HIF_RING_ENABLE_ENABLE.mask
  else if base = R.HIF_CQ_CFG 0 then F.HIF_CQ_CFG_ENABLE.mask
  else if base = R.PRT_PORT_CTRL 0 0 then F.PRT_PORT_CTRL_ENABLE.mask
  else if base = R.BSN_CTRL 0 then F.BSN_CTRL_ENABLE.mask
  else if base = R.MEM_CTRL then F.MEM_CTRL_AREAS_ENABLE.mask
  else if base = R.GLB_CTRL then F.GLB_CTRL_FWD_ENABLE.mask
  else 0

/-- Whether a write changes Q fields: values that differ, or a 1 written to a W1S field of class Q. -/
def RegSpec.changesQ (r : RegSpec) (old v : Word) : Bool :=
  (old ^^^ v) &&& r.bits (fun f => f.cls == .q && f.acc == .rw) != 0 || v &&& r.bits (fun f => f.cls == .q && f.acc == .w1s) != 0

/-- The word after a write: RW fields take the value written, those of class Q unless they are refused; W1C bits are cleared. TOL
of bays 46 to 48 is fixed (spec/14 Table 14.8). -/
def RegSpec.written (r : RegSpec) (off : Nat) (old v : Word) (refused : Bool) : Word :=
  let fixed := decide (r.base = R.PWR_BAY_CTRL 0) && decide (46 ≤ indexAt r.base 8 off) && decide (indexAt r.base 8 off ≤ 48)
  let rw := r.bits (fun f => f.acc == .rw && !(refused && f.cls == .q)) &&& ~~~enableMask r.base
  if fixed then old else (old &&& ~~~rw ||| v &&& rw) &&& ~~~(v &&& r.bits fun f => f.acc == .w1c)

/-! ## What registers do when they are written -/

/-- HIF, CMD and GLB: `v` is the word written, `s` the state after its fields took effect. -/
def State.effectHost (s : State) (base off : Nat) (v : Word) (who : Writer) : State :=
  if base = R.HIF_RING_ENABLE 0 then
    let w := indexAt base 8 off
    (List.range 64).foldl (fun s i =>
      let r := 64 * w + i
      s.enableBit (.ringEnable r) (v.getLsbD i) (s.bit off i) off who (fun s => s.ringStop r) fun s => s) s
  else if base = R.HIF_CQ_CFG 0 then
    let c := indexAt base 0x20 off
    s.enableBit (.cqEnable c) (F.HIF_CQ_CFG_ENABLE.get v == 1) (s.cqOn c) off who (fun s => s.cqClear c off who) fun s => s
  else if base = R.HIF_LINK_CTRL then
    if F.HIF_LINK_CTRL_RETRAIN.get v = 1 then s.setFld off F.HIF_LINK_CTRL_RETRAIN 1 else s
  else if base = R.CMD_CTRL then
    if F.CMD_CTRL_CACHE_FLUSH.get v = 1 then (execCacheFlush s).orElse s else s
  else if base = R.CMD_PEG_ASSIGN then
    if F.CMD_PEG_ASSIGN_GO.get v = 1 then
      (execPegAssign (BitVec.ofNat 16 (F.CMD_PEG_ASSIGN_FIRST.get v)) (BitVec.ofNat 16 (F.CMD_PEG_ASSIGN_COUNT.get v))
        (BitVec.ofNat 12 (F.CMD_PEG_ASSIGN_DOMAIN.get v)) s).orElse s
    else s
  else if base = R.GLB_CTRL then
    s.enableBit .fwdEnable (F.GLB_CTRL_FWD_ENABLE.get v == 1) (s.flag off F.GLB_CTRL_FWD_ENABLE) off who
      (fun s => s.setFld off F.GLB_CTRL_FWD_ENABLE 0) fun s => s
  else s

/-- CFG: a commit of a set that none may name is refused at once; a discard of set 0x30, or of a set whose commit is being checked,
is ignored (spec/16 R424, R427). -/
def State.effectCfg (s : State) (base off : Nat) (v : Word) (who : Writer) : State :=
  if base = R.CFG_COMMIT ∧ F.CFG_COMMIT_GO.get v = 1 then
    let set := F.CFG_COMMIT_SET.get v
    if setCommits set then (s.setFld off F.CFG_COMMIT_GO 1).askCommit set who.source who.domain 0
    else (s.commitResult set 0x10 0 who.source who.domain).commitBusy
  else if base = R.CFG_DISCARD ∧ F.CFG_DISCARD_GO.get v = 1 then
    let set := F.CFG_DISCARD_SET.get v
    let busy : Bool := match s.cfg.checks with
      | k :: _ => k.kind == .commit set
      | [] => false
    if setCommits set = false ∨ busy then s else s.discardSet set
  else s

/-- PWR, TIM, LDG and CNT. -/
def State.effectCentral (s : State) (base off : Nat) (old v : Word) : State :=
  if base = R.PWR_BAY_CTRL 0 then s.tolWritten (indexAt base 8 off)
  else if base = R.TIM_CTRL then
    let s := if F.TIM_CTRL_SOURCE.get old = F.TIM_CTRL_SOURCE.get (s.rd off) then s else s.sourceChanged
    if F.TIM_CTRL_ENABLE.get old = 1 ∧ F.TIM_CTRL_ENABLE.get v = 0 ∧ F.TIM_CTRL_SOURCE.get v = 0 then
      State.parentLost { s with tim.foreign := [] }
    else s
  else if base = R.TIM_PORT_CFG 0 then
    let p := indexAt base 0x20 off
    if F.TIM_PORT_CFG_PTP.get old = 1 ∧ F.TIM_PORT_CFG_PTP.get v = 0 then s.timPortDown p
    else if F.TIM_PORT_CFG_MASTER_ONLY.get old = 0 ∧ F.TIM_PORT_CFG_MASTER_ONLY.get v = 1 then
      let s : State := { s with tim.foreign := s.tim.foreign.filter fun f => f.port != p }
      if s.tim.parent.isSome ∧ s.tim.parentPort = p then s.parentLost else s
    else s
  else if base = R.TIM_SET_NS then if F.TIM_SET_NS_GO.get v = 1 then s.timSet else s
  else if base = R.LDG_CTRL then if F.LDG_CTRL_COMMIT.get v = 1 then (execLedgerCommitRequest s).orElse s else s
  else if base = R.CNT_SNAP ∧ F.CNT_SNAP_GO.get v = 1 then
    let notify := F.CNT_SNAP_NOTIFY.get v == 1
    match F.CNT_SNAP_MODE.get v with
    | 0 => s.snapNow notify
    | 1 => s.snapAt notify (s.rd R.CNT_SNAP_TIME)
    | 2 => s.snapEvery notify (s.rd R.CNT_SNAP_TIME) (F.CNT_SNAP_PERIOD_MS.get v)
    | _ => s.snapStop
  else if base = R.CNT_CLEAR ∧ F.CNT_CLEAR_GO.get v = 1 then s.counterClear (F.CNT_CLEAR_BLOCK.get v)
  else if base = R.CNT_COPY_CTRL ∧ F.CNT_COPY_CTRL_GO.get v = 1 then
    s.counterCopy (s.rd R.CNT_COPY) (F.CNT_COPY_CTRL_FIRST.get v) (F.CNT_COPY_CTRL_COUNT.get v)
  else s

/-- A change of a pair's breakout mode loads the factory latencies of its ports (spec/12 R353). -/
def State.modeChanged (s : State) (f : Nat) : State :=
  (List.range 8).foldl (fun s u => s.wr (R.TIM_PORT_LAT (8 * f + u)) (Config.factoryLatency (8 * f + u) (s.pairMode f))) s

/-- PRT, SWC, BSN, TEN and MEM. -/
def State.effectFabric (s : State) (base off : Nat) (old v : Word) (who : Writer) : State :=
  if base = R.PRT_PAIR_CFG 0 then if s.rd off = old then s else s.modeChanged (indexAt base 0x1000 off)
  else if base = R.PRT_PORT_CTRL 0 0 then
    let p := prtSlotOf off
    s.enableBit (.portEnable p) (F.PRT_PORT_CTRL_ENABLE.get v == 1) (s.portEnabled p) off who
      (fun s => s.portOff p 6 false) fun s => s.portRetry p
  else if base = R.SWC_CTRL then s.ageSafePoint
  else if base = R.BSN_CTRL 0 then
    let e := indexAt base 0x40000 off
    s.enableBit (.bsnEnable e) (F.BSN_CTRL_ENABLE.get v == 1) (s.flag off F.BSN_CTRL_ENABLE) off who
      (fun s => s.basinOff e) fun s => s
  else if base = R.BSN_ABORT 0 then
    if F.BSN_ABORT_GO.get v = 1 then
      (execBasinAbort (Fin.ofNat 8 (indexAt base 0x40000 off)) (Fin.ofNat 1024 (F.BSN_ABORT_SLOT.get v)) s).orElse s
    else s
  else if base = R.TEN_ASSIGN 0 then
    if F.TEN_ASSIGN_GO.get v = 1 then
      let b (f : Fld) : BitVec 5 := BitVec.ofNat 5 (f.get v)
      (execTenonAssign (Fin.ofNat 4 (indexAt base 0x100000 off)) ⟨b F.TEN_ASSIGN_FIRST_ROW, b F.TEN_ASSIGN_LAST_ROW,
        b F.TEN_ASSIGN_FIRST_COL, b F.TEN_ASSIGN_LAST_COL⟩ (BitVec.ofNat 12 (F.TEN_ASSIGN_DOMAIN.get v)) s).orElse s
    else s
  else if base = R.MEM_CTRL then
    s.enableBit .areasEnable (F.MEM_CTRL_AREAS_ENABLE.get v == 1) (s.flag off F.MEM_CTRL_AREAS_ENABLE) off who
      (fun s => s.setFld off F.MEM_CTRL_AREAS_ENABLE 0) fun s => s
  else s

/-- A write of the OPT block acts at once, or, while the engine's optical group is not active, at its next wake (spec/14 R385). -/
def State.opticWrite (s : State) (e off : Nat) (v : Word) (act : State → State) : State :=
  if s.bayActive (opticBay e) then act s else { s with cfg.pendingL := s.cfg.pendingL ++ [(off, v)] }

/-- SPL_FLIP.GO: the check waits for those before it. -/
def State.flipGo (s : State) (who : Writer) : State :=
  (s.setFld R.SPL_FLIP F.SPL_FLIP_GO 1).pushCheck
    { kind := .splFlip, captured := [(R.SPL_FLIP_TIME, s.rd R.SPL_FLIP_TIME)], offset := R.SPL_FLIP, source := who.source,
      domain := who.domain }

/-- SPL and OPT. -/
def State.effectOptics (s : State) (base off : Nat) (old v : Word) (who : Writer) : State :=
  if base = R.SPL_CTRL then
    if F.SPL_CTRL_ENABLE.get old = F.SPL_CTRL_ENABLE.get v then s
    else if F.SPL_CTRL_ENABLE.get v = 1 then s.splEnable else s.splDisable
  else if base = R.SPL_REQ_A then if F.SPL_REQ_A_GO.get v = 1 then s.splGo (s.rd off) else s
  else if base = R.SPL_FLIP then if F.SPL_FLIP_GO.get v = 1 then s.flipGo who else s
  else if base = R.OPT_CTRL 0 then
    let e := indexAt base 0x8000 off
    if F.OPT_CTRL_RELOCK.get v = 1 then s.opticWrite e off v fun s => s.relockEngine e else s
  else if base = R.OPT_MEASURE 0 then
    let e := indexAt base 0x8000 off
    if F.OPT_MEASURE_GO.get v = 1 then s.opticWrite e off v fun s => s.measureStart e else s
  else if base = R.OPT_LANE_CLEAR 0 then
    let e := indexAt base 0x8000 off
    if v = 0 then s else s.opticWrite e off v fun s => s.clearLanes e v
  else s

/-- PLN and SIL. -/
def State.effectPlane (s : State) (base off : Nat) (v : Word) (refused : Bool) : State :=
  if base = R.PLN_PROMOTE then
    if F.PLN_PROMOTE_GO.get v = 1 then s.promotion (F.PLN_PROMOTE_FORCE.get v == 1) else s
  else if base = R.PLN_FLIP then
    if F.PLN_FLIP_GO.get v = 1 then s.startFlip (F.PLN_FLIP_KIND.get v) (F.PLN_FLIP_FROM_EPOCH.get v) else s
  else if base = R.PLN_FENCE_REQ then
    if F.PLN_FENCE_REQ_GO.get v = 1 then s.fenceAsk v (s.rd R.PLN_FENCE_TARGET) else s
  else if base = R.PLN_FENCE_CONFIRM then
    if F.PLN_FENCE_CONFIRM_GO.get v = 1 then
      s.fenceDecide (F.PLN_FENCE_CONFIRM_CANCEL.get v == 1) (F.PLN_FENCE_CONFIRM_TICKET.get v)
    else s
  else if base = R.SIL_INJECT then
    if F.SIL_INJECT_GO.get v = 1 ∧ refused = false then
      s.injectStart (F.SIL_INJECT_GROUP.get v) (F.SIL_INJECT_BIT.get v) (F.SIL_INJECT_PULSES.get v)
    else s
  else if base = R.SIL_OVR 0 then
    let g := indexAt base 8 off
    s.setBit (R.SIL_OVR_SUMMARY (g / 64)) (g % 64) (s.rd off != 0)
  else s

/-- What a register does when it is written. -/
def State.writeEffect (s : State) (base off : Nat) (old v : Word) (refused : Bool) (who : Writer) : State :=
  if off < R.CFG_COMMIT then s.effectHost base off v who
  else if off < R.PWR_STATUS then s.effectCfg base off v who
  else if off < R.PRT_PAIR_CFG 0 then
    if base = R.TIM_SET_NS ∧ refused then s else s.effectCentral base off old v
  else if off < R.SPL_CTRL then s.effectFabric base off old v who
  else if off < R.MEM_CTRL then s.effectOptics base off old v who
  else if off < R.PLN_CFG then s.effectFabric base off old v who
  else s.effectPlane base off v refused

/-- Writes that set GO while it reads 1 are ignored whole. -/
def State.goBusy (s : State) (base off : Nat) (v : Word) : Bool :=
  let both (f : Fld) : Bool := f.get v == 1 && s.flag off f
  if base = R.CFG_COMMIT then both F.CFG_COMMIT_GO
  else if base = R.SPL_REQ_A then both F.SPL_REQ_A_GO
  else if base = R.SPL_FLIP then both F.SPL_FLIP_GO
  else if base = R.OPT_MEASURE 0 then both F.OPT_MEASURE_GO
  else if base = R.CNT_COPY_CTRL then both F.CNT_COPY_CTRL_GO
  else if base = R.CMD_PEG_ASSIGN then both F.CMD_PEG_ASSIGN_GO
  else if base = R.TEN_ASSIGN 0 then both F.TEN_ASSIGN_GO
  else false

/-- GLB_RESET: KEY must be 0xA5; MODULE prevails; a write through REG space is ignored and logged (spec/16 R433, R434). -/
def State.resetWrite (s : State) (v : Word) (who : Writer) : State :=
  if who.source = 1 then s.cfgLog 5 0x1B 0xFF who.source who.domain R.GLB_RESET
  else if F.GLB_RESET_KEY.get v ≠ 0xA5 then s
  else if F.GLB_RESET_MODULE.get v = 1 then s.resetModule
  else if F.GLB_RESET_WELLHEAD.get v = 1 then s.restartWellhead else s

/-- An operator image-key slot: ignored and logged once LOCK is set; otherwise written and measured (spec/15 R397). -/
def State.keyWrite (s : State) (off : Nat) (v : Word) (who : Writer) : State :=
  if s.flag R.SEC_CTRL F.SEC_CTRL_LOCK then s.cfgLog 5 0x1B 0xFF who.source who.domain off
  else (s.wr off v).extend 3 (leBytes 4 off ++ leBytes 8 v.toNat)

/-- SEC_CTRL: LOCK is set until module reset, and its setting is measured. -/
def State.lockWrite (s : State) (v : Word) : State :=
  if F.SEC_CTRL_LOCK.get v = 1 ∧ s.flag R.SEC_CTRL F.SEC_CTRL_LOCK = false then
    (s.setFld R.SEC_CTRL F.SEC_CTRL_LOCK 1).extend 3 (leBytes 4 R.SEC_CTRL ++ leBytes 8 v.toNat)
  else s

/-- A write of the fields of a register, and its effect. -/
def State.writeFields (s : State) (r : RegSpec) (off : Nat) (v : Word) (who : Writer) : State :=
  let old := s.rd off
  let refused := r.changesQ old v && s.blockRuns r.base off v
  let t := s.wr off (r.written off old v refused)
  let t := if refused then t.cfgLog 4 0x1C 0xFF who.source who.domain off else t
  t.writeEffect r.base off old v refused who

/-- A write of a BAR0 offset; a reserved offset ignores it. -/
def State.writeReg (s : State) (off : Nat) (v : Word) (who : Writer) : State := match findReg off with
  | none => s
  | some r =>
    if r.base = R.GLB_RESET then s.resetWrite v who
    else if r.base = R.SEC_IMG_KEY 4 0 then s.keyWrite off v who
    else if r.base = R.SEC_CTRL then s.lockWrite v
    else if s.goBusy r.base off v then s
    else s.writeFields r off v who

end Sys2Proof.Machine
end

