-- ==== Sys2Proof/Machine/Cfg.lean ====
section
/-! DEFINITION. The commands that write one register: enables, pulses and requests of every block (spec/16 R421, R428 and the chapters
of the blocks); and the DXN loads and stores, which reach registers through REG space (spec/05 Table 5.9). -/

namespace Sys2Proof.Machine

/-- A host write through BAR0. -/
def State.hostReg (s : State) (off : Nat) (v : Word) : State := s.writeReg off v {}

def execRegisterWrite (offset : BitVec 26) (v : Word) (s : State) : Out := .next (s.hostReg offset.toNat v)

def execGlbResetModule (s : State) : Out :=
  .next (s.hostReg R.GLB_RESET (F.GLB_RESET_KEY.put 0xA5 ||| F.GLB_RESET_MODULE.put 1))

def execGlbResetWellhead (s : State) : Out :=
  .next (s.hostReg R.GLB_RESET (F.GLB_RESET_KEY.put 0xA5 ||| F.GLB_RESET_WELLHEAD.put 1))

/-! ## Rings (spec/03 R86) -/

/-! ## Accesses of the BARs (spec/00 R13; spec/03 R68 to R70) -/

/-- Whether an offset of BAR4 lies in a standard CXL or MSI-X structure (spec/03 Table 3.3). -/
def bar4Standard (o : Nat) : Bool :=
  decide (0xFE0000 ≤ o) && decide (o < 0xFF8100) || decide (0xFFA000 ≤ o) && decide (o < 0xFFC000)

/-- Whether an access is accepted: naturally aligned of 64 bits, and in a standard structure of 32 bits too. -/
def barAccepts (bar size o : Nat) : Bool :=
  (size == 8 && o % 8 == 0) || (bar == 2 && bar4Standard o && size == 4 && o % 4 == 0)

/-- Whether an offset of BAR4 lies in the MSI-X table. -/
def inMsixTable (o : Nat) : Bool := decide (0xFF0000 ≤ o) && decide (o < 0xFF8000)

/-- A 32-bit word of the MSI-X table takes a value. -/
def State.setMsix (s : State) (o : Nat) (v : Word) : State :=
  { s with host.msixTable := sset 0 s.host.msixTable ((o - 0xFF0000) / 4) (v.setWidth 32) }

/-- A write of BAR4: only the MSI-X table keeps what is written. What the CXL component and device registers do is for their
specification (log entry 69); snapshot pages, pending bits and reserved offsets are not written. -/
def State.bar4Write (s : State) (size o : Nat) (v : Word) : State :=
  if inMsixTable o then
    let s := s.setMsix o v
    if size = 8 then s.setMsix (o + 4) (v >>> 32) else s
  else s

/-- A read of BAR4: snapshot pages; the MSI-X table; no pending bit, since every message is sent at once; a free value for the CXL
component and device registers, whose contents the spec does not state (log entry 69); zero at a reserved offset. -/
def State.bar4Read (s : State) (size o : Nat) : Word × State :=
  let low (v : Word) : Word := if size = 4 then (v.setWidth 32).setWidth 64 else v
  if o < 0xFE0000 then (s.bar4Word (o / 4096) (o % 4096 / 8), s)
  else if inMsixTable o then
    let i := (o - 0xFF0000) / 4
    let lo := (sget 0 s.host.msixTable i).setWidth 64
    (if size = 4 then lo else lo ||| (sget 0 s.host.msixTable (i + 1)).setWidth 64 <<< 32, s)
  else if bar4Standard o ∧ ¬ (0xFF8000 ≤ o ∧ o < 0xFF8100) then
    let (v, s) := s.draw
    (low v, s)
  else (0, s)

/-- What a read of a BAR returns, and what it leaves. -/
def State.barRead (s : State) (bar size o : Nat) : Word × State :=
  if bar = 0 then s.readReg o else if bar = 1 then (s.bar2Read o, s) else s.bar4Read size o

/-- What a write of a BAR leaves. -/
def State.barWrite (s : State) (bar size o : Nat) (v : Word) : State :=
  if bar = 0 then s.hostReg o v else if bar = 1 then s.bar2Write o v else s.bar4Write size o v

/-- An access of BAR0, BAR2 or BAR4: one of another size or alignment completes, a read of it with all ones, and is reported; the
others have their effect. -/
def execBarMisalignedAccess (bar : Fin 3) (write : Bool) (size : BitVec 4) (offset : BitVec 26) (data : Word) (s : State) : Out :=
  let b := bar.val
  let n := size.toNat
  let o := offset.toNat
  if s.host.ideBroken then .next s
  else if barAccepts b n o = false then
    .next ((s.barRefused b write n o).sendCxl (if write then .barDone b o else .barData b o (BitVec.allOnes 64)))
  else if write then .next ((s.barWrite b n o data).sendCxl (.barDone b o))
  else
    let (v, s) := s.barRead b n o
    .next (s.sendCxl (.barData b o v))

/-- A word of HIF_RING_ENABLE with the bits under check kept (spec/16 R428), and one bit of it. -/
def State.ringWord (s : State) (r : Nat) (b : Bool) : Word :=
  let w := r / 64
  let kept := (List.range 64).foldl (fun x i =>
    if s.checking (.ringEnable (64 * w + i)) then Fld.set ⟨i, 1⟩ x 1 else x) (s.rd (R.HIF_RING_ENABLE w))
  Fld.set ⟨r % 64, 1⟩ kept (b2n b)

def execRingEnable (r : Fin 1024) (s : State) : Out :=
  .next (s.hostReg (R.HIF_RING_ENABLE (r.val / 64)) (s.ringWord r true))

def execRingDisable (r : Fin 1024) (s : State) : Out :=
  .next (s.hostReg (R.HIF_RING_ENABLE (r.val / 64)) (s.ringWord r false))

/-- One field of a register is written by the host, the others as they stand. -/
def State.hostField (s : State) (off : Nat) (f : Fld) (v : Nat) : State := s.hostReg off (f.set (s.rd off) v)

def execCqEnable (c : Fin 256) (s : State) : Out := .next (s.hostField (R.HIF_CQ_CFG c.val) F.HIF_CQ_CFG_ENABLE 1)

def execCqDisable (c : Fin 256) (s : State) : Out := .next (s.hostField (R.HIF_CQ_CFG c.val) F.HIF_CQ_CFG_ENABLE 0)

/-! ## Ports, Basin engines, memory areas, forwarding -/

def execPortEnable (p : Fin 2048) (s : State) : Out := .next (s.hostField (prtCtrl p.val) F.PRT_PORT_CTRL_ENABLE 1)

def execPortDisable (p : Fin 2048) (s : State) : Out := .next (s.hostField (prtCtrl p.val) F.PRT_PORT_CTRL_ENABLE 0)

def execBasinEnable (e : Fin 8) (s : State) : Out := .next (s.hostField (R.BSN_CTRL e.val) F.BSN_CTRL_ENABLE 1)

def execBasinDisable (e : Fin 8) (s : State) : Out := .next (s.hostField (R.BSN_CTRL e.val) F.BSN_CTRL_ENABLE 0)

def execAreasEnable (s : State) : Out := .next (s.hostField R.MEM_CTRL F.MEM_CTRL_AREAS_ENABLE 1)

def execFwdEnable (s : State) : Out := .next (s.hostField R.GLB_CTRL F.GLB_CTRL_FWD_ENABLE 1)

def execFwdDisable (s : State) : Out := .next (s.hostField R.GLB_CTRL F.GLB_CTRL_FWD_ENABLE 0)

/-- The last parsed frame has been queued: FWD_ACTIVE falls (spec/16 R420). -/
def execFwdDrained (s : State) : Out :=
  .next (if s.flag R.GLB_CTRL F.GLB_CTRL_FWD_ENABLE then s else s.setFld R.GLB_STATUS F.GLB_STATUS_FWD_ACTIVE 0)

/-! ## Optics and spillway (spec/11) -/

def execRelock (e : Fin 32) (s : State) : Out := .next (s.hostField (R.OPT_CTRL e.val) F.OPT_CTRL_RELOCK 1)

def execOptMeasure (ring : RingId) (integ : BitVec 2) (s : State) : Out :=
  .next (s.hostReg (R.OPT_MEASURE ring.e.val) (F.OPT_MEASURE_GO.put 1 ||| F.OPT_MEASURE_INTEG.put integ.toNat |||
    F.OPT_MEASURE_POSITION.put ring.k.val ||| F.OPT_MEASURE_LANE.put ring.l.val))

def execLaneClear (e : Fin 32) (mask : Word) (s : State) : Out := .next (s.hostReg (R.OPT_LANE_CLEAR e.val) mask)

/-- SPL_REQ_A with an operation and GO set. -/
def reqWord (reqA : Word) (op : Nat) : Word := F.SPL_REQ_A_GO.set (F.SPL_REQ_A_OP.set reqA op) 1

def execCircuitGrant (reqA : Word) (reqB : Word) (inId : Word) (outId : Word) (s : State) : Out :=
  .next ((((s.hostReg R.SPL_REQ_B reqB).hostReg R.SPL_REQ_IN_ID inId).hostReg R.SPL_REQ_OUT_ID outId).hostReg R.SPL_REQ_A
    (reqWord reqA 1))

def execCircuitRelease (reqA : Word) (s : State) : Out := .next (s.hostReg R.SPL_REQ_A (reqWord reqA 2))

def execCircuitReleaseAll (reqA : Word) (s : State) : Out := .next (s.hostReg R.SPL_REQ_A (reqWord reqA 3))

def execSplFlip (s : State) : Out := .next (s.hostReg R.SPL_FLIP (F.SPL_FLIP_GO.put 1))

def execSpillwayEnable (s : State) : Out := .next (s.hostField R.SPL_CTRL F.SPL_CTRL_ENABLE 1)

def execSpillwayDisable (s : State) : Out := .next (s.hostField R.SPL_CTRL F.SPL_CTRL_ENABLE 0)

/-! ## Time, bays, sills, security, commits -/

def execTimeSet (nsFrac : BitVec 48) (s : State) : Out :=
  .next (s.hostReg R.TIM_SET_NS (F.TIM_SET_NS_GO.put 1 ||| F.TIM_SET_NS_NS_FRAC.put nsFrac.toNat))

def execBayTolWrite (n : Fin 50) (tol : BitVec 24) (s : State) : Out :=
  .next (s.hostReg (R.PWR_BAY_CTRL n.val) (F.PWR_BAY_CTRL_TOL.put tol.toNat))

def execSilInject (group : BitVec 9) (bit : BitVec 6) (pulses : BitVec 8) (s : State) : Out :=
  .next (s.hostReg R.SIL_INJECT (F.SIL_INJECT_GO.put 1 ||| F.SIL_INJECT_GROUP.put group.toNat |||
    F.SIL_INJECT_BIT.put bit.toNat ||| F.SIL_INJECT_PULSES.put pulses.toNat))

/-- Operator slot `slot` of 0 to 7 is image-key slot 4 + `slot`. -/
def execImageKeyWrite (slot : Fin 8) (w : Fin 4) (v : Word) (s : State) : Out :=
  .next (s.hostReg (R.SEC_IMG_KEY (4 + slot.val) w.val) v)

def execSecLock (s : State) : Out := .next (s.hostReg R.SEC_CTRL (F.SEC_CTRL_LOCK.put 1))

def execCfgCommit (set : BitVec 8) (s : State) : Out :=
  .next (s.hostReg R.CFG_COMMIT (F.CFG_COMMIT_GO.put 1 ||| F.CFG_COMMIT_SET.put set.toNat))

def execCfgDiscard (set : BitVec 8) (s : State) : Out :=
  .next (s.hostReg R.CFG_DISCARD (F.CFG_DISCARD_GO.put 1 ||| F.CFG_DISCARD_SET.put set.toNat))

/-! ## DXN loads and stores (spec/04 R103 to R105, spec/05 R153) -/

/-- A load: the value at the address, widened to gD; uncorrectable data raises MEMORY. -/
def State.load (s : State) (c : Ctx) (w : Nat) (read : HostRead) (errs : List LineErr) (widen : Nat → Nat → Word) : State :=
  s.issue c w [] false fun s _ =>
    let n := 2 ^ mWidth w
    s.transfer c w n n false fun a s =>
      if iT w = 5 then
        let (v, s) := s.readReg a
        .go (s.setCtx c ((s.ctx c).setReg (wD w) v))
      else match s.spaceRead c (iT w) a n read errs with
        | (s, some b) => .go (s.setCtx c ((s.ctx c).setReg (wD w) (widen (8 * n) (leNat b))))
        | (s, none) => .mem s 2

def execDxnLd (c : Ctx) (body : BitVec 56) (read : HostRead) (errs : List LineErr) (s : State) : Out :=
  .next (s.load c (dxnWord 0x80 body) read errs fun _ v => BitVec.ofNat 64 v)

def execDxnLds (c : Ctx) (body : BitVec 56) (read : HostRead) (errs : List LineErr) (s : State) : Out :=
  .next (s.load c (dxnWord 0x81 body) read errs fun bits v => BitVec.ofInt 64 (signedOf bits v))

/-- A store: the low bytes of gD; a REG store obeys the classes of the register's fields, and a write that is ignored raises no
exception. -/
def execDxnSt (c : Ctx) (body : BitVec 56) (s : State) : Out :=
  let w := dxnWord 0x82 body
  .next (s.issue c w [] false fun s x =>
    let n := 2 ^ mWidth w
    s.transfer c w n n true fun a s =>
      if iT w = 5 then .go (s.writeReg a (x.reg (wD w)) { source := 1, domain := x.domain })
      else .go (s.spaceWrite c (iT w) a (leBytes n (x.reg (wD w)).toNat)))

end Sys2Proof.Machine
end

