-- ==== Sys2Proof/Machine/Memory.lean ====
section
/-! DEFINITION. Host accesses to device memory over CXL.mem, the patrol scrubber, and DDR5 command retries (spec/13 R359, R365 to
R369; spec/03 R71, R90). -/

namespace Sys2Proof.Machine

/-- Lines of the snoop filter (spec/03 R71). -/
def snoopLines : Nat := 8388608

/-- The host takes a line: it is inserted, the least recently inserted line leaving a full filter by back-invalidation. -/
def State.snoopInsert (s : State) (line : Nat) : State :=
  let l := s.host.snoopFilter
  if l.contains line then s
  else if l.length < snoopLines then { s with host.snoopFilter := l ++ [line] }
  else match l with
    | [] => s
    | x :: t => { s.sendCxl (.bisnpInv x) with host.snoopFilter := t ++ [line] }

/-- A record enters the mailbox event log; ALERT_N is low while one awaits the controller (spec/01 Table 1.7). -/
def State.mailEvent (s : State) (r : Bytes) : State :=
  { s with host.mailEvents := s.host.mailEvents ++ [r], board.alertN := false }

/-- Whether an address lies in a range the HDM decoders give the host (spec/03 Table 3.4). -/
def State.hostSees (s : State) (a : Nat) : Bool := isHbm a || s.inDdr a

/-- A host read of the line of an address: poisoned for a firmware region, else as the line reads (spec/13 Table 13.2). Outside
the decoders the device sees no access (log entry 40). -/
def execHostMemRead (addr : Word) (errs : List LineErr) (s : State) : Out :=
  let a := addr.toNat / 64 * 64
  if s.hostSees a = false ∨ s.host.ideBroken then .next s
  else
    let s := s.snoopInsert (a / 64)
    if inFirmware a then .next ((s.memEvent 1 a).sendCxl (.memData addr [] true))
    else
      let (s, b, bad) := s.devRead a 64 errs
      let s := s.sendCxl (.memData addr b bad)
      .next (if bad then s.mailEvent (leBytes 8 a) else s)

/-- The bytes of a line that a mask names are stored one by one. -/
def State.maskedWrite (s : State) (a : Nat) (data : Bytes) (mask : BitVec 64) : State :=
  (List.range 64).foldl (fun s i => if mask.getLsbD i then s.devWrite (a + i) (slice data i 1) else s) s

/-- A host write of a line: a write of all 64 bytes clears poison (spec/13 R367). -/
def execHostMemWrite (addr : Word) (data : Bytes) (mask : BitVec 64) (s : State) : Out :=
  let a := addr.toNat / 64 * 64
  if s.hostSees a = false ∨ s.host.ideBroken then .next s
  else
    let s := s.snoopInsert (a / 64)
    let s := if inFirmware a then s.memEvent 1 a
      else if mask = BitVec.allOnes 64 then s.devWrite a (slice data 0 64)
      else s.maskedWrite a data mask
    .next (s.sendCxl (.memDone addr))

/-! ## Patrol scrub (spec/13 R368) -/

/-- A unit's passes count up. -/
def State.scrubPassed (s : State) (off : Nat) : State := s.incFld off F.MEM_HBM_STATUS_PASSES

/-- The scrubber reads the line at a tier's place, corrects what it finds, and moves on; a pass of a stack ends at its last
line, one of the channels at the last line of DDR5. -/
def execScrubRead (ddr : Bool) (err : Option ErrKind) (s : State) : Out :=
  if ddr = false then
    let a := s.mem.scrubHbm
    let m := a / hbmStack
    let s := if s.fld (R.MEM_HBM_STATUS m) F.MEM_HBM_STATUS_STATE = 1 then
        let s := match err with
          | some k => if k = ErrKind.corrected ∧ s.isPoisoned a = false then s.count (ctrMem 48) else s
          | none => s
        (s.devRead a 64 (err.toList.map fun k => ⟨BitVec.ofNat 64 a, k⟩)).1
      else s
    let s := if (a + 64) % hbmStack = 0 ∧ s.fld (R.MEM_HBM_STATUS m) F.MEM_HBM_STATUS_STATE = 1 then
        s.scrubPassed (R.MEM_HBM_STATUS m) else s
    .next { s with mem.scrubHbm := (a + 64) % hbmSize }
  else if s.ddrSize = 0 then .next s
  else
    let a := ddrBase + s.mem.scrubDdr
    let s := match err with
      | some k => if k = ErrKind.corrected ∧ s.isPoisoned a = false then s.count (ctrMem 50) else s
      | none => s
    let s := (s.devRead a 64 (err.toList.map fun k => ⟨BitVec.ofNat 64 a, k⟩)).1
    let n := (s.mem.scrubDdr + 64) % s.ddrSize
    let s := if n = 0 then
        (List.range (s.fld R.MEM_STATUS F.MEM_STATUS_DDR_CHANNELS)).foldl (fun s c => s.scrubPassed (R.MEM_DDR_STATUS c)) s
      else s
    .next { s with mem.scrubDdr := n }

/-- A retry of a DDR5 command: counted; when the third fails the line is uncorrectable (spec/13 R365, R374). -/
def execAlertRetry (addr : Word) (attempt : Fin 3) (ok : Bool) (s : State) : Out :=
  let a := addr.toNat / 64 * 64
  if s.inDdr a = false then .next s
  else
    let s := s.count (ctrMem (24 + 3 * (s.memUnit a - 8) + 2))
    .next (if attempt = 2 ∧ ok = false then
        let s := s.memEvent 5 a
        if s.isPoisoned a then s.memEvent 2 a else s.uncorrectable a
      else s)

end Sys2Proof.Machine
end

