-- ==== Sys2Proof/Machine/System.lean ====
section
/-! DEFINITION. The system and version group (spec/05 R162, Table 5.16). -/

namespace Sys2Proof.Machine

/-- A short instruction that writes one value to gD. -/
def State.toReg (s : State) (c : Ctx) (w : Nat) (v : State → Context → Word) : State :=
  s.issue c w [] false fun s x => .go (s.setCtx c (x.setReg (wD w) (v s x)))

def execDxnNop (c : Ctx) (body : BitVec 56) (s : State) : Out :=
  .next (s.issue c (dxnWord 0xF0 body) [] false fun s _ => .go s)

def execDxnTrap (c : Ctx) (body : BitVec 56) (s : State) : Out :=
  let w := dxnWord 0xF1 body
  .next (s.issue c w [] false fun s _ => .fault s 0xF (BitVec.ofNat 64 (iImm w)))

def execDxnFflags (c : Ctx) (body : BitVec 56) (s : State) : Out :=
  let w := dxnWord 0xF2 body
  .next (s.issue c w [] false fun s x =>
    let y := x.setReg (wD w) (x.fflags.setWidth 64)
    .go (s.setCtx c (if bitOf (wM w) 0 then { y with fflags := 0 } else y)))

/-- RNGSET: counter bits [127:126] stay the context number. -/
def execDxnRngset (c : Ctx) (body : BitVec 56) (s : State) : Out :=
  let w := dxnWord 0xF3 body
  .next (s.issue c w [] false fun s x =>
    let ctr := (x.reg (wB w)).toNat + (x.reg (wC w)).toNat % 2 ^ 62 * 2 ^ 64 + x.rngCtr.toNat / 2 ^ 126 * 2 ^ 126
    .go (s.setCtx c { x with rngKey := x.reg (wA w), rngCtr := BitVec.ofNat 128 ctr }))

def execDxnVersion (c : Ctx) (body : BitVec 56) (s : State) : Out :=
  .next (s.toReg c (dxnWord 0xF4 body) fun _ x =>
    BitVec.ofNat 64 (profileOf c * 2 ^ 32 + 2 * 2 ^ 24 + 1 * 2 ^ 16 + x.version.toNat / 16 * 2 ^ 8 + x.version.toNat % 16))

def execDxnTime (c : Ctx) (body : BitVec 56) (s : State) : Out := .next (s.toReg c (dxnWord 0xF5 body) fun s _ => s.stamp)

def execDxnWhoami (c : Ctx) (body : BitVec 56) (s : State) : Out :=
  .next (s.toReg c (dxnWord 0xF6 body) fun _ x =>
    BitVec.ofNat 64 (x.domain.toNat * 2 ^ 20 + profileOf c * 2 ^ 16 + whoOf c))

def execDxnModid (c : Ctx) (body : BitVec 56) (s : State) : Out := .next (s.toReg c (dxnWord 0xF7 body) fun s _ => s.identity)

end Sys2Proof.Machine
end

