-- ==== Sys2Proof/Machine/Dispatch.lean ====
section
/-! DEFINITION. The dispatch: one arm for each command, each one call of its meaning. -/

namespace Sys2Proof.Machine

/-- The effect of a command on everything but the queue. -/
def exec (i : Instr) (s : State) : Host.Outcome State Fault Refusal :=
  match i with
  | .powerUp => Sys2Proof.Machine.execPowerUp s
  | .bulkCharged => Sys2Proof.Machine.execBulkCharged s
  | .modRstNRise straps => Sys2Proof.Machine.execModRstNRise straps s
  | .perstNRelease => Sys2Proof.Machine.execPerstNRelease s
  | .perstNAssert => Sys2Proof.Machine.execPerstNAssert s
  | .powerDown => Sys2Proof.Machine.execPowerDown s
  | .pfailNLow => Sys2Proof.Machine.execPfailNLow s
  | .bladePairLoss pair => Sys2Proof.Machine.execBladePairLoss pair s
  | .pairShareTimeout shareA => Sys2Proof.Machine.execPairShareTimeout shareA s
  | .inputSagDetect => Sys2Proof.Machine.execInputSagDetect s
  | .conversionStop => Sys2Proof.Machine.execConversionStop s
  | .inputRecovered => Sys2Proof.Machine.execInputRecovered s
  | .modRstNLow => Sys2Proof.Machine.execModRstNLow s
  | .lasIntNFall scan => Sys2Proof.Machine.execLasIntNFall scan s
  | .laserPoll readings => Sys2Proof.Machine.execLaserPoll readings s
  | .pairingCheckStart e => Sys2Proof.Machine.execPairingCheckStart e s
  | .pairingCheckResult e light => Sys2Proof.Machine.execPairingCheckResult e light s
  | .laserRampDone e => Sys2Proof.Machine.execLaserRampDone e s
  | .sensorSample sample => Sys2Proof.Machine.execSensorSample sample s
  | .monitorWindowEnd n cadence => Sys2Proof.Machine.execMonitorWindowEnd n cadence s
  | .supplyLoopEval q => Sys2Proof.Machine.execSupplyLoopEval q s
  | .sillPulse g b => Sys2Proof.Machine.execSillPulse g b s
  | .sillAcknowledge g b => Sys2Proof.Machine.execSillAcknowledge g b s
  | .silInject group bit pulses => Sys2Proof.Machine.execSilInject group bit pulses s
  | .injectionDone => Sys2Proof.Machine.execInjectionDone s
  | .linkTrain trains lopt => Sys2Proof.Machine.execLinkTrain trains lopt s
  | .linkRetrain trains lopt => Sys2Proof.Machine.execLinkRetrain trains lopt s
  | .linkDown => Sys2Proof.Machine.execLinkDown s
  | .d3hotEntry => Sys2Proof.Machine.execD3hotEntry s
  | .d0Return => Sys2Proof.Machine.execD0Return s
  | .barMisalignedAccess bar write size offset data => Sys2Proof.Machine.execBarMisalignedAccess bar write size offset data s
  | .pegBar2Set p v => Sys2Proof.Machine.execPegBar2Set p v s
  | .pegBar2Add p v => Sys2Proof.Machine.execPegBar2Add p v s
  | .hostMemRead addr errs => Sys2Proof.Machine.execHostMemRead addr errs s
  | .hostMemWrite addr data mask => Sys2Proof.Machine.execHostMemWrite addr data mask s
  | .ringEnable r => Sys2Proof.Machine.execRingEnable r s
  | .ringDisable r => Sys2Proof.Machine.execRingDisable r s
  | .ringDrained r => Sys2Proof.Machine.execRingDrained r s
  | .cqEnable c => Sys2Proof.Machine.execCqEnable c s
  | .cqDisable c => Sys2Proof.Machine.execCqDisable c s
  | .watchedLineSnoop r => Sys2Proof.Machine.execWatchedLineSnoop r s
  | .watchedLineData r read => Sys2Proof.Machine.execWatchedLineData r read s
  | .watchPoll r read => Sys2Proof.Machine.execWatchPoll r read s
  | .descriptorArrival r read => Sys2Proof.Machine.execDescriptorArrival r read s
  | .descriptorAdmit item => Sys2Proof.Machine.execDescriptorAdmit item s
  | .descriptorNop item => Sys2Proof.Machine.execDescriptorNop item s
  | .descriptorRun item => Sys2Proof.Machine.execDescriptorRun item s
  | .descriptorAbort item => Sys2Proof.Machine.execDescriptorAbort item s
  | .parkedWaitSatisfied item => Sys2Proof.Machine.execParkedWaitSatisfied item s
  | .descriptorWaitTimeout item => Sys2Proof.Machine.execDescriptorWaitTimeout item s
  | .imageReadComplete n read errs => Sys2Proof.Machine.execImageReadComplete n read errs s
  | .workCompletion item => Sys2Proof.Machine.execWorkCompletion item s
  | .cqHeadptrReread c read => Sys2Proof.Machine.execCqHeadptrReread c read s
  | .cqStallTimeout c => Sys2Proof.Machine.execCqStallTimeout c s
  | .ideFailure => Sys2Proof.Machine.execIdeFailure s
  | .mctpMessage i3c wellFormed msg => Sys2Proof.Machine.execMctpMessage i3c wellFormed msg s
  | .identify => Sys2Proof.Machine.execIdentify s
  | .getEventRecords => Sys2Proof.Machine.execGetEventRecords s
  | .clearEventRecords count => Sys2Proof.Machine.execClearEventRecords count s
  | .getSupportedLogs => Sys2Proof.Machine.execGetSupportedLogs s
  | .getLog offset length => Sys2Proof.Machine.execGetLog offset length s
  | .getFwInfo i3c => Sys2Proof.Machine.execGetFwInfo i3c s
  | .transferFw part offset data => Sys2Proof.Machine.execTransferFw part offset data s
  | .activateFw bank => Sys2Proof.Machine.execActivateFw bank s
  | .getTimestamp => Sys2Proof.Machine.execGetTimestamp s
  | .mailboxUnsupported opcode => Sys2Proof.Machine.execMailboxUnsupported opcode s
  | .getAttestation via nonce => Sys2Proof.Machine.execGetAttestation via nonce s
  | .getIdentityCert via => Sys2Proof.Machine.execGetIdentityCert via s
  | .provisionPsk via slot ciphertext => Sys2Proof.Machine.execProvisionPsk via slot ciphertext s
  | .revokeSlot via slot signer pubkey msg signature => Sys2Proof.Machine.execRevokeSlot via slot signer pubkey msg signature s
  | .commitSvn via force => Sys2Proof.Machine.execCommitSvn via force s
  | .extendMeasurement via reg digest => Sys2Proof.Machine.execExtendMeasurement via reg digest s
  | .pskExchange i3c slot version msg => Sys2Proof.Machine.execPskExchange i3c slot version msg s
  | .getMeasurements i3c index => Sys2Proof.Machine.execGetMeasurements i3c index s
  | .keyProg i3c session protocol tx set key => Sys2Proof.Machine.execKeyProg i3c session protocol tx set key s
  | .kSetGo i3c session protocol tx set => Sys2Proof.Machine.execKSetGo i3c session protocol tx set s
  | .kSetStop i3c session protocol tx set => Sys2Proof.Machine.execKSetStop i3c session protocol tx set s
  | .pegAssign first count domain => Sys2Proof.Machine.execPegAssign first count domain s
  | .cacheFlush => Sys2Proof.Machine.execCacheFlush s
  | .dxnAdd c body => Sys2Proof.Machine.execDxnAdd c body s
  | .dxnSub c body => Sys2Proof.Machine.execDxnSub c body s
  | .dxnMul c body => Sys2Proof.Machine.execDxnMul c body s
  | .dxnMulh c body => Sys2Proof.Machine.execDxnMulh c body s
  | .dxnDiv c body => Sys2Proof.Machine.execDxnDiv c body s
  | .dxnRem c body => Sys2Proof.Machine.execDxnRem c body s
  | .dxnMin c body => Sys2Proof.Machine.execDxnMin c body s
  | .dxnMax c body => Sys2Proof.Machine.execDxnMax c body s
  | .dxnAnd c body => Sys2Proof.Machine.execDxnAnd c body s
  | .dxnOr c body => Sys2Proof.Machine.execDxnOr c body s
  | .dxnXor c body => Sys2Proof.Machine.execDxnXor c body s
  | .dxnShl c body => Sys2Proof.Machine.execDxnShl c body s
  | .dxnShr c body => Sys2Proof.Machine.execDxnShr c body s
  | .dxnSra c body => Sys2Proof.Machine.execDxnSra c body s
  | .dxnFma c body => Sys2Proof.Machine.execDxnFma c body s
  | .dxnCmp c body => Sys2Proof.Machine.execDxnCmp c body s
  | .dxnSel c body => Sys2Proof.Machine.execDxnSel c body s
  | .dxnCvt c body => Sys2Proof.Machine.execDxnCvt c body s
  | .dxnMovi c body => Sys2Proof.Machine.execDxnMovi c body s
  | .dxnMovhi c body => Sys2Proof.Machine.execDxnMovhi c body s
  | .dxnAddi c body => Sys2Proof.Machine.execDxnAddi c body s
  | .dxnAndi c body => Sys2Proof.Machine.execDxnAndi c body s
  | .dxnOri c body => Sys2Proof.Machine.execDxnOri c body s
  | .dxnXori c body => Sys2Proof.Machine.execDxnXori c body s
  | .dxnShli c body => Sys2Proof.Machine.execDxnShli c body s
  | .dxnShri c body => Sys2Proof.Machine.execDxnShri c body s
  | .dxnSrai c body => Sys2Proof.Machine.execDxnSrai c body s
  | .dxnCmpi c body => Sys2Proof.Machine.execDxnCmpi c body s
  | .dxnPlog c body => Sys2Proof.Machine.execDxnPlog c body s
  | .dxnPmov c body => Sys2Proof.Machine.execDxnPmov c body s
  | .dxnVadd c body => Sys2Proof.Machine.execDxnVadd c body s
  | .dxnVsub c body => Sys2Proof.Machine.execDxnVsub c body s
  | .dxnVmul c body => Sys2Proof.Machine.execDxnVmul c body s
  | .dxnVfma c body => Sys2Proof.Machine.execDxnVfma c body s
  | .dxnVmin c body => Sys2Proof.Machine.execDxnVmin c body s
  | .dxnVmax c body => Sys2Proof.Machine.execDxnVmax c body s
  | .dxnVdiv c body => Sys2Proof.Machine.execDxnVdiv c body s
  | .dxnVsqrt c body => Sys2Proof.Machine.execDxnVsqrt c body s
  | .dxnVand c body => Sys2Proof.Machine.execDxnVand c body s
  | .dxnVor c body => Sys2Proof.Machine.execDxnVor c body s
  | .dxnVxor c body => Sys2Proof.Machine.execDxnVxor c body s
  | .dxnVshl c body => Sys2Proof.Machine.execDxnVshl c body s
  | .dxnVshr c body => Sys2Proof.Machine.execDxnVshr c body s
  | .dxnVsra c body => Sys2Proof.Machine.execDxnVsra c body s
  | .dxnVcmp c body => Sys2Proof.Machine.execDxnVcmp c body s
  | .dxnVsel c body => Sys2Proof.Machine.execDxnVsel c body s
  | .dxnVcvt c body => Sys2Proof.Machine.execDxnVcvt c body s
  | .dxnVbcast c body => Sys2Proof.Machine.execDxnVbcast c body s
  | .dxnVext c body => Sys2Proof.Machine.execDxnVext c body s
  | .dxnVins c body => Sys2Proof.Machine.execDxnVins c body s
  | .dxnVred c body => Sys2Proof.Machine.execDxnVred c body s
  | .dxnVrand c body => Sys2Proof.Machine.execDxnVrand c body s
  | .dxnMma c body => Sys2Proof.Machine.execDxnMma c body s
  | .dxnAzero c body => Sys2Proof.Machine.execDxnAzero c body s
  | .dxnAload c body => Sys2Proof.Machine.execDxnAload c body s
  | .dxnAcvt c body => Sys2Proof.Machine.execDxnAcvt c body s
  | .dxnTrd c body => Sys2Proof.Machine.execDxnTrd c body s
  | .dxnTwr c body => Sys2Proof.Machine.execDxnTwr c body s
  | .dxnArd c body => Sys2Proof.Machine.execDxnArd c body s
  | .dxnAwr c body => Sys2Proof.Machine.execDxnAwr c body s
  | .dxnTtrans c body => Sys2Proof.Machine.execDxnTtrans c body s
  | .dxnTcvt c body => Sys2Proof.Machine.execDxnTcvt c body s
  | .dxnTzero c body => Sys2Proof.Machine.execDxnTzero c body s
  | .dxnTgen c body => Sys2Proof.Machine.execDxnTgen c body s
  | .dxnSend c body => Sys2Proof.Machine.execDxnSend c body s
  | .dxnRecv c body => Sys2Proof.Machine.execDxnRecv c body s
  | .dxnSendm c body => Sys2Proof.Machine.execDxnSendm c body s
  | .dxnRecvm c body => Sys2Proof.Machine.execDxnRecvm c body s
  | .dxnSpoll c body => Sys2Proof.Machine.execDxnSpoll c body s
  | .streamTileArrival q row col port => Sys2Proof.Machine.execStreamTileArrival q row col port s
  | .dxnPegAdd c body => Sys2Proof.Machine.execDxnPegAdd c body s
  | .dxnPegSet c body => Sys2Proof.Machine.execDxnPegSet c body s
  | .dxnPegWaitGe c body => Sys2Proof.Machine.execDxnPegWaitGe c body s
  | .dxnPegWaitEq c body => Sys2Proof.Machine.execDxnPegWaitEq c body s
  | .dxnPegArmTimeout c body => Sys2Proof.Machine.execDxnPegArmTimeout c body s
  | .pegWaitSatisfied c => Sys2Proof.Machine.execPegWaitSatisfied c s
  | .pegWaitTimeout c => Sys2Proof.Machine.execPegWaitTimeout c s
  | .dxnBind c body => Sys2Proof.Machine.execDxnBind c body s
  | .dxnFarset c body => Sys2Proof.Machine.execDxnFarset c body s
  | .dxnFence c body => Sys2Proof.Machine.execDxnFence c body s
  | .dxnPegrd c body => Sys2Proof.Machine.execDxnPegrd c body s
  | .farPegRequest msg => Sys2Proof.Machine.execFarPegRequest msg s
  | .farPegAck msg => Sys2Proof.Machine.execFarPegAck msg s
  | .farPegRetry op => Sys2Proof.Machine.execFarPegRetry op s
  | .farPegEntryEvict sender agent who slot => Sys2Proof.Machine.execFarPegEntryEvict sender agent who slot s
  | .dxnLd c body read errs => Sys2Proof.Machine.execDxnLd c body read errs s
  | .dxnLds c body read errs => Sys2Proof.Machine.execDxnLds c body read errs s
  | .dxnSt c body => Sys2Proof.Machine.execDxnSt c body s
  | .dxnVld c body => Sys2Proof.Machine.execDxnVld c body s
  | .dxnVst c body => Sys2Proof.Machine.execDxnVst c body s
  | .dxnTld c body => Sys2Proof.Machine.execDxnTld c body s
  | .dxnTst c body => Sys2Proof.Machine.execDxnTst c body s
  | .dxnMove c body => Sys2Proof.Machine.execDxnMove c body s
  | .dxnFill c body => Sys2Proof.Machine.execDxnFill c body s
  | .dxnXmove c body => Sys2Proof.Machine.execDxnXmove c body s
  | .dxnTdma c body => Sys2Proof.Machine.execDxnTdma c body s
  | .longOpComplete op read errs => Sys2Proof.Machine.execLongOpComplete op read errs s
  | .dxnBr c body => Sys2Proof.Machine.execDxnBr c body s
  | .dxnJr c body => Sys2Proof.Machine.execDxnJr c body s
  | .dxnDbnz c body => Sys2Proof.Machine.execDxnDbnz c body s
  | .dxnEnd c body => Sys2Proof.Machine.execDxnEnd c body s
  | .contextEnd c => Sys2Proof.Machine.execContextEnd c s
  | .runLimitExpiry n => Sys2Proof.Machine.execRunLimitExpiry n s
  | .dxnCacc c body errs => Sys2Proof.Machine.execDxnCacc c body errs s
  | .dxnCemit c body => Sys2Proof.Machine.execDxnCemit c body s
  | .dxnCgath c body => Sys2Proof.Machine.execDxnCgath c body s
  | .dxnCapply c body errs => Sys2Proof.Machine.execDxnCapply c body errs s
  | .dxnCbar c body => Sys2Proof.Machine.execDxnCbar c body s
  | .dxnCring c body => Sys2Proof.Machine.execDxnCring c body s
  | .dxnCabort c body => Sys2Proof.Machine.execDxnCabort c body s
  | .dxnCstat c body => Sys2Proof.Machine.execDxnCstat c body s
  | .dxnTstart c body read errs => Sys2Proof.Machine.execDxnTstart c body read errs s
  | .dxnBstart c body read errs => Sys2Proof.Machine.execDxnBstart c body read errs s
  | .dxnTruss c body errs => Sys2Proof.Machine.execDxnTruss c body errs s
  | .dxnUntruss c body => Sys2Proof.Machine.execDxnUntruss c body s
  | .dxnSeglock c body => Sys2Proof.Machine.execDxnSeglock c body s
  | .dxnSegpub c body => Sys2Proof.Machine.execDxnSegpub c body s
  | .dxnCommit c body => Sys2Proof.Machine.execDxnCommit c body s
  | .dxnEflip c body => Sys2Proof.Machine.execDxnEflip c body s
  | .dxnPassign c body => Sys2Proof.Machine.execDxnPassign c body s
  | .dxnTstop c body => Sys2Proof.Machine.execDxnTstop c body s
  | .dxnNop c body => Sys2Proof.Machine.execDxnNop c body s
  | .dxnTrap c body => Sys2Proof.Machine.execDxnTrap c body s
  | .dxnFflags c body => Sys2Proof.Machine.execDxnFflags c body s
  | .dxnRngset c body => Sys2Proof.Machine.execDxnRngset c body s
  | .dxnVersion c body => Sys2Proof.Machine.execDxnVersion c body s
  | .dxnTime c body => Sys2Proof.Machine.execDxnTime c body s
  | .dxnWhoami c body => Sys2Proof.Machine.execDxnWhoami c body s
  | .dxnModid c body => Sys2Proof.Machine.execDxnModid c body s
  | .portEnable p => Sys2Proof.Machine.execPortEnable p s
  | .portDisable p => Sys2Proof.Machine.execPortDisable p s
  | .pcsLock p => Sys2Proof.Machine.execPcsLock p s
  | .pcsLoss p dark => Sys2Proof.Machine.execPcsLoss p dark s
  | .lldpReceive p frame => Sys2Proof.Machine.execLldpReceive p frame s
  | .wlxResend p => Sys2Proof.Machine.execWlxResend p s
  | .lldpPeriodic p => Sys2Proof.Machine.execLldpPeriodic p s
  | .discoveryTimeout p => Sys2Proof.Machine.execDiscoveryTimeout p s
  | .lldpTtlExpiry p => Sys2Proof.Machine.execLldpTtlExpiry p s
  | .creditFrameReceive p frame => Sys2Proof.Machine.execCreditFrameReceive p frame s
  | .creditFrameSend p => Sys2Proof.Machine.execCreditFrameSend p s
  | .keepaliveSend p => Sys2Proof.Machine.execKeepaliveSend p s
  | .keepaliveTimeout p => Sys2Proof.Machine.execKeepaliveTimeout p s
  | .tailAbortReceive p frame => Sys2Proof.Machine.execTailAbortReceive p frame s
  | .pfcFrameReceive p enable quanta => Sys2Proof.Machine.execPfcFrameReceive p enable quanta s
  | .pfcPauseExpiry p c => Sys2Proof.Machine.execPfcPauseExpiry p c s
  | .pfcXoffResend p c => Sys2Proof.Machine.execPfcXoffResend p c s
  | .pfcStorm p c => Sys2Proof.Machine.execPfcStorm p c s
  | .pfcWatchdogEnd p c => Sys2Proof.Machine.execPfcWatchdogEnd p c s
  | .holdExpiry p => Sys2Proof.Machine.execHoldExpiry p s
  | .laneReportReceive p frame => Sys2Proof.Machine.execLaneReportReceive p frame s
  | .laneReportSend p found => Sys2Proof.Machine.execLaneReportSend p found s
  | .frameReceive p frame capture errs => Sys2Proof.Machine.execFrameReceive p frame capture errs s
  | .internalFrame q errs => Sys2Proof.Machine.execInternalFrame q errs s
  | .transferQueueRelease p c => Sys2Proof.Machine.execTransferQueueRelease p c s
  | .meshCellArrival stream seq => Sys2Proof.Machine.execMeshCellArrival stream seq s
  | .reseqTimeout stream => Sys2Proof.Machine.execReseqTimeout stream s
  | .meshCellLost stream seq => Sys2Proof.Machine.execMeshCellLost stream seq s
  | .frameDequeue p capture errs => Sys2Proof.Machine.execFrameDequeue p capture errs s
  | .stomp p reason sent => Sys2Proof.Machine.execStomp p reason sent s
  | .auditPass strays => Sys2Proof.Machine.execAuditPass strays s
  | .sflowDatagramSend mgaDown => Sys2Proof.Machine.execSflowDatagramSend mgaDown s
  | .epochFlip => Sys2Proof.Machine.execEpochFlip s
  | .epochRetire => Sys2Proof.Machine.execEpochRetire s
  | .trieRebuilt slice bank node => Sys2Proof.Machine.execTrieRebuilt slice bank node s
  | .shadowCompareRow read errs found => Sys2Proof.Machine.execShadowCompareRow read errs found s
  | .shadowRecheck read errs found => Sys2Proof.Machine.execShadowRecheck read errs found s
  | .macAgeExpiry mac vlan => Sys2Proof.Machine.execMacAgeExpiry mac vlan s
  | .contribution e errs => Sys2Proof.Machine.execContribution e errs s
  | .retransmitRequest e errs => Sys2Proof.Machine.execRetransmitRequest e errs s
  | .abortNotice e => Sys2Proof.Machine.execAbortNotice e s
  | .barrierArrival e => Sys2Proof.Machine.execBarrierArrival e s
  | .stepDone e => Sys2Proof.Machine.execStepDone e s
  | .abortComplete e sl => Sys2Proof.Machine.execAbortComplete e sl s
  | .collectiveTimeout op => Sys2Proof.Machine.execCollectiveTimeout op s
  | .stepBudgetExpiry op => Sys2Proof.Machine.execStepBudgetExpiry op s
  | .applyReportTimeout e sl => Sys2Proof.Machine.execApplyReportTimeout e sl s
  | .retentionRelease e group opSeq chunk => Sys2Proof.Machine.execRetentionRelease e group opSeq chunk s
  | .abortCodeExpiry e group opSeq => Sys2Proof.Machine.execAbortCodeExpiry e group opSeq s
  | .channelTileReceive e ch errs => Sys2Proof.Machine.execChannelTileReceive e ch errs s
  | .basinEnable e => Sys2Proof.Machine.execBasinEnable e s
  | .basinDisable e => Sys2Proof.Machine.execBasinDisable e s
  | .basinAbort e sl => Sys2Proof.Machine.execBasinAbort e sl s
  | .tenonAssign q rect domain => Sys2Proof.Machine.execTenonAssign q rect domain s
  | .dmaStreamTile q stream errs => Sys2Proof.Machine.execDmaStreamTile q stream errs s
  | .lockLoopSample ring detune heater => Sys2Proof.Machine.execLockLoopSample ring detune heater s
  | .ringLockAttemptDone ring met => Sys2Proof.Machine.execRingLockAttemptDone ring met s
  | .orderCountDone ring crossings => Sys2Proof.Machine.execOrderCountDone ring crossings s
  | .setPointTrim ring heater => Sys2Proof.Machine.execSetPointTrim ring heater s
  | .relock e => Sys2Proof.Machine.execRelock e s
  | .optMeasure ring integ => Sys2Proof.Machine.execOptMeasure ring integ s
  | .optMeasureDone e code => Sys2Proof.Machine.execOptMeasureDone e code s
  | .laneClear e mask => Sys2Proof.Machine.execLaneClear e mask s
  | .circuitGrant reqA reqB inId outId => Sys2Proof.Machine.execCircuitGrant reqA reqB inId outId s
  | .circuitRelease reqA => Sys2Proof.Machine.execCircuitRelease reqA s
  | .circuitReleaseAll reqA => Sys2Proof.Machine.execCircuitReleaseAll reqA s
  | .splFlip => Sys2Proof.Machine.execSplFlip s
  | .spillwayFlipInstant => Sys2Proof.Machine.execSpillwayFlipInstant s
  | .slotBoundary => Sys2Proof.Machine.execSlotBoundary s
  | .gateEvaluate => Sys2Proof.Machine.execGateEvaluate s
  | .gateRecoverExpiry => Sys2Proof.Machine.execGateRecoverExpiry s
  | .fallbackBoundary => Sys2Proof.Machine.execFallbackBoundary s
  | .spillwayEnable => Sys2Proof.Machine.execSpillwayEnable s
  | .spillwayDisable => Sys2Proof.Machine.execSpillwayDisable s
  | .elementCheck plane stage index ok => Sys2Proof.Machine.execElementCheck plane stage index ok s
  | .circuitDark n power => Sys2Proof.Machine.execCircuitDark n power s
  | .ptpSync p msg capture => Sys2Proof.Machine.execPtpSync p msg capture s
  | .ptpFollowUp p msg => Sys2Proof.Machine.execPtpFollowUp p msg s
  | .ptpDelayReq p msg capture => Sys2Proof.Machine.execPtpDelayReq p msg capture s
  | .ptpDelayResp p msg => Sys2Proof.Machine.execPtpDelayResp p msg s
  | .ptpAnnounce p msg => Sys2Proof.Machine.execPtpAnnounce p msg s
  | .ptpTransmitInterval p kind capture => Sys2Proof.Machine.execPtpTransmitInterval p kind capture s
  | .announceTimeout p => Sys2Proof.Machine.execAnnounceTimeout p s
  | .syncLossTimeout p => Sys2Proof.Machine.execSyncLossTimeout p s
  | .ppsInEdge => Sys2Proof.Machine.execPpsInEdge s
  | .ppsMissingTimeout => Sys2Proof.Machine.execPpsMissingTimeout s
  | .ppsOutSecond => Sys2Proof.Machine.execPpsOutSecond s
  | .timeSet nsFrac => Sys2Proof.Machine.execTimeSet nsFrac s
  | .scrubRead ddr err => Sys2Proof.Machine.execScrubRead ddr err s
  | .alertRetry addr attempt ok => Sys2Proof.Machine.execAlertRetry addr attempt ok s
  | .areasEnable => Sys2Proof.Machine.execAreasEnable s
  | .bayDwellExpiry n => Sys2Proof.Machine.execBayDwellExpiry n s
  | .bayWake n => Sys2Proof.Machine.execBayWake n s
  | .bayWakeDone n duration restored => Sys2Proof.Machine.execBayWakeDone n duration restored s
  | .bayTolWrite n tol => Sys2Proof.Machine.execBayTolWrite n tol s
  | .railMonitorTrip n => Sys2Proof.Machine.execRailMonitorTrip n s
  | .railMonitorRelease n => Sys2Proof.Machine.execRailMonitorRelease n s
  | .romSelfTestDone => Sys2Proof.Machine.execRomSelfTestDone s
  | .bootImageCheck => Sys2Proof.Machine.execBootImageCheck s
  | .imageKeyWrite sl w v => Sys2Proof.Machine.execImageKeyWrite sl w v s
  | .secLock => Sys2Proof.Machine.execSecLock s
  | .wellheadPhaseDone => Sys2Proof.Machine.execWellheadPhaseDone s
  | .corePhaseDone => Sys2Proof.Machine.execCorePhaseDone s
  | .hbmTrainingDone trained spares => Sys2Proof.Machine.execHbmTrainingDone trained spares s
  | .ddrTrainingDone dimms trained spares => Sys2Proof.Machine.execDdrTrainingDone dimms trained spares s
  | .opticsPhaseDone => Sys2Proof.Machine.execOpticsPhaseDone s
  | .fwdEnable => Sys2Proof.Machine.execFwdEnable s
  | .fwdDisable => Sys2Proof.Machine.execFwdDisable s
  | .fwdDrained => Sys2Proof.Machine.execFwdDrained s
  | .enableCheckDone => Sys2Proof.Machine.execEnableCheckDone s
  | .cfgCommit set => Sys2Proof.Machine.execCfgCommit set s
  | .commitCheckDone errs => Sys2Proof.Machine.execCommitCheckDone errs s
  | .cfgDiscard set => Sys2Proof.Machine.execCfgDiscard set s
  | .registerWrite offset v => Sys2Proof.Machine.execRegisterWrite offset v s
  | .glbResetModule => Sys2Proof.Machine.execGlbResetModule s
  | .moduleResetEnd straps => Sys2Proof.Machine.execModuleResetEnd straps s
  | .glbResetWellhead => Sys2Proof.Machine.execGlbResetWellhead s
  | .wellheadWatchdog => Sys2Proof.Machine.execWellheadWatchdog s
  | .wellheadRestartDone => Sys2Proof.Machine.execWellheadRestartDone s
  | .heartbeat port msg => Sys2Proof.Machine.execHeartbeat port msg s
  | .health port msg => Sys2Proof.Machine.execHealth port msg s
  | .prepare port msg => Sys2Proof.Machine.execPrepare port msg s
  | .ready port msg => Sys2Proof.Machine.execReady port msg s
  | .planeCommit port msg => Sys2Proof.Machine.execPlaneCommit port msg s
  | .planeAbort port msg => Sys2Proof.Machine.execPlaneAbort port msg s
  | .done port msg => Sys2Proof.Machine.execDone port msg s
  | .circuit port msg => Sys2Proof.Machine.execCircuit port msg s
  | .circuitAnswer port msg => Sys2Proof.Machine.execCircuitAnswer port msg s
  | .planeFence port msg => Sys2Proof.Machine.execPlaneFence port msg s
  | .planeUnfence port msg => Sys2Proof.Machine.execPlaneUnfence port msg s
  | .ack port msg => Sys2Proof.Machine.execAck port msg s
  | .event port msg => Sys2Proof.Machine.execEvent port msg s
  | .sync port msg => Sys2Proof.Machine.execSync port msg s
  | .heartbeatSend => Sys2Proof.Machine.execHeartbeatSend s
  | .syncSend => Sys2Proof.Machine.execSyncSend s
  | .managerSilenceTimeout => Sys2Proof.Machine.execManagerSilenceTimeout s
  | .workerSilenceTimeout n => Sys2Proof.Machine.execWorkerSilenceTimeout n s
  | .pathSilenceTimeout port n => Sys2Proof.Machine.execPathSilenceTimeout port n s
  | .listenPeriodEnd => Sys2Proof.Machine.execListenPeriodEnd s
  | .promote force => Sys2Proof.Machine.execPromote force s
  | .planeFlip kind fromEpoch => Sys2Proof.Machine.execPlaneFlip kind fromEpoch s
  | .prepareResend => Sys2Proof.Machine.execPrepareResend s
  | .prepareDeadline => Sys2Proof.Machine.execPrepareDeadline s
  | .commitResend => Sys2Proof.Machine.execCommitResend s
  | .flipDoneDeadline => Sys2Proof.Machine.execFlipDoneDeadline s
  | .fenceRequest req target => Sys2Proof.Machine.execFenceRequest req target s
  | .fenceConfirm cancel ticket => Sys2Proof.Machine.execFenceConfirm cancel ticket s
  | .fenceResend handed => Sys2Proof.Machine.execFenceResend handed s
  | .loadWindow load => Sys2Proof.Machine.execLoadWindow load s
  | .ledgerCommitRequest => Sys2Proof.Machine.execLedgerCommitRequest s
  | .ledgerPeriodicCommit => Sys2Proof.Machine.execLedgerPeriodicCommit s
  | .ledgerCommitDone ok => Sys2Proof.Machine.execLedgerCommitDone ok s
  | .lifeSecond => Sys2Proof.Machine.execLifeSecond s
  | .lifeHour => Sys2Proof.Machine.execLifeHour s
  | .counterReaderVisit block index => Sys2Proof.Machine.execCounterReaderVisit block index s
  | .snapNow notify => Sys2Proof.Machine.execSnapNow notify s
  | .snapAtInstant notify instant => Sys2Proof.Machine.execSnapAtInstant notify instant s
  | .snapPeriodic notify instant periodMs => Sys2Proof.Machine.execSnapPeriodic notify instant periodMs s
  | .snapStop => Sys2Proof.Machine.execSnapStop s
  | .snapshotFreeze => Sys2Proof.Machine.execSnapshotFreeze s
  | .snapshotPublish => Sys2Proof.Machine.execSnapshotPublish s
  | .counterClear block => Sys2Proof.Machine.execCounterClear block s
  | .counterCopy dest first count => Sys2Proof.Machine.execCounterCopy dest first count s
  | .counterCopyDone => Sys2Proof.Machine.execCounterCopyDone s
  | .channelRetrained d h c => Sys2Proof.Machine.execChannelRetrained d h c s
  | .windowOpen p => Sys2Proof.Machine.execWindowOpen p s
  | .rcFieldRead offset => Sys2Proof.Machine.execRcFieldRead offset s
  | .timNowCapture => Sys2Proof.Machine.execTimNowCapture s

end Sys2Proof.Machine
end

