-- ==== Sys2Proof/Safety.lean ====
section
/-! DEFINITION. What counts as a safe state, and the terms in which statements speak of a step: the canonical form of the
module's stores, a command that answers a next state, and what a step leaves unchanged. -/

namespace Sys2Proof.Machine

/-- Device memory is in canonical form: addresses strictly rising, no listed byte zero. -/
def Mem.wf (m : Mem) : Bool := swf (fun _ => 0) m.bytes

/-- The register store is in canonical form: offsets strictly rising, no listed register at its reset value. -/
def State.regsWf (s : State) : Bool := swf resetWord s.regs

/-- Both stores that stand for an address space, BAR0 and device memory, are in canonical form. -/
def State.Canonical (s : State) : Prop := s.regsWf = true ∧ s.mem.wf = true

/-- One byte of device memory. -/
def State.byte (s : State) (a : Nat) : Byte := sget 0 s.mem.bytes a

/-- A command answers a next state of which something holds. -/
def Answers (o : Out) (p : State → Prop) : Prop := ∃ t, o = .next t ∧ p t

/-- Every register of BAR0 but those at the listed offsets reads as before. -/
def State.RegsBut (s t : State) (l : List Nat) : Prop := ∀ o, o ∉ l → t.rd o = s.rd o

/-- Every byte of device memory outside a range reads as before. -/
def State.BytesBut (s t : State) (a n : Nat) : Prop := ∀ k, k < a ∨ a + n ≤ k → t.byte k = s.byte k

/-- A Daxran instruction word issues: its context runs and has the word at its PC, the encoding raises nothing, no register it
names is locked, and a long operation finds room (spec/04 R98 to R101, R123, R127; log entry 16). -/
def State.Issues (s : State) (c : Ctx) (w : Nat) (locks : List Lock) (long : Bool) : Prop :=
  (s.ctx c).status = .running ∧ (s.ctx c).code[(s.ctx c).pc]? = some (BitVec.ofNat 64 w) ∧
  encodingFault (profileOf c) (s.ctx c).version.toNat w = none ∧ s.lockedFor c locks = false ∧
  (long = true → (s.opsOf c).length < longLimit c)

/-- The word at an index of a context's code is one that some command spells, so that fetching it raises nothing. -/
def State.Fetches (s : State) (c : Ctx) (pc : Nat) : Prop :=
  ∃ w, (s.ctx c).code[pc]? = some w ∧ assigned (wOp w.toNat) = true ∧ ¬ (wOp w.toNat = 0x70 ∧ 5 ≤ pOp w.toNat)

/-- A context goes on at an index after an instruction that has left the state `u`: its PC alone differs there, every other
context and everything else are those of `u`, and an instruction of a tenon is counted as issued (spec/18 Table 18.5). -/
def State.GoesTo (u : State) (c : Ctx) (pc : Nat) (t : State) : Prop :=
  t.ctx c = { u.ctx c with pc := pc, stalled := false } ∧ (∀ d, d ≠ c → t.ctx d = u.ctx d) ∧
  t = { u with dxn := { u.dxn with ctxs := t.dxn.ctxs }, cnt := (u.countIssued c).cnt }

/-- An instruction word issues and its context can go on at the next index. -/
def State.Runs (s : State) (c : Ctx) (w : Nat) (locks : List Lock) (long : Bool) : Prop :=
  s.Issues c w locks long ∧ s.Fetches c ((s.ctx c).pc + 1)

/-- After an instruction of a context whose effect is the state `u`: the context goes on at the next index. -/
def State.Steps (s : State) (c : Ctx) (u t : State) : Prop := u.GoesTo c ((s.ctx c).pc + 1) t

/-- After an instruction that issued and now waits: its context is stalled, and nothing else differs. -/
def State.Stalls (s : State) (c : Ctx) (t : State) : Prop := t = s.setCtx c { s.ctx c with stalled := true }

/-- After an instruction that raised a precise exception: the exception's effect and no other. -/
def State.Raises (s : State) (c : Ctx) (code : Nat) (info : Word) (t : State) : Prop :=
  t = s.except c code (s.ctx c).pc info

/-- A module takes part in a plane and takes a message of a kind: well formed, of that kind, from a module that its configuration
names, of its plane, and of no earlier TERM (spec/17 R439). -/
abbrev State.PlaneTakes (s : State) (kind : Nat) (m : Bytes) : Prop :=
  s.planeAlive = true ∧ planeWell m = true ∧ byteAt m 0 = kind ∧ s.planeNames (planeSender m) = true ∧
  beAt m 2 2 % 4096 = s.cfld R.PLN_CFG F.PLN_CFG_PLANE ∧ s.fld R.PLN_STATUS F.PLN_STATUS_TERM ≤ planeTerm m

/-- A worker or standby takes a message of the manager pair. -/
abbrev State.FromPair (s : State) (kind : Nat) (m : Bytes) : Prop :=
  s.PlaneTakes kind m ∧ s.follows = true ∧ s.pairIds.contains (planeSender m) = true

/-- The acting manager takes a message of a worker, or of the other member of its pair, which is 1023. -/
abbrev State.FromMember (s : State) (kind : Nat) (m : Bytes) (n : Nat) : Prop :=
  s.PlaneTakes kind m ∧ s.acting = true ∧
  (s.workerOf (planeSender m) = some n ∨ s.workerOf (planeSender m) = none ∧ planeSender m = s.otherMember ∧ n = 1023)

/-- What a worker or standby is once it has taken a message of the manager pair: the message counted, its sender accepted. -/
def State.heardPair (s : State) (port kind : Nat) (m : Bytes) : State :=
  (s.count (ctrPln port (2 + kind))).acceptManager port (planeSender m) (planeTerm m)

/-- What the acting manager is once it has taken a message of a worker: the message counted, its TERM taken. -/
def State.heardMember (s : State) (port kind : Nat) (m : Bytes) : State :=
  (s.count (ctrPln port (2 + kind))).setTerm (planeTerm m)

end Sys2Proof.Machine
end

