-- ==== Sys2Proof/WellFormed.lean ====
section
/-! DEFINITION. Which commands are well formed: the operands that stand for a field, a register or a message of fixed size have
that size. A command's operands come from outside the module, so a command that is not well formed is no event of the
hardware. -/

namespace Sys2Proof

/-- A read of one 64-byte line brings 64 bytes, fails, or is poisoned before its first byte (spec/03 R74, R83). -/
def lineRead : HostRead → Bool
  | .ok data => data.length == 64
  | .failed => true
  | .poisoned before => before.length == 0

/-- Whether a command's operands have the sizes that the spec fixes: one reading per laser source (spec/01 R36), one
temperature per bay (spec/14 R387), whole lines of 64 bytes (spec/03 R74), the lengths of Table 15.7's inputs (spec/15 R411), eight
pause times (spec/06 R186), aligned registers (spec/00 R13), and an access that is misaligned where the row is that of a
misaligned access (spec/00 R13, spec/03 R70). -/
def Instr.wellFormed : Instr → Bool
  | .powerUp => true
  | .bulkCharged => true
  | .modRstNRise _ => true
  | .perstNRelease => true
  | .perstNAssert => true
  | .powerDown => true
  | .pfailNLow => true
  | .bladePairLoss _ => true
  | .pairShareTimeout _ => true
  | .inputSagDetect => true
  | .conversionStop => true
  | .inputRecovered => true
  | .modRstNLow => true
  | .lasIntNFall scan => scan.length == 32
  | .laserPoll readings => readings.length == 32
  | .pairingCheckStart _ => true
  | .pairingCheckResult _ _ => true
  | .laserRampDone _ => true
  | .sensorSample sample => sample.temps.length == 53
  | .monitorWindowEnd _ _ => true
  | .supplyLoopEval _ => true
  | .sillPulse _ _ => true
  | .sillAcknowledge _ _ => true
  | .silInject _ _ _ => true
  | .injectionDone => true
  | .linkTrain _ _ => true
  | .linkRetrain _ _ => true
  | .linkDown => true
  | .d3hotEntry => true
  | .d0Return => true
  | .barMisalignedAccess _ _ _ _ _ => true
  | .pegBar2Set _ _ => true
  | .pegBar2Add _ _ => true
  | .hostMemRead _ _ => true
  | .hostMemWrite _ data _ => data.length == 64
  | .ringEnable _ => true
  | .ringDisable _ => true
  | .ringDrained _ => true
  | .cqEnable _ => true
  | .cqDisable _ => true
  | .watchedLineSnoop _ => true
  | .watchedLineData _ read => lineRead read
  | .watchPoll _ read => lineRead read
  | .descriptorArrival _ read => lineRead read
  | .descriptorAdmit _ => true
  | .descriptorNop _ => true
  | .descriptorRun _ => true
  | .descriptorAbort _ => true
  | .parkedWaitSatisfied _ => true
  | .descriptorWaitTimeout _ => true
  | .imageReadComplete _ _ _ => true
  | .workCompletion _ => true
  | .cqHeadptrReread _ _ => true
  | .cqStallTimeout _ => true
  | .ideFailure => true
  | .mctpMessage _ _ _ => true
  | .identify => true
  | .getEventRecords => true
  | .clearEventRecords _ => true
  | .getSupportedLogs => true
  | .getLog _ _ => true
  | .getFwInfo _ => true
  | .transferFw _ _ _ => true
  | .activateFw _ => true
  | .getTimestamp => true
  | .mailboxUnsupported _ => true
  | .getAttestation _ nonce => nonce.length == 32
  | .getIdentityCert _ => true
  | .provisionPsk _ _ ciphertext => ciphertext.length == 1568
  | .revokeSlot _ _ _ _ _ _ => true
  | .commitSvn _ _ => true
  | .extendMeasurement _ _ digest => digest.length == 48
  | .pskExchange _ _ _ _ => true
  | .getMeasurements _ _ => true
  | .keyProg _ _ _ _ _ _ => true
  | .kSetGo _ _ _ _ _ => true
  | .kSetStop _ _ _ _ _ => true
  | .pegAssign _ _ _ => true
  | .cacheFlush => true
  | .dxnAdd _ _ => true
  | .dxnSub _ _ => true
  | .dxnMul _ _ => true
  | .dxnMulh _ _ => true
  | .dxnDiv _ _ => true
  | .dxnRem _ _ => true
  | .dxnMin _ _ => true
  | .dxnMax _ _ => true
  | .dxnAnd _ _ => true
  | .dxnOr _ _ => true
  | .dxnXor _ _ => true
  | .dxnShl _ _ => true
  | .dxnShr _ _ => true
  | .dxnSra _ _ => true
  | .dxnFma _ _ => true
  | .dxnCmp _ _ => true
  | .dxnSel _ _ => true
  | .dxnCvt _ _ => true
  | .dxnMovi _ _ => true
  | .dxnMovhi _ _ => true
  | .dxnAddi _ _ => true
  | .dxnAndi _ _ => true
  | .dxnOri _ _ => true
  | .dxnXori _ _ => true
  | .dxnShli _ _ => true
  | .dxnShri _ _ => true
  | .dxnSrai _ _ => true
  | .dxnCmpi _ _ => true
  | .dxnPlog _ _ => true
  | .dxnPmov _ _ => true
  | .dxnVadd _ _ => true
  | .dxnVsub _ _ => true
  | .dxnVmul _ _ => true
  | .dxnVfma _ _ => true
  | .dxnVmin _ _ => true
  | .dxnVmax _ _ => true
  | .dxnVdiv _ _ => true
  | .dxnVsqrt _ _ => true
  | .dxnVand _ _ => true
  | .dxnVor _ _ => true
  | .dxnVxor _ _ => true
  | .dxnVshl _ _ => true
  | .dxnVshr _ _ => true
  | .dxnVsra _ _ => true
  | .dxnVcmp _ _ => true
  | .dxnVsel _ _ => true
  | .dxnVcvt _ _ => true
  | .dxnVbcast _ _ => true
  | .dxnVext _ _ => true
  | .dxnVins _ _ => true
  | .dxnVred _ _ => true
  | .dxnVrand _ _ => true
  | .dxnMma _ _ => true
  | .dxnAzero _ _ => true
  | .dxnAload _ _ => true
  | .dxnAcvt _ _ => true
  | .dxnTrd _ _ => true
  | .dxnTwr _ _ => true
  | .dxnArd _ _ => true
  | .dxnAwr _ _ => true
  | .dxnTtrans _ _ => true
  | .dxnTcvt _ _ => true
  | .dxnTzero _ _ => true
  | .dxnTgen _ _ => true
  | .dxnSend _ _ => true
  | .dxnRecv _ _ => true
  | .dxnSendm _ _ => true
  | .dxnRecvm _ _ => true
  | .dxnSpoll _ _ => true
  | .streamTileArrival _ _ _ _ => true
  | .dxnPegAdd _ _ => true
  | .dxnPegSet _ _ => true
  | .dxnPegWaitGe _ _ => true
  | .dxnPegWaitEq _ _ => true
  | .dxnPegArmTimeout _ _ => true
  | .pegWaitSatisfied _ => true
  | .pegWaitTimeout _ => true
  | .dxnBind _ _ => true
  | .dxnFarset _ _ => true
  | .dxnFence _ _ => true
  | .dxnPegrd _ _ => true
  | .farPegRequest _ => true
  | .farPegAck _ => true
  | .farPegRetry _ => true
  | .farPegEntryEvict _ _ _ _ => true
  | .dxnLd _ _ _ _ => true
  | .dxnLds _ _ _ _ => true
  | .dxnSt _ _ => true
  | .dxnVld _ _ => true
  | .dxnVst _ _ => true
  | .dxnTld _ _ => true
  | .dxnTst _ _ => true
  | .dxnMove _ _ => true
  | .dxnFill _ _ => true
  | .dxnXmove _ _ => true
  | .dxnTdma _ _ => true
  | .longOpComplete _ _ _ => true
  | .dxnBr _ _ => true
  | .dxnJr _ _ => true
  | .dxnDbnz _ _ => true
  | .dxnEnd _ _ => true
  | .contextEnd _ => true
  | .runLimitExpiry _ => true
  | .dxnCacc _ _ _ => true
  | .dxnCemit _ _ => true
  | .dxnCgath _ _ => true
  | .dxnCapply _ _ _ => true
  | .dxnCbar _ _ => true
  | .dxnCring _ _ => true
  | .dxnCabort _ _ => true
  | .dxnCstat _ _ => true
  | .dxnTstart _ _ _ _ => true
  | .dxnBstart _ _ _ _ => true
  | .dxnTruss _ _ _ => true
  | .dxnUntruss _ _ => true
  | .dxnSeglock _ _ => true
  | .dxnSegpub _ _ => true
  | .dxnCommit _ _ => true
  | .dxnEflip _ _ => true
  | .dxnPassign _ _ => true
  | .dxnTstop _ _ => true
  | .dxnNop _ _ => true
  | .dxnTrap _ _ => true
  | .dxnFflags _ _ => true
  | .dxnRngset _ _ => true
  | .dxnVersion _ _ => true
  | .dxnTime _ _ => true
  | .dxnWhoami _ _ => true
  | .dxnModid _ _ => true
  | .portEnable _ => true
  | .portDisable _ => true
  | .pcsLock _ => true
  | .pcsLoss _ _ => true
  | .lldpReceive _ _ => true
  | .wlxResend _ => true
  | .lldpPeriodic _ => true
  | .discoveryTimeout _ => true
  | .lldpTtlExpiry _ => true
  | .creditFrameReceive _ _ => true
  | .creditFrameSend _ => true
  | .keepaliveSend _ => true
  | .keepaliveTimeout _ => true
  | .tailAbortReceive _ _ => true
  | .pfcFrameReceive _ _ quanta => quanta.length == 8
  | .pfcPauseExpiry _ _ => true
  | .pfcXoffResend _ _ => true
  | .pfcStorm _ _ => true
  | .pfcWatchdogEnd _ _ => true
  | .holdExpiry _ => true
  | .laneReportReceive _ _ => true
  | .laneReportSend _ _ => true
  | .frameReceive _ _ _ _ => true
  | .internalFrame _ _ => true
  | .transferQueueRelease _ _ => true
  | .meshCellArrival _ _ => true
  | .reseqTimeout _ => true
  | .meshCellLost _ _ => true
  | .frameDequeue _ _ _ => true
  | .stomp _ _ _ => true
  | .auditPass strays => (strays.all fun c => decide (c < 1572864)) && decide strays.Nodup
  | .sflowDatagramSend _ => true
  | .epochFlip => true
  | .epochRetire => true
  | .trieRebuilt _ _ _ => true
  | .shadowCompareRow _ _ _ => true
  | .shadowRecheck _ _ _ => true
  | .macAgeExpiry _ _ => true
  | .contribution _ _ => true
  | .retransmitRequest _ _ => true
  | .abortNotice _ => true
  | .barrierArrival _ => true
  | .stepDone _ => true
  | .abortComplete _ _ => true
  | .collectiveTimeout _ => true
  | .stepBudgetExpiry _ => true
  | .applyReportTimeout _ _ => true
  | .retentionRelease _ _ _ _ => true
  | .abortCodeExpiry _ _ _ => true
  | .channelTileReceive _ _ _ => true
  | .basinEnable _ => true
  | .basinDisable _ => true
  | .basinAbort _ _ => true
  | .tenonAssign _ _ _ => true
  | .dmaStreamTile _ _ _ => true
  | .lockLoopSample _ _ _ => true
  | .ringLockAttemptDone _ _ => true
  | .orderCountDone _ _ => true
  | .setPointTrim _ _ => true
  | .relock _ => true
  | .optMeasure _ _ => true
  | .optMeasureDone _ _ => true
  | .laneClear _ _ => true
  | .circuitGrant _ _ _ _ => true
  | .circuitRelease _ => true
  | .circuitReleaseAll _ => true
  | .splFlip => true
  | .spillwayFlipInstant => true
  | .slotBoundary => true
  | .gateEvaluate => true
  | .gateRecoverExpiry => true
  | .fallbackBoundary => true
  | .spillwayEnable => true
  | .spillwayDisable => true
  | .elementCheck _ _ _ _ => true
  | .circuitDark _ _ => true
  | .ptpSync _ _ _ => true
  | .ptpFollowUp _ _ => true
  | .ptpDelayReq _ _ _ => true
  | .ptpDelayResp _ _ => true
  | .ptpAnnounce _ _ => true
  | .ptpTransmitInterval _ _ _ => true
  | .announceTimeout _ => true
  | .syncLossTimeout _ => true
  | .ppsInEdge => true
  | .ppsMissingTimeout => true
  | .ppsOutSecond => true
  | .timeSet _ => true
  | .scrubRead _ _ => true
  | .alertRetry _ _ _ => true
  | .areasEnable => true
  | .bayDwellExpiry _ => true
  | .bayWake _ => true
  | .bayWakeDone _ _ _ => true
  | .bayTolWrite _ _ => true
  | .railMonitorTrip _ => true
  | .railMonitorRelease _ => true
  | .romSelfTestDone => true
  | .bootImageCheck => true
  | .imageKeyWrite _ _ _ => true
  | .secLock => true
  | .wellheadPhaseDone => true
  | .corePhaseDone => true
  | .hbmTrainingDone _ _ => true
  | .ddrTrainingDone _ _ _ => true
  | .opticsPhaseDone => true
  | .fwdEnable => true
  | .fwdDisable => true
  | .fwdDrained => true
  | .enableCheckDone => true
  | .cfgCommit _ => true
  | .commitCheckDone _ => true
  | .cfgDiscard _ => true
  | .registerWrite offset _ => offset.toNat % 8 == 0
  | .glbResetModule => true
  | .moduleResetEnd _ => true
  | .glbResetWellhead => true
  | .wellheadWatchdog => true
  | .wellheadRestartDone => true
  | .heartbeat _ _ => true
  | .health _ _ => true
  | .prepare _ _ => true
  | .ready _ _ => true
  | .planeCommit _ _ => true
  | .planeAbort _ _ => true
  | .done _ _ => true
  | .circuit _ _ => true
  | .circuitAnswer _ _ => true
  | .planeFence _ _ => true
  | .planeUnfence _ _ => true
  | .ack _ _ => true
  | .event _ _ => true
  | .sync _ _ => true
  | .heartbeatSend => true
  | .syncSend => true
  | .managerSilenceTimeout => true
  | .workerSilenceTimeout _ => true
  | .pathSilenceTimeout _ _ => true
  | .listenPeriodEnd => true
  | .promote _ => true
  | .planeFlip _ _ => true
  | .prepareResend => true
  | .prepareDeadline => true
  | .commitResend => true
  | .flipDoneDeadline => true
  | .fenceRequest _ _ => true
  | .fenceConfirm _ _ => true
  | .fenceResend _ => true
  | .loadWindow _ => true
  | .ledgerCommitRequest => true
  | .ledgerPeriodicCommit => true
  | .ledgerCommitDone _ => true
  | .lifeSecond => true
  | .lifeHour => true
  | .counterReaderVisit _ _ => true
  | .snapNow _ => true
  | .snapAtInstant _ _ => true
  | .snapPeriodic _ _ _ => true
  | .snapStop => true
  | .snapshotFreeze => true
  | .snapshotPublish => true
  | .counterClear _ => true
  | .counterCopy _ _ _ => true
  | .counterCopyDone => true
  | .channelRetrained _ _ _ => true
  | .windowOpen _ => true
  | .rcFieldRead offset => offset.toNat % 8 == 0
  | .timNowCapture => true

end Sys2Proof
end

