-- ==== Sys2Proof/Certificates/Slice0/Obligations.lean ====
section
/-! DEFINITION. The statements about the module, taken from the numbered rules of spec/. Each says what a command or the whole
machine does; `Answers` makes a command's completion part of the conclusion. -/

open Sys2Proof Sys2Proof.Machine

/-- For every command and state, a step of the state with that command at the front of its queue is the command on the state
with the queue's rest. -/
def Obligations.StepRunsFront : Prop :=
  ∀ (c : Instr) (rest : List Instr) (s : State),
    step { s with pending := c :: rest } = exec c { s with pending := rest }

/-- On an empty queue a step is one tick: it changes nothing before the always-on rails have power, and afterwards at most the
time base, its carry, its slew, the oscillator's count and PPS_OUT; the oscillator counts 2 ns. That an empty queue ticks is the
model's choice (log entry 4). -/
def Obligations.StepOnEmptyQueueTicks : Prop :=
  ∀ s : State, s.pending = [] → step s = .next s.tick ∧ s.tick.pending = [] ∧
    (s.board.place = .off ∨ s.board.place = .charging → s.tick = s) ∧
    (s.board.place ≠ .off → s.board.place ≠ .charging → s.tick.tim.osc = s.tim.osc + 2 ∧ ∃ b c l p, s.tick =
      { s with tim := { s.tim with base := b, carry := c, slew := l, osc := s.tim.osc + 2 }, board := { s.board with ppsOut := p } })

/-- No command of the block stops it: whatever the state and the operands, a command answers a next state. The spec gives the
block no behaviour that stops it. -/
def Obligations.EveryCommandCompletes : Prop :=
  ∀ (i : Instr) (s : State), Answers (exec i s) fun _ => True

/-- The queue of waiting commands is the sender's: whatever a command does, module resets included, the queue is as before. -/
def Obligations.ExecKeepsQueue : Prop :=
  ∀ (i : Instr) (s t : State), exec i s = .next t → t.pending = s.pending

/-- The two stores that stand for an address space, the registers of BAR0 and the bytes of device memory, list each address
once, in rising order, and never at the value that an unlisted address reads as. Every step from every such state, whatever
command runs, leads to such a state: so equal contents are equal data, and what is written reads back. -/
def Obligations.StepKeepsCanonical : Prop :=
  ∀ s t : State, s.Canonical → step s = .next t → t.Canonical

/-- At reset both stores are canonical, no command waits, the module is unpowered, every register reads its reset value, memory
reads zero and every context is free. The values for which the spec states none are the model's choice (log entry 1). -/
def Obligations.ResetCanonical : Prop :=
  State.reset.Canonical ∧ State.reset.pending = [] ∧ State.reset.board.place = .off ∧
  (∀ off, State.reset.rd off = resetWord off) ∧ (∀ a, State.reset.byte a = 0) ∧ (∀ c, State.reset.ctx c = {})

/-- The events of a power sequence, each from the place where it acts: power up and input recovery start charging; the end of
charging leaves a power-on reset with CAUSE 1, and where MOD_RST_N is high already its effective rise follows; the rise of
MOD_RST_N samples the straps at t1, and before it only shows the pin's level; PWR_EN falling stops the data path and starts a
Ledger commit; the end of conversion leaves the module off. -/
def Obligations.PowerSequence : Prop :=
  (∀ s : State, s.board.place = .off → s.board.tripLatch = false →
    exec .powerUp s = .next { s with board.place := .charging, board.pairA := true, board.pairB := true, board.pwrEn := true }) ∧
  (∀ s : State, s.board.place = .off → s.board.tripLatch = false → exec .inputRecovered s =
    .next { s with board.place := .charging, board.pairA := true, board.pairB := true, board.pwrEn := true }) ∧
  (∀ s : State, s.board.place = .charging → Answers (exec .bulkCharged s) fun t =>
    t.board.place = (if s.board.modRstN then .running else .alwaysOn) ∧ t.board.pwrGood = true ∧ t.board.pfailN = true ∧
    t.fld R.GLB_BOOT F.GLB_BOOT_CAUSE = 1 ∧ t.fld R.GLB_BOOT F.GLB_BOOT_MODULE_RESETS = 0 ∧
    (∀ o, o ≠ R.GLB_BOOT → t.rd o = resetWord o) ∧ t.mem = {} ∧ t.dxn = {} ∧ t.ldg.gapDue = true ∧
    t.cfg.t1Passed = s.board.modRstN) ∧
  (∀ (straps : BitVec 6) (s : State), s.regsWf = true → s.board.place = .alwaysOn →
    Answers (exec (.modRstNRise straps) s) fun t =>
      t.board = { s.board with place := .running, modRstN := true, straps := straps } ∧
      t.fld R.GLB_BOOT F.GLB_BOOT_STRAPS = straps.toNat ∧ s.RegsBut t [R.GLB_BOOT] ∧
      t = { s with regs := t.regs, board := t.board, cfg := { s.cfg with t1Passed := true } }) ∧
  (∀ (straps : BitVec 6) (s : State), s.board.place ≠ .alwaysOn →
    exec (.modRstNRise straps) s = .next { s with board.modRstN := true, board.straps := straps }) ∧
  (∀ s : State, s.board.place = .running → Answers (exec .powerDown s) fun t =>
    t.board.place = .powerDown ∧ t.board.pwrEn = false ∧ t.ldg.busy = true ∧ t.dxn = {} ∧ t.host = {} ∧ t.mem = s.mem) ∧
  (∀ s : State, s.board.place = .powerDown ∨ s.board.place = .powerFail → Answers (exec .conversionStop s) fun t =>
    t.board.place = .off ∧ t.board.pwrGood = false ∧ t.ldg.busy = false ∧
    t = { s with board := t.board, ldg := { s.ldg with busy := false, again := false, fromPfail := false } })

/-- The module starts with both blade pairs above the threshold; while it runs, the loss of either pair, and a share of pair A
below 40 % or above 60 %, is a power-fail warning, as a sag of the input and PFAIL_N are. At the boundary values 40 and 60 the
share is no warning. A warning stops the data path, lowers PWR_GOOD and commits the Ledger once. -/
def Obligations.PowerFail : Prop :=
  (∀ (pair : Fin 2) (s : State), exec (.bladePairLoss pair) s =
    .next (if pair = 0 then { s with board.pairA := false } else { s with board.pairB := false }).powerFail) ∧
  (∀ (share : BitVec 8) (s : State), share.toNat < 40 ∨ 60 < share.toNat → exec (.pairShareTimeout share) s =
    .next (s.setFld R.PWR_STATUS F.PWR_STATUS_SHARE_A share.toNat).powerFail) ∧
  (∀ (share : BitVec 8) (s : State), 40 ≤ share.toNat → share.toNat ≤ 60 → exec (.pairShareTimeout share) s = .next s) ∧
  (∀ s : State, s.board.place = .off → s.board.tripLatch = false → Answers (exec .powerUp s) fun t =>
    t.board.place = .charging ∧ t.board.pairA = true ∧ t.board.pairB = true) ∧
  (∀ s : State, s.board.place = .alwaysOn ∨ s.board.place = .running ∨ s.board.place = .moduleReset →
    s.powerFail.board.place = .powerFail ∧ s.powerFail.board.pwrGood = false ∧ s.powerFail.ldg.busy = true ∧
    s.powerFail.ldg.fromPfail = true ∧ s.powerFail.dxn = {} ∧ s.powerFail.mem = s.mem) ∧
  (∀ s : State, exec .inputSagDetect s = .next s.powerFail) ∧
  (∀ s : State, s.board.pwrGood = true → exec .pfailNLow s = .next { s with board.pfailN := false }.powerFail)

/-- PERST_N and a lost link reset the host interface alone: every register outside its block, memory, ports, forwarding,
spillway, Basin engines and lasers stay. A module reset leaves every register but GLB_BOOT at its reset value, memory zero and
no context; its end takes the straps. A Wellhead restart changes no register but GLB_BOOT and ends a firmware transfer. -/
def Obligations.ConnectorResets : Prop :=
  (∀ s : State, exec .perstNRelease s = .next { s with board.perstN := true }) ∧
  (∀ s : State, s.board.place = .running → Answers (exec .perstNAssert s) fun t =>
    t.board.perstN = false ∧ t.host.rings = [] ∧ t.host.d3hot = false ∧ t.sec.sessions = [] ∧
    (∀ o, o < 0x10000 ∨ 0x20000 ≤ o → t.rd o = s.rd o) ∧ t.mem = s.mem ∧ t.swc = s.swc ∧ t.fwd = s.fwd ∧ t.spl = s.spl ∧
    t.bsn = s.bsn ∧ t.ports = s.ports ∧ t.lasers = s.lasers ∧ t.dxn = s.dxn) ∧
  (∀ s : State, s.board.place ≠ .running → exec .perstNAssert s = .next { s with board.perstN := false }) ∧
  (∀ s : State, Answers (exec .linkDown s) fun t =>
    t.host.rings = [] ∧ (∀ o, o < 0x10000 ∨ 0x20000 ≤ o → t.rd o = s.rd o) ∧ t.board = s.board ∧ t.mem = s.mem) ∧
  (∀ s : State, s.board.place = .running → Answers (exec .modRstNLow s) fun t =>
    t.board.place = .moduleReset ∧ t.board.modRstN = false ∧ t.fld R.GLB_BOOT F.GLB_BOOT_CAUSE = 2 ∧
    (∀ o, o ≠ R.GLB_BOOT → t.rd o = resetWord o) ∧ t.mem = {} ∧ t.dxn = {}) ∧
  (∀ s : State, s.board.place ≠ .running → exec .modRstNLow s = .next { s with board.modRstN := false }) ∧
  (∀ s : State, s.board.place = .running → Answers (exec .glbResetModule s) fun t =>
    t.board.place = .moduleReset ∧ t.fld R.GLB_BOOT F.GLB_BOOT_CAUSE = 3 ∧
    t.fld R.GLB_BOOT F.GLB_BOOT_MODULE_RESETS = min 0xFFFF (s.fld R.GLB_BOOT F.GLB_BOOT_MODULE_RESETS + 1) ∧
    (∀ o, o ≠ R.GLB_BOOT → t.rd o = resetWord o) ∧ t.mem = {} ∧ t.dxn = {}) ∧
  (∀ (straps : BitVec 6) (s : State), s.regsWf = true → s.board.place = .moduleReset → s.board.modRstN = true →
    Answers (exec (.moduleResetEnd straps) s) fun t => t.board.place = .running ∧
      t.board.straps = (if s.fld R.GLB_BOOT F.GLB_BOOT_CAUSE = 2 then s.board.straps else straps) ∧
      t.fld R.GLB_BOOT F.GLB_BOOT_STRAPS = t.board.straps.toNat ∧ s.RegsBut t [R.GLB_BOOT] ∧
      t = { s with regs := t.regs, board := t.board, cfg := { s.cfg with t1Passed := true } }) ∧
  (∀ s : State, s.regsWf = true → s.cfg.wellheadDown = false → Answers (exec .glbResetWellhead s) fun t =>
    t.cfg = { s.cfg with wellheadDown := true } ∧ t.sec = { s.sec with transfer := none } ∧ s.RegsBut t [R.GLB_BOOT] ∧
    t.fld R.GLB_BOOT F.GLB_BOOT_WELLHEAD_RESTARTS = min (2 ^ F.GLB_BOOT_WELLHEAD_RESTARTS.w - 1)
      (s.fld R.GLB_BOOT F.GLB_BOOT_WELLHEAD_RESTARTS + 1) ∧
    t = { s with regs := t.regs, cfg := t.cfg, sec := t.sec }) ∧
  (∀ s : State, s.regsWf = true → s.cfg.wellheadDown = false → Answers (exec .wellheadWatchdog s) fun t =>
    t.cfg = { s.cfg with wellheadDown := true } ∧ t.sec = { s.sec with transfer := none } ∧ s.RegsBut t [R.GLB_BOOT] ∧
    t.fld R.GLB_BOOT F.GLB_BOOT_WELLHEAD_RESTARTS = min (2 ^ F.GLB_BOOT_WELLHEAD_RESTARTS.w - 1)
      (s.fld R.GLB_BOOT F.GLB_BOOT_WELLHEAD_RESTARTS + 1) ∧
    t = { s with regs := t.regs, cfg := t.cfg, sec := t.sec }) ∧
  (∀ s : State, 3 ≤ s.phase → s.phase ≤ 5 → exec .wellheadRestartDone s = .next { s with cfg.wellheadDown := false })

/-- A measurement register becomes the hash of its bytes and the digest, and nothing else changes; the ROM item is measured into
register 0. When no region is bootable the phase is FAILED with BOOT_FAILED; otherwise SEC_FW says what has booted, RECOVERY
follows the region, no activation stays pending, and the phase is WELLHEAD. -/
def Obligations.RootOfTrust : Prop :=
  (∀ (n : Nat) (digest : Bytes) (s : State), s.regsWf = true → n < 8 →
    (∀ w, w < 6 → (s.extendDigest n digest).rd (R.SEC_MEAS n w) =
      (Config.sha384 (s.measure n ++ digest)).extractLsb' (64 * w) 64) ∧
    s.RegsBut (s.extendDigest n digest) ((List.range 6).map (R.SEC_MEAS n)) ∧
    s.extendDigest n digest = { s with regs := (s.extendDigest n digest).regs }) ∧
  (∀ s : State, s.board.pwrGood = true → s.phase = 1 → s.cfg.romDone = false →
    exec .romSelfTestDone s = .next ({ s with cfg.romDone := true }.extend 0 s.romItem).secStatus) ∧
  (∀ s : State, s.regsWf = true → s.cfg.romDone = true → s.cfg.t1Passed = true → s.cfg.imageChecked = false → s.phase = 1 →
    Answers (exec .bootImageCheck s) fun t => match s.bootChoice with
      | none => t.phase = 0xF ∧ t.fld R.SEC_STATUS F.SEC_STATUS_BOOT_FAILED = 1 ∧
        s.RegsBut t (R.SEC_FW :: R.SEC_STATUS :: R.GLB_BOOT :: (List.range 6).map (R.SEC_MEAS 0)) ∧
        t = { s with regs := t.regs, cfg := { s.cfg with imageChecked := true } }
      | some (r, booted) => t.phase = 2 ∧ t.fld R.SEC_FW F.SEC_FW_BOOTED = booted ∧
        t.fld R.SEC_FW F.SEC_FW_SVN = fwSvn (s.region r) ∧ t.fld R.SEC_FW F.SEC_FW_VERSION = fwVersion (s.region r) ∧
        t.recoveryRuns = (r == 3) ∧ t.control.pending = none ∧
        (∀ p, s.control.pending = some p → p = r → t.control.active = p) ∧ (s.control.pending = none → t.sec = s.sec) ∧
        s.RegsBut t (R.SEC_FW :: R.GLB_STATUS :: R.GLB_BOOT ::
          ((List.range 6).map (R.SEC_MEAS 0) ++ (List.range 6).map (R.SEC_MEAS 1))) ∧
        t = { s with regs := t.regs, sec := t.sec, cfg := { s.cfg with imageChecked := true } })

/-- The Wellhead phase reads the Ledger, sets the signature index to its mark and shows the term; CORE sets the four VCORE rails
to 0.75 V; the HBM4, DDR5 and optics phases set their READY bits with what trained, and no contents of memory change; READY
begins once all four phases after CORE have ended. A population that fails a check of R362 leaves its reason and no DIMM in use.
-/
def Obligations.StartupPhases : Prop :=
  (∀ s : State, s.regsWf = true → s.phase = 2 → Answers (exec .wellheadPhaseDone s) fun t =>
    t.phase = 3 ∧ t.cfg = { s.cfg with wellheadDown := false } ∧ t.fld R.PLN_STATUS F.PLN_STATUS_TERM = s.ldg.term.toNat ∧
    ((s.ldg.controlOkA || s.ldg.controlOkB) = true → t.ldg.sigNext = s.ldg.sigMark) ∧ t.ldg.sigMark ≤ t.ldg.sigNext ∧
    t = { s with regs := t.regs, cfg := t.cfg, ldg := t.ldg, sec := t.sec, out := t.out, cnt := t.cnt }) ∧
  (∀ s : State, s.regsWf = true → s.phase = 3 → Answers (exec .corePhaseDone s) fun t =>
    t.phase = 4 ∧ (∀ q, q < 4 → t.fld (R.PWR_VCORE q) F.PWR_VCORE_SETPOINT = 7500) ∧
    s.RegsBut t (R.GLB_BOOT :: (List.range 4).map R.PWR_VCORE) ∧ t = { s with regs := t.regs }) ∧
  (∀ (trained : BitVec 8) (spares : List Bool) (s : State), s.regsWf = true → 4 ≤ s.phase → s.phase ≠ 0xF →
    s.flag R.GLB_STATUS F.GLB_STATUS_HBM_READY = false → Answers (exec (.hbmTrainingDone trained spares) s) fun t =>
      t.flag R.GLB_STATUS F.GLB_STATUS_HBM_READY = true ∧ t.fld R.MEM_STATUS F.MEM_STATUS_HBM_OK = trained.toNat ∧
      (∀ m, m < 8 → t.fld (R.MEM_HBM_STATUS m) F.MEM_HBM_STATUS_STATE = (if trained.getLsbD m then 1 else 2) ∧
        t.fld (R.MEM_HBM_STATUS m) F.MEM_HBM_STATUS_SIZE_GIB = 80) ∧ t.mem = s.mem ∧ t.dxn = s.dxn) ∧
  (∀ (dimms : List DimmInfo) (trained : BitVec 8) (spares : List Bool) (s : State), s.regsWf = true → 4 ≤ s.phase →
    s.phase ≠ 0xF → s.flag R.GLB_STATUS F.GLB_STATUS_DDR_READY = false →
    Answers (exec (.ddrTrainingDone dimms trained spares) s) fun t =>
      t.flag R.GLB_STATUS F.GLB_STATUS_DDR_READY = true ∧ t.mem.bytes = s.mem.bytes ∧
      (dimms = [] → s.RegsBut t [R.GLB_STATUS, R.GLB_BOOT] ∧ t.mem = s.mem) ∧
      (dimms ≠ [] → dimmReason dimms ≠ 0 → t.mem = s.mem ∧
        t.fld R.MEM_STATUS F.MEM_STATUS_DDR_REASON = dimmReason dimms ∧
        s.RegsBut t [R.GLB_STATUS, R.GLB_BOOT, R.MEM_STATUS]) ∧
      (dimms ≠ [] → dimmReason dimms = 0 → (dimmChannels dimms).all trained.getLsbD = true → t.mem.dimms = dimms)) ∧
  (∀ s : State, s.regsWf = true → 4 ≤ s.phase → s.phase ≠ 0xF → Answers (exec .opticsPhaseDone s) fun t =>
    t.flag R.GLB_STATUS F.GLB_STATUS_OPTICS_READY = true ∧ t.fld R.GLB_STATUS F.GLB_STATUS_ENGINES_LOCKED =
      ((List.range 32).filter fun e => s.fld (R.OPT_STATUS e) F.OPT_STATUS_STATE == 2).length ∧
    s.RegsBut t [R.GLB_STATUS, R.GLB_BOOT] ∧ t = { s with regs := t.regs }) ∧
  (∀ s : State, s.phaseReady = (if s.phase = 4 ∧ s.flag R.GLB_STATUS F.GLB_STATUS_HBM_READY ∧
    s.flag R.GLB_STATUS F.GLB_STATUS_DDR_READY ∧ s.flag R.GLB_STATUS F.GLB_STATUS_OPTICS_READY ∧
    s.flag R.GLB_STATUS F.GLB_STATUS_HOST_READY then s.toPhase 5 else s))

/-- A link that trains is up at a rate and width of the permitted order, RETRAIN reads 0 when the training ends, and no other
register changes; one that finds no combination has tried them all: at start-up only RETRAIN is cleared, in a retraining the
host interface is reset. -/
def Obligations.LinkTraining : Prop :=
  (∀ (trains : BitVec 6) (lopt : Bool) (s : State), s.board.perstN = true → s.board.place = .running → 4 ≤ s.phase →
    s.phase ≠ 0xF → s.flag R.HIF_LINK_STATUS F.HIF_LINK_STATUS_UP = false →
    exec (.linkTrain trains lopt) s = .next (match (s.setFld R.HIF_LINK_CTRL F.HIF_LINK_CTRL_RETRAIN 0).train trains lopt with
      | none => s.setFld R.HIF_LINK_CTRL F.HIF_LINK_CTRL_RETRAIN 0
      | some u => (u.setFld R.GLB_STATUS F.GLB_STATUS_HOST_READY 1).phaseReady.wakeKept)) ∧
  (∀ (trains : BitVec 6) (lopt : Bool) (s : State), s.board.perstN = true → s.board.place = .running →
    s.flag R.HIF_LINK_STATUS F.HIF_LINK_STATUS_UP = true →
    exec (.linkRetrain trains lopt) s =
      let u := ((s.incSat R.HIF_LINK_STATUS F.HIF_LINK_STATUS_RETRAINS).count (ctrHif 15)).setFld
        R.HIF_LINK_CTRL F.HIF_LINK_CTRL_RETRAIN 0
      .next ((u.train trains lopt).getD u.hostReset)) ∧
  (∀ (trains : BitVec 6) (lopt : Bool) (s t : State), s.regsWf = true → s.train trains lopt = some t →
    t.flag R.HIF_LINK_STATUS F.HIF_LINK_STATUS_UP = true ∧ s.RegsBut t [R.HIF_LINK_STATUS] ∧ t = { s with regs := t.regs } ∧
    ∃ x16 rate, (x16, rate) ∈ trainOrder s.linkLimits.1 s.linkLimits.2 ∧ trains.getLsbD (3 * b2n x16 + rate) = true ∧
      t.fld R.HIF_LINK_STATUS F.HIF_LINK_STATUS_RATE = rate + 1 ∧
      t.fld R.HIF_LINK_STATUS F.HIF_LINK_STATUS_WIDTH = 1 + b2n x16) ∧
  (∀ (trains : BitVec 6) (lopt : Bool) (s : State), s.train trains lopt = none →
    ∀ c ∈ trainOrder s.linkLimits.1 s.linkLimits.2, trains.getLsbD (3 * b2n c.1 + c.2) = false)

/-- A scan that finds every source as it was changes only LAS_INT_N and what passes on LAS_I3C; a new source is unpaired and
off. A poll takes the readings of every enabled source. A pairing check enables one source at a time and passes when light
appears at its own engine alone; light at one other engine is reported and bars both sources. At the end of a ramp the rings of
its engine start. Each access goes through the multiplexer channel of its source alone. -/
def Obligations.LaserSources : Prop :=
  (∀ (e : Nat) (s : State), e < 32 → swf (fun _ => 0) s.board.lasMux = true →
    (∀ m, m < 4 → sget 0 (s.lasSelect e).board.lasMux (0x70 + m) = (if m = e / 8 then BitVec.ofNat 8 (2 ^ (e % 8)) else 0)) ∧
    (s.lasRead e).out.las = (s.lasSelect e).out.las ++ [.cmisRead 0x50] ∧
    (s.lasRead e).board = (s.lasSelect e).board) ∧
  (∀ (scan : List LaserScan) (s : State), s.board.place = .running →
    (∀ e, e < 32 → ∀ x ∈ scan[e]?, x.present = (s.laser e).present ∧ x.fault = false ∧
      (x.present = true → x.serial = (s.laser e).serial)) →
    Answers (exec (.lasIntNFall scan) s) fun t =>
      t = { s with board := { s.board with lasIntN := false, lasMux := t.board.lasMux }, out := { s.out with las := t.out.las } }) ∧
  (∀ (e : Fin 32) (x : LaserScan) (s : State), s.regsWf = true → x.present = true → x.fault = false → (s.laser e).present = false →
    (s.scanOne e x).laser e = { s.laser e with present := true, serial := x.serial, paired := false, level := .off } ∧
    (∀ d, d ≠ e.val → (s.scanOne e x).laser d = s.laser d) ∧ (s.scanOne e x).flag (R.OPT_STATUS e) F.OPT_STATUS_PAIRED = false ∧
    s.RegsBut (s.scanOne e x) [R.OPT_STATUS e]) ∧
  (∀ (readings : List LaserReading) (s : State), swf (fun _ => {}) s.lasers = true → s.board.place = .running →
    Answers (exec (.laserPoll readings) s) fun t =>
      (∀ e, e < 32 → ∀ x ∈ readings[e]?, (s.laser e).level ≠ .off →
        t.laser e = { s.laser e with temp := x.temp, bias := x.bias, power := x.power, flags := x.flags }) ∧
      (∀ e, (s.laser e).level = .off ∨ readings[e]? = none → t.laser e = s.laser e) ∧
      t = { s with lasers := t.lasers, ldg := { s.ldg with laserHour := t.ldg.laserHour }, out := { s.out with las := t.out.las },
                   board := { s.board with lasMux := t.board.lasMux } }) ∧
  (∀ (e : Fin 32) (s : State), s.board.place = .running → 4 ≤ s.phase → s.phase ≠ 0xF → (s.laser e).level = .off →
    (s.laser e).paired = false → (s.laser e).barred = false → s.lasers.any (fun x => x.2.level == .checking) = false →
    exec (.pairingCheckStart e) s =
      .next (((s.setLaser e { s.laser e with present := true, level := .checking }).lasSet e .checking).wakeBay (opticBay e))) ∧
  (∀ (e : Fin 32) (light : BitVec 32) (s : State), s.regsWf = true → swf (fun _ => {}) s.lasers = true → s.board.place = .running →
    (s.laser e).level = .checking → Answers (exec (.pairingCheckResult e light) s) fun t =>
      (light = BitVec.ofNat 32 (2 ^ e.val) →
        (t.laser e).level = .ramping ∧ (t.laser e).paired = true ∧ t.flag (R.OPT_STATUS e) F.OPT_STATUS_PAIRED = true ∧
        s.RegsBut t [R.OPT_STATUS e] ∧ ∀ d, d ≠ e.val → t.laser d = s.laser d) ∧
      (light ≠ BitVec.ofNat 32 (2 ^ e.val) → (t.laser e).level = .off ∧ (t.laser e).paired = (s.laser e).paired ∧ t.regs = s.regs) ∧
      (∀ r, r < 32 → r ≠ e.val → light = BitVec.ofNat 32 (2 ^ r) →
        (t.laser e).report = some (Fin.ofNat 32 r) ∧ (t.laser e).barred = true ∧ (t.laser r).barred = true)) ∧
  (∀ (e : Fin 32) (s : State), s.board.place = .running → (s.laser e).level = .ramping → exec (.laserRampDone e) s =
    .next (((s.setLaser e { s.laser e with level := .setpoint }).lasSet e .setpoint).ringsStart e))

/-- An idle bay without keep condition enters the next deeper state up to its target and no further; a resting bay that is woken
is in transition and remembers what it left; a bay woken in time is active with its duration in LAST_EXIT, the wake counted, and
what waited for it goes on; a rail monitor that trips holds the bay in reset, records it and loses its state, and its release
makes the bay active. -/
def Obligations.BayDescentAndWaking : Prop :=
  (∀ (n : Fin 50) (s : State), s.regsWf = true → s.bayState n < s.bayTarget n → s.bayKept n = false → s.bayState n < 2 →
    Answers (exec (.bayDwellExpiry n) s) fun t => t.bayState n = s.bayState n + 1 ∧ s.RegsBut t [R.PWR_BAY_STATUS n] ∧
      t = { s with regs := t.regs, cnt := { s.cnt with counters := t.cnt.counters } }) ∧
  (∀ (n : Fin 50) (s : State), s.bayState n < s.bayTarget n → s.bayKept n = false →
    exec (.bayDwellExpiry n) s = .next (s.bayEnter n (s.bayState n + 1))) ∧
  (∀ (n : Fin 50) (s : State), s.bayTarget n ≤ s.bayState n ∨ s.bayKept n = true → exec (.bayDwellExpiry n) s = .next s) ∧
  (∀ (n : Fin 50) (s : State), s.regsWf = true → 1 ≤ s.bayState n → s.bayState n ≤ 3 → Answers (exec (.bayWake n) s) fun t =>
    t.bayState n = 4 ∧ t.bayHeld n = s.bayState n ∧ t.pwr.waking = s.pwr.waking ++ [n.val] ∧ s.RegsBut t [R.PWR_BAY_STATUS n] ∧
    t = { s with regs := t.regs, pwr := { s.pwr with saved := t.pwr.saved, waking := t.pwr.waking } }) ∧
  (∀ (n : Fin 50) (s : State), s.bayState n = 0 ∨ 4 ≤ s.bayState n → exec (.bayWake n) s = .next s) ∧
  (∀ (n : Fin 50) (duration : Nat) (restored : Bool) (s : State), s.pwr.waking.contains n.val = true → s.bayState n = 4 →
    n.val < 36 ∨ 44 ≤ n.val → duration ≤ exitMax (sget 0 s.pwr.saved n.val) → restored = true →
    exec (.bayWakeDone n duration restored) s =
      let u : State := { s with pwr := { s.pwr with waking := s.pwr.waking.filter fun m => m != n.val, saved := sset 0 s.pwr.saved n.val 0 } }
      .next ((((u.setBay n 0).setFld (R.PWR_BAY_STATUS n) F.PWR_BAY_STATUS_LAST_EXIT (min duration 0xFFFF)).incFld
        (R.PWR_BAY_STATUS n) F.PWR_BAY_STATUS_WAKES).splWoken.wakeKept)) ∧
  (∀ (n : Fin 50) (s : State), s.bayState n ≠ 5 → s.bayState n ≠ 6 → exec (.railMonitorTrip n) s =
    let u : State := { s with pwr := { s.pwr with waking := s.pwr.waking.filter fun m => m != n.val, saved := sset 0 s.pwr.saved n.val 0 } }
    .next (((((u.setBay n 6).thmEvent 0xB n 0 0 0).journal 8 n []).ldgAdd (ldgBay n + 20) 2 1).loseBay n).splWoken) ∧
  (∀ (n : Fin 50) (s : State), s.bayState n = 6 → n.val < 36 ∨ 44 ≤ n.val →
    exec (.railMonitorRelease n) s = .next (s.setBay n 0).splWoken.wakeKept)

/-- A write of TOL below the exit maximum of the state that the bay rests in wakes the bay at once, and its target follows the
new value; a value that covers the state leaves the bay as it is. TOL of bays 46 to 48 is fixed. -/
def Obligations.TolWritten : Prop :=
  (∀ (n : Fin 50) (tol : BitVec 24) (s : State), s.regsWf = true → n.val < 46 ∨ 48 < n.val →
    Answers (exec (.bayTolWrite n tol) s) fun t =>
      t.fld (R.PWR_BAY_CTRL n) F.PWR_BAY_CTRL_TOL = tol.toNat ∧ t.bayTarget n = min (bayDeepest n) (tolState tol.toNat) ∧
      (1 ≤ s.bayState n → s.bayState n ≤ 3 → 10 * tol.toNat < exitMax (s.bayState n) →
        t.bayState n = 4 ∧ t.bayHeld n = s.bayState n ∧ t.pwr.waking = s.pwr.waking ++ [n.val]) ∧
      (exitMax (s.bayState n) ≤ 10 * tol.toNat → t.pwr = s.pwr ∧ t.bayState n = s.bayState n) ∧
      s.RegsBut t [R.PWR_BAY_CTRL n, R.PWR_BAY_STATUS n] ∧ t = { s with regs := t.regs, pwr := t.pwr }) ∧
  (∀ (n : Fin 50) (tol : BitVec 24) (s : State), s.regsWf = true → 46 ≤ n.val → n.val ≤ 48 →
    Answers (exec (.bayTolWrite n tol) s) fun t =>
      t.rd (R.PWR_BAY_CTRL n) = s.rd (R.PWR_BAY_CTRL n) ∧ s.RegsBut t [R.PWR_BAY_STATUS n] ∧
      t = { s with regs := t.regs, pwr := t.pwr })

/-- A sample shows the readings it carries, lowers the power pace by 4 while the input power exceeds its cap, and trips the
module when a junction reaches 115 degrees; at its pace limit a section loses 8 of its 64 steps. A window end shows cadence, its
minimum and the margin, and sets BELOW and ALARM under the threshold. The supply loop raises a rail by 2.5 mV up to its ceiling
for a short margin, lowers it after 1 ms of surplus, and else leaves it; MEASURED is a free value (log entry 41). -/
def Obligations.SensorsAndPower : Prop :=
  (∀ (x : SensorSample) (s : State), s.regsWf = true → s.board.pwrGood = true →
    (∀ i, i < 50 → x.temps.getD i 0x8000 = 0x8000 ∨ (x.temps.getD i 0x8000).toInt < 920) →
    Answers (exec (.sensorSample x) s) fun t =>
      t.fld R.PWR_STATUS F.PWR_STATUS_POWER_W = x.watts.toNat ∧ t.fld R.PWR_STATUS F.PWR_STATUS_VOLTAGE = x.tenMv.toNat ∧
      t.fld R.PWR_STATUS F.PWR_STATUS_SHARE_A = x.shareA.toNat ∧
      (∀ i, i < 53 → t.fld (R.THM_SENSOR i) F.THM_SENSOR_TEMP = (x.temps.getD i 0x8000).toNat) ∧
      (max 1500 (min 3600 (s.fld R.PWR_CTRL F.PWR_CTRL_CAP_W)) < x.watts.toNat →
        t.pwr.powerPace = max 8 (s.pwr.powerPace - 4)) ∧
      t.board = { s.board with thermN := t.board.thermN } ∧
      t = { s with regs := t.regs, board := t.board, pwr := t.pwr, spl := t.spl, ldg := t.ldg, out := t.out, cnt := t.cnt }) ∧
  (∀ (i : Nat) (x : SensorSample) (s : State), s.board.pwrGood = true → i < 50 → x.temps.getD i 0x8000 ≠ 0x8000 →
    920 ≤ (x.temps.getD i 0x8000).toInt →
    Answers (exec (.sensorSample x) s) fun t => t.board.tripLatch = true ∧ t.board.place ≠ .running ∧
      (s.board.place = .running → t.board.place = .powerFail)) ∧
  (∀ (n : Nat) (t : Int) (s : State),
    8 * ((max 80 (min 103 (s.fld R.THM_CTRL F.THM_CTRL_PACE_LIMIT)) : Nat) : Int) ≤ t →
    s.thermalStep n t = { s with pwr := { s.pwr with pace := sset 0 s.pwr.pace n (min 56 (sget 0 s.pwr.pace n + 8)), below := sset 0 s.pwr.below n 0 } }) ∧
  (∀ (n : Fin 50) (cadence : BitVec 16) (s : State), s.regsWf = true →
    Answers (exec (.monitorWindowEnd n cadence) s) fun t =>
      t.fld (R.SIL_MON_STATUS n) F.SIL_MON_STATUS_CADENCE = cadence.toNat ∧
      t.fld (R.SIL_MON_STATUS n) F.SIL_MON_STATUS_CADENCE_MIN =
        min cadence.toNat (s.fld (R.SIL_MON_STATUS n) F.SIL_MON_STATUS_CADENCE_MIN) ∧
      (s.fld (R.SIL_MON_REQ n) F.SIL_MON_REQ_REQUIRED = 0 → s.RegsBut t [R.SIL_MON_STATUS n] ∧ t = { s with regs := t.regs }) ∧
      (s.fld (R.SIL_MON_REQ n) F.SIL_MON_REQ_REQUIRED ≠ 0 → t.sfld (R.SIL_MON_STATUS n) F.SIL_MON_STATUS_MARGIN =
        marginOf cadence.toNat (s.fld (R.SIL_MON_REQ n) F.SIL_MON_REQ_REQUIRED) ∧
        (s.monThresh n ≠ -32768 → marginOf cadence.toNat (s.fld (R.SIL_MON_REQ n) F.SIL_MON_REQ_REQUIRED) < s.monThresh n →
          t.bit R.SIL_MON_BELOW n = true ∧ t.bit R.SIL_MON_ALARM n = true)) ∧
      t = { s with regs := t.regs, pwr := t.pwr, ldg := t.ldg, out := t.out, cnt := t.cnt }) ∧
  (∀ (q : Fin 4) (s : State), s.regsWf = true → Answers (exec (.supplyLoopEval q) s) fun t =>
    ((∃ m ∈ s.quadMargins q, m < 0) → t.fld (R.PWR_VCORE q) F.PWR_VCORE_SETPOINT =
      max (s.fld (R.PWR_VCORE q) F.PWR_VCORE_SETPOINT)
        (min (s.fld (R.PWR_VCORE q) F.PWR_VCORE_SETPOINT + 25) (s.vcoreCeiling q))) ∧
    (s.quadMargins q = [] ∨ (∀ m ∈ s.quadMargins q, 0 ≤ m) ∧ (∃ m ∈ s.quadMargins q, m ≤ 500) →
      t.fld (R.PWR_VCORE q) F.PWR_VCORE_SETPOINT = s.fld (R.PWR_VCORE q) F.PWR_VCORE_SETPOINT) ∧
    (s.quadMargins q ≠ [] → (∀ m ∈ s.quadMargins q, 500 < m) → sget 0 s.pwr.vcoreHigh q.val ≠ 0 →
      sget 0 s.pwr.vcoreHigh q.val + 1000000 ≤ s.mono + 1 → t.fld (R.PWR_VCORE q) F.PWR_VCORE_SETPOINT =
        max 7000 (s.fld (R.PWR_VCORE q) F.PWR_VCORE_SETPOINT - 25)) ∧
    s.RegsBut t [R.PWR_VCORE q] ∧
    t = { s with regs := t.regs, pwr := { s.pwr with vcoreHigh := t.pwr.vcoreHigh }, free := s.free + 1 })

/-- A pulse at an idle sill is captured at once; while a transfer is under way a statistics sill accumulates up to 15, and the
16th pulse, as the second event at an event sill, is an overrun: its flag, the summary bit and the count. An acknowledge
transfers what has accumulated. A reserved bit has no sill. Injection starts only with the owning block disabled, a sill at the
bit and pulses to inject. -/
def Obligations.Sills : Prop :=
  (∀ (g : Fin 273) (b : Fin 64) (s : State), sillClass g b = none → exec (.sillPulse g b) s = .next s) ∧
  (∀ (g : Fin 273) (b : Fin 64) (s : State), sillClass g b ≠ none → s.injecting = none →
    (sget {} s.sills (sillKey g b)).busy = false → exec (.sillPulse g b) s = .next (s.sillCapture g b 1 0)) ∧
  (∀ (g : Fin 273) (b : Fin 64) (s : State) (x : Sill), sillClass g b = some .count → s.injecting = none →
    sget {} s.sills (sillKey g b) = x → x.busy = true → x.phase < 15 → exec (.sillPulse g b) s =
      .next { s with sills := sset {} s.sills (sillKey g b) { x with phase := x.phase + 1, acc := min 15 (x.acc + 1) } }) ∧
  (∀ (g : Fin 273) (b : Fin 64) (s : State) (x : Sill), s.regsWf = true → s.injecting = none →
    sget {} s.sills (sillKey g b) = x → x.busy = true →
    sillClass g b = some .count ∧ x.phase = 15 ∨ sillClass g b = some .event ∧ x.phase = 1 →
    Answers (exec (.sillPulse g b) s) fun t =>
      t.bit (R.SIL_OVR g) b = true ∧ t.bit (R.SIL_OVR_SUMMARY (g.val / 64)) (g.val % 64) = true ∧
      t.fld R.SIL_OVR_COUNT F.SIL_OVR_COUNT_COUNT = (s.fld R.SIL_OVR_COUNT F.SIL_OVR_COUNT_COUNT + 1) % 2 ^ 48 ∧
      sget {} t.sills (sillKey g b) = { x with phase := x.phase + 1 }) ∧
  (∀ (g : Fin 273) (b : Fin 64) (s : State) (x : Sill), sillClass g b = some .event → s.injecting = none →
    sget {} s.sills (sillKey g b) = x → x.busy = true → x.phase ≠ 1 → exec (.sillPulse g b) s =
      .next { s with sills := sset {} s.sills (sillKey g b) { x with phase := x.phase + 1 } }) ∧
  (∀ (g : Fin 273) (b : Fin 64) (s : State) (x : Sill), sget {} s.sills (sillKey g b) = x →
    (x.busy = false → exec (.sillAcknowledge g b) s = .next s) ∧
    (x.busy = true → x.acc = 0 → exec (.sillAcknowledge g b) s =
      .next { s with sills := sset {} s.sills (sillKey g b) { x with busy := false, inFlight := 0, phase := 0 } }) ∧
    (x.busy = true → x.acc ≠ 0 → exec (.sillAcknowledge g b) s = .next (s.sillCapture g b x.acc x.injected))) ∧
  (∀ (g : Fin 273) (b : Fin 64) (n k : Nat) (s : State), s.sillCapture g b n k =
    { s with sills := (s.sillCapture g b n k).sills, cnt := (s.sillCapture g b n k).cnt } ∧
    (sget {} (s.sillCapture g b n k).sills (sillKey g b)).dest = (sget {} s.sills (sillKey g b)).dest + (n - k)) ∧
  (∀ (g : BitVec 9) (b : BitVec 6) (n : BitVec 8) (s : State), s.regsWf = true →
    s.sillOwnerOff g.toNat b.toNat = true → g.toNat ≤ 272 → sillClass g.toNat b.toNat ≠ none → n ≠ 0 →
    Answers (exec (.silInject g b n) s) fun t =>
      t.injecting = some (g.toNat, b.toNat, n.toNat) ∧ t.flag R.SIL_INJECT F.SIL_INJECT_GO = true ∧
      s.RegsBut t [R.SIL_INJECT] ∧ t = { s with regs := t.regs, injecting := t.injecting }) ∧
  (∀ (g b : Nat) (s : State), s.injecting = some (g, b, 0) →
    exec .injectionDone s = .next { s.setFld R.SIL_INJECT F.SIL_INJECT_GO 0 with injecting := none }) ∧
  (∀ (d : Fin 6) (h : Fin 2) (c : Fin 32) (s : State), exec (.channelRetrained d h c) s =
    .next { s with swc := { s.swc with retraining := s.swc.retraining.filter fun k => k != sillKey d (32 * h + c) } })

/-- A ring that holds a line shows its detuning and heater, and ten samples in a row of 10 GHz or more lose the lock; a search
that meets a line goes on to its order count; a count of the ring's own line passes and clears its failures, another is a wrong
lock, and the third withdraws the lane with three failures. The engine's registers start relocks, measurements and the clearing
of lanes at once while its optical group is active, and else when it wakes. -/
def Obligations.Rings : Prop :=
  (∀ (r : RingId) (detune heater : BitVec 16) (s : State), s.regsWf = true → s.ringHolds r = true → detune.toInt.natAbs < 1000 →
    Answers (exec (.lockLoopSample r detune heater) s) fun t =>
      t.fld (ringReg r) F.OPT_RING_DETUNE = detune.toNat ∧ t.fld (ringReg r) F.OPT_RING_HEATER = heater.toNat ∧
      t.ringState r = s.ringState r ∧ sget 0 t.spl.detuned (ringNum r) = 0 ∧ s.RegsBut t [ringReg r, R.OPT_STATUS r.e] ∧
      t = { s with regs := t.regs, free := s.free + 1, spl := { s.spl with detuned := t.spl.detuned } }) ∧
  (∀ (r : RingId) (detune heater : BitVec 16) (s : State), s.regsWf = true → swf (fun _ => 0) s.spl.detuned = true →
    s.ringHolds r = true → 1000 ≤ detune.toInt.natAbs → sget 0 s.spl.detuned (ringNum r) < 9 →
    Answers (exec (.lockLoopSample r detune heater) s) fun t =>
      t.ringState r = s.ringState r ∧ sget 0 t.spl.detuned (ringNum r) = sget 0 s.spl.detuned (ringNum r) + 1) ∧
  (∀ (r : RingId) (detune heater : BitVec 16) (s : State), s.regsWf = true → s.ringHolds r = true → s.engineLit r.e = true →
    s.bayState (opticBay r.e) ≠ 3 → 1000 ≤ detune.toInt.natAbs → 9 ≤ sget 0 s.spl.detuned (ringNum r) →
    Answers (exec (.lockLoopSample r detune heater) s) fun t => t.ringState r = 1 ∧
      t = { s with regs := t.regs, free := s.free + 1, spl := t.spl, lasers := t.lasers, out := t.out, cnt := t.cnt, ldg := t.ldg }) ∧
  (∀ (r : RingId) (detune heater : BitVec 16) (s : State), s.ringHolds r = false →
    exec (.lockLoopSample r detune heater) s = .next s) ∧
  (∀ (r : RingId) (s : State), s.regsWf = true → s.ringState r = 1 → Answers (exec (.ringLockAttemptDone r true) s) fun t =>
    t.ringState r = 2 ∧ t.fld (ringReg r) F.OPT_RING_LOCKS = min 0xFFFF (s.fld (ringReg r) F.OPT_RING_LOCKS + 1) ∧
    s.RegsBut t [ringReg r] ∧ t = { s with regs := t.regs, cnt := t.cnt }) ∧
  (∀ (r : RingId) (s : State), s.ringState r = 1 → exec (.ringLockAttemptDone r false) s = .next (s.attemptDone r)) ∧
  (∀ (r : RingId) (crossings : Fin 8) (s : State), s.ringState r = 2 → exec (.orderCountDone r crossings) s =
    let line := if Config.sweepRises (ringNum r) (s.fld (ringReg r) F.OPT_RING_HEATER) then 7 - crossings.val else crossings.val
    let u := (s.setFld (ringReg r) F.OPT_RING_ORDER line).attemptDone r
    .next (if line = r.l.val then u.lockPassed r else u.wrongLock r)) ∧
  (∀ (r : RingId) (s : State), s.regsWf = true → s.portEnabled (s.ringPort r) = false →
    (s.lockPassed r).ringState r = 3 ∧ (s.lockPassed r).fld (ringReg r) F.OPT_RING_FAILS = 0 ∧
    s.RegsBut (s.lockPassed r) [ringReg r, R.OPT_STATUS r.e]) ∧
  (∀ (r : RingId) (s : State), s.regsWf = true → s.fld (ringReg r) F.OPT_RING_FAILS = 2 ∨ s.fld (ringReg r) F.OPT_RING_FAILS = 3 →
    (s.wrongLock r).ringState r = 5 ∧ (s.wrongLock r).fld (ringReg r) F.OPT_RING_FAILS = 3) ∧
  (∀ (r : RingId) (heater : BitVec 16) (s : State), s.ringHolds r = true →
    exec (.setPointTrim r heater) s = .next (s.setFld (ringReg r) F.OPT_RING_HEATER heater.toNat)) ∧
  (∀ (e : Fin 32) (s : State), s.regsWf = true → s.bayActive (opticBay e) = true →
    exec (.relock e) s = .next (s.relockEngine e)) ∧
  (∀ (r : RingId) (integ : BitVec 2) (s : State), s.regsWf = true → s.bayActive (opticBay r.e) = true →
    s.flag (R.OPT_MEASURE r.e) F.OPT_MEASURE_GO = false → Answers (exec (.optMeasure r integ) s) fun t =>
      t.flag (R.OPT_MEASURE r.e) F.OPT_MEASURE_GO = true ∧ t.fld (R.OPT_MEASURE r.e) F.OPT_MEASURE_INTEG = integ.toNat ∧
      t.fld (R.OPT_MEASURE r.e) F.OPT_MEASURE_POSITION = r.k.val ∧ t.fld (R.OPT_MEASURE r.e) F.OPT_MEASURE_LANE = r.l.val ∧
      t.flag (R.OPT_MEASURE_RESULT r.e) F.OPT_MEASURE_RESULT_VALID = false ∧
      s.RegsBut t [R.OPT_MEASURE r.e, R.OPT_MEASURE_RESULT r.e] ∧ t = { s with regs := t.regs }) ∧
  (∀ (e : Fin 32) (code : BitVec 16) (s : State), s.regsWf = true → s.flag (R.OPT_MEASURE e) F.OPT_MEASURE_GO = true →
    Answers (exec (.optMeasureDone e code) s) fun t =>
      t.flag (R.OPT_MEASURE e) F.OPT_MEASURE_GO = false ∧ t.flag (R.OPT_MEASURE_RESULT e) F.OPT_MEASURE_RESULT_VALID = true ∧
      t.fld (R.OPT_MEASURE_RESULT e) F.OPT_MEASURE_RESULT_CODE = code.toNat ∧
      s.RegsBut t [R.OPT_MEASURE e, R.OPT_MEASURE_RESULT e] ∧ t = { s with regs := t.regs }) ∧
  (∀ (e : Fin 32) (mask : Word) (s : State), s.regsWf = true → mask ≠ 0 → s.bayActive (opticBay e) = true →
    Answers (exec (.laneClear e mask) s) fun t => ∃ v, t = (s.wr (R.OPT_LANE_CLEAR e) v).clearLanes e mask) ∧
  (∀ (e : Fin 32) (mask : Word) (s : State), s.regsWf = true → mask ≠ 0 → s.bayActive (opticBay e) = false →
    Answers (exec (.laneClear e mask) s) fun t => t.cfg.pendingL = s.cfg.pendingL ++ [(R.OPT_LANE_CLEAR e, mask)] ∧
      s.RegsBut t [R.OPT_LANE_CLEAR e] ∧ t = { s with regs := t.regs, cfg := t.cfg })

/-- An access of another size or alignment is answered, a read of it with all ones, changes no register but those that report
it, and sets BAR_ACCESS, or PEG_WINDOW in BAR2. An accepted access of BAR0 writes or reads the register at its offset; BAR2
sets, adds to and reads the pegs from 1024 on and refuses writes of pegs 0 to 1023; BAR4 shows snapshot pages and keeps the
MSI-X table. -/
def Obligations.BarsAndPegs : Prop :=
  (∀ (bar : Fin 3) (write : Bool) (size : BitVec 4) (offset : BitVec 26) (data : Word) (s : State), s.regsWf = true →
    s.host.ideBroken = false → barAccepts bar size.toNat offset.toNat = false →
    Answers (exec (.barMisalignedAccess bar write size offset data) s) fun t =>
      t.bit R.HIF_ERR_STATUS (if bar = 1 then 1 else 0) = true ∧ s.RegsBut t [R.HIF_ERR_STATUS, R.HIF_ERR_ADDR] ∧
      (s.bit R.HIF_ERR_STATUS 0 = false → s.bit R.HIF_ERR_STATUS 1 = false →
        t.fld R.HIF_ERR_ADDR F.HIF_ERR_ADDR_SPACE = bar.val ∧ t.fld R.HIF_ERR_ADDR F.HIF_ERR_ADDR_OFFSET = offset.toNat) ∧
      t.out.cxl = s.out.cxl ++ [if write then .barDone bar offset.toNat else .barData bar offset.toNat (BitVec.allOnes 64)] ∧
      t = { s with regs := t.regs, out := t.out, cnt := t.cnt }) ∧
  (∀ (size : BitVec 4) (offset : BitVec 26) (data : Word) (s : State), s.host.ideBroken = false →
    barAccepts 0 size.toNat offset.toNat = true →
    exec (.barMisalignedAccess 0 true size offset data) s = .next ((s.hostReg offset.toNat data).sendCxl (.barDone 0 offset.toNat)) ∧
    exec (.barMisalignedAccess 0 false size offset data) s =
      .next ((s.readReg offset.toNat).2.sendCxl (.barData 0 offset.toNat (s.readReg offset.toNat).1))) ∧
  (∀ (offset : BitVec 26) (data : Word) (s : State), s.host.ideBroken = false → offset.toNat % 8 = 0 →
    exec (.barMisalignedAccess 1 false 8 offset data) s = .next (s.sendCxl (.barData 1 offset.toNat
      (if offset.toNat % 16 = 0 then s.peg (offset.toNat / 16) else BitVec.ofNat 64 (s.pegDom (offset.toNat / 16)).toNat)))) ∧
  (∀ (offset : BitVec 26) (data : Word) (s : State), s.host.ideBroken = false → offset.toNat < 0xFE0000 → offset.toNat % 8 = 0 →
    exec (.barMisalignedAccess 2 false 8 offset data) s =
      .next (s.sendCxl (.barData 2 offset.toNat (s.bar4Word (offset.toNat / 4096) (offset.toNat % 4096 / 8))))) ∧
  (∀ (p : BitVec 16) (v : Word) (s : State), 1024 ≤ p.toNat → s.host.ideBroken = false →
    exec (.pegBar2Set p v) s = .next (s.setPeg p.toNat v) ∧ exec (.pegBar2Add p v) s = .next (s.addPeg p.toNat v)) ∧
  (∀ (p : BitVec 16) (v : Word) (s : State), s.regsWf = true → p.toNat < 1024 → s.host.ideBroken = false →
    (Answers (exec (.pegBar2Set p v) s) fun t => t.bit R.HIF_ERR_STATUS 1 = true ∧
      s.RegsBut t [R.HIF_ERR_STATUS, R.HIF_ERR_ADDR] ∧ t = { s with regs := t.regs, out := t.out, cnt := t.cnt }) ∧
    (Answers (exec (.pegBar2Add p v) s) fun t => t.bit R.HIF_ERR_STATUS 1 = true ∧
      s.RegsBut t [R.HIF_ERR_STATUS, R.HIF_ERR_ADDR] ∧ t = { s with regs := t.regs, out := t.out, cnt := t.cnt })) ∧
  (∀ (p : Nat) (v : Word) (s : State), swf (fun _ => 0) s.dxn.pegs = true →
    (s.setPeg p v).peg p = v ∧ (s.addPeg p v).peg p = s.peg p + v ∧
    (∀ q, q ≠ p → (s.setPeg p v).peg q = s.peg q ∧ (s.addPeg p v).peg q = s.peg q))

/-- A write of all 64 bytes of a line stores them, the rest of memory stays, and the line is not poisoned; a partial write
stores the bytes that its mask names alone, and a poisoned line stays poisoned; a write of a firmware region stores nothing.
Each is answered. -/
def Obligations.HostWriteStored : Prop :=
  (∀ (addr : Word) (a : Nat) (data : Bytes) (s : State), a = addr.toNat / 64 * 64 → s.mem.wf = true → s.host.ideBroken = false →
    s.hostSees a = true → inFirmware a = false → s.stackFailed a = false →
    Answers (exec (.hostMemWrite addr data (BitVec.allOnes 64)) s) fun t =>
      (∀ i, i < 64 → t.byte (a + i) = data.getD i 0) ∧ s.BytesBut t a 64 ∧ t.isPoisoned a = false ∧
      s.RegsBut t ((List.range 50).map R.PWR_BAY_STATUS) ∧ t.dxn = s.dxn ∧ .memDone addr ∈ t.out.cxl) ∧
  (∀ (addr : Word) (a : Nat) (data : Bytes) (mask : BitVec 64) (s : State), a = addr.toNat / 64 * 64 → s.mem.wf = true →
    s.host.ideBroken = false → mask ≠ BitVec.allOnes 64 → s.hostSees a = true → inFirmware a = false → s.stackFailed a = false →
    Answers (exec (.hostMemWrite addr data mask) s) fun t =>
      (∀ i, i < 64 → t.byte (a + i) = if mask.getLsbD i then data.getD i 0 else s.byte (a + i)) ∧
      s.BytesBut t a 64 ∧ t.isPoisoned a = s.isPoisoned a ∧ t.dxn = s.dxn ∧ .memDone addr ∈ t.out.cxl) ∧
  (∀ (addr : Word) (a : Nat) (data : Bytes) (mask : BitVec 64) (s : State), a = addr.toNat / 64 * 64 → s.host.ideBroken = false →
    s.hostSees a = true → inFirmware a = true → exec (.hostMemWrite addr data mask) s =
      .next (((s.snoopInsert (a / 64)).memEvent 1 a).sendCxl (.memDone addr)))

/-- A host read of a line in HBM or DDR5 returns its bytes, marked where the line is poisoned or an uncorrectable error is
found; one of a firmware region returns a poisoned line and is recorded. It stores nothing. On a link that an IDE failure has
made unusable, and outside the decoders, nothing happens. -/
def Obligations.HostReads : Prop :=
  (∀ (addr : Word) (a : Nat) (s : State), a = addr.toNat / 64 * 64 → s.host.ideBroken = false → s.hostSees a = true →
    inFirmware a = false → s.rangePoisoned a 64 = false →
    Answers (exec (.hostMemRead addr []) s) fun t =>
      .memData addr (sbytes s.mem.bytes a 64) false ∈ t.out.cxl ∧ t.mem = s.mem ∧ t.dxn = s.dxn ∧
      s.RegsBut t ((List.range 50).map R.PWR_BAY_STATUS)) ∧
  (∀ (addr : Word) (a : Nat) (errs : List LineErr) (s : State), a = addr.toNat / 64 * 64 → s.host.ideBroken = false →
    s.hostSees a = true → inFirmware a = false → s.rangePoisoned a 64 = true →
    Answers (exec (.hostMemRead addr errs) s) fun t =>
      .memData addr (sbytes s.mem.bytes a 64) true ∈ t.out.cxl ∧ t.mem.bytes = s.mem.bytes ∧ t.dxn = s.dxn) ∧
  (∀ (addr : Word) (a : Nat) (errs : List LineErr) (s : State), a = addr.toNat / 64 * 64 → s.host.ideBroken = false →
    s.hostSees a = true → inFirmware a = true → exec (.hostMemRead addr errs) s =
      .next (((s.snoopInsert (a / 64)).memEvent 1 a).sendCxl (.memData addr [] true))) ∧
  (∀ (addr : Word) (errs : List LineErr) (s : State), s.hostSees (addr.toNat / 64 * 64) = false ∨ s.host.ideBroken = true →
    exec (.hostMemRead addr errs) s = .next s)

/-- Setting an enable bit asks for a plumb check and changes nothing else; clearing that of an active ring leaves it draining,
and it becomes disabled once its last item has retired; a completion ring that nothing names is disabled at once, and one that
is named stays and is logged. D3hot is entered and left; the line of every active ring is read again at the return to D0. -/
def Obligations.RingsAndCompletionRings : Prop :=
  (∀ (r : Fin 1024) (s : State), s.regsWf = true → s.bit (R.HIF_RING_ENABLE (r.val / 64)) (r.val % 64) = false →
    s.checking (.ringEnable r) = false → (∀ i, i < 1024 → i / 64 = r.val / 64 → s.bit (R.HIF_RING_ENABLE (i / 64)) (i % 64) = false ∧
      s.checking (.ringEnable i) = false) →
    exec (.ringEnable r) s = .next (s.pushCheck { kind := .ringEnable r, offset := R.HIF_RING_ENABLE (r.val / 64) })) ∧
  (∀ (r : Fin 1024) (s : State), s.regsWf = true → s.bit (R.HIF_RING_ENABLE (r.val / 64)) (r.val % 64) = true →
    (∀ i, i < 1024 → s.checking (.ringEnable i) = false) → exec (.ringDisable r) s = .next (s.ringStop r)) ∧
  (∀ (r : Nat) (s : State), r < 1024 → s.regsWf = true → s.ringSt r = 1 ∨ s.ringSt r = 3 →
    (s.ringStop r).ringSt r = 2 ∧ s.RegsBut (s.ringStop r) [R.HIF_RING_STATE r] ∧
    s.ringStop r = { s with regs := (s.ringStop r).regs, host := { s.host with rings := (s.ringStop r).host.rings } }) ∧
  (∀ (r : Fin 1024) (s : State), s.regsWf = true → s.ringSt r = 2 →
    s.fld (R.HIF_RING_STATE r) F.HIF_RING_STATE_OUTSTANDING = 0 → Answers (exec (.ringDrained r) s) fun t =>
      t.ringSt r = 0 ∧ t.bit (R.HIF_RING_ENABLE (r.val / 64)) (r.val % 64) = false ∧
      s.RegsBut t [R.HIF_RING_STATE r, R.HIF_RING_ENABLE (r.val / 64)] ∧ t = { s with regs := t.regs }) ∧
  (∀ (c : Fin 256) (s : State), s.regsWf = true → s.cqOn c = false → s.checking (.cqEnable c) = false →
    exec (.cqEnable c) s = .next (s.pushCheck { kind := .cqEnable c, offset := R.HIF_CQ_CFG c })) ∧
  (∀ (c : Fin 256) (s : State), s.regsWf = true → s.cqOn c = true → s.cqNamed c = false →
    exec (.cqDisable c) s = .next (s.setFld (R.HIF_CQ_CFG c) F.HIF_CQ_CFG_ENABLE 0)) ∧
  (∀ (c : Fin 256) (s : State), s.regsWf = true → s.cqOn c = true → s.cqNamed c = true →
    exec (.cqDisable c) s = .next (s.cfgLog 4 0x1C 0xFF 0 0 (R.HIF_CQ_CFG c))) ∧
  (∀ s : State, exec .d3hotEntry s = .next { s with host.d3hot := true }) ∧
  (∀ s : State, s.host.d3hot = true → exec .d0Return s =
    let u : State := { s with host.d3hot := false }
    .next ((((List.range 1024).filter fun r => u.ringSt r == 1).foldl (fun s r => s.readLine r) u).fetchMore)) ∧
  (∀ (c : Fin 256) (b : Bytes) (s : State), s.flag (R.HIF_CQ_STATE c) F.HIF_CQ_STATE_STALLED = true → s.linkHeld = false →
    (s.cqTail c - BitVec.ofNat 32 (leAt b 0 4)).toNat < s.cqSize c → leAt b 0 4 ≠ 0 →
    Answers (exec (.cqHeadptrReread c (.ok b)) s) fun t => sget 0 t.host.cqHost c.val = BitVec.ofNat 32 (leAt b 0 4) ∧
      (s.regsWf = true → t.flag (R.HIF_CQ_STATE c) F.HIF_CQ_STATE_STALLED = false) ∧ s.RegsBut t [R.HIF_CQ_STATE c]) ∧
  (∀ (c : Fin 256) (s : State), s.flag (R.HIF_CQ_STATE c) F.HIF_CQ_STATE_STALLED = true →
    exec (.cqStallTimeout c) s = .next ((s.count (ctrHif 6)).hifError 3)) ∧
  (∀ s : State, s.regsWf = true → Answers (exec .ideFailure s) fun t => t.host.ideBroken = true ∧ t.sec.ideActive = [] ∧ t.sec.ideKeys = [] ∧
    t.bit R.HIF_ERR_STATUS 5 = true ∧ t.flag R.HIF_LINK_STATUS F.HIF_LINK_STATUS_IDE_ACTIVE = false ∧
    s.RegsBut t [R.HIF_ERR_STATUS, R.HIF_LINK_STATUS] ∧ t.mem = s.mem ∧ t.dxn = s.dxn)

/-- A snoop of a watched line is answered and the line read again; the line's data moves TAIL, or only records it at the first
read, and a TAIL beyond the ring errors it with code 1; a poll reads the line as well. A descriptor that arrives advances HEAD
and becomes a work item; a failed read errors the ring with code 2. Only the rings' own registers, the counts of work, and the
reads change. -/
def Obligations.WatchedLinesAndArrival : Prop :=
  (∀ (r : Fin 1024) (s : State), (s.ring r).shared = true → (s.ring r).reading = false → s.host.ideBroken = false →
    s.ringSt r = 1 → s.host.d3hot = false → exec (.watchedLineSnoop r) s =
      .next (((((s.count (ctrHif 3)).sendCxl (.rspIHitSE r)).setRing r { s.ring r with shared := false, again := false }).pulse 271 0
        .event).readLine r)) ∧
  (∀ (r : Fin 1024) (b : Bytes) (s : State), (s.ring r).reading = true → (s.ring r).again = false → (s.ring r).first = true → s.ringSt r = 1 →
    s.host.ideBroken = false → exec (.watchedLineData r (.ok b)) s =
      let u := s.setRing r { s.ring r with reading := false, shared := true, first := false, again := false }
      .next (u.setRing r { u.ring r with lastTail := BitVec.ofNat 32 (leAt b 0 4) })) ∧
  (∀ (r : Fin 1024) (b : Bytes) (s : State), (s.ring r).reading = true → (s.ring r).again = false → (s.ring r).first = false → s.ringSt r = 1 →
    s.host.ideBroken = false → exec (.watchedLineData r (.ok b)) s =
      .next ((s.setRing r { s.ring r with reading := false, shared := true, first := false, again := false }).tailSeen r
        (BitVec.ofNat 32 (leAt b 0 4)) false)) ∧
  (∀ (r : Nat) (tail : BitVec 32) (poll : Bool) (s : State), r < 1024 → s.regsWf = true → tail ≠ (s.ring r).lastTail →
    2 ^ s.ringCfg r F.HIF_RING_CFG_SIZE_LOG2 < (tail - BitVec.ofNat 32 (s.ringHead r)).toNat →
    (s.tailSeen r tail poll).ringSt r = 3 ∧ (s.tailSeen r tail poll).fld (R.HIF_RING_STATE r) F.HIF_RING_STATE_ERROR = 1 ∧
    (s.tailSeen r tail poll).bit R.HIF_ERR_STATUS 2 = true ∧ s.RegsBut (s.tailSeen r tail poll) [R.HIF_RING_STATE r, R.HIF_ERR_STATUS]) ∧
  (∀ (r : Fin 1024) (b : Bytes) (s : State), s.ringSt r = 1 → s.linkHeld = false → s.fld R.HIF_WATCH_POLL F.HIF_WATCH_POLL_PERIOD ≠ 0 →
    (s.ring r).first = false → exec (.watchPoll r (.ok b)) s =
      .next ((s.sendCxl (.rdCurr (s.rd (R.HIF_RING_LINE r)))).tailSeen r (BitVec.ofNat 32 (leAt b 0 4)) true)) ∧
  (∀ (r : Fin 1024) (b : Bytes) (s : State), (s.ring r).inFlight ≠ 0 → s.ringSt r = 1 → s.host.ideBroken = false →
    exec (.descriptorArrival r (.ok b)) s =
      .next ((s.setRing r { s.ring r with inFlight := (s.ring r).inFlight - 1 }).takeItem r b).fetchMore) ∧
  (∀ (r : Nat) (b : Bytes) (s : State), r < 1024 → s.regsWf = true → ∃ i, (s.takeItem r b).host.items = s.host.items ++ [i] ∧
    i.id = s.host.nextItem ∧ i.ring = r ∧ i.bytes = slice b 0 64 ∧ i.index = BitVec.ofNat 32 (s.ringHead r) ∧
    (byteAt b 0 / 16 ≠ 2 → byteAt b 0 / 16 ≠ 3 → i.stage = .done ∧ i.status = 2 ∧ i.detail = byteAt b 0 / 16) ∧
    (s.takeItem r b).ringHead r = (s.ringHead r + 1) % 2 ^ F.HIF_RING_STATE_HEAD.w ∧
    s.RegsBut (s.takeItem r b) [R.HIF_RING_STATE r, R.HIF_WORK_STATUS]) ∧
  (∀ (r : Fin 1024) (s : State), (s.ring r).inFlight ≠ 0 → s.ringSt r = 1 → s.host.ideBroken = false →
    exec (.descriptorArrival r .failed) s = .next (s.ringError r 2))

/-- An item whose turn has come is admitted, or parked until its peg reaches its value; a parked one starts when its condition
holds and completes with WAIT_TIMEOUT when its time runs out first. A NOP completes OK; an ABORT aborts the items of its ring
with its TAG and counts them; a RUN takes a free context in admission order; an image that passes its checks starts its program
at its entry. A done item writes its record, then adds to its peg, then raises its message, and retires. -/
def Obligations.WorkItems : Prop :=
  (∀ (item : Nat) (i : Item) (s : State), s.item? item = some i → i.stage = .fetched →
    (s.earlier i).any (fun x => x.stage == .fetched) = false → i.flag 4 = false ∨ s.earlier i = [] →
    exec (.descriptorAdmit item) s = .next (if i.flag 3 ∧ (s.peg i.waitPeg).toNat < leAt i.bytes 32 8
      then s.updItem item fun x => { x with stage := .parked } else s.queueItem i)) ∧
  (∀ (item : Nat) (i : Item) (s : State), s.item? item = some i → i.stage = .parked → i.hit = true →
    exec (.parkedWaitSatisfied item) s = .next (s.queueItem i)) ∧
  (∀ (item : Nat) (i : Item) (s : State), s.item? item = some i → i.stage = .parked → leAt i.bytes 30 2 ≠ 0 → i.hit = false →
    exec (.descriptorWaitTimeout item) s = .next (s.itemDone item 6 ((s.peg i.waitPeg).toNat % 2 ^ 32) 0)) ∧
  (∀ (item : Nat) (i : Item) (s : State), s.item? item = some i → i.stage = .queued → i.kind = 0 →
    exec (.descriptorNop item) s = .next (s.itemDone item 0 0 0)) ∧
  (∀ (item : Nat) (i : Item) (s : State), s.item? item = some i → i.stage = .queued → i.kind = 2 →
    Answers (exec (.descriptorAbort item) s) fun t =>
      let l := s.host.items.filter fun x => x.ring == i.ring && x.tag == leAt i.bytes 40 2 && x.id != item && !x.discard
      let a := l.foldl (fun (a : Nat × State) x => (a.1 + b2n (a.2.abortItem x i.tag).1, (a.2.abortItem x i.tag).2)) (0, s)
      t = a.2.itemDone item 0 0 (BitVec.ofNat 64 a.1)) ∧
  (∀ (item h : Nat) (i : Item) (rest : List Nat) (s : State), s.item? item = some i → i.stage = .queued → s.host.runQueue = item :: rest →
    i.kind = 1 → (List.finRange 64).all (fun n => (s.ctx (.c n)).status == .free) = true →
    Answers (exec (.descriptorRun item) s) fun t => t.host.runQueue = rest ∧ t.free = s.free + 1 ∧
      ∃ n : Fin 64, t.ctx (.c n) = { status := .loading, domain := i.domain, item := some item, runLimit := i.runLimit } ∧
        (∀ d, d ≠ .c n → t.ctx d = s.ctx d) ∧ s.regs = t.regs ∧ t.mem = s.mem) ∧
  (∀ (n : Fin 64) (read : HostRead) (errs : List LineErr) (i : Item) (s : State), (s.ctx (.c n)).status = .loading →
    (s.ctx (.c n)).item.bind s.item? = some i → Answers (exec (.imageReadComplete n read errs) s) fun t =>
      let u := (s.checkImage (BitVec.ofNat 64 (leAt i.bytes 8 8)) 3 (leAt i.bytes 16 4) 0 read errs).1
      match (s.checkImage (BitVec.ofNat 64 (leAt i.bytes 8 8)) 3 (leAt i.bytes 16 4) 0 read errs).2 with
      | .refused k => t = (u.setCtx (.c n) {}).itemDone i.id 3 k 0
      | .memory => t = (u.setCtx (.c n) {}).itemDone i.id 8 1 0
      | .ok version code data crc =>
        let y := { s.ctx (.c n) with pc := leAt i.bytes 16 4, code := code, data := data
                                     image := some (BitVec.ofNat 64 (leAt i.bytes 8 8), crc), version := BitVec.ofNat 8 version }
        t = (u.startCtx (.c n) ((((y.setReg 1 (BitVec.ofNat 64 (leAt i.bytes 40 8))).setReg 2 (BitVec.ofNat 64 (leAt i.bytes 48
          8))).setReg 3 (BitVec.ofNat 64 (leAt i.bytes 56 8))).setReg 4 (BitVec.ofNat 64 (i.tag + i.ring * 2 ^ 16 +
          i.domain.toNat * 2 ^ 32)))).fetchCheck (.c n)) ∧
  (∀ (item : Nat) (i : Item) (s : State), s.item? item = some i → i.stage = .done → i.discard = false → s.linkHeld = false →
    (i.flag 0 || i.status != 0 || !i.trusted) = true → s.cqRoom i.cq = true → exec (.workCompletion item) s =
      let u := (s.writeRecord i).signalPeg i
      .next ((if i.trusted ∧ i.flag 1 then u.raise (leAt i.bytes 20 2) else u).retire i)) ∧
  (∀ (item : Nat) (i : Item) (s : State), s.item? item = some i → i.stage = .done → i.discard = false → s.linkHeld = false →
    (i.flag 0 || i.status != 0 || !i.trusted) = true → s.cqRoom i.cq = false →
    exec (.workCompletion item) s = .next (s.setFld (R.HIF_CQ_STATE i.cq) F.HIF_CQ_STATE_STALLED 1))

/-- While the Wellhead serves, every mailbox command is counted and answered: Identify with the identity, Get Event Records with
the records held, Clear Event Records after dropping the oldest, Get Supported Logs and Get Log from the log, Get FW Info with
the banks, Get Timestamp with the time base, any other opcode with Unsupported. While it does not serve, the answer is not
ready. MCTP messages are counted and answered on their binding or dropped. -/
def Obligations.MailboxCommands : Prop :=
  (∀ s : State, s.serves = true → exec .identify s = .next ((s.count (ctrHif 13)).answer (leBytes 2 mbOk ++ leBytes 8 s.identity.toNat))) ∧
  (∀ s : State, s.serves = true →
    exec .getEventRecords s = .next ((s.count (ctrHif 13)).answer (leBytes 2 mbOk ++ s.host.mailEvents.flatten))) ∧
  (∀ (n : Nat) (s : State), s.serves = true → exec (.clearEventRecords n) s =
    let u : State := { s with host := { s.host with mailEvents := s.host.mailEvents.drop n },
                              board := { s.board with alertN := (s.host.mailEvents.drop n).isEmpty || s.board.alertN } }
    .next ((u.count (ctrHif 13)).answer (leBytes 2 mbOk ++ []))) ∧
  (∀ s : State, s.serves = true → exec .getSupportedLogs s = .next ((s.count (ctrHif 13)).answer (leBytes 2 mbOk ++ Config.supportedLogs))) ∧
  (∀ (offset length : Nat) (s : State), s.serves = true → exec (.getLog offset length) s = .next ((s.count (ctrHif 13)).answer
    (if offset + length ≤ Config.mailboxLog.length then leBytes 2 mbOk ++ slice Config.mailboxLog offset length
     else leBytes 2 mbInvalid ++ []))) ∧
  (∀ s : State, s.serves = true → exec (.getFwInfo false) s = .next ((s.count (ctrHif 13)).answer (leBytes 2 mbOk ++ s.fwInfo)) ∧
    exec (.getFwInfo true) s = .next ((s.count (ctrHif 10)).answerMctp true (leBytes 2 mbOk ++ s.fwInfo))) ∧
  (∀ s : State, s.phase = 0xF → s.board.place = .running →
    exec (.getFwInfo true) s = .next ((s.count (ctrHif 10)).answerMctp true (leBytes 2 mbOk ++ s.fwInfo))) ∧
  (∀ s : State, s.serves = true → exec .getTimestamp s = .next ((s.count (ctrHif 13)).answer (leBytes 2 mbOk ++ leBytes 8 s.now))) ∧
  (∀ (opcode : BitVec 16) (s : State), s.serves = true →
    exec (.mailboxUnsupported opcode) s = .next ((s.count (ctrHif 13)).answer (leBytes 2 mbUnsupported ++ []))) ∧
  (∀ s : State, s.serves = false → exec .identify s = .next ((s.count (ctrHif 13)).answer []) ∧
    exec .getTimestamp s = .next ((s.count (ctrHif 13)).answer []) ∧
    exec .getEventRecords s = .next ((s.count (ctrHif 13)).answer [])) ∧
  (∀ (i3c : Bool) (msg : Bytes) (s : State), mctpTypes.contains (byteAt msg 0 % 128) = true → s.cfg.wellheadDown = false →
    Answers (exec (.mctpMessage i3c true msg) s) fun t => ∃ f, t.out.mctp = s.out.mctp ++ [(i3c, f)] ∧
      (byteAt msg 0 % 128 = 0 → byteAt msg 2 = 1 → t.host = { s.host with eid := sset 0 s.host.eid (b2n i3c) (BitVec.ofNat 8 (byteAt msg 4)) }) ∧
      (byteAt msg 0 % 128 ≠ 0 ∨ byteAt msg 2 ≠ 1 → t.host = s.host) ∧
      t = { s with out := t.out, cnt := t.cnt, host := t.host }) ∧
  (∀ (i3c wellFormed : Bool) (msg : Bytes) (s : State), wellFormed = false ∨ mctpTypes.contains (byteAt msg 0 % 128) = false →
    exec (.mctpMessage i3c wellFormed msg) s = .next ((s.count (ctrHif 12)).hifError 8))

/-- An initiate begins a transfer into the bank that is not active and erases it; parts follow each other; a finish stores the
bytes; an abort ends the transfer. An activation of a bank that passes the checks of R400 makes it pending, of another is
invalid; during a transfer it is busy. Nothing else changes, and the active bank is never written. -/
def Obligations.FirmwareBanks : Prop :=
  (∀ (data : Bytes) (s : State), s.serves = true → s.sec.transfer = none → data.length ≤ bankSize →
    Answers (exec (.transferFw .initiate 0 data) s) fun t => t.sec.transfer = some (3 - s.activeFw, data) ∧
      t.region (3 - s.activeFw) = [] ∧ t.region s.activeFw = s.region s.activeFw ∧ t.out.mailbox = s.out.mailbox ++ [leBytes 2 mbOk ++ []] ∧
      t.control.pending ≠ some (3 - s.activeFw) ∧ t.mem = s.mem ∧ t.dxn = s.dxn ∧ s.RegsBut t [R.SEC_FW]) ∧
  (∀ (b : Nat) (d data : Bytes) (s : State), s.serves = true → s.sec.transfer = some (b, d) → d.length + data.length ≤ bankSize →
    exec (.transferFw .continue_ d.length data) s =
      .next ({ (s.count (ctrHif 13)) with sec := { s.sec with transfer := some (b, d ++ data) } }.answer (leBytes 2 mbOk ++ []))) ∧
  (∀ (b : Nat) (d data : Bytes) (s : State), s.serves = true → s.sec.transfer = some (b, d) → d.length + data.length ≤ bankSize →
    exec (.transferFw .finish d.length data) s =
      .next (({ (s.count (ctrHif 13)) with sec := { s.sec with transfer := none } }.setBank b (d ++ data)).answer (leBytes 2 mbOk ++ []))) ∧
  (∀ (offset : Nat) (data : Bytes) (s : State), s.serves = true → s.sec.transfer ≠ none → exec (.transferFw .abort offset data) s =
    .next ({ (s.count (ctrHif 13)) with sec := { s.sec with transfer := none } }.answer (leBytes 2 mbOk ++ []))) ∧
  (∀ (bank : Fin 2) (s : State), s.serves = true → s.sec.transfer = none → exec (.activateFw bank) s =
    .next (if s.bootable (bank + 1) then ((s.count (ctrHif 13)).setPending (some (bank + 1))).answer (leBytes 2 mbOk ++ [])
      else (s.count (ctrHif 13)).answer (leBytes 2 mbInvalid ++ [])))

/-- While the Wellhead serves, each vendor command is answered on its transport. An attestation takes the next signature index,
and none is given twice; the certificate is returned; a PSK is held in its slot; a revocation or a fuse is only added, never
taken back; a measurement register of 4 to 7 is extended by the digest given. A slot or register outside its range is refused
with 0x10 and nothing changes. -/
def Obligations.SecurityCommands : Prop :=
  (∀ (via : Via) (nonce : Bytes) (s : State), s.serves = true → s.ldg.sigNext < 2 ^ 40 → s.ldg.sigNext < s.ldg.sigMark + 1024 →
    Answers (exec (.getAttestation via nonce) s) fun t => t.ldg.sigNext = s.ldg.sigNext + 1 ∧ s.ldg.sigNext < t.ldg.sigMark ∧
      s.sec.indexEpoch ≤ t.sec.indexEpoch ∧ s.ldg.sigNext / 2 ^ 34 ≤ t.sec.indexEpoch ∧ t.mem = s.mem ∧ t.dxn = s.dxn ∧
      s.RegsBut t [R.SEC_XMSS_NEXT, R.SEC_XMSS_REMAIN, R.SEC_STATUS]) ∧
  (∀ (via : Via) (nonce : Bytes) (s : State), s.serves = true → 2 ^ 40 ≤ s.ldg.sigNext →
    exec (.getAttestation via nonce) s = .next ((s.requestVia via).answerVia via (leBytes 1 0xE0 ++ []))) ∧
  (∀ (via : Via) (s : State), s.serves = true →
    exec (.getIdentityCert via) s = .next ((s.requestVia via).answerVia via (leBytes 1 0 ++ Config.identityCertificate))) ∧
  (∀ (via : Via) (slot : BitVec 8) (ciphertext : Bytes) (s : State), s.serves = true → slot.toNat ≤ 3 → ciphertext.length = 1568 →
    swf (fun _ => none) s.sec.psk = true → Answers (exec (.provisionPsk via slot ciphertext) s) fun t =>
      sget none t.sec.psk slot.toNat = some (Config.shake256 (pskLabel ++ leBytes 32 (Config.kemDecapsulate s.sec.kem
        ciphertext).toNat ++ leBytes 8 s.identity.toNat) 48) ∧
      (∀ k, k ≠ slot.toNat → sget none t.sec.psk k = sget none s.sec.psk k) ∧ s.RegsBut t [R.SEC_STATUS] ∧
      t = { s with regs := t.regs, sec := { s.sec with psk := t.sec.psk }, out := t.out, cnt := t.cnt, free := t.free }) ∧
  (∀ (via : Via) (slot : BitVec 8) (ciphertext : Bytes) (s : State), s.serves = true → 3 < slot.toNat ∨ ciphertext.length ≠ 1568 →
    exec (.provisionPsk via slot ciphertext) s = .next ((s.requestVia via).answerVia via (leBytes 1 0x10 ++ []))) ∧
  (∀ (via : Via) (slot signer : BitVec 8) (pubkey msg signature : Bytes) (s : State), s.serves = true →
    Answers (exec (.revokeSlot via slot signer pubkey msg signature) s) fun t =>
      t.sec.keyRevoked = (if slot.toNat ≤ 3 ∧ s.revocationOk slot.toNat signer.toNat pubkey msg signature = true ∧
          s.activeSigner ≠ slot.toNat ∧ s.sec.keyRevoked ||| BitVec.ofNat 4 (2 ^ slot.toNat) ≠ 0xF
        then s.sec.keyRevoked ||| BitVec.ofNat 4 (2 ^ slot.toNat) else s.sec.keyRevoked) ∧ s.RegsBut t [R.SEC_STATUS] ∧
      t = { s with regs := t.regs, sec := { s.sec with keyRevoked := t.sec.keyRevoked }, out := t.out, cnt := t.cnt, free := t.free }) ∧
  (∀ (via : Via) (force : Bool) (s : State), s.serves = true → s.recoveryRuns = false → force = true →
    Answers (exec (.commitSvn via force) s) fun t => t.sec.svnFuse = max s.sec.svnFuse (s.fld R.SEC_FW F.SEC_FW_SVN) ∧
      s.RegsBut t [R.SEC_STATUS] ∧
      t = { s with regs := t.regs, sec := { s.sec with svnFuse := t.sec.svnFuse }, out := t.out, cnt := t.cnt, free := t.free }) ∧
  (∀ (via : Via) (reg : BitVec 8) (digest : Bytes) (s : State), s.serves = true → 4 ≤ reg.toNat → reg.toNat ≤ 7 → digest.length = 48 →
    exec (.extendMeasurement via reg digest) s =
      .next (((s.requestVia via).extendDigest reg.toNat digest).answerVia via (leBytes 1 0 ++ []))) ∧
  (∀ (via : Via) (reg : BitVec 8) (digest : Bytes) (s : State), s.serves = true → reg.toNat < 4 ∨ 7 < reg.toNat ∨ digest.length ≠ 48 →
    exec (.extendMeasurement via reg digest) s = .next ((s.requestVia via).answerVia via (leBytes 1 0x10 ++ [])))

/-- A session stands against a provisioned slot whose PSK accepts the message, and nothing changes otherwise; measurements are
answered; within a session a key is programmed into the idle set of a direction, a programmed set becomes active, and a set that
stops is gone. IDE_ACTIVE reads 1 exactly when every direction of the three protocols has an active set. -/
def Obligations.SpdmAndIdeKeys : Prop :=
  (∀ (i3c : Bool) (slot version : BitVec 8) (msg : Bytes) (k : BitVec 384) (s : State), s.serves = true →
    sget none s.sec.psk slot.toNat = some k → version = 0x12 ∨ version = 0x13 →
    exec (.pskExchange i3c slot version msg) s = .next (if Config.pskAccepts k msg = true then
        { (s.count (ctrHif 10)) with sec := { s.sec with sessions := s.sec.sessions ++ [(s.sec.nextSession, slot.toNat)],
                                                         nextSession := s.sec.nextSession + 1 } }.answerMctp i3c (Config.pskResponse k msg)
      else (s.count (ctrHif 10)).answerMctp i3c spdmError)) ∧
  (∀ (i3c : Bool) (index : BitVec 8) (s : State), s.serves = true → 1 ≤ index.toNat → index.toNat ≤ 8 →
    exec (.getMeasurements i3c index) s = .next ((s.count (ctrHif 10)).answerMctp i3c (s.measure (index.toNat - 1)))) ∧
  (∀ (i3c : Bool) (session : Nat) (protocol : Fin 3) (tx : Bool) (set : Fin 2) (key : Bytes) (s : State), s.serves = true →
    s.sessionOk session = true → sget 0 s.sec.ideActive (ideDir protocol tx) ≠ set.val + 1 →
    exec (.keyProg i3c session protocol tx set key) s =
      let keys := sset [] s.sec.ideKeys (2 * ideDir protocol tx + set.val) key
      .next (({ (s.count (ctrHif 10)) with sec := { s.sec with ideKeys := keys } } : State).answerMctp i3c (leBytes 1 0))) ∧
  (∀ (i3c : Bool) (session : Nat) (protocol : Fin 3) (tx : Bool) (set : Fin 2) (s : State), s.serves = true →
    s.sessionOk session = true → sget [] s.sec.ideKeys (2 * ideDir protocol tx + set.val) ≠ [] →
    exec (.kSetGo i3c session protocol tx set) s =
      let active := sset 0 s.sec.ideActive (ideDir protocol tx) (set.val + 1)
      .next (({ (s.count (ctrHif 10)) with sec := { s.sec with ideActive := active } } : State).ideBit.answerMctp i3c (leBytes 1 0))) ∧
  (∀ (i3c : Bool) (session : Nat) (protocol : Fin 3) (tx : Bool) (set : Fin 2) (s : State), s.serves = true →
    s.sessionOk session = true → swf (fun _ => []) s.sec.ideKeys = true → swf (fun _ => 0) s.sec.ideActive = true →
    Answers (exec (.kSetStop i3c session protocol tx set) s) fun t =>
      sget [] t.sec.ideKeys (2 * ideDir protocol tx + set.val) = [] ∧ sget 0 t.sec.ideActive (ideDir protocol tx) ≠ set.val + 1 ∧
      (∀ d, d ≠ ideDir protocol tx → sget 0 t.sec.ideActive d = sget 0 s.sec.ideActive d) ∧ s.RegsBut t [R.HIF_LINK_STATUS] ∧
      t.mem = s.mem ∧ t.dxn = s.dxn) ∧
  (∀ s : State, s.regsWf = true → s.ideBit.flag R.HIF_LINK_STATUS F.HIF_LINK_STATUS_IDE_ACTIVE =
      ((List.range 6).all fun d => sget 0 s.sec.ideActive d != 0) ∧ s.RegsBut s.ideBit [R.HIF_LINK_STATUS]) ∧
  (∀ (i3c : Bool) (session : Nat) (protocol : Fin 3) (tx : Bool) (set : Fin 2) (key : Bytes) (s : State), s.serves = true →
    s.sessionOk session = false → exec (.keyProg i3c session protocol tx set key) s =
      .next ((s.count (ctrHif 10)).answerMctp i3c (leBytes 1 1)))

/-- An issued scalar instruction leaves its context at the next index with the destination register, the destination predicate
and the floating flags that Tables 5.2 and 5.3 give, and nothing else changed. Integer operands are read at the width of the
type, exact results are cut or saturated and sign-extended; a floating result is rounded once. g0 discards what is written to
it. A zero integer divisor raises INTEGER_DIVIDE. -/
def Obligations.ScalarInstructions : Prop :=
  (∀ (c : Ctx) (body : BitVec 56) (s : State) (w : Nat), w = dxnWord 0x01 body → s.Runs c w [] false →
    Answers (exec (.dxnAdd c body) s) (s.Steps c (s.setCtx c ((s.ctx c).arith w (· + ·) Fp.add)))) ∧
  (∀ (c : Ctx) (body : BitVec 56) (s : State) (w : Nat), w = dxnWord 0x02 body → s.Runs c w [] false →
    Answers (exec (.dxnSub c body) s) (s.Steps c (s.setCtx c ((s.ctx c).arith w (· - ·) (fun a b => a.add b.negate))))) ∧
  (∀ (c : Ctx) (body : BitVec 56) (s : State) (w : Nat), w = dxnWord 0x03 body → s.Runs c w [] false →
    Answers (exec (.dxnMul c body) s) (s.Steps c (s.setCtx c ((s.ctx c).arith w (· * ·) Fp.mul)))) ∧
  (∀ (c : Ctx) (body : BitVec 56) (s : State) (w : Nat), w = dxnWord 0x07 body → s.Runs c w [] false →
    Answers (exec (.dxnMin c body) s) (s.Steps c (s.setCtx c ((s.ctx c).arith w min (Fp.minNum false))))) ∧
  (∀ (c : Ctx) (body : BitVec 56) (s : State) (w : Nat), w = dxnWord 0x08 body → s.Runs c w [] false →
    Answers (exec (.dxnMax c body) s) (s.Steps c (s.setCtx c ((s.ctx c).arith w max (Fp.minNum true))))) ∧
  (∀ (c : Ctx) (body : BitVec 56) (s : State) (w : Nat), w = dxnWord 0x05 body → s.Runs c w [] false → tyIsInt (wT w) = false ∨ scNat (wT w) ((s.ctx c).reg (wB w)) ≠ 0 →
    Answers (exec (.dxnDiv c body) s) (s.Steps c (s.setCtx c ((s.ctx c).arith w Int.tdiv Fp.div)))) ∧
  (∀ (c : Ctx) (body : BitVec 56) (s : State) (w : Nat), w = dxnWord 0x05 body → s.Runs c w [] false → tyIsInt (wT w) = true →
    scNat (wT w) ((s.ctx c).reg (wB w)) = 0 → Answers (exec (.dxnDiv c body) s) (s.Raises c 0xD 0)) ∧
  (∀ (c : Ctx) (body : BitVec 56) (s : State) (w : Nat), w = dxnWord 0x06 body → s.Runs c w [] false → tyIsInt (wT w) = false ∨ scNat (wT w) ((s.ctx c).reg (wB w)) ≠ 0 →
    Answers (exec (.dxnRem c body) s) (s.Steps c (s.setCtx c ((s.ctx c).arith w Int.tmod Fp.div)))) ∧
  (∀ (c : Ctx) (body : BitVec 56) (s : State) (w : Nat), w = dxnWord 0x06 body → s.Runs c w [] false → tyIsInt (wT w) = true →
    scNat (wT w) ((s.ctx c).reg (wB w)) = 0 → Answers (exec (.dxnRem c body) s) (s.Raises c 0xD 0)) ∧
  (∀ (c : Ctx) (body : BitVec 56) (s : State) (w : Nat), w = dxnWord 0x04 body → s.Runs c w [] false →
    Answers (exec (.dxnMulh c body) s) (s.Steps c (s.setCtx c ((s.ctx c).putInt (wD w) (wT w) false (mulHigh (wT w) (bitOf (wM w) 0) ((s.ctx c).reg (wA w)) ((s.ctx c).reg (wB w))))))) ∧
  (∀ (c : Ctx) (body : BitVec 56) (s : State) (w : Nat), w = dxnWord 0x09 body → s.Runs c w [] false →
    Answers (exec (.dxnAnd c body) s) (s.Steps c (s.setCtx c ((s.ctx c).bitwise w (· &&& ·))))) ∧
  (∀ (c : Ctx) (body : BitVec 56) (s : State) (w : Nat), w = dxnWord 0x0A body → s.Runs c w [] false →
    Answers (exec (.dxnOr c body) s) (s.Steps c (s.setCtx c ((s.ctx c).bitwise w (· ||| ·))))) ∧
  (∀ (c : Ctx) (body : BitVec 56) (s : State) (w : Nat), w = dxnWord 0x0B body → s.Runs c w [] false →
    Answers (exec (.dxnXor c body) s) (s.Steps c (s.setCtx c ((s.ctx c).bitwise w (· ^^^ ·))))) ∧
  (∀ (c : Ctx) (body : BitVec 56) (s : State) (w : Nat), w = dxnWord 0x0C body → s.Runs c w [] false →
    Answers (exec (.dxnShl c body) s) (s.Steps c (s.setCtx c ((s.ctx c).shift w shl)))) ∧
  (∀ (c : Ctx) (body : BitVec 56) (s : State) (w : Nat), w = dxnWord 0x0D body → s.Runs c w [] false →
    Answers (exec (.dxnShr c body) s) (s.Steps c (s.setCtx c ((s.ctx c).shift w shr)))) ∧
  (∀ (c : Ctx) (body : BitVec 56) (s : State) (w : Nat), w = dxnWord 0x0E body → s.Runs c w [] false →
    Answers (exec (.dxnSra c body) s) (s.Steps c (s.setCtx c ((s.ctx c).shift w sra)))) ∧
  (∀ (c : Ctx) (body : BitVec 56) (s : State) (w : Nat), w = dxnWord 0x0F body → s.Runs c w [] false →
    Answers (exec (.dxnFma c body) s) (s.Steps c (s.setCtx c ((s.ctx c).putFp (wD w) (wT w) (Fp.fma (scFp (wT w) ((s.ctx c).reg (wA w))) (scFp (wT w) ((s.ctx c).reg (wB w)))
      (scFp (wT w) ((s.ctx c).reg (wC w)))))))) ∧
  (∀ (c : Ctx) (body : BitVec 56) (s : State) (w : Nat), w = dxnWord 0x10 body → s.Runs c w [] false →
    Answers (exec (.dxnCmp c body) s) (s.Steps c (s.setCtx c (let r := scCmp (wT w) (wM w % 8) ((s.ctx c).reg (wA w)) ((s.ctx c).reg (wB w))
      ((s.ctx c).setPred (wD w) r.1).addFlags r.2)))) ∧
  (∀ (c : Ctx) (body : BitVec 56) (s : State) (w : Nat), w = dxnWord 0x11 body → s.Runs c w [] false →
    Answers (exec (.dxnSel c body) s) (s.Steps c (s.setCtx c ((s.ctx c).setReg (wD w) (if (s.ctx c).pred (wC w) then (s.ctx c).reg (wA w) else (s.ctx c).reg (wB w)))))) ∧
  (∀ (c : Ctx) (body : BitVec 56) (s : State) (w : Nat), w = dxnWord 0x12 body → s.Runs c w [] false →
    Answers (exec (.dxnCvt c body) s) (s.Steps c (s.setCtx c ((s.ctx c).convert w)))) ∧
  (∀ (c : Ctx) (body : BitVec 56) (s : State) (w : Nat), w = dxnWord 0x13 body → s.Runs c w [] false →
    Answers (exec (.dxnMovi c body) s) (s.Steps c (s.setCtx c ((s.ctx c).setReg (wD w) (BitVec.ofInt 64 (sextImm w)))))) ∧
  (∀ (c : Ctx) (body : BitVec 56) (s : State) (w : Nat), w = dxnWord 0x14 body → s.Runs c w [] false →
    Answers (exec (.dxnMovhi c body) s) (s.Steps c (s.setCtx c ((s.ctx c).setReg (wD w) (BitVec.ofNat 64 (((s.ctx c).reg (wA w)).toNat % 2 ^ 32 + iImm w * 2 ^ 32)))))) ∧
  (∀ (c : Ctx) (body : BitVec 56) (s : State) (w : Nat), w = dxnWord 0x15 body → s.Runs c w [] false →
    Answers (exec (.dxnAddi c body) s) (s.Steps c (s.setCtx c ((s.ctx c).putInt (wD w) (iT w) (bitOf (iM w) 8) (scInt (iT w) ((s.ctx c).reg (wA w)) + sextImm w))))) ∧
  (∀ (c : Ctx) (body : BitVec 56) (s : State) (w : Nat), w = dxnWord 0x16 body → s.Runs c w [] false →
    Answers (exec (.dxnAndi c body) s) (s.Steps c (s.setCtx c ((s.ctx c).bitwiseImm w (· &&& ·))))) ∧
  (∀ (c : Ctx) (body : BitVec 56) (s : State) (w : Nat), w = dxnWord 0x17 body → s.Runs c w [] false →
    Answers (exec (.dxnOri c body) s) (s.Steps c (s.setCtx c ((s.ctx c).bitwiseImm w (· ||| ·))))) ∧
  (∀ (c : Ctx) (body : BitVec 56) (s : State) (w : Nat), w = dxnWord 0x18 body → s.Runs c w [] false →
    Answers (exec (.dxnXori c body) s) (s.Steps c (s.setCtx c ((s.ctx c).bitwiseImm w (· ^^^ ·))))) ∧
  (∀ (c : Ctx) (body : BitVec 56) (s : State) (w : Nat), w = dxnWord 0x19 body → s.Runs c w [] false →
    Answers (exec (.dxnShli c body) s) (s.Steps c (s.setCtx c ((s.ctx c).shiftImm w shl)))) ∧
  (∀ (c : Ctx) (body : BitVec 56) (s : State) (w : Nat), w = dxnWord 0x1A body → s.Runs c w [] false →
    Answers (exec (.dxnShri c body) s) (s.Steps c (s.setCtx c ((s.ctx c).shiftImm w shr)))) ∧
  (∀ (c : Ctx) (body : BitVec 56) (s : State) (w : Nat), w = dxnWord 0x1B body → s.Runs c w [] false →
    Answers (exec (.dxnSrai c body) s) (s.Steps c (s.setCtx c ((s.ctx c).shiftImm w sra)))) ∧
  (∀ (c : Ctx) (body : BitVec 56) (s : State) (w : Nat), w = dxnWord 0x1C body → s.Runs c w [] false →
    Answers (exec (.dxnCmpi c body) s) (s.Steps c (s.setCtx c ((s.ctx c).setPred (wD w) (intCmp (tyBits (iT w)) (iM w % 8) ((s.ctx c).reg (wA w)).toNat (wrapInt 64 (sextImm w))))))) ∧
  (∀ (c : Ctx) (body : BitVec 56) (s : State) (w : Nat), w = dxnWord 0x1D body → s.Runs c w [] false →
    Answers (exec (.dxnPlog c body) s) (s.Steps c (s.setCtx c ((s.ctx c).setPred (wD w) (plogOp (wM w % 4) ((s.ctx c).pred (wA w)) ((s.ctx c).pred (wB w))))))) ∧
  (∀ (c : Ctx) (body : BitVec 56) (s : State) (w : Nat), w = dxnWord 0x1E body → s.Runs c w [] false →
    Answers (exec (.dxnPmov c body) s) (s.Steps c (s.setCtx c (if wM w = 0 then (s.ctx c).setReg (wD w) (BitVec.ofNat 64 (b2n ((s.ctx c).pred (wA w))))
      else (s.ctx c).setPred (wD w) (decide ((s.ctx c).reg (wA w) ≠ 0)))))) ∧
  (∀ (x : Context) (w : Nat) (fi : Int → Int → Int) (ff : Fp → Fp → Fp × Flags), tyIsInt (wT w) = true →
    x.arith w fi ff = x.setReg (wD w) (scPut (wT w) (fitInt (tyBits (wT w)) (wSAT w)
      (fi (scInt (wT w) (x.reg (wA w))) (scInt (wT w) (x.reg (wB w))))))) ∧
  (∀ (x : Context) (w : Nat) (fi : Int → Int → Int) (ff : Fp → Fp → Fp × Flags), tyIsInt (wT w) = false →
    x.arith w fi ff = (let r := ff (scFp (wT w) (x.reg (wA w))) (scFp (wT w) (x.reg (wB w)))
      let e := (tyFmt (wT w)).enc .rne r.1
      { x.setReg (wD w) (BitVec.ofNat 64 e.1) with fflags := x.fflags ||| (r.2 ||| e.2) })) ∧
  (∀ (x : Context) (d : Nat) (v : Word), swf (fun _ => 0) x.g = true → (∀ i, (x.setReg d v).reg i = if i = d ∧ d ≠ 0 then v else x.reg i) ∧
    x.setReg d v = { x with g := (x.setReg d v).g }) ∧
  (∀ (bits : Nat) (v : Int), 0 < bits → (signedOf bits (fitInt bits true v) = max (-(2 ^ (bits - 1))) (min (2 ^ (bits - 1) - 1) v)) ∧
    (signedOf bits (fitInt bits false v) - v) % 2 ^ bits = 0 ∧ fitInt bits false v < 2 ^ bits) ∧
  (∀ (t n : Nat), t < 3 → n < 2 ^ tyBits t → scInt t (scPut t n) = signedOf (tyBits t) n ∧ (scPut t n).toInt = signedOf (tyBits t) n) ∧
  (∀ (t : Nat) (v : Word) (n : Nat), t = 1 ∨ t = 2 → scNat t (shl t v n) = scNat t v * 2 ^ (n % tyBits t) % 2 ^ tyBits t ∧
    scNat t (shr t v n) = scNat t v / 2 ^ (n % tyBits t) ∧ scInt t (sra t v n) = scInt t v / 2 ^ (n % tyBits t))

/-- An issued vector instruction of a tenon leaves its context at the next index with one v register (or g register) of that
tenon changed, its flags added and, under SR, its generator advanced by one step for each eight roundings; each element of the
result is the one that Table 5.4 gives, of the matching elements of the operands. -/
def Obligations.VectorInstructions : Prop :=
  (∀ (c : Ctx) (body : BitVec 56) (s : State) (w : Nat), w = dxnWord 0x20 body → s.Runs c w (locksDAB w) false →
    Answers (exec (.dxnVadd c body) s) (s.Steps c (s.vPut c w (s.vArith c w (· + ·) Fp.add)))) ∧
  (∀ (c : Ctx) (body : BitVec 56) (s : State) (w : Nat), w = dxnWord 0x21 body → s.Runs c w (locksDAB w) false →
    Answers (exec (.dxnVsub c body) s) (s.Steps c (s.vPut c w (s.vArith c w (· - ·) fun a b => a.add b.negate)))) ∧
  (∀ (c : Ctx) (body : BitVec 56) (s : State) (w : Nat), w = dxnWord 0x22 body → s.Runs c w (locksDAB w) false →
    Answers (exec (.dxnVmul c body) s) (s.Steps c (s.vPut c w (s.vArith c w (· * ·) Fp.mul)))) ∧
  (∀ (c : Ctx) (body : BitVec 56) (s : State) (w : Nat), w = dxnWord 0x24 body → s.Runs c w (locksDAB w) false →
    Answers (exec (.dxnVmin c body) s) (s.Steps c (s.vPut c w (s.vPick c w min (Fp.minNum false))))) ∧
  (∀ (c : Ctx) (body : BitVec 56) (s : State) (w : Nat), w = dxnWord 0x25 body → s.Runs c w (locksDAB w) false →
    Answers (exec (.dxnVmax c body) s) (s.Steps c (s.vPut c w (s.vPick c w max (Fp.minNum true))))) ∧
  (∀ (c : Ctx) (body : BitVec 56) (s : State) (w : Nat), w = dxnWord 0x26 body → s.Runs c w (locksDAB w) false →
    Answers (exec (.dxnVdiv c body) s) (s.Steps c (s.vPut c w (s.vArith c w Int.tdiv Fp.div)))) ∧
  (∀ (c : Ctx) (body : BitVec 56) (s : State) (w : Nat), w = dxnWord 0x28 body → s.Runs c w (locksDAB w) false →
    Answers (exec (.dxnVand c body) s) (s.Steps c (s.vPut c w (s.vBits c w (· &&& ·))))) ∧
  (∀ (c : Ctx) (body : BitVec 56) (s : State) (w : Nat), w = dxnWord 0x29 body → s.Runs c w (locksDAB w) false →
    Answers (exec (.dxnVor c body) s) (s.Steps c (s.vPut c w (s.vBits c w (· ||| ·))))) ∧
  (∀ (c : Ctx) (body : BitVec 56) (s : State) (w : Nat), w = dxnWord 0x2A body → s.Runs c w (locksDAB w) false →
    Answers (exec (.dxnVxor c body) s) (s.Steps c (s.vPut c w (s.vBits c w (· ^^^ ·))))) ∧
  (∀ (c : Ctx) (body : BitVec 56) (s : State) (w : Nat), w = dxnWord 0x2B body → s.Runs c w (locksDAB w) false →
    Answers (exec (.dxnVshl c body) s) (s.Steps c (s.vPut c w (s.vShift c w elShl)))) ∧
  (∀ (c : Ctx) (body : BitVec 56) (s : State) (w : Nat), w = dxnWord 0x2C body → s.Runs c w (locksDAB w) false →
    Answers (exec (.dxnVshr c body) s) (s.Steps c (s.vPut c w (s.vShift c w elShr)))) ∧
  (∀ (c : Ctx) (body : BitVec 56) (s : State) (w : Nat), w = dxnWord 0x2D body → s.Runs c w (locksDAB w) false →
    Answers (exec (.dxnVsra c body) s) (s.Steps c (s.vPut c w (s.vShift c w elSra)))) ∧
  (∀ (c : Ctx) (body : BitVec 56) (s : State) (w : Nat), w = dxnWord 0x2E body → s.Runs c w (locksDAB w) false →
    Answers (exec (.dxnVcmp c body) s) (s.Steps c (s.vPut c w (s.vCmp c w)))) ∧
  (∀ (c : Ctx) (body : BitVec 56) (s : State) (w : Nat), w = dxnWord 0x23 body → s.Runs c w (vLocks (some (wD w)) (some (wA w)) (some (wB w)) (some (wC w))) false →
    Answers (exec (.dxnVfma c body) s) (s.Steps c (s.vPut c w (s.vFma c w)))) ∧
  (∀ (c : Ctx) (body : BitVec 56) (s : State) (w : Nat), w = dxnWord 0x27 body → s.Runs c w (vLocks (some (wD w)) (some (wA w)) none none) false →
    Answers (exec (.dxnVsqrt c body) s) (s.Steps c (s.vPut c w (s.vSqrt c w)))) ∧
  (∀ (c : Ctx) (body : BitVec 56) (s : State) (w : Nat), w = dxnWord 0x2F body → s.Runs c w (vLocks (some (wD w)) (some (wA w)) (some (wB w)) (some (wC w))) false →
    Answers (exec (.dxnVsel c body) s) (s.Steps c (s.vPut c w (s.vSel c w)))) ∧
  (∀ (c : Ctx) (body : BitVec 56) (s : State) (w : Nat), w = dxnWord 0x30 body → s.Runs c w (vLocks (some (wD w)) (some (wA w)) none none) false →
    Answers (exec (.dxnVcvt c body) s) (s.Steps c (s.vPut c w (s.vConvert c w)))) ∧
  (∀ (c : Ctx) (body : BitVec 56) (s : State) (w : Nat), w = dxnWord 0x31 body → s.Runs c w (vLocks (some (wD w)) none none none) false →
    Answers (exec (.dxnVbcast c body) s) (s.Steps c (s.vPut c w (s.vBcast c w)))) ∧
  (∀ (c : Ctx) (body : BitVec 56) (s : State) (w : Nat), w = dxnWord 0x33 body → s.Runs c w (vLocks (some (wD w)) none none none) false →
    Answers (exec (.dxnVins c body) s) (s.Steps c (s.vPut c w (s.vInsert c w)))) ∧
  (∀ (c : Ctx) (body : BitVec 56) (s : State) (w : Nat), w = dxnWord 0x32 body → s.Runs c w [lockV (wA w)] false →
    Answers (exec (.dxnVext c body) s) (s.Steps c (s.setCtx c ((s.ctx c).setReg (wD w) (elWord (wT w) (vEl (wT w) (s.vreg c (wA w)) (((s.ctx c).reg (wB w)).toNat % vCount (wT w)))))))) ∧
  (∀ (c : Ctx) (body : BitVec 56) (s : State) (w : Nat), w = dxnWord 0x34 body → s.Runs c w [lockV (wA w)] false →
    Answers (exec (.dxnVred c body) s) (s.Steps c (s.setCtx c (s.vReduce c w)))) ∧
  (∀ (c : Ctx) (body : BitVec 56) (s : State) (w : Nat), w = dxnWord 0x35 body → s.Runs c w [lockV (wD w)] false →
    Answers (exec (.dxnVrand c body) s) (s.Steps c ((s.setV c (wD w) (BitVec.ofNat 2048 ((List.range 16).foldr (fun k a => a * 2 ^ 128 + (s.ctx c).genStep k) 0))).setCtx c
      ((s.ctx c).genAdvance 16)))) ∧
  (∀ (c : Ctx) (w : Nat) (r : BitVec 2048 × Flags × Nat) (s : State), swf (fun _ => 0) s.dxn.vregs = true → (s.vPut c w r).vreg c (wD w) = r.1 ∧
    (∀ v, v ≠ wD w → (s.vPut c w r).vreg c v = s.vreg c v) ∧
    s.vPut c w r = { s with dxn := { s.dxn with vregs := (s.vPut c w r).dxn.vregs, ctxs := (s.vPut c w r).dxn.ctxs } }) ∧
  (∀ (c : Ctx) (w : Nat) (fi : Int → Int → Int) (ff : Fp → Fp → Fp × Flags) (i : Nat) (s : State), i < vCount (wT w) →
    tyIsInt (wT w) = true → vEl (wT w) (s.vArith c w fi ff).1 i =
      fitInt (elBits (wT w)) (wSAT w) (fi (vInt (wT w) (s.vreg c (wA w)) i) (vInt (wT w) (s.vreg c (wB w)) i)) ∧ (s.vArith c w fi ff).2 = (0, 0)) ∧
  (∀ (c : Ctx) (w : Nat) (fi : Int → Int → Int) (ff : Fp → Fp → Fp × Flags) (i : Nat) (s : State), i < vCount (wT w) →
    tyIsInt (wT w) = false → 3 ≤ wT w → wT w ≤ 5 → vEl (wT w) (s.vArith c w fi ff).1 i =
      ((s.ctx c).vRound w i (ff (vFp (wT w) (s.vreg c (wA w)) i) (vFp (wT w) (s.vreg c (wB w)) i))).1 % 2 ^ elBits (wT w) ∧
    (s.vArith c w fi ff).2.2 = vCount (wT w)) ∧
  (∀ (c : Ctx) (w i : Nat) (s : State), i < vCount (wT w) → (s.vSel c w).1.toNat / 2 ^ (elBits (wT w) * i) % 2 ^ elBits (wT w) =
      (if vEl (wT w) (s.vreg c (wC w)) i ≠ 0 then vEl (wT w) (s.vreg c (wA w)) i else vEl (wT w) (s.vreg c (wB w)) i) ∧
    vEl (wT w) (s.vCmp c w).1 i = (if (elCmp (wT w) (wM w % 8) (vEl (wT w) (s.vreg c (wA w)) i) (vEl (wT w) (s.vreg c (wB w)) i)).1
      then 2 ^ elBits (wT w) - 1 else 0))

/-- MMA issues as a long operation that locks its accumulator and carries the exact sums of products of its tiles, each added to
its lane and rounded once (FP32: once a product), and occupies the matrix unit for the cycles of Table 5.6 at the pace of its
section; the other instructions of Table 5.5 write one t register, accumulator, or v register of their tenon at once. Bytes of a
t register beyond a narrower tile are free (log entry 18), and a value that no E8M0 scale equals becomes a free one (log entry
80). -/
def Obligations.TileInstructions : Prop :=
  (∀ (c : Ctx) (body : BitVec 56) (s : State) (w : Nat), w = dxnWord 0x40 body →
    s.Runs c w [lockA (wD w), lockT (wA w), lockT (wB w)] true → Answers (exec (.dxnMma c body) s) fun t =>
      let u := if wM w % 16 = 0 then wT w else wM w % 16
      let old := if bitOf (wM w) 4 then 0 else s.areg c (wD w)
      let r := elements 1024 fun n => mmaEl (s.ctx c) (wT w) u (wSR w) (wSAT w) (s.treg c (wA w)) (s.treg c (wB w)) (aEl old n) n
      let x := (s.ctx c).afterRoundings (wSR w && wT w != 0) (if wT w = 5 then 32768 else 1024)
      s.Steps c (((s.setCtx c x).countMma c (wT w) u).addLong c (.areg (wD w) (aMake r.1) r.2) [lockA (wD w)]) t) ∧
  (∀ (q : Fin 4) (row : Fin 30) (col : Fin 32) (n : Fin 4) (t u : Nat) (s : State), ∀ c : Ctx, c = .t q row col n →
    s.countMma c t u = (let cyc := ceilDiv (mmaCycles t u * 64) (max 1 (s.paceOf q (col / 8)))
      (s.countBy (ctrTenon (tenonOf c) 1) cyc).countBy (ctrTenon (tenonOf c) 2) (cyc - mmaCycles t u))) ∧
  (∀ (c : Ctx) (body : BitVec 56) (s : State) (w : Nat), w = dxnWord 0x41 body → s.Runs c w [lockA (wD w)] false →
    Answers (exec (.dxnAzero c body) s) (s.Steps c (s.setA c (wD w) 0))) ∧
  (∀ (c : Ctx) (body : BitVec 56) (s : State) (w : Nat), w = dxnWord 0x42 body → s.Runs c w [lockA (wD w), lockT (wA w)] false →
    Answers (exec (.dxnAload c body) s) (s.Steps c (let r := elements 1024 (widenEl (wT w) (s.treg c (wA w)))
      (s.setA c (wD w) (aMake r.1)).setCtx c ((s.ctx c).addFlags r.2)))) ∧
  (∀ (c : Ctx) (body : BitVec 56) (s : State) (w : Nat), w = dxnWord 0x43 body → s.Runs c w [lockT (wD w), lockA (wA w)] false →
    Answers (exec (.dxnAcvt c body) s) (s.Steps c (if wT w = 0 then
        s.putTile c (wD w) 0 ((List.range 1024).map fun i => fitInt 8 (wSAT w) (signedOf 32 (aEl (s.areg c (wA w)) i))) []
      else
        let r := encodeTile (s.ctx c) (wT w) (wSR w) ((List.range 1024).map fun i => fmtFP32.dec (aEl (s.areg c (wA w)) i))
        (s.putTile c (wD w) (wT w) r.1 r.2.1).setCtx c (((s.ctx c).addFlags r.2.2).afterRoundings (wSR w) 1024)))) ∧
  (∀ (c : Ctx) (body : BitVec 56) (s : State) (w : Nat), w = dxnWord 0x44 body → s.Runs c w [lockV (wD w), lockT (wA w)] false →
    Answers (exec (.dxnTrd c body) s) (s.Steps c (let r := elements 32 fun i => widenEl (wT w) (s.treg c (wA w)) (32 * (((s.ctx c).reg (wB w)).toNat % 32) + i)
      (s.setV c (wD w) (lanes32 r.1)).setCtx c ((s.ctx c).addFlags r.2)))) ∧
  (∀ (c : Ctx) (body : BitVec 56) (s : State) (w : Nat), w = dxnWord 0x45 body → s.Runs c w [lockT (wD w), lockV (wA w)] false →
    tyMx (wT w) = true → Answers (exec (.dxnTwr c body) s) fun t =>
      let row := ((s.ctx c).reg (wB w)).toNat % 32
      let r := encodeRow (s.ctx c) (wT w) false 0 ((List.range 32).map fun i => fmtFP32.dec (vEl 1 (s.vreg c (wA w)) i))
      s.Steps c ((s.setT c (wD w) (tMake (wT w) (replaceAt ((List.range 1024).map (tCode (wT w) (s.treg c (wD w)))) (32 * row) r.1)
        (((List.range 32).map (tScale (s.treg c (wD w)))).set row r.2.1))).setCtx c ((s.ctx c).addFlags r.2.2)) t) ∧
  (∀ (c : Ctx) (body : BitVec 56) (s : State) (w : Nat), w = dxnWord 0x45 body → s.Runs c w [lockT (wD w), lockV (wA w)] false →
    tyMx (wT w) = false → Answers (exec (.dxnTwr c body) s) fun t =>
      let row := ((s.ctx c).reg (wB w)).toNat % 32
      let r : List Nat × Nat × Flags := if wT w = 0
        then ((List.range 32).map fun i => fitInt 8 false (signedOf 32 (vEl 1 (s.vreg c (wA w)) i)), 0, 0)
        else encodeRow (s.ctx c) (wT w) false 0 ((List.range 32).map fun i => fmtFP32.dec (vEl 1 (s.vreg c (wA w)) i))
      let lo := elBits (wT w) * 32 * row
      let hi := lo + elBits (wT w) * 32
      let b := (s.treg c (wD w)).toNat
      let seg := r.1.foldr (fun y a => a * 2 ^ elBits (wT w) + y % 2 ^ elBits (wT w)) 0
      s.Steps c ((s.setT c (wD w) (BitVec.ofNat 32768 (b % 2 ^ lo + seg * 2 ^ lo + b / 2 ^ hi * 2 ^ hi))).setCtx c
        ((s.ctx c).addFlags r.2.2)) t) ∧
  (∀ (c : Ctx) (body : BitVec 56) (s : State) (w : Nat), w = dxnWord 0x46 body → s.Runs c w [lockV (wD w), lockA (wA w)] false →
    Answers (exec (.dxnArd c body) s) (s.Steps c (s.setV c (wD w) (lanes32 ((List.range 32).map fun i => aEl (s.areg c (wA w)) (32 * (((s.ctx c).reg (wB w)).toNat % 32) + i)))))) ∧
  (∀ (c : Ctx) (body : BitVec 56) (s : State) (w : Nat), w = dxnWord 0x47 body → s.Runs c w [lockA (wD w), lockV (wA w)] false →
    Answers (exec (.dxnAwr c body) s) (s.Steps c (s.setA c (wD w) (aMake (replaceAt ((List.range 1024).map (aEl (s.areg c (wD w)))) (32 * (((s.ctx c).reg (wB w)).toNat % 32))
      ((List.range 32).map (vEl 1 (s.vreg c (wA w))))))))) ∧
  (∀ (c : Ctx) (body : BitVec 56) (s : State) (w : Nat), w = dxnWord 0x48 body → s.Runs c w [lockT (wD w), lockT (wA w)] false →
    Answers (exec (.dxnTtrans c body) s) (s.Steps c (s.putTile c (wD w) (wT w) ((List.range 1024).map fun n => tCode (wT w) (s.treg c (wA w)) (32 * (n % 32) + n / 32)) []))) ∧
  (∀ (c : Ctx) (body : BitVec 56) (s : State) (w : Nat), w = dxnWord 0x49 body → s.Runs c w [lockT (wD w), lockT (wA w)] false →
    Answers (exec (.dxnTcvt c body) s) (s.Steps c (if wT w = 0 ∧ wM w % 16 = 0 then s.putTile c (wD w) 0 ((List.range 1024).map (tCode 0 (s.treg c (wA w)))) []
      else
        let r := encodeTile (s.ctx c) (wM w % 16) (wSR w) ((List.range 1024).map fun i =>
          if wT w = 0 then Fp.ofInt (signedOf 8 (tCode 0 (s.treg c (wA w)) i)) else tFp (wT w) (s.treg c (wA w)) i)
        (s.putTile c (wD w) (wM w % 16) r.1 r.2.1).setCtx c (((s.ctx c).addFlags r.2.2).afterRoundings (wSR w) 1024)))) ∧
  (∀ (c : Ctx) (body : BitVec 56) (s : State) (w : Nat), w = dxnWord 0x4A body → s.Runs c w [lockT (wD w)] false →
    Answers (exec (.dxnTzero c body) s) (s.Steps c (s.setT c (wD w) 0))) ∧
  (∀ (c : Ctx) (body : BitVec 56) (s : State) (w : Nat), w = dxnWord 0x4B body → s.Runs c w [lockT (wD w)] false →
    Answers (exec (.dxnTgen c body) s) (s.Steps c (s.putTile c (wD w) (wT w) ((List.range 1024).map fun n => oneCode (wT w)
      (tgenBit ((s.ctx c).reg (wA w)).toNat (((s.ctx c).reg (wB w)).toNat * 2 ^ 64 + ((s.ctx c).reg (wC w)).toNat) n)) (List.replicate 32 0x7F)))) ∧
  (∀ (c : Ctx) (d t : Nat) (codes scales : List Nat) (s : State), tyMx t = true ∨ elBits t = 32 →
    s.putTile c d t codes scales = s.setT c d (tMake t codes scales)) ∧
  (∀ (c : Ctx) (d t : Nat) (codes : List Nat) (s : State), swf (fun _ => 0) s.dxn.tregs = true → t = 0 ∨ t = 3 ∨ t = 4 →
    (∀ i, i < 1024 → tCode t ((s.putTile c d t codes []).treg c d) i = (codes.getD i 0) % 2 ^ elBits t) ∧
    s.putTile c d t codes [] = { s with free := s.free + 1, dxn := { s.dxn with tregs := (s.putTile c d t codes []).dxn.tregs } })

/-- A send on a usable port with fewer than two sends outstanding, and a receive on a usable port, issue as long operations with
the tile, register or address they name; on a port that is not usable they raise STREAM_UNBOUND. A tile goes from the oldest
send of the facing port, from a channel or from memory to the receive buffer, which has room for two, and the send completes;
SPOLL says whether a tile waits that no receive has claimed. -/
def Obligations.StreamInstructions : Prop :=
  (∀ (c : Ctx) (body : BitVec 56) (s : State) (w : Nat), w = dxnWord 0x60 body → s.Runs c w [lockT (wA w)] true → s.portUsable (portKey (tenonOf c) (wD w)) = true → (s.sendsOn (portKey (tenonOf c) (wD w))).length < 2 →
    Answers (exec (.dxnSend c body) s) (s.Steps c (s.addLong c (.send (wD w) (tileBytes (s.treg c (wA w)))) []))) ∧
  (∀ (c : Ctx) (body : BitVec 56) (s : State) (w : Nat), w = dxnWord 0x60 body → s.Runs c w [lockT (wA w)] true → s.portUsable (portKey (tenonOf c) (wD w)) = false →
    Answers (exec (.dxnSend c body) s) (s.Raises c 0xC 0)) ∧
  (∀ (c : Ctx) (body : BitVec 56) (s : State) (w : Nat), w = dxnWord 0x60 body → s.Runs c w [lockT (wA w)] true → s.portUsable (portKey (tenonOf c) (wD w)) = true → 2 ≤ (s.sendsOn (portKey (tenonOf c) (wD w))).length →
    Answers (exec (.dxnSend c body) s) (s.Stalls c)) ∧
  (∀ (c : Ctx) (body : BitVec 56) (s : State) (w : Nat), w = dxnWord 0x61 body → s.Runs c w [lockT (wD w)] true → s.portUsable (portKey (tenonOf c) (wA w)) = true →
    Answers (exec (.dxnRecv c body) s) (s.Steps c (s.addLong c (.recv (wA w) (wD w)) [lockT (wD w)]))) ∧
  (∀ (c : Ctx) (body : BitVec 56) (s : State) (w : Nat), w = dxnWord 0x61 body → s.Runs c w [lockT (wD w)] true → s.portUsable (portKey (tenonOf c) (wA w)) = false →
    Answers (exec (.dxnRecv c body) s) (s.Raises c 0xC 0)) ∧
  (∀ (c : Ctx) (body : BitVec 56) (s : State) (w : Nat), w = dxnWord 0x62 body → s.Runs c w [] true → s.memFault c (iT w) (mAddr (s.ctx c) w) 4096 64 false = none →
    s.portUsable (portKey (tenonOf c) (wD w)) = true → (s.sendsOn (portKey (tenonOf c) (wD w))).length < 2 →
    Answers (exec (.dxnSendm c body) s) (s.Steps c (s.addLong c (.sendm (wD w) (iT w) (BitVec.ofNat 64 (mAddr (s.ctx c) w))) []))) ∧
  (∀ (c : Ctx) (body : BitVec 56) (s : State) (w : Nat), w = dxnWord 0x63 body → s.Runs c w [] true → s.memFault c (iT w) (mAddr (s.ctx c) w) 4096 64 true = none →
    s.portUsable (portKey (tenonOf c) (wD w)) = true →
    Answers (exec (.dxnRecvm c body) s) (s.Steps c (s.addLong c (.recvm (wD w) (iT w) (BitVec.ofNat 64 (mAddr (s.ctx c) w))) []))) ∧
  (∀ (c : Ctx) (body : BitVec 56) (s : State) (w : Nat), w = dxnWord 0x64 body → s.Runs c w [] false → s.portUsable (portKey (tenonOf c) (wA w)) = true →
    Answers (exec (.dxnSpoll c body) s) (s.Steps c (s.setCtx c ((s.ctx c).setPred (wD w)
      (decide ((s.recvsOn (portKey (tenonOf c) (wA w))).length < (s.stream (portKey (tenonOf c) (wA w))).rx.length)))))) ∧
  (∀ (c : Ctx) (body : BitVec 56) (s : State) (w : Nat), w = dxnWord 0x64 body → s.Runs c w [] false → s.portUsable (portKey (tenonOf c) (wA w)) = false →
    Answers (exec (.dxnSpoll c body) s) (s.Raises c 0xC 0)) ∧
  (∀ (q : Fin 4) (row : Fin 30) (col : Fin 32) (port : Fin 4) (k f p : Nat) (tile : Bytes) (o : LongOp) (rest : List LongOp) (s : State),
    k = portKey (tenonIx q row col) port → (s.stream k).bound = some .neighbour → (s.stream k).rx.length < 2 →
    facing q row col port = some f → s.sendsOn f = o :: rest → o.kind = .send p tile →
    exec (.streamTileArrival q row col port) s =
      .next ((s.completeLong o).setStream k { (s.completeLong o).stream k with rx := ((s.completeLong o).stream k).rx ++ [tile] })) ∧
  (∀ (q : Fin 4) (row : Fin 30) (col : Fin 32) (port : Fin 4) (k e ch : Nat) (tile : Bytes) (rest : List Bytes) (s : State),
    k = portKey (tenonIx q row col) port → (s.stream k).bound = some (.channelIn e ch) → (s.stream k).rx.length < 2 →
    (s.channel e ch).inbound = tile :: rest →
    exec (.streamTileArrival q row col port) s =
      .next ((s.setChannel e ch (Channel.fill 2 { s.channel e ch with inbound := rest })).setStream k
        { s.stream k with rx := (s.stream k).rx ++ [tile] })) ∧
  (∀ (q : Fin 4) (stream : Fin 64) (k : Nat) (s : State), k = 64 * q.val + stream.val → s.dmaFree k = false → (s.dma k).stopped = false →
    (s.dma k).spent = false → (s.dma k).inbound = true → (s.stream (s.dma k).tenonPort).rx.length < 2 →
    s.rangePoisoned ((s.dma k).addr + 4096 * (s.dma k).done) 4096 = false →
    Answers (exec (.dmaStreamTile q stream []) s) fun t =>
      let a := (s.dma k).addr + 4096 * (s.dma k).done
      let x := s.stream (s.dma k).tenonPort
      t = ((s.devRead a 4096 []).1.setStream (s.dma k).tenonPort { x with rx := x.rx ++ [sbytes s.mem.bytes a 4096] }).dmaPassed k
        { s.dma k with done := (s.dma k).done + 1 }) ∧
  (∀ (q : Fin 4) (stream : Fin 64) (errs : List LineErr) (k p : Nat) (tile : Bytes) (o : LongOp) (rest : List LongOp) (s : State), k = 64 * q.val + stream.val →
    s.dmaFree k = false → (s.dma k).stopped = false → (s.dma k).spent = false → (s.dma k).inbound = false →
    s.sendsOn (s.dma k).tenonPort = o :: rest → o.kind = .send p tile → (s.dma k).donePeg = 0 →
    exec (.dmaStreamTile q stream errs) s = .next (((s.completeLong o).devWrite ((s.dma k).addr + 4096 * (s.dma k).done) tile).dmaPassed k
        { s.dma k with done := (s.dma k).done + 1 })) ∧
  (∀ (e : Fin 8) (ch : Fin 16) (errs : List LineErr) (n : Nat) (s : State), (s.channel e ch).truss = some n →
    Answers (exec (.channelTileReceive e ch errs) s) fun t =>
      let x := sget {} s.ten.trusses n
      let k := x.tailKey (n / 256)
      t = ((s.channelTake e ch k).channelTake e ch k).channelUse e ch n (bitOf (byteAt x.descriptor 11) 7) errs) ∧
  (∀ (e ch k p : Nat) (tile : Bytes) (o : LongOp) (rest : List LongOp) (s : State), (s.channel e ch).outbound.length < 2 → s.sendsOn k = o :: rest →
    o.kind = .send p tile → s.channelTake e ch k =
      (s.completeLong o).setChannel e ch { (s.completeLong o).channel e ch with outbound := ((s.completeLong o).channel e ch).outbound ++ [tile] }) ∧
  (∀ (s : State) (c : Ctx) (kind : LongKind) (locks : List Lock), 
    let peg := if (s.ctx c).bindOn = true then some (s.ctx c).bindPeg else none
    let o : LongOp := ⟨s.dxn.nextOp, c, (s.ctx c).pc, kind, peg, locks, none⟩
    s.addLong c kind locks = { s with dxn := { s.dxn with longOps := s.dxn.longOps ++ [o], nextOp := s.dxn.nextOp + 1 } })

/-- A context may use a peg of its domain (domain 0x000: any from 1024, in a C context any). ADD and SET change that peg alone,
and every waiter sees the value; both wait while a long operation of the context that writes memory is outstanding. A wait that
holds goes on, one that does not makes the context wait at the next instruction until an operation on the peg satisfies it,
which resumes it, or until its timer ends it by PEG_TIMEOUT, or in continue mode with p7 clear. A peg of another domain raises
PEG_DENIED. -/
def Obligations.PegInstructions : Prop :=
  (∀ (c : Ctx) (body : BitVec 52) (s : State) (w : Nat), w = pegWord 0 body → s.Runs c w [] false → pScope w < 8 →
    s.ctxPegOk c (pPeg w) = true → s.writesPending c = false →
    Answers (exec (.dxnPegAdd c body) s) (s.Steps c (s.addPeg (pPeg w) (pegValue (s.ctx c) w)))) ∧
  (∀ (c : Ctx) (body : BitVec 52) (s : State) (w : Nat), w = pegWord 0 body → s.Runs c w [] false → pScope w < 8 →
    s.ctxPegOk c (pPeg w) = false →
    Answers (exec (.dxnPegAdd c body) s) (s.Raises c 8 (BitVec.ofNat 64 (pPeg w)))) ∧
  (∀ (c : Ctx) (body : BitVec 52) (s : State) (w : Nat), w = pegWord 0 body → s.Runs c w [] false → pScope w < 8 →
    s.ctxPegOk c (pPeg w) = true → s.writesPending c = true →
    Answers (exec (.dxnPegAdd c body) s) (s.Stalls c)) ∧
  (∀ (c : Ctx) (body : BitVec 52) (s : State) (w : Nat), w = pegWord 1 body → s.Runs c w [] false → pScope w < 8 →
    s.ctxPegOk c (pPeg w) = true → s.writesPending c = false →
    Answers (exec (.dxnPegSet c body) s) (s.Steps c (s.setPeg (pPeg w) (pegValue (s.ctx c) w)))) ∧
  (∀ (c : Ctx) (body : BitVec 52) (s : State) (w : Nat), w = pegWord 1 body → s.Runs c w [] false → pScope w < 8 →
    s.ctxPegOk c (pPeg w) = false →
    Answers (exec (.dxnPegSet c body) s) (s.Raises c 8 (BitVec.ofNat 64 (pPeg w)))) ∧
  (∀ (c : Ctx) (body : BitVec 52) (s : State) (w : Nat), w = pegWord 1 body → s.Runs c w [] false → pScope w < 8 →
    s.ctxPegOk c (pPeg w) = true → s.writesPending c = true →
    Answers (exec (.dxnPegSet c body) s) (s.Stalls c)) ∧
  (∀ (c : Ctx) (body : BitVec 52) (s : State) (w : Nat), w = pegWord 2 body → s.Runs c w [] false →
    s.ctxPegOk c (pPeg w) = true → waitHolds { peg := pPeg w, value := pegValue (s.ctx c) w, eq := false, timer := 0 } (s.peg (pPeg w)) = true →
    Answers (exec (.dxnPegWaitGe c body) s) (s.Steps c (s.setCtx c ((s.ctx c).waitEnds (s.ctx c).timeout true)))) ∧
  (∀ (c : Ctx) (body : BitVec 52) (s : State) (w : Nat), w = pegWord 2 body → s.Runs c w [] false →
    s.ctxPegOk c (pPeg w) = true → waitHolds { peg := pPeg w, value := pegValue (s.ctx c) w, eq := false, timer := 0 } (s.peg (pPeg w)) = false →
    Answers (exec (.dxnPegWaitGe c body) s) fun t =>
      let k : PegWait := { peg := pPeg w, value := pegValue (s.ctx c) w, eq := false, timer := (s.ctx c).timeout }
      t = (s.countIssued c).setCtx c { s.ctx c with status := .waiting, pc := (s.ctx c).pc + 1, stalled := false, wait := some k }) ∧
  (∀ (c : Ctx) (body : BitVec 52) (s : State) (w : Nat), w = pegWord 3 body → s.Runs c w [] false →
    s.ctxPegOk c (pPeg w) = true → waitHolds { peg := pPeg w, value := pegValue (s.ctx c) w, eq := true, timer := 0 } (s.peg (pPeg w)) = true →
    Answers (exec (.dxnPegWaitEq c body) s) (s.Steps c (s.setCtx c ((s.ctx c).waitEnds (s.ctx c).timeout true)))) ∧
  (∀ (c : Ctx) (body : BitVec 52) (s : State) (w : Nat), w = pegWord 3 body → s.Runs c w [] false →
    s.ctxPegOk c (pPeg w) = true → waitHolds { peg := pPeg w, value := pegValue (s.ctx c) w, eq := true, timer := 0 } (s.peg (pPeg w)) = false →
    Answers (exec (.dxnPegWaitEq c body) s) fun t =>
      let k : PegWait := { peg := pPeg w, value := pegValue (s.ctx c) w, eq := true, timer := (s.ctx c).timeout }
      t = (s.countIssued c).setCtx c { s.ctx c with status := .waiting, pc := (s.ctx c).pc + 1, stalled := false, wait := some k }) ∧
  (∀ (c : Ctx) (body : BitVec 52) (s : State) (w : Nat), w = pegWord 4 body → s.Runs c w [] false →
    Answers (exec (.dxnPegArmTimeout c body) s) (s.Steps c (s.setCtx c { s.ctx c with timeout := BitVec.ofNat 32 (pegValue (s.ctx c) w).toNat }))) ∧
  (∀ (c : Ctx) (k : PegWait) (s : State), (s.ctx c).wait = some k → (s.ctx c).status = .waiting → k.hit = true →
    exec (.pegWaitSatisfied c) s = .next ((s.setCtx c { ((s.ctx c).waitEnds k.timer true) with status := .running, wait := none }).fetchCheck c)) ∧
  (∀ (c : Ctx) (k : PegWait) (s : State), (s.ctx c).wait = some k → (s.ctx c).status = .waiting → k.hit = false → continueMode k.timer = true →
    exec (.pegWaitTimeout c) s = .next ((s.setCtx c { ((s.ctx c).setPred 7 false) with status := .running, wait := none }).fetchCheck c)) ∧
  (∀ (c : Ctx) (k : PegWait) (s : State), (s.ctx c).wait = some k → (s.ctx c).status = .waiting → k.hit = false → k.timer.toNat % 2 ^ 31 ≠ 0 →
    continueMode k.timer = false → exec (.pegWaitTimeout c) s = .next (s.except c 9 ((s.ctx c).pc - 1) (BitVec.ofNat 64 k.peg))) ∧
  (∀ (s : State) (p : Nat) (v : Word), swf (fun _ => 0) s.dxn.pegs = true → (∀ i, (s.setPeg p v).peg i = if i = p then v else s.peg i) ∧
    (s.setPeg p v).dxn.ctxs = s.dxn.ctxs.map (fun x => (x.1, x.2.sees p v)) ∧
    (s.setPeg p v).host = { s.host with items := s.host.items.map fun i => i.sees p v } ∧
    s.setPeg p v = { s with dxn := { s.dxn with pegs := (s.setPeg p v).dxn.pegs, ctxs := (s.setPeg p v).dxn.ctxs }, host := (s.setPeg p v).host } ∧
    s.addPeg p v = s.setPeg p (s.peg p + v)) ∧
  (∀ (x : Context) (p : Nat) (v : Word) (k : PegWait), x.wait = some k →
    x.sees p v = (if k.peg = p ∧ waitHolds k v = true then { x with wait := some { k with hit := true } } else x)) ∧
  (∀ (k : PegWait) (v : Word), (k.eq = true → waitHolds k v = decide (v = k.value)) ∧ (k.eq = false → waitHolds k v = decide (k.value.toNat ≤ v.toNat))) ∧
  (∀ (c : Ctx) (body : BitVec 56) (s : State) (w : Nat), w = dxnWord 0x71 body → s.Runs c w [] false → iM w ≠ 0 → s.ctxPegOk c (iImm w) = true →
    Answers (exec (.dxnBind c body) s) (s.Steps c (s.setCtx c { s.ctx c with bindOn := true, bindPeg := BitVec.ofNat 16 (iImm w) }))) ∧
  (∀ (c : Ctx) (body : BitVec 56) (s : State) (w : Nat), w = dxnWord 0x71 body → s.Runs c w [] false → iM w = 0 →
    Answers (exec (.dxnBind c body) s) (s.Steps c (s.setCtx c { s.ctx c with bindOn := false, bindPeg := 0 }))) ∧
  (∀ (c : Ctx) (body : BitVec 56) (s : State) (w : Nat), w = dxnWord 0x71 body → s.Runs c w [] false → iM w ≠ 0 → s.ctxPegOk c (iImm w) = false →
    Answers (exec (.dxnBind c body) s) (s.Raises c 8 (BitVec.ofNat 64 (iImm w)))) ∧
  (∀ (c : Ctx) (body : BitVec 56) (s : State) (w : Nat), w = dxnWord 0x72 body → s.Runs c w [] false → s.farOutstanding c (wD w) = [] →
    Answers (exec (.dxnFarset c body) s) (s.Steps c (s.setCtx c { s.ctx c with far := sset 0 (s.ctx c).far (wD w) ((s.ctx c).reg (wA w)) }))) ∧
  (∀ (c : Ctx) (body : BitVec 56) (s : State) (w : Nat), w = dxnWord 0x73 body → s.Runs c w [] false → s.opsOf c = [] →
    Answers (exec (.dxnFence c body) s) (s.Steps c s)) ∧
  (∀ (c : Ctx) (body : BitVec 56) (s : State) (w : Nat), w = dxnWord 0x73 body → s.Runs c w [] false → s.opsOf c ≠ [] →
    Answers (exec (.dxnFence c body) s) (s.Stalls c)) ∧
  (∀ (c : Ctx) (body : BitVec 56) (s : State) (w : Nat), w = dxnWord 0x74 body → s.Runs c w [] false → s.ctxPegOk c (iImm w) = true →
    Answers (exec (.dxnPegrd c body) s) (s.Steps c (s.setCtx c ((s.ctx c).setReg (wD w) (s.peg (iImm w)))))) ∧
  (∀ (c : Ctx) (body : BitVec 56) (s : State) (w : Nat), w = dxnWord 0x74 body → s.Runs c w [] false → s.ctxPegOk c (iImm w) = false →
    Answers (exec (.dxnPegrd c body) s) (s.Raises c 8 (BitVec.ofNat 64 (iImm w)))) ∧
  (∀ (s : State) (isC : Bool) (domain : BitVec 12) (p : Nat), s.pegOk isC domain p =
    (if domain = 0 then isC || decide (1024 ≤ p) else decide (1024 ≤ p) && decide (s.pegDom p = domain))) ∧
  (∀ (first count : BitVec 16) (domain : BitVec 12) (s : State), s.regsWf = true → swf (fun _ => 0) s.dxn.pegs = true →
    swf (fun _ => 0) s.dxn.pegOwner = true → s.flag R.CMD_PEG_ASSIGN F.CMD_PEG_ASSIGN_GO = false → s.cfg.checks = [] → 0 < count.toNat →
    1024 ≤ first.toNat → first.toNat + count.toNat ≤ 65536 → s.dxn.longOps = [] → s.dxn.ctxs = [] →
    Answers (exec (.pegAssign first count domain) s) fun t =>
      (∀ p, t.peg p = if first.toNat ≤ p ∧ p < first.toNat + count.toNat then 0 else s.peg p) ∧
      (∀ p, t.pegDom p = if first.toNat ≤ p ∧ p < first.toNat + count.toNat then domain else s.pegDom p) ∧
      t.fld R.CMD_PEG_ASSIGN_STATUS F.CMD_PEG_ASSIGN_STATUS_REASON = 0 ∧ t.flag R.CMD_PEG_ASSIGN F.CMD_PEG_ASSIGN_GO = false ∧
      t.cfg.checks = [] ∧ s.BytesBut t 0 0)

/-- A far ADD or SET to another module issues as a long operation and its request leaves at once; without a target, or while
FWD_FAR_PREFIX is 0, it raises FAR_PEG_REFUSED. At the target the next request of a stream is applied to a peg from 1024 of its
domain and acknowledged; an earlier one is acknowledged as already done, a later one as deferred, and neither touches a peg. An
acknowledgement completes the operation or fails it with FAR_PEG_REFUSED; without one the request is sent again, and after
RETRIES fails with FAR_PEG_LOST. A stream entry without requests for 10 s may leave. -/
def Obligations.FarPegs : Prop :=
  (∀ (c : Ctx) (body : BitVec 52) (s : State) (w : Nat), w = pegWord 0 body → s.Runs c w [] false → 8 ≤ pScope w →
    s.rd R.FWD_FAR_PREFIX ≠ 0 → sget 0 (s.ctx c).far (pScope w % 4) ≠ 0 → sget 0 (s.ctx c).far (pScope w % 4) ≠ s.identity →
    s.opsOf c = [] →
    Answers (exec (.dxnPegAdd c body) s) fun t =>
      let f := pScope w % 4
      let seq := sget 0 (s.ctx c).farSeq f + 1
      let x := { s.ctx c with farSeq := sset 0 (s.ctx c).farSeq f seq }
      let peg := if (s.ctx c).bindOn = true then some (s.ctx c).bindPeg else none
      let k : LongKind := .farPeg f (sget 0 (s.ctx c).far f) seq (BitVec.ofNat 16 (pPeg w)) false (pegValue (s.ctx c) w) 0 none
      s.Steps c (((s.setCtx c x).addLong c k []).sendRequest ⟨s.dxn.nextOp, c, (s.ctx c).pc, k, peg, [], none⟩) t) ∧
  (∀ (c : Ctx) (body : BitVec 52) (s : State) (w : Nat), w = pegWord 0 body → s.Runs c w [] false → 8 ≤ pScope w →
    s.rd R.FWD_FAR_PREFIX = 0 ∨ sget 0 (s.ctx c).far (pScope w % 4) = 0 →
    Answers (exec (.dxnPegAdd c body) s) (s.Raises c 0xB (BitVec.ofNat 64 (pPeg w)))) ∧
  (∀ (c : Ctx) (body : BitVec 52) (s : State) (w : Nat), w = pegWord 1 body → s.Runs c w [] false → 8 ≤ pScope w →
    s.rd R.FWD_FAR_PREFIX ≠ 0 → sget 0 (s.ctx c).far (pScope w % 4) ≠ 0 → sget 0 (s.ctx c).far (pScope w % 4) ≠ s.identity →
    s.opsOf c = [] →
    Answers (exec (.dxnPegSet c body) s) fun t =>
      let f := pScope w % 4
      let seq := sget 0 (s.ctx c).farSeq f + 1
      let x := { s.ctx c with farSeq := sset 0 (s.ctx c).farSeq f seq }
      let peg := if (s.ctx c).bindOn = true then some (s.ctx c).bindPeg else none
      let k : LongKind := .farPeg f (sget 0 (s.ctx c).far f) seq (BitVec.ofNat 16 (pPeg w)) true (pegValue (s.ctx c) w) 0 none
      s.Steps c (((s.setCtx c x).addLong c k []).sendRequest ⟨s.dxn.nextOp, c, (s.ctx c).pc, k, peg, [], none⟩) t) ∧
  (∀ (c : Ctx) (body : BitVec 52) (s : State) (w : Nat), w = pegWord 1 body → s.Runs c w [] false → 8 ≤ pScope w →
    s.rd R.FWD_FAR_PREFIX = 0 ∨ sget 0 (s.ctx c).far (pScope w % 4) = 0 →
    Answers (exec (.dxnPegSet c body) s) (s.Raises c 0xB (BitVec.ofNat 64 (pPeg w)))) ∧
  (∀ (msg : Bytes) (m : FarMsg) (s : State), s.rd R.FWD_FAR_PREFIX ≠ 0 → parseFar msg = some m → m.kind = 1 →
    exec (.farPegRequest msg) s = .next (s.farTarget m)) ∧
  (∀ (m : FarMsg) (s : State), (s.fwd.farStreams.find? fun e => e.isOf m) = none → s.fwd.farStreams.length < 16384 →
    s.farTarget m = s.farStep m (m.entry s.mono)) ∧
  (∀ (m : FarMsg) (e : FarStream) (s : State), (s.fwd.farStreams.find? fun x => x.isOf m) = some e → e.incarnation.toNat = m.incarnation →
    s.farTarget m = s.farStep m e) ∧
  (∀ (m : FarMsg) (e : FarStream) (s : State), diff32 m.oldest 1 = e.h.toNat → diff32 m.seq e.h.toNat = 1 → e.refused = [] → 1024 ≤ m.peg →
    m.domain = 0 ∨ (s.pegDom m.peg).toNat = m.domain →
    s.farStep m e = ((if m.op = 1 then s.setPeg m.peg (BitVec.ofNat 64 m.value) else s.addPeg m.peg (BitVec.ofNat 64 m.value)).putFarStream m
      { e with h := BitVec.ofNat 32 m.seq, lastAt := s.mono }).sendAck m 0) ∧
  (∀ (m : FarMsg) (e : FarStream) (s : State), diff32 m.oldest 1 = e.h.toNat → diff32 m.seq e.h.toNat = 1 → e.refused = [] →
    m.peg < 1024 ∨ (m.domain ≠ 0 ∧ (s.pegDom m.peg).toNat ≠ m.domain) →
    s.farStep m e = (s.putFarStream m { e with h := BitVec.ofNat 32 m.seq, lastAt := s.mono, refused := [BitVec.ofNat 32 m.seq] }).sendAck m
      (if m.peg < 1024 then 2 else 1)) ∧
  (∀ (m : FarMsg) (e : FarStream) (s : State), diff32 m.oldest 1 = e.h.toNat → 2 ^ 31 ≤ diff32 m.seq e.h.toNat ∨ diff32 m.seq e.h.toNat = 0 →
    e.refused = [] → s.farStep m e = (s.putFarStream m { e with lastAt := s.mono }).sendAck m 3) ∧
  (∀ (m : FarMsg) (e : FarStream) (s : State), diff32 m.oldest 1 = e.h.toNat → 2 ≤ diff32 m.seq e.h.toNat → diff32 m.seq e.h.toNat < 2 ^ 31 →
    e.refused = [] → s.farStep m e = (s.putFarStream m { e with lastAt := s.mono }).sendAck m 5) ∧
  (∀ (msg : Bytes) (m : FarMsg) (o : LongOp) (s : State), s.rd R.FWD_FAR_PREFIX ≠ 0 → parseFar msg = some m → m.kind = 2 →
    m.sender = s.identity.toNat → s.farOp? m = some o → m.result = 0 ∨ m.result = 3 → exec (.farPegAck msg) s = .next (s.completeLong o)) ∧
  (∀ (msg : Bytes) (m : FarMsg) (o : LongOp) (s : State), s.rd R.FWD_FAR_PREFIX ≠ 0 → parseFar msg = some m → m.kind = 2 →
    m.sender = s.identity.toNat → s.farOp? m = some o → m.result = 1 ∨ m.result = 2 ∨ m.result = 6 →
    exec (.farPegAck msg) s = .next (s.failLong o 0xB (BitVec.ofNat 64 m.peg))) ∧
  (∀ (msg : Bytes) (m : FarMsg) (s : State), parseFar msg = some m → m.kind = 2 → m.result = 4 ∨ m.result = 5 → exec (.farPegAck msg) s = .next s) ∧
  (∀ (op f tries : Nat) (target v : Word) (q : BitVec 32) (p : BitVec 16) (set : Bool) (o : LongOp) (s : State), s.longOp? op = some o →
    o.kind = .farPeg f target q p set v tries none → tries < s.fld R.CMD_FAR_CTRL F.CMD_FAR_CTRL_RETRIES →
    exec (.farPegRetry op) s = .next ((s.updLong op fun y => { y with kind := .farPeg f target q p set v (tries + 1) none }).sendRequest o)) ∧
  (∀ (op f tries : Nat) (target v : Word) (q : BitVec 32) (p : BitVec 16) (set : Bool) (o : LongOp) (s : State), s.longOp? op = some o →
    o.kind = .farPeg f target q p set v tries none → s.fld R.CMD_FAR_CTRL F.CMD_FAR_CTRL_RETRIES ≤ tries →
    exec (.farPegRetry op) s = .next (s.failLong o 0xA (BitVec.ofNat 64 p.toNat))) ∧
  (∀ (sender : Word) (agent : BitVec 4) (who : BitVec 16) (slot : Fin 4) (e : FarStream) (s : State), e ∈ s.fwd.farStreams → e.sender = sender →
    e.agent = agent → e.who = who → e.slot = slot.val → e.lastAt + 10000000000 ≤ s.mono →
    Answers (exec (.farPegEntryEvict sender agent who slot) s) fun t => e ∉ t.fwd.farStreams ∧
      (∀ x ∈ s.fwd.farStreams, s.mono < x.lastAt + 10000000000 → x ∈ t.fwd.farStreams) ∧
      t = { s with fwd := { s.fwd with farStreams := t.fwd.farStreams } })

/-- A load of a space other than REG writes gD with the little-endian bytes at the address, zero- or sign-extended; a store
writes the low bytes of gD there; REG is read and written as a whole register; a lowest memory exception (SPACE, ADDRESS,
ALIGNMENT) is raised with the address. Vector and tile transfers issue as long operations with the address and data captured,
the destination register locked, and complete as longOpComplete: a load writes its register (lanes beyond the count 0), a store
the bytes. -/
def Obligations.LoadsAndStores : Prop :=
  (∀ (c : Ctx) (body : BitVec 56) (read : HostRead) (errs : List LineErr) (b : Bytes) (u s : State) (w : Nat), w = dxnWord 0x80 body → s.Runs c w [] false →
    s.memFault c (iT w) (mAddr (s.ctx c) w) (2 ^ mWidth w) (2 ^ mWidth w) false = none → iT w ≠ 5 →
    s.spaceRead c (iT w) (mAddr (s.ctx c) w) (2 ^ mWidth w) read errs = (u, some b) →
    Answers (exec (.dxnLd c body read errs) s) (s.Steps c (u.setCtx c ((u.ctx c).setReg (wD w) (BitVec.ofNat 64 (leNat b)))))) ∧
  (∀ (c : Ctx) (body : BitVec 56) (read : HostRead) (errs : List LineErr) (s : State) (w : Nat), w = dxnWord 0x80 body → s.Runs c w [] false →
    s.memFault c 5 (mAddr (s.ctx c) w) (2 ^ mWidth w) (2 ^ mWidth w) false = none → iT w = 5 → Answers (exec (.dxnLd c body read errs) s)
      (s.Steps c (let r := s.readReg (mAddr (s.ctx c) w)
        r.2.setCtx c ((r.2.ctx c).setReg (wD w) r.1)))) ∧
  (∀ (c : Ctx) (body : BitVec 56) (read : HostRead) (errs : List LineErr) (k : Nat) (s : State) (w : Nat), w = dxnWord 0x80 body →
    s.Runs c w [] false → s.memFault c (iT w) (mAddr (s.ctx c) w) (2 ^ mWidth w) (2 ^ mWidth w) false = some k →
    Answers (exec (.dxnLd c body read errs) s) (s.Raises c k (BitVec.ofNat 64 (mAddr (s.ctx c) w)))) ∧
  (∀ (c : Ctx) (body : BitVec 56) (read : HostRead) (errs : List LineErr) (b : Bytes) (u s : State) (w : Nat), w = dxnWord 0x81 body → s.Runs c w [] false →
    s.memFault c (iT w) (mAddr (s.ctx c) w) (2 ^ mWidth w) (2 ^ mWidth w) false = none → iT w ≠ 5 →
    s.spaceRead c (iT w) (mAddr (s.ctx c) w) (2 ^ mWidth w) read errs = (u, some b) →
    Answers (exec (.dxnLds c body read errs) s) (s.Steps c (u.setCtx c ((u.ctx c).setReg (wD w) (BitVec.ofInt 64 (signedOf (8 * 2 ^ mWidth w) (leNat b))))))) ∧
  (∀ (c : Ctx) (body : BitVec 56) (read : HostRead) (errs : List LineErr) (s : State) (w : Nat), w = dxnWord 0x81 body → s.Runs c w [] false →
    s.memFault c 5 (mAddr (s.ctx c) w) (2 ^ mWidth w) (2 ^ mWidth w) false = none → iT w = 5 → Answers (exec (.dxnLds c body read errs) s)
      (s.Steps c (let r := s.readReg (mAddr (s.ctx c) w)
        r.2.setCtx c ((r.2.ctx c).setReg (wD w) r.1)))) ∧
  (∀ (c : Ctx) (body : BitVec 56) (read : HostRead) (errs : List LineErr) (k : Nat) (s : State) (w : Nat), w = dxnWord 0x81 body →
    s.Runs c w [] false → s.memFault c (iT w) (mAddr (s.ctx c) w) (2 ^ mWidth w) (2 ^ mWidth w) false = some k →
    Answers (exec (.dxnLds c body read errs) s) (s.Raises c k (BitVec.ofNat 64 (mAddr (s.ctx c) w)))) ∧
  (∀ (c : Ctx) (body : BitVec 56) (s : State) (w : Nat), w = dxnWord 0x82 body → s.Runs c w [] false → iT w ≠ 5 →
    s.memFault c (iT w) (mAddr (s.ctx c) w) (2 ^ mWidth w) (2 ^ mWidth w) true = none →
    Answers (exec (.dxnSt c body) s) (s.Steps c (s.spaceWrite c (iT w) (mAddr (s.ctx c) w)
      (leBytes (2 ^ mWidth w) ((s.ctx c).reg (wD w)).toNat)))) ∧
  (∀ (c : Ctx) (body : BitVec 56) (s : State) (w : Nat), w = dxnWord 0x82 body → s.Runs c w [] false → iT w = 5 →
    s.memFault c 5 (mAddr (s.ctx c) w) (2 ^ mWidth w) (2 ^ mWidth w) true = none →
    Answers (exec (.dxnSt c body) s) (s.Steps c (s.writeReg (mAddr (s.ctx c) w)
      ((s.ctx c).reg (wD w)) { source := 1, domain := (s.ctx c).domain }))) ∧
  (∀ (c : Ctx) (body : BitVec 56) (k : Nat) (s : State) (w : Nat), w = dxnWord 0x82 body → s.Runs c w [] false → s.memFault c (iT w) (mAddr (s.ctx c) w) (2 ^ mWidth w) (2 ^ mWidth w) true = some k →
    Answers (exec (.dxnSt c body) s) (s.Raises c k (BitVec.ofNat 64 (mAddr (s.ctx c) w)))) ∧
  (∀ (c : Ctx) (body : BitVec 56) (a : Nat) (s : State) (w : Nat), w = dxnWord 0x83 body → s.Runs c w [lockV (wD w)] true → a = mAddr (s.ctx c) w →
    s.memFault c (iT w) a (4 * mCount w) 4 false = none → Answers (exec (.dxnVld c body) s) (s.Steps c (s.addLong c (.vload (wD w) (iT w) (BitVec.ofNat 64 a) 4 (mCount w)) [lockV (wD w)]))) ∧
  (∀ (c : Ctx) (body : BitVec 56) (a : Nat) (s : State) (w : Nat), w = dxnWord 0x84 body → s.Runs c w [lockV (wD w)] true → a = mAddr (s.ctx c) w →
    s.memFault c (iT w) a (4 * mCount w) 4 true = none → Answers (exec (.dxnVst c body) s) (s.Steps c (s.addLong c (.vstore (leBytes (4 * mCount w) (s.vreg c (wD w)).toNat) (iT w) (BitVec.ofNat 64 a)) []))) ∧
  (∀ (c : Ctx) (body : BitVec 56) (a : Nat) (s : State) (w : Nat), w = dxnWord 0x85 body → s.Runs c w [lockT (wD w)] true → a = mAddr (s.ctx c) w →
    s.memFault c (iT w) a 4096 64 false = none → Answers (exec (.dxnTld c body) s) (s.Steps c (s.addLong c (.tload (wD w) (iT w) (BitVec.ofNat 64 a)) [lockT (wD w)]))) ∧
  (∀ (c : Ctx) (body : BitVec 56) (a : Nat) (s : State) (w : Nat), w = dxnWord 0x86 body → s.Runs c w [lockT (wD w)] true → a = mAddr (s.ctx c) w →
    s.memFault c (iT w) a 4096 64 true = none → Answers (exec (.dxnTst c body) s) (s.Steps c (s.addLong c (.tstore (tileBytes (s.treg c (wD w))) (iT w) (BitVec.ofNat 64 a)) []))) ∧
  (∀ (op v sp n wd : Nat) (a : Word) (read : HostRead) (errs : List LineErr) (b : Bytes) (o : LongOp) (u s : State), s.longOp? op = some o →
    o.kind = .vload v sp a wd n → s.spaceRead o.ctx sp a.toNat (wd * n) read errs = (u, some b) →
    exec (.longOpComplete op read errs) s = .next ((u.setV o.ctx v (BitVec.ofNat 2048 (leNat b))).completeLong o)) ∧
  (∀ (op sp : Nat) (a : Word) (d : Bytes) (read : HostRead) (errs : List LineErr) (o : LongOp) (s : State), s.longOp? op = some o →
    o.kind = .vstore d sp a ∨ o.kind = .tstore d sp a → exec (.longOpComplete op read errs) s =
      .next ((s.spaceWrite o.ctx sp a.toNat d).completeLong o)) ∧
  (∀ (op t sp : Nat) (a : Word) (read : HostRead) (errs : List LineErr) (b : Bytes) (o : LongOp) (u s : State), s.longOp? op = some o →
    o.kind = .tload t sp a → s.spaceRead o.ctx sp a.toNat 4096 read errs = (u, some b) →
    exec (.longOpComplete op read errs) s = .next ((u.setT o.ctx t (tileOf b)).completeLong o)) ∧
  (∀ (op t sp : Nat) (a : Word) (read : HostRead) (errs : List LineErr) (o : LongOp) (u s : State), s.longOp? op = some o →
    o.kind = .tload t sp a → s.spaceRead o.ctx sp a.toNat 4096 read errs = (u, none) →
    exec (.longOpComplete op read errs) s = .next (u.failLongMem o)) ∧
  (∀ (s : State) (o : LongOp) (p : BitVec 16), o.peg = some p → (s.ctx o.ctx).status ≠ .stopping → s.completeLong o = (s.dropLong o.id).addPeg p.toNat 1) ∧
  (∀ (s : State) (o : LongOp), o.peg = none → (s.ctx o.ctx).status ≠ .stopping → s.completeLong o = s.dropLong o.id) ∧
  (∀ (s : State) (c : Ctx) (space a n align : Nat) (write : Bool), s.memFault c space a n align write =
    (if spaceIn (profileOf c) space = false ∨ (space = 4 ∧ write = true) ∨ (space = 5 ∧ (s.ctx c).domain ≠ 0) then some 4
     else if s.inSpace c space a n = false then some 5
     else if a % align ≠ 0 ∨ (space = 5 ∧ align ≠ 8) then some 6 else none)) ∧
  (∀ (s : State) (a : Nat) (b : Bytes), s.mem.wf = true → s.stackFailed a = false → (memBays a b.length).all (fun n => !s.resting n) = true →
    (∀ k, (s.devWrite a b).byte k = if a ≤ k ∧ k < a + b.length then b.getD (k - a) 0 else s.byte k))

/-- A block move whose operands raise nothing issues as a long operation; one of no bytes is complete at once and adds to its
bound peg. Of several exceptions the lowest is raised. At its completion MOVE copies in ascending 64-byte units, FILL writes its
pattern, XMOVE moves between a private store and memory, TDMA writes pending or committed rows; a unit that reads poisoned or
uncorrectable data stops the move with MEMORY. -/
def Obligations.BlockMoves : Prop :=
  (∀ (c : Ctx) (body : BitVec 56) (s : State) (w : Nat), w = dxnWord 0x88 body → s.Runs c w [] true → s.operandFaults c moveDst (dstSpace w) ((s.ctx c).reg (wA w)) ((s.ctx c).reg (wC w)).toNat 64 ++
      s.operandFaults c moveSrc (srcSpace w) ((s.ctx c).reg (wB w)) ((s.ctx c).reg (wC w)).toNat 64 ++ lengthFault ((s.ctx c).reg (wC w)).toNat 64 ((s.ctx c).reg (wA w)) ((s.ctx c).reg (wB w)) = [] →
    0 < ((s.ctx c).reg (wC w)).toNat → Answers (exec (.dxnMove c body) s) (s.Steps c (s.addLong c (.move (srcSpace w) (dstSpace w) ((s.ctx c).reg (wB w)) ((s.ctx c).reg (wA w)) ((s.ctx c).reg (wC w)).toNat) []))) ∧
  (∀ (c : Ctx) (body : BitVec 56) (s : State) (w : Nat), w = dxnWord 0x89 body → s.Runs c w [] true → s.operandFaults c moveDst (dstSpace w) ((s.ctx c).reg (wA w)) ((s.ctx c).reg (wC w)).toNat 64 ++
      raiseIf (((s.ctx c).reg (wC w)).toNat % 64 != 0) 6 ((s.ctx c).reg (wA w)) = [] →
    0 < ((s.ctx c).reg (wC w)).toNat → Answers (exec (.dxnFill c body) s) (s.Steps c (s.addLong c (.fill (dstSpace w) ((s.ctx c).reg (wA w)) ((s.ctx c).reg (wB w)) 8 (((s.ctx c).reg (wC w)).toNat / 8)) []))) ∧
  (∀ (c : Ctx) (body : BitVec 56) (s : State) (w : Nat), w = dxnWord 0x8A body → s.Runs c w [] true → s.xmoveFaults (s.ctx c).domain ((s.ctx c).reg (wA w)) ((s.ctx c).reg (wC w)).toNat ++
      s.operandFaults c (fun sp => sp == 1 || sp == 2) (srcSpace w) ((s.ctx c).reg (wB w)) ((s.ctx c).reg (wC w)).toNat 64 ++ lengthFault ((s.ctx c).reg (wC w)).toNat 64 ((s.ctx c).reg (wA w)) ((s.ctx c).reg (wB w)) = [] →
    0 < ((s.ctx c).reg (wC w)).toNat → Answers (exec (.dxnXmove c body) s) (s.Steps c (s.addLong c (.xmove (!bitOf (wM w) 3) ((s.ctx c).reg (wA w)) (((s.ctx c).reg (wA w)) &&& 0x3FFFF) ((s.ctx c).reg (wB w)) ((s.ctx c).reg (wC w)).toNat (srcSpace w)) []))) ∧
  (∀ (c : Ctx) (body : BitVec 56) (t b r : Nat) (s : State) (w : Nat), w = dxnWord 0x8B body → s.Runs c w [] true →
    s.tdmaFaults c (s.ctx c) w = [] → tdmaTarget ((s.ctx c).reg (wA w)).toNat ((s.ctx c).reg (wC w)).toNat = some (t, b, r) → 0 < ((s.ctx c).reg (wC w)).toNat →
    Answers (exec (.dxnTdma c body) s) (s.Steps c (s.addLong c (.tdma b t r ((s.ctx c).reg (wB w)) ((s.ctx c).reg (wC w)).toNat (srcSpace w)) []))) ∧
  (∀ (c : Ctx) (body : BitVec 56) (k : Nat) (a : Word) (s : State) (w : Nat), w = dxnWord 0x89 body → s.Runs c w [] true →
    s.operandFaults c moveDst (dstSpace w) ((s.ctx c).reg (wA w)) ((s.ctx c).reg (wC w)).toNat 64 ++
      raiseIf (((s.ctx c).reg (wC w)).toNat % 64 != 0) 6 ((s.ctx c).reg (wA w)) = [(k, a)] →
    Answers (exec (.dxnFill c body) s) (s.Raises c k a)) ∧
  (∀ (s : State) (c : Ctx) (kind : LongKind) (o : LongOp), (s.addLong c kind []).dxn.longOps.getLast? = some o →
    s.addLongOrDone c kind 0 = (s.addLong c kind []).completeLong o) ∧
  (∀ (op : Nat) (sp dp n : Nat) (src dst : Word) (read : HostRead) (errs : List LineErr) (o : LongOp) (s : State), s.longOp? op = some o →
    o.kind = .move sp dp src dst n → exec (.longOpComplete op read errs) s = .next (
      let r := copyUnits 64 (fun s k => s.readUnit o.ctx sp src k 64 read errs) (fun s k b => s.spaceWrite o.ctx dp (dst.toNat + k) b) (n / 64) 0 s
      r.1.endLong o r.2)) ∧
  (∀ (op : Nat) (sp wd n : Nat) (dst v : Word) (read : HostRead) (errs : List LineErr) (o : LongOp) (s : State), s.longOp? op = some o →
    o.kind = .fill sp dst v wd n → exec (.longOpComplete op read errs) s = .next (
      let r := copyUnits wd (fun s _ => (s, some (leBytes wd v.toNat))) (fun s k b => s.spaceWrite o.ctx sp (dst.toNat + k) b) n 0 s
      r.1.endLong o r.2)) ∧
  (∀ (op : Nat) (n sp : Nat) (target loc dev : Word) (read : HostRead) (errs : List LineErr) (o : LongOp) (s : State), s.longOp? op = some o →
    o.kind = .xmove true target loc dev n sp → exec (.longOpComplete op read errs) s = .next (
      let r := copyUnits 64 (fun s k => s.readUnit o.ctx sp dev k 64 read errs)
        (fun s k b => s.localWrite (xmoveCtx target.toNat) (loc.toNat + k) b) (n / 64) 0 s
      r.1.endLong o r.2)) ∧
  (∀ (op : Nat) (n sp : Nat) (target loc dev : Word) (read : HostRead) (errs : List LineErr) (o : LongOp) (s : State), s.longOp? op = some o →
    o.kind = .xmove false target loc dev n sp → exec (.longOpComplete op read errs) s = .next (
      let r := copyUnits 64 (fun s k => (s, some (s.localRead (xmoveCtx target.toNat) (loc.toNat + k) 64)))
        (fun s k b => s.spaceWrite o.ctx sp (dev.toNat + k) b) (n / 64) 0 s
      r.1.endLong o r.2)) ∧
  (∀ (op : Nat) (b t r n sp : Nat) (src : Word) (read : HostRead) (errs : List LineErr) (o : LongOp) (s : State), s.longOp? op = some o →
    o.kind = .tdma b t r src n sp → s.retiring t b = false → exec (.longOpComplete op read errs) s = .next (
      let rb := tblRowBytes t
      let u := copyUnits rb (fun s k => s.readUnit o.ctx sp src k rb read errs) (fun s k x => s.landRow t b (r + k / rb) x) (n / rb) 0 s
      u.1.endLong o u.2)) ∧
  (∀ (unit n k : Nat) (rd : State → Nat → State × Option Bytes) (wr : State → Nat → Bytes → State) (b : Bytes) (u s : State),
    rd s (k * unit) = (u, some b) → copyUnits unit rd wr (n + 1) k s = copyUnits unit rd wr n (k + 1) (wr u (k * unit) b)) ∧
  (∀ (unit n k : Nat) (rd : State → Nat → State × Option Bytes) (wr : State → Nat → Bytes → State) (u s : State),
    rd s (k * unit) = (u, none) → copyUnits unit rd wr (n + 1) k s = (u, false)) ∧
  (∀ (s : State) (o : LongOp), s.endLong o true = s.completeLong o ∧ s.endLong o false = ((s.dropLong o.id).memFail o.ctx 2 o.index).tryEnd o.ctx) ∧
  (∀ (op : Nat) (a : Nat) (v : BitVec 32768) (f : BitVec 5) (read : HostRead) (errs : List LineErr) (o : LongOp) (s : State), s.longOp? op = some o →
    o.kind = .areg a v f → exec (.longOpComplete op read errs) s = .next (((s.setA o.ctx a v).setCtx o.ctx ((s.ctx o.ctx).addFlags f)).completeLong o)) ∧
  (∀ (op : Nat) (a : Nat) (v : BitVec 32768) (f : BitVec 5) (read : HostRead) (errs : List LineErr) (o : LongOp) (s : State), s.longOp? op = some o →
    o.kind = .treg a v f → exec (.longOpComplete op read errs) s = .next (((s.setT o.ctx a v).setCtx o.ctx ((s.ctx o.ctx).addFlags f)).completeLong o)) ∧
  (∀ (op : Nat) (a : Nat) (v : BitVec 2048) (f : BitVec 5) (read : HostRead) (errs : List LineErr) (o : LongOp) (s : State), s.longOp? op = some o →
    o.kind = .vreg a v f → exec (.longOpComplete op read errs) s = .next (((s.setV o.ctx a v).setCtx o.ctx ((s.ctx o.ctx).addFlags f)).completeLong o)) ∧
  (∀ (op p t k : Nat) (tile : Bytes) (rest : List Bytes) (read : HostRead) (errs : List LineErr) (o : LongOp) (s : State), s.longOp? op = some o →
    o.kind = .recv p t → k = portKey (tenonOf o.ctx) p → (s.recvsOn k).head?.map LongOp.id = some o.id → (s.stream k).rx = tile :: rest →
    exec (.longOpComplete op read errs) s = .next (((s.setStream k { s.stream k with rx := rest }).setT o.ctx t (tileOf tile)).completeLong o))

/-- A branch that is taken goes to its target, a call writes the next index to g31, a target outside the code raises PC_RANGE;
END stops the context, which ends once no long operation of it is outstanding; RUN_LIMIT raises its exception. An exception is
logged in CMD_FAULT, stops the context, adds 1 to its fault peg and fails its descriptor; an encoding that breaks its field
rules raises ILLEGAL_INSTRUCTION, one of a group that the profile lacks PROFILE, one newer than the image VERSION, and the
lowest is raised. -/
def Obligations.ControlAndExceptions : Prop :=
  (∀ (c : Ctx) (body : BitVec 56) (s : State) (w : Nat), w = dxnWord 0xA0 body → s.Runs c w [] false → (bitsOf w 55 52 = 1 → (s.ctx c).pred (bitsOf w 50 48) = true) →
    (bitsOf w 55 52 = 2 → (s.ctx c).pred (bitsOf w 50 48) = false) → 0 ≤ (s.ctx c).pc + sextImm w →
    (s.ctx c).pc + sextImm w < (s.ctx c).code.length → s.Fetches c ((s.ctx c).pc + sextImm w).toNat →
    Answers (exec (.dxnBr c body) s) (State.GoesTo (if bitsOf w 55 52 = 3 then
        s.setCtx c ((s.ctx c).setReg 31 (BitVec.ofNat 64 ((s.ctx c).pc + 1))) else s) c ((s.ctx c).pc + sextImm w).toNat)) ∧
  (∀ (c : Ctx) (body : BitVec 56) (s : State) (w : Nat), w = dxnWord 0xA0 body → s.Runs c w [] false → (bitsOf w 55 52 = 1 ∧ (s.ctx c).pred (bitsOf w 50 48) = false) ∨
      (bitsOf w 55 52 = 2 ∧ (s.ctx c).pred (bitsOf w 50 48) = true) →
    Answers (exec (.dxnBr c body) s) (s.Steps c s)) ∧
  (∀ (c : Ctx) (body : BitVec 56) (s : State) (w : Nat), w = dxnWord 0xA0 body → s.Runs c w [] false → bitsOf w 55 52 = 0 → (s.ctx c).code.length ≤ (s.ctx c).pc + sextImm w →
    Answers (exec (.dxnBr c body) s) (s.Raises c 7 0)) ∧
  (∀ (c : Ctx) (body : BitVec 56) (s : State) (w : Nat), w = dxnWord 0xA1 body → s.Runs c w [] false → ((s.ctx c).reg (wA w)).toNat < (s.ctx c).code.length →
    s.Fetches c ((s.ctx c).reg (wA w)).toNat →
    Answers (exec (.dxnJr c body) s) (State.GoesTo (if bitOf (wM w) 0 = true then
        s.setCtx c ((s.ctx c).setReg 31 (BitVec.ofNat 64 ((s.ctx c).pc + 1))) else s) c ((s.ctx c).reg (wA w)).toNat)) ∧
  (∀ (c : Ctx) (body : BitVec 56) (s : State) (w : Nat), w = dxnWord 0xA2 body → s.Runs c w [] false → (s.ctx c).reg (wD w) ≠ 1 → 0 ≤ (s.ctx c).pc + sextImm w →
    (s.ctx c).pc + sextImm w < (s.ctx c).code.length → s.Fetches c ((s.ctx c).pc + sextImm w).toNat →
    Answers (exec (.dxnDbnz c body) s) (State.GoesTo (s.setCtx c ((s.ctx c).setReg (wD w) ((s.ctx c).reg (wD w) - 1))) c
      ((s.ctx c).pc + sextImm w).toNat)) ∧
  (∀ (c : Ctx) (body : BitVec 56) (s : State) (w : Nat), w = dxnWord 0xA2 body → s.Runs c w [] false → (s.ctx c).reg (wD w) = 1 →
    Answers (exec (.dxnDbnz c body) s) (s.Steps c (s.setCtx c ((s.ctx c).setReg (wD w) 0)))) ∧
  (∀ (c : Ctx) (body : BitVec 56) (s : State) (w : Nat), w = dxnWord 0xA3 body → s.Issues c w [] false →
    Answers (exec (.dxnEnd c body) s) fun t =>
      t = ((s.setCtx c { s.ctx c with pc := (s.ctx c).pc + 1 }).endAsEnd c).countIssued c) ∧
  (∀ (c : Ctx) (s : State), (s.ctx c).status = .stopping → (s.ctx c).endIssued = true → s.opsOf c = [] → s.aborted c = false →
    exec (.contextEnd c) s = .next (s.endCtx c)) ∧
  (∀ (c : Ctx) (s : State), (s.ctx c).status = .running → s.opsOf c = [] →
    s.endAsEnd c = (s.setCtx c { s.ctx c with status := .stopping, wait := none, stalled := false, endIssued := true }).endCtx c) ∧
  (∀ (q : Fin 4) (row : Fin 30) (col : Fin 32) (n : Fin 4) (s : State), swf (fun _ => {}) s.dxn.ctxs = true →
    ((s.endCtx (.t q row col n)).ctx (.t q row col n)).status = .free ∧
    (∀ d, d ≠ .t q row col n → (s.endCtx (.t q row col n)).ctx d = s.ctx d) ∧ (s.endCtx (.t q row col n)).regs = s.regs) ∧
  (∀ (n : Fin 64) (s : State), (s.ctx (.c n)).runLimit ≠ 0 → (s.ctx (.c n)).status = .running ∨ (s.ctx (.c n)).status = .waiting →
    exec (.runLimitExpiry n) s = .next (s.except (.c n) 0xE (s.ctx (.c n)).pc 0)) ∧
  (∀ (n : Fin 64) (s : State), (s.ctx (.c n)).runLimit = 0 → exec (.runLimitExpiry n) s = .next s) ∧
  (∀ (c : Ctx) (code index : Nat) (info : Word) (s : State), (s.ctx c).status = .running → (s.ctx c).item = none → s.trussOf c = none →
    s.opsOf c ≠ [] → s.except c code index info =
      (let u := (s.faultLog code (profileOf c) (s.ctx c).domain index (whoOf c) info).setCtx c
        { s.ctx c with status := .stopping, wait := none, stalled := false, endIssued := false }
      let u := if profileOf c = 3 then u else u.addPeg (s.ctx c).faultPeg.toNat 1
      if profileOf c = 1 then u.count (ctrTenon (tenonOf c) 3) else u)) ∧
  (∀ (c : Ctx) (body : BitVec 56) (s : State) (w k : Nat), w = dxnWord 0x01 body → (s.ctx c).status = .running →
    (s.ctx c).code[(s.ctx c).pc]? = some (BitVec.ofNat 64 w) → encodingFault (profileOf c) (s.ctx c).version.toNat w = some k →
    Answers (exec (.dxnAdd c body) s) (s.Raises c k 0)) ∧
  (∀ (profile version w : Nat), encodingFault profile version w =
    (if missing profile (wOp w) = true ∨ fieldsOk profile w = false then some 1 else if groupIn profile (wOp w) = false then some 2
     else if version < sinceOf w then some 3 else none)) ∧
  (∀ (c : Ctx) (body : BitVec 56) (s : State) (w : Nat) (locks : List Lock), w = dxnWord 0x20 body → locks = locksDAB w → (s.ctx c).status = .running →
    (s.ctx c).code[(s.ctx c).pc]? = some (BitVec.ofNat 64 w) → encodingFault (profileOf c) (s.ctx c).version.toNat w = none →
    s.lockedFor c locks = true → Answers (exec (.dxnVadd c body) s) (s.Stalls c)) ∧
  (∀ (c : Ctx) (body : BitVec 56) (s : State) (w : Nat), w = dxnWord 0xF0 body → s.Runs c w [] false →
    Answers (exec (.dxnNop c body) s) (s.Steps c s)) ∧
  (∀ (c : Ctx) (body : BitVec 56) (s : State) (w : Nat), w = dxnWord 0xF1 body → s.Issues c w [] false →
    Answers (exec (.dxnTrap c body) s) (s.Raises c 0xF (BitVec.ofNat 64 (iImm w)))) ∧
  (∀ (c : Ctx) (body : BitVec 56) (s : State) (w : Nat), w = dxnWord 0xF2 body → s.Runs c w [] false →
    Answers (exec (.dxnFflags c body) s) (s.Steps c (s.setCtx c { (s.ctx c).setReg (wD w) ((s.ctx c).fflags.setWidth 64) with
        fflags := if bitOf (wM w) 0 = true then 0 else (s.ctx c).fflags }))) ∧
  (∀ (c : Ctx) (body : BitVec 56) (s : State) (w : Nat), w = dxnWord 0xF3 body → s.Runs c w [] false →
    Answers (exec (.dxnRngset c body) s) fun t =>
      let n := ((s.ctx c).reg (wB w)).toNat + ((s.ctx c).reg (wC w)).toNat % 2 ^ 62 * 2 ^ 64 + (s.ctx c).rngCtr.toNat / 2 ^ 126 * 2 ^ 126
      s.Steps c (s.setCtx c { s.ctx c with rngKey := (s.ctx c).reg (wA w), rngCtr := BitVec.ofNat 128 n }) t) ∧
  (∀ (c : Ctx) (body : BitVec 56) (s : State) (w : Nat), w = dxnWord 0xF4 body → s.Runs c w [] false →
    Answers (exec (.dxnVersion c body) s) (s.Steps c (s.setCtx c ((s.ctx c).setReg (wD w) (BitVec.ofNat 64 (profileOf c * 2 ^ 32 + 2 * 2 ^ 24 + 1 * 2 ^ 16 +
      (s.ctx c).version.toNat / 16 * 2 ^ 8 + (s.ctx c).version.toNat % 16)))))) ∧
  (∀ (c : Ctx) (body : BitVec 56) (s : State) (w : Nat), w = dxnWord 0xF5 body → s.Runs c w [] false →
    Answers (exec (.dxnTime c body) s) (s.Steps c (s.setCtx c ((s.ctx c).setReg (wD w) (s.stamp))))) ∧
  (∀ (c : Ctx) (body : BitVec 56) (s : State) (w : Nat), w = dxnWord 0xF6 body → s.Runs c w [] false →
    Answers (exec (.dxnWhoami c body) s) (s.Steps c (s.setCtx c ((s.ctx c).setReg (wD w) (BitVec.ofNat 64 ((s.ctx c).domain.toNat * 2 ^ 20 + profileOf c * 2 ^ 16 + whoOf c)))))) ∧
  (∀ (c : Ctx) (body : BitVec 56) (s : State) (w : Nat), w = dxnWord 0xF7 body → s.Runs c w [] false →
    Answers (exec (.dxnModid c body) s) (s.Steps c (s.setCtx c ((s.ctx c).setReg (wD w) (s.rd R.GLB_ID)))))

/-- Each instruction of the group writes its outcome to gD and, when its rules pass, has its effect: TSTART and BSTART start
contexts from an image that passed its checks, TRUSS binds a truss and UNTRUSS unbinds one, SEGLOCK locks and SEGPUB publishes a
segment, EFLIP sets an epoch flip, PASSIGN gives pegs to a domain, TSTOP ends contexts, COMMIT asks for the check of a set and
waits for its answer. Those reserved to domain 0x000 raise SPACE elsewhere. -/
def Obligations.ManagerInstructions : Prop :=
  (∀ (c : Ctx) (body : BitVec 56) (read : HostRead) (errs : List LineErr) (v : Nat) (code : List Word) (data : Bytes) (crc : BitVec 32) (t : TargetSet)
    (s : State) (w : Nat), w = dxnWord 0xC0 body → s.Runs c w [] false → targetSet ((s.ctx c).reg (wB w)).toNat = some t →
    s.tstartReason (s.ctx c).domain ((s.ctx c).reg (wB w)).toNat ((s.ctx c).reg (wC w)).toNat = 0 → t.bays.any (fun n => s.bayState n != 0) = false →
    (s.checkImage ((s.ctx c).reg (wA w)) 1 (((s.ctx c).reg (wC w)).toNat % 2 ^ 24) 0 read errs).2 = .ok v code data crc →
    Answers (exec (.dxnTstart c body read errs) s) fun y =>
      let u := t.ctxs.foldl (fun s' k => s'.startTenon k (s.ctx c).domain ((s.ctx c).reg (wC w)).toNat v code data ((s.ctx c).reg (wA w)) crc)
        (s.checkImage ((s.ctx c).reg (wA w)) 1 (((s.ctx c).reg (wC w)).toNat % 2 ^ 24) 0 read errs).1
      s.Steps c (u.setCtx c ((u.ctx c).setReg (wD w) 0)) y) ∧
  (∀ (c : Ctx) (body : BitVec 56) (read : HostRead) (errs : List LineErr) (s : State) (w : Nat), w = dxnWord 0xC0 body → s.Runs c w [] false →
    s.tstartReason (s.ctx c).domain ((s.ctx c).reg (wB w)).toNat ((s.ctx c).reg (wC w)).toNat ≠ 0 → Answers (exec (.dxnTstart c body read errs) s)
      (s.Steps c (s.setCtx c ((s.ctx c).setReg (wD w) (BitVec.ofNat 64 (s.tstartReason (s.ctx c).domain ((s.ctx c).reg (wB w)).toNat ((s.ctx c).reg (wC w)).toNat * 256)))))) ∧
  (∀ (c : Ctx) (body : BitVec 56) (read : HostRead) (errs : List LineErr) (v : Nat) (code : List Word) (data : Bytes) (crc : BitVec 32)
    (s : State) (w : Nat), w = dxnWord 0xC1 body → s.Runs c w [] false →
    s.bstartReason (s.ctx c).domain ((s.ctx c).reg (wB w)).toNat ((s.ctx c).reg (wC w)).toNat = 0 →
    (s.checkImage ((s.ctx c).reg (wA w)) 2 (((s.ctx c).reg (wC w)).toNat % 2 ^ 24) (32768 - s.engineCode (bitsOf ((s.ctx c).reg (wB w)).toNat 50 48)) read errs).2 = .ok v code data crc →
    Answers (exec (.dxnBstart c body read errs) s) fun y =>
      let b := ((s.ctx c).reg (wB w)).toNat
      let u := (s.checkImage ((s.ctx c).reg (wA w)) 2 (((s.ctx c).reg (wC w)).toNat % 2 ^ 24) (32768 - s.engineCode (bitsOf ((s.ctx c).reg (wB w)).toNat 50 48)) read errs).1.startSlot (bitsOf b 50 48) (b % 1024) (s.ctx c).item (s.ctx c).domain ((s.ctx c).reg (wC w)).toNat v code data ((s.ctx c).reg (wA w)) crc
      s.Steps c (u.setCtx c ((u.ctx c).setReg (wD w) 0)) y) ∧
  (∀ (k : Ctx) (domain : BitVec 12) (c version : Nat) (code : List Word) (img : Word) (crc : BitVec 32) (s : State), c % 2 ^ 24 < code.length →
    ((s.startTenon k domain c version code [] img crc).ctx k).domain = domain ∧
    ((s.startTenon k domain c version code [] img crc).ctx k).pc = c % 2 ^ 24 ∧
    ((s.startTenon k domain c version code [] img crc).ctx k).faultPeg.toNat = bitsOf c 39 24 ∧
    ((s.startTenon k domain c version code [] img crc).ctx k).code = code) ∧
  (∀ (c : Ctx) (body : BitVec 56) (a n : Nat) (d : Bytes) (s : State) (w : Nat), w = dxnWord 0xC2 body → s.Runs c w [] false → a = ((s.ctx c).reg (wA w)).toNat →
    s.checksRun = false → a % 64 = 0 → n = min 64 (byteAt (sbytes s.mem.bytes a 64) 2) → s.deviceOk a 64 = true → s.deviceOk a (64 + 4 * n) = true →
    s.rangePoisoned a (64 + 4 * n) = false → s.rangePoisoned a 64 = false → s.rangePoisoned (a + 64) (4 * n) = false → (memBays a (64 + 4 * n)).all (fun b => !s.resting b) = true →
    (memBays a 64).all (fun b => !s.resting b) = true → (memBays (a + 64) (4 * n)).all (fun b => !s.resting b) = true → s.poisonedLines a 64 = 0 → s.poisonedLines (a + 64) (4 * n) = 0 →
    d = sbytes s.mem.bytes a 64 ++ sbytes s.mem.bytes (a + 64) (4 * n) → s.trussReason (s.ctx c).domain d = 0 →
    (trussBays d).any s.bayLost = false → s.bayWait (trussBays d) = false →
    Answers (exec (.dxnTruss c body []) s) (s.Steps c ((s.bindTruss d).setCtx c (((s.bindTruss d).ctx c).setReg (wD w) 0)))) ∧
  (∀ (c : Ctx) (body : BitVec 56) (errs : List LineErr) (s : State) (w : Nat), w = dxnWord 0xC2 body → s.Runs c w [] false →
    s.checksRun = false → ((s.ctx c).reg (wA w)).toNat % 64 ≠ 0 → Answers (exec (.dxnTruss c body errs) s) (s.Steps c (s.setCtx c ((s.ctx c).setReg (wD w) 0x11)))) ∧
  (∀ (c : Ctx) (body : BitVec 56) (n : Nat) (s : State) (w : Nat), w = dxnWord 0xC3 body → s.Runs c w [] false → n = ((s.ctx c).reg (wA w)).toNat % 65536 →
    s.checksRun = false → n < 1024 → s.fld (R.TEN_TRUSS (n / 256) (n % 256)) F.TEN_TRUSS_STATE ≠ 0 →
    (s.ctx c).domain = 0 ∨ s.fld (R.TEN_TRUSS (n / 256) (n % 256)) F.TEN_TRUSS_DOMAIN = (s.ctx c).domain.toNat →
    Answers (exec (.dxnUntruss c body) s) (s.Steps c ((s.unbindTruss n).setCtx c (((s.unbindTruss n).ctx c).setReg (wD w) 0)))) ∧
  (∀ (c : Ctx) (body : BitVec 56) (n : Nat) (s : State) (w : Nat), w = dxnWord 0xC3 body → s.Runs c w [] false → n = ((s.ctx c).reg (wA w)).toNat % 65536 →
    s.checksRun = false → 1024 ≤ n ∨ s.fld (R.TEN_TRUSS (n / 256) (n % 256)) F.TEN_TRUSS_STATE = 0 →
    Answers (exec (.dxnUntruss c body) s) (s.Steps c (s.setCtx c ((s.ctx c).setReg (wD w) 0x10)))) ∧
  (∀ (c : Ctx) (body : BitVec 56) (s : State) (w : Nat), w = dxnWord 0xC4 body → s.Runs c w [] false → (s.ctx c).domain = 0 → s.checksRun = false →
    Answers (exec (.dxnSeglock c body) s) (s.Steps c (((s.seglock ((s.ctx c).reg (wA w)).toNat).2).setCtx c ((((s.seglock ((s.ctx c).reg (wA w)).toNat).2).ctx c).setReg (wD w) (BitVec.ofNat 64 ((s.seglock ((s.ctx c).reg (wA w)).toNat).1)))))) ∧
  (∀ (c : Ctx) (body : BitVec 56) (s : State) (w : Nat), w = dxnWord 0xC4 body → s.Runs c w [] false → (s.ctx c).domain ≠ 0 →
    Answers (exec (.dxnSeglock c body) s) fun t => t = s.draw.2.except c 4 (s.ctx c).pc s.draw.1) ∧
  (∀ (c : Ctx) (body : BitVec 56) (s : State) (w : Nat), w = dxnWord 0xC5 body → s.Runs c w [] false → (s.ctx c).domain = 0 → s.checksRun = false →
    Answers (exec (.dxnSegpub c body) s) (s.Steps c (((s.segpub ((s.ctx c).reg (wA w)).toNat).2).setCtx c ((((s.segpub ((s.ctx c).reg (wA w)).toNat).2).ctx c).setReg (wD w) (BitVec.ofNat 64 ((s.segpub ((s.ctx c).reg (wA w)).toNat).1)))))) ∧
  (∀ (c : Ctx) (body : BitVec 56) (s : State) (w : Nat), w = dxnWord 0xC5 body → s.Runs c w [] false → (s.ctx c).domain ≠ 0 →
    Answers (exec (.dxnSegpub c body) s) fun t => t = s.draw.2.except c 4 (s.ctx c).pc s.draw.1) ∧
  (∀ (c : Ctx) (body : BitVec 56) (s : State) (w : Nat), w = dxnWord 0xC8 body → s.Runs c w [] false → (s.ctx c).domain = 0 → s.checksRun = false →
    Answers (exec (.dxnPassign c body) s) (s.Steps c (((s.pegAssign (((s.ctx c).reg (wA w)).toNat % 65536) (((s.ctx c).reg (wB w)).toNat % 65536) (((s.ctx c).reg (wC w)).toNat % 4096)).2).setCtx c ((((s.pegAssign (((s.ctx c).reg (wA w)).toNat % 65536) (((s.ctx c).reg (wB w)).toNat % 65536) (((s.ctx c).reg (wC w)).toNat % 4096)).2).ctx c).setReg (wD w) (BitVec.ofNat 64 ((s.pegAssign (((s.ctx c).reg (wA w)).toNat % 65536) (((s.ctx c).reg (wB w)).toNat % 65536) (((s.ctx c).reg (wC w)).toNat % 4096)).1)))))) ∧
  (∀ (c : Ctx) (body : BitVec 56) (s : State) (w : Nat), w = dxnWord 0xC8 body → s.Runs c w [] false → (s.ctx c).domain ≠ 0 →
    Answers (exec (.dxnPassign c body) s) fun t => t = s.draw.2.except c 4 (s.ctx c).pc s.draw.1) ∧
  (∀ (c : Ctx) (body : BitVec 56) (s : State) (w : Nat), w = dxnWord 0xC7 body → s.Runs c w [] false → (s.ctx c).domain = 0 → s.checksRun = false →
    Answers (exec (.dxnEflip c body) s) (s.Steps c (((s.eflipFrom ((s.ctx c).reg (wA w)) 1 0).2).setCtx c ((((s.eflipFrom ((s.ctx c).reg (wA w)) 1 0).2).ctx c).setReg (wD w) (BitVec.ofNat 64 ((s.eflipFrom ((s.ctx c).reg (wA w)) 1 0).1)))))) ∧
  (∀ (c : Ctx) (body : BitVec 56) (s : State) (w : Nat), w = dxnWord 0xC7 body → s.Runs c w [] false → (s.ctx c).domain ≠ 0 →
    Answers (exec (.dxnEflip c body) s) fun t => t = s.draw.2.except c 4 (s.ctx c).pc s.draw.1) ∧
  (∀ (a t b seg : Nat) (s : State), segArg a = some (t, b, seg) → s.segLocked t b seg = false → s.retiring t b = false →
    s.seglock a = (0, s.setBit (R.FWD_SEG_LOCK t b (seg / 64)) (seg % 64) true)) ∧
  (∀ (a t b seg : Nat) (s : State), segArg a = some (t, b, seg) → s.segLocked t b seg = true → s.pendingOf t b seg = [] → tblBanked t = false →
    s.segpub a = (0, s.setBit (R.FWD_SEG_LOCK t b (seg / 64)) (seg % 64) false)) ∧
  (∀ (c : Ctx) (body : BitVec 56) (t : TargetSet) (s : State) (w : Nat), w = dxnWord 0xC9 body → s.Runs c w [] false →
    targetSet ((s.ctx c).reg (wB w)).toNat = some t → Answers (exec (.dxnTstop c body) s) fun y =>
      let l := t.places.filter fun p => (s.ctx c).domain == 0 || s.tenonOwner t.quad p.1 p.2 == (s.ctx c).domain
      let busy := (l.map fun p => tCtx t.quad p.1 p.2 t.num).filter fun k => (s.ctx k).status != .free
      let u := busy.foldl (fun s k => if (s.ctx k).status = .stopping then s else s.endAsEnd k) s
      s.Steps c (u.setCtx c ((u.ctx c).setReg (wD w) (BitVec.ofNat 64 busy.length))) y) ∧
  (∀ (n : Fin 64) (body : BitVec 56) (a : Nat) (s : State) (c : Ctx) (w : Nat), c = .c n → w = dxnWord 0xC6 body → s.Issues c w [] false → a = ((s.ctx c).reg (wA w)).toNat →
    (s.ctx c).domain = 0 → s.cfg.checks.any (fun k => k.dest == n.val + 1) = false → a < 256 → setCommits a = true →
    exec (.dxnCommit c body) s = .next (((s.askCommit a 1 0 (n.val + 1)).setCtx c { s.ctx c with stalled := true }).countIssued c)) ∧
  (∀ (q : Fin 4) (rect : TenonRect) (domain : BitVec 12) (s : State), s.regsWf = true → s.flag (R.TEN_ASSIGN q) F.TEN_ASSIGN_GO = false →
    s.cfg.checks = [] → rect.lastRow.toNat < 30 → rect.firstRow.toNat ≤ rect.lastRow.toNat → rect.firstCol.toNat ≤ rect.lastCol.toNat → s.dxn.ctxs = [] →
    (∀ r, r < 30 → ∀ c, c < 32 → s.flag (R.TEN_TENON q r c) F.TEN_TENON_IN_TRUSS = false) →
    Answers (exec (.tenonAssign q rect domain) s) fun t =>
      (∀ r c, r < 30 → c < 32 → t.tenonOwner q r c = if rect.firstRow.toNat ≤ r ∧ r ≤ rect.lastRow.toNat ∧ rect.firstCol.toNat ≤ c ∧
        c ≤ rect.lastCol.toNat then domain else s.tenonOwner q r c) ∧
      t.fld (R.TEN_ASSIGN_STATUS q) F.TEN_ASSIGN_STATUS_REASON = 0 ∧ t.flag (R.TEN_ASSIGN q) F.TEN_ASSIGN_GO = false ∧
      t.cfg.checks = [] ∧ t.dxn = s.dxn ∧ t.mem = s.mem) ∧
  (∀ s : State, s.dxn.ctxs = [] → exec .cacheFlush s = .next { s with dxn := { s.dxn with images := [] } }) ∧
  (∀ s : State, Answers (exec .cacheFlush s) fun t =>
    t = { s with dxn := { s.dxn with images := t.dxn.images } } ∧
    t.dxn.images = (s.dxn.images.map fun i => { i with flushed := true }).filter fun i =>
      s.dxn.ctxs.any fun x => x.2.image == some (i.image, i.headerCrc))

/-- In a B context whose operation Table 9.7 lists with the instruction, CACC, CEMIT, CGATH, CAPPLY, CBAR and CRING issue as
long operations on the chunk or step they name; an operation that the table does not list with it aborts with BAD_OPERATION.
CACC completes when no awaited member is missing, CEMIT when its chunk has been sealed, retained and sent, CBAR and CRING when
every member has arrived at the step. CABORT aborts the operation, CSTAT reads its slot. -/
def Obligations.CollectiveInstructions : Prop :=
  (∀ (e : Fin 8) (sl : Fin 1024) (body : BitVec 56) (s : State) (c : Ctx) (w : Nat), c = .b e sl → w = dxnWord 0xB0 body → s.Runs c w [] true →
    (s.slot e sl).op ∈ [1, 2, 4, 7] → (s.slot e sl).accumOk ((s.ctx c).reg (wB w)).toNat ((s.ctx c).reg (wA w)).toNat = true →
    ((s.slot e sl).chunk ((s.ctx c).reg (wB w)).toNat).caccs < (if (s.slot e sl).op = 7 then 2 else 1) →
    (s.slot e sl).early = [] → (s.slot e sl).dropped = [] → Answers (exec (.dxnCacc c body []) s) fun t =>
      let x := s.slot e sl
      let k := { ((s.slot e sl).chunk ((s.ctx c).reg (wB w)).toNat) with caccs := ((s.slot e sl).chunk ((s.ctx c).reg (wB w)).toNat).caccs + 1, addr := ((s.ctx c).reg (wA w)).toNat, phase := .accumulating, started := true }
      s.Steps c (((s.setSlot e sl (x.setChunk ((s.ctx c).reg (wB w)).toNat k)).addLong c (.cacc ((s.ctx c).reg (wB w)).toNat ((s.ctx c).reg (wA w)).toNat) []).takeEarly e sl ((s.ctx c).reg (wB w)).toNat []) t) ∧
  (∀ (e : Fin 8) (sl : Fin 1024) (body : BitVec 56) (s : State) (c : Ctx) (w : Nat), c = .b e sl → w = dxnWord 0xB1 body → s.Runs c w [] true →
    (s.slot e sl).op ∈ [1, 2] → (s.slot e sl).accumOk ((s.ctx c).reg (wB w)).toNat ((s.ctx c).reg (wA w)).toNat = true →
    ((s.slot e sl).chunk ((s.ctx c).reg (wB w)).toNat).phase ≠ .emitted → ((s.slot e sl).chunk ((s.ctx c).reg (wB w)).toNat).phase ≠ .retained → Answers (exec (.dxnCemit c body) s) fun t =>
      s.Steps c ((s.setSlot e sl ((s.slot e sl).setChunk ((s.ctx c).reg (wB w)).toNat { ((s.slot e sl).chunk ((s.ctx c).reg (wB w)).toNat) with phase := .retained })).addLong c
        (.cemit ((s.ctx c).reg (wB w)).toNat ((s.ctx c).reg (wA w)).toNat) []) t) ∧
  (∀ (e : Fin 8) (sl : Fin 1024) (body : BitVec 56) (s : State) (c : Ctx) (w : Nat), c = .b e sl → w = dxnWord 0xB2 body → s.Runs c w [] true →
    (s.slot e sl).op ∈ [3] → ((s.ctx c).reg (wB w)).toNat < (s.slot e sl).nChunks → ((s.slot e sl).chunk ((s.ctx c).reg (wB w)).toNat).started = false →
    (s.slot e sl).early = [] → (s.slot e sl).dropped = [] → Answers (exec (.dxnCgath c body) s) fun t =>
      let k := { ((s.slot e sl).chunk ((s.ctx c).reg (wB w)).toNat) with started := true, phase := .accumulating }
      s.Steps c (((s.setSlot e sl ((s.slot e sl).setChunk ((s.ctx c).reg (wB w)).toNat k)).addLong c (.cgath ((s.ctx c).reg (wB w)).toNat) []).takeEarly e sl
        ((s.ctx c).reg (wB w)).toNat []) t) ∧
  (∀ (e : Fin 8) (sl : Fin 1024) (body : BitVec 56) (n : Nat) (s : State) (c : Ctx) (w : Nat), c = .b e sl → w = dxnWord 0xB3 body → s.Runs c w [] true →
    (s.slot e sl).op ∈ [4, 7] → (s.channel e (((s.ctx c).reg (wC w)).toNat % 16)).truss = some n →
    (s.ctx c).domain = 0 ∨ leAt (sget {} s.ten.trusses n).descriptor 4 2 = (s.ctx c).domain.toNat → (s.slot e sl).accumOk ((s.ctx c).reg (wB w)).toNat ((s.ctx c).reg (wA w)).toNat = true →
    s.outFmt (s.slot e sl).group ≠ 3 → s.outFmt (s.slot e sl).group ≠ 7 → s.fld (R.TEN_TRUSS (n / 256) (n % 256)) F.TEN_TRUSS_STATE ≠ 2 →
    (s.channel e (((s.ctx c).reg (wC w)).toNat % 16)).handed = [] → Answers (exec (.dxnCapply c body []) s) fun t =>
      s.Steps c (s.hand c e sl (((s.ctx c).reg (wC w)).toNat % 16) ((s.ctx c).reg (wB w)).toNat ((s.ctx c).reg (wA w)).toNat n (sget {} s.ten.trusses n)) t) ∧
  (∀ (e : Fin 8) (sl : Fin 1024) (body : BitVec 56) (s : State) (c : Ctx) (w : Nat), c = .b e sl → w = dxnWord 0xB4 body → s.Runs c w [] true →
    (s.slot e sl).op ∈ [5] → Answers (exec (.dxnCbar c body) s) fun t =>
      let step := ((s.ctx c).reg (wB w)).toNat % 65536
      let x := s.slot e sl
      let kept := x.arrivals.filter fun a => a.1 == step || a.1 == (step + 1) % 65536
      s.Steps c ((s.setSlot e sl { x with curStep := step, arrivals := kept }).addLong c (.cbar step) []) t) ∧
  (∀ (e : Fin 8) (sl : Fin 1024) (body : BitVec 56) (s : State) (c : Ctx) (w : Nat), c = .b e sl → w = dxnWord 0xB5 body → s.Runs c w [] true →
    (s.slot e sl).op ∈ [6] → s.circuitOf (s.slot e sl).circuit (s.grpA (s.slot e sl).group F.BSN_GROUP_A_DOMAIN) = true → Answers (exec (.dxnCring c body) s) (s.Steps c (s.addLong c (.cring (((s.ctx c).reg (wB w)).toNat % 65536)) []))) ∧
  (∀ (e : Fin 8) (sl : Fin 1024) (body : BitVec 56) (s : State) (c : Ctx) (w : Nat), c = .b e sl → w = dxnWord 0xB6 body → s.Runs c w [] false →
     (s.slot e sl).op < 16 → Answers (exec (.dxnCabort c body) s) fun t =>
      let code := ((s.ctx c).reg (wA w)).toNat % 65536
      t = (s.bsnAbort e sl (if code = 5 ∨ 0x8000 ≤ code then code else 5) 0xFFFF 0).countIssued c) ∧
  (∀ (e : Fin 8) (sl : Fin 1024) (body : BitVec 56) (s : State) (c : Ctx) (w : Nat), c = .b e sl → w = dxnWord 0xB7 body → s.Runs c w [] false →
     (s.slot e sl).op < 16 → Answers (exec (.dxnCstat c body) s) (s.Steps c (s.setCtx c ((s.ctx c).setReg (wD w) (s.rd (R.BSN_SLOT e sl)))))) ∧
  (∀ (e : Fin 8) (sl : Fin 1024) (body : BitVec 56) (s : State) (c : Ctx) (w : Nat), c = .b e sl → w = dxnWord 0xB4 body → s.Runs c w [] true →
    (s.slot e sl).op ≠ 5 → Answers (exec (.dxnCbar c body) s) fun t => t = (s.bsnAbort e sl 9 0xFFFF 0xB).countIssued c) ∧
  (∀ (op : Nat) (e : Fin 8) (sl : Fin 1024) (chunk : Nat) (read : HostRead) (o : LongOp) (s : State), s.longOp? op = some o → o.ctx = .b e sl →
    o.kind = .cacc chunk 64 → s.missing e sl chunk = [] → exec (.longOpComplete op read []) s = .next ((s.setSlot e sl ((s.slot e sl).setChunk chunk { (s.slot e sl).chunk chunk with phase := .accumulated })).completeLong o)) ∧
  (∀ (op : Nat) (e : Fin 8) (sl : Fin 1024) (chunk : Nat) (read : HostRead) (o : LongOp) (s : State), s.longOp? op = some o → o.ctx = .b e sl →
    o.kind = .cacc chunk 64 → s.missing e sl chunk ≠ [] → exec (.longOpComplete op read []) s = .next (s)) ∧
  (∀ (op : Nat) (e : Fin 8) (sl : Fin 1024) (chunk : Nat) (read : HostRead) (o : LongOp) (s : State), s.longOp? op = some o → o.ctx = .b e sl →
    o.kind = .cemit chunk 64 → exec (.longOpComplete op read []) s = .next (s.emitThen o e sl chunk (encodeElems (s.outFmt (s.slot e sl).group) (s.accumWords e sl 64 0 (s.slot e sl).elems)))) ∧
  (∀ (op : Nat) (e : Fin 8) (sl : Fin 1024) (chunk : Nat) (read : HostRead) (o : LongOp) (s : State), s.longOp? op = some o → o.ctx = .b e sl →
    o.kind = .cgath chunk → s.missing e sl chunk = [] → exec (.longOpComplete op read []) s = .next (s.emitThen o e sl chunk ((s.slot e sl).chunk chunk).owner.flatten)) ∧
  (∀ (op : Nat) (e : Fin 8) (sl : Fin 1024) (chunk : Nat) (read : HostRead) (o : LongOp) (s : State), s.longOp? op = some o → o.ctx = .b e sl →
    o.kind = .cbar chunk → arrivedAll (s.slot e sl).arrivals chunk (s.members (s.slot e sl).group).length = true → exec (.longOpComplete op read []) s = .next (((s.setSlot e sl { s.slot e sl with arrivals := (s.slot e sl).arrivals.filter fun a => a.1 != chunk }).sendNotice
      (s.slot e sl).group (s.slot e sl).op (s.slot e sl).opSeq 6 chunk).completeLong o)) ∧
  (∀ (op : Nat) (e : Fin 8) (sl : Fin 1024) (chunk : Nat) (read : HostRead) (o : LongOp) (s : State), s.longOp? op = some o → o.ctx = .b e sl →
    o.kind = .cring chunk → arrivedAll (s.slot e sl).stepDone chunk (s.members (s.slot e sl).group).length = true → exec (.longOpComplete op read []) s = .next ((s.setSlot e sl { s.slot e sl with stepDone := (s.slot e sl).stepDone.filter fun a => a.1 != chunk }).completeLong o)) ∧
  (∀ (int : Bool) (reduce a x : Nat), int = true → combineElem int reduce a x = wrapInt 64
      (if reduce = 0 then satInt 64 (signedOf 64 a + signedOf 64 x) else if reduce = 1 then min (signedOf 64 a) (signedOf 64 x)
       else max (signedOf 64 a) (signedOf 64 x)))

/-- A frame from a member of an active operation has its effect: the next contribution of a chunk that is being taken is
accumulated and counted, one already held is a duplicate, one for a chunk not yet taken is kept while EARLY_CELLS allows; an
abort notice aborts with its code; an arrival or a step report is recorded once. A frame that the operation does not take is a
MEMBER_REJECT. A retransmit request is answered from the retained copy. TIMEOUT, STEP_BUDGET and HOST_ABORT abort with their
codes; the end of an abort writes the record, adds to ABORT_PEG and logs; retention and codes expire. -/
def Obligations.CollectiveFramesAndAborts : Prop :=
  (∀ (e : Fin 8) (errs : List LineErr) (f : CollFrame) (rest : List CollFrame) (sl : Nat) (u s : State), sget [] s.bsn.inbox e = f :: rest → f.kind = 1 →
    u = { s with bsn := { s.bsn with inbox := sset [] s.bsn.inbox e rest } } → u.accept e f = (u, some sl) →
    exec (.contribution e errs) s = .next (let t := u.contribute e sl f errs
      if t.engineHolds f.stored = true then t else t.release f.stored)) ∧
  (∀ (e : Fin 8) (f : CollFrame) (rest : List CollFrame) (sl : Nat) (u s : State), sget [] s.bsn.inbox e = f :: rest → f.kind = 4 →
    u = { s with bsn := { s.bsn with inbox := sset [] s.bsn.inbox e rest } } → u.accept e f = (u, some sl) →
    exec (.abortNotice e) s = .next (let t := u.bsnAbort e sl f.code f.member 0
      if t.engineHolds f.stored = true then t else t.release f.stored)) ∧
  (∀ (e : Fin 8) (f : CollFrame) (rest : List CollFrame) (sl : Nat) (u s : State), sget [] s.bsn.inbox e = f :: rest → f.kind = 5 →
    u = { s with bsn := { s.bsn with inbox := sset [] s.bsn.inbox e rest } } → u.accept e f = (u, some sl) →
    f.code = (u.slot e sl).curStep ∨ f.code = ((u.slot e sl).curStep + 1) % 65536 →
    exec (.barrierArrival e) s = .next (let l := if (u.slot e sl).arrivals.contains (f.code, f.member) then (u.slot e sl).arrivals else (u.slot e sl).arrivals ++ [(f.code, f.member)]
      let t := u.setSlot e sl { u.slot e sl with arrivals := l }
      if t.engineHolds f.stored = true then t else t.release f.stored)) ∧
  (∀ (e : Fin 8) (f : CollFrame) (rest : List CollFrame) (sl : Nat) (u s : State), sget [] s.bsn.inbox e = f :: rest → f.kind = 7 →
    u = { s with bsn := { s.bsn with inbox := sset [] s.bsn.inbox e rest } } → u.accept e f = (u, some sl) →
    exec (.stepDone e) s = .next (let l := if (u.slot e sl).stepDone.contains (f.code, f.member) then (u.slot e sl).stepDone else (u.slot e sl).stepDone ++ [(f.code, f.member)]
      let t := u.setSlot e sl { u.slot e sl with stepDone := l }
      if t.engineHolds f.stored = true then t else t.release f.stored)) ∧
  (∀ (s : State) (e sl : Nat) (f : CollFrame) (errs : List LineErr), s.contributionOk e sl f = true → f.chunk < (s.slot e sl).nChunks → (s.slot e sl).op ≠ 3 →
    s.taking e sl f.chunk f.member = true → s.isPeer (s.slot e sl).group f.member = false → s.contribute e sl f errs = s.takeContribution e sl f errs) ∧
  (∀ (s : State) (e sl : Nat) (f : CollFrame), (s.slot e sl).op ≠ 3 → sget 0 ((s.slot e sl).chunk f.chunk).expected f.member = f.offset →
    f.offset < s.owed e sl f.chunk f.member → Answers (.next (s.takeContribution e sl f [])) fun t =>
      let k := (s.slot e sl).chunk f.chunk
      t = ((s.accumulate e sl f).setSlot e sl ((s.slot e sl).setChunk f.chunk
        { k with expected := sset 0 k.expected f.member (f.offset + f.count) })).count (ctrBsn e 0)) ∧
  (∀ (s : State) (e sl : Nat) (f : CollFrame) (errs : List LineErr), f.offset < sget 0 ((s.slot e sl).chunk f.chunk).expected f.member →
    s.takeContribution e sl f errs = s.count (ctrBsn e 3)) ∧
  (∀ (s : State) (e sl : Nat) (f : CollFrame) (errs : List LineErr), s.contributionOk e sl f = true → f.chunk < (s.slot e sl).nChunks → (s.slot e sl).op ≠ 3 →
    s.taking e sl f.chunk f.member = false → ((s.slot e sl).early.map CollFrame.cells).foldl (· + ·) f.cells ≤ s.fld (R.BSN_CTRL e) F.BSN_CTRL_EARLY_CELLS →
    s.contribute e sl f errs = s.setSlot e sl { s.slot e sl with early := (s.slot e sl).early ++ [f] }) ∧
  (∀ (e : Fin 8) (f : CollFrame) (rest : List CollFrame) (u s : State), sget [] s.bsn.inbox e = f :: rest → f.kind = 1 →
    u = { s with bsn := { s.bsn with inbox := sset [] s.bsn.inbox e rest } } → f.operation = 0 → u.engineHolds f.stored = false →
    (u.count (ctrBsn e 1)).engineHolds f.stored = false →
    exec (.contribution e []) s = .next ((u.count (ctrBsn e 1)).release f.stored)) ∧
  (∀ (e : Fin 8) (errs : List LineErr) (f : CollFrame) (rest : List CollFrame) (sl : Nat) (r : Retained) (u s : State), sget [] s.bsn.inbox e = f :: rest → f.kind = 3 →
    u = { s with bsn := { s.bsn with inbox := sset [] s.bsn.inbox e rest } } → u.activeSlot e f.group f.opSeq = some sl → u.accept e f = (u, some sl) →
    u.retained? e f.group f.opSeq f.chunk = some r →
    exec (.retransmitRequest e errs) s = .next ((u.serveRetained e f.operation r f errs).release f.stored)) ∧
  (∀ (e : Fin 8) (errs : List LineErr) (f : CollFrame) (rest : List CollFrame) (o : EndedOp) (r : Retained) (u s : State), sget [] s.bsn.inbox e = f :: rest → f.kind = 3 →
    u = { s with bsn := { s.bsn with inbox := sset [] s.bsn.inbox e rest } } → u.activeSlot e f.group f.opSeq = none →
    u.endedOp e f.group f.opSeq = some o → f.operation ≠ 0 → o.code = 0 → u.fromMember (byteAt o.record 0) f = true →
    u.retained? e f.group f.opSeq f.chunk = some r →
    exec (.retransmitRequest e errs) s = .next ((u.serveRetained e f.operation r f errs).release f.stored)) ∧
  (∀ (s : State) (e sl code origin detail : Nat), s.slotActive e sl = false → s.bsnAbort e sl code origin detail = s) ∧
  (∀ (s : State) (e : Fin 8) (sl : Fin 1024) (code origin detail : Nat), s.regsWf = true → s.slotActive e sl = true → code < 65536 →
    (s.bsnAbort e sl code origin detail).slotSt e sl = 2 ∧ (s.bsnAbort e sl code origin detail).slotCode e sl = code ∧
    (s.bsnAbort e sl code origin detail).slotEmitted e sl = s.slotEmitted e sl ∧
    ((s.bsnAbort e sl code origin detail).ctx (.b e sl)).status = .stopping ∧
    (∀ o ∈ (s.bsnAbort e sl code origin detail).dxn.longOps, o ∈ s.dxn.longOps ∧ ¬ (o.ctx = .b e sl ∧ o.kind.isColl = true))) ∧
  (∀ (e : Fin 8) (sl : Fin 1024) (s : State), exec (.basinAbort e sl) s =
    .next ((s.setFld (R.BSN_ABORT e) F.BSN_ABORT_SLOT sl).bsnAbort e sl 5 0xFFFF 0)) ∧
  (∀ (e : Fin 8) (sl : Fin 1024) (s : State), s.slotSt e sl = 2 → (s.slot e sl).closed = false → s.unreported e sl = false →
    exec (.abortComplete e sl) s = .next ((s.bsnAbortEnd e sl).tryEnd (.b e sl))) ∧
  (∀ (s : State) (e : Fin 8) (sl : Fin 1024), (s.slot e sl).outcomeAddr = 0 → s.ctxPegOk (.b e sl) (s.slot e sl).abortPeg = true → (s.slot e sl).notify = false →
    sameOpSeq (s.slotCode e sl) (s.slot e sl).detail = false → Answers (.next (s.bsnAbortEnd e sl)) fun t =>
      t = (((s.addPeg (s.slot e sl).abortPeg 1).bsnLog e 1 (s.slot e sl).group (s.slot e sl).opSeq (s.slotCode e sl) (s.slot e sl).origin sl).releaseOp e
        (s.slot e sl).group (s.slot e sl).opSeq).setSlot e sl { s.slot e sl with closed := true }) ∧
  (∀ (op m : Nat) (e : Fin 8) (sl : Fin 1024) (chunk addr : Nat) (rest : List Nat) (o : LongOp) (s : State), s.longOp? op = some o → o.ctx = .b e sl → o.kind = .cacc chunk addr →
    s.slotActive e sl = true → s.missing e sl chunk = m :: rest → s.portUp (s.memberPort (s.slot e sl).group m) = false →
    exec (.collectiveTimeout op) s = .next (s.bsnAbort e sl 1 m 0)) ∧
  (∀ (op : Nat) (e : Fin 8) (sl : Fin 1024) (step : Nat) (o : LongOp) (s : State), s.longOp? op = some o → o.ctx = .b e sl → o.kind = .cring step →
    arrivedAll (s.slot e sl).stepDone step (s.members (s.slot e sl).group).length = false →
    exec (.stepBudgetExpiry op) s = .next (s.bsnAbort e sl 4 0xFFFF 0)) ∧
  (∀ (e : Fin 8) (sl : Fin 1024) (s : State), swf (fun _ => {}) s.ten.channels = true → s.slotSt e sl = 2 →
    Answers (exec (.applyReportTimeout e sl) s) fun t => t.unreported e sl = false ∧
      (∀ ch, ch < 16 → ∀ h ∈ (s.channel e ch).handed, h.slot = sl.val → ((t.slot e sl).chunk h.chunk).writeMap = 2) ∧
      t = { s with bsn := { s.bsn with slots := t.bsn.slots }, ten := { s.ten with channels := t.ten.channels } }) ∧
  (∀ (e : Fin 8) (group : BitVec 12) (opSeq : BitVec 16) (chunk : Nat) (s : State),
    Answers (exec (.retentionRelease e group opSeq chunk) s) fun t => t.retained? e group.toNat opSeq.toNat chunk = none ∧
      (∀ r ∈ s.bsn.retained, ¬ (r.e = e ∧ r.group = group.toNat ∧ r.opSeq = opSeq.toNat ∧ r.chunk = chunk) → r ∈ t.bsn.retained) ∧
      t = { s with bsn := { s.bsn with retained := t.bsn.retained } }) ∧
  (∀ (e : Fin 8) (group : BitVec 12) (opSeq : BitVec 16) (s : State),
    Answers (exec (.abortCodeExpiry e group opSeq) s) fun t => (∀ o ∈ t.bsn.ended, o ∈ s.bsn.ended ∧
        ¬ (o.e = e ∧ o.group = group.toNat ∧ o.opSeq = opSeq.toNat ∧ o.code ≠ 0)) ∧
      (∀ o ∈ s.bsn.ended, o.code = 0 → o ∈ t.bsn.ended) ∧ t = { s with bsn := { s.bsn with ended := t.bsn.ended } }) ∧
  (∀ (e : Fin 8) (s : State), s.regsWf = true → s.flag (R.BSN_CTRL e) F.BSN_CTRL_ENABLE = false → s.checking (.bsnEnable e) = false →
    exec (.basinEnable e) s = .next (s.pushCheck { kind := .bsnEnable e, offset := R.BSN_CTRL e })) ∧
  (∀ (e : Fin 8) (s : State), s.regsWf = true → s.flag (R.BSN_CTRL e) F.BSN_CTRL_ENABLE = true → s.slotsOf e = [] →
    Answers (exec (.basinDisable e) s) fun t => t.flag (R.BSN_CTRL e) F.BSN_CTRL_ENABLE = false ∧ s.RegsBut t [R.BSN_CTRL e] ∧
      (∀ r ∈ t.bsn.retained, r ∈ s.bsn.retained ∧ r.e ≠ e) ∧ t = { s with regs := t.regs, bsn := { s.bsn with retained := t.bsn.retained } })

/-- Setting ENABLE of a port that is off asks for its check and sets nothing yet; a passed check enables the port, which trains.
On a port that is on, ENABLE is read as it stands, and starts the exchange again only where it had stopped. Clearing ENABLE
disables the port at once, with its lanes unlocked and its queues empty; before the check has passed it abandons the check. Lock
of every lane starts the exchange with a NONCE that is not 0 and nothing known of the partner. PCS loss takes an UP port into
its hold behaviour with reason 1 and counts LINK_DOWN, a port that trains keeps training, and a lent port disregards it. A port
that nothing has been agreed on since ENABLE becomes ABSENT when DISC_TIMEOUT passes, unless the plan says NONE; from a lock on,
a partner without a Core TLV has the non-WLX outcome. When the hold timer expires the port trains, or negotiates on its lock,
and HOLD_EXPIRED names the partner it had. -/
def Obligations.PortLifecycle : Prop :=
  (∀ (p : Fin 2048) (s : State), s.regsWf = true → s.portEnabled p = false → s.checking (.portEnable p) = false →
    exec (.portEnable p) s = .next (s.pushCheck { kind := .portEnable p, offset := prtCtrl p })) ∧
  (∀ (p : Fin 2048) (s : State), s.regsWf = true → s.portEnabled p = true →
    exec (.portEnable p) s = .next (if (s.port p).negStopped = true ∧ s.exchanging p = true then s.startExchange p else s)) ∧
  (∀ (p : Fin 2048) (s : State), s.regsWf = true → swf (fun _ => {}) s.ports = true →
    (s.portStart p).portEnabled p = true ∧ (s.portStart p).portState p = psTraining ∧
    (s.portStart p).fld (prtState p) F.PRT_PORT_STATE_NEG_FAIL = 0 ∧ s.RegsBut (s.portStart p) [prtCtrl p, prtState p] ∧
    ((s.portStart p).port p).partner = none ∧ ((s.portStart p).port p).negStopped = false ∧ ((s.portStart p).port p).met = false) ∧
  (∀ (p : Fin 2048) (s : State), s.regsWf = true → s.portEnabled p = true →
    exec (.portDisable p) s = .next (s.portOff p 6 false)) ∧
  (∀ (p : Fin 2048) (s : State), s.regsWf = true → s.portEnabled p = false →
    exec (.portDisable p) s =
      .next (if s.checking (.portEnable p) = true then s.dropChecks (fun k => k == .portEnable p) else s)) ∧
  (∀ (p : Fin 2048) (reason : Nat) (s : State), s.regsWf = true → swf (fun _ => {}) s.ports = true →
    swf (fun _ => []) s.swc.queues = true → s.swc.frames = [] → s.swc.reseqs = [] → s.portState p ≠ psDisabled → s.portExists p = true →
    let t := s.portOff p reason false
    t.portEnabled p = false ∧ t.portState p = psDisabled ∧ t.portLocked p = false ∧ t.port p = {} ∧ (∀ c, c < 9 → t.queue p c = []) ∧
    t.swc.sending = sdel s.swc.sending p) ∧
  (∀ (p : Fin 2048) (s : State), s.regsWf = true → s.portExists p = true → s.portLent p = false → s.portEnabled p = true →
    s.portLocked p = false → (s.laser (portEngine p)).lightLost = false → (s.laser (portEngine p)).relight = false →
    exec (.pcsLock p) s = .next (s.lockPort p)) ∧
  (∀ (p : Fin 2048) (s : State), s.regsWf = true → s.portExists p = true → s.portEnabled p = true →
    (s.lockPort p).portState p = psNegotiating ∧ (s.lockPort p).portLocked p = true ∧ ((s.lockPort p).port p).partner = none ∧
    ((s.lockPort p).port p).ownNonce ≠ 0 ∧ ((s.lockPort p).port p).outcome = none ∧ ((s.lockPort p).port p).differences = 0 ∧
    ((s.lockPort p).port p).negStopped = false ∧ s.RegsBut (s.lockPort p) [prtState p, R.PRT_PAIR_STATUS (p / 8)]) ∧
  (∀ (p : Fin 2048) (s : State), s.portExists p = true → s.portLent p = false →
    s.portEnabled p = false ∨ s.portLocked p = true ∨ (s.laser (portEngine p)).lightLost = true ∨ (s.laser (portEngine p)).relight = true →
    exec (.pcsLock p) s = .next (s.setLanes p F.PRT_PAIR_STATUS_LIGHT true)) ∧
  (∀ (p : Fin 2048) (dark : BitVec 8) (s : State), s.regsWf = true → s.portExists p = true → s.lossIgnored p = false →
    s.portEnabled p = true → s.portUp p = true → s.fld (R.PRT_HOLD_TIME (p / 8) (p % 8)) F.PRT_HOLD_TIME_HOLD ≠ 0 →
    Answers (exec (.pcsLoss p dark) s) fun t =>
      t.portState p = psHeld ∧ t.fld (prtState p) F.PRT_PORT_STATE_DOWN_REASON = 1 ∧ t.portLocked p = false ∧
      (t.port p).holdRunning = true ∧ (t.port p).holdId = (s.partnerOf p).1 ∧ (t.port p).holdPort = (s.partnerOf p).2 ∧
      t.swc = { s.swc with sending := sdel s.swc.sending p } ∧ t.out = { s.out with msix := t.out.msix, mgmt := t.out.mgmt }) ∧
  (∀ (p : Fin 2048) (dark : BitVec 8) (s : State), s.regsWf = true → s.portExists p = true → s.lossIgnored p = false →
    s.portEnabled p = true → s.portState p = psTraining ∨ s.portState p = psNegotiating → (s.port p).holdRunning = false →
    (s.port p).absent = false → Answers (exec (.pcsLoss p dark) s) fun t =>
      t.portState p = psTraining ∧ t.portLocked p = false ∧ s.RegsBut t [prtState p, R.PRT_PAIR_STATUS (p / 8)] ∧
      t = { s with regs := t.regs }) ∧
  (∀ (p : Fin 2048) (dark : BitVec 8) (s : State), s.portExists p = false ∨ s.lossIgnored p = true →
    exec (.pcsLoss p dark) s = .next s) ∧
  (∀ (p : Fin 2048) (s : State), s.regsWf = true → s.portEnabled p = true → (s.port p).met = false → (s.port p).limitPassed = false →
    s.portState p = psTraining ∨ s.portState p = psNegotiating →
    s.cfld (R.PRT_PLAN_PORT (p / 8) (p % 8)) F.PRT_PLAN_PORT_NONE = 0 → Answers (exec (.discoveryTimeout p) s) fun t =>
      t = ((s.setPort p { s.port p with limitPassed := true, absent := true }).portTo p psAbsent).prtEvent 3 p 0 0 ∧
      t.portState p = psAbsent ∧ t.out = { s.out with msix := s.out.msix ++ [4] }) ∧
  (∀ (p : Fin 2048) (s : State), s.portEnabled p = true → (s.port p).met = true ∨ (s.port p).limitPassed = true →
    s.exchanging p = true → (s.port p).partner = none → (s.port p).negStopped = false →
    exec (.discoveryTimeout p) s = .next (s.agreed p nonWlxOutcome)) ∧
  (∀ (p : Fin 2048) (s : State), s.portEnabled p = false → exec (.discoveryTimeout p) s = .next s) ∧
  (∀ (p : Fin 2048) (s : State), s.regsWf = true → swf (fun _ => []) s.swc.queues = true → s.swc.frames = [] → s.swc.reseqs = [] →
    (s.port p).holdRunning = true → s.portState p = psHeld → Answers (exec (.holdExpiry p) s) fun t =>
      t.portState p = (if s.portLocked p then psNegotiating else psTraining) ∧ (t.port p).holdRunning = false ∧
      (∀ c, c < 9 → t.queue p c = []) ∧ t.out = { s.out with msix := s.out.msix ++ [4] } ∧
      t.rd (R.PRT_EVENT (s.fld R.PRT_EVENT_HEAD ⟨0, 32⟩ % 256)) =
        F.PRT_EVENT_KIND.put 5 ||| F.PRT_EVENT_PORT.put p ||| F.PRT_EVENT_PARTNER_PORT.put (s.port p).holdPort ∧
      t.rd (R.PRT_EVENT_ID (s.fld R.PRT_EVENT_HEAD ⟨0, 32⟩ % 256)) = (s.port p).holdId) ∧
  (∀ (p : Fin 2048) (s : State), (s.port p).holdRunning = false → exec (.holdExpiry p) s = .next s)

/-- While the exchange runs its TLVs are sent again, and after agreement LLDP goes on; on a lane that may not send, the frame
waits. An LLDP frame with a right FCS is counted and read, whatever the port's state of agreement; a new NONCE in it is answered
with the outcome of the two ends' capabilities, which is the highest common WLX version, credits where both allow them from
version 2 on, else priority flow control. A port whose partner is silent (TTL under priority flow control) leaves UP with reason
2 and starts the exchange again on the lock it has. -/
def Obligations.LinkExchange : Prop :=
  (∀ (p : Fin 2048) (s : State), s.exchanging p = true → (s.port p).negStopped = false →
    s.canSend p ((s.lldpFrame p).length + 4) = true → Answers (exec (.wlxResend p) s) fun t =>
      t.out = { s.out with frames := s.out.frames ++ [(p.val, s.lldpFrame p ++ fcsOf (s.lldpFrame p))] } ∧
      t.port p = { t.port p with lldpDue := false } ∧ t = { s with ports := t.ports, out := t.out, cnt := t.cnt, swc := t.swc } ∧
      (s.mirrorsOf 1 p = [] → t.swc = s.swc)) ∧
  (∀ (p : Fin 2048) (s : State), s.exchanging p = true → (s.port p).negStopped = false →
    s.canSend p ((s.lldpFrame p).length + 4) = false →
    exec (.wlxResend p) s = .next (s.setPort p { s.port p with lldpDue := true })) ∧
  (∀ (p : Fin 2048) (s : State), s.exchanging p = false ∨ (s.port p).negStopped = true → exec (.wlxResend p) s = .next s) ∧
  (∀ (p : Fin 2048) (s : State), s.portAgreed p = true → s.receives p = true →
    s.canSend p ((s.lldpFrame p).length + 4) = true → Answers (exec (.lldpPeriodic p) s) fun t =>
      t.out = { s.out with frames := s.out.frames ++ [(p.val, s.lldpFrame p ++ fcsOf (s.lldpFrame p))] } ∧
      t = { s with ports := t.ports, out := t.out, cnt := t.cnt, swc := t.swc } ∧
      (s.mirrorsOf 1 p = [] → t.swc = s.swc)) ∧
  (∀ (p : Fin 2048) (s : State), s.portAgreed p = false ∨ s.receives p = false → exec (.lldpPeriodic p) s = .next s) ∧
  (∀ (p : Fin 2048) (frame : Bytes) (s : State), s.receives p = true → fcsRight frame = true → isLldp frame = true →
    exec (.lldpReceive p frame) s = .next ((s.rxCount p frame.length (s.linkKind frame == some 2)).lldpIn p frame)) ∧
  (∀ (p : Fin 2048) (frame : Bytes) (s : State), s.receives p = false → exec (.lldpReceive p frame) s = .next s) ∧
  (∀ (p : Nat) (w : Wlx) (o : Outcome) (s : State), s.negotiate p w = some o →
    o.wlx = min (s.ctrlFld p F.PRT_PORT_CTRL_WLX_MAX) w.version ∧ (o.fc = 1 ∨ o.fc = 2) ∧
    bitOf (s.ctrlFld p F.PRT_PORT_CTRL_FC_ALLOW) (o.fc - 1) = true ∧ bitOf w.fc (o.fc - 1) = true ∧
    (o.fc = 2 → 2 ≤ o.wlx ∧ o.vcs = min (s.ctrlFld p F.PRT_PORT_CTRL_VC_MAX) w.vcMax) ∧ (o.fc = 1 → o.vcs = 8) ∧
    o.maxFrame = min 9216 w.maxFrame ∧ (o.spill = true → o.wlx = 3 ∧ s.spillZone p = true) ∧ (o.ts = true → o.wlx = 3) ∧
    (o.burst = true → o.wlx = 3)) ∧
  (∀ (p : Nat) (w : Wlx) (s : State), s.negotiate p w = none ↔
    (if 2 ≤ min (s.ctrlFld p F.PRT_PORT_CTRL_WLX_MAX) w.version then s.ctrlFld p F.PRT_PORT_CTRL_FC_ALLOW &&& w.fc &&& 3 = 0
     else (s.ctrlFld p F.PRT_PORT_CTRL_FC_ALLOW &&& w.fc) % 2 = 0)) ∧
  (∀ (p : Fin 2048) (s : State), s.regsWf = true → s.portUp p = true → s.portFc p = 1 → s.receives p = true →
    s.fld (R.PRT_HOLD_TIME (p / 8) (p % 8)) F.PRT_HOLD_TIME_HOLD ≠ 0 →
    Answers (exec (.lldpTtlExpiry p) s) fun t =>
      t.portState p = psHeld ∧ t.portLocked p = true ∧ t.fld (prtState p) F.PRT_PORT_STATE_DOWN_REASON = 2 ∧
      (t.port p).holdRunning = true ∧ (t.port p).partner = none ∧ (t.port p).ownNonce ≠ 0 ∧ t.portFc p = 0) ∧
  (∀ (p : Fin 2048) (s : State), s.portAgreed p = false ∨ s.portFc p ≠ 1 ∨ s.receives p = false → exec (.lldpTtlExpiry p) s = .next s)

/-- A credit frame that is received on an UP port in credit mode replaces, for each virtual channel whose count is not stale,
the partner's RETURNED, and its LIMIT is INIT plus it, modulo 2^32; a stale count changes nothing. A credit frame is sent when
one is owed, a keepalive always, with the cells freed of each virtual channel and a sequence number that counts up; on a lane
that may not send it is owed. Silence for the keepalive time takes the port out of UP with reason 2. A frame whose FCS was
inverted counts as stomped when a tail-abort frame follows it. A pause of a class takes hold and ends by quanta of 0, by expiry,
and is disregarded after a storm until the watchdog ends; other classes keep their state. -/
def Obligations.CreditsAndPauses : Prop :=
  (∀ (p : Fin 2048) (frame : Bytes) (s : State), s.receives p = true → s.portUp p = true → s.portFc p = 2 → (s.port p).badFcs = false →
    s.linkKind frame = some 1 → isLldp frame = false → fcsRight frame = true →
    exec (.creditFrameReceive p frame) s =
      .next (({ s with cnt := ((s.count (ctrPort p 0)).countBy (ctrPort p 1) frame.length).cnt } : State).creditIn p frame)) ∧
  (∀ (p : Fin 2048) (frame : Bytes) (s : State), s.regsWf = true → swf (fun _ => {}) s.ports = true →
    swf (fun _ => 0) (s.port p).returned = true → s.portUp p = true → s.portFc p = 2 → s.fld (prtState p) F.PRT_PORT_STATE_VCS ≤ 8 →
    let t := s.creditIn p frame
    (∀ v, v < s.fld (prtState p) F.PRT_PORT_STATE_VCS →
      let r := BitVec.ofNat 32 (beAt frame (16 + 4 * v) 4)
      if (r - sget 0 (s.port p).returned v).toNat < 2 ^ 31 then
        sget 0 (t.port p).returned v = r ∧
        t.fld (R.PRT_CREDIT (p / 8) (p % 8) v) F.PRT_CREDIT_LIMIT = (sget 0 (s.port p).init v + r).toNat
      else sget 0 (t.port p).returned v = sget 0 (s.port p).returned v ∧
        t.rd (R.PRT_CREDIT (p / 8) (p % 8) v) = s.rd (R.PRT_CREDIT (p / 8) (p % 8) v)) ∧
    s.RegsBut t ((List.range 8).map fun v => R.PRT_CREDIT (p / 8) (p % 8) v) ∧ (∀ q, q ≠ p.val → t.port q = s.port q)) ∧
  (∀ (p : Fin 2048) (frame : Bytes) (s : State), s.receives p = false →
    exec (.creditFrameReceive p frame) s = .next s ∧ exec (.tailAbortReceive p frame) s = .next s ∧
    exec (.laneReportReceive p frame) s = .next s) ∧
  (∀ (p : Fin 2048) (s : State), s.creditsOn p = true → (s.port p).owes = true → s.canSend p 64 = true →
    Answers (exec (.creditFrameSend p) s) fun t =>
      let n := s.fld (prtState p) F.PRT_PORT_STATE_VCS
      let f := s.linkFrame 1 0 (((List.range 8).flatMap fun v => beBytes 4 (if v < n then (sget 0 (s.port p).freed v).toNat else 0)) ++
        beBytes 1 (2 ^ n - 1) ++ beBytes 1 0 ++ beBytes 2 (s.port p).creditSeq.toNat)
      t.out = { s.out with frames := s.out.frames ++ [(p.val, f ++ fcsOf f)] } ∧
      t = { s.setPort p { s.port p with creditSeq := (s.port p).creditSeq + 1, owes := false } with out := t.out, cnt := t.cnt, swc := t.swc } ∧
      (s.mirrorsOf 1 p = [] → t.swc = s.swc)) ∧
  (∀ (p : Fin 2048) (s : State), s.creditsOn p = false ∨ (s.port p).owes = false → exec (.creditFrameSend p) s = .next s) ∧
  (∀ (p : Fin 2048) (s : State), s.creditsOn p = true → s.canSend p 64 = true →
    Answers (exec (.keepaliveSend p) s) fun t =>
      let n := s.fld (prtState p) F.PRT_PORT_STATE_VCS
      let f := s.linkFrame 1 1 (((List.range 8).flatMap fun v => beBytes 4 (if v < n then (sget 0 (s.port p).freed v).toNat else 0)) ++
        beBytes 1 (2 ^ n - 1) ++ beBytes 1 0 ++ beBytes 2 (s.port p).creditSeq.toNat)
      t.out = { s.out with frames := s.out.frames ++ [(p.val, f ++ fcsOf f)] } ∧
      t = { s.setPort p { s.port p with creditSeq := (s.port p).creditSeq + 1, owes := false } with out := t.out, cnt := t.cnt, swc := t.swc } ∧
      (s.mirrorsOf 1 p = [] → t.swc = s.swc)) ∧
  (∀ (p : Fin 2048) (s : State), s.creditsOn p = true → s.canSend p 64 = false →
    exec (.keepaliveSend p) s = .next (s.setPort p { s.port p with owes := true })) ∧
  (∀ (p : Fin 2048) (s : State), s.creditsOn p = false →
    exec (.keepaliveSend p) s = .next s ∧ exec (.keepaliveTimeout p) s = .next s) ∧
  (∀ (p : Fin 2048) (s : State), s.regsWf = true → s.creditsOn p = true → s.lossIgnored p = false →
    s.fld (R.PRT_HOLD_TIME (p / 8) (p % 8)) F.PRT_HOLD_TIME_HOLD ≠ 0 →
    Answers (exec (.keepaliveTimeout p) s) fun t =>
      t.portState p = psHeld ∧ t.portLocked p = true ∧ t.fld (prtState p) F.PRT_PORT_STATE_DOWN_REASON = 2 ∧
      (t.port p).holdRunning = true ∧ (t.port p).partner = none ∧ (t.port p).ownNonce ≠ 0 ∧ t.portFc p = 0) ∧
  (∀ (p : Fin 2048) (frame : Bytes) (s : State), s.receives p = true → s.linkKind frame = some 2 → isLldp frame = false →
    fcsRight frame = true → (s.port p).badFcs = true → s.portState p ≠ psQuarantine → swf (fun _ => {}) s.ports = true →
    Answers (exec (.tailAbortReceive p frame) s) fun t =>
      (sget {} t.cnt.counters (ctrPort p 5)).acc = (sget {} s.cnt.counters (ctrPort p 5)).acc + 1 ∧
      (sget {} t.cnt.counters (ctrPort p 4)).acc = (sget {} s.cnt.counters (ctrPort p 4)).acc ∧
      t.port p = { s.port p with badFcs := false } ∧ t = { s with ports := t.ports, cnt := t.cnt }) ∧
  (∀ (p : Fin 2048) (enable : BitVec 8) (quanta : List (BitVec 16)) (s : State), s.receives p = true → s.pfcRuns p = true →
    swf (fun _ => {}) s.ports = true → Answers (exec (.pfcFrameReceive p enable quanta) s) fun t =>
      (∀ c, c < 8 → (t.port p).paused.getLsbD c =
        if enable.getLsbD c = true ∧ (s.port p).stormed.getLsbD c = false then quanta.getD c 0 != 0 else (s.port p).paused.getLsbD c) ∧
      t.port p = { s.port p with paused := (t.port p).paused, badFcs := false } ∧ t = { s with ports := t.ports, cnt := t.cnt }) ∧
  (∀ (p : Fin 2048) (enable : BitVec 8) (quanta : List (BitVec 16)) (s : State), s.receives p = false →
    exec (.pfcFrameReceive p enable quanta) s = .next s) ∧
  (∀ (p : Fin 2048) (c : Fin 8) (s : State), swf (fun _ => {}) s.ports = true → Answers (exec (.pfcPauseExpiry p c) s) fun t =>
      (t.port p).paused.getLsbD c = false ∧ (∀ k, k ≠ c.val → (t.port p).paused.getLsbD k = (s.port p).paused.getLsbD k) ∧
      t.port p = { s.port p with paused := (t.port p).paused } ∧ (∀ q, q ≠ p.val → t.port q = s.port q) ∧ t = { s with ports := t.ports }) ∧
  (∀ (p : Fin 2048) (c : Fin 8) (s : State), s.pfcRuns p = true → s.canSend p 64 = true → (s.port p).xoff.getLsbD c = true →
    s.fld (R.PRT_PFC_THRESH (p / 8) (p % 8) c) F.PRT_PFC_THRESH_XON ≤ s.heldCells p c →
    Answers (exec (.pfcXoffResend p c) s) fun t =>
      let f := padFrame (ethHeader 0x0180C2000001 s.mac 0x8808 ++ beBytes 2 0x0101 ++ beBytes 2 (2 ^ c.val) ++
        (List.range 8).flatMap fun k => beBytes 2 (if k = c.val then 0xFFFF else 0))
      t.out = { s.out with frames := s.out.frames ++ [(p.val, f ++ fcsOf f)] } ∧ t = { s with out := t.out, cnt := t.cnt, swc := t.swc } ∧
      (s.mirrorsOf 1 p = [] → t.swc = s.swc)) ∧
  (∀ (p : Fin 2048) (c : Fin 8) (s : State), s.pfcRuns p = false ∨ (s.port p).xoff.getLsbD c = false →
    exec (.pfcXoffResend p c) s = .next s) ∧
  (∀ (p : Fin 2048) (c : Fin 8) (s : State), s.pfcRuns p = true → (s.port p).paused.getLsbD c = true →
    s.fld R.PRT_GLOBAL_CTRL F.PRT_GLOBAL_CTRL_PFC_WDOG ≠ 0 → Answers (exec (.pfcStorm p c) s) fun t =>
      (t.port p).paused.getLsbD c = false ∧ (t.port p).stormed.getLsbD c = true ∧
      (∀ k, k ≠ c.val → (t.port p).paused.getLsbD k = (s.port p).paused.getLsbD k ∧
        (t.port p).stormed.getLsbD k = (s.port p).stormed.getLsbD k) ∧
      t.out = { s.out with msix := s.out.msix ++ [4] } ∧ t = { s with regs := t.regs, ports := t.ports, out := t.out, cnt := t.cnt }) ∧
  (∀ (p : Fin 2048) (c : Fin 8) (s : State), s.pfcRuns p = false ∨ (s.port p).paused.getLsbD c = false ∨
    s.fld R.PRT_GLOBAL_CTRL F.PRT_GLOBAL_CTRL_PFC_WDOG = 0 → exec (.pfcStorm p c) s = .next s) ∧
  (∀ (p : Fin 2048) (c : Fin 8) (s : State), swf (fun _ => {}) s.ports = true → Answers (exec (.pfcWatchdogEnd p c) s) fun t =>
      (t.port p).stormed.getLsbD c = false ∧ (∀ k, k ≠ c.val → (t.port p).stormed.getLsbD k = (s.port p).stormed.getLsbD k) ∧
      t.port p = { s.port p with stormed := (t.port p).stormed } ∧ (∀ q, q ≠ p.val → t.port q = s.port q) ∧ t = { s with ports := t.ports })

/-- A lane report leaves on a link of WLX 3 alone: it names the port's lanes with VALID and LANE of what each finds, bits [6:3]
zero, and the lanes of other ports as zero. A report received on such a link, whose every FOUND(u + j) is valid and j, completes
the lock of each ring that waits for it and clears its failure count; on another link it changes nothing but the counts of
received frames. A lane is dark while its port is DISABLED or LENT, while it is lent in a slot, without laser light, until the
engine's rings have locked again, and while its ring does not hold its line; else it sends a frame, or PCS idle. -/
def Obligations.LaneReportsAndLight : Prop :=
  (∀ (p : Fin 2048) (found : List Byte) (s : State), s.receives p = true → s.wlx3 p = true → s.portState p ≠ psQuarantine →
    s.canSend p 64 = true → Answers (exec (.laneReportSend p found) s) fun t =>
      let f := s.linkFrame 3 0 (beBytes 2 p.val ++ beBytes 1 (s.portLanes p) ++ beBytes 1 0 ++ (List.range 8).flatMap fun l =>
        if p.val % 8 ≤ l ∧ l < p.val % 8 + s.portLanes p then beBytes 1 (byteAt found l &&& 0x87) else beBytes 1 0)
      t.out = { s.out with frames := s.out.frames ++ [(p.val, f ++ fcsOf f)] } ∧ t = { s with out := t.out, cnt := t.cnt, swc := t.swc } ∧
      (s.mirrorsOf 1 p = [] → t.swc = s.swc)) ∧
  (∀ (p : Fin 2048) (found : List Byte) (s : State), s.receives p = false ∨ s.wlx3 p = false ∨ s.portState p = psQuarantine ∨
    s.canSend p 64 = false → exec (.laneReportSend p found) s = .next s) ∧
  (∀ (p : Fin 2048) (frame : Bytes) (s : State), s.regsWf = true → s.receives p = true → s.wlx3 p = true → (s.port p).badFcs = false →
    s.linkKind frame = some 3 → isLldp frame = false → fcsRight frame = true → s.portState p ≠ psQuarantine →
    (∀ j, j < s.portLanes p → byteAt frame (20 + p % 8 + j) = 128 + j) →
    Answers (exec (.laneReportReceive p frame) s) fun t =>
      (∀ j, j < s.portLanes p → let r := ringAt (p / 64) (p / 8 % 8 * 8 + (p % 8 + j))
        t.ringState r = (if s.ringState r = 4 then 3 else s.ringState r) ∧
        (s.ringState r = 4 → t.fld (ringReg r) F.OPT_RING_FAILS = 0) ∧ (s.ringState r ≠ 4 → t.rd (ringReg r) = s.rd (ringReg r))) ∧
      t = { s with regs := t.regs, cnt := t.cnt, lasers := t.lasers }) ∧
  (∀ (p : Fin 2048) (frame : Bytes) (s : State), s.receives p = true → s.wlx3 p = false → (s.port p).badFcs = false →
    s.linkKind frame = some 3 → isLldp frame = false → fcsRight frame = true → s.portState p ≠ psQuarantine →
    exec (.laneReportReceive p frame) s = .next { s with cnt := ((s.count (ctrPort p 0)).countBy (ctrPort p 1) frame.length).cnt }) ∧
  (∀ (f l : Nat) (s : State), let r := ringAt (f / 8) (f % 8 * 8 + l)
    s.laneLight f l = .dark ↔ (s.portState (s.ringPort r) = psDisabled ∨ s.portState (s.ringPort r) = psLent ∨
      bitOf (s.fld (R.PRT_PAIR_STATUS f) F.PRT_PAIR_STATUS_LENT) l = true ∨ s.engineLit (f / 8) = false ∨
      (s.laser (f / 8)).relight = true ∨ s.ringHolds r = false))

/-- Every received frame is counted with its bytes. A wrong FCS counts as FCS error, an inverted one is remembered, and with
cut-through off neither is stored or sent. LLDP, link control, IEEE 1588 and data frames part by their EtherType and
destination. A data frame goes nowhere on a port without agreement, and is discarded and counted beyond the partner's credits,
in QUARANTINE, while forwarding is not active, beyond MAX_FRAME, and for an HFH fault; else it is admitted, as a collective
frame, a far-peg message, or for the lookup. -/
def Obligations.FrameReception : Prop :=
  (∀ (p : Fin 2048) (frame : Bytes) (capture : TimeStamp) (errs : List TableErr) (s : State), s.receives p = false →
    exec (.frameReceive p frame capture errs) s = .next s) ∧
  (∀ (p : Fin 2048) (frame : Bytes) (capture : TimeStamp) (s : State), s.receives p = true → fcsRight frame = false →
    fcsInverted frame = false → (s.port p).badFcs = false → s.flag R.SWC_CTRL F.SWC_CTRL_CT_ENABLE = false →
    Answers (exec (.frameReceive p frame capture []) s) fun t =>
      (sget {} t.cnt.counters (ctrPort p 4)).acc = (sget {} s.cnt.counters (ctrPort p 4)).acc + 1 ∧
      (sget {} t.cnt.counters (ctrPort p 0)).acc = (sget {} s.cnt.counters (ctrPort p 0)).acc + 1 ∧
      t = { s with ports := t.ports, cnt := t.cnt }) ∧
  (∀ (p : Fin 2048) (frame : Bytes) (capture : TimeStamp) (s : State), s.receives p = true → fcsRight frame = false →
    fcsInverted frame = true → (s.port p).badFcs = false → s.flag R.SWC_CTRL F.SWC_CTRL_CT_ENABLE = false →
    Answers (exec (.frameReceive p frame capture []) s) fun t =>
      (sget {} t.cnt.counters (ctrPort p 4)).acc = (sget {} s.cnt.counters (ctrPort p 4)).acc ∧ (t.port p).badFcs = true ∧
      t = { s with ports := t.ports, cnt := t.cnt }) ∧
  (∀ (p : Fin 2048) (frame : Bytes) (capture : TimeStamp) (errs : List TableErr) (s : State), s.receives p = true →
    fcsRight frame = true → isLldp frame = true → s.linkKind frame ≠ some 2 →
    exec (.frameReceive p frame capture errs) s = .next ((s.rxCount p frame.length false).lldpIn p frame)) ∧
  (∀ (p : Fin 2048) (frame b : Bytes) (x : Parsed) (capture : TimeStamp) (errs : List TableErr) (s : State),
    b = frame.take (frame.length - 4) → x = s.parse b → s.receives p = true → fcsRight frame = true → isLldp frame = false →
    s.linkKind frame ≠ some 2 → x.ptp b = none → s.linkOwn x = false →
    exec (.frameReceive p frame capture errs) s = .next (if s.portAgreed p then
      (s.rxCount p frame.length false).dataIn p b x capture errs else s.rxCount p frame.length false)) ∧
  (∀ (p : Fin 2048) (frame b : Bytes) (x : Parsed) (i : Nat) (capture : TimeStamp) (errs : List TableErr) (s : State),
    b = frame.take (frame.length - 4) → x = s.parse b → s.receives p = true → fcsRight frame = true → isLldp frame = false →
    s.linkKind frame ≠ some 2 → x.ptp b = some i → s.portAgreed p = true →
    exec (.frameReceive p frame capture errs) s = .next (let r := s.rxCount p frame.length false
      if s.portMax p < b.length + 4 then r.count (ctrSwcPort p 0)
      else if byteAt b (i + 4) = s.fld R.TIM_CTRL F.TIM_CTRL_DOMAIN then r.ptpIn ⟨p.val, by omega⟩ x (b.drop i) capture
      else if s.flag R.TIM_CTRL F.TIM_CTRL_TC_ENABLE = false then r.count (ctrTim 2)
      else r.switchFrame p (s.frameClass b x true) b x false true capture 0 errs)) ∧
  (∀ (p : Fin 2048) (b : Bytes) (x : Parsed) (capture : TimeStamp) (errs : List TableErr) (s : State),
    (s.takeCredit p (s.frameClass b x (s.hfhFault p b x).isNone) (cellsOf (b.length + 4))).1 = true →
    let t := s.dataIn p b x capture errs
    (sget {} t.cnt.counters (ctrPort p 7)).acc = (sget {} s.cnt.counters (ctrPort p 7)).acc + 1 ∧
    t.swc.frames = s.swc.frames ∧ t.swc.queues = s.swc.queues ∧ t.out = s.out ∧ t.regs = s.regs) ∧
  (∀ (p : Fin 2048) (b : Bytes) (x : Parsed) (capture : TimeStamp) (errs : List TableErr) (s : State),
    (s.takeCredit p (s.frameClass b x (s.hfhFault p b x).isNone) (cellsOf (b.length + 4))).1 = false →
    s.portState p = psQuarantine → let t := s.dataIn p b x capture errs
    (sget {} t.cnt.counters (ctrPort p 6)).acc = (sget {} s.cnt.counters (ctrPort p 6)).acc + 1 ∧
    t.swc.frames = s.swc.frames ∧ t.swc.queues = s.swc.queues ∧ t.out = s.out ∧ t.regs = s.regs) ∧
  (∀ (p : Fin 2048) (b : Bytes) (x : Parsed) (capture : TimeStamp) (errs : List TableErr) (s : State),
    (s.takeCredit p (s.frameClass b x (s.hfhFault p b x).isNone) (cellsOf (b.length + 4))).1 = false →
    s.portState p ≠ psQuarantine → s.fwdAdmits = false → let t := s.dataIn p b x capture errs
    (sget {} t.cnt.counters (ctrSlice (portSlice p) 15)).acc = (sget {} s.cnt.counters (ctrSlice (portSlice p) 15)).acc + 1 ∧
    t.swc.frames = s.swc.frames ∧ t.swc.queues = s.swc.queues ∧ t.out = s.out ∧ t.regs = s.regs) ∧
  (∀ (p : Fin 2048) (b : Bytes) (x : Parsed) (capture : TimeStamp) (errs : List TableErr) (s : State),
    (s.takeCredit p (s.frameClass b x (s.hfhFault p b x).isNone) (cellsOf (b.length + 4))).1 = false →
    s.portState p ≠ psQuarantine → s.fwdAdmits = true → s.portMax p < b.length + 4 → let t := s.dataIn p b x capture errs
    (sget {} t.cnt.counters (ctrSwcPort p 0)).acc = (sget {} s.cnt.counters (ctrSwcPort p 0)).acc + 1 ∧
    t.swc.frames = s.swc.frames ∧ t.swc.queues = s.swc.queues ∧ t.out = s.out ∧ t.regs = s.regs) ∧
  (∀ (p : Fin 2048) (b : Bytes) (x : Parsed) (c : Nat) (capture : TimeStamp) (errs : List TableErr) (s : State),
    (s.takeCredit p (s.frameClass b x false) (cellsOf (b.length + 4))).1 = false → s.hfhFault p b x = some c →
    s.portState p ≠ psQuarantine → s.fwdAdmits = true → b.length + 4 ≤ s.portMax p → let t := s.dataIn p b x capture errs
    (c = 5 ∨ c = 6 ∨ c = 7) ∧
    (sget {} t.cnt.counters (ctrSlice (portSlice p) c)).acc = (sget {} s.cnt.counters (ctrSlice (portSlice p) c)).acc + 1 ∧
    t.swc.frames = s.swc.frames ∧ t.swc.queues = s.swc.queues ∧ t.out = s.out ∧ t.regs = s.regs) ∧
  (∀ (p : Fin 2048) (b : Bytes) (x : Parsed) (capture : TimeStamp) (errs : List TableErr) (s : State),
    (s.takeCredit p (s.frameClass b x true) (cellsOf (b.length + 4))).1 = false → s.hfhFault p b x = none →
    s.portState p ≠ psQuarantine → s.fwdAdmits = true → b.length + 4 ≤ s.portMax p → s.isCollective b x = false → s.isFar b x = false →
    s.dataIn p b x capture errs = (s.takeCredit p (s.frameClass b x true) (cellsOf (b.length + 4))).2.switchFrame p
      (s.frameClass b x true) b x true false capture 0 errs) ∧
  (∀ (p : Fin 2048) (cls : Nat) (b : Bytes) (x : Parsed) (hfhOk : Bool) (capture : TimeStamp) (errs : List TableErr) (s : State),
    admitCells (cellsOf (b.length + 4)) (s.room p cls) = none → let t := s.switchFrame p cls b x hfhOk false capture 0 errs
    (sget {} t.cnt.counters (ctrSwcClass p cls 0)).acc = (sget {} s.cnt.counters (ctrSwcClass p cls 0)).acc + 1 ∧
    t.swc.frames = s.swc.frames ∧ t.swc.queues = s.swc.queues ∧ t.out.frames = s.out.frames)

/-- A frame goes onto an egress queue below its limit; behind a full one it waits in the transfer queue when its class is
lossless and its port holds nothing, else it is dropped and counted. The last name of a stored frame frees it. A waiting frame
leaves its transfer queue when the queue is below its limit, or by age. A cell in sequence is released with what follows it and
completes its crossing; one behind a gap is held; a timeout skips the oldest gap and sets its frames aside; a lost cell is
skipped and its frame discarded, each counted. The scheduler sends the head of a strict class before lower ones and leaves the
port's other queues alone. A stomped frame leaves with its FCS inverted. A frame of an internal port waits for the shared pool,
and is discarded while forwarding is not active. -/
def Obligations.QueuesAndMesh : Prop :=
  (∀ (p c id : Nat) (lossless : Bool) (f : Stored) (s : State), s.frame? id = some f → f.control = false → f.quad = portQuad p →
    s.xferQueue p c = [] → s.belowLimit p c = true → c < 8 →
    (s.enqueue p c id lossless).queue p c = s.queue p c ++ [⟨id, s.now⟩] ∧
    (∀ q d, q < 2048 → d < 8 → p < 2048 → (q, d) ≠ (p, c) → (s.enqueue p c id lossless).queue q d = s.queue q d) ∧
    s.enqueue p c id lossless = { s with swc := { s.swc with queues := (s.enqueue p c id lossless).swc.queues,
                                                             deficits := (s.enqueue p c id lossless).swc.deficits } }) ∧
  (∀ (p c id : Nat) (f : Stored) (s : State), s.frame? id = some f → f.control = false → s.xferQueue p c ≠ [] ∨ s.belowLimit p c = false →
    c < 8 → s.holding p = false → s.bufFld p c F.SWC_BUF_PROFILE_LOSSLESS = 1 →
    (s.enqueue p c id true).xferQueue p c = s.xferQueue p c ++ [⟨id, s.now⟩] ∧ (s.enqueue p c id true).swc.queues = s.swc.queues) ∧
  (∀ (p c id : Nat) (lossless : Bool) (f : Stored) (s : State), s.frame? id = some f → f.control = false →
    s.xferQueue p c ≠ [] ∨ s.belowLimit p c = false →
    lossless = false ∨ s.holding p = true ∨ s.bufFld p c F.SWC_BUF_PROFILE_LOSSLESS = 0 →
    s.enqueue p c id lossless = (s.count (ctrSwcClass p c 1)).release id) ∧
  (∀ (id : Nat) (f : Stored) (s : State), s.frame? id = some f → 2 ≤ f.refs →
    (s.release id).frame? id = some { f with refs := f.refs - 1 } ∧ s.release id = { s with swc := { s.swc with frames := (s.release id).swc.frames } }) ∧
  (∀ (id : Nat) (f : Stored) (s : State), s.frame? id = some f → f.refs ≤ 1 →
    (∀ g ∈ (s.release id).swc.frames, g.id ≠ id ∨ s.swc.nextFrame ≤ id) ∧ (s.release id).regs = s.regs) ∧
  (∀ (p : Fin 2048) (c : Fin 8) (s : State), s.xferQueue p c = [] → exec (.transferQueueRelease p c) s = .next s) ∧
  (∀ (p : Fin 2048) (c : Fin 8) (e : QEntry) (l : List QEntry) (f : Stored) (s : State), s.xferQueue p c = e :: l →
    s.frame? e.frame = some f → s.aged f = false → s.belowLimit p c = true →
    exec (.transferQueueRelease p c) s =
      .next ({ s with swc.transfers := sset [] s.swc.transfers (qKey p c) l }.deliver p c e.frame)) ∧
  (∀ (p : Fin 2048) (c : Fin 8) (e : QEntry) (l : List QEntry) (f : Stored) (s : State), s.xferQueue p c = e :: l →
    s.frame? e.frame = some f → s.aged f = true → exec (.transferQueueRelease p c) s =
      .next (({ s with swc.transfers := sset [] s.swc.transfers (qKey p c) l }.count (ctrSwcClass p c 2)).release e.frame)) ∧
  (∀ (p : Fin 2048) (c : Fin 8) (e : QEntry) (l : List QEntry) (f : Stored) (s : State), s.xferQueue p c = e :: l →
    s.frame? e.frame = some f → s.aged f = false → s.belowLimit p c = false → exec (.transferQueueRelease p c) s = .next s) ∧
  (∀ (stream : MeshStream) (seq : BitVec 16) (s : State), (sget {} s.swc.reseqs (meshKey stream)).owner seq = none →
    exec (.meshCellArrival stream seq) s = .next s ∧ exec (.meshCellLost stream seq) s = .next s) ∧
  (∀ (stream : MeshStream) (seq : BitVec 16) (r : Reseq) (x : Crossing) (s : State), r = sget {} s.swc.reseqs (meshKey stream) →
    swf (fun _ => {}) s.swc.reseqs = true → r.crossings = [x] → r.next = seq → r.held = [] → x.missing = [seq] → x.first = seq →
    x.cells = 1 → x.aside = false → x.lost = false → x.kind = .unicast → x.targets = [stream.port.val] → x.frame ≠ x.source →
    s.crossingsOf stream.slice stream.cls = [(meshKey stream, x, false)] → (s.frame? x.frame).map Stored.control = some false →
    (∀ q, s.mirrorsOf 1 q = []) → Answers (exec (.meshCellArrival stream seq) s) fun t =>
      t.queue stream.port stream.cls = s.queue stream.port stream.cls ++ [⟨x.frame, s.now⟩] ∧
      (sget {} t.swc.reseqs (meshKey stream)).next = seq + 1 ∧ (sget {} t.swc.reseqs (meshKey stream)).crossings = [] ∧ t.regs = s.regs) ∧
  (∀ (stream : MeshStream) (seq : BitVec 16) (r : Reseq) (x : Crossing) (s : State), r = sget {} s.swc.reseqs (meshKey stream) →
    r.owner seq = some x → r.past seq = false → seq ≠ r.next → r.held.length < 4096 →
    (∀ y ∈ s.crossingsOf stream.slice stream.cls, y.2.2 = false) → (∀ y ∈ r.crossings, y.missing.filter (fun m => m != seq) ≠ []) →
    (∀ q, s.mirrorsOf 1 q = []) →
    Answers (exec (.meshCellArrival stream seq) s) fun t =>
      (sget {} t.swc.reseqs (meshKey stream)).next = r.next ∧ (sget {} t.swc.reseqs (meshKey stream)).held = r.held ++ [seq] ∧
      t.swc.queues = s.swc.queues ∧ t.regs = s.regs) ∧
  (∀ (stream : MeshStream) (s : State), (sget {} s.swc.reseqs (meshKey stream)).held = [] → exec (.reseqTimeout stream) s = .next s) ∧
  (∀ (stream : MeshStream) (h : BitVec 16) (r : Reseq) (s : State), r = sget {} s.swc.reseqs (meshKey stream) →
    r.held = [h] → h ≠ r.next → (∀ y ∈ s.crossingsOf stream.slice stream.cls, y.2.2 = false) → (∀ y ∈ r.crossings, y.missing ≠ []) →
    Answers (exec (.reseqTimeout stream) s) fun t =>
      (sget {} t.swc.reseqs (meshKey stream)).next = h + 1 ∧
      ((sget {} t.swc.reseqs (meshKey stream)).crossings.all fun y => !y.missing.contains r.next || y.aside) = true ∧
      (sget {} t.cnt.counters (ctrSwcPort stream.port 3)).acc = (sget {} s.cnt.counters (ctrSwcPort stream.port 3)).acc + 1 ∧
      t = { s with swc := { s.swc with reseqs := t.swc.reseqs }, cnt := t.cnt }) ∧
  (∀ (stream : MeshStream) (seq : BitVec 16) (x : Crossing) (s : State),
    (sget {} s.swc.reseqs (meshKey stream)).owner seq = some x → x.lost = false → Answers (exec (.meshCellLost stream seq) s) fun t =>
      (sget {} t.cnt.counters (ctrSwcPort stream.port 5)).acc = (sget {} s.cnt.counters (ctrSwcPort stream.port 5)).acc + 1 ∧ t.regs = s.regs) ∧
  (∀ (p : Fin 2048) (capture : TimeStamp) (errs : List TableErr) (s : State), (∀ y ∈ s.swc.sending, y.1 ≠ p.val) →
    s.excluded p = false → (∀ c, c < 9 → s.eligible p c = false) → exec (.frameDequeue p capture errs) s = .next s) ∧
  (∀ (p : Fin 2048) (c : Nat) (e : QEntry) (l : List QEntry) (f : Stored) (capture : TimeStamp) (s : State), c < 8 →
    (∀ y ∈ s.swc.sending, y.1 ≠ p.val) → s.excluded p = false → s.eligible p ctlQueue = false → s.eligible p c = true →
    s.cfld (s.sched p c) F.SWC_SCHED_PROFILE_STRICT = 1 →
    (∀ k, k < 8 → c < k → s.eligible p k = false ∨ s.cfld (s.sched p k) F.SWC_SCHED_PROFILE_STRICT ≠ 1) →
    s.queue p c = e :: l → s.frame? e.frame = some f → s.aged f = false → f.egress = .asIs → f.bad = 0 → s.isPtp f = false →
    swf (fun _ => []) s.swc.queues = true →
    Answers (exec (.frameDequeue p capture []) s) fun t =>
      t.out.frames.take (s.out.frames.length + 1) = s.out.frames ++ [(p.val, f.bytes ++ fcsOf f.bytes)] ∧
      (s.pfcRuns f.ingress = false → t.out.frames.length = s.out.frames.length + 1 ∧
        (sget {} t.cnt.counters (ctrPort p 2)).acc = (sget {} s.cnt.counters (ctrPort p 2)).acc + 1 ∧
        (s.mirrorsOf 1 p = [] → t.queue p c = l))) ∧
  (∀ (p : Fin 2048) (reason : BitVec 8) (sent : Nat) (s : State),
    (∀ y ∈ s.swc.sending, y.1 ≠ p.val) ∨ reason = 0 ∨ 4 < reason.toNat → exec (.stomp p reason sent) s = .next s) ∧
  (∀ (p : Fin 2048) (reason : BitVec 8) (sent : Nat) (x : Sending) (s : State), s.swc.sending = [(p.val, x)] →
    1 ≤ reason.toNat → reason.toNat ≤ 4 → swf (fun _ => {}) s.ports = true → Answers (exec (.stomp p reason sent) s) fun t =>
      let b := x.bytes.take sent
      t.out.frames.take (s.out.frames.length + 1) = s.out.frames ++ [(p.val, b ++ invertBytes (fcsOf b))] ∧
      (s.portFc p ≠ 2 → t.out.frames.length = s.out.frames.length + 1) ∧
      (s.portFc p = 2 → (t.port p).stomps = (s.port p).stomps + 1 ∧ t.out.frames.length = s.out.frames.length + 2) ∧
      (sget {} t.cnt.counters (ctrSwcPort p 2)).acc = (sget {} s.cnt.counters (ctrSwcPort p 2)).acc + 1 ∧ t.swc.sending = []) ∧
  (∀ (q : Fin 4) (errs : List TableErr) (s : State), sget [] s.swc.internal q = [] → exec (.internalFrame q errs) s = .next s) ∧
  (∀ (q : Fin 4) (errs : List TableErr) (i : Inner) (l : List Inner) (s : State), sget [] s.swc.internal q = i :: l →
    swf (fun _ => []) s.swc.internal = true → s.fwdAdmits = false → Answers (exec (.internalFrame q errs) s) fun t =>
      sget [] t.swc.internal q = l ∧
      (sget {} t.cnt.counters (ctrSlice (2 * q) 15)).acc = (sget {} s.cnt.counters (ctrSlice (2 * q) 15)).acc + 1 ∧
      t = { s with swc := { s.swc with internal := t.swc.internal }, cnt := t.cnt }) ∧
  (∀ (q : Fin 4) (errs : List TableErr) (i : Inner) (l : List Inner) (s : State), sget [] s.swc.internal q = i :: l →
    s.fwdAdmits = true → s.bayWait [sliceBay q, bufferBay q] = false →
    s.bayLost (sliceBay q) = true ∨ s.bayLost (bufferBay q) = true ∨ s.sharedFree q < cellsOf (i.bytes.length + 4) →
    exec (.internalFrame q errs) s = .next s) ∧
  (∀ (q : Fin 4) (p : Nat) (i : Inner) (l : List Inner) (s : State), sget [] s.swc.internal q = i :: l →
    swf (fun _ => []) s.swc.internal = true → s.fwdAdmits = true → s.bayWait [sliceBay q, bufferBay q] = false →
    s.bayLost (sliceBay q) = false → s.bayLost (bufferBay q) = false → cellsOf (i.bytes.length + 4) ≤ s.sharedFree q →
    i.route = .port p → portQuad p = q.val → s.xferQueue p i.cls = [] → i.cls < 8 → s.frame? s.swc.nextFrame = none →
    alphaOk (s.alpha p i.cls) (s.depth p i.cls) (s.sharedFree q - cellsOf (i.bytes.length + 4)) = true →
    (∀ e ∈ s.queue p i.cls, e.frame ≠ s.swc.nextFrame) →
    Answers (exec (.internalFrame q []) s) fun t =>
      t.queue p i.cls = s.queue p i.cls ++ [⟨s.swc.nextFrame, s.now⟩] ∧ sget [] t.swc.internal q = l ∧
      (t.frame? s.swc.nextFrame).map (fun f => (f.bytes, f.ingress, f.shared)) =
        some (i.bytes, 2048 + q.val, cellsOf (i.bytes.length + 4)) ∧ t.out = s.out ∧ t.regs = s.regs)

/-- A pass counts in PASSES and starts LAST_RECLAIMED anew. Where every stored frame is young and named, and no cell has been
without an owner on two passes, nothing is reclaimed. A stored copy that nothing has named on two consecutive passes is freed,
its cells counted as RECLAIMED of its quadrant and in LAST_RECLAIMED, LEAK is set and vector 10 raised; a cell without an owner
on two passes likewise. A datagram of samples takes at least the oldest, counts up its sequence, and leaves on MGA, or on MGB
while MGA is down; disabled, or without samples, nothing is sent. -/
def Obligations.AuditAndSamples : Prop :=
  (∀ (strays : List Nat) (s : State), s.regsWf = true → (∀ f ∈ s.swc.frames, s.aged f = false ∧ s.named f.id = true) →
    strays.filter s.swc.strays.contains = [] → s.swc.lost = [] → Answers (exec (.auditPass strays) s) fun t =>
      t.fld R.SWC_AUDIT_STATUS F.SWC_AUDIT_STATUS_LAST_RECLAIMED = 0 ∧
      t.fld R.SWC_AUDIT_STATUS F.SWC_AUDIT_STATUS_PASSES = (s.fld R.SWC_AUDIT_STATUS F.SWC_AUDIT_STATUS_PASSES + 1) % 2 ^ 31 ∧
      t.fld R.SWC_AUDIT_STATUS F.SWC_AUDIT_STATUS_LEAK = s.fld R.SWC_AUDIT_STATUS F.SWC_AUDIT_STATUS_LEAK ∧
      s.RegsBut t [R.SWC_AUDIT_STATUS] ∧
      t = { s with regs := t.regs, swc := { s.swc with orphans := [], strays := strays } }) ∧
  (∀ (f : Stored) (s : State), s.regsWf = true → s.swc.frames = [f] → s.aged f = false → s.named f.id = false → s.swc.orphans.contains f.id = true →
    s.swc.strays = [] → s.swc.lost = [] → f.held < 2 ^ 32 → s.pfcRuns f.ingress = false → Answers (exec (.auditPass []) s) fun t =>
      t.swc.frames = [] ∧ t.fld R.SWC_AUDIT_STATUS F.SWC_AUDIT_STATUS_LAST_RECLAIMED = f.held ∧
      t.fld R.SWC_AUDIT_STATUS F.SWC_AUDIT_STATUS_LEAK = 1 ∧
      (sget {} t.cnt.counters (ctrSwc f.quad)).acc = (sget {} s.cnt.counters (ctrSwc f.quad)).acc + f.held ∧
      s.RegsBut t [R.SWC_AUDIT_STATUS] ∧ t.out = { s.out with msix := s.out.msix ++ [10] } ∧
      t.swc = { s.swc with frames := [], orphans := [f.id] }) ∧
  (∀ (c : Nat) (s : State), s.regsWf = true → s.swc.frames = [] → s.swc.strays = [c] → s.swc.lost = [] →
    Answers (exec (.auditPass [c]) s) fun t =>
      t.fld R.SWC_AUDIT_STATUS F.SWC_AUDIT_STATUS_LAST_RECLAIMED = 1 ∧ t.fld R.SWC_AUDIT_STATUS F.SWC_AUDIT_STATUS_LEAK = 1 ∧
      (sget {} t.cnt.counters (ctrSwc (c / 393216))).acc = (sget {} s.cnt.counters (ctrSwc (c / 393216))).acc + 1 ∧
      s.RegsBut t [R.SWC_AUDIT_STATUS] ∧ t.out = { s.out with msix := s.out.msix ++ [10] } ∧
      t.swc = { s.swc with orphans := [], strays := [] }) ∧
  (∀ (mgaDown : Bool) (s : State), s.cfld R.SWC_SFLOW_CTRL F.SWC_SFLOW_CTRL_ENABLE = 0 ∨ s.swc.samples = [] →
    exec (.sflowDatagramSend mgaDown) s = .next s) ∧
  (∀ (mgaDown : Bool) (s : State), s.cfld R.SWC_SFLOW_CTRL F.SWC_SFLOW_CTRL_ENABLE = 1 → s.swc.samples ≠ [] →
    Answers (exec (.sflowDatagramSend mgaDown) s) fun t =>
      t.swc.samples.length < s.swc.samples.length ∧ t.swc.sflowSeq = s.swc.sflowSeq + 1 ∧
      t.out = { s.out with mgmt := t.out.mgmt } ∧ t.out.mgmt.dropLast = s.out.mgmt ∧
      t.out.mgmt.getLast?.map Prod.fst = some (b2n mgaDown) ∧
      t = { s with swc := { s.swc with samples := t.swc.samples, sflowSeq := t.swc.sflowSeq, sampleSeq := t.swc.sampleSeq }, out := t.out, free := t.free }) ∧
  (∀ (mgaDown : Bool) (x : Sample) (s : State), s.cfld R.SWC_SFLOW_CTRL F.SWC_SFLOW_CTRL_ENABLE = 1 → s.swc.samples = [x] →
    Answers (exec (.sflowDatagramSend mgaDown) s) fun t =>
      t.swc.samples = [] ∧ sget 0 t.swc.sampleSeq x.sampler = sget 0 s.swc.sampleSeq x.sampler + 1)

/-- FWD_ENABLE asks for its check and sets nothing yet; cleared, FWD_ACTIVE falls when the last parsed frame has been queued. At
its instant T and not before, a pending flip makes the standby bank active, counts the epoch up and leaves the old bank
retiring; A + 10 us later retirement ends and AGE_LIMIT takes effect. A row that agrees with its shadow only moves the walk on;
one that differs is looked at again, and is then a mismatch, which RESTORE corrects where the segment is not locked. An entry of
a MAC address that has not been refreshed for MAC_AGE is removed, and no other. -/
def Obligations.EpochsAndTables : Prop :=
  (∀ (s : State), s.regsWf = true → s.flag R.GLB_CTRL F.GLB_CTRL_FWD_ENABLE = false → s.checking .fwdEnable = false →
    exec .fwdEnable s = .next (s.pushCheck { kind := .fwdEnable, offset := R.GLB_CTRL })) ∧
  (∀ (s : State), s.regsWf = true → s.flag R.GLB_CTRL F.GLB_CTRL_FWD_ENABLE = true ∨ s.checking .fwdEnable = true →
    exec .fwdEnable s = .next s) ∧
  (∀ (s : State), s.regsWf = true → s.flag R.GLB_CTRL F.GLB_CTRL_FWD_ENABLE = true → Answers (exec .fwdDisable s) fun t =>
    t.flag R.GLB_CTRL F.GLB_CTRL_FWD_ENABLE = false ∧ t.rd R.GLB_STATUS = s.rd R.GLB_STATUS ∧ s.RegsBut t [R.GLB_CTRL] ∧
    t = { s with regs := t.regs }) ∧
  (∀ (s : State), s.regsWf = true → s.flag R.GLB_CTRL F.GLB_CTRL_FWD_ENABLE = false → exec .fwdDisable s =
    .next (if s.checking .fwdEnable = true then s.dropChecks (fun k => k == .fwdEnable) else s)) ∧
  (∀ (s : State), s.regsWf = true → s.flag R.GLB_CTRL F.GLB_CTRL_FWD_ENABLE = false → Answers (exec .fwdDrained s) fun t =>
    t.flag R.GLB_STATUS F.GLB_STATUS_FWD_ACTIVE = false ∧ s.RegsBut t [R.GLB_STATUS] ∧ t = { s with regs := t.regs }) ∧
  (∀ (s : State), s.flag R.GLB_CTRL F.GLB_CTRL_FWD_ENABLE = true → exec .fwdDrained s = .next s) ∧
  (∀ (s : State), s.regsWf = true → s.epochState = 1 → s.fwd.flipAt ≤ s.now → Answers (exec .epochFlip s) fun t =>
    t.epochState = 2 ∧ t.activeBank = 1 - s.activeBank ∧ t.epoch = (s.epoch + 1) % 2 ^ 32 ∧
    t.fwd = { s.fwd with retireAge := s.swc.ageInForce } ∧ t.swc = s.swc ∧
    t.rd (R.FWD_EVENT (s.fld R.FWD_EVENT_HEAD F.FWD_EVENT_HEAD_COUNT % 128)) =
      F.FWD_EVENT_KIND.put 6 ||| F.FWD_EVENT_BANK.put (1 - s.activeBank)) ∧
  (∀ (s : State), s.epochState ≠ 1 ∨ s.now < s.fwd.flipAt → exec .epochFlip s = .next s) ∧
  (∀ (s : State), s.regsWf = true → s.epochState = 2 → s.fwd.flipAt + s.fwd.retireAge * 1000 + 10000 ≤ s.now →
    Answers (exec .epochRetire s) fun t =>
      t.epochState = 0 ∧ t.activeBank = s.activeBank ∧ t.epoch = s.epoch ∧
      t.swc = { s.swc with ageInForce := max 100 (min 67000 (s.fld R.SWC_CTRL F.SWC_CTRL_AGE_LIMIT)) } ∧
      t.rd (R.FWD_EVENT (s.fld R.FWD_EVENT_HEAD F.FWD_EVENT_HEAD_COUNT % 128)) =
        F.FWD_EVENT_KIND.put 7 ||| F.FWD_EVENT_BANK.put (1 - s.activeBank) ∧
      t.out = { s.out with msix := s.out.msix ++ [1] } ∧ t = { s with regs := t.regs, swc := t.swc, out := t.out, cnt := t.cnt }) ∧
  (∀ (s : State), s.epochState ≠ 2 ∨ s.now < s.fwd.flipAt + s.fwd.retireAge * 1000 + 10000 → exec .epochRetire s = .next s) ∧
  (∀ (slice : Fin 8) (bank : Fin 2) (node : Nat) (s : State), s.regsWf = true → Answers (exec (.trieRebuilt slice bank node) s) fun t =>
    (∀ n, n ∈ t.fwd.broken ↔ n ∈ s.fwd.broken ∧ n ≠ (slice.val, bank.val, node)) ∧
    F.FWD_EVENT_KIND.get (t.rd (R.FWD_EVENT (s.fld R.FWD_EVENT_HEAD F.FWD_EVENT_HEAD_COUNT % 128))) = 5 ∧
    F.FWD_EVENT_BANK.get (t.rd (R.FWD_EVENT (s.fld R.FWD_EVENT_HEAD F.FWD_EVENT_HEAD_COUNT % 128))) = bank.val ∧
    t.out = { s.out with msix := s.out.msix ++ [10] } ∧
    t = { s with regs := t.regs, fwd := { s.fwd with broken := t.fwd.broken }, out := t.out, cnt := t.cnt, free := s.free + 1 }) ∧
  (∀ (read : HostRead) (errs : List LineErr) (found : List TableErr) (s : State),
    s.flag R.FWD_SHADOW_CTRL F.FWD_SHADOW_CTRL_ENABLE = false ∨ s.walkNext 1100 s.fwd.walk = none →
    exec (.shadowCompareRow read errs found) s = .next s) ∧
  (∀ (read : HostRead) (errs : List LineErr) (w : RowRef) (b : Bytes) (s : State),
    s.flag R.FWD_SHADOW_CTRL F.FWD_SHADOW_CTRL_ENABLE = true → s.walkNext 1100 s.fwd.walk = some w →
    F.FWD_SHADOW_BASE_HOST.get (s.rd (R.FWD_SHADOW_BASE w.table w.bank)) = 1 → hostBytes read (tblRowBytes w.table) = some b →
    s.fwd.invalid.contains (rowKey w.table w.bank w.row) = false →
    exec (.shadowCompareRow read errs []) s = .next { s with fwd := { s.fwd with
      walk := ⟨w.table, w.bank, w.row + 1⟩
      rechecks := if b = s.rowAt w.table w.bank w.row then s.fwd.rechecks else s.fwd.rechecks ++ [w] } }) ∧
  (∀ (read : HostRead) (errs : List LineErr) (w : RowRef) (s : State),
    s.flag R.FWD_SHADOW_CTRL F.FWD_SHADOW_CTRL_ENABLE = true → s.walkNext 1100 s.fwd.walk = some w →
    F.FWD_SHADOW_BASE_HOST.get (s.rd (R.FWD_SHADOW_BASE w.table w.bank)) = 1 → hostBytes read (tblRowBytes w.table) = none →
    exec (.shadowCompareRow read errs []) s =
      .next ({ s with fwd.walk := ⟨w.table, w.bank, w.row + 1⟩ }.fwdEvent 4 w.bank w.table w.row)) ∧
  (∀ (read : HostRead) (errs : List LineErr) (found : List TableErr) (s : State), s.fwd.rechecks = [] →
    exec (.shadowRecheck read errs found) s = .next s) ∧
  (∀ (read : HostRead) (errs : List LineErr) (w : RowRef) (l : List RowRef) (b : Bytes) (s : State), s.fwd.rechecks = w :: l →
    s.flag R.FWD_SHADOW_CTRL F.FWD_SHADOW_CTRL_ENABLE = true → s.walked w.table w.bank = true →
    s.segLocked w.table w.bank (w.row / 4096) = false → F.FWD_SHADOW_BASE_HOST.get (s.rd (R.FWD_SHADOW_BASE w.table w.bank)) = 1 →
    hostBytes read (tblRowBytes w.table) = some b → b ≠ s.rowAt w.table w.bank w.row →
    exec (.shadowRecheck read errs []) s = .next ({ s with fwd.rechecks := l }.mismatch w b)) ∧
  (∀ (read : HostRead) (errs : List LineErr) (found : List TableErr) (w : RowRef) (l : List RowRef) (s : State), s.fwd.rechecks = w :: l →
    s.flag R.FWD_SHADOW_CTRL F.FWD_SHADOW_CTRL_ENABLE = false ∨ s.walked w.table w.bank = false ∨
      s.segLocked w.table w.bank (w.row / 4096) = true →
    exec (.shadowRecheck read errs found) s = .next { s with fwd.rechecks := l }) ∧
  (∀ (w : RowRef) (b : Bytes) (s : State), swf (fun _ => 0) s.fwd.rows = true → w.table ≠ 1 → w.table ≠ 2 →
    s.flag R.FWD_SHADOW_CTRL F.FWD_SHADOW_CTRL_RESTORE = true → s.segLocked w.table w.bank (w.row / 4096) = false →
    b.length = tblRowBytes w.table → w.row < 2 ^ 20 →
    (s.mismatch w b).rowAt w.table w.bank w.row = b ∧ (s.mismatch w b).fwd.invalid.contains (rowKey w.table w.bank w.row) = false ∧
    (s.mismatch w b).out = { s.out with msix := s.out.msix ++ [10, 10] }) ∧
  (∀ (w : RowRef) (b : Bytes) (s : State), s.flag R.FWD_SHADOW_CTRL F.FWD_SHADOW_CTRL_RESTORE = false ∨
      s.segLocked w.table w.bank (w.row / 4096) = true → s.regsWf = true →
    s.mismatch w b = s.fwdEvent 1 w.bank w.table w.row) ∧
  (∀ (mac : BitVec 48) (vlan : BitVec 12) (s : State), s.fld R.FWD_GLOBAL_CTRL F.FWD_GLOBAL_CTRL_MAC_AGE = 0 →
    Answers (exec (.macAgeExpiry mac vlan) s) fun t => t = s) ∧
  (∀ (mac : BitVec 48) (vlan : BitVec 12) (s : State), s.fld R.FWD_GLOBAL_CTRL F.FWD_GLOBAL_CTRL_MAC_AGE ≠ 0 →
    Answers (exec (.macAgeExpiry mac vlan) s) fun t =>
      (∀ e, e ∈ t.fwd.mac ↔ e ∈ s.fwd.mac ∧ ¬ (e.mac = mac ∧ e.vlan = vlan ∧
        e.refreshed + s.fld R.FWD_GLOBAL_CTRL F.FWD_GLOBAL_CTRL_MAC_AGE * 1000000000 ≤ s.mono)) ∧
      t = { s with regs := t.regs, fwd := { s.fwd with mac := t.fwd.mac } })

/-- A request takes the values of its write with GO set and is checked in its turn; while GO reads 1 a further request is
ignored. An answer gives REASON, WAVELENGTH, CIRCUIT and TAG in SPL_RESP and clears GO; a refusal changes no bank. A grant names
the lowest number free in both banks and stands in the pending bank as it was asked for; a release marks a circuit of the
pending bank, and one of a number that is not there is refused with RANGE; a release of all answers their number. SPL_FLIP is
refused with RANGE when its instant lies nearer than 100 us. ENABLE brings circuits into force with RESUMED where the gate is
open, and clearing it takes all of them back with FALLBACK. -/
def Obligations.CircuitRequests : Prop :=
  (∀ (reqA reqB inId outId : Word) (s : State), s.regsWf = true → s.flag R.SPL_REQ_A F.SPL_REQ_A_GO = false →
    exec (.circuitGrant reqA reqB inId outId) s = .next (
      let v := F.SPL_REQ_A_GO.set (reqWord reqA 1 &&& ~~~(BitVec.ofNat 64 (2 ^ 42 + 2 ^ 29 + 2 ^ 28))) 1
      ((((s.wr R.SPL_REQ_B reqB).wr R.SPL_REQ_IN_ID inId).wr R.SPL_REQ_OUT_ID outId).wr R.SPL_REQ_A v).splSubmit ⟨v, reqB, inId, outId, false⟩)) ∧
  (∀ (reqA : Word) (s : State), s.regsWf = true → s.flag R.SPL_REQ_A F.SPL_REQ_A_GO = false →
    let v (op : Nat) : Word := F.SPL_REQ_A_GO.set (reqWord reqA op &&& ~~~(BitVec.ofNat 64 (2 ^ 42 + 2 ^ 29 + 2 ^ 28))) 1
    let r (op : Nat) : CircuitReq := ⟨v op, s.rd R.SPL_REQ_B, s.rd R.SPL_REQ_IN_ID, s.rd R.SPL_REQ_OUT_ID, false⟩
    exec (.circuitRelease reqA) s = .next ((s.wr R.SPL_REQ_A (v 2)).splSubmit (r 2)) ∧
    exec (.circuitReleaseAll reqA) s = .next ((s.wr R.SPL_REQ_A (v 3)).splSubmit (r 3))) ∧
  (∀ (reqA reqB inId outId : Word) (s : State), s.regsWf = true → s.flag R.SPL_REQ_A F.SPL_REQ_A_GO = true →
    exec (.circuitRelease reqA) s = .next s ∧ exec (.circuitReleaseAll reqA) s = .next s ∧
    exec (.circuitGrant reqA reqB inId outId) s =
      .next (((s.wr R.SPL_REQ_B reqB).wr R.SPL_REQ_IN_ID inId).wr R.SPL_REQ_OUT_ID outId)) ∧
  (∀ (r : CircuitReq) (reason w n : Nat) (t : State) (s : State), s.splRequest r = .done reason w n t →
    t.cfg = s.cfg ∧ t.spl.requests = s.spl.requests ∧ t.out = s.out ∧ (reason ≠ 0 → t = s)) ∧
  (∀ (r : CircuitReq) (reason w n : Nat) (t : State) (s : State), s.splGrant r = .done reason w n t → reason = 0 → s.regsWf = true →
    n < 4096 ∧ (∀ m, m < n → s.fld (R.SPL_CIRC_ACT m) F.SPL_CIRC_ACT_STATE ≠ 0 ∨ s.fld (R.SPL_CIRC_PEND m) F.SPL_CIRC_PEND_STATE ≠ 0) ∧
    w < 8 ∧ s.fld (R.SPL_CIRC_ACT n) F.SPL_CIRC_ACT_STATE = 0 ∧ s.fld (R.SPL_CIRC_PEND n) F.SPL_CIRC_PEND_STATE = 0 ∧
    t.fld (R.SPL_CIRC_PEND n) F.SPL_CIRC_PEND_STATE = 1 ∧
    t.fld (R.SPL_CIRC_PEND n) F.SPL_CIRC_PEND_IN = F.SPL_REQ_A_IN.get r.a ∧
    t.fld (R.SPL_CIRC_PEND n) F.SPL_CIRC_PEND_OUT = F.SPL_REQ_A_OUT.get r.a ∧
    t.fld (R.SPL_CIRC_PEND n) F.SPL_CIRC_PEND_WAVELENGTH = w ∧
    t.rd (R.SPL_CIRC_PEND_MASK n) = (if F.SPL_REQ_A_PERSISTENT.get r.a = 1 then BitVec.allOnes 64 else r.b) ∧
    s.RegsBut t [R.SPL_CIRC_PEND n, R.SPL_CIRC_PEND_MASK n, R.SPL_STATUS]) ∧
  (∀ (reqA : Word) (c : Circuit) (s : State), s.regsWf = true → s.flag R.SPL_REQ_A F.SPL_REQ_A_GO = false → s.cfg.checks = [] →
    s.spl.requests = [] → s.spl.pendMade = true → s.fld R.SPL_STATUS F.SPL_STATUS_FLIP_STATE ≠ 1 →
    s.pendingBank.find? (fun d => d.n == F.SPL_REQ_A_CIRCUIT.get reqA && d.state == 1) = some c →
    F.SPL_REQ_A_DOMAIN.get reqA = 0 ∨ F.SPL_REQ_A_DOMAIN.get reqA = c.domain → Answers (exec (.circuitRelease reqA) s) fun t =>
      t.fld (R.SPL_CIRC_PEND c.n) F.SPL_CIRC_PEND_STATE = 2 ∧ t.fld R.SPL_RESP F.SPL_RESP_REASON = 0 ∧
      t.fld R.SPL_RESP F.SPL_RESP_TAG = F.SPL_REQ_A_TAG.get reqA ∧ t.flag R.SPL_REQ_A F.SPL_REQ_A_GO = false ∧
      s.RegsBut t [R.SPL_CIRC_PEND c.n, R.SPL_CIRC_PEND_MASK c.n, R.SPL_RESP, R.SPL_REQ_A, R.CFG_COMMIT_STATUS] ∧
      t = { s with regs := t.regs }) ∧
  (∀ (reqA : Word) (s : State), s.regsWf = true → s.flag R.SPL_REQ_A F.SPL_REQ_A_GO = false → s.cfg.checks = [] →
    s.spl.requests = [] → s.spl.pendMade = true →
    s.pendingBank.find? (fun d => d.n == F.SPL_REQ_A_CIRCUIT.get reqA && d.state == 1) = none →
    Answers (exec (.circuitRelease reqA) s) fun t =>
      t.fld R.SPL_RESP F.SPL_RESP_REASON = 0x10 ∧ t.fld R.SPL_RESP F.SPL_RESP_TAG = F.SPL_REQ_A_TAG.get reqA ∧
      t.flag R.SPL_REQ_A F.SPL_REQ_A_GO = false ∧ s.RegsBut t [R.SPL_RESP, R.SPL_REQ_A, R.CFG_COMMIT_STATUS] ∧ t = { s with regs := t.regs }) ∧
  (∀ (reqA : Word) (s : State), s.regsWf = true → s.flag R.SPL_REQ_A F.SPL_REQ_A_GO = false → s.cfg.checks = [] →
    s.spl.requests = [] → s.spl.pendMade = true → s.fld R.SPL_STATUS F.SPL_STATUS_FLIP_STATE ≠ 1 →
    Answers (exec (.circuitReleaseAll reqA) s) fun t =>
      let l := s.pendingBank.filter fun c => c.state == 1 && c.domain == F.SPL_REQ_A_DOMAIN.get reqA
      t.fld R.SPL_RESP F.SPL_RESP_REASON = 0 ∧ t.fld R.SPL_RESP F.SPL_RESP_CIRCUIT = l.length % 2 ^ 13 ∧
      (∀ c ∈ l, t.fld (R.SPL_CIRC_PEND c.n) F.SPL_CIRC_PEND_STATE = 2) ∧ t.flag R.SPL_REQ_A F.SPL_REQ_A_GO = false ∧
      t = { s with regs := t.regs }) ∧
  (∀ (s : State), s.regsWf = true → s.flag R.SPL_FLIP F.SPL_FLIP_GO = false →
    exec .splFlip s = .next ((s.setFld R.SPL_FLIP F.SPL_FLIP_GO 1).pushCheck
      { kind := .splFlip, captured := [(R.SPL_FLIP_TIME, s.rd R.SPL_FLIP_TIME)], offset := R.SPL_FLIP })) ∧
  (∀ (s : State), s.regsWf = true → s.flag R.SPL_FLIP F.SPL_FLIP_GO = true → exec .splFlip s = .next s) ∧
  (∀ (s : State), s.regsWf = true → s.flag R.SPL_FLIP F.SPL_FLIP_GO = false → s.cfg.checks = [] → s.pln.prepared = none →
    instantNs s (s.rd R.SPL_FLIP_TIME) < s.now + 100000 → Answers (exec .splFlip s) fun t =>
      t.fld R.SPL_FLIP F.SPL_FLIP_REASON = 0x10 ∧ t.flag R.SPL_FLIP F.SPL_FLIP_GO = false ∧ t.spl = s.spl ∧ t.cfg = s.cfg ∧
      t.rd R.SPL_STATUS = s.rd R.SPL_STATUS ∧ t.out = { s.out with msix := s.out.msix ++ [1] }) ∧
  (∀ (s : State), s.regsWf = true → s.flag R.SPL_CTRL F.SPL_CTRL_ENABLE = false → Answers (exec .spillwayEnable s) fun t =>
      t.flag R.SPL_CTRL F.SPL_CTRL_ENABLE = true ∧ t.spl.persUp = true ∧ t.spl.slotUp = s.flag R.SPL_STATUS F.SPL_STATUS_GATE_OPEN ∧
      t.spl.changeAt.isSome = true ∧
      F.SPL_EVENT_KIND.get (t.rd (R.SPL_EVENT (s.fld R.SPL_EVENT_HEAD F.SPL_EVENT_HEAD_COUNT % 256))) = 3) ∧
  (∀ (s : State), s.regsWf = true → s.flag R.SPL_CTRL F.SPL_CTRL_ENABLE = true →
    exec .spillwayEnable s = .next s ∧ Answers (exec .spillwayDisable s) fun t =>
      t.flag R.SPL_CTRL F.SPL_CTRL_ENABLE = false ∧ t.spl.persUp = false ∧ t.spl.slotUp = false ∧ t.spl.persClosedAt = s.now ∧
      t.spl.closedAt = (if s.spl.slotUp then s.now else s.spl.closedAt) ∧ t.spl.changeAt.isSome = true ∧
      F.SPL_EVENT_KIND.get (t.rd (R.SPL_EVENT (s.fld R.SPL_EVENT_HEAD F.SPL_EVENT_HEAD_COUNT % 256))) = 2) ∧
  (∀ (s : State), s.regsWf = true → s.flag R.SPL_CTRL F.SPL_CTRL_ENABLE = false → exec .spillwayDisable s = .next s)

/-- A flip acts at its instant S and not before: the pending bank becomes the active one, the committed pending shape its shape,
the cycle starts at S. A slot boundary moves to the cycle and slot that the time base has reached. A window opens at T + G + M
of a slot in which its port is not lent. The gate is open where the error estimate does not exceed its threshold; a closure
takes slotted circuits out of force at once, an opening starts the wait, and its end brings them back; the lanes follow at F. An
element that fails its check is faulted once, and every circuit through it is to be withdrawn with cause 4. A dark circuit is
recorded once until its light returns. -/
def Obligations.SlotsAndFlips : Prop :=
  (∀ (s : State), s.fld R.SPL_STATUS F.SPL_STATUS_FLIP_STATE ≠ 1 ∨ s.now < s.spl.flipAt → exec .spillwayFlipInstant s = .next s) ∧
  (∀ (s : State), s.regsWf = true → s.fld R.SPL_STATUS F.SPL_STATUS_FLIP_STATE = 1 → s.spl.flipAt ≤ s.now →
    Answers (exec .spillwayFlipInstant s) fun t =>
      t.fld R.SPL_STATUS F.SPL_STATUS_FLIP_STATE = 0 ∧
      t.fld R.SPL_STATUS F.SPL_STATUS_ACTIVE_BANK = (s.fld R.SPL_STATUS F.SPL_STATUS_ACTIVE_BANK + 1) % 2 ∧
      t.rd R.SPL_CYCLE_START = instantWord s.spl.flipAt ∧ t.spl.startAt = s.spl.flipAt ∧ t.spl.cycle = 0 ∧ t.spl.slot = 0 ∧
      t.spl.pendMade = false ∧ t.slots = s.cfld R.SPL_SHAPE_PEND F.SPL_SHAPE_PEND_SLOTS ∧
      t.guardNs = s.cfld R.SPL_SHAPE_PEND F.SPL_SHAPE_PEND_GUARD_NS ∧
      t.marginNs = s.cfld R.SPL_SHAPE_PEND F.SPL_SHAPE_PEND_MARGIN_NS ∧ t.spl.withdraw = []) ∧
  (∀ (s : State), s.fld R.SPL_STATUS F.SPL_STATUS_FLIP_STATE ≠ 1 ∨ s.now < s.spl.flipAt → s.slotDue = false →
    exec .slotBoundary s = .next s) ∧
  (∀ (s : State), s.fld R.SPL_STATUS F.SPL_STATUS_FLIP_STATE ≠ 1 ∨ s.now < s.spl.flipAt → s.slotDue = true →
    Answers (exec .slotBoundary s) fun t => (t.spl.cycle, t.spl.slot) = s.slotAt s.now ∧ t.spl.withdraw = [] ∧
      t.spl.startAt = s.spl.startAt) ∧
  (∀ (s : State), s.spl.startAt ≤ s.now → 0 < s.slots → let c := s.slotAt s.now
    s.slotStart c.1 c.2 ≤ s.now ∧ s.now < s.slotStart c.1 c.2 + s.slotLen c.2 ∧ c.2 < s.slots) ∧
  (∀ (p : Fin 2048) (s : State), s.lentIn p s.spl.slot = true ∨
      s.now < s.slotStart s.spl.cycle s.spl.slot + s.guardNs + s.marginNs → exec (.windowOpen p) s = .next s) ∧
  (∀ (p : Fin 2048) (s : State), s.lentIn p s.spl.slot = false →
    s.slotStart s.spl.cycle s.spl.slot + s.guardNs + s.marginNs ≤ s.now → (s.port p).lldpDue = false → s.pfcRuns p = false →
    swf (fun _ => {}) s.ports = true → Answers (exec (.windowOpen p) s) fun t =>
      (t.port p).shut = false ∧ (t.port p).lentBefore = false ∧ (∀ q, q ≠ p.val → t.port q = s.port q) ∧ t.regs = s.regs ∧
      (s.receives p = false → t.out = s.out) ∧
      (s.spl.notices.filter (fun x => x.ports.contains p.val && decide (s.now < x.at_)) = [] → t = { s with ports := t.ports })) ∧
  (∀ (p : Fin 2048) (x : Notice) (s : State), s.lentIn p s.spl.slot = false →
    s.slotStart s.spl.cycle s.spl.slot + s.guardNs + s.marginNs ≤ s.now → (s.port p).lldpDue = false → s.pfcRuns p = false →
    s.spl.notices = [x] → x.ports.contains p.val = true → s.now < x.at_ → s.receives p = true →
    ({ s with ports := sset {} s.ports p { s.port p with shut := false, lentBefore := false } } : State).canSend p 64 = true →
    Answers (exec (.windowOpen p) s) fun t =>
      t.out = { s.out with frames := s.out.frames ++ [(p.val, s.noticeFrame x ++ fcsOf (s.noticeFrame x))] }) ∧
  (∀ (s : State), s.regsWf = true → s.fld R.SPL_STATUS F.SPL_STATUS_FLIP_STATE ≠ 1 ∨ s.now < s.spl.flipAt → s.slotDue = false →
    Answers (exec .gateEvaluate s) fun t =>
      t.fld R.SPL_STATUS F.SPL_STATUS_ERROR_NS = min 0xFFFF s.timeError ∧
      t.flag R.SPL_STATUS F.SPL_STATUS_GATE_OPEN = decide (s.timeError ≤ s.gateNs) ∧
      (s.timeError ≤ s.gateNs → t.spl = { s.spl with
        recovering := s.spl.recovering || !s.flag R.SPL_STATUS F.SPL_STATUS_GATE_OPEN }) ∧
      (s.gateNs < s.timeError → s.flag R.SPL_STATUS F.SPL_STATUS_GATE_OPEN = true →
        t.spl.recovering = false ∧ t.spl.slotUp = false ∧ (s.spl.slotUp = true → t.spl.closedAt = s.now ∧ t.spl.changeAt.isSome = true)) ∧
      (s.gateNs < s.timeError → s.flag R.SPL_STATUS F.SPL_STATUS_GATE_OPEN = false → t.spl = s.spl)) ∧
  (∀ (s : State), s.spl.recovering = true → s.splEnabled = true → s.spl.slotUp = false →
    Answers (exec .gateRecoverExpiry s) fun t => t.spl.recovering = false ∧ t.spl.slotUp = true ∧ t.spl.changeAt.isSome = true) ∧
  (∀ (s : State), s.spl.recovering = true → s.splEnabled = false ∨ s.spl.slotUp = true →
    exec .gateRecoverExpiry s = .next { s with spl := { s.spl with recovering := false } }) ∧
  (∀ (s : State), s.spl.recovering = false → exec .gateRecoverExpiry s = .next s) ∧
  (∀ (s : State), s.fld R.SPL_STATUS F.SPL_STATUS_FLIP_STATE ≠ 1 ∨ s.now < s.spl.flipAt → s.slotDue = false →
    (∀ f, s.spl.changeAt = some f → s.now < f) → exec .fallbackBoundary s = .next s) ∧
  (∀ (f : Nat) (s : State), s.regsWf = true → s.fld R.SPL_STATUS F.SPL_STATUS_FLIP_STATE ≠ 1 ∨ s.now < s.spl.flipAt → s.slotDue = false →
    s.spl.changeAt = some f → f ≤ s.now → Answers (exec .fallbackBoundary s) fun t =>
      t.spl.changeAt = none ∧ t.splAffected = [] ∧ t.active.map Circuit.n = s.active.map Circuit.n) ∧
  (∀ (plane : Fin 8) (stage : Fin 11) (index : Fin 32) (ok : Bool) (s : State),
    ok = true ∨ s.spl.faulted.contains (plane.val, stage.val, index.val) = true →
    exec (.elementCheck plane stage index ok) s = .next s) ∧
  (∀ (plane : Fin 8) (stage : Fin 11) (index : Fin 32) (s : State), s.spl.faulted.contains (plane.val, stage.val, index.val) = false →
    Answers (exec (.elementCheck plane stage index false) s) fun t =>
      t.spl.faulted = s.spl.faulted ++ [(plane.val, stage.val, index.val)] ∧
      (∀ c ∈ s.allCircuits, c.w = plane.val → s.circuitPasses c stage index = true → (t.spl.withdraw.any fun x => x.1 == c.n) = true) ∧
      (∀ x ∈ s.spl.withdraw, x ∈ t.spl.withdraw) ∧ (∀ x ∈ t.spl.withdraw, x ∈ s.spl.withdraw ∨ x.2 = 4) ∧
      t = { s with regs := t.regs, spl := { s.spl with faulted := t.spl.faulted, withdraw := t.spl.withdraw, notices := t.spl.notices },
                   out := t.out, cnt := t.cnt }) ∧
  (∀ (n : Fin 4096) (power : BitVec 16) (s : State), s.fld (R.SPL_CIRC_ACT n) F.SPL_CIRC_ACT_STATE = 0 →
    exec (.circuitDark n power) s = .next s) ∧
  (∀ (n : Fin 4096) (power : BitVec 16) (s : State), s.regsWf = true → s.fld (R.SPL_CIRC_ACT n) F.SPL_CIRC_ACT_STATE ≠ 0 →
    Answers (exec (.circuitDark n power) s) fun t =>
      t.fld (R.SPL_CIRC_ACT n) F.SPL_CIRC_ACT_IN_POWER = power.toNat ∧
      (power.toInt < -1600 → t.spl.dark.contains n.val = true) ∧ (-1600 ≤ power.toInt → t.spl.dark.contains n.val = false) ∧
      (power.toInt < -1600 → s.spl.dark.contains n.val = false → t.out = { s.out with msix := s.out.msix ++ [5] } ∧
        F.SPL_EVENT_KIND.get (t.rd (R.SPL_EVENT (s.fld R.SPL_EVENT_HEAD F.SPL_EVENT_HEAD_COUNT % 256))) = 5) ∧
      (-1600 ≤ power.toInt ∨ s.spl.dark.contains n.val = true → s.RegsBut t [R.SPL_CIRC_ACT n] ∧ t.out = s.out) ∧
      t = { s with regs := t.regs, spl := { s.spl with dark := t.spl.dark }, out := t.out, cnt := t.cnt })

/-- A message of another domain counts as PTP_FOREIGN while TC_ENABLE is 0 and does nothing; on a port without PTP it counts as
PTP_PORT_OFF; on a port that is DISABLED in PTP it does nothing. A Sync of the parent is counted, a two-step one waits for its
Follow_Up, and its times give an offset once a path delay is known: OFFSET_PS, a step in LOCKING at STEP_NS or more, else a
slew. A Delay_Req at a master is answered by one Delay_Resp; a Delay_Resp to the module's own last Delay_Req gives DELAY_PS. An
Announce makes a foreign-master record, and the second of a better clock within the window makes it the parent. At its intervals
a master sends Sync and Announce and the parent port Delay_Req. A lost parent leaves HOLDOVER after LOCKED, else FREE_RUN. The
order of masters and the qualification of Announce are those of IEEE 1588-2019 (the model's, log entry 32). -/
def Obligations.PtpMessages : Prop :=
  (∀ (p : Fin 2050) (msg : PtpMsg) (capture : TimeStamp) (s : State), msg.domain.toNat ≠ s.fld R.TIM_CTRL F.TIM_CTRL_DOMAIN →
    let u := if s.flag R.TIM_CTRL F.TIM_CTRL_TC_ENABLE = true then s else s.count (ctrTim 2)
    exec (.ptpSync p msg capture) s = .next u ∧ exec (.ptpFollowUp p msg) s = .next u ∧ exec (.ptpDelayReq p msg capture) s = .next u ∧
    exec (.ptpDelayResp p msg) s = .next u ∧ exec (.ptpAnnounce p msg) s = .next u) ∧
  (∀ (p : Fin 2050) (msg : PtpMsg) (capture : TimeStamp) (s : State), msg.domain.toNat = s.fld R.TIM_CTRL F.TIM_CTRL_DOMAIN →
    s.flag (R.TIM_PORT_CFG p) F.TIM_PORT_CFG_PTP = false ∨ s.ptpOn p = false →
    let u := if s.flag (R.TIM_PORT_CFG p) F.TIM_PORT_CFG_PTP = false then s.count (ctrTim 1) else s
    exec (.ptpSync p msg capture) s = .next u ∧ exec (.ptpFollowUp p msg) s = .next u ∧ exec (.ptpDelayReq p msg capture) s = .next u ∧
    exec (.ptpDelayResp p msg) s = .next u ∧ exec (.ptpAnnounce p msg) s = .next u) ∧
  (∀ (p : Fin 2050) (msg : PtpMsg) (capture : TimeStamp) (s : State), msg.domain.toNat = s.fld R.TIM_CTRL F.TIM_CTRL_DOMAIN →
    s.flag (R.TIM_PORT_CFG p) F.TIM_PORT_CFG_PTP = true → s.ptpOn p = true → s.fromParent p msg = false ∨ s.timState = 0 →
    exec (.ptpSync p msg capture) s = .next (s.count (ctrTimPort p 1))) ∧
  (∀ (p : Fin 2050) (msg : PtpMsg) (capture : TimeStamp) (s : State), msg.domain.toNat = s.fld R.TIM_CTRL F.TIM_CTRL_DOMAIN →
    s.flag (R.TIM_PORT_CFG p) F.TIM_PORT_CFG_PTP = true → s.ptpOn p = true → s.fromParent p msg = true → s.timState ≠ 0 →
    swf (fun _ => {}) s.tim.ports = true → msg.twoStep = true → Answers (exec (.ptpSync p msg capture) s) fun t =>
      t.ptp p = { s.ptp p with waiting := some (msg, s.rxTime p capture) } ∧ (∀ q, q ≠ p.val → t.ptp q = s.ptp q) ∧
      t.tim = { s.tim with ports := t.tim.ports } ∧ t = { s with tim := t.tim, cnt := (s.count (ctrTimPort p 1)).cnt }) ∧
  (∀ (p : Fin 2050) (msg : PtpMsg) (capture : TimeStamp) (s : State), msg.domain.toNat = s.fld R.TIM_CTRL F.TIM_CTRL_DOMAIN →
    s.flag (R.TIM_PORT_CFG p) F.TIM_PORT_CFG_PTP = true → s.ptpOn p = true → s.fromParent p msg = true → s.timState ≠ 0 →
    swf (fun _ => {}) s.tim.ports = true → msg.twoStep = false → (s.ptp p).delay = none → s.timed = [] →
    Answers (exec (.ptpSync p msg capture) s) fun t =>
      t.ptp p = { s.ptp p with t1 := some (tsUnits msg.origin + msg.correction.toInt), t2 := some (s.rxTime p capture), waiting := none } ∧
      (∀ q, q ≠ p.val → t.ptp q = s.ptp q) ∧ t.tim = { s.tim with ports := t.tim.ports } ∧
      t = { s with tim := t.tim, cnt := (s.count (ctrTimPort p 1)).cnt }) ∧
  (∀ (p : Fin 2050) (msg : PtpMsg) (capture : TimeStamp) (d off : Int) (s : State), s.regsWf = true →
    msg.domain.toNat = s.fld R.TIM_CTRL F.TIM_CTRL_DOMAIN → s.flag (R.TIM_PORT_CFG p) F.TIM_PORT_CFG_PTP = true → s.ptpOn p = true →
    s.fromParent p msg = true → s.timState = 1 → msg.twoStep = false → (s.ptp p).delay = some d → s.timed = [] →
    off = s.rxTime p capture - (tsUnits msg.origin + msg.correction.toInt) -
      (d + psUnits (signedOf 32 (s.fld (R.TIM_PORT_ASYM p) F.TIM_PORT_ASYM_ASYM_PS)) / 2) →
    s.fld R.TIM_SERVO F.TIM_SERVO_LOCK_NS * 65536 < off.natAbs → Answers (exec (.ptpSync p msg capture) s) fun t =>
      t.fld R.TIM_OFFSET F.TIM_OFFSET_OFFSET_PS = sat32 (unitsPs off) ∧ t.timState = 1 ∧ t.tim.within = 0 ∧
      t.tim.offsets = (off :: s.tim.offsets).take 16 ∧ t.tim.rate.natAbs ≤ 100000 * 65536 ∧
      (off.natAbs < s.fld R.TIM_CTRL F.TIM_CTRL_STEP_NS * 65536 → t.tim.base = s.tim.base ∧ t.tim.slew = -off * 1000000000 ∧
        s.RegsBut t [R.TIM_OFFSET] ∧ t.out = s.out) ∧
      (s.fld R.TIM_CTRL F.TIM_CTRL_STEP_NS * 65536 ≤ off.natAbs → t.tim.base = unitsTs ((tsUnits s.tim.base : Int) - off).toNat ∧
        t.tim.slew = 0 ∧ t.flag R.TIM_STATUS F.TIM_STATUS_STEP = true ∧ s.RegsBut t [R.TIM_OFFSET, R.TIM_STATUS] ∧
        t.out = { s.out with msix := s.out.msix ++ [3] }) ∧
      t = { s with regs := t.regs, tim := t.tim, out := t.out, cnt := t.cnt }) ∧
  (∀ (p : Fin 2050) (msg : PtpMsg) (m : PtpMsg) (t2 : Int) (s : State), msg.domain.toNat = s.fld R.TIM_CTRL F.TIM_CTRL_DOMAIN →
    s.flag (R.TIM_PORT_CFG p) F.TIM_PORT_CFG_PTP = true → s.ptpOn p = true → (s.ptp p).waiting = some (m, t2) →
    s.fromParent p msg = false ∨ m.seq ≠ msg.seq → exec (.ptpFollowUp p msg) s = .next s) ∧
  (∀ (p : Fin 2050) (msg : PtpMsg) (s : State), msg.domain.toNat = s.fld R.TIM_CTRL F.TIM_CTRL_DOMAIN →
    s.flag (R.TIM_PORT_CFG p) F.TIM_PORT_CFG_PTP = true → s.ptpOn p = true → (s.ptp p).waiting = none →
    exec (.ptpFollowUp p msg) s = .next s) ∧
  (∀ (p : Fin 2050) (msg m : PtpMsg) (t2 : Int) (s : State), msg.domain.toNat = s.fld R.TIM_CTRL F.TIM_CTRL_DOMAIN →
    s.flag (R.TIM_PORT_CFG p) F.TIM_PORT_CFG_PTP = true → s.ptpOn p = true → s.fromParent p msg = true →
    (s.ptp p).waiting = some (m, t2) → m.seq = msg.seq → (s.ptp p).delay = none → swf (fun _ => {}) s.tim.ports = true → s.timed = [] →
    Answers (exec (.ptpFollowUp p msg) s) fun t =>
      t.ptp p = { s.ptp p with t1 := some (tsUnits msg.origin + msg.correction.toInt + m.correction.toInt), t2 := some t2, waiting := none } ∧
      (∀ q, q ≠ p.val → t.ptp q = s.ptp q) ∧ t = { s with tim := { s.tim with ports := t.tim.ports } }) ∧
  (∀ (p : Fin 2050) (msg m : PtpMsg) (t2 d off : Int) (s : State), s.regsWf = true → msg.domain.toNat = s.fld R.TIM_CTRL F.TIM_CTRL_DOMAIN →
    s.flag (R.TIM_PORT_CFG p) F.TIM_PORT_CFG_PTP = true → s.ptpOn p = true → s.fromParent p msg = true →
    (s.ptp p).waiting = some (m, t2) → m.seq = msg.seq → (s.ptp p).delay = some d → s.timed = [] →
    off = t2 - (tsUnits msg.origin + msg.correction.toInt + m.correction.toInt) -
      (d + psUnits (signedOf 32 (s.fld (R.TIM_PORT_ASYM p) F.TIM_PORT_ASYM_ASYM_PS)) / 2) →
    Answers (exec (.ptpFollowUp p msg) s) fun t =>
      t.fld R.TIM_OFFSET F.TIM_OFFSET_OFFSET_PS = sat32 (unitsPs off) ∧ (t.ptp p).waiting = none ∧
      t.tim.offsets = (off :: s.tim.offsets).take 16) ∧
  (∀ (p : Fin 2050) (msg : PtpMsg) (capture : TimeStamp) (s : State), msg.domain.toNat = s.fld R.TIM_CTRL F.TIM_CTRL_DOMAIN →
    s.flag (R.TIM_PORT_CFG p) F.TIM_PORT_CFG_PTP = true → s.ptpOn p = true → s.ptpState p ≠ 6 ∨ s.ptpMaySend p 54 = false →
    exec (.ptpDelayReq p msg capture) s = .next (s.count (ctrTimPort p 2))) ∧
  (∀ (p : Fin 2050) (msg : PtpMsg) (capture : TimeStamp) (t4 interval : Int) (f : Bytes) (s : State),
    msg.domain.toNat = s.fld R.TIM_CTRL F.TIM_CTRL_DOMAIN → s.ptpOn p = true → p.val < 2048 → s.ptpState p = 6 → s.ptpMaySend p 54 = true →
    s.flag (R.TIM_PORT_CFG p) F.TIM_PORT_CFG_TRANSPORT = false → t4 = s.rxTime p capture →
    interval = max (-7) (min 0 (signedOf 8 (s.fld R.TIM_INTERVAL F.TIM_INTERVAL_LOG_DELAY_REQ))) →
    f = padFrame (ethHeader 0x011B19000000 s.mac 0x88F7 ++
      s.ptpHeader p 9 20 0 (msg.correction.toInt - t4.toNat % 65536) msg.seq.toNat 3 (interval % 256).toNat ++ ptpStamp t4 ++
      beBytes 8 msg.source.toNat ++ beBytes 2 msg.sourcePort.toNat) → Answers (exec (.ptpDelayReq p msg capture) s) fun t =>
      t.out = { s.out with frames := s.out.frames ++ [(p.val, f ++ fcsOf f)] } ∧
      (sget {} t.cnt.counters (ctrTimPort p 2)).acc = (sget {} s.cnt.counters (ctrTimPort p 2)).acc + 1 ∧
      (sget {} t.cnt.counters (ctrTimPort p 3)).acc = (sget {} s.cnt.counters (ctrTimPort p 3)).acc + 1 ∧
      t = { s with out := t.out, cnt := t.cnt, swc := t.swc } ∧ (s.mirrorsOf 1 p = [] → t.swc = s.swc)) ∧
  (∀ (p : Fin 2050) (msg : PtpMsg) (s : State), msg.domain.toNat = s.fld R.TIM_CTRL F.TIM_CTRL_DOMAIN →
    s.flag (R.TIM_PORT_CFG p) F.TIM_PORT_CFG_PTP = true → s.ptpOn p = true → s.fromParent p msg = false ∨ msg.requester ≠ s.identity ∨
      msg.requesterPort.toNat ≠ p + 1 ∨ msg.seq + 1 ≠ (s.ptp p).delaySeq ∨ (s.ptp p).t1 = none ∨ (s.ptp p).t2 = none ∨ (s.ptp p).t3 = none →
    exec (.ptpDelayResp p msg) s = .next s) ∧
  (∀ (p : Fin 2050) (msg : PtpMsg) (t1 t2 t3 d : Int) (s : State), s.regsWf = true →
    msg.domain.toNat = s.fld R.TIM_CTRL F.TIM_CTRL_DOMAIN → s.flag (R.TIM_PORT_CFG p) F.TIM_PORT_CFG_PTP = true → s.ptpOn p = true →
    s.fromParent p msg = true → msg.requester = s.identity → msg.requesterPort.toNat = p + 1 → msg.seq + 1 = (s.ptp p).delaySeq →
    (s.ptp p).t1 = some t1 → (s.ptp p).t2 = some t2 → (s.ptp p).t3 = some t3 → swf (fun _ => {}) s.tim.ports = true →
    d = ((t2 - t1) + (tsUnits msg.origin - msg.correction.toInt - t3)) / 2 → Answers (exec (.ptpDelayResp p msg) s) fun t =>
      (t.ptp p).delay = some d ∧ (t.ptp p).t3 = none ∧ (∀ q, q ≠ p.val → t.ptp q = s.ptp q) ∧
      t.fld R.TIM_OFFSET F.TIM_OFFSET_DELAY_PS = sat32 (unitsPs d) ∧
      t.fld R.TIM_OFFSET F.TIM_OFFSET_OFFSET_PS = s.fld R.TIM_OFFSET F.TIM_OFFSET_OFFSET_PS ∧
      t.fld (R.TIM_PORT_STATE p) F.TIM_PORT_STATE_DELAY_PS = sat32 (unitsPs d) ∧
      s.RegsBut t [R.TIM_OFFSET, R.TIM_PORT_STATE p] ∧ t = { s with regs := t.regs, tim := { s.tim with ports := t.tim.ports } }) ∧
  (∀ (p : Fin 2050) (msg : PtpMsg) (s : State), msg.domain.toNat = s.fld R.TIM_CTRL F.TIM_CTRL_DOMAIN →
    s.flag (R.TIM_PORT_CFG p) F.TIM_PORT_CFG_PTP = true → s.ptpOn p = true → s.ptpMayFollow p = false ∨ msg.source = s.identity →
    exec (.ptpAnnounce p msg) s = .next s) ∧
  (∀ (p : Fin 2050) (msg : PtpMsg) (s : State), msg.domain.toNat = s.fld R.TIM_CTRL F.TIM_CTRL_DOMAIN → s.ptpMayFollow p = true →
    msg.source ≠ s.identity → s.tim.foreign = [] → s.tim.parent = none →
    exec (.ptpAnnounce p msg) s = .next { s with tim := { s.tim with foreign := [⟨p, msg, 1, s.mono⟩] } }) ∧
  (∀ (p : Fin 2050) (msg m : PtpMsg) (n at_ : Nat) (s : State), s.regsWf = true → msg.domain.toNat = s.fld R.TIM_CTRL F.TIM_CTRL_DOMAIN →
    s.ptpMayFollow p = true → msg.source ≠ s.identity → s.tim.foreign = [⟨p, m, n, at_⟩] → 1 ≤ n → m.source = msg.source →
    m.sourcePort = msg.sourcePort → s.mono ≤ at_ + 4 * logNs (signedOf 8 msg.logInterval.toNat) → s.tim.parent = none → s.timSource = 0 →
    rankLt (masterRank msg p) s.ownRank = true → Answers (exec (.ptpAnnounce p msg) s) fun t =>
      t.tim.parent = some msg ∧ t.tim.parentPort = p ∧ t.timState = 1 ∧ t.flag R.TIM_STATUS F.TIM_STATUS_PARENT_CHANGE = true ∧
      t.fld R.TIM_STATUS F.TIM_STATUS_PARENT = p ∧ t.rd R.TIM_GM_ID = msg.gmId ∧ t.rd R.TIM_PARENT_ID = msg.source ∧
      t.fld R.TIM_CLOCK F.TIM_CLOCK_UTC_OFFSET = msg.utcOffset.toNat ∧ t.fld R.TIM_CLOCK F.TIM_CLOCK_ACCURACY = msg.accuracy.toNat ∧
      t.tim.foreign = [⟨p, msg, n + 1, s.mono⟩] ∧ t.tim.base = s.tim.base) ∧
  (∀ (p : Fin 2050) (kind : PtpKind) (capture : TimeStamp) (s : State),
    (match kind with
      | .sync => s.ptpState p ≠ 6 ∨ s.ptpMaySend p 44 = false
      | .announce => s.ptpState p ≠ 6 ∨ s.ptpMaySend p 64 = false
      | .delayReq => s.ptpRole p ≠ 9 ∨ s.ptpMaySend p 44 = false) → exec (.ptpTransmitInterval p kind capture) s = .next s) ∧
  (∀ (p : Fin 2050) (capture : TimeStamp) (t1 : Int) (f : Bytes) (s : State), s.ptpState p = 6 → s.ptpMaySend p 44 = true → p.val < 2048 →
    s.flag (R.TIM_PORT_CFG p) F.TIM_PORT_CFG_TRANSPORT = false → swf (fun _ => {}) s.tim.ports = true → t1 = s.txTime p capture →
    f = padFrame (ethHeader 0x011B19000000 s.mac 0x88F7 ++ s.ptpHeader p 0 10 0 (t1.toNat % 65536 : Nat) (s.ptp p).syncSeq.toNat 0
      (s.logSync % 256).toNat ++ ptpStamp t1) → Answers (exec (.ptpTransmitInterval p .sync capture) s) fun t =>
      t.out = { s.out with frames := s.out.frames ++ [(p.val, f ++ fcsOf f)] } ∧
      t.ptp p = { s.ptp p with syncSeq := (s.ptp p).syncSeq + 1 } ∧ (∀ q, q ≠ p.val → t.ptp q = s.ptp q) ∧
      (sget {} t.cnt.counters (ctrTimPort p 0)).acc = (sget {} s.cnt.counters (ctrTimPort p 0)).acc + 1 ∧
      t = { s with tim := { s.tim with ports := t.tim.ports }, out := t.out, cnt := t.cnt, swc := t.swc } ∧
      (s.mirrorsOf 1 p = [] → t.swc = s.swc)) ∧
  (∀ (p : Fin 2050) (capture : TimeStamp) (s : State), s.ptpState p = 6 → s.ptpMaySend p 64 = true → p.val < 2048 →
    s.flag (R.TIM_PORT_CFG p) F.TIM_PORT_CFG_TRANSPORT = false → swf (fun _ => {}) s.tim.ports = true →
    Answers (exec (.ptpTransmitInterval p .announce capture) s) fun t =>
      t.ptp p = { s.ptp p with announceSeq := (s.ptp p).announceSeq + 1 } ∧ (∀ q, q ≠ p.val → t.ptp q = s.ptp q) ∧
      (∃ f, t.out = { s.out with frames := s.out.frames ++ [(p.val, f ++ fcsOf f)] } ∧ f.take 14 = ethHeader 0x011B19000000 s.mac 0x88F7 ∧
        (∀ m, s.tim.parent = some m → (f.drop 61).take 16 = beBytes 1 m.priority1.toNat ++ beBytes 1 m.clockClass.toNat ++
          beBytes 1 m.accuracy.toNat ++ beBytes 2 m.variance.toNat ++ beBytes 1 m.priority2.toNat ++ beBytes 8 m.gmId.toNat ++
          beBytes 2 (m.steps.toNat + 1))) ∧
      t = { s with tim := { s.tim with ports := t.tim.ports }, out := t.out, cnt := t.cnt, swc := t.swc } ∧
      (s.mirrorsOf 1 p = [] → t.swc = s.swc)) ∧
  (∀ (p : Fin 2050) (capture : TimeStamp) (t3 : Int) (f : Bytes) (s : State), s.ptpRole p = 9 → s.ptpMaySend p 44 = true → p.val < 2048 →
    s.flag (R.TIM_PORT_CFG p) F.TIM_PORT_CFG_TRANSPORT = false → swf (fun _ => {}) s.tim.ports = true → t3 = s.txTime p capture →
    f = padFrame (ethHeader 0x011B19000000 s.mac 0x88F7 ++ s.ptpHeader p 1 10 0 (t3.toNat % 65536 : Nat) (s.ptp p).delaySeq.toNat 1 0x7F ++
      ptpStamp t3) → Answers (exec (.ptpTransmitInterval p .delayReq capture) s) fun t =>
      t.out = { s.out with frames := s.out.frames ++ [(p.val, f ++ fcsOf f)] } ∧
      t.ptp p = { s.ptp p with delaySeq := (s.ptp p).delaySeq + 1, t3 := some (t3 - (t3.toNat % 65536 : Nat)) } ∧
      (∀ q, q ≠ p.val → t.ptp q = s.ptp q) ∧
      t = { s with tim := { s.tim with ports := t.tim.ports }, out := t.out, cnt := t.cnt, swc := t.swc } ∧
      (s.mirrorsOf 1 p = [] → t.swc = s.swc)) ∧
  (∀ (p : Fin 2050) (s : State), s.ptpOn p = false ∨ (p.val < 2048 ∧ s.portLent p = true) → exec (.announceTimeout p) s = .next s) ∧
  (∀ (p : Fin 2050) (s : State), s.ptpOn p = true → p.val < 2048 → s.portLent p = false → s.tim.parent = none ∨ s.tim.parentPort ≠ p →
    swf (fun _ => {}) s.tim.ports = true → Answers (exec (.announceTimeout p) s) fun t =>
      t.ptp p = { s.ptp p with heard := true } ∧ (∀ q, q ≠ p.val → t.ptp q = s.ptp q) ∧
      t.tim.foreign = s.tim.foreign.filter (fun f => f.port != p.val) ∧
      t = { s with tim := { s.tim with foreign := t.tim.foreign, ports := t.tim.ports } }) ∧
  (∀ (p : Fin 2050) (s : State), s.tim.parent = none ∨ s.tim.parentPort ≠ p → exec (.syncLossTimeout p) s = .next s) ∧
  (∀ (p : Fin 2050) (s : State), s.regsWf = true → s.tim.parent.isSome = true → s.tim.parentPort = p → s.tim.foreign = [] →
    Answers (exec (.syncLossTimeout p) s) fun t =>
      t.tim.parent = none ∧ t.timState = (if s.tim.locked = true then 3 else 0) ∧ t.fld R.TIM_STATUS F.TIM_STATUS_PARENT = 0xFFF ∧
      t.rd R.TIM_GM_ID = 0 ∧ t.rd R.TIM_PARENT_ID = 0 ∧ t.fld R.TIM_OFFSET F.TIM_OFFSET_DELAY_PS = 0 ∧ t.tim.slew = 0 ∧
      t.tim.rate = s.tim.rate ∧ t.tim.base = s.tim.base ∧
      s.RegsBut t [R.TIM_STATUS, R.TIM_GM_ID, R.TIM_PARENT_ID, R.TIM_OFFSET, R.TIM_CLOCK] ∧
      (s.ptpOn p = true → s.portLent p = false → exec (.announceTimeout p) s = .next t) ∧
      t = { s with regs := t.regs, tim := t.tim, out := t.out, cnt := t.cnt })

/-- TIM_NOW_NS read returns the time base's nanoseconds and fraction to the host and latches TIM_NOW_SEC. TIM_SET_NS.GO sets the
time base to SET_SEC and NS_FRAC as a step, which sets STEP and raises vector 3; nanoseconds of a second or more set nothing,
and while the PTP engine runs the write is logged and discarded. A PPS_IN edge captures the time base in every mode once
PWR_GOOD is high, and steers the servo only where SOURCE is PPS; 1.5 s without an edge leave HOLDOVER or FREE_RUN and set
PPS_MISSING. PPS_OUT rises at a whole second (at most 4 ns past it: the model's, log entry 4). -/
def Obligations.TimeAndPps : Prop :=
  (∀ (s : State), s.regsWf = true → Answers (exec .timNowCapture s) fun t =>
      t.rd R.TIM_NOW_SEC = BitVec.ofNat 64 s.nowSec ∧ s.RegsBut t [R.TIM_NOW_SEC] ∧
      t.out = { s.out with cxl := s.out.cxl ++ [.barData 0 R.TIM_NOW_NS (BitVec.ofNat 64 (s.tim.base.toNat % 2 ^ 48))] } ∧
      t = { s with regs := t.regs, out := t.out }) ∧
  (∀ (nsFrac : BitVec 48) (s : State), s.regsWf = true → s.flag R.TIM_CTRL F.TIM_CTRL_ENABLE = true → s.timSource = 0 →
    exec (.timeSet nsFrac) s = .next (s.cfgLog 4 0x1C 0xFF 0 0 R.TIM_SET_NS)) ∧
  (∀ (nsFrac : BitVec 48) (s : State), s.regsWf = true → s.flag R.TIM_CTRL F.TIM_CTRL_ENABLE = false → s.timed = [] →
    Answers (exec (.timeSet nsFrac) s) fun t =>
      (nsFrac.toNat / 65536 < 1000000000 →
        t.tim.base = BitVec.ofNat 96 (s.fld R.TIM_SET_SEC F.TIM_SET_SEC_SECONDS * 2 ^ 48 + nsFrac.toNat) ∧
        t.flag R.TIM_STATUS F.TIM_STATUS_STEP = true ∧ t.out = { s.out with msix := s.out.msix ++ [3] }) ∧
      (1000000000 ≤ nsFrac.toNat / 65536 → t.tim.base = s.tim.base ∧ t.rd R.TIM_STATUS = s.rd R.TIM_STATUS ∧ t.out = s.out) ∧
      t.timState = s.timState ∧ s.RegsBut t [R.TIM_SET_NS, R.TIM_STATUS] ∧
      t = { s with regs := t.regs, tim := { s.tim with base := t.tim.base }, out := t.out, cnt := t.cnt }) ∧
  (∀ (s : State), s.board.pwrGood = false → exec .ppsInEdge s = .next s) ∧
  (∀ (s : State), s.regsWf = true → s.board.pwrGood = true → s.timSource ≠ 1 → Answers (exec .ppsInEdge s) fun t =>
      t.rd R.TIM_PPS_IN = BitVec.ofNat 64 (s.nowSec % 2 ^ 32 * 2 ^ 32 + s.nowNano) ∧ s.RegsBut t [R.TIM_PPS_IN] ∧ t = { s with regs := t.regs }) ∧
  (∀ (off : Int) (s : State), s.regsWf = true → s.board.pwrGood = true → s.timSource = 1 → s.timState ≠ 2 → s.tim.within = 0 →
    s.timed = [] → off = (if 500000000 < s.nowNano then (s.nowNano : Int) - 1000000000 else s.nowNano) * 65536 →
    off.natAbs < s.fld R.TIM_CTRL F.TIM_CTRL_STEP_NS * 65536 → Answers (exec .ppsInEdge s) fun t =>
      t.rd R.TIM_PPS_IN = BitVec.ofNat 64 (s.nowSec % 2 ^ 32 * 2 ^ 32 + s.nowNano) ∧ t.timState = 1 ∧
      t.fld R.TIM_OFFSET F.TIM_OFFSET_OFFSET_PS = sat32 (unitsPs off) ∧ t.tim.base = s.tim.base ∧ t.tim.slew = -off * 1000000000 ∧
      s.RegsBut t [R.TIM_PPS_IN, R.TIM_OFFSET, R.TIM_STATUS]) ∧
  (∀ (off : Int) (s : State), s.regsWf = true → s.board.pwrGood = true → s.timSource = 1 → s.timState ≠ 2 → s.tim.within = 0 →
    s.timed = [] → off = (if 500000000 < s.nowNano then (s.nowNano : Int) - 1000000000 else s.nowNano) * 65536 →
    s.fld R.TIM_CTRL F.TIM_CTRL_STEP_NS * 65536 ≤ off.natAbs → Answers (exec .ppsInEdge s) fun t =>
      t.rd R.TIM_PPS_IN = BitVec.ofNat 64 (s.nowSec % 2 ^ 32 * 2 ^ 32 + s.nowNano) ∧ t.timState = 1 ∧
      t.tim.base = unitsTs ((tsUnits s.tim.base : Int) - off).toNat ∧ t.flag R.TIM_STATUS F.TIM_STATUS_STEP = true) ∧
  (∀ (s : State), s.timSource ≠ 1 ∨ s.timState = 0 → exec .ppsMissingTimeout s = .next s) ∧
  (∀ (s : State), s.regsWf = true → s.timSource = 1 → s.timState = 1 ∨ s.timState = 2 → Answers (exec .ppsMissingTimeout s) fun t =>
      t.flag R.TIM_STATUS F.TIM_STATUS_PPS_MISSING = true ∧ t.timState = (if s.tim.locked = true then 3 else 0) ∧
      t.flag R.TIM_STATUS F.TIM_STATUS_STATE_CHANGE = true ∧ t.tim.slew = 0 ∧ t.tim.rate = s.tim.rate ∧ s.RegsBut t [R.TIM_STATUS] ∧
      t = { s with regs := t.regs, tim := t.tim, out := t.out, cnt := t.cnt }) ∧
  (∀ (s : State), s.nowNano < 4 → exec .ppsOutSecond s = .next { s with board := { s.board with ppsOut := true } }) ∧
  (∀ (s : State), 4 ≤ s.nowNano → exec .ppsOutSecond s = .next s) ∧
  (∀ (t : TimeStamp), t.toNat / 2 ^ 16 % 2 ^ 32 < 1000000000 → unitsTs (tsUnits t) = t)

/-- The scrubber reads the line at a tier's place and moves on by one line; the last line of a stack counts a pass of it. A DDR5
retry is counted, and the third that fails poisons its line. AREAS_ENABLE asks for its check. An operator image key is written
and measured until LOCK is set, which is measured and stays; a write of a locked key is logged and ignored. A write of a
register that has no effect of its own sets each RW field, clears each W1C bit written with 1, and leaves every other bit; a
field of class Q keeps its value while its block runs, and the write is logged. A read restores RC fields to their reset values.
-/
def Obligations.MemoryAndSecurityRegisters : Prop :=
  (∀ (err : Option ErrKind) (s : State), s.fld (R.MEM_HBM_STATUS (s.mem.scrubHbm / hbmStack)) F.MEM_HBM_STATUS_STATE ≠ 1 →
    exec (.scrubRead false err) s = .next { s with mem := { s.mem with scrubHbm := (s.mem.scrubHbm + 64) % hbmSize } }) ∧
  (∀ (s : State), s.regsWf = true → s.fld (R.MEM_HBM_STATUS (s.mem.scrubHbm / hbmStack)) F.MEM_HBM_STATUS_STATE = 1 →
    s.mem.scrubHbm < hbmSize → s.resting (28 + s.mem.scrubHbm / hbmStack) = false → s.mem.poisoned = [] →
    Answers (exec (.scrubRead false none) s) fun t =>
      t.fld (R.MEM_HBM_STATUS (s.mem.scrubHbm / hbmStack)) F.MEM_HBM_STATUS_PASSES =
        (if (s.mem.scrubHbm + 64) % hbmStack = 0 then
          (s.fld (R.MEM_HBM_STATUS (s.mem.scrubHbm / hbmStack)) F.MEM_HBM_STATUS_PASSES + 1) % 2 ^ F.MEM_HBM_STATUS_PASSES.w
        else s.fld (R.MEM_HBM_STATUS (s.mem.scrubHbm / hbmStack)) F.MEM_HBM_STATUS_PASSES) ∧
      s.RegsBut t [R.MEM_HBM_STATUS (s.mem.scrubHbm / hbmStack)] ∧
      t = { s with regs := t.regs, mem := { s.mem with scrubHbm := (s.mem.scrubHbm + 64) % hbmSize } }) ∧
  (∀ (u : Nat) (s : State), u = s.mem.scrubHbm / hbmStack → s.fld (R.MEM_HBM_STATUS u) F.MEM_HBM_STATUS_STATE = 1 →
    s.mem.scrubHbm < hbmSize → (s.mem.scrubHbm + 64) % hbmStack ≠ 0 → s.resting (28 + u) = false → s.mem.poisoned = [] →
    s.fld R.MEM_CTRL F.MEM_CTRL_SUSPECT = 0 → Answers (exec (.scrubRead false (some .corrected)) s) fun t =>
      (sget {} t.cnt.counters (ctrMem 48)).acc = (sget {} s.cnt.counters (ctrMem 48)).acc + 1 ∧
      (sget {} t.cnt.counters (ctrMem (3 * u))).acc = (sget {} s.cnt.counters (ctrMem (3 * u))).acc + 1 ∧
      t.mem.bytes = s.mem.bytes ∧ t.mem.poisoned = [] ∧ t.mem.scrubHbm = s.mem.scrubHbm + 64 ∧ t.regs = s.regs ∧ t.out = s.out) ∧
  (∀ (u : Nat) (s : State), u = s.mem.scrubHbm / hbmStack → s.fld (R.MEM_HBM_STATUS u) F.MEM_HBM_STATUS_STATE = 1 →
    s.mem.scrubHbm < hbmSize → s.mem.scrubHbm % 64 = 0 → s.mem.poisoned = [] →
    Answers (exec (.scrubRead false (some .uncorrectable)) s) fun t =>
      t.isPoisoned s.mem.scrubHbm = true ∧
      (sget {} t.cnt.counters (ctrMem (3 * u + 2))).acc = (sget {} s.cnt.counters (ctrMem (3 * u + 2))).acc + 1 ∧
      t.mem.bytes = s.mem.bytes ∧ t.mem.scrubHbm = (s.mem.scrubHbm + 64) % hbmSize ∧ 10 ∈ t.out.msix) ∧
  (∀ (err : Option ErrKind) (s : State), s.ddrSize = 0 → exec (.scrubRead true err) s = .next s) ∧
  (∀ (s : State), 0 < s.ddrSize → (s.mem.scrubDdr + 64) % s.ddrSize ≠ 0 → s.resting 45 = false → s.mem.poisoned = [] →
    exec (.scrubRead true none) s = .next { s with mem := { s.mem with scrubDdr := (s.mem.scrubDdr + 64) % s.ddrSize } }) ∧
  (∀ (addr : Word) (attempt : Fin 3) (ok : Bool) (s : State), s.inDdr (addr.toNat / 64 * 64) = false →
    exec (.alertRetry addr attempt ok) s = .next s) ∧
  (∀ (addr : Word) (attempt : Fin 3) (ok : Bool) (s : State), s.inDdr (addr.toNat / 64 * 64) = true → attempt ≠ 2 ∨ ok = true →
    exec (.alertRetry addr attempt ok) s = .next (s.count (ctrMem (24 + 3 * (s.memUnit (addr.toNat / 64 * 64) - 8) + 2)))) ∧
  (∀ (addr : Word) (s : State), s.inDdr (addr.toNat / 64 * 64) = true → s.mem.poisoned = [] →
    Answers (exec (.alertRetry addr 2 false) s) fun t =>
      t.isPoisoned addr.toNat = true ∧ t.mem.bytes = s.mem.bytes ∧ t.mem = { s.mem with poisoned := t.mem.poisoned } ∧
      t.out.msix.filter (· == 10) = s.out.msix.filter (· == 10) ++ [10, 10]) ∧
  (∀ (s : State), s.regsWf = true → s.flag R.MEM_CTRL F.MEM_CTRL_AREAS_ENABLE = false → s.checking .areasEnable = false →
    exec .areasEnable s = .next (s.pushCheck { kind := .areasEnable, offset := R.MEM_CTRL })) ∧
  (∀ (s : State), s.regsWf = true → s.flag R.MEM_CTRL F.MEM_CTRL_AREAS_ENABLE = true ∨ s.checking .areasEnable = true →
    exec .areasEnable s = .next s) ∧
  (∀ (slot : Fin 8) (w : Fin 4) (v : Word) (s : State), s.regsWf = true → s.flag R.SEC_CTRL F.SEC_CTRL_LOCK = false →
    Answers (exec (.imageKeyWrite slot w v) s) fun t =>
      t.rd (R.SEC_IMG_KEY (4 + slot) w) = v ∧
      t.regs = (((s.wr (R.SEC_IMG_KEY (4 + slot) w) v).extend 3 (leBytes 4 (R.SEC_IMG_KEY (4 + slot) w) ++ leBytes 8 v.toNat))).regs ∧
      s.RegsBut t (R.SEC_IMG_KEY (4 + slot) w :: (List.range 6).map (R.SEC_MEAS 3)) ∧ t = { s with regs := t.regs }) ∧
  (∀ (slot : Fin 8) (w : Fin 4) (v : Word) (s : State), s.flag R.SEC_CTRL F.SEC_CTRL_LOCK = true →
    exec (.imageKeyWrite slot w v) s = .next (s.cfgLog 5 0x1B 0xFF 0 0 (R.SEC_IMG_KEY (4 + slot) w))) ∧
  (∀ (s : State), s.regsWf = true → s.flag R.SEC_CTRL F.SEC_CTRL_LOCK = false → Answers (exec .secLock s) fun t =>
      t.flag R.SEC_CTRL F.SEC_CTRL_LOCK = true ∧
      t.regs = ((s.setFld R.SEC_CTRL F.SEC_CTRL_LOCK 1).extend 3 (leBytes 4 R.SEC_CTRL ++ leBytes 8 1)).regs ∧
      s.RegsBut t (R.SEC_CTRL :: (List.range 6).map (R.SEC_MEAS 3)) ∧ t = { s with regs := t.regs }) ∧
  (∀ (s : State), s.flag R.SEC_CTRL F.SEC_CTRL_LOCK = true → exec .secLock s = .next s) ∧
  (∀ (offset : BitVec 26) (v : Word) (s : State), findReg offset.toNat = none → exec (.registerWrite offset v) s = .next s) ∧
  (∀ (offset : BitVec 26) (v : Word) (r : RegSpec) (s : State), s.regsWf = true → findReg offset.toNat = some r →
    [R.GLB_RESET, R.GLB_CTRL, R.HIF_RING_ENABLE 0, R.HIF_CQ_CFG 0, R.HIF_LINK_CTRL, R.CMD_CTRL, R.CMD_PEG_ASSIGN, R.CFG_COMMIT, R.CFG_DISCARD,
      R.PWR_BAY_CTRL 0, R.TIM_CTRL, R.TIM_PORT_CFG 0, R.TIM_SET_NS, R.LDG_CTRL, R.CNT_SNAP, R.CNT_CLEAR, R.CNT_COPY_CTRL, R.PRT_PAIR_CFG 0,
      R.PRT_PORT_CTRL 0 0, R.SWC_CTRL, R.BSN_CTRL 0, R.BSN_ABORT 0, R.TEN_ASSIGN 0, R.MEM_CTRL, R.SPL_CTRL, R.SPL_REQ_A, R.SPL_FLIP, R.OPT_CTRL 0,
      R.OPT_MEASURE 0, R.OPT_LANE_CLEAR 0, R.PLN_PROMOTE, R.PLN_FLIP, R.PLN_FENCE_REQ, R.PLN_FENCE_CONFIRM, R.SIL_INJECT, R.SIL_OVR 0,
      R.SEC_IMG_KEY 4 0, R.SEC_CTRL].contains r.base = false →
    s.blockRuns r.base offset.toNat v = false → Answers (exec (.registerWrite offset v) s) fun t =>
      (∀ f ∈ r.fields, f.fld.get (t.rd offset.toNat) =
        if f.acc = .rw then f.fld.get v
        else if f.acc = .w1c then f.fld.get (s.rd offset.toNat &&& ~~~v)
        else f.fld.get (s.rd offset.toNat)) ∧
      s.RegsBut t [offset.toNat] ∧ t = { s with regs := t.regs }) ∧
  (∀ (v : BitVec 64) (s : State), s.regsWf = true → s.flag R.GLB_STATUS F.GLB_STATUS_FWD_ACTIVE = true →
    F.FWD_ROUTER_MAC_MAC.get v ≠ s.fld R.FWD_ROUTER_MAC F.FWD_ROUTER_MAC_MAC →
    exec (.registerWrite (BitVec.ofNat 26 R.FWD_ROUTER_MAC) v) s = .next (s.cfgLog 4 0x1C 0xFF 0 0 R.FWD_ROUTER_MAC)) ∧
  (∀ (offset : BitVec 26) (s : State), findReg offset.toNat = none →
    exec (.rcFieldRead offset) s = .next (s.sendCxl (.barData 0 offset.toNat 0))) ∧
  (∀ (n : Fin 53) (s : State), s.regsWf = true → let o := R.THM_SENSOR n
    Answers (exec (.rcFieldRead (BitVec.ofNat 26 o)) s) fun t =>
      t.out = { s.out with cxl := s.out.cxl ++ [.barData 0 o (s.rd o)] } ∧
      t.fld o F.THM_SENSOR_MAX = 0x8000 ∧ t.fld o F.THM_SENSOR_MIN = 0x7FFF ∧ t.fld o F.THM_SENSOR_TEMP = s.fld o F.THM_SENSOR_TEMP ∧
      s.RegsBut t [o] ∧ t = { s with regs := t.regs, out := t.out })

/-- An enable check that passes sets its enable bit and starts the block; one that fails logs ENABLE_REFUSED with the reason and
leaves the block as it was. CFG_COMMIT asks for a check and sets GO; while GO reads 1 a further one is ignored; a set that none
may name is refused at once with RANGE. A commit that passes makes the captured values the committed ones and counts; one that
fails changes no committed and no staged value; both report the reason in CFG_COMMIT_STATUS and CFG_SET_STATUS. -/
def Obligations.ConfigCommits : Prop :=
  (∀ (s : State), (s.cfg.checks.head?.any fun k => k.kind.isEnable) = false → exec .enableCheckDone s = .next s) ∧
  (∀ (k : Check) (r : Nat) (s : State), s.cfg.checks = [k] → k.kind.isEnable = true → k.kind ≠ .areasEnable → s.enableReason k.kind = r →
    r ≠ 0 → r < 256 → s.regsWf = true → k.source < 4 → Answers (exec .enableCheckDone s) fun t =>
      t.cfg.checks = [] ∧ t.cfg.committed = s.cfg.committed ∧
      t.rd (R.CFG_LOG (s.fld R.CFG_LOG_HEAD F.CFG_LOG_HEAD_COUNT % 256)) = F.CFG_LOG_KIND.put 3 ||| F.CFG_LOG_REASON.put r |||
        F.CFG_LOG_SET.put 0xFF ||| F.CFG_LOG_SOURCE.put k.source ||| F.CFG_LOG_DOMAIN.put k.domain.toNat ||| F.CFG_LOG_OFFSET.put k.offset ∧
      t.rd (R.CFG_LOG_INFO (s.fld R.CFG_LOG_HEAD F.CFG_LOG_HEAD_COUNT % 256)) = s.stamp ∧
      t.fld R.GLB_PLUMB_STATUS F.GLB_PLUMB_STATUS_LAST_REASON = r ∧
      s.RegsBut t [R.CFG_LOG (s.fld R.CFG_LOG_HEAD F.CFG_LOG_HEAD_COUNT % 256), R.CFG_LOG_INFO (s.fld R.CFG_LOG_HEAD F.CFG_LOG_HEAD_COUNT % 256),
        R.CFG_LOG_HEAD, R.GLB_PLUMB_STATUS, R.CFG_COMMIT_STATUS] ∧
      t.out = { s.out with msix := s.out.msix ++ [if r = 0x1B then 9 else 1] } ∧
      t = { s with regs := t.regs, cfg := { s.cfg with checks := [] }, out := t.out, cnt := t.cnt }) ∧
  (∀ (k : Check) (r : Nat) (s : State), s.cfg.checks = [k] → k.kind = .areasEnable → s.areasReason = r → r ≠ 0 → s.regsWf = true →
    Answers (exec .enableCheckDone s) fun t => t.cfg.checks = [] ∧ t.fld R.MEM_STATUS F.MEM_STATUS_AREA_REASON = r ∧
      t.rd R.MEM_CTRL = s.rd R.MEM_CTRL ∧ t.fld R.GLB_PLUMB_STATUS F.GLB_PLUMB_STATUS_LAST_REASON = r) ∧
  (∀ (k : Check) (s : State), s.cfg.checks = [k] → k.kind = .areasEnable → s.areasReason = 0 → s.regsWf = true →
    Answers (exec .enableCheckDone s) fun t => t.cfg.checks = [] ∧ t.fld R.MEM_STATUS F.MEM_STATUS_AREA_REASON = 0 ∧
      t.flag R.MEM_CTRL F.MEM_CTRL_AREAS_ENABLE = true ∧ s.RegsBut t [R.MEM_STATUS, R.MEM_CTRL, R.CFG_COMMIT_STATUS] ∧
      t = { s with regs := t.regs, cfg := { s.cfg with checks := [] } }) ∧
  (∀ (k : Check) (s : State), s.cfg.checks = [k] → k.kind = .fwdEnable → s.fwdReason = 0 → s.regsWf = true →
    Answers (exec .enableCheckDone s) fun t => t.cfg.checks = [] ∧ t.flag R.GLB_CTRL F.GLB_CTRL_FWD_ENABLE = true ∧
      t.flag R.GLB_STATUS F.GLB_STATUS_FWD_ACTIVE = true ∧ s.RegsBut t [R.GLB_CTRL, R.GLB_STATUS, R.CFG_COMMIT_STATUS] ∧
      t = { s with regs := t.regs, cfg := { s.cfg with checks := [] } }) ∧
  (∀ (k : Check) (e : Fin 8) (s : State), s.cfg.checks = [k] → k.kind = .bsnEnable e → s.bsnReason e = 0 → s.regsWf = true →
    Answers (exec .enableCheckDone s) fun t => t.cfg.checks = [] ∧ t.flag (R.BSN_CTRL e) F.BSN_CTRL_ENABLE = true ∧
      s.RegsBut t [R.BSN_CTRL e, R.CFG_COMMIT_STATUS] ∧ t = { s with regs := t.regs, cfg := { s.cfg with checks := [] } }) ∧
  (∀ (k : Check) (c : Fin 256) (s : State), s.cfg.checks = [k] → k.kind = .cqEnable c → s.cqReason c = 0 → s.regsWf = true →
    Answers (exec .enableCheckDone s) fun t => t.cfg.checks = [] ∧ t.cqOn c = true ∧
      t.rd (R.HIF_CQ_STATE c) = F.HIF_CQ_STATE_PHASE.put 1 ∧ s.RegsBut t [R.HIF_CQ_CFG c, R.HIF_CQ_STATE c, R.CFG_COMMIT_STATUS] ∧
      t = { s with regs := t.regs, host := { s.host with cqHost := t.host.cqHost }, cfg := { s.cfg with checks := [] } }) ∧
  (∀ (k : Check) (p : Fin 2048) (s : State), s.cfg.checks = [k] → k.kind = .portEnable p → s.portReason p = 0 → s.regsWf = true →
    Answers (exec .enableCheckDone s) fun t => t.cfg.checks = [] ∧ t.portEnabled p = true ∧ t.portState p = psTraining ∧
      t.fld (prtState p) F.PRT_PORT_STATE_NEG_FAIL = 0) ∧
  (∀ (k : Check) (r : Fin 1024) (s : State), s.cfg.checks = [k] → k.kind = .ringEnable r → s.ringReason r = 0 → s.regsWf = true →
    Answers (exec .enableCheckDone s) fun t => t.cfg.checks = [] ∧ t.ringSt r = 1 ∧
      (t.rd (R.HIF_RING_ENABLE (r / 64))).getLsbD (r % 64) = true) ∧
  (∀ (set : BitVec 8) (s : State), s.regsWf = true → s.flag R.CFG_COMMIT F.CFG_COMMIT_GO = true → exec (.cfgCommit set) s = .next s) ∧
  (∀ (set : BitVec 8) (s : State), s.regsWf = true → s.flag R.CFG_COMMIT F.CFG_COMMIT_GO = false → setCommits set.toNat = true →
    exec (.cfgCommit set) s = .next (((s.setFld R.CFG_COMMIT F.CFG_COMMIT_SET set.toNat).setFld R.CFG_COMMIT F.CFG_COMMIT_GO 1).pushCheck
      { kind := .commit set.toNat })) ∧
  (∀ (set : BitVec 8) (s : State), s.regsWf = true → s.flag R.CFG_COMMIT F.CFG_COMMIT_GO = false → setCommits set.toNat = false →
    Answers (exec (.cfgCommit set) s) fun t => t.fld R.CFG_COMMIT_STATUS F.CFG_COMMIT_STATUS_REASON = 0x10 ∧
      t.fld R.CFG_COMMIT_STATUS F.CFG_COMMIT_STATUS_SET = set.toNat ∧ t.flag R.CFG_COMMIT F.CFG_COMMIT_GO = false ∧ t.cfg = s.cfg ∧
      t.fld R.GLB_PLUMB_STATUS F.GLB_PLUMB_STATUS_LAST_REASON = 0x10 ∧ t.out = { s.out with msix := s.out.msix ++ [1] }) ∧
  (∀ (errs : List LineErr) (s : State), s.cfg.checks.head?.all (fun k => k.kind.isEnable) = true →
    exec (.commitCheckDone errs) s = .next s) ∧
  (∀ (errs : List LineErr) (k : Check) (s : State), s.regsWf = true → s.cfg.checks = [k] → k.kind = .commit 0 → k.dest = 0 → k.source = 0 →
    k.domain = 0 → let v := wordOf k.captured R.GLB_HOST_IF
    let good : Prop := (F.GLB_HOST_IF_DESCRIPTOR.get v = 2 ∨ F.GLB_HOST_IF_DESCRIPTOR.get v = 3) ∧ F.GLB_HOST_IF_TELEMETRY.get v = 4 ∧
      F.GLB_HOST_IF_LEDGER.get v = 2
    Answers (exec (.commitCheckDone errs) s) fun t =>
      (good → t.cfg = { s.cfg with checks := [], committed := (s.applySet 0 k.captured).cfg.committed } ∧
        t.fld (R.CFG_SET_STATUS 0) F.CFG_SET_STATUS_COMMITTED = 1 ∧ t.fld (R.CFG_SET_STATUS 0) F.CFG_SET_STATUS_LAST_REASON = 0 ∧
        t.fld (R.CFG_SET_STATUS 0) F.CFG_SET_STATUS_COMMITS = (s.fld (R.CFG_SET_STATUS 0) F.CFG_SET_STATUS_COMMITS + 1) % 2 ^ F.CFG_SET_STATUS_COMMITS.w ∧
        t.fld R.CFG_COMMIT_STATUS F.CFG_COMMIT_STATUS_REASON = 0) ∧
      (¬ good → t.cfg = { s.cfg with checks := [] } ∧
        t.fld (R.CFG_SET_STATUS 0) F.CFG_SET_STATUS_COMMITTED = s.fld (R.CFG_SET_STATUS 0) F.CFG_SET_STATUS_COMMITTED ∧
        t.fld (R.CFG_SET_STATUS 0) F.CFG_SET_STATUS_LAST_REASON = 0x15 ∧ t.fld R.CFG_COMMIT_STATUS F.CFG_COMMIT_STATUS_REASON = 0x15) ∧
      t.flag R.CFG_COMMIT F.CFG_COMMIT_GO = false ∧ t.flag R.CFG_COMMIT_STATUS F.CFG_COMMIT_STATUS_BUSY = false ∧
      t.rd R.GLB_HOST_IF = s.rd R.GLB_HOST_IF ∧ t.out = { s.out with msix := s.out.msix ++ [1] } ∧
      t = { s with regs := t.regs, cfg := t.cfg, out := t.out, cnt := t.cnt })

/-- CFG_DISCARD copies set n's committed values into its staged fields and clears DIRTY: after it every register of the set
reads its committed value in its staged fields and what it read elsewhere, the set is not dirty, and no register of another set
has changed. A discard of set 0x30, and one that arrives while a commit of the same set is being checked, change nothing but the
SET that CFG_DISCARD itself keeps. -/
def Obligations.DiscardOfASet : Prop :=
  (∀ (set : BitVec 8) (s : State), s.regsWf = true → setCommits set.toNat = true →
    (s.cfg.checks.head?.any fun k => k.kind == .commit set.toNat) = false → swf resetWord s.cfg.committed = true →
    Answers (exec (.cfgDiscard set) s) fun t =>
      (∀ o, inSet set.toNat o = true →
        t.rd o &&& stagedBits o = s.committed o &&& stagedBits o ∧ t.rd o &&& ~~~stagedBits o = s.rd o &&& ~~~stagedBits o) ∧
      t.dirty set.toNat = false ∧ (∀ o, o ≠ R.CFG_DISCARD → inSet set.toNat o = false → t.rd o = s.rd o) ∧ t = { s with regs := t.regs }) ∧
  (∀ (set : BitVec 8) (s : State), s.regsWf = true → setCommits set.toNat = false →
    exec (.cfgDiscard set) s = .next (s.setFld R.CFG_DISCARD F.CFG_DISCARD_SET set.toNat)) ∧
  (∀ (set : BitVec 8) (k : Check) (l : List Check) (s : State), s.regsWf = true → s.cfg.checks = k :: l → k.kind = .commit set.toNat →
    exec (.cfgDiscard set) s = .next (s.setFld R.CFG_DISCARD F.CFG_DISCARD_SET set.toNat))

/-- A message does nothing at a module without a role or with its Wellhead down. One that is not well formed, one from another
plane or an unknown sender, and one of an earlier TERM are discarded and counted. A message taken is counted by kind; a kind for
the other role does nothing more. A follower takes the sender's TERM, its ACTING and MANAGER_PRESENT, and answers HEARTBEAT with
HEALTH, PREPARE with READY, COMMIT with its own flip request or its last DONE; ABORT frees what is prepared and not committed;
CIRCUIT submits a request once per TAG; FENCE and UNFENCE are carried out once and acknowledged; a standby takes the window and
the held requests of SYNC. The acting manager records HEALTH, READY, DONE, circuit answers, acknowledgements and events. A
manager that listens notes a HEARTBEAT, and a higher TERM of the other member demotes it to standby. -/
def Obligations.PlaneMessages : Prop :=
  (∀ (port : Fin 2) (m : Bytes) (s : State), s.planeAlive = false →
    exec (.heartbeat port m) s = .next s ∧ exec (.health port m) s = .next s ∧ exec (.prepare port m) s = .next s ∧
    exec (.ready port m) s = .next s ∧ exec (.planeCommit port m) s = .next s ∧ exec (.planeAbort port m) s = .next s ∧
    exec (.done port m) s = .next s ∧ exec (.circuit port m) s = .next s ∧ exec (.circuitAnswer port m) s = .next s ∧
    exec (.planeFence port m) s = .next s ∧ exec (.planeUnfence port m) s = .next s ∧ exec (.ack port m) s = .next s ∧
    exec (.event port m) s = .next s ∧ exec (.sync port m) s = .next s) ∧
  (∀ (port : Fin 2) (m : Bytes) (s : State), s.planeAlive = true → planeWell m = false → let u : State := s.count (ctrPln port 0)
    exec (.heartbeat port m) s = .next u ∧ exec (.health port m) s = .next u ∧ exec (.prepare port m) s = .next u ∧
    exec (.ready port m) s = .next u ∧ exec (.planeCommit port m) s = .next u ∧ exec (.planeAbort port m) s = .next u ∧
    exec (.done port m) s = .next u ∧ exec (.circuit port m) s = .next u ∧ exec (.circuitAnswer port m) s = .next u ∧
    exec (.planeFence port m) s = .next u ∧ exec (.planeUnfence port m) s = .next u ∧ exec (.ack port m) s = .next u ∧
    exec (.event port m) s = .next u ∧ exec (.sync port m) s = .next u) ∧
  (∀ (port : Fin 2) (m : Bytes) (s : State), s.planeAlive = true → planeWell m = true →
    s.planeNames (planeSender m) = false ∨ beAt m 2 2 % 4096 ≠ s.cfld R.PLN_CFG F.PLN_CFG_PLANE ∨
      planeTerm m < s.fld R.PLN_STATUS F.PLN_STATUS_TERM →
    let c : Nat := if s.planeNames (planeSender m) = false ∨ beAt m 2 2 % 4096 ≠ s.cfld R.PLN_CFG F.PLN_CFG_PLANE then 1 else 2
    let u (k : Nat) : State := if byteAt m 0 = k then s.count (ctrPln port c) else s
    exec (.heartbeat port m) s = .next (u 1) ∧ exec (.health port m) s = .next (u 2) ∧ exec (.prepare port m) s = .next (u 3) ∧
    exec (.ready port m) s = .next (u 4) ∧ exec (.planeCommit port m) s = .next (u 5) ∧ exec (.planeAbort port m) s = .next (u 6) ∧
    exec (.done port m) s = .next (u 7) ∧ exec (.circuit port m) s = .next (u 8) ∧ exec (.circuitAnswer port m) s = .next (u 9) ∧
    exec (.planeFence port m) s = .next (u 10) ∧ exec (.planeUnfence port m) s = .next (u 11) ∧ exec (.ack port m) s = .next (u 12) ∧
    exec (.event port m) s = .next (u 13) ∧ exec (.sync port m) s = .next (u 14)) ∧
  (∀ (port : Fin 2) (m : Bytes) (k : Nat) (s : State), s.PlaneTakes k m →
    (k ≠ 1 → exec (.heartbeat port m) s = .next s) ∧ (k ≠ 2 → exec (.health port m) s = .next s) ∧
    (k ≠ 3 → exec (.prepare port m) s = .next s) ∧ (k ≠ 4 → exec (.ready port m) s = .next s) ∧
    (k ≠ 5 → exec (.planeCommit port m) s = .next s) ∧ (k ≠ 6 → exec (.planeAbort port m) s = .next s) ∧
    (k ≠ 7 → exec (.done port m) s = .next s) ∧ (k ≠ 8 → exec (.circuit port m) s = .next s) ∧
    (k ≠ 9 → exec (.circuitAnswer port m) s = .next s) ∧ (k ≠ 10 → exec (.planeFence port m) s = .next s) ∧
    (k ≠ 11 → exec (.planeUnfence port m) s = .next s) ∧ (k ≠ 12 → exec (.ack port m) s = .next s) ∧
    (k ≠ 13 → exec (.event port m) s = .next s) ∧ (k ≠ 14 → exec (.sync port m) s = .next s)) ∧
  (∀ (port : Fin 2) (m : Bytes) (k : Nat) (s : State), s.PlaneTakes k m → s.follows = false ∨ s.pairIds.contains (planeSender m) = false →
    let u (j : Nat) : State := if k = j then s.count (ctrPln port (2 + j)) else s
    exec (.prepare port m) s = .next (u 3) ∧ exec (.planeCommit port m) s = .next (u 5) ∧ exec (.planeAbort port m) s = .next (u 6) ∧
    exec (.circuit port m) s = .next (u 8) ∧ exec (.planeFence port m) s = .next (u 10) ∧ exec (.planeUnfence port m) s = .next (u 11) ∧
    exec (.sync port m) s = .next (u 14)) ∧
  (∀ (port : Fin 2) (m : Bytes) (s : State), s.PlaneTakes 1 m → s.follows = true → s.pairIds.contains (planeSender m) = false →
    exec (.heartbeat port m) s = .next (s.count (ctrPln port 3))) ∧
  (∀ (port : Fin 2) (m : Bytes) (k : Nat) (s : State), s.PlaneTakes k m →
    s.acting = false ∨ (s.workerOf (planeSender m) = none ∧ planeSender m ≠ s.otherMember) →
    let u (j : Nat) : State := if k = j then s.count (ctrPln port (2 + j)) else s
    exec (.health port m) s = .next (u 2) ∧ exec (.ready port m) s = .next (u 4) ∧ exec (.done port m) s = .next (u 7) ∧
    exec (.circuitAnswer port m) s = .next (u 9) ∧ exec (.ack port m) s = .next (u 12) ∧ exec (.event port m) s = .next (u 13)) ∧
  (∀ (port : Fin 2) (m : Bytes) (s : State), s.FromPair 1 m → s.regsWf = true → s.pln.managerLost = false → s.pln.keptEvents = [] →
    Answers (exec (.heartbeat port m) s) fun t =>
      t.fld R.PLN_STATUS F.PLN_STATUS_TERM = planeTerm m ∧ t.flag R.PLN_STATUS F.PLN_STATUS_MANAGER_PRESENT = true ∧
      t.flag R.PLN_STATUS F.PLN_STATUS_ACTING = decide (planeSender m = s.committed R.PLN_STANDBY_ID) ∧
      t.fld R.PLN_STATUS F.PLN_STATUS_ROLE = s.fld R.PLN_STATUS F.PLN_STATUS_ROLE ∧ t.heardAt 1023 port = some s.mono ∧
      t = (s.heardPair port 1 m).plnSend port (planeSender m) 2 (s.heardPair port 1 m).healthBody ∧
      t.out.mgmt.length = s.out.mgmt.length + 1 ∧ s.RegsBut t [R.PLN_STATUS] ∧
      (s.fld R.PLN_STATUS F.PLN_STATUS_TERM < planeTerm m → t.ldg = { s.ldg with term := BitVec.ofNat 32 (planeTerm m), controlSeq := s.ldg.controlSeq + 1 })) ∧
  (∀ (port : Fin 2) (m : Bytes) (s : State), s.PlaneTakes 1 m → s.role = 2 → s.pln.listening = true → s.regsWf = true →
    Answers (exec (.heartbeat port m) s) fun t => t.pln.heardManager = true ∧ t.pln.listening = true ∧
      t.fld R.PLN_STATUS F.PLN_STATUS_TERM = planeTerm m ∧ s.RegsBut t [R.PLN_STATUS] ∧ t.out = s.out) ∧
  (∀ (port : Fin 2) (m : Bytes) (s : State), s.PlaneTakes 1 m → s.role = 2 → s.pln.listening = false → s.regsWf = true →
    planeSender m = s.otherMember → s.fld R.PLN_STATUS F.PLN_STATUS_TERM < planeTerm m → s.pln.keptEvents = [] →
    Answers (exec (.heartbeat port m) s) fun t => t.role = 3 ∧ t.fld R.PLN_STATUS F.PLN_STATUS_TERM = planeTerm m ∧ t.pln.flip = none ∧
      t.pln.fences = [] ∧ t.pln.circuits = [] ∧ t.flag R.PLN_FLIP F.PLN_FLIP_GO = false ∧
      t.flag R.PLN_STATUS F.PLN_STATUS_MANAGER_PRESENT = true ∧ t.cfld R.PLN_CFG F.PLN_CFG_ROLE = 3 ∧ t.out.mgmt = s.out.mgmt ∧
      F.PLN_EVENT_KIND.get (t.rd (R.PLN_EVENT (s.fld R.PLN_EVENT_HEAD F.PLN_EVENT_HEAD_COUNT % 256))) = 7) ∧
  (∀ (port : Fin 2) (m : Bytes) (s : State), s.PlaneTakes 1 m → s.role = 2 → s.pln.listening = false →
    planeSender m ≠ s.otherMember ∨ planeTerm m = s.fld R.PLN_STATUS F.PLN_STATUS_TERM →
    exec (.heartbeat port m) s = .next (s.count (ctrPln port 3))) ∧
  (∀ (port : Fin 2) (m : Bytes) (n : Nat) (s : State), s.FromMember 2 m n → n < 1023 → s.regsWf = true → s.pln.heard = [] →
    Answers (exec (.health port m) s) fun t => let b := planeText m
      let w := t.rd (R.PLN_WORKER_STATE n)
      F.PLN_WORKER_STATE_STATE.get w = (if s.workerState n = 3 then 3 else 1) ∧ F.PLN_WORKER_STATE_PATHS.get w = 2 ^ port.val ∧
      F.PLN_WORKER_STATE_SHED.get w = byteAt b 5 % 4 ∧ F.PLN_WORKER_STATE_HEALTH.get w = beAt b 0 2 % 1024 ∧
      F.PLN_WORKER_STATE_EPOCH.get w = beAt b 12 4 % 65536 ∧ F.PLN_WORKER_STATE_ERROR_NS.get w = min (beAt b 8 4) 65535 ∧
      F.PLN_WORKER_STATE_LOAD.get w = byteAt b 4 ∧ t.heardAt n port = some s.mono ∧ t.fld R.PLN_STATUS F.PLN_STATUS_TERM = planeTerm m ∧
      (s.workerState n ≠ 2 → s.RegsBut t [R.PLN_WORKER_STATE n, R.PLN_STATUS] ∧ t.out = s.out) ∧
      (s.workerState n = 2 → t.out = { s.out with msix := s.out.msix ++ [7] } ∧
        F.PLN_EVENT_KIND.get (t.rd (R.PLN_EVENT (s.fld R.PLN_EVENT_HEAD F.PLN_EVENT_HEAD_COUNT % 256))) = 4)) ∧
  (∀ (port : Fin 2) (m : Bytes) (s : State), s.FromMember 2 m 1023 → s.regsWf = true →
    Answers (exec (.health port m) s) fun t => t.heardAt 1023 port = some s.mono ∧
      t.fld R.PLN_STATUS F.PLN_STATUS_TERM = planeTerm m ∧ s.RegsBut t [R.PLN_STATUS] ∧ t.out = s.out) ∧
  (∀ (port : Fin 2) (m : Bytes) (s : State), s.FromPair 3 m → let b := planeText m
    let u : State := if byteAt b 2 = 2 then (s.heardPair port 3 m).takeShape b else s.heardPair port 3 m
    let p : Nat × State := u.participate (byteAt b 2) (BitVec.ofNat 16 (beAt b 0 2)) (beAt b 4 4)
    exec (.prepare port m) s = .next (p.2.plnSend port p.2.actingManager 4 (beBytes 2 (beAt b 0 2) ++ beBytes 1 p.1 ++ beBytes 1 0 ++
      beBytes 8 (p.2.rd R.SPL_CYCLE_START).toNat ++ beBytes 4 p.2.cycleNs))) ∧
  (∀ (kind fromEpoch : Nat) (id : BitVec 16) (s u : State), s.regsWf = true → u = (s.participate kind id fromEpoch).2 →
    let r := (s.participate kind id fromEpoch).1
    ∃ c, c = s.pln.prepared ∧ (c = none → r = 0 → u.pln.prepared = some (kind, id, false) ∧ u.flag R.PLN_STATUS F.PLN_STATUS_PREPARED = true ∧
        s.RegsBut u [R.PLN_STATUS] ∧ u = { s with regs := u.regs, pln := { s.pln with prepared := u.pln.prepared } }) ∧
      (c = none → kind = 1 → s.epoch ≠ fromEpoch → r = 0x12) ∧ (c = none → kind = 1 → s.epoch = fromEpoch → r = s.eflipRules true) ∧
      (c = none → kind = 2 → r = s.ensurePend.splFlipRules) ∧ (c ≠ none ∨ r ≠ 0 → u = s) ∧
      (∀ k i d, c = some (k, i, d) → r = if k = kind ∧ i = id then 0 else 0x18)) ∧
  (∀ (port : Fin 2) (m : Bytes) (n : Nat) (s : State), s.FromMember 4 m n → s.pln.flip = none →
    exec (.ready port m) s = .next (s.heardMember port 4 m)) ∧
  (∀ (port : Fin 2) (m : Bytes) (n : Nat) (f : ManagerFlip) (s : State), s.FromMember 4 m n → s.pln.flip = some f →
    f.id.toNat ≠ beAt (planeText m) 0 2 ∨ f.committing = true ∨ f.participants.contains n = false ∨ (f.ready.any fun x => x.1 == n) = true →
    exec (.ready port m) s = .next (s.heardMember port 4 m)) ∧
  (∀ (port : Fin 2) (m : Bytes) (n : Nat) (f : ManagerFlip) (s : State), s.FromMember 4 m n → s.pln.flip = some f → s.regsWf = true →
    f.id.toNat = beAt (planeText m) 0 2 → f.committing = false → f.participants = [n, 1023] → n < 1023 → f.ready = [(1023, 0, 0)] →
    byteAt (planeText m) 2 ≠ 0 → Answers (exec (.ready port m) s) fun t => t.pln.flip = none ∧
      t.fld R.PLN_FLIP_STATUS F.PLN_FLIP_STATUS_STATE = 4 ∧ t.fld R.PLN_FLIP_STATUS F.PLN_FLIP_STATUS_WORKER = n ∧
      t.fld R.PLN_FLIP_STATUS F.PLN_FLIP_STATUS_REASON = byteAt (planeText m) 2 ∧ t.flag R.PLN_FLIP F.PLN_FLIP_GO = false ∧
      t.out.mgmt.length = s.out.mgmt.length + 2 ∧
      F.PLN_EVENT_KIND.get (t.rd (R.PLN_EVENT (s.fld R.PLN_EVENT_HEAD F.PLN_EVENT_HEAD_COUNT % 256))) = 9) ∧
  (∀ (port : Fin 2) (m : Bytes) (n : Nat) (f : ManagerFlip) (s : State), s.FromMember 4 m n → s.pln.flip = some f → s.regsWf = true →
    f.id.toNat = beAt (planeText m) 0 2 → f.committing = false → f.participants = [n, 1023] → n < 1023 → f.ready = [(1023, 0, 0)] →
    f.kind = 1 → byteAt (planeText m) 2 = 0 → f.done = [] →
    s.cfg.checks ≠ [] → s.fld R.PLN_CFG F.PLN_CFG_FLIP_LEAD_MS ≤ 10000 → Answers (exec (.ready port m) s) fun t =>
      let i := s.now + max 1 (s.fld R.PLN_CFG F.PLN_CFG_FLIP_LEAD_MS) * 1000000
      (t.pln.flip.map fun x => (x.committing, x.instant, x.ready.length)) = some (true, i, 2) ∧
      t.fld R.PLN_FLIP_STATUS F.PLN_FLIP_STATUS_STATE = 2 ∧ t.rd R.PLN_FLIP_TIME = instantWord i ∧
      t.pln.prepared = some (1, f.id, true) ∧ t.out.mgmt.length = s.out.mgmt.length + 2 ∧ t.cfg.checks.length = s.cfg.checks.length + 1) ∧
  (∀ (port : Fin 2) (m : Bytes) (kind : Nat) (id : BitVec 16) (s : State), s.FromPair 5 m → s.pln.prepared = some (kind, id, false) →
    id.toNat = beAt (planeText m) 0 2 →
    exec (.planeCommit port m) s = .next ((s.heardPair port 5 m).askFlip kind id (BitVec.ofNat 64 (beAt (planeText m) 4 8)) port)) ∧
  (∀ (port : Fin 2) (m : Bytes) (r : Nat) (s : State), s.FromPair 5 m → s.pln.prepared = none → s.pln.lastDone = some (BitVec.ofNat 16 (beAt (planeText m) 0 2), r) → let u := s.heardPair port 5 m
    exec (.planeCommit port m) s = .next (u.plnSend port u.actingManager 7 (beBytes 2 (beAt (planeText m) 0 2) ++ beBytes 1 r))) ∧
  (∀ (port : Fin 2) (m : Bytes) (s : State), s.FromPair 5 m → s.pln.prepared = none →
    s.pln.lastDone = none → exec (.planeCommit port m) s = .next (s.heardPair port 5 m)) ∧
  (∀ (port : Fin 2) (m : Bytes) (kind : Nat) (id : BitVec 16) (c : Bool) (s : State), s.FromPair 6 m →
    s.pln.prepared = some (kind, id, c) → let u := s.heardPair port 6 m
    exec (.planeAbort port m) s = .next (if c = false ∧ id.toNat = beAt (planeText m) 0 2 then
      { u.setFld R.PLN_STATUS F.PLN_STATUS_PREPARED 0 with pln := { u.pln with prepared := none } } else u)) ∧
  (∀ (port : Fin 2) (m : Bytes) (s : State), s.FromPair 6 m → s.pln.prepared = none → exec (.planeAbort port m) s = .next (s.heardPair port 6 m)) ∧
  (∀ (port : Fin 2) (m : Bytes) (n : Nat) (s : State), s.FromMember 7 m n → s.pln.flip = none →
    exec (.done port m) s = .next (s.heardMember port 7 m)) ∧
  (∀ (port : Fin 2) (m : Bytes) (n : Nat) (f : ManagerFlip) (s : State), s.FromMember 7 m n → s.pln.flip = some f →
    f.committing = false ∨ f.id.toNat ≠ beAt (planeText m) 0 2 ∨ f.participants.contains n = false ∨ f.done.contains n = true →
    exec (.done port m) s = .next (s.heardMember port 7 m)) ∧
  (∀ (port : Fin 2) (m : Bytes) (n : Nat) (f : ManagerFlip) (s : State), s.FromMember 7 m n → s.pln.flip = some f → f.committing = true →
    f.id.toNat = beAt (planeText m) 0 2 → f.participants.contains n = true → f.done.contains n = false → s.now < f.instant →
    exec (.done port m) s = .next (
      let r := byteAt (planeText m) 2
      let u := s.heardMember port 7 m
      { u with pln := { u.pln with flip := some { f with done := f.done ++ [n], bad := if r ≠ 0 ∧ f.bad = none then some (n, r) else f.bad } } })) ∧
  (∀ (port : Fin 2) (m : Bytes) (s : State), s.FromPair 8 m →
    let b := planeText m
    let w (i : Nat) : Word := BitVec.ofNat 64 (beAt b (8 * i) 8)
    let tag : BitVec 16 := BitVec.ofNat 16 (F.SPL_REQ_A_TAG.get (w 0))
    let u := s.heardPair port 8 m
    exec (.circuit port m) s = .next (match s.pln.answered.find? fun x => x.1 == tag with
      | some (_, ans) => u.plnSend port u.actingManager 9 ans
      | none => if (s.spl.requests.any fun r => r.plane && F.SPL_REQ_A_TAG.get r.a == tag.toNat) = true then u
        else u.splSubmit ⟨w 0, w 1, w 2, w 3, true⟩)) ∧
  (∀ (port : Fin 2) (m : Bytes) (n : Nat) (s : State), s.FromMember 9 m n → let u := s.heardMember port 9 m
    let v : Word := BitVec.ofNat 64 (beAt (planeText m) 0 8)
    let mine (x : Nat × Bytes) : Bool := x.1 == n && F.SPL_REQ_A_TAG.get (BitVec.ofNat 64 (beAt x.2 0 8)) == F.SPL_RESP_TAG.get v
    exec (.circuitAnswer port m) s = .next (if s.pln.circuits.any mine = true then
      { u with pln := { u.pln with circuits := s.pln.circuits.filter fun x => !mine x, circuitAnswers := s.pln.circuitAnswers ++ [(n, v)] } } else u)) ∧
  (∀ (port : Fin 2) (m : Bytes) (n : Nat) (s : State), s.FromPair 0xA m ∨ s.FromPair 0xB m → s.regsWf = true →
    (s.pln.appliedFences.find? fun x => x.1 == planeSender m && x.2.1 == BitVec.ofNat 16 (beAt (planeText m) 0 2)) =
      some (planeSender m, BitVec.ofNat 16 (beAt (planeText m) 0 2), n) →
    let u (k : Nat) : State := if byteAt m 0 = k then
        (s.heardPair port k m).plnSend port (planeSender m) 0xC (beBytes 2 (beAt (planeText m) 0 2) ++ beBytes 2 n) else s
    exec (.planeFence port m) s = .next (u 0xA) ∧ exec (.planeUnfence port m) s = .next (u 0xB)) ∧
  (∀ (port : Fin 2) (m : Bytes) (p : Nat) (s : State), s.FromPair 0xA m → s.pln.appliedFences = [] → s.regsWf = true →
    byteAt (planeText m) 2 = 3 → beAt (planeText m) 4 2 % 2048 = p → Answers (exec (.planeFence port m) s) fun t =>
      t.excluded p = true ∧ t.portEnabled p = false ∧ t.portState p = psDisabled ∧
      t.fld (prtState p) F.PRT_PORT_STATE_DOWN_REASON = 8 ∧ t.checking (.portEnable p) = false ∧
      t.pln.appliedFences = [(planeSender m, BitVec.ofNat 16 (beAt (planeText m) 0 2), if s.excluded p = false ∨ s.portEnabled p = true then 1 else 0)]) ∧
  (∀ (port : Fin 2) (m : Bytes) (p : Nat) (s : State), s.FromPair 0xB m → s.pln.appliedFences = [] → s.regsWf = true →
    byteAt (planeText m) 2 = 3 → beAt (planeText m) 4 2 % 2048 = p → Answers (exec (.planeUnfence port m) s) fun t =>
      t.excluded p = false ∧ (∀ q, q < 2048 → q ≠ p → t.excluded q = s.excluded q) ∧ (∀ q, q < 2048 → t.portEnabled q = s.portEnabled q) ∧
      t.fld R.FWD_MCAST_STATUS F.FWD_MCAST_STATUS_MASK_EPOCH = (s.fld R.FWD_MCAST_STATUS F.FWD_MCAST_STATUS_MASK_EPOCH + 1) % 2 ^ F.FWD_MCAST_STATUS_MASK_EPOCH.w ∧
      t.pln.appliedFences = [(planeSender m, BitVec.ofNat 16 (beAt (planeText m) 0 2), if s.excluded p = true then 1 else 0)]) ∧
  (∀ (port : Fin 2) (m : Bytes) (n : Nat) (s : State), s.FromMember 0xC m n → let u := s.heardMember port 0xC m
    let mine (x : PendingFence) : Bool := x.id.toNat == beAt (planeText m) 0 2 && x.dest == n
    exec (.ack port m) s = .next (match s.pln.fences.find? mine with
      | none => u
      | some x =>
        let v : State := { u with pln := { u.pln with fences := s.pln.fences.filter fun x => !mine x } }
        if byteAt x.body 2 = 1 ∧ n ≠ 1023 then v.setFld (R.PLN_WORKER_STATE n) F.PLN_WORKER_STATE_STATE (if x.unfence then 1 else 3) else v)) ∧
  (∀ (port : Fin 2) (m : Bytes) (n : Nat) (s : State), s.FromMember 0xD m n → s.regsWf = true → Answers (exec (.event port m) s) fun t =>
    let k := s.fld R.PLN_EVENT_HEAD F.PLN_EVENT_HEAD_COUNT % 256
    let x : Word := BitVec.ofNat 64 (beAt (planeText m) 0 8)
    F.PLN_EVENT_KIND.get (t.rd (R.PLN_EVENT k)) = F.PLN_EVENT_KIND.get x ∧ F.PLN_EVENT_WORKER.get (t.rd (R.PLN_EVENT k)) = n % 1024 ∧
    F.PLN_EVENT_PORT.get (t.rd (R.PLN_EVENT k)) = F.PLN_EVENT_PORT.get x ∧ F.PLN_EVENT_GROUP.get (t.rd (R.PLN_EVENT k)) = F.PLN_EVENT_GROUP.get x ∧
    F.PLN_EVENT_OP_SEQ.get (t.rd (R.PLN_EVENT k)) = F.PLN_EVENT_OP_SEQ.get x ∧ t.rd (R.PLN_EVENT_INFO k) = s.stamp ∧
    t.rd (R.PLN_EVENT_ID k) = BitVec.ofNat 64 (beAt (planeText m) 16 8) ∧
    s.RegsBut t [R.PLN_EVENT k, R.PLN_EVENT_INFO k, R.PLN_EVENT_ID k, R.PLN_EVENT_HEAD, R.PLN_STATUS] ∧
    t.out = { s.out with msix := s.out.msix ++ [7] }) ∧
  (∀ (port : Fin 2) (m : Bytes) (s : State), s.FromPair 0xE m → s.role ≠ 3 → exec (.sync port m) s = .next (s.heardPair port 0xE m)) ∧
  (∀ (port : Fin 2) (m : Bytes) (s : State), s.FromPair 0xE m → s.role = 3 → s.regsWf = true → Answers (exec (.sync port m) s) fun t =>
    let b := planeText m
    t.pln.fenceTimes.length = byteAt b 0 ∧
    (∀ k, k < 64 → t.rd (R.PLN_HELD k) = (if k < byteAt b 1 then BitVec.ofNat 64 (beAt b (4 + 4 * byteAt b 0 + 16 * k) 8) else 0) ∧
      t.rd (R.PLN_HELD_ID k) = (if k < byteAt b 1 then BitVec.ofNat 64 (beAt b (12 + 4 * byteAt b 0 + 16 * k) 8) else 0)))

/-- Only an acting manager sends HEARTBEAT, to every worker listed and its other member on both ports, and SYNC to its other
member. 300 ms of silence on both ports lose a manager or a worker, on one port a path, each once. When listening ends a manager
acts with a TERM one above the highest, or becomes standby if it heard another. A promotion of a standby needs the manager lost,
or FORCE. PLN_FLIP starts a flip with PREPARE to every live worker, or is refused with its reason; PREPARE is resent until
answered, and a missing READY aborts the flip at 100 ms; COMMIT is resent until T; a DONE missing at T + 100 ms splits it. A
window of 90 % load or more raises the shed level, ten in a row below 70 % lower it. -/
def Obligations.PlaneTimersAndFlips : Prop :=
  (∀ (s : State), s.planeAlive = false ∨ s.acting = false → exec .heartbeatSend s = .next s ∧ exec .syncSend s = .next s) ∧
  (∀ (s : State), s.planeAlive = true → s.acting = true → Answers (exec .heartbeatSend s) fun t =>
    t.out.mgmt.length = s.out.mgmt.length + 2 * (s.workers.length + if s.otherMember = 0 then 0 else 1) ∧
    t.out = { s.out with mgmt := t.out.mgmt } ∧ t.out.mgmt.take s.out.mgmt.length = s.out.mgmt ∧
    t = { s with pln := { s.pln with sequence := t.pln.sequence }, out := t.out, free := t.free }) ∧
  (∀ (n : Nat) (s : State), s.planeAlive = true → s.acting = true → s.workers = [n] → s.otherMember = 0 →
    let b := beBytes 8 s.stamp.toNat ++ beBytes 2 n ++ beBytes 2 0 ++ beBytes 4 s.epoch
    exec .heartbeatSend s = .next ((s.plnSend 0 (s.workerId n) 1 b).plnSend 1 (s.workerId n) 1 b)) ∧
  (∀ (s : State), s.planeAlive = true → s.acting = true → s.otherMember = 0 → exec .syncSend s = .next s) ∧
  (∀ (s : State), s.planeAlive = true → s.acting = true → s.otherMember ≠ 0 → s.heldList = [] →
    let l := s.inWindow.reverse.take (s.cfld R.PLN_BUDGET F.PLN_BUDGET_COUNT)
    let b := beBytes 1 l.length ++ beBytes 1 0 ++ beBytes 2 0 ++ (l.flatMap fun t => beBytes 4 t)
    exec .syncSend s = .next ((s.plnSend 0 s.otherMember 0xE b).plnSend 1 s.otherMember 0xE b)) ∧
  (∀ (s : State), s.planeAlive = false ∨ s.follows = false ∨ s.pln.managerLost = true ∨ s.silent 1023 0 = false ∨ s.silent 1023 1 = false →
    exec .managerSilenceTimeout s = .next s) ∧
  (∀ (s : State), s.regsWf = true → s.planeAlive = true → s.follows = true → s.pln.managerLost = false → s.silent 1023 0 = true →
    s.silent 1023 1 = true → Answers (exec .managerSilenceTimeout s) fun t =>
      t.flag R.PLN_STATUS F.PLN_STATUS_MANAGER_PRESENT = false ∧ t.pln.managerLost = true ∧ t.planeHolds = false ∧
      F.PLN_EVENT_KIND.get (t.rd (R.PLN_EVENT (s.fld R.PLN_EVENT_HEAD F.PLN_EVENT_HEAD_COUNT % 256))) = 1 ∧
      t.rd (R.PLN_EVENT_ID (s.fld R.PLN_EVENT_HEAD F.PLN_EVENT_HEAD_COUNT % 256)) = s.actingManager ∧
      (s.planeHolds = false → t.pln.prepared = s.pln.prepared) ∧ t.out = { s.out with msix := s.out.msix ++ [7] } ∧
      t = { s with regs := t.regs, pln := { s.pln with managerLost := true, prepared := t.pln.prepared }, out := t.out, cnt := t.cnt }) ∧
  (∀ (n : Fin 1023) (s : State), s.planeAlive = false ∨ s.acting = false ∨ s.workerId n = 0 ∨ s.workerState n = 2 ∨ s.silent n 0 = false ∨
    s.silent n 1 = false → exec (.workerSilenceTimeout n) s = .next s) ∧
  (∀ (n : Fin 1023) (s : State), s.regsWf = true → s.planeAlive = true → s.acting = true → s.workerId n ≠ 0 → s.workerState n ≠ 2 →
    s.silent n 0 = true → s.silent n 1 = true → Answers (exec (.workerSilenceTimeout n) s) fun t =>
      t.workerState n = 2 ∧ t.fld (R.PLN_WORKER_STATE n) F.PLN_WORKER_STATE_PATHS = 0 ∧
      t.rd (R.PLN_EVENT (s.fld R.PLN_EVENT_HEAD F.PLN_EVENT_HEAD_COUNT % 256)) = F.PLN_EVENT_KIND.put 3 ||| F.PLN_EVENT_WORKER.put n ∧
      t.rd (R.PLN_EVENT_ID (s.fld R.PLN_EVENT_HEAD F.PLN_EVENT_HEAD_COUNT % 256)) = s.workerId n ∧
      t.out = { s.out with msix := s.out.msix ++ [7] } ∧ t = { s with regs := t.regs, out := t.out, cnt := t.cnt }) ∧
  (∀ (port : Fin 2) (n : BitVec 10) (s : State), s.planeAlive = false ∨ (s.follows = true ∧ n ≠ 1023) ∨ s.silent n.toNat port = false ∨
    s.silent n.toNat (1 - port.val) = true ∨ s.pln.lostPaths.contains (heardKey n.toNat port) = true →
    exec (.pathSilenceTimeout port n) s = .next s) ∧
  (∀ (port : Fin 2) (s : State), s.regsWf = true → s.planeAlive = true → s.follows = true → s.silent 1023 port = true →
    s.silent 1023 (1 - port.val) = false → s.pln.lostPaths.contains (heardKey 1023 port) = false →
    Answers (exec (.pathSilenceTimeout port 1023) s) fun t =>
      t.pln.lostPaths = s.pln.lostPaths ++ [heardKey 1023 port] ∧
      t.rd (R.PLN_EVENT (s.fld R.PLN_EVENT_HEAD F.PLN_EVENT_HEAD_COUNT % 256)) =
        F.PLN_EVENT_KIND.put 5 ||| F.PLN_EVENT_WORKER.put 1023 ||| F.PLN_EVENT_PORT.put port ∧
      t.out = { s.out with msix := s.out.msix ++ [7] } ∧
      t = { s with regs := t.regs, pln := { s.pln with lostPaths := t.pln.lostPaths }, out := t.out, cnt := t.cnt }) ∧
  (∀ (port : Fin 2) (n : BitVec 10) (s : State), s.regsWf = true → s.planeAlive = true → s.acting = true → s.idOf n.toNat ≠ 0 → n ≠ 1023 →
    s.silent n.toNat port = true → s.silent n.toNat (1 - port.val) = false → s.pln.lostPaths.contains (heardKey n.toNat port) = false →
    s.heardLately n.toNat (1 - port.val) = true → Answers (exec (.pathSilenceTimeout port n) s) fun t =>
      t.pln.lostPaths = s.pln.lostPaths ++ [heardKey n.toNat port] ∧
      t.fld (R.PLN_WORKER_STATE n.toNat) F.PLN_WORKER_STATE_PATHS = 2 - port.val ∧ t.workerState n.toNat = s.workerState n.toNat ∧
      t.rd (R.PLN_EVENT (s.fld R.PLN_EVENT_HEAD F.PLN_EVENT_HEAD_COUNT % 256)) =
        F.PLN_EVENT_KIND.put 5 ||| F.PLN_EVENT_WORKER.put n.toNat ||| F.PLN_EVENT_PORT.put port ∧ t.out = { s.out with msix := s.out.msix ++ [7] }) ∧
  (∀ (s : State), s.pln.listening = false ∨ s.role ≠ 2 → exec .listenPeriodEnd s = .next s) ∧
  (∀ (s : State), s.regsWf = true → s.pln.listening = true → s.role = 2 → s.pln.heardManager = false →
    Answers (exec .listenPeriodEnd s) fun t => t.acting = true ∧
      t.fld R.PLN_STATUS F.PLN_STATUS_TERM = (s.fld R.PLN_STATUS F.PLN_STATUS_TERM + 1) % 2 ^ 32 ∧
      t.ldg = { s.ldg with term := BitVec.ofNat 32 (s.fld R.PLN_STATUS F.PLN_STATUS_TERM + 1), controlSeq := s.ldg.controlSeq + 1 } ∧
      s.RegsBut t [R.PLN_STATUS] ∧ t = { s with regs := t.regs, ldg := t.ldg, pln := { s.pln with listening := false, since := s.mono } }) ∧
  (∀ (s : State), s.regsWf = true → s.pln.listening = true → s.role = 2 → s.pln.heardManager = true →
    Answers (exec .listenPeriodEnd s) fun t => t.role = 3 ∧ t.acting = false ∧ t.pln.listening = false ∧
      t.fld R.PLN_STATUS F.PLN_STATUS_TERM = s.fld R.PLN_STATUS F.PLN_STATUS_TERM ∧ t.out = { s.out with msix := s.out.msix ++ [7] } ∧
      F.PLN_EVENT_KIND.get (t.rd (R.PLN_EVENT (s.fld R.PLN_EVENT_HEAD F.PLN_EVENT_HEAD_COUNT % 256))) = 7) ∧
  (∀ (force : Bool) (s : State), s.regsWf = true → s.cfld R.PLN_CFG F.PLN_CFG_ROLE ≠ 3 ∨
      (force = false ∧ (s.heardLately 1023 0 = true ∨ s.heardLately 1023 1 = true)) → Answers (exec (.promote force) s) fun t =>
    t.fld R.PLN_PROMOTE F.PLN_PROMOTE_REASON = (if s.cfld R.PLN_CFG F.PLN_CFG_ROLE ≠ 3 then 0x12 else 0x17) ∧
    t.flag R.PLN_PROMOTE F.PLN_PROMOTE_GO = false ∧ s.RegsBut t [R.PLN_PROMOTE] ∧ t = { s with regs := t.regs }) ∧
  (∀ (force : Bool) (s : State), s.regsWf = true → s.cfld R.PLN_CFG F.PLN_CFG_ROLE = 3 →
    force = true ∨ (s.heardLately 1023 0 = false ∧ s.heardLately 1023 1 = false) → Answers (exec (.promote force) s) fun t =>
      t.role = 2 ∧ t.acting = true ∧ t.fld R.PLN_STATUS F.PLN_STATUS_TERM = (s.fld R.PLN_STATUS F.PLN_STATUS_TERM + 1) % 2 ^ 32 ∧
      t.flag R.PLN_STATUS F.PLN_STATUS_MANAGER_PRESENT = false ∧ t.fld R.PLN_PROMOTE F.PLN_PROMOTE_REASON = 0 ∧
      t.cfld R.PLN_CFG F.PLN_CFG_ROLE = 2 ∧ t.fld R.PLN_CFG F.PLN_CFG_ROLE = 2 ∧
      F.PLN_EVENT_KIND.get (t.rd (R.PLN_EVENT (s.fld R.PLN_EVENT_HEAD F.PLN_EVENT_HEAD_COUNT % 256))) = 6 ∧
      t.out = { s.out with msix := s.out.msix ++ [7] }) ∧
  (∀ (kind : BitVec 2) (fromEpoch : BitVec 32) (s : State), s.regsWf = true → s.acting = false ∨ s.pln.flip.isSome = true ∨ s.hasLocked = false ∨
      (s.workers.filter fun n => s.workerState n == 1) = [] ∨ kind = 0 ∨ kind = 3 → Answers (exec (.planeFlip kind fromEpoch) s) fun t =>
    t.flag R.PLN_FLIP F.PLN_FLIP_GO = s.pln.flip.isSome ∧ t.pln = s.pln ∧ t.out = s.out ∧
    s.RegsBut t [R.PLN_FLIP, R.PLN_FLIP_STATUS] ∧ t.fld R.PLN_FLIP_STATUS F.PLN_FLIP_STATUS_STATE = s.fld R.PLN_FLIP_STATUS F.PLN_FLIP_STATUS_STATE ∧
    t.fld R.PLN_FLIP_STATUS F.PLN_FLIP_STATUS_REASON = (if s.acting = false then s.fld R.PLN_FLIP_STATUS F.PLN_FLIP_STATUS_REASON
      else if s.pln.flip.isSome = true then 0x18 else if s.hasLocked = false then 0x1A else 0x10)) ∧
  (∀ (kind : BitVec 2) (fromEpoch : BitVec 32) (n : Nat) (s : State), s.regsWf = true → s.acting = true → s.pln.flip = none → s.hasLocked = true →
    (s.workers.filter fun n => s.workerState n == 1) = [n] → kind = 1 → s.epoch = fromEpoch.toNat → s.eflipRules true = 0 → s.pln.prepared = none →
    Answers (exec (.planeFlip kind fromEpoch) s) fun t =>
      t.pln.flip = some { kind := 1, id := s.pln.flipId + 1, fromEpoch := fromEpoch, startedAt := s.mono, participants := [n, 1023],
                          ready := [(1023, instantNs s (s.rd R.SPL_CYCLE_START), s.cycleNs)] } ∧
      t.pln.prepared = some (1, s.pln.flipId + 1, false) ∧ t.flag R.PLN_STATUS F.PLN_STATUS_PREPARED = true ∧
      t.flag R.PLN_FLIP F.PLN_FLIP_GO = true ∧ t.fld R.PLN_FLIP_STATUS F.PLN_FLIP_STATUS_STATE = 1 ∧
      t.fld R.PLN_FLIP_STATUS F.PLN_FLIP_STATUS_FLIP_ID = (s.pln.flipId + 1).toNat ∧ t.out.mgmt.length = s.out.mgmt.length + 2 ∧
      s.RegsBut t [R.PLN_FLIP, R.PLN_FLIP_STATUS, R.PLN_STATUS]) ∧
  (∀ (s : State), s.pln.flip = none → exec .prepareResend s = .next s ∧ exec .prepareDeadline s = .next s ∧
    exec .commitResend s = .next s ∧ exec .flipDoneDeadline s = .next s) ∧
  (∀ (f : ManagerFlip) (s : State), s.pln.flip = some f → f.committing = true ∨ s.planeAlive = false → exec .prepareResend s = .next s) ∧
  (∀ (f : ManagerFlip) (n : Nat) (s : State), s.pln.flip = some f → f.committing = false → s.planeAlive = true → f.participants = [n, 1023] →
    n < 1023 → (f.ready.any fun x => x.1 == n) = false → let b := s.prepareBody f
    exec .prepareResend s = .next ((s.plnSend 0 (s.workerId n) 3 b).plnSend 1 (s.workerId n) 3 b)) ∧
  (∀ (f : ManagerFlip) (s : State), s.pln.flip = some f → f.committing = true ∨ s.mono < f.startedAt + 100000000 →
    exec .prepareDeadline s = .next s) ∧
  (∀ (f : ManagerFlip) (n : Nat) (s : State), s.regsWf = true → s.pln.flip = some f → f.committing = false → f.startedAt + 100000000 ≤ s.mono →
    f.participants = [n, 1023] → n < 1023 → (f.ready.any fun x => x.1 == n) = false → Answers (exec .prepareDeadline s) fun t =>
      t.pln.flip = none ∧ t.fld R.PLN_FLIP_STATUS F.PLN_FLIP_STATUS_STATE = 4 ∧ t.fld R.PLN_FLIP_STATUS F.PLN_FLIP_STATUS_WORKER = n ∧
      t.fld R.PLN_FLIP_STATUS F.PLN_FLIP_STATUS_REASON = 0 ∧ t.flag R.PLN_FLIP F.PLN_FLIP_GO = false ∧ t.planeHolds = false ∧
      t.out.mgmt.length = s.out.mgmt.length + 2 ∧ t.out.msix = s.out.msix ++ [7] ∧
      F.PLN_EVENT_KIND.get (t.rd (R.PLN_EVENT (s.fld R.PLN_EVENT_HEAD F.PLN_EVENT_HEAD_COUNT % 256))) = 9) ∧
  (∀ (f : ManagerFlip) (s : State), s.pln.flip = some f → f.committing = false ∨ f.instant ≤ s.now ∨ s.planeAlive = false →
    exec .commitResend s = .next s) ∧
  (∀ (f : ManagerFlip) (n : Nat) (s : State), s.pln.flip = some f → f.committing = true → s.now < f.instant → s.planeAlive = true →
    f.participants = [n, 1023] → n < 1023 → f.done.contains n = false →
    let b := beBytes 2 f.id.toNat ++ beBytes 2 0 ++ beBytes 8 (instantWord f.instant).toNat
    exec .commitResend s = .next ((s.plnSend 0 (s.workerId n) 5 b).plnSend 1 (s.workerId n) 5 b)) ∧
  (∀ (f : ManagerFlip) (s : State), s.pln.flip = some f → f.committing = false ∨ s.now < f.instant + 100000000 →
    exec .flipDoneDeadline s = .next s) ∧
  (∀ (f : ManagerFlip) (s : State), s.regsWf = true → s.pln.flip = some f → f.committing = true → f.instant + 100000000 ≤ s.now →
    Answers (exec .flipDoneDeadline s) fun t =>
      let st := if f.bad.isSome = true ∨ (f.participants.all fun n => f.done.contains n) = false then 5 else 3
      t.pln.flip = none ∧ t.fld R.PLN_FLIP_STATUS F.PLN_FLIP_STATUS_STATE = st ∧ t.flag R.PLN_FLIP F.PLN_FLIP_GO = false ∧
      (∀ n r, f.bad = some (n, r) → t.fld R.PLN_FLIP_STATUS F.PLN_FLIP_STATUS_WORKER = n % 1024 ∧
        t.fld R.PLN_FLIP_STATUS F.PLN_FLIP_STATUS_REASON = r % 256) ∧
      F.PLN_EVENT_KIND.get (t.rd (R.PLN_EVENT (s.fld R.PLN_EVENT_HEAD F.PLN_EVENT_HEAD_COUNT % 256))) = st + 5 ∧
      t = { s with regs := t.regs, pln := { s.pln with flip := none }, out := { s.out with msix := s.out.msix ++ [7] }, cnt := t.cnt }) ∧
  (∀ (load : BitVec 8) (s : State), s.regsWf = true → Answers (exec (.loadWindow load) s) fun t =>
      let level := s.fld R.PLN_WH_LOAD F.PLN_WH_LOAD_LEVEL
      let n := min load.toNat 100
      t.fld R.PLN_WH_LOAD F.PLN_WH_LOAD_LOAD = n ∧
      t.fld R.PLN_WH_LOAD F.PLN_WH_LOAD_LEVEL = (if 90 ≤ n ∧ level < 3 then level + 1
        else if n < 70 ∧ 9 ≤ s.pln.coolWindows then level - 1 else level) ∧
      t.pln.coolWindows = (if n < 70 ∧ s.pln.coolWindows < 9 then s.pln.coolWindows + 1 else 0) ∧
      t.pln = { s.pln with coolWindows := t.pln.coolWindows } ∧
      (t.fld R.PLN_WH_LOAD F.PLN_WH_LOAD_LEVEL = level → s.RegsBut t [R.PLN_WH_LOAD] ∧ t.out = s.out) ∧
      (t.fld R.PLN_WH_LOAD F.PLN_WH_LOAD_LEVEL ≠ level → t.out = { s.out with msix := s.out.msix ++ [7] } ∧
        t.rd (R.PLN_EVENT (s.fld R.PLN_EVENT_HEAD F.PLN_EVENT_HEAD_COUNT % 256)) = F.PLN_EVENT_KIND.put 0x11 |||
          F.PLN_EVENT_WORKER.put 0x3FF ||| F.PLN_EVENT_PORT.put (t.fld R.PLN_WH_LOAD F.PLN_WH_LOAD_LEVEL)))

/-- A fence request at a module that is no acting manager is answered NOT_MANAGER; an undefined KIND or an unknown target with
RANGE (the model's, log entry 53). A manual request, an UNFENCE, and an automated one within the budget are issued: a new
FENCE_ID, one message on each port to every destination, a FENCE counted in the window. An automated one beyond the budget takes
the lowest free ticket, or is refused TABLE_FULL. A confirmed ticket is issued and counted, a cancelled one is freed. FENCE,
UNFENCE and CIRCUIT messages without an answer are sent again. -/
def Obligations.Fences : Prop :=
  (∀ (req target : Word) (s : State), s.regsWf = true → s.acting = false → Answers (exec (.fenceRequest req target) s) fun t =>
      t.fld R.PLN_FENCE_RESP F.PLN_FENCE_RESP_RESULT = 3 ∧ t.fld R.PLN_FENCE_RESP F.PLN_FENCE_RESP_TAG = F.PLN_FENCE_REQ_TAG.get req ∧
      t.flag R.PLN_FENCE_REQ F.PLN_FENCE_REQ_GO = false ∧ s.RegsBut t [R.PLN_FENCE_REQ, R.PLN_FENCE_TARGET, R.PLN_FENCE_RESP] ∧
      t = { s with regs := t.regs }) ∧
  (∀ (req target : Word) (s : State), s.regsWf = true → s.acting = true → F.PLN_FENCE_REQ_KIND.get req = 0 ∨
      (F.PLN_FENCE_REQ_KIND.get req ≠ 2 ∧ s.workerOf target = none) → Answers (exec (.fenceRequest req target) s) fun t =>
      t.fld R.PLN_FENCE_RESP F.PLN_FENCE_RESP_RESULT = 2 ∧ t.fld R.PLN_FENCE_RESP F.PLN_FENCE_RESP_REASON = 0x10 ∧
      t.flag R.PLN_FENCE_REQ F.PLN_FENCE_REQ_GO = false ∧ s.RegsBut t [R.PLN_FENCE_REQ, R.PLN_FENCE_TARGET, R.PLN_FENCE_RESP] ∧
      t = { s with regs := t.regs }) ∧
  (∀ (req target : Word) (n : Nat) (unfence : Bool) (s : State), s.regsWf = true → s.acting = true → F.PLN_FENCE_REQ_KIND.get req = 1 ∨
      F.PLN_FENCE_REQ_KIND.get req = 3 → s.workerOf target = some n → unfence = decide (F.PLN_FENCE_REQ_UNFENCE.get req = 1) →
    unfence = true ∨ F.PLN_FENCE_REQ_AUTOMATED.get req = 0 ∨ s.inWindow.length < s.cfld R.PLN_BUDGET F.PLN_BUDGET_COUNT →
    Answers (exec (.fenceRequest req target) s) fun t =>
      t.fld R.PLN_FENCE_RESP F.PLN_FENCE_RESP_RESULT = 0 ∧ t.fld R.PLN_FENCE_RESP F.PLN_FENCE_RESP_TAG = F.PLN_FENCE_REQ_TAG.get req ∧
      t.pln.fenceId = s.pln.fenceId + 1 ∧
      t.pln.fences = s.pln.fences ++ [⟨s.pln.fenceId + 1, n, unfence, beBytes 2 (s.pln.fenceId + 1).toNat ++
        beBytes 1 (F.PLN_FENCE_REQ_KIND.get req) ++ beBytes 1 0 ++ beBytes 2 (F.PLN_FENCE_REQ_PORT.get req) ++ beBytes 2 0 ++ beBytes 8 target.toNat⟩] ∧
      t.pln.fenceTimes = (if unfence = true then s.inWindow else s.inWindow ++ [s.nowSec]) ∧ t.out.mgmt.length = s.out.mgmt.length + 2 ∧
      t.out = { s.out with mgmt := t.out.mgmt } ∧ s.RegsBut t [R.PLN_FENCE_REQ, R.PLN_FENCE_TARGET, R.PLN_FENCE_RESP]) ∧
  (∀ (req target : Word) (s : State), s.regsWf = true → s.acting = true → F.PLN_FENCE_REQ_KIND.get req = 2 →
    F.PLN_FENCE_REQ_AUTOMATED.get req = 0 → F.PLN_FENCE_REQ_UNFENCE.get req = 0 → Answers (exec (.fenceRequest req target) s) fun t =>
      t.fld R.PLN_FENCE_RESP F.PLN_FENCE_RESP_RESULT = 0 ∧
      (t.pln.fences.drop s.pln.fences.length).map PendingFence.dest = s.workers.filter (fun n => s.workerState n == 1) ∧
      t.pln.fenceTimes = s.inWindow ++ [s.nowSec]) ∧
  (∀ (req target : Word) (k n : Nat) (s : State), s.regsWf = true → s.acting = true → F.PLN_FENCE_REQ_KIND.get req = 1 → s.workerOf target = some k →
    F.PLN_FENCE_REQ_UNFENCE.get req = 0 → F.PLN_FENCE_REQ_AUTOMATED.get req = 1 → s.cfld R.PLN_BUDGET F.PLN_BUDGET_COUNT ≤ s.inWindow.length →
    (List.range 64).find? (fun n => !s.flag (R.PLN_HELD n) F.PLN_HELD_VALID) = some n → Answers (exec (.fenceRequest req target) s) fun t =>
      t.fld R.PLN_FENCE_RESP F.PLN_FENCE_RESP_RESULT = 1 ∧ t.fld R.PLN_FENCE_RESP F.PLN_FENCE_RESP_TICKET = n ∧
      t.flag (R.PLN_HELD n) F.PLN_HELD_VALID = true ∧ t.rd (R.PLN_HELD_ID n) = target ∧ t.fld (R.PLN_HELD n) F.PLN_HELD_KIND = 1 ∧
      t.fld (R.PLN_HELD n) F.PLN_HELD_TAG = F.PLN_FENCE_REQ_TAG.get req ∧ t.pln = s.pln ∧ t.out = { s.out with msix := s.out.msix ++ [7] } ∧
      F.PLN_EVENT_KIND.get (t.rd (R.PLN_EVENT (s.fld R.PLN_EVENT_HEAD F.PLN_EVENT_HEAD_COUNT % 256))) = 0xD) ∧
  (∀ (req target : Word) (k : Nat) (s : State), s.regsWf = true → s.acting = true → F.PLN_FENCE_REQ_KIND.get req = 1 → s.workerOf target = some k →
    F.PLN_FENCE_REQ_UNFENCE.get req = 0 → F.PLN_FENCE_REQ_AUTOMATED.get req = 1 → s.cfld R.PLN_BUDGET F.PLN_BUDGET_COUNT ≤ s.inWindow.length →
    (List.range 64).find? (fun n => !s.flag (R.PLN_HELD n) F.PLN_HELD_VALID) = none → Answers (exec (.fenceRequest req target) s) fun t =>
      t.fld R.PLN_FENCE_RESP F.PLN_FENCE_RESP_RESULT = 2 ∧ t.fld R.PLN_FENCE_RESP F.PLN_FENCE_RESP_REASON = 0x13 ∧ t.pln = s.pln ∧ t.out = s.out) ∧
  (∀ (cancel : Bool) (ticket : BitVec 6) (s : State), s.regsWf = true → s.acting = false ∨ s.flag (R.PLN_HELD ticket.toNat) F.PLN_HELD_VALID = false →
    Answers (exec (.fenceConfirm cancel ticket) s) fun t => t.flag R.PLN_FENCE_CONFIRM F.PLN_FENCE_CONFIRM_GO = false ∧
      s.RegsBut t [R.PLN_FENCE_CONFIRM] ∧ t = { s with regs := t.regs }) ∧
  (∀ (ticket : BitVec 6) (s : State), s.regsWf = true → s.acting = true → s.flag (R.PLN_HELD ticket.toNat) F.PLN_HELD_VALID = true →
    Answers (exec (.fenceConfirm true ticket) s) fun t => t.flag (R.PLN_HELD ticket.toNat) F.PLN_HELD_VALID = false ∧
      s.RegsBut t [R.PLN_FENCE_CONFIRM, R.PLN_HELD ticket.toNat, R.PLN_HELD_ID ticket.toNat] ∧ t = { s with regs := t.regs }) ∧
  (∀ (ticket : BitVec 6) (n : Nat) (s : State), s.regsWf = true → s.acting = true → s.flag (R.PLN_HELD ticket.toNat) F.PLN_HELD_VALID = true →
    s.fld (R.PLN_HELD ticket.toNat) F.PLN_HELD_KIND = 1 → s.workerOf (s.rd (R.PLN_HELD_ID ticket.toNat)) = some n →
    Answers (exec (.fenceConfirm false ticket) s) fun t => t.flag (R.PLN_HELD ticket.toNat) F.PLN_HELD_VALID = false ∧
      t.pln.fenceId = s.pln.fenceId + 1 ∧ (t.pln.fences.drop s.pln.fences.length).map PendingFence.dest = [n] ∧
      t.pln.fenceTimes = s.inWindow ++ [s.nowSec] ∧ t.out.mgmt.length = s.out.mgmt.length + 2 ∧
      s.RegsBut t [R.PLN_FENCE_CONFIRM, R.PLN_HELD ticket.toNat, R.PLN_HELD_ID ticket.toNat]) ∧
  (∀ (handed : List CircuitMsg) (s : State), s.planeAlive = false ∨ s.acting = false → exec (.fenceResend handed) s = .next s) ∧
  (∀ (handed : List CircuitMsg) (s : State), s.planeAlive = true → s.acting = true → Answers (exec (.fenceResend handed) s) fun t =>
      t.pln.circuits = s.pln.circuits ++ handed.map (fun x => (x.worker.val, circuitBody x)) ∧
      t.out.mgmt.length = s.out.mgmt.length + 2 * (s.pln.fences.length + t.pln.circuits.length) ∧
      t = { s with pln := { s.pln with circuits := t.pln.circuits, sequence := t.pln.sequence }, out := { s.out with mgmt := t.out.mgmt }, free := t.free }) ∧
  (∀ (x : PendingFence) (s : State), s.planeAlive = true → s.acting = true → s.pln.fences = [x] → s.pln.circuits = [] →
    let k : Nat := if x.unfence = true then 0xB else 0xA
    exec (.fenceResend []) s = .next ((s.plnSend 0 (s.idOf x.dest) k x.body).plnSend 1 (s.idOf x.dest) k x.body))

/-- A commit request starts a commit, or one more after the commit under way. A commit that succeeds appends the buffered
entries at JOURNAL_HEAD, counts SEQUENCE up and writes the older STATE copy, which becomes the current one; one that fails
changes no copy and no journal and raises vector 8. A periodic commit computes the health score first (its receive and FEC terms
are free values while a port is UP: the model's, log entry 10), or holds it at shed level 2; the score exceeds no sub-score by
more than 200. Each second with power counts the life clock and the energised time of the active bays. Each whole hour writes
HEALTH_HOUR. -/
def Obligations.LedgerCommitsAndLife : Prop :=
  (∀ (s : State), s.regsWf = true → s.ldg.busy = true → Answers (exec .ledgerCommitRequest s) fun t =>
      t.flag R.LDG_CTRL F.LDG_CTRL_COMMIT = true ∧ s.RegsBut t [R.LDG_CTRL] ∧ t = { s with regs := t.regs, ldg := { s.ldg with again := true } }) ∧
  (∀ (s : State), s.regsWf = true → s.ldg.busy = false → Answers (exec .ledgerCommitRequest s) fun t =>
      t.flag R.LDG_CTRL F.LDG_CTRL_COMMIT = true ∧ t.flag R.LDG_STATUS F.LDG_STATUS_BUSY = true ∧
      s.RegsBut t [R.LDG_CTRL, R.LDG_STATUS] ∧ t = { s with regs := t.regs, ldg := { s.ldg with busy := true } }) ∧
  (∀ (s : State), s.cfg.wellheadDown = true → exec .ledgerPeriodicCommit s = .next s) ∧
  (∀ (s : State), s.regsWf = true → s.cfg.wellheadDown = false → 2 ≤ s.fld R.PLN_WH_LOAD F.PLN_WH_LOAD_LEVEL → s.ldg.busy = false →
    Answers (exec .ledgerPeriodicCommit s) fun t => t.flag R.LDG_HEALTH_B F.LDG_HEALTH_B_HELD = true ∧ t.rd R.LDG_HEALTH = s.rd R.LDG_HEALTH ∧
      t.flag R.LDG_STATUS F.LDG_STATUS_BUSY = true ∧ s.RegsBut t [R.LDG_HEALTH_B, R.LDG_STATUS] ∧
      t = { s with regs := t.regs, ldg := { s.ldg with busy := true } }) ∧
  (∀ (s : State), s.regsWf = true → swf (fun _ => 0) s.ldg.live = true → s.cfg.wellheadDown = false →
    s.fld R.PLN_WH_LOAD F.PLN_WH_LOAD_LEVEL < 2 → s.ldg.busy = false → Answers (exec .ledgerPeriodicCommit s) fun t =>
      let h (f : Fld) : Nat := t.fld R.LDG_HEALTH f
      let v := h F.LDG_HEALTH_SCORE
      v ≤ 1000 ∧ h F.LDG_HEALTH_S_MEM = s.sMem ∧ h F.LDG_HEALTH_S_CAD = s.sCad ∧ h F.LDG_HEALTH_S_THM = s.sThm ∧
      t.fld R.LDG_HEALTH_B F.LDG_HEALTH_B_S_WEAR = s.sWear ∧ h F.LDG_HEALTH_S_OPT ≤ s.sLas ∧
      (s.anyPortUp = false → h F.LDG_HEALTH_S_OPT = s.sLas ∧ h F.LDG_HEALTH_S_FEC = 1000) ∧
      v ≤ h F.LDG_HEALTH_S_OPT + 200 ∧ v ≤ h F.LDG_HEALTH_S_FEC + 200 ∧ v ≤ s.sCad + 200 ∧ v ≤ s.sMem + 200 ∧ v ≤ s.sThm + 200 ∧
      v ≤ s.sWear + 200 ∧ t.ldg? 64 2 = v ∧ t.fld R.LDG_HEALTH_B F.LDG_HEALTH_B_SECONDS = s.nowSec % 2 ^ F.LDG_HEALTH_B_SECONDS.w ∧
      t.flag R.LDG_HEALTH_B F.LDG_HEALTH_B_HELD = false ∧ t.flag R.LDG_STATUS F.LDG_STATUS_BUSY = true ∧
      t.out = { s.out with msix := s.out.msix ++ [8] } ∧ s.RegsBut t [R.LDG_HEALTH, R.LDG_HEALTH_B, R.LDG_STATUS]) ∧
  (∀ (ok : Bool) (s : State), s.ldg.busy = false → exec (.ledgerCommitDone ok) s = .next s) ∧
  (∀ (s : State), s.regsWf = true → s.ldg.busy = true → Answers (exec (.ledgerCommitDone false) s) fun t =>
      t.ldg = { s.ldg with busy := s.ldg.again, again := false, fromPfail := t.ldg.fromPfail } ∧
      (s.ldg.again = false → t.ldg.fromPfail = false ∧ t.flag R.LDG_CTRL F.LDG_CTRL_COMMIT = false) ∧
      t.flag R.LDG_STATUS F.LDG_STATUS_BUSY = s.ldg.again ∧ s.RegsBut t [R.LDG_CTRL, R.LDG_STATUS] ∧
      t = { s with regs := t.regs, ldg := t.ldg, out := { s.out with msix := s.out.msix ++ [8] }, cnt := t.cnt }) ∧
  (∀ (s : State), s.regsWf = true → s.ldg.busy = true → swf (fun _ => 0) s.ldg.live = true → s.flag R.MEM_CTRL F.MEM_CTRL_AREAS_ENABLE = false →
    s.ldg? 48 8 + s.ldg.buffer.length < 2 ^ 64 → s.ldg? 48 8 + s.ldg.buffer.length ≤ s.ldg? 56 8 + 2064384 →
    Answers (exec (.ledgerCommitDone true) s) fun t =>
      t.ldg.buffer = [] ∧ t.ldg? 8 8 = (s.ldg? 8 8 + 1) % 2 ^ 64 ∧ t.ldg? 48 8 = s.ldg? 48 8 + s.ldg.buffer.length ∧
      t.ldg? 68 4 = s.ldg? 68 4 ∧ t.ldg? 8192 4 = (crc32c (sbytes t.ldg.live 0 8192)) % 2 ^ 32 ∧
      (if s.fld R.LDG_STATUS F.LDG_STATUS_COPY = 1 then t.fld R.LDG_STATUS F.LDG_STATUS_COPY = 2 ∧ t.ldg.copyB = t.ldg.live ∧ t.ldg.copyA = s.ldg.copyA
        else t.fld R.LDG_STATUS F.LDG_STATUS_COPY = 1 ∧ t.ldg.copyA = t.ldg.live ∧ t.ldg.copyB = s.ldg.copyB) ∧
      t.flag R.LDG_STATUS F.LDG_STATUS_BUSY = s.ldg.again ∧ t.ldg.busy = s.ldg.again ∧ t.ldg.again = false ∧
      (s.ldg.again = false → t.flag R.LDG_CTRL F.LDG_CTRL_COMMIT = false) ∧ s.RegsBut t [R.LDG_CTRL, R.LDG_STATUS] ∧
      t = { s with regs := t.regs, ldg := t.ldg }) ∧
  (∀ (x : Nat) (s : State), x ≠ 0 → swf (fun _ => 0) s.ldg.journal = true → s.regsWf = true → s.ldg.busy = true → swf (fun _ => 0) s.ldg.live = true →
    s.flag R.MEM_CTRL F.MEM_CTRL_AREAS_ENABLE = false → s.ldg.buffer = [x] → Answers (exec (.ledgerCommitDone true) s) fun t =>
      sget 0 t.ldg.journal (s.ldg? 48 8 % 2064384) = x ∧ (∀ k, k ≠ s.ldg? 48 8 % 2064384 → sget 0 t.ldg.journal k = sget 0 s.ldg.journal k) ∧
      t.ldg? 68 4 = (if s.ldg? 56 8 + 2064384 ≤ s.ldg? 48 8 then (s.ldg? 68 4 + 1) % 2 ^ 32 else s.ldg? 68 4)) ∧
  (∀ (s : State), s.board.pwrGood = false → exec .lifeSecond s = .next s) ∧
  (∀ (s : State), s.board.pwrGood = true → swf (fun _ => 0) s.ldg.live = true → Answers (exec .lifeSecond s) fun t =>
      t.lifeS = (s.lifeS + 1) % 2 ^ 64 ∧
      (∀ n, n < 50 → t.ldg? (ldgBay n) 8 = (if s.bayPowered n = true ∧ s.bayState n ≤ 1 then (s.ldg? (ldgBay n) 8 + 1) % 2 ^ 64 else s.ldg? (ldgBay n) 8)) ∧
      (∀ e, e < 32 → t.ldg? (ldgEngine e) 8 = (if s.fld (R.OPT_STATUS e) F.OPT_STATUS_STATE = 2 then (s.ldg? (ldgEngine e) 8 + 1) % 2 ^ 64
        else s.ldg? (ldgEngine e) 8)) ∧
      t.ldg.samples = 0 ∧ t.ldg.corrSecond = 0 ∧ t.ldg.corrSeconds = (s.ldg.corrSecond :: s.ldg.corrSeconds).take 3600 ∧
      t.ldg.copyA = s.ldg.copyA ∧ t.ldg.copyB = s.ldg.copyB ∧ t.ldg.journal = s.ldg.journal ∧ t.ldg.buffer = s.ldg.buffer ∧
      t = { s with ldg := t.ldg }) ∧
  (∀ (s : State), s.lifeS % 3600 ≠ 0 → exec .lifeHour s = .next s) ∧
  (∀ (s : State), s.lifeS % 3600 = 0 → s.ldg.buffer.length < 2048 → s.ldg.laserHour = [] → s.ldg.memHour = [] →
    Answers (exec .lifeHour s) fun t => ∃ x, t.ldg = { s.ldg with buffer := s.ldg.buffer ++ [x] } ∧ x % 256 = 4 ∧ x / 2 ^ 32 % 2 ^ 64 = s.lifeS ∧
      x / 2 ^ 128 % 2 ^ 10 = s.fld R.LDG_HEALTH F.LDG_HEALTH_SCORE ∧ t = { s with ldg := t.ldg }) ∧
  (∀ (u n : Nat) (s : State), u < 16 → n ≠ 0 → s.lifeS % 3600 = 0 → s.ldg.buffer.length < 2047 → s.ldg.laserHour = [] → s.ldg.memHour = [(u, n)] →
    Answers (exec .lifeHour s) fun t => t.ldg.memHour = [] ∧ t.ldg.buffer.length = s.ldg.buffer.length + 2 ∧
      t.ldg.buffer.getLast?.map (fun x => (x % 256, x / 256 % 256, x / 2 ^ 128 % 2 ^ 32)) = some (5, u, n % 2 ^ 32))

/-- The reader's visit adds an accumulator to its 48-bit counter and clears it; a pass of 2^48 - 1 sets WRAP. A snapshot now
freezes every counter at once, or is refused as busy; an instant or a period outside its bounds is refused; stop ends a series.
A freeze waits for its instant; one of a series that falls while a snapshot gathers is skipped and counted. Publishing switches
the snapshot, counts SEQ, and raises vector 8 where it was asked to notify. CNT_CLEAR clears the sticky bits of a block or of
all, and no value. A copy writes pages of one published snapshot to host or device memory and raises vector 8. -/
def Obligations.CountersAndSnapshots : Prop :=
  (∀ (block : BitVec 8) (index : Nat) (s : State), (ctrBlocks.any fun b => b.id == block.toNat && decide (index < b.counters)) = false →
    exec (.counterReaderVisit block index) s = .next s) ∧
  (∀ (block : BitVec 8) (index : Nat) (c : Counter) (s : State), (ctrBlocks.any fun b => b.id == block.toNat && decide (index < b.counters)) = true →
    swf (fun _ => {}) s.cnt.counters = true → sget {} s.cnt.counters (ctrKey block.toNat index) = c →
    Answers (exec (.counterReaderVisit block index) s) fun t =>
      sget {} t.cnt.counters (ctrKey block.toNat index) = 
        ⟨(c.value + c.acc) % 2 ^ 48, 0, c.wrap || decide (2 ^ 48 ≤ c.value + c.acc), c.lower⟩ ∧
      (∀ k, k ≠ ctrKey block.toNat index → sget {} t.cnt.counters k = sget {} s.cnt.counters k) ∧
      t = { s with cnt := { s.cnt with counters := t.cnt.counters } }) ∧
  (∀ (notify : Bool) (s : State), s.regsWf = true → s.snapState = 1 ∨ s.cnt.building.isSome = true → Answers (exec (.snapNow notify) s) fun t =>
      t.fld R.CNT_SNAP_STATUS F.CNT_SNAP_STATUS_RESULT = 1 ∧ t.flag R.CNT_SNAP F.CNT_SNAP_GO = false ∧
      s.RegsBut t [R.CNT_SNAP, R.CNT_SNAP_STATUS] ∧ t = { s with regs := t.regs }) ∧
  (∀ (notify : Bool) (s : State), s.regsWf = true → s.snapState ≠ 1 → s.cnt.building = none → swf (fun _ => {}) s.cnt.counters = true →
    Answers (exec (.snapNow notify) s) fun t =>
      t.fld R.CNT_SNAP_STATUS F.CNT_SNAP_STATUS_RESULT = 0 ∧ t.flag R.CNT_SNAP_STATUS F.CNT_SNAP_STATUS_GATHERING = true ∧
      t.flag R.CNT_SNAP F.CNT_SNAP_GO = false ∧ t.cnt.building.map (fun n => (n.frozenAt, n.notify, n.periodic)) = some (s.stamp, notify, false) ∧
      (∀ k, sget {} t.cnt.counters k = (sget {} s.cnt.counters k).visit) ∧
      (∀ n, t.cnt.building = some n → ∀ k, sget 0 n.words k = (sget {} s.cnt.counters k).visit.word) ∧ t.cnt.published = s.cnt.published ∧
      s.RegsBut t [R.CNT_SNAP, R.CNT_SNAP_STATUS] ∧ t = { s with regs := t.regs, cnt := { s.cnt with counters := t.cnt.counters, building := t.cnt.building } }) ∧
  (∀ (notify : Bool) (instant : Word) (s : State), s.regsWf = true → s.snapState ≠ 0 ∨ s.cnt.building.isSome = true ∨ s.snapInstantOk instant = false →
    Answers (exec (.snapAtInstant notify instant) s) fun t =>
      t.fld R.CNT_SNAP_STATUS F.CNT_SNAP_STATUS_RESULT = (if s.snapState ≠ 0 ∨ s.cnt.building.isSome = true then 1 else 2) ∧
      t.snapState = s.snapState ∧ t.rd R.CNT_SNAP_TIME = instant ∧ s.RegsBut t [R.CNT_SNAP, R.CNT_SNAP_STATUS, R.CNT_SNAP_TIME] ∧
      t = { s with regs := t.regs }) ∧
  (∀ (notify : Bool) (instant : Word) (s : State), s.regsWf = true → s.snapState = 0 → s.cnt.building = none → s.snapInstantOk instant = true →
    Answers (exec (.snapAtInstant notify instant) s) fun t =>
      t.fld R.CNT_SNAP_STATUS F.CNT_SNAP_STATUS_RESULT = 0 ∧ t.snapState = 1 ∧ t.cnt = { s.cnt with nextAt := instantNs s instant, notify := notify } ∧
      s.RegsBut t [R.CNT_SNAP, R.CNT_SNAP_STATUS, R.CNT_SNAP_TIME] ∧ t = { s with regs := t.regs, cnt := t.cnt }) ∧
  (∀ (notify : Bool) (instant : Word) (periodMs : BitVec 32) (s : State), s.regsWf = true →
    s.snapState ≠ 0 ∨ s.cnt.building.isSome = true ∨ s.snapInstantOk instant = false ∨ periodMs.toNat < 10 ∨ 3600000 < periodMs.toNat →
    Answers (exec (.snapPeriodic notify instant periodMs) s) fun t =>
      t.fld R.CNT_SNAP_STATUS F.CNT_SNAP_STATUS_RESULT = (if s.snapState ≠ 0 ∨ s.cnt.building.isSome = true then 1
        else if s.snapInstantOk instant = false then 2 else 3) ∧
      t.snapState = s.snapState ∧ s.RegsBut t [R.CNT_SNAP, R.CNT_SNAP_STATUS, R.CNT_SNAP_TIME] ∧ t = { s with regs := t.regs }) ∧
  (∀ (notify : Bool) (instant : Word) (periodMs : BitVec 32) (s : State), s.regsWf = true → s.snapState = 0 → s.cnt.building = none →
    s.snapInstantOk instant = true → 10 ≤ periodMs.toNat → periodMs.toNat ≤ 3600000 →
    Answers (exec (.snapPeriodic notify instant periodMs) s) fun t =>
      t.fld R.CNT_SNAP_STATUS F.CNT_SNAP_STATUS_RESULT = 0 ∧ t.snapState = 2 ∧
      t.cnt = { s.cnt with nextAt := instantNs s instant, periodMs := periodMs.toNat, notify := notify, series := 0 } ∧
      s.RegsBut t [R.CNT_SNAP, R.CNT_SNAP_STATUS, R.CNT_SNAP_TIME] ∧ t = { s with regs := t.regs, cnt := t.cnt }) ∧
  (∀ (s : State), s.regsWf = true → s.snapState ≠ 1 → s.cnt.building = none → Answers (exec .snapStop s) fun t =>
      t.snapState = 0 ∧ t.fld R.CNT_SNAP_STATUS F.CNT_SNAP_STATUS_RESULT = 0 ∧ s.RegsBut t [R.CNT_SNAP, R.CNT_SNAP_STATUS] ∧ t = { s with regs := t.regs }) ∧
  (∀ (s : State), s.regsWf = true → s.snapState = 1 ∨ s.cnt.building.isSome = true → Answers (exec .snapStop s) fun t =>
      t.snapState = s.snapState ∧ t.fld R.CNT_SNAP_STATUS F.CNT_SNAP_STATUS_RESULT = 1 ∧ s.RegsBut t [R.CNT_SNAP, R.CNT_SNAP_STATUS] ∧
      t = { s with regs := t.regs }) ∧
  (∀ (s : State), s.snapState = 0 ∨ s.now < s.cnt.nextAt → exec .snapshotFreeze s = .next s) ∧
  (∀ (s : State), s.regsWf = true → s.snapState = 1 ∨ (s.snapState = 2 ∧ s.cnt.building = none) → s.cnt.nextAt ≤ s.now →
    swf (fun _ => {}) s.cnt.counters = true → Answers (exec .snapshotFreeze s) fun t =>
      t.snapState = (if s.snapState = 1 then 0 else 2) ∧
      t.cnt.nextAt = (if s.snapState = 1 then s.cnt.nextAt else s.cnt.nextAt + s.cnt.periodMs * 1000000) ∧
      t.cnt.building.map (fun n => (n.frozenAt, n.notify, n.periodic)) = some (s.stamp, s.cnt.notify, s.snapState == 2) ∧
      (∀ k, sget {} t.cnt.counters k = (sget {} s.cnt.counters k).visit) ∧
      (∀ n, t.cnt.building = some n → ∀ k, sget 0 n.words k = (sget {} s.cnt.counters k).visit.word) ∧
      t.flag R.CNT_SNAP_STATUS F.CNT_SNAP_STATUS_GATHERING = true ∧ s.RegsBut t [R.CNT_SNAP_STATUS] ∧
      t = { s with regs := t.regs, cnt := { s.cnt with counters := t.cnt.counters, building := t.cnt.building, nextAt := t.cnt.nextAt } }) ∧
  (∀ (s : State), s.regsWf = true → s.snapState = 2 → s.cnt.building.isSome = true → s.cnt.nextAt ≤ s.now → Answers (exec .snapshotFreeze s) fun t =>
      t.fld R.CNT_SNAP_STATUS F.CNT_SNAP_STATUS_SKIPPED =
        min (2 ^ F.CNT_SNAP_STATUS_SKIPPED.w - 1) (s.fld R.CNT_SNAP_STATUS F.CNT_SNAP_STATUS_SKIPPED + 1) ∧
      t.cnt = { s.cnt with nextAt := s.cnt.nextAt + s.cnt.periodMs * 1000000 } ∧ s.RegsBut t [R.CNT_SNAP_STATUS] ∧
      t = { s with regs := t.regs, cnt := t.cnt }) ∧
  (∀ (s : State), s.cnt.building = none → exec .snapshotPublish s = .next s) ∧
  (∀ (n : Snap) (s : State), s.regsWf = true → s.cnt.building = some n → n.periodic = false ∨ s.fld R.CNT_HISTORY F.CNT_HISTORY_EVERY = 0 →
    Answers (exec .snapshotPublish s) fun t =>
      t.cnt.published = { n with seq := s.cnt.published.seq + 1, skipped := s.cnt.histSkipped } ∧ t.cnt.building = none ∧
      t.cnt.series = (if n.periodic = true then s.cnt.series + 1 else s.cnt.series) ∧
      t.flag R.CNT_SNAP_STATUS F.CNT_SNAP_STATUS_GATHERING = false ∧
      t.fld R.CNT_SNAP_STATUS F.CNT_SNAP_STATUS_SEQ = (s.fld R.CNT_SNAP_STATUS F.CNT_SNAP_STATUS_SEQ + 1) % 2 ^ F.CNT_SNAP_STATUS_SEQ.w ∧
      t.out = { s.out with msix := s.out.msix ++ if n.notify = true then [8] else [] } ∧ s.RegsBut t [R.CNT_SNAP_STATUS] ∧
      t = { s with regs := t.regs, cnt := t.cnt, out := t.out }) ∧
  (∀ (n : Snap) (r size : Nat) (s : State), s.regsWf = true → s.cnt.building = some n → n.periodic = true → n.notify = false →
    s.fld R.CNT_HISTORY F.CNT_HISTORY_EVERY = 1 → s.flag R.MEM_CTRL F.MEM_CTRL_AREAS_ENABLE = true → s.cfg.wellheadDown = false →
    s.fld R.PLN_WH_LOAD F.PLN_WH_LOAD_LEVEL < 2 → r = s.fld R.CNT_HISTORY F.CNT_HISTORY_RECORDS →
    size = s.fld R.MEM_HISTORY_SIZE F.MEM_HISTORY_SIZE_VALUE / 1548288 → 0 < size → Answers (exec .snapshotPublish s) fun t =>
      t.fld R.CNT_HISTORY F.CNT_HISTORY_RECORDS = (r + 1) % 2 ^ F.CNT_HISTORY_RECORDS.w ∧ t.cnt.series = s.cnt.series + 1 ∧
      s.BytesBut t (s.fld R.MEM_HISTORY_BASE F.MEM_HISTORY_BASE_VALUE + 1548288 * (r % size)) 1548288) ∧
  (∀ (block : BitVec 8) (s : State), s.regsWf = true → swf (fun _ => {}) s.cnt.counters = true → Answers (exec (.counterClear block) s) fun t =>
      (∀ k, sget {} t.cnt.counters k = if block = 0xFF ∨ k / 2 ^ 17 = block.toNat then
          { (sget {} s.cnt.counters k) with wrap := false, lower := false } else sget {} s.cnt.counters k) ∧
      t.fld R.CNT_CLEAR F.CNT_CLEAR_BLOCK = block.toNat ∧ s.RegsBut t [R.CNT_CLEAR] ∧
      t = { s with regs := t.regs, cnt := { s.cnt with counters := t.cnt.counters } }) ∧
  (∀ (dest : Word) (first count : BitVec 12) (s : State), s.cnt.copying.isSome = true → exec (.counterCopy dest first count) s = .next s) ∧
  (∀ (dest : Word) (first count : BitVec 12) (s : State), s.regsWf = true → s.cnt.copying = none → Answers (exec (.counterCopy dest first count) s) fun t =>
      t.cnt = { s.cnt with copying := some (t.rd R.CNT_COPY, first.toNat, count.toNat) } ∧
      t.fld R.CNT_COPY F.CNT_COPY_HOST = F.CNT_COPY_HOST.get dest ∧ t.fld R.CNT_COPY F.CNT_COPY_ADDR = F.CNT_COPY_ADDR.get dest ∧
      t.flag R.CNT_COPY_CTRL F.CNT_COPY_CTRL_GO = true ∧ s.RegsBut t [R.CNT_COPY, R.CNT_COPY_CTRL] ∧ t = { s with regs := t.regs, cnt := t.cnt }) ∧
  (∀ (s : State), s.cnt.copying = none → exec .counterCopyDone s = .next s) ∧
  (∀ (dest : Word) (first count : Nat) (s : State), s.regsWf = true → s.cnt.copying = some (dest, first, count) →
    F.CNT_COPY_HOST.get dest = 1 → first + count ≤ 4064 → Answers (exec .counterCopyDone s) fun t =>
      t.cnt.copying = none ∧ t.flag R.CNT_COPY_CTRL F.CNT_COPY_CTRL_GO = false ∧ t.out.msix = s.out.msix ++ [8] ∧
      t.out.hostWrites = s.out.hostWrites ++ (List.range count).map (fun i =>
        (BitVec.ofNat 64 (F.CNT_COPY_ADDR.get dest / 64 * 64 + 4096 * i), s.cnt.published.pageBytes (first + i))) ∧
      t.mem = s.mem ∧ s.RegsBut t [R.CNT_COPY_CTRL]) ∧
  (∀ (dest : Word) (first count : Nat) (s : State), s.regsWf = true → s.cnt.copying = some (dest, first, count) →
    F.CNT_COPY_HOST.get dest = 0 → Answers (exec .counterCopyDone s) fun t =>
      t.cnt.copying = none ∧ t.flag R.CNT_COPY_CTRL F.CNT_COPY_CTRL_GO = false ∧ t.out = { s.out with msix := s.out.msix ++ [8] } ∧
      s.BytesBut t (F.CNT_COPY_ADDR.get dest / 64 * 64) (4096 * (min (first + count) 4064 - first)))
end

