-- ==== Sys2Proof/Laws/Sparse.lean ====
section
/-! SUPPORT. What reading, writing and removing do on a sparse store, and that writing keeps its canonical form. -/

namespace Sys2Proof.Machine

theorem sget_nil {α : Type} (d : α) (n : Nat) : sget d [] n = d := rfl

theorem sget_sput_self {α : Type} (d : α) (m : Sparse α) (n : Nat) (x : α) : sget d (sput m n x) n = x := by
  induction m with
  | nil => simp [sput, sget]
  | cons h t ih =>
    obtain ⟨k, v⟩ := h
    simp only [sput]
    split
    · simp [sget]
    · split
      · simp [sget, *]
      · simp [sget, *]

theorem sget_sput_of_ne {α : Type} (d : α) (m : Sparse α) {n k : Nat} (x : α) (h : k ≠ n) :
    sget d (sput m n x) k = sget d m k := by
  induction m with
  | nil => simp [sput, sget, h]
  | cons p t ih =>
    obtain ⟨j, v⟩ := p
    simp only [sput]
    split
    · simp [sget, h]
    · split
      · subst_vars; simp [sget, h]
      · simp [sget, ih]

theorem sget_sdel_of_ne {α : Type} (d : α) (m : Sparse α) {n k : Nat} (h : k ≠ n) :
    sget d (sdel m n) k = sget d m k := by
  induction m with
  | nil => simp [sdel]
  | cons p t ih =>
    obtain ⟨j, v⟩ := p
    simp only [sdel]
    split
    · subst_vars; simp [sget, h]
    · simp [sget, ih]

/-- A write leaves every other key as it reads. -/
theorem sget_sset_of_ne {α : Type} [DecidableEq α] (d e : α) (m : Sparse α) {n k : Nat} (x : α) (h : k ≠ n) :
    sget d (sset e m n x) k = sget d m k := by
  unfold sset
  split
  · exact sget_sdel_of_ne d m h
  · exact sget_sput_of_ne d m x h

theorem swfFrom_weaken {α : Type} [DecidableEq α] {d : Nat → α} {lo : Option Nat} {m : Sparse α}
    (h : swfFrom d lo m = true) : swfFrom d none m = true := by
  cases m with
  | nil => rfl
  | cons p t => obtain ⟨k, v⟩ := p; simp_all [swfFrom]

/-- In canonical form a key at or below the bound is not listed. -/
theorem sget_of_bound {α : Type} [DecidableEq α] {d : Nat → α} (e : α) {lo n : Nat} {m : Sparse α}
    (h : swfFrom d (some lo) m = true) (hn : n ≤ lo) : sget e m n = e := by
  induction m generalizing lo with
  | nil => rfl
  | cons p t ih =>
    obtain ⟨k, v⟩ := p
    simp only [swfFrom, Option.all_some, Bool.and_eq_true, decide_eq_true_eq] at h
    simp only [sget, show n ≠ k by omega, if_false]
    exact ih h.2 (by omega)

theorem sget_sdel_self {α : Type} [DecidableEq α] {d : Nat → α} (e : α) {lo : Option Nat} {m : Sparse α} (n : Nat)
    (h : swfFrom d lo m = true) : sget e (sdel m n) n = e := by
  induction m generalizing lo with
  | nil => rfl
  | cons p t ih =>
    obtain ⟨k, v⟩ := p
    simp only [swfFrom, Bool.and_eq_true] at h
    simp only [sdel]
    split
    · subst_vars; exact sget_of_bound e h.2 le_rfl
    · rename_i hk
      simp only [sget, hk, if_false]
      exact ih h.2

/-- In canonical form a key reads what was written. -/
theorem sget_sset_self {α : Type} [DecidableEq α] {d : Nat → α} {e : α} {m : Sparse α} (n : Nat) (x : α)
    (h : swf d m = true) : sget e (sset e m n x) n = x := by
  unfold sset
  split
  · subst_vars; exact sget_sdel_self _ n h
  · exact sget_sput_self e m n x

theorem swfFrom_sput {α : Type} [DecidableEq α] {d : Nat → α} {lo : Option Nat} {m : Sparse α} {n : Nat} {x : α}
    (h : swfFrom d lo m = true) (hx : x ≠ d n) (hn : ∀ l, lo = some l → l < n) : swfFrom d lo (sput m n x) = true := by
  induction m generalizing lo with
  | nil => cases lo <;> simp_all [sput, swfFrom]
  | cons p t ih =>
    obtain ⟨k, v⟩ := p
    simp only [sput]
    split
    · cases lo <;> simp_all [swfFrom]
    · split
      · cases lo <;> simp_all [swfFrom]
      · have : n > k := by omega
        simp only [swfFrom, Bool.and_eq_true] at h ⊢
        exact ⟨h.1, ih h.2 (fun l hl => by cases hl; omega)⟩

theorem swfFrom_sdel {α : Type} [DecidableEq α] {d : Nat → α} {lo : Option Nat} {m : Sparse α} {n : Nat}
    (h : swfFrom d lo m = true) : swfFrom d lo (sdel m n) = true := by
  induction m generalizing lo with
  | nil => rfl
  | cons p t ih =>
    obtain ⟨k, v⟩ := p
    simp only [sdel]
    split
    · cases t with
      | nil => rfl
      | cons q t =>
        obtain ⟨j, w⟩ := q
        simp only [swfFrom, Bool.and_eq_true, Option.all_some, decide_eq_true_eq] at h ⊢
        refine ⟨⟨?_, h.2.1.2⟩, h.2.2⟩
        cases lo with
        | none => rfl
        | some l => simp only [Option.all_some, decide_eq_true_eq] at h ⊢; omega
    · simp only [swfFrom, Bool.and_eq_true] at h ⊢
      exact ⟨h.1, ih h.2⟩

/-- A write keeps the canonical form. -/
theorem swf_sset {α : Type} [DecidableEq α] {d : Nat → α} {m : Sparse α} {n : Nat} {x : α} (h : swf d m = true) :
    swf d (sset (d n) m n x) = true := by
  unfold sset swf
  split
  · exact swfFrom_sdel h
  · exact swfFrom_sput h ‹_› (by simp)

theorem swfFrom_filter {α : Type} [DecidableEq α] {d : Nat → α} {lo : Option Nat} {m : Sparse α} (p : Nat × α → Bool)
    (h : swfFrom d lo m = true) : swfFrom d lo (m.filter p) = true := by
  induction m generalizing lo with
  | nil => rfl
  | cons q t ih =>
    obtain ⟨k, v⟩ := q
    simp only [swfFrom, Bool.and_eq_true] at h
    simp only [List.filter_cons]
    split
    · simp only [swfFrom, Bool.and_eq_true]; exact ⟨h.1, ih h.2⟩
    · refine ih (lo := lo) ?_
      cases t with
      | nil => rfl
      | cons r t =>
        obtain ⟨j, w⟩ := r
        simp only [swfFrom, Bool.and_eq_true, Option.all_some, decide_eq_true_eq] at h ⊢
        refine ⟨⟨?_, h.2.1.2⟩, h.2.2⟩
        cases lo with
        | none => rfl
        | some l => simp only [Option.all_some, decide_eq_true_eq] at h ⊢; omega

/-- Removing entries keeps the canonical form. -/
theorem swf_filter {α : Type} [DecidableEq α] {d : Nat → α} {m : Sparse α} (p : Nat × α → Bool) (h : swf d m = true) :
    swf d (m.filter p) = true := swfFrom_filter p h

end Sys2Proof.Machine
end

