-- ==== Sys2Proof/Laws/Regs.lean ====
section
/-! SUPPORT. What writing a register or one of its fields does to every register and field, and that it keeps the register store
in its canonical form. -/

namespace Sys2Proof.Machine

/-! ## Fields of a word -/

theorem Fld.get_testBit (f : Fld) (x : BitVec 64) (i : Nat) :
    (f.get x).testBit i = (decide (i < f.w) && x.getLsbD (f.lo + i)) := by
  unfold Fld.get
  rw [Nat.testBit_mod_two_pow, Nat.testBit_div_two_pow]
  rw [BitVec.getLsbD, Nat.add_comm i f.lo]

theorem Fld.mask_getLsbD (f : Fld) (i : Nat) :
    f.mask.getLsbD i = (decide (i < 64) && (decide (f.lo ≤ i) && decide (i < f.lo + f.w))) := by
  unfold Fld.mask
  rw [BitVec.getLsbD_ofNat, Nat.testBit_mul_two_pow, Nat.testBit_two_pow_sub_one]
  congr 1
  by_cases h : f.lo ≤ i
  · simp [h]; omega
  · simp [h]

theorem Fld.put_getLsbD (f : Fld) (v i : Nat) :
    (f.put v).getLsbD i = (decide (i < 64) && (decide (f.lo ≤ i) && (decide (i < f.lo + f.w) && v.testBit (i - f.lo)))) := by
  unfold Fld.put
  rw [BitVec.getLsbD_ofNat, Nat.testBit_mul_two_pow, Nat.testBit_mod_two_pow]
  congr 1
  by_cases h : f.lo ≤ i
  · have : decide (i - f.lo < f.w) = decide (i < f.lo + f.w) := by simp; omega
    simp [h, this]
  · simp [h]

theorem Fld.set_getLsbD (f : Fld) (x : BitVec 64) (v i : Nat) :
    (f.set x v).getLsbD i = (decide (i < 64) &&
      if f.lo ≤ i ∧ i < f.lo + f.w then v.testBit (i - f.lo) else x.getLsbD i) := by
  unfold Fld.set
  simp only [BitVec.getLsbD_or, BitVec.getLsbD_and, BitVec.getLsbD_not, Fld.mask_getLsbD, Fld.put_getLsbD]
  by_cases h64 : i < 64
  · by_cases h : f.lo ≤ i ∧ i < f.lo + f.w
    · simp [h64, h]
    · rw [if_neg h]
      rw [not_and_or] at h
      rcases h with h | h <;> simp [h64, h]
  · simp [h64]

/-- A field that was set reads the number, cut to its width. -/
theorem Fld.get_set_self (f : Fld) (x : BitVec 64) (v : Nat) (h : f.lo + f.w ≤ 64) : f.get (f.set x v) = v % 2 ^ f.w := by
  apply Nat.eq_of_testBit_eq
  intro i
  rw [Fld.get_testBit, Fld.set_getLsbD, Nat.testBit_mod_two_pow]
  by_cases hi : i < f.w
  · have h1 : f.lo + i < 64 := by omega
    have h2 : f.lo ≤ f.lo + i ∧ f.lo + i < f.lo + f.w := by omega
    simp [hi, h1]
  · simp [hi]

/-- Setting one field leaves a field of other bits as it reads. -/
theorem Fld.get_set_of_disjoint (f g : Fld) (x : BitVec 64) (v : Nat)
    (h : g.lo + g.w ≤ f.lo ∨ f.lo + f.w ≤ g.lo) (hg : g.lo + g.w ≤ 64) : g.get (f.set x v) = g.get x := by
  apply Nat.eq_of_testBit_eq
  intro i
  rw [Fld.get_testBit, Fld.get_testBit, Fld.set_getLsbD]
  by_cases hi : i < g.w
  · have h1 : g.lo + i < 64 := by omega
    have h2 : ¬ (f.lo ≤ g.lo + i ∧ g.lo + i < f.lo + f.w) := by omega
    simp [hi, h1, h2]
  · simp [hi]

theorem Fld.get_lt (f : Fld) (x : BitVec 64) : f.get x < 2 ^ f.w := Nat.mod_lt _ (Nat.two_pow_pos _)

/-! ## Registers -/

/-- Writing a register keeps the register store canonical. -/
theorem State.wr_regsWf (s : State) (off : Nat) (v : Word) (h : s.regsWf = true) : (s.wr off v).regsWf = true :=
  swf_sset (d := resetWord) h

theorem State.setFld_regsWf (s : State) (off : Nat) (f : Fld) (v : Nat) (h : s.regsWf = true) :
    (s.setFld off f v).regsWf = true := s.wr_regsWf off _ h

/-- A register reads what was written. -/
theorem State.rd_wr_self (s : State) (off : Nat) (v : Word) (h : s.regsWf = true) : (s.wr off v).rd off = v :=
  sget_sset_self (d := resetWord) off v h

/-- Writing a register leaves every other register. -/
theorem State.rd_wr_of_ne (s : State) {off o : Nat} (v : Word) (h : o ≠ off) : (s.wr off v).rd o = s.rd o :=
  sget_sset_of_ne _ _ _ v h

theorem State.rd_setFld_of_ne (s : State) {off o : Nat} (f : Fld) (v : Nat) (h : o ≠ off) :
    (s.setFld off f v).rd o = s.rd o := s.rd_wr_of_ne _ h

theorem State.rd_setFld_self (s : State) (off : Nat) (f : Fld) (v : Nat) (h : s.regsWf = true) :
    (s.setFld off f v).rd off = f.set (s.rd off) v := s.rd_wr_self off _ h

/-- A field reads what it was set to. -/
theorem State.fld_setFld_self (s : State) (off : Nat) (f : Fld) (v : Nat) (h : s.regsWf = true) (hf : f.lo + f.w ≤ 64) :
    (s.setFld off f v).fld off f = v % 2 ^ f.w := by
  rw [State.fld, s.rd_setFld_self off f v h, f.get_set_self _ _ hf]

/-- Setting a field leaves the fields of other bits of the same register. -/
theorem State.fld_setFld_of_disjoint (s : State) (off : Nat) (f g : Fld) (v : Nat) (h : s.regsWf = true)
    (hd : g.lo + g.w ≤ f.lo ∨ f.lo + f.w ≤ g.lo) (hg : g.lo + g.w ≤ 64) : (s.setFld off f v).fld off g = s.fld off g := by
  rw [State.fld, s.rd_setFld_self off f v h, f.get_set_of_disjoint g _ _ hd hg, State.fld]

/-- Setting a field leaves the fields of every other register. -/
theorem State.fld_setFld_of_ne (s : State) {off o : Nat} (f g : Fld) (v : Nat) (h : o ≠ off) :
    (s.setFld off f v).fld o g = s.fld o g := by rw [State.fld, s.rd_setFld_of_ne f v h, State.fld]

theorem State.reset_regsWf : State.reset.regsWf = true := rfl

end Sys2Proof.Machine
end

