-- ==== Sys2Proof/Laws/State.lean ====
section
/-! SUPPORT. What the named updates of the state leave unchanged: one lemma for each field and update, and that a register or
field is read after an update of something else as before. -/

namespace Sys2Proof.Machine

/-! ## State.wr -/

@[simp] theorem State.wr_board (s : State) (off : Nat) (v : Word) : (s.wr off v).board = s.board := (rfl)
@[simp] theorem State.wr_lasers (s : State) (off : Nat) (v : Word) : (s.wr off v).lasers = s.lasers := (rfl)
@[simp] theorem State.wr_sills (s : State) (off : Nat) (v : Word) : (s.wr off v).sills = s.sills := (rfl)
@[simp] theorem State.wr_injecting (s : State) (off : Nat) (v : Word) : (s.wr off v).injecting = s.injecting := (rfl)
@[simp] theorem State.wr_out (s : State) (off : Nat) (v : Word) : (s.wr off v).out = s.out := (rfl)
@[simp] theorem State.wr_host (s : State) (off : Nat) (v : Word) : (s.wr off v).host = s.host := (rfl)
@[simp] theorem State.wr_dxn (s : State) (off : Nat) (v : Word) : (s.wr off v).dxn = s.dxn := (rfl)
@[simp] theorem State.wr_ports (s : State) (off : Nat) (v : Word) : (s.wr off v).ports = s.ports := (rfl)
@[simp] theorem State.wr_fwd (s : State) (off : Nat) (v : Word) : (s.wr off v).fwd = s.fwd := (rfl)
@[simp] theorem State.wr_swc (s : State) (off : Nat) (v : Word) : (s.wr off v).swc = s.swc := (rfl)
@[simp] theorem State.wr_bsn (s : State) (off : Nat) (v : Word) : (s.wr off v).bsn = s.bsn := (rfl)
@[simp] theorem State.wr_ten (s : State) (off : Nat) (v : Word) : (s.wr off v).ten = s.ten := (rfl)
@[simp] theorem State.wr_spl (s : State) (off : Nat) (v : Word) : (s.wr off v).spl = s.spl := (rfl)
@[simp] theorem State.wr_tim (s : State) (off : Nat) (v : Word) : (s.wr off v).tim = s.tim := (rfl)
@[simp] theorem State.wr_mem (s : State) (off : Nat) (v : Word) : (s.wr off v).mem = s.mem := (rfl)
@[simp] theorem State.wr_pwr (s : State) (off : Nat) (v : Word) : (s.wr off v).pwr = s.pwr := (rfl)
@[simp] theorem State.wr_sec (s : State) (off : Nat) (v : Word) : (s.wr off v).sec = s.sec := (rfl)
@[simp] theorem State.wr_cfg (s : State) (off : Nat) (v : Word) : (s.wr off v).cfg = s.cfg := (rfl)
@[simp] theorem State.wr_pln (s : State) (off : Nat) (v : Word) : (s.wr off v).pln = s.pln := (rfl)
@[simp] theorem State.wr_ldg (s : State) (off : Nat) (v : Word) : (s.wr off v).ldg = s.ldg := (rfl)
@[simp] theorem State.wr_cnt (s : State) (off : Nat) (v : Word) : (s.wr off v).cnt = s.cnt := (rfl)
@[simp] theorem State.wr_free (s : State) (off : Nat) (v : Word) : (s.wr off v).free = s.free := (rfl)
@[simp] theorem State.wr_pending (s : State) (off : Nat) (v : Word) : (s.wr off v).pending = s.pending := (rfl)

/-! ## State.setFld -/

@[simp] theorem State.setFld_board (s : State) (off : Nat) (f : Fld) (v : Nat) : (s.setFld off f v).board = s.board := (rfl)
@[simp] theorem State.setFld_lasers (s : State) (off : Nat) (f : Fld) (v : Nat) : (s.setFld off f v).lasers = s.lasers := (rfl)
@[simp] theorem State.setFld_sills (s : State) (off : Nat) (f : Fld) (v : Nat) : (s.setFld off f v).sills = s.sills := (rfl)
@[simp] theorem State.setFld_injecting (s : State) (off : Nat) (f : Fld) (v : Nat) : (s.setFld off f v).injecting = s.injecting := (rfl)
@[simp] theorem State.setFld_out (s : State) (off : Nat) (f : Fld) (v : Nat) : (s.setFld off f v).out = s.out := (rfl)
@[simp] theorem State.setFld_host (s : State) (off : Nat) (f : Fld) (v : Nat) : (s.setFld off f v).host = s.host := (rfl)
@[simp] theorem State.setFld_dxn (s : State) (off : Nat) (f : Fld) (v : Nat) : (s.setFld off f v).dxn = s.dxn := (rfl)
@[simp] theorem State.setFld_ports (s : State) (off : Nat) (f : Fld) (v : Nat) : (s.setFld off f v).ports = s.ports := (rfl)
@[simp] theorem State.setFld_fwd (s : State) (off : Nat) (f : Fld) (v : Nat) : (s.setFld off f v).fwd = s.fwd := (rfl)
@[simp] theorem State.setFld_swc (s : State) (off : Nat) (f : Fld) (v : Nat) : (s.setFld off f v).swc = s.swc := (rfl)
@[simp] theorem State.setFld_bsn (s : State) (off : Nat) (f : Fld) (v : Nat) : (s.setFld off f v).bsn = s.bsn := (rfl)
@[simp] theorem State.setFld_ten (s : State) (off : Nat) (f : Fld) (v : Nat) : (s.setFld off f v).ten = s.ten := (rfl)
@[simp] theorem State.setFld_spl (s : State) (off : Nat) (f : Fld) (v : Nat) : (s.setFld off f v).spl = s.spl := (rfl)
@[simp] theorem State.setFld_tim (s : State) (off : Nat) (f : Fld) (v : Nat) : (s.setFld off f v).tim = s.tim := (rfl)
@[simp] theorem State.setFld_mem (s : State) (off : Nat) (f : Fld) (v : Nat) : (s.setFld off f v).mem = s.mem := (rfl)
@[simp] theorem State.setFld_pwr (s : State) (off : Nat) (f : Fld) (v : Nat) : (s.setFld off f v).pwr = s.pwr := (rfl)
@[simp] theorem State.setFld_sec (s : State) (off : Nat) (f : Fld) (v : Nat) : (s.setFld off f v).sec = s.sec := (rfl)
@[simp] theorem State.setFld_cfg (s : State) (off : Nat) (f : Fld) (v : Nat) : (s.setFld off f v).cfg = s.cfg := (rfl)
@[simp] theorem State.setFld_pln (s : State) (off : Nat) (f : Fld) (v : Nat) : (s.setFld off f v).pln = s.pln := (rfl)
@[simp] theorem State.setFld_ldg (s : State) (off : Nat) (f : Fld) (v : Nat) : (s.setFld off f v).ldg = s.ldg := (rfl)
@[simp] theorem State.setFld_cnt (s : State) (off : Nat) (f : Fld) (v : Nat) : (s.setFld off f v).cnt = s.cnt := (rfl)
@[simp] theorem State.setFld_free (s : State) (off : Nat) (f : Fld) (v : Nat) : (s.setFld off f v).free = s.free := (rfl)
@[simp] theorem State.setFld_pending (s : State) (off : Nat) (f : Fld) (v : Nat) : (s.setFld off f v).pending = s.pending := (rfl)

/-! ## State.setBit -/

@[simp] theorem State.setBit_board (s : State) (off i : Nat) (b : Bool) : (s.setBit off i b).board = s.board := (rfl)
@[simp] theorem State.setBit_lasers (s : State) (off i : Nat) (b : Bool) : (s.setBit off i b).lasers = s.lasers := (rfl)
@[simp] theorem State.setBit_sills (s : State) (off i : Nat) (b : Bool) : (s.setBit off i b).sills = s.sills := (rfl)
@[simp] theorem State.setBit_injecting (s : State) (off i : Nat) (b : Bool) : (s.setBit off i b).injecting = s.injecting := (rfl)
@[simp] theorem State.setBit_out (s : State) (off i : Nat) (b : Bool) : (s.setBit off i b).out = s.out := (rfl)
@[simp] theorem State.setBit_host (s : State) (off i : Nat) (b : Bool) : (s.setBit off i b).host = s.host := (rfl)
@[simp] theorem State.setBit_dxn (s : State) (off i : Nat) (b : Bool) : (s.setBit off i b).dxn = s.dxn := (rfl)
@[simp] theorem State.setBit_ports (s : State) (off i : Nat) (b : Bool) : (s.setBit off i b).ports = s.ports := (rfl)
@[simp] theorem State.setBit_fwd (s : State) (off i : Nat) (b : Bool) : (s.setBit off i b).fwd = s.fwd := (rfl)
@[simp] theorem State.setBit_swc (s : State) (off i : Nat) (b : Bool) : (s.setBit off i b).swc = s.swc := (rfl)
@[simp] theorem State.setBit_bsn (s : State) (off i : Nat) (b : Bool) : (s.setBit off i b).bsn = s.bsn := (rfl)
@[simp] theorem State.setBit_ten (s : State) (off i : Nat) (b : Bool) : (s.setBit off i b).ten = s.ten := (rfl)
@[simp] theorem State.setBit_spl (s : State) (off i : Nat) (b : Bool) : (s.setBit off i b).spl = s.spl := (rfl)
@[simp] theorem State.setBit_tim (s : State) (off i : Nat) (b : Bool) : (s.setBit off i b).tim = s.tim := (rfl)
@[simp] theorem State.setBit_mem (s : State) (off i : Nat) (b : Bool) : (s.setBit off i b).mem = s.mem := (rfl)
@[simp] theorem State.setBit_pwr (s : State) (off i : Nat) (b : Bool) : (s.setBit off i b).pwr = s.pwr := (rfl)
@[simp] theorem State.setBit_sec (s : State) (off i : Nat) (b : Bool) : (s.setBit off i b).sec = s.sec := (rfl)
@[simp] theorem State.setBit_cfg (s : State) (off i : Nat) (b : Bool) : (s.setBit off i b).cfg = s.cfg := (rfl)
@[simp] theorem State.setBit_pln (s : State) (off i : Nat) (b : Bool) : (s.setBit off i b).pln = s.pln := (rfl)
@[simp] theorem State.setBit_ldg (s : State) (off i : Nat) (b : Bool) : (s.setBit off i b).ldg = s.ldg := (rfl)
@[simp] theorem State.setBit_cnt (s : State) (off i : Nat) (b : Bool) : (s.setBit off i b).cnt = s.cnt := (rfl)
@[simp] theorem State.setBit_free (s : State) (off i : Nat) (b : Bool) : (s.setBit off i b).free = s.free := (rfl)
@[simp] theorem State.setBit_pending (s : State) (off i : Nat) (b : Bool) : (s.setBit off i b).pending = s.pending := (rfl)

/-! ## State.incFld -/

@[simp] theorem State.incFld_board (s : State) (off : Nat) (f : Fld) : (s.incFld off f).board = s.board := (rfl)
@[simp] theorem State.incFld_lasers (s : State) (off : Nat) (f : Fld) : (s.incFld off f).lasers = s.lasers := (rfl)
@[simp] theorem State.incFld_sills (s : State) (off : Nat) (f : Fld) : (s.incFld off f).sills = s.sills := (rfl)
@[simp] theorem State.incFld_injecting (s : State) (off : Nat) (f : Fld) : (s.incFld off f).injecting = s.injecting := (rfl)
@[simp] theorem State.incFld_out (s : State) (off : Nat) (f : Fld) : (s.incFld off f).out = s.out := (rfl)
@[simp] theorem State.incFld_host (s : State) (off : Nat) (f : Fld) : (s.incFld off f).host = s.host := (rfl)
@[simp] theorem State.incFld_dxn (s : State) (off : Nat) (f : Fld) : (s.incFld off f).dxn = s.dxn := (rfl)
@[simp] theorem State.incFld_ports (s : State) (off : Nat) (f : Fld) : (s.incFld off f).ports = s.ports := (rfl)
@[simp] theorem State.incFld_fwd (s : State) (off : Nat) (f : Fld) : (s.incFld off f).fwd = s.fwd := (rfl)
@[simp] theorem State.incFld_swc (s : State) (off : Nat) (f : Fld) : (s.incFld off f).swc = s.swc := (rfl)
@[simp] theorem State.incFld_bsn (s : State) (off : Nat) (f : Fld) : (s.incFld off f).bsn = s.bsn := (rfl)
@[simp] theorem State.incFld_ten (s : State) (off : Nat) (f : Fld) : (s.incFld off f).ten = s.ten := (rfl)
@[simp] theorem State.incFld_spl (s : State) (off : Nat) (f : Fld) : (s.incFld off f).spl = s.spl := (rfl)
@[simp] theorem State.incFld_tim (s : State) (off : Nat) (f : Fld) : (s.incFld off f).tim = s.tim := (rfl)
@[simp] theorem State.incFld_mem (s : State) (off : Nat) (f : Fld) : (s.incFld off f).mem = s.mem := (rfl)
@[simp] theorem State.incFld_pwr (s : State) (off : Nat) (f : Fld) : (s.incFld off f).pwr = s.pwr := (rfl)
@[simp] theorem State.incFld_sec (s : State) (off : Nat) (f : Fld) : (s.incFld off f).sec = s.sec := (rfl)
@[simp] theorem State.incFld_cfg (s : State) (off : Nat) (f : Fld) : (s.incFld off f).cfg = s.cfg := (rfl)
@[simp] theorem State.incFld_pln (s : State) (off : Nat) (f : Fld) : (s.incFld off f).pln = s.pln := (rfl)
@[simp] theorem State.incFld_ldg (s : State) (off : Nat) (f : Fld) : (s.incFld off f).ldg = s.ldg := (rfl)
@[simp] theorem State.incFld_cnt (s : State) (off : Nat) (f : Fld) : (s.incFld off f).cnt = s.cnt := (rfl)
@[simp] theorem State.incFld_free (s : State) (off : Nat) (f : Fld) : (s.incFld off f).free = s.free := (rfl)
@[simp] theorem State.incFld_pending (s : State) (off : Nat) (f : Fld) : (s.incFld off f).pending = s.pending := (rfl)

/-! ## State.setBay -/

@[simp] theorem State.setBay_board (s : State) (n st : Nat) : (s.setBay n st).board = s.board := (rfl)
@[simp] theorem State.setBay_lasers (s : State) (n st : Nat) : (s.setBay n st).lasers = s.lasers := (rfl)
@[simp] theorem State.setBay_sills (s : State) (n st : Nat) : (s.setBay n st).sills = s.sills := (rfl)
@[simp] theorem State.setBay_injecting (s : State) (n st : Nat) : (s.setBay n st).injecting = s.injecting := (rfl)
@[simp] theorem State.setBay_out (s : State) (n st : Nat) : (s.setBay n st).out = s.out := (rfl)
@[simp] theorem State.setBay_host (s : State) (n st : Nat) : (s.setBay n st).host = s.host := (rfl)
@[simp] theorem State.setBay_dxn (s : State) (n st : Nat) : (s.setBay n st).dxn = s.dxn := (rfl)
@[simp] theorem State.setBay_ports (s : State) (n st : Nat) : (s.setBay n st).ports = s.ports := (rfl)
@[simp] theorem State.setBay_fwd (s : State) (n st : Nat) : (s.setBay n st).fwd = s.fwd := (rfl)
@[simp] theorem State.setBay_swc (s : State) (n st : Nat) : (s.setBay n st).swc = s.swc := (rfl)
@[simp] theorem State.setBay_bsn (s : State) (n st : Nat) : (s.setBay n st).bsn = s.bsn := (rfl)
@[simp] theorem State.setBay_ten (s : State) (n st : Nat) : (s.setBay n st).ten = s.ten := (rfl)
@[simp] theorem State.setBay_spl (s : State) (n st : Nat) : (s.setBay n st).spl = s.spl := (rfl)
@[simp] theorem State.setBay_tim (s : State) (n st : Nat) : (s.setBay n st).tim = s.tim := (rfl)
@[simp] theorem State.setBay_mem (s : State) (n st : Nat) : (s.setBay n st).mem = s.mem := (rfl)
@[simp] theorem State.setBay_pwr (s : State) (n st : Nat) : (s.setBay n st).pwr = s.pwr := (rfl)
@[simp] theorem State.setBay_sec (s : State) (n st : Nat) : (s.setBay n st).sec = s.sec := (rfl)
@[simp] theorem State.setBay_cfg (s : State) (n st : Nat) : (s.setBay n st).cfg = s.cfg := (rfl)
@[simp] theorem State.setBay_pln (s : State) (n st : Nat) : (s.setBay n st).pln = s.pln := (rfl)
@[simp] theorem State.setBay_ldg (s : State) (n st : Nat) : (s.setBay n st).ldg = s.ldg := (rfl)
@[simp] theorem State.setBay_cnt (s : State) (n st : Nat) : (s.setBay n st).cnt = s.cnt := (rfl)
@[simp] theorem State.setBay_free (s : State) (n st : Nat) : (s.setBay n st).free = s.free := (rfl)
@[simp] theorem State.setBay_pending (s : State) (n st : Nat) : (s.setBay n st).pending = s.pending := (rfl)

/-! ## State.countBy -/

@[simp] theorem State.countBy_regs (s : State) (key n : Nat) : (s.countBy key n).regs = s.regs := (rfl)
@[simp] theorem State.countBy_board (s : State) (key n : Nat) : (s.countBy key n).board = s.board := (rfl)
@[simp] theorem State.countBy_lasers (s : State) (key n : Nat) : (s.countBy key n).lasers = s.lasers := (rfl)
@[simp] theorem State.countBy_sills (s : State) (key n : Nat) : (s.countBy key n).sills = s.sills := (rfl)
@[simp] theorem State.countBy_injecting (s : State) (key n : Nat) : (s.countBy key n).injecting = s.injecting := (rfl)
@[simp] theorem State.countBy_out (s : State) (key n : Nat) : (s.countBy key n).out = s.out := (rfl)
@[simp] theorem State.countBy_host (s : State) (key n : Nat) : (s.countBy key n).host = s.host := (rfl)
@[simp] theorem State.countBy_dxn (s : State) (key n : Nat) : (s.countBy key n).dxn = s.dxn := (rfl)
@[simp] theorem State.countBy_ports (s : State) (key n : Nat) : (s.countBy key n).ports = s.ports := (rfl)
@[simp] theorem State.countBy_fwd (s : State) (key n : Nat) : (s.countBy key n).fwd = s.fwd := (rfl)
@[simp] theorem State.countBy_swc (s : State) (key n : Nat) : (s.countBy key n).swc = s.swc := (rfl)
@[simp] theorem State.countBy_bsn (s : State) (key n : Nat) : (s.countBy key n).bsn = s.bsn := (rfl)
@[simp] theorem State.countBy_ten (s : State) (key n : Nat) : (s.countBy key n).ten = s.ten := (rfl)
@[simp] theorem State.countBy_spl (s : State) (key n : Nat) : (s.countBy key n).spl = s.spl := (rfl)
@[simp] theorem State.countBy_tim (s : State) (key n : Nat) : (s.countBy key n).tim = s.tim := (rfl)
@[simp] theorem State.countBy_mem (s : State) (key n : Nat) : (s.countBy key n).mem = s.mem := (rfl)
@[simp] theorem State.countBy_pwr (s : State) (key n : Nat) : (s.countBy key n).pwr = s.pwr := (rfl)
@[simp] theorem State.countBy_sec (s : State) (key n : Nat) : (s.countBy key n).sec = s.sec := (rfl)
@[simp] theorem State.countBy_cfg (s : State) (key n : Nat) : (s.countBy key n).cfg = s.cfg := (rfl)
@[simp] theorem State.countBy_pln (s : State) (key n : Nat) : (s.countBy key n).pln = s.pln := (rfl)
@[simp] theorem State.countBy_ldg (s : State) (key n : Nat) : (s.countBy key n).ldg = s.ldg := (rfl)
@[simp] theorem State.countBy_free (s : State) (key n : Nat) : (s.countBy key n).free = s.free := (rfl)
@[simp] theorem State.countBy_pending (s : State) (key n : Nat) : (s.countBy key n).pending = s.pending := (rfl)
@[simp] theorem State.countBy_rd (s : State) (key n : Nat) (o : Nat) : (s.countBy key n).rd o = s.rd o := (rfl)
@[simp] theorem State.countBy_fld (s : State) (key n : Nat) (o : Nat) (g : Fld) : (s.countBy key n).fld o g = s.fld o g := rfl

/-! ## State.count -/

@[simp] theorem State.count_regs (s : State) (key : Nat) : (s.count key).regs = s.regs := (rfl)
@[simp] theorem State.count_board (s : State) (key : Nat) : (s.count key).board = s.board := (rfl)
@[simp] theorem State.count_lasers (s : State) (key : Nat) : (s.count key).lasers = s.lasers := (rfl)
@[simp] theorem State.count_sills (s : State) (key : Nat) : (s.count key).sills = s.sills := (rfl)
@[simp] theorem State.count_injecting (s : State) (key : Nat) : (s.count key).injecting = s.injecting := (rfl)
@[simp] theorem State.count_out (s : State) (key : Nat) : (s.count key).out = s.out := (rfl)
@[simp] theorem State.count_host (s : State) (key : Nat) : (s.count key).host = s.host := (rfl)
@[simp] theorem State.count_dxn (s : State) (key : Nat) : (s.count key).dxn = s.dxn := (rfl)
@[simp] theorem State.count_ports (s : State) (key : Nat) : (s.count key).ports = s.ports := (rfl)
@[simp] theorem State.count_fwd (s : State) (key : Nat) : (s.count key).fwd = s.fwd := (rfl)
@[simp] theorem State.count_swc (s : State) (key : Nat) : (s.count key).swc = s.swc := (rfl)
@[simp] theorem State.count_bsn (s : State) (key : Nat) : (s.count key).bsn = s.bsn := (rfl)
@[simp] theorem State.count_ten (s : State) (key : Nat) : (s.count key).ten = s.ten := (rfl)
@[simp] theorem State.count_spl (s : State) (key : Nat) : (s.count key).spl = s.spl := (rfl)
@[simp] theorem State.count_tim (s : State) (key : Nat) : (s.count key).tim = s.tim := (rfl)
@[simp] theorem State.count_mem (s : State) (key : Nat) : (s.count key).mem = s.mem := (rfl)
@[simp] theorem State.count_pwr (s : State) (key : Nat) : (s.count key).pwr = s.pwr := (rfl)
@[simp] theorem State.count_sec (s : State) (key : Nat) : (s.count key).sec = s.sec := (rfl)
@[simp] theorem State.count_cfg (s : State) (key : Nat) : (s.count key).cfg = s.cfg := (rfl)
@[simp] theorem State.count_pln (s : State) (key : Nat) : (s.count key).pln = s.pln := (rfl)
@[simp] theorem State.count_ldg (s : State) (key : Nat) : (s.count key).ldg = s.ldg := (rfl)
@[simp] theorem State.count_free (s : State) (key : Nat) : (s.count key).free = s.free := (rfl)
@[simp] theorem State.count_pending (s : State) (key : Nat) : (s.count key).pending = s.pending := (rfl)
@[simp] theorem State.count_rd (s : State) (key : Nat) (o : Nat) : (s.count key).rd o = s.rd o := (rfl)
@[simp] theorem State.count_fld (s : State) (key : Nat) (o : Nat) (g : Fld) : (s.count key).fld o g = s.fld o g := rfl

/-! ## State.raise -/

@[simp] theorem State.raise_regs (s : State) (v : Nat) : (s.raise v).regs = s.regs := (rfl)
@[simp] theorem State.raise_board (s : State) (v : Nat) : (s.raise v).board = s.board := (rfl)
@[simp] theorem State.raise_lasers (s : State) (v : Nat) : (s.raise v).lasers = s.lasers := (rfl)
@[simp] theorem State.raise_sills (s : State) (v : Nat) : (s.raise v).sills = s.sills := (rfl)
@[simp] theorem State.raise_injecting (s : State) (v : Nat) : (s.raise v).injecting = s.injecting := (rfl)
@[simp] theorem State.raise_host (s : State) (v : Nat) : (s.raise v).host = s.host := (rfl)
@[simp] theorem State.raise_dxn (s : State) (v : Nat) : (s.raise v).dxn = s.dxn := (rfl)
@[simp] theorem State.raise_ports (s : State) (v : Nat) : (s.raise v).ports = s.ports := (rfl)
@[simp] theorem State.raise_fwd (s : State) (v : Nat) : (s.raise v).fwd = s.fwd := (rfl)
@[simp] theorem State.raise_swc (s : State) (v : Nat) : (s.raise v).swc = s.swc := (rfl)
@[simp] theorem State.raise_bsn (s : State) (v : Nat) : (s.raise v).bsn = s.bsn := (rfl)
@[simp] theorem State.raise_ten (s : State) (v : Nat) : (s.raise v).ten = s.ten := (rfl)
@[simp] theorem State.raise_spl (s : State) (v : Nat) : (s.raise v).spl = s.spl := (rfl)
@[simp] theorem State.raise_tim (s : State) (v : Nat) : (s.raise v).tim = s.tim := (rfl)
@[simp] theorem State.raise_mem (s : State) (v : Nat) : (s.raise v).mem = s.mem := (rfl)
@[simp] theorem State.raise_pwr (s : State) (v : Nat) : (s.raise v).pwr = s.pwr := (rfl)
@[simp] theorem State.raise_sec (s : State) (v : Nat) : (s.raise v).sec = s.sec := (rfl)
@[simp] theorem State.raise_cfg (s : State) (v : Nat) : (s.raise v).cfg = s.cfg := (rfl)
@[simp] theorem State.raise_pln (s : State) (v : Nat) : (s.raise v).pln = s.pln := (rfl)
@[simp] theorem State.raise_ldg (s : State) (v : Nat) : (s.raise v).ldg = s.ldg := (rfl)
@[simp] theorem State.raise_free (s : State) (v : Nat) : (s.raise v).free = s.free := (rfl)
@[simp] theorem State.raise_pending (s : State) (v : Nat) : (s.raise v).pending = s.pending := (rfl)
@[simp] theorem State.raise_rd (s : State) (v : Nat) (o : Nat) : (s.raise v).rd o = s.rd o := (rfl)
@[simp] theorem State.raise_fld (s : State) (v : Nat) (o : Nat) (g : Fld) : (s.raise v).fld o g = s.fld o g := rfl

/-! ## State.sendCxl -/

@[simp] theorem State.sendCxl_regs (s : State) (m : CxlMsg) : (s.sendCxl m).regs = s.regs := (rfl)
@[simp] theorem State.sendCxl_board (s : State) (m : CxlMsg) : (s.sendCxl m).board = s.board := (rfl)
@[simp] theorem State.sendCxl_lasers (s : State) (m : CxlMsg) : (s.sendCxl m).lasers = s.lasers := (rfl)
@[simp] theorem State.sendCxl_sills (s : State) (m : CxlMsg) : (s.sendCxl m).sills = s.sills := (rfl)
@[simp] theorem State.sendCxl_injecting (s : State) (m : CxlMsg) : (s.sendCxl m).injecting = s.injecting := (rfl)
@[simp] theorem State.sendCxl_host (s : State) (m : CxlMsg) : (s.sendCxl m).host = s.host := (rfl)
@[simp] theorem State.sendCxl_dxn (s : State) (m : CxlMsg) : (s.sendCxl m).dxn = s.dxn := (rfl)
@[simp] theorem State.sendCxl_ports (s : State) (m : CxlMsg) : (s.sendCxl m).ports = s.ports := (rfl)
@[simp] theorem State.sendCxl_fwd (s : State) (m : CxlMsg) : (s.sendCxl m).fwd = s.fwd := (rfl)
@[simp] theorem State.sendCxl_swc (s : State) (m : CxlMsg) : (s.sendCxl m).swc = s.swc := (rfl)
@[simp] theorem State.sendCxl_bsn (s : State) (m : CxlMsg) : (s.sendCxl m).bsn = s.bsn := (rfl)
@[simp] theorem State.sendCxl_ten (s : State) (m : CxlMsg) : (s.sendCxl m).ten = s.ten := (rfl)
@[simp] theorem State.sendCxl_spl (s : State) (m : CxlMsg) : (s.sendCxl m).spl = s.spl := (rfl)
@[simp] theorem State.sendCxl_tim (s : State) (m : CxlMsg) : (s.sendCxl m).tim = s.tim := (rfl)
@[simp] theorem State.sendCxl_mem (s : State) (m : CxlMsg) : (s.sendCxl m).mem = s.mem := (rfl)
@[simp] theorem State.sendCxl_pwr (s : State) (m : CxlMsg) : (s.sendCxl m).pwr = s.pwr := (rfl)
@[simp] theorem State.sendCxl_sec (s : State) (m : CxlMsg) : (s.sendCxl m).sec = s.sec := (rfl)
@[simp] theorem State.sendCxl_cfg (s : State) (m : CxlMsg) : (s.sendCxl m).cfg = s.cfg := (rfl)
@[simp] theorem State.sendCxl_pln (s : State) (m : CxlMsg) : (s.sendCxl m).pln = s.pln := (rfl)
@[simp] theorem State.sendCxl_ldg (s : State) (m : CxlMsg) : (s.sendCxl m).ldg = s.ldg := (rfl)
@[simp] theorem State.sendCxl_cnt (s : State) (m : CxlMsg) : (s.sendCxl m).cnt = s.cnt := (rfl)
@[simp] theorem State.sendCxl_free (s : State) (m : CxlMsg) : (s.sendCxl m).free = s.free := (rfl)
@[simp] theorem State.sendCxl_pending (s : State) (m : CxlMsg) : (s.sendCxl m).pending = s.pending := (rfl)
@[simp] theorem State.sendCxl_rd (s : State) (m : CxlMsg) (o : Nat) : (s.sendCxl m).rd o = s.rd o := (rfl)
@[simp] theorem State.sendCxl_fld (s : State) (m : CxlMsg) (o : Nat) (g : Fld) : (s.sendCxl m).fld o g = s.fld o g := rfl

/-! ## State.sendFrame -/

@[simp] theorem State.sendFrame_regs (s : State) (p : Nat) (f : Bytes) : (s.sendFrame p f).regs = s.regs := (rfl)
@[simp] theorem State.sendFrame_board (s : State) (p : Nat) (f : Bytes) : (s.sendFrame p f).board = s.board := (rfl)
@[simp] theorem State.sendFrame_lasers (s : State) (p : Nat) (f : Bytes) : (s.sendFrame p f).lasers = s.lasers := (rfl)
@[simp] theorem State.sendFrame_sills (s : State) (p : Nat) (f : Bytes) : (s.sendFrame p f).sills = s.sills := (rfl)
@[simp] theorem State.sendFrame_injecting (s : State) (p : Nat) (f : Bytes) : (s.sendFrame p f).injecting = s.injecting := (rfl)
@[simp] theorem State.sendFrame_host (s : State) (p : Nat) (f : Bytes) : (s.sendFrame p f).host = s.host := (rfl)
@[simp] theorem State.sendFrame_dxn (s : State) (p : Nat) (f : Bytes) : (s.sendFrame p f).dxn = s.dxn := (rfl)
@[simp] theorem State.sendFrame_ports (s : State) (p : Nat) (f : Bytes) : (s.sendFrame p f).ports = s.ports := (rfl)
@[simp] theorem State.sendFrame_fwd (s : State) (p : Nat) (f : Bytes) : (s.sendFrame p f).fwd = s.fwd := (rfl)
@[simp] theorem State.sendFrame_swc (s : State) (p : Nat) (f : Bytes) : (s.sendFrame p f).swc = s.swc := (rfl)
@[simp] theorem State.sendFrame_bsn (s : State) (p : Nat) (f : Bytes) : (s.sendFrame p f).bsn = s.bsn := (rfl)
@[simp] theorem State.sendFrame_ten (s : State) (p : Nat) (f : Bytes) : (s.sendFrame p f).ten = s.ten := (rfl)
@[simp] theorem State.sendFrame_spl (s : State) (p : Nat) (f : Bytes) : (s.sendFrame p f).spl = s.spl := (rfl)
@[simp] theorem State.sendFrame_tim (s : State) (p : Nat) (f : Bytes) : (s.sendFrame p f).tim = s.tim := (rfl)
@[simp] theorem State.sendFrame_mem (s : State) (p : Nat) (f : Bytes) : (s.sendFrame p f).mem = s.mem := (rfl)
@[simp] theorem State.sendFrame_pwr (s : State) (p : Nat) (f : Bytes) : (s.sendFrame p f).pwr = s.pwr := (rfl)
@[simp] theorem State.sendFrame_sec (s : State) (p : Nat) (f : Bytes) : (s.sendFrame p f).sec = s.sec := (rfl)
@[simp] theorem State.sendFrame_cfg (s : State) (p : Nat) (f : Bytes) : (s.sendFrame p f).cfg = s.cfg := (rfl)
@[simp] theorem State.sendFrame_pln (s : State) (p : Nat) (f : Bytes) : (s.sendFrame p f).pln = s.pln := (rfl)
@[simp] theorem State.sendFrame_ldg (s : State) (p : Nat) (f : Bytes) : (s.sendFrame p f).ldg = s.ldg := (rfl)
@[simp] theorem State.sendFrame_cnt (s : State) (p : Nat) (f : Bytes) : (s.sendFrame p f).cnt = s.cnt := (rfl)
@[simp] theorem State.sendFrame_free (s : State) (p : Nat) (f : Bytes) : (s.sendFrame p f).free = s.free := (rfl)
@[simp] theorem State.sendFrame_pending (s : State) (p : Nat) (f : Bytes) : (s.sendFrame p f).pending = s.pending := (rfl)
@[simp] theorem State.sendFrame_rd (s : State) (p : Nat) (f : Bytes) (o : Nat) : (s.sendFrame p f).rd o = s.rd o := (rfl)
@[simp] theorem State.sendFrame_fld (s : State) (p : Nat) (f : Bytes) (o : Nat) (g : Fld) : (s.sendFrame p f).fld o g = s.fld o g := rfl

/-! ## State.sendMgmt -/

@[simp] theorem State.sendMgmt_regs (s : State) (m : Nat) (f : Bytes) : (s.sendMgmt m f).regs = s.regs := (rfl)
@[simp] theorem State.sendMgmt_board (s : State) (m : Nat) (f : Bytes) : (s.sendMgmt m f).board = s.board := (rfl)
@[simp] theorem State.sendMgmt_lasers (s : State) (m : Nat) (f : Bytes) : (s.sendMgmt m f).lasers = s.lasers := (rfl)
@[simp] theorem State.sendMgmt_sills (s : State) (m : Nat) (f : Bytes) : (s.sendMgmt m f).sills = s.sills := (rfl)
@[simp] theorem State.sendMgmt_injecting (s : State) (m : Nat) (f : Bytes) : (s.sendMgmt m f).injecting = s.injecting := (rfl)
@[simp] theorem State.sendMgmt_host (s : State) (m : Nat) (f : Bytes) : (s.sendMgmt m f).host = s.host := (rfl)
@[simp] theorem State.sendMgmt_dxn (s : State) (m : Nat) (f : Bytes) : (s.sendMgmt m f).dxn = s.dxn := (rfl)
@[simp] theorem State.sendMgmt_ports (s : State) (m : Nat) (f : Bytes) : (s.sendMgmt m f).ports = s.ports := (rfl)
@[simp] theorem State.sendMgmt_fwd (s : State) (m : Nat) (f : Bytes) : (s.sendMgmt m f).fwd = s.fwd := (rfl)
@[simp] theorem State.sendMgmt_swc (s : State) (m : Nat) (f : Bytes) : (s.sendMgmt m f).swc = s.swc := (rfl)
@[simp] theorem State.sendMgmt_bsn (s : State) (m : Nat) (f : Bytes) : (s.sendMgmt m f).bsn = s.bsn := (rfl)
@[simp] theorem State.sendMgmt_ten (s : State) (m : Nat) (f : Bytes) : (s.sendMgmt m f).ten = s.ten := (rfl)
@[simp] theorem State.sendMgmt_spl (s : State) (m : Nat) (f : Bytes) : (s.sendMgmt m f).spl = s.spl := (rfl)
@[simp] theorem State.sendMgmt_tim (s : State) (m : Nat) (f : Bytes) : (s.sendMgmt m f).tim = s.tim := (rfl)
@[simp] theorem State.sendMgmt_mem (s : State) (m : Nat) (f : Bytes) : (s.sendMgmt m f).mem = s.mem := (rfl)
@[simp] theorem State.sendMgmt_pwr (s : State) (m : Nat) (f : Bytes) : (s.sendMgmt m f).pwr = s.pwr := (rfl)
@[simp] theorem State.sendMgmt_sec (s : State) (m : Nat) (f : Bytes) : (s.sendMgmt m f).sec = s.sec := (rfl)
@[simp] theorem State.sendMgmt_cfg (s : State) (m : Nat) (f : Bytes) : (s.sendMgmt m f).cfg = s.cfg := (rfl)
@[simp] theorem State.sendMgmt_pln (s : State) (m : Nat) (f : Bytes) : (s.sendMgmt m f).pln = s.pln := (rfl)
@[simp] theorem State.sendMgmt_ldg (s : State) (m : Nat) (f : Bytes) : (s.sendMgmt m f).ldg = s.ldg := (rfl)
@[simp] theorem State.sendMgmt_cnt (s : State) (m : Nat) (f : Bytes) : (s.sendMgmt m f).cnt = s.cnt := (rfl)
@[simp] theorem State.sendMgmt_free (s : State) (m : Nat) (f : Bytes) : (s.sendMgmt m f).free = s.free := (rfl)
@[simp] theorem State.sendMgmt_pending (s : State) (m : Nat) (f : Bytes) : (s.sendMgmt m f).pending = s.pending := (rfl)
@[simp] theorem State.sendMgmt_rd (s : State) (m : Nat) (f : Bytes) (o : Nat) : (s.sendMgmt m f).rd o = s.rd o := (rfl)
@[simp] theorem State.sendMgmt_fld (s : State) (m : Nat) (f : Bytes) (o : Nat) (g : Fld) : (s.sendMgmt m f).fld o g = s.fld o g := rfl

/-! ## State.answer -/

@[simp] theorem State.answer_regs (s : State) (f : Bytes) : (s.answer f).regs = s.regs := (rfl)
@[simp] theorem State.answer_board (s : State) (f : Bytes) : (s.answer f).board = s.board := (rfl)
@[simp] theorem State.answer_lasers (s : State) (f : Bytes) : (s.answer f).lasers = s.lasers := (rfl)
@[simp] theorem State.answer_sills (s : State) (f : Bytes) : (s.answer f).sills = s.sills := (rfl)
@[simp] theorem State.answer_injecting (s : State) (f : Bytes) : (s.answer f).injecting = s.injecting := (rfl)
@[simp] theorem State.answer_host (s : State) (f : Bytes) : (s.answer f).host = s.host := (rfl)
@[simp] theorem State.answer_dxn (s : State) (f : Bytes) : (s.answer f).dxn = s.dxn := (rfl)
@[simp] theorem State.answer_ports (s : State) (f : Bytes) : (s.answer f).ports = s.ports := (rfl)
@[simp] theorem State.answer_fwd (s : State) (f : Bytes) : (s.answer f).fwd = s.fwd := (rfl)
@[simp] theorem State.answer_swc (s : State) (f : Bytes) : (s.answer f).swc = s.swc := (rfl)
@[simp] theorem State.answer_bsn (s : State) (f : Bytes) : (s.answer f).bsn = s.bsn := (rfl)
@[simp] theorem State.answer_ten (s : State) (f : Bytes) : (s.answer f).ten = s.ten := (rfl)
@[simp] theorem State.answer_spl (s : State) (f : Bytes) : (s.answer f).spl = s.spl := (rfl)
@[simp] theorem State.answer_tim (s : State) (f : Bytes) : (s.answer f).tim = s.tim := (rfl)
@[simp] theorem State.answer_mem (s : State) (f : Bytes) : (s.answer f).mem = s.mem := (rfl)
@[simp] theorem State.answer_pwr (s : State) (f : Bytes) : (s.answer f).pwr = s.pwr := (rfl)
@[simp] theorem State.answer_sec (s : State) (f : Bytes) : (s.answer f).sec = s.sec := (rfl)
@[simp] theorem State.answer_cfg (s : State) (f : Bytes) : (s.answer f).cfg = s.cfg := (rfl)
@[simp] theorem State.answer_pln (s : State) (f : Bytes) : (s.answer f).pln = s.pln := (rfl)
@[simp] theorem State.answer_ldg (s : State) (f : Bytes) : (s.answer f).ldg = s.ldg := (rfl)
@[simp] theorem State.answer_cnt (s : State) (f : Bytes) : (s.answer f).cnt = s.cnt := (rfl)
@[simp] theorem State.answer_free (s : State) (f : Bytes) : (s.answer f).free = s.free := (rfl)
@[simp] theorem State.answer_pending (s : State) (f : Bytes) : (s.answer f).pending = s.pending := (rfl)
@[simp] theorem State.answer_rd (s : State) (f : Bytes) (o : Nat) : (s.answer f).rd o = s.rd o := (rfl)
@[simp] theorem State.answer_fld (s : State) (f : Bytes) (o : Nat) (g : Fld) : (s.answer f).fld o g = s.fld o g := rfl

/-! ## State.logEntry -/

@[simp] theorem State.logEntry_board (s : State) (head : Nat) (entry info : Nat → Nat) (size : Nat) (a b : Word) : (s.logEntry head entry info size a b).board = s.board := (rfl)
@[simp] theorem State.logEntry_lasers (s : State) (head : Nat) (entry info : Nat → Nat) (size : Nat) (a b : Word) : (s.logEntry head entry info size a b).lasers = s.lasers := (rfl)
@[simp] theorem State.logEntry_sills (s : State) (head : Nat) (entry info : Nat → Nat) (size : Nat) (a b : Word) : (s.logEntry head entry info size a b).sills = s.sills := (rfl)
@[simp] theorem State.logEntry_injecting (s : State) (head : Nat) (entry info : Nat → Nat) (size : Nat) (a b : Word) : (s.logEntry head entry info size a b).injecting = s.injecting := (rfl)
@[simp] theorem State.logEntry_out (s : State) (head : Nat) (entry info : Nat → Nat) (size : Nat) (a b : Word) : (s.logEntry head entry info size a b).out = s.out := (rfl)
@[simp] theorem State.logEntry_host (s : State) (head : Nat) (entry info : Nat → Nat) (size : Nat) (a b : Word) : (s.logEntry head entry info size a b).host = s.host := (rfl)
@[simp] theorem State.logEntry_dxn (s : State) (head : Nat) (entry info : Nat → Nat) (size : Nat) (a b : Word) : (s.logEntry head entry info size a b).dxn = s.dxn := (rfl)
@[simp] theorem State.logEntry_ports (s : State) (head : Nat) (entry info : Nat → Nat) (size : Nat) (a b : Word) : (s.logEntry head entry info size a b).ports = s.ports := (rfl)
@[simp] theorem State.logEntry_fwd (s : State) (head : Nat) (entry info : Nat → Nat) (size : Nat) (a b : Word) : (s.logEntry head entry info size a b).fwd = s.fwd := (rfl)
@[simp] theorem State.logEntry_swc (s : State) (head : Nat) (entry info : Nat → Nat) (size : Nat) (a b : Word) : (s.logEntry head entry info size a b).swc = s.swc := (rfl)
@[simp] theorem State.logEntry_bsn (s : State) (head : Nat) (entry info : Nat → Nat) (size : Nat) (a b : Word) : (s.logEntry head entry info size a b).bsn = s.bsn := (rfl)
@[simp] theorem State.logEntry_ten (s : State) (head : Nat) (entry info : Nat → Nat) (size : Nat) (a b : Word) : (s.logEntry head entry info size a b).ten = s.ten := (rfl)
@[simp] theorem State.logEntry_spl (s : State) (head : Nat) (entry info : Nat → Nat) (size : Nat) (a b : Word) : (s.logEntry head entry info size a b).spl = s.spl := (rfl)
@[simp] theorem State.logEntry_tim (s : State) (head : Nat) (entry info : Nat → Nat) (size : Nat) (a b : Word) : (s.logEntry head entry info size a b).tim = s.tim := (rfl)
@[simp] theorem State.logEntry_mem (s : State) (head : Nat) (entry info : Nat → Nat) (size : Nat) (a b : Word) : (s.logEntry head entry info size a b).mem = s.mem := (rfl)
@[simp] theorem State.logEntry_pwr (s : State) (head : Nat) (entry info : Nat → Nat) (size : Nat) (a b : Word) : (s.logEntry head entry info size a b).pwr = s.pwr := (rfl)
@[simp] theorem State.logEntry_sec (s : State) (head : Nat) (entry info : Nat → Nat) (size : Nat) (a b : Word) : (s.logEntry head entry info size a b).sec = s.sec := (rfl)
@[simp] theorem State.logEntry_cfg (s : State) (head : Nat) (entry info : Nat → Nat) (size : Nat) (a b : Word) : (s.logEntry head entry info size a b).cfg = s.cfg := (rfl)
@[simp] theorem State.logEntry_pln (s : State) (head : Nat) (entry info : Nat → Nat) (size : Nat) (a b : Word) : (s.logEntry head entry info size a b).pln = s.pln := (rfl)
@[simp] theorem State.logEntry_ldg (s : State) (head : Nat) (entry info : Nat → Nat) (size : Nat) (a b : Word) : (s.logEntry head entry info size a b).ldg = s.ldg := (rfl)
@[simp] theorem State.logEntry_cnt (s : State) (head : Nat) (entry info : Nat → Nat) (size : Nat) (a b : Word) : (s.logEntry head entry info size a b).cnt = s.cnt := (rfl)
@[simp] theorem State.logEntry_free (s : State) (head : Nat) (entry info : Nat → Nat) (size : Nat) (a b : Word) : (s.logEntry head entry info size a b).free = s.free := (rfl)
@[simp] theorem State.logEntry_pending (s : State) (head : Nat) (entry info : Nat → Nat) (size : Nat) (a b : Word) : (s.logEntry head entry info size a b).pending = s.pending := (rfl)

/-! ## State.hostWrite -/

@[simp] theorem State.hostWrite_regs (s : State) (a : Word) (b : Bytes) : (s.hostWrite a b).regs = s.regs := (rfl)
@[simp] theorem State.hostWrite_board (s : State) (a : Word) (b : Bytes) : (s.hostWrite a b).board = s.board := (rfl)
@[simp] theorem State.hostWrite_lasers (s : State) (a : Word) (b : Bytes) : (s.hostWrite a b).lasers = s.lasers := (rfl)
@[simp] theorem State.hostWrite_sills (s : State) (a : Word) (b : Bytes) : (s.hostWrite a b).sills = s.sills := (rfl)
@[simp] theorem State.hostWrite_injecting (s : State) (a : Word) (b : Bytes) : (s.hostWrite a b).injecting = s.injecting := (rfl)
@[simp] theorem State.hostWrite_host (s : State) (a : Word) (b : Bytes) : (s.hostWrite a b).host = s.host := (rfl)
@[simp] theorem State.hostWrite_dxn (s : State) (a : Word) (b : Bytes) : (s.hostWrite a b).dxn = s.dxn := (rfl)
@[simp] theorem State.hostWrite_ports (s : State) (a : Word) (b : Bytes) : (s.hostWrite a b).ports = s.ports := (rfl)
@[simp] theorem State.hostWrite_fwd (s : State) (a : Word) (b : Bytes) : (s.hostWrite a b).fwd = s.fwd := (rfl)
@[simp] theorem State.hostWrite_swc (s : State) (a : Word) (b : Bytes) : (s.hostWrite a b).swc = s.swc := (rfl)
@[simp] theorem State.hostWrite_bsn (s : State) (a : Word) (b : Bytes) : (s.hostWrite a b).bsn = s.bsn := (rfl)
@[simp] theorem State.hostWrite_ten (s : State) (a : Word) (b : Bytes) : (s.hostWrite a b).ten = s.ten := (rfl)
@[simp] theorem State.hostWrite_spl (s : State) (a : Word) (b : Bytes) : (s.hostWrite a b).spl = s.spl := (rfl)
@[simp] theorem State.hostWrite_tim (s : State) (a : Word) (b : Bytes) : (s.hostWrite a b).tim = s.tim := (rfl)
@[simp] theorem State.hostWrite_mem (s : State) (a : Word) (b : Bytes) : (s.hostWrite a b).mem = s.mem := (rfl)
@[simp] theorem State.hostWrite_pwr (s : State) (a : Word) (b : Bytes) : (s.hostWrite a b).pwr = s.pwr := (rfl)
@[simp] theorem State.hostWrite_sec (s : State) (a : Word) (b : Bytes) : (s.hostWrite a b).sec = s.sec := (rfl)
@[simp] theorem State.hostWrite_cfg (s : State) (a : Word) (b : Bytes) : (s.hostWrite a b).cfg = s.cfg := (rfl)
@[simp] theorem State.hostWrite_pln (s : State) (a : Word) (b : Bytes) : (s.hostWrite a b).pln = s.pln := (rfl)
@[simp] theorem State.hostWrite_ldg (s : State) (a : Word) (b : Bytes) : (s.hostWrite a b).ldg = s.ldg := (rfl)
@[simp] theorem State.hostWrite_cnt (s : State) (a : Word) (b : Bytes) : (s.hostWrite a b).cnt = s.cnt := (rfl)
@[simp] theorem State.hostWrite_free (s : State) (a : Word) (b : Bytes) : (s.hostWrite a b).free = s.free := (rfl)
@[simp] theorem State.hostWrite_pending (s : State) (a : Word) (b : Bytes) : (s.hostWrite a b).pending = s.pending := (rfl)
@[simp] theorem State.hostWrite_rd (s : State) (a : Word) (b : Bytes) (o : Nat) : (s.hostWrite a b).rd o = s.rd o := (rfl)
@[simp] theorem State.hostWrite_fld (s : State) (a : Word) (b : Bytes) (o : Nat) (g : Fld) : (s.hostWrite a b).fld o g = s.fld o g := rfl

/-! ## State.faultLog -/

@[simp] theorem State.faultLog_board (s : State) (code agent : Nat) (domain : BitVec 12) (index who : Nat) (info : Word) : (s.faultLog code agent domain index who info).board = s.board := State.logEntry_board ..
@[simp] theorem State.faultLog_lasers (s : State) (code agent : Nat) (domain : BitVec 12) (index who : Nat) (info : Word) : (s.faultLog code agent domain index who info).lasers = s.lasers := State.logEntry_lasers ..
@[simp] theorem State.faultLog_sills (s : State) (code agent : Nat) (domain : BitVec 12) (index who : Nat) (info : Word) : (s.faultLog code agent domain index who info).sills = s.sills := State.logEntry_sills ..
@[simp] theorem State.faultLog_injecting (s : State) (code agent : Nat) (domain : BitVec 12) (index who : Nat) (info : Word) : (s.faultLog code agent domain index who info).injecting = s.injecting := State.logEntry_injecting ..
@[simp] theorem State.faultLog_out (s : State) (code agent : Nat) (domain : BitVec 12) (index who : Nat) (info : Word) : (s.faultLog code agent domain index who info).out = s.out := State.logEntry_out ..
@[simp] theorem State.faultLog_host (s : State) (code agent : Nat) (domain : BitVec 12) (index who : Nat) (info : Word) : (s.faultLog code agent domain index who info).host = s.host := State.logEntry_host ..
@[simp] theorem State.faultLog_dxn (s : State) (code agent : Nat) (domain : BitVec 12) (index who : Nat) (info : Word) : (s.faultLog code agent domain index who info).dxn = s.dxn := State.logEntry_dxn ..
@[simp] theorem State.faultLog_ports (s : State) (code agent : Nat) (domain : BitVec 12) (index who : Nat) (info : Word) : (s.faultLog code agent domain index who info).ports = s.ports := State.logEntry_ports ..
@[simp] theorem State.faultLog_fwd (s : State) (code agent : Nat) (domain : BitVec 12) (index who : Nat) (info : Word) : (s.faultLog code agent domain index who info).fwd = s.fwd := State.logEntry_fwd ..
@[simp] theorem State.faultLog_swc (s : State) (code agent : Nat) (domain : BitVec 12) (index who : Nat) (info : Word) : (s.faultLog code agent domain index who info).swc = s.swc := State.logEntry_swc ..
@[simp] theorem State.faultLog_bsn (s : State) (code agent : Nat) (domain : BitVec 12) (index who : Nat) (info : Word) : (s.faultLog code agent domain index who info).bsn = s.bsn := State.logEntry_bsn ..
@[simp] theorem State.faultLog_ten (s : State) (code agent : Nat) (domain : BitVec 12) (index who : Nat) (info : Word) : (s.faultLog code agent domain index who info).ten = s.ten := State.logEntry_ten ..
@[simp] theorem State.faultLog_spl (s : State) (code agent : Nat) (domain : BitVec 12) (index who : Nat) (info : Word) : (s.faultLog code agent domain index who info).spl = s.spl := State.logEntry_spl ..
@[simp] theorem State.faultLog_tim (s : State) (code agent : Nat) (domain : BitVec 12) (index who : Nat) (info : Word) : (s.faultLog code agent domain index who info).tim = s.tim := State.logEntry_tim ..
@[simp] theorem State.faultLog_mem (s : State) (code agent : Nat) (domain : BitVec 12) (index who : Nat) (info : Word) : (s.faultLog code agent domain index who info).mem = s.mem := State.logEntry_mem ..
@[simp] theorem State.faultLog_pwr (s : State) (code agent : Nat) (domain : BitVec 12) (index who : Nat) (info : Word) : (s.faultLog code agent domain index who info).pwr = s.pwr := State.logEntry_pwr ..
@[simp] theorem State.faultLog_sec (s : State) (code agent : Nat) (domain : BitVec 12) (index who : Nat) (info : Word) : (s.faultLog code agent domain index who info).sec = s.sec := State.logEntry_sec ..
@[simp] theorem State.faultLog_cfg (s : State) (code agent : Nat) (domain : BitVec 12) (index who : Nat) (info : Word) : (s.faultLog code agent domain index who info).cfg = s.cfg := State.logEntry_cfg ..
@[simp] theorem State.faultLog_pln (s : State) (code agent : Nat) (domain : BitVec 12) (index who : Nat) (info : Word) : (s.faultLog code agent domain index who info).pln = s.pln := State.logEntry_pln ..
@[simp] theorem State.faultLog_ldg (s : State) (code agent : Nat) (domain : BitVec 12) (index who : Nat) (info : Word) : (s.faultLog code agent domain index who info).ldg = s.ldg := State.logEntry_ldg ..
@[simp] theorem State.faultLog_cnt (s : State) (code agent : Nat) (domain : BitVec 12) (index who : Nat) (info : Word) : (s.faultLog code agent domain index who info).cnt = s.cnt := State.logEntry_cnt ..
@[simp] theorem State.faultLog_free (s : State) (code agent : Nat) (domain : BitVec 12) (index who : Nat) (info : Word) : (s.faultLog code agent domain index who info).free = s.free := State.logEntry_free ..
@[simp] theorem State.faultLog_pending (s : State) (code agent : Nat) (domain : BitVec 12) (index who : Nat) (info : Word) : (s.faultLog code agent domain index who info).pending = s.pending := State.logEntry_pending ..

/-! ## State.prtEvent -/

@[simp] theorem State.prtEvent_board (s : State) (kind port partnerPort : Nat) (identity : Word) : (s.prtEvent kind port partnerPort identity).board = s.board := (State.raise_board ..).trans (State.logEntry_board ..)
@[simp] theorem State.prtEvent_lasers (s : State) (kind port partnerPort : Nat) (identity : Word) : (s.prtEvent kind port partnerPort identity).lasers = s.lasers := (State.raise_lasers ..).trans (State.logEntry_lasers ..)
@[simp] theorem State.prtEvent_sills (s : State) (kind port partnerPort : Nat) (identity : Word) : (s.prtEvent kind port partnerPort identity).sills = s.sills := (State.raise_sills ..).trans (State.logEntry_sills ..)
@[simp] theorem State.prtEvent_injecting (s : State) (kind port partnerPort : Nat) (identity : Word) : (s.prtEvent kind port partnerPort identity).injecting = s.injecting := (State.raise_injecting ..).trans (State.logEntry_injecting ..)
@[simp] theorem State.prtEvent_host (s : State) (kind port partnerPort : Nat) (identity : Word) : (s.prtEvent kind port partnerPort identity).host = s.host := (State.raise_host ..).trans (State.logEntry_host ..)
@[simp] theorem State.prtEvent_dxn (s : State) (kind port partnerPort : Nat) (identity : Word) : (s.prtEvent kind port partnerPort identity).dxn = s.dxn := (State.raise_dxn ..).trans (State.logEntry_dxn ..)
@[simp] theorem State.prtEvent_ports (s : State) (kind port partnerPort : Nat) (identity : Word) : (s.prtEvent kind port partnerPort identity).ports = s.ports := (State.raise_ports ..).trans (State.logEntry_ports ..)
@[simp] theorem State.prtEvent_fwd (s : State) (kind port partnerPort : Nat) (identity : Word) : (s.prtEvent kind port partnerPort identity).fwd = s.fwd := (State.raise_fwd ..).trans (State.logEntry_fwd ..)
@[simp] theorem State.prtEvent_swc (s : State) (kind port partnerPort : Nat) (identity : Word) : (s.prtEvent kind port partnerPort identity).swc = s.swc := (State.raise_swc ..).trans (State.logEntry_swc ..)
@[simp] theorem State.prtEvent_bsn (s : State) (kind port partnerPort : Nat) (identity : Word) : (s.prtEvent kind port partnerPort identity).bsn = s.bsn := (State.raise_bsn ..).trans (State.logEntry_bsn ..)
@[simp] theorem State.prtEvent_ten (s : State) (kind port partnerPort : Nat) (identity : Word) : (s.prtEvent kind port partnerPort identity).ten = s.ten := (State.raise_ten ..).trans (State.logEntry_ten ..)
@[simp] theorem State.prtEvent_spl (s : State) (kind port partnerPort : Nat) (identity : Word) : (s.prtEvent kind port partnerPort identity).spl = s.spl := (State.raise_spl ..).trans (State.logEntry_spl ..)
@[simp] theorem State.prtEvent_tim (s : State) (kind port partnerPort : Nat) (identity : Word) : (s.prtEvent kind port partnerPort identity).tim = s.tim := (State.raise_tim ..).trans (State.logEntry_tim ..)
@[simp] theorem State.prtEvent_mem (s : State) (kind port partnerPort : Nat) (identity : Word) : (s.prtEvent kind port partnerPort identity).mem = s.mem := (State.raise_mem ..).trans (State.logEntry_mem ..)
@[simp] theorem State.prtEvent_pwr (s : State) (kind port partnerPort : Nat) (identity : Word) : (s.prtEvent kind port partnerPort identity).pwr = s.pwr := (State.raise_pwr ..).trans (State.logEntry_pwr ..)
@[simp] theorem State.prtEvent_sec (s : State) (kind port partnerPort : Nat) (identity : Word) : (s.prtEvent kind port partnerPort identity).sec = s.sec := (State.raise_sec ..).trans (State.logEntry_sec ..)
@[simp] theorem State.prtEvent_cfg (s : State) (kind port partnerPort : Nat) (identity : Word) : (s.prtEvent kind port partnerPort identity).cfg = s.cfg := (State.raise_cfg ..).trans (State.logEntry_cfg ..)
@[simp] theorem State.prtEvent_pln (s : State) (kind port partnerPort : Nat) (identity : Word) : (s.prtEvent kind port partnerPort identity).pln = s.pln := (State.raise_pln ..).trans (State.logEntry_pln ..)
@[simp] theorem State.prtEvent_ldg (s : State) (kind port partnerPort : Nat) (identity : Word) : (s.prtEvent kind port partnerPort identity).ldg = s.ldg := (State.raise_ldg ..).trans (State.logEntry_ldg ..)
@[simp] theorem State.prtEvent_free (s : State) (kind port partnerPort : Nat) (identity : Word) : (s.prtEvent kind port partnerPort identity).free = s.free := (State.raise_free ..).trans (State.logEntry_free ..)
@[simp] theorem State.prtEvent_pending (s : State) (kind port partnerPort : Nat) (identity : Word) : (s.prtEvent kind port partnerPort identity).pending = s.pending := (State.raise_pending ..).trans (State.logEntry_pending ..)

/-! ## State.thmEvent -/

@[simp] theorem State.thmEvent_board (s : State) (kind place fromT toT pace : Nat) : (s.thmEvent kind place fromT toT pace).board = s.board := (State.raise_board ..).trans (State.logEntry_board ..)
@[simp] theorem State.thmEvent_lasers (s : State) (kind place fromT toT pace : Nat) : (s.thmEvent kind place fromT toT pace).lasers = s.lasers := (State.raise_lasers ..).trans (State.logEntry_lasers ..)
@[simp] theorem State.thmEvent_sills (s : State) (kind place fromT toT pace : Nat) : (s.thmEvent kind place fromT toT pace).sills = s.sills := (State.raise_sills ..).trans (State.logEntry_sills ..)
@[simp] theorem State.thmEvent_injecting (s : State) (kind place fromT toT pace : Nat) : (s.thmEvent kind place fromT toT pace).injecting = s.injecting := (State.raise_injecting ..).trans (State.logEntry_injecting ..)
@[simp] theorem State.thmEvent_host (s : State) (kind place fromT toT pace : Nat) : (s.thmEvent kind place fromT toT pace).host = s.host := (State.raise_host ..).trans (State.logEntry_host ..)
@[simp] theorem State.thmEvent_dxn (s : State) (kind place fromT toT pace : Nat) : (s.thmEvent kind place fromT toT pace).dxn = s.dxn := (State.raise_dxn ..).trans (State.logEntry_dxn ..)
@[simp] theorem State.thmEvent_ports (s : State) (kind place fromT toT pace : Nat) : (s.thmEvent kind place fromT toT pace).ports = s.ports := (State.raise_ports ..).trans (State.logEntry_ports ..)
@[simp] theorem State.thmEvent_fwd (s : State) (kind place fromT toT pace : Nat) : (s.thmEvent kind place fromT toT pace).fwd = s.fwd := (State.raise_fwd ..).trans (State.logEntry_fwd ..)
@[simp] theorem State.thmEvent_swc (s : State) (kind place fromT toT pace : Nat) : (s.thmEvent kind place fromT toT pace).swc = s.swc := (State.raise_swc ..).trans (State.logEntry_swc ..)
@[simp] theorem State.thmEvent_bsn (s : State) (kind place fromT toT pace : Nat) : (s.thmEvent kind place fromT toT pace).bsn = s.bsn := (State.raise_bsn ..).trans (State.logEntry_bsn ..)
@[simp] theorem State.thmEvent_ten (s : State) (kind place fromT toT pace : Nat) : (s.thmEvent kind place fromT toT pace).ten = s.ten := (State.raise_ten ..).trans (State.logEntry_ten ..)
@[simp] theorem State.thmEvent_spl (s : State) (kind place fromT toT pace : Nat) : (s.thmEvent kind place fromT toT pace).spl = s.spl := (State.raise_spl ..).trans (State.logEntry_spl ..)
@[simp] theorem State.thmEvent_tim (s : State) (kind place fromT toT pace : Nat) : (s.thmEvent kind place fromT toT pace).tim = s.tim := (State.raise_tim ..).trans (State.logEntry_tim ..)
@[simp] theorem State.thmEvent_mem (s : State) (kind place fromT toT pace : Nat) : (s.thmEvent kind place fromT toT pace).mem = s.mem := (State.raise_mem ..).trans (State.logEntry_mem ..)
@[simp] theorem State.thmEvent_pwr (s : State) (kind place fromT toT pace : Nat) : (s.thmEvent kind place fromT toT pace).pwr = s.pwr := (State.raise_pwr ..).trans (State.logEntry_pwr ..)
@[simp] theorem State.thmEvent_sec (s : State) (kind place fromT toT pace : Nat) : (s.thmEvent kind place fromT toT pace).sec = s.sec := (State.raise_sec ..).trans (State.logEntry_sec ..)
@[simp] theorem State.thmEvent_cfg (s : State) (kind place fromT toT pace : Nat) : (s.thmEvent kind place fromT toT pace).cfg = s.cfg := (State.raise_cfg ..).trans (State.logEntry_cfg ..)
@[simp] theorem State.thmEvent_pln (s : State) (kind place fromT toT pace : Nat) : (s.thmEvent kind place fromT toT pace).pln = s.pln := (State.raise_pln ..).trans (State.logEntry_pln ..)
@[simp] theorem State.thmEvent_ldg (s : State) (kind place fromT toT pace : Nat) : (s.thmEvent kind place fromT toT pace).ldg = s.ldg := (State.raise_ldg ..).trans (State.logEntry_ldg ..)
@[simp] theorem State.thmEvent_free (s : State) (kind place fromT toT pace : Nat) : (s.thmEvent kind place fromT toT pace).free = s.free := (State.raise_free ..).trans (State.logEntry_free ..)
@[simp] theorem State.thmEvent_pending (s : State) (kind place fromT toT pace : Nat) : (s.thmEvent kind place fromT toT pace).pending = s.pending := (State.raise_pending ..).trans (State.logEntry_pending ..)

/-! ## State.ldgPut -/

@[simp] theorem State.ldgPut_regs (s : State) (off n v : Nat) : (s.ldgPut off n v).regs = s.regs := (rfl)
@[simp] theorem State.ldgPut_board (s : State) (off n v : Nat) : (s.ldgPut off n v).board = s.board := (rfl)
@[simp] theorem State.ldgPut_lasers (s : State) (off n v : Nat) : (s.ldgPut off n v).lasers = s.lasers := (rfl)
@[simp] theorem State.ldgPut_sills (s : State) (off n v : Nat) : (s.ldgPut off n v).sills = s.sills := (rfl)
@[simp] theorem State.ldgPut_injecting (s : State) (off n v : Nat) : (s.ldgPut off n v).injecting = s.injecting := (rfl)
@[simp] theorem State.ldgPut_out (s : State) (off n v : Nat) : (s.ldgPut off n v).out = s.out := (rfl)
@[simp] theorem State.ldgPut_host (s : State) (off n v : Nat) : (s.ldgPut off n v).host = s.host := (rfl)
@[simp] theorem State.ldgPut_dxn (s : State) (off n v : Nat) : (s.ldgPut off n v).dxn = s.dxn := (rfl)
@[simp] theorem State.ldgPut_ports (s : State) (off n v : Nat) : (s.ldgPut off n v).ports = s.ports := (rfl)
@[simp] theorem State.ldgPut_fwd (s : State) (off n v : Nat) : (s.ldgPut off n v).fwd = s.fwd := (rfl)
@[simp] theorem State.ldgPut_swc (s : State) (off n v : Nat) : (s.ldgPut off n v).swc = s.swc := (rfl)
@[simp] theorem State.ldgPut_bsn (s : State) (off n v : Nat) : (s.ldgPut off n v).bsn = s.bsn := (rfl)
@[simp] theorem State.ldgPut_ten (s : State) (off n v : Nat) : (s.ldgPut off n v).ten = s.ten := (rfl)
@[simp] theorem State.ldgPut_spl (s : State) (off n v : Nat) : (s.ldgPut off n v).spl = s.spl := (rfl)
@[simp] theorem State.ldgPut_tim (s : State) (off n v : Nat) : (s.ldgPut off n v).tim = s.tim := (rfl)
@[simp] theorem State.ldgPut_mem (s : State) (off n v : Nat) : (s.ldgPut off n v).mem = s.mem := (rfl)
@[simp] theorem State.ldgPut_pwr (s : State) (off n v : Nat) : (s.ldgPut off n v).pwr = s.pwr := (rfl)
@[simp] theorem State.ldgPut_sec (s : State) (off n v : Nat) : (s.ldgPut off n v).sec = s.sec := (rfl)
@[simp] theorem State.ldgPut_cfg (s : State) (off n v : Nat) : (s.ldgPut off n v).cfg = s.cfg := (rfl)
@[simp] theorem State.ldgPut_pln (s : State) (off n v : Nat) : (s.ldgPut off n v).pln = s.pln := (rfl)
@[simp] theorem State.ldgPut_cnt (s : State) (off n v : Nat) : (s.ldgPut off n v).cnt = s.cnt := (rfl)
@[simp] theorem State.ldgPut_free (s : State) (off n v : Nat) : (s.ldgPut off n v).free = s.free := (rfl)
@[simp] theorem State.ldgPut_pending (s : State) (off n v : Nat) : (s.ldgPut off n v).pending = s.pending := (rfl)
@[simp] theorem State.ldgPut_rd (s : State) (off n v : Nat) (o : Nat) : (s.ldgPut off n v).rd o = s.rd o := (rfl)
@[simp] theorem State.ldgPut_fld (s : State) (off n v : Nat) (o : Nat) (g : Fld) : (s.ldgPut off n v).fld o g = s.fld o g := rfl

/-! ## State.ldgAdd -/

@[simp] theorem State.ldgAdd_regs (s : State) (off n d : Nat) : (s.ldgAdd off n d).regs = s.regs := (rfl)
@[simp] theorem State.ldgAdd_board (s : State) (off n d : Nat) : (s.ldgAdd off n d).board = s.board := (rfl)
@[simp] theorem State.ldgAdd_lasers (s : State) (off n d : Nat) : (s.ldgAdd off n d).lasers = s.lasers := (rfl)
@[simp] theorem State.ldgAdd_sills (s : State) (off n d : Nat) : (s.ldgAdd off n d).sills = s.sills := (rfl)
@[simp] theorem State.ldgAdd_injecting (s : State) (off n d : Nat) : (s.ldgAdd off n d).injecting = s.injecting := (rfl)
@[simp] theorem State.ldgAdd_out (s : State) (off n d : Nat) : (s.ldgAdd off n d).out = s.out := (rfl)
@[simp] theorem State.ldgAdd_host (s : State) (off n d : Nat) : (s.ldgAdd off n d).host = s.host := (rfl)
@[simp] theorem State.ldgAdd_dxn (s : State) (off n d : Nat) : (s.ldgAdd off n d).dxn = s.dxn := (rfl)
@[simp] theorem State.ldgAdd_ports (s : State) (off n d : Nat) : (s.ldgAdd off n d).ports = s.ports := (rfl)
@[simp] theorem State.ldgAdd_fwd (s : State) (off n d : Nat) : (s.ldgAdd off n d).fwd = s.fwd := (rfl)
@[simp] theorem State.ldgAdd_swc (s : State) (off n d : Nat) : (s.ldgAdd off n d).swc = s.swc := (rfl)
@[simp] theorem State.ldgAdd_bsn (s : State) (off n d : Nat) : (s.ldgAdd off n d).bsn = s.bsn := (rfl)
@[simp] theorem State.ldgAdd_ten (s : State) (off n d : Nat) : (s.ldgAdd off n d).ten = s.ten := (rfl)
@[simp] theorem State.ldgAdd_spl (s : State) (off n d : Nat) : (s.ldgAdd off n d).spl = s.spl := (rfl)
@[simp] theorem State.ldgAdd_tim (s : State) (off n d : Nat) : (s.ldgAdd off n d).tim = s.tim := (rfl)
@[simp] theorem State.ldgAdd_mem (s : State) (off n d : Nat) : (s.ldgAdd off n d).mem = s.mem := (rfl)
@[simp] theorem State.ldgAdd_pwr (s : State) (off n d : Nat) : (s.ldgAdd off n d).pwr = s.pwr := (rfl)
@[simp] theorem State.ldgAdd_sec (s : State) (off n d : Nat) : (s.ldgAdd off n d).sec = s.sec := (rfl)
@[simp] theorem State.ldgAdd_cfg (s : State) (off n d : Nat) : (s.ldgAdd off n d).cfg = s.cfg := (rfl)
@[simp] theorem State.ldgAdd_pln (s : State) (off n d : Nat) : (s.ldgAdd off n d).pln = s.pln := (rfl)
@[simp] theorem State.ldgAdd_cnt (s : State) (off n d : Nat) : (s.ldgAdd off n d).cnt = s.cnt := (rfl)
@[simp] theorem State.ldgAdd_free (s : State) (off n d : Nat) : (s.ldgAdd off n d).free = s.free := (rfl)
@[simp] theorem State.ldgAdd_pending (s : State) (off n d : Nat) : (s.ldgAdd off n d).pending = s.pending := (rfl)
@[simp] theorem State.ldgAdd_rd (s : State) (off n d : Nat) (o : Nat) : (s.ldgAdd off n d).rd o = s.rd o := (rfl)
@[simp] theorem State.ldgAdd_fld (s : State) (off n d : Nat) (o : Nat) (g : Fld) : (s.ldgAdd off n d).fld o g = s.fld o g := rfl

/-! ## State.setCtx -/

@[simp] theorem State.setCtx_regs (s : State) (c : Ctx) (x : Context) : (s.setCtx c x).regs = s.regs := (rfl)
@[simp] theorem State.setCtx_board (s : State) (c : Ctx) (x : Context) : (s.setCtx c x).board = s.board := (rfl)
@[simp] theorem State.setCtx_lasers (s : State) (c : Ctx) (x : Context) : (s.setCtx c x).lasers = s.lasers := (rfl)
@[simp] theorem State.setCtx_sills (s : State) (c : Ctx) (x : Context) : (s.setCtx c x).sills = s.sills := (rfl)
@[simp] theorem State.setCtx_injecting (s : State) (c : Ctx) (x : Context) : (s.setCtx c x).injecting = s.injecting := (rfl)
@[simp] theorem State.setCtx_out (s : State) (c : Ctx) (x : Context) : (s.setCtx c x).out = s.out := (rfl)
@[simp] theorem State.setCtx_host (s : State) (c : Ctx) (x : Context) : (s.setCtx c x).host = s.host := (rfl)
@[simp] theorem State.setCtx_ports (s : State) (c : Ctx) (x : Context) : (s.setCtx c x).ports = s.ports := (rfl)
@[simp] theorem State.setCtx_fwd (s : State) (c : Ctx) (x : Context) : (s.setCtx c x).fwd = s.fwd := (rfl)
@[simp] theorem State.setCtx_swc (s : State) (c : Ctx) (x : Context) : (s.setCtx c x).swc = s.swc := (rfl)
@[simp] theorem State.setCtx_bsn (s : State) (c : Ctx) (x : Context) : (s.setCtx c x).bsn = s.bsn := (rfl)
@[simp] theorem State.setCtx_ten (s : State) (c : Ctx) (x : Context) : (s.setCtx c x).ten = s.ten := (rfl)
@[simp] theorem State.setCtx_spl (s : State) (c : Ctx) (x : Context) : (s.setCtx c x).spl = s.spl := (rfl)
@[simp] theorem State.setCtx_tim (s : State) (c : Ctx) (x : Context) : (s.setCtx c x).tim = s.tim := (rfl)
@[simp] theorem State.setCtx_mem (s : State) (c : Ctx) (x : Context) : (s.setCtx c x).mem = s.mem := (rfl)
@[simp] theorem State.setCtx_pwr (s : State) (c : Ctx) (x : Context) : (s.setCtx c x).pwr = s.pwr := (rfl)
@[simp] theorem State.setCtx_sec (s : State) (c : Ctx) (x : Context) : (s.setCtx c x).sec = s.sec := (rfl)
@[simp] theorem State.setCtx_cfg (s : State) (c : Ctx) (x : Context) : (s.setCtx c x).cfg = s.cfg := (rfl)
@[simp] theorem State.setCtx_pln (s : State) (c : Ctx) (x : Context) : (s.setCtx c x).pln = s.pln := (rfl)
@[simp] theorem State.setCtx_ldg (s : State) (c : Ctx) (x : Context) : (s.setCtx c x).ldg = s.ldg := (rfl)
@[simp] theorem State.setCtx_cnt (s : State) (c : Ctx) (x : Context) : (s.setCtx c x).cnt = s.cnt := (rfl)
@[simp] theorem State.setCtx_free (s : State) (c : Ctx) (x : Context) : (s.setCtx c x).free = s.free := (rfl)
@[simp] theorem State.setCtx_pending (s : State) (c : Ctx) (x : Context) : (s.setCtx c x).pending = s.pending := (rfl)
@[simp] theorem State.setCtx_rd (s : State) (c : Ctx) (x : Context) (o : Nat) : (s.setCtx c x).rd o = s.rd o := (rfl)
@[simp] theorem State.setCtx_fld (s : State) (c : Ctx) (x : Context) (o : Nat) (g : Fld) : (s.setCtx c x).fld o g = s.fld o g := rfl

/-! ## State.setPeg -/

@[simp] theorem State.setPeg_regs (s : State) (p : Nat) (v : Word) : (s.setPeg p v).regs = s.regs := (rfl)
@[simp] theorem State.setPeg_board (s : State) (p : Nat) (v : Word) : (s.setPeg p v).board = s.board := (rfl)
@[simp] theorem State.setPeg_lasers (s : State) (p : Nat) (v : Word) : (s.setPeg p v).lasers = s.lasers := (rfl)
@[simp] theorem State.setPeg_sills (s : State) (p : Nat) (v : Word) : (s.setPeg p v).sills = s.sills := (rfl)
@[simp] theorem State.setPeg_injecting (s : State) (p : Nat) (v : Word) : (s.setPeg p v).injecting = s.injecting := (rfl)
@[simp] theorem State.setPeg_out (s : State) (p : Nat) (v : Word) : (s.setPeg p v).out = s.out := (rfl)
@[simp] theorem State.setPeg_ports (s : State) (p : Nat) (v : Word) : (s.setPeg p v).ports = s.ports := (rfl)
@[simp] theorem State.setPeg_fwd (s : State) (p : Nat) (v : Word) : (s.setPeg p v).fwd = s.fwd := (rfl)
@[simp] theorem State.setPeg_swc (s : State) (p : Nat) (v : Word) : (s.setPeg p v).swc = s.swc := (rfl)
@[simp] theorem State.setPeg_bsn (s : State) (p : Nat) (v : Word) : (s.setPeg p v).bsn = s.bsn := (rfl)
@[simp] theorem State.setPeg_ten (s : State) (p : Nat) (v : Word) : (s.setPeg p v).ten = s.ten := (rfl)
@[simp] theorem State.setPeg_spl (s : State) (p : Nat) (v : Word) : (s.setPeg p v).spl = s.spl := (rfl)
@[simp] theorem State.setPeg_tim (s : State) (p : Nat) (v : Word) : (s.setPeg p v).tim = s.tim := (rfl)
@[simp] theorem State.setPeg_mem (s : State) (p : Nat) (v : Word) : (s.setPeg p v).mem = s.mem := (rfl)
@[simp] theorem State.setPeg_pwr (s : State) (p : Nat) (v : Word) : (s.setPeg p v).pwr = s.pwr := (rfl)
@[simp] theorem State.setPeg_sec (s : State) (p : Nat) (v : Word) : (s.setPeg p v).sec = s.sec := (rfl)
@[simp] theorem State.setPeg_cfg (s : State) (p : Nat) (v : Word) : (s.setPeg p v).cfg = s.cfg := (rfl)
@[simp] theorem State.setPeg_pln (s : State) (p : Nat) (v : Word) : (s.setPeg p v).pln = s.pln := (rfl)
@[simp] theorem State.setPeg_ldg (s : State) (p : Nat) (v : Word) : (s.setPeg p v).ldg = s.ldg := (rfl)
@[simp] theorem State.setPeg_cnt (s : State) (p : Nat) (v : Word) : (s.setPeg p v).cnt = s.cnt := (rfl)
@[simp] theorem State.setPeg_free (s : State) (p : Nat) (v : Word) : (s.setPeg p v).free = s.free := (rfl)
@[simp] theorem State.setPeg_pending (s : State) (p : Nat) (v : Word) : (s.setPeg p v).pending = s.pending := (rfl)
@[simp] theorem State.setPeg_rd (s : State) (p : Nat) (v : Word) (o : Nat) : (s.setPeg p v).rd o = s.rd o := (rfl)
@[simp] theorem State.setPeg_fld (s : State) (p : Nat) (v : Word) (o : Nat) (g : Fld) : (s.setPeg p v).fld o g = s.fld o g := rfl

/-! ## State.addPeg -/

@[simp] theorem State.addPeg_regs (s : State) (p : Nat) (v : Word) : (s.addPeg p v).regs = s.regs := (rfl)
@[simp] theorem State.addPeg_board (s : State) (p : Nat) (v : Word) : (s.addPeg p v).board = s.board := (rfl)
@[simp] theorem State.addPeg_lasers (s : State) (p : Nat) (v : Word) : (s.addPeg p v).lasers = s.lasers := (rfl)
@[simp] theorem State.addPeg_sills (s : State) (p : Nat) (v : Word) : (s.addPeg p v).sills = s.sills := (rfl)
@[simp] theorem State.addPeg_injecting (s : State) (p : Nat) (v : Word) : (s.addPeg p v).injecting = s.injecting := (rfl)
@[simp] theorem State.addPeg_out (s : State) (p : Nat) (v : Word) : (s.addPeg p v).out = s.out := (rfl)
@[simp] theorem State.addPeg_ports (s : State) (p : Nat) (v : Word) : (s.addPeg p v).ports = s.ports := (rfl)
@[simp] theorem State.addPeg_fwd (s : State) (p : Nat) (v : Word) : (s.addPeg p v).fwd = s.fwd := (rfl)
@[simp] theorem State.addPeg_swc (s : State) (p : Nat) (v : Word) : (s.addPeg p v).swc = s.swc := (rfl)
@[simp] theorem State.addPeg_bsn (s : State) (p : Nat) (v : Word) : (s.addPeg p v).bsn = s.bsn := (rfl)
@[simp] theorem State.addPeg_ten (s : State) (p : Nat) (v : Word) : (s.addPeg p v).ten = s.ten := (rfl)
@[simp] theorem State.addPeg_spl (s : State) (p : Nat) (v : Word) : (s.addPeg p v).spl = s.spl := (rfl)
@[simp] theorem State.addPeg_tim (s : State) (p : Nat) (v : Word) : (s.addPeg p v).tim = s.tim := (rfl)
@[simp] theorem State.addPeg_mem (s : State) (p : Nat) (v : Word) : (s.addPeg p v).mem = s.mem := (rfl)
@[simp] theorem State.addPeg_pwr (s : State) (p : Nat) (v : Word) : (s.addPeg p v).pwr = s.pwr := (rfl)
@[simp] theorem State.addPeg_sec (s : State) (p : Nat) (v : Word) : (s.addPeg p v).sec = s.sec := (rfl)
@[simp] theorem State.addPeg_cfg (s : State) (p : Nat) (v : Word) : (s.addPeg p v).cfg = s.cfg := (rfl)
@[simp] theorem State.addPeg_pln (s : State) (p : Nat) (v : Word) : (s.addPeg p v).pln = s.pln := (rfl)
@[simp] theorem State.addPeg_ldg (s : State) (p : Nat) (v : Word) : (s.addPeg p v).ldg = s.ldg := (rfl)
@[simp] theorem State.addPeg_cnt (s : State) (p : Nat) (v : Word) : (s.addPeg p v).cnt = s.cnt := (rfl)
@[simp] theorem State.addPeg_free (s : State) (p : Nat) (v : Word) : (s.addPeg p v).free = s.free := (rfl)
@[simp] theorem State.addPeg_pending (s : State) (p : Nat) (v : Word) : (s.addPeg p v).pending = s.pending := (rfl)
@[simp] theorem State.addPeg_rd (s : State) (p : Nat) (v : Word) (o : Nat) : (s.addPeg p v).rd o = s.rd o := (rfl)
@[simp] theorem State.addPeg_fld (s : State) (p : Nat) (v : Word) (o : Nat) (g : Fld) : (s.addPeg p v).fld o g = s.fld o g := rfl

end Sys2Proof.Machine
end

