-- ==== Sys2Proof/Laws/Dxn.lean ====
section
/-! SUPPORT. What issuing a Daxran instruction does, said once: an instruction that completes or takes a target leaves its
context at the next index, or at the target, and everything else as its effect leaves it. -/

namespace Sys2Proof.Machine

/-! ## Contexts -/

theorem ctxKey_inj {c d : Ctx} (h : ctxKey c = ctxKey d) : c = d := by
  cases c <;> cases d <;> simp only [ctxKey, tenonIx] at h
  · exact congrArg _ (Fin.ext h)
  · omega
  · omega
  · omega
  · rename_i e s f t
    have h1 : e = f := by ext; omega
    subst h1
    have h2 : s = t := by ext; omega
    rw [h2]
  · omega
  · omega
  · omega
  · rename_i q r k n q' r' k' n'
    have h4 : n = n' := by ext; omega
    subst h4
    have h3 : k = k' := by ext; omega
    subst h3
    have h2 : r = r' := by ext; omega
    subst h2
    have h1 : q = q' := by ext; omega
    rw [h1]

theorem State.ctx_setCtx_of_ne (s : State) {c d : Ctx} (x : Context) (h : d ≠ c) : (s.setCtx c x).ctx d = s.ctx d :=
  sget_sset_of_ne _ _ _ _ fun e => h (ctxKey_inj e)

/-- A context that is not free reads as it was set. -/
theorem State.ctx_setCtx_self (s : State) (c : Ctx) (x : Context) (h : x.status ≠ .free) : (s.setCtx c x).ctx c = x := by
  have hx : x ≠ {} := fun e => h (by rw [e])
  unfold State.ctx State.setCtx sset
  simp only [hx, if_false]
  exact sget_sput_self _ _ _ _

/-! ## Going on -/

theorem State.countIssued_dxn (s : State) (c : Ctx) : (s.countIssued c).dxn = s.dxn := by
  unfold State.countIssued; split <;> simp

theorem State.countIssued_frame (s : State) (c : Ctx) : s.countIssued c = { s with cnt := (s.countIssued c).cnt } := by
  unfold State.countIssued; split <;> rfl

theorem State.fetchCheck_of_fetches (s : State) (c : Ctx) (h : s.Fetches c (s.ctx c).pc) : s.fetchCheck c = s := by
  obtain ⟨w, hw, ha, hp⟩ := h
  unfold State.fetchCheck
  simp only [hw]
  split
  · rfl
  · have : (assigned (wOp w.toNat) && !(wOp w.toNat == 0x70 && decide (5 ≤ pOp w.toNat))) = true := by
      simp only [ha, Bool.true_and, Bool.not_eq_true', Bool.and_eq_false_iff, beq_eq_false_iff_ne, decide_eq_false_iff_not]
      by_cases h1 : wOp w.toNat = 0x70
      · exact .inr fun h2 => hp ⟨h1, h2⟩
      · exact .inl h1
    rw [if_pos this]

/-- A running context goes on at an index whose word some command spells. -/
theorem State.advance_goesTo (u : State) (c : Ctx) (pc : Nat) (hs : (u.ctx c).status = .running) (hf : u.Fetches c pc) :
    u.GoesTo c pc ((u.countIssued c).advance c pc) := by
  have hd : (u.countIssued c).ctx c = u.ctx c := by rw [State.ctx, State.ctx, u.countIssued_dxn c]
  unfold State.advance
  dsimp only
  rw [hd, if_pos hs]
  set y : Context := { u.ctx c with pc := pc, stalled := false } with hy
  have hyr : y.status ≠ .free := by rw [hy]; simp [hs]
  have hself := State.ctx_setCtx_self (u.countIssued c) c y hyr
  have hfetch : ((u.countIssued c).setCtx c y).fetchCheck c = (u.countIssued c).setCtx c y := by
    apply State.fetchCheck_of_fetches
    rw [State.Fetches, hself]
    exact hf
  rw [hfetch]
  refine ⟨hself, fun d h => ?_, ?_⟩
  · rw [State.ctx_setCtx_of_ne _ _ h, State.ctx, State.ctx, u.countIssued_dxn c]
  · rw [u.countIssued_frame c]; rfl

theorem State.issue_eq (s : State) (c : Ctx) (w : Nat) (locks : List Lock) (long : Bool) (k : State → Context → Res)
    (h : s.Issues c w locks long) : s.issue c w locks long k = s.finish c (k s (s.ctx c)) := by
  obtain ⟨h1, h2, h3, h4, h5⟩ := h
  unfold State.issue
  simp only [h1, h2, h3, ne_eq, not_true_eq_false, or_self, if_false]
  rw [if_neg]
  rintro (h | ⟨h, h'⟩)
  · simp [h4] at h
  · have := h5 h; omega

/-- An instruction that completes leaves what its effect leaves, and its context goes on at the next index. -/
theorem State.issue_go {s u : State} {c : Ctx} {w : Nat} {locks : List Lock} {long : Bool} {k : State → Context → Res}
    (h : s.Issues c w locks long) (hk : k s (s.ctx c) = .go u) (hs : (u.ctx c).status = .running)
    (hf : u.Fetches c ((s.ctx c).pc + 1)) : u.GoesTo c ((s.ctx c).pc + 1) (s.issue c w locks long k) := by
  rw [s.issue_eq c w locks long k h, hk]
  exact u.advance_goesTo c _ hs hf

/-- An instruction that takes a target leaves its context there. -/
theorem State.issue_jump {s u : State} {c : Ctx} {w pc : Nat} {locks : List Lock} {long : Bool} {k : State → Context → Res}
    (h : s.Issues c w locks long) (hk : k s (s.ctx c) = .jump u pc) (hs : (u.ctx c).status = .running)
    (hf : u.Fetches c pc) : u.GoesTo c pc (s.issue c w locks long k) := by
  rw [s.issue_eq c w locks long k h, hk]
  exact u.advance_goesTo c _ hs hf

/-- An instruction that raises a precise exception does nothing else. -/
theorem State.issue_fault {s t : State} {c : Ctx} {w code : Nat} {info : Word} {locks : List Lock} {long : Bool}
    {k : State → Context → Res} (h : s.Issues c w locks long) (hk : k s (s.ctx c) = .fault t code info) :
    s.issue c w locks long k = t.except c code (s.ctx c).pc info := by
  rw [s.issue_eq c w locks long k h, hk]; rfl

theorem State.Fetches.of_code {s u : State} {c : Ctx} {pc : Nat} (h : s.Fetches c pc) (hc : (u.ctx c).code = (s.ctx c).code) :
    u.Fetches c pc := by
  obtain ⟨w, h1, h2⟩ := h
  exact ⟨w, by rw [hc]; exact h1, h2⟩

/-- An instruction that can run and completes leaves what its effect leaves, at the next index. -/
theorem State.issue_steps {s u : State} {c : Ctx} {w : Nat} {locks : List Lock} {long : Bool} {k : State → Context → Res}
    (h : s.Runs c w locks long) (hk : k s (s.ctx c) = .go u) (hs : (u.ctx c).status = .running)
    (hc : (u.ctx c).code = (s.ctx c).code) : s.Steps c u (s.issue c w locks long k) :=
  State.issue_go h.1 hk hs (h.2.of_code hc)

/-- An instruction that changes its context alone, and not its status or code. -/
theorem State.issue_sets {s : State} {c : Ctx} {w : Nat} {locks : List Lock} {long : Bool} {k : State → Context → Res}
    {x : Context} (h : s.Runs c w locks long) (hk : k s (s.ctx c) = .go (s.setCtx c x)) (hs : x.status = (s.ctx c).status)
    (hc : x.code = (s.ctx c).code) : s.Steps c (s.setCtx c x) (s.issue c w locks long k) := by
  have hr : x.status = .running := by rw [hs]; exact h.1.1
  have hx : (s.setCtx c x).ctx c = x := State.ctx_setCtx_self s c x (by rw [hr]; simp)
  exact State.issue_steps h hk (by rw [hx]; exact hr) (by rw [hx]; exact hc)

end Sys2Proof.Machine
end

