-- ==== Sys2Proof/Laws/Lookup.lean ====
section
/-! SUPPORT. Looking an offset up in the register table: only the rows whose range meets the offset's neighbourhood matter, so a
lookup of a register of an array needs no walk over the whole table. -/

namespace Sys2Proof.Machine

/-- The distance from an array's base to its last element. -/
def lastOf : List (Nat × Nat) → Nat
  | [] => 0
  | (stride, count) :: t => stride * (count - 1) + lastOf t

theorem le_lastOf {d : Nat} {l : List (Nat × Nat)} (h : onDims d l = true) : d ≤ lastOf l := by
  induction l generalizing d with
  | nil => simp [onDims] at h; simp [lastOf, h]
  | cons p t ih =>
    obtain ⟨st, ct⟩ := p
    simp only [onDims, Bool.and_eq_true, decide_eq_true_eq] at h
    have h2 := ih h.2
    have h3 : st * (d / st) ≤ st * (ct - 1) := Nat.mul_le_mul_left _ (by omega)
    have h4 := Nat.div_add_mod d st
    simp only [lastOf]; omega

/-- The rows of a table that may hold an offset from `lo` to `hi`. -/
def rowsNear (l : List RegSpec) (lo hi : Nat) : List RegSpec :=
  l.filter fun r => decide (r.base ≤ hi) && decide (lo ≤ r.base + lastOf r.dims)

theorem findRegIn_near (l : List RegSpec) {lo hi off : Nat} (h1 : lo ≤ off) (h2 : off ≤ hi) :
    findRegIn l off = findRegIn (rowsNear l lo hi) off := by
  induction l with
  | nil => rfl
  | cons r t ih =>
    by_cases hr : (decide (r.base ≤ off) && onDims (off - r.base) r.dims) = true
    · have h3 : (decide (r.base ≤ hi) && decide (lo ≤ r.base + lastOf r.dims)) = true := by
        simp only [Bool.and_eq_true, decide_eq_true_eq] at hr ⊢
        have := le_lastOf hr.2
        omega
      rw [rowsNear, List.filter_cons, if_pos h3, findRegIn, findRegIn, if_pos hr, if_pos hr]
    · rw [findRegIn, if_neg hr, ih, rowsNear, rowsNear, List.filter_cons]
      split
      · rw [findRegIn, if_neg hr]
      · rfl

theorem findRegIn_append (l m : List RegSpec) (off : Nat) :
    findRegIn (l ++ m) off = (findRegIn l off).or (findRegIn m off) := by
  induction l with
  | nil => simp [findRegIn]
  | cons r t ih =>
    rw [List.cons_append, findRegIn, findRegIn]
    split
    · simp
    · exact ih

/-- No register of a part lies outside the part's bounds. -/
def RegBlock.bounded (b : RegBlock) : Bool := b.rows.all fun r => decide (b.lo ≤ r.base) && decide (r.base + lastOf r.dims ≤ b.hi)

theorem findRegIn_outside {l : List RegSpec} {lo hi off : Nat}
    (h : (l.all fun r => decide (lo ≤ r.base) && decide (r.base + lastOf r.dims ≤ hi)) = true) (ho : ¬(lo ≤ off ∧ off ≤ hi)) :
    findRegIn l off = none := by
  induction l with
  | nil => rfl
  | cons r t ih =>
    rw [List.all_cons, Bool.and_eq_true] at h
    rw [findRegIn, if_neg, ih h.2]
    intro hr
    simp only [Bool.and_eq_true, decide_eq_true_eq] at hr h
    have := le_lastOf hr.2
    omega

theorem findRegBlocks_eq (l : List RegBlock) (h : (l.all RegBlock.bounded) = true) (off : Nat) :
    findRegBlocks l off = findRegIn (l.flatMap RegBlock.rows) off := by
  induction l with
  | nil => rfl
  | cons b t ih =>
    rw [List.all_cons, Bool.and_eq_true] at h
    rw [findRegBlocks, List.flatMap_cons, findRegIn_append, ← ih h.2]
    split
    · split <;> simp [*]
    · rename_i hn
      rw [findRegIn_outside h.1 (by simpa using hn)]
      simp

/-- Looking an offset up part by part is looking it up in the whole field map. -/
theorem findReg_eq (off : Nat) : findReg off = findRegIn regTable off :=
  findRegBlocks_eq regBlocks (by decide +kernel) off

/-- A lookup looks at the rows near the offset alone. -/
theorem findReg_near {lo hi off : Nat} (l : List RegSpec) (h : rowsNear regTable lo hi = l) (h1 : lo ≤ off) (h2 : off ≤ hi) :
    findReg off = findRegIn l off := by rw [findReg_eq, findRegIn_near regTable h1 h2, h]

end Sys2Proof.Machine
end

