-- ==== Sys2Proof/Laws/Memory.lean ====
section
/-! SUPPORT. Device memory: a write gives the bytes written, leaves every other byte, and keeps the canonical form; every other
operation of memory leaves its bytes. -/

namespace Sys2Proof.Machine

/-! ## Sparse byte stores -/

theorem swf_swrite {m : Sparse Byte} (a : Nat) (b : Bytes) (h : swf (fun _ => 0) m = true) :
    swf (fun _ => 0) (swrite m a b) = true := by
  induction b generalizing m a with
  | nil => exact h
  | cons x t ih => exact ih _ (swf_sset (d := fun _ => 0) h)

/-- Bytes outside a write read as before. -/
theorem sget_swrite_of_outside (m : Sparse Byte) (a k : Nat) (b : Bytes) (h : k < a ∨ a + b.length ≤ k) :
    sget 0 (swrite m a b) k = sget 0 m k := by
  induction b generalizing m a with
  | nil => rfl
  | cons x t ih =>
    simp only [List.length_cons] at h
    rw [swrite, ih _ _ (by omega), sget_sset_of_ne _ _ _ _ (by omega)]

/-- Bytes of a write read as written. -/
theorem sget_swrite_inside {m : Sparse Byte} (a i : Nat) (b : Bytes) (h : swf (fun _ => 0) m = true) (hi : i < b.length) :
    sget 0 (swrite m a b) (a + i) = b[i] := by
  induction b generalizing m a i with
  | nil => simp at hi
  | cons x t ih =>
    have hw := swf_sset (d := fun _ => (0 : Byte)) (n := a) (x := x) h
    rw [swrite]
    cases i with
    | zero => rw [sget_swrite_of_outside _ _ _ _ (by omega), Nat.add_zero, sget_sset_self _ _ h]; rfl
    | succ i =>
      simp only [List.length_cons] at hi
      have := ih (a + 1) i hw (by omega)
      rw [show a + (i + 1) = a + 1 + i by omega, this]; rfl

/-! ## Device memory -/

/-- Waking bays leaves memory. -/
theorem State.wakeBays_mem (s : State) (l : List Nat) : (s.wakeBays l).mem = s.mem := by
  induction l generalizing s with
  | nil => rfl
  | cons n t ih =>
    have h : (s.wakeBay n).mem = s.mem := by unfold State.wakeBay; split <;> rfl
    exact (ih (s.wakeBay n)).trans h

/-- A write wakes the memory it reaches, and else changes nothing but memory's bytes and marks. -/
theorem State.devWrite_frame (s : State) (a : Nat) (b : Bytes) :
    s.devWrite a b = { s.memWake a b.length with
      mem := { s.mem with bytes := (s.devWrite a b).mem.bytes, poisoned := (s.devWrite a b).mem.poisoned } } := by
  have h : (s.memWake a b.length).mem = s.mem := s.wakeBays_mem _
  unfold State.devWrite
  rw [← h]
  generalize s.memWake a b.length = t
  dsimp only
  by_cases c : t.stackFailed a = true
  · rw [if_pos c]
  · rw [if_neg c]

/-- Memory's bytes after a write: as before where the stack failed training, else written. -/
theorem State.devWrite_bytes (s : State) (a : Nat) (b : Bytes) :
    (s.devWrite a b).mem.bytes =
      if (s.memWake a b.length).stackFailed a then s.mem.bytes else swrite s.mem.bytes a b := by
  have h : (s.memWake a b.length).mem = s.mem := s.wakeBays_mem _
  unfold State.devWrite
  rw [← h]
  generalize s.memWake a b.length = t
  dsimp only
  by_cases c : t.stackFailed a = true
  · rw [if_pos c, if_pos c]
  · rw [if_neg c, if_neg c]

theorem State.devWrite_wf (s : State) (a : Nat) (b : Bytes) (h : s.mem.wf = true) : (s.devWrite a b).mem.wf = true := by
  unfold Mem.wf
  rw [s.devWrite_bytes]
  split
  · exact h
  · exact swf_swrite a b h

/-- A write leaves every byte outside it. -/
theorem State.devWrite_outside (s : State) (a k : Nat) (b : Bytes) (h : k < a ∨ a + b.length ≤ k) :
    sget 0 (s.devWrite a b).mem.bytes k = sget 0 s.mem.bytes k := by
  rw [s.devWrite_bytes]
  split
  · rfl
  · exact sget_swrite_of_outside _ a k b h

/-- A write to memory that trained reads back. -/
theorem State.devWrite_inside (s : State) (a i : Nat) (b : Bytes) (h : s.mem.wf = true)
    (hf : (s.memWake a b.length).stackFailed a = false) (hi : i < b.length) :
    sget 0 (s.devWrite a b).mem.bytes (a + i) = b[i] := by
  rw [s.devWrite_bytes, if_neg (by simp [hf])]
  exact sget_swrite_inside a i b h hi

theorem State.reset_mem_wf : State.reset.mem.wf = true := (rfl)

end Sys2Proof.Machine
end

