-- ==== Sys2Proof/Laws/Reset.lean ====
section
/-! SUPPORT. What transfers to the laser sources, a reset and the stops of work change, said once for each. -/

namespace Sys2Proof.Machine

/-! ## Transfers to the laser sources change the multiplexers and what has been sent on LAS_I3C alone -/

/-- Two states that differ in the laser multiplexers and in what has been sent on LAS_I3C alone. -/
def SameButLas (s t : State) : Prop :=
  ∃ m o, t = { s with board := { s.board with lasMux := m }, out := { s.out with las := o } }

theorem SameButLas.refl (s : State) : SameButLas s s := ⟨s.board.lasMux, s.out.las, rfl⟩

theorem SameButLas.trans {s t u : State} (h : SameButLas s t) (k : SameButLas t u) : SameButLas s u := by
  obtain ⟨m, o, rfl⟩ := h
  obtain ⟨m', o', rfl⟩ := k
  exact ⟨m', o', rfl⟩

theorem foldl_rel {α β : Type} (R : α → α → Prop) (hr : ∀ a, R a a) (ht : ∀ a b c, R a b → R b c → R a c)
    (f : α → β → α) (hf : ∀ a x, R a (f a x)) (l : List β) (a : α) : R a (l.foldl f a) := by
  induction l generalizing a with
  | nil => exact hr a
  | cons x t ih => exact ht _ _ _ (hf a x) (ih _)

theorem State.lasMuxWrite_same (s : State) (m : Nat) (b : Byte) : SameButLas s (s.lasMuxWrite m b) := ⟨_, _, rfl⟩

theorem State.lasSelect_same (s : State) (e : Nat) : SameButLas s (s.lasSelect e) := by
  unfold State.lasSelect
  dsimp only
  have h := foldl_rel SameButLas .refl (fun _ _ _ => .trans)
    (fun (s : State) (m : Nat) => if m ≠ e / 8 ∧ sget 0 s.board.lasMux (0x70 + m) ≠ 0 then s.lasMuxWrite m 0 else s)
    (fun s m => by split; exacts [s.lasMuxWrite_same m 0, .refl s]) (List.range 4) s
  refine h.trans ?_
  split
  · exact .refl _
  · exact State.lasMuxWrite_same _ _ _

theorem State.lasRead_same (s : State) (e : Nat) : SameButLas s (s.lasRead e) :=
  (s.lasSelect_same e).trans ⟨_, _, rfl⟩

theorem State.lasSet_same (s : State) (e : Nat) (l : LaserLevel) : SameButLas s (s.lasSet e l) :=
  (s.lasSelect_same e).trans ⟨_, _, rfl⟩

theorem State.lasAllOff_same (s : State) : SameButLas s s.lasAllOff := by
  unfold State.lasAllOff
  exact foldl_rel SameButLas .refl (fun _ _ _ => .trans) _
    (fun s x => by split; exacts [.refl s, s.lasSet_same _ _]) _ _

/-! ## A reset -/

/-- What a reset leaves: every register but GLB_BOOT at its reset value, CAUSE and MODULE_RESETS as the reset gives them. -/
theorem State.restart_regs (s : State) (cause resets : Nat) :
    (s.restart cause resets).regs = (((({} : State).setFld R.GLB_BOOT F.GLB_BOOT_CAUSE cause)).setFld R.GLB_BOOT
      F.GLB_BOOT_MODULE_RESETS resets).regs := rfl

theorem State.rd_congr {s t : State} (h : s.regs = t.regs) (o : Nat) : s.rd o = t.rd o := by rw [State.rd, h, State.rd]

theorem State.restart_regsWf (s : State) (cause resets : Nat) : (s.restart cause resets).regsWf = true := by
  rw [State.regsWf, s.restart_regs]
  exact State.setFld_regsWf _ _ _ _ (State.setFld_regsWf _ _ _ _ rfl)

theorem State.restart_rd (s : State) (cause resets o : Nat) (h : o ≠ R.GLB_BOOT) :
    (s.restart cause resets).rd o = resetWord o := by
  rw [State.rd_congr (s.restart_regs cause resets), State.rd_setFld_of_ne _ _ _ h, State.rd_setFld_of_ne _ _ _ h]; rfl

theorem State.restart_cause (s : State) (cause resets : Nat) :
    (s.restart cause resets).fld R.GLB_BOOT F.GLB_BOOT_CAUSE = cause % 2 ^ F.GLB_BOOT_CAUSE.w := by
  rw [State.fld, State.rd_congr (s.restart_regs cause resets)]
  exact (State.fld_setFld_of_disjoint _ _ _ _ _ (State.setFld_regsWf _ _ _ _ rfl) (by decide) (by decide)).trans
    (State.fld_setFld_self _ _ _ _ rfl (by decide))

theorem State.restart_resets (s : State) (cause resets : Nat) :
    (s.restart cause resets).fld R.GLB_BOOT F.GLB_BOOT_MODULE_RESETS = resets % 2 ^ F.GLB_BOOT_MODULE_RESETS.w := by
  rw [State.fld, State.rd_congr (s.restart_regs cause resets)]
  exact State.fld_setFld_self _ _ _ _ (State.setFld_regsWf _ _ _ _ rfl) (by decide)

theorem State.restart_board (s : State) (cause resets : Nat) :
    ∃ m, (s.restart cause resets).board = { s.board with alertN := true, ppsOut := false, lasMux := m } := by
  obtain ⟨m, o, h⟩ := s.lasAllOff_same
  exact ⟨m, by show ({ s.lasAllOff.board with alertN := true, ppsOut := false } : Board) = _; rw [h]⟩

/-! ## Stops of work -/

/-- Two states that differ in their registers alone. -/
def SameButRegs (s t : State) : Prop := t = { s with regs := t.regs }

theorem SameButRegs.refl (s : State) : SameButRegs s s := rfl

theorem SameButRegs.trans {s t u : State} (h : SameButRegs s t) (k : SameButRegs t u) : SameButRegs s u := by
  unfold SameButRegs at *
  rw [k, h]

theorem State.setFld_same (s : State) (off : Nat) (f : Fld) (v : Nat) : SameButRegs s (s.setFld off f v) := rfl

theorem State.portsDown_same (s : State) : SameButRegs s s.portsDown := by
  unfold State.portsDown
  refine foldl_rel SameButRegs .refl (fun _ _ _ => .trans) _ (fun s p => ?_) _ _
  split
  · exact .refl s
  · exact (s.setFld_same ..).trans (State.setFld_same ..)

/-- What stopping work leaves: work, ports, tables and queues are gone; the rest is as it was but for registers and ALERT_N. -/
theorem State.shed_frame (s : State) : s.shed =
    { s with regs := s.shed.regs, sills := [], injecting := none, host := {}, dxn := {}, ports := [], fwd := {}, swc := {}
             bsn := {}, ten := {}, spl := {}, pwr := {}, board := { s.board with alertN := true }
             cfg := { s.cfg with checks := [], pendingL := [] } } := by
  have h : SameButRegs s ((((List.range 50).foldl (fun s n =>
      if 46 ≤ n ∧ n ≤ 48 then s else s.setFld (R.PWR_BAY_STATUS n) F.PWR_BAY_STATUS_STATE 5) s.portsDown).setFld
        R.HIF_LINK_STATUS F.HIF_LINK_STATUS_UP 0).setFld R.GLB_STATUS F.GLB_STATUS_FWD_ACTIVE 0) := by
    refine s.portsDown_same.trans (.trans ?_ ((State.setFld_same ..).trans (State.setFld_same ..)))
    refine foldl_rel SameButRegs .refl (fun _ _ _ => .trans) _ (fun s n => ?_) _ _
    split
    · exact .refl s
    · exact s.setFld_same ..
  unfold State.shed
  dsimp only
  rw [h]

end Sys2Proof.Machine
end

