-- ==== Sys2Proof/Tests/Slice0.lean ====
section
/-! SUPPORT. Tests of the model on small states. `witness_<Name>` shows, clause by clause, operands and a state that meet the
hypotheses of the statement of that name; the states are small variations of the running module `wRun`. -/

namespace Sys2Proof.Tests
open Sys2Proof Sys2Proof.Machine

set_option Elab.async false
set_option maxRecDepth 100000
set_option linter.unusedVariables false

/-! ## States -/

/-- A running module past start-up: t1 passed, READY, HOST and memory ready, forwarding off. -/
def wRun : State := { (({} : State).setFld R.GLB_BOOT F.GLB_BOOT_PHASE 5) with
  board := { place := .running, pwrGood := true, modRstN := true, perstN := true, pairA := true, pairB := true, pwrEn := true } }
/-- The module with its fused identity and its port 12's factory latencies replaced by plain numbers. -/
def wPlain (s : State) : State := { s with regs := sput (sput s.regs R.GLB_ID 0x77) (R.TIM_PORT_LAT 12) 0 }
/-- The module at a place of the power sequence. -/
def wAt (p : PowerPlace) : State := { wRun with board.place := p }
/-- The running module in a phase of start-up. -/
def wPhase (p : Nat) : State := { (({} : State).setFld R.GLB_BOOT F.GLB_BOOT_PHASE p) with
  board := wRun.board, cfg := { romDone := true, t1Passed := true, wellheadDown := true } }
/-- The running module with a laser source. -/
def wLaser (e : Nat) (l : Laser) : State := { wRun with lasers := [(e, l)] }
/-- A source at its setpoint. -/
def wLit : Laser := { present := true, serial := 7, passed := some 7, paired := true, level := .setpoint }
/-- Ring (1, 2) of engine 3. -/
def wRing : RingId := ⟨3, 1, 2⟩
/-- Engine 3 lit, that ring in a state. -/
def wRingAt (st : Nat) : State := (wLaser 3 wLit).setFld (ringReg wRing) F.OPT_RING_STATE st
/-- A bay in a state. -/
def wBay (n st : Nat) : State := wRun.setFld (R.PWR_BAY_STATUS n) F.PWR_BAY_STATUS_STATE st
/-- The module with a PSK in slot 2 and a session against it. -/
def wSession : State := { wRun with sec.psk := [(2, some 5)], sec.sessions := [(0, 2)] }
/-- Firmware bank B in transfer, two bytes taken. -/
def wTransfer : State := { wRun with sec.transfer := some (2, [1, 2]) }
/-- The low 56 bits of a K-format word. -/
def kBody (d a b c t m : Nat) : BitVec 56 :=
  BitVec.ofNat 56 (d * 2 ^ 51 + a * 2 ^ 46 + b * 2 ^ 41 + c * 2 ^ 36 + t * 2 ^ 32 + m * 2 ^ 24)
/-- The low 56 bits of an I-format word. -/
def iBody (d a t m imm : Nat) : BitVec 56 := BitVec.ofNat 56 (d * 2 ^ 51 + a * 2 ^ 46 + t * 2 ^ 42 + m * 2 ^ 32 + imm)
/-- The low 56 bits of an M-format word. -/
def mBody (d a sp wd count off : Nat) : BitVec 56 :=
  BitVec.ofNat 56 (d * 2 ^ 51 + a * 2 ^ 46 + sp * 2 ^ 42 + wd * 2 ^ 40 + count * 2 ^ 24 + off)
/-- A context with g registers. -/
def wX (g : Sparse Word) : Context := { g := g }
/-- The running module with a context about to issue a word, and NOP after it. -/
def wCodeW (c : Ctx) (w : Nat) (x : Context) : State := { wRun with
  dxn.ctxs := [(ctxKey c, { x with status := .running, version := 0x21, code := [BitVec.ofNat 64 w, 0xF0 * 2 ^ 56] })] }
/-- The same for an opcode and its low bits. -/
def wCode (c : Ctx) (op : Nat) (body : BitVec 56) (x : Context) : State := wCodeW c (dxnWord op body) x
/-- The low 52 bits of a PEG word. -/
def pegBody (peg scope imm : Nat) : BitVec 52 := BitVec.ofNat 52 (peg * 2 ^ 36 + scope * 2 ^ 32 + imm)
/-- The low 56 bits of a BR word. -/
def brBody (cond p imm : Nat) : BitVec 56 := BitVec.ofNat 56 (cond * 2 ^ 52 + p * 2 ^ 48 + imm)
/-- An unsigned image of one NOP for a profile, version 2.1. -/
def wImage (profile : Nat) : Bytes :=
  let code := leBytes 8 (0xF0 * 2 ^ 56)
  let h := leBytes 4 0x494E5844 ++ [2, 1, BitVec.ofNat 8 profile, 0] ++ leBytes 4 64 ++ leBytes 4 1 ++ leBytes 4 0 ++ leBytes 4 0 ++
    leBytes 4 0 ++ leBytes 4 0 ++ leBytes 4 0 ++ leBytes 4 (crc32c code) ++ List.replicate 20 0
  h ++ leBytes 4 (crc32c h) ++ code
/-- A B context with a collective instruction at its index: slot 2 of engine 1, operation `op` of group 3. -/
def wColl (op word : Nat) (x : Context) : State :=
  let s : State := (wCodeW (.b 1 2) word x).wr (R.BSN_SLOT 1 2) (slotWord 1 515 7 0 0)
  let r := leBytes 1 op ++ leBytes 1 0 ++ leBytes 2 515 ++ leBytes 1 12 ++ leBytes 1 0 ++ leBytes 2 7 ++ leBytes 4 1 ++ leBytes 12 0 ++
    leBytes 4 0 ++ leBytes 4 65536 ++ List.replicate 32 0
  s.setSlot 1 2 { record := r }
/-- A descriptor of truss 256: two neighbouring tenons of quadrant 1, no end bound outside. -/
def wTruss : Bytes := leBytes 2 256 ++ [2, 1] ++ List.replicate 60 0 ++ [2, 3, 0, 0, 2, 4, 0, 0]
/-- A frame of member 0 of group 515 for operation 7, of a kind and OPERATION. -/
def wFrame (kind op : Nat) : CollFrame :=
  { port := 5, hfhVersion := 2, domain := 0, group := 515, operation := op, chunk := 0, format := 0, kind := kind, version := 1, member := 0,
    opSeq := 7, code := 0, offset := 0, count := 32, sealCrc := 0, payload := List.replicate 256 1, cells := 2, stored := 99 }
/-- Slot 2 of engine 1 runs an operation of a group of two members on ports 5 and 6; a frame waits for the engine. -/
def wInbox (op : Nat) (f : CollFrame) : State := { (wColl op (0xF0 * 2 ^ 56) {}) with
  bsn.groups := [(515, { members := [5 * 2 ^ 32, 6 * 2 ^ 32], template := [] })], bsn.inbox := [(1, [f])] }
/-- A long operation of slot 2 of engine 1. -/
def wCollOp (k : LongKind) : LongOp := { id := 0, ctx := .b 1 2, index := 0, kind := k }
/-- Port 12 (four lanes of pair 1) enabled and locked, in a state, with credits in two virtual channels. -/
def wPort (st : Nat) : State :=
  let s : State := (wRun.setFld (prtCtrl 12) F.PRT_PORT_CTRL_ENABLE 1).setFld (R.PRT_PAIR_STATUS 1) F.PRT_PAIR_STATUS_LOCK 0xF0
  s.wr (prtState 12) (F.PRT_PORT_STATE_STATE.put st ||| F.PRT_PORT_STATE_FC.put 2 ||| F.PRT_PORT_STATE_VCS.put 2 |||
    F.PRT_PORT_STATE_HFH.put 2 ||| F.PRT_PORT_STATE_MAX_FRAME.put 9216)
/-- The same port under priority flow control. -/
def wPfc : State := (wPort 3).setFld (prtState 12) F.PRT_PORT_STATE_FC 1
/-- The same port with a hold time. -/
def wHold (st : Nat) : State := (wPort st).setFld (R.PRT_HOLD_TIME 1 4) F.PRT_HOLD_TIME_HOLD 100
/-- That port one NONCE into a WLX 3 exchange, a ring of lane 4 awaiting a lane report. -/
def wWlx3 : State := ((wPort 2).setFld (ringReg ⟨0, 1, 4⟩) F.OPT_RING_STATE 4).setPort 12 { partner := some { version := 3, identity := 9 } }
/-- The 64 bytes of a link control frame. -/
def wLink (s : State) (subtype flags : Nat) (body : Bytes) : Bytes :=
  s.linkFrame subtype flags body ++ fcsOf (s.linkFrame subtype flags body)
/-- Ports 12 and 20 UP without credits, forwarding active. -/
def wSwitch : State :=
  let s : State := (wPfc.setFld (prtCtrl 20) F.PRT_PORT_CTRL_ENABLE 1).setFld (R.PRT_PAIR_STATUS 2) F.PRT_PAIR_STATUS_LOCK 0xF0
  let s : State := s.wr (prtState 20) (F.PRT_PORT_STATE_STATE.put 3 ||| F.PRT_PORT_STATE_FC.put 1 ||| F.PRT_PORT_STATE_HFH.put 2 |||
    F.PRT_PORT_STATE_MAX_FRAME.put 9216)
  (s.setFld R.GLB_CTRL F.GLB_CTRL_FWD_ENABLE 1).setFld R.GLB_STATUS F.GLB_STATUS_FWD_ACTIVE 1
/-- A frame of LLDP that carries nothing. -/
def wLldp : Bytes := padFrame (ethHeader bridgeMac 5 0x88CC)
/-- 60 bytes of a frame of an EtherType that the parser passes over. -/
def wBytes : Bytes := padFrame (ethHeader 0x020000000001 0x020000000002 0x1234)
/-- They and their FCS. -/
def wOnWire : Bytes := wBytes ++ fcsOf wBytes
/-- A stored frame of port 12's class 7. -/
def wStored (id : Nat) : Stored := ⟨id, wBytes, 12, 7, .asIs, 0, 0, 0, false, 0, 1, 1, 0, 0, 0, 0, 0, false⟩
/-- That frame queued for a port and class. -/
def wQueued (p c : Nat) : State := { wSwitch with
  swc := { frames := [wStored 4], nextFrame := 5, queues := [(qKey p c, [⟨4, 0⟩])] } }
/-- A frame of one cell that crosses from port 12 to port 600 in class 7, its first cell numbered 5. -/
def wCross (next : Nat) : State := { wSwitch with
  swc := { frames := [wStored 4, { wStored 5 with quad := 1, res := 0 }], nextFrame := 6,
           reseqs := [(streamKey 0 600 7, { sent := 6, next := BitVec.ofNat 16 next, crossings := [⟨5, 4, 5, 1, [5], false, false, [600], .unicast⟩] })],
           mesh := [(1, [⟨streamKey 0 600 7, 5, 1, false⟩])] } }
/-- The stream of that crossing. -/
def wStream : MeshStream := ⟨0, 600, 7⟩
/-- A schedule of four slots of 1024 ns with guard 8 and margin 16, started at 0, time known, and circuits 3 (slotted) and 7
(persistent) in the active bank. -/
def wSched : State :=
  let s : State := (wSwitch.setFld R.TIM_STATUS F.TIM_STATUS_EVER_LOCKED 1).setFld R.SPL_CTRL F.SPL_CTRL_ENABLE 1
  let s : State := s.wr R.SPL_SHAPE_ACT (F.SPL_SHAPE_ACT_SLOTS.put 4 ||| F.SPL_SHAPE_ACT_GUARD_NS.put 8 ||| F.SPL_SHAPE_ACT_MARGIN_NS.put 16)
  let s : State := (s.wr (R.SPL_SLOT_K_ACT 0) 0x2222).wr (R.SPL_SHAPE_PEND) (F.SPL_SHAPE_PEND_SLOTS.put 4 ||| F.SPL_SHAPE_PEND_GUARD_NS.put 8)
  let s : State := s.wr (R.SPL_SLOT_K_PEND 0) 0x2222
  let c (n w : Nat) (pers : Bool) : Circuit := ⟨n, 1, 5, pers, w, 2, 9, if pers then BitVec.allOnes 64 else 2⟩
  { (s.putActive (c 3 1 false) 1).putActive (c 7 2 true) 1 with spl.slotUp := true, spl.persUp := true, spl.persPaths := [(7, 5)] }
/-- The same schedule with its pending bank created. -/
def wPend : State := wSched.ensurePend
/-- The same schedule at an instant. -/
def wSchedAt (ns : Nat) : State := { wSched with tim.base := unitsTs (ns * 65536) }
/-- Ports 59 and 123 in 200 Gb/s mode, UP and eligible for circuits with burst-mode partners. -/
def wGrant : State :=
  let up (s : State) (p : Nat) : State :=
    (s.setFld (R.PRT_PAIR_CFG (p / 8)) F.PRT_PAIR_CFG_MODE 3).wr (prtState p)
      (F.PRT_PORT_STATE_STATE.put 3 ||| F.PRT_PORT_STATE_SPILL.put 1 ||| F.PRT_PORT_STATE_BURST.put 1)
  up (up wPend 59) 123
/-- A request for a slotted circuit between them on wavelength 3. -/
def wReq : CircuitReq :=
  ⟨F.SPL_REQ_A_OP.put 1 ||| F.SPL_REQ_A_DOMAIN.put 5 ||| F.SPL_REQ_A_WAVELENGTH.put 3 ||| F.SPL_REQ_A_IN.put 1 |||
    F.SPL_REQ_A_OUT.put 3 ||| F.SPL_REQ_A_TAG.put 9, 6, 0, 0, false⟩
/-- The state that an answer leaves. -/
def wAnswer (a : SplAnswer) : State := match a with
  | .wait t => t
  | .done _ _ _ t => t
/-- Port 12 under PTP, the engine enabled with no PTP source yet. -/
def wPtp : State := (wSwitch.setFld R.TIM_CTRL F.TIM_CTRL_ENABLE 1).setFld (R.TIM_PORT_CFG 12) F.TIM_PORT_CFG_PTP 1
/-- A message of port 1 of clock 9, at 2 s. -/
def wMsg : PtpMsg := ⟨0, 9, 1, 3, false, 0, 2 * 2 ^ 48, 65536, 0, 13, 9, 10, 6, 0x21, 0, 128, 0, 37, 8, 0x20⟩
/-- The same of a two-step clock. -/
def wTwo : PtpMsg := { wMsg with twoStep := true }
/-- The time servo follows that clock on port 12, in a STATE and with a mean path delay or none. -/
def wSlave (st : Nat) (delay : Option Int) : State := { wPtp.setFld R.TIM_STATUS F.TIM_STATUS_STATE st with
  tim.parent := some wMsg, tim.parentPort := 12, tim.ports := [(12, { delay := delay, delaySeq := 4 })], tim.base := 2 * 2 ^ 48 + 9000 * 65536 }
/-- A message of a clock that is not this module. -/
def wOther : PtpMsg := { wMsg with source := wPtp.identity + 1 }
/-- Port 12 is a PTP master. -/
def wMaster : State := { wPtp with tim.ports := [(12, { heard := true })] }
/-- The module with one check at the head of the queue. -/
def wCheck (k : CheckKind) : State := { wRun with cfg.checks := [{ kind := k, offset := 8 }] }
/-- The host-interface versions that the module has, staged and captured by a commit that is being checked. -/
def wCommit (v : Word) : State := { (wRun.wr R.GLB_HOST_IF v).setFld R.CFG_COMMIT F.CFG_COMMIT_GO 1 with
  cfg.checks := [{ kind := .commit 0, captured := [(R.GLB_HOST_IF, v)] }] }
/-- A plane message of plane 7 with its CRC. -/
def wPlnMsg (kind : Nat) (id : Word) (term : Nat) (body : Bytes) : Bytes :=
  let m := beBytes 1 kind ++ beBytes 1 0x10 ++ beBytes 2 7 ++ beBytes 8 id.toNat ++ beBytes 4 term ++ beBytes 4 0 ++ beBytes 2 body.length ++
    beBytes 2 0 ++ body
  m ++ beBytes 4 (crc32c m)
/-- A module of plane 7 in a role at TERM 5: manager 0x11, standby 0x22, workers 3 (0x33) and 4 (0x44). -/
def wPlane (role : Nat) (manager standby : Word) : State := { wRun.wr R.PLN_STATUS (F.PLN_STATUS_ROLE.put role ||| F.PLN_STATUS_TERM.put 5) with
  cfg.committed := [(R.PLN_CFG, F.PLN_CFG_ROLE.put role ||| F.PLN_CFG_PLANE.put 7), (R.PLN_MANAGER_ID, manager), (R.PLN_STANDBY_ID, standby),
    (R.PLN_WORKER_ID 3, 0x33), (R.PLN_WORKER_ID 4, 0x44)]
  tim.osc := 1000000000 }
/-- A worker. -/
def wWorker : State := wPlane 1 0x11 0x22
/-- The acting manager. -/
def wManager : State := (wPlane 2 0 0x22).setFld (R.PLN_WORKER_STATE 3) F.PLN_WORKER_STATE_STATE 1
/-- A plane flip of epochs that the manager prepares with worker 3. -/
def wFlip : ManagerFlip := { kind := 1, id := 9, fromEpoch := 0, startedAt := 900000000, participants := [3, 1023], ready := [(1023, 0, 0)] }
/-- The manager with a flip. -/
def wFlipping (f : ManagerFlip) : State :=
  { (wManager.setFld R.PLN_FLIP_STATUS F.PLN_FLIP_STATUS_STATE 1).setFld R.TIM_STATUS F.TIM_STATUS_EVER_LOCKED 1 with pln.flip := some f }
/-- The running module with a counter of port 5 near its end and events to take over. -/
def wCounters : State := { wRun with cnt.counters := [(ctrKey 2 5, { value := 2 ^ 48 - 1, acc := 3 })] }
/-- A commit of the Ledger under way, one journal entry buffered. -/
def wLedger : State := { wRun.setFld R.LDG_STATUS F.LDG_STATUS_BUSY 1 with ldg.busy := true, ldg.buffer := [0x501], ldg.live := [(8, 4)] }
/-- The manager with 64 orders held and its budget spent. -/
def wHeldAll : State := { wManager with
  regs := wManager.regs.take 2 ++ (List.range 64).map (fun n => (R.PLN_HELD n, F.PLN_HELD_VALID.put 1)) ++ wManager.regs.drop 2
  cfg.committed := wManager.cfg.committed ++ [(R.PLN_BUDGET, 0)] }

/-! ## What a witness shows -/

/-- NOP. -/
def nop : Word := BitVec.ofNat 64 (0xF0 * 2 ^ 56)

/-- What to show of a state in which an instruction word runs, and `n` follows it. -/
theorem runs_by {s : State} {c : Ctx} {w : Nat} {locks : List Lock} {long : Bool} (n : Word)
    (h : ((s.ctx c).status = .running ∧ (s.ctx c).code[(s.ctx c).pc]? = some (BitVec.ofNat 64 w) ∧
      encodingFault (profileOf c) (s.ctx c).version.toNat w = none ∧ s.lockedFor c locks = false ∧
      (long = true → (s.opsOf c).length < longLimit c)) ∧
      (s.ctx c).code[(s.ctx c).pc + 1]? = some n ∧ assigned (wOp n.toNat) = true ∧ ¬ (wOp n.toNat = 0x70 ∧ 5 ≤ pOp n.toNat)) :
    s.Runs c w locks long := ⟨h.1, n, h.2⟩

/-- What to show of an index that holds `n`. -/
theorem fetches_by {s : State} {c : Ctx} {pc : Nat} (n : Word)
    (h : (s.ctx c).code[pc]? = some n ∧ assigned (wOp n.toNat) = true ∧ ¬ (wOp n.toNat = 0x70 ∧ 5 ≤ pOp n.toNat)) : s.Fetches c pc :=
  ⟨n, h⟩


/-- An offset measured at 3 s is large, whatever the port's latency. -/
theorem offset_late (s : State) (p : Nat) (a b : Int) (k : Nat) (hc : a + b < 2001 * 65536000000) (hk : k < 65536000000) :
    k < (s.rxTime p (3 * 2 ^ 48) - a - b).natAbs := by
  have h : s.fld (R.TIM_PORT_LAT p) F.TIM_PORT_LAT_RX_LAT_PS < 2 ^ 32 := Machine.Fld.get_lt ..
  have e : tsUnits (3 * 2 ^ 48) = 196608000000000 := by decide +kernel
  unfold State.rxTime stampAt
  rw [e]
  omega

/-- The identity does not hang on the time engine. -/
theorem identity_tim (s : State) (x : Tim) : ({ s with tim := x } : State).identity = s.identity := rfl

/-- That clock is another one. -/
theorem wOther_ne (x : Tim) : wOther.source ≠ ({ wPtp with tim := x } : State).identity := by
  rw [identity_tim]
  show wPtp.identity + 1 ≠ wPtp.identity
  simp

/-- With no session enabled nothing is mirrored. -/
theorem no_mirrors {s : State} (h : ∀ n ∈ List.range 16, s.mirFld n F.SWC_MIRROR_CTRL_ENABLE ≠ 1) (d q : Nat) : s.mirrorsOf d q = [] :=
  List.filter_eq_nil_iff.2 fun n hn => by simp [h n hn]

/-! ## Operands of a wrong size are no event of the hardware -/

theorem test_refuses_short_scan : (Instr.lasIntNFall (List.replicate 31 ⟨true, false, 1⟩)).wellFormed = false := by decide
theorem test_refuses_short_poll : (Instr.laserPoll []).wellFormed = false := by decide
theorem test_refuses_short_sample : (Instr.sensorSample ⟨List.replicate 52 0, 0, 0, 0⟩).wellFormed = false := by decide
theorem test_refuses_long_line : (Instr.hostMemWrite 0 (List.replicate 65 0) 0).wellFormed = false := by decide
theorem test_refuses_short_line : (Instr.watchedLineData 3 (.ok [1])).wellFormed = false := by decide
theorem test_refuses_short_poll_line : (Instr.watchPoll 3 (.ok (List.replicate 63 0))).wellFormed = false := by decide
theorem test_refuses_partly_poisoned_line : (Instr.descriptorArrival 3 (.poisoned [1])).wellFormed = false := by decide
theorem test_refuses_short_nonce : (Instr.getAttestation .mailbox (List.replicate 31 0)).wellFormed = false := by decide
theorem test_refuses_short_ciphertext : (Instr.provisionPsk .mailbox 1 [0]).wellFormed = false := by decide
theorem test_refuses_long_digest : (Instr.extendMeasurement .mailbox 8 (List.replicate 49 0)).wellFormed = false := by decide
theorem test_refuses_seven_quanta : (Instr.pfcFrameReceive 3 0xFF (List.replicate 7 0)).wellFormed = false := by decide
theorem test_refuses_cell_past_buffer : (Instr.auditPass [1572864]).wellFormed = false := by decide
theorem test_refuses_cell_named_twice : (Instr.auditPass [5, 5]).wellFormed = false := by decide
theorem test_refuses_odd_register : (Instr.registerWrite 0x1000C 0).wellFormed = false := by decide
theorem test_refuses_odd_field : (Instr.rcFieldRead 4).wellFormed = false := by decide
theorem test_accepts_aligned_register : (Instr.registerWrite 0x10008 0).wellFormed = true := by decide

/-! ## The hypotheses of the statements can be met -/

theorem witness_ExecKeepsQueue : ∃ (i : Instr) (s t : State), exec i s = .next t := ⟨.powerUp, State.reset, _, rfl⟩

theorem witness_StepKeepsCanonical : ∃ s t : State, s.Canonical ∧ step s = .next t :=
  ⟨{ wPlane 2 0 0x22 with pending := [.powerDown] }, _, ⟨by decide +kernel, by decide +kernel⟩, rfl⟩


theorem witness_StepOnEmptyQueueTicks :
    ∃ (s : State), s.pending = [] :=
  ⟨wRun, by decide +kernel⟩

theorem witness_PowerSequence :
    (∃ (s : State), s.board.place = .off ∧ s.board.tripLatch = false) ∧
    (∃ (s : State), s.board.place = .off ∧ s.board.tripLatch = false) ∧
    (∃ (s : State), s.board.place = .charging) ∧
    (∃ (straps : BitVec 6) (s : State), s.regsWf = true ∧ s.board.place = .alwaysOn) ∧
    (∃ (straps : BitVec 6) (s : State), s.board.place ≠ .alwaysOn) ∧
    (∃ (s : State), s.board.place = .running) ∧
    (∃ (s : State), (s.board.place = .powerDown ∨ s.board.place = .powerFail)) :=
  ⟨⟨wAt .off, by decide +kernel⟩,
   ⟨wAt .off, by decide +kernel⟩,
   ⟨wAt .charging, by decide +kernel⟩,
   ⟨5, wAt .alwaysOn, by decide +kernel⟩,
   ⟨5, wAt .charging, by decide +kernel⟩,
   ⟨wRun, by decide +kernel⟩,
   ⟨wAt .powerFail, by decide +kernel⟩⟩

theorem witness_PowerFail :
    (∃ (share : BitVec 8) (s : State), (share.toNat < 40 ∨ 60 < share.toNat)) ∧
    (∃ (share : BitVec 8) (s : State), 40 ≤ share.toNat ∧ share.toNat ≤ 60) ∧
    (∃ (s : State), s.board.place = .off ∧ s.board.tripLatch = false) ∧
    (∃ (s : State), (s.board.place = .alwaysOn ∨ s.board.place = .running ∨ s.board.place = .moduleReset)) ∧
    (∃ (s : State), s.board.pwrGood = true) :=
  ⟨⟨39, wRun, by decide +kernel⟩,
   ⟨40, wRun, by decide +kernel⟩,
   ⟨wAt .off, by decide +kernel⟩,
   ⟨wRun, by decide +kernel⟩,
   ⟨wRun, by decide +kernel⟩⟩

theorem witness_ConnectorResets :
    (∃ (s : State), s.board.place = .running) ∧
    (∃ (s : State), s.board.place ≠ .running) ∧
    (∃ (s : State), s.board.place = .running) ∧
    (∃ (s : State), s.board.place ≠ .running) ∧
    (∃ (s : State), s.board.place = .running) ∧
    (∃ (straps : BitVec 6) (s : State), s.regsWf = true ∧ s.board.place = .moduleReset ∧ s.board.modRstN = true) ∧
    (∃ (s : State), s.regsWf = true ∧ s.cfg.wellheadDown = false) ∧
    (∃ (s : State), s.regsWf = true ∧ s.cfg.wellheadDown = false) ∧
    (∃ (s : State), 3 ≤ s.phase ∧ s.phase ≤ 5) :=
  ⟨⟨wRun, by decide +kernel⟩,
   ⟨wAt .charging, by decide +kernel⟩,
   ⟨wRun, by decide +kernel⟩,
   ⟨wAt .off, by decide +kernel⟩,
   ⟨wRun, by decide +kernel⟩,
   ⟨5, wAt .moduleReset, by decide +kernel⟩,
   ⟨wRun, by decide +kernel⟩,
   ⟨wRun, by decide +kernel⟩,
   ⟨wRun, by decide +kernel⟩⟩

theorem witness_RootOfTrust :
    (∃ (n : Nat) (digest : Bytes) (s : State), s.regsWf = true ∧ n < 8) ∧
    (∃ (s : State), s.board.pwrGood = true ∧ s.phase = 1 ∧ s.cfg.romDone = false) ∧
    (∃ (s : State), s.regsWf = true ∧ s.cfg.romDone = true ∧ s.cfg.t1Passed = true ∧ s.cfg.imageChecked = false ∧ s.phase = 1) :=
  ⟨⟨7, [1, 2], wRun, by decide +kernel⟩,
   ⟨{ wPhase 1 with cfg := {} }, by decide +kernel⟩,
   ⟨wPhase 1, by decide +kernel⟩⟩

theorem witness_StartupPhases :
    (∃ (s : State), s.regsWf = true ∧ s.phase = 2) ∧
    (∃ (s : State), s.regsWf = true ∧ s.phase = 3) ∧
    (∃ (trained : BitVec 8) (spares : List Bool) (s : State), s.regsWf = true ∧ 4 ≤ s.phase ∧ s.phase ≠ 0xF ∧
      s.flag R.GLB_STATUS F.GLB_STATUS_HBM_READY = false) ∧
    (∃ (dimms : List DimmInfo) (trained : BitVec 8) (spares : List Bool) (s : State), s.regsWf = true ∧ 4 ≤ s.phase ∧
      s.phase ≠ 0xF ∧ s.flag R.GLB_STATUS F.GLB_STATUS_DDR_READY = false) ∧
    (∃ (s : State), s.regsWf = true ∧ 4 ≤ s.phase ∧ s.phase ≠ 0xF) :=
  ⟨⟨wPhase 2, by decide +kernel⟩,
   ⟨wPhase 3, by decide +kernel⟩,
   ⟨0xF7, [true], wPhase 4, by decide +kernel⟩,
   ⟨[⟨0, 0, true, 2, true, 64, 5⟩, ⟨1, 0, true, 2, true, 64, 5⟩], 0xFF, [], wPhase 4, by decide +kernel⟩,
   ⟨wPhase 4, by decide +kernel⟩⟩

theorem witness_LinkTraining :
    (∃ (trains : BitVec 6) (lopt : Bool) (s : State), s.board.perstN = true ∧ s.board.place = .running ∧ 4 ≤ s.phase ∧
      s.phase ≠ 0xF ∧ s.flag R.HIF_LINK_STATUS F.HIF_LINK_STATUS_UP = false) ∧
    (∃ (trains : BitVec 6) (lopt : Bool) (s : State), s.board.perstN = true ∧ s.board.place = .running ∧
      s.flag R.HIF_LINK_STATUS F.HIF_LINK_STATUS_UP = true) ∧
    (∃ (trains : BitVec 6) (lopt : Bool) (s : State) (t : State), s.regsWf = true ∧ s.train trains lopt = some t) ∧
    (∃ (trains : BitVec 6) (lopt : Bool) (s : State), s.train trains lopt = none) :=
  ⟨⟨0x20, true, wPhase 4, by decide +kernel⟩,
   ⟨0x20, true, (wPhase 5).setFld R.HIF_LINK_STATUS F.HIF_LINK_STATUS_UP 1, by decide +kernel⟩,
   ⟨0x20, true, wPhase 4, ((wPhase 4).train 0x20 true).getD {}, by decide +kernel⟩,
   ⟨0, true, wPhase 4, by decide +kernel⟩⟩

theorem witness_LaserSources :
    (∃ (e : Nat) (s : State), e < 32 ∧ (swf (fun _ => 0) s.board.lasMux = true)) ∧
    (∃ (scan : List LaserScan) (s : State), s.board.place = .running ∧
      ((∀ e, e < 32 → ∀ x ∈ scan[e]?, x.present = (s.laser e).present ∧ x.fault = false ∧ (x.present = true → x.serial = (s.laser e).serial)))) ∧
    (∃ (e : Fin 32) (x : LaserScan) (s : State), s.regsWf = true ∧ x.present = true ∧ x.fault = false ∧
      (s.laser e).present = false) ∧
    (∃ (readings : List LaserReading) (s : State), (swf (fun _ => {}) s.lasers = true) ∧ s.board.place = .running) ∧
    (∃ (e : Fin 32) (s : State), s.board.place = .running ∧ 4 ≤ s.phase ∧ s.phase ≠ 0xF ∧ (s.laser e).level = .off ∧
      (s.laser e).paired = false ∧ (s.laser e).barred = false ∧ (s.lasers.any (fun x => x.2.level == .checking) = false)) ∧
    (∃ (e : Fin 32) (light : BitVec 32) (s : State), s.regsWf = true ∧ (swf (fun _ => {}) s.lasers = true) ∧
      s.board.place = .running ∧ (s.laser e).level = .checking) ∧
    (∃ (e : Fin 32) (s : State), s.board.place = .running ∧ (s.laser e).level = .ramping) :=
  ⟨⟨13, { wRun with board.lasMux := [(0x70, 4), (0x73, 1)] }, by decide +kernel⟩,
   ⟨[⟨false, false, 0⟩], wRun, by decide +kernel⟩,
   ⟨5, ⟨true, false, 9⟩, wRun, by decide +kernel⟩,
   ⟨[⟨1, 2, 3, 4⟩, ⟨5, 6, 7, 8⟩], wLaser 1 wLit, by decide +kernel⟩,
   ⟨4, wRun, by decide +kernel⟩,
   ⟨4, 16, wLaser 4 { level := .checking, present := true, serial := 3 }, by decide +kernel⟩,
   ⟨4, wLaser 4 { level := .ramping, present := true, serial := 3 }, by decide +kernel⟩⟩

theorem witness_BayDescentAndWaking :
    (∃ (n : Fin 50) (s : State), s.regsWf = true ∧ s.bayState n < s.bayTarget n ∧ s.bayKept n = false ∧ s.bayState n < 2) ∧
    (∃ (n : Fin 50) (s : State), s.bayState n < s.bayTarget n ∧ s.bayKept n = false) ∧
    (∃ (n : Fin 50) (s : State), (s.bayTarget n ≤ s.bayState n ∨ s.bayKept n = true)) ∧
    (∃ (n : Fin 50) (s : State), s.regsWf = true ∧ 1 ≤ s.bayState n ∧ s.bayState n ≤ 3) ∧
    (∃ (n : Fin 50) (s : State), (s.bayState n = 0 ∨ 4 ≤ s.bayState n)) ∧
    (∃ (n : Fin 50) (duration : Nat) (restored : Bool) (s : State), s.pwr.waking.contains n.val = true ∧ s.bayState n = 4 ∧
      (n.val < 36 ∨ 44 ≤ n.val) ∧ duration ≤ exitMax (sget 0 s.pwr.saved n.val) ∧ restored = true) ∧
    (∃ (n : Fin 50) (s : State), s.bayState n ≠ 5 ∧ s.bayState n ≠ 6) ∧
    (∃ (n : Fin 50) (s : State), s.bayState n = 6 ∧ (n.val < 36 ∨ 44 ≤ n.val)) :=
  ⟨⟨30, wRun.setFld (R.PWR_BAY_CTRL 30) F.PWR_BAY_CTRL_TOL 60, by decide +kernel⟩,
   ⟨36, (wBay 36 2).setFld (R.PWR_BAY_CTRL 36) F.PWR_BAY_CTRL_TOL 5000, by decide +kernel⟩,
   ⟨30, wRun, by decide +kernel⟩,
   ⟨30, wBay 30 3, by decide +kernel⟩,
   ⟨30, wBay 30 4, by decide +kernel⟩,
   ⟨30, 20, true, { wBay 30 4 with pwr.waking := [30], pwr.saved := [(30, 1)] }, by decide +kernel⟩,
   ⟨30, wRun, by decide +kernel⟩,
   ⟨30, wBay 30 6, by decide +kernel⟩⟩

theorem witness_TolWritten :
    (∃ (n : Fin 50) (tol : BitVec 24) (s : State), s.regsWf = true ∧ (n.val < 46 ∨ 48 < n.val)) ∧
    (∃ (n : Fin 50) (tol : BitVec 24) (s : State), s.regsWf = true ∧ 46 ≤ n.val ∧ n.val ≤ 48) :=
  ⟨⟨37, 2999, wBay 37 3, by decide +kernel⟩,
   ⟨46, 2999, wRun, by decide +kernel⟩⟩

theorem witness_SensorsAndPower :
    (∃ (x : SensorSample) (s : State), s.regsWf = true ∧ s.board.pwrGood = true ∧
      ((∀ i, i < 50 → x.temps.getD i 0x8000 = 0x8000 ∨ (x.temps.getD i 0x8000).toInt < 920))) ∧
    (∃ (i : Nat) (x : SensorSample) (s : State), s.board.pwrGood = true ∧ i < 50 ∧ x.temps.getD i 0x8000 ≠ 0x8000 ∧
      920 ≤ (x.temps.getD i 0x8000).toInt) ∧
    (∃ (n : Nat) (t : Int) (s : State), 8 * ((max 80 (min 103 (s.fld R.THM_CTRL F.THM_CTRL_PACE_LIMIT)) : Nat) : Int) ≤ t) ∧
    (∃ (n : Fin 50) (cadence : BitVec 16) (s : State), s.regsWf = true) ∧
    (∃ (q : Fin 4) (s : State), s.regsWf = true) :=
  ⟨⟨⟨[919, 400], 4000, 5000, 55⟩, wRun, by decide +kernel⟩,
   ⟨1, ⟨[0x8000, 920], 4000, 5000, 55⟩, wRun, by decide +kernel⟩,
   ⟨3, 900, wRun, by decide +kernel⟩,
   ⟨4, 1400, wRun, by decide +kernel⟩,
   ⟨1, wRun, by decide +kernel⟩⟩

theorem witness_Sills :
    (∃ (g : Fin 273) (b : Fin 64) (s : State), sillClass g b = none) ∧
    (∃ (g : Fin 273) (b : Fin 64) (s : State), sillClass g b ≠ none ∧ s.injecting = none ∧
      (sget {} s.sills (sillKey g b)).busy = false) ∧
    (∃ (g : Fin 273) (b : Fin 64) (s : State) (x : Sill), sillClass g b = some .count ∧ s.injecting = none ∧
      sget {} s.sills (sillKey g b) = x ∧ x.busy = true ∧ x.phase < 15) ∧
    (∃ (g : Fin 273) (b : Fin 64) (s : State) (x : Sill), s.regsWf = true ∧ s.injecting = none ∧
      sget {} s.sills (sillKey g b) = x ∧ x.busy = true ∧
      (sillClass g b = some .count ∧ x.phase = 15 ∨ sillClass g b = some .event ∧ x.phase = 1)) ∧
    (∃ (g : Fin 273) (b : Fin 64) (s : State) (x : Sill), sillClass g b = some .event ∧ s.injecting = none ∧
      sget {} s.sills (sillKey g b) = x ∧ x.busy = true ∧ x.phase ≠ 1) ∧
    (∃ (g : Fin 273) (b : Fin 64) (s : State) (x : Sill), sget {} s.sills (sillKey g b) = x) ∧
    (∃ (g : BitVec 9) (b : BitVec 6) (n : BitVec 8) (s : State), s.regsWf = true ∧ s.sillOwnerOff g.toNat b.toNat = true ∧
      g.toNat ≤ 272 ∧ sillClass g.toNat b.toNat ≠ none ∧ n ≠ 0) ∧
    (∃ (g : Nat) (b : Nat) (s : State), s.injecting = some (g, b, 0)) :=
  ⟨⟨270, 3, wRun, by decide +kernel⟩,
   ⟨5, 3, wRun, by decide +kernel⟩,
   ⟨5, 1, { wRun with sills := [(321, { busy := true, phase := 14 })] }, { busy := true, phase := 14 }, by decide +kernel⟩,
   ⟨5, 1, { wRun with sills := [(321, { busy := true, phase := 15 })] }, { busy := true, phase := 15 }, by decide +kernel⟩,
   ⟨272, 49, { wRun with sills := [(17457, { busy := true, phase := 0 })] }, { busy := true, phase := 0 }, by decide +kernel⟩,
   ⟨5, 1, { wRun with sills := [(321, { busy := true, phase := 14 })] }, { busy := true, phase := 14 }, by decide +kernel⟩,
   ⟨262, 3, 255, wRun, by decide +kernel⟩,
   ⟨262, 3, { wRun with injecting := some (262, 3, 0) }, by decide +kernel⟩⟩

theorem witness_Rings :
    (∃ (r : RingId) (detune : BitVec 16) (heater : BitVec 16) (s : State), s.regsWf = true ∧ s.ringHolds r = true ∧
      detune.toInt.natAbs < 1000) ∧
    (∃ (r : RingId) (detune : BitVec 16) (heater : BitVec 16) (s : State), s.regsWf = true ∧
      (swf (fun _ => 0) s.spl.detuned = true) ∧ s.ringHolds r = true ∧ 1000 ≤ detune.toInt.natAbs ∧
      sget 0 s.spl.detuned (ringNum r) < 9) ∧
    (∃ (r : RingId) (detune : BitVec 16) (heater : BitVec 16) (s : State), s.regsWf = true ∧ s.ringHolds r = true ∧
      s.engineLit r.e = true ∧ s.bayState (opticBay r.e) ≠ 3 ∧ 1000 ≤ detune.toInt.natAbs ∧ 9 ≤ sget 0 s.spl.detuned (ringNum r)) ∧
    (∃ (r : RingId) (detune : BitVec 16) (heater : BitVec 16) (s : State), s.ringHolds r = false) ∧
    (∃ (r : RingId) (s : State), s.regsWf = true ∧ s.ringState r = 1) ∧
    (∃ (r : RingId) (s : State), s.ringState r = 1) ∧
    (∃ (r : RingId) (crossings : Fin 8) (s : State), s.ringState r = 2) ∧
    (∃ (r : RingId) (s : State), s.regsWf = true ∧ s.portEnabled (s.ringPort r) = false) ∧
    (∃ (r : RingId) (s : State), s.regsWf = true ∧
      (s.fld (ringReg r) F.OPT_RING_FAILS = 2 ∨ s.fld (ringReg r) F.OPT_RING_FAILS = 3)) ∧
    (∃ (r : RingId) (heater : BitVec 16) (s : State), s.ringHolds r = true) ∧
    (∃ (e : Fin 32) (s : State), s.regsWf = true ∧ s.bayActive (opticBay e) = true) ∧
    (∃ (r : RingId) (integ : BitVec 2) (s : State), s.regsWf = true ∧ s.bayActive (opticBay r.e) = true ∧
      s.flag (R.OPT_MEASURE r.e) F.OPT_MEASURE_GO = false) ∧
    (∃ (e : Fin 32) (code : BitVec 16) (s : State), s.regsWf = true ∧ s.flag (R.OPT_MEASURE e) F.OPT_MEASURE_GO = true) ∧
    (∃ (e : Fin 32) (mask : Word) (s : State), s.regsWf = true ∧ mask ≠ 0 ∧ s.bayActive (opticBay e) = true) ∧
    (∃ (e : Fin 32) (mask : Word) (s : State), s.regsWf = true ∧ mask ≠ 0 ∧ s.bayActive (opticBay e) = false) :=
  ⟨⟨wRing, 0xFC19, 5, wRingAt 3, by decide +kernel⟩,
   ⟨wRing, 1000, 5, { wRingAt 3 with spl.detuned := [(202, 8)] }, by decide +kernel⟩,
   ⟨wRing, 1000, 5, { wRingAt 3 with spl.detuned := [(202, 9)] }, by decide +kernel⟩,
   ⟨wRing, 1000, 5, wRingAt 1, by decide +kernel⟩,
   ⟨wRing, (wRingAt 1).setFld (ringReg wRing) F.OPT_RING_LOCKS 0xFFFF, by decide +kernel⟩,
   ⟨wRing, wRingAt 1, by decide +kernel⟩,
   ⟨wRing, 2, wRingAt 2, by decide +kernel⟩,
   ⟨wRing, wRingAt 2, by decide +kernel⟩,
   ⟨wRing, (wRingAt 2).setFld (ringReg wRing) F.OPT_RING_FAILS 2, by decide +kernel⟩,
   ⟨wRing, 8, wRingAt 3, by decide +kernel⟩,
   ⟨3, wRingAt 3, by decide +kernel⟩,
   ⟨wRing, 3, wRingAt 3, by decide +kernel⟩,
   ⟨3, 99, wRun.setFld (R.OPT_MEASURE 3) F.OPT_MEASURE_GO 1, by decide +kernel⟩,
   ⟨3, 0x400, wRingAt 5, by decide +kernel⟩,
   ⟨3, 0x400, (wRingAt 5).setFld (R.PWR_BAY_STATUS 36) F.PWR_BAY_STATUS_STATE 3, by decide +kernel⟩⟩

theorem witness_BarsAndPegs :
    (∃ (bar : Fin 3) (write : Bool) (size : BitVec 4) (offset : BitVec 26) (data : Word) (s : State), s.regsWf = true ∧
      s.host.ideBroken = false ∧ barAccepts bar size.toNat offset.toNat = false) ∧
    (∃ (size : BitVec 4) (offset : BitVec 26) (data : Word) (s : State), s.host.ideBroken = false ∧
      barAccepts 0 size.toNat offset.toNat = true) ∧
    (∃ (offset : BitVec 26) (data : Word) (s : State), s.host.ideBroken = false ∧ offset.toNat % 8 = 0) ∧
    (∃ (offset : BitVec 26) (data : Word) (s : State), s.host.ideBroken = false ∧ offset.toNat < 0xFE0000 ∧ offset.toNat % 8 = 0) ∧
    (∃ (p : BitVec 16) (v : Word) (s : State), 1024 ≤ p.toNat ∧ s.host.ideBroken = false) ∧
    (∃ (p : BitVec 16) (v : Word) (s : State), s.regsWf = true ∧ p.toNat < 1024 ∧ s.host.ideBroken = false) ∧
    (∃ (p : Nat) (v : Word) (s : State), (swf (fun _ => 0) s.dxn.pegs = true)) :=
  ⟨⟨0, true, 4, 0x18, 5, wRun, by decide +kernel⟩,
   ⟨8, 0x18, 5, wRun, by decide +kernel⟩,
   ⟨0x10008, 5, wRun, by decide +kernel⟩,
   ⟨0x1008, 5, wRun, by decide +kernel⟩,
   ⟨1024, 7, wRun, by decide +kernel⟩,
   ⟨1023, 7, wRun, by decide +kernel⟩,
   ⟨70000, 5, { wRun with dxn.pegs := [(70000, 9)] }, by decide +kernel⟩⟩

theorem witness_HostWriteStored :
    (∃ (addr : Word) (a : Nat) (data : Bytes) (s : State), a = addr.toNat / 64 * 64 ∧ s.mem.wf = true ∧
      s.host.ideBroken = false ∧ s.hostSees a = true ∧ inFirmware a = false ∧ s.stackFailed a = false) ∧
    (∃ (addr : Word) (a : Nat) (data : Bytes) (mask : BitVec 64) (s : State), a = addr.toNat / 64 * 64 ∧ s.mem.wf = true ∧
      s.host.ideBroken = false ∧ mask ≠ BitVec.allOnes 64 ∧ s.hostSees a = true ∧ inFirmware a = false ∧ s.stackFailed a = false) ∧
    (∃ (addr : Word) (a : Nat) (data : Bytes) (mask : BitVec 64) (s : State), a = addr.toNat / 64 * 64 ∧
      s.host.ideBroken = false ∧ s.hostSees a = true ∧ inFirmware a = true) :=
  ⟨⟨0x10050, 0x10040, [1, 2, 3], { wRun with mem.poisoned := [(0x400, 0x500)] }, by decide +kernel⟩,
   ⟨0x10050, 0x10040, [1, 2, 3], 5, { wRun with mem.poisoned := [(0x400, 0x500)] }, by decide +kernel⟩,
   ⟨0x13E0000040, 0x13E0000040, [1, 2, 3], 5, wRun, by decide +kernel⟩⟩

theorem witness_HostReads :
    (∃ (addr : Word) (a : Nat) (s : State), a = addr.toNat / 64 * 64 ∧ s.host.ideBroken = false ∧ s.hostSees a = true ∧
      inFirmware a = false ∧ s.rangePoisoned a 64 = false) ∧
    (∃ (addr : Word) (a : Nat) (errs : List LineErr) (s : State), a = addr.toNat / 64 * 64 ∧ s.host.ideBroken = false ∧
      s.hostSees a = true ∧ inFirmware a = false ∧ s.rangePoisoned a 64 = true) ∧
    (∃ (addr : Word) (a : Nat) (errs : List LineErr) (s : State), a = addr.toNat / 64 * 64 ∧ s.host.ideBroken = false ∧
      s.hostSees a = true ∧ inFirmware a = true) ∧
    (∃ (addr : Word) (errs : List LineErr) (s : State), (s.hostSees (addr.toNat / 64 * 64) = false ∨ s.host.ideBroken = true)) :=
  ⟨⟨0x10050, 0x10040, wRun, by decide +kernel⟩,
   ⟨0x10050, 0x10040, [], { wRun with mem.poisoned := [(0x400, 0x500)] }, by decide +kernel⟩,
   ⟨0x13E0000040, 0x13E0000040, [], wRun, by decide +kernel⟩,
   ⟨0xA000000000, [], wRun, by decide +kernel⟩⟩

theorem witness_RingsAndCompletionRings :
    (∃ (r : Fin 1024) (s : State), s.regsWf = true ∧ s.bit (R.HIF_RING_ENABLE (r.val / 64)) (r.val % 64) = false ∧
      s.checking (.ringEnable r) = false ∧
      ((∀ i, i < 1024 → i / 64 = r.val / 64 → s.bit (R.HIF_RING_ENABLE (i / 64)) (i % 64) = false ∧ s.checking (.ringEnable i) = false))) ∧
    (∃ (r : Fin 1024) (s : State), s.regsWf = true ∧ s.bit (R.HIF_RING_ENABLE (r.val / 64)) (r.val % 64) = true ∧
      ((∀ i, i < 1024 → s.checking (.ringEnable i) = false))) ∧
    (∃ (r : Nat) (s : State), r < 1024 ∧ s.regsWf = true ∧ (s.ringSt r = 1 ∨ s.ringSt r = 3)) ∧
    (∃ (r : Fin 1024) (s : State), s.regsWf = true ∧ s.ringSt r = 2 ∧
      s.fld (R.HIF_RING_STATE r) F.HIF_RING_STATE_OUTSTANDING = 0) ∧
    (∃ (c : Fin 256) (s : State), s.regsWf = true ∧ s.cqOn c = false ∧ s.checking (.cqEnable c) = false) ∧
    (∃ (c : Fin 256) (s : State), s.regsWf = true ∧ s.cqOn c = true ∧ s.cqNamed c = false) ∧
    (∃ (c : Fin 256) (s : State), s.regsWf = true ∧ s.cqOn c = true ∧ s.cqNamed c = true) ∧
    (∃ (s : State), s.host.d3hot = true) ∧
    (∃ (c : Fin 256) (b : Bytes) (s : State), s.flag (R.HIF_CQ_STATE c) F.HIF_CQ_STATE_STALLED = true ∧ s.linkHeld = false ∧
      (s.cqTail c - BitVec.ofNat 32 (leAt b 0 4)).toNat < s.cqSize c ∧ leAt b 0 4 ≠ 0) ∧
    (∃ (c : Fin 256) (s : State), s.flag (R.HIF_CQ_STATE c) F.HIF_CQ_STATE_STALLED = true) ∧
    (∃ (s : State), s.regsWf = true) :=
  ⟨⟨65, wRun, by decide +kernel⟩,
   ⟨65, (wRun.setBit (R.HIF_RING_ENABLE 1) 1 true).setFld (R.HIF_RING_STATE 65) F.HIF_RING_STATE_STATE 1, by decide +kernel⟩,
   ⟨65, (wRun.setBit (R.HIF_RING_ENABLE 1) 1 true).setFld (R.HIF_RING_STATE 65) F.HIF_RING_STATE_STATE 3, by decide +kernel⟩,
   ⟨65, (wRun.setBit (R.HIF_RING_ENABLE 1) 1 true).setFld (R.HIF_RING_STATE 65) F.HIF_RING_STATE_STATE 2, by decide +kernel⟩,
   ⟨255, wRun, by decide +kernel⟩,
   ⟨255, (wRun.setFld (R.HIF_CQ_CFG 255) F.HIF_CQ_CFG_ENABLE 1), by decide +kernel⟩,
   ⟨0, (wRun.setFld (R.HIF_CQ_CFG 0) F.HIF_CQ_CFG_ENABLE 1).setFld (R.HIF_RING_STATE 65) F.HIF_RING_STATE_STATE 1,
    by decide +kernel⟩,
   ⟨{ wRun with host.d3hot := true }, by decide +kernel⟩,
   ⟨3, [5, 0, 0, 0, 0, 0, 0, 0],
    (wRun.setFld (R.HIF_CQ_STATE 3) F.HIF_CQ_STATE_STALLED 1).setFld (R.HIF_CQ_STATE 3) F.HIF_CQ_STATE_TAIL 5, by decide +kernel⟩,
   ⟨3, wRun.setFld (R.HIF_CQ_STATE 3) F.HIF_CQ_STATE_STALLED 1, by decide +kernel⟩,
   ⟨wRun, by decide +kernel⟩⟩

theorem witness_WatchedLinesAndArrival :
    (∃ (r : Fin 1024) (s : State), (s.ring r).shared = true ∧ (s.ring r).reading = false ∧ s.host.ideBroken = false ∧
      s.ringSt r = 1 ∧ s.host.d3hot = false) ∧
    (∃ (r : Fin 1024) (b : Bytes) (s : State), (s.ring r).reading = true ∧ (s.ring r).again = false ∧ (s.ring r).first = true ∧
      s.ringSt r = 1 ∧ s.host.ideBroken = false) ∧
    (∃ (r : Fin 1024) (b : Bytes) (s : State), (s.ring r).reading = true ∧ (s.ring r).again = false ∧ (s.ring r).first = false ∧
      s.ringSt r = 1 ∧ s.host.ideBroken = false) ∧
    (∃ (r : Nat) (tail : BitVec 32) (poll : Bool) (s : State), r < 1024 ∧ s.regsWf = true ∧ tail ≠ (s.ring r).lastTail ∧
      2 ^ s.ringCfg r F.HIF_RING_CFG_SIZE_LOG2 < (tail - BitVec.ofNat 32 (s.ringHead r)).toNat) ∧
    (∃ (r : Fin 1024) (b : Bytes) (s : State), s.ringSt r = 1 ∧ s.linkHeld = false ∧
      s.fld R.HIF_WATCH_POLL F.HIF_WATCH_POLL_PERIOD ≠ 0 ∧ (s.ring r).first = false) ∧
    (∃ (r : Fin 1024) (b : Bytes) (s : State), (s.ring r).inFlight ≠ 0 ∧ s.ringSt r = 1 ∧ s.host.ideBroken = false) ∧
    (∃ (r : Nat) (b : Bytes) (s : State), r < 1024 ∧ s.regsWf = true) ∧
    (∃ (r : Fin 1024) (s : State), (s.ring r).inFlight ≠ 0 ∧ s.ringSt r = 1 ∧ s.host.ideBroken = false) :=
  ⟨⟨65, { (wRun.setFld (R.HIF_RING_STATE 65) F.HIF_RING_STATE_STATE 1) with host.rings := [(65, { shared := true })] },
    by decide +kernel⟩,
   ⟨65, [1, 0, 0, 0],
    { (wRun.setFld (R.HIF_RING_STATE 65) F.HIF_RING_STATE_STATE 1) with host.rings := [(65, { reading := true, first := true })] },
    by decide +kernel⟩,
   ⟨65, [1, 0, 0, 0],
    { (wRun.setFld (R.HIF_RING_STATE 65) F.HIF_RING_STATE_STATE 1) with host.rings := [(65, { reading := true })] },
    by decide +kernel⟩,
   ⟨65, 65, true,
    (wRun.setFld (R.HIF_RING_STATE 65) F.HIF_RING_STATE_STATE 1).setFld (R.HIF_RING_CFG 65) F.HIF_RING_CFG_SIZE_LOG2 6,
    by decide +kernel⟩,
   ⟨65, [1, 0, 0, 0],
    (wRun.setFld (R.HIF_RING_STATE 65) F.HIF_RING_STATE_STATE 1).setFld R.HIF_WATCH_POLL F.HIF_WATCH_POLL_PERIOD 10,
    by decide +kernel⟩,
   ⟨65, [0x30, 0], { (wRun.setFld (R.HIF_RING_STATE 65) F.HIF_RING_STATE_STATE 1) with host.rings := [(65, { inFlight := 2 })] },
    by decide +kernel⟩,
   ⟨65, [0x30, 0], wRun, by decide +kernel⟩,
   ⟨65, { (wRun.setFld (R.HIF_RING_STATE 65) F.HIF_RING_STATE_STATE 1) with host.rings := [(65, { inFlight := 2 })] },
    by decide +kernel⟩⟩

theorem witness_WorkItems :
    (∃ (item : Nat) (i : Item) (s : State), s.item? item = some i ∧ i.stage = .fetched ∧
      ((s.earlier i).any (fun x => x.stage == .fetched) = false) ∧ (i.flag 4 = false ∨ s.earlier i = [])) ∧
    (∃ (item : Nat) (i : Item) (s : State), s.item? item = some i ∧ i.stage = .parked ∧ i.hit = true) ∧
    (∃ (item : Nat) (i : Item) (s : State), s.item? item = some i ∧ i.stage = .parked ∧ leAt i.bytes 30 2 ≠ 0 ∧ i.hit = false) ∧
    (∃ (item : Nat) (i : Item) (s : State), s.item? item = some i ∧ i.stage = .queued ∧ i.kind = 0) ∧
    (∃ (item : Nat) (i : Item) (s : State), s.item? item = some i ∧ i.stage = .queued ∧ i.kind = 2) ∧
    (∃ (item : Nat) (h : Nat) (i : Item) (rest : List Nat) (s : State), s.item? item = some i ∧ i.stage = .queued ∧
      s.host.runQueue = item :: rest ∧ i.kind = 1 ∧ ((List.finRange 64).all (fun n => (s.ctx (.c n)).status == .free) = true)) ∧
    (∃ (n : Fin 64) (read : HostRead) (errs : List LineErr) (i : Item) (s : State), (s.ctx (.c n)).status = .loading ∧
      (s.ctx (.c n)).item.bind s.item? = some i) ∧
    (∃ (item : Nat) (i : Item) (s : State), s.item? item = some i ∧ i.stage = .done ∧ i.discard = false ∧ s.linkHeld = false ∧
      (i.flag 0 || i.status != 0 || !i.trusted) = true ∧ s.cqRoom i.cq = true) ∧
    (∃ (item : Nat) (i : Item) (s : State), s.item? item = some i ∧ i.stage = .done ∧ i.discard = false ∧ s.linkHeld = false ∧
      (i.flag 0 || i.status != 0 || !i.trusted) = true ∧ s.cqRoom i.cq = false) :=
  ⟨⟨3, { id := 3, ring := 65, index := 0, bytes := [0x30, 0] },
    { wRun with host.items := [{ id := 3, ring := 65, index := 0, bytes := [0x30, 0] }] }, by decide +kernel⟩,
   ⟨3, { id := 3, ring := 65, index := 0, bytes := [0x30, 0], stage := .parked, hit := true },
    { wRun with host.items := [{ id := 3, ring := 65, index := 0, bytes := [0x30, 0], stage := .parked, hit := true }] },
    by decide +kernel⟩,
   ⟨3, { id := 3, ring := 65, index := 0, bytes := List.replicate 31 1, stage := .parked },
    { wRun with host.items := [{ id := 3, ring := 65, index := 0, bytes := List.replicate 31 1, stage := .parked }] },
    by decide +kernel⟩,
   ⟨3, { id := 3, ring := 65, index := 0, bytes := [0x30, 0], stage := .queued },
    { wRun with host.items := [{ id := 3, ring := 65, index := 0, bytes := [0x30, 0], stage := .queued }] }, by decide +kernel⟩,
   ⟨3, { id := 3, ring := 65, index := 0, bytes := [0x30, 2], stage := .queued },
    { wRun with host.items := [{ id := 2, ring := 65, index := 0, bytes := [0x30, 0], stage := .queued }, { id := 3, ring := 65, index := 0, bytes := [0x30, 2], stage := .queued }] },
    by decide +kernel⟩,
   ⟨3, 0, { id := 3, ring := 65, index := 0, bytes := [0x30, 1], stage := .queued }, [],
    { wRun with host.items := [{ id := 3, ring := 65, index := 0, bytes := [0x30, 1], stage := .queued }], host.runQueue := [3] },
    by decide +kernel⟩,
   ⟨0, .failed, [], { id := 3, ring := 65, index := 0, bytes := [0x30, 1], stage := .started },
    { wRun with host.items := [{ id := 3, ring := 65, index := 0, bytes := [0x30, 1], stage := .started }], dxn.ctxs := [(0, { status := .loading, item := some 3 })] },
    by decide +kernel⟩,
   ⟨3, { id := 3, ring := 65, index := 0, bytes := [0x30, 0, 0, 0, 0, 0, 7, 0], stage := .done },
    { wRun with host.items := [{ id := 3, ring := 65, index := 0, bytes := [0x30, 0, 0, 0, 0, 0, 7, 0], stage := .done }] },
    by decide +kernel⟩,
   ⟨3, { id := 3, ring := 65, index := 0, bytes := [0x30, 0, 0, 0, 0, 0, 7, 0], stage := .done },
    { (wRun.setFld (R.HIF_CQ_STATE 0) F.HIF_CQ_STATE_TAIL 9) with host.items := [{ id := 3, ring := 65, index := 0, bytes := [0x30, 0, 0, 0, 0, 0, 7, 0], stage := .done }] },
    by decide +kernel⟩⟩

theorem witness_MailboxCommands :
    (∃ (s : State), s.serves = true) ∧
    (∃ (s : State), s.serves = true) ∧
    (∃ (n : Nat) (s : State), s.serves = true) ∧
    (∃ (s : State), s.serves = true) ∧
    (∃ (offset : Nat) (length : Nat) (s : State), s.serves = true) ∧
    (∃ (s : State), s.serves = true) ∧
    (∃ (s : State), s.phase = 0xF ∧ s.board.place = .running) ∧
    (∃ (s : State), s.serves = true) ∧
    (∃ (opcode : BitVec 16) (s : State), s.serves = true) ∧
    (∃ (s : State), s.serves = false) ∧
    (∃ (i3c : Bool) (msg : Bytes) (s : State), mctpTypes.contains (byteAt msg 0 % 128) = true ∧ s.cfg.wellheadDown = false) ∧
    (∃ (i3c : Bool) (wellFormed : Bool) (msg : Bytes) (s : State),
      (wellFormed = false ∨ mctpTypes.contains (byteAt msg 0 % 128) = false)) :=
  ⟨⟨wRun, by decide +kernel⟩,
   ⟨wRun, by decide +kernel⟩,
   ⟨1, { wRun with host.mailEvents := [[1], [2]], board.alertN := false }, by decide +kernel⟩,
   ⟨wRun, by decide +kernel⟩,
   ⟨0, 4, wRun, by decide +kernel⟩,
   ⟨wRun, by decide +kernel⟩,
   ⟨wPhase 0xF, by decide +kernel⟩,
   ⟨wRun, by decide +kernel⟩,
   ⟨0x1234, wRun, by decide +kernel⟩,
   ⟨{ wRun with cfg.wellheadDown := true }, by decide +kernel⟩,
   ⟨true, [0, 0, 1, 0, 9], wRun, by decide +kernel⟩,
   ⟨false, true, [3], wRun, by decide +kernel⟩⟩

theorem witness_FirmwareBanks :
    (∃ (data : Bytes) (s : State), s.serves = true ∧ s.sec.transfer = none ∧ data.length ≤ bankSize) ∧
    (∃ (b : Nat) (d : Bytes) (data : Bytes) (s : State), s.serves = true ∧ s.sec.transfer = some (b, d) ∧
      d.length + data.length ≤ bankSize) ∧
    (∃ (b : Nat) (d : Bytes) (data : Bytes) (s : State), s.serves = true ∧ s.sec.transfer = some (b, d) ∧
      d.length + data.length ≤ bankSize) ∧
    (∃ (offset : Nat) (data : Bytes) (s : State), s.serves = true ∧ s.sec.transfer ≠ none) ∧
    (∃ (bank : Fin 2) (s : State), s.serves = true ∧ s.sec.transfer = none) :=
  ⟨⟨[1, 2], { wRun with sec.bankB := [7] }, by decide +kernel⟩,
   ⟨2, [1, 2], [3], wTransfer, by decide +kernel⟩,
   ⟨2, [1, 2], [3], wTransfer, by decide +kernel⟩,
   ⟨0, [], wTransfer, by decide +kernel⟩,
   ⟨1, wRun, by decide +kernel⟩⟩

theorem witness_SecurityCommands :
    (∃ (via : Via) (nonce : Bytes) (s : State), s.serves = true ∧ s.ldg.sigNext < 2 ^ 40 ∧ s.ldg.sigNext < s.ldg.sigMark + 1024) ∧
    (∃ (via : Via) (nonce : Bytes) (s : State), s.serves = true ∧ 2 ^ 40 ≤ s.ldg.sigNext) ∧
    (∃ (via : Via) (s : State), s.serves = true) ∧
    (∃ (via : Via) (slot : BitVec 8) (ciphertext : Bytes) (s : State), s.serves = true ∧ slot.toNat ≤ 3 ∧
      ciphertext.length = 1568 ∧ (swf (fun _ => none) s.sec.psk = true)) ∧
    (∃ (via : Via) (slot : BitVec 8) (ciphertext : Bytes) (s : State), s.serves = true ∧
      (3 < slot.toNat ∨ ciphertext.length ≠ 1568)) ∧
    (∃ (via : Via) (slot : BitVec 8) (signer : BitVec 8) (pubkey : Bytes) (msg : Bytes) (signature : Bytes) (s : State),
      s.serves = true) ∧
    (∃ (via : Via) (force : Bool) (s : State), s.serves = true ∧ s.recoveryRuns = false ∧ force = true) ∧
    (∃ (via : Via) (reg : BitVec 8) (digest : Bytes) (s : State), s.serves = true ∧ 4 ≤ reg.toNat ∧ reg.toNat ≤ 7 ∧
      digest.length = 48) ∧
    (∃ (via : Via) (reg : BitVec 8) (digest : Bytes) (s : State), s.serves = true ∧
      (reg.toNat < 4 ∨ 7 < reg.toNat ∨ digest.length ≠ 48)) :=
  ⟨⟨.mailbox, [1], { wRun with ldg.sigNext := 0x400000000, ldg.sigMark := 0x400000000 }, by decide +kernel⟩,
   ⟨.mctp true, [1], { wRun with ldg.sigNext := 0x10000000000 }, by decide +kernel⟩,
   ⟨.udp true 5 6 7, wRun, by decide +kernel⟩,
   ⟨.mailbox, 3, List.replicate 1568 0, wSession, by decide +kernel⟩,
   ⟨.mailbox, 4, [], wSession, by decide +kernel⟩,
   ⟨.mailbox, 2, 1, [], [], [], wRun, by decide +kernel⟩,
   ⟨.mailbox, true, wRun.setFld R.SEC_FW F.SEC_FW_SVN 9, by decide +kernel⟩,
   ⟨.mailbox, 4, List.replicate 48 0, wRun, by decide +kernel⟩,
   ⟨.mailbox, 8, List.replicate 48 0, wRun, by decide +kernel⟩⟩

theorem witness_SpdmAndIdeKeys :
    (∃ (i3c : Bool) (slot : BitVec 8) (version : BitVec 8) (msg : Bytes) (k : BitVec 384) (s : State), s.serves = true ∧
      sget none s.sec.psk slot.toNat = some k ∧ (version = 0x12 ∨ version = 0x13)) ∧
    (∃ (i3c : Bool) (index : BitVec 8) (s : State), s.serves = true ∧ 1 ≤ index.toNat ∧ index.toNat ≤ 8) ∧
    (∃ (i3c : Bool) (session : Nat) (protocol : Fin 3) (tx : Bool) (set : Fin 2) (key : Bytes) (s : State), s.serves = true ∧
      s.sessionOk session = true ∧ sget 0 s.sec.ideActive (ideDir protocol tx) ≠ set.val + 1) ∧
    (∃ (i3c : Bool) (session : Nat) (protocol : Fin 3) (tx : Bool) (set : Fin 2) (s : State), s.serves = true ∧
      s.sessionOk session = true ∧ sget [] s.sec.ideKeys (2 * ideDir protocol tx + set.val) ≠ []) ∧
    (∃ (i3c : Bool) (session : Nat) (protocol : Fin 3) (tx : Bool) (set : Fin 2) (s : State), s.serves = true ∧
      s.sessionOk session = true ∧ (swf (fun _ => []) s.sec.ideKeys = true) ∧ (swf (fun _ => 0) s.sec.ideActive = true)) ∧
    (∃ (s : State), s.regsWf = true) ∧
    (∃ (i3c : Bool) (session : Nat) (protocol : Fin 3) (tx : Bool) (set : Fin 2) (key : Bytes) (s : State), s.serves = true ∧
      s.sessionOk session = false) :=
  ⟨⟨true, 2, 0x12, [], 5, wSession, by decide +kernel⟩,
   ⟨true, 8, wRun, by decide +kernel⟩,
   ⟨true, 0, 2, true, 1, [9], wSession, by decide +kernel⟩,
   ⟨true, 0, 2, true, 1, { wSession with sec.ideKeys := [(11, [9])] }, by decide +kernel⟩,
   ⟨true, 0, 2, true, 1, { wSession with sec.ideKeys := [(11, [9])], sec.ideActive := [(5, 2)] }, by decide +kernel⟩,
   ⟨{ wSession with sec.ideActive := [(0, 1), (1, 1), (2, 1), (3, 1), (4, 1), (5, 2)] }, by decide +kernel⟩,
   ⟨true, 0, 2, true, 1, [9], wRun, by decide +kernel⟩⟩

theorem witness_ScalarInstructions :
    (∃ (c : Ctx) (body : BitVec 56) (s : State) (w : Nat), w = dxnWord 0x01 body ∧ s.Runs c w [] false) ∧
    (∃ (c : Ctx) (body : BitVec 56) (s : State) (w : Nat), w = dxnWord 0x02 body ∧ s.Runs c w [] false) ∧
    (∃ (c : Ctx) (body : BitVec 56) (s : State) (w : Nat), w = dxnWord 0x03 body ∧ s.Runs c w [] false) ∧
    (∃ (c : Ctx) (body : BitVec 56) (s : State) (w : Nat), w = dxnWord 0x07 body ∧ s.Runs c w [] false) ∧
    (∃ (c : Ctx) (body : BitVec 56) (s : State) (w : Nat), w = dxnWord 0x08 body ∧ s.Runs c w [] false) ∧
    (∃ (c : Ctx) (body : BitVec 56) (s : State) (w : Nat), w = dxnWord 0x05 body ∧ s.Runs c w [] false ∧
      (tyIsInt (wT w) = false ∨ scNat (wT w) ((s.ctx c).reg (wB w)) ≠ 0)) ∧
    (∃ (c : Ctx) (body : BitVec 56) (s : State) (w : Nat), w = dxnWord 0x05 body ∧ s.Runs c w [] false ∧ tyIsInt (wT w) = true ∧
      scNat (wT w) ((s.ctx c).reg (wB w)) = 0) ∧
    (∃ (c : Ctx) (body : BitVec 56) (s : State) (w : Nat), w = dxnWord 0x06 body ∧ s.Runs c w [] false ∧
      (tyIsInt (wT w) = false ∨ scNat (wT w) ((s.ctx c).reg (wB w)) ≠ 0)) ∧
    (∃ (c : Ctx) (body : BitVec 56) (s : State) (w : Nat), w = dxnWord 0x06 body ∧ s.Runs c w [] false ∧ tyIsInt (wT w) = true ∧
      scNat (wT w) ((s.ctx c).reg (wB w)) = 0) ∧
    (∃ (c : Ctx) (body : BitVec 56) (s : State) (w : Nat), w = dxnWord 0x04 body ∧ s.Runs c w [] false) ∧
    (∃ (c : Ctx) (body : BitVec 56) (s : State) (w : Nat), w = dxnWord 0x09 body ∧ s.Runs c w [] false) ∧
    (∃ (c : Ctx) (body : BitVec 56) (s : State) (w : Nat), w = dxnWord 0x0A body ∧ s.Runs c w [] false) ∧
    (∃ (c : Ctx) (body : BitVec 56) (s : State) (w : Nat), w = dxnWord 0x0B body ∧ s.Runs c w [] false) ∧
    (∃ (c : Ctx) (body : BitVec 56) (s : State) (w : Nat), w = dxnWord 0x0C body ∧ s.Runs c w [] false) ∧
    (∃ (c : Ctx) (body : BitVec 56) (s : State) (w : Nat), w = dxnWord 0x0D body ∧ s.Runs c w [] false) ∧
    (∃ (c : Ctx) (body : BitVec 56) (s : State) (w : Nat), w = dxnWord 0x0E body ∧ s.Runs c w [] false) ∧
    (∃ (c : Ctx) (body : BitVec 56) (s : State) (w : Nat), w = dxnWord 0x0F body ∧ s.Runs c w [] false) ∧
    (∃ (c : Ctx) (body : BitVec 56) (s : State) (w : Nat), w = dxnWord 0x10 body ∧ s.Runs c w [] false) ∧
    (∃ (c : Ctx) (body : BitVec 56) (s : State) (w : Nat), w = dxnWord 0x11 body ∧ s.Runs c w [] false) ∧
    (∃ (c : Ctx) (body : BitVec 56) (s : State) (w : Nat), w = dxnWord 0x12 body ∧ s.Runs c w [] false) ∧
    (∃ (c : Ctx) (body : BitVec 56) (s : State) (w : Nat), w = dxnWord 0x13 body ∧ s.Runs c w [] false) ∧
    (∃ (c : Ctx) (body : BitVec 56) (s : State) (w : Nat), w = dxnWord 0x14 body ∧ s.Runs c w [] false) ∧
    (∃ (c : Ctx) (body : BitVec 56) (s : State) (w : Nat), w = dxnWord 0x15 body ∧ s.Runs c w [] false) ∧
    (∃ (c : Ctx) (body : BitVec 56) (s : State) (w : Nat), w = dxnWord 0x16 body ∧ s.Runs c w [] false) ∧
    (∃ (c : Ctx) (body : BitVec 56) (s : State) (w : Nat), w = dxnWord 0x17 body ∧ s.Runs c w [] false) ∧
    (∃ (c : Ctx) (body : BitVec 56) (s : State) (w : Nat), w = dxnWord 0x18 body ∧ s.Runs c w [] false) ∧
    (∃ (c : Ctx) (body : BitVec 56) (s : State) (w : Nat), w = dxnWord 0x19 body ∧ s.Runs c w [] false) ∧
    (∃ (c : Ctx) (body : BitVec 56) (s : State) (w : Nat), w = dxnWord 0x1A body ∧ s.Runs c w [] false) ∧
    (∃ (c : Ctx) (body : BitVec 56) (s : State) (w : Nat), w = dxnWord 0x1B body ∧ s.Runs c w [] false) ∧
    (∃ (c : Ctx) (body : BitVec 56) (s : State) (w : Nat), w = dxnWord 0x1C body ∧ s.Runs c w [] false) ∧
    (∃ (c : Ctx) (body : BitVec 56) (s : State) (w : Nat), w = dxnWord 0x1D body ∧ s.Runs c w [] false) ∧
    (∃ (c : Ctx) (body : BitVec 56) (s : State) (w : Nat), w = dxnWord 0x1E body ∧ s.Runs c w [] false) ∧
    (∃ (x : Context) (w : Nat) (fi : Int → Int → Int) (ff : Fp → Fp → Fp × Flags), tyIsInt (wT w) = true) ∧
    (∃ (x : Context) (w : Nat) (fi : Int → Int → Int) (ff : Fp → Fp → Fp × Flags), tyIsInt (wT w) = false) ∧
    (∃ (x : Context) (d : Nat) (v : Word), (swf (fun _ => 0) x.g = true)) ∧
    (∃ (bits : Nat) (v : Int), 0 < bits) ∧
    (∃ (t : Nat) (n : Nat), t < 3 ∧ n < 2 ^ tyBits t) ∧
    (∃ (t : Nat) (v : Word) (n : Nat), (t = 1 ∨ t = 2)) :=
  ⟨⟨.c 5, kBody 3 1 2 0 1 0, wCode (.c 5) 0x01 (kBody 3 1 2 0 1 0) (wX [(1, 7), (2, 3), (3, 5)]), dxnWord 0x01 (kBody 3 1 2 0 1 0),
    by decide +kernel, runs_by nop (by decide +kernel)⟩,
   ⟨.c 5, kBody 3 1 2 0 1 0, wCode (.c 5) 0x02 (kBody 3 1 2 0 1 0) (wX [(1, 7), (2, 3), (3, 5)]), dxnWord 0x02 (kBody 3 1 2 0 1 0),
    by decide +kernel, runs_by nop (by decide +kernel)⟩,
   ⟨.c 5, kBody 3 1 2 0 1 0, wCode (.c 5) 0x03 (kBody 3 1 2 0 1 0) (wX [(1, 7), (2, 3), (3, 5)]), dxnWord 0x03 (kBody 3 1 2 0 1 0),
    by decide +kernel, runs_by nop (by decide +kernel)⟩,
   ⟨.c 5, kBody 3 1 2 0 1 0, wCode (.c 5) 0x07 (kBody 3 1 2 0 1 0) (wX [(1, 7), (2, 3), (3, 5)]), dxnWord 0x07 (kBody 3 1 2 0 1 0),
    by decide +kernel, runs_by nop (by decide +kernel)⟩,
   ⟨.c 5, kBody 3 1 2 0 1 0, wCode (.c 5) 0x08 (kBody 3 1 2 0 1 0) (wX [(1, 7), (2, 3), (3, 5)]), dxnWord 0x08 (kBody 3 1 2 0 1 0),
    by decide +kernel, runs_by nop (by decide +kernel)⟩,
   ⟨.c 5, kBody 3 1 2 0 2 0, wCode (.c 5) 0x05 (kBody 3 1 2 0 2 0) (wX [(1, 7), (2, 3), (3, 5)]), dxnWord 0x05 (kBody 3 1 2 0 2 0),
    by decide +kernel, runs_by nop (by decide +kernel), by decide +kernel⟩,
   ⟨.c 5, kBody 3 1 4 0 2 0, wCode (.c 5) 0x05 (kBody 3 1 4 0 2 0) (wX [(1, 7), (2, 3), (3, 5)]), dxnWord 0x05 (kBody 3 1 4 0 2 0),
    by decide +kernel, runs_by nop (by decide +kernel), by decide +kernel⟩,
   ⟨.c 5, kBody 3 1 2 0 2 0, wCode (.c 5) 0x06 (kBody 3 1 2 0 2 0) (wX [(1, 7), (2, 3), (3, 5)]), dxnWord 0x06 (kBody 3 1 2 0 2 0),
    by decide +kernel, runs_by nop (by decide +kernel), by decide +kernel⟩,
   ⟨.c 5, kBody 3 1 4 0 2 0, wCode (.c 5) 0x06 (kBody 3 1 4 0 2 0) (wX [(1, 7), (2, 3), (3, 5)]), dxnWord 0x06 (kBody 3 1 4 0 2 0),
    by decide +kernel, runs_by nop (by decide +kernel), by decide +kernel⟩,
   ⟨.c 5, kBody 3 1 2 0 1 1, wCode (.c 5) 0x04 (kBody 3 1 2 0 1 1) (wX [(1, 7), (2, 3), (3, 5)]), dxnWord 0x04 (kBody 3 1 2 0 1 1),
    by decide +kernel, runs_by nop (by decide +kernel)⟩,
   ⟨.c 5, kBody 3 1 2 0 0 0, wCode (.c 5) 0x09 (kBody 3 1 2 0 0 0) (wX [(1, 7), (2, 3), (3, 5)]), dxnWord 0x09 (kBody 3 1 2 0 0 0),
    by decide +kernel, runs_by nop (by decide +kernel)⟩,
   ⟨.c 5, kBody 3 1 2 0 0 0, wCode (.c 5) 0x0A (kBody 3 1 2 0 0 0) (wX [(1, 7), (2, 3), (3, 5)]), dxnWord 0x0A (kBody 3 1 2 0 0 0),
    by decide +kernel, runs_by nop (by decide +kernel)⟩,
   ⟨.c 5, kBody 3 1 2 0 0 0, wCode (.c 5) 0x0B (kBody 3 1 2 0 0 0) (wX [(1, 7), (2, 3), (3, 5)]), dxnWord 0x0B (kBody 3 1 2 0 0 0),
    by decide +kernel, runs_by nop (by decide +kernel)⟩,
   ⟨.c 5, kBody 3 1 2 0 1 0, wCode (.c 5) 0x0C (kBody 3 1 2 0 1 0) (wX [(1, 7), (2, 3), (3, 5)]), dxnWord 0x0C (kBody 3 1 2 0 1 0),
    by decide +kernel, runs_by nop (by decide +kernel)⟩,
   ⟨.c 5, kBody 3 1 2 0 1 0, wCode (.c 5) 0x0D (kBody 3 1 2 0 1 0) (wX [(1, 7), (2, 3), (3, 5)]), dxnWord 0x0D (kBody 3 1 2 0 1 0),
    by decide +kernel, runs_by nop (by decide +kernel)⟩,
   ⟨.c 5, kBody 3 1 2 0 1 0, wCode (.c 5) 0x0E (kBody 3 1 2 0 1 0) (wX [(1, 7), (2, 3), (3, 5)]), dxnWord 0x0E (kBody 3 1 2 0 1 0),
    by decide +kernel, runs_by nop (by decide +kernel)⟩,
   ⟨.c 5, kBody 3 1 2 3 5 0, wCode (.c 5) 0x0F (kBody 3 1 2 3 5 0) (wX [(1, 7), (2, 3), (3, 5)]), dxnWord 0x0F (kBody 3 1 2 3 5 0),
    by decide +kernel, runs_by nop (by decide +kernel)⟩,
   ⟨.c 5, kBody 3 1 2 0 1 2, wCode (.c 5) 0x10 (kBody 3 1 2 0 1 2) (wX [(1, 7), (2, 3), (3, 5)]), dxnWord 0x10 (kBody 3 1 2 0 1 2),
    by decide +kernel, runs_by nop (by decide +kernel)⟩,
   ⟨.c 5, kBody 3 1 2 4 0 0, wCode (.c 5) 0x11 (kBody 3 1 2 4 0 0) (wX [(1, 7), (2, 3), (3, 5)]), dxnWord 0x11 (kBody 3 1 2 4 0 0),
    by decide +kernel, runs_by nop (by decide +kernel)⟩,
   ⟨.c 5, kBody 3 1 0 0 2 0x41, wCode (.c 5) 0x12 (kBody 3 1 0 0 2 0x41) (wX [(1, 7), (2, 3), (3, 5)]),
    dxnWord 0x12 (kBody 3 1 0 0 2 0x41), by decide +kernel, runs_by nop (by decide +kernel)⟩,
   ⟨.c 5, iBody 3 0 0 0 0xFFFFFFFF, wCode (.c 5) 0x13 (iBody 3 0 0 0 0xFFFFFFFF) (wX [(1, 7), (2, 3), (3, 5)]),
    dxnWord 0x13 (iBody 3 0 0 0 0xFFFFFFFF), by decide +kernel, runs_by nop (by decide +kernel)⟩,
   ⟨.c 5, iBody 3 1 0 0 0xFFFFFFFF, wCode (.c 5) 0x14 (iBody 3 1 0 0 0xFFFFFFFF) (wX [(1, 7), (2, 3), (3, 5)]),
    dxnWord 0x14 (iBody 3 1 0 0 0xFFFFFFFF), by decide +kernel, runs_by nop (by decide +kernel)⟩,
   ⟨.c 5, iBody 3 1 1 0x100 0x7FFFFFFF, wCode (.c 5) 0x15 (iBody 3 1 1 0x100 0x7FFFFFFF) (wX [(1, 7), (2, 3), (3, 5)]),
    dxnWord 0x15 (iBody 3 1 1 0x100 0x7FFFFFFF), by decide +kernel, runs_by nop (by decide +kernel)⟩,
   ⟨.c 5, iBody 3 1 0 0 5, wCode (.c 5) 0x16 (iBody 3 1 0 0 5) (wX [(1, 7), (2, 3), (3, 5)]), dxnWord 0x16 (iBody 3 1 0 0 5),
    by decide +kernel, runs_by nop (by decide +kernel)⟩,
   ⟨.c 5, iBody 3 1 0 0 5, wCode (.c 5) 0x17 (iBody 3 1 0 0 5) (wX [(1, 7), (2, 3), (3, 5)]), dxnWord 0x17 (iBody 3 1 0 0 5),
    by decide +kernel, runs_by nop (by decide +kernel)⟩,
   ⟨.c 5, iBody 3 1 0 0 5, wCode (.c 5) 0x18 (iBody 3 1 0 0 5) (wX [(1, 7), (2, 3), (3, 5)]), dxnWord 0x18 (iBody 3 1 0 0 5),
    by decide +kernel, runs_by nop (by decide +kernel)⟩,
   ⟨.c 5, iBody 3 1 1 0 63, wCode (.c 5) 0x19 (iBody 3 1 1 0 63) (wX [(1, 7), (2, 3), (3, 5)]), dxnWord 0x19 (iBody 3 1 1 0 63),
    by decide +kernel, runs_by nop (by decide +kernel)⟩,
   ⟨.c 5, iBody 3 1 1 0 63, wCode (.c 5) 0x1A (iBody 3 1 1 0 63) (wX [(1, 7), (2, 3), (3, 5)]), dxnWord 0x1A (iBody 3 1 1 0 63),
    by decide +kernel, runs_by nop (by decide +kernel)⟩,
   ⟨.c 5, iBody 3 1 1 0 63, wCode (.c 5) 0x1B (iBody 3 1 1 0 63) (wX [(1, 7), (2, 3), (3, 5)]), dxnWord 0x1B (iBody 3 1 1 0 63),
    by decide +kernel, runs_by nop (by decide +kernel)⟩,
   ⟨.c 5, iBody 3 1 1 3 7, wCode (.c 5) 0x1C (iBody 3 1 1 3 7) (wX [(1, 7), (2, 3), (3, 5)]), dxnWord 0x1C (iBody 3 1 1 3 7),
    by decide +kernel, runs_by nop (by decide +kernel)⟩,
   ⟨.c 5, kBody 3 1 2 0 0 3, wCode (.c 5) 0x1D (kBody 3 1 2 0 0 3) (wX [(1, 7), (2, 3), (3, 5)]), dxnWord 0x1D (kBody 3 1 2 0 0 3),
    by decide +kernel, runs_by nop (by decide +kernel)⟩,
   ⟨.c 5, kBody 3 1 0 0 0 1, wCode (.c 5) 0x1E (kBody 3 1 0 0 0 1) (wX [(1, 7), (2, 3), (3, 5)]), dxnWord 0x1E (kBody 3 1 0 0 0 1),
    by decide +kernel, runs_by nop (by decide +kernel)⟩,
   ⟨{ g := [(1, 7), (2, 3)] }, dxnWord 0x01 (kBody 3 1 2 0 1 0), (· + ·), Fp.add, by decide +kernel⟩,
   ⟨{ g := [(1, 0x3F800000), (2, 0x40000000)] }, dxnWord 0x01 (kBody 3 1 2 0 5 0), (· + ·), Fp.add, by decide +kernel⟩,
   ⟨{ g := [(1, 7), (2, 3)] }, 3, 9, by decide +kernel⟩,
   ⟨32, 2147483648, by decide +kernel⟩,
   ⟨1, 0x80000000, by decide +kernel⟩,
   ⟨1, 0xFFFFFFFF80000001, 33, by decide +kernel⟩⟩

theorem witness_VectorInstructions :
    (∃ (c : Ctx) (body : BitVec 56) (s : State) (w : Nat), w = dxnWord 0x20 body ∧ s.Runs c w (locksDAB w) false) ∧
    (∃ (c : Ctx) (body : BitVec 56) (s : State) (w : Nat), w = dxnWord 0x21 body ∧ s.Runs c w (locksDAB w) false) ∧
    (∃ (c : Ctx) (body : BitVec 56) (s : State) (w : Nat), w = dxnWord 0x22 body ∧ s.Runs c w (locksDAB w) false) ∧
    (∃ (c : Ctx) (body : BitVec 56) (s : State) (w : Nat), w = dxnWord 0x24 body ∧ s.Runs c w (locksDAB w) false) ∧
    (∃ (c : Ctx) (body : BitVec 56) (s : State) (w : Nat), w = dxnWord 0x25 body ∧ s.Runs c w (locksDAB w) false) ∧
    (∃ (c : Ctx) (body : BitVec 56) (s : State) (w : Nat), w = dxnWord 0x26 body ∧ s.Runs c w (locksDAB w) false) ∧
    (∃ (c : Ctx) (body : BitVec 56) (s : State) (w : Nat), w = dxnWord 0x28 body ∧ s.Runs c w (locksDAB w) false) ∧
    (∃ (c : Ctx) (body : BitVec 56) (s : State) (w : Nat), w = dxnWord 0x29 body ∧ s.Runs c w (locksDAB w) false) ∧
    (∃ (c : Ctx) (body : BitVec 56) (s : State) (w : Nat), w = dxnWord 0x2A body ∧ s.Runs c w (locksDAB w) false) ∧
    (∃ (c : Ctx) (body : BitVec 56) (s : State) (w : Nat), w = dxnWord 0x2B body ∧ s.Runs c w (locksDAB w) false) ∧
    (∃ (c : Ctx) (body : BitVec 56) (s : State) (w : Nat), w = dxnWord 0x2C body ∧ s.Runs c w (locksDAB w) false) ∧
    (∃ (c : Ctx) (body : BitVec 56) (s : State) (w : Nat), w = dxnWord 0x2D body ∧ s.Runs c w (locksDAB w) false) ∧
    (∃ (c : Ctx) (body : BitVec 56) (s : State) (w : Nat), w = dxnWord 0x2E body ∧ s.Runs c w (locksDAB w) false) ∧
    (∃ (c : Ctx) (body : BitVec 56) (s : State) (w : Nat), w = dxnWord 0x23 body ∧
      s.Runs c w (vLocks (some (wD w)) (some (wA w)) (some (wB w)) (some (wC w))) false) ∧
    (∃ (c : Ctx) (body : BitVec 56) (s : State) (w : Nat), w = dxnWord 0x27 body ∧
      s.Runs c w (vLocks (some (wD w)) (some (wA w)) none none) false) ∧
    (∃ (c : Ctx) (body : BitVec 56) (s : State) (w : Nat), w = dxnWord 0x2F body ∧
      s.Runs c w (vLocks (some (wD w)) (some (wA w)) (some (wB w)) (some (wC w))) false) ∧
    (∃ (c : Ctx) (body : BitVec 56) (s : State) (w : Nat), w = dxnWord 0x30 body ∧
      s.Runs c w (vLocks (some (wD w)) (some (wA w)) none none) false) ∧
    (∃ (c : Ctx) (body : BitVec 56) (s : State) (w : Nat), w = dxnWord 0x31 body ∧
      s.Runs c w (vLocks (some (wD w)) none none none) false) ∧
    (∃ (c : Ctx) (body : BitVec 56) (s : State) (w : Nat), w = dxnWord 0x33 body ∧
      s.Runs c w (vLocks (some (wD w)) none none none) false) ∧
    (∃ (c : Ctx) (body : BitVec 56) (s : State) (w : Nat), w = dxnWord 0x32 body ∧ s.Runs c w [lockV (wA w)] false) ∧
    (∃ (c : Ctx) (body : BitVec 56) (s : State) (w : Nat), w = dxnWord 0x34 body ∧ s.Runs c w [lockV (wA w)] false) ∧
    (∃ (c : Ctx) (body : BitVec 56) (s : State) (w : Nat), w = dxnWord 0x35 body ∧ s.Runs c w [lockV (wD w)] false) ∧
    (∃ (c : Ctx) (w : Nat) (r : BitVec 2048 × Flags × Nat) (s : State), (swf (fun _ => 0) s.dxn.vregs = true)) ∧
    (∃ (c : Ctx) (w : Nat) (fi : Int → Int → Int) (ff : Fp → Fp → Fp × Flags) (i : Nat) (s : State), i < vCount (wT w) ∧
      tyIsInt (wT w) = true) ∧
    (∃ (c : Ctx) (w : Nat) (fi : Int → Int → Int) (ff : Fp → Fp → Fp × Flags) (i : Nat) (s : State), i < vCount (wT w) ∧
      tyIsInt (wT w) = false ∧ 3 ≤ wT w ∧ wT w ≤ 5) ∧
    (∃ (c : Ctx) (w : Nat) (i : Nat) (s : State), i < vCount (wT w)) :=
  ⟨⟨.t 1 2 3 0, kBody 3 1 2 0 1 0, wCode (.t 1 2 3 0) 0x20 (kBody 3 1 2 0 1 0) (wX [(1, 7), (2, 3)]),
    dxnWord 0x20 (kBody 3 1 2 0 1 0), by decide +kernel, runs_by nop (by decide +kernel)⟩,
   ⟨.t 1 2 3 0, kBody 3 1 2 0 0 0, wCode (.t 1 2 3 0) 0x21 (kBody 3 1 2 0 0 0) (wX [(1, 7), (2, 3)]),
    dxnWord 0x21 (kBody 3 1 2 0 0 0), by decide +kernel, runs_by nop (by decide +kernel)⟩,
   ⟨.t 1 2 3 0, kBody 3 1 2 0 5 0, wCode (.t 1 2 3 0) 0x22 (kBody 3 1 2 0 5 0) (wX [(1, 7), (2, 3)]),
    dxnWord 0x22 (kBody 3 1 2 0 5 0), by decide +kernel, runs_by nop (by decide +kernel)⟩,
   ⟨.t 1 2 3 0, kBody 3 1 2 0 1 0, wCode (.t 1 2 3 0) 0x24 (kBody 3 1 2 0 1 0) (wX [(1, 7), (2, 3)]),
    dxnWord 0x24 (kBody 3 1 2 0 1 0), by decide +kernel, runs_by nop (by decide +kernel)⟩,
   ⟨.t 1 2 3 0, kBody 3 1 2 0 4 0, wCode (.t 1 2 3 0) 0x25 (kBody 3 1 2 0 4 0) (wX [(1, 7), (2, 3)]),
    dxnWord 0x25 (kBody 3 1 2 0 4 0), by decide +kernel, runs_by nop (by decide +kernel)⟩,
   ⟨.t 1 2 3 0, kBody 3 1 2 0 3 0, wCode (.t 1 2 3 0) 0x26 (kBody 3 1 2 0 3 0) (wX [(1, 7), (2, 3)]),
    dxnWord 0x26 (kBody 3 1 2 0 3 0), by decide +kernel, runs_by nop (by decide +kernel)⟩,
   ⟨.t 1 2 3 0, kBody 3 1 2 0 0 0, wCode (.t 1 2 3 0) 0x28 (kBody 3 1 2 0 0 0) (wX [(1, 7), (2, 3)]),
    dxnWord 0x28 (kBody 3 1 2 0 0 0), by decide +kernel, runs_by nop (by decide +kernel)⟩,
   ⟨.t 1 2 3 0, kBody 3 1 2 0 0 0, wCode (.t 1 2 3 0) 0x29 (kBody 3 1 2 0 0 0) (wX [(1, 7), (2, 3)]),
    dxnWord 0x29 (kBody 3 1 2 0 0 0), by decide +kernel, runs_by nop (by decide +kernel)⟩,
   ⟨.t 1 2 3 0, kBody 3 1 2 0 0 0, wCode (.t 1 2 3 0) 0x2A (kBody 3 1 2 0 0 0) (wX [(1, 7), (2, 3)]),
    dxnWord 0x2A (kBody 3 1 2 0 0 0), by decide +kernel, runs_by nop (by decide +kernel)⟩,
   ⟨.t 1 2 3 0, kBody 3 1 2 0 0 0, wCode (.t 1 2 3 0) 0x2B (kBody 3 1 2 0 0 0) (wX [(1, 7), (2, 3)]),
    dxnWord 0x2B (kBody 3 1 2 0 0 0), by decide +kernel, runs_by nop (by decide +kernel)⟩,
   ⟨.t 1 2 3 0, kBody 3 1 2 0 1 0, wCode (.t 1 2 3 0) 0x2C (kBody 3 1 2 0 1 0) (wX [(1, 7), (2, 3)]),
    dxnWord 0x2C (kBody 3 1 2 0 1 0), by decide +kernel, runs_by nop (by decide +kernel)⟩,
   ⟨.t 1 2 3 0, kBody 3 1 2 0 1 0, wCode (.t 1 2 3 0) 0x2D (kBody 3 1 2 0 1 0) (wX [(1, 7), (2, 3)]),
    dxnWord 0x2D (kBody 3 1 2 0 1 0), by decide +kernel, runs_by nop (by decide +kernel)⟩,
   ⟨.t 1 2 3 0, kBody 3 1 2 0 5 0, wCode (.t 1 2 3 0) 0x2E (kBody 3 1 2 0 5 0) (wX [(1, 7), (2, 3)]),
    dxnWord 0x2E (kBody 3 1 2 0 5 0), by decide +kernel, runs_by nop (by decide +kernel)⟩,
   ⟨.t 1 2 3 0, kBody 3 1 2 4 5 0x80, wCode (.t 1 2 3 0) 0x23 (kBody 3 1 2 4 5 0x80) (wX [(1, 7), (2, 3)]),
    dxnWord 0x23 (kBody 3 1 2 4 5 0x80), by decide +kernel, runs_by nop (by decide +kernel)⟩,
   ⟨.t 1 2 3 0, kBody 3 1 0 0 5 0, wCode (.t 1 2 3 0) 0x27 (kBody 3 1 0 0 5 0) (wX [(1, 7), (2, 3)]),
    dxnWord 0x27 (kBody 3 1 0 0 5 0), by decide +kernel, runs_by nop (by decide +kernel)⟩,
   ⟨.t 1 2 3 0, kBody 3 1 2 4 0 0, wCode (.t 1 2 3 0) 0x2F (kBody 3 1 2 4 0 0) (wX [(1, 7), (2, 3)]),
    dxnWord 0x2F (kBody 3 1 2 4 0 0), by decide +kernel, runs_by nop (by decide +kernel)⟩,
   ⟨.t 1 2 3 0, kBody 3 1 0 0 5 0x14, wCode (.t 1 2 3 0) 0x30 (kBody 3 1 0 0 5 0x14) (wX [(1, 7), (2, 3)]),
    dxnWord 0x30 (kBody 3 1 0 0 5 0x14), by decide +kernel, runs_by nop (by decide +kernel)⟩,
   ⟨.t 1 2 3 0, kBody 3 1 0 0 5 0, wCode (.t 1 2 3 0) 0x31 (kBody 3 1 0 0 5 0) (wX [(1, 7), (2, 3)]),
    dxnWord 0x31 (kBody 3 1 0 0 5 0), by decide +kernel, runs_by nop (by decide +kernel)⟩,
   ⟨.t 1 2 3 0, kBody 3 1 2 0 1 0, wCode (.t 1 2 3 0) 0x33 (kBody 3 1 2 0 1 0) (wX [(1, 7), (2, 3)]),
    dxnWord 0x33 (kBody 3 1 2 0 1 0), by decide +kernel, runs_by nop (by decide +kernel)⟩,
   ⟨.t 1 2 3 0, kBody 3 1 2 0 1 0, wCode (.t 1 2 3 0) 0x32 (kBody 3 1 2 0 1 0) (wX [(1, 7), (2, 3)]),
    dxnWord 0x32 (kBody 3 1 2 0 1 0), by decide +kernel, runs_by nop (by decide +kernel)⟩,
   ⟨.t 1 2 3 0, kBody 3 1 0 0 1 2, wCode (.t 1 2 3 0) 0x34 (kBody 3 1 0 0 1 2) (wX [(1, 7), (2, 3)]),
    dxnWord 0x34 (kBody 3 1 0 0 1 2), by decide +kernel, runs_by nop (by decide +kernel)⟩,
   ⟨.t 1 2 3 0, kBody 3 0 0 0 0 0, wCode (.t 1 2 3 0) 0x35 (kBody 3 0 0 0 0 0) (wX [(1, 7), (2, 3)]),
    dxnWord 0x35 (kBody 3 0 0 0 0 0), by decide +kernel, runs_by nop (by decide +kernel)⟩,
   ⟨.t 1 2 3 0, dxnWord 0x20 (kBody 3 1 2 0 1 0), (9, 1, 2), wCode (.t 1 2 3 0) 0x20 (kBody 3 1 2 0 1 0) (wX [(1, 7), (2, 3)]),
    by decide +kernel⟩,
   ⟨.t 1 2 3 0, dxnWord 0x20 (kBody 3 1 2 0 0 0x40), (· + ·), Fp.add, 255,
    wCode (.t 1 2 3 0) 0x20 (kBody 3 1 2 0 0 0) (wX [(1, 7), (2, 3)]), by decide +kernel⟩,
   ⟨.t 1 2 3 0, dxnWord 0x20 (kBody 3 1 2 0 4 0), (· + ·), Fp.add, 127,
    wCode (.t 1 2 3 0) 0x20 (kBody 3 1 2 0 0 0) (wX [(1, 7), (2, 3)]), by decide +kernel⟩,
   ⟨.t 1 2 3 0, dxnWord 0x2E (kBody 3 1 2 4 1 0), 63, wCode (.t 1 2 3 0) 0x20 (kBody 3 1 2 0 0 0) (wX [(1, 7), (2, 3)]),
    by decide +kernel⟩⟩

theorem witness_TileInstructions :
    (∃ (c : Ctx) (body : BitVec 56) (s : State) (w : Nat), w = dxnWord 0x40 body ∧
      s.Runs c w [lockA (wD w), lockT (wA w), lockT (wB w)] true) ∧
    (∃ (q : Fin 4) (row : Fin 30) (col : Fin 32) (n : Fin 4) (t : Nat) (u : Nat) (s : State) (c : Ctx), c = .t q row col n) ∧
    (∃ (c : Ctx) (body : BitVec 56) (s : State) (w : Nat), w = dxnWord 0x41 body ∧ s.Runs c w [lockA (wD w)] false) ∧
    (∃ (c : Ctx) (body : BitVec 56) (s : State) (w : Nat), w = dxnWord 0x42 body ∧ s.Runs c w [lockA (wD w), lockT (wA w)] false) ∧
    (∃ (c : Ctx) (body : BitVec 56) (s : State) (w : Nat), w = dxnWord 0x43 body ∧ s.Runs c w [lockT (wD w), lockA (wA w)] false) ∧
    (∃ (c : Ctx) (body : BitVec 56) (s : State) (w : Nat), w = dxnWord 0x44 body ∧ s.Runs c w [lockV (wD w), lockT (wA w)] false) ∧
    (∃ (c : Ctx) (body : BitVec 56) (s : State) (w : Nat), w = dxnWord 0x45 body ∧
      s.Runs c w [lockT (wD w), lockV (wA w)] false ∧ tyMx (wT w) = true) ∧
    (∃ (c : Ctx) (body : BitVec 56) (s : State) (w : Nat), w = dxnWord 0x45 body ∧
      s.Runs c w [lockT (wD w), lockV (wA w)] false ∧ tyMx (wT w) = false) ∧
    (∃ (c : Ctx) (body : BitVec 56) (s : State) (w : Nat), w = dxnWord 0x46 body ∧ s.Runs c w [lockV (wD w), lockA (wA w)] false) ∧
    (∃ (c : Ctx) (body : BitVec 56) (s : State) (w : Nat), w = dxnWord 0x47 body ∧ s.Runs c w [lockA (wD w), lockV (wA w)] false) ∧
    (∃ (c : Ctx) (body : BitVec 56) (s : State) (w : Nat), w = dxnWord 0x48 body ∧ s.Runs c w [lockT (wD w), lockT (wA w)] false) ∧
    (∃ (c : Ctx) (body : BitVec 56) (s : State) (w : Nat), w = dxnWord 0x49 body ∧ s.Runs c w [lockT (wD w), lockT (wA w)] false) ∧
    (∃ (c : Ctx) (body : BitVec 56) (s : State) (w : Nat), w = dxnWord 0x4A body ∧ s.Runs c w [lockT (wD w)] false) ∧
    (∃ (c : Ctx) (body : BitVec 56) (s : State) (w : Nat), w = dxnWord 0x4B body ∧ s.Runs c w [lockT (wD w)] false) ∧
    (∃ (c : Ctx) (d : Nat) (t : Nat) (codes : List Nat) (scales : List Nat) (s : State), (tyMx t = true ∨ elBits t = 32)) ∧
    (∃ (c : Ctx) (d : Nat) (t : Nat) (codes : List Nat) (s : State), (swf (fun _ => 0) s.dxn.tregs = true) ∧
      (t = 0 ∨ t = 3 ∨ t = 4)) :=
  ⟨⟨.t 1 2 3 0, kBody 3 1 2 0 0 0x10, wCode (.t 1 2 3 0) 0x40 (kBody 3 1 2 0 0 0x10) (wX [(1, 7), (2, 3)]),
    dxnWord 0x40 (kBody 3 1 2 0 0 0x10), by decide +kernel, runs_by nop (by decide +kernel)⟩,
   ⟨1, 2, 3, 0, 0, 0, wRun, .t 1 2 3 0, by decide +kernel⟩,
   ⟨.t 1 2 3 0, kBody 3 0 0 0 0 0, wCode (.t 1 2 3 0) 0x41 (kBody 3 0 0 0 0 0) (wX [(1, 7), (2, 3)]),
    dxnWord 0x41 (kBody 3 0 0 0 0 0), by decide +kernel, runs_by nop (by decide +kernel)⟩,
   ⟨.t 1 2 3 0, kBody 3 1 0 0 5 0, wCode (.t 1 2 3 0) 0x42 (kBody 3 1 0 0 5 0) (wX [(1, 7), (2, 3)]),
    dxnWord 0x42 (kBody 3 1 0 0 5 0), by decide +kernel, runs_by nop (by decide +kernel)⟩,
   ⟨.t 1 2 3 0, kBody 3 1 0 0 0 0, wCode (.t 1 2 3 0) 0x43 (kBody 3 1 0 0 0 0) (wX [(1, 7), (2, 3)]),
    dxnWord 0x43 (kBody 3 1 0 0 0 0), by decide +kernel, runs_by nop (by decide +kernel)⟩,
   ⟨.t 1 2 3 0, kBody 3 1 1 0 0 0, wCode (.t 1 2 3 0) 0x44 (kBody 3 1 1 0 0 0) (wX [(1, 7), (2, 3)]),
    dxnWord 0x44 (kBody 3 1 1 0 0 0), by decide +kernel, runs_by nop (by decide +kernel)⟩,
   ⟨.t 1 2 3 0, kBody 3 1 2 0 7 0, wCode (.t 1 2 3 0) 0x45 (kBody 3 1 2 0 7 0) (wX [(1, 7), (2, 3)]),
    dxnWord 0x45 (kBody 3 1 2 0 7 0), by decide +kernel, runs_by nop (by decide +kernel), by decide +kernel⟩,
   ⟨.t 1 2 3 0, kBody 3 1 2 0 0 0, wCode (.t 1 2 3 0) 0x45 (kBody 3 1 2 0 0 0) (wX [(1, 7), (2, 3)]),
    dxnWord 0x45 (kBody 3 1 2 0 0 0), by decide +kernel, runs_by nop (by decide +kernel), by decide +kernel⟩,
   ⟨.t 1 2 3 0, kBody 3 1 1 0 0 0, wCode (.t 1 2 3 0) 0x46 (kBody 3 1 1 0 0 0) (wX [(1, 7), (2, 3)]),
    dxnWord 0x46 (kBody 3 1 1 0 0 0), by decide +kernel, runs_by nop (by decide +kernel)⟩,
   ⟨.t 1 2 3 0, kBody 3 1 1 0 0 0, wCode (.t 1 2 3 0) 0x47 (kBody 3 1 1 0 0 0) (wX [(1, 7), (2, 3)]),
    dxnWord 0x47 (kBody 3 1 1 0 0 0), by decide +kernel, runs_by nop (by decide +kernel)⟩,
   ⟨.t 1 2 3 0, kBody 3 1 0 0 0 0, wCode (.t 1 2 3 0) 0x48 (kBody 3 1 0 0 0 0) (wX [(1, 7), (2, 3)]),
    dxnWord 0x48 (kBody 3 1 0 0 0 0), by decide +kernel, runs_by nop (by decide +kernel)⟩,
   ⟨.t 1 2 3 0, kBody 3 1 0 0 0 0x8, wCode (.t 1 2 3 0) 0x49 (kBody 3 1 0 0 0 0x8) (wX [(1, 7), (2, 3)]),
    dxnWord 0x49 (kBody 3 1 0 0 0 0x8), by decide +kernel, runs_by nop (by decide +kernel)⟩,
   ⟨.t 1 2 3 0, kBody 3 0 0 0 0 0, wCode (.t 1 2 3 0) 0x4A (kBody 3 0 0 0 0 0) (wX [(1, 7), (2, 3)]),
    dxnWord 0x4A (kBody 3 0 0 0 0 0), by decide +kernel, runs_by nop (by decide +kernel)⟩,
   ⟨.t 1 2 3 0, kBody 3 1 2 4 7 0, wCode (.t 1 2 3 0) 0x4B (kBody 3 1 2 4 7 0) (wX [(1, 7), (2, 3)]),
    dxnWord 0x4B (kBody 3 1 2 4 7 0), by decide +kernel, runs_by nop (by decide +kernel)⟩,
   ⟨.t 1 2 3 0, 3, 7, [1, 2], [0x7F], wRun, by decide +kernel⟩,
   ⟨.t 1 2 3 0, 3, 0, [1, 2, 300], wRun, by decide +kernel⟩⟩

theorem witness_StreamInstructions :
    (∃ (c : Ctx) (body : BitVec 56) (s : State) (w : Nat), w = dxnWord 0x60 body ∧ s.Runs c w [lockT (wA w)] true ∧
      s.portUsable (portKey (tenonOf c) (wD w)) = true ∧ (s.sendsOn (portKey (tenonOf c) (wD w))).length < 2) ∧
    (∃ (c : Ctx) (body : BitVec 56) (s : State) (w : Nat), w = dxnWord 0x60 body ∧ s.Runs c w [lockT (wA w)] true ∧
      s.portUsable (portKey (tenonOf c) (wD w)) = false) ∧
    (∃ (c : Ctx) (body : BitVec 56) (s : State) (w : Nat), w = dxnWord 0x60 body ∧ s.Runs c w [lockT (wA w)] true ∧
      s.portUsable (portKey (tenonOf c) (wD w)) = true ∧ 2 ≤ (s.sendsOn (portKey (tenonOf c) (wD w))).length) ∧
    (∃ (c : Ctx) (body : BitVec 56) (s : State) (w : Nat), w = dxnWord 0x61 body ∧ s.Runs c w [lockT (wD w)] true ∧
      s.portUsable (portKey (tenonOf c) (wA w)) = true) ∧
    (∃ (c : Ctx) (body : BitVec 56) (s : State) (w : Nat), w = dxnWord 0x61 body ∧ s.Runs c w [lockT (wD w)] true ∧
      s.portUsable (portKey (tenonOf c) (wA w)) = false) ∧
    (∃ (c : Ctx) (body : BitVec 56) (s : State) (w : Nat), w = dxnWord 0x62 body ∧ s.Runs c w [] true ∧
      s.memFault c (iT w) (mAddr (s.ctx c) w) 4096 64 false = none ∧ s.portUsable (portKey (tenonOf c) (wD w)) = true ∧
      (s.sendsOn (portKey (tenonOf c) (wD w))).length < 2) ∧
    (∃ (c : Ctx) (body : BitVec 56) (s : State) (w : Nat), w = dxnWord 0x63 body ∧ s.Runs c w [] true ∧
      s.memFault c (iT w) (mAddr (s.ctx c) w) 4096 64 true = none ∧ s.portUsable (portKey (tenonOf c) (wD w)) = true) ∧
    (∃ (c : Ctx) (body : BitVec 56) (s : State) (w : Nat), w = dxnWord 0x64 body ∧ s.Runs c w [] false ∧
      s.portUsable (portKey (tenonOf c) (wA w)) = true) ∧
    (∃ (c : Ctx) (body : BitVec 56) (s : State) (w : Nat), w = dxnWord 0x64 body ∧ s.Runs c w [] false ∧
      s.portUsable (portKey (tenonOf c) (wA w)) = false) ∧
    (∃ (q : Fin 4) (row : Fin 30) (col : Fin 32) (port : Fin 4) (k : Nat) (f : Nat) (p : Nat) (tile : Bytes) (o : LongOp) (rest : List LongOp) (s : State),
      k = portKey (tenonIx q row col) port ∧ (s.stream k).bound = some .neighbour ∧ (s.stream k).rx.length < 2 ∧
      facing q row col port = some f ∧ s.sendsOn f = o :: rest ∧ o.kind = .send p tile) ∧
    (∃ (q : Fin 4) (row : Fin 30) (col : Fin 32) (port : Fin 4) (k : Nat) (e : Nat) (ch : Nat) (tile : Bytes) (rest : List Bytes) (s : State),
      k = portKey (tenonIx q row col) port ∧ (s.stream k).bound = some (.channelIn e ch) ∧ (s.stream k).rx.length < 2 ∧
      (s.channel e ch).inbound = tile :: rest) ∧
    (∃ (q : Fin 4) (stream : Fin 64) (k : Nat) (s : State), k = 64 * q.val + stream.val ∧ s.dmaFree k = false ∧
      (s.dma k).stopped = false ∧ (s.dma k).spent = false ∧ (s.dma k).inbound = true ∧
      (s.stream (s.dma k).tenonPort).rx.length < 2 ∧ s.rangePoisoned ((s.dma k).addr + 4096 * (s.dma k).done) 4096 = false) ∧
    (∃ (q : Fin 4) (stream : Fin 64) (errs : List LineErr) (k : Nat) (p : Nat) (tile : Bytes) (o : LongOp) (rest : List LongOp) (s : State),
      k = 64 * q.val + stream.val ∧ s.dmaFree k = false ∧ (s.dma k).stopped = false ∧ (s.dma k).spent = false ∧
      (s.dma k).inbound = false ∧ s.sendsOn (s.dma k).tenonPort = o :: rest ∧ o.kind = .send p tile ∧ (s.dma k).donePeg = 0) ∧
    (∃ (e : Fin 8) (ch : Fin 16) (errs : List LineErr) (n : Nat) (s : State), (s.channel e ch).truss = some n) ∧
    (∃ (e : Nat) (ch : Nat) (k : Nat) (p : Nat) (tile : Bytes) (o : LongOp) (rest : List LongOp) (s : State),
      (s.channel e ch).outbound.length < 2 ∧ s.sendsOn k = o :: rest ∧ o.kind = .send p tile) :=
  ⟨⟨.t 1 2 3 0, kBody 1 5 0 0 0 0,
    { wCode (.t 1 2 3 0) 0x60 (kBody 1 5 0 0 0 0) (wX [(1, 7), (2, 3)]) with dxn.streams := [(portKey (tenonIx 1 2 3) 1, ⟨some .neighbour, []⟩)] },
    dxnWord 0x60 (kBody 1 5 0 0 0 0), by decide +kernel, runs_by nop (by decide +kernel), by decide +kernel⟩,
   ⟨.t 1 2 3 0, kBody 1 5 0 0 0 0, wCode (.t 1 2 3 0) 0x60 (kBody 1 5 0 0 0 0) (wX [(1, 7)]), dxnWord 0x60 (kBody 1 5 0 0 0 0),
    by decide +kernel, runs_by nop (by decide +kernel), by decide +kernel⟩,
   ⟨.t 1 2 3 0, kBody 1 5 0 0 0 0,
    { { wCode (.t 1 2 3 0) 0x60 (kBody 1 5 0 0 0 0) (wX [(1, 7), (2, 3)]) with dxn.streams := [(portKey (tenonIx 1 2 3) 1, ⟨some .neighbour, []⟩)] } with dxn.longOps := [{ id := 0, ctx := .t 1 2 3 1, index := 0, kind := .send 1 [] }, { id := 1, ctx := .t 1 2 3 2, index := 0, kind := .send 1 [] }] },
    dxnWord 0x60 (kBody 1 5 0 0 0 0), by decide +kernel, runs_by nop (by decide +kernel), by decide +kernel⟩,
   ⟨.t 1 2 3 0, kBody 5 1 0 0 0 0,
    { wCode (.t 1 2 3 0) 0x61 (kBody 5 1 0 0 0 0) (wX [(1, 7), (2, 3)]) with dxn.streams := [(portKey (tenonIx 1 2 3) 1, ⟨some .neighbour, []⟩)] },
    dxnWord 0x61 (kBody 5 1 0 0 0 0), by decide +kernel, runs_by nop (by decide +kernel), by decide +kernel⟩,
   ⟨.t 1 2 3 0, kBody 5 1 0 0 0 0, wCode (.t 1 2 3 0) 0x61 (kBody 5 1 0 0 0 0) (wX [(1, 7)]), dxnWord 0x61 (kBody 5 1 0 0 0 0),
    by decide +kernel, runs_by nop (by decide +kernel), by decide +kernel⟩,
   ⟨.t 1 2 3 0, mBody 1 1 0 3 512 0,
    { wCode (.t 1 2 3 0) 0x62 (mBody 1 1 0 3 512 0) (wX [(1, 4096)]) with dxn.streams := [(portKey (tenonIx 1 2 3) 1, ⟨some .neighbour, []⟩)] },
    dxnWord 0x62 (mBody 1 1 0 3 512 0), by decide +kernel, runs_by nop (by decide +kernel), by decide +kernel⟩,
   ⟨.t 1 2 3 0, mBody 1 1 0 3 512 0,
    { wCode (.t 1 2 3 0) 0x63 (mBody 1 1 0 3 512 0) (wX [(1, 4096)]) with dxn.streams := [(portKey (tenonIx 1 2 3) 1, ⟨some .neighbour, []⟩)] },
    dxnWord 0x63 (mBody 1 1 0 3 512 0), by decide +kernel, runs_by nop (by decide +kernel), by decide +kernel⟩,
   ⟨.t 1 2 3 0, kBody 3 1 0 0 0 0,
    { wCode (.t 1 2 3 0) 0x64 (kBody 3 1 0 0 0 0) (wX [(1, 7), (2, 3)]) with dxn.streams := [(portKey (tenonIx 1 2 3) 1, ⟨some .neighbour, [[1]]⟩)] },
    dxnWord 0x64 (kBody 3 1 0 0 0 0), by decide +kernel, runs_by nop (by decide +kernel), by decide +kernel⟩,
   ⟨.t 1 2 3 0, kBody 3 1 0 0 0 0, wCode (.t 1 2 3 0) 0x64 (kBody 3 1 0 0 0 0) (wX [(1, 7)]), dxnWord 0x64 (kBody 3 1 0 0 0 0),
    by decide +kernel, runs_by nop (by decide +kernel), by decide +kernel⟩,
   ⟨1, 2, 3, 1, portKey (tenonIx 1 2 3) 1, portKey (tenonIx 1 2 4) 3, 3, [5],
    { id := 0, ctx := .t 1 2 4 0, index := 0, kind := .send 3 [5] }, [],
    { wRun with dxn.streams := [(portKey (tenonIx 1 2 3) 1, ⟨some .neighbour, []⟩)], dxn.longOps := [{ id := 0, ctx := .t 1 2 4 0, index := 0, kind := .send 3 [5] }] },
    by decide +kernel⟩,
   ⟨1, 2, 3, 1, portKey (tenonIx 1 2 3) 1, 4, 2, [5], [],
    { wRun with dxn.streams := [(portKey (tenonIx 1 2 3) 1, ⟨some (.channelIn 4 2), []⟩)], ten.channels := [(66, { inbound := [[5]] })] },
    by decide +kernel⟩,
   ⟨1, 2, 66, { wRun with ten.streams := [(66, { tenonPort := 9, inbound := true, addr := 4096, tiles := 3, truss := 256 })] },
    by decide +kernel⟩,
   ⟨1, 2, [], 66, 1, [5], { id := 0, ctx := .t 1 2 3 0, index := 0, kind := .send 1 [5] }, [],
    { wRun with dxn.longOps := [{ id := 0, ctx := .t 1 2 3 0, index := 0, kind := .send 1 [5] }], ten.streams := [(66, { tenonPort := portKey (tenonIx 1 2 3) 1, inbound := false, addr := 4096, tiles := 3, truss := 256 })] },
    by decide +kernel⟩,
   ⟨4, 2, [], 256,
    { wRun with ten.channels := [(66, { truss := some 256, outbound := [[5]] })], ten.trusses := [(256, { stages := [(2, 3)] })] },
    by decide +kernel⟩,
   ⟨4, 2, portKey (tenonIx 1 2 3) 1, 1, [5], { id := 0, ctx := .t 1 2 3 0, index := 0, kind := .send 1 [5] }, [],
    { wRun with dxn.longOps := [{ id := 0, ctx := .t 1 2 3 0, index := 0, kind := .send 1 [5] }] }, by decide +kernel⟩⟩

theorem witness_PegInstructions :
    (∃ (c : Ctx) (body : BitVec 52) (s : State) (w : Nat), w = pegWord 0 body ∧ s.Runs c w [] false ∧ pScope w < 8 ∧
      s.ctxPegOk c (pPeg w) = true ∧ s.writesPending c = false) ∧
    (∃ (c : Ctx) (body : BitVec 52) (s : State) (w : Nat), w = pegWord 0 body ∧ s.Runs c w [] false ∧ pScope w < 8 ∧
      s.ctxPegOk c (pPeg w) = false) ∧
    (∃ (c : Ctx) (body : BitVec 52) (s : State) (w : Nat), w = pegWord 0 body ∧ s.Runs c w [] false ∧ pScope w < 8 ∧
      s.ctxPegOk c (pPeg w) = true ∧ s.writesPending c = true) ∧
    (∃ (c : Ctx) (body : BitVec 52) (s : State) (w : Nat), w = pegWord 1 body ∧ s.Runs c w [] false ∧ pScope w < 8 ∧
      s.ctxPegOk c (pPeg w) = true ∧ s.writesPending c = false) ∧
    (∃ (c : Ctx) (body : BitVec 52) (s : State) (w : Nat), w = pegWord 1 body ∧ s.Runs c w [] false ∧ pScope w < 8 ∧
      s.ctxPegOk c (pPeg w) = false) ∧
    (∃ (c : Ctx) (body : BitVec 52) (s : State) (w : Nat), w = pegWord 1 body ∧ s.Runs c w [] false ∧ pScope w < 8 ∧
      s.ctxPegOk c (pPeg w) = true ∧ s.writesPending c = true) ∧
    (∃ (c : Ctx) (body : BitVec 52) (s : State) (w : Nat), w = pegWord 2 body ∧ s.Runs c w [] false ∧
      s.ctxPegOk c (pPeg w) = true ∧
      waitHolds { peg := pPeg w, value := pegValue (s.ctx c) w, eq := false, timer := 0 } (s.peg (pPeg w)) = true) ∧
    (∃ (c : Ctx) (body : BitVec 52) (s : State) (w : Nat), w = pegWord 2 body ∧ s.Runs c w [] false ∧
      s.ctxPegOk c (pPeg w) = true ∧
      waitHolds { peg := pPeg w, value := pegValue (s.ctx c) w, eq := false, timer := 0 } (s.peg (pPeg w)) = false) ∧
    (∃ (c : Ctx) (body : BitVec 52) (s : State) (w : Nat), w = pegWord 3 body ∧ s.Runs c w [] false ∧
      s.ctxPegOk c (pPeg w) = true ∧
      waitHolds { peg := pPeg w, value := pegValue (s.ctx c) w, eq := true, timer := 0 } (s.peg (pPeg w)) = true) ∧
    (∃ (c : Ctx) (body : BitVec 52) (s : State) (w : Nat), w = pegWord 3 body ∧ s.Runs c w [] false ∧
      s.ctxPegOk c (pPeg w) = true ∧
      waitHolds { peg := pPeg w, value := pegValue (s.ctx c) w, eq := true, timer := 0 } (s.peg (pPeg w)) = false) ∧
    (∃ (c : Ctx) (body : BitVec 52) (s : State) (w : Nat), w = pegWord 4 body ∧ s.Runs c w [] false) ∧
    (∃ (c : Ctx) (k : PegWait) (s : State), (s.ctx c).wait = some k ∧ (s.ctx c).status = .waiting ∧ k.hit = true) ∧
    (∃ (c : Ctx) (k : PegWait) (s : State), (s.ctx c).wait = some k ∧ (s.ctx c).status = .waiting ∧ k.hit = false ∧
      continueMode k.timer = true) ∧
    (∃ (c : Ctx) (k : PegWait) (s : State), (s.ctx c).wait = some k ∧ (s.ctx c).status = .waiting ∧ k.hit = false ∧
      k.timer.toNat % 2 ^ 31 ≠ 0 ∧ continueMode k.timer = false) ∧
    (∃ (s : State) (p : Nat) (v : Word), (swf (fun _ => 0) s.dxn.pegs = true)) ∧
    (∃ (x : Context) (p : Nat) (v : Word) (k : PegWait), x.wait = some k) ∧
    (∃ (c : Ctx) (body : BitVec 56) (s : State) (w : Nat), w = dxnWord 0x71 body ∧ s.Runs c w [] false ∧ iM w ≠ 0 ∧
      s.ctxPegOk c (iImm w) = true) ∧
    (∃ (c : Ctx) (body : BitVec 56) (s : State) (w : Nat), w = dxnWord 0x71 body ∧ s.Runs c w [] false ∧ iM w = 0) ∧
    (∃ (c : Ctx) (body : BitVec 56) (s : State) (w : Nat), w = dxnWord 0x71 body ∧ s.Runs c w [] false ∧ iM w ≠ 0 ∧
      s.ctxPegOk c (iImm w) = false) ∧
    (∃ (c : Ctx) (body : BitVec 56) (s : State) (w : Nat), w = dxnWord 0x72 body ∧ s.Runs c w [] false ∧
      s.farOutstanding c (wD w) = []) ∧
    (∃ (c : Ctx) (body : BitVec 56) (s : State) (w : Nat), w = dxnWord 0x73 body ∧ s.Runs c w [] false ∧ s.opsOf c = []) ∧
    (∃ (c : Ctx) (body : BitVec 56) (s : State) (w : Nat), w = dxnWord 0x73 body ∧ s.Runs c w [] false ∧ s.opsOf c ≠ []) ∧
    (∃ (c : Ctx) (body : BitVec 56) (s : State) (w : Nat), w = dxnWord 0x74 body ∧ s.Runs c w [] false ∧
      s.ctxPegOk c (iImm w) = true) ∧
    (∃ (c : Ctx) (body : BitVec 56) (s : State) (w : Nat), w = dxnWord 0x74 body ∧ s.Runs c w [] false ∧
      s.ctxPegOk c (iImm w) = false) ∧
    (∃ (first : BitVec 16) (count : BitVec 16) (domain : BitVec 12) (s : State), s.regsWf = true ∧
      (swf (fun _ => 0) s.dxn.pegs = true) ∧ (swf (fun _ => 0) s.dxn.pegOwner = true) ∧
      s.flag R.CMD_PEG_ASSIGN F.CMD_PEG_ASSIGN_GO = false ∧ s.cfg.checks = [] ∧ 0 < count.toNat ∧ 1024 ≤ first.toNat ∧
      first.toNat + count.toNat ≤ 65536 ∧ s.dxn.longOps = [] ∧ s.dxn.ctxs = []) :=
  ⟨⟨.t 1 2 3 0, pegBody 2000 4 1,
    { wCodeW (.t 1 2 3 0) (pegWord 0 (pegBody 2000 4 1)) { domain := 5, g := [(1, 7)] } with dxn.pegOwner := [(2000, 5)], dxn.pegs := [(2000, 8)] },
    pegWord 0 (pegBody 2000 4 1), by decide +kernel, runs_by nop (by decide +kernel), by decide +kernel⟩,
   ⟨.t 1 2 3 0, pegBody 2001 0 1,
    { wCodeW (.t 1 2 3 0) (pegWord 0 (pegBody 2001 0 1)) { domain := 5, g := [(1, 7)] } with dxn.pegOwner := [(2000, 5)], dxn.pegs := [(2000, 8)] },
    pegWord 0 (pegBody 2001 0 1), by decide +kernel, runs_by nop (by decide +kernel), by decide +kernel⟩,
   ⟨.t 1 2 3 0, pegBody 2000 0 1,
    { wCodeW (.t 1 2 3 0) (pegWord 0 (pegBody 2000 0 1)) { domain := 5, g := [(1, 7)] } with dxn.pegOwner := [(2000, 5)], dxn.pegs := [(2000, 8)], dxn.longOps := [{ id := 0, ctx := .t 1 2 3 0, index := 0, kind := .fill 1 0 0 8 1 }] },
    pegWord 0 (pegBody 2000 0 1), by decide +kernel, runs_by nop (by decide +kernel), by decide +kernel⟩,
   ⟨.t 1 2 3 0, pegBody 2000 4 1,
    { wCodeW (.t 1 2 3 0) (pegWord 1 (pegBody 2000 4 1)) { domain := 5, g := [(1, 7)] } with dxn.pegOwner := [(2000, 5)], dxn.pegs := [(2000, 8)] },
    pegWord 1 (pegBody 2000 4 1), by decide +kernel, runs_by nop (by decide +kernel), by decide +kernel⟩,
   ⟨.t 1 2 3 0, pegBody 2001 0 1,
    { wCodeW (.t 1 2 3 0) (pegWord 1 (pegBody 2001 0 1)) { domain := 5, g := [(1, 7)] } with dxn.pegOwner := [(2000, 5)], dxn.pegs := [(2000, 8)] },
    pegWord 1 (pegBody 2001 0 1), by decide +kernel, runs_by nop (by decide +kernel), by decide +kernel⟩,
   ⟨.t 1 2 3 0, pegBody 2000 0 1,
    { wCodeW (.t 1 2 3 0) (pegWord 1 (pegBody 2000 0 1)) { domain := 5, g := [(1, 7)] } with dxn.pegOwner := [(2000, 5)], dxn.pegs := [(2000, 8)], dxn.longOps := [{ id := 0, ctx := .t 1 2 3 0, index := 0, kind := .fill 1 0 0 8 1 }] },
    pegWord 1 (pegBody 2000 0 1), by decide +kernel, runs_by nop (by decide +kernel), by decide +kernel⟩,
   ⟨.t 1 2 3 0, pegBody 2000 0 8,
    { wCodeW (.t 1 2 3 0) (pegWord 2 (pegBody 2000 0 8)) { domain := 5, g := [(1, 7)] } with dxn.pegOwner := [(2000, 5)], dxn.pegs := [(2000, 8)] },
    pegWord 2 (pegBody 2000 0 8), by decide +kernel, runs_by nop (by decide +kernel), by decide +kernel⟩,
   ⟨.t 1 2 3 0, pegBody 2000 0 9,
    { wCodeW (.t 1 2 3 0) (pegWord 2 (pegBody 2000 0 9)) { domain := 5, g := [(1, 7)] } with dxn.pegOwner := [(2000, 5)], dxn.pegs := [(2000, 8)] },
    pegWord 2 (pegBody 2000 0 9), by decide +kernel, runs_by nop (by decide +kernel), by decide +kernel⟩,
   ⟨.t 1 2 3 0, pegBody 2000 0 8,
    { wCodeW (.t 1 2 3 0) (pegWord 3 (pegBody 2000 0 8)) { domain := 5, g := [(1, 7)] } with dxn.pegOwner := [(2000, 5)], dxn.pegs := [(2000, 8)] },
    pegWord 3 (pegBody 2000 0 8), by decide +kernel, runs_by nop (by decide +kernel), by decide +kernel⟩,
   ⟨.t 1 2 3 0, pegBody 2000 0 9,
    { wCodeW (.t 1 2 3 0) (pegWord 3 (pegBody 2000 0 9)) { domain := 5, g := [(1, 7)] } with dxn.pegOwner := [(2000, 5)], dxn.pegs := [(2000, 8)] },
    pegWord 3 (pegBody 2000 0 9), by decide +kernel, runs_by nop (by decide +kernel), by decide +kernel⟩,
   ⟨.t 1 2 3 0, pegBody 0 0 2147483653, wCodeW (.t 1 2 3 0) (pegWord 4 (pegBody 0 0 2147483653)) { domain := 5, g := [(1, 7)] },
    pegWord 4 (pegBody 0 0 2147483653), by decide +kernel, runs_by nop (by decide +kernel)⟩,
   ⟨.t 1 2 3 0, { peg := 2000, value := 8, eq := true, timer := 0x80000005, hit := true },
    { wRun with dxn.ctxs := [(ctxKey (.t 1 2 3 0), { status := .waiting, code := [0xF0 * 2 ^ 56], wait := some { peg := 2000, value := 8, eq := true, timer := 0x80000005, hit := true } })] },
    by decide +kernel⟩,
   ⟨.t 1 2 3 0, { peg := 2000, value := 8, eq := true, timer := 0x80000005 },
    { wRun with dxn.ctxs := [(ctxKey (.t 1 2 3 0), { status := .waiting, p := 255, code := [0xF0 * 2 ^ 56], wait := some { peg := 2000, value := 8, eq := true, timer := 0x80000005 } })] },
    by decide +kernel⟩,
   ⟨.t 1 2 3 0, { peg := 2000, value := 8, eq := true, timer := 5 },
    { wRun with dxn.ctxs := [(ctxKey (.t 1 2 3 0), { status := .waiting, pc := 3, wait := some { peg := 2000, value := 8, eq := true, timer := 5 } })] },
    by decide +kernel⟩,
   ⟨{ wRun with dxn.pegs := [(7, 2)] }, 7, 9, by decide +kernel⟩,
   ⟨{ wait := some { peg := 7, value := 3, eq := false, timer := 0 } }, 7, 3, { peg := 7, value := 3, eq := false, timer := 0 },
    by decide +kernel⟩,
   ⟨.t 1 2 3 0, iBody 0 0 0 1 2000,
    { wCode (.t 1 2 3 0) 0x71 (iBody 0 0 0 1 2000) { domain := 5, g := [(1, 7)] } with dxn.pegOwner := [(2000, 5)], dxn.pegs := [(2000, 8)] },
    dxnWord 0x71 (iBody 0 0 0 1 2000), by decide +kernel, runs_by nop (by decide +kernel), by decide +kernel⟩,
   ⟨.t 1 2 3 0, iBody 0 0 0 0 0, wCode (.t 1 2 3 0) 0x71 (iBody 0 0 0 0 0) { bindOn := true, bindPeg := 2000 },
    dxnWord 0x71 (iBody 0 0 0 0 0), by decide +kernel, runs_by nop (by decide +kernel), by decide +kernel⟩,
   ⟨.t 1 2 3 0, iBody 0 0 0 1 2001,
    { wCode (.t 1 2 3 0) 0x71 (iBody 0 0 0 1 2001) { domain := 5, g := [(1, 7)] } with dxn.pegOwner := [(2000, 5)], dxn.pegs := [(2000, 8)] },
    dxnWord 0x71 (iBody 0 0 0 1 2001), by decide +kernel, runs_by nop (by decide +kernel), by decide +kernel⟩,
   ⟨.t 1 2 3 0, kBody 2 1 0 0 0 0, wCode (.t 1 2 3 0) 0x72 (kBody 2 1 0 0 0 0) { domain := 5, g := [(1, 7)] },
    dxnWord 0x72 (kBody 2 1 0 0 0 0), by decide +kernel, runs_by nop (by decide +kernel), by decide +kernel⟩,
   ⟨.t 1 2 3 0, 0, wCode (.t 1 2 3 0) 0x73 (0) { domain := 5, g := [(1, 7)] }, dxnWord 0x73 (0), by decide +kernel,
    runs_by nop (by decide +kernel), by decide +kernel⟩,
   ⟨.t 1 2 3 0, 0,
    { wCode (.t 1 2 3 0) 0x73 (0) { domain := 5, g := [(1, 7)] } with dxn.longOps := [{ id := 0, ctx := .t 1 2 3 0, index := 0, kind := .fill 1 0 0 8 1 }] },
    dxnWord 0x73 (0), by decide +kernel, runs_by nop (by decide +kernel), by decide +kernel⟩,
   ⟨.t 1 2 3 0, iBody 3 0 0 0 2000,
    { wCode (.t 1 2 3 0) 0x74 (iBody 3 0 0 0 2000) { domain := 5, g := [(1, 7)] } with dxn.pegOwner := [(2000, 5)], dxn.pegs := [(2000, 8)] },
    dxnWord 0x74 (iBody 3 0 0 0 2000), by decide +kernel, runs_by nop (by decide +kernel), by decide +kernel⟩,
   ⟨.t 1 2 3 0, iBody 3 0 0 0 2001,
    { wCode (.t 1 2 3 0) 0x74 (iBody 3 0 0 0 2001) { domain := 5, g := [(1, 7)] } with dxn.pegOwner := [(2000, 5)], dxn.pegs := [(2000, 8)] },
    dxnWord 0x74 (iBody 3 0 0 0 2001), by decide +kernel, runs_by nop (by decide +kernel), by decide +kernel⟩,
   ⟨1030, 3, 5, { wRun with dxn.pegs := [(1031, 4), (1040, 9)] }, by decide +kernel⟩⟩

theorem witness_FarPegs :
    (∃ (c : Ctx) (body : BitVec 52) (s : State) (w : Nat), w = pegWord 0 body ∧ s.Runs c w [] false ∧ 8 ≤ pScope w ∧
      s.rd R.FWD_FAR_PREFIX ≠ 0 ∧ sget 0 (s.ctx c).far (pScope w % 4) ≠ 0 ∧ sget 0 (s.ctx c).far (pScope w % 4) ≠ s.identity ∧
      s.opsOf c = []) ∧
    (∃ (c : Ctx) (body : BitVec 52) (s : State) (w : Nat), w = pegWord 0 body ∧ s.Runs c w [] false ∧ 8 ≤ pScope w ∧
      (s.rd R.FWD_FAR_PREFIX = 0 ∨ sget 0 (s.ctx c).far (pScope w % 4) = 0)) ∧
    (∃ (c : Ctx) (body : BitVec 52) (s : State) (w : Nat), w = pegWord 1 body ∧ s.Runs c w [] false ∧ 8 ≤ pScope w ∧
      s.rd R.FWD_FAR_PREFIX ≠ 0 ∧ sget 0 (s.ctx c).far (pScope w % 4) ≠ 0 ∧ sget 0 (s.ctx c).far (pScope w % 4) ≠ s.identity ∧
      s.opsOf c = []) ∧
    (∃ (c : Ctx) (body : BitVec 52) (s : State) (w : Nat), w = pegWord 1 body ∧ s.Runs c w [] false ∧ 8 ≤ pScope w ∧
      (s.rd R.FWD_FAR_PREFIX = 0 ∨ sget 0 (s.ctx c).far (pScope w % 4) = 0)) ∧
    (∃ (msg : Bytes) (m : FarMsg) (s : State), s.rd R.FWD_FAR_PREFIX ≠ 0 ∧ parseFar msg = some m ∧ m.kind = 1) ∧
    (∃ (m : FarMsg) (s : State), ((s.fwd.farStreams.find? fun e => e.isOf m) = none) ∧ s.fwd.farStreams.length < 16384) ∧
    (∃ (m : FarMsg) (e : FarStream) (s : State), ((s.fwd.farStreams.find? fun x => x.isOf m) = some e) ∧
      e.incarnation.toNat = m.incarnation) ∧
    (∃ (m : FarMsg) (e : FarStream) (s : State), diff32 m.oldest 1 = e.h.toNat ∧ diff32 m.seq e.h.toNat = 1 ∧ e.refused = [] ∧
      1024 ≤ m.peg ∧ (m.domain = 0 ∨ (s.pegDom m.peg).toNat = m.domain)) ∧
    (∃ (m : FarMsg) (e : FarStream) (s : State), diff32 m.oldest 1 = e.h.toNat ∧ diff32 m.seq e.h.toNat = 1 ∧ e.refused = [] ∧
      (m.peg < 1024 ∨ (m.domain ≠ 0 ∧ (s.pegDom m.peg).toNat ≠ m.domain))) ∧
    (∃ (m : FarMsg) (e : FarStream) (s : State), diff32 m.oldest 1 = e.h.toNat ∧
      (2 ^ 31 ≤ diff32 m.seq e.h.toNat ∨ diff32 m.seq e.h.toNat = 0) ∧ e.refused = []) ∧
    (∃ (m : FarMsg) (e : FarStream) (s : State), diff32 m.oldest 1 = e.h.toNat ∧ 2 ≤ diff32 m.seq e.h.toNat ∧
      diff32 m.seq e.h.toNat < 2 ^ 31 ∧ e.refused = []) ∧
    (∃ (msg : Bytes) (m : FarMsg) (o : LongOp) (s : State), s.rd R.FWD_FAR_PREFIX ≠ 0 ∧ parseFar msg = some m ∧ m.kind = 2 ∧
      m.sender = s.identity.toNat ∧ s.farOp? m = some o ∧ (m.result = 0 ∨ m.result = 3)) ∧
    (∃ (msg : Bytes) (m : FarMsg) (o : LongOp) (s : State), s.rd R.FWD_FAR_PREFIX ≠ 0 ∧ parseFar msg = some m ∧ m.kind = 2 ∧
      m.sender = s.identity.toNat ∧ s.farOp? m = some o ∧ (m.result = 1 ∨ m.result = 2 ∨ m.result = 6)) ∧
    (∃ (msg : Bytes) (m : FarMsg) (s : State), parseFar msg = some m ∧ m.kind = 2 ∧ (m.result = 4 ∨ m.result = 5)) ∧
    (∃ (op : Nat) (f : Nat) (tries : Nat) (target : Word) (v : Word) (q : BitVec 32) (p : BitVec 16) (set : Bool) (o : LongOp) (s : State),
      s.longOp? op = some o ∧ o.kind = .farPeg f target q p set v tries none ∧
      tries < s.fld R.CMD_FAR_CTRL F.CMD_FAR_CTRL_RETRIES) ∧
    (∃ (op : Nat) (f : Nat) (tries : Nat) (target : Word) (v : Word) (q : BitVec 32) (p : BitVec 16) (set : Bool) (o : LongOp) (s : State),
      s.longOp? op = some o ∧ o.kind = .farPeg f target q p set v tries none ∧
      s.fld R.CMD_FAR_CTRL F.CMD_FAR_CTRL_RETRIES ≤ tries) ∧
    (∃ (sender : Word) (agent : BitVec 4) (who : BitVec 16) (slot : Fin 4) (e : FarStream) (s : State), e ∈ s.fwd.farStreams ∧
      e.sender = sender ∧ e.agent = agent ∧ e.who = who ∧ e.slot = slot.val ∧ e.lastAt + 10000000000 ≤ s.mono) :=
  ⟨⟨.t 1 2 3 0, pegBody 2000 10 6,
    { wPlain ((wCodeW (.t 1 2 3 0) (pegWord 0 (pegBody 2000 10 6)) { g := [(1, 7)], far := [(2, 99)] }).wr R.FWD_FAR_PREFIX 5) with free := 1 },
    pegWord 0 (pegBody 2000 10 6), by decide +kernel, runs_by nop (by decide +kernel), by decide +kernel⟩,
   ⟨.t 1 2 3 0, pegBody 2000 10 6, wCodeW (.t 1 2 3 0) (pegWord 0 (pegBody 2000 10 6)) { g := [(1, 7)], far := [(2, 99)] },
    pegWord 0 (pegBody 2000 10 6), by decide +kernel, runs_by nop (by decide +kernel), by decide +kernel⟩,
   ⟨.t 1 2 3 0, pegBody 2000 10 6,
    { wPlain ((wCodeW (.t 1 2 3 0) (pegWord 1 (pegBody 2000 10 6)) { g := [(1, 7)], far := [(2, 99)] }).wr R.FWD_FAR_PREFIX 5) with free := 1 },
    pegWord 1 (pegBody 2000 10 6), by decide +kernel, runs_by nop (by decide +kernel), by decide +kernel⟩,
   ⟨.t 1 2 3 0, pegBody 2000 10 6, wCodeW (.t 1 2 3 0) (pegWord 1 (pegBody 2000 10 6)) { g := [(1, 7)], far := [(2, 99)] },
    pegWord 1 (pegBody 2000 10 6), by decide +kernel, runs_by nop (by decide +kernel), by decide +kernel⟩,
   ⟨
    FarMsg.bytes { kind := 1, slot := 2, sender := 77, agent := 1, who := 9, domain := 5, peg := 2000, seq := 4, op := 0, result := 0, value := 6, oldest := 4, incarnation := 3 },
    { kind := 1, slot := 2, sender := 77, agent := 1, who := 9, domain := 5, peg := 2000, seq := 4, op := 0, result := 0, value := 6, oldest := 4, incarnation := 3 },
    (wRun.wr R.FWD_FAR_PREFIX 0x20010DB800000000), by decide +kernel⟩,
   ⟨
    { kind := 1, slot := 2, sender := 77, agent := 1, who := 9, domain := 5, peg := 2000, seq := 4, op := 0, result := 0, value := 6, oldest := 4, incarnation := 3 },
    (wRun.wr R.FWD_FAR_PREFIX 0x20010DB800000000), by decide +kernel⟩,
   ⟨
    { kind := 1, slot := 2, sender := 77, agent := 1, who := 9, domain := 5, peg := 2000, seq := 4, op := 0, result := 0, value := 6, oldest := 4, incarnation := 3 },
    FarMsg.entry { kind := 1, slot := 2, sender := 77, agent := 1, who := 9, domain := 5, peg := 2000, seq := 4, op := 0, result := 0, value := 6, oldest := 4, incarnation := 3 } 0,
    { (wRun.wr R.FWD_FAR_PREFIX 0x20010DB800000000) with fwd.farStreams := [FarMsg.entry { kind := 1, slot := 2, sender := 77, agent := 1, who := 9, domain := 5, peg := 2000, seq := 4, op := 0, result := 0, value := 6, oldest := 4, incarnation := 3 } 0] },
    by decide +kernel⟩,
   ⟨
    { kind := 1, slot := 2, sender := 77, agent := 1, who := 9, domain := 5, peg := 2000, seq := 4, op := 0, result := 0, value := 6, oldest := 4, incarnation := 3 },
    FarMsg.entry { kind := 1, slot := 2, sender := 77, agent := 1, who := 9, domain := 5, peg := 2000, seq := 4, op := 0, result := 0, value := 6, oldest := 4, incarnation := 3 } 0,
    { (wRun.wr R.FWD_FAR_PREFIX 0x20010DB800000000) with dxn.pegOwner := [(2000, 5)] }, by decide +kernel⟩,
   ⟨
    { kind := 1, slot := 2, sender := 77, agent := 1, who := 9, domain := 5, peg := 2000, seq := 4, op := 0, result := 0, value := 6, oldest := 4, incarnation := 3 },
    FarMsg.entry { kind := 1, slot := 2, sender := 77, agent := 1, who := 9, domain := 5, peg := 2000, seq := 4, op := 0, result := 0, value := 6, oldest := 4, incarnation := 3 } 0,
    (wRun.wr R.FWD_FAR_PREFIX 0x20010DB800000000), by decide +kernel⟩,
   ⟨
    { kind := 1, slot := 2, sender := 77, agent := 1, who := 9, domain := 5, peg := 2000, seq := 3, op := 0, result := 0, value := 6, oldest := 4, incarnation := 3 },
    FarMsg.entry { kind := 1, slot := 2, sender := 77, agent := 1, who := 9, domain := 5, peg := 2000, seq := 4, op := 0, result := 0, value := 6, oldest := 4, incarnation := 3 } 0,
    (wRun.wr R.FWD_FAR_PREFIX 0x20010DB800000000), by decide +kernel⟩,
   ⟨
    { kind := 1, slot := 2, sender := 77, agent := 1, who := 9, domain := 5, peg := 2000, seq := 5, op := 0, result := 0, value := 6, oldest := 4, incarnation := 3 },
    FarMsg.entry { kind := 1, slot := 2, sender := 77, agent := 1, who := 9, domain := 5, peg := 2000, seq := 4, op := 0, result := 0, value := 6, oldest := 4, incarnation := 3 } 0,
    (wRun.wr R.FWD_FAR_PREFIX 0x20010DB800000000), by decide +kernel⟩,
   ⟨
    FarMsg.bytes { kind := 2, slot := 2, sender := 0x77, agent := 1, who := whoOf (.t 1 2 3 0), domain := 5, peg := 2000, seq := 4, op := 0, result := 0, value := 6, oldest := 4, incarnation := 0 },
    { kind := 2, slot := 2, sender := 0x77, agent := 1, who := whoOf (.t 1 2 3 0), domain := 5, peg := 2000, seq := 4, op := 0, result := 0, value := 6, oldest := 4, incarnation := 0 },
    { id := 0, ctx := .t 1 2 3 0, index := 0, kind := .farPeg 2 99 4 2000 false 6 0 none },
    { (wPlain (wRun.wr R.FWD_FAR_PREFIX 0x20010DB800000000)) with dxn.longOps := [{ id := 0, ctx := .t 1 2 3 0, index := 0, kind := .farPeg 2 99 4 2000 false 6 0 none }] },
    by decide +kernel⟩,
   ⟨
    FarMsg.bytes { kind := 2, slot := 2, sender := 0x77, agent := 1, who := whoOf (.t 1 2 3 0), domain := 5, peg := 2000, seq := 4, op := 0, result := 1, value := 6, oldest := 4, incarnation := 0 },
    { kind := 2, slot := 2, sender := 0x77, agent := 1, who := whoOf (.t 1 2 3 0), domain := 5, peg := 2000, seq := 4, op := 0, result := 1, value := 6, oldest := 4, incarnation := 0 },
    { id := 0, ctx := .t 1 2 3 0, index := 0, kind := .farPeg 2 99 4 2000 false 6 0 none },
    { (wPlain (wRun.wr R.FWD_FAR_PREFIX 0x20010DB800000000)) with dxn.longOps := [{ id := 0, ctx := .t 1 2 3 0, index := 0, kind := .farPeg 2 99 4 2000 false 6 0 none }] },
    by decide +kernel⟩,
   ⟨
    FarMsg.bytes { kind := 2, slot := 2, sender := 0, agent := 1, who := whoOf (.t 1 2 3 0), domain := 5, peg := 2000, seq := 4, op := 0, result := 4, value := 6, oldest := 4, incarnation := 0 },
    { kind := 2, slot := 2, sender := 0, agent := 1, who := whoOf (.t 1 2 3 0), domain := 5, peg := 2000, seq := 4, op := 0, result := 4, value := 6, oldest := 4, incarnation := 0 },
    { (wRun.wr R.FWD_FAR_PREFIX 0x20010DB800000000) with dxn.longOps := [{ id := 0, ctx := .t 1 2 3 0, index := 0, kind := .farPeg 2 99 4 2000 false 6 0 none }] },
    by decide +kernel⟩,
   ⟨0, 2, 1, 99, 6, 4, 2000, false, { id := 0, ctx := .t 1 2 3 0, index := 0, kind := .farPeg 2 99 4 2000 false 6 1 none },
    { (wRun.wr R.FWD_FAR_PREFIX 0x20010DB800000000) with dxn.longOps := [{ id := 0, ctx := .t 1 2 3 0, index := 0, kind := .farPeg 2 99 4 2000 false 6 1 none }] },
    by decide +kernel⟩,
   ⟨0, 2, 99, 99, 6, 4, 2000, false, { id := 0, ctx := .t 1 2 3 0, index := 0, kind := .farPeg 2 99 4 2000 false 6 99 none },
    { (wRun.wr R.FWD_FAR_PREFIX 0x20010DB800000000) with dxn.longOps := [{ id := 0, ctx := .t 1 2 3 0, index := 0, kind := .farPeg 2 99 4 2000 false 6 99 none }] },
    by decide +kernel⟩,
   ⟨77, 1, 9, 2,
    FarMsg.entry { kind := 1, slot := 2, sender := 77, agent := 1, who := 9, domain := 5, peg := 2000, seq := 4, op := 0, result := 0, value := 6, oldest := 4, incarnation := 3 } 0,
    { (wRun.wr R.FWD_FAR_PREFIX 0x20010DB800000000) with fwd.farStreams := [FarMsg.entry { kind := 1, slot := 2, sender := 77, agent := 1, who := 9, domain := 5, peg := 2000, seq := 4, op := 0, result := 0, value := 6, oldest := 4, incarnation := 3 } 0, FarMsg.entry { kind := 1, slot := 2, sender := 77, agent := 1, who := 9, domain := 5, peg := 2000, seq := 4, op := 0, result := 0, value := 6, oldest := 4, incarnation := 3 } 5], tim.osc := 10000000000 },
    by decide +kernel⟩⟩

theorem witness_LoadsAndStores :
    (∃ (c : Ctx) (body : BitVec 56) (read : HostRead) (errs : List LineErr) (b : Bytes) (u : State) (s : State) (w : Nat),
      w = dxnWord 0x80 body ∧ s.Runs c w [] false ∧
      s.memFault c (iT w) (mAddr (s.ctx c) w) (2 ^ mWidth w) (2 ^ mWidth w) false = none ∧ iT w ≠ 5 ∧
      s.spaceRead c (iT w) (mAddr (s.ctx c) w) (2 ^ mWidth w) read errs = (u, some b)) ∧
    (∃ (c : Ctx) (body : BitVec 56) (read : HostRead) (errs : List LineErr) (s : State) (w : Nat), w = dxnWord 0x80 body ∧
      s.Runs c w [] false ∧ s.memFault c 5 (mAddr (s.ctx c) w) (2 ^ mWidth w) (2 ^ mWidth w) false = none ∧ iT w = 5) ∧
    (∃ (c : Ctx) (body : BitVec 56) (read : HostRead) (errs : List LineErr) (k : Nat) (s : State) (w : Nat),
      w = dxnWord 0x80 body ∧ s.Runs c w [] false ∧
      s.memFault c (iT w) (mAddr (s.ctx c) w) (2 ^ mWidth w) (2 ^ mWidth w) false = some k) ∧
    (∃ (c : Ctx) (body : BitVec 56) (read : HostRead) (errs : List LineErr) (b : Bytes) (u : State) (s : State) (w : Nat),
      w = dxnWord 0x81 body ∧ s.Runs c w [] false ∧
      s.memFault c (iT w) (mAddr (s.ctx c) w) (2 ^ mWidth w) (2 ^ mWidth w) false = none ∧ iT w ≠ 5 ∧
      s.spaceRead c (iT w) (mAddr (s.ctx c) w) (2 ^ mWidth w) read errs = (u, some b)) ∧
    (∃ (c : Ctx) (body : BitVec 56) (read : HostRead) (errs : List LineErr) (s : State) (w : Nat), w = dxnWord 0x81 body ∧
      s.Runs c w [] false ∧ s.memFault c 5 (mAddr (s.ctx c) w) (2 ^ mWidth w) (2 ^ mWidth w) false = none ∧ iT w = 5) ∧
    (∃ (c : Ctx) (body : BitVec 56) (read : HostRead) (errs : List LineErr) (k : Nat) (s : State) (w : Nat),
      w = dxnWord 0x81 body ∧ s.Runs c w [] false ∧
      s.memFault c (iT w) (mAddr (s.ctx c) w) (2 ^ mWidth w) (2 ^ mWidth w) false = some k) ∧
    (∃ (c : Ctx) (body : BitVec 56) (s : State) (w : Nat), w = dxnWord 0x82 body ∧ s.Runs c w [] false ∧ iT w ≠ 5 ∧
      s.memFault c (iT w) (mAddr (s.ctx c) w) (2 ^ mWidth w) (2 ^ mWidth w) true = none) ∧
    (∃ (c : Ctx) (body : BitVec 56) (s : State) (w : Nat), w = dxnWord 0x82 body ∧ s.Runs c w [] false ∧ iT w = 5 ∧
      s.memFault c 5 (mAddr (s.ctx c) w) (2 ^ mWidth w) (2 ^ mWidth w) true = none) ∧
    (∃ (c : Ctx) (body : BitVec 56) (k : Nat) (s : State) (w : Nat), w = dxnWord 0x82 body ∧ s.Runs c w [] false ∧
      s.memFault c (iT w) (mAddr (s.ctx c) w) (2 ^ mWidth w) (2 ^ mWidth w) true = some k) ∧
    (∃ (c : Ctx) (body : BitVec 56) (a : Nat) (s : State) (w : Nat), w = dxnWord 0x83 body ∧ s.Runs c w [lockV (wD w)] true ∧
      a = mAddr (s.ctx c) w ∧ s.memFault c (iT w) a (4 * mCount w) 4 false = none) ∧
    (∃ (c : Ctx) (body : BitVec 56) (a : Nat) (s : State) (w : Nat), w = dxnWord 0x84 body ∧ s.Runs c w [lockV (wD w)] true ∧
      a = mAddr (s.ctx c) w ∧ s.memFault c (iT w) a (4 * mCount w) 4 true = none) ∧
    (∃ (c : Ctx) (body : BitVec 56) (a : Nat) (s : State) (w : Nat), w = dxnWord 0x85 body ∧ s.Runs c w [lockT (wD w)] true ∧
      a = mAddr (s.ctx c) w ∧ s.memFault c (iT w) a 4096 64 false = none) ∧
    (∃ (c : Ctx) (body : BitVec 56) (a : Nat) (s : State) (w : Nat), w = dxnWord 0x86 body ∧ s.Runs c w [lockT (wD w)] true ∧
      a = mAddr (s.ctx c) w ∧ s.memFault c (iT w) a 4096 64 true = none) ∧
    (∃ (op : Nat) (v : Nat) (sp : Nat) (n : Nat) (wd : Nat) (a : Word) (read : HostRead) (errs : List LineErr) (b : Bytes) (o : LongOp) (u : State) (s : State),
      s.longOp? op = some o ∧ o.kind = .vload v sp a wd n ∧ s.spaceRead o.ctx sp a.toNat (wd * n) read errs = (u, some b)) ∧
    (∃ (op : Nat) (sp : Nat) (a : Word) (d : Bytes) (read : HostRead) (errs : List LineErr) (o : LongOp) (s : State),
      s.longOp? op = some o ∧ (o.kind = .vstore d sp a ∨ o.kind = .tstore d sp a)) ∧
    (∃ (op : Nat) (t : Nat) (sp : Nat) (a : Word) (read : HostRead) (errs : List LineErr) (b : Bytes) (o : LongOp) (u : State) (s : State),
      s.longOp? op = some o ∧ o.kind = .tload t sp a ∧ s.spaceRead o.ctx sp a.toNat 4096 read errs = (u, some b)) ∧
    (∃ (op : Nat) (t : Nat) (sp : Nat) (a : Word) (read : HostRead) (errs : List LineErr) (o : LongOp) (u : State) (s : State),
      s.longOp? op = some o ∧ o.kind = .tload t sp a ∧ s.spaceRead o.ctx sp a.toNat 4096 read errs = (u, none)) ∧
    (∃ (s : State) (o : LongOp) (p : BitVec 16), o.peg = some p ∧ (s.ctx o.ctx).status ≠ .stopping) ∧
    (∃ (s : State) (o : LongOp), o.peg = none ∧ (s.ctx o.ctx).status ≠ .stopping) ∧
    (∃ (s : State) (a : Nat) (b : Bytes), s.mem.wf = true ∧ s.stackFailed a = false ∧
      ((memBays a b.length).all (fun n => !s.resting n) = true)) :=
  ⟨⟨.c 5, mBody 3 1 0 1 1 4, .failed, [], [0, 0], wCode (.c 5) 0x80 (mBody 3 1 0 1 1 4) (wX [(1, 8)]),
    wCode (.c 5) 0x80 (mBody 3 1 0 1 1 4) (wX [(1, 8)]), dxnWord 0x80 (mBody 3 1 0 1 1 4), by decide +kernel,
    runs_by nop (by decide +kernel), by decide +kernel⟩,
   ⟨.c 5, mBody 3 1 5 3 1 0, .failed, [], wCode (.c 5) 0x80 (mBody 3 1 5 3 1 0) (wX [(1, 0)]), dxnWord 0x80 (mBody 3 1 5 3 1 0),
    by decide +kernel, runs_by nop (by decide +kernel), by decide +kernel⟩,
   ⟨.c 5, mBody 3 1 0 1 1 0, .failed, [], 6, wCode (.c 5) 0x80 (mBody 3 1 0 1 1 0) (wX [(1, 9)]), dxnWord 0x80 (mBody 3 1 0 1 1 0),
    by decide +kernel, runs_by nop (by decide +kernel), by decide +kernel⟩,
   ⟨.c 5, mBody 3 1 0 1 1 4, .failed, [], [0, 0], wCode (.c 5) 0x81 (mBody 3 1 0 1 1 4) (wX [(1, 8)]),
    wCode (.c 5) 0x81 (mBody 3 1 0 1 1 4) (wX [(1, 8)]), dxnWord 0x81 (mBody 3 1 0 1 1 4), by decide +kernel,
    runs_by nop (by decide +kernel), by decide +kernel⟩,
   ⟨.c 5, mBody 3 1 5 3 1 0, .failed, [], wCode (.c 5) 0x81 (mBody 3 1 5 3 1 0) (wX [(1, 0)]), dxnWord 0x81 (mBody 3 1 5 3 1 0),
    by decide +kernel, runs_by nop (by decide +kernel), by decide +kernel⟩,
   ⟨.c 5, mBody 3 1 0 1 1 0, .failed, [], 6, wCode (.c 5) 0x81 (mBody 3 1 0 1 1 0) (wX [(1, 9)]), dxnWord 0x81 (mBody 3 1 0 1 1 0),
    by decide +kernel, runs_by nop (by decide +kernel), by decide +kernel⟩,
   ⟨.c 5, mBody 3 1 0 1 1 4, wCode (.c 5) 0x82 (mBody 3 1 0 1 1 4) (wX [(1, 8), (3, 0x1234)]), dxnWord 0x82 (mBody 3 1 0 1 1 4),
    by decide +kernel, runs_by nop (by decide +kernel), by decide +kernel⟩,
   ⟨.c 5, mBody 3 1 5 3 1 0, wCode (.c 5) 0x82 (mBody 3 1 5 3 1 0) (wX [(1, 0x20), (3, 0x1234)]), dxnWord 0x82 (mBody 3 1 5 3 1 0),
    by decide +kernel, runs_by nop (by decide +kernel), by decide +kernel⟩,
   ⟨.c 5, mBody 3 1 0 1 1 0, 6, wCode (.c 5) 0x82 (mBody 3 1 0 1 1 0) (wX [(1, 9)]), dxnWord 0x82 (mBody 3 1 0 1 1 0),
    by decide +kernel, runs_by nop (by decide +kernel), by decide +kernel⟩,
   ⟨.t 1 2 3 0, mBody 3 1 0 2 64 4, 68, wCode (.t 1 2 3 0) 0x83 (mBody 3 1 0 2 64 4) (wX [(1, 64)]),
    dxnWord 0x83 (mBody 3 1 0 2 64 4), by decide +kernel, runs_by nop (by decide +kernel), by decide +kernel⟩,
   ⟨.t 1 2 3 0, mBody 3 1 0 2 64 4, 68, wCode (.t 1 2 3 0) 0x84 (mBody 3 1 0 2 64 4) (wX [(1, 64)]),
    dxnWord 0x84 (mBody 3 1 0 2 64 4), by decide +kernel, runs_by nop (by decide +kernel), by decide +kernel⟩,
   ⟨.t 1 2 3 0, mBody 3 1 0 3 512 64, 128, wCode (.t 1 2 3 0) 0x85 (mBody 3 1 0 3 512 64) (wX [(1, 64)]),
    dxnWord 0x85 (mBody 3 1 0 3 512 64), by decide +kernel, runs_by nop (by decide +kernel), by decide +kernel⟩,
   ⟨.t 1 2 3 0, mBody 3 1 0 3 512 64, 128, wCode (.t 1 2 3 0) 0x86 (mBody 3 1 0 3 512 64) (wX [(1, 64)]),
    dxnWord 0x86 (mBody 3 1 0 3 512 64), by decide +kernel, runs_by nop (by decide +kernel), by decide +kernel⟩,
   ⟨0, 3, 0, 1, 4, 68, .failed, [], [0, 0, 0, 0], { id := 0, ctx := .t 1 2 3 0, index := 0, kind := .vload 3 0 68 4 1 },
    { wRun with dxn.longOps := [{ id := 0, ctx := .t 1 2 3 0, index := 0, kind := .vload 3 0 68 4 1 }] },
    { wRun with dxn.longOps := [{ id := 0, ctx := .t 1 2 3 0, index := 0, kind := .vload 3 0 68 4 1 }] }, by decide +kernel⟩,
   ⟨0, 0, 68, [1, 2], .failed, [], { id := 0, ctx := .t 1 2 3 0, index := 0, kind := .vstore [1, 2] 0 68 },
    { wRun with dxn.longOps := [{ id := 0, ctx := .t 1 2 3 0, index := 0, kind := .vstore [1, 2] 0 68 }] }, by decide +kernel⟩,
   ⟨0, 3, 2, 64, .ok [7], [], slice [7] 0 4096, { id := 0, ctx := .t 1 2 3 0, index := 0, kind := .tload 3 2 64 },
    { wRun with dxn.longOps := [{ id := 0, ctx := .t 1 2 3 0, index := 0, kind := .tload 3 2 64 }] },
    { wRun with dxn.longOps := [{ id := 0, ctx := .t 1 2 3 0, index := 0, kind := .tload 3 2 64 }] }, by decide +kernel⟩,
   ⟨0, 3, 2, 64, .failed, [], { id := 0, ctx := .t 1 2 3 0, index := 0, kind := .tload 3 2 64 },
    { wRun with dxn.longOps := [{ id := 0, ctx := .t 1 2 3 0, index := 0, kind := .tload 3 2 64 }] },
    { wRun with dxn.longOps := [{ id := 0, ctx := .t 1 2 3 0, index := 0, kind := .tload 3 2 64 }] }, by decide +kernel⟩,
   ⟨wRun, { id := 0, ctx := .t 1 2 3 0, index := 0, kind := .tload 3 2 64, peg := some 2000 }, 2000, by decide +kernel⟩,
   ⟨wRun, { id := 0, ctx := .t 1 2 3 0, index := 0, kind := .tload 3 2 64 }, by decide +kernel⟩,
   ⟨wRun, 0x1000, [1, 2, 0], by decide +kernel⟩⟩

theorem witness_BlockMoves :
    (∃ (c : Ctx) (body : BitVec 56) (s : State) (w : Nat), w = dxnWord 0x88 body ∧ s.Runs c w [] true ∧
      s.operandFaults c moveDst (dstSpace w) ((s.ctx c).reg (wA w)) ((s.ctx c).reg (wC w)).toNat 64 ++ s.operandFaults c moveSrc (srcSpace w) ((s.ctx c).reg (wB w)) ((s.ctx c).reg (wC w)).toNat 64 ++ lengthFault ((s.ctx c).reg (wC w)).toNat 64 ((s.ctx c).reg (wA w)) ((s.ctx c).reg (wB w)) = [] ∧
      0 < ((s.ctx c).reg (wC w)).toNat) ∧
    (∃ (c : Ctx) (body : BitVec 56) (s : State) (w : Nat), w = dxnWord 0x89 body ∧ s.Runs c w [] true ∧
      s.operandFaults c moveDst (dstSpace w) ((s.ctx c).reg (wA w)) ((s.ctx c).reg (wC w)).toNat 64 ++ raiseIf (((s.ctx c).reg (wC w)).toNat % 64 != 0) 6 ((s.ctx c).reg (wA w)) = [] ∧
      0 < ((s.ctx c).reg (wC w)).toNat) ∧
    (∃ (c : Ctx) (body : BitVec 56) (s : State) (w : Nat), w = dxnWord 0x8A body ∧ s.Runs c w [] true ∧
      (s.xmoveFaults (s.ctx c).domain ((s.ctx c).reg (wA w)) ((s.ctx c).reg (wC w)).toNat ++ s.operandFaults c (fun sp => sp == 1 || sp == 2) (srcSpace w) ((s.ctx c).reg (wB w)) ((s.ctx c).reg (wC w)).toNat 64 ++ lengthFault ((s.ctx c).reg (wC w)).toNat 64 ((s.ctx c).reg (wA w)) ((s.ctx c).reg (wB w)) = []) ∧
      0 < ((s.ctx c).reg (wC w)).toNat) ∧
    (∃ (c : Ctx) (body : BitVec 56) (t : Nat) (b : Nat) (r : Nat) (s : State) (w : Nat), w = dxnWord 0x8B body ∧
      s.Runs c w [] true ∧ s.tdmaFaults c (s.ctx c) w = [] ∧
      tdmaTarget ((s.ctx c).reg (wA w)).toNat ((s.ctx c).reg (wC w)).toNat = some (t, b, r) ∧ 0 < ((s.ctx c).reg (wC w)).toNat) ∧
    (∃ (c : Ctx) (body : BitVec 56) (k : Nat) (a : Word) (s : State) (w : Nat), w = dxnWord 0x89 body ∧ s.Runs c w [] true ∧
      s.operandFaults c moveDst (dstSpace w) ((s.ctx c).reg (wA w)) ((s.ctx c).reg (wC w)).toNat 64 ++ raiseIf (((s.ctx c).reg (wC w)).toNat % 64 != 0) 6 ((s.ctx c).reg (wA w)) = [(k, a)]) ∧
    (∃ (s : State) (c : Ctx) (kind : LongKind) (o : LongOp), (s.addLong c kind []).dxn.longOps.getLast? = some o) ∧
    (∃ (op : Nat) (sp : Nat) (dp : Nat) (n : Nat) (src : Word) (dst : Word) (read : HostRead) (errs : List LineErr) (o : LongOp) (s : State),
      s.longOp? op = some o ∧ o.kind = .move sp dp src dst n) ∧
    (∃ (op : Nat) (sp : Nat) (wd : Nat) (n : Nat) (dst : Word) (v : Word) (read : HostRead) (errs : List LineErr) (o : LongOp) (s : State),
      s.longOp? op = some o ∧ o.kind = .fill sp dst v wd n) ∧
    (∃ (op : Nat) (n : Nat) (sp : Nat) (target : Word) (loc : Word) (dev : Word) (read : HostRead) (errs : List LineErr) (o : LongOp) (s : State),
      s.longOp? op = some o ∧ o.kind = .xmove true target loc dev n sp) ∧
    (∃ (op : Nat) (n : Nat) (sp : Nat) (target : Word) (loc : Word) (dev : Word) (read : HostRead) (errs : List LineErr) (o : LongOp) (s : State),
      s.longOp? op = some o ∧ o.kind = .xmove false target loc dev n sp) ∧
    (∃ (op : Nat) (b : Nat) (t : Nat) (r : Nat) (n : Nat) (sp : Nat) (src : Word) (read : HostRead) (errs : List LineErr) (o : LongOp) (s : State),
      s.longOp? op = some o ∧ o.kind = .tdma b t r src n sp ∧ s.retiring t b = false) ∧
    (∃ (unit : Nat) (n : Nat) (k : Nat) (rd : State → Nat → State × Option Bytes) (wr : State → Nat → Bytes → State) (b : Bytes) (u : State) (s : State),
      rd s (k * unit) = (u, some b)) ∧
    (∃ (unit : Nat) (n : Nat) (k : Nat) (rd : State → Nat → State × Option Bytes) (wr : State → Nat → Bytes → State) (u : State) (s : State),
      rd s (k * unit) = (u, none)) ∧
    (∃ (op : Nat) (a : Nat) (v : BitVec 32768) (f : BitVec 5) (read : HostRead) (errs : List LineErr) (o : LongOp) (s : State),
      s.longOp? op = some o ∧ o.kind = .areg a v f) ∧
    (∃ (op : Nat) (a : Nat) (v : BitVec 32768) (f : BitVec 5) (read : HostRead) (errs : List LineErr) (o : LongOp) (s : State),
      s.longOp? op = some o ∧ o.kind = .treg a v f) ∧
    (∃ (op : Nat) (a : Nat) (v : BitVec 2048) (f : BitVec 5) (read : HostRead) (errs : List LineErr) (o : LongOp) (s : State),
      s.longOp? op = some o ∧ o.kind = .vreg a v f) ∧
    (∃ (op : Nat) (p : Nat) (t : Nat) (k : Nat) (tile : Bytes) (rest : List Bytes) (read : HostRead) (errs : List LineErr) (o : LongOp) (s : State),
      s.longOp? op = some o ∧ o.kind = .recv p t ∧ k = portKey (tenonOf o.ctx) p ∧
      (s.recvsOn k).head?.map LongOp.id = some o.id ∧ (s.stream k).rx = tile :: rest) :=
  ⟨⟨.t 1 2 3 0, kBody 0 1 2 3 0 0, wCode (.t 1 2 3 0) 0x88 (kBody 0 1 2 3 0 0) (wX [(1, 64), (2, 4096), (3, 128)]),
    dxnWord 0x88 (kBody 0 1 2 3 0 0), by decide +kernel, runs_by nop (by decide +kernel), by decide +kernel⟩,
   ⟨.t 1 2 3 0, kBody 0 1 2 3 0 0, wCode (.t 1 2 3 0) 0x89 (kBody 0 1 2 3 0 0) (wX [(1, 64), (2, 4096), (3, 128)]),
    dxnWord 0x89 (kBody 0 1 2 3 0 0), by decide +kernel, runs_by nop (by decide +kernel), by decide +kernel⟩,
   ⟨.c 5, kBody 0 1 2 3 0 2, wCode (.c 5) 0x8A (kBody 0 1 2 3 0 2) (wX [(1, 0x4000000000000040), (2, 4096), (3, 128)]),
    dxnWord 0x8A (kBody 0 1 2 3 0 2), by decide +kernel, runs_by nop (by decide +kernel), by decide +kernel⟩,
   ⟨.c 5, kBody 0 1 2 3 0 2, 1, 0, 4, wCode (.c 5) 0x8B (kBody 0 1 2 3 0 2) (wX [(1, 0x10000000004), (2, 4096), (3, 64)]),
    dxnWord 0x8B (kBody 0 1 2 3 0 2), by decide +kernel, runs_by nop (by decide +kernel), by decide +kernel⟩,
   ⟨.t 1 2 3 0, kBody 0 1 2 3 0 0, 6, 65, wCode (.t 1 2 3 0) 0x89 (kBody 0 1 2 3 0 0) (wX [(1, 65), (2, 4096), (3, 128)]),
    dxnWord 0x89 (kBody 0 1 2 3 0 0), by decide +kernel, runs_by nop (by decide +kernel), by decide +kernel⟩,
   ⟨wRun, .c 5, .fill 0 0 0 8 0, { id := 0, ctx := .c 5, index := 0, kind := .fill 0 0 0 8 0 }, by decide +kernel⟩,
   ⟨0, 0, 0, 128, 64, 4096, .failed, [], { id := 0, ctx := .t 1 2 3 0, index := 0, kind := .move 0 0 64 4096 128 },
    { wRun with dxn.longOps := [{ id := 0, ctx := .t 1 2 3 0, index := 0, kind := .move 0 0 64 4096 128 }] }, by decide +kernel⟩,
   ⟨0, 0, 8, 8, 64, 5, .failed, [], { id := 0, ctx := .t 1 2 3 0, index := 0, kind := .fill 0 64 5 8 8 },
    { wRun with dxn.longOps := [{ id := 0, ctx := .t 1 2 3 0, index := 0, kind := .fill 0 64 5 8 8 }] }, by decide +kernel⟩,
   ⟨0, 128, 2, 0x4000000000000040, 64, 4096, .ok (List.replicate 128 7), [],
    { id := 0, ctx := .c 5, index := 0, kind := .xmove true 0x4000000000000040 64 4096 128 2 },
    { wRun with dxn.longOps := [{ id := 0, ctx := .c 5, index := 0, kind := .xmove true 0x4000000000000040 64 4096 128 2 }] },
    by decide +kernel⟩,
   ⟨0, 128, 1, 0x4000000000000040, 64, 4096, .failed, [],
    { id := 0, ctx := .c 5, index := 0, kind := .xmove false 0x4000000000000040 64 4096 128 1 },
    { wRun with dxn.longOps := [{ id := 0, ctx := .c 5, index := 0, kind := .xmove false 0x4000000000000040 64 4096 128 1 }] },
    by decide +kernel⟩,
   ⟨0, 0, 1, 4, 64, 2, 4096, .ok (List.replicate 64 0), [], { id := 0, ctx := .c 5, index := 0, kind := .tdma 0 1 4 4096 64 2 },
    { wRun with dxn.longOps := [{ id := 0, ctx := .c 5, index := 0, kind := .tdma 0 1 4 4096 64 2 }] }, by decide +kernel⟩,
   ⟨8, 3, 2, (fun s _ => (s, some [5])), (fun s k b => s.localWrite (.c 5) k b), [5], wRun, wRun, by decide +kernel⟩,
   ⟨8, 3, 2, (fun s _ => (s, none)), (fun s k b => s.localWrite (.c 5) k b), wRun, wRun, by decide +kernel⟩,
   ⟨0, 3, 5, 1, .failed, [], { id := 0, ctx := .t 1 2 3 0, index := 0, kind := .areg 3 5 1 },
    { wRun with dxn.longOps := [{ id := 0, ctx := .t 1 2 3 0, index := 0, kind := .areg 3 5 1 }] }, by decide +kernel⟩,
   ⟨0, 3, 5, 1, .failed, [], { id := 0, ctx := .t 1 2 3 0, index := 0, kind := .treg 3 5 1 },
    { wRun with dxn.longOps := [{ id := 0, ctx := .t 1 2 3 0, index := 0, kind := .treg 3 5 1 }] }, by decide +kernel⟩,
   ⟨0, 3, 5, 1, .failed, [], { id := 0, ctx := .t 1 2 3 0, index := 0, kind := .vreg 3 5 1 },
    { wRun with dxn.longOps := [{ id := 0, ctx := .t 1 2 3 0, index := 0, kind := .vreg 3 5 1 }] }, by decide +kernel⟩,
   ⟨0, 1, 5, portKey (tenonIx 1 2 3) 1, [7], [], .failed, [], { id := 0, ctx := .t 1 2 3 0, index := 0, kind := .recv 1 5 },
    { wRun with dxn.longOps := [{ id := 0, ctx := .t 1 2 3 0, index := 0, kind := .recv 1 5 }], dxn.streams := [(portKey (tenonIx 1 2 3) 1, ⟨some .neighbour, [[7]]⟩)] },
    by decide +kernel⟩⟩

theorem witness_ControlAndExceptions :
    (∃ (c : Ctx) (body : BitVec 56) (s : State) (w : Nat), w = dxnWord 0xA0 body ∧ s.Runs c w [] false ∧
      ((bitsOf w 55 52 = 1 → (s.ctx c).pred (bitsOf w 50 48) = true)) ∧
      ((bitsOf w 55 52 = 2 → (s.ctx c).pred (bitsOf w 50 48) = false)) ∧ 0 ≤ (s.ctx c).pc + sextImm w ∧
      (s.ctx c).pc + sextImm w < (s.ctx c).code.length ∧ s.Fetches c ((s.ctx c).pc + sextImm w).toNat) ∧
    (∃ (c : Ctx) (body : BitVec 56) (s : State) (w : Nat), w = dxnWord 0xA0 body ∧ s.Runs c w [] false ∧
      ((bitsOf w 55 52 = 1 ∧ (s.ctx c).pred (bitsOf w 50 48) = false) ∨ (bitsOf w 55 52 = 2 ∧ (s.ctx c).pred (bitsOf w 50 48) = true))) ∧
    (∃ (c : Ctx) (body : BitVec 56) (s : State) (w : Nat), w = dxnWord 0xA0 body ∧ s.Runs c w [] false ∧ bitsOf w 55 52 = 0 ∧
      (s.ctx c).code.length ≤ (s.ctx c).pc + sextImm w) ∧
    (∃ (c : Ctx) (body : BitVec 56) (s : State) (w : Nat), w = dxnWord 0xA1 body ∧ s.Runs c w [] false ∧
      ((s.ctx c).reg (wA w)).toNat < (s.ctx c).code.length ∧ s.Fetches c ((s.ctx c).reg (wA w)).toNat) ∧
    (∃ (c : Ctx) (body : BitVec 56) (s : State) (w : Nat), w = dxnWord 0xA2 body ∧ s.Runs c w [] false ∧
      (s.ctx c).reg (wD w) ≠ 1 ∧ 0 ≤ (s.ctx c).pc + sextImm w ∧ (s.ctx c).pc + sextImm w < (s.ctx c).code.length ∧
      s.Fetches c ((s.ctx c).pc + sextImm w).toNat) ∧
    (∃ (c : Ctx) (body : BitVec 56) (s : State) (w : Nat), w = dxnWord 0xA2 body ∧ s.Runs c w [] false ∧
      (s.ctx c).reg (wD w) = 1) ∧
    (∃ (c : Ctx) (body : BitVec 56) (s : State) (w : Nat), w = dxnWord 0xA3 body ∧ s.Issues c w [] false) ∧
    (∃ (c : Ctx) (s : State), (s.ctx c).status = .stopping ∧ (s.ctx c).endIssued = true ∧ s.opsOf c = [] ∧ s.aborted c = false) ∧
    (∃ (c : Ctx) (s : State), (s.ctx c).status = .running ∧ s.opsOf c = []) ∧
    (∃ (q : Fin 4) (row : Fin 30) (col : Fin 32) (n : Fin 4) (s : State), (swf (fun _ => {}) s.dxn.ctxs = true)) ∧
    (∃ (n : Fin 64) (s : State), (s.ctx (.c n)).runLimit ≠ 0 ∧
      ((s.ctx (.c n)).status = .running ∨ (s.ctx (.c n)).status = .waiting)) ∧
    (∃ (n : Fin 64) (s : State), (s.ctx (.c n)).runLimit = 0) ∧
    (∃ (c : Ctx) (code : Nat) (index : Nat) (info : Word) (s : State), (s.ctx c).status = .running ∧ (s.ctx c).item = none ∧
      s.trussOf c = none ∧ s.opsOf c ≠ []) ∧
    (∃ (c : Ctx) (body : BitVec 56) (s : State) (w : Nat) (k : Nat), w = dxnWord 0x01 body ∧ (s.ctx c).status = .running ∧
      (s.ctx c).code[(s.ctx c).pc]? = some (BitVec.ofNat 64 w) ∧ encodingFault (profileOf c) (s.ctx c).version.toNat w = some k) ∧
    (∃ (c : Ctx) (body : BitVec 56) (s : State) (w : Nat) (locks : List Lock), w = dxnWord 0x20 body ∧ locks = locksDAB w ∧
      (s.ctx c).status = .running ∧ (s.ctx c).code[(s.ctx c).pc]? = some (BitVec.ofNat 64 w) ∧
      encodingFault (profileOf c) (s.ctx c).version.toNat w = none ∧ s.lockedFor c locks = true) ∧
    (∃ (c : Ctx) (body : BitVec 56) (s : State) (w : Nat), w = dxnWord 0xF0 body ∧ s.Runs c w [] false) ∧
    (∃ (c : Ctx) (body : BitVec 56) (s : State) (w : Nat), w = dxnWord 0xF1 body ∧ s.Issues c w [] false) ∧
    (∃ (c : Ctx) (body : BitVec 56) (s : State) (w : Nat), w = dxnWord 0xF2 body ∧ s.Runs c w [] false) ∧
    (∃ (c : Ctx) (body : BitVec 56) (s : State) (w : Nat), w = dxnWord 0xF3 body ∧ s.Runs c w [] false) ∧
    (∃ (c : Ctx) (body : BitVec 56) (s : State) (w : Nat), w = dxnWord 0xF4 body ∧ s.Runs c w [] false) ∧
    (∃ (c : Ctx) (body : BitVec 56) (s : State) (w : Nat), w = dxnWord 0xF5 body ∧ s.Runs c w [] false) ∧
    (∃ (c : Ctx) (body : BitVec 56) (s : State) (w : Nat), w = dxnWord 0xF6 body ∧ s.Runs c w [] false) ∧
    (∃ (c : Ctx) (body : BitVec 56) (s : State) (w : Nat), w = dxnWord 0xF7 body ∧ s.Runs c w [] false) :=
  ⟨⟨.t 1 2 3 0, brBody 3 0 1, wCode (.t 1 2 3 0) 0xA0 (brBody 3 0 1) { domain := 5, g := [(1, 7)] }, dxnWord 0xA0 (brBody 3 0 1),
    by decide +kernel, runs_by nop (by decide +kernel), by decide +kernel, by decide +kernel, by decide +kernel,
    by decide +kernel, fetches_by nop (by decide +kernel)⟩,
   ⟨.t 1 2 3 0, brBody 1 2 1, wCode (.t 1 2 3 0) 0xA0 (brBody 1 2 1) { domain := 5, g := [(1, 7)] }, dxnWord 0xA0 (brBody 1 2 1),
    by decide +kernel, runs_by nop (by decide +kernel), by decide +kernel⟩,
   ⟨.t 1 2 3 0, brBody 0 0 2, wCode (.t 1 2 3 0) 0xA0 (brBody 0 0 2) { domain := 5, g := [(1, 7)] }, dxnWord 0xA0 (brBody 0 0 2),
    by decide +kernel, runs_by nop (by decide +kernel), by decide +kernel⟩,
   ⟨.t 1 2 3 0, kBody 0 1 0 0 0 1, wCode (.t 1 2 3 0) 0xA1 (kBody 0 1 0 0 0 1) (wX [(1, 1)]), dxnWord 0xA1 (kBody 0 1 0 0 0 1),
    by decide +kernel, runs_by nop (by decide +kernel), by decide +kernel, fetches_by nop (by decide +kernel)⟩,
   ⟨.t 1 2 3 0, iBody 3 0 0 0 1, wCode (.t 1 2 3 0) 0xA2 (iBody 3 0 0 0 1) (wX [(3, 7)]), dxnWord 0xA2 (iBody 3 0 0 0 1),
    by decide +kernel, runs_by nop (by decide +kernel), by decide +kernel, by decide +kernel, by decide +kernel,
    fetches_by nop (by decide +kernel)⟩,
   ⟨.t 1 2 3 0, iBody 3 0 0 0 1, wCode (.t 1 2 3 0) 0xA2 (iBody 3 0 0 0 1) (wX [(3, 1)]), dxnWord 0xA2 (iBody 3 0 0 0 1),
    by decide +kernel, runs_by nop (by decide +kernel), by decide +kernel⟩,
   ⟨.t 1 2 3 0, 0, wCode (.t 1 2 3 0) 0xA3 (0) { domain := 5, g := [(1, 7)] }, dxnWord 0xA3 (0), by decide +kernel,
    by unfold State.Issues; decide +kernel⟩,
   ⟨.t 1 2 3 0, { wRun with dxn.ctxs := [(ctxKey (.t 1 2 3 0), { status := .stopping, endIssued := true })] }, by decide +kernel⟩,
   ⟨.t 1 2 3 0, { wRun with dxn.ctxs := [(ctxKey (.t 1 2 3 0), { status := .running })] }, by decide +kernel⟩,
   ⟨1, 2, 3, 0, { wRun with dxn.ctxs := [(ctxKey (.t 1 2 3 0), { status := .stopping })] }, by decide +kernel⟩,
   ⟨5, { wRun with dxn.ctxs := [(ctxKey (.c 5), { status := .running, runLimit := 9, pc := 4 })] }, by decide +kernel⟩,
   ⟨5, wRun, by decide +kernel⟩,
   ⟨.t 1 2 3 0, 7, 2, 0,
    { wRun with dxn.ctxs := [(ctxKey (.t 1 2 3 0), { status := .running, faultPeg := 2000 })], dxn.longOps := [{ id := 0, ctx := .t 1 2 3 0, index := 0, kind := .fill 0 0 0 8 0 }] },
    by decide +kernel⟩,
   ⟨.c 5, kBody 3 1 2 0 0 0, wCode (.c 5) 0x01 (kBody 3 1 2 0 0 0) (wX []), dxnWord 0x01 (kBody 3 1 2 0 0 0), 1, by decide +kernel⟩,
   ⟨.t 1 2 3 0, kBody 3 1 2 0 1 0,
    { wCode (.t 1 2 3 0) 0x20 (kBody 3 1 2 0 1 0) (wX []) with dxn.longOps := [{ id := 0, ctx := .t 1 2 3 1, index := 0, kind := .vload 1 0 0 4 1, locks := [⟨1, 1⟩] }] },
    dxnWord 0x20 (kBody 3 1 2 0 1 0), [⟨1, 3⟩, ⟨1, 1⟩, ⟨1, 2⟩], by decide +kernel⟩,
   ⟨.t 1 2 3 0, 0, wCode (.t 1 2 3 0) 0xF0 (0) { domain := 5, g := [(1, 7)] }, dxnWord 0xF0 (0), by decide +kernel,
    runs_by nop (by decide +kernel)⟩,
   ⟨.t 1 2 3 0, iBody 0 0 0 0 77, wCode (.t 1 2 3 0) 0xF1 (iBody 0 0 0 0 77) { domain := 5, g := [(1, 7)] },
    dxnWord 0xF1 (iBody 0 0 0 0 77), by decide +kernel, by unfold State.Issues; decide +kernel⟩,
   ⟨.t 1 2 3 0, kBody 3 0 0 0 0 1, wCode (.t 1 2 3 0) 0xF2 (kBody 3 0 0 0 0 1) { fflags := 21 }, dxnWord 0xF2 (kBody 3 0 0 0 0 1),
    by decide +kernel, runs_by nop (by decide +kernel)⟩,
   ⟨.t 1 2 3 0, kBody 0 1 2 3 0 0,
    wCode (.t 1 2 3 0) 0xF3 (kBody 0 1 2 3 0 0) { rngCtr := 0x80000000000000000000000000000001, g := [(1, 5), (3, 0xFFFFFFFFFFFFFFFF)] },
    dxnWord 0xF3 (kBody 0 1 2 3 0 0), by decide +kernel, runs_by nop (by decide +kernel)⟩,
   ⟨.t 1 2 3 0, kBody 3 0 0 0 0 0, wCode (.t 1 2 3 0) 0xF4 (kBody 3 0 0 0 0 0) { domain := 5, g := [(1, 7)] },
    dxnWord 0xF4 (kBody 3 0 0 0 0 0), by decide +kernel, runs_by nop (by decide +kernel)⟩,
   ⟨.t 1 2 3 0, kBody 3 0 0 0 0 0, wCode (.t 1 2 3 0) 0xF5 (kBody 3 0 0 0 0 0) { domain := 5, g := [(1, 7)] },
    dxnWord 0xF5 (kBody 3 0 0 0 0 0), by decide +kernel, runs_by nop (by decide +kernel)⟩,
   ⟨.t 1 2 3 0, kBody 3 0 0 0 0 0, wCode (.t 1 2 3 0) 0xF6 (kBody 3 0 0 0 0 0) { domain := 5, g := [(1, 7)] },
    dxnWord 0xF6 (kBody 3 0 0 0 0 0), by decide +kernel, runs_by nop (by decide +kernel)⟩,
   ⟨.t 1 2 3 0, kBody 3 0 0 0 0 0, wCode (.t 1 2 3 0) 0xF7 (kBody 3 0 0 0 0 0) { domain := 5, g := [(1, 7)] },
    dxnWord 0xF7 (kBody 3 0 0 0 0 0), by decide +kernel, runs_by nop (by decide +kernel)⟩⟩

theorem witness_ManagerInstructions :
    (∃ (c : Ctx) (body : BitVec 56) (read : HostRead) (errs : List LineErr) (v : Nat) (code : List Word) (data : Bytes) (crc : BitVec 32) (t : TargetSet) (s : State) (w : Nat),
      w = dxnWord 0xC0 body ∧ s.Runs c w [] false ∧ targetSet ((s.ctx c).reg (wB w)).toNat = some t ∧
      s.tstartReason (s.ctx c).domain ((s.ctx c).reg (wB w)).toNat ((s.ctx c).reg (wC w)).toNat = 0 ∧
      (t.bays.any (fun n => s.bayState n != 0) = false) ∧
      (s.checkImage ((s.ctx c).reg (wA w)) 1 (((s.ctx c).reg (wC w)).toNat % 2 ^ 24) 0 read errs).2 = .ok v code data crc) ∧
    (∃ (c : Ctx) (body : BitVec 56) (read : HostRead) (errs : List LineErr) (s : State) (w : Nat), w = dxnWord 0xC0 body ∧
      s.Runs c w [] false ∧ s.tstartReason (s.ctx c).domain ((s.ctx c).reg (wB w)).toNat ((s.ctx c).reg (wC w)).toNat ≠ 0) ∧
    (∃ (c : Ctx) (body : BitVec 56) (read : HostRead) (errs : List LineErr) (v : Nat) (code : List Word) (data : Bytes) (crc : BitVec 32) (s : State) (w : Nat),
      w = dxnWord 0xC1 body ∧ s.Runs c w [] false ∧
      s.bstartReason (s.ctx c).domain ((s.ctx c).reg (wB w)).toNat ((s.ctx c).reg (wC w)).toNat = 0 ∧
      (s.checkImage ((s.ctx c).reg (wA w)) 2 (((s.ctx c).reg (wC w)).toNat % 2 ^ 24) (32768 - s.engineCode (bitsOf ((s.ctx c).reg (wB w)).toNat 50 48)) read errs).2 = .ok v code data crc) ∧
    (∃ (k : Ctx) (domain : BitVec 12) (c : Nat) (version : Nat) (code : List Word) (img : Word) (crc : BitVec 32) (s : State),
      c % 2 ^ 24 < code.length) ∧
    (∃ (c : Ctx) (body : BitVec 56) (a : Nat) (n : Nat) (d : Bytes) (s : State) (w : Nat), w = dxnWord 0xC2 body ∧
      s.Runs c w [] false ∧ a = ((s.ctx c).reg (wA w)).toNat ∧ s.checksRun = false ∧ a % 64 = 0 ∧
      n = min 64 (byteAt (sbytes s.mem.bytes a 64) 2) ∧ s.deviceOk a 64 = true ∧ s.deviceOk a (64 + 4 * n) = true ∧
      s.rangePoisoned a (64 + 4 * n) = false ∧ s.rangePoisoned a 64 = false ∧ s.rangePoisoned (a + 64) (4 * n) = false ∧
      ((memBays a (64 + 4 * n)).all (fun b => !s.resting b) = true) ∧ ((memBays a 64).all (fun b => !s.resting b) = true) ∧
      ((memBays (a + 64) (4 * n)).all (fun b => !s.resting b) = true) ∧ s.poisonedLines a 64 = 0 ∧
      s.poisonedLines (a + 64) (4 * n) = 0 ∧ d = sbytes s.mem.bytes a 64 ++ sbytes s.mem.bytes (a + 64) (4 * n) ∧
      s.trussReason (s.ctx c).domain d = 0 ∧ (trussBays d).any s.bayLost = false ∧ s.bayWait (trussBays d) = false) ∧
    (∃ (c : Ctx) (body : BitVec 56) (errs : List LineErr) (s : State) (w : Nat), w = dxnWord 0xC2 body ∧ s.Runs c w [] false ∧
      s.checksRun = false ∧ ((s.ctx c).reg (wA w)).toNat % 64 ≠ 0) ∧
    (∃ (c : Ctx) (body : BitVec 56) (n : Nat) (s : State) (w : Nat), w = dxnWord 0xC3 body ∧ s.Runs c w [] false ∧
      n = ((s.ctx c).reg (wA w)).toNat % 65536 ∧ s.checksRun = false ∧ n < 1024 ∧
      s.fld (R.TEN_TRUSS (n / 256) (n % 256)) F.TEN_TRUSS_STATE ≠ 0 ∧
      ((s.ctx c).domain = 0 ∨ s.fld (R.TEN_TRUSS (n / 256) (n % 256)) F.TEN_TRUSS_DOMAIN = (s.ctx c).domain.toNat)) ∧
    (∃ (c : Ctx) (body : BitVec 56) (n : Nat) (s : State) (w : Nat), w = dxnWord 0xC3 body ∧ s.Runs c w [] false ∧
      n = ((s.ctx c).reg (wA w)).toNat % 65536 ∧ s.checksRun = false ∧
      (1024 ≤ n ∨ s.fld (R.TEN_TRUSS (n / 256) (n % 256)) F.TEN_TRUSS_STATE = 0)) ∧
    (∃ (c : Ctx) (body : BitVec 56) (s : State) (w : Nat), w = dxnWord 0xC4 body ∧ s.Runs c w [] false ∧ (s.ctx c).domain = 0 ∧
      s.checksRun = false) ∧
    (∃ (c : Ctx) (body : BitVec 56) (s : State) (w : Nat), w = dxnWord 0xC4 body ∧ s.Runs c w [] false ∧ (s.ctx c).domain ≠ 0) ∧
    (∃ (c : Ctx) (body : BitVec 56) (s : State) (w : Nat), w = dxnWord 0xC5 body ∧ s.Runs c w [] false ∧ (s.ctx c).domain = 0 ∧
      s.checksRun = false) ∧
    (∃ (c : Ctx) (body : BitVec 56) (s : State) (w : Nat), w = dxnWord 0xC5 body ∧ s.Runs c w [] false ∧ (s.ctx c).domain ≠ 0) ∧
    (∃ (c : Ctx) (body : BitVec 56) (s : State) (w : Nat), w = dxnWord 0xC8 body ∧ s.Runs c w [] false ∧ (s.ctx c).domain = 0 ∧
      s.checksRun = false) ∧
    (∃ (c : Ctx) (body : BitVec 56) (s : State) (w : Nat), w = dxnWord 0xC8 body ∧ s.Runs c w [] false ∧ (s.ctx c).domain ≠ 0) ∧
    (∃ (c : Ctx) (body : BitVec 56) (s : State) (w : Nat), w = dxnWord 0xC7 body ∧ s.Runs c w [] false ∧ (s.ctx c).domain = 0 ∧
      s.checksRun = false) ∧
    (∃ (c : Ctx) (body : BitVec 56) (s : State) (w : Nat), w = dxnWord 0xC7 body ∧ s.Runs c w [] false ∧ (s.ctx c).domain ≠ 0) ∧
    (∃ (a : Nat) (t : Nat) (b : Nat) (seg : Nat) (s : State), segArg a = some (t, b, seg) ∧ s.segLocked t b seg = false ∧
      s.retiring t b = false) ∧
    (∃ (a : Nat) (t : Nat) (b : Nat) (seg : Nat) (s : State), segArg a = some (t, b, seg) ∧ s.segLocked t b seg = true ∧
      s.pendingOf t b seg = [] ∧ tblBanked t = false) ∧
    (∃ (c : Ctx) (body : BitVec 56) (t : TargetSet) (s : State) (w : Nat), w = dxnWord 0xC9 body ∧ s.Runs c w [] false ∧
      targetSet ((s.ctx c).reg (wB w)).toNat = some t) ∧
    (∃ (n : Fin 64) (body : BitVec 56) (a : Nat) (s : State) (c : Ctx) (w : Nat), c = .c n ∧ w = dxnWord 0xC6 body ∧
      s.Issues c w [] false ∧ a = ((s.ctx c).reg (wA w)).toNat ∧ (s.ctx c).domain = 0 ∧
      (s.cfg.checks.any (fun k => k.dest == n.val + 1) = false) ∧ a < 256 ∧ setCommits a = true) ∧
    (∃ (q : Fin 4) (rect : TenonRect) (domain : BitVec 12) (s : State), s.regsWf = true ∧
      s.flag (R.TEN_ASSIGN q) F.TEN_ASSIGN_GO = false ∧ s.cfg.checks = [] ∧ rect.lastRow.toNat < 30 ∧
      rect.firstRow.toNat ≤ rect.lastRow.toNat ∧ rect.firstCol.toNat ≤ rect.lastCol.toNat ∧ s.dxn.ctxs = [] ∧
      ((∀ r, r < 30 → ∀ c, c < 32 → s.flag (R.TEN_TENON q r c) F.TEN_TENON_IN_TRUSS = false))) ∧
    (∃ (s : State), s.dxn.ctxs = []) :=
  ⟨⟨.c 5, kBody 4 1 2 3 0 0, .ok (wImage 1), [], 0x21, [0xF0 * 2 ^ 56], [], BitVec.ofNat 32 (leAt (wImage 1) 60 4),
    ⟨1, 2, 2, 3, 3, 0⟩,
    wCode (.c 5) 0xC0 (kBody 4 1 2 3 0 0) (wX [(1, 0x8000000000000000), (2, (2 * 2 ^ 40 + 2 * 2 ^ 32 + 3 * 2 ^ 24 + 3 * 2 ^ 16 + 2 ^ 48)), (3, 2000 * 2 ^ 24)]),
    dxnWord 0xC0 (kBody 4 1 2 3 0 0), by decide +kernel, runs_by nop (by decide +kernel), by decide +kernel⟩,
   ⟨.c 5, kBody 4 1 2 3 0 0, .failed, [], wCode (.c 5) 0xC0 (kBody 4 1 2 3 0 0) (wX [(1, 64), (2, 5), (3, 7)]),
    dxnWord 0xC0 (kBody 4 1 2 3 0 0), by decide +kernel, runs_by nop (by decide +kernel), by decide +kernel⟩,
   ⟨.c 5, kBody 4 1 2 3 0 0, .ok (wImage 2), [], 0x21, [0xF0 * 2 ^ 56], [], BitVec.ofNat 32 (leAt (wImage 2) 60 4),
    wCode (.c 5) 0xC1 (kBody 4 1 2 3 0 0) (wX [(1, 0x8000000000000000), (2, 2 ^ 48 + 2), (3, 2000 * 2 ^ 24)]),
    dxnWord 0xC1 (kBody 4 1 2 3 0 0), by decide +kernel, runs_by nop (by decide +kernel), by decide +kernel⟩,
   ⟨.t 1 2 3 0, 5, 2000 * 2 ^ 24, 0x21, [0xF0 * 2 ^ 56], 7, 9, wRun, by decide +kernel⟩,
   ⟨.c 5, kBody 4 1 0 0 0 0, 4096, 2, wTruss,
    { wCode (.c 5) 0xC2 (kBody 4 1 0 0 0 0) (wX [(1, 4096)]) with mem.bytes := swrite [] 4096 wTruss },
    dxnWord 0xC2 (kBody 4 1 0 0 0 0), by decide +kernel, runs_by nop (by decide +kernel), by decide +kernel⟩,
   ⟨.c 5, kBody 4 1 0 0 0 0, [], wCode (.c 5) 0xC2 (kBody 4 1 0 0 0 0) (wX [(1, 65)]), dxnWord 0xC2 (kBody 4 1 0 0 0 0),
    by decide +kernel, runs_by nop (by decide +kernel), by decide +kernel⟩,
   ⟨.c 5, kBody 4 1 0 0 0 0, 256, ((wCode (.c 5) 0xC3 (kBody 4 1 0 0 0 0) (wX [(1, 256)])).bindTruss wTruss),
    dxnWord 0xC3 (kBody 4 1 0 0 0 0), by decide +kernel, runs_by nop (by decide +kernel), by decide +kernel⟩,
   ⟨.c 5, kBody 4 1 0 0 0 0, 256, wCode (.c 5) 0xC3 (kBody 4 1 0 0 0 0) (wX [(1, 256)]), dxnWord 0xC3 (kBody 4 1 0 0 0 0),
    by decide +kernel, runs_by nop (by decide +kernel), by decide +kernel⟩,
   ⟨.c 5, kBody 4 1 0 0 0 0, wCode (.c 5) 0xC4 (kBody 4 1 0 0 0 0) (wX [(1, 0x10000000003)]), dxnWord 0xC4 (kBody 4 1 0 0 0 0),
    by decide +kernel, runs_by nop (by decide +kernel), by decide +kernel⟩,
   ⟨.c 5, kBody 4 1 0 0 0 0, wCode (.c 5) 0xC4 (kBody 4 1 0 0 0 0) { domain := 5 }, dxnWord 0xC4 (kBody 4 1 0 0 0 0),
    by decide +kernel, runs_by nop (by decide +kernel), by decide +kernel⟩,
   ⟨.c 5, kBody 4 1 0 0 0 0, wCode (.c 5) 0xC5 (kBody 4 1 0 0 0 0) (wX [(1, 0x10000000003)]), dxnWord 0xC5 (kBody 4 1 0 0 0 0),
    by decide +kernel, runs_by nop (by decide +kernel), by decide +kernel⟩,
   ⟨.c 5, kBody 4 1 0 0 0 0, wCode (.c 5) 0xC5 (kBody 4 1 0 0 0 0) { domain := 5 }, dxnWord 0xC5 (kBody 4 1 0 0 0 0),
    by decide +kernel, runs_by nop (by decide +kernel), by decide +kernel⟩,
   ⟨.c 5, kBody 4 1 2 3 0 0, wCode (.c 5) 0xC8 (kBody 4 1 2 3 0 0) (wX [(1, 2000), (2, 4), (3, 5)]),
    dxnWord 0xC8 (kBody 4 1 2 3 0 0), by decide +kernel, runs_by nop (by decide +kernel), by decide +kernel⟩,
   ⟨.c 5, kBody 4 1 2 3 0 0, wCode (.c 5) 0xC8 (kBody 4 1 2 3 0 0) { domain := 5 }, dxnWord 0xC8 (kBody 4 1 2 3 0 0),
    by decide +kernel, runs_by nop (by decide +kernel), by decide +kernel⟩,
   ⟨.c 5, kBody 4 1 0 0 0 0, wCode (.c 5) 0xC7 (kBody 4 1 0 0 0 0) (wX []), dxnWord 0xC7 (kBody 4 1 0 0 0 0), by decide +kernel,
    runs_by nop (by decide +kernel), by decide +kernel⟩,
   ⟨.c 5, kBody 4 1 0 0 0 0, wCode (.c 5) 0xC7 (kBody 4 1 0 0 0 0) { domain := 5 }, dxnWord 0xC7 (kBody 4 1 0 0 0 0),
    by decide +kernel, runs_by nop (by decide +kernel), by decide +kernel⟩,
   ⟨0x10000000003, 1, 0, 3, wRun, by decide +kernel⟩,
   ⟨0x80000000000 + 1, 8, 0, 1, (wRun.seglock (0x80000000000 + 1)).2, by decide +kernel⟩,
   ⟨.c 5, kBody 4 0 2 0 0 0, ⟨1, 2, 2, 3, 3, 0⟩,
    { wCode (.c 5) 0xC9 (kBody 4 0 2 0 0 0) (wX [(2, (2 * 2 ^ 40 + 2 * 2 ^ 32 + 3 * 2 ^ 24 + 3 * 2 ^ 16 + 2 ^ 48))]) with free := 3 },
    dxnWord 0xC9 (kBody 4 0 2 0 0 0), by decide +kernel, runs_by nop (by decide +kernel), by decide +kernel⟩,
   ⟨5, kBody 4 1 0 0 0 0, 2, wCode (.c 5) 0xC6 (kBody 4 1 0 0 0 0) (wX [(1, 2)]), .c 5, dxnWord 0xC6 (kBody 4 1 0 0 0 0),
    by decide +kernel, by decide +kernel, by unfold State.Issues; decide +kernel, by decide +kernel⟩,
   ⟨1, ⟨2, 3, 4, 5⟩, 5, wRun, by decide +kernel⟩,
   ⟨{ wRun with dxn.images := [{ image := 5, headerCrc := 7, profile := 3, signed := false, code := [], data := [] }] },
    by decide +kernel⟩⟩

theorem witness_CollectiveInstructions :
    (∃ (e : Fin 8) (sl : Fin 1024) (body : BitVec 56) (s : State) (c : Ctx) (w : Nat), c = .b e sl ∧ w = dxnWord 0xB0 body ∧
      s.Runs c w [] true ∧ (s.slot e sl).op ∈ [1, 2, 4, 7] ∧
      (s.slot e sl).accumOk ((s.ctx c).reg (wB w)).toNat ((s.ctx c).reg (wA w)).toNat = true ∧
      ((s.slot e sl).chunk ((s.ctx c).reg (wB w)).toNat).caccs < (if (s.slot e sl).op = 7 then 2 else 1) ∧
      (s.slot e sl).early = [] ∧ (s.slot e sl).dropped = []) ∧
    (∃ (e : Fin 8) (sl : Fin 1024) (body : BitVec 56) (s : State) (c : Ctx) (w : Nat), c = .b e sl ∧ w = dxnWord 0xB1 body ∧
      s.Runs c w [] true ∧ (s.slot e sl).op ∈ [1, 2] ∧
      (s.slot e sl).accumOk ((s.ctx c).reg (wB w)).toNat ((s.ctx c).reg (wA w)).toNat = true ∧
      ((s.slot e sl).chunk ((s.ctx c).reg (wB w)).toNat).phase ≠ .emitted ∧
      ((s.slot e sl).chunk ((s.ctx c).reg (wB w)).toNat).phase ≠ .retained) ∧
    (∃ (e : Fin 8) (sl : Fin 1024) (body : BitVec 56) (s : State) (c : Ctx) (w : Nat), c = .b e sl ∧ w = dxnWord 0xB2 body ∧
      s.Runs c w [] true ∧ (s.slot e sl).op ∈ [3] ∧ ((s.ctx c).reg (wB w)).toNat < (s.slot e sl).nChunks ∧
      ((s.slot e sl).chunk ((s.ctx c).reg (wB w)).toNat).started = false ∧ (s.slot e sl).early = [] ∧ (s.slot e sl).dropped = []) ∧
    (∃ (e : Fin 8) (sl : Fin 1024) (body : BitVec 56) (n : Nat) (s : State) (c : Ctx) (w : Nat), c = .b e sl ∧
      w = dxnWord 0xB3 body ∧ s.Runs c w [] true ∧ (s.slot e sl).op ∈ [4, 7] ∧
      (s.channel e (((s.ctx c).reg (wC w)).toNat % 16)).truss = some n ∧
      ((s.ctx c).domain = 0 ∨ leAt (sget {} s.ten.trusses n).descriptor 4 2 = (s.ctx c).domain.toNat) ∧
      (s.slot e sl).accumOk ((s.ctx c).reg (wB w)).toNat ((s.ctx c).reg (wA w)).toNat = true ∧
      s.outFmt (s.slot e sl).group ≠ 3 ∧ s.outFmt (s.slot e sl).group ≠ 7 ∧
      s.fld (R.TEN_TRUSS (n / 256) (n % 256)) F.TEN_TRUSS_STATE ≠ 2 ∧
      (s.channel e (((s.ctx c).reg (wC w)).toNat % 16)).handed = []) ∧
    (∃ (e : Fin 8) (sl : Fin 1024) (body : BitVec 56) (s : State) (c : Ctx) (w : Nat), c = .b e sl ∧ w = dxnWord 0xB4 body ∧
      s.Runs c w [] true ∧ (s.slot e sl).op ∈ [5]) ∧
    (∃ (e : Fin 8) (sl : Fin 1024) (body : BitVec 56) (s : State) (c : Ctx) (w : Nat), c = .b e sl ∧ w = dxnWord 0xB5 body ∧
      s.Runs c w [] true ∧ (s.slot e sl).op ∈ [6] ∧
      s.circuitOf (s.slot e sl).circuit (s.grpA (s.slot e sl).group F.BSN_GROUP_A_DOMAIN) = true) ∧
    (∃ (e : Fin 8) (sl : Fin 1024) (body : BitVec 56) (s : State) (c : Ctx) (w : Nat), c = .b e sl ∧ w = dxnWord 0xB6 body ∧
      s.Runs c w [] false ∧ (s.slot e sl).op < 16) ∧
    (∃ (e : Fin 8) (sl : Fin 1024) (body : BitVec 56) (s : State) (c : Ctx) (w : Nat), c = .b e sl ∧ w = dxnWord 0xB7 body ∧
      s.Runs c w [] false ∧ (s.slot e sl).op < 16) ∧
    (∃ (e : Fin 8) (sl : Fin 1024) (body : BitVec 56) (s : State) (c : Ctx) (w : Nat), c = .b e sl ∧ w = dxnWord 0xB4 body ∧
      s.Runs c w [] true ∧ (s.slot e sl).op ≠ 5) ∧
    (∃ (op : Nat) (e : Fin 8) (sl : Fin 1024) (chunk : Nat) (read : HostRead) (o : LongOp) (s : State), s.longOp? op = some o ∧
      o.ctx = .b e sl ∧ o.kind = .cacc chunk 64 ∧ s.missing e sl chunk = []) ∧
    (∃ (op : Nat) (e : Fin 8) (sl : Fin 1024) (chunk : Nat) (read : HostRead) (o : LongOp) (s : State), s.longOp? op = some o ∧
      o.ctx = .b e sl ∧ o.kind = .cacc chunk 64 ∧ s.missing e sl chunk ≠ []) ∧
    (∃ (op : Nat) (e : Fin 8) (sl : Fin 1024) (chunk : Nat) (read : HostRead) (o : LongOp) (s : State), s.longOp? op = some o ∧
      o.ctx = .b e sl ∧ o.kind = .cemit chunk 64) ∧
    (∃ (op : Nat) (e : Fin 8) (sl : Fin 1024) (chunk : Nat) (read : HostRead) (o : LongOp) (s : State), s.longOp? op = some o ∧
      o.ctx = .b e sl ∧ o.kind = .cgath chunk ∧ s.missing e sl chunk = []) ∧
    (∃ (op : Nat) (e : Fin 8) (sl : Fin 1024) (chunk : Nat) (read : HostRead) (o : LongOp) (s : State), s.longOp? op = some o ∧
      o.ctx = .b e sl ∧ o.kind = .cbar chunk ∧
      arrivedAll (s.slot e sl).arrivals chunk (s.members (s.slot e sl).group).length = true) ∧
    (∃ (op : Nat) (e : Fin 8) (sl : Fin 1024) (chunk : Nat) (read : HostRead) (o : LongOp) (s : State), s.longOp? op = some o ∧
      o.ctx = .b e sl ∧ o.kind = .cring chunk ∧
      arrivedAll (s.slot e sl).stepDone chunk (s.members (s.slot e sl).group).length = true) ∧
    (∃ (int : Bool) (reduce : Nat) (a : Nat) (x : Nat), int = true) :=
  ⟨⟨1, 2, kBody 0 1 2 0 0 0, wColl 1 (dxnWord 0xB0 (kBody 0 1 2 0 0 0)) (wX [(1, 64), (2, 0)]), .b 1 2,
    dxnWord 0xB0 (kBody 0 1 2 0 0 0), by decide +kernel, by decide +kernel, runs_by nop (by decide +kernel), by decide +kernel⟩,
   ⟨1, 2, kBody 0 1 2 0 0 0, wColl 1 (dxnWord 0xB1 (kBody 0 1 2 0 0 0)) (wX [(1, 64), (2, 0)]), .b 1 2,
    dxnWord 0xB1 (kBody 0 1 2 0 0 0), by decide +kernel, by decide +kernel, runs_by nop (by decide +kernel), by decide +kernel⟩,
   ⟨1, 2, kBody 0 0 2 0 0 0, wColl 3 (dxnWord 0xB2 (kBody 0 0 2 0 0 0)) (wX [(1, 64), (2, 0)]), .b 1 2,
    dxnWord 0xB2 (kBody 0 0 2 0 0 0), by decide +kernel, by decide +kernel, runs_by nop (by decide +kernel), by decide +kernel⟩,
   ⟨1, 2, kBody 0 1 2 3 0 0, 300,
    { (wColl 4 (dxnWord 0xB3 (kBody 0 1 2 3 0 0)) (wX [(1, 64), (2, 0), (3, 2)])) with ten.channels := [(18, { truss := some 300 })], ten.trusses := [(300, { descriptor := List.replicate 64 0 })] },
    .b 1 2, dxnWord 0xB3 (kBody 0 1 2 3 0 0), by decide +kernel, by decide +kernel, runs_by nop (by decide +kernel),
    by decide +kernel⟩,
   ⟨1, 2, kBody 0 0 2 0 0 0, wColl 5 (dxnWord 0xB4 (kBody 0 0 2 0 0 0)) (wX [(2, 9)]), .b 1 2, dxnWord 0xB4 (kBody 0 0 2 0 0 0),
    by decide +kernel, by decide +kernel, runs_by nop (by decide +kernel), by decide +kernel⟩,
   ⟨1, 2, kBody 0 0 2 0 0 0,
    (wColl 6 (dxnWord 0xB5 (kBody 0 0 2 0 0 0)) (wX [(2, 9)])).setFld (R.SPL_CIRC_ACT 0) F.SPL_CIRC_ACT_STATE 1, .b 1 2,
    dxnWord 0xB5 (kBody 0 0 2 0 0 0), by decide +kernel, by decide +kernel, runs_by nop (by decide +kernel), by decide +kernel⟩,
   ⟨1, 2, kBody 0 1 0 0 0 0, wColl 1 (dxnWord 0xB6 (kBody 0 1 0 0 0 0)) (wX [(1, 0x8001)]), .b 1 2,
    dxnWord 0xB6 (kBody 0 1 0 0 0 0), by decide +kernel, by decide +kernel, runs_by nop (by decide +kernel), by decide +kernel⟩,
   ⟨1, 2, kBody 3 0 0 0 0 0, wColl 1 (dxnWord 0xB7 (kBody 3 0 0 0 0 0)) (wX [(1, 64), (2, 0)]), .b 1 2,
    dxnWord 0xB7 (kBody 3 0 0 0 0 0), by decide +kernel, by decide +kernel, runs_by nop (by decide +kernel), by decide +kernel⟩,
   ⟨1, 2, kBody 0 0 2 0 0 0, wColl 1 (dxnWord 0xB4 (kBody 0 0 2 0 0 0)) (wX [(2, 9)]), .b 1 2, dxnWord 0xB4 (kBody 0 0 2 0 0 0),
    by decide +kernel, by decide +kernel, runs_by nop (by decide +kernel), by decide +kernel⟩,
   ⟨0, 1, 2, 0, .failed, wCollOp (.cacc 0 64), { (wColl 1 (0xF0 * 2 ^ 56) {}) with dxn.longOps := [wCollOp (.cacc 0 64)] },
    by decide +kernel⟩,
   ⟨0, 1, 2, 0, .failed, wCollOp (.cacc 0 64), { (wInbox 1 (wFrame 1 1)) with dxn.longOps := [wCollOp (.cacc 0 64)] },
    by decide +kernel⟩,
   ⟨0, 1, 2, 0, .failed, wCollOp (.cemit 0 64), { (wInbox 1 (wFrame 1 1)) with dxn.longOps := [wCollOp (.cemit 0 64)] },
    by decide +kernel⟩,
   ⟨0, 1, 2, 0, .failed, wCollOp (.cgath 0),
    { (wInbox 3 (wFrame 1 3)) with dxn.longOps := [wCollOp (.cgath 0)], bsn.slots := [(1026, { record := [3, 0, 3, 2, 0, 0, 7, 0, 1, 0, 0, 0], chunks := [(0, { started := true, expected := [(0, 1)] })] })] },
    by decide +kernel⟩,
   ⟨0, 1, 2, 0, .failed, wCollOp (.cbar 0), { (wColl 5 (0xF0 * 2 ^ 56) {}) with dxn.longOps := [wCollOp (.cbar 0)] },
    by decide +kernel⟩,
   ⟨0, 1, 2, 0, .failed, wCollOp (.cring 0), { (wColl 6 (0xF0 * 2 ^ 56) {}) with dxn.longOps := [wCollOp (.cring 0)] },
    by decide +kernel⟩,
   ⟨true, 0, 0x7FFFFFFFFFFFFFFF, 5, by decide +kernel⟩⟩

theorem witness_CollectiveFramesAndAborts :
    (∃ (e : Fin 8) (errs : List LineErr) (f : CollFrame) (rest : List CollFrame) (sl : Nat) (u : State) (s : State),
      sget [] s.bsn.inbox e = f :: rest ∧ f.kind = 1 ∧
      u = { s with bsn := { s.bsn with inbox := sset [] s.bsn.inbox e rest } } ∧ u.accept e f = (u, some sl)) ∧
    (∃ (e : Fin 8) (f : CollFrame) (rest : List CollFrame) (sl : Nat) (u : State) (s : State),
      sget [] s.bsn.inbox e = f :: rest ∧ f.kind = 4 ∧
      u = { s with bsn := { s.bsn with inbox := sset [] s.bsn.inbox e rest } } ∧ u.accept e f = (u, some sl)) ∧
    (∃ (e : Fin 8) (f : CollFrame) (rest : List CollFrame) (sl : Nat) (u : State) (s : State),
      sget [] s.bsn.inbox e = f :: rest ∧ f.kind = 5 ∧
      u = { s with bsn := { s.bsn with inbox := sset [] s.bsn.inbox e rest } } ∧ u.accept e f = (u, some sl) ∧
      (f.code = (u.slot e sl).curStep ∨ f.code = ((u.slot e sl).curStep + 1) % 65536)) ∧
    (∃ (e : Fin 8) (f : CollFrame) (rest : List CollFrame) (sl : Nat) (u : State) (s : State),
      sget [] s.bsn.inbox e = f :: rest ∧ f.kind = 7 ∧
      u = { s with bsn := { s.bsn with inbox := sset [] s.bsn.inbox e rest } } ∧ u.accept e f = (u, some sl)) ∧
    (∃ (s : State) (e : Nat) (sl : Nat) (f : CollFrame) (errs : List LineErr), s.contributionOk e sl f = true ∧
      f.chunk < (s.slot e sl).nChunks ∧ (s.slot e sl).op ≠ 3 ∧ s.taking e sl f.chunk f.member = true ∧
      s.isPeer (s.slot e sl).group f.member = false) ∧
    (∃ (s : State) (e : Nat) (sl : Nat) (f : CollFrame), (s.slot e sl).op ≠ 3 ∧
      sget 0 ((s.slot e sl).chunk f.chunk).expected f.member = f.offset ∧ f.offset < s.owed e sl f.chunk f.member) ∧
    (∃ (s : State) (e : Nat) (sl : Nat) (f : CollFrame) (errs : List LineErr),
      f.offset < sget 0 ((s.slot e sl).chunk f.chunk).expected f.member) ∧
    (∃ (s : State) (e : Nat) (sl : Nat) (f : CollFrame) (errs : List LineErr), s.contributionOk e sl f = true ∧
      f.chunk < (s.slot e sl).nChunks ∧ (s.slot e sl).op ≠ 3 ∧ s.taking e sl f.chunk f.member = false ∧
      ((s.slot e sl).early.map CollFrame.cells).foldl (· + ·) f.cells ≤ s.fld (R.BSN_CTRL e) F.BSN_CTRL_EARLY_CELLS) ∧
    (∃ (e : Fin 8) (f : CollFrame) (rest : List CollFrame) (u : State) (s : State), sget [] s.bsn.inbox e = f :: rest ∧
      f.kind = 1 ∧ u = { s with bsn := { s.bsn with inbox := sset [] s.bsn.inbox e rest } } ∧ f.operation = 0 ∧
      u.engineHolds f.stored = false ∧ (u.count (ctrBsn e 1)).engineHolds f.stored = false) ∧
    (∃ (e : Fin 8) (errs : List LineErr) (f : CollFrame) (rest : List CollFrame) (sl : Nat) (r : Retained) (u : State) (s : State),
      sget [] s.bsn.inbox e = f :: rest ∧ f.kind = 3 ∧
      u = { s with bsn := { s.bsn with inbox := sset [] s.bsn.inbox e rest } } ∧ u.activeSlot e f.group f.opSeq = some sl ∧
      u.accept e f = (u, some sl) ∧ u.retained? e f.group f.opSeq f.chunk = some r) ∧
    (∃ (e : Fin 8) (errs : List LineErr) (f : CollFrame) (rest : List CollFrame) (o : EndedOp) (r : Retained) (u : State) (s : State),
      sget [] s.bsn.inbox e = f :: rest ∧ f.kind = 3 ∧
      u = { s with bsn := { s.bsn with inbox := sset [] s.bsn.inbox e rest } } ∧ u.activeSlot e f.group f.opSeq = none ∧
      u.endedOp e f.group f.opSeq = some o ∧ f.operation ≠ 0 ∧ o.code = 0 ∧ u.fromMember (byteAt o.record 0) f = true ∧
      u.retained? e f.group f.opSeq f.chunk = some r) ∧
    (∃ (s : State) (e : Nat) (sl : Nat) (code : Nat) (origin : Nat) (detail : Nat), s.slotActive e sl = false) ∧
    (∃ (s : State) (e : Fin 8) (sl : Fin 1024) (code : Nat) (origin : Nat) (detail : Nat), s.regsWf = true ∧
      s.slotActive e sl = true ∧ code < 65536) ∧
    (∃ (e : Fin 8) (sl : Fin 1024) (s : State), s.slotSt e sl = 2 ∧ (s.slot e sl).closed = false ∧ s.unreported e sl = false) ∧
    (∃ (s : State) (e : Fin 8) (sl : Fin 1024), (s.slot e sl).outcomeAddr = 0 ∧
      s.ctxPegOk (.b e sl) (s.slot e sl).abortPeg = true ∧ (s.slot e sl).notify = false ∧
      sameOpSeq (s.slotCode e sl) (s.slot e sl).detail = false) ∧
    (∃ (op : Nat) (m : Nat) (e : Fin 8) (sl : Fin 1024) (chunk : Nat) (addr : Nat) (rest : List Nat) (o : LongOp) (s : State),
      s.longOp? op = some o ∧ o.ctx = .b e sl ∧ o.kind = .cacc chunk addr ∧ s.slotActive e sl = true ∧
      s.missing e sl chunk = m :: rest ∧ s.portUp (s.memberPort (s.slot e sl).group m) = false) ∧
    (∃ (op : Nat) (e : Fin 8) (sl : Fin 1024) (step : Nat) (o : LongOp) (s : State), s.longOp? op = some o ∧ o.ctx = .b e sl ∧
      o.kind = .cring step ∧ arrivedAll (s.slot e sl).stepDone step (s.members (s.slot e sl).group).length = false) ∧
    (∃ (e : Fin 8) (sl : Fin 1024) (s : State), (swf (fun _ => {}) s.ten.channels = true) ∧ s.slotSt e sl = 2) ∧
    (∃ (e : Fin 8) (s : State), s.regsWf = true ∧ s.flag (R.BSN_CTRL e) F.BSN_CTRL_ENABLE = false ∧
      s.checking (.bsnEnable e) = false) ∧
    (∃ (e : Fin 8) (s : State), s.regsWf = true ∧ s.flag (R.BSN_CTRL e) F.BSN_CTRL_ENABLE = true ∧ s.slotsOf e = []) :=
  ⟨⟨1, [], wFrame 1 1, [], 2, { (wInbox 1 (wFrame 1 1)) with bsn.inbox := [] }, wInbox 1 (wFrame 1 1), by decide +kernel⟩,
   ⟨1, { wFrame 4 1 with code := 5 }, [], 2, { (wInbox 1 ({ wFrame 4 1 with code := 5 })) with bsn.inbox := [] },
    wInbox 1 ({ wFrame 4 1 with code := 5 }), by decide +kernel⟩,
   ⟨1, { wFrame 5 5 with code := 1 }, [], 2, { (wInbox 5 ({ wFrame 5 5 with code := 1 })) with bsn.inbox := [] },
    wInbox 5 ({ wFrame 5 5 with code := 1 }), by decide +kernel⟩,
   ⟨1, { wFrame 7 6 with code := 1 }, [], 2, { (wInbox 6 ({ wFrame 7 6 with code := 1 })) with bsn.inbox := [] },
    wInbox 6 ({ wFrame 7 6 with code := 1 }), by decide +kernel⟩,
   ⟨
    { (wInbox 1 (wFrame 1 1)) with bsn.slots := [(1026, { record := [1, 0, 3, 2, 12, 0, 7, 0, 1, 0, 0, 0], chunks := [(0, { started := true, caccs := 1, expected := [(0, 0)] })] })] },
    1, 2, { wFrame 1 1 with hfhVersion := 1, count := 0 }, [], by decide +kernel⟩,
   ⟨
    { (wInbox 1 (wFrame 1 1)) with bsn.slots := [(1026, { record := [1, 0, 3, 2, 12, 0, 7, 0, 1, 0, 0, 0], chunks := [(0, { started := true, caccs := 1, expected := [] })] })] },
    1, 2, wFrame 1 1, by decide +kernel⟩,
   ⟨
    { (wInbox 1 (wFrame 1 1)) with bsn.slots := [(1026, { record := [1, 0, 3, 2, 12, 0, 7, 0, 1, 0, 0, 0], chunks := [(0, { started := true, caccs := 1, expected := [(0, 64)] })] })] },
    1, 2, wFrame 1 1, [], by decide +kernel⟩,
   ⟨(wInbox 1 (wFrame 1 1)), 1, 2, { wFrame 1 1 with hfhVersion := 1, count := 0 }, [], by decide +kernel⟩,
   ⟨1, wFrame 1 0, [], { (wInbox 1 (wFrame 1 0)) with bsn.inbox := [] }, wInbox 1 (wFrame 1 0), by decide +kernel⟩,
   ⟨1, [], wFrame 3 1, [], 2, ⟨1, 515, 7, 0, 64, 9, 4096⟩,
    { (wInbox 1 (wFrame 3 1)) with bsn.inbox := [], bsn.retained := [⟨1, 515, 7, 0, 64, 9, 4096⟩] },
    { (wInbox 1 (wFrame 3 1)) with bsn.retained := [⟨1, 515, 7, 0, 64, 9, 4096⟩] }, by decide +kernel⟩,
   ⟨1, [], wFrame 3 1, [], { e := 1, group := 515, opSeq := 7, code := 0, slot := 2, record := [1], outcome := [] },
    ⟨1, 515, 7, 0, 64, 9, 4096⟩,
    { (wInbox 1 (wFrame 3 1)) with bsn.inbox := [], bsn.slots := [], bsn.ended := [{ e := 1, group := 515, opSeq := 7, code := 0, slot := 2, record := [1], outcome := [] }], bsn.retained := [⟨1, 515, 7, 0, 64, 9, 4096⟩] },
    { (wInbox 1 (wFrame 3 1)) with bsn.slots := [], bsn.ended := [{ e := 1, group := 515, opSeq := 7, code := 0, slot := 2, record := [1], outcome := [] }], bsn.retained := [⟨1, 515, 7, 0, 64, 9, 4096⟩] },
    by decide +kernel⟩,
   ⟨wRun, 1, 2, 5, 0, 0, by decide +kernel⟩,
   ⟨{ (wColl 1 0 {}) with dxn.longOps := [wCollOp (.cacc 0 64)] }, 1, 2, 5, 3, 0, by decide +kernel⟩,
   ⟨1, 2, (wColl 1 0 {}).bsnAbort 1 2 5 0xFFFF 0, by decide +kernel⟩,
   ⟨
    { (wColl 1 0 { domain := 5 }) with bsn.slots := [(1026, { record := List.replicate 42 0 ++ [0, 8] })], dxn.pegOwner := [(2048, 5)] },
    1, 2, by decide +kernel⟩,
   ⟨0, 0, 1, 2, 0, 64, [1], wCollOp (.cacc 0 64), { (wInbox 1 (wFrame 1 1)) with dxn.longOps := [wCollOp (.cacc 0 64)] },
    by decide +kernel⟩,
   ⟨0, 1, 2, 0, wCollOp (.cring 0), { (wInbox 6 (wFrame 1 6)) with dxn.longOps := [wCollOp (.cring 0)] }, by decide +kernel⟩,
   ⟨1, 2,
    { ((wColl 4 0 {}).bsnAbort 1 2 5 0xFFFF 0) with ten.channels := [(18, { handed := [⟨2, 7, 0, 64, 1, 4, true, 4, [], 0, 0, [], 0, true⟩] })] },
    by decide +kernel⟩,
   ⟨3, wRun, by decide +kernel⟩,
   ⟨3,
    { (wRun.setFld (R.BSN_CTRL 3) F.BSN_CTRL_ENABLE 1) with bsn.retained := [⟨3, 515, 7, 0, 64, 9, 4096⟩, ⟨1, 515, 7, 1, 64, 9, 8192⟩] },
    by decide +kernel⟩⟩

theorem witness_PortLifecycle :
    (∃ (p : Fin 2048) (s : State), s.regsWf = true ∧ s.portEnabled p = false ∧ s.checking (.portEnable p) = false) ∧
    (∃ (p : Fin 2048) (s : State), s.regsWf = true ∧ s.portEnabled p = true) ∧
    (∃ (p : Fin 2048) (s : State), s.regsWf = true ∧ (swf (fun _ => {}) s.ports = true)) ∧
    (∃ (p : Fin 2048) (s : State), s.regsWf = true ∧ s.portEnabled p = true) ∧
    (∃ (p : Fin 2048) (s : State), s.regsWf = true ∧ s.portEnabled p = false) ∧
    (∃ (p : Fin 2048) (reason : Nat) (s : State), s.regsWf = true ∧ (swf (fun _ => {}) s.ports = true) ∧
      (swf (fun _ => []) s.swc.queues = true) ∧ s.swc.frames = [] ∧ s.swc.reseqs = [] ∧ s.portState p ≠ psDisabled ∧
      s.portExists p = true) ∧
    (∃ (p : Fin 2048) (s : State), s.regsWf = true ∧ s.portExists p = true ∧ s.portLent p = false ∧ s.portEnabled p = true ∧
      s.portLocked p = false ∧ (s.laser (portEngine p)).lightLost = false ∧ (s.laser (portEngine p)).relight = false) ∧
    (∃ (p : Fin 2048) (s : State), s.regsWf = true ∧ s.portExists p = true ∧ s.portEnabled p = true) ∧
    (∃ (p : Fin 2048) (s : State), s.portExists p = true ∧ s.portLent p = false ∧
      (s.portEnabled p = false ∨ s.portLocked p = true ∨ (s.laser (portEngine p)).lightLost = true ∨ (s.laser (portEngine p)).relight = true)) ∧
    (∃ (p : Fin 2048) (dark : BitVec 8) (s : State), s.regsWf = true ∧ s.portExists p = true ∧ s.lossIgnored p = false ∧
      s.portEnabled p = true ∧ s.portUp p = true ∧ s.fld (R.PRT_HOLD_TIME (p / 8) (p % 8)) F.PRT_HOLD_TIME_HOLD ≠ 0) ∧
    (∃ (p : Fin 2048) (dark : BitVec 8) (s : State), s.regsWf = true ∧ s.portExists p = true ∧ s.lossIgnored p = false ∧
      s.portEnabled p = true ∧ (s.portState p = psTraining ∨ s.portState p = psNegotiating) ∧ (s.port p).holdRunning = false ∧
      (s.port p).absent = false) ∧
    (∃ (p : Fin 2048) (dark : BitVec 8) (s : State), (s.portExists p = false ∨ s.lossIgnored p = true)) ∧
    (∃ (p : Fin 2048) (s : State), s.regsWf = true ∧ s.portEnabled p = true ∧ (s.port p).met = false ∧
      (s.port p).limitPassed = false ∧ (s.portState p = psTraining ∨ s.portState p = psNegotiating) ∧
      s.cfld (R.PRT_PLAN_PORT (p / 8) (p % 8)) F.PRT_PLAN_PORT_NONE = 0) ∧
    (∃ (p : Fin 2048) (s : State), s.portEnabled p = true ∧ ((s.port p).met = true ∨ (s.port p).limitPassed = true) ∧
      s.exchanging p = true ∧ (s.port p).partner = none ∧ (s.port p).negStopped = false) ∧
    (∃ (p : Fin 2048) (s : State), s.portEnabled p = false) ∧
    (∃ (p : Fin 2048) (s : State), s.regsWf = true ∧ (swf (fun _ => []) s.swc.queues = true) ∧ s.swc.frames = [] ∧
      s.swc.reseqs = [] ∧ (s.port p).holdRunning = true ∧ s.portState p = psHeld) ∧
    (∃ (p : Fin 2048) (s : State), (s.port p).holdRunning = false) :=
  ⟨⟨12, wRun, by decide +kernel⟩,
   ⟨12, wPort 3, by decide +kernel⟩,
   ⟨12, wRun.setPort 12 { met := true, negStopped := true }, by decide +kernel⟩,
   ⟨12, wPort 3, by decide +kernel⟩,
   ⟨12, wRun, by decide +kernel⟩,
   ⟨12, 6, { wPort 3 with swc.queues := [(96, [⟨4, 0⟩])] }, by decide +kernel⟩,
   ⟨12, (wPort 1).setFld (R.PRT_PAIR_STATUS 1) F.PRT_PAIR_STATUS_LOCK 0x10, by decide +kernel⟩,
   ⟨12, (wPort 1).setFld (R.PRT_PAIR_STATUS 1) F.PRT_PAIR_STATUS_LOCK 0x10, by decide +kernel⟩,
   ⟨12, wPort 3, by decide +kernel⟩,
   ⟨12, 0x30, (wHold 3).setPort 12 { partner := some { identity := 77, port := 5 } }, by decide +kernel⟩,
   ⟨12, 0, wPort 2, by decide +kernel⟩,
   ⟨12, 255, wPort 7, by decide +kernel⟩,
   ⟨12, wPort 2, by decide +kernel⟩,
   ⟨12, (wPort 2).setPort 12 { limitPassed := true }, by decide +kernel⟩,
   ⟨12, wRun, by decide +kernel⟩,
   ⟨12, (wHold 6).setPort 12 { holdRunning := true, holdId := 77, holdPort := 5 }, by decide +kernel⟩,
   ⟨12, wPort 6, by decide +kernel⟩⟩

theorem witness_LinkExchange :
    (∃ (p : Fin 2048) (s : State), s.exchanging p = true ∧ (s.port p).negStopped = false ∧
      s.canSend p ((s.lldpFrame p).length + 4) = true) ∧
    (∃ (p : Fin 2048) (s : State), s.exchanging p = true ∧ (s.port p).negStopped = false ∧
      s.canSend p ((s.lldpFrame p).length + 4) = false) ∧
    (∃ (p : Fin 2048) (s : State), (s.exchanging p = false ∨ (s.port p).negStopped = true)) ∧
    (∃ (p : Fin 2048) (s : State), s.portAgreed p = true ∧ s.receives p = true ∧ s.canSend p ((s.lldpFrame p).length + 4) = true) ∧
    (∃ (p : Fin 2048) (s : State), (s.portAgreed p = false ∨ s.receives p = false)) ∧
    (∃ (p : Fin 2048) (frame : Bytes) (s : State), s.receives p = true ∧ fcsRight frame = true ∧ isLldp frame = true) ∧
    (∃ (p : Fin 2048) (frame : Bytes) (s : State), s.receives p = false) ∧
    (∃ (p : Nat) (w : Wlx) (o : Outcome) (s : State), s.negotiate p w = some o) ∧
    (∃ (p : Fin 2048) (s : State), s.regsWf = true ∧ s.portUp p = true ∧ s.portFc p = 1 ∧ s.receives p = true ∧
      s.fld (R.PRT_HOLD_TIME (p / 8) (p % 8)) F.PRT_HOLD_TIME_HOLD ≠ 0) ∧
    (∃ (p : Fin 2048) (s : State), (s.portAgreed p = false ∨ s.portFc p ≠ 1 ∨ s.receives p = false)) :=
  ⟨⟨12, wPort 2, by decide +kernel⟩,
   ⟨12, (wPort 2).setPort 12 { shut := true }, by decide +kernel⟩,
   ⟨12, wPort 3, by decide +kernel⟩,
   ⟨12, wPort 4, by decide +kernel⟩,
   ⟨12, wPort 2, by decide +kernel⟩,
   ⟨12, wLldp ++ fcsOf wLldp, wPort 2, by decide +kernel⟩,
   ⟨12, [1, 2, 3], wPort 7, by decide +kernel⟩,
   ⟨12, { version := 2, fc := 3, vcMax := 4, hfh := 3, flags := 7, maxFrame := 4096 }, ⟨2, 2, 4, 2, false, false, false, 4096⟩,
    wPort 2, by decide +kernel⟩,
   ⟨12, wPfc.setFld (R.PRT_HOLD_TIME 1 4) F.PRT_HOLD_TIME_HOLD 100, by decide +kernel⟩,
   ⟨12, wPort 3, by decide +kernel⟩⟩

theorem witness_CreditsAndPauses :
    (∃ (p : Fin 2048) (frame : Bytes) (s : State), s.receives p = true ∧ s.portUp p = true ∧ s.portFc p = 2 ∧
      (s.port p).badFcs = false ∧ s.linkKind frame = some 1 ∧ isLldp frame = false ∧ fcsRight frame = true) ∧
    (∃ (p : Fin 2048) (frame : Bytes) (s : State), s.regsWf = true ∧ (swf (fun _ => {}) s.ports = true) ∧
      (swf (fun _ => 0) (s.port p).returned = true) ∧ s.portUp p = true ∧ s.portFc p = 2 ∧
      s.fld (prtState p) F.PRT_PORT_STATE_VCS ≤ 8) ∧
    (∃ (p : Fin 2048) (frame : Bytes) (s : State), s.receives p = false) ∧
    (∃ (p : Fin 2048) (s : State), s.creditsOn p = true ∧ (s.port p).owes = true ∧ s.canSend p 64 = true) ∧
    (∃ (p : Fin 2048) (s : State), (s.creditsOn p = false ∨ (s.port p).owes = false)) ∧
    (∃ (p : Fin 2048) (s : State), s.creditsOn p = true ∧ s.canSend p 64 = true) ∧
    (∃ (p : Fin 2048) (s : State), s.creditsOn p = true ∧ s.canSend p 64 = false) ∧
    (∃ (p : Fin 2048) (s : State), s.creditsOn p = false) ∧
    (∃ (p : Fin 2048) (s : State), s.regsWf = true ∧ s.creditsOn p = true ∧ s.lossIgnored p = false ∧
      s.fld (R.PRT_HOLD_TIME (p / 8) (p % 8)) F.PRT_HOLD_TIME_HOLD ≠ 0) ∧
    (∃ (p : Fin 2048) (frame : Bytes) (s : State), s.receives p = true ∧ s.linkKind frame = some 2 ∧ isLldp frame = false ∧
      fcsRight frame = true ∧ (s.port p).badFcs = true ∧ s.portState p ≠ psQuarantine ∧ (swf (fun _ => {}) s.ports = true)) ∧
    (∃ (p : Fin 2048) (enable : BitVec 8) (quanta : List (BitVec 16)) (s : State), s.receives p = true ∧ s.pfcRuns p = true ∧
      (swf (fun _ => {}) s.ports = true)) ∧
    (∃ (p : Fin 2048) (enable : BitVec 8) (quanta : List (BitVec 16)) (s : State), s.receives p = false) ∧
    (∃ (p : Fin 2048) (c : Fin 8) (s : State), (swf (fun _ => {}) s.ports = true)) ∧
    (∃ (p : Fin 2048) (c : Fin 8) (s : State), s.pfcRuns p = true ∧ s.canSend p 64 = true ∧ (s.port p).xoff.getLsbD c = true ∧
      s.fld (R.PRT_PFC_THRESH (p / 8) (p % 8) c) F.PRT_PFC_THRESH_XON ≤ s.heldCells p c) ∧
    (∃ (p : Fin 2048) (c : Fin 8) (s : State), (s.pfcRuns p = false ∨ (s.port p).xoff.getLsbD c = false)) ∧
    (∃ (p : Fin 2048) (c : Fin 8) (s : State), s.pfcRuns p = true ∧ (s.port p).paused.getLsbD c = true ∧
      s.fld R.PRT_GLOBAL_CTRL F.PRT_GLOBAL_CTRL_PFC_WDOG ≠ 0) ∧
    (∃ (p : Fin 2048) (c : Fin 8) (s : State),
      (s.pfcRuns p = false ∨ (s.port p).paused.getLsbD c = false ∨ s.fld R.PRT_GLOBAL_CTRL F.PRT_GLOBAL_CTRL_PFC_WDOG = 0)) ∧
    (∃ (p : Fin 2048) (c : Fin 8) (s : State), (swf (fun _ => {}) s.ports = true)) :=
  ⟨⟨12, wLink (wPort 3) 1 0 (beBytes 4 40 ++ beBytes 4 7 ++ List.replicate 24 0 ++ [3, 0, 0, 1]), wPort 3, by decide +kernel⟩,
   ⟨12, wLink (wPort 3) 1 0 (beBytes 4 40 ++ beBytes 4 7 ++ List.replicate 24 0 ++ [3, 0, 0, 1]),
    (wPort 3).setPort 12 { init := [(0, 100), (1, 200)], returned := [(0, 39), (1, 8)] }, by decide +kernel⟩,
   ⟨12, [1], wPort 7, by decide +kernel⟩,
   ⟨12, (wPort 3).setPort 12 { owes := true, freed := [(1, 77)], creditSeq := 0xFFFF }, by decide +kernel⟩,
   ⟨12, wPort 3, by decide +kernel⟩,
   ⟨12, wPort 3, by decide +kernel⟩,
   ⟨12, (wPort 3).setPort 12 { shut := true }, by decide +kernel⟩,
   ⟨12, wPfc, by decide +kernel⟩,
   ⟨12, wHold 3, by decide +kernel⟩,
   ⟨12, wLink (wPort 3) 2 0 ([1, 1, 0, 2, 0, 0, 0, 1]), (wPort 3).setPort 12 { badFcs := true }, by decide +kernel⟩,
   ⟨12, 0x0B, [0, 5, 6, 7], wPfc.setPort 12 { paused := 1, stormed := 8 }, by decide +kernel⟩,
   ⟨12, 1, [3], wPort 7, by decide +kernel⟩,
   ⟨12, 3, wPfc.setPort 12 { paused := 0xFF }, by decide +kernel⟩,
   ⟨12, 3, ((wPfc.setPort 12 { xoff := 8 }).setFld (R.PRT_PFC_THRESH 1 4 3) F.PRT_PFC_THRESH_XON 0), by decide +kernel⟩,
   ⟨12, 3, wPfc, by decide +kernel⟩,
   ⟨12, 3, (wPfc.setPort 12 { paused := 0x18 }).setFld R.PRT_GLOBAL_CTRL F.PRT_GLOBAL_CTRL_PFC_WDOG 100, by decide +kernel⟩,
   ⟨12, 3, wPfc, by decide +kernel⟩,
   ⟨12, 3, wPfc.setPort 12 { stormed := 0xFF }, by decide +kernel⟩⟩

theorem witness_LaneReportsAndLight :
    (∃ (p : Fin 2048) (found : List Byte) (s : State), s.receives p = true ∧ s.wlx3 p = true ∧ s.portState p ≠ psQuarantine ∧
      s.canSend p 64 = true) ∧
    (∃ (p : Fin 2048) (found : List Byte) (s : State),
      (s.receives p = false ∨ s.wlx3 p = false ∨ s.portState p = psQuarantine ∨ s.canSend p 64 = false)) ∧
    (∃ (p : Fin 2048) (frame : Bytes) (s : State), s.regsWf = true ∧ s.receives p = true ∧ s.wlx3 p = true ∧
      (s.port p).badFcs = false ∧ s.linkKind frame = some 3 ∧ isLldp frame = false ∧ fcsRight frame = true ∧
      s.portState p ≠ psQuarantine ∧ ((∀ j, j < s.portLanes p → byteAt frame (20 + p % 8 + j) = 128 + j))) ∧
    (∃ (p : Fin 2048) (frame : Bytes) (s : State), s.receives p = true ∧ s.wlx3 p = false ∧ (s.port p).badFcs = false ∧
      s.linkKind frame = some 3 ∧ isLldp frame = false ∧ fcsRight frame = true ∧ s.portState p ≠ psQuarantine) :=
  ⟨⟨12, [1, 2, 3, 4, 0xFC, 0x81, 0x82, 0x83], wWlx3, by decide +kernel⟩,
   ⟨12, [1], wPort 3, by decide +kernel⟩,
   ⟨12, wLink wWlx3 3 0 ([0, 12, 4, 0, 0, 0, 0, 0, 128, 129, 130, 131]), wWlx3, by decide +kernel⟩,
   ⟨12, wLink (wPort 3) 3 0 ([0, 12, 4, 0, 0, 0, 0, 0, 128, 129, 130, 131]), wPort 3, by decide +kernel⟩⟩

theorem witness_FrameReception :
    (∃ (p : Fin 2048) (frame : Bytes) (capture : TimeStamp) (errs : List TableErr) (s : State), s.receives p = false) ∧
    (∃ (p : Fin 2048) (frame : Bytes) (capture : TimeStamp) (s : State), s.receives p = true ∧ fcsRight frame = false ∧
      fcsInverted frame = false ∧ (s.port p).badFcs = false ∧ s.flag R.SWC_CTRL F.SWC_CTRL_CT_ENABLE = false) ∧
    (∃ (p : Fin 2048) (frame : Bytes) (capture : TimeStamp) (s : State), s.receives p = true ∧ fcsRight frame = false ∧
      fcsInverted frame = true ∧ (s.port p).badFcs = false ∧ s.flag R.SWC_CTRL F.SWC_CTRL_CT_ENABLE = false) ∧
    (∃ (p : Fin 2048) (frame : Bytes) (capture : TimeStamp) (errs : List TableErr) (s : State), s.receives p = true ∧
      fcsRight frame = true ∧ isLldp frame = true ∧ s.linkKind frame ≠ some 2) ∧
    (∃ (p : Fin 2048) (frame : Bytes) (b : Bytes) (x : Parsed) (capture : TimeStamp) (errs : List TableErr) (s : State),
      b = frame.take (frame.length - 4) ∧ x = s.parse b ∧ s.receives p = true ∧ fcsRight frame = true ∧ isLldp frame = false ∧
      s.linkKind frame ≠ some 2 ∧ x.ptp b = none ∧ s.linkOwn x = false) ∧
    (∃ (p : Fin 2048) (frame : Bytes) (b : Bytes) (x : Parsed) (i : Nat) (capture : TimeStamp) (errs : List TableErr) (s : State),
      b = frame.take (frame.length - 4) ∧ x = s.parse b ∧ s.receives p = true ∧ fcsRight frame = true ∧ isLldp frame = false ∧
      s.linkKind frame ≠ some 2 ∧ x.ptp b = some i ∧ s.portAgreed p = true) ∧
    (∃ (p : Fin 2048) (b : Bytes) (x : Parsed) (capture : TimeStamp) (errs : List TableErr) (s : State),
      (s.takeCredit p (s.frameClass b x (s.hfhFault p b x).isNone) (cellsOf (b.length + 4))).1 = true) ∧
    (∃ (p : Fin 2048) (b : Bytes) (x : Parsed) (capture : TimeStamp) (errs : List TableErr) (s : State),
      (s.takeCredit p (s.frameClass b x (s.hfhFault p b x).isNone) (cellsOf (b.length + 4))).1 = false ∧
      s.portState p = psQuarantine) ∧
    (∃ (p : Fin 2048) (b : Bytes) (x : Parsed) (capture : TimeStamp) (errs : List TableErr) (s : State),
      (s.takeCredit p (s.frameClass b x (s.hfhFault p b x).isNone) (cellsOf (b.length + 4))).1 = false ∧
      s.portState p ≠ psQuarantine ∧ s.fwdAdmits = false) ∧
    (∃ (p : Fin 2048) (b : Bytes) (x : Parsed) (capture : TimeStamp) (errs : List TableErr) (s : State),
      (s.takeCredit p (s.frameClass b x (s.hfhFault p b x).isNone) (cellsOf (b.length + 4))).1 = false ∧
      s.portState p ≠ psQuarantine ∧ s.fwdAdmits = true ∧ s.portMax p < b.length + 4) ∧
    (∃ (p : Fin 2048) (b : Bytes) (x : Parsed) (c : Nat) (capture : TimeStamp) (errs : List TableErr) (s : State),
      (s.takeCredit p (s.frameClass b x false) (cellsOf (b.length + 4))).1 = false ∧ s.hfhFault p b x = some c ∧
      s.portState p ≠ psQuarantine ∧ s.fwdAdmits = true ∧ b.length + 4 ≤ s.portMax p) ∧
    (∃ (p : Fin 2048) (b : Bytes) (x : Parsed) (capture : TimeStamp) (errs : List TableErr) (s : State),
      (s.takeCredit p (s.frameClass b x true) (cellsOf (b.length + 4))).1 = false ∧ s.hfhFault p b x = none ∧
      s.portState p ≠ psQuarantine ∧ s.fwdAdmits = true ∧ b.length + 4 ≤ s.portMax p ∧ s.isCollective b x = false ∧
      s.isFar b x = false) ∧
    (∃ (p : Fin 2048) (cls : Nat) (b : Bytes) (x : Parsed) (hfhOk : Bool) (capture : TimeStamp) (errs : List TableErr) (s : State),
      admitCells (cellsOf (b.length + 4)) (s.room p cls) = none) :=
  ⟨⟨12, wOnWire, 0, [], wPort 7, by decide +kernel⟩,
   ⟨12, wBytes ++ [1, 2, 3, 4], 0, wSwitch.setFld R.SWC_CTRL F.SWC_CTRL_CT_ENABLE 0, by decide +kernel⟩,
   ⟨12, wBytes ++ invertBytes (fcsOf wBytes), 0, wSwitch.setFld R.SWC_CTRL F.SWC_CTRL_CT_ENABLE 0, by decide +kernel⟩,
   ⟨12, wLldp ++ fcsOf wLldp, 0, [], wPort 2, by decide +kernel⟩,
   ⟨12, wOnWire, wBytes, wSwitch.parse wBytes, 0, [], wSwitch, by decide +kernel⟩,
   ⟨12,
    (ethHeader 0x011B19000000 2 0x88F7 ++ List.replicate 46 3) ++ fcsOf (ethHeader 0x011B19000000 2 0x88F7 ++ List.replicate 46 3),
    ethHeader 0x011B19000000 2 0x88F7 ++ List.replicate 46 3,
    wSwitch.parse (ethHeader 0x011B19000000 2 0x88F7 ++ List.replicate 46 3), 14, 0, [], wSwitch, by decide +kernel⟩,
   ⟨12, wBytes, {}, 0, [], wPort 3, by decide +kernel⟩,
   ⟨12, wBytes, {}, 0, [], wSwitch.portTo 12 4, by decide +kernel⟩,
   ⟨12, wBytes, {}, 0, [], wPfc, by decide +kernel⟩,
   ⟨12, wBytes, {}, 0, [], wSwitch.setFld (prtState 12) F.PRT_PORT_STATE_MAX_FRAME 63, by decide +kernel⟩,
   ⟨12, wBytes, { udp := some 14, hfh := some 14 }, 5, 0, [], wSwitch, by decide +kernel⟩,
   ⟨12, wBytes, {}, 0, [], wSwitch, by decide +kernel⟩,
   ⟨12, 0, wBytes, {}, false, 0, [],
    { wSwitch with swc.frames := (List.range 20).map fun i => { wStored i with cls := 0, res := 100000, shared := 100000 } },
    by decide +kernel⟩⟩

theorem witness_QueuesAndMesh :
    (∃ (p : Nat) (c : Nat) (id : Nat) (lossless : Bool) (f : Stored) (s : State), s.frame? id = some f ∧ f.control = false ∧
      f.quad = portQuad p ∧ s.xferQueue p c = [] ∧ s.belowLimit p c = true ∧ c < 8) ∧
    (∃ (p : Nat) (c : Nat) (id : Nat) (f : Stored) (s : State), s.frame? id = some f ∧ f.control = false ∧
      (s.xferQueue p c ≠ [] ∨ s.belowLimit p c = false) ∧ c < 8 ∧ s.holding p = false ∧
      s.bufFld p c F.SWC_BUF_PROFILE_LOSSLESS = 1) ∧
    (∃ (p : Nat) (c : Nat) (id : Nat) (lossless : Bool) (f : Stored) (s : State), s.frame? id = some f ∧ f.control = false ∧
      (s.xferQueue p c ≠ [] ∨ s.belowLimit p c = false) ∧
      (lossless = false ∨ s.holding p = true ∨ s.bufFld p c F.SWC_BUF_PROFILE_LOSSLESS = 0)) ∧
    (∃ (id : Nat) (f : Stored) (s : State), s.frame? id = some f ∧ 2 ≤ f.refs) ∧
    (∃ (id : Nat) (f : Stored) (s : State), s.frame? id = some f ∧ f.refs ≤ 1) ∧
    (∃ (p : Fin 2048) (c : Fin 8) (s : State), s.xferQueue p c = []) ∧
    (∃ (p : Fin 2048) (c : Fin 8) (e : QEntry) (l : List QEntry) (f : Stored) (s : State), s.xferQueue p c = e :: l ∧
      s.frame? e.frame = some f ∧ s.aged f = false ∧ s.belowLimit p c = true) ∧
    (∃ (p : Fin 2048) (c : Fin 8) (e : QEntry) (l : List QEntry) (f : Stored) (s : State), s.xferQueue p c = e :: l ∧
      s.frame? e.frame = some f ∧ s.aged f = true) ∧
    (∃ (p : Fin 2048) (c : Fin 8) (e : QEntry) (l : List QEntry) (f : Stored) (s : State), s.xferQueue p c = e :: l ∧
      s.frame? e.frame = some f ∧ s.aged f = false ∧ s.belowLimit p c = false) ∧
    (∃ (stream : MeshStream) (seq : BitVec 16) (s : State), (sget {} s.swc.reseqs (meshKey stream)).owner seq = none) ∧
    (∃ (stream : MeshStream) (seq : BitVec 16) (r : Reseq) (x : Crossing) (s : State),
      r = sget {} s.swc.reseqs (meshKey stream) ∧ (swf (fun _ => {}) s.swc.reseqs = true) ∧ r.crossings = [x] ∧ r.next = seq ∧
      r.held = [] ∧ x.missing = [seq] ∧ x.first = seq ∧ x.cells = 1 ∧ x.aside = false ∧ x.lost = false ∧ x.kind = .unicast ∧
      x.targets = [stream.port.val] ∧ x.frame ≠ x.source ∧
      s.crossingsOf stream.slice stream.cls = [(meshKey stream, x, false)] ∧
      (s.frame? x.frame).map Stored.control = some false ∧ ((∀ q, s.mirrorsOf 1 q = []))) ∧
    (∃ (stream : MeshStream) (seq : BitVec 16) (r : Reseq) (x : Crossing) (s : State),
      r = sget {} s.swc.reseqs (meshKey stream) ∧ r.owner seq = some x ∧ r.past seq = false ∧ seq ≠ r.next ∧
      r.held.length < 4096 ∧ ((∀ y ∈ s.crossingsOf stream.slice stream.cls, y.2.2 = false)) ∧
      ((∀ y ∈ r.crossings, y.missing.filter (fun m => m != seq) ≠ [])) ∧ ((∀ q, s.mirrorsOf 1 q = []))) ∧
    (∃ (stream : MeshStream) (s : State), (sget {} s.swc.reseqs (meshKey stream)).held = []) ∧
    (∃ (stream : MeshStream) (h : BitVec 16) (r : Reseq) (s : State), r = sget {} s.swc.reseqs (meshKey stream) ∧ r.held = [h] ∧
      h ≠ r.next ∧ ((∀ y ∈ s.crossingsOf stream.slice stream.cls, y.2.2 = false)) ∧ ((∀ y ∈ r.crossings, y.missing ≠ []))) ∧
    (∃ (stream : MeshStream) (seq : BitVec 16) (x : Crossing) (s : State),
      (sget {} s.swc.reseqs (meshKey stream)).owner seq = some x ∧ x.lost = false) ∧
    (∃ (p : Fin 2048) (capture : TimeStamp) (errs : List TableErr) (s : State), ((∀ y ∈ s.swc.sending, y.1 ≠ p.val)) ∧
      s.excluded p = false ∧ ((∀ c, c < 9 → s.eligible p c = false))) ∧
    (∃ (p : Fin 2048) (c : Nat) (e : QEntry) (l : List QEntry) (f : Stored) (capture : TimeStamp) (s : State), c < 8 ∧
      ((∀ y ∈ s.swc.sending, y.1 ≠ p.val)) ∧ s.excluded p = false ∧ s.eligible p ctlQueue = false ∧ s.eligible p c = true ∧
      s.cfld (s.sched p c) F.SWC_SCHED_PROFILE_STRICT = 1 ∧
      ((∀ k, k < 8 → c < k → s.eligible p k = false ∨ s.cfld (s.sched p k) F.SWC_SCHED_PROFILE_STRICT ≠ 1)) ∧
      s.queue p c = e :: l ∧ s.frame? e.frame = some f ∧ s.aged f = false ∧ f.egress = .asIs ∧ f.bad = 0 ∧ s.isPtp f = false ∧
      (swf (fun _ => []) s.swc.queues = true)) ∧
    (∃ (p : Fin 2048) (reason : BitVec 8) (sent : Nat) (s : State),
      ((∀ y ∈ s.swc.sending, y.1 ≠ p.val) ∨ reason = 0 ∨ 4 < reason.toNat)) ∧
    (∃ (p : Fin 2048) (reason : BitVec 8) (sent : Nat) (x : Sending) (s : State), s.swc.sending = [(p.val, x)] ∧
      1 ≤ reason.toNat ∧ reason.toNat ≤ 4 ∧ (swf (fun _ => {}) s.ports = true)) ∧
    (∃ (q : Fin 4) (errs : List TableErr) (s : State), sget [] s.swc.internal q = []) ∧
    (∃ (q : Fin 4) (errs : List TableErr) (i : Inner) (l : List Inner) (s : State), sget [] s.swc.internal q = i :: l ∧
      (swf (fun _ => []) s.swc.internal = true) ∧ s.fwdAdmits = false) ∧
    (∃ (q : Fin 4) (errs : List TableErr) (i : Inner) (l : List Inner) (s : State), sget [] s.swc.internal q = i :: l ∧
      s.fwdAdmits = true ∧ s.bayWait [sliceBay q, bufferBay q] = false ∧
      (s.bayLost (sliceBay q) = true ∨ s.bayLost (bufferBay q) = true ∨ s.sharedFree q < cellsOf (i.bytes.length + 4))) ∧
    (∃ (q : Fin 4) (p : Nat) (i : Inner) (l : List Inner) (s : State), sget [] s.swc.internal q = i :: l ∧
      (swf (fun _ => []) s.swc.internal = true) ∧ s.fwdAdmits = true ∧ s.bayWait [sliceBay q, bufferBay q] = false ∧
      s.bayLost (sliceBay q) = false ∧ s.bayLost (bufferBay q) = false ∧ cellsOf (i.bytes.length + 4) ≤ s.sharedFree q ∧
      i.route = .port p ∧ portQuad p = q.val ∧ s.xferQueue p i.cls = [] ∧ i.cls < 8 ∧ s.frame? s.swc.nextFrame = none ∧
      alphaOk (s.alpha p i.cls) (s.depth p i.cls) (s.sharedFree q - cellsOf (i.bytes.length + 4)) = true ∧
      ((∀ e ∈ s.queue p i.cls, e.frame ≠ s.swc.nextFrame))) :=
  ⟨⟨20, 7, 4, true, wStored 4, wQueued 20 7, by decide +kernel⟩,
   ⟨20, 7, 4, wStored 4,
    { wQueued 12 7 with swc.transfers := [(qKey 20 7, [⟨3, 0⟩])], cfg.committed := [(R.SWC_BUF_PROFILE 0 7, F.SWC_BUF_PROFILE_LOSSLESS.put 1)] },
    by decide +kernel⟩,
   ⟨20, 7, 4, true, wStored 4, { wQueued 12 7 with swc.transfers := [(qKey 20 7, [⟨3, 0⟩])] }, by decide +kernel⟩,
   ⟨4, { wStored 4 with refs := 3 }, { wSwitch with swc.frames := [{ wStored 4 with refs := 3 }] }, by decide +kernel⟩,
   ⟨4, wStored 4, wQueued 20 7, by decide +kernel⟩,
   ⟨12, 7, wSwitch, by decide +kernel⟩,
   ⟨20, 7, ⟨4, 0⟩, [⟨9, 0⟩], wStored 4, { wQueued 12 7 with swc.transfers := [(qKey 20 7, [⟨4, 0⟩, ⟨9, 0⟩])] }, by decide +kernel⟩,
   ⟨20, 7, ⟨4, 0⟩, [], wStored 4,
    { wQueued 12 7 with swc.transfers := [(qKey 20 7, [⟨4, 0⟩])], tim.base := unitsTs (3000000 * 65536) }, by decide +kernel⟩,
   ⟨20, 7, ⟨4, 0⟩, [], wStored 4,
    { wQueued 12 7 with swc.transfers := [(qKey 20 7, [⟨4, 0⟩])], swc.frames := [wStored 4, { wStored 5 with shared := 400000 }], cfg.committed := [(R.SWC_BUF_PROFILE 0 7, 0)] },
    by decide +kernel⟩,
   ⟨wStream, 7, wCross 5, by decide +kernel⟩,
   ⟨wStream, 5, sget {} (wCross 5).swc.reseqs (meshKey wStream), ⟨5, 4, 5, 1, [5], false, false, [600], .unicast⟩, wCross 5,
    by decide +kernel, by decide +kernel, by decide +kernel, by decide +kernel, by decide +kernel, by decide +kernel,
    by decide +kernel, by decide +kernel, by decide +kernel, by decide +kernel, by decide +kernel, by decide +kernel,
    by decide +kernel, by decide +kernel, by decide +kernel, no_mirrors (by decide +kernel) 1⟩,
   ⟨wStream, 6, ⟨7, 5, [], [⟨5, 4, 5, 2, [5, 6], false, false, [600], .unicast⟩]⟩,
    ⟨5, 4, 5, 2, [5, 6], false, false, [600], .unicast⟩,
    { wCross 5 with swc.reseqs := [(streamKey 0 600 7, ⟨7, 5, [], [⟨5, 4, 5, 2, [5, 6], false, false, [600], .unicast⟩]⟩)] },
    by decide +kernel, by decide +kernel, by decide +kernel, by decide +kernel, by decide +kernel, by decide +kernel,
    by decide +kernel, no_mirrors (by decide +kernel) 1⟩,
   ⟨wStream, wCross 5, by decide +kernel⟩,
   ⟨wStream, 6, ⟨7, 5, [6], [⟨5, 4, 5, 2, [5], false, false, [600], .unicast⟩]⟩,
    { wCross 5 with swc.reseqs := [(streamKey 0 600 7, ⟨7, 5, [6], [⟨5, 4, 5, 2, [5], false, false, [600], .unicast⟩]⟩)] },
    by decide +kernel⟩,
   ⟨wStream, 5, ⟨5, 4, 5, 1, [5], false, false, [600], .unicast⟩, wCross 5, by decide +kernel⟩,
   ⟨12, 0, [], wSwitch, by decide +kernel⟩,
   ⟨20, 7, ⟨4, 0⟩, [], wStored 4, 0, { wQueued 20 7 with ports := [] }, by decide +kernel⟩,
   ⟨12, 1, 3, wSwitch, by decide +kernel⟩,
   ⟨20, 3, 20, ⟨wStored 4, wBytes, 0⟩, { wSwitch with swc.sending := [(20, ⟨wStored 4, wBytes, 0⟩)] }, by decide +kernel⟩,
   ⟨2, [], wSwitch, by decide +kernel⟩,
   ⟨2, [], ⟨3, wBytes, .port 20⟩, [], { wPfc with swc.internal := [(2, [⟨3, wBytes, .port 20⟩])] }, by decide +kernel⟩,
   ⟨2, [], ⟨3, wBytes, .port 20⟩, [],
    { wSwitch.setFld (R.PWR_BAY_STATUS 20) F.PWR_BAY_STATUS_STATE 6 with swc.internal := [(2, [⟨3, wBytes, .port 20⟩])] },
    by decide +kernel⟩,
   ⟨0, 20, ⟨3, wBytes, .port 20⟩, [], { wSwitch with swc.internal := [(0, [⟨3, wBytes, .port 20⟩])] }, by decide +kernel⟩⟩

theorem witness_AuditAndSamples :
    (∃ (strays : List Nat) (s : State), s.regsWf = true ∧ ((∀ f ∈ s.swc.frames, s.aged f = false ∧ s.named f.id = true)) ∧
      strays.filter s.swc.strays.contains = [] ∧ s.swc.lost = []) ∧
    (∃ (f : Stored) (s : State), s.regsWf = true ∧ s.swc.frames = [f] ∧ s.aged f = false ∧ s.named f.id = false ∧
      s.swc.orphans.contains f.id = true ∧ s.swc.strays = [] ∧ s.swc.lost = [] ∧ f.held < 2 ^ 32 ∧ s.pfcRuns f.ingress = false) ∧
    (∃ (c : Nat) (s : State), s.regsWf = true ∧ s.swc.frames = [] ∧ s.swc.strays = [c] ∧ s.swc.lost = []) ∧
    (∃ (mgaDown : Bool) (s : State), (s.cfld R.SWC_SFLOW_CTRL F.SWC_SFLOW_CTRL_ENABLE = 0 ∨ s.swc.samples = [])) ∧
    (∃ (mgaDown : Bool) (s : State), s.cfld R.SWC_SFLOW_CTRL F.SWC_SFLOW_CTRL_ENABLE = 1 ∧ s.swc.samples ≠ []) ∧
    (∃ (mgaDown : Bool) (x : Sample) (s : State), s.cfld R.SWC_SFLOW_CTRL F.SWC_SFLOW_CTRL_ENABLE = 1 ∧ s.swc.samples = [x]) :=
  ⟨⟨[7], { wQueued 20 7 with swc.strays := [9], swc.orphans := [4] }, by decide +kernel⟩,
   ⟨wStored 4,
    { wQueued 20 7 with swc := { frames := [wStored 4], nextFrame := 5, orphans := [4] }, ports := [], regs := (wPort 3).regs },
    by decide +kernel⟩,
   ⟨400000, { wSwitch with swc.strays := [400000] }, by decide +kernel⟩,
   ⟨false, wSwitch, by decide +kernel⟩,
   ⟨true,
    { wSwitch with cfg.committed := [(R.SWC_SFLOW_CTRL, F.SWC_SFLOW_CTRL_ENABLE.put 1 ||| F.SWC_SFLOW_CTRL_HDR_UNITS.put 2)], swc.samples := [⟨wBytes, 64, 12, 21, 12, 100⟩, ⟨wBytes, 64, 12, 21, 12, 100⟩] },
    by decide +kernel⟩,
   ⟨false, ⟨wBytes, 64, 12, 21, 12, 100⟩,
    { wSwitch with cfg.committed := [(R.SWC_SFLOW_CTRL, F.SWC_SFLOW_CTRL_ENABLE.put 1 ||| F.SWC_SFLOW_CTRL_HDR_UNITS.put 2)], swc.samples := [⟨wBytes, 64, 12, 21, 12, 100⟩] },
    by decide +kernel⟩⟩

theorem witness_EpochsAndTables :
    (∃ (s : State), s.regsWf = true ∧ s.flag R.GLB_CTRL F.GLB_CTRL_FWD_ENABLE = false ∧ s.checking .fwdEnable = false) ∧
    (∃ (s : State), s.regsWf = true ∧ (s.flag R.GLB_CTRL F.GLB_CTRL_FWD_ENABLE = true ∨ s.checking .fwdEnable = true)) ∧
    (∃ (s : State), s.regsWf = true ∧ s.flag R.GLB_CTRL F.GLB_CTRL_FWD_ENABLE = true) ∧
    (∃ (s : State), s.regsWf = true ∧ s.flag R.GLB_CTRL F.GLB_CTRL_FWD_ENABLE = false) ∧
    (∃ (s : State), s.regsWf = true ∧ s.flag R.GLB_CTRL F.GLB_CTRL_FWD_ENABLE = false) ∧
    (∃ (s : State), s.flag R.GLB_CTRL F.GLB_CTRL_FWD_ENABLE = true) ∧
    (∃ (s : State), s.regsWf = true ∧ s.epochState = 1 ∧ s.fwd.flipAt ≤ s.now) ∧
    (∃ (s : State), (s.epochState ≠ 1 ∨ s.now < s.fwd.flipAt)) ∧
    (∃ (s : State), s.regsWf = true ∧ s.epochState = 2 ∧ s.fwd.flipAt + s.fwd.retireAge * 1000 + 10000 ≤ s.now) ∧
    (∃ (s : State), (s.epochState ≠ 2 ∨ s.now < s.fwd.flipAt + s.fwd.retireAge * 1000 + 10000)) ∧
    (∃ (slice : Fin 8) (bank : Fin 2) (node : Nat) (s : State), s.regsWf = true) ∧
    (∃ (read : HostRead) (errs : List LineErr) (found : List TableErr) (s : State),
      (s.flag R.FWD_SHADOW_CTRL F.FWD_SHADOW_CTRL_ENABLE = false ∨ s.walkNext 1100 s.fwd.walk = none)) ∧
    (∃ (read : HostRead) (errs : List LineErr) (w : RowRef) (b : Bytes) (s : State),
      s.flag R.FWD_SHADOW_CTRL F.FWD_SHADOW_CTRL_ENABLE = true ∧ s.walkNext 1100 s.fwd.walk = some w ∧
      F.FWD_SHADOW_BASE_HOST.get (s.rd (R.FWD_SHADOW_BASE w.table w.bank)) = 1 ∧ hostBytes read (tblRowBytes w.table) = some b ∧
      s.fwd.invalid.contains (rowKey w.table w.bank w.row) = false) ∧
    (∃ (read : HostRead) (errs : List LineErr) (w : RowRef) (s : State),
      s.flag R.FWD_SHADOW_CTRL F.FWD_SHADOW_CTRL_ENABLE = true ∧ s.walkNext 1100 s.fwd.walk = some w ∧
      F.FWD_SHADOW_BASE_HOST.get (s.rd (R.FWD_SHADOW_BASE w.table w.bank)) = 1 ∧ hostBytes read (tblRowBytes w.table) = none) ∧
    (∃ (read : HostRead) (errs : List LineErr) (found : List TableErr) (s : State), s.fwd.rechecks = []) ∧
    (∃ (read : HostRead) (errs : List LineErr) (w : RowRef) (l : List RowRef) (b : Bytes) (s : State), s.fwd.rechecks = w :: l ∧
      s.flag R.FWD_SHADOW_CTRL F.FWD_SHADOW_CTRL_ENABLE = true ∧ s.walked w.table w.bank = true ∧
      s.segLocked w.table w.bank (w.row / 4096) = false ∧
      F.FWD_SHADOW_BASE_HOST.get (s.rd (R.FWD_SHADOW_BASE w.table w.bank)) = 1 ∧ hostBytes read (tblRowBytes w.table) = some b ∧
      b ≠ s.rowAt w.table w.bank w.row) ∧
    (∃ (read : HostRead) (errs : List LineErr) (found : List TableErr) (w : RowRef) (l : List RowRef) (s : State),
      s.fwd.rechecks = w :: l ∧
      (s.flag R.FWD_SHADOW_CTRL F.FWD_SHADOW_CTRL_ENABLE = false ∨ s.walked w.table w.bank = false ∨ s.segLocked w.table w.bank (w.row / 4096) = true)) ∧
    (∃ (w : RowRef) (b : Bytes) (s : State), (swf (fun _ => 0) s.fwd.rows = true) ∧ w.table ≠ 1 ∧ w.table ≠ 2 ∧
      s.flag R.FWD_SHADOW_CTRL F.FWD_SHADOW_CTRL_RESTORE = true ∧ s.segLocked w.table w.bank (w.row / 4096) = false ∧
      b.length = tblRowBytes w.table ∧ w.row < 2 ^ 20) ∧
    (∃ (w : RowRef) (b : Bytes) (s : State),
      (s.flag R.FWD_SHADOW_CTRL F.FWD_SHADOW_CTRL_RESTORE = false ∨ s.segLocked w.table w.bank (w.row / 4096) = true) ∧
      s.regsWf = true) ∧
    (∃ (mac : BitVec 48) (vlan : BitVec 12) (s : State), s.fld R.FWD_GLOBAL_CTRL F.FWD_GLOBAL_CTRL_MAC_AGE = 0) ∧
    (∃ (mac : BitVec 48) (vlan : BitVec 12) (s : State), s.fld R.FWD_GLOBAL_CTRL F.FWD_GLOBAL_CTRL_MAC_AGE ≠ 0) :=
  ⟨⟨wRun, by decide +kernel⟩,
   ⟨wSwitch, by decide +kernel⟩,
   ⟨wSwitch, by decide +kernel⟩,
   ⟨wRun, by decide +kernel⟩,
   ⟨wSwitch.setFld R.GLB_CTRL F.GLB_CTRL_FWD_ENABLE 0, by decide +kernel⟩,
   ⟨wSwitch, by decide +kernel⟩,
   ⟨wSwitch.setFld R.FWD_EPOCH_STATUS F.FWD_EPOCH_STATUS_STATE 1, by decide +kernel⟩,
   ⟨wSwitch, by decide +kernel⟩,
   ⟨{ wSwitch.setFld R.FWD_EPOCH_STATUS F.FWD_EPOCH_STATUS_STATE 2 with tim.base := unitsTs (10000 * 65536) }, by decide +kernel⟩,
   ⟨wSwitch.setFld R.FWD_EPOCH_STATUS F.FWD_EPOCH_STATUS_STATE 2, by decide +kernel⟩,
   ⟨3, 1, 77, { wSwitch with fwd.broken := [(3, 1, 77), (4, 1, 77)] }, by decide +kernel⟩,
   ⟨.failed, [], [], wSwitch, by decide +kernel⟩,
   ⟨.ok (List.replicate 16 0), [], ⟨1, 0, 5⟩, List.replicate 16 0,
    { (wSwitch.setFld R.FWD_SHADOW_CTRL F.FWD_SHADOW_CTRL_ENABLE 1).wr (R.FWD_SHADOW_BASE 1 0) (F.FWD_SHADOW_BASE_HOST.put 1 ||| F.FWD_SHADOW_BASE_ADDR.put 4096) with fwd.walk := ⟨1, 0, 5⟩ },
    by decide +kernel⟩,
   ⟨.failed, [], ⟨1, 0, 5⟩,
    { (wSwitch.setFld R.FWD_SHADOW_CTRL F.FWD_SHADOW_CTRL_ENABLE 1).wr (R.FWD_SHADOW_BASE 1 0) (F.FWD_SHADOW_BASE_HOST.put 1 ||| F.FWD_SHADOW_BASE_ADDR.put 4096) with fwd.walk := ⟨1, 0, 5⟩ },
    by decide +kernel⟩,
   ⟨.failed, [], [], wSwitch, by decide +kernel⟩,
   ⟨.ok (List.replicate 16 3), [], ⟨1, 0, 5⟩, [], List.replicate 16 3,
    { (wSwitch.setFld R.FWD_SHADOW_CTRL F.FWD_SHADOW_CTRL_ENABLE 1).wr (R.FWD_SHADOW_BASE 1 0) (F.FWD_SHADOW_BASE_HOST.put 1 ||| F.FWD_SHADOW_BASE_ADDR.put 4096) with fwd.rechecks := [⟨1, 0, 5⟩] },
    by decide +kernel⟩,
   ⟨.failed, [], [], ⟨1, 0, 5⟩, [], { wSwitch with fwd.rechecks := [⟨1, 0, 5⟩] }, by decide +kernel⟩,
   ⟨⟨4, 0, 5⟩, List.replicate 16 7,
    { wSwitch.setFld R.FWD_SHADOW_CTRL F.FWD_SHADOW_CTRL_RESTORE 1 with fwd.invalid := [rowKey 4 0 5] }, by decide +kernel⟩,
   ⟨⟨4, 0, 5⟩, List.replicate 16 7, wSwitch, by decide +kernel⟩,
   ⟨5, 1, { wSwitch.setFld R.FWD_GLOBAL_CTRL F.FWD_GLOBAL_CTRL_MAC_AGE 0 with fwd.mac := [⟨5, 1, 12, 0⟩] }, by decide +kernel⟩,
   ⟨5, 1, { wSwitch with fwd.mac := [⟨5, 1, 12, 0⟩, ⟨6, 1, 12, 0⟩], tim.osc := 300000000000 }, by decide +kernel⟩⟩

theorem witness_CircuitRequests :
    (∃ (reqA : Word) (reqB : Word) (inId : Word) (outId : Word) (s : State), s.regsWf = true ∧
      s.flag R.SPL_REQ_A F.SPL_REQ_A_GO = false) ∧
    (∃ (reqA : Word) (s : State), s.regsWf = true ∧ s.flag R.SPL_REQ_A F.SPL_REQ_A_GO = false) ∧
    (∃ (reqA : Word) (reqB : Word) (inId : Word) (outId : Word) (s : State), s.regsWf = true ∧
      s.flag R.SPL_REQ_A F.SPL_REQ_A_GO = true) ∧
    (∃ (r : CircuitReq) (reason : Nat) (w : Nat) (n : Nat) (t : State) (s : State), s.splRequest r = .done reason w n t) ∧
    (∃ (r : CircuitReq) (reason : Nat) (w : Nat) (n : Nat) (t : State) (s : State), s.splGrant r = .done reason w n t ∧
      reason = 0 ∧ s.regsWf = true) ∧
    (∃ (reqA : Word) (c : Circuit) (s : State), s.regsWf = true ∧ s.flag R.SPL_REQ_A F.SPL_REQ_A_GO = false ∧
      s.cfg.checks = [] ∧ s.spl.requests = [] ∧ s.spl.pendMade = true ∧ s.fld R.SPL_STATUS F.SPL_STATUS_FLIP_STATE ≠ 1 ∧
      (s.pendingBank.find? (fun d => d.n == F.SPL_REQ_A_CIRCUIT.get reqA && d.state == 1) = some c) ∧
      (F.SPL_REQ_A_DOMAIN.get reqA = 0 ∨ F.SPL_REQ_A_DOMAIN.get reqA = c.domain)) ∧
    (∃ (reqA : Word) (s : State), s.regsWf = true ∧ s.flag R.SPL_REQ_A F.SPL_REQ_A_GO = false ∧ s.cfg.checks = [] ∧
      s.spl.requests = [] ∧ s.spl.pendMade = true ∧
      (s.pendingBank.find? (fun d => d.n == F.SPL_REQ_A_CIRCUIT.get reqA && d.state == 1) = none)) ∧
    (∃ (reqA : Word) (s : State), s.regsWf = true ∧ s.flag R.SPL_REQ_A F.SPL_REQ_A_GO = false ∧ s.cfg.checks = [] ∧
      s.spl.requests = [] ∧ s.spl.pendMade = true ∧ s.fld R.SPL_STATUS F.SPL_STATUS_FLIP_STATE ≠ 1) ∧
    (∃ (s : State), s.regsWf = true ∧ s.flag R.SPL_FLIP F.SPL_FLIP_GO = false) ∧
    (∃ (s : State), s.regsWf = true ∧ s.flag R.SPL_FLIP F.SPL_FLIP_GO = true) ∧
    (∃ (s : State), s.regsWf = true ∧ s.flag R.SPL_FLIP F.SPL_FLIP_GO = false ∧ s.cfg.checks = [] ∧ s.pln.prepared = none ∧
      instantNs s (s.rd R.SPL_FLIP_TIME) < s.now + 100000) ∧
    (∃ (s : State), s.regsWf = true ∧ s.flag R.SPL_CTRL F.SPL_CTRL_ENABLE = false) ∧
    (∃ (s : State), s.regsWf = true ∧ s.flag R.SPL_CTRL F.SPL_CTRL_ENABLE = true) ∧
    (∃ (s : State), s.regsWf = true ∧ s.flag R.SPL_CTRL F.SPL_CTRL_ENABLE = false) :=
  ⟨⟨0x0000F12345678ABC, 6, 0, 77, wSwitch, by decide +kernel⟩,
   ⟨0x0005000000030001, wPend, by decide +kernel⟩,
   ⟨5, 6, 7, 8, wSwitch.setFld R.SPL_REQ_A F.SPL_REQ_A_GO 1, by decide +kernel⟩,
   ⟨⟨F.SPL_REQ_A_OP.put 2 ||| F.SPL_REQ_A_CIRCUIT.put 9, 0, 0, 0, false⟩, 0x10, 0, 0, wPend, wPend, by decide +kernel⟩,
   ⟨wReq, 0, 3, 0, wAnswer (wGrant.splGrant wReq), wGrant, by decide +kernel⟩,
   ⟨0x0005000000030001, ⟨3, 1, 5, false, 1, 2, 9, 2⟩, wPend, by decide +kernel⟩,
   ⟨0x0005000000090001, wPend, by decide +kernel⟩,
   ⟨0x0005000000000002, wPend, by decide +kernel⟩,
   ⟨wPend, by decide +kernel⟩,
   ⟨wPend.setFld R.SPL_FLIP F.SPL_FLIP_GO 1, by decide +kernel⟩,
   ⟨wPend.wr R.SPL_FLIP_TIME 99999, by decide +kernel⟩,
   ⟨wRun, by decide +kernel⟩,
   ⟨wSchedAt 5000, by decide +kernel⟩,
   ⟨wRun, by decide +kernel⟩⟩

theorem witness_SlotsAndFlips :
    (∃ (s : State), (s.fld R.SPL_STATUS F.SPL_STATUS_FLIP_STATE ≠ 1 ∨ s.now < s.spl.flipAt)) ∧
    (∃ (s : State), s.regsWf = true ∧ s.fld R.SPL_STATUS F.SPL_STATUS_FLIP_STATE = 1 ∧ s.spl.flipAt ≤ s.now) ∧
    (∃ (s : State), (s.fld R.SPL_STATUS F.SPL_STATUS_FLIP_STATE ≠ 1 ∨ s.now < s.spl.flipAt) ∧ s.slotDue = false) ∧
    (∃ (s : State), (s.fld R.SPL_STATUS F.SPL_STATUS_FLIP_STATE ≠ 1 ∨ s.now < s.spl.flipAt) ∧ s.slotDue = true) ∧
    (∃ (s : State), s.spl.startAt ≤ s.now ∧ 0 < s.slots) ∧
    (∃ (p : Fin 2048) (s : State),
      (s.lentIn p s.spl.slot = true ∨ s.now < s.slotStart s.spl.cycle s.spl.slot + s.guardNs + s.marginNs)) ∧
    (∃ (p : Fin 2048) (s : State), s.lentIn p s.spl.slot = false ∧
      s.slotStart s.spl.cycle s.spl.slot + s.guardNs + s.marginNs ≤ s.now ∧ (s.port p).lldpDue = false ∧ s.pfcRuns p = false ∧
      (swf (fun _ => {}) s.ports = true)) ∧
    (∃ (p : Fin 2048) (x : Notice) (s : State), s.lentIn p s.spl.slot = false ∧
      s.slotStart s.spl.cycle s.spl.slot + s.guardNs + s.marginNs ≤ s.now ∧ (s.port p).lldpDue = false ∧ s.pfcRuns p = false ∧
      s.spl.notices = [x] ∧ x.ports.contains p.val = true ∧ s.now < x.at_ ∧ s.receives p = true ∧
      ({ s with ports := sset {} s.ports p { s.port p with shut := false, lentBefore := false } } : State).canSend p 64 = true) ∧
    (∃ (s : State), s.regsWf = true ∧ (s.fld R.SPL_STATUS F.SPL_STATUS_FLIP_STATE ≠ 1 ∨ s.now < s.spl.flipAt) ∧
      s.slotDue = false) ∧
    (∃ (s : State), s.spl.recovering = true ∧ s.splEnabled = true ∧ s.spl.slotUp = false) ∧
    (∃ (s : State), s.spl.recovering = true ∧ (s.splEnabled = false ∨ s.spl.slotUp = true)) ∧
    (∃ (s : State), s.spl.recovering = false) ∧
    (∃ (s : State), (s.fld R.SPL_STATUS F.SPL_STATUS_FLIP_STATE ≠ 1 ∨ s.now < s.spl.flipAt) ∧ s.slotDue = false ∧
      ((∀ f, s.spl.changeAt = some f → s.now < f))) ∧
    (∃ (f : Nat) (s : State), s.regsWf = true ∧ (s.fld R.SPL_STATUS F.SPL_STATUS_FLIP_STATE ≠ 1 ∨ s.now < s.spl.flipAt) ∧
      s.slotDue = false ∧ s.spl.changeAt = some f ∧ f ≤ s.now) ∧
    (∃ (plane : Fin 8) (stage : Fin 11) (index : Fin 32) (ok : Bool) (s : State),
      (ok = true ∨ s.spl.faulted.contains (plane.val, stage.val, index.val) = true)) ∧
    (∃ (plane : Fin 8) (stage : Fin 11) (index : Fin 32) (s : State),
      s.spl.faulted.contains (plane.val, stage.val, index.val) = false) ∧
    (∃ (n : Fin 4096) (power : BitVec 16) (s : State), s.fld (R.SPL_CIRC_ACT n) F.SPL_CIRC_ACT_STATE = 0) ∧
    (∃ (n : Fin 4096) (power : BitVec 16) (s : State), s.regsWf = true ∧ s.fld (R.SPL_CIRC_ACT n) F.SPL_CIRC_ACT_STATE ≠ 0) :=
  ⟨⟨wPend, by decide +kernel⟩,
   ⟨
    { wPend.setFld R.SPL_STATUS F.SPL_STATUS_FLIP_STATE 1 with spl.flipAt := 4096, tim.base := unitsTs (4096 * 65536), cfg.committed := [(R.SPL_SHAPE_PEND, F.SPL_SHAPE_PEND_SLOTS.put 2 ||| F.SPL_SHAPE_PEND_GUARD_NS.put 9), (R.SPL_SLOT_K_PEND 0, 0x33)] },
    by decide +kernel⟩,
   ⟨wPend, by decide +kernel⟩,
   ⟨{ wSchedAt 5130 with spl.withdraw := [(3, 4)] }, by decide +kernel⟩,
   ⟨wSchedAt 5130, by decide +kernel⟩,
   ⟨177, { wSchedAt 1030 with spl.slot := 1 }, by decide +kernel⟩,
   ⟨12,
    { wSchedAt 24 with ports := [(12, { shut := true, lentBefore := true })], regs := (wSchedAt 24).regs.filter fun x => x.1 != prtState 12 },
    by decide +kernel⟩,
   ⟨12, ⟨1, 3, 9000, 1, 2, [12, 20]⟩,
    { (wSchedAt 24).setFld (prtState 12) F.PRT_PORT_STATE_FC 2 with spl.notices := [⟨1, 3, 9000, 1, 2, [12, 20]⟩] },
    by decide +kernel⟩,
   ⟨wPend, by decide +kernel⟩,
   ⟨{ wSched with spl.recovering := true, spl.slotUp := false }, by decide +kernel⟩,
   ⟨{ wSched with spl.recovering := true }, by decide +kernel⟩,
   ⟨wSched, by decide +kernel⟩,
   ⟨{ wSched with spl.changeAt := some 7 }, by decide +kernel⟩,
   ⟨7, { wSchedAt 9 with spl.changeAt := some 7, spl.slotUp := false }, by decide +kernel⟩,
   ⟨1, 2, 3, true, wSched, by decide +kernel⟩,
   ⟨2, 0, 1, wSched, by decide +kernel⟩,
   ⟨9, 0, wSched, by decide +kernel⟩,
   ⟨3, 0xF9BF, wSched, by decide +kernel⟩⟩

theorem witness_PtpMessages :
    (∃ (p : Fin 2050) (msg : PtpMsg) (capture : TimeStamp) (s : State), msg.domain.toNat ≠ s.fld R.TIM_CTRL F.TIM_CTRL_DOMAIN) ∧
    (∃ (p : Fin 2050) (msg : PtpMsg) (capture : TimeStamp) (s : State), msg.domain.toNat = s.fld R.TIM_CTRL F.TIM_CTRL_DOMAIN ∧
      (s.flag (R.TIM_PORT_CFG p) F.TIM_PORT_CFG_PTP = false ∨ s.ptpOn p = false)) ∧
    (∃ (p : Fin 2050) (msg : PtpMsg) (capture : TimeStamp) (s : State), msg.domain.toNat = s.fld R.TIM_CTRL F.TIM_CTRL_DOMAIN ∧
      s.flag (R.TIM_PORT_CFG p) F.TIM_PORT_CFG_PTP = true ∧ s.ptpOn p = true ∧ (s.fromParent p msg = false ∨ s.timState = 0)) ∧
    (∃ (p : Fin 2050) (msg : PtpMsg) (capture : TimeStamp) (s : State), msg.domain.toNat = s.fld R.TIM_CTRL F.TIM_CTRL_DOMAIN ∧
      s.flag (R.TIM_PORT_CFG p) F.TIM_PORT_CFG_PTP = true ∧ s.ptpOn p = true ∧ s.fromParent p msg = true ∧ s.timState ≠ 0 ∧
      (swf (fun _ => {}) s.tim.ports = true) ∧ msg.twoStep = true) ∧
    (∃ (p : Fin 2050) (msg : PtpMsg) (capture : TimeStamp) (s : State), msg.domain.toNat = s.fld R.TIM_CTRL F.TIM_CTRL_DOMAIN ∧
      s.flag (R.TIM_PORT_CFG p) F.TIM_PORT_CFG_PTP = true ∧ s.ptpOn p = true ∧ s.fromParent p msg = true ∧ s.timState ≠ 0 ∧
      (swf (fun _ => {}) s.tim.ports = true) ∧ msg.twoStep = false ∧ (s.ptp p).delay = none ∧ s.timed = []) ∧
    (∃ (p : Fin 2050) (msg : PtpMsg) (capture : TimeStamp) (d : Int) (off : Int) (s : State), s.regsWf = true ∧
      msg.domain.toNat = s.fld R.TIM_CTRL F.TIM_CTRL_DOMAIN ∧ s.flag (R.TIM_PORT_CFG p) F.TIM_PORT_CFG_PTP = true ∧
      s.ptpOn p = true ∧ s.fromParent p msg = true ∧ s.timState = 1 ∧ msg.twoStep = false ∧ (s.ptp p).delay = some d ∧
      s.timed = [] ∧
      off = s.rxTime p capture - (tsUnits msg.origin + msg.correction.toInt) - (d + psUnits (signedOf 32 (s.fld (R.TIM_PORT_ASYM p) F.TIM_PORT_ASYM_ASYM_PS)) / 2) ∧
      s.fld R.TIM_SERVO F.TIM_SERVO_LOCK_NS * 65536 < off.natAbs) ∧
    (∃ (p : Fin 2050) (msg : PtpMsg) (m : PtpMsg) (t2 : Int) (s : State),
      msg.domain.toNat = s.fld R.TIM_CTRL F.TIM_CTRL_DOMAIN ∧ s.flag (R.TIM_PORT_CFG p) F.TIM_PORT_CFG_PTP = true ∧
      s.ptpOn p = true ∧ (s.ptp p).waiting = some (m, t2) ∧ (s.fromParent p msg = false ∨ m.seq ≠ msg.seq)) ∧
    (∃ (p : Fin 2050) (msg : PtpMsg) (s : State), msg.domain.toNat = s.fld R.TIM_CTRL F.TIM_CTRL_DOMAIN ∧
      s.flag (R.TIM_PORT_CFG p) F.TIM_PORT_CFG_PTP = true ∧ s.ptpOn p = true ∧ (s.ptp p).waiting = none) ∧
    (∃ (p : Fin 2050) (msg : PtpMsg) (m : PtpMsg) (t2 : Int) (s : State),
      msg.domain.toNat = s.fld R.TIM_CTRL F.TIM_CTRL_DOMAIN ∧ s.flag (R.TIM_PORT_CFG p) F.TIM_PORT_CFG_PTP = true ∧
      s.ptpOn p = true ∧ s.fromParent p msg = true ∧ (s.ptp p).waiting = some (m, t2) ∧ m.seq = msg.seq ∧
      (s.ptp p).delay = none ∧ (swf (fun _ => {}) s.tim.ports = true) ∧ s.timed = []) ∧
    (∃ (p : Fin 2050) (msg : PtpMsg) (m : PtpMsg) (t2 : Int) (d : Int) (off : Int) (s : State), s.regsWf = true ∧
      msg.domain.toNat = s.fld R.TIM_CTRL F.TIM_CTRL_DOMAIN ∧ s.flag (R.TIM_PORT_CFG p) F.TIM_PORT_CFG_PTP = true ∧
      s.ptpOn p = true ∧ s.fromParent p msg = true ∧ (s.ptp p).waiting = some (m, t2) ∧ m.seq = msg.seq ∧
      (s.ptp p).delay = some d ∧ s.timed = [] ∧
      off = t2 - (tsUnits msg.origin + msg.correction.toInt + m.correction.toInt) - (d + psUnits (signedOf 32 (s.fld (R.TIM_PORT_ASYM p) F.TIM_PORT_ASYM_ASYM_PS)) / 2)) ∧
    (∃ (p : Fin 2050) (msg : PtpMsg) (capture : TimeStamp) (s : State), msg.domain.toNat = s.fld R.TIM_CTRL F.TIM_CTRL_DOMAIN ∧
      s.flag (R.TIM_PORT_CFG p) F.TIM_PORT_CFG_PTP = true ∧ s.ptpOn p = true ∧ (s.ptpState p ≠ 6 ∨ s.ptpMaySend p 54 = false)) ∧
    (∃ (p : Fin 2050) (msg : PtpMsg) (capture : TimeStamp) (t4 : Int) (interval : Int) (f : Bytes) (s : State),
      msg.domain.toNat = s.fld R.TIM_CTRL F.TIM_CTRL_DOMAIN ∧ s.ptpOn p = true ∧ p.val < 2048 ∧ s.ptpState p = 6 ∧
      s.ptpMaySend p 54 = true ∧ s.flag (R.TIM_PORT_CFG p) F.TIM_PORT_CFG_TRANSPORT = false ∧ t4 = s.rxTime p capture ∧
      interval = max (-7) (min 0 (signedOf 8 (s.fld R.TIM_INTERVAL F.TIM_INTERVAL_LOG_DELAY_REQ))) ∧
      f = padFrame (ethHeader 0x011B19000000 s.mac 0x88F7 ++ s.ptpHeader p 9 20 0 (msg.correction.toInt - t4.toNat % 65536) msg.seq.toNat 3 (interval % 256).toNat ++ ptpStamp t4 ++ beBytes 8 msg.source.toNat ++ beBytes 2 msg.sourcePort.toNat)) ∧
    (∃ (p : Fin 2050) (msg : PtpMsg) (s : State), msg.domain.toNat = s.fld R.TIM_CTRL F.TIM_CTRL_DOMAIN ∧
      s.flag (R.TIM_PORT_CFG p) F.TIM_PORT_CFG_PTP = true ∧ s.ptpOn p = true ∧
      (s.fromParent p msg = false ∨ msg.requester ≠ s.identity ∨ msg.requesterPort.toNat ≠ p + 1 ∨ msg.seq + 1 ≠ (s.ptp p).delaySeq ∨ (s.ptp p).t1 = none ∨ (s.ptp p).t2 = none ∨ (s.ptp p).t3 = none)) ∧
    (∃ (p : Fin 2050) (msg : PtpMsg) (t1 : Int) (t2 : Int) (t3 : Int) (d : Int) (s : State), s.regsWf = true ∧
      msg.domain.toNat = s.fld R.TIM_CTRL F.TIM_CTRL_DOMAIN ∧ s.flag (R.TIM_PORT_CFG p) F.TIM_PORT_CFG_PTP = true ∧
      s.ptpOn p = true ∧ s.fromParent p msg = true ∧ msg.requester = s.identity ∧ msg.requesterPort.toNat = p + 1 ∧
      msg.seq + 1 = (s.ptp p).delaySeq ∧ (s.ptp p).t1 = some t1 ∧ (s.ptp p).t2 = some t2 ∧ (s.ptp p).t3 = some t3 ∧
      (swf (fun _ => {}) s.tim.ports = true) ∧ d = ((t2 - t1) + (tsUnits msg.origin - msg.correction.toInt - t3)) / 2) ∧
    (∃ (p : Fin 2050) (msg : PtpMsg) (s : State), msg.domain.toNat = s.fld R.TIM_CTRL F.TIM_CTRL_DOMAIN ∧
      s.flag (R.TIM_PORT_CFG p) F.TIM_PORT_CFG_PTP = true ∧ s.ptpOn p = true ∧
      (s.ptpMayFollow p = false ∨ msg.source = s.identity)) ∧
    (∃ (p : Fin 2050) (msg : PtpMsg) (s : State), msg.domain.toNat = s.fld R.TIM_CTRL F.TIM_CTRL_DOMAIN ∧
      s.ptpMayFollow p = true ∧ msg.source ≠ s.identity ∧ s.tim.foreign = [] ∧ s.tim.parent = none) ∧
    (∃ (p : Fin 2050) (msg : PtpMsg) (m : PtpMsg) (n : Nat) (at_ : Nat) (s : State), s.regsWf = true ∧
      msg.domain.toNat = s.fld R.TIM_CTRL F.TIM_CTRL_DOMAIN ∧ s.ptpMayFollow p = true ∧ msg.source ≠ s.identity ∧
      s.tim.foreign = [⟨p, m, n, at_⟩] ∧ 1 ≤ n ∧ m.source = msg.source ∧ m.sourcePort = msg.sourcePort ∧
      s.mono ≤ at_ + 4 * logNs (signedOf 8 msg.logInterval.toNat) ∧ s.tim.parent = none ∧ s.timSource = 0 ∧
      rankLt (masterRank msg p) s.ownRank = true) ∧
    (∃ (p : Fin 2050) (kind : PtpKind) (capture : TimeStamp) (s : State),
      ((match kind with | .sync => s.ptpState p ≠ 6 ∨ s.ptpMaySend p 44 = false | .announce => s.ptpState p ≠ 6 ∨ s.ptpMaySend p 64 = false | .delayReq => s.ptpRole p ≠ 9 ∨ s.ptpMaySend p 44 = false))) ∧
    (∃ (p : Fin 2050) (capture : TimeStamp) (t1 : Int) (f : Bytes) (s : State), s.ptpState p = 6 ∧ s.ptpMaySend p 44 = true ∧
      p.val < 2048 ∧ s.flag (R.TIM_PORT_CFG p) F.TIM_PORT_CFG_TRANSPORT = false ∧ (swf (fun _ => {}) s.tim.ports = true) ∧
      t1 = s.txTime p capture ∧
      f = padFrame (ethHeader 0x011B19000000 s.mac 0x88F7 ++ s.ptpHeader p 0 10 0 (t1.toNat % 65536 : Nat) (s.ptp p).syncSeq.toNat 0 (s.logSync % 256).toNat ++ ptpStamp t1)) ∧
    (∃ (p : Fin 2050) (capture : TimeStamp) (s : State), s.ptpState p = 6 ∧ s.ptpMaySend p 64 = true ∧ p.val < 2048 ∧
      s.flag (R.TIM_PORT_CFG p) F.TIM_PORT_CFG_TRANSPORT = false ∧ (swf (fun _ => {}) s.tim.ports = true)) ∧
    (∃ (p : Fin 2050) (capture : TimeStamp) (t3 : Int) (f : Bytes) (s : State), s.ptpRole p = 9 ∧ s.ptpMaySend p 44 = true ∧
      p.val < 2048 ∧ s.flag (R.TIM_PORT_CFG p) F.TIM_PORT_CFG_TRANSPORT = false ∧ (swf (fun _ => {}) s.tim.ports = true) ∧
      t3 = s.txTime p capture ∧
      f = padFrame (ethHeader 0x011B19000000 s.mac 0x88F7 ++ s.ptpHeader p 1 10 0 (t3.toNat % 65536 : Nat) (s.ptp p).delaySeq.toNat 1 0x7F ++ ptpStamp t3)) ∧
    (∃ (p : Fin 2050) (s : State), (s.ptpOn p = false ∨ (p.val < 2048 ∧ s.portLent p = true))) ∧
    (∃ (p : Fin 2050) (s : State), s.ptpOn p = true ∧ p.val < 2048 ∧ s.portLent p = false ∧
      (s.tim.parent = none ∨ s.tim.parentPort ≠ p) ∧ (swf (fun _ => {}) s.tim.ports = true)) ∧
    (∃ (p : Fin 2050) (s : State), (s.tim.parent = none ∨ s.tim.parentPort ≠ p)) ∧
    (∃ (p : Fin 2050) (s : State), s.regsWf = true ∧ s.tim.parent.isSome = true ∧ s.tim.parentPort = p ∧ s.tim.foreign = []) :=
  ⟨⟨12, wMsg, 7, wPtp.setFld R.TIM_CTRL F.TIM_CTRL_DOMAIN 5, by decide +kernel⟩,
   ⟨20, wMsg, 7, wPtp, by decide +kernel⟩,
   ⟨12, wMsg, 7, wPtp, by decide +kernel⟩,
   ⟨12, wTwo, 7, wSlave 1 none, by decide +kernel⟩,
   ⟨12, wMsg, 2 * 2 ^ 48 + 8000 * 65536, wSlave 1 none, by decide +kernel⟩,
   ⟨12, wMsg, 3 * 2 ^ 48, 65536, _, wSlave 1 (some 65536), by decide +kernel, by decide +kernel, by decide +kernel,
    by decide +kernel, by decide +kernel, by decide +kernel, by decide +kernel, by decide +kernel, by decide +kernel, rfl,
    offset_late _ _ _ _ _ (by decide +kernel) (by decide +kernel)⟩,
   ⟨12, { wMsg with seq := 4 }, wTwo, 7, { wSlave 1 none with tim.ports := [(12, { waiting := some (wTwo, 7) })] },
    by decide +kernel⟩,
   ⟨12, wMsg, wSlave 1 none, by decide +kernel⟩,
   ⟨12, wMsg, wTwo, 77, { wSlave 1 none with tim.ports := [(12, { waiting := some (wTwo, 77) })] }, by decide +kernel⟩,
   ⟨12, wMsg, wTwo, 77, 5, 77 - (2000000000 * 65536 + 131072) - 5,
    { wSlave 1 none with tim.ports := [(12, { waiting := some (wTwo, 77), delay := some 5 })] }, by decide +kernel⟩,
   ⟨12, wMsg, 7, wSlave 1 none, by decide +kernel⟩,
   ⟨12, wMsg, 7, 0, -5,
    padFrame (ethHeader 0x011B19000000 (wPlain wMaster).mac 0x88F7 ++ (wPlain wMaster).ptpHeader 12 9 20 0 65536 3 3 251 ++ ptpStamp 0 ++ beBytes 8 9 ++ beBytes 2 1),
    wPlain wMaster, by decide +kernel⟩,
   ⟨12, wMsg, wPlain (wSlave 1 none), by decide +kernel⟩,
   ⟨12, { wMsg with requester := (wSlave 2 none).identity }, 1000, 9000, 131072000000000 - 65536 - 6000, 7000,
    { wSlave 2 none with tim.ports := [(12, { t1 := some 1000, t2 := some 9000, t3 := some (131072000000000 - 65536 - 6000), delaySeq := 4 })] },
    by decide +kernel, by decide +kernel, by decide +kernel, by decide +kernel, by decide +kernel, rfl, by decide +kernel,
    by decide +kernel, by decide +kernel, by decide +kernel, by decide +kernel, by decide +kernel, by decide +kernel⟩,
   ⟨12, wMsg, wPtp.setFld (R.TIM_PORT_CFG 12) F.TIM_PORT_CFG_MASTER_ONLY 1, by decide +kernel⟩,
   ⟨12, wMsg, wPlain wPtp, by decide +kernel⟩,
   ⟨12, wOther, wOther, 1, 0, { wPtp with tim.foreign := [⟨12, wOther, 1, 0⟩], tim.osc := 4000000000 }, by decide +kernel,
    by decide +kernel, by decide +kernel, wOther_ne _,
    congrArg (fun k => [(⟨k, wOther, 1, 0⟩ : Foreign)]) (show (12 : Nat) = (12 : Fin 2050).val from by decide),
    by decide +kernel, rfl, rfl, by decide +kernel, by decide +kernel, by decide +kernel, by decide +kernel⟩,
   ⟨12, .sync, 7, wSlave 1 none, by decide +kernel⟩,
   ⟨12, 7 * 65536 + 16384, 7 * 65536 + 16384,
    padFrame (ethHeader 0x011B19000000 (wPlain wMaster).mac 0x88F7 ++ (wPlain wMaster).ptpHeader 12 0 10 0 16384 0 0 ((wPlain wMaster).logSync % 256).toNat ++ ptpStamp (7 * 65536)),
    wPlain wMaster, by decide +kernel⟩,
   ⟨12, 7, wMaster, by decide +kernel⟩,
   ⟨12, 7 * 65536, 7 * 65536,
    padFrame (ethHeader 0x011B19000000 (wPlain (wSlave 1 none)).mac 0x88F7 ++ (wPlain (wSlave 1 none)).ptpHeader 12 1 10 0 0 4 1 0x7F ++ ptpStamp (7 * 65536)),
    wPlain (wSlave 1 none), by decide +kernel⟩,
   ⟨20, wPtp, by decide +kernel⟩,
   ⟨12, { wPtp with tim.foreign := [⟨12, wMsg, 1, 0⟩, ⟨20, wMsg, 1, 0⟩] }, by decide +kernel⟩,
   ⟨12, wPtp, by decide +kernel⟩,
   ⟨12, wSlave 2 (some 5), by decide +kernel⟩⟩

theorem witness_TimeAndPps :
    (∃ (s : State), s.regsWf = true) ∧
    (∃ (nsFrac : BitVec 48) (s : State), s.regsWf = true ∧ s.flag R.TIM_CTRL F.TIM_CTRL_ENABLE = true ∧ s.timSource = 0) ∧
    (∃ (nsFrac : BitVec 48) (s : State), s.regsWf = true ∧ s.flag R.TIM_CTRL F.TIM_CTRL_ENABLE = false ∧ s.timed = []) ∧
    (∃ (s : State), s.board.pwrGood = false) ∧
    (∃ (s : State), s.regsWf = true ∧ s.board.pwrGood = true ∧ s.timSource ≠ 1) ∧
    (∃ (off : Int) (s : State), s.regsWf = true ∧ s.board.pwrGood = true ∧ s.timSource = 1 ∧ s.timState ≠ 2 ∧ s.tim.within = 0 ∧
      s.timed = [] ∧ off = (if 500000000 < s.nowNano then (s.nowNano : Int) - 1000000000 else s.nowNano) * 65536 ∧
      off.natAbs < s.fld R.TIM_CTRL F.TIM_CTRL_STEP_NS * 65536) ∧
    (∃ (off : Int) (s : State), s.regsWf = true ∧ s.board.pwrGood = true ∧ s.timSource = 1 ∧ s.timState ≠ 2 ∧ s.tim.within = 0 ∧
      s.timed = [] ∧ off = (if 500000000 < s.nowNano then (s.nowNano : Int) - 1000000000 else s.nowNano) * 65536 ∧
      s.fld R.TIM_CTRL F.TIM_CTRL_STEP_NS * 65536 ≤ off.natAbs) ∧
    (∃ (s : State), (s.timSource ≠ 1 ∨ s.timState = 0)) ∧
    (∃ (s : State), s.regsWf = true ∧ s.timSource = 1 ∧ (s.timState = 1 ∨ s.timState = 2)) ∧
    (∃ (s : State), s.nowNano < 4) ∧
    (∃ (s : State), 4 ≤ s.nowNano) ∧
    (∃ (t : TimeStamp), t.toNat / 2 ^ 16 % 2 ^ 32 < 1000000000) :=
  ⟨⟨wSlave 1 none, by decide +kernel⟩,
   ⟨5, wPtp, by decide +kernel⟩,
   ⟨0xFFFF, wRun.setFld R.TIM_SET_SEC F.TIM_SET_SEC_SECONDS 77, by decide +kernel⟩,
   ⟨{ wRun with board.pwrGood := false }, by decide +kernel⟩,
   ⟨wSlave 1 none, by decide +kernel⟩,
   ⟨-7 * 65536,
    { ((wRun.setFld R.TIM_CTRL F.TIM_CTRL_SOURCE 1).setFld R.TIM_CTRL F.TIM_CTRL_STEP_NS 1000) with tim.base := 5 * 2 ^ 48 + 999999993 * 65536 },
    by decide +kernel⟩,
   ⟨-3000 * 65536,
    { ((wRun.setFld R.TIM_CTRL F.TIM_CTRL_SOURCE 1).setFld R.TIM_CTRL F.TIM_CTRL_STEP_NS 1000) with tim.base := 5 * 2 ^ 48 + 999997000 * 65536 },
    by decide +kernel⟩,
   ⟨wPtp, by decide +kernel⟩,
   ⟨(wRun.setFld R.TIM_CTRL F.TIM_CTRL_SOURCE 1).setFld R.TIM_STATUS F.TIM_STATUS_STATE 1, by decide +kernel⟩,
   ⟨{ wRun with tim.base := 5 * 2 ^ 48 }, by decide +kernel⟩,
   ⟨{ wRun with tim.base := 5 * 2 ^ 48 + 4 * 65536 }, by decide +kernel⟩,
   ⟨5 * 2 ^ 48 + 7 * 65536 + 9, by decide +kernel⟩⟩

theorem witness_MemoryAndSecurityRegisters :
    (∃ (err : Option ErrKind) (s : State), s.fld (R.MEM_HBM_STATUS (s.mem.scrubHbm / hbmStack)) F.MEM_HBM_STATUS_STATE ≠ 1) ∧
    (∃ (s : State), s.regsWf = true ∧ s.fld (R.MEM_HBM_STATUS (s.mem.scrubHbm / hbmStack)) F.MEM_HBM_STATUS_STATE = 1 ∧
      s.mem.scrubHbm < hbmSize ∧ s.resting (28 + s.mem.scrubHbm / hbmStack) = false ∧ s.mem.poisoned = []) ∧
    (∃ (u : Nat) (s : State), u = s.mem.scrubHbm / hbmStack ∧ s.fld (R.MEM_HBM_STATUS u) F.MEM_HBM_STATUS_STATE = 1 ∧
      s.mem.scrubHbm < hbmSize ∧ (s.mem.scrubHbm + 64) % hbmStack ≠ 0 ∧ s.resting (28 + u) = false ∧ s.mem.poisoned = [] ∧
      s.fld R.MEM_CTRL F.MEM_CTRL_SUSPECT = 0) ∧
    (∃ (u : Nat) (s : State), u = s.mem.scrubHbm / hbmStack ∧ s.fld (R.MEM_HBM_STATUS u) F.MEM_HBM_STATUS_STATE = 1 ∧
      s.mem.scrubHbm < hbmSize ∧ s.mem.scrubHbm % 64 = 0 ∧ s.mem.poisoned = []) ∧
    (∃ (err : Option ErrKind) (s : State), s.ddrSize = 0) ∧
    (∃ (s : State), 0 < s.ddrSize ∧ (s.mem.scrubDdr + 64) % s.ddrSize ≠ 0 ∧ s.resting 45 = false ∧ s.mem.poisoned = []) ∧
    (∃ (addr : Word) (attempt : Fin 3) (ok : Bool) (s : State), s.inDdr (addr.toNat / 64 * 64) = false) ∧
    (∃ (addr : Word) (attempt : Fin 3) (ok : Bool) (s : State), s.inDdr (addr.toNat / 64 * 64) = true ∧
      (attempt ≠ 2 ∨ ok = true)) ∧
    (∃ (addr : Word) (s : State), s.inDdr (addr.toNat / 64 * 64) = true ∧ s.mem.poisoned = []) ∧
    (∃ (s : State), s.regsWf = true ∧ s.flag R.MEM_CTRL F.MEM_CTRL_AREAS_ENABLE = false ∧ s.checking .areasEnable = false) ∧
    (∃ (s : State), s.regsWf = true ∧ (s.flag R.MEM_CTRL F.MEM_CTRL_AREAS_ENABLE = true ∨ s.checking .areasEnable = true)) ∧
    (∃ (slot : Fin 8) (w : Fin 4) (v : Word) (s : State), s.regsWf = true ∧ s.flag R.SEC_CTRL F.SEC_CTRL_LOCK = false) ∧
    (∃ (slot : Fin 8) (w : Fin 4) (v : Word) (s : State), s.flag R.SEC_CTRL F.SEC_CTRL_LOCK = true) ∧
    (∃ (s : State), s.regsWf = true ∧ s.flag R.SEC_CTRL F.SEC_CTRL_LOCK = false) ∧
    (∃ (s : State), s.flag R.SEC_CTRL F.SEC_CTRL_LOCK = true) ∧
    (∃ (offset : BitVec 26) (v : Word) (s : State), findReg offset.toNat = none) ∧
    (∃ (offset : BitVec 26) (v : Word) (r : RegSpec) (s : State), s.regsWf = true ∧ findReg offset.toNat = some r ∧
      [R.GLB_RESET, R.GLB_CTRL, R.HIF_RING_ENABLE 0, R.HIF_CQ_CFG 0, R.HIF_LINK_CTRL, R.CMD_CTRL, R.CMD_PEG_ASSIGN, R.CFG_COMMIT, R.CFG_DISCARD, R.PWR_BAY_CTRL 0, R.TIM_CTRL, R.TIM_PORT_CFG 0, R.TIM_SET_NS, R.LDG_CTRL, R.CNT_SNAP, R.CNT_CLEAR, R.CNT_COPY_CTRL, R.PRT_PAIR_CFG 0, R.PRT_PORT_CTRL 0 0, R.SWC_CTRL, R.BSN_CTRL 0, R.BSN_ABORT 0, R.TEN_ASSIGN 0, R.MEM_CTRL, R.SPL_CTRL, R.SPL_REQ_A, R.SPL_FLIP, R.OPT_CTRL 0, R.OPT_MEASURE 0, R.OPT_LANE_CLEAR 0, R.PLN_PROMOTE, R.PLN_FLIP, R.PLN_FENCE_REQ, R.PLN_FENCE_CONFIRM, R.SIL_INJECT, R.SIL_OVR 0, R.SEC_IMG_KEY 4 0, R.SEC_CTRL].contains r.base = false ∧
      s.blockRuns r.base offset.toNat v = false) ∧
    (∃ (v : BitVec 64) (s : State), s.regsWf = true ∧ s.flag R.GLB_STATUS F.GLB_STATUS_FWD_ACTIVE = true ∧
      F.FWD_ROUTER_MAC_MAC.get v ≠ s.fld R.FWD_ROUTER_MAC F.FWD_ROUTER_MAC_MAC) ∧
    (∃ (offset : BitVec 26) (s : State), findReg offset.toNat = none) ∧
    (∃ (n : Fin 53) (s : State), s.regsWf = true) :=
  ⟨⟨some .corrected, { wRun with mem.scrubHbm := hbmSize - 64 }, by decide +kernel⟩,
   ⟨{ wRun.setFld (R.MEM_HBM_STATUS 2) F.MEM_HBM_STATUS_STATE 1 with mem.scrubHbm := 3 * hbmStack - 64 }, by decide +kernel⟩,
   ⟨2,
    { (wRun.setFld (R.MEM_HBM_STATUS 2) F.MEM_HBM_STATUS_STATE 1).setFld R.MEM_CTRL F.MEM_CTRL_SUSPECT 0 with mem.scrubHbm := 2 * hbmStack },
    by decide +kernel⟩,
   ⟨2, { wRun.setFld (R.MEM_HBM_STATUS 2) F.MEM_HBM_STATUS_STATE 1 with mem.scrubHbm := 2 * hbmStack }, by decide +kernel⟩,
   ⟨some .uncorrectable, wRun, by decide +kernel⟩,
   ⟨wRun.setFld R.MEM_STATUS F.MEM_STATUS_DDR_GIB 32, by decide +kernel⟩,
   ⟨64, 2, false, wRun, by decide +kernel⟩,
   ⟨0x10000000040, 2, true, wRun.setFld R.MEM_STATUS F.MEM_STATUS_DDR_GIB 32, by decide +kernel⟩,
   ⟨0x10000000040, wRun.setFld R.MEM_STATUS F.MEM_STATUS_DDR_GIB 32, by decide +kernel⟩,
   ⟨wRun, by decide +kernel⟩,
   ⟨wCheck .areasEnable, by decide +kernel⟩,
   ⟨3, 2, 0xABCD, wRun, by decide +kernel⟩,
   ⟨3, 2, 5, wRun.setFld R.SEC_CTRL F.SEC_CTRL_LOCK 1, by decide +kernel⟩,
   ⟨wRun, by decide +kernel⟩,
   ⟨wRun.setFld R.SEC_CTRL F.SEC_CTRL_LOCK 1, by decide +kernel⟩,
   ⟨0x2C00000, 5, wRun, by decide +kernel⟩,
   ⟨BitVec.ofNat 26 (R.PWR_BAY_STATUS 3), 0xFFFFFFFFFFFFFFFF, ((findReg (R.PWR_BAY_STATUS 3)).getD ⟨0, [], []⟩), wRun,
    by decide +kernel⟩,
   ⟨77, wSwitch, by decide +kernel⟩,
   ⟨0x2C00000, wRun, by decide +kernel⟩,
   ⟨7, wRun.wr (R.THM_SENSOR 7) 0x0123012301230123, by decide +kernel⟩⟩

theorem witness_ConfigCommits :
    (∃ (s : State), ((s.cfg.checks.head?.any fun k => k.kind.isEnable) = false)) ∧
    (∃ (k : Check) (r : Nat) (s : State), s.cfg.checks = [k] ∧ k.kind.isEnable = true ∧ k.kind ≠ .areasEnable ∧
      s.enableReason k.kind = r ∧ r ≠ 0 ∧ r < 256 ∧ s.regsWf = true ∧ k.source < 4) ∧
    (∃ (k : Check) (r : Nat) (s : State), s.cfg.checks = [k] ∧ k.kind = .areasEnable ∧ s.areasReason = r ∧ r ≠ 0 ∧
      s.regsWf = true) ∧
    (∃ (k : Check) (s : State), s.cfg.checks = [k] ∧ k.kind = .areasEnable ∧ s.areasReason = 0 ∧ s.regsWf = true) ∧
    (∃ (k : Check) (s : State), s.cfg.checks = [k] ∧ k.kind = .fwdEnable ∧ s.fwdReason = 0 ∧ s.regsWf = true) ∧
    (∃ (k : Check) (e : Fin 8) (s : State), s.cfg.checks = [k] ∧ k.kind = .bsnEnable e ∧ s.bsnReason e = 0 ∧ s.regsWf = true) ∧
    (∃ (k : Check) (c : Fin 256) (s : State), s.cfg.checks = [k] ∧ k.kind = .cqEnable c ∧ s.cqReason c = 0 ∧ s.regsWf = true) ∧
    (∃ (k : Check) (p : Fin 2048) (s : State), s.cfg.checks = [k] ∧ k.kind = .portEnable p ∧ s.portReason p = 0 ∧
      s.regsWf = true) ∧
    (∃ (k : Check) (r : Fin 1024) (s : State), s.cfg.checks = [k] ∧ k.kind = .ringEnable r ∧ s.ringReason r = 0 ∧
      s.regsWf = true) ∧
    (∃ (set : BitVec 8) (s : State), s.regsWf = true ∧ s.flag R.CFG_COMMIT F.CFG_COMMIT_GO = true) ∧
    (∃ (set : BitVec 8) (s : State), s.regsWf = true ∧ s.flag R.CFG_COMMIT F.CFG_COMMIT_GO = false ∧ setCommits set.toNat = true) ∧
    (∃ (set : BitVec 8) (s : State), s.regsWf = true ∧ s.flag R.CFG_COMMIT F.CFG_COMMIT_GO = false ∧
      setCommits set.toNat = false) ∧
    (∃ (errs : List LineErr) (s : State), (s.cfg.checks.head?.all (fun k => k.kind.isEnable) = true)) ∧
    (∃ (errs : List LineErr) (k : Check) (s : State), s.regsWf = true ∧ s.cfg.checks = [k] ∧ k.kind = .commit 0 ∧ k.dest = 0 ∧
      k.source = 0 ∧ k.domain = 0) :=
  ⟨⟨wRun, by decide +kernel⟩,
   ⟨{ kind := .fwdEnable, offset := 8 }, 0x10, wCheck .fwdEnable, by decide +kernel⟩,
   ⟨{ kind := .areasEnable, offset := 8 }, 0x11, (wCheck .areasEnable).wr R.MEM_HISTORY_BASE 4096, by decide +kernel⟩,
   ⟨{ kind := .areasEnable, offset := 8 }, wCheck .areasEnable, by decide +kernel⟩,
   ⟨{ kind := .fwdEnable, offset := 8 },
    (((wCheck .fwdEnable).wr R.FWD_ROUTER_MAC 0x020000000001).setFld (R.CFG_SET_STATUS 0) F.CFG_SET_STATUS_COMMITTED 1),
    by decide +kernel⟩,
   ⟨{ kind := .bsnEnable 3, offset := 8 }, 3, (wCheck (.bsnEnable 3)).setFld (R.BSN_RETAIN_SIZE 3) F.BSN_RETAIN_SIZE_SIZE 16,
    by decide +kernel⟩,
   ⟨{ kind := .cqEnable 5, offset := 8 }, 5,
    (((wCheck (.cqEnable 5)).wr (R.HIF_CQ_BASE 5) 0x10000).setFld (R.HIF_CQ_CFG 5) F.HIF_CQ_CFG_SIZE_LOG2 10).wr (R.HIF_CQ_HEADPTR 5) 0x20000,
    by decide +kernel⟩,
   ⟨{ kind := .portEnable 12, offset := 8 }, 12, { wCheck (.portEnable 12) with lasers := [(0, wLit)] }, by decide +kernel⟩,
   ⟨{ kind := .ringEnable 70, offset := 8 }, 70,
    ((((wCheck (.ringEnable 70)).wr (R.HIF_RING_BASE 70) 0x10000).wr (R.HIF_RING_LINE 70) 0x40).setFld (R.HIF_RING_CFG 70) F.HIF_RING_CFG_SIZE_LOG2 8).setFld (R.HIF_CQ_CFG 0) F.HIF_CQ_CFG_ENABLE 1,
    by decide +kernel⟩,
   ⟨2, wCommit 5, by decide +kernel⟩,
   ⟨0x20, wRun, by decide +kernel⟩,
   ⟨0x30, wRun, by decide +kernel⟩,
   ⟨[], wRun, by decide +kernel⟩,
   ⟨[],
    { kind := .commit 0, captured := [(R.GLB_HOST_IF, F.GLB_HOST_IF_DESCRIPTOR.put 3 ||| F.GLB_HOST_IF_TELEMETRY.put 4 ||| F.GLB_HOST_IF_LEDGER.put 2)] },
    wCommit (F.GLB_HOST_IF_DESCRIPTOR.put 3 ||| F.GLB_HOST_IF_TELEMETRY.put 4 ||| F.GLB_HOST_IF_LEDGER.put 2), by decide +kernel⟩⟩

theorem witness_DiscardOfASet :
    (∃ (set : BitVec 8) (s : State), s.regsWf = true ∧ setCommits set.toNat = true ∧
      ((s.cfg.checks.head?.any fun k => k.kind == .commit set.toNat) = false) ∧ swf resetWord s.cfg.committed = true) ∧
    (∃ (set : BitVec 8) (s : State), s.regsWf = true ∧ setCommits set.toNat = false) ∧
    (∃ (set : BitVec 8) (k : Check) (l : List Check) (s : State), s.regsWf = true ∧ s.cfg.checks = k :: l ∧
      k.kind = .commit set.toNat) :=
  ⟨⟨2, { (wRun.wr (R.SWC_ECN_DEPTH 1 2) 0x900090009) with cfg.committed := [(R.SWC_ECN_DEPTH 1 2, 0x500050005)] },
    by decide +kernel⟩,
   ⟨0x30, wRun, by decide +kernel⟩,
   ⟨0, { kind := .commit 0, captured := [(R.GLB_HOST_IF, 5)] }, [], wCommit 5, by decide +kernel⟩⟩

theorem witness_PlaneMessages :
    (∃ (port : Fin 2) (m : Bytes) (s : State), s.planeAlive = false) ∧
    (∃ (port : Fin 2) (m : Bytes) (s : State), s.planeAlive = true ∧ planeWell m = false) ∧
    (∃ (port : Fin 2) (m : Bytes) (s : State), s.planeAlive = true ∧ planeWell m = true ∧
      (s.planeNames (planeSender m) = false ∨ beAt m 2 2 % 4096 ≠ s.cfld R.PLN_CFG F.PLN_CFG_PLANE ∨ planeTerm m < s.fld R.PLN_STATUS F.PLN_STATUS_TERM)) ∧
    (∃ (port : Fin 2) (m : Bytes) (k : Nat) (s : State), s.PlaneTakes k m) ∧
    (∃ (port : Fin 2) (m : Bytes) (k : Nat) (s : State), s.PlaneTakes k m ∧
      (s.follows = false ∨ s.pairIds.contains (planeSender m) = false)) ∧
    (∃ (port : Fin 2) (m : Bytes) (s : State), s.PlaneTakes 1 m ∧ s.follows = true ∧ s.pairIds.contains (planeSender m) = false) ∧
    (∃ (port : Fin 2) (m : Bytes) (k : Nat) (s : State), s.PlaneTakes k m ∧
      (s.acting = false ∨ (s.workerOf (planeSender m) = none ∧ planeSender m ≠ s.otherMember))) ∧
    (∃ (port : Fin 2) (m : Bytes) (s : State), s.FromPair 1 m ∧ s.regsWf = true ∧ s.pln.managerLost = false ∧
      s.pln.keptEvents = []) ∧
    (∃ (port : Fin 2) (m : Bytes) (s : State), s.PlaneTakes 1 m ∧ s.role = 2 ∧ s.pln.listening = true ∧ s.regsWf = true) ∧
    (∃ (port : Fin 2) (m : Bytes) (s : State), s.PlaneTakes 1 m ∧ s.role = 2 ∧ s.pln.listening = false ∧ s.regsWf = true ∧
      planeSender m = s.otherMember ∧ s.fld R.PLN_STATUS F.PLN_STATUS_TERM < planeTerm m ∧ s.pln.keptEvents = []) ∧
    (∃ (port : Fin 2) (m : Bytes) (s : State), s.PlaneTakes 1 m ∧ s.role = 2 ∧ s.pln.listening = false ∧
      (planeSender m ≠ s.otherMember ∨ planeTerm m = s.fld R.PLN_STATUS F.PLN_STATUS_TERM)) ∧
    (∃ (port : Fin 2) (m : Bytes) (n : Nat) (s : State), s.FromMember 2 m n ∧ n < 1023 ∧ s.regsWf = true ∧ s.pln.heard = []) ∧
    (∃ (port : Fin 2) (m : Bytes) (s : State), s.FromMember 2 m 1023 ∧ s.regsWf = true) ∧
    (∃ (port : Fin 2) (m : Bytes) (s : State), s.FromPair 3 m) ∧
    (∃ (kind : Nat) (fromEpoch : Nat) (id : BitVec 16) (s : State) (u : State), s.regsWf = true ∧
      u = (s.participate kind id fromEpoch).2) ∧
    (∃ (port : Fin 2) (m : Bytes) (n : Nat) (s : State), s.FromMember 4 m n ∧ s.pln.flip = none) ∧
    (∃ (port : Fin 2) (m : Bytes) (n : Nat) (f : ManagerFlip) (s : State), s.FromMember 4 m n ∧ s.pln.flip = some f ∧
      (f.id.toNat ≠ beAt (planeText m) 0 2 ∨ f.committing = true ∨ f.participants.contains n = false ∨ (f.ready.any fun x => x.1 == n) = true)) ∧
    (∃ (port : Fin 2) (m : Bytes) (n : Nat) (f : ManagerFlip) (s : State), s.FromMember 4 m n ∧ s.pln.flip = some f ∧
      s.regsWf = true ∧ f.id.toNat = beAt (planeText m) 0 2 ∧ f.committing = false ∧ f.participants = [n, 1023] ∧ n < 1023 ∧
      f.ready = [(1023, 0, 0)] ∧ byteAt (planeText m) 2 ≠ 0) ∧
    (∃ (port : Fin 2) (m : Bytes) (n : Nat) (f : ManagerFlip) (s : State), s.FromMember 4 m n ∧ s.pln.flip = some f ∧
      s.regsWf = true ∧ f.id.toNat = beAt (planeText m) 0 2 ∧ f.committing = false ∧ f.participants = [n, 1023] ∧ n < 1023 ∧
      f.ready = [(1023, 0, 0)] ∧ f.kind = 1 ∧ byteAt (planeText m) 2 = 0 ∧ f.done = [] ∧ s.cfg.checks ≠ [] ∧
      s.fld R.PLN_CFG F.PLN_CFG_FLIP_LEAD_MS ≤ 10000) ∧
    (∃ (port : Fin 2) (m : Bytes) (kind : Nat) (id : BitVec 16) (s : State), s.FromPair 5 m ∧
      s.pln.prepared = some (kind, id, false) ∧ id.toNat = beAt (planeText m) 0 2) ∧
    (∃ (port : Fin 2) (m : Bytes) (r : Nat) (s : State), s.FromPair 5 m ∧ s.pln.prepared = none ∧
      s.pln.lastDone = some (BitVec.ofNat 16 (beAt (planeText m) 0 2), r)) ∧
    (∃ (port : Fin 2) (m : Bytes) (s : State), s.FromPair 5 m ∧ s.pln.prepared = none ∧ s.pln.lastDone = none) ∧
    (∃ (port : Fin 2) (m : Bytes) (kind : Nat) (id : BitVec 16) (c : Bool) (s : State), s.FromPair 6 m ∧
      s.pln.prepared = some (kind, id, c)) ∧
    (∃ (port : Fin 2) (m : Bytes) (s : State), s.FromPair 6 m ∧ s.pln.prepared = none) ∧
    (∃ (port : Fin 2) (m : Bytes) (n : Nat) (s : State), s.FromMember 7 m n ∧ s.pln.flip = none) ∧
    (∃ (port : Fin 2) (m : Bytes) (n : Nat) (f : ManagerFlip) (s : State), s.FromMember 7 m n ∧ s.pln.flip = some f ∧
      (f.committing = false ∨ f.id.toNat ≠ beAt (planeText m) 0 2 ∨ f.participants.contains n = false ∨ f.done.contains n = true)) ∧
    (∃ (port : Fin 2) (m : Bytes) (n : Nat) (f : ManagerFlip) (s : State), s.FromMember 7 m n ∧ s.pln.flip = some f ∧
      f.committing = true ∧ f.id.toNat = beAt (planeText m) 0 2 ∧ f.participants.contains n = true ∧ f.done.contains n = false ∧
      s.now < f.instant) ∧
    (∃ (port : Fin 2) (m : Bytes) (s : State), s.FromPair 8 m) ∧
    (∃ (port : Fin 2) (m : Bytes) (n : Nat) (s : State), s.FromMember 9 m n) ∧
    (∃ (port : Fin 2) (m : Bytes) (n : Nat) (s : State), (s.FromPair 0xA m ∨ s.FromPair 0xB m) ∧ s.regsWf = true ∧
      ((s.pln.appliedFences.find? fun x => x.1 == planeSender m && x.2.1 == BitVec.ofNat 16 (beAt (planeText m) 0 2)) = some (planeSender m, BitVec.ofNat 16 (beAt (planeText m) 0 2), n))) ∧
    (∃ (port : Fin 2) (m : Bytes) (p : Nat) (s : State), s.FromPair 0xA m ∧ s.pln.appliedFences = [] ∧ s.regsWf = true ∧
      byteAt (planeText m) 2 = 3 ∧ beAt (planeText m) 4 2 % 2048 = p) ∧
    (∃ (port : Fin 2) (m : Bytes) (p : Nat) (s : State), s.FromPair 0xB m ∧ s.pln.appliedFences = [] ∧ s.regsWf = true ∧
      byteAt (planeText m) 2 = 3 ∧ beAt (planeText m) 4 2 % 2048 = p) ∧
    (∃ (port : Fin 2) (m : Bytes) (n : Nat) (s : State), s.FromMember 0xC m n) ∧
    (∃ (port : Fin 2) (m : Bytes) (n : Nat) (s : State), s.FromMember 0xD m n ∧ s.regsWf = true) ∧
    (∃ (port : Fin 2) (m : Bytes) (s : State), s.FromPair 0xE m ∧ s.role ≠ 3) ∧
    (∃ (port : Fin 2) (m : Bytes) (s : State), s.FromPair 0xE m ∧ s.role = 3 ∧ s.regsWf = true) :=
  ⟨⟨1, wPlnMsg 1 0x11 5 (List.replicate 16 0), wRun, by decide +kernel⟩,
   ⟨1, [1, 2, 3], wWorker, by decide +kernel⟩,
   ⟨1, wPlnMsg 1 0x11 4 (List.replicate 16 0), wWorker, by decide +kernel⟩,
   ⟨0, wPlnMsg 6 0x11 6 [0, 9], 6, wWorker, by decide +kernel⟩,
   ⟨0, wPlnMsg 6 0x22 6 [0, 9], 6, wManager, by decide +kernel⟩,
   ⟨0, wPlnMsg 1 0x33 6 (List.replicate 16 0), wWorker, by decide +kernel⟩,
   ⟨0, wPlnMsg 7 0x33 6 [0, 9, 0], 7, wWorker, by decide +kernel⟩,
   ⟨1, wPlnMsg 1 0x22 6 (List.replicate 16 0), wWorker, by decide +kernel⟩,
   ⟨1, wPlnMsg 1 0x22 6 (List.replicate 16 0), { wManager with pln.listening := true }, by decide +kernel⟩,
   ⟨1, wPlnMsg 1 0x22 6 (List.replicate 16 0), wFlipping wFlip, by decide +kernel⟩,
   ⟨1, wPlnMsg 1 0x22 5 (List.replicate 16 0), wManager, by decide +kernel⟩,
   ⟨1, wPlnMsg 2 0x33 5 (List.replicate 20 3), 3, wManager, by decide +kernel⟩,
   ⟨1, wPlnMsg 2 0x22 5 (List.replicate 20 3), wManager, by decide +kernel⟩,
   ⟨0, wPlnMsg 3 0x11 6 [0, 9, 1, 0, 0, 0, 0, 0], wWorker.setFld R.TIM_STATUS F.TIM_STATUS_EVER_LOCKED 1, by decide +kernel⟩,
   ⟨1, 0, 9, wManager, (wManager.participate 1 9 0).2, by decide +kernel⟩,
   ⟨0, wPlnMsg 4 0x33 6 (List.replicate 16 0), 3, wManager, by decide +kernel⟩,
   ⟨0, wPlnMsg 4 0x44 6 ([0, 9] ++ List.replicate 14 0), 4, wFlip, wFlipping wFlip, by decide +kernel⟩,
   ⟨0, wPlnMsg 4 0x33 6 ([0, 9, 0x12] ++ List.replicate 13 0), 3, wFlip, wFlipping wFlip, by decide +kernel⟩,
   ⟨0, wPlnMsg 4 0x33 6 ([0, 9] ++ List.replicate 14 0), 3, wFlip,
    { wFlipping wFlip with cfg.checks := [.mk .fwdEnable [] 0 0 0 0] }, by decide +kernel⟩,
   ⟨0, wPlnMsg 5 0x11 6 ([0, 9] ++ List.replicate 10 0), 1, 9, { wWorker with pln.prepared := some (1, 9, false) },
    by decide +kernel⟩,
   ⟨0, wPlnMsg 5 0x11 6 ([0, 9] ++ List.replicate 10 0), 0x12, { wWorker with pln.lastDone := some (9, 0x12) }, by decide +kernel⟩,
   ⟨0, wPlnMsg 5 0x11 6 ([0, 9] ++ List.replicate 10 0), wWorker, by decide +kernel⟩,
   ⟨0, wPlnMsg 6 0x11 6 [0, 9], 1, 9, false, { wWorker with pln.prepared := some (1, 9, false) }, by decide +kernel⟩,
   ⟨0, wPlnMsg 6 0x11 6 [0, 9], wWorker, by decide +kernel⟩,
   ⟨0, wPlnMsg 7 0x33 6 [0, 9, 0], 3, wManager, by decide +kernel⟩,
   ⟨0, wPlnMsg 7 0x33 6 [0, 9, 0], 3, wFlip, wFlipping wFlip, by decide +kernel⟩,
   ⟨0, wPlnMsg 7 0x33 6 [0, 9, 0], 3, { wFlip with committing := true, instant := 7 },
    wFlipping { wFlip with committing := true, instant := 7 }, by decide +kernel⟩,
   ⟨0, wPlnMsg 8 0x11 6 (List.replicate 32 1), wWorker, by decide +kernel⟩,
   ⟨0, wPlnMsg 9 0x33 6 (List.replicate 8 0), 3,
    { wManager with pln.circuits := [(3, List.replicate 32 0), (4, List.replicate 32 0)] }, by decide +kernel⟩,
   ⟨0, wPlnMsg 0xA 0x11 6 ([0, 7, 3] ++ List.replicate 13 0), 1, { wWorker with pln.appliedFences := [(0x11, 7, 1)] },
    by decide +kernel⟩,
   ⟨0, wPlnMsg 0xA 0x11 6 ([0, 7, 3, 0, 0, 12] ++ List.replicate 10 0), 12,
    { wPort 3 with board := wWorker.board, cfg := wWorker.cfg, regs := (wPort 3).regs ++ [(R.PLN_STATUS, F.PLN_STATUS_ROLE.put 1)] },
    by decide +kernel⟩,
   ⟨0, wPlnMsg 0xB 0x11 6 ([0, 7, 3, 0, 0, 12] ++ List.replicate 10 0), 12, wWorker.setBit (R.FWD_MCAST_EXCLUDE 0) 12 true,
    by decide +kernel⟩,
   ⟨0, wPlnMsg 0xC 0x33 6 [0, 7, 0, 1], 3,
    { wManager with pln.fences := [⟨7, 3, false, [0, 7, 1, 0]⟩, ⟨7, 4, false, [0, 7, 1, 0]⟩] }, by decide +kernel⟩,
   ⟨0, wPlnMsg 0xD 0x33 6 (List.replicate 24 0x0E), 3, wManager, by decide +kernel⟩,
   ⟨0, wPlnMsg 0xE 0x11 6 (List.replicate 4 0), wWorker, by decide +kernel⟩,
   ⟨0, wPlnMsg 0xE 0x11 6 ([1, 1, 0, 0, 0, 0, 0, 5] ++ List.replicate 16 0x81), wPlane 3 0x11 0, by decide +kernel⟩⟩

theorem witness_PlaneTimersAndFlips :
    (∃ (s : State), (s.planeAlive = false ∨ s.acting = false)) ∧
    (∃ (s : State), s.planeAlive = true ∧ s.acting = true) ∧
    (∃ (n : Nat) (s : State), s.planeAlive = true ∧ s.acting = true ∧ s.workers = [n] ∧ s.otherMember = 0) ∧
    (∃ (s : State), s.planeAlive = true ∧ s.acting = true ∧ s.otherMember = 0) ∧
    (∃ (s : State), s.planeAlive = true ∧ s.acting = true ∧ s.otherMember ≠ 0 ∧ s.heldList = []) ∧
    (∃ (s : State),
      (s.planeAlive = false ∨ s.follows = false ∨ s.pln.managerLost = true ∨ s.silent 1023 0 = false ∨ s.silent 1023 1 = false)) ∧
    (∃ (s : State), s.regsWf = true ∧ s.planeAlive = true ∧ s.follows = true ∧ s.pln.managerLost = false ∧
      s.silent 1023 0 = true ∧ s.silent 1023 1 = true) ∧
    (∃ (n : Fin 1023) (s : State),
      (s.planeAlive = false ∨ s.acting = false ∨ s.workerId n = 0 ∨ s.workerState n = 2 ∨ s.silent n 0 = false ∨ s.silent n 1 = false)) ∧
    (∃ (n : Fin 1023) (s : State), s.regsWf = true ∧ s.planeAlive = true ∧ s.acting = true ∧ s.workerId n ≠ 0 ∧
      s.workerState n ≠ 2 ∧ s.silent n 0 = true ∧ s.silent n 1 = true) ∧
    (∃ (port : Fin 2) (n : BitVec 10) (s : State),
      (s.planeAlive = false ∨ (s.follows = true ∧ n ≠ 1023) ∨ s.silent n.toNat port = false ∨ s.silent n.toNat (1 - port.val) = true ∨ s.pln.lostPaths.contains (heardKey n.toNat port) = true)) ∧
    (∃ (port : Fin 2) (s : State), s.regsWf = true ∧ s.planeAlive = true ∧ s.follows = true ∧ s.silent 1023 port = true ∧
      s.silent 1023 (1 - port.val) = false ∧ s.pln.lostPaths.contains (heardKey 1023 port) = false) ∧
    (∃ (port : Fin 2) (n : BitVec 10) (s : State), s.regsWf = true ∧ s.planeAlive = true ∧ s.acting = true ∧
      s.idOf n.toNat ≠ 0 ∧ n ≠ 1023 ∧ s.silent n.toNat port = true ∧ s.silent n.toNat (1 - port.val) = false ∧
      s.pln.lostPaths.contains (heardKey n.toNat port) = false ∧ s.heardLately n.toNat (1 - port.val) = true) ∧
    (∃ (s : State), (s.pln.listening = false ∨ s.role ≠ 2)) ∧
    (∃ (s : State), s.regsWf = true ∧ s.pln.listening = true ∧ s.role = 2 ∧ s.pln.heardManager = false) ∧
    (∃ (s : State), s.regsWf = true ∧ s.pln.listening = true ∧ s.role = 2 ∧ s.pln.heardManager = true) ∧
    (∃ (force : Bool) (s : State), s.regsWf = true ∧
      (s.cfld R.PLN_CFG F.PLN_CFG_ROLE ≠ 3 ∨ (force = false ∧ (s.heardLately 1023 0 = true ∨ s.heardLately 1023 1 = true)))) ∧
    (∃ (force : Bool) (s : State), s.regsWf = true ∧ s.cfld R.PLN_CFG F.PLN_CFG_ROLE = 3 ∧
      (force = true ∨ (s.heardLately 1023 0 = false ∧ s.heardLately 1023 1 = false))) ∧
    (∃ (kind : BitVec 2) (fromEpoch : BitVec 32) (s : State), s.regsWf = true ∧
      (s.acting = false ∨ s.pln.flip.isSome = true ∨ s.hasLocked = false ∨ (s.workers.filter fun n => s.workerState n == 1) = [] ∨ kind = 0 ∨ kind = 3)) ∧
    (∃ (kind : BitVec 2) (fromEpoch : BitVec 32) (n : Nat) (s : State), s.regsWf = true ∧ s.acting = true ∧ s.pln.flip = none ∧
      s.hasLocked = true ∧ ((s.workers.filter fun n => s.workerState n == 1) = [n]) ∧ kind = 1 ∧ s.epoch = fromEpoch.toNat ∧
      s.eflipRules true = 0 ∧ s.pln.prepared = none) ∧
    (∃ (s : State), s.pln.flip = none) ∧
    (∃ (f : ManagerFlip) (s : State), s.pln.flip = some f ∧ (f.committing = true ∨ s.planeAlive = false)) ∧
    (∃ (f : ManagerFlip) (n : Nat) (s : State), s.pln.flip = some f ∧ f.committing = false ∧ s.planeAlive = true ∧
      f.participants = [n, 1023] ∧ n < 1023 ∧ ((f.ready.any fun x => x.1 == n) = false)) ∧
    (∃ (f : ManagerFlip) (s : State), s.pln.flip = some f ∧ (f.committing = true ∨ s.mono < f.startedAt + 100000000)) ∧
    (∃ (f : ManagerFlip) (n : Nat) (s : State), s.regsWf = true ∧ s.pln.flip = some f ∧ f.committing = false ∧
      f.startedAt + 100000000 ≤ s.mono ∧ f.participants = [n, 1023] ∧ n < 1023 ∧ ((f.ready.any fun x => x.1 == n) = false)) ∧
    (∃ (f : ManagerFlip) (s : State), s.pln.flip = some f ∧ (f.committing = false ∨ f.instant ≤ s.now ∨ s.planeAlive = false)) ∧
    (∃ (f : ManagerFlip) (n : Nat) (s : State), s.pln.flip = some f ∧ f.committing = true ∧ s.now < f.instant ∧
      s.planeAlive = true ∧ f.participants = [n, 1023] ∧ n < 1023 ∧ f.done.contains n = false) ∧
    (∃ (f : ManagerFlip) (s : State), s.pln.flip = some f ∧ (f.committing = false ∨ s.now < f.instant + 100000000)) ∧
    (∃ (f : ManagerFlip) (s : State), s.regsWf = true ∧ s.pln.flip = some f ∧ f.committing = true ∧
      f.instant + 100000000 ≤ s.now) ∧
    (∃ (load : BitVec 8) (s : State), s.regsWf = true) :=
  ⟨⟨wWorker, by decide +kernel⟩,
   ⟨wManager, by decide +kernel⟩,
   ⟨3, { wManager with cfg.committed := [(R.PLN_CFG, F.PLN_CFG_ROLE.put 2 ||| F.PLN_CFG_PLANE.put 7), (R.PLN_WORKER_ID 3, 0x33)] },
    by decide +kernel⟩,
   ⟨{ wManager with cfg.committed := [(R.PLN_CFG, F.PLN_CFG_ROLE.put 2 ||| F.PLN_CFG_PLANE.put 7), (R.PLN_WORKER_ID 3, 0x33)] },
    by decide +kernel⟩,
   ⟨{ wManager with pln.fenceTimes := [0, 5] }, by decide +kernel⟩,
   ⟨wManager, by decide +kernel⟩,
   ⟨{ wWorker with pln.prepared := some (1, 9, false) }, by decide +kernel⟩,
   ⟨5, wManager, by decide +kernel⟩,
   ⟨3, wManager, by decide +kernel⟩,
   ⟨0, 3, wWorker, by decide +kernel⟩,
   ⟨0, { wWorker with pln.heard := [(heardKey 1023 1, 900000000)] }, by decide +kernel⟩,
   ⟨0, 3, { wManager with pln.heard := [(heardKey 3 1, 900000000)] }, by decide +kernel⟩,
   ⟨wManager, by decide +kernel⟩,
   ⟨{ wManager with pln.listening := true }, by decide +kernel⟩,
   ⟨{ wManager with pln.listening := true, pln.heardManager := true }, by decide +kernel⟩,
   ⟨true, wWorker, by decide +kernel⟩,
   ⟨true, { wPlane 3 0x11 0 with pln.heard := [(heardKey 1023 1, 900000000)] }, by decide +kernel⟩,
   ⟨1, 5, wManager, by decide +kernel⟩,
   ⟨1, 0, 3, { wFlipping wFlip with pln.flip := none }, by decide +kernel⟩,
   ⟨wManager, by decide +kernel⟩,
   ⟨{ wFlip with committing := true }, wFlipping { wFlip with committing := true }, by decide +kernel⟩,
   ⟨wFlip, 3, wFlipping wFlip, by decide +kernel⟩,
   ⟨{ wFlip with startedAt := 900000001 }, wFlipping { wFlip with startedAt := 900000001 }, by decide +kernel⟩,
   ⟨wFlip, 3, { wFlipping wFlip with pln.prepared := some (1, 9, false) }, by decide +kernel⟩,
   ⟨{ wFlip with committing := true, instant := 0 }, wFlipping { wFlip with committing := true, instant := 0 }, by decide +kernel⟩,
   ⟨{ wFlip with committing := true, instant := 7 }, 3, wFlipping { wFlip with committing := true, instant := 7 },
    by decide +kernel⟩,
   ⟨wFlip, wFlipping wFlip, by decide +kernel⟩,
   ⟨{ wFlip with committing := true, done := [1023] },
    { wFlipping { wFlip with committing := true, done := [1023] } with tim.base := unitsTs (100000000 * 65536) },
    by decide +kernel⟩,
   ⟨90, wWorker, by decide +kernel⟩⟩

theorem witness_Fences :
    (∃ (req : Word) (target : Word) (s : State), s.regsWf = true ∧ s.acting = false) ∧
    (∃ (req : Word) (target : Word) (s : State), s.regsWf = true ∧ s.acting = true ∧
      (F.PLN_FENCE_REQ_KIND.get req = 0 ∨ (F.PLN_FENCE_REQ_KIND.get req ≠ 2 ∧ s.workerOf target = none))) ∧
    (∃ (req : Word) (target : Word) (n : Nat) (unfence : Bool) (s : State), s.regsWf = true ∧ s.acting = true ∧
      (F.PLN_FENCE_REQ_KIND.get req = 1 ∨ F.PLN_FENCE_REQ_KIND.get req = 3) ∧ s.workerOf target = some n ∧
      unfence = decide (F.PLN_FENCE_REQ_UNFENCE.get req = 1) ∧
      (unfence = true ∨ F.PLN_FENCE_REQ_AUTOMATED.get req = 0 ∨ s.inWindow.length < s.cfld R.PLN_BUDGET F.PLN_BUDGET_COUNT)) ∧
    (∃ (req : Word) (target : Word) (s : State), s.regsWf = true ∧ s.acting = true ∧ F.PLN_FENCE_REQ_KIND.get req = 2 ∧
      F.PLN_FENCE_REQ_AUTOMATED.get req = 0 ∧ F.PLN_FENCE_REQ_UNFENCE.get req = 0) ∧
    (∃ (req : Word) (target : Word) (k : Nat) (n : Nat) (s : State), s.regsWf = true ∧ s.acting = true ∧
      F.PLN_FENCE_REQ_KIND.get req = 1 ∧ s.workerOf target = some k ∧ F.PLN_FENCE_REQ_UNFENCE.get req = 0 ∧
      F.PLN_FENCE_REQ_AUTOMATED.get req = 1 ∧ s.cfld R.PLN_BUDGET F.PLN_BUDGET_COUNT ≤ s.inWindow.length ∧
      ((List.range 64).find? (fun n => !s.flag (R.PLN_HELD n) F.PLN_HELD_VALID) = some n)) ∧
    (∃ (req : Word) (target : Word) (k : Nat) (s : State), s.regsWf = true ∧ s.acting = true ∧
      F.PLN_FENCE_REQ_KIND.get req = 1 ∧ s.workerOf target = some k ∧ F.PLN_FENCE_REQ_UNFENCE.get req = 0 ∧
      F.PLN_FENCE_REQ_AUTOMATED.get req = 1 ∧ s.cfld R.PLN_BUDGET F.PLN_BUDGET_COUNT ≤ s.inWindow.length ∧
      ((List.range 64).find? (fun n => !s.flag (R.PLN_HELD n) F.PLN_HELD_VALID) = none)) ∧
    (∃ (cancel : Bool) (ticket : BitVec 6) (s : State), s.regsWf = true ∧
      (s.acting = false ∨ s.flag (R.PLN_HELD ticket.toNat) F.PLN_HELD_VALID = false)) ∧
    (∃ (ticket : BitVec 6) (s : State), s.regsWf = true ∧ s.acting = true ∧
      s.flag (R.PLN_HELD ticket.toNat) F.PLN_HELD_VALID = true) ∧
    (∃ (ticket : BitVec 6) (n : Nat) (s : State), s.regsWf = true ∧ s.acting = true ∧
      s.flag (R.PLN_HELD ticket.toNat) F.PLN_HELD_VALID = true ∧ s.fld (R.PLN_HELD ticket.toNat) F.PLN_HELD_KIND = 1 ∧
      s.workerOf (s.rd (R.PLN_HELD_ID ticket.toNat)) = some n) ∧
    (∃ (handed : List CircuitMsg) (s : State), (s.planeAlive = false ∨ s.acting = false)) ∧
    (∃ (handed : List CircuitMsg) (s : State), s.planeAlive = true ∧ s.acting = true) ∧
    (∃ (x : PendingFence) (s : State), s.planeAlive = true ∧ s.acting = true ∧ s.pln.fences = [x] ∧ s.pln.circuits = []) :=
  ⟨⟨F.PLN_FENCE_REQ_TAG.put 77 ||| F.PLN_FENCE_REQ_KIND.put 1, 0x33, wWorker, by decide +kernel⟩,
   ⟨0, 0x99, wManager, by decide +kernel⟩,
   ⟨F.PLN_FENCE_REQ_KIND.put 1 ||| F.PLN_FENCE_REQ_TAG.put 5, 0x33, 3, false, { wManager with pln.fenceTimes := [0] },
    by decide +kernel⟩,
   ⟨F.PLN_FENCE_REQ_KIND.put 2, 0x99, wManager, by decide +kernel⟩,
   ⟨F.PLN_FENCE_REQ_KIND.put 1 ||| F.PLN_FENCE_REQ_AUTOMATED.put 1, 0x33, 3, 0,
    { wManager with cfg.committed := wManager.cfg.committed ++ [(R.PLN_BUDGET, 0)] }, by decide +kernel⟩,
   ⟨F.PLN_FENCE_REQ_KIND.put 1 ||| F.PLN_FENCE_REQ_AUTOMATED.put 1, 0x33, 3, wHeldAll, by decide +kernel⟩,
   ⟨false, 5, wManager, by decide +kernel⟩,
   ⟨5, wManager.setFld (R.PLN_HELD 5) F.PLN_HELD_VALID 1, by decide +kernel⟩,
   ⟨5, 3, (wManager.wr (R.PLN_HELD 5) (F.PLN_HELD_VALID.put 1 ||| F.PLN_HELD_KIND.put 1)).wr (R.PLN_HELD_ID 5) 0x33,
    by decide +kernel⟩,
   ⟨[], wWorker, by decide +kernel⟩,
   ⟨[⟨3, 1, 2, 3, 4⟩], { wManager with pln.fences := [⟨7, 3, false, [0, 7, 1, 0]⟩] }, by decide +kernel⟩,
   ⟨⟨7, 3, false, [0, 7, 1, 0]⟩, { wManager with pln.fences := [⟨7, 3, false, [0, 7, 1, 0]⟩] }, by decide +kernel⟩⟩

theorem witness_LedgerCommitsAndLife :
    (∃ (s : State), s.regsWf = true ∧ s.ldg.busy = true) ∧
    (∃ (s : State), s.regsWf = true ∧ s.ldg.busy = false) ∧
    (∃ (s : State), s.cfg.wellheadDown = true) ∧
    (∃ (s : State), s.regsWf = true ∧ s.cfg.wellheadDown = false ∧ 2 ≤ s.fld R.PLN_WH_LOAD F.PLN_WH_LOAD_LEVEL ∧
      s.ldg.busy = false) ∧
    (∃ (s : State), s.regsWf = true ∧ (swf (fun _ => 0) s.ldg.live = true) ∧ s.cfg.wellheadDown = false ∧
      s.fld R.PLN_WH_LOAD F.PLN_WH_LOAD_LEVEL < 2 ∧ s.ldg.busy = false) ∧
    (∃ (ok : Bool) (s : State), s.ldg.busy = false) ∧
    (∃ (s : State), s.regsWf = true ∧ s.ldg.busy = true) ∧
    (∃ (s : State), s.regsWf = true ∧ s.ldg.busy = true ∧ (swf (fun _ => 0) s.ldg.live = true) ∧
      s.flag R.MEM_CTRL F.MEM_CTRL_AREAS_ENABLE = false ∧ s.ldg? 48 8 + s.ldg.buffer.length < 2 ^ 64 ∧
      s.ldg? 48 8 + s.ldg.buffer.length ≤ s.ldg? 56 8 + 2064384) ∧
    (∃ (x : Nat) (s : State), x ≠ 0 ∧ (swf (fun _ => 0) s.ldg.journal = true) ∧ s.regsWf = true ∧ s.ldg.busy = true ∧
      (swf (fun _ => 0) s.ldg.live = true) ∧ s.flag R.MEM_CTRL F.MEM_CTRL_AREAS_ENABLE = false ∧ s.ldg.buffer = [x]) ∧
    (∃ (s : State), s.board.pwrGood = false) ∧
    (∃ (s : State), s.board.pwrGood = true ∧ (swf (fun _ => 0) s.ldg.live = true)) ∧
    (∃ (s : State), s.lifeS % 3600 ≠ 0) ∧
    (∃ (s : State), s.lifeS % 3600 = 0 ∧ s.ldg.buffer.length < 2048 ∧ s.ldg.laserHour = [] ∧ s.ldg.memHour = []) ∧
    (∃ (u : Nat) (n : Nat) (s : State), u < 16 ∧ n ≠ 0 ∧ s.lifeS % 3600 = 0 ∧ s.ldg.buffer.length < 2047 ∧
      s.ldg.laserHour = [] ∧ s.ldg.memHour = [(u, n)]) :=
  ⟨⟨wLedger, by decide +kernel⟩,
   ⟨wRun, by decide +kernel⟩,
   ⟨{ wRun with cfg.wellheadDown := true }, by decide +kernel⟩,
   ⟨wRun.setFld R.PLN_WH_LOAD F.PLN_WH_LOAD_LEVEL 2, by decide +kernel⟩,
   ⟨wRun, by decide +kernel⟩,
   ⟨true, wRun, by decide +kernel⟩,
   ⟨wLedger, by decide +kernel⟩,
   ⟨wLedger, by decide +kernel⟩,
   ⟨0x501, wLedger, by decide +kernel⟩,
   ⟨{ wRun with board.pwrGood := false }, by decide +kernel⟩,
   ⟨{ (wBay 3 2).setFld (R.OPT_STATUS 5) F.OPT_STATUS_STATE 2 with ldg.live := [(16, 255), (17, 255)] }, by decide +kernel⟩,
   ⟨{ wRun with ldg.live := [(16, 1)] }, by decide +kernel⟩,
   ⟨{ wRun.setFld R.LDG_HEALTH F.LDG_HEALTH_SCORE 999 with ldg.live := [(16, 16), (17, 14)] }, by decide +kernel⟩,
   ⟨3, 70000, { wRun with ldg.memHour := [(3, 70000)] }, by decide +kernel⟩⟩

theorem witness_CountersAndSnapshots :
    (∃ (block : BitVec 8) (index : Nat) (s : State),
      ((ctrBlocks.any fun b => b.id == block.toNat && decide (index < b.counters)) = false)) ∧
    (∃ (block : BitVec 8) (index : Nat) (c : Counter) (s : State),
      ((ctrBlocks.any fun b => b.id == block.toNat && decide (index < b.counters)) = true) ∧
      (swf (fun _ => {}) s.cnt.counters = true) ∧ sget {} s.cnt.counters (ctrKey block.toNat index) = c) ∧
    (∃ (notify : Bool) (s : State), s.regsWf = true ∧ (s.snapState = 1 ∨ s.cnt.building.isSome = true)) ∧
    (∃ (notify : Bool) (s : State), s.regsWf = true ∧ s.snapState ≠ 1 ∧ s.cnt.building = none ∧
      (swf (fun _ => {}) s.cnt.counters = true)) ∧
    (∃ (notify : Bool) (instant : Word) (s : State), s.regsWf = true ∧
      (s.snapState ≠ 0 ∨ s.cnt.building.isSome = true ∨ s.snapInstantOk instant = false)) ∧
    (∃ (notify : Bool) (instant : Word) (s : State), s.regsWf = true ∧ s.snapState = 0 ∧ s.cnt.building = none ∧
      s.snapInstantOk instant = true) ∧
    (∃ (notify : Bool) (instant : Word) (periodMs : BitVec 32) (s : State), s.regsWf = true ∧
      (s.snapState ≠ 0 ∨ s.cnt.building.isSome = true ∨ s.snapInstantOk instant = false ∨ periodMs.toNat < 10 ∨ 3600000 < periodMs.toNat)) ∧
    (∃ (notify : Bool) (instant : Word) (periodMs : BitVec 32) (s : State), s.regsWf = true ∧ s.snapState = 0 ∧
      s.cnt.building = none ∧ s.snapInstantOk instant = true ∧ 10 ≤ periodMs.toNat ∧ periodMs.toNat ≤ 3600000) ∧
    (∃ (s : State), s.regsWf = true ∧ s.snapState ≠ 1 ∧ s.cnt.building = none) ∧
    (∃ (s : State), s.regsWf = true ∧ (s.snapState = 1 ∨ s.cnt.building.isSome = true)) ∧
    (∃ (s : State), (s.snapState = 0 ∨ s.now < s.cnt.nextAt)) ∧
    (∃ (s : State), s.regsWf = true ∧ (s.snapState = 1 ∨ (s.snapState = 2 ∧ s.cnt.building = none)) ∧ s.cnt.nextAt ≤ s.now ∧
      (swf (fun _ => {}) s.cnt.counters = true)) ∧
    (∃ (s : State), s.regsWf = true ∧ s.snapState = 2 ∧ s.cnt.building.isSome = true ∧ s.cnt.nextAt ≤ s.now) ∧
    (∃ (s : State), s.cnt.building = none) ∧
    (∃ (n : Snap) (s : State), s.regsWf = true ∧ s.cnt.building = some n ∧
      (n.periodic = false ∨ s.fld R.CNT_HISTORY F.CNT_HISTORY_EVERY = 0)) ∧
    (∃ (n : Snap) (r : Nat) (size : Nat) (s : State), s.regsWf = true ∧ s.cnt.building = some n ∧ n.periodic = true ∧
      n.notify = false ∧ s.fld R.CNT_HISTORY F.CNT_HISTORY_EVERY = 1 ∧ s.flag R.MEM_CTRL F.MEM_CTRL_AREAS_ENABLE = true ∧
      s.cfg.wellheadDown = false ∧ s.fld R.PLN_WH_LOAD F.PLN_WH_LOAD_LEVEL < 2 ∧ r = s.fld R.CNT_HISTORY F.CNT_HISTORY_RECORDS ∧
      size = s.fld R.MEM_HISTORY_SIZE F.MEM_HISTORY_SIZE_VALUE / 1548288 ∧ 0 < size) ∧
    (∃ (block : BitVec 8) (s : State), s.regsWf = true ∧ (swf (fun _ => {}) s.cnt.counters = true)) ∧
    (∃ (dest : Word) (first : BitVec 12) (count : BitVec 12) (s : State), s.cnt.copying.isSome = true) ∧
    (∃ (dest : Word) (first : BitVec 12) (count : BitVec 12) (s : State), s.regsWf = true ∧ s.cnt.copying = none) ∧
    (∃ (s : State), s.cnt.copying = none) ∧
    (∃ (dest : Word) (first : Nat) (count : Nat) (s : State), s.regsWf = true ∧ s.cnt.copying = some (dest, first, count) ∧
      F.CNT_COPY_HOST.get dest = 1 ∧ first + count ≤ 4064) ∧
    (∃ (dest : Word) (first : Nat) (count : Nat) (s : State), s.regsWf = true ∧ s.cnt.copying = some (dest, first, count) ∧
      F.CNT_COPY_HOST.get dest = 0) :=
  ⟨⟨12, 0, wCounters, by decide +kernel⟩,
   ⟨2, 5, { value := 2 ^ 48 - 1, acc := 3 }, wCounters, by decide +kernel⟩,
   ⟨true, { wCounters with cnt.building := some {} }, by decide +kernel⟩,
   ⟨true, wCounters, by decide +kernel⟩,
   ⟨true, 99999, wCounters, by decide +kernel⟩,
   ⟨true, 100000, wCounters, by decide +kernel⟩,
   ⟨true, 100000, 9, wCounters, by decide +kernel⟩,
   ⟨true, 100000, 10, wCounters, by decide +kernel⟩,
   ⟨wCounters.setFld R.CNT_SNAP_STATUS F.CNT_SNAP_STATUS_STATE 2, by decide +kernel⟩,
   ⟨wCounters.setFld R.CNT_SNAP_STATUS F.CNT_SNAP_STATUS_STATE 1, by decide +kernel⟩,
   ⟨wCounters, by decide +kernel⟩,
   ⟨wCounters.setFld R.CNT_SNAP_STATUS F.CNT_SNAP_STATUS_STATE 1, by decide +kernel⟩,
   ⟨{ wCounters.setFld R.CNT_SNAP_STATUS F.CNT_SNAP_STATUS_STATE 2 with cnt.periodMs := 10, cnt.building := some {} },
    by decide +kernel⟩,
   ⟨wCounters, by decide +kernel⟩,
   ⟨{ frozenAt := 5, notify := true }, { wCounters with cnt.building := some { frozenAt := 5, notify := true } }, by decide +kernel⟩,
   ⟨{ periodic := true }, 0, 1,
    { (((wCounters.setFld R.CNT_HISTORY F.CNT_HISTORY_EVERY 1).setFld R.MEM_CTRL F.MEM_CTRL_AREAS_ENABLE 1).wr R.MEM_HISTORY_BASE 0x200000).wr R.MEM_HISTORY_SIZE 0x200000 with cnt.building := some { periodic := true } },
    by decide +kernel⟩,
   ⟨2, { wRun with cnt.counters := [(ctrKey 2 5, { value := 1, wrap := true }), (ctrKey 3 5, { lower := true })] },
    by decide +kernel⟩,
   ⟨0, 0, 1, { wCounters with cnt.copying := some (0, 0, 1) }, by decide +kernel⟩,
   ⟨0x8000000000010000, 5, 2, wCounters, by decide +kernel⟩,
   ⟨wCounters, by decide +kernel⟩,
   ⟨F.CNT_COPY_HOST.put 1 ||| F.CNT_COPY_ADDR.put 0x10000, 5, 2,
    { wCounters with cnt.copying := some (F.CNT_COPY_HOST.put 1 ||| F.CNT_COPY_ADDR.put 0x10000, 5, 2) }, by decide +kernel⟩,
   ⟨F.CNT_COPY_ADDR.put 0x10000, 5, 2,
    { wCounters with cnt.copying := some (F.CNT_COPY_ADDR.put 0x10000, 5, 2), cnt.published := { seq := 1 } }, by decide +kernel⟩⟩

end Sys2Proof.Tests
end

section
/-! PROOF. A power-fail warning (spec/01 R25, R41, Table 1.12): what raises one, and what one leaves of a module whose always-on
rails have power. -/

namespace Sys2Proof.Proofs
open Sys2Proof Sys2Proof.Machine

/-! ## What stopping work and a due commit change -/

@[simp] theorem shed_dxn (s : State) : s.shed.dxn = {} := by rw [s.shed_frame]

@[simp] theorem shed_mem (s : State) : s.shed.mem = s.mem := by rw [s.shed_frame]

/-- A commit that falls due changes registers, and of the Ledger whether one is under way and whether another follows it. -/
theorem commitLedger_frame (s : State) : s.commitLedger =
    { s with regs := s.commitLedger.regs
             ldg := { s.ldg with busy := true, again := s.ldg.busy || s.ldg.again } } := by
  unfold State.commitLedger
  cases hbusy : s.ldg.busy
  · simp [State.setFld, State.wr]
  · simp [← hbusy]

@[simp] theorem commitLedger_board (s : State) : s.commitLedger.board = s.board := by rw [commitLedger_frame]

@[simp] theorem commitLedger_dxn (s : State) : s.commitLedger.dxn = s.dxn := by rw [commitLedger_frame]

@[simp] theorem commitLedger_mem (s : State) : s.commitLedger.mem = s.mem := by rw [commitLedger_frame]

@[simp] theorem commitLedger_busy (s : State) : s.commitLedger.ldg.busy = true := by rw [commitLedger_frame]

@[simp] theorem commitLedger_fromPfail (s : State) : s.commitLedger.ldg.fromPfail = s.ldg.fromPfail := by rw [commitLedger_frame]

/-! ## A warning -/

/-- Once the always-on rails have power, and until a sequence that ends in conversion's stop begins, a warning sheds the load,
lowers PWR_GOOD and makes a commit of the Ledger due. -/
theorem powerFail_of_powered (s : State)
    (hplace : s.board.place = .alwaysOn ∨ s.board.place = .running ∨ s.board.place = .moduleReset) : s.powerFail =
      ({ s.shed with board.place := .powerFail, board.pwrGood := false, ldg.fromPfail := true }).commitLedger := by
  obtain halways | hrun | hreset := hplace
  · simp only [State.powerFail, halways]
  · simp only [State.powerFail, hrun]
  · simp only [State.powerFail, hreset]

theorem powerFail_effect (s : State)
    (hplace : s.board.place = .alwaysOn ∨ s.board.place = .running ∨ s.board.place = .moduleReset) :
    s.powerFail.board.place = .powerFail ∧ s.powerFail.board.pwrGood = false ∧ s.powerFail.ldg.busy = true ∧
      s.powerFail.ldg.fromPfail = true ∧ s.powerFail.dxn = {} ∧ s.powerFail.mem = s.mem := by
  simp [powerFail_of_powered s hplace]

/-! ## What raises one -/

theorem exec_bladePairLoss (pair : Fin 2) (s : State) : exec (.bladePairLoss pair) s =
    .next (if pair = 0 then { s with board.pairA := false } else { s with board.pairB := false }).powerFail := rfl

theorem exec_inputSagDetect (s : State) : exec .inputSagDetect s = .next s.powerFail := rfl

theorem exec_pairShareTimeout (share : BitVec 8) (s : State) : exec (.pairShareTimeout share) s =
    if share.toNat < 40 ∨ 60 < share.toNat then .next (s.setFld R.PWR_STATUS F.PWR_STATUS_SHARE_A share.toNat).powerFail
    else .next s := rfl

/-- Before PWR_GOOD is high PFAIL_N reads its pull-up (spec/01 R30). -/
theorem exec_pfailNLow (s : State) : exec .pfailNLow s =
    .next (if s.board.pwrGood then { s with board.pfailN := false }.powerFail else s) := rfl

/-- Power-up begins only where the module is off and the trip latch is clear; it finds both blade pairs present. -/
theorem exec_powerUp_of_off (s : State) (hoff : s.board.place = .off) (htrip : s.board.tripLatch = false) : exec .powerUp s =
    .next { s with board.place := .charging, board.pairA := true, board.pairB := true, board.pwrEn := true } :=
  congrArg _ (if_pos ⟨hoff, htrip⟩)

/-- Settles O8: every cause leads to the one warning `State.powerFail`, and `powerFail_effect` says what that does. -/
theorem powerFail : Obligations.PowerFail := by
  unfold Obligations.PowerFail
  refine ⟨exec_bladePairLoss, ?outside, ?inside, ?start, powerFail_effect, exec_inputSagDetect, ?pfailN⟩
  case outside =>
    intro share s hout
    rw [exec_pairShareTimeout, if_pos hout]
  case inside =>
    intro share s hlow hhigh
    rw [exec_pairShareTimeout, if_neg (by omega)]
  case start =>
    intro s hoff htrip
    exact ⟨_, exec_powerUp_of_off s hoff htrip, rfl, rfl, rfl⟩
  case pfailN =>
    intro s hgood
    rw [exec_pfailNLow, if_pos hgood]

end Sys2Proof.Proofs
end

section
/-! PROOF. Host writes of device memory (spec/13 R367): what a write of device memory does to each byte, to the marks of poisoned
lines and to registers, and what that gives for a whole line and for the bytes that a mask names. -/

namespace Sys2Proof.Proofs
open Sys2Proof Sys2Proof.Machine

/-! ## Parts of a byte string -/

@[simp] theorem slice_length (b : Bytes) (i n : Nat) : (slice b i n).length = n := by
  simp only [slice, List.length_append, List.length_take, List.length_drop, List.length_replicate]
  omega

/-- Beyond the end of the string a part reads 0, as the string itself does. -/
theorem slice_getD (b : Bytes) {i n k : Nat} (h : k < n) : (slice b i n).getD k 0 = b.getD (i + k) 0 := by
  simp only [slice, List.getD_eq_getElem?_getD, List.getElem?_append, List.getElem?_replicate, List.getElem?_take,
    List.getElem?_drop, List.length_take, List.length_drop]
  by_cases hk : i + k < b.length
  · rw [if_pos (by omega), if_pos h]
  · rw [if_neg (by omega), List.getElem?_eq_none (by omega)]
    split <;> rfl

/-! ## Runs of lines -/

theorem runsHave_cons (l : Nat) (x : Nat × Nat) (t : List (Nat × Nat)) :
    runsHave l (x :: t) = (decide (x.1 ≤ l ∧ l < x.2) || runsHave l t) := by simp [runsHave]

theorem runsHave_append (l : Nat) (r t : List (Nat × Nat)) : runsHave l (r ++ t) = (runsHave l r || runsHave l t) :=
  List.any_append

/-- A line that was taken out is in no run. -/
theorem runsHave_runsDel_of_mem {l a b : Nat} (h : a ≤ l ∧ l < b) (r : List (Nat × Nat)) :
    runsHave l (runsDel a b r) = false := by
  induction r with
  | nil => rfl
  | cons x t ih =>
    obtain ⟨x, y⟩ := x
    have hlow : runsHave l (if x < a then [(x, a)] else []) = false := by split <;> simp [runsHave]; omega
    have hhigh : runsHave l (if b < y then [(b, y)] else []) = false := by split <;> simp [runsHave]; omega
    unfold runsDel
    split
    · rw [runsHave_cons, ih, Bool.or_false, decide_eq_false]
      omega
    · rw [runsHave_append, runsHave_append, hlow, hhigh, ih]; rfl

/-! ## Waking the bays of memory -/

theorem memBays_lt {a n b : Nat} (h : b ∈ memBays a n) : b < 50 := by
  unfold memBays at h
  split at h
  · simp at h
  · split at h
    · obtain ⟨k, -, rfl⟩ := List.mem_map.1 h
      omega
    · obtain rfl := List.mem_singleton.1 h
      omega

theorem wakeBay_rd_of_ne (s : State) {n o : Nat} (h : o ≠ R.PWR_BAY_STATUS n) : (s.wakeBay n).rd o = s.rd o := by
  unfold State.wakeBay
  split
  · exact s.rd_setFld_of_ne _ _ h
  · rfl

theorem wakeBays_rd_of_ne (s : State) {l : List Nat} {o : Nat} (h : ∀ n ∈ l, o ≠ R.PWR_BAY_STATUS n) :
    (s.wakeBays l).rd o = s.rd o := by
  induction l generalizing s with
  | nil => rfl
  | cons n t ih =>
    calc ((s.wakeBay n).wakeBays t).rd o
      _ = (s.wakeBay n).rd o := ih _ fun m hm => h m (List.mem_cons_of_mem n hm)
      _ = s.rd o := wakeBay_rd_of_ne s (h n List.mem_cons_self)

theorem wakeBays_dxn (s : State) (l : List Nat) : (s.wakeBays l).dxn = s.dxn :=
  foldl_rel (fun s t : State => t.dxn = s.dxn) (fun _ => rfl) (fun _ _ _ h k => k.trans h) State.wakeBay
    (fun s n => by unfold State.wakeBay; split <;> rfl) l s

/-- Waking memory changes the registers of bays alone. -/
theorem memWake_regsBut (s : State) (a n : Nat) : s.RegsBut (s.memWake a n) ((List.range 50).map R.PWR_BAY_STATUS) :=
  fun _ ho => wakeBays_rd_of_ne s fun b hb hob =>
    ho (List.mem_map.2 ⟨b, List.mem_range.2 (memBays_lt hb), hob.symm⟩)

/-! ## Whether a stack failed training -/

theorem hbmStatus_not_mem_bayStatus (m : Nat) : R.MEM_HBM_STATUS m ∉ (List.range 50).map R.PWR_BAY_STATUS := by
  intro h
  obtain ⟨n, hn, he⟩ := List.mem_map.1 h
  have hlt := List.mem_range.1 hn
  unfold R.PWR_BAY_STATUS R.MEM_HBM_STATUS at he
  omega

theorem stackFailed_congr {s t : State} (h : s.RegsBut t ((List.range 50).map R.PWR_BAY_STATUS)) (a : Nat) :
    t.stackFailed a = s.stackFailed a := by
  rw [State.stackFailed, State.stackFailed, State.fld, State.fld, h _ (hbmStatus_not_mem_bayStatus _)]

/-- A line lies in one stack, or outside HBM. -/
theorem stackFailed_line (s : State) {a i : Nat} (ha : a % 64 = 0) (hi : i < 64) :
    s.stackFailed (a + i) = s.stackFailed a := by
  have hstack : (a + i) / hbmStack = a / hbmStack := by unfold hbmStack; omega
  have hhbm : isHbm (a + i) = isHbm a := by unfold isHbm hbmSize; rw [decide_eq_decide]; omega
  rw [State.stackFailed, State.stackFailed, hstack, hhbm]

/-! ## A write of device memory -/

theorem devWrite_regsBut (s : State) (a : Nat) (b : Bytes) :
    s.RegsBut (s.devWrite a b) ((List.range 50).map R.PWR_BAY_STATUS) := by
  rw [s.devWrite_frame]
  exact memWake_regsBut s a b.length

@[simp] theorem devWrite_dxn (s : State) (a : Nat) (b : Bytes) : (s.devWrite a b).dxn = s.dxn := by
  rw [s.devWrite_frame]
  exact wakeBays_dxn s _

@[simp] theorem devWrite_stackFailed (s : State) (a c : Nat) (b : Bytes) :
    (s.devWrite a b).stackFailed c = s.stackFailed c := stackFailed_congr (devWrite_regsBut s a b) c

/-- Every byte of memory after a write to memory that trained. -/
theorem devWrite_byte (s : State) (a k : Nat) (b : Bytes) (hwf : s.mem.wf = true) (htrained : s.stackFailed a = false) :
    (s.devWrite a b).byte k = if a ≤ k ∧ k < a + b.length then b.getD (k - a) 0 else s.byte k := by
  split
  case isTrue hk =>
    obtain ⟨i, rfl⟩ := Nat.exists_eq_add_of_le hk.1
    have hi : i < b.length := by omega
    have hwoken : (s.memWake a b.length).stackFailed a = false := by
      rw [stackFailed_congr (memWake_regsBut s a b.length), htrained]
    rw [State.byte, s.devWrite_inside a i b hwf hwoken hi, Nat.add_sub_cancel_left, List.getD_eq_getElem _ _ hi]
  case isFalse hk => exact s.devWrite_outside a k b (by omega)

/-- The marks after a write to memory that trained: the lines that it covers whole lose theirs. -/
theorem devWrite_poisoned (s : State) (a : Nat) (b : Bytes) (htrained : s.stackFailed a = false) :
    (s.devWrite a b).mem.poisoned =
      if (a + 63) / 64 < (a + b.length) / 64 then runsDel ((a + 63) / 64) ((a + b.length) / 64) s.mem.poisoned
      else s.mem.poisoned := by
  have hmem : (s.memWake a b.length).mem = s.mem := s.wakeBays_mem _
  have hwoken : (s.memWake a b.length).stackFailed a = false := by
    rw [stackFailed_congr (memWake_regsBut s a b.length), htrained]
  simp only [State.devWrite, hwoken, hmem, Bool.false_eq_true, if_false]

/-- A write of a whole line leaves it free of poison (spec/13 R367). -/
theorem devWrite_line_isPoisoned (s : State) {a : Nat} {b : Bytes} (ha : a % 64 = 0) (hb : b.length = 64)
    (htrained : s.stackFailed a = false) : (s.devWrite a b).isPoisoned a = false := by
  rw [State.isPoisoned, devWrite_poisoned s a b htrained, hb, if_pos (by omega)]
  exact runsHave_runsDel_of_mem (by omega) _

/-- A write of one byte covers no line whole. -/
theorem devWrite_single_poisoned (s : State) (a : Nat) {b : Bytes} (hb : b.length = 1) (htrained : s.stackFailed a = false) :
    (s.devWrite a b).mem.poisoned = s.mem.poisoned := by
  rw [devWrite_poisoned s a b htrained, hb, if_neg (by omega)]

/-! ## The bytes that a mask names -/

/-- One byte of a masked write: stored where the mask names it. -/
def maskedByte (a : Nat) (data : Bytes) (mask : BitVec 64) (s : State) (i : Nat) : State :=
  if mask.getLsbD i then s.devWrite (a + i) (slice data i 1) else s

theorem maskedWrite_eq_foldl (s : State) (a : Nat) (data : Bytes) (mask : BitVec 64) :
    s.maskedWrite a data mask = (List.range 64).foldl (maskedByte a data mask) s := rfl

section
variable {a : Nat} {data : Bytes} {mask : BitVec 64}

@[simp] theorem maskedByte_dxn (s : State) (i : Nat) : (maskedByte a data mask s i).dxn = s.dxn := by
  unfold maskedByte
  split
  · exact devWrite_dxn ..
  · rfl

theorem maskedByte_wf (s : State) (i : Nat) (hwf : s.mem.wf = true) : (maskedByte a data mask s i).mem.wf = true := by
  unfold maskedByte
  split
  · exact s.devWrite_wf _ _ hwf
  · exact hwf

@[simp] theorem maskedByte_stackFailed (s : State) (i c : Nat) :
    (maskedByte a data mask s i).stackFailed c = s.stackFailed c := by
  unfold maskedByte
  split
  · exact devWrite_stackFailed ..
  · rfl

/-- A bit of the mask that is set lies below 64, so its byte is one of the line's. -/
theorem stackFailed_named (s : State) {i : Nat} (ha : a % 64 = 0) (htrained : s.stackFailed a = false)
    (hi : mask.getLsbD i = true) : s.stackFailed (a + i) = false := by
  rw [stackFailed_line s ha (BitVec.lt_of_getLsbD hi), htrained]

theorem maskedByte_poisoned (s : State) (i : Nat) (ha : a % 64 = 0) (htrained : s.stackFailed a = false) :
    (maskedByte a data mask s i).mem.poisoned = s.mem.poisoned := by
  unfold maskedByte
  split
  case isTrue hi => exact devWrite_single_poisoned s _ (slice_length ..) (stackFailed_named s ha htrained hi)
  case isFalse => rfl

theorem maskedByte_byte (s : State) (i k : Nat) (ha : a % 64 = 0) (hwf : s.mem.wf = true)
    (htrained : s.stackFailed a = false) :
    (maskedByte a data mask s i).byte k = if k = a + i ∧ mask.getLsbD i = true then data.getD i 0 else s.byte k := by
  unfold maskedByte
  by_cases hi : mask.getLsbD i = true
  · rw [if_pos hi, devWrite_byte s _ _ _ hwf (stackFailed_named s ha htrained hi), slice_length]
    by_cases hk : k = a + i
    · rw [if_pos (by omega), if_pos ⟨hk, hi⟩, slice_getD _ (by omega), hk, Nat.sub_self, Nat.add_zero]
    · rw [if_neg (by omega), if_neg fun h => hk h.1]
  · rw [if_neg hi, if_neg fun h => hi h.2]

/-- Every byte of memory after the bytes of a list of places in the line have been stored in turn. -/
theorem foldl_maskedByte_byte (l : List Nat) (s : State) (k : Nat) (ha : a % 64 = 0) (hwf : s.mem.wf = true)
    (htrained : s.stackFailed a = false) :
    (l.foldl (maskedByte a data mask) s).byte k =
      if a ≤ k ∧ k - a ∈ l ∧ mask.getLsbD (k - a) = true then data.getD (k - a) 0 else s.byte k := by
  induction l generalizing s with
  | nil => simp
  | cons i t ih =>
    rw [List.foldl_cons, ih _ (maskedByte_wf s i hwf) (by simpa using htrained), maskedByte_byte s i k ha hwf htrained]
    by_cases hk : k = a + i
    · obtain rfl : i = k - a := by omega
      by_cases hi : mask.getLsbD (k - a) = true
      · have hle : a ≤ k := by omega
        simp [hk.symm, hi, hle]
      · simp [hi]
    · have hmem : a ≤ k ∧ k - a ∈ t ↔ a ≤ k ∧ k - a ∈ i :: t := by
        rw [List.mem_cons]
        exact and_congr_right fun hle => (or_iff_right (by omega)).symm
      simp only [hk, false_and, if_false, ← and_assoc, hmem]

theorem foldl_maskedByte_poisoned (l : List Nat) (s : State) (ha : a % 64 = 0) (htrained : s.stackFailed a = false) :
    (l.foldl (maskedByte a data mask) s).mem.poisoned = s.mem.poisoned := by
  induction l generalizing s with
  | nil => rfl
  | cons i t ih => rw [List.foldl_cons, ih _ (by simpa using htrained), maskedByte_poisoned s i ha htrained]

@[simp] theorem maskedWrite_dxn (s : State) : (s.maskedWrite a data mask).dxn = s.dxn :=
  foldl_rel (fun s t : State => t.dxn = s.dxn) (fun _ => rfl) (fun _ _ _ h k => k.trans h) (maskedByte a data mask)
    maskedByte_dxn _ s

theorem maskedWrite_byte (s : State) (k : Nat) (ha : a % 64 = 0) (hwf : s.mem.wf = true) (htrained : s.stackFailed a = false) :
    (s.maskedWrite a data mask).byte k =
      if a ≤ k ∧ mask.getLsbD (k - a) = true then data.getD (k - a) 0 else s.byte k := by
  rw [maskedWrite_eq_foldl, foldl_maskedByte_byte _ s k ha hwf htrained]
  have hplace : k - a ∈ List.range 64 ∧ mask.getLsbD (k - a) = true ↔ mask.getLsbD (k - a) = true :=
    and_iff_right_of_imp fun h => List.mem_range.2 (BitVec.lt_of_getLsbD h)
  simp only [hplace]

/-- A partial write leaves the poison of every line (spec/13 R367). -/
theorem maskedWrite_isPoisoned (s : State) (c : Nat) (ha : a % 64 = 0) (htrained : s.stackFailed a = false) :
    (s.maskedWrite a data mask).isPoisoned c = s.isPoisoned c := by
  rw [State.isPoisoned, maskedWrite_eq_foldl, foldl_maskedByte_poisoned _ s ha htrained, State.isPoisoned]

end

/-! ## The host takes a line -/

/-- Taking a line changes the snoop filter, and what is sent to the host of the line that leaves it. -/
theorem snoopInsert_frame (s : State) (line : Nat) :
    s.snoopInsert line = { s with host := (s.snoopInsert line).host, out := (s.snoopInsert line).out } := by
  unfold State.snoopInsert
  dsimp only
  split
  · rfl
  · split
    · rfl
    · split <;> rfl

@[simp] theorem snoopInsert_mem (s : State) (line : Nat) : (s.snoopInsert line).mem = s.mem := by rw [snoopInsert_frame]

@[simp] theorem snoopInsert_dxn (s : State) (line : Nat) : (s.snoopInsert line).dxn = s.dxn := by rw [snoopInsert_frame]

@[simp] theorem snoopInsert_regs (s : State) (line : Nat) : (s.snoopInsert line).regs = s.regs := by rw [snoopInsert_frame]

@[simp] theorem snoopInsert_rd (s : State) (line o : Nat) : (s.snoopInsert line).rd o = s.rd o :=
  State.rd_congr (snoopInsert_regs s line) o

@[simp] theorem snoopInsert_stackFailed (s : State) (line a : Nat) : (s.snoopInsert line).stackFailed a = s.stackFailed a :=
  stackFailed_congr (fun o _ => snoopInsert_rd s line o) a

@[simp] theorem snoopInsert_byte (s : State) (line k : Nat) : (s.snoopInsert line).byte k = s.byte k := by
  rw [State.byte, snoopInsert_mem, State.byte]

@[simp] theorem snoopInsert_isPoisoned (s : State) (line a : Nat) : (s.snoopInsert line).isPoisoned a = s.isPoisoned a := by
  rw [State.isPoisoned, snoopInsert_mem, State.isPoisoned]

theorem mem_sendCxl (s : State) (m : CxlMsg) : m ∈ (s.sendCxl m).out.cxl :=
  List.mem_append_right _ List.mem_cons_self

/-! ## The command -/

/-- A host write that reaches memory: the line is taken, its bytes are stored or the firmware region's access is recorded, and the
write is answered. -/
theorem exec_hostMemWrite_of_sees {addr : Word} {a : Nat} (data : Bytes) (mask : BitVec 64) {s : State}
    (ha : a = addr.toNat / 64 * 64) (hide : s.host.ideBroken = false) (hsees : s.hostSees a = true) :
    exec (.hostMemWrite addr data mask) s = .next (State.sendCxl
      (if inFirmware a then (s.snoopInsert (a / 64)).memEvent 1 a
        else if mask = BitVec.allOnes 64 then (s.snoopInsert (a / 64)).devWrite a (slice data 0 64)
        else (s.snoopInsert (a / 64)).maskedWrite a data mask) (.memDone addr)) := by
  subst ha
  exact if_neg (by simp [hsees, hide])

/-- Settles O20: a whole write is one `State.devWrite` of the line, a partial one a `State.maskedWrite`, and the laws of these
two say what becomes of each byte and of the line's mark. -/
theorem hostWriteStored : Obligations.HostWriteStored := by
  unfold Obligations.HostWriteStored
  refine ⟨?whole, ?masked, ?firmware⟩
  case whole =>
    intro addr a data s ha hwf hide hsees hfw htrained
    have hline : a % 64 = 0 := by omega
    have hbyte := fun k => devWrite_byte (s.snoopInsert (a / 64)) a k (slice data 0 64) (by simpa using hwf)
      (by simpa using htrained)
    refine ⟨_, by rw [exec_hostMemWrite_of_sees data _ ha hide hsees, hfw, if_neg Bool.false_ne_true, if_pos rfl],
      ?inside, ?outside, ?clean, ?regs, ?dxn, mem_sendCxl ..⟩
    case inside =>
      intro i hi
      refine (hbyte (a + i)).trans ?_
      rw [slice_length, if_pos (by omega), Nat.add_sub_cancel_left, slice_getD _ hi, Nat.zero_add]
    case outside =>
      intro k hk
      refine (hbyte k).trans ?_
      rw [slice_length, if_neg (by omega), snoopInsert_byte]
    case clean => exact devWrite_line_isPoisoned _ hline (slice_length ..) (by simpa using htrained)
    case regs =>
      intro o ho
      exact (devWrite_regsBut _ a _ o ho).trans (snoopInsert_rd s _ o)
    case dxn => simp
  case masked =>
    intro addr a data mask s ha hwf hide hmask hsees hfw htrained
    have hline : a % 64 = 0 := by omega
    have hbyte := fun k => maskedWrite_byte (data := data) (mask := mask) (s.snoopInsert (a / 64)) k hline
      (by simpa using hwf) (by simpa using htrained)
    refine ⟨_, by rw [exec_hostMemWrite_of_sees data _ ha hide hsees, hfw, if_neg Bool.false_ne_true, if_neg hmask],
      ?inside, ?outside, ?poison, ?dxn, mem_sendCxl ..⟩
    case inside =>
      intro i _
      refine (hbyte (a + i)).trans ?_
      simp
    case outside =>
      intro k hk
      have hnamed : ¬ (a ≤ k ∧ mask.getLsbD (k - a) = true) := fun ⟨hle, h⟩ => by
        have := BitVec.lt_of_getLsbD h
        omega
      refine (hbyte k).trans ?_
      rw [if_neg hnamed, snoopInsert_byte]
    case poison =>
      exact (maskedWrite_isPoisoned _ a hline (by simpa using htrained)).trans (snoopInsert_isPoisoned s _ a)
    case dxn => simp
  case firmware =>
    intro addr a data mask s ha hide hsees hfw
    rw [exec_hostMemWrite_of_sees data mask ha hide hsees, if_pos hfw]

end Sys2Proof.Proofs
end

section
/-! PROOF. A write of TOL (spec/14 R383, Table 14.8): what waking a bay does to it, when a value of TOL covers the state that a
bay rests in, and what the write itself stores. -/

namespace Sys2Proof.Proofs
open Sys2Proof Sys2Proof.Machine

/-! ## Waking a bay -/

theorem resting_iff (s : State) (n : Nat) : s.resting n = true ↔ 1 ≤ s.bayState n ∧ s.bayState n ≤ 3 := by
  simp [State.resting]

theorem wakeBay_of_resting {s : State} {n : Nat} (h : s.resting n = true) : s.wakeBay n =
    { s.setBay n 4 with pwr.saved := sset 0 s.pwr.saved n (s.bayState n), pwr.waking := s.pwr.waking ++ [n] } := if_pos h

theorem wakeBay_waking {s : State} {n : Nat} (h : s.resting n = true) :
    (s.wakeBay n).pwr.waking = s.pwr.waking ++ [n] := by rw [wakeBay_of_resting h]

/-- A bay that begins to wake is in transition. -/
theorem wakeBay_bayState {s : State} {n : Nat} (hwf : s.regsWf = true) (h : s.resting n = true) :
    (s.wakeBay n).bayState n = 4 := by
  rw [wakeBay_of_resting h]
  exact s.fld_setFld_self (R.PWR_BAY_STATUS n) F.PWR_BAY_STATUS_STATE 4 hwf (by decide)

/-- A bay that begins to wake keeps the state that it leaves. -/
theorem wakeBay_bayHeld {s : State} {n : Nat} (hwf : s.regsWf = true) (h : s.resting n = true) :
    (s.wakeBay n).bayHeld n = s.bayState n := by
  have hrests : s.bayState n ≠ 0 := by
    have := (resting_iff s n).1 h
    omega
  rw [State.bayHeld, if_pos (wakeBay_bayState hwf h), wakeBay_of_resting h]
  exact (congrArg (fun m => sget 0 m n) (if_neg hrests)).trans (sget_sput_self ..)

theorem wakeBay_frame (s : State) (n : Nat) : s.wakeBay n =
    { s with regs := (s.wakeBay n).regs, pwr := (s.wakeBay n).pwr } := by
  unfold State.wakeBay
  split <;> rfl

/-! ## What a value of TOL covers -/

/-- Of the resting states, a tolerance reaches exactly those whose exit maximum it covers. -/
theorem tolState_lt_iff {tol st : Nat} (hlow : 1 ≤ st) (hhigh : st ≤ 3) : tolState tol < st ↔ 10 * tol < exitMax st := by
  obtain rfl | rfl | rfl : st = 1 ∨ st = 2 ∨ st = 3 := by omega
  all_goals
    simp only [tolState, exitMax, List.getD_cons_succ, List.getD_cons_zero]
    split_ifs <;> omega

theorem tolWritten_of_uncovered {s : State} {n : Nat} (hlow : 1 ≤ s.bayState n) (hhigh : s.bayState n ≤ 3)
    (h : 10 * s.fld (R.PWR_BAY_CTRL n) F.PWR_BAY_CTRL_TOL < exitMax (s.bayState n)) : s.tolWritten n = s.wakeBay n :=
  if_pos ⟨(resting_iff s n).2 ⟨hlow, hhigh⟩, (tolState_lt_iff hlow hhigh).2 h⟩

theorem tolWritten_of_covered {s : State} {n : Nat}
    (h : exitMax (s.bayState n) ≤ 10 * s.fld (R.PWR_BAY_CTRL n) F.PWR_BAY_CTRL_TOL) : s.tolWritten n = s := by
  refine if_neg fun ⟨hrest, hlt⟩ => ?_
  obtain ⟨hlow, hhigh⟩ := (resting_iff s n).1 hrest
  have := (tolState_lt_iff hlow hhigh).1 hlt
  omega

theorem tolWritten_frame (s : State) (n : Nat) : s.tolWritten n =
    { s with regs := (s.tolWritten n).regs, pwr := (s.tolWritten n).pwr } := by
  unfold State.tolWritten
  split
  · exact wakeBay_frame s n
  · rfl

theorem tolWritten_rd_of_ne (s : State) {n o : Nat} (h : o ≠ R.PWR_BAY_STATUS n) : (s.tolWritten n).rd o = s.rd o := by
  unfold State.tolWritten
  split
  · exact wakeBay_rd_of_ne s h
  · rfl

/-! ## The register -/

theorem put_and_mask (f : Fld) (v : Nat) : f.put v &&& f.mask = f.put v := by
  refine BitVec.eq_of_getLsbD_eq fun i _ => ?_
  rw [BitVec.getLsbD_and, Fld.put_getLsbD, Fld.mask_getLsbD]
  grind

/-- The row of PWR_BAY_CTRL in the field map (`findReg_bayCtrl`). -/
def bayCtrlRow : RegSpec := ⟨R.PWR_BAY_CTRL 0, [(8, 50)], [⟨F.PWR_BAY_CTRL_TOL, .rw, .l, 0⟩]⟩

theorem bayCtrl_ne_bayStatus (n : Fin 50) (m : Nat) : R.PWR_BAY_CTRL n ≠ R.PWR_BAY_STATUS m := by
  have := n.isLt
  unfold R.PWR_BAY_CTRL R.PWR_BAY_STATUS
  omega

theorem indexAt_bayCtrl (n : Nat) : indexAt (R.PWR_BAY_CTRL 0) 8 (R.PWR_BAY_CTRL n) = n := by
  unfold indexAt R.PWR_BAY_CTRL
  omega

theorem findReg_bayCtrl (n : Fin 50) : findReg (R.PWR_BAY_CTRL n) = some bayCtrlRow := by
  have hn := n.isLt
  have hlow : R.PWR_BAY_CTRL 0 ≤ R.PWR_BAY_CTRL n := by unfold R.PWR_BAY_CTRL; omega
  have hhigh : R.PWR_BAY_CTRL n ≤ R.PWR_BAY_CTRL 49 := by unfold R.PWR_BAY_CTRL; omega
  have hdist : R.PWR_BAY_CTRL n - R.PWR_BAY_CTRL 0 = n.val * 8 := by unfold R.PWR_BAY_CTRL; omega
  rw [findReg_near [bayCtrlRow] (by decide +kernel) hlow hhigh]
  refine if_pos ?_
  simp [bayCtrlRow, onDims, hdist, hlow]

/-- A write leaves TOL of bays 46 to 48 (spec/14 Table 14.8). -/
theorem bayCtrlRow_written_fixed {n : Nat} (hlow : 46 ≤ n) (hhigh : n ≤ 48) (old v : Word) (refused : Bool) :
    bayCtrlRow.written (R.PWR_BAY_CTRL n) old v refused = old := by
  refine if_pos ?_
  simp [bayCtrlRow, indexAt_bayCtrl, hlow, hhigh]

theorem bayCtrlRow_written {n : Nat} (hfree : n < 46 ∨ 48 < n) (old : Word) (tol : Nat) :
    bayCtrlRow.written (R.PWR_BAY_CTRL n) old (F.PWR_BAY_CTRL_TOL.put tol) false = F.PWR_BAY_CTRL_TOL.set old tol := by
  refine (if_neg ?free).trans ?stored
  case free =>
    simp only [bayCtrlRow, indexAt_bayCtrl, Bool.and_eq_true, decide_eq_true_eq]
    omega
  case stored =>
    change (old &&& ~~~F.PWR_BAY_CTRL_TOL.mask ||| F.PWR_BAY_CTRL_TOL.put tol &&& F.PWR_BAY_CTRL_TOL.mask) &&&
      ~~~(F.PWR_BAY_CTRL_TOL.put tol &&& 0#64) = _
    rw [put_and_mask, BitVec.and_zero, BitVec.not_zero, BitVec.and_allOnes]
    rfl

/-- TOL is of no class but L, so that a write is never refused. -/
theorem bayCtrlRow_changesQ (old v : Word) : bayCtrlRow.changesQ old v = false := by
  have hnone (p : FieldSpec → Bool) (h : p ⟨F.PWR_BAY_CTRL_TOL, .rw, .l, 0⟩ = false) : bayCtrlRow.bits p = 0 := by
    simp [bayCtrlRow, RegSpec.bits, h]
  rw [RegSpec.changesQ, hnone _ rfl, hnone _ rfl]
  simp

/-- No write of PWR_BAY_CTRL is one of a register with a meaning of its own. -/
theorem bayCtrlRow_base_ne : bayCtrlRow.base ≠ R.GLB_RESET ∧ bayCtrlRow.base ≠ R.SEC_IMG_KEY 4 0 ∧
    bayCtrlRow.base ≠ R.SEC_CTRL := by decide

/-- PWR_BAY_CTRL has no GO bit. -/
theorem goBusy_bayCtrl (s : State) (off : Nat) (v : Word) : s.goBusy bayCtrlRow.base off v = false := by
  unfold State.goBusy
  iterate 7 rw [if_neg (by decide)]

theorem writeEffect_bayCtrl (s : State) (n : Fin 50) (old v : Word) (refused : Bool) (who : Writer) :
    s.writeEffect (R.PWR_BAY_CTRL 0) (R.PWR_BAY_CTRL n) old v refused who = s.tolWritten n := by
  have hcentral : ¬ R.PWR_BAY_CTRL n < R.CFG_COMMIT ∧ ¬ R.PWR_BAY_CTRL n < R.PWR_STATUS ∧
      R.PWR_BAY_CTRL n < R.PRT_PAIR_CFG 0 := by
    have := n.isLt
    unfold R.PWR_BAY_CTRL R.CFG_COMMIT R.PWR_STATUS R.PRT_PAIR_CFG
    omega
  obtain ⟨hcfg, hpwr, hprt⟩ := hcentral
  rw [State.writeEffect, if_neg hcfg, if_neg hpwr, if_pos hprt, if_neg fun h => absurd h.1 (by decide),
    State.effectCentral, if_pos rfl, indexAt_bayCtrl]

/-- A write of TOL stores its value and then looks whether the bay wakes. -/
theorem writeReg_bayCtrl (s : State) (n : Fin 50) (v : Word) (who : Writer) : s.writeReg (R.PWR_BAY_CTRL n) v who =
    (s.wr (R.PWR_BAY_CTRL n) (bayCtrlRow.written (R.PWR_BAY_CTRL n) (s.rd (R.PWR_BAY_CTRL n)) v false)).tolWritten n := by
  calc s.writeReg (R.PWR_BAY_CTRL n) v who
    _ = s.writeFields bayCtrlRow (R.PWR_BAY_CTRL n) v who := by
      rw [State.writeReg, findReg_bayCtrl]
      obtain ⟨hreset, hkey, hlock⟩ := bayCtrlRow_base_ne
      simp only [hreset, hkey, hlock, goBusy_bayCtrl, if_false, Bool.false_eq_true]
    _ = _ := by
      simp only [State.writeFields, bayCtrlRow_changesQ, Bool.false_and, Bool.false_eq_true, if_false]
      exact writeEffect_bayCtrl ..

theorem exec_bayTolWrite (n : Fin 50) (tol : BitVec 24) (s : State) : exec (.bayTolWrite n tol) s =
    .next (s.writeReg (R.PWR_BAY_CTRL n) (F.PWR_BAY_CTRL_TOL.put tol.toNat) {}) := rfl

theorem exec_bayTolWrite_free {n : Fin 50} (hfree : n.val < 46 ∨ 48 < n.val) (tol : BitVec 24) (s : State) :
    exec (.bayTolWrite n tol) s =
      .next ((s.setFld (R.PWR_BAY_CTRL n) F.PWR_BAY_CTRL_TOL tol.toNat).tolWritten n) := by
  rw [exec_bayTolWrite, writeReg_bayCtrl, bayCtrlRow_written hfree]
  rfl

theorem exec_bayTolWrite_fixed {n : Fin 50} (hlow : 46 ≤ n.val) (hhigh : n.val ≤ 48) (tol : BitVec 24) (s : State) :
    exec (.bayTolWrite n tol) s = .next ((s.wr (R.PWR_BAY_CTRL n) (s.rd (R.PWR_BAY_CTRL n))).tolWritten n) := by
  rw [exec_bayTolWrite, writeReg_bayCtrl, bayCtrlRow_written_fixed hlow hhigh]

/-- Settles O15: TOL is stored, or kept where it is fixed (`exec_bayTolWrite_free`, `exec_bayTolWrite_fixed`); then the bay wakes
exactly where the value stored does not cover the state that it rests in. -/
theorem tolWritten : Obligations.TolWritten := by
  unfold Obligations.TolWritten
  refine ⟨?free, ?fixed⟩
  case free =>
    intro n tol s hwf hfree
    set u := s.setFld (R.PWR_BAY_CTRL n) F.PWR_BAY_CTRL_TOL tol.toNat
    have huwf : u.regsWf = true := s.setFld_regsWf _ _ _ hwf
    have hutol : u.fld (R.PWR_BAY_CTRL n) F.PWR_BAY_CTRL_TOL = tol.toNat :=
      (s.fld_setFld_self _ F.PWR_BAY_CTRL_TOL _ hwf (by decide)).trans (Nat.mod_eq_of_lt tol.isLt)
    have hustate : u.bayState n = s.bayState n := s.fld_setFld_of_ne _ _ _ (bayCtrl_ne_bayStatus n n).symm
    have htol : (u.tolWritten n).fld (R.PWR_BAY_CTRL n) F.PWR_BAY_CTRL_TOL = tol.toNat :=
      (congrArg F.PWR_BAY_CTRL_TOL.get (tolWritten_rd_of_ne u (bayCtrl_ne_bayStatus n n))).trans hutol
    refine ⟨_, exec_bayTolWrite_free hfree tol s, htol, ?target, ?wakes, ?stays, ?regs, ?frame⟩
    case target => rw [State.bayTarget, htol]
    case wakes =>
      intro hlow hhigh hlt
      rw [← hustate] at hlow hhigh hlt ⊢
      have hrest := (resting_iff u n).2 ⟨hlow, hhigh⟩
      rw [tolWritten_of_uncovered hlow hhigh (hutol.symm ▸ hlt)]
      exact ⟨wakeBay_bayState huwf hrest, wakeBay_bayHeld huwf hrest, wakeBay_waking hrest⟩
    case stays =>
      intro hle
      rw [tolWritten_of_covered (by rw [hutol, hustate]; exact hle)]
      exact ⟨rfl, hustate⟩
    case regs =>
      intro o ho
      obtain ⟨hctrl, hstatus⟩ : o ≠ R.PWR_BAY_CTRL n ∧ o ≠ R.PWR_BAY_STATUS n := by simpa using ho
      exact (tolWritten_rd_of_ne u hstatus).trans (s.rd_setFld_of_ne _ _ hctrl)
    case frame => exact tolWritten_frame u n
  case fixed =>
    intro n tol s hwf hlow hhigh
    set u := s.wr (R.PWR_BAY_CTRL n) (s.rd (R.PWR_BAY_CTRL n))
    have hurd (o : Nat) : u.rd o = s.rd o := by
      by_cases ho : o = R.PWR_BAY_CTRL n
      · subst ho
        exact s.rd_wr_self _ _ hwf
      · exact s.rd_wr_of_ne _ ho
    have hrd {o : Nat} (ho : o ≠ R.PWR_BAY_STATUS n) : (u.tolWritten n).rd o = s.rd o :=
      (tolWritten_rd_of_ne u ho).trans (hurd o)
    exact ⟨_, exec_bayTolWrite_fixed hlow hhigh tol s, hrd (bayCtrl_ne_bayStatus n n),
      fun o ho => hrd (by simpa using ho), tolWritten_frame u n⟩

end Sys2Proof.Proofs
end

section
/-! PROOF. A discard of a set's staged values (spec/16 R424, R425, R427): which registers of a set differ in their staged fields
from their committed values, what copying the committed values over them leaves, and the write of CFG_DISCARD that asks for it. -/

namespace Sys2Proof.Proofs
open Sys2Proof Sys2Proof.Machine

/-! ## Keys of a sparse store -/

/-- Of a store cut down by its keys, a key that was kept reads as before and any other reads the default. -/
theorem sget_filter_key {α : Type} (d : α) (m : Sparse α) (p : Nat → Bool) (n : Nat) :
    sget d (m.filter fun x => p x.1) n = if p n then sget d m n else d := by
  induction m with
  | nil => exact (ite_self d).symm
  | cons x t ih =>
    obtain ⟨k, v⟩ := x
    by_cases hk : n = k
    · subst hk
      by_cases hp : p n <;> simp [sget, ih, hp]
    · by_cases hp : p k <;> simp [sget, ih, hp, hk]

theorem mem_keys_of_sget_ne {α : Type} {d : α} {m : Sparse α} {n : Nat} (h : sget d m n ≠ d) : n ∈ m.map Prod.fst := by
  induction m with
  | nil => exact absurd rfl h
  | cons x t ih =>
    rw [List.map_cons, List.mem_cons]
    by_cases hk : n = x.1
    · exact .inl hk
    · exact .inr (ih (by rwa [sget, if_neg hk] at h))

/-! ## The words of a set -/

theorem wordOf_capture (s : State) (n o : Nat) : wordOf (s.capture n) o = if inSet n o then s.rd o else resetWord o :=
  sget_filter_key _ s.regs (inSet n) o

theorem wordOf_inForce (s : State) (n o : Nat) :
    wordOf (s.inForce n) o = if inSet n o then s.committed o else resetWord o :=
  sget_filter_key _ s.cfg.committed (inSet n) o

/-- A register that two captures do not list reads its reset value in both, so no register that differs is missed. -/
theorem mem_changedIn {a b : Sparse Word} {o : Nat} :
    o ∈ changedIn a b ↔ wordOf a o &&& stagedBits o ≠ wordOf b o &&& stagedBits o := by
  rw [changedIn, List.mem_filter, bne_iff_ne, and_iff_right_iff_imp, List.mem_append]
  intro hne
  by_cases ha : wordOf a o = resetWord o
  · exact .inr (mem_keys_of_sget_ne fun hb => hne (by rw [ha, show wordOf b o = resetWord o from hb]))
  · exact .inl (mem_keys_of_sget_ne ha)

theorem mem_changedIn_set {s : State} {n o : Nat} : o ∈ changedIn (s.capture n) (s.inForce n) ↔
    inSet n o = true ∧ s.rd o &&& stagedBits o ≠ s.committed o &&& stagedBits o := by
  rw [mem_changedIn, wordOf_capture, wordOf_inForce]
  by_cases hset : inSet n o = true <;> simp [hset]

/-- A set is clean where every register of it reads its committed value in its staged fields (spec/16 R425). -/
theorem dirty_eq_false_iff (s : State) (n : Nat) : s.dirty n = false ↔
    ∀ o, inSet n o = true → s.rd o &&& stagedBits o = s.committed o &&& stagedBits o := by
  rw [State.dirty, beq_eq_false_iff_ne, ne_eq, Bool.not_eq_false, List.isEmpty_iff, List.eq_nil_iff_forall_not_mem]
  simp only [mem_changedIn_set, not_and, not_not]

/-! ## Copying committed values -/

/-- A register's word once its staged fields take their committed values. -/
def restoredWord (s : State) (o : Nat) : Word := s.rd o &&& ~~~stagedBits o ||| s.committed o &&& stagedBits o

theorem restoredWord_and_staged (s : State) (o : Nat) :
    restoredWord s o &&& stagedBits o = s.committed o &&& stagedBits o := by
  simp [restoredWord, BitVec.and_or_distrib_right, BitVec.and_assoc]

theorem restoredWord_and_not_staged (s : State) (o : Nat) :
    restoredWord s o &&& ~~~stagedBits o = s.rd o &&& ~~~stagedBits o := by
  simp [restoredWord, BitVec.and_or_distrib_right, BitVec.and_assoc]

theorem restoredWord_of_agree {s : State} {o : Nat} (h : s.rd o &&& stagedBits o = s.committed o &&& stagedBits o) :
    restoredWord s o = s.rd o := by
  rw [restoredWord, ← h, ← BitVec.and_or_distrib_left, BitVec.or_comm, BitVec.or_not_self, BitVec.and_allOnes]

theorem restoredWord_congr {s t : State} {o : Nat} (hrd : t.rd o &&& ~~~stagedBits o = s.rd o &&& ~~~stagedBits o)
    (hcom : t.committed o = s.committed o) : restoredWord t o = restoredWord s o := by
  rw [restoredWord, hrd, hcom, restoredWord]

/-- A register's staged fields take their committed values. -/
def restoreReg (s : State) (o : Nat) : State := s.wr o (restoredWord s o)

theorem discardSet_eq_foldl (s : State) (n : Nat) :
    s.discardSet n = (changedIn (s.capture n) (s.inForce n)).foldl restoreReg s := rfl

theorem discardSet_same (s : State) (n : Nat) : SameButRegs s (s.discardSet n) :=
  foldl_rel SameButRegs .refl (fun _ _ _ => .trans) restoreReg (fun _ _ => rfl) _ s

theorem discardSet_committed (s : State) (n o : Nat) : (s.discardSet n).committed o = s.committed o := by
  rw [discardSet_same s n]; rfl

/-- Restoring one register leaves what any register is restored to: the same word when it is restored again. -/
theorem restoredWord_restoreReg {s : State} (hwf : s.regsWf = true) (i o : Nat) :
    restoredWord (restoreReg s i) o = restoredWord s o := by
  refine restoredWord_congr ?_ rfl
  by_cases ho : o = i
  · subst ho
    rw [restoreReg, s.rd_wr_self _ _ hwf, restoredWord_and_not_staged]
  · rw [restoreReg, s.rd_wr_of_ne _ ho]

theorem foldl_restoreReg_rd (l : List Nat) {s : State} (hwf : s.regsWf = true) (o : Nat) :
    (l.foldl restoreReg s).rd o = if o ∈ l then restoredWord s o else s.rd o := by
  induction l generalizing s with
  | nil => simp
  | cons i t ih =>
    have hwfi : (restoreReg s i).regsWf = true := s.wr_regsWf i _ hwf
    rw [List.foldl_cons, ih hwfi, restoredWord_restoreReg hwf]
    by_cases ho : o = i
    · subst ho
      have hself : (restoreReg s o).rd o = restoredWord s o := s.rd_wr_self _ _ hwf
      rw [hself, ite_self, if_pos List.mem_cons_self]
    · have hother : (restoreReg s i).rd o = s.rd o := s.rd_wr_of_ne _ ho
      simp only [hother, List.mem_cons, ho, false_or]

/-- A discard copies the committed values into the staged fields of the set's registers, and leaves every other register
(spec/16 R427). -/
theorem discardSet_rd {s : State} (hwf : s.regsWf = true) (n o : Nat) :
    (s.discardSet n).rd o = if inSet n o then restoredWord s o else s.rd o := by
  rw [discardSet_eq_foldl, foldl_restoreReg_rd _ hwf]
  by_cases hset : inSet n o = true
  · by_cases hagree : s.rd o &&& stagedBits o = s.committed o &&& stagedBits o
    · rw [restoredWord_of_agree hagree, ite_self, ite_self]
    · rw [if_pos (mem_changedIn_set.2 ⟨hset, hagree⟩), if_pos hset]
  · rw [if_neg fun hmem => hset (mem_changedIn_set.1 hmem).1, if_neg hset]

theorem discardSet_dirty {s : State} (hwf : s.regsWf = true) (n : Nat) : (s.discardSet n).dirty n = false :=
  (dirty_eq_false_iff _ n).2 fun o ho => by
    rw [discardSet_rd hwf, if_pos ho, restoredWord_and_staged, discardSet_committed]

/-! ## The register -/

theorem get_or (f : Fld) (x y : Word) : f.get (x ||| y) = f.get x ||| f.get y := by
  refine Nat.eq_of_testBit_eq fun i => ?_
  rw [Nat.testBit_or, Fld.get_testBit, Fld.get_testBit, Fld.get_testBit, BitVec.getLsbD_or, Bool.and_or_distrib_left]

theorem put_eq_set_zero (f : Fld) (v : Nat) : f.put v = f.set 0 v := by simp [Fld.set]

theorem get_put_self (f : Fld) (v : Nat) (hf : f.lo + f.w ≤ 64) : f.get (f.put v) = v % 2 ^ f.w := by
  rw [put_eq_set_zero, f.get_set_self _ _ hf]

/-- A word made of one field reads 0 in a field of other bits. -/
theorem get_put_of_disjoint (f g : Fld) (v : Nat) (h : g.lo + g.w ≤ f.lo ∨ f.lo + f.w ≤ g.lo) (hg : g.lo + g.w ≤ 64) :
    g.get (f.put v) = 0 := by
  rw [put_eq_set_zero, f.get_set_of_disjoint g _ _ h hg]
  simp [Fld.get]

/-- The row of CFG_DISCARD in the field map (`findReg_discard`). -/
def discardRow : RegSpec := ⟨R.CFG_DISCARD, [], [⟨F.CFG_DISCARD_GO, .w1s, .l, 0⟩, ⟨F.CFG_DISCARD_SET, .rw, .l, 0⟩]⟩

theorem findReg_discard : findReg R.CFG_DISCARD = some discardRow := by decide +kernel

/-- CFG_DISCARD has no staged field, and so belongs to no set. -/
theorem inSet_discard (n : Nat) : inSet n R.CFG_DISCARD = false := by
  have hbits : stagedBits R.CFG_DISCARD = 0 := by rw [stagedBits, findReg_discard]; rfl
  rw [inSet, hbits]
  exact Bool.and_false _

/-- What a host writes to ask for a discard of a set. -/
def discardWord (set : BitVec 8) : Word := F.CFG_DISCARD_GO.put 1 ||| F.CFG_DISCARD_SET.put set.toNat

theorem discardWord_go (set : BitVec 8) : F.CFG_DISCARD_GO.get (discardWord set) = 1 := by
  rw [discardWord, get_or, get_put_self _ _ (by decide), get_put_of_disjoint _ _ _ (by decide) (by decide)]
  rfl

theorem discardWord_set (set : BitVec 8) : F.CFG_DISCARD_SET.get (discardWord set) = set.toNat := by
  rw [discardWord, get_or, get_put_self _ _ (by decide), get_put_of_disjoint _ _ _ (by decide) (by decide), Nat.zero_or]
  exact Nat.mod_eq_of_lt set.isLt

theorem discardWord_and_setMask (set : BitVec 8) :
    discardWord set &&& F.CFG_DISCARD_SET.mask = F.CFG_DISCARD_SET.put set.toNat := by
  have hgo : F.CFG_DISCARD_GO.put 1 &&& F.CFG_DISCARD_SET.mask = 0#64 := by decide
  rw [discardWord, BitVec.and_or_distrib_right, hgo, put_and_mask, BitVec.zero_or]

/-- A write stores SET alone: GO is not kept. -/
theorem discardRow_written (off : Nat) (old : Word) (set : BitVec 8) :
    discardRow.written off old (discardWord set) false = F.CFG_DISCARD_SET.set old set.toNat := by
  change (old &&& ~~~F.CFG_DISCARD_SET.mask ||| discardWord set &&& F.CFG_DISCARD_SET.mask) &&&
    ~~~(discardWord set &&& 0#64) = _
  rw [discardWord_and_setMask, BitVec.and_zero, BitVec.not_zero, BitVec.and_allOnes]
  rfl

/-- CFG_DISCARD has no field of class Q, so that a write is never refused. -/
theorem discardRow_changesQ (old v : Word) : discardRow.changesQ old v = false := by
  have hnone (acc : Acc) : discardRow.bits (fun f => f.cls == .q && f.acc == acc) = 0 := by cases acc <;> rfl
  rw [RegSpec.changesQ, hnone, hnone]
  simp

/-- No write of CFG_DISCARD is one of a register with a meaning of its own. -/
theorem discardRow_base_ne : discardRow.base ≠ R.GLB_RESET ∧ discardRow.base ≠ R.SEC_IMG_KEY 4 0 ∧
    discardRow.base ≠ R.SEC_CTRL := by decide

/-- GO of CFG_DISCARD is not one that a write is ignored for. -/
theorem goBusy_discard (s : State) (off : Nat) (v : Word) : s.goBusy discardRow.base off v = false := by
  unfold State.goBusy
  iterate 7 rw [if_neg (by decide)]

theorem writeEffect_discard (s : State) (set : BitVec 8) (old : Word) (refused : Bool) (who : Writer) :
    s.writeEffect R.CFG_DISCARD R.CFG_DISCARD old (discardWord set) refused who =
      if setCommits set.toNat = false ∨ (s.cfg.checks.head?.any fun k => k.kind == .commit set.toNat) = true then s
      else s.discardSet set.toNat := by
  rw [State.writeEffect, if_neg (by decide), if_pos (by decide), State.effectCfg, if_neg fun h => absurd h.1 (by decide),
    if_pos ⟨rfl, discardWord_go set⟩, discardWord_set]
  cases s.cfg.checks <;> rfl

theorem exec_cfgDiscard (set : BitVec 8) (s : State) : exec (.cfgDiscard set) s =
    .next (s.writeReg R.CFG_DISCARD (discardWord set) {}) := rfl

/-- CFG_DISCARD keeps SET; then the discard is ignored for a set that no commit may name and for one whose commit is being
checked, and is carried out for any other (spec/16 R424, R427). -/
theorem exec_cfgDiscard_eq (set : BitVec 8) (s : State) : exec (.cfgDiscard set) s =
    .next (if setCommits set.toNat = false ∨ (s.cfg.checks.head?.any fun k => k.kind == .commit set.toNat) = true then
        s.setFld R.CFG_DISCARD F.CFG_DISCARD_SET set.toNat
      else (s.setFld R.CFG_DISCARD F.CFG_DISCARD_SET set.toNat).discardSet set.toNat) := by
  obtain ⟨hreset, hkey, hlock⟩ := discardRow_base_ne
  rw [exec_cfgDiscard, State.writeReg, findReg_discard]
  simp only [hreset, hkey, hlock, goBusy_discard, State.writeFields, discardRow_changesQ, Bool.false_and, Bool.false_eq_true,
    if_false, discardRow_written]
  exact congrArg _ (writeEffect_discard ..)

/-- Settles O55: `exec_cfgDiscard_eq` says when the set's committed values are copied, `discardSet_rd` what the copy leaves in every
register. -/
theorem discardOfASet : Obligations.DiscardOfASet := by
  unfold Obligations.DiscardOfASet
  refine ⟨?copied, ?notCommitted, ?beingChecked⟩
  case copied =>
    intro set s hwf hcommits hidle _
    set u := s.setFld R.CFG_DISCARD F.CFG_DISCARD_SET set.toNat
    have huwf : u.regsWf = true := s.setFld_regsWf _ _ _ hwf
    have hurd {o : Nat} (ho : o ≠ R.CFG_DISCARD) : u.rd o = s.rd o := s.rd_setFld_of_ne _ _ ho
    have hexec : exec (.cfgDiscard set) s = .next (u.discardSet set.toNat) := by
      rw [exec_cfgDiscard_eq, if_neg (by simp [hcommits, hidle])]
    refine ⟨_, hexec, ?own, discardSet_dirty huwf _, ?other, discardSet_same u _⟩
    case own =>
      intro o ho
      have hne : o ≠ R.CFG_DISCARD := by
        rintro rfl
        exact absurd ho (by simp [inSet_discard])
      rw [discardSet_rd huwf, if_pos ho, restoredWord_and_staged, restoredWord_and_not_staged, hurd hne]
      exact ⟨rfl, rfl⟩
    case other =>
      intro o hne ho
      rw [discardSet_rd huwf, ho]
      exact hurd hne
  case notCommitted =>
    intro set s _ hcommits
    rw [exec_cfgDiscard_eq, if_pos (.inl hcommits)]
  case beingChecked =>
    intro set k l s _ hchecks hkind
    rw [exec_cfgDiscard_eq, if_pos (.inr (by simp [hchecks, hkind]))]

end Sys2Proof.Proofs
end

section
/-! PROOF. What every command keeps
  (spec/00, spec/13 R373): the queue of waiting commands, and the canonical form of the two stores
that stand for an address space. `State.Keeps` says it of one state after another; there is one lemma for each operation of the
model, in the order of the model, and its proof follows the operation's own branches. -/

namespace Sys2Proof.Machine

/-- From one state to another the queue of waiting commands stays, and canonical stores stay canonical; with `calm` every C context goes
on as it is and with its code. Only the operations that a register access and a transfer of a context go through have the last of these. -/
structure State.Keeps (s : State) (calm : Bool) (t : State) : Prop where
  pending : t.pending = s.pending
  canonical : s.Canonical → t.Canonical
  run : calm = true → ∀ n, (t.ctx (.c n)).status = (s.ctx (.c n)).status ∧ (t.ctx (.c n)).code = (s.ctx (.c n)).code

/-- An answered next state keeps what the state before had. -/
def State.KeepsOut (s : State) (calm : Bool) (o : Out) : Prop := ∀ t, o = .next t → s.Keeps calm t

/-- Every state that an instruction's result carries keeps what the state before had. -/
def State.KeepsRes (s : State) (calm : Bool) : Res → Prop
  | .go t | .jump t _ | .halt t | .fault t _ _ | .mem t _ => s.Keeps calm t
  | .stall => True

/-- Whatever a circuit request is answered, the state that comes with the answer keeps. -/
def State.KeepsAnswer (s : State) (calm : Bool) : SplAnswer → Prop
  | .wait t | .done _ _ _ t => s.Keeps calm t

section
variable {calm : Bool} {s₀ s t : State}

theorem State.Keeps.refl (s : State) : s.Keeps calm s := ⟨rfl, id, fun _ _ => ⟨rfl, rfl⟩⟩

/-- A change of neither store and not of the queue keeps; with `calm` it is none of the contexts either. -/
theorem State.Keeps.same (h : s₀.Keeps calm s) (hp : t.pending = s.pending) (hr : t.regs = s.regs) (hm : t.mem.bytes = s.mem.bytes)
    (hd : calm = true → t.dxn.ctxs = s.dxn.ctxs) : s₀.Keeps calm t where
  pending := hp.trans h.pending
  canonical hc := by
    have := h.canonical hc
    unfold State.Canonical State.regsWf Mem.wf at *
    rw [hr, hm]
    exact this
  run hq n := by
    have := h.run hq n
    unfold State.ctx at *
    rw [hd hq]
    exact this

/-- The form in which `{ s with … }` reads: registers, memory, the contexts and the queue are those of `s`. -/
theorem State.Keeps.upd {b l si i o hi po f sw bs te sp ti pw se cf pl ld cn fr} (h : s₀.Keeps calm s) :
    s₀.Keeps calm ⟨s.regs, b, l, si, i, o, hi, s.dxn, po, f, sw, bs, te, sp, ti, s.mem, pw, se, cf, pl, ld, cn, fr, s.pending⟩ :=
  h.same rfl rfl rfl fun _ => rfl

/-- The same of a change of what the DXN units hold beside their contexts. -/
theorem State.Keeps.updDxn {b l si i o hi d1 d2 d3 d4 d5 d6 d7 d8 d9 d10 d11 d12 d13 po f sw bs te sp ti pw se cf pl ld cn fr}
    (h : s₀.Keeps calm s) : s₀.Keeps calm ⟨s.regs, b, l, si, i, o, hi, ⟨s.dxn.ctxs, d1, d2, d3, d4, d5, d6, d7, d8, d9, d10, d11, d12, d13⟩,
      po, f, sw, bs, te, sp, ti, s.mem, pw, se, cf, pl, ld, cn, fr, s.pending⟩ :=
  h.same rfl rfl rfl fun _ => rfl

/-- The same of a change of what memory holds beside its bytes. -/
theorem State.Keeps.updMem {b l si i o hi po f sw bs te sp ti m1 m2 m3 m4 m5 pw se cf pl ld cn fr} (h : s₀.Keeps calm s) :
    s₀.Keeps calm ⟨s.regs, b, l, si, i, o, hi, s.dxn, po, f, sw, bs, te, sp, ti, ⟨s.mem.bytes, m1, m2, m3, m4, m5⟩, pw, se, cf, pl,
      ld, cn, fr, s.pending⟩ :=
  h.same rfl rfl rfl fun _ => rfl

/-- The same where contexts may change. -/
theorem State.Keeps.updRun {b l si i o hi d po f sw bs te sp ti pw se cf pl ld cn fr} (h : s₀.Keeps false s) :
    s₀.Keeps false ⟨s.regs, b, l, si, i, o, hi, d, po, f, sw, bs, te, sp, ti, s.mem, pw, se, cf, pl, ld, cn, fr, s.pending⟩ :=
  h.same rfl rfl rfl nofun

theorem State.Keeps.ite {c : Prop} [Decidable c] (hs : s₀.Keeps calm s) (ht : s₀.Keeps calm t) : s₀.Keeps calm (if c then s else t) := by
  split
  · exact hs
  · exact ht

theorem State.Keeps.ite_out {c : Prop} [Decidable c] {o o' : Out} (ho : s₀.KeepsOut calm o) (ho' : s₀.KeepsOut calm o') :
    s₀.KeepsOut calm (if c then o else o') := by
  split
  · exact ho
  · exact ho'

theorem State.KeepsAnswer.ite {c : Prop} [Decidable c] {x y : SplAnswer} (hx : s₀.KeepsAnswer calm x)
    (hy : s₀.KeepsAnswer calm y) : s₀.KeepsAnswer calm (if c then x else y) := by
  split
  · exact hx
  · exact hy

theorem State.Keeps.ite_fst {α : Type} {c : Prop} [Decidable c] {p q : State × α} (hp : s₀.Keeps calm p.1) (hq : s₀.Keeps calm q.1) :
    s₀.Keeps calm (if c then p else q).1 := by
  split
  · exact hp
  · exact hq

theorem State.Keeps.ite_snd {α : Type} {c : Prop} [Decidable c] {p q : α × State} (hp : s₀.Keeps calm p.2) (hq : s₀.Keeps calm q.2) :
    s₀.Keeps calm (if c then p else q).2 := by
  split
  · exact hp
  · exact hq

theorem State.KeepsOut.next (h : s₀.Keeps calm s) : s₀.KeepsOut calm (.next s) := by
  intro t e
  cases e
  exact h

theorem State.Keeps.foldl {α : Type} {f : State → α → State} {l : List α}
    (hf : ∀ t x, s₀.Keeps calm t → s₀.Keeps calm (f t x)) (h : s₀.Keeps calm s) : s₀.Keeps calm (l.foldl f s) := by
  induction l generalizing s with
  | nil => exact h
  | cons x l ih => exact ih (hf _ _ h)

/-- What a function answers beside the state is no part of what is kept. -/
theorem State.Keeps.of_snd {α : Type} {p : α × State} {w : α} (h : s₀.Keeps calm p.2) (e : p = (w, t)) : s₀.Keeps calm t := by
  subst e; exact h

theorem State.Keeps.of_fst {α : Type} {p : State × α} {w : α} (h : s₀.Keeps calm p.1) (e : p = (t, w)) : s₀.Keeps calm t := by
  subst e; exact h

theorem State.Keeps.of_snd_snd {α β : Type} {p : α × β × State} {w : α} {v : β} (h : s₀.Keeps calm p.2.2)
    (e : p = (w, v, t)) : s₀.Keeps calm t := by
  subst e; exact h

/-- Every state that a result carries keeps what the state before had. -/
theorem State.Keeps.of_res {r r' : Res} (h : s₀.KeepsRes calm r) (e : r = r') : s₀.KeepsRes calm r' := e ▸ h

theorem State.Keeps.foldl_snd {α β : Type} {f : β × State → α → β × State} {l : List α} {p : β × State}
    (hf : ∀ p x, s₀.Keeps calm p.2 → s₀.Keeps calm (f p x).2) (h : s₀.Keeps calm p.2) : s₀.Keeps calm (l.foldl f p).2 := by
  induction l generalizing p with
  | nil => exact h
  | cons x l ih => exact ih (hf _ _ h)

theorem State.Keeps.foldl_fst {α β : Type} {f : State × β → α → State × β} {l : List α} {p : State × β}
    (hf : ∀ p x, s₀.Keeps calm p.1 → s₀.Keeps calm (f p x).1) (h : s₀.Keeps calm p.1) : s₀.Keeps calm (l.foldl f p).1 := by
  induction l generalizing p with
  | nil => exact h
  | cons x l ih => exact ih (hf _ _ h)
end

section
variable {calm : Bool} {s₀ s : State}

theorem State.Keeps.wr {off v} (h : s₀.Keeps calm s) : s₀.Keeps calm (s.wr off v) :=
  ⟨h.pending, fun hc => ⟨State.wr_regsWf _ _ _ (h.canonical hc).1, (h.canonical hc).2⟩, h.run⟩

theorem State.Keeps.setFld {off f v} (h : s₀.Keeps calm s) : s₀.Keeps calm (s.setFld off f v) := by
  unfold State.setFld
  exact h.wr

theorem State.Keeps.incFld {off f} (h : s₀.Keeps calm s) : s₀.Keeps calm (s.incFld off f) := by
  unfold State.incFld
  exact h.setFld

theorem State.Keeps.incSat {off f} (h : s₀.Keeps calm s) : s₀.Keeps calm (s.incSat off f) := by
  unfold State.incSat
  exact .ite h.incFld h

theorem State.Keeps.setBit {off i b} (h : s₀.Keeps calm s) : s₀.Keeps calm (s.setBit off i b) := by
  unfold State.setBit
  exact h.setFld

theorem State.Keeps.draw (h : s₀.Keeps calm s) : s₀.Keeps calm s.draw.2 := by
  unfold State.draw
  exact .upd h

theorem State.Keeps.timeStep (h : s₀.Keeps false s) : s₀.Keeps false s.timeStep := by
  unfold State.timeStep
  extract_lets lim d c sec _ s1 _
  have h1 : s₀.Keeps false s1 := .upd h
  exact .ite (.upd h1) (.ite (.upd h1) h1)

theorem State.Keeps.tick (h : s₀.Keeps false s) : s₀.Keeps false s.tick := by
  unfold State.tick
  exact .ite h h.timeStep

theorem State.Keeps.sendFrame {p f} (h : s₀.Keeps calm s) : s₀.Keeps calm (s.sendFrame p f) := by
  unfold State.sendFrame
  exact .upd h

theorem State.Keeps.sendMgmt {m f} (h : s₀.Keeps calm s) : s₀.Keeps calm (s.sendMgmt m f) := by
  unfold State.sendMgmt
  exact .upd h

theorem State.Keeps.answer {f} (h : s₀.Keeps false s) : s₀.Keeps false (s.answer f) := by
  unfold State.answer
  exact .upd h

theorem State.Keeps.sendMctp {i3c f} (h : s₀.Keeps false s) : s₀.Keeps false (s.sendMctp i3c f) := by
  unfold State.sendMctp
  exact .upd h

theorem State.Keeps.sendCxl {m} (h : s₀.Keeps false s) : s₀.Keeps false (s.sendCxl m) := by
  unfold State.sendCxl
  exact .upd h

theorem State.Keeps.hostWrite {a b} (h : s₀.Keeps calm s) : s₀.Keeps calm (s.hostWrite a b) := by
  unfold State.hostWrite
  exact .upd h

theorem State.Keeps.lasMuxWrite {m channels} (h : s₀.Keeps false s) : s₀.Keeps false (s.lasMuxWrite m channels) := by
  unfold State.lasMuxWrite
  exact .upd h

theorem State.Keeps.lasSelect {e} (h : s₀.Keeps false s) : s₀.Keeps false (s.lasSelect e) := by
  unfold State.lasSelect
  extract_lets s1 k
  have h1 : s₀.Keeps false s1 := .foldl (fun _ _ h => .ite h.lasMuxWrite h) h
  exact .ite h1 h1.lasMuxWrite

theorem State.Keeps.lasRead {e} (h : s₀.Keeps false s) : s₀.Keeps false (s.lasRead e) := by
  unfold State.lasRead
  extract_lets s1 _
  have h1 : s₀.Keeps false s1 := h.lasSelect
  exact .upd h1

theorem State.Keeps.lasSet {e level} (h : s₀.Keeps false s) : s₀.Keeps false (s.lasSet e level) := by
  unfold State.lasSet
  extract_lets s1 _
  have h1 : s₀.Keeps false s1 := h.lasSelect
  exact .upd h1

theorem State.Keeps.lasAllOff (h : s₀.Keeps false s) : s₀.Keeps false s.lasAllOff := by
  unfold State.lasAllOff
  exact .foldl (fun _ _ h => .ite h h.lasSet) h

theorem State.Keeps.countBy {key n} (h : s₀.Keeps calm s) : s₀.Keeps calm (s.countBy key n) := by
  unfold State.countBy
  extract_lets c _
  exact .upd h

theorem State.Keeps.count {key} (h : s₀.Keeps calm s) : s₀.Keeps calm (s.count key) := by
  unfold State.count
  exact h.countBy

theorem State.Keeps.raise {v} (h : s₀.Keeps calm s) : s₀.Keeps calm (s.raise v) := by
  unfold State.raise
  exact .count (.upd h)

theorem State.Keeps.logEntry {head entry info size a b} (h : s₀.Keeps calm s) :
    s₀.Keeps calm (s.logEntry head entry info size a b) := by
  unfold State.logEntry
  extract_lets k
  exact h.wr.wr.incFld

theorem State.Keeps.hifError {i} (h : s₀.Keeps false s) : s₀.Keeps false (s.hifError i) := by
  unfold State.hifError
  exact .ite h h.setBit.raise

theorem State.Keeps.faultLog {code agent domain index who info} (h : s₀.Keeps false s) :
    s₀.Keeps false (s.faultLog code agent domain index who info) := by
  unfold State.faultLog
  exact h.logEntry

theorem State.Keeps.cfgLog {kind reason set source domain offset} (h : s₀.Keeps calm s) :
    s₀.Keeps calm (s.cfgLog kind reason set source domain offset) := by
  unfold State.cfgLog
  extract_lets s1 s11
  have h1 : s₀.Keeps calm s1 := h.logEntry
  have h11 : s₀.Keeps calm s11 := .ite h1.incSat (.ite h1 h1.incSat.setFld)
  exact h11.raise

theorem State.Keeps.prtEvent {kind port partnerPort identity} (h : s₀.Keeps calm s) :
    s₀.Keeps calm (s.prtEvent kind port partnerPort identity) := by
  unfold State.prtEvent
  exact h.logEntry.raise

theorem State.Keeps.fwdEvent {kind bank table row} (h : s₀.Keeps calm s) : s₀.Keeps calm (s.fwdEvent kind bank table row) := by
  unfold State.fwdEvent
  extract_lets info
  exact h.logEntry.raise

theorem State.Keeps.bsnLog {e kind group opSeq code origin slot} (h : s₀.Keeps false s) :
    s₀.Keeps false (s.bsnLog e kind group opSeq code origin slot) := by
  unfold State.bsnLog
  exact h.logEntry.raise

theorem State.Keeps.thmEvent {kind place fromT toT pace} (h : s₀.Keeps false s) :
    s₀.Keeps false (s.thmEvent kind place fromT toT pace) := by
  unfold State.thmEvent
  exact h.logEntry.raise

theorem State.Keeps.splEvent {kind cause engine ring circuit} (h : s₀.Keeps calm s) :
    s₀.Keeps calm (s.splEvent kind cause engine ring circuit) := by
  unfold State.splEvent
  exact h.logEntry.raise

theorem State.Keeps.ldgPut {off n v} (h : s₀.Keeps calm s) : s₀.Keeps calm (s.ldgPut off n v) := by
  unfold State.ldgPut
  exact .upd h

theorem State.Keeps.ldgAdd {off n d} (h : s₀.Keeps calm s) : s₀.Keeps calm (s.ldgAdd off n d) := by
  unfold State.ldgAdd
  exact h.ldgPut

theorem State.Keeps.journal {kind subject data} (h : s₀.Keeps calm s) : s₀.Keeps calm (s.journal kind subject data) := by
  unfold State.journal
  split
  · extract_lets b _
    exact .upd h
  · exact .ite h h.setFld.raise

theorem State.Keeps.commitLedger (h : s₀.Keeps calm s) : s₀.Keeps calm s.commitLedger := by
  unfold State.commitLedger
  split
  · exact .upd h
  · extract_lets s1 _
    have h1 : s₀.Keeps calm s1 := h.setFld
    exact .upd h1

theorem State.Keeps.setBay {n st} (h : s₀.Keeps calm s) : s₀.Keeps calm (s.setBay n st) := by
  unfold State.setBay
  exact h.setFld

theorem State.Keeps.wakeBay {n} (h : s₀.Keeps calm s) : s₀.Keeps calm (s.wakeBay n) := by
  unfold State.wakeBay
  split
  · extract_lets s1 _
    have h1 : s₀.Keeps calm s1 := h.setBay
    exact .upd h1
  · exact h

theorem State.Keeps.wakeBays {l} (h : s₀.Keeps calm s) : s₀.Keeps calm (s.wakeBays l) := by
  unfold State.wakeBays
  exact .foldl (fun _ _ h => h.wakeBay) h

theorem State.Keeps.memEvent {kind a} (h : s₀.Keeps calm s) : s₀.Keeps calm (s.memEvent kind a) := by
  unfold State.memEvent
  extract_lets u w
  exact h.logEntry.raise

theorem State.Keeps.rowCorrected {a} (h : s₀.Keeps calm s) : s₀.Keeps calm (s.rowCorrected a) := by
  unfold State.rowCorrected
  extract_lets row t kept _ s1 n limit valid u
  have h1 : s₀.Keeps calm s1 := .updMem h
  split
  · exact h1
  · split
    · exact .ite h1.memEvent h1
    · extract_lets s11 _
      have h11 : s₀.Keeps calm s11 := h1.ldgPut.ldgPut.memEvent
      exact .upd h11

theorem State.Keeps.corrected {a} (h : s₀.Keeps calm s) : s₀.Keeps calm (s.corrected a) := by
  unfold State.corrected
  extract_lets u s1 s11 _ s12
  have h1 : s₀.Keeps calm s1 := h.count
  have h11 : s₀.Keeps calm s11 := h1.ldgAdd
  have h12 : s₀.Keeps calm s12 := .upd h11
  exact h12.rowCorrected

theorem State.Keeps.poison {a n} (h : s₀.Keeps calm s) : s₀.Keeps calm (s.poison a n) := by
  unfold State.poison
  exact .updMem h

theorem State.Keeps.uncorrectable {a} (h : s₀.Keeps calm s) : s₀.Keeps calm (s.uncorrectable a) := by
  unfold State.uncorrectable
  split
  · exact h
  · extract_lets u s1 s11 s12
    have h1 : s₀.Keeps calm s1 := h.poison
    have h11 : s₀.Keeps calm s11 := h1.count
    have h12 : s₀.Keeps calm s12 := h11.ldgAdd
    exact h12.memEvent.journal

theorem State.Keeps.findErrors {a n l} (h : s₀.Keeps calm s) : s₀.Keeps calm (s.findErrors a n l) := by
  induction l generalizing s with
  | nil =>
    unfold State.findErrors
    exact h
  | cons e l ih =>
    unfold State.findErrors
    extract_lets x s1
    have h1 : s₀.Keeps calm s1 := by
      unfold s1
      split
      · split
        · exact .ite h h.corrected
        · exact h.uncorrectable
        · exact h
      · exact h
    exact ih h1

theorem State.Keeps.memWake {a n} (h : s₀.Keeps calm s) : s₀.Keeps calm (s.memWake a n) := by
  unfold State.memWake
  exact h.wakeBays

theorem State.Keeps.devRead {a n errs} (h : s₀.Keeps calm s) : s₀.Keeps calm (s.devRead a n errs).1 := by
  unfold State.devRead
  extract_lets s1 old s11 s12
  have h1 : s₀.Keeps calm s1 := h.memWake
  have h11 : s₀.Keeps calm s11 := h1.findErrors
  have h12 : s₀.Keeps calm s12 := .ite h11.countBy h11
  exact h12

theorem State.Keeps.devWrite {x b} (h : s₀.Keeps calm s) : s₀.Keeps calm (s.devWrite x b) :=
  ⟨by rw [State.devWrite_frame]; exact h.memWake.pending, fun hc => ⟨by
    rw [State.regsWf, State.devWrite_frame]; exact (h.memWake.canonical hc).1, State.devWrite_wf _ _ _ (h.canonical hc).2⟩, fun hq n => by
    rw [State.ctx, State.devWrite_frame]; exact h.memWake.run hq n⟩

theorem State.Keeps.execCounterReaderVisit {block index} (h : s₀.Keeps false s) :
    s₀.KeepsOut false (execCounterReaderVisit block index s) := by
  unfold Machine.execCounterReaderVisit
  split
  · extract_lets k _
    exact .next (.upd h)
  · exact .next h

theorem State.Keeps.freeze {notify periodic} (h : s₀.Keeps calm s) : s₀.Keeps calm (s.freeze notify periodic) := by
  unfold State.freeze
  extract_lets c words _
  exact .setFld (.upd h)

theorem State.Keeps.snapResult {r} (h : s₀.Keeps calm s) : s₀.Keeps calm (s.snapResult r) := by
  unfold State.snapResult
  exact h.setFld.setFld

theorem State.Keeps.snapFields {mode notify} (h : s₀.Keeps calm s) : s₀.Keeps calm (s.snapFields mode notify) := by
  unfold State.snapFields
  exact h.setFld.setFld

theorem State.Keeps.snapNow {notify} (h : s₀.Keeps calm s) : s₀.Keeps calm (s.snapNow notify) := by
  unfold State.snapNow
  extract_lets s1
  have h1 : s₀.Keeps calm s1 := h.snapFields
  exact .ite h1.snapResult h1.freeze.snapResult

theorem State.Keeps.snapAt {notify instant} (h : s₀.Keeps calm s) : s₀.Keeps calm (s.snapAt notify instant) := by
  unfold State.snapAt
  extract_lets s1 _
  have h1 : s₀.Keeps calm s1 := h.snapFields.wr
  exact .ite h1.snapResult (.ite h1.snapResult (.snapResult (.setFld (.upd h1))))

theorem State.Keeps.snapEvery {notify instant periodMs} (h : s₀.Keeps calm s) :
    s₀.Keeps calm (s.snapEvery notify instant periodMs) := by
  unfold State.snapEvery
  extract_lets s1 _
  have h1 : s₀.Keeps calm s1 := h.snapFields.wr.setFld
  exact .ite h1.snapResult (.ite h1.snapResult (.ite h1.snapResult (.snapResult (.setFld (.upd h1)))))

theorem State.Keeps.snapStop (h : s₀.Keeps calm s) : s₀.Keeps calm s.snapStop := by
  unfold State.snapStop
  extract_lets s1
  have h1 : s₀.Keeps calm s1 := h.setFld
  exact .ite h1.snapResult h1.setFld.snapResult

theorem State.Keeps.execSnapNow {notify} (h : s₀.Keeps false s) : s₀.KeepsOut false (execSnapNow notify s) := by
  unfold Machine.execSnapNow
  exact .next h.snapNow

theorem State.Keeps.execSnapAtInstant {notify instant} (h : s₀.Keeps false s) :
    s₀.KeepsOut false (execSnapAtInstant notify instant s) := by
  unfold Machine.execSnapAtInstant
  exact .next h.snapAt

theorem State.Keeps.execSnapPeriodic {notify instant periodMs} (h : s₀.Keeps false s) :
    s₀.KeepsOut false (execSnapPeriodic notify instant periodMs s) := by
  unfold Machine.execSnapPeriodic
  exact .next h.snapEvery

theorem State.Keeps.execSnapStop (h : s₀.Keeps false s) : s₀.KeepsOut false (execSnapStop s) := by
  unfold Machine.execSnapStop
  exact .next h.snapStop

theorem State.Keeps.freezeDue (h : s₀.Keeps calm s) : s₀.Keeps calm s.freezeDue := by
  unfold State.freezeDue
  split
  · exact h
  · split
    · exact h.freeze.setFld
    · extract_lets busy _ s1
      have h1 : s₀.Keeps calm s1 := .upd h
      exact .ite h1.incSat h1.freeze

theorem State.Keeps.execSnapshotFreeze (h : s₀.Keeps false s) : s₀.KeepsOut false (execSnapshotFreeze s) := by
  unfold Machine.execSnapshotFreeze
  exact .next h.freezeDue

theorem State.Keeps.freezesPassed (h : s₀.Keeps calm s) : s₀.Keeps calm s.freezesPassed := by
  unfold State.freezesPassed
  split
  · exact h
  · extract_lets k s1 _
    have h1 : s₀.Keeps calm s1 := h.setFld
    exact .upd h1

theorem State.Keeps.historyRecord (h : s₀.Keeps false s) : s₀.Keeps false s.historyRecord := by
  unfold State.historyRecord
  extract_lets every size _ r base s1
  have h1 : s₀.Keeps false s1 := .foldl (fun _ _ h => h.devWrite) h
  exact .ite h (.ite (.upd h) h1.incFld)

theorem State.Keeps.execSnapshotPublish (h : s₀.Keeps false s) : s₀.KeepsOut false (execSnapshotPublish s) := by
  unfold Machine.execSnapshotPublish
  split
  · exact .next h
  · extract_lets s1 _ s11 s12
    have h1 : s₀.Keeps false s1 := h.setFld.incFld
    have h11 : s₀.Keeps false s11 := .upd h1
    have h12 : s₀.Keeps false s12 := .ite h11.raise h11
    exact .next (.ite h12.historyRecord h12)

theorem State.Keeps.counterClear {block} (h : s₀.Keeps calm s) : s₀.Keeps calm (s.counterClear block) := by
  unfold State.counterClear
  extract_lets f _
  exact .setFld (.upd h)

theorem State.Keeps.execCounterClear {block} (h : s₀.Keeps false s) : s₀.KeepsOut false (execCounterClear block s) := by
  unfold Machine.execCounterClear
  exact .next h.counterClear

theorem State.Keeps.counterCopy {dest first count} (h : s₀.Keeps calm s) : s₀.Keeps calm (s.counterCopy dest first count) := by
  unfold State.counterCopy
  split
  · exact h
  · extract_lets s1 s11 _
    have h1 : s₀.Keeps calm s1 := h.wr
    have h11 : s₀.Keeps calm s11 := h1.wr
    exact .upd h11

theorem State.Keeps.execCounterCopy {dest first count} (h : s₀.Keeps false s) :
    s₀.KeepsOut false (execCounterCopy dest first count s) := by
  unfold Machine.execCounterCopy
  exact .next h.counterCopy

theorem State.Keeps.execCounterCopyDone (h : s₀.Keeps false s) : s₀.KeepsOut false (execCounterCopyDone s) := by
  unfold Machine.execCounterCopyDone
  split
  · exact .next h
  · extract_lets host base last one s1 _
    have hone : ∀ t i, s₀.Keeps false t → s₀.Keeps false (one t i) := fun _ _ h => .ite h.hostWrite (.ite h.devWrite h)
    have h1 : s₀.Keeps false s1 := .foldl hone h
    exact .next (.raise (.setFld (.upd h1)))

theorem State.Keeps.emitInternal {q cls bytes route} (h : s₀.Keeps calm s) :
    s₀.Keeps calm (s.emitInternal q cls bytes route) := by
  unfold State.emitInternal
  exact .upd h

theorem State.Keeps.sendFar {target m} (h : s₀.Keeps false s) : s₀.Keeps false (s.sendFar target m) := by
  unfold State.sendFar
  extract_lets port mac
  split
  · rename_i t e
    have h1 : s₀.Keeps false t := .of_snd h.draw e
    exact h1.emitInternal

theorem State.Keeps.plnSend {port dest kind body} (h : s₀.Keeps calm s) : s₀.Keeps calm (s.plnSend port dest kind body) := by
  unfold State.plnSend
  extract_lets m
  split
  · rename_i t e
    have h1 : s₀.Keeps calm t := .of_snd h.draw e
    extract_lets _ s1
    have h11 : s₀.Keeps calm s1 := .upd h1
    exact h11.sendMgmt

theorem State.Keeps.plnEvent {kind worker port group opSeq id} (h : s₀.Keeps calm s) :
    s₀.Keeps calm (s.plnEvent kind worker port group opSeq id) := by
  unfold State.plnEvent
  extract_lets k
  exact h.wr.wr.wr.incFld.raise

theorem State.Keeps.plnReport {body} (h : s₀.Keeps calm s) : s₀.Keeps calm (s.plnReport body) := by
  unfold State.plnReport
  split
  · split
    · exact h.plnSend
    · extract_lets l _
      exact .upd h
  · exact h

theorem State.Keeps.planeFree (h : s₀.Keeps calm s) : s₀.Keeps calm s.planeFree := by
  unfold State.planeFree
  exact .setFld (.upd h)

theorem State.Keeps.flipEnds {f state worker reason} (h : s₀.Keeps calm s) :
    s₀.Keeps calm (s.flipEnds f state worker reason) := by
  unfold State.flipEnds
  extract_lets off s1 s2 _ s3
  have h1 : s₀.Keeps calm s1 := h.setFld.setFld.setFld
  have h2 : s₀.Keeps calm s2 := h1.setFld
  have h3 : s₀.Keeps calm s3 := .upd h2
  exact h3.plnEvent

theorem State.Keeps.flipSettle (h : s₀.Keeps calm s) : s₀.Keeps calm s.flipSettle := by
  unfold State.flipSettle
  split
  · split
    · exact h
    · split
      · exact h.flipEnds
      · exact .ite h.flipEnds h
  · exact h

theorem State.Keeps.planeFlipped {kind} (h : s₀.Keeps calm s) : s₀.Keeps calm (s.planeFlipped kind) := by
  unfold State.planeFlipped
  extract_lets s1
  have h1 : s₀.Keeps calm s1 := by
    unfold s1
    split
    · exact .ite h.planeFree h
    · exact h
  exact h1.flipSettle

theorem State.Keeps.plnDispute {port group opSeq member endpoint} (h : s₀.Keeps false s) :
    s₀.Keeps false (s.plnDispute port group opSeq member endpoint) := by
  unfold State.plnDispute
  extract_lets id body
  exact h.plnEvent.plnReport

theorem State.Keeps.setCtx {c x'} (h : s₀.Keeps false s) : s₀.Keeps false (s.setCtx c x') := by
  unfold State.setCtx
  exact .updRun h

theorem State.Keeps.startCtx {c x'} (h : s₀.Keeps false s) : s₀.Keeps false (s.startCtx c x') := by
  unfold State.startCtx
  extract_lets _ s1 ctr
  have h1 : s₀.Keeps false s1 := .updDxn h
  exact h1.setCtx

theorem State.Keeps.updItem {i f} (h : s₀.Keeps calm s) : s₀.Keeps calm (s.updItem i f) := by
  unfold State.updItem
  exact .upd h

theorem State.Keeps.itemDone {i status detail result} (h : s₀.Keeps false s) :
    s₀.Keeps false (s.itemDone i status detail result) := by
  unfold State.itemDone
  exact h.updItem

theorem sees_run (x : Context) (p : Nat) (v : Word) : (x.sees p v).status = x.status ∧ (x.sees p v).code = x.code := by
  unfold Context.sees
  split
  · split
    · exact ⟨rfl, rfl⟩
    · exact ⟨rfl, rfl⟩
  · exact ⟨rfl, rfl⟩

theorem sees_default (p : Nat) (v : Word) : ({} : Context).sees p v = {} := rfl

theorem sget_map {α : Type} (d : α) (f : α → α) (hf : f d = d) (m : Sparse α) (n : Nat) :
    sget d (m.map fun x => (x.1, f x.2)) n = f (sget d m n) := by
  induction m with
  | nil => exact hf.symm
  | cons e t ih =>
    obtain ⟨k, v⟩ := e
    change (if n = k then f v else sget d (t.map fun x => (x.1, f x.2)) n) = f (if n = k then v else sget d t n)
    rw [ih]
    split <;> rfl

theorem setPeg_ctx (s : State) (p : Nat) (v : Word) (c : Ctx) : (s.setPeg p v).ctx c = (s.ctx c).sees p v :=
  sget_map ({} : Context) (fun x => x.sees p v) (sees_default p v) s.dxn.ctxs (ctxKey c)

theorem State.Keeps.setPeg {p v} (h : s₀.Keeps calm s) : s₀.Keeps calm (s.setPeg p v) := by
  refine ⟨h.pending, h.canonical, fun hq n => ?_⟩
  obtain ⟨hstatus, hcode⟩ := h.run hq n
  obtain ⟨hseen, hseenCode⟩ := sees_run (s.ctx (.c n)) p v
  rw [setPeg_ctx]
  exact ⟨hseen.trans hstatus, hseenCode.trans hcode⟩

theorem State.Keeps.addPeg {p v} (h : s₀.Keeps calm s) : s₀.Keeps calm (s.addPeg p v) := by
  unfold State.addPeg
  exact h.setPeg

theorem State.Keeps.pegAssign {first count domain} (h : s₀.Keeps calm s) : s₀.Keeps calm (s.pegAssign first count domain).2 := by
  unfold State.pegAssign
  extract_lets inside
  split
  · exact h
  · split
    · exact h
    · exact .foldl (fun _ _ h => .updDxn h) h

theorem State.Keeps.setPort {p x'} (h : s₀.Keeps calm s) : s₀.Keeps calm (s.setPort p x') := by
  unfold State.setPort
  exact .upd h

theorem State.Keeps.updFrame {id g} (h : s₀.Keeps calm s) : s₀.Keeps calm (s.updFrame id g) := by
  unfold State.updFrame
  exact .upd h

theorem State.Keeps.store {f} (h : s₀.Keeps calm s) : s₀.Keeps calm (s.store f).2 := by
  unfold State.store
  exact .upd h

theorem State.Keeps.setQueueKey {k l} (h : s₀.Keeps calm s) : s₀.Keeps calm (s.setQueueKey k l) := by
  unfold State.setQueueKey
  exact .upd h

theorem State.Keeps.setQueue {p c l} (h : s₀.Keeps calm s) : s₀.Keeps calm (s.setQueue p c l) := by
  unfold State.setQueue
  exact h.setQueueKey

theorem State.Keeps.place {p c id} (h : s₀.Keeps calm s) : s₀.Keeps calm (s.place p c id) := by
  unfold State.place
  extract_lets c1
  exact h.setQueue

theorem State.Keeps.meshPush {l c} (h : s₀.Keeps calm s) : s₀.Keeps calm (s.meshPush l c) := by
  unfold State.meshPush
  extract_lets q q1 _
  exact .upd h

theorem State.Keeps.meshLeave {l hit} (h : s₀.Keeps false s) : s₀.Keeps false (s.meshLeave l hit) := by
  unfold State.meshLeave
  extract_lets q _
  split
  · exact h
  · exact .foldl (fun _ _ h => .ite h h.meshPush) (.upd h)

theorem State.Keeps.meshTake {key seq n} (h : s₀.Keeps false s) : s₀.Keeps false (s.meshTake key seq n) := by
  induction n generalizing s with
  | zero =>
    unfold State.meshTake
    exact h
  | succ n ih =>
    unfold State.meshTake
    extract_lets hit
    split
    · exact h
    · exact ih h.meshLeave

theorem State.Keeps.spray {key a b n n'} (h : s₀.Keeps calm s) : s₀.Keeps calm (s.spray key a b n n') := by
  induction n generalizing s n' with
  | zero =>
    unfold State.spray
    exact h
  | succ n ih =>
    unfold State.spray
    exact ih h.meshPush

theorem State.Keeps.startCross {id targets kind} (h : s₀.Keeps calm s) : s₀.Keeps calm (s.startCross id targets kind) := by
  unfold State.startCross
  split
  · extract_lets k r
    split
    · rename_i t e
      have h1 : s₀.Keeps calm t := .of_snd h.store e
      extract_lets x r' _
      exact .spray (.upd h1)
  · exact h

theorem State.Keeps.deliver {p c id} (h : s₀.Keeps calm s) : s₀.Keeps calm (s.deliver p c id) := by
  unfold State.deliver
  split
  · exact h
  · exact .ite h.place h.startCross

theorem State.Keeps.mirrorCopy {n q b bad} (h : s₀.Keeps calm s) : s₀.Keeps calm (s.mirrorCopy n q b bad) := by
  unfold State.mirrorCopy
  extract_lets t b1 p c k
  split
  · exact h.count
  · split
    · rename_i t1 e
      have h1 : s₀.Keeps calm t1 := .of_snd h.store e
      exact h1.deliver

theorem State.Keeps.mirror {l copies q b bad} (h : s₀.Keeps calm s) : s₀.Keeps calm (s.mirror l copies q b bad).2 := by
  unfold State.mirror
  refine .foldl_snd (fun x n h1 => ?_) h
  split
  · exact h1.mirrorCopy
  · exact h1.count

theorem State.Keeps.sendCounted {p f} (h : s₀.Keeps calm s) : s₀.Keeps calm (s.sendCounted p f) := by
  unfold State.sendCounted
  extract_lets f1
  exact h.sendFrame.count.countBy

theorem State.Keeps.txFrame {p f} (h : s₀.Keeps calm s) : s₀.Keeps calm (s.txFrame p f) := by
  unfold State.txFrame
  exact h.sendCounted.mirror

theorem State.Keeps.timBit {f} (h : s₀.Keeps calm s) : s₀.Keeps calm (s.timBit f) := by
  unfold State.timBit
  exact .ite h h.setFld.raise

theorem State.Keeps.gapEntry (h : s₀.Keeps calm s) : s₀.Keeps calm s.gapEntry := by
  unfold State.gapEntry
  split
  · extract_lets last off s1 _
    have h1 : s₀.Keeps calm s1 := h.journal
    exact .upd h1
  · exact h

theorem State.Keeps.timTo {st} (h : s₀.Keeps calm s) : s₀.Keeps calm (s.timTo st) := by
  unfold State.timTo
  split
  · exact h
  · extract_lets s1 s11 _ s12
    have h1 : s₀.Keeps calm s1 := h.setFld.setFld
    have h11 : s₀.Keeps calm s11 := h1.raise
    have h12 : s₀.Keeps calm s12 := .upd h11
    exact .ite h12.setFld.gapEntry h12

theorem State.Keeps.timJump {t'} (h : s₀.Keeps calm s) : s₀.Keeps calm (s.timJump t') := by
  unfold State.timJump
  refine .raise ?_
  extract_lets s1 _
  have h1 : s₀.Keeps calm s1 := h.setFld
  exact .upd h1

theorem State.Keeps.timStep {d} (h : s₀.Keeps false s) : s₀.Keeps false (s.timStep d) := by
  unfold State.timStep
  exact h.timJump

theorem State.Keeps.servo {off} (h : s₀.Keeps false s) : s₀.Keeps false (s.servo off) := by
  unfold State.servo
  extract_lets s1 lock mag ppm100 r _ s11 _ s12 within beyond _ s13 _ s14 _
  have h1 : s₀.Keeps false s1 := h.setFld
  have h11 : s₀.Keeps false s11 := .upd h1
  have h12 : s₀.Keeps false s12 := .ite (.timStep (.upd h11)) (.upd h11)
  have h13 : s₀.Keeps false s13 := .ite h12.timTo (.ite h12.timTo (.upd h12))
  have h14 : s₀.Keeps false s14 := .upd h13
  exact .ite (.upd h14) h13

theorem State.Keeps.setPtp {p x'} (h : s₀.Keeps calm s) : s₀.Keeps calm (s.setPtp p x') := by
  unfold State.setPtp
  exact .upd h

theorem State.Keeps.ptpDecided {s''} (h : s₀.Keeps calm s) (hs'' : s₀.Keeps calm s'') : s₀.Keeps calm (s.ptpDecided s'') := by
  unfold State.ptpDecided
  split
  · exact h
  · extract_lets till
    exact .foldl (fun _ _ h => .ite h.setPtp h) h

theorem State.Keeps.parentRegs (h : s₀.Keeps calm s) : s₀.Keeps calm s.parentRegs := by
  unfold State.parentRegs
  extract_lets d s1 s11
  have h1 : s₀.Keeps calm s1 := h.setFld
  have h11 : s₀.Keeps calm s11 := h1.setFld.wr.wr
  split
  · extract_lets s12 s13
    have h12 : s₀.Keeps calm s12 := h1.setFld.wr
    have h13 : s₀.Keeps calm s13 := h12.wr.setFld
    exact h13.setFld.setFld
  · exact h11.setFld.setFld

theorem State.Keeps.bestMaster (h : s₀.Keeps calm s) : s₀.Keeps calm s.bestMaster := by
  unfold State.bestMaster
  extract_lets best _
  split
  · clear_value best
    split
    · split
      · exact h
      · extract_lets same s1
        have h1 : s₀.Keeps calm s1 := .parentRegs (.upd h)
        exact .ite h1 h1.timTo.timBit
    · exact h
  · clear_value best
    split
    · split
      · exact h
      · extract_lets same s1
        have h1 : s₀.Keeps calm s1 := .parentRegs (.upd h)
        exact .ite h1 h1.timTo.timBit
    · exact h

theorem State.Keeps.sourceLost (h : s₀.Keeps calm s) : s₀.Keeps calm s.sourceLost := by
  unfold State.sourceLost
  exact .timTo (.upd h)

theorem State.Keeps.parentLost (h : s₀.Keeps calm s) : s₀.Keeps calm s.parentLost := by
  unfold State.parentLost
  split
  · exact h
  · extract_lets p _ s1 s11
    have h1 : s₀.Keeps calm s1 := .upd h
    have h11 : s₀.Keeps calm s11 := h1.parentRegs.sourceLost
    exact .ptpDecided h11.bestMaster h11

theorem State.Keeps.timPortDown {p} (h : s₀.Keeps calm s) : s₀.Keeps calm (s.timPortDown p) := by
  unfold State.timPortDown
  extract_lets _ s1
  have h1 : s₀.Keeps calm s1 := .upd h
  exact .ite h1.parentLost h1

theorem State.Keeps.sourceChanged (h : s₀.Keeps calm s) : s₀.Keeps calm s.sourceChanged := by
  unfold State.sourceChanged
  extract_lets _ s1
  have h1 : s₀.Keeps calm s1 := .timTo (.parentRegs (.upd h))
  exact h1.bestMaster

theorem State.Keeps.setLanes {p f on} (h : s₀.Keeps calm s) : s₀.Keeps calm (s.setLanes p f on) := by
  unfold State.setLanes
  extract_lets x m
  exact h.setFld

theorem State.Keeps.creditFrame {p keepalive} (h : s₀.Keeps false s) : s₀.Keeps false (s.creditFrame p keepalive) := by
  unfold State.creditFrame
  extract_lets x n ret f
  exact .ite h.setPort h.setPort.count.txFrame

theorem State.Keeps.tailAbort {p vc reason cells} (h : s₀.Keeps false s) : s₀.Keeps false (s.tailAbort p vc reason cells) := by
  unfold State.tailAbort
  extract_lets x n f
  exact h.setPort.txFrame

theorem State.Keeps.sendLldp {p} (h : s₀.Keeps calm s) : s₀.Keeps calm (s.sendLldp p) := by
  unfold State.sendLldp
  extract_lets f _
  exact .ite h.setPort.count.txFrame h.setPort

theorem State.Keeps.returnCells {p c n} (h : s₀.Keeps calm s) : s₀.Keeps calm (s.returnCells p c n) := by
  unfold State.returnCells
  split
  · exact h
  · extract_lets x v
    exact h.setPort

theorem State.Keeps.sendPfc {p c quanta} (h : s₀.Keeps calm s) : s₀.Keeps calm (s.sendPfc p c quanta) := by
  unfold State.sendPfc
  extract_lets q s1
  have h1 : s₀.Keeps calm s1 := .ite h h.count
  exact h1.txFrame

theorem State.Keeps.pfcCheck {p c} (h : s₀.Keeps calm s) : s₀.Keeps calm (s.pfcCheck p c) := by
  unfold State.pfcCheck
  split
  · exact h
  · extract_lets x h1 t
    exact .ite h.setPort.sendPfc (.ite h.setPort.sendPfc h)

theorem State.Keeps.pfcCheckAll {p} (h : s₀.Keeps false s) : s₀.Keeps false (s.pfcCheckAll p) := by
  unfold State.pfcCheckAll
  exact .foldl (fun _ _ h => h.pfcCheck) h

theorem State.Keeps.rebalance {q} (h : s₀.Keeps calm s) : s₀.Keeps calm (s.rebalance q) := by
  unfold State.rebalance
  refine .foldl (fun t f h1 => ?_) h
  split
  · exact h1
  · extract_lets r k
    exact h1.updFrame.returnCells

theorem State.Keeps.rebalanceAll (h : s₀.Keeps calm s) : s₀.Keeps calm s.rebalanceAll := by
  unfold State.rebalanceAll
  exact .foldl (fun _ _ h => h.rebalance) h

theorem State.Keeps.freeFrame {id} (h : s₀.Keeps calm s) : s₀.Keeps calm (s.freeFrame id) := by
  unfold State.freeFrame
  split
  · exact h
  · extract_lets _ s1 s11
    have h1 : s₀.Keeps calm s1 := .upd h
    have h11 : s₀.Keeps calm s11 := .ite h1.returnCells.pfcCheck h1
    exact h11.rebalance

theorem State.Keeps.release {id} (h : s₀.Keeps calm s) : s₀.Keeps calm (s.release id) := by
  unfold State.release
  split
  · exact h
  · exact .ite h.freeFrame h.updFrame

theorem State.Keeps.freeCell {id} (h : s₀.Keeps false s) : s₀.Keeps false (s.freeCell id) := by
  unfold State.freeCell
  split
  · exact h
  · extract_lets s1 s11
    have h1 : s₀.Keeps false s1 := h.updFrame
    have h11 : s₀.Keeps false s11 := .ite h1.returnCells.pfcCheck h1
    exact h11.rebalance

theorem State.Keeps.admitFrame {f t w} (h : s₀.Keeps false s) (e : (s.admitFrame f) = some (w, t)) : s₀.Keeps false t := by
  unfold State.admitFrame at e
  split at e
  · cases e
  · cases e
    exact h.store.returnCells.rebalance.pfcCheck

theorem State.Keeps.ageOut {p c id} (h : s₀.Keeps calm s) : s₀.Keeps calm (s.ageOut p c id) := by
  unfold State.ageOut
  exact h.count.release

theorem State.Keeps.egressDrop {p c id} (h : s₀.Keeps calm s) : s₀.Keeps calm (s.egressDrop p c id) := by
  unfold State.egressDrop
  exact h.count.release

theorem State.Keeps.releaseTransfers {p c n} (h : s₀.Keeps calm s) : s₀.Keeps calm (s.releaseTransfers p c n) := by
  induction n generalizing s with
  | zero =>
    unfold State.releaseTransfers
    exact h
  | succ n ih =>
    unfold State.releaseTransfers
    split
    · exact h
    · extract_lets _ s1
      have h1 : s₀.Keeps calm s1 := .upd h
      split
      · exact ih h1
      · exact .ite (ih h1.ageOut) (.ite (ih h1.deliver) h)

theorem State.Keeps.execTransferQueueRelease {p c} (h : s₀.Keeps false s) : s₀.KeepsOut false (execTransferQueueRelease p c s) := by
  unfold Machine.execTransferQueueRelease
  exact .next h.releaseTransfers

theorem State.Keeps.enqueue {p c id lossless} (h : s₀.Keeps calm s) : s₀.Keeps calm (s.enqueue p c id lossless) := by
  unfold State.enqueue
  exact .ite h.deliver (.ite (.upd h) h.egressDrop)

theorem State.Keeps.queueWaits {p c} (h : s₀.Keeps calm s) : s₀.Keeps calm (s.queueWaits p c).2 := by
  unfold State.queueWaits
  extract_lets s1
  have h1 : s₀.Keeps calm s1 := h.releaseTransfers
  exact h1

theorem State.Keeps.placeCopy {p c id} (h : s₀.Keeps calm s) : s₀.Keeps calm (s.placeCopy p c id) := by
  unfold State.placeCopy
  split
  · exact h.place
  · split
    · rename_i t e
      have h1 : s₀.Keeps calm t := .of_snd h.queueWaits e
      exact .ite h1.place h1.egressDrop

theorem State.Keeps.farTargets {id c l} (h : s₀.Keeps false s) : s₀.Keeps false (s.farTargets id c l).2 := by
  unfold State.farTargets
  split
  · exact h
  · refine .foldl_snd (fun x p h => ?_) h
    have h1 := h.queueWaits (p := p) (c := c)
    dsimp only
    split
    · exact h1.count
    · exact h1

theorem State.Keeps.spread {id targets} (h : s₀.Keeps false s) : s₀.Keeps false (s.spread id targets) := by
  unfold State.spread
  split
  · exact h
  · extract_lets own
    split
    · rename_i t e
      have h1 : s₀.Keeps false t := .of_snd h.farTargets e
      extract_lets quads s1 s11 s12
      have h11 : s₀.Keeps false s1 := h1.updFrame
      have h12 : s₀.Keeps false s11 := .ite h11.freeFrame h11
      have h13 : s₀.Keeps false s12 := .foldl (fun _ _ h => h.placeCopy) h12
      exact .foldl (fun _ _ h => h.startCross) h13

theorem State.Keeps.landCrossing {c x'} (h : s₀.Keeps calm s) : s₀.Keeps calm (s.landCrossing c x') := by
  unfold State.landCrossing
  split
  · exact h
  · extract_lets s1
    have h1 : s₀.Keeps calm s1 := h.release
    split
    · exact h1.place
    · exact h1.enqueue
    · exact h1.freeFrame
    · exact .foldl (fun _ _ h => h.placeCopy) h1.updFrame

theorem State.Keeps.landAll {slice c n} (h : s₀.Keeps calm s) : s₀.Keeps calm (s.landAll slice c n) := by
  induction n generalizing s with
  | zero =>
    unfold State.landAll
    exact h
  | succ n ih =>
    unfold State.landAll
    extract_lets l _
    split
    · exact h
    · extract_lets r s1 s11
      have h1 : s₀.Keeps calm s1 := .upd h
      have h11 : s₀.Keeps calm s11 := .ite h1.count h1
      exact ih h11.landCrossing

theorem State.Keeps.settle {k r} (h : s₀.Keeps calm s) : s₀.Keeps calm (s.settle k r) := by
  unfold State.settle
  extract_lets _ s1
  have h1 : s₀.Keeps calm s1 := .upd h
  exact h1.landAll

theorem State.Keeps.skipGap {k r} (h : s₀.Keeps false s) : s₀.Keeps false (s.skipGap k r) := by
  unfold State.skipGap
  split
  · exact h
  · extract_lets inGap r1
    exact h.count.settle

theorem State.Keeps.dropCrossing {x'} (h : s₀.Keeps calm s) : s₀.Keeps calm (s.dropCrossing x') := by
  unfold State.dropCrossing
  exact h.release.freeFrame

theorem State.Keeps.cellCrosses {x'} (h : s₀.Keeps false s) : s₀.Keeps false (s.cellCrosses x') := by
  unfold State.cellCrosses
  split
  · exact h
  · extract_lets alone s1
    have h1 : s₀.Keeps false s1 := .ite h.freeCell h
    exact h1.updFrame

theorem State.Keeps.cellArrives {k q} (h : s₀.Keeps false s) : s₀.Keeps false (s.cellArrives k q) := by
  unfold State.cellArrives
  extract_lets r
  split
  · exact h
  · extract_lets s1 r1 r2
    have h1 : s₀.Keeps false s1 := h.meshTake.cellCrosses
    exact .ite h1.settle (.ite h1.settle (.ite h1.skipGap h1.settle))

theorem State.Keeps.cellLost {k q} (h : s₀.Keeps false s) : s₀.Keeps false (s.cellLost k q) := by
  unfold State.cellLost
  extract_lets p r s1
  have h1 : s₀.Keeps false s1 := h.meshTake
  split
  · exact h
  · extract_lets s11 r1 s12
    have h11 : s₀.Keeps false s11 := .ite h1 h1.count.dropCrossing
    have h12 : s₀.Keeps false s12 := h11.count
    exact .ite h11.settle (.ite h12.settle h12.settle)

theorem State.Keeps.execMeshCellArrival {stream seq} (h : s₀.Keeps false s) :
    s₀.KeepsOut false (execMeshCellArrival stream seq s) := by
  unfold Machine.execMeshCellArrival
  exact .next h.cellArrives

theorem State.Keeps.execReseqTimeout {stream} (h : s₀.Keeps false s) : s₀.KeepsOut false (execReseqTimeout stream s) := by
  unfold Machine.execReseqTimeout
  exact .next h.skipGap

theorem State.Keeps.execMeshCellLost {stream seq} (h : s₀.Keeps false s) : s₀.KeepsOut false (execMeshCellLost stream seq s) := by
  unfold Machine.execMeshCellLost
  exact .next h.cellLost

theorem State.Keeps.reclaim {q n} (h : s₀.Keeps false s) : s₀.Keeps false (s.reclaim q n) := by
  unfold State.reclaim
  extract_lets s1
  have h1 : s₀.Keeps false s1 := h.countBy
  exact h1.setFld

theorem State.Keeps.unqueue {gone} (h : s₀.Keeps false s) : s₀.Keeps false (s.unqueue gone) := by
  unfold State.unqueue
  extract_lets keep s1 _
  have h1 : s₀.Keeps false s1 := .foldl (fun _ _ h => h.setQueueKey) h
  exact .upd h1

theorem State.Keeps.loseBuffer {q} (h : s₀.Keeps false s) : s₀.Keeps false (s.loseBuffer q) := by
  unfold State.loseBuffer
  extract_lets mine ids s1 _ s11 gone s12 _ s13
  have h1 : s₀.Keeps false s1 := h.unqueue
  have h11 : s₀.Keeps false s11 := .upd h1
  have h12 : s₀.Keeps false s12 := .foldl (fun _ _ h => .foldl (fun _ _ h => h.dropCrossing) h) h11
  have h13 : s₀.Keeps false s13 := .upd h12
  exact .foldl (fun _ _ h => h.freeFrame) h13

theorem State.Keeps.reclaimAged {f} (h : s₀.Keeps false s) : s₀.Keeps false (s.reclaimAged f) := by
  unfold State.reclaimAged
  extract_lets l s1 s11
  have h1 : s₀.Keeps false s1 := h.unqueue
  have h11 : s₀.Keeps false s11 := .foldl (fun _ _ h => h.count) h1
  exact h11.reclaim.freeFrame

theorem State.Keeps.execAuditPass {strays} (h : s₀.Keeps false s) : s₀.KeepsOut false (execAuditPass strays s) := by
  unfold Machine.execAuditPass
  extract_lets s1 s11 old s12 lost leaks cells _ s13 s14 s15 s16 _ s17
  have h1 : s₀.Keeps false s1 := h.setFld
  have h11 : s₀.Keeps false s11 := h1.incFld
  have h12 : s₀.Keeps false s12 := .foldl (fun _ _ h => h.reclaimAged) h11
  have h13 : s₀.Keeps false s13 := .upd h12
  have h14 : s₀.Keeps false s14 := .foldl (fun _ _ h => h.reclaim.freeFrame) h13
  have h15 : s₀.Keeps false s15 := .foldl (fun _ _ h => h.reclaim) h14
  have h16 : s₀.Keeps false s16 := .foldl (fun _ _ h => h.reclaim) h15
  have h17 : s₀.Keeps false s17 := .upd h16
  split
  · exact .next h17
  · exact .next h17.setFld.raise

theorem State.Keeps.setSlot {e sl x'} (h : s₀.Keeps calm s) : s₀.Keeps calm (s.setSlot e sl x') := by
  unfold State.setSlot
  exact .upd h

theorem State.Keeps.dropEnded {e g seq} (h : s₀.Keeps calm s) : s₀.Keeps calm (s.dropEnded e g seq) := by
  unfold State.dropEnded
  exact .upd h

theorem State.Keeps.rememberEnded {x'} (h : s₀.Keeps calm s) : s₀.Keeps calm (s.rememberEnded x') := by
  unfold State.rememberEnded
  extract_lets s1 _
  have h1 : s₀.Keeps calm s1 := h.dropEnded
  exact .upd h1

theorem State.Keeps.engFrame {g op opSeq kind chunk code offset count sealCrc payload} (h : s₀.Keeps calm s) :
    s₀.Keeps calm (s.engFrame g op opSeq kind chunk code offset count sealCrc payload).2 := by
  unfold State.engFrame
  split
  · rename_i t e
    have h1 : s₀.Keeps calm t := .of_snd h.draw e
    extract_lets out h2 p
    exact h1

theorem State.Keeps.engEmit {g f r} (h : s₀.Keeps calm s) : s₀.Keeps calm (s.engEmit g f r) := by
  unfold State.engEmit
  exact h.emitInternal

theorem State.Keeps.toMcast {g f} (h : s₀.Keeps calm s) : s₀.Keeps calm (s.toMcast g f) := by
  unfold State.toMcast
  exact h.engEmit

theorem State.Keeps.toPeers {g f} (h : s₀.Keeps calm s) : s₀.Keeps calm (s.toPeers g f) := by
  unfold State.toPeers
  exact .foldl (fun _ _ h => h.engEmit) h

theorem State.Keeps.sendNotice {g op opSeq kind code} (h : s₀.Keeps calm s) :
    s₀.Keeps calm (s.sendNotice g op opSeq kind code) := by
  unfold State.sendNotice
  split
  · rename_i t e
    have h1 : s₀.Keeps calm t := .of_snd h.engFrame e
    exact h1.toMcast.toPeers

theorem State.Keeps.answerNotice {g op opSeq code port} (h : s₀.Keeps false s) :
    s₀.Keeps false (s.answerNotice g op opSeq code port) := by
  unfold State.answerNotice
  split
  · rename_i t e
    have h1 : s₀.Keeps false t := .of_snd h.engFrame e
    exact h1.engEmit

theorem State.Keeps.sendElems {g op opSeq kind chunk f sealCrc offset n data dest}
    (h : s₀.Keeps false s) (hdest : ∀ t x, s₀.Keeps false t → s₀.Keeps false (dest t x)) :
    s₀.Keeps false (s.sendElems g op opSeq kind chunk f sealCrc offset n data dest) := by
  unfold State.sendElems
  extract_lets per b32
  refine .foldl (fun t k h1 => ?_) h
  extract_lets c
  split
  · rename_i t1 e
    have h11 : s₀.Keeps false t1 := .of_snd h1.engFrame e
    exact hdest _ _ h11

theorem State.Keeps.requestGap {e sl chunk m from_} (h : s₀.Keeps false s) : s₀.Keeps false (s.requestGap e sl chunk m from_) := by
  unfold State.requestGap
  extract_lets x
  split
  · rename_i t e1
    have h1 : s₀.Keeps false t := .of_snd h.engFrame e1
    exact h1.engEmit.count

theorem State.Keeps.releaseOp {e g seq} (h : s₀.Keeps false s) : s₀.Keeps false (s.releaseOp e g seq) := by
  unfold State.releaseOp
  exact .upd h

theorem State.Keeps.emitChunk {b sl chunk payload t} (h : s₀.Keeps false s) (e : s.emitChunk b sl chunk payload = some t) :
    s₀.Keeps false t := by
  unfold State.emitChunk at e
  extract_lets x g r _ dest at e
  split at e
  · cases e
  · extract_lets s1 _ s2 s3 s4 f at e
    have h1 : s₀.Keeps false s1 := h.devWrite
    have h2 : s₀.Keeps false s2 := .upd h1
    have h4 : s₀.Keeps false s4 := h2.setSlot.wr
    have hdest : ∀ t fr, s₀.Keeps false t → s₀.Keeps false (dest t fr) := fun _ _ h => .ite h.count.engEmit h.count.toMcast
    cases e
    exact h4.sendElems hdest

theorem State.Keeps.writeOutcome {addr b} (h : s₀.Keeps false s) : s₀.Keeps false (s.writeOutcome addr b) := by
  unfold State.writeOutcome
  exact .ite h h.devWrite

theorem State.Keeps.dropEarly {e sl} (h : s₀.Keeps calm s) : s₀.Keeps calm (s.dropEarly e sl) := by
  unfold State.dropEarly
  extract_lets x
  exact .foldl (fun _ _ h => h.release) h.setSlot

theorem State.Keeps.freeSlot {e sl} (h : s₀.Keeps false s) : s₀.Keeps false (s.freeSlot e sl) := by
  unfold State.freeSlot
  exact h.dropEarly.setSlot.wr

theorem State.Keeps.countAbort {e code} (h : s₀.Keeps calm s) : s₀.Keeps calm (s.countAbort e code) := by
  unfold State.countAbort
  exact .ite h.count (.ite h.count h)

theorem State.Keeps.setChannel {e ch x'} (h : s₀.Keeps calm s) : s₀.Keeps calm (s.setChannel e ch x') := by
  unfold State.setChannel
  exact .upd h

theorem State.Keeps.cancelOn {e sl ch} (h : s₀.Keeps calm s) : s₀.Keeps calm (s.cancelOn e sl ch) := by
  unfold State.cancelOn
  extract_lets x mine begun left s1
  have h1 : s₀.Keeps calm s1 := h.setChannel
  split
  · exact h
  · split
    · exact h1
    · exact h1.addPeg

theorem State.Keeps.abortNotice {e x' code} (h : s₀.Keeps calm s) : s₀.Keeps calm (s.abortNotice e x' code) := by
  unfold State.abortNotice
  exact .ite h.sendNotice h

theorem State.Keeps.bindAbort {x' starter code} (h : s₀.Keeps calm s) : s₀.Keeps calm (s.bindAbort x' starter code) := by
  unfold State.bindAbort
  split
  · exact .ite h.updItem h
  · exact h

theorem State.Keeps.setCtx_b {e sl x'} (h : s₀.Keeps calm s) : s₀.Keeps calm (s.setCtx (bCtx e sl) x') := by
  refine ⟨h.pending, h.canonical, fun hq n => ?_⟩
  have hne : ctxKey (.c n) ≠ ctxKey (bCtx e sl) := by
    simp only [ctxKey, bCtx]
    omega
  have hctx : (s.setCtx (bCtx e sl) x').ctx (.c n) = s.ctx (.c n) := sget_sset_of_ne _ _ _ _ hne
  rw [hctx]
  exact h.run hq n

theorem State.Keeps.bsnAbort {e sl code origin detail} (h : s₀.Keeps calm s) :
    s₀.Keeps calm (s.bsnAbort e sl code origin detail) := by
  unfold State.bsnAbort
  split
  · exact h
  · extract_lets x c s1 s11 _ s12 k s13 s14 s15 s16
    have h1 : s₀.Keeps calm s1 := h.wr
    have h11 : s₀.Keeps calm s11 := h1.setSlot.dropEarly
    have h12 : s₀.Keeps calm s12 := .updDxn h11
    have h13 : s₀.Keeps calm s13 := h12.setCtx_b
    have h14 : s₀.Keeps calm s14 := h13.countAbort.abortNotice
    have h15 : s₀.Keeps calm s15 := .ite h14 h14.rememberEnded
    have h16 : s₀.Keeps calm s16 := h15.bindAbort
    exact .foldl (fun _ _ h => h.cancelOn) h16

theorem State.Keeps.bsnAbortEnd {e sl} (h : s₀.Keeps false s) : s₀.Keeps false (s.bsnAbortEnd e sl) := by
  unfold State.bsnAbortEnd
  extract_lets x code b s1 s11 s12 s13 s14
  have h1 : s₀.Keeps false s1 := h.writeOutcome
  have h11 : s₀.Keeps false s11 := .ite h1.addPeg h1
  have h12 : s₀.Keeps false s12 := .ite h11.raise h11
  have h13 : s₀.Keeps false s13 := h12.bsnLog
  have h14 : s₀.Keeps false s14 := .ite h13 h13.releaseOp
  exact h14.setSlot

theorem State.Keeps.leaveSlot {e sl b} (h : s₀.Keeps false s) : s₀.Keeps false (s.leaveSlot e sl b) := by
  unfold State.leaveSlot
  extract_lets x s1
  have h1 : s₀.Keeps false s1 := h.rememberEnded
  exact h1.freeSlot

theorem State.Keeps.bsnEnd {e sl} (h : s₀.Keeps false s) : s₀.Keeps false (s.bsnEnd e sl) := by
  unfold State.bsnEnd
  extract_lets x b s1 s11
  have h1 : s₀.Keeps false s1 := h.writeOutcome.addPeg
  have h11 : s₀.Keeps false s11 := .ite h1.raise h1
  exact h11.leaveSlot

theorem State.Keeps.bsnLate {o code} (h : s₀.Keeps false s) : s₀.Keeps false (s.bsnLate o code) := by
  unfold State.bsnLate
  split
  · exact h
  · extract_lets x void b s1 s11 s12 s13
    have h1 : s₀.Keeps false s1 := h.writeOutcome.addPeg
    have h11 : s₀.Keeps false s11 := h1.bsnLog
    have h12 : s₀.Keeps false s12 := h11.countAbort.abortNotice.bindAbort
    have h13 : s₀.Keeps false s13 := h12.releaseOp
    exact h13.rememberEnded

theorem State.Keeps.trussFault {n} (h : s₀.Keeps false s) : s₀.Keeps false (s.trussFault n) := by
  unfold State.trussFault
  extract_lets off e s1
  have h1 : s₀.Keeps false s1 := h.setFld
  exact .ite (.foldl (fun _ _ h => h.bsnAbort) h1) h

theorem State.Keeps.fenceMembers {p} (h : s₀.Keeps false s) : s₀.Keeps false (s.fenceMembers p) := by
  unfold State.fenceMembers
  refine .foldl (fun t k h1 => ?_) h
  extract_lets e sl g
  split
  · exact h1
  · exact h1.bsnAbort

theorem State.Keeps.abortWhere {e code p} (h : s₀.Keeps calm s) : s₀.Keeps calm (s.abortWhere e code p) := by
  unfold State.abortWhere
  exact .foldl (fun _ _ h => .ite h.bsnAbort h) h

theorem State.Keeps.dropFlushed (h : s₀.Keeps calm s) : s₀.Keeps calm s.dropFlushed := by
  unfold State.dropFlushed
  extract_lets used _
  exact .updDxn h

theorem State.Keeps.endCtx {c} (h : s₀.Keeps false s) : s₀.Keeps false (s.endCtx c) := by
  unfold State.endCtx
  extract_lets x s1
  have h1 : s₀.Keeps false s1 := h.setCtx.dropFlushed
  split
  · split
    · exact h1
    · split
      · exact h1
      · split
        · exact .ite h1.itemDone h1.itemDone
        · exact h1.itemDone
  · split
    · exact .ite h.setCtx.freeSlot.dropFlushed h
    · extract_lets s11
      have h11 : s₀.Keeps false s11 := .ite h.bsnEnd h.leaveSlot
      exact h11.setCtx.dropFlushed
  · exact h.setCtx.dropFlushed

theorem State.Keeps.tryEnd {c} (h : s₀.Keeps false s) : s₀.Keeps false (s.tryEnd c) := by
  unfold State.tryEnd
  exact .ite h.endCtx h

theorem State.Keeps.endAsEnd {c} (h : s₀.Keeps false s) : s₀.Keeps false (s.endAsEnd c) := by
  unfold State.endAsEnd
  extract_lets x s1
  have h1 : s₀.Keeps false s1 := h.setCtx
  split
  · exact h1.endCtx
  · split
    · extract_lets y
      exact .ite h1.wr h1
    · exact h1

theorem State.Keeps.except {c code index info} (h : s₀.Keeps false s) : s₀.Keeps false (s.except c code index info) := by
  unfold State.except
  split
  · exact h
  · extract_lets x s1 s11 s12 s13 s14 s15
    have h1 : s₀.Keeps false s1 := h.faultLog
    have h11 : s₀.Keeps false s11 := h1.setCtx
    have h12 : s₀.Keeps false s12 := by
      unfold s12
      split
      · exact h11.updItem
      · exact h11
    have h13 : s₀.Keeps false s13 := .ite h12 h12.addPeg
    have h14 : s₀.Keeps false s14 := .ite h13.count h13
    have h15 : s₀.Keeps false s15 := by
      unfold s15
      split
      · exact h14.trussFault
      · exact h14
    exact h15.tryEnd

theorem State.Keeps.memFail {c detail index} (h : s₀.Keeps false s) : s₀.Keeps false (s.memFail c detail index) := by
  unfold State.memFail
  split
  · exact h.except
  · split
    · exact h
    · extract_lets x s1 s11
      have h1 : s₀.Keeps false s1 := h.setCtx
      have h11 : s₀.Keeps false s11 := by
        unfold s11
        split
        · exact h1.updItem
        · exact h1
      exact h11.tryEnd

theorem State.Keeps.addLong {c kind locks} (h : s₀.Keeps false s) : s₀.Keeps false (s.addLong c kind locks) := by
  unfold State.addLong
  extract_lets x o _
  exact .updDxn h

theorem State.Keeps.dropLong {i} (h : s₀.Keeps false s) : s₀.Keeps false (s.dropLong i) := by
  unfold State.dropLong
  exact .updDxn h

theorem State.Keeps.updLong {i f} (h : s₀.Keeps false s) : s₀.Keeps false (s.updLong i f) := by
  unfold State.updLong
  exact .updDxn h

theorem State.Keeps.completeLong {o} (h : s₀.Keeps false s) : s₀.Keeps false (s.completeLong o) := by
  unfold State.completeLong
  extract_lets s1 s11
  have h1 : s₀.Keeps false s1 := h.dropLong
  have h11 : s₀.Keeps false s11 := by
    unfold s11
    split
    · exact h1.addPeg
    · exact h1
  exact h11.tryEnd

theorem State.Keeps.failLong {o code info} (h : s₀.Keeps false s) : s₀.Keeps false (s.failLong o code info) := by
  unfold State.failLong
  exact h.dropLong.except.tryEnd

theorem State.Keeps.failLongMem {o} (h : s₀.Keeps false s) : s₀.Keeps false (s.failLongMem o) := by
  unfold State.failLongMem
  exact h.dropLong.memFail.tryEnd

theorem State.Keeps.fetchCheck {c} (h : s₀.Keeps false s) : s₀.Keeps false (s.fetchCheck c) := by
  unfold State.fetchCheck
  extract_lets x
  split
  · exact h
  · split
    · exact h.except
    · extract_lets n
      exact .ite h h.except

theorem State.Keeps.advance {c pc} (h : s₀.Keeps false s) : s₀.Keeps false (s.advance c pc) := by
  unfold State.advance
  extract_lets x
  exact .ite h.setCtx.fetchCheck (.ite h.setCtx h)

theorem State.Keeps.countIssued {c} (h : s₀.Keeps false s) : s₀.Keeps false (s.countIssued c) := by
  unfold State.countIssued
  exact .ite h.count h

theorem State.Keeps.finish {c r} (h : s₀.Keeps false s) (hr : s₀.KeepsRes false r) : s₀.Keeps false (s.finish c r) := by
  unfold State.finish
  cases r with
  | go t => exact Keeps.advance (Keeps.countIssued hr)
  | jump t pc => exact Keeps.advance (Keeps.countIssued hr)
  | halt t => exact Keeps.countIssued hr
  | stall => exact h.setCtx
  | fault t code info => exact Keeps.except hr
  | mem t detail => exact Keeps.memFail (Keeps.countIssued hr)

theorem State.Keeps.issue {c w locks long k} (h : s₀.Keeps false s) (hk : ∀ t x, s₀.Keeps false t → s₀.KeepsRes false (k t x)) :
    s₀.Keeps false (s.issue c w locks long k) := by
  unfold State.issue
  extract_lets x
  split
  · exact h
  · split
    · exact h.except
    · exact .ite (.finish h trivial) (.finish h (hk _ _ h))

theorem State.Keeps.setV {c i x'} (h : s₀.Keeps false s) : s₀.Keeps false (s.setV c i x') := by
  unfold State.setV
  exact .updDxn h

theorem State.Keeps.setT {c i x'} (h : s₀.Keeps false s) : s₀.Keeps false (s.setT c i x') := by
  unfold State.setT
  exact .updDxn h

theorem State.Keeps.setA {c i x'} (h : s₀.Keeps false s) : s₀.Keeps false (s.setA c i x') := by
  unfold State.setA
  exact .updDxn h

theorem State.Keeps.localWrite {c a b} (h : s₀.Keeps calm s) : s₀.Keeps calm (s.localWrite c a b) := by
  unfold State.localWrite
  split
  · exact .updDxn h
  · exact .updDxn h
  · exact .updDxn h

theorem State.Keeps.spaceRead {c space a n read errs} (h : s₀.Keeps calm s) :
    s₀.Keeps calm (s.spaceRead c space a n read errs).1 := by
  unfold State.spaceRead
  split
  · exact h
  · split
    · rename_i t _ _ e
      have h1 : s₀.Keeps calm t := .of_fst h.devRead e
      exact h1
  · exact h
  · split
    · split
      · exact h.bsnAbort
      · exact h
    · exact h
  · exact h

theorem State.Keeps.spaceWrite {c space a b} (h : s₀.Keeps calm s) : s₀.Keeps calm (s.spaceWrite c space a b) := by
  unfold State.spaceWrite
  split
  · exact h.localWrite
  · exact h.devWrite
  · exact h.hostWrite
  · split
    · exact .upd h
    · exact h
  · exact h

theorem State.Keeps.scalar {c w f} (h : s₀.Keeps false s) : s₀.Keeps false (s.scalar c w f) := by
  unfold State.scalar
  exact .issue h (fun _ _ h => h.setCtx)

theorem State.Keeps.execDxnAdd {c body} (h : s₀.Keeps false s) : s₀.KeepsOut false (execDxnAdd c body s) := by
  unfold Machine.execDxnAdd
  extract_lets w
  exact .next h.scalar

theorem State.Keeps.execDxnSub {c body} (h : s₀.Keeps false s) : s₀.KeepsOut false (execDxnSub c body s) := by
  unfold Machine.execDxnSub
  extract_lets w
  exact .next h.scalar

theorem State.Keeps.execDxnMul {c body} (h : s₀.Keeps false s) : s₀.KeepsOut false (execDxnMul c body s) := by
  unfold Machine.execDxnMul
  extract_lets w
  exact .next h.scalar

theorem State.Keeps.execDxnMulh {c body} (h : s₀.Keeps false s) : s₀.KeepsOut false (execDxnMulh c body s) := by
  unfold Machine.execDxnMulh
  extract_lets w
  exact .next h.scalar

theorem State.Keeps.divide {c w fi ff} (h : s₀.Keeps false s) : s₀.Keeps false (s.divide c w fi ff) := by
  unfold State.divide
  refine .issue h (fun t x h1 => ?_)
  split
  · exact h1
  · exact h1.setCtx

theorem State.Keeps.execDxnDiv {c body} (h : s₀.Keeps false s) : s₀.KeepsOut false (execDxnDiv c body s) := by
  unfold Machine.execDxnDiv
  exact .next h.divide

theorem State.Keeps.execDxnRem {c body} (h : s₀.Keeps false s) : s₀.KeepsOut false (execDxnRem c body s) := by
  unfold Machine.execDxnRem
  exact .next h.divide

theorem State.Keeps.execDxnMin {c body} (h : s₀.Keeps false s) : s₀.KeepsOut false (execDxnMin c body s) := by
  unfold Machine.execDxnMin
  extract_lets w
  exact .next h.scalar

theorem State.Keeps.execDxnMax {c body} (h : s₀.Keeps false s) : s₀.KeepsOut false (execDxnMax c body s) := by
  unfold Machine.execDxnMax
  extract_lets w
  exact .next h.scalar

theorem State.Keeps.execDxnAnd {c body} (h : s₀.Keeps false s) : s₀.KeepsOut false (execDxnAnd c body s) := by
  unfold Machine.execDxnAnd
  extract_lets w
  exact .next h.scalar

theorem State.Keeps.execDxnOr {c body} (h : s₀.Keeps false s) : s₀.KeepsOut false (execDxnOr c body s) := by
  unfold Machine.execDxnOr
  extract_lets w
  exact .next h.scalar

theorem State.Keeps.execDxnXor {c body} (h : s₀.Keeps false s) : s₀.KeepsOut false (execDxnXor c body s) := by
  unfold Machine.execDxnXor
  extract_lets w
  exact .next h.scalar

theorem State.Keeps.execDxnShl {c body} (h : s₀.Keeps false s) : s₀.KeepsOut false (execDxnShl c body s) := by
  unfold Machine.execDxnShl
  extract_lets w
  exact .next h.scalar

theorem State.Keeps.execDxnShr {c body} (h : s₀.Keeps false s) : s₀.KeepsOut false (execDxnShr c body s) := by
  unfold Machine.execDxnShr
  extract_lets w
  exact .next h.scalar

theorem State.Keeps.execDxnSra {c body} (h : s₀.Keeps false s) : s₀.KeepsOut false (execDxnSra c body s) := by
  unfold Machine.execDxnSra
  extract_lets w
  exact .next h.scalar

theorem State.Keeps.execDxnFma {c body} (h : s₀.Keeps false s) : s₀.KeepsOut false (execDxnFma c body s) := by
  unfold Machine.execDxnFma
  extract_lets w t
  exact .next h.scalar

theorem State.Keeps.execDxnCmp {c body} (h : s₀.Keeps false s) : s₀.KeepsOut false (execDxnCmp c body s) := by
  unfold Machine.execDxnCmp
  extract_lets w
  exact .next h.scalar

theorem State.Keeps.execDxnSel {c body} (h : s₀.Keeps false s) : s₀.KeepsOut false (execDxnSel c body s) := by
  unfold Machine.execDxnSel
  extract_lets w
  exact .next h.scalar

theorem State.Keeps.execDxnCvt {c body} (h : s₀.Keeps false s) : s₀.KeepsOut false (execDxnCvt c body s) := by
  unfold Machine.execDxnCvt
  extract_lets w
  exact .next h.scalar

theorem State.Keeps.execDxnMovi {c body} (h : s₀.Keeps false s) : s₀.KeepsOut false (execDxnMovi c body s) := by
  unfold Machine.execDxnMovi
  extract_lets w
  exact .next h.scalar

theorem State.Keeps.execDxnMovhi {c body} (h : s₀.Keeps false s) : s₀.KeepsOut false (execDxnMovhi c body s) := by
  unfold Machine.execDxnMovhi
  extract_lets w
  exact .next h.scalar

theorem State.Keeps.execDxnAddi {c body} (h : s₀.Keeps false s) : s₀.KeepsOut false (execDxnAddi c body s) := by
  unfold Machine.execDxnAddi
  extract_lets w
  exact .next h.scalar

theorem State.Keeps.execDxnAndi {c body} (h : s₀.Keeps false s) : s₀.KeepsOut false (execDxnAndi c body s) := by
  unfold Machine.execDxnAndi
  extract_lets w
  exact .next h.scalar

theorem State.Keeps.execDxnOri {c body} (h : s₀.Keeps false s) : s₀.KeepsOut false (execDxnOri c body s) := by
  unfold Machine.execDxnOri
  extract_lets w
  exact .next h.scalar

theorem State.Keeps.execDxnXori {c body} (h : s₀.Keeps false s) : s₀.KeepsOut false (execDxnXori c body s) := by
  unfold Machine.execDxnXori
  extract_lets w
  exact .next h.scalar

theorem State.Keeps.execDxnShli {c body} (h : s₀.Keeps false s) : s₀.KeepsOut false (execDxnShli c body s) := by
  unfold Machine.execDxnShli
  extract_lets w
  exact .next h.scalar

theorem State.Keeps.execDxnShri {c body} (h : s₀.Keeps false s) : s₀.KeepsOut false (execDxnShri c body s) := by
  unfold Machine.execDxnShri
  extract_lets w
  exact .next h.scalar

theorem State.Keeps.execDxnSrai {c body} (h : s₀.Keeps false s) : s₀.KeepsOut false (execDxnSrai c body s) := by
  unfold Machine.execDxnSrai
  extract_lets w
  exact .next h.scalar

theorem State.Keeps.execDxnCmpi {c body} (h : s₀.Keeps false s) : s₀.KeepsOut false (execDxnCmpi c body s) := by
  unfold Machine.execDxnCmpi
  extract_lets w
  exact .next h.scalar

theorem State.Keeps.execDxnPlog {c body} (h : s₀.Keeps false s) : s₀.KeepsOut false (execDxnPlog c body s) := by
  unfold Machine.execDxnPlog
  extract_lets w
  exact .next h.scalar

theorem State.Keeps.execDxnPmov {c body} (h : s₀.Keeps false s) : s₀.KeepsOut false (execDxnPmov c body s) := by
  unfold Machine.execDxnPmov
  extract_lets w
  exact .next h.scalar

theorem State.Keeps.vPut {c w r} (h : s₀.Keeps false s) : s₀.Keeps false (s.vPut c w r) := by
  unfold State.vPut
  exact h.setV.setCtx

theorem State.Keeps.vector {c w locks r} (h : s₀.Keeps false s) : s₀.Keeps false (s.vector c w locks r) := by
  unfold State.vector
  exact .issue h (fun _ _ h => h.vPut)

theorem State.Keeps.execDxnVadd {c body} (h : s₀.Keeps false s) : s₀.KeepsOut false (execDxnVadd c body s) := by
  unfold Machine.execDxnVadd
  extract_lets w
  exact .next h.vector

theorem State.Keeps.execDxnVsub {c body} (h : s₀.Keeps false s) : s₀.KeepsOut false (execDxnVsub c body s) := by
  unfold Machine.execDxnVsub
  extract_lets w
  exact .next h.vector

theorem State.Keeps.execDxnVmul {c body} (h : s₀.Keeps false s) : s₀.KeepsOut false (execDxnVmul c body s) := by
  unfold Machine.execDxnVmul
  extract_lets w
  exact .next h.vector

theorem State.Keeps.execDxnVfma {c body} (h : s₀.Keeps false s) : s₀.KeepsOut false (execDxnVfma c body s) := by
  unfold Machine.execDxnVfma
  extract_lets w
  exact .next h.vector

theorem State.Keeps.execDxnVmin {c body} (h : s₀.Keeps false s) : s₀.KeepsOut false (execDxnVmin c body s) := by
  unfold Machine.execDxnVmin
  extract_lets w
  exact .next h.vector

theorem State.Keeps.execDxnVmax {c body} (h : s₀.Keeps false s) : s₀.KeepsOut false (execDxnVmax c body s) := by
  unfold Machine.execDxnVmax
  extract_lets w
  exact .next h.vector

theorem State.Keeps.execDxnVdiv {c body} (h : s₀.Keeps false s) : s₀.KeepsOut false (execDxnVdiv c body s) := by
  unfold Machine.execDxnVdiv
  extract_lets w
  exact .next h.vector

theorem State.Keeps.execDxnVsqrt {c body} (h : s₀.Keeps false s) : s₀.KeepsOut false (execDxnVsqrt c body s) := by
  unfold Machine.execDxnVsqrt
  extract_lets w
  exact .next h.vector

theorem State.Keeps.execDxnVand {c body} (h : s₀.Keeps false s) : s₀.KeepsOut false (execDxnVand c body s) := by
  unfold Machine.execDxnVand
  extract_lets w
  exact .next h.vector

theorem State.Keeps.execDxnVor {c body} (h : s₀.Keeps false s) : s₀.KeepsOut false (execDxnVor c body s) := by
  unfold Machine.execDxnVor
  extract_lets w
  exact .next h.vector

theorem State.Keeps.execDxnVxor {c body} (h : s₀.Keeps false s) : s₀.KeepsOut false (execDxnVxor c body s) := by
  unfold Machine.execDxnVxor
  extract_lets w
  exact .next h.vector

theorem State.Keeps.execDxnVshl {c body} (h : s₀.Keeps false s) : s₀.KeepsOut false (execDxnVshl c body s) := by
  unfold Machine.execDxnVshl
  extract_lets w
  exact .next h.vector

theorem State.Keeps.execDxnVshr {c body} (h : s₀.Keeps false s) : s₀.KeepsOut false (execDxnVshr c body s) := by
  unfold Machine.execDxnVshr
  extract_lets w
  exact .next h.vector

theorem State.Keeps.execDxnVsra {c body} (h : s₀.Keeps false s) : s₀.KeepsOut false (execDxnVsra c body s) := by
  unfold Machine.execDxnVsra
  extract_lets w
  exact .next h.vector

theorem State.Keeps.execDxnVcmp {c body} (h : s₀.Keeps false s) : s₀.KeepsOut false (execDxnVcmp c body s) := by
  unfold Machine.execDxnVcmp
  extract_lets w
  exact .next h.vector

theorem State.Keeps.execDxnVsel {c body} (h : s₀.Keeps false s) : s₀.KeepsOut false (execDxnVsel c body s) := by
  unfold Machine.execDxnVsel
  extract_lets w
  exact .next h.vector

theorem State.Keeps.execDxnVcvt {c body} (h : s₀.Keeps false s) : s₀.KeepsOut false (execDxnVcvt c body s) := by
  unfold Machine.execDxnVcvt
  extract_lets w
  exact .next h.vector

theorem State.Keeps.execDxnVbcast {c body} (h : s₀.Keeps false s) : s₀.KeepsOut false (execDxnVbcast c body s) := by
  unfold Machine.execDxnVbcast
  extract_lets w
  exact .next h.vector

theorem State.Keeps.execDxnVext {c body} (h : s₀.Keeps false s) : s₀.KeepsOut false (execDxnVext c body s) := by
  unfold Machine.execDxnVext
  extract_lets w t
  exact .next (.issue h (fun _ _ h => h.setCtx))

theorem State.Keeps.execDxnVins {c body} (h : s₀.Keeps false s) : s₀.KeepsOut false (execDxnVins c body s) := by
  unfold Machine.execDxnVins
  extract_lets w
  exact .next h.vector

theorem State.Keeps.execDxnVred {c body} (h : s₀.Keeps false s) : s₀.KeepsOut false (execDxnVred c body s) := by
  unfold Machine.execDxnVred
  extract_lets w
  exact .next (.issue h (fun _ _ h => h.setCtx))

theorem State.Keeps.execDxnVrand {c body} (h : s₀.Keeps false s) : s₀.KeepsOut false (execDxnVrand c body s) := by
  unfold Machine.execDxnVrand
  extract_lets w
  refine .next (.issue h (fun t x h1 => ?_))
  extract_lets v
  exact h1.setV.setCtx

theorem State.Keeps.putTile {c d t' codes scales} (h : s₀.Keeps false s) : s₀.Keeps false (s.putTile c d t' codes scales) := by
  unfold State.putTile
  extract_lets x n rest
  exact .ite h.setT (.setT (.upd h))

theorem State.Keeps.countMma {c t' u} (h : s₀.Keeps false s) : s₀.Keeps false (s.countMma c t' u) := by
  unfold State.countMma
  extract_lets n p m
  exact h.countBy.countBy

theorem State.Keeps.execDxnMma {c body} (h : s₀.Keeps false s) : s₀.KeepsOut false (execDxnMma c body s) := by
  unfold Machine.execDxnMma
  extract_lets w t u
  refine .next (.issue h (fun t1 x h1 => ?_))
  extract_lets ta tb old r x1
  exact h1.setCtx.countMma.addLong

theorem State.Keeps.execDxnAzero {c body} (h : s₀.Keeps false s) : s₀.KeepsOut false (execDxnAzero c body s) := by
  unfold Machine.execDxnAzero
  extract_lets w
  exact .next (.issue h (fun _ _ h => h.setA))

theorem State.Keeps.execDxnAload {c body} (h : s₀.Keeps false s) : s₀.KeepsOut false (execDxnAload c body s) := by
  unfold Machine.execDxnAload
  extract_lets w
  refine .next (.issue h (fun t x h1 => ?_))
  extract_lets r
  exact h1.setA.setCtx

theorem State.Keeps.execDxnAcvt {c body} (h : s₀.Keeps false s) : s₀.KeepsOut false (execDxnAcvt c body s) := by
  unfold Machine.execDxnAcvt
  extract_lets w t
  refine .next (.issue h (fun t1 x h1 => ?_))
  extract_lets a r x1
  split
  · exact h1.putTile
  · exact h1.putTile.setCtx

theorem State.Keeps.execDxnTrd {c body} (h : s₀.Keeps false s) : s₀.KeepsOut false (execDxnTrd c body s) := by
  unfold Machine.execDxnTrd
  extract_lets w
  refine .next (.issue h (fun t x h1 => ?_))
  extract_lets r
  exact h1.setV.setCtx

theorem State.Keeps.execDxnTwr {c body} (h : s₀.Keeps false s) : s₀.KeepsOut false (execDxnTwr c body s) := by
  unfold Machine.execDxnTwr
  extract_lets w t n
  refine .next (.issue h (fun t1 x h1 => ?_))
  extract_lets v d row r x1 codes scales lo seg b
  split
  · exact h1.setT.setCtx
  · exact h1.setT.setCtx

theorem State.Keeps.execDxnArd {c body} (h : s₀.Keeps false s) : s₀.KeepsOut false (execDxnArd c body s) := by
  unfold Machine.execDxnArd
  extract_lets w
  exact .next (.issue h (fun _ _ h => h.setV))

theorem State.Keeps.execDxnAwr {c body} (h : s₀.Keeps false s) : s₀.KeepsOut false (execDxnAwr c body s) := by
  unfold Machine.execDxnAwr
  extract_lets w
  refine .next (.issue h (fun t x h1 => ?_))
  extract_lets l
  exact h1.setA

theorem State.Keeps.execDxnTtrans {c body} (h : s₀.Keeps false s) : s₀.KeepsOut false (execDxnTtrans c body s) := by
  unfold Machine.execDxnTtrans
  extract_lets w t
  exact .next (.issue h (fun _ _ h => h.putTile))

theorem State.Keeps.execDxnTcvt {c body} (h : s₀.Keeps false s) : s₀.KeepsOut false (execDxnTcvt c body s) := by
  unfold Machine.execDxnTcvt
  extract_lets w t u
  refine .next (.issue h (fun t1 x h1 => ?_))
  extract_lets a val r x1
  split
  · exact h1.putTile
  · exact h1.putTile.setCtx

theorem State.Keeps.execDxnTzero {c body} (h : s₀.Keeps false s) : s₀.KeepsOut false (execDxnTzero c body s) := by
  unfold Machine.execDxnTzero
  extract_lets w
  exact .next (.issue h (fun _ _ h => h.setT))

theorem State.Keeps.execDxnTgen {c body} (h : s₀.Keeps false s) : s₀.KeepsOut false (execDxnTgen c body s) := by
  unfold Machine.execDxnTgen
  extract_lets w t
  refine .next (.issue h (fun t1 x h1 => ?_))
  extract_lets key ctr
  exact h1.putTile

theorem State.Keeps.setStream {k x'} (h : s₀.Keeps false s) : s₀.Keeps false (s.setStream k x') := by
  unfold State.setStream
  exact .updDxn h

theorem State.Keeps.issueSend {c p kind} (h : s₀.Keeps false s) : s₀.KeepsRes false (s.issueSend c p kind) := by
  unfold State.issueSend
  extract_lets k
  split
  · exact h
  · split
    · exact trivial
    · exact h.addLong

theorem State.Keeps.execDxnSend {c body} (h : s₀.Keeps false s) : s₀.KeepsOut false (execDxnSend c body s) := by
  unfold Machine.execDxnSend
  extract_lets w
  exact .next (.issue h (fun _ _ h => h.issueSend))

theorem State.Keeps.issueRecv {c p kind locks} (h : s₀.Keeps false s) : s₀.KeepsRes false (s.issueRecv c p kind locks) := by
  unfold State.issueRecv
  split
  · exact h
  · exact h.addLong

theorem State.Keeps.execDxnRecv {c body} (h : s₀.Keeps false s) : s₀.KeepsOut false (execDxnRecv c body s) := by
  unfold Machine.execDxnRecv
  extract_lets w
  exact .next (.issue h (fun _ _ h => h.issueRecv))

theorem State.Keeps.execDxnSendm {c body} (h : s₀.Keeps false s) : s₀.KeepsOut false (execDxnSendm c body s) := by
  unfold Machine.execDxnSendm
  extract_lets w
  refine .next (.issue h (fun t x h1 => ?_))
  extract_lets a
  split
  · exact h1
  · exact h1.issueSend

theorem State.Keeps.execDxnRecvm {c body} (h : s₀.Keeps false s) : s₀.KeepsOut false (execDxnRecvm c body s) := by
  unfold Machine.execDxnRecvm
  extract_lets w
  refine .next (.issue h (fun t x h1 => ?_))
  extract_lets a
  split
  · exact h1
  · exact h1.issueRecv

theorem State.Keeps.execDxnSpoll {c body} (h : s₀.Keeps false s) : s₀.KeepsOut false (execDxnSpoll c body s) := by
  unfold Machine.execDxnSpoll
  extract_lets w k
  refine .next (.issue h (fun t x h1 => ?_))
  split
  · exact h1
  · exact h1.setCtx

theorem State.Keeps.takeSend {k} (h : s₀.Keeps false s) : s₀.Keeps false (s.takeSend k).1 := by
  unfold State.takeSend
  split
  · exact h
  · split
    · exact h.completeLong
    · split
      · rename_i t _ e
        have h1 : s₀.Keeps false t := .of_fst h.spaceRead e
        split
        · exact h1.completeLong
        · exact h1.failLongMem
    · exact h

theorem State.Keeps.channelTake {e ch k} (h : s₀.Keeps false s) : s₀.Keeps false (s.channelTake e ch k) := by
  unfold State.channelTake
  split
  · exact h
  · split
    · rename_i t _ e1
      have h1 : s₀.Keeps false t := .of_fst h.takeSend e1
      exact h1.setChannel
    · rename_i t e1
      have h1 : s₀.Keeps false t := .of_fst h.takeSend e1
      exact h1

theorem State.Keeps.execStreamTileArrival {q row col port} (h : s₀.Keeps false s) :
    s₀.KeepsOut false (execStreamTileArrival q row col port s) := by
  unfold Machine.execStreamTileArrival
  extract_lets k x
  split
  · exact .next h
  · split
    · split
      · exact .next h
      · split
        · rename_i t _ e
          have h1 : s₀.Keeps false t := .of_fst h.takeSend e
          split
          · exact .next h1
          · exact .next h1.setStream
    · extract_lets y
      split
      · exact .next h
      · extract_lets s1
        have h1 : s₀.Keeps false s1 := h.setChannel
        exact .next h1.setStream
    · exact .next h.channelTake
    · exact .next h

theorem State.Keeps.sendRequest {o} (h : s₀.Keeps false s) : s₀.Keeps false (s.sendRequest o) := by
  unfold State.sendRequest
  split
  · exact h.sendFar
  · exact h

theorem State.Keeps.applyFar {domain peg set value} (h : s₀.Keeps false s) :
    s₀.Keeps false (s.applyFar domain peg set value).2 := by
  unfold State.applyFar
  split
  · exact h
  · split
    · exact h
    · exact .ite h.setPeg h.addPeg

theorem State.Keeps.issueFar {c x' w set} (h : s₀.Keeps false s) : s₀.KeepsRes false (s.issueFar c x' w set) := by
  unfold State.issueFar
  extract_lets f target peg v seq s1 r s11
  have h1 : s₀.Keeps false s1 := h.setCtx
  have h11 : s₀.Keeps false r.2 := h1.applyFar
  have h12 : s₀.Keeps false s11 := h1.addLong
  split
  · exact h
  · split
    · exact trivial
    · split
      · exact h11.addLong
      · split
        · exact h12.sendRequest
        · exact h12

theorem State.Keeps.pegWrite {c w set} (h : s₀.Keeps false s) : s₀.Keeps false (s.pegWrite c w set) := by
  unfold State.pegWrite
  refine .issue h (fun t x h1 => ?_)
  split
  · exact h1.issueFar
  · split
    · exact h1
    · split
      · exact trivial
      · exact .ite h1.setPeg h1.addPeg

theorem State.Keeps.execDxnPegAdd {c body} (h : s₀.Keeps false s) : s₀.KeepsOut false (execDxnPegAdd c body s) := by
  unfold Machine.execDxnPegAdd
  exact .next h.pegWrite

theorem State.Keeps.execDxnPegSet {c body} (h : s₀.Keeps false s) : s₀.KeepsOut false (execDxnPegSet c body s) := by
  unfold Machine.execDxnPegSet
  exact .next h.pegWrite

theorem State.Keeps.pegWait {c w eq} (h : s₀.Keeps false s) : s₀.Keeps false (s.pegWait c w eq) := by
  unfold State.pegWait
  refine .issue h (fun t x h1 => ?_)
  extract_lets p k
  split
  · exact h1
  · split
    · exact h1.setCtx
    · exact h1.setCtx

theorem State.Keeps.execDxnPegWaitGe {c body} (h : s₀.Keeps false s) : s₀.KeepsOut false (execDxnPegWaitGe c body s) := by
  unfold Machine.execDxnPegWaitGe
  exact .next h.pegWait

theorem State.Keeps.execDxnPegWaitEq {c body} (h : s₀.Keeps false s) : s₀.KeepsOut false (execDxnPegWaitEq c body s) := by
  unfold Machine.execDxnPegWaitEq
  exact .next h.pegWait

theorem State.Keeps.execDxnPegArmTimeout {c body} (h : s₀.Keeps false s) : s₀.KeepsOut false (execDxnPegArmTimeout c body s) := by
  unfold Machine.execDxnPegArmTimeout
  extract_lets w
  exact .next (.issue h (fun _ _ h => h.setCtx))

theorem State.Keeps.resume {c k ok} (h : s₀.Keeps false s) : s₀.Keeps false (s.resume c k ok) := by
  unfold State.resume
  extract_lets x _
  exact h.setCtx.fetchCheck

theorem State.Keeps.execPegWaitSatisfied {c} (h : s₀.Keeps false s) : s₀.KeepsOut false (execPegWaitSatisfied c s) := by
  unfold Machine.execPegWaitSatisfied
  split
  · split
    · exact .next h.resume
    · exact .next h
  · exact .next h

theorem State.Keeps.execPegWaitTimeout {c} (h : s₀.Keeps false s) : s₀.KeepsOut false (execPegWaitTimeout c s) := by
  unfold Machine.execPegWaitTimeout
  split
  · split
    · exact .next h
    · split
      · exact .next h.resume
      · exact .next h.except
  · exact .next h

theorem State.Keeps.execDxnBind {c body} (h : s₀.Keeps false s) : s₀.KeepsOut false (execDxnBind c body s) := by
  unfold Machine.execDxnBind
  extract_lets w p
  refine .next (.issue h (fun t x h1 => ?_))
  split
  · exact h1.setCtx
  · split
    · exact h1
    · exact h1.setCtx

theorem State.Keeps.execDxnFarset {c body} (h : s₀.Keeps false s) : s₀.KeepsOut false (execDxnFarset c body s) := by
  unfold Machine.execDxnFarset
  extract_lets w
  refine .next (.issue h (fun t x h1 => ?_))
  split
  · exact h1.setCtx
  · exact trivial

theorem State.Keeps.execDxnFence {c body} (h : s₀.Keeps false s) : s₀.KeepsOut false (execDxnFence c body s) := by
  unfold Machine.execDxnFence
  refine .next (.issue h (fun t x h1 => ?_))
  split
  · exact h1
  · exact trivial

theorem State.Keeps.execDxnPegrd {c body} (h : s₀.Keeps false s) : s₀.KeepsOut false (execDxnPegrd c body s) := by
  unfold Machine.execDxnPegrd
  extract_lets w
  refine .next (.issue h (fun t x h1 => ?_))
  split
  · exact h1
  · exact h1.setCtx

theorem State.Keeps.farResult {o peg result} (h : s₀.Keeps false s) : s₀.Keeps false (s.farResult o peg result) := by
  unfold State.farResult
  exact .ite h.completeLong (.ite h.failLong h)

theorem State.Keeps.farAck {m} (h : s₀.Keeps false s) : s₀.Keeps false (s.farAck m) := by
  unfold State.farAck
  split
  · exact h
  · split
    · exact h.farResult
    · exact h

theorem State.Keeps.execFarPegRetry {op} (h : s₀.Keeps false s) : s₀.KeepsOut false (execFarPegRetry op s) := by
  unfold Machine.execFarPegRetry
  split
  · exact .next h
  · split
    · split
      · exact .next h.updLong.sendRequest
      · exact .next h.failLong
    · exact .next h

theorem State.Keeps.farRoom {t} (h : s₀.Keeps false s) (e : (s.farRoom) = some t) : s₀.Keeps false t := by
  unfold State.farRoom at e
  split at e
  · cases e; exact h
  · split at e
    · cases e; exact .upd h
    · cases e

theorem State.Keeps.putFarStream {m e} (h : s₀.Keeps false s) : s₀.Keeps false (s.putFarStream m e) := by
  unfold State.putFarStream
  exact .upd h

theorem State.Keeps.sendAck {m r} (h : s₀.Keeps false s) : s₀.Keeps false (s.sendAck m r) := by
  unfold State.sendAck
  exact h.sendFar

theorem State.Keeps.farStep {m e} (h : s₀.Keeps false s) : s₀.Keeps false (s.farStep m e) := by
  unfold State.farStep
  extract_lets h1 skip h2 e1 d r q kept
  have h11 : s₀.Keeps false r.2 := h.applyFar
  exact .ite h.putFarStream.sendAck (.ite h.putFarStream.sendAck h11.putFarStream.sendAck)

theorem State.Keeps.farTarget {m} (h : s₀.Keeps false s) : s₀.Keeps false (s.farTarget m) := by
  unfold State.farTarget
  split
  · exact .ite h.farStep (.ite h.putFarStream.sendAck h.farStep)
  · split
    · rename_i t e
      have h1 : s₀.Keeps false t := h.farRoom e
      exact h1.farStep
    · rename_i e
      exact h.sendAck

theorem State.Keeps.farReceive {slice msg} (h : s₀.Keeps false s) : s₀.Keeps false (s.farReceive slice msg) := by
  unfold State.farReceive
  split
  · exact h
  · split
    · exact h.count
    · exact .ite h.farTarget h.farAck

theorem State.Keeps.execFarPegRequest {msg} (h : s₀.Keeps false s) : s₀.KeepsOut false (execFarPegRequest msg s) := by
  unfold Machine.execFarPegRequest
  exact .next h.farReceive

theorem State.Keeps.execFarPegAck {msg} (h : s₀.Keeps false s) : s₀.KeepsOut false (execFarPegAck msg s) := by
  unfold Machine.execFarPegAck
  exact .next h.farReceive

theorem State.Keeps.execFarPegEntryEvict {sender agent who slot} (h : s₀.Keeps false s) :
    s₀.KeepsOut false (execFarPegEntryEvict sender agent who slot s) := by
  unfold Machine.execFarPegEntryEvict
  extract_lets mine _
  exact .next (.upd h)

theorem State.Keeps.takeTarget {x' target} (h : s₀.Keeps false s) : s₀.KeepsRes false (takeTarget s x' target) := by
  unfold Machine.takeTarget
  split
  · exact h
  · exact h

theorem State.Keeps.execDxnBr {c body} (h : s₀.Keeps false s) : s₀.KeepsOut false (execDxnBr c body s) := by
  unfold Machine.execDxnBr
  extract_lets w cond
  refine .next (.issue h (fun t x h1 => ?_))
  extract_lets p
  split
  · exact h1
  · split
    · rename_i r t1 _ e
      have h11 : s₀.Keeps false t1 := .of_res h1.takeTarget e
      exact .ite h11.setCtx h11
    · rename_i r _
      exact h1.takeTarget

theorem State.Keeps.execDxnJr {c body} (h : s₀.Keeps false s) : s₀.KeepsOut false (execDxnJr c body s) := by
  unfold Machine.execDxnJr
  extract_lets w
  refine .next (.issue h (fun t x h1 => ?_))
  split
  · rename_i r t1 _ e
    have h11 : s₀.Keeps false t1 := .of_res h1.takeTarget e
    exact .ite h11.setCtx h11
  · rename_i r _
    exact h1.takeTarget

theorem State.Keeps.execDxnDbnz {c body} (h : s₀.Keeps false s) : s₀.KeepsOut false (execDxnDbnz c body s) := by
  unfold Machine.execDxnDbnz
  extract_lets w
  refine .next (.issue h (fun t x h1 => ?_))
  extract_lets v s1
  have h11 : s₀.Keeps false s1 := h1.setCtx
  split
  · exact h11
  · split
    · rename_i r t1 _ e
      have h12 : s₀.Keeps false t1 := .of_res h1.takeTarget e
      exact h11
    · rename_i r _
      exact h1.takeTarget

theorem State.Keeps.execDxnEnd {c body} (h : s₀.Keeps false s) : s₀.KeepsOut false (execDxnEnd c body s) := by
  unfold Machine.execDxnEnd
  exact .next (.issue h (fun _ _ h => h.setCtx.endAsEnd))

theorem State.Keeps.execContextEnd {c} (h : s₀.Keeps false s) : s₀.KeepsOut false (execContextEnd c s) := by
  unfold Machine.execContextEnd
  extract_lets x
  exact .next (.ite h.endCtx h)

theorem State.Keeps.execRunLimitExpiry {n} (h : s₀.Keeps false s) : s₀.KeepsOut false (execRunLimitExpiry n s) := by
  unfold Machine.execRunLimitExpiry
  extract_lets c x
  exact .next (.ite h (.ite h.setCtx.except (.ite h.except h)))

theorem State.Keeps.trieUpdate {b} (h : s₀.Keeps false s) : s₀.Keeps false (s.trieUpdate b) := by
  unfold State.trieUpdate
  extract_lets before need s1
  have h1 : s₀.Keeps false s1 := h.setFld
  exact .ite h1.fwdEvent h1

theorem State.Keeps.tableErrs {slice l} (h : s₀.Keeps false s) : s₀.Keeps false (s.tableErrs slice l) := by
  unfold State.tableErrs
  refine .foldl (fun t e h1 => ?_) h
  split
  · exact h1.count
  · extract_lets k _ s1
    have h11 : s₀.Keeps false s1 := .ite h1 (.upd h1)
    exact h11.fwdEvent.count
  · exact .ite h1 (.upd h1)

theorem State.Keeps.commitRow {t' b r x'} (h : s₀.Keeps false s) : s₀.Keeps false (s.commitRow t' b r x') := by
  unfold State.commitRow
  extract_lets k _ s1
  have h1 : s₀.Keeps false s1 := .upd h
  exact .ite h1.trieUpdate h1

theorem State.Keeps.landRow {t' b r x'} (h : s₀.Keeps false s) : s₀.Keeps false (s.landRow t' b r x') := by
  unfold State.landRow
  extract_lets live k _
  exact .ite (.upd h) h.commitRow

theorem State.Keeps.seglock {a} (h : s₀.Keeps false s) : s₀.Keeps false (s.seglock a).2 := by
  unfold State.seglock
  split
  · exact h
  · split
    · exact h
    · split
      · exact h
      · exact h.setBit

theorem State.Keeps.segpub {a} (h : s₀.Keeps false s) : s₀.Keeps false (s.segpub a).2 := by
  unfold State.segpub
  split
  · exact h
  · split
    · exact h
    · extract_lets p bytes _ s1 s11
      have h1 : s₀.Keeps false s1 := .upd h
      have h11 : s₀.Keeps false s11 := .foldl (fun _ _ h => h.commitRow) h1
      split
      · exact h
      · split
        · exact h
        · split
          · exact h
          · exact h11.setBit

theorem State.Keeps.eflip {a} (h : s₀.Keeps calm s) : s₀.Keeps calm (s.eflip a).2 := by
  unfold State.eflip
  extract_lets ns r _
  split
  · exact h
  · split
    · exact h
    · exact .wr (.setFld (.upd h))

theorem State.Keeps.eflipFrom {a source domain} (h : s₀.Keeps false s) : s₀.Keeps false (s.eflipFrom a source domain).2 := by
  unfold State.eflipFrom
  extract_lets r
  have h1 : s₀.Keeps false r.2 := by
    unfold r
    split
    · exact h
    · exact h.eflip
  exact h1.cfgLog

theorem State.Keeps.ageSafePoint (h : s₀.Keeps calm s) : s₀.Keeps calm s.ageSafePoint := by
  unfold State.ageSafePoint
  exact .ite h (.upd h)

theorem State.Keeps.epochFlip (h : s₀.Keeps calm s) : s₀.Keeps calm s.epochFlip := by
  unfold State.epochFlip
  split
  · exact h
  · extract_lets b e s1 _
    have h1 : s₀.Keeps calm s1 := h.wr
    exact .planeFlipped (.fwdEvent (.upd h1))

theorem State.Keeps.execEpochFlip (h : s₀.Keeps false s) : s₀.KeepsOut false (execEpochFlip s) := by
  unfold Machine.execEpochFlip
  exact .next h.epochFlip

theorem State.Keeps.execEpochRetire (h : s₀.Keeps false s) : s₀.KeepsOut false (execEpochRetire s) := by
  unfold Machine.execEpochRetire
  split
  · exact .next h
  · extract_lets s1
    have h1 : s₀.Keeps false s1 := h.setFld.ageSafePoint
    exact .next h1.fwdEvent

theorem State.Keeps.execTrieRebuilt {slice bank node} (h : s₀.Keeps false s) :
    s₀.KeepsOut false (execTrieRebuilt slice bank node s) := by
  unfold Machine.execTrieRebuilt
  extract_lets _ s1
  have h1 : s₀.Keeps false s1 := .upd h
  split
  · rename_i t e
    have h11 : s₀.Keeps false t := .of_snd h1.draw e
    exact .next h11.fwdEvent

theorem State.Keeps.shadowOf {w read errs} (h : s₀.Keeps false s) : s₀.Keeps false (s.shadowOf w read errs).1 := by
  unfold State.shadowOf
  extract_lets x n a
  split
  · exact h
  · split
    · rename_i t _ _ e
      have h1 : s₀.Keeps false t := .of_fst h.devRead e
      exact h1

theorem State.Keeps.mismatch {w shadow} (h : s₀.Keeps false s) : s₀.Keeps false (s.mismatch w shadow) := by
  unfold State.mismatch
  extract_lets s1
  have h1 : s₀.Keeps false s1 := h.fwdEvent
  exact .ite h1.commitRow.fwdEvent h1

theorem State.Keeps.execShadowCompareRow {read errs found} (h : s₀.Keeps false s) :
    s₀.KeepsOut false (execShadowCompareRow read errs found s) := by
  unfold Machine.execShadowCompareRow
  split
  · exact .next h
  · split
    · exact .next h
    · extract_lets _ s1
      have h1 : s₀.Keeps false s1 := .tableErrs (.upd h)
      split
      · rename_i t _ e
        have h11 : s₀.Keeps false t := .of_fst h1.shadowOf e
        split
        · exact .next h11.fwdEvent
        · split
          · exact .next h11.mismatch
          · split
            · exact .next h11
            · exact .next (.upd h11)

theorem State.Keeps.execShadowRecheck {read errs found} (h : s₀.Keeps false s) :
    s₀.KeepsOut false (execShadowRecheck read errs found s) := by
  unfold Machine.execShadowRecheck
  split
  · exact .next h
  · extract_lets _ s1
    have h1 : s₀.Keeps false s1 := .upd h
    split
    · exact .next h1
    · split
      · rename_i t _ e
        have h11 : s₀.Keeps false t := .of_fst h1.tableErrs.shadowOf e
        split
        · exact .next h11.fwdEvent
        · split
          · exact .next h11
          · exact .next h11.mismatch

theorem State.Keeps.dropMac {p} (h : s₀.Keeps calm s) : s₀.Keeps calm (s.dropMac p) := by
  unfold State.dropMac
  extract_lets gone _ s1
  have h1 : s₀.Keeps calm s1 := .upd h
  exact .foldl (fun _ _ h => h.setFld) h1

theorem State.Keeps.execMacAgeExpiry {mac vlan} (h : s₀.Keeps false s) : s₀.KeepsOut false (execMacAgeExpiry mac vlan s) := by
  unfold Machine.execMacAgeExpiry
  extract_lets age
  exact .next h.dropMac

theorem State.Keeps.blockFault {l r} (h : s₀.Keeps false s) (e : blockFault s l = some r) : s₀.KeepsRes false r := by
  unfold Machine.blockFault at e
  extract_lets best at e
  split at e
  · cases e
  · cases e; exact h
  · cases e; exact h.draw

theorem State.Keeps.addLongOrDone {c kind n} (h : s₀.Keeps false s) : s₀.Keeps false (s.addLongOrDone c kind n) := by
  unfold State.addLongOrDone
  extract_lets s1
  have h1 : s₀.Keeps false s1 := h.addLong
  split
  · split
    · exact h1.completeLong
    · exact h1
  · exact h1

theorem State.Keeps.transfer {c w n align write k} (h : s₀.Keeps false s) (hk : ∀ x t, s₀.Keeps false t → s₀.KeepsRes false (k x t)) :
    s₀.KeepsRes false (s.transfer c w n align write k) := by
  unfold State.transfer
  extract_lets a
  split
  · exact h
  · exact hk _ _ h

theorem State.Keeps.execDxnVld {c body} (h : s₀.Keeps false s) : s₀.KeepsOut false (execDxnVld c body s) := by
  unfold Machine.execDxnVld
  extract_lets w
  exact .next (.issue h (fun _ _ h => State.Keeps.transfer h (fun _ _ h => h.addLong)))

theorem State.Keeps.execDxnVst {c body} (h : s₀.Keeps false s) : s₀.KeepsOut false (execDxnVst c body s) := by
  unfold Machine.execDxnVst
  extract_lets w
  exact .next (.issue h (fun _ _ h => State.Keeps.transfer h (fun _ _ h => h.addLong)))

theorem State.Keeps.execDxnTld {c body} (h : s₀.Keeps false s) : s₀.KeepsOut false (execDxnTld c body s) := by
  unfold Machine.execDxnTld
  extract_lets w
  exact .next (.issue h (fun _ _ h => State.Keeps.transfer h (fun _ _ h => h.addLong)))

theorem State.Keeps.execDxnTst {c body} (h : s₀.Keeps false s) : s₀.KeepsOut false (execDxnTst c body s) := by
  unfold Machine.execDxnTst
  extract_lets w
  exact .next (.issue h (fun _ _ h => State.Keeps.transfer h (fun _ _ h => h.addLong)))

theorem State.Keeps.execDxnMove {c body} (h : s₀.Keeps false s) : s₀.KeepsOut false (execDxnMove c body s) := by
  unfold Machine.execDxnMove
  extract_lets w
  refine .next (.issue h (fun t x h1 => ?_))
  extract_lets dst src n
  split
  · rename_i r e
    have h11 : s₀.KeepsRes false r := h1.blockFault e
    exact h11
  · rename_i e
    exact h1.addLongOrDone

theorem State.Keeps.execDxnFill {c body} (h : s₀.Keeps false s) : s₀.KeepsOut false (execDxnFill c body s) := by
  unfold Machine.execDxnFill
  extract_lets w
  refine .next (.issue h (fun t x h1 => ?_))
  extract_lets dst n
  split
  · rename_i r e
    have h11 : s₀.KeepsRes false r := h1.blockFault e
    exact h11
  · rename_i e
    exact h1.addLongOrDone

theorem State.Keeps.execDxnXmove {c body} (h : s₀.Keeps false s) : s₀.KeepsOut false (execDxnXmove c body s) := by
  unfold Machine.execDxnXmove
  extract_lets w
  refine .next (.issue h (fun t x h1 => ?_))
  extract_lets t1 dev n
  split
  · rename_i r e
    have h11 : s₀.KeepsRes false r := h1.blockFault e
    exact h11
  · rename_i e
    exact h1.addLongOrDone

theorem State.Keeps.execDxnTdma {c body} (h : s₀.Keeps false s) : s₀.KeepsOut false (execDxnTdma c body s) := by
  unfold Machine.execDxnTdma
  extract_lets w
  refine .next (.issue h (fun t x h1 => ?_))
  split
  · rename_i r e
    have h11 : s₀.KeepsRes false r := h1.blockFault e
    exact h11
  · rename_i e
    extract_lets n
    split
    · exact trivial
    · exact h1.addLongOrDone

theorem State.Keeps.copyUnits {unit rd wr n n'}
    (h : s₀.Keeps false s) (hrd : ∀ t x, s₀.Keeps false t → s₀.Keeps false (rd t x).1) (hwr : ∀ t x x1, s₀.Keeps false t → s₀.Keeps false (wr t x x1)) :
    s₀.Keeps false (copyUnits unit rd wr n n' s).1 := by
  induction n generalizing s n' with
  | zero => exact h
  | succ n ih =>
    unfold Machine.copyUnits
    have h1 := hrd s (n' * unit) h
    split
    rename_i t b e
    replace h1 : s₀.Keeps false t := h1.of_fst e
    split
    · exact h1
    · exact ih (hwr _ _ _ h1)

theorem State.Keeps.readUnit {c space base off n read errs} (h : s₀.Keeps false s) :
    s₀.Keeps false (s.readUnit c space base off n read errs).1 := by
  unfold State.readUnit
  split
  · exact h
  · exact h.spaceRead

theorem State.Keeps.endLong {o ok} (h : s₀.Keeps false s) : s₀.Keeps false (s.endLong o ok) := by
  unfold State.endLong
  exact .ite h.completeLong h.failLongMem

theorem State.Keeps.doMove {o sp dp src dst n read errs} (h : s₀.Keeps false s) :
    s₀.Keeps false (s.doMove o sp dp src dst n read errs) := by
  unfold State.doMove
  exact (h.copyUnits (fun _ _ h => h.readUnit) (fun _ _ _ h => h.spaceWrite)).endLong

theorem State.Keeps.doFill {o sp dst v width count} (h : s₀.Keeps false s) : s₀.Keeps false (s.doFill o sp dst v width count) := by
  unfold State.doFill
  exact (h.copyUnits (fun _ _ h => h) (fun _ _ _ h => h.spaceWrite)).endLong

theorem State.Keeps.doXmove {o into target loc dev n sp read errs} (h : s₀.Keeps false s) :
    s₀.Keeps false (s.doXmove o into target loc dev n sp read errs) := by
  unfold State.doXmove
  extract_lets t
  refine .endLong (.ite_fst ?_ ?_)
  · exact h.copyUnits (fun _ _ h => h.readUnit) (fun _ _ _ h => h.localWrite)
  · exact h.copyUnits (fun _ _ h => h) (fun _ _ _ h => h.spaceWrite)

theorem State.Keeps.doTdma {o bank table row src n sp read errs} (h : s₀.Keeps false s) :
    s₀.Keeps false (s.doTdma o bank table row src n sp read errs) := by
  unfold State.doTdma
  refine .ite h ?_
  exact (h.copyUnits (fun _ _ h => h.readUnit) (fun _ _ _ h => h.landRow)).endLong

theorem State.Keeps.doVload {o v sp a n read errs} (h : s₀.Keeps false s) : s₀.Keeps false (s.doVload o v sp a n read errs) := by
  unfold State.doVload
  split
  · rename_i t _ e
    have h1 : s₀.Keeps false t := .of_fst h.spaceRead e
    split
    · exact h1.setV.completeLong
    · exact h1.failLongMem

theorem State.Keeps.doTload {o t' sp a read errs} (h : s₀.Keeps false s) : s₀.Keeps false (s.doTload o t' sp a read errs) := by
  unfold State.doTload
  split
  · rename_i t _ e
    have h1 : s₀.Keeps false t := .of_fst h.spaceRead e
    split
    · exact h1.setT.completeLong
    · exact h1.failLongMem

theorem State.Keeps.doRecv {o p put} (h : s₀.Keeps false s) (hput : ∀ t x, s₀.Keeps false t → s₀.Keeps false (put t x)) :
    s₀.Keeps false (s.doRecv o p put) := by
  unfold State.doRecv
  extract_lets k x
  split
  · exact h
  · split
    · exact (hput _ _ h.setStream).completeLong
    · split
      · exact .ite h.failLongMem h
      · exact h

theorem State.Keeps.putAccum {e sl addr i l} (h : s₀.Keeps false s) : s₀.Keeps false (s.putAccum e sl addr i l) := by
  unfold State.putAccum
  exact .upd h

theorem State.Keeps.accumulate {e sl f} (h : s₀.Keeps false s) : s₀.Keeps false (s.accumulate e sl f) := by
  unfold State.accumulate
  extract_lets x k inf old new l
  exact h.putAccum

theorem State.Keeps.gapFrame {e sl chunk m expected} (h : s₀.Keeps false s) :
    s₀.Keeps false (s.gapFrame e sl chunk m expected) := by
  unfold State.gapFrame
  extract_lets x k k1
  exact .ite h h.setSlot.requestGap

theorem State.Keeps.takeContribution {e sl f errs} (h : s₀.Keeps false s) : s₀.Keeps false (s.takeContribution e sl f errs) := by
  unfold State.takeContribution
  extract_lets x k want s1 k1
  have h1 : s₀.Keeps false s1 := .ite h h.accumulate
  exact .ite h.count (.ite h.gapFrame (.ite h.bsnAbort h1.setSlot.count))

theorem State.Keeps.contribute {e sl f errs} (h : s₀.Keeps false s) : s₀.Keeps false (s.contribute e sl f errs) := by
  unfold State.contribute
  extract_lets x
  exact .ite h.bsnAbort (.ite h.count (.ite (.ite h.bsnAbort h.takeContribution) (.ite h.setSlot.count h.setSlot)))

theorem State.Keeps.takeEarly {e sl chunk errs} (h : s₀.Keeps false s) : s₀.Keeps false (s.takeEarly e sl chunk errs) := by
  unfold State.takeEarly
  extract_lets x mine asked s1 s11
  have h1 : s₀.Keeps false s1 := h.setSlot
  have h11 : s₀.Keeps false s11 := .foldl (fun _ _ h => .release (.ite h.contribute h)) h1
  exact .ite h11 (.foldl (fun _ _ h => h.gapFrame) h11)

theorem State.Keeps.abortAt {e sl code detail} (h : s₀.Keeps false s) : s₀.KeepsRes false (s.abortAt e sl code detail) := by
  unfold State.abortAt
  exact h.bsnAbort

theorem State.Keeps.issueColl {c w ops long k}
    (h : s₀.Keeps false s) (hk : ∀ t x x1 x2, s₀.Keeps false t → s₀.KeepsRes false (k t x x1 x2)) :
    s₀.Keeps false (s.issueColl c w ops long k) := by
  unfold State.issueColl
  refine .issue h fun t x h1 => ?_
  split
  · split
    · exact hk _ _ _ _ h1
    · exact h1.abortAt
  · trivial

theorem State.Keeps.execDxnCacc {c body errs} (h : s₀.Keeps false s) : s₀.KeepsOut false (execDxnCacc c body errs s) := by
  unfold Machine.execDxnCacc
  extract_lets w
  refine .next (.issueColl h (fun t r e sl h1 => ?_))
  extract_lets x addr chunk k k1
  split
  · exact h1.abortAt
  · split
    · split
      · exact h1.abortAt
      · exact h1.setSlot.addLong.takeEarly
    · split
      · exact h1.abortAt
      · exact h1.setSlot.addLong.takeEarly

theorem State.Keeps.execDxnCemit {c body} (h : s₀.Keeps false s) : s₀.KeepsOut false (execDxnCemit c body s) := by
  unfold Machine.execDxnCemit
  extract_lets w
  refine .next (.issueColl h (fun t r e sl h1 => ?_))
  extract_lets x addr chunk _
  split
  · exact h1.abortAt
  · split
    · exact h1.abortAt
    · exact h1.setSlot.addLong

theorem State.Keeps.execDxnCgath {c body} (h : s₀.Keeps false s) : s₀.KeepsOut false (execDxnCgath c body s) := by
  unfold Machine.execDxnCgath
  extract_lets w
  refine .next (.issueColl h (fun t r e sl h1 => ?_))
  extract_lets x chunk k s1
  have h11 : s₀.Keeps false s1 := h1.setSlot
  split
  · exact h1.abortAt
  · split
    · exact h1.abortAt
    · exact h11.addLong.takeEarly

theorem State.Keeps.fabricTile {f b} (h : s₀.Keeps false s) : s₀.Keeps false (s.fabricTile f b).2 := by
  unfold State.fabricTile
  split
  · extract_lets m blk codes
    exact h
  · extract_lets w els
    exact .upd h

theorem State.Keeps.handTiles {x' chunk handoff cancel data} (h : s₀.Keeps false s) :
    s₀.Keeps false (s.handTiles x' chunk handoff cancel data).2 := by
  unfold State.handTiles
  exact .foldl_snd (fun _ _ h => h.fabricTile) h

theorem State.Keeps.hand {c e sl ch chunk addr n t'} (h : s₀.Keeps false s) :
    s₀.Keeps false (s.hand c e sl ch chunk addr n t') := by
  unfold State.hand
  extract_lets x off s1 h1 cancel f _
  have h11 : s₀.Keeps false s1 := h.incFld
  split
  · rename_i t e1
    have h12 : s₀.Keeps false t := .of_snd h11.handTiles e1
    extract_lets y hd s11
    have h13 : s₀.Keeps false s11 := h12.setChannel
    exact h13.setSlot.addLong

theorem State.Keeps.execDxnCapply {c body errs} (h : s₀.Keeps false s) : s₀.KeepsOut false (execDxnCapply c body errs s) := by
  unfold Machine.execDxnCapply
  extract_lets w
  refine .next (.issueColl h (fun t r e sl h1 => ?_))
  extract_lets x addr chunk ch
  split
  · exact h1
  · extract_lets t1 off
    split
    · exact h1
    · split
      · exact h1.abortAt
      · split
        · exact h1.abortAt
        · split
          · exact h1.abortAt
          · split
            · exact trivial
            · split
              · exact h1.abortAt
              · exact h1.hand

theorem State.Keeps.execDxnCbar {c body} (h : s₀.Keeps false s) : s₀.KeepsOut false (execDxnCbar c body s) := by
  unfold Machine.execDxnCbar
  extract_lets w
  refine .next (.issueColl h (fun t r e sl h1 => ?_))
  extract_lets x step kept
  exact h1.setSlot.addLong

theorem State.Keeps.execDxnCring {c body} (h : s₀.Keeps false s) : s₀.KeepsOut false (execDxnCring c body s) := by
  unfold Machine.execDxnCring
  extract_lets w
  refine .next (.issueColl h (fun t r e sl h1 => ?_))
  extract_lets x
  split
  · exact h1.abortAt
  · exact h1.addLong

theorem State.Keeps.execDxnCabort {c body} (h : s₀.Keeps false s) : s₀.KeepsOut false (execDxnCabort c body s) := by
  unfold Machine.execDxnCabort
  extract_lets w
  refine .next (.issueColl h (fun t r e sl h1 => ?_))
  extract_lets code
  exact h1.abortAt

theorem State.Keeps.execDxnCstat {c body} (h : s₀.Keeps false s) : s₀.KeepsOut false (execDxnCstat c body s) := by
  unfold Machine.execDxnCstat
  extract_lets w
  exact .next (.issueColl h (fun _ _ _ _ h => h.setCtx))

theorem State.Keeps.doCacc {o e sl chunk} (h : s₀.Keeps false s) : s₀.Keeps false (s.doCacc o e sl chunk) := by
  unfold State.doCacc
  split
  · extract_lets x _
    exact h.setSlot.completeLong
  · exact h

theorem State.Keeps.emitThen {o e sl chunk payload} (h : s₀.Keeps false s) : s₀.Keeps false (s.emitThen o e sl chunk payload) := by
  unfold State.emitThen
  split
  · rename_i t e1
    have h1 : s₀.Keeps false t := h.emitChunk e1
    exact h1.completeLong
  · rename_i e1
    exact h

theorem State.Keeps.doCemit {o e sl chunk addr errs} (h : s₀.Keeps false s) :
    s₀.Keeps false (s.doCemit o e sl chunk addr errs) := by
  unfold State.doCemit
  extract_lets x code
  exact .ite h.bsnAbort h.emitThen

theorem State.Keeps.doCgath {o e sl chunk} (h : s₀.Keeps false s) : s₀.Keeps false (s.doCgath o e sl chunk) := by
  unfold State.doCgath
  exact .ite h.emitThen h

theorem State.Keeps.doCapply {o e sl chunk} (h : s₀.Keeps false s) : s₀.Keeps false (s.doCapply o e sl chunk) := by
  unfold State.doCapply
  extract_lets p
  exact .ite h.completeLong h

theorem State.Keeps.doCbar {o e sl step} (h : s₀.Keeps false s) : s₀.Keeps false (s.doCbar o e sl step) := by
  unfold State.doCbar
  extract_lets x s1
  have h1 : s₀.Keeps false s1 := h.setSlot
  exact .ite h1.sendNotice.completeLong h

theorem State.Keeps.doCring {o e sl step} (h : s₀.Keeps false s) : s₀.Keeps false (s.doCring o e sl step) := by
  unfold State.doCring
  extract_lets x
  exact .ite h.setSlot.completeLong h

theorem State.Keeps.execLongOpComplete {op read errs} (h : s₀.Keeps false s) :
    s₀.KeepsOut false (execLongOpComplete op read errs s) := by
  unfold Machine.execLongOpComplete
  split
  · exact .next h
  · extract_lets c
    split
    · exact .next h.doMove
    · exact .next h.doFill
    · exact .next h.doXmove
    · exact .next h.doTdma
    · exact .next h.doVload
    · exact .next h.spaceWrite.completeLong
    · exact .next h.doTload
    · exact .next h.spaceWrite.completeLong
    · exact .next h.setA.setCtx.completeLong
    · exact .next h.setT.setCtx.completeLong
    · exact .next h.setV.setCtx.completeLong
    · exact .next h
    · exact .next (.ite h.devRead.failLongMem h)
    · exact .next (.doRecv h (fun _ _ h => h.setT))
    · exact .next (.doRecv h (fun _ _ h => h.spaceWrite))
    · split
      · exact .next h.farResult
      · exact .next h
    · split
      · clear_value c
        split
        · exact .next h.doCacc
        · exact .next h
      · clear_value c
        split
        · exact .next h.doCemit
        · exact .next h
      · clear_value c
        split
        · exact .next h.doCgath
        · exact .next h
      · clear_value c
        split
        · exact .next h.doCapply
        · exact .next h
      · clear_value c
        split
        · exact .next h.doCbar
        · exact .next h
      · clear_value c
        split
        · exact .next h.doCring
        · exact .next h
      · clear_value c
        split
        · exact .next h
        · exact .next h

theorem State.Keeps.inboxTake {b kind t w} (h : s₀.Keeps false s) (e : s.inboxTake b kind = some (w, t)) : s₀.Keeps false t := by
  unfold State.inboxTake at e
  split at e
  · split at e
    · cases e; exact .upd h
    · cases e
  · cases e

theorem State.Keeps.accept {e f} (h : s₀.Keeps false s) : s₀.Keeps false (s.accept e f).1 := by
  unfold State.accept
  split
  · exact h.count
  · split
    · split
      · exact h
      · exact h.count
    · split
      · split
        · exact h.answerNotice
        · exact h.count
      · exact h.count

theorem State.Keeps.steer {e f} (h : s₀.Keeps false s) : s₀.Keeps false (s.steer e f) := by
  unfold State.steer
  exact .ite (.upd h) h.accept.release

theorem State.Keeps.served {e kind k} (h : s₀.Keeps false s) (hk : ∀ t x x1, s₀.Keeps false t → s₀.Keeps false (k t x x1)) :
    s₀.Keeps false (s.served e kind k) := by
  unfold State.served
  split
  · rename_i e1
    exact h
  · rename_i t e1
    have h1 : s₀.Keeps false t := h.inboxTake e1
    extract_lets s1
    have h11 : s₀.Keeps false s1 := by
      unfold s1
      split
      · rename_i t1 _ e2
        have h11 : s₀.Keeps false t1 := .of_fst h1.accept e2
        exact hk _ _ _ h11
      · rename_i t1 e2
        have h11 : s₀.Keeps false t1 := .of_fst h1.accept e2
        exact h11
    exact .ite h11 h11.release

theorem State.Keeps.execContribution {e errs} (h : s₀.Keeps false s) : s₀.KeepsOut false (execContribution e errs s) := by
  unfold Machine.execContribution
  exact .next (.served h (fun _ _ _ h => h.contribute))

theorem State.Keeps.execAbortNotice {e} (h : s₀.Keeps false s) : s₀.KeepsOut false (execAbortNotice e s) := by
  unfold Machine.execAbortNotice
  exact .next (.served h (fun _ _ _ h => h.bsnAbort))

theorem State.Keeps.execBarrierArrival {e} (h : s₀.Keeps false s) : s₀.KeepsOut false (execBarrierArrival e s) := by
  unfold Machine.execBarrierArrival
  refine .next (.served h (fun t sl f h1 => ?_))
  extract_lets x
  exact .ite h1.setSlot h1.count

theorem State.Keeps.execStepDone {e} (h : s₀.Keeps false s) : s₀.KeepsOut false (execStepDone e s) := by
  unfold Machine.execStepDone
  refine .next (.served h (fun t sl f h1 => ?_))
  extract_lets x
  exact h1.setSlot

theorem State.Keeps.retainLost {e g seq} (h : s₀.Keeps false s) : s₀.Keeps false (s.retainLost e g seq) := by
  unfold State.retainLost
  split
  · extract_lets s1
    have h1 : s₀.Keeps false s1 := h.bsnLog
    exact h1.bsnAbort
  · split
    · extract_lets s1
      have h1 : s₀.Keeps false s1 := h.bsnLog
      exact h1.bsnLate
    · exact h

theorem State.Keeps.serveRetained {e op r f errs} (h : s₀.Keeps false s) : s₀.Keeps false (s.serveRetained e op r f errs) := by
  unfold State.serveRetained
  split
  · rename_i t _ _ e1
    have h1 : s₀.Keeps false t := .of_fst h.devRead e1
    split
    · exact h1.retainLost
    · extract_lets fmt n off cnt data s1
      have h11 : s₀.Keeps false s1 := h1.count
      exact .sendElems h11 (fun _ _ h => h.engEmit)

theorem State.Keeps.execRetransmitRequest {e errs} (h : s₀.Keeps false s) : s₀.KeepsOut false (execRetransmitRequest e errs s) := by
  unfold Machine.execRetransmitRequest
  split
  · rename_i e1
    exact .next h
  · rename_i t e1
    have h1 : s₀.Keeps false t := h.inboxTake e1
    extract_lets s1
    have h11 : s₀.Keeps false s1 := by
      unfold s1
      split
      · split
        · exact h1.accept
        · split
          · exact h1.count
          · split
            · exact h1.serveRetained
            · exact .ite h1.bsnLate h1
      · split
        · rename_i t1 e2
          have h11 : s₀.Keeps false t1 := .of_fst h1.accept e2
          exact h11
        · rename_i t1 _ e2
          have h11 : s₀.Keeps false t1 := .of_fst h1.accept e2
          split
          · exact h11.serveRetained
          · exact h11
    exact .next h11.release

theorem State.Keeps.execRetentionRelease {e group opSeq chunk} (h : s₀.Keeps false s) :
    s₀.KeepsOut false (execRetentionRelease e group opSeq chunk s) := by
  unfold Machine.execRetentionRelease
  exact .next (.upd h)

theorem State.Keeps.execAbortCodeExpiry {e group opSeq} (h : s₀.Keeps false s) :
    s₀.KeepsOut false (execAbortCodeExpiry e group opSeq s) := by
  unfold Machine.execAbortCodeExpiry
  exact .next (.upd h)

theorem State.Keeps.timeout {e sl miss} (h : s₀.Keeps false s) : s₀.Keeps false (s.timeout e sl miss) := by
  unfold State.timeout
  split
  · exact h.bsnAbort
  · extract_lets x up s1 _ s11
    have h1 : s₀.Keeps false s1 := h.bsnAbort
    have h11 : s₀.Keeps false s11 := .bsnLog (.upd h1)
    exact .ite h11.plnDispute h1

theorem State.Keeps.execCollectiveTimeout {op} (h : s₀.Keeps false s) : s₀.KeepsOut false (execCollectiveTimeout op s) := by
  unfold Machine.execCollectiveTimeout
  split
  · exact .next h
  · split
    · split
      · exact .next h
      · split
        · exact .next (.ite h h.timeout)
        · exact .next (.ite h h.timeout)
        · extract_lets x miss
          exact .next (.ite h h.timeout)
        · exact .next h
    · exact .next h

theorem State.Keeps.execStepBudgetExpiry {op} (h : s₀.Keeps false s) : s₀.KeepsOut false (execStepBudgetExpiry op s) := by
  unfold Machine.execStepBudgetExpiry
  split
  · exact .next h
  · split
    · exact .next (.ite h h.bsnAbort)
    · exact .next h

theorem State.Keeps.execApplyReportTimeout {e sl} (h : s₀.Keeps false s) : s₀.KeepsOut false (execApplyReportTimeout e sl s) := by
  unfold Machine.execApplyReportTimeout
  split
  · exact .next h
  · refine .next (.foldl (fun t ch h1 => ?_) h)
    extract_lets y mine s1
    have h11 : s₀.Keeps false s1 := h1.setChannel
    refine .foldl (fun t1 x h2 => ?_) h11
    extract_lets x1 _
    exact h2.setSlot

theorem State.Keeps.execAbortComplete {e sl} (h : s₀.Keeps false s) : s₀.KeepsOut false (execAbortComplete e sl s) := by
  unfold Machine.execAbortComplete
  exact .next (.ite h h.bsnAbortEnd.tryEnd)

theorem State.Keeps.outputWords {type t'} (h : s₀.Keeps false s) : s₀.Keeps false (s.outputWords type t').2 := by
  unfold State.outputWords
  extract_lets f l
  split
  · exact .upd h
  · exact h

theorem State.Keeps.sendFactors {e sl chunk addr n} (h : s₀.Keeps false s) : s₀.Keeps false (s.sendFactors e sl chunk addr n) := by
  unfold State.sendFactors
  extract_lets x f data
  exact .sendElems h (fun _ _ h => h.toPeers)

theorem State.Keeps.outputDone {e h' errs} (h : s₀.Keeps false s) : s₀.Keeps false (s.outputDone e h' errs) := by
  unfold State.outputDone
  extract_lets x n _ s1 code
  have h1 : s₀.Keeps false s1 := h.setSlot
  exact .ite h1 (.ite h1.bsnAbort h1.sendFactors)

theorem State.Keeps.outputLead {e ch n ret h' rest t' errs} (h : s₀.Keeps false s) :
    s₀.Keeps false (s.outputLead e ch n ret h' rest t' errs) := by
  unfold State.outputLead
  extract_lets tiles x h1 _ s1
  have h11 : s₀.Keeps false s1 := h.setChannel
  exact .ite h.trussFault (.ite h11.outputDone h11)

theorem State.Keeps.outputTile {e ch ret h' rest t' errs} (h : s₀.Keeps false s) :
    s₀.Keeps false (s.outputTile e ch ret h' rest t' errs) := by
  unfold State.outputTile
  extract_lets h'1 _ s1
  have h1 : s₀.Keeps false s1 := h.setChannel
  split
  · split
    · rename_i t e1
      have h11 : s₀.Keeps false t := .of_snd h1.outputWords e1
      extract_lets s11
      have h12 : s₀.Keeps false s11 := h11.putAccum
      exact .ite h12.outputDone h12
  · exact h1

theorem State.Keeps.report {b ch n ret ho rest w t} (h : s₀.Keeps false s) (e : s.report b ch n ret ho rest w = some t) :
    s₀.Keeps false t := by
  unfold State.report at e
  split at e
  · cases e; exact h.trussFault
  · have h1 : s₀.Keeps false s.draw.2 := h.draw
    dsimp only at e
    split at e
    · cases e; exact h1.setSlot.setChannel
    · exact h1.setSlot.setChannel.emitChunk e

theorem State.Keeps.channelUse {e ch n ret errs} (h : s₀.Keeps false s) : s₀.Keeps false (s.channelUse e ch n ret errs) := by
  unfold State.channelUse
  split
  · exact h
  · extract_lets _ t
    have h1 : s₀.Keeps false t := h.setChannel
    split
    · exact h1.trussFault
    · refine .ite h1.outputLead (.ite h1.outputTile ?_)
      cases e : t.report _ _ _ _ _ _ _ with
      | none => exact h
      | some u => exact h1.report e

theorem State.Keeps.execChannelTileReceive {e ch errs} (h : s₀.Keeps false s) :
    s₀.KeepsOut false (execChannelTileReceive e ch errs s) := by
  unfold Machine.execChannelTileReceive
  split
  · exact .next h
  · extract_lets t k
    exact .next h.channelTake.channelTake.channelUse

theorem State.Keeps.execBasinAbort {e sl} (h : s₀.Keeps calm s) : s₀.KeepsOut calm (execBasinAbort e sl s) := by
  unfold Machine.execBasinAbort
  exact .next h.setFld.bsnAbort

theorem State.Keeps.imageRead {image off n read errs} (h : s₀.Keeps false s) :
    s₀.Keeps false (s.imageRead image off n read errs).1 := by
  unfold State.imageRead
  split
  · exact h
  · split
    · exact h
    · split
      · rename_i t _ _ e
        have h1 : s₀.Keeps false t := .of_fst h.devRead e
        exact h1

theorem State.Keeps.enterImage {i} (h : s₀.Keeps false s) : s₀.Keeps false (s.enterImage i) := by
  unfold State.enterImage
  extract_lets used rest _
  split
  · exact .updDxn h
  · split
    · exact .updDxn h
    · exact h

theorem State.Keeps.imageBody {image h' read errs} (h : s₀.Keeps false s) : s₀.Keeps false (s.imageBody image h' read errs).1 := by
  unfold State.imageBody
  split
  · rename_i t _ e
    have h1 : s₀.Keeps false t := .of_fst h.imageRead e
    split
    · rename_i t1 _ e1
      have h11 : s₀.Keeps false t1 := .of_fst h1.imageRead e1
      split
      · rename_i t2 _ e2
        have h12 : s₀.Keeps false t2 := .of_fst h11.imageRead e2
        split
        · exact h12
        · exact h12

theorem State.Keeps.checkBody {image h' profile read errs} (h : s₀.Keeps false s) :
    s₀.Keeps false (s.checkBody image h' profile read errs).1 := by
  unfold State.checkBody
  split
  · rename_i t _ e
    have h1 : s₀.Keeps false t := .of_fst h.imageBody e
    split
    · exact h1
    · split
      · exact h1
      · extract_lets only crc e1
        split
        · exact h1
        · exact h1.enterImage

theorem State.Keeps.imageCopy {image h' e profile entry read errs} (h : s₀.Keeps false s) :
    s₀.Keeps false (s.imageCopy image h' e profile entry read errs).1 := by
  unfold State.imageCopy
  split
  · exact h.enterImage
  · split
    · rename_i t _ e1
      have h1 : s₀.Keeps false t := .of_fst h.imageRead e1
      split
      · rename_i t1 _ e2
        have h11 : s₀.Keeps false t1 := .of_fst h1.imageRead e2
        split
        · exact h11.enterImage
        · exact h11

theorem State.Keeps.checkHit {image h' e profile entry room read errs} (h : s₀.Keeps false s) :
    s₀.Keeps false (s.checkHit image h' e profile entry room read errs).1 := by
  unfold State.checkHit
  split
  · exact h
  · split
    · split
      · rename_i t _ e1
        have h1 : s₀.Keeps false t := .of_fst h.imageBody e1
        split
        · exact h1
        · split
          · exact h1.enterImage
          · exact h1
    · exact h.imageCopy

theorem State.Keeps.checkImage {image profile entry room read errs} (h : s₀.Keeps false s) :
    s₀.Keeps false (s.checkImage image profile entry room read errs).1 := by
  unfold State.checkImage
  extract_lets host device
  split
  · exact h
  · split
    · rename_i t _ e
      have h1 : s₀.Keeps false t := .of_fst h.imageRead e
      split
      · exact h1
      · split
        · rename_i t1 _ e1
          have h11 : s₀.Keeps false t1 := by
            refine .of_fst ?_ e1
            split
            · exact h1.checkHit
            · split
              · exact h1
              · exact h1.checkBody
          split
          · split
            · exact h11
            · exact h11
          · exact h11

theorem State.Keeps.execCacheFlush (h : s₀.Keeps calm s) : s₀.KeepsOut calm (execCacheFlush s) := by
  unfold Machine.execCacheFlush
  extract_lets flush _
  exact .next (.dropFlushed (.updDxn h))

theorem State.Keeps.stallFor {c l} (h : s₀.Keeps false s) : s₀.KeepsRes false (s.stallFor c l) := by
  unfold State.stallFor
  exact h.wakeBays.setCtx

theorem State.Keeps.spaceRefusal (h : s₀.Keeps false s) : s₀.KeepsRes false (spaceRefusal s) := by
  unfold Machine.spaceRefusal
  split
  · rename_i t e
    have h1 : s₀.Keeps false t := .of_snd h.draw e
    exact h1

theorem State.Keeps.outcomeTo {c w n} (h : s₀.Keeps false s) : s₀.KeepsRes false (s.outcomeTo c w n) := by
  unfold State.outcomeTo
  exact h.setCtx

theorem State.Keeps.startTenon {k domain c version code data img crc} (h : s₀.Keeps false s) :
    s₀.Keeps false (s.startTenon k domain c version code data img crc) := by
  unfold State.startTenon
  extract_lets s1 x
  have h1 : s₀.Keeps false s1 := h.localWrite
  exact h1.startCtx.fetchCheck

theorem State.Keeps.execDxnTstart {c body read errs} (h : s₀.Keeps false s) :
    s₀.KeepsOut false (execDxnTstart c body read errs s) := by
  unfold Machine.execDxnTstart
  extract_lets w
  refine .next (.issue h (fun t x h1 => ?_))
  extract_lets img b gc r
  split
  · exact h1.outcomeTo
  · split
    · exact h1.outcomeTo
    · split
      · exact h1.stallFor
      · split
        · rename_i t1 _ e
          have h11 : s₀.Keeps false t1 := .of_fst h1.checkImage e
          split
          · exact h11
          · exact h11.outcomeTo
          · exact State.Keeps.outcomeTo (.foldl (fun _ _ h => h.startTenon) h11)

theorem State.Keeps.execDxnTstop {c body} (h : s₀.Keeps false s) : s₀.KeepsOut false (execDxnTstop c body s) := by
  unfold Machine.execDxnTstop
  extract_lets w
  refine .next (.issue h (fun t x h1 => ?_))
  split
  · exact h1.outcomeTo
  · extract_lets l busy
    exact State.Keeps.outcomeTo (.foldl (fun _ _ h => .ite h h.endAsEnd) h1)

theorem State.Keeps.openSlot {e sl domain} (h : s₀.Keeps false s) : s₀.Keeps false (s.openSlot e sl domain) := by
  unfold State.openSlot
  extract_lets x s1
  have h1 : s₀.Keeps false s1 := h.dropEnded
  split
  · exact h.bsnAbort
  · split
    · exact h1.bsnAbort
    · exact h1

theorem State.Keeps.startSlot {e sl starter domain c version code data img crc} (h : s₀.Keeps false s) :
    s₀.Keeps false (s.startSlot e sl starter domain c version code data img crc) := by
  unfold State.startSlot
  extract_lets k s1 x s11 r
  have h1 : s₀.Keeps false s1 := h.localWrite
  have h11 : s₀.Keeps false s11 := h1.setSlot.wr
  exact h11.startCtx.openSlot.fetchCheck

theorem State.Keeps.execDxnBstart {c body read errs} (h : s₀.Keeps false s) :
    s₀.KeepsOut false (execDxnBstart c body read errs s) := by
  unfold Machine.execDxnBstart
  extract_lets w
  refine .next (.issue h (fun t x h1 => ?_))
  extract_lets img b gc e r
  split
  · exact h1.outcomeTo
  · split
    · rename_i t1 _ e1
      have h11 : s₀.Keeps false t1 := .of_fst h1.checkImage e1
      split
      · exact h11
      · exact h11.outcomeTo
      · exact h11.startSlot.outcomeTo

theorem State.Keeps.bindPort {q p port b} (h : s₀.Keeps false s) : s₀.Keeps false (s.bindPort q p port b) := by
  unfold State.bindPort
  extract_lets k off
  exact h.setStream.setBit

theorem State.Keeps.bindEnd {n d head p} (h : s₀.Keeps false s) : s₀.Keeps false (s.bindEnd n d head p) := by
  unfold State.bindEnd
  extract_lets q i b x _
  split
  · exact h.bindPort
  · split
    · exact h
    · extract_lets s1
      have h1 : s₀.Keeps false s1 := .upd h
      exact h1.bindPort
  · exact h

theorem State.Keeps.bindTruss {d} (h : s₀.Keeps false s) : s₀.Keeps false (s.bindTruss d) := by
  unfold State.bindTruss
  extract_lets n q l _ s1 s11 s12 s13 s14 s15 _
  have h1 : s₀.Keeps false s1 := .upd h
  have h11 : s₀.Keeps false s11 := h1.wr
  have h12 : s₀.Keeps false s12 := .foldl (fun _ _ h => h.setFld.setFld) h11
  have h13 : s₀.Keeps false s13 := by
    unfold s13
    refine .foldl (fun t p h2 => ?_) h12
    split
    · exact h2.bindPort.bindPort
    · exact h2
  have h14 : s₀.Keeps false s14 := h13.bindEnd
  have h15 : s₀.Keeps false s15 := h14.bindEnd
  exact .ite h15.setChannel h15

theorem State.Keeps.execDxnTruss {c body errs} (h : s₀.Keeps false s) : s₀.KeepsOut false (execDxnTruss c body errs s) := by
  unfold Machine.execDxnTruss
  extract_lets w
  refine .next (.issue h (fun t x h1 => ?_))
  extract_lets a
  split
  · exact trivial
  · split
    · exact h1.outcomeTo
    · split
      · exact h1.outcomeTo
      · split
        · rename_i t1 _ _ e
          have h11 : s₀.Keeps false t1 := .of_fst h1.devRead e
          split
          · exact h11
          · extract_lets n
            split
            · exact h11.outcomeTo
            · split
              · rename_i t2 _ _ e1
                have h12 : s₀.Keeps false t2 := .of_fst h11.devRead e1
                split
                · exact h12
                · extract_lets d r
                  split
                  · exact h12.outcomeTo
                  · split
                    · exact h12.outcomeTo
                    · split
                      · exact h12.stallFor
                      · exact h12.bindTruss.outcomeTo

theorem State.Keeps.failStreams {k} (h : s₀.Keeps false s) : s₀.Keeps false (s.failStreams k) := by
  unfold State.failStreams
  exact .foldl (fun _ _ h => h.failLong) h

theorem State.Keeps.releaseChannel {e ch} (h : s₀.Keeps false s) : s₀.Keeps false (s.releaseChannel e ch) := by
  unfold State.releaseChannel
  extract_lets l s1 s11
  have h1 : s₀.Keeps false s1 := .foldl (fun _ _ h => h.bsnAbort) h
  have h11 : s₀.Keeps false s11 := by
    unfold s11
    refine .foldl (fun t x h2 => ?_) h1
    extract_lets x1 _
    exact .ite h2.setSlot h2
  exact h11.setChannel

theorem State.Keeps.unbindTruss {n} (h : s₀.Keeps false s) : s₀.Keeps false (s.unbindTruss n) := by
  unfold State.unbindTruss
  extract_lets t q d s1 s11 s12 s13 s14 _
  have h1 : s₀.Keeps false s1 := .foldl (fun _ _ h => h.failStreams) h
  have h11 : s₀.Keeps false s11 := .ite h1.releaseChannel h1
  have h12 : s₀.Keeps false s12 := .foldl (fun _ _ h => h.bindPort) h11
  have h13 : s₀.Keeps false s13 := .foldl (fun _ _ h => h.setFld.setFld) h12
  have h14 : s₀.Keeps false s14 := h13.wr
  exact .upd h14

theorem State.Keeps.execDxnUntruss {c body} (h : s₀.Keeps false s) : s₀.KeepsOut false (execDxnUntruss c body s) := by
  unfold Machine.execDxnUntruss
  extract_lets w
  refine .next (.issue h (fun t x h1 => ?_))
  extract_lets n off
  split
  · exact trivial
  · split
    · exact h1.outcomeTo
    · split
      · exact h1.outcomeTo
      · exact h1.unbindTruss.outcomeTo

theorem State.Keeps.reserved {c w k} (h : s₀.Keeps false s) (hk : ∀ t x, s₀.Keeps false t → s₀.Keeps false (k t x).2) :
    s₀.Keeps false (s.reserved c w k) := by
  unfold State.reserved
  refine .issue h fun t x h1 => ?_
  split
  · exact h1.spaceRefusal
  · split
    · trivial
    · exact (hk t x h1).outcomeTo

theorem State.Keeps.execDxnSeglock {c body} (h : s₀.Keeps false s) : s₀.KeepsOut false (execDxnSeglock c body s) := by
  unfold Machine.execDxnSeglock
  extract_lets w
  exact .next (.reserved h (fun _ _ h => h.seglock))

theorem State.Keeps.execDxnSegpub {c body} (h : s₀.Keeps false s) : s₀.KeepsOut false (execDxnSegpub c body s) := by
  unfold Machine.execDxnSegpub
  extract_lets w
  exact .next (.reserved h (fun _ _ h => h.segpub))

theorem State.Keeps.execDxnEflip {c body} (h : s₀.Keeps false s) : s₀.KeepsOut false (execDxnEflip c body s) := by
  unfold Machine.execDxnEflip
  extract_lets w
  refine .next (.issue h (fun t x h1 => ?_))
  split
  · exact h1.spaceRefusal
  · split
    · exact trivial
    · extract_lets r
      have h11 : s₀.Keeps false r.2 := h1.eflipFrom
      exact h11.outcomeTo

theorem State.Keeps.execDxnPassign {c body} (h : s₀.Keeps false s) : s₀.KeepsOut false (execDxnPassign c body s) := by
  unfold Machine.execDxnPassign
  extract_lets w
  exact .next (.reserved h (fun _ _ h => h.pegAssign))

theorem State.Keeps.assignPegs {v} (h : s₀.Keeps calm s) : s₀.Keeps calm (s.assignPegs v) := by
  unfold State.assignPegs
  extract_lets r
  have h1 : s₀.Keeps calm r.2 := h.pegAssign
  exact h1.setFld.setFld

theorem State.Keeps.assignTenons {q v} (h : s₀.Keeps calm s) : s₀.Keeps calm (s.assignTenons q v) := by
  unfold State.assignTenons
  extract_lets r0 r1 c0 c1 l reason s1
  have h1 : s₀.Keeps calm s1 := h.setFld.setFld
  exact .ite (.foldl (fun _ _ h => h.setFld) h1) h1

theorem State.Keeps.setDma {k x'} (h : s₀.Keeps false s) : s₀.Keeps false (s.setDma k x') := by
  unfold State.setDma
  exact .upd h

theorem State.Keeps.dmaPassed {k d} (h : s₀.Keeps false s) : s₀.Keeps false (s.dmaPassed k d) := by
  unfold State.dmaPassed
  extract_lets d1 s1
  have h1 : s₀.Keeps false s1 := h.setDma
  exact .ite h1 (.ite (.foldl (fun _ _ h => h.failLong) h1) (.foldl (fun _ _ h => h.failLong) h1))

theorem State.Keeps.execDmaStreamTile {q stream errs} (h : s₀.Keeps false s) :
    s₀.KeepsOut false (execDmaStreamTile q stream errs s) := by
  unfold Machine.execDmaStreamTile
  extract_lets k d a x
  split
  · exact .next h
  · split
    · split
      · exact .next h
      · split
        · rename_i t _ _ e
          have h1 : s₀.Keeps false t := .of_fst h.devRead e
          exact .next (.ite h1.setDma h1.setStream.dmaPassed)
    · split
      · rename_i t _ e
        have h1 : s₀.Keeps false t := .of_fst h.takeSend e
        split
        · exact .next h1
        · extract_lets s1 s11
          have h11 : s₀.Keeps false s1 := h1.devWrite
          have h12 : s₀.Keeps false s11 := .ite h11.addPeg h11
          exact .next h12.dmaPassed

theorem State.Keeps.sprayMember {b g cls l} (h : s₀.Keeps calm s) : s₀.Keeps calm (s.sprayMember b g cls l).2 := by
  unfold State.sprayMember
  extract_lets last order best _
  clear_value best
  split
  · exact h
  · exact .upd h

theorem State.Keeps.selectMember {b g cls group frame x' orderFree} (h : s₀.Keeps calm s) :
    s₀.Keeps calm (s.selectMember b g cls group frame x' orderFree).2 := by
  unfold State.selectMember
  extract_lets up h1 first
  split
  · split
    · rename_i t e
      have h11 : s₀.Keeps calm t := .of_snd h.sprayMember e
      exact h11
  · split
    · exact h
    · split
      · exact h
      · exact h

theorem State.Keeps.resolve {b ingress cls r frame x' orderFree} (h : s₀.Keeps false s) :
    s₀.Keeps false (s.resolve b ingress cls r frame x' orderFree).2 := by
  unfold State.resolve
  extract_lets i g
  split
  · split
    · exact h
    · exact h
  · split
    · exact h
    · split
      · rename_i t e
        have h1 : s₀.Keeps false t := .of_snd h.selectMember e
        exact h1
      · rename_i t e
        have h1 : s₀.Keeps false t := .of_snd h.selectMember e
        exact h1
      · rename_i t e
        have h1 : s₀.Keeps false t := .of_snd h.selectMember e
        exact h1
  · exact h
  · exact h

theorem State.Keeps.route {b ingress cls frame x'} (h : s₀.Keeps false s) : s₀.Keeps false (s.route b ingress cls frame x').2 := by
  unfold State.route
  split
  · exact h.count
  · split
    · exact h.count
    · exact h
    · extract_lets free
      exact h.resolve

theorem State.Keeps.learn {p vlan mac} (h : s₀.Keeps false s) : s₀.Keeps false (s.learn p vlan mac).2 := by
  unfold State.learn
  extract_lets off full mine put _
  split
  · exact h
  · split
    · split
      · exact .upd h
      · split
        · exact h
        · exact .setFld (.upd h.dropMac)
    · split
      · split
        · exact h
        · exact h.count
      · split
        · exact h.count
        · exact .setFld (.upd h)

theorem State.Keeps.bridge {p frame x'} (h : s₀.Keeps false s) : s₀.Keeps false (s.bridge p frame x').2 := by
  unfold State.bridge
  split
  · exact h
  · extract_lets vlan dst
    split
    · rename_i t e
      have h1 : s₀.Keeps false t := .of_snd h.learn e
      split
      · exact h1
      · extract_lets known
        split
        · clear_value known
          split
          · exact h1
          · exact h1
        · clear_value known
          split
          · exact h1
          · exact h1

theorem State.Keeps.spend {p c cells} (h : s₀.Keeps false s) : s₀.Keeps false (s.spend p c cells) := by
  unfold State.spend
  split
  · extract_lets off
    exact h.setFld
  · exact h

theorem State.Keeps.transmit {p f b bad} (h : s₀.Keeps false s) : s₀.Keeps false (s.transmit p f b bad).2 := by
  unfold State.transmit
  extract_lets k s1 s11 s12 s13
  have h1 : s₀.Keeps false s1 := .ite h h.spend
  have h11 : s₀.Keeps false s11 := h1.sendFrame.count.countBy
  have h12 : s₀.Keeps false s12 := h11.count
  have h13 : s₀.Keeps false s13 := .ite h1.sendCounted (.ite h12.tailAbort h12)
  split
  · exact h13
  · exact h13.mirror

theorem State.Keeps.finishSending {p} (h : s₀.Keeps false s) : s₀.Keeps false (s.finishSending p) := by
  unfold State.finishSending
  split
  · exact h
  · exact .transmit (.upd h)

theorem State.Keeps.samples {k n} (h : s₀.Keeps false s) : s₀.Keeps false (s.samples k n).2 := by
  unfold State.samples
  split
  · exact .upd h
  · extract_lets fresh
    have hfresh : ∀ t, s₀.Keeps false t → s₀.Keeps false (fresh t).2 := fun _ h => h.draw
    split
    rename_i g t e
    have h1 : s₀.Keeps false t := by
      refine .of_snd ?_ e
      split
      · exact hfresh s h
      · exact h
    split
    · exact .upd (hfresh t h1)
    · exact .upd h1

theorem State.Keeps.takeSample {x'} (h : s₀.Keeps false s) : s₀.Keeps false (s.takeSample x') := by
  unfold State.takeSample
  exact .ite h.count (.upd h)

theorem State.Keeps.sample {p asked b len out} (h : s₀.Keeps false s) : s₀.Keeps false (s.sample p asked b len out) := by
  unfold State.sample
  split
  · rename_i t e
    have h1 : s₀.Keeps false t := .of_snd h.samples e
    extract_lets n
    split
    · rename_i t1 e1
      have h11 : s₀.Keeps false t1 := by
        refine .of_snd ?_ e1
        split
        · exact h1.samples
        · exact h1
      extract_lets h2
      exact .ite h11.takeSample (.ite h11.takeSample h11)

theorem State.Keeps.excAction {f counted id x'} (h : s₀.Keeps false s) : s₀.Keeps false (s.excAction f counted id x').2 := by
  unfold State.excAction
  split
  · extract_lets p
    split
    · exact h.updFrame.enqueue
    · exact h.release
  · refine .release ?_
    split
    · exact h.count
    · exact h

theorem State.Keeps.dispatchFate {id x' pr fate bad} (h : s₀.Keeps false s) :
    s₀.Keeps false (s.dispatchFate id x' pr fate bad).2 := by
  unfold State.dispatchFate
  split
  · refine .release ?_
    split
    · exact h.count
    · exact h
  · split
    · rename_i t e
      have h1 : s₀.Keeps false t := .of_snd h.excAction e
      exact h1
    · rename_i t e
      have h1 : s₀.Keeps false t := .of_snd h.excAction e
      exact h1
  · split
    · rename_i t e
      have h1 : s₀.Keeps false t := .of_snd h.excAction e
      exact h1
    · rename_i t e
      have h1 : s₀.Keeps false t := .of_snd h.excAction e
      exact h1
  · extract_lets x s1 _
    have h1 : s₀.Keeps false s1 := h.release.count
    split
    · split
      · exact .upd h1
      · exact h.updFrame.enqueue
    · exact h.updFrame.enqueue
  · split
    · rename_i t e
      have h1 : s₀.Keeps false t := .of_snd h.draw e
      exact h1.updFrame.spread

theorem State.Keeps.stampFrame {ingress h'} (h : s₀.Keeps false s) : s₀.Keeps false (s.stampFrame ingress h').2.2 := by
  unfold State.stampFrame
  extract_lets e
  split
  · exact h
  · split
    · exact h
    · split
      · exact h
      · split
        · exact h
        · exact h.count

theorem State.Keeps.admitAs {control f t w} (h : s₀.Keeps false s) (e : (s.admitAs control f) = some (w, t)) :
    s₀.Keeps false t := by
  unfold State.admitAs at e
  split at e
  · cases e; exact h.store
  · exact h.admitFrame e

theorem State.Keeps.switchFrame {p cls b x' hfhOk control capture bad errs} (h : s₀.Keeps false s) :
    s₀.Keeps false (s.switchFrame p cls b x' hfhOk control capture bad errs) := by
  unfold State.switchFrame
  extract_lets s1 s11 h1
  have h11 : s₀.Keeps false s1 := h.tableErrs
  have h12 : s₀.Keeps false s11 := h11
  split
  · rename_i t e
    have h13 : s₀.Keeps false t := .of_snd_snd h11.stampFrame e
    extract_lets routed f s12 bank
    have h14 : s₀.Keeps false s12 := h13.count.returnCells
    split
    · rename_i e1
      exact .ite h14.sample h12.returnCells
    · rename_i t1 e1
      have h15 : s₀.Keeps false t1 := h13.admitAs e1
      extract_lets act named src l
      split
      · rename_i t2 e2
        have h16 : s₀.Keeps false t2 := by
          refine .of_snd ?_ e2
          split
          · exact h15.mirror
          · exact h15
        extract_lets s13 f1
        have h17 : s₀.Keeps false s13 := h16.updFrame
        split
        · rename_i t3 e3
          have h18 : s₀.Keeps false t3 := by
            refine .of_snd ?_ e3
            split
            · exact h17
            · split
              · exact h17.route
              · split
                · exact h17
                · exact h17.bridge
          split
          · exact h12.returnCells
          · split
            · rename_i t4 e4
              have h19 : s₀.Keeps false t4 := .of_snd h18.dispatchFate e4
              exact .ite h19.sample h19

theorem State.Keeps.moveTo {p c f} (h : s₀.Keeps calm s) : s₀.Keeps calm (s.moveTo p c f).2 := by
  unfold State.moveTo
  split
  · extract_lets bank x free
    split
    · rename_i t e
      have h1 : s₀.Keeps calm t := .of_snd h.selectMember e
      exact h1
    · rename_i t _ e
      have h1 : s₀.Keeps calm t := .of_snd h.selectMember e
      exact h1
  · exact h

theorem State.Keeps.moveFrame {p e} (h : s₀.Keeps calm s) : s₀.Keeps calm (s.moveFrame p e) := by
  unfold State.moveFrame
  split
  · exact h
  · split
    · exact h.ageOut
    · split
      · rename_i t e1
        have h1 : s₀.Keeps calm t := .of_snd h.moveTo e1
        exact h1.count.updFrame.enqueue
      · rename_i t e1
        have h1 : s₀.Keeps calm t := .of_snd h.moveTo e1
        exact h1.count.release

theorem State.Keeps.changeCrossing {k x' g} (h : s₀.Keeps calm s) : s₀.Keeps calm (s.changeCrossing k x' g) := by
  unfold State.changeCrossing
  exact .upd h

theorem State.Keeps.evacuateCrossing {p unicastOnly k x'} (h : s₀.Keeps calm s) :
    s₀.Keeps calm (s.evacuateCrossing p unicastOnly k x') := by
  unfold State.evacuateCrossing
  extract_lets lose s1 l
  have h1 : s₀.Keeps calm s1 := h.count
  split
  · exact h
  · split
    · exact .ite h (.ite h1.dropCrossing.changeCrossing h1.changeCrossing)
    · split
      · exact h
      · split
        · exact h.count.dropCrossing.changeCrossing
        · split
          · rename_i t e
            have h11 : s₀.Keeps calm t := .of_snd h.moveTo e
            exact h11.count.updFrame.changeCrossing
          · rename_i t e
            have h11 : s₀.Keeps calm t := .of_snd h.moveTo e
            exact h11.count.dropCrossing.changeCrossing

theorem State.Keeps.evacuate {p unicastOnly} (h : s₀.Keeps calm s) : s₀.Keeps calm (s.evacuate p unicastOnly) := by
  unfold State.evacuate
  extract_lets s1 s11
  have h1 : s₀.Keeps calm s1 := .foldl (fun _ _ h => .foldl (fun _ _ h => h.evacuateCrossing) h) h
  have h11 : s₀.Keeps calm s11 := .foldl (fun _ _ h => h.settle) h1
  refine .foldl (fun t c h2 => ?_) h11
  extract_lets all stay go s12 _ s13
  have h12 : s₀.Keeps calm s12 := h2.setQueue
  have h13 : s₀.Keeps calm s13 := .ite h12 (.upd h12)
  exact .foldl (fun _ _ h => h.moveFrame) h13

theorem State.Keeps.rxCount {p len tail} (h : s₀.Keeps false s) : s₀.Keeps false (s.rxCount p len tail) := by
  unfold State.rxCount
  extract_lets s1 _
  have h1 : s₀.Keeps false s1 := h.count.countBy
  exact .ite h1.setPort.count h1

theorem State.Keeps.rxStart {p f} (h : s₀.Keeps false s) : s₀.Keeps false (s.rxStart p f).2 := by
  unfold State.rxStart
  extract_lets s1 _
  have h1 : s₀.Keeps false s1 := h.rxCount
  split
  · exact h1
  · split
    · exact h1.setPort
    · exact h1.count

theorem State.Keeps.quarantined {p act} (h : s₀.Keeps false s) (hact : ∀ t, s₀.Keeps false t → s₀.Keeps false (act t)) :
    s₀.Keeps false (s.quarantined p act) := by
  unfold State.quarantined
  exact .ite h.count (hact _ h)

theorem State.Keeps.rxFrame {p f kind act} (h : s₀.Keeps false s) (hact : ∀ t, s₀.Keeps false t → s₀.Keeps false (act t)) :
    s₀.Keeps false (s.rxFrame p f kind act) := by
  unfold State.rxFrame
  split
  · split
    · rename_i t e
      have h1 : s₀.Keeps false t := .of_snd h.rxStart e
      extract_lets act1
      exact .ite h1 (.ite (.ite (hact _ h1) h1) (.quarantined h1 (fun _ h => .ite (hact _ h) h)))
  · exact h

theorem State.Keeps.portTo {p st} (h : s₀.Keeps calm s) : s₀.Keeps calm (s.portTo p st) := by
  unfold State.portTo
  exact h.setFld

theorem State.Keeps.clearAgreed {p} (h : s₀.Keeps calm s) : s₀.Keeps calm (s.clearAgreed p) := by
  unfold State.clearAgreed
  exact h.wr

theorem State.Keeps.partnerEvent {kind p} (h : s₀.Keeps false s) : s₀.Keeps false (s.partnerEvent kind p) := by
  unfold State.partnerEvent
  exact h.prtEvent

theorem State.Keeps.newNonce {p} (h : s₀.Keeps calm s) : s₀.Keeps calm (s.newNonce p) := by
  unfold State.newNonce
  split
  · rename_i t e
    have h1 : s₀.Keeps calm t := .of_snd h.draw e
    exact h1.setPort.sendLldp

theorem State.Keeps.startExchange {p} (h : s₀.Keeps calm s) : s₀.Keeps calm (s.startExchange p) := by
  unfold State.startExchange
  exact h.clearAgreed.setPort.newNonce

theorem State.Keeps.agreedRegs {p o} (h : s₀.Keeps false s) : s₀.Keeps false (s.agreedRegs p o) := by
  unfold State.agreedRegs
  exact h.wr

theorem State.Keeps.startCredits {p o} (h : s₀.Keeps false s) : s₀.Keeps false (s.startCredits p o) := by
  unfold State.startCredits
  extract_lets x given n init s1
  have h1 : s₀.Keeps false s1 := h.setPort
  exact .foldl (fun _ _ h => h.wr) h1

theorem State.Keeps.agreed {p o} (h : s₀.Keeps false s) : s₀.Keeps false (s.agreed p o) := by
  unfold State.agreed
  extract_lets s1 x s11
  have h1 : s₀.Keeps false s1 := h.agreedRegs.startCredits
  have h11 : s₀.Keeps false s11 := h1.setPort
  split
  · split
    · extract_lets s12 s13
      have h12 : s₀.Keeps false s12 := .ite h11.evacuate h11
      have h13 : s₀.Keeps false s13 := h12.portTo.pfcCheckAll
      exact .ite h13.partnerEvent (.ite h13.partnerEvent h13)

theorem State.Keeps.negFail {p code} (h : s₀.Keeps false s) : s₀.Keeps false (s.negFail p code) := by
  unfold State.negFail
  exact h.setFld.partnerEvent

theorem State.Keeps.tryComplete {p} (h : s₀.Keeps false s) : s₀.Keeps false (s.tryComplete p) := by
  unfold State.tryComplete
  extract_lets x s1 _
  have h1 : s₀.Keeps false s1 := h.setPort
  split
  · exact .ite h (.ite h.agreed (.ite h1.setPort.negFail h1.newNonce))
  · exact h

theorem State.Keeps.partnerRegs {p w} (h : s₀.Keeps false s) : s₀.Keeps false (s.partnerRegs p w) := by
  unfold State.partnerRegs
  exact h.wr.wr

theorem State.Keeps.portGone {p} (h : s₀.Keeps calm s) : s₀.Keeps calm (s.portGone p) := by
  unfold State.portGone
  extract_lets _ s1
  have h1 : s₀.Keeps calm s1 := .timPortDown (.upd h)
  exact .ite h1.dropMac h1

theorem State.Keeps.leftUp {p reason} (h : s₀.Keeps calm s) : s₀.Keeps calm (s.leftUp p reason) := by
  unfold State.leftUp
  exact h.setFld.count

theorem State.Keeps.holdExpire {p} (h : s₀.Keeps calm s) : s₀.Keeps calm (s.holdExpire p) := by
  unfold State.holdExpire
  extract_lets x s1 s11
  have h1 : s₀.Keeps calm s1 := h.setPort.evacuate
  have h11 : s₀.Keeps calm s11 := h1.prtEvent
  exact .ite (.ite h11.portTo h11) h

theorem State.Keeps.startHold {p} (h : s₀.Keeps calm s) : s₀.Keeps calm (s.startHold p) := by
  unfold State.startHold
  split
  · extract_lets _ s1
    have h1 : s₀.Keeps calm s1 := h.setPort
    exact .ite h1.holdExpire h1

theorem State.Keeps.goDown {p reason} (h : s₀.Keeps false s) : s₀.Keeps false (s.goDown p reason) := by
  unfold State.goDown
  exact .ite h.leftUp.portTo.portGone.startHold (.ite h.leftUp.setPort.startHold h)

theorem State.Keeps.partnerDead {p reason} (h : s₀.Keeps false s) : s₀.Keeps false (s.partnerDead p reason) := by
  unfold State.partnerDead
  split
  · exact h.goDown
  · extract_lets s1 s11
    have h1 : s₀.Keeps false s1 := .ite h.goDown h.portGone
    have h11 : s₀.Keeps false s11 := .ite h1 h1.portTo
    exact h11.startExchange

theorem State.Keeps.portOff {p reason unicastOnly} (h : s₀.Keeps calm s) : s₀.Keeps calm (s.portOff p reason unicastOnly) := by
  unfold State.portOff
  extract_lets s1 s11 s12
  have h1 : s₀.Keeps calm s1 := h.setFld
  have h11 : s₀.Keeps calm s11 := .ite h1.leftUp h1
  have h12 : s₀.Keeps calm s12 := h11.portTo.clearAgreed.portGone.setLanes
  exact .ite h1 (.rebalanceAll (.evacuate (.upd h12)))

theorem State.Keeps.portStart {p} (h : s₀.Keeps false s) : s₀.Keeps false (s.portStart p) := by
  unfold State.portStart
  extract_lets s1
  have h1 : s₀.Keeps false s1 := h.setFld
  exact .rebalanceAll (.setFld (.portTo (.upd h1)))

theorem State.Keeps.portRetry {p} (h : s₀.Keeps calm s) : s₀.Keeps calm (s.portRetry p) := by
  unfold State.portRetry
  exact .ite h.startExchange h

theorem State.Keeps.planCompare {p} (h : s₀.Keeps false s) : s₀.Keeps false (s.planCompare p) := by
  unfold State.planCompare
  split
  · split
    · split
      · extract_lets left s1 s11
        have h1 : s₀.Keeps false s1 := h.portTo
        have h11 : s₀.Keeps false s11 := .ite h1.leftUp.portGone.evacuate h1
        exact .ite h11 h11.partnerEvent
  · exact .ite (.ite h.setPort.portTo h.prtEvent) h

theorem State.Keeps.laserLoss {e} (h : s₀.Keeps false s) : s₀.Keeps false (s.laserLoss e) := by
  unfold State.laserLoss
  extract_lets s1 l s11
  have h1 : s₀.Keeps false s1 := by
    unfold s1
    refine .foldl (fun t i h1 => ?_) h
    extract_lets p s12 s13
    have h11 : s₀.Keeps false s12 := h1.setLanes
    have h12 : s₀.Keeps false s13 := .ite h11.portTo h11
    exact .ite h1 (.ite h12.goDown (.ite h12 (.portTo (.ite h12.portGone h12))))
  have h11 : s₀.Keeps false s11 := .upd h1
  exact h11.prtEvent

theorem State.Keeps.lockPort {p} (h : s₀.Keeps false s) : s₀.Keeps false (s.lockPort p) := by
  unfold State.lockPort
  extract_lets s1
  have h1 : s₀.Keeps false s1 := h.setLanes.setLanes
  exact h1.portTo.startExchange

theorem State.Keeps.execPcsLock {p} (h : s₀.Keeps false s) : s₀.KeepsOut false (execPcsLock p s) := by
  unfold Machine.execPcsLock
  extract_lets l
  split
  · exact .next h
  · split
    · exact .next h.lockPort
    · exact .next h.setLanes

theorem State.Keeps.pcsLost {p dark} (h : s₀.Keeps false s) : s₀.Keeps false (s.pcsLost p dark) := by
  unfold State.pcsLost
  split
  · exact h
  · extract_lets st s1 s11 s12
    have h1 : s₀.Keeps false s1 := h.setFld
    have h11 : s₀.Keeps false s11 := h1.setLanes
    have h12 : s₀.Keeps false s12 := .ite h11.portGone h11
    exact .ite h11 (.ite h11.goDown (.ite h11 h12.portTo))

theorem State.Keeps.execPcsLoss {p dark} (h : s₀.Keeps false s) : s₀.KeepsOut false (execPcsLoss p dark s) := by
  unfold Machine.execPcsLoss
  exact .next h.pcsLost

theorem State.Keeps.lldpIn {p f} (h : s₀.Keeps false s) : s₀.Keeps false (s.lldpIn p f) := by
  unfold State.lldpIn
  extract_lets w s1 core s11 old w1 _ s12 _ s13 _ s14
  have h1 : s₀.Keeps false s1 := h.count
  have h11 : s₀.Keeps false s11 := .ite h1.prtEvent.partnerDead h1
  have h12 : s₀.Keeps false s12 := .ite h11.partnerRegs.setPort h11
  have h13 : s₀.Keeps false s13 := by
    unfold s13
    split
    · split
      · exact .ite h12.setPort.negFail h12
      · exact h12.setPort.sendLldp
    · exact h12
  have h14 : s₀.Keeps false s14 := by
    unfold s14
    split
    · exact .ite h13.setPort h13
    · exact h13
  exact h14.tryComplete

theorem State.Keeps.execLldpReceive {p frame} (h : s₀.Keeps false s) : s₀.KeepsOut false (execLldpReceive p frame s) := by
  unfold Machine.execLldpReceive
  exact .next (.rxFrame h (fun _ h => h.lldpIn))

theorem State.Keeps.execWlxResend {p} (h : s₀.Keeps false s) : s₀.KeepsOut false (execWlxResend p s) := by
  unfold Machine.execWlxResend
  exact .next (.ite h.sendLldp h)

theorem State.Keeps.execLldpPeriodic {p} (h : s₀.Keeps false s) : s₀.KeepsOut false (execLldpPeriodic p s) := by
  unfold Machine.execLldpPeriodic
  exact .next (.ite h.sendLldp h)

theorem State.Keeps.absentIf {p} (h : s₀.Keeps false s) : s₀.Keeps false (s.absentIf p) := by
  unfold State.absentIf
  extract_lets x
  exact .ite h.setPort.portTo.prtEvent h

theorem State.Keeps.execDiscoveryTimeout {p} (h : s₀.Keeps false s) : s₀.KeepsOut false (execDiscoveryTimeout p s) := by
  unfold Machine.execDiscoveryTimeout
  extract_lets x
  split
  · exact .next h
  · split
    · exact .next h.setPort.absentIf
    · exact .next (.ite h.agreed h)

theorem State.Keeps.execLldpTtlExpiry {p} (h : s₀.Keeps false s) : s₀.KeepsOut false (execLldpTtlExpiry p s) := by
  unfold Machine.execLldpTtlExpiry
  exact .next (.ite h.partnerDead h)

theorem State.Keeps.creditIn {p f} (h : s₀.Keeps false s) : s₀.Keeps false (s.creditIn p f) := by
  unfold State.creditIn
  split
  · refine .foldl (fun t v h1 => ?_) h.count
    extract_lets x r
    exact .ite h1.setPort.setFld h1
  · exact h

theorem State.Keeps.execCreditFrameReceive {p frame} (h : s₀.Keeps false s) :
    s₀.KeepsOut false (execCreditFrameReceive p frame s) := by
  unfold Machine.execCreditFrameReceive
  exact .next (.rxFrame h (fun _ h => h.creditIn))

theorem State.Keeps.execCreditFrameSend {p} (h : s₀.Keeps false s) : s₀.KeepsOut false (execCreditFrameSend p s) := by
  unfold Machine.execCreditFrameSend
  exact .next (.ite h.creditFrame h)

theorem State.Keeps.execKeepaliveSend {p} (h : s₀.Keeps false s) : s₀.KeepsOut false (execKeepaliveSend p s) := by
  unfold Machine.execKeepaliveSend
  exact .next (.ite h.creditFrame h)

theorem State.Keeps.execKeepaliveTimeout {p} (h : s₀.Keeps false s) : s₀.KeepsOut false (execKeepaliveTimeout p s) := by
  unfold Machine.execKeepaliveTimeout
  exact .next (.ite h.partnerDead h)

theorem State.Keeps.execTailAbortReceive {p frame} (h : s₀.Keeps false s) : s₀.KeepsOut false (execTailAbortReceive p frame s) := by
  unfold Machine.execTailAbortReceive
  exact .next (.rxFrame h (fun _ h => h))

theorem State.Keeps.pfcIn {p enable quanta} (h : s₀.Keeps false s) : s₀.Keeps false (s.pfcIn p enable quanta) := by
  unfold State.pfcIn
  split
  · refine .foldl (fun t c h1 => ?_) h
    extract_lets q s1 x
    have h11 : s₀.Keeps false s1 := .ite h1 h1.count
    exact .ite (.ite h11 h11.setPort) h1
  · exact h

theorem State.Keeps.execPfcFrameReceive {p enable quanta} (h : s₀.Keeps false s) :
    s₀.KeepsOut false (execPfcFrameReceive p enable quanta s) := by
  unfold Machine.execPfcFrameReceive
  exact .next (.ite (.quarantined h.rxCount (fun _ h => h.pfcIn)) h)

theorem State.Keeps.execPfcPauseExpiry {p c} (h : s₀.Keeps false s) : s₀.KeepsOut false (execPfcPauseExpiry p c s) := by
  unfold Machine.execPfcPauseExpiry
  exact .next h.setPort

theorem State.Keeps.execPfcXoffResend {p c} (h : s₀.Keeps false s) : s₀.KeepsOut false (execPfcXoffResend p c s) := by
  unfold Machine.execPfcXoffResend
  exact .next (.ite h.sendPfc h)

theorem State.Keeps.execPfcStorm {p c} (h : s₀.Keeps false s) : s₀.KeepsOut false (execPfcStorm p c s) := by
  unfold Machine.execPfcStorm
  extract_lets x m
  exact .next (.ite h.setPort.count.partnerEvent h)

theorem State.Keeps.execPfcWatchdogEnd {p c} (h : s₀.Keeps false s) : s₀.KeepsOut false (execPfcWatchdogEnd p c s) := by
  unfold Machine.execPfcWatchdogEnd
  exact .next h.setPort

theorem State.Keeps.execHoldExpiry {p} (h : s₀.Keeps false s) : s₀.KeepsOut false (execHoldExpiry p s) := by
  unfold Machine.execHoldExpiry
  exact .next h.holdExpire

theorem State.Keeps.engineStatus {e} (h : s₀.Keeps calm s) : s₀.Keeps calm (s.engineStatus e) := by
  unfold State.engineStatus
  extract_lets l x s1 st
  have h1 : s₀.Keeps calm s1 := .ite (.upd h) h
  exact h1.setFld.setFld

theorem State.Keeps.ringSearch {r} (h : s₀.Keeps calm s) : s₀.Keeps calm (s.ringSearch r) := by
  unfold State.ringSearch
  extract_lets _ s1 side _ s11
  have h1 : s₀.Keeps calm s1 := .upd h
  have h11 : s₀.Keeps calm s11 := .upd h1
  exact .ite h11.setFld.setFld h1.setFld

theorem State.Keeps.ringRelock {r} (h : s₀.Keeps calm s) : s₀.Keeps calm (s.ringRelock r) := by
  unfold State.ringRelock
  exact h.ldgAdd.ringSearch

theorem State.Keeps.ringLost {r} (h : s₀.Keeps false s) : s₀.Keeps false (s.ringLost r) := by
  unfold State.ringLost
  exact .ite h.count.splEvent.ringRelock h

theorem State.Keeps.ringsStart {e} (h : s₀.Keeps false s) : s₀.Keeps false (s.ringsStart e) := by
  unfold State.ringsStart
  exact .engineStatus (.foldl (fun _ _ h => .ite h h.ringSearch) h)

theorem State.Keeps.ringsLost {e} (h : s₀.Keeps false s) : s₀.Keeps false (s.ringsLost e) := by
  unfold State.ringsLost
  refine .engineStatus ?_
  refine .foldl (fun t i h1 => ?_) h
  extract_lets r
  exact .ite h1.ringLost (.ite h1 h1.ringSearch)

theorem State.Keeps.attemptDone {r} (h : s₀.Keeps false s) : s₀.Keeps false (s.attemptDone r) := by
  unfold State.attemptDone
  extract_lets l _ s1
  have h1 : s₀.Keeps false s1 := .upd h
  exact .ite h1 h1.setFld

theorem State.Keeps.withdrawLane {r} (h : s₀.Keeps false s) : s₀.Keeps false (s.withdrawLane r) := by
  unfold State.withdrawLane
  extract_lets off s1 s11 s12
  have h1 : s₀.Keeps false s1 := h.setFld
  have h11 : s₀.Keeps false s11 := h1.setFld
  have h12 : s₀.Keeps false s12 := .ite h11.portOff h11
  exact h12.splEvent.journal

theorem State.Keeps.wrongLock {r} (h : s₀.Keeps false s) : s₀.Keeps false (s.wrongLock r) := by
  unfold State.wrongLock
  extract_lets n s1 s11 s12
  have h1 : s₀.Keeps false s1 := h.count.ldgAdd
  have h11 : s₀.Keeps false s11 := h1.splEvent.setFld
  have h12 : s₀.Keeps false s12 := .ite h11.withdrawLane h11.ringRelock
  exact h12.engineStatus

theorem State.Keeps.lockPassed {r} (h : s₀.Keeps false s) : s₀.Keeps false (s.lockPassed r) := by
  unfold State.lockPassed
  extract_lets p
  exact .ite h.setFld.engineStatus h.setFld.setFld.engineStatus

theorem State.Keeps.laneIn {p f} (h : s₀.Keeps false s) : s₀.Keeps false (s.laneIn p f) := by
  unfold State.laneIn
  split
  · exact h
  · refine .foldl (fun t j h1 => ?_) h
    extract_lets l r ok
    exact .ite h1.setFld.setFld.engineStatus (.ite h1.wrongLock h1)

theorem State.Keeps.execLaneReportReceive {p frame} (h : s₀.Keeps false s) :
    s₀.KeepsOut false (execLaneReportReceive p frame s) := by
  unfold Machine.execLaneReportReceive
  exact .next (.rxFrame h (fun _ h => h.laneIn))

theorem State.Keeps.execLaneReportSend {p found} (h : s₀.Keeps false s) : s₀.KeepsOut false (execLaneReportSend p found s) := by
  unfold Machine.execLaneReportSend
  split
  · extract_lets n l
    exact .next h.txFrame
  · exact .next h

theorem State.Keeps.execLockLoopSample {ring detune heater} (h : s₀.Keeps false s) :
    s₀.KeepsOut false (execLockLoopSample ring detune heater s) := by
  unfold Machine.execLockLoopSample
  split
  · extract_lets n _ s1 s11
    have h1 : s₀.Keeps false s1 := .upd h
    have h11 : s₀.Keeps false s11 := h1.setFld.setFld
    split
    · rename_i t e
      have h12 : s₀.Keeps false t := .of_snd h11.draw e
      extract_lets s12
      have h13 : s₀.Keeps false s12 := h12.setFld
      exact .next (.ite h13.ringLost.engineStatus h13)
  · exact .next h

theorem State.Keeps.execRingLockAttemptDone {ring met} (h : s₀.Keeps false s) :
    s₀.KeepsOut false (execRingLockAttemptDone ring met s) := by
  unfold Machine.execRingLockAttemptDone
  split
  · exact .next h
  · split
    · exact .next h.incSat.count.setFld
    · exact .next h.attemptDone

theorem State.Keeps.execOrderCountDone {ring crossings} (h : s₀.Keeps false s) :
    s₀.KeepsOut false (execOrderCountDone ring crossings s) := by
  unfold Machine.execOrderCountDone
  split
  · exact .next h
  · extract_lets up line s1
    have h1 : s₀.Keeps false s1 := h.setFld.attemptDone
    exact .next (.ite h1.lockPassed h1.wrongLock)

theorem State.Keeps.execSetPointTrim {ring heater} (h : s₀.Keeps false s) : s₀.KeepsOut false (execSetPointTrim ring heater s) := by
  unfold Machine.execSetPointTrim
  exact .next (.ite h.setFld h)

theorem State.Keeps.relockEngine {e} (h : s₀.Keeps calm s) : s₀.Keeps calm (s.relockEngine e) := by
  unfold State.relockEngine
  extract_lets l _ s1 s11
  have h1 : s₀.Keeps calm s1 := .upd h
  have h11 : s₀.Keeps calm s11 := .foldl (fun _ _ h => h.ringRelock) h1
  exact h11.setFld.engineStatus

theorem State.Keeps.measureStart {e} (h : s₀.Keeps calm s) : s₀.Keeps calm (s.measureStart e) := by
  unfold State.measureStart
  exact h.setFld.setFld

theorem State.Keeps.clearLanes {e mask} (h : s₀.Keeps calm s) : s₀.Keeps calm (s.clearLanes e mask) := by
  unfold State.clearLanes
  refine .engineStatus ?_
  refine .foldl (fun t i h1 => ?_) h
  extract_lets r off s1
  have h11 : s₀.Keeps calm s1 := h1.setFld
  exact .ite h11.setFld.ringRelock h1

theorem State.Keeps.execOptMeasureDone {e code} (h : s₀.Keeps false s) : s₀.KeepsOut false (execOptMeasureDone e code s) := by
  unfold Machine.execOptMeasureDone
  split
  · exact .next h.setFld.wr
  · exact .next h

theorem State.Keeps.splNote {kind cause circuit} (h : s₀.Keeps calm s) : s₀.Keeps calm (s.splNote kind cause circuit) := by
  unfold State.splNote
  extract_lets s1 k
  have h1 : s₀.Keeps calm s1 := h.splEvent
  exact .ite h1.plnEvent.plnReport h1

theorem State.Keeps.splCounts (h : s₀.Keeps calm s) : s₀.Keeps calm s.splCounts := by
  unfold State.splCounts
  exact h.setFld.setFld

theorem State.Keeps.putActive {c st} (h : s₀.Keeps calm s) : s₀.Keeps calm (s.putActive c st) := by
  unfold State.putActive
  exact h.wr.wr

theorem State.Keeps.putPending {c st} (h : s₀.Keeps calm s) : s₀.Keeps calm (s.putPending c st) := by
  unfold State.putPending
  exact h.wr.wr

theorem State.Keeps.freeActive {n} (h : s₀.Keeps calm s) : s₀.Keeps calm (s.freeActive n) := by
  unfold State.freeActive
  exact h.wr.wr

theorem State.Keeps.freePending {n} (h : s₀.Keeps calm s) : s₀.Keeps calm (s.freePending n) := by
  unfold State.freePending
  exact h.wr.wr

theorem State.Keeps.abortRings {n} (h : s₀.Keeps calm s) : s₀.Keeps calm (s.abortRings n) := by
  unfold State.abortRings
  refine .foldl (fun t o h1 => ?_) h
  split
  · exact .ite h1.bsnAbort h1
  · exact h1

theorem State.Keeps.circuitGone {n cause} (h : s₀.Keeps calm s) : s₀.Keeps calm (s.circuitGone n cause) := by
  unfold State.circuitGone
  extract_lets s1 _
  have h1 : s₀.Keeps calm s1 := h.splNote.abortRings
  exact .upd h1

theorem State.Keeps.enterLent {p} (h : s₀.Keeps calm s) : s₀.Keeps calm (s.enterLent p) := by
  unfold State.enterLent
  extract_lets st _ s1 _
  have h1 : s₀.Keeps calm s1 := h.timPortDown.setPort
  exact .ite h (.portTo (.upd h1))

theorem State.Keeps.leaveLent {p} (h : s₀.Keeps calm s) : s₀.Keeps calm (s.leaveLent p) := by
  unfold State.leaveLent
  extract_lets x s1
  have h1 : s₀.Keeps calm s1 := h.setLanes.portTo
  exact .ite h1.startHold h1

theorem State.Keeps.applySlot (h : s₀.Keeps calm s) : s₀.Keeps calm s.applySlot := by
  unfold State.applySlot
  extract_lets was now lanes ins outs s1 pers slotted s11 s12
  have h1 : s₀.Keeps calm s1 := by
    unfold s1
    refine .foldl (fun t i h1 => ?_) h
    extract_lets f s13
    have h11 : s₀.Keeps calm s13 := h1.setFld
    exact h11.wr
  have h11 : s₀.Keeps calm s11 := .foldl (fun _ _ h => .ite h.leaveLent h) h1
  have h12 : s₀.Keeps calm s12 := .foldl (fun _ _ h => h.enterLent) h11
  exact .foldl (fun _ _ h => h.setPort) h12

theorem State.Keeps.notify {l} (h : s₀.Keeps calm s) : s₀.Keeps calm (s.notify l) := by
  unfold State.notify
  exact .upd h

theorem State.Keeps.execWindowOpen {p} (h : s₀.Keeps false s) : s₀.KeepsOut false (execWindowOpen p s) := by
  unfold Machine.execWindowOpen
  split
  · exact .next h
  · extract_lets _ s1 s11 s12 l
    have h1 : s₀.Keeps false s1 := h.setPort
    have h11 : s₀.Keeps false s11 := .ite h1.sendLldp.tryComplete h1
    have h12 : s₀.Keeps false s12 := h11.pfcCheckAll
    exact .next (.ite (.foldl (fun _ _ h => h.txFrame) h12) h12)

theorem State.Keeps.withdrawNext {c cause} (h : s₀.Keeps false s) : s₀.Keeps false (s.withdrawNext c cause) := by
  unfold State.withdrawNext
  split
  · exact h
  · extract_lets _ s1
    have h1 : s₀.Keeps false s1 := .upd h
    exact .ite h1 h1.notify

theorem State.Keeps.fenceCircuits {p} (h : s₀.Keeps false s) : s₀.Keeps false (s.fenceCircuits p) := by
  unfold State.fenceCircuits
  exact .foldl (fun _ _ h => h.withdrawNext) h

theorem State.Keeps.withdrawDue (h : s₀.Keeps calm s) : s₀.Keeps calm s.withdrawDue := by
  unfold State.withdrawDue
  extract_lets s1 _
  have h1 : s₀.Keeps calm s1 := .foldl (fun _ _ h => h.freeActive.freePending.circuitGone) h
  exact .splCounts (.upd h1)

theorem State.Keeps.ensurePend (h : s₀.Keeps calm s) : s₀.Keeps calm s.ensurePend := by
  unfold State.ensurePend
  split
  · exact h
  · extract_lets s1 _ s11
    have h1 : s₀.Keeps calm s1 := .foldl (fun _ _ h => h.putPending) h
    have h11 : s₀.Keeps calm s11 := .upd h1
    exact h11.splCounts

theorem State.Keeps.splFlipPend (h : s₀.Keeps calm s) : s₀.Keeps calm s.splFlipPend := by
  unfold State.splFlipPend
  extract_lets at_ s1 l s11 _ s12 fallen s13
  have h1 : s₀.Keeps calm s1 := h.ensurePend
  have h11 : s₀.Keeps calm s11 := h1.setFld
  have h12 : s₀.Keeps calm s12 := .upd h11
  have h13 : s₀.Keeps calm s13 := h12.notify
  exact h13.notify

theorem State.Keeps.flipDue (h : s₀.Keeps calm s) : s₀.Keeps calm s.flipDue := by
  unfold State.flipDue
  split
  · exact h
  · extract_lets at_ l marked bad good falls s1 s11 s12 s13 s14 s15 s16 s17 s18 s19 s110 _ s111 late change _ s112 s113
    have h1 : s₀.Keeps calm s1 := .foldl (fun _ _ h => h.freeActive) h
    have h11 : s₀.Keeps calm s11 := .foldl (fun _ _ h => h.freePending) h1
    have h12 : s₀.Keeps calm s12 := .foldl (fun _ _ h => h.circuitGone) h11
    have h13 : s₀.Keeps calm s13 := .foldl (fun _ _ h => h.circuitGone) h12
    have h14 : s₀.Keeps calm s14 := .foldl (fun _ _ h => h.putActive) h13
    have h15 : s₀.Keeps calm s15 := h14.wakeBays
    have h16 : s₀.Keeps calm s16 := .foldl (fun _ _ h => h.wr) h15
    have h17 : s₀.Keeps calm s17 := h16.wr
    have h18 : s₀.Keeps calm s18 := h17.setFld
    have h19 : s₀.Keeps calm s19 := h18.wr
    have h110 : s₀.Keeps calm s110 := h19.setFld.incFld
    have h111 : s₀.Keeps calm s111 := .upd h110
    have h112 : s₀.Keeps calm s112 := .upd h111
    have h113 : s₀.Keeps calm s113 := h112.notify
    exact h113.splNote.splCounts.withdrawDue.applySlot.planeFlipped

theorem State.Keeps.execSpillwayFlipInstant (h : s₀.Keeps false s) : s₀.KeepsOut false (execSpillwayFlipInstant s) := by
  unfold Machine.execSpillwayFlipInstant
  exact .next h.flipDue

theorem State.Keeps.slotBegins (h : s₀.Keeps false s) : s₀.Keeps false s.slotBegins := by
  unfold State.slotBegins
  split
  · split
    · extract_lets _ s1 l
      have h1 : s₀.Keeps false s1 := .withdrawDue (.upd h)
      exact .applySlot (.foldl (fun _ _ h => h.count) h1)
  · exact h

theorem State.Keeps.splDue (h : s₀.Keeps false s) : s₀.Keeps false s.splDue := by
  unfold State.splDue
  exact h.flipDue.slotBegins

theorem State.Keeps.execSlotBoundary (h : s₀.Keeps false s) : s₀.KeepsOut false (execSlotBoundary s) := by
  unfold Machine.execSlotBoundary
  exact .next h.splDue

theorem State.Keeps.splDecide {kind} (h : s₀.Keeps calm s) : s₀.Keeps calm (s.splDecide kind) := by
  unfold State.splDecide
  extract_lets s1 l at_ _ s11 s12
  have h1 : s₀.Keeps calm s1 := h.splNote
  have h11 : s₀.Keeps calm s11 := .upd h1
  have h12 : s₀.Keeps calm s12 := h11.notify
  exact .ite h12.notify h12

theorem State.Keeps.gateEval (h : s₀.Keeps false s) : s₀.Keeps false s.gateEval := by
  unfold State.gateEval
  extract_lets e was open_ s1 s11 _ s12 _
  have h1 : s₀.Keeps false s1 := h.setFld
  have h11 : s₀.Keeps false s11 := h1.setFld
  have h12 : s₀.Keeps false s12 := .upd h11
  exact .ite (.upd h11) (.ite (.ite (.splDecide (.upd h12)) h12) h11)

theorem State.Keeps.execGateEvaluate (h : s₀.Keeps false s) : s₀.KeepsOut false (execGateEvaluate s) := by
  unfold Machine.execGateEvaluate
  exact .next h.splDue.gateEval

theorem State.Keeps.execGateRecoverExpiry (h : s₀.Keeps false s) : s₀.KeepsOut false (execGateRecoverExpiry s) := by
  unfold Machine.execGateRecoverExpiry
  split
  · extract_lets _ s1 _
    have h1 : s₀.Keeps false s1 := .upd h
    exact .next (.ite (.splDecide (.upd h1)) h1)
  · exact .next h

theorem State.Keeps.fallbackDue (h : s₀.Keeps calm s) : s₀.Keeps calm s.fallbackDue := by
  unfold State.fallbackDue
  split
  · exact h
  · split
    · exact h
    · extract_lets s1 _ s11
      have h1 : s₀.Keeps calm s1 := .foldl (fun _ _ h => h.setFld) h
      have h11 : s₀.Keeps calm s11 := .upd h1
      exact h11.applySlot

theorem State.Keeps.execFallbackBoundary (h : s₀.Keeps false s) : s₀.KeepsOut false (execFallbackBoundary s) := by
  unfold Machine.execFallbackBoundary
  exact .next h.splDue.fallbackDue

theorem State.Keeps.splEnable (h : s₀.Keeps calm s) : s₀.Keeps calm s.splEnable := by
  unfold State.splEnable
  extract_lets s1 up _
  have h1 : s₀.Keeps calm s1 := h.setFld
  exact .splDecide (.upd h1)

theorem State.Keeps.splDisable (h : s₀.Keeps calm s) : s₀.Keeps calm s.splDisable := by
  unfold State.splDisable
  extract_lets at_ s1 _
  have h1 : s₀.Keeps calm s1 := h.setFld
  exact .splDecide (.upd h1)

theorem State.Keeps.execElementCheck {plane stage index ok} (h : s₀.Keeps false s) :
    s₀.KeepsOut false (execElementCheck plane stage index ok s) := by
  unfold Machine.execElementCheck
  split
  · exact .next h
  · extract_lets _ s1 s11
    have h1 : s₀.Keeps false s1 := .upd h
    have h11 : s₀.Keeps false s11 := h1.splEvent
    exact .next (.foldl (fun _ _ h => h.withdrawNext) h11)

theorem State.Keeps.execCircuitDark {n power} (h : s₀.Keeps false s) : s₀.KeepsOut false (execCircuitDark n power s) := by
  unfold Machine.execCircuitDark
  split
  · exact .next h
  · extract_lets s1 _
    have h1 : s₀.Keeps false s1 := h.setFld
    split
    · split
      · exact .next h1
      · exact .next (.splEvent (.upd h1))
    · exact .next (.upd h1)

theorem State.Keeps.applySet {n cap} (h : s₀.Keeps calm s) : s₀.Keeps calm (s.applySet n cap) := by
  unfold State.applySet
  extract_lets rest _
  exact .upd h

theorem State.Keeps.discardSet {n} (h : s₀.Keeps calm s) : s₀.Keeps calm (s.discardSet n) := by
  unfold State.discardSet
  exact .foldl (fun _ _ h => h.wr) h

theorem State.Keeps.setStatus {n reason} (h : s₀.Keeps calm s) : s₀.Keeps calm (s.setStatus n reason) := by
  unfold State.setStatus
  extract_lets off s1
  have h1 : s₀.Keeps calm s1 := h.setFld.setFld
  exact .ite h1.setFld.incFld h1

theorem State.Keeps.commitResult {set reason offset source domain} (h : s₀.Keeps calm s) :
    s₀.Keeps calm (s.commitResult set reason offset source domain) := by
  unfold State.commitResult
  exact h.wr.cfgLog

theorem State.Keeps.withFlip {cap} (h : s₀.Keeps calm s) : s₀.Keeps calm (s.withFlip cap) := by
  unfold State.withFlip
  exact .foldl (fun _ _ h => h.wr) h

theorem State.Keeps.splFlipCheck {cap own source domain} (h : s₀.Keeps calm s) :
    s₀.Keeps calm (s.splFlipCheck cap own source domain).2 := by
  unfold State.splFlipCheck
  extract_lets now s1 r s11
  have h1 : s₀.Keeps calm s1 := h.withFlip.ensurePend
  have h11 : s₀.Keeps calm s11 := .ite h1.applySet.splFlipPend.withFlip h
  exact h11.setStatus.cfgLog

theorem State.Keeps.commitBusy (h : s₀.Keeps calm s) : s₀.Keeps calm s.commitBusy := by
  unfold State.commitBusy
  extract_lets sets s1
  have h1 : s₀.Keeps calm s1 := h.setFld
  exact .foldl (fun _ _ h => h.setFld) h1

theorem State.Keeps.splRespond {r reason w n} (h : s₀.Keeps calm s) : s₀.Keeps calm (s.splRespond r reason w n) := by
  unfold State.splRespond
  extract_lets tag v s1 b _
  have h1 : s₀.Keeps calm s1 := h.wr
  exact .ite (.plnSend (.upd h1)) h1.setFld

theorem State.Keeps.ownFlip {kind t'} (h : s₀.Keeps calm s) : s₀.Keeps calm (s.ownFlip kind t').2 := by
  unfold State.ownFlip
  split
  · extract_lets r
    have h1 : s₀.Keeps calm r.2 := h.eflip
    exact h1.cfgLog
  · extract_lets s1
    have h1 : s₀.Keeps calm s1 := h.wr
    exact h1.splFlipCheck

theorem State.Keeps.planeRequest {kind id t' back} (h : s₀.Keeps calm s) : s₀.Keeps calm (s.planeRequest kind id t' back) := by
  unfold State.planeRequest
  split
  · rename_i t e
    have h1 : s₀.Keeps calm t := .of_snd h.ownFlip e
    extract_lets _ s1 s11 _
    have h11 : s₀.Keeps calm s1 := .upd h1
    have h12 : s₀.Keeps calm s11 := .ite h11 h11.planeFree
    split
    · exact h12.plnSend
    · split
      · exact .ite (.upd h12) h12
      · exact h12

theorem State.Keeps.splGrant {r} (h : s₀.Keeps calm s) : s₀.KeepsAnswer calm (s.splGrant r) := by
  unfold State.splGrant
  extract_lets f i o wl pers slots m bays make
  refine .ite h (.ite h (.ite h (.ite h.wakeBays ?_)))
  extract_lets idOk ws es
  refine .ite h (.ite h ?_)
  split
  · exact h
  · extract_lets try_
    split
    · exact .splCounts (.ite (.upd h.putPending) h.putPending)
    · exact h

theorem State.Keeps.splAsk {r} (h : s₀.Keeps calm s) : s₀.KeepsAnswer calm (s.splAsk r) := by
  unfold State.splAsk
  extract_lets dom n busy
  split
  · exact h.splGrant
  · split
    · exact h
    · exact .ite h (.ite h h.putPending)
  · exact .ite h (.foldl (fun _ _ h => h.putPending) h)
  · exact h

theorem State.Keeps.splRequest {r} (h : s₀.Keeps calm s) : s₀.KeepsAnswer calm (s.splRequest r) := by
  have h1 : s₀.KeepsAnswer calm (s.ensurePend.splAsk r) := h.ensurePend.splAsk
  unfold State.splRequest
  cases e : s.ensurePend.splAsk r with rw [e] at h1
  | wait t => exact h.wakeBays
  | done reason w n t => exact State.Keeps.ite h1 h

theorem State.Keeps.runHead {k} (h : s₀.Keeps calm s) : s₀.Keeps calm (s.runHead k).2 := by
  unfold State.runHead
  split
  · exact .upd h
  · extract_lets cap
    exact h.splFlipCheck.wr
  · exact h.planeRequest
  · exact h.assignPegs
  · exact h.assignTenons
  · split
    · exact h
    · rename_i r l _
      have h1 : s₀.KeepsAnswer calm (s.splRequest r) := h.splRequest
      cases e : s.splRequest r with rw [e] at h1
      | wait t => exact h1
      | done reason w n t => exact .splRespond (.upd h1)
  · exact h.wakeBays

theorem State.Keeps.runChecks {n} (h : s₀.Keeps calm s) : s₀.Keeps calm (s.runChecks n) := by
  induction n generalizing s with
  | zero =>
    unfold State.runChecks
    exact h
  | succ n ih =>
    unfold State.runChecks
    split
    · exact h
    · split
      · rename_i t e
        have h1 : s₀.Keeps calm t := .of_snd h.runHead e
        exact h1
      · rename_i t e
        have h1 : s₀.Keeps calm t := .of_snd h.runHead e
        exact ih (.upd h1)

theorem State.Keeps.pushCheck {k} (h : s₀.Keeps calm s) : s₀.Keeps calm (s.pushCheck k) := by
  unfold State.pushCheck
  extract_lets first _ s1
  have h1 : s₀.Keeps calm s1 := .upd h
  exact .commitBusy (.ite h1.runChecks h1)

theorem State.Keeps.popCheck (h : s₀.Keeps calm s) : s₀.Keeps calm s.popCheck := by
  unfold State.popCheck
  extract_lets _ s1
  have h1 : s₀.Keeps calm s1 := .upd h
  exact h1.runChecks.commitBusy

theorem State.Keeps.dropChecks {p} (h : s₀.Keeps calm s) : s₀.Keeps calm (s.dropChecks p) := by
  unfold State.dropChecks
  split
  · exact h
  · extract_lets _ s1
    have h1 : s₀.Keeps calm s1 := .upd h
    exact .ite h1.popCheck h1

theorem State.Keeps.execPegAssign {first count domain} (h : s₀.Keeps calm s) :
    s₀.KeepsOut calm (execPegAssign first count domain s) := by
  unfold Machine.execPegAssign
  split
  · exact .next h
  · extract_lets v
    exact .next h.wr.pushCheck

theorem State.Keeps.execTenonAssign {q rect domain} (h : s₀.Keeps calm s) :
    s₀.KeepsOut calm (execTenonAssign q rect domain s) := by
  unfold Machine.execTenonAssign
  extract_lets off v
  split
  · exact .next h
  · exact .next h.wr.pushCheck

theorem State.Keeps.splSubmit {r} (h : s₀.Keeps calm s) : s₀.Keeps calm (s.splSubmit r) := by
  unfold State.splSubmit
  exact .pushCheck (.upd h)

theorem State.Keeps.splGo {v} (h : s₀.Keeps calm s) : s₀.Keeps calm (s.splGo v) := by
  unfold State.splGo
  exact .ite h h.wr.splSubmit

theorem State.Keeps.splWoken (h : s₀.Keeps false s) : s₀.Keeps false s.splWoken := by
  unfold State.splWoken
  split
  · exact h
  · exact .ite h.runChecks.commitBusy h

theorem State.Keeps.splLate {n} (h : s₀.Keeps false s) : s₀.Keeps false (s.splLate n) := by
  unfold State.splLate
  split
  · split
    · split
      · rename_i t _
        exact .popCheck (.splRespond (.upd h))
      · rename_i t _
        exact h
    · exact h
  · exact h

theorem State.Keeps.execLedgerCommitRequest (h : s₀.Keeps calm s) : s₀.KeepsOut calm (execLedgerCommitRequest s) := by
  unfold Machine.execLedgerCommitRequest
  exact .next h.setFld.commitLedger

theorem State.Keeps.archiveEntry {k} (h : s₀.Keeps false s) : s₀.Keeps false (s.archiveEntry k) := by
  unfold State.archiveEntry
  extract_lets base c
  exact h.devWrite

theorem State.Keeps.archiveJournal (h : s₀.Keeps false s) : s₀.Keeps false s.archiveJournal := by
  unfold State.archiveJournal
  split
  · extract_lets head first s1 base s11
    have h1 : s₀.Keeps false s1 := .foldl (fun _ _ h => h.archiveEntry) h
    have h11 : s₀.Keeps false s11 := h1.devWrite.devWrite
    exact h11.ldgPut
  · exact h

theorem State.Keeps.journalAppend {x'} (h : s₀.Keeps false s) : s₀.Keeps false (s.journalAppend x') := by
  unfold State.journalAppend
  extract_lets head s1
  have h1 : s₀.Keeps false s1 := .ite h.ldgAdd h
  exact .upd h1.ldgPut

theorem State.Keeps.commitWrite (h : s₀.Keeps false s) : s₀.Keeps false s.commitWrite := by
  unfold State.commitWrite
  extract_lets s1 _ s11 s12 s13 s14 s15 _ s16 s17 _
  have h1 : s₀.Keeps false s1 := .foldl (fun _ _ h => h.journalAppend) h
  have h11 : s₀.Keeps false s11 := .upd h1
  have h12 : s₀.Keeps false s12 := h11.ldgPut.ldgPut
  have h13 : s₀.Keeps false s13 := .ite h12.ldgAdd h12
  have h14 : s₀.Keeps false s14 := h13.ldgAdd
  have h15 : s₀.Keeps false s15 := h14.ldgPut
  have h16 : s₀.Keeps false s16 := .ite (.setFld (.upd h15)) (.setFld (.upd h15))
  have h17 : s₀.Keeps false s17 := h16.setFld
  exact .upd h17

theorem State.Keeps.execLedgerCommitDone {ok} (h : s₀.Keeps false s) : s₀.KeepsOut false (execLedgerCommitDone ok s) := by
  unfold Machine.execLedgerCommitDone
  split
  · exact .next h
  · extract_lets again s1 _ s11 s12 s13 _
    have h1 : s₀.Keeps false s1 := .ite h.commitWrite h.raise
    have h11 : s₀.Keeps false s11 := .upd h1
    have h12 : s₀.Keeps false s12 := h11.setFld
    have h13 : s₀.Keeps false s13 := .ite h12.archiveJournal h12
    split
    · exact .next h13.commitLedger
    · exact .next (.setFld (.upd h13))

theorem State.Keeps.healthScore (h : s₀.Keeps false s) : s₀.Keeps false s.healthScore := by
  unfold State.healthScore
  split
  · exact h.setFld
  · split
    · rename_i t e
      have h1 : s₀.Keeps false t := .of_snd h.draw e
      split
      · rename_i t1 e1
        have h11 : s₀.Keeps false t1 := .of_snd h1.draw e1
        extract_lets up o f c m t2 w v s1 s11
        have h12 : s₀.Keeps false s1 := h11.wr
        have h13 : s₀.Keeps false s11 := h12.wr
        exact h13.ldgPut.raise

theorem State.Keeps.execLedgerPeriodicCommit (h : s₀.Keeps false s) : s₀.KeepsOut false (execLedgerPeriodicCommit s) := by
  unfold Machine.execLedgerPeriodicCommit
  split
  · exact .next h
  · exact .next h.healthScore.commitLedger

theorem State.Keeps.rainflow {b mean} (h : s₀.Keeps false s) : s₀.Keeps false (s.rainflow b mean) := by
  unfold State.rainflow
  extract_lets l _
  split
  · extract_lets s1
    have h1 : s₀.Keeps false s1 := .upd h
    refine .foldl (fun t x h2 => ?_) h1
    split
    · exact h2
    · exact h2.ldgAdd

theorem State.Keeps.bayLife {b} (h : s₀.Keeps false s) : s₀.Keeps false (s.bayLife b) := by
  unfold State.bayLife
  extract_lets st raw n t q v s1 s11
  have h1 : s₀.Keeps false s1 := .ite h.ldgAdd.ldgAdd h
  have h11 : s₀.Keeps false s11 := .ite h1.ldgAdd h1
  exact .ite h1 h11.rainflow

theorem State.Keeps.engineLife {e} (h : s₀.Keeps false s) : s₀.Keeps false (s.engineLife e) := by
  unfold State.engineLife
  extract_lets s1 mj s11 _
  have h1 : s₀.Keeps false s1 := .ite h.ldgAdd h
  have h11 : s₀.Keeps false s11 := h1.ldgAdd
  exact .upd h11

theorem State.Keeps.execLifeSecond (h : s₀.Keeps false s) : s₀.KeepsOut false (execLifeSecond s) := by
  unfold Machine.execLifeSecond
  split
  · exact .next h
  · extract_lets s1 s11 s12 _
    have h1 : s₀.Keeps false s1 := h.ldgAdd
    have h11 : s₀.Keeps false s11 := .foldl (fun _ _ h => h.bayLife) h1
    have h12 : s₀.Keeps false s12 := .foldl (fun _ _ h => h.engineLife) h11
    exact .next (.upd h12)

theorem State.Keeps.laserHourEntry {e} (h : s₀.Keeps false s) : s₀.Keeps false (s.laserHourEntry e) := by
  unfold State.laserHourEntry
  extract_lets l w
  split
  · split
    · exact h
    · extract_lets mean s1 s11 s12 _
      have h1 : s₀.Keeps false s1 := h.journal
      have h11 : s₀.Keeps false s11 := h1.ldgPut
      have h12 : s₀.Keeps false s12 := h11.ldgPut
      exact .ite (.upd h12) h11

theorem State.Keeps.memHourEntry {u} (h : s₀.Keeps false s) : s₀.Keeps false (s.memHourEntry u) := by
  unfold State.memHourEntry
  extract_lets n
  exact .ite h h.journal

theorem State.Keeps.execLifeHour (h : s₀.Keeps false s) : s₀.KeepsOut false (execLifeHour s) := by
  unfold Machine.execLifeHour
  generalize s.lifeS % 3600 = seconds
  split
  · exact .next h
  · extract_lets s1 s2 s3
    have h1 : s₀.Keeps false s1 := .foldl (fun _ _ h => h.laserHourEntry) h
    have h2 : s₀.Keeps false s2 := h1.journal
    have h3 : s₀.Keeps false s3 := .foldl (fun _ _ h => h.memHourEntry) h2
    exact .next (.upd h3)

theorem State.Keeps.marginEvent {n kind} (h : s₀.Keeps false s) : s₀.Keeps false (s.marginEvent n kind) := by
  unfold State.marginEvent
  exact .ite h.thmEvent h

theorem State.Keeps.marginBits {n m} (h : s₀.Keeps false s) : s₀.Keeps false (s.marginBits n m) := by
  unfold State.marginBits
  extract_lets t below s1
  have h1 : s₀.Keeps false s1 := h.setBit
  exact .ite (.ite h1 h1.setBit.marginEvent) (.ite h.setBit.marginEvent h)

theorem State.Keeps.execMonitorWindowEnd {n cadence} (h : s₀.Keeps false s) :
    s₀.KeepsOut false (execMonitorWindowEnd n cadence s) := by
  unfold Machine.execMonitorWindowEnd
  extract_lets off req s1 m s11 above low _ s12 _ s13
  have h1 : s₀.Keeps false s1 := h.setFld.setFld
  have h11 : s₀.Keeps false s11 := h1.setFld.setFld
  have h12 : s₀.Keeps false s12 := .upd h11
  have h13 : s₀.Keeps false s13 := .ite (.upd h12) h12
  split
  · exact .next h1
  · exact .next h13.marginBits

theorem State.Keeps.execSupplyLoopEval {q} (h : s₀.Keeps false s) : s₀.KeepsOut false (execSupplyLoopEval q s) := by
  unfold Machine.execSupplyLoopEval
  split
  · rename_i t e
    have h1 : s₀.Keeps false t := .of_snd h.draw e
    extract_lets s1 l sp since mark
    have h11 : s₀.Keeps false s1 := h1.setFld
    split
    · exact .next (.upd h11)
    · split
      · exact .next (.setFld (.upd h11))
      · split
        · split
          · exact .next (.upd h11)
          · split
            · exact .next (.setFld (.upd h11))
            · exact .next h11
        · exact .next (.upd h11)

theorem State.Keeps.markLower {k} (h : s₀.Keeps false s) : s₀.Keeps false (s.markLower k) := by
  unfold State.markLower
  exact .upd h

theorem State.Keeps.overrunEffect {g b} (h : s₀.Keeps false s) : s₀.Keeps false (s.overrunEffect g b) := by
  unfold State.overrunEffect
  split
  · split
    · exact h.markLower
    · split
      · extract_lets p
        exact .ite h.partnerDead h
      · exact h
  · split
    · exact .upd h
    · split
      · extract_lets m
        exact h.markLower.markLower.markLower
      · split
        · exact .ite h.markLower h
        · split
          · extract_lets s1 _
            have h1 : s₀.Keeps false s1 := h.hifError
            exact .upd h1
          · exact h

theorem State.Keeps.overrun {g b} (h : s₀.Keeps false s) : s₀.Keeps false (s.overrun g b) := by
  unfold State.overrun
  exact h.setBit.setBit.incFld.overrunEffect

theorem State.Keeps.sillDeliver {g b n} (h : s₀.Keeps false s) : s₀.Keeps false (s.sillDeliver g b n) := by
  unfold State.sillDeliver
  exact .ite h.countBy (.ite h.countBy h)

theorem State.Keeps.sillCapture {g b n injected} (h : s₀.Keeps false s) : s₀.Keeps false (s.sillCapture g b n injected) := by
  unfold State.sillCapture
  extract_lets x y s1
  have h1 : s₀.Keeps false s1 := .upd h
  exact h1.sillDeliver

theorem State.Keeps.takeInjected {g b} (h : s₀.Keeps false s) : s₀.Keeps false (s.takeInjected g b).2 := by
  unfold State.takeInjected
  split
  · split
    · exact .upd h
    · exact h
  · exact h

theorem State.Keeps.pulse {g b c} (h : s₀.Keeps false s) : s₀.Keeps false (s.pulse g b c) := by
  unfold State.pulse
  split
  · rename_i t e
    have h1 : s₀.Keeps false t := .of_snd h.takeInjected e
    extract_lets x n put
    split
    · exact h1.sillCapture
    · split
      · exact .ite (.upd h1) (.ite (.overrun (.upd h1)) (.upd h1))
      · exact .ite (.overrun (.upd h1)) (.upd h1)

theorem State.Keeps.execSillPulse {g b} (h : s₀.Keeps false s) : s₀.KeepsOut false (execSillPulse g b s) := by
  unfold Machine.execSillPulse
  split
  · exact .next h.pulse
  · exact .next h

theorem State.Keeps.execSillAcknowledge {g b} (h : s₀.Keeps false s) : s₀.KeepsOut false (execSillAcknowledge g b s) := by
  unfold Machine.execSillAcknowledge
  extract_lets x
  exact .next (.ite h (.ite (.upd h) h.sillCapture))

theorem State.Keeps.execChannelRetrained {d h' c} (h : s₀.Keeps false s) : s₀.KeepsOut false (execChannelRetrained d h' c s) := by
  unfold Machine.execChannelRetrained
  exact .next (.upd h)

theorem State.Keeps.injectStart {g b n} (h : s₀.Keeps calm s) : s₀.Keeps calm (s.injectStart g b n) := by
  unfold State.injectStart
  split
  · exact h.setFld
  · extract_lets s1
    have h1 : s₀.Keeps calm s1 := h.setFld
    exact .upd h1

theorem State.Keeps.execInjectionDone (h : s₀.Keeps false s) : s₀.KeepsOut false (execInjectionDone s) := by
  unfold Machine.execInjectionDone
  split
  · extract_lets s1
    have h1 : s₀.Keeps false s1 := h.setFld
    exact .next (.upd h1)
  · exact .next h

theorem State.Keeps.barRefused {bar write size offset} (h : s₀.Keeps false s) :
    s₀.Keeps false (s.barRefused bar write size offset) := by
  unfold State.barRefused
  extract_lets s1
  have h1 : s₀.Keeps false s1 := .ite h h.wr
  exact .ite h1.hifError.count h1.hifError.count

theorem State.Keeps.bar2Write {offset v} (h : s₀.Keeps false s) : s₀.Keeps false (s.bar2Write offset v) := by
  unfold State.bar2Write
  extract_lets p
  exact .ite h.barRefused (.ite h.setPeg h.addPeg)

theorem State.Keeps.execPegBar2Set {p v} (h : s₀.Keeps false s) : s₀.KeepsOut false (execPegBar2Set p v s) := by
  unfold Machine.execPegBar2Set
  exact .next (.ite h h.bar2Write)

theorem State.Keeps.execPegBar2Add {p v} (h : s₀.Keeps false s) : s₀.KeepsOut false (execPegBar2Add p v s) := by
  unfold Machine.execPegBar2Add
  exact .next (.ite h h.bar2Write)

theorem State.Keeps.setRing {r x'} (h : s₀.Keeps calm s) : s₀.Keeps calm (s.setRing r x') := by
  unfold State.setRing
  exact .upd h

theorem State.Keeps.issueReads {r n n'} (h : s₀.Keeps false s) : s₀.Keeps false (s.issueReads r n n') := by
  induction n generalizing s n' with
  | zero =>
    unfold State.issueReads
    exact h
  | succ n ih =>
    unfold State.issueReads
    extract_lets slot
    exact ih h.sendCxl

theorem State.Keeps.serveRings {n} (h : s₀.Keeps false s) : s₀.Keeps false (State.serveRings n s) := by
  induction n generalizing s with
  | zero =>
    unfold State.serveRings
    exact h
  | succ n ih =>
    unfold State.serveRings
    split
    · exact h
    · extract_lets n1 s1 _ s11 _
      have h1 : s₀.Keeps false s1 := h.issueReads
      have h11 : s₀.Keeps false s11 := h1.setRing
      exact .ite h (ih (.upd h11))

theorem State.Keeps.fetchMore (h : s₀.Keeps false s) : s₀.Keeps false s.fetchMore := by
  unfold State.fetchMore
  exact h.serveRings

theorem State.Keeps.ringError {r code} (h : s₀.Keeps false s) : s₀.Keeps false (s.ringError r code) := by
  unfold State.ringError
  extract_lets s1 _
  have h1 : s₀.Keeps false s1 := h.setFld.setFld
  exact h1.setRing.hifError

theorem State.Keeps.poisonReceived (h : s₀.Keeps false s) : s₀.Keeps false s.poisonReceived := by
  unfold State.poisonReceived
  extract_lets s1 _
  have h1 : s₀.Keeps false s1 := h.hifError
  exact .upd h1

theorem State.Keeps.tailSeen {r tail poll} (h : s₀.Keeps false s) : s₀.Keeps false (s.tailSeen r tail poll) := by
  unfold State.tailSeen
  extract_lets x s1 s11 _
  have h1 : s₀.Keeps false s1 := .ite h.count h
  have h11 : s₀.Keeps false s11 := h1.setRing
  exact .ite (.ite h h.count) (.ite h11.ringError h11.setRing.fetchMore)

theorem State.Keeps.lineRead {r read act} (h : s₀.Keeps false s) (hact : ∀ t x, s₀.Keeps false t → s₀.Keeps false (act t x)) :
    s₀.Keeps false (s.lineRead r read act) := by
  unfold State.lineRead
  split
  · exact hact _ _ h
  · exact h.ringError
  · exact h.poisonReceived.ringError

theorem State.Keeps.readLine {r} (h : s₀.Keeps false s) : s₀.Keeps false (s.readLine r) := by
  unfold State.readLine
  exact h.setRing.sendCxl

theorem State.Keeps.execWatchedLineSnoop {r} (h : s₀.Keeps false s) : s₀.KeepsOut false (execWatchedLineSnoop r s) := by
  unfold Machine.execWatchedLineSnoop
  extract_lets x s1 s11
  have h1 : s₀.Keeps false s1 := h.count.sendCxl
  have h11 : s₀.Keeps false s11 := h1.setRing.pulse
  split
  · exact .next h
  · exact .next (.ite h11 h11.readLine)

theorem State.Keeps.execWatchedLineData {r read} (h : s₀.Keeps false s) : s₀.KeepsOut false (execWatchedLineData r read s) := by
  unfold Machine.execWatchedLineData
  extract_lets x s1 s11
  have h1 : s₀.Keeps false s1 := h.setRing
  have h11 : s₀.Keeps false s11 := .lineRead h1 (fun _ _ h => .ite h.setRing h.tailSeen)
  split
  · exact .next h
  · exact .next (.ite h11.readLine h11)

theorem State.Keeps.execWatchPoll {r read} (h : s₀.Keeps false s) : s₀.KeepsOut false (execWatchPoll r read s) := by
  unfold Machine.execWatchPoll
  split
  · exact .next h
  · exact .next (.lineRead h.sendCxl (fun _ _ h => h.tailSeen))

theorem State.Keeps.ringBit {r b} (h : s₀.Keeps false s) : s₀.Keeps false (s.ringBit r b) := by
  unfold State.ringBit
  exact h.setBit

theorem State.Keeps.ringStart {r} (h : s₀.Keeps false s) : s₀.Keeps false (s.ringStart r) := by
  unfold State.ringStart
  extract_lets s1
  have h1 : s₀.Keeps false s1 := h.ringBit.setFld
  exact h1.setRing.readLine

theorem State.Keeps.ringStop {r} (h : s₀.Keeps calm s) : s₀.Keeps calm (s.ringStop r) := by
  unfold State.ringStop
  exact .ite h.setFld.setRing h

theorem State.Keeps.execRingDrained {r} (h : s₀.Keeps false s) : s₀.KeepsOut false (execRingDrained r s) := by
  unfold Machine.execRingDrained
  extract_lets off
  exact .next (.ite h.setFld.setFld.ringBit h)

theorem State.Keeps.cqStart {c} (h : s₀.Keeps false s) : s₀.Keeps false (s.cqStart c) := by
  unfold State.cqStart
  extract_lets s1 _
  have h1 : s₀.Keeps false s1 := h.setFld.wr
  exact .upd h1

theorem State.Keeps.takeItem {r b} (h : s₀.Keeps false s) : s₀.Keeps false (s.takeItem r b) := by
  unfold State.takeItem
  extract_lets off v own cq i i1 s1 _
  have h1 : s₀.Keeps false s1 := h.incFld.incFld.incFld
  exact .count (.upd h1)

theorem State.Keeps.execDescriptorArrival {r read} (h : s₀.Keeps false s) : s₀.KeepsOut false (execDescriptorArrival r read s) := by
  unfold Machine.execDescriptorArrival
  extract_lets x
  split
  · exact .next h
  · split
    · exact .next h.ringError
    · exact .next h.poisonReceived.ringError
    · exact .next h.setRing.takeItem.fetchMore

theorem State.Keeps.queueItem {i} (h : s₀.Keeps false s) : s₀.Keeps false (s.queueItem i) := by
  unfold State.queueItem
  extract_lets s1 _
  have h1 : s₀.Keeps false s1 := h.updItem
  exact .ite (.upd h1) h1

theorem State.Keeps.execDescriptorAdmit {item} (h : s₀.Keeps false s) : s₀.KeepsOut false (execDescriptorAdmit item s) := by
  unfold Machine.execDescriptorAdmit
  split
  · exact .next h
  · extract_lets l
    split
    · exact .next h
    · split
      · exact .next h.updItem
      · exact .next h.queueItem

theorem State.Keeps.execParkedWaitSatisfied {item} (h : s₀.Keeps false s) : s₀.KeepsOut false (execParkedWaitSatisfied item s) := by
  unfold Machine.execParkedWaitSatisfied
  split
  · exact .next h
  · exact .next (.ite h.queueItem h)

theorem State.Keeps.execDescriptorWaitTimeout {item} (h : s₀.Keeps false s) :
    s₀.KeepsOut false (execDescriptorWaitTimeout item s) := by
  unfold Machine.execDescriptorWaitTimeout
  split
  · exact .next h
  · split
    · exact .next h
    · split
      · exact .next h.queueItem
      · exact .next h.itemDone

theorem State.Keeps.execDescriptorNop {item} (h : s₀.Keeps false s) : s₀.KeepsOut false (execDescriptorNop item s) := by
  unfold Machine.execDescriptorNop
  split
  · exact .next h
  · exact .next (.ite h.itemDone h)

theorem State.Keeps.execDescriptorRun {item} (h : s₀.Keeps false s) : s₀.KeepsOut false (execDescriptorRun item s) := by
  unfold Machine.execDescriptorRun
  split
  · split
    · exact .next h
    · extract_lets l a
      split
      · rename_i t e
        have h1 : s₀.Keeps false t := .of_snd h.draw e
        split
        · exact .next h1
        · extract_lets _ s1 s11
          have h11 : s₀.Keeps false s1 := .updItem (.upd h1)
          have h12 : s₀.Keeps false s11 := h11.setCtx
          exact .next (.ite h12.sendCxl h12)
  · exact .next h

theorem State.Keeps.execImageReadComplete {n read errs} (h : s₀.Keeps false s) :
    s₀.KeepsOut false (execImageReadComplete n read errs s) := by
  unfold Machine.execImageReadComplete
  extract_lets c x
  split
  · extract_lets image entry
    split
    · rename_i t _ e
      have h1 : s₀.Keeps false t := .of_fst h.checkImage e
      split
      · exact .next h1.setCtx.itemDone
      · exact .next h1.setCtx.itemDone
      · extract_lets y y1 y2
        exact .next h1.startCtx.fetchCheck
  · exact .next h

theorem State.Keeps.abortItem {i tag} (h : s₀.Keeps false s) : s₀.Keeps false (s.abortItem i tag).2 := by
  unfold State.abortItem
  extract_lets drop
  split
  · exact h
  · split
    · exact h
    · extract_lets c x s1
      have h1 : s₀.Keeps false s1 := h.setCtx
      split
      · exact h.setCtx.itemDone
      · split
        · exact h1.updItem.tryEnd
        · exact h
  · exact .itemDone (.upd h)

theorem State.Keeps.execDescriptorAbort {item} (h : s₀.Keeps false s) : s₀.KeepsOut false (execDescriptorAbort item s) := by
  unfold Machine.execDescriptorAbort
  split
  · exact .next h
  · split
    · exact .next h
    · extract_lets l
      split
      · rename_i t e
        have h1 : s₀.Keeps false t := by
          refine .of_snd ?_ e
          refine .foldl_snd (fun x x1 h1 => ?_) h
          split
          · rename_i t1 e1
            have h11 : s₀.Keeps false t1 := .of_snd h1.abortItem e1
            exact h11
        exact .next h1.itemDone

theorem State.Keeps.retire {i} (h : s₀.Keeps false s) : s₀.Keeps false (s.retire i) := by
  unfold State.retire
  extract_lets off w s1 s11 _
  have h1 : s₀.Keeps false s1 := h.setFld
  have h11 : s₀.Keeps false s11 := .ite h1 h1.setFld
  exact .fetchMore (.upd h11)

theorem State.Keeps.writeRecord {i} (h : s₀.Keeps false s) : s₀.Keeps false (s.writeRecord i) := by
  unfold State.writeRecord
  extract_lets c t n phase s1
  have h1 : s₀.Keeps false s1 := h.hostWrite.count
  exact h1.setFld.setFld

theorem State.Keeps.signalPeg {i} (h : s₀.Keeps false s) : s₀.Keeps false (s.signalPeg i) := by
  unfold State.signalPeg
  exact .ite h.addPeg h

theorem State.Keeps.execWorkCompletion {item} (h : s₀.Keeps false s) : s₀.KeepsOut false (execWorkCompletion item s) := by
  unfold Machine.execWorkCompletion
  split
  · exact .next h
  · extract_lets due s1 s11 s12 s13 s14
    have h1 : s₀.Keeps false s1 := h.signalPeg
    have h11 : s₀.Keeps false s11 := .ite h1.incFld.count.hifError h1
    have h12 : s₀.Keeps false s12 := .ite h.writeRecord h
    have h13 : s₀.Keeps false s13 := h12.signalPeg
    have h14 : s₀.Keeps false s14 := .ite h13.raise h13
    split
    · exact .next h
    · split
      · exact .next h11.retire
      · split
        · exact .next h
        · split
          · exact .next h.setFld
          · exact .next h14.retire

theorem State.Keeps.execCqHeadptrReread {c read} (h : s₀.Keeps false s) : s₀.KeepsOut false (execCqHeadptrReread c read s) := by
  unfold Machine.execCqHeadptrReread
  split
  · exact .next h
  · extract_lets s1 _
    have h1 : s₀.Keeps false s1 := h.sendCxl
    split
    · exact .next h1
    · exact .next h1.poisonReceived
    · extract_lets v s11
      have h11 : s₀.Keeps false s11 := .ite (.upd h1) h1
      exact .next (.ite h11.setFld h11)

theorem State.Keeps.execCqStallTimeout {c} (h : s₀.Keeps false s) : s₀.KeepsOut false (execCqStallTimeout c s) := by
  unfold Machine.execCqStallTimeout
  exact .next (.ite h.count.hifError h)

theorem State.Keeps.hifRegs (h : s₀.Keeps false s) : s₀.Keeps false s.hifRegs := by
  unfold State.hifRegs
  exact ⟨h.pending, fun hc => ⟨swf_filter _ (h.canonical hc).1, (h.canonical hc).2⟩, nofun⟩

theorem State.Keeps.hostReset (h : s₀.Keeps false s) : s₀.Keeps false s.hostReset := by
  unfold State.hostReset
  extract_lets s1 ring s11 _ _
  have h1 : s₀.Keeps false s1 := h.hifRegs
  have h11 : s₀.Keeps false s11 := h1.dropChecks
  exact .upd h11

theorem State.Keeps.execLinkDown (h : s₀.Keeps false s) : s₀.KeepsOut false (execLinkDown s) := by
  unfold Machine.execLinkDown
  exact .next h.hostReset

theorem State.Keeps.execPerstNAssert (h : s₀.Keeps false s) : s₀.KeepsOut false (execPerstNAssert s) := by
  unfold Machine.execPerstNAssert
  extract_lets s1 _
  have h1 : s₀.Keeps false s1 := .ite h.hostReset h
  exact .next (.upd h1)

theorem State.Keeps.train {trains lopt t} (h : s₀.Keeps false s) (e : (s.train trains lopt) = some t) : s₀.Keeps false t := by
  unfold State.train at e
  dsimp only at e
  obtain ⟨c, -, rfl⟩ := Option.map_eq_some_iff.mp e
  exact h.setFld.setFld.setFld.setFld

theorem State.Keeps.execLinkRetrain {trains lopt} (h : s₀.Keeps false s) : s₀.KeepsOut false (execLinkRetrain trains lopt s) := by
  unfold Machine.execLinkRetrain
  extract_lets up s1 s11
  have h1 : s₀.Keeps false s1 := h.incSat.count
  have h11 : s₀.Keeps false s11 := h1.setFld
  split
  · exact .next h
  · split
    · rename_i t e
      have h12 : s₀.Keeps false t := h11.train e
      exact .next h12
    · rename_i e
      exact .next (.ite h11.hostReset h11)

theorem State.Keeps.execD3hotEntry (h : s₀.Keeps false s) : s₀.KeepsOut false (execD3hotEntry s) := by
  unfold Machine.execD3hotEntry
  exact .next (.upd h)

theorem State.Keeps.execD0Return (h : s₀.Keeps false s) : s₀.KeepsOut false (execD0Return s) := by
  unfold Machine.execD0Return
  split
  · exact .next h
  · extract_lets _ s1
    have h1 : s₀.Keeps false s1 := .upd h
    exact .next (.fetchMore (.foldl (fun _ _ h => h.readLine) h1))

theorem State.Keeps.execIdeFailure (h : s₀.Keeps false s) : s₀.KeepsOut false (execIdeFailure s) := by
  unfold Machine.execIdeFailure
  extract_lets s1 _ _
  have h1 : s₀.Keeps false s1 := h.hifError.count.setFld
  exact .next (.upd h1)

theorem State.Keeps.answerMctp {i3c f} (h : s₀.Keeps false s) : s₀.Keeps false (s.answerMctp i3c f) := by
  unfold State.answerMctp
  exact h.sendMctp.count

theorem State.Keeps.execMctpMessage {i3c wellFormed msg} (h : s₀.Keeps false s) :
    s₀.KeepsOut false (execMctpMessage i3c wellFormed msg s) := by
  unfold Machine.execMctpMessage
  split
  · exact .next h.count.hifError
  · extract_lets s1 _ s11
    have h1 : s₀.Keeps false s1 := h.count
    have h11 : s₀.Keeps false s11 := .ite (.upd h1) h1
    exact .next (.ite h1.answerMctp h11.answerMctp)

theorem State.Keeps.wakeKept (h : s₀.Keeps false s) : s₀.Keeps false s.wakeKept := by
  unfold State.wakeKept
  exact h.wakeBays

theorem State.Keeps.drainBay {n} (h : s₀.Keeps false s) : s₀.Keeps false (s.drainBay n) := by
  unfold State.drainBay
  extract_lets l _
  exact .upd h

theorem State.Keeps.lowerBay {n} (h : s₀.Keeps false s) : s₀.Keeps false (s.lowerBay n) := by
  unfold State.lowerBay
  extract_lets low _
  exact .upd h

theorem State.Keeps.loseContext {c} (h : s₀.Keeps false s) : s₀.Keeps false (s.loseContext c) := by
  unfold State.loseContext
  extract_lets x s1
  have h1 : s₀.Keeps false s1 := .ite h.setCtx h
  exact h1.except

theorem State.Keeps.loseSection {q k} (h : s₀.Keeps false s) : s₀.Keeps false (s.loseSection q k) := by
  unfold State.loseSection
  extract_lets s1 s11 _
  have h1 : s₀.Keeps false s1 := .foldl (fun _ _ h => h.loseContext) h
  have h11 : s₀.Keeps false s11 := .foldl (fun _ _ h => h.trussFault) h1
  exact .updDxn h11

theorem State.Keeps.loseBay {n} (h : s₀.Keeps false s) : s₀.Keeps false (s.loseBay n) := by
  unfold State.loseBay
  extract_lets s1 q g s11
  have h1 : s₀.Keeps false s1 := h.lowerBay
  have h11 : s₀.Keeps false s11 := .foldl (fun _ _ h => h.ringsLost) h1
  exact .ite (.ite h1.loseSection (.ite (.foldl (fun _ _ h => .ite h.goDown h) h1)
    (.ite h1.abortWhere.abortWhere h1.loseBuffer))) (.ite h1.poison (.ite (.foldl (fun _ _ h => h.pcsLost) h11)
    (.ite h1.hostReset (.ite (.ite h1 h1.poison) h1))))

theorem State.Keeps.groupLasers {g old new} (h : s₀.Keeps false s) : s₀.Keeps false (s.groupLasers g old new) := by
  unfold State.groupLasers
  refine .foldl (fun t i h1 => ?_) h
  extract_lets e l s1
  have h11 : s₀.Keeps false s1 := h1.lasSet
  exact .ite (.upd h11) h1

theorem State.Keeps.bayEnter {n st} (h : s₀.Keeps false s) : s₀.Keeps false (s.bayEnter n st) := by
  unfold State.bayEnter
  extract_lets s1 g
  have h1 : s₀.Keeps false s1 := .setBay (.ite h.drainBay h)
  exact .ite (.foldl (fun _ _ h => h.ringsLost) h1.groupLasers.groupLasers) h1

theorem State.Keeps.execBayDwellExpiry {n} (h : s₀.Keeps false s) : s₀.KeepsOut false (execBayDwellExpiry n s) := by
  unfold Machine.execBayDwellExpiry
  extract_lets st
  split
  · exact .next h.bayEnter
  · exact .next h

theorem State.Keeps.execBayWake {n} (h : s₀.Keeps false s) : s₀.KeepsOut false (execBayWake n s) := by
  unfold Machine.execBayWake
  exact .next h.wakeBay

theorem State.Keeps.applyL {g} (h : s₀.Keeps false s) : s₀.Keeps false (s.applyL g) := by
  unfold State.applyL
  extract_lets mine due _ s1
  have h1 : s₀.Keeps false s1 := .upd h
  refine .foldl (fun t x h2 => ?_) h1
  extract_lets e
  exact .ite h2.relockEngine (.ite h2.measureStart h2.clearLanes)

theorem State.Keeps.leaveDark {g} (h : s₀.Keeps false s) : s₀.Keeps false (s.leaveDark g) := by
  unfold State.leaveDark
  exact .foldl (fun _ _ h => .ite h.ringsStart h.engineStatus) h.groupLasers

theorem State.Keeps.execBayWakeDone {n duration restored} (h : s₀.Keeps false s) :
    s₀.KeepsOut false (execBayWakeDone n duration restored s) := by
  unfold Machine.execBayWakeDone
  split
  · exact .next h
  · extract_lets old off s1 _ s11 s12 s13 s14 s15
    have h1 : s₀.Keeps false s1 := .ite h.splLate h
    have h11 : s₀.Keeps false s11 := .upd h1
    have h12 : s₀.Keeps false s12 := h11.setBay.setFld.incFld
    have h13 : s₀.Keeps false s13 := .ite h12.thmEvent h12
    have h14 : s₀.Keeps false s14 := .ite h13.loseBay h13
    have h15 : s₀.Keeps false s15 := .ite (.applyL (.ite h14.leaveDark h14)) h14
    exact .next h15.splWoken.wakeKept

theorem State.Keeps.tolWritten {n} (h : s₀.Keeps calm s) : s₀.Keeps calm (s.tolWritten n) := by
  unfold State.tolWritten
  exact .ite h.wakeBay h

theorem State.Keeps.execRailMonitorTrip {n} (h : s₀.Keeps false s) : s₀.KeepsOut false (execRailMonitorTrip n s) := by
  unfold Machine.execRailMonitorTrip
  split
  · exact .next h
  · extract_lets _ s1 s11 s12
    have h1 : s₀.Keeps false s1 := .upd h
    have h11 : s₀.Keeps false s11 := h1.setBay.thmEvent.journal
    have h12 : s₀.Keeps false s12 := h11.ldgAdd.loseBay
    exact .next h12.splWoken

theorem State.Keeps.execRailMonitorRelease {n} (h : s₀.Keeps false s) : s₀.KeepsOut false (execRailMonitorRelease n s) := by
  unfold Machine.execRailMonitorRelease
  split
  · exact .next h
  · extract_lets s1 s11
    have h1 : s₀.Keeps false s1 := h.setBay
    have h11 : s₀.Keeps false s11 := .ite h1.leaveDark.applyL h1
    exact .next h11.splWoken.wakeKept

theorem State.Keeps.restart {cause resets} (h : s₀.Keeps false s) : s₀.Keeps false (s.restart cause resets) := by
  refine ⟨?_, fun _ => ⟨s.restart_regsWf cause resets, ?_⟩, nofun⟩
  · obtain ⟨m, o, hlas⟩ := s.lasAllOff_same
    have hp : (s.restart cause resets).pending = s.lasAllOff.pending := by simp [State.restart, State.draw]
    rw [hp, hlas]
    exact h.pending
  · have hm : (s.restart cause resets).mem = {} := by simp [State.restart, State.draw]
    rw [hm]
    rfl

theorem State.Keeps.portsDown (h : s₀.Keeps false s) : s₀.Keeps false s.portsDown := by
  unfold State.portsDown
  exact .foldl (fun _ _ h => .ite h h.setFld.setFld) h

theorem State.Keeps.shed (h : s₀.Keeps false s) : s₀.Keeps false s.shed := by
  unfold State.shed
  extract_lets s1 s2 s3
  have h1 : s₀.Keeps false s1 := h.portsDown
  have h2 : s₀.Keeps false s2 := .foldl (fun _ _ h => .ite h h.setFld) h1
  have h3 : s₀.Keeps false s3 := h2.setFld.setFld
  exact .updRun h3

theorem State.Keeps.powerFail (h : s₀.Keeps false s) : s₀.Keeps false s.powerFail := by
  unfold State.powerFail
  split
  · exact h
  · exact h
  · exact .upd h
  · exact .upd h
  all_goals exact .commitLedger (.upd h.shed)

theorem State.Keeps.commitBefore (h : s₀.Keeps false s) : s₀.Keeps false s.commitBefore := by
  unfold State.commitBefore
  extract_lets _ s1 _
  have h1 : s₀.Keeps false s1 := .ite (.commitWrite (.upd h)) h
  exact .commitWrite (.upd h1)

theorem State.Keeps.moduleReset {cause} (h : s₀.Keeps false s) : s₀.Keeps false (s.moduleReset cause) := by
  unfold State.moduleReset
  extract_lets n s1
  have h1 : s₀.Keeps false s1 := h.portsDown.commitBefore.restart
  exact .upd h1

theorem State.Keeps.takeTemp {i raw} (h : s₀.Keeps false s) : s₀.Keeps false (s.takeTemp i raw) := by
  unfold State.takeTemp
  extract_lets off s1 s11
  have h1 : s₀.Keeps false s1 := h.setFld
  have h11 : s₀.Keeps false s11 := .ite h1.setFld h1
  exact .ite h1 (.ite h11.setFld h11)

theorem State.Keeps.ledgerTemps (h : s₀.Keeps false s) : s₀.Keeps false s.ledgerTemps := by
  unfold State.ledgerTemps
  extract_lets s1 _
  have h1 : s₀.Keeps false s1 := by
    unfold s1
    refine .foldl (fun t x h1 => ?_) h
    extract_lets off _ s11
    have h11 : s₀.Keeps false s11 := .upd h1
    exact .ite h11.ldgPut h11
  exact .upd h1

theorem State.Keeps.tempStep {x'} (h : s₀.Keeps false s) : s₀.Keeps false (s.tempStep x') := by
  unfold State.tempStep
  extract_lets l hold _ s1 hi lo c later earlier _ s11 s12
  have h1 : s₀.Keeps false s1 := .upd h
  have h11 : s₀.Keeps false s11 := .upd h1
  have h12 : s₀.Keeps false s12 := h11.thmEvent.setFld
  exact .ite h12.journal h1

theorem State.Keeps.powerPaceStep {watts} (h : s₀.Keeps false s) : s₀.Keeps false (s.powerPaceStep watts) := by
  unfold State.powerPaceStep
  extract_lets cap p n _ s1 s11
  have h1 : s₀.Keeps false s1 := .upd h
  have h11 : s₀.Keeps false s11 := .upd h
  exact .ite (.ite h1.thmEvent h1) (.ite (.ite (.upd h) (.ite h11.thmEvent h11)) (.upd h))

theorem State.Keeps.thermalStep {n t'} (h : s₀.Keeps false s) : s₀.Keeps false (s.thermalStep n t') := by
  unfold State.thermalStep
  extract_lets limit d k _
  exact .ite (.upd h) (.ite (.ite (.upd h) (.upd h)) (.upd h))

theorem State.Keeps.paceSection {q k} (h : s₀.Keeps false s) : s₀.Keeps false (s.paceSection q k) := by
  unfold State.paceSection
  extract_lets n off old new s1 s11
  have h1 : s₀.Keeps false s1 := h.setFld
  have h11 : s₀.Keeps false s11 := h1.setFld
  exact .ite h11.thmEvent.setFld (.ite h11.thmEvent h11)

theorem State.Keeps.paceAll {watts} (h : s₀.Keeps false s) : s₀.Keeps false (s.paceAll watts) := by
  unfold State.paceAll
  extract_lets s1
  have h1 : s₀.Keeps false s1 := h.powerPaceStep
  refine .foldl (fun t i h2 => ?_) h1
  extract_lets n s11
  have h11 : s₀.Keeps false s11 := by
    unfold s11
    split
    · exact h2.thermalStep
    · exact h2
  exact h11.paceSection

theorem State.Keeps.heatLimits {i t'} (h : s₀.Keeps false s) : s₀.Keeps false (s.heatLimits i t') := by
  unfold State.heatLimits
  extract_lets s1 _ s11 _ s12 s13 _
  have h1 : s₀.Keeps false s1 := h.setFld.setFld
  have h11 : s₀.Keeps false s11 := .ite (.setFld (.thmEvent (.upd h1))) (.ite (.upd h1) h1)
  have h12 : s₀.Keeps false s12 := .ite (.thmEvent (.upd h11)) (.ite (.thmEvent (.upd h11)) h11)
  have h13 : s₀.Keeps false s13 := h12.setFld
  exact .ite (.splEvent (.upd h13)) (.ite (.upd h13) h13)

theorem State.Keeps.execSensorSample {sample} (h : s₀.Keeps false s) : s₀.KeepsOut false (execSensorSample sample s) := by
  unfold Machine.execSensorSample
  split
  · exact .next h
  · extract_lets s1 s11 s12 s13 s14 s15
    have h1 : s₀.Keeps false s1 := .foldl (fun _ _ h => h.takeTemp) h
    have h11 : s₀.Keeps false s11 := h1.setFld.setFld.setFld
    have h12 : s₀.Keeps false s12 := h11.ledgerTemps
    have h13 : s₀.Keeps false s13 := .foldl (fun _ _ h => h.tempStep) h12
    have h14 : s₀.Keeps false s14 := h13.paceAll
    have h15 : s₀.Keeps false s15 := h14.setFld
    split
    · exact .next h15
    · extract_lets s16 _
      have h16 : s₀.Keeps false s16 := h15.heatLimits
      exact .next (.ite (.powerFail (.upd h16)) h16)

theorem State.Keeps.powerStart (h : s₀.Keeps false s) : s₀.Keeps false s.powerStart := by
  unfold State.powerStart
  exact .ite (.upd h) h

theorem State.Keeps.execPowerUp (h : s₀.Keeps false s) : s₀.KeepsOut false (execPowerUp s) := by
  unfold Machine.execPowerUp
  exact .next h.powerStart

theorem State.Keeps.execInputRecovered (h : s₀.Keeps false s) : s₀.KeepsOut false (execInputRecovered s) := by
  unfold Machine.execInputRecovered
  exact .next h.powerStart

theorem State.Keeps.t1 {straps} (h : s₀.Keeps false s) : s₀.Keeps false (s.t1 straps) := by
  unfold State.t1
  extract_lets s1 _ _
  have h1 : s₀.Keeps false s1 := h.setFld
  exact .upd h1

theorem State.Keeps.execBulkCharged (h : s₀.Keeps false s) : s₀.KeepsOut false (execBulkCharged s) := by
  unfold Machine.execBulkCharged
  split
  · exact .next h
  · extract_lets s1 _ _ s11
    have h1 : s₀.Keeps false s1 := h.restart
    have h11 : s₀.Keeps false s11 := .upd h1
    exact .next (.ite h11.t1 h11)

theorem State.Keeps.execModRstNRise {straps} (h : s₀.Keeps false s) : s₀.KeepsOut false (execModRstNRise straps s) := by
  unfold Machine.execModRstNRise
  extract_lets _ s1
  have h1 : s₀.Keeps false s1 := .upd h
  exact .next (.ite h1.t1 h1)

theorem State.Keeps.execPerstNRelease (h : s₀.Keeps false s) : s₀.KeepsOut false (execPerstNRelease s) := by
  unfold Machine.execPerstNRelease
  exact .next (.upd h)

theorem State.Keeps.execPowerDown (h : s₀.Keeps false s) : s₀.KeepsOut false (execPowerDown s) := by
  unfold Machine.execPowerDown
  extract_lets _ s1
  have h1 : s₀.Keeps false s1 := .upd h
  split
  · exact .next h1
  · exact .next h1
  · exact .next h1
  · exact .next (.upd h1)
  all_goals exact .next (.commitLedger (.upd h1.shed.lasAllOff))

theorem State.Keeps.execConversionStop (h : s₀.Keeps false s) : s₀.KeepsOut false (execConversionStop s) := by
  unfold Machine.execConversionStop
  split
  · exact .next (.upd h)
  · exact .next h

theorem State.Keeps.execPfailNLow (h : s₀.Keeps false s) : s₀.KeepsOut false (execPfailNLow s) := by
  unfold Machine.execPfailNLow
  exact .next (.ite (.powerFail (.upd h)) h)

theorem State.Keeps.execBladePairLoss {pair} (h : s₀.Keeps false s) : s₀.KeepsOut false (execBladePairLoss pair s) := by
  unfold Machine.execBladePairLoss
  exact .next (.powerFail (.ite (.upd h) (.upd h)))

theorem State.Keeps.execPairShareTimeout {shareA} (h : s₀.Keeps false s) : s₀.KeepsOut false (execPairShareTimeout shareA s) := by
  unfold Machine.execPairShareTimeout
  split
  · exact .next h.setFld.powerFail
  · exact .next h

theorem State.Keeps.execInputSagDetect (h : s₀.Keeps false s) : s₀.KeepsOut false (execInputSagDetect s) := by
  unfold Machine.execInputSagDetect
  exact .next h.powerFail

theorem State.Keeps.execModRstNLow (h : s₀.Keeps false s) : s₀.KeepsOut false (execModRstNLow s) := by
  unfold Machine.execModRstNLow
  split
  · exact .next (.moduleReset (.upd h))
  · exact .next (.upd h)
  · exact .next (.upd h)
  · exact .next (.upd h)
  · exact .next (.upd h)
  · exact .next (.upd h)
  · exact .next (.upd h)

theorem State.Keeps.resetModule (h : s₀.Keeps false s) : s₀.Keeps false s.resetModule := by
  unfold State.resetModule
  exact .ite h.moduleReset h

theorem State.Keeps.execModuleResetEnd {straps} (h : s₀.Keeps false s) : s₀.KeepsOut false (execModuleResetEnd straps s) := by
  unfold Machine.execModuleResetEnd
  split
  · exact .next h.t1
  · exact .next h

theorem State.Keeps.restartWellhead (h : s₀.Keeps false s) : s₀.Keeps false s.restartWellhead := by
  unfold State.restartWellhead
  split
  · exact h
  · extract_lets s1 _ _
    have h1 : s₀.Keeps false s1 := h.incSat
    exact .upd h1

theorem State.Keeps.execWellheadWatchdog (h : s₀.Keeps false s) : s₀.KeepsOut false (execWellheadWatchdog s) := by
  unfold Machine.execWellheadWatchdog
  exact .next h.restartWellhead

theorem State.Keeps.execWellheadRestartDone (h : s₀.Keeps false s) : s₀.KeepsOut false (execWellheadRestartDone s) := by
  unfold Machine.execWellheadRestartDone
  split
  · exact .next (.upd h)
  · exact .next h

theorem State.Keeps.setLaser {e l} (h : s₀.Keeps false s) : s₀.Keeps false (s.setLaser e l) := by
  unfold State.setLaser
  exact .upd h

theorem State.Keeps.pairedBit {e} (h : s₀.Keeps false s) : s₀.Keeps false (s.pairedBit e) := by
  unfold State.pairedBit
  exact h.setFld

theorem State.Keeps.laserGone {e present} (h : s₀.Keeps false s) : s₀.Keeps false (s.laserGone e present) := by
  unfold State.laserGone
  extract_lets l s1 s11
  have h1 : s₀.Keeps false s1 := h.setLaser
  have h11 : s₀.Keeps false s11 := h1.pairedBit
  exact .ite h11.laserLoss.ringsLost h11

theorem State.Keeps.scanOne {e x'} (h : s₀.Keeps false s) : s₀.Keeps false (s.scanOne e x') := by
  unfold State.scanOne
  extract_lets l s1 _ s11
  have h1 : s₀.Keeps false s1 := .ite h.laserGone h
  have h11 : s₀.Keeps false s11 := .ite h1.setLaser.pairedBit h
  exact .ite (.ite h.laserGone h) (.ite h11.laserGone h11)

theorem State.Keeps.execLasIntNFall {scan} (h : s₀.Keeps false s) : s₀.KeepsOut false (execLasIntNFall scan s) := by
  unfold Machine.execLasIntNFall
  split
  · exact .next h
  · refine .next (.foldl (fun t e h1 => ?_) (.upd h))
    split
    · exact h1.lasRead.scanOne
    · exact h1

theorem State.Keeps.pollOne {e x'} (h : s₀.Keeps false s) : s₀.Keeps false (s.pollOne e x') := by
  unfold State.pollOne
  extract_lets l p s1 _
  have h1 : s₀.Keeps false s1 := h.lasRead.setLaser
  split
  · exact h
  · split
    · extract_lets h2
      exact .upd h1

theorem State.Keeps.execLaserPoll {readings} (h : s₀.Keeps false s) : s₀.KeepsOut false (execLaserPoll readings s) := by
  unfold Machine.execLaserPoll
  split
  · exact .next h
  · refine .next (.foldl (fun t e h1 => ?_) h)
    split
    · exact h1.pollOne
    · exact h1

theorem State.Keeps.execPairingCheckStart {e} (h : s₀.Keeps false s) : s₀.KeepsOut false (execPairingCheckStart e s) := by
  unfold Machine.execPairingCheckStart
  extract_lets l
  split
  · exact .next h
  · exact .next h.setLaser.lasSet.wakeBay

theorem State.Keeps.laserReport {e r} (h : s₀.Keeps false s) : s₀.Keeps false (s.laserReport e r) := by
  unfold State.laserReport
  extract_lets _ s1 _
  have h1 : s₀.Keeps false s1 := h.setLaser
  exact h1.setLaser

theorem State.Keeps.execPairingCheckResult {e light} (h : s₀.Keeps false s) :
    s₀.KeepsOut false (execPairingCheckResult e light s) := by
  unfold Machine.execPairingCheckResult
  extract_lets l new s1 _ s11
  have h1 : s₀.Keeps false s1 := h.setLaser.lasSet
  have h11 : s₀.Keeps false s11 := h.setLaser.lasSet
  split
  · exact .next h
  · split
    · split
      · exact .next (.pairedBit (.upd h1))
      · split
        · exact .next h11
        · exact .next h11.laserReport
    · split
      · exact .next h
      · exact .next h.lasSet.laserGone.laserReport

theorem State.Keeps.execLaserRampDone {e} (h : s₀.Keeps false s) : s₀.KeepsOut false (execLaserRampDone e s) := by
  unfold Machine.execLaserRampDone
  extract_lets l
  split
  · exact .next h
  · exact .next h.setLaser.lasSet.ringsStart

theorem State.Keeps.toPhase {p} (h : s₀.Keeps false s) : s₀.Keeps false (s.toPhase p) := by
  unfold State.toPhase
  exact h.setFld

theorem State.Keeps.phaseReady (h : s₀.Keeps false s) : s₀.Keeps false s.phaseReady := by
  unfold State.phaseReady
  exact .ite h.toPhase h

theorem State.Keeps.extendDigest {n digest} (h : s₀.Keeps calm s) : s₀.Keeps calm (s.extendDigest n digest) := by
  unfold State.extendDigest
  extract_lets v
  exact .foldl (fun _ _ h => h.wr) h

theorem State.Keeps.extend {n item} (h : s₀.Keeps calm s) : s₀.Keeps calm (s.extend n item) := by
  unfold State.extend
  exact h.extendDigest

theorem State.Keeps.secStatus (h : s₀.Keeps false s) : s₀.Keeps false s.secStatus := by
  unfold State.secStatus
  extract_lets off s1 s11
  have h1 : s₀.Keeps false s1 := h.setFld.setFld
  have h11 : s₀.Keeps false s11 := h1.setFld
  exact h11.setFld

theorem State.Keeps.setControl {active pending} (h : s₀.Keeps false s) : s₀.Keeps false (s.setControl active pending) := by
  unfold State.setControl
  extract_lets x _
  exact .ite (.upd h) (.upd h)

theorem State.Keeps.secFw (h : s₀.Keeps false s) : s₀.Keeps false s.secFw := by
  unfold State.secFw
  exact h.setFld.setFld

theorem State.Keeps.execRomSelfTestDone (h : s₀.Keeps false s) : s₀.KeepsOut false (execRomSelfTestDone s) := by
  unfold Machine.execRomSelfTestDone
  split
  · exact .next h
  · exact .next (.secStatus (.extend (.upd h)))

theorem State.Keeps.execBootImageCheck (h : s₀.Keeps false s) : s₀.KeepsOut false (execBootImageCheck s) := by
  unfold Machine.execBootImageCheck
  split
  · exact .next h
  · extract_lets _ s1
    have h1 : s₀.Keeps false s1 := .extend (.upd h)
    split
    · exact .next h1.secFw.setFld.toPhase
    · extract_lets b s11 s12 s13
      have h11 : s₀.Keeps false s11 := h1.extend
      have h12 : s₀.Keeps false s12 := by
        unfold s12
        split
        · exact h11
        · exact h11.setControl
      have h13 : s₀.Keeps false s13 := h12.secFw.setFld.setFld.setFld
      exact .next h13.setFld.toPhase

theorem State.Keeps.setNext {n} (h : s₀.Keeps false s) : s₀.Keeps false (s.setNext n) := by
  unfold State.setNext
  extract_lets was left _ s1 s11 s12 s13
  have h1 : s₀.Keeps false s1 := .upd h
  have h11 : s₀.Keeps false s11 := h1.wr.wr
  have h12 : s₀.Keeps false s12 := h11.setFld
  have h13 : s₀.Keeps false s13 := .ite h12.raise h12
  exact h13.setFld

theorem State.Keeps.indexRestart (h : s₀.Keeps false s) : s₀.Keeps false s.indexRestart := by
  unfold State.indexRestart
  split
  · exact h.setNext
  · split
    · extract_lets e n _ _ s1
      have h1 : s₀.Keeps false s1 := .upd h
      exact h1.secStatus.setFld.journal.setNext
    · extract_lets _ s1
      have h1 : s₀.Keeps false s1 := .upd h
      exact h1.setNext

theorem State.Keeps.readLedger (h : s₀.Keeps false s) : s₀.Keeps false s.readLedger := by
  unfold State.readLedger
  extract_lets s1 cause s11 s12 v _
  have h1 : s₀.Keeps false s1 := by
    unfold s1
    split
    · exact h.setFld.setFld
    · exact h.setFld.journal.raise
  have h11 : s₀.Keeps false s11 := h1.ldgAdd
  have h12 : s₀.Keeps false s12 := .ite h11.journal h1.ldgAdd
  exact .ite h12 (.journal (.upd h12))

theorem State.Keeps.execWellheadPhaseDone (h : s₀.Keeps false s) : s₀.KeepsOut false (execWellheadPhaseDone s) := by
  unfold Machine.execWellheadPhaseDone
  split
  · exact .next h
  · extract_lets _ s1 s11 s12
    have h1 : s₀.Keeps false s1 := .indexRestart (.readLedger (.upd h))
    have h11 : s₀.Keeps false s11 := h1.setFld
    have h12 : s₀.Keeps false s12 := h11.extend
    exact .next h12.extend.toPhase

theorem State.Keeps.execCorePhaseDone (h : s₀.Keeps false s) : s₀.KeepsOut false (execCorePhaseDone s) := by
  unfold Machine.execCorePhaseDone
  split
  · exact .next h
  · exact .next (.toPhase (.foldl (fun _ _ h => h.setFld) h))

theorem State.Keeps.repairRows {ddr spares} (h : s₀.Keeps false s) : s₀.Keeps false (s.repairRows ddr spares) := by
  unfold State.repairRows
  extract_lets l
  refine .foldl (fun t x h => ?_) h
  extract_lets off u a s1
  have h1 : s₀.Keeps false s1 := h.ldgPut.ldgAdd
  exact .ite (.upd h1) h.memEvent

theorem State.Keeps.execHbmTrainingDone {trained spares} (h : s₀.Keeps false s) :
    s₀.KeepsOut false (execHbmTrainingDone trained spares s) := by
  unfold Machine.execHbmTrainingDone
  split
  · exact .next h
  · extract_lets s1 s11
    have h1 : s₀.Keeps false s1 := .foldl (fun _ _ h => h.setFld.setFld) h
    have h11 : s₀.Keeps false s11 := h1.setFld.repairRows
    exact .next h11.setFld.phaseReady

theorem State.Keeps.ddrUsable {l} (h : s₀.Keeps false s) : s₀.Keeps false (s.ddrUsable l) := by
  unfold State.ddrUsable
  extract_lets n per size ranks off s1 s11 _
  have h1 : s₀.Keeps false s1 := h.setFld.setFld.setFld
  have h11 : s₀.Keeps false s11 := .foldl (fun _ _ h => h.wr) h1
  exact .updMem h11

theorem State.Keeps.execDdrTrainingDone {dimms trained spares} (h : s₀.Keeps false s) :
    s₀.KeepsOut false (execDdrTrainingDone dimms trained spares s) := by
  unfold Machine.execDdrTrainingDone
  split
  · exact .next h
  · extract_lets r bad s1
    have h1 : s₀.Keeps false s1 := by
      unfold s1
      split
      · exact h
      · split
        · exact h.setFld
        · clear_value bad
          split
          · extract_lets s11
            have h1 : s₀.Keeps false s11 := .foldl (fun _ _ h => h.setFld) h
            exact h1.setFld.setFld
          · exact h.ddrUsable.repairRows
    exact .next h1.setFld.phaseReady

theorem State.Keeps.execOpticsPhaseDone (h : s₀.Keeps false s) : s₀.KeepsOut false (execOpticsPhaseDone s) := by
  unfold Machine.execOpticsPhaseDone
  split
  · exact .next h
  · extract_lets n
    exact .next h.setFld.setFld.phaseReady

theorem State.Keeps.execLinkTrain {trains lopt} (h : s₀.Keeps false s) : s₀.KeepsOut false (execLinkTrain trains lopt s) := by
  unfold Machine.execLinkTrain
  split
  · exact .next h
  · extract_lets s1
    have h1 : s₀.Keeps false s1 := h.setFld
    split
    · rename_i e
      exact .next h1
    · rename_i t e
      have h11 : s₀.Keeps false t := h1.train e
      exact .next h11.setFld.phaseReady.wakeKept

theorem State.Keeps.setWorker {n v} (h : s₀.Keeps false s) : s₀.Keeps false (s.setWorker n v) := by
  unfold State.setWorker
  exact h.setFld

theorem State.Keeps.hear {n port} (h : s₀.Keeps false s) : s₀.Keeps false (s.hear n port) := by
  unfold State.hear
  exact .upd h

theorem State.Keeps.setTerm {t'} (h : s₀.Keeps calm s) : s₀.Keeps calm (s.setTerm t') := by
  unfold State.setTerm
  split
  · exact h
  · extract_lets s1 _
    have h1 : s₀.Keeps calm s1 := h.setFld
    exact .upd h1

theorem State.Keeps.planeIn {port kind m k} (h : s₀.Keeps false s) (hk : ∀ t x x1, s₀.Keeps false t → s₀.Keeps false (k t x x1)) :
    s₀.KeepsOut false (s.planeIn port kind m k) := by
  unfold State.planeIn
  split
  · exact .next h
  · split
    · exact .next h.count
    · split
      · exact .next h
      · split
        · exact .next h.count
        · split
          · exact .next h.count
          · exact .next (hk _ _ _ h.count)

theorem State.Keeps.sendKept (h : s₀.Keeps false s) : s₀.Keeps false s.sendKept := by
  unfold State.sendKept
  extract_lets l _
  exact .foldl (fun _ _ h => h.plnSend) (.upd h)

theorem State.Keeps.acceptManager {port id term} (h : s₀.Keeps false s) : s₀.Keeps false (s.acceptManager port id term) := by
  unfold State.acceptManager
  extract_lets s1 s11 s12 _ s13
  have h1 : s₀.Keeps false s1 := h.setTerm
  have h11 : s₀.Keeps false s11 := h1.setFld
  have h12 : s₀.Keeps false s12 := h11.setFld.hear
  have h13 : s₀.Keeps false s13 := .ite (.plnEvent (.upd h12)) h12
  exact h13.sendKept

theorem State.Keeps.fromManager {port kind m k} (h : s₀.Keeps false s) (hk : ∀ t x, s₀.Keeps false t → s₀.Keeps false (k t x)) :
    s₀.KeepsOut false (s.fromManager port kind m k) := by
  unfold State.fromManager
  exact State.Keeps.planeIn h (fun _ _ _ h => .ite (hk _ _ h.acceptManager) h)

theorem State.Keeps.fromWorker {port kind m k} (h : s₀.Keeps false s) (hk : ∀ t x x1, s₀.Keeps false t → s₀.Keeps false (k t x x1)) :
    s₀.KeepsOut false (s.fromWorker port kind m k) := by
  unfold State.fromWorker
  refine State.Keeps.planeIn h (fun t id b h1 => ?_)
  split
  · exact h1
  · split
    · exact hk _ _ _ h1.setTerm
    · exact .ite (hk _ _ _ h1.setTerm) h1

theorem State.Keeps.sendBoth {n kind b} (h : s₀.Keeps calm s) : s₀.Keeps calm (s.sendBoth n kind b) := by
  unfold State.sendBoth
  exact h.plnSend.plnSend

theorem State.Keeps.execHeartbeatSend (h : s₀.Keeps false s) : s₀.KeepsOut false (execHeartbeatSend s) := by
  unfold Machine.execHeartbeatSend
  split
  · exact .next h
  · extract_lets l
    exact .next (.foldl (fun _ _ h => h.sendBoth) h)

theorem State.Keeps.demote (h : s₀.Keeps false s) : s₀.Keeps false s.demote := by
  unfold State.demote
  extract_lets s1 _ s11 s12 s13
  have h1 : s₀.Keeps false s1 := h.setFld
  have h11 : s₀.Keeps false s11 := .upd h1
  have h12 : s₀.Keeps false s12 := .ite h11.planeFree h11
  have h13 : s₀.Keeps false s13 := h12.setFld.setFld
  exact h13.plnEvent

theorem State.Keeps.setRole {v} (h : s₀.Keeps calm s) : s₀.Keeps calm (s.setRole v) := by
  unfold State.setRole
  extract_lets put s1 _
  have h1 : s₀.Keeps calm s1 := h.wr
  exact .upd h1

theorem State.Keeps.execHeartbeat {port msg} (h : s₀.Keeps false s) : s₀.KeepsOut false (execHeartbeat port msg s) := by
  unfold Machine.execHeartbeat
  refine State.Keeps.planeIn h (fun t id x h1 => ?_)
  split
  · split
    · extract_lets s1
      have h11 : s₀.Keeps false s1 := h1.acceptManager
      exact h11.plnSend
    · exact h1
  · split
    · extract_lets s1 _
      have h11 : s₀.Keeps false s1 := h1.setTerm.hear
      exact .upd h11
    · exact .ite h1.setRole.demote.acceptManager h1

theorem State.Keeps.execHealth {port msg} (h : s₀.Keeps false s) : s₀.KeepsOut false (execHealth port msg s) := by
  unfold Machine.execHealth
  refine State.Keeps.fromWorker h (fun t n b h1 => ?_)
  extract_lets s1 off s11 st
  have h11 : s₀.Keeps false s1 := h1.hear
  have h12 : s₀.Keeps false s11 := .ite h11.plnEvent h11
  exact .ite h11 h12.wr

theorem State.Keeps.execManagerSilenceTimeout (h : s₀.Keeps false s) : s₀.KeepsOut false (execManagerSilenceTimeout s) := by
  unfold Machine.execManagerSilenceTimeout
  split
  · exact .next h
  · extract_lets s1 s11 _
    have h1 : s₀.Keeps false s1 := h.setFld
    have h11 : s₀.Keeps false s11 := .ite h1.planeFree h1
    exact .next (.plnEvent (.upd h11))

theorem State.Keeps.execWorkerSilenceTimeout {n} (h : s₀.Keeps false s) : s₀.KeepsOut false (execWorkerSilenceTimeout n s) := by
  unfold Machine.execWorkerSilenceTimeout
  split
  · exact .next h
  · exact .next h.setWorker.setFld.plnEvent

theorem State.Keeps.execPathSilenceTimeout {port n} (h : s₀.Keeps false s) :
    s₀.KeepsOut false (execPathSilenceTimeout port n s) := by
  unfold Machine.execPathSilenceTimeout
  extract_lets k known id _ s1 s11
  have h1 : s₀.Keeps false s1 := .upd h
  have h11 : s₀.Keeps false s11 := h1.plnEvent
  split
  · exact .next h
  · exact .next (.ite h11 h11.setFld)

theorem State.Keeps.listen (h : s₀.Keeps false s) : s₀.Keeps false s.listen := by
  unfold State.listen
  exact .upd h

theorem State.Keeps.beginActing (h : s₀.Keeps calm s) : s₀.Keeps calm s.beginActing := by
  unfold State.beginActing
  exact .setTerm (.upd h)

theorem State.Keeps.roleCommitted (h : s₀.Keeps false s) : s₀.Keeps false s.roleCommitted := by
  unfold State.roleCommitted
  extract_lets v old s1 _
  have h1 : s₀.Keeps false s1 := h.setFld
  exact .ite (.ite h1 h1.setFld.listen) (.upd h1)

theorem State.Keeps.execListenPeriodEnd (h : s₀.Keeps false s) : s₀.KeepsOut false (execListenPeriodEnd s) := by
  unfold Machine.execListenPeriodEnd
  exact .next (.ite h (.ite h.demote h.beginActing))

theorem State.Keeps.promotion {force} (h : s₀.Keeps calm s) : s₀.Keeps calm (s.promotion force) := by
  unfold State.promotion
  extract_lets r s1 s11
  have h1 : s₀.Keeps calm s1 := h.wr
  have h11 : s₀.Keeps calm s11 := h1.setRole.setFld.setFld
  exact .ite h1 h11.plnEvent.beginActing

theorem State.Keeps.execPromote {force} (h : s₀.Keeps false s) : s₀.KeepsOut false (execPromote force s) := by
  unfold Machine.execPromote
  exact .next h.promotion

theorem State.Keeps.takeShape {b} (h : s₀.Keeps false s) : s₀.Keeps false (s.takeShape b) := by
  unfold State.takeShape
  extract_lets s1
  have h1 : s₀.Keeps false s1 := h.wr
  exact .foldl (fun _ _ h => h.wr) h1

theorem State.Keeps.participate {kind id fromEpoch} (h : s₀.Keeps calm s) :
    s₀.Keeps calm (s.participate kind id fromEpoch).2 := by
  unfold State.participate
  split
  · split
    · exact h
    · exact h
  · extract_lets r s1 _
    have h1 : s₀.Keeps calm s1 := h.setFld
    split
    · exact h
    · exact .upd h1

theorem State.Keeps.execPrepare {port msg} (h : s₀.Keeps false s) : s₀.KeepsOut false (execPrepare port msg s) := by
  unfold Machine.execPrepare
  refine State.Keeps.fromManager h (fun t b h1 => ?_)
  extract_lets id kind s1
  have h11 : s₀.Keeps false s1 := .ite h1.takeShape h1
  split
  · rename_i t1 e
    have h12 : s₀.Keeps false t1 := .of_snd h11.participate e
    exact h12.plnSend

theorem State.Keeps.abortFlip {f worker reason} (h : s₀.Keeps calm s) : s₀.Keeps calm (s.abortFlip f worker reason) := by
  unfold State.abortFlip
  extract_lets s1 s11
  have h1 : s₀.Keeps calm s1 := .foldl (fun _ _ h => h.sendBoth) h
  have h11 : s₀.Keeps calm s11 := .ite h1.planeFree h1
  exact h11.flipEnds

theorem State.Keeps.sendPrepare {f} (h : s₀.Keeps calm s) : s₀.Keeps calm (s.sendPrepare f) := by
  unfold State.sendPrepare
  exact .foldl (fun _ _ h => h.sendBoth) h

theorem State.Keeps.sendCommit {f} (h : s₀.Keeps calm s) : s₀.Keeps calm (s.sendCommit f) := by
  unfold State.sendCommit
  exact .foldl (fun _ _ h => h.sendBoth) h

theorem State.Keeps.askFlip {kind id t' back} (h : s₀.Keeps calm s) : s₀.Keeps calm (s.askFlip kind id t' back) := by
  unfold State.askFlip
  exact .pushCheck (.upd h)

theorem State.Keeps.commitFlip {f} (h : s₀.Keeps calm s) : s₀.Keeps calm (s.commitFlip f) := by
  unfold State.commitFlip
  extract_lets lead cycles
  split
  · exact h.abortFlip
  · split
    · exact h.abortFlip
    · extract_lets s1 f1 _ s11
      have h1 : s₀.Keeps calm s1 := h.setFld.wr
      have h11 : s₀.Keeps calm s11 := .askFlip (.upd h1)
      exact h11.sendCommit

theorem State.Keeps.takeReady {f n reason start len} (h : s₀.Keeps calm s) :
    s₀.Keeps calm (s.takeReady f n reason start len) := by
  unfold State.takeReady
  split
  · exact h
  · split
    · exact h.abortFlip
    · extract_lets f1 _ s1
      have h1 : s₀.Keeps calm s1 := .upd h
      exact .ite h1.commitFlip h1

theorem State.Keeps.execReady {port msg} (h : s₀.Keeps false s) : s₀.KeepsOut false (execReady port msg s) := by
  unfold Machine.execReady
  refine State.Keeps.fromWorker h (fun t n b h1 => ?_)
  split
  · exact .ite h1.takeReady h1
  · exact h1

theorem State.Keeps.execPlaneCommit {port msg} (h : s₀.Keeps false s) : s₀.KeepsOut false (execPlaneCommit port msg s) := by
  unfold Machine.execPlaneCommit
  refine State.Keeps.fromManager h fun t b h => ?_
  extract_lets id answer again
  have hagain : ∀ t, s₀.Keeps false t → s₀.Keeps false (again t) := by
    intro t h
    unfold again
    split
    · exact .ite h.plnSend h
    · exact h
  split
  · exact .ite (hagain _ h) h.askFlip
  · exact hagain _ h

theorem State.Keeps.execPlaneAbort {port msg} (h : s₀.Keeps false s) : s₀.KeepsOut false (execPlaneAbort port msg s) := by
  unfold Machine.execPlaneAbort
  refine State.Keeps.fromManager h (fun t b h1 => ?_)
  split
  · exact .ite h1.planeFree h1
  · exact h1

theorem State.Keeps.execDone {port msg} (h : s₀.Keeps false s) : s₀.KeepsOut false (execDone port msg s) := by
  unfold Machine.execDone
  refine State.Keeps.fromWorker h (fun t n b h1 => ?_)
  split
  · exact .ite (.flipSettle (.upd h1)) h1
  · exact h1

theorem State.Keeps.startFlip {kind fromEpoch} (h : s₀.Keeps calm s) : s₀.Keeps calm (s.startFlip kind fromEpoch) := by
  unfold State.startFlip
  extract_lets refuse live busy s1 id f s11 _ s12 s13 s14
  have h1 : s₀.Keeps calm s1 := h.wr
  have h11 : s₀.Keeps calm s11 := h1.setFld
  have h12 : s₀.Keeps calm s12 := .upd h11
  have h13 : s₀.Keeps calm s13 := h12.wr
  have h14 : s₀.Keeps calm s14 := h13.sendPrepare
  split
  · exact h1
  · split
    · exact h1.setFld
    · split
      · exact h1.setFld
      · split
        · exact h1.setFld
        · split
          · rename_i t e
            have h15 : s₀.Keeps calm t := .of_snd h14.participate e
            exact h15.takeReady

theorem State.Keeps.execPlaneFlip {kind fromEpoch} (h : s₀.Keeps false s) : s₀.KeepsOut false (execPlaneFlip kind fromEpoch s) := by
  unfold Machine.execPlaneFlip
  exact .next h.startFlip

theorem State.Keeps.execPrepareResend (h : s₀.Keeps false s) : s₀.KeepsOut false (execPrepareResend s) := by
  unfold Machine.execPrepareResend
  split
  · exact .next (.ite h h.sendPrepare)
  · exact .next h

theorem State.Keeps.execPrepareDeadline (h : s₀.Keeps false s) : s₀.KeepsOut false (execPrepareDeadline s) := by
  unfold Machine.execPrepareDeadline
  split
  · split
    · exact .next h
    · extract_lets n
      exact .next h.abortFlip
  · exact .next h

theorem State.Keeps.execCommitResend (h : s₀.Keeps false s) : s₀.KeepsOut false (execCommitResend s) := by
  unfold Machine.execCommitResend
  split
  · exact .next (.ite h h.sendCommit)
  · exact .next h

theorem State.Keeps.execFlipDoneDeadline (h : s₀.Keeps false s) : s₀.KeepsOut false (execFlipDoneDeadline s) := by
  unfold Machine.execFlipDoneDeadline
  split
  · split
    · exact .next h
    · split
      · exact .next h.flipEnds
      · exact .next h.flipSettle
  · exact .next h

theorem State.Keeps.execCircuit {port msg} (h : s₀.Keeps false s) : s₀.KeepsOut false (execCircuit port msg s) := by
  unfold Machine.execCircuit
  refine State.Keeps.fromManager h (fun t b h1 => ?_)
  extract_lets w tag
  split
  · exact h1.plnSend
  · exact .ite h1 h1.splSubmit

theorem State.Keeps.execCircuitAnswer {port msg} (h : s₀.Keeps false s) : s₀.KeepsOut false (execCircuitAnswer port msg s) := by
  unfold Machine.execCircuitAnswer
  refine State.Keeps.fromWorker h (fun t n b h1 => ?_)
  extract_lets v mine _
  exact .ite (.upd h1) h1

theorem State.Keeps.setExclude {p b} (h : s₀.Keeps false s) : s₀.Keeps false (s.setExclude p b) := by
  unfold State.setExclude
  exact h.setBit

theorem State.Keeps.fencePort {p} (h : s₀.Keeps false s) : s₀.Keeps false (s.fencePort p) := by
  unfold State.fencePort
  extract_lets s1 s11
  have h1 : s₀.Keeps false s1 := h.dropChecks.setExclude.incFld
  have h11 : s₀.Keeps false s11 := h1.portOff.setFld
  exact h11.fenceMembers.fenceCircuits

theorem State.Keeps.fenceOnce {port b act}
    (h : s₀.Keeps false s) (hact : ∀ t x x1 x2, s₀.Keeps false t → s₀.Keeps false (act t x x1 x2).2) :
    s₀.Keeps false (s.fenceOnce port b act) := by
  unfold State.fenceOnce
  extract_lets id from_ ack
  split
  · exact h.plnSend
  · split
    · rename_i t e
      have h1 : s₀.Keeps false t := .of_snd (hact _ _ _ _ h) e
      exact .plnSend (.upd h1)

theorem State.Keeps.execPlaneFence {port msg} (h : s₀.Keeps false s) : s₀.KeepsOut false (execPlaneFence port msg s) := by
  unfold Machine.execPlaneFence
  refine State.Keeps.fromManager h (fun t b h1 => ?_)
  refine .fenceOnce h1 (fun t1 kind p id h2 => ?_)
  extract_lets l changed
  exact .plnEvent (.foldl (fun _ _ h => h.fencePort) h2)

theorem State.Keeps.execPlaneUnfence {port msg} (h : s₀.Keeps false s) : s₀.KeepsOut false (execPlaneUnfence port msg s) := by
  unfold Machine.execPlaneUnfence
  refine State.Keeps.fromManager h (fun t b h1 => ?_)
  refine .fenceOnce h1 (fun t1 kind p id h2 => ?_)
  extract_lets l s1
  have h11 : s₀.Keeps false s1 := .incFld (.foldl (fun _ _ h => h.setExclude) h2)
  exact h11.plnEvent

theorem State.Keeps.execAck {port msg} (h : s₀.Keeps false s) : s₀.KeepsOut false (execAck port msg s) := by
  unfold Machine.execAck
  refine State.Keeps.fromWorker h (fun t n b h1 => ?_)
  extract_lets mine _ s1
  have h11 : s₀.Keeps false s1 := .upd h1
  split
  · exact h1
  · exact .ite h11.setWorker h11

theorem State.Keeps.issueFence {kind port id unfence} (h : s₀.Keeps calm s) :
    s₀.Keeps calm (s.issueFence kind port id unfence) := by
  unfold State.issueFence
  extract_lets fid body l _ s1
  have h1 : s₀.Keeps calm s1 := .upd h
  exact .foldl (fun _ _ h => h.sendBoth) h1

theorem State.Keeps.fenceResp {result reason ticket tag} (h : s₀.Keeps calm s) :
    s₀.Keeps calm (s.fenceResp result reason ticket tag) := by
  unfold State.fenceResp
  exact h.wr

theorem State.Keeps.fenceAsk {req target} (h : s₀.Keeps calm s) : s₀.Keeps calm (s.fenceAsk req target) := by
  unfold State.fenceAsk
  extract_lets kind port tag unfence s1
  have h1 : s₀.Keeps calm s1 := h.wr.wr
  split
  · exact h1.fenceResp
  · split
    · exact h1.fenceResp
    · split
      · exact h1.issueFence.fenceResp
      · split
        · exact h1.fenceResp
        · extract_lets s11
          have h11 : s₀.Keeps calm s11 := h1.wr.wr
          exact h11.plnEvent.fenceResp

theorem State.Keeps.execFenceRequest {req target} (h : s₀.Keeps false s) : s₀.KeepsOut false (execFenceRequest req target s) := by
  unfold Machine.execFenceRequest
  exact .next h.fenceAsk

theorem State.Keeps.fenceDecide {cancel n} (h : s₀.Keeps calm s) : s₀.Keeps calm (s.fenceDecide cancel n) := by
  unfold State.fenceDecide
  extract_lets s1 x id s11
  have h1 : s₀.Keeps calm s1 := h.wr
  have h11 : s₀.Keeps calm s11 := h1.wr.wr
  exact .ite h1 (.ite h11 h11.issueFence)

theorem State.Keeps.execFenceConfirm {cancel ticket} (h : s₀.Keeps false s) :
    s₀.KeepsOut false (execFenceConfirm cancel ticket s) := by
  unfold Machine.execFenceConfirm
  exact .next h.fenceDecide

theorem State.Keeps.execFenceResend {handed} (h : s₀.Keeps false s) : s₀.KeepsOut false (execFenceResend handed s) := by
  unfold Machine.execFenceResend
  split
  · exact .next h
  · extract_lets l _ s1
    have h1 : s₀.Keeps false s1 := .foldl (fun _ _ h => h.sendBoth) (.upd h)
    exact .next (.foldl (fun _ _ h => h.sendBoth) h1)

theorem State.Keeps.execEvent {port msg} (h : s₀.Keeps false s) : s₀.KeepsOut false (execEvent port msg s) := by
  unfold Machine.execEvent
  refine State.Keeps.fromWorker h (fun t n b h1 => ?_)
  extract_lets x
  exact h1.plnEvent

theorem State.Keeps.execSyncSend (h : s₀.Keeps false s) : s₀.KeepsOut false (execSyncSend s) := by
  unfold Machine.execSyncSend
  split
  · exact .next h
  · extract_lets l h1
    exact .next h.sendBoth

theorem State.Keeps.execSync {port msg} (h : s₀.Keeps false s) : s₀.KeepsOut false (execSync port msg s) := by
  unfold Machine.execSync
  refine State.Keeps.fromManager h (fun t b h1 => ?_)
  split
  · exact h1
  · extract_lets n at_ _ s1
    have h11 : s₀.Keeps false s1 := .upd h1
    refine .foldl (fun t1 k h2 => ?_) h11
    extract_lets i w
    exact h2.wr.wr

theorem State.Keeps.shedTo {level} (h : s₀.Keeps false s) : s₀.Keeps false (s.shedTo level) := by
  unfold State.shedTo
  exact h.setFld.plnEvent

theorem State.Keeps.execLoadWindow {load} (h : s₀.Keeps false s) : s₀.KeepsOut false (execLoadWindow load s) := by
  unfold Machine.execLoadWindow
  extract_lets n level cool s1 _ s11
  have h1 : s₀.Keeps false s1 := h.setFld
  have h11 : s₀.Keeps false s11 := .upd h1
  split
  · exact .next (.shedTo (.upd h1))
  · split
    · exact .next (.ite h11.shedTo h11)
    · exact .next (.upd h1)

theorem State.Keeps.ecnMark {p c depth sojourn b} (h : s₀.Keeps false s) : s₀.Keeps false (s.ecnMark p c depth sojourn b).2 := by
  unfold State.ecnMark
  extract_lets x e
  split
  · exact h
  · split
    · split
      · rename_i t e1
        have h1 : s₀.Keeps false t := .of_snd h.draw e1
        split
        · exact h1.count
        · exact h1

theorem State.Keeps.tcCorrect {p f b capture} (h : s₀.Keeps false s) : s₀.Keeps false (s.tcCorrect p f b capture).2 := by
  unfold State.tcCorrect
  extract_lets x r
  split
  · exact h
  · split
    · extract_lets c msg len old new
      split
      · exact h
      · split
        · exact h
        · split
          · exact h
          · exact h.count
    · exact h

theorem State.Keeps.setDeficit {p c d} (h : s₀.Keeps false s) : s₀.Keeps false (s.setDeficit p c d) := by
  unfold State.setDeficit
  exact .upd h

theorem State.Keeps.setTurn {p t'} (h : s₀.Keeps false s) : s₀.Keeps false (s.setTurn p t') := by
  unfold State.setTurn
  exact .upd h

theorem State.Keeps.roundRobin {p n} (h : s₀.Keeps false s) : s₀.Keeps false (s.roundRobin p n).2 := by
  induction n generalizing s with
  | zero =>
    unfold State.roundRobin
    exact h
  | succ n ih =>
    unfold State.roundRobin
    extract_lets t c mid next d len
    split
    · split
      · exact h.setDeficit.setTurn
      · exact ih h.setDeficit.setTurn
    · exact ih h.setTurn

theorem State.Keeps.pickClass {p} (h : s₀.Keeps false s) : s₀.Keeps false (s.pickClass p).2 := by
  unfold State.pickClass
  split
  · exact h
  · split
    · exact h
    · split
      · exact h.roundRobin
      · exact h

theorem State.Keeps.dropExcluded {p c n} (h : s₀.Keeps false s) : s₀.Keeps false (s.dropExcluded p c n) := by
  induction n generalizing s with
  | zero =>
    unfold State.dropExcluded
    exact h
  | succ n ih =>
    unfold State.dropExcluded
    split
    · exact .ite (ih h.setQueue.count.release) h
    · exact h

theorem State.Keeps.sendHead {p c capture errs} (h : s₀.Keeps false s) : s₀.Keeps false (s.sendHead p c capture errs) := by
  unfold State.sendHead
  split
  · exact h
  · extract_lets s1 s11
    have h1 : s₀.Keeps false s1 := h.setQueue
    have h11 : s₀.Keeps false s11 := h1.tableErrs
    split
    · exact h1
    · split
      · exact h1.ageOut
      · split
        · exact h11.count.release
        · exact h11.excAction
        · extract_lets ptp plain
          split
          · rename_i t e
            have h12 : s₀.Keeps false t := by
              refine .of_snd ?_ e
              split
              · exact h11
              · exact h11.ecnMark
            split
            · rename_i t1 e1
              have h13 : s₀.Keeps false t1 := by
                refine .of_snd ?_ e1
                split
                · exact h12.tcCorrect
                · exact h12
              split
              · rename_i t2 e2
                have h14 : s₀.Keeps false t2 := .of_snd h13.transmit e2
                exact h14.updFrame.release

theorem State.Keeps.execFrameDequeue {p capture errs} (h : s₀.Keeps false s) :
    s₀.KeepsOut false (execFrameDequeue p capture errs s) := by
  unfold Machine.execFrameDequeue
  extract_lets s1 s11
  have h1 : s₀.Keeps false s1 := .ite h.finishSending h
  have h11 : s₀.Keeps false s11 := .ite (.foldl (fun _ _ h => h.dropExcluded) h1) h1
  split
  · rename_i t e
    have h12 : s₀.Keeps false t := .of_snd h11.pickClass e
    exact .next h12.sendHead
  · rename_i t e
    have h12 : s₀.Keeps false t := .of_snd h11.pickClass e
    exact .next h12

theorem State.Keeps.execStomp {p reason sent} (h : s₀.Keeps false s) : s₀.KeepsOut false (execStomp p reason sent s) := by
  unfold Machine.execStomp
  split
  · exact .next h
  · split
    · exact .next h
    · exact .next (.transmit (.upd h))

theorem State.Keeps.execInternalFrame {q errs} (h : s₀.Keeps false s) : s₀.KeepsOut false (execInternalFrame q errs s) := by
  unfold Machine.execInternalFrame
  split
  · exact .next h
  · extract_lets k _ s1 b x f
    have h1 : s₀.Keeps false s1 := .upd h
    split
    · exact .next h1.count
    · split
      · exact .next h.wakeBays
      · split
        · exact .next h
        · split
          · rename_i t e
            have h11 : s₀.Keeps false t := .of_snd h1.tableErrs.store e
            split
            · exact .next h11.dispatchFate
            · exact .next h11.dispatchFate
            · extract_lets bank act l
              split
              · rename_i t1 e1
                have h12 : s₀.Keeps false t1 := .of_snd h11.mirror e1
                extract_lets s11
                have h13 : s₀.Keeps false s11 := h12.updFrame
                split
                · rename_i t2 e2
                  have h14 : s₀.Keeps false t2 := by
                    refine .of_snd ?_ e2
                    split
                    · exact h13
                    · exact h13.route
                  exact .next h14.dispatchFate

theorem State.Keeps.sflowTake {drops l n n'} (h : s₀.Keeps false s) : s₀.Keeps false (s.sflowTake drops l n n').2.2 := by
  induction l generalizing s n n' with
  | nil => exact h
  | cons x l ih =>
    unfold State.sflowTake
    split
    · exact h
    · exact ih (.upd h.draw)

theorem State.Keeps.execSflowDatagramSend {mgaDown} (h : s₀.Keeps false s) :
    s₀.KeepsOut false (execSflowDatagramSend mgaDown s) := by
  unfold Machine.execSflowDatagramSend
  split
  · exact .next h
  · extract_lets agent dst c
    split
    · rename_i t e
      have h1 : s₀.Keeps false t := .of_snd h.draw e
      split
      · rename_i t1 e1
        have h11 : s₀.Keeps false t1 := .of_snd h1.draw e1
        extract_lets seq head
        split
        · rename_i t2 e2
          have h12 : s₀.Keeps false t2 := .of_snd_snd h11.sflowTake e2
          extract_lets payload port d _
          exact .next (.sendMgmt (.upd h12))

theorem State.Keeps.takeTimed {n} (h : s₀.Keeps calm s) : s₀.Keeps calm (s.takeTimed n) := by
  induction n generalizing s with
  | zero =>
    unfold State.takeTimed
    exact h
  | succ n ih =>
    unfold State.takeTimed
    split
    · exact h
    · exact ih h.epochFlip
    · exact ih h.flipDue
    · exact ih h.fallbackDue
    · exact ih h.freezeDue.freezesPassed

theorem State.Keeps.afterStep (h : s₀.Keeps calm s) : s₀.Keeps calm s.afterStep := by
  unfold State.afterStep
  exact h.takeTimed

theorem State.Keeps.ptpSend {p udpPort msg} (h : s₀.Keeps false s) : s₀.Keeps false (s.ptpSend p udpPort msg) := by
  unfold State.ptpSend
  extract_lets mac g
  split
  · split
    · exact h
    · split
      · rename_i t e
        have h1 : s₀.Keeps false t := .of_snd h.draw e
        extract_lets d
        exact .ite h1.sendMgmt h1.txFrame
  · split
    · split
      · rename_i t e
        have h1 : s₀.Keeps false t := .of_snd h.draw e
        exact h1.sendMgmt
    · exact h.txFrame

theorem State.Keeps.sendSync {p t'} (h : s₀.Keeps false s) : s₀.Keeps false (s.sendSync p t') := by
  unfold State.sendSync
  extract_lets x m
  exact h.setPtp.count.ptpSend

theorem State.Keeps.sendAnnounce {p} (h : s₀.Keeps false s) : s₀.Keeps false (s.sendAnnounce p) := by
  unfold State.sendAnnounce
  extract_lets x attr
  split
  · extract_lets m
    exact h.setPtp.ptpSend

theorem State.Keeps.sendDelayReq {p t'} (h : s₀.Keeps false s) : s₀.Keeps false (s.sendDelayReq p t') := by
  unfold State.sendDelayReq
  extract_lets x m
  exact h.setPtp.ptpSend

theorem State.Keeps.sendDelayResp {p req t'} (h : s₀.Keeps false s) : s₀.Keeps false (s.sendDelayResp p req t') := by
  unfold State.sendDelayResp
  extract_lets interval corr m
  exact h.count.ptpSend

theorem State.Keeps.ptpReceive {p m f} (h : s₀.Keeps false s) (hf : ∀ t, s₀.Keeps false t → s₀.Keeps false (f t)) :
    s₀.Keeps false (s.ptpReceive p m f) := by
  unfold State.ptpReceive
  exact .ite (.ite h h.count) (.ite h.count (.ite h (hf _ h)))

theorem State.Keeps.syncTimes {p t1 t2} (h : s₀.Keeps false s) : s₀.Keeps false (s.syncTimes p t1 t2) := by
  unfold State.syncTimes
  extract_lets x s1 asym
  have h1 : s₀.Keeps false s1 := h.setPtp
  split
  · exact h1
  · exact h1.servo

theorem State.Keeps.execPtpSync {p msg capture} (h : s₀.Keeps false s) : s₀.KeepsOut false (execPtpSync p msg capture s) := by
  unfold Machine.execPtpSync
  refine .next (.ptpReceive h (fun t h1 => ?_))
  extract_lets s1 t2 _
  have h11 : s₀.Keeps false s1 := h1.count
  exact .ite h11 (.ite h11.setPtp h11.syncTimes.afterStep)

theorem State.Keeps.execPtpFollowUp {p msg} (h : s₀.Keeps false s) : s₀.KeepsOut false (execPtpFollowUp p msg s) := by
  unfold Machine.execPtpFollowUp
  refine .next (.ptpReceive h (fun t h1 => ?_))
  split
  · exact .ite h1.syncTimes.afterStep h1
  · exact h1

theorem State.Keeps.execPtpDelayReq {p msg capture} (h : s₀.Keeps false s) :
    s₀.KeepsOut false (execPtpDelayReq p msg capture s) := by
  unfold Machine.execPtpDelayReq
  refine .next (.ptpReceive h (fun t h1 => ?_))
  extract_lets s1
  have h11 : s₀.Keeps false s1 := h1.count
  exact .ite h11.sendDelayResp h11

theorem State.Keeps.execPtpDelayResp {p msg} (h : s₀.Keeps false s) : s₀.KeepsOut false (execPtpDelayResp p msg s) := by
  unfold Machine.execPtpDelayResp
  refine .next (.ptpReceive h (fun t h1 => ?_))
  extract_lets x t4
  split
  · exact h1
  · split
    · extract_lets d ps
      exact h1.setPtp.setFld.setFld
    · exact h1

theorem State.Keeps.execPtpAnnounce {p msg} (h : s₀.Keeps false s) : s₀.KeepsOut false (execPtpAnnounce p msg s) := by
  unfold Machine.execPtpAnnounce
  refine .next (.ptpReceive h (fun t h1 => ?_))
  split
  · exact h1
  · extract_lets mine n _ s1
    have h11 : s₀.Keeps false s1 := .upd h1
    exact .ptpDecided h11.bestMaster h11

theorem State.Keeps.execPtpTransmitInterval {p kind capture} (h : s₀.Keeps false s) :
    s₀.KeepsOut false (execPtpTransmitInterval p kind capture s) := by
  unfold Machine.execPtpTransmitInterval
  split
  · exact .next (.ite h.sendSync h)
  · exact .next (.ite h.sendAnnounce h)
  · exact .next (.ite h.sendDelayReq h)

theorem State.Keeps.execAnnounceTimeout {p} (h : s₀.Keeps false s) : s₀.KeepsOut false (execAnnounceTimeout p s) := by
  unfold Machine.execAnnounceTimeout
  exact .next (.ite h (.ite h.parentLost (.setPtp (.upd h))))

theorem State.Keeps.execSyncLossTimeout {p} (h : s₀.Keeps false s) : s₀.KeepsOut false (execSyncLossTimeout p s) := by
  unfold Machine.execSyncLossTimeout
  exact .next (.ite h.parentLost h)

theorem State.Keeps.execPpsInEdge (h : s₀.Keeps false s) : s₀.KeepsOut false (execPpsInEdge s) := by
  unfold Machine.execPpsInEdge
  extract_lets s1 s11 ns off
  have h1 : s₀.Keeps false s1 := .ite h.wr h
  have h11 : s₀.Keeps false s11 := .ite h1.timTo h1
  split
  · exact .next h1
  · exact .next h11.servo.afterStep

theorem State.Keeps.execPpsMissingTimeout (h : s₀.Keeps false s) : s₀.KeepsOut false (execPpsMissingTimeout s) := by
  unfold Machine.execPpsMissingTimeout
  split
  · exact .next h.timBit.sourceLost
  · exact .next h

theorem State.Keeps.execPpsOutSecond (h : s₀.Keeps false s) : s₀.KeepsOut false (execPpsOutSecond s) := by
  unfold Machine.execPpsOutSecond
  exact .next (.ite (.upd h) h)

theorem State.Keeps.timSet (h : s₀.Keeps calm s) : s₀.Keeps calm s.timSet := by
  unfold State.timSet
  extract_lets nf
  exact .ite h h.timJump.afterStep

theorem State.Keeps.orElse {o} (h : s₀.Keeps calm s) (ho : s₀.KeepsOut calm o) : s₀.Keeps calm (Out.orElse o s) := by
  unfold Machine.Out.orElse
  cases o with
  | next t => exact ho t rfl
  | fault => exact h
  | refused => exact h

theorem State.Keeps.ptpIn {p x' m capture} (h : s₀.Keeps false s) : s₀.Keeps false (s.ptpIn p x' m capture) := by
  unfold State.ptpIn
  extract_lets msg
  split
  · exact h.count
  · split
    · exact h
    · split
      · exact h.orElse h.execPtpSync
      · exact h.orElse h.execPtpDelayReq
      · exact h.orElse h.execPtpFollowUp
      · exact h.orElse h.execPtpDelayResp
      · exact h.orElse h.execPtpAnnounce
      · exact h.count

theorem State.Keeps.takeCredit {p cls k} (h : s₀.Keeps false s) : s₀.Keeps false (s.takeCredit p cls k).2 := by
  unfold State.takeCredit
  split
  · exact h
  · extract_lets x v got room
    exact h.setPort

theorem State.Keeps.keepFrame {p cls b h' capture} (h : s₀.Keeps false s) : s₀.Keeps false (s.keepFrame p cls b h' capture).2 := by
  unfold State.keepFrame
  extract_lets f
  split
  · rename_i e
    exact h.count.returnCells.sample
  · rename_i t e
    have h1 : s₀.Keeps false t := h.admitFrame e
    split
    · rename_i t1 e1
      have h11 : s₀.Keeps false t1 := .of_snd h1.mirror e1
      split
      · rename_i t2 e2
        have h12 : s₀.Keeps false t2 := .of_snd h11.updFrame.draw e2
        exact h12.sample

theorem State.Keeps.dataIn {p b x' capture errs} (h : s₀.Keeps false s) : s₀.Keeps false (s.dataIn p b x' capture errs) := by
  unfold State.dataIn
  extract_lets fault cls k drop
  split
  · rename_i t e
    have h1 : s₀.Keeps false t := .of_snd h.takeCredit e
    split
    · exact h1.returnCells.count.sample
    · split
      · exact h1.returnCells.count.sample
      · split
        · exact h1.returnCells.count.sample
        · split
          · exact h1.returnCells.count.sample
          · split
            · clear_value fault
              split
              · exact h1.returnCells.count.sample
              · split
                · split
                  · rename_i t1 e1
                    have h11 : s₀.Keeps false t1 := .of_snd h1.keepFrame e1
                    exact h11
                  · rename_i t1 e1
                    have h11 : s₀.Keeps false t1 := .of_snd h1.keepFrame e1
                    exact h11.steer
                · exact h1.switchFrame
            · clear_value fault
              split
              · exact h1.returnCells.count.sample
              · split
                · split
                  · rename_i t1 e1
                    have h11 : s₀.Keeps false t1 := .of_snd h1.keepFrame e1
                    exact h11
                  · rename_i t1 e1
                    have h11 : s₀.Keeps false t1 := .of_snd h1.keepFrame e1
                    exact h11.farReceive.release
                · exact h1.switchFrame
            · clear_value fault
              split
              · exact h1.returnCells.count.sample
              · exact h1.switchFrame

theorem State.Keeps.ptpFrame {p b x' i capture errs} (h : s₀.Keeps false s) :
    s₀.Keeps false (s.ptpFrame p b x' i capture errs) := by
  unfold State.ptpFrame
  exact .ite h.count (.ite h.ptpIn (.ite h.count h.switchFrame))

theorem State.Keeps.goodFrame {p frame capture errs} (h : s₀.Keeps false s) :
    s₀.Keeps false (s.goodFrame p frame capture errs) := by
  unfold State.goodFrame
  extract_lets b x
  split
  · exact h.lldpIn
  · split
    · exact .ite h.ptpFrame h
    · split
      · refine .quarantined h (fun t h1 => ?_)
        split
        · exact h1.creditIn
        · exact h1.laneIn
        · exact .ite h1.pfcIn h1
      · exact .ite h h.dataIn

theorem State.Keeps.badFrame {p frame capture errs} (h : s₀.Keeps false s) : s₀.Keeps false (s.badFrame p frame capture errs) := by
  unfold State.badFrame
  extract_lets b x fault cls k
  split
  · exact h
  · split
    · rename_i t e
      have h1 : s₀.Keeps false t := .of_snd h.takeCredit e
      exact .ite h1.returnCells h1.switchFrame

theorem State.Keeps.execFrameReceive {p frame capture errs} (h : s₀.Keeps false s) :
    s₀.KeepsOut false (execFrameReceive p frame capture errs s) := by
  unfold Machine.execFrameReceive
  split
  · exact .next h
  · split
    · rename_i t e
      have h1 : s₀.Keeps false t := .of_snd h.rxStart e
      exact .next (.ite h1.goodFrame h1.badFrame)

theorem State.Keeps.mailbox {k} (h : s₀.Keeps false s) (hk : ∀ t, s₀.Keeps false t → s₀.Keeps false (k t).1) :
    s₀.Keeps false (s.mailbox k) := by
  unfold State.mailbox
  extract_lets s1
  have h1 : s₀.Keeps false s1 := h.count
  split
  · split
    · rename_i t _ _ e
      have h11 : s₀.Keeps false t := .of_fst (hk _ h1) e
      exact h11.answer
  · exact h1.answer

theorem State.Keeps.execIdentify (h : s₀.Keeps false s) : s₀.KeepsOut false (execIdentify s) := by
  unfold Machine.execIdentify
  exact .next (.mailbox h (fun _ h => h))

theorem State.Keeps.execGetEventRecords (h : s₀.Keeps false s) : s₀.KeepsOut false (execGetEventRecords s) := by
  unfold Machine.execGetEventRecords
  exact .next (.mailbox h (fun _ h => h))

theorem State.Keeps.execClearEventRecords {count} (h : s₀.Keeps false s) : s₀.KeepsOut false (execClearEventRecords count s) := by
  unfold Machine.execClearEventRecords
  refine .next (.mailbox h (fun t h1 => ?_))
  extract_lets l _ _
  exact .upd h1

theorem State.Keeps.execGetSupportedLogs (h : s₀.Keeps false s) : s₀.KeepsOut false (execGetSupportedLogs s) := by
  unfold Machine.execGetSupportedLogs
  exact .next (.mailbox h (fun _ h => h))

theorem State.Keeps.execGetLog {offset length} (h : s₀.Keeps false s) : s₀.KeepsOut false (execGetLog offset length s) := by
  unfold Machine.execGetLog
  refine .next (.mailbox h (fun t h1 => ?_))
  split
  · exact h1
  · exact h1

theorem State.Keeps.execGetFwInfo {i3c} (h : s₀.Keeps false s) : s₀.KeepsOut false (execGetFwInfo i3c s) := by
  unfold Machine.execGetFwInfo
  split
  · extract_lets ok
    exact .next h.count.answerMctp
  · exact .next (.mailbox h (fun _ h => h))

theorem State.Keeps.execGetTimestamp (h : s₀.Keeps false s) : s₀.KeepsOut false (execGetTimestamp s) := by
  unfold Machine.execGetTimestamp
  exact .next (.mailbox h (fun _ h => h))

theorem State.Keeps.execMailboxUnsupported {opcode} (h : s₀.Keeps false s) :
    s₀.KeepsOut false (execMailboxUnsupported opcode s) := by
  unfold Machine.execMailboxUnsupported
  extract_lets x
  exact .next (.mailbox h (fun _ h => h))

theorem State.Keeps.setBank {b x'} (h : s₀.Keeps false s) : s₀.Keeps false (s.setBank b x') := by
  unfold State.setBank
  exact .ite (.upd h) (.upd h)

theorem State.Keeps.setPending {p} (h : s₀.Keeps false s) : s₀.Keeps false (s.setPending p) := by
  unfold State.setPending
  exact .ite h h.setControl.secFw

theorem State.Keeps.transferPart {part offset data} (h : s₀.Keeps false s) :
    s₀.Keeps false (s.transferPart part offset data).1 := by
  unfold State.transferPart
  extract_lets b s1 s11 _ _
  have h1 : s₀.Keeps false s1 := h.setBank
  have h11 : s₀.Keeps false s11 := .ite h1.setPending h1
  split
  · exact h
  · split
    · exact h
    · exact .upd h11
  · exact .upd h
  · split
    · exact h
    · exact .upd h
  · split
    · exact h
    · exact .setBank (.upd h)
  · exact h

theorem State.Keeps.execTransferFw {part offset data} (h : s₀.Keeps false s) :
    s₀.KeepsOut false (execTransferFw part offset data s) := by
  unfold Machine.execTransferFw
  exact .next (.mailbox h (fun _ h => h.transferPart))

theorem State.Keeps.execActivateFw {bank} (h : s₀.Keeps false s) : s₀.KeepsOut false (execActivateFw bank s) := by
  unfold Machine.execActivateFw
  refine .next (.mailbox h (fun t h1 => ?_))
  split
  · exact h1
  · split
    · exact h1.setPending
    · exact h1

theorem State.Keeps.requestVia {n} (h : s₀.Keeps false s) : s₀.Keeps false (s.requestVia n) := by
  unfold State.requestVia
  split
  · exact h.count
  · exact h.count
  · exact h

theorem State.Keeps.answerVia {v f} (h : s₀.Keeps false s) : s₀.Keeps false (s.answerVia v f) := by
  unfold State.answerVia
  split
  · exact h.answer
  · exact h.answerMctp
  · split
    · rename_i t e
      have h1 : s₀.Keeps false t := .of_snd h.draw e
      extract_lets d
      exact h1.sendMgmt

theorem State.Keeps.vendor {v k} (h : s₀.Keeps false s) (hk : ∀ t, s₀.Keeps false t → s₀.Keeps false (k t).1) :
    s₀.Keeps false (s.vendor v k) := by
  unfold State.vendor
  extract_lets s1
  have h1 : s₀.Keeps false s1 := h.requestVia
  split
  · split
    · rename_i t _ _ e
      have h11 : s₀.Keeps false t := .of_fst (hk _ h1) e
      exact h11.answerVia
  · exact h1.answerVia

theorem State.Keeps.takeIndex (h : s₀.Keeps false s) : s₀.Keeps false s.takeIndex.2 := by
  unfold State.takeIndex
  extract_lets i _ s1 _ s11
  have h1 : s₀.Keeps false s1 := .ite (.secStatus (.upd h)) h
  have h11 : s₀.Keeps false s11 := .ite (.upd h1) h1
  exact h11.setNext

theorem State.Keeps.execGetAttestation {via nonce} (h : s₀.Keeps false s) : s₀.KeepsOut false (execGetAttestation via nonce s) := by
  unfold Machine.execGetAttestation
  refine .next (.vendor h (fun t h1 => ?_))
  split
  · exact h1
  · split
    · rename_i t1 e
      have h11 : s₀.Keeps false t1 := .of_snd h1.takeIndex e
      extract_lets r
      exact h11

theorem State.Keeps.execGetIdentityCert {via} (h : s₀.Keeps false s) : s₀.KeepsOut false (execGetIdentityCert via s) := by
  unfold Machine.execGetIdentityCert
  exact .next (.vendor h (fun _ h => h))

theorem State.Keeps.execProvisionPsk {via slot ciphertext} (h : s₀.Keeps false s) :
    s₀.KeepsOut false (execProvisionPsk via slot ciphertext s) := by
  unfold Machine.execProvisionPsk
  refine .next (.vendor h (fun t h1 => ?_))
  split
  · exact h1
  · extract_lets secret k _
    exact .secStatus (.upd h1)

theorem State.Keeps.execRevokeSlot {via slot signer pubkey msg signature} (h : s₀.Keeps false s) :
    s₀.KeepsOut false (execRevokeSlot via slot signer pubkey msg signature s) := by
  unfold Machine.execRevokeSlot
  refine .next (.vendor h (fun t h1 => ?_))
  extract_lets after _
  split
  · exact h1
  · split
    · exact h1
    · exact .secStatus (.upd h1)

theorem State.Keeps.execCommitSvn {via force} (h : s₀.Keeps false s) : s₀.KeepsOut false (execCommitSvn via force s) := by
  unfold Machine.execCommitSvn
  refine .next (.vendor h (fun t h1 => ?_))
  extract_lets n other _
  split
  · exact h1
  · exact .secStatus (.upd h1)

theorem State.Keeps.execExtendMeasurement {via reg digest} (h : s₀.Keeps false s) :
    s₀.KeepsOut false (execExtendMeasurement via reg digest s) := by
  unfold Machine.execExtendMeasurement
  refine .next (.vendor h (fun t h1 => ?_))
  split
  · exact h1
  · exact h1.extendDigest

theorem State.Keeps.spdm {i3c k} (h : s₀.Keeps false s) (hk : ∀ t, s₀.Keeps false t → s₀.Keeps false (k t).1) :
    s₀.Keeps false (s.spdm i3c k) := by
  unfold State.spdm
  extract_lets s1
  have h1 : s₀.Keeps false s1 := h.count
  split
  · rename_i t _ e
    have h11 : s₀.Keeps false t := by
      refine .of_fst ?_ e
      split
      · exact hk _ h1
      · exact h1
    exact h11.answerMctp

theorem State.Keeps.execPskExchange {i3c slot version msg} (h : s₀.Keeps false s) :
    s₀.KeepsOut false (execPskExchange i3c slot version msg s) := by
  unfold Machine.execPskExchange
  refine .next (.spdm h (fun t h1 => ?_))
  split
  · exact h1
  · split
    · exact .upd h1
    · exact h1

theorem State.Keeps.execGetMeasurements {i3c index} (h : s₀.Keeps false s) :
    s₀.KeepsOut false (execGetMeasurements i3c index s) := by
  unfold Machine.execGetMeasurements
  refine .next (.spdm h (fun t h1 => ?_))
  split
  · exact h1
  · split
    · exact h1
    · split
      · exact h1
      · exact h1

theorem State.Keeps.ideBit (h : s₀.Keeps false s) : s₀.Keeps false s.ideBit := by
  unfold State.ideBit
  extract_lets on s1 _
  have h1 : s₀.Keeps false s1 := h.setFld
  exact .upd h1

theorem State.Keeps.ideKm {i3c session ok k} (h : s₀.Keeps false s) (hk : ∀ t, s₀.Keeps false t → s₀.Keeps false (k t)) :
    s₀.Keeps false (s.ideKm i3c session ok k) := by
  unfold State.ideKm
  refine .spdm h fun t h => ?_
  split
  · exact hk _ h
  · exact h

theorem State.Keeps.execKeyProg {i3c session protocol tx set key} (h : s₀.Keeps false s) :
    s₀.KeepsOut false (execKeyProg i3c session protocol tx set key s) := by
  unfold Machine.execKeyProg
  extract_lets d
  exact .next (.ideKm h (fun _ h => .upd h))

theorem State.Keeps.execKSetGo {i3c session protocol tx set} (h : s₀.Keeps false s) :
    s₀.KeepsOut false (execKSetGo i3c session protocol tx set s) := by
  unfold Machine.execKSetGo
  extract_lets d
  exact .next (.ideKm h (fun _ h => .ideBit (.upd h)))

theorem State.Keeps.execKSetStop {i3c session protocol tx set} (h : s₀.Keeps false s) :
    s₀.KeepsOut false (execKSetStop i3c session protocol tx set s) := by
  unfold Machine.execKSetStop
  extract_lets d
  exact .next (.ideKm h (fun _ h => .ideBit (.upd h)))

theorem State.Keeps.commitGroup {c changed b j} (h : s₀.Keeps false s) : s₀.Keeps false (s.commitGroup c changed b j) := by
  unfold State.commitGroup
  extract_lets g new s1 s11 _
  have h1 : s₀.Keeps false s1 := h.abortWhere
  have h11 : s₀.Keeps false s11 := h1.incFld
  exact .ite h (.upd h11)

theorem State.Keeps.commitSet {n c} (h : s₀.Keeps false s) : s₀.Keeps false (s.commitSet n c) := by
  unfold State.commitSet
  extract_lets changed s1 s11
  have h1 : s₀.Keeps false s1 := h.applySet
  have h11 : s₀.Keeps false s11 := .foldl (fun _ _ h => .ite h.wr h) h
  exact .ite (.ite h1 (.foldl (fun _ _ h => h.planCompare) h1)) (.ite h11.applySet.roleCommitted (.ite (.applySet (.foldl
    (fun _ _ h => h.commitGroup) h)) (.ite h.applySet.rebalanceAll h.applySet)))

theorem State.Keeps.enabled {n} (h : s₀.Keeps false s) : s₀.Keeps false (s.enabled n) := by
  unfold State.enabled
  split
  · exact h.ringStart
  · exact h.cqStart
  · exact h.portStart
  · exact h.setFld
  · exact h.setFld
  · exact h.setFld.setFld
  · exact h

theorem State.Keeps.execEnableCheckDone (h : s₀.Keeps false s) : s₀.KeepsOut false (execEnableCheckDone s) := by
  unfold Machine.execEnableCheckDone
  split
  · exact .next h
  · split
    · exact .next h
    · extract_lets r s1 s11
      have h1 : s₀.Keeps false s1 := .ite h.setFld h
      have h11 : s₀.Keeps false s11 := .ite h1.enabled h1.cfgLog
      exact .next h11.popCheck

theorem State.Keeps.answerCommit {dest reason} (h : s₀.Keeps false s) : s₀.Keeps false (s.answerCommit dest reason) := by
  unfold State.answerCommit
  split
  · extract_lets c x w
    exact .ite (.finish h h.outcomeTo) h
  · exact h

theorem State.Keeps.readGroups {c b errs} (h : s₀.Keeps false s) : s₀.Keeps false (s.readGroups c b errs) := by
  unfold State.readGroups
  refine .foldl (fun t j h1 => ?_) h
  extract_lets a first n s1
  have h11 : s₀.Keeps false s1 := h1.devRead
  exact .ite h1 h11.devRead

theorem State.Keeps.execCommitCheckDone {errs} (h : s₀.Keeps false s) : s₀.KeepsOut false (execCommitCheckDone errs s) := by
  unfold Machine.execCommitCheckDone
  split
  · exact .next h
  · split
    · extract_lets s1
      have h1 : s₀.Keeps false s1 := .ite h.readGroups h
      split
      · rename_i t _ _ e
        have h11 : s₀.Keeps false t := by
          refine .of_fst ?_ e
          split
          · exact h1
          · exact h1.commitSet
        extract_lets s11
        have h12 : s₀.Keeps false s11 := h11.setStatus.commitResult.popCheck
        exact .next (.ite h12.setFld h12.answerCommit)
    · exact .next h

theorem State.Keeps.askCommit {set source domain dest} (h : s₀.Keeps calm s) :
    s₀.Keeps calm (s.askCommit set source domain dest) := by
  unfold State.askCommit
  exact h.pushCheck

theorem State.Keeps.execDxnCommit {c body} (h : s₀.Keeps false s) : s₀.KeepsOut false (execDxnCommit c body s) := by
  unfold Machine.execDxnCommit
  extract_lets w me
  refine .next (.issue h (fun t x h1 => ?_))
  extract_lets a s1
  have h11 : s₀.Keeps false s1 := h1.askCommit
  split
  · exact h1.spaceRefusal
  · split
    · exact trivial
    · split
      · exact h1.commitResult.commitBusy.outcomeTo
      · split
        · exact h1.commitResult.commitBusy.outcomeTo
        · exact h11.setCtx

theorem State.Keeps.mramWord {a} (h : s₀.Keeps calm s) : s₀.Keeps calm (s.mramWord a).2 := by
  unfold State.mramWord
  split
  · exact h.draw
  · split
    · exact h
    · split
      · exact h
      · split
        · exact h
        · exact h

theorem State.Keeps.readView {base off} (h : s₀.Keeps calm s) : s₀.Keeps calm (s.readView base off).2 := by
  unfold State.readView
  extract_lets w i
  iterate 7 refine .ite_snd h ?_
  refine .ite_snd h.wr ?_
  iterate 3 refine .ite_snd h ?_
  refine .ite_snd h.mramWord ?_
  iterate 5 refine .ite_snd h ?_
  exact h

theorem State.Keeps.readReg {off} (h : s₀.Keeps calm s) : s₀.Keeps calm (s.readReg off).2 := by
  unfold State.readReg
  split
  · exact h
  · split
    · rename_i t e
      have h1 : s₀.Keeps calm t := .of_snd h.readView e
      extract_lets rc
      exact .ite h1 h1.wr

theorem State.Keeps.execRcFieldRead {offset} (h : s₀.Keeps false s) : s₀.KeepsOut false (execRcFieldRead offset s) := by
  unfold Machine.execRcFieldRead
  extract_lets r
  have h1 : s₀.Keeps false r.2 := h.readReg
  exact .next h1.sendCxl

theorem State.Keeps.execTimNowCapture (h : s₀.Keeps false s) : s₀.KeepsOut false (execTimNowCapture s) := by
  unfold Machine.execTimNowCapture
  extract_lets r
  have h1 : s₀.Keeps false r.2 := h.readReg
  exact .next h1.sendCxl

theorem State.Keeps.enableBit {k want on off who clear again}
    (h : s₀.Keeps calm s) (hclear : ∀ t, s₀.Keeps calm t → s₀.Keeps calm (clear t)) (hagain : ∀ t, s₀.Keeps calm t → s₀.Keeps calm (again t)) :
    s₀.Keeps calm (s.enableBit k want on off who clear again) := by
  unfold State.enableBit
  exact .ite (.ite (hagain _ h) (.ite h h.pushCheck)) (.ite (hclear _ h) (.ite h.dropChecks h))

theorem State.Keeps.cqClear {c off who} (h : s₀.Keeps calm s) : s₀.Keeps calm (s.cqClear c off who) := by
  unfold State.cqClear
  exact .ite h.cfgLog h.setFld

theorem State.Keeps.basinOff {e} (h : s₀.Keeps calm s) : s₀.Keeps calm (s.basinOff e) := by
  unfold State.basinOff
  extract_lets s1 _
  have h1 : s₀.Keeps calm s1 := h.abortWhere
  exact .setFld (.upd h1)

theorem State.Keeps.effectHost {base off v who} (h : s₀.Keeps calm s) : s₀.Keeps calm (s.effectHost base off v who) := by
  unfold State.effectHost
  split
  · extract_lets w
    refine .foldl (fun t i h1 => ?_) h
    extract_lets r
    exact .enableBit h1 (fun _ h => h.ringStop) (fun _ h => h)
  · split
    · extract_lets c
      exact .enableBit h (fun _ h => h.cqClear) (fun _ h => h)
    · exact .ite (.ite h.setFld h) (.ite (.ite (h.orElse h.execCacheFlush) h) (.ite (.ite (h.orElse h.execPegAssign) h)
        (.ite (.enableBit h (fun _ h => h.setFld) (fun _ h => h)) h)))

theorem State.Keeps.effectCfg {base off v who} (h : s₀.Keeps calm s) : s₀.Keeps calm (s.effectCfg base off v who) := by
  unfold State.effectCfg
  split
  · extract_lets set
    exact .ite h.setFld.askCommit h.commitResult.commitBusy
  · split
    · extract_lets set busy
      exact .ite h h.discardSet
    · exact h

theorem State.Keeps.effectCentral {base off old v} (h : s₀.Keeps calm s) : s₀.Keeps calm (s.effectCentral base off old v) := by
  unfold State.effectCentral
  split
  · exact h.tolWritten
  · split
    · extract_lets s1 _
      have h1 : s₀.Keeps calm s1 := .ite h h.sourceChanged
      exact .ite (.parentLost (.upd h1)) h1
    · split
      · extract_lets p _ s1
        have h1 : s₀.Keeps calm s1 := .upd h
        exact .ite h.timPortDown (.ite (.ite h1.parentLost h1) h)
      · split
        · exact .ite h.timSet h
        · split
          · exact .ite (h.orElse h.execLedgerCommitRequest) h
          · split
            · extract_lets notify
              split
              · exact h.snapNow
              · exact h.snapAt
              · exact h.snapEvery
              · exact h.snapStop
            · exact .ite h.counterClear (.ite h.counterCopy h)

theorem State.Keeps.modeChanged {f} (h : s₀.Keeps calm s) : s₀.Keeps calm (s.modeChanged f) := by
  unfold State.modeChanged
  exact .foldl (fun _ _ h => h.wr) h

theorem State.Keeps.effectFabric {base off old v who} (h : s₀.Keeps calm s) :
    s₀.Keeps calm (s.effectFabric base off old v who) := by
  unfold State.effectFabric
  split
  · exact .ite h h.modeChanged
  · split
    · extract_lets p
      exact .enableBit h (fun _ h => h.portOff) (fun _ h => h.portRetry)
    · split
      · exact h.ageSafePoint
      · split
        · extract_lets e
          exact .enableBit h (fun _ h => h.basinOff) (fun _ h => h)
        · split
          · exact .ite (h.orElse h.execBasinAbort) h
          · split
            · split
              · extract_lets b
                exact h.orElse h.execTenonAssign
              · exact h
            · exact .ite (.enableBit h (fun _ h => h.setFld) (fun _ h => h)) h

theorem State.Keeps.opticWrite {e off v act} (h : s₀.Keeps calm s) (hact : ∀ t, s₀.Keeps calm t → s₀.Keeps calm (act t)) :
    s₀.Keeps calm (s.opticWrite e off v act) := by
  unfold State.opticWrite
  exact .ite (hact _ h) (.upd h)

theorem State.Keeps.flipGo {who} (h : s₀.Keeps calm s) : s₀.Keeps calm (s.flipGo who) := by
  unfold State.flipGo
  exact h.setFld.pushCheck

theorem State.Keeps.effectOptics {base off old v who} (h : s₀.Keeps calm s) :
    s₀.Keeps calm (s.effectOptics base off old v who) := by
  unfold State.effectOptics
  split
  · exact .ite h (.ite h.splEnable h.splDisable)
  · split
    · exact .ite h.splGo h
    · split
      · exact .ite h.flipGo h
      · split
        · extract_lets e
          exact .ite (.opticWrite h (fun _ h => h.relockEngine)) h
        · split
          · extract_lets e
            exact .ite (.opticWrite h (fun _ h => h.measureStart)) h
          · split
            · extract_lets e
              exact .ite h (.opticWrite h (fun _ h => h.clearLanes))
            · exact h

theorem State.Keeps.effectPlane {base off v refused} (h : s₀.Keeps calm s) :
    s₀.Keeps calm (s.effectPlane base off v refused) := by
  unfold State.effectPlane
  split
  · exact .ite h.promotion h
  · split
    · exact .ite h.startFlip h
    · split
      · exact .ite h.fenceAsk h
      · split
        · exact .ite h.fenceDecide h
        · split
          · exact .ite h.injectStart h
          · split
            · extract_lets g
              exact h.setBit
            · exact h

theorem State.Keeps.writeEffect {base off old v refused who} (h : s₀.Keeps calm s) :
    s₀.Keeps calm (s.writeEffect base off old v refused who) := by
  unfold State.writeEffect
  exact .ite h.effectHost (.ite h.effectCfg (.ite (.ite h h.effectCentral) (.ite h.effectFabric (.ite h.effectOptics
    (.ite h.effectFabric h.effectPlane)))))

/-- A context's write of GLB_RESET is refused and logged. -/
theorem State.Keeps.resetWrite {v who} (h : s₀.Keeps calm s) (hq : calm = true → who.source = 1) : s₀.Keeps calm (s.resetWrite v who) := by
  unfold State.resetWrite
  split
  · exact h.cfgLog
  next hsource =>
    cases calm with
    | true => exact absurd (hq rfl) hsource
    | false => exact .ite h (.ite h.resetModule (.ite h.restartWellhead h))

theorem State.Keeps.keyWrite {off v who} (h : s₀.Keeps calm s) : s₀.Keeps calm (s.keyWrite off v who) := by
  unfold State.keyWrite
  exact .ite h.cfgLog h.wr.extend

theorem State.Keeps.lockWrite {v} (h : s₀.Keeps calm s) : s₀.Keeps calm (s.lockWrite v) := by
  unfold State.lockWrite
  exact .ite h.setFld.extend h

theorem State.Keeps.writeFields {r off v who} (h : s₀.Keeps calm s) : s₀.Keeps calm (s.writeFields r off v who) := by
  unfold State.writeFields
  extract_lets old refused s1 s11
  have h1 : s₀.Keeps calm s1 := h.wr
  have h11 : s₀.Keeps calm s11 := .ite h1.cfgLog h1
  exact h11.writeEffect

theorem State.Keeps.writeReg {off v who} (h : s₀.Keeps calm s) (hq : calm = true → who.source = 1) : s₀.Keeps calm (s.writeReg off v who) := by
  unfold State.writeReg
  split
  · exact h
  · exact .ite (h.resetWrite hq) (.ite h.keyWrite (.ite h.lockWrite (.ite h h.writeFields)))

theorem State.Keeps.hostReg {off v} (h : s₀.Keeps false s) : s₀.Keeps false (s.hostReg off v) := by
  unfold State.hostReg
  exact h.writeReg nofun

theorem State.Keeps.execRegisterWrite {offset v} (h : s₀.Keeps false s) : s₀.KeepsOut false (execRegisterWrite offset v s) := by
  unfold Machine.execRegisterWrite
  exact .next h.hostReg

theorem State.Keeps.execGlbResetModule (h : s₀.Keeps false s) : s₀.KeepsOut false (execGlbResetModule s) := by
  unfold Machine.execGlbResetModule
  exact .next h.hostReg

theorem State.Keeps.execGlbResetWellhead (h : s₀.Keeps false s) : s₀.KeepsOut false (execGlbResetWellhead s) := by
  unfold Machine.execGlbResetWellhead
  exact .next h.hostReg

theorem State.Keeps.setMsix {o v} (h : s₀.Keeps false s) : s₀.Keeps false (s.setMsix o v) := by
  unfold State.setMsix
  exact .upd h

theorem State.Keeps.bar4Write {size o v} (h : s₀.Keeps false s) : s₀.Keeps false (s.bar4Write size o v) := by
  unfold State.bar4Write
  split
  · extract_lets s1
    have h1 : s₀.Keeps false s1 := h.setMsix
    exact .ite h1.setMsix h1
  · exact h

theorem State.Keeps.bar4Read {size o} (h : s₀.Keeps false s) : s₀.Keeps false (s.bar4Read size o).2 := by
  unfold State.bar4Read
  extract_lets low i lo
  split
  · exact h
  · split
    · exact h
    · split
      · split
        · rename_i t e
          have h1 : s₀.Keeps false t := .of_snd h.draw e
          exact h1
      · exact h

theorem State.Keeps.barRead {bar size o} (h : s₀.Keeps false s) : s₀.Keeps false (s.barRead bar size o).2 := by
  unfold State.barRead
  split
  · exact h.readReg
  · split
    · exact h
    · exact h.bar4Read

theorem State.Keeps.barWrite {bar size o v} (h : s₀.Keeps false s) : s₀.Keeps false (s.barWrite bar size o v) := by
  unfold State.barWrite
  exact .ite h.hostReg (.ite h.bar2Write h.bar4Write)

theorem State.Keeps.execBarMisalignedAccess {bar write size offset data} (h : s₀.Keeps false s) :
    s₀.KeepsOut false (execBarMisalignedAccess bar write size offset data s) := by
  unfold Machine.execBarMisalignedAccess
  extract_lets b n o
  split
  · exact .next h
  · split
    · exact .next h.barRefused.sendCxl
    · split
      · exact .next h.barWrite.sendCxl
      · split
        · rename_i t e
          have h1 : s₀.Keeps false t := .of_snd h.barRead e
          exact .next h1.sendCxl

theorem State.Keeps.execRingEnable {r} (h : s₀.Keeps false s) : s₀.KeepsOut false (execRingEnable r s) := by
  unfold Machine.execRingEnable
  exact .next h.hostReg

theorem State.Keeps.execRingDisable {r} (h : s₀.Keeps false s) : s₀.KeepsOut false (execRingDisable r s) := by
  unfold Machine.execRingDisable
  exact .next h.hostReg

theorem State.Keeps.hostField {off f v} (h : s₀.Keeps false s) : s₀.Keeps false (s.hostField off f v) := by
  unfold State.hostField
  exact h.hostReg

theorem State.Keeps.execCqEnable {c} (h : s₀.Keeps false s) : s₀.KeepsOut false (execCqEnable c s) := by
  unfold Machine.execCqEnable
  exact .next h.hostField

theorem State.Keeps.execCqDisable {c} (h : s₀.Keeps false s) : s₀.KeepsOut false (execCqDisable c s) := by
  unfold Machine.execCqDisable
  exact .next h.hostField

theorem State.Keeps.execPortEnable {p} (h : s₀.Keeps false s) : s₀.KeepsOut false (execPortEnable p s) := by
  unfold Machine.execPortEnable
  exact .next h.hostField

theorem State.Keeps.execPortDisable {p} (h : s₀.Keeps false s) : s₀.KeepsOut false (execPortDisable p s) := by
  unfold Machine.execPortDisable
  exact .next h.hostField

theorem State.Keeps.execBasinEnable {e} (h : s₀.Keeps false s) : s₀.KeepsOut false (execBasinEnable e s) := by
  unfold Machine.execBasinEnable
  exact .next h.hostField

theorem State.Keeps.execBasinDisable {e} (h : s₀.Keeps false s) : s₀.KeepsOut false (execBasinDisable e s) := by
  unfold Machine.execBasinDisable
  exact .next h.hostField

theorem State.Keeps.execAreasEnable (h : s₀.Keeps false s) : s₀.KeepsOut false (execAreasEnable s) := by
  unfold Machine.execAreasEnable
  exact .next h.hostField

theorem State.Keeps.execFwdEnable (h : s₀.Keeps false s) : s₀.KeepsOut false (execFwdEnable s) := by
  unfold Machine.execFwdEnable
  exact .next h.hostField

theorem State.Keeps.execFwdDisable (h : s₀.Keeps false s) : s₀.KeepsOut false (execFwdDisable s) := by
  unfold Machine.execFwdDisable
  exact .next h.hostField

theorem State.Keeps.execFwdDrained (h : s₀.Keeps false s) : s₀.KeepsOut false (execFwdDrained s) := by
  unfold Machine.execFwdDrained
  exact .next (.ite h h.setFld)

theorem State.Keeps.execRelock {e} (h : s₀.Keeps false s) : s₀.KeepsOut false (execRelock e s) := by
  unfold Machine.execRelock
  exact .next h.hostField

theorem State.Keeps.execOptMeasure {ring integ} (h : s₀.Keeps false s) : s₀.KeepsOut false (execOptMeasure ring integ s) := by
  unfold Machine.execOptMeasure
  exact .next h.hostReg

theorem State.Keeps.execLaneClear {e mask} (h : s₀.Keeps false s) : s₀.KeepsOut false (execLaneClear e mask s) := by
  unfold Machine.execLaneClear
  exact .next h.hostReg

theorem State.Keeps.execCircuitGrant {reqA reqB inId outId} (h : s₀.Keeps false s) :
    s₀.KeepsOut false (execCircuitGrant reqA reqB inId outId s) := by
  unfold Machine.execCircuitGrant
  exact .next h.hostReg.hostReg.hostReg.hostReg

theorem State.Keeps.execCircuitRelease {reqA} (h : s₀.Keeps false s) : s₀.KeepsOut false (execCircuitRelease reqA s) := by
  unfold Machine.execCircuitRelease
  exact .next h.hostReg

theorem State.Keeps.execCircuitReleaseAll {reqA} (h : s₀.Keeps false s) : s₀.KeepsOut false (execCircuitReleaseAll reqA s) := by
  unfold Machine.execCircuitReleaseAll
  exact .next h.hostReg

theorem State.Keeps.execSplFlip (h : s₀.Keeps false s) : s₀.KeepsOut false (execSplFlip s) := by
  unfold Machine.execSplFlip
  exact .next h.hostReg

theorem State.Keeps.execSpillwayEnable (h : s₀.Keeps false s) : s₀.KeepsOut false (execSpillwayEnable s) := by
  unfold Machine.execSpillwayEnable
  exact .next h.hostField

theorem State.Keeps.execSpillwayDisable (h : s₀.Keeps false s) : s₀.KeepsOut false (execSpillwayDisable s) := by
  unfold Machine.execSpillwayDisable
  exact .next h.hostField

theorem State.Keeps.execTimeSet {nsFrac} (h : s₀.Keeps false s) : s₀.KeepsOut false (execTimeSet nsFrac s) := by
  unfold Machine.execTimeSet
  exact .next h.hostReg

theorem State.Keeps.execBayTolWrite {n tol} (h : s₀.Keeps false s) : s₀.KeepsOut false (execBayTolWrite n tol s) := by
  unfold Machine.execBayTolWrite
  exact .next h.hostReg

theorem State.Keeps.execSilInject {group bit pulses} (h : s₀.Keeps false s) :
    s₀.KeepsOut false (execSilInject group bit pulses s) := by
  unfold Machine.execSilInject
  exact .next h.hostReg

theorem State.Keeps.execImageKeyWrite {slot w v} (h : s₀.Keeps false s) : s₀.KeepsOut false (execImageKeyWrite slot w v s) := by
  unfold Machine.execImageKeyWrite
  exact .next h.hostReg

theorem State.Keeps.execSecLock (h : s₀.Keeps false s) : s₀.KeepsOut false (execSecLock s) := by
  unfold Machine.execSecLock
  exact .next h.hostReg

theorem State.Keeps.execCfgCommit {set} (h : s₀.Keeps false s) : s₀.KeepsOut false (execCfgCommit set s) := by
  unfold Machine.execCfgCommit
  exact .next h.hostReg

theorem State.Keeps.execCfgDiscard {set} (h : s₀.Keeps false s) : s₀.KeepsOut false (execCfgDiscard set s) := by
  unfold Machine.execCfgDiscard
  exact .next h.hostReg

theorem State.Keeps.load {c w read errs widen} (h : s₀.Keeps false s) : s₀.Keeps false (s.load c w read errs widen) := by
  unfold State.load
  refine .issue h (fun t x h1 => ?_)
  extract_lets n
  refine State.Keeps.transfer h1 (fun a t1 h2 => ?_)
  split
  · split
    · rename_i t2 e
      have h11 : s₀.Keeps false t2 := .of_snd h2.readReg e
      exact h11.setCtx
  · split
    · rename_i t2 _ e
      have h11 : s₀.Keeps false t2 := .of_fst h2.spaceRead e
      exact h11.setCtx
    · rename_i t2 e
      have h11 : s₀.Keeps false t2 := .of_fst h2.spaceRead e
      exact h11

theorem State.Keeps.execDxnLd {c body read errs} (h : s₀.Keeps false s) : s₀.KeepsOut false (execDxnLd c body read errs s) := by
  unfold Machine.execDxnLd
  exact .next h.load

theorem State.Keeps.execDxnLds {c body read errs} (h : s₀.Keeps false s) : s₀.KeepsOut false (execDxnLds c body read errs s) := by
  unfold Machine.execDxnLds
  exact .next h.load

theorem State.Keeps.execDxnSt {c body} (h : s₀.Keeps false s) : s₀.KeepsOut false (execDxnSt c body s) := by
  unfold Machine.execDxnSt
  extract_lets w n
  refine .next (.issue h (fun t x h1 => ?_))
  refine State.Keeps.transfer h1 (fun a t1 h2 => ?_)
  split
  · exact h2.writeReg nofun
  · exact h2.spaceWrite

theorem State.Keeps.snoopInsert {line} (h : s₀.Keeps false s) : s₀.Keeps false (s.snoopInsert line) := by
  unfold State.snoopInsert
  extract_lets l _
  split
  · exact h
  · split
    · exact .upd h
    · clear_value l
      split
      · exact h
      · extract_lets s1 _
        have h1 : s₀.Keeps false s1 := h.sendCxl
        exact .upd h1

theorem State.Keeps.mailEvent {r} (h : s₀.Keeps false s) : s₀.Keeps false (s.mailEvent r) := by
  unfold State.mailEvent
  exact .upd h

theorem State.Keeps.execHostMemRead {addr errs} (h : s₀.Keeps false s) : s₀.KeepsOut false (execHostMemRead addr errs s) := by
  unfold Machine.execHostMemRead
  extract_lets a s1
  have h1 : s₀.Keeps false s1 := h.snoopInsert
  split
  · exact .next h
  · split
    · exact .next h1.memEvent.sendCxl
    · split
      · rename_i t _ _ e
        have h11 : s₀.Keeps false t := .of_fst h1.devRead e
        extract_lets s11
        have h12 : s₀.Keeps false s11 := h11.sendCxl
        exact .next (.ite h12.mailEvent h12)

theorem State.Keeps.maskedWrite {a data mask} (h : s₀.Keeps false s) : s₀.Keeps false (s.maskedWrite a data mask) := by
  unfold State.maskedWrite
  exact .foldl (fun _ _ h => .ite h.devWrite h) h

theorem State.Keeps.execHostMemWrite {addr data mask} (h : s₀.Keeps false s) :
    s₀.KeepsOut false (execHostMemWrite addr data mask s) := by
  unfold Machine.execHostMemWrite
  extract_lets a s1 s11
  have h1 : s₀.Keeps false s1 := h.snoopInsert
  have h11 : s₀.Keeps false s11 := .ite h1.memEvent (.ite h1.devWrite h1.maskedWrite)
  split
  · exact .next h
  · exact .next h11.sendCxl

theorem State.Keeps.scrubPassed {off} (h : s₀.Keeps false s) : s₀.Keeps false (s.scrubPassed off) := by
  unfold State.scrubPassed
  exact h.incFld

theorem State.Keeps.execScrubRead {ddr err} (h : s₀.Keeps false s) : s₀.KeepsOut false (execScrubRead ddr err s) := by
  unfold Machine.execScrubRead
  have hs : s₀.KeepsOut false (.next s) := .next h
  refine State.Keeps.ite_out ?hbm (State.Keeps.ite_out hs ?ddr)
  case hbm =>
    extract_lets a m s1 s2 s3 _
    have h1 : s₀.Keeps false s1 := by
      unfold s1
      split
      · exact .ite h.count h
      · exact h
    have h2 : s₀.Keeps false s2 := .ite h1.devRead h
    have h3 : s₀.Keeps false s3 := .ite h2.scrubPassed h2
    exact .next (.updMem h3)
  case ddr =>
    extract_lets a s1 s2 n s3 _
    have h1 : s₀.Keeps false s1 := by
      unfold s1
      split
      · exact .ite h.count h
      · exact h
    have h2 : s₀.Keeps false s2 := h1.devRead
    have h3 : s₀.Keeps false s3 := .ite (.foldl (fun _ _ h => h.scrubPassed) h2) h2
    clear_value s3
    exact .next (.updMem h3)

theorem State.Keeps.execAlertRetry {addr attempt ok} (h : s₀.Keeps false s) :
    s₀.KeepsOut false (execAlertRetry addr attempt ok s) := by
  unfold Machine.execAlertRetry
  extract_lets a s1 s11
  have h1 : s₀.Keeps false s1 := h.count
  have h11 : s₀.Keeps false s11 := h1.memEvent
  split
  · exact .next h
  · exact .next (.ite (.ite h11.memEvent h11.uncorrectable) h1)

theorem State.Keeps.toReg {c w v} (h : s₀.Keeps false s) : s₀.Keeps false (s.toReg c w v) := by
  unfold State.toReg
  exact .issue h (fun _ _ h => h.setCtx)

theorem State.Keeps.execDxnNop {c body} (h : s₀.Keeps false s) : s₀.KeepsOut false (execDxnNop c body s) := by
  unfold Machine.execDxnNop
  exact .next (.issue h (fun _ _ h => h))

theorem State.Keeps.execDxnTrap {c body} (h : s₀.Keeps false s) : s₀.KeepsOut false (execDxnTrap c body s) := by
  unfold Machine.execDxnTrap
  extract_lets w
  exact .next (.issue h (fun _ _ h => h))

theorem State.Keeps.execDxnFflags {c body} (h : s₀.Keeps false s) : s₀.KeepsOut false (execDxnFflags c body s) := by
  unfold Machine.execDxnFflags
  extract_lets w
  refine .next (.issue h (fun t x h1 => ?_))
  extract_lets y
  exact h1.setCtx

theorem State.Keeps.execDxnRngset {c body} (h : s₀.Keeps false s) : s₀.KeepsOut false (execDxnRngset c body s) := by
  unfold Machine.execDxnRngset
  extract_lets w
  refine .next (.issue h (fun t x h1 => ?_))
  extract_lets ctr
  exact h1.setCtx

theorem State.Keeps.execDxnVersion {c body} (h : s₀.Keeps false s) : s₀.KeepsOut false (execDxnVersion c body s) := by
  unfold Machine.execDxnVersion
  exact .next h.toReg

theorem State.Keeps.execDxnTime {c body} (h : s₀.Keeps false s) : s₀.KeepsOut false (execDxnTime c body s) := by
  unfold Machine.execDxnTime
  exact .next h.toReg

theorem State.Keeps.execDxnWhoami {c body} (h : s₀.Keeps false s) : s₀.KeepsOut false (execDxnWhoami c body s) := by
  unfold Machine.execDxnWhoami
  exact .next h.toReg

theorem State.Keeps.execDxnModid {c body} (h : s₀.Keeps false s) : s₀.KeepsOut false (execDxnModid c body s) := by
  unfold Machine.execDxnModid
  exact .next h.toReg

theorem State.Keeps.heardPair {port kind m} (h : s₀.Keeps false s) : s₀.Keeps false (s.heardPair port kind m) := by
  unfold State.heardPair
  exact h.count.acceptManager

theorem State.Keeps.heardMember {port kind m} (h : s₀.Keeps false s) : s₀.Keeps false (s.heardMember port kind m) := by
  unfold State.heardMember
  exact h.count.setTerm

end

/-- Every command keeps the queue and the canonical form of both stores: one meaning for each arm of `exec`. -/
theorem exec_keeps (i : Instr) (s : State) : s.KeepsOut false (exec i s) := by
  have h : s.Keeps false s := .refl s
  cases i with
  | powerUp => exact h.execPowerUp
  | bulkCharged => exact h.execBulkCharged
  | modRstNRise => exact h.execModRstNRise
  | perstNRelease => exact h.execPerstNRelease
  | perstNAssert => exact h.execPerstNAssert
  | powerDown => exact h.execPowerDown
  | pfailNLow => exact h.execPfailNLow
  | bladePairLoss => exact h.execBladePairLoss
  | pairShareTimeout => exact h.execPairShareTimeout
  | inputSagDetect => exact h.execInputSagDetect
  | conversionStop => exact h.execConversionStop
  | inputRecovered => exact h.execInputRecovered
  | modRstNLow => exact h.execModRstNLow
  | lasIntNFall => exact h.execLasIntNFall
  | laserPoll => exact h.execLaserPoll
  | pairingCheckStart => exact h.execPairingCheckStart
  | pairingCheckResult => exact h.execPairingCheckResult
  | laserRampDone => exact h.execLaserRampDone
  | sensorSample => exact h.execSensorSample
  | monitorWindowEnd => exact h.execMonitorWindowEnd
  | supplyLoopEval => exact h.execSupplyLoopEval
  | sillPulse => exact h.execSillPulse
  | sillAcknowledge => exact h.execSillAcknowledge
  | silInject => exact h.execSilInject
  | injectionDone => exact h.execInjectionDone
  | linkTrain => exact h.execLinkTrain
  | linkRetrain => exact h.execLinkRetrain
  | linkDown => exact h.execLinkDown
  | d3hotEntry => exact h.execD3hotEntry
  | d0Return => exact h.execD0Return
  | barMisalignedAccess => exact h.execBarMisalignedAccess
  | pegBar2Set => exact h.execPegBar2Set
  | pegBar2Add => exact h.execPegBar2Add
  | hostMemRead => exact h.execHostMemRead
  | hostMemWrite => exact h.execHostMemWrite
  | ringEnable => exact h.execRingEnable
  | ringDisable => exact h.execRingDisable
  | ringDrained => exact h.execRingDrained
  | cqEnable => exact h.execCqEnable
  | cqDisable => exact h.execCqDisable
  | watchedLineSnoop => exact h.execWatchedLineSnoop
  | watchedLineData => exact h.execWatchedLineData
  | watchPoll => exact h.execWatchPoll
  | descriptorArrival => exact h.execDescriptorArrival
  | descriptorAdmit => exact h.execDescriptorAdmit
  | descriptorNop => exact h.execDescriptorNop
  | descriptorRun => exact h.execDescriptorRun
  | descriptorAbort => exact h.execDescriptorAbort
  | parkedWaitSatisfied => exact h.execParkedWaitSatisfied
  | descriptorWaitTimeout => exact h.execDescriptorWaitTimeout
  | imageReadComplete => exact h.execImageReadComplete
  | workCompletion => exact h.execWorkCompletion
  | cqHeadptrReread => exact h.execCqHeadptrReread
  | cqStallTimeout => exact h.execCqStallTimeout
  | ideFailure => exact h.execIdeFailure
  | mctpMessage => exact h.execMctpMessage
  | identify => exact h.execIdentify
  | getEventRecords => exact h.execGetEventRecords
  | clearEventRecords => exact h.execClearEventRecords
  | getSupportedLogs => exact h.execGetSupportedLogs
  | getLog => exact h.execGetLog
  | getFwInfo => exact h.execGetFwInfo
  | transferFw => exact h.execTransferFw
  | activateFw => exact h.execActivateFw
  | getTimestamp => exact h.execGetTimestamp
  | mailboxUnsupported opcode => exact h.execMailboxUnsupported (opcode := opcode)
  | getAttestation => exact h.execGetAttestation
  | getIdentityCert => exact h.execGetIdentityCert
  | provisionPsk => exact h.execProvisionPsk
  | revokeSlot => exact h.execRevokeSlot
  | commitSvn => exact h.execCommitSvn
  | extendMeasurement => exact h.execExtendMeasurement
  | pskExchange => exact h.execPskExchange
  | getMeasurements => exact h.execGetMeasurements
  | keyProg => exact h.execKeyProg
  | kSetGo => exact h.execKSetGo
  | kSetStop => exact h.execKSetStop
  | pegAssign => exact h.execPegAssign
  | cacheFlush => exact h.execCacheFlush
  | dxnAdd => exact h.execDxnAdd
  | dxnSub => exact h.execDxnSub
  | dxnMul => exact h.execDxnMul
  | dxnMulh => exact h.execDxnMulh
  | dxnDiv => exact h.execDxnDiv
  | dxnRem => exact h.execDxnRem
  | dxnMin => exact h.execDxnMin
  | dxnMax => exact h.execDxnMax
  | dxnAnd => exact h.execDxnAnd
  | dxnOr => exact h.execDxnOr
  | dxnXor => exact h.execDxnXor
  | dxnShl => exact h.execDxnShl
  | dxnShr => exact h.execDxnShr
  | dxnSra => exact h.execDxnSra
  | dxnFma => exact h.execDxnFma
  | dxnCmp => exact h.execDxnCmp
  | dxnSel => exact h.execDxnSel
  | dxnCvt => exact h.execDxnCvt
  | dxnMovi => exact h.execDxnMovi
  | dxnMovhi => exact h.execDxnMovhi
  | dxnAddi => exact h.execDxnAddi
  | dxnAndi => exact h.execDxnAndi
  | dxnOri => exact h.execDxnOri
  | dxnXori => exact h.execDxnXori
  | dxnShli => exact h.execDxnShli
  | dxnShri => exact h.execDxnShri
  | dxnSrai => exact h.execDxnSrai
  | dxnCmpi => exact h.execDxnCmpi
  | dxnPlog => exact h.execDxnPlog
  | dxnPmov => exact h.execDxnPmov
  | dxnVadd => exact h.execDxnVadd
  | dxnVsub => exact h.execDxnVsub
  | dxnVmul => exact h.execDxnVmul
  | dxnVfma => exact h.execDxnVfma
  | dxnVmin => exact h.execDxnVmin
  | dxnVmax => exact h.execDxnVmax
  | dxnVdiv => exact h.execDxnVdiv
  | dxnVsqrt => exact h.execDxnVsqrt
  | dxnVand => exact h.execDxnVand
  | dxnVor => exact h.execDxnVor
  | dxnVxor => exact h.execDxnVxor
  | dxnVshl => exact h.execDxnVshl
  | dxnVshr => exact h.execDxnVshr
  | dxnVsra => exact h.execDxnVsra
  | dxnVcmp => exact h.execDxnVcmp
  | dxnVsel => exact h.execDxnVsel
  | dxnVcvt => exact h.execDxnVcvt
  | dxnVbcast => exact h.execDxnVbcast
  | dxnVext => exact h.execDxnVext
  | dxnVins => exact h.execDxnVins
  | dxnVred => exact h.execDxnVred
  | dxnVrand => exact h.execDxnVrand
  | dxnMma => exact h.execDxnMma
  | dxnAzero => exact h.execDxnAzero
  | dxnAload => exact h.execDxnAload
  | dxnAcvt => exact h.execDxnAcvt
  | dxnTrd => exact h.execDxnTrd
  | dxnTwr => exact h.execDxnTwr
  | dxnArd => exact h.execDxnArd
  | dxnAwr => exact h.execDxnAwr
  | dxnTtrans => exact h.execDxnTtrans
  | dxnTcvt => exact h.execDxnTcvt
  | dxnTzero => exact h.execDxnTzero
  | dxnTgen => exact h.execDxnTgen
  | dxnSend => exact h.execDxnSend
  | dxnRecv => exact h.execDxnRecv
  | dxnSendm => exact h.execDxnSendm
  | dxnRecvm => exact h.execDxnRecvm
  | dxnSpoll => exact h.execDxnSpoll
  | streamTileArrival => exact h.execStreamTileArrival
  | dxnPegAdd => exact h.execDxnPegAdd
  | dxnPegSet => exact h.execDxnPegSet
  | dxnPegWaitGe => exact h.execDxnPegWaitGe
  | dxnPegWaitEq => exact h.execDxnPegWaitEq
  | dxnPegArmTimeout => exact h.execDxnPegArmTimeout
  | pegWaitSatisfied => exact h.execPegWaitSatisfied
  | pegWaitTimeout => exact h.execPegWaitTimeout
  | dxnBind => exact h.execDxnBind
  | dxnFarset => exact h.execDxnFarset
  | dxnFence => exact h.execDxnFence
  | dxnPegrd => exact h.execDxnPegrd
  | farPegRequest => exact h.execFarPegRequest
  | farPegAck => exact h.execFarPegAck
  | farPegRetry => exact h.execFarPegRetry
  | farPegEntryEvict => exact h.execFarPegEntryEvict
  | dxnLd => exact h.execDxnLd
  | dxnLds => exact h.execDxnLds
  | dxnSt => exact h.execDxnSt
  | dxnVld => exact h.execDxnVld
  | dxnVst => exact h.execDxnVst
  | dxnTld => exact h.execDxnTld
  | dxnTst => exact h.execDxnTst
  | dxnMove => exact h.execDxnMove
  | dxnFill => exact h.execDxnFill
  | dxnXmove => exact h.execDxnXmove
  | dxnTdma => exact h.execDxnTdma
  | longOpComplete => exact h.execLongOpComplete
  | dxnBr => exact h.execDxnBr
  | dxnJr => exact h.execDxnJr
  | dxnDbnz => exact h.execDxnDbnz
  | dxnEnd => exact h.execDxnEnd
  | contextEnd => exact h.execContextEnd
  | runLimitExpiry => exact h.execRunLimitExpiry
  | dxnCacc => exact h.execDxnCacc
  | dxnCemit => exact h.execDxnCemit
  | dxnCgath => exact h.execDxnCgath
  | dxnCapply => exact h.execDxnCapply
  | dxnCbar => exact h.execDxnCbar
  | dxnCring => exact h.execDxnCring
  | dxnCabort => exact h.execDxnCabort
  | dxnCstat => exact h.execDxnCstat
  | dxnTstart => exact h.execDxnTstart
  | dxnBstart => exact h.execDxnBstart
  | dxnTruss => exact h.execDxnTruss
  | dxnUntruss => exact h.execDxnUntruss
  | dxnSeglock => exact h.execDxnSeglock
  | dxnSegpub => exact h.execDxnSegpub
  | dxnCommit => exact h.execDxnCommit
  | dxnEflip => exact h.execDxnEflip
  | dxnPassign => exact h.execDxnPassign
  | dxnTstop => exact h.execDxnTstop
  | dxnNop => exact h.execDxnNop
  | dxnTrap => exact h.execDxnTrap
  | dxnFflags => exact h.execDxnFflags
  | dxnRngset => exact h.execDxnRngset
  | dxnVersion => exact h.execDxnVersion
  | dxnTime => exact h.execDxnTime
  | dxnWhoami => exact h.execDxnWhoami
  | dxnModid => exact h.execDxnModid
  | portEnable => exact h.execPortEnable
  | portDisable => exact h.execPortDisable
  | pcsLock => exact h.execPcsLock
  | pcsLoss => exact h.execPcsLoss
  | lldpReceive => exact h.execLldpReceive
  | wlxResend => exact h.execWlxResend
  | lldpPeriodic => exact h.execLldpPeriodic
  | discoveryTimeout => exact h.execDiscoveryTimeout
  | lldpTtlExpiry => exact h.execLldpTtlExpiry
  | creditFrameReceive => exact h.execCreditFrameReceive
  | creditFrameSend => exact h.execCreditFrameSend
  | keepaliveSend => exact h.execKeepaliveSend
  | keepaliveTimeout => exact h.execKeepaliveTimeout
  | tailAbortReceive => exact h.execTailAbortReceive
  | pfcFrameReceive => exact h.execPfcFrameReceive
  | pfcPauseExpiry => exact h.execPfcPauseExpiry
  | pfcXoffResend => exact h.execPfcXoffResend
  | pfcStorm => exact h.execPfcStorm
  | pfcWatchdogEnd => exact h.execPfcWatchdogEnd
  | holdExpiry => exact h.execHoldExpiry
  | laneReportReceive => exact h.execLaneReportReceive
  | laneReportSend => exact h.execLaneReportSend
  | frameReceive => exact h.execFrameReceive
  | internalFrame => exact h.execInternalFrame
  | transferQueueRelease => exact h.execTransferQueueRelease
  | meshCellArrival => exact h.execMeshCellArrival
  | reseqTimeout => exact h.execReseqTimeout
  | meshCellLost => exact h.execMeshCellLost
  | frameDequeue => exact h.execFrameDequeue
  | stomp => exact h.execStomp
  | auditPass => exact h.execAuditPass
  | sflowDatagramSend => exact h.execSflowDatagramSend
  | epochFlip => exact h.execEpochFlip
  | epochRetire => exact h.execEpochRetire
  | trieRebuilt => exact h.execTrieRebuilt
  | shadowCompareRow => exact h.execShadowCompareRow
  | shadowRecheck => exact h.execShadowRecheck
  | macAgeExpiry => exact h.execMacAgeExpiry
  | contribution => exact h.execContribution
  | retransmitRequest => exact h.execRetransmitRequest
  | abortNotice => exact h.execAbortNotice
  | barrierArrival => exact h.execBarrierArrival
  | stepDone => exact h.execStepDone
  | abortComplete => exact h.execAbortComplete
  | collectiveTimeout => exact h.execCollectiveTimeout
  | stepBudgetExpiry => exact h.execStepBudgetExpiry
  | applyReportTimeout => exact h.execApplyReportTimeout
  | retentionRelease => exact h.execRetentionRelease
  | abortCodeExpiry => exact h.execAbortCodeExpiry
  | channelTileReceive => exact h.execChannelTileReceive
  | basinEnable => exact h.execBasinEnable
  | basinDisable => exact h.execBasinDisable
  | basinAbort => exact h.execBasinAbort
  | tenonAssign => exact h.execTenonAssign
  | dmaStreamTile => exact h.execDmaStreamTile
  | lockLoopSample => exact h.execLockLoopSample
  | ringLockAttemptDone => exact h.execRingLockAttemptDone
  | orderCountDone => exact h.execOrderCountDone
  | setPointTrim => exact h.execSetPointTrim
  | relock => exact h.execRelock
  | optMeasure => exact h.execOptMeasure
  | optMeasureDone => exact h.execOptMeasureDone
  | laneClear => exact h.execLaneClear
  | circuitGrant => exact h.execCircuitGrant
  | circuitRelease => exact h.execCircuitRelease
  | circuitReleaseAll => exact h.execCircuitReleaseAll
  | splFlip => exact h.execSplFlip
  | spillwayFlipInstant => exact h.execSpillwayFlipInstant
  | slotBoundary => exact h.execSlotBoundary
  | gateEvaluate => exact h.execGateEvaluate
  | gateRecoverExpiry => exact h.execGateRecoverExpiry
  | fallbackBoundary => exact h.execFallbackBoundary
  | spillwayEnable => exact h.execSpillwayEnable
  | spillwayDisable => exact h.execSpillwayDisable
  | elementCheck => exact h.execElementCheck
  | circuitDark => exact h.execCircuitDark
  | ptpSync => exact h.execPtpSync
  | ptpFollowUp => exact h.execPtpFollowUp
  | ptpDelayReq => exact h.execPtpDelayReq
  | ptpDelayResp => exact h.execPtpDelayResp
  | ptpAnnounce => exact h.execPtpAnnounce
  | ptpTransmitInterval => exact h.execPtpTransmitInterval
  | announceTimeout => exact h.execAnnounceTimeout
  | syncLossTimeout => exact h.execSyncLossTimeout
  | ppsInEdge => exact h.execPpsInEdge
  | ppsMissingTimeout => exact h.execPpsMissingTimeout
  | ppsOutSecond => exact h.execPpsOutSecond
  | timeSet => exact h.execTimeSet
  | scrubRead => exact h.execScrubRead
  | alertRetry => exact h.execAlertRetry
  | areasEnable => exact h.execAreasEnable
  | bayDwellExpiry => exact h.execBayDwellExpiry
  | bayWake => exact h.execBayWake
  | bayWakeDone => exact h.execBayWakeDone
  | bayTolWrite => exact h.execBayTolWrite
  | railMonitorTrip => exact h.execRailMonitorTrip
  | railMonitorRelease => exact h.execRailMonitorRelease
  | romSelfTestDone => exact h.execRomSelfTestDone
  | bootImageCheck => exact h.execBootImageCheck
  | imageKeyWrite => exact h.execImageKeyWrite
  | secLock => exact h.execSecLock
  | wellheadPhaseDone => exact h.execWellheadPhaseDone
  | corePhaseDone => exact h.execCorePhaseDone
  | hbmTrainingDone => exact h.execHbmTrainingDone
  | ddrTrainingDone => exact h.execDdrTrainingDone
  | opticsPhaseDone => exact h.execOpticsPhaseDone
  | fwdEnable => exact h.execFwdEnable
  | fwdDisable => exact h.execFwdDisable
  | fwdDrained => exact h.execFwdDrained
  | enableCheckDone => exact h.execEnableCheckDone
  | cfgCommit => exact h.execCfgCommit
  | commitCheckDone => exact h.execCommitCheckDone
  | cfgDiscard => exact h.execCfgDiscard
  | registerWrite => exact h.execRegisterWrite
  | glbResetModule => exact h.execGlbResetModule
  | moduleResetEnd => exact h.execModuleResetEnd
  | glbResetWellhead => exact h.execGlbResetWellhead
  | wellheadWatchdog => exact h.execWellheadWatchdog
  | wellheadRestartDone => exact h.execWellheadRestartDone
  | heartbeat => exact h.execHeartbeat
  | health => exact h.execHealth
  | prepare => exact h.execPrepare
  | ready => exact h.execReady
  | planeCommit => exact h.execPlaneCommit
  | planeAbort => exact h.execPlaneAbort
  | done => exact h.execDone
  | circuit => exact h.execCircuit
  | circuitAnswer => exact h.execCircuitAnswer
  | planeFence => exact h.execPlaneFence
  | planeUnfence => exact h.execPlaneUnfence
  | ack => exact h.execAck
  | event => exact h.execEvent
  | sync => exact h.execSync
  | heartbeatSend => exact h.execHeartbeatSend
  | syncSend => exact h.execSyncSend
  | managerSilenceTimeout => exact h.execManagerSilenceTimeout
  | workerSilenceTimeout => exact h.execWorkerSilenceTimeout
  | pathSilenceTimeout => exact h.execPathSilenceTimeout
  | listenPeriodEnd => exact h.execListenPeriodEnd
  | promote => exact h.execPromote
  | planeFlip => exact h.execPlaneFlip
  | prepareResend => exact h.execPrepareResend
  | prepareDeadline => exact h.execPrepareDeadline
  | commitResend => exact h.execCommitResend
  | flipDoneDeadline => exact h.execFlipDoneDeadline
  | fenceRequest => exact h.execFenceRequest
  | fenceConfirm => exact h.execFenceConfirm
  | fenceResend => exact h.execFenceResend
  | loadWindow => exact h.execLoadWindow
  | ledgerCommitRequest => exact h.execLedgerCommitRequest
  | ledgerPeriodicCommit => exact h.execLedgerPeriodicCommit
  | ledgerCommitDone => exact h.execLedgerCommitDone
  | lifeSecond => exact h.execLifeSecond
  | lifeHour => exact h.execLifeHour
  | counterReaderVisit => exact h.execCounterReaderVisit
  | snapNow => exact h.execSnapNow
  | snapAtInstant => exact h.execSnapAtInstant
  | snapPeriodic => exact h.execSnapPeriodic
  | snapStop => exact h.execSnapStop
  | snapshotFreeze => exact h.execSnapshotFreeze
  | snapshotPublish => exact h.execSnapshotPublish
  | counterClear => exact h.execCounterClear
  | counterCopy => exact h.execCounterCopy
  | counterCopyDone => exact h.execCounterCopyDone
  | channelRetrained => exact h.execChannelRetrained
  | windowOpen => exact h.execWindowOpen
  | rcFieldRead => exact h.execRcFieldRead
  | timNowCapture => exact h.execTimNowCapture

end Sys2Proof.Machine

namespace Sys2Proof.Proofs
open Sys2Proof Sys2Proof.Machine

/-- Settles O4: `exec_keeps`, of which this is the first half. -/
theorem execKeepsQueue : Obligations.ExecKeepsQueue := by
  intro i s t ht
  exact (exec_keeps i s t ht).pending

/-- Settles O5: a tick or the front command keeps, and taking that command from the queue leaves both stores. -/
theorem stepKeepsCanonical : Obligations.StepKeepsCanonical := by
  intro s t hs ht
  unfold step at ht
  split at ht
  case h_1 =>
    cases ht
    exact (State.Keeps.refl s).tick.canonical hs
  case h_2 c rest _ =>
    exact (exec_keeps c { s with pending := rest } t ht).canonical hs

end Sys2Proof.Proofs
end
section
/-! SUPPORT. Registers after several writes: which registers a run of writes leaves as they read, and what a run of writes over
the elements of a register array leaves in each. -/

namespace Sys2Proof.Machine

variable {s t u : State} {l m : List Nat}

theorem State.fld_congr {o : Nat} (h : t.rd o = s.rd o) (f : Fld) : t.fld o f = s.fld o f := by rw [State.fld, h, State.fld]

theorem State.flag_congr {o : Nat} (h : t.rd o = s.rd o) (f : Fld) : t.flag o f = s.flag o f := by
  rw [State.flag, State.fld_congr h, State.flag]

theorem State.RegsBut.refl (s : State) (l : List Nat) : s.RegsBut s l := fun _ _ => rfl

theorem State.RegsBut.trans (h : s.RegsBut t l) (k : t.RegsBut u l) : s.RegsBut u l := fun o ho => (k o ho).trans (h o ho)

theorem State.RegsBut.mono (h : s.RegsBut t l) (hl : l ⊆ m) : s.RegsBut t m := fun o ho => h o fun hm => ho (hl hm)

theorem State.RegsBut.of_regs (h : t.regs = s.regs) (l : List Nat) : s.RegsBut t l := fun o _ => State.rd_congr h o

theorem State.wr_regsBut {off : Nat} (h : off ∈ l) (v : Word) : s.RegsBut (s.wr off v) l :=
  fun _ ho => s.rd_wr_of_ne v fun he => ho (he ▸ h)

theorem State.setFld_regsBut {off : Nat} (h : off ∈ l) (f : Fld) (v : Nat) : s.RegsBut (s.setFld off f v) l :=
  State.wr_regsBut h _

theorem State.RegsBut.wr {off : Nat} (h : s.RegsBut t l) (ho : off ∈ l) (v : Word) : s.RegsBut (t.wr off v) l :=
  h.trans (State.wr_regsBut ho v)

theorem State.RegsBut.setFld {off : Nat} (h : s.RegsBut t l) (ho : off ∈ l) (f : Fld) (v : Nat) :
    s.RegsBut (t.setFld off f v) l := h.wr ho _

theorem State.RegsBut.foldl {α : Type} {f : State → α → State} {xs : List α}
    (h : ∀ s : State, ∀ x ∈ xs, s.RegsBut (f s x) l)
    (s : State) : s.RegsBut (xs.foldl f s) l := by
  induction xs generalizing s with
  | nil => exact .refl s l
  | cons x t ih =>
    exact (h s x List.mem_cons_self).trans (ih (fun s y hy => h s y (List.mem_cons_of_mem x hy)) (f s x))

/-- What each step of a run keeps, the run keeps. -/
theorem foldl_keeps {σ α : Type} {P : σ → Prop} {f : σ → α → σ} {xs : List α} (h : ∀ s, ∀ x ∈ xs, P s → P (f s x)) {s : σ}
    (hs : P s) : P (xs.foldl f s) := by
  induction xs generalizing s with
  | nil => exact hs
  | cons x t ih => exact ih (fun s y hy => h s y (List.mem_cons_of_mem x hy)) (h s x List.mem_cons_self hs)

/-- After a run over different elements, what one of them settles and the others leave is as that element's step leaves it. -/
theorem foldl_settles_at {σ α β : Type} {P : σ → Prop} {f : σ → α → σ} {get : σ → β} {v : β} {xs : List α} {x : α}
    (hnodup : xs.Nodup) (hP : ∀ s, ∀ y ∈ xs, P s → P (f s y)) (hself : ∀ s, P s → get (f s x) = v)
    (hother : ∀ s, ∀ y ∈ xs, y ≠ x → get (f s y) = get s) {s : σ} (hs : P s) (hx : x ∈ xs) : get (xs.foldl f s) = v := by
  induction xs generalizing s with
  | nil => simp at hx
  | cons y t ih =>
    obtain ⟨hy, ht⟩ := List.nodup_cons.1 hnodup
    have hP' : ∀ s, ∀ z ∈ t, P s → P (f s z) := fun s z hz => hP s z (List.mem_cons_of_mem y hz)
    have hother' : ∀ s, ∀ z ∈ t, z ≠ x → get (f s z) = get s := fun s z hz => hother s z (List.mem_cons_of_mem y hz)
    rw [List.foldl_cons]
    by_cases hxt : x ∈ t
    · exact ih ht hP' hother' (hP s y List.mem_cons_self hs) hxt
    · obtain rfl : x = y := by simpa [hxt] using hx
      refine foldl_keeps (P := fun u => get u = v) (fun u z hz hu => ?_) (hself s hs)
      exact (hother' u z hz fun h => hxt (h ▸ hz)).trans hu

/-- After a run over different elements, of which each step settles its own element and leaves the others, every element is as
its own step leaves it. -/
theorem foldl_settles {σ α β : Type} {P : σ → Prop} {f : σ → α → σ} {get : σ → α → β} {v : α → β} {xs : List α}
    (hnodup : xs.Nodup) (hP : ∀ s, ∀ x ∈ xs, P s → P (f s x)) (hself : ∀ s, ∀ x ∈ xs, P s → get (f s x) x = v x)
    (hother : ∀ s, ∀ x ∈ xs, ∀ y, y ≠ x → get (f s x) y = get s y) {s : σ} (hs : P s) {x : α} (hx : x ∈ xs) :
    get (xs.foldl f s) x = v x :=
  foldl_settles_at (get := fun u => get u x) hnodup hP (fun u hu => hself u x hx hu)
    (fun u y hy hyx => hother u y hy x (Ne.symm hyx)) hs hx

/-! ## Logs and interrupts -/

theorem State.regsWf_congr (h : t.regs = s.regs) (hs : s.regsWf = true) : t.regsWf = true := by
  rw [State.regsWf, h]
  exact hs

/-- An entry of a log changes the count and the entries alone. -/
theorem State.logEntry_rd {head : Nat} {entry info : Nat → Nat} {size o : Nat} (s : State) (a b : Word) (hsize : 0 < size)
    (hhead : o ≠ head) (hentry : ∀ k, k < size → o ≠ entry k ∧ o ≠ info k) :
    (s.logEntry head entry info size a b).rd o = s.rd o := by
  obtain ⟨ha, hb⟩ := hentry _ (Nat.mod_lt (s.fld head ⟨0, 32⟩) hsize)
  unfold State.logEntry
  exact (State.rd_setFld_of_ne _ _ _ hhead).trans ((State.rd_wr_of_ne _ _ hb).trans (State.rd_wr_of_ne _ _ ha))

theorem State.logEntry_regsWf {head : Nat} {entry info : Nat → Nat} {size : Nat} (a b : Word) (h : s.regsWf = true) :
    (s.logEntry head entry info size a b).regsWf = true := by
  unfold State.logEntry
  exact State.setFld_regsWf _ _ _ _ (State.wr_regsWf _ _ _ (State.wr_regsWf _ _ _ h))

/-- An entry of a log that raises a message changes registers, what is sent and what is counted. -/
theorem State.logEntry_raise_frame (s : State) (head : Nat) (entry info : Nat → Nat) (size v : Nat) (a b : Word) :
    (s.logEntry head entry info size a b).raise v = { s with
      regs := ((s.logEntry head entry info size a b).raise v).regs, out := ((s.logEntry head entry info size a b).raise v).out
      cnt := ((s.logEntry head entry info size a b).raise v).cnt } := rfl

theorem State.memEvent_frame (s : State) (kind a : Nat) : s.memEvent kind a = { s with
    regs := (s.memEvent kind a).regs, out := (s.memEvent kind a).out, cnt := (s.memEvent kind a).cnt } := by
  unfold State.memEvent
  exact s.logEntry_raise_frame ..

theorem State.thmEvent_frame (s : State) (kind place fromT toT pace : Nat) : s.thmEvent kind place fromT toT pace = { s with
    regs := (s.thmEvent kind place fromT toT pace).regs, out := (s.thmEvent kind place fromT toT pace).out
    cnt := (s.thmEvent kind place fromT toT pace).cnt } := by
  unfold State.thmEvent
  exact s.logEntry_raise_frame ..

theorem State.splEvent_frame (s : State) (kind cause engine ring circuit : Nat) : s.splEvent kind cause engine ring circuit =
    { s with regs := (s.splEvent kind cause engine ring circuit).regs, out := (s.splEvent kind cause engine ring circuit).out
             cnt := (s.splEvent kind cause engine ring circuit).cnt } := by
  unfold State.splEvent
  exact s.logEntry_raise_frame ..

/-- A MEM event is recorded in its log alone, whose registers lie from MEM_EVENT on. -/
theorem State.memEvent_rd {o : Nat} (s : State) (kind a : Nat) (hhead : o ≠ R.MEM_EVENT_HEAD)
    (ho : o < R.MEM_EVENT 0 ∨ R.MEM_EVENT 128 ≤ o) : (s.memEvent kind a).rd o = s.rd o := by
  unfold State.memEvent
  refine (State.raise_rd _ _ _).trans (State.logEntry_rd _ _ _ (by decide) hhead fun k hk => ?_)
  simp only [R.MEM_EVENT, R.MEM_EVENT_ADDR] at ho ⊢
  omega

/-- A THM event is recorded in its log alone. -/
theorem State.thmEvent_rd {o : Nat} (s : State) (kind place fromT toT pace : Nat) (hhead : o ≠ R.THM_EVENT_HEAD)
    (ho : o < R.THM_EVENT 0 ∨ R.THM_EVENT 64 ≤ o) : (s.thmEvent kind place fromT toT pace).rd o = s.rd o := by
  unfold State.thmEvent
  refine (State.raise_rd _ _ _).trans (State.logEntry_rd _ _ _ (by decide) hhead fun k hk => ?_)
  simp only [R.THM_EVENT, R.THM_EVENT_INFO] at ho ⊢
  omega

theorem State.thmEvent_regsWf (kind place fromT toT pace : Nat) (h : s.regsWf = true) :
    (s.thmEvent kind place fromT toT pace).regsWf = true := by
  unfold State.thmEvent
  exact State.regsWf_congr (State.raise_regs _ _) (State.logEntry_regsWf _ _ h)

/-- A SPL event is recorded in its log alone. -/
theorem State.splEvent_rd {o : Nat} (s : State) (kind cause engine ring circuit : Nat) (hhead : o ≠ R.SPL_EVENT_HEAD)
    (ho : o < R.SPL_EVENT 0 ∨ R.SPL_EVENT 256 ≤ o) : (s.splEvent kind cause engine ring circuit).rd o = s.rd o := by
  unfold State.splEvent
  refine (State.raise_rd _ _ _).trans (State.logEntry_rd _ _ _ (by decide) hhead fun k hk => ?_)
  simp only [R.SPL_EVENT, R.SPL_EVENT_INFO] at ho ⊢
  omega

theorem State.splEvent_regsWf (kind cause engine ring circuit : Nat) (h : s.regsWf = true) :
    (s.splEvent kind cause engine ring circuit).regsWf = true := by
  unfold State.splEvent
  exact State.regsWf_congr (State.raise_regs _ _) (State.logEntry_regsWf _ _ h)

theorem State.memEvent_regsWf (kind a : Nat) (h : s.regsWf = true) : (s.memEvent kind a).regsWf = true := by
  unfold State.memEvent
  exact State.regsWf_congr (State.raise_regs _ _) (State.logEntry_regsWf _ _ h)

end Sys2Proof.Machine
end

section
/-! PROOF. Every command answers a next state (spec/00): each arm of `exec` ends in one on all of its branches. -/

namespace Sys2Proof.Proofs
open Sys2Proof Sys2Proof.Machine

/-- A command answers a next state. -/
def Answered (o : Out) : Prop := ∃ t, o = .next t

theorem Answered.next {t : State} : Answered (.next t) := ⟨t, rfl⟩

theorem Answered.ite {c : Prop} [Decidable c] {o o' : Out} (ho : Answered o) (ho' : Answered o') :
    Answered (if c then o else o') := by
  split
  · exact ho
  · exact ho'

/-! ## Messages of a plane -/

theorem answered_planeIn (s : State) (port kind : Nat) (m : Bytes) (k : State → Word → Bytes → State) :
    Answered (s.planeIn port kind m k) :=
  .ite .next (.ite .next (.ite .next (.ite .next (.ite .next .next))))

theorem answered_fromManager (s : State) (port kind : Nat) (m : Bytes) (k : State → Bytes → State) :
    Answered (s.fromManager port kind m k) := answered_planeIn ..

theorem answered_fromWorker (s : State) (port kind : Nat) (m : Bytes) (k : State → Nat → Bytes → State) :
    Answered (s.fromWorker port kind m k) := answered_planeIn ..

/-! ## Commands that look an item, a context or a message up before they act -/

theorem answered_execPowerDown (s : State) :
    Answered (execPowerDown s) := by
  unfold execPowerDown
  dsimp only
  repeat' split
  all_goals exact .next

theorem answered_execModRstNLow (s : State) :
    Answered (execModRstNLow s) := by
  unfold execModRstNLow
  dsimp only
  repeat' split
  all_goals exact .next

theorem answered_execPairingCheckResult (e : Fin 32) (light : BitVec 32) (s : State) :
    Answered (execPairingCheckResult e light s) := by
  unfold execPairingCheckResult
  dsimp only
  repeat' split
  all_goals exact .next

theorem answered_execSensorSample (sample : SensorSample) (s : State) :
    Answered (execSensorSample sample s) := by
  unfold execSensorSample
  dsimp only
  repeat' split
  all_goals exact .next

theorem answered_execSupplyLoopEval (q : Fin 4) (s : State) :
    Answered (execSupplyLoopEval q s) := by
  unfold execSupplyLoopEval
  dsimp only
  repeat' split
  all_goals exact .next

theorem answered_execLinkTrain (trains : BitVec 6) (lopt : Bool) (s : State) :
    Answered (execLinkTrain trains lopt s) := by
  unfold execLinkTrain
  dsimp only
  repeat' split
  all_goals exact .next

theorem answered_execLinkRetrain (trains : BitVec 6) (lopt : Bool) (s : State) :
    Answered (execLinkRetrain trains lopt s) := by
  unfold execLinkRetrain
  dsimp only
  repeat' split
  all_goals exact .next

theorem answered_execDescriptorArrival (r : Fin 1024) (read : HostRead) (s : State) :
    Answered (execDescriptorArrival r read s) := by
  unfold execDescriptorArrival
  dsimp only
  repeat' split
  all_goals exact .next

theorem answered_execDescriptorAdmit (item : Nat) (s : State) :
    Answered (execDescriptorAdmit item s) := by
  unfold execDescriptorAdmit
  dsimp only
  repeat' split
  all_goals exact .next

theorem answered_execDescriptorNop (item : Nat) (s : State) :
    Answered (execDescriptorNop item s) := by
  unfold execDescriptorNop
  repeat' split
  all_goals exact .next

theorem answered_execDescriptorRun (item : Nat) (s : State) :
    Answered (execDescriptorRun item s) := by
  unfold execDescriptorRun
  dsimp only
  repeat' split
  all_goals exact .next

theorem answered_execDescriptorAbort (item : Nat) (s : State) :
    Answered (execDescriptorAbort item s) := by
  unfold execDescriptorAbort
  dsimp only
  repeat' split
  all_goals exact .next

theorem answered_execParkedWaitSatisfied (item : Nat) (s : State) :
    Answered (execParkedWaitSatisfied item s) := by
  unfold execParkedWaitSatisfied
  repeat' split
  all_goals exact .next

theorem answered_execDescriptorWaitTimeout (item : Nat) (s : State) :
    Answered (execDescriptorWaitTimeout item s) := by
  unfold execDescriptorWaitTimeout
  repeat' split
  all_goals exact .next

theorem answered_execImageReadComplete (n : Fin 64) (read : HostRead) (errs : List LineErr) (s : State) :
    Answered (execImageReadComplete n read errs s) := by
  unfold execImageReadComplete
  dsimp only
  repeat' split
  all_goals exact .next

theorem answered_execWorkCompletion (item : Nat) (s : State) :
    Answered (execWorkCompletion item s) := by
  unfold execWorkCompletion
  dsimp only
  repeat' split
  all_goals exact .next

theorem answered_execCqHeadptrReread (c : Fin 256) (read : HostRead) (s : State) :
    Answered (execCqHeadptrReread c read s) := by
  unfold execCqHeadptrReread
  dsimp only
  repeat' split
  all_goals exact .next

theorem answered_execStreamTileArrival (q : Fin 4) (row : Fin 30) (col : Fin 32) (port : Fin 4) (s : State) :
    Answered (execStreamTileArrival q row col port s) := by
  unfold execStreamTileArrival
  dsimp only
  repeat' split
  all_goals exact .next

theorem answered_execPegWaitSatisfied (c : Ctx) (s : State) :
    Answered (execPegWaitSatisfied c s) := by
  unfold execPegWaitSatisfied
  repeat' split
  all_goals exact .next

theorem answered_execPegWaitTimeout (c : Ctx) (s : State) :
    Answered (execPegWaitTimeout c s) := by
  unfold execPegWaitTimeout
  repeat' split
  all_goals exact .next

theorem answered_execFarPegRetry (op : Nat) (s : State) :
    Answered (execFarPegRetry op s) := by
  unfold execFarPegRetry
  repeat' split
  all_goals exact .next

theorem answered_execInternalFrame (q : Fin 4) (errs : List TableErr) (s : State) :
    Answered (execInternalFrame q errs s) := by
  unfold execInternalFrame
  dsimp only
  repeat' split
  all_goals exact .next

theorem answered_execFrameDequeue (p : Fin 2048) (capture : TimeStamp) (errs : List TableErr) (s : State) :
    Answered (execFrameDequeue p capture errs s) := by
  unfold execFrameDequeue
  dsimp only
  repeat' split
  all_goals exact .next

theorem answered_execStomp (p : Fin 2048) (reason : BitVec 8) (sent : Nat) (s : State) :
    Answered (execStomp p reason sent s) := by
  unfold execStomp
  dsimp only
  repeat' split
  all_goals exact .next

theorem answered_execShadowCompareRow (read : HostRead) (errs : List LineErr) (found : List TableErr) (s : State) :
    Answered (execShadowCompareRow read errs found s) := by
  unfold execShadowCompareRow
  dsimp only
  repeat' split
  all_goals exact .next

theorem answered_execShadowRecheck (read : HostRead) (errs : List LineErr) (found : List TableErr) (s : State) :
    Answered (execShadowRecheck read errs found s) := by
  unfold execShadowRecheck
  dsimp only
  repeat' split
  all_goals exact .next

theorem answered_execBootImageCheck (s : State) :
    Answered (execBootImageCheck s) := by
  unfold execBootImageCheck
  dsimp only
  repeat' split
  all_goals exact .next

theorem answered_execEnableCheckDone (s : State) :
    Answered (execEnableCheckDone s) := by
  unfold execEnableCheckDone
  dsimp only
  repeat' split
  all_goals exact .next

theorem answered_execCommitCheckDone (errs : List LineErr) (s : State) :
    Answered (execCommitCheckDone errs s) := by
  unfold execCommitCheckDone
  dsimp only
  repeat' split
  all_goals exact .next

theorem answered_execHeartbeat (port : Fin 2) (msg : Bytes) (s : State) :
    Answered (execHeartbeat port msg s) := by
  unfold execHeartbeat
  exact answered_planeIn ..

theorem answered_execHealth (port : Fin 2) (msg : Bytes) (s : State) :
    Answered (execHealth port msg s) := by
  unfold execHealth
  exact answered_fromWorker ..

theorem answered_execPrepare (port : Fin 2) (msg : Bytes) (s : State) :
    Answered (execPrepare port msg s) := by
  unfold execPrepare
  exact answered_fromManager ..

theorem answered_execReady (port : Fin 2) (msg : Bytes) (s : State) :
    Answered (execReady port msg s) := by
  unfold execReady
  exact answered_fromWorker ..

theorem answered_execPlaneCommit (port : Fin 2) (msg : Bytes) (s : State) :
    Answered (execPlaneCommit port msg s) := by
  unfold execPlaneCommit
  exact answered_fromManager ..

theorem answered_execPlaneAbort (port : Fin 2) (msg : Bytes) (s : State) :
    Answered (execPlaneAbort port msg s) := by
  unfold execPlaneAbort
  exact answered_fromManager ..

theorem answered_execDone (port : Fin 2) (msg : Bytes) (s : State) :
    Answered (execDone port msg s) := by
  unfold execDone
  exact answered_fromWorker ..

theorem answered_execCircuit (port : Fin 2) (msg : Bytes) (s : State) :
    Answered (execCircuit port msg s) := by
  unfold execCircuit
  exact answered_fromManager ..

theorem answered_execCircuitAnswer (port : Fin 2) (msg : Bytes) (s : State) :
    Answered (execCircuitAnswer port msg s) := by
  unfold execCircuitAnswer
  exact answered_fromWorker ..

theorem answered_execPlaneFence (port : Fin 2) (msg : Bytes) (s : State) :
    Answered (execPlaneFence port msg s) := by
  unfold execPlaneFence
  exact answered_fromManager ..

theorem answered_execPlaneUnfence (port : Fin 2) (msg : Bytes) (s : State) :
    Answered (execPlaneUnfence port msg s) := by
  unfold execPlaneUnfence
  exact answered_fromManager ..

theorem answered_execAck (port : Fin 2) (msg : Bytes) (s : State) :
    Answered (execAck port msg s) := by
  unfold execAck
  exact answered_fromWorker ..

theorem answered_execEvent (port : Fin 2) (msg : Bytes) (s : State) :
    Answered (execEvent port msg s) := by
  unfold execEvent
  exact answered_fromWorker ..

theorem answered_execSync (port : Fin 2) (msg : Bytes) (s : State) :
    Answered (execSync port msg s) := by
  unfold execSync
  exact answered_fromManager ..

theorem answered_execPrepareResend (s : State) :
    Answered (execPrepareResend s) := by
  unfold execPrepareResend
  repeat' split
  all_goals exact .next

theorem answered_execPrepareDeadline (s : State) :
    Answered (execPrepareDeadline s) := by
  unfold execPrepareDeadline
  dsimp only
  repeat' split
  all_goals exact .next

theorem answered_execCommitResend (s : State) :
    Answered (execCommitResend s) := by
  unfold execCommitResend
  repeat' split
  all_goals exact .next

theorem answered_execFlipDoneDeadline (s : State) :
    Answered (execFlipDoneDeadline s) := by
  unfold execFlipDoneDeadline
  repeat' split
  all_goals exact .next

theorem answered_execLedgerCommitDone (ok : Bool) (s : State) :
    Answered (execLedgerCommitDone ok s) := by
  unfold execLedgerCommitDone
  dsimp only
  repeat' split
  all_goals exact .next

theorem answered_execLifeHour (s : State) :
    Answered (execLifeHour s) := by
  unfold execLifeHour
  dsimp only
  repeat' split
  all_goals exact .next

theorem answered_execSnapshotPublish (s : State) :
    Answered (execSnapshotPublish s) := by
  unfold execSnapshotPublish
  dsimp only
  repeat' split
  all_goals exact .next

theorem answered_execCounterCopyDone (s : State) :
    Answered (execCounterCopyDone s) := by
  unfold execCounterCopyDone
  dsimp only
  repeat' split
  all_goals exact .next

/-! ## Every command -/

theorem exec_answers (i : Instr) (s : State) : Answered (exec i s) := by
  cases i with
  | powerUp => exact .next
  | bulkCharged => exact .ite .next .next
  | modRstNRise => exact .next
  | perstNRelease => exact .next
  | perstNAssert => exact .next
  | powerDown => exact answered_execPowerDown ..
  | pfailNLow => exact .next
  | bladePairLoss => exact .next
  | pairShareTimeout => exact .ite .next .next
  | inputSagDetect => exact .next
  | conversionStop => exact .ite .next .next
  | inputRecovered => exact .next
  | modRstNLow => exact answered_execModRstNLow ..
  | lasIntNFall => exact .ite .next .next
  | laserPoll => exact .ite .next .next
  | pairingCheckStart => exact .ite .next .next
  | pairingCheckResult => exact answered_execPairingCheckResult ..
  | laserRampDone => exact .ite .next .next
  | sensorSample => exact answered_execSensorSample ..
  | monitorWindowEnd => exact .ite .next .next
  | supplyLoopEval => exact answered_execSupplyLoopEval ..
  | sillPulse => exact .next
  | sillAcknowledge => exact .next
  | silInject => exact .next
  | injectionDone => exact .next
  | linkTrain => exact answered_execLinkTrain ..
  | linkRetrain => exact answered_execLinkRetrain ..
  | linkDown => exact .next
  | d3hotEntry => exact .next
  | d0Return => exact .ite .next .next
  | barMisalignedAccess => exact .ite .next (.ite .next (.ite .next .next))
  | pegBar2Set => exact .next
  | pegBar2Add => exact .next
  | hostMemRead => exact .ite .next (.ite .next .next)
  | hostMemWrite => exact .ite .next .next
  | ringEnable => exact .next
  | ringDisable => exact .next
  | ringDrained => exact .next
  | cqEnable => exact .next
  | cqDisable => exact .next
  | watchedLineSnoop => exact .ite .next .next
  | watchedLineData => exact .ite .next .next
  | watchPoll => exact .ite .next .next
  | descriptorArrival => exact answered_execDescriptorArrival ..
  | descriptorAdmit => exact answered_execDescriptorAdmit ..
  | descriptorNop => exact answered_execDescriptorNop ..
  | descriptorRun => exact answered_execDescriptorRun ..
  | descriptorAbort => exact answered_execDescriptorAbort ..
  | parkedWaitSatisfied => exact answered_execParkedWaitSatisfied ..
  | descriptorWaitTimeout => exact answered_execDescriptorWaitTimeout ..
  | imageReadComplete => exact answered_execImageReadComplete ..
  | workCompletion => exact answered_execWorkCompletion ..
  | cqHeadptrReread => exact answered_execCqHeadptrReread ..
  | cqStallTimeout => exact .next
  | ideFailure => exact .next
  | mctpMessage => exact .ite .next .next
  | identify => exact .next
  | getEventRecords => exact .next
  | clearEventRecords => exact .next
  | getSupportedLogs => exact .next
  | getLog => exact .next
  | getFwInfo => exact .ite .next .next
  | transferFw => exact .next
  | activateFw => exact .next
  | getTimestamp => exact .next
  | mailboxUnsupported => exact .next
  | getAttestation => exact .next
  | getIdentityCert => exact .next
  | provisionPsk => exact .next
  | revokeSlot => exact .next
  | commitSvn => exact .next
  | extendMeasurement => exact .next
  | pskExchange => exact .next
  | getMeasurements => exact .next
  | keyProg => exact .next
  | kSetGo => exact .next
  | kSetStop => exact .next
  | pegAssign => exact .ite .next .next
  | cacheFlush => exact .next
  | dxnAdd => exact .next
  | dxnSub => exact .next
  | dxnMul => exact .next
  | dxnMulh => exact .next
  | dxnDiv => exact .next
  | dxnRem => exact .next
  | dxnMin => exact .next
  | dxnMax => exact .next
  | dxnAnd => exact .next
  | dxnOr => exact .next
  | dxnXor => exact .next
  | dxnShl => exact .next
  | dxnShr => exact .next
  | dxnSra => exact .next
  | dxnFma => exact .next
  | dxnCmp => exact .next
  | dxnSel => exact .next
  | dxnCvt => exact .next
  | dxnMovi => exact .next
  | dxnMovhi => exact .next
  | dxnAddi => exact .next
  | dxnAndi => exact .next
  | dxnOri => exact .next
  | dxnXori => exact .next
  | dxnShli => exact .next
  | dxnShri => exact .next
  | dxnSrai => exact .next
  | dxnCmpi => exact .next
  | dxnPlog => exact .next
  | dxnPmov => exact .next
  | dxnVadd => exact .next
  | dxnVsub => exact .next
  | dxnVmul => exact .next
  | dxnVfma => exact .next
  | dxnVmin => exact .next
  | dxnVmax => exact .next
  | dxnVdiv => exact .next
  | dxnVsqrt => exact .next
  | dxnVand => exact .next
  | dxnVor => exact .next
  | dxnVxor => exact .next
  | dxnVshl => exact .next
  | dxnVshr => exact .next
  | dxnVsra => exact .next
  | dxnVcmp => exact .next
  | dxnVsel => exact .next
  | dxnVcvt => exact .next
  | dxnVbcast => exact .next
  | dxnVext => exact .next
  | dxnVins => exact .next
  | dxnVred => exact .next
  | dxnVrand => exact .next
  | dxnMma => exact .next
  | dxnAzero => exact .next
  | dxnAload => exact .next
  | dxnAcvt => exact .next
  | dxnTrd => exact .next
  | dxnTwr => exact .next
  | dxnArd => exact .next
  | dxnAwr => exact .next
  | dxnTtrans => exact .next
  | dxnTcvt => exact .next
  | dxnTzero => exact .next
  | dxnTgen => exact .next
  | dxnSend => exact .next
  | dxnRecv => exact .next
  | dxnSendm => exact .next
  | dxnRecvm => exact .next
  | dxnSpoll => exact .next
  | streamTileArrival => exact answered_execStreamTileArrival ..
  | dxnPegAdd => exact .next
  | dxnPegSet => exact .next
  | dxnPegWaitGe => exact .next
  | dxnPegWaitEq => exact .next
  | dxnPegArmTimeout => exact .next
  | pegWaitSatisfied => exact answered_execPegWaitSatisfied ..
  | pegWaitTimeout => exact answered_execPegWaitTimeout ..
  | dxnBind => exact .next
  | dxnFarset => exact .next
  | dxnFence => exact .next
  | dxnPegrd => exact .next
  | farPegRequest => exact .next
  | farPegAck => exact .next
  | farPegRetry => exact answered_execFarPegRetry ..
  | farPegEntryEvict => exact .next
  | dxnLd => exact .next
  | dxnLds => exact .next
  | dxnSt => exact .next
  | dxnVld => exact .next
  | dxnVst => exact .next
  | dxnTld => exact .next
  | dxnTst => exact .next
  | dxnMove => exact .next
  | dxnFill => exact .next
  | dxnXmove => exact .next
  | dxnTdma => exact .next
  | longOpComplete => exact .next
  | dxnBr => exact .next
  | dxnJr => exact .next
  | dxnDbnz => exact .next
  | dxnEnd => exact .next
  | contextEnd => exact .next
  | runLimitExpiry => exact .next
  | dxnCacc => exact .next
  | dxnCemit => exact .next
  | dxnCgath => exact .next
  | dxnCapply => exact .next
  | dxnCbar => exact .next
  | dxnCring => exact .next
  | dxnCabort => exact .next
  | dxnCstat => exact .next
  | dxnTstart => exact .next
  | dxnBstart => exact .next
  | dxnTruss => exact .next
  | dxnUntruss => exact .next
  | dxnSeglock => exact .next
  | dxnSegpub => exact .next
  | dxnCommit => exact .next
  | dxnEflip => exact .next
  | dxnPassign => exact .next
  | dxnTstop => exact .next
  | dxnNop => exact .next
  | dxnTrap => exact .next
  | dxnFflags => exact .next
  | dxnRngset => exact .next
  | dxnVersion => exact .next
  | dxnTime => exact .next
  | dxnWhoami => exact .next
  | dxnModid => exact .next
  | portEnable => exact .next
  | portDisable => exact .next
  | pcsLock => exact .ite .next (.ite .next .next)
  | pcsLoss => exact .next
  | lldpReceive => exact .next
  | wlxResend => exact .next
  | lldpPeriodic => exact .next
  | discoveryTimeout => exact .ite .next (.ite .next .next)
  | lldpTtlExpiry => exact .next
  | creditFrameReceive => exact .next
  | creditFrameSend => exact .next
  | keepaliveSend => exact .next
  | keepaliveTimeout => exact .next
  | tailAbortReceive => exact .next
  | pfcFrameReceive => exact .next
  | pfcPauseExpiry => exact .next
  | pfcXoffResend => exact .next
  | pfcStorm => exact .next
  | pfcWatchdogEnd => exact .next
  | holdExpiry => exact .next
  | laneReportReceive => exact .next
  | laneReportSend => exact .ite .next .next
  | frameReceive => exact .ite .next .next
  | internalFrame => exact answered_execInternalFrame ..
  | transferQueueRelease => exact .next
  | meshCellArrival => exact .next
  | reseqTimeout => exact .next
  | meshCellLost => exact .next
  | frameDequeue => exact answered_execFrameDequeue ..
  | stomp => exact answered_execStomp ..
  | auditPass => exact .ite .next .next
  | sflowDatagramSend => exact .ite .next .next
  | epochFlip => exact .next
  | epochRetire => exact .ite .next .next
  | trieRebuilt => exact .next
  | shadowCompareRow => exact answered_execShadowCompareRow ..
  | shadowRecheck => exact answered_execShadowRecheck ..
  | macAgeExpiry => exact .next
  | contribution => exact .next
  | retransmitRequest => exact .next
  | abortNotice => exact .next
  | barrierArrival => exact .next
  | stepDone => exact .next
  | abortComplete => exact .next
  | collectiveTimeout => exact .next
  | stepBudgetExpiry => exact .next
  | applyReportTimeout => exact .ite .next .next
  | retentionRelease => exact .next
  | abortCodeExpiry => exact .next
  | channelTileReceive => exact .next
  | basinEnable => exact .next
  | basinDisable => exact .next
  | basinAbort => exact .next
  | tenonAssign => exact .ite .next .next
  | dmaStreamTile => exact .next
  | lockLoopSample => exact .ite .next .next
  | ringLockAttemptDone => exact .ite .next (.ite .next .next)
  | orderCountDone => exact .ite .next .next
  | setPointTrim => exact .next
  | relock => exact .next
  | optMeasure => exact .next
  | optMeasureDone => exact .ite .next .next
  | laneClear => exact .next
  | circuitGrant => exact .next
  | circuitRelease => exact .next
  | circuitReleaseAll => exact .next
  | splFlip => exact .next
  | spillwayFlipInstant => exact .next
  | slotBoundary => exact .next
  | gateEvaluate => exact .next
  | gateRecoverExpiry => exact .ite .next .next
  | fallbackBoundary => exact .next
  | spillwayEnable => exact .next
  | spillwayDisable => exact .next
  | elementCheck => exact .ite .next .next
  | circuitDark => exact .ite .next (.ite (.ite .next .next) .next)
  | ptpSync => exact .next
  | ptpFollowUp => exact .next
  | ptpDelayReq => exact .next
  | ptpDelayResp => exact .next
  | ptpAnnounce => exact .next
  | ptpTransmitInterval => exact .next
  | announceTimeout => exact .next
  | syncLossTimeout => exact .next
  | ppsInEdge => exact .ite .next .next
  | ppsMissingTimeout => exact .ite .next .next
  | ppsOutSecond => exact .next
  | timeSet => exact .next
  | scrubRead => exact .ite .next (.ite .next .next)
  | alertRetry => exact .ite .next .next
  | areasEnable => exact .next
  | bayDwellExpiry => exact .ite .next .next
  | bayWake => exact .next
  | bayWakeDone => exact .ite .next .next
  | bayTolWrite => exact .next
  | railMonitorTrip => exact .ite .next .next
  | railMonitorRelease => exact .ite .next .next
  | romSelfTestDone => exact .ite .next .next
  | bootImageCheck => exact answered_execBootImageCheck ..
  | imageKeyWrite => exact .next
  | secLock => exact .next
  | wellheadPhaseDone => exact .ite .next .next
  | corePhaseDone => exact .ite .next .next
  | hbmTrainingDone => exact .ite .next .next
  | ddrTrainingDone => exact .ite .next .next
  | opticsPhaseDone => exact .ite .next .next
  | fwdEnable => exact .next
  | fwdDisable => exact .next
  | fwdDrained => exact .next
  | enableCheckDone => exact answered_execEnableCheckDone ..
  | cfgCommit => exact .next
  | commitCheckDone => exact answered_execCommitCheckDone ..
  | cfgDiscard => exact .next
  | registerWrite => exact .next
  | glbResetModule => exact .next
  | moduleResetEnd => exact .ite .next .next
  | glbResetWellhead => exact .next
  | wellheadWatchdog => exact .next
  | wellheadRestartDone => exact .ite .next .next
  | heartbeat => exact answered_execHeartbeat ..
  | health => exact answered_execHealth ..
  | prepare => exact answered_execPrepare ..
  | ready => exact answered_execReady ..
  | planeCommit => exact answered_execPlaneCommit ..
  | planeAbort => exact answered_execPlaneAbort ..
  | done => exact answered_execDone ..
  | circuit => exact answered_execCircuit ..
  | circuitAnswer => exact answered_execCircuitAnswer ..
  | planeFence => exact answered_execPlaneFence ..
  | planeUnfence => exact answered_execPlaneUnfence ..
  | ack => exact answered_execAck ..
  | event => exact answered_execEvent ..
  | sync => exact answered_execSync ..
  | heartbeatSend => exact .ite .next .next
  | syncSend => exact .ite .next .next
  | managerSilenceTimeout => exact .ite .next .next
  | workerSilenceTimeout => exact .ite .next .next
  | pathSilenceTimeout => exact .ite .next .next
  | listenPeriodEnd => exact .next
  | promote => exact .next
  | planeFlip => exact .next
  | prepareResend => exact answered_execPrepareResend ..
  | prepareDeadline => exact answered_execPrepareDeadline ..
  | commitResend => exact answered_execCommitResend ..
  | flipDoneDeadline => exact answered_execFlipDoneDeadline ..
  | fenceRequest => exact .next
  | fenceConfirm => exact .next
  | fenceResend => exact .ite .next .next
  | loadWindow => exact .ite .next (.ite .next .next)
  | ledgerCommitRequest => exact .next
  | ledgerPeriodicCommit => exact .ite .next .next
  | ledgerCommitDone => exact answered_execLedgerCommitDone ..
  | lifeSecond => exact .ite .next .next
  | lifeHour => exact answered_execLifeHour ..
  | counterReaderVisit => exact .ite .next .next
  | snapNow => exact .next
  | snapAtInstant => exact .next
  | snapPeriodic => exact .next
  | snapStop => exact .next
  | snapshotFreeze => exact .next
  | snapshotPublish => exact answered_execSnapshotPublish ..
  | counterClear => exact .next
  | counterCopy => exact .next
  | counterCopyDone => exact answered_execCounterCopyDone ..
  | channelRetrained => exact .next
  | windowOpen => exact .ite .next .next
  | rcFieldRead => exact .next
  | timNowCapture => exact .next

/-- Settles O3: no arm of `exec` ends in a fault or a refusal. -/
theorem everyCommandCompletes : Obligations.EveryCommandCompletes := by
  intro i s
  obtain ⟨t, ht⟩ := exec_answers i s
  exact ⟨t, ht, trivial⟩

end Sys2Proof.Proofs
end

section
/-! PROOF. A step (spec/00, spec/12): the front command, or a tick of the time base; and the state at reset. -/

namespace Sys2Proof.Proofs
open Sys2Proof Sys2Proof.Machine

/-- Settles O1: a step of a queue that is not empty is `exec` of its front command. -/
theorem stepRunsFront : Obligations.StepRunsFront := fun _ _ _ => rfl

/-- Settles O6: at reset both stores are empty, and an empty store reads the default everywhere. -/
theorem resetCanonical : Obligations.ResetCanonical :=
  ⟨⟨State.reset_regsWf, State.reset_mem_wf⟩, rfl, rfl, fun _ => rfl, fun _ => rfl, fun _ => rfl⟩

theorem step_of_empty {s : State} (h : s.pending = []) : step s = .next s.tick := by rw [step, h]

theorem tick_of_unpowered {s : State} (h : s.board.place = .off ∨ s.board.place = .charging) : s.tick = s := if_pos h

theorem tick_of_powered {s : State} (hoff : s.board.place ≠ .off) (hcharging : s.board.place ≠ .charging) :
    s.tick = s.timeStep := if_neg (not_or.2 ⟨hoff, hcharging⟩)

/-- The time base moves on and PPS_OUT may change; nothing else does. -/
theorem timeStep_frame (s : State) : ∃ b c l p, s.timeStep =
    { s with tim := { s.tim with base := b, carry := c, slew := l, osc := s.tim.osc + 2 }, board := { s.board with ppsOut := p } } := by
  unfold State.timeStep
  extract_lets
  split
  · exact ⟨_, _, _, true, rfl⟩
  · split
    · exact ⟨_, _, _, false, rfl⟩
    · exact ⟨_, _, _, s.board.ppsOut, rfl⟩

/-- Settles O2: an empty queue ticks, and a powered tick is the time base's step of one oscillator period. -/
theorem stepOnEmptyQueueTicks : Obligations.StepOnEmptyQueueTicks := by
  intro s hempty
  refine ⟨step_of_empty hempty, ?queue, tick_of_unpowered, ?powered⟩
  case queue => exact (State.Keeps.refl (calm := false) s).tick.pending.trans hempty
  case powered =>
    intro hoff hcharging
    rw [tick_of_powered hoff hcharging]
    obtain ⟨b, c, l, p, hstep⟩ := timeStep_frame s
    exact ⟨by rw [hstep], b, c, l, p, hstep⟩

end Sys2Proof.Proofs
end

section
/-! PROOF. The power sequence (spec/01 R23 to R26, R38 to R42): charging, the power-on reset, the straps at t1, and the two ways
down. -/

namespace Sys2Proof.Proofs
open Sys2Proof Sys2Proof.Machine

/-! ## The straps at t1 -/

theorem t1_frame (s : State) (straps : BitVec 6) : s.t1 straps = { s with
    regs := (s.t1 straps).regs, board := { s.board with place := .running, straps := straps }
    cfg := { s.cfg with t1Passed := true } } := rfl

theorem t1_rd_of_ne (s : State) (straps : BitVec 6) {o : Nat} (h : o ≠ R.GLB_BOOT) : (s.t1 straps).rd o = s.rd o :=
  s.rd_setFld_of_ne F.GLB_BOOT_STRAPS straps.toNat h

theorem t1_straps {s : State} (hwf : s.regsWf = true) (straps : BitVec 6) :
    (s.t1 straps).fld R.GLB_BOOT F.GLB_BOOT_STRAPS = straps.toNat :=
  (s.fld_setFld_self R.GLB_BOOT F.GLB_BOOT_STRAPS straps.toNat hwf (by decide)).trans (Nat.mod_eq_of_lt straps.isLt)

/-- The straps leave the fields of GLB_BOOT that they are not. -/
theorem t1_boot_of_disjoint {s : State} (hwf : s.regsWf = true) (straps : BitVec 6) (f : Fld)
    (hd : f.lo + f.w ≤ F.GLB_BOOT_STRAPS.lo ∨ F.GLB_BOOT_STRAPS.lo + F.GLB_BOOT_STRAPS.w ≤ f.lo) (hf : f.lo + f.w ≤ 64) :
    (s.t1 straps).fld R.GLB_BOOT f = s.fld R.GLB_BOOT f :=
  s.fld_setFld_of_disjoint R.GLB_BOOT F.GLB_BOOT_STRAPS f straps.toNat hwf hd hf

/-! ## The end of charging -/

/-- The power-on reset at the end of charging: conversion is good, and the Ledger owes the record of the gap. -/
def charged (s : State) : State :=
  { s.restart 1 0 with
    board := { (s.restart 1 0).board with place := .alwaysOn, pwrGood := true, pfailN := true, lasIntN := true, thermN := true }
    ldg := { (s.restart 1 0).ldg with gapDue := true } }

theorem exec_bulkCharged {s : State} (h : s.board.place = .charging) : exec .bulkCharged s =
    .next (if (charged s).board.modRstN then (charged s).t1 (charged s).board.straps else charged s) :=
  if_neg (not_not.2 h)

theorem charged_rd (s : State) (o : Nat) : (charged s).rd o = (s.restart 1 0).rd o := rfl

theorem charged_regsWf (s : State) : (charged s).regsWf = true := s.restart_regsWf 1 0

theorem charged_cause (s : State) : (charged s).fld R.GLB_BOOT F.GLB_BOOT_CAUSE = 1 := s.restart_cause 1 0

theorem charged_resets (s : State) : (charged s).fld R.GLB_BOOT F.GLB_BOOT_MODULE_RESETS = 0 := s.restart_resets 1 0

theorem charged_modRstN (s : State) : (charged s).board.modRstN = s.board.modRstN := by
  obtain ⟨m, hboard⟩ := s.restart_board 1 0
  simp [charged, hboard]

/-! ## The two ways down -/

@[simp] theorem commitLedger_host (s : State) : s.commitLedger.host = s.host := by rw [commitLedger_frame]

/-- The last of a power-down: the sources are off, and a commit of the Ledger is due. -/
def switchedOff (v : State) : State :=
  ({ v with lasers := v.lasers.foldl (fun m x => sset {} m x.1 { x.2 with level := .off }) []
            board.place := .powerDown } : State).commitLedger

theorem switchedOff_frame (v : State) : (switchedOff v).board.place = .powerDown ∧
    (switchedOff v).board.pwrEn = v.board.pwrEn ∧ (switchedOff v).ldg.busy = true ∧ (switchedOff v).dxn = v.dxn ∧
    (switchedOff v).host = v.host ∧ (switchedOff v).mem = v.mem := by
  rw [switchedOff, commitLedger_frame]
  exact ⟨rfl, rfl, rfl, rfl, rfl, rfl⟩

/-- What stopping work and putting the sources out leaves of a state. -/
theorem shed_lasAllOff_frame (u : State) : u.shed.lasAllOff.board.pwrEn = u.board.pwrEn ∧ u.shed.lasAllOff.dxn = {} ∧
    u.shed.lasAllOff.host = {} ∧ u.shed.lasAllOff.mem = u.mem := by
  obtain ⟨m, o, hlas⟩ := u.shed.lasAllOff_same
  rw [hlas, u.shed_frame]
  exact ⟨rfl, rfl, rfl, rfl⟩

theorem exec_powerDown {s : State} (h : s.board.place = .running) : exec .powerDown s =
    .next (switchedOff ({ s with board.pwrEn := false, board.tripLatch := false } : State).shed.lasAllOff) := by
  change execPowerDown s = _
  unfold execPowerDown
  generalize hu : ({ s with board.pwrEn := false, board.tripLatch := false } : State) = u
  have hplace : u.board.place = .running := by rw [← hu]; exact h
  dsimp only
  rw [hplace]
  rfl

theorem exec_conversionStop {s : State} (h : s.board.place = .powerDown ∨ s.board.place = .powerFail) :
    exec .conversionStop s = .next { s with
      board.place := .off, board.pwrGood := false, board.thermN := true, board.alertN := true, board.ppsOut := false
      ldg.busy := false, ldg.again := false, ldg.fromPfail := false } := if_pos h

/-- Settles O7: one equation for each event where it acts; the reset at the end of charging is `charged`. -/
theorem powerSequence : Obligations.PowerSequence := by
  unfold Obligations.PowerSequence
  refine ⟨exec_powerUp_of_off, ?recovered, ?charged, ?rise, ?early, ?down, ?stop⟩
  case recovered =>
    intro s hoff htrip
    exact congrArg _ (if_pos ⟨hoff, htrip⟩)
  case charged =>
    intro s hplace
    have hother (o : Nat) (ho : o ≠ R.GLB_BOOT) : (charged s).rd o = resetWord o := s.restart_rd 1 0 o ho
    rw [← charged_modRstN s, exec_bulkCharged hplace]
    cases hpin : (charged s).board.modRstN
    · exact ⟨_, rfl, rfl, rfl, rfl, charged_cause s, charged_resets s, hother, rfl, rfl, rfl, rfl⟩
    · have hwf := charged_regsWf s
      refine ⟨_, rfl, rfl, rfl, rfl, ?_, ?_, fun o ho => (t1_rd_of_ne _ _ ho).trans (hother o ho), rfl, rfl, rfl, rfl⟩
      · exact (t1_boot_of_disjoint hwf _ _ (by decide) (by decide)).trans (charged_cause s)
      · exact (t1_boot_of_disjoint hwf _ _ (by decide) (by decide)).trans (charged_resets s)
  case rise =>
    intro straps s hwf hplace
    set u : State := { s with board.modRstN := true, board.straps := straps }
    have hexec : exec (.modRstNRise straps) s = .next (u.t1 straps) := congrArg _ (if_pos hplace)
    exact ⟨_, hexec, rfl, t1_straps (s := u) hwf straps, fun o ho => t1_rd_of_ne u straps (by simpa using ho), rfl⟩
  case early =>
    intro straps s hplace
    exact congrArg _ (if_neg hplace)
  case down =>
    intro s hplace
    have hexec := exec_powerDown hplace
    obtain ⟨hpwr, hdxn, hhost, hmem⟩ := shed_lasAllOff_frame { s with board.pwrEn := false, board.tripLatch := false }
    generalize ({ s with board.pwrEn := false, board.tripLatch := false } : State).shed.lasAllOff = v at *
    obtain ⟨hoff, hpwr', hbusy, hdxn', hhost', hmem'⟩ := switchedOff_frame v
    exact ⟨_, hexec, hoff, hpwr'.trans hpwr, hbusy, hdxn'.trans hdxn, hhost'.trans hhost, hmem'.trans hmem⟩
  case stop =>
    intro s hplace
    exact ⟨_, exec_conversionStop hplace, rfl, rfl, rfl, rfl⟩

end Sys2Proof.Proofs
end

section
/-! PROOF. Resets at the connector (spec/01 R27, spec/16 R426): PERST_N abandons the check of a ring or completion ring, and so
starts the check that waits behind it, which may be one of another block. -/

namespace Sys2Proof.Proofs
open Sys2Proof Sys2Proof.Machine

/-- What asks for peg 1024 to be given to domain 1. -/
def pegAssignWord : Word :=
  F.CMD_PEG_ASSIGN_GO.put 1 ||| F.CMD_PEG_ASSIGN_DOMAIN.put 1 ||| F.CMD_PEG_ASSIGN_COUNT.put 1 ||| F.CMD_PEG_ASSIGN_FIRST.put 1024

/-- A running module that checks ring 0, with an assignment of a peg waiting behind that check. -/
def ringThenPegs : State :=
  { board := { place := .running }, regs := [(R.CMD_PEG_ASSIGN, pegAssignWord)]
    cfg := { checks := [{ kind := .ringEnable 0 },
                        { kind := .pegAssign, captured := [(R.CMD_PEG_ASSIGN, pegAssignWord)], offset := R.CMD_PEG_ASSIGN }] } }

/-- PERST_N abandons the ring's check, so the assignment runs and clears its GO. -/
theorem ringThenPegs_perst : ∃ t, exec .perstNAssert ringThenPegs = .next t ∧
    t.rd R.CMD_PEG_ASSIGN ≠ ringThenPegs.rd R.CMD_PEG_ASSIGN :=
  ⟨_, rfl, by decide +kernel⟩

/-- Refutes O9: in `ringThenPegs` PERST_N changes CMD_PEG_ASSIGN, a register outside the host interface's block. -/
theorem not_connectorResets : ¬ Obligations.ConnectorResets := by
  unfold Obligations.ConnectorResets
  rintro ⟨-, hperst, -⟩
  obtain ⟨t, ht, -, -, -, -, hregs, -⟩ := hperst ringThenPegs rfl
  obtain ⟨u, hu, hne⟩ := ringThenPegs_perst
  obtain rfl : t = u := by rw [ht] at hu; exact Host.Outcome.next.inj hu
  exact hne (hregs R.CMD_PEG_ASSIGN (by decide))

end Sys2Proof.Proofs
end

section
/-! PROOF. The start-up phases after the root of trust (spec/16 Table 16.1): what reading the Ledger and repairing rows record, and
what the end of each phase leaves in the registers that show it. -/

namespace Sys2Proof.Proofs
open Sys2Proof Sys2Proof.Machine

/-! ## Changes of registers, of the Ledger's records and of what is sent -/

/-- Two states that differ in registers, in the Ledger's live copy, buffer and counts, in what is sent and counted. -/
structure Recorded (s t : State) : Prop where
  frame : t = { s with regs := t.regs, ldg := t.ldg, out := t.out, cnt := t.cnt }
  ledger : t.ldg = { s.ldg with live := t.ldg.live, buffer := t.ldg.buffer, bootedVersions := t.ldg.bootedVersions
                                repairChanges := t.ldg.repairChanges }
  wf : s.regsWf = true → t.regsWf = true

variable {s t u : State}

theorem Recorded.refl (s : State) : Recorded s s := ⟨rfl, rfl, id⟩

theorem Recorded.trans (h : Recorded s t) (k : Recorded t u) : Recorded s u where
  frame := by rw [k.frame, h.frame]
  ledger := by rw [k.ledger, h.ledger]
  wf := fun hs => k.wf (h.wf hs)

theorem Recorded.setFld (h : Recorded s t) (off : Nat) (f : Fld) (v : Nat) : Recorded s (t.setFld off f v) :=
  h.trans ⟨rfl, rfl, t.setFld_regsWf off f v⟩

theorem Recorded.wr (h : Recorded s t) (off : Nat) (v : Word) : Recorded s (t.wr off v) :=
  h.trans ⟨rfl, rfl, t.wr_regsWf off v⟩

theorem Recorded.raise (h : Recorded s t) (v : Nat) : Recorded s (t.raise v) := h.trans ⟨rfl, rfl, id⟩

theorem Recorded.ldgPut (h : Recorded s t) (off n v : Nat) : Recorded s (t.ldgPut off n v) := h.trans ⟨rfl, rfl, id⟩

theorem Recorded.booted (h : Recorded s t) (l : List Nat) :
    Recorded s { t with ldg := { t.ldg with bootedVersions := l } } := h.trans ⟨rfl, rfl, id⟩

theorem Recorded.repairs (h : Recorded s t) (n : Nat) : Recorded s { t with ldg := { t.ldg with repairChanges := n } } :=
  h.trans ⟨rfl, rfl, id⟩

theorem Recorded.ldgAdd (h : Recorded s t) (off n d : Nat) : Recorded s (t.ldgAdd off n d) := h.ldgPut ..

theorem Recorded.ite {c : Prop} [Decidable c] (ht : Recorded s t) (hu : Recorded s u) : Recorded s (if c then t else u) := by
  split
  · exact ht
  · exact hu

theorem Recorded.journal (h : Recorded s t) (kind subject : Nat) (data : Bytes) :
    Recorded s (t.journal kind subject data) := by
  unfold State.journal
  extract_lets b
  exact .ite (h.trans ⟨rfl, rfl, id⟩) (.ite h ((h.setFld ..).raise 8))

theorem Recorded.memEvent (h : Recorded s t) (kind a : Nat) : Recorded s (t.memEvent kind a) := by
  unfold State.memEvent
  refine Recorded.raise ?_ 10
  unfold State.logEntry
  exact ((h.wr ..).wr ..).setFld ..

theorem Recorded.foldl {α : Type} {f : State → α → State} {l : List α} (h : ∀ s x, Recorded s (f s x)) (hs : Recorded s t) :
    Recorded s (l.foldl f t) := foldl_keeps (fun u x _ hu => hu.trans (h u x)) hs

theorem readLedger_recorded (s : State) : Recorded s s.readLedger := by
  unfold State.readLedger
  extract_lets s1 cause s2 s3 v s4
  have h1 : Recorded s s1 := by
    unfold s1
    split
    · exact ((Recorded.refl s).setFld ..).setFld ..
    · exact (((Recorded.refl s).setFld ..).journal ..).raise 8
  have h3 : Recorded s s3 := .ite ((h1.ldgAdd ..).journal ..) (h1.ldgAdd ..)
  exact .ite h3 ((h3.booted _).journal ..)

/-- One listed row: repaired with a spare row, else recorded as NO_SPARE. -/
def repairRow (ddr : Bool) (spares : List Bool) (s : State) (x : Nat × Nat) : State :=
  let off := ldgRepair x.1
  let u := s.ldg? (off + 1) 1 % 8 + (if ddr then 8 else 0)
  let a := s.ldg? (off + 8) 8
  if spares.getD x.2 false then
    let s := (s.ldgPut off 16 0).ldgAdd (ldgMemory u + 12) 4 1
    { s with ldg.repairChanges := s.ldg.repairChanges + 1 }
  else s.memEvent 4 a

theorem repairRows_eq (s : State) (ddr : Bool) (spares : List Bool) : ∃ l : List (Nat × Nat),
    s.repairRows ddr spares = l.foldl (repairRow ddr spares) s := ⟨_, rfl⟩

theorem repairRow_recorded (ddr : Bool) (spares : List Bool) (s : State) (x : Nat × Nat) :
    Recorded s (repairRow ddr spares s x) := by
  unfold repairRow
  extract_lets off u a s1
  have h1 : Recorded s s1 := ((Recorded.refl s).ldgPut ..).ldgAdd ..
  exact .ite (h1.repairs _) ((Recorded.refl s).memEvent ..)

theorem repairRows_recorded (ddr : Bool) (spares : List Bool) (s : State) : Recorded s (s.repairRows ddr spares) := by
  obtain ⟨l, h⟩ := repairRows_eq s ddr spares
  rw [h]
  exact .foldl (repairRow_recorded ddr spares) (.refl s)

/-- Repairs change no register but those of the MEM log. -/
theorem repairRows_rd {o : Nat} (ddr : Bool) (spares : List Bool) (s : State) (hhead : o ≠ R.MEM_EVENT_HEAD)
    (ho : o < R.MEM_EVENT 0) : (s.repairRows ddr spares).rd o = s.rd o := by
  obtain ⟨l, h⟩ := repairRows_eq s ddr spares
  rw [h]
  refine foldl_keeps (P := fun t : State => t.rd o = s.rd o) (fun t x _ ht => ?_) rfl
  unfold repairRow
  extract_lets off u a s1
  have h1 : s1.rd o = t.rd o := (State.ldgAdd_rd ..).trans (State.ldgPut_rd ..)
  clear_value s1
  split
  · exact h1.trans ht
  · exact (t.memEvent_rd _ _ hhead (.inl ho)).trans ht

/-! ## Measurement registers -/

/-- One word of a measurement register. -/
def measureWord (n : Nat) (v : BitVec 384) (s : State) (w : Nat) : State := s.wr (R.SEC_MEAS n w) (v.extractLsb' (64 * w) 64)

theorem extendDigest_eq (s : State) (n : Nat) (digest : Bytes) :
    s.extendDigest n digest = (List.range 6).foldl (measureWord n (Config.sha384 (s.measure n ++ digest))) s := rfl

theorem extendDigest_same (s : State) (n : Nat) (digest : Bytes) : SameButRegs s (s.extendDigest n digest) :=
  foldl_rel SameButRegs .refl (fun _ _ _ => .trans) (measureWord n _) (fun _ _ => rfl) _ s

theorem extendDigest_regsWf (n : Nat) (digest : Bytes) (h : s.regsWf = true) : (s.extendDigest n digest).regsWf = true :=
  foldl_keeps (P := fun u : State => u.regsWf = true) (fun u _ _ hu => u.wr_regsWf _ _ hu) h

theorem extendDigest_regsBut (s : State) (n : Nat) (digest : Bytes) :
    s.RegsBut (s.extendDigest n digest) ((List.range 6).map (R.SEC_MEAS n)) :=
  State.RegsBut.foldl (fun _ _ hw => State.wr_regsBut (List.mem_map_of_mem hw) _) s

/-- The words of an extended measurement register are those of the digest. -/
theorem extendDigest_rd (n : Nat) (digest : Bytes) (h : s.regsWf = true) {w : Nat} (hw : w < 6) :
    (s.extendDigest n digest).rd (R.SEC_MEAS n w) = (Config.sha384 (s.measure n ++ digest)).extractLsb' (64 * w) 64 := by
  rw [extendDigest_eq]
  generalize Config.sha384 (s.measure n ++ digest) = v
  refine foldl_settles (P := fun u : State => u.regsWf = true) (f := measureWord n v)
    (get := fun (u : State) w => u.rd (R.SEC_MEAS n w)) (v := fun w => v.extractLsb' (64 * w) 64) List.nodup_range
    (fun u w _ hu => u.wr_regsWf _ _ hu) (fun u w _ hu => u.rd_wr_self _ _ hu) (fun u w _ y hy => u.rd_wr_of_ne _ ?_) h
    (List.mem_range.2 hw)
  unfold R.SEC_MEAS
  omega

/-! ## The signature index after a restart (spec/15 R407, R408) -/

theorem setNext_recorded (s : State) (n : Nat) : Recorded { s with ldg.sigNext := n } (s.setNext n) := by
  unfold State.setNext
  extract_lets was left src s1 s2 s3 s4
  have h3 : Recorded s1 s3 := (((Recorded.refl s1).wr ..).wr ..).setFld ..
  exact Recorded.setFld (.ite (h3.raise 9) h3) ..

theorem secStatus_recorded (s : State) : Recorded s s.secStatus :=
  ((((Recorded.refl s).setFld ..).setFld ..).setFld ..).setFld ..

/-- What a restart leaves of the state: registers, the Ledger's record of the index and its journal, the epoch, and messages. -/
theorem indexRestart_frame (s : State) : ∃ e n m a b, Recorded
    { s with sec := { s.sec with indexEpoch := e }
             ldg := { s.ldg with sigNext := n, sigMark := m, controlOkA := a, controlOkB := b } } s.indexRestart ∧
    ((s.ldg.controlOkA || s.ldg.controlOkB) = true → n = s.ldg.sigMark) ∧ m ≤ n := by
  unfold State.indexRestart
  split
  case isTrue hok => exact ⟨_, _, s.ldg.sigMark, _, _, setNext_recorded s _, fun _ => rfl, le_rfl⟩
  case isFalse hbad =>
    split
    · extract_lets _ _ e n s1
      have h1 : Recorded s1 ((s1.secStatus.setFld R.SEC_STATUS F.SEC_STATUS_INDEX_RECOVERED 1).journal 0xB 0 (leBytes 8 n)) :=
        ((secStatus_recorded s1).setFld ..).journal ..
      generalize (s1.secStatus.setFld R.SEC_STATUS F.SEC_STATUS_INDEX_RECOVERED 1).journal 0xB 0 (leBytes 8 n) = u at h1 ⊢
      have h2 : Recorded { s1 with ldg.sigNext := n } { u with ldg.sigNext := n } :=
        ⟨by rw [h1.frame], by rw [h1.ledger], h1.wf⟩
      exact ⟨e, n, n, true, true, h2.trans (setNext_recorded u n), fun h => absurd h hbad, le_rfl⟩
    · extract_lets _ _ s1
      exact ⟨_, _, 2 ^ 40, true, true, setNext_recorded s1 (2 ^ 40), fun h => absurd h hbad, le_rfl⟩

/-! ## Phases -/

theorem toPhase_phase (h : s.regsWf = true) (p : Nat) (hp : p < 16) : (s.toPhase p).phase = p :=
  (s.fld_setFld_self R.GLB_BOOT F.GLB_BOOT_PHASE p h (by decide)).trans (Nat.mod_eq_of_lt hp)

theorem toPhase_rd (s : State) (p : Nat) {o : Nat} (h : o ≠ R.GLB_BOOT) : (s.toPhase p).rd o = s.rd o :=
  s.rd_setFld_of_ne F.GLB_BOOT_PHASE p h

theorem phaseReady_cases (s : State) : s.phaseReady = s ∨ s.phaseReady = s.toPhase 5 := by
  unfold State.phaseReady
  split
  · exact .inr rfl
  · exact .inl rfl

theorem phaseReady_same (s : State) : SameButRegs s s.phaseReady := by
  obtain h | h := phaseReady_cases s <;> rw [h] <;> rfl

theorem phaseReady_rd (s : State) {o : Nat} (h : o ≠ R.GLB_BOOT) : s.phaseReady.rd o = s.rd o := by
  obtain hs | hs := phaseReady_cases s <;> rw [hs]
  exact toPhase_rd s 5 h

/-- READY begins where CORE has ended and the four READY bits, which lie side by side in GLB_STATUS, are all set. -/
theorem phaseReady_eq (s : State) : s.phaseReady = (if s.phase = 4 ∧ s.flag R.GLB_STATUS F.GLB_STATUS_HBM_READY ∧
    s.flag R.GLB_STATUS F.GLB_STATUS_DDR_READY ∧ s.flag R.GLB_STATUS F.GLB_STATUS_OPTICS_READY ∧
    s.flag R.GLB_STATUS F.GLB_STATUS_HOST_READY then s.toPhase 5 else s) := by
  have hbits (x : Nat) : bitsOf x 62 59 = 15 ↔ x / 2 ^ 61 % 2 ^ 1 ≠ 0 ∧ x / 2 ^ 60 % 2 ^ 1 ≠ 0 ∧ x / 2 ^ 59 % 2 ^ 1 ≠ 0 ∧
      x / 2 ^ 62 % 2 ^ 1 ≠ 0 := by
    unfold bitsOf
    omega
  simp only [State.phaseReady, State.flag, State.fld, Fld.get, hbits, bne_iff_ne, ne_eq]

/-! ## The ends of the phases -/

/-- The Wellhead phase: the Ledger is read, the index restarts, the term is shown, and two items are measured. -/
theorem exec_wellheadPhaseDone (h : s.phase = 2) : exec .wellheadPhaseDone s =
    let u := ({ s with cfg.wellheadDown := false } : State).readLedger.indexRestart
    let v := u.setFld R.PLN_STATUS F.PLN_STATUS_TERM u.ldg.term.toNat
    let w := v.extend 2 (Config.cpFirmware (BitVec.ofNat 32 (v.fld R.SEC_FW F.SEC_FW_VERSION)))
    .next ((w.extend 3 w.keyItem).toPhase 3) := if_neg (not_not.2 h)

theorem wellheadPhase_effect (hwf : s.regsWf = true) (hphase : s.phase = 2) : Answers (exec .wellheadPhaseDone s) fun t =>
    t.phase = 3 ∧ t.cfg = { s.cfg with wellheadDown := false } ∧ t.fld R.PLN_STATUS F.PLN_STATUS_TERM = s.ldg.term.toNat ∧
    ((s.ldg.controlOkA || s.ldg.controlOkB) = true → t.ldg.sigNext = s.ldg.sigMark) ∧ t.ldg.sigMark ≤ t.ldg.sigNext ∧
    t = { s with regs := t.regs, cfg := t.cfg, ldg := t.ldg, sec := t.sec, out := t.out, cnt := t.cnt } := by
  have hexec := exec_wellheadPhaseDone hphase
  extract_lets _ u v w at hexec
  have hread := readLedger_recorded { s with cfg.wellheadDown := false }
  obtain ⟨e, n, m, a, b, hindex, hnext, hmark⟩ :=
    indexRestart_frame ({ s with cfg.wellheadDown := false } : State).readLedger
  have hu : u = ({ s with cfg.wellheadDown := false } : State).readLedger.indexRestart := rfl
  clear_value u
  rw [← hu] at hindex
  clear hu
  generalize ({ s with cfg.wellheadDown := false } : State).readLedger = r at hread hindex hnext
  have huwf : u.regsWf = true := hindex.wf (hread.wf hwf)
  have hterm : u.ldg.term = s.ldg.term := by rw [hindex.ledger, hread.ledger]
  have hsig : u.ldg.sigNext = n ∧ u.ldg.sigMark = m := by rw [hindex.ledger]; exact ⟨rfl, rfl⟩
  have hok : r.ldg.controlOkA = s.ldg.controlOkA ∧ r.ldg.controlOkB = s.ldg.controlOkB ∧ r.ldg.sigMark = s.ldg.sigMark := by
    rw [hread.ledger]; exact ⟨rfl, rfl, rfl⟩
  have hframe : u = { s with regs := u.regs, cfg := { s.cfg with wellheadDown := false }, ldg := u.ldg, sec := u.sec
                             out := u.out, cnt := u.cnt } := by rw [hindex.frame, hread.frame]
  have hvwf : v.regsWf = true := u.setFld_regsWf _ _ _ huwf
  have hwwf : w.regsWf = true := extendDigest_regsWf _ _ hvwf
  have hxwf : (w.extend 3 w.keyItem).regsWf = true := extendDigest_regsWf _ _ hwwf
  have hsame : SameButRegs u ((w.extend 3 w.keyItem).toPhase 3) :=
    (SameButRegs.trans (.trans (u.setFld_same ..) (extendDigest_same v ..)) (extendDigest_same w ..)).trans (State.setFld_same ..)
  have hrd (n : Nat) (d : Bytes) (x : State) (hn : n < 4) : (x.extendDigest n d).rd R.PLN_STATUS = x.rd R.PLN_STATUS := by
    refine extendDigest_regsBut x n d _ fun h => ?_
    obtain ⟨k, hk, he⟩ := List.mem_map.1 h
    have := List.mem_range.1 hk
    unfold R.SEC_MEAS R.PLN_STATUS at he
    omega
  have hpln : ((w.extend 3 w.keyItem).toPhase 3).rd R.PLN_STATUS = v.rd R.PLN_STATUS :=
    (toPhase_rd _ 3 (by decide)).trans ((hrd 3 _ w (by decide)).trans (hrd 2 _ v (by decide)))
  have hphase' := toPhase_phase hxwf 3 (by decide)
  have hvterm : v.fld R.PLN_STATUS F.PLN_STATUS_TERM = s.ldg.term.toNat :=
    (u.fld_setFld_self _ _ _ huwf (by decide)).trans (by rw [hterm]; exact Nat.mod_eq_of_lt s.ldg.term.isLt)
  have hcfg : u.cfg = { s.cfg with wellheadDown := false } := by rw [hframe]
  generalize (w.extend 3 w.keyItem).toPhase 3 = t at *
  have htldg : t.ldg = u.ldg := by rw [hsame]
  refine ⟨t, hexec, hphase', ?_, (State.fld_congr hpln _).trans hvterm, ?_, ?_, ?_⟩
  · rw [hsame]; exact hcfg
  · intro h
    rw [htldg, hsig.1, ← hok.2.2]
    exact hnext (by rw [hok.1, hok.2.1]; exact h)
  · rw [htldg, hsig.1, hsig.2]; exact hmark
  · rw [hsame, hframe]

/-- A READY bit that is set shows, whether or not READY begins with it. -/
theorem phaseReady_setFld_flag (h : s.regsWf = true) (f : Fld) (hf : f.lo + f.w ≤ 64) (hw : 0 < f.w) :
    (s.setFld R.GLB_STATUS f 1).phaseReady.flag R.GLB_STATUS f = true := by
  rw [State.flag_congr (phaseReady_rd _ (by decide)), State.flag, State.fld_setFld_self _ _ _ _ h hf,
    Nat.mod_eq_of_lt (Nat.one_lt_two_pow (by omega))]
  rfl

theorem corePhase_effect (hwf : s.regsWf = true) (hphase : s.phase = 3) : Answers (exec .corePhaseDone s) fun t =>
    t.phase = 4 ∧ (∀ q, q < 4 → t.fld (R.PWR_VCORE q) F.PWR_VCORE_SETPOINT = 7500) ∧
    s.RegsBut t (R.GLB_BOOT :: (List.range 4).map R.PWR_VCORE) ∧ t = { s with regs := t.regs } := by
  set step : State → Nat → State := fun s q => s.setFld (R.PWR_VCORE q) F.PWR_VCORE_SETPOINT 7500 with hstep
  have hexec : exec .corePhaseDone s = .next (((List.range 4).foldl step s).toPhase 4) := if_neg (not_not.2 hphase)
  have huwf : ((List.range 4).foldl step s).regsWf = true :=
    foldl_keeps (P := fun u : State => u.regsWf = true) (fun u _ _ hu => u.setFld_regsWf _ _ _ hu) hwf
  have hself {q : Nat} (hq : q < 4) : ((List.range 4).foldl step s).fld (R.PWR_VCORE q) F.PWR_VCORE_SETPOINT = 7500 :=
    foldl_settles (P := fun u : State => u.regsWf = true)
      (get := fun (u : State) q => u.fld (R.PWR_VCORE q) F.PWR_VCORE_SETPOINT) (v := fun _ => 7500) List.nodup_range
      (fun u _ _ hu => u.setFld_regsWf _ _ _ hu) (fun u _ _ hu => u.fld_setFld_self _ _ _ hu (by decide))
      (fun u q _ y hy => u.fld_setFld_of_ne _ _ _ (by unfold R.PWR_VCORE; omega)) hwf (List.mem_range.2 hq)
  have hbut : s.RegsBut ((List.range 4).foldl step s) (R.GLB_BOOT :: (List.range 4).map R.PWR_VCORE) :=
    State.RegsBut.foldl
      (fun u q hq => State.setFld_regsBut (List.mem_cons_of_mem _ (List.mem_map_of_mem hq)) _ _) s
  have hsame : SameButRegs s ((List.range 4).foldl step s) := foldl_rel SameButRegs .refl (fun _ _ _ => .trans) step (fun _ _ => rfl) _ s
  generalize (List.range 4).foldl step s = u at *
  refine ⟨_, hexec, toPhase_phase huwf 4 (by decide), fun q hq => ?_, hbut.setFld List.mem_cons_self _ _,
    hsame.trans (u.setFld_same ..)⟩
  exact (State.fld_congr (toPhase_rd u 4 (by unfold R.PWR_VCORE R.GLB_BOOT; omega)) _).trans (hself hq)

/-- What training leaves in the register of one HBM stack. -/
def stackTrained (trained : BitVec 8) (s : State) (m : Nat) : State :=
  (s.setFld (R.MEM_HBM_STATUS m) F.MEM_HBM_STATUS_STATE (if trained.getLsbD m then 1 else 2)).setFld
    (R.MEM_HBM_STATUS m) F.MEM_HBM_STATUS_SIZE_GIB 80

theorem stackTrained_regsWf (trained : BitVec 8) (m : Nat) (h : s.regsWf = true) : (stackTrained trained s m).regsWf = true :=
  State.setFld_regsWf _ _ _ _ (s.setFld_regsWf _ _ _ h)

theorem stackTrained_self (trained : BitVec 8) (m : Nat) (h : s.regsWf = true) :
    ((stackTrained trained s m).fld (R.MEM_HBM_STATUS m) F.MEM_HBM_STATUS_STATE,
      (stackTrained trained s m).fld (R.MEM_HBM_STATUS m) F.MEM_HBM_STATUS_SIZE_GIB) =
    ((if trained.getLsbD m then 1 else 2), 80) := by
  have h1 := s.setFld_regsWf (R.MEM_HBM_STATUS m) F.MEM_HBM_STATUS_STATE (if trained.getLsbD m then 1 else 2) h
  unfold stackTrained
  rw [State.fld_setFld_self _ _ _ _ h1 (by decide), State.fld_setFld_of_disjoint _ _ _ _ _ h1 (by decide) (by decide),
    State.fld_setFld_self _ _ _ _ h (by decide)]
  split <;> rfl

theorem stackTrained_rd (trained : BitVec 8) (m : Nat) {o : Nat} (h : o ≠ R.MEM_HBM_STATUS m) :
    (stackTrained trained s m).rd o = s.rd o := (State.rd_setFld_of_ne _ _ _ h).trans (s.rd_setFld_of_ne _ _ h)

theorem hbmTraining_effect (trained : BitVec 8) (spares : List Bool) (hwf : s.regsWf = true) (hlow : 4 ≤ s.phase)
    (hrom : s.phase ≠ 0xF) (hready : s.flag R.GLB_STATUS F.GLB_STATUS_HBM_READY = false) :
    Answers (exec (.hbmTrainingDone trained spares) s) fun t =>
      t.flag R.GLB_STATUS F.GLB_STATUS_HBM_READY = true ∧ t.fld R.MEM_STATUS F.MEM_STATUS_HBM_OK = trained.toNat ∧
      (∀ m, m < 8 → t.fld (R.MEM_HBM_STATUS m) F.MEM_HBM_STATUS_STATE = (if trained.getLsbD m then 1 else 2) ∧
        t.fld (R.MEM_HBM_STATUS m) F.MEM_HBM_STATUS_SIZE_GIB = 80) ∧ t.mem = s.mem ∧ t.dxn = s.dxn := by
  have hexec : exec (.hbmTrainingDone trained spares) s = .next (((((List.range 8).foldl (stackTrained trained) s).setFld
      R.MEM_STATUS F.MEM_STATUS_HBM_OK trained.toNat).repairRows false spares).setFld R.GLB_STATUS
      F.GLB_STATUS_HBM_READY 1).phaseReady := if_neg (by simp [hrom, hready]; omega)
  have huwf : ((List.range 8).foldl (stackTrained trained) s).regsWf = true :=
    foldl_keeps (P := fun u : State => u.regsWf = true) (fun u _ _ hu => stackTrained_regsWf _ _ hu) hwf
  have hsame : SameButRegs s ((List.range 8).foldl (stackTrained trained) s) :=
    foldl_rel SameButRegs .refl (fun _ _ _ => .trans) (stackTrained trained) (fun _ _ => rfl) _ s
  have hself {m : Nat} (hm : m < 8) := foldl_settles (P := fun u : State => u.regsWf = true)
    (get := fun (u : State) m => (u.fld (R.MEM_HBM_STATUS m) F.MEM_HBM_STATUS_STATE,
      u.fld (R.MEM_HBM_STATUS m) F.MEM_HBM_STATUS_SIZE_GIB)) List.nodup_range
    (fun u _ _ hu => stackTrained_regsWf trained _ hu) (fun u m _ hu => stackTrained_self trained m hu)
    (fun u m _ y hy => by
      have hrd : (stackTrained trained u m).rd (R.MEM_HBM_STATUS y) = u.rd (R.MEM_HBM_STATUS y) :=
        stackTrained_rd trained m (by unfold R.MEM_HBM_STATUS; omega)
      rw [State.fld_congr hrd, State.fld_congr hrd]) hwf (List.mem_range.2 hm)
  generalize (List.range 8).foldl (stackTrained trained) s = u at *
  have hvwf := u.setFld_regsWf R.MEM_STATUS F.MEM_STATUS_HBM_OK trained.toNat huwf
  have hok : (u.setFld R.MEM_STATUS F.MEM_STATUS_HBM_OK trained.toNat).fld R.MEM_STATUS F.MEM_STATUS_HBM_OK = trained.toNat :=
    (u.fld_setFld_self _ _ _ huwf (by decide)).trans (Nat.mod_eq_of_lt trained.isLt)
  have hvrd {o : Nat} (ho : o ≠ R.MEM_STATUS) :
      (u.setFld R.MEM_STATUS F.MEM_STATUS_HBM_OK trained.toNat).rd o = u.rd o := u.rd_setFld_of_ne _ _ ho
  have hvsame : SameButRegs s (u.setFld R.MEM_STATUS F.MEM_STATUS_HBM_OK trained.toNat) := hsame.trans (u.setFld_same ..)
  generalize u.setFld R.MEM_STATUS F.MEM_STATUS_HBM_OK trained.toNat = v at *
  have hrec := repairRows_recorded false spares v
  have hwrd {o : Nat} (hhead : o ≠ R.MEM_EVENT_HEAD) (ho : o < R.MEM_EVENT 0) := repairRows_rd false spares v hhead ho
  generalize v.repairRows false spares = w at *
  have hrd {o : Nat} (hboot : o ≠ R.GLB_BOOT) (hstatus : o ≠ R.GLB_STATUS) :
      (w.setFld R.GLB_STATUS F.GLB_STATUS_HBM_READY 1).phaseReady.rd o = w.rd o :=
    (phaseReady_rd _ hboot).trans (w.rd_setFld_of_ne _ _ hstatus)
  refine ⟨_, hexec, phaseReady_setFld_flag (hrec.wf hvwf) _ (by decide) (by decide), ?_, fun m hm => ?_, ?_, ?_⟩
  · exact (State.fld_congr ((hrd (by decide) (by decide)).trans (hwrd (by decide) (by decide))) _).trans hok
  · have hm' : (w.setFld R.GLB_STATUS F.GLB_STATUS_HBM_READY 1).phaseReady.rd (R.MEM_HBM_STATUS m) =
        u.rd (R.MEM_HBM_STATUS m) := by
      rw [hrd, hwrd, hvrd]
      all_goals
        simp only [R.MEM_HBM_STATUS, R.GLB_BOOT, R.GLB_STATUS, R.MEM_STATUS, R.MEM_EVENT, R.MEM_EVENT_HEAD]
        omega
    obtain ⟨hstate, hsize⟩ := Prod.mk.inj (hself hm)
    exact ⟨(State.fld_congr hm' _).trans hstate, (State.fld_congr hm' _).trans hsize⟩
  · rw [phaseReady_same, State.setFld_mem, hrec.frame, hvsame]
  · rw [phaseReady_same, State.setFld_dxn, hrec.frame, hvsame]

/-! ## DDR5 training -/

theorem dimmReason_le (l : List DimmInfo) : dimmReason l ≤ 5 := by
  unfold dimmReason
  extract_lets
  split
  · decide
  · split
    · decide
    · split
      · decide
      · split <;> decide

/-- A usable population changes registers, and is the one in use. -/
theorem ddrUsable_frame (s : State) (l : List DimmInfo) :
    s.ddrUsable l = { s with regs := (s.ddrUsable l).regs, mem := { s.mem with dimms := l } } := by
  unfold State.ddrUsable
  extract_lets n per size ranks off s1 s2 src
  have h1 : SameButRegs s s1 := ((s.setFld_same ..).trans (State.setFld_same ..)).trans (State.setFld_same ..)
  have h2 : SameButRegs s1 s2 := foldl_rel SameButRegs .refl (fun _ _ _ => .trans)
    (fun (s : State) (c : Nat) => s.wr (R.MEM_DDR_STATUS c) (F.MEM_DDR_STATUS_STATE.put 1 ||| F.MEM_DDR_STATUS_RANKS.put ranks |||
      F.MEM_DDR_STATUS_SIZE_GIB.put size)) (fun _ _ => rfl) _ s1
  have hsrc : src = s2.mem := rfl
  clear_value s2 s1
  rw [hsrc, h2, h1]

theorem ddrUsable_regsWf (l : List DimmInfo) (h : s.regsWf = true) : (s.ddrUsable l).regsWf = true := by
  unfold State.ddrUsable
  extract_lets n per size ranks off s1 s2 src
  have h1 : s1.regsWf = true := State.setFld_regsWf _ _ _ _ (State.setFld_regsWf _ _ _ _ (s.setFld_regsWf _ _ _ h))
  have h2 : s2.regsWf = true :=
    foldl_keeps (P := fun u : State => u.regsWf = true) (fun u _ _ hu => u.wr_regsWf _ _ hu) h1
  exact h2

/-- What DDR5 training leaves before its READY bit is set. -/
def ddrTrained (dimms : List DimmInfo) (trained : BitVec 8) (spares : List Bool) (s : State) : State :=
  if dimms.isEmpty then s
  else if (if dimms.isEmpty then 0 else dimmReason dimms) ≠ 0 then
    s.setFld R.MEM_STATUS F.MEM_STATUS_DDR_REASON (if dimms.isEmpty then 0 else dimmReason dimms)
  else match (dimmChannels dimms).find? fun c => !trained.getLsbD c with
    | some c =>
      (((List.range c).foldl (fun s c => s.setFld (R.MEM_DDR_STATUS c) F.MEM_DDR_STATUS_STATE 1) s).setFld
        (R.MEM_DDR_STATUS c) F.MEM_DDR_STATUS_STATE 2).setFld R.MEM_STATUS F.MEM_STATUS_DDR_REASON 1
    | none => (s.ddrUsable dimms).repairRows true spares

theorem exec_ddrTrainingDone (dimms : List DimmInfo) (trained : BitVec 8) (spares : List Bool) (hlow : 4 ≤ s.phase)
    (hrom : s.phase ≠ 0xF) (hready : s.flag R.GLB_STATUS F.GLB_STATUS_DDR_READY = false) :
    exec (.ddrTrainingDone dimms trained spares) s =
      .next ((ddrTrained dimms trained spares s).setFld R.GLB_STATUS F.GLB_STATUS_DDR_READY 1).phaseReady :=
  if_neg (by simp [hrom, hready]; omega)

section
variable {dimms : List DimmInfo} (trained : BitVec 8) (spares : List Bool)

theorem ddrTrained_of_empty : ddrTrained [] trained spares s = s := rfl

theorem ddrTrained_of_reason (hne : dimms ≠ []) (hr : dimmReason dimms ≠ 0) :
    ddrTrained dimms trained spares s = s.setFld R.MEM_STATUS F.MEM_STATUS_DDR_REASON (dimmReason dimms) := by
  have he : dimms.isEmpty = false := by simpa using hne
  simp [ddrTrained, he, hr]

theorem ddrTrained_of_untrained (hne : dimms ≠ []) (hr : dimmReason dimms = 0) {c : Nat}
    (hc : (dimmChannels dimms).find? (fun c => !trained.getLsbD c) = some c) : ddrTrained dimms trained spares s =
      (((List.range c).foldl (fun s c => s.setFld (R.MEM_DDR_STATUS c) F.MEM_DDR_STATUS_STATE 1) s).setFld
        (R.MEM_DDR_STATUS c) F.MEM_DDR_STATUS_STATE 2).setFld R.MEM_STATUS F.MEM_STATUS_DDR_REASON 1 := by
  have he : dimms.isEmpty = false := by simpa using hne
  simp [ddrTrained, he, hr, hc]

theorem ddrTrained_of_trained (hne : dimms ≠ []) (hr : dimmReason dimms = 0)
    (hc : (dimmChannels dimms).find? (fun c => !trained.getLsbD c) = none) :
    ddrTrained dimms trained spares s = (s.ddrUsable dimms).repairRows true spares := by
  have he : dimms.isEmpty = false := by simpa using hne
  simp [ddrTrained, he, hr, hc]

/-- Training of any outcome keeps the register store canonical and memory's bytes. -/
theorem ddrTrained_keeps (hwf : s.regsWf = true) :
    (ddrTrained dimms trained spares s).regsWf = true ∧ (ddrTrained dimms trained spares s).mem.bytes = s.mem.bytes := by
  by_cases hne : dimms = []
  · subst hne
    exact ⟨hwf, rfl⟩
  · by_cases hr : dimmReason dimms = 0
    · cases hc : (dimmChannels dimms).find? (fun c => !trained.getLsbD c) with
      | none =>
        have hrec := repairRows_recorded true spares (s.ddrUsable dimms)
        rw [ddrTrained_of_trained trained spares hne hr hc]
        exact ⟨hrec.wf (ddrUsable_regsWf dimms hwf), by rw [hrec.frame, ddrUsable_frame]⟩
      | some c =>
        rw [ddrTrained_of_untrained trained spares hne hr hc]
        have hfold := foldl_keeps (P := fun u : State => u.regsWf = true ∧ u.mem = s.mem) (xs := List.range c)
          (f := fun s c => s.setFld (R.MEM_DDR_STATUS c) F.MEM_DDR_STATUS_STATE 1)
          (fun u _ _ hu => ⟨u.setFld_regsWf _ _ _ hu.1, hu.2⟩) (s := s) ⟨hwf, rfl⟩
        obtain ⟨huwf, humem⟩ := hfold
        exact ⟨State.setFld_regsWf _ _ _ _ (State.setFld_regsWf _ _ _ _ huwf), congrArg Mem.bytes humem⟩
    · rw [ddrTrained_of_reason trained spares hne hr]
      exact ⟨s.setFld_regsWf _ _ _ hwf, rfl⟩

theorem ddrTraining_effect (hwf : s.regsWf = true) (hlow : 4 ≤ s.phase)
    (hrom : s.phase ≠ 0xF) (hready : s.flag R.GLB_STATUS F.GLB_STATUS_DDR_READY = false) :
    Answers (exec (.ddrTrainingDone dimms trained spares) s) fun t =>
      t.flag R.GLB_STATUS F.GLB_STATUS_DDR_READY = true ∧ t.mem.bytes = s.mem.bytes ∧
      (dimms = [] → s.RegsBut t [R.GLB_STATUS, R.GLB_BOOT] ∧ t.mem = s.mem) ∧
      (dimms ≠ [] → dimmReason dimms ≠ 0 → t.mem = s.mem ∧
        t.fld R.MEM_STATUS F.MEM_STATUS_DDR_REASON = dimmReason dimms ∧
        s.RegsBut t [R.GLB_STATUS, R.GLB_BOOT, R.MEM_STATUS]) ∧
      (dimms ≠ [] → dimmReason dimms = 0 → (dimmChannels dimms).all trained.getLsbD = true → t.mem.dimms = dimms) := by
  have hexec := exec_ddrTrainingDone dimms trained spares hlow hrom hready
  obtain ⟨huwf, hbytes⟩ := ddrTrained_keeps (dimms := dimms) trained spares hwf
  have hmem (u : State) : (u.setFld R.GLB_STATUS F.GLB_STATUS_DDR_READY 1).phaseReady.mem = u.mem := by
    rw [phaseReady_same]; rfl
  have hrd (u : State) {o : Nat} (hboot : o ≠ R.GLB_BOOT) (hstatus : o ≠ R.GLB_STATUS) :
      (u.setFld R.GLB_STATUS F.GLB_STATUS_DDR_READY 1).phaseReady.rd o = u.rd o :=
    (phaseReady_rd _ hboot).trans (u.rd_setFld_of_ne _ _ hstatus)
  refine ⟨_, hexec, phaseReady_setFld_flag huwf _ (by decide) (by decide), by rw [hmem, hbytes], ?_, ?_, ?_⟩
  · rintro rfl
    rw [ddrTrained_of_empty]
    refine ⟨fun o ho => ?_, hmem s⟩
    obtain ⟨hstatus, hboot⟩ : o ≠ R.GLB_STATUS ∧ o ≠ R.GLB_BOOT := by simpa using ho
    exact hrd s hboot hstatus
  · intro hne hr
    rw [ddrTrained_of_reason trained spares hne hr]
    refine ⟨hmem _, ?_, fun o ho => ?_⟩
    · refine (State.fld_congr (hrd _ (by decide) (by decide)) _).trans ((s.fld_setFld_self _ _ _ hwf (by decide)).trans ?_)
      exact Nat.mod_eq_of_lt (lt_of_le_of_lt (dimmReason_le dimms) (by decide))
    · obtain ⟨hstatus, hboot, hreason⟩ : o ≠ R.GLB_STATUS ∧ o ≠ R.GLB_BOOT ∧ o ≠ R.MEM_STATUS := by simpa using ho
      exact (hrd _ hboot hstatus).trans (s.rd_setFld_of_ne _ _ hreason)
  · intro hne hr hall
    have hc : (dimmChannels dimms).find? (fun c => !trained.getLsbD c) = none := by
      rw [List.find?_eq_none]
      intro c hc
      simp [List.all_eq_true.1 hall c hc]
    rw [hmem, ddrTrained_of_trained trained spares hne hr hc, (repairRows_recorded true spares _).frame, ddrUsable_frame]

end

theorem opticsPhase_effect (hwf : s.regsWf = true) (hlow : 4 ≤ s.phase) (hrom : s.phase ≠ 0xF) :
    Answers (exec .opticsPhaseDone s) fun t =>
    t.flag R.GLB_STATUS F.GLB_STATUS_OPTICS_READY = true ∧ t.fld R.GLB_STATUS F.GLB_STATUS_ENGINES_LOCKED =
      ((List.range 32).filter fun e => s.fld (R.OPT_STATUS e) F.OPT_STATUS_STATE == 2).length ∧
    s.RegsBut t [R.GLB_STATUS, R.GLB_BOOT] ∧ t = { s with regs := t.regs } := by
  set n := ((List.range 32).filter fun e => s.fld (R.OPT_STATUS e) F.OPT_STATUS_STATE == 2).length with hn
  have hexec : exec .opticsPhaseDone s = .next ((s.setFld R.GLB_STATUS F.GLB_STATUS_ENGINES_LOCKED n).setFld
    R.GLB_STATUS F.GLB_STATUS_OPTICS_READY 1).phaseReady := if_neg (by omega)
  have hle : n ≤ 32 := (List.length_filter_le _ _).trans (by simp)
  have huwf := s.setFld_regsWf R.GLB_STATUS F.GLB_STATUS_ENGINES_LOCKED n hwf
  have hboot : R.GLB_STATUS ≠ R.GLB_BOOT := by decide
  refine ⟨_, hexec, phaseReady_setFld_flag huwf _ (by decide) (by decide), ?_, fun o ho => ?_, ?_⟩
  · rw [State.fld_congr (phaseReady_rd _ hboot), State.fld_setFld_of_disjoint _ _ _ _ _ huwf (by decide) (by decide),
      s.fld_setFld_self _ _ _ hwf (by decide)]
    exact Nat.mod_eq_of_lt (lt_of_le_of_lt hle (by decide))
  · obtain ⟨hstatus, hboot⟩ : o ≠ R.GLB_STATUS ∧ o ≠ R.GLB_BOOT := by simpa using ho
    exact (phaseReady_rd _ hboot).trans ((State.rd_setFld_of_ne _ _ _ hstatus).trans (s.rd_setFld_of_ne _ _ hstatus))
  · exact (SameButRegs.trans (s.setFld_same ..) (State.setFld_same ..)).trans (phaseReady_same _)

/-- Settles O11: one lemma for the end of each phase, and `phaseReady_eq` for the start of READY. -/
theorem startupPhases : Obligations.StartupPhases :=
  ⟨fun _ => wellheadPhase_effect, fun _ => corePhase_effect, fun trained spares _ => hbmTraining_effect trained spares,
    fun _ trained spares _ => ddrTraining_effect trained spares, fun _ => opticsPhase_effect, phaseReady_eq⟩

end Sys2Proof.Proofs
end
section
/-! PROOF. Link training (spec/03 R66): the order of combinations, what a combination that trains leaves, and what start-up and a
retraining make of it. -/

namespace Sys2Proof.Proofs
open Sys2Proof Sys2Proof.Machine

variable {s t : State} {trains : BitVec 6} {lopt : Bool}

/-- What a link that trains with a combination shows. -/
def linkUp (s : State) (lopt : Bool) (c : Bool × Nat) : State :=
  (((s.setFld R.HIF_LINK_STATUS F.HIF_LINK_STATUS_UP 1).setFld R.HIF_LINK_STATUS F.HIF_LINK_STATUS_RATE (c.2 + 1)).setFld
    R.HIF_LINK_STATUS F.HIF_LINK_STATUS_WIDTH (1 + b2n c.1)).setFld R.HIF_LINK_STATUS F.HIF_LINK_STATUS_LOPT
    (b2n (lopt && (((s.setFld R.HIF_LINK_STATUS F.HIF_LINK_STATUS_UP 1).setFld R.HIF_LINK_STATUS F.HIF_LINK_STATUS_RATE
      (c.2 + 1)).setFld R.HIF_LINK_STATUS F.HIF_LINK_STATUS_WIDTH (1 + b2n c.1)).flag R.HIF_LINK_CTRL
        F.HIF_LINK_CTRL_LOPT_ALLOW))

theorem train_eq (s : State) (trains : BitVec 6) (lopt : Bool) : s.train trains lopt =
    ((trainOrder s.linkLimits.1 s.linkLimits.2).find? fun c => trains.getLsbD (3 * b2n c.1 + c.2)).map (linkUp s lopt) := rfl

theorem linkLimits_rate_le (s : State) : s.linkLimits.2 ≤ 2 := by
  have hrate : (if bitOf (s.fld R.GLB_BOOT F.GLB_BOOT_STRAPS) 0 then 1 else 2) ≤ 2 := by split <;> decide
  unfold State.linkLimits
  dsimp only
  split
  · exact hrate
  · exact (min_le_left _ _).trans hrate

theorem rate_le_of_mem_trainOrder {x16 : Bool} {rate : Nat} {c : Bool × Nat} (h : c ∈ trainOrder x16 rate) : c.2 ≤ rate := by
  have hdown {r : Nat} (hr : r ∈ (List.range (rate + 1)).reverse) : r ≤ rate := by simpa [Nat.lt_succ_iff] using hr
  unfold trainOrder at h
  obtain h | h := List.mem_append.1 h
  · cases x16
    · simp at h
    · obtain ⟨r, hr, rfl⟩ := List.mem_map.1 h
      exact hdown (List.mem_of_mem_take hr)
  · obtain ⟨r, hr, rfl⟩ := List.mem_map.1 h
    exact hdown hr

/-- A link that is up shows UP, its rate and its width: the fields are set one after another. -/
theorem linkUp_fields (hwf : s.regsWf = true) (c : Bool × Nat) (hc : c.2 ≤ 2) :
    (linkUp s lopt c).flag R.HIF_LINK_STATUS F.HIF_LINK_STATUS_UP = true ∧
    (linkUp s lopt c).fld R.HIF_LINK_STATUS F.HIF_LINK_STATUS_RATE = c.2 + 1 ∧
    (linkUp s lopt c).fld R.HIF_LINK_STATUS F.HIF_LINK_STATUS_WIDTH = 1 + b2n c.1 := by
  have h1 := s.setFld_regsWf R.HIF_LINK_STATUS F.HIF_LINK_STATUS_UP 1 hwf
  have h2 := State.setFld_regsWf _ R.HIF_LINK_STATUS F.HIF_LINK_STATUS_RATE (c.2 + 1) h1
  have h3 := State.setFld_regsWf _ R.HIF_LINK_STATUS F.HIF_LINK_STATUS_WIDTH (1 + b2n c.1) h2
  have hb : b2n c.1 ≤ 1 := by unfold b2n; split <;> decide
  unfold linkUp
  refine ⟨?_, ?_, ?_⟩
  · rw [State.flag, State.fld_setFld_of_disjoint _ _ _ _ _ h3 (by decide) (by decide),
      State.fld_setFld_of_disjoint _ _ _ _ _ h2 (by decide) (by decide),
      State.fld_setFld_of_disjoint _ _ _ _ _ h1 (by decide) (by decide), s.fld_setFld_self _ _ _ hwf (by decide)]
    rfl
  · rw [State.fld_setFld_of_disjoint _ _ _ _ _ h3 (by decide) (by decide),
      State.fld_setFld_of_disjoint _ _ _ _ _ h2 (by decide) (by decide), State.fld_setFld_self _ _ _ _ h1 (by decide)]
    exact Nat.mod_eq_of_lt (by simp only; omega)
  · rw [State.fld_setFld_of_disjoint _ _ _ _ _ h3 (by decide) (by decide), State.fld_setFld_self _ _ _ _ h2 (by decide)]
    exact Nat.mod_eq_of_lt (by simp only; omega)

theorem linkUp_regsBut (s : State) (lopt : Bool) (c : Bool × Nat) : s.RegsBut (linkUp s lopt c) [R.HIF_LINK_STATUS] :=
  ((((State.RegsBut.refl s _).setFld List.mem_cons_self _ _).setFld List.mem_cons_self _ _).setFld
    List.mem_cons_self _ _).setFld List.mem_cons_self _ _

theorem linkUp_same (s : State) (lopt : Bool) (c : Bool × Nat) : SameButRegs s (linkUp s lopt c) :=
  (((s.setFld_same ..).trans (State.setFld_same ..)).trans (State.setFld_same ..)).trans (State.setFld_same ..)

/-- A link that trains uses the first combination of the order that trains. -/
theorem train_eq_some (h : s.train trains lopt = some t) : ∃ c ∈ trainOrder s.linkLimits.1 s.linkLimits.2,
    trains.getLsbD (3 * b2n c.1 + c.2) = true ∧ t = linkUp s lopt c := by
  rw [train_eq, Option.map_eq_some_iff] at h
  obtain ⟨c, hfind, rfl⟩ := h
  exact ⟨c, List.mem_of_find?_eq_some hfind, by simpa using List.find?_some hfind, rfl⟩

theorem train_eq_none (h : s.train trains lopt = none) (c : Bool × Nat)
    (hc : c ∈ trainOrder s.linkLimits.1 s.linkLimits.2) : trains.getLsbD (3 * b2n c.1 + c.2) = false := by
  rw [train_eq, Option.map_eq_none_iff, List.find?_eq_none] at h
  simpa using h c hc

/-- Settles O12: `train_eq_some` and `train_eq_none` say what training finds, `linkUp_fields` what it leaves. -/
theorem linkTraining : Obligations.LinkTraining := by
  unfold Obligations.LinkTraining
  refine ⟨?start, ?retrain, ?up, fun trains lopt s => train_eq_none⟩
  case start =>
    intro trains lopt s hperst hplace hlow hrom hdown
    have hexec : exec (.linkTrain trains lopt) s = _ := if_neg (by simp [hperst, hplace, hrom, hdown]; omega)
    rw [hexec]
    cases (s.setFld R.HIF_LINK_CTRL F.HIF_LINK_CTRL_RETRAIN 0).train trains lopt <;> rfl
  case retrain =>
    intro trains lopt s hperst hplace hup
    have hexec : exec (.linkRetrain trains lopt) s = _ := if_neg (by simp [hperst, hplace, hup])
    rw [hexec, if_pos hup]
    dsimp only
    generalize ((s.incSat R.HIF_LINK_STATUS F.HIF_LINK_STATUS_RETRAINS).count (ctrHif 15)).setFld R.HIF_LINK_CTRL
      F.HIF_LINK_CTRL_RETRAIN 0 = u
    cases u.train trains lopt <;> rfl
  case up =>
    intro trains lopt s t hwf ht
    obtain ⟨c, hc, htrains, rfl⟩ := train_eq_some ht
    obtain ⟨hup, hrate, hwidth⟩ := linkUp_fields (lopt := lopt) hwf c
      ((rate_le_of_mem_trainOrder hc).trans (linkLimits_rate_le s))
    exact ⟨hup, linkUp_regsBut s lopt c, linkUp_same s lopt c, c.1, c.2, hc, htrains, hrate, hwidth⟩

end Sys2Proof.Proofs
end

section
/-! PROOF. The laser sources (spec/01 R34 to R37): the multiplexers, scans, polls, the pairing check and the end of a ramp. -/

namespace Sys2Proof.Proofs
open Sys2Proof Sys2Proof.Machine

variable {s t : State}

/-! ## The sources -/

theorem laser_setLaser_of_ne (s : State) {e d : Nat} (l : Laser) (h : d ≠ e) : (s.setLaser e l).laser d = s.laser d :=
  sget_sset_of_ne _ _ _ l h

theorem laser_setLaser_self (e : Nat) (l : Laser) (h : swf (fun _ => {}) s.lasers = true) : (s.setLaser e l).laser e = l :=
  sget_sset_self (d := fun _ => {}) e l h

/-- A source that is not as at reset is found as it was set, whatever the store. -/
theorem laser_setLaser_self_of_ne (s : State) (e : Nat) {l : Laser} (h : l ≠ {}) : (s.setLaser e l).laser e = l := by
  unfold State.setLaser State.laser sset
  rw [if_neg h]
  exact sget_sput_self _ _ e l

theorem setLaser_wf (e : Nat) (l : Laser) (h : swf (fun _ => ({} : Laser)) s.lasers = true) :
    swf (fun _ => ({} : Laser)) (s.setLaser e l).lasers = true := swf_sset (d := fun _ => ({} : Laser)) h

theorem laser_congr (h : t.lasers = s.lasers) (e : Nat) : t.laser e = s.laser e := by rw [State.laser, h, State.laser]

theorem sameButLas_lasers {s t : State} (h : SameButLas s t) : t.lasers = s.lasers := by
  obtain ⟨m, o, rfl⟩ := h
  rfl

theorem sameButLas_regs {s t : State} (h : SameButLas s t) : t.regs = s.regs := by
  obtain ⟨m, o, rfl⟩ := h
  rfl

/-! ## The multiplexers -/

/-- The channel-select register of multiplexer m, as it stands. -/
def muxAt (s : State) (m : Nat) : Byte := sget 0 s.board.lasMux (0x70 + m)

/-- The other multiplexers are closed before a channel is opened. -/
def closeMux (e : Nat) (s : State) (m : Nat) : State :=
  if m ≠ e / 8 ∧ sget 0 s.board.lasMux (0x70 + m) ≠ 0 then s.lasMuxWrite m 0 else s

theorem lasSelect_eq (s : State) (e : Nat) : s.lasSelect e =
    if muxAt ((List.range 4).foldl (closeMux e) s) (e / 8) = BitVec.ofNat 8 (2 ^ (e % 8)) then (List.range 4).foldl (closeMux e) s
    else ((List.range 4).foldl (closeMux e) s).lasMuxWrite (e / 8) (BitVec.ofNat 8 (2 ^ (e % 8))) := rfl

theorem muxAt_write_self (m : Nat) (b : Byte) (h : swf (fun _ => 0) s.board.lasMux = true) : muxAt (s.lasMuxWrite m b) m = b :=
  sget_sset_self (d := fun _ => 0) _ b h

theorem muxAt_write_of_ne (s : State) {m k : Nat} (b : Byte) (h : k ≠ m) : muxAt (s.lasMuxWrite m b) k = muxAt s k :=
  sget_sset_of_ne _ _ _ b (by omega)

theorem lasMuxWrite_wf (m : Nat) (b : Byte) (h : swf (fun _ => 0) s.board.lasMux = true) :
    swf (fun _ => 0) (s.lasMuxWrite m b).board.lasMux = true := swf_sset (d := fun _ => 0) h

theorem closeMux_wf (e m : Nat) (h : swf (fun _ => 0) s.board.lasMux = true) :
    swf (fun _ => 0) (closeMux e s m).board.lasMux = true := by
  unfold closeMux
  split
  · exact lasMuxWrite_wf m 0 h
  · exact h

theorem closeMux_of_ne (s : State) (e : Nat) {m k : Nat} (h : k ≠ m) : muxAt (closeMux e s m) k = muxAt s k := by
  unfold closeMux
  split
  · exact muxAt_write_of_ne s 0 h
  · rfl

theorem closeMux_self {e m : Nat} (hm : m ≠ e / 8) (h : swf (fun _ => 0) s.board.lasMux = true) :
    muxAt (closeMux e s m) m = 0 := by
  unfold closeMux
  by_cases hz : sget 0 s.board.lasMux (0x70 + m) = 0
  · rw [if_neg fun h => h.2 hz]
    exact hz
  · rw [if_pos ⟨hm, hz⟩]
    exact muxAt_write_self m 0 h

/-- Of the four multiplexers the one of the source alone has a channel open, and it is the source's. -/
theorem lasSelect_mux {e m : Nat} (h : swf (fun _ => 0) s.board.lasMux = true) (hm : m < 4) :
    muxAt (s.lasSelect e) m = if m = e / 8 then BitVec.ofNat 8 (2 ^ (e % 8)) else 0 := by
  have hclosed {k : Nat} (hk : k < 4) (hne : k ≠ e / 8) : muxAt ((List.range 4).foldl (closeMux e) s) k = 0 := by
    have hset := foldl_settles (P := fun u : State => swf (fun _ => 0) u.board.lasMux = true) (f := closeMux e)
      (get := fun u m => if m = e / 8 then 0 else muxAt u m) (v := fun _ => 0) List.nodup_range
      (fun u m _ hu => closeMux_wf e m hu)
      (fun u m _ hu => by
        split
        · rfl
        · exact closeMux_self ‹_› hu)
      (fun u m _ k hkm => by simp only [closeMux_of_ne u e hkm]) h (List.mem_range.2 hk)
    rwa [if_neg hne] at hset
  have hwf : swf (fun _ => 0) ((List.range 4).foldl (closeMux e) s).board.lasMux = true :=
    foldl_keeps (P := fun u : State => swf (fun _ => 0) u.board.lasMux = true) (fun u m _ hu => closeMux_wf e m hu) h
  rw [lasSelect_eq]
  generalize (List.range 4).foldl (closeMux e) s = u at *
  by_cases hme : m = e / 8
  · subst hme
    rw [if_pos rfl]
    split
    · assumption
    · exact muxAt_write_self _ _ hwf
  · rw [if_neg hme]
    split
    · exact hclosed hm hme
    · exact (muxAt_write_of_ne u _ hme).trans (hclosed hm hme)

/-! ## Scans -/

/-- One source of a scan. -/
def scanAt (scan : List LaserScan) (s : State) (e : Nat) : State := match scan[e]? with
  | some x => (s.lasRead e).scanOne e x
  | none => s

theorem exec_lasIntNFall (scan : List LaserScan) (h : s.board.place = .running) : exec (.lasIntNFall scan) s =
    .next ((List.range 32).foldl (scanAt scan) { s with board.lasIntN := false }) := if_neg (not_not.2 h)

/-- A source that is found as it was stays as it is. -/
theorem scanOne_unchanged {e : Nat} {x : LaserScan} (hpresent : x.present = (s.laser e).present) (hfault : x.fault = false)
    (hserial : x.present = true → x.serial = (s.laser e).serial) : s.scanOne e x = s := by
  unfold State.scanOne
  cases hx : x.present
  · simp [← hpresent, hx]
  · simp [← hpresent, hx, hfault, hserial hx]

/-- A source that was not there is unpaired and off. -/
theorem scanOne_new {e : Nat} {x : LaserScan} (hpresent : x.present = true) (hfault : x.fault = false)
    (habsent : (s.laser e).present = false) : s.scanOne e x = (s.setLaser e { s.laser e with
      present := true, serial := x.serial, paired := false, level := .off }).pairedBit e := by
  unfold State.scanOne
  simp [hpresent, hfault, habsent]

theorem pairedBit_rd (s : State) (e : Nat) {o : Nat} (h : o ≠ R.OPT_STATUS e) : (s.pairedBit e).rd o = s.rd o :=
  s.rd_setFld_of_ne _ _ h

theorem pairedBit_laser (s : State) (e d : Nat) : (s.pairedBit e).laser d = s.laser d := rfl

theorem pairedBit_flag (e : Nat) (h : s.regsWf = true) :
    (s.pairedBit e).flag (R.OPT_STATUS e) F.OPT_STATUS_PAIRED = (s.laser e).paired := by
  unfold State.flag State.pairedBit
  rw [s.fld_setFld_self _ _ _ h (by decide)]
  cases (s.laser e).paired <;> rfl

/-! ## Polls -/

/-- One source of a poll. -/
def pollAt (readings : List LaserReading) (s : State) (e : Nat) : State := match readings[e]? with
  | some x => s.pollOne e x
  | none => s

theorem exec_laserPoll (readings : List LaserReading) (h : s.board.place = .running) : exec (.laserPoll readings) s =
    .next ((List.range 32).foldl (pollAt readings) s) := if_neg (not_not.2 h)

/-- What a poll changes: sources, the hour's readings, the multiplexers and what is sent on LAS_I3C. -/
def Polled (s t : State) : Prop :=
  ∃ l h m o, t = { s with lasers := l, ldg := { s.ldg with laserHour := h }, out := { s.out with las := o }
                          board := { s.board with lasMux := m } }

theorem Polled.refl (s : State) : Polled s s := ⟨_, _, _, _, rfl⟩

theorem Polled.trans {s t u : State} (h : Polled s t) (k : Polled t u) : Polled s u := by
  obtain ⟨l, a, m, o, rfl⟩ := h
  obtain ⟨l', a', m', o', rfl⟩ := k
  exact ⟨l', a', m', o', rfl⟩

/-- A poll of one source reads it, takes its readings and keeps them for the hour. -/
theorem pollOne_eq (s : State) (e : Nat) (x : LaserReading) : ∃ h, s.pollOne e x =
    if (s.laser e).level = .off then s
    else { (s.lasRead e).setLaser e { s.laser e with temp := x.temp, bias := x.bias, power := x.power, flags := x.flags } with
      ldg := { (s.lasRead e).ldg with laserHour := h } } := by
  obtain ⟨⟨sum, lo, hi, n⟩, hhour⟩ : ∃ p, sget (0, 0, 0, 0) s.ldg.laserHour e = p := ⟨_, rfl⟩
  unfold State.pollOne
  rw [hhour]
  exact ⟨_, rfl⟩

theorem pollOne_polled (s : State) (e : Nat) (x : LaserReading) : Polled s (s.pollOne e x) := by
  obtain ⟨m, o, hlas⟩ := s.lasRead_same e
  obtain ⟨h, hpoll⟩ := pollOne_eq s e x
  rw [hpoll]
  split
  · exact .refl s
  · rw [hlas]
    exact ⟨_, _, m, o, rfl⟩

theorem pollOne_lasers (s : State) (e : Nat) (x : LaserReading) : (s.pollOne e x).lasers =
    if (s.laser e).level = .off then s.lasers
    else sset {} s.lasers e { s.laser e with temp := x.temp, bias := x.bias, power := x.power, flags := x.flags } := by
  obtain ⟨h, hpoll⟩ := pollOne_eq s e x
  have hlas := sameButLas_lasers (s.lasRead_same e)
  rw [hpoll]
  generalize s.lasRead e = u at hlas ⊢
  split
  · rfl
  · show sset {} u.lasers e _ = _
    rw [hlas]

/-- What a poll makes of a source: an enabled one takes its reading. -/
def polledLaser (readings : List LaserReading) (l : Laser) (e : Nat) : Laser := match readings[e]? with
  | some x => if l.level = .off then l else { l with temp := x.temp, bias := x.bias, power := x.power, flags := x.flags }
  | none => l

theorem pollAt_wf (readings : List LaserReading) (e : Nat) (h : swf (fun _ => {}) s.lasers = true) :
    swf (fun _ => {}) (pollAt readings s e).lasers = true := by
  unfold pollAt
  split
  · rw [pollOne_lasers]
    split
    · exact h
    · exact swf_sset (d := fun _ => ({} : Laser)) h
  · exact h

theorem pollAt_self (readings : List LaserReading) (e : Nat) (h : swf (fun _ => {}) s.lasers = true) :
    (pollAt readings s e).laser e = polledLaser readings (s.laser e) e := by
  unfold pollAt polledLaser
  split
  · rw [State.laser, pollOne_lasers]
    split
    · rfl
    · exact sget_sset_self (d := fun _ => {}) e _ h
  · rfl

theorem pollAt_of_ne (readings : List LaserReading) (s : State) {e d : Nat} (h : d ≠ e) :
    (pollAt readings s e).laser d = s.laser d := by
  unfold pollAt
  split
  · rw [State.laser, pollOne_lasers]
    split
    · rfl
    · exact sget_sset_of_ne _ _ _ _ h
  · rfl

/-- Every source after a run of a poll over different sources: those of the run as the poll makes them. -/
theorem foldl_pollAt_laser (readings : List LaserReading) {l : List Nat} (hl : l.Nodup)
    (h : swf (fun _ => {}) s.lasers = true) (e : Nat) :
    (l.foldl (pollAt readings) s).laser e = if e ∈ l then polledLaser readings (s.laser e) e else s.laser e := by
  induction l generalizing s with
  | nil => rfl
  | cons d t ih =>
    obtain ⟨hd, ht⟩ := List.nodup_cons.1 hl
    rw [List.foldl_cons, ih ht (pollAt_wf readings d h)]
    by_cases he : e = d
    · subst he
      rw [if_neg hd, if_pos List.mem_cons_self, pollAt_self readings e h]
    · simp only [pollAt_of_ne readings s he, List.mem_cons, he, false_or]

/-! ## The pairing check -/

theorem otherEngine_two_pow {e r : Nat} (hr : r < 32) (hne : r ≠ e) :
    otherEngine e (BitVec.ofNat 32 (2 ^ r)) = some r := by
  have hbit (k : Nat) (hk : k < 32) : (BitVec.ofNat 32 (2 ^ r)).getLsbD k = decide (r = k) := by
    rw [BitVec.getLsbD_ofNat, Nat.testBit_two_pow, decide_eq_true hk, Bool.true_and]
  have hsome : (otherEngine e (BitVec.ofNat 32 (2 ^ r))).isSome := by
    unfold otherEngine
    rw [List.find?_isSome]
    exact ⟨r, List.mem_range.2 hr, by rw [hbit r hr]; simp [hne]⟩
  obtain ⟨k, hk⟩ := Option.isSome_iff_exists.1 hsome
  have hfound := List.find?_some hk
  have hmem := List.mem_range.1 (List.mem_of_find?_eq_some hk)
  simp only [Bool.and_eq_true, bne_iff_ne, hbit k hmem, decide_eq_true_eq] at hfound
  rw [hk, hfound.2]

theorem otherEngine_ne {e r : Nat} {light : BitVec 32} (h : otherEngine e light = some r) : r ≠ e := by
  have := List.find?_some h
  simp only [Bool.and_eq_true, bne_iff_ne] at this
  exact this.1

theorem lasSet_lasers (s : State) (e : Nat) (l : LaserLevel) : (s.lasSet e l).lasers = s.lasers :=
  sameButLas_lasers (s.lasSet_same e l)

theorem setLaser_lasSet_regs (s : State) (e : Nat) (l : Laser) (v : LaserLevel) :
    ((s.setLaser e l).lasSet e v).regs = s.regs := by
  have h := sameButLas_regs ((s.setLaser e l).lasSet_same e v)
  exact h

/-- A source whose light appears at its own engine alone: it is paired, and ramps. -/
def ownLight (s : State) (e : Nat) : State :=
  (s.setLaser e { s.laser e with level := .ramping, paired := true, lightLost := false, passed := some (s.laser e).serial }).lasSet
    e .ramping

theorem ownLight_laser (s : State) (e : Nat) : (ownLight s e).laser e =
    { s.laser e with level := .ramping, paired := true, lightLost := false, passed := some (s.laser e).serial } :=
  (laser_congr (lasSet_lasers _ e .ramping) e).trans
    (laser_setLaser_self_of_ne s e fun h => absurd (congrArg Laser.paired h) (by simp))

theorem ownLight_laser_of_ne (s : State) {e d : Nat} (h : d ≠ e) : (ownLight s e).laser d = s.laser d :=
  (laser_congr (lasSet_lasers _ e .ramping) d).trans (laser_setLaser_of_ne s _ h)

theorem ownLight_regs (s : State) (e : Nat) : (ownLight s e).regs = s.regs :=
  setLaser_lasSet_regs ..

/-- Light at the source's own engine alone pairs it. -/
theorem exec_pairingCheckResult_own {e : Fin 32} {light : BitVec 32} (hplace : s.board.place = .running)
    (hlevel : (s.laser e).level = .checking) (hlight : light = BitVec.ofNat 32 (2 ^ e.val)) :
    ∃ first, exec (.pairingCheckResult e light) s = .next
      ({ ownLight s e with ldg := { (ownLight s e).ldg with laserFirst := first } }.pairedBit e) := by
  have hcond : ¬ (s.board.place ≠ .running ∨ (s.laser e).level = .off) := by simp [hplace, hlevel]
  exact ⟨if ((s.laser e).passed != some (s.laser e).serial) then (ownLight s e).ldg.laserFirst.filter (· != e.val) ++ [e.val]
    else (ownLight s e).ldg.laserFirst, ((if_neg hcond).trans (if_pos hlevel)).trans (if_pos hlight)⟩

/-- A source whose check ended without light at its own engine: it is off. -/
def endCheck (s : State) (e : Nat) : State := (s.setLaser e { s.laser e with level := .off }).lasSet e .off

theorem endCheck_laser (e : Nat) (h : swf (fun _ => ({} : Laser)) s.lasers = true) :
    (endCheck s e).laser e = { s.laser e with level := .off } :=
  (laser_congr (lasSet_lasers _ e .off) e).trans (laser_setLaser_self e _ h)

theorem endCheck_regs (s : State) (e : Nat) : (endCheck s e).regs = s.regs := setLaser_lasSet_regs ..

/-- A report bars both sources, and names the engine at the first. -/
theorem laserReport_lasers (s : State) {e r : Nat} (h : r ≠ e) :
    (s.laserReport e r).laser e = { s.laser e with report := some (Fin.ofNat 32 r), barred := true } ∧
    ((s.laserReport e r).laser r).barred = true := by
  have hne (l : Laser) : ({ l with barred := true } : Laser) ≠ {} := fun h => absurd (congrArg Laser.barred h) (by simp)
  unfold State.laserReport
  refine ⟨?_, ?_⟩
  · rw [laser_setLaser_of_ne _ _ (Ne.symm h)]
    exact laser_setLaser_self_of_ne s e (hne { s.laser e with report := some (Fin.ofNat 32 r) })
  · rw [laser_setLaser_self_of_ne _ _ (hne _)]

/-- Light elsewhere, or none, ends the check. -/
theorem exec_pairingCheckResult_other {e : Fin 32} {light : BitVec 32} (hplace : s.board.place = .running)
    (hlevel : (s.laser e).level = .checking) (hlight : light ≠ BitVec.ofNat 32 (2 ^ e.val)) :
    exec (.pairingCheckResult e light) s = .next (match otherEngine e light with
      | none => endCheck s e
      | some r => (endCheck s e).laserReport e r) := by
  have hcond : ¬ (s.board.place ≠ .running ∨ (s.laser e).level = .off) := by simp [hplace, hlevel]
  exact ((if_neg hcond).trans (if_pos hlevel)).trans (if_neg hlight)

/-- Settles O13: what passes through the multiplexers, a scan, a poll and a pairing check leave of each source. -/
theorem laserSources : Obligations.LaserSources := by
  unfold Obligations.LaserSources
  refine ⟨?mux, ?scan, ?new, ?poll, ?checkStart, ?checkResult, ?ramp⟩
  case mux =>
    intro e s _ hwf
    exact ⟨fun m hm => lasSelect_mux hwf hm, rfl, rfl⟩
  case scan =>
    intro scan s hplace hsame
    refine ⟨_, exec_lasIntNFall scan hplace, ?_⟩
    have hfold : SameButLas { s with board.lasIntN := false }
        ((List.range 32).foldl (scanAt scan) { s with board.lasIntN := false }) := by
      refine foldl_keeps (P := SameButLas { s with board.lasIntN := false }) (fun u e he hu => ?_) (.refl _)
      unfold scanAt
      split
      case h_1 x hx =>
        obtain ⟨hpresent, hfault, hserial⟩ := hsame e (List.mem_range.1 he) x hx
        have hlas := hu.trans (u.lasRead_same e)
        have hlaser : (u.lasRead e).laser e = s.laser e := laser_congr (sameButLas_lasers hlas) e
        rw [scanOne_unchanged (by rw [hlaser, hpresent]) hfault (by rw [hlaser]; exact hserial)]
        exact hlas
      case h_2 => exact hu
    obtain ⟨m, o, h⟩ := hfold
    rw [h]
  case new =>
    intro e x s hwf hpresent hfault habsent
    rw [scanOne_new hpresent hfault habsent]
    have hself := laser_setLaser_self_of_ne s e
      (l := { s.laser e with present := true, serial := x.serial, paired := false, level := .off })
      fun h => absurd (congrArg Laser.present h) (by simp)
    have hother {d : Nat} (hd : d ≠ e.val) := laser_setLaser_of_ne s
      { s.laser e with present := true, serial := x.serial, paired := false, level := .off } hd
    have huwf : (s.setLaser e { s.laser e with present := true, serial := x.serial, paired := false, level := .off }).regsWf =
      true := hwf
    have hregs := State.RegsBut.of_regs (s := s) (t := s.setLaser e
      { s.laser e with present := true, serial := x.serial, paired := false, level := .off }) rfl [R.OPT_STATUS e]
    generalize s.setLaser e { s.laser e with present := true, serial := x.serial, paired := false, level := .off } = u at *
    refine ⟨(pairedBit_laser u e e).trans hself, fun d hd => (pairedBit_laser u e d).trans (hother hd), ?_,
      hregs.setFld List.mem_cons_self _ _⟩
    exact (pairedBit_flag _ huwf).trans (congrArg Laser.paired hself)
  case poll =>
    intro readings s hwf hplace
    have hlaser := foldl_pollAt_laser readings (List.nodup_range (n := 32)) hwf
    have hfold : Polled s ((List.range 32).foldl (pollAt readings) s) :=
      foldl_keeps (P := Polled s) (fun u e _ hu => by
        unfold pollAt
        split
        · exact hu.trans (pollOne_polled u e _)
        · exact hu) (.refl s)
    refine ⟨_, exec_laserPoll readings hplace, fun e he x hx hlevel => ?_, fun e he => ?_, ?_⟩
    · have hx' : readings[e]? = some x := hx
      rw [hlaser, if_pos (List.mem_range.2 he), polledLaser, hx']
      exact if_neg hlevel
    · rw [hlaser]
      split
      · unfold polledLaser
        split
        case h_1 x hx =>
          obtain hoff | hnone := he
          · exact if_pos hoff
          · simp [hnone] at hx
        case h_2 => rfl
      · rfl
    · obtain ⟨l, h, m, o, heq⟩ := hfold
      rw [heq]
  case checkStart =>
    intro e s hplace hlow hrom hlevel hpaired hbarred hchecking
    have hlow' : ¬ s.fld R.GLB_BOOT F.GLB_BOOT_PHASE < 4 := not_lt.2 hlow
    exact if_neg (by simp [hplace, hlow', show s.fld R.GLB_BOOT F.GLB_BOOT_PHASE ≠ 0xF from hrom, hlevel, hpaired, hbarred,
      hchecking])
  case checkResult =>
    intro e light s hwf hlwf hplace hlevel
    by_cases hlight : light = BitVec.ofNat 32 (2 ^ e.val)
    · obtain ⟨first, hexec⟩ := exec_pairingCheckResult_own hplace hlevel hlight
      have hself := ownLight_laser s e
      have hother {d : Nat} (hd : d ≠ e.val) := ownLight_laser_of_ne s hd
      have hregs := ownLight_regs s e
      generalize ownLight s e = u at *
      have huwf : u.regsWf = true := State.regsWf_congr hregs hwf
      refine ⟨_, hexec, fun _ => ⟨congrArg Laser.level hself, congrArg Laser.paired hself, ?_, ?_, fun d hd => hother hd⟩,
        fun h => absurd hlight h, fun r hr hne hl => ?_⟩
      · exact (pairedBit_flag (s := { u with ldg := _ }) _ huwf).trans (congrArg Laser.paired hself)
      · exact (State.RegsBut.of_regs hregs _).setFld List.mem_cons_self _ _
      · refine absurd (Nat.pow_right_injective le_rfl ?_) hne
        have := congrArg BitVec.toNat (hl.symm.trans hlight)
        simpa [BitVec.toNat_ofNat, Nat.mod_eq_of_lt (Nat.pow_lt_pow_right (by decide : 1 < 2) hr),
          Nat.mod_eq_of_lt (Nat.pow_lt_pow_right (by decide : 1 < 2) e.isLt)] using this
    · have hself := endCheck_laser e hlwf
      have hregs := endCheck_regs s e
      have hexec := exec_pairingCheckResult_other hplace hlevel hlight
      generalize endCheck s e = u at *
      refine ⟨_, hexec, fun h => absurd h hlight, fun _ => ?_, fun r hr hne hl => ?_⟩
      · cases hfind : otherEngine e light with
        | none =>
          simp only [hself]
          exact ⟨trivial, trivial, hregs⟩
        | some r =>
          obtain ⟨hreport, -⟩ := laserReport_lasers u (otherEngine_ne hfind)
          simp only [hreport, hself]
          exact ⟨trivial, trivial, hregs⟩
      · rw [hl, otherEngine_two_pow hr hne]
        obtain ⟨hreport, hbarred⟩ := laserReport_lasers u hne
        simp only [hreport]
        exact ⟨trivial, trivial, hbarred⟩
  case ramp =>
    intro e s hplace hlevel
    exact if_neg (by simp [hplace, hlevel])

end Sys2Proof.Proofs
end
section
/-! PROOF. Bays (spec/14 R381 to R386): the descent by one state, waking and its end, and what a rail monitor does. -/

namespace Sys2Proof.Proofs
open Sys2Proof Sys2Proof.Machine

variable {s : State}

theorem exec_bayDwellExpiry (n : Fin 50) (s : State) : exec (.bayDwellExpiry n) s =
    if s.bayState n < s.bayTarget n ∧ s.bayKept n = false then .next (s.bayEnter n (s.bayState n + 1)) else .next s := rfl

/-- A bay that enters CLOCK_STOPPED or RETENTION drains its counters and shows the state; the deeper state of an optical group
does more. -/
theorem bayEnter_of_le (s : State) (n : Nat) {st : Nat} (h : st ≤ 2) : s.bayEnter n st = (s.drainBay n).setBay n st := by
  have hne : st ≠ 3 := by omega
  simp only [State.bayEnter, h, hne, if_true, if_false]

theorem drainBay_frame (s : State) (n : Nat) :
    s.drainBay n = { s with cnt := { s.cnt with counters := (s.drainBay n).cnt.counters } } := rfl

theorem setBay_bayState (n st : Nat) (hwf : s.regsWf = true) (hst : st < 8) : (s.setBay n st).bayState n = st :=
  (s.fld_setFld_self (R.PWR_BAY_STATUS n) F.PWR_BAY_STATUS_STATE st hwf (by decide)).trans (Nat.mod_eq_of_lt hst)

theorem descent_effect (n : Fin 50) (hwf : s.regsWf = true) (hlt : s.bayState n < s.bayTarget n) (hkept : s.bayKept n = false)
    (hstate : s.bayState n < 2) : Answers (exec (.bayDwellExpiry n) s) fun t =>
      t.bayState n = s.bayState n + 1 ∧ s.RegsBut t [R.PWR_BAY_STATUS n] ∧
      t = { s with regs := t.regs, cnt := { s.cnt with counters := t.cnt.counters } } := by
  have hexec : exec (.bayDwellExpiry n) s = .next ((s.drainBay n).setBay n (s.bayState n + 1)) := by
    rw [exec_bayDwellExpiry, if_pos ⟨hlt, hkept⟩, bayEnter_of_le s n (by omega)]
  have hdrain := drainBay_frame s n
  generalize s.drainBay n = u at hexec hdrain
  have hregs : u.regs = s.regs := by rw [hdrain]
  refine ⟨_, hexec, setBay_bayState n _ (State.regsWf_congr hregs hwf) (by omega), ?_, ?_⟩
  · exact (State.RegsBut.of_regs hregs _).setFld List.mem_cons_self _ _
  · unfold State.setBay State.setFld State.wr
    rw [hdrain]

theorem exec_bayWake (n : Fin 50) (s : State) : exec (.bayWake n) s = .next (s.wakeBay n) := rfl

/-- The end of a wake in time, of a bay whose state was kept and that belongs to no optical group. -/
theorem exec_bayWakeDone {n : Fin 50} {duration : Nat} {restored : Bool} (hwaking : s.pwr.waking.contains n.val = true)
    (hstate : s.bayState n = 4) (hgroup : n.val < 36 ∨ 44 ≤ n.val) (htime : duration ≤ exitMax (sget 0 s.pwr.saved n.val))
    (hrestored : restored = true) : exec (.bayWakeDone n duration restored) s =
      let u : State := { s with pwr := { s.pwr with waking := s.pwr.waking.filter fun m => m != n.val, saved := sset 0 s.pwr.saved n.val 0 } }
      .next ((((u.setBay n 0).setFld (R.PWR_BAY_STATUS n) F.PWR_BAY_STATUS_LAST_EXIT (min duration 0xFFFF)).incFld
        (R.PWR_BAY_STATUS n) F.PWR_BAY_STATUS_WAKES).splWoken.wakeKept) := by
  change execBayWakeDone n duration restored s = _
  unfold execBayWakeDone
  rw [if_neg (by rw [hwaking]; simp [hstate])]
  generalize sget 0 s.pwr.saved n.val = old at htime
  dsimp only
  rw [if_neg (by omega : ¬ 2 * exitMax old < duration), if_neg (by omega : ¬ exitMax old < duration),
    if_neg (by simp [hrestored] : ¬ (old = 2 ∧ restored = false)), if_neg (by omega : ¬ (36 ≤ n.val ∧ n.val < 44))]

theorem exec_railMonitorRelease {n : Fin 50} (hstate : s.bayState n = 6) (hgroup : n.val < 36 ∨ 44 ≤ n.val) :
    exec (.railMonitorRelease n) s = .next (s.setBay n 0).splWoken.wakeKept := by
  change execRailMonitorRelease n s = _
  unfold execRailMonitorRelease
  rw [if_neg (by simp [hstate])]
  dsimp only
  rw [if_neg (by omega : ¬ (36 ≤ n.val ∧ n.val < 44))]

/-- Settles O14: one equation for each command, and `bayEnter_of_le` for the two states that every bay can rest in. -/
theorem bayDescentAndWaking : Obligations.BayDescentAndWaking := by
  unfold Obligations.BayDescentAndWaking
  refine ⟨fun n s => descent_effect n, ?enters, ?stays, ?wakes, ?awake, fun n duration restored s => exec_bayWakeDone, ?trips,
    fun n s => exec_railMonitorRelease⟩
  case enters =>
    intro n s hlt hkept
    rw [exec_bayDwellExpiry, if_pos ⟨hlt, hkept⟩]
  case stays =>
    intro n s hno
    refine if_neg fun ⟨hlt, hkept⟩ => ?_
    obtain hle | hkept' := hno
    · exact absurd hlt (not_lt.2 hle)
    · simp [hkept] at hkept'
  case wakes =>
    intro n s hwf hlow hhigh
    have hrest := (resting_iff s n).2 ⟨hlow, hhigh⟩
    refine ⟨_, exec_bayWake n s, wakeBay_bayState hwf hrest, wakeBay_bayHeld hwf hrest, wakeBay_waking hrest,
      fun o ho => wakeBay_rd_of_ne s (by simpa using ho), ?_⟩
    rw [wakeBay_of_resting hrest]
    rfl
  case awake =>
    intro n s hno
    have hrest : s.resting n ≠ true := fun h => by
      have := (resting_iff s n).1 h
      omega
    exact congrArg _ (if_neg hrest)
  case trips =>
    intro n s hfailed hheld
    exact if_neg (by simp [hfailed, hheld])

end Sys2Proof.Proofs
end

section
/-! PROOF. Sensors and supplies (spec/14 R387 to R392, spec/02): what a sample does, the trip at 115 degrees, a section's steps at
its pace limit, a monitor window's end, and an evaluation of the supply loop. -/

namespace Sys2Proof.Proofs
open Sys2Proof Sys2Proof.Machine

variable {s t u : State}

/-! ## What a sample changes beside its readings -/

/-- The registers that a sample shows its readings in, and the power cap. -/
def SampleReg (o : Nat) : Prop := o = R.PWR_STATUS ∨ o = R.PWR_CTRL ∨ R.THM_SENSOR 0 ≤ o ∧ o < R.THM_SENSOR 53

/-- Two states of which the second comes from the first by what a sample does beside its readings and the power pace. -/
structure Sampled (s t : State) : Prop where
  frame : t = { s with regs := t.regs, board := { s.board with thermN := t.board.thermN }, pwr := t.pwr, spl := t.spl
                       ldg := t.ldg, out := t.out, cnt := t.cnt }
  wf : s.regsWf = true → t.regsWf = true
  rd : ∀ o, SampleReg o → t.rd o = s.rd o
  pace : t.pwr.powerPace = s.pwr.powerPace

theorem Sampled.refl (s : State) : Sampled s s := ⟨rfl, id, fun _ _ => rfl, rfl⟩

theorem Sampled.trans (h : Sampled s t) (k : Sampled t u) : Sampled s u where
  frame := by rw [k.frame, h.frame]
  wf := fun hs => k.wf (h.wf hs)
  rd := fun o ho => (k.rd o ho).trans (h.rd o ho)
  pace := k.pace.trans h.pace

theorem Sampled.ite {c : Prop} [Decidable c] (ht : Sampled s t) (hu : Sampled s u) : Sampled s (if c then t else u) := by
  split
  · exact ht
  · exact hu

theorem Sampled.foldl {α : Type} {f : State → α → State} {l : List α} (h : ∀ s x, Sampled s (f s x)) (hs : Sampled s t) :
    Sampled s (l.foldl f t) := foldl_keeps (fun u x _ hu => hu.trans (h u x)) hs

theorem Sampled.setFld (h : Sampled s t) {off : Nat} (f : Fld) (v : Nat) (ho : ¬ SampleReg off) : Sampled s (t.setFld off f v) :=
  h.trans ⟨rfl, t.setFld_regsWf off f v, fun _ hk => t.rd_setFld_of_ne f v fun he => ho (he ▸ hk), rfl⟩

/-- A change of what the sections and monitors remember, not of the power pace. -/
theorem Sampled.pwr (h : Sampled s t) (p : Pwr) (hp : p.powerPace = t.pwr.powerPace := by rfl) : Sampled s { t with pwr := p } :=
  h.trans ⟨rfl, id, fun _ _ => rfl, hp⟩

theorem Sampled.ldg (h : Sampled s t) (l : Ldg) : Sampled s { t with ldg := l } := h.trans ⟨rfl, id, fun _ _ => rfl, rfl⟩

theorem Sampled.spl (h : Sampled s t) (l : Spl) : Sampled s { t with spl := l } := h.trans ⟨rfl, id, fun _ _ => rfl, rfl⟩

theorem Sampled.thermN (h : Sampled s t) (b : Bool) : Sampled s { t with board := { t.board with thermN := b } } :=
  h.trans ⟨rfl, id, fun _ _ => rfl, rfl⟩

theorem sampleReg_thm {o : Nat} (h : SampleReg o) : o ≠ R.THM_EVENT_HEAD ∧ o < R.THM_EVENT 0 := by
  unfold SampleReg at h
  simp only [R.PWR_STATUS, R.PWR_CTRL, R.THM_SENSOR, R.THM_EVENT_HEAD, R.THM_EVENT] at h ⊢
  omega

theorem sampleReg_spl {o : Nat} (h : SampleReg o) : o ≠ R.SPL_EVENT_HEAD ∧ o < R.SPL_EVENT 0 := by
  unfold SampleReg at h
  simp only [R.PWR_STATUS, R.PWR_CTRL, R.THM_SENSOR, R.SPL_EVENT_HEAD, R.SPL_EVENT] at h ⊢
  omega

theorem Sampled.thmEvent (h : Sampled s t) (kind place fromT toT pace : Nat) :
    Sampled s (t.thmEvent kind place fromT toT pace) :=
  h.trans ⟨by rw [State.thmEvent_frame], State.thmEvent_regsWf _ _ _ _ _,
    fun _ ho => t.thmEvent_rd _ _ _ _ _ (sampleReg_thm ho).1 (.inl (sampleReg_thm ho).2), by rw [State.thmEvent_pwr]⟩

theorem Sampled.splEvent (h : Sampled s t) (kind cause engine ring circuit : Nat) :
    Sampled s (t.splEvent kind cause engine ring circuit) :=
  h.trans ⟨by rw [State.splEvent_frame], State.splEvent_regsWf _ _ _ _ _,
    fun _ ho => t.splEvent_rd _ _ _ _ _ (sampleReg_spl ho).1 (.inl (sampleReg_spl ho).2), by rw [State.splEvent_frame]⟩

theorem not_sampleReg_thmStatus : ¬ SampleReg R.THM_STATUS := by
  unfold SampleReg
  decide

theorem not_sampleReg_ldgStatus : ¬ SampleReg R.LDG_STATUS := by
  unfold SampleReg
  decide

theorem not_sampleReg_tenPace (q : Nat) : ¬ SampleReg (R.TEN_PACE q) := by
  simp only [SampleReg, R.PWR_STATUS, R.PWR_CTRL, R.THM_SENSOR, R.TEN_PACE]
  omega

theorem Sampled.raise (h : Sampled s t) (v : Nat) : Sampled s (t.raise v) := h.trans ⟨rfl, id, fun _ _ => rfl, rfl⟩

theorem Sampled.journal (h : Sampled s t) (kind subject : Nat) (data : Bytes) : Sampled s (t.journal kind subject data) := by
  unfold State.journal
  extract_lets b
  exact .ite (h.ldg _) (.ite h ((h.setFld _ _ not_sampleReg_ldgStatus).raise 8))

theorem ledgerTemps_sampled (s : State) : Sampled s s.ledgerTemps := by
  unfold State.ledgerTemps
  extract_lets s1
  have h1 : Sampled s s1 := .foldl (fun u x => by
    dsimp only
    exact .ite ((Sampled.ldg (.refl u) _).trans (.ldg (.refl _) _)) (.ldg (.refl u) _)) (.refl s)
  exact h1.ldg _

theorem tempStep_sampled (s : State) (x : Nat × Int) : Sampled s (s.tempStep x) := by
  unfold State.tempStep
  extract_lets l hold _ s1 hi lo c later earlier _ s2 s3
  have h1 : Sampled s s1 := (Sampled.refl s).pwr _
  have h2 : Sampled s s2 := h1.pwr _
  exact .ite (((h2.thmEvent ..).setFld _ _ not_sampleReg_thmStatus).journal ..) h1

theorem thermalStep_sampled (s : State) (n : Nat) (t : Int) : Sampled s (s.thermalStep n t) := by
  unfold State.thermalStep
  extract_lets
  exact .ite ((Sampled.refl s).pwr _) (.ite (.ite ((Sampled.refl s).pwr _) ((Sampled.refl s).pwr _))
    ((Sampled.refl s).pwr _))

theorem paceSection_sampled (s : State) (q k : Nat) : Sampled s (s.paceSection q k) := by
  unfold State.paceSection
  extract_lets n off old new s1 s2
  have h2 : Sampled s s2 := ((Sampled.refl s).setFld _ _ (not_sampleReg_tenPace q)).setFld _ _ (not_sampleReg_tenPace q)
  exact .ite ((h2.thmEvent ..).setFld _ _ not_sampleReg_thmStatus) (.ite (h2.thmEvent ..) h2)

theorem heatLimits_sampled (s : State) (i : Nat) (t : Int) : Sampled s (s.heatLimits i t) := by
  unfold State.heatLimits
  extract_lets s1 _ s2 _ s3 s4 _
  have h1 : Sampled s s1 := ((Sampled.refl s).setFld _ _ not_sampleReg_thmStatus).setFld _ _ not_sampleReg_thmStatus
  clear_value s1
  have h2 : Sampled s s2 := .ite (((h1.pwr _).thmEvent ..).setFld _ _ not_sampleReg_thmStatus) (.ite (h1.pwr _) h1)
  clear_value s2
  have h3 : Sampled s s3 := .ite ((h2.thermN _).thmEvent ..) (.ite ((h2.thermN _).thmEvent ..) h2)
  clear_value s3
  have h4 : Sampled s s4 := h3.setFld _ _ not_sampleReg_thmStatus
  clear_value s4
  exact .ite ((h4.spl _).splEvent ..) (.ite (h4.spl _) h4)

/-- The power pace after a sample: four steps less above the cap. -/
theorem powerPaceStep_sampled (s : State) (watts : Nat) : ∃ p c,
    Sampled { s with pwr := { s.pwr with powerPace := p, capSamples := c } } (s.powerPaceStep watts) ∧
    (max 1500 (min 3600 (s.fld R.PWR_CTRL F.PWR_CTRL_CAP_W)) < watts → p = max 8 (s.pwr.powerPace - 4)) := by
  unfold State.powerPaceStep
  extract_lets _ cap p n s1 s2
  have hle (h : ¬ cap < watts) (q : Nat) : cap < watts → q = max 8 (s.pwr.powerPace - 4) := fun h' => absurd h' h
  split
  case isTrue => exact ⟨n, 0, .ite ((Sampled.refl s1).thmEvent ..) (.refl s1), fun _ => rfl⟩
  case isFalse hcap =>
    split
    · split
      · exact ⟨_, _, .refl _, hle hcap _⟩
      · exact ⟨p + 1, 0, .ite ((Sampled.refl s2).thmEvent ..) (.refl s2), hle hcap _⟩
    · exact ⟨_, _, .refl _, hle hcap _⟩

theorem paceAll_sampled (s : State) (watts : Nat) : Sampled (s.powerPaceStep watts) (s.paceAll watts) := by
  unfold State.paceAll
  extract_lets s1
  refine .foldl (fun u i => ?_) (.refl s1)
  extract_lets n v
  have hv : Sampled u v := by
    unfold v
    split
    · exact thermalStep_sampled u n _
    · exact .refl u
  exact hv.trans (paceSection_sampled ..)

/-! ## The readings -/

/-- One sensor of a sample. -/
def takeAt (x : SensorSample) (s : State) (i : Nat) : State := s.takeTemp i (x.temps.getD i 0x8000)

theorem takeTemp_same (s : State) (i : Nat) (raw : BitVec 16) : SameButRegs s (s.takeTemp i raw) := by
  unfold State.takeTemp
  extract_lets off s1 s2
  split
  · rfl
  · have h2 : SameButRegs s s2 := by
      unfold s2
      split <;> rfl
    split
    · exact h2.trans (State.setFld_same ..)
    · exact h2

theorem takeTemp_regsBut (s : State) (i : Nat) (raw : BitVec 16) : s.RegsBut (s.takeTemp i raw) [R.THM_SENSOR i] := by
  unfold State.takeTemp
  extract_lets off s1 s2
  have h1 : s.RegsBut s1 [off] := State.setFld_regsBut List.mem_cons_self _ _
  split
  · exact h1
  · have h2 : s.RegsBut s2 [off] := by
      unfold s2
      split
      · exact h1.setFld List.mem_cons_self _ _
      · exact h1
    split
    · exact h2.setFld List.mem_cons_self _ _
    · exact h2

/-- A sensor shows its reading: the extremes are other fields. -/
theorem takeTemp_temp (i : Nat) (raw : BitVec 16) (hwf : s.regsWf = true) : (s.takeTemp i raw).regsWf = true ∧
    (s.takeTemp i raw).fld (R.THM_SENSOR i) F.THM_SENSOR_TEMP = raw.toNat := by
  unfold State.takeTemp
  extract_lets off s1 s2
  have h1 : s1.regsWf = true ∧ s1.fld off F.THM_SENSOR_TEMP = raw.toNat :=
    ⟨s.setFld_regsWf _ _ _ hwf, (s.fld_setFld_self _ _ _ hwf (by decide)).trans (Nat.mod_eq_of_lt raw.isLt)⟩
  have hset {u : State} (f : Fld) (v : Nat) (hd : f.lo + f.w ≤ F.THM_SENSOR_TEMP.lo)
      (hu : u.regsWf = true ∧ u.fld off F.THM_SENSOR_TEMP = raw.toNat) :
      (u.setFld off f v).regsWf = true ∧ (u.setFld off f v).fld off F.THM_SENSOR_TEMP = raw.toNat :=
    ⟨u.setFld_regsWf _ _ _ hu.1, (u.fld_setFld_of_disjoint _ _ _ _ hu.1 (.inr hd) (by decide)).trans hu.2⟩
  split
  · exact h1
  · have h2 : s2.regsWf = true ∧ s2.fld off F.THM_SENSOR_TEMP = raw.toNat := by
      unfold s2
      split
      · exact hset _ _ (by decide) h1
      · exact h1
    split
    · exact hset _ _ (by decide) h2
    · exact h2

/-- A sample's readings before anything follows from them. -/
def readings (x : SensorSample) (s : State) : State :=
  ((((List.range 53).foldl (takeAt x) s).setFld R.PWR_STATUS F.PWR_STATUS_POWER_W x.watts.toNat).setFld R.PWR_STATUS
    F.PWR_STATUS_VOLTAGE x.tenMv.toNat).setFld R.PWR_STATUS F.PWR_STATUS_SHARE_A x.shareA.toNat

theorem readings_same (x : SensorSample) (s : State) : SameButRegs s (readings x s) :=
  (((foldl_rel SameButRegs .refl (fun _ _ _ => .trans) (takeAt x) (fun u i => takeTemp_same u i _) _ s).trans
    (State.setFld_same ..)).trans (State.setFld_same ..)).trans (State.setFld_same ..)

theorem readings_regs (x : SensorSample) (hwf : s.regsWf = true) : (readings x s).regsWf = true ∧
    (readings x s).fld R.PWR_STATUS F.PWR_STATUS_POWER_W = x.watts.toNat ∧
    (readings x s).fld R.PWR_STATUS F.PWR_STATUS_VOLTAGE = x.tenMv.toNat ∧
    (readings x s).fld R.PWR_STATUS F.PWR_STATUS_SHARE_A = x.shareA.toNat ∧
    (∀ i, i < 53 → (readings x s).fld (R.THM_SENSOR i) F.THM_SENSOR_TEMP = (x.temps.getD i 0x8000).toNat) ∧
    (readings x s).rd R.PWR_CTRL = s.rd R.PWR_CTRL := by
  have htemp {i : Nat} (hi : i < 53) := foldl_settles (P := fun u : State => u.regsWf = true) (f := takeAt x)
    (get := fun (u : State) i => u.fld (R.THM_SENSOR i) F.THM_SENSOR_TEMP) (v := fun i => (x.temps.getD i 0x8000).toNat)
    List.nodup_range (fun u i _ hu => (takeTemp_temp i _ hu).1) (fun u i _ hu => (takeTemp_temp i _ hu).2)
    (fun u i _ y hy => State.fld_congr (takeTemp_regsBut u i _ _ (by simp only [R.THM_SENSOR, List.mem_singleton]; omega)) _)
    hwf (List.mem_range.2 hi)
  have huwf : ((List.range 53).foldl (takeAt x) s).regsWf = true :=
    foldl_keeps (P := fun u : State => u.regsWf = true) (fun u i _ hu => (takeTemp_temp i _ hu).1) hwf
  have hctrl : ((List.range 53).foldl (takeAt x) s).rd R.PWR_CTRL = s.rd R.PWR_CTRL :=
    foldl_keeps (P := fun u : State => u.rd R.PWR_CTRL = s.rd R.PWR_CTRL) (fun u i _ hu =>
      (takeTemp_regsBut u i _ _ (by simp only [R.THM_SENSOR, R.PWR_CTRL, List.mem_singleton]; omega)).trans hu) rfl
  unfold readings
  generalize (List.range 53).foldl (takeAt x) s = u at *
  have h1 := u.setFld_regsWf R.PWR_STATUS F.PWR_STATUS_POWER_W x.watts.toNat huwf
  have h2 := State.setFld_regsWf _ R.PWR_STATUS F.PWR_STATUS_VOLTAGE x.tenMv.toNat h1
  have hrd {o : Nat} (ho : o ≠ R.PWR_STATUS) : (((u.setFld R.PWR_STATUS F.PWR_STATUS_POWER_W x.watts.toNat).setFld R.PWR_STATUS
      F.PWR_STATUS_VOLTAGE x.tenMv.toNat).setFld R.PWR_STATUS F.PWR_STATUS_SHARE_A x.shareA.toNat).rd o = u.rd o :=
    (State.rd_setFld_of_ne _ _ _ ho).trans ((State.rd_setFld_of_ne _ _ _ ho).trans (u.rd_setFld_of_ne _ _ ho))
  refine ⟨State.setFld_regsWf _ _ _ _ h2, ?_, ?_, ?_, fun i hi => ?_, (hrd (by decide)).trans hctrl⟩
  · rw [State.fld_setFld_of_disjoint _ _ _ _ _ h2 (by decide) (by decide),
      State.fld_setFld_of_disjoint _ _ _ _ _ h1 (by decide) (by decide), u.fld_setFld_self _ _ _ huwf (by decide)]
    exact Nat.mod_eq_of_lt x.watts.isLt
  · rw [State.fld_setFld_of_disjoint _ _ _ _ _ h2 (by decide) (by decide), State.fld_setFld_self _ _ _ _ h1 (by decide)]
    exact Nat.mod_eq_of_lt x.tenMv.isLt
  · rw [State.fld_setFld_self _ _ _ _ h2 (by decide)]
    exact Nat.mod_eq_of_lt x.shareA.isLt
  · exact (State.fld_congr (hrd (by simp only [R.THM_SENSOR, R.PWR_STATUS]; omega)) _).trans (htemp hi)

/-! ## The whole sample -/

theorem signedOf_toNat (v : BitVec 16) : signedOf 16 v.toNat = v.toInt := by
  have hlt := v.isLt
  rw [signedOf, BitVec.toInt_eq_toNat_cond, Nat.mod_eq_of_lt hlt]
  split <;> split <;> omega

theorem temp_eq {i : Nat} {v : BitVec 16} (h : s.fld (R.THM_SENSOR i) F.THM_SENSOR_TEMP = v.toNat) :
    s.temp i = if v = 0x8000 then none else some v.toInt := by
  have hnone : v.toInt = -32768 ↔ v = 0x8000 := by
    rw [← BitVec.toInt_inj]
    exact Iff.rfl
  simp only [State.temp, State.sfld, h, signedOf_toNat, hnone]

/-- What follows from the readings, up to the limits of the hottest junction. -/
def followed (x : SensorSample) (s : State) : State :=
  let u := ((readings x s).ledgerTemps.junctions.foldl State.tempStep (readings x s).ledgerTemps).paceAll x.watts.toNat
  u.setFld R.PWR_STATUS F.PWR_STATUS_POWER_PACE u.pwr.powerPace

theorem exec_sensorSample (x : SensorSample) (hgood : s.board.pwrGood = true) : exec (.sensorSample x) s =
    match hottest (followed x s).junctions with
    | none => .next (followed x s)
    | some (i, t) => .next (if 920 ≤ t then { (followed x s).heatLimits i t with board.tripLatch := true }.powerFail
        else (followed x s).heatLimits i t) := by
  change execSensorSample x s = _
  unfold execSensorSample
  rw [if_neg (by simp [hgood])]
  rfl

/-- What a sample leaves before the limits of the hottest junction: its readings, and the power pace. -/
theorem followed_effect (x : SensorSample) (hwf : s.regsWf = true) :
    (followed x s).fld R.PWR_STATUS F.PWR_STATUS_POWER_W = x.watts.toNat ∧
    (followed x s).fld R.PWR_STATUS F.PWR_STATUS_VOLTAGE = x.tenMv.toNat ∧
    (followed x s).fld R.PWR_STATUS F.PWR_STATUS_SHARE_A = x.shareA.toNat ∧
    (∀ i, i < 53 → (followed x s).fld (R.THM_SENSOR i) F.THM_SENSOR_TEMP = (x.temps.getD i 0x8000).toNat) ∧
    (max 1500 (min 3600 (s.fld R.PWR_CTRL F.PWR_CTRL_CAP_W)) < x.watts.toNat →
      (followed x s).pwr.powerPace = max 8 (s.pwr.powerPace - 4)) := by
  obtain ⟨hrwf, hwatts, hvolts, hshare, htemps, hctrl⟩ := readings_regs x hwf
  have hrpwr : (readings x s).pwr = s.pwr := by rw [readings_same x s]
  unfold followed
  generalize readings x s = r at *
  have hv : Sampled r (r.ledgerTemps.junctions.foldl State.tempStep r.ledgerTemps) :=
    .foldl tempStep_sampled (ledgerTemps_sampled r)
  generalize r.ledgerTemps.junctions.foldl State.tempStep r.ledgerTemps = v at *
  obtain ⟨p, c, hstep, hp⟩ := powerPaceStep_sampled v x.watts.toNat
  have hall := hstep.trans (paceAll_sampled v x.watts.toNat)
  generalize v.paceAll x.watts.toNat = u at *
  have huwf : u.regsWf = true := hall.wf (hv.wf hrwf)
  have hrd {o : Nat} (ho : SampleReg o) : u.rd o = r.rd o := (hall.rd o ho).trans (hv.rd o ho)
  have hcap : v.fld R.PWR_CTRL F.PWR_CTRL_CAP_W = s.fld R.PWR_CTRL F.PWR_CTRL_CAP_W :=
    State.fld_congr ((hv.rd _ (.inr (.inl rfl))).trans hctrl) _
  have hstatus (f : Fld) (hf : F.PWR_STATUS_POWER_PACE.lo + F.PWR_STATUS_POWER_PACE.w ≤ f.lo) (hf' : f.lo + f.w ≤ 64) :
      (u.setFld R.PWR_STATUS F.PWR_STATUS_POWER_PACE u.pwr.powerPace).fld R.PWR_STATUS f = r.fld R.PWR_STATUS f :=
    (u.fld_setFld_of_disjoint _ _ _ _ huwf (.inr hf) hf').trans (State.fld_congr (hrd (.inl rfl)) f)
  refine ⟨(hstatus _ (by decide) (by decide)).trans hwatts, (hstatus _ (by decide) (by decide)).trans hvolts,
    (hstatus _ (by decide) (by decide)).trans hshare, fun i hi => ?_, fun hover => ?_⟩
  · have hsensor : SampleReg (R.THM_SENSOR i) := .inr (.inr (by simp only [R.THM_SENSOR]; omega))
    have hne : R.THM_SENSOR i ≠ R.PWR_STATUS := by simp only [R.THM_SENSOR, R.PWR_STATUS]; omega
    exact (State.fld_congr ((u.rd_setFld_of_ne _ _ hne).trans (hrd hsensor)) _).trans (htemps i hi)
  · show u.pwr.powerPace = _
    rw [hall.pace, ← hrpwr, ← hv.pace]
    exact hp (by rw [hcap]; exact hover)

theorem followed_frame (x : SensorSample) (s : State) : followed x s = { s with
    regs := (followed x s).regs, board := { s.board with thermN := (followed x s).board.thermN }, pwr := (followed x s).pwr
    spl := (followed x s).spl, ldg := (followed x s).ldg, out := (followed x s).out, cnt := (followed x s).cnt } := by
  have hr := readings_same x s
  unfold followed
  generalize readings x s = r at *
  have hv : Sampled r (r.ledgerTemps.junctions.foldl State.tempStep r.ledgerTemps) :=
    .foldl tempStep_sampled (ledgerTemps_sampled r)
  generalize r.ledgerTemps.junctions.foldl State.tempStep r.ledgerTemps = v at *
  obtain ⟨p, c, hstep, -⟩ := powerPaceStep_sampled v x.watts.toNat
  have hall := (hstep.trans (paceAll_sampled v x.watts.toNat)).frame
  generalize v.paceAll x.watts.toNat = u at *
  have hv' := hv.frame
  unfold State.setFld State.wr
  rw [hall, hv', hr]

/-! ## The hottest junction -/

theorem hottest_mem {l : List (Nat × Int)} {x : Nat × Int} (h : hottest l = some x) : x ∈ l := by
  induction l generalizing x with
  | nil => simp [hottest] at h
  | cons y t ih =>
    unfold hottest at h
    split at h
    case h_1 z hz =>
      obtain rfl := Option.some.inj h
      split
      · exact List.mem_cons_of_mem _ (ih hz)
      · exact List.mem_cons_self
    case h_2 =>
      obtain rfl := Option.some.inj h
      exact List.mem_cons_self

theorem le_hottest {l : List (Nat × Int)} {x : Nat × Int} (h : x ∈ l) : ∃ y, hottest l = some y ∧ x.2 ≤ y.2 := by
  induction l with
  | nil => simp at h
  | cons y t ih =>
    unfold hottest
    obtain rfl | h := List.mem_cons.1 h
    · split
      · refine ⟨_, rfl, ?_⟩
        split
        · exact le_of_lt ‹_›
        · exact le_rfl
      · exact ⟨_, rfl, le_rfl⟩
    · obtain ⟨z, hz, hle⟩ := ih h
      rw [hz]
      refine ⟨_, rfl, ?_⟩
      split
      · exact hle
      · exact hle.trans (not_lt.1 ‹_›)

theorem mem_junctions {i : Nat} {t : Int} : (i, t) ∈ s.junctions ↔ i < 50 ∧ s.temp i = some t := by
  simp only [State.junctions, List.mem_filterMap, List.mem_range, Option.map_eq_some_iff, Prod.mk.injEq]
  constructor
  · rintro ⟨j, hj, u, hu, rfl, rfl⟩
    exact ⟨hj, hu⟩
  · rintro ⟨hi, ht⟩
    exact ⟨i, hi, t, ht, rfl, rfl⟩

/-- A sample of a powered module whose junctions all lie below 115 degrees. -/
theorem sample_effect (x : SensorSample) (hwf : s.regsWf = true) (hgood : s.board.pwrGood = true)
    (hcool : ∀ i, i < 50 → x.temps.getD i 0x8000 = 0x8000 ∨ (x.temps.getD i 0x8000).toInt < 920) :
    Answers (exec (.sensorSample x) s) fun t =>
      t.fld R.PWR_STATUS F.PWR_STATUS_POWER_W = x.watts.toNat ∧ t.fld R.PWR_STATUS F.PWR_STATUS_VOLTAGE = x.tenMv.toNat ∧
      t.fld R.PWR_STATUS F.PWR_STATUS_SHARE_A = x.shareA.toNat ∧
      (∀ i, i < 53 → t.fld (R.THM_SENSOR i) F.THM_SENSOR_TEMP = (x.temps.getD i 0x8000).toNat) ∧
      (max 1500 (min 3600 (s.fld R.PWR_CTRL F.PWR_CTRL_CAP_W)) < x.watts.toNat →
        t.pwr.powerPace = max 8 (s.pwr.powerPace - 4)) ∧
      t.board = { s.board with thermN := t.board.thermN } ∧
      t = { s with regs := t.regs, board := t.board, pwr := t.pwr, spl := t.spl, ldg := t.ldg, out := t.out, cnt := t.cnt } := by
  have hexec := exec_sensorSample x hgood
  obtain ⟨hwatts, hvolts, hshare, htemps, hpace⟩ := followed_effect x hwf
  have hframe := followed_frame x s
  generalize followed x s = u at *
  have hboard : u.board = { s.board with thermN := u.board.thermN } := by rw [hframe]
  cases hhot : hottest u.junctions with
  | none =>
    rw [hhot] at hexec
    exact ⟨u, hexec, hwatts, hvolts, hshare, htemps, hpace, hboard, by rw [hframe]⟩
  | some y =>
    obtain ⟨i, t⟩ := y
    obtain ⟨hi, ht⟩ := mem_junctions.1 (hottest_mem hhot)
    have hlow : t < 920 := by
      rw [temp_eq (htemps i (by omega))] at ht
      split at ht
      · simp at ht
      · obtain rfl := Option.some.inj ht
        exact (hcool i hi).resolve_left ‹_›
    rw [hhot] at hexec
    simp only [if_neg (not_le.2 hlow)] at hexec
    have hheat := heatLimits_sampled u i t
    generalize u.heatLimits i t = v at hexec hheat
    have hstatus (f : Fld) : v.fld R.PWR_STATUS f = u.fld R.PWR_STATUS f := State.fld_congr (hheat.rd _ (.inl rfl)) f
    refine ⟨v, hexec, (hstatus _).trans hwatts, (hstatus _).trans hvolts, (hstatus _).trans hshare, fun j hj => ?_,
      fun hover => hheat.pace.trans (hpace hover), ?_, ?_⟩
    · exact (State.fld_congr (hheat.rd _ (.inr (.inr (by simp only [R.THM_SENSOR]; omega)))) _).trans (htemps j hj)
    · rw [hheat.frame, hboard]
    · rw [hheat.frame, hframe]

/-! ## The trip -/

/-- A register reads what was written where that is not its reset value, whatever the store. -/
theorem rd_wr_self_of_ne (s : State) {off : Nat} {v : Word} (h : v ≠ resetWord off) : (s.wr off v).rd off = v := by
  unfold State.wr State.rd sset
  rw [if_neg h]
  exact sget_sput_self _ _ _ _

theorem resetWord_sensor (i : Fin 50) : F.THM_SENSOR_TEMP.get (resetWord (R.THM_SENSOR i)) = 0x8000 := by
  revert i
  decide +kernel

/-- A sensor that gives a reading shows it, whatever the store: its word is not the reset value. -/
theorem takeTemp_reading (s : State) (i : Fin 50) {raw : BitVec 16} (h : raw ≠ 0x8000) :
    (s.takeTemp i raw).fld (R.THM_SENSOR i) F.THM_SENSOR_TEMP = raw.toNat := by
  have hkeep {u : State} {w : Word} (hw : F.THM_SENSOR_TEMP.get w = raw.toNat) :
      (u.wr (R.THM_SENSOR i) w).fld (R.THM_SENSOR i) F.THM_SENSOR_TEMP = raw.toNat := by
    rw [State.fld, rd_wr_self_of_ne, hw]
    rintro rfl
    rw [resetWord_sensor] at hw
    exact h (BitVec.eq_of_toNat_eq hw.symm)
  have hset {u : State} (f : Fld) (v : Nat) (hd : f.lo + f.w ≤ F.THM_SENSOR_TEMP.lo)
      (hu : u.fld (R.THM_SENSOR i) F.THM_SENSOR_TEMP = raw.toNat) :
      (u.setFld (R.THM_SENSOR i) f v).fld (R.THM_SENSOR i) F.THM_SENSOR_TEMP = raw.toNat :=
    hkeep ((f.get_set_of_disjoint _ _ _ (.inr hd) (by decide)).trans hu)
  unfold State.takeTemp
  extract_lets off s1 s2
  have h1 : s1.fld off F.THM_SENSOR_TEMP = raw.toNat :=
    hkeep ((Fld.get_set_self _ _ _ (by decide)).trans (Nat.mod_eq_of_lt raw.isLt))
  rw [if_neg h]
  have h2 : s2.fld off F.THM_SENSOR_TEMP = raw.toNat := by
    unfold s2
    split
    · exact hset _ _ (by decide) h1
    · exact h1
  split
  · exact hset _ _ (by decide) h2
  · exact h2

/-- A reading is still shown when all that follows from the sample is done. -/
theorem followed_reading (x : SensorSample) (s : State) {i : Nat} (hi : i < 50) (h : x.temps.getD i 0x8000 ≠ 0x8000) :
    (followed x s).fld (R.THM_SENSOR i) F.THM_SENSOR_TEMP = (x.temps.getD i 0x8000).toNat := by
  have htemp := foldl_settles_at (P := fun _ : State => True) (f := takeAt x) (x := i)
    (get := fun u : State => u.fld (R.THM_SENSOR i) F.THM_SENSOR_TEMP) List.nodup_range (fun _ _ _ _ => trivial)
    (fun u _ => takeTemp_reading u ⟨i, hi⟩ h)
    (fun u j _ hj => State.fld_congr (takeTemp_regsBut u j _ _ (by simp only [R.THM_SENSOR, List.mem_singleton]; omega)) _)
    (s := s) trivial (List.mem_range.2 (by omega : i < 53))
  have hsensor : SampleReg (R.THM_SENSOR i) := .inr (.inr (by simp only [R.THM_SENSOR]; omega))
  have hne : R.THM_SENSOR i ≠ R.PWR_STATUS := by simp only [R.THM_SENSOR, R.PWR_STATUS]; omega
  have hread : (readings x s).fld (R.THM_SENSOR i) F.THM_SENSOR_TEMP = (x.temps.getD i 0x8000).toNat := by
    unfold readings
    rw [State.fld_setFld_of_ne _ _ _ _ hne, State.fld_setFld_of_ne _ _ _ _ hne, State.fld_setFld_of_ne _ _ _ _ hne]
    exact htemp
  unfold followed
  generalize readings x s = r at *
  have hv : Sampled r (r.ledgerTemps.junctions.foldl State.tempStep r.ledgerTemps) :=
    .foldl tempStep_sampled (ledgerTemps_sampled r)
  generalize r.ledgerTemps.junctions.foldl State.tempStep r.ledgerTemps = v at *
  obtain ⟨p, c, hstep, -⟩ := powerPaceStep_sampled v x.watts.toNat
  have hall := hstep.trans (paceAll_sampled v x.watts.toNat)
  generalize v.paceAll x.watts.toNat = u at *
  exact (State.fld_congr ((u.rd_setFld_of_ne _ _ hne).trans ((hall.rd _ hsensor).trans (hv.rd _ hsensor))) _).trans hread

/-- A power-fail warning stops the module wherever it is, and leaves the trip latch. -/
theorem powerFail_stops (s : State) : s.powerFail.board.tripLatch = s.board.tripLatch ∧ s.powerFail.board.place ≠ .running ∧
    (s.board.place = .running → s.powerFail.board.place = .powerFail) := by
  have hshed : s.shed.board.tripLatch = s.board.tripLatch := by rw [s.shed_frame]
  by_cases hpowered : s.board.place = .alwaysOn ∨ s.board.place = .running ∨ s.board.place = .moduleReset
  · rw [powerFail_of_powered s hpowered]
    simp [hshed]
  · unfold State.powerFail
    cases hplace : s.board.place <;> simp_all

theorem trip_effect (i : Nat) (x : SensorSample) (s : State) (hgood : s.board.pwrGood = true) (hi : i < 50)
    (hreads : x.temps.getD i 0x8000 ≠ 0x8000) (hhot : 920 ≤ (x.temps.getD i 0x8000).toInt) :
    Answers (exec (.sensorSample x) s) fun t => t.board.tripLatch = true ∧ t.board.place ≠ .running ∧
      (s.board.place = .running → t.board.place = .powerFail) := by
  have hexec := exec_sensorSample x hgood
  have htemp := followed_reading x s hi hreads
  have hframe := followed_frame x s
  generalize followed x s = u at *
  have hmem : (i, (x.temps.getD i 0x8000).toInt) ∈ u.junctions := mem_junctions.2 ⟨hi, by rw [temp_eq htemp, if_neg hreads]⟩
  obtain ⟨⟨j, t⟩, hmax, hle⟩ := le_hottest hmem
  rw [hmax] at hexec
  simp only [if_pos (hhot.trans hle)] at hexec
  have hheat := (heatLimits_sampled u j t).frame
  generalize u.heatLimits j t = v at hexec hheat
  have hplace : v.board.place = s.board.place := by rw [hheat, hframe]
  obtain ⟨hlatch, hstops, hfails⟩ := powerFail_stops { v with board.tripLatch := true }
  generalize ({ v with board.tripLatch := true } : State).powerFail = w at *
  exact ⟨w, hexec, hlatch, hstops, fun h => hfails (hplace.trans h)⟩

/-! ## Monitor windows -/

theorem signedOf_word16 {m : Int} (hlow : -32768 ≤ m) (hhigh : m ≤ 32767) : signedOf 16 (word16 m) = m := by
  rw [word16, signedOf_toNat, BitVec.toInt_ofInt]
  exact Int.bmod_eq_of_le (by omega) (by omega)

theorem word16_lt (m : Int) : word16 m < 2 ^ 16 := (BitVec.ofInt 16 m).isLt

theorem marginOf_bounds (cadence required : Nat) : -32768 ≤ marginOf cadence required ∧ marginOf cadence required ≤ 32767 := by
  unfold marginOf
  omega

/-- What a window's end changes beside the monitor's own register: the bits of the monitors, their events and what is remembered. -/
structure Windowed (s t : State) : Prop where
  frame : t = { s with regs := t.regs, pwr := t.pwr, ldg := t.ldg, out := t.out, cnt := t.cnt }
  wf : s.regsWf = true → t.regsWf = true
  rd : ∀ o, R.SIL_MON_STATUS 0 ≤ o → t.rd o = s.rd o

theorem Windowed.refl (s : State) : Windowed s s := ⟨rfl, id, fun _ _ => rfl⟩

theorem Windowed.trans (h : Windowed s t) (k : Windowed t u) : Windowed s u where
  frame := by rw [k.frame, h.frame]
  wf := fun hs => k.wf (h.wf hs)
  rd := fun o ho => (k.rd o ho).trans (h.rd o ho)

theorem setBit_windowed (s : State) {off : Nat} (i : Nat) (b : Bool) (h : off < R.SIL_MON_STATUS 0) :
    Windowed s (s.setBit off i b) :=
  ⟨rfl, s.setFld_regsWf _ _ _, fun o ho => s.rd_setFld_of_ne _ _ (by omega)⟩

theorem marginEvent_rd (s : State) (n kind : Nat) {o : Nat} (ho : R.SIL_CTRL ≤ o) : (s.marginEvent n kind).rd o = s.rd o := by
  unfold State.marginEvent
  simp only [R.SIL_CTRL] at ho
  split
  · exact s.thmEvent_rd _ _ _ _ _ (by simp only [R.THM_EVENT_HEAD]; omega) (.inr (by simp only [R.THM_EVENT]; omega))
  · rfl

theorem marginEvent_windowed (s : State) (n kind : Nat) : Windowed s (s.marginEvent n kind) := by
  refine ⟨?_, fun h => ?_, fun o ho => marginEvent_rd s n kind ?_⟩
  · unfold State.marginEvent
    split
    · rw [State.thmEvent_frame]
    · rfl
  · unfold State.marginEvent
    split
    · exact State.thmEvent_regsWf _ _ _ _ _ h
    · exact h
  · simp only [R.SIL_MON_STATUS, R.SIL_CTRL] at ho ⊢
    omega

theorem marginBits_windowed (s : State) (n : Nat) (m : Int) : Windowed s (s.marginBits n m) := by
  unfold State.marginBits
  extract_lets t below s1
  have h1 : Windowed s s1 := setBit_windowed s n true (by decide)
  split
  · split
    · exact h1
    · exact (h1.trans (setBit_windowed s1 n true (by decide))).trans (marginEvent_windowed ..)
  · split
    · exact (setBit_windowed s n false (by decide)).trans (marginEvent_windowed ..)
    · exact .refl s

theorem bit_eq_testBit (s : State) (off i : Nat) : s.bit off i = (s.rd off).getLsbD i := rfl

theorem bit_setBit_self {off i : Nat} (b : Bool) (hwf : s.regsWf = true) (hi : i < 64) : (s.setBit off i b).bit off i = b := by
  rw [State.bit, State.setBit, s.rd_setFld_self _ _ _ hwf, Fld.set_getLsbD]
  cases b <;> simp [hi, b2n]

theorem bit_setBit_of_ne (s : State) {off o : Nat} (i j : Nat) (b : Bool) (h : o ≠ off) : (s.setBit off i b).bit o j = s.bit o j := by
  rw [State.bit, State.setBit, s.rd_setFld_of_ne _ _ h, State.bit]

/-- A margin below the threshold shows in BELOW and in ALARM. -/
theorem marginBits_low {n : Nat} {m : Int} (hwf : s.regsWf = true) (hn : n < 50) (hthresh : s.monThresh n ≠ -32768)
    (hlow : m < s.monThresh n) :
    (s.marginBits n m).bit R.SIL_MON_BELOW n = true ∧ (s.marginBits n m).bit R.SIL_MON_ALARM n = true := by
  have hne : R.SIL_MON_BELOW ≠ R.SIL_MON_ALARM := by decide
  have halarm : (s.setBit R.SIL_MON_ALARM n true).bit R.SIL_MON_ALARM n = true := bit_setBit_self true hwf (by omega)
  have hwf1 : (s.setBit R.SIL_MON_ALARM n true).regsWf = true := s.setFld_regsWf _ _ _ hwf
  unfold State.marginBits
  dsimp only
  rw [if_pos ⟨hthresh, hlow⟩]
  cases hbelow : s.bit R.SIL_MON_BELOW n
  · have hrd {o : Nat} (ho : R.SIL_CTRL ≤ o) (u : State) : (u.marginEvent n 7).bit o n = u.bit o n := by
      rw [State.bit, marginEvent_rd u n 7 ho, State.bit]
    rw [if_neg (by decide), hrd (by decide), hrd (by decide), bit_setBit_of_ne _ _ _ _ hne.symm]
    exact ⟨bit_setBit_self true hwf1 (by omega), halarm⟩
  · rw [if_pos rfl, bit_setBit_of_ne _ _ _ _ hne]
    exact ⟨hbelow, halarm⟩

/-- The cadence that a window counted, and the least so far. -/
def cadenceShown (s : State) (n : Fin 50) (cadence : BitVec 16) : State :=
  (s.setFld (R.SIL_MON_STATUS n) F.SIL_MON_STATUS_CADENCE cadence.toNat).setFld (R.SIL_MON_STATUS n) F.SIL_MON_STATUS_CADENCE_MIN
    (min cadence.toNat (s.fld (R.SIL_MON_STATUS n) F.SIL_MON_STATUS_CADENCE_MIN))

/-- The margin of a window, and the least so far. -/
def marginShown (s : State) (n : Fin 50) (m : Int) : State :=
  (s.setFld (R.SIL_MON_STATUS n) F.SIL_MON_STATUS_MARGIN (word16 m)).setFld (R.SIL_MON_STATUS n) F.SIL_MON_STATUS_MARGIN_MIN
    (word16 (min m (s.sfld (R.SIL_MON_STATUS n) F.SIL_MON_STATUS_MARGIN_MIN)))

/-- A window's end: the cadence is shown, and with a requirement the margin, what follows from it being the margin's bits. -/
theorem exec_monitorWindowEnd (n : Fin 50) (cadence : BitVec 16) (s : State) : ∃ l p,
    exec (.monitorWindowEnd n cadence) s =
      if s.fld (R.SIL_MON_REQ n) F.SIL_MON_REQ_REQUIRED = 0 then .next (cadenceShown s n cadence)
      else .next (({ marginShown (cadenceShown s n cadence) n
          (marginOf cadence.toNat (s.fld (R.SIL_MON_REQ n) F.SIL_MON_REQ_REQUIRED)) with ldg := l, pwr := p }).marginBits n
        (marginOf cadence.toNat (s.fld (R.SIL_MON_REQ n) F.SIL_MON_REQ_REQUIRED))) := by
  change ∃ l p, execMonitorWindowEnd n cadence s = _
  unfold execMonitorWindowEnd
  extract_lets off req v m w above low _ x _ y
  change ∃ l p, (if req = 0 then _ else Host.Outcome.next (y.marginBits n m)) = _
  have hy : ∃ p, y = { w with ldg := x.ldg, pwr := p } := by
    unfold y
    split
    · exact ⟨_, rfl⟩
    · exact ⟨_, rfl⟩
  obtain ⟨p, hp⟩ := hy
  refine ⟨x.ldg, p, ?_⟩
  rw [hp]
  rfl

theorem cadenceShown_effect (n : Fin 50) (cadence : BitVec 16) (hwf : s.regsWf = true) :
    (cadenceShown s n cadence).regsWf = true ∧
    (cadenceShown s n cadence).fld (R.SIL_MON_STATUS n) F.SIL_MON_STATUS_CADENCE = cadence.toNat ∧
    (cadenceShown s n cadence).fld (R.SIL_MON_STATUS n) F.SIL_MON_STATUS_CADENCE_MIN =
      min cadence.toNat (s.fld (R.SIL_MON_STATUS n) F.SIL_MON_STATUS_CADENCE_MIN) := by
  have h1 := s.setFld_regsWf (R.SIL_MON_STATUS n) F.SIL_MON_STATUS_CADENCE cadence.toNat hwf
  unfold cadenceShown
  refine ⟨State.setFld_regsWf _ _ _ _ h1, ?_, ?_⟩
  · rw [State.fld_setFld_of_disjoint _ _ _ _ _ h1 (by decide) (by decide), s.fld_setFld_self _ _ _ hwf (by decide)]
    exact Nat.mod_eq_of_lt cadence.isLt
  · rw [State.fld_setFld_self _ _ _ _ h1 (by decide)]
    exact Nat.mod_eq_of_lt (lt_of_le_of_lt (min_le_left _ _) cadence.isLt)

theorem marginShown_effect (n : Fin 50) {m : Int} (hm : -32768 ≤ m ∧ m ≤ 32767) (hwf : s.regsWf = true) :
    (marginShown s n m).regsWf = true ∧ (marginShown s n m).sfld (R.SIL_MON_STATUS n) F.SIL_MON_STATUS_MARGIN = m ∧
    ∀ f : Fld, f.lo + f.w ≤ F.SIL_MON_STATUS_MARGIN_MIN.lo →
      (marginShown s n m).fld (R.SIL_MON_STATUS n) f = s.fld (R.SIL_MON_STATUS n) f := by
  have h1 := s.setFld_regsWf (R.SIL_MON_STATUS n) F.SIL_MON_STATUS_MARGIN (word16 m) hwf
  unfold marginShown
  refine ⟨State.setFld_regsWf _ _ _ _ h1, ?_, fun f hf => ?_⟩
  · rw [State.sfld, State.fld_setFld_of_disjoint _ _ _ _ _ h1 (by decide) (by decide), s.fld_setFld_self _ _ _ hwf (by decide),
      Nat.mod_eq_of_lt (word16_lt m), signedOf_word16 hm.1 hm.2]
  · simp only at hf
    rw [State.fld_setFld_of_disjoint _ _ _ _ _ h1 (by simp only; omega) (by omega),
      s.fld_setFld_of_disjoint _ _ _ _ hwf (by simp only; omega) (by omega)]

theorem window_effect (n : Fin 50) (cadence : BitVec 16) (hwf : s.regsWf = true) :
    Answers (exec (.monitorWindowEnd n cadence) s) fun t =>
      t.fld (R.SIL_MON_STATUS n) F.SIL_MON_STATUS_CADENCE = cadence.toNat ∧
      t.fld (R.SIL_MON_STATUS n) F.SIL_MON_STATUS_CADENCE_MIN =
        min cadence.toNat (s.fld (R.SIL_MON_STATUS n) F.SIL_MON_STATUS_CADENCE_MIN) ∧
      (s.fld (R.SIL_MON_REQ n) F.SIL_MON_REQ_REQUIRED = 0 → s.RegsBut t [R.SIL_MON_STATUS n] ∧ t = { s with regs := t.regs }) ∧
      (s.fld (R.SIL_MON_REQ n) F.SIL_MON_REQ_REQUIRED ≠ 0 → t.sfld (R.SIL_MON_STATUS n) F.SIL_MON_STATUS_MARGIN =
        marginOf cadence.toNat (s.fld (R.SIL_MON_REQ n) F.SIL_MON_REQ_REQUIRED) ∧
        (s.monThresh n ≠ -32768 → marginOf cadence.toNat (s.fld (R.SIL_MON_REQ n) F.SIL_MON_REQ_REQUIRED) < s.monThresh n →
          t.bit R.SIL_MON_BELOW n = true ∧ t.bit R.SIL_MON_ALARM n = true)) ∧
      t = { s with regs := t.regs, pwr := t.pwr, ldg := t.ldg, out := t.out, cnt := t.cnt } := by
  obtain ⟨l, p, hexec⟩ := exec_monitorWindowEnd n cadence s
  obtain ⟨hvwf, hcad, hmin⟩ := cadenceShown_effect n cadence hwf
  have hvsame : SameButRegs s (cadenceShown s n cadence) := (s.setFld_same ..).trans (State.setFld_same ..)
  have hvbut : s.RegsBut (cadenceShown s n cadence) [R.SIL_MON_STATUS n] :=
    ((State.RegsBut.refl s _).setFld List.mem_cons_self _ _).setFld List.mem_cons_self _ _
  generalize cadenceShown s n cadence = v at *
  have hbounds := marginOf_bounds cadence.toNat (s.fld (R.SIL_MON_REQ n) F.SIL_MON_REQ_REQUIRED)
  by_cases hreq : s.fld (R.SIL_MON_REQ n) F.SIL_MON_REQ_REQUIRED = 0
  · rw [if_pos hreq] at hexec
    exact ⟨v, hexec, hcad, hmin, fun _ => ⟨hvbut, hvsame⟩, fun h => absurd hreq h, by rw [hvsame]⟩
  · rw [if_neg hreq] at hexec
    generalize marginOf cadence.toNat (s.fld (R.SIL_MON_REQ n) F.SIL_MON_REQ_REQUIRED) = m at *
    obtain ⟨hwwf, hmargin, hother⟩ := marginShown_effect n hbounds hvwf
    have hwsame : SameButRegs v (marginShown v n m) := (v.setFld_same ..).trans (State.setFld_same ..)
    have hwbut : v.RegsBut (marginShown v n m) [R.SIL_MON_STATUS n] :=
      ((State.RegsBut.refl v _).setFld List.mem_cons_self _ _).setFld List.mem_cons_self _ _
    generalize marginShown v n m = w at *
    obtain ⟨y, hy⟩ : ∃ y, y = ({ w with ldg := l, pwr := p } : State) := ⟨_, rfl⟩
    have hyregs : y.regs = w.regs := by rw [hy]
    rw [← hy] at hexec
    have hthresh : y.monThresh n = s.monThresh n := by
      have hne : R.SIL_MON_THRESH n ∉ [R.SIL_MON_STATUS n] := by
        simp only [R.SIL_MON_THRESH, R.SIL_MON_STATUS, List.mem_singleton]
        omega
      have hrd : y.rd (R.SIL_MON_THRESH n) = s.rd (R.SIL_MON_THRESH n) :=
        (State.rd_congr hyregs _).trans ((hwbut _ hne).trans (hvbut _ hne))
      rw [State.monThresh, State.sfld, State.fld_congr hrd, State.monThresh, State.sfld]
    have hbits := marginBits_windowed y n m
    have hlow := marginBits_low (s := y) (n := n) (m := m) (State.regsWf_congr hyregs hwwf) n.isLt
    rw [hthresh] at hlow
    have hrd : (y.marginBits n m).rd (R.SIL_MON_STATUS n) = w.rd (R.SIL_MON_STATUS n) :=
      (hbits.rd _ (by simp only [R.SIL_MON_STATUS]; omega)).trans (State.rd_congr hyregs _)
    have hframe := hbits.frame
    generalize y.marginBits n m = t at *
    refine ⟨t, hexec, ?_, ?_, fun h => absurd h hreq, fun _ => ⟨?_, hlow⟩, ?_⟩
    · exact (State.fld_congr hrd _).trans ((hother _ (by decide)).trans hcad)
    · exact (State.fld_congr hrd _).trans ((hother _ (by decide)).trans hmin)
    · rw [State.sfld, State.fld_congr hrd, ← State.sfld, hmargin]
    · rw [hframe, hy, hwsame, hvsame]

/-! ## The supply loop -/

/-- The state in which the supply loop decides: MEASURED shows a free value (log entry 41). -/
def measured (q : Fin 4) (s : State) : State :=
  s.draw.2.setFld (R.PWR_VCORE q) F.PWR_VCORE_MEASURED s.draw.1.toNat

/-- When the surplus of a quadrant began. -/
def surplusSince (q : Fin 4) (v : Nat) (s : State) : State := { s with pwr.vcoreHigh := sset 0 s.pwr.vcoreHigh q.val v }

theorem exec_supplyLoopEval (q : Fin 4) (s : State) : exec (.supplyLoopEval q) s =
    let u := measured q s
    let sp := u.fld (R.PWR_VCORE q) F.PWR_VCORE_SETPOINT
    if (u.quadMargins q).isEmpty then .next (surplusSince q 0 u)
    else if (u.quadMargins q).any fun m => decide (m < 0) then
      .next ((surplusSince q 0 u).setFld (R.PWR_VCORE q) F.PWR_VCORE_SETPOINT (max sp (min (sp + 25) (u.vcoreCeiling q))))
    else if (u.quadMargins q).all fun m => decide (500 < m) then
      if sget 0 u.pwr.vcoreHigh q.val = 0 then .next (surplusSince q (u.mono + 1) u)
      else if sget 0 u.pwr.vcoreHigh q.val + 1000000 ≤ u.mono + 1 then
        .next ((surplusSince q (u.mono + 1) u).setFld (R.PWR_VCORE q) F.PWR_VCORE_SETPOINT (max 7000 (sp - 25)))
      else .next u
    else .next (surplusSince q 0 u) := rfl

theorem measured_frame (q : Fin 4) (s : State) :
    measured q s = { s with regs := (measured q s).regs, free := s.free + 1 } := rfl

theorem measured_regsBut (q : Fin 4) (s : State) : s.RegsBut (measured q s) [R.PWR_VCORE q] :=
  State.RegsBut.setFld (State.RegsBut.of_regs (s := s) (t := s.draw.2) rfl _) List.mem_cons_self _ _

/-- MEASURED leaves the fields above it. -/
theorem measured_fld (q : Fin 4) (f : Fld) (hf : 16 ≤ f.lo) (hf' : f.lo + f.w ≤ 64) (hwf : s.regsWf = true) :
    (measured q s).fld (R.PWR_VCORE q) f = s.fld (R.PWR_VCORE q) f :=
  (State.fld_setFld_of_disjoint s.draw.2 (R.PWR_VCORE q) F.PWR_VCORE_MEASURED f s.draw.1.toNat hwf (.inr hf) hf').trans rfl

theorem not_mem_vcore {o : Nat} (q : Fin 4) (h : o < R.PWR_VCORE 0 ∨ R.PWR_VCORE 4 ≤ o) : o ∉ [R.PWR_VCORE q] := by
  have := q.isLt
  simp only [R.PWR_VCORE, List.mem_singleton] at h ⊢
  omega

theorem quadMargins_congr (q : Fin 4) {s t : State} (h : s.RegsBut t [R.PWR_VCORE q]) : t.quadMargins q = s.quadMargins q := by
  unfold State.quadMargins
  congr 1
  funext n
  have h1 : t.rd (R.SIL_MON_STATUS n) = s.rd (R.SIL_MON_STATUS n) :=
    h _ (not_mem_vcore q (by simp only [R.SIL_MON_STATUS, R.PWR_VCORE]; omega))
  have h2 : t.rd (R.PWR_BAY_STATUS n) = s.rd (R.PWR_BAY_STATUS n) :=
    h _ (not_mem_vcore q (by simp only [R.PWR_BAY_STATUS, R.PWR_VCORE]; omega))
  have h3 : t.rd (R.SIL_MON_THRESH n) = s.rd (R.SIL_MON_THRESH n) :=
    h _ (not_mem_vcore q (by simp only [R.SIL_MON_THRESH, R.PWR_VCORE]; omega))
  dsimp only
  rw [State.monThresh, State.monThresh, State.sfld, State.sfld, State.fld_congr h1, State.fld_congr h2, State.fld_congr h3]
  rfl

/-- A next state of the supply loop: its set point is given, and nothing but the quadrant's register and the time of its surplus
has changed. -/
structure Evaluated (q : Fin 4) (s : State) (sp : Nat) (t : State) : Prop where
  setpoint : t.fld (R.PWR_VCORE q) F.PWR_VCORE_SETPOINT = sp
  regs : s.RegsBut t [R.PWR_VCORE q]
  frame : t = { s with regs := t.regs, pwr := { s.pwr with vcoreHigh := t.pwr.vcoreHigh }, free := s.free + 1 }

theorem measured_evaluated (q : Fin 4) (hwf : s.regsWf = true) :
    Evaluated q s (s.fld (R.PWR_VCORE q) F.PWR_VCORE_SETPOINT) (measured q s) :=
  ⟨measured_fld q _ (by decide) (by decide) hwf, measured_regsBut q s, measured_frame q s⟩

theorem Evaluated.since {q : Fin 4} {sp : Nat} (h : Evaluated q s sp t) (v : Nat) :
    Evaluated q s sp (surplusSince q v t) :=
  ⟨h.setpoint, h.regs, by unfold surplusSince; rw [h.frame]⟩

theorem Evaluated.set {q : Fin 4} {sp : Nat} (h : Evaluated q s sp t) (hwf : t.regsWf = true) {x : Nat} (hx : x < 2 ^ 16) :
    Evaluated q s x (t.setFld (R.PWR_VCORE q) F.PWR_VCORE_SETPOINT x) :=
  ⟨(t.fld_setFld_self _ _ _ hwf (by decide)).trans (Nat.mod_eq_of_lt hx), h.regs.setFld List.mem_cons_self _ _,
    by unfold State.setFld State.wr; rw [h.frame]⟩

/-- What the margins of a quadrant make of its set point: up for a short margin, down after the surplus has lasted, else as it
was. -/
def nextSetpoint (q : Fin 4) (s : State) : Nat :=
  let sp := s.fld (R.PWR_VCORE q) F.PWR_VCORE_SETPOINT
  let l := s.quadMargins q
  if l.isEmpty then sp
  else if l.any fun m => decide (m < 0) then max sp (min (sp + 25) (s.vcoreCeiling q))
  else if l.all fun m => decide (500 < m) then
    if sget 0 s.pwr.vcoreHigh q.val = 0 then sp
    else if sget 0 s.pwr.vcoreHigh q.val + 1000000 ≤ s.mono + 1 then max 7000 (sp - 25) else sp
  else sp

theorem supplyLoop_evaluated (q : Fin 4) (hwf : s.regsWf = true) :
    Answers (exec (.supplyLoopEval q) s) (Evaluated q s (nextSetpoint q s)) := by
  have hexec := exec_supplyLoopEval q s
  have heval := measured_evaluated q hwf
  have hmargins := quadMargins_congr q heval.regs
  have hceil : (measured q s).vcoreCeiling q = s.vcoreCeiling q := by
    rw [State.vcoreCeiling, measured_fld q F.PWR_VCORE_CEILING (by decide) (by decide) hwf, State.vcoreCeiling]
  have huwf : (measured q s).regsWf = true := State.setFld_regsWf s.draw.2 _ _ _ hwf
  have hpwr : (measured q s).pwr = s.pwr := rfl
  have hmono : (measured q s).mono = s.mono := rfl
  generalize measured q s = u at *
  have hlt : s.fld (R.PWR_VCORE q) F.PWR_VCORE_SETPOINT < 2 ^ 16 := Fld.get_lt ..
  have hcl : s.vcoreCeiling q ≤ 8000 := by
    unfold State.vcoreCeiling
    omega
  dsimp only at hexec
  rw [hmargins, heval.setpoint, hceil, hpwr, hmono] at hexec
  rw [hexec]
  unfold nextSetpoint
  dsimp only
  split
  · exact ⟨_, rfl, heval.since 0⟩
  · split
    · exact ⟨_, rfl, (heval.since 0).set huwf (by omega)⟩
    · split
      · split
        · exact ⟨_, rfl, heval.since _⟩
        · split
          · exact ⟨_, rfl, (heval.since _).set huwf (by omega)⟩
          · exact ⟨_, rfl, heval⟩
      · exact ⟨_, rfl, heval.since 0⟩

theorem supply_effect (q : Fin 4) (hwf : s.regsWf = true) : Answers (exec (.supplyLoopEval q) s) fun t =>
    ((∃ m ∈ s.quadMargins q, m < 0) → t.fld (R.PWR_VCORE q) F.PWR_VCORE_SETPOINT =
      max (s.fld (R.PWR_VCORE q) F.PWR_VCORE_SETPOINT)
        (min (s.fld (R.PWR_VCORE q) F.PWR_VCORE_SETPOINT + 25) (s.vcoreCeiling q))) ∧
    (s.quadMargins q = [] ∨ (∀ m ∈ s.quadMargins q, 0 ≤ m) ∧ (∃ m ∈ s.quadMargins q, m ≤ 500) →
      t.fld (R.PWR_VCORE q) F.PWR_VCORE_SETPOINT = s.fld (R.PWR_VCORE q) F.PWR_VCORE_SETPOINT) ∧
    (s.quadMargins q ≠ [] → (∀ m ∈ s.quadMargins q, 500 < m) → sget 0 s.pwr.vcoreHigh q.val ≠ 0 →
      sget 0 s.pwr.vcoreHigh q.val + 1000000 ≤ s.mono + 1 → t.fld (R.PWR_VCORE q) F.PWR_VCORE_SETPOINT =
        max 7000 (s.fld (R.PWR_VCORE q) F.PWR_VCORE_SETPOINT - 25)) ∧
    s.RegsBut t [R.PWR_VCORE q] ∧
    t = { s with regs := t.regs, pwr := { s.pwr with vcoreHigh := t.pwr.vcoreHigh }, free := s.free + 1 } := by
  obtain ⟨t, hexec, hsp, hregs, hframe⟩ := supplyLoop_evaluated q hwf
  refine ⟨t, hexec, fun hshort => ?_, fun hnone => ?_, fun hne hall hsince hlong => ?_, hregs, hframe⟩
  all_goals
    rw [hsp]
    unfold nextSetpoint
    dsimp only
    generalize s.quadMargins q = l at *
  · obtain ⟨m, hm, hneg⟩ := hshort
    have hany : (l.any fun m => decide (m < 0)) = true := List.any_eq_true.2 ⟨m, hm, decide_eq_true hneg⟩
    have hempty : l.isEmpty = false := List.isEmpty_eq_false_iff.2 (List.ne_nil_of_mem hm)
    simp only [hempty, hany, Bool.false_eq_true, if_true, if_false]
  · obtain rfl | ⟨hpos, m, hm, hsmall⟩ := hnone
    · rfl
    · have hany : ¬ (l.any fun m => decide (m < 0)) = true := by simpa using hpos
      have hall : ¬ (l.all fun m => decide (500 < m)) = true := by
        simp only [List.all_eq_true, decide_eq_true_eq, not_forall, not_lt]
        exact ⟨m, hm, hsmall⟩
      simp only [hany, hall, Bool.false_eq_true, if_false, ite_self]
  · obtain ⟨x, hx⟩ := List.exists_mem_of_ne_nil l hne
    have hany : ¬ (l.any fun m => decide (m < 0)) = true := by
      simp only [List.any_eq_true, decide_eq_true_eq, not_exists, not_and, not_lt]
      exact fun m hm => (by decide : (0 : Int) ≤ 500).trans (le_of_lt (hall m hm))
    have hall' : (l.all fun m => decide (500 < m)) = true := by simpa using hall
    have hempty : l.isEmpty = false := List.isEmpty_eq_false_iff.2 hne
    simp only [hempty, hany, hall', hsince, hlong, Bool.false_eq_true, if_true, if_false]

/-- Settles O16: one lemma for each of the sample, the trip, the section's steps, the window and the supply loop. -/
theorem sensorsAndPower : Obligations.SensorsAndPower :=
  ⟨fun x _ => sample_effect x, trip_effect, fun _ _ _ hhot => if_pos hhot, fun n cadence _ => window_effect n cadence,
    fun q _ => supply_effect q⟩

end Sys2Proof.Proofs
end
section
/-! PROOF. Modulator rings (spec/11): a sample below 10 GHz takes the ring's entry out of the store of detuned samples; where that
store lists the ring twice, the second entry shows. -/

namespace Sys2Proof.Proofs
open Sys2Proof Sys2Proof.Machine

/-- The first ring of the first engine. -/
def firstRing : RingId := ⟨0, 0, 0⟩

/-- A module whose first ring holds its line, and whose store of detuned samples lists that ring twice. -/
def ringListedTwice : State :=
  { regs := [(ringReg firstRing, F.OPT_RING_STATE.put 3)], spl := { detuned := [(ringNum firstRing, 5), (ringNum firstRing, 7)] } }

/-- A sample at the line leaves the second entry. -/
theorem ringListedTwice_sample : ∃ t, exec (.lockLoopSample firstRing 0 0) ringListedTwice = .next t ∧
    sget 0 t.spl.detuned (ringNum firstRing) = 7 :=
  ⟨_, rfl, by decide +kernel⟩

/-- Refutes O18: the clause on a sample below 10 GHz does not ask that the store of detuned samples be canonical, and in
`ringListedTwice`, where it is not, the count of detuned samples reads 7 after it. -/
theorem not_rings : ¬ Obligations.Rings := by
  unfold Obligations.Rings
  rintro ⟨hsample, -⟩
  obtain ⟨t, ht, -, -, -, hzero, -⟩ :=
    hsample firstRing 0 0 ringListedTwice (by decide +kernel) (by decide +kernel) (by decide)
  obtain ⟨u, hu, hseven⟩ := ringListedTwice_sample
  obtain rfl : t = u := by rw [ht] at hu; exact Host.Outcome.next.inj hu
  rw [hseven] at hzero
  exact absurd hzero (by decide)

end Sys2Proof.Proofs
end

section
/-! PROOF. Host reads (spec/13 R367, spec/03): the line's bytes with its mark; what is found while a line is read only adds marks,
so a poisoned line is answered as one. -/

namespace Sys2Proof.Proofs
open Sys2Proof Sys2Proof.Machine

/-! ## Marks are only added -/

theorem runsHave_runsAdd {l : Nat} (a b : Nat) (r : List (Nat × Nat)) (h : runsHave l r = true) :
    runsHave l (runsAdd a b r) = true := by
  induction r generalizing a b with
  | nil => simp [runsHave] at h
  | cons x t ih =>
    obtain ⟨x, y⟩ := x
    unfold runsAdd
    split
    · rw [runsHave_cons, h, Bool.or_true]
    · split
      · rw [runsHave_cons, Bool.or_eq_true] at h ⊢
        exact h.imp id (ih a b)
      · rw [runsHave_cons, Bool.or_eq_true, decide_eq_true_eq] at h
        exact h.elim (fun h => runsHave_runsAdd_self _ _ t ⟨by omega, by omega⟩) (ih _ _)
where
  /-- The lines of the run added are marked. -/
  runsHave_runsAdd_self {l : Nat} (a b : Nat) (r : List (Nat × Nat)) (h : a ≤ l ∧ l < b) : runsHave l (runsAdd a b r) = true := by
    induction r generalizing a b with
    | nil => simp [runsAdd, runsHave, h]
    | cons x t ih =>
      obtain ⟨x, y⟩ := x
      unfold runsAdd
      split
      · rw [runsHave_cons, decide_eq_true h, Bool.true_or]
      · split
        · rw [runsHave_cons, ih a b h, Bool.or_true]
        · exact ih _ _ ⟨by omega, by omega⟩

/-- From one state to another marks are only added, and the bytes of memory, contexts and the stacks' states
stay. -/
structure Marked (s t : State) : Prop where
  bytes : t.mem.bytes = s.mem.bytes
  dxn : t.dxn = s.dxn
  marks : ∀ l, runsHave l s.mem.poisoned = true → runsHave l t.mem.poisoned = true
  trained : ∀ m < 8, t.rd (R.MEM_HBM_STATUS m) = s.rd (R.MEM_HBM_STATUS m)

variable {s t u : State}

theorem Marked.refl (s : State) : Marked s s := ⟨rfl, rfl, fun _ => id, fun _ _ => rfl⟩

theorem Marked.trans (h : Marked s t) (k : Marked t u) : Marked s u where
  bytes := k.bytes.trans h.bytes
  dxn := k.dxn.trans h.dxn
  marks := fun l hl => k.marks l (h.marks l hl)
  trained := fun m hm => (k.trained m hm).trans (h.trained m hm)

theorem Marked.ite {c : Prop} [Decidable c] (ht : Marked s t) (hu : Marked s u) : Marked s (if c then t else u) := by
  split
  · exact ht
  · exact hu

theorem Marked.count (h : Marked s t) (k : Nat) : Marked s (t.count k) := h.trans ⟨rfl, rfl, fun _ => id, fun _ _ => rfl⟩

theorem Marked.ldgPut (h : Marked s t) (off n v : Nat) : Marked s (t.ldgPut off n v) :=
  h.trans ⟨rfl, rfl, fun _ => id, fun _ _ => rfl⟩

theorem Marked.raise (h : Marked s t) (v : Nat) : Marked s (t.raise v) := h.trans ⟨rfl, rfl, fun _ => id, fun _ _ => rfl⟩

/-- A write of a register that is not one of the stacks'. -/
theorem Marked.wr (h : Marked s t) {off : Nat} (hoff : off < R.MEM_HBM_STATUS 0 ∨ R.MEM_HBM_STATUS 7 < off) (v : Word) : Marked s (t.wr off v) := by
  refine h.trans ⟨rfl, rfl, fun _ => id, fun m hm => State.rd_wr_of_ne _ _ ?_⟩
  simp only [R.MEM_HBM_STATUS] at hoff ⊢
  omega

theorem Marked.memEvent (h : Marked s t) (kind a : Nat) : Marked s (t.memEvent kind a) := by
  unfold State.memEvent
  extract_lets v w
  refine .raise ?_ 10
  unfold State.logEntry
  extract_lets k
  exact .wr (.wr (.wr h (by simp only [R.MEM_HBM_STATUS, R.MEM_EVENT]; omega) _)
    (by simp only [R.MEM_HBM_STATUS, R.MEM_EVENT_ADDR]; omega) _) (by decide) _

theorem Marked.journal (h : Marked s t) (kind subject : Nat) (data : Bytes) : Marked s (t.journal kind subject data) := by
  unfold State.journal
  extract_lets b
  exact .ite (h.trans ⟨rfl, rfl, fun _ => id, fun _ _ => rfl⟩) (.ite h ((h.wr (by decide) _).raise 8))

theorem Marked.poison (h : Marked s t) (a n : Nat) : Marked s (t.poison a n) :=
  h.trans ⟨rfl, rfl, fun _ => runsHave_runsAdd _ _ _, fun _ _ => rfl⟩

theorem Marked.uncorrectable (h : Marked s t) (a : Nat) : Marked s (t.uncorrectable a) := by
  unfold State.uncorrectable
  extract_lets v t1 t2 t3
  exact .ite h ((((h.poison ..).count _).ldgPut ..).memEvent .. |>.journal ..)

theorem Marked.rowCorrected (h : Marked s t) (a : Nat) : Marked s (t.rowCorrected a) := by
  unfold State.rowCorrected
  extract_lets row now kept _ t1 n limit valid v
  have h1 : Marked s t1 := h.trans ⟨rfl, rfl, fun _ => id, fun _ _ => rfl⟩
  refine .ite h1 ?_
  split
  · exact .ite (h1.memEvent ..) h1
  · rename_i i hi
    extract_lets t2 _
    have h2 : Marked s t2 := ((h1.ldgPut ..).ldgPut ..).memEvent ..
    exact h2.trans ⟨rfl, rfl, fun _ => id, fun _ _ => rfl⟩

theorem Marked.corrected (h : Marked s t) (a : Nat) : Marked s (t.corrected a) := by
  unfold State.corrected
  extract_lets v t1 t2 _ t3
  have h2 : Marked s t2 := (h.count _).ldgPut ..
  have h3 : Marked s t3 := h2.trans ⟨rfl, rfl, fun _ => id, fun _ _ => rfl⟩
  exact h3.rowCorrected a

theorem findErrors_marked (a n : Nat) (errs : List LineErr) (s : State) : Marked s (s.findErrors a n errs) := by
  induction errs generalizing s with
  | nil => exact .refl s
  | cons e l ih =>
    unfold State.findErrors
    extract_lets x t
    have ht : Marked s t := by
      refine .ite ?_ (.refl s)
      split
      · exact .ite (.refl s) ((Marked.refl s).corrected x)
      · exact (Marked.refl s).uncorrectable x
      · exact .refl s
    exact ht.trans (ih t)

theorem memWake_marked (s : State) (a n : Nat) : Marked s (s.memWake a n) where
  bytes := congrArg Mem.bytes (s.wakeBays_mem _)
  dxn := wakeBays_dxn s _
  marks := fun l hl => by rw [State.memWake, State.wakeBays_mem]; exact hl
  trained := fun m _ => memWake_regsBut s a n _ (hbmStatus_not_mem_bayStatus m)

/-! ## Reads -/

/-- Whether a line is answered as poisoned: where its stack failed training, or where the line is marked. -/
theorem rangePoisoned_line (s : State) {a : Nat} (ha : a % 64 = 0) :
    s.rangePoisoned a 64 = (s.stackFailed a || runsHave (a / 64) s.mem.poisoned) := by
  unfold State.rangePoisoned runsHave
  congr 2
  funext x
  rw [Bool.eq_iff_iff]
  simp only [Bool.and_eq_true, decide_eq_true_eq]
  omega

theorem Marked.stackFailed (h : Marked s t) (a : Nat) : t.stackFailed a = s.stackFailed a := by
  unfold State.stackFailed
  by_cases ha : isHbm a = true
  · have hm : a / hbmStack < 8 := by
      have hlt := of_decide_eq_true ha
      unfold hbmSize at hlt
      unfold hbmStack
      omega
    rw [State.fld_congr (h.trained _ hm)]
  · rw [Bool.eq_false_iff.2 ha, Bool.false_and, Bool.false_and]

/-- A line that is answered as poisoned stays one. -/
theorem Marked.rangePoisoned (h : Marked s t) {a : Nat} (ha : a % 64 = 0) (hp : s.rangePoisoned a 64 = true) :
    t.rangePoisoned a 64 = true := by
  rw [rangePoisoned_line _ ha, Bool.or_eq_true] at hp ⊢
  exact hp.imp (fun hf => (h.stackFailed a).trans hf) (h.marks _)

/-- A read answers the bytes, and whether the line is poisoned once its errors have been found. -/
theorem devRead_marked (s : State) (a n : Nat) (errs : List LineErr) : ∃ t, Marked s t ∧
    s.devRead a n errs = (t, sbytes s.mem.bytes a n, t.rangePoisoned a n) ∧ (errs = [] → ∃ k, t = (s.memWake a n).countBy (ctrMem (if isHbm a then 49 else 51)) k ∨ t = s.memWake a n) := by
  unfold State.devRead
  extract_lets t old u v
  have ht : Marked s t := memWake_marked s a n
  have hu : Marked s u := ht.trans (findErrors_marked a n errs t)
  have hv : Marked s v := .ite (hu.trans ⟨rfl, rfl, fun _ => id, fun _ _ => rfl⟩) hu
  refine ⟨v, hv, by rw [hv.bytes], ?_⟩
  rintro rfl
  refine ⟨old, ?_⟩
  change (if 0 < old then t.countBy _ old else t) = _ ∨ (if 0 < old then t.countBy _ old else t) = _
  split
  · exact .inl rfl
  · exact .inr rfl

/-- A read without errors finds no poison where there was none, and changes registers of bays alone. -/
theorem devRead_clean (s : State) {a : Nat} (ha : a % 64 = 0) (hp : s.rangePoisoned a 64 = false) : ∃ t, Marked s t ∧
    s.devRead a 64 [] = (t, sbytes s.mem.bytes a 64, false) ∧ t.mem = s.mem ∧
    s.RegsBut t ((List.range 50).map R.PWR_BAY_STATUS) := by
  obtain ⟨t, ht, hread, hclean⟩ := devRead_marked s a 64 []
  obtain ⟨hmem, hregs⟩ : t.mem = s.mem ∧ t.regs = (s.memWake a 64).regs := by
    obtain ⟨k, rfl | rfl⟩ := hclean rfl
    · exact ⟨s.wakeBays_mem _, rfl⟩
    · exact ⟨s.wakeBays_mem _, rfl⟩
  refine ⟨t, ht, ?_, hmem, (memWake_regsBut s a 64).trans (.of_regs hregs _)⟩
  rw [hread, rangePoisoned_line _ ha, ht.stackFailed, hmem, ← rangePoisoned_line _ ha, hp]

section
variable {addr : Word} {errs : List LineErr}

theorem exec_hostMemRead_none (h : s.hostSees (addr.toNat / 64 * 64) = false ∨ s.host.ideBroken = true) :
    exec (.hostMemRead addr errs) s = .next s := if_pos h

theorem exec_hostMemRead_firmware (hide : s.host.ideBroken = false) (hsees : s.hostSees (addr.toNat / 64 * 64) = true)
    (hfw : inFirmware (addr.toNat / 64 * 64) = true) : exec (.hostMemRead addr errs) s =
      .next (((s.snoopInsert (addr.toNat / 64 * 64 / 64)).memEvent 1 (addr.toNat / 64 * 64)).sendCxl (.memData addr [] true)) := by
  refine (if_neg ?_).trans (if_pos hfw)
  simp [hsees, hide]

theorem exec_hostMemRead_line (hide : s.host.ideBroken = false) (hsees : s.hostSees (addr.toNat / 64 * 64) = true)
    (hfw : inFirmware (addr.toNat / 64 * 64) = false) {t : State} {b : Bytes} {bad : Bool}
    (hread : (s.snoopInsert (addr.toNat / 64 * 64 / 64)).devRead (addr.toNat / 64 * 64) 64 errs = (t, b, bad)) :
    exec (.hostMemRead addr errs) s = .next (if bad then (t.sendCxl (.memData addr b bad)).mailEvent (leBytes 8 (addr.toNat / 64 * 64))
      else t.sendCxl (.memData addr b bad)) := by
  have h : ¬(s.hostSees (addr.toNat / 64 * 64) = false ∨ s.host.ideBroken = true) := by simp [hsees, hide]
  change execHostMemRead addr errs s = _
  unfold execHostMemRead
  rw [if_neg h]
  extract_lets u
  rw [if_neg (by simp [hfw])]
  rw [hread]

end

/-- Settles O21: `devRead_clean` and `devRead_marked` say what the read of a line answers. -/
theorem hostReads : Obligations.HostReads := by
  unfold Obligations.HostReads
  refine ⟨?clean, ?poisoned, ?firmware, fun addr errs s h => exec_hostMemRead_none h⟩
  case clean =>
    rintro addr a s rfl hide hsees hfw hclean
    set a := addr.toNat / 64 * 64
    have hline : a % 64 = 0 := Nat.mul_mod_left ..
    obtain ⟨u, hu⟩ : ∃ u, s.snoopInsert (a / 64) = u := ⟨_, rfl⟩
    have hframe := snoopInsert_frame s (a / 64)
    rw [hu] at hframe
    obtain ⟨hmem, hdxn, hregs⟩ : u.mem = s.mem ∧ u.dxn = s.dxn ∧ u.regs = s.regs := by rw [hframe]; exact ⟨rfl, rfl, rfl⟩
    have huclean : u.rangePoisoned a 64 = false := by
      rw [hframe]
      exact hclean
    obtain ⟨t, ht, hread, htmem, htregs⟩ := devRead_clean u hline huclean
    rw [hmem, ← hu] at hread
    exact ⟨_, exec_hostMemRead_line hide hsees hfw hread, List.mem_append_right _ List.mem_cons_self, htmem.trans hmem,
      ht.dxn.trans hdxn, (State.RegsBut.of_regs hregs _).trans htregs⟩
  case poisoned =>
    rintro addr a errs s rfl hide hsees hfw hpoison
    set a := addr.toNat / 64 * 64
    have hline : a % 64 = 0 := Nat.mul_mod_left ..
    obtain ⟨u, hu⟩ : ∃ u, s.snoopInsert (a / 64) = u := ⟨_, rfl⟩
    have hframe := snoopInsert_frame s (a / 64)
    rw [hu] at hframe
    obtain ⟨hmem, hdxn⟩ : u.mem = s.mem ∧ u.dxn = s.dxn := by rw [hframe]; exact ⟨rfl, rfl⟩
    have hupoison : u.rangePoisoned a 64 = true := by
      rw [hframe]
      exact hpoison
    obtain ⟨t, ht, hread, -⟩ := devRead_marked u a 64 errs
    rw [ht.rangePoisoned hline hupoison, hmem, ← hu] at hread
    exact ⟨_, exec_hostMemRead_line hide hsees hfw hread, List.mem_append_right _ List.mem_cons_self,
      ht.bytes.trans (congrArg Mem.bytes hmem), ht.dxn.trans hdxn⟩
  case firmware =>
    rintro addr a errs s rfl hide hsees hfw
    exact exec_hostMemRead_firmware hide hsees hfw

end Sys2Proof.Proofs
end

section
/-! SUPPORT. Writes of registers by the host: which of a row's bits a write stores, and the word that it leaves. -/

namespace Sys2Proof.Machine

/-! ## Writing what stands there already -/

/-- In canonical form a write of what a key reads changes nothing. -/
theorem sset_sget {α : Type} [DecidableEq α] {d : Nat → α} {lo : Option Nat} {m : Sparse α} (n : Nat)
    (h : swfFrom d lo m = true) : sset (d n) m n (sget (d n) m n) = m := by
  induction m generalizing lo with
  | nil => simp [sset, sget, sdel]
  | cons p t ih =>
    obtain ⟨k, v⟩ := p
    simp only [swfFrom, Bool.and_eq_true, decide_eq_true_eq] at h
    obtain ⟨⟨-, hv⟩, ht⟩ := h
    by_cases hk : n = k
    · subst hk
      simp [sset, sget, sput, hv]
    · have ih := ih ht
      simp only [sset, sget, sdel, hk, if_false] at ih ⊢
      split
      case isTrue hd => rw [if_pos hd] at ih; rw [ih]
      case isFalse hd =>
        rw [if_neg hd] at ih
        have hlow : ¬n < k := fun hlt => hd (sget_of_bound (d n) ht hlt.le)
        simp only [sput, hlow, hk, if_false, ih]

theorem State.wr_rd (s : State) (off : Nat) (h : s.regsWf = true) : s.wr off (s.rd off) = s := by
  have hregs : sset (resetWord off) s.regs off (s.rd off) = s.regs := sset_sget (d := resetWord) off h
  rw [State.wr, hregs]

/-! ## The word that a write leaves -/

/-- Setting a field leaves the bits of a field beside it. -/
theorem set_and_mask_of_disjoint (f g : Fld) (x : Word) (v : Nat) (h : g.lo + g.w ≤ f.lo ∨ f.lo + f.w ≤ g.lo) :
    f.set x v &&& g.mask = x &&& g.mask := by
  refine BitVec.eq_of_getLsbD_eq fun i hi => ?_
  rw [BitVec.getLsbD_and, BitVec.getLsbD_and, Fld.set_getLsbD, Fld.mask_getLsbD]
  by_cases hg : g.lo ≤ i ∧ i < g.lo + g.w
  · rw [if_neg (by omega), decide_eq_true hi, Bool.true_and]
  · rw [← Bool.decide_and, decide_eq_false hg, Bool.and_false, Bool.and_false, Bool.and_false]

/-- The bits that a write sets as written. -/
def RegSpec.rwBits (r : RegSpec) : Word := r.bits (fun f => f.acc == .rw) &&& ~~~enableMask r.base

/-- The bits that a write with 1 clears. -/
def RegSpec.w1cBits (r : RegSpec) : Word := r.bits fun f => f.acc == .w1c

theorem RegSpec.written_eq {r : RegSpec} (h : r.base ≠ R.PWR_BAY_CTRL 0) (off : Nat) (old v : Word) :
    r.written off old v false = (old &&& ~~~r.rwBits ||| v &&& r.rwBits) &&& ~~~(v &&& r.w1cBits) := by
  refine (if_neg (by simp [h])).trans ?_
  simp only [Bool.false_and, Bool.not_false, Bool.and_true]
  rfl

/-- A word whose stored bits are the register's own leaves the register. -/
theorem RegSpec.written_self {r : RegSpec} (h : r.base ≠ R.PWR_BAY_CTRL 0) (hw1c : r.w1cBits = 0) {off : Nat} {old v : Word}
    (hv : v &&& r.rwBits = old &&& r.rwBits) : r.written off old v false = old := by
  rw [r.written_eq h, hv, hw1c]
  ext i
  simp only [BitVec.getElem_and, BitVec.getElem_or, BitVec.getElem_not]
  cases old[i] <;> cases r.rwBits[i] <;> simp

/-- A write of a register without fields of class Q is never refused. -/
theorem RegSpec.changesQ_of_no_q {r : RegSpec} (h : r.bits (fun f => f.cls == .q && f.acc == .rw) = 0 ∧
    r.bits (fun f => f.cls == .q && f.acc == .w1s) = 0) (old v : Word) : r.changesQ old v = false := by
  rw [RegSpec.changesQ, h.1, h.2]
  simp

/-- A write that keeps the bits of class Q is not refused. -/
theorem RegSpec.changesQ_of_kept {r : RegSpec} {old v : Word}
    (hrw : v &&& r.bits (fun f => f.cls == .q && f.acc == .rw) = old &&& r.bits (fun f => f.cls == .q && f.acc == .rw))
    (hw1s : r.bits (fun f => f.cls == .q && f.acc == .w1s) = 0) : r.changesQ old v = false := by
  have hsame : (old ^^^ v) &&& r.bits (fun f => f.cls == .q && f.acc == .rw) = 0 := by
    refine BitVec.eq_of_getLsbD_eq fun i _ => ?_
    have hi := congrArg (·.getLsbD i) hrw
    simp only [BitVec.getLsbD_and] at hi
    rw [BitVec.getLsbD_and, BitVec.getLsbD_xor, Bool.and_comm, Bool.and_xor_distrib_left, Bool.and_comm, ← hi, Bool.and_comm,
      Bool.xor_self]
    simp
  rw [RegSpec.changesQ, hw1s, hsame]
  simp

/-! ## Where a write goes -/

/-- The registers whose writes have a meaning of their own. -/
def ownWrites : List Nat := [R.GLB_RESET, R.SEC_IMG_KEY 4 0, R.SEC_CTRL]

/-- The registers of which a GO written while GO reads 1 is ignored. -/
def goRegs : List Nat :=
  [R.CFG_COMMIT, R.SPL_REQ_A, R.SPL_FLIP, R.OPT_MEASURE 0, R.CNT_COPY_CTRL, R.CMD_PEG_ASSIGN, R.TEN_ASSIGN 0]

theorem State.goBusy_of_not_mem {base : Nat} (h : base ∉ goRegs) (s : State) (off : Nat) (v : Word) :
    s.goBusy base off v = false := by
  simp only [goRegs, List.mem_cons, List.not_mem_nil, or_false, not_or] at h
  obtain ⟨h1, h2, h3, h4, h5, h6, h7⟩ := h
  unfold State.goBusy
  rw [if_neg h1, if_neg h2, if_neg h3, if_neg h4, if_neg h5, if_neg h6, if_neg h7]

/-- A write that no running block refuses stores its fields and then has the effect of its register. -/
theorem State.writeReg_of_row {r : RegSpec} {off : Nat} (hrow : findReg off = some r) (hown : r.base ∉ ownWrites) {s : State} {v : Word}
    (hgo : s.goBusy r.base off v = false) (hq : (r.changesQ (s.rd off) v && s.blockRuns r.base off v) = false) (who : Writer) :
    s.writeReg off v who =
      (s.wr off (r.written off (s.rd off) v false)).writeEffect r.base off (s.rd off) v false who := by
  simp only [ownWrites, List.mem_cons, List.not_mem_nil, or_false, not_or] at hown
  obtain ⟨hreset, hkey, hlock⟩ := hown
  rw [State.writeReg, hrow]
  simp only [hreset, hkey, hlock, hgo, State.writeFields, hq, Bool.false_eq_true, if_false]

/-- A row of which an offset is no register is passed over. -/
theorem findRegIn_cons_of_not {q : RegSpec} {l : List RegSpec} {off : Nat} (h : onDims (off - q.base) q.dims = false) :
    findRegIn (q :: l) off = findRegIn l off := if_neg (by simp [h])

theorem findRegIn_cons_of_mem {q : RegSpec} {l : List RegSpec} {off : Nat} (hlow : q.base ≤ off)
    (h : onDims (off - q.base) q.dims = true) : findRegIn (q :: l) off = some q := if_pos (by simp [h, hlow])

/-- Where a row's array of registers is one of a single dimension, each of its offsets is in the row. -/
theorem findReg_array {base stride count : Nat} {fields : List FieldSpec} (hstride : 0 < stride)
    (hnear : rowsNear regTable base (base + stride * (count - 1)) = [⟨base, [(stride, count)], fields⟩]) {n : Nat} (hn : n < count) :
    findReg (base + n * stride) = some ⟨base, [(stride, count)], fields⟩ := by
  have hhigh : base + n * stride ≤ base + stride * (count - 1) := by
    have := Nat.mul_le_mul_left stride (show n ≤ count - 1 by omega)
    rw [Nat.mul_comm n]
    omega
  rw [findReg_near _ hnear (Nat.le_add_right ..) hhigh]
  refine if_pos ?_
  simp [onDims, hn, Nat.mul_div_cancel _ hstride]

end Sys2Proof.Machine
end

section
/-! PROOF. Rings and completion rings of the host interface (spec/03): setting an enable bit asks for a check, clearing it stops the
ring. -/

namespace Sys2Proof.Proofs
open Sys2Proof Sys2Proof.Machine

/-! ## The registers -/

/-- The row of HIF_RING_ENABLE in the field map. -/
def ringEnableRow : RegSpec := ⟨R.HIF_RING_ENABLE 0, [(8, 16)], [⟨F.HIF_RING_ENABLE_ENABLE, .rw, .l, 0⟩]⟩

theorem findReg_ringEnable {w : Nat} (hw : w < 16) : findReg (R.HIF_RING_ENABLE w) = some ringEnableRow :=
  findReg_array (by decide) (by decide +kernel) hw

/-- The row of HIF_CQ_CFG in the field map. -/
def cqCfgRow : RegSpec :=
  ⟨R.HIF_CQ_CFG 0, [(32, 256)], [⟨F.HIF_CQ_CFG_ENABLE, .rw, .l, 0⟩, ⟨F.HIF_CQ_CFG_SIZE_LOG2, .rw, .q, 0⟩]⟩

/-- The registers of a completion ring lie between those of its neighbours. -/
theorem findReg_cqCfg (c : Fin 256) : findReg (R.HIF_CQ_CFG c) = some cqCfgRow := by
  have hc := c.isLt
  have hlow : R.HIF_CQ_CFG 0 ≤ R.HIF_CQ_CFG c := by simp only [R.HIF_CQ_CFG]; omega
  have hhigh : R.HIF_CQ_CFG c ≤ R.HIF_CQ_CFG 255 := by simp only [R.HIF_CQ_CFG]; omega
  have hnear : ∃ q l, q.base = R.HIF_CQ_BASE 0 ∧ q.dims = [(32, 256)] ∧
      rowsNear regTable (R.HIF_CQ_CFG 0) (R.HIF_CQ_CFG 255) = q :: cqCfgRow :: l :=
    ⟨⟨R.HIF_CQ_BASE 0, [(32, 256)], [⟨F.HIF_CQ_BASE_ADDR, .rw, .q, 0⟩]⟩, _, rfl, rfl, rfl⟩
  obtain ⟨q, l, hbase, hdims, hnear⟩ := hnear
  have hother : onDims (R.HIF_CQ_CFG c - q.base) q.dims = false := by
    rw [hbase, hdims]
    simp only [onDims, R.HIF_CQ_CFG, R.HIF_CQ_BASE, Bool.and_eq_false_iff, beq_eq_false_iff_ne]
    omega
  have hown : onDims (R.HIF_CQ_CFG c - cqCfgRow.base) cqCfgRow.dims = true := by
    have hdist : R.HIF_CQ_CFG c - cqCfgRow.base = c.val * 32 := by simp only [cqCfgRow, R.HIF_CQ_CFG]; omega
    rw [hdist]
    simp [cqCfgRow, onDims]
  rw [findReg_near _ hnear hlow hhigh, findRegIn_cons_of_not hother, findRegIn_cons_of_mem hlow hown]

/-! ## The write of a ring's enable bit -/

/-- What the write of an enable word does for one of its rings. -/
def ringBitWritten (w off : Nat) (v : Word) (s : State) (i : Nat) : State :=
  s.enableBit (.ringEnable (64 * w + i)) (v.getLsbD i) (s.bit off i) off {} (fun s => s.ringStop (64 * w + i)) fun s => s

theorem ringBitWritten_same {w off : Nat} {v : Word} {s : State} {i : Nat} (hv : v.getLsbD i = s.bit off i)
    (hcheck : s.checking (.ringEnable (64 * w + i)) = false) : ringBitWritten w off v s i = s := by
  unfold ringBitWritten State.enableBit
  rw [hv, hcheck]
  cases s.bit off i <;> rfl

/-- A write of an enable word has the effect of its bits, one after the other. -/
theorem hostReg_ringEnable {s : State} (hwf : s.regsWf = true) {w : Nat} (hw : w < 16) (v : Word) :
    s.hostReg (R.HIF_RING_ENABLE w) v = (List.range 64).foldl (ringBitWritten w (R.HIF_RING_ENABLE w) v) s := by
  have hself : ringEnableRow.written (R.HIF_RING_ENABLE w) (s.rd (R.HIF_RING_ENABLE w)) v false = s.rd (R.HIF_RING_ENABLE w) :=
    RegSpec.written_self (by decide) (by decide) (by
      rw [show ringEnableRow.rwBits = 0 by decide]
      simp)
  have hq (old : Word) : ringEnableRow.changesQ old v = false := RegSpec.changesQ_of_no_q (by decide) _ _
  have hoff : R.HIF_RING_ENABLE w < R.CFG_COMMIT := by simp only [R.HIF_RING_ENABLE, R.CFG_COMMIT]; omega
  have hidx : indexAt (R.HIF_RING_ENABLE 0) 8 (R.HIF_RING_ENABLE w) = w := by simp only [indexAt, R.HIF_RING_ENABLE]; omega
  rw [State.hostReg, State.writeReg_of_row (findReg_ringEnable hw) (by decide) (State.goBusy_of_not_mem (by decide) ..)
    (by rw [hq, Bool.false_and]), hself, s.wr_rd _ hwf, State.writeEffect, if_pos hoff, State.effectHost, ringEnableRow,
    if_pos rfl, hidx]
  rfl

/-- A run over the rings of a word of which every step but one changes nothing, before and after that one. -/
theorem foldl_single {α β : Type} {f : α → β → α} {l : List β} {a b : α} {x : β} (hnodup : l.Nodup) (hx : x ∈ l) (hself : f a x = b)
    (hbefore : ∀ y ∈ l, y ≠ x → f a y = a) (hafter : ∀ y ∈ l, y ≠ x → f b y = b) : l.foldl f a = b := by
  induction l with
  | nil => simp at hx
  | cons y t ih =>
    obtain ⟨hy, ht⟩ := List.nodup_cons.1 hnodup
    rw [List.foldl_cons]
    by_cases hyx : y = x
    · subst hyx
      rw [hself]
      exact foldl_keeps (P := (· = b)) (fun u z hz hu => by
        rw [hu]
        exact hafter z (List.mem_cons_of_mem y hz) fun h => hy (h ▸ hz)) rfl
    · rw [hbefore y List.mem_cons_self hyx]
      refine ih ht (List.mem_of_ne_of_mem (Ne.symm hyx) hx) (fun z hz => ?_) fun z hz => ?_
      · exact hbefore z (List.mem_cons_of_mem y hz)
      · exact hafter z (List.mem_cons_of_mem y hz)

/-- The word that asks for one ring's bit where no check of the word's rings is under way. -/
theorem ringWord_getLsbD {s : State} {r : Nat} (hidle : ∀ i < 64, s.checking (.ringEnable (64 * (r / 64) + i)) = false)
    (b : Bool) {i : Nat} (hi : i < 64) :
    (s.ringWord r b).getLsbD i = if i = r % 64 then b else s.bit (R.HIF_RING_ENABLE (r / 64)) i := by
  have hkept : (List.range 64).foldl (fun x i => if s.checking (.ringEnable (64 * (r / 64) + i)) then Fld.set ⟨i, 1⟩ x 1 else x)
      (s.rd (R.HIF_RING_ENABLE (r / 64))) = s.rd (R.HIF_RING_ENABLE (r / 64)) :=
    foldl_keeps (P := (· = s.rd (R.HIF_RING_ENABLE (r / 64)))) (fun u j hj hu => by
      rw [hidle j (List.mem_range.1 hj), if_neg (by decide), hu]) rfl
  unfold State.ringWord
  extract_lets w kept
  rw [show kept = _ from hkept, Fld.set_getLsbD, decide_eq_true hi, Bool.true_and]
  by_cases h : i = r % 64
  · rw [if_pos (by simp only; omega), if_pos h]
    subst h
    cases b <;> simp [b2n]
  · rw [if_neg (by simp only; omega), if_neg h, State.bit]

/-- BUSY of the commits waiting is shown in CFG alone. -/
theorem commitBusy_rd (s : State) {o : Nat} (ho : o < R.CFG_COMMIT) : s.commitBusy.rd o = s.rd o := by
  unfold State.commitBusy
  extract_lets sets t
  have ht : t.rd o = s.rd o := s.rd_setFld_of_ne _ _ (by simp only [R.CFG_COMMIT, R.CFG_COMMIT_STATUS] at ho ⊢; omega)
  refine foldl_keeps (P := fun u : State => u.rd o = s.rd o) (fun u n _ hu => ?_) ht
  exact (u.rd_setFld_of_ne _ _ (by simp only [R.CFG_COMMIT, R.CFG_SET_STATUS] at ho ⊢; omega)).trans hu

theorem commitBusy_frame (s : State) : s.commitBusy = { s with regs := s.commitBusy.regs } := by
  unfold State.commitBusy
  extract_lets sets t
  exact foldl_keeps (P := fun u : State => u = { s with regs := u.regs })
    (fun u n _ hu => by rw [hu]; exact congrArg (fun r => { s with regs := r }) rfl) rfl

/-- The check of a ring waits for its outcome: nothing but the queue of checks and BUSY shows it. -/
theorem pushCheck_ringEnable (s : State) (k : Check) (r : Nat) (hk : k.kind = .ringEnable r) :
    s.pushCheck k = { s with cfg := { s.cfg with checks := s.cfg.checks ++ [k] } }.commitBusy := by
  unfold State.pushCheck
  extract_lets first _ t
  split
  case isFalse => rfl
  case isTrue hfirst =>
    have hnone : s.cfg.checks = [] := List.isEmpty_iff.1 hfirst
    have hchecks : t.cfg.checks = [k] := by simp [t, hnone]
    have hrun : t.runChecks 1 = t := by
      rw [State.runChecks, hchecks]
      simp only [State.runHead, hk, CheckKind.bays, State.wakeBays, List.foldl_nil]
    rw [hrun]

/-! ## Clauses on rings -/

theorem exec_ringEnable {r : Fin 1024} {s : State} (hwf : s.regsWf = true)
    (hidle : ∀ i, i < 1024 → i / 64 = r.val / 64 →
      s.bit (R.HIF_RING_ENABLE (i / 64)) (i % 64) = false ∧ s.checking (.ringEnable i) = false) :
    exec (.ringEnable r) s = .next (s.pushCheck { kind := .ringEnable r, offset := R.HIF_RING_ENABLE (r.val / 64) }) := by
  have hr := r.isLt
  set w := r.val / 64 with hw
  have hslot {i : Nat} (hi : i < 64) : s.bit (R.HIF_RING_ENABLE w) i = false ∧ s.checking (.ringEnable (64 * w + i)) = false := by
    have h := hidle (64 * w + i) (by omega) (by omega)
    rwa [show (64 * w + i) / 64 = w by omega, show (64 * w + i) % 64 = i by omega] at h
  have hv {i : Nat} (hi : i < 64) : (s.ringWord r true).getLsbD i = decide (i = r % 64) := by
    rw [ringWord_getLsbD (fun i hi => (hslot hi).2) true hi, (hslot hi).1]
    by_cases h : i = r % 64 <;> simp [h]
  have hring : 64 * w + r.val % 64 = r := Nat.div_add_mod ..
  change Host.Outcome.next (s.hostReg (R.HIF_RING_ENABLE w) (s.ringWord r true)) = _
  rw [hostReg_ringEnable hwf (by omega)]
  refine congrArg _ (foldl_single (x := r.val % 64) List.nodup_range (List.mem_range.2 (Nat.mod_lt _ (by decide))) ?self
    (fun i hi hne => ?before) fun i hi hne => ?after)
  case self =>
    have hr64 : r.val % 64 < 64 := Nat.mod_lt _ (by decide)
    unfold ringBitWritten State.enableBit
    rw [hv hr64, (hslot hr64).1, (hslot hr64).2, hring]
    simp
  case before =>
    have hi := List.mem_range.1 hi
    refine ringBitWritten_same ?_ (hslot hi).2
    rw [hv hi, (hslot hi).1, decide_eq_false hne]
  case after =>
    have hi := List.mem_range.1 hi
    rw [pushCheck_ringEnable s _ r rfl]
    refine ringBitWritten_same ?_ ?_
    · have hlow : R.HIF_RING_ENABLE w < R.CFG_COMMIT := by simp only [R.HIF_RING_ENABLE, R.CFG_COMMIT]; omega
      rw [hv hi, decide_eq_false hne, State.bit, commitBusy_rd _ hlow]
      exact (hslot hi).1.symm
    · rw [State.checking, commitBusy_frame]
      have hneq : CheckKind.ringEnable r.val ≠ .ringEnable (64 * w + i) := by
        rw [← hring, ne_eq, CheckKind.ringEnable.injEq]
        omega
      have hs : s.cfg.checks.any (fun x => x.kind == .ringEnable (64 * w + i)) = false := (hslot hi).2
      simp [hs, hneq]

theorem ringStop_regsBut (s : State) (r : Nat) : s.RegsBut (s.ringStop r) [R.HIF_RING_STATE r] := by
  unfold State.ringStop
  split
  · exact State.setFld_regsBut List.mem_cons_self _ _
  · exact .refl s _

theorem ringStop_cfg (s : State) (r : Nat) : (s.ringStop r).cfg = s.cfg := by
  unfold State.ringStop
  split <;> rfl

theorem exec_ringDisable {r : Fin 1024} {s : State} (hwf : s.regsWf = true)
    (hon : s.bit (R.HIF_RING_ENABLE (r.val / 64)) (r.val % 64) = true)
    (hidle : ∀ i, i < 1024 → s.checking (.ringEnable i) = false) : exec (.ringDisable r) s = .next (s.ringStop r) := by
  have hr := r.isLt
  set w := r.val / 64 with hw
  have hslot {i : Nat} (hi : i < 64) : s.checking (.ringEnable (64 * w + i)) = false := hidle _ (by omega)
  have hv {i : Nat} (hi : i < 64) :
      (s.ringWord r false).getLsbD i = if i = r % 64 then false else s.bit (R.HIF_RING_ENABLE w) i :=
    ringWord_getLsbD (fun i hi => hslot hi) false hi
  have hring : 64 * w + r.val % 64 = r := Nat.div_add_mod ..
  change Host.Outcome.next (s.hostReg (R.HIF_RING_ENABLE w) (s.ringWord r false)) = _
  rw [hostReg_ringEnable hwf (by omega)]
  refine congrArg _ (foldl_single (x := r.val % 64) List.nodup_range (List.mem_range.2 (Nat.mod_lt _ (by decide))) ?self
    (fun i hi hne => ?before) fun i hi hne => ?after)
  case self =>
    have hr64 : r.val % 64 < 64 := Nat.mod_lt _ (by decide)
    unfold ringBitWritten State.enableBit
    rw [hv hr64, hon, hring]
    simp
  case before =>
    have hi := List.mem_range.1 hi
    exact ringBitWritten_same (by rw [hv hi, if_neg hne]) (hslot hi)
  case after =>
    have hi := List.mem_range.1 hi
    refine ringBitWritten_same ?_ ?_
    · have hother : R.HIF_RING_ENABLE w ∉ [R.HIF_RING_STATE r] := by
        simp only [R.HIF_RING_ENABLE, R.HIF_RING_STATE, List.mem_singleton]
        omega
      rw [hv hi, if_neg hne, State.bit, State.bit, ringStop_regsBut s r _ hother]
    · rw [State.checking, ringStop_cfg]
      exact hslot hi

/-- A ring that stops is draining. -/
theorem ringStop_ringSt {s : State} (hwf : s.regsWf = true) {r : Nat} (h : s.ringSt r = 1 ∨ s.ringSt r = 3) :
    (s.ringStop r).ringSt r = 2 := by
  rw [State.ringStop, if_pos h]
  exact s.fld_setFld_self _ _ _ hwf (by decide)

theorem ringStop_frame (s : State) (r : Nat) : s.ringStop r =
    { s with regs := (s.ringStop r).regs, host := { s.host with rings := (s.ringStop r).host.rings } } := by
  unfold State.ringStop
  split <;> rfl

/-- What the end of a ring's draining leaves. -/
def drained (s : State) (r : Nat) : State :=
  ((s.setFld (R.HIF_RING_STATE r) F.HIF_RING_STATE_STATE 0).setFld (R.HIF_RING_STATE r) F.HIF_RING_STATE_ERROR 0).ringBit r false

theorem exec_ringDrained {r : Fin 1024} {s : State} (hst : s.ringSt r = 2)
    (hnone : s.fld (R.HIF_RING_STATE r) F.HIF_RING_STATE_OUTSTANDING = 0) : exec (.ringDrained r) s = .next (drained s r) :=
  congrArg Host.Outcome.next (if_pos ⟨hst, hnone⟩)

theorem drained_ringSt {s : State} (hwf : s.regsWf = true) (r : Nat) : (drained s r).ringSt r = 0 := by
  have hne : R.HIF_RING_STATE r ≠ R.HIF_RING_ENABLE (r / 64) := by simp only [R.HIF_RING_STATE, R.HIF_RING_ENABLE]; omega
  unfold drained State.ringBit State.setBit
  rw [State.ringSt, State.fld_setFld_of_ne _ _ _ _ hne, State.fld_setFld_of_disjoint _ _ _ _ _ (s.setFld_regsWf _ _ _ hwf) (by decide)
    (by decide), s.fld_setFld_self _ _ _ hwf (by decide)]
  rfl

/-! ## Clauses on completion rings -/

theorem cqCfgRow_written {old : Word} (v : Nat) (off : Nat) :
    cqCfgRow.written off old (F.HIF_CQ_CFG_ENABLE.set old v) false = old :=
  RegSpec.written_self (by decide) (by decide) (by
    rw [show cqCfgRow.rwBits = F.HIF_CQ_CFG_SIZE_LOG2.mask by decide]
    exact set_and_mask_of_disjoint _ _ old v (by decide))

theorem cqCfgRow_changesQ {old : Word} (v : Nat) : cqCfgRow.changesQ old (F.HIF_CQ_CFG_ENABLE.set old v) = false :=
  RegSpec.changesQ_of_kept (by
    rw [show cqCfgRow.bits (fun f => f.cls == .q && f.acc == .rw) = F.HIF_CQ_CFG_SIZE_LOG2.mask by decide]
    exact set_and_mask_of_disjoint _ _ old v (by decide)) (by decide)

/-- A write of ENABLE of a completion ring asks for its check, or clears it. -/
theorem hostField_cqCfg {s : State} (hwf : s.regsWf = true) (c : Fin 256) (v : Nat) :
    s.hostField (R.HIF_CQ_CFG c) F.HIF_CQ_CFG_ENABLE v = s.enableBit (.cqEnable c) (v % 2 == 1) (s.cqOn c) (R.HIF_CQ_CFG c) {}
      (fun s => s.cqClear c (R.HIF_CQ_CFG c) {}) fun s => s := by
  have hc := c.isLt
  have hoff : R.HIF_CQ_CFG c < R.CFG_COMMIT := by simp only [R.HIF_CQ_CFG, R.CFG_COMMIT]; omega
  have hidx : indexAt (R.HIF_CQ_CFG 0) 0x20 (R.HIF_CQ_CFG c) = c := by simp only [indexAt, R.HIF_CQ_CFG]; omega
  rw [State.hostField, State.hostReg, State.writeReg_of_row (findReg_cqCfg c) (by decide) (State.goBusy_of_not_mem (by decide) ..)
    (by rw [cqCfgRow_changesQ, Bool.false_and]), cqCfgRow_written, s.wr_rd _ hwf, State.writeEffect, if_pos hoff, State.effectHost,
    if_neg (by decide), cqCfgRow, if_pos rfl, hidx, F.HIF_CQ_CFG_ENABLE.get_set_self _ _ (by decide)]
  rfl

theorem exec_cqEnable (c : Fin 256) (s : State) : exec (.cqEnable c) s = .next (s.hostField (R.HIF_CQ_CFG c) F.HIF_CQ_CFG_ENABLE 1) := rfl

theorem exec_cqDisable (c : Fin 256) (s : State) : exec (.cqDisable c) s = .next (s.hostField (R.HIF_CQ_CFG c) F.HIF_CQ_CFG_ENABLE 0) := rfl

theorem cqDisable_on {c : Fin 256} {s : State} (hwf : s.regsWf = true) (hon : s.cqOn c = true) :
    exec (.cqDisable c) s = .next (s.cqClear c (R.HIF_CQ_CFG c) {}) := by
  rw [exec_cqDisable, hostField_cqCfg hwf, hon, State.enableBit]
  simp

theorem leNat_lt (b : Bytes) : leNat b < 256 ^ b.length := by
  induction b with
  | nil => exact Nat.one_pos
  | cons x t ih =>
    have hx := x.isLt
    rw [leNat, List.length_cons, Nat.pow_succ]
    omega

/-- What a re-read of a host's place that leaves room does. -/
theorem exec_cqHeadptrReread {c : Fin 256} {b : Bytes} {s : State} (hstalled : s.flag (R.HIF_CQ_STATE c) F.HIF_CQ_STATE_STALLED = true)
    (hlink : s.linkHeld = false) (hroom : (s.cqTail c - BitVec.ofNat 32 (leAt b 0 4)).toNat < s.cqSize c) (hne : leAt b 0 4 ≠ 0) :
    ∃ u : State, exec (.cqHeadptrReread c (.ok b)) s = .next (u.setFld (R.HIF_CQ_STATE c) F.HIF_CQ_STATE_STALLED 0) ∧ u.regs = s.regs ∧
      sget 0 u.host.cqHost c.val = BitVec.ofNat 32 (leAt b 0 4) := by
  set v := BitVec.ofNat 32 (leAt b 0 4) with hv
  have hv0 : v ≠ 0 := by
    have hlt : leAt b 0 4 < 2 ^ 32 := by
      have := leNat_lt (slice b 0 4)
      rwa [slice_length] at this
    rw [hv, ne_eq, ← BitVec.toNat_inj, BitVec.toNat_ofNat, Nat.mod_eq_of_lt hlt]
    exact hne
  obtain ⟨t, ht⟩ : ∃ t, t = s.sendCxl (.rdCurr (s.rd (R.HIF_CQ_HEADPTR c))) := ⟨_, rfl⟩
  have hhost : sget 0 (sset 0 t.host.cqHost c.val v) c.val = v := by
    rw [sset, if_neg hv0, sget_sput_self]
  refine ⟨{ t with host.cqHost := sset 0 t.host.cqHost c.val v }, ?_, by rw [ht]; rfl, hhost⟩
  have hfits : (t.cqTail c - v).toNat ≤ t.cqSize c := by
    rw [ht]
    exact hroom.le
  have hleft : ({ t with host.cqHost := sset 0 t.host.cqHost c.val v } : State).cqRoom c = true := by
    refine decide_eq_true ?_
    change (t.cqTail c - sget 0 (sset 0 t.host.cqHost c.val v) c.val).toNat < t.cqSize c
    rw [hhost, ht]
    exact hroom
  refine (if_neg (by simp [hstalled, hlink])).trans ?_
  rw [← ht]
  change Host.Outcome.next (if (if (t.cqTail c - v).toNat ≤ t.cqSize c then _ else t).cqRoom c = true then _ else _) = _
  rw [if_pos hfits, if_pos hleft]

/-! ## Links -/

theorem hifError_rd (s : State) (i : Nat) {o : Nat} (h : o ≠ R.HIF_ERR_STATUS) : (s.hifError i).rd o = s.rd o := by
  unfold State.hifError
  split
  · rfl
  · exact s.rd_setFld_of_ne _ _ h

theorem hifError_regsWf {s : State} (i : Nat) (h : s.regsWf = true) : (s.hifError i).regsWf = true := by
  unfold State.hifError
  split
  · exact h
  · exact s.setFld_regsWf _ _ _ h

theorem hifError_bit {s : State} {i : Nat} (h : s.regsWf = true) (hi : i < 64) : (s.hifError i).bit R.HIF_ERR_STATUS i = true := by
  unfold State.hifError
  split
  · assumption
  · exact bit_setBit_self true h hi

/-- An error of the host interface changes its register, messages and counts. -/
theorem hifError_frame (s : State) (i : Nat) :
    s.hifError i = { s with regs := (s.hifError i).regs, out := (s.hifError i).out, cnt := (s.hifError i).cnt } := by
  unfold State.hifError
  split <;> rfl

/-- What an IDE failure leaves. -/
def ideFailed (s : State) : State :=
  { ((s.hifError 5).count (ctrHif 14)).setFld R.HIF_LINK_STATUS F.HIF_LINK_STATUS_IDE_ACTIVE 0 with
    sec.ideKeys := [], sec.ideActive := [], host.ideBroken := true }

theorem exec_ideFailure (s : State) : exec .ideFailure s = .next (ideFailed s) := rfl

/-- Settles O22: an enable word has the effect of its bits (`hostReg_ringEnable`), ENABLE of a completion ring of its own
(`hostField_cqCfg`). -/
theorem ringsAndCompletionRings : Obligations.RingsAndCompletionRings := by
  unfold Obligations.RingsAndCompletionRings
  refine ⟨?ringEnable, ?ringDisable, ?ringStop, ?drained, ?cqEnable, ?cqDisable, ?cqNamed, fun _ => rfl, ?d0, ?reread, ?stall, ?ide⟩
  case ringEnable => exact fun r s hwf _ _ hidle => exec_ringEnable hwf hidle
  case ringDisable => exact fun r s hwf hon hidle => exec_ringDisable hwf hon hidle
  case ringStop => exact fun r s _ hwf hst => ⟨ringStop_ringSt hwf hst, ringStop_regsBut s r, ringStop_frame s r⟩
  case drained =>
    intro r s hwf hst hnone
    refine ⟨_, exec_ringDrained hst hnone, drained_ringSt hwf r, ?_, ?_, rfl⟩
    · exact bit_setBit_self false (State.setFld_regsWf _ _ _ _ (s.setFld_regsWf _ _ _ hwf)) (Nat.mod_lt _ (by decide))
    · exact ((State.setFld_regsBut (by simp) _ _).setFld (by simp) _ _).setFld (by simp) _ _
  case cqEnable =>
    intro c s hwf hoff hidle
    rw [exec_cqEnable, hostField_cqCfg hwf, State.enableBit, hoff, hidle]
    rfl
  case cqDisable =>
    intro c s hwf hon hnamed
    rw [cqDisable_on hwf hon, State.cqClear, if_neg (by rw [hnamed]; decide)]
  case cqNamed =>
    intro c s hwf hon hnamed
    rw [cqDisable_on hwf hon, State.cqClear, if_pos hnamed]
  case d0 =>
    intro s hd3
    exact if_neg (by rw [hd3]; decide)
  case reread =>
    intro c b s hstalled hlink hroom hne
    obtain ⟨u, hexec, hregs, hhost⟩ := exec_cqHeadptrReread hstalled hlink hroom hne
    refine ⟨_, hexec, hhost, fun hwf => ?_, (State.RegsBut.of_regs hregs _).setFld (by simp) _ _⟩
    rw [State.flag, State.fld_setFld_self _ _ _ _ (State.regsWf_congr hregs hwf) (by decide)]
    rfl
  case stall =>
    intro c s hstalled
    exact congrArg Host.Outcome.next (if_pos hstalled)
  case ide =>
    intro s hwf
    obtain ⟨u, hu⟩ : ∃ u, u = s.hifError 5 := ⟨_, rfl⟩
    have hframe := hifError_frame s 5
    rw [← hu] at hframe
    have hregs : s.RegsBut u [R.HIF_ERR_STATUS] := fun o ho => hu ▸ hifError_rd s 5 (by simpa using ho)
    have huwf : u.regsWf = true := hu ▸ hifError_regsWf 5 hwf
    have hbit : u.bit R.HIF_ERR_STATUS 5 = true := hu ▸ hifError_bit hwf (by decide)
    obtain ⟨w, hw⟩ : ∃ w, w = (u.count (ctrHif 14)).setFld R.HIF_LINK_STATUS F.HIF_LINK_STATUS_IDE_ACTIVE 0 := ⟨_, rfl⟩
    have hwrd {o : Nat} (ho : o ≠ R.HIF_LINK_STATUS) : w.rd o = u.rd o := by
      rw [hw]
      exact State.rd_setFld_of_ne _ _ _ ho
    have hwflag : w.flag R.HIF_LINK_STATUS F.HIF_LINK_STATUS_IDE_ACTIVE = false := by
      rw [hw, State.flag, State.fld_setFld_self (u.count (ctrHif 14)) _ _ _ huwf (by decide)]
      rfl
    have hwmem : w.mem = s.mem ∧ w.dxn = s.dxn := by
      rw [hw, hframe]
      exact ⟨rfl, rfl⟩
    have hexec : exec .ideFailure s =
        .next { w with sec.ideKeys := [], sec.ideActive := [], host.ideBroken := true } := by rw [exec_ideFailure, ideFailed, ← hu, ← hw]
    refine ⟨_, hexec, rfl, rfl, rfl, ?error, hwflag, fun o ho => ?regs, hwmem.1, hwmem.2⟩
    case error =>
      rw [← hbit]
      exact congrArg (·.getLsbD 5) (hwrd (o := R.HIF_ERR_STATUS) (by decide))
    case regs =>
      obtain ⟨herr, hlink⟩ : o ≠ R.HIF_ERR_STATUS ∧ o ≠ R.HIF_LINK_STATUS := by simpa using ho
      exact (hwrd hlink).trans (hregs o (by simpa using herr))

end Sys2Proof.Proofs
end

section
/-! PROOF. Watched lines and the arrival of descriptors (spec/03 R73 to R77). -/

namespace Sys2Proof.Proofs
open Sys2Proof Sys2Proof.Machine

variable {s : State} {r : Nat}

/-! ## The sill of snoops -/

/-- An overrun of snoops sets its flag, the summary's and the count. -/
theorem overrun_snoop (s : State) : (s.overrun 271 0).host = s.host ∧ ∀ o < R.SIL_OVR_COUNT, (s.overrun 271 0).rd o = s.rd o := by
  have heffect (t : State) : t.overrunEffect 271 0 = t := rfl
  unfold State.overrun
  rw [heffect]
  refine ⟨rfl, fun o ho => ?_⟩
  simp only [R.SIL_OVR_COUNT] at ho
  refine (State.rd_setFld_of_ne _ _ _ ?_).trans ((State.rd_setFld_of_ne _ _ _ ?_).trans (State.rd_setFld_of_ne _ _ _ ?_)) <;>
  · simp only [R.SIL_OVR_COUNT, R.SIL_OVR_SUMMARY, R.SIL_OVR]
    omega

/-- A pulse at the sill of snoops changes sills and their registers alone: an overrun there has no further effect. -/
theorem pulse_snoop (s : State) : (s.pulse 271 0 .event).host = s.host ∧
    ∀ o < R.SIL_OVR_COUNT, (s.pulse 271 0 .event).rd o = s.rd o := by
  have htake : (s.takeInjected 271 0).2.host = s.host ∧ (s.takeInjected 271 0).2.regs = s.regs := by
    unfold State.takeInjected
    split
    · split <;> exact ⟨rfl, rfl⟩
    · exact ⟨rfl, rfl⟩
  unfold State.pulse
  generalize s.takeInjected 271 0 = p at htake
  obtain ⟨inj, u⟩ := p
  obtain ⟨hhost, hregs⟩ : u.host = s.host ∧ u.regs = s.regs := htake
  have hrd (o : Nat) : u.rd o = s.rd o := State.rd_congr hregs o
  dsimp only
  split
  · exact ⟨hhost, fun o _ => hrd o⟩
  · split
    · exact ⟨(overrun_snoop _).1.trans hhost, fun o ho => ((overrun_snoop _).2 o ho).trans (hrd o)⟩
    · exact ⟨hhost, fun o _ => hrd o⟩

theorem exec_watchedLineSnoop {r : Fin 1024} (hshared : (s.ring r).shared = true) (hreading : (s.ring r).reading = false)
    (hide : s.host.ideBroken = false) (hst : s.ringSt r = 1) (hd3 : s.host.d3hot = false) : exec (.watchedLineSnoop r) s =
      .next (((((s.count (ctrHif 3)).sendCxl (.rspIHitSE r)).setRing r { s.ring r with shared := false, again := false }).pulse 271 0
        .event).readLine r) := by
  have hagain : { s.ring r with shared := false, again := false } = { s.ring r with shared := false, again := (s.ring r).reading } := by
    rw [hreading]
  rw [hagain]
  set u := ((s.count (ctrHif 3)).sendCxl (.rspIHitSE r)).setRing r { s.ring r with shared := false, again := (s.ring r).reading } with hu
  obtain ⟨hhost, hrd⟩ := pulse_snoop u
  have hst' : (u.pulse 271 0 .event).ringSt r = 1 := by
    have hr := r.isLt
    rw [State.ringSt, State.fld, hrd _ (by simp only [R.HIF_RING_STATE, R.SIL_OVR_COUNT]; omega), hu]
    exact hst
  have hreads : ¬((u.pulse 271 0 .event).host.d3hot = true ∨ (u.pulse 271 0 .event).ringSt r ≠ 1 ∨ (s.ring r).reading = true) := by
    rw [hhost, hst', hreading, show u.host.d3hot = false from hd3]
    decide
  exact (if_neg (by simp [hshared, hide])).trans (congrArg _ (if_neg hreads))

/-! ## A line's data -/

theorem lineRead_ok (s : State) (r : Nat) (b : Bytes) (k : State → BitVec 32 → State) :
    s.lineRead r (.ok b) k = k s (BitVec.ofNat 32 (leAt b 0 4)) := rfl

theorem exec_watchedLineData {r : Fin 1024} {b : Bytes} (hreading : (s.ring r).reading = true) (hagain : (s.ring r).again = false)
    (hst : s.ringSt r = 1) (hide : s.host.ideBroken = false) : exec (.watchedLineData r (.ok b)) s =
      let u := s.setRing r { s.ring r with reading := false, shared := true, first := false, again := false }
      .next (if (s.ring r).first then u.setRing r { u.ring r with lastTail := BitVec.ofNat 32 (leAt b 0 4) }
        else u.tailSeen r (BitVec.ofNat 32 (leAt b 0 4)) false) := by
  refine (if_neg (by simp [hreading, hide, hst])).trans ?_
  rw [hagain, lineRead_ok]
  exact congrArg _ (if_neg (by simp))

theorem exec_watchPoll {r : Fin 1024} {b : Bytes} (hst : s.ringSt r = 1) (hlink : s.linkHeld = false)
    (hperiod : s.fld R.HIF_WATCH_POLL F.HIF_WATCH_POLL_PERIOD ≠ 0) (hfirst : (s.ring r).first = false) :
    exec (.watchPoll r (.ok b)) s =
      .next ((s.sendCxl (.rdCurr (s.rd (R.HIF_RING_LINE r)))).tailSeen r (BitVec.ofNat 32 (leAt b 0 4)) true) := by
  refine (if_neg (by simp [hst, hlink, hperiod, hfirst])).trans ?_
  rw [lineRead_ok]

/-! ## A ring in error -/

theorem setRing_rd (s : State) (r : Nat) (x : Ring) (o : Nat) : (s.setRing r x).rd o = s.rd o := rfl

theorem setRing_regsWf (s : State) (r : Nat) (x : Ring) : (s.setRing r x).regsWf = s.regsWf := rfl

/-- A ring's error shows in the ring's STATE and ERROR and in the host interface's errors. -/
theorem ringError_eq (s : State) (r code : Nat) : ∃ x : Ring, s.ringError r code =
    (((s.setFld (R.HIF_RING_STATE r) F.HIF_RING_STATE_STATE 3).setFld (R.HIF_RING_STATE r) F.HIF_RING_STATE_ERROR code).setRing r
      x).hifError 2 := ⟨_, rfl⟩

theorem ringError_regsBut (s : State) (r code : Nat) : s.RegsBut (s.ringError r code) [R.HIF_RING_STATE r, R.HIF_ERR_STATUS] := by
  intro o ho
  obtain ⟨hring, herr⟩ : o ≠ R.HIF_RING_STATE r ∧ o ≠ R.HIF_ERR_STATUS := by simpa using ho
  obtain ⟨x, hx⟩ := ringError_eq s r code
  rw [hx, hifError_rd _ _ herr, setRing_rd, State.rd_setFld_of_ne _ _ _ hring, State.rd_setFld_of_ne _ _ _ hring]

theorem ringError_shows (hwf : s.regsWf = true) (hr : r < 1024) {code : Nat} (hcode : code < 256) :
    (s.ringError r code).ringSt r = 3 ∧ (s.ringError r code).fld (R.HIF_RING_STATE r) F.HIF_RING_STATE_ERROR = code ∧
    (s.ringError r code).bit R.HIF_ERR_STATUS 2 = true := by
  have hne : R.HIF_RING_STATE r ≠ R.HIF_ERR_STATUS := by simp only [R.HIF_RING_STATE, R.HIF_ERR_STATUS]; omega
  have htwf := s.setFld_regsWf (R.HIF_RING_STATE r) F.HIF_RING_STATE_STATE 3 hwf
  obtain ⟨x, hx⟩ := ringError_eq s r code
  rw [hx]
  refine ⟨?_, ?_, ?_⟩
  · rw [State.ringSt, State.fld, hifError_rd _ _ hne, setRing_rd, ← State.fld,
      State.fld_setFld_of_disjoint _ _ _ _ _ htwf (by decide) (by decide), s.fld_setFld_self _ _ _ hwf (by decide)]
    decide
  · rw [State.fld, hifError_rd _ _ hne, setRing_rd, ← State.fld, State.fld_setFld_self _ _ _ _ htwf (by decide)]
    exact Nat.mod_eq_of_lt hcode
  · exact hifError_bit ((setRing_regsWf ..).trans (State.setFld_regsWf _ _ _ _ htwf)) (by decide)

/-- A TAIL beyond the ring errors it with code 1. -/
theorem tailSeen_beyond {tail : BitVec 32} (poll : Bool) (hne : tail ≠ (s.ring r).lastTail)
    (hbeyond : 2 ^ s.ringCfg r F.HIF_RING_CFG_SIZE_LOG2 < (tail - BitVec.ofNat 32 (s.ringHead r)).toNat) :
    ∃ u : State, s.tailSeen r tail poll = u.ringError r 1 ∧ u.regs = s.regs := by
  refine ⟨(if poll then s.count (ctrHif 5) else s).setRing r { s.ring r with lastTail := tail }, ?_, ?_⟩
  · unfold State.tailSeen
    extract_lets x t u
    rw [if_neg hne]
    refine if_pos ?_
    cases poll <;> exact hbeyond
  · cases poll <;> rfl

/-! ## Descriptors -/

theorem exec_descriptorArrival_ok {r : Fin 1024} {b : Bytes} (hflight : (s.ring r).inFlight ≠ 0) (hst : s.ringSt r = 1)
    (hide : s.host.ideBroken = false) : exec (.descriptorArrival r (.ok b)) s =
      .next ((s.setRing r { s.ring r with inFlight := (s.ring r).inFlight - 1 }).takeItem r b).fetchMore :=
  if_neg (by simp [hflight, hst, hide])

theorem exec_descriptorArrival_failed {r : Fin 1024} (hflight : (s.ring r).inFlight ≠ 0) (hst : s.ringSt r = 1)
    (hide : s.host.ideBroken = false) : exec (.descriptorArrival r .failed) s = .next (s.ringError r 2) :=
  if_neg (by simp [hflight, hst, hide])

/-- A descriptor becomes a work item at the place that HEAD names, and HEAD moves on. -/
theorem takeItem_item (s : State) (r : Nat) (b : Bytes) : ∃ i, (s.takeItem r b).host.items = s.host.items ++ [i] ∧
    i.id = s.host.nextItem ∧ i.ring = r ∧ i.bytes = slice b 0 64 ∧ i.index = BitVec.ofNat 32 (s.ringHead r) ∧
    (byteAt b 0 / 16 ≠ 2 → byteAt b 0 / 16 ≠ 3 → i.stage = .done ∧ i.status = 2 ∧ i.detail = byteAt b 0 / 16) := by
  unfold State.takeItem
  extract_lets off v own cq i j u
  refine ⟨j, rfl, ?_⟩
  have hj : j.id = i.id ∧ j.ring = i.ring ∧ j.bytes = i.bytes ∧ j.index = i.index := by
    unfold j
    split
    · exact ⟨rfl, rfl, rfl, rfl⟩
    · split
      · exact ⟨rfl, rfl, rfl, rfl⟩
      · split <;> exact ⟨rfl, rfl, rfl, rfl⟩
  obtain ⟨hid, hring, hbytes, hindex⟩ := hj
  refine ⟨hid, hring, hbytes, hindex, fun h2 h3 => ?_⟩
  rw [show j = _ from if_pos ⟨h2, h3⟩]
  exact ⟨rfl, rfl, rfl⟩

/-- The registers after a descriptor's arrival. -/
theorem takeItem_regs (s : State) (r : Nat) (b : Bytes) : (s.takeItem r b).regs =
    (((s.incFld (R.HIF_RING_STATE r) F.HIF_RING_STATE_HEAD).incFld (R.HIF_RING_STATE r) F.HIF_RING_STATE_OUTSTANDING).incFld
      R.HIF_WORK_STATUS F.HIF_WORK_STATUS_OUTSTANDING).regs := rfl

theorem takeItem_head (hwf : s.regsWf = true) (b : Bytes) (hr : r < 1024) :
    (s.takeItem r b).ringHead r = (s.ringHead r + 1) % 2 ^ F.HIF_RING_STATE_HEAD.w := by
  have hne : R.HIF_RING_STATE r ≠ R.HIF_WORK_STATUS := by simp only [R.HIF_RING_STATE, R.HIF_WORK_STATUS]; omega
  rw [State.ringHead, State.fld_congr (State.rd_congr (takeItem_regs s r b) _), State.incFld, State.fld_setFld_of_ne _ _ _ _ hne,
    State.incFld, State.incFld, State.fld_setFld_of_disjoint _ _ _ _ _ (s.setFld_regsWf _ _ _ hwf) (by decide) (by decide),
    s.fld_setFld_self _ _ _ hwf (by decide)]
  rfl

/-- Settles O23: a snoop reads the line again, its data and polls go through `tailSeen`, and a descriptor that arrives becomes an
item (`takeItem_item`). -/
theorem watchedLinesAndArrival : Obligations.WatchedLinesAndArrival := by
  unfold Obligations.WatchedLinesAndArrival
  refine ⟨?snoop, ?first, ?data, ?beyond, ?poll, ?arrival, ?item, ?failed⟩
  case snoop => exact fun r s hshared hreading hide hst hd3 => exec_watchedLineSnoop hshared hreading hide hst hd3
  case first =>
    intro r b s hreading hagain hfirst hst hide
    rw [exec_watchedLineData hreading hagain hst hide, hfirst]
    rfl
  case data =>
    intro r b s hreading hagain hfirst hst hide
    rw [exec_watchedLineData hreading hagain hst hide, hfirst]
    rfl
  case beyond =>
    intro r tail poll s hr hwf hne hbeyond
    obtain ⟨u, hu, hregs⟩ := tailSeen_beyond poll hne hbeyond
    obtain ⟨hst, herr, hbit⟩ := ringError_shows (s := u) (State.regsWf_congr hregs hwf) hr (show 1 < 256 by decide)
    rw [hu]
    exact ⟨hst, herr, hbit, (State.RegsBut.of_regs hregs _).trans (ringError_regsBut u r 1)⟩
  case poll => exact fun r b s hst hlink hperiod hfirst => exec_watchPoll hst hlink hperiod hfirst
  case arrival => exact fun r b s hflight hst hide => exec_descriptorArrival_ok hflight hst hide
  case item =>
    intro r b s hr hwf
    obtain ⟨i, hitems, hid, hring, hbytes, hindex, hversion⟩ := takeItem_item s r b
    refine ⟨i, hitems, hid, hring, hbytes, hindex, hversion, takeItem_head hwf b hr, ?_⟩
    exact (((State.setFld_regsBut (by simp) _ _).setFld (by simp) _ _).setFld (by simp) _ _).trans (.of_regs (takeItem_regs s r b) _)
  case failed => exact fun r s hflight hst hide => exec_descriptorArrival_failed hflight hst hide

end Sys2Proof.Proofs
end

section
/-! PROOF. Work items (spec/03 R78 to R91): each step of an item from its place. -/

namespace Sys2Proof.Proofs
open Sys2Proof Sys2Proof.Machine

variable {item : Nat} {i : Item} {s : State}

/-! ## A step of an item that is there -/

theorem exec_descriptorAdmit (hitem : s.item? item = some i) (hstage : i.stage = .fetched)
    (hturn : (s.earlier i).any (fun x => x.stage == .fetched) = false) (hfree : i.flag 4 = false ∨ s.earlier i = []) :
    exec (.descriptorAdmit item) s = .next (if i.flag 3 ∧ (s.peg i.waitPeg).toNat < leAt i.bytes 32 8
      then s.updItem item fun x => { x with stage := .parked } else s.queueItem i) := by
  change execDescriptorAdmit item s = _
  unfold execDescriptorAdmit
  rw [hitem]
  have hgo : ¬(i.stage ≠ .fetched ∨ (s.earlier i).any (fun x => x.stage == .fetched) = true ∨
      i.flag 4 = true ∧ (s.earlier i).isEmpty = false) := by
    rw [hturn]
    rcases hfree with h | h <;> simp [hstage, h]
  dsimp only
  rw [if_neg hgo]
  split <;> rfl

theorem exec_parkedWaitSatisfied (hitem : s.item? item = some i) (hstage : i.stage = .parked) (hhit : i.hit = true) :
    exec (.parkedWaitSatisfied item) s = .next (s.queueItem i) := by
  change execParkedWaitSatisfied item s = _
  unfold execParkedWaitSatisfied
  rw [hitem]
  exact congrArg _ (if_pos ⟨hstage, hhit⟩)

theorem exec_descriptorWaitTimeout (hitem : s.item? item = some i) (hstage : i.stage = .parked) (htime : leAt i.bytes 30 2 ≠ 0)
    (hhit : i.hit = false) :
    exec (.descriptorWaitTimeout item) s = .next (s.itemDone item 6 ((s.peg i.waitPeg).toNat % 2 ^ 32) 0) := by
  change execDescriptorWaitTimeout item s = _
  unfold execDescriptorWaitTimeout
  rw [hitem]
  dsimp only
  rw [if_neg (by simp [hstage, htime]), if_neg (by simp [hhit])]

theorem exec_descriptorNop (hitem : s.item? item = some i) (hstage : i.stage = .queued) (hkind : i.kind = 0) :
    exec (.descriptorNop item) s = .next (s.itemDone item 0 0 0) := by
  change execDescriptorNop item s = _
  unfold execDescriptorNop
  rw [hitem]
  exact congrArg _ (if_pos ⟨hstage, hkind⟩)

theorem exec_descriptorAbort (hitem : s.item? item = some i) (hstage : i.stage = .queued) (hkind : i.kind = 2) :
    exec (.descriptorAbort item) s =
      let l := s.host.items.filter fun x => x.ring == i.ring && x.tag == leAt i.bytes 40 2 && x.id != item && !x.discard
      let a := l.foldl (fun (a : Nat × State) x => (a.1 + b2n (a.2.abortItem x i.tag).1, (a.2.abortItem x i.tag).2)) (0, s)
      .next (a.2.itemDone item 0 0 (BitVec.ofNat 64 a.1)) := by
  change execDescriptorAbort item s = _
  unfold execDescriptorAbort
  rw [hitem]
  dsimp only
  rw [if_neg (by simp [hstage, hkind])]

/-! ## RUN -/

/-- What a RUN leaves once its context has been drawn: the item started, the context loading, and the image read. -/
def runStarted (s : State) (item : Nat) (i : Item) (rest : List Nat) (n : Fin 64) : State :=
  let t := ({ s with free := s.free + 1, host.runQueue := rest } : State).updItem item fun y => { y with stage := .started }
  let u := t.setCtx (.c n) { status := .loading, domain := i.domain, item := some item, runLimit := i.runLimit }
  let a := BitVec.ofNat 64 (leAt i.bytes 8 8)
  if a.getLsbD 63 then u.sendCxl (.rdCurr (a &&& BitVec.ofNat 64 (2 ^ 52 - 1))) else u

theorem exec_descriptorRun {rest : List Nat} (hitem : s.item? item = some i) (hstage : i.stage = .queued)
    (hqueue : s.host.runQueue = item :: rest) (hfree : (List.finRange 64).all (fun n => (s.ctx (.c n)).status == .free) = true) :
    ∃ n : Fin 64, exec (.descriptorRun item) s = .next (runStarted s item i rest n) := by
  have hall : s.freeC = List.finRange 64 := List.filter_eq_self.2 (by simpa using hfree)
  obtain ⟨n, hn⟩ : ∃ n, (List.finRange 64)[(Config.freeValue s.free).toNat % (List.finRange 64).length]? = some n :=
    ⟨_, List.getElem?_eq_getElem (Nat.mod_lt _ (by simp))⟩
  refine ⟨n, ?_⟩
  change execDescriptorRun item s = _
  unfold execDescriptorRun
  rw [hitem, hqueue]
  dsimp only
  rw [if_neg (by simp [hstage]), hall]
  dsimp only [State.draw]
  rw [hn]
  rfl

theorem runStarted_ctx (rest : List Nat) (n : Fin 64) (d : Ctx) : (runStarted s item i rest n).ctx d =
    ((s.setCtx (.c n) { status := .loading, domain := i.domain, item := some item, runLimit := i.runLimit }).ctx d) := by
  unfold runStarted
  dsimp only
  split <;> rfl

theorem runStarted_frame (rest : List Nat) (n : Fin 64) : (runStarted s item i rest n).host.runQueue = rest ∧
    (runStarted s item i rest n).free = s.free + 1 ∧ (runStarted s item i rest n).regs = s.regs ∧
    (runStarted s item i rest n).mem = s.mem := by
  unfold runStarted
  dsimp only
  split <;> exact ⟨rfl, rfl, rfl, rfl⟩

theorem exec_imageReadComplete {n : Fin 64} {read : HostRead} {errs : List LineErr} (hstatus : (s.ctx (.c n)).status = .loading)
    (hitem : (s.ctx (.c n)).item.bind s.item? = some i) : exec (.imageReadComplete n read errs) s =
      let u := (s.checkImage (BitVec.ofNat 64 (leAt i.bytes 8 8)) 3 (leAt i.bytes 16 4) 0 read errs).1
      match (s.checkImage (BitVec.ofNat 64 (leAt i.bytes 8 8)) 3 (leAt i.bytes 16 4) 0 read errs).2 with
      | .refused k => .next ((u.setCtx (.c n) {}).itemDone i.id 3 k 0)
      | .memory => .next ((u.setCtx (.c n) {}).itemDone i.id 8 1 0)
      | .ok version code data crc =>
        let y := { s.ctx (.c n) with pc := leAt i.bytes 16 4, code := code, data := data
                                     image := some (BitVec.ofNat 64 (leAt i.bytes 8 8), crc), version := BitVec.ofNat 8 version }
        .next ((u.startCtx (.c n) ((((y.setReg 1 (BitVec.ofNat 64 (leAt i.bytes 40 8))).setReg 2 (BitVec.ofNat 64 (leAt i.bytes 48
          8))).setReg 3 (BitVec.ofNat 64 (leAt i.bytes 56 8))).setReg 4 (BitVec.ofNat 64 (i.tag + i.ring * 2 ^ 16 +
          i.domain.toNat * 2 ^ 32)))).fetchCheck (.c n)) := by
  change execImageReadComplete n read errs s = _
  unfold execImageReadComplete
  dsimp only
  rw [hstatus, hitem] <;> rfl

/-! ## Completion -/

theorem exec_workCompletion_room (hitem : s.item? item = some i) (hstage : i.stage = .done) (hdiscard : i.discard = false)
    (hlink : s.linkHeld = false) (hdue : (i.flag 0 || i.status != 0 || !i.trusted) = true) (hroom : s.cqRoom i.cq = true) :
    exec (.workCompletion item) s =
      let u := (s.writeRecord i).signalPeg i
      .next ((if i.trusted ∧ i.flag 1 then u.raise (leAt i.bytes 20 2) else u).retire i) := by
  change execWorkCompletion item s = _
  unfold execWorkCompletion
  rw [hitem]
  dsimp only
  rw [if_neg (by simp [hstage]), if_neg (by simp [hdiscard]), if_neg (by simp [hlink]), if_neg (by simp [hroom]), if_pos hdue]

theorem exec_workCompletion_stalled (hitem : s.item? item = some i) (hstage : i.stage = .done) (hdiscard : i.discard = false)
    (hlink : s.linkHeld = false) (hdue : (i.flag 0 || i.status != 0 || !i.trusted) = true) (hroom : s.cqRoom i.cq = false) :
    exec (.workCompletion item) s = .next (s.setFld (R.HIF_CQ_STATE i.cq) F.HIF_CQ_STATE_STALLED 1) := by
  change execWorkCompletion item s = _
  unfold execWorkCompletion
  rw [hitem]
  dsimp only
  rw [if_neg (by simp [hstage]), if_neg (by simp [hdiscard]), if_neg (by simp [hlink]), if_pos ⟨hdue, hroom⟩]

/-- Settles O24: each event of an item by the rule of its own above. -/
theorem workItems : Obligations.WorkItems := by
  unfold Obligations.WorkItems
  refine ⟨?admission, ?satisfied, ?timeout, ?nop, ?abort, ?run, ?image, ?room, ?stalled⟩
  case admission => exact fun item i s hitem hstage hturn hfree => exec_descriptorAdmit hitem hstage hturn hfree
  case satisfied => exact fun item i s hitem hstage hhit => exec_parkedWaitSatisfied hitem hstage hhit
  case timeout => exact fun item i s hitem hstage htime hhit => exec_descriptorWaitTimeout hitem hstage htime hhit
  case nop => exact fun item i s hitem hstage hkind => exec_descriptorNop hitem hstage hkind
  case abort => exact fun item i s hitem hstage hkind => ⟨_, exec_descriptorAbort hitem hstage hkind, rfl⟩
  case run =>
    intro item h i rest s hitem hstage hqueue hkind hfree
    obtain ⟨n, hexec⟩ := exec_descriptorRun hitem hstage hqueue hfree
    obtain ⟨hrest, hdrawn, hregs, hmem⟩ := runStarted_frame (s := s) (item := item) (i := i) rest n
    refine ⟨_, hexec, hrest, hdrawn, n, ?_, fun d hd => ?_, hregs.symm, hmem⟩
    · rw [runStarted_ctx, State.ctx_setCtx_self _ _ _ (by simp)]
    · rw [runStarted_ctx, State.ctx_setCtx_of_ne _ _ hd]
  case image =>
    intro n read errs i s hstatus hitem
    rw [exec_imageReadComplete hstatus hitem]
    dsimp only
    generalize (s.checkImage (BitVec.ofNat 64 (leAt i.bytes 8 8)) 3 (leAt i.bytes 16 4) 0 read errs).2 = result
    cases result <;> exact ⟨_, rfl, rfl⟩
  case room =>
    exact fun item i s hitem hstage hdiscard hlink hdue hroom => exec_workCompletion_room hitem hstage hdiscard hlink hdue hroom
  case stalled =>
    exact fun item i s hitem hstage hdiscard hlink hdue hroom => exec_workCompletion_stalled hitem hstage hdiscard hlink hdue hroom

end Sys2Proof.Proofs
end

section
/-! PROOF. The mailbox and MCTP (spec/03, spec/15): a command is counted, and then answered with what it asks for. -/

namespace Sys2Proof.Proofs
open Sys2Proof Sys2Proof.Machine

variable {s : State}

/-- A mailbox command at a Wellhead that serves. -/
theorem mailbox_serves (h : s.serves = true) (k : State → State × Nat × Bytes) :
    s.mailbox k = (k (s.count (ctrHif 13))).1.answer
      (leBytes 2 (k (s.count (ctrHif 13))).2.1 ++ (k (s.count (ctrHif 13))).2.2) := if_pos h

/-- A mailbox command at a Wellhead that does not serve is answered as not ready. -/
theorem mailbox_not_ready (h : s.serves = false) (k : State → State × Nat × Bytes) :
    s.mailbox k = (s.count (ctrHif 13)).answer [] := if_neg (show ¬s.serves = true by simp [h])

theorem exec_getFwInfo_mctp (h : s.serves = true ∨ s.phase = 0xF ∧ s.board.place = .running) :
    exec (.getFwInfo true) s = .next ((s.count (ctrHif 10)).answerMctp true (leBytes 2 mbOk ++ s.fwInfo)) := by
  have hok : (s.serves || (s.phase == 0xF && s.board.place == .running)) = true := by
    rcases h with h | ⟨hphase, hplace⟩
    · simp [h]
    · simp [hphase, hplace]
  change Host.Outcome.next ((s.count (ctrHif 10)).answerMctp true (if (s.serves || _) = true then _ else _)) = _
  rw [if_pos hok]

/-- A message of a type that is taken is counted and answered on its binding, once it has set what it sets. -/
theorem exec_mctpMessage_taken {i3c : Bool} {msg : Bytes} (htype : mctpTypes.contains (byteAt msg 0 % 128) = true)
    (hup : s.cfg.wellheadDown = false) : ∃ f : State → Bytes, exec (.mctpMessage i3c true msg) s =
      .next (if byteAt msg 0 % 128 = 0 ∧ byteAt msg 2 = 1 then
          let u := { s with host.eid := sset 0 s.host.eid (b2n i3c) (BitVec.ofNat 8 (byteAt msg 4)) }.count (ctrHif 10)
          u.answerMctp i3c (f u)
        else (s.count (ctrHif 10)).answerMctp i3c (f (s.count (ctrHif 10)))) := by
  have htaken : ¬(true = false ∨ mctpTypes.contains (byteAt msg 0 % 128) = false) := by rw [htype]; decide
  have hserved : ¬(s.count (ctrHif 10)).cfg.wellheadDown = true := by
    change ¬s.cfg.wellheadDown = true
    simp [hup]
  refine ⟨fun t => spdmFixed msg (Config.mctpResponse (sget 0 t.host.eid (b2n i3c)) msg), ?_⟩
  change execMctpMessage i3c true msg s = _
  unfold execMctpMessage
  rw [if_neg htaken]
  dsimp only
  rw [if_neg hserved]
  split <;> rfl

/-- Settles O25: `mailbox_serves` says how every mailbox command is answered. -/
theorem mailboxCommands : Obligations.MailboxCommands := by
  unfold Obligations.MailboxCommands
  refine ⟨fun s h => congrArg _ (mailbox_serves h _), fun s h => congrArg _ (mailbox_serves h _),
    fun n s h => congrArg _ (mailbox_serves h _), fun s h => congrArg _ (mailbox_serves h _), ?log, ?fwInfo,
    fun s hphase hplace => exec_getFwInfo_mctp (.inr ⟨hphase, hplace⟩), fun s h => congrArg _ (mailbox_serves h _),
    fun opcode s h => congrArg _ (mailbox_serves h _), ?down, ?taken, ?dropped⟩
  case log =>
    intro offset length s h
    refine (congrArg Host.Outcome.next (mailbox_serves h _)).trans ?_
    split <;> rfl
  case fwInfo => exact fun s h => ⟨congrArg _ (mailbox_serves h _), exec_getFwInfo_mctp (.inl h)⟩
  case down =>
    exact fun s h => ⟨congrArg _ (mailbox_not_ready h _), congrArg _ (mailbox_not_ready h _), congrArg _ (mailbox_not_ready h _)⟩
  case taken =>
    intro i3c msg s htype hup
    obtain ⟨f, hf⟩ := exec_mctpMessage_taken (i3c := i3c) htype hup
    by_cases h : byteAt msg 0 % 128 = 0 ∧ byteAt msg 2 = 1
    · rw [if_pos h] at hf
      exact ⟨_, hf, _, rfl, fun _ _ => rfl, fun hne => absurd hne (by simp [h.1, h.2]), rfl⟩
    · rw [if_neg h] at hf
      exact ⟨_, hf, _, rfl, fun h0 h1 => absurd ⟨h0, h1⟩ h, fun _ => rfl, rfl⟩
  case dropped => exact fun i3c wellFormed msg s h => if_pos h

end Sys2Proof.Proofs
end

section
/-! PROOF. Firmware transfers and activation (spec/15 R398 to R400). -/

namespace Sys2Proof.Proofs
open Sys2Proof Sys2Proof.Machine

variable {s : State}

/-! ## The control record -/

/-- The record written governs: it is intact and of the later sequence. -/
theorem setControl_control (s : State) (active : Nat) (p : Option Nat) :
    (s.setControl active p).control = { active := active, pending := p, seq := s.control.seq + 1 } := by
  unfold State.setControl
  extract_lets x
  have hintact : x.intact = true := rfl
  split
  case isTrue hgov =>
    have hseq : s.control.seq = s.sec.ctlA.seq := by rw [State.control, if_pos hgov]
    have hnot : ({ s with sec.ctlB := x } : State).ctlGoverns = false := by
      simp [State.ctlGoverns, x, hseq]
    rw [State.control, if_neg (fun h => Bool.false_ne_true (hnot.symm.trans h)), if_pos hintact]
  case isFalse hgov =>
    have hnow : ({ s with sec.ctlA := x } : State).ctlGoverns = true := by
      have hseq : s.sec.ctlB.intact = true → s.sec.ctlB.seq ≤ x.seq := by
        intro hb
        simp [x, State.control, hgov, hb]
      simp only [State.ctlGoverns, hintact, Bool.true_and, Bool.or_eq_true, Bool.not_eq_true', decide_eq_true_eq]
      by_cases hb : s.sec.ctlB.intact = true
      · exact .inr (hseq hb)
      · exact .inl (by simpa using hb)
    rw [State.control, if_pos hnow]

theorem setControl_eq (s : State) (active : Nat) (p : Option Nat) :
    ∃ a b, s.setControl active p = { s with sec := { s.sec with ctlA := a, ctlB := b } } := by
  unfold State.setControl
  split
  · exact ⟨s.sec.ctlA, _, rfl⟩
  · exact ⟨_, s.sec.ctlB, rfl⟩

/-- What a pending activation changes: the control record, and SEC_FW that shows it. -/
theorem setPending_eq (s : State) (p : Option Nat) : s.RegsBut (s.setPending p) [R.SEC_FW] ∧
    ∃ r a b, s.setPending p = { s with regs := r, sec := { s.sec with ctlA := a, ctlB := b } } := by
  unfold State.setPending
  split
  · exact ⟨.refl s _, s.regs, s.sec.ctlA, s.sec.ctlB, rfl⟩
  · obtain ⟨a, b, h⟩ := setControl_eq s s.control.active p
    rw [h]
    obtain ⟨u, hu⟩ : ∃ u : State, u = { s with sec := { s.sec with ctlA := a, ctlB := b } } := ⟨_, rfl⟩
    rw [← hu]
    have hregs : u.regs = s.regs := by rw [hu]
    refine ⟨(State.RegsBut.of_regs hregs _).trans ((State.setFld_regsBut List.mem_cons_self _ _).setFld List.mem_cons_self _ _),
      u.secFw.regs, a, b, ?_⟩
    rw [hu]
    rfl

theorem setPending_control (s : State) (p : Option Nat) : (s.setPending p).control.pending = p := by
  unfold State.setPending
  split
  · assumption
  · exact congrArg FwControl.pending (setControl_control s _ p)

/-! ## Transfers -/

/-- A bank before a transfer into it: erased, and no longer pending. -/
def erased (s : State) (b : Nat) : State :=
  if (s.setBank b []).control.pending = some b then (s.setBank b []).setPending none else s.setBank b []

theorem erased_eq (s : State) (b : Nat) : s.RegsBut (erased s b) [R.SEC_FW] ∧
    ∃ r x y, erased s b = { s with regs := r, sec := { (s.setBank b []).sec with ctlA := x, ctlB := y } } := by
  obtain ⟨hregs, r, x, y, h⟩ := setPending_eq (s.setBank b []) none
  have hbank : (s.setBank b []) = { s with sec := (s.setBank b []).sec } := by unfold State.setBank; split <;> rfl
  unfold erased
  split
  · refine ⟨(State.RegsBut.of_regs (congrArg State.regs hbank) _).trans hregs, r, x, y, ?_⟩
    rw [h, hbank]
  · exact ⟨.of_regs (congrArg State.regs hbank) _, s.regs, _, _, hbank⟩

theorem erased_not_pending (s : State) (b : Nat) : (erased s b).control.pending ≠ some b := by
  unfold erased
  split
  · rw [setPending_control]
    exact nofun
  · assumption

theorem activeFw_cases (s : State) : s.activeFw = 1 ∨ s.activeFw = 2 := by
  unfold State.activeFw
  split
  · exact .inr rfl
  · exact .inl rfl

/-- The bank that is not active is empty, and the active one as it was. -/
theorem erased_region (s : State) : (erased s (3 - s.activeFw)).region (3 - s.activeFw) = [] ∧
    (erased s (3 - s.activeFw)).region s.activeFw = s.region s.activeFw := by
  obtain ⟨-, r, x, y, h⟩ := erased_eq s (3 - s.activeFw)
  rw [h]
  rcases activeFw_cases s with hact | hact <;> rw [hact] <;> exact ⟨rfl, rfl⟩

theorem exec_transferFw (h : s.serves = true) (part : TransferPart) (offset : Nat) (data : Bytes) : exec (.transferFw part offset data) s =
    .next ((((s.count (ctrHif 13)).transferPart part offset data).1.answer
      (leBytes 2 ((s.count (ctrHif 13)).transferPart part offset data).2.1 ++
        ((s.count (ctrHif 13)).transferPart part offset data).2.2))) := congrArg _ (mailbox_serves h _)

theorem transferPart_initiate {data : Bytes} (htransfer : s.sec.transfer = none) (hlen : data.length ≤ bankSize) :
    s.transferPart .initiate 0 data =
      ({ erased s (3 - s.activeFw) with sec.transfer := some (3 - s.activeFw, data) }, mbOk, []) := by
  unfold State.transferPart
  rw [htransfer]
  exact if_neg (by simp [hlen])

theorem transferPart_continue {b : Nat} {d data : Bytes} (htransfer : s.sec.transfer = some (b, d))
    (hlen : d.length + data.length ≤ bankSize) :
    s.transferPart .continue_ d.length data = ({ s with sec.transfer := some (b, d ++ data) }, mbOk, []) := by
  unfold State.transferPart
  rw [htransfer]
  exact if_neg (by simp [hlen])

theorem transferPart_finish {b : Nat} {d data : Bytes} (htransfer : s.sec.transfer = some (b, d))
    (hlen : d.length + data.length ≤ bankSize) :
    s.transferPart .finish d.length data = ({ s with sec.transfer := none }.setBank b (d ++ data), mbOk, []) := by
  unfold State.transferPart
  rw [htransfer]
  exact if_neg (by simp [hlen])

theorem transferPart_abort {offset : Nat} {data : Bytes} (htransfer : s.sec.transfer ≠ none) :
    s.transferPart .abort offset data = ({ s with sec.transfer := none }, mbOk, []) := by
  obtain ⟨x, hx⟩ := Option.ne_none_iff_exists'.1 htransfer
  unfold State.transferPart
  rw [hx]

/-- Settles O26: `transferPart` by its parts, `setControl_control` for what is pending. -/
theorem firmwareBanks : Obligations.FirmwareBanks := by
  unfold Obligations.FirmwareBanks
  refine ⟨?initiate, ?part, ?finish, ?abort, ?activate⟩
  case initiate =>
    intro data s hserves htransfer hlen
    set u := s.count (ctrHif 13)
    have hexec := exec_transferFw hserves .initiate 0 data
    rw [transferPart_initiate (s := u) htransfer hlen] at hexec
    obtain ⟨hempty, hkept⟩ := erased_region u
    obtain ⟨hregs, r, x, y, h⟩ := erased_eq u (3 - u.activeFw)
    have hpending := erased_not_pending u (3 - u.activeFw)
    generalize erased u (3 - u.activeFw) = w at *
    have hother : w.out = u.out ∧ w.mem = u.mem ∧ w.dxn = u.dxn := by rw [h]; exact ⟨rfl, rfl, rfl⟩
    obtain ⟨hout, hmem, hdxn⟩ := hother
    refine ⟨_, hexec, rfl, hempty, hkept, ?_, hpending, hmem, hdxn, hregs⟩
    change w.out.mailbox ++ _ = _
    rw [hout]
    rfl
  case part =>
    intro b d data s hserves htransfer hlen
    rw [exec_transferFw hserves, transferPart_continue (s := s.count (ctrHif 13)) htransfer hlen]
    rfl
  case finish =>
    intro b d data s hserves htransfer hlen
    rw [exec_transferFw hserves, transferPart_finish (s := s.count (ctrHif 13)) htransfer hlen]
    rfl
  case abort =>
    intro offset data s hserves htransfer
    rw [exec_transferFw hserves, transferPart_abort (s := s.count (ctrHif 13)) htransfer]
    rfl
  case activate =>
    intro bank s hserves htransfer
    refine (congrArg Host.Outcome.next (mailbox_serves hserves _)).trans ?_
    have hidle : ¬(s.count (ctrHif 13)).sec.transfer.isSome = true := by
      change ¬s.sec.transfer.isSome = true
      simp [htransfer]
    rw [if_neg hidle]
    have hboot : (s.count (ctrHif 13)).bootable (bank + 1) = s.bootable (bank + 1) := rfl
    rw [hboot]
    split <;> rfl

end Sys2Proof.Proofs
end

section
/-! PROOF. The vendor security commands (spec/15): each is counted on its transport, carried out and answered. -/

namespace Sys2Proof.Proofs
open Sys2Proof Sys2Proof.Machine

variable {s : State} {via : Via}

/-! ## A command on its transport -/

theorem requestVia_frame (s : State) (v : Via) : s.requestVia v = { s with cnt := (s.requestVia v).cnt } := by
  cases v <;> rfl

theorem answerVia_frame (s : State) (v : Via) (f : Bytes) : s.answerVia v f =
    { s with out := (s.answerVia v f).out, cnt := (s.answerVia v f).cnt, free := (s.answerVia v f).free } := by
  cases v <;> rfl

/-- A command at a Wellhead that serves: its outcome on the state that has counted it, answered. -/
theorem vendor_serves (h : s.serves = true) (k : State → State × Nat × Bytes) :
    ∃ c : Cnt, s.requestVia via = { s with cnt := c } ∧ s.vendor via k =
      (k { s with cnt := c }).1.answerVia via (leBytes 1 (k { s with cnt := c }).2.1 ++ (k { s with cnt := c }).2.2) := by
  have hframe := requestVia_frame s via
  refine ⟨_, hframe, ?_⟩
  unfold State.vendor
  extract_lets u
  rw [if_pos (show u.serves = true by rw [show u = _ from hframe]; exact h), ← hframe]

/-- A command whose outcome on the counted state is known. -/
theorem vendor_of {k : State → State × Nat × Bytes} {code : Nat} {a : Bytes} {t : State} (h : s.serves = true)
    (hk : k (s.requestVia via) = (t, code, a)) : s.vendor via k = t.answerVia via (leBytes 1 code ++ a) := by
  obtain ⟨c, hc, hv⟩ := vendor_serves (via := via) h k
  rw [hv, ← hc, hk]

/-! ## Attestation -/

/-- What a fresh index leaves of the state. -/
structure IndexTaken (s t : State) : Prop where
  next : t.ldg.sigNext = s.ldg.sigNext + 1
  mark : s.ldg.sigNext < s.ldg.sigMark + 1024 → s.ldg.sigNext < t.ldg.sigMark
  epoch : s.sec.indexEpoch ≤ t.sec.indexEpoch ∧ s.ldg.sigNext / 2 ^ 34 ≤ t.sec.indexEpoch
  mem : t.mem = s.mem
  dxn : t.dxn = s.dxn
  regs : s.RegsBut t [R.SEC_XMSS_NEXT, R.SEC_XMSS_REMAIN, R.SEC_STATUS]

theorem secStatus_regsBut (s : State) : s.RegsBut s.secStatus [R.SEC_STATUS] :=
  (((State.setFld_regsBut List.mem_cons_self _ _).setFld List.mem_cons_self _ _).setFld List.mem_cons_self _ _).setFld
    List.mem_cons_self _ _

theorem setNext_regsBut (s : State) (n : Nat) : s.RegsBut (s.setNext n) [R.SEC_XMSS_NEXT, R.SEC_XMSS_REMAIN, R.SEC_STATUS] := by
  unfold State.setNext
  extract_lets was left _ s1 s2 s3 s4
  have h3 : s.RegsBut s3 [R.SEC_XMSS_NEXT, R.SEC_XMSS_REMAIN, R.SEC_STATUS] :=
    (((State.RegsBut.of_regs (s := s) (t := s1) rfl _).wr (by simp) _).wr (by simp) _).setFld (by simp) _ _
  have h4 : s.RegsBut s4 [R.SEC_XMSS_NEXT, R.SEC_XMSS_REMAIN, R.SEC_STATUS] := by
    unfold s4
    split
    · exact h3.trans (.of_regs rfl _)
    · exact h3
  exact h4.setFld (by simp) _ _

/-- The epoch fuses before an index is taken: raised where the index lies beyond them. -/
def epochRaised (s : State) : State :=
  if s.sec.indexEpoch < s.ldg.sigNext / 2 ^ 34 then { s with sec.indexEpoch := s.ldg.sigNext / 2 ^ 34 }.secStatus else s

/-- The mark of indexes taken, moved on where an index reaches it. -/
def markMoved (s : State) (i : Nat) : State :=
  if s.ldg.sigMark ≤ i then { s with ldg.sigMark := s.ldg.sigMark + 1024, ldg.controlSeq := s.ldg.controlSeq + 1 } else s

theorem takeIndex_eq (s : State) :
    s.takeIndex = (s.ldg.sigNext, (markMoved (epochRaised s) s.ldg.sigNext).setNext (s.ldg.sigNext + 1)) := by
  unfold State.takeIndex
  extract_lets i _ t _ u
  have ht : t = epochRaised s := rfl
  have hu : u = markMoved t i := rfl
  rw [← ht]
  exact congrArg (fun v : State => (i, v.setNext (i + 1))) hu

theorem epochRaised_frame (s : State) : ∃ e, epochRaised s = { s with regs := (epochRaised s).regs, sec := { s.sec with indexEpoch := e } } ∧
    s.sec.indexEpoch ≤ e ∧ s.ldg.sigNext / 2 ^ 34 ≤ e ∧ s.RegsBut (epochRaised s) [R.SEC_STATUS] := by
  unfold epochRaised
  split
  case isTrue h =>
    obtain ⟨u, hu⟩ : ∃ u : State, u = { s with sec.indexEpoch := s.ldg.sigNext / 2 ^ 34 } := ⟨_, rfl⟩
    have hregs : u.regs = s.regs := by rw [hu]
    have hframe : u.secStatus = { u with regs := u.secStatus.regs } := rfl
    rw [← hu]
    refine ⟨s.ldg.sigNext / 2 ^ 34, hframe.trans ?_, h.le, le_rfl, (State.RegsBut.of_regs hregs _).trans (secStatus_regsBut u)⟩
    rw [hu]
  case isFalse h => exact ⟨s.sec.indexEpoch, rfl, le_rfl, by omega, .refl s _⟩

theorem takeIndex_taken (s : State) : ∃ t, s.takeIndex = (s.ldg.sigNext, t) ∧ IndexTaken s t := by
  obtain ⟨e, hframe, hold, hnew, hregs⟩ := epochRaised_frame s
  have heq := takeIndex_eq s
  generalize epochRaised s = u at *
  obtain ⟨hldg, hmem, hdxn, hepoch⟩ : u.ldg = s.ldg ∧ u.mem = s.mem ∧ u.dxn = s.dxn ∧ u.sec.indexEpoch = e := by
    rw [hframe]
    exact ⟨rfl, rfl, rfl, rfl⟩
  obtain ⟨v, hv⟩ : ∃ v, v = markMoved u s.ldg.sigNext := ⟨_, rfl⟩
  have hmark : (s.ldg.sigNext < s.ldg.sigMark + 1024 → s.ldg.sigNext < v.ldg.sigMark) ∧ v.mem = u.mem ∧ v.dxn = u.dxn ∧
      v.sec = u.sec ∧ v.regs = u.regs := by
    rw [hv]
    unfold markMoved
    rw [hldg]
    split
    · exact ⟨id, rfl, rfl, rfl, rfl⟩
    · refine ⟨fun _ => ?_, rfl, rfl, rfl, rfl⟩
      rw [hldg]
      omega
  obtain ⟨hlt, hvmem, hvdxn, hvsec, hvregs⟩ := hmark
  have hrec := setNext_recorded v (s.ldg.sigNext + 1)
  refine ⟨_, by rw [heq, ← hv], ?_⟩
  have hvnext := setNext_regsBut v (s.ldg.sigNext + 1)
  generalize v.setNext (s.ldg.sigNext + 1) = t at *
  have hledger := hrec.ledger
  have htframe := hrec.frame
  obtain ⟨htsec, htmem, htdxn⟩ : t.sec = v.sec ∧ t.mem = v.mem ∧ t.dxn = v.dxn := by rw [htframe]; exact ⟨rfl, rfl, rfl⟩
  obtain ⟨htnext, htmark⟩ : t.ldg.sigNext = s.ldg.sigNext + 1 ∧ t.ldg.sigMark = v.ldg.sigMark := by rw [hledger]; exact ⟨rfl, rfl⟩
  refine ⟨htnext, fun h => ?_, ?_, ?_, ?_, ?_⟩
  · rw [htmark]
    exact hlt h
  · rw [htsec, hvsec, hepoch]
    exact ⟨hold, hnew⟩
  · exact htmem.trans (hvmem.trans hmem)
  · exact htdxn.trans (hvdxn.trans hdxn)
  · exact (hregs.mono (by simp)).trans ((State.RegsBut.of_regs hvregs _).trans hvnext)

theorem exec_getAttestation {nonce : Bytes} (hserves : s.serves = true) (hleft : s.ldg.sigNext < 2 ^ 40) :
    ∃ t f, exec (.getAttestation via nonce) s = .next (t.answerVia via f) ∧ IndexTaken s t := by
  obtain ⟨c, hc, hv⟩ := vendor_serves (via := via) hserves fun s =>
    if 2 ^ 40 ≤ s.ldg.sigNext then (s, 0xE0, [])
    else
      let (i, s) := s.takeIndex
      let r := s.report0 nonce i
      (s, 0, r ++ slice (Config.xmssMtSign i r) 0 9893 ++ Config.kemEncapsulationKey s.sec.kem)
  obtain ⟨t, ht, htaken⟩ := takeIndex_taken { s with cnt := c }
  have hroom : ¬2 ^ 40 ≤ ({ s with cnt := c } : State).ldg.sigNext := Nat.not_le.2 hleft
  rw [if_neg hroom, ht] at hv
  exact ⟨t, _, congrArg Host.Outcome.next hv, ⟨htaken.next, htaken.mark, htaken.epoch, htaken.mem, htaken.dxn, htaken.regs⟩⟩

/-! ## Slots, fuses and measurements -/

/-- A command that changes the security state and shows it in SEC_STATUS leaves the rest as it was. -/
theorem answered_secStatus_frame (s : State) (c : Cnt) (x : Sec) (f : Bytes) :
    ∃ r o c' n, ({ s with cnt := c, sec := x } : State).secStatus.answerVia via f =
      { s with regs := r, sec := x, out := o, cnt := c', free := n } ∧
    s.RegsBut { s with regs := r, sec := x, out := o, cnt := c', free := n } [R.SEC_STATUS] := by
  obtain ⟨u, hu⟩ : ∃ u : State, u = { s with cnt := c, sec := x } := ⟨_, rfl⟩
  rw [← hu]
  have hregs : s.RegsBut u.secStatus [R.SEC_STATUS] := by
    have hs : u.regs = s.regs := by rw [hu]
    exact (State.RegsBut.of_regs hs _).trans (secStatus_regsBut u)
  have hframe : u.secStatus = { s with regs := u.secStatus.regs, cnt := c, sec := x } := by
    rw [hu]
    rfl
  have hanswer := answerVia_frame u.secStatus via f
  generalize u.secStatus.answerVia via f = v at *
  refine ⟨u.secStatus.regs, v.out, v.cnt, v.free, hanswer.trans ?_, fun o ho => hregs o ho⟩
  rw [hframe]

/-- What a revocation of a slot does: the slot is revoked, or the command is refused with a code. -/
def revoked (slot signer : BitVec 8) (pubkey msg signature : Bytes) (s : State) : State × Nat × Bytes :=
  let after := s.sec.keyRevoked ||| BitVec.ofNat 4 (2 ^ slot.toNat)
  if 3 < slot.toNat then (s, 0x10, [])
  else if s.revocationOk slot.toNat signer.toNat pubkey msg signature = false ∨ s.activeSigner = slot.toNat ∨ after = 0xF then
    (s, 0x1B, [])
  else ({ s with sec.keyRevoked := after }.secStatus, 0, [])

theorem exec_revokeSlot (via : Via) (slot signer : BitVec 8) (pubkey msg signature : Bytes) (s : State) :
    exec (.revokeSlot via slot signer pubkey msg signature) s = .next (s.vendor via (revoked slot signer pubkey msg signature)) := rfl

section
variable {slot signer : BitVec 8} {pubkey msg signature : Bytes}

theorem revoked_of_taken (h : slot.toNat ≤ 3 ∧ s.revocationOk slot.toNat signer.toNat pubkey msg signature = true ∧
    s.activeSigner ≠ slot.toNat ∧ s.sec.keyRevoked ||| BitVec.ofNat 4 (2 ^ slot.toNat) ≠ 0xF) :
    revoked slot signer pubkey msg signature s =
      ({ s with sec.keyRevoked := s.sec.keyRevoked ||| BitVec.ofNat 4 (2 ^ slot.toNat) }.secStatus, 0, []) := by
  obtain ⟨hslot, hok, hsigner, hleft⟩ := h
  refine (if_neg (by omega)).trans (if_neg ?_)
  rintro (hbad | hbad | hbad)
  · exact absurd (hok.symm.trans hbad) (by decide)
  · exact hsigner hbad
  · exact hleft hbad

theorem revoked_of_refused (h : ¬(slot.toNat ≤ 3 ∧ s.revocationOk slot.toNat signer.toNat pubkey msg signature = true ∧
    s.activeSigner ≠ slot.toNat ∧ s.sec.keyRevoked ||| BitVec.ofNat 4 (2 ^ slot.toNat) ≠ 0xF)) :
    ∃ code, revoked slot signer pubkey msg signature s = (s, code, []) := by
  by_cases hslot : 3 < slot.toNat
  · exact ⟨0x10, if_pos hslot⟩
  · refine ⟨0x1B, (if_neg hslot).trans (if_pos ?_)⟩
    by_contra hnot
    simp only [not_or, Bool.not_eq_false] at hnot
    exact h ⟨by omega, hnot⟩

end

/-- Settles O27: `vendor_serves` for what each command does, `takeIndex_taken` for the index. -/
theorem securityCommands : Obligations.SecurityCommands := by
  unfold Obligations.SecurityCommands
  refine ⟨?attest, ?exhausted, ?cert, ?psk, ?pskRange, ?revoke, ?svn, ?extend, ?extendRange⟩
  case attest =>
    intro via nonce s hserves hleft hmark
    obtain ⟨t, f, hexec, htaken⟩ := exec_getAttestation (via := via) (nonce := nonce) hserves hleft
    have hframe := answerVia_frame t via f
    generalize t.answerVia via f = u at *
    have hu : u.ldg = t.ldg ∧ u.sec = t.sec ∧ u.mem = t.mem ∧ u.dxn = t.dxn ∧ u.regs = t.regs := by
      rw [hframe]
      exact ⟨rfl, rfl, rfl, rfl, rfl⟩
    obtain ⟨hldg, hsec, hmem, hdxn, hregs⟩ := hu
    refine ⟨u, hexec, ?_⟩
    dsimp only
    rw [hldg, hsec, hmem, hdxn]
    exact ⟨htaken.next, htaken.mark hmark, htaken.epoch.1, htaken.epoch.2, htaken.mem, htaken.dxn,
      htaken.regs.trans (.of_regs hregs _)⟩
  case exhausted =>
    intro via nonce s hserves hnone
    refine congrArg Host.Outcome.next (vendor_of hserves (if_pos ?_))
    rw [requestVia_frame]
    exact hnone
  case cert => exact fun via s hserves => congrArg _ (vendor_of hserves rfl)
  case psk =>
    intro via slot ciphertext s hserves hslot hlen hwf
    obtain ⟨c, hc⟩ : ∃ c : Cnt, s.requestVia via = { s with cnt := c } := ⟨_, requestVia_frame s via⟩
    set k := Config.shake256 (pskLabel ++ leBytes 32 (Config.kemDecapsulate s.sec.kem ciphertext).toNat ++ leBytes 8 s.identity.toNat) 48
    obtain ⟨r, o, c', n, hframe, hregs⟩ := answered_secStatus_frame (via := via) s c
      { s.sec with psk := sset none s.sec.psk slot.toNat (some k) } (leBytes 1 0 ++ [])
    refine ⟨_, congrArg Host.Outcome.next ((vendor_of hserves ?_).trans hframe), sget_sset_self (e := none) slot.toNat (some k) hwf,
      fun j hj => sget_sset_of_ne none none s.sec.psk (some k) hj, hregs, rfl⟩
    rw [hc]
    exact if_neg (by omega)
  case pskRange =>
    exact fun via slot ciphertext s hserves hrange => congrArg _ (vendor_of hserves (if_pos hrange))
  case revoke =>
    intro via slot signer pubkey msg signature s hserves
    obtain ⟨c, hc⟩ : ∃ c : Cnt, s.requestVia via = { s with cnt := c } := ⟨_, requestVia_frame s via⟩
    set after := s.sec.keyRevoked ||| BitVec.ofNat 4 (2 ^ slot.toNat) with hafter
    rw [exec_revokeSlot]
    by_cases htaken : slot.toNat ≤ 3 ∧ s.revocationOk slot.toNat signer.toNat pubkey msg signature = true ∧
        s.activeSigner ≠ slot.toNat ∧ after ≠ 0xF
    · obtain ⟨r, o, c', n, hframe, hregs⟩ := answered_secStatus_frame (via := via) s c
        { s.sec with keyRevoked := after } (leBytes 1 0 ++ [])
      have hk : revoked slot signer pubkey msg signature (s.requestVia via) =
          (({ s with cnt := c, sec := { s.sec with keyRevoked := after } } : State).secStatus, 0, []) := by
        rw [hc]
        exact revoked_of_taken htaken
      exact ⟨_, congrArg Host.Outcome.next ((vendor_of hserves hk).trans hframe), (if_pos htaken).symm, hregs, rfl⟩
    · obtain ⟨code, hk⟩ : ∃ code, revoked slot signer pubkey msg signature (s.requestVia via) = ({ s with cnt := c }, code, []) := by
        rw [hc]
        exact revoked_of_refused htaken
      have hframe := answerVia_frame { s with cnt := c } via (leBytes 1 code ++ [])
      rw [vendor_of hserves hk]
      generalize ({ s with cnt := c } : State).answerVia via (leBytes 1 code ++ []) = u at *
      have hsec : u.sec = s.sec := by rw [hframe]
      have hregs : u.regs = s.regs := by rw [hframe]
      refine ⟨u, rfl, by rw [if_neg htaken, hsec], .of_regs hregs _, ?_⟩
      rw [hsec, hregs]
      exact hframe
  case svn =>
    intro via force s hserves hrec hforce
    obtain ⟨c, hc⟩ : ∃ c : Cnt, s.requestVia via = { s with cnt := c } := ⟨_, requestVia_frame s via⟩
    obtain ⟨r, o, c', n, hframe, hregs⟩ := answered_secStatus_frame (via := via) s c
      { s.sec with svnFuse := max s.sec.svnFuse (s.fld R.SEC_FW F.SEC_FW_SVN) } (leBytes 1 0 ++ [])
    refine ⟨_, congrArg Host.Outcome.next ((vendor_of hserves ?_).trans hframe), rfl, hregs, rfl⟩
    rw [hc]
    refine if_neg ?_
    change ¬(s.recoveryRuns = true ∨ force = false ∧ _)
    simp [hrec, hforce]
  case extend =>
    exact fun via reg digest s hserves hlow hhigh hlen => congrArg _ (vendor_of hserves (if_neg (by omega)))
  case extendRange =>
    exact fun via reg digest s hserves hrange => congrArg _ (vendor_of hserves (if_pos hrange))

end Sys2Proof.Proofs
end

section
/-! PROOF. Sessions and IDE keys (spec/15, spec/03). -/

namespace Sys2Proof.Proofs
open Sys2Proof Sys2Proof.Machine

variable {s : State} {i3c : Bool}

/-- An SPDM request at a Wellhead that serves. -/
theorem spdm_serves (h : s.serves = true) (k : State → State × Bytes) :
    s.spdm i3c k = (k (s.count (ctrHif 10))).1.answerMctp i3c (k (s.count (ctrHif 10))).2 := by
  have hu : (s.count (ctrHif 10)).serves = true := h
  unfold State.spdm
  extract_lets u
  rw [if_pos hu]

theorem exec_pskExchange {slot version : BitVec 8} {msg : Bytes} {k : BitVec 384} (hserves : s.serves = true)
    (hslot : sget none s.sec.psk slot.toNat = some k) (hversion : version = 0x12 ∨ version = 0x13) :
    exec (.pskExchange i3c slot version msg) s = .next (if Config.pskAccepts k msg = true then
        { (s.count (ctrHif 10)) with sec := { s.sec with sessions := s.sec.sessions ++ [(s.sec.nextSession, slot.toNat)],
                                                         nextSession := s.sec.nextSession + 1 } }.answerMctp i3c (Config.pskResponse k msg)
      else (s.count (ctrHif 10)).answerMctp i3c spdmError) := by
  have hslot' : sget none (s.count (ctrHif 10)).sec.psk slot.toNat = some k := hslot
  refine (congrArg Host.Outcome.next (spdm_serves hserves _)).trans ?_
  rw [hslot']
  dsimp only
  by_cases haccepts : Config.pskAccepts k msg = true
  · rw [if_pos ⟨hversion, haccepts⟩, if_pos haccepts]
    rfl
  · rw [if_neg fun h => haccepts h.2, if_neg haccepts]

theorem exec_getMeasurements {index : BitVec 8} (hserves : s.serves = true) (hlow : 1 ≤ index.toNat) (hhigh : index.toNat ≤ 8) :
    exec (.getMeasurements i3c index) s = .next ((s.count (ctrHif 10)).answerMctp i3c (s.measure (index.toNat - 1))) := by
  have hzero : index ≠ 0 := by
    rintro rfl
    exact absurd hlow (by decide)
  have hall : index ≠ 0xFF := by
    rintro rfl
    exact absurd hhigh (by decide)
  refine (congrArg Host.Outcome.next (spdm_serves hserves _)).trans ?_
  rw [if_neg hzero, if_neg hall, if_pos hhigh]
  rfl

/-! ## IDE keys -/

/-- A key management request within a session. -/
theorem ideKm_session {session : Nat} {ok : State → Bool} (hserves : s.serves = true) (hsession : s.sessionOk session = true)
    (hok : ok (s.count (ctrHif 10)) = true) (k : State → State) :
    s.ideKm i3c session ok k = (k (s.count (ctrHif 10))).answerMctp i3c (leBytes 1 0) := by
  have hgo : ((s.count (ctrHif 10)).sessionOk session && ok (s.count (ctrHif 10))) = true := by
    rw [hok, Bool.and_true]
    exact hsession
  refine (spdm_serves hserves _).trans ?_
  rw [if_pos hgo]

theorem ideKm_no_session {session : Nat} (hserves : s.serves = true) (hsession : s.sessionOk session = false)
    (ok : State → Bool) (k : State → State) : s.ideKm i3c session ok k = (s.count (ctrHif 10)).answerMctp i3c (leBytes 1 1) := by
  have hgo : ¬((s.count (ctrHif 10)).sessionOk session && ok (s.count (ctrHif 10))) = true := by
    rw [show (s.count (ctrHif 10)).sessionOk session = false from hsession]
    simp
  refine (spdm_serves hserves _).trans ?_
  rw [if_neg hgo]

/-- IDE_ACTIVE reads 1 exactly where every direction has an active set. -/
theorem ideBit_shows (hwf : s.regsWf = true) : s.ideBit.flag R.HIF_LINK_STATUS F.HIF_LINK_STATUS_IDE_ACTIVE =
    (List.range 6).all fun d => sget 0 s.sec.ideActive d != 0 := by
  change (s.setFld R.HIF_LINK_STATUS F.HIF_LINK_STATUS_IDE_ACTIVE (b2n ((List.range 6).all fun d => sget 0 s.sec.ideActive d != 0))).flag
    _ _ = _
  rw [State.flag, s.fld_setFld_self _ _ _ hwf (by decide)]
  cases (List.range 6).all fun d => sget 0 s.sec.ideActive d != 0 <;> rfl

theorem ideBit_regsBut (s : State) : s.RegsBut s.ideBit [R.HIF_LINK_STATUS] :=
  (State.setFld_regsBut List.mem_cons_self _ _).trans (.of_regs rfl _)

theorem ideBit_frame (s : State) : s.ideBit.sec = s.sec ∧ s.ideBit.mem = s.mem ∧ s.ideBit.dxn = s.dxn := ⟨rfl, rfl, rfl⟩

/-- The state without a set: its key is gone, and its direction has no active set where it was that set. -/
def setStopped (s : State) (d set : Nat) : State :=
  { s with sec.ideKeys := sdel s.sec.ideKeys (2 * d + set)
           sec.ideActive := if sget 0 s.sec.ideActive d = set + 1 then sset 0 s.sec.ideActive d 0 else s.sec.ideActive }

theorem setStopped_gone {d set : Nat} (hkeys : swf (fun _ => []) s.sec.ideKeys = true) (hactive : swf (fun _ => 0) s.sec.ideActive = true) :
    sget [] (setStopped s d set).sec.ideKeys (2 * d + set) = [] ∧ sget 0 (setStopped s d set).sec.ideActive d ≠ set + 1 ∧
    ∀ e, e ≠ d → sget 0 (setStopped s d set).sec.ideActive e = sget 0 s.sec.ideActive e := by
  refine ⟨sget_sdel_self _ _ hkeys, ?_, fun e he => ?_⟩
  · change sget 0 (if sget 0 s.sec.ideActive d = set + 1 then sset 0 s.sec.ideActive d 0 else s.sec.ideActive) d ≠ set + 1
    split
    · rw [sget_sset_self _ _ hactive]
      omega
    · assumption
  · change sget 0 (if sget 0 s.sec.ideActive d = set + 1 then sset 0 s.sec.ideActive d 0 else s.sec.ideActive) e = _
    split
    · exact sget_sset_of_ne _ _ _ _ he
    · rfl

theorem exec_kSetStop {session : Nat} {protocol : Fin 3} {tx : Bool} {set : Fin 2} (hserves : s.serves = true)
    (hsession : s.sessionOk session = true) : exec (.kSetStop i3c session protocol tx set) s =
      .next ((setStopped (s.count (ctrHif 10)) (ideDir protocol tx) set).ideBit.answerMctp i3c (leBytes 1 0)) :=
  congrArg Host.Outcome.next (ideKm_session hserves hsession rfl _)

/-- Settles O28: `spdm_serves` and `ideKm_session` say how requests are answered, `setStopped_gone` what a stop leaves. -/
theorem spdmAndIdeKeys : Obligations.SpdmAndIdeKeys := by
  unfold Obligations.SpdmAndIdeKeys
  refine ⟨?psk, ?measurements, ?keyProg, ?setGo, ?setStop, fun s hwf => ⟨ideBit_shows hwf, ideBit_regsBut s⟩, ?noSession⟩
  case psk => exact fun i3c slot version msg k s hserves hslot hversion => exec_pskExchange hserves hslot hversion
  case measurements => exact fun i3c index s hserves hlow hhigh => exec_getMeasurements hserves hlow hhigh
  case keyProg =>
    intro i3c session protocol tx set key s hserves hsession hidle
    refine congrArg Host.Outcome.next (ideKm_session hserves hsession ?_ _)
    exact bne_iff_ne.2 hidle
  case setGo =>
    intro i3c session protocol tx set s hserves hsession hkey
    refine congrArg Host.Outcome.next (ideKm_session hserves hsession ?_ _)
    exact bne_iff_ne.2 hkey
  case setStop =>
    intro i3c session protocol tx set s hserves hsession hkeys hactive
    obtain ⟨u, hu⟩ : ∃ u, u = s.count (ctrHif 10) := ⟨_, rfl⟩
    have husec : u.sec = s.sec := by rw [hu]; rfl
    have hexec := exec_kSetStop (i3c := i3c) (protocol := protocol) (tx := tx) (set := set) hserves hsession
    rw [← hu] at hexec
    obtain ⟨hgone, hidle, hother⟩ := setStopped_gone (s := u) (d := ideDir protocol tx) (set := set) (husec ▸ hkeys) (husec ▸ hactive)
    have hregs : (setStopped u (ideDir protocol tx) set).regs = s.regs := by rw [hu]; rfl
    have hmem : (setStopped u (ideDir protocol tx) set).mem = s.mem ∧ (setStopped u (ideDir protocol tx) set).dxn = s.dxn := by
      rw [hu]
      exact ⟨rfl, rfl⟩
    generalize setStopped u (ideDir protocol tx) set = v at *
    refine ⟨_, hexec, hgone, hidle, fun e he => (hother e he).trans (by rw [husec]), ?_, hmem.1, hmem.2⟩
    exact (State.RegsBut.of_regs hregs _).trans (ideBit_regsBut v)
  case noSession =>
    exact fun i3c session protocol tx set key s hserves hsession =>
      congrArg Host.Outcome.next (ideKm_no_session hserves hsession _ _)

end Sys2Proof.Proofs
end

section
/-! SUPPORT. Integers in words (spec/05): reading bits as a signed number is the balanced remainder, and what is cut, saturated or
sign-extended is read back by its laws. -/

namespace Sys2Proof.Machine

theorem natCast_wrapInt (w : Nat) (v : Int) : (wrapInt w v : Int) = v % 2 ^ w :=
  Int.toNat_of_nonneg (Int.emod_nonneg _ (by positivity))

theorem wrapInt_lt (w : Nat) (v : Int) : wrapInt w v < 2 ^ w := by
  have h := Int.emod_lt_of_pos v (show (0 : Int) < 2 ^ w by positivity)
  rw [← natCast_wrapInt] at h
  exact_mod_cast h

theorem signedOf_eq_bmod {w : Nat} (hw : 0 < w) (n : Nat) : signedOf w n = Int.bmod n (2 ^ w) := by
  obtain ⟨k, rfl⟩ := Nat.exists_eq_succ_of_ne_zero hw.ne'
  have hhalf : 2 ^ (k + 1) = 2 * 2 ^ k := by rw [Nat.pow_succ, Nat.mul_comm]
  unfold signedOf
  rw [Int.bmod_def]
  simp only [Nat.succ_eq_add_one, Nat.add_sub_cancel]
  have hcast : ((n % 2 ^ (k + 1) : Nat) : Int) = (n : Int) % 2 ^ (k + 1) := by push_cast; rfl
  have hcastm : ((2 ^ (k + 1) : Nat) : Int) = 2 ^ (k + 1) := by push_cast; rfl
  rw [hcastm, ← hcast]
  have hiff : ((n % 2 ^ (k + 1) : Nat) : Int) < (2 ^ (k + 1) + 1) / 2 ↔ n % 2 ^ (k + 1) < 2 ^ k := by
    have hi : (2 ^ (k + 1) : Int) = 2 * 2 ^ k := by rw [pow_succ, mul_comm]
    have hk : ((2 ^ k : Nat) : Int) = 2 ^ k := by push_cast; rfl
    rw [hi]
    omega
  by_cases h : n % 2 ^ (k + 1) < 2 ^ k
  · rw [if_pos h, if_pos (hiff.2 h)]
  · rw [if_neg h, if_neg fun hl => h (hiff.1 hl)]

theorem signedOf_wrapInt {w : Nat} (hw : 0 < w) (v : Int) : signedOf w (wrapInt w v) = Int.bmod v (2 ^ w) := by
  have hm : ((2 ^ w : Nat) : Int) = 2 ^ w := by push_cast; rfl
  rw [signedOf_eq_bmod hw, natCast_wrapInt, ← hm, Int.emod_bmod]

/-- A number in the range of signed words is its own balanced remainder. -/
theorem bmod_of_signed {w : Nat} (hw : 0 < w) {v : Int} (hlow : -2 ^ (w - 1) ≤ v) (hhigh : v < 2 ^ (w - 1)) :
    Int.bmod v (2 ^ w) = v := by
  obtain ⟨k, rfl⟩ := Nat.exists_eq_succ_of_ne_zero hw.ne'
  have hk : ((2 ^ k.succ : Nat) : Int) = 2 * 2 ^ k := by push_cast; rw [pow_succ, mul_comm]
  simp only [Nat.succ_eq_add_one, Nat.add_sub_cancel] at hlow hhigh
  refine Int.bmod_eq_of_le ?_ ?_ <;> rw [hk] <;> omega

theorem signedOf_range {w : Nat} (hw : 0 < w) (n : Nat) : -2 ^ (w - 1) ≤ signedOf w n ∧ signedOf w n < 2 ^ (w - 1) := by
  obtain ⟨k, rfl⟩ := Nat.exists_eq_succ_of_ne_zero hw.ne'
  have hk : ((2 ^ (k + 1) : Nat) : Int) = 2 * 2 ^ k := by push_cast; rw [pow_succ, mul_comm]
  rw [signedOf_eq_bmod hw]
  have hlow := Int.le_bmod (x := (n : Int)) (m := 2 ^ (k + 1)) (by positivity)
  have hhigh := Int.bmod_lt (x := (n : Int)) (m := 2 ^ (k + 1)) (by positivity)
  simp only [Nat.succ_eq_add_one, Nat.add_sub_cancel]
  rw [hk] at hlow hhigh
  omega

/-! ## The integer types of scalar instructions -/

theorem tyBits_pos (t : Nat) : 0 < tyBits t ∧ tyBits t ≤ 64 := by
  unfold tyBits
  split
  · decide
  · split <;> decide

/-- A scalar's word holds its value, sign-extended. -/
theorem scPut_toInt (t n : Nat) : (scPut t n).toInt = signedOf (tyBits t) n := by
  obtain ⟨hpos, hle⟩ := tyBits_pos t
  obtain ⟨hlow, hhigh⟩ := signedOf_range hpos n
  have hpow : (2 : Int) ^ (tyBits t - 1) ≤ 2 ^ (64 - 1) := pow_le_pow_right₀ (by decide) (by omega)
  rw [scPut, BitVec.toInt_eq_toNat_bmod, BitVec.toNat_ofNat, Nat.mod_eq_of_lt (wrapInt_lt ..), ← signedOf_eq_bmod (by decide),
    signedOf_wrapInt (by decide)]
  exact bmod_of_signed (by decide) (by omega) (by omega)

theorem scInt_eq_bmod (t : Nat) (v : Word) : scInt t v = Int.bmod v.toInt (2 ^ tyBits t) := by
  obtain ⟨hpos, hle⟩ := tyBits_pos t
  have hdvd : 2 ^ tyBits t ∣ 2 ^ 64 := Nat.pow_dvd_pow 2 hle
  rw [scInt, signedOf_eq_bmod hpos, BitVec.toInt_eq_toNat_bmod, Int.bmod_bmod_of_dvd hdvd]

theorem scInt_scPut (t n : Nat) : scInt t (scPut t n) = signedOf (tyBits t) n := by
  obtain ⟨hpos, -⟩ := tyBits_pos t
  rw [scInt_eq_bmod, scPut_toInt, signedOf_eq_bmod hpos, Int.bmod_bmod]

theorem scNat_eq (t : Nat) (v : Word) : (scNat t v : Int) = v.toInt % 2 ^ tyBits t := by
  obtain ⟨-, hle⟩ := tyBits_pos t
  have hdvd : ((2 ^ tyBits t : Nat) : Int) ∣ ((2 ^ 64 : Nat) : Int) := by exact_mod_cast Nat.pow_dvd_pow 2 hle
  have hcast : ((2 ^ tyBits t : Nat) : Int) = 2 ^ tyBits t := by push_cast; rfl
  rw [scNat, BitVec.toInt_eq_toNat_bmod, ← hcast, ← Int.emod_emod_of_dvd _ hdvd, Int.bmod_emod, Int.emod_emod_of_dvd _ hdvd]
  push_cast
  rfl

/-- A scalar's word, read at its width, is the bits that were put there. -/
theorem scNat_scPut {t n : Nat} (hn : n < 2 ^ tyBits t) : scNat t (scPut t n) = n := by
  obtain ⟨hpos, -⟩ := tyBits_pos t
  have hcast : ((2 ^ tyBits t : Nat) : Int) = 2 ^ tyBits t := by push_cast; rfl
  have h : (scNat t (scPut t n) : Int) = n := by
    rw [scNat_eq, scPut_toInt, signedOf_eq_bmod hpos, ← hcast, Int.bmod_emod]
    exact_mod_cast Nat.mod_eq_of_lt hn
  exact_mod_cast h

theorem scNat_lt (t : Nat) (v : Word) : scNat t v < 2 ^ tyBits t := Nat.mod_lt _ (by positivity)

theorem scNat_shl (t : Nat) (v : Word) (n : Nat) : scNat t (shl t v n) = scNat t v * 2 ^ (n % tyBits t) % 2 ^ tyBits t :=
  scNat_scPut (Nat.mod_lt _ (by positivity))

theorem scNat_shr (t : Nat) (v : Word) (n : Nat) : scNat t (shr t v n) = scNat t v / 2 ^ (n % tyBits t) :=
  scNat_scPut ((Nat.div_le_self ..).trans_lt (scNat_lt t v))

/-- An arithmetic right shift is the quotient rounded down. -/
theorem scInt_sra (t : Nat) (v : Word) (n : Nat) : scInt t (sra t v n) = scInt t v / 2 ^ (n % tyBits t) := by
  obtain ⟨hpos, -⟩ := tyBits_pos t
  obtain ⟨hlow, hhigh⟩ := signedOf_range hpos v.toNat
  have hd : (0 : Int) < 2 ^ (n % tyBits t) := by positivity
  have hone : (1 : Int) ≤ 2 ^ (n % tyBits t) := hd
  rw [sra, scInt_scPut, signedOf_wrapInt hpos]
  refine bmod_of_signed hpos ?_ ?_
  · refine (Int.le_ediv_iff_mul_le hd).2 ?_
    have hp : (0 : Int) < 2 ^ (tyBits t - 1) := by positivity
    have := mul_le_mul_of_nonneg_left hone hp.le
    change _ ≤ signedOf (tyBits t) v.toNat
    linarith
  · refine (Int.ediv_lt_iff_lt_mul hd).2 ?_
    have hp : (0 : Int) < 2 ^ (tyBits t - 1) := by positivity
    have := mul_le_mul_of_nonneg_left hone hp.le
    change signedOf (tyBits t) v.toNat < _
    linarith

/-! ## Cut and saturated results -/

theorem signedOf_fitInt_sat {w : Nat} (hw : 0 < w) (v : Int) :
    signedOf w (fitInt w true v) = max (-(2 ^ (w - 1))) (min (2 ^ (w - 1) - 1) v) := by
  have hp : (0 : Int) < 2 ^ (w - 1) := by positivity
  have hfit : fitInt w true v = wrapInt w (satInt w v) := rfl
  rw [hfit, signedOf_wrapInt hw]
  unfold satInt
  exact bmod_of_signed hw (le_max_left ..) (by omega)

theorem signedOf_fitInt_cut {w : Nat} (hw : 0 < w) (v : Int) : (signedOf w (fitInt w false v) - v) % 2 ^ w = 0 := by
  have hfit : fitInt w false v = wrapInt w v := rfl
  have hcast : ((2 ^ w : Nat) : Int) = 2 ^ w := by push_cast; rfl
  rw [hfit, signedOf_wrapInt hw, ← hcast]
  exact Int.emod_eq_zero_of_dvd Int.dvd_bmod_sub_self

end Sys2Proof.Machine
end

section
/-! PROOF. Scalar instructions (spec/05 Tables 5.2 and 5.3): each changes registers, predicates and flags of its context alone. -/

namespace Sys2Proof.Proofs
open Sys2Proof Sys2Proof.Machine

/-! ## Results of a context -/

/-- Two states of a context with the same status and code. -/
def SameRun (x y : Context) : Prop := y.status = x.status ∧ y.code = x.code

variable {x y : Context}

theorem SameRun.refl (x : Context) : SameRun x x := ⟨rfl, rfl⟩

theorem SameRun.setReg (h : SameRun x y) (d : Nat) (v : Word) : SameRun x (y.setReg d v) := by
  unfold Context.setReg
  split
  · exact h
  · exact h

theorem SameRun.setPred (h : SameRun x y) (d : Nat) (b : Bool) : SameRun x (y.setPred d b) := h

theorem SameRun.addFlags (h : SameRun x y) (f : Flags) : SameRun x (y.addFlags f) := h

theorem SameRun.putInt (h : SameRun x y) (d t : Nat) (sat : Bool) (v : Int) : SameRun x (y.putInt d t sat v) := h.setReg ..

theorem SameRun.putFp (h : SameRun x y) (d t : Nat) (r : Fp × Flags) : SameRun x (y.putFp d t r) := (h.setReg ..).addFlags _

theorem SameRun.arith (h : SameRun x y) (w : Nat) (fi : Int → Int → Int) (ff : Fp → Fp → Fp × Flags) : SameRun x (y.arith w fi ff) := by
  unfold Context.arith
  extract_lets t
  split
  · exact h.putInt ..
  · exact h.putFp ..

theorem SameRun.convert (h : SameRun x y) (w : Nat) : SameRun x (y.convert w) := by
  unfold Context.convert
  extract_lets t u v
  split
  · split
    · exact h.putInt ..
    · exact h.putFp ..
  · split
    · exact (h.setReg ..).addFlags _
    · exact h.putFp ..

theorem SameRun.ite {z : Context} {c : Prop} [Decidable c] (hy : SameRun x y) (hz : SameRun x z) : SameRun x (if c then y else z) := by
  split
  · exact hy
  · exact hz

/-! ## Issue -/

section
variable {s : State} {c : Ctx} {w : Nat}

/-- A scalar instruction that can run leaves its context with its result, at the next index. -/
theorem scalar_steps (h : s.Runs c w [] false) {f : Context → Context} (hf : SameRun (s.ctx c) (f (s.ctx c))) :
    s.Steps c (s.setCtx c (f (s.ctx c))) (s.scalar c w f) := State.issue_sets h rfl hf.1 hf.2

theorem divide_steps (h : s.Runs c w [] false) (fi : Int → Int → Int) (ff : Fp → Fp → Fp × Flags)
    (hdiv : tyIsInt (wT w) = false ∨ scNat (wT w) ((s.ctx c).reg (wB w)) ≠ 0) :
    s.Steps c (s.setCtx c ((s.ctx c).arith w fi ff)) (s.divide c w fi ff) := by
  obtain ⟨hstatus, hcode⟩ := (SameRun.refl (s.ctx c)).arith w fi ff
  refine State.issue_sets h (if_neg ?_) hstatus hcode
  rcases hdiv with hdiv | hdiv <;> simp [hdiv]

theorem divide_raises (h : s.Runs c w [] false) (fi : Int → Int → Int) (ff : Fp → Fp → Fp × Flags) (hint : tyIsInt (wT w) = true)
    (hzero : scNat (wT w) ((s.ctx c).reg (wB w)) = 0) : s.Raises c 0xD 0 (s.divide c w fi ff) :=
  State.issue_fault h.1 (if_pos ⟨hint, hzero⟩)

end

/-! ## What the results are -/

theorem arith_int {w : Nat} (h : tyIsInt (wT w) = true) (x : Context) (fi : Int → Int → Int) (ff : Fp → Fp → Fp × Flags) :
    x.arith w fi ff = x.setReg (wD w) (scPut (wT w) (fitInt (tyBits (wT w)) (wSAT w)
      (fi (scInt (wT w) (x.reg (wA w))) (scInt (wT w) (x.reg (wB w)))))) := if_pos h

theorem arith_fp {w : Nat} (h : tyIsInt (wT w) = false) (x : Context) (fi : Int → Int → Int) (ff : Fp → Fp → Fp × Flags) :
    x.arith w fi ff = x.putFp (wD w) (wT w) (ff (scFp (wT w) (x.reg (wA w))) (scFp (wT w) (x.reg (wB w)))) :=
  if_neg (by simp [h])

theorem setReg_g (x : Context) (d : Nat) (v : Word) : x.setReg d v = { x with g := (x.setReg d v).g } := by
  unfold Context.setReg
  split <;> rfl

/-- A register reads as it was set; g0 reads 0 whatever was written to it. -/
theorem reg_setReg (h : swf (fun _ => 0) x.g = true) (d : Nat) (v : Word) (i : Nat) :
    (x.setReg d v).reg i = if i = d ∧ d ≠ 0 then v else x.reg i := by
  unfold Context.setReg
  by_cases hd : d = 0
  · rw [if_pos hd, if_neg fun hi => hi.2 hd]
  · rw [if_neg hd]
    unfold Context.reg
    by_cases hid : i = d
    · subst hid
      rw [if_neg hd, if_pos ⟨rfl, hd⟩]
      exact sget_sset_self _ _ h
    · have hcond : ¬(i = d ∧ d ≠ 0) := fun hi => hid hi.1
      rw [if_neg hcond]
      by_cases hi : i = 0
      · rw [if_pos hi, if_pos hi]
      · rw [if_neg hi, if_neg hi]
        exact sget_sset_of_ne 0 0 x.g v hid

theorem addFlags_eq (x : Context) (f : Flags) : x.addFlags f = { x with fflags := x.fflags ||| f } := rfl

theorem setReg_fflags (x : Context) (d : Nat) (v : Word) : (x.setReg d v).fflags = x.fflags := by rw [setReg_g]

/-- Settles O29: `scalar_steps` and `divide_steps` for the instructions; the results are those of `arith_int` and `arith_fp`, and the
laws of words say what they hold. -/
theorem scalarInstructions : Obligations.ScalarInstructions := by
  unfold Obligations.ScalarInstructions
  exact ⟨
    fun c body s w hw h => ⟨_, rfl, hw ▸ scalar_steps (hw ▸ h) ((SameRun.refl _).arith ..)⟩,
    fun c body s w hw h => ⟨_, rfl, hw ▸ scalar_steps (hw ▸ h) ((SameRun.refl _).arith ..)⟩,
    fun c body s w hw h => ⟨_, rfl, hw ▸ scalar_steps (hw ▸ h) ((SameRun.refl _).arith ..)⟩,
    fun c body s w hw h => ⟨_, rfl, hw ▸ scalar_steps (hw ▸ h) ((SameRun.refl _).arith ..)⟩,
    fun c body s w hw h => ⟨_, rfl, hw ▸ scalar_steps (hw ▸ h) ((SameRun.refl _).arith ..)⟩,
    fun c body s w hw h hdiv => ⟨_, rfl, hw ▸ divide_steps (hw ▸ h) _ _ (hw ▸ hdiv)⟩,
    fun c body s w hw h hint hzero => ⟨_, rfl, hw ▸ divide_raises (hw ▸ h) _ _ (hw ▸ hint) (hw ▸ hzero)⟩,
    fun c body s w hw h hdiv => ⟨_, rfl, hw ▸ divide_steps (hw ▸ h) _ _ (hw ▸ hdiv)⟩,
    fun c body s w hw h hint hzero => ⟨_, rfl, hw ▸ divide_raises (hw ▸ h) _ _ (hw ▸ hint) (hw ▸ hzero)⟩,
    fun c body s w hw h => ⟨_, rfl, hw ▸ scalar_steps (hw ▸ h) ((SameRun.refl _).putInt ..)⟩,
    fun c body s w hw h => ⟨_, rfl, hw ▸ scalar_steps (hw ▸ h) ((SameRun.refl _).setReg ..)⟩,
    fun c body s w hw h => ⟨_, rfl, hw ▸ scalar_steps (hw ▸ h) ((SameRun.refl _).setReg ..)⟩,
    fun c body s w hw h => ⟨_, rfl, hw ▸ scalar_steps (hw ▸ h) ((SameRun.refl _).setReg ..)⟩,
    fun c body s w hw h => ⟨_, rfl, hw ▸ scalar_steps (hw ▸ h) ((SameRun.refl _).setReg ..)⟩,
    fun c body s w hw h => ⟨_, rfl, hw ▸ scalar_steps (hw ▸ h) ((SameRun.refl _).setReg ..)⟩,
    fun c body s w hw h => ⟨_, rfl, hw ▸ scalar_steps (hw ▸ h) ((SameRun.refl _).setReg ..)⟩,
    fun c body s w hw h => ⟨_, rfl, hw ▸ scalar_steps (hw ▸ h) ((SameRun.refl _).putFp ..)⟩,
    fun c body s w hw h => ⟨_, rfl, hw ▸ scalar_steps (hw ▸ h) (((SameRun.refl _).setPred ..).addFlags _)⟩,
    fun c body s w hw h => ⟨_, rfl, hw ▸ scalar_steps (hw ▸ h) ((SameRun.refl _).setReg ..)⟩,
    fun c body s w hw h => ⟨_, rfl, hw ▸ scalar_steps (hw ▸ h) ((SameRun.refl _).convert _)⟩,
    fun c body s w hw h => ⟨_, rfl, hw ▸ scalar_steps (hw ▸ h) ((SameRun.refl _).setReg ..)⟩,
    fun c body s w hw h => ⟨_, rfl, hw ▸ scalar_steps (hw ▸ h) ((SameRun.refl _).setReg ..)⟩,
    fun c body s w hw h => ⟨_, rfl, hw ▸ scalar_steps (hw ▸ h) ((SameRun.refl _).putInt ..)⟩,
    fun c body s w hw h => ⟨_, rfl, hw ▸ scalar_steps (hw ▸ h) ((SameRun.refl _).setReg ..)⟩,
    fun c body s w hw h => ⟨_, rfl, hw ▸ scalar_steps (hw ▸ h) ((SameRun.refl _).setReg ..)⟩,
    fun c body s w hw h => ⟨_, rfl, hw ▸ scalar_steps (hw ▸ h) ((SameRun.refl _).setReg ..)⟩,
    fun c body s w hw h => ⟨_, rfl, hw ▸ scalar_steps (hw ▸ h) ((SameRun.refl _).setReg ..)⟩,
    fun c body s w hw h => ⟨_, rfl, hw ▸ scalar_steps (hw ▸ h) ((SameRun.refl _).setReg ..)⟩,
    fun c body s w hw h => ⟨_, rfl, hw ▸ scalar_steps (hw ▸ h) ((SameRun.refl _).setReg ..)⟩,
    fun c body s w hw h => ⟨_, rfl, hw ▸ scalar_steps (hw ▸ h) ((SameRun.refl _).setPred ..)⟩,
    fun c body s w hw h => ⟨_, rfl, hw ▸ scalar_steps (hw ▸ h) ((SameRun.refl _).setPred ..)⟩,
    fun c body s w hw h => ⟨_, rfl, hw ▸ scalar_steps (hw ▸ h) (.ite ((SameRun.refl _).setReg ..) ((SameRun.refl _).setPred ..))⟩,
    fun x w fi ff h => arith_int h x fi ff,
    fun x w fi ff h => by
      rw [arith_fp h, Context.putFp]
      dsimp only
      rw [addFlags_eq, setReg_fflags],
    fun x d v h => ⟨reg_setReg h d v, setReg_g x d v⟩,
    fun bits v hbits => ⟨signedOf_fitInt_sat hbits v, signedOf_fitInt_cut hbits v, wrapInt_lt ..⟩,
    fun t n _ _ => ⟨scInt_scPut t n, scPut_toInt t n⟩,
    fun t v n _ => ⟨scNat_shl t v n, scNat_shr t v n, scInt_sra t v n⟩⟩

end Sys2Proof.Proofs
end

section
/-! PROOF. Vector instructions (spec/05 Table 5.4): each writes one v register of its tenon, element by element, or a g register. -/

namespace Sys2Proof.Proofs
open Sys2Proof Sys2Proof.Machine

/-! ## Elements of a register -/

/-- Numbers of `b` bits one after the other, the first lowest. -/
def packed (b : Nat) (l : List Nat) : Nat := l.foldr (fun x a => a * 2 ^ b + x % 2 ^ b) 0

theorem packed_lt (b : Nat) (l : List Nat) : packed b l < 2 ^ (b * l.length) := by
  induction l with
  | nil => simp [packed]
  | cons x t ih =>
    have hx : x % 2 ^ b < 2 ^ b := Nat.mod_lt _ (by positivity)
    have hstep : packed b (x :: t) = packed b t * 2 ^ b + x % 2 ^ b := rfl
    rw [hstep, List.length_cons, Nat.mul_succ, pow_add]
    calc packed b t * 2 ^ b + x % 2 ^ b
      _ < packed b t * 2 ^ b + 2 ^ b := by omega
      _ = (packed b t + 1) * 2 ^ b := by ring
      _ ≤ 2 ^ (b * t.length) * 2 ^ b := Nat.mul_le_mul_right _ ih

/-- Each number reads back, cut to its bits. -/
theorem packed_digit (b : Nat) (l : List Nat) {i : Nat} (hi : i < l.length) : packed b l / 2 ^ (b * i) % 2 ^ b = l[i] % 2 ^ b := by
  induction l generalizing i with
  | nil => simp at hi
  | cons x t ih =>
    have hb : 0 < 2 ^ b := by positivity
    have hstep : packed b (x :: t) = packed b t * 2 ^ b + x % 2 ^ b := rfl
    cases i with
    | zero =>
      rw [hstep, Nat.mul_zero, pow_zero, Nat.div_one, Nat.add_comm, Nat.add_mul_mod_self_right, Nat.mod_mod]
      rfl
    | succ i =>
      have hrest : packed b (x :: t) / 2 ^ b = packed b t := by
        rw [hstep, Nat.add_comm, Nat.add_mul_div_right _ _ hb, Nat.div_eq_of_lt (Nat.mod_lt _ hb), Nat.zero_add]
      rw [Nat.mul_succ, Nat.add_comm, pow_add, ← Nat.div_div_eq_div_mul, hrest]
      exact ih (by simpa using hi)

/-- The elements of a register fill its 2048 bits at most. -/
theorem elBits_mul_vCount (t : Nat) : elBits t * vCount t ≤ 2048 := by
  unfold elBits vCount
  by_cases h0 : t = 0
  · simp [h0]
  · by_cases h3 : t = 3 ∨ t = 4
    · rw [if_neg (by omega), if_pos h3, if_neg h0, if_pos h3]
    · rw [if_neg h0, if_neg h3]
      split <;> omega

/-- An element of a register that was made element by element. -/
theorem vEl_vElements (t : Nat) (f : Nat → Nat × Flags) {i : Nat} (hi : i < vCount t) :
    vEl t (vElements t f).1 i = (f i).1 % 2 ^ elBits t := by
  have hlen : (((List.range (vCount t)).map f).map Prod.fst).length = vCount t := by simp
  have hbits : packed (elBits t) (((List.range (vCount t)).map f).map Prod.fst) < 2 ^ 2048 := by
    have h := packed_lt (elBits t) (((List.range (vCount t)).map f).map Prod.fst)
    rw [hlen] at h
    exact h.trans_le (Nat.pow_le_pow_right (by decide) (elBits_mul_vCount t))
  change (BitVec.ofNat 2048 (packed (elBits t) (((List.range (vCount t)).map f).map Prod.fst))).toNat / _ % _ = _
  rw [BitVec.toNat_ofNat, Nat.mod_eq_of_lt hbits, packed_digit _ _ (by rw [hlen]; exact hi)]
  simp

theorem vEl_lt (t : Nat) (v : BitVec 2048) (i : Nat) : vEl t v i < 2 ^ elBits t := Nat.mod_lt _ (by positivity)

/-- Elements without flags raise none. -/
theorem vElements_noFlags (t : Nat) (f : Nat → Nat) : (vElements t fun i => (f i, 0)).2 = 0 := by
  change ((List.range (vCount t)).map fun i => (f i, (0 : Flags))).foldl (fun a x => a ||| x.2) 0 = 0
  rw [List.foldl_map]
  exact foldl_keeps (P := (· = (0 : Flags))) (fun u i _ hu => by
    rw [hu]
    change (0 ||| 0 : Flags) = 0
    decide) rfl

/-! ## Issue -/

section
variable {s : State} {c : Ctx} {w : Nat}

theorem SameRun.setCtr {x y : Context} (h : SameRun x y) (n : BitVec 128) : SameRun x { y with rngCtr := n } := h

theorem SameRun.genAdvance {x y : Context} (h : SameRun x y) (n : Nat) : SameRun x (y.genAdvance n) := h.setCtr _

theorem SameRun.afterRoundings {x y : Context} (h : SameRun x y) (sr : Bool) (n : Nat) : SameRun x (y.afterRoundings sr n) := by
  unfold Context.afterRoundings
  split
  · exact h.genAdvance _
  · exact h

/-- An instruction that writes a v register and its context alone. -/
theorem setV_steps {locks : List Lock} {k : State → Context → Res} {v : Nat} {z : BitVec 2048} {x : Context}
    (h : s.Runs c w locks false) (hx : SameRun (s.ctx c) x) (hk : k s (s.ctx c) = .go ((s.setV c v z).setCtx c x)) :
    s.Steps c ((s.setV c v z).setCtx c x) (s.issue c w locks false k) := by
  have hr : x.status = .running := by rw [hx.1]; exact h.1.1
  have hself : ((s.setV c v z).setCtx c x).ctx c = x := State.ctx_setCtx_self _ c x (by rw [hr]; simp)
  exact State.issue_steps h hk (by rw [hself]; exact hr) (by rw [hself]; exact hx.2)

theorem vector_steps {locks : List Lock} (h : s.Runs c w locks false) (r : BitVec 2048 × Flags × Nat) :
    s.Steps c (s.vPut c w r) (s.vector c w locks r) :=
  setV_steps h (((SameRun.refl _).addFlags _).afterRoundings _ _) rfl

theorem vReduce_sameRun (s : State) (c : Ctx) (w : Nat) : SameRun (s.ctx c) (s.vReduce c w) := by
  unfold State.vReduce
  extract_lets op x l
  split
  · exact (SameRun.refl _).setReg ..
  · exact (((SameRun.refl _).setReg ..).addFlags _).afterRoundings ..

end

/-- What a vector's result leaves: its register, and its context. -/
theorem vPut_vreg {s : State} (h : swf (fun _ => 0) s.dxn.vregs = true) (c : Ctx) (w : Nat) (r : BitVec 2048 × Flags × Nat) :
    (s.vPut c w r).vreg c (wD w) = r.1 ∧ ∀ v, v ≠ wD w → (s.vPut c w r).vreg c v = s.vreg c v :=
  ⟨sget_sset_self _ _ h, fun v hv => sget_sset_of_ne 0 0 s.dxn.vregs r.1 (by omega)⟩

/-- Settles O30: `vector_steps` for the instructions; an element of a result is that of `vEl_vElements`. -/
theorem vectorInstructions : Obligations.VectorInstructions := by
  unfold Obligations.VectorInstructions
  refine ⟨
    fun c body s w hw h => ⟨_, rfl, hw ▸ vector_steps (hw ▸ h) _⟩,
    fun c body s w hw h => ⟨_, rfl, hw ▸ vector_steps (hw ▸ h) _⟩,
    fun c body s w hw h => ⟨_, rfl, hw ▸ vector_steps (hw ▸ h) _⟩,
    fun c body s w hw h => ⟨_, rfl, hw ▸ vector_steps (hw ▸ h) _⟩,
    fun c body s w hw h => ⟨_, rfl, hw ▸ vector_steps (hw ▸ h) _⟩,
    fun c body s w hw h => ⟨_, rfl, hw ▸ vector_steps (hw ▸ h) _⟩,
    fun c body s w hw h => ⟨_, rfl, hw ▸ vector_steps (hw ▸ h) _⟩,
    fun c body s w hw h => ⟨_, rfl, hw ▸ vector_steps (hw ▸ h) _⟩,
    fun c body s w hw h => ⟨_, rfl, hw ▸ vector_steps (hw ▸ h) _⟩,
    fun c body s w hw h => ⟨_, rfl, hw ▸ vector_steps (hw ▸ h) _⟩,
    fun c body s w hw h => ⟨_, rfl, hw ▸ vector_steps (hw ▸ h) _⟩,
    fun c body s w hw h => ⟨_, rfl, hw ▸ vector_steps (hw ▸ h) _⟩,
    fun c body s w hw h => ⟨_, rfl, hw ▸ vector_steps (hw ▸ h) _⟩,
    fun c body s w hw h => ⟨_, rfl, hw ▸ vector_steps (hw ▸ h) _⟩,
    fun c body s w hw h => ⟨_, rfl, hw ▸ vector_steps (hw ▸ h) _⟩,
    fun c body s w hw h => ⟨_, rfl, hw ▸ vector_steps (hw ▸ h) _⟩,
    fun c body s w hw h => ⟨_, rfl, hw ▸ vector_steps (hw ▸ h) _⟩,
    fun c body s w hw h => ⟨_, rfl, hw ▸ vector_steps (hw ▸ h) _⟩,
    fun c body s w hw h => ⟨_, rfl, hw ▸ vector_steps (hw ▸ h) _⟩,
    fun c body s w hw h => ⟨_, rfl, hw ▸ State.issue_sets (hw ▸ h) rfl ((SameRun.refl _).setReg ..).1 ((SameRun.refl _).setReg ..).2⟩,
    fun c body s w hw h => ⟨_, rfl, hw ▸ State.issue_sets (hw ▸ h) rfl (vReduce_sameRun ..).1 (vReduce_sameRun ..).2⟩,
    fun c body s w hw h => ⟨_, rfl, hw ▸ setV_steps (hw ▸ h) ((SameRun.refl _).genAdvance 16) rfl⟩,
    fun c w r s h => ⟨(vPut_vreg h c w r).1, (vPut_vreg h c w r).2, rfl⟩, ?int, ?fp, ?sel⟩
  case int =>
    intro c w fi ff i s hi hint
    rw [State.vArith, if_pos hint]
    refine ⟨(vEl_vElements _ _ hi).trans (Nat.mod_eq_of_lt (wrapInt_lt ..)), ?_⟩
    exact Prod.ext (vElements_noFlags _ _) rfl
  case fp =>
    intro c w fi ff i s hi hfp _ _
    rw [State.vArith, if_neg (by simp [hfp])]
    exact ⟨vEl_vElements _ _ hi, rfl⟩
  case sel =>
    intro c w i s hi
    refine ⟨(vEl_vElements _ _ hi).trans ?_, (vEl_vElements _ _ hi).trans ?_⟩
    · dsimp only
      split <;> exact Nat.mod_eq_of_lt (vEl_lt ..)
    · dsimp only
      split
      · exact Nat.mod_eq_of_lt (Nat.sub_lt (by positivity) (by decide))
      · exact Nat.zero_mod _

end Sys2Proof.Proofs
end

section
/-! PROOF. Tile and matrix instructions (spec/05 Table 5.5): MMA is a long operation, the others write one register of their tenon. -/

namespace Sys2Proof.Proofs
open Sys2Proof Sys2Proof.Machine

/-! ## Issue -/

section
variable {s : State} {c : Ctx} {w : Nat} {locks : List Lock} {long : Bool}

/-- An instruction that leaves its context and changes something else. -/
theorem keeps_ctx_steps {u : State} {k : State → Context → Res} (h : s.Runs c w locks long) (hu : u.ctx c = s.ctx c)
    (hk : k s (s.ctx c) = .go u) : s.Steps c u (s.issue c w locks long k) :=
  State.issue_steps h hk (by rw [hu]; exact h.1.1) (by rw [hu])

/-- An instruction that changes something else, and results of its context. -/
theorem setCtx_steps {u : State} {x : Context} {k : State → Context → Res} (h : s.Runs c w locks long) (hx : SameRun (s.ctx c) x)
    (hk : k s (s.ctx c) = .go (u.setCtx c x)) : s.Steps c (u.setCtx c x) (s.issue c w locks long k) := by
  have hr : x.status = .running := by rw [hx.1]; exact h.1.1
  have hself : (u.setCtx c x).ctx c = x := State.ctx_setCtx_self _ c x (by rw [hr]; simp)
  exact State.issue_steps h hk (by rw [hself]; exact hr) (by rw [hself]; exact hx.2)

theorem setA_ctx (s : State) (c e : Ctx) (i : Nat) (x : BitVec 32768) : (s.setA c i x).ctx e = s.ctx e := rfl
theorem setT_ctx (s : State) (c e : Ctx) (i : Nat) (x : BitVec 32768) : (s.setT c i x).ctx e = s.ctx e := rfl
theorem setV_ctx (s : State) (c e : Ctx) (i : Nat) (x : BitVec 2048) : (s.setV c i x).ctx e = s.ctx e := rfl

theorem putTile_ctx (s : State) (c e : Ctx) (d t : Nat) (codes scales : List Nat) :
    (s.putTile c d t codes scales).ctx e = s.ctx e := by
  unfold State.putTile
  extract_lets x n rest
  split
  · rfl
  · rfl

theorem countMma_frame (s : State) (c : Ctx) (t u : Nat) : s.countMma c t u = { s with cnt := (s.countMma c t u).cnt } := rfl

/-- MMA: its context goes on, the operation is outstanding, and the matrix unit's cycles are counted. -/
theorem mma_steps {x : Context} {k : State → Context → Res} {t u : Nat} {kind : LongKind} {l : List Lock} (h : s.Runs c w locks long)
    (hx : SameRun (s.ctx c) x) (hk : k s (s.ctx c) = .go (((s.setCtx c x).countMma c t u).addLong c kind l)) :
    s.Steps c (((s.setCtx c x).countMma c t u).addLong c kind l) (s.issue c w locks long k) := by
  have hr : x.status = .running := by rw [hx.1]; exact h.1.1
  have hself : (((s.setCtx c x).countMma c t u).addLong c kind l).ctx c = x := State.ctx_setCtx_self s c x (by rw [hr]; simp)
  exact State.issue_steps h hk (by rw [hself]; exact hr) (by rw [hself]; exact hx.2)

end

/-! ## Elements of a tile -/

theorem packed_digit_getD (b : Nat) (l : List Nat) (i : Nat) : packed b l / 2 ^ (b * i) % 2 ^ b = l.getD i 0 % 2 ^ b := by
  by_cases hi : i < l.length
  · rw [packed_digit b l hi, List.getD_eq_getElem _ _ hi]
  · have hsmall : packed b l < 2 ^ (b * i) :=
      (packed_lt b l).trans_le (Nat.pow_le_pow_right (by decide) (Nat.mul_le_mul_left b (by omega)))
    rw [Nat.div_eq_of_lt hsmall, List.getD_eq_default _ _ (by omega)]

/-- An element depends on the bits below the end of the elements alone. -/
theorem digit_congr {b n i x y : Nat} (hi : i < n) (h : ∀ j, j < b * n → x.testBit j = y.testBit j) :
    x / 2 ^ (b * i) % 2 ^ b = y / 2 ^ (b * i) % 2 ^ b := by
  refine Nat.eq_of_testBit_eq fun j => ?_
  rw [Nat.testBit_mod_two_pow, Nat.testBit_mod_two_pow, Nat.testBit_div_two_pow, Nat.testBit_div_two_pow]
  by_cases hj : j < b
  · have hend : b * (i + 1) ≤ b * n := Nat.mul_le_mul_left b hi
    rw [h (j + b * i) (by rw [Nat.mul_succ] at hend; omega)]
  · simp [hj]

/-- What lies above a tile's elements does not touch them. -/
theorem testBit_low {n m j x y : Nat} (hj : j < n) (hn : n ≤ m) :
    ((x % 2 ^ m % 2 ^ n + y * 2 ^ n) % 2 ^ m).testBit j = x.testBit j := by
  have hm : j < m := by omega
  rw [Nat.testBit_mod_two_pow, Nat.add_comm, Nat.mul_comm, Nat.testBit_two_pow_mul_add _ (Nat.mod_lt _ (by positivity)), if_pos hj,
    Nat.testBit_mod_two_pow, Nat.testBit_mod_two_pow]
  simp [hj, hm]

/-- The stored value of a narrower tile: its elements below, free bits above. -/
theorem putTile_narrow (s : State) (c : Ctx) (d t : Nat) (codes : List Nat) (ht : t = 0 ∨ t = 3 ∨ t = 4) :
    s.putTile c d t codes [] = { s with free := s.free + 1 }.setT c d (BitVec.ofNat 32768
      ((BitVec.ofNat 32768 (packed (elBits t) codes)).toNat % 2 ^ (elBits t * 1024) +
        (Config.freeTile s.free).toNat / 2 ^ (elBits t * 1024) * 2 ^ (elBits t * 1024))) := by
  have hmx : tyMx t = false := by rcases ht with h | h | h <;> subst h <;> rfl
  have hb : ¬ (tyMx t = true ∨ elBits t = 32) := by rcases ht with h | h | h <;> subst h <;> decide
  have hmake : tMake t codes [] = BitVec.ofNat 32768 (packed (elBits t) codes) := by
    unfold tMake packed
    rw [hmx]
    rfl
  unfold State.putTile
  rw [if_neg hb, hmake]

/-- A tile of a type narrower than the register, element by element. -/
theorem tCode_putTile (s : State) (c : Ctx) (d t : Nat) (codes : List Nat) (hs : swf (fun _ => 0) s.dxn.tregs = true)
    (ht : t = 0 ∨ t = 3 ∨ t = 4) {i : Nat} (hi : i < 1024) :
    tCode t ((s.putTile c d t codes []).treg c d) i = codes.getD i 0 % 2 ^ elBits t := by
  have hmx : tyMx t = false := by rcases ht with h | h | h <;> subst h <;> rfl
  have hb : elBits t * 1024 ≤ 32768 := by rcases ht with h | h | h <;> subst h <;> decide
  have hget : ∀ v : BitVec 32768, ({ s with free := s.free + 1 }.setT c d v).treg c d = v := fun v => sget_sset_self _ _ hs
  have hcode : ∀ v : BitVec 32768, tCode t v i = v.toNat / 2 ^ (elBits t * i) % 2 ^ elBits t := fun v => by
    unfold tCode
    rw [hmx]
    rfl
  rw [putTile_narrow s c d t codes ht, hget, hcode, ← packed_digit_getD, BitVec.toNat_ofNat, BitVec.toNat_ofNat]
  exact digit_congr hi fun j hj => testBit_low hj hb

/-- Settles O31: `mma_steps` for MMA; the short instructions keep their context's run; a tile reads back by `packed_digit_getD`. -/
theorem tileInstructions : Obligations.TileInstructions := by
  unfold Obligations.TileInstructions
  refine ⟨
    ?mma,
    fun q row col n t u s c hc => by subst hc; rfl,
    fun c body s w hw h => by subst hw; exact ⟨_, rfl, keeps_ctx_steps h (setA_ctx ..) rfl⟩,
    fun c body s w hw h => by subst hw; exact ⟨_, rfl, setCtx_steps h ((SameRun.refl _).addFlags _) rfl⟩,
    ?acvt,
    fun c body s w hw h => by subst hw; exact ⟨_, rfl, setCtx_steps h ((SameRun.refl _).addFlags _) rfl⟩,
    ?twrMx, ?twr,
    fun c body s w hw h => by subst hw; exact ⟨_, rfl, keeps_ctx_steps h (setV_ctx ..) rfl⟩,
    fun c body s w hw h => by subst hw; exact ⟨_, rfl, keeps_ctx_steps h (setA_ctx ..) rfl⟩,
    fun c body s w hw h => by subst hw; exact ⟨_, rfl, keeps_ctx_steps h (putTile_ctx ..) rfl⟩,
    ?tcvt,
    fun c body s w hw h => by subst hw; exact ⟨_, rfl, keeps_ctx_steps h (setT_ctx ..) rfl⟩,
    fun c body s w hw h => by subst hw; exact ⟨_, rfl, keeps_ctx_steps h (putTile_ctx ..) rfl⟩,
    ?wide, ?narrow⟩
  case mma =>
    intro c body s w hw h
    subst hw
    refine ⟨_, rfl, ?_⟩
    extract_lets u old r x
    exact mma_steps h ((SameRun.refl _).afterRoundings ..) rfl
  case acvt =>
    intro c body s w hw h
    subst hw
    refine ⟨_, rfl, ?_⟩
    split
    · exact keeps_ctx_steps h (putTile_ctx ..) rfl
    · exact setCtx_steps h (((SameRun.refl _).addFlags _).afterRoundings ..) rfl
  case tcvt =>
    intro c body s w hw h
    subst hw
    refine ⟨_, rfl, ?_⟩
    split
    · exact keeps_ctx_steps h (putTile_ctx ..) rfl
    · exact setCtx_steps h (((SameRun.refl _).addFlags _).afterRoundings ..) rfl
  case twrMx =>
    intro c body s w hw h hmx
    subst hw
    refine ⟨_, rfl, setCtx_steps h ((SameRun.refl _).addFlags _) ?_⟩
    have h0 : wT (dxnWord 0x45 body) ≠ 0 := fun h0 => by simp [h0, tyMx] at hmx
    dsimp only
    rw [if_pos hmx, if_neg h0]
    rfl
  case twr =>
    intro c body s w hw h hmx
    subst hw
    refine ⟨_, rfl, setCtx_steps h ((SameRun.refl _).addFlags _) ?_⟩
    dsimp only
    rw [if_neg (by simp [hmx])]
    rfl
  case wide =>
    intro c d t codes scales s h
    exact if_pos h
  case narrow =>
    intro c d t codes s hs ht
    refine ⟨fun i hi => tCode_putTile s c d t codes hs ht hi, ?_⟩
    rw [putTile_narrow s c d t codes ht]
    rfl

end Sys2Proof.Proofs
end

section
/-! PROOF. Streams (spec/04 R108 to R112, spec/10): the stream instructions, the arrival of tiles, channels and DMA streams. -/

namespace Sys2Proof.Proofs
open Sys2Proof Sys2Proof.Machine

section
variable {s : State} {c : Ctx} {w : Nat} {locks : List Lock} {long : Bool}

/-- An instruction that is a long operation and nothing else. -/
theorem addLong_steps {kind : LongKind} {l : List Lock} {k : State → Context → Res} (h : s.Runs c w locks long)
    (hk : k s (s.ctx c) = .go (s.addLong c kind l)) : s.Steps c (s.addLong c kind l) (s.issue c w locks long k) :=
  keeps_ctx_steps h rfl hk

/-- An instruction that issued and waits. -/
theorem issue_stalls {k : State → Context → Res} (h : s.Runs c w locks long) (hk : k s (s.ctx c) = .stall) :
    s.Stalls c (s.issue c w locks long k) := by
  rw [s.issue_eq c w locks long k h.1, hk]
  rfl

theorem issueSend_go {p : Nat} (kind : LongKind) (hu : s.portUsable (portKey (tenonOf c) p) = true)
    (hn : (s.sendsOn (portKey (tenonOf c) p)).length < 2) : s.issueSend c p kind = .go (s.addLong c kind []) := by
  unfold State.issueSend
  rw [if_neg (by rw [hu]; decide), if_neg (by omega)]

theorem issueSend_stall {p : Nat} (kind : LongKind) (hu : s.portUsable (portKey (tenonOf c) p) = true)
    (hn : 2 ≤ (s.sendsOn (portKey (tenonOf c) p)).length) : s.issueSend c p kind = .stall := by
  unfold State.issueSend
  rw [if_neg (by rw [hu]; decide), if_pos hn]

theorem issueSend_fault {p : Nat} (kind : LongKind) (hu : s.portUsable (portKey (tenonOf c) p) = false) :
    s.issueSend c p kind = .fault s 0xC 0 := if_pos hu

theorem issueRecv_go {p : Nat} (kind : LongKind) (l : List Lock) (hu : s.portUsable (portKey (tenonOf c) p) = true) :
    s.issueRecv c p kind l = .go (s.addLong c kind l) := if_neg (by rw [hu]; decide)

theorem issueRecv_fault {p : Nat} (kind : LongKind) (l : List Lock) (hu : s.portUsable (portKey (tenonOf c) p) = false) :
    s.issueRecv c p kind l = .fault s 0xC 0 := if_pos hu

end

/-- What leaves a port with a send at the head: its tile, and the send completes. -/
theorem takeSend_send {s : State} {k p : Nat} {tile : Bytes} {o : LongOp} {rest : List LongOp} (h : s.sendsOn k = o :: rest)
    (ho : o.kind = .send p tile) : s.takeSend k = (s.completeLong o, some tile) := by
  unfold State.takeSend
  rw [h]
  dsimp only
  rw [ho]

theorem channelTake_send {s : State} {e ch k p : Nat} {tile : Bytes} {o : LongOp} {rest : List LongOp}
    (hroom : (s.channel e ch).outbound.length < 2) (h : s.sendsOn k = o :: rest) (ho : o.kind = .send p tile) :
    s.channelTake e ch k = (s.completeLong o).setChannel e ch
      { (s.completeLong o).channel e ch with outbound := ((s.completeLong o).channel e ch).outbound ++ [tile] } := by
  unfold State.channelTake
  rw [if_neg (by omega), takeSend_send h ho]

/-- A read without errors of a range without poison: its bytes. -/
theorem devRead_unpoisoned {s : State} {a n : Nat} (hp : s.rangePoisoned a n = false) :
    s.devRead a n [] = ((s.devRead a n []).1, sbytes s.mem.bytes a n, false) := by
  obtain ⟨t, ht, hread, hclean⟩ := devRead_marked s a n []
  have hmem : t.mem = s.mem := by
    obtain ⟨k, rfl | rfl⟩ := hclean rfl <;> exact s.wakeBays_mem _
  have htp : t.rangePoisoned a n = s.rangePoisoned a n := by
    unfold State.rangePoisoned
    rw [ht.stackFailed, hmem]
  rw [hread, htp, hp]

section
variable {q : Fin 4} {row : Fin 30} {col : Fin 32} {port : Fin 4} {s : State} {k : Nat}

theorem exec_streamTileArrival_neighbour {f p : Nat} {tile : Bytes} {o : LongOp} {rest : List LongOp}
    (hk : k = portKey (tenonIx q row col) port) (hbound : (s.stream k).bound = some .neighbour) (hroom : (s.stream k).rx.length < 2)
    (hf : facing q row col port = some f) (h : s.sendsOn f = o :: rest) (ho : o.kind = .send p tile) :
    exec (.streamTileArrival q row col port) s =
      .next ((s.completeLong o).setStream k { (s.completeLong o).stream k with rx := ((s.completeLong o).stream k).rx ++ [tile] }) := by
  subst hk
  change execStreamTileArrival q row col port s = _
  unfold execStreamTileArrival
  rw [if_neg (by omega), hbound]
  dsimp only
  rw [hf]
  dsimp only
  rw [takeSend_send h ho]

theorem exec_streamTileArrival_channel {e ch : Nat} {tile : Bytes} {rest : List Bytes}
    (hk : k = portKey (tenonIx q row col) port) (hbound : (s.stream k).bound = some (.channelIn e ch))
    (hroom : (s.stream k).rx.length < 2) (h : (s.channel e ch).inbound = tile :: rest) :
    exec (.streamTileArrival q row col port) s =
      .next ((s.setChannel e ch (Channel.fill 2 { s.channel e ch with inbound := rest })).setStream k
        { s.stream k with rx := (s.stream k).rx ++ [tile] }) := by
  subst hk
  change execStreamTileArrival q row col port s = _
  unfold execStreamTileArrival
  rw [if_neg (by omega), hbound]
  dsimp only
  rw [h]
  dsimp only
  rw [hbound]

end

section
variable {q : Fin 4} {stream : Fin 64} {s : State} {k : Nat}

theorem exec_dmaStreamTile_in (hk : k = 64 * q.val + stream.val) (hfree : s.dmaFree k = false) (hstop : (s.dma k).stopped = false)
    (hspent : (s.dma k).spent = false) (hin : (s.dma k).inbound = true) (hroom : (s.stream (s.dma k).tenonPort).rx.length < 2)
    (hclean : s.rangePoisoned ((s.dma k).addr + 4096 * (s.dma k).done) 4096 = false) :
    exec (.dmaStreamTile q stream []) s =
      .next (((s.devRead ((s.dma k).addr + 4096 * (s.dma k).done) 4096 []).1.setStream (s.dma k).tenonPort
        { s.stream (s.dma k).tenonPort with rx := (s.stream (s.dma k).tenonPort).rx ++
          [sbytes s.mem.bytes ((s.dma k).addr + 4096 * (s.dma k).done) 4096] }).dmaPassed k
        { s.dma k with done := (s.dma k).done + 1 }) := by
  subst hk
  refine congrArg Host.Outcome.next ?_
  rw [if_neg (by simp [hfree, hstop, hspent]), if_pos hin, if_neg (by omega), devRead_unpoisoned hclean]
  rfl

theorem exec_dmaStreamTile_out {errs : List LineErr} {p : Nat} {tile : Bytes} {o : LongOp} {rest : List LongOp}
    (hk : k = 64 * q.val + stream.val) (hfree : s.dmaFree k = false) (hstop : (s.dma k).stopped = false)
    (hspent : (s.dma k).spent = false) (hout : (s.dma k).inbound = false) (h : s.sendsOn (s.dma k).tenonPort = o :: rest)
    (ho : o.kind = .send p tile) (hpeg : (s.dma k).donePeg = 0) :
    exec (.dmaStreamTile q stream errs) s = .next (((s.completeLong o).devWrite ((s.dma k).addr + 4096 * (s.dma k).done) tile).dmaPassed k
        { s.dma k with done := (s.dma k).done + 1 }) := by
  subst hk
  refine congrArg Host.Outcome.next ?_
  rw [if_neg (by simp [hfree, hstop, hspent]), if_neg (by rw [hout]; decide), takeSend_send h ho]
  dsimp only
  rw [if_neg (by simp [hpeg])]

end

/-- Settles O32: `addLong_steps` with what `issueSend` and `issueRecv` answer; tiles by `takeSend_send` and `devRead_unpoisoned`. -/
theorem streamInstructions : Obligations.StreamInstructions := by
  unfold Obligations.StreamInstructions
  refine ⟨
    fun c body s w hw h hu hn => by subst hw; exact ⟨_, rfl, addLong_steps h (issueSend_go _ hu hn)⟩,
    fun c body s w hw h hu => by subst hw; exact ⟨_, rfl, State.issue_fault h.1 (issueSend_fault _ hu)⟩,
    fun c body s w hw h hu hn => by subst hw; exact ⟨_, rfl, issue_stalls h (issueSend_stall _ hu hn)⟩,
    fun c body s w hw h hu => by subst hw; exact ⟨_, rfl, addLong_steps h (issueRecv_go _ _ hu)⟩,
    fun c body s w hw h hu => by subst hw; exact ⟨_, rfl, State.issue_fault h.1 (issueRecv_fault _ _ hu)⟩,
    ?sendm, ?recvm,
    fun c body s w hw h hu => by
      subst hw
      exact ⟨_, rfl, State.issue_sets h (if_neg (by rw [hu]; decide)) rfl rfl⟩,
    fun c body s w hw h hu => by subst hw; exact ⟨_, rfl, State.issue_fault h.1 (if_pos hu)⟩,
    fun q row col port k f p tile o rest s hk hb hr hf h ho => exec_streamTileArrival_neighbour hk hb hr hf h ho,
    fun q row col port k e ch tile rest s hk hb hr h => exec_streamTileArrival_channel hk hb hr h,
    fun q stream k s hk hf hs hp hi hr hc => ⟨_, exec_dmaStreamTile_in hk hf hs hp hi hr hc, rfl⟩,
    fun q stream errs k p tile o rest s hk hf hs hp hi h ho hpeg => exec_dmaStreamTile_out hk hf hs hp hi h ho hpeg,
    fun e ch errs n s h => ⟨_, congrArg Host.Outcome.next (by rw [h]), rfl⟩,
    fun e ch k p tile o rest s hroom h ho => channelTake_send hroom h ho,
    fun s c kind locks => rfl⟩
  case sendm =>
    intro c body s w hw h hmem hu hn
    subst hw
    refine ⟨_, rfl, addLong_steps h ?_⟩
    dsimp only
    rw [hmem]
    exact issueSend_go _ hu hn
  case recvm =>
    intro c body s w hw h hmem hu
    subst hw
    refine ⟨_, rfl, addLong_steps h ?_⟩
    dsimp only
    rw [hmem]
    exact issueRecv_go _ _ hu

end Sys2Proof.Proofs
end

section
/-! PROOF. Pegs (spec/04 R103 to R113): operations, waits, bindings, assignment. -/

namespace Sys2Proof.Proofs
open Sys2Proof Sys2Proof.Machine

/-! ## Values that are stored twice -/

/-- Of two writes of a key the second stands. -/
theorem sput_sput {α : Type} (m : Sparse α) (n : Nat) (x y : α) : sput (sput m n x) n y = sput m n y := by
  induction m with
  | nil => simp [sput]
  | cons e t ih =>
    obtain ⟨k, v⟩ := e
    by_cases hlt : n < k
    · simp [sput, hlt]
    · by_cases heq : n = k
      · simp [sput, heq]
      · simp [sput, hlt, heq, ih]

theorem State.setCtx_setCtx (s : State) (c : Ctx) {x y : Context} (hx : x.status ≠ .free) (hy : y.status ≠ .free) :
    (s.setCtx c x).setCtx c y = s.setCtx c y := by
  have hset {z : Context} (hz : z.status ≠ .free) (m : Sparse Context) : sset {} m (ctxKey c) z = sput m (ctxKey c) z :=
    if_neg fun h => hz (by rw [h])
  unfold State.setCtx
  dsimp only
  rw [hset hx, hset hy, sput_sput, hset hy]

/-! ## What an operation on a peg does -/

/-- A context that sees a peg's value goes on as it did. -/
theorem sees_sameRun (x : Context) (p : Nat) (v : Word) : SameRun x (x.sees p v) := sees_run x p v

theorem setPeg_peg {s : State} (h : swf (fun _ => 0) s.dxn.pegs = true) (p : Nat) (v : Word) (i : Nat) :
    (s.setPeg p v).peg i = if i = p then v else s.peg i := by
  by_cases hi : i = p
  · rw [if_pos hi, hi]
    exact sget_sset_self _ _ h
  · rw [if_neg hi]
    exact sget_sset_of_ne _ _ _ _ hi

section
variable {s : State} {c : Ctx} {w : Nat} {locks : List Lock} {long : Bool}

/-- An instruction that writes a peg. -/
theorem setPeg_steps {k : State → Context → Res} {p : Nat} {v : Word} (h : s.Runs c w locks long)
    (hk : k s (s.ctx c) = .go (s.setPeg p v)) : s.Steps c (s.setPeg p v) (s.issue c w locks long k) := by
  obtain ⟨hstatus, hcode⟩ := sees_sameRun (s.ctx c) p v
  exact State.issue_steps h hk (by rw [setPeg_ctx, hstatus]; exact h.1.1) (by rw [setPeg_ctx, hcode])

/-- A local ADD or SET that may use its peg and has no writes to wait for. -/
theorem pegWrite_steps {set : Bool} (h : s.Runs c w [] false) (hlocal : pScope w < 8) (hok : s.ctxPegOk c (pPeg w) = true)
    (hquiet : s.writesPending c = false) :
    s.Steps c (s.setPeg (pPeg w) (if set then pegValue (s.ctx c) w else s.peg (pPeg w) + pegValue (s.ctx c) w)) (s.pegWrite c w set) := by
  refine setPeg_steps h ?_
  rw [if_neg (by omega), if_neg (by rw [hok]; decide), if_neg (by rw [hquiet]; decide)]
  cases set <;> rfl

theorem pegWrite_raises {set : Bool} (h : s.Runs c w [] false) (hlocal : pScope w < 8) (hno : s.ctxPegOk c (pPeg w) = false) :
    s.Raises c 8 (BitVec.ofNat 64 (pPeg w)) (s.pegWrite c w set) := by
  refine State.issue_fault h.1 ?_
  rw [if_neg (by omega), if_pos hno]
  rfl

theorem pegWrite_stalls {set : Bool} (h : s.Runs c w [] false) (hlocal : pScope w < 8) (hok : s.ctxPegOk c (pPeg w) = true)
    (hwrites : s.writesPending c = true) : s.Stalls c (s.pegWrite c w set) := by
  refine issue_stalls h ?_
  rw [if_neg (by omega), if_neg (by rw [hok]; decide), if_pos hwrites]

theorem waitEnds_sameRun (x : Context) (t : BitVec 32) (ok : Bool) : SameRun x (x.waitEnds t ok) := by
  unfold Context.waitEnds
  split
  · exact (SameRun.refl x).setPred ..
  · exact .refl x

/-- Whether a wait holds depends on its value and its relation. -/
theorem waitHolds_timer (p : Nat) (v x : Word) (eq : Bool) (t : BitVec 32) :
    waitHolds { peg := p, value := v, eq := eq, timer := t } x = waitHolds { peg := p, value := v, eq := eq, timer := 0 } x := rfl

theorem pegWait_steps {eq : Bool} (h : s.Runs c w [] false) (hok : s.ctxPegOk c (pPeg w) = true)
    (hholds : waitHolds { peg := pPeg w, value := pegValue (s.ctx c) w, eq := eq, timer := 0 } (s.peg (pPeg w)) = true) :
    s.Steps c (s.setCtx c ((s.ctx c).waitEnds (s.ctx c).timeout true)) (s.pegWait c w eq) := by
  obtain ⟨hstatus, hcode⟩ := waitEnds_sameRun (s.ctx c) (s.ctx c).timeout true
  refine State.issue_sets h ?_ hstatus hcode
  dsimp only
  rw [if_neg (by rw [hok]; decide), waitHolds_timer, if_pos hholds]

/-- The wait that an instruction starts. -/
def waitOf (x : Context) (w : Nat) (eq : Bool) : PegWait :=
  { peg := pPeg w, value := pegValue x w, eq := eq, timer := x.timeout }

/-- An instruction after which its context waits at the next index. -/
theorem issue_waits {k : State → Context → Res} {x : Context} (h : s.Runs c w locks long)
    (hk : k s (s.ctx c) = .go (s.setCtx c x)) (hx : x.status = .waiting) :
    s.issue c w locks long k = (s.countIssued c).setCtx c { x with pc := (s.ctx c).pc + 1, stalled := false } := by
  have hfree : x.status ≠ .free := by rw [hx]; decide
  have hctx : ((s.setCtx c x).countIssued c).ctx c = x := by
    rw [State.ctx, State.countIssued_dxn]
    exact State.ctx_setCtx_self s c x hfree
  rw [s.issue_eq c w locks long k h.1, hk]
  change ((s.setCtx c x).countIssued c).advance c ((s.ctx c).pc + 1) = _
  unfold State.advance
  rw [hctx]
  dsimp only
  rw [if_neg (by rw [hx]; decide), if_pos hx]
  have hcount : (s.setCtx c x).countIssued c = (s.countIssued c).setCtx c x := by
    unfold State.countIssued
    split <;> rfl
  rw [hcount, State.setCtx_setCtx _ c hfree (y := { x with pc := (s.ctx c).pc + 1, stalled := false }) hfree]

theorem pegWait_waits {eq : Bool} (h : s.Runs c w [] false) (hok : s.ctxPegOk c (pPeg w) = true)
    (hholds : waitHolds { peg := pPeg w, value := pegValue (s.ctx c) w, eq := eq, timer := 0 } (s.peg (pPeg w)) = false) :
    s.pegWait c w eq = (s.countIssued c).setCtx c
      { s.ctx c with status := .waiting, pc := (s.ctx c).pc + 1, stalled := false, wait := some (waitOf (s.ctx c) w eq) } := by
  refine issue_waits (x := { s.ctx c with status := .waiting, wait := some (waitOf (s.ctx c) w eq) }) h ?_ rfl
  dsimp only
  rw [if_neg (by rw [hok]; decide), waitHolds_timer, if_neg (by rw [hholds]; decide)]
  rfl

end

section
variable {c : Ctx} {k : PegWait} {s : State}

theorem exec_pegWaitSatisfied (hw : (s.ctx c).wait = some k) (hs : (s.ctx c).status = .waiting) (hit : k.hit = true) :
    exec (.pegWaitSatisfied c) s =
      .next ((s.setCtx c { ((s.ctx c).waitEnds k.timer true) with status := .running, wait := none }).fetchCheck c) := by
  change execPegWaitSatisfied c s = _
  unfold execPegWaitSatisfied
  rw [hw]
  exact if_pos ⟨hs, hit⟩

/-- A timer that is armed counts. -/
theorem armed_of_continueMode {t : BitVec 32} (h : continueMode t = true) : t.toNat % 2 ^ 31 ≠ 0 := by
  simp only [continueMode, Bool.and_eq_true, bne_iff_ne] at h
  exact h.2

theorem exec_pegWaitTimeout (hw : (s.ctx c).wait = some k) (hs : (s.ctx c).status = .waiting) (hit : k.hit = false)
    (harmed : k.timer.toNat % 2 ^ 31 ≠ 0) : exec (.pegWaitTimeout c) s =
      if continueMode k.timer then .next (s.resume c k false)
      else .next (s.except c 9 ((s.ctx c).pc - 1) (BitVec.ofNat 64 k.peg)) := by
  change execPegWaitTimeout c s = _
  unfold execPegWaitTimeout
  rw [hw]
  exact if_neg (by simpa [hs, hit] using harmed)

end

/-! ## Assignment -/

/-- Pegs `first` to `first + n - 1` belong to a domain, at 0. -/
def givePegs (s : State) (first n domain : Nat) : State :=
  (List.range n).foldl (fun s i => { s with
    dxn.pegs := sset 0 s.dxn.pegs (first + i) 0
    dxn.pegOwner := sset 0 s.dxn.pegOwner (first + i) (BitVec.ofNat 12 domain) }) s

/-- What the pegs and their domains are after an assignment. -/
structure Given (s t : State) (first n domain : Nat) : Prop where
  frame : t = { s with dxn := { s.dxn with pegs := t.dxn.pegs, pegOwner := t.dxn.pegOwner } }
  pegsWf : swf (fun _ => 0) t.dxn.pegs = true
  ownersWf : swf (fun _ => 0) t.dxn.pegOwner = true
  peg : ∀ p, t.peg p = if first ≤ p ∧ p < first + n then 0 else s.peg p
  dom : ∀ p, t.pegDom p = if first ≤ p ∧ p < first + n then BitVec.ofNat 12 domain else s.pegDom p

theorem givePegs_given {s : State} (hp : swf (fun _ => 0) s.dxn.pegs = true) (ho : swf (fun _ => 0) s.dxn.pegOwner = true)
    (first n domain : Nat) : Given s (givePegs s first n domain) first n domain := by
  induction n with
  | zero => exact ⟨rfl, hp, ho, fun p => (if_neg (by omega)).symm, fun p => (if_neg (by omega)).symm⟩
  | succ n ih =>
    have hstep : givePegs s first (n + 1) domain =
        let u := givePegs s first n domain
        { u with dxn.pegs := sset 0 u.dxn.pegs (first + n) 0,
                 dxn.pegOwner := sset 0 u.dxn.pegOwner (first + n) (BitVec.ofNat 12 domain) } := by
      unfold givePegs
      rw [List.range_succ, List.foldl_append]
      rfl
    obtain ⟨u, hu⟩ : ∃ u, givePegs s first n domain = u := ⟨_, rfl⟩
    rw [hstep, hu]
    dsimp only
    rw [hu] at ih
    obtain ⟨hframe, hpw, how, hpeg, hdom⟩ := ih
    have hpw' : swf (fun _ => 0) (sset 0 u.dxn.pegs (first + n) 0) = true := swf_sset hpw
    have how' : swf (fun _ => 0) (sset 0 u.dxn.pegOwner (first + n) (BitVec.ofNat 12 domain)) = true := swf_sset how
    refine ⟨by rw [hframe], hpw', how', fun p => ?_, fun p => ?_⟩
    · change sget 0 (sset 0 u.dxn.pegs (first + n) 0) p = _
      by_cases he : p = first + n
      · rw [he, sget_sset_self _ _ hpw, if_pos (by omega)]
      · rw [sget_sset_of_ne _ _ _ _ he]
        exact (hpeg p).trans (if_congr (by omega) rfl rfl)
    · change sget 0 (sset 0 u.dxn.pegOwner (first + n) (BitVec.ofNat 12 domain)) p = _
      by_cases he : p = first + n
      · rw [he, sget_sset_self _ _ how, if_pos (by omega)]
      · rw [sget_sset_of_ne _ _ _ _ he]
        exact (hdom p).trans (if_congr (by omega) rfl rfl)

theorem pegAssign_given {s : State} {first count domain : Nat} (hn : 0 < count) (hf : 1024 ≤ first) (hl : first + count ≤ 65536)
    (hops : s.dxn.longOps = []) (hctxs : s.dxn.ctxs = []) :
    s.pegAssign first count domain = (0, givePegs s first count domain) := by
  unfold State.pegAssign
  dsimp only
  rw [if_neg (by omega), if_neg (by rw [hops, hctxs]; simp)]
  rfl

/-- What a write of CMD_PEG_ASSIGN asks for. -/
def assignWord (first count : BitVec 16) (domain : BitVec 12) : Word :=
  F.CMD_PEG_ASSIGN_GO.put 1 ||| F.CMD_PEG_ASSIGN_DOMAIN.put domain.toNat ||| F.CMD_PEG_ASSIGN_COUNT.put count.toNat |||
    F.CMD_PEG_ASSIGN_FIRST.put first.toNat

theorem assignWord_fields (first count : BitVec 16) (domain : BitVec 12) :
    F.CMD_PEG_ASSIGN_FIRST.get (assignWord first count domain) = first.toNat ∧
    F.CMD_PEG_ASSIGN_COUNT.get (assignWord first count domain) = count.toNat ∧
    F.CMD_PEG_ASSIGN_DOMAIN.get (assignWord first count domain) = domain.toNat := by
  have h1 := first.isLt
  have h2 := count.isLt
  have h3 := domain.isLt
  unfold assignWord
  refine ⟨?_, ?_, ?_⟩
  · rw [get_or, get_or, get_or, get_put_of_disjoint _ _ _ (by decide) (by decide), get_put_of_disjoint _ _ _ (by decide) (by decide),
      get_put_of_disjoint _ _ _ (by decide) (by decide), get_put_self _ _ (by decide), Nat.mod_eq_of_lt h1]
    simp
  · rw [get_or, get_or, get_or, get_put_of_disjoint _ _ _ (by decide) (by decide), get_put_of_disjoint _ _ _ (by decide) (by decide),
      get_put_self _ _ (by decide), get_put_of_disjoint _ _ _ (by decide) (by decide), Nat.mod_eq_of_lt h2]
    simp
  · rw [get_or, get_or, get_or, get_put_of_disjoint _ _ _ (by decide) (by decide), get_put_self _ _ (by decide),
      get_put_of_disjoint _ _ _ (by decide) (by decide), get_put_of_disjoint _ _ _ (by decide) (by decide), Nat.mod_eq_of_lt h3]
    simp

/-- A check of the queue's head, alone in it. -/
def withCheck (s : State) (k : Check) : State := { s with cfg.checks := [k] }

/-- A check that nothing waits before, and that needs no wait, ends at once. -/
theorem pushCheck_ends {s u : State} {k : Check} (hnone : s.cfg.checks = []) (hrun : (withCheck s k).runHead k = (true, u))
    (hu : u.cfg.checks = [k]) :
    s.pushCheck k = { u with cfg.checks := [] }.setFld R.CFG_COMMIT_STATUS F.CFG_COMMIT_STATUS_BUSY 0 := by
  unfold State.pushCheck
  extract_lets first _ t
  have hfirst : first = true := List.isEmpty_iff.2 hnone
  have ht : t = withCheck s k := by
    change ({ s with cfg := { s.cfg with checks := s.cfg.checks ++ [k] } } : State) = _
    rw [hnone]
    rfl
  rw [if_pos hfirst, ht, State.runChecks]
  change (match (withCheck s k).runHead k with | (false, s) => s | (true, s) => State.runChecks { s with cfg.checks := s.cfg.checks.drop 1 } 0).commitBusy = _
  rw [hrun]
  dsimp only
  rw [State.runChecks, hu]
  rfl

/-- The check of an assignment. -/
def assignCheck (v : Word) : Check := { kind := .pegAssign, captured := [(R.CMD_PEG_ASSIGN, v)], offset := R.CMD_PEG_ASSIGN }

theorem runHead_assign (s : State) (v : Word) : s.runHead (assignCheck v) = (true, s.assignPegs v) := by
  have hv : wordOf [(R.CMD_PEG_ASSIGN, v)] R.CMD_PEG_ASSIGN = v := by simp [wordOf, sget]
  change (true, s.assignPegs (wordOf [(R.CMD_PEG_ASSIGN, v)] R.CMD_PEG_ASSIGN)) = _
  rw [hv]

theorem assignPegs_given {first count : BitVec 16} {domain : BitVec 12} {s u : State}
    (hgive : givePegs s first.toNat count.toNat domain.toNat = u) (hn : 0 < count.toNat) (hf : 1024 ≤ first.toNat)
    (hl : first.toNat + count.toNat ≤ 65536) (hops : s.dxn.longOps = []) (hctxs : s.dxn.ctxs = []) :
    s.assignPegs (assignWord first count domain) =
      (u.setFld R.CMD_PEG_ASSIGN F.CMD_PEG_ASSIGN_GO 0).setFld R.CMD_PEG_ASSIGN_STATUS F.CMD_PEG_ASSIGN_STATUS_REASON 0 := by
  obtain ⟨hfirst, hcount, hdomain⟩ := assignWord_fields first count domain
  unfold State.assignPegs
  rw [hfirst, hcount, hdomain, pegAssign_given hn hf hl hops hctxs, hgive]

theorem exec_pegAssign_eq {first count : BitVec 16} {domain : BitVec 12} {s : State}
    (hgo : s.flag R.CMD_PEG_ASSIGN F.CMD_PEG_ASSIGN_GO = false) : exec (.pegAssign first count domain) s =
      .next ((s.wr R.CMD_PEG_ASSIGN (assignWord first count domain)).pushCheck (assignCheck (assignWord first count domain))) :=
  if_neg (by rw [hgo]; decide)

/-- An assignment that nothing waits before ends at once. -/
theorem exec_pegAssign {first count : BitVec 16} {domain : BitVec 12} {s u : State} {v : Word} (hv : v = assignWord first count domain)
    (hgive : givePegs (withCheck (s.wr R.CMD_PEG_ASSIGN v) (assignCheck v)) first.toNat count.toNat domain.toNat = u)
    (hgo : s.flag R.CMD_PEG_ASSIGN F.CMD_PEG_ASSIGN_GO = false) (hnone : s.cfg.checks = []) (hn : 0 < count.toNat)
    (hf : 1024 ≤ first.toNat) (hl : first.toNat + count.toNat ≤ 65536) (hops : s.dxn.longOps = []) (hctxs : s.dxn.ctxs = [])
    (hu : u.cfg.checks = [assignCheck v]) : exec (.pegAssign first count domain) s = .next ({ (u.setFld R.CMD_PEG_ASSIGN
      F.CMD_PEG_ASSIGN_GO 0).setFld R.CMD_PEG_ASSIGN_STATUS F.CMD_PEG_ASSIGN_STATUS_REASON 0 with cfg.checks := [] }.setFld
      R.CFG_COMMIT_STATUS F.CFG_COMMIT_STATUS_BUSY 0) := by
  have hrun := runHead_assign (withCheck (s.wr R.CMD_PEG_ASSIGN v) (assignCheck v)) v
  have hassign := assignPegs_given hgive hn hf hl hops hctxs
  rw [← hv] at hassign
  rw [hassign] at hrun
  rw [exec_pegAssign_eq hgo, ← hv, pushCheck_ends (s := s.wr R.CMD_PEG_ASSIGN v) hnone hrun
    (by rw [State.setFld_cfg, State.setFld_cfg]; exact hu)]

/-- Settles O33: the operations by `setPeg_steps`, waits by `pegWait_steps` and `pegWait_waits`, the assignment by `givePegs_given`. -/
theorem pegInstructions : Obligations.PegInstructions := by
  unfold Obligations.PegInstructions
  refine ⟨
    fun c body s w hw h hl hok hq => by subst hw; exact ⟨_, rfl, pegWrite_steps (set := false) h hl hok hq⟩,
    fun c body s w hw h hl hno => by subst hw; exact ⟨_, rfl, pegWrite_raises h hl hno⟩,
    fun c body s w hw h hl hok hq => by subst hw; exact ⟨_, rfl, pegWrite_stalls h hl hok hq⟩,
    fun c body s w hw h hl hok hq => by subst hw; exact ⟨_, rfl, pegWrite_steps (set := true) h hl hok hq⟩,
    fun c body s w hw h hl hno => by subst hw; exact ⟨_, rfl, pegWrite_raises h hl hno⟩,
    fun c body s w hw h hl hok hq => by subst hw; exact ⟨_, rfl, pegWrite_stalls h hl hok hq⟩,
    fun c body s w hw h hok hh => by subst hw; exact ⟨_, rfl, pegWait_steps h hok hh⟩,
    fun c body s w hw h hok hh => by subst hw; exact ⟨_, rfl, pegWait_waits h hok hh⟩,
    fun c body s w hw h hok hh => by subst hw; exact ⟨_, rfl, pegWait_steps h hok hh⟩,
    fun c body s w hw h hok hh => by subst hw; exact ⟨_, rfl, pegWait_waits h hok hh⟩,
    fun c body s w hw h => by subst hw; exact ⟨_, rfl, State.issue_sets h rfl rfl rfl⟩,
    fun c k s hw hs hit => exec_pegWaitSatisfied hw hs hit,
    ?resumes,
    fun c k s hw hs hit ha hc => by rw [exec_pegWaitTimeout hw hs hit ha, if_neg (by rw [hc]; decide)],
    fun s p v h => ⟨setPeg_peg h p v, rfl, rfl, rfl, rfl⟩,
    fun x p v k hk => by rw [Context.sees, hk],
    fun k v => ⟨fun h => ?eq, fun h => ?ge⟩,
    fun c body s w hw h hon hok => by
      subst hw
      exact ⟨_, rfl, State.issue_sets h ((if_neg hon).trans (if_neg (by rw [hok]; decide))) rfl rfl⟩,
    fun c body s w hw h hoff => by subst hw; exact ⟨_, rfl, State.issue_sets h (if_pos hoff) rfl rfl⟩,
    fun c body s w hw h hon hno => by subst hw; exact ⟨_, rfl, State.issue_fault h.1 ((if_neg hon).trans (if_pos hno))⟩,
    fun c body s w hw h hnone => by subst hw; exact ⟨_, rfl, State.issue_sets h (if_pos (by rw [hnone]; rfl)) rfl rfl⟩,
    fun c body s w hw h hnone => by subst hw; exact ⟨_, rfl, keeps_ctx_steps h rfl (if_pos (by rw [hnone]; rfl))⟩,
    fun c body s w hw h hsome => by subst hw; exact ⟨_, rfl, issue_stalls h (if_neg (by simpa using hsome))⟩,
    fun c body s w hw h hok => by
      subst hw
      obtain ⟨hstatus, hcode⟩ := (SameRun.refl (s.ctx c)).setReg (wD (dxnWord 0x74 body)) (s.peg (iImm (dxnWord 0x74 body)))
      exact ⟨_, rfl, State.issue_sets h (if_neg (by rw [hok]; decide)) hstatus hcode⟩,
    fun c body s w hw h hno => by subst hw; exact ⟨_, rfl, State.issue_fault h.1 (if_pos hno)⟩,
    fun s isC domain p => rfl, ?assign⟩
  case resumes =>
    intro c k s hw hs hit hc
    rw [exec_pegWaitTimeout hw hs hit (armed_of_continueMode hc), if_pos hc]
    have hends : (s.ctx c).waitEnds k.timer false = (s.ctx c).setPred 7 false := if_pos hc
    rw [← hends]
    rfl
  case eq => simp [waitHolds, h, beq_eq_decide]
  case ge => simp [waitHolds, h, BitVec.ule]
  case assign =>
    intro first count domain s hwf hpw how hgo hnone hn hf hl hops hctxs
    obtain ⟨v, hv⟩ : ∃ v, v = assignWord first count domain := ⟨_, rfl⟩
    obtain ⟨hframe, -, -, hpeg, hdom⟩ := givePegs_given (s := withCheck (s.wr R.CMD_PEG_ASSIGN v) (assignCheck v)) hpw how first.toNat
      count.toNat domain.toNat
    obtain ⟨u, hu⟩ : ∃ u, givePegs (withCheck (s.wr R.CMD_PEG_ASSIGN v) (assignCheck v)) first.toNat count.toNat domain.toNat = u :=
      ⟨_, rfl⟩
    rw [hu] at hframe hpeg hdom
    have huwf : u.regsWf = true := by rw [hframe]; exact s.wr_regsWf _ _ hwf
    have hmem : u.mem = s.mem := by rw [hframe]; rfl
    have hdomain : BitVec.ofNat 12 domain.toNat = domain := by simp
    rw [hdomain] at hdom
    set a := (u.setFld R.CMD_PEG_ASSIGN F.CMD_PEG_ASSIGN_GO 0).setFld R.CMD_PEG_ASSIGN_STATUS F.CMD_PEG_ASSIGN_STATUS_REASON 0
    have hawf : a.regsWf = true := State.setFld_regsWf _ _ _ _ (State.setFld_regsWf _ _ _ _ huwf)
    have hreason : a.fld R.CMD_PEG_ASSIGN_STATUS F.CMD_PEG_ASSIGN_STATUS_REASON = 0 :=
      State.fld_setFld_self _ _ _ _ (State.setFld_regsWf _ _ _ _ huwf) (by decide)
    have hgone : a.fld R.CMD_PEG_ASSIGN F.CMD_PEG_ASSIGN_GO = 0 :=
      (State.fld_setFld_of_ne _ _ _ _ (by decide)).trans (State.fld_setFld_self _ _ _ _ huwf (by decide))
    refine ⟨_, exec_pegAssign hv hu hgo hnone hn hf hl hops hctxs (by rw [hframe]; rfl), hpeg, hdom, ?_, ?_, rfl,
      fun i _ => by rw [State.byte, State.byte, ← hmem]; rfl⟩
    · exact (State.fld_setFld_of_ne _ _ _ _ (by decide)).trans hreason
    · exact (congrArg (· != 0) ((State.fld_setFld_of_ne _ _ _ _ (by decide)).trans hgone)).trans rfl

end Sys2Proof.Proofs
end

section
/-! PROOF. Far pegs (spec/04 R114; spec/07 R217, R218): requests, their application at the target, acknowledgements, retries. -/

namespace Sys2Proof.Proofs
open Sys2Proof Sys2Proof.Machine

/-! ## The requester -/

theorem sendFar_frame (s : State) (target : Nat) (m : FarMsg) :
    s.sendFar target m = { s with free := (s.sendFar target m).free, swc := (s.sendFar target m).swc } := rfl

theorem sendRequest_dxn (s : State) (o : LongOp) : (s.sendRequest o).dxn = s.dxn := by
  unfold State.sendRequest
  split
  · rw [sendFar_frame]
  · rfl

theorem longLimit_pos (c : Ctx) : 0 < longLimit c := by
  unfold longLimit
  split <;> decide

section
variable {s : State} {c : Ctx} {w : Nat} {set : Bool}

/-- The sequence of the next far operation through a register of a context, and the context with it. -/
def nextFar (x : Context) (w : Nat) : BitVec 32 × Context :=
  let seq := sget 0 x.farSeq (pScope w % 4) + 1
  (seq, { x with farSeq := sset 0 x.farSeq (pScope w % 4) seq })

/-- The operation that a far ADD or SET issues. -/
def farOf (s : State) (c : Ctx) (w : Nat) (set : Bool) : LongKind :=
  .farPeg (pScope w % 4) (sget 0 (s.ctx c).far (pScope w % 4)) (nextFar (s.ctx c) w).1 (BitVec.ofNat 16 (pPeg w)) set
    (pegValue (s.ctx c) w) 0 none

theorem issueFar_go (hprefix : s.rd R.FWD_FAR_PREFIX ≠ 0) (htarget : sget 0 (s.ctx c).far (pScope w % 4) ≠ 0)
    (hother : sget 0 (s.ctx c).far (pScope w % 4) ≠ s.identity) (hnone : s.opsOf c = []) (hrun : (s.ctx c).status = .running) :
    s.issueFar c (s.ctx c) w set = .go (((s.setCtx c (nextFar (s.ctx c) w).2).addLong c (farOf s c w set) []).sendRequest
      ⟨s.dxn.nextOp, c, (s.ctx c).pc, farOf s c w set, if (s.ctx c).bindOn = true then some (s.ctx c).bindPeg else none, [], none⟩) := by
  have hroom : ((decide (longLimit c ≤ (s.opsOf c).length)) || s.writesPending c) = false := by
    have h := longLimit_pos c
    simp [State.writesPending, hnone]
    omega
  have hx : (s.setCtx c (nextFar (s.ctx c) w).2).ctx c = (nextFar (s.ctx c) w).2 :=
    State.ctx_setCtx_self s c _ (by change (s.ctx c).status ≠ .free; rw [hrun]; decide)
  have hlast : ((s.setCtx c (nextFar (s.ctx c) w).2).addLong c (farOf s c w set) []).dxn.longOps.getLast? =
      some ⟨s.dxn.nextOp, c, (s.ctx c).pc, farOf s c w set,
        if (s.ctx c).bindOn = true then some (s.ctx c).bindPeg else none, [], none⟩ := by
    unfold State.addLong
    rw [hx]
    exact List.getLast?_concat
  unfold State.issueFar
  extract_lets f target peg v seq t u
  rw [if_neg (by rw [not_or]; exact ⟨htarget, hprefix⟩), if_neg (by rw [hroom]; decide), if_neg (show ¬ target = t.identity from hother)]
  change (match ((s.setCtx c (nextFar (s.ctx c) w).2).addLong c (farOf s c w set) []).dxn.longOps.getLast? with
    | some o => Res.go (((s.setCtx c (nextFar (s.ctx c) w).2).addLong c (farOf s c w set) []).sendRequest o)
    | none => Res.go ((s.setCtx c (nextFar (s.ctx c) w).2).addLong c (farOf s c w set) [])) = _
  rw [hlast]

theorem pegWrite_far (h : s.Runs c w [] false) (hfar : 8 ≤ pScope w) (hprefix : s.rd R.FWD_FAR_PREFIX ≠ 0)
    (htarget : sget 0 (s.ctx c).far (pScope w % 4) ≠ 0) (hother : sget 0 (s.ctx c).far (pScope w % 4) ≠ s.identity)
    (hnone : s.opsOf c = []) :
    s.Steps c (((s.setCtx c (nextFar (s.ctx c) w).2).addLong c (farOf s c w set) []).sendRequest
      ⟨s.dxn.nextOp, c, (s.ctx c).pc, farOf s c w set, if (s.ctx c).bindOn = true then some (s.ctx c).bindPeg else none, [], none⟩)
      (s.pegWrite c w set) := by
  have hrun : (s.ctx c).status = .running := h.1.1
  have hx : (s.setCtx c (nextFar (s.ctx c) w).2).ctx c = (nextFar (s.ctx c) w).2 :=
    State.ctx_setCtx_self s c _ (by change (s.ctx c).status ≠ .free; rw [hrun]; decide)
  refine State.issue_steps h ((if_pos hfar).trans (issueFar_go hprefix htarget hother hnone hrun)) ?_ ?_
  · rw [State.ctx, sendRequest_dxn]
    change ((s.setCtx c (nextFar (s.ctx c) w).2).ctx c).status = _
    rw [hx]
    exact hrun
  · rw [State.ctx, sendRequest_dxn]
    change ((s.setCtx c (nextFar (s.ctx c) w).2).ctx c).code = _
    rw [hx]
    rfl

theorem pegWrite_farRefused (h : s.Runs c w [] false) (hfar : 8 ≤ pScope w)
    (hno : s.rd R.FWD_FAR_PREFIX = 0 ∨ sget 0 (s.ctx c).far (pScope w % 4) = 0) :
    s.Raises c 0xB (BitVec.ofNat 64 (pPeg w)) (s.pegWrite c w set) :=
  State.issue_fault h.1 ((if_pos hfar).trans (if_pos hno.symm))

end

/-! ## The target -/

section
variable {m : FarMsg} {e : FarStream} {s : State}

theorem farTarget_new (hnone : (s.fwd.farStreams.find? fun e => e.isOf m) = none) (hroom : s.fwd.farStreams.length < 16384) :
    s.farTarget m = s.farStep m (m.entry s.mono) := by
  have hr : s.farRoom = some s := if_pos hroom
  unfold State.farTarget
  rw [hnone]
  dsimp only
  rw [hr]

theorem farTarget_known (hsome : (s.fwd.farStreams.find? fun x => x.isOf m) = some e) (hinc : e.incarnation.toNat = m.incarnation) :
    s.farTarget m = s.farStep m e := by
  unfold State.farTarget
  rw [hsome]
  exact if_pos hinc

theorem diff32_self {a : Nat} : diff32 a a = 0 := by simp [diff32]

/-- Where no request is missing, a stream's entry is only touched before its request is read. -/
theorem farStep_inOrder (hold : diff32 m.oldest 1 = e.h.toNat) (href : e.refused = []) :
    s.farStep m e = let d := diff32 m.seq e.h.toNat
      let e := { e with lastAt := s.mono }
      if d = 0 ∨ 2 ^ 31 ≤ d then (s.putFarStream m e).sendAck m 3
      else if 2 ≤ d then (s.putFarStream m e).sendAck m 5
      else
        let r := s.applyFar m.domain m.peg (m.op == 1) (BitVec.ofNat 64 m.value)
        let q := BitVec.ofNat 32 m.seq
        (r.2.putFarStream m { e with h := q, refused := if r.1 = 0 then [] else [q] }).sendAck m r.1 := by
  obtain ⟨sender, agent, who, slot, inc, h, lastAt, refused⟩ := e
  dsimp only at hold href
  subst href
  unfold State.farStep
  dsimp only
  have hskip : ¬ (1 ≤ 0 ∧ 0 < 2 ^ 31) := by decide
  rw [hold, diff32_self, if_neg hskip]
  simp

theorem applyFar_applies (hpeg : 1024 ≤ m.peg) (hdom : m.domain = 0 ∨ (s.pegDom m.peg).toNat = m.domain) :
    s.applyFar m.domain m.peg (m.op == 1) (BitVec.ofNat 64 m.value) =
      (0, if m.op = 1 then s.setPeg m.peg (BitVec.ofNat 64 m.value) else s.addPeg m.peg (BitVec.ofNat 64 m.value)) := by
  unfold State.applyFar
  rw [if_neg (by omega), if_neg (by omega)]
  simp

theorem applyFar_refuses (hno : m.peg < 1024 ∨ (m.domain ≠ 0 ∧ (s.pegDom m.peg).toNat ≠ m.domain)) (set : Bool) (v : Word) :
    s.applyFar m.domain m.peg set v = (if m.peg < 1024 then 2 else 1, s) := by
  unfold State.applyFar
  split
  · rfl
  · rw [if_pos (hno.resolve_left ‹_›)]

end

/-! ## Messages -/

section
variable {msg : Bytes} {m : FarMsg} {s : State}

theorem farReceive_of (hprefix : s.rd R.FWD_FAR_PREFIX ≠ 0) (hm : parseFar msg = some m) :
    s.farReceive 0 msg = if m.kind = 1 then s.farTarget m else s.farAck m := by
  unfold State.farReceive
  rw [if_neg hprefix, hm]

theorem exec_farPegAck {o : LongOp} (hprefix : s.rd R.FWD_FAR_PREFIX ≠ 0) (hm : parseFar msg = some m) (hkind : m.kind = 2)
    (hsender : m.sender = s.identity.toNat) (ho : s.farOp? m = some o) :
    exec (.farPegAck msg) s = .next (s.farResult o m.peg m.result) := by
  refine congrArg Host.Outcome.next ?_
  rw [farReceive_of hprefix hm, if_neg (by omega)]
  unfold State.farAck
  rw [if_neg (not_not.2 hsender), ho]

/-- An acknowledgement that says busy or deferred counts as absent. -/
theorem farReceive_absent (hm : parseFar msg = some m) (hkind : m.kind = 2) (hr : m.result = 4 ∨ m.result = 5) :
    s.farReceive 0 msg = s := by
  unfold State.farReceive
  split
  · rfl
  · rw [hm]
    dsimp only
    rw [if_neg (by omega)]
    unfold State.farAck
    split
    · rfl
    · split
      · unfold State.farResult
        rw [if_neg (by omega), if_neg (by omega)]
      · rfl

theorem exec_farPegRetry {op f tries : Nat} {target v : Word} {q : BitVec 32} {p : BitVec 16} {set : Bool} {o : LongOp}
    (ho : s.longOp? op = some o) (hk : o.kind = .farPeg f target q p set v tries none) :
    exec (.farPegRetry op) s = if tries < s.fld R.CMD_FAR_CTRL F.CMD_FAR_CTRL_RETRIES then
        .next ((s.updLong op fun y => { y with kind := .farPeg f target q p set v (tries + 1) none }).sendRequest o)
      else .next (s.failLong o 0xA (BitVec.ofNat 64 p.toNat)) := by
  change execFarPegRetry op s = _
  unfold execFarPegRetry
  rw [ho]
  dsimp only
  rw [hk]
  rfl

end

theorem exec_farPegEntryEvict {sender : Word} {agent : BitVec 4} {who : BitVec 16} {slot : Fin 4} {e : FarStream} {s : State}
    (h1 : e.sender = sender) (h2 : e.agent = agent) (h3 : e.who = who) (h4 : e.slot = slot.val)
    (hidle : e.lastAt + 10000000000 ≤ s.mono) : Answers (exec (.farPegEntryEvict sender agent who slot) s) fun t =>
      e ∉ t.fwd.farStreams ∧ (∀ x ∈ s.fwd.farStreams, s.mono < x.lastAt + 10000000000 → x ∈ t.fwd.farStreams) ∧
      t = { s with fwd := { s.fwd with farStreams := t.fwd.farStreams } } := by
  refine ⟨_, rfl, fun hmem => ?_, fun x hx hnew => List.mem_filter.2 ⟨hx, ?_⟩, rfl⟩
  · have hkept := (List.mem_filter.1 hmem).2
    have hold : decide (e.lastAt + tenSeconds ≤ s.mono) = true := decide_eq_true hidle
    simp [h1, h2, h3, h4, hold] at hkept
  · have hyoung : decide (x.lastAt + tenSeconds ≤ s.mono) = false := decide_eq_false (Nat.not_le.2 hnew)
    simp [hyoung]

/-- Settles O34: a request issues by `pegWrite_far`; at its target `farStep_inOrder` says what an in-order entry does with it. -/
theorem farPegs : Obligations.FarPegs := by
  unfold Obligations.FarPegs
  refine ⟨
    fun c body s w hw h hf hp ht ho hn => by subst hw; exact ⟨_, rfl, pegWrite_far h hf hp ht ho hn⟩,
    fun c body s w hw h hf hno => by subst hw; exact ⟨_, rfl, pegWrite_farRefused h hf hno⟩,
    fun c body s w hw h hf hp ht ho hn => by subst hw; exact ⟨_, rfl, pegWrite_far h hf hp ht ho hn⟩,
    fun c body s w hw h hf hno => by subst hw; exact ⟨_, rfl, pegWrite_farRefused h hf hno⟩,
    fun msg m s hp hm hk => congrArg Host.Outcome.next ((farReceive_of hp hm).trans (if_pos hk)),
    fun m s hn hr => farTarget_new hn hr,
    fun m e s hs hi => farTarget_known hs hi,
    ?applied, ?refused, ?repeated, ?deferred,
    fun msg m o s hp hm hk hs ho hr => by rw [exec_farPegAck hp hm hk hs ho, State.farResult, if_pos hr],
    fun msg m o s hp hm hk hs ho hr => by
      rw [exec_farPegAck hp hm hk hs ho, State.farResult, if_neg (by omega), if_pos hr]
      rfl,
    fun msg m s hm hk hr => congrArg Host.Outcome.next (farReceive_absent hm hk hr),
    fun op f tries target v q p set o s ho hk hlt => (exec_farPegRetry ho hk).trans (if_pos hlt),
    fun op f tries target v q p set o s ho hk hle => (exec_farPegRetry ho hk).trans (if_neg (by omega)),
    fun sender agent who slot e s _ h1 h2 h3 h4 h5 => exec_farPegEntryEvict h1 h2 h3 h4 h5⟩
  case applied =>
    intro m e s hold hd href hpeg hdom
    rw [farStep_inOrder hold href]
    dsimp only
    rw [if_neg (by omega), if_neg (by omega), applyFar_applies hpeg hdom]
    dsimp only
    rw [if_pos rfl, href]
  case refused =>
    intro m e s hold hd href hno
    rw [farStep_inOrder hold href]
    dsimp only
    rw [if_neg (by omega), if_neg (by omega), applyFar_refuses hno]
    dsimp only
    rw [if_neg (by split <;> decide)]
  case repeated =>
    intro m e s hold hd href
    rw [farStep_inOrder hold href]
    dsimp only
    rw [if_pos (by omega)]
  case deferred =>
    intro m e s hold hd hlt href
    rw [farStep_inOrder hold href]
    dsimp only
    rw [if_neg (by omega), if_pos hd]

end Sys2Proof.Proofs
end

section
/-! PROOF. Block moves (spec/05 R142 to R145): their issue, and what the completion of a long operation does. -/

namespace Sys2Proof.Proofs
open Sys2Proof Sys2Proof.Machine

/-! ## What raises -/

theorem blockFault_none (s : State) : blockFault s [] = none := rfl

theorem blockFault_single (s : State) {k : Nat} (hk : k ≤ 255) (a : Word) : blockFault s [(k, a)] = some (.fault s k a) := by
  have hbest : [(k, a)].foldl (fun b x => min b x.1) 255 = k := Nat.min_eq_right hk
  have hfilter : [(k, a)].filter (fun x => x.1 == k) = [(k, a)] := by simp
  unfold blockFault
  rw [hbest]
  dsimp only
  rw [hfilter]

theorem code_of_mem_raiseIf {b : Bool} {code : Nat} {a : Word} {x : Nat × Word} (h : x ∈ raiseIf b code a) : x.1 = code := by
  unfold raiseIf at h
  split at h
  · rw [List.mem_singleton.1 h]
  · simp at h

theorem code_of_mem_operandFaults {s : State} {c : Ctx} {allowed : Nat → Bool} {space n align : Nat} {a : Word} {x : Nat × Word}
    (h : x ∈ s.operandFaults c allowed space a n align) : x.1 ≤ 6 := by
  unfold State.operandFaults at h
  split at h
  · rcases List.mem_append.1 h with h | h <;> exact (code_of_mem_raiseIf h).le.trans (by decide)
  · exact (code_of_mem_raiseIf h).le.trans (by decide)

/-! ## Issue -/

section
variable {s : State} {c : Ctx} {w : Nat} {locks : List Lock}

theorem addLongOrDone_pos (s : State) (c : Ctx) (kind : LongKind) {n : Nat} (hn : 0 < n) :
    s.addLongOrDone c kind n = s.addLong c kind [] := if_neg (by omega)

/-- A block move that raises nothing and moves something. -/
theorem blockMove_steps {l : List (Nat × Word)} {kind : LongKind} {n : Nat} {k : State → Context → Res} (h : s.Runs c w locks true)
    (hk : k s (s.ctx c) = match blockFault s l with | some r => r | none => .go (s.addLongOrDone c kind n)) (hl : l = [])
    (hn : 0 < n) : s.Steps c (s.addLong c kind []) (s.issue c w locks true k) := by
  refine addLong_steps h ?_
  rw [hk, hl, blockFault_none, addLongOrDone_pos s c kind hn]

end

/-! ## Completion -/

section
variable {s : State} {op : Nat} {o : LongOp} {read : HostRead} {errs : List LineErr}

/-- What a long operation does when it completes, by its kind. -/
theorem exec_longOpComplete (h : s.longOp? op = some o) (read : HostRead) (errs : List LineErr) :
    exec (.longOpComplete op read errs) s = .next (match o.kind with
      | .move sp dp src dst n => s.doMove o sp dp src dst n read errs
      | .fill sp a v w n => s.doFill o sp a v w n
      | .xmove i t l d n sp => s.doXmove o i t l d n sp read errs
      | .tdma b t r src n sp => s.doTdma o b t r src n sp read errs
      | .vload v sp a w n => s.doVload o v sp a (w * n) read errs
      | .vstore d sp a => (s.spaceWrite o.ctx sp a.toNat d).completeLong o
      | .tload t sp a => s.doTload o t sp a read errs
      | .tstore d sp a => (s.spaceWrite o.ctx sp a.toNat d).completeLong o
      | .areg a v f => ((s.setA o.ctx a v).setCtx o.ctx ((s.ctx o.ctx).addFlags f)).completeLong o
      | .treg t v f => ((s.setT o.ctx t v).setCtx o.ctx ((s.ctx o.ctx).addFlags f)).completeLong o
      | .vreg v x f => ((s.setV o.ctx v x).setCtx o.ctx ((s.ctx o.ctx).addFlags f)).completeLong o
      | .send _ _ => s
      | .sendm _ sp a =>
        if sp = 1 ∧ (s.devRead a.toNat 4096 errs).2.2 then (s.devRead a.toNat 4096 errs).1.failLongMem o else s
      | .recv p t => s.doRecv o p fun s b => s.setT o.ctx t (tileOf b)
      | .recvm p sp a => s.doRecv o p fun s b => s.spaceWrite o.ctx sp a.toNat b
      | .farPeg _ _ _ p _ _ _ out => match out with
        | some r => s.farResult o p.toNat r
        | none => s
      | k => match o.ctx with
        | .b e sl => match k with
          | .cacc chunk _ => s.doCacc o e sl chunk
          | .cemit chunk a => s.doCemit o e sl chunk a errs
          | .cgath chunk => s.doCgath o e sl chunk
          | .capply chunk _ _ => s.doCapply o e sl chunk
          | .cbar step => s.doCbar o e sl step
          | .cring step => s.doCring o e sl step
          | _ => s
        | _ => s) := by
  change execLongOpComplete op read errs s = _
  unfold execLongOpComplete
  rw [h] <;> rfl

theorem doRecv_tile {p t k : Nat} {tile : Bytes} {rest : List Bytes} (hk : k = portKey (tenonOf o.ctx) p)
    (hfirst : (s.recvsOn k).head?.map LongOp.id = some o.id) (hrx : (s.stream k).rx = tile :: rest) :
    (s.doRecv o p fun s b => s.setT o.ctx t (tileOf b)) =
      ((s.setStream k { s.stream k with rx := rest }).setT o.ctx t (tileOf tile)).completeLong o := by
  subst hk
  unfold State.doRecv
  dsimp only
  rw [if_neg (not_not.2 hfirst), hrx]

theorem copyUnits_some {unit n k : Nat} {rd : State → Nat → State × Option Bytes} {wr : State → Nat → Bytes → State} {b : Bytes}
    {u : State} (h : rd s (k * unit) = (u, some b)) : copyUnits unit rd wr (n + 1) k s = copyUnits unit rd wr n (k + 1) (wr u (k * unit) b) := by
  rw [copyUnits, h]

theorem copyUnits_none {unit n k : Nat} {rd : State → Nat → State × Option Bytes} {wr : State → Nat → Bytes → State}
    {u : State} (h : rd s (k * unit) = (u, none)) : copyUnits unit rd wr (n + 1) k s = (u, false) := by
  rw [copyUnits, h]

end

/-- Settles O36: `blockMove_steps` for the issue, `exec_longOpComplete` for the completion. -/
theorem blockMoves : Obligations.BlockMoves := by
  unfold Obligations.BlockMoves
  refine ⟨
    fun c body s w hw h hl hn => by subst hw; exact ⟨_, rfl, blockMove_steps h rfl hl hn⟩,
    fun c body s w hw h hl hn => by subst hw; exact ⟨_, rfl, blockMove_steps h rfl hl hn⟩,
    fun c body s w hw h hl hn => by subst hw; exact ⟨_, rfl, blockMove_steps h rfl hl hn⟩,
    ?tdma, ?raises, fun s c kind o ho => ?none,
    fun op sp dp n src dst read errs o s ho hk => by rw [exec_longOpComplete ho, hk]; rfl,
    fun op sp wd n dst v read errs o s ho hk => by rw [exec_longOpComplete ho, hk]; rfl,
    fun op n sp target loc dev read errs o s ho hk => by rw [exec_longOpComplete ho, hk]; rfl,
    fun op n sp target loc dev read errs o s ho hk => by rw [exec_longOpComplete ho, hk]; rfl,
    ?rows,
    fun unit n k rd wr b u s h => copyUnits_some h,
    fun unit n k rd wr u s h => copyUnits_none h,
    fun s o => ⟨rfl, rfl⟩,
    fun op a v f read errs o s ho hk => by rw [exec_longOpComplete ho, hk],
    fun op a v f read errs o s ho hk => by rw [exec_longOpComplete ho, hk],
    fun op a v f read errs o s ho hk => by rw [exec_longOpComplete ho, hk], ?recv⟩
  case tdma =>
    intro c body t b r s w hw h hl ht hn
    subst hw
    refine ⟨_, rfl, addLong_steps h ?_⟩
    dsimp only
    rw [hl, blockFault_none]
    dsimp only
    rw [ht]
    exact congrArg Res.go (addLongOrDone_pos s c _ hn)
  case raises =>
    intro c body k a s w hw h hl
    subst hw
    have hmem : (k, a) ∈ s.operandFaults c moveDst (dstSpace (dxnWord 0x89 body)) ((s.ctx c).reg (wA (dxnWord 0x89 body)))
        ((s.ctx c).reg (wC (dxnWord 0x89 body))).toNat 64 ++ raiseIf (((s.ctx c).reg (wC (dxnWord 0x89 body))).toNat % 64 != 0) 6
        ((s.ctx c).reg (wA (dxnWord 0x89 body))) := by rw [hl]; exact List.mem_cons_self
    have hk : k ≤ 6 := by
      rcases List.mem_append.1 hmem with hm | hm
      · exact code_of_mem_operandFaults hm
      · exact (code_of_mem_raiseIf hm).le
    refine ⟨_, rfl, State.issue_fault h.1 ?_⟩
    dsimp only
    rw [hl, blockFault_single s (by omega)]
  case none =>
    unfold State.addLongOrDone
    dsimp only
    rw [if_pos rfl, ho]
  case rows =>
    intro op b t r n sp src read errs o s ho hk hret
    rw [exec_longOpComplete ho, hk]
    exact congrArg Host.Outcome.next (if_neg (by rw [hret]; decide))
  case recv =>
    intro op p t k tile rest read errs o s ho hkind hk hfirst hrx
    rw [exec_longOpComplete ho, hkind]
    exact congrArg Host.Outcome.next (doRecv_tile hk hfirst hrx)

end Sys2Proof.Proofs
end

section
/-! PROOF. Control flow, exceptions and the end of a context (spec/04 R115 to R127; spec/05 Tables 5.10, 5.15). -/

namespace Sys2Proof.Proofs
open Sys2Proof Sys2Proof.Machine

/-! ## Branches -/

theorem takeTarget_jump {s : State} {x : Context} {t : Int} (h0 : 0 ≤ t) (hlt : t < x.code.length) :
    takeTarget s x t = .jump s t.toNat := by
  unfold takeTarget
  rw [if_pos ⟨h0, hlt⟩]

theorem takeTarget_fault {s : State} {x : Context} {t : Int} (h : (x.code.length : Int) ≤ t) : takeTarget s x t = .fault s 7 0 := by
  unfold takeTarget
  rw [if_neg (by omega)]

section
variable {s : State} {c : Ctx} {w : Nat}

/-- The state of an instruction that may leave the next index in g31. -/
def linked (s : State) (c : Ctx) (link : Prop) [Decidable link] : State :=
  if link then s.setCtx c ((s.ctx c).setReg 31 (BitVec.ofNat 64 ((s.ctx c).pc + 1))) else s

theorem linked_ctx (h : (s.ctx c).status = .running) (link : Prop) [Decidable link] : SameRun (s.ctx c) ((linked s c link).ctx c) := by
  unfold linked
  split
  · have hx := (SameRun.refl (s.ctx c)).setReg 31 (BitVec.ofNat 64 ((s.ctx c).pc + 1))
    rw [State.ctx_setCtx_self s c _ (by rw [hx.1, h]; decide)]
    exact hx
  · exact .refl _

/-- An instruction that takes a target, with a link or without. -/
theorem link_goesTo {link : Prop} [Decidable link] {pc : Nat} {k : State → Context → Res} (h : s.Runs c w [] false) (hf : s.Fetches c pc)
    (hk : k s (s.ctx c) = .jump (linked s c link) pc) : (linked s c link).GoesTo c pc (s.issue c w [] false k) := by
  obtain ⟨hstatus, hcode⟩ := linked_ctx h.1.1 link
  exact State.issue_jump h.1 hk (hstatus.trans h.1.1) (hf.of_code hcode)

end

/-- A write of a register leaves the floating flags. -/
theorem setReg_with_fflags (x : Context) (d : Nat) (v : Word) : { x.setReg d v with fflags := x.fflags } = x.setReg d v := by
  unfold Context.setReg
  split <;> rfl

/-! ## The end of a context, and exceptions -/

section
variable {s : State} {c : Ctx}

theorem setCtx_opsOf (s : State) (c d : Ctx) (x : Context) : (s.setCtx c x).opsOf d = s.opsOf d := rfl

theorem endAsEnd_idle (hops : s.opsOf c = []) :
    s.endAsEnd c = (s.setCtx c { s.ctx c with status := .stopping, wait := none, stalled := false, endIssued := true }).endCtx c := by
  unfold State.endAsEnd
  extract_lets x _
  exact if_pos (by rw [setCtx_opsOf, hops]; rfl)

theorem tryEnd_of_ops (h : s.opsOf c ≠ []) : s.tryEnd c = s := if_neg fun hend => h (List.isEmpty_iff.1 hend.2.1)

theorem faultLog_dxn (s : State) (code agent : Nat) (domain : BitVec 12) (index who : Nat) (info : Word) :
    (s.faultLog code agent domain index who info).dxn = s.dxn := by
  unfold State.faultLog State.logEntry State.incFld
  simp

theorem faultLog_rd (s : State) (code agent : Nat) (domain : BitVec 12) (index who : Nat) (info : Word) {o : Nat}
    (ho : R.CMD_FAULT 64 ≤ o) : (s.faultLog code agent domain index who info).rd o = s.rd o := by
  unfold State.faultLog
  refine State.logEntry_rd _ _ _ (by decide) ?_ fun k hk => ?_
  · simp only [R.CMD_FAULT, R.CMD_FAULT_HEAD] at ho ⊢
    omega
  · simp only [R.CMD_FAULT, R.CMD_FAULT_INFO] at ho ⊢
    omega

theorem trussOf_congr {t : State} (h : ∀ o, R.CMD_FAULT 64 ≤ o → t.rd o = s.rd o) (c : Ctx) : t.trussOf c = s.trussOf c := by
  unfold State.trussOf
  split
  case h_1 q row col n =>
    have hrd := h (R.TEN_TENON q row col) (by simp only [R.CMD_FAULT, R.TEN_TENON]; omega)
    simp only [State.flag, State.fld, hrd] <;> rfl
  case h_2 => rfl

/-- An exception of a context without item or truss, with operations outstanding. -/
theorem except_plain {code index : Nat} {info : Word} (hrun : (s.ctx c).status = .running) (hitem : (s.ctx c).item = none)
    (htruss : s.trussOf c = none) (hops : s.opsOf c ≠ []) : s.except c code index info =
      (let u := (s.faultLog code (profileOf c) (s.ctx c).domain index (whoOf c) info).setCtx c
        { s.ctx c with status := .stopping, wait := none, stalled := false, endIssued := false }
      let u := if profileOf c = 3 then u else u.addPeg (s.ctx c).faultPeg.toNat 1
      if profileOf c = 1 then u.count (ctrTenon (tenonOf c) 3) else u) := by
  have hcan : s.canFault c = true := by
    simp [State.canFault, hrun]
  unfold State.except
  rw [if_neg (by rw [hcan]; decide)]
  extract_lets x t u v y z a u' v'
  have hv : v = u := by
    change (match (s.ctx c).item with | some i => _ | none => u) = u
    rw [hitem]
  have hu : u' = u := rfl
  have ht : t.dxn = s.dxn := faultLog_dxn ..
  have hrd : ∀ o, R.CMD_FAULT 64 ≤ o → t.rd o = s.rd o := fun o ho => faultLog_rd _ _ _ _ _ _ _ ho
  clear_value u' t
  have hyz : z.regs = t.regs ∧ z.dxn.longOps = t.dxn.longOps := by
    have hy : y.regs = t.regs ∧ y.dxn.longOps = t.dxn.longOps := by
      simp only [y, hv]
      split <;> exact ⟨rfl, rfl⟩
    simp only [z]
    split <;> exact hy
  have hops' : z.opsOf c ≠ [] := by
    rw [State.opsOf, hyz.2, ht]
    exact hops
  have ha : a = z := by
    have hnone : z.trussOf c = none :=
      (trussOf_congr (fun o ho => (State.rd_congr hyz.1 o).trans (hrd o ho)) c).trans htruss
    change (match z.trussOf c with | some n => z.trussFault n | none => z) = z
    rw [hnone]
  rw [ha, tryEnd_of_ops hops']
  simp only [z, y, hv, v', hu]
  rfl

/-! ## The end of a tenon's context -/

theorem endCtx_tenon (s : State) (q : Fin 4) (row : Fin 30) (col : Fin 32) (n : Fin 4) :
    s.endCtx (.t q row col n) = (s.setCtx (.t q row col n) {}).dropFlushed := rfl

theorem setCtx_free {s : State} (h : swf (fun _ => {}) s.dxn.ctxs = true) (c : Ctx) : (s.setCtx c {}).ctx c = {} :=
  sget_sset_self (ctxKey c) ({} : Context) h

end

/-- Settles O37. -/
theorem controlAndExceptions : Obligations.ControlAndExceptions := by
  unfold Obligations.ControlAndExceptions
  refine ⟨?taken, ?untaken, ?range, ?jr, ?dbnz, ?dbnzEnd, ?endInstr, ?ended, fun c s _ hops => endAsEnd_idle hops, ?freed, ?limit,
    fun n s h => congrArg Host.Outcome.next (if_pos h), ?except, ?illegal, ?encoding, ?locked,
    fun c body s w hw h => by subst hw; exact ⟨_, rfl, keeps_ctx_steps h rfl rfl⟩,
    fun c body s w hw h => by subst hw; exact ⟨_, rfl, State.issue_fault h rfl⟩, ?fflags,
    fun c body s w hw h => by subst hw; exact ⟨_, rfl, State.issue_sets h rfl rfl rfl⟩,
    fun c body s w hw h => by
      subst hw; exact ⟨_, rfl, State.issue_sets h rfl ((SameRun.refl _).setReg ..).1 ((SameRun.refl _).setReg ..).2⟩,
    fun c body s w hw h => by
      subst hw; exact ⟨_, rfl, State.issue_sets h rfl ((SameRun.refl _).setReg ..).1 ((SameRun.refl _).setReg ..).2⟩,
    fun c body s w hw h => by
      subst hw; exact ⟨_, rfl, State.issue_sets h rfl ((SameRun.refl _).setReg ..).1 ((SameRun.refl _).setReg ..).2⟩,
    fun c body s w hw h => by
      subst hw; exact ⟨_, rfl, State.issue_sets h rfl ((SameRun.refl _).setReg ..).1 ((SameRun.refl _).setReg ..).2⟩⟩
  case taken =>
    intro c body s w hw h h1 h2 h0 hlt hf
    subst hw
    have hgo : ¬ ((bitsOf (dxnWord 0xA0 body) 55 52 = 1 ∧ (s.ctx c).pred (bitsOf (dxnWord 0xA0 body) 50 48) = false) ∨
        (bitsOf (dxnWord 0xA0 body) 55 52 = 2 ∧ (s.ctx c).pred (bitsOf (dxnWord 0xA0 body) 50 48) = true)) := by
      rintro (⟨hc, hp⟩ | ⟨hc, hp⟩)
      · simp [h1 hc] at hp
      · simp [h2 hc] at hp
    refine ⟨_, rfl, link_goesTo (link := bitsOf (dxnWord 0xA0 body) 55 52 = 3) h hf ?_⟩
    dsimp only
    rw [if_neg hgo, takeTarget_jump h0 hlt]
    rfl
  case untaken =>
    intro c body s w hw h hno
    subst hw
    exact ⟨_, rfl, keeps_ctx_steps h rfl (if_pos hno)⟩
  case range =>
    intro c body s w hw h hc hout
    subst hw
    refine ⟨_, rfl, State.issue_fault h.1 ?_⟩
    dsimp only
    rw [if_neg (by omega), takeTarget_fault hout]
  case jr =>
    intro c body s w hw h hlt hf
    subst hw
    refine ⟨_, rfl, link_goesTo (link := bitOf (wM (dxnWord 0xA1 body)) 0 = true) h hf ?_⟩
    rw [takeTarget_jump (Int.natCast_nonneg _) (by exact_mod_cast hlt)]
    rfl
  case dbnz =>
    intro c body s w hw h hv h0 hlt hf
    subst hw
    have hx := (SameRun.refl (s.ctx c)).setReg (wD (dxnWord 0xA2 body)) ((s.ctx c).reg (wD (dxnWord 0xA2 body)) - 1)
    have hself := State.ctx_setCtx_self s c _ (by rw [hx.1, h.1.1]; decide)
    refine ⟨_, rfl, State.issue_jump h.1 ?_ (by rw [hself, hx.1]; exact h.1.1) (hf.of_code (by rw [hself, hx.2]))⟩
    dsimp only
    rw [if_neg (by rwa [sub_eq_zero]), takeTarget_jump h0 hlt]
  case dbnzEnd =>
    intro c body s w hw h hv
    subst hw
    obtain ⟨hstatus, hcode⟩ := (SameRun.refl (s.ctx c)).setReg (wD (dxnWord 0xA2 body)) 0
    refine ⟨_, rfl, State.issue_sets h ?_ hstatus hcode⟩
    dsimp only
    rw [hv]
    rfl
  case endInstr =>
    intro c body s w hw h
    subst hw
    exact ⟨_, rfl, s.issue_eq c _ [] false _ h⟩
  case ended =>
    intro c s hs he hops ha
    exact congrArg Host.Outcome.next (if_pos ⟨hs, he, by rw [hops]; rfl, ha⟩)
  case freed =>
    intro q row col n s h
    rw [endCtx_tenon]
    refine ⟨?_, fun d hd => ?_, rfl⟩
    · change ((s.setCtx (.t q row col n) {}).ctx (.t q row col n)).status = .free
      rw [setCtx_free h]
    · exact State.ctx_setCtx_of_ne s ({} : Context) hd
  case limit =>
    intro n s hl hs
    have hload : (s.ctx (.c n)).status ≠ .loading := by rcases hs with hs | hs <;> rw [hs] <;> decide
    exact congrArg Host.Outcome.next ((if_neg hl).trans ((if_neg hload).trans (if_pos hs)))
  case except => exact fun c code index info s hrun hitem htruss hops => except_plain hrun hitem htruss hops
  case illegal =>
    intro c body s w k hw hrun hcode hfault
    subst hw
    refine ⟨_, rfl, ?_⟩
    unfold State.Raises State.scalar State.issue
    dsimp only
    rw [if_neg (by simp [hrun, hcode]), hfault]
  case encoding =>
    intro profile version w
    simp [encodingFault]
  case locked =>
    intro c body s w locks hw hl hrun hcode hfault hlocked
    subst hw hl
    refine ⟨_, rfl, ?_⟩
    unfold State.Stalls State.vector State.issue
    dsimp only
    rw [if_neg (by simp [hrun, hcode]), hfault]
    dsimp only
    rw [if_pos (.inl hlocked)]
    rfl
  case fflags =>
    intro c body s w hw h
    subst hw
    have hx := (SameRun.refl (s.ctx c)).setReg (wD (dxnWord 0xF2 body)) ((s.ctx c).fflags.setWidth 64)
    refine ⟨_, rfl, State.issue_sets h ?_ hx.1 hx.2⟩
    dsimp only
    split
    · rfl
    · rw [setReg_with_fflags]

end Sys2Proof.Proofs
end

section
/-! PROOF. Manager instructions: an image whose first word no command spells ends its context at once. -/

namespace Sys2Proof.Proofs
open Sys2Proof Sys2Proof.Machine

/-- A tenon's context. -/
def tenonCtx0 : Ctx := .t 0 0 0 0

/-- A context that starts on a word no command spells raises ILLEGAL_INSTRUCTION and ends: it is free again. -/
theorem startTenon_unassigned :
    ((State.reset.startTenon tenonCtx0 1 0 0 [0] [] 0 0).ctx tenonCtx0).domain = 0 := by decide +kernel

/-- Refutes O38: the clause on what a started context holds leaves out the check of its first word. On the code `[0]`, whose word no
command spells, the context of domain 1 raises an exception as it starts, ends, and holds no domain. -/
theorem not_managerInstructions : ¬ Obligations.ManagerInstructions := by
  unfold Obligations.ManagerInstructions
  rintro ⟨-, -, -, hstart, -⟩
  obtain ⟨hdomain, -⟩ := hstart tenonCtx0 1 0 0 [0] 0 0 State.reset (by decide)
  rw [startTenon_unassigned] at hdomain
  exact absurd hdomain (by decide)

end Sys2Proof.Proofs
end

section
/-! PROOF. Collective instructions (spec/09 R262 to R267): their issue in a B context, and what completes them. -/

namespace Sys2Proof.Proofs
open Sys2Proof Sys2Proof.Machine

/-! ## Slots -/

/-- A slot with an operation reads as it was set. -/
theorem slot_setSlot_self (s : State) (e sl : Nat) {x : Slot} (h : x.op ≠ 0) : (s.setSlot e sl x).slot e sl = x := by
  have hx : x ≠ {} := fun he => h (by rw [he]; decide)
  unfold State.slot State.setSlot sset
  simp only [hx, if_false]
  exact sget_sput_self _ _ _ _

/-- Where nothing came early, nothing is taken. -/
theorem takeEarly_dxn {s : State} {e sl : Nat} (chunk : Nat) (errs : List LineErr) (hearly : (s.slot e sl).early = [])
    (hdropped : (s.slot e sl).dropped = []) : (s.takeEarly e sl chunk errs).dxn = s.dxn := by
  unfold State.takeEarly
  extract_lets x mine asked t u
  have hu : u = t := by
    change (x.early.filter mine).foldl _ t = t
    rw [show x.early = [] from hearly]
    rfl
  have hasked : asked = [] := by
    change x.dropped.filter _ = []
    rw [show x.dropped = [] from hdropped]
    rfl
  rw [hu, hasked]
  split <;> rfl

/-- A chunk begins, and nothing of it came early: the contexts stay. -/
theorem begun_ctx {s : State} {e sl : Nat} (chunk n : Nat) (k : Chunk) (kind : LongKind) (c d : Ctx) (errs : List LineErr)
    (hop : (s.slot e sl).op ≠ 0) (hearly : (s.slot e sl).early = []) (hdropped : (s.slot e sl).dropped = []) :
    ((((s.setSlot e sl ((s.slot e sl).setChunk chunk k)).addLong c kind []).takeEarly e sl n errs).ctx d) = s.ctx d := by
  have hslot : ((s.setSlot e sl ((s.slot e sl).setChunk chunk k)).addLong c kind []).slot e sl = (s.slot e sl).setChunk chunk k :=
    slot_setSlot_self s e sl hop
  rw [State.ctx, takeEarly_dxn n errs (by rw [hslot]; exact hearly) (by rw [hslot]; exact hdropped)]
  rfl

theorem accumCode_clean (addr n : Nat) : accumCode [] addr n = 0 := rfl

/-! ## Issue -/

section
variable {s : State} {e : Fin 8} {sl : Fin 1024} {w : Nat} {long : Bool} {ops : List Nat} {k : State → Context → Nat → Nat → Res}

/-- An instruction that its slot's operation is listed with goes on. -/
theorem issueColl_steps {u : State} (h : s.Runs (.b e sl) w [] long) (hop : (s.slot e sl).op ∈ ops)
    (hk : k s (s.ctx (.b e sl)) e sl = .go u) (hu : u.ctx (.b e sl) = s.ctx (.b e sl)) :
    s.Steps (.b e sl) u (s.issueColl (.b e sl) w ops long k) :=
  keeps_ctx_steps h hu ((if_pos (List.contains_iff_mem.2 hop)).trans hk)

theorem issueColl_halts {u : State} (h : s.Runs (.b e sl) w [] long) (hop : (s.slot e sl).op ∈ ops)
    (hk : k s (s.ctx (.b e sl)) e sl = .halt u) : s.issueColl (.b e sl) w ops long k = u.countIssued (.b e sl) := by
  unfold State.issueColl
  rw [s.issue_eq _ w [] long _ h.1]
  dsimp only
  rw [if_pos (List.contains_iff_mem.2 hop), hk]
  rfl

/-- An operation that the instruction is not listed with aborts. -/
theorem issueColl_badOperation (h : s.Runs (.b e sl) w [] long) (hop : (s.slot e sl).op ∉ ops) :
    s.issueColl (.b e sl) w ops long k = (s.bsnAbort e sl 9 0xFFFF 0xB).countIssued (.b e sl) := by
  unfold State.issueColl
  rw [s.issue_eq _ w [] long _ h.1]
  dsimp only
  rw [if_neg (by simpa using hop)]
  rfl

end

theorem fabricTile_dxn (s : State) (f : Nat) (b : Bytes) : (s.fabricTile f b).2.dxn = s.dxn := by
  unfold State.fabricTile
  split <;> rfl

theorem handTiles_dxn (s : State) (x : Slot) (chunk handoff cancel : Nat) (data : Bytes) :
    (s.handTiles x chunk handoff cancel data).2.dxn = s.dxn := by
  unfold State.handTiles
  extract_lets f n lead
  exact foldl_keeps (P := fun p : List Bytes × State => p.2.dxn = s.dxn) (fun p t _ hp => (fabricTile_dxn ..).trans hp) rfl

theorem hand_ctx (s : State) (c d : Ctx) (e sl ch chunk addr n : Nat) (t : Truss) : (s.hand c e sl ch chunk addr n t).ctx d = s.ctx d := by
  unfold State.hand
  extract_lets x off u h cancel f
  have hu : u.dxn = s.dxn := s.setFld_dxn ..
  have hv := handTiles_dxn u x chunk h cancel (encodeElems f (u.accumWords e sl addr 0 x.elems))
  generalize u.handTiles x chunk h cancel (encodeElems f (u.accumWords e sl addr 0 x.elems)) = q at hv ⊢
  have hctx : q.2.ctx d = s.ctx d := by rw [State.ctx, hv, hu, State.ctx]
  exact hctx

/-- Settles O39: `issueColl_steps` for the issue, `exec_longOpComplete` for the completion. -/
theorem collectiveInstructions : Obligations.CollectiveInstructions := by
  unfold Obligations.CollectiveInstructions
  refine ⟨?cacc, ?cemit, ?cgath, ?capply, ?cbar, ?cring, ?cabort, ?cstat, ?bad, ?caccEnd, ?caccWaits, ?cemitEnd, ?cgathEnd, ?cbarEnd,
    ?cringEnd, fun int reduce a x h => by subst h; rfl⟩
  case cacc =>
    intro e sl body s c w hc hw h hop hok hfirst hearly hdropped
    subst hc hw
    have hne : (s.slot e sl).op ≠ 0 := fun h0 => by simp [h0] at hop
    refine ⟨_, rfl, issueColl_steps h hop ((if_neg (by rw [hok]; decide)).trans (if_neg (by omega)))
      (begun_ctx _ _ _ _ _ _ _ hne hearly hdropped)⟩
  case cemit =>
    intro e sl body s c w hc hw h hop hok h1 h2
    subst hc hw
    exact ⟨_, rfl, issueColl_steps h hop ((if_neg (by rw [hok]; decide)).trans (if_neg (by simp [h1, h2]))) rfl⟩
  case cgath =>
    intro e sl body s c w hc hw h hop hin hstart hearly hdropped
    subst hc hw
    have hne : (s.slot e sl).op ≠ 0 := fun h0 => by simp [h0] at hop
    exact ⟨_, rfl, issueColl_steps h hop ((if_neg (by omega)).trans (if_neg (by rw [hstart]; decide)))
      (begun_ctx _ _ _ _ _ _ _ hne hearly hdropped)⟩
  case capply =>
    intro e sl body n s c w hc hw h hop htruss hdomain hok h3 h7 hstate hhanded
    subst hc hw
    refine ⟨_, rfl, issueColl_steps h hop ?_ (hand_ctx ..)⟩
    dsimp only
    rw [htruss]
    dsimp only
    rw [if_neg (by tauto), if_neg (by rw [hok]; decide), if_neg (by tauto), if_neg hstate, if_neg (by rw [hhanded]; simp),
      if_neg (by rw [accumCode_clean]; decide)]
  case cbar =>
    intro e sl body s c w hc hw h hop
    subst hc hw
    exact ⟨_, rfl, issueColl_steps h hop rfl rfl⟩
  case cring =>
    intro e sl body s c w hc hw h hop hcircuit
    subst hc hw
    exact ⟨_, rfl, issueColl_steps h hop (if_neg (by rw [hcircuit]; decide)) rfl⟩
  case cabort =>
    intro e sl body s c w hc hw h hop
    subst hc hw
    exact ⟨_, rfl, issueColl_halts h (List.mem_range.2 hop) rfl⟩
  case cstat =>
    intro e sl body s c w hc hw h hop
    subst hc hw
    obtain ⟨hstatus, hcode⟩ := (SameRun.refl (s.ctx (.b e sl))).setReg (wD (dxnWord 0xB7 body)) (s.rd (R.BSN_SLOT e sl))
    exact ⟨_, rfl, State.issue_sets h (if_pos (List.contains_iff_mem.2 (List.mem_range.2 hop))) hstatus hcode⟩
  case bad =>
    intro e sl body s c w hc hw h hop
    subst hc hw
    exact ⟨_, rfl, issueColl_badOperation h (by simpa using hop)⟩
  case caccEnd =>
    intro op e sl chunk read o s ho hc hk hmissing
    rw [exec_longOpComplete ho, hk, hc]
    exact congrArg Host.Outcome.next (if_pos (by rw [hmissing]; rfl))
  case caccWaits =>
    intro op e sl chunk read o s ho hc hk hmissing
    rw [exec_longOpComplete ho, hk, hc]
    exact congrArg Host.Outcome.next (if_neg (by simpa using hmissing))
  case cemitEnd =>
    intro op e sl chunk read o s ho hc hk
    rw [exec_longOpComplete ho, hk, hc]
    rfl
  case cgathEnd =>
    intro op e sl chunk read o s ho hc hk hmissing
    rw [exec_longOpComplete ho, hk, hc]
    exact congrArg Host.Outcome.next (if_pos (by rw [hmissing]; rfl))
  case cbarEnd =>
    intro op e sl chunk read o s ho hc hk hall
    rw [exec_longOpComplete ho, hk, hc]
    exact congrArg Host.Outcome.next (if_pos hall)
  case cringEnd =>
    intro op e sl chunk read o s ho hc hk hall
    rw [exec_longOpComplete ho, hk, hc]
    exact congrArg Host.Outcome.next (if_pos hall)

end Sys2Proof.Proofs
end

section
/-! PROOF. What sending a frame and freeing a stored one touch: the switch, the ports, the counters, what is sent, and the free values
(spec/08). -/

namespace Sys2Proof.Machine

/-- From one state to another only the switch, the ports, the counters, what is sent, the free values and the members last selected may
differ. -/
def State.Sends (s t : State) : Prop :=
  t = { s with out := t.out, ports := t.ports, swc := t.swc, cnt := t.cnt, free := t.free,
               fwd := { s.fwd with groupLast := t.fwd.groupLast } }

section
variable {s₀ s t : State}

theorem State.Sends.refl (s : State) : s.Sends s := rfl

theorem State.Sends.upd {o po sw cn fr} (h : s₀.Sends s) :
    s₀.Sends ⟨s.regs, s.board, s.lasers, s.sills, s.injecting, o, s.host, s.dxn, po, s.fwd, sw, s.bsn, s.ten, s.spl, s.tim, s.mem,
      s.pwr, s.sec, s.cfg, s.pln, s.ldg, cn, fr, s.pending⟩ := by
  unfold State.Sends at *
  rw [h]

theorem State.Sends.updLast {l} (h : s₀.Sends s) : s₀.Sends { s with fwd := { s.fwd with groupLast := l } } := by
  unfold State.Sends at *
  rw [h]

theorem State.Sends.regs (h : s₀.Sends s) : s.regs = s₀.regs := by rw [h]
theorem State.Sends.dxn (h : s₀.Sends s) : s.dxn = s₀.dxn := by rw [h]
theorem State.Sends.bsn (h : s₀.Sends s) : s.bsn = s₀.bsn := by rw [h]
theorem State.Sends.rd (h : s₀.Sends s) (o : Nat) : s.rd o = s₀.rd o := State.rd_congr h.regs o

theorem State.Sends.ite {c : Prop} [Decidable c] (hs : s₀.Sends s) (ht : s₀.Sends t) : s₀.Sends (if c then s else t) := by
  split
  · exact hs
  · exact ht

theorem State.Sends.foldl {α : Type} {f : State → α → State} {l : List α}
    (hf : ∀ t x, s₀.Sends t → s₀.Sends (f t x)) (h : s₀.Sends s) : s₀.Sends (l.foldl f s) :=
  foldl_keeps (fun t x _ ht => hf t x ht) h

theorem State.Sends.of_snd {α : Type} {p : α × State} {w : α} (h : s₀.Sends p.2) (e : p = (w, t)) : s₀.Sends t := by
  subst e; exact h

theorem State.Sends.foldl_snd {α β : Type} {f : β × State → α → β × State} {l : List α} {p : β × State}
    (hf : ∀ p x, s₀.Sends p.2 → s₀.Sends (f p x).2) (h : s₀.Sends p.2) : s₀.Sends (l.foldl f p).2 :=
  foldl_keeps (P := fun p : β × State => s₀.Sends p.2) (fun p x _ hp => hf p x hp) h

theorem State.Sends.sendFrame {p f} (h : s₀.Sends s) : s₀.Sends (s.sendFrame p f) := by
  unfold State.sendFrame
  exact .upd h

theorem State.Sends.countBy {key n} (h : s₀.Sends s) : s₀.Sends (s.countBy key n) := by
  unfold State.countBy
  extract_lets c _
  exact .upd h

theorem State.Sends.count {key} (h : s₀.Sends s) : s₀.Sends (s.count key) := by
  unfold State.count
  exact h.countBy

theorem State.Sends.setPort {p x'} (h : s₀.Sends s) : s₀.Sends (s.setPort p x') := by
  unfold State.setPort
  exact .upd h

theorem State.Sends.updFrame {id g} (h : s₀.Sends s) : s₀.Sends (s.updFrame id g) := by
  unfold State.updFrame
  exact .upd h

theorem State.Sends.store {f} (h : s₀.Sends s) : s₀.Sends (s.store f).2 := by
  unfold State.store
  exact .upd h

theorem State.Sends.setQueueKey {k l} (h : s₀.Sends s) : s₀.Sends (s.setQueueKey k l) := by
  unfold State.setQueueKey
  exact .upd h

theorem State.Sends.setQueue {p c l} (h : s₀.Sends s) : s₀.Sends (s.setQueue p c l) := by
  unfold State.setQueue
  exact h.setQueueKey

theorem State.Sends.place {p c id} (h : s₀.Sends s) : s₀.Sends (s.place p c id) := by
  unfold State.place
  extract_lets c1
  exact h.setQueue

theorem State.Sends.meshPush {l c} (h : s₀.Sends s) : s₀.Sends (s.meshPush l c) := by
  unfold State.meshPush
  extract_lets q q1 _
  exact .upd h

theorem State.Sends.spray {key a b n n'} (h : s₀.Sends s) : s₀.Sends (s.spray key a b n n') := by
  induction n generalizing s n' with
  | zero =>
    unfold State.spray
    exact h
  | succ n ih =>
    unfold State.spray
    exact ih h.meshPush

theorem State.Sends.startCross {id targets kind} (h : s₀.Sends s) : s₀.Sends (s.startCross id targets kind) := by
  unfold State.startCross
  split
  · extract_lets k r
    split
    · rename_i t e
      have h1 : s₀.Sends t := .of_snd h.store e
      extract_lets x r' _
      exact .spray (.upd h1)
  · exact h

theorem State.Sends.deliver {p c id} (h : s₀.Sends s) : s₀.Sends (s.deliver p c id) := by
  unfold State.deliver
  split
  · exact h
  · exact .ite h.place h.startCross

theorem State.Sends.mirrorCopy {n q b bad} (h : s₀.Sends s) : s₀.Sends (s.mirrorCopy n q b bad) := by
  unfold State.mirrorCopy
  extract_lets t b1 p c k
  split
  · exact h.count
  · split
    · rename_i t1 e
      have h1 : s₀.Sends t1 := .of_snd h.store e
      exact h1.deliver

theorem State.Sends.mirror {l copies q b bad} (h : s₀.Sends s) : s₀.Sends (s.mirror l copies q b bad).2 := by
  unfold State.mirror
  refine .foldl_snd (fun x n h1 => ?_) h
  split
  · exact h1.mirrorCopy
  · exact h1.count

theorem State.Sends.sendCounted {p f} (h : s₀.Sends s) : s₀.Sends (s.sendCounted p f) := by
  unfold State.sendCounted
  extract_lets f1
  exact h.sendFrame.count.countBy

theorem State.Sends.txFrame {p f} (h : s₀.Sends s) : s₀.Sends (s.txFrame p f) := by
  unfold State.txFrame
  exact h.sendCounted.mirror

theorem State.Sends.returnCells {p c n} (h : s₀.Sends s) : s₀.Sends (s.returnCells p c n) := by
  unfold State.returnCells
  split
  · exact h
  · extract_lets x v
    exact h.setPort

theorem State.Sends.sendPfc {p c quanta} (h : s₀.Sends s) : s₀.Sends (s.sendPfc p c quanta) := by
  unfold State.sendPfc
  extract_lets q s1
  have h1 : s₀.Sends s1 := .ite h h.count
  exact h1.txFrame

theorem State.Sends.pfcCheck {p c} (h : s₀.Sends s) : s₀.Sends (s.pfcCheck p c) := by
  unfold State.pfcCheck
  split
  · exact h
  · extract_lets x h1 t
    exact .ite h.setPort.sendPfc (.ite h.setPort.sendPfc h)

theorem State.Sends.rebalance {q} (h : s₀.Sends s) : s₀.Sends (s.rebalance q) := by
  unfold State.rebalance
  refine .foldl (fun t f h1 => ?_) h
  split
  · exact h1
  · extract_lets r k
    exact h1.updFrame.returnCells

theorem State.Sends.freeFrame {id} (h : s₀.Sends s) : s₀.Sends (s.freeFrame id) := by
  unfold State.freeFrame
  split
  · exact h
  · extract_lets _ s1 s11
    have h1 : s₀.Sends s1 := .upd h
    have h11 : s₀.Sends s11 := .ite h1.returnCells.pfcCheck h1
    exact h11.rebalance

theorem State.Sends.release {id} (h : s₀.Sends s) : s₀.Sends (s.release id) := by
  unfold State.release
  split
  · exact h
  · exact .ite h.freeFrame h.updFrame

theorem State.Sends.freeCell {id} (h : s₀.Sends s) : s₀.Sends (s.freeCell id) := by
  unfold State.freeCell
  split
  · exact h
  · extract_lets s1 s11
    have h1 : s₀.Sends s1 := h.updFrame
    have h11 : s₀.Sends s11 := .ite h1.returnCells.pfcCheck h1
    exact h11.rebalance

theorem State.Sends.draw (h : s₀.Sends s) : s₀.Sends s.draw.2 := by
  unfold State.draw
  exact .upd h

theorem State.Sends.emitInternal {q cls bytes route} (h : s₀.Sends s) :
    s₀.Sends (s.emitInternal q cls bytes route) := by
  unfold State.emitInternal
  exact .upd h

theorem State.Sends.engFrame {g op opSeq kind chunk code offset count sealCrc payload} (h : s₀.Sends s) :
    s₀.Sends (s.engFrame g op opSeq kind chunk code offset count sealCrc payload).2 := by
  unfold State.engFrame
  split
  · rename_i t e
    have h1 : s₀.Sends t := .of_snd h.draw e
    extract_lets out h2 p
    exact h1

theorem State.Sends.engEmit {g f r} (h : s₀.Sends s) : s₀.Sends (s.engEmit g f r) := by
  unfold State.engEmit
  exact h.emitInternal

theorem State.Sends.toMcast {g f} (h : s₀.Sends s) : s₀.Sends (s.toMcast g f) := by
  unfold State.toMcast
  exact h.engEmit

theorem State.Sends.toPeers {g f} (h : s₀.Sends s) : s₀.Sends (s.toPeers g f) := by
  unfold State.toPeers
  exact .foldl (fun _ _ h => h.engEmit) h

theorem State.Sends.sendNotice {g op opSeq kind code} (h : s₀.Sends s) :
    s₀.Sends (s.sendNotice g op opSeq kind code) := by
  unfold State.sendNotice
  split
  · rename_i t e
    have h1 : s₀.Sends t := .of_snd h.engFrame e
    exact h1.toMcast.toPeers

end

end Sys2Proof.Machine
end

section
/-! PROOF. What queueing, dropping and moving frames touch (spec/08), and what sending an LLDP frame touches: as in the part before. -/

namespace Sys2Proof.Machine

section
variable {s₀ s t : State}

theorem State.Sends.sendLldp {p} (h : s₀.Sends s) : s₀.Sends (s.sendLldp p) := by
  unfold State.sendLldp
  extract_lets f _
  exact .ite h.setPort.count.txFrame h.setPort

theorem State.Sends.newNonce {p} (h : s₀.Sends s) : s₀.Sends (s.newNonce p) := by
  unfold State.newNonce
  split
  · rename_i t e
    have h1 : s₀.Sends t := .of_snd h.draw e
    exact h1.setPort.sendLldp

theorem State.Sends.ageOut {p c id} (h : s₀.Sends s) : s₀.Sends (s.ageOut p c id) := by
  unfold State.ageOut
  exact h.count.release

theorem State.Sends.egressDrop {p c id} (h : s₀.Sends s) : s₀.Sends (s.egressDrop p c id) := by
  unfold State.egressDrop
  exact h.count.release

theorem State.Sends.releaseTransfers {p c n} (h : s₀.Sends s) : s₀.Sends (s.releaseTransfers p c n) := by
  induction n generalizing s with
  | zero =>
    unfold State.releaseTransfers
    exact h
  | succ n ih =>
    unfold State.releaseTransfers
    split
    · exact h
    · extract_lets _ s1
      have h1 : s₀.Sends s1 := .upd h
      split
      · exact ih h1
      · exact .ite (ih h1.ageOut) (.ite (ih h1.deliver) h)

theorem State.Sends.enqueue {p c id lossless} (h : s₀.Sends s) : s₀.Sends (s.enqueue p c id lossless) := by
  unfold State.enqueue
  exact .ite h.deliver (.ite (.upd h) h.egressDrop)

theorem State.Sends.queueWaits {p c} (h : s₀.Sends s) : s₀.Sends (s.queueWaits p c).2 := by
  unfold State.queueWaits
  extract_lets s1
  have h1 : s₀.Sends s1 := h.releaseTransfers
  exact h1

theorem State.Sends.placeCopy {p c id} (h : s₀.Sends s) : s₀.Sends (s.placeCopy p c id) := by
  unfold State.placeCopy
  split
  · exact h.place
  · split
    · rename_i t e
      have h1 : s₀.Sends t := .of_snd h.queueWaits e
      exact .ite h1.place h1.egressDrop

theorem State.Sends.landCrossing {c x'} (h : s₀.Sends s) : s₀.Sends (s.landCrossing c x') := by
  unfold State.landCrossing
  split
  · exact h
  · extract_lets s1
    have h1 : s₀.Sends s1 := h.release
    split
    · exact h1.place
    · exact h1.enqueue
    · exact h1.freeFrame
    · exact .foldl (fun _ _ h => h.placeCopy) h1.updFrame

theorem State.Sends.landAll {slice c n} (h : s₀.Sends s) : s₀.Sends (s.landAll slice c n) := by
  induction n generalizing s with
  | zero =>
    unfold State.landAll
    exact h
  | succ n ih =>
    unfold State.landAll
    extract_lets l _
    split
    · exact h
    · extract_lets r s1 s11
      have h1 : s₀.Sends s1 := .upd h
      have h11 : s₀.Sends s11 := .ite h1.count h1
      exact ih h11.landCrossing

theorem State.Sends.settle {k r} (h : s₀.Sends s) : s₀.Sends (s.settle k r) := by
  unfold State.settle
  extract_lets _ s1
  have h1 : s₀.Sends s1 := .upd h
  exact h1.landAll

theorem State.Sends.dropCrossing {x'} (h : s₀.Sends s) : s₀.Sends (s.dropCrossing x') := by
  unfold State.dropCrossing
  exact h.release.freeFrame

theorem State.Sends.sprayMember {b g cls l} (h : s₀.Sends s) : s₀.Sends (s.sprayMember b g cls l).2 := by
  unfold State.sprayMember
  extract_lets last order best _
  clear_value best
  split
  · exact h
  · exact .updLast h

theorem State.Sends.selectMember {b g cls group frame x' orderFree} (h : s₀.Sends s) :
    s₀.Sends (s.selectMember b g cls group frame x' orderFree).2 := by
  unfold State.selectMember
  extract_lets up h1 first
  split
  · split
    · rename_i t e
      have h11 : s₀.Sends t := .of_snd h.sprayMember e
      exact h11
  · split
    · exact h
    · split
      · exact h
      · exact h

theorem State.Sends.moveTo {p c f} (h : s₀.Sends s) : s₀.Sends (s.moveTo p c f).2 := by
  unfold State.moveTo
  split
  · extract_lets bank x free
    split
    · rename_i t e
      have h1 : s₀.Sends t := .of_snd h.selectMember e
      exact h1
    · rename_i t _ e
      have h1 : s₀.Sends t := .of_snd h.selectMember e
      exact h1
  · exact h

theorem State.Sends.moveFrame {p e} (h : s₀.Sends s) : s₀.Sends (s.moveFrame p e) := by
  unfold State.moveFrame
  split
  · exact h
  · split
    · exact h.ageOut
    · split
      · rename_i t e1
        have h1 : s₀.Sends t := .of_snd h.moveTo e1
        exact h1.count.updFrame.enqueue
      · rename_i t e1
        have h1 : s₀.Sends t := .of_snd h.moveTo e1
        exact h1.count.release

theorem State.Sends.changeCrossing {k x' g} (h : s₀.Sends s) : s₀.Sends (s.changeCrossing k x' g) := by
  unfold State.changeCrossing
  exact .upd h

theorem State.Sends.evacuateCrossing {p unicastOnly k x'} (h : s₀.Sends s) :
    s₀.Sends (s.evacuateCrossing p unicastOnly k x') := by
  unfold State.evacuateCrossing
  extract_lets lose s1 l
  have h1 : s₀.Sends s1 := h.count
  split
  · exact h
  · split
    · exact .ite h (.ite h1.dropCrossing.changeCrossing h1.changeCrossing)
    · split
      · exact h
      · split
        · exact h.count.dropCrossing.changeCrossing
        · split
          · rename_i t e
            have h11 : s₀.Sends t := .of_snd h.moveTo e
            exact h11.count.updFrame.changeCrossing
          · rename_i t e
            have h11 : s₀.Sends t := .of_snd h.moveTo e
            exact h11.count.dropCrossing.changeCrossing

theorem State.Sends.evacuate {p unicastOnly} (h : s₀.Sends s) : s₀.Sends (s.evacuate p unicastOnly) := by
  unfold State.evacuate
  extract_lets s1 s11
  have h1 : s₀.Sends s1 := .foldl (fun _ _ h => .foldl (fun _ _ h => h.evacuateCrossing) h) h
  have h11 : s₀.Sends s11 := .foldl (fun _ _ h => h.settle) h1
  refine .foldl (fun t c h2 => ?_) h11
  extract_lets all stay go s12 _ s13
  have h12 : s₀.Sends s12 := h2.setQueue
  have h13 : s₀.Sends s13 := .ite h12 (.upd h12)
  exact .foldl (fun _ _ h => h.moveFrame) h13

end

end Sys2Proof.Machine
end

section
/-! SUPPORT. Writes of one field by the host, where the field is a bit that starts a plumb check, or one beside the stored bits. -/

namespace Sys2Proof.Machine

/-- A field that no stored bit lies in. -/
theorem set_and_of_outside {f : Fld} {m : Word} (hm : f.mask &&& m = 0) (x : Word) (v : Nat) : f.set x v &&& m = x &&& m := by
  refine BitVec.eq_of_getLsbD_eq fun i hi => ?_
  rw [BitVec.getLsbD_and, BitVec.getLsbD_and, Fld.set_getLsbD]
  by_cases hf : f.lo ≤ i ∧ i < f.lo + f.w
  · have hbit := congrArg (·.getLsbD i) hm
    simp only [BitVec.getLsbD_and, Fld.mask_getLsbD, decide_eq_true hi, decide_eq_true hf.1, decide_eq_true hf.2, Bool.true_and,
      BitVec.ofNat_eq_ofNat, BitVec.getLsbD_zero] at hbit
    rw [hbit, Bool.and_false, Bool.and_false]
  · rw [if_neg (by omega), decide_eq_true hi, Bool.true_and]

/-- Bits of a register that the write of a field by the host cannot touch, and no class Q to refuse it. -/
structure RegSpec.Beside (r : RegSpec) (f : Fld) : Prop where
  own : r.base ∉ ownWrites
  go : r.base ∉ goRegs
  bay : r.base ≠ R.PWR_BAY_CTRL 0
  stored : f.mask &&& r.rwBits = 0
  cleared : r.w1cBits = 0
  q : r.bits (fun f => f.cls == .q && f.acc == .rw) &&& f.mask = 0
  qset : r.bits (fun f => f.cls == .q && f.acc == .w1s) = 0

/-- The write of such a field has the effect of its register, and stores nothing by itself. -/
theorem State.hostField_beside {r : RegSpec} {off : Nat} {f : Fld} (hrow : findReg off = some r) (hr : r.Beside f) {s : State}
    (hwf : s.regsWf = true) (v : Nat) :
    s.hostField off f v = s.writeEffect r.base off (s.rd off) (f.set (s.rd off) v) false {} := by
  have hq : r.changesQ (s.rd off) (f.set (s.rd off) v) = false :=
    RegSpec.changesQ_of_kept (set_and_of_outside (by rw [BitVec.and_comm]; exact hr.q) _ _) hr.qset
  have hwritten : r.written off (s.rd off) (f.set (s.rd off) v) false = s.rd off :=
    RegSpec.written_self hr.bay hr.cleared (set_and_of_outside hr.stored _ _)
  rw [State.hostField, State.hostReg, State.writeReg_of_row hrow hr.own (State.goBusy_of_not_mem hr.go ..) (by rw [hq, Bool.false_and]),
    hwritten, s.wr_rd off hwf]

end Sys2Proof.Machine
end

section
/-! PROOF. Frames that reach an engine, retransmission, aborts and timers (spec/09 R253 to R278). -/

namespace Sys2Proof.Proofs
open Sys2Proof Sys2Proof.Machine

/-! ## Frames of the inbox -/

section
variable {s : State} {e : Nat} {f : CollFrame} {rest : List CollFrame}

/-- The state without the frame at the head of an engine's inbox. -/
def withoutHead (s : State) (e : Nat) (rest : List CollFrame) : State :=
  { s with bsn := { s.bsn with inbox := sset [] s.bsn.inbox e rest } }

theorem inboxTake_head (h : sget [] s.bsn.inbox e = f :: rest) : s.inboxTake e f.kind = some (f, withoutHead s e rest) := by
  unfold State.inboxTake
  rw [h]
  exact if_pos rfl

theorem served_member {kind sl : Nat} {k : State → Nat → CollFrame → State} (h : sget [] s.bsn.inbox e = f :: rest) (hkind : f.kind = kind)
    (hin : (withoutHead s e rest).accept e f = (withoutHead s e rest, some sl)) : s.served e kind k =
      let t := k (withoutHead s e rest) sl f
      if t.engineHolds f.stored then t else t.release f.stored := by
  subst hkind
  unfold State.served
  rw [inboxTake_head h]
  dsimp only
  rw [hin]

theorem served_stranger {kind : Nat} {k : State → Nat → CollFrame → State} (h : sget [] s.bsn.inbox e = f :: rest) (hkind : f.kind = kind)
    (hop : f.operation = 0) (hheld : ((withoutHead s e rest).count (ctrBsn e 1)).engineHolds f.stored = false) :
    s.served e kind k = ((withoutHead s e rest).count (ctrBsn e 1)).release f.stored := by
  subst hkind
  have hin : (withoutHead s e rest).accept e f = ((withoutHead s e rest).count (ctrBsn e 1), none) := if_pos hop
  unfold State.served
  rw [inboxTake_head h]
  dsimp only
  rw [hin]
  exact if_neg (by rw [hheld]; decide)

end

/-! ## Contributions -/

section
variable {s : State} {e sl : Nat} {f : CollFrame} {errs : List LineErr}

theorem contribute_takes (hok : s.contributionOk e sl f = true) (hchunk : f.chunk < (s.slot e sl).nChunks) (hop : (s.slot e sl).op ≠ 3)
    (htaking : s.taking e sl f.chunk f.member = true) (hpeer : s.isPeer (s.slot e sl).group f.member = false) :
    s.contribute e sl f errs = s.takeContribution e sl f errs := by
  unfold State.contribute
  dsimp only
  rw [if_neg (by rw [hok]; decide), if_neg (by rw [not_or, not_and]; exact ⟨by omega, fun h => absurd h hop⟩), if_pos htaking,
    if_neg (by simp [hpeer])]

theorem contribute_keeps (hok : s.contributionOk e sl f = true) (hchunk : f.chunk < (s.slot e sl).nChunks) (hop : (s.slot e sl).op ≠ 3)
    (htaking : s.taking e sl f.chunk f.member = false)
    (hroom : ((s.slot e sl).early.map CollFrame.cells).foldl (· + ·) f.cells ≤ s.fld (R.BSN_CTRL e) F.BSN_CTRL_EARLY_CELLS) :
    s.contribute e sl f errs = s.setSlot e sl { s.slot e sl with early := (s.slot e sl).early ++ [f] } := by
  unfold State.contribute
  dsimp only
  rw [if_neg (by rw [hok]; decide), if_neg (by rw [not_or, not_and]; exact ⟨by omega, fun h => absurd h hop⟩),
    if_neg (by rw [htaking]; decide), if_neg (by omega)]

theorem takeContribution_next (hop : (s.slot e sl).op ≠ 3) (hnext : sget 0 ((s.slot e sl).chunk f.chunk).expected f.member = f.offset)
    (howed : f.offset < s.owed e sl f.chunk f.member) : s.takeContribution e sl f [] =
      (((s.accumulate e sl f).setSlot e sl ((s.slot e sl).setChunk f.chunk { (s.slot e sl).chunk f.chunk with
        expected := sset 0 ((s.slot e sl).chunk f.chunk).expected f.member (f.offset + f.count) })).count (ctrBsn e 0)) := by
  unfold State.takeContribution
  dsimp only
  rw [hnext, if_neg (by omega), if_neg (by omega), if_neg (by simp [accumHit]), if_neg hop, if_neg hop]

theorem takeContribution_again (h : f.offset < sget 0 ((s.slot e sl).chunk f.chunk).expected f.member) :
    s.takeContribution e sl f errs = s.count (ctrBsn e 3) := if_pos (.inl h)

end

/-! ## Retransmission -/

section
variable {s : State} {e : Fin 8} {f : CollFrame} {rest : List CollFrame} {r : Retained} {errs : List LineErr}

theorem exec_retransmit_active {sl : Nat} (h : sget [] s.bsn.inbox e = f :: rest) (hkind : f.kind = 3)
    (hslot : (withoutHead s e rest).activeSlot e f.group f.opSeq = some sl)
    (hin : (withoutHead s e rest).accept e f = (withoutHead s e rest, some sl))
    (hr : (withoutHead s e rest).retained? e f.group f.opSeq f.chunk = some r) :
    exec (.retransmitRequest e errs) s = .next (((withoutHead s e rest).serveRetained e f.operation r f errs).release f.stored) := by
  have htake : s.inboxTake e 3 = some (f, withoutHead s e rest) := by rw [← hkind]; exact inboxTake_head h
  refine congrArg Host.Outcome.next ?_
  rw [htake]
  dsimp only
  rw [hslot]
  dsimp only
  rw [hin]
  dsimp only
  rw [hr]

theorem exec_retransmit_ended {o : EndedOp} (h : sget [] s.bsn.inbox e = f :: rest) (hkind : f.kind = 3)
    (hslot : (withoutHead s e rest).activeSlot e f.group f.opSeq = none)
    (hended : (withoutHead s e rest).endedOp e f.group f.opSeq = some o) (hop : f.operation ≠ 0) (hcode : o.code = 0)
    (hmember : (withoutHead s e rest).fromMember (byteAt o.record 0) f = true)
    (hr : (withoutHead s e rest).retained? e f.group f.opSeq f.chunk = some r) :
    exec (.retransmitRequest e errs) s = .next (((withoutHead s e rest).serveRetained e f.operation r f errs).release f.stored) := by
  have htake : s.inboxTake e 3 = some (f, withoutHead s e rest) := by rw [← hkind]; exact inboxTake_head h
  refine congrArg Host.Outcome.next ?_
  rw [htake]
  dsimp only
  rw [hslot, hended]
  dsimp only
  rw [if_neg (by simp [hop, hcode]), if_neg (by rw [hmember]; decide), hr]

end

/-! ## Aborts -/

theorem bCtx_eq (e : Fin 8) (sl : Fin 1024) : bCtx e sl = .b e sl := by
  simp [bCtx]

section
variable {st group opSeq code emitted : Nat}

theorem slotWord_state (h : st < 8) : Fld.get ⟨61, 3⟩ (slotWord st group opSeq code emitted) = st := by
  unfold Fld.get slotWord
  rw [BitVec.toNat_ofNat]
  dsimp only
  omega

theorem slotWord_code (h : code < 65536) : Fld.get ⟨17, 16⟩ (slotWord st group opSeq code emitted) = code := by
  unfold Fld.get slotWord
  rw [BitVec.toNat_ofNat]
  dsimp only
  omega

theorem slotWord_emitted (h : emitted < 131072) : Fld.get ⟨0, 17⟩ (slotWord st group opSeq code emitted) = emitted := by
  unfold Fld.get slotWord
  rw [BitVec.toNat_ofNat]
  dsimp only
  omega

end

/-- A state in which an operation has been aborted: the registers are `r`, the long operations `l`, and the context stops. -/
structure Aborted (r : Sparse Word) (l : List LongOp) (c : Ctx) (s : State) : Prop where
  regs : s.regs = r
  ops : s.dxn.longOps = l
  status : (s.ctx c).status = .stopping

section
variable {r : Sparse Word} {l : List LongOp} {c : Ctx} {s t : State}

theorem Aborted.congr (h : Aborted r l c s) (hregs : t.regs = s.regs) (hdxn : t.dxn = s.dxn) : Aborted r l c t :=
  ⟨hregs.trans h.regs, (congrArg Dxn.longOps hdxn).trans h.ops, by rw [State.ctx, hdxn]; exact h.status⟩

theorem Aborted.addPeg (h : Aborted r l c s) (p : Nat) (v : Word) : Aborted r l c (s.addPeg p v) :=
  ⟨h.regs, h.ops, by rw [State.addPeg, setPeg_ctx, (sees_sameRun ..).1]; exact h.status⟩

theorem Aborted.cancelOn (h : Aborted r l c s) (e sl ch : Nat) : Aborted r l c (s.cancelOn e sl ch) := by
  unfold State.cancelOn
  extract_lets x mine begun left t
  have ht : Aborted r l c t := h.congr rfl rfl
  split
  · exact h
  · split
    · exact ht
    · exact ht.addPeg _ _

theorem Aborted.bindAbort (h : Aborted r l c s) (x : Slot) (i : Option Nat) (code : Nat) : Aborted r l c (s.bindAbort x i code) := by
  unfold State.bindAbort
  split
  · split
    · exact h.congr rfl rfl
    · exact h
  · exact h

theorem Aborted.announced (h : Aborted r l c s) (e : Nat) (x : Slot) (code : Nat) :
    Aborted r l c ((s.countAbort e code).abortNotice e x code) := by
  have hcount : Aborted r l c (s.countAbort e code) := by
    unfold State.countAbort
    split
    · exact h.congr rfl rfl
    · split
      · exact h.congr rfl rfl
      · exact h
  unfold State.abortNotice
  split
  · exact hcount.congr (State.Sends.refl _).sendNotice.regs (State.Sends.refl _).sendNotice.dxn
  · exact hcount

end

/-- What lies in the slot's frames that came early is freed; registers, contexts and long operations stay. -/
theorem dropEarly_frame (s : State) (e sl : Nat) (x : Slot) : ((s.setSlot e sl x).dropEarly e sl).regs = s.regs ∧
    ((s.setSlot e sl x).dropEarly e sl).dxn = s.dxn := by
  generalize hu : s.setSlot e sl x = u
  have hframe : u.regs = s.regs ∧ u.dxn = s.dxn := by subst hu; exact ⟨rfl, rfl⟩
  rw [← hframe.1, ← hframe.2]
  clear hframe hu
  unfold State.dropEarly
  extract_lets y
  have h := State.Sends.foldl (l := y.early) (f := fun s f => s.release f.stored) (fun t f h => h.release)
    (State.Sends.refl (u.setSlot e sl { y with early := [], dropped := [] }))
  exact ⟨h.regs, h.dxn⟩

/-- The long operations that an abort leaves: none of the collective ones of its context. -/
def withoutColl (l : List LongOp) (c : Ctx) : List LongOp := l.filter fun o => !(o.ctx == c && o.kind.isColl)

/-- The stop of a context by an abort, its collective operations dropped. -/
def stopColl (c : Ctx) (s : State) : State :=
  let s := { s with dxn.longOps := withoutColl s.dxn.longOps c }
  s.setCtx c { s.ctx c with status := .stopping, wait := none, stalled := false, endIssued := true }

theorem stopColl_aborted (c : Ctx) (s : State) : Aborted s.regs (withoutColl s.dxn.longOps c) c (stopColl c s) := by
  unfold stopColl
  extract_lets d u
  have hu : u.regs = s.regs ∧ u.dxn.longOps = withoutColl s.dxn.longOps c := ⟨rfl, rfl⟩
  clear_value u
  have hctx := u.ctx_setCtx_self c { u.ctx c with status := .stopping, wait := none, stalled := false, endIssued := true } nofun
  exact ⟨hu.1, hu.2, congrArg Context.status hctx⟩

/-- The record of an ended operation, unless another of the same sequence number stands for it. -/
def rememberAbort (x : Slot) (e sl code detail : Nat) (s : State) : State :=
  if sameOpSeq code detail then s
  else s.rememberEnded { e := e, group := x.group, opSeq := x.opSeq, code := code, slot := sl, record := x.record, outcome := [] }

theorem Aborted.remember {r : Sparse Word} {l : List LongOp} {c : Ctx} {s : State} (h : Aborted r l c s) (x : Slot)
    (e sl code detail : Nat) : Aborted r l c (rememberAbort x e sl code detail s) := by
  unfold rememberAbort
  split
  · exact h
  · exact h.congr rfl rfl

/-- What an abort leaves: `bsnAbort` step by step. -/
theorem bsnAbort_aborted {s : State} {e sl : Nat} (code origin detail : Nat) (hactive : s.slotActive e sl = true) :
    Aborted (s.wr (R.BSN_SLOT e sl) (slotWord 2 (s.slot e sl).group (s.slot e sl).opSeq code (s.slotEmitted e sl))).regs
      (withoutColl s.dxn.longOps (bCtx e sl)) (bCtx e sl) (s.bsnAbort e sl code origin detail) := by
  unfold State.bsnAbort
  rw [if_neg (by rw [hactive]; decide)]
  extract_lets x c s1 s2 d s3 k s4 s5 s6 s7
  have h2 : s2.regs = s1.regs ∧ s2.dxn = s1.dxn := dropEarly_frame s1 e sl _
  have h1 : s1.dxn = s.dxn := State.wr_dxn ..
  clear_value s2
  have h4 : s4 = stopColl c s2 := rfl
  have h := stopColl_aborted c s2
  rw [← h4, h2.1, h2.2, h1] at h
  clear_value s4
  have h6 := (h.announced e x code).remember x e sl code detail
  exact foldl_keeps (P := Aborted _ _ _) (fun t ch _ ht => ht.cancelOn e sl ch) (h6.bindAbort x x.starter code)

theorem bsnAbort_slot {s : State} {e : Fin 8} {sl : Fin 1024} (origin detail : Nat) {code : Nat} (hwf : s.regsWf = true)
    (hactive : s.slotActive e sl = true) (hcode : code < 65536) :
    (s.bsnAbort e sl code origin detail).slotSt e sl = 2 ∧ (s.bsnAbort e sl code origin detail).slotCode e sl = code ∧
    (s.bsnAbort e sl code origin detail).slotEmitted e sl = s.slotEmitted e sl ∧
    ((s.bsnAbort e sl code origin detail).ctx (.b e sl)).status = .stopping ∧
    (∀ o ∈ (s.bsnAbort e sl code origin detail).dxn.longOps, o ∈ s.dxn.longOps ∧ ¬ (o.ctx = .b e sl ∧ o.kind.isColl = true)) := by
  have h := bsnAbort_aborted code origin detail hactive
  rw [bCtx_eq] at h
  have hrd : (s.bsnAbort e sl code origin detail).rd (R.BSN_SLOT e sl) =
      slotWord 2 (s.slot e sl).group (s.slot e sl).opSeq code (s.slotEmitted e sl) :=
    (State.rd_congr h.regs _).trans (s.rd_wr_self _ _ hwf)
  refine ⟨?_, ?_, ?_, h.status, fun o ho => ?_⟩
  · exact (congrArg _ hrd).trans (slotWord_state (by decide))
  · exact (congrArg _ hrd).trans (slotWord_code hcode)
  · exact (congrArg _ hrd).trans (slotWord_emitted (Fld.get_lt ..))
  · rw [h.ops] at ho
    have hmem := List.mem_filter.1 ho
    exact ⟨hmem.1, fun ⟨h1, h2⟩ => by simpa [h1, h2] using hmem.2⟩

theorem bsnAbortEnd_plain {s : State} {e : Fin 8} {sl : Fin 1024} (haddr : (s.slot e sl).outcomeAddr = 0)
    (hpeg : s.ctxPegOk (.b e sl) (s.slot e sl).abortPeg = true) (hnotify : (s.slot e sl).notify = false)
    (hseq : sameOpSeq (s.slotCode e sl) (s.slot e sl).detail = false) : s.bsnAbortEnd e sl =
      (((s.addPeg (s.slot e sl).abortPeg 1).bsnLog e 1 (s.slot e sl).group (s.slot e sl).opSeq (s.slotCode e sl) (s.slot e sl).origin sl).releaseOp e
        (s.slot e sl).group (s.slot e sl).opSeq).setSlot e sl { s.slot e sl with closed := true } := by
  have hout : s.writeOutcome (s.slot e sl).outcomeAddr (s.outcomeBytes e sl (s.slotCode e sl)) = s := if_pos (.inl haddr)
  unfold State.bsnAbortEnd
  dsimp only
  rw [hout, bCtx_eq, if_pos hpeg, if_neg (Bool.eq_false_iff.1 hseq), if_neg (Bool.eq_false_iff.1 hnotify)]

/-! ## Timers -/

theorem timeout_lost {s : State} {e sl m : Nat} {rest : List Nat} (h : s.portUp (s.memberPort (s.slot e sl).group m) = false) :
    s.timeout e sl (m :: rest) = s.bsnAbort e sl 1 m 0 := by
  unfold State.timeout
  dsimp only
  rw [if_neg (by rw [h]; decide)]

theorem exec_collectiveTimeout_cacc {s : State} {op m chunk addr : Nat} {e : Fin 8} {sl : Fin 1024} {rest : List Nat} {o : LongOp}
    (ho : s.longOp? op = some o) (hctx : o.ctx = .b e sl) (hkind : o.kind = .cacc chunk addr) (hactive : s.slotActive e sl = true)
    (hmissing : s.missing e sl chunk = m :: rest) :
    exec (.collectiveTimeout op) s = .next (s.timeout e sl (m :: rest)) := by
  refine congrArg Host.Outcome.next ?_
  rw [ho]
  dsimp only
  rw [hctx]
  dsimp only
  rw [if_neg (by rw [hactive]; decide), hkind]
  dsimp only
  rw [hmissing]
  rfl

theorem exec_stepBudgetExpiry_cring {s : State} {op step : Nat} {e : Fin 8} {sl : Fin 1024} {o : LongOp}
    (ho : s.longOp? op = some o) (hctx : o.ctx = .b e sl) (hkind : o.kind = .cring step)
    (hdone : arrivedAll (s.slot e sl).stepDone step (s.members (s.slot e sl).group).length = false) :
    exec (.stepBudgetExpiry op) s = .next (s.bsnAbort e sl 4 0xFFFF 0) := by
  refine congrArg Host.Outcome.next ?_
  rw [ho]
  dsimp only
  rw [hctx, hkind]
  exact if_neg (by rw [hdone]; decide)

/-! ## Reports of a truss that do not come -/

/-- The write map of a chunk of a slot is unknown. -/
def Unmapped (e sl chunk : Nat) (s : State) : Prop := ((s.slot e sl).chunk chunk).writeMap = 2

/-- The state in which nothing is known of the rows written for a chunk. -/
def unmapped (e sl : Nat) (s : State) (h : Handoff) : State :=
  s.setSlot e sl ((s.slot e sl).setChunk h.chunk { (s.slot e sl).chunk h.chunk with writeMap := 2 })

theorem chunk_setChunk_unmapped (x : Slot) (chunk : Nat) (k : Chunk) :
    (x.setChunk chunk { k with writeMap := 2 }).chunk chunk = { k with writeMap := 2 } := by
  have hk : ({ k with writeMap := 2 } : Chunk) ≠ {} := fun he => by
    have hmap : 2 = 0 := congrArg Chunk.writeMap he
    omega
  unfold Slot.chunk Slot.setChunk sset
  rw [if_neg hk]
  exact sget_sput_self ..

theorem unmapped_slot (e sl : Nat) (s : State) (h : Handoff) : (unmapped e sl s h).slot e sl =
    (s.slot e sl).setChunk h.chunk { (s.slot e sl).chunk h.chunk with writeMap := 2 } := by
  have hx : (s.slot e sl).setChunk h.chunk { (s.slot e sl).chunk h.chunk with writeMap := 2 } ≠ {} := fun he => by
    have hget := congrArg (fun x : Slot => (x.chunk h.chunk).writeMap) he
    dsimp only at hget
    rw [chunk_setChunk_unmapped] at hget
    have hmap : 2 = 0 := hget
    omega
  unfold unmapped
  generalize (s.slot e sl).setChunk h.chunk { (s.slot e sl).chunk h.chunk with writeMap := 2 } = y at hx ⊢
  unfold State.slot State.setSlot sset
  rw [if_neg hx]
  exact sget_sput_self ..

theorem unmapped_self (e sl : Nat) (s : State) (h : Handoff) : Unmapped e sl h.chunk (unmapped e sl s h) := by
  unfold Unmapped
  rw [unmapped_slot, chunk_setChunk_unmapped]

theorem Unmapped.again {e sl chunk : Nat} {s : State} (hs : Unmapped e sl chunk s) (h : Handoff) :
    Unmapped e sl chunk (unmapped e sl s h) := by
  by_cases hc : chunk = h.chunk
  · rw [hc]; exact unmapped_self e sl s h
  · unfold Unmapped
    rw [unmapped_slot]
    unfold Slot.chunk Slot.setChunk
    rw [sget_sset_of_ne _ _ _ _ hc]
    exact hs

/-- From one state to another only slots and channels differ, and of the slot given no write map becomes known. -/
structure Reported (e sl : Nat) (s t : State) : Prop where
  frame : t = { s with bsn := { s.bsn with slots := t.bsn.slots }, ten := { s.ten with channels := t.ten.channels } }
  keeps : ∀ chunk, Unmapped e sl chunk s → Unmapped e sl chunk t

theorem Reported.trans {e sl : Nat} {s t u : State} (h : Reported e sl s t) (k : Reported e sl t u) : Reported e sl s u :=
  ⟨by rw [k.frame, h.frame], fun chunk hs => k.keeps chunk (h.keeps chunk hs)⟩

theorem unmapped_all (e sl : Nat) (l : List Handoff) (s : State) : Reported e sl s (l.foldl (unmapped e sl) s) ∧
    (l.foldl (unmapped e sl) s).ten = s.ten ∧ ∀ h ∈ l, Unmapped e sl h.chunk (l.foldl (unmapped e sl) s) := by
  induction l generalizing s with
  | nil => exact ⟨⟨rfl, fun _ h => h⟩, rfl, by simp⟩
  | cons a l ih =>
    obtain ⟨hrep, hten, hall⟩ := ih (unmapped e sl s a)
    have hstep : Reported e sl s (unmapped e sl s a) := ⟨rfl, fun _ h => h.again a⟩
    refine ⟨hstep.trans hrep, hten, fun h hh => ?_⟩
    rcases List.mem_cons.1 hh with rfl | hl
    · exact hrep.keeps _ (unmapped_self e sl s h)
    · exact hall h hl

/-- The state without a slot's handoffs on a channel, the write maps of their chunks unknown. -/
def reportLost (e sl : Nat) (s : State) (ch : Nat) : State :=
  ((s.channel e ch).handed.filter fun h => h.slot == sl).foldl (unmapped e sl)
    (s.setChannel e ch { s.channel e ch with handed := (s.channel e ch).handed.filter fun h => h.slot != sl })

theorem reportLost_channel {e sl ch : Nat} {s : State} (hwf : swf (fun _ => {}) s.ten.channels = true) :
    swf (fun _ => {}) (reportLost e sl s ch).ten.channels = true ∧
    (reportLost e sl s ch).channel e ch = { s.channel e ch with handed := (s.channel e ch).handed.filter fun h => h.slot != sl } ∧
    ∀ i, i ≠ ch → (reportLost e sl s ch).channel e i = s.channel e i := by
  unfold reportLost State.channel
  rw [(unmapped_all ..).2.1]
  refine ⟨swf_sset hwf, ?_, fun i hi => ?_⟩
  · exact sget_sset_self (d := fun _ => ({} : Channel)) _ _ hwf
  · exact sget_sset_of_ne _ _ _ _ (by omega)

theorem reportLost_all (e sl : Nat) (l : List Nat) (s : State) (hwf : swf (fun _ => {}) s.ten.channels = true) :
    Reported e sl s (l.foldl (reportLost e sl) s) ∧
    (∀ ch h, h ∈ ((l.foldl (reportLost e sl) s).channel e ch).handed → h ∈ (s.channel e ch).handed ∧ (ch ∈ l → h.slot ≠ sl)) ∧
    ∀ ch ∈ l, ∀ h ∈ (s.channel e ch).handed, h.slot = sl → Unmapped e sl h.chunk (l.foldl (reportLost e sl) s) := by
  induction l generalizing s with
  | nil => exact ⟨⟨rfl, fun _ h => h⟩, fun ch h hh => ⟨hh, by simp⟩, by simp⟩
  | cons a l ih =>
    obtain ⟨hwf', hself, hother⟩ := reportLost_channel (e := e) (sl := sl) (ch := a) hwf
    obtain ⟨hrep, hleft, hall⟩ := ih (reportLost e sl s a) hwf'
    obtain ⟨hmarks, -, hmine⟩ := unmapped_all e sl ((s.channel e a).handed.filter fun h => h.slot == sl)
      (s.setChannel e a { s.channel e a with handed := (s.channel e a).handed.filter fun h => h.slot != sl })
    have hstep : Reported e sl s (reportLost e sl s a) := ⟨hmarks.frame, hmarks.keeps⟩
    refine ⟨hstep.trans hrep, fun ch h hh => ?_, fun ch hch h hh hslot => ?_⟩
    · obtain ⟨hin, hnot⟩ := hleft ch h hh
      by_cases hc : ch = a
      · subst hc
        rw [hself] at hin
        have hmem := List.mem_filter.1 hin
        exact ⟨hmem.1, fun _ => by simpa using hmem.2⟩
      · rw [hother ch hc] at hin
        exact ⟨hin, fun hl => hnot ((List.mem_cons.1 hl).resolve_left hc)⟩
    · by_cases hc : ch = a
      · subst hc
        exact hrep.keeps _ (hmine h (List.mem_filter.2 ⟨hh, by simpa using hslot⟩))
      · exact hall ch ((List.mem_cons.1 hch).resolve_left hc) h (by rw [hother ch hc]; exact hh) hslot

theorem exec_applyReportTimeout {s : State} {e : Fin 8} {sl : Fin 1024} (h : s.slotSt e sl = 2) :
    exec (.applyReportTimeout e sl) s = .next ((List.range 16).foldl (reportLost e sl) s) := by
  change execApplyReportTimeout e sl s = _
  unfold execApplyReportTimeout
  rw [if_neg (fun hne => hne h)]
  refine congrArg Host.Outcome.next (congrArg (fun f => List.foldl f s (List.range 16)) ?_)
  rfl

/-! ## ENABLE -/

/-- The row of BSN_CTRL. -/
def bsnCtrlRow : RegSpec := ⟨R.BSN_CTRL 0, [(0x40000, 8)], [⟨F.BSN_CTRL_ENABLE, .rw, .l, 0⟩, ⟨F.BSN_CTRL_EARLY_CELLS, .rw, .l, 4096⟩]⟩

theorem findReg_bsnCtrl : ∀ e : Fin 8, findReg (R.BSN_CTRL e) = some bsnCtrlRow := by decide +kernel

theorem bsnCtrl_beside : bsnCtrlRow.Beside F.BSN_CTRL_ENABLE where
  own := by decide +kernel
  go := by decide +kernel
  bay := by decide
  stored := by decide +kernel
  cleared := by decide +kernel
  q := by decide +kernel
  qset := by decide +kernel

/-- What the host's write of ENABLE does. -/
theorem hostField_bsnEnable {s : State} (hwf : s.regsWf = true) (e : Fin 8) {v : Nat} (hv : v < 2) :
    s.hostField (R.BSN_CTRL e) F.BSN_CTRL_ENABLE v = s.enableBit (.bsnEnable e) (v == 1) (s.flag (R.BSN_CTRL e) F.BSN_CTRL_ENABLE)
      (R.BSN_CTRL e) {} (fun s => s.basinOff e) fun s => s := by
  have hindex : indexAt (R.BSN_CTRL 0) 0x40000 (R.BSN_CTRL e) = e := by
    revert e; decide +kernel
  have hget : F.BSN_CTRL_ENABLE.get (F.BSN_CTRL_ENABLE.set (s.rd (R.BSN_CTRL e)) v) = v := by
    rw [Fld.get_set_self _ _ _ (by decide)]
    exact Nat.mod_eq_of_lt hv
  rw [State.hostField_beside (findReg_bsnCtrl e) bsnCtrl_beside hwf]
  generalize F.BSN_CTRL_ENABLE.set (s.rd (R.BSN_CTRL e)) v = x at hget ⊢
  have h : s.writeEffect bsnCtrlRow.base (R.BSN_CTRL e) (s.rd (R.BSN_CTRL e)) x false {} =
      s.enableBit (.bsnEnable (indexAt (R.BSN_CTRL 0) 0x40000 (R.BSN_CTRL e))) (F.BSN_CTRL_ENABLE.get x == 1)
        (s.flag (R.BSN_CTRL e) F.BSN_CTRL_ENABLE) (R.BSN_CTRL e) {}
        (fun s => s.basinOff (indexAt (R.BSN_CTRL 0) 0x40000 (R.BSN_CTRL e))) fun s => s := by
    have h1 : ¬ R.BSN_CTRL e < R.CFG_COMMIT := by revert e; decide +kernel
    have h2 : ¬ R.BSN_CTRL e < R.PWR_STATUS := by revert e; decide +kernel
    have h3 : ¬ R.BSN_CTRL e < R.PRT_PAIR_CFG 0 := by revert e; decide +kernel
    have h4 : R.BSN_CTRL e < R.SPL_CTRL := by revert e; decide +kernel
    unfold State.writeEffect
    rw [if_neg h1, if_neg h2, if_neg h3, if_pos h4]
    rfl
  rw [h, hget, hindex]

/-- Settles O40. -/
theorem collectiveFramesAndAborts : Obligations.CollectiveFramesAndAborts := by
  unfold Obligations.CollectiveFramesAndAborts
  refine ⟨
    fun e errs f rest sl u s h hk hu hin => by subst hu; exact congrArg Host.Outcome.next (served_member h hk hin),
    fun e f rest sl u s h hk hu hin => by subst hu; exact congrArg Host.Outcome.next (served_member h hk hin), ?barrier,
    fun e f rest sl u s h hk hu hin => by subst hu; exact congrArg Host.Outcome.next (served_member h hk hin),
    fun s e sl f errs h1 h2 h3 h4 h5 => contribute_takes h1 h2 h3 h4 h5,
    fun s e sl f h1 h2 h3 => ⟨_, congrArg Host.Outcome.next (takeContribution_next h1 h2 h3), rfl⟩,
    fun s e sl f errs h => takeContribution_again h,
    fun s e sl f errs h1 h2 h3 h4 h5 => contribute_keeps h1 h2 h3 h4 h5,
    fun e f rest u s h hk hu hop _ hheld => by subst hu; exact congrArg Host.Outcome.next (served_stranger h hk hop hheld),
    fun e errs f rest sl r u s h hk hu hs hin hr => by subst hu; exact exec_retransmit_active h hk hs hin hr,
    fun e errs f rest o r u s h hk hu hs he hop hc hm hr => by subst hu; exact exec_retransmit_ended h hk hs he hop hc hm hr,
    fun s e sl code origin detail h => if_pos h, ?abort, fun e sl s => rfl, ?complete, ?ended, ?timeout, ?budget, ?reports,
    ?release, ?expiry, ?enable, ?disable⟩
  case barrier =>
    intro e f rest sl u s h hk hu hin hcode
    have hw : withoutHead s e rest = u := hu.symm
    refine congrArg Host.Outcome.next ((served_member h hk (hw ▸ hin)).trans ?_)
    rw [hw]
    dsimp only
    rw [if_pos hcode]
  case abort => exact fun s e sl code origin detail hwf hactive hcode => bsnAbort_slot origin detail hwf hactive hcode
  case complete =>
    intro e sl s hst hclosed hunreported
    refine congrArg Host.Outcome.next ((if_neg (by simp [hst, hclosed, hunreported])).trans ?_)
    rw [bCtx_eq]
  case ended => exact fun s e sl haddr hpeg hnotify hseq => ⟨_, congrArg Host.Outcome.next (bsnAbortEnd_plain haddr hpeg hnotify hseq), rfl⟩
  case timeout =>
    intro op m e sl chunk addr rest o s ho hctx hkind hactive hmissing hdown
    rw [exec_collectiveTimeout_cacc ho hctx hkind hactive hmissing, timeout_lost hdown]
  case budget => exact fun op e sl step o s ho hctx hkind hdone => exec_stepBudgetExpiry_cring ho hctx hkind hdone
  case reports =>
    intro e sl s hwf hst
    obtain ⟨hrep, hleft, hall⟩ := reportLost_all e sl (List.range 16) s hwf
    refine ⟨_, exec_applyReportTimeout hst, ?_, fun ch hch h hh hslot => hall ch (List.mem_range.2 hch) h hh hslot, hrep.frame⟩
    refine List.any_eq_false.2 fun ch hch => Bool.not_eq_true _ ▸ List.any_eq_false.2 fun h hh => ?_
    simpa using (hleft ch h hh).2 hch
  case release =>
    intro e group opSeq chunk s
    refine ⟨_, rfl, List.find?_eq_none.2 fun r hr => ?_, fun r hr hne => List.mem_filter.2 ⟨hr, by
      simp only [not_and_or] at hne; simp; tauto⟩, rfl⟩
    have hmem := (List.mem_filter.1 hr).2
    simp only [Bool.not_eq_true', Bool.and_eq_false_iff, beq_eq_false_iff_ne] at hmem
    simp
    tauto
  case expiry =>
    intro e group opSeq s
    refine ⟨_, rfl, fun o ho => ?_, fun o ho hcode => List.mem_filter.2 ⟨ho, by simp [hcode]⟩, rfl⟩
    have hmem := List.mem_filter.1 ho
    refine ⟨hmem.1, fun ⟨h1, h2, h3, h4⟩ => ?_⟩
    simp [h1, h2, h3, h4] at hmem
  case enable =>
    intro e s hwf hoff hidle
    refine congrArg Host.Outcome.next ((hostField_bsnEnable hwf e (by decide)).trans ?_)
    rw [hoff]
    exact if_neg (Bool.eq_false_iff.1 hidle)
  case disable =>
    intro e s hwf hon hslots
    have hwhere : s.abortWhere e 5 (fun _ => true) = s := by
      unfold State.abortWhere
      rw [hslots]
      rfl
    have hoff : s.basinOff e = { s with bsn.retained := s.bsn.retained.filter fun x => x.e != e }.setFld (R.BSN_CTRL e) F.BSN_CTRL_ENABLE 0 := by
      unfold State.basinOff
      rw [hwhere]
    have hexec : exec (.basinDisable e) s = .next (s.basinOff e) := by
      refine congrArg Host.Outcome.next ((hostField_bsnEnable hwf e (by decide)).trans ?_)
      rw [hon]
      rfl
    refine ⟨_, hexec.trans (congrArg _ hoff), ?_, State.setFld_regsBut (s := { s with bsn.retained := s.bsn.retained.filter fun x => x.e != e }) (List.mem_singleton.2 rfl) _ _,
      fun r hr => ?_, rfl⟩
    · have hfld := State.fld_setFld_self { s with bsn.retained := s.bsn.retained.filter fun x => x.e != e } (R.BSN_CTRL e)
        F.BSN_CTRL_ENABLE 0 hwf (by decide)
      unfold State.flag
      rw [hfld]
      rfl
    · have hmem := List.mem_filter.1 hr
      exact ⟨hmem.1, by simpa using hmem.2⟩

end Sys2Proof.Proofs
end
section
/-! SUPPORT. Fields of a word put together from fields. -/

namespace Sys2Proof.Machine

theorem Fld.get_or (f : Fld) (x y : Word) : f.get (x ||| y) = f.get x ||| f.get y := by
  refine Nat.eq_of_testBit_eq fun i => ?_
  rw [Nat.testBit_or, f.get_testBit, f.get_testBit, f.get_testBit, BitVec.getLsbD_or, Bool.and_or_distrib_left]

theorem Fld.get_put_self (f : Fld) (v : Nat) (h : f.lo + f.w ≤ 64) : f.get (f.put v) = v % 2 ^ f.w := by
  have hset := f.get_set_self 0 v h
  rwa [Fld.set, BitVec.ofNat_eq_ofNat, BitVec.zero_and, BitVec.zero_or] at hset

theorem Fld.get_put_of_disjoint (f g : Fld) (v : Nat) (hd : g.lo + g.w ≤ f.lo ∨ f.lo + f.w ≤ g.lo) (hg : g.lo + g.w ≤ 64) :
    g.get (f.put v) = 0 := by
  have hset := f.get_set_of_disjoint g 0 v hd hg
  rw [Fld.set, BitVec.ofNat_eq_ofNat, BitVec.zero_and, BitVec.zero_or] at hset
  rw [hset]
  simp [Fld.get]

end Sys2Proof.Machine
end

section
/-! PROOF. Accesses of the BARs (spec/03 R361 to R366, spec/00). -/

namespace Sys2Proof.Proofs
open Sys2Proof Sys2Proof.Machine

/-! ## Refused accesses -/

/-- What a refused access reports: its space and offset, unless an earlier report stands. -/
def barReported (s : State) (bar : Nat) (write : Bool) (size offset : Nat) : State :=
  if s.bit R.HIF_ERR_STATUS 0 || s.bit R.HIF_ERR_STATUS 1 then s
  else s.wr R.HIF_ERR_ADDR (F.HIF_ERR_ADDR_SPACE.put bar ||| F.HIF_ERR_ADDR_KIND.put (b2n write) |||
    F.HIF_ERR_ADDR_SIZE.put size ||| F.HIF_ERR_ADDR_OFFSET.put offset)

/-- The bit of HIF_ERR_STATUS that a refused access sets. -/
def barBit (bar : Nat) : Nat := if bar = 1 then 1 else 0

theorem barRefused_eq (s : State) (bar : Nat) (write : Bool) (size offset : Nat) : s.barRefused bar write size offset =
    ((barReported s bar write size offset).hifError (barBit bar)).count (ctrHif (8 + barBit bar)) := by
  unfold State.barRefused barBit
  change (if bar = 1 then ((barReported s bar write size offset).hifError 1).count _ else
    ((barReported s bar write size offset).hifError 0).count _) = _
  split <;> rfl

section
variable (s : State) (bar : Nat) (write : Bool) (size offset : Nat)

theorem barReported_frame : barReported s bar write size offset = { s with regs := (barReported s bar write size offset).regs } := by
  unfold barReported
  split <;> rfl

theorem barReported_regsBut : s.RegsBut (barReported s bar write size offset) [R.HIF_ERR_ADDR] := by
  unfold barReported
  split
  · exact .refl s _
  · exact State.wr_regsBut (by simp) _

theorem barReported_regsWf (h : s.regsWf = true) : (barReported s bar write size offset).regsWf = true := by
  unfold barReported
  split
  · exact h
  · exact s.wr_regsWf _ _ h

theorem barReported_fld {bar : Fin 3} {offset : BitVec 26} (hwf : s.regsWf = true) (h0 : s.bit R.HIF_ERR_STATUS 0 = false)
    (h1 : s.bit R.HIF_ERR_STATUS 1 = false) :
    (barReported s bar write size offset.toNat).fld R.HIF_ERR_ADDR F.HIF_ERR_ADDR_SPACE = bar.val ∧
    (barReported s bar write size offset.toNat).fld R.HIF_ERR_ADDR F.HIF_ERR_ADDR_OFFSET = offset.toNat := by
  unfold barReported State.fld
  rw [if_neg (by rw [h0, h1]; decide), State.rd_wr_self _ _ _ hwf]
  simp only [Fld.get_or]
  have hbar : bar.val % 2 ^ 2 = bar := Nat.mod_eq_of_lt (by omega)
  have hoff : offset.toNat % 2 ^ 26 = offset.toNat := Nat.mod_eq_of_lt offset.isLt
  constructor
  · rw [Fld.get_put_self _ _ (by decide), Fld.get_put_of_disjoint _ _ _ (by decide) (by decide),
      Fld.get_put_of_disjoint _ _ _ (by decide) (by decide), Fld.get_put_of_disjoint _ _ _ (by decide) (by decide), hbar]
    simp
  · rw [Fld.get_put_of_disjoint _ _ _ (by decide) (by decide), Fld.get_put_of_disjoint _ _ _ (by decide) (by decide),
      Fld.get_put_of_disjoint _ _ _ (by decide) (by decide), Fld.get_put_self _ _ (by decide), hoff]
    simp

/-- A refused access is reported, and nothing else changes. -/
theorem barRefused_reports (hwf : s.regsWf = true) : (s.barRefused bar write size offset).bit R.HIF_ERR_STATUS (barBit bar) = true ∧
    s.RegsBut (s.barRefused bar write size offset) [R.HIF_ERR_STATUS, R.HIF_ERR_ADDR] ∧
    (s.barRefused bar write size offset).rd R.HIF_ERR_ADDR = (barReported s bar write size offset).rd R.HIF_ERR_ADDR ∧
    (s.barRefused bar write size offset).out.cxl = s.out.cxl ∧
    let t := s.barRefused bar write size offset
    t = { s with regs := t.regs, out := t.out, cnt := t.cnt } := by
  rw [barRefused_eq]
  have hframe := barReported_frame s bar write size offset
  have hregs := barReported_regsBut s bar write size offset
  have hwf' := barReported_regsWf s bar write size offset hwf
  generalize barReported s bar write size offset = u at hframe hregs hwf' ⊢
  have hbit : barBit bar < 64 := by unfold barBit; split <;> decide
  generalize barBit bar = i at hbit ⊢
  have hcxl : (u.hifError i).out.cxl = u.out.cxl := by
    unfold State.hifError
    split <;> rfl
  refine ⟨hifError_bit hwf' hbit, fun o ho => ?_, hifError_rd u i (by decide), hcxl.trans (by rw [hframe]), ?_⟩
  · simp only [List.mem_cons, List.not_mem_nil, or_false, not_or] at ho
    exact (hifError_rd u i ho.1).trans (hregs o (by simpa using ho.2))
  · have hu := hifError_frame u i
    generalize u.hifError i = v at hu ⊢
    rw [hu, hframe]
    rfl

end

/-! ## Pegs -/

/-- Settles O19. -/
theorem barsAndPegs : Obligations.BarsAndPegs := by
  unfold Obligations.BarsAndPegs
  refine ⟨?refused, ?bar0, ?bar2, ?bar4, ?pegs, ?low, ?values⟩
  case refused =>
    intro bar write size offset data s hwf hide hacc
    obtain ⟨hbit, hregs, haddr, hcxl, hframe⟩ := barRefused_reports s bar write size.toNat offset.toNat hwf
    refine ⟨_, (if_neg (by rw [hide]; decide)).trans (if_pos hacc), ?_⟩
    generalize s.barRefused bar write size.toNat offset.toNat = u at hbit hregs haddr hcxl hframe ⊢
    have hb : barBit bar = if bar = 1 then 1 else 0 := by
      clear * -
      revert bar
      decide
    refine ⟨hb ▸ hbit, hregs, fun h0 h1 => ?_, congrArg (· ++ _) hcxl, by rw [hframe]; rfl⟩
    obtain ⟨hspace, hoffset⟩ := barReported_fld s write size.toNat (bar := bar) (offset := offset) hwf h0 h1
    exact ⟨(congrArg _ haddr).trans hspace, (congrArg _ haddr).trans hoffset⟩
  case bar0 =>
    intro size offset data s hide hacc
    constructor
    · exact (if_neg (by rw [hide]; decide)).trans ((if_neg (Bool.not_eq_false _ |>.mpr hacc)).trans (if_pos rfl))
    · exact (if_neg (by rw [hide]; decide)).trans ((if_neg (Bool.not_eq_false _ |>.mpr hacc)).trans (if_neg nofun))
  case bar2 =>
    intro offset data s hide haligned
    exact (if_neg (by rw [hide]; decide)).trans ((if_neg (by simp [barAccepts, haligned])).trans (if_neg nofun))
  case bar4 =>
    intro offset data s hide hpage haligned
    refine (if_neg (by rw [hide]; decide)).trans ((if_neg (by simp [barAccepts, haligned])).trans ((if_neg nofun).trans ?_))
    have hread : s.barRead 2 8 offset.toNat = (s.bar4Word (offset.toNat / 4096) (offset.toNat % 4096 / 8), s) := if_pos hpage
    exact congrArg (fun q : Word × State => Host.Outcome.next (q.2.sendCxl (.barData 2 offset.toNat q.1))) hread
  case pegs =>
    intro p v s hp hide
    constructor
    · refine congrArg Host.Outcome.next ((if_neg (by rw [hide]; decide)).trans ((if_neg (by omega)).trans ((if_pos (by omega)).trans ?_)))
      rw [Nat.mul_div_cancel_left _ (by decide)]
    · refine congrArg Host.Outcome.next ((if_neg (by rw [hide]; decide)).trans ((if_neg (by omega)).trans ((if_neg (by omega)).trans ?_)))
      rw [show (16 * p.toNat + 8) / 16 = p.toNat by omega]
  case low =>
    intro p v s hwf hp hide
    constructor
    · obtain ⟨hbit, hregs, -, -, hframe⟩ := barRefused_reports s 1 true 8 (16 * p.toNat) hwf
      exact ⟨_, congrArg Host.Outcome.next ((if_neg (by rw [hide]; decide)).trans (if_pos (by omega))), hbit, hregs, hframe⟩
    · obtain ⟨hbit, hregs, -, -, hframe⟩ := barRefused_reports s 1 true 8 (16 * p.toNat + 8) hwf
      exact ⟨_, congrArg Host.Outcome.next ((if_neg (by rw [hide]; decide)).trans (if_pos (by omega))), hbit, hregs, hframe⟩
  case values =>
    intro p v s hwf
    refine ⟨(setPeg_peg hwf p v p).trans (if_pos rfl), (setPeg_peg hwf p _ p).trans (if_pos rfl), fun q hq => ⟨?_, ?_⟩⟩
    · exact (setPeg_peg hwf p v q).trans (if_neg hq)
    · exact (setPeg_peg hwf p _ q).trans (if_neg hq)

end Sys2Proof.Proofs
end

section
/-! PROOF. The life of a port (spec/06): the expiry of the hold timer takes the port's entry out of the store of ports where nothing else
stands in it; where that store lists the port twice, the second entry shows. -/

namespace Sys2Proof.Proofs
open Sys2Proof Sys2Proof.Machine

/-- A module whose first port is held, and whose store of ports lists that port twice with its hold timer running. -/
def portListedTwice : State :=
  { regs := [(prtState 0, F.PRT_PORT_STATE_STATE.put psHeld)], ports := [(0, { holdRunning := true }), (0, { holdRunning := true })] }

/-- After the expiry the second entry shows: the hold timer still runs. -/
theorem portListedTwice_expiry : ∃ t, exec (.holdExpiry 0) portListedTwice = .next t ∧ (t.port (0 : Fin 2048).val).holdRunning = true :=
  ⟨_, rfl, by decide +kernel⟩

/-- Refutes O41: the clause on the expiry of the hold timer does not ask that the store of ports be canonical, and in
`portListedTwice`, where it is not, the timer runs after it. -/
theorem not_portLifecycle : ¬ Obligations.PortLifecycle := by
  unfold Obligations.PortLifecycle
  rintro ⟨-, -, -, -, -, -, -, -, -, -, -, -, -, -, -, hexpiry, -⟩
  obtain ⟨t, ht, -, hstill, -⟩ := hexpiry 0 portListedTwice (by decide +kernel) (by decide) rfl rfl (by decide +kernel) (by decide +kernel)
  obtain ⟨u, hu, hruns⟩ := portListedTwice_expiry
  obtain rfl : t = u := by rw [ht] at hu; exact Host.Outcome.next.inj hu
  rw [hruns] at hstill
  exact absurd hstill (by decide)

end Sys2Proof.Proofs
end

section
/-! PROOF. The Wairn Link Exchange (spec/06): a frame that is sent takes the port's entry out of the store of ports where nothing else
stands in it; where that store lists the port twice, the second entry shows. -/

namespace Sys2Proof.Proofs
open Sys2Proof Sys2Proof.Machine

/-- A module whose first port negotiates on its lock, and whose store of ports lists that port twice, the second time with a frame
due. -/
def frameDueTwice : State :=
  { regs := [(prtCtrl 0, F.PRT_PORT_CTRL_ENABLE.put 1), (prtState 0, F.PRT_PORT_STATE_STATE.put psNegotiating),
      (R.PRT_PAIR_STATUS 0, F.PRT_PAIR_STATUS_LOCK.put 15)],
    ports := [(0, {}), (0, { lldpDue := true })] }

/-- After the frame the second entry shows: a frame is due. -/
theorem frameDueTwice_resend : ∃ t, exec (.wlxResend 0) frameDueTwice = .next t ∧ (t.port (0 : Fin 2048).val).lldpDue = true :=
  ⟨_, rfl, by decide +kernel⟩

/-- Refutes O42: the clause on a frame that is sent again does not ask that the store of ports be canonical, and in `frameDueTwice`,
where it is not, a frame is due after it. -/
theorem not_linkExchange : ¬ Obligations.LinkExchange := by
  unfold Obligations.LinkExchange
  rintro ⟨hresend, -⟩
  obtain ⟨t, ht, -, hnone, -⟩ := hresend 0 frameDueTwice (by decide +kernel) (by decide +kernel) (by decide +kernel)
  obtain ⟨u, hu, hdue⟩ := frameDueTwice_resend
  obtain rfl : t = u := by rw [ht] at hu; exact Host.Outcome.next.inj hu
  have hnot : (t.port (0 : Fin 2048).val).lldpDue = false := congrArg Port.lldpDue hnone
  rw [hnot] at hdue
  exact absurd hdue (by decide)

end Sys2Proof.Proofs
end

section
/-! PROOF. What the loss of a partner touches (spec/06, spec/12): the clock and the learned addresses of a port that goes, and, beyond the
registers of ports and forwarding, nothing. -/

namespace Sys2Proof.Machine

/-- From one state to another only the clock, the addresses, the life record, the switch, messages and counts may differ, and of the
registers those of the clock, the life record and the learned addresses. -/
structure State.Gone (s t : State) : Prop where
  frame : t = { s with regs := t.regs, tim := t.tim, fwd := t.fwd, out := t.out, ldg := t.ldg, cnt := t.cnt, swc := t.swc }
  wf : s.regsWf = true → t.regsWf = true
  rd : ∀ o, 0x200000 ≤ o → o < 0x804000 ∨ 0x808000 ≤ o → t.rd o = s.rd o

section
variable {s₀ s t : State}

theorem State.Gone.refl (s : State) : s.Gone s := ⟨rfl, id, fun _ _ _ => rfl⟩

theorem State.Gone.upd {ti fw o ld cn sw} (h : s₀.Gone s) :
    s₀.Gone ⟨s.regs, s.board, s.lasers, s.sills, s.injecting, o, s.host, s.dxn, s.ports, fw, sw, s.bsn, s.ten, s.spl, ti, s.mem,
      s.pwr, s.sec, s.cfg, s.pln, ld, cn, s.free, s.pending⟩ := by
  obtain ⟨hframe, hwf, hrd⟩ := h
  exact ⟨by rw [hframe], hwf, hrd⟩

theorem State.Gone.wr {off v} (h : s₀.Gone s) (ho : off < 0x200000 ∨ 0x804000 ≤ off ∧ off < 0x808000 := by decide) :
    s₀.Gone (s.wr off v) := by
  obtain ⟨hframe, hwf, hrd⟩ := h
  refine ⟨?_, fun hw => s.wr_regsWf _ _ (hwf hw), fun o h1 h2 => (s.rd_wr_of_ne v (by omega)).trans (hrd o h1 h2)⟩
  rw [State.wr, hframe]

theorem State.Gone.setFld {off f v} (h : s₀.Gone s) (ho : off < 0x200000 ∨ 0x804000 ≤ off ∧ off < 0x808000 := by decide) :
    s₀.Gone (s.setFld off f v) := h.wr ho

theorem State.Gone.ite {c : Prop} [Decidable c] (hs : s₀.Gone s) (ht : s₀.Gone t) : s₀.Gone (if c then s else t) := by
  split
  · exact hs
  · exact ht

theorem State.Gone.foldl {α : Type} {f : State → α → State} {l : List α}
    (hf : ∀ t x, s₀.Gone t → s₀.Gone (f t x)) (h : s₀.Gone s) : s₀.Gone (l.foldl f s) :=
  foldl_keeps (fun t x _ ht => hf t x ht) h

theorem State.Gone.countBy {key n} (h : s₀.Gone s) : s₀.Gone (s.countBy key n) := by
  unfold State.countBy
  extract_lets c _
  exact .upd h

theorem State.Gone.count {key} (h : s₀.Gone s) : s₀.Gone (s.count key) := by
  unfold State.count
  exact h.countBy

theorem State.Gone.raise {v} (h : s₀.Gone s) : s₀.Gone (s.raise v) := by
  unfold State.raise
  exact .count (.upd h)

theorem State.Gone.journal {kind subject data} (h : s₀.Gone s) : s₀.Gone (s.journal kind subject data) := by
  unfold State.journal
  split
  · extract_lets b _
    exact .upd h
  · exact .ite h h.setFld.raise

theorem State.Gone.timBit {f} (h : s₀.Gone s) : s₀.Gone (s.timBit f) := by
  unfold State.timBit
  exact .ite h h.setFld.raise

theorem State.Gone.gapEntry (h : s₀.Gone s) : s₀.Gone s.gapEntry := by
  unfold State.gapEntry
  split
  · extract_lets last off s1 _
    have h1 : s₀.Gone s1 := h.journal
    exact .upd h1
  · exact h

theorem State.Gone.timTo {st} (h : s₀.Gone s) : s₀.Gone (s.timTo st) := by
  unfold State.timTo
  split
  · exact h
  · extract_lets s1 s11 _ s12
    have h1 : s₀.Gone s1 := h.setFld.setFld
    have h11 : s₀.Gone s11 := h1.raise
    have h12 : s₀.Gone s12 := .upd h11
    exact .ite h12.setFld.gapEntry h12

theorem State.Gone.setPtp {p x'} (h : s₀.Gone s) : s₀.Gone (s.setPtp p x') := by
  unfold State.setPtp
  exact .upd h

theorem State.Gone.ptpDecided {s''} (h : s₀.Gone s) : s₀.Gone (s.ptpDecided s'') := by
  unfold State.ptpDecided
  split
  · exact h
  · extract_lets till
    exact .foldl (fun _ _ h => .ite h.setPtp h) h

theorem State.Gone.parentRegs (h : s₀.Gone s) : s₀.Gone s.parentRegs := by
  unfold State.parentRegs
  extract_lets d s1 s11
  have h1 : s₀.Gone s1 := h.setFld
  have h11 : s₀.Gone s11 := h1.setFld.wr.wr
  split
  · extract_lets s12 s13
    have h12 : s₀.Gone s12 := h1.setFld.wr
    have h13 : s₀.Gone s13 := h12.wr.setFld
    exact h13.setFld.setFld
  · exact h11.setFld.setFld

theorem State.Gone.bestMaster (h : s₀.Gone s) : s₀.Gone s.bestMaster := by
  unfold State.bestMaster
  extract_lets best _
  split
  · clear_value best
    split
    · split
      · exact h
      · extract_lets same s1
        have h1 : s₀.Gone s1 := .parentRegs (.upd h)
        exact .ite h1 h1.timTo.timBit
    · exact h
  · clear_value best
    split
    · split
      · exact h
      · extract_lets same s1
        have h1 : s₀.Gone s1 := .parentRegs (.upd h)
        exact .ite h1 h1.timTo.timBit
    · exact h

theorem State.Gone.sourceLost (h : s₀.Gone s) : s₀.Gone s.sourceLost := by
  unfold State.sourceLost
  exact .timTo (.upd h)

theorem State.Gone.parentLost (h : s₀.Gone s) : s₀.Gone s.parentLost := by
  unfold State.parentLost
  split
  · exact h
  · extract_lets p _ s1 s11
    have h1 : s₀.Gone s1 := .upd h
    have h11 : s₀.Gone s11 := h1.parentRegs.sourceLost
    exact .ptpDecided h11.bestMaster

theorem State.Gone.timPortDown {p} (h : s₀.Gone s) : s₀.Gone (s.timPortDown p) := by
  unfold State.timPortDown
  extract_lets _ s1
  have h1 : s₀.Gone s1 := .upd h
  exact .ite h1.parentLost h1

theorem State.Gone.dropMac {p : MacEntry → Bool} (hp : ∀ e, p e = true → e.port < 2048) (h : s₀.Gone s) : s₀.Gone (s.dropMac p) := by
  unfold State.dropMac
  extract_lets gone _ s1
  have h1 : s₀.Gone s1 := .upd h
  refine foldl_keeps (fun t e he ht => ht.setFld (.inr ?_)) h1
  have hport := hp e (List.mem_filter.1 he).2
  simp only [R.FWD_MAC_PORT]
  omega

/-- What goes with a port. -/
theorem State.Gone.portGone {p} (hp : p < 2048) (h : s₀.Gone s) : s₀.Gone (s.portGone p) := by
  unfold State.portGone
  extract_lets _ s1
  have h1 : s₀.Gone s1 := .timPortDown (.upd h)
  exact .ite (h1.dropMac fun e he => by rw [beq_iff_eq] at he; omega) h1

/-- From one state to another the sills and the registers beyond those of ports and learned addresses are the same. -/
structure State.Silent (s t : State) : Prop where
  sills : t.sills = s.sills
  rd : ∀ o, 0x808000 ≤ o → t.rd o = s.rd o

theorem State.Silent.refl (s : State) : s.Silent s := ⟨rfl, fun _ _ => rfl⟩

theorem State.Silent.congr (h : s₀.Silent s) (hsills : t.sills = s.sills) (hregs : t.regs = s.regs) : s₀.Silent t :=
  ⟨hsills.trans h.sills, fun o ho => (State.rd_congr hregs o).trans (h.rd o ho)⟩

theorem State.Silent.sends (h : s₀.Silent s) (k : s.Sends t) : s₀.Silent t := h.congr (by rw [k]) k.regs

theorem State.Silent.wr {off v} (h : s₀.Silent s) (ho : off < 0x808000) : s₀.Silent (s.wr off v) :=
  ⟨h.sills, fun o h1 => (s.rd_wr_of_ne v (by omega)).trans (h.rd o h1)⟩

theorem State.Silent.setFld {off f v} (h : s₀.Silent s) (ho : off < 0x808000) : s₀.Silent (s.setFld off f v) := h.wr ho

theorem State.Silent.ite {c : Prop} [Decidable c] (hs : s₀.Silent s) (ht : s₀.Silent t) : s₀.Silent (if c then s else t) := by
  split
  · exact hs
  · exact ht

theorem State.Silent.setPort {p x} (h : s₀.Silent s) : s₀.Silent (s.setPort p x) := h.sends (State.Sends.refl s).setPort

theorem State.Silent.portGone {p} (h : s₀.Silent s) (hp : p < 2048) : s₀.Silent (s.portGone p) :=
  have hgone := (State.Gone.refl s).portGone hp
  ⟨(by rw [hgone.frame] : (s.portGone p).sills = s.sills).trans h.sills,
    fun o ho => (hgone.rd o (by omega) (.inr ho)).trans (h.rd o ho)⟩

theorem prtState_lt {p : Nat} (hp : p < 2048) : prtState p < 0x808000 := by
  simp only [prtState, R.PRT_PORT_STATE]
  omega

theorem State.Silent.logEntry {head size a b} {entry info : Nat → Nat} (h : s₀.Silent s) (hsize : 0 < size) (hhead : head < 0x808000)
    (hentry : ∀ k, k < size → entry k < 0x808000) (hinfo : ∀ k, k < size → info k < 0x808000) :
    s₀.Silent (s.logEntry head entry info size a b) := by
  have hslot : s.fld head ⟨0, 32⟩ % size < size := Nat.mod_lt _ hsize
  unfold State.logEntry
  exact ((h.wr (hentry _ hslot)).wr (hinfo _ hslot)).setFld hhead

theorem State.Silent.raise {v} (h : s₀.Silent s) : s₀.Silent (s.raise v) := h.congr rfl rfl

theorem State.Silent.prtEvent {kind port partnerPort identity} (h : s₀.Silent s) :
    s₀.Silent (s.prtEvent kind port partnerPort identity) := by
  have hlog := h.logEntry (size := 256) (a := F.PRT_EVENT_KIND.put kind ||| F.PRT_EVENT_PORT.put port ||| F.PRT_EVENT_PARTNER_PORT.put partnerPort)
    (b := identity) (by decide) (head := R.PRT_EVENT_HEAD) (by decide) (entry := R.PRT_EVENT) (fun k hk => by simp only [R.PRT_EVENT]; omega)
    (info := R.PRT_EVENT_ID) (fun k hk => by simp only [R.PRT_EVENT_ID]; omega)
  exact hlog.raise

section
variable {p : Nat} (hp : p < 2048)
include hp

theorem State.Silent.portTo {st} (h : s₀.Silent s) : s₀.Silent (s.portTo p st) := h.setFld (prtState_lt hp)

theorem State.Silent.clearAgreed (h : s₀.Silent s) : s₀.Silent (s.clearAgreed p) := h.wr (prtState_lt hp)

theorem State.Silent.startExchange (h : s₀.Silent s) : s₀.Silent (s.startExchange p) := by
  unfold State.startExchange
  exact (h.clearAgreed hp).setPort.sends (State.Sends.refl _).newNonce

theorem State.Silent.leftUp {reason} (h : s₀.Silent s) : s₀.Silent (s.leftUp p reason) :=
  (h.setFld (prtState_lt hp)).sends (State.Sends.refl _).count

theorem State.Silent.holdExpire (h : s₀.Silent s) : s₀.Silent (s.holdExpire p) := by
  unfold State.holdExpire
  extract_lets x s1 s11
  have h1 : s₀.Silent s1 := h.setPort.sends (State.Sends.refl _).evacuate
  have h11 : s₀.Silent s11 := h1.prtEvent
  exact .ite (.ite (h11.portTo hp) h11) h

theorem State.Silent.startHold (h : s₀.Silent s) : s₀.Silent (s.startHold p) := by
  unfold State.startHold
  split
  · extract_lets _ s1
    have h1 : s₀.Silent s1 := h.setPort
    exact .ite (h1.holdExpire hp) h1

theorem State.Silent.goDown {reason} (h : s₀.Silent s) : s₀.Silent (s.goDown p reason) := by
  unfold State.goDown
  exact .ite ((((h.leftUp hp).portTo hp).portGone hp).startHold hp) (.ite ((h.leftUp hp).setPort.startHold hp) h)

/-- What a dead partner touches. -/
theorem State.Silent.partnerDead {reason} (h : s₀.Silent s) : s₀.Silent (s.partnerDead p reason) := by
  unfold State.partnerDead
  split
  · exact h.goDown hp
  · extract_lets s1 s11
    have h1 : s₀.Silent s1 := .ite (h.goDown hp) (h.portGone hp)
    have h11 : s₀.Silent s11 := .ite h1 (h1.portTo hp)
    exact h11.startExchange hp

end

end

end Sys2Proof.Machine
end

section
/-! PROOF. Sills (spec/02 R60 to R65): pulses and acknowledges, overruns, injection. -/

namespace Sys2Proof.Proofs
open Sys2Proof Sys2Proof.Machine

/-! ## Pulses -/

section
variable {s : State} {g b : Nat}

theorem takeInjected_none (h : s.injecting = none) : s.takeInjected g b = (false, s) := by
  unfold State.takeInjected
  rw [h]

theorem pulse_idle {c : SillClass} (h : s.injecting = none) (hidle : (sget {} s.sills (sillKey g b)).busy = false) :
    s.pulse g b c = s.sillCapture g b 1 0 := by
  unfold State.pulse
  rw [takeInjected_none h]
  exact if_pos hidle

/-- A sill that a pulse met. -/
def putSill (s : State) (g b : Nat) (x : Sill) : State := { s with sills := sset {} s.sills (sillKey g b) x }

theorem pulse_count {x : Sill} (h : s.injecting = none) (hx : sget {} s.sills (sillKey g b) = x) (hbusy : x.busy = true)
    (hphase : x.phase < 15) :
    s.pulse g b .count = putSill s g b { x with phase := x.phase + 1, acc := min 15 (x.acc + 1) } := by
  subst hx
  unfold State.pulse
  rw [takeInjected_none h]
  refine (if_neg (by rw [hbusy]; decide)).trans (if_pos (by omega))

theorem pulse_event {x : Sill} (h : s.injecting = none) (hx : sget {} s.sills (sillKey g b) = x) (hbusy : x.busy = true)
    (hphase : x.phase ≠ 1) : s.pulse g b .event = putSill s g b { x with phase := x.phase + 1 } := by
  subst hx
  unfold State.pulse
  rw [takeInjected_none h]
  exact (if_neg (by rw [hbusy]; decide)).trans (if_neg (by omega))

theorem pulse_overrun {c : SillClass} {x : Sill} (h : s.injecting = none) (hx : sget {} s.sills (sillKey g b) = x) (hbusy : x.busy = true)
    (hphase : c = .count ∧ x.phase = 15 ∨ c = .event ∧ x.phase = 1) :
    s.pulse g b c = (putSill s g b { x with phase := x.phase + 1 }).overrun g b := by
  subst hx
  unfold State.pulse
  rw [takeInjected_none h]
  refine (if_neg (by rw [hbusy]; decide)).trans ?_
  rcases hphase with ⟨rfl, hp⟩ | ⟨rfl, hp⟩
  · exact (if_neg (by omega)).trans (if_pos (by omega))
  · exact if_pos (by omega)

theorem exec_sillPulse {g : Fin 273} {b : Fin 64} {c : SillClass} (h : sillClass g b = some c) :
    exec (.sillPulse g b) s = .next (s.pulse g b c) := by
  refine congrArg Host.Outcome.next ?_
  rw [h]

end

/-! ## Overruns -/

theorem modeLanes_pos (m : Nat) : 0 < modeLanes m := by
  unfold modeLanes
  match m with
  | 0 | 1 | 2 | 3 => decide
  | _ + 4 => exact Nat.one_pos

theorem lanePort_lt (s : State) {g l : Nat} (hg : g < 256) (hl : l < 8) : s.lanePort g l < 2048 := by
  have hle : l / modeLanes (s.pairMode g) * modeLanes (s.pairMode g) ≤ l := Nat.div_mul_le_self ..
  change 8 * g + l / modeLanes (s.pairMode g) * modeLanes (s.pairMode g) < 2048
  omega

/-- What an overrun does to its owner touches no sill and no register of the sills. -/
theorem overrunEffect_silent (s : State) (g : Nat) {b : Nat} (hb : b < 64) : s.Silent (s.overrunEffect g b) := by
  unfold State.overrunEffect
  have hmark : ∀ (s t : State) (k : Nat), s.Silent t → s.Silent (t.markLower k) := fun s t k h => h.congr rfl rfl
  split
  · next hg =>
    split
    · exact hmark s s _ (.refl s)
    · split
      · exact .ite ((State.Silent.refl s).partnerDead (lanePort_lt s hg (by omega))) (.refl s)
      · exact .refl s
  · split
    · exact (State.Silent.refl s).congr rfl rfl
    · split
      · exact hmark _ _ _ (hmark _ _ _ (hmark _ _ _ (.refl s)))
      · split
        · exact .ite (hmark _ _ _ (.refl s)) (.refl s)
        · split
          · have hrd : ∀ o, o ≠ R.HIF_ERR_STATUS → (s.hifError 6).rd o = s.rd o := fun o ho => hifError_rd s 6 ho
            have hframe := hifError_frame s 6
            generalize s.hifError 6 = u at hrd hframe ⊢
            refine ⟨by rw [hframe], fun o ho => hrd o fun he => ?_⟩
            simp only [he, R.HIF_ERR_STATUS] at ho
            omega
          · exact .refl s

/-- An overrun is flagged, summarized and counted. -/
theorem overrun_flags {s : State} {g b : Nat} (hwf : s.regsWf = true) (hg : g < 273) (hb : b < 64) :
    (s.overrun g b).bit (R.SIL_OVR g) b = true ∧ (s.overrun g b).bit (R.SIL_OVR_SUMMARY (g / 64)) (g % 64) = true ∧
    (s.overrun g b).fld R.SIL_OVR_COUNT F.SIL_OVR_COUNT_COUNT = (s.fld R.SIL_OVR_COUNT F.SIL_OVR_COUNT_COUNT + 1) % 2 ^ 48 ∧
    (s.overrun g b).sills = s.sills := by
  have h1 : R.SIL_OVR g ≠ R.SIL_OVR_SUMMARY (g / 64) := by simp only [R.SIL_OVR, R.SIL_OVR_SUMMARY]; omega
  have h2 : R.SIL_OVR g ≠ R.SIL_OVR_COUNT := by simp only [R.SIL_OVR, R.SIL_OVR_COUNT]; omega
  have h3 : R.SIL_OVR_SUMMARY (g / 64) ≠ R.SIL_OVR_COUNT := by simp only [R.SIL_OVR_SUMMARY, R.SIL_OVR_COUNT]; omega
  unfold State.overrun
  have hflag := bit_setBit_self (off := R.SIL_OVR g) true hwf hb
  have hwf1 : (s.setBit (R.SIL_OVR g) b true).regsWf = true := s.setFld_regsWf _ _ _ hwf
  have hcount1 := s.fld_setFld_of_ne ⟨b, 1⟩ F.SIL_OVR_COUNT_COUNT (b2n true) h2.symm
  have hsills1 : (s.setBit (R.SIL_OVR g) b true).sills = s.sills := rfl
  change (s.setBit (R.SIL_OVR g) b true).fld _ _ = _ at hcount1
  generalize s.setBit (R.SIL_OVR g) b true = u at hflag hwf1 hcount1 hsills1 ⊢
  have hsum := bit_setBit_self (s := u) (off := R.SIL_OVR_SUMMARY (g / 64)) (i := g % 64) true hwf1 (by omega)
  have hflag2 := (bit_setBit_of_ne u (g % 64) b true h1).trans hflag
  have hwf2 : (u.setBit (R.SIL_OVR_SUMMARY (g / 64)) (g % 64) true).regsWf = true := u.setFld_regsWf _ _ _ hwf1
  have hcount2 := (u.fld_setFld_of_ne ⟨g % 64, 1⟩ F.SIL_OVR_COUNT_COUNT (b2n true) h3.symm).trans hcount1
  have hsills2 : (u.setBit (R.SIL_OVR_SUMMARY (g / 64)) (g % 64) true).sills = s.sills := hsills1
  change (u.setBit _ _ true).fld _ _ = _ at hcount2
  generalize u.setBit (R.SIL_OVR_SUMMARY (g / 64)) (g % 64) true = v at hsum hflag2 hwf2 hcount2 hsills2 ⊢
  have hcount3 := v.fld_setFld_self R.SIL_OVR_COUNT F.SIL_OVR_COUNT_COUNT (v.fld R.SIL_OVR_COUNT F.SIL_OVR_COUNT_COUNT + 1) hwf2 (by decide)
  rw [hcount2] at hcount3
  have hrd3 : ∀ o, o ≠ R.SIL_OVR_COUNT → (v.incFld R.SIL_OVR_COUNT F.SIL_OVR_COUNT_COUNT).rd o = v.rd o :=
    fun o ho => v.rd_setFld_of_ne _ _ ho
  have hcount4 : (v.incFld R.SIL_OVR_COUNT F.SIL_OVR_COUNT_COUNT).fld R.SIL_OVR_COUNT F.SIL_OVR_COUNT_COUNT =
      (s.fld R.SIL_OVR_COUNT F.SIL_OVR_COUNT_COUNT + 1) % 2 ^ 48 := by
    unfold State.incFld
    rw [hcount2]
    exact hcount3
  have hsills3 : (v.incFld R.SIL_OVR_COUNT F.SIL_OVR_COUNT_COUNT).sills = s.sills := (v.incFld_sills ..).trans hsills2
  generalize v.incFld R.SIL_OVR_COUNT F.SIL_OVR_COUNT_COUNT = w at hrd3 hcount4 hsills3 ⊢
  obtain ⟨hsills, hrd⟩ := overrunEffect_silent w g hb
  refine ⟨?_, ?_, ?_, hsills.trans hsills3⟩
  · rw [State.bit, hrd _ (by simp only [R.SIL_OVR]; omega), hrd3 _ h2]
    exact hflag2
  · rw [State.bit, hrd _ (by simp only [R.SIL_OVR_SUMMARY]; omega), hrd3 _ h3]
    exact hsum
  · rw [State.fld, hrd _ (by decide)]
    exact hcount4

/-! ## Injection -/

theorem sillCapture_frame (s : State) (g b n k : Nat) : s.sillCapture g b n k =
    { s with sills := (s.sillCapture g b n k).sills, cnt := (s.sillCapture g b n k).cnt } := by
  unfold State.sillCapture State.sillDeliver
  dsimp only
  split
  · rfl
  · split <;> rfl

/-- A sill with a transfer under way, captured. -/
def captured (x : Sill) (n k : Nat) : Sill :=
  { x with acc := 0, injected := 0, busy := true, inFlight := n, phase := 0, dest := x.dest + (n - k) }

theorem sillCapture_dest (s : State) (g b n k : Nat) : (sget {} (s.sillCapture g b n k).sills (sillKey g b)).dest =
    (sget {} s.sills (sillKey g b)).dest + (n - k) := by
  have hne : captured (sget {} s.sills (sillKey g b)) n k ≠ {} := fun he => by
    have hbusy : true = false := congrArg Sill.busy he
    exact absurd hbusy (by decide)
  have hput : sset {} s.sills (sillKey g b) (captured (sget {} s.sills (sillKey g b)) n k) =
      sput s.sills (sillKey g b) (captured (sget {} s.sills (sillKey g b)) n k) := if_neg hne
  have hsills : (s.sillCapture g b n k).sills = sput s.sills (sillKey g b) (captured (sget {} s.sills (sillKey g b)) n k) := by
    unfold State.sillCapture State.sillDeliver
    dsimp only
    split
    · exact hput
    · split <;> exact hput
  rw [hsills, sget_sput_self]
  rfl

/-- The row of SIL_INJECT. -/
def silInjectRow : RegSpec := ⟨R.SIL_INJECT, [], [⟨F.SIL_INJECT_GROUP, .rw, .q, 0⟩, ⟨F.SIL_INJECT_BIT, .rw, .q, 0⟩,
  ⟨F.SIL_INJECT_PULSES, .rw, .q, 0⟩, ⟨F.SIL_INJECT_GO, .w1s, .q, 0⟩]⟩

theorem findReg_silInject : findReg R.SIL_INJECT = some silInjectRow := by decide +kernel

/-- The word that injects. -/
def injectWord (g n : Nat) (b : Nat) : Word :=
  F.SIL_INJECT_GO.put 1 ||| F.SIL_INJECT_GROUP.put g ||| F.SIL_INJECT_BIT.put b ||| F.SIL_INJECT_PULSES.put n

theorem injectWord_fields {g n b : Nat} (hg : g < 512) (hb : b < 64) (hn : n < 256) :
    F.SIL_INJECT_GO.get (injectWord g n b) = 1 ∧ F.SIL_INJECT_GROUP.get (injectWord g n b) = g ∧
    F.SIL_INJECT_BIT.get (injectWord g n b) = b ∧ F.SIL_INJECT_PULSES.get (injectWord g n b) = n := by
  have disjoint := fun (f g : Fld) v hd hg => Fld.get_put_of_disjoint f g v hd hg
  unfold injectWord
  simp only [Fld.get_or]
  refine ⟨?_, ?_, ?_, ?_⟩
  · rw [Fld.get_put_self _ _ (by decide), disjoint _ _ _ (by decide) (by decide), disjoint _ _ _ (by decide) (by decide),
      disjoint _ _ _ (by decide) (by decide)]
    rfl
  · rw [Fld.get_put_self F.SIL_INJECT_GROUP _ (by decide), disjoint _ _ _ (by decide) (by decide), disjoint _ _ _ (by decide) (by decide),
      disjoint _ _ _ (by decide) (by decide), Nat.zero_or, Nat.or_zero, Nat.or_zero]
    exact Nat.mod_eq_of_lt hg
  · rw [Fld.get_put_self F.SIL_INJECT_BIT _ (by decide), disjoint _ _ _ (by decide) (by decide), disjoint _ _ _ (by decide) (by decide),
      disjoint _ _ _ (by decide) (by decide), Nat.zero_or, Nat.zero_or, Nat.or_zero]
    exact Nat.mod_eq_of_lt hb
  · rw [Fld.get_put_self F.SIL_INJECT_PULSES _ (by decide), disjoint _ _ _ (by decide) (by decide), disjoint _ _ _ (by decide) (by decide),
      disjoint _ _ _ (by decide) (by decide), Nat.zero_or, Nat.zero_or, Nat.zero_or]
    exact Nat.mod_eq_of_lt hn

theorem blockRuns_silInject (s : State) (v : Word) : s.blockRuns R.SIL_INJECT R.SIL_INJECT v =
    !s.sillOwnerOff (F.SIL_INJECT_GROUP.get v) (F.SIL_INJECT_BIT.get v) := rfl

theorem writeEffect_silInject (s : State) (old v : Word) : s.writeEffect R.SIL_INJECT R.SIL_INJECT old v false {} =
    if F.SIL_INJECT_GO.get v = 1 ∧ false = false then
      s.injectStart (F.SIL_INJECT_GROUP.get v) (F.SIL_INJECT_BIT.get v) (F.SIL_INJECT_PULSES.get v)
    else s := rfl

theorem exec_silInject_write (g : BitVec 9) (b : BitVec 6) (n : BitVec 8) (s : State) :
    exec (.silInject g b n) s = .next (s.writeReg R.SIL_INJECT (injectWord g.toNat n.toNat b.toNat) {}) := rfl

theorem writeReg_silInject {s : State} {v : Word} (hoff : s.sillOwnerOff (F.SIL_INJECT_GROUP.get v) (F.SIL_INJECT_BIT.get v) = true)
    (hgo : F.SIL_INJECT_GO.get v = 1) : ∃ w, s.writeReg R.SIL_INJECT v {} =
      (s.wr R.SIL_INJECT w).injectStart (F.SIL_INJECT_GROUP.get v) (F.SIL_INJECT_BIT.get v) (F.SIL_INJECT_PULSES.get v) := by
  have hruns : s.blockRuns R.SIL_INJECT R.SIL_INJECT v = false := by
    rw [blockRuns_silInject, hoff]
    rfl
  refine ⟨_, (State.writeReg_of_row findReg_silInject (by decide) (State.goBusy_of_not_mem (by decide) ..) ?_ _).trans
    ((writeEffect_silInject ..).trans (if_pos ⟨hgo, rfl⟩))⟩
  exact (congrArg (_ && ·) hruns).trans (Bool.and_false _)

theorem exec_silInject {s : State} {g : BitVec 9} {b : BitVec 6} {n : BitVec 8} (hoff : s.sillOwnerOff g.toNat b.toNat = true)
    (hg : g.toNat ≤ 272) (hclass : sillClass g.toNat b.toNat ≠ none) (hn : n ≠ 0) : ∃ w, exec (.silInject g b n) s =
      .next { (s.wr R.SIL_INJECT w).setFld R.SIL_INJECT F.SIL_INJECT_GO 1 with injecting := some (g.toNat, b.toNat, n.toNat) } := by
  obtain ⟨hgo, hgroup, hbit, hpulses⟩ := injectWord_fields g.isLt b.isLt n.isLt
  rw [exec_silInject_write]
  generalize injectWord g.toNat n.toNat b.toNat = v at hgo hgroup hbit hpulses ⊢
  obtain ⟨w, hw⟩ := writeReg_silInject (s := s) (v := v) (by rw [hgroup, hbit]; exact hoff) hgo
  have hzero : n.toNat ≠ 0 := fun h => hn (BitVec.eq_of_toNat_eq h)
  refine ⟨w, congrArg _ (hw.trans ?_)⟩
  rw [hgroup, hbit, hpulses]
  exact if_neg (by simp [hclass, hzero, Option.isNone_iff_eq_none]; omega)

/-- Settles O17. -/
theorem sills : Obligations.Sills := by
  unfold Obligations.Sills
  refine ⟨?reserved, ?idle, ?counted, ?overrun, ?event, ?acknowledge,
    fun g b n k s => ⟨sillCapture_frame s g b n k, sillCapture_dest s g b n k⟩, ?inject, ?done, fun d h c s => rfl⟩
  case reserved =>
    intro g b s h
    refine congrArg Host.Outcome.next ?_
    rw [h]
  case idle =>
    intro g b s hclass hinj hidle
    obtain ⟨c, hc⟩ := Option.ne_none_iff_exists'.1 hclass
    rw [exec_sillPulse hc, pulse_idle hinj hidle]
  case counted =>
    intro g b s x hclass hinj hx hbusy hphase
    rw [exec_sillPulse hclass, pulse_count hinj hx hbusy hphase]
    rfl
  case overrun =>
    intro g b s x hwf hinj hx hbusy hphase
    obtain ⟨c, hc, hcp⟩ : ∃ c, sillClass g b = some c ∧ (c = .count ∧ x.phase = 15 ∨ c = .event ∧ x.phase = 1) := by
      rcases hphase with ⟨hc, hp⟩ | ⟨hc, hp⟩
      · exact ⟨_, hc, .inl ⟨rfl, hp⟩⟩
      · exact ⟨_, hc, .inr ⟨rfl, hp⟩⟩
    obtain ⟨hbit, hsum, hcount, hsills⟩ := overrun_flags (s := putSill s g b { x with phase := x.phase + 1 }) hwf g.isLt b.isLt
    refine ⟨_, (exec_sillPulse hc).trans (congrArg _ (pulse_overrun hinj hx hbusy hcp)), hbit, hsum, hcount, ?_⟩
    have hne : ({ x with phase := x.phase + 1 } : Sill) ≠ {} := fun he => by
      have hb : x.busy = false := congrArg Sill.busy he
      rw [hbusy] at hb
      exact absurd hb (by decide)
    rw [hsills]
    unfold putSill sset
    rw [if_neg hne]
    exact sget_sput_self ..
  case event =>
    intro g b s x hclass hinj hx hbusy hphase
    rw [exec_sillPulse hclass, pulse_event hinj hx hbusy hphase]
    rfl
  case acknowledge =>
    intro g b s x hx
    subst hx
    refine ⟨fun h => congrArg _ (if_pos h), fun h h0 => congrArg _ ((if_neg (by rw [h]; decide)).trans (if_pos h0)),
      fun h h0 => congrArg _ ((if_neg (by rw [h]; decide)).trans (if_neg h0))⟩
  case inject =>
    intro g b n s hwf hoff hg hclass hn
    obtain ⟨w, hw⟩ := exec_silInject hoff hg hclass hn
    have hwf1 : (s.wr R.SIL_INJECT w).regsWf = true := s.wr_regsWf _ _ hwf
    have hbut : s.RegsBut (s.wr R.SIL_INJECT w) [R.SIL_INJECT] := State.wr_regsBut (List.mem_singleton.2 rfl) w
    have hframe : s.wr R.SIL_INJECT w = { s with regs := (s.wr R.SIL_INJECT w).regs } := rfl
    refine ⟨_, hw, rfl, ?_⟩
    generalize s.wr R.SIL_INJECT w = u at hwf1 hbut hframe ⊢
    have hgo := u.fld_setFld_self R.SIL_INJECT F.SIL_INJECT_GO 1 hwf1 (by decide)
    refine ⟨bne_iff_ne.2 fun h0 => absurd (hgo.symm.trans h0) (by decide),
      hbut.trans (State.setFld_regsBut (List.mem_singleton.2 rfl) _ _), ?_⟩
    rw [State.setFld, State.wr, hframe]
  case done =>
    intro g b s h
    refine congrArg Host.Outcome.next ?_
    rw [h] <;> rfl

end Sys2Proof.Proofs
end

section
/-! PROOF. What a frame that a port sends touches (spec/08 R208): what is sent, the counts, and the queues that take its mirror copies. -/

namespace Sys2Proof.Machine

/-- From one state to another only the queues of the switch and the counts may differ. -/
def State.Copies (s t : State) : Prop := t = { s with swc := t.swc, cnt := t.cnt }

section
variable {s₀ s t : State}

theorem State.Copies.refl (s : State) : s.Copies s := rfl

theorem State.Copies.upd {sw cn} (h : s₀.Copies s) : s₀.Copies { s with swc := sw, cnt := cn } := by
  unfold State.Copies at *
  rw [h]

theorem State.Copies.of_snd {α : Type} {p : α × State} {w : α} (h : s₀.Copies p.2) (e : p = (w, t)) : s₀.Copies t := by
  subst e; exact h

theorem State.Copies.ite {c : Prop} [Decidable c] (hs : s₀.Copies s) (ht : s₀.Copies t) : s₀.Copies (if c then s else t) := by
  split
  · exact hs
  · exact ht

theorem State.Copies.foldl_snd {α β : Type} {f : β × State → α → β × State} {l : List α} {p : β × State}
    (hf : ∀ p x, s₀.Copies p.2 → s₀.Copies (f p x).2) (h : s₀.Copies p.2) : s₀.Copies (l.foldl f p).2 :=
  foldl_keeps (P := fun p : β × State => s₀.Copies p.2) (fun p x _ hp => hf p x hp) h

theorem State.Copies.countBy {key n} (h : s₀.Copies s) : s₀.Copies (s.countBy key n) := by
  unfold State.countBy
  extract_lets c _
  exact .upd h

theorem State.Copies.count {key} (h : s₀.Copies s) : s₀.Copies (s.count key) := by
  unfold State.count
  exact h.countBy

theorem State.Copies.store {f} (h : s₀.Copies s) : s₀.Copies (s.store f).2 := by
  unfold State.store
  exact .upd h

theorem State.Copies.setQueueKey {k l} (h : s₀.Copies s) : s₀.Copies (s.setQueueKey k l) := by
  unfold State.setQueueKey
  exact .upd h

theorem State.Copies.setQueue {p c l} (h : s₀.Copies s) : s₀.Copies (s.setQueue p c l) := by
  unfold State.setQueue
  exact h.setQueueKey

theorem State.Copies.place {p c id} (h : s₀.Copies s) : s₀.Copies (s.place p c id) := by
  unfold State.place
  extract_lets c1
  exact h.setQueue

theorem State.Copies.meshPush {l c} (h : s₀.Copies s) : s₀.Copies (s.meshPush l c) := by
  unfold State.meshPush
  extract_lets q q1 _
  exact .upd h

theorem State.Copies.spray {key a b n n'} (h : s₀.Copies s) : s₀.Copies (s.spray key a b n n') := by
  induction n generalizing s n' with
  | zero =>
    unfold State.spray
    exact h
  | succ n ih =>
    unfold State.spray
    exact ih h.meshPush

theorem State.Copies.startCross {id targets kind} (h : s₀.Copies s) : s₀.Copies (s.startCross id targets kind) := by
  unfold State.startCross
  split
  · extract_lets k r
    split
    · rename_i t e
      have h1 : s₀.Copies t := .of_snd h.store e
      extract_lets x r' _
      exact .spray (.upd h1)
  · exact h

theorem State.Copies.deliver {p c id} (h : s₀.Copies s) : s₀.Copies (s.deliver p c id) := by
  unfold State.deliver
  split
  · exact h
  · exact .ite h.place h.startCross

theorem State.Copies.mirrorCopy {n q b bad} (h : s₀.Copies s) : s₀.Copies (s.mirrorCopy n q b bad) := by
  unfold State.mirrorCopy
  extract_lets t b1 p c k
  split
  · exact h.count
  · split
    · rename_i t1 e
      have h1 : s₀.Copies t1 := .of_snd h.store e
      exact h1.deliver

theorem State.Copies.mirror {l copies q b bad} (h : s₀.Copies s) : s₀.Copies (s.mirror l copies q b bad).2 := by
  unfold State.mirror
  refine .foldl_snd (fun x n h1 => ?_) h
  split
  · exact h1.mirrorCopy
  · exact h1.count

/-- A frame sent goes out with its FCS. -/
theorem State.txFrame_out (s : State) (p : Nat) (f : Bytes) :
    (s.txFrame p f).out = { s.out with frames := s.out.frames ++ [(p, f ++ fcsOf f)] } := by
  have h := (State.Copies.refl (s.sendCounted p f)).mirror (l := s.mirrorsOf 1 p) (copies := 0) (q := portQuad p) (b := f) (bad := 0)
  unfold State.txFrame
  rw [h]
  rfl

theorem State.txFrame_frame (s : State) (p : Nat) (f : Bytes) : s.txFrame p f =
    { s with out := (s.txFrame p f).out, cnt := (s.txFrame p f).cnt, swc := (s.txFrame p f).swc } := by
  have h := (State.Copies.refl (s.sendCounted p f)).mirror (l := s.mirrorsOf 1 p) (copies := 0) (q := portQuad p) (b := f) (bad := 0)
  unfold State.txFrame
  generalize ((s.sendCounted p f).mirror (s.mirrorsOf 1 p) 0 (portQuad p) f 0).2 = t at h ⊢
  rw [h]
  rfl

/-- Without a mirror a frame sent leaves the queues. -/
theorem State.txFrame_swc {s : State} {p : Nat} (f : Bytes) (h : s.mirrorsOf 1 p = []) : (s.txFrame p f).swc = s.swc := by
  unfold State.txFrame
  rw [h]
  rfl

end

end Sys2Proof.Machine
end

section
/-! SUPPORT. A port as it is set, one bit of a byte set or cleared. -/

namespace Sys2Proof.Machine

variable {s : State} {p : Nat} {x : Port}

theorem State.port_setPort_self (hx : x ≠ {}) : (s.setPort p x).port p = x := by
  unfold State.port State.setPort sset
  rw [if_neg hx]
  exact sget_sput_self ..

theorem State.port_setPort_wf (h : swf (fun _ => {}) s.ports = true) : (s.setPort p x).port p = x :=
  sget_sset_self (d := fun _ => ({} : Port)) _ _ h

theorem State.port_setPort_of_ne {q : Nat} (h : q ≠ p) : (s.setPort p x).port q = s.port q := sget_sset_of_ne _ _ _ _ h

theorem State.setPort_wf (h : swf (fun _ => {}) s.ports = true) : swf (fun _ => {}) (s.setPort p x).ports = true := by
  have h' : swf (fun _ => {}) (sset {} s.ports p x) = true := swf_sset h
  exact h'

theorem getLsbD_bit (c k : Nat) : (BitVec.ofNat 8 (2 ^ c)).getLsbD k = (decide (k < 8) && decide (c = k)) := by
  rw [BitVec.getLsbD_ofNat, Nat.testBit_two_pow]

theorem getLsbD_setBit (x : BitVec 8) {c : Nat} (hc : c < 8) (k : Nat) :
    (x ||| BitVec.ofNat 8 (2 ^ c)).getLsbD k = if k = c then true else x.getLsbD k := by
  rw [BitVec.getLsbD_or, getLsbD_bit]
  split
  · next h => simp [h, hc]
  · next h => simp [Ne.symm h]

theorem getLsbD_clearBit (x : BitVec 8) (c k : Nat) :
    (x &&& ~~~BitVec.ofNat 8 (2 ^ c)).getLsbD k = if k = c then false else x.getLsbD k := by
  rw [BitVec.getLsbD_and, BitVec.getLsbD_not, getLsbD_bit]
  split
  · next h => simp [h]
  · next h =>
    by_cases hk : k < 8
    · simp [hk, Ne.symm h]
    · simp [hk, BitVec.getLsbD_of_ge _ _ (Nat.le_of_not_lt hk)]

end Sys2Proof.Machine
end

section
/-! PROOF. Credit frames, keepalives, tail-abort frames and priority flow control (spec/06, spec/08). -/

namespace Sys2Proof.Proofs
open Sys2Proof Sys2Proof.Machine

/-! ## Received credits -/

/-- What a credit frame says of one virtual channel. -/
def creditStep (p : Nat) (f : Bytes) (s : State) (v : Nat) : State :=
  let x := s.port p
  let r := BitVec.ofNat 32 (beAt f (16 + 4 * v) 4)
  if (r - sget 0 x.returned v).toNat < 2 ^ 31 then
    (s.setPort p { x with returned := sset 0 x.returned v r }).setFld (R.PRT_CREDIT (p / 8) (p % 8) v)
      F.PRT_CREDIT_LIMIT (sget 0 x.init v + r).toNat
  else s

theorem creditIn_eq {s : State} {p : Nat} {f : Bytes} (hup : s.portUp p = true) (hfc : s.portFc p = 2) : s.creditIn p f =
    (List.range (s.fld (prtState p) F.PRT_PORT_STATE_VCS)).foldl (creditStep p f) (s.count (ctrPort p 12)) := if_pos ⟨hup, hfc⟩

/-- The counts of a port that a credit frame is compared with are canonical. -/
structure CreditsWf (p : Nat) (s : State) : Prop where
  regs : s.regsWf = true
  ports : swf (fun _ => {}) s.ports = true
  returned : swf (fun _ => 0) (s.port p).returned = true

/-- The count of a virtual channel as a credit frame leaves it: replaced where it is not stale. -/
def creditTaken (p : Nat) (f : Bytes) (v : Nat) (s t : State) : Prop :=
  let r := BitVec.ofNat 32 (beAt f (16 + 4 * v) 4)
  if (r - sget 0 (s.port p).returned v).toNat < 2 ^ 31 then
    sget 0 (t.port p).returned v = r ∧
    t.fld (R.PRT_CREDIT (p / 8) (p % 8) v) F.PRT_CREDIT_LIMIT = (sget 0 (s.port p).init v + r).toNat
  else sget 0 (t.port p).returned v = sget 0 (s.port p).returned v ∧
    t.rd (R.PRT_CREDIT (p / 8) (p % 8) v) = s.rd (R.PRT_CREDIT (p / 8) (p % 8) v)

/-- Between two states the counts of the virtual channels `l` alone may differ. -/
structure CreditsBut (p : Nat) (l : List Nat) (s t : State) : Prop where
  init : (t.port p).init = (s.port p).init
  returned : ∀ v, v ∉ l → sget 0 (t.port p).returned v = sget 0 (s.port p).returned v
  regs : s.RegsBut t (l.map fun v => R.PRT_CREDIT (p / 8) (p % 8) v)
  others : ∀ q, q ≠ p → t.port q = s.port q

theorem prtCredit_inj {p v w : Nat} (h : R.PRT_CREDIT (p / 8) (p % 8) v = R.PRT_CREDIT (p / 8) (p % 8) w) : v = w := by
  simp only [R.PRT_CREDIT] at h
  omega

section
variable {s t u : State} {p v : Nat} {f : Bytes} {l : List Nat}

theorem creditStep_stale (h : ¬ (BitVec.ofNat 32 (beAt f (16 + 4 * v) 4) - sget 0 (s.port p).returned v).toNat < 2 ^ 31) :
    creditStep p f s v = s := if_neg h

theorem creditStep_taken (hwf : CreditsWf p s) :
    CreditsWf p (creditStep p f s v) ∧ creditTaken p f v s (creditStep p f s v) ∧ CreditsBut p [v] s (creditStep p f s v) := by
  by_cases hnew : (BitVec.ofNat 32 (beAt f (16 + 4 * v) 4) - sget 0 (s.port p).returned v).toNat < 2 ^ 31
  · let x : Port := { s.port p with returned := sset 0 (s.port p).returned v (BitVec.ofNat 32 (beAt f (16 + 4 * v) 4)) }
    have hport : (s.setPort p x).port p = x := State.port_setPort_wf hwf.ports
    have hother : ∀ q, q ≠ p → (s.setPort p x).port q = s.port q := fun q hq => State.port_setPort_of_ne hq
    have hports : swf (fun _ => {}) (s.setPort p x).ports = true := State.setPort_wf hwf.ports
    have hregs : (s.setPort p x).regs = s.regs := rfl
    have hstep : creditStep p f s v = (s.setPort p x).setFld (R.PRT_CREDIT (p / 8) (p % 8) v) F.PRT_CREDIT_LIMIT
        (sget 0 (s.port p).init v + BitVec.ofNat 32 (beAt f (16 + 4 * v) 4)).toNat := if_pos hnew
    rw [hstep]
    generalize s.setPort p x = y at hport hother hports hregs
    have hwfy : y.regsWf = true := State.regsWf_congr hregs hwf.regs
    have hret : sget 0 (sset 0 (s.port p).returned v (BitVec.ofNat 32 (beAt f (16 + 4 * v) 4))) v = BitVec.ofNat 32 (beAt f (16 + 4 * v) 4) :=
      sget_sset_self _ _ hwf.returned
    have hretwf : swf (fun _ => 0) (sset 0 (s.port p).returned v (BitVec.ofNat 32 (beAt f (16 + 4 * v) 4))) = true := swf_sset hwf.returned
    refine ⟨⟨y.setFld_regsWf _ _ _ hwfy, hports, ?_⟩, ?_, ?_, fun w hw => ?_, ?_, hother⟩
    · exact (congrArg (fun z : Port => swf (fun _ => 0) z.returned) hport).trans hretwf
    · unfold creditTaken
      dsimp only
      rw [if_pos hnew]
      refine ⟨(congrArg (fun z : Port => sget 0 z.returned v) hport).trans hret, ?_⟩
      rw [y.fld_setFld_self _ _ _ hwfy (by decide)]
      exact Nat.mod_eq_of_lt (BitVec.isLt _)
    · have hinit : (y.port p).init = x.init := congrArg Port.init hport
      exact hinit
    · exact (congrArg (fun z : Port => sget 0 z.returned w) hport).trans (sget_sset_of_ne _ _ _ _ (by simpa using hw))
    · exact (State.RegsBut.of_regs hregs _).trans (State.setFld_regsBut (List.mem_singleton.2 rfl) _ _)
  · rw [creditStep_stale hnew]
    refine ⟨hwf, ?_, rfl, fun _ _ => rfl, .refl _ _, fun _ _ => rfl⟩
    unfold creditTaken
    dsimp only
    rw [if_neg hnew]
    exact ⟨rfl, rfl⟩

theorem CreditsBut.trans {m : List Nat} (h : CreditsBut p l s t) (k : CreditsBut p m t u) : CreditsBut p (l ++ m) s u where
  init := k.init.trans h.init
  returned v hv := by
    rw [List.mem_append, not_or] at hv
    exact (k.returned v hv.2).trans (h.returned v hv.1)
  regs := by
    rw [List.map_append]
    exact (h.regs.mono (List.subset_append_left ..)).trans (k.regs.mono (List.subset_append_right ..))
  others q hq := (k.others q hq).trans (h.others q hq)

theorem CreditsBut.rd (h : CreditsBut p l s t) (hv : v ∉ l) :
    t.rd (R.PRT_CREDIT (p / 8) (p % 8) v) = s.rd (R.PRT_CREDIT (p / 8) (p % 8) v) := by
  refine h.regs _ fun hm => ?_
  obtain ⟨w, hw, he⟩ := List.mem_map.1 hm
  exact hv (prtCredit_inj he ▸ hw)

/-- What is taken stays taken where the later channels are others. -/
theorem creditTaken_before (h : creditTaken p f v s t) (k : CreditsBut p l t u) (hv : v ∉ l) : creditTaken p f v s u := by
  unfold creditTaken at h ⊢
  dsimp only at h ⊢
  rw [State.fld, k.rd hv, k.returned v hv]
  exact h

/-- What earlier channels leave alone is taken as before them. -/
theorem creditTaken_after (h : CreditsBut p l s t) (hv : v ∉ l) (k : creditTaken p f v t u) : creditTaken p f v s u := by
  unfold creditTaken at k ⊢
  dsimp only at k ⊢
  rw [h.rd hv, h.returned v hv, h.init] at k
  exact k

theorem credits_taken (hl : l.Nodup) (hwf : CreditsWf p s) : CreditsBut p l s (l.foldl (creditStep p f) s) ∧
    ∀ v ∈ l, creditTaken p f v s (l.foldl (creditStep p f) s) := by
  induction l generalizing s with
  | nil => exact ⟨⟨rfl, fun _ _ => rfl, .refl _ _, fun _ _ => rfl⟩, by simp⟩
  | cons a l ih =>
    obtain ⟨ha, hl⟩ := List.nodup_cons.1 hl
    obtain ⟨hwf1, htaken, hbut⟩ := creditStep_taken (f := f) (v := a) hwf
    obtain ⟨hrest, hall⟩ := ih hl hwf1
    refine ⟨hbut.trans hrest, fun v hv => ?_⟩
    rcases List.mem_cons.1 hv with rfl | hvl
    · exact creditTaken_before htaken hrest ha
    · exact creditTaken_after hbut (by rw [List.mem_singleton]; rintro rfl; exact ha hvl) (hall v hvl)

/-- A frame with a right FCS that no inverted one came before is counted, and nothing else. -/
theorem rxStart_right (hbad : (s.port p).badFcs = false) (hfcs : fcsRight f = true) :
    s.rxStart p f = (true, (s.count (ctrPort p 0)).countBy (ctrPort p 1) f.length) := by
  have hcount : s.rxCount p f.length (s.linkKind f == some 2) = (s.count (ctrPort p 0)).countBy (ctrPort p 1) f.length :=
    if_neg (Bool.eq_false_iff.1 hbad)
  unfold State.rxStart
  rw [hcount]
  exact if_pos hfcs

theorem countBy_frame (s : State) (k n : Nat) : s.countBy k n = { s with cnt := (s.countBy k n).cnt } := rfl

theorem counted_frame (s : State) (k k' n : Nat) : (s.count k).countBy k' n = { s with cnt := ((s.count k).countBy k' n).cnt } := rfl

end

/-! ## Sent frames -/

/-- The frame that carries the cells freed of each virtual channel. -/
def creditBody (s : State) (p k : Nat) : Bytes :=
  let n := s.fld (prtState p) F.PRT_PORT_STATE_VCS
  s.linkFrame 1 k (((List.range 8).flatMap fun v => beBytes 4 (if v < n then (sget 0 (s.port p).freed v).toNat else 0)) ++
    beBytes 1 (2 ^ n - 1) ++ beBytes 1 0 ++ beBytes 2 (s.port p).creditSeq.toNat)

/-- A port after a credit frame. -/
def creditSent (s : State) (p : Nat) : State := s.setPort p { s.port p with creditSeq := (s.port p).creditSeq + 1, owes := false }

section
variable {s : State} {p : Nat}

theorem creditFrame_sends (keepalive : Bool) (h : s.canSend p 64 = true) :
    s.creditFrame p keepalive = ((creditSent s p).count (ctrPort p 13)).txFrame p (creditBody s p (b2n keepalive)) :=
  if_neg (by rw [h]; decide)

theorem creditFrame_sent (keepalive : Bool) (h : s.canSend p 64 = true) :
    let t := s.creditFrame p keepalive
    t.out = { s.out with frames := s.out.frames ++ [(p, creditBody s p (b2n keepalive) ++ fcsOf (creditBody s p (b2n keepalive)))] } ∧
    t = { creditSent s p with out := t.out, cnt := t.cnt, swc := t.swc } ∧ (s.mirrorsOf 1 p = [] → t.swc = s.swc) := by
  rw [creditFrame_sends keepalive h]
  generalize creditBody s p (b2n keepalive) = f
  have hout := State.txFrame_out ((creditSent s p).count (ctrPort p 13)) p f
  have hframe := State.txFrame_frame ((creditSent s p).count (ctrPort p 13)) p f
  refine ⟨hout, ?_, fun h => State.txFrame_swc f h⟩
  generalize ((creditSent s p).count (ctrPort p 13)).txFrame p f = t at hframe ⊢
  exact hframe

theorem creditFrame_waits (keepalive : Bool) (h : s.canSend p 64 = false) :
    s.creditFrame p keepalive = s.setPort p { s.port p with owes := true } := if_pos h

/-! ## Silence -/

theorem newNonce_ne_zero (x : Word) : BitVec.ofNat 16 (1 + x.toNat % 65535) ≠ 0 := fun h => by
  have hnat := congrArg BitVec.toNat h
  rw [BitVec.toNat_ofNat] at hnat
  have hmod : (1 + x.toNat % 65535) % 2 ^ 16 = 0 := hnat
  omega

/-- A port that sends its LLDP frame keeps all but the mark that the frame is due. -/
theorem sendLldp_port (h : { s.port p with lldpDue := false } ≠ ({} : Port)) :
    (∃ d, (s.sendLldp p).port p = { s.port p with lldpDue := d }) ∧ (s.sendLldp p).regs = s.regs := by
  have hne : { s.port p with lldpDue := true } ≠ ({} : Port) := fun he => by
    have hdue : true = false := congrArg Port.lldpDue he
    exact absurd hdue (by decide)
  unfold State.sendLldp
  dsimp only
  split
  · have hframe := State.txFrame_frame ((s.setPort p { s.port p with lldpDue := false }).count (ctrPort p 11)) p (s.lldpFrame p)
    refine ⟨⟨false, ?_⟩, by rw [hframe]; rfl⟩
    rw [hframe]
    exact State.port_setPort_self h
  · exact ⟨⟨true, State.port_setPort_self hne⟩, rfl⟩

/-- A port whose exchange starts anew. -/
def exchangeAnew (x : Port) : Port := { x with partner := none, differences := 0, negStopped := false, complete := false }

/-- A port with a new NONCE. -/
def nonceAnew (x : Port) (n : BitVec 16) (due : Bool) : Port :=
  { x with ownNonce := n, answered := 0, outcome := none, theirs := none, lldpDue := due }

theorem newNonce_eq (s : State) (p : Nat) : s.newNonce p = (({ s with free := s.free + 1 } : State).setPort p (nonceAnew (s.port p)
    (BitVec.ofNat 16 (1 + (Config.freeValue s.free).toNat % 65535)) (s.port p).lldpDue)).sendLldp p := by
  unfold State.newNonce State.draw
  dsimp only
  refine congrArg (State.sendLldp · p) (congrArg (State.setPort _ p) ?_)
  rfl

/-- A port whose hold runs and whose exchange starts has a new NONCE and no partner, and reads nothing agreed on. -/
theorem startExchange_held (h : (s.port p).holdRunning = true) :
    (∃ n due, n ≠ 0 ∧ (s.startExchange p).port p = nonceAnew (exchangeAnew (s.port p)) n due) ∧
    (s.startExchange p).regs = (s.clearAgreed p).regs := by
  have hne : exchangeAnew (s.port p) ≠ {} := fun he => by
    have hrun : (s.port p).holdRunning = false := congrArg Port.holdRunning he
    rw [h] at hrun
    exact absurd hrun (by decide)
  have hstart : s.startExchange p = ((s.clearAgreed p).setPort p (exchangeAnew (s.port p))).newNonce p := rfl
  rw [hstart]
  generalize s.clearAgreed p = c
  have hport : (c.setPort p (exchangeAnew (s.port p))).port p = exchangeAnew (s.port p) := State.port_setPort_self hne
  have hregs : (c.setPort p (exchangeAnew (s.port p))).regs = c.regs := rfl
  generalize c.setPort p (exchangeAnew (s.port p)) = u at hport hregs
  have hn := newNonce_ne_zero (Config.freeValue u.free)
  generalize hN : BitVec.ofNat 16 (1 + (Config.freeValue u.free).toNat % 65535) = n at hn
  have hfresh : nonceAnew (u.port p) n (u.port p).lldpDue ≠ {} := fun he => hn (congrArg Port.ownNonce he)
  have hnonce : u.newNonce p = (({ u with free := u.free + 1 } : State).setPort p (nonceAnew (u.port p) n (u.port p).lldpDue)).sendLldp p := by
    rw [newNonce_eq, hN]
  have hport2 := State.port_setPort_self (s := { u with free := u.free + 1 }) (p := p) hfresh
  have hregs2 : (({ u with free := u.free + 1 } : State).setPort p (nonceAnew (u.port p) n (u.port p).lldpDue)).regs = c.regs := hregs
  rw [hnonce]
  generalize ({ u with free := u.free + 1 } : State).setPort p (nonceAnew (u.port p) n (u.port p).lldpDue) = v at hport2 hregs2
  obtain ⟨⟨due, hdue⟩, hv⟩ := sendLldp_port (s := v) (p := p) (fun he => hn (by
    rw [hport2] at he
    exact congrArg Port.ownNonce he))
  refine ⟨⟨n, due, hn, ?_⟩, hv.trans hregs2⟩
  rw [hdue, hport2, hport]
  rfl

/-- The registers of ports but one read the same. -/
def PortRegsBut (s t : State) (off : Nat) : Prop := ∀ o, 0x200000 ≤ o → o < 0x804000 → o ≠ off → t.rd o = s.rd o

theorem portLocked_congr {t : State} (hp : p < 2048) (h : PortRegsBut s t (prtState p)) : t.portLocked p = s.portLocked p := by
  have hctrl : t.rd (prtCtrl p) = s.rd (prtCtrl p) :=
    h _ (by simp only [prtCtrl, R.PRT_PORT_CTRL]; omega) (by simp only [prtCtrl, R.PRT_PORT_CTRL]; omega)
      (by simp only [prtCtrl, prtState, R.PRT_PORT_CTRL, R.PRT_PORT_STATE]; omega)
  have hcfg : t.rd (R.PRT_PAIR_CFG (p / 8)) = s.rd (R.PRT_PAIR_CFG (p / 8)) :=
    h _ (by simp only [R.PRT_PAIR_CFG]; omega) (by simp only [R.PRT_PAIR_CFG]; omega)
      (by simp only [prtState, R.PRT_PAIR_CFG, R.PRT_PORT_STATE]; omega)
  have hstatus : t.rd (R.PRT_PAIR_STATUS (p / 8)) = s.rd (R.PRT_PAIR_STATUS (p / 8)) :=
    h _ (by simp only [R.PRT_PAIR_STATUS]; omega) (by simp only [R.PRT_PAIR_STATUS]; omega)
      (by simp only [prtState, R.PRT_PAIR_STATUS, R.PRT_PORT_STATE]; omega)
  have hlanes : t.portLanes p = s.portLanes p := by
    unfold State.portLanes State.pairMode
    rw [State.fld_congr hcfg]
  unfold State.portLocked State.portEnabled State.portExists
  rw [State.flag_congr hctrl, hlanes, State.fld_congr hstatus]

/-- A port that leaves UP for its hold: its registers but PORT_STATE stay, and PORT_STATE names the reason. -/
theorem leftUp_held (reason : Nat) (hp : p < 2048) (hwf : s.regsWf = true) :
    let t := ((s.leftUp p reason).portTo p psHeld).portGone p
    t.portState p = psHeld ∧ t.fld (prtState p) F.PRT_PORT_STATE_DOWN_REASON = reason % 16 ∧ PortRegsBut s t (prtState p) ∧
    t.regsWf = true ∧ t.ports = s.ports := by
  have hstate := prtState_lt hp
  have hlow : 0x200000 ≤ prtState p := by simp only [prtState, R.PRT_PORT_STATE]; omega
  have hlow2 : prtState p < 0x804000 := by simp only [prtState, R.PRT_PORT_STATE]; omega
  generalize hu : s.leftUp p reason = u
  have hu1 : u.fld (prtState p) F.PRT_PORT_STATE_DOWN_REASON = reason % 16 := by
    subst hu
    exact s.fld_setFld_self _ _ _ hwf (by decide)
  have hu2 : ∀ o, o ≠ prtState p → u.rd o = s.rd o := by
    subst hu
    exact fun o ho => s.rd_setFld_of_ne _ _ ho
  have hu3 : u.regsWf = true := by
    subst hu
    exact s.setFld_regsWf _ _ _ hwf
  have hu4 : u.ports = s.ports := by
    subst hu
    rfl
  clear hu
  generalize hv : u.portTo p psHeld = v
  have hv0 : v.fld (prtState p) F.PRT_PORT_STATE_STATE = psHeld := by
    subst hv
    exact u.fld_setFld_self _ _ _ hu3 (by decide)
  have hv1 : v.fld (prtState p) F.PRT_PORT_STATE_DOWN_REASON = reason % 16 := by
    subst hv
    exact (u.fld_setFld_of_disjoint _ _ _ _ hu3 (by decide) (by decide)).trans hu1
  have hv2 : ∀ o, o ≠ prtState p → v.rd o = s.rd o := by
    subst hv
    exact fun o ho => (u.rd_setFld_of_ne _ _ ho).trans (hu2 o ho)
  have hv3 : v.regsWf = true := by
    subst hv
    exact u.setFld_regsWf _ _ _ hu3
  have hv4 : v.ports = s.ports := by
    subst hv
    exact hu4
  clear hv
  have hgone := (State.Gone.refl v).portGone hp
  have hports : (v.portGone p).ports = v.ports := by rw [hgone.frame]
  have hsame : (v.portGone p).rd (prtState p) = v.rd (prtState p) := hgone.rd _ hlow (.inl hlow2)
  exact ⟨(State.fld_congr hsame _).trans hv0, (State.fld_congr hsame _).trans hv1,
    fun o h1 h2 ho => (hgone.rd o h1 (.inl h2)).trans (hv2 o ho), hgone.wf hv3, hports.trans hv4⟩

/-- A partner of an UP port that is dead: the port is held for the reason given, keeps its lock, and its exchange starts anew. -/
theorem partnerDead_held {reason : Nat} (hp : p < 2048) (hwf : s.regsWf = true) (hup : s.portUp p = true) (hlocked : s.portLocked p = true)
    (hhold : s.fld (R.PRT_HOLD_TIME (p / 8) (p % 8)) F.PRT_HOLD_TIME_HOLD ≠ 0) (hreason : reason < 16) :
    let t := s.partnerDead p reason
    t.portState p = psHeld ∧ t.portLocked p = true ∧ t.fld (prtState p) F.PRT_PORT_STATE_DOWN_REASON = reason ∧
    (t.port p).holdRunning = true ∧ (t.port p).partner = none ∧ (t.port p).ownNonce ≠ 0 ∧ t.portFc p = 0 := by
  obtain ⟨hstate, hdown, hregs, hwf2, -⟩ := leftUp_held (s := s) (p := p) reason hp hwf
  have hnotLent : s.portState p ≠ psLent := by
    rw [show s.portState p = psUp from beq_iff_eq.1 hup]
    decide
  have hdead : s.partnerDead p reason =
      (if ((((s.leftUp p reason).portTo p psHeld).portGone p).startHold p).portState p = psHeld then
        (((s.leftUp p reason).portTo p psHeld).portGone p).startHold p
      else ((((s.leftUp p reason).portTo p psHeld).portGone p).startHold p).portTo p psNegotiating).startExchange p := by
    refine (if_neg hnotLent).trans ?_
    rw [if_pos hup]
    unfold State.goDown
    rw [if_pos hup]
  rw [hdead]
  generalize ((s.leftUp p reason).portTo p psHeld).portGone p = u at hstate hdown hregs hwf2
  have hhold2 : u.fld (R.PRT_HOLD_TIME (p / 8) (p % 8)) F.PRT_HOLD_TIME_HOLD ≠ 0 := by
    rw [State.fld, hregs _ (by simp only [R.PRT_HOLD_TIME]; omega) (by simp only [R.PRT_HOLD_TIME]; omega)
      (by simp only [prtState, R.PRT_HOLD_TIME, R.PRT_PORT_STATE]; omega)]
    exact hhold
  have hstart : u.startHold p = u.setPort p { u.port p with holdId := (u.partnerOf p).1, holdPort := (u.partnerOf p).2, holdRunning := true, complete := false } :=
    if_neg hhold2
  have hheld : ((u.startHold p).port p).holdRunning = true := by
    rw [hstart, State.port_setPort_self fun he => ?_]
    have hrun : true = false := congrArg Port.holdRunning he
    exact absurd hrun (by decide)
  have hsame : (u.startHold p).regs = u.regs := by rw [hstart]; rfl
  generalize u.startHold p = v at hheld hsame
  have hstate2 : v.portState p = psHeld := (State.fld_congr (State.rd_congr hsame _) _).trans hstate
  have hdown2 : v.fld (prtState p) F.PRT_PORT_STATE_DOWN_REASON = reason % 16 := (State.fld_congr (State.rd_congr hsame _) _).trans hdown
  have hwf3 : v.regsWf = true := State.regsWf_congr hsame hwf2
  rw [if_pos hstate2]
  obtain ⟨⟨n, due, hn, hport⟩, hlast⟩ := startExchange_held hheld
  have hword : (v.startExchange p).rd (prtState p) = F.PRT_PORT_STATE_STATE.put psHeld ||| F.PRT_PORT_STATE_DOWN_REASON.put (reason % 16) := by
    refine (State.rd_congr hlast _).trans ((v.rd_wr_self _ _ hwf3).trans ?_)
    rw [hstate2, hdown2]
  have hother : PortRegsBut s (v.startExchange p) (prtState p) := fun o h1 h2 ho =>
    (State.rd_congr hlast o).trans ((v.rd_wr_of_ne _ ho).trans ((State.rd_congr hsame o).trans (hregs o h1 h2 ho)))
  refine ⟨?_, (portLocked_congr hp hother).trans hlocked, ?_, by rw [hport]; exact hheld, by rw [hport]; rfl, by rw [hport]; exact hn, ?_⟩
  · unfold State.portState State.fld
    rw [hword, Fld.get_or, Fld.get_put_self _ _ (by decide), Fld.get_put_of_disjoint _ _ _ (by decide) (by decide)]
    rfl
  · rw [State.fld, hword, Fld.get_or, Fld.get_put_self F.PRT_PORT_STATE_DOWN_REASON _ (by decide),
      Fld.get_put_of_disjoint _ _ _ (by decide) (by decide), Nat.zero_or]
    change reason % 16 % 16 = reason
    omega
  · unfold State.portFc State.fld
    rw [hword, Fld.get_or, Fld.get_put_of_disjoint _ _ _ (by decide) (by decide), Fld.get_put_of_disjoint _ _ _ (by decide) (by decide)]
    rfl

/-! ## Pauses -/

/-- The paused classes with one paused, or for no quanta resumed. -/
def pauseBit (q : BitVec 16) (c : Nat) (x : BitVec 8) : BitVec 8 :=
  if q = 0 then x &&& ~~~BitVec.ofNat 8 (2 ^ c) else x ||| BitVec.ofNat 8 (2 ^ c)

theorem pauseBit_getLsbD (q : BitVec 16) {c : Nat} (hc : c < 8) (x : BitVec 8) (k : Nat) :
    (pauseBit q c x).getLsbD k = if k = c then q != 0 else x.getLsbD k := by
  unfold pauseBit
  by_cases hq : q = 0
  · rw [if_pos hq, getLsbD_clearBit, bne_eq_false_iff_eq.2 hq]
  · rw [if_neg hq, getLsbD_setBit _ hc, bne_iff_ne.2 hq]

/-- What a pause frame says of one class. -/
def pauseStep (p : Nat) (enable : BitVec 8) (quanta : List (BitVec 16)) (s : State) (c : Nat) : State :=
  let q := quanta.getD c 0
  if enable.getLsbD c then
    let s := if q = 0 then s else s.count (ctrPfc p c 0)
    let x := s.port p
    if x.stormed.getLsbD c then s
    else s.setPort p { x with paused := pauseBit q c x.paused }
  else s

/-- Between two states only the pauses of a port and the counts differ, the pauses of the classes `l` as the frame says. -/
structure Paused (p : Nat) (enable : BitVec 8) (quanta : List (BitVec 16)) (l : List Nat) (s t : State) : Prop where
  frame : t = { s with ports := t.ports, cnt := t.cnt }
  wf : swf (fun _ => {}) t.ports = true
  port : t.port p = { s.port p with paused := (t.port p).paused }
  bits : ∀ c, (t.port p).paused.getLsbD c =
    if c ∈ l ∧ enable.getLsbD c = true ∧ (s.port p).stormed.getLsbD c = false then quanta.getD c 0 != 0 else (s.port p).paused.getLsbD c

theorem pauseStep_paused {enable : BitVec 8} {quanta : List (BitVec 16)} {c : Nat} (hc : c < 8) (hwf : swf (fun _ => {}) s.ports = true) :
    Paused p enable quanta [c] s (pauseStep p enable quanta s c) := by
  unfold pauseStep
  extract_lets q u x
  have hu : u = { s with cnt := u.cnt } := by
    change (if q = 0 then s else s.count (ctrPfc p c 0)) = { s with cnt := (if q = 0 then s else s.count (ctrPfc p c 0)).cnt }
    split <;> rfl
  have hport : u.port p = s.port p := by rw [hu]; rfl
  have hports : u.ports = s.ports := by rw [hu]
  have hx : x = s.port p := hport
  clear_value x u
  subst hx
  split
  · next hen =>
    split
    · next hst =>
      refine ⟨by rw [hu], hports ▸ hwf, by rw [hport], fun k => ?_⟩
      rw [hport, if_neg]
      rintro ⟨hk, -, hn⟩
      rw [List.mem_singleton] at hk
      rw [hk, hst] at hn
      exact absurd hn (by decide)
    · next hst =>
      have hset := State.port_setPort_wf (s := u) (p := p) (x := { s.port p with paused := pauseBit q c (s.port p).paused }) (hports ▸ hwf)
      refine ⟨by rw [hu]; rfl, State.setPort_wf (hports ▸ hwf), by rw [hset], fun k => ?_⟩
      rw [hset]
      dsimp only
      rw [pauseBit_getLsbD q hc]
      by_cases hk : k = c
      · rw [if_pos hk, if_pos ⟨by simp [hk], by rw [hk]; exact hen, by rw [hk]; simpa using hst⟩, hk]
      · rw [if_neg hk, if_neg (by simp [hk])]
  · next hen =>
    refine ⟨rfl, hwf, rfl, fun k => ?_⟩
    rw [if_neg]
    rintro ⟨hk, he, -⟩
    rw [List.mem_singleton] at hk
    exact hen (hk ▸ he)

theorem paused_all {enable : BitVec 8} {quanta : List (BitVec 16)} {l : List Nat} (hl : ∀ c ∈ l, c < 8)
    (hwf : swf (fun _ => {}) s.ports = true) : Paused p enable quanta l s (l.foldl (pauseStep p enable quanta) s) := by
  induction l generalizing s with
  | nil => exact ⟨rfl, hwf, rfl, fun c => (if_neg (by simp)).symm⟩
  | cons a l ih =>
    have h1 := pauseStep_paused (p := p) (enable := enable) (quanta := quanta) (hl a (by simp)) hwf
    have h2 := ih (fun c hc => hl c (by simp [hc])) h1.wf
    refine ⟨by rw [List.foldl_cons, h2.frame, h1.frame], h2.wf, ?_, fun c => ?_⟩
    · rw [List.foldl_cons, h2.port, h1.port]
    · have hst : ((pauseStep p enable quanta s a).port p).stormed = (s.port p).stormed := by rw [h1.port]
      rw [List.foldl_cons, h2.bits, h1.bits, hst]
      by_cases he : enable.getLsbD c = true ∧ (s.port p).stormed.getLsbD c = false
      · by_cases hc : c ∈ l
        · rw [if_pos ⟨hc, he⟩, if_pos ⟨by simp [hc], he⟩]
        · by_cases ha : c = a
          · rw [if_neg (by tauto), if_pos ⟨by simp [ha], he⟩, if_pos ⟨by simp [ha], he⟩]
          · rw [if_neg (by tauto), if_neg (by simp [ha]), if_neg (by simp [ha, hc])]
      · rw [if_neg (by tauto), if_neg (by tauto), if_neg (by tauto)]

/-! ## Counts -/

theorem countBy_acc_self (s : State) (k : Nat) {n : Nat} (h : 0 < n) :
    (sget {} (s.countBy k n).cnt.counters k).acc = (sget {} s.cnt.counters k).acc + n := by
  have hne : ({ sget {} s.cnt.counters k with acc := (sget {} s.cnt.counters k).acc + n } : Counter) ≠ {} := fun he => by
    have hacc : (sget {} s.cnt.counters k).acc + n = 0 := congrArg Counter.acc he
    omega
  change (sget {} (sset {} s.cnt.counters k _) k).acc = _
  unfold sset
  rw [if_neg hne, sget_sput_self]

theorem countBy_acc_of_ne (s : State) {k j : Nat} (n : Nat) (h : j ≠ k) :
    sget {} (s.countBy k n).cnt.counters j = sget {} s.cnt.counters j := sget_sset_of_ne _ _ _ _ h

theorem ctrPort_ne {p i j : Nat} (h : i ≠ j) : ctrPort p i ≠ ctrPort p j := by
  simp only [ctrPort, ctrKey]
  omega

/-- The right tail-abort frame after a frame with an inverted FCS is counted as its stomp. -/
theorem rxStart_stomp {frame : Bytes} (hbad : (s.port p).badFcs = true) (hfcs : fcsRight frame = true) (hkind : s.linkKind frame = some 2) :
    s.rxStart p frame = (true, ((((s.count (ctrPort p 0)).countBy (ctrPort p 1) frame.length).setPort p
      { s.port p with badFcs := false }).count (ctrPort p 5))) := by
  have hcount : s.rxCount p frame.length (s.linkKind frame == some 2) = (((s.count (ctrPort p 0)).countBy (ctrPort p 1) frame.length).setPort p
      { s.port p with badFcs := false }).count (ctrPort p 5) := by
    rw [hkind]
    exact if_pos hbad
  unfold State.rxStart
  rw [hcount]
  exact if_pos hfcs

/-- A port's counts after its stomp. -/
def stompCounted (s : State) (p len : Nat) : State :=
  (((s.count (ctrPort p 0)).countBy (ctrPort p 1) len).setPort p { s.port p with badFcs := false }).count (ctrPort p 5)

theorem stompCounted_counts (s : State) (p len : Nat) :
    (sget {} (stompCounted s p len).cnt.counters (ctrPort p 5)).acc = (sget {} s.cnt.counters (ctrPort p 5)).acc + 1 ∧
    (sget {} (stompCounted s p len).cnt.counters (ctrPort p 4)).acc = (sget {} s.cnt.counters (ctrPort p 4)).acc := by
  have hcount (j : Nat) (h0 : j ≠ 0) (h1 : j ≠ 1) : sget {} (((s.count (ctrPort p 0)).countBy (ctrPort p 1) len).setPort p
      { s.port p with badFcs := false }).cnt.counters (ctrPort p j) = sget {} s.cnt.counters (ctrPort p j) :=
    (countBy_acc_of_ne _ _ (ctrPort_ne h1)).trans (countBy_acc_of_ne _ _ (ctrPort_ne h0))
  unfold stompCounted State.count
  rw [countBy_acc_self _ _ Nat.one_pos, countBy_acc_of_ne _ _ (ctrPort_ne (by decide))]
  exact ⟨congrArg (fun x : Counter => x.acc + 1) (hcount 5 (by decide) (by decide)), congrArg Counter.acc (hcount 4 (by decide) (by decide))⟩

theorem tailAbort_stomps {p : Fin 2048} {frame : Bytes} (hrx : s.receives p = true) (hkind : s.linkKind frame = some 2)
    (hlldp : isLldp frame = false) (hfcs : fcsRight frame = true) (hbad : (s.port p).badFcs = true) (hstate : s.portState p ≠ psQuarantine)
    (hwf : swf (fun _ => {}) s.ports = true) : Answers (exec (.tailAbortReceive p frame) s) fun t =>
      (sget {} t.cnt.counters (ctrPort p 5)).acc = (sget {} s.cnt.counters (ctrPort p 5)).acc + 1 ∧
      (sget {} t.cnt.counters (ctrPort p 4)).acc = (sget {} s.cnt.counters (ctrPort p 4)).acc ∧
      t.port p = { s.port p with badFcs := false } ∧ t = { s with ports := t.ports, cnt := t.cnt } := by
  have hstart : s.rxStart p frame = (true, stompCounted s p frame.length) := rxStart_stomp hbad hfcs hkind
  obtain ⟨h5, h4⟩ := stompCounted_counts s p frame.length
  obtain ⟨hport, hframe⟩ : (stompCounted s p frame.length).port p = { s.port p with badFcs := false } ∧ stompCounted s p frame.length =
      { s with ports := (stompCounted s p frame.length).ports, cnt := (stompCounted s p frame.length).cnt } := by
    have hu := counted_frame s (ctrPort p 0) (ctrPort p 1) frame.length
    unfold stompCounted
    generalize (s.count (ctrPort p 0)).countBy (ctrPort p 1) frame.length = u at hu
    refine ⟨State.port_setPort_wf (s := u) (by rw [hu]; exact hwf), ?_⟩
    rw [hu]
    rfl
  generalize stompCounted s p frame.length = w at hstart h5 h4 hport hframe
  have hsame : ¬ w.portState p = psQuarantine := by rw [hframe]; exact hstate
  have hexec : exec (.tailAbortReceive p frame) s = .next w := by
    refine congrArg Host.Outcome.next ((if_pos hrx).trans ?_)
    rw [hstart, hkind]
    exact (if_neg nofun).trans ((if_neg (by rw [hlldp]; decide)).trans (if_neg hsame))
  exact ⟨w, hexec, h5, h4, hport, hframe⟩

/-- The reception of a link frame is counted, and ends the mark of an inverted FCS. -/
theorem rxCount_port {len : Nat} {tail : Bool} (hwf : swf (fun _ => {}) s.ports = true) :
    (s.rxCount p len tail).port p = { s.port p with badFcs := false } ∧
    swf (fun _ => {}) (s.rxCount p len tail).ports = true ∧
    s.rxCount p len tail = { s with ports := (s.rxCount p len tail).ports, cnt := (s.rxCount p len tail).cnt } := by
  have hcount : s.rxCount p len tail =
      let t := (s.count (ctrPort p 0)).countBy (ctrPort p 1) len
      if (t.port p).badFcs then (t.setPort p { t.port p with badFcs := false }).count (ctrPort p (if tail then 5 else 4)) else t := rfl
  have hu := counted_frame s (ctrPort p 0) (ctrPort p 1) len
  rw [hcount]
  generalize (s.count (ctrPort p 0)).countBy (ctrPort p 1) len = u at hu
  have hport : u.port p = s.port p := by rw [hu]; rfl
  have hwfu : swf (fun _ => {}) u.ports = true := by rw [hu]; exact hwf
  dsimp only
  rw [hport]
  split
  · have hset := State.port_setPort_wf (p := p) (x := { s.port p with badFcs := false }) hwfu
    have hwf2 := State.setPort_wf (p := p) (x := { s.port p with badFcs := false }) hwfu
    have hframe : u.setPort p { s.port p with badFcs := false } =
        { s with ports := (u.setPort p { s.port p with badFcs := false }).ports, cnt := u.cnt } := by
      rw [State.setPort, hu]
    generalize u.setPort p { s.port p with badFcs := false } = v at hset hwf2 hframe
    refine ⟨hset, hwf2, ?_⟩
    rw [State.count, countBy_frame, hframe]
  · next hbad =>
    refine ⟨hport.trans ?_, hwfu, by rw [hu]⟩
    rw [Bool.not_eq_true] at hbad
    rw [← hbad]

theorem logEntry_raise_out (s : State) (head : Nat) (entry info : Nat → Nat) (size v : Nat) (a b : Word) :
    ((s.logEntry head entry info size a b).raise v).out = { s.out with msix := s.out.msix ++ [v] } := rfl

/-- A port on which a pause of a class has lasted too long. -/
def stormed (x : Port) (c : Nat) : Port :=
  { x with paused := x.paused &&& ~~~BitVec.ofNat 8 (2 ^ c), stormed := x.stormed ||| BitVec.ofNat 8 (2 ^ c) }

theorem stormed_ne (x : Port) {c : Nat} (hc : c < 8) : stormed x c ≠ {} := fun he => by
  have hbit : (x.stormed ||| BitVec.ofNat 8 (2 ^ c)).getLsbD c = (0#8).getLsbD c := congrArg (fun y : Port => y.stormed.getLsbD c) he
  rw [getLsbD_setBit _ hc, if_pos rfl, BitVec.getLsbD_zero] at hbit
  exact absurd hbit (by decide)

theorem pfcIn_eq {enable : BitVec 8} {quanta : List (BitVec 16)} (hruns : s.pfcRuns p = true) :
    s.pfcIn p enable quanta = (List.range 8).foldl (pauseStep p enable quanta) s := by
  unfold State.pfcIn
  rw [if_pos hruns]
  exact congrArg (fun f => List.foldl f s (List.range 8)) rfl

theorem pfcFrame_paused {p : Fin 2048} {enable : BitVec 8} {quanta : List (BitVec 16)} (hrx : s.receives p = true)
    (hruns : s.pfcRuns p = true) (hwf : swf (fun _ => {}) s.ports = true) : Answers (exec (.pfcFrameReceive p enable quanta) s) fun t =>
      (∀ c, c < 8 → (t.port p).paused.getLsbD c =
        if enable.getLsbD c = true ∧ (s.port p).stormed.getLsbD c = false then quanta.getD c 0 != 0 else (s.port p).paused.getLsbD c) ∧
      t.port p = { s.port p with paused := (t.port p).paused, badFcs := false } ∧ t = { s with ports := t.ports, cnt := t.cnt } := by
  obtain ⟨hport, hwf1, hframe⟩ := rxCount_port (p := p) (len := 64) (tail := false) hwf
  have hexec : exec (.pfcFrameReceive p enable quanta) s =
      .next ((s.rxCount p 64 false).quarantined p fun s => s.pfcIn p enable quanta) := congrArg Host.Outcome.next (if_pos hrx)
  generalize s.rxCount p 64 false = u at hport hwf1 hframe hexec
  have hrun1 : u.pfcRuns p = true := by rw [hframe]; exact hruns
  have hnot : ¬ u.portState p = psQuarantine := by
    simp only [State.pfcRuns, State.portUp, Bool.and_eq_true, beq_iff_eq] at hrun1
    rw [hrun1.1.1.1]
    decide
  have hall := paused_all (p := p) (enable := enable) (quanta := quanta) (l := List.range 8) (fun c hc => List.mem_range.1 hc) hwf1
  rw [← pfcIn_eq hrun1] at hall
  refine ⟨_, hexec.trans (congrArg _ (if_neg hnot)), ?_⟩
  dsimp only
  generalize u.pfcIn p enable quanta = t at hall
  refine ⟨fun c hc => ?_, ?_, by rw [hall.frame, hframe]⟩
  · rw [hall.bits, hport]
    simp only [List.mem_range, hc, true_and]
  · rw [hall.port, hport]

theorem pfcStorm_ends {p : Fin 2048} {c : Fin 8} (hruns : s.pfcRuns p = true) (hpaused : (s.port p).paused.getLsbD c = true)
    (hdog : s.fld R.PRT_GLOBAL_CTRL F.PRT_GLOBAL_CTRL_PFC_WDOG ≠ 0) : Answers (exec (.pfcStorm p c) s) fun t =>
      (t.port p).paused.getLsbD c = false ∧ (t.port p).stormed.getLsbD c = true ∧
      (∀ k, k ≠ c.val → (t.port p).paused.getLsbD k = (s.port p).paused.getLsbD k ∧
        (t.port p).stormed.getLsbD k = (s.port p).stormed.getLsbD k) ∧
      t.out = { s.out with msix := s.out.msix ++ [4] } ∧ t = { s with regs := t.regs, ports := t.ports, out := t.out, cnt := t.cnt } := by
  have hexec : exec (.pfcStorm p c) s = .next (((s.setPort p (stormed (s.port p) c)).count (ctrPort p 14)).partnerEvent 9 p) :=
    congrArg Host.Outcome.next (if_pos ⟨hruns, hpaused, hdog⟩)
  have hset := State.port_setPort_self (s := s) (p := p) (stormed_ne (s.port p) c.isLt)
  have hu : (s.setPort p (stormed (s.port p) c)).count (ctrPort p 14) =
      { s with ports := (s.setPort p (stormed (s.port p) c)).ports, cnt := ((s.setPort p (stormed (s.port p) c)).count (ctrPort p 14)).cnt } := rfl
  have hport : ((s.setPort p (stormed (s.port p) c)).count (ctrPort p 14)).port p = stormed (s.port p) c := hset
  generalize (s.setPort p (stormed (s.port p) c)).count (ctrPort p 14) = u at hexec hu hport
  have hframe := u.logEntry_raise_frame R.PRT_EVENT_HEAD R.PRT_EVENT R.PRT_EVENT_ID 256 4
    (F.PRT_EVENT_KIND.put 9 ||| F.PRT_EVENT_PORT.put p ||| F.PRT_EVENT_PARTNER_PORT.put (u.partnerOf p).2) (u.partnerOf p).1
  have hmsix := logEntry_raise_out u R.PRT_EVENT_HEAD R.PRT_EVENT R.PRT_EVENT_ID 256 4
    (F.PRT_EVENT_KIND.put 9 ||| F.PRT_EVENT_PORT.put p ||| F.PRT_EVENT_PARTNER_PORT.put (u.partnerOf p).2) (u.partnerOf p).1
  refine ⟨_, hexec, ?_⟩
  change u.partnerEvent 9 p = _ at hframe
  change (u.partnerEvent 9 p).out = _ at hmsix
  generalize u.partnerEvent 9 p = t at hframe hmsix
  have hp : t.port p = stormed (s.port p) c := by rw [hframe]; exact hport
  rw [hp]
  refine ⟨(getLsbD_clearBit ..).trans (if_pos rfl), (getLsbD_setBit _ c.isLt _).trans (if_pos rfl),
    fun k hk => ⟨(getLsbD_clearBit ..).trans (if_neg hk), (getLsbD_setBit _ c.isLt _).trans (if_neg hk)⟩, ?_, by rw [hframe, hu]⟩
  rw [hmsix, hu]

/-- The PFC frame that pauses one class. -/
def pfcFrame (s : State) (c quanta : Nat) : Bytes :=
  padFrame (ethHeader 0x0180C2000001 s.mac 0x8808 ++ beBytes 2 0x0101 ++ beBytes 2 (2 ^ c) ++
    (List.range 8).flatMap fun k => beBytes 2 (if k = c then quanta else 0))

theorem sendPfc_pauses {c quanta : Nat} (h : quanta ≠ 0) :
    s.sendPfc p c quanta = (s.count (ctrPfc p c 1)).txFrame p (pfcFrame s c quanta) := by
  unfold State.sendPfc
  dsimp only
  rw [if_neg h]
  rfl

theorem pfcXoffResend_sent {p : Fin 2048} {c : Fin 8} (hruns : s.pfcRuns p = true) (hcan : s.canSend p 64 = true)
    (hxoff : (s.port p).xoff.getLsbD c = true) (hheld : s.fld (R.PRT_PFC_THRESH (p / 8) (p % 8) c) F.PRT_PFC_THRESH_XON ≤ s.heldCells p c) :
    Answers (exec (.pfcXoffResend p c) s) fun t =>
      t.out = { s.out with frames := s.out.frames ++ [(p.val, pfcFrame s c 0xFFFF ++ fcsOf (pfcFrame s c 0xFFFF))] } ∧
      t = { s with out := t.out, cnt := t.cnt, swc := t.swc } ∧ (s.mirrorsOf 1 p = [] → t.swc = s.swc) := by
  have hexec : exec (.pfcXoffResend p c) s = .next (s.sendPfc p c 0xFFFF) :=
    congrArg Host.Outcome.next (if_pos ⟨hruns, hcan, hxoff, hheld⟩)
  refine ⟨_, hexec.trans (congrArg _ (sendPfc_pauses (by decide))), ?_⟩
  generalize pfcFrame s c 0xFFFF = f
  have hframe := State.txFrame_frame (s.count (ctrPfc p c 1)) p f
  have hout := State.txFrame_out (s.count (ctrPfc p c 1)) p f
  refine ⟨hout, ?_, fun h => State.txFrame_swc f h⟩
  generalize (s.count (ctrPfc p c 1)).txFrame p f = t at hframe ⊢
  exact hframe

end

/-- Settles O43. -/
theorem creditsAndPauses : Obligations.CreditsAndPauses := by
  unfold Obligations.CreditsAndPauses
  refine ⟨?receive, ?credits, ?deaf, ?send, ?owesNothing, ?keepalive, ?waits, ?off, ?silence, ?stomped, ?pfc, ?pfcDeaf, ?expiry, ?xoff,
    ?xoffNot, ?storm, ?noStorm, ?watchdog⟩
  case receive =>
    intro p frame s hrx hup hfc hbad hkind hlldp hfcs
    refine congrArg Host.Outcome.next ((if_pos hrx).trans ?_)
    rw [rxStart_right hbad hfcs, hkind]
    have hstate : s.portState p = psUp := beq_iff_eq.1 hup
    have hnot : ¬ ((s.count (ctrPort p 0)).countBy (ctrPort p 1) frame.length).portState p = psQuarantine := by
      have hsame : ((s.count (ctrPort p 0)).countBy (ctrPort p 1) frame.length).portState p = s.portState p := rfl
      rw [hsame, hstate]
      decide
    refine (if_neg nofun).trans ((if_neg (by rw [hlldp]; decide)).trans ((if_neg hnot).trans ?_))
    exact congrArg (fun u : State => u.creditIn p frame) (counted_frame ..)
  case credits =>
    intro p frame s hwf hports hret hup hfc hvcs
    have hsame : CreditsBut p [] s (s.count (ctrPort p 12)) := ⟨rfl, fun _ _ => rfl, .refl _ _, fun _ _ => rfl⟩
    obtain ⟨hbut, hall⟩ := credits_taken (p := p) (f := frame) (s := s.count (ctrPort p 12))
      (List.nodup_range (n := s.fld (prtState p) F.PRT_PORT_STATE_VCS)) ⟨hwf, hports, hret⟩
    rw [creditIn_eq hup hfc]
    refine ⟨fun v hv => creditTaken_after hsame (by simp) (hall v (List.mem_range.2 hv)), hbut.regs.mono ?_, hbut.others⟩
    exact List.map_subset _ (List.range_subset.2 hvcs)
  case deaf =>
    intro p frame s h
    exact ⟨congrArg _ (if_neg (Bool.eq_false_iff.1 h)), congrArg _ (if_neg (Bool.eq_false_iff.1 h)), congrArg _ (if_neg (Bool.eq_false_iff.1 h))⟩
  case send =>
    intro p s hon howes hcan
    exact ⟨_, congrArg Host.Outcome.next (if_pos ⟨hon, howes⟩), creditFrame_sent false hcan⟩
  case owesNothing =>
    intro p s h
    exact congrArg _ (if_neg (by rintro ⟨h1, h2⟩; simp [h1, h2] at h))
  case keepalive =>
    intro p s hon hcan
    exact ⟨_, congrArg Host.Outcome.next (if_pos hon), creditFrame_sent true hcan⟩
  case waits =>
    intro p s hon hcan
    exact congrArg _ ((if_pos hon).trans (creditFrame_waits true hcan))
  case off =>
    intro p s hoff
    exact ⟨congrArg _ (if_neg (Bool.eq_false_iff.1 hoff)), congrArg _ (if_neg fun h => by simp [hoff] at h)⟩
  case silence =>
    intro p s hwf hon hloss hhold
    simp only [State.creditsOn, State.receives, Bool.and_eq_true] at hon
    have hcond : s.creditsOn p = true ∧ s.lossIgnored p = false := ⟨by simp [State.creditsOn, State.receives, hon], hloss⟩
    exact ⟨_, congrArg Host.Outcome.next (if_pos hcond), partnerDead_held p.isLt hwf hon.1.1 hon.2.1 hhold (by decide)⟩
  case stomped => exact fun p frame s hrx hkind hlldp hfcs hbad hstate hwf => tailAbort_stomps hrx hkind hlldp hfcs hbad hstate hwf
  case pfc => exact fun p enable quanta s hrx hruns hwf => pfcFrame_paused hrx hruns hwf
  case pfcDeaf => exact fun p enable quanta s h => congrArg Host.Outcome.next (if_neg (Bool.eq_false_iff.1 h))
  case expiry =>
    intro p c s hwf
    have hset := State.port_setPort_wf (p := p) (x := { s.port p with paused := (s.port p).paused &&& ~~~BitVec.ofNat 8 (2 ^ c.val) }) hwf
    refine ⟨_, rfl, ?_, fun k hk => ?_, by rw [hset], fun q hq => State.port_setPort_of_ne hq, rfl⟩
    · rw [hset]
      exact (getLsbD_clearBit ..).trans (if_pos rfl)
    · rw [hset]
      exact (getLsbD_clearBit ..).trans (if_neg hk)
  case watchdog =>
    intro p c s hwf
    have hset := State.port_setPort_wf (p := p) (x := { s.port p with stormed := (s.port p).stormed &&& ~~~BitVec.ofNat 8 (2 ^ c.val) }) hwf
    refine ⟨_, rfl, ?_, fun k hk => ?_, by rw [hset], fun q hq => State.port_setPort_of_ne hq, rfl⟩
    · rw [hset]
      exact (getLsbD_clearBit ..).trans (if_pos rfl)
    · rw [hset]
      exact (getLsbD_clearBit ..).trans (if_neg hk)
  case xoff => exact fun p c s hruns hcan hxoff hheld => pfcXoffResend_sent hruns hcan hxoff hheld
  case xoffNot => exact fun p c s h => congrArg Host.Outcome.next (if_neg (by rintro ⟨h1, -, h2, -⟩; rw [h1, h2] at h; simp at h))
  case storm => exact fun p c s hruns hpaused hdog => pfcStorm_ends hruns hpaused hdog
  case noStorm => exact fun p c s h => congrArg Host.Outcome.next (if_neg (by rintro ⟨h1, h2, h3⟩; rw [h1, h2] at h; simp [h3] at h))

end Sys2Proof.Proofs
end

section
/-! SUPPORT. Runs over a list in which each element has its own place. -/

namespace Sys2Proof.Machine

/-- Where each step settles its own element and leaves the places of the others alone, a run settles every element. -/
theorem foldl_each {σ α : Type} {f : σ → α → σ} {inv : σ → Prop} {same done : α → σ → σ → Prop} {l : List α}
    (hstep : ∀ s x, x ∈ l → inv s → inv (f s x) ∧ done x s (f s x) ∧ ∀ y ∈ l, y ≠ x → same y s (f s x))
    (hrefl : ∀ x s, same x s s) (htrans : ∀ x s t u, same x s t → same x t u → same x s u)
    (hbefore : ∀ x s t u, same x s t → done x t u → done x s u) (hafter : ∀ x s t u, done x s t → same x t u → done x s u)
    (hl : l.Nodup) {s : σ} (hs : inv s) : inv (l.foldl f s) ∧ ∀ x ∈ l, done x s (l.foldl f s) := by
  have hrest : ∀ m : List α, m ⊆ l → ∀ s, inv s → ∀ x ∈ l, x ∉ m → same x s (m.foldl f s) := by
    intro m
    induction m with
    | nil => exact fun _ s _ x _ _ => hrefl x s
    | cons a m ih =>
      intro hm s hs x hx hxm
      rw [List.mem_cons, not_or] at hxm
      obtain ⟨hinv, -, hsame⟩ := hstep s a (hm (by simp)) hs
      exact htrans _ _ _ _ (hsame x hx hxm.1) (ih (fun y hy => hm (by simp [hy])) _ hinv x hx hxm.2)
  have hall : ∀ m : List α, m ⊆ l → m.Nodup → ∀ s, inv s → inv (m.foldl f s) ∧ ∀ x ∈ m, done x s (m.foldl f s) := by
    intro m
    induction m with
    | nil => exact fun _ _ s hs => ⟨hs, by simp⟩
    | cons a m ih =>
      intro hm hnd s hs
      obtain ⟨ha, hnd⟩ := List.nodup_cons.1 hnd
      have hml : m ⊆ l := fun y hy => hm (by simp [hy])
      obtain ⟨hinv, hdone, hsame⟩ := hstep s a (hm (by simp)) hs
      obtain ⟨hlast, hthen⟩ := ih hml hnd _ hinv
      refine ⟨hlast, fun x hx => ?_⟩
      rcases List.mem_cons.1 hx with rfl | hxm
      · exact hafter _ _ _ _ hdone (hrest m hml _ hinv x (hm (by simp)) ha)
      · exact hbefore _ _ _ _ (hsame x (hml hxm) fun he => ha (he ▸ hxm)) (hthen x hxm)
  exact hall l (fun _ h => h) hl s hs

end Sys2Proof.Machine
end

section
/-! PROOF. Lane reports on WLX 3 links, and the light of a lane (spec/06, spec/11). -/

namespace Sys2Proof.Proofs
open Sys2Proof Sys2Proof.Machine

section
variable {s t u : State} {p : Nat} {f : Bytes}

/-- The frame that reports the lanes of a port. -/
def laneReport (s : State) (p : Nat) (found : List Byte) : Bytes :=
  s.linkFrame 3 0 (beBytes 2 p ++ beBytes 1 (s.portLanes p) ++ beBytes 1 0 ++ (List.range 8).flatMap fun l =>
    if p % 8 ≤ l ∧ l < p % 8 + s.portLanes p then beBytes 1 (byteAt found l &&& 0x87) else beBytes 1 0)

theorem exec_laneReportSend {p : Fin 2048} {found : List Byte} (h : s.receives p = true ∧ s.wlx3 p = true ∧ s.portState p ≠ psQuarantine ∧
    s.canSend p 64 = true) : exec (.laneReportSend p found) s = .next (s.txFrame p (laneReport s p found)) := if_pos h

/-! ## Rings of a port -/

/-- The ring of a port's lane. -/
def laneRing (p j : Nat) : RingId := ringAt (p / 64) (p / 8 % 8 * 8 + (p % 8 + j))

theorem ringReg_bounds (r : RingId) : ∃ e, e < 32 ∧ 0x1c00100 + e * 0x8000 ≤ ringReg r ∧ ringReg r < 0x1c00300 + e * 0x8000 := by
  refine ⟨r.e, r.e.isLt, ?_, ?_⟩ <;> simp only [ringReg, R.OPT_RING] <;> omega

theorem ringReg_ne_status (r : RingId) (e : Nat) : ringReg r ≠ R.OPT_STATUS e := by
  obtain ⟨e', -, h1, h2⟩ := ringReg_bounds r
  simp only [R.OPT_STATUS]
  omega

theorem laneRing_inj {i j : Nat} (hi : p % 8 + i < 8) (hj : p % 8 + j < 8) (h : ringReg (laneRing p i) = ringReg (laneRing p j)) : i = j := by
  simp only [ringReg, laneRing, ringAt, R.OPT_RING, Fin.val_ofNat] at h
  omega

/-- The state of an engine touches no ring. -/
theorem engineStatus_frame (s : State) (e : Nat) :
    s.engineStatus e = { s with regs := (s.engineStatus e).regs, lasers := (s.engineStatus e).lasers } ∧
    s.RegsBut (s.engineStatus e) [R.OPT_STATUS e] ∧ (s.regsWf = true → (s.engineStatus e).regsWf = true) := by
  unfold State.engineStatus
  extract_lets l x v st
  have hv : v = { s with lasers := v.lasers } := by
    change (if _ then _ else _) = { s with lasers := (if _ then _ else _ : State).lasers }
    split <;> rfl
  clear_value v st
  have hregs : v.regs = s.regs := by rw [hv]
  refine ⟨?_, ((State.RegsBut.of_regs hregs _).trans (State.setFld_regsBut (List.mem_singleton.2 rfl) _ _)).trans
    (State.setFld_regsBut (List.mem_singleton.2 rfl) _ _), fun hwf =>
    State.setFld_regsWf _ _ _ _ (State.setFld_regsWf _ _ _ _ (State.regsWf_congr hregs hwf))⟩
  unfold State.setFld State.wr
  rw [hv]

/-- What a lane report says of one lane. -/
def laneStep (p : Nat) (f : Bytes) (s : State) (j : Nat) : State :=
  let l := p % 8 + j
  let r := ringAt (p / 64) (p / 8 % 8 * 8 + l)
  let ok := byteAt f (20 + l) == 128 + j
  if s.ringState r = 4 ∧ ok then
    ((s.setFld (ringReg r) F.OPT_RING_STATE 3).setFld (ringReg r) F.OPT_RING_FAILS 0).engineStatus r.e
  else if (s.ringState r = 3 ∨ s.ringState r = 4) ∧ ok = false then s.wrongLock r else s

theorem laneIn_eq (h : s.wlx3 p = true) : s.laneIn p f = (List.range (s.portLanes p)).foldl (laneStep p f) s :=
  if_neg (by rw [h]; decide)

/-- The ring of a lane that found itself: its lock is complete where it waited for it. -/
def laneFound (p j : Nat) (s t : State) : Prop :=
  t.ringState (laneRing p j) = (if s.ringState (laneRing p j) = 4 then 3 else s.ringState (laneRing p j)) ∧
  (s.ringState (laneRing p j) = 4 → t.fld (ringReg (laneRing p j)) F.OPT_RING_FAILS = 0) ∧
  (s.ringState (laneRing p j) ≠ 4 → t.rd (ringReg (laneRing p j)) = s.rd (ringReg (laneRing p j)))

theorem laneStep_found {j : Nat} (hok : byteAt f (20 + p % 8 + j) = 128 + j) (hj : p % 8 + j < 8) (hwf : s.regsWf = true) :
    (laneStep p f s j).regsWf = true ∧
    laneStep p f s j = { s with regs := (laneStep p f s j).regs, lasers := (laneStep p f s j).lasers } ∧ laneFound p j s (laneStep p f s j) ∧
    ∀ i, p % 8 + i < 8 → i ≠ j → (laneStep p f s j).rd (ringReg (laneRing p i)) = s.rd (ringReg (laneRing p i)) := by
  have hok' : (byteAt f (20 + (p % 8 + j)) == 128 + j) = true := by rw [← Nat.add_assoc, hok]; exact beq_self_eq_true _
  by_cases hwait : s.ringState (laneRing p j) = 4
  · have hstep : laneStep p f s j = ((s.setFld (ringReg (laneRing p j)) F.OPT_RING_STATE 3).setFld (ringReg (laneRing p j))
        F.OPT_RING_FAILS 0).engineStatus (laneRing p j).e := if_pos ⟨hwait, hok'⟩
    have hwf1 := s.setFld_regsWf (ringReg (laneRing p j)) F.OPT_RING_STATE 3 hwf
    have hst1 := s.fld_setFld_self (ringReg (laneRing p j)) F.OPT_RING_STATE 3 hwf (by decide)
    have hrd1 : ∀ o, o ≠ ringReg (laneRing p j) → (s.setFld (ringReg (laneRing p j)) F.OPT_RING_STATE 3).rd o = s.rd o :=
      fun o ho => s.rd_setFld_of_ne _ _ ho
    have hfr1 : s.setFld (ringReg (laneRing p j)) F.OPT_RING_STATE 3 =
      { s with regs := (s.setFld (ringReg (laneRing p j)) F.OPT_RING_STATE 3).regs } := rfl
    generalize s.setFld (ringReg (laneRing p j)) F.OPT_RING_STATE 3 = u at hstep hwf1 hst1 hrd1 hfr1
    have hwf2 := u.setFld_regsWf (ringReg (laneRing p j)) F.OPT_RING_FAILS 0 hwf1
    have hst2 := (u.fld_setFld_of_disjoint (ringReg (laneRing p j)) F.OPT_RING_FAILS F.OPT_RING_STATE 0 hwf1 (by decide) (by decide)).trans hst1
    have hfails := u.fld_setFld_self (ringReg (laneRing p j)) F.OPT_RING_FAILS 0 hwf1 (by decide)
    have hrd2 : ∀ o, o ≠ ringReg (laneRing p j) → (u.setFld (ringReg (laneRing p j)) F.OPT_RING_FAILS 0).rd o = s.rd o :=
      fun o ho => (u.rd_setFld_of_ne _ _ ho).trans (hrd1 o ho)
    have hfr2 : u.setFld (ringReg (laneRing p j)) F.OPT_RING_FAILS 0 =
      { s with regs := (u.setFld (ringReg (laneRing p j)) F.OPT_RING_FAILS 0).regs } := by rw [State.setFld, State.wr, hfr1]
    generalize u.setFld (ringReg (laneRing p j)) F.OPT_RING_FAILS 0 = v at hstep hwf2 hst2 hfails hrd2 hfr2
    obtain ⟨hfr3, hbut, hwf3⟩ := engineStatus_frame v (laneRing p j).e
    have hrd3 : ∀ r, (v.engineStatus (laneRing p j).e).rd (ringReg r) = v.rd (ringReg r) :=
      fun r => hbut _ (by rw [List.mem_singleton]; exact ringReg_ne_status r _)
    rw [hstep]
    refine ⟨hwf3 hwf2, by rw [hfr3, hfr2], ⟨?_, fun _ => ?_, fun h => absurd hwait h⟩, fun i hi hij => ?_⟩
    · rw [if_pos hwait]
      exact (State.fld_congr (hrd3 _) _).trans hst2
    · exact (State.fld_congr (hrd3 _) _).trans hfails
    · exact (hrd3 _).trans (hrd2 _ fun he => hij (laneRing_inj hi hj he))
  · have hstep : laneStep p f s j = s := (if_neg fun h => hwait h.1).trans (if_neg fun h => by rw [hok'] at h; exact absurd h.2 (by decide))
    rw [hstep]
    exact ⟨hwf, rfl, ⟨(if_neg hwait).symm, fun h => absurd h hwait, fun _ => rfl⟩, fun _ _ _ => rfl⟩

/-- A port that receives exists, with all its lanes. -/
theorem lanes_fit (h : s.receives p = true) : p % 8 + s.portLanes p ≤ 8 := by
  simp only [State.receives, State.portLocked, State.portExists, Bool.and_eq_true, beq_iff_eq] at h
  have hexists := h.1.1.2
  have hlanes : s.portLanes p = 4 ∨ s.portLanes p = 8 ∨ s.portLanes p = 2 ∨ s.portLanes p = 1 := by
    unfold State.portLanes modeLanes
    match s.pairMode (p / 8) with
    | 0 | 1 | 2 | 3 => decide
    | _ + 4 => exact .inr (.inr (.inr rfl))
  rcases hlanes with hn | hn | hn | hn <;> rw [hn] at hexists ⊢ <;> omega

theorem laneIn_found (h3 : s.wlx3 p = true) (hrx : s.receives p = true) (hwf : s.regsWf = true)
    (hok : ∀ j, j < s.portLanes p → byteAt f (20 + p % 8 + j) = 128 + j) :
    s.laneIn p f = { s with regs := (s.laneIn p f).regs, lasers := (s.laneIn p f).lasers } ∧
    ∀ j, j < s.portLanes p → laneFound p j s (s.laneIn p f) := by
  have hfit := lanes_fit hrx
  rw [laneIn_eq h3]
  generalize s.portLanes p = n at hok hfit ⊢
  obtain ⟨⟨-, hframe⟩, hall⟩ := foldl_each (f := laneStep p f) (l := List.range n)
    (inv := fun t => t.regsWf = true ∧ t = { s with regs := t.regs, lasers := t.lasers })
    (same := fun j s t => t.rd (ringReg (laneRing p j)) = s.rd (ringReg (laneRing p j))) (done := laneFound p)
    (fun t j hj ht => by
      rw [List.mem_range] at hj
      obtain ⟨hwf1, hfr, hdone, hsame⟩ := laneStep_found (s := t) (hok j hj) (by omega) ht.1
      refine ⟨⟨hwf1, by rw [hfr, ht.2]⟩, hdone, fun i hi hij => hsame i ?_ hij⟩
      rw [List.mem_range] at hi
      omega)
    (fun _ _ => rfl) (fun _ _ _ _ h k => k.trans h)
    (fun j a b c h k => by
      have hst : b.ringState (laneRing p j) = a.ringState (laneRing p j) := State.fld_congr h _
      obtain ⟨h1, h2, h3⟩ := k
      rw [hst] at h1 h2 h3
      exact ⟨h1, h2, fun hn => (h3 hn).trans h⟩)
    (fun j a b c k h => by
      obtain ⟨h1, h2, h3⟩ := k
      exact ⟨(State.fld_congr h _).trans h1, fun hw => (State.fld_congr h _).trans (h2 hw), fun hn => h.trans (h3 hn)⟩)
    List.nodup_range ⟨hwf, rfl⟩
  exact ⟨hframe, fun j hj => hall j (List.mem_range.2 hj)⟩

/-- A lane report with a right FCS is counted and then read. -/
theorem exec_laneReportReceive {p : Fin 2048} (hrx : s.receives p = true) (hbad : (s.port p).badFcs = false) (hkind : s.linkKind f = some 3)
    (hlldp : isLldp f = false) (hfcs : fcsRight f = true) (hstate : s.portState p ≠ psQuarantine) :
    exec (.laneReportReceive p f) s = .next (((s.count (ctrPort p 0)).countBy (ctrPort p 1) f.length).laneIn p f) := by
  refine congrArg Host.Outcome.next ((if_pos hrx).trans ?_)
  rw [rxStart_right hbad hfcs, hkind]
  have hframe := counted_frame s (ctrPort p 0) (ctrPort p 1) f.length
  generalize (s.count (ctrPort p 0)).countBy (ctrPort p 1) f.length = u at hframe
  have hsame : ¬ u.portState p = psQuarantine := by rw [hframe]; exact hstate
  exact (if_neg nofun).trans ((if_neg (by rw [hlldp]; decide)).trans (if_neg hsame))

end

/-- Settles O44. -/
theorem laneReportsAndLight : Obligations.LaneReportsAndLight := by
  unfold Obligations.LaneReportsAndLight
  refine ⟨?send, ?notSent, ?found, ?older, ?light⟩
  case send =>
    intro p found s hrx h3 hstate hcan
    refine ⟨_, exec_laneReportSend ⟨hrx, h3, hstate, hcan⟩, State.txFrame_out .., ?_, fun h => State.txFrame_swc _ h⟩
    exact State.txFrame_frame ..
  case notSent =>
    intro p found s h
    refine if_neg ?_
    rintro ⟨h1, h2, h3, h4⟩
    rw [h1, h2, h4] at h
    simp [h3] at h
  case found =>
    intro p frame s hwf hrx h3 hbad hkind hlldp hfcs hstate hok
    rw [exec_laneReportReceive hrx hbad hkind hlldp hfcs hstate]
    have hframe := counted_frame s (ctrPort p 0) (ctrPort p 1) frame.length
    generalize (s.count (ctrPort p 0)).countBy (ctrPort p 1) frame.length = u at hframe
    have hregs : u.regs = s.regs := by rw [hframe]
    have hports : u.ports = s.ports := by rw [hframe]
    obtain ⟨hfr, hall⟩ := laneIn_found (s := u) (p := p) (f := frame) (by rw [hframe]; exact h3) (by rw [hframe]; exact hrx)
      (State.regsWf_congr hregs hwf) (by rw [hframe]; exact hok)
    refine ⟨_, rfl, fun j hj => ?_, by rw [hfr, hframe]⟩
    obtain ⟨h1, h2, h3⟩ := hall j (by rw [hframe]; exact hj)
    have hst : u.ringState (laneRing p j) = s.ringState (laneRing p j) := State.fld_congr (State.rd_congr hregs _) _
    rw [hst] at h1 h2 h3
    exact ⟨h1, h2, fun hn => (h3 hn).trans (State.rd_congr hregs _)⟩
  case older =>
    intro p frame s hrx h3 hbad hkind hlldp hfcs hstate
    rw [exec_laneReportReceive hrx hbad hkind hlldp hfcs hstate]
    have hframe := counted_frame s (ctrPort p 0) (ctrPort p 1) frame.length
    refine congrArg _ (Eq.trans ?_ hframe)
    generalize (s.count (ctrPort p 0)).countBy (ctrPort p 1) frame.length = u at hframe
    exact if_pos (by rw [hframe]; exact h3)
  case light =>
    intro f l s
    unfold State.laneLight
    dsimp only
    split
    · next h => exact iff_of_true rfl h
    · next h => exact iff_of_false (by split <;> nofun) h

end Sys2Proof.Proofs
end

section
/-! PROOF. What admission and routing touch: as in the part on what sending touches. -/

namespace Sys2Proof.Machine

section
variable {s₀ s t : State}

theorem State.Sends.resolve {b ingress cls r frame x' orderFree} (h : s₀.Sends s) :
    s₀.Sends (s.resolve b ingress cls r frame x' orderFree).2 := by
  unfold State.resolve
  extract_lets i g
  split
  · split
    · exact h
    · exact h
  · split
    · exact h
    · split
      · rename_i t e
        have h1 : s₀.Sends t := .of_snd h.selectMember e
        exact h1
      · rename_i t e
        have h1 : s₀.Sends t := .of_snd h.selectMember e
        exact h1
      · rename_i t e
        have h1 : s₀.Sends t := .of_snd h.selectMember e
        exact h1
  · exact h
  · exact h

theorem State.Sends.route {b ingress cls frame x'} (h : s₀.Sends s) : s₀.Sends (s.route b ingress cls frame x').2 := by
  unfold State.route
  split
  · exact h.count
  · split
    · exact h.count
    · exact h
    · extract_lets free
      exact h.resolve

theorem State.Sends.admitFrame {f t w} (h : s₀.Sends s) (e : (s.admitFrame f) = some (w, t)) : s₀.Sends t := by
  unfold State.admitFrame at e
  split at e
  · cases e
  · cases e
    exact h.store.returnCells.rebalance.pfcCheck

theorem State.Sends.admitAs {control f t w} (h : s₀.Sends s) (e : (s.admitAs control f) = some (w, t)) :
    s₀.Sends t := by
  unfold State.admitAs at e
  split at e
  · cases e; exact h.store
  · exact h.admitFrame e

end

end Sys2Proof.Machine
end

section
/-! SUPPORT. What a sampler and the credits of a port touch (spec/08 R245, R208). -/

namespace Sys2Proof.Machine

/-- From one state to another only the samplers, the free values and the count of samples lost may differ. -/
structure State.Glimpsed (s t : State) : Prop where
  frame : t = { s with swc := { s.swc with gaps := t.swc.gaps, samples := t.swc.samples }, free := t.free, cnt := t.cnt }
  counts : ∀ k, k ≠ ctrSwc 21 → sget {} t.cnt.counters k = sget {} s.cnt.counters k

section
variable {s₀ s t : State}

theorem State.Glimpsed.refl (s : State) : s.Glimpsed s := ⟨rfl, fun _ _ => rfl⟩

theorem State.Glimpsed.upd {g l fr} (h : s₀.Glimpsed s) :
    s₀.Glimpsed { s with swc := { s.swc with gaps := g, samples := l }, free := fr } :=
  ⟨by rw [h.frame], h.counts⟩

theorem State.Glimpsed.draw (h : s₀.Glimpsed s) : s₀.Glimpsed s.draw.2 := ⟨by rw [State.draw, h.frame], h.counts⟩

theorem State.Glimpsed.of_snd {α : Type} {p : α × State} {w : α} (h : s₀.Glimpsed p.2) (e : p = (w, t)) : s₀.Glimpsed t := by
  subst e; exact h

theorem State.Glimpsed.ite {c : Prop} [Decidable c] (hs : s₀.Glimpsed s) (ht : s₀.Glimpsed t) : s₀.Glimpsed (if c then s else t) := by
  split
  · exact hs
  · exact ht

theorem State.Glimpsed.samples {k n} (h : s₀.Glimpsed s) : s₀.Glimpsed (s.samples k n).2 := by
  unfold State.samples
  split
  · exact h.upd
  · extract_lets fresh
    have hfresh : ∀ t, s₀.Glimpsed t → s₀.Glimpsed (fresh t).2 := fun _ h => h.draw
    split
    rename_i g t e
    have h1 : s₀.Glimpsed t := by
      refine .of_snd ?_ e
      split
      · exact hfresh s h
      · exact h
    split
    · exact (hfresh t h1).upd
    · exact h1.upd

theorem State.Glimpsed.takeSample {x'} (h : s₀.Glimpsed s) : s₀.Glimpsed (s.takeSample x') := by
  unfold State.takeSample
  refine .ite ⟨?_, fun k hk => ?_⟩ h.upd
  · rw [State.count, State.countBy, h.frame]
  · exact (sget_sset_of_ne _ _ _ _ hk).trans (h.counts k hk)

theorem State.Glimpsed.sample {p asked b len out} (h : s₀.Glimpsed s) : s₀.Glimpsed (s.sample p asked b len out) := by
  unfold State.sample
  split
  · rename_i t e
    have h1 : s₀.Glimpsed t := .of_snd h.samples e
    extract_lets n
    split
    · rename_i t1 e1
      have h11 : s₀.Glimpsed t1 := by
        refine .of_snd ?_ e1
        split
        · exact h1.samples
        · exact h1
      extract_lets h2
      exact .ite h11.takeSample (.ite h11.takeSample h11)

theorem State.returnCells_frame (s : State) (p c n : Nat) : s.returnCells p c n = { s with ports := (s.returnCells p c n).ports } := by
  unfold State.returnCells
  split
  · rfl
  · rfl

theorem State.takeCredit_frame (s : State) (p cls k : Nat) :
    (s.takeCredit p cls k).2 = { s with ports := (s.takeCredit p cls k).2.ports } := by
  unfold State.takeCredit
  split
  · rfl
  · rfl

end

end Sys2Proof.Machine
end

section
/-! PROOF. A frame received on a fabric port (spec/06, spec/07, spec/08). -/

namespace Sys2Proof.Proofs
open Sys2Proof Sys2Proof.Machine

section
variable {s t : State} {p : Nat} {frame b : Bytes} {x : Parsed} {capture : TimeStamp} {errs : List TableErr}

/-! ## Discarded data frames -/

/-- A data frame discarded under a counter. -/
def dropped (s : State) (p cls k key : Nat) (b : Bytes) : State :=
  ((s.returnCells p cls k).count key).sample p false b (b.length + 4) noOutput

/-- A frame discarded is counted, and changes no queue, no register and nothing sent. -/
theorem dropped_counts (s : State) (p cls k key : Nat) (b : Bytes) (hkey : key ≠ ctrSwc 21) :
    (sget {} (dropped s p cls k key b).cnt.counters key).acc = (sget {} s.cnt.counters key).acc + 1 ∧
    (dropped s p cls k key b).swc.frames = s.swc.frames ∧ (dropped s p cls k key b).swc.queues = s.swc.queues ∧
    (dropped s p cls k key b).out = s.out ∧ (dropped s p cls k key b).regs = s.regs := by
  have hreturn := s.returnCells_frame p cls k
  unfold dropped
  generalize s.returnCells p cls k = u at hreturn ⊢
  have hglimpsed := (State.Glimpsed.refl (u.count key)).sample (p := p) (asked := false) (b := b) (len := b.length + 4) (out := noOutput)
  generalize (u.count key).sample p false b (b.length + 4) noOutput = v at hglimpsed ⊢
  obtain ⟨hframe, hcounts⟩ := hglimpsed
  refine ⟨?_, ?_, ?_, ?_, ?_⟩
  · rw [hcounts key hkey, State.count, countBy_acc_self _ _ Nat.one_pos, hreturn]
  all_goals
    rw [hframe, hreturn]
    rfl

/-- What becomes of a data frame once its credits are taken. -/
def dataFate (s : State) (p cls k : Nat) (fault : Option Nat) (b : Bytes) (x : Parsed) (capture : TimeStamp) (errs : List TableErr) : State :=
  if s.portState p = psQuarantine then dropped s p cls k (ctrPort p 6) b
  else if s.fwdAdmits = false then dropped s p cls k (ctrSlice (portSlice p) 15) b
  else if s.portMax p < b.length + 4 then dropped s p cls k (ctrSwcPort p 0) b
  else match fault with
    | some c => dropped s p cls k (ctrSlice (portSlice p) c) b
    | none =>
      match x.udp, x.hfh, x.header b with
      | some u, some i, some h =>
        if s.isCollective b x then match s.keepFrame p cls b h.version capture with
          | (none, s) => s
          | (some id, s) =>
            s.steer (h.group / 512) (collFrameOf p h b u i k id)
        else s.switchFrame p cls b x true false capture 0 errs
      | some u, _, _ =>
        if s.isFar b x then match s.keepFrame p cls b 0 capture with
          | (none, s) => s
          | (some id, s) => (s.farReceive (portSlice p) ((udpOf b u).drop 8)).release id
        else s.switchFrame p cls b x true false capture 0 errs
      | _, _, _ => s.switchFrame p cls b x true false capture 0 errs

theorem dataIn_eq (s : State) (p : Nat) (b : Bytes) (x : Parsed) (capture : TimeStamp) (errs : List TableErr) :
    s.dataIn p b x capture errs =
      (let cls := s.frameClass b x (s.hfhFault p b x).isNone
       let k := cellsOf (b.length + 4)
       if (s.takeCredit p cls k).1 then dropped (s.takeCredit p cls k).2 p cls k (ctrPort p 7) b
       else dataFate (s.takeCredit p cls k).2 p cls k (s.hfhFault p b x) b x capture errs) := rfl

/-! ## Frames received -/

theorem exec_frameReceive {p : Fin 2048} (hrx : s.receives p = true) : exec (.frameReceive p frame capture errs) s =
    .next (if (s.rxStart p frame).1 then (s.rxStart p frame).2.goodFrame p frame capture errs
      else (s.rxStart p frame).2.badFrame p frame capture errs) := if_neg (by rw [hrx]; decide)

theorem rxCount_frame (s : State) (p len : Nat) (tail : Bool) :
    s.rxCount p len tail = { s with ports := (s.rxCount p len tail).ports, cnt := (s.rxCount p len tail).cnt } := by
  unfold State.rxCount
  dsimp only
  split
  · rfl
  · rfl

theorem rxStart_good (hfcs : fcsRight frame = true) (hkind : s.linkKind frame ≠ some 2) :
    s.rxStart p frame = (true, s.rxCount p frame.length false) := by
  unfold State.rxStart
  rw [show (s.linkKind frame == some 2) = false from beq_eq_false_iff_ne.2 hkind]
  exact if_pos hfcs

theorem exec_frameReceive_good {p : Fin 2048} (hrx : s.receives p = true) (hfcs : fcsRight frame = true) (hkind : s.linkKind frame ≠ some 2) :
    exec (.frameReceive p frame capture errs) s = .next ((s.rxCount p frame.length false).goodFrame p frame capture errs) := by
  rw [exec_frameReceive hrx, rxStart_good hfcs hkind]
  exact congrArg _ (if_pos rfl)

/-! ## Frames with a wrong FCS, with cut-through off -/

/-- A register written with another value than its reset value reads as written, whatever the store lists besides. -/
theorem rd_wr_of_ne_reset (s : State) {off : Nat} {v : Word} (h : v ≠ resetWord off) : (s.wr off v).rd off = v := by
  have hput : sset (resetWord off) s.regs off v = sput s.regs off v := if_neg h
  change sget (resetWord off) (sset (resetWord off) s.regs off v) off = v
  rw [hput]
  exact sget_sput_self ..

/-- Cut-through is off. -/
def CtOff (s : State) : Prop := s.flag R.SWC_CTRL F.SWC_CTRL_CT_ENABLE = false

theorem CtOff.congr (h : CtOff s) (hregs : t.regs = s.regs) : CtOff t := (State.flag_congr (State.rd_congr hregs _) _).trans h

/-- The count of learned addresses of any port leaves cut-through off: with it off, SWC_CTRL never reads as at reset. -/
theorem CtOff.setLearned (h : CtOff s) (off v : Nat) : CtOff (s.setFld off F.FWD_MAC_PORT_LEARNED v) := by
  by_cases ho : off = R.SWC_CTRL
  · subst ho
    have hkeep : F.SWC_CTRL_CT_ENABLE.get (F.FWD_MAC_PORT_LEARNED.set (s.rd R.SWC_CTRL) v) = F.SWC_CTRL_CT_ENABLE.get (s.rd R.SWC_CTRL) :=
      Fld.get_set_of_disjoint _ _ _ _ (by decide) (by decide)
    have hoff : F.SWC_CTRL_CT_ENABLE.get (s.rd R.SWC_CTRL) = 0 := bne_eq_false_iff_eq.1 h
    rw [hoff] at hkeep
    have hne : F.FWD_MAC_PORT_LEARNED.set (s.rd R.SWC_CTRL) v ≠ resetWord R.SWC_CTRL := fun he => by
      rw [he] at hkeep
      exact absurd hkeep (by decide +kernel)
    have hrd : (s.setFld R.SWC_CTRL F.FWD_MAC_PORT_LEARNED v).rd R.SWC_CTRL = F.FWD_MAC_PORT_LEARNED.set (s.rd R.SWC_CTRL) v :=
      rd_wr_of_ne_reset s hne
    unfold CtOff State.flag State.fld
    rw [hrd, hkeep]
    rfl
  · exact (State.flag_congr (s.rd_setFld_of_ne _ _ (Ne.symm ho)) _).trans h

theorem CtOff.dropMac (h : CtOff s) (q : MacEntry → Bool) : CtOff (s.dropMac q) := by
  unfold State.dropMac
  extract_lets gone _ u
  exact foldl_keeps (fun t e _ ht => ht.setLearned _ _) (h.congr rfl : CtOff u)

theorem CtOff.learn (h : CtOff s) (vlan : Nat) (mac : BitVec 48) : CtOff (s.learn p vlan mac).2 := by
  unfold State.learn
  extract_lets off full mine put
  have hput : ∀ t, CtOff t → CtOff (put t) := fun t ht => CtOff.setLearned (ht.congr rfl) _ _
  split
  · exact h
  · split
    · split
      · exact h.congr rfl
      · split
        · exact h
        · exact hput _ (h.dropMac mine)
    · split
      · split
        · exact h
        · exact h.congr rfl
      · split
        · exact h.congr rfl
        · exact hput _ h

theorem CtOff.bridge (h : CtOff s) : CtOff (s.bridge p b x).2 := by
  unfold State.bridge
  split
  · exact h
  · extract_lets vlan dst
    have hlearn := h.learn (p := p) vlan (BitVec.ofNat 48 (beAt b 6 6))
    generalize s.learn p vlan (BitVec.ofNat 48 (beAt b 6 6)) = q at hlearn ⊢
    obtain ⟨gone, u⟩ := q
    dsimp only at hlearn ⊢
    split
    · exact hlearn
    · split
      · exact hlearn
      · split <;> exact hlearn

theorem cutFate_off (h : CtOff s) (id : Nat) (f : Stored) (x : Parsed) (fate : Fate) : s.cutFate id f x fate = false := by
  unfold State.cutFate
  split
  · unfold State.cutsThrough
    rw [show s.flag R.SWC_CTRL F.SWC_CTRL_CT_ENABLE = false from h]
    simp only [Bool.false_and]
  · rfl

theorem stampFrame_regs (s : State) (p : Nat) (h : Option Hfh) : (s.stampFrame p h).2.2.regs = s.regs := by
  unfold State.stampFrame
  dsimp only
  split
  · rfl
  · split
    · rfl
    · split
      · rfl
      · split <;> rfl

/-- With cut-through off a frame with a wrong FCS only gives back its cells. -/
theorem switchFrame_stored (h : CtOff s) (cls : Nat) (hfhOk : Bool) :
    s.switchFrame p cls b x hfhOk false capture 1 [] = s.returnCells p cls (cellsOf (b.length + 4)) := by
  unfold State.switchFrame
  have hnone : s.tableErrs (portSlice p) [] = s := rfl
  rw [hnone]
  extract_lets s1 s0 hdr
  have hstamp : (s.stampFrame p hdr).2.2.regs = s.regs := stampFrame_regs ..
  generalize s.stampFrame p hdr = q at hstamp ⊢
  obtain ⟨epoch, stamp, u⟩ := q
  dsimp only at hstamp ⊢
  split
  · exact if_neg (by decide)
  · next id v e =>
    have hv : CtOff v := h.congr (((State.Sends.refl u).admitAs e).regs.trans hstamp)
    rw [if_neg (by decide : ¬ (1 : Nat) = 0)]
    refine (if_pos ⟨by decide, cutFate_off ?_ ..⟩).trans rfl
    have hw : CtOff (v.updFrame id fun y => { y with copies := 0 }) := hv.congr rfl
    change CtOff (if _ then (_, v.updFrame id fun y => { y with copies := 0 }) else if _ then
      (v.updFrame id fun y => { y with copies := 0 }).route (epoch % 2) p cls b x else if _ then
        (_, v.updFrame id fun y => { y with copies := 0 }) else (v.updFrame id fun y => { y with copies := 0 }).bridge p b x).2
    generalize v.updFrame id (fun y => { y with copies := 0 }) = w at hw
    split
    · exact hw
    · split
      · exact hw.congr (State.Sends.refl w).route.regs
      · split
        · exact hw
        · exact hw.bridge

theorem returnCells_badFcs (k : Nat) (cls : Nat) (h : (s.port p).badFcs = true) : ((s.returnCells p cls k).port p).badFcs = true := by
  unfold State.returnCells
  dsimp only
  split
  · exact h
  · rw [State.port_setPort_self fun he => ?_]
    · exact h
    · have hbad : (s.port p).badFcs = false := congrArg Port.badFcs he
      rw [h] at hbad
      exact absurd hbad (by decide)

theorem takeCredit_badFcs (k : Nat) (cls : Nat) (h : (s.port p).badFcs = true) : ((s.takeCredit p cls k).2.port p).badFcs = true := by
  unfold State.takeCredit
  split
  · exact h
  · dsimp only
    rw [State.port_setPort_self fun he => ?_]
    · exact h
    · have hbad : (s.port p).badFcs = false := congrArg Port.badFcs he
      rw [h] at hbad
      exact absurd hbad (by decide)

/-- With cut-through off a frame with a wrong FCS touches its port alone, and leaves the mark of an inverted one. -/
theorem badFrame_port (h : CtOff s) : s.badFrame p frame capture [] = { s with ports := (s.badFrame p frame capture []).ports } ∧
    ((s.port p).badFcs = true → ((s.badFrame p frame capture []).port p).badFcs = true) := by
  unfold State.badFrame
  extract_lets b x fault cls k
  split
  · exact ⟨rfl, id⟩
  · have hcredit := s.takeCredit_frame p cls k
    have hbad := fun hb => takeCredit_badFcs (s := s) (p := p) k cls hb
    generalize s.takeCredit p cls k = q at hcredit hbad ⊢
    obtain ⟨beyond, u⟩ := q
    dsimp only at hcredit hbad ⊢
    have hu : CtOff u := h.congr (by rw [hcredit])
    have hdone : ∀ n, u.returnCells p cls n = { s with ports := (u.returnCells p cls n).ports } ∧
        ((s.port p).badFcs = true → ((u.returnCells p cls n).port p).badFcs = true) := fun n =>
      ⟨by rw [u.returnCells_frame p cls n, hcredit], fun hb => returnCells_badFcs n cls (hbad hb)⟩
    split
    · exact hdone k
    · rw [switchFrame_stored hu]
      exact hdone _

theorem rxStart_wrong (hbad : (s.port p).badFcs = false) (hfcs : fcsRight frame = false) (hinv : fcsInverted frame = false) :
    s.rxStart p frame = (false, ((s.count (ctrPort p 0)).countBy (ctrPort p 1) frame.length).count (ctrPort p 4)) := by
  have hcount : s.rxCount p frame.length (s.linkKind frame == some 2) = (s.count (ctrPort p 0)).countBy (ctrPort p 1) frame.length :=
    if_neg (Bool.eq_false_iff.1 hbad)
  unfold State.rxStart
  rw [hcount]
  exact (if_neg (Bool.eq_false_iff.1 hfcs)).trans (if_neg (Bool.eq_false_iff.1 hinv))

theorem rxStart_inverted (hbad : (s.port p).badFcs = false) (hfcs : fcsRight frame = false) (hinv : fcsInverted frame = true) :
    s.rxStart p frame = (false, ((s.count (ctrPort p 0)).countBy (ctrPort p 1) frame.length).setPort p { s.port p with badFcs := true }) := by
  have hcount : s.rxCount p frame.length (s.linkKind frame == some 2) = (s.count (ctrPort p 0)).countBy (ctrPort p 1) frame.length :=
    if_neg (Bool.eq_false_iff.1 hbad)
  unfold State.rxStart
  rw [hcount]
  exact (if_neg (Bool.eq_false_iff.1 hfcs)).trans (if_pos hinv)

/-- A frame with a wrong FCS is counted, and with cut-through off nothing more. -/
theorem frameReceive_wrong {p : Fin 2048} (hrx : s.receives p = true) (hfcs : fcsRight frame = false) (hinv : fcsInverted frame = false)
    (hbad : (s.port p).badFcs = false) (hct : CtOff s) : Answers (exec (.frameReceive p frame capture []) s) fun t =>
      (sget {} t.cnt.counters (ctrPort p 4)).acc = (sget {} s.cnt.counters (ctrPort p 4)).acc + 1 ∧
      (sget {} t.cnt.counters (ctrPort p 0)).acc = (sget {} s.cnt.counters (ctrPort p 0)).acc + 1 ∧
      t = { s with ports := t.ports, cnt := t.cnt } := by
  rw [exec_frameReceive hrx, rxStart_wrong hbad hfcs hinv]
  have h4 : (sget {} (((s.count (ctrPort p 0)).countBy (ctrPort p 1) frame.length).count (ctrPort p 4)).cnt.counters (ctrPort p 4)).acc =
      (sget {} s.cnt.counters (ctrPort p 4)).acc + 1 := by
    rw [State.count, countBy_acc_self _ _ Nat.one_pos, countBy_acc_of_ne _ _ (ctrPort_ne (by decide)), State.count,
      countBy_acc_of_ne _ _ (ctrPort_ne (by decide))]
  have h0 : (sget {} (((s.count (ctrPort p 0)).countBy (ctrPort p 1) frame.length).count (ctrPort p 4)).cnt.counters (ctrPort p 0)).acc =
      (sget {} s.cnt.counters (ctrPort p 0)).acc + 1 := by
    rw [State.count, countBy_acc_of_ne _ _ (ctrPort_ne (by decide)), countBy_acc_of_ne _ _ (ctrPort_ne (by decide)), State.count,
      countBy_acc_self _ _ Nat.one_pos]
  have hframe : ((s.count (ctrPort p 0)).countBy (ctrPort p 1) frame.length).count (ctrPort p 4) =
      { s with cnt := (((s.count (ctrPort p 0)).countBy (ctrPort p 1) frame.length).count (ctrPort p 4)).cnt } := rfl
  generalize ((s.count (ctrPort p 0)).countBy (ctrPort p 1) frame.length).count (ctrPort p 4) = u at h4 h0 hframe
  obtain ⟨hport, -⟩ := badFrame_port (s := u) (p := p) (frame := frame) (capture := capture) (hct.congr (by rw [hframe]))
  refine ⟨u.badFrame p frame capture [], congrArg _ (if_neg nofun), ?_⟩
  generalize u.badFrame p frame capture [] = t at hport
  refine ⟨?_, ?_, by rw [hport, hframe]⟩ <;> rw [hport]
  · exact h4
  · exact h0

/-- A frame with an inverted FCS is remembered, and with cut-through off nothing more. -/
theorem frameReceive_inverted {p : Fin 2048} (hrx : s.receives p = true) (hfcs : fcsRight frame = false) (hinv : fcsInverted frame = true)
    (hbad : (s.port p).badFcs = false) (hct : CtOff s) : Answers (exec (.frameReceive p frame capture []) s) fun t =>
      (sget {} t.cnt.counters (ctrPort p 4)).acc = (sget {} s.cnt.counters (ctrPort p 4)).acc ∧ (t.port p).badFcs = true ∧
      t = { s with ports := t.ports, cnt := t.cnt } := by
  rw [exec_frameReceive hrx, rxStart_inverted hbad hfcs hinv]
  have h4 : (sget {} ((s.count (ctrPort p 0)).countBy (ctrPort p 1) frame.length).cnt.counters (ctrPort p 4)).acc =
      (sget {} s.cnt.counters (ctrPort p 4)).acc := by
    rw [countBy_acc_of_ne _ _ (ctrPort_ne (by decide)), State.count, countBy_acc_of_ne _ _ (ctrPort_ne (by decide))]
  have hframe := counted_frame s (ctrPort p 0) (ctrPort p 1) frame.length
  generalize (s.count (ctrPort p 0)).countBy (ctrPort p 1) frame.length = w at h4 hframe
  have hset : (w.setPort p { s.port p with badFcs := true }).port p = { s.port p with badFcs := true } :=
    State.port_setPort_self fun he => by
      have htrue : true = false := congrArg Port.badFcs he
      exact absurd htrue (by decide)
  have hframe2 : w.setPort p { s.port p with badFcs := true } = { s with ports := (w.setPort p { s.port p with badFcs := true }).ports, cnt := w.cnt } := by
    rw [State.setPort, hframe]
  generalize w.setPort p { s.port p with badFcs := true } = u at hset hframe2
  obtain ⟨hport, hkeep⟩ := badFrame_port (s := u) (p := p) (frame := frame) (capture := capture) (hct.congr (by rw [hframe2]))
  have hmark := hkeep (by rw [hset])
  refine ⟨u.badFrame p frame capture [], congrArg _ (if_neg nofun), ?_⟩
  generalize u.badFrame p frame capture [] = t at hport hmark
  refine ⟨?_, hmark, by rw [hport, hframe2]⟩
  rw [hport, hframe2]
  exact h4

/-! ## Good frames -/

theorem goodFrame_ptp {p : Fin 2048} {i : Nat} (hlldp : isLldp frame = false) (hptp : (s.parse (frame.take (frame.length - 4))).ptp
    (frame.take (frame.length - 4)) = some i) (hagreed : s.portAgreed p = true) : s.goodFrame p frame capture errs =
      s.ptpFrame p (frame.take (frame.length - 4)) (s.parse (frame.take (frame.length - 4))) i capture errs := by
  refine (if_neg (Bool.eq_false_iff.1 hlldp)).trans ?_
  rw [hptp]
  exact if_pos hagreed

theorem goodFrame_data {p : Fin 2048} (hlldp : isLldp frame = false) (hptp : (s.parse (frame.take (frame.length - 4))).ptp
    (frame.take (frame.length - 4)) = none) (hown : s.linkOwn (s.parse (frame.take (frame.length - 4))) = false) :
    s.goodFrame p frame capture errs = if s.portAgreed p then
      s.dataIn p (frame.take (frame.length - 4)) (s.parse (frame.take (frame.length - 4))) capture errs else s := by
  refine (if_neg (Bool.eq_false_iff.1 hlldp)).trans ?_
  rw [hptp]
  refine (if_neg (Bool.eq_false_iff.1 hown)).trans ?_
  cases h : s.portAgreed p <;> rfl

/-- A data frame that nothing discards and that is for neither a Basin nor a far peg goes to the lookup. -/
theorem dataFate_lookup {cls k : Nat} (hstate : s.portState p ≠ psQuarantine) (hfwd : s.fwdAdmits = true)
    (hmax : b.length + 4 ≤ s.portMax p) (hcoll : s.isCollective b x = false) (hfar : s.isFar b x = false) :
    dataFate s p cls k none b x capture errs = s.switchFrame p cls b x true false capture 0 errs := by
  unfold dataFate
  rw [if_neg hstate, if_neg (by rw [hfwd]; decide), if_neg (by omega)]
  dsimp only
  split
  · exact if_neg (Bool.eq_false_iff.1 hcoll)
  · exact if_neg (Bool.eq_false_iff.1 hfar)
  · rfl

theorem ctrPort_ne_sample (p k : Nat) (hp : p < 2048) (hk : k < 16) : ctrPort p k ≠ ctrSwc 21 := by
  simp only [ctrPort, ctrSwc, ctrKey]
  omega

theorem ctrSlice_ne_sample (sl k : Nat) (hsl : sl < 8) (hk : k < 32) : ctrSlice sl k ≠ ctrSwc 21 := by
  simp only [ctrSlice, ctrSwc, ctrKey]
  omega

theorem portSlice_lt {p : Nat} (hp : p < 2048) : portSlice p < 8 := by
  unfold portSlice
  rw [if_pos hp]
  omega

theorem hfhFault_code {c : Nat} (h : s.hfhFault p b x = some c) : c = 5 ∨ c = 6 ∨ c = 7 := by
  unfold State.hfhFault at h
  split at h
  · cases h
  · dsimp only at h
    split at h
    · cases h; exact .inl rfl
    · split at h
      · cases h; exact .inr (.inl rfl)
      · split at h
        · cases h; exact .inr (.inr rfl)
        · cases h

/-- The discards of a data frame, with the state that its credits were taken from. -/
theorem credited_dropped {p : Nat} {cls k key : Nat} {b : Bytes} (s : State) (hkey : key ≠ ctrSwc 21) :
    let t := dropped (s.takeCredit p cls k).2 p cls k key b
    (sget {} t.cnt.counters key).acc = (sget {} s.cnt.counters key).acc + 1 ∧
    t.swc.frames = s.swc.frames ∧ t.swc.queues = s.swc.queues ∧ t.out = s.out ∧ t.regs = s.regs := by
  have hcredit := s.takeCredit_frame p cls k
  generalize (s.takeCredit p cls k).2 = u at hcredit
  obtain ⟨h1, h2, h3, h4, h5⟩ := dropped_counts u p cls k key b hkey
  rw [hcredit] at h1 h2 h3 h4 h5 ⊢
  exact ⟨h1, h2, h3, h4, h5⟩

theorem dataIn_taken (h : (s.takeCredit p (s.frameClass b x (s.hfhFault p b x).isNone) (cellsOf (b.length + 4))).1 = false) :
    s.dataIn p b x capture errs = dataFate (s.takeCredit p (s.frameClass b x (s.hfhFault p b x).isNone) (cellsOf (b.length + 4))).2 p
      (s.frameClass b x (s.hfhFault p b x).isNone) (cellsOf (b.length + 4)) (s.hfhFault p b x) b x capture errs := by
  rw [dataIn_eq]
  exact if_neg (Bool.eq_false_iff.1 h)

section
variable (s : State) (p cls k : Nat)

theorem takeCredit_portState : (s.takeCredit p cls k).2.portState p = s.portState p := by rw [s.takeCredit_frame]; rfl
theorem takeCredit_fwdAdmits : (s.takeCredit p cls k).2.fwdAdmits = s.fwdAdmits := by rw [s.takeCredit_frame]; rfl
theorem takeCredit_portMax : (s.takeCredit p cls k).2.portMax p = s.portMax p := by rw [s.takeCredit_frame]; rfl
theorem takeCredit_isCollective (b : Bytes) (x : Parsed) : (s.takeCredit p cls k).2.isCollective b x = s.isCollective b x := by
  rw [s.takeCredit_frame]; rfl
theorem takeCredit_isFar (b : Bytes) (x : Parsed) : (s.takeCredit p cls k).2.isFar b x = s.isFar b x := by rw [s.takeCredit_frame]; rfl

end

/-! ## No room -/

/-- Between two states the tables, event registers, messages and forwarding's counts alone differ. -/
structure TableSeen (s t : State) : Prop where
  frame : t = { s with fwd := t.fwd, regs := t.regs, out := t.out, cnt := t.cnt }
  frames : t.out.frames = s.out.frames
  rd : ∀ o, o < 0x800000 ∨ 0x804000 ≤ o → t.rd o = s.rd o
  ports : t.enabledPorts = s.enabledPorts
  counts : ∀ k, ctrKey 4 0 ≤ k → sget {} t.cnt.counters k = sget {} s.cnt.counters k

theorem TableSeen.refl (s : State) : TableSeen s s := ⟨rfl, rfl, fun _ _ => rfl, rfl, fun _ _ => rfl⟩

theorem TableSeen.trans {s t u : State} (h : TableSeen s t) (k : TableSeen t u) : TableSeen s u where
  frame := by rw [k.frame, h.frame]
  frames := k.frames.trans h.frames
  rd o ho := (k.rd o ho).trans (h.rd o ho)
  ports := k.ports.trans h.ports
  counts j hj := (k.counts j hj).trans (h.counts j hj)

theorem TableSeen.count (s : State) {k : Nat} (hk : k < ctrKey 4 0) : TableSeen s (s.count k) :=
  ⟨rfl, rfl, fun _ _ => rfl, rfl, fun j hj => countBy_acc_of_ne _ _ (by omega)⟩

theorem filterMap_sput {α β : Type} (g : Nat × α → Option β) (m : Sparse α) (n : Nat) (x : α) (h : ∀ v, g (n, v) = none) :
    (sput m n x).filterMap g = m.filterMap g := by
  induction m with
  | nil => exact List.filterMap_cons_none (h x)
  | cons e m ih =>
    obtain ⟨k, v⟩ := e
    unfold sput
    split
    · exact List.filterMap_cons_none (h x)
    · split
      · next hk =>
        subst hk
        rw [List.filterMap_cons_none (h x), List.filterMap_cons_none (h v)]
      · rw [List.filterMap_cons, List.filterMap_cons, ih]

theorem filterMap_sdel {α β : Type} (g : Nat × α → Option β) (m : Sparse α) (n : Nat) (h : ∀ v, g (n, v) = none) :
    (sdel m n).filterMap g = m.filterMap g := by
  induction m with
  | nil => rfl
  | cons e m ih =>
    obtain ⟨k, v⟩ := e
    unfold sdel
    split
    · next hk =>
      subst hk
      exact (List.filterMap_cons_none (h v)).symm
    · rw [List.filterMap_cons, List.filterMap_cons, ih]

theorem enabledPorts_wr (s : State) {off : Nat} (v : Word) (h : 0x500100 ≤ off) : (s.wr off v).enabledPorts = s.enabledPorts := by
  have hnone : ∀ v : Word, (let d := off - R.PRT_PORT_CTRL 0 0
      if R.PRT_PORT_CTRL 0 0 ≤ off ∧ d / 4096 < 256 ∧ d % 4096 / 256 < 8 ∧ d % 256 = 0 ∧ F.PRT_PORT_CTRL_ENABLE.get v = 1 then
        some (8 * (d / 4096) + d % 4096 / 256) else none) = none := fun v => if_neg (by simp only [R.PRT_PORT_CTRL]; omega)
  change List.filterMap _ (sset (resetWord off) s.regs off v) = List.filterMap _ s.regs
  unfold sset
  split
  · exact filterMap_sdel _ _ _ hnone
  · exact filterMap_sput _ _ _ _ hnone

theorem enabledPorts_lt {q : Nat} (h : q ∈ s.enabledPorts) : q < 2048 := by
  obtain ⟨e, -, he⟩ := List.mem_filterMap.1 h
  dsimp only at he
  split at he
  · cases he
    omega
  · cases he

theorem TableSeen.wr {s t : State} (h : TableSeen s t) {off : Nat} (v : Word) (hoff : 0x800000 ≤ off ∧ off < 0x804000) :
    TableSeen s (t.wr off v) where
  frame := by rw [State.wr, h.frame]
  frames := h.frames
  rd o ho := (State.rd_wr_of_ne _ _ (by omega)).trans (h.rd o ho)
  ports := (enabledPorts_wr _ _ (by omega)).trans h.ports
  counts j hj := h.counts j hj

theorem TableSeen.raise {s t : State} (h : TableSeen s t) (v : Nat) : TableSeen s (t.raise v) where
  frame := by rw [State.raise, State.count, State.countBy, h.frame]
  frames := h.frames
  rd o ho := (State.raise_rd _ _ _).trans (h.rd o ho)
  ports := h.ports
  counts j hj := (countBy_acc_of_ne _ _ (by simp only [ctrHif, ctrKey] at hj ⊢; omega)).trans (h.counts j hj)

theorem TableSeen.logEntry {s t : State} (h : TableSeen s t) {head size : Nat} {entry info : Nat → Nat} (a b : Word) (hsize : 0 < size)
    (hhead : 0x800000 ≤ head ∧ head < 0x804000)
    (hentry : ∀ k, k < size → (0x800000 ≤ entry k ∧ entry k < 0x804000) ∧ 0x800000 ≤ info k ∧ info k < 0x804000) :
    TableSeen s (t.logEntry head entry info size a b) := by
  obtain ⟨ha, hb⟩ := hentry _ (Nat.mod_lt (t.fld head ⟨0, 32⟩) hsize)
  unfold State.logEntry
  exact ((h.wr a ha).wr b hb).wr _ hhead

theorem fwdEvent_seen (s : State) (kind bank table row : Nat) : TableSeen s (s.fwdEvent kind bank table row) := by
  unfold State.fwdEvent
  extract_lets info
  refine .raise (.logEntry (.refl s) _ _ (by decide) (by decide) fun k hk => ?_) _
  simp only [R.FWD_EVENT, R.FWD_EVENT_INFO]
  omega

theorem tableErrs_seen (s : State) {slice : Nat} (hslice : slice < 8) (l : List TableErr) : TableSeen s (s.tableErrs slice l) := by
  unfold State.tableErrs
  refine foldl_keeps (P := TableSeen s) (fun t e _ ht => ht.trans ?_) (.refl s)
  have hcount : ∀ k, k < 32 → ctrSlice slice k < ctrKey 4 0 := fun k hk => by simp only [ctrSlice, ctrKey]; omega
  split
  · exact .count t (hcount 16 (by decide))
  · next bank tbl b r _ =>
    have hinv : TableSeen t (if t.fwd.invalid.contains (rowKey tbl b r) = true then t else
        { t with fwd.invalid := t.fwd.invalid ++ [rowKey tbl b r] }) := by
      split
      · exact .refl t
      · exact ⟨rfl, rfl, fun _ _ => rfl, rfl, fun _ _ => rfl⟩
    exact (hinv.trans (fwdEvent_seen _ _ _ _ _)).trans (.count _ (hcount 8 (by decide)))
  · split
    · exact .refl t
    · exact ⟨rfl, rfl, fun _ _ => rfl, rfl, fun _ _ => rfl⟩

theorem TableSeen.room {s t : State} (h : TableSeen s t) {p : Nat} (hp : p < 2048) (c : Nat) : t.room p c = s.room p c := by
  have hcfg : t.cfg = s.cfg := by rw [h.frame]
  have hswc : t.swc = s.swc := by rw [h.frame]
  have hcfld : ∀ o f, t.cfld o f = s.cfld o f := fun o f => by unfold State.cfld State.committed; rw [hcfg]
  have hbuf : ∀ q c f, t.bufFld q c f = s.bufFld q c f := fun q c f => by unfold State.bufFld; rw [hcfld, hcfld]
  have hunits : ∀ q, q < 2048 → t.rateUnits q = s.rateUnits q := fun q hq => by
    unfold State.rateUnits State.portLanes State.pairMode
    rw [State.fld_congr (h.rd _ (.inl (by simp only [R.PRT_PAIR_CFG]; omega)))]
  have hres : ∀ q c, q < 2048 → t.reservation q c = s.reservation q c := fun q c hq => by
    unfold State.reservation; rw [hunits q hq, hbuf]
  have hhead : ∀ q c, q < 2048 → t.headroom q c = s.headroom q c := fun q c hq => by
    unfold State.headroom; rw [hunits q hq, hbuf]
  have htotal : ∀ q, t.sharedTotal q = s.sharedTotal q := fun q => by
    unfold State.sharedTotal
    rw [h.ports]
    refine congrArg (fun l : List Nat => 393216 - l.sum) (List.map_congr_left fun q hq => ?_)
    have hlt := enabledPorts_lt (List.mem_filter.1 hq).1
    exact congrArg List.sum (List.map_congr_left fun c _ => by rw [hres q c hlt, hhead q c hlt])
  have hfree : ∀ q, t.sharedFree q = s.sharedFree q := fun q => by
    unfold State.sharedFree State.strayCells
    rw [htotal, hswc]
  have hframes : t.ingressFrames p c = s.ingressFrames p c := by unfold State.ingressFrames; rw [hswc]
  unfold State.room State.alpha
  dsimp only
  rw [hframes, hres p c hp, hhead p c hp, hfree, hbuf]

theorem stampFrame_seen (s : State) {p : Nat} (hp : p < 2048) (h : Option Hfh) : TableSeen s (s.stampFrame p h).2.2 := by
  have hslice := portSlice_lt hp
  unfold State.stampFrame
  dsimp only
  split
  · exact .refl s
  · split
    · exact .refl s
    · split
      · exact .refl s
      · split
        · exact .refl s
        · exact .count s (by simp only [ctrSlice, ctrKey]; omega)

/-- A frame that its class has no room for is counted, gives back its cells, and may be sampled. -/
theorem switchFrame_noRoom {s t : State} {p : Nat} (hp : p < 2048) {cls : Nat} {b : Bytes} {x : Parsed} {hfhOk : Bool} {capture : TimeStamp}
    {errs : List TableErr} (h : admitCells (cellsOf (b.length + 4)) (s.room p cls) = none)
    (ht : s.switchFrame p cls b x hfhOk false capture 0 errs = t) :
    ∃ v k asked, TableSeen s v ∧
      t = ((v.count (ctrSwcClass p cls 0)).returnCells p cls k).sample p asked b (b.length + 4) noOutput := by
  unfold State.switchFrame at ht
  have hseen := tableErrs_seen s (portSlice_lt hp) errs
  generalize s.tableErrs (portSlice p) errs = u at hseen ht
  extract_lets s1 s0 hdr at ht
  have hseen2 := hseen.trans (stampFrame_seen s1 hp hdr)
  generalize s1.stampFrame p hdr = q at hseen2 ht
  obtain ⟨epoch, stamp, v⟩ := q
  dsimp only at hseen2 ht
  have hnone : ∀ f : Stored, f.bytes = b → f.ingress = p → f.cls = cls → v.admitAs false f = none := fun f hb hi hc => by
    have hroom : admitCells f.cells (v.room f.ingress f.cls) = none := by
      rw [hi, hc, hseen2.room hp cls]
      unfold Stored.cells Stored.len
      rw [hb]
      exact h
    unfold State.admitAs State.admitFrame
    rw [if_neg (by decide), hroom]
  rw [hnone _ rfl rfl rfl] at ht
  exact ⟨v, _, _, hseen2, ht.symm.trans (if_pos rfl)⟩

/-- A frame that its class has no room for changes no queue, and nothing of it is sent. -/
theorem switchFrame_full {s : State} {p : Nat} (hp : p < 2048) {cls : Nat} {b : Bytes} {x : Parsed} {hfhOk : Bool} {capture : TimeStamp}
    {errs : List TableErr} (h : admitCells (cellsOf (b.length + 4)) (s.room p cls) = none) :
    let t := s.switchFrame p cls b x hfhOk false capture 0 errs
    (sget {} t.cnt.counters (ctrSwcClass p cls 0)).acc = (sget {} s.cnt.counters (ctrSwcClass p cls 0)).acc + 1 ∧
    t.swc.frames = s.swc.frames ∧ t.swc.queues = s.swc.queues ∧ t.out.frames = s.out.frames := by
  obtain ⟨v, k, asked, hseen, heq⟩ := switchFrame_noRoom (x := x) (hfhOk := hfhOk) (capture := capture) (errs := errs) hp h rfl
  rw [heq]
  have hreturn := (v.count (ctrSwcClass p cls 0)).returnCells_frame p cls k
  generalize (v.count (ctrSwcClass p cls 0)).returnCells p cls k = w at hreturn ⊢
  have hglimpsed := (State.Glimpsed.refl w).sample (p := p) (asked := asked) (b := b) (len := b.length + 4) (out := noOutput)
  generalize w.sample p asked b (b.length + 4) noOutput = r at hglimpsed ⊢
  obtain ⟨hframe, hcounts⟩ := hglimpsed
  have hswc : v.swc = s.swc := by rw [hseen.frame]
  refine ⟨?_, ?_, ?_, ?_⟩
  · rw [hcounts _ (by simp only [ctrSwcClass, ctrSwc, ctrKey]; omega), hreturn]
    change (sget {} (v.count (ctrSwcClass p cls 0)).cnt.counters _).acc = _
    rw [State.count, countBy_acc_self _ _ Nat.one_pos, hseen.counts _ (by simp only [ctrSwcClass, ctrKey]; omega)]
  · rw [hframe, hreturn, ← hswc]
    rfl
  · rw [hframe, hreturn, ← hswc]
    rfl
  · rw [hframe, hreturn, ← hseen.frames]
    rfl

end

/-- Settles O45. -/
theorem frameReception : Obligations.FrameReception := by
  unfold Obligations.FrameReception
  refine ⟨fun p frame capture errs s h => if_pos h, fun p frame capture s hrx hfcs hinv hbad hct => frameReceive_wrong hrx hfcs hinv hbad hct,
    fun p frame capture s hrx hfcs hinv hbad hct => frameReceive_inverted hrx hfcs hinv hbad hct, ?lldp, ?data, ?ptp, ?beyond, ?quarantine,
    ?inactive, ?long, ?hfh, ?lookup, ?full⟩
  case lldp =>
    intro p frame capture errs s hrx hfcs hlldp hkind
    rw [exec_frameReceive_good hrx hfcs hkind]
    exact congrArg _ (if_pos hlldp)
  case data =>
    intro p frame b x capture errs s hb hx hrx hfcs hlldp hkind hptp hown
    subst hb hx
    rw [exec_frameReceive_good hrx hfcs hkind]
    have hr := rxCount_frame s p frame.length false
    generalize s.rxCount p frame.length false = r at hr
    have hparse : r.parse (frame.take (frame.length - 4)) = s.parse (frame.take (frame.length - 4)) := by rw [hr]; rfl
    have hagreed : r.portAgreed p = s.portAgreed p := by rw [hr]; rfl
    rw [← hparse] at hptp
    rw [goodFrame_data hlldp hptp (by rw [hparse, hr]; exact hown), hparse, hagreed]
  case ptp =>
    intro p frame b x i capture errs s hb hx hrx hfcs hlldp hkind hptp hagreed
    subst hb hx
    rw [exec_frameReceive_good hrx hfcs hkind]
    have hr := rxCount_frame s p frame.length false
    generalize s.rxCount p frame.length false = r at hr
    have hparse : r.parse (frame.take (frame.length - 4)) = s.parse (frame.take (frame.length - 4)) := by rw [hr]; rfl
    rw [← hparse] at hptp
    rw [goodFrame_ptp hlldp hptp (by rw [hr]; exact hagreed), hparse]
    have hmax : r.portMax p = s.portMax p := by rw [hr]; rfl
    have hrd : ∀ o, r.rd o = s.rd o := fun o => State.rd_congr (by rw [hr]) o
    have hcls : ∀ b x, r.frameClass b x true = s.frameClass b x true := fun b x => by rw [hr]; rfl
    unfold State.ptpFrame State.flag State.fld
    rw [hmax, hrd, hcls]
  case beyond =>
    intro p b x capture errs s hbeyond
    rw [dataIn_eq]
    dsimp only
    rw [if_pos hbeyond]
    exact credited_dropped s (ctrPort_ne_sample p 7 p.isLt (by decide))
  case quarantine =>
    intro p b x capture errs s htaken hstate
    rw [dataIn_taken htaken]
    unfold dataFate
    rw [takeCredit_portState, if_pos hstate]
    exact credited_dropped s (ctrPort_ne_sample p 6 p.isLt (by decide))
  case inactive =>
    intro p b x capture errs s htaken hstate hfwd
    rw [dataIn_taken htaken]
    unfold dataFate
    rw [takeCredit_portState, if_neg hstate, takeCredit_fwdAdmits, if_pos hfwd]
    exact credited_dropped s (ctrSlice_ne_sample _ 15 (portSlice_lt p.isLt) (by decide))
  case long =>
    intro p b x capture errs s htaken hstate hfwd hmax
    rw [dataIn_taken htaken]
    unfold dataFate
    rw [takeCredit_portState, if_neg hstate, takeCredit_fwdAdmits, if_neg (by rw [hfwd]; decide), takeCredit_portMax, if_pos hmax]
    exact credited_dropped s (by simp only [ctrSwcPort, ctrSwc, ctrKey]; omega)
  case hfh =>
    intro p b x c capture errs s htaken hfault hstate hfwd hmax
    have hcode := hfhFault_code hfault
    have hnone : (s.hfhFault p b x).isNone = false := by rw [hfault]; rfl
    rw [dataIn_taken (by rw [hnone]; exact htaken), hfault]
    unfold dataFate
    rw [takeCredit_portState, if_neg hstate, takeCredit_fwdAdmits, if_neg (by rw [hfwd]; decide), takeCredit_portMax, if_neg (by omega)]
    exact ⟨hcode, credited_dropped s (ctrSlice_ne_sample _ c (portSlice_lt p.isLt) (by omega))⟩
  case lookup =>
    intro p b x capture errs s htaken hfault hstate hfwd hmax hcoll hfar
    have hnone : (s.hfhFault p b x).isNone = true := by rw [hfault]; rfl
    rw [← hnone] at htaken
    rw [dataIn_taken htaken, hfault]
    exact dataFate_lookup (by rw [takeCredit_portState]; exact hstate) (by rw [takeCredit_fwdAdmits]; exact hfwd)
      (by rw [takeCredit_portMax]; exact hmax) (by rw [takeCredit_isCollective]; exact hcoll) (by rw [takeCredit_isFar]; exact hfar)
  case full => exact fun p cls b x hfhOk capture errs s h => switchFrame_full p.isLt h

end Sys2Proof.Proofs
end

section
/-! PROOF. The resequencers (spec/08): one that has nothing outstanding leaves the store of resequencers; where that store lists the
resequencer twice, the second entry shows. -/

namespace Sys2Proof.Proofs
open Sys2Proof Sys2Proof.Machine

/-- The stream of slice 0, port 0, class 0. -/
def firstStream : MeshStream := ⟨0, 0, 0⟩

/-- A module whose first resequencer holds the last sequence number behind a gap, and whose store lists that resequencer twice, the second
time with another sequence number next. -/
def gapTwice : State := { swc := { reseqs := [(0, { held := [0xFFFF], next := 5 }), (0, { next := 7 })] } }

/-- After the timeout, which leaves nothing outstanding, the second entry shows. -/
theorem gapTwice_timeout : ∃ t, exec (.reseqTimeout firstStream) gapTwice = .next t ∧
    (sget {} t.swc.reseqs (meshKey firstStream)).next = 7 :=
  ⟨_, rfl, by decide +kernel⟩

/-- Refutes O46: the clause on a timeout that skips a gap does not ask that the store of resequencers be canonical, and in `gapTwice`,
where it is not, the number after the one that was held is not the next one. -/
theorem not_queuesAndMesh : ¬ Obligations.QueuesAndMesh := by
  unfold Obligations.QueuesAndMesh
  rintro ⟨-, -, -, -, -, -, -, -, -, -, -, -, -, hskip, -⟩
  obtain ⟨t, ht, hnext, -⟩ := hskip firstStream 0xFFFF _ gapTwice rfl (by decide +kernel) (by decide +kernel) (by decide +kernel) (by decide +kernel)
  obtain ⟨u, hu, hseven⟩ := gapTwice_timeout
  obtain rfl : t = u := by rw [ht] at hu; exact Host.Outcome.next.inj hu
  rw [hnext] at hseven
  exact absurd hseven (by decide)

end Sys2Proof.Proofs
end

section
/-! PROOF. The audit of the packet buffers (spec/08): a stored copy that holds no cell is counted with 0 cells; where the counter stands as
at reset and the store of counters lists it twice, its second entry shows after that. -/

namespace Sys2Proof.Proofs
open Sys2Proof Sys2Proof.Machine

/-- A stored copy without bytes, from port 0, that holds no cell. -/
def emptyCopy : Stored := { id := 0, bytes := [], ingress := 0, cls := 0, egress := .asIs, epoch := 0, stamp := 0, hfh := 0, routed := false, quad := 0, refs := 1 }

/-- A module whose only stored copy has had no name on a pass, and whose store of counters lists RECLAIMED of quadrant 0 twice, the second
time at 5. -/
def reclaimedTwice : State :=
  { swc := { frames := [emptyCopy], orphans := [0] }, cnt := { counters := [(ctrSwc 0, {}), (ctrSwc 0, { acc := 5 })] } }

/-- After the pass the second entry shows. -/
theorem reclaimedTwice_pass : ∃ t, exec (.auditPass []) reclaimedTwice = .next t ∧ (sget {} t.cnt.counters (ctrSwc 0)).acc = 5 :=
  ⟨_, rfl, by decide +kernel⟩

/-- Refutes O47: the clause on a copy that nothing names does not ask that the store of counters be canonical, and in `reclaimedTwice`,
where it is not, the count of its quadrant is not what it was and the cells of the copy. -/
theorem not_auditAndSamples : ¬ Obligations.AuditAndSamples := by
  unfold Obligations.AuditAndSamples
  rintro ⟨-, hleak, -⟩
  obtain ⟨t, ht, -, -, -, hcount, -⟩ := hleak emptyCopy reclaimedTwice (by decide +kernel) rfl (by decide +kernel) (by decide +kernel)
    (by decide +kernel) rfl rfl (by decide +kernel) (by decide +kernel)
  obtain ⟨u, hu, hfive⟩ := reclaimedTwice_pass
  obtain rfl : t = u := by rw [ht] at hu; exact Host.Outcome.next.inj hu
  have hzero : (sget {} t.cnt.counters (ctrSwc 0)).acc = 0 := hcount
  rw [hzero] at hfive
  exact absurd hfive (by decide)

end Sys2Proof.Proofs
end

section
/-! PROOF. The shadow compare (spec/07): the lock of a segment of a table that does not exist would lie among the registers of FWD's
events. -/

namespace Sys2Proof.Proofs
open Sys2Proof Sys2Proof.Machine

/-- Row 1 of a table 16, beyond the last table. -/
def rowBeyond : RowRef := ⟨16, 0, 1⟩

/-- A module that restores the rows that differ from their shadow. -/
def restoring : State := { regs := [(R.FWD_SHADOW_CTRL, F.FWD_SHADOW_CTRL_RESTORE.put 1)] }

/-- The event of the mismatch reads as the lock of the row's segment: nothing is restored, and one message goes out. -/
theorem restoring_mismatch : (restoring.mismatch rowBeyond []).out.msix = [10] := by decide +kernel

/-- Refutes O48: the clause on a row that RESTORE corrects does not ask that its table exist, and `rowBeyond` is not corrected. -/
theorem not_epochsAndTables : ¬ Obligations.EpochsAndTables := by
  unfold Obligations.EpochsAndTables
  rintro ⟨-, -, -, -, -, -, -, -, -, -, -, -, -, -, -, -, -, hrestore, -⟩
  obtain ⟨-, -, hout⟩ := hrestore rowBeyond [] restoring (by decide +kernel) (by decide) (by decide) (by decide +kernel) (by decide +kernel)
    (by decide +kernel) (by decide)
  have htwo := congrArg (fun o => o.msix) hout
  rw [restoring_mismatch] at htwo
  exact absurd htwo (by decide)

end Sys2Proof.Proofs
end

section
/-! PROOF. The windows of a port (spec/11): opening one takes the port's entry out of the store of ports where nothing else stands in it;
where that store lists the port twice, the second entry shows. -/

namespace Sys2Proof.Proofs
open Sys2Proof Sys2Proof.Machine

/-- A notice that names port 0 and an instant in the second second. -/
def firstNotice : Notice := { kind := 1, circuit := 0, at_ := 2000000000, w := 0, mask := 0, ports := [0] }

/-- A module a second after its start, whose first port has locked, that has a notice to send, and whose store of ports lists that port
twice: shut, and with an LLDP frame due. -/
def shutTwice : State :=
  { regs := [(prtCtrl 0, F.PRT_PORT_CTRL_ENABLE.put 1), (R.PRT_PAIR_STATUS 0, F.PRT_PAIR_STATUS_LOCK.put 255)],
    tim := { base := BitVec.ofNat _ (2 ^ 48) }, spl := { notices := [firstNotice] },
    ports := [(0, { shut := true }), (0, { lldpDue := true })] }

/-- When the window opens the second entry shows: an LLDP frame is sent before the notice. -/
theorem shutTwice_window : ∃ t, exec (.windowOpen 0) shutTwice = .next t ∧ t.out.frames.length = 2 := ⟨_, rfl, by decide +kernel⟩

/-- Refutes O50: the clause on a window in which a notice is sent does not ask that the store of ports be canonical, and in `shutTwice`, where
it is not, two frames are sent. -/
theorem not_slotsAndFlips : ¬ Obligations.SlotsAndFlips := by
  unfold Obligations.SlotsAndFlips
  rintro ⟨-, -, -, -, -, -, -, hnotice, -⟩
  obtain ⟨t, ht, hout⟩ := hnotice 0 firstNotice shutTwice (by decide +kernel) (by decide +kernel) (by decide +kernel) (by decide +kernel) rfl
    (by decide +kernel) (by decide +kernel) (by decide +kernel) (by decide +kernel)
  obtain ⟨u, hu, htwo⟩ := shutTwice_window
  obtain rfl : t = u := by rw [ht] at hu; exact Host.Outcome.next.inj hu
  rw [hout] at htwo
  exact absurd htwo (by decide)

end Sys2Proof.Proofs
end

section
/-! PROOF. Patrol scrub (spec/13): a scrub place within 64 bytes of the end of a stack reads the next stack as well, and wakes its bay. -/

namespace Sys2Proof.Proofs
open Sys2Proof Sys2Proof.Machine

/-- A module whose scrubber stands 32 bytes before the end of the first stack, with the bay of the second stack at rest. -/
def scrubAtEnd : State :=
  { regs := [(R.PWR_BAY_STATUS 29, F.PWR_BAY_STATUS_STATE.put 1), (R.MEM_HBM_STATUS 0, F.MEM_HBM_STATUS_STATE.put 1)],
    mem := { scrubHbm := hbmStack - 32 } }

/-- The read wakes the bay of the second stack. -/
theorem scrubAtEnd_wakes : ∃ t, exec (.scrubRead false none) scrubAtEnd = .next t ∧ t.pwr.waking = [29] := ⟨_, rfl, by decide +kernel⟩

/-- Refutes O53: the clause on a scrub read that finds nothing does not ask that the scrubber's place be that of a line, and in `scrubAtEnd`
more than registers and the place change. -/
theorem not_memoryAndSecurityRegisters : ¬ Obligations.MemoryAndSecurityRegisters := by
  unfold Obligations.MemoryAndSecurityRegisters
  rintro ⟨-, hscrub, -⟩
  obtain ⟨t, ht, -, -, hframe⟩ := hscrub scrubAtEnd (by decide +kernel) (by decide +kernel) (by decide +kernel) (by decide +kernel) rfl
  obtain ⟨u, hu, hwakes⟩ := scrubAtEnd_wakes
  obtain rfl : t = u := by rw [ht] at hu; exact Host.Outcome.next.inj hu
  have hstill : t.pwr.waking = [] := by rw [hframe]; rfl
  rw [hstill] at hwakes
  exact absurd hwakes (by decide)

end Sys2Proof.Proofs
end

section
/-! PROOF. Plane messages (spec/17): BUSY of a set's status follows the queue of checks, and the status register of a set beyond the
sets there are would lie on PLN_FLIP_TIME. -/

namespace Sys2Proof.Proofs
open Sys2Proof Sys2Proof.Machine

/-- A READY of worker 0, whose identity is 5, for flip 0 without a reason against it, before its CRC. -/
def readyText : Bytes :=
  beBytes 1 4 ++ beBytes 1 0x10 ++ beBytes 2 0 ++ beBytes 8 5 ++ beBytes 4 0 ++ beBytes 4 0 ++ beBytes 2 16 ++ beBytes 2 0 ++ beBytes 16 0

/-- The READY with its CRC. -/
def readyMsg : Bytes := readyText ++ beBytes 4 (crc32c readyText)

/-- A set whose status register would be PLN_FLIP_TIME. -/
def setBeyond : Nat := (R.PLN_FLIP_TIME - R.CFG_SET_STATUS 0) / 8

/-- An epoch flip of worker 0 and the manager, for which the manager is ready. -/
def flipAsked : ManagerFlip := { kind := 1, id := 0, fromEpoch := 0, startedAt := 0, participants := [0, 1023], ready := [(1023, 0, 0)] }

/-- An acting manager of worker 0 that waits for its READY, with a commit of that set in its queue of checks. -/
def flipWaits : State :=
  { regs := [(R.PLN_STATUS, F.PLN_STATUS_ROLE.put 2)], pln := { flip := some flipAsked },
    cfg := { checks := [{ kind := .commit setBeyond }], committed := [(R.PLN_WORKER_ID 0, 5)] } }

theorem readyMsg_well : planeWell readyMsg = true := by decide +kernel

theorem flipWaits_fromWorker : flipWaits.FromMember 4 readyMsg 0 :=
  ⟨⟨by decide +kernel, readyMsg_well, by decide +kernel, by decide +kernel, by decide +kernel, by decide +kernel⟩, by decide +kernel,
    .inl (by decide +kernel)⟩

/-- With the READY the flip is committed, and PLN_FLIP_TIME reads with the bit that stands for BUSY. -/
theorem flipWaits_ready : ((Out.orElse (exec (.ready 0 readyMsg) flipWaits) {}).rd R.PLN_FLIP_TIME).getLsbD 61 = true := by decide +kernel

/-- Refutes O56: the clause on the last READY does not ask that the commits in the queue of checks be of sets there are, and in `flipWaits`
PLN_FLIP_TIME does not read as the instant. -/
theorem not_planeMessages : ¬ Obligations.PlaneMessages := by
  unfold Obligations.PlaneMessages
  rintro ⟨-, -, -, -, -, -, -, -, -, -, -, -, -, -, -, -, -, -, hready, -⟩
  obtain ⟨t, ht, -, -, htime, -⟩ := hready 0 readyMsg 0 flipAsked flipWaits flipWaits_fromWorker rfl (by decide +kernel) (by decide +kernel) rfl rfl
    (by decide) rfl rfl (by decide +kernel) rfl (by decide) (by decide +kernel)
  have hbusy : (t.rd R.PLN_FLIP_TIME).getLsbD 61 = true := by
    have h := flipWaits_ready
    rw [ht] at h
    exact h
  rw [htime] at hbusy
  exact absurd hbusy (by decide +kernel)

end Sys2Proof.Proofs
end

section
/-! PROOF. The time base (spec/12): while SOURCE is PPS the block of TIM_SET_NS runs whatever ENABLE reads, and a write of it is logged
and discarded. -/

namespace Sys2Proof.Proofs
open Sys2Proof Sys2Proof.Machine

/-- PPS_IN is the source, and the PTP engine does not run. -/
def steeredByPps : State := { regs := [(R.TIM_CTRL, F.TIM_CTRL_SOURCE.put 1)] }

theorem steeredByPps_timeSet : exec (.timeSet 0x10000) steeredByPps = .next (steeredByPps.cfgLog 4 0x1C 0xFF 0 0 R.TIM_SET_NS) := rfl

/-- Refutes O52: the third clause asks that the PTP engine not run, but leaves SOURCE open; with PPS as the source, as in `steeredByPps`,
a write of one nanosecond to TIM_SET_NS is discarded and the time base keeps its value 0. -/
theorem not_timeAndPps : ¬ Obligations.TimeAndPps := by
  unfold Obligations.TimeAndPps
  rintro ⟨-, -, hset, -⟩
  obtain ⟨t, ht, hbase, -⟩ := hset 0x10000 steeredByPps (by decide) (by decide +kernel) (by decide +kernel)
  rw [← Host.Outcome.next.inj (steeredByPps_timeSet.symm.trans ht)] at hbase
  exact absurd (hbase (by decide)).1 (by decide +kernel)

end Sys2Proof.Proofs
end

section
/-! SUPPORT. Messages of the plane: what sending them changes. -/

namespace Sys2Proof.Machine

variable {s t u : State}

/-- From `s` to `t` so many messages leave on the management ports, and nothing else changes but the plane's sequence number and the free
values drawn. -/
def State.Mails (s t : State) (n : Nat) : Prop :=
  ∃ ms seq free, ms.length = n ∧
    t = { s with pln := { s.pln with sequence := seq }, out := { s.out with mgmt := s.out.mgmt ++ ms }, free := free }

theorem State.Mails.refl (s : State) : s.Mails s 0 := ⟨[], s.pln.sequence, s.free, rfl, by rw [List.append_nil]⟩

theorem State.Mails.trans {n m : Nat} (h : s.Mails t n) (k : t.Mails u m) : s.Mails u (n + m) := by
  obtain ⟨ms, seq, free, hn, rfl⟩ := h
  obtain ⟨ns, seq', free', hm, rfl⟩ := k
  exact ⟨ms ++ ns, seq', free', by rw [List.length_append, hn, hm], by rw [← List.append_assoc]⟩

theorem State.plnSend_mails (s : State) (port : Nat) (dest : Word) (kind : Nat) (body : Bytes) : s.Mails (s.plnSend port dest kind body) 1 :=
  ⟨[_], _, _, rfl, rfl⟩

theorem State.sendBoth_mails (s : State) (n kind : Nat) (b : Bytes) : s.Mails (s.sendBoth n kind b) 2 :=
  (s.plnSend_mails 0 _ kind b).trans (State.plnSend_mails _ 1 _ kind b)

/-- A run over a list whose every step sends two messages. -/
theorem State.Mails.foldl {α : Type} {f : State → α → State} (hf : ∀ (s : State) x, s.Mails (f s x) 2) (l : List α) (s : State) :
    s.Mails (l.foldl f s) (2 * l.length) := by
  induction l generalizing s with
  | nil => exact .refl s
  | cons x l ih =>
    have h := (hf s x).trans (ih (f s x))
    rwa [show 2 + 2 * l.length = 2 * (x :: l).length by rw [List.length_cons]; omega] at h

theorem State.Mails.frame {n : Nat} (h : s.Mails t n) :
    t = { s with pln := { s.pln with sequence := t.pln.sequence }, out := { s.out with mgmt := t.out.mgmt }, free := t.free } := by
  obtain ⟨ms, seq, free, -, rfl⟩ := h
  rfl

theorem State.Mails.length {n : Nat} (h : s.Mails t n) : t.out.mgmt.length = s.out.mgmt.length + n := by
  obtain ⟨ms, seq, free, rfl, rfl⟩ := h
  exact List.length_append

theorem State.Mails.regs {n : Nat} (h : s.Mails t n) : t.regs = s.regs := by rw [h.frame]

end Sys2Proof.Machine
end

section
/-! SUPPORT. Events of the plane: the entry that is written and what stays. -/

namespace Sys2Proof.Machine

/-- The place of the next PLN event. -/
def State.plnPlace (s : State) : Nat := s.fld R.PLN_EVENT_HEAD F.PLN_EVENT_HEAD_COUNT % 256

/-- The word of a PLN event. -/
def plnEventWord (kind worker port group opSeq : Nat) : Word :=
  F.PLN_EVENT_KIND.put kind ||| F.PLN_EVENT_WORKER.put worker ||| F.PLN_EVENT_PORT.put port ||| F.PLN_EVENT_GROUP.put group |||
    F.PLN_EVENT_OP_SEQ.put opSeq

theorem plnEventWord_kind (kind worker port group opSeq : Nat) :
    F.PLN_EVENT_KIND.get (plnEventWord kind worker port group opSeq) = kind % 256 := by
  simp (disch := decide) only [plnEventWord, Fld.get_or, Fld.get_put_self, Fld.get_put_of_disjoint, Nat.or_zero, Nat.reducePow]

theorem State.plnPlace_lt (s : State) : s.plnPlace < 256 := Nat.mod_lt _ (by decide)

/-- A PLN event in its log, before its message is raised. -/
def State.plnLogged (s : State) (word id : Word) : State :=
  (((s.wr (R.PLN_EVENT s.plnPlace) word).wr (R.PLN_EVENT_INFO s.plnPlace) s.stamp).wr (R.PLN_EVENT_ID s.plnPlace) id).incFld
    R.PLN_EVENT_HEAD F.PLN_EVENT_HEAD_COUNT

theorem State.plnEvent_eq (s : State) (kind worker port group opSeq : Nat) (id : Word) :
    s.plnEvent kind worker port group opSeq id = (s.plnLogged (plnEventWord kind worker port group opSeq) id).raise 7 := by
  unfold State.plnEvent State.plnLogged State.plnPlace plnEventWord
  rfl

/-- A PLN event changes its log alone of the registers. -/
theorem State.plnEvent_rd {o : Nat} (s : State) (kind worker port group opSeq : Nat) (id : Word) (hhead : o ≠ R.PLN_EVENT_HEAD)
    (ho : o < R.PLN_EVENT 0 ∨ R.PLN_EVENT 256 ≤ o) : (s.plnEvent kind worker port group opSeq id).rd o = s.rd o := by
  have hk := s.plnPlace_lt
  have hne : o ≠ R.PLN_EVENT s.plnPlace ∧ o ≠ R.PLN_EVENT_INFO s.plnPlace ∧ o ≠ R.PLN_EVENT_ID s.plnPlace := by
    simp only [R.PLN_EVENT, R.PLN_EVENT_INFO, R.PLN_EVENT_ID] at ho ⊢
    omega
  rw [s.plnEvent_eq, State.raise_rd, State.plnLogged, State.incFld, State.rd_setFld_of_ne _ _ _ hhead, State.rd_wr_of_ne _ _ hne.2.2,
    State.rd_wr_of_ne _ _ hne.2.1, State.rd_wr_of_ne _ _ hne.1]

theorem State.plnEvent_regsWf {s : State} (hwf : s.regsWf = true) (kind worker port group opSeq : Nat) (id : Word) :
    (s.plnEvent kind worker port group opSeq id).regsWf = true := by
  rw [s.plnEvent_eq]
  exact State.regsWf_congr (State.raise_regs _ _)
    (State.setFld_regsWf _ _ _ _ (State.wr_regsWf _ _ _ (State.wr_regsWf _ _ _ (State.wr_regsWf _ _ _ hwf))))

/-- The entry of a PLN event. -/
theorem State.plnEvent_entry {s : State} (hwf : s.regsWf = true) (kind worker port group opSeq : Nat) (id : Word) :
    (s.plnEvent kind worker port group opSeq id).rd (R.PLN_EVENT s.plnPlace) = plnEventWord kind worker port group opSeq ∧
      (s.plnEvent kind worker port group opSeq id).rd (R.PLN_EVENT_ID s.plnPlace) = id := by
  have hk := s.plnPlace_lt
  have hne : R.PLN_EVENT s.plnPlace ≠ R.PLN_EVENT_HEAD ∧ R.PLN_EVENT_ID s.plnPlace ≠ R.PLN_EVENT_HEAD ∧
      R.PLN_EVENT s.plnPlace ≠ R.PLN_EVENT_ID s.plnPlace ∧ R.PLN_EVENT s.plnPlace ≠ R.PLN_EVENT_INFO s.plnPlace := by
    simp only [R.PLN_EVENT, R.PLN_EVENT_INFO, R.PLN_EVENT_ID, R.PLN_EVENT_HEAD]
    omega
  obtain ⟨hhead, hidHead, hid, hinfo⟩ := hne
  have hwf' := State.wr_regsWf s (R.PLN_EVENT s.plnPlace) (plnEventWord kind worker port group opSeq) hwf
  constructor
  · rw [s.plnEvent_eq, State.raise_rd, State.plnLogged, State.incFld, State.rd_setFld_of_ne _ _ _ hhead, State.rd_wr_of_ne _ _ hid,
      State.rd_wr_of_ne _ _ hinfo, State.rd_wr_self _ _ _ hwf]
  · rw [s.plnEvent_eq, State.raise_rd, State.plnLogged, State.incFld, State.rd_setFld_of_ne _ _ _ hidHead,
      State.rd_wr_self _ _ _ (State.wr_regsWf _ _ _ hwf')]

theorem State.wr_same (s : State) (off : Nat) (v : Word) : SameButRegs s (s.wr off v) := rfl

theorem State.plnLogged_same (s : State) (word id : Word) : SameButRegs s (s.plnLogged word id) :=
  .trans (.trans (.trans (s.wr_same _ _) (State.wr_same ..)) (State.wr_same ..)) (State.setFld_same ..)

/-- A PLN event raises vector 7 and changes nothing beside its log. -/
theorem State.plnEvent_frame (s : State) (kind worker port group opSeq : Nat) (id : Word) {t : State}
    (ht : t = s.plnEvent kind worker port group opSeq id) :
    t = { s with regs := t.regs, out := { s.out with msix := s.out.msix ++ [7] }, cnt := t.cnt } := by
  have hsame := s.plnLogged_same (plnEventWord kind worker port group opSeq) id
  rw [s.plnEvent_eq] at ht
  generalize s.plnLogged (plnEventWord kind worker port group opSeq) id = u at ht hsame
  rw [ht, hsame]
  rfl

end Sys2Proof.Machine
end

section
/-! PROOF. Fences of the manager (spec/17): a request is answered in PLN_FENCE_RESP, is issued, held or refused; a held one is confirmed
or cancelled; what has no answer is sent again. -/

namespace Sys2Proof.Proofs
open Sys2Proof Sys2Proof.Machine

/-! ## The registers of a request -/

/-- What PLN_FENCE_REQ keeps of a request. -/
def fenceWord (req : Word) : Word :=
  F.PLN_FENCE_REQ_AUTOMATED.put (F.PLN_FENCE_REQ_AUTOMATED.get req) ||| F.PLN_FENCE_REQ_KIND.put (F.PLN_FENCE_REQ_KIND.get req) |||
    F.PLN_FENCE_REQ_UNFENCE.put (b2n (F.PLN_FENCE_REQ_UNFENCE.get req = 1)) ||| F.PLN_FENCE_REQ_PORT.put (F.PLN_FENCE_REQ_PORT.get req) |||
    F.PLN_FENCE_REQ_TAG.put (F.PLN_FENCE_REQ_TAG.get req)

/-- A request has been taken into its registers. -/
def fenceTaken (s : State) (req target : Word) : State := (s.wr R.PLN_FENCE_REQ (fenceWord req)).wr R.PLN_FENCE_TARGET target

theorem fenceWord_go (req : Word) : F.PLN_FENCE_REQ_GO.get (fenceWord req) = 0 := by
  simp (disch := decide) only [fenceWord, Fld.get_or, Fld.get_put_of_disjoint, Nat.or_zero]

theorem fenceTaken_rd {req target : Word} {s : State} {o : Nat} (h : o ≠ R.PLN_FENCE_REQ) (h' : o ≠ R.PLN_FENCE_TARGET) :
    (fenceTaken s req target).rd o = s.rd o := (State.rd_wr_of_ne _ _ h').trans (State.rd_wr_of_ne _ _ h)

theorem fenceTaken_go {s : State} (hwf : s.regsWf = true) (req target : Word) :
    (fenceTaken s req target).flag R.PLN_FENCE_REQ F.PLN_FENCE_REQ_GO = false := by
  have hrd : (fenceTaken s req target).rd R.PLN_FENCE_REQ = fenceWord req :=
    (State.rd_wr_of_ne _ _ (by decide)).trans (s.rd_wr_self _ _ hwf)
  rw [State.flag, State.fld, hrd, fenceWord_go]
  decide

theorem fenceTaken_regsWf {s : State} (hwf : s.regsWf = true) (req target : Word) : (fenceTaken s req target).regsWf = true :=
  State.wr_regsWf _ _ _ (State.wr_regsWf _ _ _ hwf)

theorem fenceTaken_regsBut (s : State) (req target : Word) :
    s.RegsBut (fenceTaken s req target) [R.PLN_FENCE_REQ, R.PLN_FENCE_TARGET, R.PLN_FENCE_RESP] :=
  (State.wr_regsBut (by simp) _).wr (by simp) _

theorem fenceTaken_acting (s : State) (req target : Word) : (fenceTaken s req target).acting = s.acting := by
  have hpln : (fenceTaken s req target).pln = s.pln := by rw [fenceTaken, State.wr_pln, State.wr_pln]
  rw [State.acting, State.role, State.fld_congr (fenceTaken_rd (by decide) (by decide)), hpln, State.acting, State.role]

/-- A request is held under a ticket. -/
def fenceHeld (s : State) (req target : Word) (n : Nat) : State :=
  (s.wr (R.PLN_HELD n) (F.PLN_HELD_VALID.put 1 ||| F.PLN_HELD_KIND.put (F.PLN_FENCE_REQ_KIND.get req) |||
    F.PLN_HELD_PORT.put (F.PLN_FENCE_REQ_PORT.get req) ||| F.PLN_HELD_TAG.put (F.PLN_FENCE_REQ_TAG.get req) |||
    F.PLN_HELD_SECONDS.put s.nowSec)).wr (R.PLN_HELD_ID n) target

theorem held_ne_req (n : Nat) : R.PLN_HELD n ≠ R.PLN_FENCE_REQ ∧ R.PLN_HELD n ≠ R.PLN_FENCE_TARGET := by
  simp only [R.PLN_HELD, R.PLN_FENCE_REQ, R.PLN_FENCE_TARGET]
  omega

/-- A request that the budget does not let through takes a ticket, or is refused for want of one. -/
def fenceHold (s : State) (req target : Word) : Option Nat → State
  | none => s.fenceResp 2 0x13 0 (F.PLN_FENCE_REQ_TAG.get req)
  | some n =>
    ((fenceHeld s req target n).plnEvent 0xD (((fenceHeld s req target n).workerOf target).getD 0x3FF) (F.PLN_FENCE_REQ_PORT.get req) 0 0
      target).fenceResp 1 0 n (F.PLN_FENCE_REQ_TAG.get req)

/-- What is done about a request that has been taken. -/
def fenceAnswer (s : State) (req target : Word) : State :=
  if s.acting = false then s.fenceResp 3 0 0 (F.PLN_FENCE_REQ_TAG.get req)
  else if F.PLN_FENCE_REQ_KIND.get req = 0 ∨ (F.PLN_FENCE_REQ_KIND.get req ≠ 2 ∧ (s.workerOf target).isNone) then
    s.fenceResp 2 0x10 0 (F.PLN_FENCE_REQ_TAG.get req)
  else if F.PLN_FENCE_REQ_UNFENCE.get req = 1 ∨ F.PLN_FENCE_REQ_AUTOMATED.get req = 0 ∨
      s.inWindow.length < s.cfld R.PLN_BUDGET F.PLN_BUDGET_COUNT then
    (s.issueFence (F.PLN_FENCE_REQ_KIND.get req) (F.PLN_FENCE_REQ_PORT.get req) target (F.PLN_FENCE_REQ_UNFENCE.get req = 1)).fenceResp 0 0 0
      (F.PLN_FENCE_REQ_TAG.get req)
  else fenceHold s req target ((List.range 64).find? fun n => !s.flag (R.PLN_HELD n) F.PLN_HELD_VALID)

theorem exec_fenceRequest (req target : Word) (s : State) :
    exec (.fenceRequest req target) s = .next (fenceAnswer (fenceTaken s req target) req target) := by
  change Host.Outcome.next (s.fenceAsk req target) = _
  refine congrArg Host.Outcome.next ?_
  unfold State.fenceAsk
  extract_lets kind port tag unfence t
  have ht : t = fenceTaken s req target := rfl
  clear_value t
  subst ht
  rfl

/-! ## The answer -/

theorem fenceResp_result {s : State} (hwf : s.regsWf = true) (r reason n tag : Nat) :
    (s.fenceResp r reason n tag).fld R.PLN_FENCE_RESP F.PLN_FENCE_RESP_RESULT = r % 4 := by
  rw [State.fld, State.fenceResp, State.rd_wr_self _ _ _ hwf]
  simp (disch := decide) only [Fld.get_or, Fld.get_put_self, Fld.get_put_of_disjoint, Nat.or_zero, Nat.reducePow]

theorem fenceResp_reason {s : State} (hwf : s.regsWf = true) (r reason n tag : Nat) :
    (s.fenceResp r reason n tag).fld R.PLN_FENCE_RESP F.PLN_FENCE_RESP_REASON = reason % 256 := by
  rw [State.fld, State.fenceResp, State.rd_wr_self _ _ _ hwf]
  simp (disch := decide) only [Fld.get_or, Fld.get_put_self, Fld.get_put_of_disjoint, Nat.or_zero, Nat.zero_or, Nat.reducePow]

theorem fenceResp_ticket {s : State} (hwf : s.regsWf = true) (r reason n tag : Nat) :
    (s.fenceResp r reason n tag).fld R.PLN_FENCE_RESP F.PLN_FENCE_RESP_TICKET = n % 64 := by
  rw [State.fld, State.fenceResp, State.rd_wr_self _ _ _ hwf]
  simp (disch := decide) only [Fld.get_or, Fld.get_put_self, Fld.get_put_of_disjoint, Nat.or_zero, Nat.zero_or, Nat.reducePow]

theorem fenceResp_tag {s : State} (hwf : s.regsWf = true) (r reason n : Nat) (req : Word) :
    (s.fenceResp r reason n (F.PLN_FENCE_REQ_TAG.get req)).fld R.PLN_FENCE_RESP F.PLN_FENCE_RESP_TAG = F.PLN_FENCE_REQ_TAG.get req := by
  rw [State.fld, State.fenceResp, State.rd_wr_self _ _ _ hwf]
  simp (disch := decide) only [Fld.get_or, Fld.get_put_self, Fld.get_put_of_disjoint, Nat.or_zero, Nat.zero_or]
  exact Nat.mod_eq_of_lt (Fld.get_lt _ _)

theorem fenceResp_rd (s : State) (r reason n tag : Nat) {o : Nat} (h : o ≠ R.PLN_FENCE_RESP) :
    (s.fenceResp r reason n tag).rd o = s.rd o := State.rd_wr_of_ne _ _ h

theorem fenceResp_pln (s : State) (r reason n tag : Nat) : (s.fenceResp r reason n tag).pln = s.pln := by
  rw [State.fenceResp, State.wr_pln]

theorem fenceResp_out (s : State) (r reason n tag : Nat) : (s.fenceResp r reason n tag).out = s.out := by
  rw [State.fenceResp, State.wr_out]

/-- A request that is refused, or that no manager answers, is answered in PLN_FENCE_RESP alone. -/
theorem fenceResp_of_taken {s : State} (hwf : s.regsWf = true) (req target : Word) (r reason : Nat) {t : State}
    (ht : t = (fenceTaken s req target).fenceResp r reason 0 (F.PLN_FENCE_REQ_TAG.get req)) :
    t.fld R.PLN_FENCE_RESP F.PLN_FENCE_RESP_RESULT = r % 4 ∧ t.fld R.PLN_FENCE_RESP F.PLN_FENCE_RESP_REASON = reason % 256 ∧
      t.fld R.PLN_FENCE_RESP F.PLN_FENCE_RESP_TAG = F.PLN_FENCE_REQ_TAG.get req ∧ t.flag R.PLN_FENCE_REQ F.PLN_FENCE_REQ_GO = false ∧
      s.RegsBut t [R.PLN_FENCE_REQ, R.PLN_FENCE_TARGET, R.PLN_FENCE_RESP] ∧ t = { s with regs := t.regs } := by
  have hwf' := fenceTaken_regsWf hwf req target
  subst ht
  exact ⟨fenceResp_result hwf' .., fenceResp_reason hwf' .., fenceResp_tag hwf' ..,
    (State.flag_congr (fenceResp_rd _ _ _ _ _ (by decide)) _).trans (fenceTaken_go hwf req target),
    (fenceTaken_regsBut s req target).wr (by simp) _,
    SameButRegs.trans (.trans (State.wr_same ..) (State.wr_same ..)) (State.wr_same ..)⟩

/-! ## Issuing a fence -/

/-- The text of a fence. -/
def fenceBody (id : BitVec 16) (kind port : Nat) (target : Word) : Bytes :=
  beBytes 2 id.toNat ++ beBytes 1 kind ++ beBytes 1 0 ++ beBytes 2 port ++ beBytes 2 0 ++ beBytes 8 target.toNat

/-- The fences that are issued of a request. -/
def fencesOf (s : State) (kind port : Nat) (target : Word) (unfence : Bool) : List PendingFence :=
  (s.fenceDests kind target).map fun n => ⟨s.pln.fenceId + 1, n, unfence, fenceBody (s.pln.fenceId + 1) kind port target⟩

/-- A request has been entered among those to be answered. -/
def fenceEntered (s : State) (kind port : Nat) (target : Word) (unfence : Bool) : State :=
  { s with pln := { s.pln with
      fenceId := s.pln.fenceId + 1, fences := s.pln.fences ++ fencesOf s kind port target unfence
      fenceTimes := if unfence then s.inWindow else s.inWindow ++ [s.nowSec] } }

theorem issueFence_eq (s : State) (kind port : Nat) (target : Word) (unfence : Bool) :
    s.issueFence kind port target unfence = (fencesOf s kind port target unfence).foldl
      (fun u x => u.sendBoth x.dest (if unfence then 0xB else 0xA) (fenceBody (s.pln.fenceId + 1) kind port target))
      (fenceEntered s kind port target unfence) := by
  unfold State.issueFence
  extract_lets fid body l t
  rfl

theorem issueFence_mails (s : State) (kind port : Nat) (target : Word) (unfence : Bool) :
    (fenceEntered s kind port target unfence).Mails (s.issueFence kind port target unfence) (2 * (s.fenceDests kind target).length) := by
  have h := State.Mails.foldl (fun u (x : PendingFence) => u.sendBoth_mails x.dest (if unfence then 0xB else 0xA)
    (fenceBody (s.pln.fenceId + 1) kind port target)) (fencesOf s kind port target unfence) (fenceEntered s kind port target unfence)
  rw [issueFence_eq]
  rwa [fencesOf, List.length_map] at h

/-- A fence that is issued leaves on both ports to each of its modules and waits for their answers; no register changes. -/
theorem issueFence_facts (s : State) (kind port : Nat) (target : Word) (unfence : Bool) {t : State}
    (ht : t = s.issueFence kind port target unfence) :
    t.pln.fenceId = s.pln.fenceId + 1 ∧ t.pln.fences = s.pln.fences ++ fencesOf s kind port target unfence ∧
      t.pln.fenceTimes = (if unfence = true then s.inWindow else s.inWindow ++ [s.nowSec]) ∧
      t.out.mgmt.length = s.out.mgmt.length + 2 * (s.fenceDests kind target).length ∧ t.out = { s.out with mgmt := t.out.mgmt } ∧
      t.regs = s.regs := by
  have hm := issueFence_mails s kind port target unfence
  rw [← ht] at hm
  have hf := hm.frame
  refine ⟨?_, ?_, ?_, hm.length, ?_, hm.regs⟩ <;> rw [hf] <;> rfl

/-- What a state that differs in registers alone has in common of a manager's lists, its budget, and its time. -/
theorem manager_of_sameButRegs {s a : State} (h : SameButRegs s a) : a.workerOf = s.workerOf ∧ a.workers = s.workers ∧ a.inWindow = s.inWindow ∧
    a.nowSec = s.nowSec ∧ (∀ o f, a.cfld o f = s.cfld o f) ∧ a.pln = s.pln ∧ a.out = s.out := by
  have hcfg : a.cfg = s.cfg := by rw [h]
  have hpln : a.pln = s.pln := by rw [h]
  have hout : a.out = s.out := by rw [h]
  have htim : a.tim = s.tim := by rw [h]
  have hcom (o : Nat) : a.committed o = s.committed o := by rw [State.committed, hcfg, State.committed]
  have hcfld (o : Nat) (f : Fld) : a.cfld o f = s.cfld o f := by rw [State.cfld, hcom, State.cfld]
  have hnow : a.nowSec = s.nowSec := by rw [State.nowSec, htim, State.nowSec]
  have hid : a.workerId = s.workerId := funext fun n => hcom _
  have hworkers : a.workers = s.workers := by rw [State.workers, hid, State.workers]
  refine ⟨funext fun id => ?_, hworkers, ?_, hnow, hcfld, hpln, hout⟩
  · rw [State.workerOf, hworkers, hid, State.workerOf]
  · simp only [State.inWindow, hpln, hnow, hcfld]

theorem fenceTaken_same (s : State) (req target : Word) : SameButRegs s (fenceTaken s req target) := .trans (State.wr_same ..) (State.wr_same ..)

/-- A request that an acting manager issues. -/
theorem fenceRequest_issued {s : State} (hwf : s.regsWf = true) (hact : s.acting = true) {req target : Word}
    (hkind : ¬(F.PLN_FENCE_REQ_KIND.get req = 0 ∨ (F.PLN_FENCE_REQ_KIND.get req ≠ 2 ∧ (s.workerOf target).isNone)))
    (hnow : F.PLN_FENCE_REQ_UNFENCE.get req = 1 ∨ F.PLN_FENCE_REQ_AUTOMATED.get req = 0 ∨
      s.inWindow.length < s.cfld R.PLN_BUDGET F.PLN_BUDGET_COUNT) :
    Answers (exec (.fenceRequest req target) s) fun t => ∃ a,
      SameButRegs s a ∧ (∀ o, o ≠ R.PLN_FENCE_REQ → o ≠ R.PLN_FENCE_TARGET → a.rd o = s.rd o) ∧
      t.fld R.PLN_FENCE_RESP F.PLN_FENCE_RESP_RESULT = 0 ∧ t.fld R.PLN_FENCE_RESP F.PLN_FENCE_RESP_TAG = F.PLN_FENCE_REQ_TAG.get req ∧
      t.pln.fenceId = s.pln.fenceId + 1 ∧
      t.pln.fences = s.pln.fences ++
        fencesOf a (F.PLN_FENCE_REQ_KIND.get req) (F.PLN_FENCE_REQ_PORT.get req) target (F.PLN_FENCE_REQ_UNFENCE.get req = 1) ∧
      t.pln.fenceTimes = (if F.PLN_FENCE_REQ_UNFENCE.get req = 1 then s.inWindow else s.inWindow ++ [s.nowSec]) ∧
      t.out.mgmt.length = s.out.mgmt.length + 2 * (a.fenceDests (F.PLN_FENCE_REQ_KIND.get req) target).length ∧
      t.out = { s.out with mgmt := t.out.mgmt } ∧ s.RegsBut t [R.PLN_FENCE_REQ, R.PLN_FENCE_TARGET, R.PLN_FENCE_RESP] := by
  rw [exec_fenceRequest]
  have hsame := fenceTaken_same s req target
  have hactA := (fenceTaken_acting s req target).trans hact
  have hrd := fun o (h : o ≠ R.PLN_FENCE_REQ) (h' : o ≠ R.PLN_FENCE_TARGET) => fenceTaken_rd (req := req) (target := target) (s := s) h h'
  have hbut := fenceTaken_regsBut s req target
  have hwfA := fenceTaken_regsWf hwf req target
  generalize fenceTaken s req target = a at hsame hactA hrd hbut hwfA ⊢
  obtain ⟨hworker, -, hwin, hnowS, hcfld, hpln, hout⟩ := manager_of_sameButRegs hsame
  rw [fenceAnswer, if_neg (by rw [hactA]; decide), if_neg (by rw [hworker]; exact hkind), if_pos (by rw [hwin, hcfld]; exact hnow)]
  obtain ⟨hid, hfences, htimes, hlen, hsent, hregs⟩ := issueFence_facts a (F.PLN_FENCE_REQ_KIND.get req) (F.PLN_FENCE_REQ_PORT.get req) target
    (F.PLN_FENCE_REQ_UNFENCE.get req = 1) rfl
  generalize a.issueFence (F.PLN_FENCE_REQ_KIND.get req) (F.PLN_FENCE_REQ_PORT.get req) target (F.PLN_FENCE_REQ_UNFENCE.get req = 1) = v
    at hid hfences htimes hlen hsent hregs ⊢
  have hwfV : v.regsWf = true := State.regsWf_congr hregs hwfA
  rw [hpln] at hid hfences
  rw [hwin, hnowS] at htimes
  rw [hout] at hlen hsent
  have hvpln := fenceResp_pln v 0 0 0 (F.PLN_FENCE_REQ_TAG.get req)
  have hvout := fenceResp_out v 0 0 0 (F.PLN_FENCE_REQ_TAG.get req)
  rw [← hvpln] at hid hfences htimes
  rw [← hvout] at hlen hsent
  refine ⟨_, rfl, a, hsame, hrd, fenceResp_result hwfV .., fenceResp_tag hwfV .., hid, hfences, ?_, hlen, hsent,
    (hbut.trans (.of_regs hregs _)).wr (by simp) _⟩
  refine htimes.trans ?_
  simp only [decide_eq_true_eq]

/-- A request that the budget holds back, with the lowest free ticket or none. -/
theorem fenceRequest_held {s : State} (hact : s.acting = true) {req target : Word} {k : Nat}
    (hkind : F.PLN_FENCE_REQ_KIND.get req = 1) (hworker : s.workerOf target = some k) (hun : F.PLN_FENCE_REQ_UNFENCE.get req = 0)
    (hauto : F.PLN_FENCE_REQ_AUTOMATED.get req = 1) (hfull : s.cfld R.PLN_BUDGET F.PLN_BUDGET_COUNT ≤ s.inWindow.length) {ticket : Option Nat}
    (hticket : ((List.range 64).find? fun n => !s.flag (R.PLN_HELD n) F.PLN_HELD_VALID) = ticket) :
    exec (.fenceRequest req target) s = .next (fenceHold (fenceTaken s req target) req target ticket) := by
  have hsame := fenceTaken_same s req target
  obtain ⟨hworkerA, -, hwin, -, hcfld, -, -⟩ := manager_of_sameButRegs hsame
  have hticketA : ((List.range 64).find? fun n => !(fenceTaken s req target).flag (R.PLN_HELD n) F.PLN_HELD_VALID) = ticket := by
    rw [← hticket]
    refine congrArg (fun p => (List.range 64).find? p) (funext fun n => ?_)
    rw [State.flag_congr (fenceTaken_rd (held_ne_req n).1 (held_ne_req n).2)]
  have hactA := (fenceTaken_acting s req target).trans hact
  rw [exec_fenceRequest]
  generalize fenceTaken s req target = a at hworkerA hwin hcfld hticketA hactA ⊢
  have hnow : ¬(F.PLN_FENCE_REQ_UNFENCE.get req = 1 ∨ F.PLN_FENCE_REQ_AUTOMATED.get req = 0 ∨
      a.inWindow.length < a.cfld R.PLN_BUDGET F.PLN_BUDGET_COUNT) := by
    rw [hun, hauto, hwin, hcfld]
    simpa using hfull
  rw [fenceAnswer, if_neg (by rw [hactA]; decide), if_neg (by rw [hkind, hworkerA, hworker]; simp), if_neg hnow, hticketA]

/-- The word that a held request stands as. -/
def heldWord (s : State) (req : Word) : Word :=
  F.PLN_HELD_VALID.put 1 ||| F.PLN_HELD_KIND.put (F.PLN_FENCE_REQ_KIND.get req) ||| F.PLN_HELD_PORT.put (F.PLN_FENCE_REQ_PORT.get req) |||
    F.PLN_HELD_TAG.put (F.PLN_FENCE_REQ_TAG.get req) ||| F.PLN_HELD_SECONDS.put s.nowSec

theorem heldWord_fields (s : State) (req : Word) : F.PLN_HELD_VALID.get (heldWord s req) = 1 ∧
    F.PLN_HELD_KIND.get (heldWord s req) = F.PLN_FENCE_REQ_KIND.get req ∧ F.PLN_HELD_TAG.get (heldWord s req) = F.PLN_FENCE_REQ_TAG.get req := by
  have hkind : F.PLN_FENCE_REQ_KIND.get req % 4 = F.PLN_FENCE_REQ_KIND.get req := Nat.mod_eq_of_lt (Fld.get_lt _ _)
  have htag : F.PLN_FENCE_REQ_TAG.get req % 65536 = F.PLN_FENCE_REQ_TAG.get req := Nat.mod_eq_of_lt (Fld.get_lt _ _)
  refine ⟨?_, ?_, ?_⟩ <;>
    simp (disch := decide) only [heldWord, Fld.get_or, Fld.get_put_self, Fld.get_put_of_disjoint, Nat.or_zero, Nat.zero_or, hkind, htag,
      Nat.reducePow, Nat.reduceMod]

theorem fenceHeld_eq (s : State) (req target : Word) (n : Nat) :
    fenceHeld s req target n = (s.wr (R.PLN_HELD n) (heldWord s req)).wr (R.PLN_HELD_ID n) target := by
  unfold fenceHeld heldWord
  rfl

theorem fenceHeld_rd_held {s : State} (hwf : s.regsWf = true) (req target : Word) (n : Nat) :
    (fenceHeld s req target n).rd (R.PLN_HELD n) = heldWord s req ∧ (fenceHeld s req target n).rd (R.PLN_HELD_ID n) = target := by
  rw [fenceHeld_eq, State.rd_wr_of_ne _ _ (by simp only [R.PLN_HELD, R.PLN_HELD_ID]; omega), State.rd_wr_self _ _ _ hwf,
    State.rd_wr_self _ _ _ (State.wr_regsWf _ _ _ hwf)]
  exact ⟨rfl, rfl⟩

/-- The modules that the fences of a request are for. -/
theorem fencesOf_dest (s : State) (kind port : Nat) (target : Word) (unfence : Bool) :
    (fencesOf s kind port target unfence).map PendingFence.dest = s.fenceDests kind target := by
  rw [fencesOf, List.map_map]
  exact List.map_id _

theorem fenceDests_worker {s : State} {kind n : Nat} {target : Word} (hkind : kind ≠ 2) (hworker : s.workerOf target = some n) :
    s.fenceDests kind target = [n] := by rw [State.fenceDests, if_neg hkind, hworker]; rfl

/-- The live workers are those of a state that differs in registers before PLN_FENCE_CONFIRM alone. -/
theorem fenceDests_live {s a : State} (hsame : SameButRegs s a) (hrd : ∀ o, o ≠ R.PLN_FENCE_REQ → o ≠ R.PLN_FENCE_TARGET → a.rd o = s.rd o)
    (target : Word) : a.fenceDests 2 target = s.workers.filter fun n => s.workerState n == 1 := by
  obtain ⟨-, hworkers, -⟩ := manager_of_sameButRegs hsame
  have hstate : a.workerState = s.workerState := funext fun n => State.fld_congr
    (hrd _ (by simp only [R.PLN_WORKER_STATE, R.PLN_FENCE_REQ]; omega) (by simp only [R.PLN_WORKER_STATE, R.PLN_FENCE_TARGET]; omega)) _
  rw [State.fenceDests, if_pos rfl, hworkers, hstate]

/-- The request that is held stands under its ticket, and its event is recorded and raised. -/
theorem fenceHold_some {s a : State} (hwf : a.regsWf = true) (req target : Word) {n : Nat} (hn : n < 64)
    (hkind : F.PLN_FENCE_REQ_KIND.get req = 1) (hpln : a.pln = s.pln) (hout : a.out = s.out)
    (hhead : a.rd R.PLN_EVENT_HEAD = s.rd R.PLN_EVENT_HEAD) {t : State} (ht : t = fenceHold a req target (some n)) :
    t.fld R.PLN_FENCE_RESP F.PLN_FENCE_RESP_RESULT = 1 ∧ t.fld R.PLN_FENCE_RESP F.PLN_FENCE_RESP_TICKET = n ∧
      t.flag (R.PLN_HELD n) F.PLN_HELD_VALID = true ∧ t.rd (R.PLN_HELD_ID n) = target ∧ t.fld (R.PLN_HELD n) F.PLN_HELD_KIND = 1 ∧
      t.fld (R.PLN_HELD n) F.PLN_HELD_TAG = F.PLN_FENCE_REQ_TAG.get req ∧ t.pln = s.pln ∧ t.out = { s.out with msix := s.out.msix ++ [7] } ∧
      F.PLN_EVENT_KIND.get (t.rd (R.PLN_EVENT (s.fld R.PLN_EVENT_HEAD F.PLN_EVENT_HEAD_COUNT % 256))) = 0xD := by
  have hplace : R.PLN_HELD n < R.PLN_EVENT_HEAD ∧ R.PLN_HELD_ID n < R.PLN_EVENT_HEAD ∧ R.PLN_HELD n ≠ R.PLN_FENCE_RESP ∧
      R.PLN_HELD_ID n ≠ R.PLN_FENCE_RESP := by
    simp only [R.PLN_HELD, R.PLN_HELD_ID, R.PLN_EVENT_HEAD, R.PLN_FENCE_RESP]
    omega
  have hlog (o : Nat) (ho : o < R.PLN_EVENT_HEAD) : o ≠ R.PLN_EVENT_HEAD ∧ o < R.PLN_EVENT 0 := by
    simp only [R.PLN_EVENT_HEAD, R.PLN_EVENT] at ho ⊢
    omega
  obtain ⟨hvalid, hkindW, htag⟩ := heldWord_fields a req
  obtain ⟨hword, hidW⟩ := fenceHeld_rd_held hwf req target n
  rw [fenceHold] at ht
  have hwfH : (fenceHeld a req target n).regsWf = true := by
    rw [fenceHeld_eq]
    exact State.wr_regsWf _ _ _ (State.wr_regsWf _ _ _ hwf)
  have hplnH : (fenceHeld a req target n).pln = a.pln := by rw [fenceHeld_eq, State.wr_pln, State.wr_pln]
  have houtH : (fenceHeld a req target n).out = a.out := by rw [fenceHeld_eq, State.wr_out, State.wr_out]
  have hplaceH : (fenceHeld a req target n).plnPlace = s.fld R.PLN_EVENT_HEAD F.PLN_EVENT_HEAD_COUNT % 256 := by
    rw [State.plnPlace, State.fld_congr (t := fenceHeld a req target n) (s := s)]
    rw [fenceHeld_eq, State.rd_wr_of_ne _ _ hplace.2.1.ne', State.rd_wr_of_ne _ _ hplace.1.ne', hhead]
  generalize fenceHeld a req target n = h at ht hword hidW hwfH hplnH houtH hplaceH
  have hrd (o : Nat) (ho : o < R.PLN_EVENT_HEAD) := h.plnEvent_rd 0xD ((h.workerOf target).getD 0x3FF) (F.PLN_FENCE_REQ_PORT.get req) 0 0
    target (hlog o ho).1 (.inl (hlog o ho).2)
  have hwfE := State.plnEvent_regsWf hwfH 0xD ((h.workerOf target).getD 0x3FF) (F.PLN_FENCE_REQ_PORT.get req) 0 0 target
  have hentry := (State.plnEvent_entry hwfH 0xD ((h.workerOf target).getD 0x3FF) (F.PLN_FENCE_REQ_PORT.get req) 0 0 target).1
  have hframe := h.plnEvent_frame 0xD ((h.workerOf target).getD 0x3FF) (F.PLN_FENCE_REQ_PORT.get req) 0 0 target rfl
  generalize h.plnEvent 0xD ((h.workerOf target).getD 0x3FF) (F.PLN_FENCE_REQ_PORT.get req) 0 0 target = e at ht hrd hwfE hentry hframe
  have hplnE : e.pln = h.pln := by rw [hframe]
  have houtE : e.out = { h.out with msix := h.out.msix ++ [7] } := by rw [hframe]
  have hheld : t.rd (R.PLN_HELD n) = heldWord a req := by rw [ht, fenceResp_rd _ _ _ _ _ hplace.2.2.1, hrd _ hplace.1, hword]
  have hheldId : t.rd (R.PLN_HELD_ID n) = target := by rw [ht, fenceResp_rd _ _ _ _ _ hplace.2.2.2, hrd _ hplace.2.1, hidW]
  refine ⟨by rw [ht, fenceResp_result hwfE], ?_, ?_, hheldId, ?_, ?_, ?_, ?_, ?_⟩
  · rw [ht, fenceResp_ticket hwfE]
    omega
  · rw [State.flag, State.fld, hheld, hvalid]
    decide
  · rw [State.fld, hheld, hkindW, hkind]
  · rw [State.fld, hheld, htag]
  · rw [ht, fenceResp_pln, hplnE, hplnH, hpln]
  · rw [ht, fenceResp_out, houtE, houtH, hout]
  · rw [← hplaceH, ht, fenceResp_rd _ _ _ _ _ (by simp only [R.PLN_EVENT, R.PLN_FENCE_RESP]; omega), hentry, plnEventWord_kind]

/-! ## Confirming -/

/-- A confirmation has been taken into its register. -/
def confirmTaken (s : State) (cancel : Bool) (n : Nat) : State :=
  s.wr R.PLN_FENCE_CONFIRM (F.PLN_FENCE_CONFIRM_CANCEL.put (b2n cancel) ||| F.PLN_FENCE_CONFIRM_TICKET.put n)

/-- A ticket is free again. -/
def ticketFreed (s : State) (n : Nat) : State := (s.wr (R.PLN_HELD n) 0).wr (R.PLN_HELD_ID n) 0

/-- What is done about a confirmation that has been taken. -/
def fenceDecided (s : State) (cancel : Bool) (n : Nat) : State :=
  if s.acting = false ∨ s.flag (R.PLN_HELD n) F.PLN_HELD_VALID = false then s
  else if cancel then ticketFreed s n
  else (ticketFreed s n).issueFence (F.PLN_HELD_KIND.get (s.rd (R.PLN_HELD n))) (F.PLN_HELD_PORT.get (s.rd (R.PLN_HELD n)))
    (s.rd (R.PLN_HELD_ID n)) false

theorem exec_fenceConfirm (cancel : Bool) (ticket : BitVec 6) (s : State) :
    exec (.fenceConfirm cancel ticket) s = .next (fenceDecided (confirmTaken s cancel ticket.toNat) cancel ticket.toNat) := by
  change Host.Outcome.next (s.fenceDecide cancel ticket.toNat) = _
  refine congrArg Host.Outcome.next ?_
  unfold State.fenceDecide
  extract_lets t
  have ht : t = confirmTaken s cancel ticket.toNat := rfl
  clear_value t
  subst ht
  rfl

theorem confirmTaken_same (s : State) (cancel : Bool) (n : Nat) : SameButRegs s (confirmTaken s cancel n) := State.wr_same ..

theorem confirmTaken_rd (s : State) (cancel : Bool) (n : Nat) {o : Nat} (h : o ≠ R.PLN_FENCE_CONFIRM) :
    (confirmTaken s cancel n).rd o = s.rd o := State.rd_wr_of_ne _ _ h

theorem confirmTaken_go {s : State} (hwf : s.regsWf = true) (cancel : Bool) (n : Nat) :
    (confirmTaken s cancel n).flag R.PLN_FENCE_CONFIRM F.PLN_FENCE_CONFIRM_GO = false := by
  rw [State.flag, State.fld, confirmTaken, State.rd_wr_self _ _ _ hwf]
  simp (disch := decide) only [Fld.get_or, Fld.get_put_of_disjoint, Nat.or_zero]
  decide

theorem confirmTaken_acting (s : State) (cancel : Bool) (n : Nat) : (confirmTaken s cancel n).acting = s.acting := by
  have hpln : (confirmTaken s cancel n).pln = s.pln := by rw [confirmTaken, State.wr_pln]
  rw [State.acting, State.role, State.fld_congr (confirmTaken_rd s cancel n (by decide)), hpln, State.acting, State.role]

theorem held_ne_confirm (n : Nat) : R.PLN_HELD n ≠ R.PLN_FENCE_CONFIRM ∧ R.PLN_HELD_ID n ≠ R.PLN_FENCE_CONFIRM := by
  simp only [R.PLN_HELD, R.PLN_HELD_ID, R.PLN_FENCE_CONFIRM]
  omega

theorem ticketFreed_same (s : State) (n : Nat) : SameButRegs s (ticketFreed s n) := .trans (State.wr_same ..) (State.wr_same ..)

theorem ticketFreed_valid {s : State} (hwf : s.regsWf = true) (n : Nat) : (ticketFreed s n).flag (R.PLN_HELD n) F.PLN_HELD_VALID = false := by
  have hrd : (ticketFreed s n).rd (R.PLN_HELD n) = 0 :=
    (State.rd_wr_of_ne _ _ (by simp only [R.PLN_HELD, R.PLN_HELD_ID]; omega)).trans (State.rd_wr_self _ _ _ hwf)
  rw [State.flag, State.fld, hrd]
  decide

/-- A confirmation of a request that is held, by an acting manager. -/
theorem fenceConfirm_held {s : State} (hact : s.acting = true) {ticket : BitVec 6}
    (hvalid : s.flag (R.PLN_HELD ticket.toNat) F.PLN_HELD_VALID = true) (cancel : Bool) :
    exec (.fenceConfirm cancel ticket) s = .next (if cancel then ticketFreed (confirmTaken s cancel ticket.toNat) ticket.toNat
      else (ticketFreed (confirmTaken s cancel ticket.toNat) ticket.toNat).issueFence
        (F.PLN_HELD_KIND.get (s.rd (R.PLN_HELD ticket.toNat))) (F.PLN_HELD_PORT.get (s.rd (R.PLN_HELD ticket.toNat)))
        (s.rd (R.PLN_HELD_ID ticket.toNat)) false) := by
  obtain ⟨hne, hneId⟩ := held_ne_confirm ticket.toNat
  rw [exec_fenceConfirm, fenceDecided, if_neg (by
    rw [confirmTaken_acting, hact, State.flag_congr (confirmTaken_rd _ _ _ hne), hvalid]
    decide), confirmTaken_rd _ _ _ hne, confirmTaken_rd _ _ _ hneId]

/-- What a freed ticket leaves of the state. -/
theorem ticketFreed_facts {s : State} (hwf : s.regsWf = true) (cancel : Bool) (n : Nat) {t : State}
    (ht : t = ticketFreed (confirmTaken s cancel n) n) : t.flag (R.PLN_HELD n) F.PLN_HELD_VALID = false ∧
      s.RegsBut t [R.PLN_FENCE_CONFIRM, R.PLN_HELD n, R.PLN_HELD_ID n] ∧ SameButRegs s t := by
  subst ht
  exact ⟨ticketFreed_valid (State.wr_regsWf _ _ _ hwf) n, ((State.wr_regsBut (by simp) _).wr (by simp) _).wr (by simp) _,
    .trans (confirmTaken_same ..) (ticketFreed_same ..)⟩

/-! ## Sending again -/

/-- The circuit requests that wait for answers, with those handed over. -/
def circuitsOf (s : State) (handed : List CircuitMsg) : List (Nat × Bytes) :=
  s.pln.circuits ++ handed.map fun x => (x.worker.val, circuitBody x)

theorem exec_fenceResend {s : State} (halive : s.planeAlive = true) (hact : s.acting = true) (handed : List CircuitMsg) :
    exec (.fenceResend handed) s = .next ((circuitsOf s handed).foldl (fun u x => u.sendBoth x.1 8 x.2)
      (s.pln.fences.foldl (fun u x => u.sendBoth x.dest (if x.unfence then 0xB else 0xA) x.body)
        { s with pln := { s.pln with circuits := circuitsOf s handed } })) :=
  if_neg (by rw [halive, hact]; decide)

/-- Settles O58. -/
theorem fences : Obligations.Fences := by
  unfold Obligations.Fences
  refine ⟨fun req target s hwf hact => ?_, fun req target s hwf hact hbad => ?_, fun req target n unfence s hwf hact hkind hworker hun hnow => ?_,
    fun req target s hwf hact hkind hauto hun => ?_, fun req target k n s hwf hact hkind hworker hun hauto hfull hticket => ?_,
    fun req target k s hwf hact hkind hworker hun hauto hfull hticket => ?_, fun cancel ticket s hwf hnone => ?_,
    fun ticket s hwf hact hvalid => ?_, fun ticket n s hwf hact hvalid hkind hworker => ?_, fun handed s hno => ?_,
    fun handed s halive hact => ?_, fun x s halive hact hfences hcircuits => ?_⟩
  · rw [exec_fenceRequest, fenceAnswer, if_pos ((fenceTaken_acting ..).trans hact)]
    obtain ⟨hresult, -, htag, hgo, hbut, hframe⟩ := fenceResp_of_taken hwf req target 3 0 rfl
    exact ⟨_, rfl, hresult, htag, hgo, hbut, hframe⟩
  · obtain ⟨hworkerA, -⟩ := manager_of_sameButRegs (fenceTaken_same s req target)
    rw [exec_fenceRequest, fenceAnswer, if_neg (by rw [fenceTaken_acting, hact]; decide), if_pos (by
      rw [hworkerA]
      exact hbad.imp id fun h => ⟨h.1, by rw [h.2]; rfl⟩)]
    obtain ⟨hresult, hreason, -, hgo, hbut, hframe⟩ := fenceResp_of_taken hwf req target 2 0x10 rfl
    exact ⟨_, rfl, hresult, hreason, hgo, hbut, hframe⟩
  · have hne : F.PLN_FENCE_REQ_KIND.get req ≠ 2 := by omega
    obtain ⟨t, ht, a, hsame, -, hresult, htag, hid, hfences, htimes, hlen, hsent, hbut⟩ := fenceRequest_issued hwf hact (req := req)
      (target := target) (by rw [hworker]; simp; omega) (by simpa [hun] using hnow)
    have hdests : a.fenceDests (F.PLN_FENCE_REQ_KIND.get req) target = [n] :=
      fenceDests_worker hne (by rw [(manager_of_sameButRegs hsame).1, hworker])
    rw [hdests] at hlen
    rw [fencesOf, hdests, ← hun, hsame] at hfences
    refine ⟨t, ht, hresult, htag, hid, hfences, ?_, hlen, hsent, hbut⟩
    rw [htimes, hun]
    simp only [decide_eq_true_eq]
  · obtain ⟨t, ht, a, hsame, hrd, hresult, -, -, hfences, htimes, -⟩ := fenceRequest_issued hwf hact (req := req) (target := target)
      (by rw [hkind]; simp) (.inr (.inl hauto))
    refine ⟨t, ht, hresult, ?_, ?_⟩
    · rw [hfences, List.drop_left, fencesOf_dest, hkind, fenceDests_live hsame hrd]
    · rw [htimes, hun, if_neg (by decide)]
  · rw [fenceRequest_held hact hkind hworker hun hauto hfull hticket]
    obtain ⟨-, -, -, -, -, hpln, hout⟩ := manager_of_sameButRegs (fenceTaken_same s req target)
    exact ⟨_, rfl, fenceHold_some (fenceTaken_regsWf hwf req target) req target (List.mem_range.1 (List.mem_of_find?_eq_some hticket)) hkind
      hpln hout (fenceTaken_rd (by decide) (by decide)) rfl⟩
  · rw [fenceRequest_held hact hkind hworker hun hauto hfull hticket, fenceHold]
    obtain ⟨hresult, hreason, -, -, -, hframe⟩ := fenceResp_of_taken hwf req target 2 0x13 rfl
    obtain ⟨-, -, -, -, -, hpln, hout⟩ := manager_of_sameButRegs hframe
    exact ⟨_, rfl, hresult, hreason, hpln, hout⟩
  · obtain ⟨hne, hneId⟩ := held_ne_confirm ticket.toNat
    rw [exec_fenceConfirm, fenceDecided, if_pos (by rwa [confirmTaken_acting, State.flag_congr (confirmTaken_rd _ _ _ hne)])]
    exact ⟨_, rfl, confirmTaken_go hwf .., State.wr_regsBut (by simp) _, confirmTaken_same ..⟩
  · rw [fenceConfirm_held hact hvalid, if_pos rfl]
    exact ⟨_, rfl, ticketFreed_facts hwf true ticket.toNat rfl⟩
  · rw [fenceConfirm_held hact hvalid, if_neg (by decide)]
    obtain ⟨hfree, hbut, hsame⟩ := ticketFreed_facts hwf false ticket.toNat rfl
    generalize ticketFreed (confirmTaken s false ticket.toNat) ticket.toNat = a at hfree hbut hsame ⊢
    obtain ⟨hworkerA, -, hwin, hnowS, -, hpln, hout⟩ := manager_of_sameButRegs hsame
    obtain ⟨hid, hfences, htimes, hlen, -, hregs⟩ := issueFence_facts a (F.PLN_HELD_KIND.get (s.rd (R.PLN_HELD ticket.toNat)))
      (F.PLN_HELD_PORT.get (s.rd (R.PLN_HELD ticket.toNat))) (s.rd (R.PLN_HELD_ID ticket.toNat)) false rfl
    have hdests := fenceDests_worker (s := a) (kind := F.PLN_HELD_KIND.get (s.rd (R.PLN_HELD ticket.toNat)))
      (by rw [show F.PLN_HELD_KIND.get (s.rd (R.PLN_HELD ticket.toNat)) = 1 from hkind]; decide) (by rw [hworkerA, hworker])
    refine ⟨_, rfl, (State.flag_congr (State.rd_congr hregs _) _).trans hfree, by rw [hid, hpln], ?_, ?_, ?_, hbut.trans (.of_regs hregs _)⟩
    · rw [hfences, hpln, List.drop_left, fencesOf_dest, hdests]
    · rw [htimes, if_neg (by decide), hwin, hnowS]
    · rw [hlen, hdests, hout]
      rfl
  · exact if_pos hno
  · rw [exec_fenceResend halive hact]
    have hfences := State.Mails.foldl (fun u (x : PendingFence) => u.sendBoth_mails x.dest (if x.unfence then 0xB else 0xA) x.body)
      s.pln.fences { s with pln := { s.pln with circuits := circuitsOf s handed } }
    have hall := hfences.trans (State.Mails.foldl (fun u (x : Nat × Bytes) => u.sendBoth_mails x.1 8 x.2) (circuitsOf s handed) _)
    refine ⟨_, rfl, ?_, ?_, ?_⟩
    · rw [hall.frame]
      rfl
    · rw [hall.length, hall.frame, Nat.mul_add]
    · rw [hall.frame]
  · rw [exec_fenceResend halive hact, hfences, circuitsOf, hcircuits]
    have hs : { s with pln := { s.pln with circuits := ([] : List (Nat × Bytes)) } } = s := by rw [← hcircuits]
    simp only [List.map_nil, List.append_nil, List.foldl_nil, List.foldl_cons, hs]
    rfl

end Sys2Proof.Proofs
end

section
/-! PROOF. Heartbeats, losses, terms and promotion, the manager's flip, and the Wellhead's load (spec/17). -/

namespace Sys2Proof.Proofs
open Sys2Proof Sys2Proof.Machine

/-! ## Sending -/

theorem workers_lt {s : State} {n : Nat} (h : n ∈ s.workers) : n < 1023 := by
  rw [State.workers, List.mem_filter, List.mem_range] at h
  exact h.1

theorem idOf_worker (s : State) {n : Nat} (h : n < 1023) : s.idOf n = s.workerId n := if_neg (by omega)

/-- The text of HEARTBEAT to a module. -/
def heartbeatBody (s : State) (n : Nat) : Bytes := beBytes 8 s.stamp.toNat ++ beBytes 2 n ++ beBytes 2 0 ++ beBytes 4 s.epoch

theorem exec_heartbeatSend {s : State} (halive : s.planeAlive = true) (hact : s.acting = true) :
    exec .heartbeatSend s = .next ((s.workers ++ if s.otherMember = 0 then [] else [1023]).foldl
      (fun u n => u.sendBoth n 1 (heartbeatBody u n)) s) := by
  refine (if_neg (by rw [halive, hact]; decide)).trans ?_
  unfold heartbeatBody
  rfl

theorem exec_syncSend {s : State} (halive : s.planeAlive = true) (hact : s.acting = true) (hother : s.otherMember ≠ 0)
    (hheld : s.heldList = []) :
    exec .syncSend s = .next (s.sendBoth 1023 0xE (beBytes 1 (s.inWindow.reverse.take (s.cfld R.PLN_BUDGET F.PLN_BUDGET_COUNT)).length ++
      beBytes 1 0 ++ beBytes 2 0 ++ (s.inWindow.reverse.take (s.cfld R.PLN_BUDGET F.PLN_BUDGET_COUNT)).flatMap fun t => beBytes 4 t)) := by
  refine (if_neg (by rw [halive, hact, or_iff_right (by decide), or_iff_right (by decide)]; exact hother)).trans ?_
  rw [hheld, List.flatMap_nil, List.append_nil, List.length_nil]

/-! ## Losses -/

theorem planeFree_holds (s : State) : s.planeFree.planeHolds = false := rfl

/-- A flip that is prepared and not committed is discarded. -/
def flipFreed (s : State) : State := if s.planeHolds then s.planeFree else s

theorem flipFreed_holds (s : State) : (flipFreed s).planeHolds = false := by
  unfold flipFreed
  split
  · exact planeFree_holds s
  · next h => exact Bool.eq_false_iff.2 h

theorem flipFreed_rd (s : State) {o : Nat} (h : o ≠ R.PLN_STATUS) : (flipFreed s).rd o = s.rd o := by
  unfold flipFreed State.planeFree
  split
  · exact State.rd_setFld_of_ne _ _ _ h
  · rfl

theorem flipFreed_fld {s : State} (hwf : s.regsWf = true) {f : Fld} (hd : f.lo + f.w ≤ 59 ∨ 60 ≤ f.lo) (hf : f.lo + f.w ≤ 64) :
    (flipFreed s).fld R.PLN_STATUS f = s.fld R.PLN_STATUS f := by
  unfold flipFreed State.planeFree
  split
  · exact State.fld_setFld_of_disjoint { s with pln := { s.pln with prepared := none } } _ _ f 0 hwf (by simp only; omega) hf
  · rfl

theorem flipFreed_frame (s : State) : flipFreed s = { s with
    regs := (flipFreed s).regs, pln := { s.pln with prepared := (flipFreed s).pln.prepared } } := by
  unfold flipFreed State.planeFree
  split
  · rfl
  · rfl

theorem flipFreed_regsWf {s : State} (hwf : s.regsWf = true) : (flipFreed s).regsWf = true := by
  unfold flipFreed State.planeFree
  split
  · exact State.setFld_regsWf _ _ _ _ hwf
  · exact hwf

/-- Registers beside the log of PLN events. -/
def BesidePlnLog (o : Nat) : Prop := o ≠ R.PLN_EVENT_HEAD ∧ (o < R.PLN_EVENT 0 ∨ R.PLN_EVENT 256 ≤ o)

/-- What a step that ends with a PLN event shows of it, and what it keeps. -/
theorem plnEvent_facts {s u t : State} {kind worker port group opSeq : Nat} {id : Word} (hwf : u.regsWf = true)
    (hhead : u.rd R.PLN_EVENT_HEAD = s.rd R.PLN_EVENT_HEAD) (ht : t = u.plnEvent kind worker port group opSeq id) :
    t.rd (R.PLN_EVENT (s.fld R.PLN_EVENT_HEAD F.PLN_EVENT_HEAD_COUNT % 256)) = plnEventWord kind worker port group opSeq ∧
      t.rd (R.PLN_EVENT_ID (s.fld R.PLN_EVENT_HEAD F.PLN_EVENT_HEAD_COUNT % 256)) = id ∧
      (∀ o, BesidePlnLog o → t.rd o = u.rd o) ∧ t = { u with regs := t.regs, out := { u.out with msix := u.out.msix ++ [7] }, cnt := t.cnt } := by
  have hplace : u.plnPlace = s.fld R.PLN_EVENT_HEAD F.PLN_EVENT_HEAD_COUNT % 256 := by rw [State.plnPlace, State.fld_congr hhead]
  obtain ⟨hword, hid⟩ := State.plnEvent_entry hwf kind worker port group opSeq id
  rw [← ht, hplace] at hword hid
  refine ⟨hword, hid, fun o ho => ?_, u.plnEvent_frame kind worker port group opSeq id ht⟩
  rw [ht, u.plnEvent_rd _ _ _ _ _ _ ho.1 ho.2]

theorem exec_managerSilenceTimeout {s u : State} (halive : s.planeAlive = true) (hfollows : s.follows = true) (hlost : s.pln.managerLost = false)
    (h0 : s.silent 1023 0 = true) (h1 : s.silent 1023 1 = true) (hu : flipFreed (s.setFld R.PLN_STATUS F.PLN_STATUS_MANAGER_PRESENT 0) = u) :
    exec .managerSilenceTimeout s =
      .next ({ u with pln := { u.pln with managerLost := true } }.plnEvent 1 0x3FF 0 0 0 u.actingManager) := by
  rw [← hu]
  exact if_neg (by rw [halive, hfollows, hlost, h0, h1]; decide)

theorem actingManager_congr {s u : State} (hacting : u.fld R.PLN_STATUS F.PLN_STATUS_ACTING = s.fld R.PLN_STATUS F.PLN_STATUS_ACTING)
    (hcfg : u.cfg = s.cfg) : u.actingManager = s.actingManager := by
  rw [State.actingManager, State.actingManager, State.flag, State.flag, hacting, State.committed, State.committed, State.committed,
    State.committed, hcfg]

theorem managerSilence_effect {s : State} (hwf : s.regsWf = true) (halive : s.planeAlive = true) (hfollows : s.follows = true)
    (hlost : s.pln.managerLost = false) (h0 : s.silent 1023 0 = true) (h1 : s.silent 1023 1 = true) :
    Answers (exec .managerSilenceTimeout s) fun t =>
      t.flag R.PLN_STATUS F.PLN_STATUS_MANAGER_PRESENT = false ∧ t.pln.managerLost = true ∧ t.planeHolds = false ∧
      F.PLN_EVENT_KIND.get (t.rd (R.PLN_EVENT (s.fld R.PLN_EVENT_HEAD F.PLN_EVENT_HEAD_COUNT % 256))) = 1 ∧
      t.rd (R.PLN_EVENT_ID (s.fld R.PLN_EVENT_HEAD F.PLN_EVENT_HEAD_COUNT % 256)) = s.actingManager ∧
      (s.planeHolds = false → t.pln.prepared = s.pln.prepared) ∧ t.out = { s.out with msix := s.out.msix ++ [7] } ∧
      t = { s with regs := t.regs, pln := { s.pln with managerLost := true, prepared := t.pln.prepared }, out := t.out, cnt := t.cnt } := by
  obtain ⟨v, hv⟩ : ∃ v, v = s.setFld R.PLN_STATUS F.PLN_STATUS_MANAGER_PRESENT 0 := ⟨_, rfl⟩
  obtain ⟨u, hu⟩ : ∃ u, u = flipFreed v := ⟨_, rfl⟩
  have hfreed : flipFreed (s.setFld R.PLN_STATUS F.PLN_STATUS_MANAGER_PRESENT 0) = u := by rw [hu, hv]
  rw [exec_managerSilenceTimeout halive hfollows hlost h0 h1 hfreed]
  have hwfV : v.regsWf = true := by rw [hv]; exact State.setFld_regsWf _ _ _ _ hwf
  have hwfU : u.regsWf = true := by rw [hu]; exact flipFreed_regsWf hwfV
  have hfldU {f : Fld} (hd : f.lo + f.w ≤ 59 ∨ 60 ≤ f.lo) (hf : f.lo + f.w ≤ 64) : u.fld R.PLN_STATUS f = v.fld R.PLN_STATUS f := by
    rw [hu, flipFreed_fld hwfV hd hf]
  have hpresent : u.flag R.PLN_STATUS F.PLN_STATUS_MANAGER_PRESENT = false := by
    rw [State.flag, hfldU (by decide) (by decide), hv, State.fld_setFld_self _ _ _ _ hwf (by decide)]
    rfl
  have hacting : u.fld R.PLN_STATUS F.PLN_STATUS_ACTING = s.fld R.PLN_STATUS F.PLN_STATUS_ACTING := by
    rw [hfldU (by decide) (by decide), hv, State.fld_setFld_of_disjoint _ _ _ _ _ hwf (by decide) (by decide)]
  have hhead : u.rd R.PLN_EVENT_HEAD = s.rd R.PLN_EVENT_HEAD := by
    rw [hu, flipFreed_rd _ (by decide), hv, State.rd_setFld_of_ne _ _ _ (by decide)]
  have hsame : SameButRegs s v := by rw [hv]; exact State.setFld_same ..
  have hframeU : u = { s with regs := u.regs, pln := { s.pln with prepared := u.pln.prepared } } := by
    rw [hu, flipFreed_frame, hsame]
  have hholds : u.planeHolds = false := by rw [hu, flipFreed_holds]
  have hkept (h : s.planeHolds = false) : u.pln.prepared = s.pln.prepared := by
    have hholdsV : v.planeHolds = false := by rw [State.planeHolds, hsame]; exact h
    rw [hu, flipFreed, hholdsV, if_neg (by decide), hsame]
  have hcfg : u.cfg = s.cfg := by rw [hframeU]
  rw [actingManager_congr hacting hcfg]
  clear hfreed hu hv hfldU hacting hcfg
  obtain ⟨hword, hid, hrd, hframe⟩ := plnEvent_facts (s := s) (u := { u with pln := { u.pln with managerLost := true } }) (kind := 1)
    (worker := 0x3FF) (port := 0) (group := 0) (opSeq := 0) (id := s.actingManager) hwfU hhead rfl
  generalize State.plnEvent { u with pln := { u.pln with managerLost := true } } 1 0x3FF 0 0 0 s.actingManager = t at hword hid hrd hframe ⊢
  refine ⟨t, rfl, ?_, ?_, ?_, ?_, hid, fun h => ?_, ?_, ?_⟩
  · exact (State.flag_congr (hrd R.PLN_STATUS ⟨by decide, by decide⟩) _).trans hpresent
  · rw [hframe]
  · rw [hframe]
    exact hholds
  · rw [hword, plnEventWord_kind]
  · rw [hframe]
    exact hkept h
  · rw [hframe, hframeU]
  · rw [hframe, hframeU]

theorem put_zero (f : Fld) : f.put 0 = 0 := by simp [Fld.put]

theorem plnEventWord_port (kind worker port : Nat) :
    plnEventWord kind worker port 0 0 = F.PLN_EVENT_KIND.put kind ||| F.PLN_EVENT_WORKER.put worker ||| F.PLN_EVENT_PORT.put port := by
  rw [plnEventWord, put_zero, put_zero]
  simp

theorem besidePlnLog_worker (n : Nat) : BesidePlnLog (R.PLN_WORKER_STATE n) := by
  simp only [BesidePlnLog, R.PLN_WORKER_STATE, R.PLN_EVENT_HEAD, R.PLN_EVENT]
  omega

theorem workerSilence_effect {n : Fin 1023} {s : State} (hwf : s.regsWf = true) (halive : s.planeAlive = true) (hact : s.acting = true)
    (hid : s.workerId n ≠ 0) (hstate : s.workerState n ≠ 2) (h0 : s.silent n 0 = true) (h1 : s.silent n 1 = true) :
    Answers (exec (.workerSilenceTimeout n) s) fun t =>
      t.workerState n = 2 ∧ t.fld (R.PLN_WORKER_STATE n) F.PLN_WORKER_STATE_PATHS = 0 ∧
      t.rd (R.PLN_EVENT (s.fld R.PLN_EVENT_HEAD F.PLN_EVENT_HEAD_COUNT % 256)) = F.PLN_EVENT_KIND.put 3 ||| F.PLN_EVENT_WORKER.put n ∧
      t.rd (R.PLN_EVENT_ID (s.fld R.PLN_EVENT_HEAD F.PLN_EVENT_HEAD_COUNT % 256)) = s.workerId n ∧
      t.out = { s.out with msix := s.out.msix ++ [7] } ∧ t = { s with regs := t.regs, out := t.out, cnt := t.cnt } := by
  obtain ⟨u, hu⟩ : ∃ u, u = (s.setWorker n 2).setFld (R.PLN_WORKER_STATE n) F.PLN_WORKER_STATE_PATHS 0 := ⟨_, rfl⟩
  have hexec : exec (.workerSilenceTimeout n) s = .next (u.plnEvent 3 n 0 0 0 (s.workerId n)) := by
    rw [hu]
    exact if_neg (by rw [halive, hact, h0, h1]; simpa using ⟨hid, hstate⟩)
  have hwfW : (s.setWorker n 2).regsWf = true := State.setFld_regsWf _ _ _ _ hwf
  have hwfU : u.regsWf = true := by rw [hu]; exact State.setFld_regsWf _ _ _ _ hwfW
  have hsame : SameButRegs s u := by rw [hu]; exact .trans (State.setFld_same ..) (State.setFld_same ..)
  have hstateU : u.workerState n = 2 := by
    rw [hu, State.workerState, State.fld_setFld_of_disjoint _ _ _ _ _ hwfW (by decide) (by decide), State.setWorker,
      State.fld_setFld_self _ _ _ _ hwf (by decide)]
    rfl
  have hpaths : u.fld (R.PLN_WORKER_STATE n) F.PLN_WORKER_STATE_PATHS = 0 := by
    rw [hu, State.fld_setFld_self _ _ _ _ hwfW (by decide)]
    rfl
  have hhead : u.rd R.PLN_EVENT_HEAD = s.rd R.PLN_EVENT_HEAD := by
    have hne : R.PLN_EVENT_HEAD ≠ R.PLN_WORKER_STATE n := by simp only [R.PLN_EVENT_HEAD, R.PLN_WORKER_STATE]; omega
    rw [hu, State.rd_setFld_of_ne _ _ _ hne, State.setWorker, State.rd_setFld_of_ne _ _ _ hne]
  rw [hexec]
  obtain ⟨hword, hidT, hrd, hframe⟩ := plnEvent_facts (s := s) (u := u) (kind := 3) (worker := n) (port := 0) (group := 0) (opSeq := 0)
    (id := s.workerId n) hwfU hhead rfl
  generalize u.plnEvent 3 n 0 0 0 (s.workerId n) = t at hword hidT hrd hframe ⊢
  have hkept := hrd _ (besidePlnLog_worker n)
  refine ⟨t, rfl, (State.fld_congr hkept _).trans hstateU, (State.fld_congr hkept _).trans hpaths, ?_, hidT, ?_, ?_⟩
  · rw [hword, plnEventWord_port, put_zero]
    simp
  · rw [hframe, hsame]
  · rw [hframe, hsame]

theorem silent_of_lately {s : State} {n port : Nat} (h : s.silent n port = true) : s.heardLately n port = false := by
  rw [State.silent, Bool.and_eq_true] at h
  simpa using h.2

/-- A path is recorded as lost. -/
def pathLost (s : State) (n port : Nat) : State := { s with pln := { s.pln with lostPaths := s.pln.lostPaths ++ [heardKey n port] } }

/-- What the loss of a path records. -/
theorem pathLost_event {s t : State} (hwf : s.regsWf = true) (n port : Nat) (id : Word) (ht : t = (pathLost s n port).plnEvent 5 n port 0 0 id) :
    t.rd (R.PLN_EVENT (s.fld R.PLN_EVENT_HEAD F.PLN_EVENT_HEAD_COUNT % 256)) =
        F.PLN_EVENT_KIND.put 5 ||| F.PLN_EVENT_WORKER.put n ||| F.PLN_EVENT_PORT.put port ∧
      (∀ o, BesidePlnLog o → t.rd o = s.rd o) ∧ t.regsWf = true ∧ t.pln = { s.pln with lostPaths := s.pln.lostPaths ++ [heardKey n port] } ∧
      t.out = { s.out with msix := s.out.msix ++ [7] } ∧
      t = { s with regs := t.regs, pln := t.pln, out := t.out, cnt := t.cnt } := by
  have hregs : (pathLost s n port).regs = s.regs := rfl
  have hpln : (pathLost s n port).pln = { s.pln with lostPaths := s.pln.lostPaths ++ [heardKey n port] } := rfl
  have hframeL : pathLost s n port = { s with pln := (pathLost s n port).pln } := rfl
  generalize pathLost s n port = u at ht hregs hpln hframeL
  have hwfU : u.regsWf = true := State.regsWf_congr hregs hwf
  obtain ⟨hword, -, hrd, hframe⟩ := plnEvent_facts hwfU (State.rd_congr hregs _) ht
  have hplnT : t.pln = u.pln := by rw [hframe]
  have houtU : u.out = s.out := by rw [hframeL]
  refine ⟨hword.trans (plnEventWord_port ..), fun o ho => (hrd o ho).trans (State.rd_congr hregs _), ?_, hplnT.trans hpln, ?_, ?_⟩
  · rw [ht]
    exact State.plnEvent_regsWf hwfU ..
  · rw [hframe, houtU]
  · rw [hplnT, hframe, hframeL]

theorem exec_pathSilence_manager {port : Fin 2} {s : State} (halive : s.planeAlive = true) (hfollows : s.follows = true)
    (hsilent : s.silent 1023 port = true) (hother : s.silent 1023 (1 - port.val) = false)
    (hnew : s.pln.lostPaths.contains (heardKey 1023 port) = false) :
    exec (.pathSilenceTimeout port 1023) s = .next ((pathLost s 1023 port).plnEvent 5 1023 port 0 0 s.actingManager) := by
  have hno : ¬(s.planeAlive = false ∨ (if s.follows then (1023 : Nat) == 1023 else s.acting && s.idOf 1023 != 0) = false ∨
      s.silent 1023 port = false ∨ s.silent 1023 (1 - port.val) = true ∨ s.pln.lostPaths.contains (heardKey 1023 port) = true) := by
    rw [halive, hfollows, hsilent, hother, hnew]
    simp
  refine (if_neg hno).trans ?_
  rw [hfollows]
  rfl

theorem pathSilence_manager {port : Fin 2} {s : State} (hwf : s.regsWf = true) (halive : s.planeAlive = true) (hfollows : s.follows = true)
    (hsilent : s.silent 1023 port = true) (hother : s.silent 1023 (1 - port.val) = false)
    (hnew : s.pln.lostPaths.contains (heardKey 1023 port) = false) :
    Answers (exec (.pathSilenceTimeout port 1023) s) fun t =>
      t.pln.lostPaths = s.pln.lostPaths ++ [heardKey 1023 port] ∧
      t.rd (R.PLN_EVENT (s.fld R.PLN_EVENT_HEAD F.PLN_EVENT_HEAD_COUNT % 256)) =
        F.PLN_EVENT_KIND.put 5 ||| F.PLN_EVENT_WORKER.put 1023 ||| F.PLN_EVENT_PORT.put port ∧
      t.out = { s.out with msix := s.out.msix ++ [7] } ∧
      t = { s with regs := t.regs, pln := { s.pln with lostPaths := t.pln.lostPaths }, out := t.out, cnt := t.cnt } := by
  rw [exec_pathSilence_manager halive hfollows hsilent hother hnew]
  obtain ⟨hword, -, -, hpln, hout, hframe⟩ := pathLost_event hwf 1023 port s.actingManager rfl
  generalize (pathLost s 1023 port).plnEvent 5 1023 port 0 0 s.actingManager = t at hword hpln hout hframe ⊢
  have hlost : t.pln.lostPaths = s.pln.lostPaths ++ [heardKey 1023 port] := by rw [hpln]
  refine ⟨t, rfl, hlost, hword, hout, ?_⟩
  rw [hlost, ← hpln]
  exact hframe

theorem heardLately_congr {s t : State} (hpln : t.pln.heard = s.pln.heard) (hmono : t.mono = s.mono) (n port : Nat) :
    t.heardLately n port = s.heardLately n port := by
  rw [State.heardLately, State.heardAt, hpln, hmono, State.heardLately, State.heardAt]

theorem follows_of_acting {s : State} (hact : s.acting = true) : s.follows = false := by
  rw [State.acting, Bool.and_eq_true, beq_iff_eq] at hact
  rw [State.follows, hact.1]
  decide

theorem exec_pathSilence_worker {port : Fin 2} {n : BitVec 10} {s e : State} (halive : s.planeAlive = true) (hact : s.acting = true)
    (hid : s.idOf n.toNat ≠ 0) (hn : n ≠ 1023) (hsilent : s.silent n.toNat port = true) (hother : s.silent n.toNat (1 - port.val) = false)
    (hnew : s.pln.lostPaths.contains (heardKey n.toNat port) = false)
    (he : e = (pathLost s n.toNat port).plnEvent 5 n.toNat port 0 0 (s.idOf n.toNat)) :
    exec (.pathSilenceTimeout port n) s = .next (e.setFld (R.PLN_WORKER_STATE n.toNat) F.PLN_WORKER_STATE_PATHS
      (b2n (e.heardLately n.toNat 0) + 2 * b2n (e.heardLately n.toNat 1))) := by
  have hnat : n.toNat ≠ 1023 := fun h => hn (BitVec.eq_of_toNat_eq h)
  have hno : ¬(s.planeAlive = false ∨ (if s.follows then n.toNat == 1023 else s.acting && s.idOf n.toNat != 0) = false ∨
      s.silent n.toNat port = false ∨ s.silent n.toNat (1 - port.val) = true ∨ s.pln.lostPaths.contains (heardKey n.toNat port) = true) := by
    rw [halive, follows_of_acting hact, hsilent, hother, hnew, hact]
    simpa using hid
  refine (if_neg hno).trans ?_
  rw [he, follows_of_acting hact, if_neg hnat]
  rfl

/-- Where one port is silent and the other is not, PATHS names the other. -/
theorem paths_of_silent {s : State} {n : Nat} {port : Fin 2} (hsilent : s.silent n port = true)
    (hlately : s.heardLately n (1 - port.val) = true) : b2n (s.heardLately n 0) + 2 * b2n (s.heardLately n 1) = 2 - port.val := by
  have hmine := silent_of_lately hsilent
  obtain hp | hp : port.val = 0 ∨ port.val = 1 := by omega
  · rw [hp] at hmine hlately ⊢
    rw [hmine, show s.heardLately n 1 = true from hlately]
    rfl
  · rw [hp] at hmine hlately ⊢
    rw [hmine, show s.heardLately n 0 = true from hlately]
    rfl

theorem pathSilence_worker {port : Fin 2} {n : BitVec 10} {s : State} (hwf : s.regsWf = true) (halive : s.planeAlive = true)
    (hact : s.acting = true) (hid : s.idOf n.toNat ≠ 0) (hn : n ≠ 1023) (hsilent : s.silent n.toNat port = true)
    (hother : s.silent n.toNat (1 - port.val) = false) (hnew : s.pln.lostPaths.contains (heardKey n.toNat port) = false)
    (hlately : s.heardLately n.toNat (1 - port.val) = true) : Answers (exec (.pathSilenceTimeout port n) s) fun t =>
      t.pln.lostPaths = s.pln.lostPaths ++ [heardKey n.toNat port] ∧
      t.fld (R.PLN_WORKER_STATE n.toNat) F.PLN_WORKER_STATE_PATHS = 2 - port.val ∧ t.workerState n.toNat = s.workerState n.toNat ∧
      t.rd (R.PLN_EVENT (s.fld R.PLN_EVENT_HEAD F.PLN_EVENT_HEAD_COUNT % 256)) =
        F.PLN_EVENT_KIND.put 5 ||| F.PLN_EVENT_WORKER.put n.toNat ||| F.PLN_EVENT_PORT.put port ∧
      t.out = { s.out with msix := s.out.msix ++ [7] } := by
  rw [exec_pathSilence_worker halive hact hid hn hsilent hother hnew rfl]
  obtain ⟨hword, hrd, hwfE, hpln, hout, hframe⟩ := pathLost_event hwf n.toNat port (s.idOf n.toNat) rfl
  generalize (pathLost s n.toNat port).plnEvent 5 n.toNat port 0 0 (s.idOf n.toNat) = e at hword hrd hwfE hpln hout hframe ⊢
  have htim : e.tim = s.tim := by rw [hframe]
  have hheard (p : Nat) : e.heardLately n.toNat p = s.heardLately n.toNat p :=
    heardLately_congr (by rw [hpln]) (by rw [State.mono, htim, State.mono]) _ _
  rw [hheard, hheard, paths_of_silent hsilent hlately]
  refine ⟨_, rfl, ?_, ?_, ?_, ?_, ?_⟩
  · rw [State.setFld_pln, hpln]
  · rw [State.fld_setFld_self _ _ _ _ hwfE (by decide)]
    exact Nat.mod_eq_of_lt (by simp only; omega)
  · rw [State.workerState, State.fld_setFld_of_disjoint _ _ _ _ _ hwfE (by decide) (by decide)]
    exact State.fld_congr (hrd _ (besidePlnLog_worker _)) _
  · rw [State.rd_setFld_of_ne _ _ _ (by simp only [R.PLN_EVENT, R.PLN_WORKER_STATE]; omega), hword]
  · rw [State.setFld_out, hout]

/-! ## Terms and promotion -/

theorem setTerm_of_ne {s : State} {n : Nat} (h : s.fld R.PLN_STATUS F.PLN_STATUS_TERM ≠ n) :
    s.setTerm n = { s.setFld R.PLN_STATUS F.PLN_STATUS_TERM n with
      ldg := { s.ldg with term := BitVec.ofNat 32 n, controlSeq := s.ldg.controlSeq + 1 } } := if_neg h

/-- A manager that begins to act takes the next TERM and listens no more. -/
theorem beginActing_facts {s t : State} (hwf : s.regsWf = true) (ht : t = s.beginActing) :
    t.fld R.PLN_STATUS F.PLN_STATUS_TERM = (s.fld R.PLN_STATUS F.PLN_STATUS_TERM + 1) % 2 ^ 32 ∧
      (∀ f : Fld, 32 ≤ f.lo → f.lo + f.w ≤ 64 → t.fld R.PLN_STATUS f = s.fld R.PLN_STATUS f) ∧ s.RegsBut t [R.PLN_STATUS] ∧
      t.ldg = { s.ldg with term := BitVec.ofNat 32 (s.fld R.PLN_STATUS F.PLN_STATUS_TERM + 1), controlSeq := s.ldg.controlSeq + 1 } ∧
      t = { s with regs := t.regs, ldg := t.ldg, pln := { s.pln with listening := false, heardManager := false, since := s.mono } } := by
  have hlt : s.fld R.PLN_STATUS F.PLN_STATUS_TERM < 2 ^ 32 := Fld.get_lt _ _
  have hterm : BitVec.ofNat 32 ((s.fld R.PLN_STATUS F.PLN_STATUS_TERM + 1) % 2 ^ 32) =
      BitVec.ofNat 32 (s.fld R.PLN_STATUS F.PLN_STATUS_TERM + 1) := BitVec.eq_of_toNat_eq (by simp)
  have hne : s.fld R.PLN_STATUS F.PLN_STATUS_TERM ≠ (s.fld R.PLN_STATUS F.PLN_STATUS_TERM + 1) % 2 ^ 32 := by omega
  have heq : s.beginActing = { s.setFld R.PLN_STATUS F.PLN_STATUS_TERM ((s.fld R.PLN_STATUS F.PLN_STATUS_TERM + 1) % 2 ^ 32) with
      ldg := { s.ldg with
        term := BitVec.ofNat 32 ((s.fld R.PLN_STATUS F.PLN_STATUS_TERM + 1) % 2 ^ 32), controlSeq := s.ldg.controlSeq + 1 }
      pln := { s.pln with listening := false, heardManager := false, since := s.mono } } := by
    unfold State.beginActing
    exact setTerm_of_ne hne
  rw [heq, hterm] at ht
  generalize hv : (s.fld R.PLN_STATUS F.PLN_STATUS_TERM + 1) % 2 ^ 32 = v at ht
  have hvlt : v < 2 ^ 32 := by omega
  subst ht
  refine ⟨?_, fun f hf hf' => ?_, ?_, rfl, rfl⟩
  · exact (s.fld_setFld_self R.PLN_STATUS F.PLN_STATUS_TERM v hwf (by decide)).trans (Nat.mod_eq_of_lt hvlt)
  · exact s.fld_setFld_of_disjoint R.PLN_STATUS F.PLN_STATUS_TERM f v hwf (.inr hf) hf'
  · exact State.setFld_regsBut (s := s) (by simp) F.PLN_STATUS_TERM v

theorem listenEnd_alone {s : State} (hwf : s.regsWf = true) (hlisten : s.pln.listening = true) (hrole : s.role = 2)
    (hnone : s.pln.heardManager = false) : Answers (exec .listenPeriodEnd s) fun t => t.acting = true ∧
      t.fld R.PLN_STATUS F.PLN_STATUS_TERM = (s.fld R.PLN_STATUS F.PLN_STATUS_TERM + 1) % 2 ^ 32 ∧
      t.ldg = { s.ldg with term := BitVec.ofNat 32 (s.fld R.PLN_STATUS F.PLN_STATUS_TERM + 1), controlSeq := s.ldg.controlSeq + 1 } ∧
      s.RegsBut t [R.PLN_STATUS] ∧
      t = { s with regs := t.regs, ldg := t.ldg, pln := { s.pln with listening := false, since := s.mono } } := by
  have hexec : exec .listenPeriodEnd s = .next s.beginActing := by
    change Host.Outcome.next (if s.pln.listening = false ∨ s.role ≠ 2 then s else if s.pln.heardManager then s.demote else s.beginActing) = _
    rw [if_neg (by rw [hlisten, hrole]; decide), hnone, if_neg (by decide)]
  rw [hexec]
  obtain ⟨hterm, hothers, hbut, hldg, hframe⟩ := beginActing_facts hwf rfl
  generalize s.beginActing = t at hterm hothers hbut hldg hframe ⊢
  have hpln : t.pln = { s.pln with listening := false, since := s.mono } := by
    rw [hframe]
    simp only [← hnone]
  refine ⟨t, rfl, ?_, hterm, hldg, hbut, ?_⟩
  · rw [State.acting, State.role, hothers _ (by decide) (by decide), show s.fld R.PLN_STATUS F.PLN_STATUS_ROLE = 2 from hrole, hpln]
    rfl
  · rw [← hpln]
    rw [hframe]

/-- The role is standby, with nothing sent and nothing listened for. -/
def demoted (s : State) : State :=
  { s.setFld R.PLN_STATUS F.PLN_STATUS_ROLE 3 with
    pln := { s.pln with
      flip := none, fences := [], circuits := [], listening := false, heardManager := false, since := s.mono, managerLost := false } }

theorem demote_eq (s : State) : s.demote = (((flipFreed (demoted s)).setFld R.PLN_FLIP F.PLN_FLIP_GO 0).setFld R.PLN_FLIP_STATUS
    F.PLN_FLIP_STATUS_STATE 0).plnEvent 7 0x3FF 0 0 0 0 := by
  unfold State.demote flipFreed demoted
  rfl

theorem demoted_regsWf {s : State} (hwf : s.regsWf = true) : (demoted s).regsWf = true := State.setFld_regsWf s _ _ _ hwf

theorem demoted_role {s : State} (hwf : s.regsWf = true) : (demoted s).fld R.PLN_STATUS F.PLN_STATUS_ROLE = 3 :=
  s.fld_setFld_self _ _ _ hwf (by decide)

theorem demoted_term {s : State} (hwf : s.regsWf = true) :
    (demoted s).fld R.PLN_STATUS F.PLN_STATUS_TERM = s.fld R.PLN_STATUS F.PLN_STATUS_TERM :=
  s.fld_setFld_of_disjoint _ _ _ _ hwf (by decide) (by decide)

theorem demoted_rd (s : State) {o : Nat} (h : o ≠ R.PLN_STATUS) : (demoted s).rd o = s.rd o := s.rd_setFld_of_ne _ _ h

theorem listenEnd_heard {s : State} (hwf : s.regsWf = true) (hlisten : s.pln.listening = true) (hrole : s.role = 2)
    (hheard : s.pln.heardManager = true) : Answers (exec .listenPeriodEnd s) fun t => t.role = 3 ∧ t.acting = false ∧
      t.pln.listening = false ∧ t.fld R.PLN_STATUS F.PLN_STATUS_TERM = s.fld R.PLN_STATUS F.PLN_STATUS_TERM ∧
      t.out = { s.out with msix := s.out.msix ++ [7] } ∧
      F.PLN_EVENT_KIND.get (t.rd (R.PLN_EVENT (s.fld R.PLN_EVENT_HEAD F.PLN_EVENT_HEAD_COUNT % 256))) = 7 := by
  have hexec : exec .listenPeriodEnd s = .next s.demote := by
    change Host.Outcome.next (if s.pln.listening = false ∨ s.role ≠ 2 then s else if s.pln.heardManager then s.demote else s.beginActing) = _
    rw [if_neg (by rw [hlisten, hrole]; decide), hheard, if_pos rfl]
  have hroleD := demoted_role hwf
  have htermD := demoted_term hwf
  have hrdD := fun o (h : o ≠ R.PLN_STATUS) => demoted_rd s h
  have hwfD := demoted_regsWf hwf
  have hlistenD : (demoted s).pln.listening = false := rfl
  have houtD : (demoted s).out = s.out := by rw [demoted, State.setFld_out]
  rw [hexec, demote_eq]
  generalize demoted s = d at hroleD htermD hrdD hwfD hlistenD houtD ⊢
  have hroleF := (flipFreed_fld hwfD (f := F.PLN_STATUS_ROLE) (by decide) (by decide)).trans hroleD
  have htermF := (flipFreed_fld hwfD (f := F.PLN_STATUS_TERM) (by decide) (by decide)).trans htermD
  have hrdF := fun o (h : o ≠ R.PLN_STATUS) => (flipFreed_rd d h).trans (hrdD o h)
  have hwfF := flipFreed_regsWf hwfD
  have hframeF := flipFreed_frame d
  generalize flipFreed d = v at hroleF htermF hrdF hwfF hframeF ⊢
  have hhead : ((v.setFld R.PLN_FLIP F.PLN_FLIP_GO 0).setFld R.PLN_FLIP_STATUS F.PLN_FLIP_STATUS_STATE 0).rd R.PLN_EVENT_HEAD =
      s.rd R.PLN_EVENT_HEAD := by
    rw [State.rd_setFld_of_ne _ _ _ (by decide), State.rd_setFld_of_ne _ _ _ (by decide), hrdF _ (by decide)]
  have hstatus : ((v.setFld R.PLN_FLIP F.PLN_FLIP_GO 0).setFld R.PLN_FLIP_STATUS F.PLN_FLIP_STATUS_STATE 0).rd R.PLN_STATUS =
      v.rd R.PLN_STATUS := by
    rw [State.rd_setFld_of_ne _ _ _ (by decide), State.rd_setFld_of_ne _ _ _ (by decide)]
  have hwfU := State.setFld_regsWf _ R.PLN_FLIP_STATUS F.PLN_FLIP_STATUS_STATE 0 (State.setFld_regsWf _ R.PLN_FLIP F.PLN_FLIP_GO 0 hwfF)
  have hsame : SameButRegs v ((v.setFld R.PLN_FLIP F.PLN_FLIP_GO 0).setFld R.PLN_FLIP_STATUS F.PLN_FLIP_STATUS_STATE 0) :=
    .trans (State.setFld_same ..) (State.setFld_same ..)
  generalize (v.setFld R.PLN_FLIP F.PLN_FLIP_GO 0).setFld R.PLN_FLIP_STATUS F.PLN_FLIP_STATUS_STATE 0 = u at hhead hstatus hwfU hsame ⊢
  obtain ⟨hword, -, hrd, hframe⟩ := plnEvent_facts (s := s) (kind := 7) (worker := 0x3FF) (port := 0) (group := 0) (opSeq := 0) (id := 0)
    hwfU hhead rfl
  generalize u.plnEvent 7 0x3FF 0 0 0 0 = t at hword hrd hframe ⊢
  have hstatusT : t.rd R.PLN_STATUS = v.rd R.PLN_STATUS := (hrd _ ⟨by decide, by decide⟩).trans hstatus
  have hroleT : t.role = 3 := (State.fld_congr hstatusT _).trans hroleF
  refine ⟨t, rfl, hroleT, ?_, ?_, (State.fld_congr hstatusT _).trans htermF, ?_, ?_⟩
  · rw [State.acting, hroleT]
    rfl
  · rw [hframe, hsame, hframeF]
    exact hlistenD
  · rw [hframe, hsame, hframeF, ← houtD]
  · rw [hword, plnEventWord_kind]

/-- PLN_PROMOTE has taken a request and its reason. -/
def promoteTaken (s : State) (force : Bool) (r : Nat) : State :=
  s.wr R.PLN_PROMOTE (F.PLN_PROMOTE_FORCE.put (b2n force) ||| F.PLN_PROMOTE_REASON.put r)

theorem promoteTaken_facts {s : State} (hwf : s.regsWf = true) (force : Bool) (r : Nat) {t : State} (ht : t = promoteTaken s force r) :
    t.fld R.PLN_PROMOTE F.PLN_PROMOTE_REASON = r % 256 ∧ t.flag R.PLN_PROMOTE F.PLN_PROMOTE_GO = false ∧ s.RegsBut t [R.PLN_PROMOTE] ∧
      t.regsWf = true ∧ SameButRegs s t := by
  have hrd : t.rd R.PLN_PROMOTE = F.PLN_PROMOTE_FORCE.put (b2n force) ||| F.PLN_PROMOTE_REASON.put r := by
    rw [ht, promoteTaken, State.rd_wr_self _ _ _ hwf]
  refine ⟨?_, ?_, ?_, ?_, ?_⟩
  · rw [State.fld, hrd]
    simp (disch := decide) only [Fld.get_or, Fld.get_put_self, Fld.get_put_of_disjoint, Nat.zero_or, Nat.reducePow]
  · rw [State.flag, State.fld, hrd]
    simp (disch := decide) only [Fld.get_or, Fld.get_put_of_disjoint, Nat.or_zero]
    decide
  · rw [ht]
    exact State.wr_regsBut (by simp) _
  · rw [ht]
    exact State.wr_regsWf _ _ _ hwf
  · rw [ht]
    exact State.wr_same ..

theorem exec_promote {s : State} {force : Bool} {r : Nat} (hr : s.promoteReason force = r) :
    exec (.promote force) s = .next (if r ≠ 0 then promoteTaken s force r else
      (((((promoteTaken s force r).setRole 2).setFld R.PLN_STATUS F.PLN_STATUS_ROLE 2).setFld R.PLN_STATUS
        F.PLN_STATUS_MANAGER_PRESENT 0).plnEvent 6 0x3FF 0 0 0 0).beginActing) := by
  subst hr
  rfl

theorem promote_refused {force : Bool} {s : State} (hwf : s.regsWf = true) (hno : s.cfld R.PLN_CFG F.PLN_CFG_ROLE ≠ 3 ∨
      (force = false ∧ (s.heardLately 1023 0 = true ∨ s.heardLately 1023 1 = true))) : Answers (exec (.promote force) s) fun t =>
    t.fld R.PLN_PROMOTE F.PLN_PROMOTE_REASON = (if s.cfld R.PLN_CFG F.PLN_CFG_ROLE ≠ 3 then 0x12 else 0x17) ∧
    t.flag R.PLN_PROMOTE F.PLN_PROMOTE_GO = false ∧ s.RegsBut t [R.PLN_PROMOTE] ∧ t = { s with regs := t.regs } := by
  have hr : s.promoteReason force = if s.cfld R.PLN_CFG F.PLN_CFG_ROLE ≠ 3 then 0x12 else 0x17 := by
    unfold State.promoteReason
    split
    case isTrue => rfl
    case isFalse h =>
      obtain ⟨hforce, hheard⟩ := hno.resolve_left h
      rw [hforce]
      rcases hheard with hh | hh <;> simp [hh]
  generalize hrv : (if s.cfld R.PLN_CFG F.PLN_CFG_ROLE ≠ 3 then 0x12 else 0x17) = r at hr ⊢
  have hrange : r = 0x12 ∨ r = 0x17 := by
    rw [← hrv]
    split
    · exact .inl rfl
    · exact .inr rfl
  rw [exec_promote hr, if_pos (by omega)]
  obtain ⟨hreason, hgo, hbut, -, hsame⟩ := promoteTaken_facts hwf force r rfl
  exact ⟨_, rfl, by rw [hreason]; omega, hgo, hbut, hsame⟩

/-- The role in the staged and the committed PLN_CFG. -/
theorem setRole_facts {s t : State} (hwf : s.regsWf = true) (ht : t = s.setRole 2) :
    t.cfld R.PLN_CFG F.PLN_CFG_ROLE = 2 ∧ t.fld R.PLN_CFG F.PLN_CFG_ROLE = 2 ∧ (∀ o, o ≠ R.PLN_CFG → t.rd o = s.rd o) ∧
      t.regsWf = true ∧ t = { s with regs := t.regs, cfg := { s.cfg with committed := t.cfg.committed } } := by
  have hne : F.PLN_CFG_ROLE.set (s.committed R.PLN_CFG) 2 ≠ resetWord R.PLN_CFG := fun h => by
    have hrole := congrArg F.PLN_CFG_ROLE.get h
    rw [Fld.get_set_self _ _ _ (by decide)] at hrole
    exact absurd hrole (by decide +kernel)
  subst ht
  refine ⟨?_, s.fld_setFld_self _ _ _ hwf (by decide), fun o ho => s.rd_setFld_of_ne _ _ ho, s.setFld_regsWf _ _ _ hwf, rfl⟩
  have hput : (s.setRole 2).committed R.PLN_CFG = F.PLN_CFG_ROLE.set (s.committed R.PLN_CFG) 2 := by
    change sget _ (sset _ _ _ _) _ = _
    rw [sset, if_neg hne, sget_sput_self]
  rw [State.cfld, hput, Fld.get_set_self _ _ _ (by decide)]
  rfl

theorem promote_granted {force : Bool} {s : State} (hwf : s.regsWf = true) (hrole : s.cfld R.PLN_CFG F.PLN_CFG_ROLE = 3)
    (hok : force = true ∨ (s.heardLately 1023 0 = false ∧ s.heardLately 1023 1 = false)) : Answers (exec (.promote force) s) fun t =>
      t.role = 2 ∧ t.acting = true ∧ t.fld R.PLN_STATUS F.PLN_STATUS_TERM = (s.fld R.PLN_STATUS F.PLN_STATUS_TERM + 1) % 2 ^ 32 ∧
      t.flag R.PLN_STATUS F.PLN_STATUS_MANAGER_PRESENT = false ∧ t.fld R.PLN_PROMOTE F.PLN_PROMOTE_REASON = 0 ∧
      t.cfld R.PLN_CFG F.PLN_CFG_ROLE = 2 ∧ t.fld R.PLN_CFG F.PLN_CFG_ROLE = 2 ∧
      F.PLN_EVENT_KIND.get (t.rd (R.PLN_EVENT (s.fld R.PLN_EVENT_HEAD F.PLN_EVENT_HEAD_COUNT % 256))) = 6 ∧
      t.out = { s.out with msix := s.out.msix ++ [7] } := by
  have hr : s.promoteReason force = 0 := by
    rw [State.promoteReason, if_neg (by rw [hrole]; decide)]
    rcases hok with rfl | ⟨h0, h1⟩
    · simp
    · simp [h0, h1]
  rw [exec_promote hr, if_neg (by decide)]
  obtain ⟨hreasonP, -, hbutP, hwfP, hsameP⟩ := promoteTaken_facts hwf force 0 rfl
  generalize promoteTaken s force 0 = p at hreasonP hbutP hwfP hsameP ⊢
  obtain ⟨hcfldQ, hcfgQ, hrdQ, hwfQ, hframeQ⟩ := setRole_facts hwfP rfl
  generalize p.setRole 2 = q at hcfldQ hcfgQ hrdQ hwfQ hframeQ ⊢
  have hwf1 := State.setFld_regsWf q R.PLN_STATUS F.PLN_STATUS_ROLE 2 hwfQ
  have hwfV := State.setFld_regsWf _ R.PLN_STATUS F.PLN_STATUS_MANAGER_PRESENT 0 hwf1
  have hroleV : ((q.setFld R.PLN_STATUS F.PLN_STATUS_ROLE 2).setFld R.PLN_STATUS F.PLN_STATUS_MANAGER_PRESENT 0).fld R.PLN_STATUS
      F.PLN_STATUS_ROLE = 2 := by
    rw [State.fld_setFld_of_disjoint _ _ _ _ _ hwf1 (by decide) (by decide), State.fld_setFld_self _ _ _ _ hwfQ (by decide)]
    rfl
  have hpresentV : ((q.setFld R.PLN_STATUS F.PLN_STATUS_ROLE 2).setFld R.PLN_STATUS F.PLN_STATUS_MANAGER_PRESENT 0).fld R.PLN_STATUS
      F.PLN_STATUS_MANAGER_PRESENT = 0 := by
    rw [State.fld_setFld_self _ _ _ _ hwf1 (by decide)]
    rfl
  have htermV : ((q.setFld R.PLN_STATUS F.PLN_STATUS_ROLE 2).setFld R.PLN_STATUS F.PLN_STATUS_MANAGER_PRESENT 0).fld R.PLN_STATUS
      F.PLN_STATUS_TERM = s.fld R.PLN_STATUS F.PLN_STATUS_TERM := by
    rw [State.fld_setFld_of_disjoint _ _ _ _ _ hwf1 (by decide) (by decide),
      State.fld_setFld_of_disjoint _ _ _ _ _ hwfQ (by decide) (by decide), State.fld_congr (hrdQ _ (by decide)),
      State.fld_congr (hbutP _ (by decide))]
  have hrdV (o : Nat) (ho : o ≠ R.PLN_STATUS) : ((q.setFld R.PLN_STATUS F.PLN_STATUS_ROLE 2).setFld R.PLN_STATUS
      F.PLN_STATUS_MANAGER_PRESENT 0).rd o = q.rd o := by
    rw [State.rd_setFld_of_ne _ _ _ ho, State.rd_setFld_of_ne _ _ _ ho]
  have hsameV : SameButRegs q ((q.setFld R.PLN_STATUS F.PLN_STATUS_ROLE 2).setFld R.PLN_STATUS F.PLN_STATUS_MANAGER_PRESENT 0) :=
    .trans (State.setFld_same ..) (State.setFld_same ..)
  generalize (q.setFld R.PLN_STATUS F.PLN_STATUS_ROLE 2).setFld R.PLN_STATUS F.PLN_STATUS_MANAGER_PRESENT 0 = v
    at hwfV hroleV hpresentV htermV hrdV hsameV ⊢
  have hhead : v.rd R.PLN_EVENT_HEAD = s.rd R.PLN_EVENT_HEAD := by
    rw [hrdV _ (by decide), hrdQ _ (by decide), hbutP _ (by decide)]
  have hwfE := State.plnEvent_regsWf hwfV 6 0x3FF 0 0 0 0
  obtain ⟨hword, -, hrdE, hframeE⟩ := plnEvent_facts (s := s) (kind := 6) (worker := 0x3FF) (port := 0) (group := 0) (opSeq := 0) (id := 0)
    hwfV hhead rfl
  generalize v.plnEvent 6 0x3FF 0 0 0 0 = e at hwfE hword hrdE hframeE ⊢
  obtain ⟨hterm, hothers, hbut, -, hframe⟩ := beginActing_facts hwfE rfl
  generalize e.beginActing = t at hterm hothers hbut hframe ⊢
  have hstatusE := hrdE R.PLN_STATUS ⟨by decide, by decide⟩
  have hroleT : t.role = 2 := by
    rw [State.role, hothers _ (by decide) (by decide), State.fld_congr hstatusE, hroleV]
  have hcfgT : t.rd R.PLN_CFG = q.rd R.PLN_CFG := by
    rw [hbut _ (by decide), hrdE _ ⟨by decide, by decide⟩, hrdV _ (by decide)]
  have hreasonT : t.rd R.PLN_PROMOTE = p.rd R.PLN_PROMOTE := by
    rw [hbut _ (by decide), hrdE _ ⟨by decide, by decide⟩, hrdV _ (by decide), hrdQ _ (by decide)]
  have hcommitted : t.cfg = q.cfg := by rw [hframe, hframeE, hsameV]
  refine ⟨t, rfl, hroleT, ?_, ?_, ?_, ?_, ?_, ?_, ?_, ?_⟩
  · rw [State.acting, hroleT, hframe]
    rfl
  · rw [hterm, State.fld_congr hstatusE, htermV]
  · rw [State.flag, hothers _ (by decide) (by decide), State.fld_congr hstatusE, hpresentV]
    decide
  · rw [State.fld_congr hreasonT, hreasonP]
  · rw [State.cfld, State.committed, hcommitted]
    exact hcfldQ
  · rw [State.fld_congr hcfgT, hcfgQ]
  · have hlt : s.fld R.PLN_EVENT_HEAD F.PLN_EVENT_HEAD_COUNT % 256 < 256 := Nat.mod_lt _ (by decide)
    rw [hbut _ (by simp only [List.mem_singleton, R.PLN_EVENT, R.PLN_STATUS]; omega), hword, plnEventWord_kind]
  · have houtQ : q.out = p.out := by rw [hframeQ]
    rw [hframe, hframeE, hsameV]
    simp only [houtQ]
    rw [hsameP]

/-! ## Flips -/

/-- PLN_FLIP has taken a request. -/
def flipTaken (s : State) (kind fromEpoch : Nat) : State :=
  s.wr R.PLN_FLIP (F.PLN_FLIP_GO.put (b2n s.pln.flip.isSome) ||| F.PLN_FLIP_KIND.put kind ||| F.PLN_FLIP_FROM_EPOCH.put fromEpoch)

/-- The flip that a request begins. -/
def flipNew (s : State) (kind fromEpoch : Nat) (live : List Nat) : ManagerFlip :=
  { kind := kind, id := s.pln.flipId + 1, fromEpoch := BitVec.ofNat 32 fromEpoch, startedAt := s.mono, participants := live ++ [1023] }

/-- A flip stands as the one that this manager runs. -/
def flipEntered (s : State) (f : ManagerFlip) : State := { s with pln.flipId := f.id, pln.flip := some f }

/-- A flip has begun. -/
def flipBegun (s : State) (f : ManagerFlip) : State :=
  (flipEntered (s.setFld R.PLN_FLIP F.PLN_FLIP_GO 1) f).wr R.PLN_FLIP_STATUS
    (F.PLN_FLIP_STATUS_STATE.put 1 ||| F.PLN_FLIP_STATUS_FLIP_ID.put f.id.toNat)

/-- The manager's own answer to a flip that has begun. -/
def flipOwn (s : State) (f : ManagerFlip) (kind fromEpoch : Nat) : State :=
  let (r, s) := s.participate kind f.id fromEpoch
  s.takeReady f 1023 r (instantNs s (s.rd R.SPL_CYCLE_START)) s.cycleNs

/-- What is done about a request for a flip that has been taken. -/
def flipAnswer (a : State) (busy : Bool) (live : List Nat) (kind fromEpoch : Nat) : State :=
  if a.acting = false then a
  else if busy then a.setFld R.PLN_FLIP_STATUS F.PLN_FLIP_STATUS_REASON 0x18
  else if a.hasLocked = false then a.setFld R.PLN_FLIP_STATUS F.PLN_FLIP_STATUS_REASON 0x1A
  else if live.isEmpty ∨ kind = 0 ∨ kind = 3 then a.setFld R.PLN_FLIP_STATUS F.PLN_FLIP_STATUS_REASON 0x10
  else flipOwn ((flipBegun a (flipNew a kind fromEpoch live)).sendPrepare (flipNew a kind fromEpoch live)) (flipNew a kind fromEpoch live) kind
    fromEpoch

theorem exec_planeFlip (kind : BitVec 2) (fromEpoch : BitVec 32) (s : State) : exec (.planeFlip kind fromEpoch) s =
    .next (flipAnswer (flipTaken s kind.toNat fromEpoch.toNat) s.pln.flip.isSome (s.workers.filter fun n => s.workerState n == 1) kind.toNat
      fromEpoch.toNat) := by
  change Host.Outcome.next (s.startFlip kind.toNat fromEpoch.toNat) = _
  refine congrArg Host.Outcome.next ?_
  unfold State.startFlip
  extract_lets refuse live busy t id f u pln s2 s1 s0
  have ht : t = flipTaken s kind.toNat fromEpoch.toNat := rfl
  have hid : id = f.id := rfl
  have hf : f = flipNew t kind.toNat fromEpoch.toNat live := rfl
  have hentered : s2 = flipEntered u f := rfl
  have hstatus : s1 = s2.wr R.PLN_FLIP_STATUS (F.PLN_FLIP_STATUS_STATE.put 1 ||| F.PLN_FLIP_STATUS_FLIP_ID.put id.toNat) := rfl
  have hgo : u = t.setFld R.PLN_FLIP F.PLN_FLIP_GO 1 := rfl
  have hsent : s0 = s1.sendPrepare f := rfl
  have hlive : live = s.workers.filter fun n => s.workerState n == 1 := rfl
  have hbusy : busy = s.pln.flip.isSome := rfl
  clear_value s0 s1 s2 u f t live busy
  rw [hsent, hstatus, hentered, hgo, hid, hf, ← ht, ← hlive, ← hbusy]
  rfl

theorem flipTaken_facts {s t : State} (hwf : s.regsWf = true) (kind fromEpoch : Nat) (ht : t = flipTaken s kind fromEpoch) :
    t.flag R.PLN_FLIP F.PLN_FLIP_GO = s.pln.flip.isSome ∧ s.RegsBut t [R.PLN_FLIP] ∧ t.regsWf = true ∧ SameButRegs s t := by
  have hrd : t.rd R.PLN_FLIP = F.PLN_FLIP_GO.put (b2n s.pln.flip.isSome) ||| F.PLN_FLIP_KIND.put kind |||
      F.PLN_FLIP_FROM_EPOCH.put fromEpoch := by rw [ht, flipTaken, State.rd_wr_self _ _ _ hwf]
  refine ⟨?_, ?_, ?_, ?_⟩
  · rw [State.flag, State.fld, hrd]
    simp (disch := decide) only [Fld.get_or, Fld.get_put_self, Fld.get_put_of_disjoint, Nat.or_zero]
    cases s.pln.flip.isSome <;> decide
  · rw [ht]
    exact State.wr_regsBut (by simp) _
  · rw [ht]
    exact State.wr_regsWf _ _ _ hwf
  · rw [ht]
    exact State.wr_same ..

theorem acting_congr {s t : State} (hrd : t.rd R.PLN_STATUS = s.rd R.PLN_STATUS) (hpln : t.pln.listening = s.pln.listening) :
    t.acting = s.acting := by
  rw [State.acting, State.role, State.fld_congr hrd, hpln, State.acting, State.role]

theorem planeFlip_refused {kind : BitVec 2} {fromEpoch : BitVec 32} {s : State} (hwf : s.regsWf = true)
    (hno : s.acting = false ∨ s.pln.flip.isSome = true ∨ s.hasLocked = false ∨
      (s.workers.filter fun n => s.workerState n == 1) = [] ∨ kind = 0 ∨ kind = 3) : Answers (exec (.planeFlip kind fromEpoch) s) fun t =>
    t.flag R.PLN_FLIP F.PLN_FLIP_GO = s.pln.flip.isSome ∧ t.pln = s.pln ∧ t.out = s.out ∧
    s.RegsBut t [R.PLN_FLIP, R.PLN_FLIP_STATUS] ∧ t.fld R.PLN_FLIP_STATUS F.PLN_FLIP_STATUS_STATE = s.fld R.PLN_FLIP_STATUS F.PLN_FLIP_STATUS_STATE ∧
    t.fld R.PLN_FLIP_STATUS F.PLN_FLIP_STATUS_REASON = (if s.acting = false then s.fld R.PLN_FLIP_STATUS F.PLN_FLIP_STATUS_REASON
      else if s.pln.flip.isSome = true then 0x18 else if s.hasLocked = false then 0x1A else 0x10) := by
  rw [exec_planeFlip]
  obtain ⟨hgo, hbut, hwfA, hsame⟩ := flipTaken_facts hwf kind.toNat fromEpoch.toNat rfl
  generalize flipTaken s kind.toNat fromEpoch.toNat = a at hgo hbut hwfA hsame ⊢
  have hact : a.acting = s.acting := acting_congr (hbut _ (by decide)) (by rw [hsame])
  have hlocked : a.hasLocked = s.hasLocked := State.flag_congr (hbut _ (by decide)) _
  have hpln : a.pln = s.pln := by rw [hsame]
  have hout : a.out = s.out := by rw [hsame]
  have hbut' : s.RegsBut a [R.PLN_FLIP, R.PLN_FLIP_STATUS] := hbut.mono (by simp)
  have hset (r : Nat) (hr : r < 256) : ∀ t, t = a.setFld R.PLN_FLIP_STATUS F.PLN_FLIP_STATUS_REASON r →
      t.flag R.PLN_FLIP F.PLN_FLIP_GO = s.pln.flip.isSome ∧ t.pln = s.pln ∧ t.out = s.out ∧ s.RegsBut t [R.PLN_FLIP, R.PLN_FLIP_STATUS] ∧
      t.fld R.PLN_FLIP_STATUS F.PLN_FLIP_STATUS_STATE = s.fld R.PLN_FLIP_STATUS F.PLN_FLIP_STATUS_STATE ∧
      t.fld R.PLN_FLIP_STATUS F.PLN_FLIP_STATUS_REASON = r := by
    rintro t rfl
    refine ⟨?_, by rw [State.setFld_pln, hpln], by rw [State.setFld_out, hout], hbut'.setFld (by simp) _ _, ?_, ?_⟩
    · rw [State.flag_congr (State.rd_setFld_of_ne _ _ _ (by decide)), hgo]
    · rw [State.fld_setFld_of_disjoint _ _ _ _ _ hwfA (by decide) (by decide), State.fld_congr (hbut _ (by decide))]
    · rw [State.fld_setFld_self _ _ _ _ hwfA (by decide)]
      exact Nat.mod_eq_of_lt hr
  rw [flipAnswer, hact, hlocked]
  by_cases ha : s.acting = false
  · rw [if_pos ha, if_pos ha]
    exact ⟨a, rfl, hgo, hpln, hout, hbut', State.fld_congr (hbut _ (by decide)) _, State.fld_congr (hbut _ (by decide)) _⟩
  rw [if_neg ha, if_neg ha]
  by_cases hb : s.pln.flip.isSome = true
  · rw [if_pos hb, if_pos hb]
    exact ⟨_, rfl, hset 0x18 (by decide) _ rfl⟩
  rw [if_neg hb, if_neg hb]
  by_cases hl : s.hasLocked = false
  · rw [if_pos hl, if_pos hl]
    exact ⟨_, rfl, hset 0x1A (by decide) _ rfl⟩
  have hlast : (s.workers.filter fun n => s.workerState n == 1).isEmpty = true ∨ kind.toNat = 0 ∨ kind.toNat = 3 := by
    rcases ((hno.resolve_left ha).resolve_left hb).resolve_left hl with h | h | h
    · exact .inl (by rw [h]; rfl)
    · exact .inr (.inl (by rw [h]; rfl))
    · exact .inr (.inr (by rw [h]; rfl))
  rw [if_neg hl, if_neg hl, if_pos hlast]
  exact ⟨_, rfl, hset 0x10 (by decide) _ rfl⟩

/-- The messages to the only worker of a flip that has not answered. -/
theorem sendPrepare_one {f : ManagerFlip} {n : Nat} (s : State) (hparts : f.participants = [n, 1023]) (hn : n < 1023)
    (hready : (f.ready.any fun x => x.1 == n) = false) : s.sendPrepare f = s.sendBoth n 3 (s.prepareBody f) := by
  have hne : (n != 1023) = true := by simp; omega
  have hsend : f.toSend.filter (fun n => !(f.ready.any fun x => x.1 == n)) = [n] := by
    rw [ManagerFlip.toSend, hparts]
    simp [hne, hready]
  rw [State.sendPrepare, hsend]
  rfl

theorem sendCommit_one {f : ManagerFlip} {n : Nat} (s : State) (hparts : f.participants = [n, 1023]) (hn : n < 1023)
    (hdone : f.done.contains n = false) : s.sendCommit f =
      s.sendBoth n 5 (beBytes 2 f.id.toNat ++ beBytes 2 0 ++ beBytes 8 (instantWord f.instant).toNat) := by
  have hne : (n != 1023) = true := by simp; omega
  have hsend : f.toSend.filter (fun n => !f.done.contains n) = [n] := by
    rw [ManagerFlip.toSend, hparts]
    simp only [List.filter_cons, hne, if_true, hdone, Bool.not_false]
    simp
  rw [State.sendCommit, hsend]
  rfl

/-- States in which the rules of a flip and the spillway's cycle are the same: their registers beside the plane's, and the forwarding. -/
structure FlipSame (s t : State) : Prop where
  rd : ∀ o, o ≠ R.PLN_FLIP → o ≠ R.PLN_FLIP_STATUS → o ≠ R.PLN_STATUS → t.rd o = s.rd o
  fwd : t.fwd = s.fwd
  tim : t.tim = s.tim

theorem FlipSame.rd_below {s t : State} (h : FlipSame s t) {o : Nat} (ho : o < R.PLN_CFG) : t.rd o = s.rd o :=
  h.rd o (by simp only [R.PLN_CFG, R.PLN_FLIP] at ho ⊢; omega) (by simp only [R.PLN_CFG, R.PLN_FLIP_STATUS] at ho ⊢; omega)
    (by simp only [R.PLN_CFG, R.PLN_STATUS] at ho ⊢; omega)

theorem any_congr_mem {α : Type} {l : List α} {p q : α → Bool} (h : ∀ a ∈ l, p a = q a) : l.any p = l.any q := by
  induction l with
  | nil => rfl
  | cons a l ih => rw [List.any_cons, List.any_cons, h a List.mem_cons_self, ih fun b hb => h b (List.mem_cons_of_mem a hb)]

theorem FlipSame.banked {s t : State} (h : FlipSame s t) : t.anyBankedLock = s.anyBankedLock := by
  refine any_congr_mem fun k hk => any_congr_mem fun b hb => any_congr_mem fun w hw => ?_
  rw [List.mem_range] at hk hb hw
  rw [h.rd_below (by simp only [R.FWD_SEG_LOCK, R.PLN_CFG]; omega)]

theorem FlipSame.rules {s t : State} (h : FlipSame s t) (timed : Bool) : t.eflipRules timed = s.eflipRules timed := by
  have hstatus : t.rd R.FWD_EPOCH_STATUS = s.rd R.FWD_EPOCH_STATUS := h.rd_below (by decide)
  have hlocked : t.hasLocked = s.hasLocked := State.flag_congr (h.rd_below (by decide)) _
  have hrows (b : Nat) : t.bankRows b = s.bankRows b := by rw [State.bankRows, h.fwd, State.bankRows]
  have hbank : t.activeBank = s.activeBank := State.fld_congr hstatus _
  have hstandby : t.standbyReason = s.standbyReason := by rw [State.standbyReason, hbank, hrows, State.standbyReason]
  have hstate : t.epochState = s.epochState := State.fld_congr hstatus _
  rw [State.eflipRules, hstandby, h.banked, hstate, hlocked, State.eflipRules]

theorem FlipSame.cycle {s t : State} (h : FlipSame s t) : t.cycleNs = s.cycleNs := by
  have hslots : t.slots = s.slots := State.fld_congr (h.rd_below (by decide)) _
  have hlt : s.slots < 128 := Fld.get_lt _ _
  rw [State.cycleNs, hslots, State.cycleNs, State.slotOffset, State.slotOffset]
  refine congrArg List.sum (List.map_congr_left fun i hi => ?_)
  rw [List.mem_range] at hi
  rw [State.slotLen, State.slotK, h.rd_below (by simp only [R.SPL_SLOT_K_ACT, R.PLN_CFG]; omega), State.slotLen, State.slotK]

theorem FlipSame.instant {s t : State} (h : FlipSame s t) (w : Word) : instantNs t w = instantNs s w := by
  have hsec : t.nowSec = s.nowSec := by rw [State.nowSec, h.tim, State.nowSec]
  unfold instantNs
  rw [hsec]

/-- A flip whose rules are met is prepared here. -/
theorem participate_epoch {s : State} {id : BitVec 16} {fromEpoch : Nat} (hprep : s.pln.prepared = none) (hepoch : s.epoch = fromEpoch)
    (hrules : s.eflipRules true = 0) : s.participate 1 id fromEpoch =
      (0, { s.setFld R.PLN_STATUS F.PLN_STATUS_PREPARED 1 with pln.prepared := some (1, id, false) }) := by
  rw [State.participate, hprep]
  dsimp only
  rw [if_neg (by simp [hepoch, hrules])]

/-- The manager's own READY while a worker's is missing. -/
theorem takeReady_first {f : ManagerFlip} {n : Nat} (s : State) (start len : Nat) (hnew : f.committing = false) (hready : f.ready = [])
    (hparts : f.participants = [n, 1023]) (hn : n < 1023) :
    s.takeReady f 1023 0 start len = { s with pln.flip := some { f with ready := [(1023, start, len)] } } := by
  have hne : ((1023 : Nat) == n) = false := by simp; omega
  rw [State.takeReady, if_neg (by rw [hnew, hready, hparts]; simp), if_neg (by decide), hready, hparts]
  simp [hne]

/-- What a flip that has begun shows. -/
theorem flipBegun_facts {s t : State} (hwf : s.regsWf = true) (f : ManagerFlip) (ht : t = flipBegun s f) :
    t.flag R.PLN_FLIP F.PLN_FLIP_GO = true ∧ t.fld R.PLN_FLIP_STATUS F.PLN_FLIP_STATUS_STATE = 1 ∧
      t.fld R.PLN_FLIP_STATUS F.PLN_FLIP_STATUS_FLIP_ID = f.id.toNat ∧ s.RegsBut t [R.PLN_FLIP, R.PLN_FLIP_STATUS] ∧ t.regsWf = true ∧
      t = { s with regs := t.regs, pln.flipId := f.id, pln.flip := some f } := by
  obtain ⟨g, hg⟩ : ∃ g, g = s.setFld R.PLN_FLIP F.PLN_FLIP_GO 1 := ⟨_, rfl⟩
  have hwfG : g.regsWf = true := by rw [hg]; exact State.setFld_regsWf _ _ _ _ hwf
  have hgo : g.flag R.PLN_FLIP F.PLN_FLIP_GO = true := by
    rw [hg, State.flag, State.fld_setFld_self _ _ _ _ hwf (by decide)]
    decide
  have hbut : s.RegsBut g [R.PLN_FLIP, R.PLN_FLIP_STATUS] := by rw [hg]; exact State.setFld_regsBut (by simp) _ _
  have hsame : SameButRegs s g := by rw [hg]; exact State.setFld_same ..
  rw [flipBegun, ← hg] at ht
  clear hg
  obtain ⟨e, he⟩ : ∃ e, e = flipEntered g f := ⟨_, rfl⟩
  have hregs : e.regs = g.regs := by rw [he, flipEntered]
  have hframe : e = { s with regs := e.regs, pln.flipId := f.id, pln.flip := some f } := by
    rw [he, flipEntered, hsame]
  rw [← he] at ht
  clear he
  have hwfE : e.regsWf = true := State.regsWf_congr hregs hwfG
  have hstatus : t.rd R.PLN_FLIP_STATUS = F.PLN_FLIP_STATUS_STATE.put 1 ||| F.PLN_FLIP_STATUS_FLIP_ID.put f.id.toNat := by
    rw [ht, State.rd_wr_self _ _ _ hwfE]
  have hsameT : SameButRegs e t := by rw [ht]; exact State.wr_same ..
  refine ⟨?_, ?_, ?_, ?_, by rw [ht]; exact State.wr_regsWf _ _ _ hwfE, ?_⟩
  · rw [ht, State.flag_congr (State.rd_wr_of_ne _ _ (by decide)), State.flag_congr (State.rd_congr hregs _), hgo]
  · rw [State.fld, hstatus]
    simp (disch := decide) only [Fld.get_or, Fld.get_put_self, Fld.get_put_of_disjoint, Nat.or_zero, Nat.reducePow, Nat.reduceMod]
  · rw [State.fld, hstatus]
    simp (disch := decide) only [Fld.get_or, Fld.get_put_self, Fld.get_put_of_disjoint, Nat.zero_or]
    exact Nat.mod_eq_of_lt f.id.isLt
  · rw [ht]
    exact (hbut.trans (.of_regs hregs _)).wr (by simp) _
  · rw [hsameT, hframe]

theorem planeFlip_granted {fromEpoch : BitVec 32} {n : Nat} {s : State} (hwf : s.regsWf = true) (hact : s.acting = true)
    (hnone : s.pln.flip = none) (hlocked : s.hasLocked = true) (hlive : (s.workers.filter fun n => s.workerState n == 1) = [n])
    (hepoch : s.epoch = fromEpoch.toNat) (hrules : s.eflipRules true = 0) (hprep : s.pln.prepared = none) :
    Answers (exec (.planeFlip 1 fromEpoch) s) fun t =>
      t.pln.flip = some { kind := 1, id := s.pln.flipId + 1, fromEpoch := fromEpoch, startedAt := s.mono, participants := [n, 1023],
                          ready := [(1023, instantNs s (s.rd R.SPL_CYCLE_START), s.cycleNs)] } ∧
      t.pln.prepared = some (1, s.pln.flipId + 1, false) ∧ t.flag R.PLN_STATUS F.PLN_STATUS_PREPARED = true ∧
      t.flag R.PLN_FLIP F.PLN_FLIP_GO = true ∧ t.fld R.PLN_FLIP_STATUS F.PLN_FLIP_STATUS_STATE = 1 ∧
      t.fld R.PLN_FLIP_STATUS F.PLN_FLIP_STATUS_FLIP_ID = (s.pln.flipId + 1).toNat ∧ t.out.mgmt.length = s.out.mgmt.length + 2 ∧
      s.RegsBut t [R.PLN_FLIP, R.PLN_FLIP_STATUS, R.PLN_STATUS] := by
  have hn : n < 1023 := workers_lt (List.mem_of_mem_filter (hlive ▸ List.mem_singleton_self n))
  rw [exec_planeFlip, hlive, hnone]
  obtain ⟨-, hbutA, hwfA, hsameA⟩ := flipTaken_facts hwf (1 : BitVec 2).toNat fromEpoch.toNat rfl
  generalize flipTaken s (1 : BitVec 2).toNat fromEpoch.toNat = a at hbutA hwfA hsameA ⊢
  have hactA : a.acting = true := (acting_congr (hbutA _ (by decide)) (by rw [hsameA])).trans hact
  have hlockedA : a.hasLocked = true := (State.flag_congr (hbutA _ (by decide)) _).trans hlocked
  rw [flipAnswer, if_neg (by rw [hactA]; decide), if_neg (by decide), if_neg (by rw [hlockedA]; decide), if_neg (by simp)]
  obtain ⟨f, hf⟩ : ∃ f, f = flipNew a (1 : BitVec 2).toNat fromEpoch.toNat [n] := ⟨_, rfl⟩
  have hfEq : f = { kind := 1, id := s.pln.flipId + 1, fromEpoch := fromEpoch, startedAt := s.mono, participants := [n, 1023] } := by
    have hpln : a.pln = s.pln := by rw [hsameA]
    have htimA : a.tim = s.tim := by rw [hsameA]
    rw [hf, flipNew, hpln, State.mono, htimA, BitVec.ofNat_toNat, BitVec.setWidth_eq]
    rfl
  rw [← hf]
  clear hf
  obtain ⟨hgoB, hstateB, hidB, hbutB, hwfB, hframeB⟩ := flipBegun_facts hwfA f rfl
  generalize flipBegun a f = b at hgoB hstateB hidB hbutB hwfB hframeB ⊢
  rw [sendPrepare_one b (by rw [hfEq]) hn (by rw [hfEq]; rfl)]
  have hmails := b.sendBoth_mails n 3 (b.prepareBody f)
  generalize b.sendBoth n 3 (b.prepareBody f) = c at hmails ⊢
  have hbutC : s.RegsBut c [R.PLN_FLIP, R.PLN_FLIP_STATUS] :=
    ((hbutA.mono (by simp)).trans hbutB).trans (.of_regs hmails.regs _)
  have hfwd : c.fwd = s.fwd := by rw [hmails.frame, hframeB, hsameA]
  have htim : c.tim = s.tim := by rw [hmails.frame, hframeB, hsameA]
  have hprepC : c.pln.prepared = none := by rw [hmails.frame, hframeB, hsameA]; exact hprep
  have hwfC : c.regsWf = true := State.regsWf_congr hmails.regs hwfB
  have hflip : FlipSame s c := ⟨fun o h1 h2 _ => hbutC o (by simp [h1, h2]), hfwd, htim⟩
  rw [flipOwn, show f.id = s.pln.flipId + 1 by rw [hfEq]]
  have hpart := participate_epoch (id := s.pln.flipId + 1) hprepC ((State.fld_congr (hflip.rd_below (by decide)) _).trans hepoch)
    ((hflip.rules true).trans hrules)
  obtain ⟨d, hd⟩ : ∃ d, d = c.setFld R.PLN_STATUS F.PLN_STATUS_PREPARED 1 := ⟨_, rfl⟩
  have hflipD : FlipSame s { d with pln.prepared := some (1, s.pln.flipId + 1, false) } := by
    refine ⟨fun o h1 h2 h3 => ?_, ?_, ?_⟩
    · rw [hd]
      exact (State.rd_setFld_of_ne _ _ _ h3).trans (hflip.rd o h1 h2 h3)
    · rw [hd]
      exact hfwd
    · rw [hd]
      exact htim
  have hbutD : s.RegsBut d [R.PLN_FLIP, R.PLN_FLIP_STATUS, R.PLN_STATUS] := by
    rw [hd]
    exact (hbutC.mono (by simp)).setFld (by simp) _ _
  have hpreparedD : d.flag R.PLN_STATUS F.PLN_STATUS_PREPARED = true := by
    rw [hd, State.flag, State.fld_setFld_self _ _ _ _ hwfC (by decide)]
    decide
  have hrdD (o : Nat) (ho : o ≠ R.PLN_STATUS) : d.rd o = b.rd o := by
    rw [hd, State.rd_setFld_of_ne _ _ _ ho, State.rd_congr hmails.regs]
  have hout : d.out.mgmt.length = s.out.mgmt.length + 2 := by
    have houtB : b.out = s.out := by rw [hframeB, hsameA]
    rw [hd, State.setFld_out, hmails.length, houtB]
  rw [show ((1 : BitVec 2).toNat) = 1 from rfl, hpart, ← hd]
  dsimp only
  rw [takeReady_first _ _ _ (by rw [hfEq]) (by rw [hfEq]) (by rw [hfEq]) hn, hflipD.instant, hflipD.cycle,
    hflipD.rd_below (by decide), hfEq]
  clear hd hpart hflipD
  exact ⟨_, rfl, rfl, rfl, hpreparedD, (State.flag_congr (hrdD _ (by decide)) _).trans hgoB, (State.fld_congr (hrdD _ (by decide)) _).trans hstateB,
    ((State.fld_congr (hrdD _ (by decide)) _).trans hidB).trans (by rw [hfEq]), hout, hbutD⟩

/-- A flip is over, in a state and with the worker and the reason named. -/
def flipOver (s : State) (state worker reason : Nat) : State :=
  { (((s.setFld R.PLN_FLIP_STATUS F.PLN_FLIP_STATUS_STATE state).setFld R.PLN_FLIP_STATUS F.PLN_FLIP_STATUS_WORKER worker).setFld
      R.PLN_FLIP_STATUS F.PLN_FLIP_STATUS_REASON reason).setFld R.PLN_FLIP F.PLN_FLIP_GO 0 with pln.flip := none }

theorem flipEnds_eq (s : State) (f : ManagerFlip) (state worker reason : Nat) : s.flipEnds f state worker reason =
    (flipOver s state worker reason).plnEvent (state + 5) (if state = 3 then 0x3FF else worker) 0 reason f.id.toNat 0 := by
  unfold State.flipEnds flipOver
  rfl

theorem flipOver_facts {s t : State} (hwf : s.regsWf = true) (state worker reason : Nat) (ht : t = flipOver s state worker reason) :
    t.fld R.PLN_FLIP_STATUS F.PLN_FLIP_STATUS_STATE = state % 8 ∧ t.fld R.PLN_FLIP_STATUS F.PLN_FLIP_STATUS_WORKER = worker % 1024 ∧
      t.fld R.PLN_FLIP_STATUS F.PLN_FLIP_STATUS_REASON = reason % 256 ∧ t.flag R.PLN_FLIP F.PLN_FLIP_GO = false ∧
      (∀ o, o ≠ R.PLN_FLIP → o ≠ R.PLN_FLIP_STATUS → t.rd o = s.rd o) ∧ t.regsWf = true ∧
      t = { s with regs := t.regs, pln.flip := none } := by
  obtain ⟨a, ha⟩ : ∃ a, a = s.setFld R.PLN_FLIP_STATUS F.PLN_FLIP_STATUS_STATE state := ⟨_, rfl⟩
  obtain ⟨b, hb⟩ : ∃ b, b = a.setFld R.PLN_FLIP_STATUS F.PLN_FLIP_STATUS_WORKER worker := ⟨_, rfl⟩
  obtain ⟨c, hc⟩ : ∃ c, c = b.setFld R.PLN_FLIP_STATUS F.PLN_FLIP_STATUS_REASON reason := ⟨_, rfl⟩
  obtain ⟨d, hd⟩ : ∃ d, d = c.setFld R.PLN_FLIP F.PLN_FLIP_GO 0 := ⟨_, rfl⟩
  have hwfA : a.regsWf = true := by rw [ha]; exact State.setFld_regsWf _ _ _ _ hwf
  have hwfB : b.regsWf = true := by rw [hb]; exact State.setFld_regsWf _ _ _ _ hwfA
  have hwfC : c.regsWf = true := by rw [hc]; exact State.setFld_regsWf _ _ _ _ hwfB
  have hwfD : d.regsWf = true := by rw [hd]; exact State.setFld_regsWf _ _ _ _ hwfC
  have hreason : c.fld R.PLN_FLIP_STATUS F.PLN_FLIP_STATUS_REASON = reason % 256 := by
    rw [hc, State.fld_setFld_self _ _ _ _ hwfB (by decide)]
    rfl
  have hworker : c.fld R.PLN_FLIP_STATUS F.PLN_FLIP_STATUS_WORKER = worker % 1024 := by
    rw [hc, State.fld_setFld_of_disjoint _ _ _ _ _ hwfB (by decide) (by decide), hb, State.fld_setFld_self _ _ _ _ hwfA (by decide)]
    rfl
  have hstate : c.fld R.PLN_FLIP_STATUS F.PLN_FLIP_STATUS_STATE = state % 8 := by
    rw [hc, State.fld_setFld_of_disjoint _ _ _ _ _ hwfB (by decide) (by decide), hb,
      State.fld_setFld_of_disjoint _ _ _ _ _ hwfA (by decide) (by decide), ha, State.fld_setFld_self _ _ _ _ hwf (by decide)]
    rfl
  have hgo : d.flag R.PLN_FLIP F.PLN_FLIP_GO = false := by
    rw [hd, State.flag, State.fld_setFld_self _ _ _ _ hwfC (by decide)]
    decide
  have hstatus : d.rd R.PLN_FLIP_STATUS = c.rd R.PLN_FLIP_STATUS := by rw [hd, State.rd_setFld_of_ne _ _ _ (by decide)]
  have hrd (o : Nat) (h1 : o ≠ R.PLN_FLIP) (h2 : o ≠ R.PLN_FLIP_STATUS) : d.rd o = s.rd o := by
    rw [hd, State.rd_setFld_of_ne _ _ _ h1, hc, State.rd_setFld_of_ne _ _ _ h2, hb, State.rd_setFld_of_ne _ _ _ h2, ha,
      State.rd_setFld_of_ne _ _ _ h2]
  have hsame : SameButRegs s d := by
    rw [hd, hc, hb, ha]
    exact .trans (.trans (.trans (State.setFld_same ..) (State.setFld_same ..)) (State.setFld_same ..)) (State.setFld_same ..)
  rw [flipOver, ← ha, ← hb, ← hc, ← hd] at ht
  clear ha hb hc hd
  subst ht
  exact ⟨(State.fld_congr hstatus _).trans hstate, (State.fld_congr hstatus _).trans hworker, (State.fld_congr hstatus _).trans hreason, hgo, hrd,
    hwfD, by rw [hsame]⟩

/-- A flip that ends shows how, and its event is recorded. -/
theorem flipEnds_facts {s u t : State} (hwf : u.regsWf = true) (hhead : u.rd R.PLN_EVENT_HEAD = s.rd R.PLN_EVENT_HEAD) (f : ManagerFlip)
    {state worker reason : Nat} (hstate : state < 8) (ht : t = u.flipEnds f state worker reason) :
    t.fld R.PLN_FLIP_STATUS F.PLN_FLIP_STATUS_STATE = state ∧ t.fld R.PLN_FLIP_STATUS F.PLN_FLIP_STATUS_WORKER = worker % 1024 ∧
      t.fld R.PLN_FLIP_STATUS F.PLN_FLIP_STATUS_REASON = reason % 256 ∧ t.flag R.PLN_FLIP F.PLN_FLIP_GO = false ∧
      F.PLN_EVENT_KIND.get (t.rd (R.PLN_EVENT (s.fld R.PLN_EVENT_HEAD F.PLN_EVENT_HEAD_COUNT % 256))) = state + 5 ∧
      t = { u with regs := t.regs, pln.flip := none, out.msix := u.out.msix ++ [7], cnt := t.cnt } := by
  rw [flipEnds_eq] at ht
  obtain ⟨hst, hworker, hreason, hgo, hrdO, hwfO, hframeO⟩ := flipOver_facts hwf state worker reason rfl
  generalize flipOver u state worker reason = o at ht hst hworker hreason hgo hrdO hwfO hframeO
  obtain ⟨hword, -, hrd, hframe⟩ := plnEvent_facts hwfO ((hrdO _ (by decide) (by decide)).trans hhead) ht
  have hstatus := hrd R.PLN_FLIP_STATUS ⟨by decide, by decide⟩
  refine ⟨?_, (State.fld_congr hstatus _).trans hworker, (State.fld_congr hstatus _).trans hreason,
    (State.flag_congr (hrd R.PLN_FLIP ⟨by decide, by decide⟩) _).trans hgo, ?_, ?_⟩
  · rw [State.fld_congr hstatus, hst, Nat.mod_eq_of_lt hstate]
  · rw [hword, plnEventWord_kind]
    omega
  · rw [hframe, hframeO]

theorem exec_prepareDeadline {f : ManagerFlip} {s : State} (h : s.pln.flip = some f) :
    exec .prepareDeadline s = if f.committing ∨ s.mono < f.startedAt + 100000000 then .next s
      else .next (s.abortFlip f ((f.participants.find? fun n => !(f.ready.any fun x => x.1 == n)).getD 1023) 0) := by
  change execPrepareDeadline s = _
  rw [execPrepareDeadline, h]

theorem prepareDeadline_missing {f : ManagerFlip} {n : Nat} {s : State} (hwf : s.regsWf = true) (hflip : s.pln.flip = some f)
    (hnew : f.committing = false) (hdue : f.startedAt + 100000000 ≤ s.mono) (hparts : f.participants = [n, 1023]) (hn : n < 1023)
    (hready : (f.ready.any fun x => x.1 == n) = false) : Answers (exec .prepareDeadline s) fun t =>
      t.pln.flip = none ∧ t.fld R.PLN_FLIP_STATUS F.PLN_FLIP_STATUS_STATE = 4 ∧ t.fld R.PLN_FLIP_STATUS F.PLN_FLIP_STATUS_WORKER = n ∧
      t.fld R.PLN_FLIP_STATUS F.PLN_FLIP_STATUS_REASON = 0 ∧ t.flag R.PLN_FLIP F.PLN_FLIP_GO = false ∧ t.planeHolds = false ∧
      t.out.mgmt.length = s.out.mgmt.length + 2 ∧ t.out.msix = s.out.msix ++ [7] ∧
      F.PLN_EVENT_KIND.get (t.rd (R.PLN_EVENT (s.fld R.PLN_EVENT_HEAD F.PLN_EVENT_HEAD_COUNT % 256))) = 9 := by
  have hsend : f.toSend = [n] := by
    have hne : (n != 1023) = true := by simp; omega
    rw [ManagerFlip.toSend, hparts]
    simp [hne]
  have hfirst : (f.participants.find? fun n => !(f.ready.any fun x => x.1 == n)).getD 1023 = n := by
    rw [hparts, List.find?_cons_of_pos (by rw [hready]; rfl)]
    rfl
  have hexec : exec .prepareDeadline s =
      .next ((flipFreed (s.sendBoth n 6 (beBytes 2 f.id.toNat))).flipEnds f 4 n 0) := by
    rw [exec_prepareDeadline hflip]
    rw [if_neg (by rw [hnew]; simp; omega), hfirst, State.abortFlip, hsend]
    rfl
  rw [hexec]
  have hmails := s.sendBoth_mails n 6 (beBytes 2 f.id.toNat)
  generalize s.sendBoth n 6 (beBytes 2 f.id.toNat) = a at hmails ⊢
  have hwfA : a.regsWf = true := State.regsWf_congr hmails.regs hwf
  have hwfU := flipFreed_regsWf hwfA
  have hholds := flipFreed_holds a
  have hframeU := flipFreed_frame a
  have hhead : (flipFreed a).rd R.PLN_EVENT_HEAD = s.rd R.PLN_EVENT_HEAD :=
    (flipFreed_rd a (by decide)).trans (State.rd_congr hmails.regs _)
  generalize flipFreed a = u at hwfU hholds hframeU hhead ⊢
  obtain ⟨hstate, hworker, hreason, hgo, hkind, hframe⟩ := flipEnds_facts hwfU hhead f (state := 4) (worker := n) (reason := 0) (by decide) rfl
  generalize u.flipEnds f 4 n 0 = t at hstate hworker hreason hgo hkind hframe ⊢
  have houtU : u.out = a.out := by rw [hframeU]
  refine ⟨t, rfl, by rw [hframe], hstate, by rw [hworker]; omega, hreason, hgo, ?_, ?_, ?_, hkind⟩
  · rw [hframe]
    exact hholds
  · rw [hframe]
    dsimp only
    rw [houtU, hmails.length]
  · rw [hframe]
    dsimp only
    rw [houtU, hmails.frame]

theorem doneDeadline_ends {f : ManagerFlip} {s : State} (hflip : s.pln.flip = some f) (hcom : f.committing = true)
    (hdue : f.instant + 100000000 ≤ s.now) : ∃ state worker reason,
      exec .flipDoneDeadline s = .next (s.flipEnds f state worker reason) ∧
      state = (if f.bad.isSome = true ∨ (f.participants.all fun n => f.done.contains n) = false then 5 else 3) ∧
      ∀ n r, f.bad = some (n, r) → worker = n ∧ reason = r := by
  have hlate : ¬(f.committing = false ∨ s.now < f.instant + 100000000) := by rw [hcom]; simp; omega
  have hpast : ¬(f.committing = false ∨ s.now < f.instant) := by rw [hcom]; simp; omega
  change ∃ state worker reason, execFlipDoneDeadline s = _ ∧ _
  cases hbad : f.bad with
  | some x =>
    obtain ⟨n, r⟩ := x
    refine ⟨5, n, r, ?_, by simp, fun n' r' h => by cases h; exact ⟨rfl, rfl⟩⟩
    rw [execFlipDoneDeadline, hflip]
    dsimp only
    rw [if_neg hlate, hbad]
    dsimp only
    rw [State.flipSettle, hflip]
    dsimp only
    rw [if_neg hpast, hbad]
  | none =>
    cases hfind : f.participants.find? fun n => !f.done.contains n with
    | some n =>
      have hall : (f.participants.all fun n => f.done.contains n) = false := by
        rw [List.all_eq_false]
        exact ⟨n, List.mem_of_find?_eq_some hfind, by simpa using List.find?_some hfind⟩
      refine ⟨5, n, 0, ?_, by rw [hall]; simp, nofun⟩
      rw [execFlipDoneDeadline, hflip]
      dsimp only
      rw [if_neg hlate, hbad, hfind]
    | none =>
      have hall : (f.participants.all fun n => f.done.contains n) = true := by
        rw [List.all_eq_true]
        intro n hn
        simpa using List.find?_eq_none.1 hfind n hn
      refine ⟨3, 0, 0, ?_, by rw [hall]; simp, nofun⟩
      rw [execFlipDoneDeadline, hflip]
      dsimp only
      rw [if_neg hlate, hbad, hfind]
      dsimp only
      rw [State.flipSettle, hflip]
      dsimp only
      rw [if_neg hpast, hbad]
      dsimp only
      rw [if_pos hall]

/-! ## The Wellhead's load -/

/-- The load of a window is shown, and the run of windows of low load counted. -/
def loadShown (s : State) (n cool : Nat) : State := { s.setFld R.PLN_WH_LOAD F.PLN_WH_LOAD_LOAD n with pln.coolWindows := cool }

theorem loadShown_facts {s t : State} (hwf : s.regsWf = true) {n : Nat} (cool : Nat) (hn : n ≤ 100) (ht : t = loadShown s n cool) :
    t.fld R.PLN_WH_LOAD F.PLN_WH_LOAD_LOAD = n ∧ t.fld R.PLN_WH_LOAD F.PLN_WH_LOAD_LEVEL = s.fld R.PLN_WH_LOAD F.PLN_WH_LOAD_LEVEL ∧
      s.RegsBut t [R.PLN_WH_LOAD] ∧ t.regsWf = true ∧ t = { s with regs := t.regs, pln.coolWindows := cool } := by
  subst ht
  refine ⟨?_, s.fld_setFld_of_disjoint _ _ _ _ hwf (by decide) (by decide), State.setFld_regsBut (s := s) (by simp) _ _,
    s.setFld_regsWf _ _ _ hwf, rfl⟩
  exact (s.fld_setFld_self R.PLN_WH_LOAD F.PLN_WH_LOAD_LOAD n hwf (by decide)).trans (Nat.mod_eq_of_lt (by simp only; omega))

/-- A shed level that changes is recorded and raised. -/
theorem shedTo_facts {s u t : State} (hwf : u.regsWf = true) (hhead : u.rd R.PLN_EVENT_HEAD = s.rd R.PLN_EVENT_HEAD) {level : Nat}
    (hlevel : level < 4) (ht : t = u.shedTo level) :
    t.fld R.PLN_WH_LOAD F.PLN_WH_LOAD_LEVEL = level ∧ t.fld R.PLN_WH_LOAD F.PLN_WH_LOAD_LOAD = u.fld R.PLN_WH_LOAD F.PLN_WH_LOAD_LOAD ∧
      t.pln = u.pln ∧ t.out = { u.out with msix := u.out.msix ++ [7] } ∧
      t.rd (R.PLN_EVENT (s.fld R.PLN_EVENT_HEAD F.PLN_EVENT_HEAD_COUNT % 256)) =
        F.PLN_EVENT_KIND.put 0x11 ||| F.PLN_EVENT_WORKER.put 0x3FF ||| F.PLN_EVENT_PORT.put level := by
  have hset := u.fld_setFld_self R.PLN_WH_LOAD F.PLN_WH_LOAD_LEVEL level hwf (by decide)
  have hload := u.fld_setFld_of_disjoint R.PLN_WH_LOAD F.PLN_WH_LOAD_LEVEL F.PLN_WH_LOAD_LOAD level hwf (by decide) (by decide)
  have hheadV := u.rd_setFld_of_ne F.PLN_WH_LOAD_LEVEL level (show R.PLN_EVENT_HEAD ≠ R.PLN_WH_LOAD by decide)
  have hwfV := u.setFld_regsWf R.PLN_WH_LOAD F.PLN_WH_LOAD_LEVEL level hwf
  have hsame := u.setFld_same R.PLN_WH_LOAD F.PLN_WH_LOAD_LEVEL level
  rw [State.shedTo] at ht
  generalize u.setFld R.PLN_WH_LOAD F.PLN_WH_LOAD_LEVEL level = v at hset hload hheadV hwfV hsame ht
  obtain ⟨hword, -, hrd, hframe⟩ := plnEvent_facts hwfV (hheadV.trans hhead) ht
  have hshown := hrd R.PLN_WH_LOAD ⟨by decide, by decide⟩
  refine ⟨?_, (State.fld_congr hshown _).trans hload, ?_, ?_, hword.trans (plnEventWord_port ..)⟩
  · rw [State.fld_congr hshown, hset]
    exact Nat.mod_eq_of_lt (by simp only; omega)
  · rw [hframe, hsame]
  · rw [hframe, hsame]

theorem exec_loadWindow {load : BitVec 8} {s : State} {n level cool : Nat} (hn : n = min load.toNat 100)
    (hlevel : level = s.fld R.PLN_WH_LOAD F.PLN_WH_LOAD_LEVEL) (hcool : cool = if n < 70 then s.pln.coolWindows + 1 else 0) :
    exec (.loadWindow load) s = if 90 ≤ n ∧ level < 3 then .next ((loadShown s n cool).shedTo (level + 1))
      else if 10 ≤ cool then .next (if 0 < level then (loadShown s n 0).shedTo (level - 1) else loadShown s n 0)
      else .next (loadShown s n cool) := by
  subst hn hlevel hcool
  unfold loadShown
  rfl

/-- What a window of load shows. -/
theorem loadWindow_effect (load : BitVec 8) {s : State} (hwf : s.regsWf = true) : Answers (exec (.loadWindow load) s) fun t =>
      let level := s.fld R.PLN_WH_LOAD F.PLN_WH_LOAD_LEVEL
      let n := min load.toNat 100
      t.fld R.PLN_WH_LOAD F.PLN_WH_LOAD_LOAD = n ∧
      t.fld R.PLN_WH_LOAD F.PLN_WH_LOAD_LEVEL = (if 90 ≤ n ∧ level < 3 then level + 1
        else if n < 70 ∧ 9 ≤ s.pln.coolWindows then level - 1 else level) ∧
      t.pln.coolWindows = (if n < 70 ∧ s.pln.coolWindows < 9 then s.pln.coolWindows + 1 else 0) ∧
      t.pln = { s.pln with coolWindows := t.pln.coolWindows } ∧
      (t.fld R.PLN_WH_LOAD F.PLN_WH_LOAD_LEVEL = level → s.RegsBut t [R.PLN_WH_LOAD] ∧ t.out = s.out) ∧
      (t.fld R.PLN_WH_LOAD F.PLN_WH_LOAD_LEVEL ≠ level → t.out = { s.out with msix := s.out.msix ++ [7] } ∧
        t.rd (R.PLN_EVENT (s.fld R.PLN_EVENT_HEAD F.PLN_EVENT_HEAD_COUNT % 256)) = F.PLN_EVENT_KIND.put 0x11 |||
          F.PLN_EVENT_WORKER.put 0x3FF ||| F.PLN_EVENT_PORT.put (t.fld R.PLN_WH_LOAD F.PLN_WH_LOAD_LEVEL)) := by
  obtain ⟨n, hn⟩ : ∃ n, n = min load.toNat 100 := ⟨_, rfl⟩
  obtain ⟨level, hlevel⟩ : ∃ level, level = s.fld R.PLN_WH_LOAD F.PLN_WH_LOAD_LEVEL := ⟨_, rfl⟩
  obtain ⟨cool, hcool⟩ : ∃ cool, cool = if n < 70 then s.pln.coolWindows + 1 else 0 := ⟨_, rfl⟩
  have hlt : level < 4 := by rw [hlevel]; exact Fld.get_lt _ _
  have hn100 : n ≤ 100 := by omega
  rw [exec_loadWindow hn hlevel hcool, ← hn, ← hlevel]
  dsimp only
  -- A step that changes the level, whatever the run of windows.
  have hchanged (c new : Nat) (hnew : new < 4) (hne : new ≠ level) (t : State) (ht : t = (loadShown s n c).shedTo new) :
      t.fld R.PLN_WH_LOAD F.PLN_WH_LOAD_LOAD = n ∧ t.fld R.PLN_WH_LOAD F.PLN_WH_LOAD_LEVEL = new ∧ t.pln.coolWindows = c ∧
      t.pln = { s.pln with coolWindows := t.pln.coolWindows } ∧
      (t.fld R.PLN_WH_LOAD F.PLN_WH_LOAD_LEVEL = level → s.RegsBut t [R.PLN_WH_LOAD] ∧ t.out = s.out) ∧
      (t.fld R.PLN_WH_LOAD F.PLN_WH_LOAD_LEVEL ≠ level → t.out = { s.out with msix := s.out.msix ++ [7] } ∧
        t.rd (R.PLN_EVENT (s.fld R.PLN_EVENT_HEAD F.PLN_EVENT_HEAD_COUNT % 256)) = F.PLN_EVENT_KIND.put 0x11 |||
          F.PLN_EVENT_WORKER.put 0x3FF ||| F.PLN_EVENT_PORT.put (t.fld R.PLN_WH_LOAD F.PLN_WH_LOAD_LEVEL)) := by
    obtain ⟨hload, -, hbut, hwfL, hframe⟩ := loadShown_facts hwf c hn100 rfl
    generalize loadShown s n c = u at ht hload hbut hwfL hframe
    obtain ⟨hlev, hloadT, hpln, hout, hword⟩ := shedTo_facts hwfL (hbut _ (by decide)) hnew ht
    have hplnU : u.pln = { s.pln with coolWindows := c } := by rw [hframe]
    refine ⟨hloadT.trans hload, hlev, ?_, ?_, fun h => absurd (hlev.symm.trans h) hne, fun _ => ⟨?_, ?_⟩⟩
    · rw [hpln, hplnU]
    · rw [hpln, hplnU]
    · rw [hout, hframe]
    · rw [hword, hlev]
  -- A step that leaves the level.
  have hkept (c : Nat) (t : State) (ht : t = loadShown s n c) :
      t.fld R.PLN_WH_LOAD F.PLN_WH_LOAD_LOAD = n ∧ t.fld R.PLN_WH_LOAD F.PLN_WH_LOAD_LEVEL = level ∧ t.pln.coolWindows = c ∧
      t.pln = { s.pln with coolWindows := t.pln.coolWindows } ∧
      (t.fld R.PLN_WH_LOAD F.PLN_WH_LOAD_LEVEL = level → s.RegsBut t [R.PLN_WH_LOAD] ∧ t.out = s.out) ∧
      (t.fld R.PLN_WH_LOAD F.PLN_WH_LOAD_LEVEL ≠ level → t.out = { s.out with msix := s.out.msix ++ [7] } ∧
        t.rd (R.PLN_EVENT (s.fld R.PLN_EVENT_HEAD F.PLN_EVENT_HEAD_COUNT % 256)) = F.PLN_EVENT_KIND.put 0x11 |||
          F.PLN_EVENT_WORKER.put 0x3FF ||| F.PLN_EVENT_PORT.put (t.fld R.PLN_WH_LOAD F.PLN_WH_LOAD_LEVEL)) := by
    obtain ⟨hload, hlev, hbut, -, hframe⟩ := loadShown_facts hwf c hn100 ht
    rw [← hlevel] at hlev
    refine ⟨hload, hlev, ?_, ?_, fun _ => ⟨hbut, ?_⟩, fun h => absurd hlev h⟩ <;> rw [hframe]
  by_cases hhigh : 90 ≤ n ∧ level < 3
  · obtain ⟨h1, h2, h3, h4⟩ := hchanged cool (level + 1) (by omega) (by omega) _ rfl
    have hcoolZero : cool = 0 := by rw [hcool, if_neg (by omega)]
    rw [if_pos hhigh, if_pos hhigh, if_neg (by omega : ¬(n < 70 ∧ s.pln.coolWindows < 9))]
    exact ⟨_, rfl, h1, h2, h3.trans hcoolZero, h4⟩
  rw [if_neg hhigh, if_neg hhigh]
  by_cases hlong : 10 ≤ cool
  · have hlow : n < 70 := by
      by_contra hn70
      rw [hcool, if_neg hn70] at hlong
      omega
    rw [if_pos hlow] at hcool
    rw [if_pos hlong, if_pos (by omega : n < 70 ∧ 9 ≤ s.pln.coolWindows), if_neg (by omega : ¬(n < 70 ∧ s.pln.coolWindows < 9))]
    by_cases hpos : 0 < level
    · rw [if_pos hpos]
      exact ⟨_, rfl, hchanged 0 (level - 1) (by omega) (by omega) _ rfl⟩
    · rw [if_neg hpos]
      obtain ⟨h1, h2, h3⟩ := hkept 0 _ rfl
      exact ⟨_, rfl, h1, h2.trans (by omega), h3⟩
  · rw [if_neg hlong]
    obtain ⟨h1, h2, h3, h4⟩ := hkept cool _ rfl
    refine ⟨_, rfl, h1, h2.trans ?_, h3.trans ?_, h4⟩
    · rw [if_neg]
      rintro ⟨hlow, hnine⟩
      rw [if_pos hlow] at hcool
      omega
    · rw [hcool]
      by_cases hlow : n < 70
      · rw [if_pos hlow] at hcool ⊢
        rw [if_pos (by omega)]
      · rw [if_neg hlow, if_neg (by omega)]

/-! ## The statement -/

theorem heartbeatSend_all {s : State} (halive : s.planeAlive = true) (hact : s.acting = true) :
    Answers (exec .heartbeatSend s) fun t =>
    t.out.mgmt.length = s.out.mgmt.length + 2 * (s.workers.length + if s.otherMember = 0 then 0 else 1) ∧
    t.out = { s.out with mgmt := t.out.mgmt } ∧ t.out.mgmt.take s.out.mgmt.length = s.out.mgmt ∧
    t = { s with pln := { s.pln with sequence := t.pln.sequence }, out := t.out, free := t.free } := by
  rw [exec_heartbeatSend halive hact]
  obtain ⟨ms, seq, free, hlen, ht⟩ := State.Mails.foldl (fun u n => u.sendBoth_mails n 1 (heartbeatBody u n))
    (s.workers ++ if s.otherMember = 0 then [] else [1023]) s
  refine ⟨_, rfl, ?_, ?_, ?_, ?_⟩
  · rw [ht]
    dsimp only
    rw [List.length_append, hlen, List.length_append]
    split <;> rfl
  · rw [ht]
  · rw [ht]
    exact List.take_left
  · rw [ht]

theorem heartbeatSend_one {n : Nat} {s : State} (halive : s.planeAlive = true) (hact : s.acting = true) (hworkers : s.workers = [n])
    (hother : s.otherMember = 0) : exec .heartbeatSend s =
      .next ((s.plnSend 0 (s.workerId n) 1 (heartbeatBody s n)).plnSend 1 (s.workerId n) 1 (heartbeatBody s n)) := by
  rw [exec_heartbeatSend halive hact, hworkers, if_pos hother, List.append_nil, List.foldl_cons, List.foldl_nil, State.sendBoth,
    idOf_worker s (workers_lt (hworkers ▸ List.mem_singleton_self n))]

theorem deadlines_none {s : State} (h : s.pln.flip = none) : exec .prepareResend s = .next s ∧ exec .prepareDeadline s = .next s ∧
    exec .commitResend s = .next s ∧ exec .flipDoneDeadline s = .next s := by
  refine ⟨?_, ?_, ?_, ?_⟩
  · change execPrepareResend s = _
    rw [execPrepareResend, h]
  · change execPrepareDeadline s = _
    rw [execPrepareDeadline, h]
  · change execCommitResend s = _
    rw [execCommitResend, h]
  · change execFlipDoneDeadline s = _
    rw [execFlipDoneDeadline, h]

theorem exec_prepareResend {f : ManagerFlip} {s : State} (h : s.pln.flip = some f) :
    exec .prepareResend s = .next (if f.committing ∨ s.planeAlive = false then s else s.sendPrepare f) := by
  change execPrepareResend s = _
  rw [execPrepareResend, h]

theorem exec_commitResend {f : ManagerFlip} {s : State} (h : s.pln.flip = some f) :
    exec .commitResend s = .next (if f.committing = false ∨ f.instant ≤ s.now ∨ s.planeAlive = false then s else s.sendCommit f) := by
  change execCommitResend s = _
  rw [execCommitResend, h]

theorem doneDeadline_early {f : ManagerFlip} {s : State} (h : s.pln.flip = some f) (hno : f.committing = false ∨ s.now < f.instant + 100000000) :
    exec .flipDoneDeadline s = .next s := by
  change execFlipDoneDeadline s = _
  rw [execFlipDoneDeadline, h]
  exact if_pos hno

theorem pathSilence_nothing {port : Fin 2} {n : BitVec 10} {s : State} (hno : s.planeAlive = false ∨ (s.follows = true ∧ n ≠ 1023) ∨
    s.silent n.toNat port = false ∨ s.silent n.toNat (1 - port.val) = true ∨ s.pln.lostPaths.contains (heardKey n.toNat port) = true) :
    exec (.pathSilenceTimeout port n) s = .next s := by
  refine if_pos ?_
  rcases hno with h | ⟨hfollows, hn⟩ | h | h | h
  · exact .inl h
  · have hnat : n.toNat ≠ 1023 := fun h => hn (BitVec.eq_of_toNat_eq h)
    refine .inr (.inl ?_)
    rw [hfollows, if_pos rfl]
    simpa using hnat
  · exact .inr (.inr (.inl h))
  · exact .inr (.inr (.inr (.inl h)))
  · exact .inr (.inr (.inr (.inr h)))

theorem flipDone_effect {f : ManagerFlip} {s : State} (hwf : s.regsWf = true) (hflip : s.pln.flip = some f) (hcom : f.committing = true)
    (hdue : f.instant + 100000000 ≤ s.now) : Answers (exec .flipDoneDeadline s) fun t =>
      let st := if f.bad.isSome = true ∨ (f.participants.all fun n => f.done.contains n) = false then 5 else 3
      t.pln.flip = none ∧ t.fld R.PLN_FLIP_STATUS F.PLN_FLIP_STATUS_STATE = st ∧ t.flag R.PLN_FLIP F.PLN_FLIP_GO = false ∧
      (∀ n r, f.bad = some (n, r) → t.fld R.PLN_FLIP_STATUS F.PLN_FLIP_STATUS_WORKER = n % 1024 ∧
        t.fld R.PLN_FLIP_STATUS F.PLN_FLIP_STATUS_REASON = r % 256) ∧
      F.PLN_EVENT_KIND.get (t.rd (R.PLN_EVENT (s.fld R.PLN_EVENT_HEAD F.PLN_EVENT_HEAD_COUNT % 256))) = st + 5 ∧
      t = { s with regs := t.regs, pln := { s.pln with flip := none }, out := { s.out with msix := s.out.msix ++ [7] }, cnt := t.cnt } := by
  obtain ⟨state, worker, reason, hexec, hstate, hbad⟩ := doneDeadline_ends hflip hcom hdue
  have hlt : state < 8 := by rw [hstate]; split <;> decide
  rw [hexec]
  dsimp only
  rw [← hstate]
  obtain ⟨hst, hworker, hreason, hgo, hkind, hframe⟩ := flipEnds_facts hwf rfl f (worker := worker) (reason := reason) hlt rfl
  generalize s.flipEnds f state worker reason = t at hst hworker hreason hgo hkind hframe ⊢
  refine ⟨t, rfl, by rw [hframe], hst, hgo, fun n r h => ?_, hkind, hframe⟩
  obtain ⟨rfl, rfl⟩ := hbad n r h
  exact ⟨hworker, hreason⟩

/-- Settles O57. -/
theorem planeTimersAndFlips : Obligations.PlaneTimersAndFlips := by
  unfold Obligations.PlaneTimersAndFlips
  refine ⟨fun s hno => ⟨if_pos hno, if_pos (hno.imp id .inl)⟩, fun s => heartbeatSend_all, fun n s => heartbeatSend_one,
    fun s halive hact hother => if_pos (.inr (.inr hother)), fun s => exec_syncSend, fun s hno => ?_, fun s => managerSilence_effect,
    fun n s hno => if_pos hno, fun n s => workerSilence_effect, fun port n s => pathSilence_nothing, fun port s => pathSilence_manager,
    fun port n s => pathSilence_worker, fun s hno => congrArg Host.Outcome.next (if_pos hno), fun s => listenEnd_alone,
    fun s => listenEnd_heard, fun force s => promote_refused, fun force s => promote_granted, fun kind fromEpoch s => planeFlip_refused, ?_,
    fun s => deadlines_none, fun f s hflip hno => ?_, fun f n s hflip hnew halive hparts hn hready => ?_, fun f s hflip hno => ?_,
    fun f n s => prepareDeadline_missing, fun f s hflip hno => ?_, fun f n s hflip hcom hdue halive hparts hn hdone => ?_,
    fun f s => doneDeadline_early, fun f s => flipDone_effect, fun load s => loadWindow_effect load⟩
  · exact if_pos hno
  · rintro kind fromEpoch n s hwf hact hnone hlocked hlive rfl hepoch hrules hprep
    exact planeFlip_granted hwf hact hnone hlocked hlive hepoch hrules hprep
  · rw [exec_prepareResend hflip, if_pos hno]
  · rw [exec_prepareResend hflip, if_neg (by rw [hnew, halive]; decide), sendPrepare_one s hparts hn hready, State.sendBoth,
      idOf_worker s hn]
  · rw [exec_prepareDeadline hflip, if_pos hno]
  · rw [exec_commitResend hflip, if_pos hno]
  · rw [exec_commitResend hflip, if_neg (by rw [hcom, halive]; simp; omega), sendCommit_one s hparts hn hdone, State.sendBoth,
      idOf_worker s hn]

end Sys2Proof.Proofs
end

section
/-! PROOF. Counters, snapshots and their copies (spec/18). -/

namespace Sys2Proof.Proofs
open Sys2Proof Sys2Proof.Machine

/-! ## Stores that are made of another, element by element -/

/-- Elements set from a list leave a place that the list does not name. -/
theorem sget_foldl_sset_of_ne {α β : Type} [DecidableEq β] {e : β} {g : Nat → α → β} {l : Sparse α} {k : Nat} (h : ∀ x ∈ l, x.1 ≠ k) (m : Sparse β) :
    sget e (l.foldl (fun a x => sset e a x.1 (g x.1 x.2)) m) k = sget e m k :=
  foldl_keeps (P := fun a => sget e a k = sget e m k)
    (fun a x hx ha => (sget_sset_of_ne e e a _ fun hk => h x hx hk.symm).trans ha) rfl

theorem swfFrom_lt {α : Type} [DecidableEq α] {d : Nat → α} {lo : Nat} {l : Sparse α} (h : swfFrom d (some lo) l = true) : ∀ x ∈ l, lo < x.1 := by
  induction l generalizing lo with
  | nil => simp
  | cons y t ih =>
    obtain ⟨k, v⟩ := y
    simp only [swfFrom, Option.all_some, Bool.and_eq_true, decide_eq_true_eq] at h
    obtain ⟨⟨hlo, -⟩, ht⟩ := h
    intro x hx
    rcases List.mem_cons.1 hx with rfl | hx
    · exact hlo
    · exact hlo.trans (ih ht x hx)

/-- Elements set from a list in canonical form: each place that the list names reads as made of the list's element. -/
theorem sget_foldl_sset {α β : Type} [DecidableEq α] [DecidableEq β] {d : Nat → α} {e : β} (g : Nat → α → β) {lo : Option Nat} {l : Sparse α} (hl : swfFrom d lo l = true) {m : Sparse β}
    (hm : swf (fun _ => e) m = true) (k : Nat) (e' : α) : sget e (l.foldl (fun a x => sset e a x.1 (g x.1 x.2)) m) k =
      if k ∈ l.map Prod.fst then g k (sget e' l k) else sget e m k := by
  induction l generalizing lo m with
  | nil => rfl
  | cons y t ih =>
    obtain ⟨n, v⟩ := y
    simp only [swfFrom, Bool.and_eq_true, decide_eq_true_eq] at hl
    obtain ⟨-, ht⟩ := hl
    simp only [List.foldl_cons, List.map_cons, List.mem_cons]
    by_cases hk : k = n
    · subst hk
      rw [sget_foldl_sset_of_ne fun x hx => (swfFrom_lt ht x hx).ne', sget_sset_self _ _ hm, if_pos (.inl rfl)]
      simp [sget]
    · rw [ih ht (swf_sset (d := fun _ => e) hm), sget_sset_of_ne _ _ _ _ hk]
      simp only [hk, false_or, sget, if_false]

theorem sget_of_not_mem {α : Type} (e : α) {l : Sparse α} {k : Nat} (h : k ∉ l.map Prod.fst) : sget e l k = e := by
  induction l with
  | nil => rfl
  | cons y t ih =>
    obtain ⟨n, v⟩ := y
    rw [List.map_cons, List.mem_cons, not_or] at h
    rw [sget, if_neg h.1, ih h.2]

/-- A store made of another whole: every place reads as made of what it read. -/
theorem sget_made {α β : Type} [DecidableEq α] [DecidableEq β] {e : α} {e' : β} (g : Nat → α → β) {m : Sparse α} (hm : swf (fun _ => e) m = true) {k : Nat} (hg : g k e = e') :
    sget e' (m.foldl (fun a x => sset e' a x.1 (g x.1 x.2)) []) k = g k (sget e m k) := by
  rw [sget_foldl_sset g hm (m := []) rfl k e]
  split
  · rfl
  · next h => rw [sget_of_not_mem e h, hg, sget_nil]

/-- Every counter of a canonical store is changed. -/
theorem sget_mapCounters {f : Nat → Counter → Counter} {m : Sparse Counter} (hm : swf (fun _ => {}) m = true) {k : Nat} (hf : f k {} = {}) :
    sget {} (mapCounters f m) k = f k (sget {} m k) := by
  rw [mapCounters, sget_foldl_sset f hm hm k {}]
  split
  · rfl
  · next h => rw [sget_of_not_mem {} h, hf]

theorem swf_mapCounters {f : Nat → Counter → Counter} {m : Sparse Counter} (hm : swf (fun _ => {}) m = true) :
    swf (fun _ => {}) (mapCounters f m) = true :=
  foldl_keeps (P := fun a => swf (fun _ => ({} : Counter)) a = true) (fun _ _ _ ha => swf_sset (d := fun _ => ({} : Counter)) ha) hm

/-! ## Freezes -/

/-- Every counter of a store, visited. -/
def visited (m : Sparse Counter) : Sparse Counter := mapCounters (fun _ x => x.visit) m

/-- The words of a snapshot. -/
def frozenWords (m : Sparse Counter) : Sparse Word := m.foldl (fun a x => sset 0 a x.1 x.2.word) []

/-- The snapshot that a freeze begins to build. -/
def frozen (s : State) (notify periodic : Bool) : Snap :=
  { seq := 0, frozenAt := s.stamp, words := frozenWords (visited s.cnt.counters), notify := notify, periodic := periodic }

theorem freeze_eq (s : State) (notify periodic : Bool) : s.freeze notify periodic =
    ({ s with cnt := { s.cnt with counters := visited s.cnt.counters, building := some (frozen s notify periodic) } } : State).setFld
      R.CNT_SNAP_STATUS F.CNT_SNAP_STATUS_GATHERING 1 := by
  unfold State.freeze frozen frozenWords visited
  rfl

/-- A state in which every counter has been visited, and what the words of a snapshot show. -/
theorem freeze_facts {s t : State} (hwf : s.regsWf = true) (hc : swf (fun _ => {}) s.cnt.counters = true) (notify periodic : Bool)
    (ht : t = s.freeze notify periodic) :
    t.flag R.CNT_SNAP_STATUS F.CNT_SNAP_STATUS_GATHERING = true ∧
      (∀ f : Fld, f.lo + f.w ≤ F.CNT_SNAP_STATUS_GATHERING.lo ∨ F.CNT_SNAP_STATUS_GATHERING.lo + F.CNT_SNAP_STATUS_GATHERING.w ≤ f.lo →
        f.lo + f.w ≤ 64 → t.fld R.CNT_SNAP_STATUS f = s.fld R.CNT_SNAP_STATUS f) ∧
      t.cnt.building.map (fun n => (n.frozenAt, n.notify, n.periodic)) = some (s.stamp, notify, periodic) ∧
      (∀ k, sget {} t.cnt.counters k = (sget {} s.cnt.counters k).visit) ∧
      (∀ n, t.cnt.building = some n → ∀ k, sget 0 n.words k = (sget {} s.cnt.counters k).visit.word) ∧ t.regsWf = true ∧
      s.RegsBut t [R.CNT_SNAP_STATUS] ∧
      t = { s with regs := t.regs, cnt := { s.cnt with counters := t.cnt.counters, building := t.cnt.building } } := by
  have hvisit (k : Nat) : sget {} (visited s.cnt.counters) k = (sget {} s.cnt.counters k).visit := sget_mapCounters hc (by decide)
  have hwords (k : Nat) : sget 0 (frozenWords (visited s.cnt.counters)) k = (sget {} s.cnt.counters k).visit.word := by
    have h := sget_made (e' := (0 : Word)) (fun _ x => x.word) (swf_mapCounters (f := fun _ x => x.visit) hc) (k := k) (by decide)
    exact h.trans (congrArg Counter.word (hvisit k))
  rw [freeze_eq] at ht
  obtain ⟨u, hu⟩ : ∃ u, u =
    ({ s with cnt := { s.cnt with counters := visited s.cnt.counters, building := some (frozen s notify periodic) } } : State) := ⟨_, rfl⟩
  have htu : t = u.setFld R.CNT_SNAP_STATUS F.CNT_SNAP_STATUS_GATHERING 1 := by rw [ht, hu]
  have hregs : u.regs = s.regs := by rw [hu]
  have hcounters : u.cnt.counters = visited s.cnt.counters := by rw [hu]
  have hbuilding : u.cnt.building = some (frozen s notify periodic) := by rw [hu]
  have hframe : u = { s with cnt := { s.cnt with counters := u.cnt.counters, building := u.cnt.building } } := by rw [hu]
  clear hu ht
  have hwfU : u.regsWf = true := State.regsWf_congr hregs hwf
  have hsame : SameButRegs u t := by rw [htu]; exact State.setFld_same ..
  have hcnt : t.cnt = u.cnt := by rw [hsame]
  refine ⟨?_, fun f hd hf => ?_, ?_, fun k => ?_, fun n hn k => ?_, ?_, ?_, ?_⟩
  · rw [htu, State.flag, State.fld_setFld_self _ _ _ _ hwfU (by decide)]
    decide
  · rw [htu, State.fld_setFld_of_disjoint _ _ _ _ _ hwfU hd hf, State.fld_congr (State.rd_congr hregs _)]
  · rw [hcnt, hbuilding]
    rfl
  · rw [hcnt, hcounters, hvisit]
  · rw [hcnt, hbuilding] at hn
    cases hn
    exact hwords k
  · rw [htu]
    exact State.setFld_regsWf _ _ _ _ hwfU
  · rw [htu]
    exact (State.RegsBut.of_regs hregs _).setFld (by simp) _ _
  · rw [hsame, hframe]

/-! ## Requests -/

/-- The answer to a request: its result, and GO reads 0. -/
theorem snapResult_facts {s t : State} (hwf : s.regsWf = true) {r : Nat} (hr : r < 4) (ht : t = s.snapResult r) :
    t.fld R.CNT_SNAP_STATUS F.CNT_SNAP_STATUS_RESULT = r ∧ t.flag R.CNT_SNAP F.CNT_SNAP_GO = false ∧ t.snapState = s.snapState ∧
      t.flag R.CNT_SNAP_STATUS F.CNT_SNAP_STATUS_GATHERING = s.flag R.CNT_SNAP_STATUS F.CNT_SNAP_STATUS_GATHERING ∧
      s.RegsBut t [R.CNT_SNAP, R.CNT_SNAP_STATUS] ∧ SameButRegs s t := by
  have hset := s.fld_setFld_self R.CNT_SNAP_STATUS F.CNT_SNAP_STATUS_RESULT r hwf (by decide)
  have hother (f : Fld) := s.fld_setFld_of_disjoint R.CNT_SNAP_STATUS F.CNT_SNAP_STATUS_RESULT f r hwf
  have hbut : s.RegsBut (s.setFld R.CNT_SNAP_STATUS F.CNT_SNAP_STATUS_RESULT r) [R.CNT_SNAP, R.CNT_SNAP_STATUS] :=
    State.setFld_regsBut (by simp) _ _
  have hwfA := s.setFld_regsWf R.CNT_SNAP_STATUS F.CNT_SNAP_STATUS_RESULT r hwf
  have hsame := s.setFld_same R.CNT_SNAP_STATUS F.CNT_SNAP_STATUS_RESULT r
  rw [State.snapResult] at ht
  generalize s.setFld R.CNT_SNAP_STATUS F.CNT_SNAP_STATUS_RESULT r = a at hset hother hbut hwfA hsame ht
  have hstatus : t.rd R.CNT_SNAP_STATUS = a.rd R.CNT_SNAP_STATUS := by rw [ht, State.rd_setFld_of_ne _ _ _ (by decide)]
  refine ⟨?_, ?_, ?_, ?_, ?_, ?_⟩
  · rw [State.fld_congr hstatus, hset]
    exact Nat.mod_eq_of_lt (by simp only; omega)
  · rw [ht, State.flag, State.fld_setFld_self _ _ _ _ hwfA (by decide)]
    decide
  · rw [State.snapState, State.fld_congr hstatus, hother _ (by decide) (by decide), State.snapState]
  · rw [State.flag, State.fld_congr hstatus, hother _ (by decide) (by decide), State.flag]
  · rw [ht]
    exact hbut.setFld (by simp) _ _
  · rw [ht]
    exact hsame.trans (State.setFld_same ..)

/-- A request for a snapshot is written in some registers, and nothing else is done. -/
def Requested (l : List Nat) (s a : State) : Prop := a.regsWf = true ∧ s.RegsBut a l ∧ SameButRegs s a

section
variable {l : List Nat} {s a t : State}

theorem Requested.state (h : Requested l s a) (hl : R.CNT_SNAP_STATUS ∉ l := by decide) : a.snapState = s.snapState :=
  State.fld_congr (h.2.1 _ hl) _

theorem Requested.cnt (h : Requested l s a) : a.cnt = s.cnt := by rw [h.2.2]

theorem Requested.tim (h : Requested l s a) : a.tim = s.tim := by rw [h.2.2]

theorem Requested.stamp (h : Requested l s a) : a.stamp = s.stamp := by
  rw [State.stamp, State.nowSec, State.nowNano, h.tim, State.stamp, State.nowSec, State.nowNano]

theorem Requested.instant (h : Requested l s a) (w : Word) : instantNs a w = instantNs s w := by
  have hsec : a.nowSec = s.nowSec := by rw [State.nowSec, h.tim, State.nowSec]
  unfold instantNs
  rw [hsec]

theorem Requested.instantOk (h : Requested l s a) (w : Word) : a.snapInstantOk w = s.snapInstantOk w := by
  have hnow : a.now = s.now := by rw [State.now, State.nowSec, State.nowNano, h.tim, State.now, State.nowSec, State.nowNano]
  unfold State.snapInstantOk
  rw [h.instant, hnow]

theorem Requested.refl (hwf : s.regsWf = true) : Requested l s s := ⟨hwf, .refl _ _, .refl _⟩

theorem Requested.setFld (h : Requested l s a) {off : Nat} (f : Fld) (v : Nat) (hl : off ∈ l := by simp) : Requested l s (a.setFld off f v) :=
  ⟨State.setFld_regsWf _ _ _ _ h.1, h.2.1.setFld hl _ _, h.2.2.trans (State.setFld_same ..)⟩

theorem Requested.wr (h : Requested l s a) {off : Nat} (w : Word) (hl : off ∈ l := by simp) : Requested l s (a.wr off w) :=
  ⟨State.wr_regsWf _ _ _ h.1, h.2.1.wr hl _, h.2.2.trans (State.wr_same ..)⟩

theorem Requested.fields (hwf : s.regsWf = true) (mode : Nat) (notify : Bool) (hl : R.CNT_SNAP ∈ l := by simp) :
    Requested l s (s.snapFields mode notify) := ((Requested.refl hwf).setFld _ _ hl).setFld _ _ hl

/-- A request that is refused with a result. -/
theorem Requested.refused (h : Requested l s a) {r : Nat} (hr : r < 4) (ht : t = a.snapResult r) (hl : R.CNT_SNAP_STATUS ∉ l := by decide) :
    t.fld R.CNT_SNAP_STATUS F.CNT_SNAP_STATUS_RESULT = r ∧ t.flag R.CNT_SNAP F.CNT_SNAP_GO = false ∧ t.snapState = s.snapState ∧
      s.RegsBut t (R.CNT_SNAP :: R.CNT_SNAP_STATUS :: l) ∧ t.rd R.CNT_SNAP_TIME = a.rd R.CNT_SNAP_TIME ∧ SameButRegs s t := by
  obtain ⟨hresult, hgo, hstate, -, hbut, hsame⟩ := snapResult_facts h.1 hr ht
  exact ⟨hresult, hgo, hstate.trans (h.state hl), (h.2.1.mono (by simp)).trans (hbut.mono (by simp)), hbut _ (by decide), h.2.2.trans hsame⟩

end

theorem snapNow_busy {notify : Bool} {s : State} (hwf : s.regsWf = true) (hbusy : s.snapState = 1 ∨ s.cnt.building.isSome = true) :
    Answers (exec (.snapNow notify) s) fun t =>
      t.fld R.CNT_SNAP_STATUS F.CNT_SNAP_STATUS_RESULT = 1 ∧ t.flag R.CNT_SNAP F.CNT_SNAP_GO = false ∧
      s.RegsBut t [R.CNT_SNAP, R.CNT_SNAP_STATUS] ∧ t = { s with regs := t.regs } := by
  have h : Requested [R.CNT_SNAP] s (s.snapFields 0 notify) := .fields hwf 0 notify
  change Answers (Host.Outcome.next (s.snapNow notify)) _
  rw [State.snapNow]
  generalize s.snapFields 0 notify = a at h ⊢
  rw [if_pos (by rw [h.state, h.cnt]; exact hbusy)]
  obtain ⟨hresult, hgo, -, hbut, -, hsame⟩ := h.refused (r := 1) (by decide) rfl
  exact ⟨_, rfl, hresult, hgo, hbut.mono (by simp), hsame⟩

theorem snapNow_freezes {notify : Bool} {s : State} (hwf : s.regsWf = true) (hstate : s.snapState ≠ 1) (hidle : s.cnt.building = none)
    (hc : swf (fun _ => {}) s.cnt.counters = true) : Answers (exec (.snapNow notify) s) fun t =>
      t.fld R.CNT_SNAP_STATUS F.CNT_SNAP_STATUS_RESULT = 0 ∧ t.flag R.CNT_SNAP_STATUS F.CNT_SNAP_STATUS_GATHERING = true ∧
      t.flag R.CNT_SNAP F.CNT_SNAP_GO = false ∧ t.cnt.building.map (fun n => (n.frozenAt, n.notify, n.periodic)) = some (s.stamp, notify, false) ∧
      (∀ k, sget {} t.cnt.counters k = (sget {} s.cnt.counters k).visit) ∧
      (∀ n, t.cnt.building = some n → ∀ k, sget 0 n.words k = (sget {} s.cnt.counters k).visit.word) ∧ t.cnt.published = s.cnt.published ∧
      s.RegsBut t [R.CNT_SNAP, R.CNT_SNAP_STATUS] ∧
      t = { s with regs := t.regs, cnt := { s.cnt with counters := t.cnt.counters, building := t.cnt.building } } := by
  have h : Requested [R.CNT_SNAP] s (s.snapFields 0 notify) := .fields hwf 0 notify
  change Answers (Host.Outcome.next (s.snapNow notify)) _
  rw [State.snapNow]
  generalize s.snapFields 0 notify = a at h ⊢
  dsimp only
  rw [if_neg (by rw [h.state, h.cnt, hidle]; simpa using hstate)]
  obtain ⟨hgather, -, hmap, hcounters, hwords, hwfV, hbut, hframe⟩ := freeze_facts h.1 (by rw [h.cnt]; exact hc) notify false rfl
  generalize a.freeze notify false = v at hgather hmap hcounters hwords hwfV hbut hframe ⊢
  obtain ⟨hresult, hgo, -, hgatherT, hbutT, hsame⟩ := snapResult_facts hwfV (r := 0) (by decide) rfl
  generalize v.snapResult 0 = t at hresult hgo hgatherT hbutT hsame ⊢
  have hcnt : t.cnt = v.cnt := by rw [hsame]
  rw [h.cnt] at hcounters hwords
  rw [h.stamp] at hmap
  refine ⟨t, rfl, hresult, hgatherT.trans hgather, hgo, by rw [hcnt, hmap], by rw [hcnt]; exact hcounters, by rw [hcnt]; exact hwords, ?_,
    ((h.2.1.mono (by simp)).trans (hbut.mono (by simp))).trans hbutT, ?_⟩
  · rw [hcnt, hframe]
    dsimp only
    rw [h.cnt]
  · rw [hsame, hframe, h.2.2]

theorem snapAt_refused {notify : Bool} {instant : Word} {s : State} (hwf : s.regsWf = true)
    (hno : s.snapState ≠ 0 ∨ s.cnt.building.isSome = true ∨ s.snapInstantOk instant = false) : Answers (exec (.snapAtInstant notify instant) s) fun t =>
      t.fld R.CNT_SNAP_STATUS F.CNT_SNAP_STATUS_RESULT = (if s.snapState ≠ 0 ∨ s.cnt.building.isSome = true then 1 else 2) ∧
      t.snapState = s.snapState ∧ t.rd R.CNT_SNAP_TIME = instant ∧ s.RegsBut t [R.CNT_SNAP, R.CNT_SNAP_STATUS, R.CNT_SNAP_TIME] ∧
      t = { s with regs := t.regs } := by
  have hf : Requested [R.CNT_SNAP, R.CNT_SNAP_TIME] s (s.snapFields 1 notify) := .fields hwf 1 notify
  have h := hf.wr (off := R.CNT_SNAP_TIME) instant
  have htime := (s.snapFields 1 notify).rd_wr_self R.CNT_SNAP_TIME instant hf.1
  change Answers (Host.Outcome.next (s.snapAt notify instant)) _
  rw [State.snapAt]
  generalize (s.snapFields 1 notify).wr R.CNT_SNAP_TIME instant = a at h htime ⊢
  dsimp only
  rw [h.state, h.cnt, h.instantOk]
  by_cases hbusy : s.snapState ≠ 0 ∨ s.cnt.building.isSome = true
  · rw [if_pos hbusy, if_pos hbusy]
    obtain ⟨hresult, -, hstate, hbut, htimeT, hsame⟩ := h.refused (r := 1) (by decide) rfl
    exact ⟨_, rfl, hresult, hstate, htimeT.trans htime, hbut.mono (by simp), hsame⟩
  · rw [if_neg hbusy, if_neg hbusy, if_pos (by tauto)]
    obtain ⟨hresult, -, hstate, hbut, htimeT, hsame⟩ := h.refused (r := 2) (by decide) rfl
    exact ⟨_, rfl, hresult, hstate, htimeT.trans htime, hbut.mono (by simp), hsame⟩

/-- A request that is accepted: STATE and the instants that wait. -/
theorem Requested.accepted {l : List Nat} {s a t : State} {c : Cnt} {st : Nat} (h : Requested l s a) (hst : st < 4)
    (ht : t = (State.setFld { a with cnt := c } R.CNT_SNAP_STATUS F.CNT_SNAP_STATUS_STATE st).snapResult 0) :
    t.fld R.CNT_SNAP_STATUS F.CNT_SNAP_STATUS_RESULT = 0 ∧ t.snapState = st ∧ t.cnt = c ∧
      s.RegsBut t (R.CNT_SNAP :: R.CNT_SNAP_STATUS :: l) ∧ t = { s with regs := t.regs, cnt := t.cnt } := by
  have hset := State.fld_setFld_self { a with cnt := c } R.CNT_SNAP_STATUS F.CNT_SNAP_STATUS_STATE st h.1 (by decide)
  have hbutV : State.RegsBut { a with cnt := c } (State.setFld { a with cnt := c } R.CNT_SNAP_STATUS F.CNT_SNAP_STATUS_STATE st)
    (R.CNT_SNAP :: R.CNT_SNAP_STATUS :: l) := State.setFld_regsBut (by simp) _ _
  have hwfV := State.setFld_regsWf { a with cnt := c } R.CNT_SNAP_STATUS F.CNT_SNAP_STATUS_STATE st h.1
  have hsameV := State.setFld_same { a with cnt := c } R.CNT_SNAP_STATUS F.CNT_SNAP_STATUS_STATE st
  generalize State.setFld { a with cnt := c } R.CNT_SNAP_STATUS F.CNT_SNAP_STATUS_STATE st = v at hset hbutV hwfV hsameV ht
  obtain ⟨hresult, -, hstate, -, hbut, hsame⟩ := snapResult_facts hwfV (r := 0) (by decide) ht
  have hcnt : t.cnt = c := by rw [hsame, hsameV]
  refine ⟨hresult, ?_, hcnt, ?_, ?_⟩
  · rw [hstate, State.snapState, hset]
    exact Nat.mod_eq_of_lt (by simp only; omega)
  · exact ((h.2.1.mono (by simp)).trans hbutV).trans (hbut.mono (by simp))
  · rw [hcnt, hsame, hsameV, h.2.2]

theorem snapAt_accepted {notify : Bool} {instant : Word} {s : State} (hwf : s.regsWf = true) (hstate : s.snapState = 0)
    (hidle : s.cnt.building = none) (hok : s.snapInstantOk instant = true) : Answers (exec (.snapAtInstant notify instant) s) fun t =>
      t.fld R.CNT_SNAP_STATUS F.CNT_SNAP_STATUS_RESULT = 0 ∧ t.snapState = 1 ∧
      t.cnt = { s.cnt with nextAt := instantNs s instant, notify := notify } ∧
      s.RegsBut t [R.CNT_SNAP, R.CNT_SNAP_STATUS, R.CNT_SNAP_TIME] ∧ t = { s with regs := t.regs, cnt := t.cnt } := by
  have h := (Requested.fields (l := [R.CNT_SNAP, R.CNT_SNAP_TIME]) hwf 1 notify).wr (off := R.CNT_SNAP_TIME) instant
  change Answers (Host.Outcome.next (s.snapAt notify instant)) _
  rw [State.snapAt]
  generalize (s.snapFields 1 notify).wr R.CNT_SNAP_TIME instant = a at h ⊢
  dsimp only
  rw [h.state, h.cnt, h.instantOk, h.instant, if_neg (by rw [hstate, hidle]; decide), if_neg (by rw [hok]; decide)]
  obtain ⟨hresult, hst, hcnt, hbut, hframe⟩ := h.accepted (c := { s.cnt with nextAt := instantNs s instant, notify := notify }) (st := 1)
    (by decide) rfl
  exact ⟨_, rfl, hresult, hst, hcnt, hbut.mono (by simp), hframe⟩

/-- A periodic request in its registers. -/
def everyTaken (s : State) (notify : Bool) (instant : Word) (periodMs : Nat) : State :=
  ((s.snapFields 2 notify).wr R.CNT_SNAP_TIME instant).setFld R.CNT_SNAP F.CNT_SNAP_PERIOD_MS periodMs

theorem everyTaken_requested {s : State} (hwf : s.regsWf = true) (notify : Bool) (instant : Word) (periodMs : Nat) :
    Requested [R.CNT_SNAP, R.CNT_SNAP_TIME] s (everyTaken s notify instant periodMs) :=
  ((Requested.fields hwf 2 notify).wr instant).setFld _ _

theorem exec_snapPeriodic {notify : Bool} {instant : Word} {periodMs : BitVec 32} {s a : State}
    (ha : a = everyTaken s notify instant periodMs.toNat) : exec (.snapPeriodic notify instant periodMs) s =
      .next (if a.snapState ≠ 0 ∨ a.cnt.building.isSome then a.snapResult 1
        else if a.snapInstantOk instant = false then a.snapResult 2
        else if periodMs.toNat < 10 ∨ 3600000 < periodMs.toNat then a.snapResult 3
        else (State.setFld { a with cnt := { a.cnt with
          nextAt := instantNs a instant, periodMs := periodMs.toNat, notify := notify, series := 0 } } R.CNT_SNAP_STATUS
            F.CNT_SNAP_STATUS_STATE 2).snapResult 0) := by
  subst ha
  change Host.Outcome.next (s.snapEvery notify instant periodMs.toNat) = _
  rw [State.snapEvery]
  rfl

theorem snapEvery_refused {notify : Bool} {instant : Word} {periodMs : BitVec 32} {s : State} (hwf : s.regsWf = true)
    (hno : s.snapState ≠ 0 ∨ s.cnt.building.isSome = true ∨ s.snapInstantOk instant = false ∨ periodMs.toNat < 10 ∨ 3600000 < periodMs.toNat) :
    Answers (exec (.snapPeriodic notify instant periodMs) s) fun t =>
      t.fld R.CNT_SNAP_STATUS F.CNT_SNAP_STATUS_RESULT = (if s.snapState ≠ 0 ∨ s.cnt.building.isSome = true then 1
        else if s.snapInstantOk instant = false then 2 else 3) ∧
      t.snapState = s.snapState ∧ s.RegsBut t [R.CNT_SNAP, R.CNT_SNAP_STATUS, R.CNT_SNAP_TIME] ∧ t = { s with regs := t.regs } := by
  have h := everyTaken_requested hwf notify instant periodMs.toNat
  rw [exec_snapPeriodic rfl]
  generalize everyTaken s notify instant periodMs.toNat = a at h ⊢
  rw [h.state, h.cnt, h.instantOk]
  have hend (r : Nat) (hr : r < 4) (t : State) (ht : t = a.snapResult r) : t.fld R.CNT_SNAP_STATUS F.CNT_SNAP_STATUS_RESULT = r ∧
      t.snapState = s.snapState ∧ s.RegsBut t [R.CNT_SNAP, R.CNT_SNAP_STATUS, R.CNT_SNAP_TIME] ∧ t = { s with regs := t.regs } := by
    obtain ⟨hresult, -, hstate, hbut, -, hsame⟩ := h.refused hr ht
    exact ⟨hresult, hstate, hbut.mono (by simp), hsame⟩
  by_cases hbusy : s.snapState ≠ 0 ∨ s.cnt.building.isSome = true
  · rw [if_pos hbusy, if_pos hbusy]
    exact ⟨_, rfl, hend 1 (by decide) _ rfl⟩
  rw [if_neg hbusy, if_neg hbusy]
  by_cases hok : s.snapInstantOk instant = false
  · rw [if_pos hok, if_pos hok]
    exact ⟨_, rfl, hend 2 (by decide) _ rfl⟩
  rw [if_neg hok, if_neg hok, if_pos (by tauto)]
  exact ⟨_, rfl, hend 3 (by decide) _ rfl⟩

theorem snapEvery_accepted {notify : Bool} {instant : Word} {periodMs : BitVec 32} {s : State} (hwf : s.regsWf = true)
    (hstate : s.snapState = 0) (hidle : s.cnt.building = none) (hok : s.snapInstantOk instant = true) (hlow : 10 ≤ periodMs.toNat)
    (hhigh : periodMs.toNat ≤ 3600000) : Answers (exec (.snapPeriodic notify instant periodMs) s) fun t =>
      t.fld R.CNT_SNAP_STATUS F.CNT_SNAP_STATUS_RESULT = 0 ∧ t.snapState = 2 ∧
      t.cnt = { s.cnt with nextAt := instantNs s instant, periodMs := periodMs.toNat, notify := notify, series := 0 } ∧
      s.RegsBut t [R.CNT_SNAP, R.CNT_SNAP_STATUS, R.CNT_SNAP_TIME] ∧ t = { s with regs := t.regs, cnt := t.cnt } := by
  have h := everyTaken_requested hwf notify instant periodMs.toNat
  rw [exec_snapPeriodic rfl]
  generalize everyTaken s notify instant periodMs.toNat = a at h ⊢
  rw [h.state, h.cnt, h.instantOk, h.instant, if_neg (by rw [hstate, hidle]; decide), if_neg (by rw [hok]; decide), if_neg (by omega)]
  obtain ⟨hresult, hst, hcnt, hbut, hframe⟩ := h.accepted
    (c := { s.cnt with nextAt := instantNs s instant, periodMs := periodMs.toNat, notify := notify, series := 0 }) (st := 2) (by decide) rfl
  exact ⟨_, rfl, hresult, hst, hcnt, hbut.mono (by simp), hframe⟩

theorem exec_snapStop (s : State) : exec .snapStop s = .next
    (if (s.setFld R.CNT_SNAP F.CNT_SNAP_MODE 3).snapState = 1 ∨ (s.setFld R.CNT_SNAP F.CNT_SNAP_MODE 3).cnt.building.isSome then
      (s.setFld R.CNT_SNAP F.CNT_SNAP_MODE 3).snapResult 1
    else ((s.setFld R.CNT_SNAP F.CNT_SNAP_MODE 3).setFld R.CNT_SNAP_STATUS F.CNT_SNAP_STATUS_STATE 0).snapResult 0) := by
  change Host.Outcome.next s.snapStop = _
  rw [State.snapStop]

theorem snapStop_busy {s : State} (hwf : s.regsWf = true) (hbusy : s.snapState = 1 ∨ s.cnt.building.isSome = true) :
    Answers (exec .snapStop s) fun t => t.snapState = s.snapState ∧ t.fld R.CNT_SNAP_STATUS F.CNT_SNAP_STATUS_RESULT = 1 ∧
      s.RegsBut t [R.CNT_SNAP, R.CNT_SNAP_STATUS] ∧ t = { s with regs := t.regs } := by
  have h := (Requested.refl (l := [R.CNT_SNAP]) hwf).setFld (off := R.CNT_SNAP) F.CNT_SNAP_MODE 3
  rw [exec_snapStop]
  generalize s.setFld R.CNT_SNAP F.CNT_SNAP_MODE 3 = a at h ⊢
  rw [if_pos (by rw [h.state, h.cnt]; exact hbusy)]
  obtain ⟨hresult, -, hstate, hbut, -, hsame⟩ := h.refused (r := 1) (by decide) rfl
  exact ⟨_, rfl, hstate, hresult, hbut.mono (by simp), hsame⟩

theorem snapStop_ends {s : State} (hwf : s.regsWf = true) (hstate : s.snapState ≠ 1) (hidle : s.cnt.building = none) :
    Answers (exec .snapStop s) fun t => t.snapState = 0 ∧ t.fld R.CNT_SNAP_STATUS F.CNT_SNAP_STATUS_RESULT = 0 ∧
      s.RegsBut t [R.CNT_SNAP, R.CNT_SNAP_STATUS] ∧ t = { s with regs := t.regs } := by
  have h := (Requested.refl (l := [R.CNT_SNAP]) hwf).setFld (off := R.CNT_SNAP) F.CNT_SNAP_MODE 3
  rw [exec_snapStop]
  generalize s.setFld R.CNT_SNAP F.CNT_SNAP_MODE 3 = a at h ⊢
  rw [if_neg (by rw [h.state, h.cnt, hidle]; simpa using hstate)]
  obtain ⟨hresult, hst, hcnt, hbut, hframe⟩ := h.accepted (c := a.cnt) (st := 0) (by decide) rfl
  generalize (State.setFld { a with cnt := a.cnt } R.CNT_SNAP_STATUS F.CNT_SNAP_STATUS_STATE 0).snapResult 0 = t
    at hresult hst hcnt hbut hframe ⊢
  refine ⟨t, rfl, hst, hresult, hbut.mono (by simp), ?_⟩
  rw [hcnt, h.cnt] at hframe
  exact hframe

/-! ## Freezes that are due -/

theorem exec_snapshotFreeze (s : State) : exec .snapshotFreeze s = .next s.freezeDue := rfl

theorem freezeDue_once {s : State} (hstate : s.snapState = 1) (hdue : s.cnt.nextAt ≤ s.now) :
    s.freezeDue = (s.freeze s.cnt.notify false).setFld R.CNT_SNAP_STATUS F.CNT_SNAP_STATUS_STATE 0 := by
  rw [State.freezeDue, if_neg (by rw [hstate]; simp; omega), if_pos hstate]

/-- The series goes on at an instant. -/
def seriesAt (s : State) (n : Nat) : State := { s with cnt.nextAt := n }

theorem seriesAt_frame (s : State) (n : Nat) : seriesAt s n = { s with cnt := (seriesAt s n).cnt } := by rw [seriesAt]

theorem seriesAt_cnt (s : State) (n : Nat) : (seriesAt s n).cnt = { s.cnt with nextAt := n } := by rw [seriesAt]

theorem seriesAt_regs (s : State) (n : Nat) : (seriesAt s n).regs = s.regs := by rw [seriesAt]

/-- The next instant of a series. -/
def nextFreeze (s : State) : Nat := s.cnt.nextAt + s.cnt.periodMs * 1000000

theorem freezeDue_series {s : State} (hstate : s.snapState = 2) (hdue : s.cnt.nextAt ≤ s.now) :
    s.freezeDue = if s.cnt.building.isSome then (seriesAt s (nextFreeze s)).incSat R.CNT_SNAP_STATUS F.CNT_SNAP_STATUS_SKIPPED
      else (seriesAt s (nextFreeze s)).freeze (seriesAt s (nextFreeze s)).cnt.notify true := by
  rw [State.freezeDue, if_neg (by rw [hstate]; simp; omega), if_neg (by rw [hstate]; decide)]
  unfold seriesAt nextFreeze
  rfl

theorem snapshotFreeze_once {s : State} (hwf : s.regsWf = true) (hstate : s.snapState = 1) (hdue : s.cnt.nextAt ≤ s.now)
    (hc : swf (fun _ => {}) s.cnt.counters = true) : Answers (exec .snapshotFreeze s) fun t =>
      t.snapState = 0 ∧ t.cnt.nextAt = s.cnt.nextAt ∧
      t.cnt.building.map (fun n => (n.frozenAt, n.notify, n.periodic)) = some (s.stamp, s.cnt.notify, false) ∧
      (∀ k, sget {} t.cnt.counters k = (sget {} s.cnt.counters k).visit) ∧
      (∀ n, t.cnt.building = some n → ∀ k, sget 0 n.words k = (sget {} s.cnt.counters k).visit.word) ∧
      t.flag R.CNT_SNAP_STATUS F.CNT_SNAP_STATUS_GATHERING = true ∧ s.RegsBut t [R.CNT_SNAP_STATUS] ∧
      t = { s with regs := t.regs, cnt := { s.cnt with counters := t.cnt.counters, building := t.cnt.building, nextAt := t.cnt.nextAt } } := by
  rw [exec_snapshotFreeze, freezeDue_once hstate hdue]
  obtain ⟨hgather, -, hmap, hcounters, hwords, hwfV, hbut, hframe⟩ := freeze_facts hwf hc s.cnt.notify false rfl
  generalize s.freeze s.cnt.notify false = v at hgather hmap hcounters hwords hwfV hbut hframe ⊢
  have hset := v.fld_setFld_self R.CNT_SNAP_STATUS F.CNT_SNAP_STATUS_STATE 0 hwfV (by decide)
  have hgatherT := v.fld_setFld_of_disjoint R.CNT_SNAP_STATUS F.CNT_SNAP_STATUS_STATE F.CNT_SNAP_STATUS_GATHERING 0 hwfV (by decide) (by decide)
  have hbutT := hbut.setFld (off := R.CNT_SNAP_STATUS) (by simp) F.CNT_SNAP_STATUS_STATE 0
  have hsame := v.setFld_same R.CNT_SNAP_STATUS F.CNT_SNAP_STATUS_STATE 0
  generalize v.setFld R.CNT_SNAP_STATUS F.CNT_SNAP_STATUS_STATE 0 = t at hset hgatherT hbutT hsame ⊢
  have hcnt : t.cnt = v.cnt := by rw [hsame]
  have hnext : v.cnt.nextAt = s.cnt.nextAt := by rw [hframe]
  refine ⟨t, rfl, hset, by rw [hcnt, hnext], by rw [hcnt, hmap], by rw [hcnt]; exact hcounters, by rw [hcnt]; exact hwords, ?_, hbutT, ?_⟩
  · rw [State.flag, hgatherT]
    exact hgather
  · rw [hcnt, hnext, hsame, hframe]

theorem snapshotFreeze_series {s : State} (hwf : s.regsWf = true) (hstate : s.snapState = 2) (hidle : s.cnt.building = none)
    (hdue : s.cnt.nextAt ≤ s.now) (hc : swf (fun _ => {}) s.cnt.counters = true) : Answers (exec .snapshotFreeze s) fun t =>
      t.snapState = 2 ∧ t.cnt.nextAt = s.cnt.nextAt + s.cnt.periodMs * 1000000 ∧
      t.cnt.building.map (fun n => (n.frozenAt, n.notify, n.periodic)) = some (s.stamp, s.cnt.notify, true) ∧
      (∀ k, sget {} t.cnt.counters k = (sget {} s.cnt.counters k).visit) ∧
      (∀ n, t.cnt.building = some n → ∀ k, sget 0 n.words k = (sget {} s.cnt.counters k).visit.word) ∧
      t.flag R.CNT_SNAP_STATUS F.CNT_SNAP_STATUS_GATHERING = true ∧ s.RegsBut t [R.CNT_SNAP_STATUS] ∧
      t = { s with regs := t.regs, cnt := { s.cnt with counters := t.cnt.counters, building := t.cnt.building, nextAt := t.cnt.nextAt } } := by
  rw [exec_snapshotFreeze, freezeDue_series hstate hdue, hidle, if_neg (by decide)]
  rw [← nextFreeze]
  generalize nextFreeze s = n
  have hcntN := seriesAt_cnt s n
  have hframeN := seriesAt_frame s n
  have hregsN := seriesAt_regs s n
  generalize seriesAt s n = a at hcntN hframeN hregsN ⊢
  have htim : a.tim = s.tim := by rw [hframeN]
  have hstamp : a.stamp = s.stamp := by
    rw [State.stamp, State.nowSec, State.nowNano, htim, State.stamp, State.nowSec, State.nowNano]
  obtain ⟨hgather, hother, hmap, hcounters, hwords, -, hbut, hframe⟩ := freeze_facts (s := a) (State.regsWf_congr hregsN hwf)
    (by rw [hcntN]; exact hc) a.cnt.notify true rfl
  generalize a.freeze a.cnt.notify true = t at hgather hother hmap hcounters hwords hbut hframe ⊢
  rw [hcntN] at hcounters hwords
  rw [hstamp, hcntN] at hmap
  have hnext : t.cnt.nextAt = n := by rw [hframe, hcntN]
  have hstateT : t.snapState = 2 := by
    rw [State.snapState, hother _ (by decide) (by decide), State.fld_congr (State.rd_congr hregsN _)]
    exact hstate
  refine ⟨t, rfl, hstateT, hnext, hmap, hcounters, hwords, hgather, (State.RegsBut.of_regs hregsN _).trans hbut, ?_⟩
  rw [hnext, hframe, hcntN, hframeN]

theorem snapshotFreeze_skips {s : State} (hwf : s.regsWf = true) (hstate : s.snapState = 2) (hbusy : s.cnt.building.isSome = true)
    (hdue : s.cnt.nextAt ≤ s.now) : Answers (exec .snapshotFreeze s) fun t =>
      t.fld R.CNT_SNAP_STATUS F.CNT_SNAP_STATUS_SKIPPED =
        min (2 ^ F.CNT_SNAP_STATUS_SKIPPED.w - 1) (s.fld R.CNT_SNAP_STATUS F.CNT_SNAP_STATUS_SKIPPED + 1) ∧
      t.cnt = { s.cnt with nextAt := s.cnt.nextAt + s.cnt.periodMs * 1000000 } ∧ s.RegsBut t [R.CNT_SNAP_STATUS] ∧
      t = { s with regs := t.regs, cnt := t.cnt } := by
  have hlt : s.fld R.CNT_SNAP_STATUS F.CNT_SNAP_STATUS_SKIPPED < 65536 := Fld.get_lt _ _
  rw [exec_snapshotFreeze, freezeDue_series hstate hdue, if_pos hbusy, State.incSat, State.incFld]
  rw [← nextFreeze]
  generalize nextFreeze s = n
  have hcnt := seriesAt_cnt s n
  have hframe := seriesAt_frame s n
  have hregs := seriesAt_regs s n
  generalize seriesAt s n = a at hregs hframe hcnt ⊢
  have hwfN : a.regsWf = true := State.regsWf_congr hregs hwf
  have hfld : a.fld R.CNT_SNAP_STATUS F.CNT_SNAP_STATUS_SKIPPED = s.fld R.CNT_SNAP_STATUS F.CNT_SNAP_STATUS_SKIPPED :=
    State.fld_congr (State.rd_congr hregs _) _
  have hbutN : s.RegsBut a [R.CNT_SNAP_STATUS] := .of_regs hregs _
  rw [hfld]
  have hpow : 2 ^ F.CNT_SNAP_STATUS_SKIPPED.w = 65536 := rfl
  rw [hpow]
  split
  case isTrue hroom =>
    have hset := a.fld_setFld_self R.CNT_SNAP_STATUS F.CNT_SNAP_STATUS_SKIPPED (s.fld R.CNT_SNAP_STATUS F.CNT_SNAP_STATUS_SKIPPED + 1) hwfN
      (by decide)
    refine ⟨_, rfl, ?_, by rw [State.setFld_cnt, hcnt], hbutN.setFld (by simp) _ _, ?_⟩
    · rw [hset, hpow]
      omega
    · rw [State.setFld_cnt, a.setFld_same, hframe]
  case isFalse hroom => exact ⟨a, rfl, by rw [hfld]; omega, hcnt, hbutN, by rw [hframe]⟩

theorem snapshotFreeze_early {s : State} (h : s.snapState = 0 ∨ s.now < s.cnt.nextAt) : exec .snapshotFreeze s = .next s := by
  rw [exec_snapshotFreeze, State.freezeDue, if_pos h]

/-- A freeze that is due, of a single snapshot or of a series with no snapshot under way. -/
theorem snapshotFreeze_due {s : State} (hwf : s.regsWf = true) (h : s.snapState = 1 ∨ (s.snapState = 2 ∧ s.cnt.building = none))
    (hdue : s.cnt.nextAt ≤ s.now) (hc : swf (fun _ => {}) s.cnt.counters = true) : Answers (exec .snapshotFreeze s) fun t =>
      t.snapState = (if s.snapState = 1 then 0 else 2) ∧
      t.cnt.nextAt = (if s.snapState = 1 then s.cnt.nextAt else s.cnt.nextAt + s.cnt.periodMs * 1000000) ∧
      t.cnt.building.map (fun n => (n.frozenAt, n.notify, n.periodic)) = some (s.stamp, s.cnt.notify, s.snapState == 2) ∧
      (∀ k, sget {} t.cnt.counters k = (sget {} s.cnt.counters k).visit) ∧
      (∀ n, t.cnt.building = some n → ∀ k, sget 0 n.words k = (sget {} s.cnt.counters k).visit.word) ∧
      t.flag R.CNT_SNAP_STATUS F.CNT_SNAP_STATUS_GATHERING = true ∧ s.RegsBut t [R.CNT_SNAP_STATUS] ∧
      t = { s with regs := t.regs, cnt := { s.cnt with counters := t.cnt.counters, building := t.cnt.building, nextAt := t.cnt.nextAt } } := by
  rcases h with h | ⟨h, hidle⟩
  · rw [h, if_pos rfl, if_pos rfl]
    exact snapshotFreeze_once hwf h hdue hc
  · rw [h, if_neg (by decide), if_neg (by decide)]
    exact snapshotFreeze_series hwf h hidle hdue hc

/-! ## The reader's visit, and the clearing of sticky bits -/

theorem readerVisit_outside {block : BitVec 8} {index : Nat} {s : State}
    (h : (ctrBlocks.any fun b => b.id == block.toNat && decide (index < b.counters)) = false) :
    exec (.counterReaderVisit block index) s = .next s := by
  change execCounterReaderVisit block index s = _
  rw [execCounterReaderVisit, if_neg (by rw [h]; decide)]

theorem readerVisit_inside {block : BitVec 8} {index : Nat} {c : Counter} {s : State}
    (h : (ctrBlocks.any fun b => b.id == block.toNat && decide (index < b.counters)) = true) (hc : swf (fun _ => {}) s.cnt.counters = true)
    (hget : sget {} s.cnt.counters (ctrKey block.toNat index) = c) : Answers (exec (.counterReaderVisit block index) s) fun t =>
      sget {} t.cnt.counters (ctrKey block.toNat index) =
        ⟨(c.value + c.acc) % 2 ^ 48, 0, c.wrap || decide (2 ^ 48 ≤ c.value + c.acc), c.lower⟩ ∧
      (∀ k, k ≠ ctrKey block.toNat index → sget {} t.cnt.counters k = sget {} s.cnt.counters k) ∧
      t = { s with cnt := { s.cnt with counters := t.cnt.counters } } := by
  change Answers (execCounterReaderVisit block index s) _
  rw [execCounterReaderVisit, if_pos h]
  refine ⟨_, rfl, ?_, fun k hk => sget_sset_of_ne _ _ _ _ hk, rfl⟩
  exact (sget_sset_self _ _ hc).trans (by rw [hget, Counter.visit])

/-- A counter whose sticky bits are cleared where its block is. -/
def cleared (block k : Nat) (c : Counter) : Counter :=
  if block = 0xFF ∨ k / 2 ^ 17 = block then { c with wrap := false, lower := false } else c

theorem cleared_zero (block k : Nat) : cleared block k {} = {} := by
  unfold cleared
  split <;> rfl

theorem counterClear_eq (s : State) (block : Nat) : s.counterClear block =
    ({ s with cnt := { s.cnt with counters := mapCounters (cleared block) s.cnt.counters } } : State).setFld R.CNT_CLEAR F.CNT_CLEAR_BLOCK block := by
  unfold State.counterClear cleared
  rfl

theorem counterClear_block {block : BitVec 8} {s : State} (hwf : s.regsWf = true) (hc : swf (fun _ => {}) s.cnt.counters = true) :
    Answers (exec (.counterClear block) s) fun t =>
      (∀ k, sget {} t.cnt.counters k = if block = 0xFF ∨ k / 2 ^ 17 = block.toNat then
          { (sget {} s.cnt.counters k) with wrap := false, lower := false } else sget {} s.cnt.counters k) ∧
      t.fld R.CNT_CLEAR F.CNT_CLEAR_BLOCK = block.toNat ∧ s.RegsBut t [R.CNT_CLEAR] ∧
      t = { s with regs := t.regs, cnt := { s.cnt with counters := t.cnt.counters } } := by
  have hblock : block.toNat = 0xFF ↔ block = 0xFF := by rw [← BitVec.toNat_inj]; rfl
  change Answers (Host.Outcome.next (s.counterClear block.toNat)) _
  rw [counterClear_eq]
  obtain ⟨u, hu⟩ : ∃ u, u = ({ s with cnt := { s.cnt with counters := mapCounters (cleared block.toNat) s.cnt.counters } } : State) := ⟨_, rfl⟩
  rw [← hu]
  have hregs : u.regs = s.regs := by rw [hu]
  have hcounters : u.cnt.counters = mapCounters (cleared block.toNat) s.cnt.counters := by rw [hu]
  have hframe : u = { s with cnt := { s.cnt with counters := u.cnt.counters } } := by rw [hu]
  clear hu
  refine ⟨_, rfl, fun k => ?_, ?_, (State.RegsBut.of_regs hregs _).setFld (by simp) _ _, ?_⟩
  · rw [State.setFld_cnt, hcounters, sget_mapCounters hc (cleared_zero _ _), cleared]
    simp only [hblock]
  · rw [State.fld_setFld_self _ _ _ _ (State.regsWf_congr hregs hwf) (by decide)]
    exact Nat.mod_eq_of_lt block.isLt
  · rw [State.setFld_cnt, u.setFld_same, hframe]

/-! ## Publishing -/

/-- A state in which bytes of device memory have been written, its bays woken for it. -/
structure MemWritten (a n : Nat) (s t : State) : Prop where
  regs : s.RegsBut t ((List.range 50).map R.PWR_BAY_STATUS)
  wf : s.regsWf = true → t.regsWf = true
  bytes : s.BytesBut t a n
  frame : t = { s with regs := t.regs, pwr := t.pwr, mem := t.mem }

section
variable {a n : Nat} {s t u : State}

theorem MemWritten.refl (a n : Nat) (s : State) : MemWritten a n s s := ⟨.refl _ _, id, fun _ _ => rfl, rfl⟩

theorem MemWritten.trans (h : MemWritten a n s t) (k : MemWritten a n t u) : MemWritten a n s u where
  regs := h.regs.trans k.regs
  wf := k.wf ∘ h.wf
  bytes := fun i hi => (k.bytes i hi).trans (h.bytes i hi)
  frame := by rw [k.frame, h.frame]

theorem wakeBay_memWritten (a n : Nat) {s : State} {b : Nat} (hb : b < 50) : MemWritten a n s (s.wakeBay b) where
  regs := fun o ho => wakeBay_rd_of_ne s fun hob => ho (List.mem_map.2 ⟨b, List.mem_range.2 hb, hob.symm⟩)
  wf := fun hwf => by
    unfold State.wakeBay
    split
    · exact State.setFld_regsWf _ _ _ _ hwf
    · exact hwf
  bytes := fun k _ => by
    have h : (s.wakeBay b).mem = s.mem := by rw [wakeBay_frame]
    rw [State.byte, h, State.byte]
  frame := by
    have h := wakeBay_frame s b
    have hmem : (s.wakeBay b).mem = s.mem := by rw [h]
    rw [hmem]
    exact h

theorem memWake_memWritten (a n : Nat) (s : State) (b m : Nat) : MemWritten a n s (s.memWake b m) :=
  foldl_keeps (P := MemWritten a n s) (fun _ _ hx h => h.trans (wakeBay_memWritten a n (memBays_lt hx))) (.refl a n s)

theorem devWrite_memWritten {b : Nat} {x : Bytes} (hlow : a ≤ b) (hhigh : b + x.length ≤ a + n) (s : State) :
    MemWritten a n s (s.devWrite b x) where
  regs := fun o ho => by
    rw [s.devWrite_frame]
    exact (memWake_memWritten a n s b x.length).regs o ho
  wf := fun hwf => by
    have h := (memWake_memWritten a n s b x.length).wf hwf
    exact State.regsWf_congr (by rw [s.devWrite_frame]) h
  bytes := fun k hk => s.devWrite_outside b k x (by omega)
  frame := by
    rw [s.devWrite_frame, (memWake_memWritten a n s b x.length).frame]

end

theorem leBytes_length (n v : Nat) : (leBytes n v).length = n := by
  induction n generalizing v with
  | zero => rfl
  | succ n ih => rw [leBytes, List.length_cons, ih]

theorem pageBytes_length (n : Snap) (p : Nat) : (n.pageBytes p).length = 4096 := by
  rw [Snap.pageBytes, List.length_flatMap]
  simp only [leBytes_length, List.map_const', List.sum_replicate, List.length_range]
  rfl

theorem pageWrites_memWritten (s : State) (base pages : Nat) (page : State → Nat → Bytes) (hpage : ∀ t p, (page t p).length = 4096) :
    MemWritten base (4096 * pages) s ((List.range pages).foldl (fun s p => s.devWrite (base + 4096 * p) (page s p)) s) := by
  refine foldl_keeps (P := MemWritten base (4096 * pages) s) (fun t p hp h => h.trans (devWrite_memWritten (by omega) ?_ t)) (.refl _ _ s)
  rw [hpage]
  have := List.mem_range.1 hp
  omega

/-- The status of the snapshot when it is published. -/
def publishStatus (s : State) : State :=
  (s.setFld R.CNT_SNAP_STATUS F.CNT_SNAP_STATUS_GATHERING 0).incFld R.CNT_SNAP_STATUS F.CNT_SNAP_STATUS_SEQ

/-- The counters' part when a snapshot has been published. -/
def publishCnt (s : State) (n : Snap) : Cnt :=
  { s.cnt with
    building := none
    published := { n with seq := s.cnt.published.seq + 1, skipped := s.cnt.histSkipped }
    series := if n.periodic then s.cnt.series + 1 else s.cnt.series }

/-- A snapshot in its place, and the message where one was asked for. -/
def publishDone (s : State) (n : Snap) : State :=
  if n.notify then ({ publishStatus s with cnt := publishCnt (publishStatus s) n } : State).raise 8
  else { publishStatus s with cnt := publishCnt (publishStatus s) n }

theorem exec_snapshotPublish {s : State} {n : Snap} (h : s.cnt.building = some n) :
    exec .snapshotPublish s = .next (if n.periodic then (publishDone s n).historyRecord else publishDone s n) := by
  change execSnapshotPublish s = _
  unfold execSnapshotPublish
  rw [h]
  unfold publishDone publishCnt publishStatus
  rfl

/-- What a raised message leaves of the counters' part. -/
theorem raise_cntFrame (s : State) (v : Nat) : s.raise v = { s with
    cnt := { s.cnt with counters := (s.raise v).cnt.counters }, out := { s.out with msix := s.out.msix ++ [v] } } := by
  rw [State.raise, State.count, State.countBy]

theorem publishStatus_facts {s : State} (hwf : s.regsWf = true) : (publishStatus s).regsWf = true ∧
      (publishStatus s).flag R.CNT_SNAP_STATUS F.CNT_SNAP_STATUS_GATHERING = false ∧
      (publishStatus s).fld R.CNT_SNAP_STATUS F.CNT_SNAP_STATUS_SEQ =
        (s.fld R.CNT_SNAP_STATUS F.CNT_SNAP_STATUS_SEQ + 1) % 2 ^ F.CNT_SNAP_STATUS_SEQ.w ∧
      s.RegsBut (publishStatus s) [R.CNT_SNAP_STATUS] ∧ SameButRegs s (publishStatus s) := by
  have hgather := s.fld_setFld_self R.CNT_SNAP_STATUS F.CNT_SNAP_STATUS_GATHERING 0 hwf (by decide)
  have hseq := s.fld_setFld_of_disjoint R.CNT_SNAP_STATUS F.CNT_SNAP_STATUS_GATHERING F.CNT_SNAP_STATUS_SEQ 0 hwf (by decide) (by decide)
  have hwfA := s.setFld_regsWf R.CNT_SNAP_STATUS F.CNT_SNAP_STATUS_GATHERING 0 hwf
  have hbut : s.RegsBut (s.setFld R.CNT_SNAP_STATUS F.CNT_SNAP_STATUS_GATHERING 0) [R.CNT_SNAP_STATUS] := State.setFld_regsBut (by simp) _ _
  have hsame := s.setFld_same R.CNT_SNAP_STATUS F.CNT_SNAP_STATUS_GATHERING 0
  rw [publishStatus, State.incFld]
  generalize s.setFld R.CNT_SNAP_STATUS F.CNT_SNAP_STATUS_GATHERING 0 = a at hgather hseq hwfA hbut hsame ⊢
  refine ⟨State.setFld_regsWf _ _ _ _ hwfA, ?_, ?_, hbut.setFld (by simp) _ _, hsame.trans (State.setFld_same ..)⟩
  · rw [State.flag, State.fld_setFld_of_disjoint _ _ _ _ _ hwfA (by decide) (by decide), hgather]
    decide
  · rw [State.fld_setFld_self _ _ _ _ hwfA (by decide), hseq]

theorem publishDone_facts {s : State} (n : Snap) (hwf : s.regsWf = true) :
    (publishDone s n).cnt.published = { n with seq := s.cnt.published.seq + 1, skipped := s.cnt.histSkipped } ∧
      (publishDone s n).cnt.building = none ∧
      (publishDone s n).cnt.series = (if n.periodic = true then s.cnt.series + 1 else s.cnt.series) ∧
      (publishDone s n).regs = (publishStatus s).regs ∧
      (publishDone s n).out = { s.out with msix := s.out.msix ++ if n.notify = true then [8] else [] } ∧
      publishDone s n = { s with regs := (publishDone s n).regs, cnt := (publishDone s n).cnt, out := (publishDone s n).out } := by
  obtain ⟨-, -, -, -, hsame⟩ := publishStatus_facts hwf
  rw [publishDone]
  generalize publishStatus s = a at hsame ⊢
  have hcnt : a.cnt = s.cnt := by rw [hsame]
  have hout : a.out = s.out := by rw [hsame]
  obtain ⟨b, hb⟩ : ∃ b, b = ({ a with cnt := publishCnt a n } : State) := ⟨_, rfl⟩
  rw [← hb]
  have hcntB : b.cnt = publishCnt a n := by rw [hb]
  have hregsB : b.regs = a.regs := by rw [hb]
  have houtB : b.out = s.out := by rw [hb, ← hout]
  have hframe : b = { s with regs := b.regs, cnt := b.cnt, out := b.out } := by rw [hb, hsame]
  clear hb
  rw [publishCnt, hcnt] at hcntB
  by_cases hnotify : n.notify = true
  case neg =>
    rw [if_neg hnotify, if_neg hnotify, List.append_nil]
    exact ⟨by rw [hcntB], by rw [hcntB], by rw [hcntB], hregsB, houtB, hframe⟩
  case pos =>
    rw [if_pos hnotify, if_pos hnotify]
    have hraise := raise_cntFrame b 8
    generalize b.raise 8 = c at hraise ⊢
    have hcntC : c.cnt = { b.cnt with counters := c.cnt.counters } := by rw [hraise]
    have houtC : c.out = { b.out with msix := b.out.msix ++ [8] } := by rw [hraise]
    have hregsC : c.regs = b.regs := by rw [hraise]
    have hframeC : c = { b with regs := c.regs, cnt := c.cnt, out := c.out } := by rw [hraise]
    clear hraise
    refine ⟨by rw [hcntC, hcntB], by rw [hcntC, hcntB], by rw [hcntC, hcntB], by rw [hregsC, hregsB], by rw [houtC, houtB], ?_⟩
    rw [hframe] at hframeC
    exact hframeC

theorem historyRecord_off {s : State} (h : s.fld R.CNT_HISTORY F.CNT_HISTORY_EVERY = 0) : s.historyRecord = s := by
  rw [State.historyRecord]
  exact if_pos (.inl h)

theorem snapshotPublish_idle {s : State} (h : s.cnt.building = none) : exec .snapshotPublish s = .next s := by
  change execSnapshotPublish s = _
  unfold execSnapshotPublish
  rw [h]

theorem snapshotPublish_plain {n : Snap} {s : State} (hwf : s.regsWf = true) (hbuilding : s.cnt.building = some n)
    (hplain : n.periodic = false ∨ s.fld R.CNT_HISTORY F.CNT_HISTORY_EVERY = 0) : Answers (exec .snapshotPublish s) fun t =>
      t.cnt.published = { n with seq := s.cnt.published.seq + 1, skipped := s.cnt.histSkipped } ∧ t.cnt.building = none ∧
      t.cnt.series = (if n.periodic = true then s.cnt.series + 1 else s.cnt.series) ∧
      t.flag R.CNT_SNAP_STATUS F.CNT_SNAP_STATUS_GATHERING = false ∧
      t.fld R.CNT_SNAP_STATUS F.CNT_SNAP_STATUS_SEQ = (s.fld R.CNT_SNAP_STATUS F.CNT_SNAP_STATUS_SEQ + 1) % 2 ^ F.CNT_SNAP_STATUS_SEQ.w ∧
      t.out = { s.out with msix := s.out.msix ++ if n.notify = true then [8] else [] } ∧ s.RegsBut t [R.CNT_SNAP_STATUS] ∧
      t = { s with regs := t.regs, cnt := t.cnt, out := t.out } := by
  obtain ⟨-, hgather, hseq, hbut, -⟩ := publishStatus_facts hwf
  obtain ⟨hpublished, hnone, hseries, hregs, hout, hframe⟩ := publishDone_facts n hwf
  rw [exec_snapshotPublish hbuilding]
  generalize publishDone s n = t at hpublished hnone hseries hregs hout hframe ⊢
  have hrd (o : Nat) : t.rd o = (publishStatus s).rd o := State.rd_congr hregs o
  have hbutT : s.RegsBut t [R.CNT_SNAP_STATUS] := hbut.trans (.of_regs hregs _)
  have hend : (if n.periodic = true then t.historyRecord else t) = t := by
    rcases hplain with h | h
    · rw [h, if_neg (by decide)]
    · rw [historyRecord_off (by rw [State.fld_congr (hbutT _ (by decide)), h]), ite_self]
  rw [hend]
  exact ⟨t, rfl, hpublished, hnone, hseries, by rw [State.flag_congr (hrd _), hgather], by rw [State.fld_congr (hrd _), hseq], hout, hbutT, hframe⟩

/-- The Wellhead's record of a published snapshot, where one is due. -/
theorem historyRecord_writes {r size : Nat} {s : State} (hwf : s.regsWf = true) (hevery : s.fld R.CNT_HISTORY F.CNT_HISTORY_EVERY = 1)
    (hareas : s.flag R.MEM_CTRL F.MEM_CTRL_AREAS_ENABLE = true) (hup : s.cfg.wellheadDown = false)
    (hload : s.fld R.PLN_WH_LOAD F.PLN_WH_LOAD_LEVEL < 2) (hr : r = s.fld R.CNT_HISTORY F.CNT_HISTORY_RECORDS)
    (hsize : size = s.fld R.MEM_HISTORY_SIZE F.MEM_HISTORY_SIZE_VALUE / 1548288) (hpos : 0 < size) :
    s.historyRecord.fld R.CNT_HISTORY F.CNT_HISTORY_RECORDS = (r + 1) % 2 ^ F.CNT_HISTORY_RECORDS.w ∧ s.historyRecord.cnt = s.cnt ∧
      s.BytesBut s.historyRecord (s.fld R.MEM_HISTORY_BASE F.MEM_HISTORY_BASE_VALUE + 1548288 * (r % size)) 1548288 := by
  rw [State.historyRecord]
  dsimp only
  rw [← hr, ← hsize, hevery, if_neg (by rw [hareas, hup, Nat.mod_one]; simp; omega), if_neg (by omega)]
  have h := pageWrites_memWritten s (s.fld R.MEM_HISTORY_BASE F.MEM_HISTORY_BASE_VALUE + 1548288 * (r % size)) 378
    (fun s p => s.cnt.published.pageBytes p) fun _ _ => pageBytes_length ..
  generalize (List.range 378).foldl (fun u p => u.devWrite
    (s.fld R.MEM_HISTORY_BASE F.MEM_HISTORY_BASE_VALUE + 1548288 * (r % size) + 4096 * p) (u.cnt.published.pageBytes p)) s = t at h ⊢
  have hrecords : t.fld R.CNT_HISTORY F.CNT_HISTORY_RECORDS = r := by rw [State.fld_congr (h.regs _ (by decide)), hr]
  have hcnt : t.cnt = s.cnt := by rw [h.frame]
  rw [State.incFld, hrecords]
  refine ⟨State.fld_setFld_self _ _ _ _ (h.wf hwf) (by decide), by rw [State.setFld_cnt, hcnt], fun k hk => ?_⟩
  rw [State.byte, State.setFld_mem]
  exact h.bytes k hk

theorem snapshotPublish_records {n : Snap} {r size : Nat} {s : State} (hwf : s.regsWf = true) (hbuilding : s.cnt.building = some n)
    (hperiodic : n.periodic = true) (hevery : s.fld R.CNT_HISTORY F.CNT_HISTORY_EVERY = 1)
    (hareas : s.flag R.MEM_CTRL F.MEM_CTRL_AREAS_ENABLE = true) (hup : s.cfg.wellheadDown = false)
    (hload : s.fld R.PLN_WH_LOAD F.PLN_WH_LOAD_LEVEL < 2) (hr : r = s.fld R.CNT_HISTORY F.CNT_HISTORY_RECORDS)
    (hsize : size = s.fld R.MEM_HISTORY_SIZE F.MEM_HISTORY_SIZE_VALUE / 1548288) (hpos : 0 < size) :
    Answers (exec .snapshotPublish s) fun t =>
      t.fld R.CNT_HISTORY F.CNT_HISTORY_RECORDS = (r + 1) % 2 ^ F.CNT_HISTORY_RECORDS.w ∧ t.cnt.series = s.cnt.series + 1 ∧
      s.BytesBut t (s.fld R.MEM_HISTORY_BASE F.MEM_HISTORY_BASE_VALUE + 1548288 * (r % size)) 1548288 := by
  obtain ⟨hwfA, -, -, hbut, -⟩ := publishStatus_facts hwf
  obtain ⟨-, -, hseries, hregs, -, hframe⟩ := publishDone_facts n hwf
  rw [exec_snapshotPublish hbuilding, if_pos hperiodic]
  rw [if_pos hperiodic] at hseries
  generalize publishDone s n = t at hseries hregs hframe ⊢
  have hrd (o : Nat) (ho : o ∉ [R.CNT_SNAP_STATUS]) : t.rd o = s.rd o := (State.rd_congr hregs o).trans (hbut o ho)
  have hmem : t.mem = s.mem := by rw [hframe]
  have hcfg : t.cfg = s.cfg := by rw [hframe]
  obtain ⟨hrecords, hcnt, hbytes⟩ := historyRecord_writes (State.regsWf_congr hregs hwfA)
    (by rw [State.fld_congr (hrd _ (by decide)), hevery]) (by rw [State.flag_congr (hrd _ (by decide)), hareas]) (by rw [hcfg, hup])
    (by rw [State.fld_congr (hrd _ (by decide))]; exact hload) (hr.trans (by rw [State.fld_congr (hrd _ (by decide))]))
    (hsize.trans (by rw [State.fld_congr (hrd _ (by decide))])) hpos
  rw [State.fld_congr (hrd R.MEM_HISTORY_BASE (by decide))] at hbytes
  exact ⟨_, rfl, hrecords, by rw [hcnt, hseries], fun k hk => (hbytes k hk).trans (by rw [State.byte, hmem, State.byte])⟩

/-! ## Copies -/

theorem counterCopy_busy {dest : Word} {first count : BitVec 12} {s : State} (h : s.cnt.copying.isSome = true) :
    exec (.counterCopy dest first count) s = .next s := by
  change Host.Outcome.next (s.counterCopy dest first.toNat count.toNat) = _
  rw [State.counterCopy, if_pos h]

/-- The registers of a copy that starts. -/
def copyRegs (s : State) (dest : Word) (first count : Nat) : State :=
  (s.wr R.CNT_COPY (F.CNT_COPY_HOST.put (F.CNT_COPY_HOST.get dest) ||| F.CNT_COPY_ADDR.put (F.CNT_COPY_ADDR.get dest))).wr R.CNT_COPY_CTRL
    (F.CNT_COPY_CTRL_GO.put 1 ||| F.CNT_COPY_CTRL_FIRST.put first ||| F.CNT_COPY_CTRL_COUNT.put count)

theorem exec_counterCopy {dest : Word} {first count : BitVec 12} {s : State} (h : s.cnt.copying = none) :
    exec (.counterCopy dest first count) s = .next ({ copyRegs s dest first.toNat count.toNat with
      cnt := { (copyRegs s dest first.toNat count.toNat).cnt with
        copying := some ((copyRegs s dest first.toNat count.toNat).rd R.CNT_COPY, first.toNat, count.toNat) } } : State) := by
  change Host.Outcome.next (s.counterCopy dest first.toNat count.toNat) = _
  rw [State.counterCopy, if_neg (by rw [h]; decide)]
  unfold copyRegs
  rfl

theorem counterCopy_starts {dest : Word} {first count : BitVec 12} {s : State} (hwf : s.regsWf = true) (h : s.cnt.copying = none) :
    Answers (exec (.counterCopy dest first count) s) fun t =>
      t.cnt = { s.cnt with copying := some (t.rd R.CNT_COPY, first.toNat, count.toNat) } ∧
      t.fld R.CNT_COPY F.CNT_COPY_HOST = F.CNT_COPY_HOST.get dest ∧ t.fld R.CNT_COPY F.CNT_COPY_ADDR = F.CNT_COPY_ADDR.get dest ∧
      t.flag R.CNT_COPY_CTRL F.CNT_COPY_CTRL_GO = true ∧ s.RegsBut t [R.CNT_COPY, R.CNT_COPY_CTRL] ∧ t = { s with regs := t.regs, cnt := t.cnt } := by
  rw [exec_counterCopy h]
  have hhost : (copyRegs s dest first.toNat count.toNat).rd R.CNT_COPY =
      F.CNT_COPY_HOST.put (F.CNT_COPY_HOST.get dest) ||| F.CNT_COPY_ADDR.put (F.CNT_COPY_ADDR.get dest) := by
    rw [copyRegs, State.rd_wr_of_ne _ _ (by decide), State.rd_wr_self _ _ _ hwf]
  have hctrl : (copyRegs s dest first.toNat count.toNat).rd R.CNT_COPY_CTRL =
      F.CNT_COPY_CTRL_GO.put 1 ||| F.CNT_COPY_CTRL_FIRST.put first.toNat ||| F.CNT_COPY_CTRL_COUNT.put count.toNat := by
    rw [copyRegs, State.rd_wr_self _ _ _ (State.wr_regsWf _ _ _ hwf)]
  have hbut : s.RegsBut (copyRegs s dest first.toNat count.toNat) [R.CNT_COPY, R.CNT_COPY_CTRL] :=
    (State.wr_regsBut (by simp) _).wr (by simp) _
  have hsame : SameButRegs s (copyRegs s dest first.toNat count.toNat) := (State.wr_same ..).trans (State.wr_same ..)
  generalize copyRegs s dest first.toNat count.toNat = u at hhost hctrl hbut hsame ⊢
  have hcnt : u.cnt = s.cnt := by rw [hsame]
  obtain ⟨t, ht⟩ : ∃ t, t = ({ u with cnt := { u.cnt with copying := some (u.rd R.CNT_COPY, first.toNat, count.toNat) } } : State) := ⟨_, rfl⟩
  rw [← ht]
  have hregs : t.regs = u.regs := by rw [ht]
  have hcntT : t.cnt = { s.cnt with copying := some (u.rd R.CNT_COPY, first.toNat, count.toNat) } := by rw [ht, hcnt]
  have hframe : t = { s with regs := t.regs, cnt := t.cnt } := by rw [ht, hsame]
  clear ht
  have hrd (o : Nat) : t.rd o = u.rd o := State.rd_congr hregs o
  refine ⟨t, rfl, by rw [hcntT, hrd], ?_, ?_, ?_, hbut.trans (.of_regs hregs _), hframe⟩
  · rw [State.fld, hrd, hhost]
    simp (disch := decide) only [Fld.get_or, Fld.get_put_self, Fld.get_put_of_disjoint, Nat.or_zero]
    exact Nat.mod_eq_of_lt (Fld.get_lt _ _)
  · rw [State.fld, hrd, hhost]
    simp (disch := decide) only [Fld.get_or, Fld.get_put_self, Fld.get_put_of_disjoint, Nat.zero_or]
    exact Nat.mod_eq_of_lt (Fld.get_lt _ _)
  · rw [State.flag, State.fld, hrd, hctrl]
    simp (disch := decide) only [Fld.get_or, Fld.get_put_self, Fld.get_put_of_disjoint, Nat.or_zero]
    rfl

theorem counterCopyDone_idle {s : State} (h : s.cnt.copying = none) : exec .counterCopyDone s = .next s := by
  change execCounterCopyDone s = _
  unfold execCounterCopyDone
  rw [h]

/-- A page of the published snapshot, copied. -/
def copyPage (host : Prop) [Decidable host] (base first : Nat) (s : State) (i : Nat) : State :=
  if host then s.hostWrite (BitVec.ofNat 64 (base + 4096 * i)) (s.cnt.published.pageBytes (first + i))
  else if s.deviceOk (base + 4096 * i) 4096 then s.devWrite (base + 4096 * i) (s.cnt.published.pageBytes (first + i)) else s

/-- The pages of a copy, in their places. -/
def copyPages (s : State) (dest : Word) (first count : Nat) : State :=
  (List.range (min (first + count) 4064 - first)).foldl
    (copyPage (F.CNT_COPY_HOST.get dest = 1) (F.CNT_COPY_ADDR.get dest / 64 * 64) first) s

theorem exec_counterCopyDone {dest : Word} {first count : Nat} {s : State} (h : s.cnt.copying = some (dest, first, count)) :
    exec .counterCopyDone s = .next ((({ copyPages s dest first count with
      cnt := { (copyPages s dest first count).cnt with copying := none } } : State).setFld R.CNT_COPY_CTRL F.CNT_COPY_CTRL_GO 0).raise 8) := by
  change execCounterCopyDone s = _
  unfold execCounterCopyDone
  rw [h]
  unfold copyPages copyPage
  rfl

/-- What ends a copy whose pages are in their places. -/
theorem copyEnds_facts {s : State} (hwf : s.regsWf = true) {t : State}
    (ht : t = (({ s with cnt := { s.cnt with copying := none } } : State).setFld R.CNT_COPY_CTRL F.CNT_COPY_CTRL_GO 0).raise 8) :
    t.cnt.copying = none ∧ t.flag R.CNT_COPY_CTRL F.CNT_COPY_CTRL_GO = false ∧ t.out = { s.out with msix := s.out.msix ++ [8] } ∧
      t.mem = s.mem ∧ s.RegsBut t [R.CNT_COPY_CTRL] := by
  obtain ⟨u, hu⟩ : ∃ u, u = ({ s with cnt := { s.cnt with copying := none } } : State) := ⟨_, rfl⟩
  rw [← hu] at ht
  have hregs : u.regs = s.regs := by rw [hu]
  have hcopying : u.cnt.copying = none := by rw [hu]
  have hout : u.out = s.out := by rw [hu]
  have hmem : u.mem = s.mem := by rw [hu]
  clear hu
  have hgo := u.fld_setFld_self R.CNT_COPY_CTRL F.CNT_COPY_CTRL_GO 0 (State.regsWf_congr hregs hwf) (by decide)
  have hbut : s.RegsBut (u.setFld R.CNT_COPY_CTRL F.CNT_COPY_CTRL_GO 0) [R.CNT_COPY_CTRL] :=
    (State.RegsBut.of_regs hregs _).setFld (by simp) _ _
  have hsame := u.setFld_same R.CNT_COPY_CTRL F.CNT_COPY_CTRL_GO 0
  generalize u.setFld R.CNT_COPY_CTRL F.CNT_COPY_CTRL_GO 0 = v at hgo hbut hsame ht
  have hraise := raise_cntFrame v 8
  rw [← ht] at hraise
  clear ht
  have hcntV : v.cnt = u.cnt := by rw [hsame]
  have houtV : v.out = s.out := by rw [hsame, hout]
  have hmemV : v.mem = s.mem := by rw [hsame, hmem]
  have hregsT : t.regs = v.regs := by rw [hraise]
  refine ⟨?_, ?_, ?_, ?_, hbut.trans (.of_regs hregsT _)⟩
  · rw [hraise, hcntV, hcopying]
  · rw [State.flag, State.fld_congr (State.rd_congr hregsT _), hgo]
    decide
  · rw [hraise, houtV]
  · rw [hraise, hmemV]

theorem copyPages_host {dest : Word} {first count : Nat} {s : State} (hhost : F.CNT_COPY_HOST.get dest = 1) (hlen : first + count ≤ 4064) :
    copyPages s dest first count = { s with out := { s.out with hostWrites := s.out.hostWrites ++ (List.range count).map fun i =>
      (BitVec.ofNat 64 (F.CNT_COPY_ADDR.get dest / 64 * 64 + 4096 * i), s.cnt.published.pageBytes (first + i)) } } := by
  have hcount : min (first + count) 4064 - first = count := by omega
  have hrun : ∀ (l : List Nat) (s : State), l.foldl (copyPage (F.CNT_COPY_HOST.get dest = 1) (F.CNT_COPY_ADDR.get dest / 64 * 64) first) s =
      { s with out := { s.out with hostWrites := s.out.hostWrites ++ l.map fun i =>
        (BitVec.ofNat 64 (F.CNT_COPY_ADDR.get dest / 64 * 64 + 4096 * i), s.cnt.published.pageBytes (first + i)) } } := by
    intro l
    induction l with
    | nil => intro s; rw [List.foldl_nil, List.map_nil, List.append_nil]
    | cons i l ih =>
      intro s
      rw [List.foldl_cons, ih, copyPage, if_pos hhost, State.hostWrite, List.map_cons, List.append_assoc, List.singleton_append]
  rw [copyPages, hcount, hrun]

theorem copyPages_device {dest : Word} {first count : Nat} {s : State} (hdevice : F.CNT_COPY_HOST.get dest = 0) :
    MemWritten (F.CNT_COPY_ADDR.get dest / 64 * 64) (4096 * (min (first + count) 4064 - first)) s (copyPages s dest first count) := by
  refine foldl_keeps (P := MemWritten (F.CNT_COPY_ADDR.get dest / 64 * 64) (4096 * (min (first + count) 4064 - first)) s)
    (fun t i hi h => ?_) (.refl _ _ s)
  have := List.mem_range.1 hi
  rw [copyPage, if_neg (by rw [hdevice]; decide)]
  split
  · exact h.trans (devWrite_memWritten (by omega) (by rw [pageBytes_length]; omega) t)
  · exact h

theorem counterCopyDone_host {dest : Word} {first count : Nat} {s : State} (hwf : s.regsWf = true)
    (h : s.cnt.copying = some (dest, first, count)) (hhost : F.CNT_COPY_HOST.get dest = 1) (hlen : first + count ≤ 4064) :
    Answers (exec .counterCopyDone s) fun t =>
      t.cnt.copying = none ∧ t.flag R.CNT_COPY_CTRL F.CNT_COPY_CTRL_GO = false ∧ t.out.msix = s.out.msix ++ [8] ∧
      t.out.hostWrites = s.out.hostWrites ++ (List.range count).map (fun i =>
        (BitVec.ofNat 64 (F.CNT_COPY_ADDR.get dest / 64 * 64 + 4096 * i), s.cnt.published.pageBytes (first + i))) ∧
      t.mem = s.mem ∧ s.RegsBut t [R.CNT_COPY_CTRL] := by
  rw [exec_counterCopyDone h, copyPages_host hhost hlen]
  obtain ⟨u, hu⟩ : ∃ u, u = ({ s with out := { s.out with hostWrites := s.out.hostWrites ++ (List.range count).map fun i =>
    (BitVec.ofNat 64 (F.CNT_COPY_ADDR.get dest / 64 * 64 + 4096 * i), s.cnt.published.pageBytes (first + i)) } } : State) := ⟨_, rfl⟩
  rw [← hu]
  have hregs : u.regs = s.regs := by rw [hu]
  have hmem : u.mem = s.mem := by rw [hu]
  have hmsix : u.out.msix = s.out.msix := by rw [hu]
  have hwrites : u.out.hostWrites = s.out.hostWrites ++ (List.range count).map fun i =>
    (BitVec.ofNat 64 (F.CNT_COPY_ADDR.get dest / 64 * 64 + 4096 * i), s.cnt.published.pageBytes (first + i)) := by rw [hu]
  clear hu
  obtain ⟨hcopying, hgo, hout, hmemT, hbut⟩ := copyEnds_facts (State.regsWf_congr hregs hwf) rfl
  exact ⟨_, rfl, hcopying, hgo, by rw [hout, hmsix], by rw [hout, hwrites], by rw [hmemT, hmem], (State.RegsBut.of_regs hregs _).trans hbut⟩

theorem counterCopyDone_device {dest : Word} {first count : Nat} {s : State} (hwf : s.regsWf = true)
    (h : s.cnt.copying = some (dest, first, count)) (hdevice : F.CNT_COPY_HOST.get dest = 0) : Answers (exec .counterCopyDone s) fun t =>
      t.cnt.copying = none ∧ t.flag R.CNT_COPY_CTRL F.CNT_COPY_CTRL_GO = false ∧ t.out = { s.out with msix := s.out.msix ++ [8] } ∧
      s.BytesBut t (F.CNT_COPY_ADDR.get dest / 64 * 64) (4096 * (min (first + count) 4064 - first)) := by
  rw [exec_counterCopyDone h]
  have hpages := copyPages_device (first := first) (count := count) (s := s) hdevice
  generalize copyPages s dest first count = u at hpages ⊢
  have hout : u.out = s.out := by rw [hpages.frame]
  obtain ⟨hcopying, hgo, houtT, hmemT, -⟩ := copyEnds_facts (hpages.wf hwf) rfl
  exact ⟨_, rfl, hcopying, hgo, by rw [houtT, hout], fun k hk => (congrArg (sget 0 · k) (congrArg Mem.bytes hmemT)).trans (hpages.bytes k hk)⟩

/-- Settles O60. -/
theorem countersAndSnapshots : Obligations.CountersAndSnapshots :=
  ⟨fun _ _ _ h => readerVisit_outside h, fun _ _ _ _ h hc hget => readerVisit_inside h hc hget, fun _ _ hwf h => snapNow_busy hwf h,
    fun _ _ hwf hstate hidle hc => snapNow_freezes hwf hstate hidle hc, fun _ _ _ hwf h => snapAt_refused hwf h,
    fun _ _ _ hwf hstate hidle hok => snapAt_accepted hwf hstate hidle hok, fun _ _ _ _ hwf h => snapEvery_refused hwf h,
    fun _ _ _ _ hwf hstate hidle hok hlow hhigh => snapEvery_accepted hwf hstate hidle hok hlow hhigh,
    fun _ hwf hstate hidle => snapStop_ends hwf hstate hidle, fun _ hwf h => snapStop_busy hwf h, fun _ h => snapshotFreeze_early h,
    fun _ hwf h hdue hc => snapshotFreeze_due hwf h hdue hc, fun _ hwf hstate hbusy hdue => snapshotFreeze_skips hwf hstate hbusy hdue,
    fun _ h => snapshotPublish_idle h, fun _ _ hwf h hplain => snapshotPublish_plain hwf h hplain,
    fun _ _ _ _ hwf h hperiodic _ hevery hareas hup hload hr hsize hpos =>
      snapshotPublish_records hwf h hperiodic hevery hareas hup hload hr hsize hpos,
    fun _ _ hwf hc => counterClear_block hwf hc, fun _ _ _ _ h => counterCopy_busy h, fun _ _ _ _ hwf h => counterCopy_starts hwf h,
    fun _ h => counterCopyDone_idle h, fun _ _ _ _ hwf h hhost hlen => counterCopyDone_host hwf h hhost hlen,
    fun _ _ _ _ hwf h hdevice => counterCopyDone_device hwf h hdevice⟩

end Sys2Proof.Proofs
end
section
/-! PROOF. Enable checks and commits end (spec/16 R424 to R429). -/

namespace Sys2Proof.Proofs
open Sys2Proof Sys2Proof.Machine

/-! ## The log of the configuration -/

/-- The place of the next entry of the log. -/
def cfgPlace (s : State) : Nat := s.fld R.CFG_LOG_HEAD F.CFG_LOG_HEAD_COUNT % 256

/-- The word of an entry of the log. -/
def cfgWord (kind reason set source : Nat) (domain : BitVec 12) (offset : Nat) : Word :=
  F.CFG_LOG_KIND.put kind ||| F.CFG_LOG_REASON.put reason ||| F.CFG_LOG_SET.put set ||| F.CFG_LOG_SOURCE.put source |||
    F.CFG_LOG_DOMAIN.put domain.toNat ||| F.CFG_LOG_OFFSET.put offset

/-- An entry in its place, with the time. -/
def cfgEntry (s : State) (w : Word) : State := s.logEntry R.CFG_LOG_HEAD R.CFG_LOG R.CFG_LOG_INFO 256 w s.stamp

/-- What a refusal counts. -/
def cfgRefusal (s : State) (reason : Nat) : State :=
  (s.incSat R.GLB_PLUMB_STATUS F.GLB_PLUMB_STATUS_REFUSALS).setFld R.GLB_PLUMB_STATUS F.GLB_PLUMB_STATUS_LAST_REASON reason

theorem cfgLog_eq (s : State) {kind : Nat} (hk : kind ≠ 4) (reason set source : Nat) (domain : BitVec 12) (offset : Nat) :
    s.cfgLog kind reason set source domain offset =
      (if kind = 2 then cfgEntry s (cfgWord kind reason set source domain offset)
        else cfgRefusal (cfgEntry s (cfgWord kind reason set source domain offset)) reason).raise (if reason = 0x1B then 9 else 1) := by
  rw [State.cfgLog, if_neg hk]
  rfl

/-- The registers of the log and of what a refusal counts. -/
def cfgLogRegs (s : State) : List Nat :=
  [R.CFG_LOG (cfgPlace s), R.CFG_LOG_INFO (cfgPlace s), R.CFG_LOG_HEAD, R.GLB_PLUMB_STATUS]

theorem cfgEntry_facts {s : State} (hwf : s.regsWf = true) (w : Word) : (cfgEntry s w).regsWf = true ∧
    (cfgEntry s w).rd (R.CFG_LOG (cfgPlace s)) = w ∧ (cfgEntry s w).rd (R.CFG_LOG_INFO (cfgPlace s)) = s.stamp ∧
      s.RegsBut (cfgEntry s w) (cfgLogRegs s) ∧ SameButRegs s (cfgEntry s w) := by
  have hwfA := s.wr_regsWf (R.CFG_LOG (cfgPlace s)) w hwf
  have hwfB := State.wr_regsWf _ (R.CFG_LOG_INFO (cfgPlace s)) s.stamp hwfA
  rw [cfgEntry, State.logEntry, State.incFld, ← cfgPlace]
  refine ⟨State.setFld_regsWf _ _ _ _ hwfB, ?_, ?_, ?_, ((State.wr_same ..).trans (State.wr_same ..)).trans (State.setFld_same ..)⟩
  · rw [State.rd_setFld_of_ne _ _ _ (by simp only [R.CFG_LOG, R.CFG_LOG_HEAD]; omega),
      State.rd_wr_of_ne _ _ (by simp only [R.CFG_LOG, R.CFG_LOG_INFO]; omega), State.rd_wr_self _ _ _ hwf]
  · rw [State.rd_setFld_of_ne _ _ _ (by simp only [R.CFG_LOG_INFO, R.CFG_LOG_HEAD]; omega), State.rd_wr_self _ _ _ hwfA]
  · exact ((State.wr_regsBut (by simp [cfgLogRegs]) _).wr (by simp [cfgLogRegs]) _).setFld (by simp [cfgLogRegs]) _ _

theorem cfgRefusal_facts {s : State} (hwf : s.regsWf = true) (reason : Nat) : (cfgRefusal s reason).regsWf = true ∧
    (cfgRefusal s reason).fld R.GLB_PLUMB_STATUS F.GLB_PLUMB_STATUS_LAST_REASON = reason % 256 ∧
      s.RegsBut (cfgRefusal s reason) [R.GLB_PLUMB_STATUS] ∧ SameButRegs s (cfgRefusal s reason) := by
  have h : (s.incSat R.GLB_PLUMB_STATUS F.GLB_PLUMB_STATUS_REFUSALS).regsWf = true ∧
      s.RegsBut (s.incSat R.GLB_PLUMB_STATUS F.GLB_PLUMB_STATUS_REFUSALS) [R.GLB_PLUMB_STATUS] ∧
      SameButRegs s (s.incSat R.GLB_PLUMB_STATUS F.GLB_PLUMB_STATUS_REFUSALS) := by
    unfold State.incSat
    split
    · exact ⟨State.setFld_regsWf _ _ _ _ hwf, State.setFld_regsBut (by simp) _ _, State.setFld_same ..⟩
    · exact ⟨hwf, .refl _ _, .refl _⟩
  obtain ⟨hwfA, hbut, hsame⟩ := h
  rw [cfgRefusal]
  exact ⟨State.setFld_regsWf _ _ _ _ hwfA, State.fld_setFld_self _ _ _ _ hwfA (by decide), hbut.setFld (by simp) _ _,
    hsame.trans (State.setFld_same ..)⟩

/-- A message is raised with an entry. -/
theorem raised_frame {s u : State} (hsame : SameButRegs s u) (v : Nat) : u.raise v = { s with
    regs := (u.raise v).regs, out := (u.raise v).out, cnt := (u.raise v).cnt } ∧ (u.raise v).out = { s.out with msix := s.out.msix ++ [v] } ∧
      (u.raise v).regs = u.regs := by
  have hraise := raise_cntFrame u v
  have hout : u.out = s.out := by rw [hsame]
  generalize u.raise v = t at hraise ⊢
  refine ⟨?_, by rw [hraise, hout], by rw [hraise]⟩
  rw [hraise, hsame]

theorem cfgLog_facts {s t : State} (hwf : s.regsWf = true) {kind : Nat} (hk : kind ≠ 4) {reason set source : Nat} {domain : BitVec 12}
    {offset : Nat} (ht : t = s.cfgLog kind reason set source domain offset) : t.regsWf = true ∧
      t.rd (R.CFG_LOG (cfgPlace s)) = cfgWord kind reason set source domain offset ∧ t.rd (R.CFG_LOG_INFO (cfgPlace s)) = s.stamp ∧
      (kind ≠ 2 → t.fld R.GLB_PLUMB_STATUS F.GLB_PLUMB_STATUS_LAST_REASON = reason % 256) ∧ s.RegsBut t (cfgLogRegs s) ∧
      t.out = { s.out with msix := s.out.msix ++ [if reason = 0x1B then 9 else 1] } ∧
      t = { s with regs := t.regs, out := t.out, cnt := t.cnt } := by
  obtain ⟨hwfE, hword, htime, hbutE, hsameE⟩ := cfgEntry_facts hwf (cfgWord kind reason set source domain offset)
  rw [cfgLog_eq s hk] at ht
  generalize cfgWord kind reason set source domain offset = w at hwfE hword htime hbutE hsameE ht ⊢
  generalize cfgEntry s w = e at hwfE hword htime hbutE hsameE ht
  by_cases hdone : kind = 2
  · rw [if_pos hdone] at ht
    obtain ⟨hframe, hout, hregs⟩ := raised_frame hsameE (if reason = 0x1B then 9 else 1)
    rw [← ht] at hframe hout hregs
    have hrd (o : Nat) : t.rd o = e.rd o := State.rd_congr hregs o
    exact ⟨State.regsWf_congr hregs hwfE, by rw [hrd, hword], by rw [hrd, htime], fun h => absurd hdone h, hbutE.trans (.of_regs hregs _),
      hout, hframe⟩
  · rw [if_neg hdone] at ht
    obtain ⟨hwfR, hreason, hbutR, hsameR⟩ := cfgRefusal_facts hwfE reason
    generalize cfgRefusal e reason = f at hwfR hreason hbutR hsameR ht
    obtain ⟨hframe, hout, hregs⟩ := raised_frame (hsameE.trans hsameR) (if reason = 0x1B then 9 else 1)
    rw [← ht] at hframe hout hregs
    have hrd (o : Nat) : t.rd o = f.rd o := State.rd_congr hregs o
    refine ⟨State.regsWf_congr hregs hwfR, ?_, ?_, fun _ => ?_, (hbutE.trans (hbutR.mono (by simp [cfgLogRegs]))).trans (.of_regs hregs _),
      hout, hframe⟩
    · rw [hrd, hbutR _ (by simp only [List.mem_singleton, R.CFG_LOG, R.GLB_PLUMB_STATUS]; omega), hword]
    · rw [hrd, hbutR _ (by simp only [List.mem_singleton, R.CFG_LOG_INFO, R.GLB_PLUMB_STATUS]; omega), htime]
    · rw [State.fld_congr (hrd _), hreason]

/-! ## The last check of the queue -/

/-- The queue of checks is empty again, and BUSY reads 0. -/
def queueEmptied (s : State) : State :=
  ({ s with cfg := { s.cfg with checks := [] } } : State).setFld R.CFG_COMMIT_STATUS F.CFG_COMMIT_STATUS_BUSY 0

theorem popCheck_last {s : State} {k : Check} (h : s.cfg.checks = [k]) : s.popCheck = queueEmptied s := by
  unfold State.popCheck
  rw [h]
  rfl

theorem queueEmptied_facts {s : State} (hwf : s.regsWf = true) : (queueEmptied s).regsWf = true ∧
    (queueEmptied s).cfg = { s.cfg with checks := [] } ∧ s.RegsBut (queueEmptied s) [R.CFG_COMMIT_STATUS] ∧
      (queueEmptied s).flag R.CFG_COMMIT_STATUS F.CFG_COMMIT_STATUS_BUSY = false ∧
      (queueEmptied s).fld R.CFG_COMMIT_STATUS F.CFG_COMMIT_STATUS_REASON = s.fld R.CFG_COMMIT_STATUS F.CFG_COMMIT_STATUS_REASON ∧
      queueEmptied s = { s with regs := (queueEmptied s).regs, cfg := { s.cfg with checks := [] } } := by
  obtain ⟨u, hu⟩ : ∃ u, u = ({ s with cfg := { s.cfg with checks := [] } } : State) := ⟨_, rfl⟩
  rw [queueEmptied, ← hu]
  have hregs : u.regs = s.regs := by rw [hu]
  have hcfg : u.cfg = { s.cfg with checks := [] } := by rw [hu]
  have hwfU := State.regsWf_congr hregs hwf
  refine ⟨State.setFld_regsWf _ _ _ _ hwfU, by rw [State.setFld_cfg, hcfg], (State.RegsBut.of_regs hregs _).setFld (by simp) _ _, ?_, ?_, ?_⟩
  · rw [State.flag, State.fld_setFld_self _ _ _ _ hwfU (by decide)]
    decide
  · rw [State.fld_setFld_of_disjoint _ _ _ _ _ hwfU (by decide) (by decide), State.fld_congr (State.rd_congr hregs _)]
  · rw [u.setFld_same, hu]

/-! ## Enable checks -/

/-- What an enable check leaves before the queue goes on. -/
def checkDone (s : State) (k : Check) : State :=
  if s.enableReason k.kind = 0 then s.enabled k.kind else s.cfgLog 3 (s.enableReason k.kind) 0xFF k.source k.domain k.offset

theorem exec_enableCheckDone {s : State} {k : Check} (h : s.cfg.checks = [k]) (hk : k.kind.isEnable = true) (hareas : k.kind ≠ .areasEnable)
    (hcfg : (checkDone s k).cfg = s.cfg) : exec .enableCheckDone s = .next (queueEmptied (checkDone s k)) := by
  have hexec : exec .enableCheckDone s = .next (checkDone s k).popCheck := by
    change execEnableCheckDone s = _
    unfold execEnableCheckDone
    rw [h]
    dsimp only
    rw [if_neg (by rw [hk]; decide), if_neg hareas, checkDone]
  rw [hexec, popCheck_last (k := k) (by rw [hcfg, h])]

theorem exec_areasCheckDone {s : State} {k : Check} (hwf : s.regsWf = true) (h : s.cfg.checks = [k]) (hk : k.kind = .areasEnable) {r : Nat} (hr : s.areasReason = r)
    {u : State} (hu : u = s.setFld R.MEM_STATUS F.MEM_STATUS_AREA_REASON r) : exec .enableCheckDone s = .next
      (queueEmptied (if r = 0 then u.setFld R.MEM_CTRL F.MEM_CTRL_AREAS_ENABLE 1 else u.cfgLog 3 r 0xFF k.source k.domain k.offset)) := by
  have hexec : exec .enableCheckDone s = .next
      (if r = 0 then u.setFld R.MEM_CTRL F.MEM_CTRL_AREAS_ENABLE 1 else u.cfgLog 3 r 0xFF k.source k.domain k.offset).popCheck := by
    change execEnableCheckDone s = _
    unfold execEnableCheckDone
    rw [h]
    dsimp only
    rw [hk, if_neg (by decide), if_pos rfl, State.enableReason, hr, State.enabled, hu]
  have hcfg : u.cfg = s.cfg := by rw [hu, State.setFld_cfg]
  rw [hexec, popCheck_last (k := k)]
  split
  · rw [State.setFld_cfg, hcfg, h]
  · obtain ⟨-, -, -, -, -, -, hframe⟩ := cfgLog_facts (s := u) (by rw [hu]; exact State.setFld_regsWf _ _ _ _ hwf) (kind := 3) (by decide) rfl
    rw [hframe, hcfg, h]

theorem enableCheckDone_other {s : State} (h : (s.cfg.checks.head?.any fun k => k.kind.isEnable) = false) :
    exec .enableCheckDone s = .next s := by
  change execEnableCheckDone s = _
  unfold execEnableCheckDone
  rcases hc : s.cfg.checks with _ | ⟨k, l⟩
  · rfl
  · rw [hc] at h
    exact if_pos (by simpa using h)

theorem enableCheck_refused {k : Check} {r : Nat} {s : State} (hchecks : s.cfg.checks = [k]) (hk : k.kind.isEnable = true)
    (hareas : k.kind ≠ .areasEnable) (hr : s.enableReason k.kind = r) (hr0 : r ≠ 0) (hlt : r < 256) (hwf : s.regsWf = true) :
    Answers (exec .enableCheckDone s) fun t =>
      t.cfg.checks = [] ∧ t.cfg.committed = s.cfg.committed ∧
      t.rd (R.CFG_LOG (s.fld R.CFG_LOG_HEAD F.CFG_LOG_HEAD_COUNT % 256)) = F.CFG_LOG_KIND.put 3 ||| F.CFG_LOG_REASON.put r |||
        F.CFG_LOG_SET.put 0xFF ||| F.CFG_LOG_SOURCE.put k.source ||| F.CFG_LOG_DOMAIN.put k.domain.toNat ||| F.CFG_LOG_OFFSET.put k.offset ∧
      t.rd (R.CFG_LOG_INFO (s.fld R.CFG_LOG_HEAD F.CFG_LOG_HEAD_COUNT % 256)) = s.stamp ∧
      t.fld R.GLB_PLUMB_STATUS F.GLB_PLUMB_STATUS_LAST_REASON = r ∧
      s.RegsBut t [R.CFG_LOG (s.fld R.CFG_LOG_HEAD F.CFG_LOG_HEAD_COUNT % 256), R.CFG_LOG_INFO (s.fld R.CFG_LOG_HEAD F.CFG_LOG_HEAD_COUNT % 256),
        R.CFG_LOG_HEAD, R.GLB_PLUMB_STATUS, R.CFG_COMMIT_STATUS] ∧
      t.out = { s.out with msix := s.out.msix ++ [if r = 0x1B then 9 else 1] } ∧
      t = { s with regs := t.regs, cfg := { s.cfg with checks := [] }, out := t.out, cnt := t.cnt } := by
  have hdone : checkDone s k = s.cfgLog 3 r 0xFF k.source k.domain k.offset := by rw [checkDone, hr, if_neg hr0]
  obtain ⟨hwfL, hword, htime, hreason, hbut, hout, hframe⟩ := cfgLog_facts hwf (by decide) hdone
  generalize hu : checkDone s k = u at hwfL hword htime hreason hbut hout hframe
  have hcfg : u.cfg = s.cfg := by rw [hframe]
  rw [exec_enableCheckDone hchecks hk hareas (by rw [hu, hcfg]), hu]
  obtain ⟨-, hcfgT, hbutT, -, -, hframeT⟩ := queueEmptied_facts hwfL
  generalize queueEmptied u = t at hcfgT hbutT hframeT ⊢
  have hoff (i : Nat) : R.CFG_LOG i ∉ [R.CFG_COMMIT_STATUS] ∧ R.CFG_LOG_INFO i ∉ [R.CFG_COMMIT_STATUS] := by
    simp only [List.mem_singleton, R.CFG_LOG, R.CFG_LOG_INFO, R.CFG_COMMIT_STATUS]
    omega
  rw [hcfg] at hcfgT hframeT
  have houtT : t.out = u.out := by rw [hframeT]
  refine ⟨t, rfl, by rw [hcfgT], by rw [hcfgT], ?_, ?_, ?_, ?_, by rw [houtT, hout], ?_⟩
  · exact (hbutT _ (hoff _).1).trans hword
  · exact (hbutT _ (hoff _).2).trans htime
  · rw [State.fld_congr (hbutT _ (by decide)), hreason (by decide), Nat.mod_eq_of_lt hlt]
  · exact (hbut.mono (by simp [cfgLogRegs, cfgPlace])).trans (hbutT.mono (by simp))
  · rw [hframeT, hframe]

theorem areasReason_lt (s : State) : s.areasReason < 256 := by
  unfold State.areasReason
  extract_lets h a retained
  repeat' split
  all_goals omega

theorem areasCheck_refused {k : Check} {r : Nat} {s : State} (hchecks : s.cfg.checks = [k]) (hk : k.kind = .areasEnable)
    (hr : s.areasReason = r) (hr0 : r ≠ 0) (hwf : s.regsWf = true) : Answers (exec .enableCheckDone s) fun t =>
      t.cfg.checks = [] ∧ t.fld R.MEM_STATUS F.MEM_STATUS_AREA_REASON = r ∧ t.rd R.MEM_CTRL = s.rd R.MEM_CTRL ∧
      t.fld R.GLB_PLUMB_STATUS F.GLB_PLUMB_STATUS_LAST_REASON = r := by
  have hlt : r < 256 := hr ▸ areasReason_lt s
  have hset := s.fld_setFld_self R.MEM_STATUS F.MEM_STATUS_AREA_REASON r hwf (by decide)
  have hbutA : s.RegsBut (s.setFld R.MEM_STATUS F.MEM_STATUS_AREA_REASON r) [R.MEM_STATUS] := State.setFld_regsBut (by simp) _ _
  have hwfA := s.setFld_regsWf R.MEM_STATUS F.MEM_STATUS_AREA_REASON r hwf
  rw [exec_areasCheckDone hwf hchecks hk hr rfl, if_neg hr0]
  generalize s.setFld R.MEM_STATUS F.MEM_STATUS_AREA_REASON r = a at hset hbutA hwfA ⊢
  obtain ⟨hwfL, -, -, hreason, hbut, -, -⟩ := cfgLog_facts hwfA (kind := 3) (reason := r) (set := 0xFF) (source := k.source)
    (domain := k.domain) (offset := k.offset) (by decide) rfl
  generalize a.cfgLog 3 r 0xFF k.source k.domain k.offset = u at hwfL hreason hbut ⊢
  obtain ⟨-, hcfgT, hbutT, -, -, -⟩ := queueEmptied_facts hwfL
  have hmem (o : Nat) (ho : o = R.MEM_STATUS ∨ o = R.MEM_CTRL) : (queueEmptied u).rd o = a.rd o := by
    refine (hbutT o ?_).trans (hbut o ?_)
    · rcases ho with rfl | rfl <;> decide
    · have := Nat.mod_lt (a.fld R.CFG_LOG_HEAD F.CFG_LOG_HEAD_COUNT) (show 0 < 256 by decide)
      simp only [cfgLogRegs, cfgPlace, List.mem_cons, List.not_mem_nil, or_false, R.CFG_LOG, R.CFG_LOG_INFO, R.CFG_LOG_HEAD, R.GLB_PLUMB_STATUS]
      rcases ho with rfl | rfl
      · simp only [R.MEM_STATUS]
        omega
      · simp only [R.MEM_CTRL]
        omega
  refine ⟨_, rfl, by rw [hcfgT], ?_, ?_, ?_⟩
  · rw [State.fld_congr (hmem _ (.inl rfl)), hset]
    exact Nat.mod_eq_of_lt hlt
  · rw [hmem _ (.inr rfl), hbutA _ (by decide)]
  · rw [State.fld_congr (hbutT _ (by decide)), hreason (by decide), Nat.mod_eq_of_lt hlt]

theorem areasCheck_passed {k : Check} {s : State} (hchecks : s.cfg.checks = [k]) (hk : k.kind = .areasEnable) (hr : s.areasReason = 0)
    (hwf : s.regsWf = true) : Answers (exec .enableCheckDone s) fun t => t.cfg.checks = [] ∧
      t.fld R.MEM_STATUS F.MEM_STATUS_AREA_REASON = 0 ∧ t.flag R.MEM_CTRL F.MEM_CTRL_AREAS_ENABLE = true ∧
      s.RegsBut t [R.MEM_STATUS, R.MEM_CTRL, R.CFG_COMMIT_STATUS] ∧ t = { s with regs := t.regs, cfg := { s.cfg with checks := [] } } := by
  have hset := s.fld_setFld_self R.MEM_STATUS F.MEM_STATUS_AREA_REASON 0 hwf (by decide)
  have hbutA : s.RegsBut (s.setFld R.MEM_STATUS F.MEM_STATUS_AREA_REASON 0) [R.MEM_STATUS, R.MEM_CTRL] := State.setFld_regsBut (by simp) _ _
  have hwfA := s.setFld_regsWf R.MEM_STATUS F.MEM_STATUS_AREA_REASON 0 hwf
  have hsameA := s.setFld_same R.MEM_STATUS F.MEM_STATUS_AREA_REASON 0
  rw [exec_areasCheckDone hwf hchecks hk hr rfl, if_pos rfl]
  generalize s.setFld R.MEM_STATUS F.MEM_STATUS_AREA_REASON 0 = a at hset hbutA hwfA hsameA ⊢
  have hon := a.fld_setFld_self R.MEM_CTRL F.MEM_CTRL_AREAS_ENABLE 1 hwfA (by decide)
  have hstatus := a.rd_setFld_of_ne (o := R.MEM_STATUS) (off := R.MEM_CTRL) F.MEM_CTRL_AREAS_ENABLE 1 (by decide)
  have hbut := hbutA.setFld (off := R.MEM_CTRL) (by simp) F.MEM_CTRL_AREAS_ENABLE 1
  have hwfU := a.setFld_regsWf R.MEM_CTRL F.MEM_CTRL_AREAS_ENABLE 1 hwfA
  have hsame := hsameA.trans (a.setFld_same R.MEM_CTRL F.MEM_CTRL_AREAS_ENABLE 1)
  generalize a.setFld R.MEM_CTRL F.MEM_CTRL_AREAS_ENABLE 1 = u at hon hstatus hbut hwfU hsame ⊢
  obtain ⟨-, hcfgT, hbutT, -, -, hframeT⟩ := queueEmptied_facts hwfU
  generalize queueEmptied u = t at hcfgT hbutT hframeT ⊢
  have hcfg : u.cfg = s.cfg := by rw [hsame]
  refine ⟨t, rfl, by rw [hcfgT], ?_, ?_, (hbut.mono (by simp)).trans (hbutT.mono (by simp)), ?_⟩
  · rw [State.fld_congr (hbutT _ (by decide)), State.fld_congr hstatus, hset]
    rfl
  · rw [State.flag, State.fld_congr (hbutT _ (by decide)), hon]
    rfl
  · rw [hframeT, hcfg, hsame]

theorem exec_enableCheck_passed {s u : State} {k : Check} (h : s.cfg.checks = [k]) (hk : k.kind.isEnable = true) (hareas : k.kind ≠ .areasEnable)
    (hr : s.enableReason k.kind = 0) (hu : s.enabled k.kind = u) (hcfg : u.cfg = s.cfg) :
    exec .enableCheckDone s = .next (queueEmptied u) := by
  have hdone : checkDone s k = u := by rw [checkDone, if_pos hr, hu]
  rw [exec_enableCheckDone h hk hareas (by rw [hdone, hcfg]), hdone]

/-- Where a passed check sets fields alone, nothing but those registers and the queue changes. -/
theorem enableCheck_sets {s u : State} {k : Check} {l : List Nat} (h : s.cfg.checks = [k]) (hk : k.kind.isEnable = true)
    (hareas : k.kind ≠ .areasEnable) (hr : s.enableReason k.kind = 0) (hu : s.enabled k.kind = u) (hwf : u.regsWf = true)
    (hbut : s.RegsBut u l) (hsame : SameButRegs s u) : Answers (exec .enableCheckDone s) fun t => t.cfg.checks = [] ∧
      u.RegsBut t [R.CFG_COMMIT_STATUS] ∧ s.RegsBut t (R.CFG_COMMIT_STATUS :: l) ∧
      t = { s with regs := t.regs, cfg := { s.cfg with checks := [] } } := by
  have hcfg : u.cfg = s.cfg := by rw [hsame]
  rw [exec_enableCheck_passed h hk hareas hr hu hcfg]
  obtain ⟨-, hcfgT, hbutT, -, -, hframeT⟩ := queueEmptied_facts hwf
  generalize queueEmptied u = t at hcfgT hbutT hframeT ⊢
  exact ⟨t, rfl, by rw [hcfgT], hbutT, (hbut.mono (by simp)).trans (hbutT.mono (by simp)), by rw [hframeT, hcfg, hsame]⟩

theorem fwdCheck_passed {k : Check} {s : State} (hchecks : s.cfg.checks = [k]) (hk : k.kind = .fwdEnable) (hr : s.fwdReason = 0)
    (hwf : s.regsWf = true) : Answers (exec .enableCheckDone s) fun t => t.cfg.checks = [] ∧
      t.flag R.GLB_CTRL F.GLB_CTRL_FWD_ENABLE = true ∧ t.flag R.GLB_STATUS F.GLB_STATUS_FWD_ACTIVE = true ∧
      s.RegsBut t [R.GLB_CTRL, R.GLB_STATUS, R.CFG_COMMIT_STATUS] ∧ t = { s with regs := t.regs, cfg := { s.cfg with checks := [] } } := by
  have hon := s.fld_setFld_self R.GLB_CTRL F.GLB_CTRL_FWD_ENABLE 1 hwf (by decide)
  have hwfA := s.setFld_regsWf R.GLB_CTRL F.GLB_CTRL_FWD_ENABLE 1 hwf
  have hbutA : s.RegsBut (s.setFld R.GLB_CTRL F.GLB_CTRL_FWD_ENABLE 1) [R.GLB_CTRL, R.GLB_STATUS] := State.setFld_regsBut (by simp) _ _
  have hsameA := s.setFld_same R.GLB_CTRL F.GLB_CTRL_FWD_ENABLE 1
  have hu : s.enabled k.kind = (s.setFld R.GLB_CTRL F.GLB_CTRL_FWD_ENABLE 1).setFld R.GLB_STATUS F.GLB_STATUS_FWD_ACTIVE 1 := by
    rw [hk, State.enabled]
  generalize s.setFld R.GLB_CTRL F.GLB_CTRL_FWD_ENABLE 1 = a at hon hwfA hbutA hsameA hu
  have hactive := a.fld_setFld_self R.GLB_STATUS F.GLB_STATUS_FWD_ACTIVE 1 hwfA (by decide)
  have hctrl := a.rd_setFld_of_ne (o := R.GLB_CTRL) (off := R.GLB_STATUS) F.GLB_STATUS_FWD_ACTIVE 1 (by decide)
  refine (enableCheck_sets hchecks (by rw [hk]; rfl) (by rw [hk]; decide) (by rw [hk]; exact hr) hu (State.setFld_regsWf _ _ _ _ hwfA)
    (hbutA.setFld (by simp) _ _) (hsameA.trans (State.setFld_same ..))).imp fun t ⟨ht, hchecksT, hbutU, hbut, hframe⟩ =>
      ⟨ht, hchecksT, ?_, ?_, hbut.mono (by simp), hframe⟩
  · rw [State.flag, State.fld_congr (hbutU _ (by decide)), State.fld_congr hctrl, hon]
    rfl
  · rw [State.flag, State.fld_congr (hbutU _ (by decide)), hactive]
    rfl

theorem bsnCheck_passed {k : Check} {e : Fin 8} {s : State} (hchecks : s.cfg.checks = [k]) (hk : k.kind = .bsnEnable e)
    (hr : s.bsnReason e = 0) (hwf : s.regsWf = true) : Answers (exec .enableCheckDone s) fun t => t.cfg.checks = [] ∧
      t.flag (R.BSN_CTRL e) F.BSN_CTRL_ENABLE = true ∧ s.RegsBut t [R.BSN_CTRL e, R.CFG_COMMIT_STATUS] ∧
      t = { s with regs := t.regs, cfg := { s.cfg with checks := [] } } := by
  have hon := s.fld_setFld_self (R.BSN_CTRL e) F.BSN_CTRL_ENABLE 1 hwf (by decide)
  have hoff : R.BSN_CTRL e ∉ [R.CFG_COMMIT_STATUS] := by
    simp only [List.mem_singleton, R.BSN_CTRL, R.CFG_COMMIT_STATUS]
    omega
  refine (enableCheck_sets (l := [R.BSN_CTRL e]) hchecks (by rw [hk]; rfl) (by rw [hk]; nofun) (by rw [hk]; exact hr)
    (u := s.setFld (R.BSN_CTRL e) F.BSN_CTRL_ENABLE 1) (by rw [hk, State.enabled]) (State.setFld_regsWf _ _ _ _ hwf)
    (State.setFld_regsBut (by simp) _ _) (State.setFld_same ..)).imp fun t ⟨ht, hchecksT, hbutU, hbut, hframe⟩ =>
      ⟨ht, hchecksT, ?_, hbut.mono (by simp), hframe⟩
  rw [State.flag, State.fld_congr (hbutU _ hoff), hon]
  rfl

/-- A completion ring in force: its registers. -/
def cqRegs (s : State) (c : Nat) : State :=
  (s.setFld (R.HIF_CQ_CFG c) F.HIF_CQ_CFG_ENABLE 1).wr (R.HIF_CQ_STATE c) (F.HIF_CQ_STATE_PHASE.put 1)

theorem cqCheck_passed {k : Check} {c : Fin 256} {s : State} (hchecks : s.cfg.checks = [k]) (hk : k.kind = .cqEnable c)
    (hr : s.cqReason c = 0) (hwf : s.regsWf = true) : Answers (exec .enableCheckDone s) fun t => t.cfg.checks = [] ∧ t.cqOn c = true ∧
      t.rd (R.HIF_CQ_STATE c) = F.HIF_CQ_STATE_PHASE.put 1 ∧ s.RegsBut t [R.HIF_CQ_CFG c, R.HIF_CQ_STATE c, R.CFG_COMMIT_STATUS] ∧
      t = { s with regs := t.regs, host := { s.host with cqHost := t.host.cqHost }, cfg := { s.cfg with checks := [] } } := by
  have hon := s.fld_setFld_self (R.HIF_CQ_CFG c) F.HIF_CQ_CFG_ENABLE 1 hwf (by decide)
  have hwfA := s.setFld_regsWf (R.HIF_CQ_CFG c) F.HIF_CQ_CFG_ENABLE 1 hwf
  have hne : R.HIF_CQ_CFG c ≠ R.HIF_CQ_STATE c := by simp only [R.HIF_CQ_CFG, R.HIF_CQ_STATE]; omega
  have hcfgC : (cqRegs s c).fld (R.HIF_CQ_CFG c) F.HIF_CQ_CFG_ENABLE = 1 % 2 ^ F.HIF_CQ_CFG_ENABLE.w := by
    rw [cqRegs, State.fld_congr (State.rd_wr_of_ne _ _ hne), hon]
  have hstate : (cqRegs s c).rd (R.HIF_CQ_STATE c) = F.HIF_CQ_STATE_PHASE.put 1 := by rw [cqRegs, State.rd_wr_self _ _ _ hwfA]
  have hwfC : (cqRegs s c).regsWf = true := State.wr_regsWf _ _ _ hwfA
  have hbut : s.RegsBut (cqRegs s c) [R.HIF_CQ_CFG c, R.HIF_CQ_STATE c] := (State.setFld_regsBut (by simp) _ _).wr (by simp) _
  have hsame : SameButRegs s (cqRegs s c) := (State.setFld_same ..).trans (State.wr_same ..)
  obtain ⟨u, hu⟩ : ∃ u, u = ({ cqRegs s c with host.cqHost := sdel (cqRegs s c).host.cqHost c } : State) := ⟨_, rfl⟩
  have henabled : s.enabled k.kind = u := by
    rw [hk, State.enabled, State.cqStart, hu]
    rfl
  generalize cqRegs s c = a at hcfgC hstate hwfC hbut hsame hu
  have hregs : u.regs = a.regs := by rw [hu]
  have hhost : a.host = s.host := by rw [hsame]
  have hframe : u = { s with regs := u.regs, host := { s.host with cqHost := u.host.cqHost } } := by
    rw [hu, hhost, hsame]
  clear hu
  have hcfg : u.cfg = s.cfg := by rw [hframe]
  rw [exec_enableCheck_passed hchecks (by rw [hk]; rfl) (by rw [hk]; nofun) (by rw [hk]; exact hr) henabled hcfg]
  obtain ⟨-, hcfgT, hbutT, -, -, hframeT⟩ := queueEmptied_facts (State.regsWf_congr hregs hwfC)
  generalize queueEmptied u = t at hcfgT hbutT hframeT ⊢
  have hrd (o : Nat) (ho : o = R.HIF_CQ_CFG c ∨ o = R.HIF_CQ_STATE c) : t.rd o = a.rd o := by
    refine (hbutT o ?_).trans (State.rd_congr hregs o)
    have := c.isLt
    rcases ho with rfl | rfl
    · simp only [List.mem_singleton, R.HIF_CQ_CFG, R.CFG_COMMIT_STATUS]
      omega
    · simp only [List.mem_singleton, R.HIF_CQ_STATE, R.CFG_COMMIT_STATUS]
      omega
  have hhostT : t.host = u.host := by rw [hframeT]
  refine ⟨t, rfl, by rw [hcfgT], ?_, by rw [hrd _ (.inr rfl), hstate],
    ((hbut.trans (.of_regs hregs _)).mono (by simp)).trans (hbutT.mono (by simp)), ?_⟩
  · rw [State.cqOn, State.flag, State.fld_congr (hrd _ (.inl rfl)), hcfgC]
    rfl
  · rw [hhostT, hframeT, hcfg, hframe]

theorem rebalanceAll_sends (s : State) : s.Sends s.rebalanceAll := by
  unfold State.rebalanceAll
  exact .foldl (fun _ _ h => h.rebalance) (.refl s)

/-- A port that has been enabled, before the buffers are shared out again. -/
def portTrains (s : State) (p : Nat) : State :=
  State.setFld (State.portTo { s.setFld (prtCtrl p) F.PRT_PORT_CTRL_ENABLE 1 with ports := sdel s.ports p } p psTraining) (prtState p)
    F.PRT_PORT_STATE_NEG_FAIL 0

theorem portTrains_facts {s : State} (p : Nat) (hwf : s.regsWf = true) : (portTrains s p).regsWf = true ∧
    (portTrains s p).portEnabled p = true ∧ (portTrains s p).portState p = psTraining ∧
      (portTrains s p).fld (prtState p) F.PRT_PORT_STATE_NEG_FAIL = 0 ∧ (portTrains s p).cfg = s.cfg := by
  have hon := s.fld_setFld_self (prtCtrl p) F.PRT_PORT_CTRL_ENABLE 1 hwf (by decide)
  have hwfA := s.setFld_regsWf (prtCtrl p) F.PRT_PORT_CTRL_ENABLE 1 hwf
  have hcfgA : (s.setFld (prtCtrl p) F.PRT_PORT_CTRL_ENABLE 1).cfg = s.cfg := State.setFld_cfg ..
  have hne : prtCtrl p ≠ prtState p := by
    simp only [prtCtrl, prtState, R.PRT_PORT_CTRL, R.PRT_PORT_STATE]
    omega
  rw [portTrains, State.portTo]
  generalize s.setFld (prtCtrl p) F.PRT_PORT_CTRL_ENABLE 1 = a at hon hwfA hcfgA ⊢
  obtain ⟨b, hb⟩ : ∃ b, b = ({ a with ports := sdel s.ports p } : State) := ⟨_, rfl⟩
  rw [← hb]
  have hregs : b.regs = a.regs := by rw [hb]
  have hcfg : b.cfg = s.cfg := by rw [hb, ← hcfgA]
  clear hb
  have hwfB := State.regsWf_congr hregs hwfA
  have hwfC := State.setFld_regsWf b (prtState p) F.PRT_PORT_STATE_STATE psTraining hwfB
  refine ⟨State.setFld_regsWf _ _ _ _ hwfC, ?_, ?_, ?_, by rw [State.setFld_cfg, State.setFld_cfg, hcfg]⟩
  · rw [State.portEnabled, State.flag, State.fld_congr (State.rd_setFld_of_ne _ _ _ hne), State.fld_congr (State.rd_setFld_of_ne _ _ _ hne),
      State.fld_congr (State.rd_congr hregs _), hon]
    rfl
  · rw [State.portState, State.fld_setFld_of_disjoint _ _ _ _ _ hwfC (by decide) (by decide), State.fld_setFld_self _ _ _ _ hwfB (by decide)]
    rfl
  · rw [State.fld_setFld_self _ _ _ _ hwfC (by decide)]
    rfl

theorem portCheck_passed {k : Check} {p : Fin 2048} {s : State} (hchecks : s.cfg.checks = [k]) (hk : k.kind = .portEnable p)
    (hr : s.portReason p = 0) (hwf : s.regsWf = true) : Answers (exec .enableCheckDone s) fun t => t.cfg.checks = [] ∧
      t.portEnabled p = true ∧ t.portState p = psTraining ∧ t.fld (prtState p) F.PRT_PORT_STATE_NEG_FAIL = 0 := by
  have henabled : s.enabled k.kind = (portTrains s p).rebalanceAll := by
    rw [hk, State.enabled, State.portStart]
    rfl
  obtain ⟨hwfU, hon, hstate, hfail, hcfg⟩ := portTrains_facts p hwf
  have hsends := rebalanceAll_sends (portTrains s p)
  generalize portTrains s p = a at henabled hwfU hon hstate hfail hcfg hsends
  generalize a.rebalanceAll = u at henabled hsends
  have hregs : u.regs = a.regs := hsends.regs
  rw [exec_enableCheck_passed hchecks (by rw [hk]; rfl) (by rw [hk]; nofun) (by rw [hk]; exact hr) henabled (by rw [hsends, hcfg])]
  obtain ⟨-, hcfgT, hbutT, -, -, -⟩ := queueEmptied_facts (State.regsWf_congr hregs hwfU)
  generalize queueEmptied u = t at hcfgT hbutT ⊢
  have hrd (o : Nat) (ho : o = prtCtrl p ∨ o = prtState p) : t.rd o = a.rd o := by
    refine (hbutT o ?_).trans (State.rd_congr hregs o)
    rcases ho with rfl | rfl
    · simp only [List.mem_singleton, prtCtrl, R.PRT_PORT_CTRL, R.CFG_COMMIT_STATUS]
      omega
    · simp only [List.mem_singleton, prtState, R.PRT_PORT_STATE, R.CFG_COMMIT_STATUS]
      omega
  refine ⟨t, rfl, by rw [hcfgT], ?_, ?_, ?_⟩
  · rw [State.portEnabled, State.flag_congr (hrd _ (.inl rfl))]
    exact hon
  · rw [State.portState, State.fld_congr (hrd _ (.inr rfl))]
    exact hstate
  · rw [State.fld_congr (hrd _ (.inr rfl)), hfail]

/-- The registers of a ring in force. -/
def ringRegs (s : State) (r : Nat) : State := (s.ringBit r true).setFld (R.HIF_RING_STATE r) F.HIF_RING_STATE_STATE 1

theorem ringCheck_passed {k : Check} {r : Fin 1024} {s : State} (hchecks : s.cfg.checks = [k]) (hk : k.kind = .ringEnable r)
    (hr : s.ringReason r = 0) (hwf : s.regsWf = true) : Answers (exec .enableCheckDone s) fun t => t.cfg.checks = [] ∧ t.ringSt r = 1 ∧
      (t.rd (R.HIF_RING_ENABLE (r / 64))).getLsbD (r % 64) = true := by
  have hlt := r.isLt
  have hbit : (s.ringBit r true).bit (R.HIF_RING_ENABLE (r / 64)) (r % 64) = true := bit_setBit_self _ hwf (Nat.mod_lt _ (by decide))
  have hwfA : (s.ringBit r true).regsWf = true := State.setFld_regsWf _ _ _ _ hwf
  have hcfgA : (s.ringBit r true).cfg = s.cfg := State.setBit_cfg ..
  obtain ⟨u, hu⟩ : ∃ u, u = ((ringRegs s r).setRing r { limit := BitVec.ofNat 32 ((ringRegs s r).ringHead r), first := true }).readLine r :=
    ⟨_, rfl⟩
  have henabled : s.enabled k.kind = u := by
    rw [hk, State.enabled, State.ringStart, hu]
    rfl
  have hregs : u.regs = (ringRegs s r).regs := by rw [hu, State.readLine, State.sendCxl, State.setRing, State.setRing]
  have hcfg : u.cfg = (ringRegs s r).cfg := by rw [hu, State.readLine, State.sendCxl, State.setRing, State.setRing]
  clear hu
  rw [ringRegs] at hregs hcfg
  generalize s.ringBit r true = a at hbit hwfA hcfgA hregs hcfg
  rw [State.setFld_cfg, hcfgA] at hcfg
  have hstate := a.fld_setFld_self (R.HIF_RING_STATE r) F.HIF_RING_STATE_STATE 1 hwfA (by decide)
  have hbut : a.RegsBut (a.setFld (R.HIF_RING_STATE r) F.HIF_RING_STATE_STATE 1) [R.HIF_RING_STATE r] := State.setFld_regsBut (by simp) _ _
  have hwfB := a.setFld_regsWf (R.HIF_RING_STATE r) F.HIF_RING_STATE_STATE 1 hwfA
  generalize a.setFld (R.HIF_RING_STATE r) F.HIF_RING_STATE_STATE 1 = b at hstate hbut hwfB hregs
  rw [exec_enableCheck_passed hchecks (by rw [hk]; rfl) (by rw [hk]; nofun) (by rw [hk]; exact hr) henabled hcfg]
  obtain ⟨-, hcfgT, hbutT, -, -, -⟩ := queueEmptied_facts (State.regsWf_congr hregs hwfB)
  generalize queueEmptied u = t at hcfgT hbutT ⊢
  have hrd (o : Nat) (ho : o < R.CFG_COMMIT) : t.rd o = b.rd o := by
    refine (hbutT o ?_).trans (State.rd_congr hregs o)
    simp only [R.CFG_COMMIT] at ho
    simp only [List.mem_singleton, R.CFG_COMMIT_STATUS]
    omega
  refine ⟨t, rfl, by rw [hcfgT], ?_, ?_⟩
  · rw [State.ringSt, State.fld_congr (hrd _ (by simp only [R.HIF_RING_STATE, R.CFG_COMMIT]; omega)), hstate]
    rfl
  · rw [hrd _ (by simp only [R.HIF_RING_ENABLE, R.CFG_COMMIT]; omega),
      hbut _ (by simp only [List.mem_singleton, R.HIF_RING_ENABLE, R.HIF_RING_STATE]; omega)]
    exact hbit

/-! ## Commits that are asked for -/

/-- The row of CFG_COMMIT. -/
def cfgCommitRow : RegSpec := ⟨R.CFG_COMMIT, [], [⟨F.CFG_COMMIT_GO, .w1s, .l, 0⟩, ⟨F.CFG_COMMIT_SET, .rw, .l, 0⟩]⟩

theorem findReg_cfgCommit : findReg R.CFG_COMMIT = some cfgCommitRow := by decide +kernel

/-- The word that asks for a commit. -/
def commitWord (set : Nat) : Word := F.CFG_COMMIT_GO.put 1 ||| F.CFG_COMMIT_SET.put set

theorem exec_cfgCommit (set : BitVec 8) (s : State) : exec (.cfgCommit set) s = .next (s.writeReg R.CFG_COMMIT (commitWord set.toNat) {}) := rfl

theorem commitWord_fields (set : BitVec 8) : F.CFG_COMMIT_GO.get (commitWord set.toNat) = 1 ∧
    F.CFG_COMMIT_SET.get (commitWord set.toNat) = set.toNat := by
  unfold commitWord
  constructor
  · simp (disch := decide) only [Fld.get_or, Fld.get_put_self, Fld.get_put_of_disjoint, Nat.or_zero]
    rfl
  · simp (disch := decide) only [Fld.get_or, Fld.get_put_self, Fld.get_put_of_disjoint, Nat.zero_or]
    exact Nat.mod_eq_of_lt set.isLt

/-- The write stores SET alone. -/
theorem cfgCommitRow_written (old : Word) (set : Nat) :
    cfgCommitRow.written R.CFG_COMMIT old (commitWord set) false = F.CFG_COMMIT_SET.set old set := by
  have hrw : cfgCommitRow.rwBits = F.CFG_COMMIT_SET.mask := by decide
  have hw1c : cfgCommitRow.w1cBits = 0#64 := by decide
  have hword : commitWord set &&& F.CFG_COMMIT_SET.mask = F.CFG_COMMIT_SET.put set := by
    refine BitVec.eq_of_getLsbD_eq fun i hi => ?_
    rw [commitWord, BitVec.getLsbD_and, BitVec.getLsbD_or, Fld.put_getLsbD, Fld.put_getLsbD, Fld.mask_getLsbD, decide_eq_true hi]
    by_cases hlow : i < 8
    · have hgo : ¬63 ≤ i := by omega
      simp [hlow, hgo]
    · simp [hlow]
  rw [RegSpec.written_eq (by decide), hrw, hw1c, hword, Fld.set, BitVec.and_zero, BitVec.not_zero, BitVec.and_allOnes]

theorem writeEffect_cfgCommit (s : State) (old : Word) (set : BitVec 8) :
    s.writeEffect R.CFG_COMMIT R.CFG_COMMIT old (commitWord set.toNat) false {} =
      if setCommits set.toNat then (s.setFld R.CFG_COMMIT F.CFG_COMMIT_GO 1).askCommit set.toNat 0 0 0
      else (s.commitResult set.toNat 0x10 0 0 0).commitBusy := by
  obtain ⟨hgo, hset⟩ := commitWord_fields set
  rw [State.writeEffect, if_neg (by decide), if_pos (by decide), State.effectCfg, if_pos ⟨rfl, hgo⟩, hset]

theorem goBusy_cfgCommit (s : State) (set : BitVec 8) :
    s.goBusy R.CFG_COMMIT R.CFG_COMMIT (commitWord set.toNat) = s.flag R.CFG_COMMIT F.CFG_COMMIT_GO := by
  have h : s.goBusy R.CFG_COMMIT R.CFG_COMMIT (commitWord set.toNat) =
    (F.CFG_COMMIT_GO.get (commitWord set.toNat) == 1 && s.flag R.CFG_COMMIT F.CFG_COMMIT_GO) := rfl
  rw [h, (commitWord_fields set).1]
  rfl

theorem cfgCommit_busy {set : BitVec 8} {s : State} (h : s.flag R.CFG_COMMIT F.CFG_COMMIT_GO = true) : exec (.cfgCommit set) s = .next s := by
  rw [exec_cfgCommit, State.writeReg, findReg_cfgCommit]
  dsimp only
  rw [if_neg (by decide), if_neg (by decide), if_neg (by decide)]
  exact congrArg _ (if_pos ((goBusy_cfgCommit s set).trans h))

theorem exec_cfgCommit_free {set : BitVec 8} {s : State} (h : s.flag R.CFG_COMMIT F.CFG_COMMIT_GO = false) : exec (.cfgCommit set) s = .next
    (if setCommits set.toNat then
      ((s.setFld R.CFG_COMMIT F.CFG_COMMIT_SET set.toNat).setFld R.CFG_COMMIT F.CFG_COMMIT_GO 1).askCommit set.toNat 0 0 0
    else ((s.setFld R.CFG_COMMIT F.CFG_COMMIT_SET set.toNat).commitResult set.toNat 0x10 0 0 0).commitBusy) := by
  have hq : cfgCommitRow.changesQ (s.rd R.CFG_COMMIT) (commitWord set.toNat) = false := RegSpec.changesQ_of_no_q (by decide) _ _
  rw [exec_cfgCommit, State.writeReg_of_row findReg_cfgCommit (by decide) ((goBusy_cfgCommit s set).trans h) (by rw [hq, Bool.false_and]),
    cfgCommitRow_written]
  exact congrArg Host.Outcome.next (writeEffect_cfgCommit ..)

theorem cfgCommit_asked {set : BitVec 8} {s : State} (h : s.flag R.CFG_COMMIT F.CFG_COMMIT_GO = false) (hset : setCommits set.toNat = true) :
    exec (.cfgCommit set) s = .next (((s.setFld R.CFG_COMMIT F.CFG_COMMIT_SET set.toNat).setFld R.CFG_COMMIT F.CFG_COMMIT_GO 1).pushCheck
      { kind := .commit set.toNat }) := by
  rw [exec_cfgCommit_free h, if_pos hset]
  rfl

/-- The word of CFG_COMMIT_STATUS when a commit has been answered. -/
def resultWord (set reason offset : Nat) : Word :=
  F.CFG_COMMIT_STATUS_REASON.put reason ||| F.CFG_COMMIT_STATUS_SET.put set ||| F.CFG_COMMIT_STATUS_OFFSET.put offset

theorem resultWord_fields {set reason : Nat} (offset : Nat) (hset : set < 256) (hreason : reason < 256) :
    F.CFG_COMMIT_STATUS_REASON.get (resultWord set reason offset) = reason ∧ F.CFG_COMMIT_STATUS_SET.get (resultWord set reason offset) = set := by
  unfold resultWord
  constructor
  · simp (disch := decide) only [Fld.get_or, Fld.get_put_self, Fld.get_put_of_disjoint, Nat.or_zero]
    exact Nat.mod_eq_of_lt hreason
  · simp (disch := decide) only [Fld.get_or, Fld.get_put_self, Fld.get_put_of_disjoint, Nat.zero_or, Nat.or_zero]
    exact Nat.mod_eq_of_lt hset

theorem commitResult_facts {s t : State} (hwf : s.regsWf = true) {set reason offset source : Nat} {domain : BitVec 12}
    (ht : t = s.commitResult set reason offset source domain) : t.regsWf = true ∧
      t.rd R.CFG_COMMIT_STATUS = resultWord set reason offset ∧
      (reason ≠ 0 → t.fld R.GLB_PLUMB_STATUS F.GLB_PLUMB_STATUS_LAST_REASON = reason % 256) ∧
      (∀ o, o < R.CFG_LOG 0 → o ∉ [R.CFG_LOG_HEAD, R.GLB_PLUMB_STATUS, R.CFG_COMMIT_STATUS] → t.rd o = s.rd o) ∧
      t.out = { s.out with msix := s.out.msix ++ [if reason = 0x1B then 9 else 1] } ∧
      t = { s with regs := t.regs, out := t.out, cnt := t.cnt } := by
  have hkind : commitKind reason ≠ 4 := by
    unfold commitKind
    split <;> decide
  have hkind2 (h : reason ≠ 0) : commitKind reason ≠ 2 := by
    rw [commitKind, if_neg h]
    decide
  have hword := s.rd_wr_self R.CFG_COMMIT_STATUS (resultWord set reason offset) hwf
  have hwfA := s.wr_regsWf R.CFG_COMMIT_STATUS (resultWord set reason offset) hwf
  have hbutA : s.RegsBut (s.wr R.CFG_COMMIT_STATUS (resultWord set reason offset)) [R.CFG_COMMIT_STATUS] := State.wr_regsBut (by simp) _
  have hsameA := s.wr_same R.CFG_COMMIT_STATUS (resultWord set reason offset)
  rw [State.commitResult, ← resultWord] at ht
  generalize s.wr R.CFG_COMMIT_STATUS (resultWord set reason offset) = a at hword hwfA hbutA hsameA ht
  obtain ⟨hwfT, -, -, hreason, hbut, hout, hframe⟩ := cfgLog_facts hwfA hkind ht
  have hlow (o : Nat) (ho : o < R.CFG_LOG 0) (hne : o ∉ [R.CFG_LOG_HEAD, R.GLB_PLUMB_STATUS]) : t.rd o = a.rd o := by
    refine hbut o ?_
    simp only [List.mem_cons, List.not_mem_nil, or_false, not_or, R.CFG_LOG_HEAD, R.GLB_PLUMB_STATUS, R.CFG_LOG] at ho hne
    simp only [cfgLogRegs, List.mem_cons, List.not_mem_nil, or_false, R.CFG_LOG, R.CFG_LOG_INFO, R.CFG_LOG_HEAD, R.GLB_PLUMB_STATUS]
    omega
  have hout' : a.out = s.out := by rw [hsameA]
  refine ⟨hwfT, (hlow _ (by decide) (by decide)).trans hword, fun h => hreason (hkind2 h), fun o ho hne => ?_, by rw [hout, hout'], ?_⟩
  · simp only [List.mem_cons, List.not_mem_nil, or_false, not_or] at hne
    obtain ⟨h1, h2, h3⟩ := hne
    exact (hlow o ho (by simp [h1, h2])).trans (hbutA o (by simp [h3]))
  · rw [hframe, hsameA]

/-- BUSY of the commit registers is no other field of CFG_COMMIT_STATUS. -/
theorem commitBusy_status {s : State} (hwf : s.regsWf = true) (f : Fld) (hf : f.lo + f.w ≤ F.CFG_COMMIT_STATUS_BUSY.lo) :
    s.commitBusy.fld R.CFG_COMMIT_STATUS f = s.fld R.CFG_COMMIT_STATUS f := by
  unfold State.commitBusy
  extract_lets sets t
  have ht : t.fld R.CFG_COMMIT_STATUS f = s.fld R.CFG_COMMIT_STATUS f :=
    s.fld_setFld_of_disjoint _ _ _ _ hwf (.inl hf) (by simp only at hf; omega)
  refine foldl_keeps (P := fun u : State => u.fld R.CFG_COMMIT_STATUS f = s.fld R.CFG_COMMIT_STATUS f) (fun u n _ hu => ?_) ht
  exact (State.fld_congr (u.rd_setFld_of_ne _ _ (by simp only [R.CFG_COMMIT_STATUS, R.CFG_SET_STATUS]; omega)) f).trans hu

theorem commitBusy_rd_of_low (s : State) {o : Nat} (ho : o < R.CFG_SET_STATUS 0) (hne : o ≠ R.CFG_COMMIT_STATUS) : s.commitBusy.rd o = s.rd o := by
  unfold State.commitBusy
  extract_lets sets t
  refine foldl_keeps (P := fun u : State => u.rd o = s.rd o) (fun u n _ hu => ?_) (s.rd_setFld_of_ne _ _ hne)
  exact (u.rd_setFld_of_ne _ _ (by simp only [R.CFG_SET_STATUS] at ho ⊢; omega)).trans hu

theorem cfgCommit_refused {set : BitVec 8} {s : State} (hwf : s.regsWf = true) (h : s.flag R.CFG_COMMIT F.CFG_COMMIT_GO = false)
    (hset : setCommits set.toNat = false) : Answers (exec (.cfgCommit set) s) fun t =>
      t.fld R.CFG_COMMIT_STATUS F.CFG_COMMIT_STATUS_REASON = 0x10 ∧ t.fld R.CFG_COMMIT_STATUS F.CFG_COMMIT_STATUS_SET = set.toNat ∧
      t.flag R.CFG_COMMIT F.CFG_COMMIT_GO = false ∧ t.cfg = s.cfg ∧
      t.fld R.GLB_PLUMB_STATUS F.GLB_PLUMB_STATUS_LAST_REASON = 0x10 ∧ t.out = { s.out with msix := s.out.msix ++ [1] } := by
  rw [exec_cfgCommit_free h, if_neg (by rw [hset]; decide)]
  have hgo := s.fld_setFld_of_disjoint R.CFG_COMMIT F.CFG_COMMIT_SET F.CFG_COMMIT_GO set.toNat hwf (by decide) (by decide)
  have hwfA := s.setFld_regsWf R.CFG_COMMIT F.CFG_COMMIT_SET set.toNat hwf
  have hsame := s.setFld_same R.CFG_COMMIT F.CFG_COMMIT_SET set.toNat
  generalize s.setFld R.CFG_COMMIT F.CFG_COMMIT_SET set.toNat = a at hgo hwfA hsame ⊢
  obtain ⟨hwfU, hword, hreason, hrd, hout, hframe⟩ := commitResult_facts hwfA (set := set.toNat) (reason := 0x10) (offset := 0) (source := 0)
    (domain := 0) rfl
  generalize a.commitResult set.toNat 0x10 0 0 0 = u at hwfU hword hreason hrd hout hframe ⊢
  obtain ⟨hreasonW, hsetW⟩ := resultWord_fields 0 set.isLt (show 0x10 < 256 by decide)
  have hbusy := commitBusy_frame u
  refine ⟨_, rfl, ?_, ?_, ?_, ?_, ?_, ?_⟩
  · rw [commitBusy_status hwfU _ (by decide), State.fld, hword, hreasonW]
  · rw [commitBusy_status hwfU _ (by decide), State.fld, hword, hsetW]
  · rw [State.flag, State.fld_congr (commitBusy_rd_of_low u (by decide) (by decide)), State.fld_congr (hrd _ (by decide) (by decide)), hgo]
    exact h
  · rw [hbusy, hframe, hsame]
  · rw [State.fld_congr (commitBusy_rd_of_low u (by decide) (by decide)), hreason (by decide)]
  · have hbusyOut : u.commitBusy.out = u.out := by rw [hbusy]
    have houtA : a.out = s.out := by rw [hsame]
    rw [hbusyOut, hout, houtA]
    rfl

/-! ## Commits that have been checked -/

theorem commitCheckDone_other {errs : List LineErr} {s : State} (h : s.cfg.checks.head?.all (fun k => k.kind.isEnable) = true) :
    exec (.commitCheckDone errs) s = .next s := by
  change execCommitCheckDone errs s = _
  unfold execCommitCheckDone
  rcases hc : s.cfg.checks with _ | ⟨k, l⟩
  · rfl
  · rw [hc] at h
    dsimp only
    split
    · next n hk =>
      simp only [List.head?_cons, Option.all_some, hk] at h
      simp [CheckKind.isEnable] at h
    · rfl

/-- The rules of set 0. -/
def SetZeroGood (v : Word) : Prop :=
  (F.GLB_HOST_IF_DESCRIPTOR.get v = 2 ∨ F.GLB_HOST_IF_DESCRIPTOR.get v = 3) ∧ F.GLB_HOST_IF_TELEMETRY.get v = 4 ∧
    F.GLB_HOST_IF_LEDGER.get v = 2

theorem set00Failed_good {c : Sparse Word} (h : SetZeroGood (wordOf c R.GLB_HOST_IF)) : set00Failed c = none := by
  obtain ⟨hd, ht, hl⟩ := h
  rw [set00Failed, firstFailed, ht, hl]
  rcases hd with hd | hd <;> rw [hd] <;> rfl

theorem set00Failed_bad {c : Sparse Word} (h : ¬SetZeroGood (wordOf c R.GLB_HOST_IF)) :
    set00Failed c = some (0x15, fun off => off == R.GLB_HOST_IF) := by
  rw [set00Failed, firstFailed]
  refine if_pos ?_
  simp only [Bool.or_eq_true, Bool.and_eq_true, bne_iff_ne]
  unfold SetZeroGood at h
  tauto

/-- What a check of a set leaves when it has been answered to CFG_COMMIT. -/
def commitEnded (s : State) (k : Check) (n r off : Nat) : State :=
  (queueEmptied ((s.setStatus n r).commitResult n r off k.source k.domain)).setFld R.CFG_COMMIT F.CFG_COMMIT_GO 0

theorem setStatus_same (s : State) (n r : Nat) : SameButRegs s (s.setStatus n r) := by
  have h := (s.setFld_same (R.CFG_SET_STATUS n) F.CFG_SET_STATUS_LAST_REASON r).trans
    (State.setFld_same _ (R.CFG_SET_STATUS n) F.CFG_SET_STATUS_BUSY 0)
  rw [State.setStatus]
  split
  · exact (h.trans (State.setFld_same ..)).trans (State.setFld_same ..)
  · exact h

theorem commitResult_cfg {s : State} (hwf : s.regsWf = true) (n r off source : Nat) (domain : BitVec 12) :
    (s.commitResult n r off source domain).cfg = s.cfg := by
  obtain ⟨-, -, -, -, -, hframe⟩ := commitResult_facts hwf (t := s.commitResult n r off source domain) rfl
  rw [hframe]

theorem setFailed_zero (s : State) (c : Sparse Word) : s.setFailed 0 c = set00Failed c := if_pos rfl

theorem commitSet_zero (s : State) (c : Sparse Word) : s.commitSet 0 c = s.applySet 0 c := rfl

theorem exec_commitCheck {errs : List LineErr} {k : Check} {s : State} (hchecks : s.cfg.checks = [k]) (hk : k.kind = .commit 0)
    (hdest : k.dest = 0) {u : State} {r off : Nat} (hu : (match set00Failed k.captured with
      | some (r, holds) => (s, r, s.failedOffset 0 k.captured holds)
      | none => (s.applySet 0 k.captured, 0, 0)) = (u, r, off)) (hwf : u.regsWf = true) (hcfg : u.cfg.checks = [k]) :
    exec (.commitCheckDone errs) s = .next (commitEnded u k 0 r off) := by
  have hsame := setStatus_same u 0 r
  have hwfS : (u.setStatus 0 r).regsWf = true := by
    have h := State.setFld_regsWf _ (R.CFG_SET_STATUS 0) F.CFG_SET_STATUS_BUSY 0
      (u.setFld_regsWf (R.CFG_SET_STATUS 0) F.CFG_SET_STATUS_LAST_REASON r hwf)
    rw [State.setStatus]
    split
    · exact State.setFld_regsWf _ _ _ _ (State.setFld_regsWf _ _ _ _ h)
    · exact h
  have hpop : ((u.setStatus 0 r).commitResult 0 r off k.source k.domain).popCheck =
      queueEmptied ((u.setStatus 0 r).commitResult 0 r off k.source k.domain) := by
    refine popCheck_last (k := k) ?_
    rw [commitResult_cfg hwfS, hsame, hcfg]
  change execCommitCheckDone errs s = _
  unfold execCommitCheckDone
  rw [hchecks]
  dsimp only
  rw [hk]
  dsimp only
  have hset : ¬(0x10 ≤ 0 ∧ 0 ≤ 0x17) := by decide
  have hend : (if k.dest = 0 then ((u.setStatus 0 r).commitResult 0 r off k.source k.domain).popCheck.setFld R.CFG_COMMIT F.CFG_COMMIT_GO 0
      else ((u.setStatus 0 r).commitResult 0 r off k.source k.domain).popCheck.answerCommit k.dest r) = commitEnded u k 0 r off := by
    rw [if_pos hdest, hpop, commitEnded]
  rcases hf : set00Failed k.captured with _ | ⟨r', holds⟩ <;> rw [hf] at hu <;> cases hu <;>
    simp only [if_neg hset, setFailed_zero, commitSet_zero, hf] <;> exact congrArg Host.Outcome.next hend

/-- The status of a set after its commit. -/
theorem setStatus_facts {s t : State} (hwf : s.regsWf = true) {r : Nat} (ht : t = s.setStatus 0 r) : t.regsWf = true ∧
    t.fld (R.CFG_SET_STATUS 0) F.CFG_SET_STATUS_LAST_REASON = r % 256 ∧
    t.fld (R.CFG_SET_STATUS 0) F.CFG_SET_STATUS_COMMITTED =
      (if r = 0 then 1 else s.fld (R.CFG_SET_STATUS 0) F.CFG_SET_STATUS_COMMITTED) ∧
    t.fld (R.CFG_SET_STATUS 0) F.CFG_SET_STATUS_COMMITS = (if r = 0 then
      (s.fld (R.CFG_SET_STATUS 0) F.CFG_SET_STATUS_COMMITS + 1) % 2 ^ F.CFG_SET_STATUS_COMMITS.w
      else s.fld (R.CFG_SET_STATUS 0) F.CFG_SET_STATUS_COMMITS) ∧ s.RegsBut t [R.CFG_SET_STATUS 0] ∧ SameButRegs s t := by
  have hsame := setStatus_same s 0 r
  rw [← ht] at hsame
  have hreason := s.fld_setFld_self (R.CFG_SET_STATUS 0) F.CFG_SET_STATUS_LAST_REASON r hwf (by decide)
  have hother (f : Fld) := s.fld_setFld_of_disjoint (R.CFG_SET_STATUS 0) F.CFG_SET_STATUS_LAST_REASON f r hwf
  have hwfA := s.setFld_regsWf (R.CFG_SET_STATUS 0) F.CFG_SET_STATUS_LAST_REASON r hwf
  have hbutA : s.RegsBut (s.setFld (R.CFG_SET_STATUS 0) F.CFG_SET_STATUS_LAST_REASON r) [R.CFG_SET_STATUS 0] :=
    State.setFld_regsBut (by simp) _ _
  rw [State.setStatus] at ht
  generalize s.setFld (R.CFG_SET_STATUS 0) F.CFG_SET_STATUS_LAST_REASON r = a at hreason hother hwfA hbutA ht
  have hotherB (f : Fld) := a.fld_setFld_of_disjoint (R.CFG_SET_STATUS 0) F.CFG_SET_STATUS_BUSY f 0 hwfA
  have hwfB := a.setFld_regsWf (R.CFG_SET_STATUS 0) F.CFG_SET_STATUS_BUSY 0 hwfA
  have hbutB := hbutA.setFld (off := R.CFG_SET_STATUS 0) (by simp) F.CFG_SET_STATUS_BUSY 0
  generalize a.setFld (R.CFG_SET_STATUS 0) F.CFG_SET_STATUS_BUSY 0 = b at hotherB hwfB hbutB ht
  have hreasonB := (hotherB F.CFG_SET_STATUS_LAST_REASON (by decide) (by decide)).trans hreason
  have hcommitted := (hotherB F.CFG_SET_STATUS_COMMITTED (by decide) (by decide)).trans (hother _ (by decide) (by decide))
  have hcommits := (hotherB F.CFG_SET_STATUS_COMMITS (by decide) (by decide)).trans (hother _ (by decide) (by decide))
  by_cases hr : r = 0
  · rw [if_pos hr] at ht
    have hsetC := b.fld_setFld_self (R.CFG_SET_STATUS 0) F.CFG_SET_STATUS_COMMITTED 1 hwfB (by decide)
    have hotherC (f : Fld) := b.fld_setFld_of_disjoint (R.CFG_SET_STATUS 0) F.CFG_SET_STATUS_COMMITTED f 1 hwfB
    have hwfC := b.setFld_regsWf (R.CFG_SET_STATUS 0) F.CFG_SET_STATUS_COMMITTED 1 hwfB
    have hbutC := hbutB.setFld (off := R.CFG_SET_STATUS 0) (by simp) F.CFG_SET_STATUS_COMMITTED 1
    generalize b.setFld (R.CFG_SET_STATUS 0) F.CFG_SET_STATUS_COMMITTED 1 = c at hsetC hotherC hwfC hbutC ht
    rw [State.incFld, hotherC F.CFG_SET_STATUS_COMMITS (by decide) (by decide), hcommits] at ht
    rw [if_pos hr, if_pos hr, ht]
    refine ⟨State.setFld_regsWf _ _ _ _ hwfC, ?_, ?_, State.fld_setFld_self _ _ _ _ hwfC (by decide), hbutC.setFld (by simp) _ _, ht ▸ hsame⟩
    · rw [State.fld_setFld_of_disjoint _ _ _ _ _ hwfC (by decide) (by decide), hotherC _ (by decide) (by decide)]
      exact hreasonB
    · rw [State.fld_setFld_of_disjoint _ _ _ _ _ hwfC (by decide) (by decide), hsetC]
      rfl
  · rw [if_neg hr] at ht
    rw [if_neg hr, if_neg hr, ht]
    exact ⟨hwfB, hreasonB, hcommitted, hcommits, hbutB, ht ▸ hsame⟩

/-- What is read after a check has been answered to CFG_COMMIT. -/
theorem commitEnded_facts {s t : State} (hwf : s.regsWf = true) {k : Check} {r off : Nat} (hr : r < 256) (hr9 : r ≠ 0x1B)
    (ht : t = commitEnded s k 0 r off) :
    t.fld (R.CFG_SET_STATUS 0) F.CFG_SET_STATUS_LAST_REASON = r ∧
    t.fld (R.CFG_SET_STATUS 0) F.CFG_SET_STATUS_COMMITTED =
      (if r = 0 then 1 else s.fld (R.CFG_SET_STATUS 0) F.CFG_SET_STATUS_COMMITTED) ∧
    t.fld (R.CFG_SET_STATUS 0) F.CFG_SET_STATUS_COMMITS = (if r = 0 then
      (s.fld (R.CFG_SET_STATUS 0) F.CFG_SET_STATUS_COMMITS + 1) % 2 ^ F.CFG_SET_STATUS_COMMITS.w
      else s.fld (R.CFG_SET_STATUS 0) F.CFG_SET_STATUS_COMMITS) ∧
    t.fld R.CFG_COMMIT_STATUS F.CFG_COMMIT_STATUS_REASON = r ∧ t.flag R.CFG_COMMIT F.CFG_COMMIT_GO = false ∧
    t.flag R.CFG_COMMIT_STATUS F.CFG_COMMIT_STATUS_BUSY = false ∧ t.rd R.GLB_HOST_IF = s.rd R.GLB_HOST_IF ∧
    t.cfg = { s.cfg with checks := [] } ∧ t.out = { s.out with msix := s.out.msix ++ [1] } ∧
    t = { s with regs := t.regs, cfg := t.cfg, out := t.out, cnt := t.cnt } := by
  obtain ⟨hwfA, hreasonA, hcommittedA, hcommitsA, hbutA, hsameA⟩ := setStatus_facts hwf (r := r) rfl
  rw [commitEnded] at ht
  generalize s.setStatus 0 r = a at hwfA hreasonA hcommittedA hcommitsA hbutA hsameA ht
  obtain ⟨hwfB, hwordB, -, hrdB, houtB, hframeB⟩ := commitResult_facts hwfA (set := 0) (reason := r) (offset := off) (source := k.source)
    (domain := k.domain) rfl
  generalize a.commitResult 0 r off k.source k.domain = b at hwfB hwordB hrdB houtB hframeB ht
  obtain ⟨hwfC, hcfgC, hbutC, hbusyC, hresultC, hframeC⟩ := queueEmptied_facts hwfB
  generalize queueEmptied b = c at hwfC hcfgC hbutC hbusyC hresultC hframeC ht
  have hgo := c.fld_setFld_self R.CFG_COMMIT F.CFG_COMMIT_GO 0 hwfC (by decide)
  have hbutT : c.RegsBut t [R.CFG_COMMIT] := by
    rw [ht]
    exact State.setFld_regsBut (by simp) _ _
  have hsameT : SameButRegs c t := by
    rw [ht]
    exact State.setFld_same ..
  rw [← ht] at hgo
  clear ht
  have hcfgA : a.cfg = s.cfg := by rw [hsameA]
  have hcfgB : b.cfg = s.cfg := by rw [hframeB, hcfgA]
  have houtA : a.out = s.out := by rw [hsameA]
  have houtC : c.out = b.out := by rw [hframeC]
  have hcfgT : t.cfg = c.cfg := by rw [hsameT]
  have houtT : t.out = c.out := by rw [hsameT]
  have hstatus : t.rd (R.CFG_SET_STATUS 0) = a.rd (R.CFG_SET_STATUS 0) :=
    (hbutT _ (by decide)).trans ((hbutC _ (by decide)).trans (hrdB _ (by decide) (by decide)))
  refine ⟨?_, ?_, ?_, ?_, ?_, ?_, ?_, ?_, ?_, ?_⟩
  · rw [State.fld_congr hstatus, hreasonA, Nat.mod_eq_of_lt hr]
  · rw [State.fld_congr hstatus, hcommittedA]
  · rw [State.fld_congr hstatus, hcommitsA]
  · rw [State.fld_congr (hbutT _ (by decide)), hresultC, State.fld, hwordB, (resultWord_fields off (by decide) hr).1]
  · rw [State.flag, hgo]
    decide
  · rw [State.flag_congr (hbutT _ (by decide)), hbusyC]
  · rw [hbutT _ (by decide), hbutC _ (by decide), hrdB _ (by decide) (by decide), hbutA _ (by decide)]
  · rw [hcfgT, hcfgC, hcfgB]
  · rw [houtT, houtC, houtB, houtA, if_neg hr9]
  · rw [hsameT, hframeC, hframeB, hsameA]

theorem commitZero_checked {errs : List LineErr} {k : Check} {s : State} (hwf : s.regsWf = true) (hchecks : s.cfg.checks = [k])
    (hk : k.kind = .commit 0) (hdest : k.dest = 0) : let v := wordOf k.captured R.GLB_HOST_IF
    let good : Prop := (F.GLB_HOST_IF_DESCRIPTOR.get v = 2 ∨ F.GLB_HOST_IF_DESCRIPTOR.get v = 3) ∧ F.GLB_HOST_IF_TELEMETRY.get v = 4 ∧
      F.GLB_HOST_IF_LEDGER.get v = 2
    Answers (exec (.commitCheckDone errs) s) fun t =>
      (good → t.cfg = { s.cfg with checks := [], committed := (s.applySet 0 k.captured).cfg.committed } ∧
        t.fld (R.CFG_SET_STATUS 0) F.CFG_SET_STATUS_COMMITTED = 1 ∧ t.fld (R.CFG_SET_STATUS 0) F.CFG_SET_STATUS_LAST_REASON = 0 ∧
        t.fld (R.CFG_SET_STATUS 0) F.CFG_SET_STATUS_COMMITS = (s.fld (R.CFG_SET_STATUS 0) F.CFG_SET_STATUS_COMMITS + 1) % 2 ^ F.CFG_SET_STATUS_COMMITS.w ∧
        t.fld R.CFG_COMMIT_STATUS F.CFG_COMMIT_STATUS_REASON = 0) ∧
      (¬ good → t.cfg = { s.cfg with checks := [] } ∧
        t.fld (R.CFG_SET_STATUS 0) F.CFG_SET_STATUS_COMMITTED = s.fld (R.CFG_SET_STATUS 0) F.CFG_SET_STATUS_COMMITTED ∧
        t.fld (R.CFG_SET_STATUS 0) F.CFG_SET_STATUS_LAST_REASON = 0x15 ∧ t.fld R.CFG_COMMIT_STATUS F.CFG_COMMIT_STATUS_REASON = 0x15) ∧
      t.flag R.CFG_COMMIT F.CFG_COMMIT_GO = false ∧ t.flag R.CFG_COMMIT_STATUS F.CFG_COMMIT_STATUS_BUSY = false ∧
      t.rd R.GLB_HOST_IF = s.rd R.GLB_HOST_IF ∧ t.out = { s.out with msix := s.out.msix ++ [1] } ∧
      t = { s with regs := t.regs, cfg := t.cfg, out := t.out, cnt := t.cnt } := by
  intro v good
  change Answers _ fun t => (SetZeroGood v → _) ∧ (¬SetZeroGood v → _) ∧ _
  by_cases hgood : SetZeroGood v
  · obtain ⟨u, hu⟩ : ∃ u, u = s.applySet 0 k.captured := ⟨_, rfl⟩
    have hregs : u.regs = s.regs := by rw [hu, State.applySet]
    have hcfg : u.cfg = { s.cfg with committed := u.cfg.committed } := by rw [hu, State.applySet]
    have hframe : u = { s with cfg := u.cfg } := by rw [hu, State.applySet]
    rw [← hu, exec_commitCheck hchecks hk hdest (u := u) (r := 0) (off := 0) (by rw [set00Failed_good hgood, hu])
      (State.regsWf_congr hregs hwf) (by rw [hcfg, hchecks])]
    clear hu
    obtain ⟨hreason, hcommitted, hcommits, hresult, hgo, hbusy, hhost, hcfgT, hout, hframeT⟩ :=
      commitEnded_facts (State.regsWf_congr hregs hwf) (k := k) (r := 0) (off := 0) (by decide) (by decide) rfl
    generalize commitEnded u k 0 0 0 = t at hreason hcommitted hcommits hresult hgo hbusy hhost hcfgT hout hframeT ⊢
    have houtU : u.out = s.out := by rw [hframe]
    rw [if_pos rfl] at hcommitted hcommits
    rw [State.fld_congr (State.rd_congr hregs _)] at hcommits
    rw [State.rd_congr hregs] at hhost
    rw [houtU] at hout
    rw [hframe] at hframeT
    refine ⟨t, rfl, fun _ => ⟨?_, hcommitted, hreason, hcommits, hresult⟩, fun h => absurd hgood h, hgo, hbusy, hhost, hout, hframeT⟩
    rw [hcfgT, hcfg]
  · rw [exec_commitCheck hchecks hk hdest (u := s) (r := 0x15) (by rw [set00Failed_bad hgood]) hwf hchecks]
    obtain ⟨hreason, hcommitted, -, hresult, hgo, hbusy, hhost, hcfgT, hout, hframeT⟩ :=
      commitEnded_facts hwf (k := k) (r := 0x15) (off := s.failedOffset 0 k.captured fun off => off == R.GLB_HOST_IF) (by decide) (by decide) rfl
    exact ⟨_, rfl, fun h => absurd h hgood, fun _ => ⟨hcfgT, hcommitted, hreason, hresult⟩, hgo, hbusy, hhost, hout, hframeT⟩

/-- Settles O54. -/
theorem configCommits : Obligations.ConfigCommits :=
  ⟨fun _ h => enableCheckDone_other h,
    fun _ _ _ hchecks hk hareas hr hr0 hlt hwf _ => enableCheck_refused hchecks hk hareas hr hr0 hlt hwf,
    fun _ _ _ hchecks hk hr hr0 hwf => areasCheck_refused hchecks hk hr hr0 hwf,
    fun _ _ hchecks hk hr hwf => areasCheck_passed hchecks hk hr hwf, fun _ _ hchecks hk hr hwf => fwdCheck_passed hchecks hk hr hwf,
    fun _ _ _ hchecks hk hr hwf => bsnCheck_passed hchecks hk hr hwf, fun _ _ _ hchecks hk hr hwf => cqCheck_passed hchecks hk hr hwf,
    fun _ _ _ hchecks hk hr hwf => portCheck_passed hchecks hk hr hwf, fun _ _ _ hchecks hk hr hwf => ringCheck_passed hchecks hk hr hwf,
    fun _ _ _ h => cfgCommit_busy h, fun _ _ _ h hset => cfgCommit_asked h hset, fun _ _ hwf h hset => cfgCommit_refused hwf h hset,
    fun _ _ h => commitCheckDone_other h, fun _ _ _ hwf hchecks hk hdest _ _ => commitZero_checked hwf hchecks hk hdest⟩

end Sys2Proof.Proofs
end
section
/-! PROOF. Circuit requests (spec/11 R328). -/

namespace Sys2Proof.Proofs
open Sys2Proof Sys2Proof.Machine

/-- A check waits, and the request register holds a reserved bit. -/
def reservedRequest : State :=
  { regs := [(R.SPL_REQ_A, BitVec.ofNat 64 (2 ^ 42))], cfg := { checks := [{ kind := .fwdEnable }] } }

theorem reservedRequest_release :
    exec (.circuitRelease 0) reservedRequest = .next (reservedRequest.hostReg R.SPL_REQ_A (reqWord 0 2)) := rfl

/-- The write of a request keeps the reserved bit. -/
theorem reservedRequest_kept :
    (reservedRequest.hostReg R.SPL_REQ_A (reqWord 0 2)).rd R.SPL_REQ_A = BitVec.ofNat 64 (2 ^ 63 + 2 * 2 ^ 60 + 2 ^ 42) := by
  decide +kernel

/-- Refutes O49: a request takes the values of its write over what the register's reserved bits hold; where bit 42 of SPL_REQ_A is set, it
stays set in the register and in the request, and the statement clears it. -/
theorem not_circuitRequests : ¬ Obligations.CircuitRequests := by
  unfold Obligations.CircuitRequests
  rintro ⟨-, hrelease, -⟩
  obtain ⟨h, -⟩ := hrelease 0 reservedRequest (by decide +kernel) (by decide +kernel)
  rw [reservedRequest_release] at h
  have hword := congrArg (·.rd R.SPL_REQ_A) (Host.Outcome.next.inj h)
  dsimp only at hword
  rw [reservedRequest_kept] at hword
  exact absurd hword (by decide +kernel)

end Sys2Proof.Proofs
end
section
/-! PROOF. The Ledger: commits, the health score, the life clock, hourly records (spec/18 R456 to R465). -/

namespace Sys2Proof.Proofs
open Sys2Proof Sys2Proof.Machine

/-! ## Little-endian numbers in the live copy -/

theorem leNat_leBytes (n v : Nat) : leNat (leBytes n v) = v % 256 ^ n := by
  induction n generalizing v with
  | zero => rw [Nat.pow_zero, Nat.mod_one, leBytes, leNat]
  | succ n ih =>
    have hpow : 256 ^ (n + 1) = 2 ^ 8 * 256 ^ n := Nat.pow_succ'
    rw [leBytes, leNat, ih, BitVec.toNat_ofNat, hpow, Nat.mod_mul]
    rfl

theorem sbytes_length (m : Sparse Byte) (a n : Nat) : (sbytes m a n).length = n := by
  rw [sbytes, List.length_map, List.length_range]

theorem sbytes_congr {m m' : Sparse Byte} {a n : Nat} (h : ∀ k, a ≤ k → k < a + n → sget 0 m' k = sget 0 m k) : sbytes m' a n = sbytes m a n := by
  rw [sbytes, sbytes]
  refine List.map_congr_left fun i hi => h _ (by omega) ?_
  have := List.mem_range.1 hi
  omega

theorem sbytes_swrite_self {m : Sparse Byte} (a : Nat) (b : Bytes) (hm : swf (fun _ => 0) m = true) : sbytes (swrite m a b) a b.length = b := by
  refine List.ext_getElem (sbytes_length ..) fun i _ hi => ?_
  simp only [sbytes, List.getElem_map, List.getElem_range]
  exact sget_swrite_inside a i b hm hi

theorem sbytes_swrite_of_disjoint (m : Sparse Byte) (a : Nat) (b : Bytes) {o n : Nat} (h : o + n ≤ a ∨ a + b.length ≤ o) :
    sbytes (swrite m a b) o n = sbytes m o n :=
  sbytes_congr fun k _ _ => sget_swrite_of_outside m a k b (by omega)

section
variable {s t : State}

theorem ldg_congr (h : t.ldg.live = s.ldg.live) (o n : Nat) : t.ldg? o n = s.ldg? o n := by
  rw [State.ldg?, h, State.ldg?]

theorem ldg_lt (s : State) (o n : Nat) : s.ldg? o n < 256 ^ n := by
  have h := leNat_lt (sbytes s.ldg.live o n)
  rwa [sbytes_length] at h

/-- A place in the live copy reads what has been put there. -/
theorem ldg_put_self (h : swf (fun _ => 0) s.ldg.live = true) (o n v : Nat) : (s.ldgPut o n v).ldg? o n = v % 256 ^ n := by
  have hself := sbytes_swrite_self o (leBytes n v) h
  rw [leBytes_length] at hself
  rw [State.ldg?, State.ldgPut, hself, leNat_leBytes]

theorem ldg_put_of_disjoint (s : State) (o n v : Nat) {p m : Nat} (h : p + m ≤ o ∨ o + n ≤ p) : (s.ldgPut o n v).ldg? p m = s.ldg? p m := by
  rw [State.ldg?, State.ldgPut, sbytes_swrite_of_disjoint _ _ _ (by rwa [leBytes_length]), State.ldg?]

theorem ldgPut_wf (h : swf (fun _ => 0) s.ldg.live = true) (o n v : Nat) : swf (fun _ => 0) (s.ldgPut o n v).ldg.live = true := swf_swrite _ _ h

theorem ldg_add_self (h : swf (fun _ => 0) s.ldg.live = true) (o n d : Nat) : (s.ldgAdd o n d).ldg? o n = (s.ldg? o n + d) % 256 ^ n :=
  ldg_put_self h ..

theorem ldg_add_of_disjoint (s : State) (o n d : Nat) {p m : Nat} (h : p + m ≤ o ∨ o + n ≤ p) : (s.ldgAdd o n d).ldg? p m = s.ldg? p m :=
  ldg_put_of_disjoint s _ _ _ h

theorem ldgAdd_wf (h : swf (fun _ => 0) s.ldg.live = true) (o n d : Nat) : swf (fun _ => 0) (s.ldgAdd o n d).ldg.live = true := ldgPut_wf h ..

theorem ldgPut_frame (s : State) (o n v : Nat) : s.ldgPut o n v = { s with ldg := { s.ldg with live := (s.ldgPut o n v).ldg.live } } := by
  rw [State.ldgPut]

end

/-! ## Requests -/

theorem commitLedger_idle {s : State} (h : s.ldg.busy = false) :
    s.commitLedger = { s.setFld R.LDG_STATUS F.LDG_STATUS_BUSY 1 with ldg := { s.ldg with busy := true } } := by
  rw [State.commitLedger, if_neg (by rw [h]; decide)]
  rfl

theorem commitLedger_during {s : State} (h : s.ldg.busy = true) : s.commitLedger = { s with ldg := { s.ldg with again := true } } := by
  rw [State.commitLedger, if_pos h]

/-- A commit starts. -/
theorem commitLedger_idle_facts {s t : State} (hwf : s.regsWf = true) (h : s.ldg.busy = false) (ht : t = s.commitLedger) :
    t.regsWf = true ∧ t.flag R.LDG_STATUS F.LDG_STATUS_BUSY = true ∧ s.RegsBut t [R.LDG_STATUS] ∧
      t = { s with regs := t.regs, ldg := { s.ldg with busy := true } } := by
  rw [commitLedger_idle h] at ht
  have hset := s.fld_setFld_self R.LDG_STATUS F.LDG_STATUS_BUSY 1 hwf (by decide)
  have hbut : s.RegsBut (s.setFld R.LDG_STATUS F.LDG_STATUS_BUSY 1) [R.LDG_STATUS] := State.setFld_regsBut (by simp) _ _
  have hwfA := s.setFld_regsWf R.LDG_STATUS F.LDG_STATUS_BUSY 1 hwf
  have hsame := s.setFld_same R.LDG_STATUS F.LDG_STATUS_BUSY 1
  generalize s.setFld R.LDG_STATUS F.LDG_STATUS_BUSY 1 = a at hset hbut hwfA hsame ht
  have hregs : t.regs = a.regs := by rw [ht]
  refine ⟨State.regsWf_congr hregs hwfA, ?_, hbut.trans (.of_regs hregs _), ?_⟩
  · rw [State.flag, State.fld_congr (State.rd_congr hregs _), hset]
    rfl
  · rw [ht, hsame]

theorem exec_ledgerCommitRequest (s : State) :
    exec .ledgerCommitRequest s = .next (s.setFld R.LDG_CTRL F.LDG_CTRL_COMMIT 1).commitLedger := rfl

theorem commitRequest_during {s : State} (hwf : s.regsWf = true) (hbusy : s.ldg.busy = true) : Answers (exec .ledgerCommitRequest s) fun t =>
    t.flag R.LDG_CTRL F.LDG_CTRL_COMMIT = true ∧ s.RegsBut t [R.LDG_CTRL] ∧ t = { s with regs := t.regs, ldg := { s.ldg with again := true } } := by
  have hset := s.fld_setFld_self R.LDG_CTRL F.LDG_CTRL_COMMIT 1 hwf (by decide)
  have hbut : s.RegsBut (s.setFld R.LDG_CTRL F.LDG_CTRL_COMMIT 1) [R.LDG_CTRL] := State.setFld_regsBut (by simp) _ _
  have hsame := s.setFld_same R.LDG_CTRL F.LDG_CTRL_COMMIT 1
  rw [exec_ledgerCommitRequest]
  generalize s.setFld R.LDG_CTRL F.LDG_CTRL_COMMIT 1 = a at hset hbut hsame ⊢
  have hldg : a.ldg = s.ldg := by rw [hsame]
  rw [commitLedger_during (by rw [hldg, hbusy])]
  obtain ⟨t, ht⟩ : ∃ t, t = ({ a with ldg := { a.ldg with again := true } } : State) := ⟨_, rfl⟩
  rw [← ht]
  have hregs : t.regs = a.regs := by rw [ht]
  refine ⟨t, rfl, ?_, hbut.trans (.of_regs hregs _), by rw [ht, hldg, hsame]⟩
  rw [State.flag, State.fld_congr (State.rd_congr hregs _), hset]
  rfl

theorem commitRequest_idle {s : State} (hwf : s.regsWf = true) (hbusy : s.ldg.busy = false) : Answers (exec .ledgerCommitRequest s) fun t =>
    t.flag R.LDG_CTRL F.LDG_CTRL_COMMIT = true ∧ t.flag R.LDG_STATUS F.LDG_STATUS_BUSY = true ∧
      s.RegsBut t [R.LDG_CTRL, R.LDG_STATUS] ∧ t = { s with regs := t.regs, ldg := { s.ldg with busy := true } } := by
  have hset := s.fld_setFld_self R.LDG_CTRL F.LDG_CTRL_COMMIT 1 hwf (by decide)
  have hbut : s.RegsBut (s.setFld R.LDG_CTRL F.LDG_CTRL_COMMIT 1) [R.LDG_CTRL, R.LDG_STATUS] := State.setFld_regsBut (by simp) _ _
  have hwfA := s.setFld_regsWf R.LDG_CTRL F.LDG_CTRL_COMMIT 1 hwf
  have hsame := s.setFld_same R.LDG_CTRL F.LDG_CTRL_COMMIT 1
  rw [exec_ledgerCommitRequest]
  generalize s.setFld R.LDG_CTRL F.LDG_CTRL_COMMIT 1 = a at hset hbut hwfA hsame ⊢
  have hldg : a.ldg = s.ldg := by rw [hsame]
  obtain ⟨-, hbusyT, hbutT, hframe⟩ := commitLedger_idle_facts hwfA (by rw [hldg, hbusy]) rfl
  generalize a.commitLedger = t at hbusyT hbutT hframe ⊢
  refine ⟨t, rfl, ?_, hbusyT, hbut.trans (hbutT.mono (by simp)), by rw [hframe, hldg, hsame]⟩
  rw [State.flag, State.fld_congr (hbutT _ (by decide)), hset]
  rfl

/-! ## Periodic commits and the health score -/

theorem periodicCommit_down {s : State} (h : s.cfg.wellheadDown = true) : exec .ledgerPeriodicCommit s = .next s := if_pos h

theorem exec_ledgerPeriodicCommit {s : State} (h : s.cfg.wellheadDown = false) :
    exec .ledgerPeriodicCommit s = .next s.healthScore.commitLedger := if_neg (by rw [h]; decide)

theorem periodicCommit_held {s : State} (hwf : s.regsWf = true) (hup : s.cfg.wellheadDown = false)
    (hload : 2 ≤ s.fld R.PLN_WH_LOAD F.PLN_WH_LOAD_LEVEL) (hbusy : s.ldg.busy = false) : Answers (exec .ledgerPeriodicCommit s) fun t =>
      t.flag R.LDG_HEALTH_B F.LDG_HEALTH_B_HELD = true ∧ t.rd R.LDG_HEALTH = s.rd R.LDG_HEALTH ∧
      t.flag R.LDG_STATUS F.LDG_STATUS_BUSY = true ∧ s.RegsBut t [R.LDG_HEALTH_B, R.LDG_STATUS] ∧
      t = { s with regs := t.regs, ldg := { s.ldg with busy := true } } := by
  have hset := s.fld_setFld_self R.LDG_HEALTH_B F.LDG_HEALTH_B_HELD 1 hwf (by decide)
  have hbut : s.RegsBut (s.setFld R.LDG_HEALTH_B F.LDG_HEALTH_B_HELD 1) [R.LDG_HEALTH_B, R.LDG_STATUS] := State.setFld_regsBut (by simp) _ _
  have hwfA := s.setFld_regsWf R.LDG_HEALTH_B F.LDG_HEALTH_B_HELD 1 hwf
  have hsame := s.setFld_same R.LDG_HEALTH_B F.LDG_HEALTH_B_HELD 1
  rw [exec_ledgerPeriodicCommit hup, State.healthScore, if_pos hload]
  generalize s.setFld R.LDG_HEALTH_B F.LDG_HEALTH_B_HELD 1 = a at hset hbut hwfA hsame ⊢
  have hldg : a.ldg = s.ldg := by rw [hsame]
  obtain ⟨-, hbusyT, hbutT, hframe⟩ := commitLedger_idle_facts hwfA (by rw [hldg, hbusy]) rfl
  generalize a.commitLedger = t at hbusyT hbutT hframe ⊢
  refine ⟨t, rfl, ?_, ?_, hbusyT, hbut.trans (hbutT.mono (by simp)), by rw [hframe, hldg, hsame]⟩
  · rw [State.flag, State.fld_congr (hbutT _ (by decide)), hset]
    rfl
  · rw [hbutT _ (by decide), hbut _ (by decide)]

/-! ## The health score -/

theorem minOr_le (d : Nat) (l : List Nat) : minOr d l ≤ d := by
  unfold minOr
  exact foldl_keeps (P := fun m => m ≤ d) (fun _ _ _ h => (Nat.min_le_left _ _).trans h) le_rfl

theorem clampMille_le (num den : Int) : clampMille num den ≤ 1000 := by
  unfold clampMille
  split
  · exact le_rfl
  · exact Nat.min_le_left _ _

theorem sLas_le (s : State) : s.sLas ≤ 1000 := minOr_le _ _

theorem sMem_le (s : State) : s.sMem ≤ 1000 := Nat.sub_le _ _

theorem sCad_le (s : State) : s.sCad ≤ 1000 := by
  unfold State.sCad
  split
  · exact le_rfl
  · exact clampMille_le _ _

theorem sThm_le (s : State) : s.sThm ≤ 1000 := by
  unfold State.sThm
  extract_lets n
  exact (minOr_le _ _).trans (Nat.min_le_left _ _)

theorem sWear_le (s : State) : s.sWear ≤ 1000 := minOr_le _ _

/-- The score exceeds no part by more than 200. -/
theorem scoreOf_le {o f c m t w : Nat} (ho : o ≤ 1000) (hf : f ≤ 1000) (hc : c ≤ 1000) (hm : m ≤ 1000) (ht : t ≤ 1000) (hw : w ≤ 1000) :
    scoreOf o f c m t w ≤ 1000 ∧ scoreOf o f c m t w ≤ o + 200 ∧ scoreOf o f c m t w ≤ f + 200 ∧ scoreOf o f c m t w ≤ c + 200 ∧
      scoreOf o f c m t w ≤ m + 200 ∧ scoreOf o f c m t w ≤ t + 200 ∧ scoreOf o f c m t w ≤ w + 200 := by
  unfold scoreOf
  omega

/-- The words of the health registers. -/
def healthWord (v o f c m t : Nat) : Word :=
  F.LDG_HEALTH_SCORE.put v ||| F.LDG_HEALTH_S_OPT.put o ||| F.LDG_HEALTH_S_FEC.put f |||
    F.LDG_HEALTH_S_CAD.put c ||| F.LDG_HEALTH_S_MEM.put m ||| F.LDG_HEALTH_S_THM.put t

theorem healthWord_fields {v o f c m t : Nat} (hv : v ≤ 1000) (ho : o ≤ 1000) (hf : f ≤ 1000) (hc : c ≤ 1000) (hm : m ≤ 1000) (ht : t ≤ 1000) :
    F.LDG_HEALTH_SCORE.get (healthWord v o f c m t) = v ∧ F.LDG_HEALTH_S_OPT.get (healthWord v o f c m t) = o ∧
    F.LDG_HEALTH_S_FEC.get (healthWord v o f c m t) = f ∧ F.LDG_HEALTH_S_CAD.get (healthWord v o f c m t) = c ∧
    F.LDG_HEALTH_S_MEM.get (healthWord v o f c m t) = m ∧ F.LDG_HEALTH_S_THM.get (healthWord v o f c m t) = t := by
  have hlt {x : Nat} (h : x ≤ 1000) : x % 2 ^ 10 = x := Nat.mod_eq_of_lt (by omega)
  unfold healthWord
  refine ⟨?_, ?_, ?_, ?_, ?_, ?_⟩ <;>
    simp (disch := decide) only [Fld.get_or, Fld.get_put_self, Fld.get_put_of_disjoint, Nat.or_zero, Nat.zero_or]
  exacts [hlt hv, hlt ho, hlt hf, hlt hc, hlt hm, hlt ht]

/-- The words of the health registers' second. -/
def wearWord (w seconds : Nat) : Word := F.LDG_HEALTH_B_S_WEAR.put w ||| F.LDG_HEALTH_B_SECONDS.put seconds

theorem wearWord_fields {w : Nat} (hw : w ≤ 1000) (seconds : Nat) : F.LDG_HEALTH_B_S_WEAR.get (wearWord w seconds) = w ∧
    F.LDG_HEALTH_B_SECONDS.get (wearWord w seconds) = seconds % 2 ^ F.LDG_HEALTH_B_SECONDS.w ∧
    F.LDG_HEALTH_B_HELD.get (wearWord w seconds) = 0 := by
  unfold wearWord
  refine ⟨?_, ?_, ?_⟩ <;>
    simp (disch := decide) only [Fld.get_or, Fld.get_put_self, Fld.get_put_of_disjoint, Nat.or_zero, Nat.zero_or]
  exact Nat.mod_eq_of_lt (show w < 1024 by omega)

/-- Two free values have been drawn. -/
def drawnTwice (s : State) : State := s.draw.2.draw.2

/-- The score of given parts, the others those of a state. -/
def scoreOver (s : State) (o f : Nat) : Nat := scoreOf o f s.sCad s.sMem s.sThm s.sWear

/-- The registers of a score. -/
def scoreRegs (s : State) (o f : Nat) : State :=
  (s.wr R.LDG_HEALTH (healthWord (scoreOver s o f) o f s.sCad s.sMem s.sThm)).wr R.LDG_HEALTH_B (wearWord s.sWear s.nowSec)

/-- The score is recorded, and its message raised. -/
def scored (s : State) (o f : Nat) : State := ((scoreRegs s o f).ldgPut 64 2 (scoreOver s o f)).raise 8

/-- The optical part that is drawn. -/
def drawnOptical (s : State) : Nat :=
  if (drawnTwice s).anyPortUp then min (drawnTwice s).sLas (s.draw.1.toNat % 1001) else (drawnTwice s).sLas

/-- The part of the error correction that is drawn. -/
def drawnFec (s : State) : Nat := if (drawnTwice s).anyPortUp then s.draw.2.draw.1.toNat % 1001 else 1000

theorem wr_nowSec (s : State) (o : Nat) (w : Word) : (s.wr o w).nowSec = s.nowSec := by
  rw [State.nowSec, State.wr_tim, State.nowSec]

theorem healthScore_eq {s : State} (hload : s.fld R.PLN_WH_LOAD F.PLN_WH_LOAD_LEVEL < 2) :
    s.healthScore = scored (drawnTwice s) (drawnOptical s) (drawnFec s) := by
  rw [State.healthScore, if_neg (by omega)]
  unfold scored scoreRegs healthWord wearWord scoreOver drawnOptical drawnFec drawnTwice
  rcases hx : s.draw with ⟨x, a⟩
  rcases hy : a.draw with ⟨y, b⟩
  dsimp only
  rw [hy]
  dsimp only
  rw [wr_nowSec]

theorem scoreRegs_facts {s t : State} {o f : Nat} (hwf : s.regsWf = true) (ht : t = scoreRegs s o f) : t.regsWf = true ∧
    t.rd R.LDG_HEALTH = healthWord (scoreOver s o f) o f s.sCad s.sMem s.sThm ∧ t.rd R.LDG_HEALTH_B = wearWord s.sWear s.nowSec ∧
      s.RegsBut t [R.LDG_HEALTH, R.LDG_HEALTH_B] ∧ SameButRegs s t := by
  rw [ht, scoreRegs]
  have hwfA := s.wr_regsWf R.LDG_HEALTH (healthWord (scoreOver s o f) o f s.sCad s.sMem s.sThm) hwf
  exact ⟨State.wr_regsWf _ _ _ hwfA, (State.rd_wr_of_ne _ _ (by decide)).trans (State.rd_wr_self _ _ _ hwf), State.rd_wr_self _ _ _ hwfA,
    (State.wr_regsBut (by simp) _).wr (by simp) _, (State.wr_same ..).trans (State.wr_same ..)⟩

theorem scored_facts {s t : State} {o f : Nat} (hwf : s.regsWf = true) (hlive : swf (fun _ => 0) s.ldg.live = true)
    (hv : scoreOver s o f ≤ 1000) (ht : t = scored s o f) : t.regsWf = true ∧
    t.rd R.LDG_HEALTH = healthWord (scoreOver s o f) o f s.sCad s.sMem s.sThm ∧ t.rd R.LDG_HEALTH_B = wearWord s.sWear s.nowSec ∧
      s.RegsBut t [R.LDG_HEALTH, R.LDG_HEALTH_B] ∧ t.ldg? 64 2 = scoreOver s o f ∧ t.ldg.busy = s.ldg.busy ∧
      t.out = { s.out with msix := s.out.msix ++ [8] } := by
  rw [scored] at ht
  obtain ⟨hwfA, hhealth, hwear, hbut, hsame⟩ := scoreRegs_facts (o := o) (f := f) hwf rfl
  generalize scoreRegs s o f = a at hwfA hhealth hwear hbut hsame ht
  generalize scoreOver s o f = v at hv hhealth ht ⊢
  have hlive' : swf (fun _ => 0) a.ldg.live = true := by rw [hsame]; exact hlive
  have hput := ldg_put_self hlive' 64 2 v
  have hframe := ldgPut_frame a 64 2 v
  generalize a.ldgPut 64 2 v = b at hput hframe ht
  have hregsB : b.regs = a.regs := by rw [hframe]
  have hraise := raise_cntFrame b 8
  rw [← ht] at hraise
  clear ht
  have hregs : t.regs = a.regs := by rw [hraise, hregsB]
  have hldg : t.ldg = b.ldg := by rw [hraise]
  have hbusy : b.ldg.busy = s.ldg.busy := by rw [hframe, hsame]
  have hout : b.out = s.out := by rw [hframe, hsame]
  have hscore : t.ldg? 64 2 = v := (ldg_congr (s := b) (by rw [hldg]) 64 2).trans (hput.trans (Nat.mod_eq_of_lt (by omega)))
  exact ⟨State.regsWf_congr hregs hwfA, (State.rd_congr hregs _).trans hhealth, (State.rd_congr hregs _).trans hwear,
    hbut.trans (.of_regs hregs _), hscore, by rw [hldg, hbusy], by rw [hraise, hout]⟩

theorem drawnTwice_frame (s : State) : drawnTwice s = { s with free := (drawnTwice s).free } := by
  rw [drawnTwice, State.draw, State.draw]

/-- The parts of the score look at the Ledger, the sources and the ports. -/
theorem drawnTwice_parts (s : State) : (drawnTwice s).sCad = s.sCad ∧ (drawnTwice s).sMem = s.sMem ∧ (drawnTwice s).sThm = s.sThm ∧
    (drawnTwice s).sWear = s.sWear ∧ (drawnTwice s).sLas = s.sLas ∧ (drawnTwice s).anyPortUp = s.anyPortUp := by
  have hframe := drawnTwice_frame s
  generalize drawnTwice s = u at hframe ⊢
  have hldg : u.ldg = s.ldg := by rw [hframe]
  have hlasers : u.lasers = s.lasers := by rw [hframe]
  have hregs : u.regs = s.regs := by rw [hframe]
  have hplace (o n : Nat) : u.ldg? o n = s.ldg? o n := ldg_congr (by rw [hldg]) o n
  have hup (p : Nat) : u.portUp p = s.portUp p := by
    rw [State.portUp, State.portState, State.fld_congr (State.rd_congr hregs _), State.portUp, State.portState]
  refine ⟨by rw [State.sCad, hldg, State.sCad], ?_, ?_, ?_, by rw [State.sLas, hldg, hlasers, State.sLas], ?_⟩
  · unfold State.sMem State.recentUncorrectable State.lifeS
    rw [hldg, hplace, hplace]
  · unfold State.sThm
    simp only [hplace]
  · unfold State.sWear
    simp only [hplace]
  · have hall : u.portUp = s.portUp := funext hup
    rw [State.anyPortUp, State.anyPortUp, hall]

theorem periodicCommit_scores {s : State} (hwf : s.regsWf = true) (hlive : swf (fun _ => 0) s.ldg.live = true)
    (hup : s.cfg.wellheadDown = false) (hload : s.fld R.PLN_WH_LOAD F.PLN_WH_LOAD_LEVEL < 2) (hbusy : s.ldg.busy = false) :
    Answers (exec .ledgerPeriodicCommit s) fun t =>
      let h (f : Fld) : Nat := t.fld R.LDG_HEALTH f
      let v := h F.LDG_HEALTH_SCORE
      v ≤ 1000 ∧ h F.LDG_HEALTH_S_MEM = s.sMem ∧ h F.LDG_HEALTH_S_CAD = s.sCad ∧ h F.LDG_HEALTH_S_THM = s.sThm ∧
      t.fld R.LDG_HEALTH_B F.LDG_HEALTH_B_S_WEAR = s.sWear ∧ h F.LDG_HEALTH_S_OPT ≤ s.sLas ∧
      (s.anyPortUp = false → h F.LDG_HEALTH_S_OPT = s.sLas ∧ h F.LDG_HEALTH_S_FEC = 1000) ∧
      v ≤ h F.LDG_HEALTH_S_OPT + 200 ∧ v ≤ h F.LDG_HEALTH_S_FEC + 200 ∧ v ≤ s.sCad + 200 ∧ v ≤ s.sMem + 200 ∧ v ≤ s.sThm + 200 ∧
      v ≤ s.sWear + 200 ∧ t.ldg? 64 2 = v ∧ t.fld R.LDG_HEALTH_B F.LDG_HEALTH_B_SECONDS = s.nowSec % 2 ^ F.LDG_HEALTH_B_SECONDS.w ∧
      t.flag R.LDG_HEALTH_B F.LDG_HEALTH_B_HELD = false ∧ t.flag R.LDG_STATUS F.LDG_STATUS_BUSY = true ∧
      t.out = { s.out with msix := s.out.msix ++ [8] } ∧ s.RegsBut t [R.LDG_HEALTH, R.LDG_HEALTH_B, R.LDG_STATUS] := by
  obtain ⟨hcad, hmem, hthm, hwear, hlas, hany⟩ := drawnTwice_parts s
  have ho : drawnOptical s ≤ s.sLas := by
    rw [drawnOptical, hlas]
    split
    · exact Nat.min_le_left _ _
    · exact le_rfl
  have hf : drawnFec s ≤ 1000 := by
    unfold drawnFec
    split
    · omega
    · exact le_rfl
  have hoff (h : s.anyPortUp = false) : drawnOptical s = s.sLas ∧ drawnFec s = 1000 := by
    rw [drawnOptical, drawnFec, hany, h, hlas]
    exact ⟨rfl, rfl⟩
  rw [exec_ledgerPeriodicCommit hup, healthScore_eq hload]
  have hframeU := drawnTwice_frame s
  generalize drawnTwice s = u at hcad hmem hthm hwear hframeU ⊢
  have hregs : u.regs = s.regs := by rw [hframeU]
  have hldg : u.ldg = s.ldg := by rw [hframeU]
  have hout : u.out = s.out := by rw [hframeU]
  have htim : u.tim = s.tim := by rw [hframeU]
  have hsec : u.nowSec = s.nowSec := by rw [State.nowSec, htim, State.nowSec]
  clear hframeU
  have hbounds := scoreOf_le (ho.trans (sLas_le s)) hf (sCad_le s) (sMem_le s) (sThm_le s) (sWear_le s)
  have hover : scoreOver u (drawnOptical s) (drawnFec s) = scoreOf (drawnOptical s) (drawnFec s) s.sCad s.sMem s.sThm s.sWear := by
    rw [scoreOver, hcad, hmem, hthm, hwear]
  generalize drawnOptical s = o at ho hoff hbounds hover ⊢
  generalize drawnFec s = f at hf hoff hbounds hover ⊢
  generalize scoreOf o f s.sCad s.sMem s.sThm s.sWear = v at hbounds hover
  obtain ⟨hv, hvo, hvf, hvc, hvm, hvt, hvw⟩ := hbounds
  obtain ⟨hwfA, hhealth, hwearA, hbutA, hscore, hbusyA, houtA⟩ := scored_facts (s := u) (o := o) (f := f) (State.regsWf_congr hregs hwf)
    (by rw [hldg]; exact hlive) (by rw [hover]; exact hv) rfl
  rw [hover, hcad, hmem, hthm] at hhealth
  rw [hwear, hsec] at hwearA
  rw [hover] at hscore
  generalize scored u o f = a at hwfA hhealth hwearA hbutA hscore hbusyA houtA ⊢
  obtain ⟨-, hbusyT, hbutT, hframe⟩ := commitLedger_idle_facts hwfA (by rw [hbusyA, hldg, hbusy]) rfl
  generalize a.commitLedger = t at hbusyT hbutT hframe ⊢
  obtain ⟨hScore, hOpt, hFec, hCad, hMem, hThm⟩ := healthWord_fields hv (ho.trans (sLas_le s)) hf (sCad_le s) (sMem_le s) (sThm_le s)
  obtain ⟨hWear, hSeconds, hHeld⟩ := wearWord_fields (sWear_le s) s.nowSec
  have hrd : t.rd R.LDG_HEALTH = healthWord v o f s.sCad s.sMem s.sThm := (hbutT _ (by decide)).trans hhealth
  have hrdB : t.rd R.LDG_HEALTH_B = wearWord s.sWear s.nowSec := (hbutT _ (by decide)).trans hwearA
  have hfld (g : Fld) : t.fld R.LDG_HEALTH g = g.get (healthWord v o f s.sCad s.sMem s.sThm) := by rw [State.fld, hrd]
  have hfldB (g : Fld) : t.fld R.LDG_HEALTH_B g = g.get (wearWord s.sWear s.nowSec) := by rw [State.fld, hrdB]
  have houtT : t.out = a.out := by rw [hframe]
  have hlive' : t.ldg.live = a.ldg.live := by rw [hframe]
  refine ⟨t, rfl, ?_⟩
  dsimp only
  rw [hfld, hfld, hfld, hfld, hfld, hfld, hfldB, hfldB, hScore, hOpt, hFec, hCad, hMem, hThm, hWear, hSeconds, State.flag, hfldB, hHeld]
  exact ⟨hv, rfl, rfl, rfl, rfl, ho, hoff, hvo, hvf, hvc, hvm, hvt, hvw, by rw [ldg_congr hlive', hscore], rfl, rfl, hbusyT,
    by rw [houtT, houtA, hout], ((State.RegsBut.of_regs hregs _).trans (hbutA.mono (by simp))).trans (hbutT.mono (by simp))⟩

/-! ## The end of a commit -/

theorem commitDone_idle {ok : Bool} {s : State} (h : s.ldg.busy = false) : exec (.ledgerCommitDone ok) s = .next s := if_pos h

/-- A commit is over: no commit is under way. -/
def commitOver (s : State) : State :=
  ({ s with ldg := { s.ldg with busy := false, again := false } } : State).setFld R.LDG_STATUS F.LDG_STATUS_BUSY 0

/-- What a commit asks for next: one more, or nothing. -/
def commitNext (s : State) (again : Bool) : State :=
  if again then s.commitLedger else ({ s with ldg := { s.ldg with fromPfail := false } } : State).setFld R.LDG_CTRL F.LDG_CTRL_COMMIT 0

theorem exec_commitFails {s : State} (h : s.ldg.busy = true) :
    exec (.ledgerCommitDone false) s = .next (commitNext (commitOver (s.raise 8)) s.ldg.again) := by
  change execLedgerCommitDone false s = _
  unfold execLedgerCommitDone
  rw [if_neg (by rw [h]; decide)]
  unfold commitNext commitOver
  cases s.ldg.again <;> rfl

theorem exec_commitSucceeds {s : State} (h : s.ldg.busy = true) :
    exec (.ledgerCommitDone true) s = .next (commitNext (commitOver s.commitWrite).archiveJournal s.ldg.again) := by
  change execLedgerCommitDone true s = _
  unfold execLedgerCommitDone
  rw [if_neg (by rw [h]; decide)]
  unfold commitNext commitOver
  cases s.ldg.again <;> rfl

theorem commitOver_facts {s t : State} (hwf : s.regsWf = true) (ht : t = commitOver s) : t.regsWf = true ∧
    t.flag R.LDG_STATUS F.LDG_STATUS_BUSY = false ∧
    (∀ f : Fld, f.lo + f.w ≤ F.LDG_STATUS_BUSY.lo ∨ F.LDG_STATUS_BUSY.lo + F.LDG_STATUS_BUSY.w ≤ f.lo → f.lo + f.w ≤ 64 →
      t.fld R.LDG_STATUS f = s.fld R.LDG_STATUS f) ∧ s.RegsBut t [R.LDG_STATUS] ∧
    t = { s with regs := t.regs, ldg := { s.ldg with busy := false, again := false } } := by
  obtain ⟨u, hu⟩ : ∃ u, u = ({ s with ldg := { s.ldg with busy := false, again := false } } : State) := ⟨_, rfl⟩
  rw [commitOver, ← hu] at ht
  have hregs : u.regs = s.regs := by rw [hu]
  have hwfU := State.regsWf_congr hregs hwf
  refine ⟨?_, ?_, fun f hd hf => ?_, ?_, ?_⟩
  · rw [ht]
    exact State.setFld_regsWf _ _ _ _ hwfU
  · rw [ht, State.flag, State.fld_setFld_self _ _ _ _ hwfU (by decide)]
    decide
  · rw [ht, State.fld_setFld_of_disjoint _ _ _ _ _ hwfU hd hf, State.fld_congr (State.rd_congr hregs _)]
  · rw [ht]
    exact (State.RegsBut.of_regs hregs _).setFld (by simp) _ _
  · have hsame : SameButRegs u t := by
      rw [ht]
      exact State.setFld_same ..
    rw [hsame, hu]

theorem ldg_idle {l : Ldg} (hbusy : l.busy = false) (hagain : l.again = false) : l = { l with busy := false, again := false } := by
  cases l
  subst hbusy hagain
  rfl

theorem commitNext_facts {s t : State} {again : Bool} (hwf : s.regsWf = true) (hbusy : s.ldg.busy = false) (hagain : s.ldg.again = false)
    (hflag : s.flag R.LDG_STATUS F.LDG_STATUS_BUSY = false) (ht : t = commitNext s again) :
    t.ldg = { s.ldg with busy := again, again := false, fromPfail := t.ldg.fromPfail } ∧
    (again = false → t.ldg.fromPfail = false ∧ t.flag R.LDG_CTRL F.LDG_CTRL_COMMIT = false) ∧
    t.flag R.LDG_STATUS F.LDG_STATUS_BUSY = again ∧
    (∀ f : Fld, f.lo + f.w ≤ F.LDG_STATUS_BUSY.lo ∨ F.LDG_STATUS_BUSY.lo + F.LDG_STATUS_BUSY.w ≤ f.lo → f.lo + f.w ≤ 64 →
      t.fld R.LDG_STATUS f = s.fld R.LDG_STATUS f) ∧ s.RegsBut t [R.LDG_CTRL, R.LDG_STATUS] ∧
    t = { s with regs := t.regs, ldg := t.ldg } := by
  cases again
  · obtain ⟨u, hu⟩ : ∃ u, u = ({ s with ldg := { s.ldg with fromPfail := false } } : State) := ⟨_, rfl⟩
    have hregs : u.regs = s.regs := by rw [hu]
    have hldg : u.ldg = { s.ldg with fromPfail := false } := by rw [hu]
    have hframe : u = { s with ldg := u.ldg } := by rw [hu]
    rw [commitNext, if_neg (by decide), ← hu] at ht
    clear hu
    have hset := u.fld_setFld_self R.LDG_CTRL F.LDG_CTRL_COMMIT 0 (State.regsWf_congr hregs hwf) (by decide)
    have hbut : s.RegsBut (u.setFld R.LDG_CTRL F.LDG_CTRL_COMMIT 0) [R.LDG_CTRL] := (State.RegsBut.of_regs hregs _).setFld (by simp) _ _
    have hsame := u.setFld_same R.LDG_CTRL F.LDG_CTRL_COMMIT 0
    rw [← ht] at hset hbut hsame
    clear ht
    have hldgT : t.ldg = { s.ldg with fromPfail := false } := by rw [hsame, hldg]
    refine ⟨?_, fun _ => ⟨by rw [hldgT], ?_⟩, ?_, fun f _ _ => State.fld_congr (hbut _ (by decide)) f, hbut.mono (by simp), ?_⟩
    · rw [hldgT]
      exact congrArg (fun l : Ldg => { l with fromPfail := false }) (ldg_idle hbusy hagain)
    · rw [State.flag, hset]
      decide
    · rw [State.flag_congr (hbut _ (by decide)), hflag]
    · rw [hsame, hframe]
  · rw [commitNext, if_pos rfl, commitLedger_idle hbusy] at ht
    have hset := s.fld_setFld_self R.LDG_STATUS F.LDG_STATUS_BUSY 1 hwf (by decide)
    have hother (f : Fld) := s.fld_setFld_of_disjoint R.LDG_STATUS F.LDG_STATUS_BUSY f 1 hwf
    have hbut : s.RegsBut (s.setFld R.LDG_STATUS F.LDG_STATUS_BUSY 1) [R.LDG_CTRL, R.LDG_STATUS] := State.setFld_regsBut (by simp) _ _
    have hsame := s.setFld_same R.LDG_STATUS F.LDG_STATUS_BUSY 1
    generalize s.setFld R.LDG_STATUS F.LDG_STATUS_BUSY 1 = a at hset hother hbut hsame ht
    have hregs : t.regs = a.regs := by rw [ht]
    have hldg : t.ldg = { s.ldg with busy := true } := by rw [ht]
    have hrd (o : Nat) : t.rd o = a.rd o := State.rd_congr hregs o
    refine ⟨?_, nofun, ?_, fun f hd hf => (State.fld_congr (hrd _) f).trans (hother f hd hf), hbut.trans (.of_regs hregs _), ?_⟩
    · rw [hldg]
      exact congrArg (fun l : Ldg => { l with busy := true }) (ldg_idle hbusy hagain)
    · rw [State.flag, State.fld_congr (hrd _), hset]
      rfl
    · rw [hldg, ht, hsame]

theorem commitFails {s : State} (hwf : s.regsWf = true) (hbusy : s.ldg.busy = true) : Answers (exec (.ledgerCommitDone false) s) fun t =>
      t.ldg = { s.ldg with busy := s.ldg.again, again := false, fromPfail := t.ldg.fromPfail } ∧
      (s.ldg.again = false → t.ldg.fromPfail = false ∧ t.flag R.LDG_CTRL F.LDG_CTRL_COMMIT = false) ∧
      t.flag R.LDG_STATUS F.LDG_STATUS_BUSY = s.ldg.again ∧ s.RegsBut t [R.LDG_CTRL, R.LDG_STATUS] ∧
      t = { s with regs := t.regs, ldg := t.ldg, out := { s.out with msix := s.out.msix ++ [8] }, cnt := t.cnt } := by
  rw [exec_commitFails hbusy]
  have hraise := raise_cntFrame s 8
  generalize s.raise 8 = a at hraise ⊢
  have hregsA : a.regs = s.regs := by rw [hraise]
  have hldgA : a.ldg = s.ldg := by rw [hraise]
  have hframeA : a = { s with out := { s.out with msix := s.out.msix ++ [8] }, cnt := a.cnt } := by
    have hcnt : a.cnt = { s.cnt with counters := a.cnt.counters } := by rw [hraise]
    rw [hcnt]
    exact hraise
  obtain ⟨hwfB, hflagB, -, hbutB, hframeB⟩ := commitOver_facts (State.regsWf_congr hregsA hwf) rfl
  generalize commitOver a = b at hwfB hflagB hbutB hframeB ⊢
  rw [hldgA] at hframeB
  have hldgB : b.ldg = { s.ldg with busy := false, again := false } := by rw [hframeB]
  obtain ⟨hldg, hend, hflag, -, hbut, hframe⟩ := commitNext_facts hwfB (again := s.ldg.again) (by rw [hldgB]) (by rw [hldgB]) hflagB rfl
  generalize commitNext b s.ldg.again = t at hldg hend hflag hbut hframe ⊢
  rw [hldgB] at hldg
  refine ⟨t, rfl, hldg, hend, hflag, ((State.RegsBut.of_regs hregsA _).trans (hbutB.mono (by simp))).trans hbut, ?_⟩
  have hcntT : t.cnt = a.cnt := by rw [hframe, hframeB]
  rw [hcntT, hframe, hframeB, hframeA]

/-- Of the Ledger only the live copy and the journal have changed, and the live copy is still in canonical form. -/
structure LiveWritten (s t : State) : Prop where
  wf : swf (fun _ => 0) s.ldg.live = true → swf (fun _ => 0) t.ldg.live = true
  frame : t = { s with ldg := { s.ldg with live := t.ldg.live, journal := t.ldg.journal } }

section
variable {s t u : State}

theorem LiveWritten.refl (s : State) : LiveWritten s s := ⟨id, rfl⟩

theorem LiveWritten.trans (h : LiveWritten s t) (k : LiveWritten t u) : LiveWritten s u := ⟨k.wf ∘ h.wf, by rw [k.frame, h.frame]⟩

theorem LiveWritten.regs (h : LiveWritten s t) : t.regs = s.regs := by rw [h.frame]

theorem LiveWritten.put (h : LiveWritten s t) (o n v : Nat) : LiveWritten s (t.ldgPut o n v) :=
  h.trans ⟨fun hwf => ldgPut_wf hwf .., by rw [State.ldgPut]⟩

theorem LiveWritten.add (h : LiveWritten s t) (o n d : Nat) : LiveWritten s (t.ldgAdd o n d) := h.put ..

theorem LiveWritten.ite {c : Prop} [Decidable c] (hs : LiveWritten s t) (ht : LiveWritten s u) : LiveWritten s (if c then t else u) := by
  split
  · exact hs
  · exact ht

/-- An entry stands in the journal. -/
def entered (s : State) (place x : Nat) : State := { s with ldg := { s.ldg with journal := sset 0 s.ldg.journal place x } }

theorem LiveWritten.entered (h : LiveWritten s t) (place x : Nat) : LiveWritten s (entered t place x) :=
  h.trans ⟨id, by rw [Proofs.entered]⟩

/-- The journal's head and what it counts as lost, before an entry is appended. -/
def appendCounts (s : State) : State :=
  (if s.ldg? 56 8 + journalSize ≤ s.ldg? 48 8 then s.ldgAdd 68 4 1 else s).ldgPut 48 8 (s.ldg? 48 8 + 1)

theorem journalAppend_eq (s : State) (x : Nat) : s.journalAppend x = entered (appendCounts s) (s.ldg? 48 8 % journalSize) x := by
  unfold State.journalAppend entered appendCounts
  by_cases h : s.ldg? 56 8 + journalSize ≤ s.ldg? 48 8
  · simp only [if_pos h]
    rfl
  · simp only [if_neg h]
    rfl

theorem appendCounts_written (s : State) : LiveWritten s (appendCounts s) := by
  rw [appendCounts]
  exact LiveWritten.put (.ite ((LiveWritten.refl s).add ..) (.refl s)) ..

theorem journalAppend_written (s : State) (x : Nat) : LiveWritten s (s.journalAppend x) := by
  rw [journalAppend_eq]
  exact (appendCounts_written s).entered ..

theorem entered_place (s : State) (place x o n : Nat) : (entered s place x).ldg? o n = s.ldg? o n := ldg_congr rfl o n

/-- What an appended entry leaves in the live copy. -/
theorem journalAppend_places (hwf : swf (fun _ => 0) s.ldg.live = true) (x : Nat) :
    (s.journalAppend x).ldg? 48 8 = (s.ldg? 48 8 + 1) % 256 ^ 8 ∧
    (s.journalAppend x).ldg? 68 4 =
      (if s.ldg? 56 8 + journalSize ≤ s.ldg? 48 8 then (s.ldg? 68 4 + 1) % 256 ^ 4 else s.ldg? 68 4) ∧
    ∀ p m, (p + m ≤ 48 ∨ 56 ≤ p) → (p + m ≤ 68 ∨ 72 ≤ p) → (s.journalAppend x).ldg? p m = s.ldg? p m := by
  have hlost : swf (fun _ => 0) (if s.ldg? 56 8 + journalSize ≤ s.ldg? 48 8 then s.ldgAdd 68 4 1 else s).ldg.live = true :=
    (LiveWritten.ite ((LiveWritten.refl s).add ..) (.refl s)).wf hwf
  rw [journalAppend_eq]
  simp only [entered_place, appendCounts]
  refine ⟨ldg_put_self hlost .., ?_, fun p m h1 h2 => ?_⟩
  · rw [ldg_put_of_disjoint _ _ _ _ (by omega)]
    split
    · exact ldg_add_self hwf ..
    · rfl
  · rw [ldg_put_of_disjoint _ _ _ _ (by omega)]
    split
    · exact ldg_add_of_disjoint _ _ _ _ (by omega)
    · rfl

/-- Buffered entries are appended, none of them over one that has not been archived. -/
theorem journalAppends_places {l : List Nat} (hwf : swf (fun _ => 0) s.ldg.live = true) (hlt : s.ldg? 48 8 + l.length < 2 ^ 64)
    (hroom : s.ldg? 48 8 + l.length ≤ s.ldg? 56 8 + 2064384) : LiveWritten s (l.foldl State.journalAppend s) ∧
    (l.foldl State.journalAppend s).ldg? 48 8 = s.ldg? 48 8 + l.length ∧ (l.foldl State.journalAppend s).ldg? 68 4 = s.ldg? 68 4 ∧
    ∀ p m, (p + m ≤ 48 ∨ 56 ≤ p) → (p + m ≤ 68 ∨ 72 ≤ p) → (l.foldl State.journalAppend s).ldg? p m = s.ldg? p m := by
  induction l generalizing s with
  | nil =>
    rw [List.foldl_nil, List.length_nil, Nat.add_zero]
    exact ⟨.refl s, rfl, rfl, fun _ _ _ _ => rfl⟩
  | cons x l ih =>
    rw [List.length_cons] at hlt hroom
    have hwritten := journalAppend_written s x
    obtain ⟨hhead, hlost, hother⟩ := journalAppend_places hwf x
    rw [if_neg (by rw [journalSize]; omega)] at hlost
    rw [Nat.mod_eq_of_lt (show s.ldg? 48 8 + 1 < 256 ^ 8 by omega)] at hhead
    have harchived := hother 56 8 (by omega) (by omega)
    rw [List.foldl_cons]
    generalize s.journalAppend x = a at hwritten hhead hlost hother harchived ⊢
    obtain ⟨hwrittenL, hheadL, hlostL, hotherL⟩ := ih (s := a) (hwritten.wf hwf) (by omega) (by omega)
    refine ⟨hwritten.trans hwrittenL, ?_, hlostL.trans hlost, fun p m h1 h2 => (hotherL p m h1 h2).trans (hother p m h1 h2)⟩
    rw [hheadL, hhead, List.length_cons]
    omega

/-- The buffer is empty. -/
def bufferEmptied (s : State) : State := { s with ldg := { s.ldg with buffer := [] } }

/-- The times and counts of a commit, in the live copy. -/
def commitStamped (s : State) : State :=
  let s := (s.ldgPut 24 8 (if s.hasLocked then s.nowSec else 0)).ldgPut 32 2 (s.fld R.TIM_CLOCK F.TIM_CLOCK_UTC_OFFSET)
  (if s.ldg.fromPfail ∧ s.ldg.again = false then s.ldgAdd 44 4 1 else s).ldgAdd 8 8 1

/-- The CRC of the live copy. -/
def commitSealed (s : State) : State := s.ldgPut 8192 4 (crc32c (sbytes s.ldg.live 0 8192))

/-- The older copy is written. -/
def commitCopied (s : State) : State :=
  if s.fld R.LDG_STATUS F.LDG_STATUS_COPY = 1 then
    ({ s with ldg := { s.ldg with copyB := s.ldg.live } } : State).setFld R.LDG_STATUS F.LDG_STATUS_COPY 2
  else ({ s with ldg := { s.ldg with copyA := s.ldg.live } } : State).setFld R.LDG_STATUS F.LDG_STATUS_COPY 1

/-- The status of the new copy. -/
def commitShown (s : State) : State :=
  { s.setFld R.LDG_STATUS F.LDG_STATUS_SEQUENCE (s.ldg? 8 8) with ldg := { s.ldg with lifeAt := s.lifeS } }

theorem commitWrite_eq (s : State) : s.commitWrite =
    commitShown (commitCopied (commitSealed (commitStamped (bufferEmptied (s.ldg.buffer.foldl State.journalAppend s))))) := by
  rw [State.commitWrite]
  rfl

theorem bufferEmptied_place (s : State) (o n : Nat) : (bufferEmptied s).ldg? o n = s.ldg? o n := ldg_congr rfl o n

theorem commitStamped_written (s : State) : LiveWritten s (commitStamped s) := by
  have h := ((LiveWritten.refl s).put 24 8 (if s.hasLocked then s.nowSec else 0)).put 32 2 (s.fld R.TIM_CLOCK F.TIM_CLOCK_UTC_OFFSET)
  rw [commitStamped]
  exact LiveWritten.add (.ite (h.add ..) h) ..

theorem commitStamped_places (hwf : swf (fun _ => 0) s.ldg.live = true) : (commitStamped s).ldg? 8 8 = (s.ldg? 8 8 + 1) % 256 ^ 8 ∧
    (commitStamped s).ldg? 48 8 = s.ldg? 48 8 ∧ (commitStamped s).ldg? 68 4 = s.ldg? 68 4 := by
  obtain ⟨a, ha⟩ : ∃ a, a = (s.ldgPut 24 8 (if s.hasLocked then s.nowSec else 0)).ldgPut 32 2 (s.fld R.TIM_CLOCK F.TIM_CLOCK_UTC_OFFSET) :=
    ⟨_, rfl⟩
  have hwfA : swf (fun _ => 0) a.ldg.live = true := by
    rw [ha]
    exact ldgPut_wf (ldgPut_wf hwf ..) ..
  have hA (o n : Nat) (h1 : o + n ≤ 24 ∨ 34 ≤ o) : a.ldg? o n = s.ldg? o n := by
    rw [ha, ldg_put_of_disjoint _ _ _ _ (by omega), ldg_put_of_disjoint _ _ _ _ (by omega)]
  have heq : commitStamped s = (if a.ldg.fromPfail ∧ a.ldg.again = false then a.ldgAdd 44 4 1 else a).ldgAdd 8 8 1 := by
    rw [commitStamped, ha]
  rw [heq]
  clear ha heq
  obtain ⟨b, hb⟩ : ∃ b, b = if a.ldg.fromPfail ∧ a.ldg.again = false then a.ldgAdd 44 4 1 else a := ⟨_, rfl⟩
  rw [← hb]
  have hwfB : swf (fun _ => 0) b.ldg.live = true := by
    rw [hb]
    split
    · exact ldgAdd_wf hwfA ..
    · exact hwfA
  have hB (o n : Nat) (h : o + n ≤ 44 ∨ 48 ≤ o) : b.ldg? o n = a.ldg? o n := by
    rw [hb]
    split
    · exact ldg_add_of_disjoint _ _ _ _ (by omega)
    · rfl
  clear hb
  refine ⟨?_, ?_, ?_⟩
  · rw [ldg_add_self hwfB, hB _ _ (by omega), hA _ _ (by omega)]
  · rw [ldg_add_of_disjoint _ _ _ _ (by omega), hB _ _ (by omega), hA _ _ (by omega)]
  · rw [ldg_add_of_disjoint _ _ _ _ (by omega), hB _ _ (by omega), hA _ _ (by omega)]

theorem commitSealed_places (hwf : swf (fun _ => 0) s.ldg.live = true) :
    (commitSealed s).ldg? 8192 4 = crc32c (sbytes (commitSealed s).ldg.live 0 8192) % 256 ^ 4 ∧
    ∀ o n, o + n ≤ 8192 → (commitSealed s).ldg? o n = s.ldg? o n := by
  have hbytes : sbytes (commitSealed s).ldg.live 0 8192 = sbytes s.ldg.live 0 8192 := by
    rw [commitSealed, State.ldgPut]
    exact sbytes_swrite_of_disjoint _ _ _ (by omega)
  refine ⟨?_, fun o n h => ldg_put_of_disjoint _ _ _ _ (by omega)⟩
  rw [hbytes, commitSealed, ldg_put_self hwf]

theorem commitSealed_written (s : State) : LiveWritten s (commitSealed s) := (LiveWritten.refl s).put ..

/-- The older copy takes the live one, and becomes the current one. -/
theorem commitCopied_facts (hwf : s.regsWf = true) (ht : t = commitCopied s) : t.regsWf = true ∧
    (if s.fld R.LDG_STATUS F.LDG_STATUS_COPY = 1 then t.fld R.LDG_STATUS F.LDG_STATUS_COPY = 2 ∧ t.ldg.copyB = s.ldg.live ∧ t.ldg.copyA = s.ldg.copyA
      else t.fld R.LDG_STATUS F.LDG_STATUS_COPY = 1 ∧ t.ldg.copyA = s.ldg.live ∧ t.ldg.copyB = s.ldg.copyB) ∧
    s.RegsBut t [R.LDG_STATUS] ∧ t = { s with regs := t.regs, ldg := { s.ldg with copyA := t.ldg.copyA, copyB := t.ldg.copyB } } := by
  rw [commitCopied] at ht
  split at ht
  case isTrue h =>
    rw [if_pos h]
    obtain ⟨u, hu⟩ : ∃ u, u = ({ s with ldg := { s.ldg with copyB := s.ldg.live } } : State) := ⟨_, rfl⟩
    rw [← hu] at ht
    have hregs : u.regs = s.regs := by rw [hu]
    have hsame : SameButRegs u t := by
      rw [ht]
      exact State.setFld_same ..
    have hldg : t.ldg = { s.ldg with copyB := s.ldg.live } := by rw [hsame, hu]
    refine ⟨?_, ⟨?_, by rw [hldg], by rw [hldg]⟩, ?_, ?_⟩
    · rw [ht]
      exact State.setFld_regsWf _ _ _ _ (State.regsWf_congr hregs hwf)
    · rw [ht, State.fld_setFld_self _ _ _ _ (State.regsWf_congr hregs hwf) (by decide)]
      rfl
    · rw [ht]
      exact (State.RegsBut.of_regs hregs _).setFld (by simp) _ _
    · rw [hldg, hsame, hu]
  case isFalse h =>
    rw [if_neg h]
    obtain ⟨u, hu⟩ : ∃ u, u = ({ s with ldg := { s.ldg with copyA := s.ldg.live } } : State) := ⟨_, rfl⟩
    rw [← hu] at ht
    have hregs : u.regs = s.regs := by rw [hu]
    have hsame : SameButRegs u t := by
      rw [ht]
      exact State.setFld_same ..
    have hldg : t.ldg = { s.ldg with copyA := s.ldg.live } := by rw [hsame, hu]
    refine ⟨?_, ⟨?_, by rw [hldg], by rw [hldg]⟩, ?_, ?_⟩
    · rw [ht]
      exact State.setFld_regsWf _ _ _ _ (State.regsWf_congr hregs hwf)
    · rw [ht, State.fld_setFld_self _ _ _ _ (State.regsWf_congr hregs hwf) (by decide)]
      rfl
    · rw [ht]
      exact (State.RegsBut.of_regs hregs _).setFld (by simp) _ _
    · rw [hldg, hsame, hu]

theorem commitShown_facts (hwf : s.regsWf = true) (ht : t = commitShown s) : t.regsWf = true ∧
    t.fld R.LDG_STATUS F.LDG_STATUS_COPY = s.fld R.LDG_STATUS F.LDG_STATUS_COPY ∧ s.RegsBut t [R.LDG_STATUS] ∧
    t = { s with regs := t.regs, ldg := { s.ldg with lifeAt := t.ldg.lifeAt } } := by
  have hother := s.fld_setFld_of_disjoint R.LDG_STATUS F.LDG_STATUS_SEQUENCE F.LDG_STATUS_COPY (s.ldg? 8 8) hwf (by decide) (by decide)
  have hbut : s.RegsBut (s.setFld R.LDG_STATUS F.LDG_STATUS_SEQUENCE (s.ldg? 8 8)) [R.LDG_STATUS] := State.setFld_regsBut (by simp) _ _
  have hwfA := s.setFld_regsWf R.LDG_STATUS F.LDG_STATUS_SEQUENCE (s.ldg? 8 8) hwf
  have hsame := s.setFld_same R.LDG_STATUS F.LDG_STATUS_SEQUENCE (s.ldg? 8 8)
  rw [commitShown] at ht
  generalize s.setFld R.LDG_STATUS F.LDG_STATUS_SEQUENCE (s.ldg? 8 8) = a at hother hbut hwfA hsame ht
  have hregs : t.regs = a.regs := by rw [ht]
  have hldg : t.ldg = { s.ldg with lifeAt := s.lifeS } := by rw [ht]
  refine ⟨State.regsWf_congr hregs hwfA, (State.fld_congr (State.rd_congr hregs _) _).trans hother, hbut.trans (.of_regs hregs _), ?_⟩
  rw [hldg, ht, hsame]

end

theorem ldgPut_journal (s : State) (o n v : Nat) : (s.ldgPut o n v).ldg.journal = s.ldg.journal := by rw [State.ldgPut]

theorem ldgAdd_journal (s : State) (o n d : Nat) : (s.ldgAdd o n d).ldg.journal = s.ldg.journal := ldgPut_journal ..

theorem commitStamped_journal (s : State) : (commitStamped s).ldg.journal = s.ldg.journal := by
  rw [commitStamped, ldgAdd_journal, apply_ite State.ldg, apply_ite Ldg.journal, ldgAdd_journal, ldgPut_journal, ldgPut_journal, ite_self]

/-- What a commit leaves, over what its entries have left. -/
structure CommitWritten (s a t : State) : Prop where
  regsWf : t.regsWf = true
  buffer : t.ldg.buffer = []
  sequence : t.ldg? 8 8 = (a.ldg? 8 8 + 1) % 256 ^ 8
  head : t.ldg? 48 8 = a.ldg? 48 8
  lost : t.ldg? 68 4 = a.ldg? 68 4
  crc : t.ldg? 8192 4 = crc32c (sbytes t.ldg.live 0 8192) % 256 ^ 4
  copies : if s.fld R.LDG_STATUS F.LDG_STATUS_COPY = 1 then
      t.fld R.LDG_STATUS F.LDG_STATUS_COPY = 2 ∧ t.ldg.copyB = t.ldg.live ∧ t.ldg.copyA = s.ldg.copyA
    else t.fld R.LDG_STATUS F.LDG_STATUS_COPY = 1 ∧ t.ldg.copyA = t.ldg.live ∧ t.ldg.copyB = s.ldg.copyB
  journal : t.ldg.journal = a.ldg.journal
  regs : s.RegsBut t [R.LDG_STATUS]
  frame : t = { s with regs := t.regs, ldg := t.ldg }

theorem commitWrite_written {s a : State} (hwf : s.regsWf = true) (hlive : swf (fun _ => 0) s.ldg.live = true)
    (ha : a = s.ldg.buffer.foldl State.journalAppend s) (hw : LiveWritten s a) : CommitWritten s a s.commitWrite := by
  rw [commitWrite_eq, ← ha]
  clear ha
  obtain ⟨b, hb⟩ : ∃ b, b = bufferEmptied a := ⟨_, rfl⟩
  have hbplace (o n : Nat) : b.ldg? o n = a.ldg? o n := by rw [hb, bufferEmptied_place]
  have hbframe : b = { a with ldg := { a.ldg with buffer := [] } } := by rw [hb, bufferEmptied]
  rw [← hb]
  clear hb
  have hbregs : b.regs = s.regs := by rw [hbframe, hw.regs]
  have hbldg : b.ldg = { a.ldg with buffer := [] } := by rw [hbframe]
  have haldg : a.ldg = { s.ldg with live := a.ldg.live, journal := a.ldg.journal } := congrArg State.ldg hw.frame
  have hblive : swf (fun _ => 0) b.ldg.live = true := by rw [hbldg]; exact hw.wf hlive
  obtain ⟨hseq, hhead, hlost⟩ := commitStamped_places hblive
  have hcw := commitStamped_written b
  have hcjournal := commitStamped_journal b
  generalize commitStamped b = c at hseq hhead hlost hcw hcjournal ⊢
  obtain ⟨hcrc, hdplace⟩ := commitSealed_places (hcw.wf hblive)
  have hdw := hcw.trans (commitSealed_written c)
  have hdjournal : (commitSealed c).ldg.journal = b.ldg.journal := (ldgPut_journal ..).trans hcjournal
  generalize commitSealed c = d at hcrc hdplace hdw hdjournal ⊢
  have hdregs : d.regs = s.regs := by rw [hdw.regs, hbregs]
  have hdldg : d.ldg = { b.ldg with live := d.ldg.live, journal := d.ldg.journal } := congrArg State.ldg hdw.frame
  have hdframe : d = { s with ldg := d.ldg } := by rw [hdw.frame, hbframe, hw.frame]
  have hdcopy : d.ldg.copyA = s.ldg.copyA ∧ d.ldg.copyB = s.ldg.copyB := by rw [hdldg, hbldg, haldg]; exact ⟨rfl, rfl⟩
  have hdbuffer : d.ldg.buffer = [] := by rw [hdldg, hbldg]
  have hdj : d.ldg.journal = a.ldg.journal := by rw [hdjournal, hbldg]
  have hdstatus : d.fld R.LDG_STATUS F.LDG_STATUS_COPY = s.fld R.LDG_STATUS F.LDG_STATUS_COPY := State.fld_congr (State.rd_congr hdregs _) _
  obtain ⟨hewf, hecopy, hebut, heframe⟩ := commitCopied_facts (State.regsWf_congr hdregs hwf) rfl
  generalize commitCopied d = e at hewf hecopy hebut heframe ⊢
  rw [hdstatus, hdcopy.1, hdcopy.2] at hecopy
  have heldg : e.ldg = { d.ldg with copyA := e.ldg.copyA, copyB := e.ldg.copyB } := congrArg State.ldg heframe
  obtain ⟨htwf, htcopy, htbut, htframe⟩ := commitShown_facts hewf rfl
  generalize commitShown e = t at htwf htcopy htbut htframe ⊢
  have htldg : t.ldg = { e.ldg with lifeAt := t.ldg.lifeAt } := congrArg State.ldg htframe
  have htlive : t.ldg.live = d.ldg.live := by rw [htldg, heldg]
  have htcopies : t.ldg.copyA = e.ldg.copyA ∧ t.ldg.copyB = e.ldg.copyB := by rw [htldg]; exact ⟨rfl, rfl⟩
  have hplace (o n : Nat) (h : o + n ≤ 8192) : t.ldg? o n = c.ldg? o n := (ldg_congr htlive o n).trans (hdplace o n h)
  exact {
    regsWf := htwf
    buffer := by rw [htldg, heldg, hdbuffer]
    sequence := by rw [hplace _ _ (by omega), hseq, hbplace]
    head := by rw [hplace _ _ (by omega), hhead, hbplace]
    lost := by rw [hplace _ _ (by omega), hlost, hbplace]
    crc := by rw [ldg_congr htlive, hcrc, htlive]
    copies := by
      rw [htcopy, htcopies.1, htcopies.2, htlive]
      exact hecopy
    journal := by rw [htldg, heldg, hdj]
    regs := ((State.RegsBut.of_regs hdregs _).trans hebut).trans htbut
    frame := by rw [htframe, heframe, hdframe] }

theorem archiveJournal_off {s : State} (h : s.flag R.MEM_CTRL F.MEM_CTRL_AREAS_ENABLE = false) : s.archiveJournal = s := by
  rw [State.archiveJournal]
  exact if_neg (by rw [h]; simp)

/-- A commit that succeeds, up to what is asked for next. -/
theorem commitSucceeds_facts {s a : State} (hwf : s.regsWf = true) (hbusy : s.ldg.busy = true) (hlive : swf (fun _ => 0) s.ldg.live = true)
    (hareas : s.flag R.MEM_CTRL F.MEM_CTRL_AREAS_ENABLE = false) (ha : a = s.ldg.buffer.foldl State.journalAppend s) (hw : LiveWritten s a) :
    Answers (exec (.ledgerCommitDone true) s) fun t =>
      t.ldg.buffer = [] ∧ t.ldg? 8 8 = (a.ldg? 8 8 + 1) % 256 ^ 8 ∧ t.ldg? 48 8 = a.ldg? 48 8 ∧ t.ldg? 68 4 = a.ldg? 68 4 ∧
      t.ldg? 8192 4 = crc32c (sbytes t.ldg.live 0 8192) % 256 ^ 4 ∧
      (if s.fld R.LDG_STATUS F.LDG_STATUS_COPY = 1 then t.fld R.LDG_STATUS F.LDG_STATUS_COPY = 2 ∧ t.ldg.copyB = t.ldg.live ∧ t.ldg.copyA = s.ldg.copyA
        else t.fld R.LDG_STATUS F.LDG_STATUS_COPY = 1 ∧ t.ldg.copyA = t.ldg.live ∧ t.ldg.copyB = s.ldg.copyB) ∧
      t.flag R.LDG_STATUS F.LDG_STATUS_BUSY = s.ldg.again ∧ t.ldg.busy = s.ldg.again ∧ t.ldg.again = false ∧
      (s.ldg.again = false → t.flag R.LDG_CTRL F.LDG_CTRL_COMMIT = false) ∧ s.RegsBut t [R.LDG_CTRL, R.LDG_STATUS] ∧
      t = { s with regs := t.regs, ldg := t.ldg } ∧ t.ldg.journal = a.ldg.journal := by
  rw [exec_commitSucceeds hbusy]
  have h := commitWrite_written hwf hlive ha hw
  generalize s.commitWrite = w at h ⊢
  obtain ⟨hwfO, hflagO, hstatusO, hbutO, hframeO⟩ := commitOver_facts h.regsWf rfl
  generalize commitOver w = o at hwfO hflagO hstatusO hbutO hframeO ⊢
  have hldgO : o.ldg = { w.ldg with busy := false, again := false } := congrArg State.ldg hframeO
  have hareasO : o.flag R.MEM_CTRL F.MEM_CTRL_AREAS_ENABLE = false := by
    rw [State.flag_congr (hbutO _ (by decide)), State.flag_congr (h.regs _ (by decide)), hareas]
  rw [archiveJournal_off hareasO]
  obtain ⟨hldg, hend, hflag, hstatus, hbut, hframe⟩ := commitNext_facts hwfO (again := s.ldg.again) (by rw [hldgO]) (by rw [hldgO]) hflagO rfl
  generalize commitNext o s.ldg.again = t at hldg hend hflag hstatus hbut hframe ⊢
  rw [hldgO] at hldg
  have hlive : t.ldg.live = w.ldg.live := by rw [hldg]
  have hplace (p m : Nat) : t.ldg? p m = w.ldg? p m := ldg_congr hlive p m
  have hcopies : t.ldg.copyA = w.ldg.copyA ∧ t.ldg.copyB = w.ldg.copyB := by rw [hldg]; exact ⟨rfl, rfl⟩
  have hcopy : t.fld R.LDG_STATUS F.LDG_STATUS_COPY = w.fld R.LDG_STATUS F.LDG_STATUS_COPY :=
    (hstatus _ (by decide) (by decide)).trans (hstatusO _ (by decide) (by decide))
  refine ⟨t, rfl, by rw [hldg]; exact h.buffer, by rw [hplace, h.sequence], by rw [hplace, h.head], by rw [hplace, h.lost],
    by rw [hplace, h.crc, hlive], ?_, hflag, by rw [hldg], by rw [hldg], fun hagain => (hend hagain).2,
    ((h.regs.mono (by simp)).trans (hbutO.mono (by simp))).trans hbut, ?_, by rw [hldg]; exact h.journal⟩
  · rw [hcopy, hcopies.1, hcopies.2, hlive]
    exact h.copies
  · rw [hframe, hframeO, h.frame]

theorem commitSucceeds {s : State} (hwf : s.regsWf = true) (hbusy : s.ldg.busy = true) (hlive : swf (fun _ => 0) s.ldg.live = true)
    (hareas : s.flag R.MEM_CTRL F.MEM_CTRL_AREAS_ENABLE = false) (hlt : s.ldg? 48 8 + s.ldg.buffer.length < 2 ^ 64)
    (hroom : s.ldg? 48 8 + s.ldg.buffer.length ≤ s.ldg? 56 8 + 2064384) : Answers (exec (.ledgerCommitDone true) s) fun t =>
      t.ldg.buffer = [] ∧ t.ldg? 8 8 = (s.ldg? 8 8 + 1) % 2 ^ 64 ∧ t.ldg? 48 8 = s.ldg? 48 8 + s.ldg.buffer.length ∧
      t.ldg? 68 4 = s.ldg? 68 4 ∧ t.ldg? 8192 4 = (crc32c (sbytes t.ldg.live 0 8192)) % 2 ^ 32 ∧
      (if s.fld R.LDG_STATUS F.LDG_STATUS_COPY = 1 then t.fld R.LDG_STATUS F.LDG_STATUS_COPY = 2 ∧ t.ldg.copyB = t.ldg.live ∧ t.ldg.copyA = s.ldg.copyA
        else t.fld R.LDG_STATUS F.LDG_STATUS_COPY = 1 ∧ t.ldg.copyA = t.ldg.live ∧ t.ldg.copyB = s.ldg.copyB) ∧
      t.flag R.LDG_STATUS F.LDG_STATUS_BUSY = s.ldg.again ∧ t.ldg.busy = s.ldg.again ∧ t.ldg.again = false ∧
      (s.ldg.again = false → t.flag R.LDG_CTRL F.LDG_CTRL_COMMIT = false) ∧ s.RegsBut t [R.LDG_CTRL, R.LDG_STATUS] ∧
      t = { s with regs := t.regs, ldg := t.ldg } := by
  obtain ⟨hw, hhead, hlost, hother⟩ := journalAppends_places hlive hlt hroom
  have hseq := hother 8 8 (by omega) (by omega)
  refine (commitSucceeds_facts hwf hbusy hlive hareas rfl hw).imp fun t h => ?_
  rw [hhead, hlost, hseq] at h
  obtain ⟨ht, hbuffer, hseqT, hheadT, hlostT, hcrc, hcopies, hflag, hbusyT, hagain, hend, hbut, hframe, -⟩ := h
  exact ⟨ht, hbuffer, hseqT, hheadT, hlostT, hcrc, hcopies, hflag, hbusyT, hagain, hend, hbut, hframe⟩

theorem commitSucceeds_entry {x : Nat} {s : State} (hjournal : swf (fun _ => 0) s.ldg.journal = true) (hwf : s.regsWf = true)
    (hbusy : s.ldg.busy = true) (hlive : swf (fun _ => 0) s.ldg.live = true) (hareas : s.flag R.MEM_CTRL F.MEM_CTRL_AREAS_ENABLE = false)
    (hbuffer : s.ldg.buffer = [x]) : Answers (exec (.ledgerCommitDone true) s) fun t =>
      sget 0 t.ldg.journal (s.ldg? 48 8 % 2064384) = x ∧ (∀ k, k ≠ s.ldg? 48 8 % 2064384 → sget 0 t.ldg.journal k = sget 0 s.ldg.journal k) ∧
      t.ldg? 68 4 = (if s.ldg? 56 8 + 2064384 ≤ s.ldg? 48 8 then (s.ldg? 68 4 + 1) % 2 ^ 32 else s.ldg? 68 4) := by
  have hfold : s.journalAppend x = s.ldg.buffer.foldl State.journalAppend s := by rw [hbuffer, List.foldl_cons, List.foldl_nil]
  obtain ⟨-, hlost, -⟩ := journalAppend_places hlive x
  have hentry : (s.journalAppend x).ldg.journal = sset 0 s.ldg.journal (s.ldg? 48 8 % journalSize) x := by
    have h : (appendCounts s).ldg.journal = s.ldg.journal := by
      rw [appendCounts, ldgPut_journal]
      split
      · rw [ldgAdd_journal]
      · rfl
    rw [journalAppend_eq, entered, h]
  refine (commitSucceeds_facts hwf hbusy hlive hareas hfold (journalAppend_written s x)).imp fun t h => ?_
  rw [hlost, hentry] at h
  obtain ⟨ht, -, -, -, hlostT, -, -, -, -, -, -, -, -, hjournalT⟩ := h
  refine ⟨ht, ?_, fun k hk => ?_, hlostT⟩
  · rw [hjournalT]
    exact sget_sset_self _ _ hjournal
  · rw [hjournalT]
    exact sget_sset_of_ne _ _ _ _ hk

/-! ## Seconds of the life clock -/

/-- Of the Ledger only a part of the live copy, and what the next second needs, have changed. -/
structure LivedIn (lo hi : Nat) (s t : State) : Prop where
  wf : swf (fun _ => 0) s.ldg.live = true → swf (fun _ => 0) t.ldg.live = true
  places : ∀ p m, p + m ≤ lo ∨ hi ≤ p → t.ldg? p m = s.ldg? p m
  frame : t = { s with ldg := { s.ldg with live := t.ldg.live, residues := t.ldg.residues, heaterAcc := t.ldg.heaterAcc } }

section
variable {lo hi : Nat} {s t u : State}

theorem LivedIn.refl (lo hi : Nat) (s : State) : LivedIn lo hi s s := ⟨id, fun _ _ _ => rfl, rfl⟩

theorem LivedIn.trans (h : LivedIn lo hi s t) (k : LivedIn lo hi t u) : LivedIn lo hi s u :=
  ⟨k.wf ∘ h.wf, fun p m hp => (k.places p m hp).trans (h.places p m hp), by rw [k.frame, h.frame]⟩

theorem LivedIn.mono (h : LivedIn lo hi s t) {a b : Nat} (ha : a ≤ lo) (hb : hi ≤ b) : LivedIn a b s t :=
  ⟨h.wf, fun p m hp => h.places p m (by omega), h.frame⟩

theorem ldgAdd_lived {o n : Nat} (hlo : lo ≤ o) (hhi : o + n ≤ hi) (s : State) (d : Nat) : LivedIn lo hi s (s.ldgAdd o n d) :=
  ⟨fun hwf => ldgAdd_wf hwf .., fun _ _ hp => ldg_add_of_disjoint s _ _ _ (by omega), by rw [State.ldgAdd, State.ldgPut]⟩

theorem LivedIn.add (h : LivedIn lo hi s t) {o n : Nat} (hlo : lo ≤ o) (hhi : o + n ≤ hi) (d : Nat) : LivedIn lo hi s (t.ldgAdd o n d) :=
  h.trans (ldgAdd_lived hlo hhi t d)

theorem LivedIn.ite {c : Prop} [Decidable c] (ht : LivedIn lo hi s t) (hu : LivedIn lo hi s u) : LivedIn lo hi s (if c then t else u) := by
  split
  · exact ht
  · exact hu

theorem residues_lived (lo hi : Nat) (s : State) (r : Sparse (List Int)) : LivedIn lo hi s { s with ldg := { s.ldg with residues := r } } :=
  ⟨id, fun _ _ _ => ldg_congr rfl _ _, rfl⟩

theorem heaterAcc_lived (lo hi : Nat) (s : State) (r : Sparse Nat) : LivedIn lo hi s { s with ldg := { s.ldg with heaterAcc := r } } :=
  ⟨id, fun _ _ _ => ldg_congr rfl _ _, rfl⟩

theorem rfBin_lt {r : Int} {k : Nat} (h : rfBin r = some k) : k < 4 := by
  unfold rfBin at h
  extract_lets d at h
  repeat' split at h
  all_goals cases h
  all_goals omega

/-- The rainflow count of a bay adds to its cycles alone. -/
theorem rainflow_lived (s : State) (b : Nat) (mean : Int) : LivedIn (ldgBay b + 24) (ldgBay b + 40) s (s.rainflow b mean) := by
  unfold State.rainflow
  extract_lets l
  split
  extract_lets a
  refine foldl_keeps (P := LivedIn (ldgBay b + 24) (ldgBay b + 40) s) (fun t x _ h => ?_) (residues_lived _ _ _ _)
  split
  · exact h
  · next k hk =>
    have := rfBin_lt hk
    exact h.add (by omega) (by omega) _

theorem ldgBay_value (b : Nat) : ldgBay b = 128 + 48 * b := rfl

/-- A second adds to a bay's record: its energised time where it has power and is not deeper than the first state. -/
theorem bayLife_lived (s : State) (b : Nat) : LivedIn (ldgBay b) (ldgBay b + 48) s (s.bayLife b) ∧
    (swf (fun _ => 0) s.ldg.live = true → (s.bayLife b).ldg? (ldgBay b) 8 =
      if s.bayPowered b = true ∧ s.bayState b ≤ 1 then (s.ldg? (ldgBay b) 8 + 1) % 2 ^ 64 else s.ldg? (ldgBay b) 8) := by
  unfold State.bayLife
  extract_lets st raw n t q v a c
  have ha : LivedIn (ldgBay b) (ldgBay b + 48) s a ∧ (swf (fun _ => 0) s.ldg.live = true → a.ldg? (ldgBay b) 8 =
      if s.bayPowered b = true ∧ s.bayState b ≤ 1 then (s.ldg? (ldgBay b) 8 + 1) % 2 ^ 64 else s.ldg? (ldgBay b) 8) := by
    change LivedIn _ _ s (if s.bayPowered b = true ∧ s.bayState b ≤ 1 then _ else s) ∧
      (_ → (if s.bayPowered b = true ∧ s.bayState b ≤ 1 then _ else s).ldg? (ldgBay b) 8 = _)
    split
    · refine ⟨((LivedIn.refl _ _ s).add (by omega) (by omega) _).add (by omega) (by omega) _, fun hwf => ?_⟩
      rw [ldg_add_of_disjoint _ _ _ _ (by omega), ldg_add_self hwf]
      rfl
    · exact ⟨.refl _ _ s, fun _ => rfl⟩
  have hc : LivedIn (ldgBay b + 16) (ldgBay b + 48) a c := .ite ((LivedIn.refl _ _ a).add (by omega) (by omega) _) (.refl _ _ a)
  clear_value a c
  split
  · exact ha
  have hr := hc.trans ((rainflow_lived c b (t * 1024 / n)).mono (by omega) (by omega))
  exact ⟨ha.1.trans (hr.mono (by omega) le_rfl), fun hwf => (hr.places _ _ (by omega)).trans (ha.2 hwf)⟩

/-- The optical time of an engine while it is locked. -/
def engineLocked (s : State) (e : Nat) : State :=
  if s.fld (R.OPT_STATUS e) F.OPT_STATUS_STATE = 2 then s.ldgAdd (ldgEngine e) 8 1 else s

/-- The energy of an engine's heaters, and what of it has not been counted. -/
def engineHeated (s : State) (e joule rest : Nat) : State :=
  { s.ldgAdd (ldgEngine e + 8) 8 joule with ldg.heaterAcc := sset 0 s.ldg.heaterAcc e rest }

theorem engineLife_eq (s : State) (e : Nat) : ∃ joule rest, s.engineLife e = engineHeated (engineLocked s e) e joule rest := by
  unfold State.engineLife engineLocked
  exact ⟨_, _, rfl⟩

theorem engineHeated_lived (s : State) (e joule rest : Nat) : LivedIn (ldgEngine e + 8) (ldgEngine e + 32) s (engineHeated s e joule rest) := by
  have hb : LivedIn (ldgEngine e + 8) (ldgEngine e + 32) s (s.ldgAdd (ldgEngine e + 8) 8 joule) := ldgAdd_lived (by omega) (by omega) s _
  rw [engineHeated]
  generalize s.ldgAdd (ldgEngine e + 8) 8 joule = b at hb ⊢
  exact hb.trans (heaterAcc_lived _ _ b (sset 0 s.ldg.heaterAcc e rest))

/-- A second adds to an engine's record: its optical time while it is locked. -/
theorem engineLife_lived (s : State) (e : Nat) : LivedIn (ldgEngine e) (ldgEngine e + 32) s (s.engineLife e) ∧
    (swf (fun _ => 0) s.ldg.live = true → (s.engineLife e).ldg? (ldgEngine e) 8 =
      if s.fld (R.OPT_STATUS e) F.OPT_STATUS_STATE = 2 then (s.ldg? (ldgEngine e) 8 + 1) % 2 ^ 64 else s.ldg? (ldgEngine e) 8) := by
  have ha : LivedIn (ldgEngine e) (ldgEngine e + 32) s (engineLocked s e) ∧ (swf (fun _ => 0) s.ldg.live = true →
      (engineLocked s e).ldg? (ldgEngine e) 8 =
        if s.fld (R.OPT_STATUS e) F.OPT_STATUS_STATE = 2 then (s.ldg? (ldgEngine e) 8 + 1) % 2 ^ 64 else s.ldg? (ldgEngine e) 8) := by
    rw [engineLocked]
    split
    · exact ⟨(LivedIn.refl _ _ s).add (by omega) (by omega) _, fun hwf => ldg_add_self hwf ..⟩
    · exact ⟨.refl _ _ s, fun _ => rfl⟩
  obtain ⟨joule, rest, heq⟩ := engineLife_eq s e
  have hc := engineHeated_lived (engineLocked s e) e joule rest
  rw [heq]
  exact ⟨ha.1.trans (hc.mono (by omega) le_rfl), fun hwf => (hc.places _ _ (by omega)).trans (ha.2 hwf)⟩

theorem LivedIn.regs (h : LivedIn lo hi s t) : t.regs = s.regs := by rw [h.frame]

theorem LivedIn.bayPowered (h : LivedIn lo hi s t) (b : Nat) : t.bayPowered b = s.bayPowered b := by
  have hboard : t.board = s.board := by rw [h.frame]
  rw [State.bayPowered, hboard, State.bayPowered]

theorem LivedIn.fld (h : LivedIn lo hi s t) (o : Nat) (f : Fld) : t.fld o f = s.fld o f := State.fld_congr (State.rd_congr h.regs _) _

/-- A second of every bay. -/
theorem baysLived_facts (hwf : swf (fun _ => 0) s.ldg.live = true) :
    LivedIn 128 2560 s ((List.range 50).foldl State.bayLife s) ∧ ∀ n, n < 50 → ((List.range 50).foldl State.bayLife s).ldg? (ldgBay n) 8 =
      if s.bayPowered n = true ∧ s.bayState n ≤ 1 then (s.ldg? (ldgBay n) 8 + 1) % 2 ^ 64 else s.ldg? (ldgBay n) 8 := by
  have h := foldl_each (f := State.bayLife) (l := List.range 50) (inv := fun t => LivedIn 128 2560 s t)
    (same := fun n t u => u.ldg? (ldgBay n) 8 = t.ldg? (ldgBay n) 8)
    (done := fun n t u => u.ldg? (ldgBay n) 8 =
      if s.bayPowered n = true ∧ s.bayState n ≤ 1 then (t.ldg? (ldgBay n) 8 + 1) % 2 ^ 64 else t.ldg? (ldgBay n) 8)
    (fun t b hb ht => by
      have hb := List.mem_range.1 hb
      obtain ⟨hstep, hvalue⟩ := bayLife_lived t b
      have hvalue := hvalue (ht.wf hwf)
      rw [ht.bayPowered, State.bayState, ht.fld] at hvalue
      refine ⟨ht.trans (hstep.mono ?_ ?_), hvalue, fun m hm hne => hstep.places _ _ ?_⟩
      · rw [ldgBay_value]
        omega
      · rw [ldgBay_value]
        omega
      · rw [ldgBay_value, ldgBay_value]
        omega)
    (fun _ _ => rfl) (fun _ _ _ _ h k => k.trans h) (fun _ _ _ _ h k => by rw [k, h]) (fun _ _ _ _ h k => k.trans h) List.nodup_range
    (LivedIn.refl 128 2560 s)
  exact ⟨h.1, fun n hn => h.2 n (List.mem_range.2 hn)⟩

theorem ldgEngine_value (e : Nat) : ldgEngine e = 2560 + 32 * e := rfl

/-- A second of every engine. -/
theorem enginesLived_facts (hwf : swf (fun _ => 0) s.ldg.live = true) :
    LivedIn 2560 3584 s ((List.range 32).foldl State.engineLife s) ∧ ∀ e, e < 32 →
      ((List.range 32).foldl State.engineLife s).ldg? (ldgEngine e) 8 =
        if s.fld (R.OPT_STATUS e) F.OPT_STATUS_STATE = 2 then (s.ldg? (ldgEngine e) 8 + 1) % 2 ^ 64 else s.ldg? (ldgEngine e) 8 := by
  have h := foldl_each (f := State.engineLife) (l := List.range 32) (inv := fun t => LivedIn 2560 3584 s t)
    (same := fun n t u => u.ldg? (ldgEngine n) 8 = t.ldg? (ldgEngine n) 8)
    (done := fun n t u => u.ldg? (ldgEngine n) 8 =
      if s.fld (R.OPT_STATUS n) F.OPT_STATUS_STATE = 2 then (t.ldg? (ldgEngine n) 8 + 1) % 2 ^ 64 else t.ldg? (ldgEngine n) 8)
    (fun t b hb ht => by
      have hb := List.mem_range.1 hb
      obtain ⟨hstep, hvalue⟩ := engineLife_lived t b
      have hvalue := hvalue (ht.wf hwf)
      rw [ht.fld] at hvalue
      refine ⟨ht.trans (hstep.mono ?_ ?_), hvalue, fun m hm hne => hstep.places _ _ ?_⟩
      · rw [ldgEngine_value]
        omega
      · rw [ldgEngine_value]
        omega
      · rw [ldgEngine_value, ldgEngine_value]
        omega)
    (fun _ _ => rfl) (fun _ _ _ _ h k => k.trans h) (fun _ _ _ _ h k => by rw [k, h]) (fun _ _ _ _ h k => k.trans h) List.nodup_range
    (LivedIn.refl 2560 3584 s)
  exact ⟨h.1, fun n hn => h.2 n (List.mem_range.2 hn)⟩

/-- The samples of a second have been taken in. -/
def secondTaken (s : State) : State :=
  { s with ldg := { s.ldg with
      tempSum := [], vcoreSum := [], samples := 0
      corrSeconds := (s.ldg.corrSecond :: s.ldg.corrSeconds).take 3600, corrSecond := 0
      cadSeconds := (s.ldg.cadSecond :: s.ldg.cadSeconds).take 3600, cadSecond := none } }

theorem exec_lifeSecond (h : s.board.pwrGood = true) : exec .lifeSecond s =
    .next (secondTaken ((List.range 32).foldl State.engineLife ((List.range 50).foldl State.bayLife (s.ldgAdd 16 8 1)))) := by
  change execLifeSecond s = _
  unfold execLifeSecond
  rw [if_neg (by rw [h]; decide)]
  rfl

theorem lifeSecond_off (h : s.board.pwrGood = false) : exec .lifeSecond s = .next s := if_pos h

theorem lifeSecond_counts (hpower : s.board.pwrGood = true) (hwf : swf (fun _ => 0) s.ldg.live = true) : Answers (exec .lifeSecond s) fun t =>
      t.lifeS = (s.lifeS + 1) % 2 ^ 64 ∧
      (∀ n, n < 50 → t.ldg? (ldgBay n) 8 = (if s.bayPowered n = true ∧ s.bayState n ≤ 1 then (s.ldg? (ldgBay n) 8 + 1) % 2 ^ 64 else s.ldg? (ldgBay n) 8)) ∧
      (∀ e, e < 32 → t.ldg? (ldgEngine e) 8 = (if s.fld (R.OPT_STATUS e) F.OPT_STATUS_STATE = 2 then (s.ldg? (ldgEngine e) 8 + 1) % 2 ^ 64
        else s.ldg? (ldgEngine e) 8)) ∧
      t.ldg.samples = 0 ∧ t.ldg.corrSecond = 0 ∧ t.ldg.corrSeconds = (s.ldg.corrSecond :: s.ldg.corrSeconds).take 3600 ∧
      t.ldg.copyA = s.ldg.copyA ∧ t.ldg.copyB = s.ldg.copyB ∧ t.ldg.journal = s.ldg.journal ∧ t.ldg.buffer = s.ldg.buffer ∧
      t = { s with ldg := t.ldg } := by
  rw [exec_lifeSecond hpower]
  have ha : LivedIn 16 24 s (s.ldgAdd 16 8 1) := ldgAdd_lived (by omega) (by omega) s 1
  have hlife : (s.ldgAdd 16 8 1).ldg? 16 8 = (s.ldg? 16 8 + 1) % 256 ^ 8 := ldg_add_self hwf ..
  generalize s.ldgAdd 16 8 1 = a at ha hlife ⊢
  obtain ⟨hb, hbays⟩ := baysLived_facts (ha.wf hwf)
  generalize (List.range 50).foldl State.bayLife a = b at hb hbays ⊢
  obtain ⟨hc, hengines⟩ := enginesLived_facts (hb.wf (ha.wf hwf))
  generalize (List.range 32).foldl State.engineLife b = c at hc hengines ⊢
  have hldg : c.ldg = { s.ldg with live := c.ldg.live, residues := c.ldg.residues, heaterAcc := c.ldg.heaterAcc } :=
    congrArg State.ldg ((ha.mono (Nat.zero_le _) (by omega : 24 ≤ 3584)).trans
      ((hb.mono (Nat.zero_le _) (by omega)).trans (hc.mono (Nat.zero_le _) le_rfl))).frame
  have hframe : c = { s with ldg := c.ldg } := by rw [hc.frame, hb.frame, ha.frame]
  obtain ⟨t, ht⟩ : ∃ t, t = secondTaken c := ⟨_, rfl⟩
  have hplace (o n : Nat) : t.ldg? o n = c.ldg? o n := by rw [ht]; exact ldg_congr rfl o n
  have htldg : t.ldg = { c.ldg with
      tempSum := [], vcoreSum := [], samples := 0
      corrSeconds := (c.ldg.corrSecond :: c.ldg.corrSeconds).take 3600, corrSecond := 0
      cadSeconds := (c.ldg.cadSecond :: c.ldg.cadSeconds).take 3600, cadSecond := none } := by rw [ht, secondTaken]
  have htframe : t = { c with ldg := t.ldg } := by rw [ht, secondTaken]
  rw [← ht]
  clear ht
  refine ⟨t, rfl, ?_, fun n hn => ?_, fun e he => ?_, by rw [htldg], by rw [htldg], by rw [htldg, hldg], by rw [htldg, hldg], by rw [htldg, hldg],
    by rw [htldg, hldg], by rw [htldg, hldg], by rw [htframe, hframe]⟩
  · rw [State.lifeS, hplace, hc.places _ _ (by omega), hb.places _ _ (by omega), hlife]
    rfl
  · rw [hplace, hc.places _ _ (by rw [ldgBay_value]; omega), hbays n hn, ha.bayPowered, State.bayState, ha.fld,
      ha.places _ _ (by rw [ldgBay_value]; omega), State.bayState]
  · rw [hplace, hengines e he, hb.fld, ha.fld, hb.places _ _ (by rw [ldgEngine_value]; omega), ha.places _ _ (by rw [ldgEngine_value]; omega)]

end

/-! ## Hourly records -/

theorem leNat_append (a b : Bytes) : leNat (a ++ b) = leNat a + 256 ^ a.length * leNat b := by
  induction a with
  | nil => rw [List.nil_append, leNat, List.length_nil, Nat.pow_zero, Nat.one_mul, Nat.zero_add]
  | cons x t ih =>
    rw [List.cons_append, leNat, ih, leNat, List.length_cons, Nat.pow_succ']
    ring

theorem leNat_replicate_zero (n : Nat) : leNat (List.replicate n 0) = 0 := by
  induction n with
  | zero => rfl
  | succ n ih => rw [List.replicate_succ, leNat, ih]; rfl

/-- Bytes that a slice pads give the number that they give by themselves. -/
theorem leNat_slice {b : Bytes} {n : Nat} (h : b.length ≤ n) : leNat (slice b 0 n) = leNat b := by
  rw [slice, List.drop_zero, List.take_of_length_le h, leNat_append, leNat_replicate_zero, Nat.mul_zero, Nat.add_zero]

/-- An entry of the journal: what it is of, the time, and its data. -/
def journalBody (s : State) (kind subject : Nat) (data : Bytes) : Bytes :=
  leBytes 4 (kind + 256 * subject) ++ leBytes 8 s.lifeS ++ leBytes 4 (if s.hasLocked then s.nowSec else 0) ++ slice data 0 12

/-- An entry of the journal with its CRC. -/
def journalEntry (s : State) (kind subject : Nat) (data : Bytes) : Nat :=
  leNat (journalBody s kind subject data ++ leBytes 4 (crc32c (journalBody s kind subject data)))

theorem journal_of_room {s : State} (h : s.ldg.buffer.length < 2048) (kind subject : Nat) (data : Bytes) : s.journal kind subject data =
    { s with ldg := { s.ldg with buffer := s.ldg.buffer ++ [journalEntry s kind subject data] } } := by
  rw [State.journal, if_pos h]
  rfl

/-- The number that the parts of an entry give. -/
theorem leNat_entry (h l c z : Nat) {d : Bytes} (hd : d.length = 12) : leNat (leBytes 4 h ++ leBytes 8 l ++ leBytes 4 c ++ d ++ leBytes 4 z) =
    h % 2 ^ 32 + 2 ^ 32 * (l % 2 ^ 64 + 2 ^ 64 * (c % 2 ^ 32 + 2 ^ 32 * (leNat d + 2 ^ 96 * (z % 2 ^ 32)))) := by
  rw [leNat_append, leNat_append, leNat_append, leNat_append]
  simp only [leNat_leBytes, List.length_append, leBytes_length, hd]
  rw [show (256 : Nat) ^ 4 = 2 ^ 32 by norm_num, show (256 : Nat) ^ 8 = 2 ^ 64 by norm_num, show (256 : Nat) ^ (4 + 8) = 2 ^ 32 * 2 ^ 64 by norm_num,
    show (256 : Nat) ^ (4 + 8 + 4) = 2 ^ 32 * 2 ^ 64 * 2 ^ 32 by norm_num, show (256 : Nat) ^ (4 + 8 + 4 + 12) = 2 ^ 32 * 2 ^ 64 * 2 ^ 32 * 2 ^ 96 by norm_num]
  generalize h % 2 ^ 32 = h
  generalize l % 2 ^ 64 = l
  generalize c % 2 ^ 32 = c
  generalize z % 2 ^ 32 = z
  ring

/-- What such a number shows of its parts. -/
theorem entry_parts {k u l c d z : Nat} (hk : k < 256) (hu : u < 256) (hl : l < 2 ^ 64) (hc : c < 2 ^ 32) {x : Nat}
    (hx : x = k + 256 * u + 2 ^ 32 * (l + 2 ^ 64 * (c + 2 ^ 32 * (d + 2 ^ 96 * z)))) :
    x % 256 = k ∧ x / 256 % 256 = u ∧ x / 2 ^ 32 % 2 ^ 64 = l ∧ x / 2 ^ 128 = d + 2 ^ 96 * z := by
  refine ⟨by omega, by omega, by omega, by omega⟩

theorem entry_data (d z : Nat) {n : Nat} (hn : n ≤ 96) : (d + 2 ^ 96 * z) % 2 ^ n = d % 2 ^ n := by
  have hpow : (2 : Nat) ^ 96 = 2 ^ n * 2 ^ (96 - n) := by rw [← Nat.pow_add, Nat.add_sub_cancel' hn]
  rw [hpow, Nat.mul_assoc, Nat.add_mul_mod_self_left]

/-- The parts of an entry. -/
theorem journalEntry_parts (s : State) {kind subject : Nat} (data : Bytes) (hkind : kind < 256) (hsubject : subject < 256) :
    journalEntry s kind subject data % 256 = kind ∧ journalEntry s kind subject data / 256 % 256 = subject ∧
    journalEntry s kind subject data / 2 ^ 32 % 2 ^ 64 = s.lifeS ∧
    ∀ n, n ≤ 96 → journalEntry s kind subject data / 2 ^ 128 % 2 ^ n = leNat (slice data 0 12) % 2 ^ n := by
  have hlife : s.lifeS < 2 ^ 64 := ldg_lt s 16 8
  obtain ⟨z, hz⟩ : ∃ z, z = crc32c (journalBody s kind subject data) := ⟨_, rfl⟩
  have hword : journalEntry s kind subject data = leNat (journalBody s kind subject data ++ leBytes 4 z) := by rw [journalEntry, hz]
  clear hz
  rw [journalBody, leNat_entry _ _ _ _ (slice_length ..), Nat.mod_eq_of_lt hlife, Nat.mod_eq_of_lt (by omega : kind + 256 * subject < 2 ^ 32)] at hword
  obtain ⟨hk, hu, hl, hd⟩ := entry_parts hkind hsubject hlife (Nat.mod_lt _ (by norm_num)) hword
  exact ⟨hk, hu, hl, fun n hn => by rw [hd, entry_data _ _ hn]⟩

theorem packed_low (a b c d e f g : Nat) (h : a < 1024) :
    (a + 2 ^ 10 * b + 2 ^ 20 * c + 2 ^ 30 * d + 2 ^ 40 * e + 2 ^ 50 * f + 2 ^ 60 * g) % 2 ^ 10 = a := by omega

/-- The scores of the hour begin with the health score. -/
theorem healthPacked_score (s : State) : s.healthPacked % 2 ^ 10 = s.fld R.LDG_HEALTH F.LDG_HEALTH_SCORE := by
  rw [State.healthPacked]
  exact packed_low _ _ _ _ _ _ _ (Fld.get_lt _ _)

theorem laserHourEntry_none {s : State} (h : s.ldg.laserHour = []) (i : Nat) : s.laserHourEntry i = s := by
  rw [State.laserHourEntry, h]
  exact if_pos (.inr rfl)

theorem laserHours_none {s : State} (h : s.ldg.laserHour = []) (l : List Nat) : l.foldl State.laserHourEntry s = s := by
  refine foldl_keeps (P := fun t => t = s) (fun t e _ ht => ?_) rfl
  rw [ht]
  exact laserHourEntry_none h _

theorem memHourEntry_none {s : State} {u : Nat} (h : sget 0 s.ldg.memHour u = 0) : s.memHourEntry u = s := if_pos h

/-- The hour's records of sources and memory have been taken. -/
def hourTaken (s : State) : State := { s with ldg := { s.ldg with laserHour := [], memHour := [] } }

theorem hour_none {l : Ldg} (hlaser : l.laserHour = []) (hmem : l.memHour = []) : { l with laserHour := [], memHour := [] } = l := by
  cases l
  subst hlaser hmem
  rfl

/-- The scores of the hour are recorded. -/
def healthHour (s : State) : State := s.journal 4 0 (leBytes 12 s.healthPacked)

theorem exec_lifeHour {s : State} (hour : s.lifeS % 3600 = 0) (hlaser : s.ldg.laserHour = []) : exec .lifeHour s =
    .next (hourTaken ((List.range 16).foldl State.memHourEntry (healthHour s))) := by
  have hwhole : ¬ s.lifeS % 3600 ≠ 0 := fun h => h hour
  change execLifeHour s = _
  rw [execLifeHour, if_neg hwhole, laserHours_none hlaser, healthHour, hourTaken]

theorem lifeHour_within {s : State} (h : s.lifeS % 3600 ≠ 0) : exec .lifeHour s = .next s := by
  change execLifeHour s = _
  rw [execLifeHour, if_pos h]

theorem lifeHour_scores {s : State} (hour : s.lifeS % 3600 = 0) (hroom : s.ldg.buffer.length < 2048) (hlaser : s.ldg.laserHour = [])
    (hmem : s.ldg.memHour = []) : Answers (exec .lifeHour s) fun t => ∃ x, t.ldg = { s.ldg with buffer := s.ldg.buffer ++ [x] } ∧
      x % 256 = 4 ∧ x / 2 ^ 32 % 2 ^ 64 = s.lifeS ∧ x / 2 ^ 128 % 2 ^ 10 = s.fld R.LDG_HEALTH F.LDG_HEALTH_SCORE ∧ t = { s with ldg := t.ldg } := by
  obtain ⟨hkind, -, hlife, hdata⟩ := journalEntry_parts s (kind := 4) (subject := 0) (leBytes 12 s.healthPacked) (by decide) (by decide)
  have hscore := hdata 10 (by decide)
  rw [leNat_slice (by rw [leBytes_length]), leNat_leBytes, show (256 : Nat) ^ 12 = 2 ^ 10 * 2 ^ 86 by norm_num, Nat.mod_mul_right_mod,
    healthPacked_score] at hscore
  rw [exec_lifeHour hour hlaser, healthHour, journal_of_room hroom]
  generalize journalEntry s 4 0 (leBytes 12 s.healthPacked) = x at hkind hlife hscore ⊢
  obtain ⟨a, ha⟩ : ∃ a, a = ({ s with ldg := { s.ldg with buffer := s.ldg.buffer ++ [x] } } : State) := ⟨_, rfl⟩
  rw [← ha]
  have hldg : a.ldg = { s.ldg with buffer := s.ldg.buffer ++ [x] } := by rw [ha]
  have hframe : a = { s with ldg := a.ldg } := by rw [ha]
  clear ha
  have hmems : (List.range 16).foldl State.memHourEntry a = a := by
    refine foldl_keeps (P := fun t => t = a) (fun t u _ ht => ?_) rfl
    rw [ht]
    exact memHourEntry_none (by rw [hldg, hmem]; rfl)
  have htaken : hourTaken a = a := by
    have hl : a.ldg.laserHour = [] := by rw [hldg, hlaser]
    have hm : a.ldg.memHour = [] := by rw [hldg, hmem]
    rw [hourTaken, hour_none hl hm]
  rw [hmems, htaken]
  exact ⟨a, rfl, x, hldg, hkind, hlife, hscore, hframe⟩

/-- Only the unit that has errors to record records them. -/
theorem memHours_single {s : State} {u n : Nat} (hu : u < 16) (hn : n ≠ 0) (hroom : s.ldg.buffer.length < 2048) (hmem : s.ldg.memHour = [(u, n)]) :
    (List.range 16).foldl State.memHourEntry s = s.journal 5 u (leBytes 4 n) := by
  have hother : ∀ v, v ≠ u → ∀ t : State, t.ldg.memHour = [(u, n)] → t.memHourEntry v = t := fun v hv t ht =>
    memHourEntry_none (by rw [ht]; exact if_neg hv)
  have hkept : (s.journal 5 u (leBytes 4 n)).ldg.memHour = [(u, n)] := by rw [journal_of_room hroom, ← hmem]
  refine foldl_single List.nodup_range (List.mem_range.mpr hu) ?_ (fun v _ hv => hother v hv s hmem) (fun v _ hv => hother v hv _ hkept)
  have hget : sget 0 s.ldg.memHour u = n := by rw [hmem]; exact if_pos rfl
  rw [State.memHourEntry, hget]
  exact if_neg hn

theorem lifeHour_errors {u n : Nat} {s : State} (hu : u < 16) (hn : n ≠ 0) (hour : s.lifeS % 3600 = 0) (hroom : s.ldg.buffer.length < 2047)
    (hlaser : s.ldg.laserHour = []) (hmem : s.ldg.memHour = [(u, n)]) : Answers (exec .lifeHour s) fun t =>
      t.ldg.memHour = [] ∧ t.ldg.buffer.length = s.ldg.buffer.length + 2 ∧
      t.ldg.buffer.getLast?.map (fun x => (x % 256, x / 256 % 256, x / 2 ^ 128 % 2 ^ 32)) = some (5, u, n % 2 ^ 32) := by
  obtain ⟨a, ha⟩ : ∃ a, a = healthHour s := ⟨_, rfl⟩
  have hbuffer : a.ldg.buffer.length = s.ldg.buffer.length + 1 := by
    rw [ha, healthHour, journal_of_room (by omega)]
    exact List.length_append
  have hmemA : a.ldg.memHour = [(u, n)] := by rw [ha, healthHour, journal_of_room (by omega), ← hmem]
  obtain ⟨hkind, hsubject, -, hdata⟩ := journalEntry_parts a (kind := 5) (subject := u) (leBytes 4 n) (by decide) (by omega)
  have hcount := hdata 32 (by decide)
  rw [leNat_slice (by rw [leBytes_length]; decide), leNat_leBytes, show (256 : Nat) ^ 4 = 2 ^ 32 by norm_num, Nat.mod_mod] at hcount
  rw [exec_lifeHour hour hlaser, ← ha, memHours_single hu hn (by omega) hmemA, journal_of_room (by omega)]
  generalize journalEntry a 5 u (leBytes 4 n) = x at hkind hsubject hcount ⊢
  refine ⟨_, rfl, rfl, ?_, ?_⟩
  · change (a.ldg.buffer ++ [x]).length = _
    rw [List.length_append, hbuffer]
    rfl
  · change (a.ldg.buffer ++ [x]).getLast?.map _ = _
    rw [List.getLast?_concat, Option.map_some, hkind, hsubject, hcount]

/-- Settles O59. -/
theorem ledgerCommitsAndLife : Obligations.LedgerCommitsAndLife := by
  unfold Obligations.LedgerCommitsAndLife
  exact ⟨fun _ => commitRequest_during, fun _ => commitRequest_idle, fun _ => periodicCommit_down, fun _ => periodicCommit_held,
    fun _ => periodicCommit_scores, fun _ _ => commitDone_idle, fun _ => commitFails, fun _ => commitSucceeds, fun _ _ _ => commitSucceeds_entry,
    fun _ => lifeSecond_off, fun _ => lifeSecond_counts, fun _ => lifeHour_within, fun _ => lifeHour_scores, fun _ _ _ => lifeHour_errors⟩

end Sys2Proof.Proofs
end
section
/-! PROOF. Messages of the boundary clock (spec/12 R346 to R352). -/

namespace Sys2Proof.Proofs
open Sys2Proof Sys2Proof.Machine

section
variable {s t : State} {p : Fin 2050} {msg m : PtpMsg} {capture : TimeStamp}

/-! ## Counts beside a sent frame -/

theorem spray_cnt (s : State) (key a b n : Nat) (seq : BitVec 16) : (s.spray key a b n seq).cnt = s.cnt := by
  induction n generalizing s seq with
  | zero => rfl
  | succ n ih => exact ih _ _

theorem startCross_cnt (s : State) (id : Nat) (targets : List Nat) (kind : CrossKind) : (s.startCross id targets kind).cnt = s.cnt := by
  unfold State.startCross
  split
  · exact spray_cnt ..
  · rfl

theorem deliver_cnt (s : State) (q c id : Nat) : (s.deliver q c id).cnt = s.cnt := by
  unfold State.deliver
  split
  · rfl
  · split
    · rfl
    · exact startCross_cnt ..

theorem mirrorCopy_counts (s : State) {n : Nat} (q : Nat) (b : Bytes) (bad : Nat) {k : Nat} (hn : n < 16) (hk : ctrKey 10 0 ≤ k) :
    sget {} (s.mirrorCopy n q b bad).cnt.counters k = sget {} s.cnt.counters k := by
  have hne : k ≠ ctrSwc (4 + n) := by
    simp only [ctrSwc, ctrKey] at hk ⊢
    omega
  unfold State.mirrorCopy
  extract_lets
  split
  · exact countBy_acc_of_ne _ _ hne
  · exact congrArg (fun c : Cnt => sget {} c.counters k) (deliver_cnt _ _ _ _)

/-- No mirror counts in the block of the time base. -/
theorem mirror_counts (s : State) {l : List Nat} (copies q : Nat) (b : Bytes) (bad : Nat) {k : Nat} (hl : ∀ n ∈ l, n < 16) (hk : ctrKey 10 0 ≤ k) :
    sget {} (s.mirror l copies q b bad).2.cnt.counters k = sget {} s.cnt.counters k := by
  have hne : k ≠ ctrSwc 20 := by
    simp only [ctrSwc, ctrKey] at hk ⊢
    omega
  refine foldl_keeps (P := fun a : Nat × State => sget {} a.2.cnt.counters k = sget {} s.cnt.counters k) (fun a n hn ha => ?_) rfl
  split
  · exact (mirrorCopy_counts _ _ _ _ (hl n hn) hk).trans ha
  · exact (countBy_acc_of_ne _ _ hne).trans ha

/-- No frame sent counts in the block of the time base. -/
theorem txFrame_counts (s : State) {q : Nat} (f : Bytes) {k : Nat} (hq : q < 2048) (hk : ctrKey 10 0 ≤ k) :
    sget {} (s.txFrame q f).cnt.counters k = sget {} s.cnt.counters k := by
  have hne : ∀ i, i < 16 → k ≠ ctrPort q i := fun i hi => by
    simp only [ctrPort, ctrKey] at hk ⊢
    omega
  have hmirrors : ∀ n ∈ s.mirrorsOf 1 q, n < 16 := fun n hn => List.mem_range.1 (List.mem_filter.1 hn).1
  rw [State.txFrame, mirror_counts _ _ _ _ _ hmirrors hk]
  exact (countBy_acc_of_ne _ _ (hne 3 (by decide))).trans (countBy_acc_of_ne _ _ (hne 2 (by decide)))

/-! ## Sent messages -/

/-- A message of the boundary clock as a frame. -/
def ptpFrame (s : State) (body : Bytes) : Bytes := padFrame (ethHeader 0x011B19000000 s.mac 0x88F7 ++ body)

theorem ptpSend_ethernet (s : State) {q : Nat} (udpPort : Nat) (body : Bytes) (hq : q < 2048)
    (htransport : s.flag (R.TIM_PORT_CFG q) F.TIM_PORT_CFG_TRANSPORT = false) : s.ptpSend q udpPort body = s.txFrame q (ptpFrame s body) := by
  unfold State.ptpSend
  rw [if_neg (by rw [htransport]; decide), if_neg (by omega)]
  rfl

/-- What a message sent as a frame changes. -/
theorem ptpSend_facts {q udpPort : Nat} {body : Bytes} (hq : q < 2048)
    (htransport : s.flag (R.TIM_PORT_CFG q) F.TIM_PORT_CFG_TRANSPORT = false) (ht : t = s.ptpSend q udpPort body) :
    t.out = { s.out with frames := s.out.frames ++ [(q, ptpFrame s body ++ fcsOf (ptpFrame s body))] } ∧
    (∀ k, ctrKey 10 0 ≤ k → sget {} t.cnt.counters k = sget {} s.cnt.counters k) ∧
    t = { s with out := t.out, cnt := t.cnt, swc := t.swc } ∧ (s.mirrorsOf 1 q = [] → t.swc = s.swc) := by
  rw [ptpSend_ethernet s udpPort body hq htransport] at ht
  rw [ht]
  exact ⟨s.txFrame_out q _, fun k hk => txFrame_counts s _ hq hk, s.txFrame_frame q _, fun h => s.txFrame_swc _ h⟩

theorem ctrTimPort_ne (p : Nat) {i j : Nat} (h : i ≠ j) : ctrTimPort p i ≠ ctrTimPort p j := by
  simp only [ctrTimPort, ctrKey]
  omega

theorem ctrTimPort_high (p i : Nat) : ctrKey 10 0 ≤ ctrTimPort p i := by
  simp only [ctrTimPort, ctrKey]
  omega

/-! ## A port's exchanges -/

theorem setPtp_ptp {x : PtpPort} (s : State) (q : Nat) (hx : x ≠ {}) : (s.setPtp q x).ptp q = x := by
  change sget {} (sset {} s.tim.ports q x) q = x
  unfold sset
  rw [if_neg hx, sget_sput_self]

theorem setPtp_ptp_of_wf {x : PtpPort} (q : Nat) (h : swf (fun _ => {}) s.tim.ports = true) : (s.setPtp q x).ptp q = x :=
  sget_sset_self q x h

theorem setPtp_ptp_of_ne (s : State) {q r : Nat} (x : PtpPort) (h : r ≠ q) : (s.setPtp q x).ptp r = s.ptp r := sget_sset_of_ne _ _ _ _ h

/-! ## Messages that are not taken -/

/-- A message of another domain. -/
theorem ptpReceive_foreign {f : State → State} (q : Nat) (h : msg.domain.toNat ≠ s.fld R.TIM_CTRL F.TIM_CTRL_DOMAIN) :
    s.ptpReceive q msg f = if s.flag R.TIM_CTRL F.TIM_CTRL_TC_ENABLE = true then s else s.count (ctrTim 2) := if_pos h

/-- A message on a port that takes no part. -/
theorem ptpReceive_off {f : State → State} {q : Nat} (hdomain : msg.domain.toNat = s.fld R.TIM_CTRL F.TIM_CTRL_DOMAIN)
    (h : s.flag (R.TIM_PORT_CFG q) F.TIM_PORT_CFG_PTP = false ∨ s.ptpOn q = false) :
    s.ptpReceive q msg f = if s.flag (R.TIM_PORT_CFG q) F.TIM_PORT_CFG_PTP = false then s.count (ctrTim 1) else s := by
  unfold State.ptpReceive
  rw [if_neg (not_not.2 hdomain)]
  split
  · rfl
  next hptp => rw [if_pos (h.resolve_left hptp)]

theorem ptpReceive_taken {f : State → State} {q : Nat} (hdomain : msg.domain.toNat = s.fld R.TIM_CTRL F.TIM_CTRL_DOMAIN)
    (hon : s.ptpOn q = true) : s.ptpReceive q msg f = f s := by
  have hptp : s.flag (R.TIM_PORT_CFG q) F.TIM_PORT_CFG_PTP = true := by
    unfold State.ptpOn at hon
    rw [Bool.and_eq_true, Bool.and_eq_true] at hon
    exact hon.1.2
  unfold State.ptpReceive
  rw [if_neg (not_not.2 hdomain), if_neg (by rw [hptp]; decide), if_neg (by rw [hon]; decide)]

/-- What a message that is not taken leaves, whatever its kind. -/
theorem ptpMessages_ignored {u : State} (h : ∀ f, s.ptpReceive p msg f = u) : exec (.ptpSync p msg capture) s = .next u ∧
    exec (.ptpFollowUp p msg) s = .next u ∧ exec (.ptpDelayReq p msg capture) s = .next u ∧ exec (.ptpDelayResp p msg) s = .next u ∧
    exec (.ptpAnnounce p msg) s = .next u :=
  ⟨congrArg _ (h _), congrArg _ (h _), congrArg _ (h _), congrArg _ (h _), congrArg _ (h _)⟩

theorem ptpMessages_foreign (h : msg.domain.toNat ≠ s.fld R.TIM_CTRL F.TIM_CTRL_DOMAIN) :
    let u := if s.flag R.TIM_CTRL F.TIM_CTRL_TC_ENABLE = true then s else s.count (ctrTim 2)
    exec (.ptpSync p msg capture) s = .next u ∧ exec (.ptpFollowUp p msg) s = .next u ∧ exec (.ptpDelayReq p msg capture) s = .next u ∧
    exec (.ptpDelayResp p msg) s = .next u ∧ exec (.ptpAnnounce p msg) s = .next u := ptpMessages_ignored fun _ => ptpReceive_foreign _ h

theorem ptpMessages_off (hdomain : msg.domain.toNat = s.fld R.TIM_CTRL F.TIM_CTRL_DOMAIN)
    (h : s.flag (R.TIM_PORT_CFG p) F.TIM_PORT_CFG_PTP = false ∨ s.ptpOn p = false) :
    let u := if s.flag (R.TIM_PORT_CFG p) F.TIM_PORT_CFG_PTP = false then s.count (ctrTim 1) else s
    exec (.ptpSync p msg capture) s = .next u ∧ exec (.ptpFollowUp p msg) s = .next u ∧ exec (.ptpDelayReq p msg capture) s = .next u ∧
    exec (.ptpDelayResp p msg) s = .next u ∧ exec (.ptpAnnounce p msg) s = .next u := ptpMessages_ignored fun _ => ptpReceive_off hdomain h

/-! ## The servo -/

/-- From one state to another only the status of the time base, the journal, what is sent and what is counted may differ, and of the
time base not the ports, the offsets and the actions that wait. -/
structure Steers (s t : State) : Prop where
  frame : t = { s with regs := t.regs, tim := t.tim, out := t.out, cnt := { s.cnt with counters := t.cnt.counters }, ldg := t.ldg }
  regs : s.RegsBut t [R.TIM_STATUS, R.LDG_STATUS]
  ports : t.tim.ports = s.tim.ports
  offsets : t.tim.offsets = s.tim.offsets

theorem Steers.refl (s : State) : Steers s s := ⟨rfl, State.RegsBut.refl _ _, rfl, rfl⟩

theorem Steers.trans {u : State} (h : Steers s t) (k : Steers t u) : Steers s u where
  frame := by rw [k.frame, h.frame]
  regs := h.regs.trans k.regs
  ports := k.ports.trans h.ports
  offsets := k.offsets.trans h.offsets

theorem Steers.status (s : State) (f : Fld) (v : Nat) : Steers s (s.setFld R.TIM_STATUS f v) :=
  ⟨rfl, State.setFld_regsBut (by simp) _ _, rfl, rfl⟩

theorem Steers.raise (s : State) (v : Nat) : Steers s (s.raise v) := ⟨rfl, State.RegsBut.of_regs rfl _, rfl, rfl⟩

theorem Steers.base (s : State) {x : Tim} (hports : x.ports = s.tim.ports) (hoffsets : x.offsets = s.tim.offsets) :
    Steers s { s with tim := x } := ⟨rfl, State.RegsBut.of_regs rfl _, hports, hoffsets⟩

theorem Steers.ledger (s : State) (l : Ldg) : Steers s { s with ldg := l } := ⟨rfl, State.RegsBut.of_regs rfl _, rfl, rfl⟩

theorem Steers.journal (s : State) (kind subject : Nat) (data : Bytes) : Steers s (s.journal kind subject data) := by
  unfold State.journal
  split
  · exact .ledger ..
  · split
    · exact .refl s
    · exact Steers.trans (t := s.setFld R.LDG_STATUS F.LDG_STATUS_DROP 1)
        ⟨rfl, State.setFld_regsBut (by simp) _ _, rfl, rfl⟩ (.raise ..)

theorem Steers.gapEntry (s : State) : Steers s s.gapEntry := by
  unfold State.gapEntry
  split
  · extract_lets last off
    exact (Steers.journal s 2 0 _).trans (.ledger ..)
  · exact .refl s

/-- What a change of STATE makes of the counts that enter and leave it. -/
def timCounts (s : State) (st : Nat) : State := { s with tim := { s.tim with
  fromHold := st == 3 || (s.tim.fromHold && st == 1), within := 0, beyond := 0, locked := if st = 0 then false else s.tim.locked || st == 2 } }

theorem timTo_change {st : Nat} (h : s.timState ≠ st) : s.timTo st =
    let u := timCounts (((s.setFld R.TIM_STATUS F.TIM_STATUS_STATE st).setFld R.TIM_STATUS F.TIM_STATUS_STATE_CHANGE 1).raise 3) st
    if st = 2 then (u.setFld R.TIM_STATUS F.TIM_STATUS_EVER_LOCKED 1).gapEntry else u := if_neg h

theorem Steers.timCounts (s : State) (st : Nat) : Steers s (timCounts s st) := .base s rfl rfl

theorem Steers.timTo (s : State) (st : Nat) : Steers s (s.timTo st) := by
  by_cases h : s.timState = st
  · rw [State.timTo, if_pos h]
    exact .refl s
  · rw [timTo_change h]
    have hu := (((Steers.status s F.TIM_STATUS_STATE st).trans (.status _ F.TIM_STATUS_STATE_CHANGE 1)).trans (.raise _ 3)).trans (.timCounts _ st)
    generalize Proofs.timCounts _ st = u at hu ⊢
    dsimp only
    split
    · exact (hu.trans (.status u F.TIM_STATUS_EVER_LOCKED 1)).trans (.gapEntry _)
    · exact hu

theorem Steers.timBit (s : State) (f : Fld) : Steers s (s.timBit f) := by
  unfold State.timBit
  split
  · exact .refl s
  · exact (Steers.status ..).trans (.raise ..)

theorem Steers.timJump (s : State) (x : TimeStamp) : Steers s (s.timJump x) :=
  ((Steers.status s F.TIM_STATUS_STEP 1).trans (.base _ (x := { s.tim with base := x }) rfl rfl)).trans (.raise _ 3)

/-- The offset is shown and held; the rate follows it. -/
def offsetTaken (s : State) (off : Int) : State :=
  let u := s.setFld R.TIM_OFFSET F.TIM_OFFSET_OFFSET_PS (sat32 (unitsPs off))
  { u with tim := { u.tim with offsets := (off :: u.tim.offsets).take 16
                               rate := max (-(100000 * 65536)) (min (100000 * 65536) (Config.servoRate off u.tim.rate)) } }

/-- The offset is stepped out, or slewed out. -/
def offsetOut (u : State) (off : Int) : State :=
  if u.timState = 1 ∧ (u.fld R.TIM_CTRL F.TIM_CTRL_STEP_NS * 65536 : Int) ≤ off.natAbs then
    ({ u with tim := { u.tim with slew := 0 } } : State).timStep (-off)
  else { u with tim := { u.tim with slew := -off * 1000000000 } }

/-- The counts that enter and leave LOCKED. -/
def offsetCounted (u : State) (within beyond : Nat) : State :=
  if u.timState = 1 ∧ 16 ≤ within then u.timTo 2 else if u.timState = 2 ∧ 4 ≤ beyond then u.timTo 1
  else { u with tim := { u.tim with within := within, beyond := beyond } }

/-- In LOCKED the estimate and its terms follow. -/
def offsetEstimated (u : State) (rate : Int) : State :=
  if u.timState = 2 then
    let v : State := { u with tim := { u.tim with rates := (rate :: u.tim.rates).take 16 } }
    { v with tim := { v.tim with e0 := v.lockedError, e0At := v.mono, e0Temp := v.ocxoTemp, drift := v.driftF } }
  else u

/-- Offsets in a row within a bound. -/
def withinNext (u : State) (off lock : Int) : Nat := if (off.natAbs : Int) ≤ lock then u.tim.within + 1 else 0

/-- Offsets in a row beyond four times the bound. -/
def beyondNext (u : State) (off lock : Int) : Nat := if 4 * lock < (off.natAbs : Int) then u.tim.beyond + 1 else 0

theorem servo_eq (s : State) (off : Int) : s.servo off =
    let u := offsetTaken s off
    let lock : Int := u.fld R.TIM_SERVO F.TIM_SERVO_LOCK_NS * 65536
    let v := offsetOut u off
    offsetEstimated (offsetCounted v (withinNext v off lock) (beyondNext v off lock)) u.tim.rate := rfl

theorem Steers.offsetOut (u : State) (off : Int) : Steers u (offsetOut u off) := by
  unfold Proofs.offsetOut
  split
  · exact (Steers.base u (x := { u.tim with slew := 0 }) rfl rfl).trans (.timJump _ _)
  · exact .base u rfl rfl

theorem Steers.offsetCounted (u : State) (within beyond : Nat) : Steers u (offsetCounted u within beyond) := by
  unfold Proofs.offsetCounted
  split
  · exact .timTo u 2
  · split
    · exact .timTo u 1
    · exact .base u rfl rfl

theorem Steers.offsetEstimated (u : State) (rate : Int) : Steers u (offsetEstimated u rate) := by
  unfold Proofs.offsetEstimated
  split
  · exact .base u rfl rfl
  · exact .refl u

theorem Steers.servo (s : State) (off : Int) : Steers (offsetTaken s off) (s.servo off) := by
  rw [servo_eq]
  generalize Proofs.offsetTaken s off = u
  exact ((Steers.offsetOut u off).trans (.offsetCounted _ _ _)).trans (.offsetEstimated _ _)

/-! ## Actions that wait -/

theorem timed_congr (hregs : ∀ o ∈ [R.FWD_EPOCH_STATUS, R.SPL_STATUS, R.CNT_SNAP_STATUS], t.rd o = s.rd o) (hfwd : t.fwd = s.fwd)
    (hspl : t.spl = s.spl) (hnext : t.cnt.nextAt = s.cnt.nextAt) : t.timed = s.timed := by
  have hepoch : t.epochState = s.epochState := State.fld_congr (hregs _ (by simp)) _
  have hflip : t.fld R.SPL_STATUS F.SPL_STATUS_FLIP_STATE = s.fld R.SPL_STATUS F.SPL_STATUS_FLIP_STATE := State.fld_congr (hregs _ (by simp)) _
  have hsnap : t.snapState = s.snapState := State.fld_congr (hregs _ (by simp)) _
  unfold State.timed
  rw [hepoch, hflip, hsnap, hfwd, hspl, hnext]

theorem Steers.timed (h : Steers s t) : t.timed = s.timed :=
  timed_congr (fun o ho => h.regs o (by revert o; decide)) (by rw [h.frame]) (by rw [h.frame]) (by rw [h.frame])

theorem afterStep_of_none (h : s.timed = []) : s.afterStep = s := by
  have hfirst : s.firstTimed = none := by
    unfold State.firstTimed
    rw [h]
    rfl
  unfold State.afterStep State.takeTimed
  rw [hfirst]

/-! ## Syncs -/

/-- The time stamp of a message with its correction. -/
theorem ptpTime_eq (msg : PtpMsg) : ptpTime msg = tsUnits msg.origin + msg.correction.toInt := by
  rw [ptpTime, signedOf_eq_bmod (by decide), ← BitVec.toInt_eq_toNat_bmod]

theorem exec_ptpSync (hdomain : msg.domain.toNat = s.fld R.TIM_CTRL F.TIM_CTRL_DOMAIN) (hon : s.ptpOn p = true) :
    exec (.ptpSync p msg capture) s = .next (if s.fromParent p msg = false ∨ s.timState = 0 then s.count (ctrTimPort p 1)
      else if msg.twoStep = true then (s.count (ctrTimPort p 1)).setPtp p { s.ptp p with waiting := some (msg, s.rxTime p capture) }
      else ((s.count (ctrTimPort p 1)).syncTimes p (ptpTime msg) (s.rxTime p capture)).afterStep) :=
  congrArg _ (ptpReceive_taken hdomain hon)

theorem ptpSync_elsewhere (hdomain : msg.domain.toNat = s.fld R.TIM_CTRL F.TIM_CTRL_DOMAIN) (hon : s.ptpOn p = true)
    (h : s.fromParent p msg = false ∨ s.timState = 0) : exec (.ptpSync p msg capture) s = .next (s.count (ctrTimPort p 1)) := by
  rw [exec_ptpSync hdomain hon, if_pos h]

/-- A Sync of the parent is taken in every state but FREE_RUN. -/
theorem sync_taken (hparent : s.fromParent p msg = true) (hstate : s.timState ≠ 0) : ¬ (s.fromParent p msg = false ∨ s.timState = 0) := by
  rw [hparent]
  exact fun h => h.elim (by decide) hstate

theorem ptpSync_twoStep (hdomain : msg.domain.toNat = s.fld R.TIM_CTRL F.TIM_CTRL_DOMAIN) (hon : s.ptpOn p = true)
    (hparent : s.fromParent p msg = true) (hstate : s.timState ≠ 0) (htwo : msg.twoStep = true) :
    Answers (exec (.ptpSync p msg capture) s) fun t =>
      t.ptp p = { s.ptp p with waiting := some (msg, s.rxTime p capture) } ∧ (∀ q, q ≠ p.val → t.ptp q = s.ptp q) ∧
      t.tim = { s.tim with ports := t.tim.ports } ∧ t = { s with tim := t.tim, cnt := (s.count (ctrTimPort p 1)).cnt } := by
  rw [exec_ptpSync hdomain hon, if_neg (sync_taken hparent hstate), if_pos htwo]
  refine ⟨_, rfl, setPtp_ptp _ _ ?_, fun q hq => setPtp_ptp_of_ne _ _ hq, rfl, rfl⟩
  exact fun he => nomatch congrArg PtpPort.waiting he

/-- The exchanges of a port hold the times of one Sync. -/
def syncHeld (s : State) (q : Nat) (t1 t2 : Int) : State := s.setPtp q { s.ptp q with t1 := some t1, t2 := some t2, waiting := none }

theorem syncHeld_ptp (s : State) (q : Nat) (t1 t2 : Int) :
    (syncHeld s q t1 t2).ptp q = { s.ptp q with t1 := some t1, t2 := some t2, waiting := none } :=
  setPtp_ptp _ _ fun he => nomatch congrArg PtpPort.t1 he

theorem syncTimes_unknown {q : Nat} {t1 t2 : Int} (h : (s.ptp q).delay = none) : s.syncTimes q t1 t2 = syncHeld s q t1 t2 := by
  unfold State.syncTimes
  extract_lets x u
  split
  · rfl
  next d hd => exact nomatch h.symm.trans hd

/-- The offset that the times of a Sync give. -/
def syncOffset (s : State) (q : Nat) (t1 t2 d : Int) : Int :=
  t2 - t1 - (d + psUnits (signedOf 32 (s.fld (R.TIM_PORT_ASYM q) F.TIM_PORT_ASYM_ASYM_PS)) / 2)

theorem syncTimes_known {q : Nat} {t1 t2 d : Int} (h : (s.ptp q).delay = some d) :
    s.syncTimes q t1 t2 = (syncHeld s q t1 t2).servo (syncOffset s q t1 t2 d) := by
  unfold State.syncTimes
  extract_lets x u
  split
  next hd => exact nomatch h.symm.trans hd
  next d' hd =>
    obtain rfl := Option.some.inj (h.symm.trans hd)
    rfl

theorem syncHeld_timed (s : State) (q : Nat) (t1 t2 : Int) : (syncHeld s q t1 t2).timed = s.timed := rfl

theorem ptpSync_unknown (hdomain : msg.domain.toNat = s.fld R.TIM_CTRL F.TIM_CTRL_DOMAIN) (hon : s.ptpOn p = true)
    (hparent : s.fromParent p msg = true) (hstate : s.timState ≠ 0) (htwo : msg.twoStep = false) (hdelay : (s.ptp p).delay = none)
    (htimed : s.timed = []) : Answers (exec (.ptpSync p msg capture) s) fun t =>
      t.ptp p = { s.ptp p with t1 := some (tsUnits msg.origin + msg.correction.toInt), t2 := some (s.rxTime p capture), waiting := none } ∧
      (∀ q, q ≠ p.val → t.ptp q = s.ptp q) ∧ t.tim = { s.tim with ports := t.tim.ports } ∧
      t = { s with tim := t.tim, cnt := (s.count (ctrTimPort p 1)).cnt } := by
  have hrest : (syncHeld (s.count (ctrTimPort p 1)) p (ptpTime msg) (s.rxTime p capture)).timed = [] := htimed
  rw [exec_ptpSync hdomain hon, if_neg (sync_taken hparent hstate), if_neg (by rw [htwo]; decide),
    syncTimes_unknown (s := s.count _) hdelay, afterStep_of_none hrest, ptpTime_eq]
  exact ⟨_, rfl, syncHeld_ptp _ _ _ _, fun q hq => setPtp_ptp_of_ne _ _ hq, rfl, rfl⟩

/-! ## Offsets in LOCKING -/

theorem offsetTaken_facts {off : Int} {u : State} (hwf : s.regsWf = true) (hu : u = offsetTaken s off) :
    u.fld R.TIM_OFFSET F.TIM_OFFSET_OFFSET_PS = sat32 (unitsPs off) ∧ u.regsWf = true ∧ s.RegsBut u [R.TIM_OFFSET] ∧
    u.tim.offsets = (off :: s.tim.offsets).take 16 ∧ u.tim.ports = s.tim.ports ∧ u.timed = s.timed ∧ u.tim.rate.natAbs ≤ 100000 * 65536 ∧
    u.tim = { s.tim with offsets := u.tim.offsets, rate := u.tim.rate } ∧ u = { s with regs := u.regs, tim := u.tim } := by
  have hlt : sat32 (unitsPs off) < 2 ^ 32 := by
    unfold sat32
    generalize max (-2147483648) (min 2147483647 (unitsPs off)) = x
    omega
  have hset := s.fld_setFld_self R.TIM_OFFSET F.TIM_OFFSET_OFFSET_PS (sat32 (unitsPs off)) hwf (by decide)
  have hbut : s.RegsBut (s.setFld R.TIM_OFFSET F.TIM_OFFSET_OFFSET_PS (sat32 (unitsPs off))) [R.TIM_OFFSET] := State.setFld_regsBut (by simp) _ _
  have hwfU := s.setFld_regsWf R.TIM_OFFSET F.TIM_OFFSET_OFFSET_PS (sat32 (unitsPs off)) hwf
  have hrate : ∀ r : Int, (max (-(100000 * 65536)) (min (100000 * 65536) r)).natAbs ≤ 100000 * 65536 := fun r => by omega
  have htimed : u.timed = s.timed := by
    rw [hu]
    have hplace : ∀ o ∈ [R.FWD_EPOCH_STATUS, R.SPL_STATUS, R.CNT_SNAP_STATUS], o ∉ [R.TIM_OFFSET] := by decide
    exact timed_congr (fun o ho => hbut o (hplace o ho)) rfl rfl rfl
  rw [hu] at htimed ⊢
  exact ⟨hset.trans (Nat.mod_eq_of_lt hlt), hwfU, hbut, rfl, rfl, htimed, hrate _, rfl, rfl⟩

/-- An offset short of STEP_NS is slewed out. -/
theorem offsetOut_slews {u v : State} {off : Int} (hshort : off.natAbs < u.fld R.TIM_CTRL F.TIM_CTRL_STEP_NS * 65536) (hv : v = offsetOut u off) :
    v = { u with tim := { u.tim with slew := -off * 1000000000 } } := by
  rw [hv, offsetOut, if_neg]
  exact fun h => by have := h.2; omega

/-- An offset of STEP_NS or more is stepped out in LOCKING. -/
theorem offsetOut_steps {u v : State} {off : Int} (hwf : u.regsWf = true) (hstate : u.timState = 1)
    (hlong : u.fld R.TIM_CTRL F.TIM_CTRL_STEP_NS * 65536 ≤ off.natAbs) (hv : v = offsetOut u off) :
    v.tim = { u.tim with base := unitsTs ((tsUnits u.tim.base : Int) - off).toNat, slew := 0 } ∧
    v.flag R.TIM_STATUS F.TIM_STATUS_STEP = true ∧ v.timState = 1 ∧ u.RegsBut v [R.TIM_STATUS] ∧
    v.out = { u.out with msix := u.out.msix ++ [3] } ∧ v = { u with regs := v.regs, tim := v.tim, out := v.out, cnt := v.cnt } := by
  have hset : (u.setFld R.TIM_STATUS F.TIM_STATUS_STEP 1).flag R.TIM_STATUS F.TIM_STATUS_STEP = true := by
    rw [State.flag, u.fld_setFld_self R.TIM_STATUS F.TIM_STATUS_STEP 1 hwf (by decide)]
    rfl
  have hkept := u.fld_setFld_of_disjoint R.TIM_STATUS F.TIM_STATUS_STEP F.TIM_STATUS_STATE 1 hwf (by decide) (by decide)
  have hbut : u.RegsBut (u.setFld R.TIM_STATUS F.TIM_STATUS_STEP 1) [R.TIM_STATUS] := State.setFld_regsBut (by simp) _ _
  have hstep : v = (({ u with tim := { u.tim with slew := 0 } } : State).timStep (-off)) := by
    rw [hv, offsetOut, if_pos ⟨hstate, by omega⟩]
  rw [hstep]
  exact ⟨rfl, hset, hkept.trans hstate, hbut, rfl, rfl⟩

theorem offsetOut_timState {u v : State} {off : Int} (hwf : u.regsWf = true) (hstate : u.timState = 1) (hv : v = offsetOut u off) :
    v.timState = 1 := by
  by_cases hshort : off.natAbs < u.fld R.TIM_CTRL F.TIM_CTRL_STEP_NS * 65536
  · rw [offsetOut_slews hshort hv]
    exact hstate
  · obtain ⟨-, -, h, -⟩ := offsetOut_steps hwf hstate (not_lt.1 hshort) hv
    exact h

/-- In LOCKING an offset beyond LOCK_NS starts the count that leads to LOCKED anew. -/
theorem servo_locking {off : Int} {u v : State} (hwf : u.regsWf = true) (hu : u = offsetTaken s off) (hstate : u.timState = 1)
    (hlock : u.fld R.TIM_SERVO F.TIM_SERVO_LOCK_NS * 65536 < off.natAbs) (hv : v = offsetOut u off) :
    ∃ n, s.servo off = { v with tim := { v.tim with within := 0, beyond := n } } := by
  have hlocking := offsetOut_timState hwf hstate hv
  have hservo : s.servo off = offsetEstimated (offsetCounted v (withinNext v off (u.fld R.TIM_SERVO F.TIM_SERVO_LOCK_NS * 65536))
      (beyondNext v off (u.fld R.TIM_SERVO F.TIM_SERVO_LOCK_NS * 65536))) u.tim.rate := by
    rw [servo_eq, hv, hu]
  have hwithin : withinNext v off (u.fld R.TIM_SERVO F.TIM_SERVO_LOCK_NS * 65536) = 0 := by
    generalize u.fld R.TIM_SERVO F.TIM_SERVO_LOCK_NS = lock at hlock
    exact if_neg (by omega)
  rw [hservo, hwithin]
  generalize beyondNext v off _ = n
  refine ⟨n, ?_⟩
  have hcounted : offsetCounted v 0 n = { v with tim := { v.tim with within := 0, beyond := n } } := by
    rw [offsetCounted, if_neg (fun h => absurd h.2 (by decide)), if_neg (fun h => absurd (hlocking.symm.trans h.1) (by decide))]
  rw [hcounted, offsetEstimated]
  exact if_neg fun h : v.timState = 2 => absurd (hlocking.symm.trans h) (by decide)

section
variable {off : Int} {u v : State} {n : Nat}

/-- An offset that is slewed out. -/
theorem servo_slews (hstate : u.timState = 1) (hshort : off.natAbs < u.fld R.TIM_CTRL F.TIM_CTRL_STEP_NS * 65536) (hv : v = offsetOut u off)
    (ht : t = { v with tim := { v.tim with within := 0, beyond := n } }) :
    t.timState = 1 ∧ t.tim = { u.tim with slew := -off * 1000000000, within := 0, beyond := n } ∧ t.regs = u.regs ∧ t = { u with tim := t.tim } := by
  rw [offsetOut_slews hshort hv] at ht
  rw [ht]
  exact ⟨hstate, rfl, rfl, rfl⟩

/-- An offset that is stepped out. -/
theorem servo_steps (hwf : u.regsWf = true) (hstate : u.timState = 1) (hlong : u.fld R.TIM_CTRL F.TIM_CTRL_STEP_NS * 65536 ≤ off.natAbs)
    (hv : v = offsetOut u off) (ht : t = { v with tim := { v.tim with within := 0, beyond := n } }) :
    t.timState = 1 ∧ t.tim = { u.tim with base := unitsTs ((tsUnits u.tim.base : Int) - off).toNat, slew := 0, within := 0, beyond := n } ∧
    t.flag R.TIM_STATUS F.TIM_STATUS_STEP = true ∧ u.RegsBut t [R.TIM_STATUS] ∧ t.out = { u.out with msix := u.out.msix ++ [3] } ∧
    t = { u with regs := t.regs, tim := t.tim, out := t.out, cnt := t.cnt } := by
  obtain ⟨htimV, hflag, hstateV, hbutV, houtV, hframeV⟩ := offsetOut_steps hwf hstate hlong hv
  have hregs : t.regs = v.regs := by rw [ht]
  refine ⟨(State.fld_congr (State.rd_congr hregs _) _).trans hstateV, by rw [ht, htimV], ?_, hbutV.trans (.of_regs hregs _), ?_, ?_⟩
  · rw [State.flag_congr (State.rd_congr hregs _), hflag]
  · rw [ht]
    exact houtV
  · rw [ht, hframeV]

end

/-- What the servo does with such an offset. -/
theorem servo_locking_facts {off : Int} (hwf : s.regsWf = true) (hstate : s.timState = 1)
    (hlock : s.fld R.TIM_SERVO F.TIM_SERVO_LOCK_NS * 65536 < off.natAbs) (ht : t = s.servo off) :
    t.fld R.TIM_OFFSET F.TIM_OFFSET_OFFSET_PS = sat32 (unitsPs off) ∧ t.timState = 1 ∧ t.tim.within = 0 ∧
    t.tim.offsets = (off :: s.tim.offsets).take 16 ∧ t.tim.rate.natAbs ≤ 100000 * 65536 ∧
    (off.natAbs < s.fld R.TIM_CTRL F.TIM_CTRL_STEP_NS * 65536 → t.tim.base = s.tim.base ∧ t.tim.slew = -off * 1000000000 ∧
      s.RegsBut t [R.TIM_OFFSET] ∧ t.out = s.out) ∧
    (s.fld R.TIM_CTRL F.TIM_CTRL_STEP_NS * 65536 ≤ off.natAbs → t.tim.base = unitsTs ((tsUnits s.tim.base : Int) - off).toNat ∧
      t.tim.slew = 0 ∧ t.flag R.TIM_STATUS F.TIM_STATUS_STEP = true ∧ s.RegsBut t [R.TIM_OFFSET, R.TIM_STATUS] ∧
      t.out = { s.out with msix := s.out.msix ++ [3] }) ∧
    t = { s with regs := t.regs, tim := t.tim, out := t.out, cnt := t.cnt } := by
  obtain ⟨u, hu⟩ : ∃ u, u = offsetTaken s off := ⟨_, rfl⟩
  obtain ⟨hoff, hwfU, hbut, hoffsets, -, -, hrate, htim, hframe⟩ := offsetTaken_facts hwf hu
  have hstateU : u.timState = 1 := (State.fld_congr (hbut _ (by decide)) _).trans hstate
  have hlockU : u.fld R.TIM_SERVO F.TIM_SERVO_LOCK_NS = s.fld R.TIM_SERVO F.TIM_SERVO_LOCK_NS := State.fld_congr (hbut _ (by decide)) _
  have hstepU : u.fld R.TIM_CTRL F.TIM_CTRL_STEP_NS = s.fld R.TIM_CTRL F.TIM_CTRL_STEP_NS := State.fld_congr (hbut _ (by decide)) _
  have hbase : u.tim.base = s.tim.base := by rw [htim]
  have hout : u.out = s.out := by rw [hframe]
  obtain ⟨v, hv⟩ : ∃ v, v = offsetOut u off := ⟨_, rfl⟩
  obtain ⟨n, hn⟩ := servo_locking hwfU hu hstateU (by rw [hlockU]; exact hlock) hv
  rw [← ht] at hn
  have hshown (hrd : t.rd R.TIM_OFFSET = u.rd R.TIM_OFFSET) : t.fld R.TIM_OFFSET F.TIM_OFFSET_OFFSET_PS = sat32 (unitsPs off) :=
    (State.fld_congr hrd _).trans hoff
  rw [← hstepU, ← hbase, ← hout]
  by_cases hshort : off.natAbs < u.fld R.TIM_CTRL F.TIM_CTRL_STEP_NS * 65536
  · obtain ⟨hstateT, htimT, hregsT, hframeT⟩ := servo_slews hstateU hshort hv hn
    have hrateT : t.tim.rate = u.tim.rate := by rw [htimT]
    have hslew : t.tim.slew = -off * 1000000000 := by rw [htimT]
    have hbaseT : t.tim.base = u.tim.base := by rw [htimT]
    have houtT : t.out = u.out := by rw [hframeT]
    have hlong : ¬ u.fld R.TIM_CTRL F.TIM_CTRL_STEP_NS * 65536 ≤ off.natAbs := not_le.2 hshort
    exact ⟨hshown (State.rd_congr hregsT _), hstateT, by rw [htimT], by rw [htimT]; exact hoffsets, by rw [hrateT]; exact hrate,
      fun _ => ⟨hbaseT, hslew, hbut.trans (.of_regs hregsT _), houtT⟩, fun h => absurd h hlong, by rw [hframeT, hframe]⟩
  · obtain ⟨hstateT, htimT, hflag, hbutT, houtT, hframeT⟩ := servo_steps hwfU hstateU (not_lt.1 hshort) hv hn
    have hrateT : t.tim.rate = u.tim.rate := by rw [htimT]
    have hslew : t.tim.slew = 0 := by rw [htimT]
    have hbaseT : t.tim.base = unitsTs ((tsUnits u.tim.base : Int) - off).toNat := by rw [htimT]
    exact ⟨hshown (hbutT _ (by decide)), hstateT, by rw [htimT], by rw [htimT]; exact hoffsets, by rw [hrateT]; exact hrate,
      fun h => absurd h hshort, fun _ => ⟨hbaseT, hslew, hflag, (hbut.mono (by simp)).trans (hbutT.mono (by simp)), houtT⟩,
      by rw [hframeT, hframe]⟩

theorem ptpSync_locking {d off : Int} (hwf : s.regsWf = true) (hdomain : msg.domain.toNat = s.fld R.TIM_CTRL F.TIM_CTRL_DOMAIN)
    (hon : s.ptpOn p = true) (hparent : s.fromParent p msg = true) (hstate : s.timState = 1) (htwo : msg.twoStep = false)
    (hdelay : (s.ptp p).delay = some d) (htimed : s.timed = [])
    (hoff : off = s.rxTime p capture - (tsUnits msg.origin + msg.correction.toInt) -
      (d + psUnits (signedOf 32 (s.fld (R.TIM_PORT_ASYM p) F.TIM_PORT_ASYM_ASYM_PS)) / 2))
    (hlock : s.fld R.TIM_SERVO F.TIM_SERVO_LOCK_NS * 65536 < off.natAbs) : Answers (exec (.ptpSync p msg capture) s) fun t =>
      t.fld R.TIM_OFFSET F.TIM_OFFSET_OFFSET_PS = sat32 (unitsPs off) ∧ t.timState = 1 ∧ t.tim.within = 0 ∧
      t.tim.offsets = (off :: s.tim.offsets).take 16 ∧ t.tim.rate.natAbs ≤ 100000 * 65536 ∧
      (off.natAbs < s.fld R.TIM_CTRL F.TIM_CTRL_STEP_NS * 65536 → t.tim.base = s.tim.base ∧ t.tim.slew = -off * 1000000000 ∧
        s.RegsBut t [R.TIM_OFFSET] ∧ t.out = s.out) ∧
      (s.fld R.TIM_CTRL F.TIM_CTRL_STEP_NS * 65536 ≤ off.natAbs → t.tim.base = unitsTs ((tsUnits s.tim.base : Int) - off).toNat ∧
        t.tim.slew = 0 ∧ t.flag R.TIM_STATUS F.TIM_STATUS_STEP = true ∧ s.RegsBut t [R.TIM_OFFSET, R.TIM_STATUS] ∧
        t.out = { s.out with msix := s.out.msix ++ [3] }) ∧
      t = { s with regs := t.regs, tim := t.tim, out := t.out, cnt := t.cnt } := by
  rw [exec_ptpSync hdomain hon, if_neg (sync_taken hparent (by rw [hstate]; decide)), if_neg (by rw [htwo]; decide),
    syncTimes_known (s := s.count _) hdelay]
  have hoffset : syncOffset (s.count (ctrTimPort p 1)) p (ptpTime msg) (s.rxTime p capture) d = off := by
    rw [hoff, ← ptpTime_eq]
    rfl
  rw [hoffset]
  have hheld : ∀ a, a = syncHeld (s.count (ctrTimPort p 1)) p (ptpTime msg) (s.rxTime p capture) → a.regs = s.regs ∧ a.timed = [] ∧
      a.tim.offsets = s.tim.offsets ∧ a.tim.base = s.tim.base ∧ a.out = s.out ∧ a = { s with tim := a.tim, cnt := a.cnt } := fun a ha => by
    rw [ha]
    exact ⟨rfl, htimed, rfl, rfl, rfl, rfl⟩
  generalize syncHeld (s.count (ctrTimPort p 1)) p (ptpTime msg) (s.rxTime p capture) = a at hheld
  obtain ⟨hregs, htimedA, hoffsets, hbase, hout, hframe⟩ := hheld a rfl
  have hfld : ∀ o f, a.fld o f = s.fld o f := fun o f => State.fld_congr (State.rd_congr hregs o) f
  obtain ⟨u, hu⟩ : ∃ u, u = offsetTaken a off := ⟨_, rfl⟩
  have hwfA := State.regsWf_congr hregs hwf
  obtain ⟨-, -, -, -, -, htimedU, -⟩ := offsetTaken_facts hwfA hu
  have htimedT : (a.servo off).timed = [] := by rw [(Steers.servo a off).timed, ← hu, htimedU, htimedA]
  rw [afterStep_of_none htimedT]
  obtain ⟨t, ht⟩ : ∃ t, t = a.servo off := ⟨_, rfl⟩
  obtain ⟨hshown, hstateT, hwithin, hoffsetsT, hrate, hslews, hsteps, hframeT⟩ :=
    servo_locking_facts hwfA ((hfld _ _).trans hstate) (by rw [hfld]; exact hlock) ht
  have hbut : ∀ l, a.RegsBut t l → s.RegsBut t l := fun l h => (State.RegsBut.of_regs hregs l).trans h
  rw [hfld, hbase, hout] at hslews hsteps
  rw [hoffsets] at hoffsetsT
  rw [← ht]
  refine ⟨t, rfl, hshown, hstateT, hwithin, hoffsetsT, hrate, fun h => ?_, fun h => ?_, by rw [hframeT, hframe]⟩
  · obtain ⟨h1, h2, h3, h4⟩ := hslews h
    exact ⟨h1, h2, hbut _ h3, h4⟩
  · obtain ⟨h1, h2, h3, h4, h5⟩ := hsteps h
    exact ⟨h1, h2, h3, hbut _ h4, h5⟩

/-! ## Follow-ups -/

theorem exec_ptpFollowUp_none (hdomain : msg.domain.toNat = s.fld R.TIM_CTRL F.TIM_CTRL_DOMAIN) (hon : s.ptpOn p = true)
    (hwaiting : (s.ptp p).waiting = none) : exec (.ptpFollowUp p msg) s = .next s := by
  refine (congrArg _ (ptpReceive_taken hdomain hon)).trans ?_
  split
  next hw => exact nomatch hwaiting.symm.trans hw
  · rfl

theorem exec_ptpFollowUp {t2 : Int} (hdomain : msg.domain.toNat = s.fld R.TIM_CTRL F.TIM_CTRL_DOMAIN) (hon : s.ptpOn p = true)
    (hwaiting : (s.ptp p).waiting = some (m, t2)) : exec (.ptpFollowUp p msg) s = .next (if s.fromParent p msg = true ∧ m.seq = msg.seq then
      (s.syncTimes p (tsUnits msg.origin + msg.correction.toInt + m.correction.toInt) t2).afterStep else s) := by
  refine (congrArg _ (ptpReceive_taken hdomain hon)).trans ?_
  have hcorrection : signedOf 64 m.correction.toNat = m.correction.toInt := by
    rw [signedOf_eq_bmod (by decide), ← BitVec.toInt_eq_toNat_bmod]
  split
  next m' t2' hw =>
    obtain ⟨rfl, rfl⟩ := Prod.mk.inj (Option.some.inj (hwaiting.symm.trans hw))
    rw [ptpTime_eq, hcorrection]
  next hw => exact nomatch hwaiting.symm.trans hw

theorem ptpFollowUp_other {t2 : Int} (hdomain : msg.domain.toNat = s.fld R.TIM_CTRL F.TIM_CTRL_DOMAIN) (hon : s.ptpOn p = true)
    (hwaiting : (s.ptp p).waiting = some (m, t2)) (h : s.fromParent p msg = false ∨ m.seq ≠ msg.seq) :
    exec (.ptpFollowUp p msg) s = .next s := by
  rw [exec_ptpFollowUp hdomain hon hwaiting, if_neg]
  rintro ⟨hparent, hseq⟩
  exact h.elim (fun hf => Bool.noConfusion (hf.symm.trans hparent)) fun hne => hne hseq

theorem ptpFollowUp_unknown {t2 : Int} (hdomain : msg.domain.toNat = s.fld R.TIM_CTRL F.TIM_CTRL_DOMAIN) (hon : s.ptpOn p = true)
    (hparent : s.fromParent p msg = true) (hwaiting : (s.ptp p).waiting = some (m, t2)) (hseq : m.seq = msg.seq)
    (hdelay : (s.ptp p).delay = none) (htimed : s.timed = []) : Answers (exec (.ptpFollowUp p msg) s) fun t =>
      t.ptp p = { s.ptp p with t1 := some (tsUnits msg.origin + msg.correction.toInt + m.correction.toInt), t2 := some t2, waiting := none } ∧
      (∀ q, q ≠ p.val → t.ptp q = s.ptp q) ∧ t = { s with tim := { s.tim with ports := t.tim.ports } } := by
  rw [exec_ptpFollowUp hdomain hon hwaiting, if_pos ⟨hparent, hseq⟩, syncTimes_unknown hdelay,
    afterStep_of_none ((syncHeld_timed s p _ t2).trans htimed)]
  exact ⟨_, rfl, syncHeld_ptp _ _ _ _, fun q hq => setPtp_ptp_of_ne _ _ hq, rfl⟩

theorem ptpFollowUp_known {t2 d off : Int} (hwf : s.regsWf = true) (hdomain : msg.domain.toNat = s.fld R.TIM_CTRL F.TIM_CTRL_DOMAIN)
    (hon : s.ptpOn p = true) (hparent : s.fromParent p msg = true) (hwaiting : (s.ptp p).waiting = some (m, t2)) (hseq : m.seq = msg.seq)
    (hdelay : (s.ptp p).delay = some d) (htimed : s.timed = [])
    (hoff : off = t2 - (tsUnits msg.origin + msg.correction.toInt + m.correction.toInt) -
      (d + psUnits (signedOf 32 (s.fld (R.TIM_PORT_ASYM p) F.TIM_PORT_ASYM_ASYM_PS)) / 2)) :
    Answers (exec (.ptpFollowUp p msg) s) fun t => t.fld R.TIM_OFFSET F.TIM_OFFSET_OFFSET_PS = sat32 (unitsPs off) ∧
      (t.ptp p).waiting = none ∧ t.tim.offsets = (off :: s.tim.offsets).take 16 := by
  have hheld := syncHeld_ptp s p (tsUnits msg.origin + msg.correction.toInt + m.correction.toInt) t2
  have htimedA := (syncHeld_timed s p (tsUnits msg.origin + msg.correction.toInt + m.correction.toInt) t2).trans htimed
  have hwfA : (syncHeld s p (tsUnits msg.origin + msg.correction.toInt + m.correction.toInt) t2).regsWf = true := hwf
  have hoffsetsA : (syncHeld s p (tsUnits msg.origin + msg.correction.toInt + m.correction.toInt) t2).tim.offsets = s.tim.offsets := rfl
  have hoffset : syncOffset s p (tsUnits msg.origin + msg.correction.toInt + m.correction.toInt) t2 d = off := hoff.symm
  rw [exec_ptpFollowUp hdomain hon hwaiting, if_pos ⟨hparent, hseq⟩, syncTimes_known hdelay, hoffset]
  generalize syncHeld s p (tsUnits msg.origin + msg.correction.toInt + m.correction.toInt) t2 = a at hheld htimedA hwfA hoffsetsA ⊢
  have hsteers := Steers.servo a off
  obtain ⟨u, hu⟩ : ∃ u, u = offsetTaken a off := ⟨_, rfl⟩
  obtain ⟨hshown, -, -, hoffsets, hports, htimedU, -⟩ := offsetTaken_facts hwfA hu
  rw [← hu] at hsteers
  rw [afterStep_of_none (by rw [hsteers.timed, htimedU, htimedA])]
  refine ⟨_, rfl, (State.fld_congr (hsteers.regs _ (by decide)) _).trans hshown, ?_, by rw [hsteers.offsets, hoffsets, hoffsetsA]⟩
  rw [State.ptp, hsteers.ports, hports]
  exact congrArg PtpPort.waiting hheld

/-! ## Path delay -/

theorem exec_ptpDelayReq (hdomain : msg.domain.toNat = s.fld R.TIM_CTRL F.TIM_CTRL_DOMAIN) (hon : s.ptpOn p = true) :
    exec (.ptpDelayReq p msg capture) s = .next (if s.ptpState p = 6 ∧ s.ptpMaySend p 54 = true then
      (s.count (ctrTimPort p 2)).sendDelayResp p msg (s.rxTime p capture) else s.count (ctrTimPort p 2)) :=
  congrArg _ (ptpReceive_taken hdomain hon)

theorem ptpDelayReq_unanswered (hdomain : msg.domain.toNat = s.fld R.TIM_CTRL F.TIM_CTRL_DOMAIN) (hon : s.ptpOn p = true)
    (h : s.ptpState p ≠ 6 ∨ s.ptpMaySend p 54 = false) : exec (.ptpDelayReq p msg capture) s = .next (s.count (ctrTimPort p 2)) := by
  rw [exec_ptpDelayReq hdomain hon, if_neg]
  rintro ⟨hstate, hsend⟩
  exact h.elim (fun hne => hne hstate) fun hf => Bool.noConfusion (hf.symm.trans hsend)

/-- The answer to a Delay_Req received at an instant. -/
def delayRespBody (s : State) (q : Nat) (msg : PtpMsg) (t4 : Int) : Bytes :=
  s.ptpHeader q 9 20 0 (msg.correction.toInt - t4.toNat % 65536) msg.seq.toNat 3
    (max (-7) (min 0 (signedOf 8 (s.fld R.TIM_INTERVAL F.TIM_INTERVAL_LOG_DELAY_REQ))) % 256).toNat ++ ptpStamp t4 ++
    beBytes 8 msg.source.toNat ++ beBytes 2 msg.sourcePort.toNat

theorem sendDelayResp_eq (s : State) (q : Nat) (msg : PtpMsg) (t4 : Int) : s.sendDelayResp q msg t4 =
    (s.count (ctrTimPort q 3)).ptpSend q 320 (delayRespBody s q msg t4) := by
  have hcorrection : signedOf 64 msg.correction.toNat = msg.correction.toInt := by
    rw [signedOf_eq_bmod (by decide), ← BitVec.toInt_eq_toNat_bmod]
  rw [State.sendDelayResp, hcorrection]
  rfl

theorem ptpDelayReq_answered {t4 interval : Int} {f : Bytes} (hdomain : msg.domain.toNat = s.fld R.TIM_CTRL F.TIM_CTRL_DOMAIN)
    (hon : s.ptpOn p = true) (hp : p.val < 2048) (hstate : s.ptpState p = 6) (hsend : s.ptpMaySend p 54 = true)
    (htransport : s.flag (R.TIM_PORT_CFG p) F.TIM_PORT_CFG_TRANSPORT = false) (ht4 : t4 = s.rxTime p capture)
    (hinterval : interval = max (-7) (min 0 (signedOf 8 (s.fld R.TIM_INTERVAL F.TIM_INTERVAL_LOG_DELAY_REQ))))
    (hf : f = padFrame (ethHeader 0x011B19000000 s.mac 0x88F7 ++
      s.ptpHeader p 9 20 0 (msg.correction.toInt - t4.toNat % 65536) msg.seq.toNat 3 (interval % 256).toNat ++ ptpStamp t4 ++
      beBytes 8 msg.source.toNat ++ beBytes 2 msg.sourcePort.toNat)) : Answers (exec (.ptpDelayReq p msg capture) s) fun t =>
      t.out = { s.out with frames := s.out.frames ++ [(p.val, f ++ fcsOf f)] } ∧
      (sget {} t.cnt.counters (ctrTimPort p 2)).acc = (sget {} s.cnt.counters (ctrTimPort p 2)).acc + 1 ∧
      (sget {} t.cnt.counters (ctrTimPort p 3)).acc = (sget {} s.cnt.counters (ctrTimPort p 3)).acc + 1 ∧
      t = { s with out := t.out, cnt := t.cnt, swc := t.swc } ∧ (s.mirrorsOf 1 p = [] → t.swc = s.swc) := by
  have hframe : ptpFrame s (delayRespBody s p msg t4) = f := by
    rw [hf, hinterval, ptpFrame, delayRespBody]
    simp only [List.append_assoc]
  rw [exec_ptpDelayReq hdomain hon, if_pos ⟨hstate, hsend⟩, ← ht4, sendDelayResp_eq]
  obtain ⟨a, ha⟩ : ∃ a, a = (s.count (ctrTimPort p 2)).count (ctrTimPort p 3) := ⟨_, rfl⟩
  have hbody : delayRespBody (s.count (ctrTimPort p 2)) p msg t4 = delayRespBody s p msg t4 := rfl
  have hmac : ptpFrame a (delayRespBody s p msg t4) = f := by rw [← hframe, ha]; rfl
  have hrest : a = { s with cnt := a.cnt } := by rw [ha]; rfl
  have hmirrors : a.mirrorsOf 1 p = s.mirrorsOf 1 p := by rw [ha]; rfl
  have htransportA : a.flag (R.TIM_PORT_CFG p) F.TIM_PORT_CFG_TRANSPORT = false := by rw [ha]; exact htransport
  have hreqs : (sget {} a.cnt.counters (ctrTimPort p 2)).acc = (sget {} s.cnt.counters (ctrTimPort p 2)).acc + 1 := by
    rw [ha, State.count, countBy_acc_of_ne _ _ (ctrTimPort_ne p (by decide)), State.count, countBy_acc_self _ _ Nat.one_pos]
  have hresps : (sget {} a.cnt.counters (ctrTimPort p 3)).acc = (sget {} s.cnt.counters (ctrTimPort p 3)).acc + 1 := by
    rw [ha, State.count, countBy_acc_self _ _ Nat.one_pos, State.count, countBy_acc_of_ne _ _ (ctrTimPort_ne p (by decide))]
  rw [hbody, ← ha]
  obtain ⟨t, ht⟩ : ∃ t, t = a.ptpSend p 320 (delayRespBody s p msg t4) := ⟨_, rfl⟩
  obtain ⟨hout, hcounts, hframeT, hswc⟩ := ptpSend_facts hp htransportA ht
  have houtA : a.out = s.out := by rw [hrest]
  have hswcA : a.swc = s.swc := by rw [hrest]
  rw [hmac, houtA] at hout
  refine ⟨t, by rw [ht], hout, ?_, ?_, by rw [hframeT, hrest], fun h => (hswc (hmirrors.trans h)).trans hswcA⟩
  · rw [hcounts _ (ctrTimPort_high p 2), hreqs]
  · rw [hcounts _ (ctrTimPort_high p 3), hresps]

theorem exec_ptpDelayResp_other (hdomain : msg.domain.toNat = s.fld R.TIM_CTRL F.TIM_CTRL_DOMAIN) (hon : s.ptpOn p = true)
    (h : s.fromParent p msg = false ∨ msg.requester ≠ s.identity ∨ msg.requesterPort.toNat ≠ p + 1 ∨ msg.seq + 1 ≠ (s.ptp p).delaySeq ∨
      (s.ptp p).t1 = none ∨ (s.ptp p).t2 = none ∨ (s.ptp p).t3 = none) : exec (.ptpDelayResp p msg) s = .next s := by
  refine (congrArg _ (ptpReceive_taken hdomain hon)).trans ?_
  by_cases hother : s.fromParent p msg = false ∨ msg.requester ≠ s.identity ∨ msg.requesterPort.toNat ≠ p + 1 ∨
      msg.seq + 1 ≠ (s.ptp p).delaySeq
  · exact congrArg _ (if_pos hother)
  · refine (congrArg _ (if_neg hother)).trans ?_
    split
    next h1 h2 h3 =>
      have hmissing : (s.ptp p).t1 = none ∨ (s.ptp p).t2 = none ∨ (s.ptp p).t3 = none := by tauto
      rcases hmissing with hn | hn | hn
      · exact nomatch hn.symm.trans h1
      · exact nomatch hn.symm.trans h2
      · exact nomatch hn.symm.trans h3
    · rfl

/-- A port's mean path delay becomes known. -/
def delayKnown (s : State) (q : Nat) (d : Int) : State :=
  ((s.setPtp q { s.ptp q with delay := some d, t3 := none }).setFld (R.TIM_PORT_STATE q) F.TIM_PORT_STATE_DELAY_PS (sat32 (unitsPs d))).setFld
    R.TIM_OFFSET F.TIM_OFFSET_DELAY_PS (sat32 (unitsPs d))

theorem exec_ptpDelayResp {t1 t2 t3 : Int} (hdomain : msg.domain.toNat = s.fld R.TIM_CTRL F.TIM_CTRL_DOMAIN) (hon : s.ptpOn p = true)
    (hparent : s.fromParent p msg = true) (hrequester : msg.requester = s.identity) (hport : msg.requesterPort.toNat = p + 1)
    (hseq : msg.seq + 1 = (s.ptp p).delaySeq) (h1 : (s.ptp p).t1 = some t1) (h2 : (s.ptp p).t2 = some t2) (h3 : (s.ptp p).t3 = some t3) :
    exec (.ptpDelayResp p msg) s =
      .next (delayKnown s p (((t2 - t1) + (tsUnits msg.origin - msg.correction.toInt - t3)) / 2)) := by
  refine (congrArg _ (ptpReceive_taken hdomain hon)).trans ?_
  have hown : ¬ (s.fromParent p msg = false ∨ msg.requester ≠ s.identity ∨ msg.requesterPort.toNat ≠ p + 1 ∨
      msg.seq + 1 ≠ (s.ptp p).delaySeq) := by
    rw [hparent]
    exact fun h => h.elim (by decide) fun h => h.elim (· hrequester) fun h => h.elim (· hport) (· hseq)
  have hcorrection : signedOf 64 msg.correction.toNat = msg.correction.toInt := by
    rw [signedOf_eq_bmod (by decide), ← BitVec.toInt_eq_toNat_bmod]
  refine (congrArg _ (if_neg hown)).trans ?_
  split
  next u1 u2 u3 hu1 hu2 hu3 =>
    obtain rfl := Option.some.inj (h1.symm.trans hu1)
    obtain rfl := Option.some.inj (h2.symm.trans hu2)
    obtain rfl := Option.some.inj (h3.symm.trans hu3)
    rw [hcorrection]
    rfl
  next hnone => exact absurd h3 (hnone t1 t2 t3 h1 h2)

theorem sat32_lt (x : Int) : sat32 x < 2 ^ 32 := by
  unfold sat32
  generalize max (-2147483648) (min 2147483647 x) = x
  omega

theorem delayKnown_facts {q : Nat} {d : Int} (hwf : s.regsWf = true) (ht : t = delayKnown s q d) :
    (t.ptp q).delay = some d ∧ (t.ptp q).t3 = none ∧ (∀ r, r ≠ q → t.ptp r = s.ptp r) ∧
    t.fld R.TIM_OFFSET F.TIM_OFFSET_DELAY_PS = sat32 (unitsPs d) ∧
    t.fld R.TIM_OFFSET F.TIM_OFFSET_OFFSET_PS = s.fld R.TIM_OFFSET F.TIM_OFFSET_OFFSET_PS ∧
    t.fld (R.TIM_PORT_STATE q) F.TIM_PORT_STATE_DELAY_PS = sat32 (unitsPs d) ∧
    s.RegsBut t [R.TIM_OFFSET, R.TIM_PORT_STATE q] ∧ t = { s with regs := t.regs, tim := { s.tim with ports := t.tim.ports } } := by
  have hne : R.TIM_PORT_STATE q ≠ R.TIM_OFFSET := by
    simp only [R.TIM_PORT_STATE, R.TIM_OFFSET]
    omega
  obtain ⟨u, hu⟩ : ∃ u, u = s.setPtp q { s.ptp q with delay := some d, t3 := none } := ⟨_, rfl⟩
  have hself : u.ptp q = { s.ptp q with delay := some d, t3 := none } := by
    rw [hu]
    exact setPtp_ptp _ _ fun he => nomatch congrArg PtpPort.delay he
  have hothers : ∀ r, r ≠ q → u.ptp r = s.ptp r := fun r hr => by rw [hu]; exact setPtp_ptp_of_ne _ _ hr
  have hregs : u.regs = s.regs := by rw [hu]; rfl
  have hframe : u = { s with tim := { s.tim with ports := u.tim.ports } } := by rw [hu]; rfl
  have hwfU := State.regsWf_congr hregs hwf
  have hset := u.fld_setFld_self (R.TIM_PORT_STATE q) F.TIM_PORT_STATE_DELAY_PS (sat32 (unitsPs d)) hwfU (by decide)
  have hbut : u.RegsBut (u.setFld (R.TIM_PORT_STATE q) F.TIM_PORT_STATE_DELAY_PS (sat32 (unitsPs d))) [R.TIM_PORT_STATE q] :=
    State.setFld_regsBut (by simp) _ _
  have hwfV := u.setFld_regsWf (R.TIM_PORT_STATE q) F.TIM_PORT_STATE_DELAY_PS (sat32 (unitsPs d)) hwfU
  have hsame := u.setFld_same (R.TIM_PORT_STATE q) F.TIM_PORT_STATE_DELAY_PS (sat32 (unitsPs d))
  rw [delayKnown, ← hu] at ht
  generalize u.setFld (R.TIM_PORT_STATE q) F.TIM_PORT_STATE_DELAY_PS (sat32 (unitsPs d)) = v at ht hset hbut hwfV hsame
  have hshown := v.fld_setFld_self R.TIM_OFFSET F.TIM_OFFSET_DELAY_PS (sat32 (unitsPs d)) hwfV (by decide)
  have hkept := v.fld_setFld_of_disjoint R.TIM_OFFSET F.TIM_OFFSET_DELAY_PS F.TIM_OFFSET_OFFSET_PS (sat32 (unitsPs d)) hwfV (by decide) (by decide)
  have hbutV : v.RegsBut (v.setFld R.TIM_OFFSET F.TIM_OFFSET_DELAY_PS (sat32 (unitsPs d))) [R.TIM_OFFSET] := State.setFld_regsBut (by simp) _ _
  have hsameV := v.setFld_same R.TIM_OFFSET F.TIM_OFFSET_DELAY_PS (sat32 (unitsPs d))
  rw [← ht] at hshown hkept hbutV hsameV
  have htim : t.tim = u.tim := by rw [hsameV, hsame]
  have hptp : ∀ r, t.ptp r = u.ptp r := fun r => by rw [State.ptp, htim, State.ptp]
  have hlt := sat32_lt (unitsPs d)
  generalize sat32 (unitsPs d) = x at hset hshown hlt ⊢
  refine ⟨by rw [hptp, hself], by rw [hptp, hself], fun r hr => (hptp r).trans (hothers r hr), hshown.trans (Nat.mod_eq_of_lt hlt), ?_, ?_,
    ((State.RegsBut.of_regs hregs _).trans (hbut.mono (by simp))).trans (hbutV.mono (by simp)), by rw [hsameV, hsame, hframe]⟩
  · rw [hkept, State.fld_congr (hbut _ (by simpa using hne.symm)), State.fld_congr (State.rd_congr hregs _)]
  · rw [State.fld_congr (hbutV _ (by simpa using hne)), hset]
    exact Nat.mod_eq_of_lt hlt

theorem ptpDelayResp_own {t1 t2 t3 d : Int} (hwf : s.regsWf = true) (hdomain : msg.domain.toNat = s.fld R.TIM_CTRL F.TIM_CTRL_DOMAIN)
    (hon : s.ptpOn p = true) (hparent : s.fromParent p msg = true) (hrequester : msg.requester = s.identity)
    (hport : msg.requesterPort.toNat = p + 1) (hseq : msg.seq + 1 = (s.ptp p).delaySeq) (h1 : (s.ptp p).t1 = some t1)
    (h2 : (s.ptp p).t2 = some t2) (h3 : (s.ptp p).t3 = some t3)
    (hd : d = ((t2 - t1) + (tsUnits msg.origin - msg.correction.toInt - t3)) / 2) : Answers (exec (.ptpDelayResp p msg) s) fun t =>
      (t.ptp p).delay = some d ∧ (t.ptp p).t3 = none ∧ (∀ q, q ≠ p.val → t.ptp q = s.ptp q) ∧
      t.fld R.TIM_OFFSET F.TIM_OFFSET_DELAY_PS = sat32 (unitsPs d) ∧
      t.fld R.TIM_OFFSET F.TIM_OFFSET_OFFSET_PS = s.fld R.TIM_OFFSET F.TIM_OFFSET_OFFSET_PS ∧
      t.fld (R.TIM_PORT_STATE p) F.TIM_PORT_STATE_DELAY_PS = sat32 (unitsPs d) ∧
      s.RegsBut t [R.TIM_OFFSET, R.TIM_PORT_STATE p] ∧ t = { s with regs := t.regs, tim := { s.tim with ports := t.tim.ports } } := by
  rw [exec_ptpDelayResp hdomain hon hparent hrequester hport hseq h1 h2 h3, ← hd]
  exact ⟨_, rfl, delayKnown_facts hwf rfl⟩

/-! ## STATE and the registers of the parent -/

/-- What a change of STATE other than to LOCKED leaves. -/
theorem timTo_facts {st : Nat} (hwf : s.regsWf = true) (hst : st = 0 ∨ st = 1 ∨ st = 3) (ht : t = s.timTo st) :
    t.regsWf = true ∧ t.timState = st ∧ s.RegsBut t [R.TIM_STATUS] ∧
    t.fld R.TIM_STATUS F.TIM_STATUS_PARENT = s.fld R.TIM_STATUS F.TIM_STATUS_PARENT ∧
    t.tim = { s.tim with fromHold := t.tim.fromHold, within := t.tim.within, beyond := t.tim.beyond, locked := t.tim.locked } ∧
    t = { s with regs := t.regs, tim := t.tim, out := t.out, cnt := t.cnt } := by
  by_cases h : s.timState = st
  · rw [State.timTo, if_pos h] at ht
    rw [ht]
    exact ⟨hwf, h, .refl _ _, rfl, rfl, rfl⟩
  · have hne : st ≠ 2 := by omega
    have hset := s.fld_setFld_self R.TIM_STATUS F.TIM_STATUS_STATE st hwf (by decide)
    have hparent := s.fld_setFld_of_disjoint R.TIM_STATUS F.TIM_STATUS_STATE F.TIM_STATUS_PARENT st hwf (by decide) (by decide)
    have hbut : s.RegsBut (s.setFld R.TIM_STATUS F.TIM_STATUS_STATE st) [R.TIM_STATUS] := State.setFld_regsBut (by simp) _ _
    have hwfA := s.setFld_regsWf R.TIM_STATUS F.TIM_STATUS_STATE st hwf
    have hsame := s.setFld_same R.TIM_STATUS F.TIM_STATUS_STATE st
    rw [timTo_change h] at ht
    generalize s.setFld R.TIM_STATUS F.TIM_STATUS_STATE st = a at ht hset hparent hbut hwfA hsame
    have hstateB := a.fld_setFld_of_disjoint R.TIM_STATUS F.TIM_STATUS_STATE_CHANGE F.TIM_STATUS_STATE 1 hwfA (by decide) (by decide)
    have hparentB := a.fld_setFld_of_disjoint R.TIM_STATUS F.TIM_STATUS_STATE_CHANGE F.TIM_STATUS_PARENT 1 hwfA (by decide) (by decide)
    have hbutB : a.RegsBut (a.setFld R.TIM_STATUS F.TIM_STATUS_STATE_CHANGE 1) [R.TIM_STATUS] := State.setFld_regsBut (by simp) _ _
    have hwfB := a.setFld_regsWf R.TIM_STATUS F.TIM_STATUS_STATE_CHANGE 1 hwfA
    have hsameB := a.setFld_same R.TIM_STATUS F.TIM_STATUS_STATE_CHANGE 1
    generalize a.setFld R.TIM_STATUS F.TIM_STATUS_STATE_CHANGE 1 = b at ht hstateB hparentB hbutB hwfB hsameB
    dsimp only at ht
    rw [if_neg hne] at ht
    have hregs : t.regs = b.regs := by rw [ht]; rfl
    have hframe : t = { b with tim := t.tim, out := t.out, cnt := t.cnt } := by rw [ht]; rfl
    have htim : t.tim = { b.tim with fromHold := t.tim.fromHold, within := t.tim.within, beyond := t.tim.beyond, locked := t.tim.locked } := by
      rw [ht]; rfl
    have htimB : b.tim = s.tim := by rw [hsameB, hsame]
    have hst4 : st < 4 := by omega
    refine ⟨State.regsWf_congr hregs hwfB, ?_, (hbut.trans hbutB).trans (.of_regs hregs _), ?_, by rw [htim, htimB], by rw [hframe, hsameB, hsame]⟩
    · rw [State.timState, State.fld_congr (State.rd_congr hregs _), hstateB, hset]
      exact Nat.mod_eq_of_lt hst4
    · rw [State.fld_congr (State.rd_congr hregs _), hparentB, hparent]

/-- A sticky bit of TIM_STATUS is set; the state and the parent stay. -/
theorem timBit_facts (hwf : s.regsWf = true) (ht : t = s.timBit F.TIM_STATUS_PARENT_CHANGE) : t.flag R.TIM_STATUS F.TIM_STATUS_PARENT_CHANGE = true ∧
    t.timState = s.timState ∧ s.RegsBut t [R.TIM_STATUS] ∧
    t.fld R.TIM_STATUS F.TIM_STATUS_PARENT = s.fld R.TIM_STATUS F.TIM_STATUS_PARENT ∧ t.tim = s.tim := by
  by_cases h : s.flag R.TIM_STATUS F.TIM_STATUS_PARENT_CHANGE = true
  · rw [State.timBit, if_pos h] at ht
    rw [ht]
    exact ⟨h, rfl, .refl _ _, rfl, rfl⟩
  · rw [State.timBit, if_neg h] at ht
    have hset := s.fld_setFld_self R.TIM_STATUS F.TIM_STATUS_PARENT_CHANGE 1 hwf (by decide)
    have hstate := s.fld_setFld_of_disjoint R.TIM_STATUS F.TIM_STATUS_PARENT_CHANGE F.TIM_STATUS_STATE 1 hwf (by decide) (by decide)
    have hparent := s.fld_setFld_of_disjoint R.TIM_STATUS F.TIM_STATUS_PARENT_CHANGE F.TIM_STATUS_PARENT 1 hwf (by decide) (by decide)
    have hbut : s.RegsBut (s.setFld R.TIM_STATUS F.TIM_STATUS_PARENT_CHANGE 1) [R.TIM_STATUS] := State.setFld_regsBut (by simp) _ _
    have hsame := s.setFld_same R.TIM_STATUS F.TIM_STATUS_PARENT_CHANGE 1
    generalize s.setFld R.TIM_STATUS F.TIM_STATUS_PARENT_CHANGE 1 = a at ht hset hstate hparent hbut hsame
    have hregs : t.regs = a.regs := by rw [ht]; rfl
    have htim : t.tim = a.tim := by rw [ht]; rfl
    refine ⟨?_, (State.fld_congr (State.rd_congr hregs _) _).trans hstate, hbut.trans (.of_regs hregs _), ?_, by rw [htim, hsame]⟩
    · rw [State.flag, State.fld_congr (State.rd_congr hregs _), hset]
      rfl
    · rw [State.fld_congr (State.rd_congr hregs _), hparent]

/-- The path delay that the registers of the parent show. -/
def parentDelay (s : State) : Nat :=
  ((if s.tim.parent.isSome = true then (s.ptp s.tim.parentPort).delay else none).map fun d => sat32 (unitsPs d)).getD 0

/-- The registers that describe a parent. -/
def parentShown (s : State) (m : PtpMsg) : State :=
  ((((((s.setFld R.TIM_OFFSET F.TIM_OFFSET_DELAY_PS (parentDelay s)).setFld R.TIM_STATUS F.TIM_STATUS_PARENT s.tim.parentPort).wr
    R.TIM_GM_ID m.gmId).wr R.TIM_PARENT_ID m.source).setFld R.TIM_CLOCK F.TIM_CLOCK_ACCURACY m.accuracy.toNat).setFld
    R.TIM_CLOCK F.TIM_CLOCK_STEPS (m.steps.toNat + 1)).setFld R.TIM_CLOCK F.TIM_CLOCK_UTC_OFFSET m.utcOffset.toNat

/-- The registers without a parent. -/
def noParentShown (s : State) : State :=
  (((((s.setFld R.TIM_OFFSET F.TIM_OFFSET_DELAY_PS (parentDelay s)).setFld R.TIM_STATUS F.TIM_STATUS_PARENT 0xFFF).wr R.TIM_GM_ID 0).wr
    R.TIM_PARENT_ID 0).setFld R.TIM_CLOCK F.TIM_CLOCK_ACCURACY 0xFE).setFld R.TIM_CLOCK F.TIM_CLOCK_STEPS 0

theorem parentRegs_some (h : s.tim.parent = some m) : s.parentRegs = parentShown s m := by
  unfold State.parentRegs
  extract_lets d u
  split
  next m' hm =>
    obtain rfl := Option.some.inj (h.symm.trans hm)
    rfl
  next hm => exact nomatch h.symm.trans hm

theorem parentRegs_none (h : s.tim.parent = none) : s.parentRegs = noParentShown s := by
  unfold State.parentRegs
  extract_lets d u
  split
  next m' hm => exact nomatch h.symm.trans hm
  · rfl

/-- The registers that name a parent. -/
def parentNamed (s : State) (delay port : Nat) (gm parent : Word) : State :=
  (((s.setFld R.TIM_OFFSET F.TIM_OFFSET_DELAY_PS delay).setFld R.TIM_STATUS F.TIM_STATUS_PARENT port).wr R.TIM_GM_ID gm).wr R.TIM_PARENT_ID parent

theorem parentNamed_facts {delay port : Nat} {gm parent : Word} (hwf : s.regsWf = true) (hdelay : delay < 2 ^ 32) (hport : port < 2 ^ 12)
    (ht : t = parentNamed s delay port gm parent) : t.regsWf = true ∧ t.fld R.TIM_OFFSET F.TIM_OFFSET_DELAY_PS = delay ∧
    t.fld R.TIM_STATUS F.TIM_STATUS_PARENT = port ∧ t.timState = s.timState ∧ t.rd R.TIM_GM_ID = gm ∧ t.rd R.TIM_PARENT_ID = parent ∧
    s.RegsBut t [R.TIM_STATUS, R.TIM_GM_ID, R.TIM_PARENT_ID, R.TIM_OFFSET] ∧ SameButRegs s t := by
  rw [parentNamed] at ht
  have hset := s.fld_setFld_self R.TIM_OFFSET F.TIM_OFFSET_DELAY_PS delay hwf (by decide)
  have hbut : s.RegsBut (s.setFld R.TIM_OFFSET F.TIM_OFFSET_DELAY_PS delay) [R.TIM_OFFSET] := State.setFld_regsBut (by simp) _ _
  have hwfA := s.setFld_regsWf R.TIM_OFFSET F.TIM_OFFSET_DELAY_PS delay hwf
  have hsame := s.setFld_same R.TIM_OFFSET F.TIM_OFFSET_DELAY_PS delay
  generalize s.setFld R.TIM_OFFSET F.TIM_OFFSET_DELAY_PS delay = a at ht hset hbut hwfA hsame
  have hsetB := a.fld_setFld_self R.TIM_STATUS F.TIM_STATUS_PARENT port hwfA (by decide)
  have hstateB := a.fld_setFld_of_disjoint R.TIM_STATUS F.TIM_STATUS_PARENT F.TIM_STATUS_STATE port hwfA (by decide) (by decide)
  have hbutB : a.RegsBut (a.setFld R.TIM_STATUS F.TIM_STATUS_PARENT port) [R.TIM_STATUS] := State.setFld_regsBut (by simp) _ _
  have hwfB := a.setFld_regsWf R.TIM_STATUS F.TIM_STATUS_PARENT port hwfA
  have hsameB := a.setFld_same R.TIM_STATUS F.TIM_STATUS_PARENT port
  generalize a.setFld R.TIM_STATUS F.TIM_STATUS_PARENT port = b at ht hsetB hstateB hbutB hwfB hsameB
  have hwfC := b.wr_regsWf R.TIM_GM_ID gm hwfB
  have hbutC : b.RegsBut t [R.TIM_GM_ID, R.TIM_PARENT_ID] := by
    rw [ht]
    exact (State.wr_regsBut (by simp) gm).wr (by simp) parent
  have hgm : t.rd R.TIM_GM_ID = gm := by
    rw [ht, State.rd_wr_of_ne _ _ (by decide)]
    exact State.rd_wr_self _ _ _ hwfB
  have hparent : t.rd R.TIM_PARENT_ID = parent := by
    rw [ht]
    exact State.rd_wr_self _ _ _ hwfC
  have hsameC : SameButRegs b t := by
    rw [ht]
    exact (State.wr_same _ _ _).trans (State.wr_same _ _ _)
  have hwfT : t.regsWf = true := by
    rw [ht]
    exact State.wr_regsWf _ _ _ hwfC
  have hplace : ∀ f, t.fld R.TIM_STATUS f = b.fld R.TIM_STATUS f := fun f => State.fld_congr (hbutC _ (by decide)) f
  refine ⟨hwfT, ?_, ?_, ?_, hgm, hparent, ((hbut.mono (by simp)).trans (hbutB.mono (by simp))).trans (hbutC.mono (by simp)),
    (hsame.trans hsameB).trans hsameC⟩
  · rw [State.fld_congr (hbutC _ (by decide)), State.fld_congr (hbutB _ (by decide)), hset]
    exact Nat.mod_eq_of_lt hdelay
  · rw [hplace, hsetB]
    exact Nat.mod_eq_of_lt hport
  · exact ((hplace _).trans hstateB).trans (State.fld_congr (hbut _ (by decide)) _)

theorem parentDelay_lt (s : State) : parentDelay s < 2 ^ 32 := by
  unfold parentDelay
  cases (if s.tim.parent.isSome = true then (s.ptp s.tim.parentPort).delay else none) with
  | none => decide
  | some d => exact sat32_lt _

/-- What the registers show of a parent. -/
theorem parentShown_facts (hwf : s.regsWf = true) (hport : s.tim.parentPort < 2050) (ht : t = parentShown s m) : t.regsWf = true ∧
    t.fld R.TIM_STATUS F.TIM_STATUS_PARENT = s.tim.parentPort ∧ t.timState = s.timState ∧ t.rd R.TIM_GM_ID = m.gmId ∧
    t.rd R.TIM_PARENT_ID = m.source ∧ t.fld R.TIM_CLOCK F.TIM_CLOCK_UTC_OFFSET = m.utcOffset.toNat ∧
    t.fld R.TIM_CLOCK F.TIM_CLOCK_ACCURACY = m.accuracy.toNat ∧ SameButRegs s t := by
  obtain ⟨a, ha⟩ : ∃ a, a = parentNamed s (parentDelay s) s.tim.parentPort m.gmId m.source := ⟨_, rfl⟩
  obtain ⟨hwfA, -, hparent, hstate, hgm, hsource, -, hsame⟩ := parentNamed_facts hwf (parentDelay_lt s) (by omega) ha
  rw [parentShown, ← parentNamed, ← ha] at ht
  have hacc := a.fld_setFld_self R.TIM_CLOCK F.TIM_CLOCK_ACCURACY m.accuracy.toNat hwfA (by decide)
  have hbutB : a.RegsBut (a.setFld R.TIM_CLOCK F.TIM_CLOCK_ACCURACY m.accuracy.toNat) [R.TIM_CLOCK] := State.setFld_regsBut (by simp) _ _
  have hwfB := a.setFld_regsWf R.TIM_CLOCK F.TIM_CLOCK_ACCURACY m.accuracy.toNat hwfA
  have hsameB := a.setFld_same R.TIM_CLOCK F.TIM_CLOCK_ACCURACY m.accuracy.toNat
  generalize a.setFld R.TIM_CLOCK F.TIM_CLOCK_ACCURACY m.accuracy.toNat = b at ht hacc hbutB hwfB hsameB
  have haccC := b.fld_setFld_of_disjoint R.TIM_CLOCK F.TIM_CLOCK_STEPS F.TIM_CLOCK_ACCURACY (m.steps.toNat + 1) hwfB (by decide) (by decide)
  have hbutC : b.RegsBut (b.setFld R.TIM_CLOCK F.TIM_CLOCK_STEPS (m.steps.toNat + 1)) [R.TIM_CLOCK] := State.setFld_regsBut (by simp) _ _
  have hwfC := b.setFld_regsWf R.TIM_CLOCK F.TIM_CLOCK_STEPS (m.steps.toNat + 1) hwfB
  have hsameC := b.setFld_same R.TIM_CLOCK F.TIM_CLOCK_STEPS (m.steps.toNat + 1)
  generalize b.setFld R.TIM_CLOCK F.TIM_CLOCK_STEPS (m.steps.toNat + 1) = c at ht haccC hbutC hwfC hsameC
  have haccT := c.fld_setFld_of_disjoint R.TIM_CLOCK F.TIM_CLOCK_UTC_OFFSET F.TIM_CLOCK_ACCURACY m.utcOffset.toNat hwfC (by decide) (by decide)
  have hutc := c.fld_setFld_self R.TIM_CLOCK F.TIM_CLOCK_UTC_OFFSET m.utcOffset.toNat hwfC (by decide)
  have hbutT : c.RegsBut (c.setFld R.TIM_CLOCK F.TIM_CLOCK_UTC_OFFSET m.utcOffset.toNat) [R.TIM_CLOCK] := State.setFld_regsBut (by simp) _ _
  have hwfT := c.setFld_regsWf R.TIM_CLOCK F.TIM_CLOCK_UTC_OFFSET m.utcOffset.toNat hwfC
  have hsameT := c.setFld_same R.TIM_CLOCK F.TIM_CLOCK_UTC_OFFSET m.utcOffset.toNat
  rw [← ht] at haccT hutc hbutT hwfT hsameT
  have hbut : a.RegsBut t [R.TIM_CLOCK] := (hbutB.trans hbutC).trans hbutT
  have hstatus : ∀ f, t.fld R.TIM_STATUS f = a.fld R.TIM_STATUS f := fun f => State.fld_congr (hbut _ (by decide)) f
  have hacc8 : m.accuracy.toNat < 2 ^ 8 := m.accuracy.isLt
  have hutc16 : m.utcOffset.toNat < 2 ^ 16 := m.utcOffset.isLt
  generalize m.accuracy.toNat = acc at hacc hacc8 ⊢
  generalize m.utcOffset.toNat = utc at hutc hutc16 ⊢
  refine ⟨hwfT, (hstatus _).trans hparent, (hstatus _).trans hstate, (hbut _ (by decide)).trans hgm, (hbut _ (by decide)).trans hsource,
    hutc.trans (Nat.mod_eq_of_lt hutc16), ?_, ((hsame.trans hsameB).trans hsameC).trans hsameT⟩
  rw [haccT, haccC, hacc]
  exact Nat.mod_eq_of_lt hacc8

/-- What the registers show without a parent. -/
theorem noParentShown_facts (hwf : s.regsWf = true) (hnone : s.tim.parent = none) (ht : t = noParentShown s) : t.regsWf = true ∧
    t.fld R.TIM_STATUS F.TIM_STATUS_PARENT = 0xFFF ∧ t.timState = s.timState ∧ t.rd R.TIM_GM_ID = 0 ∧ t.rd R.TIM_PARENT_ID = 0 ∧
    t.fld R.TIM_OFFSET F.TIM_OFFSET_DELAY_PS = 0 ∧
    s.RegsBut t [R.TIM_STATUS, R.TIM_GM_ID, R.TIM_PARENT_ID, R.TIM_OFFSET, R.TIM_CLOCK] ∧ SameButRegs s t := by
  have hdelay : parentDelay s = 0 := by
    rw [parentDelay, hnone]
    rfl
  obtain ⟨a, ha⟩ : ∃ a, a = parentNamed s 0 0xFFF 0 0 := ⟨_, rfl⟩
  obtain ⟨hwfA, hoffset, hparent, hstate, hgm, hsource, hbutA, hsame⟩ := parentNamed_facts hwf (by decide) (by decide) ha
  rw [noParentShown, hdelay, ← parentNamed, ← ha] at ht
  have hbut : a.RegsBut t [R.TIM_CLOCK] := by
    rw [ht]
    exact (State.setFld_regsBut (by simp) _ _).setFld (by simp) _ _
  have hwfT : t.regsWf = true := by
    rw [ht]
    exact State.setFld_regsWf _ _ _ _ (State.setFld_regsWf _ _ _ _ hwfA)
  have hsameT : SameButRegs a t := by
    rw [ht]
    exact (State.setFld_same _ _ _ _).trans (State.setFld_same _ _ _ _)
  have hstatus : ∀ f, t.fld R.TIM_STATUS f = a.fld R.TIM_STATUS f := fun f => State.fld_congr (hbut _ (by decide)) f
  exact ⟨hwfT, (hstatus _).trans hparent, (hstatus _).trans hstate, (hbut _ (by decide)).trans hgm, (hbut _ (by decide)).trans hsource,
    (State.fld_congr (hbut _ (by decide)) _).trans hoffset, (hbutA.mono (by simp)).trans (hbut.mono (by simp)), hsame.trans hsameT⟩

/-! ## Announces -/

/-- Whether a record is that of a message's sender on a port. -/
def ofSender (q : Nat) (msg : PtpMsg) (f : Foreign) : Bool := f.port == q && f.msg.source == msg.source && f.msg.sourcePort == msg.sourcePort

/-- The Announces that a sender's record counts with a further one. -/
def announcesOf (s : State) (q : Nat) (msg : PtpMsg) : Nat := match s.tim.foreign.find? (ofSender q msg) with
  | some f => if s.mono ≤ f.lastAt + ptpWindow msg then f.count + 1 else 1
  | none => 1

/-- The record of an Announce's sender. -/
def announced (s : State) (q : Nat) (msg : PtpMsg) : State := { s with tim := { s.tim with
  foreign := (s.tim.foreign.filter fun f => !ofSender q msg f) ++ [Foreign.mk q msg (announcesOf s q msg) s.mono] } }

theorem ptpOn_of_mayFollow {q : Nat} (h : s.ptpMayFollow q = true) : s.ptpOn q = true := by
  unfold State.ptpMayFollow at h
  rw [Bool.and_eq_true, Bool.and_eq_true] at h
  exact h.1.1

theorem ptpAnnounce_ignored (hdomain : msg.domain.toNat = s.fld R.TIM_CTRL F.TIM_CTRL_DOMAIN) (hon : s.ptpOn p = true)
    (h : s.ptpMayFollow p = false ∨ msg.source = s.identity) : exec (.ptpAnnounce p msg) s = .next s :=
  (congrArg _ (ptpReceive_taken hdomain hon)).trans (congrArg _ (if_pos h))

theorem exec_ptpAnnounce (hdomain : msg.domain.toNat = s.fld R.TIM_CTRL F.TIM_CTRL_DOMAIN) (hfollow : s.ptpMayFollow p = true)
    (hsource : msg.source ≠ s.identity) :
    exec (.ptpAnnounce p msg) s = .next ((announced s p msg).bestMaster.ptpDecided (announced s p msg)) := by
  have hother : ¬ (s.ptpMayFollow p = false ∨ msg.source = s.identity) := by
    rw [hfollow]
    exact fun h => h.elim (by decide) hsource
  exact (congrArg _ (ptpReceive_taken hdomain (ptpOn_of_mayFollow hfollow))).trans (congrArg _ (if_neg hother))

theorem bestMaster_unchanged (h : s.bestForeign s.ptpMayFollow = none) : s.bestMaster = s := by
  have hbest : (if s.timSource = 0 then s.bestForeign s.ptpMayFollow else none) = none := by rw [h, ite_self]
  rw [State.bestMaster, hbest]

theorem ptpDecided_none {u : State} (h : s.tim.parent = none) : s.ptpDecided u = s := by
  unfold State.ptpDecided
  split
  · rfl
  next hm => exact nomatch h.symm.trans hm

/-- A first Announce makes a record alone. -/
theorem ptpAnnounce_first (hdomain : msg.domain.toNat = s.fld R.TIM_CTRL F.TIM_CTRL_DOMAIN) (hfollow : s.ptpMayFollow p = true)
    (hsource : msg.source ≠ s.identity) (hforeign : s.tim.foreign = []) (hparent : s.tim.parent = none) :
    exec (.ptpAnnounce p msg) s = .next { s with tim := { s.tim with foreign := [⟨p, msg, 1, s.mono⟩] } } := by
  have hrecord : announced s p msg = { s with tim := { s.tim with foreign := [⟨p, msg, 1, s.mono⟩] } } := by
    rw [announced, announcesOf, hforeign]
    rfl
  rw [exec_ptpAnnounce hdomain hfollow hsource, hrecord]
  obtain ⟨a, ha⟩ : ∃ a, a = ({ s with tim := { s.tim with foreign := [⟨p, msg, 1, s.mono⟩] } } : State) := ⟨_, rfl⟩
  have hbest : a.bestForeign a.ptpMayFollow = none := by
    generalize a.ptpMayFollow = ok
    rw [ha]
    rfl
  rw [← ha, bestMaster_unchanged hbest, ptpDecided_none (by rw [ha]; exact hparent)]

/-- A port that a decision has made a master qualifies until an instant. -/
def qualifies (old : State) (till : Nat) (s : State) (q : Nat) : State :=
  if s.ptpRole q = 6 ∧ old.ptpRole q ≠ 6 then s.setPtp q { s.ptp q with preMaster := till } else s

theorem ptpDecided_some {u : State} (h : s.tim.parent = some m) : s.ptpDecided u =
    (List.range 2050).foldl (qualifies u (s.mono + (m.steps.toNat + 2) * s.announceNs)) s := by
  unfold State.ptpDecided
  split
  next hm => exact nomatch h.symm.trans hm
  next m' hm =>
    obtain rfl := Option.some.inj (h.symm.trans hm)
    generalize List.range 2050 = ports
    rfl

theorem qualifies_frame (old : State) (till : Nat) (ports : List Nat) (s : State) : ports.foldl (qualifies old till) s =
    { s with tim := { s.tim with ports := (ports.foldl (qualifies old till) s).tim.ports } } := by
  refine foldl_keeps (P := fun t : State => t = { s with tim := { s.tim with ports := t.tim.ports } }) (fun t q _ ht => ?_) rfl
  unfold qualifies
  split
  · rw [State.setPtp, ht]
  · exact ht

/-- A decision changes the exchanges of ports alone. -/
theorem ptpDecided_frame (s u : State) : s.ptpDecided u = { s with tim := { s.tim with ports := (s.ptpDecided u).tim.ports } } := by
  cases h : s.tim.parent with
  | none => rw [ptpDecided_none h]
  | some m => rw [ptpDecided_some h]; exact qualifies_frame _ _ _ _

/-- A record that is the best becomes the parent. -/
def parentTaken (s : State) (f : Foreign) : State := { s with tim := { s.tim with parent := some f.msg, parentPort := f.port } }

theorem bestMaster_new {f : Foreign} (hsource : s.timSource = 0) (hbest : s.bestForeign s.ptpMayFollow = some f)
    (hrank : rankLt (masterRank f.msg f.port) s.ownRank = true) (hparent : s.tim.parent = none) :
    s.bestMaster = ((parentTaken s f).parentRegs.timTo 1).timBit F.TIM_STATUS_PARENT_CHANGE := by
  have hbest' : (if s.timSource = 0 then s.bestForeign s.ptpMayFollow else none) = some f := by rw [if_pos hsource, hbest]
  unfold State.bestMaster
  rw [hbest']
  dsimp only
  rw [if_neg (by rw [hrank]; decide), if_neg]
  · rfl
  · rw [hparent]
    exact Bool.false_ne_true

/-- What the registers show of a new parent. -/
theorem bestMaster_facts {f : Foreign} (hwf : s.regsWf = true) (hport : f.port < 2050) (hsource : s.timSource = 0)
    (hbest : s.bestForeign s.ptpMayFollow = some f) (hrank : rankLt (masterRank f.msg f.port) s.ownRank = true) (hparent : s.tim.parent = none)
    (ht : t = s.bestMaster) : t.tim.parent = some f.msg ∧ t.tim.parentPort = f.port ∧ t.timState = 1 ∧
      t.flag R.TIM_STATUS F.TIM_STATUS_PARENT_CHANGE = true ∧ t.fld R.TIM_STATUS F.TIM_STATUS_PARENT = f.port ∧
      t.rd R.TIM_GM_ID = f.msg.gmId ∧ t.rd R.TIM_PARENT_ID = f.msg.source ∧ t.fld R.TIM_CLOCK F.TIM_CLOCK_UTC_OFFSET = f.msg.utcOffset.toNat ∧
      t.fld R.TIM_CLOCK F.TIM_CLOCK_ACCURACY = f.msg.accuracy.toNat ∧ t.tim.foreign = s.tim.foreign ∧ t.tim.base = s.tim.base := by
  rw [bestMaster_new hsource hbest hrank hparent] at ht
  obtain ⟨a, ha⟩ : ∃ a, a = parentTaken s f := ⟨_, rfl⟩
  have hparentA : a.tim.parent = some f.msg := by rw [ha]; rfl
  have hportA : a.tim.parentPort = f.port := by rw [ha]; rfl
  have hforeignA : a.tim.foreign = s.tim.foreign := by rw [ha]; rfl
  have hbaseA : a.tim.base = s.tim.base := by rw [ha]; rfl
  have hwfA : a.regsWf = true := by rw [ha]; exact hwf
  rw [← ha, parentRegs_some hparentA] at ht
  clear ha
  obtain ⟨b, hb⟩ : ∃ b, b = parentShown a f.msg := ⟨_, rfl⟩
  obtain ⟨hwfB, hplaceB, -, hgmB, hidB, hutcB, haccB, hsameB⟩ := parentShown_facts hwfA (by rw [hportA]; exact hport) hb
  obtain ⟨c, hc⟩ : ∃ c, c = b.timTo 1 := ⟨_, rfl⟩
  obtain ⟨hwfC, hstateC, hbutC, hplaceC, htimC, -⟩ := timTo_facts hwfB (.inr (.inl rfl)) hc
  rw [← hb, ← hc] at ht
  obtain ⟨hflag, hstate, hbut, hplace, htim⟩ := timBit_facts hwfC ht
  have hbutT : b.RegsBut t [R.TIM_STATUS] := hbutC.trans hbut
  have htimB : b.tim = a.tim := by rw [hsameB]
  refine ⟨?_, ?_, hstate.trans hstateC, hflag, (hplace.trans hplaceC).trans (hplaceB.trans hportA), (hbutT _ (by decide)).trans hgmB,
    (hbutT _ (by decide)).trans hidB, (State.fld_congr (hbutT _ (by decide)) _).trans hutcB,
    (State.fld_congr (hbutT _ (by decide)) _).trans haccB, ?_, ?_⟩
  · rw [htim, htimC, ← hparentA, ← htimB]
  · rw [htim, htimC, ← hportA, ← htimB]
  · rw [htim, htimC, ← hforeignA, ← htimB]
  · rw [htim, htimC, ← hbaseA, ← htimB]

/-- A second Announce of a better clock within the window makes it the parent. -/
theorem ptpAnnounce_second {n at_ : Nat} (hwf : s.regsWf = true) (hdomain : msg.domain.toNat = s.fld R.TIM_CTRL F.TIM_CTRL_DOMAIN)
    (hfollow : s.ptpMayFollow p = true) (hsource : msg.source ≠ s.identity) (hforeign : s.tim.foreign = [⟨p, m, n, at_⟩]) (hn : 1 ≤ n)
    (hsender : m.source = msg.source) (hsenderPort : m.sourcePort = msg.sourcePort)
    (hwindow : s.mono ≤ at_ + 4 * logNs (signedOf 8 msg.logInterval.toNat)) (hparent : s.tim.parent = none) (hptp : s.timSource = 0)
    (hrank : rankLt (masterRank msg p) s.ownRank = true) : Answers (exec (.ptpAnnounce p msg) s) fun t =>
      t.tim.parent = some msg ∧ t.tim.parentPort = p ∧ t.timState = 1 ∧ t.flag R.TIM_STATUS F.TIM_STATUS_PARENT_CHANGE = true ∧
      t.fld R.TIM_STATUS F.TIM_STATUS_PARENT = p ∧ t.rd R.TIM_GM_ID = msg.gmId ∧ t.rd R.TIM_PARENT_ID = msg.source ∧
      t.fld R.TIM_CLOCK F.TIM_CLOCK_UTC_OFFSET = msg.utcOffset.toNat ∧ t.fld R.TIM_CLOCK F.TIM_CLOCK_ACCURACY = msg.accuracy.toNat ∧
      t.tim.foreign = [⟨p, msg, n + 1, s.mono⟩] ∧ t.tim.base = s.tim.base := by
  have hown : ofSender p msg ⟨p, m, n, at_⟩ = true := by
    rw [ofSender, hsender, hsenderPort]
    simp
  have hcount : announcesOf s p msg = n + 1 := by
    rw [announcesOf, hforeign, List.find?_cons_of_pos hown]
    exact if_pos hwindow
  have hrecord : announced s p msg = { s with tim := { s.tim with foreign := [⟨p, msg, n + 1, s.mono⟩] } } := by
    rw [announced, hcount, hforeign, List.filter_cons_of_neg (by rw [hown]; decide)]
    rfl
  rw [exec_ptpAnnounce hdomain hfollow hsource, hrecord]
  obtain ⟨a, ha⟩ : ∃ a, a = ({ s with tim := { s.tim with foreign := [⟨p, msg, n + 1, s.mono⟩] } } : State) := ⟨_, rfl⟩
  have hforeignA : a.tim.foreign = [⟨p, msg, n + 1, s.mono⟩] := by rw [ha]
  have hfollowA : a.ptpMayFollow p = true := by rw [ha]; exact hfollow
  have hqualified : (Foreign.mk p msg (n + 1) s.mono).qualified = true := decide_eq_true (show 2 ≤ n + 1 by omega)
  have hbest : a.bestForeign a.ptpMayFollow = some ⟨p, msg, n + 1, s.mono⟩ := by
    unfold State.bestForeign
    rw [hforeignA, List.filter_cons_of_pos (by rw [hqualified, hfollowA]; rfl)]
    rfl
  rw [← ha]
  obtain ⟨b, hb⟩ : ∃ b, b = a.bestMaster := ⟨_, rfl⟩
  obtain ⟨h1, h2, h3, h4, h5, h6, h7, h8, h9, h10, h11⟩ := bestMaster_facts (by rw [ha]; exact hwf) p.isLt (by rw [ha]; exact hptp) hbest
    (by rw [ha]; exact hrank) (by rw [ha]; exact hparent) hb
  have hframe := ptpDecided_frame b a
  rw [← hb]
  generalize b.ptpDecided a = t at hframe
  have hregs : t.regs = b.regs := by rw [hframe]
  have hfld : ∀ o f, t.fld o f = b.fld o f := fun o f => State.fld_congr (State.rd_congr hregs o) f
  refine ⟨t, rfl, ?_, ?_, (hfld _ _).trans h3, (State.flag_congr (State.rd_congr hregs _) _).trans h4, (hfld _ _).trans h5,
    (State.rd_congr hregs _).trans h6, (State.rd_congr hregs _).trans h7, (hfld _ _).trans h8, (hfld _ _).trans h9, ?_, ?_⟩
  · rw [hframe]; exact h1
  · rw [hframe]; exact h2
  · rw [hframe]; exact h10.trans hforeignA
  · rw [hframe]
    refine h11.trans ?_
    rw [ha]

/-! ## Messages at their intervals -/

/-- What a message changes that leaves a port whose exchanges have counted it. -/
theorem ptpSent_facts {a : State} {q udpPort : Nat} {body f : Bytes} (hq : q < 2048)
    (htransport : s.flag (R.TIM_PORT_CFG q) F.TIM_PORT_CFG_TRANSPORT = false)
    (ha : a = { s with tim := { s.tim with ports := a.tim.ports }, cnt := a.cnt }) (hf : f = ptpFrame s body) (ht : t = a.ptpSend q udpPort body) :
    t.out = { s.out with frames := s.out.frames ++ [(q, f ++ fcsOf f)] } ∧ (∀ r, t.ptp r = a.ptp r) ∧
    (∀ k, ctrKey 10 0 ≤ k → sget {} t.cnt.counters k = sget {} a.cnt.counters k) ∧
    t = { s with tim := { s.tim with ports := t.tim.ports }, out := t.out, cnt := t.cnt, swc := t.swc } ∧
    (s.mirrorsOf 1 q = [] → t.swc = s.swc) := by
  have hregs : a.regs = s.regs := by rw [ha]
  have hout : a.out = s.out := by rw [ha]
  have hswcA : a.swc = s.swc := by rw [ha]
  have hframeA : ptpFrame a body = f := by rw [hf, ha]; rfl
  have hmirrors : a.mirrorsOf 1 q = s.mirrorsOf 1 q := by rw [ha]; rfl
  obtain ⟨houtT, hcounts, hframe, hswc⟩ := ptpSend_facts hq ((State.flag_congr (State.rd_congr hregs _) _).trans htransport) ht
  rw [hframeA, hout] at houtT
  have htim : t.tim = a.tim := by rw [hframe]
  exact ⟨houtT, fun r => by rw [State.ptp, htim, State.ptp], hcounts, by rw [hframe, ha],
    fun h => (hswc (hmirrors.trans h)).trans hswcA⟩

theorem transmit_idle {kind : PtpKind} {c : Prop} [Decidable c] {u : State} (h : exec (.ptpTransmitInterval p kind capture) s = .next (if c then u else s))
    (hc : ¬ c) : exec (.ptpTransmitInterval p kind capture) s = .next s := h.trans (congrArg _ (if_neg hc))

theorem transmitSync_eq : exec (.ptpTransmitInterval p .sync capture) s =
    .next (if s.ptpState p = 6 ∧ s.ptpMaySend p 44 = true then s.sendSync p (s.txTime p capture) else s) := rfl

theorem transmitAnnounce_eq : exec (.ptpTransmitInterval p .announce capture) s =
    .next (if s.ptpState p = 6 ∧ s.ptpMaySend p 64 = true then s.sendAnnounce p else s) := rfl

theorem transmitDelayReq_eq : exec (.ptpTransmitInterval p .delayReq capture) s =
    .next (if s.ptpRole p = 9 ∧ s.ptpMaySend p 44 = true then s.sendDelayReq p (s.txTime p capture) else s) := rfl

/-- Of a role and a window one is missing. -/
theorem not_sends {send : Bool} {r : Nat} {n : Nat} (h : r ≠ n ∨ send = false) : ¬ (r = n ∧ send = true) := by
  rintro ⟨hr, hs⟩
  exact h.elim (fun hne => hne hr) fun hf => Bool.noConfusion (hf.symm.trans hs)

/-- The exchanges of a port after a Sync, and its count. -/
def syncCounted (s : State) (q : Nat) : State := (s.setPtp q { s.ptp q with syncSeq := (s.ptp q).syncSeq + 1 }).count (ctrTimPort q 0)

theorem sendSync_eq (s : State) (q : Nat) (t1 : Int) : s.sendSync q t1 = (syncCounted s q).ptpSend q 319
    (s.ptpHeader q 0 10 0 (t1.toNat % 65536 : Nat) (s.ptp q).syncSeq.toNat 0 (s.logSync % 256).toNat ++ ptpStamp t1) := rfl

theorem transmit_sync {t1 : Int} {f : Bytes} (hstate : s.ptpState p = 6) (hsend : s.ptpMaySend p 44 = true) (hp : p.val < 2048)
    (htransport : s.flag (R.TIM_PORT_CFG p) F.TIM_PORT_CFG_TRANSPORT = false) (hports : swf (fun _ => {}) s.tim.ports = true)
    (ht1 : t1 = s.txTime p capture)
    (hf : f = padFrame (ethHeader 0x011B19000000 s.mac 0x88F7 ++ s.ptpHeader p 0 10 0 (t1.toNat % 65536 : Nat) (s.ptp p).syncSeq.toNat 0
      (s.logSync % 256).toNat ++ ptpStamp t1)) : Answers (exec (.ptpTransmitInterval p .sync capture) s) fun t =>
      t.out = { s.out with frames := s.out.frames ++ [(p.val, f ++ fcsOf f)] } ∧
      t.ptp p = { s.ptp p with syncSeq := (s.ptp p).syncSeq + 1 } ∧ (∀ q, q ≠ p.val → t.ptp q = s.ptp q) ∧
      (sget {} t.cnt.counters (ctrTimPort p 0)).acc = (sget {} s.cnt.counters (ctrTimPort p 0)).acc + 1 ∧
      t = { s with tim := { s.tim with ports := t.tim.ports }, out := t.out, cnt := t.cnt, swc := t.swc } ∧
      (s.mirrorsOf 1 p = [] → t.swc = s.swc) := by
  rw [List.append_assoc] at hf
  rw [transmitSync_eq, if_pos ⟨hstate, hsend⟩, ← ht1, sendSync_eq]
  obtain ⟨a, ha⟩ : ∃ a, a = syncCounted s p := ⟨_, rfl⟩
  have hself : a.ptp p = { s.ptp p with syncSeq := (s.ptp p).syncSeq + 1 } := by rw [ha]; exact setPtp_ptp_of_wf _ hports
  have hothers : ∀ q, q ≠ p.val → a.ptp q = s.ptp q := fun q hq => by rw [ha]; exact setPtp_ptp_of_ne _ _ hq
  have hcount : (sget {} a.cnt.counters (ctrTimPort p 0)).acc = (sget {} s.cnt.counters (ctrTimPort p 0)).acc + 1 := by
    rw [ha, syncCounted, State.count, countBy_acc_self _ _ Nat.one_pos]
    rfl
  have hframeA : a = { s with tim := { s.tim with ports := a.tim.ports }, cnt := a.cnt } := by rw [ha]; rfl
  rw [← ha]
  obtain ⟨t, ht⟩ : ∃ t, t = a.ptpSend p 319 (s.ptpHeader p 0 10 0 (t1.toNat % 65536 : Nat) (s.ptp p).syncSeq.toNat 0
    (s.logSync % 256).toNat ++ ptpStamp t1) := ⟨_, rfl⟩
  obtain ⟨hout, hptp, hcounts, hframe, hswc⟩ := ptpSent_facts hp htransport hframeA hf ht
  refine ⟨t, by rw [ht], hout, (hptp _).trans hself, fun q hq => (hptp q).trans (hothers q hq), ?_, hframe, hswc⟩
  rw [hcounts _ (ctrTimPort_high p 0), hcount]

/-- The attributes that an Announce carries of a parent. -/
def parentAttr (m : PtpMsg) : Bytes :=
  beBytes 1 m.priority1.toNat ++ beBytes 1 m.clockClass.toNat ++ beBytes 1 m.accuracy.toNat ++ beBytes 2 m.variance.toNat ++
    beBytes 1 m.priority2.toNat ++ beBytes 8 m.gmId.toNat ++ beBytes 2 (m.steps.toNat + 1)

theorem beBytes_length (n v : Nat) : (beBytes n v).length = n := by rw [beBytes, List.length_reverse, leBytes_length]

theorem ethHeader_length (dmac smac etype : Nat) : (ethHeader dmac smac etype).length = 14 := by
  simp only [ethHeader, List.length_append, beBytes_length]

theorem ptpHeader_length (s : State) (q ty len flags : Nat) (corr : Int) (seq control interval : Nat) :
    (s.ptpHeader q ty len flags corr seq control interval).length = 34 := by
  simp only [State.ptpHeader, List.length_append, beBytes_length]

theorem ptpStamp_length (u : Int) : (ptpStamp u).length = 10 := by
  simp only [ptpStamp, List.length_append, beBytes_length]

/-- The first 44 bytes of an Announce. -/
def announceHead (s : State) (q flags : Nat) : Bytes :=
  s.ptpHeader q 0xB 30 flags 0 (s.ptp q).announceSeq.toNat 5 (s.logAnnounce % 256).toNat ++ ptpStamp 0

theorem announceHead_length (s : State) (q flags : Nat) : (announceHead s q flags).length = 44 := by
  rw [announceHead, List.length_append, ptpHeader_length, ptpStamp_length]

/-- The attributes of an Announce of the module itself. -/
def ownAttr (s : State) : Bytes := beBytes 2 (s.fld R.TIM_CLOCK F.TIM_CLOCK_UTC_OFFSET) ++ beBytes 1 0 ++
  beBytes 1 (s.fld R.TIM_CLOCK F.TIM_CLOCK_PRIORITY1) ++ beBytes 1 s.ownClass ++ beBytes 1 0xFE ++ beBytes 2 Config.clockVariance.toNat ++
  beBytes 1 (s.fld R.TIM_CLOCK F.TIM_CLOCK_PRIORITY2) ++ beBytes 8 s.identity.toNat ++ beBytes 2 0

/-- The body of an Announce begins with a header and a stamp of 44 bytes; under a parent 3 bytes later come its attributes. -/
theorem sendAnnounce_eq (s : State) (q : Nat) : ∃ head attr rest : Bytes, head.length = 44 ∧ s.sendAnnounce q =
    (s.setPtp q { s.ptp q with announceSeq := (s.ptp q).announceSeq + 1 }).ptpSend q 320 (head ++ attr ++ rest) ∧
    ∀ m, s.tim.parent = some m → attr = beBytes 2 m.utcOffset.toNat ++ beBytes 1 0 ++ parentAttr m := by
  cases h : s.tim.parent with
  | none =>
    refine ⟨announceHead s q Config.timeFlags.toNat, ownAttr s, beBytes 1 Config.timeSource.toNat, announceHead_length _ _ _, ?_, nofun⟩
    rw [State.sendAnnounce, h]
    rfl
  | some m =>
    refine ⟨announceHead s q m.timeFlags.toNat, beBytes 2 m.utcOffset.toNat ++ beBytes 1 0 ++ parentAttr m, beBytes 1 m.timeSource.toNat,
      announceHead_length _ _ _, ?_, fun m' hm => by cases hm; rfl⟩
    rw [State.sendAnnounce, h, parentAttr, announceHead]
    simp only [List.append_assoc]

theorem transmit_announce (hstate : s.ptpState p = 6) (hsend : s.ptpMaySend p 64 = true) (hp : p.val < 2048)
    (htransport : s.flag (R.TIM_PORT_CFG p) F.TIM_PORT_CFG_TRANSPORT = false) (hports : swf (fun _ => {}) s.tim.ports = true) :
    Answers (exec (.ptpTransmitInterval p .announce capture) s) fun t =>
      t.ptp p = { s.ptp p with announceSeq := (s.ptp p).announceSeq + 1 } ∧ (∀ q, q ≠ p.val → t.ptp q = s.ptp q) ∧
      (∃ f, t.out = { s.out with frames := s.out.frames ++ [(p.val, f ++ fcsOf f)] } ∧ f.take 14 = ethHeader 0x011B19000000 s.mac 0x88F7 ∧
        (∀ m, s.tim.parent = some m → (f.drop 61).take 16 = beBytes 1 m.priority1.toNat ++ beBytes 1 m.clockClass.toNat ++
          beBytes 1 m.accuracy.toNat ++ beBytes 2 m.variance.toNat ++ beBytes 1 m.priority2.toNat ++ beBytes 8 m.gmId.toNat ++
          beBytes 2 (m.steps.toNat + 1))) ∧
      t = { s with tim := { s.tim with ports := t.tim.ports }, out := t.out, cnt := t.cnt, swc := t.swc } ∧
      (s.mirrorsOf 1 p = [] → t.swc = s.swc) := by
  obtain ⟨head, attr, rest, hhead, heq, hattr⟩ := sendAnnounce_eq s p
  rw [transmitAnnounce_eq, if_pos ⟨hstate, hsend⟩, heq]
  obtain ⟨a, ha⟩ : ∃ a, a = s.setPtp p { s.ptp p with announceSeq := (s.ptp p).announceSeq + 1 } := ⟨_, rfl⟩
  have hself : a.ptp p = { s.ptp p with announceSeq := (s.ptp p).announceSeq + 1 } := by rw [ha]; exact setPtp_ptp_of_wf _ hports
  have hothers : ∀ q, q ≠ p.val → a.ptp q = s.ptp q := fun q hq => by rw [ha]; exact setPtp_ptp_of_ne _ _ hq
  have hframeA : a = { s with tim := { s.tim with ports := a.tim.ports }, cnt := a.cnt } := by rw [ha]; rfl
  rw [← ha]
  obtain ⟨t, ht⟩ : ∃ t, t = a.ptpSend p 320 (head ++ attr ++ rest) := ⟨_, rfl⟩
  obtain ⟨hout, hptp, -, hframe, hswc⟩ := ptpSent_facts hp htransport hframeA rfl ht
  refine ⟨t, by rw [ht], (hptp _).trans hself, fun q hq => (hptp q).trans (hothers q hq), ⟨_, hout, ?_, fun m hm => ?_⟩, hframe, hswc⟩
  · rw [ptpFrame, padFrame, List.append_assoc, List.take_left' (ethHeader_length _ _ _)]
  · rw [hattr m hm, ptpFrame, padFrame]
    have hlead : (ethHeader 0x011B19000000 s.mac 0x88F7 ++ head ++ beBytes 2 m.utcOffset.toNat ++ beBytes 1 0).length = 61 := by
      simp only [List.length_append, ethHeader_length, hhead, beBytes_length]
    have hlen : (parentAttr m).length = 16 := by
      simp only [parentAttr, List.length_append, beBytes_length]
    generalize List.replicate _ (0 : Byte) = pad
    have hsplit : ethHeader 0x011B19000000 s.mac 0x88F7 ++ (head ++ (beBytes 2 m.utcOffset.toNat ++ beBytes 1 0 ++ parentAttr m) ++ rest) ++ pad =
        (ethHeader 0x011B19000000 s.mac 0x88F7 ++ head ++ beBytes 2 m.utcOffset.toNat ++ beBytes 1 0) ++ (parentAttr m ++ (rest ++ pad)) := by
      simp only [List.append_assoc]
    rw [hsplit, List.drop_left' hlead, List.take_left' hlen]
    rfl

theorem sendDelayReq_eq (s : State) (q : Nat) (t3 : Int) : s.sendDelayReq q t3 =
    (s.setPtp q { s.ptp q with delaySeq := (s.ptp q).delaySeq + 1, t3 := some (t3 - (t3.toNat % 65536 : Nat)) }).ptpSend q 319
      (s.ptpHeader q 1 10 0 (t3.toNat % 65536 : Nat) (s.ptp q).delaySeq.toNat 1 0x7F ++ ptpStamp t3) := rfl

theorem transmit_delayReq {t3 : Int} {f : Bytes} (hrole : s.ptpRole p = 9) (hsend : s.ptpMaySend p 44 = true) (hp : p.val < 2048)
    (htransport : s.flag (R.TIM_PORT_CFG p) F.TIM_PORT_CFG_TRANSPORT = false) (ht3 : t3 = s.txTime p capture)
    (hf : f = padFrame (ethHeader 0x011B19000000 s.mac 0x88F7 ++ s.ptpHeader p 1 10 0 (t3.toNat % 65536 : Nat) (s.ptp p).delaySeq.toNat 1 0x7F ++
      ptpStamp t3)) : Answers (exec (.ptpTransmitInterval p .delayReq capture) s) fun t =>
      t.out = { s.out with frames := s.out.frames ++ [(p.val, f ++ fcsOf f)] } ∧
      t.ptp p = { s.ptp p with delaySeq := (s.ptp p).delaySeq + 1, t3 := some (t3 - (t3.toNat % 65536 : Nat)) } ∧
      (∀ q, q ≠ p.val → t.ptp q = s.ptp q) ∧
      t = { s with tim := { s.tim with ports := t.tim.ports }, out := t.out, cnt := t.cnt, swc := t.swc } ∧
      (s.mirrorsOf 1 p = [] → t.swc = s.swc) := by
  rw [List.append_assoc] at hf
  rw [transmitDelayReq_eq, if_pos ⟨hrole, hsend⟩, ← ht3, sendDelayReq_eq]
  obtain ⟨x, hx⟩ : ∃ x : PtpPort, x = { s.ptp p with delaySeq := (s.ptp p).delaySeq + 1, t3 := some (t3 - (t3.toNat % 65536 : Nat)) } := ⟨_, rfl⟩
  have hne : x ≠ {} := fun he => by
    rw [hx] at he
    exact nomatch congrArg PtpPort.t3 he
  rw [← hx]
  obtain ⟨a, ha⟩ : ∃ a, a = s.setPtp p x := ⟨_, rfl⟩
  have hself : a.ptp p = x := by rw [ha]; exact setPtp_ptp _ _ hne
  have hothers : ∀ q, q ≠ p.val → a.ptp q = s.ptp q := fun q hq => by rw [ha]; exact setPtp_ptp_of_ne _ _ hq
  have hframeA : a = { s with tim := { s.tim with ports := a.tim.ports }, cnt := a.cnt } := by rw [ha]; rfl
  rw [← ha]
  obtain ⟨t, ht⟩ : ∃ t, t = a.ptpSend p 319 (s.ptpHeader p 1 10 0 (t3.toNat % 65536 : Nat) (s.ptp p).delaySeq.toNat 1 0x7F ++ ptpStamp t3) :=
    ⟨_, rfl⟩
  obtain ⟨hout, hptp, -, hframe, hswc⟩ := ptpSent_facts hp htransport hframeA hf ht
  exact ⟨t, by rw [ht], hout, (hptp _).trans hself, fun q hq => (hptp q).trans (hothers q hq), hframe, hswc⟩

/-! ## Losses -/

theorem announceTimeout_idle (h : s.ptpOn p = false ∨ (p.val < 2048 ∧ s.portLent p = true)) : exec (.announceTimeout p) s = .next s :=
  congrArg _ (if_pos h)

theorem not_lentOff (hon : s.ptpOn p = true) (hlent : s.portLent p = false) :
    ¬ (s.ptpOn p = false ∨ (p.val < 2048 ∧ s.portLent p = true)) := by
  rw [hon, hlent]
  exact fun h => h.elim (by decide) fun h => Bool.false_ne_true h.2

/-- A port on which no parent is leaves LISTENING. -/
theorem announceTimeout_noParent (hon : s.ptpOn p = true) (hlent : s.portLent p = false)
    (h : s.tim.parent = none ∨ s.tim.parentPort ≠ p) : Answers (exec (.announceTimeout p) s) fun t =>
      t.ptp p = { s.ptp p with heard := true } ∧ (∀ q, q ≠ p.val → t.ptp q = s.ptp q) ∧
      t.tim.foreign = s.tim.foreign.filter (fun f => f.port != p.val) ∧
      t = { s with tim := { s.tim with foreign := t.tim.foreign, ports := t.tim.ports } } := by
  have hnot : ¬ (s.tim.parent.isSome = true ∧ s.tim.parentPort = p.val) := by
    rintro ⟨hsome, hport⟩
    refine h.elim (fun hn => ?_) fun hne => hne hport
    rw [hn] at hsome
    exact Bool.false_ne_true hsome
  have hexec : exec (.announceTimeout p) s = .next (({ s with tim := { s.tim with foreign := s.tim.foreign.filter fun f => f.port != p.val } } :
      State).setPtp p { s.ptp p with heard := true }) :=
    congrArg _ ((if_neg (not_lentOff hon hlent)).trans (if_neg hnot))
  rw [hexec]
  exact ⟨_, rfl, setPtp_ptp _ _ (fun he => Bool.noConfusion (congrArg PtpPort.heard he)), fun q hq => setPtp_ptp_of_ne _ _ hq, rfl, rfl⟩

theorem syncLoss_other (h : s.tim.parent = none ∨ s.tim.parentPort ≠ p) : exec (.syncLossTimeout p) s = .next s := by
  refine congrArg _ (if_neg ?_)
  rintro ⟨hsome, hport⟩
  refine h.elim (fun hn => ?_) fun hne => hne hport
  rw [hn] at hsome
  exact Bool.false_ne_true hsome

/-- A parent is given up. -/
def parentless (s : State) : State := { s with tim := { s.tim with parent := none, foreign := [] } }

theorem bestForeign_empty {ok : Nat → Bool} (h : s.tim.foreign = []) : s.bestForeign ok = none := by
  rw [State.bestForeign, h]
  rfl

theorem parentLost_eq (hparent : s.tim.parent = some m) (hforeign : s.tim.foreign = []) : s.parentLost =
    (parentless s).parentRegs.sourceLost.bestMaster.ptpDecided (parentless s).parentRegs.sourceLost := by
  have hless : ({ s with tim := { s.tim with parent := none, foreign := s.tim.foreign.filter fun f =>
      !(f.port == s.tim.parentPort && f.msg.source == m.source && f.msg.sourcePort == m.sourcePort) } } : State) = parentless s := by
    rw [hforeign]
    rfl
  rw [← hless]
  unfold State.parentLost
  split
  next hn => exact nomatch hparent.symm.trans hn
  next m' hm =>
    obtain rfl := Option.some.inj (hparent.symm.trans hm)
    rfl

theorem sourceLost_eq (s : State) : s.sourceLost =
    ({ s with tim := { s.tim with slew := 0 } } : State).timTo (if s.tim.locked = true then 3 else 0) := rfl

/-- What the loss of the only clock known leaves. -/
theorem parentLost_facts (hwf : s.regsWf = true) (hsome : s.tim.parent.isSome = true) (hforeign : s.tim.foreign = []) (ht : t = s.parentLost) :
    t.tim.parent = none ∧ t.timState = (if s.tim.locked = true then 3 else 0) ∧ t.fld R.TIM_STATUS F.TIM_STATUS_PARENT = 0xFFF ∧
    t.rd R.TIM_GM_ID = 0 ∧ t.rd R.TIM_PARENT_ID = 0 ∧ t.fld R.TIM_OFFSET F.TIM_OFFSET_DELAY_PS = 0 ∧ t.tim.slew = 0 ∧
    t.tim.rate = s.tim.rate ∧ t.tim.base = s.tim.base ∧
    s.RegsBut t [R.TIM_STATUS, R.TIM_GM_ID, R.TIM_PARENT_ID, R.TIM_OFFSET, R.TIM_CLOCK] ∧
    t = { s with regs := t.regs, tim := t.tim, out := t.out, cnt := t.cnt } := by
  obtain ⟨m, hm⟩ := Option.isSome_iff_exists.1 hsome
  rw [parentLost_eq hm hforeign, parentRegs_none rfl, sourceLost_eq] at ht
  obtain ⟨b, hb⟩ : ∃ b, b = noParentShown (parentless s) := ⟨_, rfl⟩
  obtain ⟨hwfB, hplaceB, -, hgmB, hidB, hdelayB, hbutB, hsameB⟩ := noParentShown_facts (s := parentless s) hwf rfl hb
  have htimB : b.tim = { s.tim with parent := none, foreign := [] } := by rw [hsameB]; rfl
  have hframeB : b = { s with regs := b.regs, tim := b.tim } := by rw [hsameB]; rfl
  have hbutS : s.RegsBut b [R.TIM_STATUS, R.TIM_GM_ID, R.TIM_PARENT_ID, R.TIM_OFFSET, R.TIM_CLOCK] := hbutB
  have hlocked : b.tim.locked = s.tim.locked := by rw [htimB]
  rw [← hb, hlocked] at ht
  obtain ⟨c, hc⟩ : ∃ c, c = ({ b with tim := { b.tim with slew := 0 } } : State) := ⟨_, rfl⟩
  have hregsC : c.regs = b.regs := by rw [hc]
  have htimC : c.tim = { s.tim with parent := none, foreign := [], slew := 0 } := by rw [hc, htimB]
  have hframeC : c = { s with regs := c.regs, tim := c.tim } := by rw [hc, hframeB]
  have hst : (if s.tim.locked = true then 3 else 0) = 0 ∨ (if s.tim.locked = true then 3 else 0) = 1 ∨
      (if s.tim.locked = true then 3 else 0) = 3 := by
    split <;> decide
  rw [← hc] at ht
  clear hb hc
  generalize (if s.tim.locked = true then 3 else 0) = st at hst ht ⊢
  obtain ⟨u, hu⟩ : ∃ u, u = c.timTo st := ⟨_, rfl⟩
  obtain ⟨-, hstate, hbut, hplace, htim, hframe⟩ := timTo_facts (State.regsWf_congr hregsC hwfB) hst hu
  rw [← hu] at ht
  have hparentU : u.tim.parent = none := by rw [htim, htimC]
  have hforeignU : u.tim.foreign = [] := by rw [htim, htimC]
  rw [bestMaster_unchanged (bestForeign_empty hforeignU), ptpDecided_none hparentU] at ht
  have hbutT : b.RegsBut u [R.TIM_STATUS] := (State.RegsBut.of_regs hregsC _).trans hbut
  rw [ht]
  refine ⟨hparentU, hstate, ?_, (hbutT _ (by decide)).trans hgmB, (hbutT _ (by decide)).trans hidB,
    (State.fld_congr (hbutT _ (by decide)) _).trans hdelayB, by rw [htim, htimC], by rw [htim, htimC], by rw [htim, htimC],
    hbutS.trans (hbutT.mono (by simp)), by rw [hframe, hframeC]⟩
  rw [hplace, State.fld_congr (State.rd_congr hregsC _), hplaceB]

theorem syncLoss_parent (hwf : s.regsWf = true) (hsome : s.tim.parent.isSome = true) (hport : s.tim.parentPort = p) (hforeign : s.tim.foreign = []) :
    Answers (exec (.syncLossTimeout p) s) fun t =>
      t.tim.parent = none ∧ t.timState = (if s.tim.locked = true then 3 else 0) ∧ t.fld R.TIM_STATUS F.TIM_STATUS_PARENT = 0xFFF ∧
      t.rd R.TIM_GM_ID = 0 ∧ t.rd R.TIM_PARENT_ID = 0 ∧ t.fld R.TIM_OFFSET F.TIM_OFFSET_DELAY_PS = 0 ∧ t.tim.slew = 0 ∧
      t.tim.rate = s.tim.rate ∧ t.tim.base = s.tim.base ∧
      s.RegsBut t [R.TIM_STATUS, R.TIM_GM_ID, R.TIM_PARENT_ID, R.TIM_OFFSET, R.TIM_CLOCK] ∧
      (s.ptpOn p = true → s.portLent p = false → exec (.announceTimeout p) s = .next t) ∧
      t = { s with regs := t.regs, tim := t.tim, out := t.out, cnt := t.cnt } := by
  have hexec : exec (.syncLossTimeout p) s = .next s.parentLost := congrArg _ (if_pos ⟨hsome, hport⟩)
  have hannounce (hon : s.ptpOn p = true) (hlent : s.portLent p = false) : exec (.announceTimeout p) s = .next s.parentLost :=
    congrArg _ ((if_neg (not_lentOff hon hlent)).trans (if_pos ⟨hsome, hport⟩))
  rw [hexec]
  obtain ⟨h1, h2, h3, h4, h5, h6, h7, h8, h9, h10, h11⟩ := parentLost_facts hwf hsome hforeign rfl
  exact ⟨_, rfl, h1, h2, h3, h4, h5, h6, h7, h8, h9, h10, hannounce, h11⟩

end

/-- Settles O51, message by message. -/
theorem ptpMessages : Obligations.PtpMessages := by
  unfold Obligations.PtpMessages
  refine ⟨fun _ _ _ _ => ptpMessages_foreign, fun _ _ _ _ => ptpMessages_off, fun _ _ _ _ h _ => ptpSync_elsewhere h,
    fun _ _ _ _ h _ hon hp hst _ => ptpSync_twoStep h hon hp hst, fun _ _ _ _ h _ hon hp hst _ => ptpSync_unknown h hon hp hst,
    fun _ _ _ _ _ _ hwf h _ => ptpSync_locking hwf h, fun _ _ _ _ _ h _ => ptpFollowUp_other h, fun _ _ _ h _ => exec_ptpFollowUp_none h,
    fun _ _ _ _ _ h _ hon hp hw hseq hd _ => ptpFollowUp_unknown h hon hp hw hseq hd, fun _ _ _ _ _ _ _ hwf h _ => ptpFollowUp_known hwf h,
    fun _ _ _ _ h _ => ptpDelayReq_unanswered h, fun _ _ _ _ _ _ _ => ptpDelayReq_answered, fun _ _ _ h _ => exec_ptpDelayResp_other h,
    fun _ _ _ _ _ _ _ hwf h _ hon hp hr hrp hseq h1 h2 h3 _ => ptpDelayResp_own hwf h hon hp hr hrp hseq h1 h2 h3,
    fun _ _ _ h _ => ptpAnnounce_ignored h, fun _ _ _ => ptpAnnounce_first, fun _ _ _ _ _ _ => ptpAnnounce_second, fun p kind capture s => ?_,
    fun _ _ _ _ _ => transmit_sync, fun _ _ _ => transmit_announce, fun _ _ _ _ _ hr hs hp htr _ => transmit_delayReq hr hs hp htr,
    fun _ _ => announceTimeout_idle, fun _ _ hon _ hlent h _ => announceTimeout_noParent hon hlent h, fun _ _ => syncLoss_other,
    fun _ _ => syncLoss_parent⟩
  cases kind with
  | sync => exact fun h => transmit_idle transmitSync_eq (not_sends h)
  | announce => exact fun h => transmit_idle transmitAnnounce_eq (not_sends h)
  | delayReq => exact fun h => transmit_idle transmitDelayReq_eq (not_sends h)

end Sys2Proof.Proofs
end
section
/-! PROOF. Loads and stores of a g register, vector and tile transfers (spec/05 R139 to R141). -/

namespace Sys2Proof.Proofs
open Sys2Proof Sys2Proof.Machine

section
variable {s u : State} {c : Ctx} {w : Nat} {locks : List Lock} {long : Bool} {read : HostRead} {errs : List LineErr}

/-! ## Contexts beside an access -/

/-- A read that gives bytes changes no context. -/
theorem spaceRead_dxn {space a n : Nat} {b : Bytes} (h : s.spaceRead c space a n read errs = (u, some b)) : u.dxn = s.dxn := by
  unfold State.spaceRead at h
  split at h
  · cases h; rfl
  · obtain ⟨t, hmarked, hread, -⟩ := devRead_marked s a n errs
    rw [hread] at h
    cases (Prod.mk.inj h).1
    exact hmarked.dxn
  · cases (Prod.mk.inj h).1; rfl
  · split at h
    · split at h
      · exact nomatch (Prod.mk.inj h).2
      · cases (Prod.mk.inj h).1; rfl
    · exact nomatch (Prod.mk.inj h).2
  · cases h; rfl

theorem spaceWrite_ctx (s : State) (c d : Ctx) (space a : Nat) (b : Bytes) : (s.spaceWrite c space a b).ctx d = s.ctx d := by
  unfold State.spaceWrite
  split
  · cases c <;> rfl
  · rw [State.ctx, devWrite_dxn, State.ctx]
  · rfl
  · split
    · rfl
    · rfl
  · rfl

/-- Only a C context reaches the registers. -/
theorem ctx_of_regSpace {a n align : Nat} {write : Bool} (h : s.memFault c 5 a n align write = none) : ∃ n, c = .c n := by
  unfold State.memFault at h
  split at h
  · exact nomatch h
  next hin =>
    cases c with
    | c n => exact ⟨n, rfl⟩
    | b e sl => exact absurd (.inl rfl) hin
    | t q row col n => exact absurd (.inl rfl) hin

/-- A register access of a C context leaves it running, with its code. -/
theorem readReg_sameRun {a n align : Nat} {write : Bool} (h : s.memFault c 5 a n align write = none) (off : Nat) :
    SameRun (s.ctx c) ((s.readReg off).2.ctx c) := by
  obtain ⟨n, rfl⟩ := ctx_of_regSpace h
  exact (State.Keeps.refl (calm := true) s).readReg.run rfl n

theorem writeReg_sameRun {a n align : Nat} {write : Bool} (h : s.memFault c 5 a n align write = none) (off : Nat) (v : Word) {who : Writer}
    (hwho : who.source = 1) : SameRun (s.ctx c) ((s.writeReg off v who).ctx c) := by
  obtain ⟨n, rfl⟩ := ctx_of_regSpace h
  exact ((State.Keeps.refl (calm := true) s).writeReg fun _ => hwho).run rfl n

/-! ## Transfers that raise something, or nothing -/

theorem transfer_go {n align : Nat} {write : Bool} {k : Nat → State → Res} (h : s.memFault c (iT w) (mAddr (s.ctx c) w) n align write = none) :
    s.transfer c w n align write k = k (mAddr (s.ctx c) w) s := by
  unfold State.transfer
  extract_lets a
  split
  next e he => exact nomatch h.symm.trans he
  · rfl

theorem transfer_fault {n align e : Nat} {write : Bool} {k : Nat → State → Res}
    (h : s.memFault c (iT w) (mAddr (s.ctx c) w) n align write = some e) :
    s.transfer c w n align write k = .fault s e (BitVec.ofNat 64 (mAddr (s.ctx c) w)) := by
  unfold State.transfer
  extract_lets a
  split
  next e' he =>
    obtain rfl := Option.some.inj (h.symm.trans he)
    rfl
  next hn => exact nomatch hn.symm.trans h

/-- An instruction whose effect leaves its context running, with its code. -/
theorem sameRun_steps {k : State → Context → Res} (h : s.Runs c w locks long) (hu : SameRun (s.ctx c) (u.ctx c))
    (hk : k s (s.ctx c) = .go u) : s.Steps c u (s.issue c w locks long k) :=
  State.issue_steps h hk (by rw [hu.1]; exact h.1.1) hu.2

/-! ## Loads -/

variable {widen : Nat → Nat → Word}

theorem load_steps {b : Bytes} (h : s.Runs c w [] false)
    (hfault : s.memFault c (iT w) (mAddr (s.ctx c) w) (2 ^ mWidth w) (2 ^ mWidth w) false = none) (hspace : iT w ≠ 5)
    (hread : s.spaceRead c (iT w) (mAddr (s.ctx c) w) (2 ^ mWidth w) read errs = (u, some b)) :
    s.Steps c (u.setCtx c ((u.ctx c).setReg (wD w) (widen (8 * 2 ^ mWidth w) (leNat b)))) (s.load c w read errs widen) := by
  have hctx : u.ctx c = s.ctx c := by rw [State.ctx, spaceRead_dxn hread, State.ctx]
  refine setCtx_steps h (by rw [hctx]; exact (SameRun.refl _).setReg ..) ?_
  refine (transfer_go hfault).trans ((if_neg hspace).trans ?_)
  rw [hread]

theorem load_register (h : s.Runs c w [] false)
    (hfault : s.memFault c 5 (mAddr (s.ctx c) w) (2 ^ mWidth w) (2 ^ mWidth w) false = none) (hspace : iT w = 5) :
    s.Steps c (let r := s.readReg (mAddr (s.ctx c) w)
      r.2.setCtx c ((r.2.ctx c).setReg (wD w) r.1)) (s.load c w read errs widen) := by
  refine setCtx_steps h ((readReg_sameRun hfault _).setReg ..) ?_
  exact (transfer_go (by rw [hspace]; exact hfault)).trans (if_pos hspace)

theorem load_raises {e : Nat} (h : s.Runs c w [] false)
    (hfault : s.memFault c (iT w) (mAddr (s.ctx c) w) (2 ^ mWidth w) (2 ^ mWidth w) false = some e) :
    s.Raises c e (BitVec.ofNat 64 (mAddr (s.ctx c) w)) (s.load c w read errs widen) :=
  State.issue_fault h.1 (transfer_fault hfault)

/-! ## Stores -/

theorem exec_dxnSt {body : BitVec 56} (hw : w = dxnWord 0x82 body) : exec (.dxnSt c body) s = .next (s.issue c w [] false fun s x =>
    s.transfer c w (2 ^ mWidth w) (2 ^ mWidth w) true fun a s =>
      if iT w = 5 then .go (s.writeReg a (x.reg (wD w)) { source := 1, domain := x.domain })
      else .go (s.spaceWrite c (iT w) a (leBytes (2 ^ mWidth w) (x.reg (wD w)).toNat))) := by
  subst hw
  rfl

theorem store_steps {body : BitVec 56} (hw : w = dxnWord 0x82 body) (h : s.Runs c w [] false) (hspace : iT w ≠ 5)
    (hfault : s.memFault c (iT w) (mAddr (s.ctx c) w) (2 ^ mWidth w) (2 ^ mWidth w) true = none) :
    Answers (exec (.dxnSt c body) s) (s.Steps c (s.spaceWrite c (iT w) (mAddr (s.ctx c) w) (leBytes (2 ^ mWidth w) ((s.ctx c).reg (wD w)).toNat))) := by
  rw [exec_dxnSt hw]
  refine ⟨_, rfl, sameRun_steps h ?_ ((transfer_go hfault).trans (if_neg hspace))⟩
  rw [spaceWrite_ctx]
  exact .refl _

theorem store_register {body : BitVec 56} (hw : w = dxnWord 0x82 body) (h : s.Runs c w [] false) (hspace : iT w = 5)
    (hfault : s.memFault c 5 (mAddr (s.ctx c) w) (2 ^ mWidth w) (2 ^ mWidth w) true = none) :
    Answers (exec (.dxnSt c body) s) (s.Steps c (s.writeReg (mAddr (s.ctx c) w) ((s.ctx c).reg (wD w)) { source := 1, domain := (s.ctx c).domain })) := by
  rw [exec_dxnSt hw]
  exact ⟨_, rfl, sameRun_steps h (writeReg_sameRun hfault _ _ rfl)
    ((transfer_go (by rw [hspace]; exact hfault)).trans (if_pos hspace))⟩

theorem store_raises {body : BitVec 56} {e : Nat} (hw : w = dxnWord 0x82 body) (h : s.Runs c w [] false)
    (hfault : s.memFault c (iT w) (mAddr (s.ctx c) w) (2 ^ mWidth w) (2 ^ mWidth w) true = some e) :
    Answers (exec (.dxnSt c body) s) (s.Raises c e (BitVec.ofNat 64 (mAddr (s.ctx c) w))) := by
  rw [exec_dxnSt hw]
  exact ⟨_, rfl, State.issue_fault h.1 (transfer_fault hfault)⟩

/-! ## Vector and tile transfers -/

/-- A transfer that issues as a long operation. -/
theorem transfer_steps {n align : Nat} {write : Bool} {kind : Nat → State → LongKind} {l : List Lock} (h : s.Runs c w locks true)
    (hfault : s.memFault c (iT w) (mAddr (s.ctx c) w) n align write = none) :
    s.Steps c (s.addLong c (kind (mAddr (s.ctx c) w) s) l)
      (s.issue c w locks true fun s _ => s.transfer c w n align write fun a s => .go (s.addLong c (kind a s) l)) :=
  addLong_steps h (transfer_go hfault)

/-! ## Completions -/

theorem doVload_some {o : LongOp} {v sp n : Nat} {a : Word} {b : Bytes} (h : s.spaceRead o.ctx sp a.toNat n read errs = (u, some b)) :
    s.doVload o v sp a n read errs = (u.setV o.ctx v (BitVec.ofNat 2048 (leNat b))).completeLong o := by
  rw [State.doVload, h]

theorem doTload_some {o : LongOp} {t sp : Nat} {a : Word} {b : Bytes} (h : s.spaceRead o.ctx sp a.toNat 4096 read errs = (u, some b)) :
    s.doTload o t sp a read errs = (u.setT o.ctx t (tileOf b)).completeLong o := by
  rw [State.doTload, h]

theorem doTload_none {o : LongOp} {t sp : Nat} {a : Word} (h : s.spaceRead o.ctx sp a.toNat 4096 read errs = (u, none)) :
    s.doTload o t sp a read errs = u.failLongMem o := by
  rw [State.doTload, h]

theorem tryEnd_of_running (h : (s.ctx c).status ≠ .stopping) : s.tryEnd c = s := if_neg fun hend => h hend.1

theorem completeLong_bound {o : LongOp} {p : BitVec 16} (hpeg : o.peg = some p) (h : (s.ctx o.ctx).status ≠ .stopping) :
    s.completeLong o = (s.dropLong o.id).addPeg p.toNat 1 := by
  have hstatus : (((s.dropLong o.id).addPeg p.toNat 1).ctx o.ctx).status ≠ .stopping := by
    rw [State.addPeg, setPeg_ctx, (sees_sameRun _ _ _).1]
    exact h
  rw [State.completeLong, hpeg]
  exact tryEnd_of_running hstatus

theorem completeLong_unbound {o : LongOp} (hpeg : o.peg = none) (h : (s.ctx o.ctx).status ≠ .stopping) : s.completeLong o = s.dropLong o.id := by
  rw [State.completeLong, hpeg]
  exact tryEnd_of_running (s := s.dropLong o.id) h

end

/-- Settles O35. -/
theorem loadsAndStores : Obligations.LoadsAndStores := by
  unfold Obligations.LoadsAndStores
  refine ⟨fun c body read errs b u s w hw h hf hsp hr => ⟨_, rfl, ?_⟩, fun c body read errs s w hw h hf hsp => ⟨_, rfl, ?_⟩,
    fun c body read errs k s w hw h hf => ⟨_, rfl, ?_⟩, fun c body read errs b u s w hw h hf hsp hr => ⟨_, rfl, ?_⟩,
    fun c body read errs s w hw h hf hsp => ⟨_, rfl, ?_⟩, fun c body read errs k s w hw h hf => ⟨_, rfl, ?_⟩,
    fun _ _ _ _ => store_steps, fun _ _ _ _ => store_register, fun _ _ _ _ _ => store_raises, fun c body a s w hw h ha hf => ⟨_, rfl, ?_⟩,
    fun c body a s w hw h ha hf => ⟨_, rfl, ?_⟩, fun c body a s w hw h ha hf => ⟨_, rfl, ?_⟩, fun c body a s w hw h ha hf => ⟨_, rfl, ?_⟩,
    fun op v sp n wd a read errs b o u s ho hk hr => ?_, fun op sp a d read errs o s ho hk => ?_,
    fun op t sp a read errs b o u s ho hk hr => ?_, fun op t sp a read errs o u s ho hk hr => ?_, fun _ _ _ => completeLong_bound,
    fun _ _ => completeLong_unbound, fun _ _ _ _ _ _ _ => rfl, fun s a b hwf ht _ k => devWrite_byte s a k b hwf ht⟩
  · subst hw; exact load_steps h hf hsp hr
  · subst hw; exact load_register h hf hsp
  · subst hw; exact load_raises h hf
  · subst hw; exact load_steps h hf hsp hr
  · subst hw; exact load_register h hf hsp
  · subst hw; exact load_raises h hf
  · subst hw ha; exact transfer_steps (kind := fun a _ => .vload _ _ (BitVec.ofNat 64 a) 4 _) h hf
  · subst hw ha; exact transfer_steps (kind := fun a s => .vstore (leBytes _ (s.vreg c _).toNat) _ (BitVec.ofNat 64 a)) h hf
  · subst hw ha; exact transfer_steps (kind := fun a _ => .tload _ _ (BitVec.ofNat 64 a)) h hf
  · subst hw ha; exact transfer_steps (kind := fun a s => .tstore (tileBytes (s.treg c _)) _ (BitVec.ofNat 64 a)) h hf
  · rw [exec_longOpComplete ho, hk]
    exact congrArg _ (doVload_some hr)
  · rw [exec_longOpComplete ho]
    rcases hk with hk | hk
    · rw [hk]
    · rw [hk]
  · rw [exec_longOpComplete ho, hk]
    exact congrArg _ (doTload_some hr)
  · rw [exec_longOpComplete ho, hk]
    exact congrArg _ (doTload_none hr)

end Sys2Proof.Proofs
end
